-- ==== Sys2Proof/Word.lean ====
section
/-!
DEFINITION. The 36-bit word, the octet and sparse word-addressed storage (R9).
-/
namespace Sys2Proof

/-- A word: 36 bits, bit 35 the most significant (R9). -/
abbrev Word := BitVec 36

/-- An octet of a frame or message. -/
abbrev Byte := BitVec 8

/-- A word from a natural number, modulo 2^36. -/
abbrev W (n : Nat) : Word := BitVec.ofNat 36 n

/-- Words by address.  In the canonical form the addresses rise strictly and no entry holds what an
unlisted address reads as (`Cells.wf` in Machine/Cells.lean). -/
abbrev Cells := List (Nat × Word)

end Sys2Proof
end

