-- ==== Sys2Proof/Syntax.lean ====
section
/-!
DEFINITION. The commands of the chip: one constructor per row of spec/opcode_table.json, with the
operands its rule gives it.  A command is a register access by an agent, an instruction of a core, a
transfer of a port, a frame or field event, or an instant that a rule names.
-/
namespace Sys2Proof

/-- Who makes an access: the three cores, the host agent, the service port master (R19, R87, R420). -/
inductive Agent where
  | foxA | foxB | badger | host | svc
deriving DecidableEq, Repr

/-- The three J36 cores; CID 0, 1 and 2 (R441). -/
inductive Core where
  | foxA | foxB | badger
deriving DecidableEq, Repr

/-- The blocks whose EN software may clear (R16). -/
inductive Block where
  | syn | rfe | cx | mdm | lnk | cph | nfc | hp
deriving DecidableEq, Repr

/-- The brown-out detectors that reset the chip (R98). -/
inductive Detector where
  | vin | vsys | vcore
deriving DecidableEq, Repr

/-- The stamped items, in the fixed order of R32. -/
inductive StampItem where
  | rxFrame | txDone | slotRecord | nfcFrame | event
deriving DecidableEq, Repr

/-- What Bear's measurement samples (R122, R123): VIN and VBS at 2 mA and at 10 mA, VIN and VBS
unloaded before and after, all in microvolts; the charge drawn in nanocoulombs and the fall of VSYS
in microvolts; and VSYS at the end. -/
structure SupplyMeas where
  vin2 : Nat
  vin10 : Nat
  vbs2 : Nat
  vbs10 : Nat
  vinBefore : Nat
  vinAfter : Nat
  vbsBefore : Nat
  vbsAfter : Nat
  charge : Nat
  fall : Nat
  vsys : Nat
deriving DecidableEq, Repr

/-- The MODE, IXS and OPD fields of an instruction word (R469). -/
structure Opnd where
  mode : BitVec 3
  ixs : Bool
  opd : BitVec 24
deriving DecidableEq, Repr

/-- What the demodulator finds as it acquires (R196, R219, R231): the carrier offset in the mode's unit, the symbol timing as the
value at which it finds the preamble's up-sweeps, the symbol-rate error in 1/1,000,000 and the phase reference in 1/4,096 turn;
and what the carrier or the pilots, and the long sweep's symbol timing, then do, symbol by symbol, which its tracking follows
(R197, R220). -/
structure RxAcq where
  foff : Int
  timing : Int := 0
  rate : Int
  phase : Nat
  course : List Int
  drift : List Int := []
deriving DecidableEq, Repr

/-- A part of a synchronisation field as the demodulator finds it (R196, R219, R231): the value of a sync symbol, or of the
frame mark's down-sweep and up-sweep; the samples of a training symbol after carrier
correction; the bits of the SFD; or nothing, where the mode has no such part. -/
inductive RxSync where
  | sweep (v : Nat)
  | mark (down up : Nat)
  | training (s : List (Int × Int))
  | sfd (bits : List Bool)
  | none
deriving DecidableEq, Repr

/-- A header or a payload as the demodulator delivers it to the decoder: the value of each long-sweep symbol with the
reliability of each row of its bit pattern; the samples of the chirp-multiplex symbols, prefixes included; or the soft bits of
SUN-FSK, positive for 1. -/
inductive RxField where
  | symbols (l : List (Nat × List Nat))
  | samples (l : List (Int × Int))
  | bits (l : List Int)
deriving DecidableEq, Repr

/-- How a service request without data words reaches the port: whether its first response bit is late, and the check word that
follows it in version 2 (R549, R552). -/
structure SvcLine where
  late : Bool := false
  chk : Option Word := none
deriving DecidableEq, Repr

/-- An APDU of SELECT by file ID as it reaches the tag: its class, its instruction and the file ID.  One whose class or
instruction is of no command that the tag serves is answered by its status alone (R358). -/
structure FileSelect where
  cla : Nat := 0x00
  ins : Nat := 0xA4
  fid : Nat
deriving DecidableEq, Repr

/-- Where a command of the mesh came from: its originator, and whether it came LOCAL (R316). -/
structure CmdFrom where
  orig : Nat
  loc : Bool := false
deriving DecidableEq, Repr

/-- The same of a KEY_SWITCH, with its TOKEN. -/
structure CmdHead where
  src : CmdFrom
  token : Nat := 0
deriving DecidableEq, Repr

/-- A frame as it was received: its octets, and the LQI of its quality word. -/
structure MeshRx where
  octets : List Byte
  lqi : Nat
deriving DecidableEq, Repr

/-- A command. -/
inductive Instr where
  /-- A block asked to stop reaches its safe point, stops and ACTIVE reads 0 (R16). -/
  | blockSafePointStop (b : Block)
  /-- VCORE reaches its raised level and the stalled clock change proceeds (R97). -/
  | vcoreRaiseSettled
  /-- The system PLL locks and cores started on HF-REF switch to their selected PLL rate (R102). -/
  | pllLock
  /-- A hardware engine puts an item into a queue, advancing tail or dropping it when the ring is full or off (R27). -/
  | hwQueueProduce (q : Nat) (entry : List Word)
  /-- A hardware consumer takes entries it has seen through the synchroniser and advances head (R41). -/
  | hwQueueConsume (q : Nat) (n : Nat)
  /-- A stamp request reaches the stamp unit, takes the next SEQ and the time of its reference instant (R32). -/
  | stampRequest (item : StampItem) (ago : Int)
  /-- A buffered Fox memory-path write becomes visible to other agents (R36). -/
  | writeBufferDrain (c : Core)
  /-- After a reset is released the Krente runs the boot steps that turn flash contents into a running chip (R557). -/
  | bootSequence (m : SupplyMeas)
  /-- A core's release claim is granted and the core starts at its entry point with reset registers (R566). -/
  | coreRelease (c : Core)
  /-- While the refill cannot carry the ROM, Bear repeats the boot measurement every 100 ms (R126). -/
  | bootSupplyRemeasure (m : SupplyMeas)
  /-- VDDIO2 enters or leaves its operating range, making P12 to P23 usable or high impedance (R72). -/
  | vddio2Change (ok : Bool)
  /-- VAON falls below its threshold or first rises, clearing every domain including Owl (R100). -/
  | powerOnReset
  /-- A VIN, VSYS or VCORE brown-out detector acts, resetting every domain except Owl (R100). -/
  | brownoutReset (d : Detector)
  /-- VIN falls below its warning threshold, setting VINW, publishing the supply event and starting a measurement (R99). -/
  | vinWarning
  /-- VSYS falls below 2.95 V, setting VSYSW and ending any transmission with BUDGET (R99). -/
  | vsysWarning
  /-- A low pulse of at least tRSTW on RESETN resets the chip, or ends SHIP (R599). -/
  | resetnPulse (ns : Nat)
  /-- The first stable LFXO edge starts AON-LF, STB and the RTC (R112). -/
  | lfxoFirstEdge
  /-- With no LFXO start 1 s after VAON, the Krente declares it failed and runs AON-LF from AON-RC (R112). -/
  | lfxoStartTimeout
  /-- LFXO gives no edge for 4 AON-RC cycles, so OSF and LFRC set and the Owl domain counts AON-RC (R401). -/
  | lfxoStop
  /-- After 1 s of steady LFXO edges the Owl domain returns to LFXO and clears LFRC (R401). -/
  | lfxoRestored
  /-- Once all released cores wait and no holder forbids, the chip enters SLEEP, HIBERNATE or SHIP (R106). -/
  | restEntry
  /-- A wake edge on a pin in WAKE_RISE or WAKE_FALL wakes the chip or aborts rest entry (R76). -/
  | wakePinEdge (n : Nat) (rise : Bool)
  /-- The armed link wake fires WAKELEAD before a SLOT window and claims a chip wake (R271). -/
  | linkWake
  /-- The first SVC_CK edge in REST wakes the chip and the request it began is lost (R551). -/
  | svcWakeEdge
  /-- After the granted wake the chip returns to RUN and cores with pending interrupts leave WAIT (R109). -/
  | wakeFromSleep
  /-- A granted wake from HIBERNATE runs a warm boot on Fox A (R110). -/
  | hibernateWake
  /-- While a chip-wake claim waits, Bear starts a measurement every 100 ms (R108). -/
  | wakeDeferRemeasure (m : SupplyMeas)
  /-- A claim reaches Bear and is denied, granted, reduced or deferred within 2 µs (R132). -/
  | bearClaim (n power dur : Nat) (ms : Bool) (minP : Option Nat) (deadline : Option Nat)
  /-- A deferred claim's earliest start arrives and Bear re-runs admission (R132). -/
  | earliestStartReached (n : Nat)
  /-- A claimant releases its grant, and Bear frees power and re-examines pending claims (R131). -/
  | claimRelease (n : Nat)
  /-- A burst grant reaches the end of its granted duration (R131). -/
  | burstGrantEnd (n : Nat)
  /-- A marked grant reaches its claimant's safe point, stops and rejoins PENDING with PREEMPTED (R134). -/
  | preemptedStop (n : Nat)
  /-- A waiting claim's deadline passes and it is denied with LATE (R135). -/
  | claimDeadlinePassed (n : Nat)
  /-- Each second of a supply warning Bear re-examines held claims (R135). -/
  | warningHoldRecheck
  /-- Bear samples VSYS and lowers LEVEL when the sample shows less energy (R119). -/
  | vsysSample (uV : Nat)
  /-- MEASINT minutes elapse and a measurement falls due (R121). -/
  | measIntervalExpiry
  /-- Once a measurement is due and LEVEL is high enough, Bear starts measuring REFILL and CAP (R121). -/
  | measurementStart
  /-- A measurement completes, updating REFILL, CAP, VX and LEVEL, or failing with CAL_FAIL (R122). -/
  | measurementDone (m : SupplyMeas)
  /-- 10 ms after a CAL_FAIL or a value below floor, Bear repeats the measurement (R122). -/
  | measurementRetry
  /-- An unspent reservation reaches 1 ms after its start and is cleared and counted (R139). -/
  | reservationExpiry (i : Nat)
  /-- Bear samples the die temperature and updates the thermal state (R142). -/
  | tempSample (t : Int)
  /-- 86,400 s of system time elapse and the health monitor starts a re-plan (R65). -/
  | replanDue
  /-- A re-plan completes and sets the margin quantities within their limits (R146). -/
  | replanDone
  /-- Every 3,600 s the monitor counts each ring oscillator and updates MON_RING (R145). -/
  | ringMeasure (counts : List Nat)
  /-- After 32,768 LF ticks of HF-REF counting, the monitor updates the HF against LF drift (R144). -/
  | hfLfMeasure (cycles : Nat)
  /-- A pending commanded calibration starts when the radio returns to idle (R157). -/
  | calPendingStart
  /-- A 45 µs synthesiser calibration step ends, the next is claimed or the calibration completes (R154). -/
  | calStepDone (ok : Bool)
  /-- The lock detector asserts LOCK after 4 µs inside its window (R158). -/
  | synLock
  /-- LOCK is not 1 within tLFAIL and REASON takes UNLOCKED (R158). -/
  | lockFailTimeout
  /-- LOCK drops during an activity, ramping down a transmission or ending a reception (R158). -/
  | lockLost
  /-- BGINT × 10 s pass or the temperature moves, and a background calibration falls due (R172). -/
  | bgCalDue
  /-- In a qualifying gap a due background step claims and starts (R173). -/
  | bgCalStepStart
  /-- A background calibration step completes, or stops within 1 µs when the radio is needed (R173). -/
  | bgCalStepDone
  /-- At the end of each AGC period the detector steps the gain code up, down or holds (R166). -/
  | agcPeriodEnd (p rssi : Int)
  /-- TXEN rises TXENLEAD µs before the scheduled ramp start (R165). -/
  | txenRise
  /-- At the scheduled ramp start the transmit rule ramps the PA, holds, or drops the transmission (R171). -/
  | txRampStart (gnt : Bool)
  /-- A held transmission finds lock and grant present and starts the PA ramp (R171). -/
  | txHoldResolve (gnt : Bool)
  /-- A held transmission passes its deadline less RAMP and is dropped with LATE (R171). -/
  | txDeadlineDrop
  /-- CX_GNT falls during a transmission and LOSSPOL finishes or aborts the frame (R175). -/
  | cxGntFall
  /-- In arbiter role a change on CX_REQ or CX_PRI sets CX_GNT from the table (R176). -/
  | cxArbInputChange (req pri : Bool)
  /-- The modem acquires a preamble or training pair and estimates offset and timing (R196). -/
  | preambleAcquired (foff : RxAcq)
  /-- The modem judges the sync word, SFD or training correlation, resuming search on a mismatch (R196). -/
  | syncDecision (a b c : RxSync) (ago : Nat)
  /-- The modem checks the header or PHR and resumes search after a failure (R198). -/
  | headerDecision (f : RxField)
  /-- Tracking error exceeds its limit and the frame is abandoned with TRACK_LOST (R197). -/
  | trackLost
  /-- The last payload symbol ends and the CRC or FCS is judged (R198). -/
  | frameReceived (f : RxField) (det noise snr : Int)
  /-- The modem hands a delivered frame to the link controller (R200). -/
  | frameHandover
  /-- A slot boundary of a class is marked, copying the arbiter table and applying pending corrections (R236). -/
  | slotBoundary (c : Nat)
  /-- At a choice instant the engine chooses at most one cell and opens its SLOT window (R243). -/
  | cellChoice (c : Nat)
  /-- A chosen cell starts preparation, copying the profile and making its claim, or is skipped for overlap (R248). -/
  | cellPrepStart (c : Nat)
  /-- A receive cell's window opens at boundary + TXOFF − GE (R249). -/
  | rxWindowOpen (gnt : Bool)
  /-- A receive window closes, ending with its outcome and closing the SLOT window (R199). -/
  | rxWindowClose
  /-- A transmission's ramp-down ends, returning the entry or entering ACKWAIT (R250). -/
  | txEnd
  /-- At E + TACK − RAMP − 24 µs the engine claims to transmit an acknowledgement (R253). -/
  | ackClaim
  /-- The acknowledgement starts at E + TACK, or ACK_LATE is recorded (R253). -/
  | ackTxStart (gnt : Bool)
  /-- The acknowledgement's ramp-down ends and the cell returns to IDLE (R250). -/
  | ackTxEnd
  /-- The sender's acknowledgement window opens (R254). -/
  | ackWindowOpen (gnt : Bool)
  /-- An acknowledgement is judged good or bad and the entry is returned or kept (R255). -/
  | ackReceived
  /-- The acknowledgement window closes without a good acknowledgement (R255). -/
  | ackWindowClose
  /-- No correction is applied for DESYNC seconds and the engine reports desynchronisation (R258). -/
  | desyncTimeout
  /-- The engine books transmit and acknowledgement reservations for an unbooked head entry (R261). -/
  | bookTxEntry (q : Nat)
  /-- The engine books the reception of the next occurrence of a BOOKRX cell (R262). -/
  | bookRxCell (n : Nat)
  /-- An operation completes, posting REASON, setting DONE and publishing the done event (R347). -/
  | cipherOpDone (u : Nat) (mismatch : Bool)
  /-- An outside field reaches the detection level, raising FDET, publishing the field event and waking the chip (R354). -/
  | fieldDetect (vaon : Bool) (vnfc : Nat)
  /-- The outside field is lost and FDET falls (R354). -/
  | fieldLost
  /-- VAON becomes established during a harvest-mode mailbox write, which completes before boot (R369). -/
  | vaonUpDuringHarvest
  /-- After the grant and 5.1 ms of field, the reader runs the anticollision round (R370). -/
  | readerRoundStart
  /-- A card answer arrives and the round proceeds by collision, select or halt (R372). -/
  | readerAnswer (data : List Byte) (good : Bool) (coll : Option Nat) (bcc : Bool)
  /-- A reader frame draws no valid answer within its waiting time and is retried or ends the round (R372). -/
  | readerFrameTimeout
  /-- The ping interval expires and a Woodpecker ping claims and runs (R374). -/
  | pingDue
  /-- A ping's measurement updates the baseline or detects, waking or starting a poll (R375). -/
  | pingResult (amp phase : Nat)
  /-- The prescaler wraps and COUNT increments, copying preloads and firing match or overflow (R386). -/
  | timerPrescalerWrap (n : Nat)
  /-- An edge on TMR_CAPn loads CAPR, or CAPF and PW (R394). -/
  | timerCaptureEdge (n : Nat) (rise : Bool)
  /-- RTC_SUB wraps, RTC_SEC increments and trim sets the next second's length (R400). -/
  | secondBoundary
  /-- At the next AON-LF edge the written seconds take effect and RTC_SUB becomes 0 (R399). -/
  | rtcSecWriteApply
  /-- The ROM routine converts a date block to RTC seconds or refuses it (R405). -/
  | calTosec (c : Core)
  /-- The ROM routine converts RTC seconds to a date block with weekday (R406). -/
  | calFromsec (c : Core)
  /-- The elapsed time reaches 7/8 of TIMEOUT and WARNF is set (R408). -/
  | wdtWarning
  /-- The watchdog reaches TIMEOUT and resets the chip, waiting for a flash pulse (R409). -/
  | wdtExpiry
  /-- A TRIG 0 level source's request falls while PENDING, withdrawing it (R416). -/
  | levelRequestFall (n : Nat)
  /-- A presented source has been PENDING for COAL µs and the target's line rises (R422). -/
  | coalExpiry (t n : Nat)
  /-- A task fires in the cycle after its channel pulse and writes its command (R428). -/
  | taskFire (t : Nat)
  /-- At a boundary with IE 1 and the line high, the core enters vector 0 (R456). -/
  | interruptEntry (c : Core)
  /-- A waiting core's line rises and it continues after WAIT (R461). -/
  | waitEnd (c : Core)
  /-- A product issued two cycles earlier is written to MHI and MLO (R450). -/
  | mulResultWrite (c : Core)
  /-- Load A from the operand (R475). -/
  | lda (c : Core) (o : Opnd)
  /-- Store A to the operand (R475). -/
  | sta (c : Core) (o : Opnd)
  /-- Load X from the operand (R475). -/
  | ldx (c : Core) (o : Opnd)
  /-- Load Y from the operand (R475). -/
  | ldy (c : Core) (o : Opnd)
  /-- Store X to the operand (R475). -/
  | stx (c : Core) (o : Opnd)
  /-- Store Y to the operand (R475). -/
  | sty (c : Core) (o : Opnd)
  /-- Load X with the effective address (R475). -/
  | leax (c : Core) (o : Opnd)
  /-- Load Y with the effective address (R475). -/
  | leay (c : Core) (o : Opnd)
  /-- Push the operand onto the stack (R454). -/
  | push (c : Core) (o : Opnd)
  /-- Pop a word from the stack into the operand (R454). -/
  | pop (c : Core) (o : Opnd)
  /-- Move one of A, X and Y into another (R476). -/
  | movr (c : Core) (o : Opnd)
  /-- Add the operand to A (R477). -/
  | add (c : Core) (o : Opnd)
  /-- Add the operand and carry to A (R477). -/
  | adc (c : Core) (o : Opnd)
  /-- Subtract the operand from A (R477). -/
  | sub (c : Core) (o : Opnd)
  /-- Subtract the operand and borrow from A (R477). -/
  | sbc (c : Core) (o : Opnd)
  /-- Compare A with the operand by subtraction (R477). -/
  | cmp (c : Core) (o : Opnd)
  /-- And the operand into A (R477). -/
  | and (c : Core) (o : Opnd)
  /-- Or the operand into A (R477). -/
  | or (c : Core) (o : Opnd)
  /-- Exclusive-or the operand into A (R477). -/
  | xor (c : Core) (o : Opnd)
  /-- Negate A (R477). -/
  | neg (c : Core) (o : Opnd)
  /-- Invert A (R477). -/
  | not (c : Core) (o : Opnd)
  /-- Shift A left (R478). -/
  | shl (c : Core) (o : Opnd)
  /-- Shift A right logically (R478). -/
  | shr (c : Core) (o : Opnd)
  /-- Shift A right arithmetically (R478). -/
  | sha (c : Core) (o : Opnd)
  /-- Rotate A left (R478). -/
  | rol (c : Core) (o : Opnd)
  /-- Rotate A right (R478). -/
  | ror (c : Core) (o : Opnd)
  /-- Fraction add with rounding and limits (R479). -/
  | fadd (c : Core) (o : Opnd)
  /-- Fraction subtract with rounding and limits (R479). -/
  | fsub (c : Core) (o : Opnd)
  /-- Fraction negate with limits (R479). -/
  | fneg (c : Core) (o : Opnd)
  /-- Fraction absolute value with limits (R479). -/
  | fabs (c : Core) (o : Opnd)
  /-- Fraction multiply by a power of two with limits (R479). -/
  | fshl (c : Core) (o : Opnd)
  /-- Fraction divide by a power of two with rounding (R479). -/
  | fshr (c : Core) (o : Opnd)
  /-- Limit A to the range −1 to 1 (R479). -/
  | satn (c : Core) (o : Opnd)
  /-- Decimal add first step, recording nibble carries (R447). -/
  | addd (c : Core) (o : Opnd)
  /-- Decimal subtract first step, recording nibble borrows (R447). -/
  | subd (c : Core) (o : Opnd)
  /-- Decimal adjust after addition (R447). -/
  | dad (c : Core) (o : Opnd)
  /-- Decimal adjust after subtraction (R447). -/
  | das (c : Core) (o : Opnd)
  /-- Convert decimal A to binary (R448). -/
  | d2b (c : Core) (o : Opnd)
  /-- Convert binary A to decimal (R448). -/
  | b2d (c : Core) (o : Opnd)
  /-- One CRC-8 step on a byte through CRCP (R481). -/
  | crcs (c : Core) (o : Opnd)
  /-- Parity of A masked by the operand (R481). -/
  | par (c : Core) (o : Opnd)
  /-- Reverse the low bits of A (R481). -/
  | brev (c : Core) (o : Opnd)
  /-- Issue a signed 72-bit multiply into MHI:MLO (R449). -/
  | mul (c : Core) (o : Opnd)
  /-- Issue an unsigned 72-bit multiply into MHI:MLO (R449). -/
  | mulu (c : Core) (o : Opnd)
  /-- Issue a multiply-accumulate into MHI:MLO (R449). -/
  | mac (c : Core) (o : Opnd)
  /-- Round and limit MHI:MLO into A as a fraction (R449). -/
  | fpr (c : Core) (o : Opnd)
  /-- Branch when the condition code holds (R485). -/
  | jcc (c : Core) (cc : BitVec 4) (o : Opnd)
  /-- Push the return address and jump (R454). -/
  | call (c : Core) (o : Opnd)
  /-- Pop PC from the stack (R454). -/
  | ret (c : Core) (o : Opnd)
  /-- Pop PC then ST to return from a handler (R457). -/
  | reti (c : Core) (o : Opnd)
  /-- Decrement X and branch when not zero (R484). -/
  | dbx (c : Core) (o : Opnd)
  /-- Decrement Y and branch when not zero (R484). -/
  | dby (c : Core) (o : Opnd)
  /-- Enter vector 6 with SOFTWARE cause (R487). -/
  | trap (c : Core) (o : Opnd)
  /-- Wait for the core's interrupt line, letting the chip doze or rest (R461). -/
  | wait (c : Core) (o : Opnd)
  /-- Order all accesses and discard prefetched words (R37). -/
  | fence (c : Core) (o : Opnd)
  /-- Order all writes of both paths (R37). -/
  | fencew (c : Core) (o : Opnd)
  /-- Order I/O-path accesses with all others (R37). -/
  | fenceio (c : Core) (o : Opnd)
  /-- Exchange A with an SRAM word atomically (R463). -/
  | xchg (c : Core) (o : Opnd)
  /-- Badger waits for a slot boundary, its line, or the engine being off (R489). -/
  | slotw (c : Core) (o : Opnd)
  /-- Badger samples the stamp unit into A and memory (R491). -/
  | stamp (c : Core) (o : Opnd)
  /-- Do nothing for one cycle (R486). -/
  | nop (c : Core) (o : Opnd)
  /-- A word with opcode 0xF1, normally a busy-bank fetch, enters vector 2 (R459). -/
  | trapb (c : Core) (o : Opnd)
  /-- A program pulse and its verify end, applying another pulse or completing the word (R512). -/
  | programPulseEnd (verified : Bool)
  /-- An erase pulse and its verify end, applying another pulse or closing the journal entry (R513). -/
  | erasePulseEnd (verified : Bool)
  /-- An OTP pulse and verify end, retrying or completing the word (R533). -/
  | otpPulseEnd (verified : Bool)
  /-- Fifty cycles with SVC_IO high discard a partial request (R549). -/
  | svcLineReset (cycles : Nat)
  /-- A second without an SVC_CK edge closes the session (R551). -/
  | svcSessionTimeout
  /-- Vole starts on Fox A, checks halted cores, copies itself to SRAM and serves the LCB (R576). -/
  | voleStart
  /-- The loader checks a buffered header and erases the target region (R572). -/
  | loaderBegin
  /-- The loader programs a buffer of body words and reads them back (R573). -/
  | loaderData
  /-- The loader checks the body CRC and programs the header, word 0 last (R574). -/
  | loaderCommit
  /-- The loader checks a buffered stream and programs it into the stream sectors (R575). -/
  | loaderStream
  /-- 60 s without a command or a session close makes Vole reset mid-update or wait (R578). -/
  | voleIdleTimeout
  /-- A rising or falling edge on a pin carrying EVT_INk reaches the event router as a publisher pulse and pulses every channel that names it through its gate (R425). -/
  | evtInEdge (k : Nat) (rise : Bool)
  /-- In harvest mode the reader field vanishes and VNFC falls, so the harvest path stops at 2.0 V and leaves the mailbox as the collapse table states (R365). -/
  | fieldCollapse (verified : Bool)
  /-- A write of PMU_REQ sets the requested depth and retention, refused when a lasting holder forbids it (R104). -/
  | pmuReqWrite (ag : Agent) (v : Word)
  /-- A read of PMU_STAT returns and clears LAST (R10). -/
  | pmuStatRead (ag : Agent)
  /-- A write of EGY_CTL.MEAS = 1 asks for a measurement, or sets BUSY during one (R121). -/
  | egyMeasCmd (ag : Agent)
  /-- A write of EGY_RESP commits a reservation add, refused for full table, window or overbooking (R137). -/
  | egyRespWrite (ag : Agent) (v : Word)
  /-- A write of EGY_RESC clears a reservation entry the writer may clear (R136). -/
  | egyRescWrite (ag : Agent) (v : Word)
  /-- A read of EGY_RESST returns and clears the expired count (R139). -/
  | egyResstRead (ag : Agent)
  /-- A write of EGY_DECLn changes a declaration, refused below a held grant or for forbidden values (R150). -/
  | egyDeclWrite (ag : Agent) (n : Nat) (v : Word)
  /-- A non-zero write of EGY_SWCLMn makes a software claim, or is refused while a grant is held (R129). -/
  | swClaim (ag : Agent) (n : Nat) (v : Word)
  /-- A write of 0 to EGY_SWCLMn POWER releases the software claim (R129). -/
  | swClaimRelease (ag : Agent) (n : Nat)
  /-- A write of MON_CTL.REPLAN = 1 starts a re-plan, or sets BUSY during one (R149). -/
  | monReplanCmd (ag : Agent)
  /-- A write of SYN_CTL.EN = 1 enables the synthesiser after its checks (R178). -/
  | synEnable (ag : Agent)
  /-- A write of RFE_CTL.EN = 1 checks coefficient sets and mask and enables the front end (R164). -/
  | rfeEnable (ag : Agent)
  /-- A write of CX_CTL.EN = 1 checks role, pins and front end and enables coexistence (R177). -/
  | cxEnable (ag : Agent)
  /-- A write of SYN_CMD.CAL = 1 starts or queues a full synthesiser calibration (R157). -/
  | synCalCmd (ag : Agent)
  /-- A write of RFE_CMD.BGCAL = 1 makes every enabled background calibration due (R172). -/
  | rfeBgcalCmd (ag : Agent)
  /-- A write of a profile frequency word is checked against the bands and clears VALID (R169). -/
  | rfeProfFWrite (ag : Agent) (n : Nat) (v : Word)
  /-- A write of a profile word M is checked for range, combination, mask and budget (R169). -/
  | rfeProfMWrite (ag : Agent) (n : Nat) (v : Word)
  /-- A Badger write of CX_ARBNXT stages the next arbiter table (R176). -/
  | cxArbnxtWrite (ag : Agent) (v : Word)
  /-- A read of CX_CNT returns and clears the coexistence loss count (R175). -/
  | cxCntRead (ag : Agent)
  /-- A write of MDM_CTL.EN = 1 enables the modem after clock and budget checks (R203). -/
  | mdmEnable (ag : Agent)
  /-- A write of a long-sweep parameter set is checked for range and profile width (R202). -/
  | mdmLsWrite (ag : Agent) (m : Nat) (v : Word)
  /-- A write of a chirp-multiplex parameter set is checked for reserved codes and width (R224). -/
  | mdmCmWrite (ag : Agent) (m : Nat) (v : Word)
  /-- A write of a SUN-FSK parameter set is checked for FEC, preamble and interleaving (R233). -/
  | mdmFkWrite (ag : Agent) (m : Nat) (v : Word)
  /-- A read of a modem failure count register returns and clears its counts (R198). -/
  | mdmCountRead (ag : Agent) (mm : Nat)
  /-- A write of LNK_CTL.EN = 1 checks clocks, pins, queues, budget and slotframes and enables the engine (R272). -/
  | lnkEnable (ag : Agent)
  /-- A write of LNK_CTL.EN = 0 stops the engine at a free boundary, clearing reservations and backoff (R273). -/
  | lnkDisable (ag : Agent)
  /-- A write of LNK_SFf sets a slotframe, checking its class when SFEN is set (R272). -/
  | lnkSfWrite (ag : Agent) (f : Nat) (v : Word)
  /-- A write of a cell entry is checked and applies to later choice instants (R241). -/
  | lnkCellWrite (ag : Agent) (n : Nat) (k : Nat) (v : Word)
  /-- A write of LNK_CHk is checked against the bands (R242). -/
  | lnkChWrite (ag : Agent) (k : Nat) (v : Word)
  /-- A write of a class START sets the slot origin and clears TOFF, refused while enabled (R237). -/
  | lnkClsStartWrite (ag : Agent) (c : Nat) (v : Word)
  /-- A read of LNK_CLSc_ASNLO latches the high ASN part into a shadow (R237). -/
  | lnkAsnloRead (ag : Agent) (c : Nat)
  /-- A write of neighbour word 0 sets the neighbour and clears DSNV (R240). -/
  | lnkNbrWrite (ag : Agent) (n : Nat) (v : Word)
  /-- A write of LNK_TADJ applies a software correction to TOFF under MAXCORR (R257). -/
  | lnkTadjWrite (ag : Agent) (v : Word)
  /-- A read of LNK_CNT returns and clears its counts (R10). -/
  | lnkCntRead (ag : Agent)
  /-- A node receives a BEACON, recomputing version agreement or synchronising as a joiner (R300). -/
  | beaconReceived (f : List Byte) (lo fine lqi : Nat)
  /-- After 2 × SFSIZE slots of collection, a joiner chooses a candidate parent and sends REQUEST (R301). -/
  | beaconCollectEnd
  /-- 8 × SFSIZE slots pass without a DELIVER, so the joiner repeats or moves on (R301). -/
  | joinWaitTimeout
  /-- A parent receives a REQUEST and relays it or discards it (R302). -/
  | joinRequestReceived (f : List Byte) (lqi : Nat)
  /-- The root checks a relayed REQUEST, assigns an address and sends a RESPONSE (R303). -/
  | joinRelayReceived (parent : Nat) (body : List Byte)
  /-- A parent forwards a RESPONSE's inner block as a DELIVER (R304). -/
  | joinResponseReceived (body : List Byte)
  /-- A joiner checks a DELIVER and completes the join or moves on (R304). -/
  | joinDeliverReceived (f : MeshRx)
  /-- A HELLO's offer sets the agreed version, and a router may add the sender as a child (R294). -/
  | helloReceived (f : List Byte) (lqi : Nat)
  /-- The root updates a route entry from a newer ADVERT (R312). -/
  | advertReceived (orig : Nat) (body : List Byte)
  /-- ADVINT minutes elapse and the node sends an ADVERT (R307). -/
  | advertInterval
  /-- A parent is dropped after 4 beacon periods without its beacon (R307). -/
  | parentBeaconTimeout (a : Nat)
  /-- A router removes a child after 3 × ADVINT minutes without a frame from it (R309). -/
  | childTimeout (a : Nat)
  /-- The root clears a route entry older than 3 × ADVINT minutes (R312). -/
  | routeEntryExpiry (a : Nat)
  /-- A router forwards or discards an UP frame, and the root delivers it (R310). -/
  | upFrameReceived (f : List Byte) (lqi : Nat)
  /-- A router delivers, forwards or discards a DOWN frame, sending ROUTE_ERR on a discard (R314). -/
  | downFrameReceived (f : List Byte) (lqi : Nat)
  /-- The root builds a DOWN frame's source route from its route table (R313). -/
  | rootSendDown (dest ty : Nat) (jt : Option Nat) (body : List Byte)
  /-- A node accepts a new FLOOD, and a router rebroadcasts it once (R315). -/
  | floodReceived (f : List Byte) (lqi : Nat)
  /-- The root swaps a failed parent for its alternate or clears the route (R314). -/
  | routeErrReceived (fdst hop : Nat)
  /-- An UP entry returned with NO_ACK is rebuilt for the next parent or dropped with NO_PARENT (R310). -/
  | meshNoAckReturn (f : List Byte) (tries : Nat)
  /-- A node answers a root PING with its rank and hops (R316). -/
  | ping (orig : CmdFrom) (token : Nat)
  /-- A node answers GET_INFO with its identity, versions, rank, parents, life and counter (R316). -/
  | getInfo (orig : CmdFrom) (token : Nat)
  /-- A parent answers GET_PLAN with one page of its channel plan (R317). -/
  | getPlan (orig : CmdFrom) (token page : Nat)
  /-- A node unwraps the next epoch's network key into the other slot (R317). -/
  | keyNext (orig : CmdFrom) (token epoch : Nat) (kw : List Byte)
  /-- A node schedules the epoch switch for the given ASN, or switches at once if passed (R317). -/
  | keySwitch (orig : CmdHead) (epoch asn : Nat)
  /-- At the first boundary at or after the KEY_SWITCH ASN the node sends under the new epoch (R317). -/
  | keySwitchAsnReached
  /-- A node answers LEAVE, clears its address and keys and becomes a joiner (R317). -/
  | leave (orig : CmdFrom) (token : Nat)
  /-- An undefined CID is answered with UNKNOWN_CMD (R317). -/
  | unknownCmd (orig : Nat) (loc : Bool) (cid token : Nat)
  /-- A node applies a tap commissioning body as join credentials, or refuses it (R305). -/
  | tapRecordApply (body : List Byte)
  /-- A Fox A write of CPH_CTL.EN = 1 enables the cipher engine after a budget check (R348). -/
  | cphEnable (ag : Agent)
  /-- A write of GO = 1 on a page checks and accepts a cipher operation into WAIT (R343). -/
  | cphGo (ag : Agent) (u : Nat)
  /-- A write of ABORT = 1 ends the page's operation at the next block boundary with ABORTED (R346). -/
  | cphAbort (ag : Agent) (u : Nat)
  /-- An access to another user's cipher page reads 0, changes nothing and counts a security refusal (R340). -/
  | cipherPageForeign (ag : Agent) (u : Nat) (off : Nat)
  /-- A read of CPH_STAT returns and clears its security and fault counts (R10). -/
  | cphStatRead (ag : Agent)
  /-- A write of KST_ATTRs may only clear permission bits, from an agent named in USERS (R349). -/
  | kstAttrWrite (ag : Agent) (slot : Nat) (v : Word)
  /-- The tag answers REQA or WUPA with its ATQA (R355). -/
  | tagReqa (wupa : Bool)
  /-- The tag answers ANTICOLLISION with its UID bits (R355). -/
  | tagAnticollision (cl n known : Nat)
  /-- The tag answers a SELECT for its UID with SAK, or stays in READY for another (R357). -/
  | tagSelect (cl : Nat) (uid : List Byte)
  /-- The tag halts on HLTA (R352). -/
  | tagHlta
  /-- The tag answers RATS with its ATS and enters ISO/IEC 14443-4 (R355). -/
  | tagRats
  /-- The tag answers S(DESELECT) and leaves ISO/IEC 14443-4 (R352). -/
  | tagDeselect
  /-- A tag reply claim not granted within 40 µs is withdrawn and counted in MUTE (R356). -/
  | tagReplyMute
  /-- A reply not ready within FWT − 5 ms makes the tag send S(WTX) (R357). -/
  | tagWtxDue
  /-- The tag answers SELECT by name for the NDEF application (R358). -/
  | selectByName (aid : List Byte)
  /-- The tag answers SELECT by file ID for the CC or NDEF file (R358). -/
  | selectByFile (c : FileSelect)
  /-- The tag returns data of the selected file or a status (R360). -/
  | readBinary (off len : Nat)
  /-- The tag writes the NDEF file in SRAM and may queue an NDEF entry (R360). -/
  | updateBinary (off : Nat) (data : List Byte)
  /-- The tag writes a commissioning record into the flash mailbox under the field check (R364). -/
  | mailboxWrite (seq : Nat) (data : List Byte) (levels : List Nat)
  /-- A write of NFC_CTL.EN = 1 checks clock, queue and budget and enables the block (R377). -/
  | nfcEnable (ag : Agent)
  /-- A write of EN = 0 switches the field off at the safe point and ends sessions (R378). -/
  | nfcDisable (ag : Agent)
  /-- A write of NFC_CMD.POLL = 1 claims the reader field and starts a poll round (R370). -/
  | nfcPoll (ag : Agent)
  /-- A write of NFC_CMD.XCHG = 1 sends a command to the active card through the block layer (R373). -/
  | nfcXchg (ag : Agent)
  /-- A write of NFC_CMD.DESEL = 1 sends S(DESELECT) (R373). -/
  | nfcDesel (ag : Agent)
  /-- A write of NFC_CMD.FIELDOFF = 1 ends the reader session at the next safe point (R373). -/
  | nfcFieldoff (ag : Agent)
  /-- A read of NFC_CNT returns and clears its counts (R10). -/
  | nfcCntRead (ag : Agent)
  /-- A write of TMRn_CTL.EN = 1 checks and starts the timer, which never stops (R388). -/
  | tmrEnable (ag : Agent) (n : Nat)
  /-- A write of CMPc sets the active compare or its preload (R391). -/
  | tmrCmpWrite (ag : Agent) (n : Nat) (c : Nat) (v : Word)
  /-- A read of CAPR returns it and clears NEWR (R395). -/
  | tmrCaprRead (ag : Agent) (n : Nat)
  /-- A read of CAPF returns it and clears NEWF (R395). -/
  | tmrCapfRead (ag : Agent) (n : Nat)
  /-- A write of TMR_OWN changes timer owners under owner and enable checks (R396). -/
  | tmrOwnWrite (ag : Agent) (v : Word)
  /-- A read of RTC_SUB freezes the reading agent's shadows (R398). -/
  | rtcSubRead (ag : Agent)
  /-- A read of RTC_SEC returns the frozen value and releases the shadows (R398). -/
  | rtcSecRead (ag : Agent)
  /-- A write of RTC_SEC crosses into the Owl domain, clearing ALMEN if past (R399). -/
  | rtcSecWrite (ag : Agent) (v : Word)
  /-- A write of RTC_TRIM sets the rate correction and clears the accumulator (R400). -/
  | rtcTrimWrite (ag : Agent) (v : Word)
  /-- A write of RTC_ALARM sets the alarm, refused with ALARM_PAST while armed and not ahead (R402). -/
  | rtcAlarmWrite (ag : Agent) (v : Word)
  /-- A write of RTC_CFG arms the alarm or drives SQW, refused with ALARM_PAST when behind (R402). -/
  | rtcCfgWrite (ag : Agent) (v : Word)
  /-- A write of WDT_CTL.EN = 1 starts the watchdog's first period (R407). -/
  | wdtEnable (ag : Agent)
  /-- A write of WDT_KICK restarts the count, or resets early or on a wrong key (R408). -/
  | wdtKick (ag : Agent) (v : Word)
  /-- A service-port write of DBGPAUSE allows pausing while a core is halted (R410). -/
  | wdtDbgpauseWrite (ag : Agent) (b : Bool)
  /-- A read of ICU_CLAIMt claims the best presented source or reports lost or withdrawn (R416). -/
  | icuClaimRead (ag : Agent) (t : Nat)
  /-- A write of ICU_DONEt completes a claimed source, re-pending it when re-armed or still high (R418). -/
  | icuDoneWrite (ag : Agent) (t : Nat) (v : Word)
  /-- A write of ICU_SRCn changes priority, trigger or targets under field permissions (R419). -/
  | icuSrcWrite (ag : Agent) (n : Nat) (v : Word)
  /-- A write of ICU_SWSET makes occurrences of software sources (R413). -/
  | icuSwsetWrite (ag : Agent) (v : Word)
  /-- A write of EVR_CHc sets a channel's publisher, gate and stamping under owner checks (R433). -/
  | evrChWrite (ag : Agent) (c : Nat) (v : Word)
  /-- A write of EVR_TSUBt subscribes a task under owner and clearance checks (R431). -/
  | evrTsubWrite (ag : Agent) (t : Nat) (v : Word)
  /-- A write of EVR_SWPUB pulses a software-published channel (R427). -/
  | evrSwpubWrite (ag : Agent) (v : Word)
  /-- A read of EVR_STAT returns and clears the lost-pulse count (R436). -/
  | evrStatRead (ag : Agent)
  /-- A read of EVR_TSTATt returns and clears the coincidence count (R429). -/
  | evrTstatRead (ag : Agent) (t : Nat)
  /-- FLC_CMD PROGRAM checks and claims for programming one flash word (R512). -/
  | flcProgram (ag : Agent) (addr : Nat)
  /-- FLC_CMD ERASE checks and starts a journaled sector erase (R513). -/
  | flcErase (ag : Agent) (addr : Nat)
  /-- Squirrel opens the lowest-count spare sector for a logical sector (R522). -/
  | sqopen (ag : Agent) (sect : Nat)
  /-- Squirrel commits the open sector and retires and erases the old copy (R523). -/
  | sqcommit (ag : Agent) (sect : Nat)
  /-- Squirrel retires and erases the open sector (R523). -/
  | sqabandon (ag : Agent) (sect : Nat)
  /-- Squirrel moves the least-worn valid sector onto a worn spare when levelling is due (R524). -/
  | sqlevel (ag : Agent)
  /-- While unlocked, erase the protection row (R531). -/
  | proterase (ag : Agent)
  /-- While unlocked, program a protection-row word (R531). -/
  | protprog (ag : Agent) (w : Nat)
  /-- A write of FLC_CTL.SQEN = 1 checks the pool and recovers it before activating Squirrel (R521). -/
  | squirrelEnable (ag : Agent)
  /-- A write of FLC_PWD1 compares the staged password and unlocks or counts a failure (R529). -/
  | flcPwd1Write (ag : Agent) (v : Word)
  /-- A read of FLC_ECC returns and clears the correction count (R507). -/
  | flcEccRead (ag : Agent)
  /-- A write of OTP_CMD.PROG = 1 checks and claims for programming an OTP word (R533). -/
  | otpProg (ag : Agent)
  /-- A write of HP_CTL.EN = 1 checks and enables the host port in SELECT (R548). -/
  | hpEnable (ag : Agent)
  /-- A host READ transfer returns mirror words or queues a fetch (R539). -/
  | hostRead (n addr clocked : Nat)
  /-- A host READF transfer reads one address repeatedly or queues a fetch (R538). -/
  | hostReadf (n addr clocked : Nat)
  /-- A host WRITE transfer writes mirror words or posts writes (R541). -/
  | hostWrite (n addr : Nat) (words : List Word)
  /-- A host WRITEF transfer writes one address repeatedly (R541). -/
  | hostWritef (n addr : Nat) (words : List Word)
  /-- A host OFFER agrees a host-port version (R544). -/
  | hostOffer (cmd hi lo : Nat)
  /-- A version-1 byte-protocol READ returns words (R545). -/
  | hostV1Read (addr clocked : Nat)
  /-- A version-1 byte-protocol WRITE writes words (R545). -/
  | hostV1Write (addr : Nat) (words : List Word)
  /-- A queued fetch completes into the fetch buffer, setting FDONE (R540). -/
  | hostFetchDone
  /-- The host agent performs the oldest posted write (R541). -/
  | hostPostedWrite
  /-- A host write setting a doorbell bit makes an occurrence of source 80 (R547). -/
  | hpDbellWrite (v : Word)
  /-- A read of HP_CNT returns and clears its counts (R10). -/
  | hpCntRead (ag : Agent)
  /-- A service OPEN agrees a version and opens a session (R551). -/
  | svcOpen (q : SvcLine) (hi lo : Nat)
  /-- A service READ returns words as the service port master (R554). -/
  | svcRead (q : SvcLine) (n addr : Nat)
  /-- A service WRITE writes words as the service port master (R554). -/
  | svcWrite (late : Bool) (addr : Nat) (words : List Word) (chk : Option Word)
  /-- A service HALT stops the named cores at their next boundary (R553). -/
  | svcHalt (q : SvcLine) (mask : Nat)
  /-- A service RUN resumes halted cores at their PC (R553). -/
  | svcRun (q : SvcLine) (mask : Nat)
  /-- A service STEP executes one instruction on a halted core (R553). -/
  | svcStep (q : SvcLine) (core : Nat)
  /-- A service REGRD reads a halted core's register (R553). -/
  | svcRegrd (q : SvcLine) (core reg : Nat)
  /-- A service REGWR writes a halted core's register (R553). -/
  | svcRegwr (late : Bool) (core reg : Nat) (v : Word) (chk : Option Word)
  /-- A service RESET resets the chip with PMU_CAUSE.SVC (R550). -/
  | svcReset (q : SvcLine) (addr : Nat)
  /-- A service CLOSE ends the session, clearing DBGPAUSE and resuming halted cores (R551). -/
  | svcClose (q : SvcLine)
  /-- A service STATUS returns SVC_STAT (R550). -/
  | svcStatus (q : SvcLine) (op : Nat)
  /-- A write to a register that has no row of its own stores or acts on the value by its access code, subject to lock, ownership and off-only checks (R10). -/
  | registerWrite (ag : Agent) (addr : Nat) (v : Word)
  /-- A write of EN = 0 asks the block to stop at its next safe point (R16). -/
  | blockDisable (ag : Agent) (b : Block)
  /-- A write of CLK_FOX is checked and, if accepted, switches the Fox core clock without a glitch (R26). -/
  | clkFoxWrite (ag : Agent) (v : Word)
  /-- A write of SSM_LOCK sets lock bits that stay set until reset (R68). -/
  | ssmLockWrite (ag : Agent) (v : Word)
  /-- A software write of a queue's tail index publishes entries, or is refused when the ring would fill or the writer is wrong (R266). -/
  | queTailWrite (ag : Agent) (q : Nat) (v : Word)
  /-- A software write of a queue's head index frees consumed entries, or is refused for range or ownership (R266). -/
  | queHeadWrite (ag : Agent) (q : Nat) (v : Word)
  /-- A write of QUE_CFG ON = 1 clears the indices and overflow count after range and overlap checks (R267). -/
  | queueOn (ag : Agent) (q : Nat) (v : Word)
  /-- A write of ON = 0 stops the queue at once, leaving entries in the ring (R267). -/
  | queueOff (ag : Agent) (q : Nat) (v : Word)
  /-- A read of QUE_QSTATq returns and clears the overflow count (R10). -/
  | queQstatRead (ag : Agent) (q : Nat)
  /-- A write of PIN_MAPn changes a pin's meanings, pull, drive or owner, subject to owner, lock and need checks (R92). -/
  | pinMapWrite (ag : Agent) (n : Nat) (v : Word)
  /-- A write of PIN_OUT sets GPIO latches of the pins the writer owns (R87). -/
  | pinOutWrite (ag : Agent) (v : Word)
  /-- A write of PIN_OUTSET sets the GPIO latches named by 1 bits (R87). -/
  | pinOutsetWrite (ag : Agent) (v : Word)
  /-- A write of PIN_OUTCLR clears the GPIO latches named by 1 bits (R87). -/
  | pinOutclrWrite (ag : Agent) (v : Word)
  /-- A write of PIN_OUTTGL toggles the GPIO latches named by 1 bits (R87). -/
  | pinOuttglWrite (ag : Agent) (v : Word)
  /-- A write of PIN_DIR sets GPIO directions of the pins the writer owns (R87). -/
  | pinDirWrite (ag : Agent) (v : Word)
deriving DecidableEq, Repr

end Sys2Proof
end

