-- ==== Sys2Proof/Decode.lean ====
section
/-!
DEFINITION. The encoding of the J36 instructions (spec/16 R469, R471, R475 to R486), which a service STEP reads
from memory.  The opcode table gives no row a bit pattern, so `decodeTableWord` reads none.
-/
namespace Sys2Proof

/-- No row of the opcode table has bits.
[DESIGN CHOICE, safe: notes/assumptions/3] -/
def decodeTableWord (_ _ : Nat) : Option Instr := none

/-- The opcode, core and operand fields of a J36 instruction. -/
def j36Parts : Instr → Option (BitVec 8 × Core × Opnd)
  | .lda c o => some (0x01, c, o)
  | .sta c o => some (0x02, c, o)
  | .ldx c o => some (0x03, c, o)
  | .ldy c o => some (0x04, c, o)
  | .stx c o => some (0x05, c, o)
  | .sty c o => some (0x06, c, o)
  | .leax c o => some (0x07, c, o)
  | .leay c o => some (0x08, c, o)
  | .push c o => some (0x09, c, o)
  | .pop c o => some (0x0A, c, o)
  | .movr c o => some (0x0B, c, o)
  | .add c o => some (0x10, c, o)
  | .adc c o => some (0x11, c, o)
  | .sub c o => some (0x12, c, o)
  | .sbc c o => some (0x13, c, o)
  | .cmp c o => some (0x14, c, o)
  | .and c o => some (0x15, c, o)
  | .or c o => some (0x16, c, o)
  | .xor c o => some (0x17, c, o)
  | .neg c o => some (0x18, c, o)
  | .not c o => some (0x19, c, o)
  | .shl c o => some (0x1A, c, o)
  | .shr c o => some (0x1B, c, o)
  | .sha c o => some (0x1C, c, o)
  | .rol c o => some (0x1D, c, o)
  | .ror c o => some (0x1E, c, o)
  | .fadd c o => some (0x20, c, o)
  | .fsub c o => some (0x21, c, o)
  | .fneg c o => some (0x22, c, o)
  | .fabs c o => some (0x23, c, o)
  | .fshl c o => some (0x24, c, o)
  | .fshr c o => some (0x25, c, o)
  | .satn c o => some (0x26, c, o)
  | .addd c o => some (0x30, c, o)
  | .subd c o => some (0x31, c, o)
  | .dad c o => some (0x32, c, o)
  | .das c o => some (0x33, c, o)
  | .d2b c o => some (0x34, c, o)
  | .b2d c o => some (0x35, c, o)
  | .crcs c o => some (0x38, c, o)
  | .par c o => some (0x39, c, o)
  | .brev c o => some (0x3A, c, o)
  | .mul c o => some (0x40, c, o)
  | .mulu c o => some (0x41, c, o)
  | .mac c o => some (0x42, c, o)
  | .fpr c o => some (0x43, c, o)
  | .call c o => some (0x90, c, o)
  | .ret c o => some (0x91, c, o)
  | .reti c o => some (0x92, c, o)
  | .dbx c o => some (0x93, c, o)
  | .dby c o => some (0x94, c, o)
  | .trap c o => some (0xE0, c, o)
  | .wait c o => some (0xE1, c, o)
  | .fence c o => some (0xE2, c, o)
  | .fencew c o => some (0xE3, c, o)
  | .fenceio c o => some (0xE4, c, o)
  | .xchg c o => some (0xE5, c, o)
  | .slotw c o => some (0xE8, c, o)
  | .stamp c o => some (0xE9, c, o)
  | .nop c o => some (0xEF, c, o)
  | .trapb c o => some (0xF1, c, o)
  | .jcc c cc o => some (0x80#8 ||| cc.setWidth 8, c, o)
  | _ => none

/-- An instruction word from its fields: OP [35:28], MODE [27:25], IXS [24], OPD [23:0]. -/
def j36Word (op : BitVec 8) (o : Opnd) : Word := op ++ (o.mode ++ (BitVec.ofBool o.ixs ++ o.opd))

/-- The word of a J36 instruction. -/
def encodeJ36 (i : Instr) : Option Word := (j36Parts i).map (fun p => j36Word p.1 p.2.2)

/-- The operand fields of a word. -/
def j36Opnd (w : Word) : Opnd := { mode := w.extractLsb' 25 3, ixs := w.getLsbD 24, opd := w.extractLsb' 0 24 }

/-- The instruction with opcode `op`; none where the opcode is undefined. -/
def j36Of (op : BitVec 8) (c : Core) (o : Opnd) : Option Instr :=
  match op.toNat with
  | 0x01 => some (.lda c o)
  | 0x02 => some (.sta c o)
  | 0x03 => some (.ldx c o)
  | 0x04 => some (.ldy c o)
  | 0x05 => some (.stx c o)
  | 0x06 => some (.sty c o)
  | 0x07 => some (.leax c o)
  | 0x08 => some (.leay c o)
  | 0x09 => some (.push c o)
  | 0x0A => some (.pop c o)
  | 0x0B => some (.movr c o)
  | 0x10 => some (.add c o)
  | 0x11 => some (.adc c o)
  | 0x12 => some (.sub c o)
  | 0x13 => some (.sbc c o)
  | 0x14 => some (.cmp c o)
  | 0x15 => some (.and c o)
  | 0x16 => some (.or c o)
  | 0x17 => some (.xor c o)
  | 0x18 => some (.neg c o)
  | 0x19 => some (.not c o)
  | 0x1A => some (.shl c o)
  | 0x1B => some (.shr c o)
  | 0x1C => some (.sha c o)
  | 0x1D => some (.rol c o)
  | 0x1E => some (.ror c o)
  | 0x20 => some (.fadd c o)
  | 0x21 => some (.fsub c o)
  | 0x22 => some (.fneg c o)
  | 0x23 => some (.fabs c o)
  | 0x24 => some (.fshl c o)
  | 0x25 => some (.fshr c o)
  | 0x26 => some (.satn c o)
  | 0x30 => some (.addd c o)
  | 0x31 => some (.subd c o)
  | 0x32 => some (.dad c o)
  | 0x33 => some (.das c o)
  | 0x34 => some (.d2b c o)
  | 0x35 => some (.b2d c o)
  | 0x38 => some (.crcs c o)
  | 0x39 => some (.par c o)
  | 0x3A => some (.brev c o)
  | 0x40 => some (.mul c o)
  | 0x41 => some (.mulu c o)
  | 0x42 => some (.mac c o)
  | 0x43 => some (.fpr c o)
  | 0x90 => some (.call c o)
  | 0x91 => some (.ret c o)
  | 0x92 => some (.reti c o)
  | 0x93 => some (.dbx c o)
  | 0x94 => some (.dby c o)
  | 0xE0 => some (.trap c o)
  | 0xE1 => some (.wait c o)
  | 0xE2 => some (.fence c o)
  | 0xE3 => some (.fencew c o)
  | 0xE4 => some (.fenceio c o)
  | 0xE5 => some (.xchg c o)
  | 0xE8 => some (.slotw c o)
  | 0xE9 => some (.stamp c o)
  | 0xEF => some (.nop c o)
  | 0xF1 => some (.trapb c o)
  | n => if n / 16 = 8 then some (.jcc c (op.setWidth 4) o) else none

/-- The instruction that a word means on core `c`; none where its opcode is undefined. -/
def decodeJ36 (c : Core) (w : Word) : Option Instr := j36Of (w.extractLsb' 28 8) c (j36Opnd w)

end Sys2Proof
end

