-- ==== Sys2Proof/Config.lean ====
section
/-!
DEFINITION. What an implementation fixes and the spec does not give, and the free values.  None of
these constants has a body: nothing can evaluate them, and a statement about them holds for every
value.
-/
namespace Sys2Proof.Config

/-- The contents of the ROM, fixed for each silicon revision and not given by the spec (R495).
[DESIGN CHOICE, safe: notes/assumptions/7] -/
opaque rom : Nat → Word

/-- What an SRAM word that nothing has written since its bank last lost power reads as (R496).  The
first argument counts the power losses of the bank.
[DESIGN CHOICE, safe: notes/assumptions/8] -/
opaque sramUndef : Nat → Nat → Word

/-- Whether a core's read of such a word traps with ECC_FAULT (R496).
[DESIGN CHOICE, safe: notes/assumptions/8] -/
opaque sramUndefTraps : Nat → Nat → Bool

/-- What a flash word reads as that a cut or failed pulse left undefined (R512, R518). -/
opaque flashUndef : Nat → Nat → Word

/-- Whether a read of such a flash word finds an uncorrectable error, or else a correctable one (R507, R518).
[DESIGN CHOICE, safe: notes/assumptions/149] -/
opaque flashUndefTraps : Nat → Nat → Bool
opaque flashUndefOne : Nat → Nat → Bool

/-- A free word: applied to a counter of the state that every use advances.
[DESIGN CHOICE, safe: notes/assumptions/9] -/
opaque freeWord : Nat → Word

/-- A free natural number, applied to the same counter.
[DESIGN CHOICE, safe: notes/assumptions/9] -/
opaque freeNat : Nat → Nat

/-- A free truth value, applied to the same counter. -/
opaque freeBool : Nat → Bool

/-- The level of pin `n` where the spec gives none: the chip and the board drive it against each other (R605), or
nothing drives or pulls it.  The first argument is the counter that time and every other free value advance.
[DESIGN CHOICE, safe: notes/assumptions/153] -/
opaque padFree : Nat → Nat → Bool

/-- What the chirp-multiplex baseband is between the samples of R209, of which it has one in four at the transmit sample
rate (R208): real and imaginary part over a divisor's root.
[DESIGN CHOICE, safe: notes/assumptions/169] -/
opaque between : Nat → Int × Int × Nat

/-- Whether an edge at a capture input takes 3 source cycles through the synchroniser, and not 2 (R394).
[DESIGN CHOICE, safe: notes/assumptions/178] -/
opaque captureLag : Bool

/-- The EUI-64 under which the layer of a router or root tries a HELLO of a source address that no table of the node
knows an EUI for (R309), by that address.
[DESIGN CHOICE, safe: notes/assumptions/189] -/
opaque meshEui : Nat → Nat

/-- LVER of the recovery ROM (1) and of Vole (2) (R569).
[DESIGN CHOICE, safe: notes/assumptions/110] -/
opaque loaderVersion : Nat → Nat

end Sys2Proof.Config
end

