-- ==== Sys2Proof/Machine/Reasons.lean ====
section
/-!
DEFINITION. The reason codes (R18, R69, R70 and the code tables of the chapters).
-/
namespace Sys2Proof.Machine.Rc

/-- The check passed, or the operation completed (spec/02). -/
def OK : Nat := 0x00
/-- A required clock domain is not provisioned or not running (spec/02). -/
def CLOCK_OFF : Nat := 0x01
/-- A required pin meaning is not assigned in the needed phase, or two meanings overlap (spec/02). -/
def PIN_PHASE : Nat := 0x02
/-- A pin, timer, queue, channel or slot is owned by another agent or block (spec/02). -/
def OWNED : Nat := 0x03
/-- The energy claim exceeds the claimant's ceiling or what Bear has room for (spec/02). -/
def BUDGET : Nat := 0x04
/-- A field value lies outside its permitted range (spec/02). -/
def RANGE : Nat := 0x05
/-- Field values are valid singly but not together (spec/02). -/
def COMBINATION : Nat := 0x06
/-- The key slot is empty or not permitted to this user or mode (spec/02). -/
def KEY_SLOT : Nat := 0x07
/-- The version is not supported, or there is no common version (spec/02). -/
def VERSION : Nat := 0x08
/-- The transmit filter response violates the spectral mask (spec/02). -/
def MASK : Nat := 0x09
/-- The field or resource is locked (spec/02). -/
def LOCKED : Nat := 0x0A
/-- A flash program was aimed at a word that is not erased; no pulse was applied (spec/02). -/
def NOT_ERASED : Nat := 0x0B
/-- The block or resource is in a state that does not accept the request (spec/02). -/
def BUSY : Nat := 0x0C
/-- The access came from an agent without the right owner or attribute (spec/02). -/
def SECURITY : Nat := 0x0D
/-- The structure of a stream, image or record is malformed (spec/02). -/
def STREAM : Nat := 0x0E
/-- A date or time is impossible (spec/02). -/
def CALENDAR : Nat := 0x0F
/-- The operation could not start by its deadline (spec/02). -/
def LATE : Nat := 0x10
/-- The rectified field is below the level needed to complete the write (spec/02). -/
def FIELD_WEAK : Nat := 0x11
/-- The die temperature forbids the operation (spec/02). -/
def THERMAL : Nat := 0x12
/-- The claim exceeds what the account can ever carry (spec/05). -/
def NEVER_FITS : Nat := 0x20
/-- The claimant's declared peak is 0 (spec/05). -/
def UNDECLARED : Nat := 0x21
/-- All 64 reservation entries are in use (spec/05). -/
def RES_FULL : Nat := 0x22
/-- The projection cannot carry the reservation (spec/05). -/
def RES_OVERBOOK : Nat := 0x23
/-- The reservation starts too soon or too far ahead (spec/05). -/
def RES_WINDOW : Nat := 0x24
/-- The grant was stopped at a safe point for a class-0 claim (spec/05). -/
def PREEMPTED : Nat := 0x25
/-- A measured value stays below its floor (spec/05). -/
def BELOW_FLOOR : Nat := 0x26
/-- The supply moved during a measurement (spec/05). -/
def CAL_FAIL : Nat := 0x27
/-- The earliest start lies 2^24 LF ticks or more ahead (spec/05). -/
def HORIZON : Nat := 0x28
/-- Deferred by the thermal duty bound (spec/05). -/
def DUTY : Nat := 0x29
/-- Deferred by the wake stagger (spec/05). -/
def STAGGER : Nat := 0x2A
/-- Deferred by a supply warning (spec/05). -/
def WARNING : Nat := 0x2B
/-- The synthesiser failed to lock, or lost lock (spec/06). -/
def UNLOCKED : Nat := 0x30
/-- Calibration found no VCO setting for part of a band (spec/06). -/
def VCO_RANGE : Nat := 0x31
/-- The frequency lies outside both bands (spec/06). -/
def BAND : Nat := 0x32
/-- The cell named a profile slot with VALID = 0 (spec/06). -/
def PROFILE_EMPTY : Nat := 0x33
/-- The coexistence grant was low, and the policy dropped or skipped the activity (spec/06). -/
def CX_DENIED : Nat := 0x34
/-- The grant fell during a transmission, and the policy aborted it (spec/06). -/
def CX_LOST : Nat := 0x35
/-- The window closed with nothing acquired (spec/07). -/
def NO_PREAMBLE : Nat := 0x40
/-- A preamble was acquired but the sync word differed (spec/07). -/
def SYNC_MISMATCH : Nat := 0x41
/-- The header check failed, or LEN was 0 (spec/07). -/
def HDR_FAIL : Nat := 0x42
/-- The payload CRC-16 failed (spec/07). -/
def CRC_FAIL : Nat := 0x43
/-- Carrier or timing tracking was lost within a frame (spec/07). -/
def TRACK_LOST : Nat := 0x44
/-- The transmit claim would exceed the LONG duration limit (spec/07). -/
def TOA_LIMIT : Nat := 0x45
/-- The transmit LEN lies outside 1 to 255 (spec/07). -/
def LEN_RANGE : Nat := 0x46
/-- The two training symbols did not agree (spec/08). -/
def TRAIN_FAIL : Nat := 0x48
/-- The transmit LEN lies outside the mode's limits (spec/08). -/
def LEN_LIMIT : Nat := 0x49
/-- A received PHR asked for mode switch (spec/08). -/
def MS_UNSUPPORTED : Nat := 0x4A
/-- The CRC-32 or the FCS of the payload failed (spec/08). -/
def PAYLOAD_FAIL : Nat := 0x4B
/-- Every allowed transmission went unacknowledged (spec/09). -/
def NO_ACK : Nat := 0x50
/-- The cell was skipped because the radio was busy (spec/09). -/
def OVERLAP : Nat := 0x51
/-- The chip was not running when the window opened (spec/09). -/
def NOT_AWAKE : Nat := 0x52
/-- The received frame exceeded its buffer (spec/09). -/
def BUF_SHORT : Nat := 0x53
/-- The receive queue was full (spec/09). -/
def QUEUE_FULL : Nat := 0x54
/-- The acknowledgement could not be sent in time (spec/09). -/
def ACK_LATE : Nat := 0x55
/-- The acknowledgement came from another node or carried another sequence number (spec/09). -/
def ACK_BAD : Nat := 0x56
/-- A link queue is off or not of KIND LINK (spec/09). -/
def QUEUE_OFF : Nat := 0x57
/-- A correction exceeded MAXCORR (spec/09). -/
def CORR_REJECT : Nat := 0x58
/-- A repeated frame was acknowledged but not delivered (spec/09). -/
def DUPLICATE : Nat := 0x59
/-- No correction within DESYNC seconds (spec/09). -/
def DESYNC : Nat := 0x5A
/-- The frame was for another mesh or node (spec/09). -/
def FILTERED : Nat := 0x5B
/-- No valid route or next hop (spec/10). -/
def NO_ROUTE : Nat := 0x60
/-- HOPLEFT exhausted, or the route is too long for the route or link (spec/10). -/
def HOP_LIMIT : Nat := 0x61
/-- Frame counter already used or too old (spec/10). -/
def REPLAY : Nat := 0x62
/-- The MIC did not verify (spec/10). -/
def MIC_FAIL : Nat := 0x63
/-- The node has not joined (spec/10). -/
def NOT_JOINED : Nat := 0x64
/-- The root refused the join (spec/10). -/
def JOIN_REFUSED : Nat := 0x65
/-- The router already has 256 children (spec/10). -/
def CHILD_FULL : Nat := 0x66
/-- An UP frame arrived from a parent of the receiver (spec/10). -/
def RANK_LOOP : Nat := 0x67
/-- Every parent failed (spec/10). -/
def NO_PARENT : Nat := 0x68
/-- The CID is not defined (spec/10). -/
def UNKNOWN_CMD : Nat := 0x69
/-- The requested address belongs to another EUI (spec/10). -/
def ADDR_CONFLICT : Nat := 0x6A
/-- No key is held for the frame's epoch (spec/10). -/
def KEY_EPOCH : Nat := 0x6B
/-- The frame exceeds the next hop's limit (spec/10). -/
def TOO_BIG : Nat := 0x6C
/-- The frame counter is exhausted for this key (spec/10). -/
def COUNTER_END : Nat := 0x6D
/-- A fault check found a mismatch; the output was withheld (spec/11). -/
def FAULT : Nat := 0x70
/-- The tag did not verify; the output was zeroed (spec/11). -/
def AUTH_FAIL : Nat := 0x71
/-- LEN, AADLEN, NLEN or TAGLEN breaks the mode's rules (spec/11). -/
def BAD_LENGTH : Nat := 0x72
/-- The unwrap integrity check failed (spec/11). -/
def UNWRAP_FAIL : Nat := 0x73
/-- A sealed-area program or erase failed (spec/11). -/
def SEAL_FAIL : Nat := 0x74
/-- The target slot lies in OTP (spec/11). -/
def SLOT_FIXED : Nat := 0x75
/-- The operation was aborted, or the engine was disabled (spec/11). -/
def ABORTED : Nat := 0x76
/-- No card answered after the retries (spec/12). -/
def NO_RESPONSE : Nat := 0x78
/-- Parity, CRC_A, BCC, framing or block-protocol error after the retries (spec/12). -/
def PROTOCOL : Nat := 0x79
/-- The response exceeds the entry's buffer (spec/12). -/
def RX_OVERRUN : Nat := 0x7A
/-- The field session ended, by grant or by disable, before the operation completed (spec/12). -/
def SESSION_END : Nat := 0x7B
/-- No mailbox slot is erased (spec/12). -/
def MBOX_FULL : Nat := 0x7C
/-- A round found 16 cards and stopped (spec/12). -/
def CARD_LIMIT : Nat := 0x7D
/-- An outside field prevented the reader's field (spec/12). -/
def EXT_FIELD : Nat := 0x7E
/-- A mailbox word failed verify at the pulse limit (spec/12). -/
def WRITE_FAIL : Nat := 0x7F
/-- The enable was written to the high timer of a linked pair; only the low timer enables the pair (R390) (spec/13). -/
def LINK_HALF : Nat := 0x80
/-- A kick fell inside the closed window (spec/13). -/
def WDT_EARLY : Nat := 0x81
/-- A kick carried the wrong key (spec/13). -/
def WDT_KEY : Nat := 0x82
/-- The watchdog timed out (spec/13). -/
def WDT_EXPIRED : Nat := 0x83
/-- The date lies outside 2000-01-01 00:00:00 to 4177-08-19 07:32:15 (spec/13). -/
def CAL_RANGE : Nat := 0x88
/-- The alarm would not lie above RTC_SEC (spec/13). -/
def ALARM_PAST : Nat := 0x89
/-- ICU_DONEt named a source that the target does not hold (spec/14). -/
def NOT_CLAIMED : Nat := 0x90
/-- A fired task's command was refused by its block (spec/14). -/
def TASK_REFUSED : Nat := 0x91
/-- The channel's publisher cannot change while an event-sourced timer counts it (spec/14). -/
def CH_IN_USE : Nat := 0x92
/-- The target lies in a locked region, or a protection-row command was given while locked (spec/18). -/
def PROTECTED : Nat := 0x98
/-- The password did not match (spec/18). -/
def PWD_WRONG : Nat := 0x99
/-- Eight wrong attempts; no comparison was made (spec/18). -/
def PWD_LOCKOUT : Nat := 0x9A
/-- A word did not verify at its pulse or attempt limit (spec/18). -/
def PROG_FAIL : Nat := 0x9B
/-- A sector did not verify after 8 pulses (spec/18). -/
def ERASE_FAIL : Nat := 0x9C
/-- No SPARE sector remains in the wear pool (spec/18). -/
def POOL_WORN : Nat := 0x9D
/-- The command, opcode or request is not defined in the version in force (spec/19). -/
def BAD_CMD : Nat := 0xA0
/-- A posted word found the queue full and was dropped (spec/19). -/
def POST_FULL : Nat := 0xA1
/-- A version-3 write failed its check word; nothing was applied (spec/19). -/
def CHECK_FAIL : Nat := 0xA2
/-- The address has no target for the access (spec/19). -/
def NO_TARGET : Nat := 0xA3
/-- A read outside the mirror came while a fetch was pending (spec/19). -/
def FETCH_BUSY : Nat := 0xA4
/-- A service request came with no session open (spec/19). -/
def NO_SESSION : Nat := 0xA5
/-- The header's MAGIC word reads erased (spec/20). -/
def IMG_NONE : Nat := 0xA8
/-- A header field, its reserved bits or its HCRC failed (spec/20). -/
def IMG_HEADER : Nat := 0xA9
/-- The body CRC does not match BCRC (spec/20). -/
def IMG_CRC : Nat := 0xAA
/-- A released core has no valid entry point in the body (spec/20). -/
def IMG_ENTRY : Nat := 0xAB
/-- An interrupted flash operation lies in the image region (spec/20). -/
def IMG_INTR : Nat := 0xAC
/-- A loader operation came out of order (spec/20). -/
def LDR_SEQ : Nat := 0xAD
/-- A buffer failed its CRC, or programmed words read back wrong (spec/20). -/
def LDR_CHECK : Nat := 0xAE
/-- Vole's header or body failed its check (spec/20). -/
def VOLE_BAD : Nat := 0xAF
/-- Undefined opcode, reserved mode or field, Badger-only instruction on a Fox core, or a bad special-register access (spec/15). -/
def ILLEGAL_OP : Nat := 0xB0
/-- A TRAPB word was executed, normally a fetch from a busy flash bank (spec/15). -/
def BUSY_FETCH : Nat := 0xB1
/-- The interconnect refused the access, or XCHG was used outside SRAM (spec/15). -/
def BUS_FAULT : Nat := 0xB2
/-- A stack access fell outside SRAM (spec/15). -/
def STACK_FAULT : Nat := 0xB3
/-- An uncorrectable SECDED error in a word the core read (spec/15). -/
def ECC_FAULT : Nat := 0xB4
/-- TRAP was executed (spec/15). -/
def SOFTWARE : Nat := 0xB5
/-- A trap arose with TH = 1 or during entry; the core has stopped (spec/15). -/
def LOCKUP : Nat := 0xB6

end Sys2Proof.Machine.Rc
end

