-- ==== Sys2Proof/Machine/Regs.lean ====
section
/-!
DEFINITION. The registers of the chip and their fields, by the manual's names: `R.NAME` is an
address (a function of the index for an array of registers), `F.NAME_FIELD` a field of it.  The
addresses and bit numbers are those of the register headings and tables of spec/01 to spec/19.
-/

namespace Sys2Proof.Machine

/-- A field: bits `hi` down to `lo` of the register at `addr`. -/
structure Fld where
  addr : Nat
  hi : Nat
  lo : Nat
deriving DecidableEq, Repr

namespace R

def CLK_CTL : Nat := 0x301000
def CLK_STAT : Nat := 0x301001
def CLK_RUN : Nat := 0x301002
def CLK_FOX : Nat := 0x301003
def SSM_CTL : Nat := 0x300000
def SSM_STAT : Nat := 0x300001
def SSM_BOOT : Nat := 0x300002
def SSM_CRC : Nat := 0x300003
def SSM_LOCK : Nat := 0x300004
def PIN_CTL : Nat := 0x302000
def PIN_STAT : Nat := 0x302001
def PIN_IN : Nat := 0x302002
def PIN_OUT : Nat := 0x302003
def PIN_OUTSET : Nat := 0x302004
def PIN_OUTCLR : Nat := 0x302005
def PIN_OUTTGL : Nat := 0x302006
def PIN_DIR : Nat := 0x302007
def PIN_WAKE : Nat := 0x302008
def PIN_MAP (n : Nat) : Nat := 0x302010 + n
def PMU_CTL : Nat := 0x303000
def PMU_STAT : Nat := 0x303001
def PMU_REQ : Nat := 0x303002
def PMU_HOLD : Nat := 0x303003
def PMU_CAUSE : Nat := 0x303004
def PMU_BOD : Nat := 0x303005
def PMU_VCORE : Nat := 0x303006
def PMU_WCLS : Nat := 0x303007
def EGY_CTL : Nat := 0x304000
def EGY_STAT : Nat := 0x304001
def EGY_SUPPLY : Nat := 0x304002
def EGY_CAP : Nat := 0x304003
def EGY_LEVEL : Nat := 0x304004
def EGY_SRC : Nat := 0x304005
def EGY_RLIM : Nat := 0x304006
def EGY_CLIM : Nat := 0x304007
def EGY_CFG : Nat := 0x304008
def EGY_CLAIMS : Nat := 0x304009
def EGY_LAST : Nat := 0x30400A
def EGY_EARLY : Nat := 0x30400B
def EGY_WDEF : Nat := 0x30400C
def EGY_DECL (n : Nat) : Nat := 0x304010 + n
def EGY_SWCLM (n : Nat) : Nat := 0x304020 + 4 * (n - 13)
def EGY_RESS : Nat := 0x304030
def EGY_RESP : Nat := 0x304031
def EGY_RESC : Nat := 0x304032
def EGY_RESST : Nat := 0x304033
def EGY_RES0 (n : Nat) : Nat := 0x304100 + 2 * n
def MON_CTL : Nat := 0x305000
def MON_STAT : Nat := 0x305001
def MON_CELL : Nat := 0x305002
def MON_RING : Nat := 0x305003
def MON_XTAL : Nat := 0x305004
def MON_FLASH : Nat := 0x305005
def MON_PLAN0 : Nat := 0x305006
def MON_PLAN1 : Nat := 0x305007
def MON_LAST : Nat := 0x305008
def SYN_CTL : Nat := 0x306000
def SYN_STAT : Nat := 0x306001
def SYN_CFG : Nat := 0x306002
def SYN_CMD : Nat := 0x306003
def SYN_FREQ : Nat := 0x306004
def RFE_CTL : Nat := 0x307000
def RFE_STAT : Nat := 0x307001
def RFE_CFG : Nat := 0x307002
def RFE_CMD : Nat := 0x307003
def RFE_AGC : Nat := 0x307004
def RFE_QUAL : Nat := 0x307005
def RFE_RSSI : Nat := 0x307006
def RFE_PROF_F (n : Nat) : Nat := 0x307010 + 2 * n
def RFE_PROF_M (n : Nat) : Nat := 0x307011 + 2 * n
def RFE_FIR (k w : Nat) : Nat := 0x307040 + 16 * k + w
def RFE_MASK (p : Nat) : Nat := 0x307080 + p
def CX_CTL : Nat := 0x308000
def CX_STAT : Nat := 0x308001
def CX_CFG : Nat := 0x308002
def CX_ARBCUR : Nat := 0x308003
def CX_ARBNXT : Nat := 0x308004
def CX_CNT : Nat := 0x308005
def MDM_CTL : Nat := 0x309000
def MDM_STAT : Nat := 0x309001
def MDM_LS (m : Nat) : Nat := 0x309010 + m
def MDM_LSCFG : Nat := 0x309018
def MDM_LSCNT : Nat := 0x309019
def MDM_LSLAST : Nat := 0x30901A
def MDM_CM (m : Nat) : Nat := 0x309040 + m
def MDM_CMCFG : Nat := 0x309048
def MDM_CMCNT : Nat := 0x309049
def MDM_CMLAST : Nat := 0x30904A
def MDM_FK (m : Nat) : Nat := 0x309050 + m
def MDM_FKCFG : Nat := 0x309058
def MDM_FKCNT : Nat := 0x309059
def MDM_FKLAST : Nat := 0x30905A
def LNK_CTL : Nat := 0x30A000
def LNK_STAT : Nat := 0x30A001
def LNK_CFG : Nat := 0x30A002
def LNK_BOOK : Nat := 0x30A003
def LNK_MESHID : Nat := 0x30A004
def LNK_SADDR : Nat := 0x30A005
def LNK_SYNC : Nat := 0x30A006
def LNK_TOFF : Nat := 0x30A007
def LNK_TADJ : Nat := 0x30A008
def LNK_EVT : Nat := 0x30A009
def LNK_CNT : Nat := 0x30A00A
def LNK_SEED : Nat := 0x30A00B
def LNK_HOPCFG : Nat := 0x30A00C
def LNK_NEXT : Nat := 0x30A00D
def LNK_CLS_T0 (c : Nat) : Nat := 0x30A020 + 8 * c
def LNK_CLS_T1 (c : Nat) : Nat := 0x30A021 + 8 * c
def LNK_CLS_T2 (c : Nat) : Nat := 0x30A022 + 8 * c
def LNK_CLS_START (c : Nat) : Nat := 0x30A023 + 8 * c
def LNK_CLS_ASNHI (c : Nat) : Nat := 0x30A024 + 8 * c
def LNK_CLS_ASNLO (c : Nat) : Nat := 0x30A025 + 8 * c
def LNK_SF (f : Nat) : Nat := 0x30A040 + f
def LNK_BO (q : Nat) : Nat := 0x30A048 + (q - 8)
def LNK_CH (k : Nat) : Nat := 0x30A080 + k
def LNK_HOP (i : Nat) : Nat := 0x30A0C0 + i
def LNK_NBR_0 (n : Nat) : Nat := 0x30A200 + 2 * n
def LNK_NBR_1 (n : Nat) : Nat := 0x30A201 + 2 * n
def LNK_CELL_0 (n : Nat) : Nat := 0x30A800 + 2 * n
def LNK_CELL_1 (n : Nat) : Nat := 0x30A801 + 2 * n
def QUE_CTL : Nat := 0x30B000
def QUE_STAT : Nat := 0x30B001
def QUE_RING (q : Nat) : Nat := 0x30B100 + 8 * q
def QUE_BUF (q : Nat) : Nat := 0x30B101 + 8 * q
def QUE_CFG (q : Nat) : Nat := 0x30B102 + 8 * q
def QUE_HEAD (q : Nat) : Nat := 0x30B103 + 8 * q
def QUE_TAIL (q : Nat) : Nat := 0x30B104 + 8 * q
def QUE_QSTAT (q : Nat) : Nat := 0x30B105 + 8 * q
def CPH_CTL : Nat := 0x30C000
def CPH_STAT : Nat := 0x30C001
def KST_CTL : Nat := 0x30D000
def KST_STAT : Nat := 0x30D001
def KST_SEAL : Nat := 0x30D002
def KST_ATTR (s : Nat) : Nat := 0x30D010 + s
def NFC_CTL : Nat := 0x30E000
def NFC_STAT : Nat := 0x30E001
def NFC_CFG : Nat := 0x30E002
def NFC_PING : Nat := 0x30E003
def NFC_BASE : Nat := 0x30E004
def NFC_PMEAS : Nat := 0x30E005
def NFC_CMD : Nat := 0x30E006
def NFC_RDX : Nat := 0x30E007
def NFC_COLL : Nat := 0x30E008
def NFC_NDEF : Nat := 0x30E009
def NFC_MBOX : Nat := 0x30E00A
def NFC_FIELD : Nat := 0x30E00B
def NFC_CNT : Nat := 0x30E00C
def STB_CTL : Nat := 0x30F000
def STB_STAT : Nat := 0x30F001
def STB_LO : Nat := 0x30F002
def STB_HI : Nat := 0x30F003
def STB_FINE : Nat := 0x30F004
def TMR_CTL : Nat := 0x310000
def TMR_STAT : Nat := 0x310001
def TMR_OWN : Nat := 0x310002
def RTC_CTL : Nat := 0x311000
def RTC_STAT : Nat := 0x311001
def RTC_SEC : Nat := 0x311002
def RTC_SUB : Nat := 0x311003
def RTC_TRIM : Nat := 0x311004
def RTC_ALARM : Nat := 0x311005
def RTC_CFG : Nat := 0x311006
def WDT_CTL : Nat := 0x312000
def WDT_STAT : Nat := 0x312001
def WDT_CFG : Nat := 0x312002
def WDT_KICK : Nat := 0x312003
def WDT_COUNT : Nat := 0x312004
def WDT_CAUSE : Nat := 0x312005
def ICU_CTL : Nat := 0x313000
def ICU_STAT : Nat := 0x313001
def ICU_PEND (k : Nat) : Nat := 0x313002 + k
def ICU_SWSET : Nat := 0x313005
def ICU_SRC (n : Nat) : Nat := 0x313100 + n
def EVR_CTL : Nat := 0x314000
def EVR_STAT : Nat := 0x314001
def EVR_FLAG0 : Nat := 0x314002
def EVR_FLAG1 : Nat := 0x314003
def EVR_CLEAR : Nat := 0x314004
def EVR_QCFG : Nat := 0x314005
def EVR_SWPUB : Nat := 0x314006
def EVR_CH (c : Nat) : Nat := 0x314040 + c
def EVR_TSUB (t : Nat) : Nat := 0x314080 + t
def EVR_TSTAT (t : Nat) : Nat := 0x3140A0 + t
def PMU_RET (n : Nat) : Nat := 0x303100 + n
def FLC_CTL : Nat := 0x315000
def FLC_STAT : Nat := 0x315001
def FLC_CMD : Nat := 0x315002
def FLC_DATA : Nat := 0x315003
def FLC_RES : Nat := 0x315004
def FLC_MAXPULSE : Nat := 0x315005
def FLC_PWD0 : Nat := 0x315006
def FLC_PWD1 : Nat := 0x315007
def FLC_INTR : Nat := 0x315008
def FLC_ECC : Nat := 0x315009
def FLC_REG (n : Nat) : Nat := 0x315010 + n
def FLC_SQCFG : Nat := 0x315020
def FLC_SQSTAT : Nat := 0x315021
def FLC_SQWEAR : Nat := 0x315022
def FLC_SQMAP (L : Nat) : Nat := 0x315040 + L
def OTP_CTL : Nat := 0x316000
def OTP_STAT : Nat := 0x316001
def OTP_ADDR : Nat := 0x316002
def OTP_DATA : Nat := 0x316003
def OTP_CMD : Nat := 0x316004
def HP_ID : Nat := 0x400000
def HP_HSTAT : Nat := 0x400001
def HP_FADDR : Nat := 0x400005
def HP_CTL : Nat := 0x317000
def HP_STAT : Nat := 0x317001
def HP_CNT : Nat := 0x317002
def SVC_CTL : Nat := 0x318000
def SVC_STAT : Nat := 0x318001

-- arrays with two words each, banked registers and page-style blocks (their tables stand in the chapters named)
def EGY_RES1 (n : Nat) : Nat := 0x304101 + 2 * n
def EGY_SWANS (n : Nat) : Nat := 0x304021 + 4 * (n - 13)
def EGY_SWERL (n : Nat) : Nat := 0x304022 + 4 * (n - 13)
def ICU_CLAIM (t : Nat) : Nat := 0x313010 + 4 * t
def ICU_DONE (t : Nat) : Nat := 0x313011 + 4 * t
def ICU_MOD (t : Nat) : Nat := 0x313012 + 4 * t
def ICU_TSTAT (t : Nat) : Nat := 0x313013 + 4 * t
def TMRN_CTL (n : Nat) : Nat := 0x310100 + 16 * n
def TMRN_STAT (n : Nat) : Nat := 0x310101 + 16 * n
def TMRN_CFG (n : Nat) : Nat := 0x310102 + 16 * n
def TMRN_COUNT (n : Nat) : Nat := 0x310103 + 16 * n
def TMRN_CMP0 (n : Nat) : Nat := 0x310104 + 16 * n
def TMRN_CMP1 (n : Nat) : Nat := 0x310105 + 16 * n
def TMRN_CAPR (n : Nat) : Nat := 0x310106 + 16 * n
def TMRN_CAPF (n : Nat) : Nat := 0x310107 + 16 * n
def TMRN_PW (n : Nat) : Nat := 0x310108 + 16 * n
def TMRN_FLAG (n : Nat) : Nat := 0x310109 + 16 * n
def TMRN_ACT (n : Nat) : Nat := 0x31010A + 16 * n
def TMRN_OUT (n : Nat) : Nat := 0x31010B + 16 * n
def CPH_UCMD (u : Nat) : Nat := 0x30C100 + 0x100 * u
def CPH_USRC (u : Nat) : Nat := 0x30C101 + 0x100 * u
def CPH_UDST (u : Nat) : Nat := 0x30C102 + 0x100 * u
def CPH_ULEN (u : Nat) : Nat := 0x30C103 + 0x100 * u
def CPH_UAAD (u : Nat) : Nat := 0x30C104 + 0x100 * u
def CPH_UAADLEN (u : Nat) : Nat := 0x30C105 + 0x100 * u
def CPH_UIV (u : Nat) : Nat := 0x30C106 + 0x100 * u
def CPH_UTAG (u : Nat) : Nat := 0x30C107 + 0x100 * u
def CPH_UGO (u : Nat) : Nat := 0x30C108 + 0x100 * u
def CPH_USTAT (u : Nat) : Nat := 0x30C109 + 0x100 * u
def CPH_UPROG (u : Nat) : Nat := 0x30C10A + 0x100 * u
def HP_DBELL : Nat := 0x400002

end R

namespace F

def CLK_CTL_EN : Fld := ⟨R.CLK_CTL, 0, 0⟩
def CLK_STAT_PLLLOCK : Fld := ⟨R.CLK_STAT, 9, 9⟩
def CLK_STAT_ACTIVE : Fld := ⟨R.CLK_STAT, 8, 8⟩
def CLK_STAT_REASON : Fld := ⟨R.CLK_STAT, 7, 0⟩
def CLK_RUN_RUN : Fld := ⟨R.CLK_RUN, 13, 0⟩
def CLK_FOX_FOXB_SEL : Fld := ⟨R.CLK_FOX, 7, 4⟩
def CLK_FOX_FOXA_SEL : Fld := ⟨R.CLK_FOX, 3, 0⟩
def SSM_CTL_EN : Fld := ⟨R.SSM_CTL, 0, 0⟩
def SSM_STAT_SOURCE : Fld := ⟨R.SSM_STAT, 11, 9⟩
def SSM_STAT_ACTIVE : Fld := ⟨R.SSM_STAT, 8, 8⟩
def SSM_STAT_REASON : Fld := ⟨R.SSM_STAT, 7, 0⟩
def SSM_BOOT_TYPE : Fld := ⟨R.SSM_BOOT, 35, 27⟩
def SSM_BOOT_OFFSET : Fld := ⟨R.SSM_BOOT, 17, 0⟩
def SSM_CRC_CRC : Fld := ⟨R.SSM_CRC, 31, 0⟩
def SSM_LOCK_LOCK : Fld := ⟨R.SSM_LOCK, 13, 1⟩
def PIN_CTL_EN : Fld := ⟨R.PIN_CTL, 0, 0⟩
def PIN_STAT_IO2OK : Fld := ⟨R.PIN_STAT, 13, 13⟩
def PIN_STAT_IO1OK : Fld := ⟨R.PIN_STAT, 12, 12⟩
def PIN_STAT_PHASE : Fld := ⟨R.PIN_STAT, 11, 9⟩
def PIN_STAT_ACTIVE : Fld := ⟨R.PIN_STAT, 8, 8⟩
def PIN_STAT_REASON : Fld := ⟨R.PIN_STAT, 7, 0⟩
def PIN_IN_IN : Fld := ⟨R.PIN_IN, 23, 0⟩
def PIN_OUT_OUT : Fld := ⟨R.PIN_OUT, 23, 0⟩
def PIN_OUTSET_OUT : Fld := ⟨R.PIN_OUTSET, 23, 0⟩
def PIN_DIR_DIR : Fld := ⟨R.PIN_DIR, 23, 0⟩
def PIN_WAKE_ABORT : Fld := ⟨R.PIN_WAKE, 24, 24⟩
def PIN_WAKE_WAKE : Fld := ⟨R.PIN_WAKE, 23, 0⟩
def PIN_MAP_OWNER (n : Nat) : Fld := ⟨R.PIN_MAP n, 35, 34⟩
def PIN_MAP_PULL (n : Nat) : Fld := ⟨R.PIN_MAP n, 33, 32⟩
def PIN_MAP_M_RECOVER (n : Nat) : Fld := ⟨R.PIN_MAP n, 31, 26⟩
def PIN_MAP_M_REST (n : Nat) : Fld := ⟨R.PIN_MAP n, 25, 20⟩
def PIN_MAP_M_SLOT (n : Nat) : Fld := ⟨R.PIN_MAP n, 19, 14⟩
def PIN_MAP_M_RUN (n : Nat) : Fld := ⟨R.PIN_MAP n, 13, 8⟩
def PIN_MAP_M_BOOT (n : Nat) : Fld := ⟨R.PIN_MAP n, 7, 2⟩
def PIN_MAP_DRV (n : Nat) : Fld := ⟨R.PIN_MAP n, 1, 0⟩
def PMU_CTL_EN : Fld := ⟨R.PMU_CTL, 0, 0⟩
def PMU_STAT_LAST : Fld := ⟨R.PMU_STAT, 11, 9⟩
def PMU_STAT_ACTIVE : Fld := ⟨R.PMU_STAT, 8, 8⟩
def PMU_STAT_REASON : Fld := ⟨R.PMU_STAT, 7, 0⟩
def PMU_REQ_MAXDEPTH : Fld := ⟨R.PMU_REQ, 19, 18⟩
def PMU_REQ_DEPTH : Fld := ⟨R.PMU_REQ, 17, 16⟩
def PMU_REQ_RET : Fld := ⟨R.PMU_REQ, 15, 0⟩
def PMU_HOLD_HOLD : Fld := ⟨R.PMU_HOLD, 8, 0⟩
def PMU_CAUSE_ABORT : Fld := ⟨R.PMU_CAUSE, 15, 15⟩
def PMU_CAUSE_SVC : Fld := ⟨R.PMU_CAUSE, 14, 14⟩
def PMU_CAUSE_WDT : Fld := ⟨R.PMU_CAUSE, 13, 13⟩
def PMU_CAUSE_RSTPIN : Fld := ⟨R.PMU_CAUSE, 12, 12⟩
def PMU_CAUSE_BODCORE : Fld := ⟨R.PMU_CAUSE, 11, 11⟩
def PMU_CAUSE_BODSYS : Fld := ⟨R.PMU_CAUSE, 10, 10⟩
def PMU_CAUSE_BODIN : Fld := ⟨R.PMU_CAUSE, 9, 9⟩
def PMU_CAUSE_POR : Fld := ⟨R.PMU_CAUSE, 8, 8⟩
def PMU_CAUSE_FIELD : Fld := ⟨R.PMU_CAUSE, 7, 7⟩
def PMU_CAUSE_PINS : Fld := ⟨R.PMU_CAUSE, 6, 6⟩
def PMU_CAUSE_RTC : Fld := ⟨R.PMU_CAUSE, 5, 5⟩
def PMU_CAUSE_TIMER : Fld := ⟨R.PMU_CAUSE, 4, 4⟩
def PMU_CAUSE_LINK : Fld := ⟨R.PMU_CAUSE, 3, 3⟩
def PMU_CAUSE_SVCWK : Fld := ⟨R.PMU_CAUSE, 2, 2⟩
def PMU_CAUSE_FROM : Fld := ⟨R.PMU_CAUSE, 1, 0⟩
def PMU_BOD_VSYSW : Fld := ⟨R.PMU_BOD, 4, 4⟩
def PMU_BOD_VINW : Fld := ⟨R.PMU_BOD, 3, 3⟩
def PMU_BOD_VINBOD : Fld := ⟨R.PMU_BOD, 2, 0⟩
def PMU_VCORE_MARGIN : Fld := ⟨R.PMU_VCORE, 23, 16⟩
def PMU_VCORE_MINCODE : Fld := ⟨R.PMU_VCORE, 15, 8⟩
def PMU_VCORE_SETCODE : Fld := ⟨R.PMU_VCORE, 7, 0⟩
def PMU_WCLS_SVC : Fld := ⟨R.PMU_WCLS, 15, 14⟩
def PMU_WCLS_FIELD : Fld := ⟨R.PMU_WCLS, 13, 12⟩
def PMU_WCLS_RTC : Fld := ⟨R.PMU_WCLS, 11, 10⟩
def PMU_WCLS_TIMER : Fld := ⟨R.PMU_WCLS, 9, 8⟩
def PMU_WCLS_LINK : Fld := ⟨R.PMU_WCLS, 7, 6⟩
def PMU_WCLS_PIN : Fld := ⟨R.PMU_WCLS, 5, 4⟩
def EGY_CTL_MEAS : Fld := ⟨R.EGY_CTL, 1, 1⟩
def EGY_CTL_EN : Fld := ⟨R.EGY_CTL, 0, 0⟩
def EGY_STAT_TEMP : Fld := ⟨R.EGY_STAT, 24, 16⟩
def EGY_STAT_THERM : Fld := ⟨R.EGY_STAT, 15, 14⟩
def EGY_STAT_WARNHOLD : Fld := ⟨R.EGY_STAT, 13, 13⟩
def EGY_STAT_MEASURING : Fld := ⟨R.EGY_STAT, 12, 12⟩
def EGY_STAT_VALID : Fld := ⟨R.EGY_STAT, 9, 9⟩
def EGY_STAT_ACTIVE : Fld := ⟨R.EGY_STAT, 8, 8⟩
def EGY_STAT_REASON : Fld := ⟨R.EGY_STAT, 7, 0⟩
def EGY_SUPPLY_MEAS : Fld := ⟨R.EGY_SUPPLY, 23, 12⟩
def EGY_SUPPLY_REFILL : Fld := ⟨R.EGY_SUPPLY, 11, 0⟩
def EGY_CAP_MEAS : Fld := ⟨R.EGY_CAP, 35, 18⟩
def EGY_CAP_CAP : Fld := ⟨R.EGY_CAP, 17, 0⟩
def EGY_LEVEL_KEPT : Fld := ⟨R.EGY_LEVEL, 35, 18⟩
def EGY_LEVEL_LEVEL : Fld := ⟨R.EGY_LEVEL, 17, 0⟩
def EGY_SRC_VOC : Fld := ⟨R.EGY_SRC, 23, 12⟩
def EGY_SRC_RSRC : Fld := ⟨R.EGY_SRC, 11, 0⟩
def EGY_RLIM_CEIL : Fld := ⟨R.EGY_RLIM, 23, 12⟩
def EGY_RLIM_FLOOR : Fld := ⟨R.EGY_RLIM, 11, 0⟩
def EGY_CLIM_CEIL : Fld := ⟨R.EGY_CLIM, 35, 18⟩
def EGY_CLIM_FLOOR : Fld := ⟨R.EGY_CLIM, 17, 0⟩
def EGY_CFG_STAGGER : Fld := ⟨R.EGY_CFG, 31, 16⟩
def EGY_CFG_DUTY : Fld := ⟨R.EGY_CFG, 15, 8⟩
def EGY_CFG_MEASINT : Fld := ⟨R.EGY_CFG, 7, 0⟩
def EGY_CLAIMS_PEND : Fld := ⟨R.EGY_CLAIMS, 31, 16⟩
def EGY_CLAIMS_GRANT : Fld := ⟨R.EGY_CLAIMS, 15, 0⟩
def EGY_LAST_CLAIMANT : Fld := ⟨R.EGY_LAST, 27, 24⟩
def EGY_LAST_ANSWER : Fld := ⟨R.EGY_LAST, 23, 22⟩
def EGY_LAST_POWER : Fld := ⟨R.EGY_LAST, 19, 8⟩
def EGY_LAST_CAUSE : Fld := ⟨R.EGY_LAST, 7, 0⟩
def EGY_EARLY_START : Fld := ⟨R.EGY_EARLY, 35, 0⟩
def EGY_WDEF_STB : Fld := ⟨R.EGY_WDEF, 35, 0⟩
def EGY_DECL_FIT (n : Nat) : Fld := ⟨R.EGY_DECL n, 19, 19⟩
def EGY_DECL_PCLASS (n : Nat) : Fld := ⟨R.EGY_DECL n, 17, 16⟩
def EGY_DECL_DCLASS (n : Nat) : Fld := ⟨R.EGY_DECL n, 15, 14⟩
def EGY_DECL_PEAK (n : Nat) : Fld := ⟨R.EGY_DECL n, 11, 0⟩
def EGY_SWCLM_UNIT (n : Nat) : Fld := ⟨R.EGY_SWCLM n, 35, 35⟩
def EGY_SWCLM_DUR (n : Nat) : Fld := ⟨R.EGY_SWCLM n, 34, 12⟩
def EGY_SWCLM_POWER (n : Nat) : Fld := ⟨R.EGY_SWCLM n, 11, 0⟩
def EGY_RESS_WORD : Fld := ⟨R.EGY_RESS, 35, 0⟩
def EGY_RESP_WORD : Fld := ⟨R.EGY_RESP, 35, 0⟩
def EGY_RESC_INDEX : Fld := ⟨R.EGY_RESC, 5, 0⟩
def EGY_RESST_EXPIRED : Fld := ⟨R.EGY_RESST, 23, 16⟩
def EGY_RESST_USED : Fld := ⟨R.EGY_RESST, 14, 8⟩
def EGY_RESST_OK : Fld := ⟨R.EGY_RESST, 6, 6⟩
def EGY_RESST_INDEX : Fld := ⟨R.EGY_RESST, 5, 0⟩
def MON_CTL_REPLAN : Fld := ⟨R.MON_CTL, 1, 1⟩
def MON_CTL_EN : Fld := ⟨R.MON_CTL, 0, 0⟩
def MON_STAT_LIFEALM : Fld := ⟨R.MON_STAT, 14, 14⟩
def MON_STAT_PLANNING : Fld := ⟨R.MON_STAT, 13, 13⟩
def MON_STAT_LIM : Fld := ⟨R.MON_STAT, 12, 9⟩
def MON_STAT_ACTIVE : Fld := ⟨R.MON_STAT, 8, 8⟩
def MON_STAT_REASON : Fld := ⟨R.MON_STAT, 7, 0⟩
def MON_CELL_RBS0 : Fld := ⟨R.MON_CELL, 23, 12⟩
def MON_CELL_RBS : Fld := ⟨R.MON_CELL, 11, 0⟩
def MON_RING_FABRIC : Fld := ⟨R.MON_RING, 31, 24⟩
def MON_RING_BADGER : Fld := ⟨R.MON_RING, 23, 16⟩
def MON_RING_FOXB : Fld := ⟨R.MON_RING, 15, 8⟩
def MON_RING_FOXA : Fld := ⟨R.MON_RING, 7, 0⟩
def MON_XTAL_LFMESH : Fld := ⟨R.MON_XTAL, 23, 12⟩
def MON_XTAL_HFLF : Fld := ⟨R.MON_XTAL, 11, 0⟩
def MON_FLASH_MAXP : Fld := ⟨R.MON_FLASH, 15, 8⟩
def MON_FLASH_MEAN16 : Fld := ⟨R.MON_FLASH, 7, 0⟩
def MON_PLAN0_HEADROOM : Fld := ⟨R.MON_PLAN0, 35, 24⟩
def MON_PLAN0_GUARD : Fld := ⟨R.MON_PLAN0, 23, 12⟩
def MON_PLAN0_CORE : Fld := ⟨R.MON_PLAN0, 11, 0⟩
def MON_PLAN1_LIFE : Fld := ⟨R.MON_PLAN1, 23, 12⟩
def MON_PLAN1_PULSES : Fld := ⟨R.MON_PLAN1, 11, 0⟩
def MON_LAST_STB : Fld := ⟨R.MON_LAST, 35, 0⟩
def SYN_CTL_EN : Fld := ⟨R.SYN_CTL, 0, 0⟩
def SYN_STAT_TCAL : Fld := ⟨R.SYN_STAT, 24, 16⟩
def SYN_STAT_CALVALID : Fld := ⟨R.SYN_STAT, 14, 14⟩
def SYN_STAT_CALPEND : Fld := ⟨R.SYN_STAT, 13, 13⟩
def SYN_STAT_CALRUN : Fld := ⟨R.SYN_STAT, 12, 12⟩
def SYN_STAT_LOCK : Fld := ⟨R.SYN_STAT, 11, 11⟩
def SYN_STAT_ACTIVE : Fld := ⟨R.SYN_STAT, 8, 8⟩
def SYN_STAT_REASON : Fld := ⟨R.SYN_STAT, 7, 0⟩
def SYN_CFG_DELTA : Fld := ⟨R.SYN_CFG, 4, 0⟩
def SYN_CMD_CAL : Fld := ⟨R.SYN_CMD, 0, 0⟩
def SYN_FREQ_FREQ : Fld := ⟨R.SYN_FREQ, 29, 0⟩
def RFE_CTL_EN : Fld := ⟨R.RFE_CTL, 0, 0⟩
def RFE_STAT_MASKOK : Fld := ⟨R.RFE_STAT, 27, 24⟩
def RFE_STAT_LASTPWR : Fld := ⟨R.RFE_STAT, 21, 16⟩
def RFE_STAT_PROF : Fld := ⟨R.RFE_STAT, 14, 12⟩
def RFE_STAT_STATE : Fld := ⟨R.RFE_STAT, 11, 9⟩
def RFE_STAT_ACTIVE : Fld := ⟨R.RFE_STAT, 8, 8⟩
def RFE_STAT_REASON : Fld := ⟨R.RFE_STAT, 7, 0⟩
def RFE_CFG_OWNER : Fld := ⟨R.RFE_CFG, 25, 24⟩
def RFE_CFG_BGEN : Fld := ⟨R.RFE_CFG, 23, 20⟩
def RFE_CFG_TXENLEAD : Fld := ⟨R.RFE_CFG, 19, 16⟩
def RFE_CFG_RAMP : Fld := ⟨R.RFE_CFG, 14, 12⟩
def RFE_CFG_BGINT : Fld := ⟨R.RFE_CFG, 11, 0⟩
def RFE_CMD_BGCAL : Fld := ⟨R.RFE_CMD, 0, 0⟩
def RFE_AGC_HI : Fld := ⟨R.RFE_AGC, 5, 0⟩
def RFE_RSSI_VALID : Fld := ⟨R.RFE_RSSI, 10, 10⟩
def RFE_RSSI_RSSI : Fld := ⟨R.RFE_RSSI, 9, 0⟩
def RFE_MASK_VALID (p : Nat) : Fld := ⟨R.RFE_MASK p, 35, 35⟩
def RFE_MASK_OFFSET (p : Nat) : Fld := ⟨R.RFE_MASK p, 23, 12⟩
def RFE_MASK_LIMIT (p : Nat) : Fld := ⟨R.RFE_MASK p, 11, 0⟩
def CX_CTL_EN : Fld := ⟨R.CX_CTL, 0, 0⟩
def CX_STAT_GNT : Fld := ⟨R.CX_STAT, 13, 13⟩
def CX_STAT_REQ : Fld := ⟨R.CX_STAT, 12, 12⟩
def CX_STAT_PRI : Fld := ⟨R.CX_STAT, 11, 11⟩
def CX_STAT_ACTIVE : Fld := ⟨R.CX_STAT, 8, 8⟩
def CX_STAT_REASON : Fld := ⟨R.CX_STAT, 7, 0⟩
def CX_CFG_LOSSPOL : Fld := ⟨R.CX_CFG, 21, 21⟩
def CX_CFG_RXPOL : Fld := ⟨R.CX_CFG, 20, 20⟩
def CX_CFG_TXPOL : Fld := ⟨R.CX_CFG, 18, 18⟩
def CX_CFG_PRISRC : Fld := ⟨R.CX_CFG, 17, 16⟩
def CX_CFG_LEAD : Fld := ⟨R.CX_CFG, 15, 8⟩
def CX_CFG_ROLE : Fld := ⟨R.CX_CFG, 1, 0⟩
def CX_ARBCUR_TABLE : Fld := ⟨R.CX_ARBCUR, 3, 0⟩
def CX_ARBNXT_TABLE : Fld := ⟨R.CX_ARBNXT, 3, 0⟩
def CX_CNT_COUNT : Fld := ⟨R.CX_CNT, 15, 0⟩
def MDM_CTL_EN : Fld := ⟨R.MDM_CTL, 0, 0⟩
def MDM_STAT_LIVE : Fld := ⟨R.MDM_STAT, 11, 9⟩
def MDM_STAT_ACTIVE : Fld := ⟨R.MDM_STAT, 8, 8⟩
def MDM_STAT_REASON : Fld := ⟨R.MDM_STAT, 7, 0⟩
def MDM_LS_SYNC (m : Nat) : Fld := ⟨R.MDM_LS m, 35, 28⟩
def MDM_LS_NPRE (m : Nat) : Fld := ⟨R.MDM_LS m, 27, 12⟩
def MDM_LS_CR (m : Nat) : Fld := ⟨R.MDM_LS m, 10, 10⟩
def MDM_LS_BWK (m : Nat) : Fld := ⟨R.MDM_LS m, 9, 7⟩
def MDM_LS_SWF (m : Nat) : Fld := ⟨R.MDM_LS m, 6, 3⟩
def MDM_LSCFG_KEEPBAD : Fld := ⟨R.MDM_LSCFG, 0, 0⟩
def MDM_LSCNT_SYNCMIS : Fld := ⟨R.MDM_LSCNT, 35, 24⟩
def MDM_LSCNT_HDRFAIL : Fld := ⟨R.MDM_LSCNT, 23, 12⟩
def MDM_LSCNT_CRCFAIL : Fld := ⟨R.MDM_LSCNT, 11, 0⟩
def MDM_LSLAST_LEN : Fld := ⟨R.MDM_LSLAST, 23, 16⟩
def MDM_LSLAST_CR : Fld := ⟨R.MDM_LSLAST, 15, 15⟩
def MDM_LSLAST_FOFF : Fld := ⟨R.MDM_LSLAST, 11, 0⟩
def MDM_CM_NSEL (m : Nat) : Fld := ⟨R.MDM_CM m, 11, 10⟩
def MDM_CM_BWSEL (m : Nat) : Fld := ⟨R.MDM_CM m, 9, 8⟩
def MDM_CM_CP (m : Nat) : Fld := ⟨R.MDM_CM m, 6, 6⟩
def MDM_CM_MOD (m : Nat) : Fld := ⟨R.MDM_CM m, 5, 4⟩
def MDM_CM_CR (m : Nat) : Fld := ⟨R.MDM_CM m, 3, 2⟩
def MDM_CMCFG_KEEPBAD : Fld := ⟨R.MDM_CMCFG, 0, 0⟩
def MDM_CMCNT_TRAINFAIL : Fld := ⟨R.MDM_CMCNT, 35, 24⟩
def MDM_CMCNT_HDRFAIL : Fld := ⟨R.MDM_CMCNT, 23, 12⟩
def MDM_CMCNT_PAYFAIL : Fld := ⟨R.MDM_CMCNT, 11, 0⟩
def MDM_CMLAST_LEN : Fld := ⟨R.MDM_CMLAST, 26, 16⟩
def MDM_CMLAST_MOD : Fld := ⟨R.MDM_CMLAST, 15, 14⟩
def MDM_CMLAST_CR : Fld := ⟨R.MDM_CMLAST, 13, 12⟩
def MDM_CMLAST_FOFF : Fld := ⟨R.MDM_CMLAST, 11, 0⟩
def MDM_FK_NPRE (m : Nat) : Fld := ⟨R.MDM_FK m, 35, 26⟩
def MDM_FK_SFDSEL (m : Nat) : Fld := ⟨R.MDM_FK m, 20, 20⟩
def MDM_FK_FCS2 (m : Nat) : Fld := ⟨R.MDM_FK m, 19, 19⟩
def MDM_FK_DW (m : Nat) : Fld := ⟨R.MDM_FK m, 18, 18⟩
def MDM_FK_ILV (m : Nat) : Fld := ⟨R.MDM_FK m, 17, 17⟩
def MDM_FK_FEC (m : Nat) : Fld := ⟨R.MDM_FK m, 16, 15⟩
def MDM_FK_H (m : Nat) : Fld := ⟨R.MDM_FK m, 14, 14⟩
def MDM_FK_RATE (m : Nat) : Fld := ⟨R.MDM_FK m, 13, 12⟩
def MDM_FKCFG_KEEPBAD : Fld := ⟨R.MDM_FKCFG, 0, 0⟩
def MDM_FKCNT_SYNCMIS : Fld := ⟨R.MDM_FKCNT, 35, 24⟩
def MDM_FKCNT_HDRFAIL : Fld := ⟨R.MDM_FKCNT, 23, 12⟩
def MDM_FKCNT_PAYFAIL : Fld := ⟨R.MDM_FKCNT, 11, 0⟩
def MDM_FKLAST_FLEN : Fld := ⟨R.MDM_FKLAST, 26, 16⟩
def MDM_FKLAST_FCST : Fld := ⟨R.MDM_FKLAST, 15, 15⟩
def MDM_FKLAST_DW : Fld := ⟨R.MDM_FKLAST, 14, 14⟩
def MDM_FKLAST_FOFF : Fld := ⟨R.MDM_FKLAST, 11, 0⟩
def LNK_CTL_EN : Fld := ⟨R.LNK_CTL, 0, 0⟩
def LNK_STAT_SYNCED : Fld := ⟨R.LNK_STAT, 15, 15⟩
def LNK_STAT_CLS : Fld := ⟨R.LNK_STAT, 14, 12⟩
def LNK_STAT_LIVE : Fld := ⟨R.LNK_STAT, 11, 9⟩
def LNK_STAT_ACTIVE : Fld := ⟨R.LNK_STAT, 8, 8⟩
def LNK_STAT_REASON : Fld := ⟨R.LNK_STAT, 7, 0⟩
def LNK_CFG_SRMODE : Fld := ⟨R.LNK_CFG, 35, 34⟩
def LNK_CFG_ACKUNK : Fld := ⟨R.LNK_CFG, 33, 33⟩
def LNK_CFG_BCONLY : Fld := ⟨R.LNK_CFG, 32, 32⟩
def LNK_CFG_ACKLEN : Fld := ⟨R.LNK_CFG, 23, 16⟩
def LNK_CFG_WAKELEAD : Fld := ⟨R.LNK_CFG, 13, 0⟩
def LNK_BOOK_BOOKMAX : Fld := ⟨R.LNK_BOOK, 25, 19⟩
def LNK_BOOK_BOOKAHEAD : Fld := ⟨R.LNK_BOOK, 18, 0⟩
def LNK_MESHID_MESHID : Fld := ⟨R.LNK_MESHID, 23, 0⟩
def LNK_SADDR_SADDR : Fld := ⟨R.LNK_SADDR, 13, 0⟩
def LNK_SYNC_MAXCORR : Fld := ⟨R.LNK_SYNC, 35, 20⟩
def LNK_SYNC_DESYNC : Fld := ⟨R.LNK_SYNC, 19, 0⟩
def LNK_TOFF_TOFF : Fld := ⟨R.LNK_TOFF, 23, 0⟩
def LNK_TADJ_ADJ : Fld := ⟨R.LNK_TADJ, 15, 0⟩
def LNK_EVT_DESYNC : Fld := ⟨R.LNK_EVT, 5, 5⟩
def LNK_EVT_GCLAMP : Fld := ⟨R.LNK_EVT, 4, 4⟩
def LNK_EVT_CORRREJ : Fld := ⟨R.LNK_EVT, 3, 3⟩
def LNK_EVT_OVERLAP : Fld := ⟨R.LNK_EVT, 2, 2⟩
def LNK_EVT_BOOKFAIL : Fld := ⟨R.LNK_EVT, 1, 1⟩
def LNK_EVT_SRLOST : Fld := ⟨R.LNK_EVT, 0, 0⟩
def LNK_CNT_FILTERED : Fld := ⟨R.LNK_CNT, 35, 24⟩
def LNK_CNT_NOACK : Fld := ⟨R.LNK_CNT, 23, 12⟩
def LNK_CNT_LATE : Fld := ⟨R.LNK_CNT, 11, 0⟩
def LNK_SEED_SEED : Fld := ⟨R.LNK_SEED, 15, 0⟩
def LNK_HOPCFG_HOPLEN : Fld := ⟨R.LNK_HOPCFG, 6, 0⟩
def LNK_CLS_T0_LEN (c : Nat) : Fld := ⟨R.LNK_CLS_T0 c, 35, 20⟩
def LNK_CLS_T0_TXOFF (c : Nat) : Fld := ⟨R.LNK_CLS_T0 c, 19, 0⟩
def LNK_CLS_T1_LOCKLEAD (c : Nat) : Fld := ⟨R.LNK_CLS_T1 c, 35, 24⟩
def LNK_CLS_T1_TXLATE (c : Nat) : Fld := ⟨R.LNK_CLS_T1 c, 23, 12⟩
def LNK_CLS_T1_ACKGUARD (c : Nat) : Fld := ⟨R.LNK_CLS_T1 c, 11, 0⟩
def LNK_CLS_T2_TACK (c : Nat) : Fld := ⟨R.LNK_CLS_T2 c, 19, 0⟩
def LNK_CLS_START_START (c : Nat) : Fld := ⟨R.LNK_CLS_START c, 35, 0⟩
def LNK_SF_SFEN (f : Nat) : Fld := ⟨R.LNK_SF f, 15, 15⟩
def LNK_SF_HOPEN (f : Nat) : Fld := ⟨R.LNK_SF f, 14, 14⟩
def LNK_SF_CLASS (f : Nat) : Fld := ⟨R.LNK_SF f, 13, 12⟩
def LNK_SF_SIZE (f : Nat) : Fld := ⟨R.LNK_SF f, 11, 0⟩
def LNK_BO_MAXBE (q : Nat) : Fld := ⟨R.LNK_BO q, 19, 17⟩
def LNK_BO_MINBE (q : Nat) : Fld := ⟨R.LNK_BO q, 16, 14⟩
def LNK_BO_BE (q : Nat) : Fld := ⟨R.LNK_BO q, 13, 11⟩
def LNK_BO_BC (q : Nat) : Fld := ⟨R.LNK_BO q, 6, 0⟩
def LNK_CH_FREQ (k : Nat) : Fld := ⟨R.LNK_CH k, 29, 0⟩
def LNK_HOP_CH (i : Nat) : Fld := ⟨R.LNK_HOP i, 5, 0⟩
def QUE_CTL_EN : Fld := ⟨R.QUE_CTL, 0, 0⟩
def QUE_STAT_ACTIVE : Fld := ⟨R.QUE_STAT, 8, 8⟩
def QUE_STAT_REASON : Fld := ⟨R.QUE_STAT, 7, 0⟩
def QUE_RING_SIZE (q : Nat) : Fld := ⟨R.QUE_RING q, 35, 24⟩
def QUE_RING_BASE (q : Nat) : Fld := ⟨R.QUE_RING q, 23, 0⟩
def QUE_BUF_BUFSZ (q : Nat) : Fld := ⟨R.QUE_BUF q, 35, 24⟩
def QUE_BUF_BUFBASE (q : Nat) : Fld := ⟨R.QUE_BUF q, 23, 0⟩
def QUE_CFG_OWNER (q : Nat) : Fld := ⟨R.QUE_CFG q, 35, 34⟩
def QUE_CFG_PEER (q : Nat) : Fld := ⟨R.QUE_CFG q, 33, 32⟩
def QUE_CFG_KIND (q : Nat) : Fld := ⟨R.QUE_CFG q, 31, 29⟩
def QUE_CFG_ESZ (q : Nat) : Fld := ⟨R.QUE_CFG q, 28, 25⟩
def QUE_CFG_ON (q : Nat) : Fld := ⟨R.QUE_CFG q, 24, 24⟩
def QUE_HEAD_HEAD (q : Nat) : Fld := ⟨R.QUE_HEAD q, 11, 0⟩
def QUE_QSTAT_OVF (q : Nat) : Fld := ⟨R.QUE_QSTAT q, 35, 24⟩
def QUE_QSTAT_COUNT (q : Nat) : Fld := ⟨R.QUE_QSTAT q, 23, 12⟩
def QUE_QSTAT_ACTIVE (q : Nat) : Fld := ⟨R.QUE_QSTAT q, 8, 8⟩
def QUE_QSTAT_REASON (q : Nat) : Fld := ⟨R.QUE_QSTAT q, 7, 0⟩
def CPH_CTL_EN : Fld := ⟨R.CPH_CTL, 0, 0⟩
def CPH_STAT_SECCNT : Fld := ⟨R.CPH_STAT, 27, 20⟩
def CPH_STAT_FAULTCNT : Fld := ⟨R.CPH_STAT, 19, 12⟩
def CPH_STAT_ACTIVE : Fld := ⟨R.CPH_STAT, 8, 8⟩
def CPH_STAT_REASON : Fld := ⟨R.CPH_STAT, 7, 0⟩
def KST_CTL_EN : Fld := ⟨R.KST_CTL, 0, 0⟩
def KST_STAT_COMPACT : Fld := ⟨R.KST_STAT, 11, 11⟩
def KST_STAT_WRITING : Fld := ⟨R.KST_STAT, 10, 10⟩
def KST_STAT_ACTIVE : Fld := ⟨R.KST_STAT, 8, 8⟩
def KST_STAT_REASON : Fld := ⟨R.KST_STAT, 7, 0⟩
def KST_SEAL_VALID : Fld := ⟨R.KST_SEAL, 32, 32⟩
def KST_SEAL_SECT : Fld := ⟨R.KST_SEAL, 31, 31⟩
def KST_SEAL_FREE : Fld := ⟨R.KST_SEAL, 30, 24⟩
def KST_SEAL_GEN : Fld := ⟨R.KST_SEAL, 23, 0⟩
def KST_ATTR_ROMONLY (s : Nat) : Fld := ⟨R.KST_ATTR s, 12, 12⟩
def KST_ATTR_FILLED (s : Nat) : Fld := ⟨R.KST_ATTR s, 11, 11⟩
def KST_ATTR_SIZE (s : Nat) : Fld := ⟨R.KST_ATTR s, 10, 9⟩
def KST_ATTR_EXPORT (s : Nat) : Fld := ⟨R.KST_ATTR s, 8, 8⟩
def KST_ATTR_KEK (s : Nat) : Fld := ⟨R.KST_ATTR s, 7, 7⟩
def KST_ATTR_MAC (s : Nat) : Fld := ⟨R.KST_ATTR s, 6, 6⟩
def KST_ATTR_DEC (s : Nat) : Fld := ⟨R.KST_ATTR s, 5, 5⟩
def KST_ATTR_ENC (s : Nat) : Fld := ⟨R.KST_ATTR s, 4, 4⟩
def KST_ATTR_USERS (s : Nat) : Fld := ⟨R.KST_ATTR s, 3, 0⟩
def NFC_CTL_PING : Fld := ⟨R.NFC_CTL, 3, 3⟩
def NFC_CTL_READER : Fld := ⟨R.NFC_CTL, 2, 2⟩
def NFC_CTL_TAG : Fld := ⟨R.NFC_CTL, 1, 1⟩
def NFC_CTL_EN : Fld := ⟨R.NFC_CTL, 0, 0⟩
def NFC_STAT_RDSTATE : Fld := ⟨R.NFC_STAT, 15, 13⟩
def NFC_STAT_FIELDON : Fld := ⟨R.NFC_STAT, 12, 12⟩
def NFC_STAT_EXTFLD : Fld := ⟨R.NFC_STAT, 11, 11⟩
def NFC_STAT_MBUSY : Fld := ⟨R.NFC_STAT, 10, 10⟩
def NFC_STAT_ACTIVE : Fld := ⟨R.NFC_STAT, 8, 8⟩
def NFC_STAT_REASON : Fld := ⟨R.NFC_STAT, 7, 0⟩
def NFC_CFG_OWNER : Fld := ⟨R.NFC_CFG, 35, 34⟩
def NFC_CFG_QUEUE : Fld := ⟨R.NFC_CFG, 33, 29⟩
def NFC_CFG_RETRY : Fld := ⟨R.NFC_CFG, 28, 27⟩
def NFC_CFG_WUPA : Fld := ⟨R.NFC_CFG, 26, 26⟩
def NFC_CFG_MODE : Fld := ⟨R.NFC_CFG, 25, 25⟩
def NFC_CFG_RNDUID : Fld := ⟨R.NFC_CFG, 24, 24⟩
def NFC_CFG_SESSION : Fld := ⟨R.NFC_CFG, 9, 0⟩
def NFC_PING_AUTOPOLL : Fld := ⟨R.NFC_PING, 30, 30⟩
def NFC_PING_PTHR : Fld := ⟨R.NFC_PING, 29, 20⟩
def NFC_PING_ATHR : Fld := ⟨R.NFC_PING, 19, 11⟩
def NFC_PING_INTERVAL : Fld := ⟨R.NFC_PING, 10, 0⟩
def NFC_BASE_PHASE : Fld := ⟨R.NFC_BASE, 23, 12⟩
def NFC_BASE_AMP : Fld := ⟨R.NFC_BASE, 11, 0⟩
def NFC_PMEAS_PHASE : Fld := ⟨R.NFC_PMEAS, 23, 12⟩
def NFC_PMEAS_AMP : Fld := ⟨R.NFC_PMEAS, 11, 0⟩
def NFC_CMD_XCHG : Fld := ⟨R.NFC_CMD, 3, 3⟩
def NFC_CMD_DESEL : Fld := ⟨R.NFC_CMD, 2, 2⟩
def NFC_CMD_FIELDOFF : Fld := ⟨R.NFC_CMD, 1, 1⟩
def NFC_CMD_POLL : Fld := ⟨R.NFC_CMD, 0, 0⟩
def NFC_RDX_LEN : Fld := ⟨R.NFC_RDX, 34, 26⟩
def NFC_RDX_BUF : Fld := ⟨R.NFC_RDX, 25, 0⟩
def NFC_COLL_CL : Fld := ⟨R.NFC_COLL, 13, 12⟩
def NFC_COLL_BCCCOL : Fld := ⟨R.NFC_COLL, 11, 11⟩
def NFC_COLL_POS : Fld := ⟨R.NFC_COLL, 5, 0⟩
def NFC_NDEF_WRITE : Fld := ⟨R.NFC_NDEF, 35, 35⟩
def NFC_NDEF_SIZEW : Fld := ⟨R.NFC_NDEF, 34, 24⟩
def NFC_NDEF_BASE : Fld := ⟨R.NFC_NDEF, 23, 0⟩
def NFC_MBOX_FREE : Fld := ⟨R.NFC_MBOX, 24, 16⟩
def NFC_MBOX_LASTSEQ : Fld := ⟨R.NFC_MBOX, 15, 0⟩
def NFC_FIELD_VNFC : Fld := ⟨R.NFC_FIELD, 11, 0⟩
def NFC_CNT_DETECT : Fld := ⟨R.NFC_CNT, 35, 24⟩
def NFC_CNT_FALSEDET : Fld := ⟨R.NFC_CNT, 23, 12⟩
def NFC_CNT_MUTE : Fld := ⟨R.NFC_CNT, 11, 0⟩
def STB_CTL_EN : Fld := ⟨R.STB_CTL, 0, 0⟩
def STB_STAT_ACTIVE : Fld := ⟨R.STB_STAT, 8, 8⟩
def STB_STAT_REASON : Fld := ⟨R.STB_STAT, 7, 0⟩
def STB_FINE_TICK : Fld := ⟨R.STB_FINE, 35, 12⟩
def STB_FINE_FV : Fld := ⟨R.STB_FINE, 11, 11⟩
def STB_FINE_FINE : Fld := ⟨R.STB_FINE, 10, 0⟩
def TMR_CTL_EN : Fld := ⟨R.TMR_CTL, 0, 0⟩
def TMR_STAT_ACTIVE : Fld := ⟨R.TMR_STAT, 8, 8⟩
def TMR_STAT_REASON : Fld := ⟨R.TMR_STAT, 7, 0⟩
def RTC_CTL_EN : Fld := ⟨R.RTC_CTL, 0, 0⟩
def RTC_STAT_LFRC : Fld := ⟨R.RTC_STAT, 11, 11⟩
def RTC_STAT_ALMF : Fld := ⟨R.RTC_STAT, 10, 10⟩
def RTC_STAT_OSF : Fld := ⟨R.RTC_STAT, 9, 9⟩
def RTC_STAT_ACTIVE : Fld := ⟨R.RTC_STAT, 8, 8⟩
def RTC_STAT_REASON : Fld := ⟨R.RTC_STAT, 7, 0⟩
def RTC_SEC_SEC : Fld := ⟨R.RTC_SEC, 35, 0⟩
def RTC_SUB_SUB : Fld := ⟨R.RTC_SUB, 14, 0⟩
def RTC_TRIM_TRIM : Fld := ⟨R.RTC_TRIM, 9, 0⟩
def RTC_ALARM_ALARM : Fld := ⟨R.RTC_ALARM, 35, 0⟩
def RTC_CFG_ALMEN : Fld := ⟨R.RTC_CFG, 5, 5⟩
def RTC_CFG_SQWEN : Fld := ⟨R.RTC_CFG, 4, 4⟩
def RTC_CFG_SQWK : Fld := ⟨R.RTC_CFG, 3, 0⟩
def WDT_CTL_DBGPAUSE : Fld := ⟨R.WDT_CTL, 1, 1⟩
def WDT_CTL_EN : Fld := ⟨R.WDT_CTL, 0, 0⟩
def WDT_STAT_WARNF : Fld := ⟨R.WDT_STAT, 10, 10⟩
def WDT_STAT_PAUSED : Fld := ⟨R.WDT_STAT, 9, 9⟩
def WDT_STAT_ACTIVE : Fld := ⟨R.WDT_STAT, 8, 8⟩
def WDT_STAT_REASON : Fld := ⟨R.WDT_STAT, 7, 0⟩
def WDT_CFG_WARN : Fld := ⟨R.WDT_CFG, 30, 30⟩
def WDT_CFG_WINDOW : Fld := ⟨R.WDT_CFG, 29, 27⟩
def WDT_CFG_TIMEOUT : Fld := ⟨R.WDT_CFG, 26, 0⟩
def WDT_KICK_KEY : Fld := ⟨R.WDT_KICK, 11, 0⟩
def WDT_COUNT_ELAPSED : Fld := ⟨R.WDT_COUNT, 26, 0⟩
def WDT_CAUSE_DEFER : Fld := ⟨R.WDT_CAUSE, 9, 9⟩
def WDT_CAUSE_VALID : Fld := ⟨R.WDT_CAUSE, 8, 8⟩
def WDT_CAUSE_CAUSE : Fld := ⟨R.WDT_CAUSE, 7, 0⟩
def ICU_CTL_EN : Fld := ⟨R.ICU_CTL, 0, 0⟩
def ICU_STAT_ACTIVE : Fld := ⟨R.ICU_STAT, 8, 8⟩
def ICU_STAT_REASON : Fld := ⟨R.ICU_STAT, 7, 0⟩
def ICU_SWSET_SW : Fld := ⟨R.ICU_SWSET, 3, 0⟩
def ICU_SRC_BY (n : Nat) : Fld := ⟨R.ICU_SRC n, 11, 10⟩
def ICU_SRC_STATE (n : Nat) : Fld := ⟨R.ICU_SRC n, 9, 8⟩
def ICU_SRC_TMASK (n : Nat) : Fld := ⟨R.ICU_SRC n, 7, 4⟩
def ICU_SRC_TRIG (n : Nat) : Fld := ⟨R.ICU_SRC n, 3, 3⟩
def ICU_SRC_PRIO (n : Nat) : Fld := ⟨R.ICU_SRC n, 2, 0⟩
def EVR_CTL_EN : Fld := ⟨R.EVR_CTL, 0, 0⟩
def EVR_STAT_LOSTCNT : Fld := ⟨R.EVR_STAT, 19, 12⟩
def EVR_STAT_ACTIVE : Fld := ⟨R.EVR_STAT, 8, 8⟩
def EVR_STAT_REASON : Fld := ⟨R.EVR_STAT, 7, 0⟩
def EVR_FLAG0_FLAG : Fld := ⟨R.EVR_FLAG0, 35, 0⟩
def EVR_FLAG1_FLAG : Fld := ⟨R.EVR_FLAG1, 3, 0⟩
def EVR_CLEAR_HOST : Fld := ⟨R.EVR_CLEAR, 3, 3⟩
def EVR_CLEAR_AGENT : Fld := ⟨R.EVR_CLEAR, 2, 0⟩
def EVR_QCFG_QUEUE : Fld := ⟨R.EVR_QCFG, 4, 0⟩
def EVR_SWPUB_CH : Fld := ⟨R.EVR_SWPUB, 5, 0⟩
def EVR_CH_OWNER (c : Nat) : Fld := ⟨R.EVR_CH c, 35, 34⟩
def EVR_CH_ATTR (c : Nat) : Fld := ⟨R.EVR_CH c, 33, 33⟩
def EVR_CH_STQ (c : Nat) : Fld := ⟨R.EVR_CH c, 32, 32⟩
def EVR_CH_GINV (c : Nat) : Fld := ⟨R.EVR_CH c, 23, 23⟩
def EVR_CH_GSEL (c : Nat) : Fld := ⟨R.EVR_CH c, 22, 16⟩
def EVR_CH_PUB (c : Nat) : Fld := ⟨R.EVR_CH c, 6, 0⟩
def EVR_TSUB_OWNER (t : Nat) : Fld := ⟨R.EVR_TSUB t, 35, 34⟩
def EVR_TSUB_ENB (t : Nat) : Fld := ⟨R.EVR_TSUB t, 13, 13⟩
def EVR_TSUB_CHB (t : Nat) : Fld := ⟨R.EVR_TSUB t, 12, 7⟩
def EVR_TSUB_ENA (t : Nat) : Fld := ⟨R.EVR_TSUB t, 6, 6⟩
def EVR_TSUB_CHA (t : Nat) : Fld := ⟨R.EVR_TSUB t, 5, 0⟩
def EVR_TSTAT_DROP (t : Nat) : Fld := ⟨R.EVR_TSTAT t, 17, 17⟩
def EVR_TSTAT_COIN (t : Nat) : Fld := ⟨R.EVR_TSTAT t, 16, 16⟩
def EVR_TSTAT_COINCNT (t : Nat) : Fld := ⟨R.EVR_TSTAT t, 7, 0⟩
def PMU_RET_DATA (n : Nat) : Fld := ⟨R.PMU_RET n, 35, 0⟩
def FLC_CTL_SQEN : Fld := ⟨R.FLC_CTL, 1, 1⟩
def FLC_CTL_EN : Fld := ⟨R.FLC_CTL, 0, 0⟩
def FLC_STAT_FAILS : Fld := ⟨R.FLC_STAT, 24, 21⟩
def FLC_STAT_LOCKOUT : Fld := ⟨R.FLC_STAT, 20, 20⟩
def FLC_STAT_UNLOCKED : Fld := ⟨R.FLC_STAT, 19, 19⟩
def FLC_STAT_INTR : Fld := ⟨R.FLC_STAT, 18, 18⟩
def FLC_STAT_BUSYB : Fld := ⟨R.FLC_STAT, 17, 17⟩
def FLC_STAT_BUSYA : Fld := ⟨R.FLC_STAT, 16, 16⟩
def FLC_STAT_PENDING : Fld := ⟨R.FLC_STAT, 15, 15⟩
def FLC_STAT_FAIL : Fld := ⟨R.FLC_STAT, 14, 14⟩
def FLC_STAT_BUSYRD : Fld := ⟨R.FLC_STAT, 13, 13⟩
def FLC_STAT_DONE : Fld := ⟨R.FLC_STAT, 12, 12⟩
def FLC_STAT_ACTIVE : Fld := ⟨R.FLC_STAT, 8, 8⟩
def FLC_STAT_REASON : Fld := ⟨R.FLC_STAT, 7, 0⟩
def FLC_CMD_OP : Fld := ⟨R.FLC_CMD, 35, 32⟩
def FLC_CMD_ADDR : Fld := ⟨R.FLC_CMD, 23, 0⟩
def FLC_DATA_DATA : Fld := ⟨R.FLC_DATA, 35, 0⟩
def FLC_RES_PULSES : Fld := ⟨R.FLC_RES, 32, 28⟩
def FLC_RES_OP : Fld := ⟨R.FLC_RES, 27, 24⟩
def FLC_RES_ADDR : Fld := ⟨R.FLC_RES, 23, 0⟩
def FLC_MAXPULSE_MAXPULSE : Fld := ⟨R.FLC_MAXPULSE, 4, 0⟩
def FLC_PWD0_PWD : Fld := ⟨R.FLC_PWD0, 35, 0⟩
def FLC_INTR_VALID : Fld := ⟨R.FLC_INTR, 35, 35⟩
def FLC_INTR_KIND : Fld := ⟨R.FLC_INTR, 34, 34⟩
def FLC_INTR_ADDR : Fld := ⟨R.FLC_INTR, 23, 0⟩
def FLC_ECC_UNCORR : Fld := ⟨R.FLC_ECC, 35, 35⟩
def FLC_ECC_CORR : Fld := ⟨R.FLC_ECC, 34, 24⟩
def FLC_ECC_ADDR : Fld := ⟨R.FLC_ECC, 23, 0⟩
def FLC_REG_DESC (n : Nat) : Fld := ⟨R.FLC_REG n, 35, 0⟩
def FLC_SQCFG_LVLTHR : Fld := ⟨R.FLC_SQCFG, 17, 8⟩
def FLC_SQCFG_WIN : Fld := ⟨R.FLC_SQCFG, 5, 0⟩
def FLC_SQSTAT_ACTIVE : Fld := ⟨R.FLC_SQSTAT, 23, 23⟩
def FLC_SQSTAT_LEVELDUE : Fld := ⟨R.FLC_SQSTAT, 22, 22⟩
def FLC_SQSTAT_OPEN : Fld := ⟨R.FLC_SQSTAT, 21, 21⟩
def FLC_SQSTAT_OPENL : Fld := ⟨R.FLC_SQSTAT, 20, 15⟩
def FLC_SQSTAT_WORN : Fld := ⟨R.FLC_SQSTAT, 14, 8⟩
def FLC_SQSTAT_SPARES : Fld := ⟨R.FLC_SQSTAT, 6, 0⟩
def FLC_SQWEAR_MAXCNT : Fld := ⟨R.FLC_SQWEAR, 35, 18⟩
def FLC_SQWEAR_MINCNT : Fld := ⟨R.FLC_SQWEAR, 17, 0⟩
def FLC_SQMAP_VALID (L : Nat) : Fld := ⟨R.FLC_SQMAP L, 35, 35⟩
def FLC_SQMAP_BASE (L : Nat) : Fld := ⟨R.FLC_SQMAP L, 23, 0⟩
def OTP_CTL_EN : Fld := ⟨R.OTP_CTL, 0, 0⟩
def OTP_STAT_BUSY : Fld := ⟨R.OTP_STAT, 9, 9⟩
def OTP_STAT_ACTIVE : Fld := ⟨R.OTP_STAT, 8, 8⟩
def OTP_STAT_REASON : Fld := ⟨R.OTP_STAT, 7, 0⟩
def OTP_ADDR_WORD : Fld := ⟨R.OTP_ADDR, 5, 0⟩
def OTP_DATA_BITS : Fld := ⟨R.OTP_DATA, 35, 0⟩
def OTP_CMD_PROG : Fld := ⟨R.OTP_CMD, 0, 0⟩
def HP_ID_PART : Fld := ⟨R.HP_ID, 35, 20⟩
def HP_ID_REV : Fld := ⟨R.HP_ID, 19, 12⟩
def HP_ID_VER : Fld := ⟨R.HP_ID, 11, 8⟩
def HP_HSTAT_FERR : Fld := ⟨R.HP_HSTAT, 17, 17⟩
def HP_HSTAT_FDONE : Fld := ⟨R.HP_HSTAT, 16, 16⟩
def HP_HSTAT_FBUSY : Fld := ⟨R.HP_HSTAT, 15, 15⟩
def HP_HSTAT_POSTCNT : Fld := ⟨R.HP_HSTAT, 14, 10⟩
def HP_HSTAT_WERR : Fld := ⟨R.HP_HSTAT, 9, 9⟩
def HP_HSTAT_DROP : Fld := ⟨R.HP_HSTAT, 8, 8⟩
def HP_HSTAT_REASON : Fld := ⟨R.HP_HSTAT, 7, 0⟩
def HP_FADDR_FIXED : Fld := ⟨R.HP_FADDR, 32, 32⟩
def HP_FADDR_N : Fld := ⟨R.HP_FADDR, 31, 24⟩
def HP_FADDR_ADDR : Fld := ⟨R.HP_FADDR, 23, 0⟩
def HP_CTL_EN : Fld := ⟨R.HP_CTL, 0, 0⟩
def HP_STAT_VER : Fld := ⟨R.HP_STAT, 11, 10⟩
def HP_STAT_ACTIVE : Fld := ⟨R.HP_STAT, 8, 8⟩
def HP_STAT_REASON : Fld := ⟨R.HP_STAT, 7, 0⟩
def HP_CNT_DROPS : Fld := ⟨R.HP_CNT, 35, 24⟩
def HP_CNT_CHKFAIL : Fld := ⟨R.HP_CNT, 23, 12⟩
def HP_CNT_BADCMD : Fld := ⟨R.HP_CNT, 11, 0⟩
def SVC_CTL_EN : Fld := ⟨R.SVC_CTL, 0, 0⟩
def SVC_STAT_HALTED : Fld := ⟨R.SVC_STAT, 14, 12⟩
def SVC_STAT_VER : Fld := ⟨R.SVC_STAT, 11, 10⟩
def SVC_STAT_SESSION : Fld := ⟨R.SVC_STAT, 9, 9⟩
def SVC_STAT_ACTIVE : Fld := ⟨R.SVC_STAT, 8, 8⟩
def SVC_STAT_REASON : Fld := ⟨R.SVC_STAT, 7, 0⟩
def LNK_NBR_VALID (n : Nat) : Fld := ⟨R.LNK_NBR_0 n, 35, 35⟩
def LNK_NBR_TS (n : Nat) : Fld := ⟨R.LNK_NBR_0 n, 34, 34⟩
def LNK_NBR_CLASS (n : Nat) : Fld := ⟨R.LNK_NBR_0 n, 33, 32⟩
def LNK_NBR_VER (n : Nat) : Fld := ⟨R.LNK_NBR_0 n, 31, 30⟩
def LNK_NBR_ADDR (n : Nat) : Fld := ⟨R.LNK_NBR_0 n, 13, 0⟩
def LNK_NBR_DSNV (n : Nat) : Fld := ⟨R.LNK_NBR_1 n, 8, 8⟩
def LNK_NBR_LASTDSN (n : Nat) : Fld := ⟨R.LNK_NBR_1 n, 7, 0⟩
def NFC_BASE_VALID : Fld := ⟨R.NFC_BASE, 35, 35⟩
def NFC_PMEAS_DET : Fld := ⟨R.NFC_PMEAS, 35, 35⟩
def ICU_MOD_THR (t : Nat) : Fld := ⟨R.ICU_MOD t, 11, 8⟩
def ICU_MOD_COAL (t : Nat) : Fld := ⟨R.ICU_MOD t, 7, 0⟩
def TMRN_CTL_EN (n : Nat) : Fld := ⟨R.TMRN_CTL n, 0, 0⟩
def TMRN_STAT_ACTIVE (n : Nat) : Fld := ⟨R.TMRN_STAT n, 8, 8⟩
def TMRN_STAT_REASON (n : Nat) : Fld := ⟨R.TMRN_STAT n, 7, 0⟩
def TMRN_CFG_PRE (n : Nat) : Fld := ⟨R.TMRN_CFG n, 35, 20⟩
def TMRN_CFG_EVSEL (n : Nat) : Fld := ⟨R.TMRN_CFG n, 19, 14⟩
def TMRN_CFG_SRC (n : Nat) : Fld := ⟨R.TMRN_CFG n, 13, 12⟩
def TMRN_CFG_LINK (n : Nat) : Fld := ⟨R.TMRN_CFG n, 11, 11⟩
def TMRN_CFG_WAKEN (n : Nat) : Fld := ⟨R.TMRN_CFG n, 10, 10⟩
def TMRN_CFG_CAPEN (n : Nat) : Fld := ⟨R.TMRN_CFG n, 9, 9⟩
def TMRN_COUNT_COUNT (n : Nat) : Fld := ⟨R.TMRN_COUNT n, 35, 0⟩
def TMRN_CMP0_CMP (n : Nat) : Fld := ⟨R.TMRN_CMP0 n, 35, 0⟩
def TMRN_CMP1_CMP (n : Nat) : Fld := ⟨R.TMRN_CMP1 n, 35, 0⟩
def TMRN_CAPR_CAPR (n : Nat) : Fld := ⟨R.TMRN_CAPR n, 35, 0⟩
def TMRN_CAPF_CAPF (n : Nat) : Fld := ⟨R.TMRN_CAPF n, 35, 0⟩
def TMRN_PW_PW (n : Nat) : Fld := ⟨R.TMRN_PW n, 35, 0⟩
def TMRN_FLAG_OVRF (n : Nat) : Fld := ⟨R.TMRN_FLAG n, 6, 6⟩
def TMRN_FLAG_OVRR (n : Nat) : Fld := ⟨R.TMRN_FLAG n, 5, 5⟩
def TMRN_FLAG_NEWF (n : Nat) : Fld := ⟨R.TMRN_FLAG n, 4, 4⟩
def TMRN_FLAG_NEWR (n : Nat) : Fld := ⟨R.TMRN_FLAG n, 3, 3⟩
def TMRN_FLAG_OVF (n : Nat) : Fld := ⟨R.TMRN_FLAG n, 2, 2⟩
def TMRN_FLAG_MATCH1 (n : Nat) : Fld := ⟨R.TMRN_FLAG n, 1, 1⟩
def TMRN_FLAG_MATCH0 (n : Nat) : Fld := ⟨R.TMRN_FLAG n, 0, 0⟩
def TMRN_ACT_ACTO1 (n : Nat) : Fld := ⟨R.TMRN_ACT n, 7, 6⟩
def TMRN_ACT_ACTM1 (n : Nat) : Fld := ⟨R.TMRN_ACT n, 5, 4⟩
def TMRN_ACT_ACTO0 (n : Nat) : Fld := ⟨R.TMRN_ACT n, 3, 2⟩
def TMRN_ACT_ACTM0 (n : Nat) : Fld := ⟨R.TMRN_ACT n, 1, 0⟩
def CPH_UCMD_NLEN (u : Nat) : Fld := ⟨R.CPH_UCMD u, 24, 21⟩
def CPH_UCMD_TAGLEN (u : Nat) : Fld := ⟨R.CPH_UCMD u, 20, 16⟩
def CPH_UCMD_TSLOT (u : Nat) : Fld := ⟨R.CPH_UCMD u, 15, 12⟩
def CPH_UCMD_KEY (u : Nat) : Fld := ⟨R.CPH_UCMD u, 11, 8⟩
def CPH_UCMD_FMODE (u : Nat) : Fld := ⟨R.CPH_UCMD u, 6, 5⟩
def CPH_UCMD_DIR (u : Nat) : Fld := ⟨R.CPH_UCMD u, 4, 4⟩
def CPH_UCMD_MODE (u : Nat) : Fld := ⟨R.CPH_UCMD u, 3, 0⟩
def CPH_USRC_SRC (u : Nat) : Fld := ⟨R.CPH_USRC u, 25, 0⟩
def CPH_UDST_DST (u : Nat) : Fld := ⟨R.CPH_UDST u, 25, 0⟩
def CPH_ULEN_LEN (u : Nat) : Fld := ⟨R.CPH_ULEN u, 15, 0⟩
def CPH_UAAD_AAD (u : Nat) : Fld := ⟨R.CPH_UAAD u, 25, 0⟩
def CPH_UAADLEN_AADLEN (u : Nat) : Fld := ⟨R.CPH_UAADLEN u, 15, 0⟩
def CPH_UIV_IV (u : Nat) : Fld := ⟨R.CPH_UIV u, 25, 0⟩
def CPH_UTAG_TAG (u : Nat) : Fld := ⟨R.CPH_UTAG u, 25, 0⟩
def CPH_USTAT_DONE (u : Nat) : Fld := ⟨R.CPH_USTAT u, 12, 12⟩
def CPH_USTAT_STATE (u : Nat) : Fld := ⟨R.CPH_USTAT u, 11, 9⟩
def CPH_USTAT_ACTIVE (u : Nat) : Fld := ⟨R.CPH_USTAT u, 8, 8⟩
def CPH_USTAT_REASON (u : Nat) : Fld := ⟨R.CPH_USTAT u, 7, 0⟩
def CPH_UPROG_BLOCKS (u : Nat) : Fld := ⟨R.CPH_UPROG u, 15, 0⟩
def EGY_SWANS_MARKED (n : Nat) : Fld := ⟨R.EGY_SWANS n, 26, 26⟩
def EGY_SWANS_HELD (n : Nat) : Fld := ⟨R.EGY_SWANS n, 25, 25⟩
def EGY_SWANS_PENDING (n : Nat) : Fld := ⟨R.EGY_SWANS n, 24, 24⟩
def EGY_SWANS_ANSWER (n : Nat) : Fld := ⟨R.EGY_SWANS n, 23, 22⟩
def EGY_SWANS_POWER (n : Nat) : Fld := ⟨R.EGY_SWANS n, 19, 8⟩
def EGY_SWANS_CAUSE (n : Nat) : Fld := ⟨R.EGY_SWANS n, 7, 0⟩
def TMR_OWN_ASSIGNED (n : Nat) : Fld := ⟨R.TMR_OWN, 3 * n + 2, 3 * n + 2⟩
def TMR_OWN_OWNER (n : Nat) : Fld := ⟨R.TMR_OWN, 3 * n + 1, 3 * n⟩
end F

end Sys2Proof.Machine
end

