-- ==== Sys2Proof/Machine/RegTable.lean ====
section
/-!
DEFINITION. Reset values and access of every register (the tables of the chapters, R10, R11): which
bits a write stores, clears by one, or sets; which a read clears; which may change only while their
block is off (R17); which a section of the structure stream sets and a lock bit freezes (R66).
-/
namespace Sys2Proof.Machine

/-- `count` registers at `base`, `base + stride`, …  The masks are those of the access column. -/
structure RegRow where
  base : Nat
  count : Nat := 1
  stride : Nat := 1
  /-- RW bits. -/
  rw : Nat := 0
  /-- W1C bits. -/
  w1c : Nat := 0
  /-- SET bits. -/
  set : Nat := 0
  /-- RC bits. -/
  rc : Nat := 0
  /-- Bits settable only while the block is off (R17). -/
  off : Nat := 0
  /-- Stream-set bits and the section that sets them (R66). -/
  smask : Nat := 0
  sec : Nat := 0
  /-- The reset value, where it is one for all of them. -/
  reset : Nat := 0
deriving DecidableEq, Repr

/-- The index of `a` in the row, if it is one of its registers. -/
def RegRow.index (r : RegRow) (a : Nat) : Option Nat :=
  if r.base ≤ a ∧ (a - r.base) % r.stride = 0 ∧ (a - r.base) / r.stride < r.count then
    some ((a - r.base) / r.stride)
  else none

/-- All 36 bits. -/
def fullMask : Nat := 0xFFFFFFFFF

def rowsSsm : List RegRow :=
  [{ base := R.SSM_CTL, reset := 1 }, { base := R.SSM_STAT, reset := 0x100 }, { base := R.SSM_BOOT },
   { base := R.SSM_CRC }, { base := R.SSM_LOCK, set := 0x3FFE }]

def rowsClk : List RegRow :=
  [{ base := R.CLK_CTL, reset := 1 }, { base := R.CLK_STAT, reset := 0x100 }, { base := R.CLK_RUN, reset := 0x746 },
   { base := R.CLK_FOX, rw := 0xFF, smask := 0xFF, sec := 1, reset := 1 }]

def rowsPin : List RegRow :=
  [{ base := R.PIN_CTL, reset := 1 }, { base := R.PIN_STAT, reset := 0x100 }, { base := R.PIN_IN },
   { base := R.PIN_OUT, rw := 0xFFFFFF }, { base := R.PIN_OUTSET }, { base := R.PIN_OUTCLR }, { base := R.PIN_OUTTGL },
   { base := R.PIN_DIR, rw := 0xFFFFFF }, { base := R.PIN_WAKE, w1c := 0x1FFFFFF },
   { base := R.PIN_MAP 0, count := 24, rw := 0xF03FFFF03, smask := 0xF03FFFF03, sec := 6 }]

def rowsPmu : List RegRow :=
  [{ base := R.PMU_CTL, reset := 1 }, { base := R.PMU_STAT, rc := 0xE00, reset := 0x100 },
   { base := R.PMU_REQ, rw := 0x3FFFF, smask := 0xFFFF, sec := 2, reset := 0x4FFFF }, { base := R.PMU_HOLD },
   { base := R.PMU_CAUSE, w1c := 0xFFFC, reset := 0x100 }, { base := R.PMU_BOD, rw := 7, w1c := 0x18, smask := 7, sec := 2 },
   { base := R.PMU_VCORE, reset := 0x3C001E }, { base := R.PMU_WCLS, rw := 0xFFF0, smask := 0xFFF0, sec := 2, reset := 0xAA60 },
   { base := R.PMU_RET 0, count := 256, rw := fullMask }]

def rowsEgy : List RegRow :=
  [{ base := R.EGY_CTL, reset := 1 }, { base := R.EGY_STAT, reset := 0x100 }, { base := R.EGY_SUPPLY }, { base := R.EGY_CAP },
   { base := R.EGY_LEVEL }, { base := R.EGY_SRC }, { base := R.EGY_RLIM, rw := 0xFFFFFF, smask := 0xFFFFFF, sec := 3, reset := 0xFFF000 },
   { base := R.EGY_CLIM, rw := fullMask, smask := fullMask, sec := 3, reset := 0xFFFFC0000 },
   { base := R.EGY_CFG, rw := 0xFFFFFFFF, smask := 0xFFFFFFFF, sec := 3, reset := 0xC8193C }, { base := R.EGY_CLAIMS },
   { base := R.EGY_LAST }, { base := R.EGY_EARLY }, { base := R.EGY_WDEF },
   { base := R.EGY_DECL 0, count := 13, rw := 0xB0FFF, smask := 0xB0FFF, sec := 3 },
   { base := R.EGY_DECL 13, count := 3, rw := 0xBCFFF, smask := 0xBCFFF, sec := 3 },
   { base := R.EGY_SWCLM 13, count := 3, stride := 4, rw := fullMask }, { base := R.EGY_SWANS 13, count := 3, stride := 4 },
   { base := R.EGY_SWERL 13, count := 3, stride := 4 }, { base := R.EGY_RESS }, { base := R.EGY_RESP }, { base := R.EGY_RESC },
   { base := R.EGY_RESST, rc := 0xFF0000 }, { base := R.EGY_RES0 0, count := 128 }]

def rowsMon : List RegRow :=
  [{ base := R.MON_CTL, reset := 1 }, { base := R.MON_STAT, w1c := 0x1E00, reset := 0x100 }, { base := R.MON_CELL },
   { base := R.MON_RING }, { base := R.MON_XTAL }, { base := R.MON_FLASH }, { base := R.MON_PLAN0, reset := 0x640C803C },
   { base := R.MON_PLAN1, reset := 0xFFF00C }, { base := R.MON_LAST }]

def rowsSyn : List RegRow :=
  [{ base := R.SYN_CTL, rw := 1 }, { base := R.SYN_STAT }, { base := R.SYN_CFG, rw := 0x1F, smask := 0x1F, sec := 12, reset := 8 },
   { base := R.SYN_CMD }, { base := R.SYN_FREQ }]

def rowsRfe : List RegRow :=
  [{ base := R.RFE_CTL, rw := 1 }, { base := R.RFE_STAT }, { base := R.RFE_CFG, rw := 0xFF7FFF, smask := 0xFF7FFF, sec := 12, reset := 0xF2203C },
   { base := R.RFE_CMD }, { base := R.RFE_AGC, rw := 0x3F, smask := 0x3F, sec := 12, reset := 6 }, { base := R.RFE_QUAL },
   { base := R.RFE_RSSI }, { base := R.RFE_PROF_F 0, count := 8, stride := 2, rw := 0x3FFFFFFF },
   { base := R.RFE_PROF_M 0, count := 8, stride := 2, rw := fullMask },
   { base := R.RFE_FIR 0 0, count := 10, rw := fullMask, off := fullMask, smask := fullMask, sec := 12 },
   { base := R.RFE_FIR 0 10, rw := 0xFFFFFF, off := 0xFFFFFF, smask := 0xFFFFFF, sec := 12 },
   { base := R.RFE_FIR 1 0, count := 10, rw := fullMask, off := fullMask, smask := fullMask, sec := 12 },
   { base := R.RFE_FIR 1 10, rw := 0xFFFFFF, off := 0xFFFFFF, smask := 0xFFFFFF, sec := 12 },
   { base := R.RFE_FIR 2 0, count := 10, rw := fullMask, off := fullMask, smask := fullMask, sec := 12 },
   { base := R.RFE_FIR 2 10, rw := 0xFFFFFF, off := 0xFFFFFF, smask := 0xFFFFFF, sec := 12 },
   { base := R.RFE_FIR 3 0, count := 10, rw := fullMask, off := fullMask, smask := fullMask, sec := 12 },
   { base := R.RFE_FIR 3 10, rw := 0xFFFFFF, off := 0xFFFFFF, smask := 0xFFFFFF, sec := 12 },
   { base := R.RFE_MASK 0, count := 16, rw := 0x800FFFFFF, off := 0x800FFFFFF, smask := 0x800FFFFFF, sec := 12 }]

def rowsCx : List RegRow :=
  [{ base := R.CX_CTL, rw := 1 }, { base := R.CX_STAT }, { base := R.CX_CFG, rw := 0x37FF03, off := 0x3FF03, smask := 0x37FF03, sec := 12 },
   { base := R.CX_ARBCUR, reset := 10 }, { base := R.CX_ARBNXT, rw := 15, reset := 10 }, { base := R.CX_CNT, rc := 0xFFFF }]

def rowsMdm : List RegRow :=
  [{ base := R.MDM_CTL, rw := 1 }, { base := R.MDM_STAT }, { base := R.MDM_LS 0, count := 8, rw := 0xFFFFFF7F8 },
   { base := R.MDM_LSCFG, rw := 1 }, { base := R.MDM_LSCNT, rc := fullMask }, { base := R.MDM_LSLAST },
   { base := R.MDM_CM 0, count := 8, rw := 0xF7C }, { base := R.MDM_CMCFG, rw := 1 }, { base := R.MDM_CMCNT, rc := fullMask },
   { base := R.MDM_CMLAST }, { base := R.MDM_FK 0, count := 8, rw := 0xFFC1FF000 }, { base := R.MDM_FKCFG, rw := 1 },
   { base := R.MDM_FKCNT, rc := fullMask }, { base := R.MDM_FKLAST }]

def rowsLnk : List RegRow :=
  [{ base := R.LNK_CTL, rw := 1 }, { base := R.LNK_STAT }, { base := R.LNK_CFG, rw := 0xF00FF3FFF, reset := 0x4000C0064 },
   { base := R.LNK_BOOK, rw := 0x3FFFFFF, reset := 0x802710 }, { base := R.LNK_MESHID, rw := 0xFFFFFF },
   { base := R.LNK_SADDR, rw := 0x3FFF }, { base := R.LNK_SYNC, rw := fullMask, reset := 0x1F4000E10 },
   { base := R.LNK_TOFF }, { base := R.LNK_TADJ }, { base := R.LNK_EVT, w1c := 0x3F }, { base := R.LNK_CNT, rc := fullMask },
   { base := R.LNK_SEED, rw := 0xFFFF, reset := 0xACE1 }, { base := R.LNK_HOPCFG, rw := 0x7F, reset := 1 }, { base := R.LNK_NEXT },
   { base := R.LNK_CLS_T0 0, count := 4, stride := 8, rw := 0xFFFFFFFFF, reset := 0xA007D0 },
   { base := R.LNK_CLS_T1 0, count := 4, stride := 8, rw := fullMask, reset := 0x12C064064 },
   { base := R.LNK_CLS_T2 0, count := 4, stride := 8, rw := 0xFFFFF, reset := 0x3E8 },
   { base := R.LNK_CLS_START 0, count := 4, stride := 8, rw := fullMask },
   { base := R.LNK_CLS_ASNHI 0, count := 4, stride := 8, rw := 0xFFF },
   { base := R.LNK_CLS_ASNLO 0, count := 4, stride := 8, rw := fullMask },
   { base := R.LNK_SF 0, count := 8, rw := 0xFFFF }, { base := R.LNK_BO 8, count := 8, rw := 0xFC000, reset := 0xA4800 },
   { base := R.LNK_CH 0, count := 64, rw := 0x3FFFFFFF }, { base := R.LNK_HOP 0, count := 64, rw := 0x3F },
   { base := R.LNK_NBR_0 0, count := 64, stride := 2, rw := 0xFC0003FFF }, { base := R.LNK_NBR_1 0, count := 64, stride := 2 },
   { base := R.LNK_CELL_0 0, count := 2048, rw := fullMask }]

def rowsQue : List RegRow :=
  [{ base := R.QUE_CTL, reset := 1 }, { base := R.QUE_STAT, reset := 0x100 },
   { base := R.QUE_RING 0, count := 32, stride := 8, rw := fullMask, off := fullMask },
   { base := R.QUE_BUF 0, count := 32, stride := 8, rw := fullMask, off := fullMask },
   { base := R.QUE_CFG 0, count := 32, stride := 8, rw := 0xFFF000000, off := 0xFFE000000 },
   { base := R.QUE_HEAD 0, count := 32, stride := 8, rw := 0xFFF }, { base := R.QUE_TAIL 0, count := 32, stride := 8, rw := 0xFFF },
   { base := R.QUE_QSTAT 0, count := 32, stride := 8, rc := 0xFFF000000 }]

def rowsCph : List RegRow :=
  [{ base := R.CPH_CTL, rw := 1 }, { base := R.CPH_STAT, rc := 0xFFFF000 },
   { base := R.CPH_UCMD 0, count := 4, stride := 0x100, rw := 0x1FFFF7F }, { base := R.CPH_USRC 0, count := 4, stride := 0x100, rw := 0x3FFFFFF },
   { base := R.CPH_UDST 0, count := 4, stride := 0x100, rw := 0x3FFFFFF }, { base := R.CPH_ULEN 0, count := 4, stride := 0x100, rw := 0xFFFF },
   { base := R.CPH_UAAD 0, count := 4, stride := 0x100, rw := 0x3FFFFFF }, { base := R.CPH_UAADLEN 0, count := 4, stride := 0x100, rw := 0xFFFF },
   { base := R.CPH_UIV 0, count := 4, stride := 0x100, rw := 0x3FFFFFF }, { base := R.CPH_UTAG 0, count := 4, stride := 0x100, rw := 0x3FFFFFF },
   { base := R.CPH_UGO 0, count := 4, stride := 0x100 }, { base := R.CPH_USTAT 0, count := 4, stride := 0x100, w1c := 0x1000 },
   { base := R.CPH_UPROG 0, count := 4, stride := 0x100 }]

def rowsKst : List RegRow :=
  [{ base := R.KST_CTL, reset := 1 }, { base := R.KST_STAT, reset := 0x100 }, { base := R.KST_SEAL },
   { base := R.KST_ATTR 0, count := 16 }]

def rowsNfc : List RegRow :=
  [{ base := R.NFC_CTL, rw := 0xF }, { base := R.NFC_STAT }, { base := R.NFC_CFG, rw := 0xFFF0003FF, reset := 0x212000064 },
   { base := R.NFC_PING, rw := 0x7FFFFFFF, reset := 0x4140F1F4 }, { base := R.NFC_BASE }, { base := R.NFC_PMEAS }, { base := R.NFC_CMD },
   { base := R.NFC_RDX, rw := 0x7FFFFFFFF }, { base := R.NFC_COLL }, { base := R.NFC_NDEF, rw := fullMask }, { base := R.NFC_MBOX },
   { base := R.NFC_FIELD }, { base := R.NFC_CNT, rc := fullMask }]

def rowsStb : List RegRow :=
  [{ base := R.STB_CTL, reset := 1 }, { base := R.STB_STAT, reset := 0x100 }, { base := R.STB_LO }, { base := R.STB_HI }, { base := R.STB_FINE }]

def rowsTmr : List RegRow :=
  [{ base := R.TMR_CTL, reset := 1 }, { base := R.TMR_STAT, reset := 0x100 },
   { base := R.TMR_OWN, rw := 0xFFFFFF, smask := 0xFFFFFF, sec := 8 },
   { base := R.TMRN_CTL 0, count := 8, stride := 16, set := 1 }, { base := R.TMRN_STAT 0, count := 8, stride := 16 },
   { base := R.TMRN_CFG 0, count := 8, stride := 16, rw := 0xFFFFFFE00, off := 0xFFFFFFE00, reset := 0x1000 },
   { base := R.TMRN_COUNT 0, count := 8, stride := 16, rw := fullMask, off := fullMask },
   { base := R.TMRN_CMP0 0, count := 8, stride := 16, rw := fullMask }, { base := R.TMRN_CMP1 0, count := 8, stride := 16, rw := fullMask },
   { base := R.TMRN_CAPR 0, count := 8, stride := 16 }, { base := R.TMRN_CAPF 0, count := 8, stride := 16 },
   { base := R.TMRN_PW 0, count := 8, stride := 16 }, { base := R.TMRN_FLAG 0, count := 8, stride := 16, w1c := 0x67 },
   { base := R.TMRN_ACT 0, count := 8, stride := 16, rw := 0xFF }]

def rowsRtc : List RegRow :=
  [{ base := R.RTC_CTL, reset := 1 }, { base := R.RTC_STAT, w1c := 0x600, reset := 0x300 }, { base := R.RTC_SEC, rw := fullMask },
   { base := R.RTC_SUB }, { base := R.RTC_TRIM, rw := 0x3FF }, { base := R.RTC_ALARM, rw := fullMask }, { base := R.RTC_CFG, rw := 0x3F }]

def rowsWdt : List RegRow :=
  [{ base := R.WDT_CTL, rw := 2, set := 1 }, { base := R.WDT_STAT, w1c := 0x400 },
   { base := R.WDT_CFG, rw := 0x7FFFFFFF, smask := 0x7FFFFFFF, sec := 8, reset := 1000 }, { base := R.WDT_KICK }, { base := R.WDT_COUNT },
   { base := R.WDT_CAUSE, w1c := 0x300 }]

def rowsIcu : List RegRow :=
  [{ base := R.ICU_CTL, reset := 1 }, { base := R.ICU_STAT, reset := 0x100 }, { base := R.ICU_PEND 0, count := 3 }, { base := R.ICU_SWSET },
   { base := R.ICU_CLAIM 0, count := 4, stride := 4 }, { base := R.ICU_DONE 0, count := 4, stride := 4 },
   { base := R.ICU_MOD 0, count := 4, stride := 4, rw := 0xFFF, smask := 0xFFF, sec := 10 }, { base := R.ICU_TSTAT 0, count := 4, stride := 4 },
   { base := R.ICU_SRC 1, count := 95, rw := 0xFF, smask := 0xFF, sec := 10 }]

def rowsEvr : List RegRow :=
  [{ base := R.EVR_CTL, reset := 1 }, { base := R.EVR_STAT, rc := 0xFF000, reset := 0x100 }, { base := R.EVR_FLAG0, w1c := fullMask },
   { base := R.EVR_FLAG1, w1c := 15 }, { base := R.EVR_CLEAR, rw := 7, smask := 7, sec := 9, reset := 7 },
   { base := R.EVR_QCFG, rw := 31, smask := 31, sec := 9 }, { base := R.EVR_SWPUB },
   { base := R.EVR_CH 0, count := 40, rw := 0xF00FF007F, smask := 0xF00FF007F, sec := 9 },
   { base := R.EVR_TSUB 0, count := 32, rw := 0x3FFF, smask := 0x3FFF, sec := 9 },
   { base := R.EVR_TSTAT 0, count := 32, w1c := 0x30000, rc := 0xFF }]

def rowsFlc : List RegRow :=
  [{ base := R.FLC_CTL, rw := 2, reset := 1 }, { base := R.FLC_STAT, w1c := 0x7000, reset := 0x100 }, { base := R.FLC_CMD },
   { base := R.FLC_DATA, rw := fullMask }, { base := R.FLC_RES }, { base := R.FLC_MAXPULSE, reset := 12 }, { base := R.FLC_PWD0 },
   { base := R.FLC_PWD1 }, { base := R.FLC_INTR, w1c := 0x800000000 }, { base := R.FLC_ECC, w1c := 0x800000000, rc := 0x7FF000000 },
   { base := R.FLC_REG 0, count := 16, reset := fullMask }, { base := R.FLC_SQCFG, rw := 0x3FF3F, off := 0x3FF3F, reset := 0xA08 },
   { base := R.FLC_SQSTAT }, { base := R.FLC_SQWEAR }, { base := R.FLC_SQMAP 0, count := 60 }]

def rowsOtp : List RegRow :=
  [{ base := R.OTP_CTL, reset := 1 }, { base := R.OTP_STAT, reset := 0x100 }, { base := R.OTP_ADDR, rw := 0x3F },
   { base := R.OTP_DATA, rw := fullMask }, { base := R.OTP_CMD }]

def rowsHp : List RegRow :=
  [{ base := R.HP_CTL, rw := 1 }, { base := R.HP_STAT }, { base := R.HP_CNT, rc := fullMask }]

def rowsSvc : List RegRow :=
  [{ base := R.SVC_CTL, reset := 1 }, { base := R.SVC_STAT, reset := 0x100 }]

def rowsMirror : List RegRow :=
  [{ base := R.HP_ID, reset := 0x364801000 }, { base := R.HP_HSTAT }, { base := R.HP_DBELL }, { base := R.HP_FADDR }]

/-- The rows of block `b`, at 0x300_000 + 0x1_000 b (R503); block 0x100 is the host mirror. -/
def blockRows (b : Nat) : List RegRow :=
  match b with
  | 0 => rowsSsm | 1 => rowsClk | 2 => rowsPin | 3 => rowsPmu | 4 => rowsEgy | 5 => rowsMon
  | 6 => rowsSyn | 7 => rowsRfe | 8 => rowsCx | 9 => rowsMdm | 10 => rowsLnk | 11 => rowsQue
  | 12 => rowsCph | 13 => rowsKst | 14 => rowsNfc | 15 => rowsStb | 16 => rowsTmr | 17 => rowsRtc
  | 18 => rowsWdt | 19 => rowsIcu | 20 => rowsEvr | 21 => rowsFlc | 22 => rowsOtp | 23 => rowsHp
  | 24 => rowsSvc | 0x100 => rowsMirror | _ => []

/-- The block of a peripheral address. -/
def blockOf (a : Nat) : Nat := (a - 0x300000) / 0x1000

/-- The row that names register `a`. -/
def regRow (a : Nat) : Option RegRow :=
  if a < 0x300000 then none else (blockRows (blockOf a)).find? (fun r => (r.index a).isSome)

/-! ### Reset values that differ from register to register -/

/-- PIN_MAPn (R82). -/
def pinMapReset : List Nat :=
  [0x200004110, 0x118214500, 0x01C71C71C, 0x100820800, 0x200324900, 0x100028A00, 0x10002CB00, 0x100030C00,
   0x100034D00, 0x100038E00, 0x10003D800, 0x100040100]

/-- EGY_DECLn: FIT, class, duration class and peak (R128).
[DESIGN CHOICE, unsafe: notes/assumptions/17] -/
def declReset (n : Nat) : Nat :=
  let d (fit cls dcls peak : Nat) : Nat := fit <<< 19 ||| cls <<< 16 ||| dcls <<< 14 ||| peak
  match n with
  | 0 => d 0 2 3 25 | 1 => d 0 2 3 25 | 2 => d 0 1 3 17 | 3 => d 0 1 2 114 | 4 => d 1 1 2 1555 | 5 => d 0 1 0 48
  | 6 => d 0 2 1 58 | 7 => d 0 2 2 548 | 8 => d 0 2 1 120 | 9 => d 0 2 1 8 | 10 => d 0 2 3 6 | 11 => d 0 2 3 6
  | 12 => d 0 2 1 36 | _ => d 0 3 0 0

/-- MDM_LSm, MDM_CMm and MDM_FKm (R202, R224, R233). -/
def lsReset : List Nat :=
  [0x6B00086B8, 0x6B0008240, 0x6B0008248, 0x6B0008250, 0x6B00081D8, 0x6B00081E0, 0x6B00080E0, 0x6B0008070]
def cmReset : List Nat := [0xB28, 0xB18, 0xA10, 0x650, 0x550, 0x540, 0x040, 0x050]
def fkReset : List Nat :=
  [0x020044000, 0x020045000, 0x020042000, 0x020043000, 0x02004C000, 0x020074000, 0x020075000, 0x020047000]

/-- The sources whose native form is level (R413). -/
def nativeLevel (n : Nat) : Bool :=
  (1 ≤ n && n ≤ 20) || n = 23 || (25 ≤ n && n ≤ 28) || n = 66

/-- The reset value of register `a`; 0 at an address no register has. -/
def regResetNat (a : Nat) : Nat :=
  if R.PIN_MAP 0 ≤ a ∧ a < R.PIN_MAP 24 then pinMapReset.getD (a - R.PIN_MAP 0) 0x100104100
  else if R.EGY_DECL 0 ≤ a ∧ a < R.EGY_DECL 16 then declReset (a - R.EGY_DECL 0)
  else if R.RFE_FIR 0 0 ≤ a ∧ a < R.RFE_FIR 4 0 then (if (a - R.RFE_FIR 0 0) % 16 = 0 then 0x7FF else 0)
  else if R.MDM_LS 0 ≤ a ∧ a < R.MDM_LS 8 then lsReset.getD (a - R.MDM_LS 0) 0
  else if R.MDM_CM 0 ≤ a ∧ a < R.MDM_CM 8 then cmReset.getD (a - R.MDM_CM 0) 0
  else if R.MDM_FK 0 ≤ a ∧ a < R.MDM_FK 8 then fkReset.getD (a - R.MDM_FK 0) 0
  else if R.QUE_RING 0 ≤ a ∧ a < R.QUE_RING 32 then
    let q := (a - R.QUE_RING 0) / 8
    match (a - R.QUE_RING 0) % 8 with
    | 0 => if q < 16 then 0x01004D000 + 0x40 * q else 0
    | 1 => if q < 8 then 0x04004D400 + 0x400 * q else 0
    | 2 => if q < 16 then 0x029000000 else 0
    | _ => 0
  else if a = R.KST_ATTR 0 then 0x1EF1
  else if R.ICU_SRC 1 ≤ a ∧ a < R.ICU_SRC 96 then (if nativeLevel (a - R.ICU_SRC 0) then 0 else 8)
  else ((regRow a).map RegRow.reset).getD 0

/-- The reset value of register `a`, as a word. -/
def regReset (a : Nat) : Word := W (regResetNat a)

end Sys2Proof.Machine
end

