-- ==== Sys2Proof/Machine/Cells.lean ====
section
/-!
DEFINITION. Sparse word storage: the register file, SRAM, flash, OTP and the host mirror are each a
`Cells` list with one canonical form, read through a default.
-/

namespace Sys2Proof.Machine

/-- The word listed at `a`, if any. -/
def Cells.find (a : Nat) : Cells → Option Word
  | [] => none
  | (b, w) :: l => if b = a then some w else Cells.find a l

/-- The word at `a`, where unlisted addresses read `d a`. -/
def Cells.get (d : Nat → Word) (l : Cells) (a : Nat) : Word := (Cells.find a l).getD (d a)

/-- Drop what is listed at `a`. -/
def Cells.drop (a : Nat) : Cells → Cells
  | [] => []
  | (b, w) :: l => if b = a then Cells.drop a l else (b, w) :: Cells.drop a l

/-- Put an entry in its place by address; `a` is not listed. -/
def Cells.put (a : Nat) (v : Word) : Cells → Cells
  | [] => [(a, v)]
  | (b, w) :: l => if a < b then (a, v) :: (b, w) :: l else (b, w) :: Cells.put a v l

/-- Write `v` at `a`.  A word that equals what an unlisted address reads as is not listed. -/
def Cells.set (d : Nat → Word) (l : Cells) (a : Nat) (v : Word) : Cells :=
  if v = d a then Cells.drop a l else Cells.put a v (Cells.drop a l)

/-- Write `v` at `a` where an unlisted address has no fixed value: every written word is listed. -/
def Cells.setU (l : Cells) (a : Nat) (v : Word) : Cells := Cells.put a v (Cells.drop a l)

/-- Every address listed is above `a`. -/
def Cells.above (a : Nat) (l : Cells) : Bool := l.all (fun e => a < e.1)

/-- Addresses rise strictly. -/
def Cells.rising : Cells → Bool
  | [] => true
  | (a, _) :: l => Cells.above a l && Cells.rising l

/-- No entry equals what an unlisted address reads as. -/
def Cells.sparse (d : Nat → Word) (l : Cells) : Bool := l.all (fun e => e.2 != d e.1)

/-- The canonical form: equal contents are equal lists. -/
def Cells.wf (d : Nat → Word) (l : Cells) : Bool := Cells.rising l && Cells.sparse d l

/-- The canonical form where every written word is listed. -/
def Cells.wfU (l : Cells) : Bool := Cells.rising l

/-- Drop every entry whose address fails `p`. -/
def Cells.keep (p : Nat → Bool) (l : Cells) : Cells := l.filter (fun e => p e.1)

end Sys2Proof.Machine
end

