-- ==== Sys2Proof/Machine/State.lean ====
section
/-!
DEFINITION. The state of the chip: plain data, every piece of state the spec names.  A register that
software sees has its one home in `Chip.regs` (by address, Machine/Regs.lean), unless a view computes
it from engine state (Machine/Io.lean).
-/
namespace Sys2Proof.Machine

/-- The chip reports every refusal in a register and every core fault as a trap, and goes on: no
command stops the model with a fault, so this type has no constructor. -/
inductive Fault where
deriving DecidableEq, Repr

/-- Why the model gives a command no meaning. -/
inductive Refusal where
  /-- Raised by an arm of `exec` whose command has no meaning yet; safe, since nothing is claimed. -/
  | notModelled (mnemonic : String)
deriving DecidableEq, Repr

/-! ### Pins, clocks, power -/

/-- The pin phases (R73). -/
inductive Phase where
  | boot | run | slot | rest | recover
deriving DecidableEq, Repr

/-- The levels the blocks give their output meanings (R89). -/
structure Latches where
  fdet : Bool := false
  sqw : Bool := false
  cxReq : Bool := false
  cxPri : Bool := false
  cxGnt : Bool := false
  txen : Bool := false
  /-- Bit 2n + c is TMR_OUTn_c. -/
  tmrOut : Nat := 0
  /-- Bit k is EVT_OUTk. -/
  evtOut : Nat := 0
deriving DecidableEq, Repr

/-- The pin controller (spec/03). -/
structure Pins where
  phase : Phase := .boot
  /-- The levels that the board's drivers put on P0 to P23, and the pins that it drives. -/
  pad : Nat := 0
  driven : Nat := 0
  /-- The level that each pin last had, for its bus keeper (R92). -/
  kept : Nat := 0
  /-- VDDIO2 is in its operating range (R72). -/
  io2ok : Bool := true
  /-- The meaning each general pin carries now, P0 first. -/
  cur : List Nat := [4, 0, 7, 0, 0, 0, 0, 0, 0, 0, 0, 0, 0, 0, 0, 0, 0, 0, 0, 0, 0, 0, 0, 0]
  /-- Levels held for the input meanings no pin carries now; bit m is meaning code m (R81). -/
  held : Nat := 0
  latch : Latches := {}
  /-- SLOT windows open, so that one window may extend another (R74). -/
  windows : Nat := 0
deriving DecidableEq, Repr

/-- What the structure stream set at boot and no register shows (R42 to R65). -/
structure StreamCfg where
  /-- PROV of the CLOCKS section. -/
  prov : Nat := 0x3747
  pll : Bool := false
  fab48 : Bool := false
  /-- Per interface 0 to 3: negotiated, MIN, MAX (R58). -/
  versions : List (Bool × Nat × Nat) := [(true, 1, 3), (true, 1, 3), (true, 1, 2), (true, 1, 2)]
  adaptive : Bool := false
  /-- Per margin quantity 1 to 4: value, floor, ceiling (R63, R64). -/
  margins : List (Nat × Nat × Nat) := [(60, 25, 120), (200, 50, 2000), (100, 50, 300), (12, 8, 16)]
  lifeAlarm : Nat := 24
  /-- The four words of the CORES body in force (R563). -/
  cores : List Nat := [1, 0, 0, 0]
deriving DecidableEq, Repr

/-- Clock domains and the stamp unit (spec/01). -/
structure Clocks where
  /-- AON-LF has had its first edge (R112). -/
  lfOn : Bool := false
  /-- AON-LF runs from AON-RC (R112, R401). -/
  lfRc : Bool := false
  /-- LFXO gives edges. -/
  lfxoOk : Bool := false
  /-- The LFXO edge from which the edges of AON-LF are counted (R112, R401). -/
  lfPhase : Nat := 0
  /-- When VAON was established (R112). -/
  vaonAt : Nat := 0
  /-- HF-REF runs. -/
  hfOn : Bool := true
  /-- When HF-REF last started. -/
  hfSince : Nat := 0
  /-- FINE as HF-REF stopped. -/
  fineHeld : Nat := 0
  /-- The PLL runs; PLLLOCK shows its lock. -/
  pllOn : Bool := false
  /-- When the PLL locks. -/
  pllLockAt : Option Nat := none
  /-- A CLK_FOX value whose clock switch waits for VCORE to settle, and its writer, which is stalled (R97). -/
  foxStall : Option (Word × Agent) := none
  /-- When VCORE has settled. -/
  vcoreAt : Option Nat := none
  /-- Cores that run from HF-REF until the PLL locks (R102). -/
  foxOnHf : Bool := false
deriving DecidableEq, Repr

/-- The power state (R101); DOZE is RUN with every released core waiting. -/
inductive PState where
  | run | sleep | hibernate | ship
deriving DecidableEq, Repr

/-- A reset that waits for a flash pulse to end (R409, R517). -/
inductive ResetKind where
  | wdt (cause : Nat) | pin | svc
deriving DecidableEq, Repr

structure Power where
  st : PState := .run
  /-- A rest entry that has passed step 1 and not yet step 4 (R106). -/
  entering : Option PState := none
  entryDoneAt : Nat := 0
  /-- PMU_CAUSE bits of the wake sources that fired and wait for the chip-wake grant. -/
  wakeSrc : Nat := 0
  /-- The chip-wake claim has its grant. -/
  wakeGranted : Bool := false
  /-- Bear deferred the claim in question (R141). -/
  wakeDeferred : Bool := false
  /-- The link wake armed on STB, as a time (R103, R271). -/
  linkWakeAt : Option Nat := none
  /-- A wait for the next 100 ms measurement of a waiting wake claim (R108). -/
  remeasureAt : Option Nat := none
  /-- The chip was never powered, or RESETN or a reset holds it: boot must run. -/
  bootPending : Bool := true
  /-- Boot step 3 holds for the supply (R126). -/
  bootHeld : Bool := false
  /-- VIN is below its warning threshold. -/
  vinLow : Bool := false
  vsysLow : Bool := false
  /-- A reset that waits for a flash pulse. -/
  resetWait : Option ResetKind := none
deriving DecidableEq, Repr

/-! ### Bear and the health monitor (spec/05) -/

/-- A claim that Bear holds in PENDING (R129). Times are in HF-REF periods; `dur` is 0 for a
continuous claim. -/
structure Claim where
  who : Nat
  power : Nat
  dur : Nat
  cont : Bool
  minP : Option Nat := none
  deadline : Option Nat := none
  cls : Nat
  arrival : Nat
  /-- The reservation it spends (R139). -/
  resv : Option Nat := none
  answered : Bool := false
  /-- The earliest start last given with a DEFER; none is "at a release". -/
  earliest : Option Nat := none
  cause : Nat := 0
deriving DecidableEq, Repr

/-- A grant that is held (R131). -/
structure Grant where
  who : Nat
  power : Nat
  dur : Nat
  cont : Bool
  start : Nat
  cls : Nat
  arrival : Nat
  /-- The claim's minimum power and deadline, which it has again when it rejoins PENDING (R134). -/
  minP : Option Nat := none
  deadline : Option Nat := none
  /-- Marked for pre-emption (R134). -/
  marked : Bool := false
deriving DecidableEq, Repr

/-- A reservation (R136); `start` counts LF ticks of the 72-bit time base. -/
structure Resv where
  start : Nat
  who : Nat
  ms : Bool
  power : Nat
  count : Nat
  bySlot : Bool := false
deriving DecidableEq, Repr

/-- Bear's answers (R130). -/
inductive AnswerKind where
  | grant | reduced | defer | deny
deriving DecidableEq, Repr

structure Answer where
  who : Nat
  kind : AnswerKind
  power : Nat := 0
  /-- The DENY reason or DEFER cause. -/
  code : Nat := 0
  start : Option Nat := none
deriving DecidableEq, Repr

/-- What Bear last measured; kept by the Owl domain (R125). -/
structure Supply where
  refill : Nat := 0
  cap : Nat := 0
  /-- C as a charge in nC over a fall in uV (R123). -/
  c : Nat × Nat := (0, 1)
  /-- LEVEL in account units of 0.25 mW for one HF-REF period; 1 microjoule is 128,000. -/
  level : Nat := 0
  /-- The count of LF ticks when it was stored. -/
  tick : Nat := 0
  /-- EGY_SRC of the measurement. -/
  src : Word := 0
deriving DecidableEq, Repr

structure Bear where
  /-- LEVEL in account units at `levelAt`. -/
  level : Nat := 0
  levelAt : Nat := 0
  /-- C as a charge in nC over a fall in uV (R123). -/
  c : Nat × Nat := (0, 1)
  /-- Whether the first measurement since reset has completed (R119). -/
  valid : Bool := false
  /-- VX of the last measurement since reset, in eighths of a microvolt (R94, R122). -/
  vx : Option Nat := none
  measDue : Bool := false
  measuring : Bool := false
  /-- Repeats left and made of a discarded or low measurement (R122, R124). -/
  calFails : Nat := 0
  lowRepeats : Nat := 0
  retryAt : Option Nat := none
  /-- When the next measurement falls due (R121). -/
  nextMeas : Option Nat := none
  pend : List Claim := []
  grants : List Grant := []
  resv : List (Option Resv) := List.replicate 64 none
  /-- Per agent in the order of `Agent`: EGY_RESS, and OK and INDEX of EGY_RESST. -/
  ress : List Word := List.replicate 5 0
  resp : List Word := List.replicate 5 0
  resOk : List (Bool × Nat) := List.replicate 5 (false, 0)
  expired : Nat := 0
  /-- The last grant of claimants 0, 1, 2 and 12 (R140). -/
  lastStagger : Option Nat := none
  /-- On-times of the transmitter, newest first (R143). -/
  txOn : List (Nat × Nat) := []
  /-- When held claims are next examined (R135). -/
  holdCheckAt : Option Nat := none
deriving DecidableEq, Repr

/-- One day's point of the five trends (R148): core margin, guard, pulse limit, refill, resistance. -/
abbrev TrendPoint := List Nat

/-- The health monitor's measurements (R144 to R149); each is listed with the STB tick it was made at. -/
structure Monitor where
  planning : Bool := false
  /-- The re-plan was commanded and does not move the schedule (R149). -/
  commanded : Bool := false
  /-- The STB of the next daily re-plan (R65). -/
  nextPlan : Option Nat := none
  planDoneAt : Option Nat := none
  nextRing : Option Nat := none
  nextHfLf : Option Nat := none
  /-- Largest slowdown of the rings, in 0.1 percent. -/
  rings : List (Nat × Nat) := []
  /-- LF-against-mesh drifts in 0.05 ppm. -/
  drifts : List (Nat × Int) := []
  /-- Intervals between corrections, in LF ticks. -/
  gaps : List (Nat × Nat) := []
  lastCorr : Option Nat := none
  caps : List (Nat × Nat) := []
  /-- Pulses of each word program. -/
  pulses : List (Nat × Nat) := []
deriving DecidableEq, Repr

/-! ### Flash and OTP (spec/18) -/

/-- Who asks for a flash operation (R509): an agent through FLC_CMD, Squirrel, the key store, the NFC
block, the ROM, a loader, or the controller itself. -/
inductive FlSrc where
  | cmd | squirrel | keystore | nfc | rom | loader | ctl
deriving DecidableEq, Repr

/-- A step of an operation: program a word, apply erase pulses to a sector, or erase a sector with its
journal entry (R512, R513). -/
inductive FlStep where
  | prog (a : Nat) (v : Word)
  | erase (base : Nat)
  | sector (base count : Nat)
deriving DecidableEq, Repr

/-- An operation that runs or waits. -/
structure FlOp where
  src : FlSrc
  /-- FLC_CMD.OP; of any other requester what its step in hand is, 1 a program or 2 an erase (R515). -/
  op : Nat
  target : Nat
  steps : List FlStep
  /-- FLC_MAXPULSE at acceptance (R512). -/
  limit : Nat
  /-- Pulses that the step in hand has had. -/
  pulses : Nat := 0
  /-- The word that is programmed now, or the base of the sector that is erased (R515). -/
  spot : Nat := 0
  /-- The step in hand is the first of a PROGRAM or an ERASE, of which an operation of Squirrel, the key store, the ROM or a loader
  has many. -/
  begins : Bool := true
  /-- ERASE_FAIL, once a sector has failed and its entry is being closed. -/
  result : Nat := 0
deriving DecidableEq, Repr

/-- An OTP program (R533). -/
structure OtpOp where
  word : Nat
  data : Word
  attempts : Nat := 0
deriving DecidableEq, Repr

/-- The flash controller and the OTP programmer. -/
structure Flc where
  op : Option FlOp := none
  /-- Hardware requests that wait, and the ROM's and the loader's. -/
  hw : List FlOp := []
  /-- A program or erase pulse or its verify is in progress, when the pulse ends, and when its verify does. -/
  pulsing : Bool := false
  pulseTill : Option Nat := none
  pulseAt : Option Nat := none
  /-- The last write of FLC_CMD: its cycle and its agent (R509). -/
  cmdAt : Option (Nat × Agent) := none
  /-- Banks whose journal the controller erases again once the ROM runs (R518). -/
  journals : List Nat := []
  busyA : Bool := false
  busyB : Bool := false
  /-- FLC_PWD0 as staged by each agent. -/
  pwd0 : List Word := List.replicate 5 0
  unlocked : Bool := true
  /-- The protection row in force: words 0 to 17 (R527). -/
  prot : Option (List Word) := none
  sqActive : Bool := false
  sqSeq : Nat := 0
  /-- SQEN was written 0 during an operation (R526). -/
  sqStop : Bool := false
  otp : Option OtpOp := none
deriving DecidableEq, Repr

/-! ### Interrupts and events (spec/14) -/

structure Icu where
  /-- Claimed sources that hold a re-arm (R418). -/
  rearm : List Nat := []
  /-- The HF-REF periods through which FABRIC has run, and that count as each pending source became so (R422). -/
  ran : Nat := 0
  since : List (Nat × Nat) := []
  /-- The record of each target: 0, 1022 or 1023 (R416). -/
  record : List Nat := [0, 0, 0, 0]
  /-- Pairs of a target and a presented source whose coalescing delay has run out. -/
  ripe : List (Nat × Nat) := []
  /-- Sources whose occurrence came while FABRIC was stopped: one is latched for each (R423). -/
  held : List Nat := []
deriving DecidableEq, Repr

structure Evr where
  /-- Tasks that fire: the task, the cycle in which it does, and whether both slots pulsed (R425, R428, R429). -/
  fire : List (Nat × Nat × Bool) := []
  /-- Pulses held while FABRIC is stopped: publisher codes (R436). -/
  heldPulse : List Nat := []
  /-- SWPUB channels to pulse in the next cycle (R427). -/
  swNext : List Nat := []
  /-- The stamped events of the cycle: publisher and channel.  Their stamps come after the cycle's others (R32). -/
  recs : List (Nat × Nat) := []
deriving DecidableEq, Repr

/-- A stamp (R30). -/
structure Stamp where
  lo : Nat := 0
  seq : Nat := 0
  fv : Bool := false
  fine : Nat := 0
deriving DecidableEq, Repr

/-- What one block hands to another within a command: answers of Bear to their claimants, pulses of
event channels to the timers that count them. -/
structure Outbox where
  answers : List Answer := []
  chans : List Nat := []
  /-- Flash operations that ended: who asked, and the code. -/
  flash : List (FlSrc × Nat) := []
deriving DecidableEq, Repr

/-- The always-on domain's state that no register shows (R101, R148). -/
structure Owl where
  /-- STB, 72 bits (R383). -/
  stb : Nat := 0
  /-- AON-LF has given an edge since STB was cleared, and when it gave the last (R31). -/
  edged : Bool := false
  edgeAt : Nat := 0
  /-- The SEQ of the most recent stamp (R33). -/
  seq : Nat := 0
  /-- What the stamp unit held at the end of the last whole cycle (R491). -/
  sample : Stamp := {}
  imgok : Bool := false
  supply : Supply := {}
  /-- When the next measurement falls due, kept through HIBERNATE (R121). -/
  measAt : Option Nat := none
  /-- RBS0, the first cell resistance since power-on reset (R144). -/
  rbs0 : Option Nat := none
  trends : List TrendPoint := []
  /-- The RTC's trim accumulator, the ticks the current second is short by, and the extra ticks it has
  held (R400). -/
  rtcAcc : Int := 0
  rtcAdj : Int := 0
  rtcHeld : Nat := 0
  /-- A write of RTC_SEC on its way into the domain (R399). -/
  rtcWrite : Option Nat := none
deriving DecidableEq, Repr

/-! ### The J36 cores (spec/15) -/

/-- What a core does: held in reset, running, in WAIT, in SLOTW for a class, or in lockup. -/
inductive CoreRun where
  | held | run | wait | slotw (cls : Nat) | lockup
deriving DecidableEq, Repr

/-- The three multiplier operations (R449). -/
inductive MulKind where
  | signed | unsigned | mac
deriving DecidableEq, Repr

/-- A product in flight: the cycle it was issued in and its operands (R450). -/
structure Flight where
  cycle : Nat
  kind : MulKind
  a : Word
  m : Word
deriving DecidableEq, Repr

/-- One core: R441, and what R450, R452, R36, R464 and R553 imply. The defaults are R465. -/
structure CoreSt where
  a : Word := 0
  x : BitVec 24 := 0
  y : BitVec 24 := 0
  pc : BitVec 24 := 0
  sp : BitVec 24 := 0x050000
  st : Word := 0
  mhi : Word := 0
  mlo : Word := 0
  crcp : BitVec 8 := 0x07
  vbr : BitVec 24 := 0x000040
  tcause : BitVec 9 := 0
  taddr : BitVec 24 := 0
  /-- Core clock cycles since release; CYC shows them modulo 2^36. -/
  cyc : Nat := 0
  run : CoreRun := .held
  /-- Halted by the service port (R553). -/
  halted : Bool := false
  /-- Its clock is held since Bear pre-empted its grant (R134). -/
  clkHeld : Bool := false
  flight : List Flight := []
  /-- The cycle of the last multiplier issue (R452). -/
  lastMul : Option Nat := none
  /-- The write buffer of the memory path, oldest first; Fox cores only (R36). -/
  wbuf : List (Nat × Word) := []
  /-- Prefetched words; Fox cores only (R464). -/
  prefetch : List (Nat × Word) := []
  /-- The cycles of the last instruction, and whether it continued in sequence (R473). -/
  lastCyc : Nat := 0
  seqNext : Bool := false
  /-- The last ADDD or SUBD had an invalid operand (R447); one entry for each interrupt and trap entered
  and not yet left lies under the first. -/
  badDec : List Bool := [false]
  /-- The last instruction was fetched from ROM (R329). -/
  fromRom : Bool := false
deriving DecidableEq, Repr

structure Cores where
  foxA : CoreSt := {}
  foxB : CoreSt := {}
  badger : CoreSt := {}
deriving DecidableEq, Repr

/-! ### Time bases (spec/13) -/

/-- A general timer's prescaler, active compares and preloads (R386, R391).  The preload of a linked
pair holds both halves. -/
structure TimerSt where
  pres : Nat := 0
  act0 : Nat := 0
  act1 : Nat := 0
  pl0 : Option Nat := none
  pl1 : Option Nat := none
deriving DecidableEq, Repr

structure Timers where
  t : List TimerSt := List.replicate 8 {}
  /-- Per agent in the order of `Agent`: the RTC_SEC that its shadow holds frozen (R398). -/
  shadows : List (Option Nat) := List.replicate 5 none
  /-- AON-RC cycles since the last kick of the watchdog (R407). -/
  wdt : Nat := 0
deriving DecidableEq, Repr

/-! ### The cipher engine and the key store (spec/11) -/

/-- An operation of a page beyond its registers: the key it fetched (R330), the order of its start
(R345), and when its block work ends. -/
structure CphPage where
  /-- The keys of the operation: its own, and for WRAP the one in TSLOT, as its start found them (R330). -/
  key : List Nat := []
  target : List Nat := []
  order : Nat := 0
  /-- Block work is not finished: set-up cycles and block computations left, and an abort that waits for the block to end
  (R322, R345, R346). -/
  busy : Bool := false
  setup : Nat := 0
  left : Nat := 0
  aborting : Bool := false
deriving DecidableEq, Repr

/-- A record to write: page, slot and the key's octets, none for CLEAR (R334, R339). -/
structure KeyRec where
  page : Nat
  slot : Nat
  key : List Nat
  order : Nat
deriving DecidableEq, Repr

structure Cph where
  pages : List CphPage := List.replicate 4 {}
  /-- The number of starts so far. -/
  starts : Nat := 0
  /-- The shadow (R330): the octets of each filled slot. -/
  shadow : List (Option (List Nat)) := List.replicate 16 none
  /-- The page whose block is computed and that block's FABRIC cycles left, the page served last, and the part of a FABRIC
  cycle that has passed, in 1/32 (R345). -/
  cur : Option Nat := none
  cyc : Nat := 0
  last : Nat := 3
  frac : Nat := 0
  /-- The grant has ended within a block, at whose end the pages wait (R344). -/
  ending : Bool := false
  /-- Records that wait, the one being written first. -/
  recs : List KeyRec := []
  writing : Bool := false
  /-- The record being written was abandoned before its words were begun (R339). -/
  abandoned : Bool := false
deriving DecidableEq, Repr

/-! ### Radio, modem and link controller (spec/06 to 09) -/

/-- The complex number (re + j im) / √norm. -/
structure Pt where
  re : Int
  im : Int
  norm : Nat
deriving DecidableEq, Repr

/-- An element of a frame as it leaves RFIO (spec/07, spec/08). -/
inductive AirPart where
  /-- Up-sweeps of the given values. -/
  | up (l : List Nat)
  /-- A down-sweep. -/
  | down
  /-- `n` equal up-sweeps of value 0. -/
  | preamble (n : Nat)
  /-- A chirp-multiplex symbol: its N chirp values (R209). -/
  | symbol (x : List Pt)
  /-- SUN-FSK bits in the order of the air. -/
  | bits (l : List Bool)
deriving DecidableEq, Repr

/-- What the synthesiser calibrates: a step of a commanded calibration, of the live cell's, or one of the
background calibrations (R154, R157, R172). -/
inductive SynJob where
  | idle
  | cmd (k : Nat)
  | cell (k : Nat)
  | bg (k : Nat)
deriving DecidableEq, Repr

structure Syn where
  job : SynJob := .idle
  /-- The step in hand has its grant; it ends at `stepEnd`. -/
  stepEnd : Option Nat := none
  /-- A step so far found no VCO setting for part of a band. -/
  bad : Bool := false
  /-- The cell that started the calibration has ended: it is abandoned at the end of the step (R156). -/
  orphan : Bool := false
  /-- Since when a lock is sought. -/
  lockFrom : Option Nat := none
  /-- Background calibrations that are due, bit 0 first in the order of R172, and for each when and at
  what temperature it last completed. -/
  bgDue : Nat := 0
  bgDone : List (Nat × Nat) := List.replicate 4 (0, 0)
  /-- Since when the radio is idle. -/
  idleSince : Nat := 0
  /-- The preparation start that ends the gap of the background step claimed last, and whether it was denied LATE there. -/
  gap : Option Nat := none
  gapLate : Bool := false
deriving DecidableEq, Repr

/-- How far a reception has come (R196 to R200). -/
inductive RxSt where
  | search | acquired | synced | header | done | handed
deriving DecidableEq, Repr

/-- The window of a receive cell, or for an acknowledgement. -/
structure RxWin where
  openAt : Nat
  closeAt : Nat
  opened : Bool := false
  /-- The latest instant of the decision that an acquisition waits for. -/
  holdTo : Nat := 0
  st : RxSt := .search
  /-- When the present search began. -/
  since : Nat := 0
  /-- What the acquisition estimates (R196): the carrier offset, the symbol-rate error in 1/1,000,000, and the phase reference
  in 1/4,096 turn. -/
  foff : Int := 0
  rate : Int := 0
  phase : Nat := 0
  /-- The symbol timing of the acquisition, as the value of the preamble's up-sweeps; and when it was made. -/
  timing : Int := 0
  acqAt : Nat := 0
  /-- What the carrier or the pilots, and the symbol timing, do from then on, symbol by symbol. -/
  course : List Int := []
  drift : List Int := []
  /-- What the frame mark's down-sweep separates, in half bins: the carrier offset and the timing error.  And the alignment of the
  header's symbols that its up-sweep fixes (R196). -/
  carrier : Int := 0
  late : Int := 0
  align : Int := 0
  /-- The equaliser's taps, in 1/2^24, and the common rotation of the last symbol in 1/4,096 turn (R219, R220). -/
  taps : List (Int × Int) := []
  rot : Nat := 0
  hdr : Nat := 0
  /-- The window's most recent failure (R199). -/
  failed : Option Nat := none
  syncAt : Nat := 0
  stamp : Option Stamp := none
  frame : List Byte := []
  /-- OK, or the failure of a frame kept with KEEPBAD. -/
  code : Nat := 0
  qual : Nat := 0
  /-- The end of the last symbol at RFIO. -/
  endAt : Nat := 0
  handedAt : Nat := 0
  /-- The gain code, and when its period ends (R166). -/
  gain : Nat := 0
  agcAt : Option Nat := none
deriving DecidableEq, Repr

/-- A cell chosen for a slot (R243): class, ASN, boundary, index and entry as read at the choice. -/
structure Chosen where
  cls : Nat
  asn : Nat
  b : Nat
  index : Nat
  w0 : Nat
  w1 : Nat
  tx : Bool
  q : Nat := 0
  ch : Nat := 63
  /-- The live frequency that hopping gives. -/
  freq : Option Nat := none
  /-- MON_PLAN0.GUARD at the opening, in microseconds (R247). -/
  guard : Nat := 0
  window : Bool := false
  /-- Its boundary has passed. -/
  marked : Bool := false
  /-- Its stamp, and whether that is requested in this cycle (R32, R604). -/
  stamp : Option Stamp := none
  due : Bool := false
  /-- The outcome of a cell that ended before its boundary. -/
  ended : Option Nat := none
  /-- The entry chosen to be sent: how many entries had left its queue's head, and its address (R243). -/
  entry : Option (Nat × Nat) := none
deriving DecidableEq, Repr

/-- A received frame on its way to its queue, and whether it is delivered (R252). -/
structure Delivery where
  q : Nat
  nbr : Nat
  frame : List Byte
  code : Nat
  qual : Nat
  stamp : Stamp
deriving DecidableEq, Repr

/-- The live set and the cell in progress (R170, R250). -/
structure Live where
  c : Chosen
  freq : Nat
  m : Nat
  mset : Nat
  /-- RAMP and TXENLEAD of RFE_CFG and HI of RFE_AGC as copied (R20). -/
  ramp : Nat := 0
  lead : Nat := 0
  hi : Nat := 0
  /-- The width of the receive channel filter in force, in 1/10 Hz, and the transmit sample rate in Hz (R185, R208, R227). -/
  rxw : Nat := 0
  fs : Nat := 0
  /-- The coefficients of its FIR set, and TXPOL, RXPOL and LOSSPOL of CX_CFG, as copied (R20). -/
  taps : List Int := []
  cxTx : Bool := false
  cxRx : Bool := false
  cxLoss : Bool := false
  /-- The cell's claim, or its acknowledgement's, has its grant. -/
  granted : Bool := false
  /-- The scheduled ramp start has passed and the transmission is held (R171); a low CX_GNT holds it. -/
  held : Bool := false
  cxHeld : Bool := false
  rampAt : Option Nat := none
  /-- When the ramp-down ends. -/
  txEnd : Option Nat := none
  abort : Option Nat := none
  pwr : Nat := 0
  octets : List Byte := []
  /-- The end of the cell's own last symbol. -/
  e : Nat := 0
  win : Option RxWin := none
  /-- The acknowledgement that R252 calls for, as octets. -/
  ack : Option (List Byte) := none
  deliver : Option Delivery := none
  reason : Nat := 0
  txd : Bool := false
  rxd : Bool := false
  ackok : Bool := false
  corr : Option Int := none
  /-- The cell applied or rejected a correction (R270). -/
  corrUsed : Bool := false
  /-- TXEN has risen for this transmission. -/
  txenUp : Bool := false
  /-- The stamp of the completion of the frame radiated last (R604). -/
  done : Option Stamp := none
deriving DecidableEq, Repr

/-- A booked transmit entry: its cell and ASN and the reservation indices (R261). -/
structure Book where
  cls : Nat
  asn : Nat
  cell : Nat
  resv : List Nat
  prepAt : Nat
deriving DecidableEq, Repr

/-- The last frame radiated: the start of its first symbol, FREQ, power code, mode and parameter set, parts. -/
structure Radiated where
  start : Nat
  freq : Nat
  pwr : Nat
  mm : Nat
  mset : Nat
  parts : List AirPart
  /-- The sample rate of the baseband in Hz. -/
  fs : Nat
  /-- The coefficients of the shaping filter that the baseband passes (R162). -/
  taps : List Int
deriving DecidableEq, Repr

/-- An entry that is returned with LATE at its missed deadline (R604): its queue, words of the return, the deadline, and
whether backoff returns. -/
structure LateEntry where
  q : Nat
  tries : Nat
  pwr : Nat
  at' : Nat
  bo : Bool
deriving DecidableEq, Repr

structure Lnk where
  /-- START of each class in 72 bits. -/
  starts : List Nat := [0, 0, 0, 0]
  /-- The ASN of each class's next boundary, and of its next choice. -/
  nextB : List Nat := [0, 0, 0, 0]
  nextC : List Nat := [0, 0, 0, 0]
  chosen : List Chosen := []
  live : Option Live := none
  /-- Corrections that wait for a free boundary, in 0.25 µs, and whether they come from the parent (R144, R257). -/
  corrs : List Int := []
  /-- Transmissions made of the head entry of queues 8 to 15. -/
  tries : List Nat := List.replicate 8 0
  /-- Entries that have left the heads of queues 8 to 15, and those that leave with LATE at their deadline. -/
  heads : List Nat := List.replicate 8 0
  late : List LateEntry := []
  /-- The cycle's stamp requests of returned entries: where the stamp goes and its instant; and of slot records: the instant,
  and the words before the stamp, none where the record proved unneeded (R32, R604). -/
  returned : List (Nat × Nat) := []
  recs : List (Nat × List Word) := []
  books : List (Option Book) := List.replicate 8 none
  /-- Per queue, the cells and ASNs barred for its head entry, and whether it goes unbooked (R261). -/
  barred : List (List (Nat × Nat)) := List.replicate 8 []
  unbooked : List Bool := List.replicate 8 false
  /-- Receive cells booked or refused: the cell, the ASN, and the reservation's index and start (R262). -/
  rxBooks : List (Nat × Nat × Option (Nat × Nat)) := []
  lfsr : Nat := 0
  /-- The high ASN part that LNK_CLSc_ASNHI returns (R237). -/
  shadow : List Nat := [0, 0, 0, 0]
  /-- When a correction was last applied, or the engine enabled (R258), and the STB of the last correction. -/
  lastCorr : Nat := 0
  lastStb : Option Nat := none
  desynced : Bool := false
  /-- The engine runs: from an enable to the stop at a free boundary (R273). -/
  running : Bool := false
  /-- The last frame sent (the model's own output). -/
  air : Option Radiated := none
deriving DecidableEq, Repr

/-! ### The mesh layer (spec/10) -/

/-- A node the mesh layer has heard a beacon or offer of: what R306 and R307 keep of it. -/
structure MeshPeer where
  addr : Nat
  eui : Nat
  vmin : Nat
  vmax : Nat
  rank : Nat := 0xFFFF
  hops : Nat := 64
  /-- Q of R306. -/
  q : Nat := 0
  /-- NO_ACK returns in a row. -/
  noAcks : Nat := 0
  /-- It beacons, so it is a candidate parent. -/
  beacons : Bool := false
  /-- When its last beacon came, and that beacon's FLAGS (R286). -/
  beaconAt : Nat := 0
  flags : Nat := 0
  /-- The channel plan identifier that it beacons. -/
  planId : Nat := 0
deriving DecidableEq, Repr

/-- A child (R309); the address is 0xFFFE until a HELLO tells it. -/
structure MeshChild where
  addr : Nat
  eui : Nat
  vmin : Nat
  vmax : Nat
  heard : Nat := 0
deriving DecidableEq, Repr

/-- Replay state of a sender under a key: 0 and 1 the network epochs, 2 the join key (R292). -/
structure MeshReplay where
  eui : Nat
  key : Nat
  last : Nat
  window : Nat
deriving DecidableEq, Repr

/-- A joiner's progress (R301). -/
structure MeshJoin where
  /-- Candidates not yet tried, best first; the first is being tried. -/
  cands : List Nat
  tries : Nat
  nonce : Nat
deriving DecidableEq, Repr

/-- What a frame is to hold (R280 to R287). -/
structure MOut where
  dst : Nat
  ty : Nat
  /-- The version, where it is not the one that `dst` takes. -/
  ver : Option Nat := none
  pri : Bool := false
  ack : Bool := true
  sec : Bool := true
  jkey : Bool := false
  nt : Nat := 0
  hop : Nat := 64
  fdst : Nat := 0
  orig : Nat := 0
  fseq : Nat := 0
  route : List Nat := []
  jt : Option Nat := none
  body : List Byte
deriving DecidableEq, Repr

/-- What the layer does once the link engine is off, since the registers it changes take no write before (R17, R272): listen
on the join channel, take a beacon's time, enter the mesh under a parent as a router, run as the root. -/
inductive MeshOff where
  | listen
  | sync (start asn slotLen txoff tack : Nat)
  | enter (parent : Nat)
  | root
deriving DecidableEq, Repr

/-- A step of the layer's work on its flash area: a sector erased, a word programmed, and what follows a word: the mark of
key `k` is recorded in the word at `a`. -/
inductive MeshFlash where
  | erase (base : Nat)
  | prog (a w : Nat)
  | mark (k v a : Nat)
deriving DecidableEq, Repr

/-- What follows when the key store has written the slot that an UNWRAP of the layer fills: the join goes on, KEY_NEXT is
answered, a tap body is taken. -/
inductive MeshKeyJob where
  | join (parent addr epoch advint sf1 : Nat)
  | keyNext (src : CmdFrom) (token epoch : Nat)
  | tap (body : List Byte)
deriving DecidableEq, Repr

/-- A frame's body delivered to the layer itself: originator, NT, TYPE and, of a JOIN frame, JT. -/
structure MeshItem where
  orig : Nat
  nt : Nat
  ty : Nat
  jt : Nat
  body : List Byte
deriving DecidableEq, Repr

/-- The mesh layer's settings, tables and output.  Where the spec leaves the value to the layer, the
defaults are the model's.
[DESIGN CHOICE, unsafe: notes/assumptions/121] -/
structure Mesh where
  /-- 0 node, 1 router, 2 root. -/
  role : Nat := 0
  /-- The credentials of R299: mesh ID, 0 with none; join channel FREQ, MMODE and MSET; the address to ask for. -/
  cred : Nat := 0
  joinFreq : Nat := 0
  joinMode : Nat := 1
  joinSet : Nat := 0
  reqAddr : Nat := 0xFFFF
  jslot : Nat := 4
  nslot0 : Nat := 5
  nslot1 : Nat := 6
  /-- The profile slot of the join channel and of the mesh's cells. -/
  prof : Nat := 0
  /-- The layer runs: from the end of the boot, with credentials. -/
  up : Bool := false
  /-- The node has taken an address and a key (R304 steps 1 to 6), and the root has recorded its ADVERT. -/
  member : Bool := false
  joined : Bool := false
  epoch : Nat := 0
  /-- The network-key slots that the node has stopped using (R317). -/
  left : List Bool := [false, false]
  /-- A KEY_SWITCH that waits: epoch and ASN. -/
  switch : Option (Nat × Nat) := none
  /-- When the node takes its ADVERT as recorded, where only a router acknowledged it (R304). -/
  joinedAt : Option Nat := none
  /-- LEAVE has been answered, and the answer is on its way (R317). -/
  leaving : Bool := false
  /-- FCNT of epoch 0, epoch 1 and the join key, the marks recorded in flash, and frames that wait for a mark. -/
  fcnt : List Nat := [0, 0, 0]
  marks : List Nat := [0, 0, 0]
  held : List MOut := []
  /-- REQUESTs, with the parent that relayed them, whose RESPONSE waits for the join key's mark (R303). -/
  heldJoin : List (Nat × List Byte) := []
  replay : List MeshReplay := []
  dsn : Nat := 0
  fseqLast : Option Nat := none
  /-- The root's FSEQ (R315). -/
  fseq : Nat := 0
  aseq : Nat := 0
  advint : Nat := 60
  sfSize : Nat := 0
  sf1Size : Nat := 0
  planId : Nat := 0
  /-- The plan that a parent is asked for: its PLANID and the next page (R304 step 6). -/
  planNew : Option (Nat × Nat) := none
  peers : List MeshPeer := []
  /-- Parents' addresses, the preferred one first. -/
  parents : List Nat := []
  /-- The parents before their last change, in order (R310). -/
  before : List Nat := []
  rank : Nat := 0xFFFF
  hops : Nat := 0
  /-- A link quality has changed: the parents are to be looked at again. -/
  recheck : Bool := false
  /-- When the node was left without parents (R308). -/
  orphanAt : Option Nat := none
  children : List MeshChild := []
  join : Option MeshJoin := none
  /-- Joiners whose REQUEST went through here, and the version of that REQUEST. -/
  joiners : List (Nat × Nat) := []
  /-- The sender whose beacons a joiner synchronised to. -/
  syncSrc : Option Nat := none
  /-- When a collection of beacons ends, the wait for a DELIVER, and the interval to the next ADVERT. -/
  collectAt : Option Nat := none
  joinAt : Option Nat := none
  advertAt : Option Nat := none
  /-- The ASN that the beacon in the queue is built for, and its buffer. -/
  beaconFor : Option (Nat × Nat) := none
  /-- The root's: JOINOPEN, the roles it refuses, addresses given and not yet in the register in flash, the route table's
  SRAM address. -/
  joinOpen : Bool := false
  refuse : Nat := 0
  addrs : List (Nat × Nat) := []
  rtBase : Nat := 0x30000
  /-- What waits for the link engine to be off, for the flash, for the key store and its outcome. -/
  offJobs : List MeshOff := []
  todo : List MeshFlash := []
  keyJob : Option MeshKeyJob := none
  keyDone : Option Nat := none
  /-- Bodies for the layer itself, and frames returned with NO_ACK with their transmissions. -/
  inbox : List MeshItem := []
  returns : List (List Byte × Nat) := []
  /-- Frames built: next hop and octets (the model's own output). -/
  sent : List (Nat × List Byte) := []
  /-- What was delivered to the application: originator, TYPE and body. -/
  delivered : List (Nat × Nat × List Byte) := []
  /-- Outcomes counted, by code. -/
  counts : List (Nat × Nat) := []
  reason : Nat := 0
deriving DecidableEq, Repr

/-! ### The contactless block (spec/12) -/

/-- The tag's state of ISO/IEC 14443-3 and -4. -/
inductive TagSt where
  | off | idle | ready (level : Nat) | active | halt | iso4
deriving DecidableEq, Repr

/-- A file the tag has selected. -/
inductive TagFile where
  | none | cc | ndef
deriving DecidableEq, Repr

/-- A mailbox write in progress (R364): words not yet programmed, and the VNFC levels its checks find. -/
structure MboxWrite where
  slot : Nat
  next : Nat
  words : List Word
  levels : List Nat
  rtype : Nat
  seq : Nat
  stamp : Stamp
  /-- In battery mode: when the answer is so late that the tag asks for more time (R357). -/
  wtxAt : Option Nat := none
deriving DecidableEq, Repr

/-- What the reader does. -/
inductive RdPhase where
  | off
  /-- A round waits for its grant. -/
  | claim
  /-- The field is on and its 5.1 ms run. -/
  | guard
  | reqa | anti | select | rats
  /-- The field is on, with no card in ISO/IEC 14443-4. -/
  | field
  | card
  | xchg
  | desel
  /-- A ping waits for its grant, or runs. -/
  | pingClaim
  | ping
deriving DecidableEq, Repr

structure Reader where
  ph : RdPhase := .off
  due : Option Nat := none
  retries : Nat := 0
  found : Nat := 0
  level : Nat := 1
  /-- The known UID bits of the level, bit 0 the first sent. -/
  known : Nat := 0
  nbits : Nat := 0
  uid : List Byte := []
  atqa : Nat := 0
  sak : Nat := 0
  /-- The stamp of the SAK of a UID entry that waits for its ATS. -/
  stamp : Option Stamp := none
  ats : List Byte := []
  /-- The command octets not yet sent, the response so far, the block number, the last PCB. -/
  txRest : List Byte := []
  rx : List Byte := []
  blk : Bool := false
  pcb : Nat := 0
  /-- The last frame sent (the model's own output), and when its last bit is on the antenna (R29). -/
  sent : List Byte := []
  frameEnd : Nat := 0
  /-- No frame begins before this: the card's start-up frame guard time (R373). -/
  ready : Nat := 0
  /-- The last I-block sent, for its repetition (R373). -/
  lastI : List Byte := []
  /-- FIELDOFF waits for the safe point (R373). -/
  close : Bool := false
  /-- The stamp requested at that end, for the entry of a failure (R376, R604). -/
  endStamp : Option Stamp := none
  /-- A detection started the round: the ping's amplitude and phase. -/
  auto : Option (Nat × Nat) := none
deriving DecidableEq, Repr

structure Nfc where
  /-- VAON is not established: the harvest path alone runs (R353). -/
  harvest : Bool := false
  /-- The field on the antenna is an outside one's. -/
  raw : Bool := false
  tag : TagSt := .off
  rnd : List Byte := []
  app : Bool := false
  file : TagFile := .none
  /-- A reply that waits for its grant, and the last one sent (the model's own output). -/
  reply : Option (List Byte) := none
  replyAt : Nat := 0
  sent : List Byte := []
  /-- The tag's ISO/IEC 14443-4 layer (R352): the number of its last block, the reader's FSD, the I-blocks of an answer still to
  send, and when the next one goes. -/
  blk : Bool := true
  fsd : Nat := 256
  chain : List (List Byte) := []
  chainAt : Nat := 0
  mbox : Option MboxWrite := none
  rd : Reader := {}
  /-- VAON came up during a write of harvest mode: the chip boots when the record is complete (R369). -/
  booting : Bool := false
  /-- POLL was written during a ping: the round follows it. -/
  pollNext : Bool := false
  /-- The next ping, in 1/125 of an STB tick (R374). -/
  pingNext : Option Nat := none
  /-- The pings since the enable that set the baseline: amplitudes and phases. -/
  first : List (Nat × Nat) := []
deriving DecidableEq, Repr

/-! ### Host port, service port, boot and loader (spec/19, spec/20) -/

/-- A fetch that is queued (R540); `behind` counts the posted words to perform before it. -/
structure HostFetch where
  fixed : Bool
  n : Nat
  addr : Nat
  behind : Nat
deriving DecidableEq, Repr

structure HostPort where
  /-- Posted words, oldest first (R541). -/
  posts : List (Nat × Word) := []
  fetch : Option HostFetch := none
  /-- The words of the last transfer's HDO, and in version 1 its octets (the model's own output). -/
  hdo : List Word := []
  octs : List Byte := []
deriving DecidableEq, Repr

structure SvcPort where
  /-- A request began that the port lost (R551). -/
  lost : Bool := false
  /-- A request answered WAIT, and its result: ACK and words (R552). -/
  held : Option (List Nat × Nat × List Word) := none
  /-- The last ACK and response words (the model's own output). -/
  ack : Nat := 0
  resp : List Word := []
  /-- When SVC_CK last moved. -/
  edgeAt : Nat := 0
deriving DecidableEq, Repr

/-- Who serves the loader control block (R569). -/
inductive LdrWho where
  | off | rom | vole
deriving DecidableEq, Repr

/-- What the loader waits for the flash controller to do; `code` is PROTECTED where a sector stops an
erase. -/
inductive LdrJob where
  | idle | erase (code : Nat) | data (n : Nat) | header | streamErase (code : Nat) | streamData | clean
deriving DecidableEq, Repr

structure Ldr where
  who : LdrWho := .off
  job : LdrJob := .idle
  /-- The SEQ of the command in hand. -/
  seq : Nat := 0
  /-- The header held since BEGIN, and whether Vole is the target. -/
  hdr : Option (List Nat) := none
  vole : Bool := false
  /-- BEGIN's first erase pulse has come and COMMIT has not completed (R578). -/
  started : Bool := false
  /-- Vole waits until a reset. -/
  parked : Bool := false
  lastCmd : Nat := 0
deriving DecidableEq, Repr

/-- How far a boot has come: steps 4 to 7 run at once but for the settings area; then the releases. -/
inductive BootPh where
  | idle
  /-- The ROM samples BOOTSEL (R558): when the next sample falls, how many were taken, and whether all were low. -/
  | bootsel (due taken : Nat) (low : Bool)
  /-- The ROM resets the settings area; `code` is PROTECTED where a sector stops it. -/
  | settings (code : Nat)
  | release | dead
deriving DecidableEq, Repr

structure Boot where
  ph : BootPh := .idle
  todo : List Core := []
  /-- The claim of the next core to release has its grant. -/
  granted : Bool := false
  p0low : Bool := false
  warm : Bool := false
  /-- FLC_INTR as it read at step 1. -/
  intr : Word := 0
deriving DecidableEq, Repr

/-- Everything but the queue of waiting commands.
[DESIGN CHOICE, unsafe: notes/assumptions/1] [DESIGN CHOICE, safe: notes/assumptions/152] -/
structure Chip where
  /-- Real time in periods of HF-REF, 1/32,000,000 s (the model's own clock). -/
  now : Nat := 0
  /-- The counter that free values are drawn with (the model's own field). -/
  free : Nat := 0
  /-- The registers that differ from their reset values. -/
  regs : Cells := []
  sram : Cells := []
  /-- Words of SRAM that hold an uncorrectable error (R497), and flash words that hold a single-bit error and that hold an
  uncorrectable one (R507).  No command of the table brings an error.
  [DESIGN CHOICE, unsafe: notes/assumptions/179] -/
  sramErr : List Nat := []
  flashOne : List Nat := []
  flashErr : List Nat := []
  /-- The SRAM accesses of the cycle in hand: its time, and the agent and bank of each (R472). -/
  busAt : Nat := 0
  busUse : List (Agent × Nat) := []
  /-- How often each SRAM bank has lost power (the model's own field). -/
  sramLost : List Nat := List.replicate 16 0
  flash : Cells := []
  /-- Flash words, each with the value asked for, and sectors by their base, that a pulse in progress, cut or failed left
  undefined. -/
  flashBad : List (Nat × Word) := []
  flashBadSec : List Nat := []
  otp : Cells := []
  mirror : Cells := []
  /-- What the last register read returned (the model's own output). -/
  rdata : Word := 0
  /-- The stamp that a bare request of the stamp unit was last given, and for which item (the model's own output). -/
  stamped : Option (StampItem × Stamp) := none
  owl : Owl := {}
  cfg : StreamCfg := {}
  clk : Clocks := {}
  pins : Pins := {}
  pwr : Power := {}
  bear : Bear := {}
  mon : Monitor := {}
  icu : Icu := {}
  evr : Evr := {}
  out : Outbox := {}
  cores : Cores := {}
  tmr : Timers := {}
  flc : Flc := {}
  cph : Cph := {}
  syn : Syn := {}
  lnk : Lnk := {}
  /-- Blocks whose EN reads 0 and that run on to their safe point (R16). -/
  stopping : List Block := []
  mesh : Mesh := {}
  nfc : Nfc := {}
  hp : HostPort := {}
  svc : SvcPort := {}
  ldr : Ldr := {}
  boot : Boot := {}
deriving DecidableEq, Repr

/-- The state: the chip, and the commands that wait, first in, first out. -/
structure State where
  pending : List Instr := []
  chip : Chip := {}
deriving DecidableEq, Repr

/-- The machine right after power-on reset: every register at its reset value, nothing in memory.
[DESIGN CHOICE, unsafe: notes/assumptions/1] [DESIGN CHOICE, unsafe: notes/assumptions/10] -/
def State.reset : State := { pending := [], chip := {} }

end Sys2Proof.Machine
end

