-- ==== Sys2Proof/Machine/Ops.lean ====
section
/-!
DEFINITION. The named operations every meaning is built from: registers and their fields, SRAM words
and octets, free values, time and stamps.
-/
namespace Sys2Proof

/-- The OWNER code of an agent: 0 Fox A, 1 Fox B, 2 Badger, 3 host; the service port master has none. -/
def Agent.code : Agent → Nat
  | .foxA => 0 | .foxB => 1 | .badger => 2 | .host => 3 | .svc => 4

def Agent.ofCode : Nat → Agent
  | 0 => .foxA | 1 => .foxB | 2 => .badger | _ => .host

def Core.agent : Core → Agent
  | .foxA => .foxA | .foxB => .foxB | .badger => .badger

/-- CID, which is also the ICU target and the claimant of the core (R413, R128). -/
def Core.cid : Core → Nat
  | .foxA => 0 | .foxB => 1 | .badger => 2

def Core.ofCid : Nat → Core
  | 0 => .foxA | 1 => .foxB | _ => .badger

end Sys2Proof

namespace Sys2Proof.Machine

/-! ### Registers -/

/-- The bits `hi` down to `lo` as a mask. -/
def maskOf (hi lo : Nat) : Word := (BitVec.allOnes 36 >>> (35 - (hi - lo))) <<< lo

/-- The stored word of register `a`.
[DESIGN CHOICE, safe: notes/assumptions/151] -/
def Chip.reg (s : Chip) (a : Nat) : Word := Cells.get regReset s.regs a

/-- Store `v` in register `a`.
[DESIGN CHOICE, safe: notes/assumptions/151] -/
def Chip.setReg (s : Chip) (a : Nat) (v : Word) : Chip := { s with regs := Cells.set regReset s.regs a v }

/-- Field `f` of a word. -/
def Fld.of (f : Fld) (w : Word) : Nat := ((w &&& maskOf f.hi f.lo) >>> f.lo).toNat

/-- The word with field `f` replaced. -/
def Fld.put (f : Fld) (w : Word) (v : Nat) : Word :=
  (w &&& ~~~ maskOf f.hi f.lo) ||| ((BitVec.ofNat 36 v <<< f.lo) &&& maskOf f.hi f.lo)

/-- The value of a field. -/
def Chip.fld (s : Chip) (f : Fld) : Nat := f.of (s.reg f.addr)

/-- A one-bit field. -/
def Chip.bit (s : Chip) (f : Fld) : Bool := s.fld f != 0

/-- Set a field to `v`, modulo its width. -/
def Chip.setFld (s : Chip) (f : Fld) (v : Nat) : Chip := s.setReg f.addr (f.put (s.reg f.addr) v)

/-- Set a one-bit field. -/
def Chip.setBit (s : Chip) (f : Fld) (b : Bool) : Chip := s.setFld f b.toNat

/-- Post a reason code in the REASON field, bits 7 to 0, of status register `stat` (R14, R18). -/
def Chip.setReason (s : Chip) (stat code : Nat) : Chip := s.setFld ⟨stat, 7, 0⟩ code

/-- Count in a field, saturating at its largest value. -/
def Chip.count (s : Chip) (f : Fld) (n : Nat := 1) : Chip :=
  s.setFld f (min (s.fld f + n) (2 ^ (f.hi + 1 - f.lo) - 1))

/-- Bits of a natural number. -/
def bits (w hi lo : Nat) : Nat := (w >>> lo) % 2 ^ (hi + 1 - lo)
def bitOf (w i : Nat) : Bool := w.testBit i

/-- `w` with bit `i` set to `b`. -/
def putBit (w i : Nat) (b : Bool) : Nat := if b then w ||| 1 <<< i else if w.testBit i then w - 1 <<< i else w

/-- A two's complement value of `n` bits. -/
def signed (n v : Nat) : Int := if v < 2 ^ (n - 1) then (v : Int) else (v : Int) - 2 ^ n

/-- The `n`-bit two's complement code of a value, wrapping. -/
def unsigned (n : Nat) (v : Int) : Nat := (v % (2 ^ n : Int)).toNat

/-- Replace element `i` of a list. -/
def setAt {α : Type} (l : List α) (i : Nat) (v : α) : List α := l.set i v

/-! ### Free values -/

/-- Draw a fresh number for a free value. -/
def Chip.draw (s : Chip) : Chip := { s with free := s.free + 1 }

/-! ### Memory -/

/-- The SRAM bank of a word address (R496). -/
def bankOf (a : Nat) : Nat := (a - 0x10000) / 0x4000

/-- SRAM spans 0x010_000 to 0x04F_FFF (R493). -/
def isSram (a : Nat) : Bool := 0x10000 ≤ a && a < 0x50000

/-- What an SRAM word reads as that nothing has written since its bank lost power (R496). -/
def Chip.sramDefault (s : Chip) (a : Nat) : Word := Config.sramUndef (s.sramLost.getD (bankOf a) 0) a

/-- Read an SRAM word. -/
def Chip.rd (s : Chip) (a : Nat) : Word := Cells.get s.sramDefault s.sram a

/-- Write an SRAM word, with its check bits; outside SRAM nothing is written. -/
def Chip.wr (s : Chip) (a : Nat) (v : Word) : Chip :=
  if isSram a then { s with sram := Cells.setU s.sram a v, sramErr := s.sramErr.filter (· ≠ a) } else s

/-- Write words at consecutive addresses. -/
def Chip.wrs (s : Chip) (a : Nat) : List Word → Chip
  | [] => s
  | v :: l => (s.wr a v).wrs (a + 1) l

/-- Read `n` consecutive words. -/
def Chip.rds (s : Chip) (a : Nat) : Nat → List Word
  | 0 => []
  | n + 1 => s.rd a :: s.rds (a + 1) n

/-- Octet `b mod 4` of a word; octets lie at [7:0], [15:8], [23:16], [31:24] (R323). -/
def octetOf (w : Word) (i : Nat) : Byte := BitVec.ofNat 8 (w.toNat >>> (8 * i))

/-- A word with one octet replaced. -/
def putOctet (w : Word) (i : Nat) (b : Byte) : Word :=
  let n := w.toNat
  let old := (n >>> (8 * i)) % 256
  W (n - old <<< (8 * i) + b.toNat <<< (8 * i))

/-- The octet at byte address `a` = 4 × word + octet (R9, R499). -/
def Chip.rdB (s : Chip) (a : Nat) : Byte := octetOf (s.rd (a / 4)) (a % 4)

/-- Write one octet. -/
def Chip.wrB (s : Chip) (a : Nat) (b : Byte) : Chip := s.wr (a / 4) (putOctet (s.rd (a / 4)) (a % 4) b)

/-- Read `n` octets from byte address `a`. -/
def Chip.rdBs (s : Chip) (a : Nat) : Nat → List Byte
  | 0 => []
  | n + 1 => s.rdB a :: s.rdBs (a + 1) n

/-- Write octets from byte address `a`. -/
def Chip.wrBs (s : Chip) (a : Nat) : List Byte → Chip
  | [] => s
  | b :: l => (s.wrB a b).wrBs (a + 1) l

/-- Whether `n` octets from byte address `a` all lie in SRAM (R324, R499). -/
def sramSpan (a n : Nat) : Bool := 0x40000 ≤ a && a + n ≤ 0x140000

/-- Flash spans 0x100_000 to 0x1FF_FFF (R493).  The journals of the banks and the protection row lie
outside the address space; the model numbers their words above it. -/
def isFlash (a : Nat) : Bool := 0x100000 ≤ a && a < 0x200000
def journalBase (bank : Nat) : Nat := 0x1000000 + 0x400 * bank
def protBase : Nat := 0x1001000

/-- The bank of a flash word: 0 for A, 1 for B. -/
def flashBank (a : Nat) : Nat := if (0x180000 ≤ a && a < 0x200000) || (0x1000400 ≤ a && a < 0x1001000) then 1 else 0

/-- The base of a word's sector. -/
def sectorBase (a : Nat) : Nat := a / 1024 * 1024

/-- An erased word. -/
def erasedWord : Word := W 0xFFFFFFFFF

/-- A flash word as its cells stand.
[DESIGN CHOICE, unsafe: notes/assumptions/10] -/
def flashDefault (_ : Nat) : Word := erasedWord
/-- The value asked for of a word whose program is in progress, was cut or failed. -/
def Chip.flashAsked (s : Chip) (a : Nat) : Option Word := (s.flashBad.find? (fun e => e.1 = a)).map Prod.snd
def Chip.flashUndefAt (s : Chip) (a : Nat) : Bool := (s.flashAsked a).isSome || s.flashBadSec.contains (sectorBase a)

/-- A value other than the erased word and than `v`: `w` where it is one. -/
def neitherOf (v w : Word) : Word := if w ≠ erasedWord ∧ w ≠ v then w else if v = 0 then 1 else 0

/-- What a flash word reads as: a word whose program was cut or failed is neither erased nor the value asked for (R512). -/
def Chip.flashRd (s : Chip) (a : Nat) : Word :=
  match s.flashAsked a with
  | some v => neitherOf v (Config.flashUndef s.free a)
  | none => if s.flashBadSec.contains (sectorBase a) then Config.flashUndef s.free a else Cells.get flashDefault s.flash a

/-- A read of the flash word finds an uncorrectable error, or a single-bit error (R507, R518). -/
def Chip.flashErrAt (s : Chip) (a : Nat) : Bool := s.flashErr.contains a || (s.flashUndefAt a && Config.flashUndefTraps s.free a)
def Chip.flashOneAt (s : Chip) (a : Nat) : Bool := s.flashOne.contains a || (s.flashUndefAt a && Config.flashUndefOne s.free a)

/-- Read `n` consecutive flash words. -/
def Chip.flashRds (s : Chip) (a : Nat) : Nat → List Word
  | 0 => []
  | n + 1 => s.flashRd a :: s.flashRds (a + 1) n

/-- OTP word `i`; unprogrammed bits read 0 (R501). -/
def zeroWord (_ : Nat) : Word := 0
def Chip.otpRd (s : Chip) (i : Nat) : Word := Cells.get zeroWord s.otp i

/-! ### Agents -/

/-- Whether `ag` may act as the owner coded `o`; the service port master always may (R87, R430). -/
def owns (ag : Agent) (o : Nat) : Bool := ag.code = o || ag = .svc

/-- SSM_LOCK bit n (R66).
[DEDUCED, unsafe: notes/assumptions/14] -/
def Chip.lockedSec (s : Chip) (n : Nat) : Bool := bitOf (s.reg R.SSM_LOCK).toNat n

/-- Bit n of PROV: the stream provisioned the domain (R55). -/
def Chip.prov (s : Chip) (n : Nat) : Bool := bitOf s.cfg.prov n

/-- The state of a core, and its replacement. -/
def Chip.core (s : Chip) : Core → CoreSt
  | .foxA => s.cores.foxA | .foxB => s.cores.foxB | .badger => s.cores.badger

def Chip.setCore (s : Chip) (c : Core) (x : CoreSt) : Chip :=
  match c with
  | .foxA => { s with cores := { s.cores with foxA := x } }
  | .foxB => { s with cores := { s.cores with foxB := x } }
  | .badger => { s with cores := { s.cores with badger := x } }

def allCores : List Core := [.foxA, .foxB, .badger]

/-! ### Time -/

/-- HF-REF periods in a number of microseconds. -/
def us (n : Nat) : Nat := 32 * n
def msec (n : Nat) : Nat := 32000 * n
def secs (n : Nat) : Nat := 32000000 * n

/-- How many AON-LF edges have passed by time `t`: 32,768 Hz from the crystal, nominally 32,000 Hz
from AON-RC (R22, R401).
[DESIGN CHOICE, unsafe: notes/assumptions/11] -/
def Chip.lfIdx (s : Chip) (t : Nat) : Nat := if s.clk.lfRc then t / 1000 else (t - s.clk.lfPhase) * 16 / 15625

/-- The time of AON-LF edge `k`, to the HF-REF period in which it falls. -/
def Chip.lfTimeI (s : Chip) (k : Int) : Int := if s.clk.lfRc then k * 1000 else s.clk.lfPhase + (k * 15625 + 15) / 16
def Chip.lfTime (s : Chip) (k : Nat) : Nat := (s.lfTimeI k).toNat

/-- The time of the LF tick `k` ticks ahead; `k = 0` is now. -/
def Chip.tickAhead (s : Chip) (k : Nat) : Nat := if k = 0 then s.now else s.lfTime (s.lfIdx s.now + k)

/-- The first tick count ahead whose time is at or after `t`. -/
def Chip.ticksTo (s : Chip) (t : Nat) : Nat :=
  if t ≤ s.now then 0 else
  let k := s.lfIdx t
  (if s.lfTime k < t then k + 1 else k) - s.lfIdx s.now

/-- STB_LO: the low 36 bits of the system time base (R383). -/
def Chip.stbLo (s : Chip) : Nat := s.owl.stb % 2 ^ 36

/-- STB of the instant `t`, past or ahead, counted in 72 bits. -/
def Chip.stbAt (s : Chip) (t : Nat) : Nat :=
  (((s.owl.stb : Int) + s.lfIdx t - s.lfIdx s.now) % (2 ^ 72 : Int)).toNat

/-- The time, from now on, at which STB_LO reads `lo` next. -/
def Chip.timeOfLo (s : Chip) (lo : Nat) : Nat := s.tickAhead ((lo + 2 ^ 36 - s.stbLo) % 2 ^ 36)

/-! ### The stamp unit (R29 to R34) -/

/-- The tick that an instant lies in, counted from the present one, and the edge that begins it.  The present tick began at
the last edge given, whatever source AON-LF has taken since (R31, R384).
[DEDUCED, unsafe: notes/assumptions/155] -/
def Chip.tickOf (s : Chip) (t : Nat) : Int × Nat :=
  if t < s.owl.edgeAt then (-(max 1 (s.lfIdx s.owl.edgeAt - s.lfIdx t) : Nat), s.lfTime (s.lfIdx t))
  else if t ≤ s.now || s.lfIdx t = s.lfIdx s.now then (0, s.owl.edgeAt)
  else ((s.lfIdx t - s.lfIdx s.now : Nat), s.lfTime (s.lfIdx t))

/-- STB_LO, FINE and FV of an instant (R31). -/
def Chip.stampTime (s : Chip) (t : Nat) : Nat × Bool × Nat :=
  if !s.owl.edged then (0, false, 0)
  else
    let (d, e) := s.tickOf t
    let lo := (((s.owl.stb : Int) + d) % (2 ^ 36 : Int)).toNat
    if !s.clk.hfOn then (lo, false, s.clk.fineHeld)
    else if s.clk.hfSince ≤ e then (lo, true, t - e) else (lo, false, s.clk.fineHeld + (t - s.clk.hfSince))

/-- Take a stamp for the instant `t`: the next SEQ, and the time of the instant (R32, R33). -/
def Chip.stamp (s : Chip) (t : Nat) : Stamp × Chip :=
  let q := (s.owl.seq + 1) % 2 ^ 24
  let (lo, fv, fine) := s.stampTime t
  ({ lo := lo, seq := q, fv := fv, fine := fine }, { s with owl := { s.owl with seq := q } })

/-- The two words of a stamp (R30). -/
def Stamp.words (p : Stamp) : List Word :=
  [W p.lo, W (p.seq <<< 12 ||| p.fv.toNat <<< 11 ||| p.fine)]

/-- Whether item `a` precedes item `b` (R35). -/
def Stamp.before (a b : Stamp) : Bool :=
  let d := (b.lo + 2 ^ 36 - a.lo) % 2 ^ 36
  if d ≠ 0 then d < 2 ^ 35
  else if a.fine ≠ b.fine then a.fine < b.fine
  else
    let q := (b.seq + 2 ^ 24 - a.seq) % 2 ^ 24
    q ≠ 0 && q < 2 ^ 23

/-! ### Outcomes -/

/-- The one way a meaning ends: the chip's next state, the queue as it stands. -/
def State.onChip (s : State) (f : Chip → Chip) : State := { s with chip := f s.chip }

/-- A command whose effect on the chip is `f`. -/
def act (f : Chip → Chip) (s : State) : Host.Outcome State Fault Refusal := .next (s.onChip f)

end Sys2Proof.Machine
end

