-- ==== Sys2Proof/Machine/Flags.lean ====
section
/-!
DEFINITION. The arithmetic of the J36 core and the flags it sets (spec/15 R444 to R449, spec/16 R474
to R482): pure functions of the operands and of ST.
-/
namespace Sys2Proof.Machine

/-! ### ST (R442) -/

/-- Bit `i` of ST. -/
def stBit (st : Word) (i : Nat) : Bool := st.getLsbD i

/-- ST with bit `i` set to `b`. -/
def stSet (st : Word) (i : Nat) (b : Bool) : Word :=
  if b then st ||| (1#36 <<< i) else st &&& ~~~ (1#36 <<< i)

namespace St
def N : Nat := 0
def Z : Nat := 1
def C : Nat := 2
def V : Nat := 3
def S : Nat := 4
def D : Nat := 5
def G : Nat := 6
def IE : Nat := 7
def SAT : Nat := 10
def TH : Nat := 21
end St

/-- The bits of ST that exist; the others read 0 (R442). -/
def stMask : Word := 0x3FF7FF#36

/-- ST.RND. -/
def stRnd (st : Word) : Nat := bits st.toNat 9 8

/-- ST.NC. -/
def stNc (st : Word) : Nat := bits st.toNat 20 12

/-- ST with NC replaced. -/
def stPutNc (st : Word) (nc : Nat) : Word := (st &&& ~~~ (0x1FF#36 <<< 12)) ||| (BitVec.ofNat 36 (nc % 512) <<< 12)

/-- N and Z from a result (R474). -/
def setNZ (st : Word) (r : Word) : Word := stSet (stSet st St.N r.msb) St.Z (r == 0#36)

/-! ### Binary arithmetic, logic and shifts (R477, R478) -/

/-- A + M + carry with N, Z, C and V. -/
def addc (a m : Word) (cin : Bool) (st : Word) : Word × Word :=
  let r := a + m + BitVec.ofNat 36 cin.toNat
  let c := decide (2 ^ 36 ≤ a.toNat + m.toNat + cin.toNat)
  let v := decide (r.toInt ≠ a.toInt + m.toInt + cin.toNat)
  (r, stSet (stSet (setNZ st r) St.C c) St.V v)

/-- A − M − borrow with N, Z, C and V. -/
def subb (a m : Word) (bin : Bool) (st : Word) : Word × Word :=
  let r := a - m - BitVec.ofNat 36 bin.toNat
  let c := decide (a.toNat < m.toNat + bin.toNat)
  let v := decide (r.toInt ≠ a.toInt - m.toInt - bin.toNat)
  (r, stSet (stSet (setNZ st r) St.C c) St.V v)

/-- A result with N and Z only. -/
def logic (r : Word) (st : Word) : Word × Word := (r, setNZ st r)

/-- The count of a shift: M[5:0], where 37 to 63 act as 36. -/
def shiftCount (m : Word) : Nat := min (bits m.toNat 5 0) 36

/-- A shift result with N and Z, and C from `c` unless the count is 0. -/
def shifted (r : Word) (c : Bool) (k : Nat) (st : Word) : Word × Word :=
  (r, if k = 0 then setNZ st r else stSet (setNZ st r) St.C c)

def shl (a m st : Word) : Word × Word :=
  let k := shiftCount m
  shifted (a <<< k) (a.getLsbD (36 - k)) k st

def shr (a m st : Word) : Word × Word :=
  let k := shiftCount m
  shifted (a >>> k) (a.getLsbD (k - 1)) k st

def sha (a m st : Word) : Word × Word :=
  let k := shiftCount m
  shifted (a.sshiftRight k) (a.getLsbD (k - 1)) k st

def rol (a m st : Word) : Word × Word :=
  let k := shiftCount m % 36
  let r := a.rotateLeft k
  shifted r (r.getLsbD 0) k st

def ror (a m st : Word) : Word × Word :=
  let k := shiftCount m % 36
  let r := a.rotateRight k
  shifted r (r.getLsbD 35) k st

/-! ### Fractions (R445, R446, R479) -/

/-- Round `n / 2^k` by ST.RND (R446). -/
def roundDiv (rnd : Nat) (n : Int) (k : Nat) : Int :=
  let d : Int := 2 ^ k
  match rnd with
  | 0 => n / d
  | 1 => (2 * n + d) / (2 * d)
  | 2 =>
    let q := n / d
    let r := 2 * (n % d)
    if r < d then q else if d < r then q + 1 else if q % 2 = 0 then q else q + 1
  | _ => n.tdiv d

/-- Limit `x` to between `lo` and `hi`. -/
def clampInt (lo hi x : Int) : Int := if x < lo then lo else if hi < x then hi else x

/-- The exact result `n / 2^k` rounded and limited, with F: N, Z, G, V and S (R445). -/
def fracResult (n : Int) (k : Nat) (st : Word) : Word × Word :=
  let x := roundDiv (stRnd st) n k
  let x1 := clampInt (-2 ^ 35) (2 ^ 35 - 1) x
  let x2 := if stBit st St.SAT then clampInt (-2 ^ 31) (2 ^ 31 - 1) x1 else x1
  let r := BitVec.ofInt 36 x2
  let g := decide (n < -2 ^ 31 * 2 ^ k ∨ (2 ^ 31 - 1) * 2 ^ k < n)
  let st1 := stSet (stSet (setNZ st r) St.G g) St.V (x1 != x)
  (r, if x2 = x then st1 else stSet st1 St.S true)

/-- SATN: step 2 of R445 whatever SAT holds; V unchanged. -/
def satn (a st : Word) : Word × Word :=
  let x := a.toInt
  let r := BitVec.ofInt 36 (clampInt (-2 ^ 31) (2 ^ 31 - 1) x)
  let out := decide (x < -2 ^ 31 ∨ 2 ^ 31 - 1 < x)
  let st1 := stSet (setNZ st r) St.G out
  (r, if out then stSet st1 St.S true else st1)

/-- The count of FSHL and FSHR: M[5:0], where 36 to 63 act as 35. -/
def fshiftCount (m : Word) : Nat := min (bits m.toNat 5 0) 35

/-! ### Decimal (R447, R448) -/

/-- Digit `i` of a word. -/
def nib (w : Word) (i : Nat) : Nat := (w.toNat >>> (4 * i)) % 16

/-- Every nibble from `lo` up to `hi` is at most 9. -/
def digitsOk (w : Word) (lo hi : Nat) : Bool := (List.range (hi + 1)).all (fun i => i < lo || nib w i ≤ 9)

/-- A vector of nine bits from a predicate.
[DEDUCED, unsafe: notes/assumptions/82] -/
def ncOf (p : Nat → Bool) : Nat := (List.range 9).foldl (fun acc i => acc + (p i).toNat <<< i) 0

/-- A word from nine nibbles. -/
def ofNibs (f : Nat → Nat) : Word := W ((List.range 9).foldl (fun acc i => acc + (f i % 16) <<< (4 * i)) 0)

/-- ADDD: A + M + 0x666_666_666, nibble carries in NC, and whether an operand is invalid.
[DEDUCED, unsafe: notes/assumptions/82] -/
def addd (a m st : Word) : Word × Word × Bool :=
  let k : Nat := 0x666666666
  let r := a + m + W k
  let carry (i : Nat) : Bool :=
    decide (16 ^ (i + 1) ≤ a.toNat % 16 ^ (i + 1) + m.toNat % 16 ^ (i + 1) + k % 16 ^ (i + 1))
  let bad := !(digitsOk a 0 8 && digitsOk m 0 8)
  let st1 := stSet (stSet (stSet (setNZ st r) St.C (carry 8)) St.D (carry 8)) St.V bad
  (r, stPutNc st1 (ncOf carry), bad)

/-- SUBD: A − M, nibble borrows in NC, and whether an operand is invalid. -/
def subd (a m st : Word) : Word × Word × Bool :=
  let r := a - m
  let borrow (i : Nat) : Bool := decide (a.toNat % 16 ^ (i + 1) < m.toNat % 16 ^ (i + 1))
  let bad := !(digitsOk a 0 8 && digitsOk m 0 8)
  let st1 := stSet (stSet (stSet (setNZ st r) St.C (borrow 8)) St.D (borrow 8)) St.V bad
  (r, stPutNc st1 (ncOf borrow), bad)

/-- DAD (`want` false) and DAS (`want` true): 6 less in each nibble whose NC bit is `want`. -/
def decAdjust (want : Bool) (a st : Word) : Word :=
  ofNibs (fun i => if bitOf (stNc st) i = want then nib a i + 10 else nib a i)

/-- Z from the result, N cleared. -/
def setZclrN (st r : Word) : Word := stSet (stSet st St.N false) St.Z (r == 0#36)

/-- The value of the digits of `w` from `hi` down to `lo`. -/
def digitsVal (w : Word) (lo hi : Nat) : Nat :=
  (List.range (hi + 1)).reverse.foldl (fun acc i => if i < lo then acc else acc * 10 + nib w i) 0

/-- D2B; none is a refusal (R448). -/
def d2b (a : Word) (ds : Bool) : Option Word :=
  if ds then
    if digitsOk a 1 8 && (nib a 0 == 0xC || nib a 0 == 0xD) then
      let v : Int := digitsVal a 1 8
      some (BitVec.ofInt 36 (if nib a 0 = 0xD then -v else v))
    else none
  else if digitsOk a 0 8 then some (W (digitsVal a 0 8)) else none

/-- Digit `i` of the decimal writing of `v`. -/
def decDigit (v i : Nat) : Nat := v / 10 ^ i % 10

/-- B2D; none is a refusal (R448). -/
def b2d (a : Word) (ds : Bool) : Option Word :=
  if ds then
    let v := a.toInt
    if v.natAbs ≤ 99999999 then
      some (ofNibs (fun i => if i = 0 then (if v < 0 then 0xD else 0xC) else decDigit v.natAbs (i - 1)))
    else none
  else if a.toNat ≤ 999999999 then some (ofNibs (fun i => decDigit a.toNat i)) else none

/-! ### Check and bit (R481) -/

/-- One CRC-8 step on the octet in `c`, eight times. -/
def crcStep (poly : Nat) : Nat → Nat → Nat
  | 0, c => c
  | n + 1, c => crcStep poly n (if c.testBit 7 then (c * 2 % 256) ^^^ poly else c * 2 % 256)

def crcs (a m : Word) (poly : Nat) : Word := W (crcStep poly 8 ((a.toNat % 256) ^^^ (m.toNat % 256)))

/-- The parity of a word. -/
def parity (w : Word) : Word :=
  W ((List.range 36).foldl (fun acc i => (acc + (w.getLsbD i).toNat) % 2) 0)

/-- The low `n` bits in reverse order. -/
def brev (a : Word) (n : Nat) : Word :=
  W ((List.range n).foldl (fun acc i => acc + (a.getLsbD i).toNat <<< (n - 1 - i)) 0)

/-! ### The multiplier (R449) -/

/-- A signed or unsigned product modulo 2^72. -/
def mulSigned (a m : Word) : Nat := unsigned 72 (a.toInt * m.toInt)
def mulUnsigned (a m : Word) : Nat := a.toNat * m.toNat

/-- MHI:MLO as a 72-bit number. -/
def accOf (mhi mlo : Word) : Nat := mhi.toNat * 2 ^ 36 + mlo.toNat
def accHi (v : Nat) : Word := W (v / 2 ^ 36)
def accLo (v : Nat) : Word := W v

/-- FPR: MHI:MLO rounded from 62 to 31 fraction bits and limited. -/
def fprResult (mhi mlo st : Word) : Word × Word := fracResult (signed 72 (accOf mhi mlo)) 31 st

/-! ### Branch conditions (R485) -/

/-- Whether condition `cc` holds in ST. -/
def condHolds (cc : Nat) (st : Word) : Bool :=
  let n := stBit st St.N
  let z := stBit st St.Z
  let c := stBit st St.C
  let v := stBit st St.V
  match cc with
  | 0x0 => true | 0x1 => stBit st St.D | 0x2 => z | 0x3 => !z | 0x4 => n | 0x5 => !n | 0x6 => c | 0x7 => !c
  | 0x8 => v | 0x9 => !v | 0xA => !c && !z | 0xB => c || z | 0xC => n == v | 0xD => n != v
  | 0xE => !z && n == v | _ => z || n != v

end Sys2Proof.Machine
end

