-- ==== Sys2Proof/Machine/Pads.lean ====
section
/-!
DEFINITION. General pins: meanings, input levels and output latches (spec/03 R72 to R92).
-/
namespace Sys2Proof.Machine

-- Meaning codes (R78).
namespace Mean
def OFF : Nat := 0x00
def GPIO : Nat := 0x01
def WAKE_RISE : Nat := 0x02
def WAKE_FALL : Nat := 0x03
def BOOTSEL : Nat := 0x04
def HIRQ : Nat := 0x05
def RECIND : Nat := 0x06
def FDET : Nat := 0x07
def SQW : Nat := 0x08
def HCS : Nat := 0x09
def HCK : Nat := 0x0A
def HDI : Nat := 0x0B
def HDO : Nat := 0x0C
def CX_REQ : Nat := 0x0D
def CX_PRI : Nat := 0x0E
def CX_GNT : Nat := 0x0F
def TXEN : Nat := 0x10
def TMR_CAP (n : Nat) : Nat := 0x18 + n
def TMR_OUT (n c : Nat) : Nat := 0x20 + 2 * n + c
def EVT_IN (k : Nat) : Nat := 0x30 + k
def EVT_OUT (k : Nat) : Nat := 0x38 + k
end Mean

/-- The pins that may carry a meaning, as a mask (R78); P2 only FDET. -/
def meanPins (m : Nat) : Nat :=
  if m ≤ 0x01 then 0xFFFFFB
  else if m ≤ 0x03 then 0xFFFF1B
  else if m = 0x05 then 0x001002
  else if m = 0x07 then 0x000004
  else if m = 0x08 then 0x008008
  else if 0x09 ≤ m ∧ m ≤ 0x0F then 1 <<< (m - 0x09 + 4)
  else if m = 0x10 then 0x800800
  else if 0x18 ≤ m ∧ m ≤ 0x2F then 0xFFFF08
  else if 0x30 ≤ m ∧ m ≤ 0x3F then 0xFFF808
  else 0

/-- Whether a meaning may be assigned in RUN or SLOT, and in REST (R78). -/
def meanInRun (m : Nat) : Bool :=
  m ≤ 0x01 || m = 0x05 || m = 0x07 || (0x08 ≤ m && m ≤ 0x0F) || (0x18 ≤ m && m ≤ 0x3F)
def meanInSlot (m : Nat) : Bool := meanInRun m || m = 0x10
def meanInRest (m : Nat) : Bool :=
  m ≤ 0x03 || m = 0x07 || m = 0x08 || (0x18 ≤ m && m ≤ 0x2F)

/-- Whether the codes of a PIN_MAP word are permitted on pin `n` (R78, R79). -/
def mapCodesOk (n w : Nat) : Bool :=
  let rest := bits w 25 20
  let slot := bits w 19 14
  let run := bits w 13 8
  bitOf (meanPins run) n && meanInRun run && bitOf (meanPins slot) n && meanInSlot slot
    && bitOf (meanPins rest) n && meanInRest rest

/-- The meanings that are inputs of a block (R86, R81). -/
def meanInput (m : Nat) : Bool :=
  (0x02 ≤ m && m ≤ 0x04) || (0x09 ≤ m && m ≤ 0x0B) || (0x0D ≤ m && m ≤ 0x0F) || (0x18 ≤ m && m ≤ 0x1F) || (0x30 ≤ m && m ≤ 0x37)

/-- The meaning a PIN_MAP word gives in a phase. -/
def meanIn (w : Nat) : Phase → Nat
  | .boot => bits w 7 2
  | .run => bits w 13 8
  | .slot => bits w 19 14
  | .rest => bits w 25 20
  | .recover => bits w 31 26

def Chip.pinMap (s : Chip) (n : Nat) : Nat := (s.reg (R.PIN_MAP n)).toNat
def Chip.pinOwner (s : Chip) (n : Nat) : Nat := bits (s.pinMap n) 35 34

/-- Whether pin `n`'s bank is powered (R72). -/
def Chip.pinPowered (s : Chip) (n : Nat) : Bool := n < 12 || s.pins.io2ok

/-- Whether the block that drives a meaning has EN = 1, so that the pin does not fall back to GPIO (R80). -/
def Chip.meanDriven (s : Chip) (m : Nat) : Bool :=
  if m = 0x05 then true
  else if m = 0x08 then s.bit F.RTC_CFG_SQWEN
  else if 0x09 ≤ m ∧ m ≤ 0x0C then s.bit F.HP_CTL_EN
  else if 0x0D ≤ m ∧ m ≤ 0x0F then s.bit F.CX_CTL_EN
  else if m = 0x10 then s.bit F.RFE_CTL_EN
  else if 0x18 ≤ m ∧ m ≤ 0x1F then s.bit (F.TMRN_CTL_EN (m - 0x18))
  else if 0x20 ≤ m ∧ m ≤ 0x2F then s.bit (F.TMRN_CTL_EN ((m - 0x20) / 2))
  else true

/-- Whether the meaning is driven by the chip, given the coexistence role (R78). -/
def Chip.meanOutput (s : Chip) (m : Nat) : Bool :=
  m = 0x05 || m = 0x06 || m = 0x07 || m = 0x08 || m = 0x0C || m = 0x10 || (0x20 ≤ m && m ≤ 0x2F) || (0x38 ≤ m && m ≤ 0x3F)
    || ((m = 0x0D || m = 0x0E) && s.fld F.CX_CFG_ROLE = 1) || (m = 0x0F && s.fld F.CX_CFG_ROLE = 2)

/-- The pin that carries input meaning `m` now. -/
def Chip.pinOf (s : Chip) (m : Nat) : Option Nat :=
  (List.range 24).find? (fun n => s.pins.cur.getD n 0 = m)

/-- The pull in force: PULL, from the bank's supply (R77, R92, R589).  SHIP loses PIN_MAP, so that the reset column
of R82 is in force there. -/
def Chip.pinPull (s : Chip) (n : Nat) : Nat := if s.pinPowered n then bits (s.pinMap n) 33 32 else 0

/-- The level of pin `n` while the chip does not drive it: the board's, else that of the pull or of the bus keeper.
[DESIGN CHOICE, safe: notes/assumptions/153] -/
def Chip.padIn (s : Chip) (n : Nat) : Bool :=
  s.pinPowered n &&
    (if bitOf s.pins.driven n then bitOf s.pins.pad n
     else match s.pinPull n with
      | 1 => false
      | 2 => true
      | 3 => bitOf s.pins.kept n
      | _ => Config.padFree s.now n)

/-- The level of pin `n` while the chip drives `own`; a board that drives the other level leaves it undefined (R605).
[DESIGN CHOICE, safe: notes/assumptions/153] -/
def Chip.ownLevel (s : Chip) (n : Nat) (own : Bool) : Bool :=
  if bitOf s.pins.driven n && bitOf s.pins.pad n ≠ own then Config.padFree s.now n else own

/-- DRV gives pin `n` the open-drain output, which drives the low level only (R92). -/
def Chip.openDrain (s : Chip) (n : Nat) : Bool := 2 ≤ bits (s.pinMap n) 1 0

/-- Pin `n` behaves as GPIO: in that meaning, or in one whose block has EN = 0 (R80). -/
def Chip.gpioPin (s : Chip) (n : Nat) : Bool :=
  let m := s.pins.cur.getD n 0
  m = Mean.GPIO || !s.meanDriven m

/-- A pin that behaves as GPIO is driven: PIN_DIR, and for an open drain a low latch. -/
def Chip.gpioDrives (s : Chip) (n : Nat) : Bool :=
  s.pinPowered n && s.gpioPin n && bitOf (s.reg R.PIN_DIR).toNat n && !(s.openDrain n && bitOf (s.reg R.PIN_OUT).toNat n)

/-- The level of pin `n` in an input meaning or GPIO. -/
def Chip.inPin (s : Chip) (n : Nat) : Bool :=
  if s.gpioDrives n then s.ownLevel n (bitOf (s.reg R.PIN_OUT).toNat n) else s.padIn n

/-- The level a block sees on its input of meaning `m` (R81). -/
def Chip.inputLevel (s : Chip) (m : Nat) : Bool :=
  match s.pinOf m with
  | some n => s.inPin n
  | none => bitOf s.pins.held m

/-- Give every pin its meaning for phase `p` and hold the inputs that pins leave (R75, R81, R92). -/
def Chip.enterPhase (s : Chip) (p : Phase) : Chip :=
  let cur' := (List.range 24).map (fun n => meanIn (s.pinMap n) p)
  let held' := (List.range 24).foldl (fun h n =>
    let m := s.pins.cur.getD n 0
    if meanInput m && cur'.getD n 0 ≠ m then putBit h m (s.inPin n) else h) s.pins.held
  { s with pins := { s.pins with phase := p, cur := cur', held := held' } }

/-- The phase outside REST: SLOT while a SLOT window is open, else RUN (R73). -/
def Chip.openPhase (s : Chip) : Phase := if s.pins.windows = 0 then .run else .slot

/-- The code of a phase (R73). -/
def Phase.code : Phase → Nat
  | .boot => 0 | .run => 1 | .slot => 2 | .rest => 3 | .recover => 4

/-- Whether some pin carries meaning `m` in a phase, on a powered bank (R72, R88). -/
def Chip.assigned (s : Chip) (m : Nat) (p : Phase) : Bool :=
  (List.range 24).any (fun n => meanIn (s.pinMap n) p = m && s.pinPowered n)

/-- The pins that carry meaning `m` in some phase, as their map registers say. -/
def Chip.carriers (s : Chip) (m : Nat) : List Nat :=
  (List.range 24).filter (fun n => [Phase.run, Phase.slot, Phase.rest].any (fun p => meanIn (s.pinMap n) p = m))

end Sys2Proof.Machine
end

