-- ==== Sys2Proof/Machine/Irq.lean ====
section
/-!
DEFINITION. The interrupt controller and the event router (spec/14 R413 to R436).
-/
namespace Sys2Proof.Machine

/-! ### Requests, occurrences and pulses -/

/-- The request of a level source: its condition (R413); an edge source has no standing request. -/
def Chip.levelReq (s : Chip) (n : Nat) : Bool :=
  if 1 ≤ n ∧ n ≤ 8 then (s.reg (R.TMRN_FLAG (n - 1)) &&& 0x7#36) != 0
  else if 9 ≤ n ∧ n ≤ 16 then (s.reg (R.TMRN_FLAG (n - 9)) &&& 0x78#36) != 0
  else if n = 17 then s.bit F.RTC_STAT_ALMF
  else if n = 18 then s.bit F.RTC_STAT_OSF
  else if n = 19 then s.bit F.WDT_STAT_WARNF
  else if n = 20 then s.bit F.PMU_BOD_VINW || s.bit F.PMU_BOD_VSYSW
  else if n = 23 then s.bit F.MON_STAT_LIFEALM
  else if 25 ≤ n ∧ n ≤ 28 then s.bit (F.CPH_USTAT_DONE (n - 25))
  else if n = 66 then s.reg R.LNK_EVT != 0
  else false

/-- FABRIC runs (R22, R436). -/
def Chip.fabricOn (s : Chip) : Bool := s.pwr.st = .run

/-- The level of gate selection `g` (R425).
[DEDUCED, unsafe: notes/assumptions/83] -/
def Chip.gateLevel (s : Chip) (g : Nat) : Bool :=
  if g ≤ 95 then s.levelReq g
  else if g ≤ 103 then s.inputLevel (Mean.EVT_IN (g - 96))
  else if g = 104 then s.pins.phase = .slot
  else s.clk.hfOn

/-- Whether channel `c`'s gate is open (R425). -/
def Chip.gateOpen (s : Chip) (c : Nat) : Bool :=
  let g := s.fld (F.EVR_CH_GSEL c)
  g = 0 || (s.gateLevel g != s.bit (F.EVR_CH_GINV c))

/-- Set channel `c`'s flag (R426). -/
def Chip.setEvrFlag (s : Chip) (c : Nat) : Chip :=
  if c < 36 then s.setFld ⟨R.EVR_FLAG0, c, c⟩ 1 else s.setFld ⟨R.EVR_FLAG1, c - 36, c - 36⟩ 1

/-- A pulse at task `t`, which fires in cycle `k`; two pulses of one cycle are one (R428, R429). -/
def fireTask (t k : Nat) : List (Nat × Nat × Bool) → List (Nat × Nat × Bool)
  | [] => [(t, k, false)]
  | (u, j, b) :: l => if u = t ∧ j = k then (u, j, true) :: l else (u, j, b) :: fireTask t k l

/-- Deliver a pulse of channel `c` to every subscribed task, which fires in the next cycle (R425). -/
def Chip.deliver (s : Chip) (c : Nat) : Chip :=
  let ts := (List.range 32).filter (fun t =>
    (s.bit (F.EVR_TSUB_ENA t) && s.fld (F.EVR_TSUB_CHA t) = c) || (s.bit (F.EVR_TSUB_ENB t) && s.fld (F.EVR_TSUB_CHB t) = c))
  { s with evr := { s.evr with fire := ts.foldl (fun l t => fireTask t (s.now + 1) l) s.evr.fire } }

/-- Channel `c` pulses if its gate is open: flag, stamp request, tasks, and timers that count it (R425).  The stamp unit
takes the cycle's requests of stamped events last (R32). -/
def Chip.pulse (s : Chip) (c : Nat) : Chip :=
  if !s.gateOpen c then s
  else
    let s1 := s.setEvrFlag c
    let s2 :=
      if s1.bit (F.EVR_CH_STQ c) then { s1 with evr := { s1.evr with recs := s1.evr.recs ++ [(s1.fld (F.EVR_CH_PUB c), c)] } } else s1
    let s3 := s2.deliver c
    { s3 with out := { s3.out with chans := s3.out.chans ++ [c] } }

/-- The channels that publish code `p`. -/
def Chip.channelsOf (s : Chip) (p : Nat) : List Nat :=
  (List.range 40).filter (fun c => s.fld (F.EVR_CH_PUB c) = p)

/-- A pulse of publisher `p` (R424).  While FABRIC is stopped each publisher holds one pulse, and the
others are lost and counted (R436). -/
def Chip.publish (s : Chip) (p : Nat) : Chip :=
  if s.fabricOn then (s.channelsOf p).foldl Chip.pulse s
  else if s.evr.heldPulse.contains p then s.count F.EVR_STAT_LOSTCNT
  else { s with evr := { s.evr with heldPulse := s.evr.heldPulse ++ [p] } }

/-- Source `n` becomes PENDING (R415). -/
def Chip.pend (s : Chip) (n : Nat) : Chip :=
  let s1 := s.setFld (F.ICU_SRC_STATE n) 1
  { s1 with icu := { s1.icu with since := (n, s.icu.ran) :: s1.icu.since.filter (fun e => e.1 ≠ n) } }

/-- Source `n` leaves PENDING. -/
def Chip.unpend (s : Chip) (n st : Nat) : Chip :=
  let s1 := s.setFld (F.ICU_SRC_STATE n) st
  { s1 with icu := { s1.icu with since := s1.icu.since.filter (fun e => e.1 ≠ n),
                                 ripe := s1.icu.ripe.filter (fun e => e.2 ≠ n) } }

/-- An occurrence reaches the interrupt controller: it pends an IDLE source, and is held as one re-arm for a CLAIMED one
(R414, R418). -/
def Chip.occSeen (s : Chip) (n : Nat) : Chip :=
  match s.fld (F.ICU_SRC_STATE n) with
  | 0 => s.pend n
  | 2 =>
    if s.bit (F.ICU_SRC_TRIG n) && !s.icu.rearm.contains n then { s with icu := { s.icu with rearm := n :: s.icu.rearm } }
    else s
  | _ => s

/-- An occurrence while FABRIC is stopped: a source with TRIG 1 latches one, and one with TRIG 0 has its condition (R423). -/
def Chip.occHold (s : Chip) (n : Nat) : Chip :=
  if s.bit (F.ICU_SRC_TRIG n) && !s.icu.held.contains n then { s with icu := { s.icu with held := s.icu.held ++ [n] } } else s

/-- An occurrence of source `n` (R413): the interrupt controller sees it, now or after wake, and the publisher of the same
number pulses. -/
def Chip.occ (s : Chip) (n : Nat) : Chip :=
  let s1 := if s.fabricOn then s.occSeen n else s.occHold n
  if 83 ≤ n ∧ n ≤ 90 then s1 else s1.publish n

/-- A level source with TRIG 0 pends while its request is high (R414), in every FABRIC cycle. -/
def Chip.levelsPend (s : Chip) : Chip :=
  if !s.fabricOn then s
  else
    (List.range 96).foldl (fun c n =>
      if 1 ≤ n && nativeLevel n && c.fld (F.ICU_SRC_STATE n) = 0 && !c.bit (F.ICU_SRC_TRIG n) && c.levelReq n then c.pend n else c) s

/-- The occurrences and pulses held through a rest are presented in the first FABRIC cycle after wake (R423, R436). -/
def Chip.releaseHeld (s : Chip) : Chip :=
  let s1 := s.icu.held.foldl Chip.occSeen { s with icu := { s.icu with held := [] } }
  (s1.evr.heldPulse.foldl Chip.publish { s1 with evr := { s1.evr with heldPulse := [] } }).levelsPend

/-! ### Targets (R415 to R422) -/

/-- Source `n` is presented to target `t` (R415). -/
def Chip.presented (s : Chip) (t n : Nat) : Bool :=
  s.fld (F.ICU_SRC_STATE n) = 1 && bitOf (s.fld (F.ICU_SRC_TMASK n)) t && s.fld (F.ICU_MOD_THR t) ≤ s.fld (F.ICU_SRC_PRIO n)

/-- The sources, lowest number first. -/
def sources : List Nat := (List.range 95).map (· + 1)

/-- The presented source with the highest PRIO, and among equals the lowest number (R416). -/
def Chip.bestSource (s : Chip) (t : Nat) : Option Nat :=
  sources.foldl (fun best n =>
    if s.presented t n then
      match best with
      | none => some n
      | some b => if s.fld (F.ICU_SRC_PRIO b) < s.fld (F.ICU_SRC_PRIO n) then some n else best
    else best) none

/-- The core of target `t` is in WAIT (R422). -/
def Chip.targetWaiting (s : Chip) (t : Nat) : Bool :=
  match t with
  | 0 => s.cores.foxA.run = .wait | 1 => s.cores.foxB.run = .wait | 2 => s.cores.badger.run = .wait | _ => false

/-- The interrupt line of target `t` (R421, R422): something is presented, and its coalescing delay is
over, or is 0, or the core waits. -/
def Chip.line (s : Chip) (t : Nat) : Bool :=
  sources.any (fun n => s.presented t n
    && (s.fld (F.ICU_MOD_COAL t) = 0 || s.targetWaiting t || s.icu.ripe.contains (t, n)))

/-- Put `r` in the record of every target that source `n` is presented to, but for `skip` (R416). -/
def Chip.recordLoss (s : Chip) (n r : Nat) (skip : Nat) : Chip :=
  let rec' := (List.range 4).map (fun t => if t ≠ skip && s.presented t n then r else s.icu.record.getD t 0)
  { s with icu := { s.icu with record := rec' } }

/-- A level source that left PENDING before any claim: IDLE, and 1022 recorded (R416). -/
def Chip.withdraw (s : Chip) (n : Nat) : Chip := (s.recordLoss n 1022 4).unpend n 0

/-- A read of ICU_CLAIMt by target `t` (R416): the value and the state after it. -/
def Chip.icuClaim (s : Chip) (t : Nat) : Nat × Chip :=
  match s.bestSource t with
  | some n =>
    let s1 := s.recordLoss n 1023 t
    let s2 := (s1.unpend n 2).setFld (F.ICU_SRC_BY n) t
    (n, { s2 with icu := { s2.icu with record := setAt s2.icu.record t 0 } })
  | none => (s.icu.record.getD t 0, { s with icu := { s.icu with record := setAt s.icu.record t 0 } })

/-- The agent of target `t`, or the service port master (R420). -/
def answersTarget (ag : Agent) (t : Nat) : Bool := owns ag t

/-- A read of ICU_CLAIMt by any agent (R420). -/
def Chip.icuClaimRead (s : Chip) (ag : Agent) (t : Nat) : Nat × Chip :=
  if answersTarget ag t then s.icuClaim t else (0, s.setReason R.ICU_STAT Rc.SECURITY)

/-- A write of source number `n` to ICU_DONEt (R418, R420). -/
def Chip.icuDone (s : Chip) (ag : Agent) (t n : Nat) : Chip :=
  if !answersTarget ag t then s.setReason R.ICU_STAT Rc.SECURITY
  else if n = 0 ∨ 95 < n ∨ s.fld (F.ICU_SRC_STATE n) ≠ 2 ∨ s.fld (F.ICU_SRC_BY n) ≠ t then
    s.setReason R.ICU_STAT Rc.NOT_CLAIMED
  else
    let s0 := (s.setFld (F.ICU_SRC_BY n) 0).setReason R.ICU_STAT Rc.OK
    let again := if !s.bit (F.ICU_SRC_TRIG n) then s.levelReq n else s.icu.rearm.contains n
    let s1 := { s0 with icu := { s0.icu with rearm := s0.icu.rearm.filter (· ≠ n) } }
    if again then s1.pend n else s1.unpend n 0

/-- The effect of a new TRIG on a source's state (R414, R419). -/
def Chip.retrig (s : Chip) (n : Nat) : Chip :=
  if s.bit (F.ICU_SRC_TRIG n) then s
  else
    match s.fld (F.ICU_SRC_STATE n) with
    | 0 => if s.levelReq n then s.pend n else s
    | 1 => if s.levelReq n then s else s.withdraw n
    | _ => s

/-- A write of ICU_SRCn (R66, R419, R420, R421).
[DEDUCED, unsafe: notes/assumptions/53] -/
def Chip.icuSrcWrite (s : Chip) (ag : Agent) (n : Nat) (v : Word) : Chip :=
  if n = 0 ∨ 95 < n then s
  else
    let old := bits (s.reg (R.ICU_SRC n)).toNat 7 0
    let new0 := if nativeLevel n then bits v.toNat 7 0 else bits v.toNat 7 0 ||| 8
    if s.lockedSec 10 then s.setReason R.ICU_STAT Rc.LOCKED
    else
      let all := ag = .foxA || ag = .svc
      let may (b : Nat) : Bool := all || (4 ≤ b && b = 4 + ag.code)
      let new := (List.range 8).foldl (fun acc b => if may b then putBit acc b (bitOf new0 b) else acc) old
      let tm := bits new 7 4
      if bitOf tm 3 && tm ≠ 8 then s.setReason R.ICU_STAT Rc.COMBINATION
      else
        let s1 := s.setFld ⟨R.ICU_SRC n, 7, 0⟩ new
        let s2 := s1.setReason R.ICU_STAT (if new = new0 then Rc.OK else Rc.SECURITY)
        if bitOf new 3 ≠ bitOf old 3 then s2.retrig n else s2

/-- A write of ICU_MODt: THR 9 to 15 is RANGE; stream-set under IRQ.
[DEDUCED, unsafe: notes/assumptions/164] -/
def Chip.icuModWrite (s : Chip) (t : Nat) (v : Word) : Chip :=
  if s.lockedSec 10 then s.setReason R.ICU_STAT Rc.LOCKED
  else if 8 < bits v.toNat 11 8 then s.setReason R.ICU_STAT Rc.RANGE
  else (s.setFld ⟨R.ICU_MOD t, 11, 0⟩ v.toNat).setReason R.ICU_STAT Rc.OK

/-- A write of ICU_SWSET: bit k makes an occurrence of source 91 + k (R413). -/
def Chip.icuSwset (s : Chip) (v : Word) : Chip :=
  (List.range 4).foldl (fun c k => if bitOf v.toNat k then c.occ (91 + k) else c) s

/-! ### The event router's registers (R426 to R436) -/

/-- Refuse with a code in EVR_STAT; SECURITY is also an occurrence of source 95 (R413). -/
def Chip.evrRefuse (s : Chip) (code : Nat) : Chip :=
  let s1 := s.setReason R.EVR_STAT code
  if code = Rc.SECURITY then s1.occ 95 else s1

/-- An enabled timer with SRC EVENT counts channel `c` (R433). -/
def Chip.channelCounted (s : Chip) (c : Nat) : Bool :=
  (List.range 8).any (fun n => s.bit (F.TMRN_CTL_EN n) && s.fld (F.TMRN_CFG_SRC n) = 2 && s.fld (F.TMRN_CFG_EVSEL n) = c)

/-- The pin that carries EVT_INk in RUN or SLOT has another OWNER than `o` (R432). -/
def Chip.evtInForeign (s : Chip) (k o : Nat) : Bool :=
  (s.carriers (Mean.EVT_IN k)).any (fun n => s.pinOwner n ≠ o)

/-- The first item that refuses a channel's new value, by the rules of R424, R425, R432 to R434.
[DEDUCED, unsafe: notes/assumptions/81] -/
def Chip.evrChCheck (s : Chip) (c v : Nat) : Nat :=
  let pub := bits v 6 0
  let gsel := bits v 22 16
  let owner := bits v 35 34
  let stq := bitOf v 32
  let q := s.fld F.EVR_QCFG_QUEUE
  if (83 ≤ pub ∧ pub ≤ 90) ∨ pub = 126 ∨ 106 ≤ gsel then Rc.RANGE
  else if stq && (q = 0 || !s.bit (F.QUE_CFG_ON q) || s.fld (F.QUE_CFG_KIND q) ≠ 3 || s.fld (F.QUE_CFG_ESZ q) ≠ 3) then Rc.COMBINATION
  else if 96 ≤ pub ∧ pub ≤ 111 ∧ s.evtInForeign ((pub - 96) % 8) owner then Rc.OWNED
  else if stq && s.fld (F.QUE_CFG_OWNER q) ≠ owner then Rc.OWNED
  else if pub ≠ s.fld (F.EVR_CH_PUB c) && s.channelCounted c then Rc.CH_IN_USE
  else Rc.OK

def chMask : Nat := 0xF00FF007F

/-- A write of EVR_CHc (R430, R433, R434).
[DEDUCED, unsafe: notes/assumptions/164]
[DEDUCED, unsafe: notes/assumptions/81] -/
def Chip.evrChWrite (s : Chip) (ag : Agent) (c : Nat) (v : Word) : Chip :=
  let new := v.toNat &&& chMask
  if 40 ≤ c then s
  else if s.lockedSec 9 then s.evrRefuse Rc.LOCKED
  else if !owns ag (s.fld (F.EVR_CH_OWNER c)) then s.evrRefuse Rc.OWNED
  else
    let code := s.evrChCheck c new
    if code = Rc.OK then (s.setReg (R.EVR_CH c) (W new)).setReason R.EVR_STAT Rc.OK else s.evrRefuse code

/-- The owner that a task must have, of the block or pin it acts on (R432). -/
def Chip.taskForeign (s : Chip) (t o : Nat) : Bool :=
  if 8 ≤ t ∧ t ≤ 15 then (s.carriers (Mean.EVT_OUT (t - 8))).any (fun n => s.pinOwner n ≠ o)
  else if 16 ≤ t ∧ t ≤ 23 then
    let n := t - 16
    (if s.bit (F.TMR_OWN_ASSIGNED n) then s.fld (F.TMR_OWN_OWNER n) else 0) ≠ o
  else if t = 24 then s.fld F.NFC_CFG_OWNER ≠ o
  else if t = 27 ∨ t = 28 then s.fld F.RFE_CFG_OWNER ≠ o
  else false

/-- A channel is PROTECTED (R430). -/
def Chip.chProtected (s : Chip) (c : Nat) : Bool := s.bit (F.EVR_CH_ATTR c)

/-- An agent's clearance is OPEN (R431); the service port master's is PROTECTED. -/
def Chip.clearanceOpen (s : Chip) (ag : Agent) : Bool :=
  match ag with
  | .host => true
  | .svc => false
  | a => !bitOf (s.fld F.EVR_CLEAR_AGENT) a.code

/-- The first item that refuses a subscription, by R428, R429, R431 and R432. -/
def Chip.evrSubCheck (s : Chip) (ag : Agent) (t v owner : Nat) : Nat :=
  let ena := bitOf v 6
  let enb := bitOf v 13
  let cha := bits v 5 0
  let chb := bits v 12 7
  if (29 ≤ t && (ena || enb)) || (ena && 40 ≤ cha) || (enb && 40 ≤ chb) then Rc.RANGE
  else if ena && enb && cha = chb then Rc.COMBINATION
  else if (ena || enb) && s.taskForeign t owner then Rc.OWNED
  else if s.clearanceOpen ag && ((ena && s.chProtected cha) || (enb && s.chProtected chb)) then Rc.SECURITY
  else Rc.OK

/-- A write of EVR_TSUBt (R430, R431).
[DEDUCED, unsafe: notes/assumptions/164] -/
def Chip.evrTsubWrite (s : Chip) (ag : Agent) (t : Nat) (v : Word) : Chip :=
  let new := v.toNat % 2 ^ 14
  if 32 ≤ t then s
  else if s.lockedSec 9 then s.evrRefuse Rc.LOCKED
  else if !owns ag (s.fld (F.EVR_TSUB_OWNER t)) then s.evrRefuse Rc.OWNED
  else
    let code := s.evrSubCheck ag t new (s.fld (F.EVR_TSUB_OWNER t))
    if code = Rc.OK then (s.setFld ⟨R.EVR_TSUB t, 13, 0⟩ new).setReason R.EVR_STAT Rc.OK else s.evrRefuse code

/-- A write of EVR_SWPUB: the channel pulses in the cycle after the write (R427). -/
def Chip.evrSwpub (s : Chip) (ag : Agent) (v : Word) : Chip :=
  let c := bits v.toNat 5 0
  if 39 < c then s.evrRefuse Rc.RANGE
  else if s.fld (F.EVR_CH_PUB c) ≠ 127 then s.evrRefuse Rc.COMBINATION
  else if ag.code ≠ s.fld (F.EVR_CH_OWNER c) then s.evrRefuse Rc.OWNED
  else
    let s1 := s.setReason R.EVR_STAT Rc.OK
    { s1 with evr := { s1.evr with swNext := s1.evr.swNext ++ [c] } }

/-- A write of EVR_CLEAR: from Fox A and the service port master; stream-set under EVENTS.
[DEDUCED, unsafe: notes/assumptions/164] -/
def Chip.evrClearWrite (s : Chip) (ag : Agent) (v : Word) : Chip :=
  let new := v.toNat % 8
  if s.lockedSec 9 then s.evrRefuse Rc.LOCKED
  else if ag ≠ .foxA && ag ≠ .svc then s.evrRefuse Rc.SECURITY
  else (s.setFld F.EVR_CLEAR_AGENT new).setReason R.EVR_STAT Rc.OK

/-- A write of EVR_QCFG: 0 or 16 to 31, and only while no channel has STQ = 1.
[DEDUCED, unsafe: notes/assumptions/164] -/
def Chip.evrQcfgWrite (s : Chip) (v : Word) : Chip :=
  let q := v.toNat % 32
  if s.lockedSec 9 then s.evrRefuse Rc.LOCKED
  else if q ≠ 0 ∧ q < 16 then s.evrRefuse Rc.RANGE
  else if (List.range 40).any (fun c => s.bit (F.EVR_CH_STQ c)) then s.evrRefuse Rc.BUSY
  else (s.setFld F.EVR_QCFG_QUEUE q).setReason R.EVR_STAT Rc.OK

/-- The flags that an agent may see: PROTECTED channels read 0 for an OPEN agent (R426). -/
def Chip.evrFlagView (s : Chip) (ag : Agent) (base n : Nat) (w : Word) : Word :=
  if s.clearanceOpen ag then
    W ((List.range n).foldl (fun acc i => if s.chProtected (base + i) then putBit acc i false else acc) w.toNat)
  else w

end Sys2Proof.Machine
end

