-- ==== Sys2Proof/Machine/Bear.lean ====
section
/-!
DEFINITION. Bear's account, claims, admission and reservations (spec/05 R117 to R143).  Energies of
the account are counted in units of 0.25 mW for one HF-REF period; 1 microjoule is 128,000 of them.
-/
namespace Sys2Proof.Machine

/-- Account units in a microjoule. -/
def uJ (n : Nat) : Nat := 128000 * n

/-- Account units rounded up to whole microjoules. -/
def ceilUJ (x : Nat) : Nat := (x + 127999) / 128000 * 128000

/-! ### The transmit power table (R159, R160) -/

/-- Transmit code and claim of each row, highest first. -/
def txPowerTable : List (Nat × Nat) :=
  [(62, 1555), (60, 1325), (58, 1152), (56, 1008), (54, 893), (52, 778), (50, 691), (48, 619), (46, 548), (44, 490),
   (42, 446), (40, 403), (38, 374), (34, 317), (30, 274), (26, 245), (22, 223), (18, 209), (16, 187)]

/-- The claim of a transmit code: that of the row at or above it. -/
def txClaim (pwr : Nat) : Nat :=
  txPowerTable.foldl (fun acc e => if pwr ≤ e.1 then e.2 else acc) 1555

/-- The code that a granted power stands for: the highest code that claims no more.
[DEDUCED, unsafe: notes/assumptions/35] -/
def txCodeOf (power : Nat) : Nat :=
  ((txPowerTable.find? (fun e => e.2 ≤ power)).map Prod.fst).getD 0

/-! ### Account quantities (R117) -/

def Chip.refill (s : Chip) : Nat := s.fld F.EGY_SUPPLY_REFILL
def Chip.cap (s : Chip) : Nat := s.fld F.EGY_CAP_CAP

/-- HEAD in microjoules: CAP × headroom, rounded up. -/
def Chip.head (s : Chip) : Nat := (s.cap * s.fld F.MON_PLAN0_HEADROOM + 999) / 1000

def sumPower (gs : List Grant) : Nat := gs.foldl (fun a g => a + g.power) 0

/-- FREE: REFILL less the granted continuous claims; below 0 where the supply has weakened under them. -/
def freeRefill (refill : Nat) (gs : List Grant) : Int := (refill : Int) - sumPower (gs.filter Grant.cont)

def burstsOf (gs : List Grant) : List Grant := gs.filter (fun g => !g.cont)

def Grant.fin (g : Grant) : Nat := g.start + g.dur

/-- What the account is judged by: capacity and head in account units, FREE, the bursts granted and
the reservations as start, end and power. -/
structure Acct where
  now : Nat
  level : Nat
  cap : Nat
  head : Nat
  free : Int
  bursts : List Grant
  resv : List (Nat × Nat × Nat)
deriving DecidableEq, Repr

def Chip.resvTime (s : Chip) (b : Resv) : Nat :=
  (s.lfTimeI ((s.lfIdx s.now : Int) + b.start - s.owl.stb)).toNat

def Resv.len (b : Resv) : Nat := if b.ms then msec b.count else us b.count

/-- Insert in rising order of `key`. -/
def insertBy {α : Type} (key : α → Nat) (x : α) : List α → List α
  | [] => [x]
  | y :: l => if key x < key y then x :: y :: l else y :: insertBy key x l

def sortBy {α : Type} (key : α → Nat) (l : List α) : List α := l.foldr (insertBy key) []

/-- The reservations in start order; one whose start has passed counts as starting now (R137, R138). -/
def Chip.resvList (s : Chip) (l : List (Option Resv)) : List (Nat × Nat × Nat) :=
  sortBy Prod.fst (l.filterMap (fun o => o.map (fun b =>
    let t := max s.now (s.resvTime b)
    (t, t + b.len, b.power))))

def Chip.acct (s : Chip) (gs : List Grant) (l : List (Option Resv)) : Acct :=
  { now := s.now, level := s.bear.level, cap := uJ s.cap, head := uJ s.head, free := freeRefill s.refill gs,
    bursts := burstsOf gs, resv := s.resvList l }

/-- The power of the bursts granted in some part of [t, u]. -/
def Acct.burstPower (a : Acct) (t u : Nat) : Nat := sumPower (a.bursts.filter (fun g => g.start ≤ u && t < g.fin))

/-- need(c, s), rounded up to a microjoule (R132). -/
def Acct.need (a : Acct) (p d s : Nat) : Nat := ceilUJ ((((p + a.burstPower s (s + d) : Nat) : Int) - a.free) * d).toNat

/-- Energy of the granted bursts in [t, u]. -/
def Acct.drain (a : Acct) (t u : Nat) : Nat :=
  a.bursts.foldl (fun acc g => acc + g.power * (min u g.fin - max t g.start)) 0

/-- Hold a level between 0 and the capacity. -/
def holdLevel (cap : Nat) (x : Int) : Nat := min cap x.toNat

/-- One stretch of the projection in which nothing begins or ends (R137). -/
def Acct.stretch (a : Acct) (withResv : Bool) (l t u : Nat) : Nat :=
  let on := if withResv then a.resv.filter (fun b => b.1 ≤ t && t < b.2.1) else []
  if on.isEmpty then
    holdLevel a.cap ((l : Int) + a.free * (u - t : Nat) - sumPower (a.bursts.filter (fun g => g.start ≤ t && t < g.fin)) * (u - t : Nat))
  else
    holdLevel a.cap ((l : Int) - on.foldl (fun acc b => acc + a.need b.2.2 (b.2.1 - b.1) b.1 * (u - t) / (b.2.1 - b.1)) 0)

/-- The instants at which the projection's slope may change. -/
def Acct.instants (a : Acct) (withResv : Bool) : List Nat :=
  a.bursts.map Grant.start ++ a.bursts.map Grant.fin ++ (if withResv then a.resv.map Prod.fst ++ a.resv.map (·.2.1) else [])

/-- The level projected from `t0` to `t1`. -/
def Acct.project (a : Acct) (withResv : Bool) (t0 t1 : Nat) : Nat :=
  let pts := sortBy id (t1 :: (a.instants withResv).filter (fun t => t0 < t && t < t1))
  (pts.foldl (fun (lt : Nat × Nat) u => (a.stretch withResv lt.1 lt.2 u, u)) (a.level, t0)).1

/-- KEPT(s) (R138).  Of two reservations that start together neither is before the other.
[DESIGN CHOICE, unsafe: notes/assumptions/156] -/
def Acct.kept (a : Acct) (s : Nat) : Nat :=
  let later := a.resv.filter (fun b => s ≤ b.1)
  (later.reverse.foldl (fun (k : Int) b =>
    let prev := (a.resv.filter (fun p => p.1 < b.1)).getLast?
    let frm := match prev with
      | none => s
      | some p => max s p.2.1
    let re : Int := if b.1 ≤ frm then 0 else a.free * (b.1 - frm : Nat) - a.drain frm b.1
    max 0 (k + a.need b.2.2 (b.2.1 - b.1) b.1 - re)) 0).toNat

/-- How far a burst of power `p` and length `d` starting at `s` stays above HEAD + KEPT (R120, R132). -/
def Acct.margin (a : Acct) (p d s : Nat) : Int :=
  (a.project true a.now s : Int) - a.need p d s - a.head - a.kept (s + d)

/-! ### The energy bound: the first tick at which a burst fits -/

/-- The tick of the largest margin in [lo, hi], for a margin that rises and then falls. -/
def peakTick (m : Nat → Int) : Nat → Nat → Nat → Nat
  | 0, lo, _ => lo
  | n + 1, lo, hi =>
    if hi ≤ lo then lo
    else
      let mid := (lo + hi) / 2
      if m mid < m (mid + 1) then peakTick m n (mid + 1) hi else peakTick m n lo mid

/-- The first tick in [lo, hi] at which the margin is not negative, when it is not at `hi`. -/
def firstTick (m : Nat → Int) : Nat → Nat → Nat → Nat
  | 0, _, hi => hi
  | n + 1, lo, hi =>
    if hi ≤ lo then hi
    else
      let mid := (lo + hi) / 2
      if 0 ≤ m mid then firstTick m n lo mid else firstTick m n (mid + 1) hi

/-- 2^24 LF ticks, the horizon of deferrals and reservations (R132, R137). -/
def horizon : Nat := 2 ^ 24

/-- The first tick ahead, below the horizon, at which the burst fits; the margin is examined between
the instants at which something begins or ends, between which it rises and then falls. -/
def Chip.firstFit (s : Chip) (a : Acct) (p d : Nat) : Option Nat :=
  let m (k : Nat) : Int := a.margin p d (s.tickAhead k)
  if 0 ≤ m 0 then some 0
  else
    let cut := (a.instants true).flatMap (fun t => [s.ticksTo t, s.ticksTo (t - d)])
    let full := if a.free ≤ 0 then [] else [s.ticksTo (s.now + (a.cap - a.level) / a.free.toNat)]
    let pts := sortBy id ((horizon - 1) :: (cut ++ full).filter (fun k => 0 < k && k < horizon - 1))
    (pts.foldl (fun (st : Option Nat × Nat) hi =>
      match st.1 with
      | some _ => st
      | none =>
        let pk := peakTick m 25 st.2 hi
        let top := if m hi < m pk then pk else hi
        if 0 ≤ m top then (some (firstTick m 25 st.2 top), hi) else (none, hi)) (none, 0)).1

/-! ### Bounds of a claim (R132, R135, R140, R143) -/

/-- The warning hold (R99, R135). -/
def Chip.warnHold (s : Chip) : Bool := s.bit F.PMU_BOD_VINW || s.bit F.PMU_BOD_VSYSW

/-- The claimants that the wake stagger separates (R140). -/
def staggered (n : Nat) : Bool := n ≤ 2 || n = 12

/-- The energy bound; the second component is false where it has no known time. -/
def Chip.energyBound (s : Chip) (c : Claim) : Nat × Bool :=
  if !s.bear.valid then (s.now, false)
  else if c.resv.isSome then (s.now, true)
  else if c.cont then (s.now, decide ((c.power : Int) ≤ freeRefill s.refill s.bear.grants))
  else
    match s.firstFit (s.acct s.bear.grants s.bear.resv) c.power c.dur with
    | some k => (s.tickAhead k, true)
    | none => (s.tickAhead horizon, true)

/-- The transmitter's on-time in the window of 1,000 ms that ends at `e` (R143). -/
def onTime (l : List (Nat × Nat)) (e : Nat) : Nat :=
  l.foldl (fun acc t => acc + (min t.2 e - max t.1 (e - msec 1000))) 0

/-- The duty bound of a transmit claim in thermal state 1 (R143).  A claim longer than the allowance meets it at no
start: its bound is put at the horizon.
[DESIGN CHOICE, unsafe: notes/assumptions/157] -/
def Chip.dutyBound (s : Chip) (c : Claim) : Nat :=
  if c.who ≠ 4 ∨ s.fld F.EGY_STAT_THERM ≠ 1 then s.now
  else
    let lim := msec 10 * s.fld F.EGY_CFG_DUTY
    let m (k : Nat) : Int := (lim : Int) - (onTime s.bear.txOn (s.tickAhead k + c.dur) + min c.dur (msec 1000))
    if 0 ≤ m 0 then s.now
    else
      let far := s.ticksTo (s.now + msec 1000)
      if 0 ≤ m far then s.tickAhead (firstTick m 20 0 far) else s.tickAhead horizon

/-- earliest(c) with its cause; none where it is not defined.  `stag` is the earliest start that the
stagger leaves. -/
def Chip.earliest (s : Chip) (c : Claim) (stag : Nat) : Option Nat × Nat :=
  let (e, known) := s.energyBound c
  if !known then (none, Rc.BUDGET)
  else
    let sb := if staggered c.who then max s.now stag else s.now
    let db := s.dutyBound c
    let wb := if s.warnHold && c.cls ≠ 0 then s.now + secs 1 else s.now
    let t := max (max e sb) (max db wb)
    (some t, if t = wb ∧ s.now < wb then Rc.WARNING else if t = e ∧ s.now < e then Rc.BUDGET
             else if t = sb ∧ s.now < sb then Rc.STAGGER else if s.now < db then Rc.DUTY else Rc.BUDGET)

/-- energy_only(c): only energy delays it. -/
def Chip.energyOnly (s : Chip) (c : Claim) (stag : Nat) : Bool :=
  let (e, known) := s.energyBound c
  (!known || s.now < e) && !(staggered c.who && s.now < stag) && s.dutyBound c ≤ s.now && !(s.warnHold && c.cls ≠ 0)

/-- best_step(c): the highest transmit step from MINP up to P whose power fits now. -/
def Chip.bestStep (s : Chip) (c : Claim) : Option Nat :=
  match c.minP with
  | none => none
  | some lo =>
    let a := s.acct s.bear.grants s.bear.resv
    (txPowerTable.find? (fun e => lo ≤ e.2 && e.2 ≤ c.power && decide (0 ≤ a.margin e.2 c.dur s.now))).map Prod.snd

/-! ### Answers (R130) -/

def AnswerKind.code : AnswerKind → Nat
  | .grant => 0 | .reduced => 1 | .defer => 2 | .deny => 3

/-- Show an answer in EGY_LAST, EGY_EARLY and the software claimant's registers, and hand it to the
claimant. -/
def Chip.answer (s : Chip) (r : Answer) : Chip :=
  let s1 := ((((s.setFld F.EGY_LAST_CLAIMANT r.who).setFld F.EGY_LAST_ANSWER r.kind.code).setFld F.EGY_LAST_POWER r.power).setFld
    F.EGY_LAST_CAUSE r.code)
  let lo : Nat := match r.start with
    | none => 0xFFFFFFFFF
    | some t => s1.stbAt t % 2 ^ 36
  let s2 := if r.kind = .defer then s1.setReg R.EGY_EARLY (W lo) else s1
  let s3 :=
    if 13 ≤ r.who then
      let held := r.kind = .grant || r.kind = .reduced
      let v := (r.kind.code <<< 22) ||| (r.power <<< 8) ||| r.code ||| (held.toNat <<< 25) ||| ((r.kind = .defer : Bool).toNat <<< 24)
      let s' := s2.setReg (R.EGY_SWANS r.who) (W v)
      if r.kind = .defer then s'.setReg (R.EGY_SWERL r.who) (W lo) else s'
    else s2
  { s3 with out := { s3.out with answers := s3.out.answers ++ [r] } }

def Chip.setBear (s : Chip) (b : Bear) : Chip := { s with bear := b }

/-- Bring LEVEL up to now (R118). -/
def Chip.syncLevel (s : Chip) : Chip :=
  let a := s.acct s.bear.grants []
  s.setBear { s.bear with level := a.project false s.bear.levelAt s.now, levelAt := s.now }

def Chip.claimOf (s : Chip) (n : Nat) : Option Claim := s.bear.pend.find? (fun c => c.who = n)
def Chip.grantOf (s : Chip) (n : Nat) : Option Grant := s.bear.grants.find? (fun g => g.who = n)
def Chip.holds (s : Chip) (n : Nat) : Bool := (s.grantOf n).isSome

def Chip.dropClaim (s : Chip) (n : Nat) : Chip :=
  s.setBear { s.bear with pend := s.bear.pend.filter (fun c => c.who ≠ n) }

/-- Deny a claim and remove it. -/
def Chip.deny (s : Chip) (n code : Nat) : Chip := (s.dropClaim n).answer { who := n, kind := .deny, code := code }

/-- Grant a claim at `power` (R130, R139, R140, R143).  The transmitter's on-time is counted as its granted time.
[DESIGN CHOICE, unsafe: notes/assumptions/157] -/
def Chip.grant (s : Chip) (c : Claim) (power : Nat) : Chip :=
  let b := s.bear
  let g : Grant := { who := c.who, power := power, dur := c.dur, cont := c.cont, start := s.now, cls := c.cls, arrival := c.arrival,
                     minP := c.minP, deadline := c.deadline }
  let b1 := { b with grants := g :: b.grants, pend := b.pend.filter (fun x => x.who ≠ c.who),
                     resv := match c.resv with
                       | none => b.resv
                       | some i => setAt b.resv i none,
                     lastStagger := if staggered c.who then some s.now else b.lastStagger,
                     txOn := if c.who = 4 then (s.now, s.now + c.dur) :: b.txOn else b.txOn }
  (s.setBear b1).answer { who := c.who, kind := if power < c.power then .reduced else .grant, power := power }

/-- The claim would fit once every marked grant has stopped. -/
def Chip.fitsUnmarked (s : Chip) (c : Claim) : Bool :=
  let left := s.bear.grants.filter (fun x => !x.marked)
  if c.cont then decide ((c.power : Int) ≤ freeRefill s.refill left)
  else decide (0 ≤ (s.acct left s.bear.resv).margin c.power c.dur s.now)

/-- Mark class-3 grants, the newest first, until the power and energy they free would let the claim fit (R134). -/
def Chip.markFor (s : Chip) (c : Claim) : List Grant → Chip
  | [] => s
  | g :: l =>
    if s.fitsUnmarked c then s
    else
      let s1 := s.setBear { s.bear with grants := s.bear.grants.map (fun x => if x.who = g.who then { x with marked := true } else x) }
      (if 13 ≤ g.who then s1.setBit (F.EGY_SWANS_MARKED g.who) true else s1).markFor c l

def Chip.preempt (s : Chip) (c : Claim) : Chip :=
  if c.cls = 0 then
    let victims := (sortBy Grant.start (s.bear.grants.filter (fun g => g.cls = 3 && !g.marked))).reverse
    s.markFor c victims
  else s

/-- ever_fits(c) (R132).
[DEDUCED, unsafe: notes/assumptions/25] -/
def Chip.everFits (s : Chip) (c : Claim) : Bool :=
  if c.cont then decide (c.power ≤ s.refill)
  else decide (((c.power : Int) - s.refill) * c.dur ≤ (uJ s.cap : Int) - uJ s.head)

/-- Examine one pending claim (R132); returns the state and the stagger that later claims meet.
[DEDUCED, unsafe: notes/assumptions/25] -/
def Chip.examine (s : Chip) (stag : Nat) (n : Nat) : Chip × Nat :=
  match s.claimOf n with
  | none => (s, stag)
  | some c0 =>
    let c := match c0.resv with
      | some i => if (s.bear.resv.getD i none).isSome then c0 else { c0 with resv := none }
      | none => c0
    let (e0, cause0) := s.earliest c stag
    let never := n = 12 && s.bear.valid && !s.everFits c
    let (e, cause) := if never then (none, Rc.NEVER_FITS) else (e0, cause0)
    let gap := us (s.fld F.EGY_CFG_STAGGER)
    let defer (e : Option Nat) (cause : Nat) (s : Chip) : Chip :=
      let moved := !c.answered || c.earliest ≠ e
      let c' := { c with answered := true, earliest := e, cause := cause }
      let s1 := s.setBear { s.bear with pend := s.bear.pend.map (fun x => if x.who = n then c' else x) }
      if moved then s1.answer { who := n, kind := .defer, code := cause, start := e } else s1
    if e = some s.now then
      ((s.grant c c.power), if staggered n then s.now + gap else stag)
    else
      match if n = 4 && s.energyOnly c stag then s.bestStep c else none with
      | some p => (s.grant c p, stag)
      | none =>
        let s0 := if cause = Rc.BUDGET then s.preempt c else s
        match e with
        | none => (defer none cause s0, stag)
        | some t =>
          let late := match c.deadline with
            | some d => d < t && cause ≠ Rc.WARNING
            | none => false
          if late then (s0.deny n Rc.LATE, stag)
          else if horizon ≤ s0.ticksTo t then
            if n = 12 then (defer none Rc.HORIZON s0, stag) else (s0.deny n Rc.HORIZON, stag)
          else (defer (some t) cause s0, if staggered n then t + gap else stag)

/-- The cycle of ENERGY, 1 MHz, that an instant lies in.
[DESIGN CHOICE, unsafe: notes/assumptions/158] -/
def energyCycle (t : Nat) : Nat := t / 32

/-- The order of admission: class, claims that spend a reservation, arrival, claimant (R132, R133). -/
def claimBefore (a b : Claim) : Bool :=
  if a.cls ≠ b.cls then a.cls < b.cls
  else if a.resv.isSome ≠ b.resv.isSome then a.resv.isSome
  else if energyCycle a.arrival ≠ energyCycle b.arrival then a.arrival < b.arrival
  else a.who ≤ b.who

def insertClaim (c : Claim) : List Claim → List Claim
  | [] => [c]
  | x :: l => if claimBefore c x then c :: x :: l else x :: insertClaim c l

/-- A claim that arrived in the present cycle of ENERGY: Bear takes those of one cycle together, at its end (R133). -/
def Chip.fresh (s : Chip) (c : Claim) : Bool := !c.answered && energyCycle c.arrival = energyCycle s.now

/-- Examine the pending claims that `p` lets through, in their order. -/
def Chip.examineAll (s : Chip) (p : Claim → Bool) : Chip :=
  let order := ((s.bear.pend.filter p).foldr insertClaim []).map Claim.who
  let stag := match s.bear.lastStagger with
    | none => 0
    | some t => t + us (s.fld F.EGY_CFG_STAGGER)
  (order.foldl (fun (p : Chip × Nat) n => p.1.examine p.2 n) (s.syncLevel, stag)).1

/-- admission() (R132): at each release, earliest start and measurement, and at the end of a cycle with claims. -/
def Chip.admission (s : Chip) : Chip := s.examineAll (fun c => !s.fresh c)

/-- The reservation that a claim of claimant `n` spends (R139). -/
def Chip.matchResv (s : Chip) (n power dur : Nat) : Option Nat :=
  let l := (List.range 64).filter (fun i =>
    match s.bear.resv.getD i none with
    | none => false
    | some b => b.who = n && power ≤ b.power && dur ≤ b.len && s.resvTime b ≤ s.now + msec 1 && s.now ≤ s.resvTime b + msec 1)
  (sortBy (fun i => ((s.bear.resv.getD i none).map Resv.start).getD 0) l).head?

/-- Whether a duration suits a duration class (R129). -/
def durOk (cls count : Nat) (ms cont : Bool) : Bool :=
  match cls with
  | 0 => !cont && !ms && 1 ≤ count && count ≤ 100
  | 1 => !cont && !ms && 1 ≤ count && count ≤ 10000
  | 2 => !cont && 1 ≤ count && (if ms then count ≤ 524287 else count ≤ 524287000)
  | _ => cont

/-- A claim reaches Bear (R132), which admits it at the end of the cycle (R133).  A continuous claim carries no duration.
Before the first measurement after a reset a claim is not held against ever_fits, since Bear knows neither REFILL nor CAP.
[DESIGN CHOICE, unsafe: notes/assumptions/193]
[DESIGN CHOICE, safe: notes/assumptions/78] -/
def Chip.makeClaim (s : Chip) (n power count : Nat) (ms : Bool) (cls : Nat) (minP deadline : Option Nat) : Chip :=
  let dcls := s.fld (F.EGY_DECL_DCLASS n)
  let cont := dcls = 3
  let dur := if cont then 0 else if ms then msec count else us count
  let peak := s.fld (F.EGY_DECL_PEAK n)
  let s0 := s.dropClaim n
  let c : Claim := { who := n, power := power, dur := dur, cont := cont, minP := minP, deadline := deadline, cls := cls,
                     arrival := s.now, earliest := some ((energyCycle s.now + 1) * 32), resv := if cont then none else s.matchResv n power dur }
  if s.holds n then s
  else if peak = 0 then s0.deny n Rc.UNDECLARED
  else if peak < power then s0.deny n Rc.BUDGET
  else if !durOk dcls count ms cont then s0.deny n Rc.RANGE
  else if n = 4 && s.fld F.EGY_STAT_THERM = 2 then s0.deny n Rc.THERMAL
  else if s.bear.valid && n ≠ 12 && c.resv.isNone && !s.everFits c then s0.deny n Rc.NEVER_FITS
  else s0.setBear { s0.bear with pend := s0.bear.pend ++ [c] }

/-- A claim at its claimant's declared class.
[DESIGN CHOICE, safe: notes/assumptions/78] -/
def Chip.claim (s : Chip) (n power count : Nat) (ms : Bool) (minP deadline : Option Nat := none) : Chip :=
  s.makeClaim n power count ms (s.fld (F.EGY_DECL_PCLASS n)) minP deadline

/-- A continuous claim (R128). -/
def Chip.claimCont (s : Chip) (n power : Nat) : Chip := s.claim n power 0 false

/-- A continuous claim whose answer decides an enable: Bear admits the claims that have arrived before the write completes (R13).
[DESIGN CHOICE, unsafe: notes/assumptions/158] -/
def Chip.claimNow (s : Chip) (n power : Nat) : Chip := (s.claimCont n power).examineAll (fun _ => true)

/-- A claimant's grant ends, by release or at its duration's end (R131). -/
def Chip.endGrant (s : Chip) (n : Nat) : Chip :=
  if s.holds n then
    let s1 := s.syncLevel
    let b := s1.bear
    let s2 := s1.setBear { b with grants := b.grants.filter (fun g => g.who ≠ n),
                                  txOn := if n = 4 then (match b.txOn with
                                    | (t, u) :: l => (t, min u s1.now) :: l
                                    | [] => []) else b.txOn }
    let s3 := if 13 ≤ n then (s2.setBit ⟨R.EGY_SWANS n, 25, 25⟩ false).setBit (F.EGY_SWANS_MARKED n) false else s2
    s3.admission
  else s

/-- A claimant gives up its grant and any pending claim. -/
def Chip.release (s : Chip) (n : Nat) : Chip := (s.dropClaim n).endGrant n

/-- A marked grant stops at its safe point and its claim rejoins PENDING with its first arrival (R134), a burst for
what is left of its duration.
[DESIGN CHOICE, unsafe: notes/assumptions/67] -/
def Chip.preemptStop (s : Chip) (n : Nat) : Chip :=
  match s.grantOf n with
  | none => s
  | some g =>
    if !g.marked || 13 ≤ n then s
    else
      let s1 := s.syncLevel
      let b := s1.bear
      let left := g.dur - (s1.now - g.start)
      let c : Claim := { who := n, power := g.power, dur := if g.cont then 0 else left, cont := g.cont, cls := g.cls, arrival := g.arrival,
                         minP := g.minP, deadline := g.deadline, answered := true, cause := Rc.PREEMPTED }
      let s2 := s1.setBear { b with grants := b.grants.filter (fun x => x.who ≠ n), pend := b.pend ++ [c] }
      (s2.answer { who := n, kind := .defer, code := Rc.PREEMPTED }).admission

/-! ### Reservations (R136 to R139) -/

/-- Whether the projection carries every reservation of a list (R137). -/
def Acct.carries (a : Acct) : Bool :=
  a.resv.all (fun b => a.head + a.need b.2.2 (b.2.1 - b.1) b.1 ≤ a.project true a.now b.1)

/-- Put a reservation into the first free entry of the table. -/
def addResv (b : Resv) : List (Option Resv) → Nat → List (Option Resv) × Option Nat
  | [], _ => ([], none)
  | none :: l, i => (some b :: l, some i)
  | some x :: l, i => let (l', r) := addResv b l (i + 1); (some x :: l', r)

/-- Add a reservation after the checks of R137: the code, the index and the state.  The claims of the same cycle that have
arrived come first (R133).
[DESIGN CHOICE, unsafe: notes/assumptions/158] -/
def Chip.reserve (s0 : Chip) (b : Resv) : Nat × Option Nat × Chip :=
  let s := if s0.bear.pend.any s0.fresh then s0.examineAll (fun _ => true) else s0.syncLevel
  let (l, i) := addResv b s.bear.resv 0
  let ahead := b.start - s.owl.stb
  if i.isNone then (Rc.RES_FULL, none, s)
  else if b.start < s.owl.stb + 33 ∨ horizon < ahead then (Rc.RES_WINDOW, none, s)
  else if !(s.acct s.bear.grants l).carries then (Rc.RES_OVERBOOK, none, s)
  else (Rc.OK, i, s.setBear { s.bear with resv := l })

/-- The reservation that EGY_RESS and EGY_RESP stage (R136). -/
def Chip.stagedResv (s : Chip) (w0 w1 : Word) (slot : Bool) : Resv :=
  let n := w1.toNat
  let lo := w0.toNat
  { start := s.owl.stb + (lo + 2 ^ 36 - s.stbLo) % 2 ^ 36, who := bits n 34 31, ms := bitOf n 30, power := bits n 29 19,
    count := bits n 18 0, bySlot := slot }

/-- A write of EGY_RESP commits the add (R137). -/
def Chip.egyResp (s : Chip) (ag : Agent) (v : Word) : Chip :=
  let (code, i, s1) := s.reserve (s.stagedResv (s.bear.ress.getD ag.code 0) v false)
  let b := s1.bear
  let old := b.resOk.getD ag.code (false, 0)
  let b1 := { b with resp := setAt b.resp ag.code v,
                     resOk := setAt b.resOk ag.code (match i with
                       | some k => (true, k)
                       | none => (false, old.2)) }
  (s1.setBear b1).setReason R.EGY_STAT code

/-- A write of EGY_RESC clears an entry; one of the slot engine only from Badger (EGY_RESC). -/
def Chip.egyResc (s : Chip) (ag : Agent) (v : Word) : Chip :=
  let i := v.toNat % 64
  match s.bear.resv.getD i none with
  | none => s.setReason R.EGY_STAT Rc.OK
  | some b =>
    if b.bySlot && ag ≠ .badger then s.setReason R.EGY_STAT Rc.OWNED
    else ((s.setBear { s.bear with resv := setAt s.bear.resv i none }).setReason R.EGY_STAT Rc.OK).admission

/-- EGY_RESST as agent `ag` reads it; the read clears EXPIRED. -/
def Chip.egyResst (s : Chip) (ag : Agent) : Word × Chip :=
  let used := (s.bear.resv.filter Option.isSome).length
  let ok := s.bear.resOk.getD ag.code (false, 0)
  (W (s.bear.expired <<< 16 ||| used <<< 8 ||| ok.1.toNat <<< 6 ||| ok.2), s.setBear { s.bear with expired := 0 })

/-- An unspent reservation expires: it is cleared and counted (R139).
[DEDUCED, unsafe: notes/assumptions/60] -/
def Chip.expireResv (s : Chip) (i : Nat) : Chip :=
  match s.bear.resv.getD i none with
  | none => s
  | some _ =>
    (s.setBear { s.bear with resv := setAt s.bear.resv i none, expired := min 255 (s.bear.expired + 1) }).admission

/-! ### Declarations and software claims (R129, R150) -/

/-- The first item that refuses a declaration (R150).
[DEDUCED, unsafe: notes/assumptions/49] [DEDUCED, unsafe: notes/assumptions/80] -/
def declCheck (n v : Nat) : Nat :=
  let cls := bits v 17 16
  if bitOf v 19 && n ≠ 4 then Rc.RANGE
  else if cls = 3 && (n = 4 || n = 11 || n = 12) then Rc.RANGE
  else if n = 12 && bits v 11 0 < 36 then Rc.RANGE
  else Rc.OK

/-- A write of EGY_DECLn: refused when locked, for a forbidden value, or below a held grant.
[DEDUCED, unsafe: notes/assumptions/80] -/
def Chip.egyDecl (s : Chip) (n : Nat) (v : Word) : Chip :=
  let m : Nat := if n ≤ 12 then 0xB0FFF else 0xBCFFF
  let old := (s.reg (R.EGY_DECL n)).toNat
  let new := (v.toNat &&& m) ||| (old - (old &&& m))
  if 16 ≤ n then s
  else if s.lockedSec 3 then s.setReason R.EGY_STAT Rc.LOCKED
  else if declCheck n new ≠ Rc.OK then s.setReason R.EGY_STAT (declCheck n new)
  else if (s.grantOf n).any (fun g => bits new 11 0 < g.power) then s.setReason R.EGY_STAT Rc.BUSY
  else (s.setReg (R.EGY_DECL n) (W new)).setReason R.EGY_STAT Rc.OK

/-- REFILL and CAP are the measured values held at their ceilings (R124).
[DEDUCED, unsafe: notes/assumptions/111] -/
def Chip.reclamp (s : Chip) : Chip :=
  if !s.bear.valid then s
  else
    let s0 := s.syncLevel
    let s1 := (s0.setFld F.EGY_SUPPLY_REFILL (min (s0.fld F.EGY_SUPPLY_MEAS) (s0.fld F.EGY_RLIM_CEIL))).setFld F.EGY_CAP_CAP
      (min (s0.fld F.EGY_CAP_MEAS) (s0.fld F.EGY_CLIM_CEIL))
    (s1.setBear { s1.bear with level := min s1.bear.level (uJ s1.cap) }).admission

/-- The RANGE items of EGY_RLIM, EGY_CLIM and EGY_CFG. -/
def egyRangeBad (a v : Nat) : Bool :=
  if a = R.EGY_RLIM then bits v 23 12 < bits v 11 0
  else if a = R.EGY_CLIM then bits v 35 18 < bits v 17 0
  else bits v 15 8 = 0 || 100 < bits v 15 8 || bits v 7 0 = 0

/-- A write of EGY_RLIM, EGY_CLIM or EGY_CFG.
[DEDUCED, unsafe: notes/assumptions/111] -/
def Chip.egyLimWrite (s : Chip) (a : Nat) (v : Word) : Chip :=
  let m : Nat := if a = R.EGY_RLIM then 0xFFFFFF else if a = R.EGY_CLIM then 0xFFFFFFFFF else 0xFFFFFFFF
  if s.lockedSec 3 then s.setReason R.EGY_STAT Rc.LOCKED
  else if egyRangeBad a v.toNat then s.setReason R.EGY_STAT Rc.RANGE
  else ((s.setReg a (W (v.toNat &&& m))).setReason R.EGY_STAT Rc.OK).reclamp

/-- The version-2 BUDGET body (R150). -/
def Chip.applyBudget (s : Chip) (body : List Nat) : Nat × Chip :=
  let decl (n : Nat) : Nat := body.getD (3 + n) 0
  if body.length ≠ 19 then (Rc.STREAM, s)
  else if bits (body.getD 0 0) 35 24 ≠ 0 ∨ bits (body.getD 2 0) 35 32 ≠ 0
      ∨ (List.range 16).any (fun n => bits (decl n) 35 20 ≠ 0 || bitOf (decl n) 18 || bits (decl n) 13 12 ≠ 0)
      ∨ egyRangeBad R.EGY_RLIM (body.getD 0 0) ∨ egyRangeBad R.EGY_CLIM (body.getD 1 0) ∨ egyRangeBad R.EGY_CFG (body.getD 2 0)
      ∨ (List.range 16).any (fun n => declCheck n (decl n) ≠ Rc.OK)
      ∨ (List.range 13).any (fun n => bits (decl n) 15 14 ≠ bits (regReset (R.EGY_DECL n)).toNat 15 14) then (Rc.RANGE, s)
  else
    let s1 := ((s.setReg R.EGY_RLIM (W (body.getD 0 0))).setReg R.EGY_CLIM (W (body.getD 1 0))).setReg R.EGY_CFG (W (body.getD 2 0))
    (Rc.OK, ((List.range 16).foldl (fun c n => c.setReg (R.EGY_DECL n) (W (decl n))) s1).reclamp)

/-- The default contents: the reset values. -/
def budgetDefault : List Nat :=
  [R.EGY_RLIM, R.EGY_CLIM, R.EGY_CFG].map (fun a => (regReset a).toNat) ++ (List.range 16).map (fun n => (regReset (R.EGY_DECL n)).toNat)

/-- A write of EGY_SWCLMn: a claim, a release, or BUSY while a grant is held. -/
def Chip.egySwclm (s : Chip) (n : Nat) (v : Word) : Chip :=
  let p := v.toNat % 4096
  if n < 13 ∨ 15 < n then s
  else if p = 0 then
    (((s.setReg (R.EGY_SWCLM n) v).release n).setBit ⟨R.EGY_SWANS n, 24, 24⟩ false).setReason R.EGY_STAT Rc.OK
  else if s.holds n then s.setReason R.EGY_STAT Rc.BUSY
  else ((s.setReg (R.EGY_SWCLM n) v).claim n p (bits v.toNat 34 12) (bitOf v.toNat 35)).setReason R.EGY_STAT Rc.OK

/-! ### Deadlines and the thermal state (R135, R142) -/

/-- A waiting claim's deadline has passed.
[DEDUCED, unsafe: notes/assumptions/68] -/
def Chip.deadlinePassed (s : Chip) (n : Nat) : Chip :=
  match s.claimOf n with
  | none => s
  | some c =>
    match c.deadline with
    | none => s
    | some _ => s.deny n Rc.LATE

/-- The thermal state after a sample of `t` degrees (R142); both steps down in one sample.
[DEDUCED, unsafe: notes/assumptions/27] -/
def thermNext (th : Nat) (t : Int) : Nat :=
  if 120 ≤ t then 2
  else if th = 2 ∧ 115 ≤ t then 2
  else if 110 ≤ t then 1
  else if th ≠ 0 ∧ 105 ≤ t then 1
  else 0

/-- A die temperature sample.  In state 2 a transmit claim is denied, a waiting one too (R142).
[DESIGN CHOICE, safe: notes/assumptions/6] [DEDUCED, unsafe: notes/assumptions/27] -/
def Chip.tempSample (s : Chip) (t : Int) : Chip :=
  let th := s.fld F.EGY_STAT_THERM
  let th' := thermNext th t
  let s1 := (s.setFld F.EGY_STAT_TEMP (unsigned 9 t)).setFld F.EGY_STAT_THERM th'
  let s2 := if th' = th then s1 else s1.occ 24
  (if th' = 2 && (s2.claimOf 4).isSome then s2.deny 4 Rc.THERMAL else s2).admission

/-! ### Measurements (R119, R121 to R126) -/

/-- The account energy of a VSYS sample in microvolts: ½ C (V² − 9.0 V²) / 0.92 (R119), C a charge in nC over a fall
in uV.
[DEDUCED, unsafe: notes/assumptions/24] -/
def sampleLevel (c : Nat × Nat) (uV : Nat) : Nat := c.1 * (uV * uV - 9000000000000) / (14375 * c.2)

/-- Bear lowers LEVEL to a sample that shows less energy.
[DEDUCED, unsafe: notes/assumptions/24] -/
def Chip.vsysSample (s : Chip) (uV : Nat) : Chip :=
  if !s.bear.valid then s
  else
    let s1 := s.syncLevel
    let e := sampleLevel s1.bear.c uV
    if e < s1.bear.level then (s1.setBear { s1.bear with level := e }).admission else s1

/-- The VIN brown-out threshold in microvolts (R98). -/
def vinBod (code : Nat) : Nat :=
  match code with
  | 0 => 1700000 | 1 => 2000000 | 2 => 2400000 | 3 => 2800000 | _ => 3100000

/-- The input-voltage floor of the buck-boost in eighths of a microvolt: VX, before the first measurement since reset
the brown-out threshold plus 0.20 V (R94). -/
def Chip.vxFloor (s : Chip) : Nat := s.bear.vx.getD (8 * (vinBod (s.fld F.PMU_BOD_VINBOD) + 200000))

/-- C from the capacity pulses: charge drawn over fall, 64 µC over 5 mV where 1,280 µs give less (R123). -/
def SupplyC (m : SupplyMeas) : Nat × Nat := if m.fall < 5000 then (64000, 5000) else (m.charge, m.fall)

/-- V2mA − V10mA in microvolts, RSRC × 8 mA. -/
def supplyDrop (m : SupplyMeas) : Int := (m.vin2 : Int) - m.vin10

/-- VOC = V2mA + 2 mA × RSRC in eighths of a microvolt (R122). -/
def supplyVoc (m : SupplyMeas) : Int := 8 * (m.vin2 : Int) + 2 * supplyDrop m

/-- VX in eighths of a microvolt: the higher of VOC / 2 and the VIN brown-out threshold plus 0.20 V. -/
def supplyVx (m : SupplyMeas) (bod : Nat) : Nat := max (supplyVoc m / 2).toNat (8 * (vinBod bod + 200000))

/-- The measured refill VX × (VOC − VX) / RSRC, rounded down to 0.25 mW.  A VOC at or below VX gives 0 and an RSRC of 0
or less the most that is held, the model's reading of two cases that the spec does not state.
[DESIGN CHOICE, unsafe: notes/assumptions/159] -/
def supplyRefill (m : SupplyMeas) (bod : Nat) : Nat :=
  let vx : Int := supplyVx m bod
  if supplyVoc m ≤ vx then 0
  else if supplyDrop m ≤ 0 then 4095
  else min 4095 (vx * (supplyVoc m - vx) / (8 * supplyDrop m * 250000)).toNat

/-- The measured capacity in microjoules: ½ C (3.6² − 3.0²) / 0.92, rounded down (R123). -/
def supplyCap (m : SupplyMeas) : Nat :=
  let c := SupplyC m
  min 262143 (c.1 * 49500 / (23 * c.2))

/-- The difference of two samples. -/
def absDiff (a b : Nat) : Nat := (a - b) + (b - a)

/-- VIN or VBS moved by more than 50 mV during the measurement. -/
def supplyMoved (m : SupplyMeas) : Bool := 50000 < absDiff m.vinBefore m.vinAfter || 50000 < absDiff m.vbsBefore m.vbsAfter

/-- Store REFILL, CAP, C and LEVEL in the Owl domain (R125).
[DEDUCED, unsafe: notes/assumptions/23] -/
def Chip.storeSupply (s : Chip) : Chip :=
  let p : Supply := { refill := s.refill, cap := s.cap, c := s.bear.c, level := s.bear.level, tick := s.owl.stb, src := s.reg R.EGY_SRC }
  { s with owl := { s.owl with supply := p } }

/-- Take a measurement's values into the account (R119, R122 to R124). -/
def Chip.takeSupply (s0 : Chip) (m : SupplyMeas) (code : Nat) : Chip :=
  let s := s0.syncLevel
  let bod := s.fld F.PMU_BOD_VINBOD
  let rf := supplyRefill m bod
  let cp := supplyCap m
  let s1 := (((s.setFld F.EGY_SUPPLY_MEAS rf).setFld F.EGY_SUPPLY_REFILL (min rf (s.fld F.EGY_RLIM_CEIL))).setFld F.EGY_CAP_MEAS cp).setFld
    F.EGY_CAP_CAP (min cp (s.fld F.EGY_CLIM_CEIL))
  let s2 := (s1.setFld F.EGY_SRC_VOC (supplyVoc m / 16000).toNat).setFld F.EGY_SRC_RSRC (min 4095 (supplyDrop m / 800).toNat)
  let c := SupplyC m
  let lvl := if s2.bear.valid then s2.bear.level else sampleLevel c m.vsys
  let s3 := s2.setBear { s2.bear with c := c, level := min lvl (uJ s2.cap), valid := true, vx := some (supplyVx m bod), calFails := 0,
                                      lowRepeats := 0, retryAt := none }
  let rbs := min 4095 ((m.vbs2 - m.vbs10) / 800)
  let s4 := s3.setFld F.MON_CELL_RBS rbs
  let first := s4.owl.rbs0.getD rbs
  let s5 := ({ s4 with owl := { s4.owl with rbs0 := some first } }).setFld F.MON_CELL_RBS0 first
  let s6 := { s5 with mon := { s5.mon with caps := (s5.owl.stb, s5.cap) :: s5.mon.caps } }
  ((s6.setReason R.EGY_STAT code).storeSupply).admission

/-- A measurement completes (R122, R124).
[DESIGN CHOICE, safe: notes/assumptions/6] -/
def Chip.measDone (s : Chip) (m : SupplyMeas) : Chip :=
  let s0 := s.setBear { s.bear with measuring := false }
  let bod := s0.fld F.PMU_BOD_VINBOD
  let low := supplyRefill m bod < s0.fld F.EGY_RLIM_FLOOR || supplyCap m < s0.fld F.EGY_CLIM_FLOOR
  if supplyMoved m then
    let n := s0.bear.calFails + 1
    (s0.setBear { s0.bear with calFails := if 3 ≤ n then 0 else n, lowRepeats := if 3 ≤ n then 0 else s0.bear.lowRepeats,
                               retryAt := if 3 ≤ n then none else some (s0.now + msec 10) }).setReason R.EGY_STAT Rc.CAL_FAIL
  else if low then
    if s0.bear.lowRepeats < 2 then
      s0.setBear { s0.bear with lowRepeats := s0.bear.lowRepeats + 1, retryAt := some (s0.now + msec 10) }
    else (s0.takeSupply m Rc.BELOW_FLOOR).occ 22
  else s0.takeSupply m Rc.OK

/-- LEVEL carries a measurement; the first since reset needs no level (R119, R121). -/
def Chip.measLevelOk (s : Chip) : Bool :=
  let a := s.acct s.bear.grants s.bear.resv
  !s.bear.valid || a.head + a.kept s.now + uJ 250 ≤ s.bear.level

/-- A chip-wake claim waits, and its next 100 ms have run (R108). -/
def Chip.wakeMeasDue (s : Chip) : Bool := s.pwr.wakeSrc ≠ 0 && !s.pwr.wakeGranted && s.pwr.remeasureAt.any (fun t => t ≤ s.now)

/-- A measurement that is due starts when LEVEL allows it (R121). -/
def Chip.measStart (s : Chip) : Chip :=
  if !(s.bear.measDue || s.wakeMeasDue) || s.bear.measuring then s
  else
    let s1 := s.syncLevel
    if s1.measLevelOk then
      let again := if s1.wakeMeasDue then some (s1.now + msec 100) else s1.pwr.remeasureAt
      { s1 with bear := { s1.bear with measDue := false, measuring := true }, pwr := { s1.pwr with remeasureAt := again } }
    else s1

/-- A measurement falls due (R121). -/
def Chip.measFallsDue (s : Chip) : Chip := (s.setBear { s.bear with measDue := true }).measStart

/-- A write of EGY_CTL.MEAS = 1: BUSY while a measurement runs or waits.
[DEDUCED, unsafe: notes/assumptions/26] -/
def Chip.measCmd (s : Chip) : Chip :=
  if s.bear.measuring || s.bear.measDue then s.setReason R.EGY_STAT Rc.BUSY else (s.setReason R.EGY_STAT Rc.OK).measFallsDue

end Sys2Proof.Machine
end

