-- ==== Sys2Proof/Machine/Clock.lean ====
section
/-!
DEFINITION. Clock domains, the Fox clock selection and the core voltage (spec/01 R22 to R26, spec/04
R96, R97).
-/
namespace Sys2Proof.Machine

/-! ### Rates (R23) -/

/-- The rate of a Fox clock code in MHz; none where the code is refused with RANGE. -/
def foxRate : Nat → Option Nat
  | 0x0 => some 0 | 0x1 => some 32 | 0x2 => some 16 | 0x8 => some 96 | 0x9 => some 64 | 0xA => some 48
  | 0xB => some 32 | 0xC => some 24 | 0xD => some 16 | _ => none

/-- Codes 0x8 to 0xD take the PLL. -/
def foxPll (code : Nat) : Bool := 8 ≤ code && code ≤ 13

/-- A core's claim at a rate: 18 µA/MHz at 3.6 V, rounded up to 0.25 mW (R128). -/
def coreClaimAt (mhz : Nat) : Nat := (mhz * 648 + 2499) / 2500

def Chip.foxCode (s : Chip) : Core → Nat
  | .foxA => s.fld F.CLK_FOX_FOXA_SEL | .foxB => s.fld F.CLK_FOX_FOXB_SEL | .badger => 9

/-- The rate that a core's clock selection gives it; Badger runs at 64 MHz (R22). -/
def Chip.coreRate (s : Chip) (c : Core) : Nat := (foxRate (s.foxCode c)).getD 0

def Chip.corePower (s : Chip) (c : Core) : Nat := coreClaimAt (s.coreRate c)

/-- A core's domain is provisioned. -/
def Chip.coreProv (s : Chip) : Core → Bool
  | .foxA => s.prov 6 | .foxB => s.prov 7 | .badger => s.prov 5

/-- The rate of FABRIC in MHz. -/
def Chip.fabricRate (s : Chip) : Nat := if s.cfg.fab48 then 48 else 32

/-- What calls for the system PLL (R22). -/
def Chip.pllWanted (s : Chip) : Bool :=
  s.cfg.pll && (s.prov 5 || (s.prov 4 && s.bit F.MDM_CTL_EN) || s.cfg.fab48 || foxPll (s.fld F.CLK_FOX_FOXA_SEL)
    || foxPll (s.fld F.CLK_FOX_FOXB_SEL))

/-- The PLL stops, and the cores wait for it on HF-REF no more. -/
def Chip.stopPll (s : Chip) : Chip :=
  ({ s with clk := { s.clk with pllOn := false, foxOnHf := false, pllLockAt := none } }).setBit F.CLK_STAT_PLLLOCK false

/-- Start or stop the PLL as it is wanted; it locks within 25 µs (R102). -/
def Chip.updatePll (s : Chip) : Chip :=
  let want := s.pwr.st = .run && s.pllWanted
  if want = s.clk.pllOn then s
  else if want then { s with clk := { s.clk with pllOn := true, foxOnHf := true, pllLockAt := some (s.now + us 25) } }
  else s.stopPll

/-- HF-REF stops, and with it the PLL; FINE is held (R31). -/
def Chip.stopHf (s : Chip) : Chip :=
  let f := if s.clk.hfOn then (s.stampTime s.now).2.2 else s.clk.fineHeld
  ({ s with clk := { s.clk with hfOn := false, fineHeld := f } }).stopPll

/-- HF-REF starts again: the publisher of R424, the PLL if it is wanted, cores on HF-REF until it locks. -/
def Chip.startHf (s : Chip) : Chip :=
  let s1 := if s.clk.hfOn then s else ({ s with clk := { s.clk with hfOn := true, hfSince := s.now } }).publish 125
  s1.updatePll

/-- The PLL locks: the cores that waited for it on HF-REF take their selected rates (R102). -/
def Chip.pllLock (s : Chip) : Chip :=
  if s.clk.pllOn && !s.bit F.CLK_STAT_PLLLOCK then
    ({ s with clk := { s.clk with foxOnHf := false, pllLockAt := none } }).setBit F.CLK_STAT_PLLLOCK true
  else s

/-! ### VCORE (R96, R97) -/

/-- The highest rate that a running domain among FOX-A, FOX-B, BADGER and FABRIC uses. -/
def Chip.highestRate (s : Chip) : Nat :=
  max (max (s.coreRate .foxA) (if s.prov 7 then s.coreRate .foxB else 0)) (max (if s.prov 5 then 64 else 0) s.fabricRate)

/-- The characterised minimum in force at a rate: the unit's own code of OTP word 4 (R96, R532). -/
def Chip.minCode (s : Chip) (mhz : Nat) : Nat :=
  let w := (s.otpRd 4).toNat
  if mhz ≤ 32 then bits w 7 0 else if mhz ≤ 64 then bits w 15 8 else bits w 23 16

/-- The code of VCORE for a minimum and a margin in mV: rounded up to 5 mV, held from 0.75 V to 0.90 V. -/
def vcoreCode (minCode margin : Nat) : Nat := min 40 (max 10 ((minCode * 5 + margin + 4) / 5))

def Chip.vcoreFor (s : Chip) (mhz : Nat) : Nat := vcoreCode (s.minCode mhz) (s.fld F.MON_PLAN0_CORE)

/-- The highest rate that VCORE serves: while a clock switch waits for VCORE, the rate after it (R97). -/
def Chip.vcoreRate (s : Chip) : Nat :=
  match s.clk.foxStall with
  | none => s.highestRate
  | some (v, _) => max s.highestRate (s.setReg R.CLK_FOX v).highestRate

/-- Put VCORE at what the rates and the margin in force ask for; in SLEEP it stays at what the low-power mode holds. -/
def Chip.setVcore (s : Chip) : Chip :=
  let r := s.vcoreRate
  let s1 := if s.pwr.st = .sleep then s else s.setFld F.PMU_VCORE_SETCODE (s.vcoreFor r)
  (s1.setFld F.PMU_VCORE_MINCODE (s.minCode r)).setFld F.PMU_VCORE_MARGIN (s.fld F.MON_PLAN0_CORE)

/-! ### Running domains (R22) -/

/-- RF-SAMPLE runs from the start of a lock or of a calibration step to the end of that radio activity. -/
def Chip.rfSampling (s : Chip) : Bool :=
  s.bit F.SYN_STAT_CALRUN || s.syn.stepEnd.isSome || s.syn.lockFrom.isSome || s.bit F.SYN_STAT_LOCK
    || s.lnk.live.any (fun l => l.rampAt.isSome || l.win.any (fun w => w.opened))

/-- A field is present, or the reader is enabled. -/
def Chip.nfcClocked (s : Chip) : Bool :=
  s.nfc.raw || s.bit F.NFC_STAT_FIELDON || (s.bit F.NFC_CTL_EN && s.bit F.NFC_CTL_READER)

/-- Whether domain `n` runs as agent `ag` reads it.  HCK and SVC_CK toggle only within the host's and the service port's
own transfers, so that HOST runs for a read the host makes in one, and SERVICE for the service port master's.
[DESIGN CHOICE, unsafe: notes/assumptions/162] -/
def Chip.domainRuns (s : Chip) (ag : Agent) (n : Nat) : Bool :=
  let awake := s.pwr.st = .run
  match n with
  | 0 => s.clk.lfOn
  | 1 => s.pwr.st ≠ .ship
  | 2 => s.clk.hfOn
  | 3 => awake && s.rfSampling
  | 4 => awake && s.prov 4 && s.bit F.CLK_STAT_PLLLOCK && s.bit F.MDM_CTL_EN
  | 5 => awake && s.prov 5 && s.bit F.CLK_STAT_PLLLOCK
  | 6 => awake && s.foxCode .foxA ≠ 0
  | 7 => awake && s.prov 7 && s.foxCode .foxB ≠ 0
  | 8 => awake
  | 9 => awake
  | 10 => s.pwr.st = .run || s.pwr.st = .sleep || (s.pwr.st = .hibernate && s.pwr.wakeSrc ≠ 0)
  | 11 => s.nfcClocked
  | 12 => ag = .host && s.fld F.HP_STAT_VER = 1
  | 13 => ag = .svc
  | _ => false

/-- CLK_RUN. -/
def Chip.clkRunView (s : Chip) (ag : Agent) : Word :=
  W ((List.range 14).foldl (fun acc n => putBit acc n (s.domainRuns ag n)) 0)

/-! ### CLK_FOX (R26) -/

/-- A held continuous grant takes a new power (R26). -/
def Chip.regrant (s : Chip) (n power : Nat) : Chip :=
  if s.holds n then
    let s1 := s.syncLevel
    (s1.setBear { s1.bear with grants := s1.bear.grants.map (fun g => if g.who = n then { g with power := power } else g) }).admission
  else s

/-- Whether claimant `n` may draw `power` continuously in place of what it holds. -/
def Chip.fitsCont (s : Chip) (n power : Nat) : Bool :=
  power ≤ s.fld (F.EGY_DECL_PEAK n) && (power : Int) ≤ freeRefill s.refill (s.bear.grants.filter (fun g => g.who ≠ n))

/-- A core that may have its clock stopped: in WAIT or halted. -/
def CoreSt.mayStop (c : CoreSt) : Bool := c.run = .wait || c.halted

/-- The first item that refuses a CLK_FOX value. -/
def Chip.clkFoxCheck (s : Chip) (v : Nat) : Nat :=
  let a := bits v 3 0
  let b := bits v 7 4
  let ch (n code old : Nat) : Bool := code ≠ old && !s.fitsCont n (coreClaimAt ((foxRate code).getD 0))
  let oldA := s.fld F.CLK_FOX_FOXA_SEL
  let oldB := s.fld F.CLK_FOX_FOXB_SEL
  if (foxRate a).isNone || (foxRate b).isNone then Rc.RANGE
  else if s.lockedSec 1 then Rc.LOCKED
  else if b ≠ 0 && !s.prov 7 then Rc.CLOCK_OFF
  else if (foxPll a || foxPll b) && !s.cfg.pll then Rc.COMBINATION
  else if ch 0 a oldA || ch 1 b oldB then Rc.BUDGET
  else if (a = 0 && oldA ≠ 0 && !s.cores.foxA.mayStop) || (b = 0 && oldB ≠ 0 && !s.cores.foxB.mayStop) then Rc.BUSY
  else Rc.OK

/-- The clock switch: the codes take effect, the grants follow the rates, VCORE may fall. -/
def Chip.switchFox (s : Chip) (v : Nat) : Chip :=
  let s1 := (s.setReg R.CLK_FOX (W (v % 256))).updatePll
  let s2 := (s1.regrant 0 (s1.corePower .foxA)).regrant 1 (s1.corePower .foxB)
  s2.setVcore

/-- A write of CLK_FOX: VCORE rises first where the highest rate rises, and the writer stalls (R97).  An accepted write
of another agent meanwhile takes the place of the one that waits; the spec is silent on it.
[DESIGN CHOICE, unsafe: notes/assumptions/161]
[DEDUCED, unsafe: notes/assumptions/13] -/
def Chip.clkFoxWrite (s : Chip) (ag : Agent) (v : Word) : Chip :=
  let n := v.toNat % 256
  let code := s.clkFoxCheck n
  let s1 := s.setReason R.CLK_STAT code
  if code ≠ Rc.OK then s1
  else
    let raised := ((s1.setReg R.CLK_FOX (W n))).highestRate
    if s1.highestRate < raised then
      ({ s1 with clk := { s1.clk with foxStall := some (W n, ag), vcoreAt := some (s1.now + us 20) } }).setFld F.PMU_VCORE_SETCODE
        (s1.vcoreFor raised)
    else s1.switchFox n

/-- VCORE has settled: the waiting clock switch is made. -/
def Chip.vcoreSettled (s : Chip) : Chip :=
  match s.clk.foxStall with
  | none => { s with clk := { s.clk with vcoreAt := none } }
  | some (v, _) => ({ s with clk := { s.clk with foxStall := none, vcoreAt := none } }).switchFox v.toNat

/-- A core whose CLK_FOX write waits for VCORE executes nothing (R97). -/
def Chip.stalled (s : Chip) (c : Core) : Bool :=
  match s.clk.foxStall with
  | none => false
  | some (_, ag) => ag = c.agent

end Sys2Proof.Machine
end

