-- ==== Sys2Proof/Machine/Monitor.lean ====
section
/-!
DEFINITION. The health monitor (spec/05 R144 to R149, spec/02 R63 to R65).
-/
namespace Sys2Proof.Machine

/-- LF ticks of 86,400 s. -/
def dayTicks : Nat := 86400 * 32768

/-- What was measured in the past 86,400 s (R146). -/
def pastDay {α : Type} (stb : Nat) (l : List (Nat × α)) : List α := (l.filter (fun e => stb < e.1 + dayTicks)).map Prod.snd

def prune {α : Type} (stb : Nat) (l : List (Nat × α)) : List (Nat × α) := l.filter (fun e => stb < e.1 + dayTicks)

def listMax (l : List Nat) : Nat := l.foldl max 0
def listMin (l : List Nat) : Nat := l.foldl min (l.headD 0)
def listMaxI (l : List Int) : Int := l.foldl max (l.headD 0)
def listMinI (l : List Int) : Int := l.foldl min (l.headD 0)

/-- Hold a value in `n` bits of two's complement. -/
def clampSigned (n : Nat) (v : Int) : Int := max (-(2 ^ (n - 1) : Int)) (min (2 ^ (n - 1) - 1 : Int) v)

/-! ### Measurements (R144, R145) -/

/-- The slowdown of a ring in 0.1 percent, with 0.5 percent taken off, held at 0 or above.  `n` is the
count, `ref` the factory reference, `code` VCORE's code, `t` the temperature. -/
def ringSlowdown (n ref code : Nat) (t : Int) : Nat :=
  -- (1 + 2 (V - 0.85)) (1 - 0.0010 (T - 25)) in millionths, with V in mV
  let v : Int := 700 + 5 * code
  let scaled : Int := (ref : Int) * (1000 + 2 * (v - 850)) * (1000 - (t - 25))
  if scaled ≤ 0 then 0 else ((scaled - (n : Int) * 1000000) * 1000 / scaled - 5).toNat

/-- The four rings, counted as FOX-A, FOX-B, BADGER, FABRIC. -/
def Chip.ringMeasure (s : Chip) (counts : List Nat) : Chip :=
  if !s.fabricOn then s
  else
    let w := (s.otpRd 5).toNat
    let t := signed 9 (s.fld F.EGY_STAT_TEMP)
    let slow (i : Nat) : Nat := ringSlowdown (counts.getD i 0) (bits w (9 * i + 8) (9 * i)) (s.fld F.PMU_VCORE_SETCODE) t
    let l := (List.range 4).map slow
    let reg := (List.range 4).foldl (fun acc i => acc ||| min 127 (l.getD i 0) <<< (8 * i)) 0
    let s1 := s.setReg R.MON_RING (W reg)
    { s1 with mon := { s1.mon with rings := (s1.owl.stb, listMax l) :: prune s1.owl.stb s1.mon.rings,
                                   nextRing := some (s1.now + secs 3600) } }

/-- HF-REF cycles counted over 32,768 LF ticks. -/
def Chip.hfLfMeasure (s : Chip) (cycles : Nat) : Chip :=
  if !s.clk.hfOn then s
  else
    let d := ((cycles : Int) - 32000000) * 5 / 8
    let s1 := s.setFld F.MON_XTAL_HFLF (unsigned 12 (clampSigned 12 d))
    { s1 with mon := { s1.mon with nextHfLf := some (s1.now + secs 1) } }

/-- A time correction of `c` units of 1/`per` µs (R144). -/
def Chip.monCorrection (s : Chip) (c : Int) (per : Nat) : Chip :=
  let now := s.owl.stb
  match s.mon.lastCorr with
  | none => { s with mon := { s.mon with lastCorr := some now } }
  | some t0 =>
    let dt := now - t0
    if dt = 0 then s
    else
      let d := c * (20 * 32768) / ((per * dt : Nat) : Int)
      let s1 := s.setFld F.MON_XTAL_LFMESH (unsigned 12 (clampSigned 12 d))
      { s1 with mon := { s1.mon with lastCorr := some now, drifts := (now, d) :: prune now s1.mon.drifts,
                                     gaps := (now, dt) :: prune now s1.mon.gaps } }

/-- A word program needed `n` pulses. -/
def Chip.monPulses (s : Chip) (n : Nat) : Chip :=
  let l := (s.owl.stb, n) :: prune s.owl.stb s.mon.pulses
  let v := l.map Prod.snd
  let s1 := (s.setFld F.MON_FLASH_MAXP (min 255 (listMax v))).setFld F.MON_FLASH_MEAN16 (min 255 (16 * v.foldl (· + ·) 0 / v.length))
  { s1 with mon := { s1.mon with pulses := l } }

/-! ### Re-planning (R65, R146 to R149) -/

/-- A re-plan starts; it completes within 5 ms. -/
def Chip.startPlan (s : Chip) (commanded : Bool) : Chip :=
  let s1 := s.setBit F.MON_STAT_PLANNING true
  { s1 with mon := { s1.mon with planning := true, commanded := commanded, planDoneAt := some (s1.now + msec 5),
                                 nextPlan := if commanded then s1.mon.nextPlan else s1.mon.nextPlan.map (· + dayTicks) } }

/-- The daily re-plan falls due. -/
def Chip.replanDue (s : Chip) : Chip := if s.mon.planning then s else s.startPlan false

/-- A write of MON_CTL: REPLAN = 1. -/
def Chip.replanCmd (s : Chip) : Chip :=
  if s.mon.planning then s.setReason R.MON_STAT Rc.BUSY else (s.setReason R.MON_STAT Rc.OK).startPlan true

def Chip.margin (s : Chip) (k : Nat) : Nat × Nat × Nat := s.cfg.margins.getD (k - 1) (0, 0, 0)

/-- What R146 gives for quantity `k`; none where it stays unchanged. -/
def Chip.planValue (s : Chip) (k : Nat) : Option Nat :=
  let stb := s.owl.stb
  let (value, floor, _) := s.margin k
  match k with
  | 1 => some (value + 5 * ((listMax (pastDay stb s.mon.rings) + 9) / 10))
  | 2 =>
    let d := pastDay stb s.mon.drifts
    if d.isEmpty then none
    else
      let w := (listMaxI d - listMinI d).toNat
      let t := listMax (pastDay stb s.mon.gaps)
      some (((50 * 327680 + w * t + 3276799) / 3276800) * 10)
  | 3 =>
    let c := pastDay stb s.mon.caps
    let sum := c.foldl (· + ·) 0
    if c.length ≤ 1 ∨ sum = 0 then some floor
    else some (floor + (2000 * c.length * (listMax c - listMin c) + sum - 1) / sum)
  | _ =>
    let p := pastDay stb s.mon.pulses
    if p.isEmpty then none else some (listMax p + 4)

/-- Load a quantity into the register that holds it in force. -/
def Chip.loadMargin (s : Chip) (k v : Nat) : Chip :=
  match k with
  | 1 => (s.setFld F.MON_PLAN0_CORE v).setVcore
  | 2 => s.setFld F.MON_PLAN0_GUARD v
  | 3 => s.setFld F.MON_PLAN0_HEADROOM v
  | _ => (s.setFld F.MON_PLAN1_PULSES v).setFld F.FLC_MAXPULSE_MAXPULSE v

/-- Set quantity `k` within its limits, with its limit flag (R65). -/
def Chip.planOne (s : Chip) (k : Nat) : Chip :=
  match s.planValue k with
  | none => s
  | some v =>
    let (_, floor, ceil) := s.margin k
    let v' := max floor (min ceil v)
    let s1 := s.loadMargin k v'
    if v' = v then s1 else s1.setFld ⟨R.MON_STAT, 8 + k, 8 + k⟩ 1

/-- The months until the least-squares line through points one day apart reaches `lim`, rising or
falling; none where it does not approach it (R148). -/
def trendMonths (ys : List Nat) (lim : Nat) (rising : Bool) : Option Nat :=
  let n : Int := ys.length
  let xs := List.range ys.length
  let sx : Int := xs.foldl (fun (a : Int) (x : Nat) => a + (x : Int)) 0
  let sxx : Int := xs.foldl (fun (a : Int) (x : Nat) => a + (x : Int) * (x : Int)) 0
  let sy : Int := ys.foldl (fun (a : Int) (y : Nat) => a + (y : Int)) 0
  let sxy : Int := (xs.zip ys).foldl (fun (a : Int) (p : Nat × Nat) => a + (p.1 : Int) * (p.2 : Int)) 0
  let den := n * sxx - sx * sx
  let num := n * sxy - sx * sy
  -- n × den × (the line's value at the last point)
  let last := sy * den + num * (n * (n - 1) - sx)
  let gap := (lim : Int) * n * den - last
  if rising then (if num ≤ 0 then none else some ((max 0 gap) * 86400 / (n * num * 2629800)).toNat)
  else if 0 ≤ num then none else some ((max 0 (-gap)) * 86400 / (n * (-num) * 2629800)).toNat

/-- The remaining-life estimate (R148). -/
def Chip.lifeEstimate (s : Chip) : Nat :=
  let pts := s.owl.trends
  if pts.length < 30 then 0xFFF
  else
    let col (i : Nat) : List Nat := pts.map (fun p => p.getD i 0)
    let ceil (k : Nat) : Nat := (s.margin k).2.2
    let floor := s.fld F.EGY_RLIM_FLOOR
    let l := [trendMonths (col 0) (ceil 1) true, trendMonths (col 1) (ceil 2) true, trendMonths (col 2) (ceil 4) true,
      if floor = 0 then none else trendMonths (col 3) floor false]
    min 4094 ((l.filterMap id).foldl min 4094)

/-- The day's point of the five trends, oldest first, at most 365 kept.
[DEDUCED, unsafe: notes/assumptions/95] -/
def Chip.addTrend (s : Chip) : Chip :=
  let p := [s.fld F.MON_PLAN0_CORE, s.fld F.MON_PLAN0_GUARD, s.fld F.MON_PLAN1_PULSES, s.fld F.EGY_SUPPLY_MEAS, s.fld F.MON_CELL_RBS]
  let l := s.owl.trends ++ [p]
  { s with owl := { s.owl with trends := l.drop (l.length - 365) } }

/-- A re-plan completes (R146 to R148).
[DEDUCED, unsafe: notes/assumptions/95] -/
def Chip.replanDone (s : Chip) : Chip :=
  if !s.mon.planning then s
  else
    let s1 := if s.cfg.adaptive then [1, 2, 3, 4].foldl Chip.planOne s else s
    let s2 := if s1.mon.commanded then s1 else s1.addTrend
    let life := s2.lifeEstimate
    let s3 := (s2.setFld F.MON_PLAN1_LIFE life).setReg R.MON_LAST (W s2.owl.stb)
    let alarm := s3.cfg.lifeAlarm ≠ 0 && life ≠ 0xFFF && life ≤ s3.cfg.lifeAlarm
    let s4 := s3.setBit F.MON_STAT_LIFEALM alarm
    let s5 := if alarm && !s3.bit F.MON_STAT_LIFEALM then s4.occ 23 else s4
    let s6 := (s5.setBit F.MON_STAT_PLANNING false).setReason R.MON_STAT Rc.OK
    ({ s6 with mon := { s6.mon with planning := false, planDoneAt := none } }).admission

end Sys2Proof.Machine
end

