-- ==== Sys2Proof/Machine/Queue.lean ====
section
/-!
DEFINITION. The 32 hardware queues (spec/01 R27, R28; spec/09 R264 to R269).
-/
namespace Sys2Proof.Machine

/-! ### The ring -/

def Chip.qSize (s : Chip) (q : Nat) : Nat := s.fld (F.QUE_RING_SIZE q)
def Chip.qKind (s : Chip) (q : Nat) : Nat := s.fld (F.QUE_CFG_KIND q)
def Chip.qEsz (s : Chip) (q : Nat) : Nat := s.fld (F.QUE_CFG_ESZ q)
def Chip.qOn (s : Chip) (q : Nat) : Bool := q < 32 && s.bit (F.QUE_CFG_ON q)
def Chip.qOwner (s : Chip) (q : Nat) : Nat := s.fld (F.QUE_CFG_OWNER q)
def Chip.qHead (s : Chip) (q : Nat) : Nat := s.fld (F.QUE_HEAD_HEAD q)
def Chip.qTail (s : Chip) (q : Nat) : Nat := (s.reg (R.QUE_TAIL q)).toNat
def Chip.setQHead (s : Chip) (q v : Nat) : Chip := s.setReg (R.QUE_HEAD q) (W v)
def Chip.setQTail (s : Chip) (q v : Nat) : Chip := s.setReg (R.QUE_TAIL q) (W v)

/-- Entries from head to tail (R27). -/
def ringCount (size head tail : Nat) : Nat := if size = 0 then 0 else (tail + size - head % size) % size

def Chip.qCount (s : Chip) (q : Nat) : Nat := ringCount (s.qSize q) (s.qHead q) (s.qTail q)

/-- The SRAM address of the entry at index `i`. -/
def Chip.qEntry (s : Chip) (q i : Nat) : Nat := s.fld (F.QUE_RING_BASE q) + i * s.qEsz q

/-- QUE_QSTATq as it reads. -/
def Chip.qstatView (s : Chip) (q : Nat) : Word :=
  let w := (s.reg (R.QUE_QSTAT q)).toNat
  W (bits w 35 24 <<< 24 ||| s.qCount q <<< 12 ||| (s.qOn q).toNat <<< 8 ||| bits w 7 0)

/-! ### The hardware sides (R27, R41) -/

/-- A drop: counted in OVF, and an occurrence of source 65. -/
def Chip.qDrop (s : Chip) (q : Nat) : Chip := (s.count (F.QUE_QSTAT_OVF q)).occ 65

/-- Whether a hardware producer's item for queue `q` is taken.
[DEDUCED, unsafe: notes/assumptions/19] -/
def Chip.qTakes (s : Chip) (q : Nat) : Bool := s.qOn q && s.qCount q + 1 < s.qSize q

/-- A hardware producer puts an entry: its words first, then the tail, or the item is dropped. -/
def Chip.produce (s : Chip) (q : Nat) (entry : List Word) : Chip :=
  if s.qTakes q then
    let s1 := s.wrs (s.qEntry q (s.qTail q)) (entry.take (s.qEsz q))
    (s1.setQTail q ((s.qTail q + 1) % s.qSize q)).occ (33 + q)
  else s.qDrop q

/-- The address of the entry at the head, where the queue is on and holds one. -/
def Chip.headEntry (s : Chip) (q : Nat) : Option Nat :=
  if s.qOn q && s.qCount q ≠ 0 then some (s.qEntry q (s.qHead q)) else none

/-- A hardware consumer advances head by one, if there is an entry. -/
def Chip.consume (s : Chip) (q : Nat) : Chip :=
  if s.qOn q && s.qCount q ≠ 0 then (s.setQHead q ((s.qHead q + 1) % s.qSize q)).occ (33 + q) else s

/-- A hardware consumer takes `n` entries. -/
def Chip.consumeN (s : Chip) (q : Nat) : Nat → Chip
  | 0 => s
  | n + 1 => (s.consume q).consumeN q n

/-! ### The software sides (R266) -/

def Chip.qReason (s : Chip) (q code : Nat) : Chip := s.setReason (R.QUE_QSTAT q) code

/-- The agent code that writes QUE_TAILq; none where the hardware does. -/
def Chip.tailWriter (s : Chip) (q : Nat) : Option Nat :=
  if s.qKind q = 5 then some (s.qOwner q)
  else if s.qKind q = 1 ∧ 8 ≤ q then some (s.qOwner q)
  else none

/-- The agent code that writes QUE_HEADq. -/
def Chip.headWriter (s : Chip) (q : Nat) : Option Nat :=
  if s.qKind q = 5 then some (s.fld (F.QUE_CFG_PEER q))
  else if (s.qKind q = 1 ∧ q < 8) ∨ (2 ≤ s.qKind q ∧ s.qKind q ≤ 4) then some (s.qOwner q)
  else none

/-- Agent `ag` may act as the writer. -/
def mayWrite (ag : Agent) (w : Option Nat) : Bool :=
  match w with
  | none => false
  | some o => owns ag o

/-- A write of QUE_TAILq.
[DEDUCED, unsafe: notes/assumptions/19] -/
def Chip.queTailWrite (s : Chip) (ag : Agent) (q : Nat) (v : Word) : Chip :=
  let t := v.toNat % 4096
  let n := s.qSize q
  if 32 ≤ q then s
  else if !mayWrite ag (s.tailWriter q) then s.qReason q Rc.OWNED
  else if n ≤ t then s.qReason q Rc.RANGE
  else if n ≤ s.qCount q + ringCount n (s.qTail q) t then s.qReason q Rc.BUSY
  else
    let s1 := (s.setQTail q t).qReason q Rc.OK
    if s.qKind q = 5 && t ≠ s.qTail q then s1.occ (33 + q) else s1

/-- A write of QUE_HEADq. -/
def Chip.queHeadWrite (s : Chip) (ag : Agent) (q : Nat) (v : Word) : Chip :=
  let h := v.toNat % 4096
  let n := s.qSize q
  if 32 ≤ q then s
  else if !mayWrite ag (s.headWriter q) then s.qReason q Rc.OWNED
  else if n ≤ h ∨ s.qCount q < ringCount n (s.qHead q) h then s.qReason q Rc.RANGE
  else (s.setQHead q h).qReason q Rc.OK

/-! ### Turning a queue on and off (R267) -/

/-- The SRAM regions a queue's configuration uses: its ring, and the buffers of a receive link queue. -/
def qRegions (q ring buf cfg : Nat) : List (Nat × Nat) :=
  let n := bits ring 35 24
  (bits ring 23 0, n * bits cfg 28 25) :: (if q < 8 then [(bits buf 23 0, n * bits buf 35 24)] else [])

def regionsClash (a b : List (Nat × Nat)) : Bool :=
  a.any (fun x => b.any (fun y => x.2 ≠ 0 && y.2 ≠ 0 && x.1 < y.1 + y.2 && y.1 < x.1 + x.2))

/-- Words `a` to `a + n − 1` lie in SRAM. -/
def inSram (a n : Nat) : Bool := 0x10000 ≤ a && a + n ≤ 0x50000

/-- Whether ESZ suits the kind. -/
def eszOk (kind esz : Nat) : Bool :=
  match kind with
  | 1 => esz = 4 | 2 => esz = 4 | 4 => esz = 4 | 3 => esz = 3 | 5 => 1 ≤ esz && esz ≤ 15 | _ => true

/-- The check of R267 on a configuration of queue `q`. -/
def Chip.queueOnCheck (s : Chip) (q ring buf cfg : Nat) : Nat :=
  let kind := bits cfg 31 29
  let bufsz := bits buf 35 24
  let regs := qRegions q ring buf cfg
  let others := (List.range 32).filter (fun p => p ≠ q && s.qOn p)
  let word (r : Nat → Nat) (p : Nat) : Nat := (s.reg (r p)).toNat
  if bits ring 35 24 < 2 || regs.any (fun r => !inSram r.1 r.2) || 6 ≤ kind || (kind = 1) ≠ (q < 16) || !eszOk kind (bits cfg 28 25)
      || (q < 8 && (bufsz = 0 || 512 < bufsz)) then Rc.RANGE
  else if others.any (fun p => regionsClash regs (qRegions p (word R.QUE_RING p) (word R.QUE_BUF p) (word R.QUE_CFG p)))
      || (kind = 2 && others.any (fun p => s.qKind p = 2)) then Rc.COMBINATION
  else Rc.OK

/-- The head entry of a link transmit queue is another one than before: the engine forgets what it kept of the old one. -/
def Chip.newHead (s : Chip) (q : Nat) : Chip :=
  let l := s.lnk
  if 8 ≤ q && q < 16 then
    { s with lnk := { l with heads := setAt l.heads (q - 8) (l.heads.getD (q - 8) 0 + 1), tries := setAt l.tries (q - 8) 0,
                             books := setAt l.books (q - 8) none, barred := setAt l.barred (q - 8) [], unbooked := setAt l.unbooked (q - 8) false } }
  else s

def qCfgMask : Nat := 0xFFF000000

/-- A write of QUE_CFGq.  The REASON that takes LOCKED is QUE_QSTATq's.
[DESIGN CHOICE, unsafe: notes/assumptions/191]
[DEDUCED, unsafe: notes/assumptions/164]
[DEDUCED, unsafe: notes/assumptions/84] -/
def Chip.queCfgWrite (s : Chip) (ag : Agent) (q : Nat) (v : Word) : Chip :=
  let new := v.toNat &&& qCfgMask
  let old := (s.reg (R.QUE_CFG q)).toNat
  let off (w : Nat) : Nat := w &&& 0xFFE000000
  if 32 ≤ q then s
  else if s.lockedSec 7 then s.qReason q Rc.LOCKED
  else if !owns ag (s.qOwner q) then s.qReason q Rc.OWNED
  else if s.qOn q then
    if off new ≠ off old then s.qReason q Rc.BUSY
    else (s.setReg (R.QUE_CFG q) (W new)).qReason q Rc.OK
  else if bitOf new 24 then
    let s1 := (s.setReg (R.QUE_CFG q) (W (off new)))
    let code := s.queueOnCheck q (s.reg (R.QUE_RING q)).toNat (s.reg (R.QUE_BUF q)).toNat new
    if code = Rc.OK then
      ((((s1.newHead q).setReg (R.QUE_CFG q) (W new)).setQHead q 0).setQTail q 0).setFld (F.QUE_QSTAT_OVF q) 0 |>.qReason q Rc.OK
    else s1.qReason q code
  else (s.setReg (R.QUE_CFG q) (W new)).qReason q Rc.OK

/-- A write of QUE_RINGq or QUE_BUFq, register `r`.
[DEDUCED, unsafe: notes/assumptions/164] -/
def Chip.queRegWrite (s : Chip) (ag : Agent) (q r : Nat) (v : Word) : Chip :=
  if s.lockedSec 7 then s.qReason q Rc.LOCKED
  else if !owns ag (s.qOwner q) then s.qReason q Rc.OWNED
  else if s.qOn q && v ≠ s.reg r then s.qReason q Rc.BUSY
  else (s.setReg r v).qReason q Rc.OK

/-- A read of QUE_QSTATq clears OVF. -/
def Chip.qstatRead (s : Chip) (q : Nat) : Word × Chip := (s.qstatView q, s.setFld (F.QUE_QSTAT_OVF q) 0)

/-! ### The QUEUES section (R268, R269) -/

/-- The code of a section from those of its images: what any of them finds of an item comes before what any finds of a later
item, the structural items first (R52). -/
def sectionCode (codes : List Nat) : Nat :=
  ([Rc.RANGE, Rc.COMBINATION, Rc.CLOCK_OFF, Rc.PIN_PHASE, Rc.OWNED, Rc.BUDGET].find? codes.contains).getD ((codes.find? (fun c => c ≠ Rc.OK)).getD Rc.OK)

/-- Apply one queue's image; ON goes through R267. -/
def Chip.applyQueue (s : Chip) (q ring buf cfg : Nat) : Nat × Chip :=
  let cfg := cfg &&& qCfgMask
  let s1 := ((s.setReg (R.QUE_RING q) (W ring)).setReg (R.QUE_BUF q) (W buf)).setReg (R.QUE_CFG q) (W (cfg &&& 0xFFE000000))
  let s2 := ((s1.setQHead q 0).setQTail q 0).setFld (F.QUE_QSTAT_OVF q) 0
  if bitOf cfg 24 then
    let code := s1.queueOnCheck q ring buf cfg
    if code = Rc.OK then (Rc.OK, s2.setReg (R.QUE_CFG q) (W cfg)) else (code, s2)
  else (Rc.OK, s2)

/-- Every queue off. -/
def Chip.queuesOff (s : Chip) : Chip :=
  (List.range 32).foldl (fun c q => c.setReg (R.QUE_CFG q) (W ((c.reg (R.QUE_CFG q)).toNat &&& 0xFFE000000))) s

def Chip.applyQueueList (s : Chip) (q : Nat) : List Nat → List Nat × Chip
  | ring :: buf :: cfg :: l =>
    let (code, s1) := s.applyQueue q ring buf cfg
    let (codes, s2) := s1.applyQueueList (q + 1) l
    (code :: codes, s2)
  | _ => ([], s)

/-- The version-2 QUEUES body. -/
def Chip.applyQueues (s : Chip) (body : List Nat) : Nat × Chip :=
  if body.length ≠ 96 then (Rc.STREAM, s) else (let r := s.queuesOff.applyQueueList 0 body; (sectionCode r.1, r.2))

/-- The version-1 body in version 2's layout (R269). -/
def queuesV1 (body : List Nat) : List Nat :=
  ((List.range 16).flatMap (fun q => [body.getD q 0, regResetNat (R.QUE_BUF q), 0x029000000])) ++ List.replicate 48 0

/-- The default contents: the reset values. -/
def queuesDefault : List Nat :=
  (List.range 32).flatMap (fun q => [regResetNat (R.QUE_RING q), regResetNat (R.QUE_BUF q), regResetNat (R.QUE_CFG q)])

end Sys2Proof.Machine
end

