-- ==== Sys2Proof/Machine/Peers.lean ====
section
/-!
DEFINITION. What the mesh layer keeps of its neighbours' links, where the link engine reports to it: Q, rank
(spec/10 R306), and the layer's area in flash.
-/
namespace Sys2Proof.Machine

def Chip.setMesh (s : Chip) (m : Mesh) : Chip := { s with mesh := m }

def Chip.meshPeer (s : Chip) (a : Nat) : Option MeshPeer := s.mesh.peers.find? (fun p => p.addr = a)
def Chip.setPeer (s : Chip) (p : MeshPeer) : Chip := s.setMesh { s.mesh with peers := p :: s.mesh.peers.filter (fun x => x.addr ≠ p.addr) }

/-- step(p), and RANK(p) + step(p). -/
def MeshPeer.step (p : MeshPeer) : Nat := 256 + 4 * (255 - p.q)
def MeshPeer.sum (p : MeshPeer) : Nat := p.rank + p.step

/-- Q(p) takes one sample. -/
def qNext (q l : Nat) : Nat := (7 * q + l + 4) / 8

/-- One sample of the link to `a`: the node's rank follows that of its preferred parent, and the parents are to be looked at
again. -/
def Chip.sampleQ (s : Chip) (a l : Nat) : Chip :=
  match s.meshPeer a with
  | none => s
  | some p =>
    let p1 := { p with q := qNext p.q l }
    let s1 := s.setPeer p1
    let own := if s1.mesh.parents.head? = some a then min 0xFFFE p1.sum else s1.mesh.rank
    s1.setMesh { s1.mesh with rank := own, recheck := true }

/-- `n` transmissions to `a` ended without a good acknowledgement. -/
def Chip.missQ (s : Chip) (a : Nat) : Nat → Chip
  | 0 => s
  | n + 1 => (s.sampleQ a 0).missQ a n

/-! ### The layer's area in flash (R291, R299, R303)

The spec leaves the place to the layer: the address register, the settings, and a log of marks in two sectors.
[DESIGN CHOICE, unsafe: notes/assumptions/172] -/

/-- `a` is after `b`, of generations counted modulo 2^32. -/
def seqAfter (a b : Nat) : Bool := let d := (a + 2 ^ 32 - b) % 2 ^ 32; d ≠ 0 && d < 2 ^ 31

/-- Entry `a` of the address register, two words. -/
def addrEntry (a : Nat) : Nat := 0x1E0000 + 2 * a
def meshSetBase : Nat := 0x1E8000
def markBase (h : Nat) : Nat := 0x1E8400 + 0x400 * h

/-- The word that ends the settings, and whether they are there. -/
def meshSetEnd : Word := W 0x4D4553480
def Chip.meshSettings (s : Chip) : Bool := s.flashRd (meshSetBase + 12) = meshSetEnd

/-- A mark's word: the key and the value. -/
def markWord (k v : Nat) : Word := W (k <<< 32 ||| v % 2 ^ 32)

/-- The word at the head of a half of the log, by which the newer half is known: the last word of a half's first words to be
programmed. -/
def Chip.markGen (s : Chip) (h : Nat) : Option Nat :=
  let w := (s.flashRd (markBase h)).toNat
  if !s.flashUndefAt (markBase h) && bits w 35 32 = 14 then some (bits w 31 0) else none

/-- The programmed words of half `h` of the log, oldest first, and the first position after them. -/
def Chip.markHalf (s : Chip) (h : Nat) : List Nat :=
  (s.flash.filter (fun e => markBase h ≤ e.1 && e.1 < markBase h + 0x400)).map (fun e => (s.flashRd e.1).toNat)
def Chip.markEnd (s : Chip) (h : Nat) : Nat :=
  (((s.flash.map Prod.fst ++ s.flashBad.map Prod.fst).filter (fun a => markBase h ≤ a && a < markBase h + 0x400)).map (fun a => a - markBase h + 1)).foldl max 0

/-- The half that is being filled. -/
def Chip.markNew (s : Chip) : Option Nat :=
  match s.markGen 0, s.markGen 1 with
  | some a, some b => some (if seqAfter b a then 1 else 0)
  | some _, none => some 0
  | none, some _ => some 1
  | none, none => none
def Chip.markLog (s : Chip) : List Nat :=
  match s.markNew with
  | some h => (if (s.markGen (1 - h)).isSome then s.markHalf (1 - h) else []) ++ s.markHalf h
  | none => []

/-- The mark of key `k` that flash holds, and the epoch whose mark is the last. -/
def Chip.markOf (s : Chip) (k : Nat) : Nat := ((s.markLog.filter (fun w => bits w 35 32 = k)).getLast?.map (fun w => bits w 31 0)).getD 0
def Chip.markEpoch (s : Chip) : Nat := ((s.markLog.filter (fun w => bits w 35 32 < 2)).getLast?.map (fun w => bits w 33 32)).getD 0

/-- Half `h` takes over: it is erased, and takes the other keys' marks and this one, its head last. -/
def Chip.markOver (s : Chip) (h gen k v : Nat) : List MeshFlash :=
  let b := markBase h
  let put (a k v : Nat) : MeshFlash := .prog a (markWord k v).toNat
  let rest := [0, 1, 2].filter (· ≠ k)
  .erase b :: ((rest.zipIdx.map (fun (j, i) => put (b + 1 + i) j (s.markOf j))) ++ [put (b + 3) k v, put b 14 gen, .mark k v (b + 3)])

/-- Program one mark where the log has room; a full half hands over to the other. -/
def Chip.markSteps (s : Chip) (k v : Nat) : List MeshFlash :=
  match s.markNew with
  | none => s.markOver 0 0 k v
  | some h =>
    let a := markBase h + s.markEnd h
    if s.markEnd h < 0x400 then [.prog a (markWord k v).toNat, .mark k v a]
    else s.markOver (1 - h) ((s.markGen h).getD 0 + 1) k v

/-- The mesh layer after a reset: its working memory is gone, and its counters resume at their marks (R291). -/
def Chip.meshRestart (s : Chip) : Mesh :=
  let m := [s.markOf 0, s.markOf 1, s.markOf 2]
  { jslot := s.mesh.jslot, nslot0 := s.mesh.nslot0, nslot1 := s.mesh.nslot1, prof := s.mesh.prof, rtBase := s.mesh.rtBase, fcnt := m,
    marks := m, epoch := s.markEpoch }

end Sys2Proof.Machine
end

