-- ==== Sys2Proof/Machine/Reset.lean ====
section
/-!
DEFINITION. The resets (spec/04 R100, R107, R113; spec/18 R517; spec/21 R599) and the wake sources
(spec/04 R106, R108).
-/
namespace Sys2Proof.Machine

/-! ### Resets -/

/-- The registers that the Owl domain keeps (R100, R101, R397, R409).
[DEDUCED, unsafe: notes/assumptions/54] -/
def owlReg (a : Nat) : Bool :=
  a = R.PMU_CAUSE || a = R.PIN_WAKE || (R.PMU_RET 0 ≤ a && a < R.PMU_RET 256)
    || (R.RTC_CTL ≤ a && a ≤ R.RTC_CFG) || a = R.WDT_CAUSE || a = R.FLC_INTR

/-- The fields of FLC_STAT that the Owl domain keeps: FAILS and LOCKOUT (R530). -/
def flcOwlMask : Word := maskOf 24 20

/-- Every SRAM bank in `mask` loses power: its words become undefined (R496).
[DEDUCED, unsafe: notes/assumptions/108] -/
def Chip.losePower (s : Chip) (mask : Nat) : Chip :=
  { s with sram := s.sram.filter (fun e => !bitOf mask (bankOf e.1)), sramErr := s.sramErr.filter (fun a => !bitOf mask (bankOf a)),
           sramLost := (List.range 16).map (fun n => s.sramLost.getD n 0 + (bitOf mask n).toNat) }

/-- The OTP row after a reset: a pulse that the reset cuts may have set some of its bits.
[DESIGN CHOICE, safe: notes/assumptions/176] -/
def Chip.otpCut (s : Chip) : List (Nat × Word) :=
  match s.flc.otp with
  | some o =>
    if s.flc.pulsing && s.flc.op.isNone then Cells.set zeroWord s.otp o.word (s.otpRd o.word ||| (o.data &&& Config.freeWord s.free)) else s.otp
  | none => s.otp

/-- A word program whose pulses had begun is recorded in FLC_INTR (R517); `s` is the state before the reset.  A word of a journal
or of the protection row, which has no address, is named as the busy word names it (R515).
[DEDUCED, unsafe: notes/assumptions/182] -/
def Chip.recordCut (s after : Chip) : Chip :=
  match s.flc.op with
  | some { steps := .prog _ _ :: _, pulses := p, spot := a, .. } =>
    if 0 < p || s.flc.pulsing then after.setReg R.FLC_INTR (W (2 ^ 35 + a % 2 ^ 24)) else after
  | _ => after

/-- The pin controller after a reset: the board's drivers, bank 2's supply and the field detector's level are not the
chip's to clear (R72, R79). -/
def Pins.restart (p : Pins) : Pins :=
  { pad := p.pad, driven := p.driven, kept := p.kept, io2ok := p.io2ok, latch := { fdet := p.latch.fdet } }

/-- A field on the antenna outlasts a reset, and EXTFLD shows the detector's level (R79, R354). -/
def Chip.fieldStays (s after : Chip) : Chip :=
  ({ after with nfc := { raw := s.nfc.raw } }).setBit F.NFC_STAT_EXTFLD s.pins.latch.fdet

/-- All domains but Owl cleared; the chip waits to boot.  What lies outside those domains stays: time,
flash, OTP, SRAM cells, and the levels the board drives.
[DEDUCED, unsafe: notes/assumptions/22] [DEDUCED, unsafe: notes/assumptions/54] -/
def Chip.clearAllButOwl (s : Chip) : Chip :=
  let kept : Chip :=
    { now := s.now, free := s.free + 1, regs := Cells.keep owlReg s.regs, sram := s.sram, sramLost := s.sramLost, flash := s.flash,
      flashBad := s.flashBad, flashBadSec := s.flashBadSec, flashOne := s.flashOne, flashErr := s.flashErr, sramErr := s.sramErr, otp := s.otpCut, mesh := s.meshRestart, owl := { s.owl with rtcWrite := none },
      clk := { lfOn := s.clk.lfOn, lfRc := s.clk.lfRc, lfxoOk := s.clk.lfxoOk, lfPhase := s.clk.lfPhase, vaonAt := s.clk.vaonAt, hfOn := true, hfSince := s.now },
      pins := s.pins.restart,
      pwr := { vinLow := s.pwr.vinLow, vsysLow := s.pwr.vsysLow } }
  s.recordCut (((s.fieldStays kept).setFld F.MON_CELL_RBS0 (s.owl.rbs0.getD 0)).setReg R.FLC_STAT (regReset R.FLC_STAT ||| (s.reg R.FLC_STAT &&& flcOwlMask)))

/-- Set bit `b` of PMU_CAUSE. -/
def Chip.setCause (s : Chip) (b : Nat) : Chip := s.setFld ⟨R.PMU_CAUSE, b, b⟩ 1

/-- Set PMU_CAUSE.FROM. -/
def Chip.setFrom (s : Chip) (v : Nat) : Chip := s.setFld F.PMU_CAUSE_FROM v

/-- A brown-out reset by the detector of PMU_CAUSE bit `b`; the SRAM banks lose power.
[DEDUCED, unsafe: notes/assumptions/108] -/
def Chip.brownout (s : Chip) (b : Nat) : Chip := (s.clearAllButOwl.losePower 0xFFFF).setCause b

/-- A power-on reset: every domain (R33, R107, R383, R397).
[DEDUCED, unsafe: notes/assumptions/47] -/
def Chip.powerOn (s : Chip) : Chip :=
  let fresh : Chip :=
    { now := s.now, free := s.free + 1, flash := s.flash, flashBad := s.flashBad, flashBadSec := s.flashBadSec, flashOne := s.flashOne, flashErr := s.flashErr, otp := s.otpCut, sram := s.sram,
      sramErr := s.sramErr, sramLost := s.sramLost, mesh := s.meshRestart,
      pins := s.pins.restart, clk := { hfOn := true, hfSince := s.now, vaonAt := s.now } }
  (s.fieldStays fresh).losePower 0xFFFF

/-- The chip leaves SHIP by the source of PMU_CAUSE bit `b` (R107). -/
def Chip.leaveShip (s : Chip) (b : Nat) : Chip := (s.powerOn.setCause b).setFrom 3

/-- A reset that keeps Owl, by the watchdog, RESETN or the service port. -/
def Chip.keepOwlReset (s : Chip) : ResetKind → Chip
  | .wdt c =>
    let s1 := s.clearAllButOwl.setCause 13
    (s1.setFld F.WDT_CAUSE_CAUSE c).setBit F.WDT_CAUSE_VALID true
  | .pin => s.clearAllButOwl.setCause 12
  | .svc => s.clearAllButOwl.setCause 14

/-- The reset happens now, or at the end of a flash pulse in progress (R409, R517). -/
def Chip.requestReset (s : Chip) (k : ResetKind) : Chip :=
  if s.flc.pulsing && s.flc.op.isSome && s.flc.pulseTill.any (fun t => s.now < t) then
    let s1 := match k with
      | .wdt _ => s.setBit F.WDT_CAUSE_DEFER true
      | _ => s
    { s1 with pwr := { s1.pwr with resetWait := some (s1.pwr.resetWait.getD k) }, flc := { s1.flc with pulseAt := s1.flc.pulseTill } }
  else s.keepOwlReset k

/-! ### Wake sources -/

/-- Power and duration of the chip-wake claim (R108).
[DEDUCED, unsafe: notes/assumptions/20] -/
def wakeClaim : PState → Nat × Nat
  | .sleep => (24, 35)
  | _ => (36, 1200)

/-- Bear's account at a wake from HIBERNATE (R125).
[DEDUCED, unsafe: notes/assumptions/23] -/
def Chip.restoreSupply (s : Chip) : Chip :=
  let p := s.owl.supply
  let lvl := p.level + p.refill * ((s.owl.stb - p.tick) * 15625 / 16)
  let s1 := ((s.setReg R.EGY_SUPPLY (W (p.refill <<< 12 ||| p.refill))).setReg R.EGY_CAP (W (p.cap <<< 18 ||| p.cap))).setReg
    R.EGY_SRC p.src
  s1.setBear { s1.bear with level := min (uJ p.cap) lvl, levelAt := s1.now, c := p.c, valid := true, grants := [] }

/-- A source whose PMU_CAUSE bit is `b` and whose PMU_WCLS field starts at bit `cls` fires: it aborts an
entry in progress, or makes the chip-wake claim, or joins one that waits (R106, R108).
[DEDUCED, unsafe: notes/assumptions/20] [DEDUCED, unsafe: notes/assumptions/28] [DEDUCED, unsafe: notes/assumptions/112] -/
def Chip.wakeEvent (s : Chip) (b cls : Nat) : Chip :=
  match s.pwr.entering with
  | some _ =>
    let s1 := ({ s with pwr := { s.pwr with entering := none } }).enterPhase s.openPhase
    ((s1.setCause b).setCause 15).occ 82
  | none =>
    if s.pwr.st = .sleep ∨ s.pwr.st = .hibernate then
      let w := putBit s.pwr.wakeSrc b true
      let c := bits (s.reg R.PMU_WCLS).toNat (cls + 1) cls
      if s.pwr.wakeSrc ≠ 0 then
        -- a source of the same cycle raises the class of the claim
        let pend := s.bear.pend.map (fun x => if x.who = 12 && s.fresh x && c < x.cls then { x with cls := c } else x)
        { s with pwr := { s.pwr with wakeSrc := w }, bear := { s.bear with pend := pend } }
      else
        let s0 := if s.pwr.st = .hibernate then s.restoreSupply else s
        let s1 := { s0 with pwr := { s0.pwr with wakeSrc := w } }
        let (p, d) := wakeClaim s1.pwr.st
        s1.makeClaim 12 p d false c none none
    else s

end Sys2Proof.Machine
end

