-- ==== Sys2Proof/Machine/Flash.lean ====
section
/-!
DEFINITION. The flash controller, Squirrel, the protection regions and the OTP programmer (spec/18).
-/
namespace Sys2Proof.Machine

def Chip.flcReason (s : Chip) (code : Nat) : Chip := s.setReason R.FLC_STAT code
def Chip.setFlc (s : Chip) (f : Flc) : Chip := { s with flc := f }

/-- A flash word's data and check bits read erased without correction (R506). -/
def Chip.flashErased (s : Chip) (a : Nat) : Bool := s.flashRd a = erasedWord && !s.flashErrAt a && !s.flashOneAt a

/-! ### Cells -/

/-- A word is written: bits only change from 1 to 0 (R506). -/
def Chip.flashPut (s : Chip) (a : Nat) (v : Word) : Chip :=
  { s with flash := Cells.set flashDefault s.flash a (Cells.get flashDefault s.flash a &&& v), flashBad := s.flashBad.filter (fun e => e.1 ≠ a),
           flashOne := s.flashOne.filter (· ≠ a), flashErr := s.flashErr.filter (· ≠ a) }

/-- A sector is erased. -/
def Chip.flashClear (s : Chip) (base : Nat) : Chip :=
  { s with flash := s.flash.filter (fun e => sectorBase e.1 ≠ base), flashBad := s.flashBad.filter (fun e => sectorBase e.1 ≠ base),
           flashBadSec := s.flashBadSec.filter (· ≠ base), flashOne := s.flashOne.filter (fun a => sectorBase a ≠ base),
           flashErr := s.flashErr.filter (fun a => sectorBase a ≠ base) }

/-- The words under a pulse are undefined until they verify.
[DEDUCED, safe: notes/assumptions/91] [DEDUCED, unsafe: notes/assumptions/126] -/
def Chip.flashSpoil (s : Chip) : FlStep → Chip
  | .prog a v => { s with flashBad := (a, v) :: s.flashBad.filter (fun e => e.1 ≠ a) }
  | .erase b =>
    { s with flash := s.flash.filter (fun e => sectorBase e.1 ≠ b), flashBadSec := b :: s.flashBadSec.filter (· ≠ b) }
  | .sector _ _ => s

def FlStep.addr : FlStep → Nat
  | .prog a _ => a | .erase b => b | .sector b _ => b

/-! ### Journals (R513, R516) -/

/-- The journal entry of a sector with Squirrel's count. -/
def journalWord (base count : Nat) : Word := W (((base - 0x100000) / 1024 % 512) <<< 18 ||| count % 2 ^ 18)

/-- The first free entry of a bank's journal. -/
def Chip.freeEntry (s : Chip) (bank : Nat) : Option Nat := (List.range 512).find? (fun i => s.flashErased (journalBase bank + 2 * i))

/-- The steps of a sector erase (R513). -/
def Chip.expandSector (s : Chip) (base count : Nat) : List FlStep :=
  let b := flashBank base
  let (pre, i) := match s.freeEntry b with
    | some i => ([], i)
    | none => ([FlStep.erase (journalBase b)], 0)
  pre ++ [.prog (journalBase b + 2 * i) (journalWord base count), .erase base, .prog (journalBase b + 2 * i + 1) 0]

/-- The entries of a bank's journal that name a sector, oldest first: index and count. -/
def Chip.entriesOf (s : Chip) (base : Nat) : List (Nat × Nat) :=
  let j := journalBase (flashBank base)
  (List.range 512).filterMap (fun i =>
    let w := s.flashRd (j + 2 * i)
    if w ≠ erasedWord && bits w.toNat 35 18 = (base - 0x100000) / 1024 % 512 then some (i, bits w.toNat 17 0) else none)

def Chip.entryOpen (s : Chip) (bank i : Nat) : Bool :=
  s.flashRd (journalBase bank + 2 * i) ≠ erasedWord && s.flashErased (journalBase bank + 2 * i + 1)

/-- The latest journal entry for a sector, if it is open: its count. -/
def Chip.openCount (s : Chip) (base : Nat) : Option Nat :=
  match (s.entriesOf base).getLast? with
  | some (i, c) => if s.entryOpen (flashBank base) i then some c else none
  | none => none

def Chip.latestCount (s : Chip) (base : Nat) : Option Nat := (s.entriesOf base).getLast?.map Prod.snd

/-- A journal word that is neither erased nor valid: its own erase was cut (R518). -/
def Chip.journalBad (s : Chip) (bank : Nat) : Bool :=
  s.flashBadSec.contains (journalBase bank) || (List.range 512).any (fun i =>
    let w := s.flashRd (journalBase bank + 2 * i)
    let d := s.flashRd (journalBase bank + 2 * i + 1)
    (w ≠ erasedWord && bits w.toNat 35 27 ≠ 0) || (d ≠ erasedWord && d ≠ 0))

/-! ### Running an operation (R512 to R514) -/

/-- Claim for the step in hand: a word program for all its pulses, an erase for one pulse; the ROM's
settings reset claims at class 2 (R568). -/
def Chip.flcClaim (s : Chip) (o : FlOp) : Chip :=
  let cls := if o.src = .rom then 2 else s.fld (F.EGY_DECL_PCLASS 6)
  match o.steps with
  | [] => s
  | .prog _ _ :: _ => s.makeClaim 6 (s.fld (F.EGY_DECL_PEAK 6)) (20 * o.limit) false cls none none
  | _ => s.makeClaim 6 (s.fld (F.EGY_DECL_PEAK 6)) 2064 false cls none none

/-- Expand a leading sector erase into its steps. -/
def Chip.flcExpand (s : Chip) (o : FlOp) : FlOp :=
  match o.steps with
  | .sector b c :: l => { o with steps := s.expandSector b c ++ l }
  | _ => o

/-- An operation comes to its next step: what it works on, and what it is by FLC_CMD.OP.  The journal words of a sector erase
stand for the sector (R515). -/
def FlOp.enter (o : FlOp) : FlOp :=
  let at' (code a : Nat) : FlOp := { o with op := if o.src = .cmd then o.op else code, spot := a, begins := true }
  match o.steps with
  | .sector b _ :: _ => at' 2 b
  | .prog a _ :: _ => if a < 2 ^ 24 then at' 1 a else { o with begins := false }
  | _ => { o with begins := false }

/-- Operation `o` completes with `code`: REASON, DONE, FLC_RES, sources 78 and 79, and its requester. -/
def Chip.flcPost (s : Chip) (o : FlOp) (code : Nat) (fail : Bool) : Chip :=
  let addr := if o.op = 3 then sectorBase o.target else o.target
  let s1 := ((s.setFld F.FLC_RES_OP o.op).setFld F.FLC_RES_ADDR (addr % 2 ^ 24)).flcReason code
  -- the harvest path posts nothing (R368)
  let s2 := if s.nfc.harvest then s else (s1.setBit F.FLC_STAT_DONE true).setBit F.FLC_STAT_FAIL (fail || s1.bit F.FLC_STAT_FAIL)
  let f := s2.flc
  let s3 := s2.setFlc { f with op := none, pulsing := false, pulseTill := none, pulseAt := none, busyA := false, busyB := false,
                               hw := if f.sqStop then f.hw.filter (fun x => x.src ≠ .squirrel) else f.hw,
                               sqActive := if f.sqStop then false else if o.src = .squirrel && code = Rc.OK then true else f.sqActive,
                               sqStop := false }
  let s4 := if f.sqStop then s3.setBit F.FLC_CTL_SQEN false else s3
  let s5 := if s.nfc.harvest then s4 else s4.occ 78
  let s6 := if fail && !s.nfc.harvest then s5.occ 79 else s5
  { s6 with out := { s6.out with flash := s6.out.flash ++ [(o.src, code)] } }

/-- Begin the step in hand, or complete. -/
def Chip.flcNext (s : Chip) (o : FlOp) : Chip :=
  match o.steps with
  | [] => s.flcPost o o.result (o.result ≠ 0)
  | _ =>
    let o1 := s.flcExpand { o.enter with pulses := 0 }
    (s.setFlc { s.flc with op := some o1, pulsing := false, pulseTill := none, pulseAt := none }).flcClaim o1

/-- The ROM and the loader are software on Fox A, whose commands wait until no hardware request does (R509). -/
def FlOp.soft (o : FlOp) : Bool := o.src = .rom || o.src = .loader

/-- The request that is served next. -/
def nextRequest (l : List FlOp) : Option FlOp := (l.find? (fun o => !o.soft)).or l.head?

/-- The next waiting request starts, when nothing runs (R509). -/
def Chip.flcServe (s : Chip) : Chip :=
  match s.flc.op, nextRequest s.flc.hw with
  | none, some o => if s.flc.otp.isSome then s else (s.setFlc { s.flc with hw := s.flc.hw.erase o }).flcNext o
  | _, _ => s

/-- A request that waits for the controller.
[DESIGN CHOICE, unsafe: notes/assumptions/131] -/
def Chip.flcRequest (s : Chip) (src : FlSrc) (target : Nat) (steps : List FlStep) : Chip :=
  let o : FlOp := { src := src, op := 1, target := target, steps := steps, limit := s.fld F.FLC_MAXPULSE_MAXPULSE, spot := target }
  (s.setFlc { s.flc with hw := s.flc.hw ++ [o] }).flcServe

/-- A command is accepted. -/
def Chip.flcAccept (s : Chip) (op target : Nat) (steps : List FlStep) : Chip :=
  s.flcNext { src := .cmd, op := op, target := target, steps := steps, limit := s.fld F.FLC_MAXPULSE_MAXPULSE, spot := target }

/-- The claim is granted: pulses start; the bank is busy; bank A loses IMGOK (R512 to R515). -/
def Chip.flcGranted (s : Chip) : Chip :=
  match s.flc.op with
  | none => s
  | some o =>
    match o.steps with
    | [] => s
    | st :: _ =>
      let a := flashBank st.addr = 0
      -- a verify reads a word of FLASH in each of its cycles (R22, R513)
      let (pulse, len) := match st with
        | .prog _ _ => (us 16, us 20)
        | _ => (us 2000, us (2000 + if s.clk.pllOn then 43 else 64))
      let first := match o.src, s.ldr.job, st with
        | .loader, .erase _, .erase _ => true
        | _, _, _ => false
      let s0 := if first then { s with ldr := { s.ldr with started := true } } else s
      let s1 := (s0.flashSpoil st).setFlc { s.flc with pulsing := true, pulseTill := some (s.now + pulse), pulseAt := some (s.now + len), busyA := s.flc.busyA || a,
                                                       busyB := s.flc.busyB || !a }
      if a then { s1 with owl := { s1.owl with imgok := false } } else s1

/-- A claim is denied: the operation ends with Bear's code, FAIL clear. -/
def Chip.flcDenied (s : Chip) (code : Nat) : Chip :=
  match s.flc.op with
  | none => s
  | some o => (s.flcPost o code false).flcServe

/-- A reset waited for this pulse (R409, R517). -/
def Chip.resetAfterPulse (s : Chip) : Option Chip := s.pwr.resetWait.map (fun k => s.keepOwlReset k)

/-- A word program ended with `n` pulses: FLC_RES and the health monitor. -/
def Chip.notePulses (s : Chip) (n : Nat) : Chip := if s.nfc.harvest then s else (s.setFld F.FLC_RES_PULSES n).monPulses n

/-- A program pulse and its verify end (R512). -/
def Chip.programPulseEnd (s : Chip) (verified : Bool) : Chip :=
  match s.flc.op with
  | none => s
  | some o =>
    if !s.flc.pulsing then s
    else
      match o.steps with
      | .prog a v :: l =>
        match s.resetAfterPulse with
        | some s' => s'
        | none =>
          let n := o.pulses + 1
          if verified then
            let s1 := ((s.flashPut a v).notePulses n).endGrant 6
            (s1.flcNext { o with steps := l }).flcServe
          else if o.limit ≤ n then
            let s1 := (s.notePulses n).endGrant 6
            (s1.flcPost o 0x9B true).flcServe
          else
            let s1 := s.setFlc { s.flc with op := some { o with pulses := n }, pulseTill := some (s.now + us 16), pulseAt := some (s.now + us 20) }
            if (s1.grantOf 6).any Grant.marked then (s1.setFlc { s1.flc with pulsing := false, pulseTill := none, pulseAt := none }).preemptStop 6 else s1
      | _ => s

/-- The ROM or the loader has erased the sector that FLC_INTR names, and clears its VALID: a boot after a completed update is
normal (R579).
[DEDUCED, unsafe: notes/assumptions/181] -/
def Chip.erasedAgain (s : Chip) (src : FlSrc) (b : Nat) : Chip :=
  if (src = .rom || src = .loader) && s.bit F.FLC_INTR_VALID && sectorBase (s.fld ⟨R.FLC_INTR, 23, 0⟩) = b then s.setBit F.FLC_INTR_VALID false else s

/-- An erase pulse and its verify end (R513). -/
def Chip.erasePulseEnd (s : Chip) (verified : Bool) : Chip :=
  match s.flc.op with
  | none => s
  | some o =>
    if !s.flc.pulsing then s
    else
      match o.steps with
      | .erase b :: l =>
        match s.resetAfterPulse with
        | some s' => s'
        | none =>
          let n := o.pulses + 1
          let s1 := s.endGrant 6
          if verified then (((s1.flashClear b).erasedAgain o.src b).flcNext { o with steps := l }).flcServe
          else if 8 ≤ n then
            -- the entry is closed, nothing else follows
            let close := match l with
              | .prog a v :: _ => if b < 0x200000 && 0x1000000 ≤ a then [FlStep.prog a v] else []
              | _ => []
            (s1.flcNext { o with steps := close, result := 0x9C }).flcServe
          else
            let o1 := { o with pulses := n }
            (s1.setFlc { s1.flc with op := some o1, pulsing := false, pulseTill := none, pulseAt := none }).flcClaim o1
      | _ => s

/-! ### Regions (R327 to R331, R361, R527, R528) -/

def inSealed (a : Nat) : Bool := 0x1EF800 ≤ a && a < 0x1F0000
def inPool (a : Nat) : Bool := 0x1F0000 ≤ a && a < 0x200000

/-- The restraint that the descriptors in force put on a sector: bit 31 read, bit 30 write. -/
def Chip.restrained (s : Chip) (a bit : Nat) : Bool :=
  !s.flc.unlocked && isFlash a &&
    match s.flc.prot with
    | none => false
    | some l =>
      let g := (a - 0x100000) / 1024
      (l.take 16).any (fun d => d ≠ erasedWord && bitOf d.toNat bit && bits d.toNat 9 0 ≤ g && g ≤ bits d.toNat 19 10)

/-! ### Squirrel (R519 to R526) -/

inductive SqKind where
  | blank | spare | open | valid | retired | worn | damaged
deriving DecidableEq, Repr

def sqBase (p : Nat) : Nat := 0x1F0000 + 0x400 * p
def sqCommit : Word := W 0x5C5C5C5C5
def sqHeader (count : Nat) : Word := W (0x5C <<< 24 ||| count % 2 ^ 24)

def Chip.sqWin (s : Chip) : Nat := s.fld F.FLC_SQCFG_WIN

/-- The state of physical sector `p`, from its header (R520). -/
def Chip.sqKind (s : Chip) (p : Nat) : SqKind :=
  let b := sqBase p
  let w0 := s.flashRd b
  let w1 := s.flashRd (b + 1)
  let w2 := s.flashRd (b + 2)
  let w3 := s.flashRd (b + 3)
  let e := erasedWord
  let valid0 := bits w0.toNat 35 24 = 0x5C
  let lOk := bits w1.toNat 35 30 = 0 && bits w1.toNat 29 24 < s.sqWin
  if w0 = e && w1 = e && w2 = e && w3 = e then .blank
  else if !valid0 then .damaged
  else if w1 = e && w2 = e && w3 = e then .spare
  else if bits w1.toNat 35 30 = 0 && bits w1.toNat 29 24 = 0x3F then .worn
  else if lOk && w2 = e && w3 = e then .open
  else if lOk && w2 = sqCommit && w3 = e then .valid
  else if lOk && w2 = sqCommit && w3 = 0 then .retired
  else .damaged

def Chip.sqL (s : Chip) (p : Nat) : Nat := bits (s.flashRd (sqBase p + 1)).toNat 29 24
def Chip.sqSeqOf (s : Chip) (p : Nat) : Nat := bits (s.flashRd (sqBase p + 1)).toNat 23 0
def Chip.sqCount (s : Chip) (p : Nat) : Nat := bits (s.flashRd (sqBase p)).toNat 23 0

def sqAll : List Nat := List.range 64
def Chip.sqOf (s : Chip) (k : SqKind) : List Nat := sqAll.filter (fun p => s.sqKind p = k)
def Chip.sqOpenSector (s : Chip) : Option Nat := (s.sqOf .open).head?

/-- SEQ a is later than b. -/
def seqLater (a b : Nat) : Bool := let d := (a + 2 ^ 24 - b) % 2 ^ 24; d ≠ 0 && d < 2 ^ 23

/-- The VALID sector that holds `l`, the later copy where there are two. -/
def Chip.sqHolder (s : Chip) (l : Nat) : Option Nat :=
  ((s.sqOf .valid).filter (fun p => s.sqL p = l)).foldl (fun best p =>
    match best with
    | none => some p
    | some q => if seqLater (s.sqSeqOf p) (s.sqSeqOf q) then some p else some q) none

/-- The sectors that are not worn and have a count. -/
def Chip.sqLive (s : Chip) : List Nat := sqAll.filter (fun p => s.sqKind p ≠ .worn && bits (s.flashRd (sqBase p)).toNat 35 24 = 0x5C)

def Chip.sqMax (s : Chip) : Nat := listMax (s.sqLive.map s.sqCount)
def Chip.sqMin (s : Chip) : Nat := listMin (s.sqLive.map s.sqCount)
def Chip.sqLevelDue (s : Chip) : Bool := 100 * s.fld F.FLC_SQCFG_LVLTHR < s.sqMax - s.sqMin

/-- Write the header of an erased pool sector; a count of 100,000 makes it worn (R525). -/
def sqHead (p count : Nat) : List FlStep :=
  .prog (sqBase p) (sqHeader count) :: (if 100000 ≤ count then [.prog (sqBase p + 1) (W (0x3F <<< 24))] else [])

/-- Erase a pool sector and write its header (R523). -/
def sqErase (p count : Nat) : List FlStep := .sector (sqBase p) count :: sqHead p count

/-- The header count of a sector: word 0, or the journal, or 0. -/
def Chip.sqKnownCount (s : Chip) (p : Nat) : Nat :=
  if bits (s.flashRd (sqBase p)).toNat 35 24 = 0x5C then s.sqCount p else (s.latestCount (sqBase p)).getD 0

/-- What recovery does to sector `p` (R521).
[DEDUCED, unsafe: notes/assumptions/90] -/
def Chip.sqRecover (s : Chip) (p : Nat) : List FlStep :=
  match s.openCount (sqBase p) with
  | some c => sqErase p c
  | none =>
    match s.sqKind p with
    | .blank => sqHead p ((s.latestCount (sqBase p)).getD 0)
    | .open => sqErase p (s.sqKnownCount p + 1)
    | .retired => sqErase p (s.sqKnownCount p + 1)
    | .damaged => sqErase p (s.sqKnownCount p + 1)
    | .valid => if s.sqHolder (s.sqL p) = some p then [] else .prog (sqBase p + 3) 0 :: sqErase p (s.sqCount p + 1)
    | _ => []

/-- The check of R521. -/
def Chip.sqEnableCheck (s : Chip) : Nat :=
  let win := s.sqWin
  if win < 8 ∨ 60 < win ∨ s.fld F.FLC_SQCFG_LVLTHR = 0 then Rc.RANGE
  else if sqAll.any (fun p => bits (s.flashRd (sqBase p)).toNat 35 24 = 0x5C && s.flashRd (sqBase p + 1) ≠ erasedWord
      && bits (s.flashRd (sqBase p + 1)).toNat 35 30 = 0 && win ≤ s.sqL p && s.sqL p ≤ 0x3E) || 1 < (s.sqOf .open).length then Rc.COMBINATION
  else Rc.OK

/-- A write of FLC_CTL.SQEN = 1. -/
def Chip.sqEnable (s : Chip) : Chip :=
  if s.bit F.FLC_CTL_SQEN then s
  else
    let code := s.sqEnableCheck
    if code ≠ Rc.OK then s.flcReason code
    else
      let steps := sqAll.flatMap s.sqRecover
      let seq := listMax (((s.sqOf .valid) ++ (s.sqOf .open) ++ (s.sqOf .retired)).map s.sqSeqOf)
      let s1 := (s.setBit F.FLC_CTL_SQEN true).flcReason Rc.OK
      let s2 := s1.setFlc { s1.flc with sqSeq := seq, sqStop := false }
      if steps.isEmpty then s2.setFlc { s2.flc with sqActive := true } else s2.flcRequest .squirrel (sqBase 0) steps

/-- A write of SQEN = 0 takes effect at the end of the current operation; a recovery that waits is not run (R526). -/
def Chip.sqDisable (s : Chip) : Chip :=
  if !s.bit F.FLC_CTL_SQEN then s
  else if s.flc.op.isSome then s.setFlc { s.flc with sqStop := true }
  else (s.setBit F.FLC_CTL_SQEN false).setFlc { s.flc with sqActive := false, hw := s.flc.hw.filter (fun x => x.src ≠ .squirrel) }

/-- The SPARE sector with the lowest, or the highest, count; the lowest number on a tie. -/
def Chip.sqSpare (s : Chip) (lowest : Bool) : Option Nat :=
  (s.sqOf .spare).foldl (fun best p =>
    match best with
    | none => some p
    | some q => if (if lowest then s.sqCount p < s.sqCount q else s.sqCount q < s.sqCount p) then some p else some q) none

/-- The steps that commit sector `p` as `l`'s copy (R523). -/
def Chip.sqCommitSteps (s : Chip) (p l : Nat) : List FlStep :=
  .prog (sqBase p + 2) sqCommit ::
    match s.sqHolder l with
    | some q => .prog (sqBase q + 3) 0 :: sqErase q (s.sqCount q + 1)
    | none => []

/-! ### Commands (R510, R511) -/

/-- An operation runs or waits, or OTP programming runs. -/
def Chip.flcBusy (s : Chip) : Bool := s.flc.op.isSome || !s.flc.hw.isEmpty || s.flc.otp.isSome

/-- A PROGRAM or ERASE aimed at the mailbox or the pool (item 4 of R510). -/
def Chip.flcOwned (s : Chip) (op a : Nat) : Bool :=
  (op = 1 && 0x1EE800 ≤ a && a < 0x1EF800)
    || (inPool a && s.flc.sqActive &&
        !(op = 1 && (s.sqOpenSector).any (fun p => sqBase p + 4 ≤ a && a < sqBase p + 1024)))

def Chip.flcCheck (s : Chip) (op a : Nat) : Nat :=
  if s.flcBusy then Rc.BUSY
  else if !isFlash a then Rc.RANGE
  else if inSealed a then Rc.SECURITY
  else if s.flcOwned op a then Rc.OWNED
  else if s.restrained a 30 then 0x98
  else if op = 1 && !s.flashErased a then Rc.NOT_ERASED
  else Rc.OK

def Chip.flcProgram (s : Chip) (a : Nat) : Chip :=
  let code := s.flcCheck 1 a
  let v := s.reg R.FLC_DATA
  if code ≠ Rc.OK then s.flcReason code
  else if v = erasedWord then (s.setFld F.FLC_RES_PULSES 0).flcAccept 1 a []
  else s.flcAccept 1 a [.prog a v]

def Chip.flcErase (s : Chip) (a : Nat) : Chip :=
  let code := s.flcCheck 2 a
  if code ≠ Rc.OK then s.flcReason code
  else s.flcAccept 2 (sectorBase a) [.sector (sectorBase a) 0]

def Chip.sqOpen (s : Chip) (l : Nat) : Chip :=
  if s.flcBusy then s.flcReason Rc.BUSY
  else if s.sqWin ≤ l then s.flcReason Rc.RANGE
  else if s.sqOpenSector.isSome || !s.flc.sqActive then s.flcReason Rc.BUSY
  else
    match s.sqSpare true with
    | none => s.flcReason 0x9D
    | some p =>
      let q := (s.flc.sqSeq + 1) % 2 ^ 24
      (s.setFlc { s.flc with sqSeq := q }).flcAccept 3 (sqBase p) [.prog (sqBase p + 1) (W (l <<< 24 ||| q))]

def Chip.sqCommitCmd (s : Chip) (l : Nat) : Chip :=
  match s.sqOpenSector with
  | none => s.flcReason Rc.BUSY
  | some p =>
    if s.flcBusy || !s.flc.sqActive || s.sqL p ≠ l then s.flcReason Rc.BUSY
    else s.flcAccept 4 (sqBase p) (s.sqCommitSteps p l)

def Chip.sqAbandon (s : Chip) (l : Nat) : Chip :=
  match s.sqOpenSector with
  | none => s.flcReason Rc.BUSY
  | some p =>
    if s.flcBusy || !s.flc.sqActive || s.sqL p ≠ l then s.flcReason Rc.BUSY
    else s.flcAccept 5 (sqBase p) (.prog (sqBase p + 3) 0 :: sqErase p (s.sqCount p + 1))

def Chip.sqLevel (s : Chip) : Chip :=
  if s.flcBusy || !s.flc.sqActive then s.flcReason Rc.BUSY
  else if !s.sqLevelDue then s.flcAccept 6 0 []
  else if s.sqOpenSector.isSome then s.flcReason Rc.BUSY
  else
    let low := (s.sqOf .valid).foldl (fun best p =>
      match best with
      | none => some p
      | some q => if s.sqCount p < s.sqCount q then some p else some q) (none : Option Nat)
    match low, s.sqSpare false with
    | some p, some q =>
      let n := (s.flc.sqSeq + 1) % 2 ^ 24
      let copy := ((List.range 1020).map (· + 4)).filterMap (fun i =>
        let v := s.flashRd (sqBase p + i)
        if v = erasedWord then none else some (FlStep.prog (sqBase q + i) v))
      (s.setFlc { s.flc with sqSeq := n }).flcAccept 6 (sqBase q)
        (.prog (sqBase q + 1) (W (s.sqL p <<< 24 ||| n)) :: (copy ++ s.sqCommitSteps q (s.sqL p)))
    | some _, none => s.flcReason 0x9D
    | none, _ => s.flcAccept 6 0 []

def Chip.protErase (s : Chip) : Chip :=
  if s.flcBusy then s.flcReason Rc.BUSY
  else if !s.flc.unlocked then s.flcReason 0x98
  else s.flcAccept 7 0 [.erase protBase]

def Chip.protProg (s : Chip) (w : Nat) : Chip :=
  let v := s.reg R.FLC_DATA
  let i := w % 64
  if s.flcBusy then s.flcReason Rc.BUSY
  else if 18 < i ∨ (i < 16 ∧ (bits v.toNat 35 32 ≠ 0 ∨ bits v.toNat 19 10 < bits v.toNat 9 0)) then s.flcReason Rc.RANGE
  else if !s.flc.unlocked then s.flcReason 0x98
  else if !s.flashErased (protBase + i) then s.flcReason Rc.NOT_ERASED
  else if v = erasedWord then (s.setFld F.FLC_RES_PULSES 0).flcAccept 8 i []
  else s.flcAccept 8 i [.prog (protBase + i) v]

/-- A write of FLC_CMD; of two agents' writes in one cycle the first is checked (R509). -/
def Chip.flcCmd (s0 : Chip) (ag : Agent) (v : Word) : Chip :=
  let a := bits v.toNat 23 0
  let s := s0.setFlc { s0.flc with cmdAt := some (s0.now, ag) }
  if s0.flc.cmdAt.any (fun p => p.1 = s0.now && p.2 ≠ ag) then s0.flcReason Rc.BUSY
  else match bits v.toNat 35 32 with
  | 1 => s.flcProgram a
  | 2 => s.flcErase a
  | 3 => s.sqOpen (a % 64)
  | 4 => s.sqCommitCmd (a % 64)
  | 5 => s.sqAbandon (a % 64)
  | 6 => s.sqLevel
  | 7 => s.protErase
  | 8 => s.protProg a
  | _ => s.flcReason (if s.flcBusy then Rc.BUSY else Rc.RANGE)

/-! ### Password (R529, R530) -/

def Chip.pwd0Write (s : Chip) (ag : Agent) (v : Word) : Chip := s.setFlc { s.flc with pwd0 := setAt s.flc.pwd0 ag.code v }

/-- The password in force, high half first. -/
def Chip.password (s : Chip) : Option (Word × Word) :=
  match s.flc.prot with
  | none => none
  | some l =>
    let p := (l.getD 16 erasedWord, l.getD 17 erasedWord)
    if p.1 = erasedWord ∧ p.2 = erasedWord then none else some p

def Chip.pwd1Write (s : Chip) (ag : Agent) (v : Word) : Chip :=
  if s.bit F.FLC_STAT_LOCKOUT then s.flcReason 0x9A
  else
    match s.password with
    | none => s.flcReason Rc.OK
    | some (h, l) =>
      if s.flc.pwd0.getD ag.code 0 = h ∧ v = l then
        ((s.setFlc { s.flc with unlocked := true }).setFld F.FLC_STAT_FAILS 0).flcReason Rc.OK
      else
        let n := s.fld F.FLC_STAT_FAILS + 1
        ((s.setFld F.FLC_STAT_FAILS (min 8 n)).setBit F.FLC_STAT_LOCKOUT (8 ≤ n)).flcReason 0x99

/-! ### What the controller reads at a reset (R518, R527) -/

/-- The protection row in force. -/
def Chip.readRow (s : Chip) : Option (List Word) :=
  if s.flashRd (protBase + 18) = W 0x3C3C3C3C3 then some (s.flashRds protBase 18) else none

def Chip.loadRow (s : Chip) : Chip :=
  let row := s.readRow
  let s1 := s.setFlc { s.flc with prot := row }
  let s2 := s1.setFlc { s1.flc with unlocked := s1.password.isNone }
  (List.range 16).foldl (fun c n => c.setReg (R.FLC_REG n) (match row with
    | some l => l.getD n erasedWord
    | none => erasedWord)) s2

/-- The sector that entry `i` of bank `b`'s journal names. -/
def Chip.entrySector (s : Chip) (b i : Nat) : Nat := 0x100000 + 0x80000 * b + 1024 * bits (s.flashRd (journalBase b + 2 * i)).toNat 26 18

/-- The sectors that open entries name; a later entry for its sector supersedes one, since the sector was erased again (R579).
[DEDUCED, unsafe: notes/assumptions/181] -/
def Chip.openEntries (s : Chip) : List Nat :=
  [0, 1].flatMap (fun b => (List.range 512).filterMap (fun i =>
    if s.entryOpen b i && ((s.entriesOf (s.entrySector b i)).getLast?.any (fun e => e.1 = i)) then some (s.entrySector b i) else none))

/-- The journal scan: FLC_INTR for an open entry, and a cut journal, to be erased again once the ROM runs.
[DEDUCED, unsafe: notes/assumptions/90] -/
def Chip.journalScan (s : Chip) : Chip :=
  let s1 := s.loadRow
  let bad := [0, 1].filter s1.journalBad
  let opens := ([0, 1].filter (fun b => !s1.journalBad b)).flatMap (fun b => s1.openEntries.filter (fun a => flashBank a = b))
  let s2 := match opens.getLast? with
    | some a => s1.setReg R.FLC_INTR (W (2 ^ 35 + 2 ^ 34 + a))
    | none => s1
  s2.setFlc { s2.flc with journals := bad }

/-- The ROM runs: the controller erases the cut journals again (R518). -/
def Chip.journalErase (s : Chip) : Chip :=
  s.flc.journals.foldl (fun c b => c.flcRequest .ctl (journalBase b) [.erase (journalBase b)]) (s.setFlc { s.flc with journals := [] })

/-! ### Views -/

def Chip.flcStatView (s : Chip) : Word :=
  let f := s.flc
  let put (w : Word) (fl : Fld) (b : Bool) : Word := fl.put w b.toNat
  put (put (put (put (put (s.reg R.FLC_STAT) F.FLC_STAT_UNLOCKED f.unlocked) F.FLC_STAT_INTR (s.bit F.FLC_INTR_VALID)) F.FLC_STAT_BUSYB
    f.busyB) F.FLC_STAT_BUSYA f.busyA) F.FLC_STAT_PENDING (f.op.isSome && !f.pulsing)

def Chip.sqStatView (s : Chip) : Word :=
  if !s.flc.sqActive then 0
  else
    let o := s.sqOpenSector
    W (1 <<< 23 ||| s.sqLevelDue.toNat <<< 22 ||| o.isSome.toNat <<< 21 ||| (o.map s.sqL).getD 0 <<< 15
      ||| (s.sqOf .worn).length <<< 8 ||| (s.sqOf .spare).length)

def Chip.sqWearView (s : Chip) : Word := if s.flc.sqActive then W ((s.sqMax % 2 ^ 18) <<< 18 ||| s.sqMin % 2 ^ 18) else 0

def Chip.sqMapView (s : Chip) (l : Nat) : Word :=
  if !s.flc.sqActive then 0
  else
    match s.sqHolder l with
    | some p => W (2 ^ 35 + sqBase p)
    | none => 0

/-- The word a data read of busy bank returns (R515). -/
def Chip.busyWord (s : Chip) : Word :=
  match s.flc.op with
  | none => 0
  | some o => W (0xF1 <<< 28 ||| (o.op % 16) <<< 24 ||| o.spot % 2 ^ 24)

def Chip.bankBusy (s : Chip) (a : Nat) : Bool := if flashBank a = 0 then s.flc.busyA else s.flc.busyB

/-! ### OTP (R533) -/

/-- A word that is locked: factory words, locked customer words, locked key slots. -/
def Chip.otpLocked (s : Chip) (w : Nat) : Bool :=
  let l := (s.otpRd 56).toNat
  w < 16 || w = 63 || (40 ≤ w && w ≤ 55 && bitOf l (w - 40)) || (16 ≤ w && w ≤ 39 && bitOf l (16 + (w - 16) / 8))

def Chip.otpReason (s : Chip) (code : Nat) : Chip := s.setReason R.OTP_STAT code

/-- OTP programming ends. -/
def Chip.otpEnd (s : Chip) (code : Nat) : Chip :=
  (((s.setFlc { s.flc with otp := none, pulsing := false, pulseAt := none }).setBit F.OTP_STAT_BUSY false).otpReason code).flcServe

/-- A write of OTP_CMD.PROG = 1. -/
def Chip.otpProg (s : Chip) : Chip :=
  let w := s.fld F.OTP_ADDR_WORD
  let d := s.reg R.OTP_DATA
  let t := signed 9 (s.fld F.EGY_STAT_TEMP)
  if s.flcBusy then s.otpReason Rc.BUSY
  else if (57 ≤ w ∧ w ≤ 62) ∨ (((8 ≤ w ∧ w ≤ 39) ∨ w = 56) ∧ bits d.toNat 35 32 ≠ 0) then s.otpReason Rc.RANGE
  else if s.otpLocked w then s.otpReason Rc.LOCKED
  else if t < 0 ∨ 85 < t then s.otpReason Rc.THERMAL
  else if s.otpRd w ||| d = s.otpRd w then s.otpReason Rc.OK
  else
    ((s.setFlc { s.flc with otp := some { word := w, data := d } }).setBit F.OTP_STAT_BUSY true).claim 6 (s.fld (F.EGY_DECL_PEAK 6)) 150
      false

def Chip.otpGranted (s : Chip) : Chip := s.setFlc { s.flc with pulsing := true, pulseAt := some (s.now + us 50) }

/-- An OTP pulse and its verify end: the word verifies, or another attempt, or PROG_FAIL with some of the
bits set. -/
def Chip.otpPulseEnd (s : Chip) (verified : Bool) : Chip :=
  match s.flc.otp with
  | none => s
  | some o =>
    if !s.flc.pulsing then s
    else
      let put (s : Chip) (v : Word) : Chip := { s with otp := Cells.set zeroWord s.otp o.word v }
      if verified then ((put s (s.otpRd o.word ||| o.data)).endGrant 6).otpEnd Rc.OK
      else if 3 ≤ o.attempts + 1 then
        ((put s.draw (s.otpRd o.word ||| (o.data &&& Config.freeWord s.free))).endGrant 6).otpEnd 0x9B
      else
        let s1 := s.setFlc { s.flc with otp := some { o with attempts := o.attempts + 1 }, pulseAt := some (s.now + us 50) }
        if (s1.grantOf 6).any Grant.marked then (s1.setFlc { s1.flc with pulsing := false, pulseAt := none }).preemptStop 6 else s1

/-- Bear's answer to claimant 6. -/
def Chip.flashAnswer (s : Chip) (r : Answer) : Chip :=
  match r.kind with
  | .defer => s
  | .deny => if s.flc.otp.isSome then s.otpEnd r.code else s.flcDenied r.code
  | _ => if s.flc.otp.isSome then s.otpGranted else s.flcGranted

end Sys2Proof.Machine
end

