-- ==== Sys2Proof/Machine/Aes.lean ====
section
/-!
DEFINITION. AES (FIPS 197) and its modes (SP 800-38A, B, C, D and F), on lists of octets held as
numbers (spec/11 R321 to R327).
-/
namespace Sys2Proof.Machine.Aes

/-- The S-box: octet x at bits 8x + 7 to 8x. -/
def sboxTable : Nat :=
  0x16BB54B00F2D99416842E6BF0D89A18CDF2855CEE9871E9B948ED9691198F8E19E1DC186B95735610EF6034866B53E708A8BBD4B1F74DDE8C6B4A61C2E2578BA08AE7A65EAF4566CA94ED58D6D37C8E779E4959162ACD3C25C2406490A3A32E0DB0B5EDE14B8EE4688902A22DC4F816073195D643D7EA7C41744975FEC130CCDD2F3FF1021DAB6BCF5389D928F40A351A89F3C507F02F94585334D43FBAAEFD0CF584C4A39BECB6A5BB1FC20ED00D153842FE329B3D63B52A05A6E1B1A2C830975B227EBE28012079A059618C323C7041531D871F1E5A534CCF73F362693FDB7C072A49CAFA2D4ADF04759FA7DC982CA76ABD7FE2B670130C56F6BF27B777C63

/-- Its inverse. -/
def invTable : Nat :=
  0x7D0C2155631469E126D677BA7E042B17619953833CBBEBC8B0F52AAE4D3BE0A0EF9CC9939F7AE52D0D4AB519A97F51605FEC8027591012B131C7078833A8DD1FF45ACD78FEC0DB9A2079D2C64B3E56FC1BBE18AA0E62B76F89C5291D711AF1476EDF751CE837F9E28535ADE72274AC9673E6B4F0CECFF297EADC674F4111913A6B8A130103BDAFC1020F3FCA8F1E2CD00645B3B80558E4F70AD3BC8C00ABD890849D8DA75746155EDAB9EDFD5048706C92B6655DCC5CA4D41698688664F6F87225D18B6D49A25B76B224D92866A12E084EC3FA420B954CEE3D23C2A632947B54CBE9DEC444438E3487FF2F9B8239E37CFBD7F3819EA340BF38A53630D56A0952

def sbox (x : Nat) : Nat := (sboxTable >>> (8 * x)) % 256
def invSbox (x : Nat) : Nat := (invTable >>> (8 * x)) % 256

/-- Multiplication by x in the field. -/
def xtime (a : Nat) : Nat := if a < 128 then 2 * a else (2 * a) ^^^ 0x11B

/-- Multiplication in the field by a factor below 16. -/
def gmul (a b : Nat) : Nat :=
  let a2 := xtime a
  let a4 := xtime a2
  let a8 := xtime a4
  (if b % 2 = 1 then a else 0) ^^^ (if b / 2 % 2 = 1 then a2 else 0) ^^^ (if b / 4 % 2 = 1 then a4 else 0) ^^^ (if b / 8 % 2 = 1 then a8 else 0)

/-- Exclusive-or of two lists. -/
def xorL (a b : List Nat) : List Nat := List.zipWith (· ^^^ ·) a b

/-- Rounds for a key of so many octets. -/
def rounds (keyLen : Nat) : Nat := keyLen / 4 + 6

/-- Key expansion: words of four octets, newest first, from the key's own words; `rcon` is the round constant. -/
def expand : Nat → Nat → Nat → List (List Nat) → List (List Nat)
  | 0, _, _, ws => ws
  | n + 1, nk, rcon, ws =>
    let i := ws.length
    let prev := ws.headD []
    let back := ws.getD (nk - 1) []
    if i % nk = 0 then
      let t := ((prev.drop 1) ++ (prev.take 1)).map sbox
      let t' := xorL t [rcon, 0, 0, 0]
      expand n nk (xtime rcon) (xorL back t' :: ws)
    else if nk = 8 ∧ i % nk = 4 then expand n nk rcon (xorL back (prev.map sbox) :: ws)
    else expand n nk rcon (xorL back prev :: ws)

/-- Cut a list into pieces of `n`. -/
def chunks (n : Nat) : Nat → List Nat → List (List Nat)
  | 0, _ => []
  | k + 1, l => if l.isEmpty then [] else l.take n :: chunks n k (l.drop n)

/-- The round keys, each of 16 octets, first to last. -/
def roundKeys (key : List Nat) : List (List Nat) :=
  let nk := key.length / 4
  let ws := (expand (4 * (rounds key.length + 1) - nk) nk 1 (chunks 4 8 key).reverse).reverse
  chunks 16 16 (ws.flatten)

def shiftRows (b : List Nat) : List Nat :=
  (List.range 16).map (fun i => b.getD ((i + 4 * (i % 4)) % 16) 0)
def invShiftRows (b : List Nat) : List Nat :=
  (List.range 16).map (fun i => b.getD ((i + 16 - 4 * (i % 4)) % 16) 0)

/-- Multiply each column by a circulant matrix. -/
def mixWith (m : List Nat) (b : List Nat) : List Nat :=
  (List.range 16).map (fun i =>
    let c := i / 4 * 4
    let r := i % 4
    (List.range 4).foldl (fun acc k => acc ^^^ gmul (b.getD (c + k) 0) (m.getD ((k + 4 - r) % 4) 0)) 0)

/-- The cipher with its round keys, the first already added. -/
def encRounds : List (List Nat) → List Nat → List Nat
  | [], b => b
  | [k], b => xorL (shiftRows (b.map sbox)) k
  | k :: ks, b => encRounds ks (xorL (mixWith [2, 3, 1, 1] (shiftRows (b.map sbox))) k)

/-- The inverse cipher with the round keys from last to first, the last already added. -/
def decRounds : List (List Nat) → List Nat → List Nat
  | [], b => b
  | [k], b => xorL ((invShiftRows b).map invSbox) k
  | k :: ks, b => decRounds ks (mixWith [14, 11, 13, 9] (xorL ((invShiftRows b).map invSbox) k))

/-- One block under a key of 16, 24 or 32 octets. -/
def encrypt (key b : List Nat) : List Nat :=
  match roundKeys key with
  | [] => b
  | k :: ks => encRounds ks (xorL b k)

def decrypt (key b : List Nat) : List Nat :=
  match (roundKeys key).reverse with
  | [] => b
  | k :: ks => decRounds ks (xorL b k)

/-! ### Blocks and numbers -/

def blocks (l : List Nat) : List (List Nat) := chunks 16 (l.length + 1) l
def zeros (n : Nat) : List Nat := List.replicate n 0
def pad16 (l : List Nat) : List Nat := l ++ zeros ((16 - l.length % 16) % 16)

/-- Octets as a number, the first the most significant, and back. -/
def toNum (l : List Nat) : Nat := l.foldl (fun a b => a * 256 + b) 0
def ofNum (n v : Nat) : List Nat := (List.range n).map (fun i => v / 256 ^ (n - 1 - i) % 256)

/-! ### Modes -/

/-- CBC: the output and the last ciphertext block. -/
def cbcEnc (key iv : List Nat) (bs : List (List Nat)) : List Nat × List Nat :=
  bs.foldl (fun p b => let c := encrypt key (xorL b p.2); (p.1 ++ c, c)) ([], iv)
def cbcDec (key iv : List Nat) (bs : List (List Nat)) : List Nat × List Nat :=
  bs.foldl (fun p b => (p.1 ++ xorL (decrypt key b) p.2, b)) ([], iv)

/-- The next counter block: its last four octets count modulo 2^32 (R326). -/
def inc32 (c : List Nat) : List Nat := c.take 12 ++ ofNum 4 ((toNum (c.drop 12) + 1) % 2 ^ 32)

/-- CTR: the output and the next counter block. -/
def ctr (key ctr0 : List Nat) (bs : List (List Nat)) : List Nat × List Nat :=
  bs.foldl (fun p b => (p.1 ++ xorL b (encrypt key p.2), inc32 p.2)) ([], ctr0)

/-- CBC-MAC of a list of blocks. -/
def cbcMac (key : List Nat) (bs : List (List Nat)) : List Nat := bs.foldl (fun x b => encrypt key (xorL x b)) (zeros 16)

/-- The tag of CCM before encryption; `t` octets. -/
def ccmMac (key nonce aad msg : List Nat) (t : Nat) : List Nat :=
  let q := 15 - nonce.length
  let flags := (if aad.isEmpty then 0 else 64) + 8 * ((t - 2) / 2) + (q - 1)
  let b0 := flags :: (nonce ++ ofNum q msg.length)
  let a := if aad.isEmpty then [] else pad16 (ofNum 2 aad.length ++ aad)
  (cbcMac key (blocks (b0 ++ a ++ pad16 msg))).take t

/-- The counter blocks of CCM start from this one. -/
def ccmCtr0 (nonce : List Nat) : List Nat := (14 - nonce.length) :: (nonce ++ zeros (15 - nonce.length))

/-- CCM: the text under the counters after the first, and a tag under the first. -/
def ccmText (key nonce text : List Nat) : List Nat := (ctr key (inc32 (ccmCtr0 nonce)) (blocks text)).1
def ccmTag (key nonce aad msg : List Nat) (t : Nat) : List Nat :=
  if t = 0 then [] else xorL (ccmMac key nonce aad msg t) (encrypt key (ccmCtr0 nonce))

/-- Multiplication in GF(2^128) as SP 800-38D orders bits. -/
def gcmMul (x y : Nat) : Nat :=
  ((List.range 128).foldl (fun (p : Nat × Nat) i =>
    (if x.testBit (127 - i) then p.1 ^^^ p.2 else p.1, if p.2 % 2 = 1 then (p.2 / 2) ^^^ (0xE1 <<< 120) else p.2 / 2)) (0, y)).1

def ghash (h : Nat) (l : List Nat) : Nat := (blocks l).foldl (fun y b => gcmMul (y ^^^ toNum b) h) 0

def gcmText (key iv text : List Nat) : List Nat := (ctr key (iv ++ [0, 0, 0, 2]) (blocks text)).1
def gcmTag (key iv aad cipher : List Nat) (t : Nat) : List Nat :=
  let h := toNum (encrypt key (zeros 16))
  let s := ghash h (pad16 aad ++ pad16 cipher ++ ofNum 8 (8 * aad.length) ++ ofNum 8 (8 * cipher.length))
  (xorL (encrypt key (iv ++ [0, 0, 0, 1])) (ofNum 16 s)).take t

/-- Doubling in GF(2^128) as CMAC takes it. -/
def dbl (x : Nat) : Nat := if x.testBit 127 then ((2 * x) % 2 ^ 128) ^^^ 0x87 else 2 * x

def cmac (key msg : List Nat) (t : Nat) : List Nat :=
  let k1 := dbl (toNum (encrypt key (zeros 16)))
  let k2 := dbl k1
  let n := if msg.isEmpty then 0 else (msg.length - 1) / 16
  let last := msg.drop (16 * n)
  let m := if last.length = 16 then xorL last (ofNum 16 k1) else xorL (pad16 (last ++ [0x80])) (ofNum 16 k2)
  (cbcMac key (blocks (msg.take (16 * n)) ++ [m])).take t

/-- KW: the six passes over the registers, with the step counter. -/
def kwIv : List Nat := List.replicate 8 0xA6

def wrapStep (key : List Nat) (n t : Nat) (p : List Nat × List (List Nat)) : List Nat × List (List Nat) :=
  let i := (t - 1) % n
  let b := encrypt key (p.1 ++ p.2.getD i [])
  (xorL (b.take 8) (ofNum 8 t), p.2.set i (b.drop 8))

def wrap (key plain : List Nat) : List Nat :=
  let r := chunks 8 8 plain
  let n := r.length
  let (a, r') := (List.range (6 * n)).foldl (fun p t => wrapStep key n (t + 1) p) (kwIv, r)
  a ++ r'.flatten

def unwrapStep (key : List Nat) (n t : Nat) (p : List Nat × List (List Nat)) : List Nat × List (List Nat) :=
  let i := (t - 1) % n
  let b := decrypt key (xorL p.1 (ofNum 8 t) ++ p.2.getD i [])
  (b.take 8, p.2.set i (b.drop 8))

/-- Unwrap: none where the integrity check fails. -/
def unwrap (key c : List Nat) : Option (List Nat) :=
  let r := chunks 8 8 (c.drop 8)
  let n := r.length
  let (a, r') := ((List.range (6 * n)).reverse).foldl (fun p t => unwrapStep key n (t + 1) p) (c.take 8, r)
  if a = kwIv then some r'.flatten else none

end Sys2Proof.Machine.Aes
end

