-- ==== Sys2Proof/Machine/Stream.lean ====
section
/-!
DEFINITION. The structure stream: its container, its CRC, and the CLOCKS, POWER, MARGINS and VERSIONS
sections (spec/02 R42 to R66, spec/04 R114 to R116).  A section's check and its application are one
function: it answers the first failing reason code, or OK with the section applied.
-/
namespace Sys2Proof.Machine

/-! ### The container (R42 to R49) -/

/-- Where the primary stream starts, and its greatest length. -/
def streamBase : Nat := 0x104000
def streamMax : Nat := 4096

def leadType : Nat := 0x15A

def hdrType (w : Nat) : Nat := bits w 35 27
def hdrVersion (w : Nat) : Nat := bits w 26 18
def hdrLength (w : Nat) : Nat := bits w 17 0

/-- One step of the reflected CRC-32 over a byte. -/
def crc32Byte (crc b : Nat) : Nat :=
  (List.range 8).foldl (fun c _ => if c % 2 = 1 then (c / 2) ^^^ 0xEDB88320 else c / 2) (crc ^^^ b)

/-- CRC-32 over bytes (R46). -/
def crc32Bytes (bs : List Nat) : Nat := (bs.foldl crc32Byte 0xFFFFFFFF) ^^^ 0xFFFFFFFF

/-- The bytes of a word's bits 31 to 0, lowest first. -/
def wordBytes (w : Nat) : List Nat := [bits w 7 0, bits w 15 8, bits w 23 16, bits w 31 24]

/-- CRC-32 over words (R46). -/
def crc32Words (ws : List Nat) : Nat := (ws.foldl (fun c w => (wordBytes w).foldl crc32Byte c) 0xFFFFFFFF) ^^^ 0xFFFFFFFF

/-- Words of a stream, body words of a section, as numbers. -/
def Chip.flashNats (s : Chip) (a n : Nat) : List Nat := (s.flashRds a n).map BitVec.toNat

/-- Whether the layout of word `i` of a section's body uses some of bits 35 to 32, so that they are no guard bits (R47):
EGY_CLIM, the margins, PIN_MAP and its version-1 halves, QUE_RING, QUE_BUF, QUE_CFG and SIZE, ARM, EVR_CH, EVR_TSUB, the version-1
interrupt fields, RFE_PROF_M, the full words of a coefficient set, the mask points, and the entries of the cores.
[DEDUCED, unsafe: notes/assumptions/15] -/
def usesTop (ty ver i : Nat) : Bool :=
  match ty with
  | 3 => i = 1
  | 4 => 1 ≤ i && i ≤ 4
  | 6 => true
  | 7 => true
  | 8 => i = 1
  | 9 => 1 ≤ i && i ≤ 72
  | 10 => ver = 1
  | 12 => ver = 2 && ((7 ≤ i && i ≤ 21 && i % 2 = 1) || (22 ≤ i && i ≤ 65 && (i - 22) % 11 ≠ 10) || (66 ≤ i && i ≤ 81))
  | 13 => ver = 2 && 1 ≤ i && i ≤ 3
  | _ => false

/-- The guard bits of the words after the lock word are 0.  `n` counts the words left.  Behind a header of no known type
every word has guard bits.
[DEDUCED, unsafe: notes/assumptions/15] -/
def guardsOk : Nat → List Nat → Bool
  | 0, _ => true
  | _ + 1, [] => true
  | _ + 1, [crc] => bits crc 35 32 = 0
  | n + 1, h :: l =>
    let ty := hdrType h
    if ty = 0 ∨ 13 < ty then l.all (fun w => bits w 35 32 = 0)
    else
      let k := hdrLength h
      let body := l.take k
      ((List.range body.length).all (fun i => usesTop ty (hdrVersion h) i || bits (body.getD i 0) 35 32 = 0)) && guardsOk n (l.drop k)

/-- A section as the walk finds it: its offset from the start of the stream, its header and its body. -/
structure Section where
  offset : Nat
  ty : Nat
  version : Nat
  body : List Nat
deriving DecidableEq, Repr

/-- The outcome of the walk: the sections, or the header that refuses the stream. -/
inductive Walk where
  | ok (l : List Section)
  | bad (ty offset : Nat)
deriving DecidableEq, Repr

/-- Walk the section headers (step 3 of R50).  `last` is the type before, `off` the offset of the next
header, `n` a bound on the sections left.
[DEDUCED, unsafe: notes/assumptions/16] -/
def walk : Nat → Nat → Nat → List Nat → List Section → Walk
  | 0, _, _, _, _ => .bad leadType 0
  | n + 1, last, off, ws, acc =>
    match ws with
    | [] => .bad leadType 0
    | [_] => .ok acc.reverse
    | h :: l =>
      let ty := hdrType h
      let k := hdrLength h
      if ty ≤ last ∨ 13 < ty then .bad ty off
      else if l.length ≤ k then .bad leadType 0
      else walk n ty (off + 1 + k) (l.drop k) ({ offset := off, ty := ty, version := hdrVersion h, body := l.take k } :: acc)

/-- What the ROM finds in flash (steps 1 to 3 of R50). -/
inductive Found where
  | absent
  | corrupt (crc : Nat)
  | refused (crc ty offset : Nat)
  | sections (crc version lock : Nat) (l : List Section)
deriving DecidableEq, Repr

/-- Read a stream given as words (steps 1 to 3 of R50); a lock word with a bit outside its field is
refused at the lead (R45).
[DEDUCED, unsafe: notes/assumptions/16] -/
def findStream (ws : List Nat) : Found :=
  let lead := ws.headD 0
  let len := hdrLength lead
  let ver := hdrVersion lead
  if hdrType lead ≠ leadType ∨ (ver ≠ 1 ∧ ver ≠ 2) ∨ len < 3 ∨ streamMax < len then .absent
  else
    let all := ws.take len
    let crc := crc32Words (all.take (len - 1))
    let lock := all.getD 1 0
    let tail := all.getD (len - 1) 0
    if crc ≠ tail ∨ bits lock 35 32 ≠ 0 ∨ !guardsOk 4096 (all.drop 2) then .corrupt crc
    else if lock / 2 ^ 14 ≠ 0 ∨ lock % 2 = 1 then .refused crc leadType 1
    else
      match walk 4096 0 2 (all.drop 2) [] with
      | .bad ty off => .refused crc ty off
      | .ok l => .sections crc ver lock l

/-- The types that a version-1 stream may contain (R49). -/
def v1Type (ty : Nat) : Bool := ty = 1 || ty = 2 || ty = 6 || ty = 7 || ty = 10 || ty = 12 || ty = 13

/-! ### CLOCKS (R55 to R57) -/

/-- Translate the one-word body: the code that refuses it, or the two words. -/
def clocksV1 (w : Nat) : Nat × List Nat :=
  let sel := bits w 3 0
  if bits w 35 10 ≠ 0 ∨ bits w 7 4 ≠ 0 ∨ foxRate sel = none ∨ sel = 0 then (Rc.RANGE, [])
  else
    let radio := bitOf w 9
    let pll := radio || foxPll sel
    let prov := 0x3747 ||| (if radio then 0x38 else 0) ||| (if bitOf w 8 then 0x800 else 0)
    (Rc.OK, [prov, pll.toNat <<< 9 ||| pll.toNat <<< 8 ||| sel])

/-- The check of R56. -/
def clocksCheck (w0 w1 : Nat) : Nat :=
  let a := bits w1 3 0
  let b := bits w1 7 4
  let pll := bitOf w1 9
  if bits w0 35 14 ≠ 0 ∨ bits w1 35 10 ≠ 0 ∨ foxRate a = none ∨ foxRate b = none ∨ a = 0 then Rc.RANGE
  else if w0 &&& 0x747 ≠ 0x747 then Rc.COMBINATION
  else if !pll && (bitOf w0 4 || bitOf w0 5 || bitOf w1 8 || foxPll a || foxPll b) then Rc.COMBINATION
  else if !bitOf w0 7 && b ≠ 0 then Rc.CLOCK_OFF
  else Rc.OK

def Chip.applyClocks (s : Chip) (body : List Nat) : Nat × Chip :=
  match body with
  | [w0, w1] =>
    let code := clocksCheck w0 w1
    if code ≠ Rc.OK then (code, s)
    else
      let s1 := { s with cfg := { s.cfg with prov := w0, pll := bitOf w1 9, fab48 := bitOf w1 8 } }
      (Rc.OK, s1.switchFox (w1 % 256))
  | _ => (Rc.STREAM, s)

def clocksDefault : List Nat := [0x3747, 1]

/-! ### POWER (R114 to R116) -/

/-- A PMU_WCLS image gives some source class 3. -/
def wclsBad (w : Nat) : Bool := (List.range 6).any (fun i => bits w (5 + 2 * i) (4 + 2 * i) = 3)

/-- VIN as Bear measured it, in microvolts: the open-circuit voltage of EGY_SRC, in its steps of 2 mV, stands for it, since
the spec does not say which of the measurement's voltages is meant.
[DESIGN CHOICE, unsafe: notes/assumptions/163] -/
def Chip.vinMeasured (s : Chip) : Nat := 2000 * s.fld F.EGY_SRC_VOC

def Chip.applyPower (s : Chip) (body : List Nat) : Nat × Chip :=
  match body with
  | [w0, w1, w2] =>
    if bits w0 35 18 ≠ 0 ∨ bits w1 35 16 ≠ 0 ∨ bits w1 3 0 ≠ 0 ∨ wclsBad w1 ∨ 4 < w2 ∨ s.vinMeasured < vinBod w2 + 50000 then (Rc.RANGE, s)
    else
      (Rc.OK, (((s.setFld F.PMU_REQ_MAXDEPTH (bits w0 17 16)).setFld F.PMU_REQ_RET (bits w0 15 0)).setReg R.PMU_WCLS (W w1)).setFld
        F.PMU_BOD_VINBOD w2)
  | _ => (Rc.STREAM, s)

def powerDefault : List Nat := [0x1FFFF, 0xAA60, 0]

/-- Mask bit k becomes RET bits 2k and 2k + 1 (R115). -/
def powerV1 (w : Nat) : Nat × List Nat :=
  if bits w 35 10 ≠ 0 ∨ bits w 9 8 = 3 then (Rc.RANGE, [])
  else
    let ret := (List.range 8).foldl (fun acc k => if bitOf w k then acc ||| 3 <<< (2 * k) else acc) 0
    (Rc.OK, [bits w 9 8 <<< 16 ||| ret, 0xAA60, 0])

/-! ### MARGINS (R63 to R65) -/

/-- The limits of quantity `k`. -/
def marginLimits (k : Nat) : Nat × Nat :=
  match k with
  | 1 => (0, 150) | 2 => (0, 4095) | 3 => (0, 500) | _ => (1, 16)

/-- Value, floor and ceiling of a MARGINS word. -/
def marginOf (w : Nat) : Nat × Nat × Nat := (bits w 11 0, bits w 23 12, bits w 35 24)

def marginOk (k : Nat) (m : Nat × Nat × Nat) : Bool :=
  let (v, lo, hi) := m
  let (a, b) := marginLimits k
  a ≤ lo && lo ≤ v && v ≤ hi && hi ≤ b

def Chip.applyMargins (s : Chip) (body : List Nat) : Nat × Chip :=
  match body with
  | [w0, w1, w2, w3, w4, w5] =>
    let ms := [marginOf w1, marginOf w2, marginOf w3, marginOf w4]
    if bits w0 35 1 ≠ 0 ∨ bits w5 35 12 ≠ 0 ∨ !((List.range 4).all (fun i => marginOk (i + 1) (ms.getD i (0, 0, 0)))) then (Rc.RANGE, s)
    else
      let s1 := { s with cfg := { s.cfg with adaptive := bitOf w0 0, margins := ms, lifeAlarm := w5 } }
      (Rc.OK, [1, 2, 3, 4].foldl (fun c k => c.loadMargin k (c.margin k).1) s1)
  | _ => (Rc.STREAM, s)

def marginsDefault : List Nat := [0, 0x07801903C, 0x7D00320C8, 0x12C032064, 0x01000800C, 24]

/-! ### VERSIONS (R58 to R62) -/

/-- The highest version an interface supports. -/
def ifaceMax (i : Nat) : Nat := if i ≤ 1 then 3 else 2

/-- The first item that refuses one entry by itself. -/
def versionEntryCheck (w : Nat) : Nat :=
  let i := bits w 29 24
  let lo := bits w 7 0
  let hi := bits w 15 8
  if bits w 35 30 ≠ 0 ∨ bits w 22 16 ≠ 0 ∨ 3 < i then Rc.RANGE
  else if lo < 1 ∨ ifaceMax i < lo ∨ hi < 1 ∨ ifaceMax i < hi then Rc.VERSION
  else if hi < lo then Rc.RANGE
  else Rc.OK

def versionsCombination (ws : List Nat) : Bool :=
  ws.any (fun w => !bitOf w 23 && bits w 7 0 ≠ bits w 15 8)
    || [0, 1, 2, 3].any (fun i => 1 < (ws.filter (fun w => bits w 29 24 = i)).length)

/-- The checks of the VERSIONS section are made entry by entry, then the combinations (R59).
[DEDUCED, unsafe: notes/assumptions/18] -/
def versionsCheck (ws : List Nat) : Nat :=
  match (ws.map versionEntryCheck).find? (fun c => c ≠ Rc.OK) with
  | some c => c
  | none => if versionsCombination ws then Rc.COMBINATION else Rc.OK

/-- The default of each interface. -/
def versionDefaults : List (Bool × Nat × Nat) := [(true, 1, 3), (true, 1, 3), (true, 1, 2), (true, 1, 2)]

def Chip.applyVersions (s : Chip) (body : List Nat) : Nat × Chip :=
  if body.length < 1 ∨ 4 < body.length then (Rc.STREAM, s)
  else
    let code := versionsCheck body
    if code ≠ Rc.OK then (code, s)
    else
      let v := body.foldl (fun l w => setAt l (bits w 29 24) (bitOf w 23, bits w 7 0, bits w 15 8)) versionDefaults
      (Rc.OK, { s with cfg := { s.cfg with versions := v } })

def versionsDefault : List Nat := [0x000800301, 0x001800301, 0x002800201, 0x003800201]

/-- The contents of a translated version-1 stream (R62). -/
def versionsV1 : List Nat := [0x000000101, 0x001800301, 0x002800201, 0x003800201]

/-- The range an interface offers (R60). -/
def Chip.offer (s : Chip) (i : Nat) : Nat × Nat := (s.cfg.versions.getD i (true, 1, 1)).2

/-- The agreed version of two offers; none where there is no common one (R60). -/
def agree (a b : Nat × Nat) : Option Nat :=
  let v := min a.2 b.2
  if max a.1 b.1 ≤ v then some v else none

end Sys2Proof.Machine
end

