-- ==== Sys2Proof/Machine/Modem.lean ====
section
/-!
DEFINITION. The three modem modes: symbol times, time on air, coding and frames (spec/07, spec/08).
`mm` is MMODE, 1 long sweep, 2 chirp multiplex, 3 SUN-FSK; `set` is the word of the parameter set.
Times are in HF-REF periods.
-/
namespace Sys2Proof.Machine

/-! ### Parameter sets -/

def lsSync (set : Nat) : Nat := bits set 35 28
def lsNpre (set : Nat) : Nat := bits set 27 12
def lsCr (set : Nat) : Nat := bits set 10 10
def lsK (set : Nat) : Nat := bits set 9 7
def lsSwf (set : Nat) : Nat := bits set 6 3

def cmN (set : Nat) : Nat := 64 * 2 ^ bits set 11 10
def cmBw (set : Nat) : Nat := 200000 * 2 ^ bits set 9 8
def cmCp (set : Nat) : Bool := bitOf set 6
def cmMod (set : Nat) : Nat := bits set 5 4
def cmCr (set : Nat) : Nat := bits set 3 2

def fkNpre (set : Nat) : Nat := bits set 35 26
def fkFec (set : Nat) : Nat := bits set 16 15
def fkRate (set : Nat) : Nat := bits set 13 12

/-- The register of parameter set `m` of a mode. -/
def mdmSet (mm m : Nat) : Nat :=
  match mm with
  | 1 => R.MDM_LS m | 2 => R.MDM_CM m | _ => R.MDM_FK m

/-- The occupied width in units of 1/10 Hz (R185, R208, R227). -/
def occWidth (mm set : Nat) : Nat :=
  match mm with
  | 1 => 78125 * 2 ^ lsK set
  | 2 => 10 * cmBw set
  | 3 => 500000 * (fkRate set + 1) * (if bitOf set 14 then 4 else 3) / 2
  | _ => 0

/-- The width of a receive channel filter code in units of 1/10 Hz; none for 0xF. -/
def rxbwWidth (code : Nat) : Option Nat :=
  if code ≤ 7 then some (78125 * 2 ^ code)
  else if code ≤ 11 then some (2000000 * 2 ^ (code - 8))
  else none

/-- The width of the receive channel filter in force, in 1/10 Hz: RXBW 0xF follows the set, with BW, or for SUN-FSK with the
narrowest listed width that is not below the occupied one (R185, R208, R227). -/
def rxWidth (mm set code : Nat) : Nat :=
  match rxbwWidth code with
  | some w => w
  | none =>
    let o := occWidth mm set
    if mm = 3 then (((List.range 12).filterMap rxbwWidth).filter (fun w => o ≤ w)).foldl min 16000000 else o

/-- The transmit sample rate FS in Hz (R185, R208, R227). -/
def txRate (mm set : Nat) : Nat :=
  match mm with
  | 1 => 62500 * 2 ^ lsK set | 2 => 4 * cmBw set | _ => 400000 * (fkRate set + 1)

/-- Whether the filter of an RXBW code is narrower than a set. -/
def tooNarrow (mm set code : Nat) : Bool :=
  match rxbwWidth code with
  | none => false
  | some w => w < occWidth mm set

/-! ### Times -/

/-- A number of SUN-FSK bits. -/
def fkBits (set n : Nat) : Nat := (n * 640 + fkRate set) / (fkRate set + 1)

/-- Tsym or Ts (R184, R208). -/
def symTime (mm set : Nat) : Nat :=
  match mm with
  | 1 => 2 ^ (lsSwf set + 12 - lsK set)
  | 2 => cmN set * (if cmCp set then 10 else 9) / 8 * 160 / 2 ^ bits set 9 8
  | _ => fkBits set 1

/-- Data chirps per symbol (R210), and bits per chirp. -/
def cmData (n : Nat) : Nat := if n = 256 then 240 else if n = 128 then 116 else 54
def cmBits (md : Nat) : Nat := match md with | 0 => 1 | 1 => 2 | _ => 4

/-- The coded length of `n` input bits at rate code `cr`: 0 for 1/2, 1 for 2/3, 2 for 3/4 (R186, R212). -/
def codedLen (cr n : Nat) : Nat :=
  match cr with
  | 0 => 2 * n
  | 1 => n / 2 * 3 + n % 2 * 2
  | _ => n / 3 * 4 + (if n % 3 = 0 then 0 else n % 3 + 1)

def ceilDiv (a b : Nat) : Nat := (a + b - 1) / b

/-- Payload symbols of a long-sweep frame (R193). -/
def lsPaySyms (set cr len : Nat) : Nat := 8 * ceilDiv (codedLen cr (8 * (len + 2) + 6)) (8 * lsSwf set)

/-- Header and payload symbols of a chirp-multiplex frame (R214, R217). -/
def cmHdrSyms (set : Nat) : Nat := ceilDiv 76 (cmData (cmN set))
def cmPaySyms (set md cr len : Nat) : Nat :=
  ceilDiv (codedLen cr (8 * (len + 4) + 6)) (cmData (cmN set) * cmBits md)

/-- Bits of a SUN-FSK frame with a PSDU of `l` octets (R230). -/
def fkFrameBits (set l : Nat) : Nat :=
  if fkFec set = 0 then 8 * fkNpre set + 32 + 8 * l else 8 * fkNpre set + 16 + 2 * (24 + 8 * l)

/-- Octets of the FCS that a set sends. -/
def fkFcs (set : Nat) : Nat := if bitOf set 19 then 2 else 4

/-- T_air of a frame of `len` octets (R193, R217, R230). -/
def airTime (mm set len : Nat) : Nat :=
  match mm with
  | 1 => (lsNpre set + 12 + lsPaySyms set (lsCr set) len) * symTime 1 set
  | 2 => (2 + cmHdrSyms set + cmPaySyms set (cmMod set) (cmCr set) len) * symTime 2 set
  | _ => fkBits set (fkFrameBits set (len + fkFcs set))

/-- TACQ and TSYNC of "Link controller". -/
def tAcq (mm set : Nat) : Nat :=
  match mm with
  | 1 => 5 * symTime 1 set | 2 => 2 * symTime 2 set | _ => fkBits set 24
def tSync (mm set : Nat) : Nat :=
  match mm with
  | 1 => (lsNpre set + 2) * symTime 1 set | 2 => 2 * symTime 2 set | _ => fkBits set (8 * fkNpre set + 16)

/-- The latest handover after the last symbol (R200, R221, R231). -/
def tHandover (mm set : Nat) : Nat :=
  match mm with
  | 1 => symTime 1 set / 8 + us 100 | 2 => symTime 2 set + us 50 | _ => fkBits set 16 + us 50

/-- How long after acquisition the sync or header decision comes at most (R199, R221, R231). -/
def tDecision (mm set : Nat) : Nat :=
  match mm with
  | 1 => (lsNpre set + 2) * symTime 1 set
  | 2 => (2 + cmHdrSyms set) * symTime 2 set
  | _ => fkBits set (8 * fkNpre set + (if fkFec set = 0 then 32 else 16 + 48))

/-- From the sync decision to the end of the frame, once its header is known. -/
def frameLeft (mm set hdr : Nat) : Nat :=
  match mm with
  | 1 => lsPaySyms set (bits hdr 7 7) (bits hdr 15 8) * symTime 1 set
  | 2 => cmPaySyms set (bits hdr 20 19) (bits hdr 18 17) (bits hdr 31 21) * symTime 2 set
  | _ => fkBits set (if fkFec set = 0 then 8 * bits hdr 10 0 else 16 * bits hdr 10 0)

/-- The claim of a reception in 0.25 mW (R194, R218, R230). -/
def rxPower (mm : Nat) : Nat := match mm with | 1 => 67 | 2 => 114 | _ => 75

/-- The longest and the shortest frame, and the code that refuses others (R205, R228). -/
def lenCheck (mm set len : Nat) : Nat :=
  match mm with
  | 1 => if len = 0 ∨ 255 < len then Rc.LEN_RANGE else Rc.OK
  | 2 => if len = 0 ∨ 2047 < len then Rc.LEN_LIMIT else Rc.OK
  | _ => if len = 0 ∨ 2047 < len + fkFcs set then Rc.LEN_LIMIT else Rc.OK

/-! ### Checks (R190, R191, R215, R225) -/

/-- A CRC computed most significant bit first: `w` bits wide, polynomial `p`, over a list of bits. -/
def crcMsb (w p init : Nat) (bs : List Bool) : Nat :=
  bs.foldl (fun c b =>
    let top := c.testBit (w - 1) != b
    let c' := c * 2 % 2 ^ w
    if top then c' ^^^ p else c') init

/-- The `n` low bits of `v`, most significant first. -/
def msbBits (n v : Nat) : List Bool := (List.range n).map (fun i => v.testBit (n - 1 - i))

/-- Octets as bits, bit 7 first. -/
def octetBits (l : List Byte) : List Bool := l.flatMap (fun b => msbBits 8 b.toNat)

/-- CRC-16 of the long sweep. -/
def crc16 (l : List Byte) : Nat := crcMsb 16 0x1021 0xFFFF (octetBits l)

/-- HCHK of a long-sweep header and of a chirp-multiplex header. -/
def lsHchk (hdr : Nat) : Nat := crcMsb 4 3 0 (msbBits 12 (hdr / 16))
def cmHchk (hdr : Nat) : Nat := crcMsb 8 7 0 (msbBits 24 (hdr / 256))

/-- CRC-32 of octets (R46, R216). -/
def crc32Octets (l : List Byte) : Nat := crc32Bytes (l.map BitVec.toNat)

/-- The 2-octet FCS: reflected, initial value 0 (R225). -/
def fcs16 (l : List Byte) : Nat :=
  l.foldl (fun c b => (List.range 8).foldl (fun c _ => if c % 2 = 1 then (c / 2) ^^^ 0x8408 else c / 2) (c ^^^ b.toNat)) 0

/-- `n` octets of a number, least significant first. -/
def leOctets (n v : Nat) : List Byte := (List.range n).map (fun i => BitVec.ofNat 8 (v >>> (8 * i)))

/-- The number that octets give, least significant first. -/
def leNat (l : List Byte) : Nat := l.foldr (fun b acc => b.toNat + 256 * acc) 0

/-- The octets of a frame with its check appended: CRC-16 high octet first, CRC-32 and FCS low octet
first (the octet order of the FCS is that of IEEE 802.15.4). -/
def withCheck (mm set : Nat) (l : List Byte) : List Byte :=
  match mm with
  | 1 => l ++ (leOctets 2 (crc16 l)).reverse
  | 2 => l ++ leOctets 4 (crc32Octets l)
  | _ => if bitOf set 19 then l ++ leOctets 2 (fcs16 l) else l ++ leOctets 4 (crc32Octets l)

/-- The frame in received octets, and whether its check passes.  `hdr` is the header word. -/
def checkFrame (mm hdr : Nat) (l : List Byte) : List Byte × Bool :=
  let n := match mm with
    | 1 => 2 | 2 => 4 | _ => if bitOf hdr 12 then 2 else 4
  let body := l.take (l.length - n)
  let tail := l.drop (l.length - n)
  (body, match mm with
    | 1 => decide (tail = (leOctets 2 (crc16 body)).reverse)
    | 2 => decide (tail = leOctets 4 (crc32Octets body))
    | _ => if bitOf hdr 12 then decide (tail = leOctets 2 (fcs16 body)) else decide (tail = leOctets 4 (crc32Octets body)))

/-! ### The code (R186, R212) -/

def convParity (n : Nat) : Bool := (List.range 7).foldl (fun p i => p != n.testBit i) false

/-- Outputs a and b for every input bit, from the zero state. -/
def convPairs : Nat → List Bool → List (Bool × Bool)
  | _, [] => []
  | st, u :: l =>
    let r := u.toNat * 64 + st
    (convParity (r &&& 0b1011011), convParity (r &&& 0b1111001)) :: convPairs (r / 2) l

/-- Puncture. -/
def puncture (cr : Nat) : List (Bool × Bool) → List Bool
  | [] => []
  | [p] => [p.1, p.2]
  | p :: q :: l =>
    match cr with
    | 0 => p.1 :: p.2 :: puncture 0 (q :: l)
    | 1 => p.1 :: p.2 :: q.1 :: puncture 1 l
    | _ =>
      match l with
      | [] => [p.1, p.2, q.1]
      | r :: l' => p.1 :: p.2 :: q.1 :: r.2 :: puncture cr l'

/-- Encode a field with its 6 tail bits. -/
def encodeField (cr : Nat) (u : List Bool) : List Bool := puncture cr (convPairs 0 (u ++ List.replicate 6 false))

/-- Pad with zero bits to a whole number of blocks of `n`. -/
def padTo (n : Nat) (l : List Bool) : List Bool := l ++ List.replicate ((n - l.length % n) % n) false

/-- Cut a list into blocks of `n`; `k` bounds their number. -/
def blocksOf {α : Type} (n : Nat) : Nat → List α → List (List α)
  | 0, _ => []
  | k + 1, l => if l.isEmpty then [] else l.take n :: blocksOf n k (l.drop n)

/-! ### Long-sweep frames (R187 to R191) -/

/-- The value whose Gray code is `v`. -/
def grayInv (v : Nat) : Nat := (List.range 14).foldl (fun m i => m ^^^ (v >>> (i + 1))) v

/-- The transmitted value of symbol `s` of a block (R188). -/
def symbolValue (swf : Nat) (block : List Bool) (s : Nat) : Nat :=
  grayInv ((List.range swf).foldl (fun v r =>
    v + (block.getD (8 * ((r + swf * 8 - s) % swf) + s) false).toNat * 2 ^ (swf - 1 - r)) 0)

/-- The symbols of an encoded field. -/
def lsSymbols (swf : Nat) (coded : List Bool) : List Nat :=
  let l := padTo (8 * swf) coded
  (blocksOf (8 * swf) l.length l).flatMap (fun b => (List.range 8).map (symbolValue swf b))

/-- The header of a long-sweep frame (R190). -/
def lsHeader (len cr : Nat) : Nat :=
  let h := len * 256 + cr * 128
  h + lsHchk h

def lsFrame (set : Nat) (l : List Byte) : List AirPart :=
  let swf := lsSwf set
  let step := 2 ^ swf / 16
  let hdr := lsHeader l.length (lsCr set)
  [.preamble (lsNpre set), .up [step * (lsSync set / 16), step * (lsSync set % 16)], .down, .up [2 ^ swf / 2],
   .up (lsSymbols swf (encodeField 0 (msbBits 16 hdr))), .up (lsSymbols swf (encodeField (lsCr set) (octetBits (withCheck 1 set l))))]

/-! ### Chirp-multiplex frames (R210 to R216) -/

/-- `n` output bits of the generator x^w + x^k + 1 seeded with ones: each is the sum of the bits `w` and
`k` places before it, and the first bit put out is the first such sum, not a bit of the seed.
[DESIGN CHOICE, unsafe: notes/assumptions/177] -/
def lfsrBits (w k : Nat) : Nat → Nat → List Bool
  | 0, _ => []
  | n + 1, r =>
    let b := r.testBit (w - 1) != r.testBit (k - 1)
    b :: lfsrBits w k n (r * 2 % 2 ^ w + b.toNat)

/-- PN9 of IEEE 802.15.4 data whitening (R213).
[PRESUMED, unsafe: notes/assumptions/104] -/
def pn9 (n : Nat) : List Bool := lfsrBits 9 4 n 0x1FF
/-- The training bits, of x^9 + x^5 + 1 (R214), and the pilot bits, of x^7 + x^4 + 1 (R210).
[DESIGN CHOICE, unsafe: notes/assumptions/177] -/
def trainBits (n : Nat) : List Bool := lfsrBits 9 5 n 0x1FF
def pilotBits (n : Nat) : List Bool := lfsrBits 7 4 n 0x7F

def xorBits (a b : List Bool) : List Bool := (a.zip b).map (fun p => p.1 != p.2)

/-- The label of data chirp `d` of a symbol (R213). -/
def chirpLabel (nd nb : Nat) (block : List Bool) (d : Nat) : Nat :=
  (List.range nb).foldl (fun v i => 2 * v + (block.getD (d + i * nd) false).toNat) 0

/-- The labels of every symbol of an encoded field. -/
def cmSymbols (nd nb : Nat) (coded : List Bool) : List (List Nat) :=
  let l := padTo (nd * nb) coded
  (blocksOf (nd * nb) l.length l).map (fun b => (List.range nd).map (chirpLabel nd nb b))

/-- The role of chirp `i` of N (R210): pilots, nulls, data. -/
def isPilot (n i : Nat) : Bool := i % (n / 8) = 0
def isNull (i : Nat) : Bool := i % 32 = 20
def dataChirps (n : Nat) : List Nat := (List.range n).filter (fun i => !isPilot n i && !isNull i)
def pilotChirps (n : Nat) : List Nat := (List.range n).filter (isPilot n)
def nullChirps (n : Nat) : List Nat := (List.range n).filter isNull

/-- A bit as a sign: 2b − 1. -/
def bitSign (b : Bool) : Int := if b then 1 else -1

/-- The level of two bits of 16-QAM (R211). -/
def qamLevel (v : Nat) : Int := [-3, -1, 3, 1].getD v 0

/-- The constellation point of a label of `nb` bits, b0 the most significant (R211). -/
def chirpPoint (nb label : Nat) : Pt :=
  match nb with
  | 1 => { re := bitSign (bitOf label 0), im := 0, norm := 1 }
  | 2 => { re := bitSign (bitOf label 1), im := bitSign (bitOf label 0), norm := 2 }
  | _ => { re := qamLevel (bits label 3 2), im := qamLevel (bits label 1 0), norm := 10 }

/-- The chirp values of a symbol: pilots of one bit, nulls, and data points in increasing index (R210). -/
def symbolPoints (n nb : Nat) (pilot : Bool) (labels : List Nat) : List Pt :=
  let d := dataChirps n
  (List.range n).map (fun i =>
    if isPilot n i then { re := -bitSign pilot, im := 0, norm := 1 }
    else if isNull i then { re := 0, im := 0, norm := 1 }
    else chirpPoint nb (labels.getD (d.findIdx (· = i)) 0))

/-- The chirp values of a training symbol (R214). -/
def trainPoints (n : Nat) : List Pt := (trainBits n).map (fun t => { re := -bitSign t, im := 0, norm := 1 })

/-- The header of a chirp-multiplex frame (R215). -/
def cmHeader (len md cr : Nat) : Nat :=
  let h := len * 2 ^ 21 + md * 2 ^ 19 + cr * 2 ^ 17
  h + cmHchk h

def cmFrame (set : Nat) (l : List Byte) : List AirPart :=
  let n := cmN set
  let nd := cmData n
  let nb := cmBits (cmMod set)
  let pay := octetBits (withCheck 2 set l)
  let hdr := cmSymbols nd 1 (encodeField 0 (msbBits 32 (cmHeader l.length (cmMod set) (cmCr set))))
  let body := cmSymbols nd nb (encodeField (cmCr set) (xorBits pay (pn9 pay.length)))
  let syms := hdr.map (fun x => (1, x)) ++ body.map (fun x => (nb, x))
  List.replicate 2 (.symbol (trainPoints n)) ++ ((pilotBits syms.length).zip syms).map (fun p => .symbol (symbolPoints n p.2.1 p.1 p.2.2))

/-! ### SUN-FSK frames (R225, R228, R229) -/

def fkSfdSel (set : Nat) : Nat := bits set 20 20
def fkIlv (set : Nat) : Bool := bitOf set 17

/-- The bits of an octet, bit 0 first, and back. -/
def lsbBits (b : Nat) : List Bool := (List.range 8).map b.testBit
def ofLsbBits (l : List Bool) : Nat := l.foldr (fun b acc => b.toNat + 2 * acc) 0
def ofMsbBits (l : List Bool) : Nat := l.foldl (fun acc b => 2 * acc + b.toNat) 0

/-- Whiten octets with PN9, bit 0 of each first. -/
def whiten (l : List Nat) : List Nat :=
  let bs := l.flatMap lsbBits
  (blocksOf 8 bs.length (xorBits bs (pn9 bs.length))).map ofLsbBits

/-- The PHR: MS in bit 15, FCS type in bit 12, DW in bit 11, the frame length below. -/
def fkPhr (set len : Nat) : Nat := (bits set 19 19) <<< 12 ||| (bits set 18 18) <<< 11 ||| (len + fkFcs set)

/-- phySunFskSfd 0 and 1 of IEEE 802.15.4-2020, uncoded and coded, first bit first.
[PRESUMED, unsafe: notes/assumptions/104] -/
def fkSfd (set : Nat) : List Bool :=
  msbBits 16 (match fkSfdSel set, decide (fkFec set = 0) with
    | 0, true => 0x904E | 0, false => 0x6F4E | _, true => 0x7A0E | _, false => 0x632D)

/-- One step of the constraint-length-4 codes of IEEE 802.15.4-2020 from state `st`, whose bit 2 is the latest: outputs and next
state.  NRNSC has the generators 1 + x + x² + x³ and 1 + x² + x³; RSC sends the input and (1 + x² + x³) / (1 + x + x² + x³).
[PRESUMED, unsafe: notes/assumptions/104] -/
def fkStep (fec st : Nat) (u : Bool) : (Bool × Bool) × Nat :=
  let back := convParity (st % 8)
  let w := if fec = 2 then u != back else u
  let r := w.toNat * 8 + st
  (((if fec = 2 then u else convParity (r &&& 0b1111)), convParity (r &&& 0b1011)), r / 2)

def fkEncodeFrom (fec : Nat) : Nat → List Bool → List (Bool × Bool) × Nat
  | st, [] => ([], st)
  | st, u :: l =>
    let (p, st1) := fkStep fec st u
    let (ps, e) := fkEncodeFrom fec st1 l
    (p :: ps, e)

/-- The input that takes a code towards its zero state. -/
def fkTail (fec st : Nat) : Bool := fec = 2 && convParity (st % 8)

/-- The code symbols of PHR and PSDU, with 3 tail bits and 5 pad bits (R229).
[PRESUMED, unsafe: notes/assumptions/104] -/
def fkEncode (fec : Nat) (u : List Bool) : List (Bool × Bool) :=
  let (a, s0) := fkEncodeFrom fec 0 u
  let (p1, s1) := fkStep fec s0 (fkTail fec s0)
  let (p2, s2) := fkStep fec s1 (fkTail fec s1)
  let (p3, s3) := fkStep fec s2 (fkTail fec s2)
  a ++ [p1, p2, p3] ++ (fkEncodeFrom fec s3 [false, true, false, true, true]).1

/-- The place in a block of 16 code symbols from which the interleaver takes the one it sends in place `k`; it is its own
inverse.  A last half block stands as it is.
[PRESUMED, unsafe: notes/assumptions/104] -/
def ilvPlace (k : Nat) : Nat := 15 - (4 * (k % 4) + k / 4)
def interleave {α : Type} (l : List α) : List α :=
  (blocksOf 16 l.length l).flatMap (fun b => if b.length < 16 then b else (List.range 16).filterMap (fun k => b[ilvPlace k]?))

/-- The bits of a frame: preamble octets 0x55, SFD, PHR with its bit 15 first, PSDU octets with bit 0 first. -/
def fkBitsOf (set : Nat) (l : List Byte) : List Bool :=
  let psdu := (withCheck 3 set l).map BitVec.toNat
  let body := msbBits 16 (fkPhr set l.length) ++ (if bitOf set 18 then whiten psdu else psdu).flatMap lsbBits
  let coded :=
    if fkFec set = 0 then body
    else
      let c := fkEncode (fkFec set) body
      (if fkIlv set then interleave c else c).flatMap (fun p => [p.1, p.2])
  (List.replicate (fkNpre set) (msbBits 8 0x55)).flatten ++ fkSfd set ++ coded

def fkFrame (set : Nat) (l : List Byte) : List AirPart := [.bits (fkBitsOf set l)]

/-- The frame of a mode. -/
def airFrame (mm set : Nat) (l : List Byte) : List AirPart :=
  match mm with
  | 1 => lsFrame set l | 2 => cmFrame set l | _ => fkFrame set l

/-! ### Reception -/

/-- The outcome of a header (R198, R221, R226, R229). -/
def headerCheck (mm hdr : Nat) : Nat :=
  match mm with
  | 1 => if lsHchk hdr ≠ hdr % 16 ∨ bits hdr 15 8 = 0 then Rc.HDR_FAIL else Rc.OK
  | 2 => if cmHchk hdr ≠ hdr % 256 ∨ bits hdr 31 21 = 0 ∨ bits hdr 20 19 = 3 ∨ bits hdr 18 17 = 3 then Rc.HDR_FAIL else Rc.OK
  | _ =>
    if bitOf hdr 15 then Rc.MS_UNSUPPORTED
    else if bits hdr 10 0 < (if bitOf hdr 12 then 2 else 4) then Rc.HDR_FAIL else Rc.OK

/-- Payload octets, check included, that a header announces. -/
def headerOctets (mm hdr : Nat) : Nat :=
  match mm with
  | 1 => bits hdr 15 8 + 2 | 2 => bits hdr 31 21 + 4 | _ => bits hdr 10 0

/-- The failure of a sync decision and of a payload check. -/
def syncFail (mm : Nat) : Nat := if mm = 2 then Rc.TRAIN_FAIL else Rc.SYNC_MISMATCH
def payFail (mm : Nat) : Nat := if mm = 1 then Rc.CRC_FAIL else Rc.PAYLOAD_FAIL

/-- The reference SNR in tenths of a decibel (R201, R223, R232). -/
def sref (mm set hdr : Nat) : Int :=
  match mm with
  | 1 => -19 - 25 * ((lsSwf set : Int) - 6) + (if bitOf hdr 7 then 15 else 0)
  | 2 =>
    match bits hdr 20 19, bits hdr 18 17 with
    | 0, 0 => 30 | 0, 1 => 45 | 0, _ => 55
    | 1, 0 => 60 | 1, 1 => 80 | 1, _ => 90
    | _, 0 => 120 | _, 1 => 155 | _, _ => 180
  | _ => (if bitOf set 14 then 105 else 120) - (if fkFec set = 0 then 0 else 40)

/-- LQI of an SNR in quarter decibels (R167). -/
def lqiOf (snr : Int) (ref : Int) : Nat := min 255 ((20 * snr - 8 * ref) / 10).toNat

/-- The quality word of a frame with `rssi` in half dBm, `snr` in quarter dB and an EVM in quarter dB
below 0 (R167, R222). -/
def qualityWord (mm set hdr : Nat) (rssi snr evm : Int) : Nat :=
  unsigned 10 rssi <<< 26 ||| unsigned 9 snr <<< 17 ||| lqiOf snr (sref mm set hdr) <<< 9
    ||| (if mm = 2 then (max 0 (min 510 evm)).toNat else 0x1FF)

end Sys2Proof.Machine
end

