-- ==== Sys2Proof/Machine/Cell.lean ====
section
/-!
DEFINITION. The cell in progress: slot times, SLOT windows, slot records, returned entries, and the end
of a cell (spec/09 R236, R248 to R250, R264, R265, R270; spec/03 R74; spec/06 R174).
-/
namespace Sys2Proof.Machine

def Chip.setLnk (s : Chip) (l : Lnk) : Chip := { s with lnk := l }
def Chip.setSyn (s : Chip) (y : Syn) : Chip := { s with syn := y }
def Chip.setLive (s : Chip) (l : Live) : Chip := s.setLnk { s.lnk with live := some l }
def Chip.setLatch (s : Chip) (l : Latches) : Chip := { s with pins := { s.pins with latch := l } }

/-- A bit of LNK_EVT is set (source 66). -/
def Chip.lnkEvent (s : Chip) (f : Fld) : Chip := (s.setBit f true).occ 66

/-! ### Slot times (R236, R246 to R249) -/

/-- The PA ramp in HF-REF periods, as RFE_CFG gives it, and as the live cell copied it (R20). -/
def Chip.rampCfg (s : Chip) : Nat := us (2 ^ s.fld F.RFE_CFG_RAMP)
def Chip.ramp (s : Chip) : Nat :=
  match s.lnk.live with
  | some l => us (2 ^ l.ramp)
  | none => s.rampCfg
def Chip.txOff (s : Chip) (c : Nat) : Nat := us (s.fld (F.LNK_CLS_T0_TXOFF c))
def Chip.slotLen (s : Chip) (c : Nat) : Nat := s.fld (F.LNK_CLS_T0_LEN c)
def Chip.lockLead (s : Chip) (c : Nat) : Nat := us (s.fld (F.LNK_CLS_T1_LOCKLEAD c))
def Chip.txLate (s : Chip) (c : Nat) : Nat := us (s.fld (F.LNK_CLS_T1_TXLATE c))
def Chip.ackGuard (s : Chip) (c : Nat) : Nat := us (s.fld (F.LNK_CLS_T1_ACKGUARD c))
def Chip.tAck (s : Chip) (c : Nat) : Nat := us (s.fld (F.LNK_CLS_T2_TACK c))

/-- ASN0_c as written. -/
def Chip.asn0 (s : Chip) (c : Nat) : Nat :=
  bits (s.reg (R.LNK_CLS_ASNHI c)).toNat 11 0 <<< 36 ||| (s.reg (R.LNK_CLS_ASNLO c)).toNat

def Chip.toff (s : Chip) : Int := signed 24 (s.fld F.LNK_TOFF_TOFF)

/-- The time of a position of STB given in 1/15,625 of an LF tick, to the nearest HF-REF cycle (R238). -/
def Chip.timeOfPos (s : Chip) (x : Int) : Int :=
  let y := x - 15625 * ((s.owl.stb : Int) - s.lfIdx s.now)
  if s.clk.lfRc then (y * 8 + 62) / 125 else s.clk.lfPhase + (y + 8) / 16

/-- Boundary `n` of class `c`: t_c(n) of R236, exactly. -/
def Chip.boundaryPos (s : Chip) (c n : Nat) : Int :=
  15625 * (s.lnk.starts.getD c 0 : Int) + ((n : Int) - s.asn0 c) * s.slotLen c * 512000 + s.toff * 128
def Chip.boundaryAt (s : Chip) (c n : Nat) : Int := s.timeOfPos (s.boundaryPos c n)

/-- Requester role is enabled (R174). -/
def Chip.requester (s : Chip) : Bool := s.bit F.CX_CTL_EN && s.fld F.CX_CFG_ROLE = 1
def Chip.arbiter (s : Chip) : Bool := s.bit F.CX_CTL_EN && s.fld F.CX_CFG_ROLE = 2

/-- The lead of a choice instant over its boundary (R243). -/
def Chip.cxLead (s : Chip) : Nat := if s.requester then us (s.fld F.CX_CFG_LEAD) else 0

/-- GE (R247). -/
def Chip.guardOf (s : Chip) (c guard : Nat) : Nat := min (us guard) (s.txOff c - s.lockLead c)

/-- The preparation start of a cell of class `c` whose boundary is at `b` (R248, R249). -/
def Chip.prepOf (s : Chip) (c b : Nat) (tx : Bool) (guard : Nat) : Nat :=
  if tx then b + s.txOff c - s.rampCfg - s.lockLead c else b + s.txOff c - s.guardOf c guard - s.lockLead c

def Chip.prepAt (s : Chip) (c : Chosen) : Nat := s.prepOf c.cls c.b c.tx c.guard

/-! ### The parts of the live cell -/

def Chosen.sf (c : Chosen) : Nat := bits c.w0 34 32
def Chosen.ty (c : Chosen) : Nat := bits c.w0 13 12
def Chosen.nbr (c : Chosen) : Nat := bits c.w0 11 5
def Chosen.prof (c : Chosen) : Nat := bits c.w0 4 2
def Chosen.cxpri (c : Chosen) : Bool := bitOf c.w0 1

def mMode (m : Nat) : Nat := bits m 22 21
def Live.mm (l : Live) : Nat := mMode l.m

/-- Scheduled transmit start, and the deadline of the start (R248). -/
def Chip.startOf (s : Chip) (l : Live) : Nat := l.c.b + s.txOff l.c.cls
def Chip.deadlineOf (s : Chip) (l : Live) : Nat := s.startOf l + s.txLate l.c.cls

/-! ### SLOT windows (R74, R174) -/

/-- CX_PRI for a cell. -/
def Chip.priFor (s : Chip) (c : Chosen) : Bool :=
  match s.fld F.CX_CFG_PRISRC with
  | 0 => false | 1 => true | 2 => c.tx | _ => c.cxpri

/-- A SLOT window opens.  It changes RUN to SLOT, with the pulse of R424, or extends the window in force; REST ends at a wake
only.  Where windows of two cells overlap, CX_PRI is that of the cell whose window opened last.
[DESIGN CHOICE, unsafe: notes/assumptions/185] -/
def Chip.openWindow (s : Chip) (c : Chosen) : Chip :=
  let s1 := { s with pins := { s.pins with windows := s.pins.windows + 1 } }
  let s2 := if s1.pins.phase = .run then (s1.enterPhase .slot).publish 121 else s1
  if s2.requester then s2.setLatch { s2.pins.latch with cxReq := true, cxPri := s2.priFor c } else s2

/-- A cell's window closes. -/
def Chip.closeWindow (s : Chip) : Chip := { s with pins := { s.pins with windows := s.pins.windows - 1 } }

/-- SLOT ends with the cycle in which the last window closed, unless another opened in it (R74). -/
def Chip.slotEnd (s : Chip) : Chip :=
  if s.pins.windows = 0 && s.pins.phase = .slot then
    let s1 := (s.enterPhase .run).publish 122
    if s1.requester then s1.setLatch { s1.pins.latch with cxReq := false, cxPri := false } else s1
  else s

/-! ### Slot records (R270) -/

/-- The slot-record queue. -/
def Chip.recQueue (s : Chip) : Option Nat := (List.range 32).find? (fun q => s.qOn q && s.qKind q = 2)

/-- Whether a chosen cell takes a stamp at its boundary (R604). -/
def Chip.recordsOn (s : Chip) : Bool := s.recQueue.isSome && s.fld F.LNK_CFG_SRMODE ≠ 0

/-- The words of a record before its stamp. -/
def recWords01 (c : Chosen) (reason : Nat) (txd rxd ackok : Bool) (corr : Option Int) (pwr : Nat) : List Word :=
  [W (c.sf <<< 33 ||| c.index <<< 23 ||| reason <<< 15 ||| c.ty <<< 13 ||| txd.toNat <<< 12 ||| rxd.toNat <<< 11
      ||| ackok.toNat <<< 10 ||| c.ch),
   W (unsigned 16 (corr.getD 0) <<< 20 ||| corr.isSome.toNat <<< 19 ||| pwr <<< 13)]

/-- A whole record joins the slot-record queue. -/
def Chip.putRecord (s : Chip) (words : List Word) : Chip :=
  match s.recQueue with
  | none => s
  | some q => if s.qTakes q then s.produce q words else (s.produce q words).lnkEvent F.LNK_EVT_SRLOST

/-- The record of a cell, where LNK_CFG.SRMODE asks for it; without a stamp yet it waits for the end of the cycle (R32). -/
def Chip.slotRecord (s : Chip) (c : Chosen) (words : List Word) (reason : Nat) (used : Bool) : Chip :=
  let md := s.fld F.LNK_CFG_SRMODE
  let skip := s.recQueue.isNone || md = 0 || (md = 1 && reason = Rc.OK && !used)
  match c.stamp with
  | some p => if skip then s else s.putRecord (words ++ p.words)
  | none =>
    if skip && !c.due then s
    else s.setLnk { s.lnk with recs := s.lnk.recs ++ [(c.b, if skip then [] else words)] }

/-- The record of a cell that ended without running. -/
def Chip.skipRecord (s : Chip) (c : Chosen) (reason : Nat) : Chip :=
  s.slotRecord c (recWords01 c reason false false false none 0) reason false

/-! ### Transmit entries (R255, R259, R260, R264, R265) -/

/-- BE back to MINBE and BC to 0.
[DEDUCED, unsafe: notes/assumptions/43] -/
def Chip.resetBackoff (s : Chip) (q : Nat) : Chip :=
  let r := R.LNK_BO q
  (s.setFld ⟨r, 13, 11⟩ (s.fld ⟨r, 16, 14⟩)).setFld ⟨r, 6, 0⟩ 0

/-- The stamp of an entry's completion at word `a`: of a frame radiated whole the one requested at its last symbol, else one
for the instant `t`, which joins the cycle's requests (R29, R32, R604). -/
def Chip.doneStamp (s : Chip) (q reason a t : Nat) : Chip :=
  match s.lnk.live.bind (fun l => if l.c.q = q && (reason = Rc.OK || reason = Rc.NO_ACK) then l.done else none) with
  | some p => s.wrs a p.words
  | none => s.setLnk { s.lnk with returned := s.lnk.returned ++ [(a, t)] }

/-- Write words 1 to 3 of the head entry and take it from the queue; `t` is the stamp's instant, `bo`
whether the queue's backoff returns. -/
def Chip.returnNow (s : Chip) (q reason tries pwr t : Nat) (bo : Bool) : Chip :=
  match s.headEntry q with
  | none => s
  | some a =>
    let len := bits (s.rd (a + 1)).toNat 10 0
    let s2 := (s.wr (a + 1) (W (reason <<< 28 ||| tries <<< 25 ||| pwr <<< 19 ||| len))).doneStamp q reason (a + 2) t
    let s3 := if reason = Rc.LATE then s2.count F.LNK_CNT_LATE else if reason = Rc.NO_ACK then s2.count F.LNK_CNT_NOACK else s2
    let s4 := (s3.consume q).newHead q
    if bo then s4.resetBackoff q else s4

/-- Return the head entry: a LATE return waits for the deadline `t` that it missed, where its stamp is requested (R604).
[DEDUCED, unsafe: notes/assumptions/166] -/
def Chip.returnEntry (s : Chip) (q reason tries pwr t : Nat) (bo : Bool) : Chip :=
  if reason = Rc.LATE && s.now < t then
    s.setLnk { s.lnk with late := s.lnk.late ++ [{ q := q, tries := tries, pwr := pwr, at' := t, bo := bo }] }
  else s.returnNow q reason tries pwr t bo

/-- The head entry of queue `q` is on its way out with LATE. -/
def Chip.leaving (s : Chip) (q : Nat) : Bool := s.lnk.late.any (fun e => e.q = q)

/-- Whether a neighbour entry is in use. -/
def Chip.nbrValid (s : Chip) (n : Nat) : Bool := n < 64 && bitOf (s.reg (R.LNK_NBR_0 n)).toNat 35

/-- What is wrong with a transmit entry at the head of its queue (R265); its LEN is judged when a cell is
prepared for it, since it depends on the cell's mode. -/
def Chip.entryCheck (s : Chip) (a : Nat) : Nat :=
  let w := (s.rd a).toNat
  let nbr := bits w 35 29
  if (nbr ≠ 127 && !s.nbrValid nbr) || !sramSpan (4 * bits w 23 0) (max 1 (bits (s.rd (a + 1)).toNat 10 0)) then Rc.RANGE
  else if bitOf w 28 && nbr = 127 then Rc.COMBINATION
  else Rc.OK

/-- Check the head entry of transmit queue `q`, and return it and the entries behind it while they fail. -/
def Chip.checkHead (s : Chip) (q : Nat) : Nat → Chip
  | 0 => s
  | n + 1 =>
    match s.headEntry q with
    | none => s
    | some a =>
      let code := s.entryCheck a
      if code = Rc.OK then s else ((s.returnEntry q code 0 0 s.now true)).checkHead q n

/-- The check as the running engine makes it, for a link transmit queue. -/
def Chip.headCheck (s : Chip) (q : Nat) : Chip :=
  if s.lnk.running && 8 ≤ q && q < 16 && !s.leaving q then s.checkHead q (s.qCount q) else s

/-- A write of QUE_TAILq: an entry that reaches the head of an empty queue is checked (R265). -/
def Chip.queTailMove (s : Chip) (ag : Agent) (q : Nat) (v : Word) : Chip :=
  let s1 := s.queTailWrite ag q v
  if s.qCount q = 0 then s1.headCheck q else s1

/-- The neighbour of an entry, and whether it asks for acknowledgement. -/
def entryNbr (w : Word) : Nat := bits w.toNat 35 29
def entryAck (w : Word) : Bool := bitOf w.toNat 28

/-- The transmissions of the head entry of queue `q` that ended without a good acknowledgement count in Q (R306); those of an
entry that is returned with NO_ACK count when the mesh layer takes the return, which waits for it here. -/
def Chip.countMisses (s : Chip) (q reason : Nat) : Chip :=
  match s.headEntry q with
  | none => s
  | some a =>
    let w := s.rd a
    let sent := s.lnk.tries.getD (q - 8) 0
    if reason = Rc.NO_ACK then
      if s.mesh.up then s.setMesh { s.mesh with returns := s.mesh.returns ++ [(s.rdBs (4 * bits w.toNat 23 0) (bits (s.rd (a + 1)).toNat 10 0), sent)] } else s
    else if entryAck w && s.nbrValid (entryNbr w) then
      s.missQ (bits (s.reg (R.LNK_NBR_0 (entryNbr w))).toNat 13 0) (if reason = Rc.OK then sent - 1 else sent)
    else s

/-- Return the head entry and look at the next one; a reservation of it that is unspent expires (R139, R262).
[DEDUCED, unsafe: notes/assumptions/43] [DEDUCED, unsafe: notes/assumptions/60] -/
def Chip.endEntry (s : Chip) (q reason tries pwr t : Nat) (bo : Bool) : Chip :=
  ((s.countMisses q reason).returnEntry q reason tries pwr t bo).headCheck q

/-- The deadlines of LATE entries come: they are returned, and the next entries looked at. -/
def Chip.lateReturns (s : Chip) : Chip :=
  (s.lnk.late.filter (fun e => e.at' ≤ s.now)).foldl (fun (c : Chip) e =>
    ((c.setLnk { c.lnk with late := c.lnk.late.filter (· ≠ e) }).returnNow e.q Rc.LATE e.tries e.pwr e.at' e.bo).headCheck e.q) s

/-- The completion of a frame requests its stamp at the end of its last symbol (R604).
[DEDUCED, unsafe: notes/assumptions/166] -/
def Chip.stampDone (s : Chip) : Chip :=
  match s.lnk.live with
  | some l =>
    if l.c.tx && l.done.isNone && l.abort.isNone && l.txEnd.isSome && l.e ≤ s.now then
      let (p, s1) := s.stamp l.e
      s1.setLive { l with done := some p }
    else s
  | none => s

/-- The cycle's stamps of transmit completions. -/
def Chip.stampReturned (s : Chip) : Chip :=
  s.lnk.returned.foldl (fun (c : Chip) e => let (p, c1) := c.stamp e.2; c1.wrs e.1 p.words) (s.setLnk { s.lnk with returned := [] })

/-- A chosen cell that asks for its stamp gets it. -/
def Chip.stampChosen (s : Chip) (k : Chosen) : Chosen × Chip :=
  if k.due then (let (p, s1) := s.stamp k.b; ({ k with stamp := some p, due := false }, s1)) else (k, s)

/-- The cycle's stamps of slot records: of those that wait, then of the cells whose boundary has come. -/
def Chip.stampRecords (s : Chip) : Chip :=
  let s1 := s.lnk.recs.foldl (fun (c : Chip) e =>
    let (p, c1) := c.stamp e.1
    if e.2.isEmpty then c1 else c1.putRecord (e.2 ++ p.words)) (s.setLnk { s.lnk with recs := [] })
  let (l, s2) := s1.lnk.chosen.foldl (fun (x : List Chosen × Chip) k => let (k1, c1) := x.2.stampChosen k; (x.1 ++ [k1], c1)) ([], s1)
  let s3 := s2.setLnk { s2.lnk with chosen := l }
  match s3.lnk.live with
  | none => s3
  | some v => let (k, s4) := s3.stampChosen v.c; s4.setLive { v with c := k }

/-! ### The end of a cell -/

/-- The radio blocks stop at the end of a cell's radio activity (R16, R178, R203). -/
def blockStat : Block → Nat
  | .syn => R.SYN_STAT | .rfe => R.RFE_STAT | .cx => R.CX_STAT | .mdm => R.MDM_STAT | .lnk => R.LNK_STAT | .cph => R.CPH_STAT
  | .nfc => R.NFC_STAT | .hp => R.HP_STAT

/-- A block reaches its safe point: ACTIVE reads 0. -/
def Chip.blockStopped (s : Chip) (b : Block) : Chip :=
  if s.stopping.contains b then ({ s with stopping := s.stopping.filter (· ≠ b) }).setBit ⟨blockStat b, 8, 8⟩ false else s

def Chip.radioStops (s : Chip) : Chip := [Block.syn, .rfe, .cx, .mdm].foldl Chip.blockStopped s

/-- The synthesiser switches off: no lock, no frequency. -/
def Chip.synOff (s : Chip) : Chip :=
  (((s.setBit F.SYN_STAT_LOCK false).setFld F.SYN_FREQ_FREQ 0)).setSyn { s.syn with lockFrom := none }

/-- The radio is idle (RFE_STAT.STATE, R173). -/
def Chip.radioIdle (s : Chip) : Bool := s.lnk.live.isNone && s.syn.job = .idle

/-- A calibration of the cell is abandoned at the end of its step (R156). -/
def Chip.abandonCal (s : Chip) : Chip :=
  match s.syn.job with
  | .cell _ =>
    if s.syn.stepEnd.isSome then s.setSyn { s.syn with orphan := true }
    else ((s.setSyn { s.syn with job := .idle, bad := false }).setBit F.SYN_STAT_CALRUN false).dropClaim 5
  | _ => s

/-- The live cell ends with `reason`: its claims are given up, the radio falls idle, the record is
written and the SLOT window closes (R74, R250, R270).
[DEDUCED, unsafe: notes/assumptions/59] -/
def Chip.endCell (s : Chip) (l : Live) (reason : Nat) : Chip :=
  let s1 := s.abandonCal.synOff
  let s2 := s1.setLnk { s1.lnk with live := none, unbooked := if l.c.tx then setAt s1.lnk.unbooked (l.c.q - 8) false else s1.lnk.unbooked }
  let s3 := s2.setLatch { s2.pins.latch with txen := false }
  let st : Nat := match s3.syn.job with
    | .idle => 0 | .bg _ => 5 | _ => 4
  let s4 := ((((s3.setFld F.LNK_STAT_LIVE 0).setFld F.RFE_STAT_STATE st).setFld F.MDM_STAT_LIVE 0).setFld F.RFE_RSSI_VALID 0).setFld
    F.RFE_RSSI_RSSI 0
  let s5 := ((s4.setReason R.LNK_STAT reason).setReason R.RFE_STAT reason)
  let handed := l.win.any (fun w => w.st = .handed)
  let s6 := if l.c.tx || handed then s5 else s5.setReason R.MDM_STAT reason
  let s7 := (s6.release 3).release 4
  let s8 := s7.slotRecord l.c (recWords01 l.c reason l.txd l.rxd l.ackok l.corr l.pwr) reason l.corrUsed
  let s9 := if l.c.window then s8.closeWindow else s8
  (s9.setSyn { s9.syn with idleSince := s9.now }).radioStops

/-- End a transmit cell and return its entry with the same code. -/
def Chip.endCellEntry (s : Chip) (l : Live) (reason t : Nat) : Chip :=
  (s.endEntry l.c.q reason (s.lnk.tries.getD (l.c.q - 8) 0 - 1) l.pwr t (l.c.ty = 2)).endCell l reason

/-- Draw bits from the generator of R260, the first drawn highest. -/
def lfsrDraw : Nat → Nat → Nat → Nat × Nat
  | 0, r, v => (v, r)
  | k + 1, r, v =>
    let out := r % 2
    let r1 := if out = 1 then (r / 2) ^^^ 0xB400 else r / 2
    lfsrDraw k r1 (2 * v + out)

/-- A transmission that gets no acknowledgement in a SHARED cell backs off (R260). -/
def Chip.backoffFail (s : Chip) (q : Nat) : Chip :=
  let a := R.LNK_BO q
  let be := min (s.fld ⟨a, 13, 11⟩ + 1) (s.fld ⟨a, 19, 17⟩)
  let (v, r) := lfsrDraw be s.lnk.lfsr 0
  ((s.setLnk { s.lnk with lfsr := r }).setFld ⟨a, 13, 11⟩ be).setFld ⟨a, 6, 0⟩ v

/-- The entry got no good acknowledgement; `code` is what the window ended with, `last` the cell's outcome where the entry
has had its last transmission and is returned with NO_ACK (R255, R260).
[DEDUCED, unsafe: notes/assumptions/34] -/
def Chip.ackEnd (s : Chip) (l : Live) (code last : Nat) : Chip :=
  let q := l.c.q
  let s1 := if l.c.ty = 2 then s.backoffFail q else s
  let tries := s1.lnk.tries.getD (q - 8) 0
  let retry := match s1.headEntry q with
    | some a => bits (s1.rd a).toNat 27 25
    | none => 0
  if retry + 1 ≤ tries then (s1.endEntry q Rc.NO_ACK (tries - 1) l.pwr l.e (l.c.ty = 2)).endCell l last
  else s1.endCell l code

def Chip.ackMissed (s : Chip) (l : Live) (code : Nat) : Chip := s.ackEnd l code Rc.NO_ACK

/-- The live cell is a cell in PREP. -/
def Chip.inPrep (s : Chip) : Bool := s.fld F.LNK_STAT_LIVE = 1

end Sys2Proof.Machine
end

