-- ==== Sys2Proof/Machine/Cipher.lean ====
section
/-!
DEFINITION. The cipher engine and the key store (spec/11).
-/
namespace Sys2Proof.Machine

def Chip.setCph (s : Chip) (c : Cph) : Chip := { s with cph := c }
def Chip.page (s : Chip) (u : Nat) : CphPage := s.cph.pages.getD u {}
def Chip.setPage (s : Chip) (u : Nat) (p : CphPage) : Chip := s.setCph { s.cph with pages := setAt s.cph.pages u p }

/-- STATE of a page: 0 IDLE, 1 WAIT, 2 RUN; ACTIVE follows it. -/
def Chip.pageState (s : Chip) (u : Nat) : Nat := s.fld (F.CPH_USTAT_STATE u)
def Chip.setPageState (s : Chip) (u v : Nat) : Chip := (s.setFld (F.CPH_USTAT_STATE u) v).setBit (F.CPH_USTAT_ACTIVE u) (v ≠ 0)
def Chip.pageReason (s : Chip) (u code : Nat) : Chip := s.setReason (R.CPH_USTAT u) code

/-! ### Octets in SRAM (R323) -/

def Chip.octets (s : Chip) (a n : Nat) : List Nat := (s.rdBs a n).map BitVec.toNat

/-- Write output octets; bits 35 to 32 of every word written become 0. -/
def Chip.putOctets (s : Chip) (a : Nat) : List Nat → Chip
  | [] => s
  | b :: l =>
    let w := s.rd (a / 4) &&& 0xFFFFFFFF#36
    (s.wr (a / 4) (putOctet w (a % 4) (BitVec.ofNat 8 b))).putOctets (a + 1) l

/-! ### Keys (R328 to R330, R332, R333) -/

/-- Octets of a key size code: 1 is 128 bits. -/
def keyOctets (size : Nat) : Nat := if size = 0 then 0 else 8 + 8 * size
def sizeCode (octets : Nat) : Nat := if octets = 0 then 0 else octets / 8 - 1

/-- A key packed in words, octet 4w + j at bits 8j + 7 to 8j of word w. -/
def keyFromWords (ws : List Nat) (n : Nat) : List Nat := (ws.flatMap wordBytes).take n
def keyToWords (k : List Nat) : List Nat :=
  (List.range 8).map (fun w => (List.range 4).foldl (fun acc j => acc ||| k.getD (4 * w + j) 0 <<< (8 * j)) 0)

def sealBase (sect : Nat) : Nat := 0x1EF800 + 0x400 * sect
def recAddr (sect r : Nat) : Nat := sealBase sect + 2 + 11 * r

def Chip.sealGen (s : Chip) (sect : Nat) : Nat := bits (s.flashRd (sealBase sect)).toNat 23 0

/-- A sealed sector is valid: MAGIC, and NHDR the complement of word 0 (R333).  A sector whose erase was cut has no valid header
(R335); of its table's two outcomes for the old sector's erase this is the second, and either leaves the new sector active. -/
def Chip.sealValid (s : Chip) (sect : Nat) : Bool :=
  let w := s.flashRd (sealBase sect)
  !s.flashBadSec.contains (sealBase sect) && bits w.toNat 35 24 = 0x5EA && s.flashRd (sealBase sect + 1) = ~~~ w

/-- The active sector. -/
def Chip.sealActive (s : Chip) : Option Nat :=
  match s.sealValid 0, s.sealValid 1 with
  | true, true => some (if (s.sealGen 1 + 2 ^ 24 - s.sealGen 0) % 2 ^ 24 = 1 then 1 else 0)
  | true, false => some 0
  | false, true => some 1
  | false, false => none

/-- The words of record `r`. -/
def Chip.recWords (s : Chip) (sect r : Nat) : List Nat := s.flashNats (recAddr sect r) 11

def commitWord : Nat := 0x5A5A5A5A5

/-- A record is committed: COMMIT, and CHK over words 0 to 8. -/
def recCommitted (ws : List Nat) : Bool :=
  ws.getD 10 0 = commitWord && ws.getD 9 0 = crc32Words (ws.take 9)

/-- The last committed record of a slot in a sector. -/
def Chip.lastRec (s : Chip) (sect slot : Nat) : Option (List Nat) :=
  ((List.range 92).map (s.recWords sect)).foldl (fun best ws =>
    if recCommitted ws && bits (ws.getD 0 0) 31 28 = slot then some ws else best) none

/-- The content of a sealed slot; empty where its record says cleared. -/
def Chip.sealedKey (s : Chip) (slot : Nat) : Option (List Nat) :=
  match s.sealActive with
  | none => none
  | some sect =>
    match s.lastRec sect slot with
    | none => none
    | some ws =>
      let size := bits (ws.getD 0 0) 27 26
      if size = 0 then none else some (keyFromWords ((ws.drop 1).take 8) (keyOctets size))

/-- The key in OTP of slots 0 to 3. -/
def Chip.otpKey (s : Chip) (slot size : Nat) : Option (List Nat) :=
  if size = 0 then none
  else some (keyFromWords ((List.range 8).map (fun i => (s.otpRd (8 + 8 * slot + i)).toNat)) (keyOctets size))

/-- Put a slot's content into the shadow, with FILLED and, for sealed slots, SIZE. -/
def Chip.setShadow (s : Chip) (slot : Nat) (k : Option (List Nat)) : Chip :=
  let s1 := s.setCph { s.cph with shadow := setAt s.cph.shadow slot k }
  let s2 := s1.setBit (F.KST_ATTR_FILLED slot) k.isSome
  if slot < 4 then s2 else s2.setFld (F.KST_ATTR_SIZE slot) (sizeCode ((k.getD []).length))

/-- Load the shadow (R336). -/
def Chip.loadShadow (s : Chip) : Chip :=
  (List.range 16).foldl (fun c i =>
    c.setShadow i (if i < 4 then c.otpKey i (c.fld (F.KST_ATTR_SIZE i)) else c.sealedKey i)) s

def Chip.keyOf (s : Chip) (slot : Nat) : Option (List Nat) := s.cph.shadow.getD slot none

/-- KST_SEAL as it reads. -/
def Chip.kstSealView (s : Chip) : Word :=
  match s.sealActive with
  | none => 0
  | some sect =>
    let used := (List.range 92).foldl (fun n r => if s.flashErased (recAddr sect r) then n else r + 1) 0
    W (1 <<< 32 ||| sect <<< 31 ||| (92 - used) <<< 24 ||| s.sealGen sect)

/-! ### Writing records (R334, R335) -/

/-- The eleven words of a record. -/
def makeRec (slot : Nat) (key : List Nat) : List Nat :=
  let ws := (slot <<< 28 ||| sizeCode key.length <<< 26) :: keyToWords key
  ws ++ [crc32Words ws, commitWord]

/-- Program the words of a record at position `r`, COMMIT last. -/
def recSteps (sect r : Nat) (ws : List Nat) : List FlStep :=
  (List.range 11).map (fun i => FlStep.prog (recAddr sect r + i) (W (ws.getD i 0)))

def headerSteps (sect gen : Nat) : List FlStep :=
  let w : Word := W (0x5EA <<< 24 ||| gen % 2 ^ 24)
  [.prog (sealBase sect) w, .prog (sealBase sect + 1) (~~~ w)]

/-- The first position that can take a record. -/
def Chip.freePosition (s : Chip) (sect : Nat) : Option Nat :=
  let last := (List.range 92).foldl (fun n r => if s.flashErased (recAddr sect r) then n else r + 1) 0
  (List.range 92).find? (fun r => last ≤ r && (List.range 11).all (fun i => s.flashErased (recAddr sect r + i)))

/-- The steps that write a record, compacting or making the first sector where it must; whether it compacts. -/
def Chip.recordPlan (s : Chip) (slot : Nat) (key : List Nat) : Bool × List FlStep :=
  let ws := makeRec slot key
  match s.sealActive with
  | none => (false, [.sector (sealBase 0) 0] ++ headerSteps 0 0 ++ recSteps 0 0 ws)
  | some sect =>
    match s.freePosition sect with
    | some r => (false, recSteps sect r ws)
    | none =>
      let other := 1 - sect
      let live := ((List.range 12).map (· + 4)).filterMap (fun i => if (s.sealedKey i).isSome then s.lastRec sect i else none)
      let copies := ((List.range live.length).zip live).flatMap (fun p => recSteps other p.1 p.2)
      (true, [.sector (sealBase other) 0] ++ copies ++ headerSteps other (s.sealGen sect + 1) ++ [.sector (sealBase sect) 0]
        ++ recSteps other live.length ws)

/-- A mode that writes a record. -/
def recordMode (m : Nat) : Bool := m = 7 || m = 8

def Chip.pageMode (s : Chip) (u : Nat) : Nat := s.fld (F.CPH_UCMD_MODE u)

/-- Begin the next record, when none is being written and none started earlier is still to come (R345).
[DEDUCED, unsafe: notes/assumptions/92] -/
def Chip.kstServe (s : Chip) : Chip :=
  match s.cph.recs with
  | [] => s
  | r :: _ =>
    let earlier := (List.range 4).any (fun u => s.pageState u ≠ 0 && recordMode (s.pageMode u) && (s.page u).order < r.order)
    if s.cph.writing || earlier then s
    else
      let (compact, steps) := s.recordPlan r.slot r.key
      let s1 := ((s.setCph { s.cph with writing := true }).setBit F.KST_STAT_WRITING true).setBit F.KST_STAT_COMPACT compact
      s1.flcRequest .keystore (steps.headD (.prog 0 0)).addr steps

/-- Queue a record in the order of starts. -/
def insertRec (r : KeyRec) : List KeyRec → List KeyRec
  | [] => [r]
  | x :: l => if r.order < x.order then r :: x :: l else x :: insertRec r l

def Chip.kstQueue (s : Chip) (r : KeyRec) : Chip :=
  let l := match s.cph.recs with
    | x :: t => if s.cph.writing && !s.cph.abandoned then x :: insertRec r t else insertRec r (x :: t)
    | [] => [r]
  (s.setCph { s.cph with recs := l }).kstServe

/-! ### Starting (R324, R325, R329, R337 to R339, R343) -/

/-- The lengths of a command: mode, direction, LEN, AADLEN, NLEN, TAGLEN. -/
structure CphCmd where
  mode : Nat
  dec : Bool
  fmode : Nat
  key : Nat
  tslot : Nat
  tagLen : Nat
  nLen : Nat
  len : Nat
  aadLen : Nat
  src : Nat
  dst : Nat
  aad : Nat
  iv : Nat
  tag : Nat
deriving DecidableEq, Repr

def Chip.cphCmd (s : Chip) (u : Nat) : CphCmd :=
  { mode := s.fld (F.CPH_UCMD_MODE u), dec := s.bit (F.CPH_UCMD_DIR u), fmode := s.fld (F.CPH_UCMD_FMODE u), key := s.fld (F.CPH_UCMD_KEY u),
    tslot := s.fld (F.CPH_UCMD_TSLOT u), tagLen := s.fld (F.CPH_UCMD_TAGLEN u), nLen := s.fld (F.CPH_UCMD_NLEN u), len := s.fld (F.CPH_ULEN_LEN u),
    aadLen := s.fld (F.CPH_UAADLEN_AADLEN u), src := s.fld (F.CPH_USRC_SRC u), dst := s.fld (F.CPH_UDST_DST u), aad := s.fld (F.CPH_UAAD_AAD u),
    iv := s.fld (F.CPH_UIV_IV u), tag := s.fld (F.CPH_UTAG_TAG u) }

/-- The length rules of R325.  `tsize` is the octets of the key in TSLOT, 0 where it is empty. -/
def CphCmd.lengthsOk (c : CphCmd) (tsize : Nat) : Bool :=
  let aadOk := if c.mode = 3 ∨ c.mode = 4 then c.aadLen ≤ 16384 else c.aadLen = 0
  let noTag := c.tagLen = 0
  let kw := c.len = 24 || c.len = 32 || c.len = 40
  aadOk && match c.mode with
    | 0 => c.len ≠ 0 && c.len % 16 = 0 && noTag
    | 1 => c.len ≠ 0 && c.len % 16 = 0 && noTag
    | 2 => 1 ≤ c.len && c.len ≤ 16384 && noTag
    | 3 => c.len ≤ 16384 && 7 ≤ c.nLen && c.nLen ≤ 13 && c.tagLen % 2 = 0 && c.tagLen ≠ 2 && c.tagLen ≤ 16
    | 4 => c.len ≤ 16384 && c.nLen = 12 && (c.tagLen = 4 || c.tagLen = 8 || (12 ≤ c.tagLen && c.tagLen ≤ 16))
    | 5 => c.len ≤ 16384 && 1 ≤ c.tagLen && c.tagLen ≤ 16
    | 6 => kw && noTag && (tsize = 0 || c.len = 8 + tsize)
    | 7 => kw && noTag
    | _ => c.len = 0 && noTag

/-- The areas: input, output, AAD, IV and tag, as byte address and length. -/
def CphCmd.inArea (c : CphCmd) : Nat × Nat := if c.mode = 6 ∨ c.mode = 8 then (0, 0) else (c.src, c.len)
def CphCmd.outArea (c : CphCmd) : Nat × Nat := if c.mode ≤ 4 ∨ c.mode = 6 then (c.dst, c.len) else (0, 0)
def CphCmd.aadArea (c : CphCmd) : Nat × Nat := (c.aad, c.aadLen)
def CphCmd.ivArea (c : CphCmd) : Nat × Nat :=
  match c.mode with
  | 1 => (c.iv, 16) | 2 => (c.iv, 16) | 3 => (c.iv, c.nLen) | 4 => (c.iv, 12) | _ => (0, 0)
def CphCmd.tagArea (c : CphCmd) : Nat × Nat := (c.tag, c.tagLen)

def areaOk (a : Nat × Nat) : Bool := a.2 = 0 || sramSpan a.1 a.2
def areasMeet (a b : Nat × Nat) : Bool := a.2 ≠ 0 && b.2 ≠ 0 && a.1 < b.1 + b.2 && b.1 < a.1 + a.2

def CphCmd.areasOk (c : CphCmd) : Bool :=
  areaOk c.inArea && areaOk c.outArea && areaOk c.aadArea && areaOk c.ivArea && areaOk c.tagArea
def CphCmd.areasClash (c : CphCmd) : Bool :=
  (areasMeet c.inArea c.outArea && c.inArea ≠ c.outArea) || areasMeet c.tagArea c.outArea

def Chip.slotUser (s : Chip) (slot u : Nat) : Bool := bitOf (s.fld (F.KST_ATTR_USERS slot)) u

/-- Slot `c.key` may serve page `u` (R329); `rom` says that Fox A's GO came from ROM. -/
def Chip.keyAllowed (s : Chip) (c : CphCmd) (u : Nat) (rom : Bool) : Bool :=
  let a := (s.reg (R.KST_ATTR c.key)).toNat
  let useBit := if c.mode ≤ 4 then (if c.dec then 5 else 4) else if c.mode = 5 then 6 else 7
  (s.keyOf c.key).isSome && s.slotUser c.key u && bitOf a useBit && (!bitOf a 12 || rom)

/-- Item 5 of R343.
[DEDUCED, unsafe: notes/assumptions/93] -/
def Chip.slotCheck (s : Chip) (c : CphCmd) (u : Nat) (rom : Bool) : Nat :=
  if c.mode = 8 then
    if c.tslot < 4 then 0x75 else if !s.slotUser c.tslot u then Rc.KEY_SLOT else Rc.OK
  else if !s.keyAllowed c u rom then Rc.KEY_SLOT
  else if c.mode = 7 then
    if c.tslot < 4 then 0x75 else if c.tslot = c.key || !s.slotUser c.tslot u then Rc.KEY_SLOT else Rc.OK
  else if c.mode = 6 then
    if (s.keyOf c.tslot).isSome && s.bit (F.KST_ATTR_EXPORT c.tslot) && c.tslot ≠ c.key && s.slotUser c.tslot u then Rc.OK else Rc.KEY_SLOT
  else Rc.OK

def Chip.goCheck (s : Chip) (u : Nat) (rom : Bool) : Nat :=
  let c := s.cphCmd u
  if !s.bit F.CPH_CTL_EN || s.pageState u ≠ 0 then Rc.BUSY
  else if 8 < c.mode || 1 < c.fmode then Rc.RANGE
  else if !c.lengthsOk ((s.keyOf c.tslot).getD []).length then 0x72
  else if !c.areasOk then Rc.RANGE
  else if c.areasClash then Rc.COMBINATION
  else s.slotCheck c u rom

/-- Block computations of an operation (R322). -/
def CphCmd.blocks (c : CphCmd) : Nat :=
  let n := (c.len + 15) / 16
  match c.mode with
  | 3 => 2 + 2 * n + (if c.aadLen = 0 then 0 else (c.aadLen + 2 + 15) / 16)
  | 4 => 2 + n
  | 5 => 1 + max 1 n
  | 6 => 6 * ((c.len - 8) / 8)
  | 7 => 6 * ((c.len - 8) / 8)
  | 8 => 0
  | _ => n

/-- A waiting page starts to run, or goes on where it stopped. -/
def Chip.pageRun (s : Chip) (u : Nat) : Chip := if s.pageState u ≠ 1 then s else s.setPageState u 2

/-- The engine claims when a page waits and it holds nothing (R344). -/
def Chip.cphClaim (s : Chip) : Chip :=
  if (List.range 4).any (fun u => s.pageState u = 1) then
    if s.holds 9 then (List.range 4).foldl Chip.pageRun s
    else if (s.claimOf 9).isSome then s
    else s.claim 9 (s.fld (F.EGY_DECL_PEAK 9)) 10000 false
  else s

/-- The engine gives its grant up when no page has block work (R344). -/
def Chip.cphRelease (s : Chip) : Chip :=
  if (List.range 4).any (fun u => s.pageState u = 1 || (s.page u).busy) then s else s.release 9

/-- A write of GO = 1 (R343): the operation keeps the keys that its slots hold as it starts (R330). -/
def Chip.cphGo (s : Chip) (u : Nat) (rom : Bool) : Chip :=
  let code := s.goCheck u rom
  if code ≠ Rc.OK then s.pageReason u code
  else
    let s1 := (s.setBit (F.CPH_USTAT_DONE u) false).setPageState u 1
    let s2 := (s1.setFld (F.CPH_UPROG_BLOCKS u) 0).setPage u { order := s1.cph.starts, busy := true, setup := 24, left := (s.cphCmd u).blocks,
                                                                       key := (s.keyOf (s.cphCmd u).key).getD [], target := (s.keyOf (s.cphCmd u).tslot).getD [] }
    (s2.setCph { s2.cph with starts := s2.cph.starts + 1 }).cphClaim

/-! ### Ending (R341, R342, R346, R347) -/

/-- Post a status: IDLE, REASON, DONE and the done event. -/
def Chip.cphPost (s : Chip) (u code : Nat) : Chip :=
  let s1 := ((s.setPageState u 0).pageReason u code).setPage u {}
  (s1.setBit (F.CPH_USTAT_DONE u) true).occ (25 + u)

/-- Zero the output area and, for DIR 0, the tag area. -/
def Chip.cphZero (s : Chip) (c : CphCmd) : Chip :=
  let s1 := s.putOctets c.outArea.1 (Aes.zeros c.outArea.2)
  if c.dec then s1 else s1.putOctets c.tagArea.1 (Aes.zeros c.tagArea.2)

/-- What an operation computes: the output, the new chaining value, the tag; none where the mode has none. -/
structure CphOut where
  out : List Nat := []
  chain : Option (List Nat) := none
  tag : List Nat := []
deriving DecidableEq, Repr

def Chip.cphCompute (s : Chip) (c : CphCmd) (key target : List Nat) : CphOut :=
  let x := s.octets c.inArea.1 c.inArea.2
  let bs := Aes.blocks x
  let iv := s.octets c.ivArea.1 c.ivArea.2
  let aad := s.octets c.aadArea.1 c.aadArea.2
  match c.mode with
  | 0 => { out := (bs.map (if c.dec then Aes.decrypt key else Aes.encrypt key)).flatten }
  | 1 =>
    let r := if c.dec then Aes.cbcDec key iv bs else Aes.cbcEnc key iv bs
    { out := r.1, chain := some r.2 }
  | 2 => let r := Aes.ctr key iv bs; { out := r.1, chain := some r.2 }
  | 3 =>
    let y := Aes.ccmText key iv x
    { out := y, tag := Aes.ccmTag key iv aad (if c.dec then y else x) c.tagLen }
  | 4 =>
    let y := Aes.gcmText key iv x
    { out := y, tag := Aes.gcmTag key iv aad (if c.dec then x else y) c.tagLen }
  | 5 => { tag := Aes.cmac key x c.tagLen }
  | 6 => { out := Aes.wrap key target }
  | _ => {}

/-- The engine leaves a page's block. -/
def Chip.leaveBlock (s : Chip) (u : Nat) : Chip := if s.cph.cur = some u then s.setCph { s.cph with cur := none, cyc := 0 } else s

/-- The block work of page `u` ends; `fault` says that a fault check found a mismatch.
[DESIGN CHOICE, unsafe: notes/assumptions/66] -/
def Chip.pageDone (s : Chip) (u : Nat) (fault : Bool) : Chip :=
  let c := s.cphCmd u
  let p := s.page u
  if 4 ≤ u ∨ s.pageState u ≠ 2 ∨ !p.busy then s
  else
    let s0 := ((s.leaveBlock u).setPage u { p with busy := false, setup := 0, left := 0 }).setFld (F.CPH_UPROG_BLOCKS u) c.blocks
    if fault then
      (((s0.cphZero c).count F.CPH_STAT_FAULTCNT).occ 29 |>.cphPost u 0x70).kstServe.cphRelease
    else if c.mode = 8 then (s0.kstQueue { page := u, slot := c.tslot, key := [], order := p.order }).cphRelease
    else if c.mode = 7 then
      match Aes.unwrap p.key (s0.octets c.src c.len) with
      | none => ((s0.cphPost u 0x73).kstServe).cphRelease
      | some k => (s0.kstQueue { page := u, slot := c.tslot, key := k, order := p.order }).cphRelease
    else
      let r := s0.cphCompute c p.key p.target
      if c.dec && (3 ≤ c.mode && c.mode ≤ 5) && s0.octets c.tag c.tagLen ≠ r.tag then
        ((s0.putOctets c.outArea.1 (Aes.zeros c.outArea.2)).cphPost u 0x71).cphRelease
      else
        let s1 := s0.putOctets c.outArea.1 r.out
        let s2 := match r.chain with
          | some v => s1.putOctets c.iv v
          | none => s1
        let s3 := if c.dec then s2 else s2.putOctets c.tag r.tag
        (s3.cphPost u Rc.OK).cphRelease

/-- A disabled engine stops once no page has work: a record whose words are begun completes first (R16, R339). -/
def Chip.cphSafe (s : Chip) : Chip := if (List.range 4).any (fun u => s.pageState u ≠ 0) then s else s.blockStopped .cph

/-- An operation's block work ends; a disabled engine whose last operation this was stops (R16). -/
def Chip.cipherOpDone (s : Chip) (u : Nat) (fault : Bool) : Chip := (s.pageDone u fault).cphSafe

/-- The key store's waiting flash request is withdrawn. -/
def Chip.recWithdraw (s : Chip) : Chip :=
  ((s.setFlc { s.flc with hw := s.flc.hw.filter (fun o => o.src ≠ .keystore) }).setCph { s.cph with writing := false }).setBit F.KST_STAT_WRITING false
    |>.setBit F.KST_STAT_COMPACT false

/-- The record of an UNWRAP by the mesh layer, which goes through no page of the model.
[DESIGN CHOICE, unsafe: notes/assumptions/121] -/
def meshPage : Nat := 4

/-- A record write ended with a flash code (R334, R345).
[DEDUCED, unsafe: notes/assumptions/92] -/
def Chip.recordDone (s : Chip) (code : Nat) : Chip :=
  let s0 := ((s.setCph { s.cph with writing := false, abandoned := false }).setBit F.KST_STAT_WRITING false).setBit F.KST_STAT_COMPACT false
  match s.cph.abandoned, s.cph.recs with
  | false, r :: l =>
    let s1 := s0.setCph { s0.cph with recs := l }
    let out := if code = Rc.OK then Rc.OK else 0x74
    let s2 := if code = Rc.OK then s1.setShadow r.slot (if r.key.isEmpty then none else some r.key) else s1
    let s3 := (s2.setReason R.KST_STAT out).occ 31
    let s4 := if r.page = meshPage then s3.setMesh { s3.mesh with keyDone := some out } else s3.cphPost r.page out
    s4.kstServe.cphSafe
  | _, _ => s0.kstServe.cphSafe

/-- The key store has begun to program the words of the record in hand (R334 step 3): its flash operation runs, and no more
than the record's 11 words are left of it. -/
def Chip.recBegun (s : Chip) : Bool := s.flc.op.any (fun o => o.src = .keystore && o.steps.length ≤ 11)

/-- The record in hand is abandoned before its words: a request that waits is withdrawn, a compaction runs on without them. -/
def Chip.recAbandon (s : Chip) : Chip :=
  match s.flc.op with
  | some o =>
    if o.src = .keystore then
      (s.setFlc { s.flc with op := some { o with steps := o.steps.take (o.steps.length - 11) } }).setCph { s.cph with abandoned := true }
    else s.recWithdraw
  | none => s.recWithdraw

/-- The operation of page `u` ends with ABORTED (R346). -/
def Chip.pageAborted (s : Chip) (u : Nat) : Chip :=
  let s1 := (s.leaveBlock u).setCph { (s.leaveBlock u).cph with recs := s.cph.recs.filter (fun r => r.page ≠ u) }
  ((s1.cphZero (s1.cphCmd u)).cphPost u 0x76).kstServe.cphRelease.cphSafe

/-- A write of ABORT = 1, or a disable: a block that is computed ends first, an operation that completes in this cycle does so,
and nothing stops a record whose words are begun (R339, R346).
[DEDUCED, unsafe: notes/assumptions/165] -/
def Chip.cphAbort (s : Chip) (u : Nat) : Chip :=
  let p := s.page u
  let mine := match s.cph.recs with
    | r :: _ => s.cph.writing && !s.cph.abandoned && r.page = u
    | [] => false
  if s.pageState u = 0 || (mine && s.recBegun) || (s.pageState u = 2 && p.busy && p.setup = 0 && p.left = 0) then s
  else if s.cph.cur = some u then s.setPage u { p with aborting := true }
  else (if mine then s.recAbandon else s).pageAborted u

/-- Running pages wait: the engine has no grant. -/
def Chip.pagesWait (s : Chip) : Chip :=
  (List.range 4).foldl (fun c u => if c.pageState u = 2 && (c.page u).busy then c.setPageState u 1 else c) s

/-! ### The engine's cycles (R321, R322, R345) -/

/-- Page `u` runs and has block work. -/
def Chip.pageWorks (s : Chip) (u : Nat) : Bool := s.pageState u = 2 && (s.page u).busy

/-- FABRIC cycles of one of its block computations, doubled by the fault mode. -/
def Chip.blockCycles (s : Chip) (u : Nat) : Nat := 2 * (Aes.rounds (s.page u).key.length + 2)

/-- At a block boundary the next page in rotation is served; none while the engine's grant is to be given up. -/
def Chip.nextBlock (s : Chip) : Chip :=
  let order := (List.range 4).map (fun i => (s.cph.last + 1 + i) % 4)
  if s.cph.cur.isSome || !s.holds 9 || (s.grantOf 9).any Grant.marked then s
  else
    match order.find? (fun u => s.pageWorks u && (s.page u).setup = 0 && (s.page u).left ≠ 0) with
    | some u => s.setCph { s.cph with cur := some u, cyc := s.blockCycles u }
    | none => s

/-- The block in hand ends. -/
def Chip.blockEnd (s : Chip) (u : Nat) : Chip :=
  let p := s.page u
  let s1 := ((s.setCph { s.cph with cur := none, cyc := 0, last := u }).setPage u { p with left := p.left - 1 }).setFld (F.CPH_UPROG_BLOCKS u)
    ((s.cphCmd u).blocks + 1 - p.left)
  if p.aborting then s1.pageAborted u else s1

/-- One FABRIC cycle of the engine.
[DEDUCED, unsafe: notes/assumptions/94] -/
def Chip.cphCycle (s : Chip) : Chip :=
  let s1 := (List.range 4).foldl (fun c u => if c.pageWorks u then c.setPage u { c.page u with setup := (c.page u).setup - 1 } else c) s
  let s2 := match s1.cph.cur with
    | some u => if s1.cph.cyc ≤ 1 then s1.blockEnd u else s1.setCph { s1.cph with cyc := s1.cph.cyc - 1 }
    | none => s1
  (if s2.cph.ending && s2.cph.cur.isNone then ((s2.setCph { s2.cph with ending := false }).pagesWait).cphClaim else s2).nextBlock

def Chip.cphCycles (s : Chip) : Nat → Chip
  | 0 => s
  | n + 1 => s.cphCycle.cphCycles n

/-- The engine's FABRIC cycles in one period of HF-REF, while it holds its grant, or ends its last block, and has work. -/
def Chip.cphTick (s : Chip) : Chip :=
  if (s.holds 9 || s.cph.ending) && ((List.range 4).any s.pageWorks || s.cph.cur.isSome) then
    let n := s.cph.frac + s.fabricRate
    (s.setCph { s.cph with frac := n % 32 }).cphCycles (n / 32)
  else s

/-- Bear's answer to claimant 9 (R344). -/
def Chip.cipherAnswer (s : Chip) (r : Answer) : Chip :=
  match r.kind with
  | .defer => if r.code = Rc.PREEMPTED then s.pagesWait else s
  | .deny => ((List.range 4).foldl (fun c u => if c.pageState u = 1 then c.cphPost u r.code else c) s).kstServe.cphSafe
  | _ => (List.range 4).foldl Chip.pageRun s

/-- The engine's grant ends while work remains: at the end of the block in hand running pages wait and the engine claims again
(R344). -/
def Chip.cipherGrantEnd (s : Chip) : Chip :=
  if s.cph.cur.isSome then s.setCph { s.cph with ending := true } else s.pagesWait.cphClaim

/-! ### Enabling, pages of others, attributes (R340, R348, R349) -/

def Chip.cphEnable (s : Chip) (ag : Agent) : Chip :=
  if ag ≠ .foxA then s.setReason R.CPH_STAT Rc.SECURITY
  else if s.bit F.CPH_CTL_EN then s
  else if s.fld (F.EGY_DECL_PEAK 9) < 8 then s.setReason R.CPH_STAT Rc.BUDGET
  else ((({ s with stopping := s.stopping.filter (· ≠ Block.cph) }).setBit F.CPH_CTL_EN true).setBit F.CPH_STAT_ACTIVE true).setReason R.CPH_STAT
    Rc.OK

def Chip.cphDisable (s : Chip) (ag : Agent) : Chip :=
  if ag ≠ .foxA then s.setReason R.CPH_STAT Rc.SECURITY
  else if !s.bit F.CPH_CTL_EN then s
  else
    let s1 := ((List.range 4).foldl Chip.cphAbort s).setBit F.CPH_CTL_EN false
    ({ s1 with stopping := Block.cph :: s1.stopping }).cphSafe

/-- An access to another user's page. -/
def Chip.pageForeign (s : Chip) : Chip := ((s.setReason R.CPH_STAT Rc.SECURITY).count F.CPH_STAT_SECCNT).occ 30

/-- Page `u` belongs to `ag`; the service port master owns none (R340). -/
def ownsPage (ag : Agent) (u : Nat) : Bool := ag ≠ .svc && ag.code = u

/-- A write of a page register at offset `off` (R340, R343, R346). -/
def Chip.cphPageWrite (s : Chip) (ag : Agent) (u off : Nat) (v : Word) (rom : Bool) : Chip :=
  let r := R.CPH_UCMD u + off
  let mask : Nat := match off with
    | 0 => 0x1FFFF7F | 3 => 0xFFFF | 5 => 0xFFFF | _ => 0x3FFFFFF
  if !ownsPage ag u then s.pageForeign
  else if off ≤ 7 then
    let new := v &&& W mask
    if s.pageState u ≠ 0 && new ≠ s.reg r then s.pageReason u Rc.BUSY else s.setReg r new
  else if off = 8 then
    let s1 := if bitOf v.toNat 1 then s.cphAbort u else s
    if bitOf v.toNat 0 then s1.cphGo u rom else s1
  else if off = 9 then if bitOf v.toNat 12 then s.setBit (F.CPH_USTAT_DONE u) false else s
  else s

/-- CPH_STAT's counters clear on a read. -/
def Chip.cphStatRead (s : Chip) : Word × Chip :=
  (s.reg R.CPH_STAT, (s.setFld F.CPH_STAT_SECCNT 0).setFld F.CPH_STAT_FAULTCNT 0)

/-- A write of KST_ATTRs: bits may be cleared by a named user, never set; slot 0, which no section sets, takes no writes.
[DEDUCED, unsafe: notes/assumptions/164] -/
def Chip.kstAttrWrite (s : Chip) (ag : Agent) (slot : Nat) (v : Word) : Chip :=
  let old := (s.reg (R.KST_ATTR slot)).toNat
  let new := v.toNat % 512
  if 16 ≤ slot then s
  else if slot ≠ 0 && s.lockedSec 11 then s.setReason R.KST_STAT Rc.LOCKED
  else if slot = 0 ∨ ag = .svc ∨ !s.slotUser slot ag.code ∨ (new &&& (511 - old % 512)) ≠ 0 then s.setReason R.KST_STAT Rc.SECURITY
  else (s.setFld ⟨R.KST_ATTR slot, 8, 0⟩ new).setReason R.KST_STAT Rc.OK

/-! ### The KEYS section (R350) -/

def keysRange (w slot : Nat) : Bool :=
  bits w 35 11 ≠ 0 || (if slot < 4 then bits w 10 9 = 0 && bits w 7 4 ≠ 0 else bits w 10 9 ≠ 0)

def Chip.applyKeys (s : Chip) (body : List Nat) : Nat × Chip :=
  let w0 := body.headD 0
  let slots := (List.range 15).map (· + 1)
  if body.length ≠ 16 then (Rc.STREAM, s)
  else if bits w0 35 1 ≠ 0 || slots.any (fun i => keysRange (body.getD i 0) i) then (Rc.RANGE, s)
  else if [1, 2, 3].any (fun i => bitOf (body.getD i 0) 8) then (Rc.COMBINATION, s)
  else if bitOf w0 0 && s.fld (F.EGY_DECL_PEAK 9) < 8 then (Rc.BUDGET, s)
  else
    let s1 := slots.foldl (fun c i => c.setReg (R.KST_ATTR i) (W (body.getD i 0))) s
    let s2 := s1.loadShadow
    (Rc.OK, if bitOf w0 0 then s2.cphEnable .foxA else s2)

def keysDefault : List Nat := List.replicate 16 0

end Sys2Proof.Machine
end

