-- ==== Sys2Proof/Machine/Wave.lean ====
section
/-!
DEFINITION. The transmit baseband: the samples that a frame's parts stand for, and what the shaping filter makes of them
(spec/06 R162; spec/07 R185; spec/08 R208, R209, R225).  A sample is an exact sum of turned amplitudes.
-/
namespace Sys2Proof.Machine

/-- An amplitude turned by `turn / q` of a turn, `q` the sample's. -/
structure Term where
  amp : Pt
  turn : Nat
deriving DecidableEq, Repr

/-- The sum of its terms, over √n. -/
structure Sample where
  n : Nat
  q : Nat
  terms : List Term
deriving DecidableEq, Repr

def unitPt : Pt := { re := 1, im := 0, norm := 1 }
def silence : Sample := { n := 1, q := 1, terms := [] }

/-! ### Long sweep (R185) -/

/-- The instantaneous frequency of an up-sweep of value `m` at `t / d` of its symbol, relative to the carrier: the numerator of a
fraction of BW whose denominator is 2 d 2^SWF. -/
def upFreq (swf m t d : Nat) : Int := 2 * ((m * d + t * 2 ^ swf) % (d * 2 ^ swf) : Nat) - (d * 2 ^ swf : Nat)

/-- A down-sweep runs the opposite way. -/
def downFreq (swf t d : Nat) : Int := -upFreq swf 0 t d

/-- The phase that an up-sweep has gathered at sample `n` of its 8 × 2^SWF, in 1 / (128 × 2^SWF) turn: the integral of
`upFreq`.  It is a whole number of turns at the symbol's end, so that every symbol starts where the last one ended. -/
def upPhase (swf m n : Nat) : Int :=
  let w := 2 ^ swf
  ((16 * m * n + n * n : Nat) : Int) - (8 * w * n : Nat) - (16 * w * (n - 8 * (w - m)) : Nat)

def downPhase (swf n : Nat) : Int := -upPhase swf 0 n

/-- Symbol `i` of a list of parts: an up-sweep's value, or none for a down-sweep. -/
def sweepAt : List AirPart → Nat → Option (Option Nat)
  | [], _ => none
  | .preamble n :: l, i => if i < n then some (some 0) else sweepAt l (i - n)
  | .up v :: l, i => if i < v.length then (v[i]?).map some else sweepAt l (i - v.length)
  | .down :: l, i => if i = 0 then some none else sweepAt l (i - 1)
  | _ :: l, i => sweepAt l i

def lsSample (swf : Nat) (parts : List AirPart) (i : Nat) : Sample :=
  let q := 128 * 2 ^ swf
  let one (p : Int) : Sample := { n := 1, q := q, terms := [{ amp := unitPt, turn := (p % (q : Nat)).toNat }] }
  let n := i % (8 * 2 ^ swf)
  match sweepAt parts (i / (8 * 2 ^ swf)) with
  | some (some m) => one (upPhase swf m n)
  | some none => one (downPhase swf n)
  | none => silence

/-! ### Chirp multiplex (R209) -/

/-- Core sample `n` of a symbol's chirp values: the inverse discrete Fresnel transform.  The turns are eighths of 1/N. -/
def coreSample (x : List Pt) (n : Nat) : Sample :=
  let k := x.length
  { n := k, q := 8 * k,
    terms := x.zipIdx.filterMap (fun (p, i) =>
      if p.re = 0 && p.im = 0 then none
      else some { amp := p, turn := (4 * ((n : Int) - i).natAbs ^ 2 + 7 * k) % (8 * k) }) }

/-- The length of the prefix of a set (R208). -/
def cmPrefix (set : Nat) : Nat := cmN set / (if cmCp set then 4 else 8)

/-- Sample `i` of a symbol: the last core samples as the prefix, then all of them. -/
def symbolSample (pre : Nat) (x : List Pt) (i : Nat) : Sample := coreSample x ((i + x.length - pre) % x.length)

/-- Sample `i` of a frame, at the rate BW. -/
def cmSample (set : Nat) (parts : List AirPart) (i : Nat) : Sample :=
  let len := cmN set + cmPrefix set
  match parts[i / len]? with
  | some (.symbol x) => symbolSample (cmPrefix set) x (i % len)
  | _ => silence

/-! ### SUN-FSK (R225) -/

/-- The Gaussian frequency pulse of BT 0.5 at offsets of 0 to 12 samples of an eighth of a bit, times 2^16. -/
def gauss : List Nat := [65536, 58637, 41999, 24081, 11053, 4062, 1195, 281, 53, 8, 1, 0, 0]
def gaussAt (k : Int) : Nat := gauss.getD k.natAbs 0
def gaussSum : Nat := gauss.foldl (fun a g => a + 2 * g) 0 - 65536

/-- The frequency deviation at sample `n` in h Rs / 2, times `gaussSum`: bit 1 above the carrier, bit 0 below it.
[PRESUMED, unsafe: notes/assumptions/104] -/
def fskDev (bs : List Bool) (n : Nat) : Int :=
  (List.range 25).foldl (fun acc j =>
    let i := n + j - 12
    let b := if n + j < 12 then bs.headD true else bs.getD (i / 8) false
    acc + bitSign b * gaussAt ((j : Int) - 12)) 0

/-- Sample `n` of SUN-FSK bits: the phase that the deviations before it have gathered.  A sample's share is h / 32 turn. -/
def fskSample (set : Nat) (bs : List Bool) (n : Nat) : Sample :=
  let q := 32 * gaussSum
  let h : Int := if bitOf set 14 then 2 else 1
  let p := (List.range n).foldl (fun acc i => acc + h * fskDev bs i) 0
  { n := 1, q := q, terms := [{ amp := unitPt, turn := (p % (q : Nat)).toNat }] }

/-! ### The frame at the transmit sample rate, and the filter (R162) -/

/-- Sample `i` of the baseband at FS.
[DESIGN CHOICE, safe: notes/assumptions/169] -/
def baseband (mm set : Nat) (parts : List AirPart) (i : Nat) : Sample :=
  match mm with
  | 1 => lsSample (lsSwf set) parts i
  | 2 =>
    if i % 4 = 0 then cmSample set parts (i / 4)
    else
      let (re, im, n) := Config.between i
      { n := 1, q := 1, terms := [{ amp := { re := re, im := im, norm := n }, turn := 0 }] }
  | _ =>
    match parts with
    | [.bits bs] => fskSample set bs i
    | _ => silence

/-- What the up-converter gets in sample `i` of a frame: the samples that the filter weighs, with the coefficients that weigh
them, each in 1/2,048. -/
def Radiated.shaped (r : Radiated) (i : Nat) : List (Int × Sample) :=
  r.taps.zipIdx.filterMap (fun (c, k) => if k ≤ i then some (c, baseband r.mm r.mset r.parts (i - k)) else none)

end Sys2Proof.Machine
end

