-- ==== Sys2Proof/Machine/Demod.lean ====
section
/-!
DEFINITION. Reception in the modem: soft-decision decoding, the long sweep's symbols, the chirp-multiplex equaliser, SUN-FSK
bits (spec/07 R186 to R188, R196, R197; spec/08 R209 to R213, R219 to R222, R225, R229, R231).
A soft bit is an integer, positive for 1; 0 knows nothing.  Complex numbers are pairs of integers in a fixed scale.
[DEDUCED, unsafe: notes/assumptions/170]
-/
namespace Sys2Proof.Machine

/-! ### The Viterbi decoder (R186, R212, R229) -/

/-- A code: its states, and for each state the transitions that lead to it, as source, input and the two outputs. -/
structure Trellis where
  size : Nat
  into : Nat → List (Nat × Bool × Bool × Bool)

/-- The code of R186: the state's bit 5 is the latest input. -/
def conv7 : Trellis where
  size := 64
  into := fun t =>
    let u : Bool := 32 ≤ t
    [0, 1].map (fun e =>
      let st := t * 2 % 64 + e
      let r := u.toNat * 64 + st
      (st, u, convParity (r &&& 0b1011011), convParity (r &&& 0b1111001)))

/-- The codes of SUN-FSK. -/
def conv4 (fec : Nat) : Trellis where
  size := 8
  into := fun t =>
    (List.range 8).flatMap (fun st => [false, true].filterMap (fun u =>
      let (p, t1) := fkStep fec st u
      if t1 = t then some (st, u, p.1, p.2) else none))

/-- A soft bit's agreement with a bit. -/
def agrees (m : Int) (b : Bool) : Int := if b then m else -m

/-- The best path to each state: its metric, and its inputs, latest first; none where no path leads. -/
abbrev Paths := List (Option (Int × List Bool))

/-- The better of two paths, the first of equals. -/
def better (a b : Option (Int × List Bool)) : Option (Int × List Bool) :=
  match a, b with
  | none, b => b
  | a, none => a
  | some x, some y => if x.1 < y.1 then some y else some x

def Trellis.extend (c : Trellis) (p : Paths) (m : Int × Int) : Paths :=
  (List.range c.size).map (fun t =>
    (c.into t).foldl (fun best e =>
      better best ((p.getD e.1 none).map (fun x => (x.1 + agrees m.1 e.2.2.1 + agrees m.2 e.2.2.2, e.2.1 :: x.2)))) none)

/-- The paths from the zero state through a list of pairs of soft bits. -/
def Trellis.paths (c : Trellis) (l : List (Int × Int)) : Paths :=
  l.foldl c.extend (some (0, []) :: List.replicate (c.size - 1) none)

/-- The inputs of the best path that ends in the zero state, or, of a field still in progress, in any state. -/
def Trellis.decode (c : Trellis) (whole : Bool) (l : List (Int × Int)) : List Bool :=
  let p := c.paths l
  let e := if whole then p.headD none else p.foldl better none
  ((e.map Prod.snd).getD []).reverse

/-- Undo the puncture of `n` input bits: a bit that was not sent is unknown. -/
def depuncture (cr : Nat) : Nat → List Int → List (Int × Int)
  | 0, _ => []
  | 1, l => [(l.getD 0 0, l.getD 1 0)]
  | n + 2, l =>
    match cr with
    | 0 => (l.getD 0 0, l.getD 1 0) :: depuncture 0 (n + 1) (l.drop 2)
    | 1 => (l.getD 0 0, l.getD 1 0) :: (l.getD 2 0, 0) :: depuncture 1 n (l.drop 3)
    | _ =>
      match n with
      | 0 => [(l.getD 0 0, l.getD 1 0), (l.getD 2 0, 0)]
      | k + 1 => (l.getD 0 0, l.getD 1 0) :: (l.getD 2 0, 0) :: (0, l.getD 3 0) :: depuncture cr k (l.drop 4)

/-- Decode a field of `n` bits and its 6 tail bits. -/
def decodeField (cr n : Nat) (l : List Int) : List Bool := (conv7.decode true (depuncture cr (n + 6) l)).take n

/-- Bits as octets, bit 7 first, and bit 0 first. -/
def msbOctets (l : List Bool) : List Byte := (blocksOf 8 l.length l).map (fun b => BitVec.ofNat 8 (ofMsbBits b))
def lsbOctets (l : List Bool) : List Byte := (blocksOf 8 l.length l).map (fun b => BitVec.ofNat 8 (ofLsbBits b))

/-! ### Long sweep (R187, R188, R196) -/

/-- The row bits of a symbol: the value is aligned by the frame mark, and v = m XOR (m >> 1). -/
def lsRows (swf : Nat) (align : Int) (y : Nat × List Nat) : List Int :=
  let m := (((y.1 : Int) - align) % (2 ^ swf : Nat)).toNat
  let v := m ^^^ (m >>> 1)
  (List.range swf).map (fun r => agrees (y.2.getD r 1 : Nat) (v.testBit (swf - 1 - r)))

/-- Coded bit j of a block comes from symbol j mod 8 and row (⌊j / 8⌋ + j mod 8) mod SWF. -/
def lsBlock (swf : Nat) (rows : List (List Int)) : List Int :=
  (List.range (8 * swf)).map (fun j => (rows.getD (j % 8) []).getD ((j / 8 + j % 8) % swf) 0)

/-- The coded bits of a field's symbols. -/
def lsSoft (swf : Nat) (align : Int) (l : List (Nat × List Nat)) : List Int :=
  (blocksOf 8 l.length (l.map (lsRows swf align))).flatMap (lsBlock swf)

/-- Symbol values within 2^SWF / 32. -/
def nearSweep (swf x y : Nat) : Bool :=
  let n := 2 ^ swf
  let d := (x + n - y % n) % n
  d ≤ n / 32 || n - d ≤ n / 32

/-- A symbol value less another, the shorter way round. -/
def sweepShift (swf x y : Nat) : Int :=
  let n := 2 ^ swf
  let d := (x + n - y % n) % n
  if n < 2 * d then (d : Int) - n else d

/-- What one step of a tracking loop leaves of an error in 1/1,024 bin: it follows 1/8 bin per symbol. -/
def followed (e : Int) : Int := e - max (-128) (min 128 e)

/-- The tracking after a course of the carrier and one of the symbol timing, in 1/1,024 bin per symbol, of which the modem follows
up to 1/8 bin per symbol each.  It tells whether the error of an up-sweep, which the two move apart, has exceeded half a bin
(R197).
[DEDUCED, unsafe: notes/assumptions/171] -/
def lsLost (course drift : List Int) : Bool :=
  ((List.range (max course.length drift.length)).foldl (fun (p : Int × Int × Bool) i =>
    let c := p.1 + course.getD i 0
    let t := p.2.1 + drift.getD i 0
    (followed c, followed t, p.2.2 || 512 < c - t || c - t < -512)) (0, 0, false)).2.2

/-- The carrier offset and the timing error, in half bins, that the value of a down-sweep separates: the preamble's up-sweeps stood
at their difference, and it stands at their sum (R196). -/
def sweepParts (swf : Nat) (timing : Int) (down : Nat) : Int × Int :=
  let d := sweepShift swf down 0
  (d + timing, d - timing)

/-- A symbol value moved back by `k` bins. -/
def sweepLess (swf x : Nat) (k : Int) : Nat := (((x : Int) - k) % (2 ^ swf : Nat)).toNat

/-! ### Fixed-point complex numbers -/

/-- cos and sin of 2π 2^j / 4,096, times 2^48. -/
def turns : List (Int × Int) :=
  [(281474645541751, 431777037209), (281473652035816, 863553058405), (281469678023765, 1727097988720),
   (281453782162583, 3454130953177), (281390201710184, 6907741726938), (281135927774060, 13811322488556),
   (280119597762857, 27589372291508), (276066513959654, 54913043845964), (260048969897066, 107715810212518),
   (199032864766430, 199032864766430), (0, 281474976710656), (-281474976710656, 0)]

/-- cos and sin of 2π k / 4,096, times 2^48. -/
def turn (k : Nat) : Int × Int :=
  (List.range 12).foldl (fun (c, d) j =>
    if bitOf k j then
      let (a, b) := turns.getD j (0, 0)
      ((c * a - d * b) / 2 ^ 48, (c * b + d * a) / 2 ^ 48)
    else (c, d)) ((2 ^ 48 : Int), 0)

/-- The product of two numbers, the second in 1 / 2^k. -/
def cxMul (k : Nat) (a b : Int × Int) : Int × Int := ((a.1 * b.1 - a.2 * b.2) / 2 ^ k, (a.1 * b.2 + a.2 * b.1) / 2 ^ k)
def cxConj (a : Int × Int) : Int × Int := (a.1, -a.2)
def cxAdd (a b : Int × Int) : Int × Int := (a.1 + b.1, a.2 + b.2)
def cxSum (l : List (Int × Int)) : Int × Int := l.foldl cxAdd (0, 0)
def cxNorm (a : Int × Int) : Int := a.1 * a.1 + a.2 * a.2
def cxDot (a b : List (Int × Int)) : Int × Int := cxSum ((a.zip b).map (fun p => cxMul 0 p.1 (cxConj p.2)))

/-- A number turned by k / 4,096. -/
def cxTurn (a : Int × Int) (k : Nat) : Int × Int := cxMul 48 a (turn (k % 4096))

/-- The direction of a number, in 1/4,096 turn, to the nearest; 0 for 0.  Its half turn first, then a bit at a time. -/
def cxAngle (a : Int × Int) : Nat :=
  if a.1 = 0 ∧ a.2 = 0 then 0
  else
    let along (k : Nat) : Int × Int := cxMul 0 a (cxConj (turn (k % 4096)))
    let half := if 0 < a.2 ∨ (a.2 = 0 ∧ 0 < a.1) then 0 else 2048
    let k := [1024, 512, 256, 128, 64, 32, 16, 8, 4, 2, 1].foldl (fun k st => if 0 ≤ (along (k + st)).2 then k + st else k) half
    if (along k).1 < (along (k + 1)).1 then (k + 1) % 4096 else k

/-- The N-point discrete Fourier transform; its inverse, less the division by N, turns the other way. -/
def dft (inverse : Bool) (l : List (Int × Int)) : List (Int × Int) :=
  let n := l.length
  let step := 4096 / max 1 n
  (List.range n).map (fun m => cxSum (l.zipIdx.map (fun (y, i) =>
    let k := m * i % n * step
    cxTurn y (if inverse then k else 4096 - k % 4096))))

/-- The quadratic phase e^(−jπm²/N) of sub-carrier m, put on or removed. -/
def fresnel (remove : Bool) (l : List (Int × Int)) : List (Int × Int) :=
  let step := 2048 / max 1 l.length
  l.zipIdx.map (fun (y, m) =>
    let k := m * m * step % 4096
    cxTurn y (if remove then k else 4096 - k))

/-! ### Chirp multiplex (R209, R219 to R222) -/

/-- The chirp values' unit. -/
def cxOne : Int := 2 ^ 24

/-- The core samples of a symbol: its prefix removed. -/
def cmCore (set : Nat) (l : List (Int × Int)) : List (Int × Int) := (l.drop (cmPrefix set)).take (cmN set)

/-- The symbols of a field. -/
def cmCut (set : Nat) (l : List (Int × Int)) : List (List (Int × Int)) := blocksOf (cmN set + cmPrefix set) l.length l

/-- The spectrum of the training symbol as sent. -/
def trainSpectrum (n : Nat) : List (Int × Int) := fresnel false (dft false ((trainBits n).map (fun t => (-bitSign t * cxOne, 0))))

/-- One tap per sub-carrier: what turns the average of the two training symbols into the symbol as sent. -/
def cmTaps (set : Nat) (s1 s2 : List (Int × Int)) : List (Int × Int) :=
  let avg := ((dft false (cmCore set s1)).zip (dft false (cmCore set s2))).map (fun p => ((p.1.1 + p.2.1) / 2, (p.1.2 + p.2.2) / 2))
  ((trainSpectrum (cmN set)).zip avg).map (fun (t, a) =>
    let p := cxMul 0 t (cxConj a)
    let e := max 1 (cxNorm a)
    (p.1 * cxOne / e, p.2 * cxOne / e))

/-- The two training symbols correlate at 0.5 or more (R219). -/
def trainOk (set : Nat) (s1 s2 : List (Int × Int)) : Bool :=
  let a := cmCore set s1
  let b := cmCore set s2
  a.length = cmN set && b.length = cmN set &&
    decide ((cxDot a a).1 * (cxDot b b).1 ≤ 4 * cxNorm (cxDot a b) ∧ 0 < (cxDot a a).1)

/-- The chirp values of a received symbol, in `cxOne`. -/
def cmEqualise (set : Nat) (taps : List (Int × Int)) (l : List (Int × Int)) : List (Int × Int) :=
  let y := ((dft false (cmCore set l)).zip taps).map (fun p => cxMul 24 p.1 p.2)
  (dft true (fresnel true y)).map (fun v => (v.1 / (cmN set : Nat), v.2 / (cmN set : Nat)))

/-- The common rotation of a symbol's 8 pilots and their slope from one pilot to the next, in 1/4,096 turn (R220). -/
def cmPilots (n : Nat) (pilot : Bool) (x : List (Int × Int)) : Nat × Nat :=
  let z := (pilotChirps n).map (fun i => let v := x.getD i (0, 0); if pilot then (-v.1, -v.2) else v)
  let slope := cxAngle (cxDot (z.drop 1) z)
  -- the rotation at chirp 0, the slope removed
  (cxAngle (cxSum (z.zipIdx.map (fun (v, k) => cxTurn v (4096 - slope * k % 4096)))), slope)

/-- A symbol with its common rotation and its slope removed, and the rotation. -/
def cmDerotate (n : Nat) (pilot : Bool) (x : List (Int × Int)) : Nat × List (Int × Int) :=
  let (rot, slope) := cmPilots n pilot x
  let sl : Int := if slope < 2048 then slope else (slope : Int) - 4096
  (rot, x.zipIdx.map (fun (v, i) => cxTurn v ((-(rot : Int) - sl * i * 8 / (n : Nat)) % 4096).toNat))

/-- 1/√2 and 1/√10 in `cxOne`. -/
def lvl2 : Int := 11863283
def lvl10 : Int := 5305422

/-- The soft bits of a data chirp, b0 first (R211). -/
def chirpSoft (nb : Nat) (v : Int × Int) : List Int :=
  match nb with
  | 1 => [v.1]
  | 2 => [v.1, v.2]
  | _ => [v.1, 2 * lvl10 - (v.1.natAbs : Int), v.2, 2 * lvl10 - (v.2.natAbs : Int)]

/-- The decided point of a data chirp, in `cxOne`. -/
def decided (nb : Nat) (v : Int × Int) : Int × Int :=
  let four (x : Int) : Int := bitSign (0 ≤ x) * (if (x.natAbs : Int) < 2 * lvl10 then lvl10 else 3 * lvl10)
  match nb with
  | 1 => (bitSign (0 ≤ v.1) * cxOne, 0)
  | 2 => (bitSign (0 ≤ v.1) * lvl2, bitSign (0 ≤ v.2) * lvl2)
  | _ => (four v.1, four v.2)

/-- The coded bits of a symbol: bit j from data chirp j mod ND, as bit ⌊j / ND⌋ of its label (R213). -/
def symbolSoft (n nb : Nat) (x : List (Int × Int)) : List Int :=
  let d := (dataChirps n).map (fun i => chirpSoft nb (x.getD i (0, 0)))
  (List.range (nb * d.length)).map (fun j => (d.getD (j % d.length) []).getD (j / d.length) 0)

/-- The chirp values of a field's symbols, the rotations of each before their removal; `skip` symbols after the training came
before them. -/
def cmField (set skip : Nat) (taps : List (Int × Int)) (l : List (Int × Int)) : List (Nat × List (Int × Int)) :=
  let y := cmCut set l
  (((pilotBits (skip + y.length)).drop skip).zip y).map (fun (p, s) => cmDerotate (cmN set) p (cmEqualise set taps s))

/-- The pilot phase error of a symbol: its rotation less that of the symbol before. -/
def phaseStep (a b : Nat) : Int := let d := (b + 4096 - a % 4096) % 4096; if 2048 < d then (d : Int) - 4096 else d

/-- The error exceeds π/4 in two consecutive symbols (R220).
[DEDUCED, unsafe: notes/assumptions/171] -/
def cmLost : List Int → Bool
  | a :: b :: l => (512 < a.natAbs && 512 < b.natAbs) || cmLost (b :: l)
  | _ => false

/-- The phase errors of a course of rotations. -/
def phaseErrors : Nat → List Nat → List Int
  | _, [] => []
  | a, b :: l => phaseStep a b :: phaseErrors b l

/-- 10^(n / 40) times 2^48: `n` steps of 0.25 dB in power. -/
def quarterDb (n : Nat) : Int :=
  10 ^ (n / 40) * (List.range (n % 40)).foldl (fun (a : Int) _ => a * 298153417624953 / 2 ^ 48) (2 ^ 48)

/-- A ratio of powers in quarter decibels, to the nearest. -/
def quarters (num den : Nat) : Int :=
  let up (a b : Nat) : Nat := (List.range 600).countP (fun i => (b * b : Int) * quarterDb (2 * i + 1) ≤ (a * a : Int) * 2 ^ 48)
  if den ≤ num then up num den else -(up den num : Int)

/-- The mean power of values, as a sum over a count. -/
def meanRatio (a b : List (Int × Int)) : Int :=
  let p (l : List (Int × Int)) : Nat := (l.foldl (fun acc v => acc + cxNorm v) 0).toNat
  quarters (p a * b.length) (p b * a.length)

/-- SNR: data chirps against nulls (R222), in quarter decibels. -/
def cmSnr (n : Nat) (syms : List (List (Int × Int))) : Int :=
  let pick (idx : List Nat) := syms.flatMap (fun x => idx.map (fun i => x.getD i (0, 0)))
  max (-256) (min 255 (meanRatio (pick (dataChirps n)) (pick (nullChirps n))))

/-- EVM: −4 times its decibels, held from 0 to 510 (R222). -/
def cmEvm (n nb : Nat) (syms : List (List (Int × Int))) : Int :=
  let d := syms.flatMap (fun x => (dataChirps n).map (fun i => x.getD i (0, 0)))
  let err := d.map (fun v => let p := decided nb v; (v.1 - p.1, v.2 - p.2))
  max 0 (min 510 (meanRatio (d.map (fun _ => (cxOne, 0))) err))

/-! ### SUN-FSK (R225, R229) -/

def pairsOf : List Int → List (Int × Int)
  | a :: b :: l => (a, b) :: pairsOf l
  | _ => []

/-- The first `n` bits of a field; `whole` says that it has reached its tail. -/
def fkSoft (set n : Nat) (whole : Bool) (l : List Int) : List Bool :=
  if fkFec set = 0 then ((l ++ List.replicate n 0).take n).map (fun m => decide (0 < m))
  else
    let p := pairsOf l
    let c := if fkIlv set then interleave p else p
    (((conv4 (fkFec set)).decode whole (if whole then c.take (n + 3) else c)) ++ List.replicate n false).take n

/-! ### Fields -/

def rxSym : RxField → List (Nat × List Nat)
  | .symbols l => l | _ => []
def rxSmp : RxField → List (Int × Int)
  | .samples l => l | _ => []
def rxSoft : RxField → List Int
  | .bits l => l | _ => []

/-- The header that a field decodes to, and the last rotation of its symbols, which lose rotation and slope by their pilots as
the payload's do.
[DESIGN CHOICE, unsafe: notes/assumptions/198]
[DEDUCED, unsafe: notes/assumptions/170] -/
def rxHeader (mm set : Nat) (w : RxWin) (f : RxField) : Nat × Nat :=
  match mm with
  | 1 => (ofMsbBits (decodeField 0 16 (lsSoft (lsSwf set) w.align (rxSym f))), 0)
  | 2 =>
    let y := cmField set 0 w.taps (rxSmp f)
    (ofMsbBits (decodeField 0 32 (y.flatMap (fun p => symbolSoft (cmN set) 1 p.2))), (y.getLast?.map Prod.fst).getD w.rot)
  | _ => (ofMsbBits (fkSoft set 16 false (rxSoft f)), 0)

/-- The octets of a payload, check included, under the header in hand; whether the frame was lost on the way; and the SNR and EVM
of chirp multiplex in quarter decibels, the SNR like the EVM over the payload's symbols alone.  The payload field of a coded
SUN-FSK frame starts at its PHR, with which it is encoded.
[DESIGN CHOICE, unsafe: notes/assumptions/197]
[DEDUCED, unsafe: notes/assumptions/170] -/
def rxPayload (mm set : Nat) (w : RxWin) (f : RxField) (snr : Int) : List Byte × Bool × Int × Int :=
  let n := headerOctets mm w.hdr
  match mm with
  | 1 => (msbOctets (decodeField (bits w.hdr 7 7) (8 * n) (lsSoft (lsSwf set) w.align (rxSym f))), lsLost w.course w.drift, snr, 0x1FF)
  | 2 =>
    let y := cmField set (cmHdrSyms set) w.taps (rxSmp f)
    let nb := cmBits (bits w.hdr 20 19)
    let u := decodeField (bits w.hdr 18 17) (8 * n) (y.flatMap (fun p => symbolSoft (cmN set) nb p.2))
    let syms := y.map Prod.snd
    (msbOctets (xorBits u (pn9 u.length)), cmLost (phaseErrors w.rot (y.map Prod.fst)), cmSnr (cmN set) syms, cmEvm (cmN set) nb syms)
  | _ =>
    let b := if fkFec set = 0 then fkSoft set (8 * n) true (rxSoft f) else (fkSoft set (16 + 8 * n) true (rxSoft f)).drop 16
    let o := (blocksOf 8 b.length b).map ofLsbBits
    ((if bitOf w.hdr 11 then whiten o else o).map (BitVec.ofNat 8), false, snr, 0x1FF)

/-! ### Acquisition and synchronisation (R196, R197, R219, R231) -/

/-- The carrier offset, in FOFF's unit, and the symbol-rate error, in 1/1,000,000, that the modem acquires. -/
def foffLimit (mm : Nat) : Nat := if mm = 1 then 1024 else 512
def rateLimit (mm set : Nat) : Nat :=
  match mm with
  | 1 => if 12 ≤ lsSwf set then 100 else 500
  | 2 => 50
  | _ => 300

def acquires (mm set : Nat) (foff rate : Int) : Bool := foff.natAbs ≤ foffLimit mm && rate.natAbs ≤ rateLimit mm set

/-- The frame mark's up-sweep after correction by what its down-sweep separated. -/
def markUp (swf : Nat) (timing : Int) (down up : Nat) : Nat :=
  let (c, t) := sweepParts swf timing down
  sweepLess swf up ((c - t) / 2)

/-- Whether the synchronisation field matches; `timing` is the acquisition's, by which the sync symbols are corrected. -/
def syncOk (mm set : Nat) (timing : Int) (a b c : RxSync) : Bool :=
  let k := lsSwf set
  let q := 2 ^ k / 16
  match mm, a, b, c with
  | 1, .sweep a, .sweep b, .mark down up =>
    nearSweep k (sweepLess k a timing) (q * (lsSync set / 16)) && nearSweep k (sweepLess k b timing) (q * (lsSync set % 16))
      && nearSweep k (markUp k timing down up) (2 ^ k / 2)
  | 2, .training s1, .training s2, _ => trainOk set s1 s2
  | 3, .sfd b, _, _ => decide (b = fkSfd set)
  | _, _, _, _ => false

/-- What the window keeps of a synchronisation field that matches: the frame mark's alignment, or the taps.
[DEDUCED, unsafe: notes/assumptions/170] -/
def syncKeep (mm set : Nat) (a b c : RxSync) (w : RxWin) : RxWin :=
  match mm, a, b, c with
  | 1, _, _, .mark down up =>
    let (c, t) := sweepParts (lsSwf set) w.timing down
    { w with carrier := c, late := t, align := (c - t) / 2 + sweepShift (lsSwf set) (markUp (lsSwf set) w.timing down up) (2 ^ lsSwf set / 2) }
  | 2, .training s1, .training s2, _ => { w with taps := cmTaps set s1 s2, rot := 0 }
  | _, _, _, _ => w

/-- Whether tracking is lost in the first `k` symbols: on a course of the carrier and the timing in 1/1,024 bin a symbol, or of the
pilot phase errors in 1/4,096 turn.  The spec gives SUN-FSK no limit: the demodulator's word is taken.
[DEDUCED, unsafe: notes/assumptions/171] -/
def tracksOff (mm : Nat) (w : RxWin) (k : Nat) : Bool :=
  match mm with
  | 1 => lsLost (w.course.take k) (w.drift.take k)
  | 2 => cmLost (w.course.take k)
  | _ => true

/-- RSSI: the detector's figure, or of a frame below the noise the calibrated noise power in the receive bandwidth plus the SNR
(R168), in half dBm; the SNR is in quarter decibels. -/
def rssiOf (det noise snr : Int) : Int := if 0 ≤ snr then det else noise + snr / 2

end Sys2Proof.Machine
end

