-- ==== Sys2Proof/Machine/PinRegs.lean ====
section
/-!
DEFINITION. Writes to the pin registers and the PINS section (spec/03 R84 to R92).
-/
namespace Sys2Proof.Machine

def Chip.pinReason (s : Chip) (code : Nat) : Chip := s.setReason R.PIN_STAT code

/-- The pins whose owner is `ag`; the service port master may change all (R87). -/
def Chip.ownPins (s : Chip) (ag : Agent) : Nat :=
  (List.range 24).foldl (fun m n => putBit m n (owns ag (s.pinOwner n))) 0

/-- Update register `r`, PIN_OUT or PIN_DIR, to `new` where the agent owns the pin; a bit aimed at
another agent's pin is OWNED. -/
def Chip.pinBits (s : Chip) (ag : Agent) (r new aimed : Nat) : Chip :=
  let old := (s.reg r).toNat
  let own := s.ownPins ag
  let s1 := s.setReg r (W ((new &&& own) ||| (old &&& (0xFFFFFF - own))))
  s1.pinReason (if aimed &&& (0xFFFFFF - own) = 0 then Rc.OK else Rc.OWNED)

/-- Writes of PIN_OUT and PIN_DIR: a bit that differs is aimed at its pin. -/
def Chip.pinOutWrite (s : Chip) (ag : Agent) (v : Word) : Chip :=
  let n := v.toNat % 2 ^ 24
  s.pinBits ag R.PIN_OUT n (n ^^^ (s.reg R.PIN_OUT).toNat)
def Chip.pinDirWrite (s : Chip) (ag : Agent) (v : Word) : Chip :=
  let n := v.toNat % 2 ^ 24
  s.pinBits ag R.PIN_DIR n (n ^^^ (s.reg R.PIN_DIR).toNat)

/-- Writes of PIN_OUTSET, PIN_OUTCLR and PIN_OUTTGL: a bit of 1 is aimed at its pin. -/
def Chip.pinSetWrite (s : Chip) (ag : Agent) (v : Word) : Chip :=
  let n := v.toNat % 2 ^ 24
  s.pinBits ag R.PIN_OUT ((s.reg R.PIN_OUT).toNat ||| n) n
def Chip.pinClrWrite (s : Chip) (ag : Agent) (v : Word) : Chip :=
  let n := v.toNat % 2 ^ 24
  s.pinBits ag R.PIN_OUT ((s.reg R.PIN_OUT).toNat &&& (0xFFFFFF - n)) n
def Chip.pinTglWrite (s : Chip) (ag : Agent) (v : Word) : Chip :=
  let n := v.toNat % 2 ^ 24
  s.pinBits ag R.PIN_OUT ((s.reg R.PIN_OUT).toNat ^^^ n) n

/-! ### Checks on a map -/

/-- The input meanings that one phase may assign to one pin only (R86); CX_GNT in requester role. -/
def Chip.soleInput (s : Chip) (m : Nat) : Bool :=
  (Mean.HCS ≤ m && m ≤ Mean.HDI) || (m = Mean.CX_GNT && s.fld F.CX_CFG_ROLE = 1) || (0x18 ≤ m && m ≤ 0x1F) || (0x30 ≤ m && m ≤ 0x37)

/-- Some sole input lies on two pins in one phase; `maps` is PIN_MAP by pin. -/
def Chip.inputsClash (s : Chip) (maps : List Nat) : Bool :=
  [Phase.run, .slot, .rest].any (fun p =>
    let ms := maps.map (fun w => meanIn w p)
    ms.any (fun m => s.soleInput m && 1 < (ms.filter (· = m)).length))

def Chip.pinMaps (s : Chip) : List Nat := (List.range 24).map s.pinMap

/-- The owner that a timer or event meaning must have, as the timers and channels stand. -/
def Chip.timerOwner (s : Chip) (n : Nat) : Nat := if s.bit (F.TMR_OWN_ASSIGNED n) then s.fld (F.TMR_OWN_OWNER n) else 0

/-- A pin with map `w` carries, in RUN, SLOT or REST, a timer meaning of a timer with another owner (R86). -/
def Chip.timerPinBad (s : Chip) (w : Nat) : Bool :=
  [Phase.run, .slot, .rest].any (fun p =>
    let m := meanIn w p
    (0x18 ≤ m && m ≤ 0x1F && s.timerOwner (m - 0x18) ≠ bits w 35 34)
      || (0x20 ≤ m && m ≤ 0x2F && s.timerOwner ((m - 0x20) / 2) ≠ bits w 35 34))

/-- The channels that use event input `k`, and the tasks that use event output `k`. -/
def Chip.eventInUsers (s : Chip) (k : Nat) : List Nat :=
  (List.range 40).filter (fun c => s.fld (F.EVR_CH_PUB c) = 96 + k || s.fld (F.EVR_CH_PUB c) = 104 + k)

/-- A pin carries an event meaning whose channel or task has another owner (R86, R432). -/
def Chip.eventPinBad (s : Chip) (w : Nat) : Bool :=
  [Phase.run, .slot, .rest].any (fun p =>
    let m := meanIn w p
    (0x30 ≤ m && m ≤ 0x37 && (s.eventInUsers (m - 0x30)).any (fun c => s.fld (F.EVR_CH_OWNER c) ≠ bits w 35 34))
      || (0x38 ≤ m && m ≤ 0x3F && (s.bit (F.EVR_TSUB_ENA (8 + (m - 0x38))) || s.bit (F.EVR_TSUB_ENB (8 + (m - 0x38))))
            && s.fld (F.EVR_TSUB_OWNER (8 + (m - 0x38))) ≠ bits w 35 34))

/-- The meanings, each with a phase and, where fixed, a pin, that the enabled blocks need (R88, R177, R548). -/
def Chip.neededMeans (s : Chip) : List (Nat × Phase) :=
  (if s.bit F.HP_CTL_EN then [Mean.HCS, Mean.HCK, Mean.HDI, Mean.HDO].flatMap (fun m => [(m, Phase.run), (m, .slot)]) else [])
    ++ (if s.bit F.CX_CTL_EN then
          if s.fld F.CX_CFG_ROLE = 2 then [Mean.CX_REQ, Mean.CX_PRI, Mean.CX_GNT].flatMap (fun m => [(m, Phase.run), (m, .slot)])
          else [(Mean.CX_REQ, .slot), (Mean.CX_GNT, .slot)] ++ (if s.fld F.CX_CFG_PRISRC = 0 then [] else [(Mean.CX_PRI, .slot)])
        else [])

/-- Whether replacing pin `n`'s map by `w` removes a meaning that an enabled block needs (R92). -/
def Chip.removesNeeded (s : Chip) (n w : Nat) : Bool :=
  s.neededMeans.any (fun e => meanIn (s.pinMap n) e.2 = e.1 && meanIn w e.2 ≠ e.1
    && !((List.range 24).any (fun k => k ≠ n && meanIn (s.pinMap k) e.2 = e.1)))

/-- Pin `n` takes meaning `m` now; an input meaning it leaves holds its level (R81). -/
def Chip.pinTakes (s : Chip) (n m : Nat) : Chip :=
  let old := s.pins.cur.getD n 0
  let held := if meanInput old && old ≠ m then putBit s.pins.held old (s.inPin n) else s.pins.held
  { s with pins := { s.pins with cur := setAt s.pins.cur n m, held := held } }

/-- A write of PIN_MAPn: the lock first, then the other refusals, of which the spec gives no order.
[DEDUCED, unsafe: notes/assumptions/164] [DESIGN CHOICE, unsafe: notes/assumptions/154] -/
def Chip.pinMapWrite (s : Chip) (ag : Agent) (n : Nat) (v : Word) : Chip :=
  let old := s.pinMap n
  let w := (v.toNat &&& 0xF03FFFF03) ||| (old &&& 0x0FC0000FC)
  let maps := setAt s.pinMaps n w
  if 24 ≤ n then s
  else if s.lockedSec 6 then s.pinReason Rc.LOCKED
  else if !owns ag (s.pinOwner n) then s.pinReason Rc.OWNED
  else if !mapCodesOk n w then s.pinReason Rc.RANGE
  else if s.inputsClash maps || s.removesNeeded n w then s.pinReason Rc.PIN_PHASE
  else if s.timerPinBad w || s.eventPinBad w then s.pinReason Rc.OWNED
  else
    let s1 := (s.setReg (R.PIN_MAP n) (W w)).pinReason Rc.OK
    if s.pins.phase = .run then s1.pinTakes n (meanIn w .run) else s1

/-! ### The PINS section (R84, R85) -/

/-- Check and apply the 24 images. -/
def Chip.applyPins (s : Chip) (body : List Nat) : Nat × Chip :=
  if body.length ≠ 24 then (Rc.STREAM, s)
  else if (List.range 24).any (fun n => (body.getD n 0) &&& 0xFC0000FC ≠ 0 || !mapCodesOk n (body.getD n 0)) then (Rc.RANGE, s)
  else if s.inputsClash body then (Rc.PIN_PHASE, s)
  else
    (Rc.OK, (List.range 24).foldl (fun c n =>
      c.setReg (R.PIN_MAP n) (W ((body.getD n 0) ||| (regResetNat (R.PIN_MAP n) &&& 0x0FC0000FC)))) s)

/-- One half of a version-1 word in the layout of PIN_MAP. -/
def pinV1Half (h : Nat) : Nat × Bool :=
  let run := bits h 9 4
  (bits h 17 16 <<< 32 ||| bits h 15 10 <<< 20 ||| run <<< 14 ||| run <<< 8 ||| bits h 1 0, bits h 3 2 = 0)

def pinsV1 (body : List Nat) : Nat × List Nat :=
  if body.length ≠ 12 then (Rc.STREAM, [])
  else
    let l := body.flatMap (fun w => [pinV1Half (bits w 17 0), pinV1Half (bits w 35 18)])
    if l.all Prod.snd then (Rc.OK, l.map Prod.fst) else (Rc.RANGE, [])

/-- The default map: the reset values, without their fixed fields. -/
def pinsDefault : List Nat := (List.range 24).map (fun n => regResetNat (R.PIN_MAP n) &&& 0xF03FFFF03)

/-! ### Pin inputs -/

/-- VDDIO2 comes into or leaves its range (R72). -/
def Chip.vddio2Change (s : Chip) (ok : Bool) : Chip := { s with pins := { s.pins with io2ok := ok } }

/-- The board drives level `v` on pin `n`.
[DEDUCED, unsafe: notes/assumptions/74] -/
def Chip.drivePin (s : Chip) (n : Nat) (v : Bool) : Chip :=
  { s with pins := { s.pins with pad := putBit s.pins.pad n v, driven := putBit s.pins.driven n true } }

/-- The board drives the pin that carries input meaning `m`.  The block sees an edge when the level at the pin changes: not
where it was at that level before, where its bank is unpowered, or where no pin carries the meaning (R72, R81).
[DEDUCED, unsafe: notes/assumptions/74] -/
def Chip.inputEdge (s : Chip) (m : Nat) (rise : Bool) (f : Chip → Chip) : Chip :=
  match s.pinOf m with
  | none => s
  | some n =>
    let s1 := s.drivePin n rise
    if s.inPin n ≠ rise && s1.inPin n = rise then f s1 else s1

/-- The level of the AON-LF clock: its rising edges are the ticks, and it is high for the first half of a tick.
[DEDUCED, unsafe: notes/assumptions/85] -/
def Chip.lfLevel (s : Chip) : Bool :=
  let k := s.lfIdx s.now
  2 * (s.now - s.lfTime k) < s.lfTime (k + 1) - s.lfTime k

/-- SQW's level: at SQWK = 15 the AON-LF clock itself, else as the last edge left it (R403). -/
def Chip.sqw (s : Chip) : Bool :=
  if s.fld F.RTC_CFG_SQWK = 15 then s.bit F.RTC_CFG_SQWEN && s.lfLevel else s.pins.latch.sqw

/-- The level of output meaning `m`'s latch (R89): the line of target 3 for HIRQ, recovery for RECIND, the last bit that the
host port shifted out for HDO, else the level that the driving block has left. -/
def Chip.latchLevel (s : Chip) (n m : Nat) : Bool :=
  let l := s.pins.latch
  if m = Mean.GPIO then bitOf (s.reg R.PIN_OUT).toNat n
  else if m = Mean.HIRQ then s.line 3
  else if m = Mean.RECIND then s.pins.phase = .recover
  else if m = Mean.FDET then l.fdet
  else if m = Mean.SQW then s.sqw
  else if m = Mean.HDO then
    (if s.fld F.HP_STAT_VER = 1 then s.hp.octs.getLast?.any (fun w => w.getLsbD 0) else s.hp.hdo.getLast?.any (fun w => w.getLsbD 0))
  else if m = Mean.CX_REQ then l.cxReq
  else if m = Mean.CX_PRI then l.cxPri
  else if m = Mean.CX_GNT then l.cxGnt
  else if m = Mean.TXEN then l.txen
  else if 0x20 ≤ m ∧ m ≤ 0x2F then bitOf l.tmrOut (m - 0x20)
  else if 0x38 ≤ m ∧ m ≤ 0x3F then bitOf l.evtOut (m - 0x38)
  else false

/-- The chip drives pin `n` now (R605): as GPIO, or in an output meaning.  HDO is driven while HCS is low (R536),
FDET from the moment VAON is established (R79); an open drain drives the low level only. -/
def Chip.pinDrives (s : Chip) (n : Nat) : Bool :=
  let m := s.pins.cur.getD n 0
  if s.gpioPin n then s.gpioDrives n
  else s.pinPowered n && s.meanOutput m && !(s.openDrain n && s.latchLevel n m)
    && !(m = Mean.HDO && s.inputLevel Mean.HCS) && !(m = Mean.FDET && s.nfc.harvest)

/-- The level on pin `n`. -/
def Chip.pinLevel (s : Chip) (n : Nat) : Bool :=
  if s.pinDrives n then s.ownLevel n (s.latchLevel n (if s.gpioPin n then Mean.GPIO else s.pins.cur.getD n 0)) else s.padIn n

/-- PIN_IN: the level of each pin, 0 in OFF and on an unpowered bank (R72). -/
def Chip.pinInView (s : Chip) : Word :=
  W ((List.range 24).foldl (fun acc n =>
    putBit acc n (s.pins.cur.getD n 0 ≠ Mean.OFF && s.pinPowered n && s.pinLevel n)) 0)

/-- Some pin's map asks for a bus keeper. -/
def Chip.anyKeeper (s : Chip) : Bool :=
  s.regs.any (fun e => R.PIN_MAP 0 ≤ e.1 && e.1 < R.PIN_MAP 24 && bits e.2.toNat 33 32 = 3)

/-- The bus keepers take the levels of their pins (R92). -/
def Chip.keepLevels (s : Chip) : Chip :=
  if s.anyKeeper then
    { s with pins := { s.pins with kept := (List.range 24).foldl (fun acc n => putBit acc n (s.pinLevel n)) 0 } }
  else s

def Chip.pinStatView (s : Chip) : Word :=
  W (s.pins.io2ok.toNat <<< 13 ||| 1 <<< 12 ||| s.pins.phase.code <<< 9 ||| 1 <<< 8 ||| bits (s.reg R.PIN_STAT).toNat 7 0)

end Sys2Proof.Machine
end

