-- ==== Sys2Proof/Machine/Radio.lean ====
section
/-!
DEFINITION. The synthesiser, the front end and coexistence (spec/06 R152 to R183), and the modem's
parameter sets and enable (spec/07 R202 to R204, spec/08 R224, R233).
-/
namespace Sys2Proof.Machine

/-! ### Ownership -/

/-- SYN, RFE, CX and MDM registers take writes from RFE_CFG.OWNER (R179, R204). -/
def Chip.radioOwner (s : Chip) (ag : Agent) : Bool := owns ag (s.fld F.RFE_CFG_OWNER)

/-- A register write that its owner alone may make; `stat` is the block's status register. -/
def Chip.ifRadioOwner (s : Chip) (ag : Agent) (stat : Nat) (f : Chip → Chip) : Chip :=
  if s.radioOwner ag then f s else s.setReason stat Rc.OWNED

/-- The same of a register that the RADIO section sets: LOCKED precedes OWNED.
[DEDUCED, unsafe: notes/assumptions/164] -/
def Chip.ifRadioOpen (s : Chip) (ag : Agent) (stat : Nat) (f : Chip → Chip) : Chip :=
  if s.lockedSec 12 then s.setReason stat Rc.LOCKED else s.ifRadioOwner ag stat f

/-! ### Bands and profiles (R152, R153, R169) -/

/-- FREQ × 32,000,000 / 2^25 Hz lies in one of the bands. -/
def inBands (freq : Nat) : Bool :=
  let h := freq * 32000000
  let m (f : Nat) : Nat := f * 2 ^ 25
  (m 410000000 ≤ h && h ≤ m 510000000) || (m 779000000 ≤ h && h ≤ m 1020000000)

def Chip.profF (s : Chip) (n : Nat) : Nat := bits (s.reg (R.RFE_PROF_F n)).toNat 29 0
def Chip.profM (s : Chip) (n : Nat) : Nat := (s.reg (R.RFE_PROF_M n)).toNat
def mValid (m : Nat) : Bool := bitOf m 35
def mMinPwr (m : Nat) : Nat := bits m 34 29
def mPwr (m : Nat) : Nat := bits m 28 23
def mMset (m : Nat) : Nat := bits m 20 18
def mFir (m : Nat) : Nat := bits m 16 15
def mRxbw (m : Nat) : Nat := bits m 14 11

/-- The parameter set word that a profile names. -/
def Chip.msetOf (s : Chip) (m : Nat) : Nat := (s.reg (mdmSet (mMode m) (mMset m))).toNat

/-- A write of RFE_PROFn_F. -/
def Chip.profFWrite (s : Chip) (ag : Agent) (n : Nat) (v : Word) : Chip :=
  s.ifRadioOpen ag R.RFE_STAT fun s =>
    let f := bits v.toNat 29 0
    if 8 ≤ n then s
    else if f ≠ 0 && !inBands f then s.setReason R.RFE_STAT Rc.BAND
    else ((s.setReg (R.RFE_PROF_F n) (W f)).setFld ⟨R.RFE_PROF_M n, 35, 35⟩ 0).setReason R.RFE_STAT Rc.OK

/-- The first item that refuses a word M for slot `n`. -/
def Chip.profMCheck (s : Chip) (n m : Nat) : Nat :=
  let rx := mRxbw m
  if mValid m && s.profF n = 0 then Rc.BAND
  else if mPwr m = 63 ∨ 24 < bits m 4 0 ∨ (12 ≤ rx ∧ rx ≤ 14) ∨ (mValid m ∧ mMode m = 0) then Rc.RANGE
  else if mPwr m < mMinPwr m ∨ (mMode m ≠ 0 ∧ tooNarrow (mMode m) (s.msetOf m) rx) then Rc.COMBINATION
  else if s.bit F.RFE_CTL_EN && !bitOf (s.fld F.RFE_STAT_MASKOK) (mFir m) then Rc.MASK
  else if s.bit F.RFE_CTL_EN && s.fld (F.EGY_DECL_PEAK 4) < txClaim (mPwr m) then Rc.BUDGET
  else Rc.OK

def profMMask : Nat := 0xFFFFFFF1F

/-- A write of RFE_PROFn_M. -/
def Chip.profMWrite (s : Chip) (ag : Agent) (n : Nat) (v : Word) : Chip :=
  s.ifRadioOpen ag R.RFE_STAT fun s =>
    let m := v.toNat &&& profMMask
    if 8 ≤ n then s
    else
      let code := s.profMCheck n m
      let s1 := if code = Rc.OK then s.setReg (R.RFE_PROF_M n) (W m) else s
      s1.setReason R.RFE_STAT code

/-- The valid profile slots. -/
def Chip.validProfs (s : Chip) : List Nat := ((List.range 8).map s.profM).filter mValid

/-! ### The FIR check (R162 to R164) -/

def Chip.firTaps (s : Chip) (k : Nat) : List Int :=
  (List.range 32).map (fun i => signed 12 (bits (s.reg (R.RFE_FIR k (i / 3))).toNat (12 * (i % 3) + 11) (12 * (i % 3))))

def sumInt (l : List Int) : Int := l.foldl (· + ·) 0

/-- The squared magnitude of the response at OFFSET `o`, times 2^80. -/
def firPower (taps : List Int) (o : Nat) : Int :=
  let p := (taps.zipIdx).foldl (fun (acc : Int × Int) (c, n) =>
    let (a, b) := turn (n * o % 4096)
    (acc.1 + c * a, acc.2 + c * b)) (0, 0)
  let x := p.1 / 2 ^ 8
  let y := p.2 / 2 ^ 8
  x * x + y * y

/-- 10^(1 / 200) times 2^48: 0.05 dB in power. -/
def dB05 : Int := 284734303328783

/-- Whether a set meets a mask point: surely (one exactly at the limit passes; 2^-30 covers the arithmetic of
this definition), surely not, or too close above the limit to tell at 0.05 dB.
[DESIGN CHOICE, safe: notes/assumptions/61] -/
def maskPoint (taps : List Int) (o limit : Nat) : Option Bool :=
  let dc := sumInt taps
  let a := firPower taps o * quarterDb limit
  let ref := dc * dc * 2 ^ 128
  if a * 2 ^ 30 ≤ ref * (2 ^ 30 + 1) then some true
  else if ref * dB05 < a * 2 ^ 48 then some false
  else none

/-- The outcome of a set at the valid mask points; `free` decides the points too close to tell. -/
def Chip.maskOk (s : Chip) (taps : List Int) (free : Bool) : Bool :=
  (List.range 16).all (fun p =>
    !s.bit (F.RFE_MASK_VALID p) || (maskPoint taps (s.fld (F.RFE_MASK_OFFSET p)) (s.fld (F.RFE_MASK_LIMIT p))).getD free)

/-- The DC gain lies in its range. -/
def gainOk (taps : List Int) : Bool := 1024 ≤ sumInt taps && sumInt taps ≤ 4095

/-- The code that a set gets: OK, RANGE or MASK.
[DESIGN CHOICE, safe: notes/assumptions/61] [DEDUCED, unsafe: notes/assumptions/103] -/
def Chip.firCode (s : Chip) (k : Nat) : Nat :=
  let taps := s.firTaps k
  if !gainOk taps then Rc.RANGE
  else if s.maskOk taps (Config.freeBool (s.free + k)) then Rc.OK else Rc.MASK

/-! ### Enables (R164, R177, R178, R203) -/

/-- Put EN and ACTIVE to 1. -/
def Chip.enableBlock (s : Chip) (b : Block) : Chip :=
  let ctl := blockStat b - 1
  ((({ s with stopping := s.stopping.filter (· ≠ b) }).setBit ⟨ctl, 0, 0⟩ true).setBit ⟨blockStat b, 8, 8⟩ true).setReason (blockStat b) Rc.OK

/-- A write of EN = 1 whose check answers `code`. -/
def Chip.enableIf (s : Chip) (b : Block) (code : Nat) : Chip :=
  if s.bit ⟨blockStat b - 1, 0, 0⟩ then s
  else if code = Rc.OK then s.enableBlock b else s.setReason (blockStat b) code

/-- The check of SYN_CTL.EN. -/
def Chip.synCode (s : Chip) : Nat :=
  if !s.prov 3 then Rc.CLOCK_OFF else if s.fld (F.EGY_DECL_PEAK 5) < 48 then Rc.BUDGET else Rc.OK

def Chip.synEnable (s : Chip) : Chip := s.enableIf .syn s.synCode

/-- The check of RFE_CTL.EN before the coefficient sets. -/
def Chip.rfeCode (s : Chip) : Nat :=
  if !s.bit F.SYN_CTL_EN then Rc.CLOCK_OFF
  else if s.validProfs.any (fun m => s.fld (F.EGY_DECL_PEAK 4) < txClaim (mPwr m)) then Rc.BUDGET else Rc.OK

/-- The first code other than OK of the sets that valid profiles name; `codes` are those of sets 0 to 3. -/
def Chip.setsCode (s : Chip) (codes : List Nat) : Nat :=
  let named := (List.range 4).filter (fun k => s.validProfs.any (fun m => mFir m = k))
  ((named.map (fun k => codes.getD k 0)).find? (· ≠ Rc.OK)).getD Rc.OK

/-- The sets' codes as the last enable found them: they cannot change while RFE is enabled (R164). -/
def Chip.keptCodes (s : Chip) : List Nat :=
  (List.range 4).map (fun k =>
    if bitOf (s.fld F.RFE_STAT_MASKOK) k then Rc.OK else if gainOk (s.firTaps k) then Rc.MASK else Rc.RANGE)

def Chip.rfeEnable (s : Chip) : Chip :=
  if s.bit F.RFE_CTL_EN then s
  else if s.rfeCode ≠ Rc.OK then s.setReason R.RFE_STAT s.rfeCode
  else
    let codes := (List.range 4).map s.firCode
    let ok := codes.zipIdx.foldl (fun acc (c, k) => putBit acc k (c = Rc.OK)) 0
    let code := s.setsCode codes
    (({ s with free := s.free + 4 }).setFld F.RFE_STAT_MASKOK ok).enableIf .rfe code

/-- The pin meanings that a coexistence role needs (R177). -/
def Chip.cxPinsOk (s : Chip) : Bool :=
  if s.fld F.CX_CFG_ROLE = 1 then
    s.assigned Mean.CX_REQ .slot && s.assigned Mean.CX_GNT .slot && (s.fld F.CX_CFG_PRISRC = 0 || s.assigned Mean.CX_PRI .slot)
  else [Mean.CX_REQ, Mean.CX_PRI, Mean.CX_GNT].all (fun m => s.assigned m .run && s.assigned m .slot)

/-- CX_GNT from the table in force (R176). -/
def Chip.cxGrant (s : Chip) : Chip :=
  if s.arbiter then
    let i := 2 * (s.inputLevel Mean.CX_PRI).toNat + (s.inputLevel Mean.CX_REQ).toNat
    s.setLatch { s.pins.latch with cxGnt := bitOf (s.fld F.CX_ARBCUR_TABLE) i }
  else s

/-- The check of CX_CTL.EN (R177). -/
def Chip.cxCode (s : Chip) : Nat :=
  let role := s.fld F.CX_CFG_ROLE
  if role = 3 then Rc.RANGE else if role = 0 then Rc.COMBINATION
  else if !s.cxPinsOk then Rc.PIN_PHASE
  else if role = 1 && !s.bit F.RFE_CTL_EN then Rc.COMBINATION
  else Rc.OK

def Chip.cxEnable (s : Chip) : Chip := (s.enableIf .cx s.cxCode).cxGrant

/-- The check that a write of a stream-set register at `a` of an enabled radio block passes, as a write of EN = 1 does (R67). -/
def Chip.enabledCode (s : Chip) (a : Nat) : Nat :=
  if a = R.SYN_CFG then (if s.bit F.SYN_CTL_EN then s.synCode else Rc.OK)
  else if a = R.CX_CFG then (if s.bit F.CX_CTL_EN then s.cxCode else Rc.OK)
  else if a = R.RFE_CFG ∨ a = R.RFE_AGC then
    (if !s.bit F.RFE_CTL_EN then Rc.OK else if s.rfeCode ≠ Rc.OK then s.rfeCode else s.setsCode s.keptCodes)
  else Rc.OK

def Chip.mdmEnable (s : Chip) : Chip :=
  let code :=
    if !s.prov 4 || !s.bit F.RFE_CTL_EN then Rc.CLOCK_OFF
    else if s.fld (F.EGY_DECL_PEAK 3) < 67 then Rc.BUDGET else Rc.OK
  (s.enableIf .mdm code).updatePll

/-- A write of EN = 0 to SYN, RFE, CX or MDM (R16, R178, R203): the block runs on to the end of the
cell's radio activity.
[DEDUCED, unsafe: notes/assumptions/56] [DEDUCED, unsafe: notes/assumptions/107] -/
def Chip.radioDisable (s : Chip) (b : Block) : Chip :=
  let en : Fld := ⟨blockStat b - 1, 0, 0⟩
  if !s.bit en then s
  else
    let s1 := s.setBit en false
    let s2 := { s1 with stopping := b :: s1.stopping }
    let s3 := if s.radioIdle || b = .cx then s2.blockStopped b else s2
    if b = .cx then s3.setLatch { s3.pins.latch with cxReq := false, cxPri := false, cxGnt := false }
    else if b = .mdm then s3.updatePll else s3

/-! ### Parameter sets (R202, R224, R233) -/

def setMask (mm : Nat) : Nat := match mm with | 1 => 0xFFFFFF7F8 | 2 => 0xF7C | _ => 0xFFC1FF000

def setCheck (mm w : Nat) : Nat :=
  match mm with
  | 1 => if lsSwf w < 6 ∨ 14 < lsSwf w ∨ lsNpre w < 8 then Rc.RANGE else Rc.OK
  | 2 => if bits w 11 10 = 3 ∨ cmMod w = 3 ∨ cmCr w = 3 then Rc.RANGE else Rc.OK
  | _ =>
    if fkFec w = 3 ∨ fkNpre w < 4 ∨ 1000 < fkNpre w then Rc.RANGE
    else if bitOf w 17 ∧ fkFec w = 0 then Rc.COMBINATION else Rc.OK

/-- A write of parameter set `m` of a mode. -/
def Chip.mdmSetWrite (s : Chip) (ag : Agent) (mm m : Nat) (v : Word) : Chip :=
  s.ifRadioOwner ag R.MDM_STAT fun s =>
    let w := v.toNat &&& setMask mm
    let wide := s.validProfs.any (fun p => mMode p = mm && mMset p = m && tooNarrow mm w (mRxbw p))
    let code := if setCheck mm w ≠ Rc.OK then setCheck mm w else if wide then Rc.COMBINATION else Rc.OK
    if 8 ≤ m then s
    else (if code = Rc.OK then s.setReg (mdmSet mm m) (W w) else s).setReason R.MDM_STAT code

/-! ### Locks and calibrations (R154 to R158) -/

def Chip.temp (s : Chip) : Int := signed 9 (s.fld F.EGY_STAT_TEMP)

/-- The temperature has moved by more than DELTA from `t0`, and DELTA is not 0.
[DEDUCED, unsafe: notes/assumptions/101] -/
def Chip.tempMoved (s : Chip) (t0 : Nat) : Bool :=
  let d := s.temp - signed 9 t0
  s.fld F.SYN_CFG_DELTA ≠ 0 && ((s.fld F.SYN_CFG_DELTA : Int) < d || (s.fld F.SYN_CFG_DELTA : Int) < -d)

def Chip.needsCal (s : Chip) : Bool := !s.bit F.SYN_STAT_CALVALID || s.tempMoved (s.fld F.SYN_STAT_TCAL)

/-- The deadline of step `k` of a cell's calibration (R156); a relock for an acknowledgement has none.
[DEDUCED, unsafe: notes/assumptions/32] -/
def Chip.calDeadline (s : Chip) (l : Live) (k : Nat) : Option Nat :=
  if s.fld F.LNK_STAT_LIVE = 3 then none
  else if l.c.tx then some (s.deadlineOf l - s.ramp - us 180 + us 45 * k)
  else l.win.map (fun w => w.closeAt - us 180 + us 45 * k)

/-- Claim the step of a job. -/
def Chip.claimStep (s : Chip) (j : SynJob) (dur : Nat) (deadline : Option Nat) : Chip :=
  (s.setSyn { s.syn with job := j, stepEnd := none }).claim 5 48 dur false none deadline

/-- The live cell wants a lock that has not been started. -/
def Chip.wantsLock (s : Chip) : Bool :=
  match s.lnk.live with
  | some l => l.granted && s.syn.lockFrom.isNone && !s.bit F.SYN_STAT_LOCK && l.rampAt.isNone
  | none => false

/-- The lock of the live cell starts, with a calibration where R154 asks for one; it waits while a
calibration runs. -/
def Chip.startLock (s : Chip) : Chip :=
  match s.lnk.live, s.syn.job with
  | some l, .idle =>
    let s1 := s.setFld F.SYN_FREQ_FREQ l.freq
    if s1.needsCal then
      ((s1.setSyn { s1.syn with bad := false, orphan := false }).setFld F.RFE_STAT_STATE 4).claimStep (.cell 0) 45 (s1.calDeadline l 0)
    else (s1.setSyn { s1.syn with lockFrom := some s1.now }).setFld F.RFE_STAT_STATE 1
  | _, _ => s

def Chip.resumeLock (s : Chip) : Chip := if s.wantsLock then s.startLock else s

/-- A calibration ends; with no cell in progress, disabled radio blocks stop (R178). -/
def Chip.calOver (s : Chip) : Chip :=
  let s1 := ((s.setSyn { s.syn with job := .idle, stepEnd := none, bad := false, orphan := false, idleSince := s.now }).setBit
    F.SYN_STAT_CALRUN false).setFld F.RFE_STAT_STATE (if s.lnk.live.isSome then 1 else 0)
  if s1.lnk.live.isNone then s1.radioStops else s1

/-- A cell's calibration failed with `code` (R155, R156): the cell ends; its entry is returned for LATE
only.
[DEDUCED, unsafe: notes/assumptions/31] [DEDUCED, unsafe: notes/assumptions/102] -/
def Chip.calFailed (s : Chip) (code : Nat) : Chip :=
  match s.lnk.live with
  | none => s
  | some l =>
    if s.fld F.LNK_STAT_LIVE = 3 then s.ackEnd l code code
    else if l.c.tx && code = Rc.LATE then s.endCellEntry l code (s.deadlineOf l)
    else s.endCell l code

/-- A commanded calibration is never abandoned: a step that Bear denied is claimed again (R156). -/
def Chip.calReclaim (s : Chip) : Chip :=
  match s.syn.job with
  | .cmd k => if s.syn.stepEnd.isNone && (s.claimOf 5).isNone && !s.holds 5 then s.claimStep (.cmd k) 45 none else s
  | _ => s

/-- Bear's answer to claimant 5; a denied step of a commanded calibration is claimed again in the next cycle. -/
def Chip.synAnswer (s : Chip) (r : Answer) : Chip :=
  let y := s.syn
  match r.kind, y.job with
  | _, .idle => s
  | .grant, .bg k =>
    (s.setSyn { y with stepEnd := some (s.now + us ([40, 50, 50, 45].getD k 45)) }).setFld F.RFE_STAT_STATE 5
  | .grant, _ => ((s.setSyn { y with stepEnd := some (s.now + us 45) }).setBit F.SYN_STAT_CALRUN true).setFld F.RFE_STAT_STATE 4
  | .deny, .cell _ => s.calOver.calFailed r.code
  | .deny, .cmd _ => s.setReason R.SYN_STAT r.code
  -- denied LATE, it waits for a later gap (R173)
  | .deny, .bg _ => let s1 := s.calOver; s1.setSyn { s1.syn with idleSince := y.idleSince, gapLate := r.code = Rc.LATE }
  | _, _ => s

/-- LOCK = 1. -/
def Chip.locked (s : Chip) : Chip :=
  ((s.setSyn { s.syn with lockFrom := none }).setBit F.SYN_STAT_LOCK true).setReason R.SYN_STAT Rc.OK

/-- SYN posts UNLOCKED or VCO_RANGE (source 71). -/
def Chip.radioFail (s : Chip) (code : Nat) : Chip := (s.setReason R.SYN_STAT code).occ 71

/-- The last of the four steps has ended.  The calibration ends locked on the frequency of the cell being prepared (R154),
unless the loop finds no lock, which 60 µs later is UNLOCKED (tLFAIL, R158).
[DESIGN CHOICE, safe: notes/assumptions/65]
[DEDUCED, unsafe: notes/assumptions/102] -/
def Chip.calComplete (s : Chip) (bad cell : Bool) : Chip :=
  let s1 := s.calOver
  if bad then
    let s2 := (s1.setBit F.SYN_STAT_CALVALID false).radioFail Rc.VCO_RANGE
    if cell then s2.calFailed Rc.VCO_RANGE else s2.resumeLock
  else
    let s2 := ((s1.setFld F.SYN_STAT_TCAL (s1.fld F.EGY_STAT_TEMP)).setBit F.SYN_STAT_CALVALID true).setReason R.SYN_STAT Rc.OK
    match s2.lnk.live with
    | some l =>
      if cell || s2.wantsLock then
        let s3 := (s2.setFld F.SYN_FREQ_FREQ l.freq).draw
        if Config.freeBool s2.free then s3.locked else (s3.setSyn { s3.syn with lockFrom := some s3.now }).setFld F.RFE_STAT_STATE 1
      else s2
    | none => s2

/-- The step after step `k`, of the same calibration. -/
def SynJob.next : SynJob → SynJob
  | .cmd k => .cmd (k + 1) | .cell k => .cell (k + 1) | j => j

/-- A 45 µs step ends; `ok` says whether it found a VCO setting for its part of the bands. -/
def Chip.calStepDone (s : Chip) (ok : Bool) : Chip :=
  let y := s.syn
  let step (k : Nat) (cell : Bool) : Chip :=
    if y.stepEnd.isNone then s
    else
      let s1 := s.endGrant 5
      let bad := y.bad || !ok
      if y.orphan then s1.calOver.resumeLock
      else if k < 3 then
        let dl := match cell, s1.lnk.live with
          | true, some l => s1.calDeadline l (k + 1)
          | _, _ => none
        (s1.setSyn { s1.syn with bad := bad }).claimStep y.job.next 45 dl
      else s1.calComplete bad cell
  match y.job with
  | .cmd k => step k false
  | .cell k => step k true
  | _ => s

/-- A commanded calibration starts (R157). -/
def Chip.startCmdCal (s : Chip) : Chip :=
  ((s.setBit F.SYN_STAT_CALPEND false).setSyn { s.syn with bad := false, orphan := false }).claimStep (.cmd 0) 45 none

/-- A background step stops, and its result is discarded (R173). -/
def Chip.stopBg (s : Chip) : Chip :=
  match s.syn.job with
  | .bg _ => s.calOver.release 5
  | _ => s

/-- A write of SYN_CMD.CAL = 1.  A background step is stopped and the calibration starts at once.
[DESIGN CHOICE, unsafe: notes/assumptions/194] -/
def Chip.synCal (s : Chip) : Chip :=
  if !s.bit F.SYN_CTL_EN then s.setReason R.SYN_STAT Rc.BUSY
  else
    match s.syn.job with
    | .cmd _ => s.setReason R.SYN_STAT Rc.BUSY
    | .cell _ => s.setReason R.SYN_STAT Rc.BUSY
    | _ =>
      if s.bit F.SYN_STAT_CALPEND then s.setReason R.SYN_STAT Rc.BUSY
      else if s.lnk.live.isNone then (s.stopBg.setReason R.SYN_STAT Rc.OK).startCmdCal
      else (s.setBit F.SYN_STAT_CALPEND true).setReason R.SYN_STAT Rc.OK

/-- The radio is idle again and a commanded calibration waits; it starts even if SYN was disabled in the meantime.
[DESIGN CHOICE, unsafe: notes/assumptions/194] [DESIGN CHOICE, unsafe: notes/assumptions/195] -/
def Chip.calPending (s : Chip) : Chip :=
  if s.bit F.SYN_STAT_CALPEND && s.lnk.live.isNone then
    match s.syn.job with
    | .idle => s.startCmdCal
    | .bg _ => s.stopBg.startCmdCal
    | _ => s
  else s

def Chip.synLock (s : Chip) : Chip := if s.syn.lockFrom.isSome then s.locked else s

def Chip.lockFail (s : Chip) : Chip := if s.syn.lockFrom.isSome then s.radioFail Rc.UNLOCKED else s

/-- A transmission ends early: its PA ramps down until `t`.
[DEDUCED, unsafe: notes/assumptions/55] -/
def Chip.abortTx (s : Chip) (l : Live) (code t : Nat) : Chip := s.setLive { l with abort := some code, txEnd := some t }

/-- A transmission is under way. -/
def Live.onAir (l : Live) : Bool := l.rampAt.isSome && l.txEnd.isSome && l.abort.isNone

/-- A reception is under way: a window is open and its frame has not ended. -/
def Live.receiving (l : Live) : Bool :=
  match l.win with
  | some w => w.opened && w.st ≠ .done && w.st ≠ .handed
  | none => false

/-- LOCK drops (R158).
[DEDUCED, unsafe: notes/assumptions/55] -/
def Chip.lockLost (s : Chip) : Chip :=
  if !s.bit F.SYN_STAT_LOCK then s
  else
    let s1 := (s.setBit F.SYN_STAT_LOCK false).radioFail Rc.UNLOCKED
    match s1.lnk.live with
    | none => s1
    | some l =>
      if l.onAir then s1.abortTx l Rc.UNLOCKED (s1.now + min (us 2) s1.ramp)
      else if l.receiving then
        if s1.fld F.LNK_STAT_LIVE = 3 then
          s1.setLive { l with win := l.win.map (fun w => { w with failed := some Rc.UNLOCKED, st := .search, closeAt := s1.now }) }
        else s1.endCell l Rc.UNLOCKED
      else if l.rampAt.isNone then s1.setSyn { s1.syn with lockFrom := some s1.now }
      else s1

/-! ### Background calibrations (R172, R173) -/

/-- The background calibrations that time and temperature make due; one that has never completed counts from time 0 and 0 °C.
[DEDUCED, unsafe: notes/assumptions/101] [DESIGN CHOICE, unsafe: notes/assumptions/196] -/
def Chip.bgMask (s : Chip) : Nat :=
  (List.range 4).foldl (fun acc k =>
    let (t, c) := s.syn.bgDone.getD k (0, 0)
    let timed := bitOf (s.fld F.RFE_CFG_BGEN) k && s.fld F.RFE_CFG_BGINT ≠ 0 && t + secs (10 * s.fld F.RFE_CFG_BGINT) ≤ s.now
    putBit acc k (bitOf acc k || timed || s.tempMoved c)) s.syn.bgDue

def Chip.bgDue (s : Chip) : Chip := s.setSyn { s.syn with bgDue := s.bgMask }

/-- A write of RFE_CMD.BGCAL = 1. -/
def Chip.bgCmd (s : Chip) : Chip := s.setSyn { s.syn with bgDue := s.syn.bgDue ||| s.fld F.RFE_CFG_BGEN }

/-- A due step starts in a qualifying gap; `prep` is the next cell's preparation start. -/
def Chip.bgStart (s : Chip) (prep : Option Nat) : Chip :=
  match (List.range 4).find? (fun k => bitOf s.syn.bgDue k) with
  | none => s
  | some k =>
    let dur := [40, 50, 50, 45].getD k 45
    let gap := match prep with
      | none => true
      | some t => s.syn.idleSince + us 300 ≤ t && s.now + us (dur + 10) ≤ t && !(s.syn.gapLate && s.syn.gap = some t)
    if s.pwr.st = .run && s.bit F.SYN_CTL_EN && s.bit F.RFE_CTL_EN && s.radioIdle && gap then
      (s.setSyn { s.syn with gap := prep, gapLate := false }).claimStep (.bg k) dur (prep.map (fun t => t - us (dur + 10)))
    else s

/-- A background step completes. -/
def Chip.bgStepDone (s : Chip) : Chip :=
  match s.syn.job, s.syn.stepEnd with
  | .bg k, some _ =>
    let s1 := s.calOver
    let s2 := s1.setSyn { s1.syn with bgDue := putBit s1.syn.bgDue k false,
                                      bgDone := setAt s1.syn.bgDone k (s1.now, s1.fld F.EGY_STAT_TEMP), idleSince := s.syn.idleSince }
    s2.endGrant 5
  | _, _ => s

/-! ### Coexistence (R171, R174 to R176) -/

/-- Coexistence ended an activity (source 72). -/
def Chip.cxCount (s : Chip) : Chip := (s.count F.CX_CNT_COUNT).occ 72

/-- The level on CX_GNT as a requester samples it: the board drives it where neither it nor a pull gives that level already. -/
def Chip.driveGnt (s : Chip) (gnt : Bool) : Chip := if !s.requester || s.padIn 10 = gnt then s else s.drivePin 10 gnt

/-- Requester role, and CX_GNT is low. -/
def Chip.cxDenies (s : Chip) : Bool := s.requester && !s.inputLevel Mean.CX_GNT

/-- A requester loses the grant: LOSSPOL 1 ends its transmission (R175). -/
def Chip.gntLost (s : Chip) : Chip :=
  match s.lnk.live with
  | some l => if s.requester && l.cxLoss && l.onAir then (s.abortTx l Rc.CX_LOST (s.now + us 1 + s.ramp)).cxCount else s
  | none => s

/-- CX_GNT falls: the edge is seen where a pin that was high carries the meaning (R81). -/
def Chip.cxGntFall (s : Chip) : Chip := s.inputEdge Mean.CX_GNT false Chip.gntLost

/-- CX_REQ and CX_PRI take new levels. -/
def Chip.cxArb (s : Chip) (req pri : Bool) : Chip := ((s.drivePin 8 req).drivePin 9 pri).cxGrant

/-- The next table comes into force. -/
def Chip.arbCopy (s : Chip) : Chip := (s.setReg R.CX_ARBCUR (s.reg R.CX_ARBNXT)).cxGrant

/-- A write of CX_ARBNXT.
[DEDUCED, unsafe: notes/assumptions/106] -/
def Chip.arbNxtWrite (s : Chip) (ag : Agent) (v : Word) : Chip :=
  if ag ≠ .badger then s.setReason R.CX_STAT Rc.OWNED
  else
    let s1 := (s.setFld F.CX_ARBNXT_TABLE v.toNat).setReason R.CX_STAT Rc.OK
    if s1.bit F.LNK_CTL_EN then s1 else s1.arbCopy

/-- CX_STAT as it reads. -/
def Chip.cxStatView (s : Chip) : Word :=
  let l := s.pins.latch
  let arb := s.arbiter
  let req := if s.requester then l.cxReq else s.inputLevel Mean.CX_REQ
  let pri := if s.requester then l.cxPri else s.inputLevel Mean.CX_PRI
  let gnt := if arb then l.cxGnt else s.inputLevel Mean.CX_GNT
  W (((s.reg R.CX_STAT).toNat % 512) ||| gnt.toNat <<< 13 ||| req.toNat <<< 12 ||| pri.toNat <<< 11)

/-! ### Transmit start (R161, R165, R171) -/

/-- MDM_STAT.LIVE while transmitting and while receiving. -/
def liveTx (mm : Nat) : Nat := match mm with | 1 => 3 | 2 => 5 | _ => 7
def liveRx (mm : Nat) : Nat := match mm with | 1 => 1 | 2 => 4 | _ => 6

/-- TXEN rises. -/
def Chip.txenRise (s : Chip) : Chip :=
  match s.lnk.live with
  | some l => if l.rampAt.isNone then (s.setLive { l with txenUp := true }).setLatch { s.pins.latch with txen := true } else s
  | none => s

/-- The PA ramps up for a frame. -/
def Chip.rampFor (s : Chip) (l : Live) (octets : List Byte) : Chip :=
  let start := s.now + s.ramp
  let e := start + airTime l.mm l.mset octets.length
  let l1 := { l with rampAt := some s.now, held := false, octets := octets, e := e, txEnd := some (e + s.ramp), txenUp := true }
  let s1 := (s.setLive l1).setLatch { s.pins.latch with txen := true }
  let air : Radiated := { start := start, freq := l.freq, pwr := l.pwr, mm := l.mm, mset := l.mset, parts := airFrame l.mm l.mset octets,
                          taps := l.taps, fs := l.fs }
  (((s1.setLnk { s1.lnk with air := some air }).setFld F.RFE_STAT_LASTPWR l.pwr).setFld F.RFE_STAT_STATE 3).setFld F.MDM_STAT_LIVE
    (liveTx l.mm)

/-- Transmit start at RFIO, the ramp behind it (R165): the publisher of R424. -/
def Chip.txStartPulse (s : Chip) : Chip :=
  if s.lnk.air.any (fun a => a.start = s.now) && s.lnk.live.any (fun l => l.rampAt.isSome && l.abort.isNone) then s.publish 124 else s

/-- The transmission of the entry starts. -/
def Chip.startTx (s : Chip) (l0 : Live) : Chip :=
  let l := { l0 with done := none }
  let frame := match s.headEntry l.c.q with
    | some a => s.rdBs (4 * bits (s.rd a).toNat 23 0) (bits (s.rd (a + 1)).toNat 10 0)
    | none => []
  let s1 := s.rampFor l frame
  let i := l.c.q - 8
  (s1.setLnk { s1.lnk with tries := setAt s1.lnk.tries i (s1.lnk.tries.getD i 0 + 1) }).setFld F.LNK_STAT_LIVE 2

/-- A calibration runs (R171). -/
def Chip.calRuns (s : Chip) : Bool := s.bit F.SYN_STAT_CALRUN

/-- The transmission is dropped with LATE, stamped at the deadline; a hold on a low CX_GNT counts (R175). -/
def Chip.dropLate (s : Chip) (l : Live) : Chip :=
  let s1 := if l.cxHeld then s.cxCount else s
  s1.endCellEntry l Rc.LATE (s1.deadlineOf l)

/-- One pass of the rule of R171. -/
def Chip.txRule (s : Chip) (l : Live) : Chip :=
  if s.deadlineOf l < s.now + s.ramp then s.dropLate l
  else if !s.bit F.SYN_STAT_LOCK || s.calRuns then s.setLive { l with held := true, cxHeld := false }
  else if s.cxDenies then
    if l.cxTx then (s.endCellEntry l Rc.CX_DENIED (s.startOf l)).cxCount
    else s.setLive { l with held := true, cxHeld := true }
  else s.startTx l

/-- The live cell is a transmit cell before its ramp. -/
def Chip.txWaiting (s : Chip) : Option Live :=
  match s.lnk.live with
  | some l => if l.c.tx && s.inPrep && l.rampAt.isNone then some l else none
  | none => none

/-- The scheduled ramp start; `gnt` is the level on CX_GNT. -/
def Chip.txRampStart (s : Chip) (gnt : Bool) : Chip :=
  let s1 := s.driveGnt gnt
  match s1.txWaiting with
  | some l => if l.held then s1 else s1.txRule l
  | none => s1

/-- A held transmission is examined again. -/
def Chip.txHoldResolve (s : Chip) (gnt : Bool) : Chip :=
  let s1 := s.driveGnt gnt
  match s1.txWaiting with
  | some l => if l.held then s1.txRule l else s1
  | none => s1

/-- A held transmission passes its deadline. -/
def Chip.txDeadlineDrop (s : Chip) : Chip :=
  match s.txWaiting with
  | some l => if l.held then s.dropLate l else s
  | none => s

/-- A VSYS warning ends a transmission (R99). -/
def Chip.warnTx (s : Chip) : Chip :=
  match s.lnk.live with
  | some l => if l.onAir then s.abortTx l Rc.BUDGET (s.now + s.ramp) else s
  | none => s

/-! ### Gain control (R166, R168) -/

/-- The gain code after a period whose mean power at the ADC is `p`, in hundredths of a decibel of full
scale. -/
def agcStep (g hi : Nat) (p : Int) : Nat :=
  if -(100 * hi : Int) < p ∧ g < 24 then g + 1
  else if p < -(100 * (hi + 6) : Int) ∧ 0 < g then g - 1
  else g

/-- The AGC period of a profile word. -/
def agcPeriod (m : Nat) : Nat := us (2 ^ bits m 10 8)

/-- An AGC period ends; `rssi` is the detector's reading averaged over it, in half dBm. -/
def Chip.agcPeriodEnd (s : Chip) (p rssi : Int) : Chip :=
  match s.lnk.live with
  | none => s
  | some l =>
    match l.win with
    | none => s
    | some w =>
      if !w.opened || w.agcAt.isNone then s
      else
        let frozen := bitOf l.m 17 || w.st = .synced || w.st = .header
        let g := if frozen then w.gain else agcStep w.gain l.hi p
        (s.setLive { l with win := some { w with gain := g, agcAt := some (s.now + agcPeriod l.m) } }).setFld F.RFE_RSSI_RSSI (unsigned 10 rssi)

end Sys2Proof.Machine
end

