-- ==== Sys2Proof/Machine/Engine.lean ====
section
/-!
DEFINITION. The slot engine: choice, preparation, boundaries, time correction, bookings, enable and
registers (spec/09 R236 to R247, R257 to R262, R270 to R274).
-/
namespace Sys2Proof.Machine

/-! ### Slotframes and cells (R239, R240) -/

def Chip.sfWord (s : Chip) (f : Nat) : Nat := (s.reg (R.LNK_SF f)).toNat
def sfOn (w : Nat) : Bool := bitOf w 15
def sfHop (w : Nat) : Bool := bitOf w 14
def sfClass (w : Nat) : Nat := bits w 13 12
def sfSize (w : Nat) : Nat := bits w 11 0 + 1

/-- The VALID cells: index and words 0 and 1, by index. -/
def Chip.validCells (s : Chip) : List (Nat × Nat × Nat) :=
  s.regs.filterMap (fun (a, w) =>
    if 0x30A800 ≤ a && a < 0x30B000 && (a - 0x30A800) % 2 = 0 && bitOf w.toNat 35 then
      some ((a - 0x30A800) / 2, w.toNat, (s.reg (a + 1)).toNat)
    else none)

def cellSf (w0 : Nat) : Nat := bits w0 34 32
def cellTy (w0 : Nat) : Nat := bits w0 13 12
def cellNbr (w0 : Nat) : Nat := bits w0 11 5

/-- The cell's slotframe is enabled, runs class `c`, and its slot is active at ASN `n`. -/
def Chip.cellActive (s : Chip) (c n w0 : Nat) : Bool :=
  let f := s.sfWord (cellSf w0)
  sfOn f && sfClass f = c && bits w0 31 20 = n % sfSize f

/-- The candidates of a slot in the order of R243. -/
def Chip.candidates (s : Chip) (c n : Nat) : List (Nat × Nat × Nat) :=
  sortBy (fun e => cellSf e.2.1 * 1024 + e.1) (s.validCells.filter (fun e => s.cellActive c n e.2.1))

/-- The cell may transmit, or receive. -/
def cellSends (w0 w1 : Nat) : Bool := cellTy w0 = 0 || cellTy w0 = 2 || (cellTy w0 = 3 && bitOf w1 27)
def cellReceives (w0 w1 : Nat) : Bool := cellTy w0 = 1 || cellTy w0 = 2 || (cellTy w0 = 3 && !bitOf w1 27)

/-- An entry for neighbour `e` matches a cell (R244). -/
def nbrMatches (w0 e : Nat) : Bool :=
  if cellNbr w0 = 127 then cellTy w0 = 2 || e = 127 else e = cellNbr w0

/-- The head entry of queue `q` matches the cell and is not booked to another. -/
def Chip.headMatches (s : Chip) (q c n index w0 : Nat) (books : Bool) : Bool :=
  match s.headEntry q with
  | none => false
  | some a =>
    nbrMatches w0 (bits (s.rd a).toNat 35 29) && !s.leaving q &&
      (!books || match s.lnk.books.getD (q - 8) none with
        | none => true
        | some k => k.cls = c && k.asn = n && k.cell = index)

/-- The queues in the order of service. -/
def txOrder : List Nat := [12, 13, 14, 15, 8, 9, 10, 11]

def Chip.backoffCount (s : Chip) (q : Nat) : Nat := s.fld ⟨R.LNK_BO q, 6, 0⟩

/-- The first queue that a sending cell serves; in a SHARED cell a matching queue in backoff is passed
over and counts down (R260). -/
def Chip.serveQueue (s : Chip) (c n index w0 w1 : Nat) (books : Bool) : List Nat → Option Nat × Chip
  | [] => (none, s)
  | q :: l =>
    if bitOf w1 (28 + (q - 8)) && s.headMatches q c n index w0 books then
      if cellTy w0 = 2 && s.backoffCount q ≠ 0 then
        (s.setFld ⟨R.LNK_BO q, 6, 0⟩ (s.backoffCount q - 1)).serveQueue c n index w0 w1 books l
      else (some q, s)
    else s.serveQueue c n index w0 w1 books l

/-- The choice among candidates: sending cells first, then receiving ones. -/
def Chip.chooseSend (s : Chip) (c n : Nat) (books : Bool) : List (Nat × Nat × Nat) → Option (Nat × Nat × Nat × Nat) × Chip
  | [] => (none, s)
  | (i, w0, w1) :: l =>
    if cellSends w0 w1 then
      match s.serveQueue c n i w0 w1 books txOrder with
      | (some q, s1) => (some (i, w0, w1, q), s1)
      | (none, s1) => s1.chooseSend c n books l
    else s.chooseSend c n books l

/-- choose(c, a) of R243: cell, words, and the queue of a sending cell. -/
def Chip.choose (s : Chip) (c n : Nat) (books : Bool) : Option (Nat × Nat × Nat × Option Nat) × Chip :=
  let cand := s.candidates c n
  match s.chooseSend c n books cand with
  | (some (i, w0, w1, q), s1) => (some (i, w0, w1, some q), s1)
  | (none, s1) => ((cand.find? (fun e => cellReceives e.2.1 e.2.2)).map (fun (i, w0, w1) => (i, w0, w1, none)), s1)

/-! ### The next SLOT window (R271) -/

/-- The first ASN from `n` on at which a slot offset is active. -/
def nextSlot (n slot size : Nat) : Nat := n + (slot + size - n % size) % size

/-- The channel of a hopping cell at ASN `n`, and whether the cell has a frequency then (R242). -/
def Chip.hopCh (s : Chip) (n w0 : Nat) : Nat :=
  s.fld ⟨R.LNK_HOP ((n + bits w0 19 14) % max 1 (s.fld F.LNK_HOPCFG_HOPLEN)), 5, 0⟩
def Chip.hopSet (s : Chip) (n w0 : Nat) : Bool :=
  !sfHop (s.sfWord (cellSf w0)) || s.fld ⟨R.LNK_CH (s.hopCh n w0), 29, 0⟩ ≠ 0

/-- The least of some instants. -/
def least : List Nat → Option Nat
  | [] => none
  | x :: r => some (r.foldl min x)

/-- The first slot from `n` on, `size` slots apart, whose choice opens a window, and whether it transmits.  The channel of an
occurrence repeats after 64 of them at most. -/
def Chip.opensFrom (s : Chip) (c size : Nat) : Nat → Nat → Option (Nat × Bool)
  | 0, _ => none
  | k + 1, n =>
    match (s.choose c n true).1 with
    | none => none
    | some (_, w0, _, q) => if s.hopSet n w0 then some (n, q.isSome) else s.opensFrom c size k (n + size)

/-- Class, ASN and direction of the next slot that each cell opens, and each booked one. -/
def Chip.occurrences (s : Chip) : List (Nat × Nat × Bool) :=
  s.validCells.filterMap (fun (_, w0, _) =>
    let f := s.sfWord (cellSf w0)
    if sfOn f && bits w0 31 20 < sfSize f then
      (s.opensFrom (sfClass f) (sfSize f) 64 (nextSlot (s.lnk.nextC.getD (sfClass f) 0) (bits w0 31 20) (sfSize f))).map (Prod.mk (sfClass f))
    else none)
  ++ s.lnk.books.filterMap (fun o => o.bind (fun k =>
      if s.lnk.nextC.getD k.cls 0 ≤ k.asn then (s.opensFrom k.cls 1 1 k.asn).map (Prod.mk k.cls) else none))

/-- The opening of the next SLOT window, as the queues and tables stand.
[DEDUCED, unsafe: notes/assumptions/42] -/
def Chip.nextOpening (s : Chip) : Option Nat :=
  if !s.lnk.running then none else least (s.occurrences.map (fun (c, n, _) => (s.boundaryAt c n - s.cxLead).toNat))

def Chip.lnkNextView (s : Chip) : Word :=
  match s.nextOpening with
  | none => 0
  | some t => W (s.stbAt t)

/-- The next preparation start: of a chosen cell, or of one that a later choice will choose as the queues and tables stand. -/
def Chip.nextPrep (s : Chip) : Option Nat :=
  least ((s.lnk.chosen.filter (fun c => c.ended.isNone)).map s.prepAt
    ++ if s.lnk.running then s.occurrences.map (fun (c, n, tx) => s.prepOf c (s.boundaryAt c n).toNat tx (s.fld F.MON_PLAN0_GUARD)) else [])

/-! ### The choice instant (R242, R243, R247, R271) -/

/-- Drop bookings whose preparation start has passed. -/
def Chip.purgeBooks (s : Chip) : Chip :=
  let l := s.lnk
  s.setLnk { l with books := l.books.map (fun o => o.bind (fun k => if k.prepAt < s.now then none else some k)) }

def Chip.setReasons (s : Chip) (code : Nat) : Chip := s.setReason R.LNK_STAT code

/-- A cell ends at its choice, or at its boundary if that lies ahead, without a window. -/
def Chip.endAtChoice (s : Chip) (c : Chosen) (code : Nat) : Chip :=
  let s1 := s.setReasons code
  if c.marked then s1.skipRecord c code
  else s1.setLnk { s1.lnk with chosen := s1.lnk.chosen ++ [{ c with ended := some code }] }

/-- What names the head entry of queue `q`. -/
def Chip.headMark (s : Chip) (q : Nat) : Option (Nat × Nat) := (s.headEntry q).map (fun a => (s.lnk.heads.getD (q - 8) 0, a))

/-- The choice instant of class `c` for its next slot. -/
def Chip.cellChoice (s : Chip) (c : Nat) : Chip :=
  if !s.lnk.running then s
  else
    let n := s.lnk.nextC.getD c 0
    let s0 := s.purgeBooks
    let s1 := s0.setLnk { s0.lnk with nextC := setAt s0.lnk.nextC c (n + 1) }
    let b := (s1.boundaryAt c n).toNat
    match s1.choose c n true with
    | (none, s2) => s2
    | (some (i, w0, w1, q), s2) =>
      let marked := decide (n < s2.lnk.nextB.getD c 0)
      let s3 := s2
      let hop := sfHop (s3.sfWord (cellSf w0))
      let ch := s3.hopCh n w0
      let freq := s3.fld ⟨R.LNK_CH ch, 29, 0⟩
      let k : Chosen := { cls := c, asn := n, b := b, index := i, w0 := w0, w1 := w1, tx := q.isSome, q := q.getD 0,
                          ch := if hop then ch else 63, freq := if hop then some freq else none,
                          guard := s3.fld F.MON_PLAN0_GUARD, marked := marked, due := marked && s3.recordsOn,
                          entry := q.bind (fun q => s3.headMark q) }
      if hop && freq = 0 then s3.endAtChoice k Rc.BAND
      else if s3.pwr.st ≠ .run then s3.endAtChoice k Rc.NOT_AWAKE
      else
        let s4 := if !k.tx && s3.guardOf c k.guard < us k.guard then s3.lnkEvent F.LNK_EVT_GCLAMP else s3
        let s5 := s4.setLnk { s4.lnk with chosen := s4.lnk.chosen ++ [{ k with window := true }] }
        s5.openWindow k

/-! ### Preparation (R170, R205, R195, R245, R248, R249) -/

/-- End a chosen cell that never became live. -/
def Chip.endChosen (s : Chip) (c : Chosen) (code : Nat) : Chip :=
  let s1 := (s.setReasons code).skipRecord c code
  let s2 := if c.tx then s1.setLnk { s1.lnk with unbooked := setAt s1.lnk.unbooked (c.q - 8) false } else s1
  if c.window then s2.closeWindow else s2

/-- D_TX of a frame in whole microseconds (R194). -/
def Chip.dTx (s : Chip) (cls mm mset len : Nat) : Nat := ceilDiv (s.lockLead cls + airTime mm mset len + 2 * s.rampCfg) 32

/-- A transmit cell is prepared: its entry's LEN, its time on air, its claim.  A cell whose chosen entry has left the head
meanwhile sends nothing (R243).
[DEDUCED, unsafe: notes/assumptions/167]
[DEDUCED, unsafe: notes/assumptions/30] [DEDUCED, unsafe: notes/assumptions/100] -/
def Chip.prepTx (s : Chip) (l : Live) : Chip :=
  match s.headEntry l.c.q with
  | none => s.endCell l (if s.qOn l.c.q then Rc.OK else Rc.QUEUE_OFF)
  | some a =>
    if s.headMark l.c.q ≠ l.c.entry || s.leaving l.c.q then s.endCell l Rc.OK else
    let len := bits (s.rd (a + 1)).toNat 10 0
    let code := lenCheck l.mm l.mset len
    let d := s.dTx l.c.cls l.mm l.mset len
    if code ≠ Rc.OK then s.endCellEntry l code (s.startOf l)
    else if 524287000 < d then s.endCellEntry l Rc.TOA_LIMIT (s.startOf l)
    else
      let minP := if s.bit (F.EGY_DECL_FIT 4) then some (txClaim (mMinPwr l.m)) else none
      s.claim 4 (txClaim (mPwr l.m)) d false minP (some (s.deadlineOf l - s.ramp - s.lockLead l.c.cls))

/-- A receive cell is prepared: its window and its claim.
[DEDUCED, unsafe: notes/assumptions/33] -/
def Chip.prepRx (s : Chip) (l : Live) : Chip :=
  let c := l.c.cls
  let ge := s.guardOf c l.c.guard
  let mid := l.c.b + s.txOff c
  let w : RxWin := { openAt := mid - ge, closeAt := mid + ge + tAcq l.mm l.mset }
  (s.setLive { l with win := some w }).claim 3 (rxPower l.mm) (ceilDiv (w.closeAt - s.now) 32) false none (some w.closeAt)

/-- The front end and the modem are running.
[DEDUCED, unsafe: notes/assumptions/99] -/
def Chip.radioOn (s : Chip) : Bool := s.bit F.SYN_CTL_EN && s.bit F.RFE_CTL_EN && s.bit F.MDM_CTL_EN

/-- The preparation start of the first chosen cell of class `c`.
[DEDUCED, unsafe: notes/assumptions/31] [DEDUCED, unsafe: notes/assumptions/99] -/
def Chip.cellPrepStart (s : Chip) (c : Nat) : Chip :=
  match s.lnk.chosen.find? (fun k => k.cls = c && k.ended.isNone) with
  | none => s
  | some k =>
    let s1 := s.setLnk { s.lnk with chosen := s.lnk.chosen.filter (· ≠ k) }
    if s1.lnk.live.isSome then (s1.lnkEvent F.LNK_EVT_OVERLAP).endChosen k Rc.OVERLAP
    else
      let m := s1.profM k.prof
      let s2 := (s1.setFld F.RFE_STAT_PROF k.prof).stopBg
      if !mValid m then (s2.endChosen k Rc.PROFILE_EMPTY).setReason R.RFE_STAT Rc.PROFILE_EMPTY
      else if !s2.radioOn then s2.endChosen k Rc.CLOCK_OFF
      else
        let l : Live := { c := k, freq := k.freq.getD (s2.profF k.prof), m := m, mset := s2.msetOf m,
                          ramp := s2.fld F.RFE_CFG_RAMP, lead := s2.fld F.RFE_CFG_TXENLEAD, hi := s2.fld F.RFE_AGC_HI, taps := s2.firTaps (mFir m),
                          cxTx := s2.bit F.CX_CFG_TXPOL, cxRx := s2.bit F.CX_CFG_RXPOL, cxLoss := s2.bit F.CX_CFG_LOSSPOL,
                          rxw := rxWidth (mMode m) (s2.msetOf m) (mRxbw m), fs := txRate (mMode m) (s2.msetOf m) }
        let s3 := (((s2.setLive l).setFld F.LNK_STAT_LIVE 1).setFld F.LNK_STAT_CLS c).setFld F.RFE_STAT_STATE 1
        if k.tx then s3.prepTx l else s3.prepRx l

/-! ### Time correction (R257, R258) -/

/-- A correction is taken for the next free boundary, or rejected. -/
def Chip.takeCorrection (s : Chip) (d : Int) : Bool × Chip :=
  if (s.fld F.LNK_SYNC_MAXCORR : Int) < d || (s.fld F.LNK_SYNC_MAXCORR : Int) < -d then (false, s.lnkEvent F.LNK_EVT_CORRREJ)
  else (true, s.setLnk { s.lnk with corrs := s.lnk.corrs ++ [d] })

/-- The waiting corrections take effect, and each is passed to the health monitor (R144, R257). -/
def Chip.applyCorrections (s : Chip) : Chip :=
  let s1 := s.lnk.corrs.foldl (fun (x : Chip) d => (x.setFld F.LNK_TOFF_TOFF (unsigned 24 (x.toff + d))).monCorrection d 4) s
  (s1.setLnk { s1.lnk with corrs := [], lastCorr := s1.now, desynced := false }).setBit F.LNK_STAT_SYNCED true

/-- No window is open and no preparation has started.
[DEDUCED, unsafe: notes/assumptions/41] -/
def Chip.boundaryFree (s : Chip) : Bool := s.pins.windows = 0 && s.lnk.live.isNone

/-- A write of LNK_TADJ. -/
def Chip.tadjWrite (s : Chip) (v : Word) : Chip :=
  let (ok, s1) := s.takeCorrection (signed 16 (bits v.toNat 15 0))
  s1.setReasons (if ok then Rc.OK else Rc.CORR_REJECT)

/-- Some neighbour is a time source. -/
def Chip.hasTimeSource (s : Chip) : Bool :=
  (List.range 64).any (fun n => let w := (s.reg (R.LNK_NBR_0 n)).toNat; bitOf w 35 && bitOf w 34)

/-- No correction within DESYNC seconds.
[DEDUCED, unsafe: notes/assumptions/44] -/
def Chip.desyncTimeout (s : Chip) : Chip :=
  if s.lnk.running && !s.lnk.desynced && s.fld F.LNK_SYNC_DESYNC ≠ 0 && s.hasTimeSource then
    let s1 := (s.setLnk { s.lnk with desynced := true }).setBit F.LNK_STAT_SYNCED false
    ((s1.setReasons Rc.DESYNC).lnkEvent F.LNK_EVT_DESYNC).occ 32
  else s

/-! ### Enable and disable (R246, R272, R273) -/

/-- The check of a class's timing.
[DEDUCED, unsafe: notes/assumptions/98] -/
def Chip.classCheck (s : Chip) (c : Nat) : Nat :=
  let floor := us (s.margin 2).2.1
  if s.txOff c < s.lockLead c + s.rampCfg ∨ s.txOff c - s.lockLead c < floor ∨ s.tAck c < s.ackGuard c + s.rampCfg + us 24
      ∨ us (1000 * s.slotLen c) ≤ s.txOff c + s.txLate c then Rc.COMBINATION
  else Rc.OK

/-- The first ASN whose instant at `lead` before its boundary is not past. -/
def Chip.firstAsn (s : Chip) (c lead : Nat) : Nat :=
  let t : Int := (s.now : Int) + lead
  let pos := (if s.clk.lfRc then (t * 125 + 7) / 8 else (t - s.clk.lfPhase) * 16) + 15625 * ((s.owl.stb : Int) - s.lfIdx s.now)
  let len : Int := s.slotLen c * 512000
  let n := (s.asn0 c : Int) + -((s.boundaryPos c (s.asn0 c) - pos) / len)
  let n0 := n.toNat
  if s.boundaryAt c n0 < t then n0 + 1 else n0

/-- The slot engine starts. -/
def Chip.engineStart (s : Chip) : Chip :=
  let l : Lnk := { starts := s.lnk.starts, corrs := s.lnk.corrs, heads := s.lnk.heads, late := s.lnk.late, shadow := s.lnk.shadow, air := s.lnk.air, lfsr := s.fld F.LNK_SEED_SEED, lastCorr := s.now, running := true,
                   nextB := (List.range 4).map (fun c => s.firstAsn c 0), nextC := (List.range 4).map (fun c => s.firstAsn c s.cxLead) }
  let s1 := [8, 9, 10, 11, 12, 13, 14, 15].foldl Chip.resetBackoff (s.setLnk l)
  [8, 9, 10, 11, 12, 13, 14, 15].foldl Chip.headCheck s1

/-- The pin meanings that the coexistence role needs are there. -/
def Chip.lnkPinsOk (s : Chip) : Bool := !s.bit F.CX_CTL_EN || s.cxPinsOk

def Chip.lnkCheck (s : Chip) : Nat :=
  let sfs := ((List.range 8).map s.sfWord).filter sfOn
  if !s.prov 5 || !s.bit F.MDM_CTL_EN then Rc.CLOCK_OFF
  else if !s.lnkPinsOk then Rc.PIN_PHASE
  else if (List.range 16).any (fun q => !s.qOn q || s.qKind q ≠ 1) then Rc.QUEUE_OFF
  else if s.fld (F.EGY_DECL_PEAK 3) = 0 || s.fld (F.EGY_DECL_PEAK 4) = 0 then Rc.BUDGET
  else ((sfs.map (fun w => s.classCheck (sfClass w))).find? (· ≠ Rc.OK)).getD Rc.OK

/-- LNK registers take writes from Badger and the service port master (R274). -/
def Chip.ifLnkOwner (s : Chip) (ag : Agent) (f : Chip → Chip) : Chip :=
  if ag = .badger || ag = .svc then f s else s.setReason R.LNK_STAT Rc.OWNED

/-- A write of LNK_CTL.EN = 1.  A stop that is pending still takes place, and the engine starts again at it.
[DEDUCED, unsafe: notes/assumptions/186] -/
def Chip.lnkEnable (s : Chip) : Chip :=
  if s.bit F.LNK_CTL_EN then s
  else
    let code := s.lnkCheck
    if code = Rc.OK && s.lnk.running then (s.setBit F.LNK_CTL_EN true).setReason R.LNK_STAT Rc.OK
    else if code = Rc.OK then (s.enableIf .lnk code).engineStart
    else s.enableIf .lnk code

/-- Badger leaves SLOTW with the engine off (R489). -/
def Chip.slotwOff (s : Chip) : Chip :=
  let b := s.cores.badger
  match b.run with
  | .slotw _ => s.setCore .badger { b with run := .run, st := stSet b.st St.C true }
  | _ => s

/-- A boundary of class `c` ends SLOTW with its ASN. -/
def Chip.slotwBoundary (s : Chip) (c asn : Nat) : Chip :=
  let b := s.cores.badger
  if b.run = .slotw c then s.setCore .badger { b with run := .run, a := W asn, st := stSet b.st St.C false } else s

/-- A write of LNK_CTL.EN = 0: the engine stops at the next free boundary.
[DEDUCED, unsafe: notes/assumptions/56] -/
def Chip.lnkDisable (s : Chip) : Chip :=
  if !s.bit F.LNK_CTL_EN then s
  else
    let s1 := (s.setBit F.LNK_CTL_EN false).slotwOff
    { s1 with stopping := Block.lnk :: s1.stopping }

/-- The engine stops: its reservations, backoff and retry counts go.  It starts afresh where EN was set again meanwhile. -/
def Chip.engineStop (s : Chip) : Chip :=
  let s1 := s.setBear { s.bear with resv := s.bear.resv.map (fun o => o.bind (fun b => if b.bySlot then none else some b)) }
  let s2 := [8, 9, 10, 11, 12, 13, 14, 15].foldl Chip.resetBackoff s1
  let l : Lnk := { starts := s2.lnk.starts, corrs := s2.lnk.corrs, heads := s2.lnk.heads, late := s2.lnk.late, returned := s2.lnk.returned, recs := s2.lnk.recs, shadow := s2.lnk.shadow, air := s2.lnk.air }
  let s3 := (s2.setLnk l).blockStopped .lnk
  (if s3.bit F.LNK_CTL_EN then (s3.setBit F.LNK_STAT_ACTIVE true).engineStart else s3).admission

/-! ### Boundaries (R236, R257, R176) -/

/-- The cells of class `c` chosen for ASN `n` reach their boundary: stamps, and records of cells that have
ended. -/
def Chip.markChosen (s : Chip) (c n : Nat) : List Chosen → Chip
  | [] => s
  | k :: l =>
    if k.cls = c && k.asn = n && !k.marked then
      let k1 := { k with marked := true, due := s.recordsOn }
      match k.ended with
      | some code => (s.skipRecord k1 code).markChosen c n l
      | none =>
        let s2 := s.markChosen c n l
        s2.setLnk { s2.lnk with chosen := k1 :: s2.lnk.chosen }
    else
      let s2 := s.markChosen c n l
      s2.setLnk { s2.lnk with chosen := k :: s2.lnk.chosen }

/-- The boundary of class `c` that comes next.  A correction that takes effect at it may move it ahead of
now; it is then marked at its new time.
[DEDUCED, unsafe: notes/assumptions/42] [DEDUCED, unsafe: notes/assumptions/58] -/
def Chip.slotBoundary (s : Chip) (c : Nat) : Chip :=
  if !s.lnk.running then s
  else
    let n := s.lnk.nextB.getD c 0
    let due := s.boundaryFree && !s.lnk.corrs.isEmpty
    let s1 := if due then s.applyCorrections else s
    if due && (s1.now : Int) < s1.boundaryAt c n then s1
    else
      let s2 := s1.setLnk { s1.lnk with nextB := setAt s1.lnk.nextB c (n + 1) }
      let s3 := (s2.setLnk { s2.lnk with chosen := [] }).markChosen c n s2.lnk.chosen
      let s4 := s3.arbCopy
      let s5 := if s4.pwr.st = .run then s4.occ (67 + c) else s4
      let s6 := s5.slotwBoundary c (n % 2 ^ 36)
      let s7 := if s6.pins.windows = 0 then s6.preemptStop 2 else s6
      if s7.stopping.contains .lnk && s7.boundaryFree then s7.engineStop else s7

/-! ### Energy bookings (R261, R262) -/

/-- Valid reservation entries that the engine holds. -/
def Chip.engineResv (s : Chip) : Nat := (s.bear.resv.filter (fun o => o.any Resv.bySlot)).length

/-- A duration of `t` periods as a reservation's count and unit. -/
def resvCount (t : Nat) : Nat × Bool := let u := ceilDiv t 32; if u ≤ 524287 then (u, false) else (ceilDiv u 1000, true)

def Chip.slotResv (s : Chip) (who at' power dur : Nat) : Resv :=
  let (n, ms) := resvCount dur
  { start := s.owl.stb + (s.lfIdx at' - s.lfIdx s.now), who := who, ms := ms, power := power, count := n, bySlot := true }

/-- The ASNs of a cell whose preparation start lies in the booking range, first first. -/
def Chip.bookAsns (s : Chip) (c slot size lead : Nat) : Nat → Nat → List Nat
  | 0, _ => []
  | k + 1, n =>
    let n' := nextSlot n slot size
    let p := s.boundaryAt c n' + s.txOff c - lead
    if (s.now : Int) + msec (s.fld F.LNK_BOOK_BOOKAHEAD) < p then []
    else if p < (s.now : Int) + msec 1 then s.bookAsns c slot size lead k (n' + 1)
    else n' :: s.bookAsns c slot size lead k (n' + 1)

/-- How many occurrences the booking range can hold. -/
def Chip.bookSpan (s : Chip) (c size : Nat) : Nat := s.fld F.LNK_BOOK_BOOKAHEAD / (size * max 1 (s.slotLen c)) + 3

/-- The cells that queue `q`'s head entry could be booked to: preparation start, class, ASN, cell. -/
def Chip.bookCandidates (s : Chip) (q : Nat) : List (Nat × Nat × Nat × Nat × Nat) :=
  sortBy Prod.fst (s.validCells.flatMap (fun (i, w0, w1) =>
    let f := s.sfWord (cellSf w0)
    let c := sfClass f
    let lead := s.rampCfg + s.lockLead c
    if sfOn f && bits w0 31 20 < sfSize f && cellSends w0 w1 && bitOf w1 (28 + (q - 8)) && s.headMatches q c 0 i w0 false && mValid (s.profM (bits w0 4 2)) then
      ((s.bookAsns c (bits w0 31 20) (sfSize f) lead (s.bookSpan c (sfSize f)) (s.lnk.nextC.getD c 0)).filter (fun n =>
        !(s.lnk.barred.getD (q - 8) []).contains (i, n) &&
          (match (s.choose c n false).1 with
            | some (j, _, _, some p) => j = i && p = q
            | _ => false))).map (fun n => ((s.boundaryAt c n + s.txOff c - lead).toNat, c, n, i, w0))
    else []))

/-- The reservations of an entry in a cell whose preparation starts at `p`. -/
def Chip.entryResv (s : Chip) (a p c w0 : Nat) : List Resv :=
  let m := s.profM (bits w0 4 2)
  let mm := mMode m
  let mset := s.msetOf m
  let len := bits (s.rd (a + 1)).toNat 10 0
  let tx := s.slotResv 4 p (txClaim (mPwr m)) (32 * s.dTx c mm mset len)
  let e := p + s.lockLead c + s.rampCfg + airTime mm mset len
  let g := s.tAck c - s.ackGuard c - s.rampCfg
  let at' := if us 100 ≤ g then e + s.tAck c - s.ackGuard c - us 40 else e + s.rampCfg
  let ack := s.slotResv 3 at' (rxPower mm) (us 40 + 2 * s.ackGuard c + max (tAcq mm mset) (airTime mm mset (s.fld F.LNK_CFG_ACKLEN)))
  if bitOf (s.rd a).toNat 28 then [tx, ack] else [tx]

/-- Add reservations in turn; a refusal clears those added, and gives its code.
[DEDUCED, unsafe: notes/assumptions/105] -/
def Chip.reserveAll (s : Chip) (got : List Nat) : List Resv → Nat × List Nat × Chip
  | [] => (Rc.OK, got, s)
  | b :: l =>
    match s.reserve b with
    | (code, some i, s1) => if code = Rc.OK then s1.reserveAll (got ++ [i]) l else (code, [], s1)
    | (code, none, s1) =>
      (code, [], s1.setBear { s1.bear with resv := got.foldl (fun r i => setAt r i none) s1.bear.resv })

/-- Try the candidates in turn.
[DEDUCED, unsafe: notes/assumptions/105] -/
def Chip.tryBook (s : Chip) (q a : Nat) : List (Nat × Nat × Nat × Nat × Nat) → Chip
  | [] => s
  | (p, c, n, i, w0) :: l =>
    let rs := s.entryResv a p c w0
    if s.fld F.LNK_BOOK_BOOKMAX < s.engineResv + rs.length then
      s.setLnk { s.lnk with unbooked := setAt s.lnk.unbooked (q - 8) true }
    else
      match s.reserveAll [] rs with
      | (code, got, s1) =>
        if code = Rc.OK then
          s1.setLnk { s1.lnk with books := setAt s1.lnk.books (q - 8) (some { cls := c, asn := n, cell := i, resv := got, prepAt := p }) }
        else
          let s2 := s1.lnkEvent F.LNK_EVT_BOOKFAIL
          if code = Rc.RES_FULL then s2.setLnk { s2.lnk with unbooked := setAt s2.lnk.unbooked (q - 8) true }
          else
            let s3 := s2.setLnk { s2.lnk with barred := setAt s2.lnk.barred (q - 8) ((i, n) :: s2.lnk.barred.getD (q - 8) []) }
            s3.tryBook q a l

/-- Book a cell for the head entry of queue `q`. -/
def Chip.bookTx (s0 : Chip) (q : Nat) : Chip :=
  let s := s0.purgeBooks
  if !s.lnk.running || q < 8 || 16 ≤ q || s.fld F.LNK_BOOK_BOOKAHEAD = 0 || (s.lnk.books.getD (q - 8) none).isSome
      || s.lnk.unbooked.getD (q - 8) false then s
  else
    match s.headEntry q with
    | none => s
    | some a => s.tryBook q a (s.bookCandidates q)

/-- Whether queue `q` has an entry to book and a cell to book. -/
def Chip.bookable (s : Chip) (q : Nat) : Bool :=
  s.lnk.running && s.fld F.LNK_BOOK_BOOKAHEAD ≠ 0 && (s.lnk.books.getD (q - 8) none).isNone && !s.lnk.unbooked.getD (q - 8) false
    && (s.headEntry q).isSome && !(s.bookCandidates q).isEmpty

/-- The booked occurrence of a receive cell has not yet run, been skipped or expired (R262): its reservation stands before its
choice, or the occurrence waits for its preparation or is live. -/
def Chip.rxBookStands (s : Chip) (c : Nat) (e : Nat × Nat × Option (Nat × Nat)) : Bool :=
  let is (k : Chosen) : Bool := k.cls = c && k.index = e.1 && k.asn = e.2.1
  match e.2.2 with
  | none => false
  | some (k, start) =>
    (s.lnk.nextC.getD c 0 ≤ e.2.1 && (s.bear.resv.getD k none).any (fun r => r.bySlot && r.who = 3 && r.start = start))
      || s.lnk.chosen.any (fun x => is x && x.ended.isNone) || s.lnk.live.any (fun l => is l.c)

/-- The next occurrence of a BOOKRX cell that is not yet booked or refused, in the booking range. -/
def Chip.bookRxNext (s : Chip) (i : Nat) : Option (Nat × Nat × Nat) :=
  match s.validCells.find? (fun e => e.1 = i) with
  | none => none
  | some (_, w0, w1) =>
    let f := s.sfWord (cellSf w0)
    let c := sfClass f
    let lead := s.guardOf c (s.fld F.MON_PLAN0_GUARD) + s.lockLead c
    let busy := s.lnk.rxBooks.any (fun e => e.1 = i && s.rxBookStands c e)
    if s.lnk.running && s.fld F.LNK_BOOK_BOOKAHEAD ≠ 0 && bitOf w1 26 && cellReceives w0 w1 && sfOn f && bits w0 31 20 < sfSize f && !busy then
      ((s.bookAsns c (bits w0 31 20) (sfSize f) lead (s.bookSpan c (sfSize f)) (s.lnk.nextC.getD c 0)).find? (fun n =>
        !s.lnk.rxBooks.any (fun e => e.1 = i && e.2.1 = n))).map (fun n => (c, n, w0))
    else none

/-- Book the reception of a cell's next occurrence. -/
def Chip.bookRx (s : Chip) (i : Nat) : Chip :=
  match s.bookRxNext i with
  | none => s
  | some (c, n, w0) =>
    let m := s.profM (bits w0 4 2)
    let mm := mMode m
    let ge := s.guardOf c (s.fld F.MON_PLAN0_GUARD)
    let p := (s.boundaryAt c n + s.txOff c - ge - s.lockLead c).toNat
    let r := s.slotResv 3 p (rxPower mm) (s.lockLead c + 2 * ge + tAcq mm (s.msetOf m))
    let put (x : Chip) (o : Option (Nat × Nat)) : Chip := x.setLnk { x.lnk with rxBooks := (i, n, o) :: x.lnk.rxBooks.filter (fun e => e.1 ≠ i || n < e.2.1 + sfSize (x.sfWord (cellSf w0))) }
    if s.fld F.LNK_BOOK_BOOKMAX < s.engineResv + 1 then (put s none).lnkEvent F.LNK_EVT_BOOKFAIL
    else
      match s.reserve r with
      | (code, some k, s1) => if code = Rc.OK then put s1 (some (k, r.start)) else (put s1 none).lnkEvent F.LNK_EVT_BOOKFAIL
      | (_, none, s1) => (put s1 none).lnkEvent F.LNK_EVT_BOOKFAIL

/-! ### Registers (R237, R241, R242, R272, R274) -/

def Chip.sfWrite (s : Chip) (ag : Agent) (f : Nat) (v : Word) : Chip :=
  s.ifLnkOwner ag fun s =>
    let old := s.sfWord f
    let new := v.toNat % 65536
    if 8 ≤ f then s
    else if sfOn old && sfSize new ≠ sfSize old then s.setReasons Rc.BUSY
    else
      let again := s.bit F.LNK_CTL_EN && sfOn new && (!sfOn old || sfClass new ≠ sfClass old)
      let code := if again then s.classCheck (sfClass new) else Rc.OK
      (s.setReg (R.LNK_SF f) (W (if code = Rc.OK then new else putBit new 15 false))).setReasons code

/-- A write of word `k` of cell `i`. -/
def Chip.cellWrite (s : Chip) (ag : Agent) (i k : Nat) (v : Word) : Chip :=
  s.ifLnkOwner ag fun s =>
    let w := v.toNat
    if 1024 ≤ i ∨ 2 ≤ k then s
    else if k = 1 then (s.setReg (R.LNK_CELL_1 i) (v &&& W 0xFFC000000)).setReasons Rc.OK
    else
      let nbr := cellNbr w
      if sfSize (s.sfWord (cellSf w)) ≤ bits w 31 20 ∨ (63 < nbr ∧ nbr < 127) then s.setReasons Rc.RANGE
      else (s.setReg (R.LNK_CELL_0 i) (v &&& W 0xFFFFFFFFE)).setReasons Rc.OK

def Chip.chWrite (s : Chip) (ag : Agent) (k : Nat) (v : Word) : Chip :=
  s.ifLnkOwner ag fun s =>
    let f := bits v.toNat 29 0
    if 64 ≤ k then s
    else if f ≠ 0 && !inBands f then s.setReasons Rc.BAND
    else (s.setReg (R.LNK_CH k) (W f)).setReasons Rc.OK

/-- A write of neighbour word 0; word 1 is read-only. -/
def Chip.nbrWrite (s : Chip) (ag : Agent) (n k : Nat) (v : Word) : Chip :=
  s.ifLnkOwner ag fun s =>
    if 64 ≤ n ∨ 2 ≤ k ∨ k = 1 then s
    else ((s.setReg (R.LNK_NBR_0 n) (v &&& W 0xFC0003FFF)).setFld ⟨R.LNK_NBR_1 n, 8, 8⟩ 0).setReasons Rc.OK

/-- A write of LNK_CLSc_START: STB's 72-bit time nearest to now whose low word it is; TOFF clears.
[DEDUCED, unsafe: notes/assumptions/96] -/
def Chip.startWrite (s : Chip) (ag : Agent) (c : Nat) (v : Word) : Chip :=
  s.ifLnkOwner ag fun s =>
    if 4 ≤ c then s
    else if s.bit F.LNK_CTL_EN then s.setReasons Rc.BUSY
    else
      let d := signed 36 ((v.toNat + 2 ^ 36 - s.stbLo) % 2 ^ 36)
      let full := ((s.owl.stb : Int) + d).toNat
      let s1 := (s.setReg (R.LNK_CLS_START c) v).setFld F.LNK_TOFF_TOFF 0
      (s1.setLnk { s1.lnk with starts := setAt s1.lnk.starts c full }).setReasons Rc.OK

/-- ASN of the class's most recent boundary, as the two registers read while EN = 1. -/
def Chip.asnNow (s : Chip) (c : Nat) : Nat :=
  if s.bit F.LNK_CTL_EN then (s.lnk.nextB.getD c 0 + 2 ^ 48 - 1) % 2 ^ 48 else s.asn0 c

/-- A read of LNK_CLSc_ASNLO latches the high part. -/
def Chip.asnLoRead (s : Chip) (c : Nat) : Word × Chip :=
  let a := s.asnNow c
  (W a, s.setLnk { s.lnk with shadow := setAt s.lnk.shadow c (a / 2 ^ 36) })

/-- LNK_CLSc_ASNHI as it reads: the shadow, 0 before any read of ASNLO, and whatever EN is.
[DESIGN CHOICE, unsafe: notes/assumptions/199] -/
def Chip.asnHiView (s : Chip) (c : Nat) : Word := W (s.lnk.shadow.getD c 0)

/-- The range of the engine's plain registers; `old` is the word they hold.
[DEDUCED, unsafe: notes/assumptions/97] -/
def lnkRange (a w : Nat) : Nat :=
  if a = R.LNK_CFG then
    if bits w 35 34 = 3 ∨ bits w 23 16 = 0 ∨ bits w 13 0 < 60 ∨ 10000 < bits w 13 0 then Rc.RANGE else Rc.OK
  else if a = R.LNK_BOOK then if 64 < bits w 25 19 ∨ 500000 < bits w 18 0 then Rc.RANGE else Rc.OK
  else if a = R.LNK_SEED then if w % 65536 = 0 then Rc.RANGE else Rc.OK
  else if a = R.LNK_HOPCFG then if bits w 6 0 = 0 ∨ 64 < bits w 6 0 then Rc.RANGE else Rc.OK
  else if R.LNK_BO 8 ≤ a ∧ a ≤ R.LNK_BO 15 then if bits w 19 17 < bits w 16 14 then Rc.RANGE else Rc.OK
  else if R.LNK_CLS_T0 0 ≤ a ∧ a < R.LNK_CLS_T0 4 then
    match (a - R.LNK_CLS_T0 0) % 8 with
    | 0 => if bits w 35 20 = 0 then Rc.RANGE else Rc.OK
    | 1 => if bits w 35 24 < 40 then Rc.RANGE else Rc.OK
    | _ => Rc.OK
  else Rc.OK

/-- The bits that change only while EN reads 0 (R272), and ASN0 (R237).
[DEDUCED, unsafe: notes/assumptions/97] -/
def lnkOff (a : Nat) : Nat :=
  if a = R.LNK_CFG then 0xE00FF3FFF
  else if a = R.LNK_BOOK ∨ a = R.LNK_SEED ∨ (R.LNK_BO 8 ≤ a ∧ a ≤ R.LNK_BO 15) ∨ (R.LNK_CLS_T0 0 ≤ a ∧ a < R.LNK_CLS_T0 4) then fullMask
  else 0

/-- A write of an engine register that has no command of its own. -/
def Chip.lnkRegWrite (s : Chip) (ag : Agent) (a : Nat) (v : Word) : Chip :=
  match regRow a with
  | none => s
  | some r =>
    s.ifLnkOwner ag fun s =>
      let old := (s.reg a).toNat
      let new := (v.toNat &&& r.rw) ||| (old - (old &&& r.rw))
      let asn := R.LNK_CLS_T0 0 ≤ a && a < R.LNK_CLS_T0 4 && 4 ≤ (a - R.LNK_CLS_T0 0) % 8
      if r.w1c ≠ 0 then s.setReg a (W (old - (old &&& (v.toNat &&& r.w1c))))
      else if s.bit F.LNK_CTL_EN && ((old ^^^ new) &&& lnkOff a ≠ 0 || asn) then s.setReasons Rc.BUSY
      else if lnkRange a new ≠ Rc.OK then s.setReasons (lnkRange a new)
      else if r.rw = 0 then s
      else (s.setReg a (W new)).setReasons Rc.OK

/-- LNK_CNT, MDM_xCNT and CX_CNT clear on a read (R10). -/
def Chip.readClear (s : Chip) (a mask : Nat) : Word × Chip := (s.reg a, s.setReg a (s.reg a &&& ~~~ W mask))

end Sys2Proof.Machine
end

