-- ==== Sys2Proof/Machine/Rx.lean ====
section
/-!
DEFINITION. Reception, the end of a transmission, and acknowledgements (spec/07 R196 to R200, spec/08
R219 to R221 and R231, spec/09 R249 to R257, spec/10 R280, R281, R285).
-/
namespace Sys2Proof.Machine

/-! ### The link header (R280) -/

/-- Octet `i` of a frame as a number; 0 past its end. -/
def octAt (f : List Byte) (i : Nat) : Nat := (f.getD i 0).toNat
/-- Two octets, least significant first. -/
def oct2 (f : List Byte) (i : Nat) : Nat := octAt f i + 256 * octAt f (i + 1)
def lhVer (f : List Byte) : Nat := bits (octAt f 0) 7 6
def lhAckReq (f : List Byte) : Bool := bitOf (octAt f 0) 5
def lhPri (f : List Byte) : Nat := bits (octAt f 0) 4 4
def lhType (f : List Byte) : Nat := bits (octAt f 0) 2 0
def lhDsn (f : List Byte) : Nat := octAt f 1
def lhMesh (f : List Byte) : Nat := oct2 f 2 + 65536 * octAt f 4
def lhDst (f : List Byte) : Nat := oct2 f 5
def lhSrc (f : List Byte) : Nat := oct2 f 7

def Chip.saddr (s : Chip) : Nat := s.fld F.LNK_SADDR_SADDR
def Chip.meshId (s : Chip) : Nat := s.fld F.LNK_MESHID_MESHID

/-- The neighbour whose ADDR matches a source address; 127 for none. -/
def Chip.senderOf (s : Chip) (src : Nat) : Nat :=
  ((List.range 64).find? (fun n => s.nbrValid n && bits (s.reg (R.LNK_NBR_0 n)).toNat 13 0 = src)).getD 127

def Chip.nbrWord (s : Chip) (n : Nat) : Nat := if n < 64 then (s.reg (R.LNK_NBR_0 n)).toNat else 0
def Chip.nbrTs (s : Chip) (n : Nat) : Bool := bitOf (s.nbrWord n) 34
def Chip.nbrClass (s : Chip) (n : Nat) : Nat := bits (s.nbrWord n) 33 32
def Chip.nbrVer (s : Chip) (n : Nat) : Nat := bits (s.nbrWord n) 31 30
def Chip.nbrAddr (s : Chip) (n : Nat) : Nat := bits (s.nbrWord n) 13 0

/-! ### Claims of the cell (R248, R249, R253, R254) -/

/-- A receive cell gives up its claim: the frame has ended. -/
def Chip.rxRelease (s : Chip) : Chip := s.release 3

/-- The received frame goes to its queue (R263, R264).
[DEDUCED, unsafe: notes/assumptions/37] -/
def Chip.deliverFrame (s : Chip) (l : Live) (acked : Bool) : Chip :=
  match l.deliver with
  | none => s
  | some d =>
    let k := s.qTail d.q
    let buf := s.fld (F.QUE_BUF_BUFBASE d.q) + k * s.fld (F.QUE_BUF_BUFSZ d.q)
    let n := d.frame.length
    let pad := d.frame ++ List.replicate ((4 - n % 4) % 4) 0
    let s1 := if s.qTakes d.q then s.wrs buf ((blocksOf 4 n pad).map (fun o => W (leNat o))) else s
    let w0 := d.nbr <<< 29 ||| acked.toNat <<< 28 ||| d.code <<< 20 ||| l.c.prof <<< 17 ||| l.c.ch <<< 11 ||| n
    s1.produce d.q ([W w0, W d.qual] ++ d.stamp.words)

/-- No acknowledgement is sent; the frame is still delivered (R253).
[DEDUCED, unsafe: notes/assumptions/38] -/
def Chip.ackLate (s : Chip) (l : Live) : Chip :=
  (s.deliverFrame l false).endCell { l with deliver := none } (if l.reason = Rc.DUPLICATE then l.reason else Rc.ACK_LATE)

/-- Bear's answer to claimant 4.
[DEDUCED, unsafe: notes/assumptions/29] -/
def Chip.txAnswer (s : Chip) (r : Answer) : Chip :=
  match s.lnk.live, s.fld F.LNK_STAT_LIVE with
  | some l, 1 =>
    if !l.c.tx then s else
    match r.kind with
    | .grant => (s.setLive { l with granted := true, pwr := mPwr l.m }).startLock
    | .reduced => (s.setLive { l with granted := true, pwr := txCodeOf r.power }).startLock
    | .deny => s.endCellEntry l r.code (if r.code = Rc.LATE then s.deadlineOf l else s.startOf l)
    | .defer => s
  | some l, 5 =>
    match r.kind with
    | .grant => s.setLive { l with granted := true }
    | .deny => s.ackLate l
    | _ => s
  | _, _ => s

/-- Bear's answer to claimant 3. -/
def Chip.rxAnswer (s : Chip) (r : Answer) : Chip :=
  match s.lnk.live, s.fld F.LNK_STAT_LIVE, r.kind with
  | some l, 1, .grant => if l.c.tx then s else (s.setLive { l with granted := true }).startLock
  | some l, 1, .deny => if l.c.tx then s else s.endCell l r.code
  | some l, 3, .grant =>
    let s1 := s.setLive { l with granted := true }
    if s1.bit F.SYN_STAT_LOCK then s1 else s1.startLock
  | some l, 3, .deny => s.ackMissed l r.code
  | _, _, _ => s

/-! ### Windows (R166, R175, R199, R249, R254) -/

/-- The window of the live cell. -/
def Chip.liveWin (s : Chip) : Option (Live × RxWin) := s.lnk.live.bind (fun l => l.win.map (fun w => (l, w)))

/-- A reception window opens once the synthesiser has lock. -/
def Chip.openRx (s : Chip) (l : Live) (w : RxWin) : Chip :=
  let g := bits l.m 4 0
  let s1 := s.setLive { l with win := some { w with opened := true, since := s.now, gain := g, agcAt := some (s.now + agcPeriod l.m) } }
  ((s1.setFld F.RFE_STAT_STATE 2).setFld F.MDM_STAT_LIVE (liveRx l.mm)).setBit F.RFE_RSSI_VALID true

/-- RXPOL forbids the reception.
[DEDUCED, unsafe: notes/assumptions/40] -/
def Chip.rxDenied (s : Chip) (l : Live) : Bool := l.cxRx && s.cxDenies

/-- The window of a receive cell opens; `gnt` is the level on CX_GNT.
[DEDUCED, unsafe: notes/assumptions/40] -/
def Chip.rxWindowOpen (s0 : Chip) (gnt : Bool) : Chip :=
  let s := s0.driveGnt gnt
  match s.liveWin with
  | none => s
  | some (l, w) =>
    if l.c.tx || !s.inPrep || !s.bit F.SYN_STAT_LOCK || w.opened then s
    else if s.rxDenied l then (s.endCell l Rc.CX_DENIED).cxCount
    else (s.openRx l w).setFld F.LNK_STAT_LIVE 4

/-- The reception claim of an acknowledgement window, and the relock that goes with it.
[DEDUCED, unsafe: notes/assumptions/33] -/
def Chip.ackWindowClaim (s : Chip) (l : Live) (w : RxWin) : Chip :=
  (s.setLive { l with held := true }).claim 3 (rxPower l.mm) (max 1 (ceilDiv (w.closeAt - s.now) 32)) false none (some w.closeAt)

/-- The acknowledgement window: its claim first, then its opening. -/
def Chip.ackWindowOpen (s0 : Chip) (gnt : Bool) : Chip :=
  let s := s0.driveGnt gnt
  match s.liveWin with
  | none => s
  | some (l, w) =>
    if s.fld F.LNK_STAT_LIVE ≠ 3 || w.opened then s
    else if !l.held then s.ackWindowClaim l w
    else if !l.granted || !s.bit F.SYN_STAT_LOCK then s
    else if s.rxDenied l then (s.ackMissed l Rc.CX_DENIED).cxCount
    else s.openRx l w

/-- The window ends with an outcome.
[DEDUCED, unsafe: notes/assumptions/118] -/
def Chip.endWindow (s : Chip) (l : Live) (code : Nat) : Chip :=
  let s1 := s.setReason R.MDM_STAT code
  if s1.fld F.LNK_STAT_LIVE = 3 then s1.ackMissed l code else s1.endCell l code

/-- An acquisition failed: search resumes, or the window ends if its close has passed (R198, R199). -/
def Chip.winFail (s : Chip) (l : Live) (w : RxWin) (code : Nat) : Chip :=
  if w.closeAt ≤ s.now then s.endWindow l code
  else
    ((s.setLive { l with win := some { w with st := .search, since := s.now, failed := some code } }).setReason R.MDM_STAT code).setFld F.MDM_STAT_LIVE
      (liveRx l.mm)

/-- The close of a window: it ends unless an acquisition holds it.
[DEDUCED, unsafe: notes/assumptions/118] -/
def Chip.windowClose (s : Chip) (ack : Bool) : Chip :=
  match s.liveWin with
  | none => s
  | some (l, w) =>
    if (s.fld F.LNK_STAT_LIVE = 3) ≠ ack || s.fld F.LNK_STAT_LIVE = 5 || (l.c.tx && !ack) then s
    else if w.st = .search then s.endWindow l (w.failed.getD Rc.NO_PREAMBLE)
    else s.setLive { l with win := some { w with closeAt := min w.closeAt s.now } }

/-! ### Reception (R196 to R200, R219 to R221, R231) -/

/-- The count and last-header registers of a mode. -/
def cntReg (mm : Nat) : Nat := match mm with | 1 => R.MDM_LSCNT | 2 => R.MDM_CMCNT | _ => R.MDM_FKCNT
def lastReg (mm : Nat) : Nat := match mm with | 1 => R.MDM_LSLAST | 2 => R.MDM_CMLAST | _ => R.MDM_FKLAST
def keepBad (mm : Nat) : Fld := match mm with | 1 => F.MDM_LSCFG_KEEPBAD | 2 => F.MDM_CMCFG_KEEPBAD | _ => F.MDM_FKCFG_KEEPBAD

/-- The modem acquires a preamble or training pair that it has heard since its search began, within the ranges of carrier and
symbol rate (R196, R197, R219, R231). -/
def Chip.preambleAcquired (s : Chip) (a : RxAcq) : Chip :=
  match s.liveWin with
  | some (l, w) =>
    if w.opened && w.st = .search && s.now < w.closeAt && w.since + tAcq l.mm l.mset ≤ s.now && acquires l.mm l.mset a.foff a.rate then
      (s.setLive { l with win := some { w with st := .acquired, foff := a.foff, rate := a.rate, phase := a.phase, timing := a.timing, acqAt := s.now,
                                               course := a.course, drift := a.drift,
                                               holdTo := s.now + tDecision l.mm l.mset } }).setFld
        F.MDM_STAT_LIVE (if l.mm = 1 then 2 else liveRx l.mm)
    else s
  | none => s

/-- The sync decision.  `ago` is how long ago, in HF-REF periods, the synchronisation field ended at RFIO;
the stamp is taken for that instant.
[DEDUCED, unsafe: notes/assumptions/45] -/
def Chip.syncDecision (s : Chip) (a b c : RxSync) (ago : Nat) : Chip :=
  match s.liveWin with
  | some (l, w) =>
    if w.st ≠ .acquired then s
    else if !syncOk l.mm l.mset w.timing a b c then (s.count ⟨cntReg l.mm, 35, 24⟩).winFail l w (syncFail l.mm)
    else
      let at' := s.now - ago
      let (st, s1) := if s.fld F.LNK_STAT_LIVE = 4 then (let (p, x) := s.stamp at'; (some p, x)) else (none, s)
      (s1.setLive { l with win := some { syncKeep l.mm l.mset a b c w with st := .synced, syncAt := at', stamp := st } }).publish 123
  | none => s

/-- From the sync instant to the end of the header, in HF-REF periods. -/
def headerTime (mm set : Nat) : Nat :=
  match mm with
  | 1 => 10 * symTime 1 set
  | 2 => cmHdrSyms set * symTime 2 set
  | _ => if fkFec set = 0 then fkBits set 16 else fkBits set 48

/-- The last header's register. -/
def lastWord (mm hdr : Nat) (foff : Int) : Nat :=
  let f := unsigned 12 foff
  match mm with
  | 1 => bits hdr 15 8 <<< 16 ||| bits hdr 7 7 <<< 15 ||| f
  | 2 => bits hdr 31 21 <<< 16 ||| bits hdr 20 19 <<< 14 ||| bits hdr 18 17 <<< 12 ||| f
  | _ => bits hdr 10 0 <<< 16 ||| bits hdr 12 12 <<< 15 ||| bits hdr 11 11 <<< 14 ||| f

/-- The symbols since the acquisition. -/
def Live.trackedSymbols (l : Live) (w : RxWin) (now : Nat) : Nat := (now - w.acqAt) / max 1 (symTime l.mm l.mset)

/-- The header as received. -/
def Chip.headerDecision (s : Chip) (f : RxField) : Chip :=
  match s.liveWin with
  | some (l, w) =>
    if w.st ≠ .synced then s
    else
      let (hdr, rot) := rxHeader l.mm l.mset w f
      let code := headerCheck l.mm hdr
      if l.mm = 1 && tracksOff 1 w (l.trackedSymbols w s.now) then s.winFail l w Rc.TRACK_LOST
      else if code ≠ Rc.OK then (s.count ⟨cntReg l.mm, 23, 12⟩).winFail l w code
      else
        let fin := w.syncAt + headerTime l.mm l.mset + frameLeft l.mm l.mset hdr
        (s.setReg (lastReg l.mm) (W (lastWord l.mm hdr w.foff))).setLive
          { l with win := some { w with st := .header, hdr := hdr, endAt := fin, rot := rot } }
  | none => s

/-- Tracking is lost, which only an acquired frame can do, and only where the course of its carrier or its pilots exceeds the
limit (R197, R220). -/
def Chip.trackLost (s : Chip) : Chip :=
  match s.liveWin with
  | some (l, w) =>
    if (w.st = .acquired || w.st = .synced || w.st = .header) && tracksOff l.mm w (l.trackedSymbols w s.now) then s.winFail l w Rc.TRACK_LOST else s
  | none => s

/-- The frame's last symbol has ended: its payload, the detector's figure, the calibrated noise power and the SNR.
[DEDUCED, safe: notes/assumptions/114] [DEDUCED, unsafe: notes/assumptions/115] -/
def Chip.frameReceived (s : Chip) (f : RxField) (det noise snr : Int) : Chip :=
  match s.liveWin with
  | some (l, w) =>
    if w.st ≠ .header then s
    else
      let (octets, lost, snr', evm) := rxPayload l.mm l.mset w f snr
      let (body, ok) := checkFrame l.mm w.hdr octets
      let s1 := if ok then s else s.count ⟨cntReg l.mm, 11, 0⟩
      if lost then s.winFail l w Rc.TRACK_LOST
      else if !ok && !s1.bit (keepBad l.mm) then s1.winFail l w (payFail l.mm)
      else
        let code := if ok then Rc.OK else payFail l.mm
        let q := qualityWord l.mm l.mset w.hdr (rssiOf det noise snr') snr' evm
        let w1 := { w with st := .done, frame := body, code := code, qual := q, agcAt := none }
        let s2 := ((((s1.setReg R.RFE_QUAL (W q)).setReason R.MDM_STAT code).setBit F.RFE_RSSI_VALID false).setFld F.RFE_RSSI_RSSI 0).setFld
          F.MDM_STAT_LIVE 0
        if s2.fld F.LNK_STAT_LIVE = 3 then
          -- the radio is idle again, and the window of the cell closes (R74)
          let s3 := if l.c.window then s2.closeWindow else s2
          let c1 := { l.c with window := false }
          (((s3.setLive { l with win := some w1, c := c1 }).synOff).setFld F.RFE_STAT_STATE 0).rxRelease
        else (s2.setLive { l with win := some w1 }).rxRelease
  | none => s

/-! ### What the engine does with a frame (R251 to R257, R263) -/

/-- n / m to the nearest integer, ties away from zero. -/
def awayDiv (n : Int) (m : Nat) : Int :=
  if 0 ≤ n then (2 * n + m) / (2 * m : Nat) else -((-(2 * n) + m) / (2 * m : Nat))

/-- C in units of `m` HF-REF periods, saturated. -/
def corrOf (d : Int) (m : Nat) : Int := max (-32767) (min 32767 (awayDiv d m))

/-- The acknowledgement of a frame (R252, R285): `ver` the version, `d` the exact difference of R256. -/
def ackFrame (ver mesh saddr lqi : Nat) (f : List Byte) (d : Int) : List Byte :=
  let c := if ver = 1 then corrOf d 32 else corrOf d 8
  (leOctets 1 (ver * 64 + 1) ++ leOctets 1 (lhDsn f) ++ leOctets 3 mesh ++ leOctets 2 (lhSrc f) ++ leOctets 2 saddr)
    ++ (leOctets 2 (unsigned 16 c) ++ leOctets 1 (if ver = 1 then 0 else lqi))

/-- The instant of the acknowledgement's claim, and of its ramp (R253). -/
def Chip.ackClaimAt (s : Chip) (l : Live) : Nat := l.e + s.tAck l.c.cls - s.ramp - us 24
def Chip.ackRampAt (s : Chip) (l : Live) : Nat := l.e + s.tAck l.c.cls - s.ramp

/-- Apply a correction of a cell, and note whether it was rejected (R257). -/
def Chip.cellCorrection (s : Chip) (l : Live) (d : Int) : Live × Chip :=
  let (ok, s1) := s.takeCorrection d
  ({ l with corrUsed := true, reason := if ok then l.reason else Rc.CORR_REJECT }, s1)

/-- A frame that a receive cell was handed.
[DEDUCED, unsafe: notes/assumptions/36] [DEDUCED, unsafe: notes/assumptions/37] [DEDUCED, unsafe: notes/assumptions/117] -/
def Chip.rxHandover (s : Chip) (l : Live) (w : RxWin) : Chip :=
  let f := w.frame
  let ok := w.code = Rc.OK
  let whole := 9 ≤ f.length
  let bcast := lhDst f = 0xFFFF
  let mine := lhDst f = s.saddr
  if ok && !(whole && lhMesh f = s.meshId && (bcast || (mine && !s.bit F.LNK_CFG_BCONLY))) then
    (s.count F.LNK_CNT_FILTERED).endCell l Rc.FILTERED
  else
    let nbr := if whole then s.senderOf (lhSrc f) else 127
    let known := nbr < 64
    let d : Int := (s.startOf l : Int) - (w.syncAt - tSync l.mm l.mset)
    let c := corrOf d 8
    let l1 := { l with rxd := true, reason := w.code, corr := if ok then some c else none }
    let (l2, s2) := if ok && s.nbrTs nbr then s.cellCorrection l1 (-c) else (l1, s)
    let q := 4 * (if whole then lhPri f else 0) + s2.nbrClass nbr
    let want := ok && lhAckReq f && mine && (known || s2.bit F.LNK_CFG_ACKUNK)
    let dup := ok && known && s2.bit ⟨R.LNK_NBR_1 nbr, 8, 8⟩ && s2.fld ⟨R.LNK_NBR_1 nbr, 7, 0⟩ = lhDsn f
    if 4 * s2.fld (F.QUE_BUF_BUFSZ q) < f.length then s2.endCell l2 Rc.BUF_SHORT
    else if !dup && !s2.qTakes q then (s2.qDrop q).endCell l2 Rc.QUEUE_FULL
    else
      let s3 := if ok && known && !dup then
          (s2.setFld ⟨R.LNK_NBR_1 nbr, 7, 0⟩ (lhDsn f)).setBit ⟨R.LNK_NBR_1 nbr, 8, 8⟩ true
        else s2
      let del : Delivery := { q := q, nbr := nbr, frame := f, code := w.code, qual := w.qual, stamp := w.stamp.getD {} }
      let l3 := { l2 with deliver := if dup then none else some del, reason := if dup then Rc.DUPLICATE else l2.reason }
      if want then
        let ver := if known && s3.nbrVer nbr ≠ 0 then s3.nbrVer nbr else 1
        let n := s3.fld F.LNK_CFG_ACKLEN
        let oct := (ackFrame ver s3.meshId s3.saddr (bits w.qual 16 9) f d ++ List.replicate n 0).take n
        let l4 := { l3 with ack := some oct, e := w.endAt, granted := false }
        if s3.ackClaimAt l4 < s3.now then s3.ackLate l4 else s3.setLive l4
      else (s3.deliverFrame l3 false).endCell { l3 with deliver := none } l3.reason

/-- The modem hands a delivered frame to the engine (R200). -/
def Chip.frameHandover (s : Chip) : Chip :=
  match s.liveWin with
  | some (l, w) =>
    if w.st ≠ .done then s
    else
      let w1 := { w with st := .handed, handedAt := s.now }
      let l1 := { l with win := some w1 }
      if s.fld F.LNK_STAT_LIVE = 4 then s.rxHandover l1 w1 else s.setLive l1
  | none => s

/-- The claim of an acknowledgement (R253). -/
def Chip.ackClaim (s : Chip) : Chip :=
  match s.lnk.live with
  | some l =>
    if l.ack.isSome && s.fld F.LNK_STAT_LIVE = 4 then
      let p := mPwr l.m
      let dur := 24 + ceilDiv (airTime l.mm l.mset (s.fld F.LNK_CFG_ACKLEN) + 2 * s.ramp) 32
      let s1 := (s.setLive { l with pwr := p }).setFld F.LNK_STAT_LIVE 5
      s1.claim 4 (txClaim p) dur false none (some s1.now)
    else s
  | none => s

/-- The acknowledgement's ramp starts, if it is built, granted and allowed.  One that coexistence drops counts in CX_CNT.
[DEDUCED, unsafe: notes/assumptions/38] [DEDUCED, unsafe: notes/assumptions/116] -/
def Chip.ackTxStart (s0 : Chip) (gnt : Bool) : Chip :=
  let s := s0.driveGnt gnt
  match s.liveWin with
  | some (l, w) =>
    match l.ack with
    | none => s
    | some oct =>
      if l.rampAt.isSome || s.fld F.LNK_STAT_LIVE < 4 then s
      else if !l.granted || s.now < w.handedAt + us 30 || !s.bit F.SYN_STAT_LOCK || s.calRuns then s.ackLate l
      else if s.cxDenies then (s.ackLate l).cxCount
      else s.rampFor l oct
  | none => s

/-- The ramp-down of the acknowledgement ends. -/
def Chip.ackTxEnd (s : Chip) : Chip :=
  match s.lnk.live with
  | some l =>
    if s.fld F.LNK_STAT_LIVE = 5 && l.txEnd.isSome then
      let l1 := { l with deliver := none }
      match l.abort with
      | some code => (s.deliverFrame l false).endCell l1 code
      | none => (s.deliverFrame l true).endCell l1 l.reason
    else s
  | none => s

/-! ### The sender's end (R250, R254, R255) -/

/-- G of R254. -/
def Chip.ackGap (s : Chip) (c : Nat) : Nat := s.tAck c - s.ackGuard c - s.ramp

/-- The ramp-down of a transmission ends. -/
def Chip.txEndStep (s0 : Chip) : Chip :=
  let s := s0.stampDone
  match s.lnk.live with
  | none => s
  | some l =>
    if s.fld F.LNK_STAT_LIVE ≠ 2 then s
    else
      let s1 := s.setLatch { s.pins.latch with txen := false }
      match l.abort with
      | some code => s1.endCellEntry l code s1.now
      | none =>
        let l1 := { l with txd := true, txenUp := false, rampAt := none, txEnd := none, granted := false, held := false }
        let ack := match s1.headEntry l.c.q with
          | some a => bitOf (s1.rd a).toNat 28
          | none => false
        if !ack then s1.endCellEntry l1 Rc.OK l.e
        else
          let mid := l.e + s1.tAck l.c.cls
          let g := s1.ackGuard l.c.cls
          let w : RxWin := { openAt := mid - g, closeAt := mid + g + tAcq l.mm l.mset }
          let s2 := (((s1.setLive { l1 with win := some w }).setFld F.LNK_STAT_LIVE 3).setFld F.MDM_STAT_LIVE 0).setFld F.RFE_STAT_STATE 0
          let s3 := s2.release 4
          if us 100 ≤ s3.ackGap l.c.cls then s3.synOff
          else
            match s3.liveWin with
            | some (l2, w2) => s3.ackWindowClaim l2 w2
            | none => s3

/-- When the acknowledgement's claim falls due. -/
def Chip.ackClaimDue (w : RxWin) : Nat := w.openAt - us 40

/-- The neighbour of the head entry of queue `q`. -/
def Chip.headNbr (s : Chip) (q : Nat) : Nat :=
  match s.headEntry q with
  | some a => bits (s.rd a).toNat 35 29
  | none => 127

/-- The test of a good acknowledgement (R285).
[DEDUCED, unsafe: notes/assumptions/117] -/
def Chip.ackGood (s : Chip) (l : Live) (w : RxWin) : Bool :=
  let f := w.frame
  let n := s.headNbr l.c.q
  w.code = Rc.OK && 9 ≤ f.length && lhType f = 1 && 1 ≤ lhVer f && lhMesh f = s.meshId && lhDst f = s.saddr
    && (n < 64 && lhSrc f = s.nbrAddr n) && lhDsn f = lhDsn l.octets

/-- The acknowledgement decision (R255, R285). -/
def Chip.ackReceived (s : Chip) : Chip :=
  match s.liveWin with
  | none => s
  | some (l, w) =>
    if s.fld F.LNK_STAT_LIVE ≠ 3 || w.st ≠ .handed then s
    else
      let f := w.frame
      let n := s.headNbr l.c.q
      if w.code ≠ Rc.OK then s.ackMissed l w.code
      else if !s.ackGood l w then s.ackMissed l Rc.ACK_BAD
      else
        let c := signed 16 (oct2 f 9) * (if lhVer f = 1 then 4 else 1)
        let whole := 11 ≤ f.length
        let l1 := { l with ackok := true, reason := Rc.OK, corr := if whole then some (clampSigned 16 c) else none }
        let (l2, s1) := if whole && s.nbrTs n then s.cellCorrection l1 c else (l1, s)
        let tries := s1.lnk.tries.getD (l.c.q - 8) 0 - 1
        (s1.endEntry l.c.q Rc.OK tries l.pwr l.e (l.c.ty = 2)).endCell l2 l2.reason

/-! ### Held grants (R249) -/

/-- When a reception or transmission in progress is done with its grant. -/
def Chip.grantNeed (s : Chip) (n : Nat) : Nat :=
  match s.lnk.live with
  | none => 0
  | some l =>
    if n = 4 then (match l.txEnd with
      | some t => t
      | none => if l.held then s.deadlineOf l else 0)
    else match l.win with
      | some w =>
        if w.st = .header then w.endAt
        else if w.st = .acquired then w.holdTo
        else if w.st = .synced then w.syncAt + headerTime l.mm l.mset
        else 0
      | none => 0

/-- The end of a burst grant of the radio: one that is still in use runs on under the same answer. -/
def Chip.radioGrantEnd (s : Chip) (n : Nat) : Chip :=
  match s.grantOf n with
  | none => s
  | some g =>
    let need := s.grantNeed n
    if s.now < need then
      s.setBear { s.bear with grants := s.bear.grants.map (fun x => if x.who = n then { x with dur := need - g.start } else x) }
    else s.endGrant n

end Sys2Proof.Machine
end

