-- ==== Sys2Proof/Machine/Mesh.lean ====
section
/-!
DEFINITION. The mesh layer (spec/10): frames and their security, versions, neighbour entries, schedule, frames
built and queued, parents.  The layer is software on the agent that owns the link queues, and writes the LNK
registers as Badger; it lists the frames it built in `Mesh.sent`, and what it delivers in `Mesh.delivered`.
-/
namespace Sys2Proof.Machine

/-- Count an outcome. -/
def Chip.meshCount (s : Chip) (code : Nat) : Chip :=
  let m := s.mesh
  let n := ((m.counts.find? (fun e => e.1 = code)).map Prod.snd).getD 0
  s.setMesh { m with reason := code, counts := (code, n + 1) :: m.counts.filter (fun e => e.1 ≠ code) }

/-- `n` octets of a number, most significant first. -/
def beOctets (n v : Nat) : List Byte := (leOctets n v).reverse
def beNat (l : List Byte) : Nat := leNat l.reverse
def toNats (l : List Byte) : List Nat := l.map BitVec.toNat
def ofNats (l : List Nat) : List Byte := l.map (BitVec.ofNat 8)

/-- Own EUI-64, from the identity words 0 and 1 of the OTP row; octet 0 is the most significant. -/
def Chip.ownEui (s : Chip) : Nat :=
  beNat (((List.range 2).flatMap (fun w => (List.range 4).map (octetOf (s.otpRd w)))))

/-- The node's offer on the mesh link (R294). -/
def Chip.meshOffer (s : Chip) : Nat × Nat := s.offer 1

/-- The mesh link entry is pinned to version 1: the node behaves on the air as a TK2416 does (R319). -/
def Chip.asTk2416 (s : Chip) : Bool := s.cfg.versions.getD 1 (true, 1, 1) = (false, 1, 1)

/-! ### Frames (R277 to R284) -/

/-- A frame taken apart.  `hdr` counts the octets before the body. -/
structure MIn where
  ver : Nat
  ty : Nat
  src : Nat
  dst : Nat
  sec : Bool
  micl : Nat := 0
  epoch : Nat := 0
  jkey : Bool := false
  fcnt : Nat := 0
  eui : Nat := 0
  nt : Nat := 0
  hop : Nat := 0
  fdst : Nat := 0
  orig : Nat := 0
  fseq : Nat := 0
  route : List Nat := []
  jt : Nat := 0
  hdr : Nat := 9
  body : List Byte := []
  mic : List Byte := []
deriving DecidableEq, Repr

/-- A destination and a source as they may stand in a frame. -/
def dstOk (a : Nat) : Bool := a < 0x4000 || a = 0xFFFF
def srcOk (a : Nat) : Bool := a < 0x4000 || a = 0xFFFE

def micOctets (micl : Nat) : Nat := match micl with | 0 => 4 | 1 => 8 | _ => 16

/-- Octets of a route field, and its entries (R283). -/
def routeOctets (ver n : Nat) : Nat := if ver = 3 then (14 * n + 7) / 8 else 2 * n
def readRoute (ver n : Nat) (l : List Byte) : List Nat :=
  if ver = 3 then (List.range n).map (fun i => bits (leNat l) (14 * i + 13) (14 * i)) else (List.range n).map (fun i => oct2 l (2 * i))
def writeRoute (ver : Nat) (r : List Nat) : List Byte :=
  if ver = 3 then leOctets (routeOctets 3 r.length) ((r.zipIdx).foldl (fun v (a, i) => v + a <<< (14 * i)) 0)
  else r.flatMap (leOctets 2)

/-- The security header, if there is one; none where it is malformed. -/
def readSec (f : List Byte) (m : MIn) : Option MIn :=
  if !m.sec then some m
  else
    let a := octAt f 9
    let n := if bitOf a 4 then 22 else 14
    if f.length < n ∨ bits a 7 6 = 3 ∨ bits a 3 0 ≠ 0 ∨ (m.ver = 1 ∧ bits a 7 6 ≠ 0) then none
    else some { m with micl := bits a 7 6, epoch := bits a 5 5, jkey := bitOf a 4, fcnt := leNat ((f.drop 10).take 4),
                       eui := if bitOf a 4 then beNat ((f.drop 14).take 8) else 0, hdr := n }

/-- The network header; BEACON and ACK frames have none. -/
def readNet (f : List Byte) (m : MIn) : Option MIn :=
  if m.ty = 1 ∨ m.ty = 2 then some m
  else
    let g := f.drop m.hdr
    let a := octAt g 0
    let nt := bits a 7 6
    let rc := bits a 5 0
    let n := (if nt = 3 then 7 else 6) + routeOctets m.ver rc
    if g.isEmpty ∨ (rc ≠ 0 ∧ nt ≠ 2) then none
    else if nt = 0 then some { m with hdr := m.hdr + 1 }
    else if g.length < n ∨ octAt g 1 = 0 ∨ (if m.ver = 1 then 16 else 64) < octAt g 1 ∨ (m.ver = 1 ∧ 15 < rc) then none
    else if (readRoute m.ver rc (g.drop 6)).any (fun a => 0x3FFF < a) then none
    else if (nt = 1 ∧ oct2 g 2 ≠ 0) ∨ (nt = 2 ∧ 0x3FFF < oct2 g 2) ∨ (nt = 3 ∧ oct2 g 2 ≠ 0xFFFF) ∨ 0x3FFF < oct2 g 4 then none
    else some { m with nt := nt, hop := octAt g 1, fdst := oct2 g 2, orig := oct2 g 4, fseq := if nt = 3 then octAt g 6 else 0,
                       route := readRoute m.ver rc (g.drop 6), hdr := m.hdr + n }

/-- JT, the body and the MIC.
[DEDUCED, unsafe: notes/assumptions/39] -/
def readBody (f : List Byte) (m : MIn) : Option MIn :=
  let g := f.drop m.hdr
  let n := if m.sec then micOctets m.micl else 0
  let k := if m.ty = 3 then 1 else 0
  if g.length < n + k then none
  else some { m with jt := if k = 1 then octAt g 0 else 0, hdr := m.hdr + k, body := (g.drop k).take (g.length - k - n), mic := g.drop (g.length - n) }

/-- DST, SEC and NT are those of the TYPE, and of the join step (R284, R287); MICL of a REQUEST is 1, and 0 in version 1,
which has no other (R296).
[DEDUCED, unsafe: notes/assumptions/173] -/
def typeOk (m : MIn) : Bool :=
  let bc := m.dst = 0xFFFF
  let net := m.sec && !m.jkey
  match m.ty with
  | 0 => net && m.nt ≤ 2 && !bc
  | 1 => !m.sec
  | 2 => net && m.micl = 0 && bc
  | 3 =>
    match m.jt with
    | 1 => m.sec && m.jkey && m.nt = 0 && m.src = 0xFFFE && m.micl = (if m.ver = 1 then 0 else 1) && !bc
    | 2 => net && m.nt = 1 && !bc
    | 3 => net && m.nt = 2 && !bc
    | 4 => !m.sec && m.nt = 0 && bc
    | _ => false
  | 4 => net && m.nt = 1 && !bc
  | 5 => net && bc = (m.nt = 3)
  | 6 => net && m.nt = 0 && !bc
  | _ => false

/-- Take a frame apart; none where it is malformed, of TYPE 7 or of no mesh (R277, R280, R284). -/
def meshParse (f : List Byte) : Option MIn :=
  if f.length < 9 ∨ lhVer f = 0 ∨ lhMesh f = 0 ∨ lhType f = 7 ∨ !dstOk (lhDst f) ∨ !srcOk (lhSrc f) then none
  else
    let m : MIn := { ver := lhVer f, ty := lhType f, src := lhSrc f, dst := lhDst f, sec := bitOf (octAt f 0) 3 }
    (((readSec f m).bind (readNet f)).bind (readBody f)).bind (fun m => if typeOk m then some m else none)

/-! ### Security (R289 to R293) -/

/-- The slot of a key: 0 and 1 the network epochs, 2 the join key.
[DESIGN CHOICE, unsafe: notes/assumptions/121] -/
def Chip.meshSlot (s : Chip) (k : Nat) : Nat := match k with | 0 => s.mesh.nslot0 | 1 => s.mesh.nslot1 | _ => s.mesh.jslot

/-- The cipher user that the layer is: the agent that owns the link queues. -/
def Chip.meshUser (s : Chip) : Nat := s.qOwner 8

/-- The slots of an operation by the layer, as the cipher engine checks them (R329, R337, R338): mode, direction, key, target. -/
def Chip.meshSlots (s : Chip) (mode : Nat) (dec : Bool) (key tslot : Nat) : Nat :=
  s.slotCheck { mode := mode, dec := dec, fmode := 0, key := key, tslot := tslot, tagLen := 0, nLen := 0, len := 0, aadLen := 0, src := 0, dst := 0,
                aad := 0, iv := 0, tag := 0 } s.meshUser false

/-- Key `k` for CCM*, to verify or to secure: KEY_EPOCH where a network key's slot holds none or is no longer used (R290),
KEY_SLOT where the slot may not serve (R289, R329). -/
def Chip.meshKey (s : Chip) (k : Nat) (dec : Bool) : Except Nat (List Nat) :=
  let slot := s.meshSlot k
  match (if k < 2 && s.mesh.left.getD k false then none else s.keyOf slot) with
  | none => .error (if k < 2 then Rc.KEY_EPOCH else Rc.KEY_SLOT)
  | some key => if key.length = 16 && s.meshSlots 3 dec slot 0 = Rc.OK then .ok key else .error Rc.KEY_SLOT

def meshNonce (eui fcnt level : Nat) : List Nat := Aes.ofNum 8 eui ++ Aes.ofNum 4 fcnt ++ [level]

/-- CCM* on a body: the text as sent and the MIC.  A beacon is authenticated only. -/
def meshSeal (key : List Nat) (beacon : Bool) (micl eui fcnt : Nat) (aad body : List Byte) : List Byte :=
  let t := micOctets micl
  if beacon then
    let n := meshNonce eui fcnt 1
    body ++ ofNats (Aes.ccmTag key n (toNats (aad ++ body)) [] t)
  else
    let n := meshNonce eui fcnt (5 + micl)
    ofNats (Aes.ccmText key n (toNats body)) ++ ofNats (Aes.ccmTag key n (toNats aad) (toNats body) t)

/-- The body in clear where the MIC verifies. -/
def meshOpen (key : List Nat) (beacon : Bool) (micl eui fcnt : Nat) (aad body mic : List Byte) : Option (List Byte) :=
  let t := micOctets micl
  if beacon then
    if toNats mic = Aes.ccmTag key (meshNonce eui fcnt 1) (toNats (aad ++ body)) [] t then some body else none
  else
    let n := meshNonce eui fcnt (5 + micl)
    let p := Aes.ccmText key n (toNats body)
    if toNats mic = Aes.ccmTag key n (toNats aad) p t then some (ofNats p) else none

/-- The replay test of R292 on LAST and the window, whose bit i stands for counter LAST − i. -/
def replayTest (r : MeshReplay) (c : Nat) : Option MeshReplay :=
  if r.last < c then some { r with last := c, window := (r.window <<< (c - r.last) ||| 1) % 2 ^ 32 }
  else
    let d := r.last - c
    if d < 32 ∧ !r.window.testBit d then some { r with window := r.window ||| 1 <<< d } else none

/-- Accept counter `c` of a sender under key `k`, or not. -/
def Chip.replayCheck (s : Chip) (eui k c : Nat) : Option Chip :=
  let mine (r : MeshReplay) : Bool := r.eui = eui && r.key = k
  let put (r : MeshReplay) : Chip := s.setMesh { s.mesh with replay := r :: s.mesh.replay.filter (fun x => !mine x) }
  match s.mesh.replay.find? mine with
  | none => some (put { eui := eui, key := k, last := c, window := 1 })
  | some r => (replayTest r c).map put

/-! ### Peers and versions (R294, R295) -/

def Chip.meshChild (s : Chip) (a : Nat) : Option MeshChild := s.mesh.children.find? (fun c => c.addr = a)

/-- The offer of a neighbour or child. -/
def Chip.offerOf (s : Chip) (a : Nat) : Option (Nat × Nat) :=
  match s.meshPeer a, s.meshChild a with
  | some p, _ => some (p.vmin, p.vmax)
  | none, some c => some (c.vmin, c.vmax)
  | none, none => none

/-- The common range with a sender. -/
def Chip.commonRange (s : Chip) (a : Nat) : Nat × Nat :=
  let o := s.meshOffer
  match s.offerOf a with
  | some p => (max o.1 p.1, min o.2 p.2)
  | none => o

/-- The version of frames to `a`: the agreed one; a broadcast takes the lowest that is agreed with anyone. -/
def Chip.verFor (s : Chip) (a : Nat) : Nat :=
  let o := s.meshOffer
  if a = 0xFFFF then
    (s.mesh.peers.map (fun p => (p.vmin, p.vmax)) ++ s.mesh.children.map (fun c => (c.vmin, c.vmax))).foldl
      (fun v p => ((agree o p).map (min v)).getD v) o.2
  else (((s.offerOf a).bind (agree o))).getD o.2

/-- The version of a beacon: every beacon offers the node's own range, and version 1's offers [1, 1] (R286, R294).
[DEDUCED, unsafe: notes/assumptions/173] -/
def Chip.beaconVer (s : Chip) : Nat := if s.meshOffer.2 = 1 then 1 else max 2 s.meshOffer.1

def Chip.euiOf (s : Chip) (a : Nat) : Option Nat :=
  match s.meshPeer a, s.meshChild a with
  | some p, _ => some p.eui
  | none, some c => some c.eui
  | none, none => none

/-- Own rank and hop count: 256 and 0 at the root (R306). -/
def Chip.ownRank (s : Chip) : Nat := if s.mesh.role = 2 then 256 else s.mesh.rank
def Chip.ownHops (s : Chip) : Nat := if s.mesh.role = 2 then 0 else s.mesh.hops

/-! ### Neighbour entries (R294, R298) -/

/-- A neighbour entry of an address, and the lowest entry not in use. -/
def Chip.nbrOf (s : Chip) (a : Nat) : Option Nat := (List.range 64).find? (fun n => s.nbrValid n && s.nbrAddr n = a)
def Chip.nbrFree (s : Chip) : Option Nat := (List.range 64).find? (fun n => !s.nbrValid n)

/-- Write an entry; a word that does not change is not written. -/
def Chip.putNbr (s : Chip) (n ver addr : Nat) (ts : Bool) : Chip :=
  let w := 1 <<< 35 ||| ts.toNat <<< 34 ||| s.nbrClass n <<< 32 ||| ver <<< 30 ||| addr
  if (s.reg (R.LNK_NBR_0 n)).toNat = w then s else (s.setReg (R.LNK_NBR_0 n) (W w)).setFld ⟨R.LNK_NBR_1 n, 8, 8⟩ 0

/-- Add or refresh a neighbour's entry; TS stays as it is, and is 0 in a new one.  Where all are in use, the new one takes the
first whose address is not in `keep`, if there is one.
[DESIGN CHOICE, safe: notes/assumptions/187] -/
def Chip.addNbr (s : Chip) (keep : Option (List Nat)) (a ver : Nat) : Chip :=
  match s.nbrOf a, s.nbrFree with
  | some n, _ => s.putNbr n ver a (s.nbrTs n)
  | none, some n => s.putNbr n ver a false
  | none, none =>
    match keep.bind (fun l => (List.range 64).find? (fun n => !l.contains (s.nbrAddr n))) with
    | some n => s.putNbr n ver a false
    | none => s

/-- A neighbour's entry goes. -/
def Chip.dropNbr (s : Chip) (a : Nat) : Chip :=
  match s.nbrOf a with
  | some n => s.setReg (R.LNK_NBR_0 n) 0
  | none => s

/-- TS = 1 on the preferred parent alone, by consecutive writes; with no parent on none (R298). -/
def Chip.setTimeSource (s : Chip) (pref : Option Nat) : Chip :=
  let s1 := (List.range 64).foldl (fun c n =>
    if c.nbrValid n && c.nbrTs n && pref ≠ some (c.nbrAddr n) then c.putNbr n (c.nbrVer n) (c.nbrAddr n) false else c) s
  match pref.bind s1.nbrOf with
  | some n => s1.putNbr n (s1.nbrVer n) (s1.nbrAddr n) true
  | none => s1

/-- An offer from `a`: the agreed version goes to its neighbour entry; none where there is no common one. -/
def Chip.takeOffer (s : Chip) (a vmin vmax : Nat) : Option Nat × Chip :=
  match agree s.meshOffer (vmin, vmax) with
  | none => (none, s.meshCount Rc.VERSION)
  | some v => (some v, match s.nbrOf a with
    | some n => s.putNbr n v a (s.nbrTs n)
    | none => s)

/-! ### The schedule (R297) -/

def hAddr (a : Nat) : Nat := a * 40503 % 65536

/-- Write cell `i` through the engine's check; a cell that stands as it is stays. -/
def Chip.putCell (s : Chip) (i sf slot choff ty nbr mask : Nat) (btx : Bool) : Chip :=
  let w0 := W (1 <<< 35 ||| sf <<< 32 ||| slot <<< 20 ||| choff <<< 14 ||| ty <<< 12 ||| nbr <<< 5 ||| s.mesh.prof <<< 2)
  let w1 := W (mask <<< 28 ||| btx.toNat <<< 27)
  if s.reg (R.LNK_CELL_0 i) = w0 && s.reg (R.LNK_CELL_1 i) = w1 then s else (s.cellWrite .badger i 1 w1).cellWrite .badger i 0 w0

def Chip.dropCell (s : Chip) (i : Nat) : Chip := if bitOf (s.reg (R.LNK_CELL_0 i)).toNat 35 then s.cellWrite .badger i 0 0 else s

/-- Write a slotframe: its size changes only while it is off. -/
def Chip.putSlotframe (s : Chip) (f size : Nat) (hop on : Bool) : Chip :=
  let w := W (on.toNat <<< 15 ||| hop.toNat <<< 14 ||| (size - 1) % 4096)
  if s.reg (R.LNK_SF f) = w then s
  else
    let s1 := if sfOn (s.sfWord f) then s.sfWrite .badger f (s.reg (R.LNK_SF f) &&& ~~~ W 0x8000) else s
    s1.sfWrite .badger f w

/-- The beacon slot of an address in a slotframe of `size` slots. -/
def beaconSlot (a size : Nat) : Nat := if a = 0 then 0 else 2 + hAddr a % (size - 2)

/-- The queue of the node's own BEACON cell, which carries beacons and floods and nothing else. -/
def beaconQueue : Nat := 11

/-- Slotframe 0 on the join channel: the SHARED cell, the node's own BEACON cell, and a cell for the beacons of each parent,
or of the sender that a joiner synchronised to.
[DESIGN CHOICE, unsafe: notes/assumptions/121] -/
def Chip.buildSf0 (s : Chip) : Chip :=
  let m := s.mesh
  if m.sfSize = 0 then s
  else
    let s1 := (s.putSlotframe 0 m.sfSize false true).putCell 0 0 1 0 2 127 0xF7 false
    let s2 := if m.role ≠ 0 && m.joined then s1.putCell 2 0 (beaconSlot s1.saddr m.sfSize) 0 3 127 0x08 true else s1.dropCell 2
    let src := if m.parents.isEmpty then m.syncSrc.toList else m.parents
    (List.range 4).foldl (fun c i => match src[i]? with
      | some a => c.putCell (4 + i) 0 (beaconSlot a m.sfSize) 0 3 127 0 false
      | none => c.dropCell (4 + i)) s2

/-- Slotframe 1: the node's RX cell, and a TX cell for each neighbour entry; it is on once the channel plan is there
(R304 step 6). -/
def Chip.buildSf1 (s : Chip) : Chip :=
  let m := s.mesh
  if !m.member || m.sf1Size = 0 then s
  else
    let at' (c : Chip) (i a ty nbr mask : Nat) : Chip := c.putCell i 1 (hAddr a % m.sf1Size) (hAddr a / 1024) ty nbr mask false
    let s1 := at' (s.putSlotframe 1 m.sf1Size true m.planNew.isNone) 3 s.saddr 1 127 0
    (List.range 64).foldl (fun c n => if c.nbrValid n then at' c (16 + n) (c.nbrAddr n) 0 n 0xFF else c.dropCell (16 + n)) s1

def Chip.meshSchedule (s : Chip) : Chip := s.buildSf0.buildSf1

/-- Listening in every slot on the join channel, for a joiner's beacons and for a new parent (R300 step 1, R301, R308):
slotframe 7 of one slot with an RX cell.
[DESIGN CHOICE, unsafe: notes/assumptions/121] -/
def Chip.listenCells (s : Chip) (on : Bool) : Chip :=
  let s1 := s.putSlotframe 7 1 false on
  if on then s1.putCell 8 7 0 0 1 127 0 false else s1.dropCell 8

/-- The mesh's profile slot carries the join channel: its FREQ, its mode and its set (R297, R299). -/
def Chip.joinProfile (s : Chip) : Chip :=
  let m := s.mesh
  let old := s.profM m.prof
  let base := if mValid old then old else 0xF <<< 11
  let word := (base &&& 0xFFF83FFFF) ||| 1 <<< 35 ||| m.joinMode <<< 21 ||| m.joinSet <<< 18
  if m.joinFreq = 0 || (s.profF m.prof = m.joinFreq && old = word) then s
  else (s.profFWrite .badger m.prof (W m.joinFreq)).profMWrite .badger m.prof (W word)

/-! ### Building frames (R279 to R283, R290, R291) -/

def netHeader (ver : Nat) (o : MOut) : List Byte :=
  if o.ty = 2 then []
  else if o.nt = 0 then [0]
  else
    leOctets 1 (o.nt * 64 + o.route.length) ++ leOctets 1 (if ver = 1 then min 16 o.hop else o.hop) ++ leOctets 2 o.fdst ++ leOctets 2 o.orig
      ++ (if o.nt = 3 then leOctets 1 o.fseq else []) ++ writeRoute ver o.route

/-- MICL of a frame: 4 octets on a version-1 link and for beacons, 8 otherwise.
[DEDUCED, unsafe: notes/assumptions/120] -/
def miclFor (ver : Nat) (o : MOut) : Nat := if ver = 1 ∨ o.ty = 2 then 0 else 1

/-- The source address: none before the node has joined. -/
def Chip.meshSrc (s : Chip) (o : MOut) : Nat := if o.jkey then 0xFFFE else s.saddr

/-- The key of a frame. -/
def Chip.keyFor (s : Chip) (o : MOut) : Nat := if o.jkey then 2 else s.mesh.epoch

/-- The frame in version `ver`; none, with the code, where its key or its counter is gone.
[DEDUCED, unsafe: notes/assumptions/120] -/
def Chip.buildFrame (s : Chip) (ver : Nat) (o : MOut) : Option (List Byte) × Chip :=
  let m := s.mesh
  let bc := o.dst = 0xFFFF
  let fc := ver * 64 + (o.ack && !bc).toNat * 32 + o.pri.toNat * 16 + o.sec.toNat * 8 + o.ty
  let link := leOctets 1 fc ++ leOctets 1 m.dsn ++ leOctets 3 s.meshId ++ leOctets 2 o.dst ++ leOctets 2 (s.meshSrc o)
  let tail := netHeader ver o ++ (o.jt.map (leOctets 1)).getD []
  let s1 := s.setMesh { m with dsn := (m.dsn + 1) % 256 }
  if !o.sec then (some (link ++ tail ++ o.body), s1)
  else
    let k := s.keyFor o
    let c := m.fcnt.getD k 0
    let micl := miclFor ver o
    match s.meshKey k false with
    | .error code => (none, s.meshCount code)
    | .ok key =>
      if 2 ^ 32 - 1 ≤ c then (none, s.meshCount Rc.COUNTER_END)
      else
        let sh := leOctets 1 (micl * 64 + (if o.jkey then 0 else m.epoch) * 32 + o.jkey.toNat * 16) ++ leOctets 4 c ++ (if o.jkey then beOctets 8 s.ownEui else [])
        let aad := link ++ sh ++ tail
        let f := aad ++ meshSeal key (o.ty = 2) micl s.ownEui c aad o.body
        (some f, s1.setMesh { s1.mesh with fcnt := setAt m.fcnt k (c + 1) })

/-- The value that a frame is to use lies at or above the mark in flash: the mark comes first (R291). -/
def Chip.needsMark (s : Chip) (k : Nat) : Bool := s.mesh.marks.getD k 0 ≤ s.mesh.fcnt.getD k 0

/-- Record the next mark of key `k`, the value in use plus 4,096; one mark is recorded at a time. -/
def Chip.askMark (s : Chip) (k : Nat) : Chip :=
  let marking := s.mesh.todo.any (fun x => match x with
    | .mark _ _ _ => true
    | _ => false)
  if marking then s
  else s.setMesh { s.mesh with todo := s.mesh.todo ++ s.markSteps k (min (2 ^ 32 - 1) (s.mesh.fcnt.getD k 0 + 4096)) }

/-- The longest frame that a profile carries (R288). -/
def Chip.profLimit (s : Chip) (n : Nat) : Nat :=
  let p := s.profM n
  match mMode p with
  | 1 => 255
  | 2 => 2047
  | 3 => 2047 - fkFcs (s.msetOf p)
  | _ => 2047

/-- The limit towards a neighbour entry, or 127: that of the profiles of the cells that can carry a frame there.
[DEDUCED, unsafe: notes/assumptions/173] -/
def Chip.frameLimit (s : Chip) (nbr : Nat) : Nat :=
  let l := (s.validCells.filter (fun e => cellSends e.2.1 e.2.2 && nbrMatches e.2.1 nbr)).map (fun e => s.profLimit (bits e.2.1 4 2))
  match l with
  | [] => s.profLimit s.mesh.prof
  | x :: r => r.foldl min x

/-! ### Frames into the link queues (R263, R264, R279) -/

/-- The buffer of entry `k` of transmit queue `q`.
[DESIGN CHOICE, unsafe: notes/assumptions/121] -/
def txBuf (q k : Nat) : Nat := 0x20000 + ((q - 8) * 16 + k % 16) * 512

/-- Octets as words, four to a word. -/
def packWords (f : List Byte) : List Word :=
  (blocksOf 4 f.length (f ++ List.replicate ((4 - f.length % 4) % 4) 0)).map (fun o => W (leNat o))

/-- Put a frame in transmit queue `q`, where it has room: its octets, its entry, and the tail by the queue's owner. -/
def Chip.placeFrame (s : Chip) (q nbr : Nat) (ack : Bool) (f : List Byte) : Nat × Chip :=
  let k := s.qTail q
  if !s.qOn q then (Rc.QUEUE_OFF, s)
  else if min 17 (s.qSize q) ≤ s.qCount q + 1 then (Rc.QUEUE_FULL, s)
  else
    let w0 := nbr <<< 29 ||| ack.toNat <<< 28 ||| (if ack then 3 else 0) <<< 25 ||| txBuf q k
    let s1 := (s.wrs (txBuf q k) (packWords f)).wrs (s.qEntry q k) [W w0, W f.length]
    (Rc.OK, s1.queTailMove (Agent.ofCode (s.qOwner q)) q (W ((k + 1) % s.qSize q)))

/-- The transmit queue of a frame: by its priority and its neighbour's class (R263); a flood goes out in the BEACON cell
(R315). -/
def Chip.queueFor (s : Chip) (o : MOut) (nbr : Option Nat) : Nat :=
  if o.nt = 3 then beaconQueue else 8 + 4 * o.pri.toNat + (nbr.map s.nbrClass).getD 0

/-- List a frame that was built, and queue it; a queue without room drops it.
[DESIGN CHOICE, safe: notes/assumptions/119] -/
def Chip.queueFrame (s : Chip) (o : MOut) (nbr : Option Nat) (f : List Byte) : Chip :=
  let s1 := s.setMesh { s.mesh with sent := s.mesh.sent ++ [(o.dst, f)] }
  match s1.placeFrame (s1.queueFor o nbr) (nbr.getD 127) o.ack f with
  | (0, s2) => s2
  | (code, s2) => s2.meshCount code

/-- An ADVERT's body for a version-1 link: exactly one parent, the preferred one (R296). -/
def oneParent (b : List Byte) : List Byte := if 1 < octAt b 1 then b.take 1 ++ [0x01] ++ (b.drop 2).take 2 else b

/-- Build and send; a frame above the limit goes nowhere, with TOO_BIG, and one whose counter has no mark yet waits.  ACKREQ is
the entry's ACK, which needs a neighbour entry (R264, R281).
[DESIGN CHOICE, safe: notes/assumptions/119] -/
def Chip.meshSend (s : Chip) (o : MOut) : Nat × Chip :=
  let k := s.keyFor o
  let nbr := s.nbrOf o.dst
  let ver := o.ver.getD (s.verFor o.dst)
  let o1 := { o with ack := o.ack && nbr.isSome, body := if o.ty = 4 && ver = 1 then oneParent o.body else o.body }
  let held := o.sec && (match s.meshKey k false with
    | .ok _ => s.needsMark k && s.mesh.fcnt.getD k 0 < 2 ^ 32 - 1
    | .error _ => false)
  if held then (Rc.OK, (s.setMesh { s.mesh with held := s.mesh.held ++ [o] }).askMark k)
  else
    match s.buildFrame ver o1 with
    | (none, s1) => (s1.mesh.reason, s1)
    | (some f, s1) => if s1.frameLimit (nbr.getD 127) < f.length then (Rc.TOO_BIG, s1.meshCount Rc.TOO_BIG) else (Rc.OK, s1.queueFrame o1 nbr f)

/-- Send UP to the preferred parent (R310). -/
def Chip.meshUp (s : Chip) (ty : Nat) (jt : Option Nat) (body : List Byte) : Chip :=
  match s.mesh.parents with
  | [] => s.meshCount Rc.NO_PARENT
  | p :: _ => (s.meshSend { dst := p, ty := ty, nt := 1, orig := s.saddr, jt := jt, body := body }).2

/-- A LOCAL frame to a neighbour. -/
def Chip.meshLocal (s : Chip) (dst ty : Nat) (body : List Byte) : Chip := (s.meshSend { dst := dst, ty := ty, body := body }).2

/-! ### Parents (R306 to R308) -/

/-- How many parents the node keeps (R278). -/
def Chip.maxParents (s : Chip) : Nat := if s.meshOffer.2 = 1 then 1 else 4

/-- A candidate parent: it beacons, from below the hop limit, with a rank below `own` and a common version (R307); the mesh of a
TK2416 ends at 15 hops (R319).
[DEDUCED, unsafe: notes/assumptions/173] -/
def Chip.eligible (s : Chip) (own : Nat) (p : MeshPeer) : Bool :=
  p.beacons && p.hops < (if s.asTk2416 then 15 else 64) && p.rank < own && (agree s.meshOffer (p.vmin, p.vmax)).isSome

/-- A HELLO: the node's range, role, rank and EUI. -/
def Chip.sendHello (s : Chip) (dst : Nat) : Chip :=
  let o := s.meshOffer
  s.meshLocal dst 6 (leOctets 1 o.1 ++ leOctets 1 o.2 ++ leOctets 1 s.mesh.role ++ leOctets 2 s.ownRank ++ beOctets 8 s.ownEui)

/-- An ADVERT to the root, with the next ASEQ. -/
def Chip.sendAdvert (s : Chip) : Chip :=
  let m := s.mesh
  match m.parents with
  | [] => s
  | p :: _ =>
    let ps := if s.verFor p = 1 then [p] else m.parents
    let s1 := s.setMesh { m with aseq := (m.aseq + 1) % 256, advertAt := some (s.now + secs (60 * m.advint)) }
    s1.meshUp 4 none (leOctets 1 s1.mesh.aseq ++ leOctets 1 ps.length ++ ps.flatMap (leOctets 2))

/-- Ask the preferred parent for the next page of the plan that is being fetched (R304 step 6, R316). -/
def Chip.sendGetPlan (s : Chip) : Chip :=
  match s.mesh.planNew, s.mesh.parents with
  | some (_, page), p :: _ => s.meshLocal p 5 (leOctets 1 3 ++ leOctets 1 0 ++ leOctets 1 page)
  | _, _ => s

/-- `n` beacon periods. -/
def Chip.beaconPeriods (s : Chip) (n : Nat) : Nat := msec (n * s.mesh.sfSize * s.slotLen 0)

/-- A new preferred parent, or the one in force. -/
def Chip.choosePref (s : Chip) : Option MeshPeer :=
  let m := s.mesh
  let cur := (m.parents.head?.bind s.meshPeer).bind (fun p => if p.beacons && p.hops < 64 then some p else none)
  let own := (cur.map (fun p => min 0xFFFE p.sum)).getD 0xFFFF
  let best := (sortBy MeshPeer.sum (m.peers.filter (s.eligible own))).head?
  match cur, best with
  | none, b => b
  | some c, none => some c
  | some c, some b => if b.sum + 192 ≤ own then some b else some c

/-- The node is left without parents: it takes rank 0xFFFF, has no time source, and collects beacons (R298, R308). -/
def Chip.orphan (s : Chip) : Chip :=
  let s1 := s.setMesh { s.mesh with parents := [], before := s.mesh.parents, rank := 0xFFFF, hops := 0, orphanAt := some (s.mesh.orphanAt.getD s.now),
                                    collectAt := some (s.now + s.beaconPeriods 2) }
  ((s1.setTimeSource none).listenCells true).meshSchedule

/-- The node takes `ps` as its parents, `p` first: neighbour entries and the schedule follow, and a HELLO to each parent that
is new, and an ADVERT (R304, R307, R308).  The entry of a parent that is none any more, nor a child, goes.
[DEDUCED, unsafe: notes/assumptions/173] -/
def Chip.takeParents (s : Chip) (old ps : List Nat) (pref : Nat) : Chip :=
  let s0 := (old.filter (fun a => !ps.contains a && (s.meshChild a).isNone)).foldl Chip.dropNbr s
  let s1 := (ps.foldl (fun c a => c.addNbr (some ps) a (c.verFor a)) s0).setTimeSource (some pref)
  let s2 := (if old.isEmpty then s1.listenCells false else s1).meshSchedule
  ((ps.filter (fun a => !old.contains a)).foldl Chip.sendHello s2).sendAdvert

/-- Take `p` as the preferred parent, with the alternates that are then eligible; rank and hop count follow it (R306, R307). -/
def Chip.adopt (s : Chip) (p : MeshPeer) : Chip :=
  let m := s.mesh
  let own := min 0xFFFE p.sum
  let alts := sortBy MeshPeer.sum (m.peers.filter (fun x => x.addr ≠ p.addr && s.eligible own x))
  let ps := p.addr :: (alts.map MeshPeer.addr).take (s.maxParents - 1)
  let s1 := s.setMesh { m with parents := ps, before := if ps = m.parents then m.before else m.parents, rank := own, hops := p.hops + 1, orphanAt := none }
  if ps = m.parents then s1 else s1.takeParents m.parents ps p.addr

/-- Choose parents as the candidates now stand; a node without parents collects beacons first. -/
def Chip.meshParents (s0 : Chip) : Chip :=
  let s := s0.setMesh { s0.mesh with recheck := false }
  let m := s.mesh
  if m.role = 2 || !m.member || (m.parents.isEmpty && m.collectAt.isSome) then s
  else
    match s.choosePref with
    | none => s.orphan
    | some p => s.adopt p

/-- A parent or candidate is dropped. -/
def Chip.dropParent (s : Chip) (a : Nat) : Chip :=
  match s.meshPeer a with
  | none => s
  | some p => (s.setPeer { p with beacons := false, noAcks := 0 }).meshParents

/-! ### Acknowledgements (R304, R306, R307) -/

/-- The root has recorded the ADVERT of a member: the node is joined.
[DEDUCED, unsafe: notes/assumptions/173] -/
def Chip.nowJoined (s : Chip) : Chip :=
  if s.mesh.member && !s.mesh.joined then (s.setMesh { s.mesh with joined := true, joinedAt := none }).meshSchedule else s

/-- A router acknowledged the node's ADVERT: when the root has recorded it, the node does not learn, and takes it so at an instant
that is free.
[DESIGN CHOICE, safe: notes/assumptions/188] -/
def Chip.joinLater (s : Chip) : Chip :=
  if s.mesh.member && !s.mesh.joined && s.mesh.joinedAt.isNone then
    s.draw.setMesh { s.mesh with joinedAt := some (s.now + Config.freeNat s.free) }
  else s

/-- The acknowledgement decision, the sample of Q that a good one gives, and the end of a run of failures. -/
def Chip.ackDecision (s : Chip) : Chip :=
  match s.liveWin with
  | some (l, w) =>
    if s.fld F.LNK_STAT_LIVE = 3 && w.st = .handed && s.ackGood l w then
      let a := s.nbrAddr (s.headNbr l.c.q)
      let s1 := s.ackReceived.sampleQ a (if lhVer w.frame = 1 then bits w.qual 16 9 else octAt w.frame 11)
      let s2 := match s1.meshPeer a with
        | some p => s1.setPeer { p with noAcks := 0 }
        | none => s1
      match meshParse l.octets with
      | some m => if m.ty = 4 && m.orig = s.saddr then (if m.dst = 0 then s2.nowJoined else s2.joinLater) else s2
      | none => s2
    else s.ackReceived
  | none => s

end Sys2Proof.Machine
end

