-- ==== Sys2Proof/Machine/MeshNode.lean ====
section
/-!
DEFINITION. The mesh node (spec/10): the checks of a received frame, beacons, joining, commissioning by tap,
routing, commands, and the layer's own work from cycle to cycle.
-/
namespace Sys2Proof.Machine

/-! ### The common checks of a received frame -/

/-- The versions in which a node accepts a BEACON, HELLO or JOIN frame: those it supports (R295). -/
def Chip.supports (s : Chip) (ver : Nat) : Bool := s.meshOffer.1 ≤ ver && ver ≤ s.meshOffer.2

/-- The frame's sender and counter are accepted: the body in clear, or the code that discards it. -/
def Chip.meshAccept (s : Chip) (f : List Byte) (m : MIn) (euis : List Nat) : Except Nat (Nat × List Byte × Chip) :=
  let offer := m.ty = 2 || m.ty = 3 || m.ty = 6
  let r := if offer then s.meshOffer else s.commonRange m.src
  if m.ver < r.1 ∨ r.2 < m.ver then .error Rc.VERSION
  else if !m.sec then .ok (0, m.body, s)
  else
    let k := if m.jkey then 2 else m.epoch
    match s.meshKey k true with
    | .error code => .error code
    | .ok key =>
      match euis.findSome? (fun e => (meshOpen key (m.ty = 2) m.micl e m.fcnt (f.take m.hdr) m.body m.mic).map (fun b => (e, b))) with
      | none => .error Rc.MIC_FAIL
      | some (e, b) =>
        match s.replayCheck e k m.fcnt with
        | none => .error Rc.REPLAY
        | some s1 => .ok (e, b, s1)

/-- On a version-1 link Q takes the LQI of each frame; a beacon's is taken where its offer is (R306). -/
def Chip.linkQ (s : Chip) (m : MIn) (lqi : Nat) : Chip := if m.ty ≠ 2 && s.verFor m.src = 1 then s.sampleQ m.src lqi else s

/-- A frame from a neighbour or child: a child is heard, and Q may take a sample. -/
def Chip.heard (s : Chip) (m : MIn) (lqi : Nat) : Chip :=
  (s.setMesh { s.mesh with children := s.mesh.children.map (fun c => if c.addr = m.src then { c with heard := s.now } else c) }).linkQ m lqi

/-- Run `g` on an accepted frame, or count the code. -/
def Chip.onFrame (s : Chip) (f : List Byte) (lqi : Nat) (want : MIn → Bool) (g : MIn → List Byte → Chip → Chip) : Chip :=
  match meshParse f with
  | none => s.meshCount Rc.STREAM
  | some m =>
    if !want m then s
    else
      match s.meshAccept f m (s.euiOf m.src).toList with
      | .error code => s.meshCount code
      | .ok (_, b, s1) => g m b (s1.heard m lqi)

/-- A body reaches its destination: it is listed for the application, and what is the layer's own waits for it. -/
def Chip.meshDeliver (s : Chip) (m : MIn) (b : List Byte) : Chip :=
  let item : MeshItem := { orig := if m.nt = 0 then m.src else m.orig, nt := m.nt, ty := m.ty, jt := m.jt, body := b }
  s.setMesh { s.mesh with delivered := s.mesh.delivered ++ [(item.orig, m.ty, b)],
                          inbox := if m.ty = 0 then s.mesh.inbox else s.mesh.inbox ++ [item] }

/-! ### Work that waits for the link engine to be off (R16, R17, R272, R299, R300, R309) -/

/-- ACKUNK changes: as a joiner 0, as a router or root with children 1. -/
def Chip.setAckunk (s : Chip) (v : Bool) : Chip := s.setBit F.LNK_CFG_ACKUNK v

/-- Class 0 begins now with ASN 0. -/
def Chip.startNow (s : Chip) : Chip :=
  ((s.startWrite .badger 0 (W (s.owl.stb % 2 ^ 36))).lnkRegWrite .badger (R.LNK_CLS_ASNHI 0) 0).lnkRegWrite .badger (R.LNK_CLS_ASNLO 0) 0

/-- Steps 3 to 6 of R304: the parent with TS = 1, HELLO, ADVERT, GET_PLAN where the plan is stale, slotframe 1. -/
def Chip.enterMesh (s : Chip) (parent : Nat) : Chip :=
  let s1 := s.setMesh { s.mesh with member := true }
  match s1.meshPeer parent with
  | none => s1.meshParents
  | some p =>
    let stale := p.vmax ≠ 1 && p.planId ≠ s1.mesh.planId
    ((s1.setMesh { s1.mesh with planNew := if stale then some (p.planId, 0) else none }).adopt p).sendGetPlan

/-- One job, with the engine off. -/
def Chip.offStep (s : Chip) : MeshOff → Chip
  | .listen =>
    let s1 := (s.setAckunk false).startNow.joinProfile
    let s2 := (s1.putSlotframe 0 1 false false).putSlotframe 1 1 true false
    (((List.range 8).foldl Chip.dropCell s2)).listenCells true
  | .sync start asn slotLen txoff tack =>
    let s1 := s.startWrite .badger 0 (W start)
    let s2 := (s1.lnkRegWrite .badger (R.LNK_CLS_ASNHI 0) (W (asn / 2 ^ 36))).lnkRegWrite .badger (R.LNK_CLS_ASNLO 0) (W asn)
    let s3 := (s2.lnkRegWrite .badger (R.LNK_CLS_T0 0) (W (slotLen <<< 20 ||| txoff))).lnkRegWrite .badger (R.LNK_CLS_T2 0) (W tack)
    s3.meshSchedule
  | .enter parent => (s.setAckunk true).enterMesh parent
  | .root =>
    let s1 := ((s.setAckunk true).setFld F.LNK_SADDR_SADDR 0).setBit F.LNK_CFG_BCONLY false
    (s1.startNow.joinProfile.setMesh { s1.mesh with member := true, joined := true }).meshSchedule

/-- The engine is off: the jobs are done, and it is enabled again. -/
def Chip.offRun (s : Chip) : Chip :=
  if s.mesh.offJobs.isEmpty || s.bit F.LNK_CTL_EN || s.lnk.running then s
  else ((s.mesh.offJobs.foldl Chip.offStep (s.setMesh { s.mesh with offJobs := [] }))).lnkEnable

/-- A job for the engine off: EN = 0 is written, and the engine stops at its next free boundary (R273). -/
def Chip.offJob (s : Chip) (j : MeshOff) : Chip := ((s.setMesh { s.mesh with offJobs := s.mesh.offJobs ++ [j] }).lnkDisable).offRun

/-! ### Slots filled by UNWRAP (R290, R304, R305, R317, R337) -/

/-- Unwrap a key under slot `key` into slot `tslot`; the store writes its record, and `job` goes on from there.  False where
the engine refuses or the wrap fails. -/
def Chip.unwrapInto (s : Chip) (key tslot : Nat) (kw : List Byte) (job : MeshKeyJob) : Bool × Chip :=
  if s.meshSlots 7 true key tslot ≠ Rc.OK then (false, s)
  else
    match Aes.unwrap ((s.keyOf key).getD []) (toNats kw) with
    | none => (false, s)
    | some k =>
      let n := s.cph.starts
      let s1 := (s.setCph { s.cph with starts := n + 1 }).setMesh { s.mesh with keyJob := some job }
      (true, s1.kstQueue { page := meshPage, slot := tslot, key := k, order := n })

/-! ### Beacons and synchronisation (R286, R300, R307) -/

/-- What a beacon says. -/
structure BeaconInfo where
  vmin : Nat
  vmax : Nat
  flags : Nat
  hops : Nat
  rank : Nat
  asn : Nat
  eui : Nat
  slotLen : Nat
  sfSize : Nat
  planId : Nat
  txoff : Nat
  tack : Nat
deriving DecidableEq, Repr

def readBeacon (ver : Nat) (b : List Byte) : Option BeaconInfo :=
  let le (i n : Nat) : Nat := leNat ((b.drop i).take n)
  let be (i : Nat) : Nat := beNat ((b.drop i).take 8)
  if ver = 1 then
    if b.length < 27 then none
    else some { vmin := 1, vmax := 1, flags := le 0 1, hops := le 1 1, rank := le 2 2, asn := le 4 5, eui := be 9, slotLen := le 17 2,
                sfSize := le 19 2, planId := 0, txoff := le 21 3 % 2 ^ 20, tack := le 24 3 % 2 ^ 20 }
  else if b.length < 31 then none
  else some { vmin := le 0 1, vmax := le 1 1, flags := le 2 1, hops := le 3 1, rank := le 4 2, asn := le 6 6, eui := be 12, slotLen := le 20 2,
              sfSize := le 22 2, planId := le 24 1, txoff := le 25 3 % 2 ^ 20, tack := le 28 3 % 2 ^ 20 }

/-- A beacon's body in the layout of its version. -/
def writeBeacon (ver : Nat) (i : BeaconInfo) : List Byte :=
  let v1 := ver = 1
  (if v1 then [] else leOctets 1 i.vmin ++ leOctets 1 i.vmax) ++ leOctets 1 i.flags ++ leOctets 1 i.hops ++ leOctets 2 i.rank
    ++ leOctets (if v1 then 5 else 6) i.asn ++ beOctets 8 i.eui ++ leOctets 2 i.slotLen ++ leOctets 2 i.sfSize
    ++ (if v1 then [] else leOctets 1 i.planId) ++ leOctets 3 i.txoff ++ leOctets 3 i.tack

/-- The join is open: at the root as it is set, at a router as its preferred parent beacons it; a router without parents
beacons it closed (R308).
[DEDUCED, unsafe: notes/assumptions/173] -/
def Chip.joinIsOpen (s : Chip) : Bool :=
  let m := s.mesh
  if m.role = 2 then m.joinOpen else (m.parents.head?.bind s.meshPeer).any (fun p => bitOf p.flags 1)

/-- The sender accepts children. -/
def Chip.hasRoom (s : Chip) : Bool := s.mesh.role = 2 || (!s.mesh.parents.isEmpty && s.mesh.children.length < 256)

/-- The node's own beacon for the slot of ASN `n`. -/
def Chip.ownBeacon (s : Chip) (n : Nat) : BeaconInfo :=
  let m := s.mesh
  let o := s.meshOffer
  { vmin := o.1, vmax := o.2,
    flags := (m.role = 2 : Bool).toNat ||| s.joinIsOpen.toNat <<< 1 ||| s.hasRoom.toNat <<< 2 ||| m.epoch <<< 3,
    hops := s.ownHops, rank := s.ownRank, asn := n, eui := s.ownEui, slotLen := s.slotLen 0, sfSize := m.sfSize, planId := m.planId,
    txoff := s.fld (F.LNK_CLS_T0_TXOFF 0), tack := s.fld (F.LNK_CLS_T2_TACK 0) }

/-- A joined root or router beacons; without parents it goes on for three beacon periods (R278, R308). -/
def Chip.beaconing (s : Chip) : Bool :=
  let m := s.mesh
  m.role ≠ 0 && m.joined && !m.leaving && m.sfSize ≠ 0 && s.lnk.running && m.orphanAt.all (fun t => s.now < t + s.beaconPeriods 3)

/-- Build the beacon of the next BEACON cell once the last one's slot is over, and put it in the BEACON cell's queue, where no
flood waits; one that was not sent is built anew in its buffer.
[DESIGN CHOICE, unsafe: notes/assumptions/172] -/
def Chip.beaconRun (s : Chip) : Chip :=
  let m := s.mesh
  let due := m.beaconFor.all (fun p => p.1 < s.asnNow 0)
  if !s.beaconing || !due || s.lnk.live.isSome then s
  else if s.needsMark m.epoch then s.askMark m.epoch
  else
    let q := beaconQueue
    let n := nextSlot (s.lnk.nextC.getD 0 0) (beaconSlot s.saddr m.sfSize) m.sfSize
    let ver := s.beaconVer
    let build (c : Chip) : Option (List Byte) × Chip := c.buildFrame ver { dst := 0xFFFF, ty := 2, ack := false, body := writeBeacon ver (c.ownBeacon n) }
    match s.headEntry q, m.beaconFor with
    | none, _ =>
      match build s with
      | (some f, s1) =>
        let s2 := (s1.placeFrame q 127 false f).2
        s2.setMesh { s2.mesh with beaconFor := some (n, txBuf q (s.qTail q)) }
      | (none, s1) => s1
    | some a, some (_, b) =>
      if bits (s.rd a).toNat 23 0 = b then
        match build s with
        | (some f, s1) => (s1.wrs b (packWords f)).setMesh { s1.mesh with beaconFor := some (n, b) }
        | (none, s1) => s1
      else s
    | some _, none => s

/-- The mode of the join channel as a parameter set word. -/
def Chip.joinSetWord (s : Chip) : Nat := (s.reg (mdmSet s.mesh.joinMode s.mesh.joinSet)).toNat

/-- B of R300 in LF ticks: `lo` and `fine` are the stamp's. -/
def Chip.beaconStart (s : Chip) (lo fine : Nat) (i : BeaconInfo) : Nat :=
  let hf : Int := (fine : Int) - tSync s.mesh.joinMode s.joinSetWord - us i.txoff
  ((lo : Int) + awayDiv (hf * 16) 15625 % 2 ^ 36).toNat % 2 ^ 36

/-- Steps 3 to 6 of R300, the engine off in between; the node goes on to collect beacons (R301). -/
def Chip.meshSync (s : Chip) (lo fine src : Nat) (i : BeaconInfo) : Chip :=
  let s1 := s.setMesh { s.mesh with sfSize := i.sfSize, syncSrc := some src, collectAt := some (s.now + msec (2 * i.sfSize * i.slotLen)) }
  s1.offJob (.sync (s.beaconStart lo fine i) i.asn i.slotLen i.txoff i.tack)

/-- The offer, rank and FLAGS of a beacon's sender; Q starts at the first beacon's LQI, and on a version-1 link takes each
(R294, R306). -/
def Chip.takeBeacon (s : Chip) (m : MIn) (i : BeaconInfo) (lqi : Nat) : Chip :=
  let offer := if m.ver = 1 then (1, 1) else (i.vmin, i.vmax)
  match s.takeOffer m.src offer.1 offer.2 with
  | (none, s1) => s1
  | (some v, s1) =>
    let old := s1.meshPeer m.src
    let q := match old with
      | none => lqi
      | some p => if v = 1 then qNext p.q lqi else p.q
    s1.setPeer { addr := m.src, eui := i.eui, vmin := offer.1, vmax := offer.2, rank := i.rank, hops := i.hops, q := q,
                 noAcks := (old.map MeshPeer.noAcks).getD 0, beacons := i.rank ≠ 0xFFFF, beaconAt := s1.now, flags := i.flags, planId := i.planId }

/-- The preferred parent beacons another plan than the node holds: it is asked for (R304 step 6).
[DEDUCED, unsafe: notes/assumptions/173] -/
def Chip.planCheck (s : Chip) : Chip :=
  match s.mesh.parents.head?.bind s.meshPeer with
  | none => s
  | some p =>
    if s.mesh.member && p.vmax ≠ 1 && p.planId ≠ s.mesh.planId && s.mesh.planNew.isNone then
      (s.setMesh { s.mesh with planNew := some (p.planId, 0) }).sendGetPlan
    else s

/-- A node receives a BEACON; `lo` and `fine` are its stamp's, `lqi` its quality's.
[DESIGN CHOICE, unsafe: notes/assumptions/122] -/
def Chip.beaconReceived (s : Chip) (f : List Byte) (lo fine lqi : Nat) : Chip :=
  match meshParse f with
  | none => s.meshCount Rc.STREAM
  | some m =>
    match (if m.ty = 2 then readBeacon m.ver m.body else none) with
    | none => s
    | some i =>
      if i.sfSize < 3 ∨ 4096 < i.sfSize then s.meshCount Rc.STREAM
      else if s.mesh.member then
        match s.meshAccept f m [i.eui] with
        | .error code => s.meshCount code
        | .ok (_, _, s1) => ((s1.takeBeacon m i lqi).meshParents).planCheck
      else if !s.supports m.ver then s.meshCount Rc.VERSION
      else if bitOf i.flags 1 && bitOf i.flags 2 then
        let s1 := s.takeBeacon m i lqi
        if s1.mesh.sfSize = 0 && (s1.meshPeer m.src).isSome then s1.meshSync lo fine m.src i else s1
      else s

/-! ### Joining (R301 to R304) -/

/-- The REQUEST to the candidate in hand, with a fresh nonce; with no candidate left the node collects beacons again.
[DESIGN CHOICE, unsafe: notes/assumptions/122] -/
def Chip.sendRequest (s : Chip) (j : MeshJoin) : Chip :=
  match j.cands with
  | [] => (s.setMesh { s.mesh with join := none, collectAt := some (s.now + s.beaconPeriods 2), joinAt := none }).listenCells true
  | a :: _ =>
    let nonce := Config.freeNat s.free % 2 ^ 32
    let o := s.meshOffer
    let body := leOctets 1 o.1 ++ leOctets 1 o.2 ++ leOctets 1 s.mesh.role ++ leOctets 2 s.mesh.reqAddr ++ leOctets 4 nonce
    let s1 := s.draw.setMesh { s.mesh with join := some { j with tries := j.tries + 1, nonce := nonce }, collectAt := none,
                                               joinAt := some (s.now + s.beaconPeriods 8) }
    (s1.meshSend { dst := a, ty := 3, ack := false, jkey := true, jt := some 1, body := body }).2

/-- The collection ends: a joiner asks the candidates in the order of RANK + step, a member without parents chooses anew
(R301, R308). -/
def Chip.collectEnd (s : Chip) : Chip :=
  if s.mesh.role = 2 then s
  else if s.mesh.member then
    if s.mesh.parents.isEmpty then (s.setMesh { s.mesh with collectAt := none }).meshParents else s
  else
    let l := sortBy MeshPeer.sum (s.mesh.peers.filter (s.eligible 0xFFFF))
    (s.listenCells false).sendRequest { cands := l.map MeshPeer.addr, tries := 0, nonce := 0 }

/-- Move on to the next candidate. -/
def Chip.nextCandidate (s : Chip) : Chip :=
  match s.mesh.join with
  | none => s
  | some j => s.sendRequest { cands := j.cands.tail, tries := 0, nonce := 0 }

/-- No DELIVER came: repeat up to 4 times, then the next candidate. -/
def Chip.joinTimeout (s : Chip) : Chip :=
  match s.mesh.join with
  | none => s
  | some j => if j.tries < 5 then s.sendRequest j else s.nextCandidate

/-- The inner block of a RESPONSE (R287): the root's counter, the 36 octets sealed, the MIC. -/
def innerBlock (key : List Nat) (joiner root fcnt : Nat) (plain : List Byte) : List Byte :=
  let aad := beOctets 8 joiner ++ beOctets 8 root ++ leOctets 4 fcnt
  leOctets 4 fcnt ++ meshSeal key false 1 root fcnt aad plain

/-- The DELIVER of a RESPONSE's body, in version `ver`. -/
def Chip.sendDeliver (s : Chip) (ver : Nat) (body : List Byte) : Chip :=
  (s.meshSend { dst := 0xFFFF, ty := 3, ver := some ver, ack := false, sec := false, jt := some 4, body := body }).2

/-- A joiner becomes a child of the node (R309); its address is not known before its HELLO. -/
def Chip.addJoiner (s : Chip) (eui vmin vmax : Nat) : Chip :=
  let m := s.mesh
  if m.children.any (fun c => c.eui = eui) || (m.role = 1 && 256 ≤ m.children.length) then s
  else s.setMesh { m with children := m.children ++ [{ addr := 0xFFFE, eui := eui, vmin := vmin, vmax := vmax, heard := s.now }] }

/-! Route table (R311 to R314). -/

def Chip.rt (s : Chip) (a : Nat) : Nat := (s.rd (s.mesh.rtBase + 2 * a)).toNat
def rtValid (w : Nat) : Bool := bitOf w 35
def rtParent (w : Nat) : Nat := bits w 27 14
def rtAlt (w : Nat) : Nat := bits w 13 0

/-- route(d): the code, and the list of R313. -/
def Chip.routeList (s : Chip) : Nat → Nat → List Nat → Nat × List Nat
  | 0, _, _ => (Rc.HOP_LIMIT, [])
  | k + 1, a, l =>
    let p := rtParent (s.rt a)
    if p = 0 then (Rc.OK, l)
    else if !rtValid (s.rt p) then (Rc.NO_ROUTE, [])
    else if l.length = 63 then (Rc.HOP_LIMIT, [])
    else s.routeList k p (p :: l)

/-- A destination has an entry: 1 to 0x3FFF (R277, R311). -/
def Chip.routeTo (s : Chip) (d : Nat) : Nat × List Nat :=
  if 1 ≤ d && d ≤ 0x3FFF && rtValid (s.rt d) then s.routeList 65 d [] else (Rc.NO_ROUTE, [])

/-- The root sends to `d`: DOWN along its route, of at most 15 entries where the first link is version 1 (R296, R313); to
0xFFFF a FLOOD with the next FSEQ (R315).
[DEDUCED, unsafe: notes/assumptions/173] -/
def Chip.sendDown (s : Chip) (d ty : Nat) (jt : Option Nat) (body : List Byte) : Chip :=
  if s.mesh.role ≠ 2 then s
  else if d = 0xFFFF then
    let n := (s.mesh.fseq + 1) % 256
    ((s.setMesh { s.mesh with fseq := n }).meshSend { dst := 0xFFFF, ty := ty, nt := 3, fdst := 0xFFFF, orig := s.saddr, fseq := n, jt := jt, body := body }).2
  else
    match s.routeTo d with
    | (0, []) => (s.meshSend { dst := d, ty := ty, nt := 2, fdst := d, orig := s.saddr, jt := jt, body := body }).2
    | (0, h :: r) =>
      if s.verFor h = 1 && 15 < r.length then s.meshCount Rc.HOP_LIMIT
      else (s.meshSend { dst := h, ty := ty, nt := 2, fdst := d, orig := s.saddr, route := r, jt := jt, body := body }).2
    | (code, _) => s.meshCount code

/-- ROOT_SEND_DOWN: what the root may send (R284): DATA, a RESPONSE or a command DOWN, a command as a FLOOD. -/
def Chip.rootSend (s : Chip) (d ty : Nat) (jt : Option Nat) (body : List Byte) : Chip :=
  if (ty = 5 && jt.isNone) || (d ≠ 0xFFFF && ((ty = 0 && jt.isNone) || (ty = 3 && jt = some 3))) then s.sendDown d ty jt body else s

/-- The address register: entries given since the reset, then those in flash, address and EUI-64 in two words (R303). -/
def Chip.addrList (s : Chip) : List (Nat × Nat) :=
  s.mesh.addrs ++ s.flash.filterMap (fun e =>
    if addrEntry 1 ≤ e.1 && e.1 < addrEntry 0x4000 && e.1 % 2 = 0 then
      some ((e.1 - addrEntry 0) / 2, (s.flashRd e.1).toNat % 2 ^ 32 * 2 ^ 32 + (s.flashRd (e.1 + 1)).toNat % 2 ^ 32)
    else none)

/-- Record EUI and address in the register, unless they stand there. -/
def Chip.recordAddr (s : Chip) (a eui : Nat) : Chip :=
  if s.addrList.contains (a, eui) then s
  else s.setMesh { s.mesh with addrs := (a, eui) :: s.mesh.addrs,
                               todo := s.mesh.todo ++ [.prog (addrEntry a) (eui / 2 ^ 32), .prog (addrEntry a + 1) (eui % 2 ^ 32)] }

/-- The address that the root gives, or the reason why not (R303); pinned to version 1 it gives those up to 0x0FFF (R319). -/
def Chip.joinDecision (s : Chip) (eui role req : Nat) : Nat × Nat :=
  let m := s.mesh
  let l := s.addrList
  let holder (a : Nat) : Option Nat := (l.find? (fun e => e.1 = a)).map Prod.snd
  let top := if s.asTk2416 then 0x0FFF else 0x3FFF
  if !m.joinOpen || bitOf m.refuse role then (Rc.JOIN_REFUSED, 0)
  else if req ≠ 0xFFFF then
    if 1 ≤ req && req ≤ top && (holder req = none || holder req = some eui) then (Rc.OK, req) else (Rc.ADDR_CONFLICT, 0)
  else
    match l.find? (fun e => e.2 = eui) with
    | some e => (Rc.OK, e.1)
    | none =>
      match (List.range top).find? (fun a => (holder (a + 1)).isNone) with
      | some a => (Rc.OK, a + 1)
      | none => (Rc.JOIN_REFUSED, 0)

/-- The RESPONSE's body for a decided REQUEST: the joiner, the root, and the inner block sealed under the join key with the
root's counter `c` (R287, R303). -/
def Chip.responseBody (s : Chip) (key : List Nat) (joiner code addr c : Nat) (nonce : List Byte) : List Byte :=
  let m := s.mesh
  let ok := code = Rc.OK
  let kw := if ok then ofNats (Aes.wrap key ((s.keyOf (s.meshSlot m.epoch)).getD [])) else List.replicate 24 0
  let plain := leOctets 1 code ++ leOctets 2 addr ++ leOctets 1 (if ok then m.epoch else 0) ++ kw ++ leOctets 2 m.advint ++ leOctets 2 m.sf1Size ++ nonce
  beOctets 8 joiner ++ beOctets 8 s.ownEui ++ innerBlock key joiner s.ownEui c plain

/-- The root decides on a REQUEST that `parent` relayed, or received itself where `parent` is 0.  The join key must serve to
open it, to seal the answer and to wrap the network key (R329, R338).
[DEDUCED, unsafe: notes/assumptions/173] -/
def Chip.rootJoin (s : Chip) (parent : Nat) (req : List Byte) : Chip :=
  match meshParse req with
  | none => s
  | some m =>
    if s.mesh.role ≠ 2 || m.ty ≠ 3 || m.jt ≠ 1 then s
    else
      match s.meshAccept req m [m.eui], s.meshKey 2 false with
      | .ok (_, b, s1), .ok key =>
        let c := s1.mesh.fcnt.getD 2 0
        let range := (octAt b 0, octAt b 1)
        if b.length ≠ 9 then s1
        -- an address field of other bits is malformed (R277)
        else if 0x3FFF < oct2 b 3 && oct2 b 3 ≠ 0xFFFF then s1.meshCount Rc.STREAM
        else if parent = 0 && (agree s1.meshOffer range).isNone then s1.meshCount Rc.VERSION
        else if s1.meshSlots 6 false (s1.meshSlot 2) (s1.meshSlot s1.mesh.epoch) ≠ Rc.OK then s1.meshCount Rc.KEY_SLOT
        else if 2 ^ 32 - 1 ≤ c then s1.meshCount Rc.COUNTER_END
        else if s1.needsMark 2 then (s.setMesh { s.mesh with heldJoin := s.mesh.heldJoin ++ [(parent, req)] }).askMark 2
        else
          let (code, a) := s1.joinDecision m.eui (octAt b 2) (oct2 b 3)
          let body := s1.responseBody key m.eui code a c (b.drop 5)
          let s2 := s1.setMesh { s1.mesh with fcnt := setAt s1.mesh.fcnt 2 (c + 1) }
          let s3 := if code = Rc.OK then s2.recordAddr a m.eui else s2
          if parent = 0 then (s3.addJoiner m.eui range.1 range.2).sendDeliver ((agree s1.meshOffer range).getD m.ver) body
          else s3.sendDown parent 3 (some 3) body
      | _, _ => s

/-- A parent receives a REQUEST: it keeps the version that the joiner and it agree on, and relays (R294, R302).
[DEDUCED, unsafe: notes/assumptions/173] -/
def Chip.requestReceived (s : Chip) (f : List Byte) (lqi : Nat) : Chip :=
  match meshParse f with
  | none => s.meshCount Rc.STREAM
  | some m =>
    if m.ty ≠ 3 || m.jt ≠ 1 || s.mesh.role = 0 || !s.mesh.joined && s.mesh.role ≠ 2 then s
    else if 256 ≤ s.mesh.children.length && s.mesh.role = 1 then s.meshCount Rc.CHILD_FULL
    else if !s.supports m.ver then s.meshCount Rc.VERSION
    else if s.mesh.role = 2 then s.rootJoin 0 f
    else
      let s1 := s.setMesh { s.mesh with joiners := (m.eui, m.ver) :: s.mesh.joiners.filter (fun e => e.1 ≠ m.eui) }
      s1.meshUp 3 (some 2) (leOctets 1 lqi ++ leOctets 2 f.length ++ f)

/-- The root is delivered a RELAY from `parent`. -/
def Chip.relayReceived (s : Chip) (parent : Nat) (body : List Byte) : Chip :=
  if s.mesh.role ≠ 2 || body.length < 3 || body.length ≠ 3 + oct2 body 1 then s else s.rootJoin parent (body.drop 3)

/-- A parent is delivered a RESPONSE: the joiner becomes a child, and gets the DELIVER in the version of its REQUEST
(R304, R309).
[DESIGN CHOICE, unsafe: notes/assumptions/122] -/
def Chip.responseReceived (s : Chip) (body : List Byte) : Chip :=
  if s.mesh.role ≠ 1 || body.length < 16 then s
  else
    let eui := beNat (body.take 8)
    let ver := ((s.mesh.joiners.find? (fun e => e.1 = eui)).map Prod.snd).getD s.meshOffer.2
    (s.addJoiner eui ver ver).sendDeliver ver body

/-- Steps 2 to 6 of R304, once the key is in its slot: the address, then the mesh under the parent; a router sets ACKUNK first,
with the engine off (R309). -/
def Chip.completeJoin (s : Chip) (parent addr epoch advint sf1 : Nat) : Chip :=
  let m := s.mesh
  let s1 := s.setMesh { m with join := none, joinAt := none, collectAt := none, epoch := epoch, left := setAt m.left epoch false,
                               advint := advint, sf1Size := sf1, parents := [] }
  let s2 := (s1.setFld F.LNK_SADDR_SADDR addr).setFld F.LNK_CFG_BCONLY 0
  if m.role = 1 then s2.offJob (.enter parent) else s2.enterMesh parent

/-- A joiner receives a DELIVER. -/
def Chip.deliverReceived (s0 : Chip) (r : MeshRx) : Chip :=
  match meshParse r.octets, s0.mesh.join, s0.meshKey 2 true with
  | some m, some j, .ok key =>
    let s := s0.linkQ m r.lqi
    let b := m.body
    if m.ty ≠ 3 || m.jt ≠ 4 || b.length ≠ 64 || beNat (b.take 8) ≠ s.ownEui || s.mesh.member then s
    else if !s.supports m.ver then s.meshCount Rc.VERSION
    else
      let root := beNat ((b.drop 8).take 8)
      let c := leNat ((b.drop 16).take 4)
      match meshOpen key false 1 root c (b.take 20) ((b.drop 20).take 36) (b.drop 56) with
      | none => s
      | some p =>
        if leNat (p.drop 32) ≠ j.nonce then s
        else if octAt p 0 ≠ Rc.OK then s.nextCandidate
        else
          let e := octAt p 3 % 2
          (s.unwrapInto (s.meshSlot 2) (s.meshSlot e) ((p.drop 4).take 24) (.join (j.cands.headD 0) (oct2 p 1) e (oct2 p 28) (oct2 p 30))).2
  | _, _, _ => s0

/-- A HELLO: the offer, and for a router or root a child with its neighbour entry, where one is free, and its TX cell
(R294, R297, R309).  The EUI-64 of a sender that the node has in no table comes to it by a way that the spec does not give.
[DESIGN CHOICE, safe: notes/assumptions/189] -/
def Chip.helloReceived (s : Chip) (f : List Byte) (lqi : Nat) : Chip :=
  match meshParse f with
  | none => s.meshCount Rc.STREAM
  | some m =>
    if m.ty ≠ 6 then s
    else
      let known := s.mesh.peers.map MeshPeer.eui ++ s.mesh.children.map MeshChild.eui ++ s.addrList.map Prod.snd
      match s.meshAccept f m ((s.euiOf m.src).toList ++ known ++ [Config.meshEui m.src % 2 ^ 64]) with
      | .error code => s.meshCount code
      | .ok (e, b, s1) =>
        if b.length ≠ 13 then s1.meshCount Rc.STREAM
        else
          match s1.takeOffer m.src (octAt b 0) (octAt b 1) with
          | (none, s2) => s2
          | (some v, s2) =>
            let s3 := Chip.heard (match s2.meshPeer m.src with
              | some p => s2.setPeer { p with vmin := octAt b 0, vmax := octAt b 1 }
              | none => s2) m lqi
            let rest := s3.mesh.children.filter (fun c => c.eui ≠ e && c.addr ≠ m.src)
            if s3.mesh.role = 0 then s3
            else if s3.mesh.role = 1 && 256 ≤ rest.length then s3.meshCount Rc.CHILD_FULL
            else
              let s4 := s3.setMesh { s3.mesh with children := rest ++ [{ addr := m.src, eui := e, vmin := octAt b 0, vmax := octAt b 1, heard := s3.now }] }
              (s4.addNbr none m.src v).meshSchedule

/-- Every neighbour entry invalid, and the settings of a joiner (R299); the engine is off while ACKUNK changes, and the node
then listens on the join channel. -/
def Chip.becomeJoiner (s : Chip) : Chip :=
  let s1 := (List.range 64).foldl (fun c n => c.setReg (R.LNK_NBR_0 n) 0) s
  let s2 := (s1.setFld F.LNK_SADDR_SADDR 0).setFld F.LNK_CFG_BCONLY 1
  let m := s2.mesh
  (s2.setMesh { m with member := false, joined := false, joinedAt := none, leaving := false, left := [true, true], switch := none, peers := [], parents := [], before := [], rank := 0xFFFF, hops := 0,
                       children := [], join := none, joiners := [], syncSrc := none, collectAt := none, joinAt := none, advertAt := none,
                       orphanAt := none, beaconFor := none, planNew := none, sfSize := 0, replay := [], held := [], heldJoin := [], fseqLast := none }).offJob .listen

/-! ### Credentials (R299, R305) -/

/-- Take the credentials of a body: mesh ID, join channel, versions, role, address to ask for, JSLOT. -/
def Chip.takeCred (s : Chip) (b : List Byte) : Chip :=
  let id := leNat ((b.drop 1).take 3)
  let m := { s.mesh with cred := id, joinFreq := leNat ((b.drop 4).take 4) % 2 ^ 30, joinMode := bits (octAt b 8) 7 6, joinSet := bits (octAt b 8) 5 3,
                         role := octAt b 11, reqAddr := oct2 b 12, jslot := octAt b 14, up := true }
  let s1 := (s.setMesh m).setFld F.LNK_MESHID_MESHID id
  let v := setAt s1.cfg.versions 1 (octAt b 9 ≠ octAt b 10, octAt b 9, octAt b 10)
  { s1 with cfg := { s1.cfg with versions := v } }

/-- Credentials that a node can run with: a mesh (R277), and for a node pinned to version 1 no chirp multiplex (R319). -/
def credOk (b : List Byte) : Bool :=
  leNat ((b.drop 1).take 3) ≠ 0 && !(octAt b 9 = 1 && octAt b 10 = 1 && bits (octAt b 8) 7 6 = 2)

/-- The words of the settings' sector that a body gives, ended by the word that marks them whole. -/
def settingSteps (b : List Byte) : List MeshFlash :=
  let ws := packWords b
  (.erase meshSetBase :: ws.zipIdx.map (fun (w, i) => MeshFlash.prog (meshSetBase + i) w.toNat)) ++ [.prog (meshSetBase + 12) meshSetEnd.toNat]

/-- A tap body: refused with STREAM, or with KEY_SLOT where its key cannot be unwrapped into JSLOT; what it gives is taken
once the key store has written the slot.  A node pinned to version 1 takes none (R319).
[DEDUCED, unsafe: notes/assumptions/173] -/
def Chip.tapApply (s : Chip) (b : List Byte) : Chip :=
  if s.asTk2416 then s
  else if b.length ≠ 39 ∨ octAt b 0 ≠ 1 ∨ credOk b = false then s.meshCount Rc.STREAM
  else
    match s.unwrapInto 1 (octAt b 14) (b.drop 15) (.tap b) with
    | (false, s1) => s1.meshCount Rc.KEY_SLOT
    | (true, s1) => s1

/-- The key of a tap body is in JSLOT: the node has its credentials, keeps them in flash, and joins. -/
def Chip.tapDone (s : Chip) (b : List Byte) : Chip :=
  let s1 := s.takeCred b
  ((s1.setMesh { s1.mesh with todo := s1.mesh.todo ++ settingSteps b }).becomeJoiner).meshCount Rc.OK

/-! ### Routing (R310 to R315) -/

/-- The entries of the route to `d`, from `d` on. -/
def Chip.routeEntries (s : Chip) : Nat → Nat → List Nat
  | 0, _ => []
  | k + 1, a =>
    if !rtValid (s.rt a) then [] else if rtParent (s.rt a) = 0 then [a] else a :: s.routeEntries k (rtParent (s.rt a))

/-- A ROUTE_ERR delivered at the root. -/
def Chip.routeErrReceived (s : Chip) (fdst hop : Nat) : Chip :=
  if s.mesh.role ≠ 2 || fdst = 0 || 0x3FFF < fdst then s
  else
    let hit := (s.routeEntries 64 fdst).filter (fun a => rtParent (s.rt a) = hop && bitOf (s.rt a) 34)
    if hit.isEmpty then s.wr (s.mesh.rtBase + 2 * fdst) (W (putBit (s.rt fdst) 35 false))
    else hit.foldl (fun c a =>
      let w := c.rt a
      c.wr (c.mesh.rtBase + 2 * a) (W (w / 2 ^ 28 <<< 28 ||| rtAlt w <<< 14 ||| rtParent w))) s

/-- ROUTE_ERR to the root, which takes its own at once; a node pinned to version 1 never sends one (R314, R319). -/
def Chip.sendRouteErr (s : Chip) (code fdst hop : Nat) : Chip :=
  if s.mesh.role = 2 then s.routeErrReceived fdst hop
  else if s.asTk2416 then s
  else s.meshUp 5 none (leOctets 1 7 ++ leOctets 1 0 ++ leOctets 1 code ++ leOctets 2 fdst ++ leOctets 2 hop)

/-- Send a frame; one that the node forwards and that is above the next hop's limit is reported to the root (R288). -/
def Chip.meshPass (s : Chip) (o : MOut) : Chip :=
  let (code, s1) := s.meshSend o
  if code = Rc.TOO_BIG && ((o.nt = 1 && o.orig ≠ s.saddr) || o.nt = 2) then s1.sendRouteErr code o.fdst o.dst else s1

/-- A frame discarded. -/
def Chip.meshDrop (s : Chip) (code : Nat) : Chip := s.meshCount code

/-- Octets after JT as one body: JT stands in front of a join body. -/
def withJt (m : MIn) : Option Nat := if m.ty = 3 then some m.jt else none

/-- An UP frame.  An ADVERT in version 1 names exactly one parent (R296). -/
def Chip.upReceived (s : Chip) (f : List Byte) (lqi : Nat) : Chip :=
  s.onFrame f lqi (fun m => m.nt = 1) fun m b s =>
    if m.ver = 1 && m.ty = 4 && octAt b 1 ≠ 1 then s.meshDrop Rc.STREAM
    else if s.mesh.role = 2 then s.meshDeliver m b
    else if s.mesh.role = 0 then s
    else if s.mesh.parents.contains m.src then s.meshDrop Rc.RANK_LOOP
    else if m.hop = 1 then s.meshDrop Rc.HOP_LIMIT
    else
      match s.mesh.parents with
      | [] => s.meshDrop Rc.NO_PARENT
      | p :: _ =>
        s.meshPass { dst := p, ty := m.ty, pri := lhPri f = 1, nt := 1, hop := m.hop - 1, orig := m.orig, jt := withJt m, body := b }

/-- A neighbour or child that the node can send to. -/
def Chip.reachable (s : Chip) (a : Nat) : Bool := (s.offerOf a).isSome || (s.nbrOf a).isSome

/-- A DOWN frame.  One for the node itself shows that the root holds its route; a router without parents forwards nothing
(R308).
[DEDUCED, unsafe: notes/assumptions/173] -/
def Chip.downReceived (s : Chip) (f : List Byte) (lqi : Nat) : Chip :=
  s.onFrame f lqi (fun m => m.nt = 2) fun m b s =>
    if m.fdst = s.saddr then (s.nowJoined).meshDeliver m b
    else if m.hop = 1 then s.meshDrop Rc.HOP_LIMIT
    else if s.mesh.role = 0 then s
    else if s.mesh.role = 1 && s.mesh.parents.isEmpty then s.meshDrop Rc.NO_PARENT
    else
      let (h, r) := match m.route with
        | [] => (m.fdst, [])
        | x :: l => (x, l)
      if !s.reachable h then (s.meshDrop Rc.NO_ROUTE).sendRouteErr Rc.NO_ROUTE m.fdst h
      else if s.verFor h = 1 && 15 < r.length then (s.meshDrop Rc.HOP_LIMIT).sendRouteErr Rc.HOP_LIMIT m.fdst h
      else
        s.meshPass { dst := h, ty := m.ty, pri := lhPri f = 1, nt := 2, hop := m.hop - 1, fdst := m.fdst, orig := m.orig, route := r,
                     jt := withJt m, body := b }

def Chip.floodReceived (s : Chip) (f : List Byte) (lqi : Nat) : Chip :=
  s.onFrame f lqi (fun m => m.nt = 3) fun m b s =>
    let d := match s.mesh.fseqLast with
      | none => 1
      | some x => (m.fseq + 256 - x) % 256
    if d = 0 || 127 < d || s.mesh.role = 2 then s
    else
      let s1 := (s.setMesh { s.mesh with fseqLast := some m.fseq }).meshDeliver m b
      if s1.mesh.role = 1 && m.hop ≠ 1 && !s1.mesh.parents.isEmpty then
        (s1.meshSend { dst := 0xFFFF, ty := m.ty, pri := lhPri f = 1, nt := 3, hop := m.hop - 1, fdst := 0xFFFF, orig := m.orig, fseq := m.fseq, body := b }).2
      else s1

/-- The parents that an ADVERT's body names; none where it does not hold NPAR of them, from 1 to 4, or one is no short
address (R277, R284). -/
def advertParents (b : List Byte) : Option (List Nat) :=
  let n := octAt b 1
  let l := (List.range n).map (fun i => oct2 b (2 + 2 * i))
  if 1 ≤ n ∧ n ≤ 4 ∧ b.length = 2 + 2 * n ∧ l.all (fun a => a ≤ 0x3FFF) then some l else none

/-- An ADVERT delivered at the root: ASEQ, NPAR and the parents. -/
def Chip.advertReceived (s : Chip) (orig : Nat) (b : List Byte) : Chip :=
  if s.mesh.role ≠ 2 || orig = 0 || 0x3FFF < orig then s
  else
    match advertParents b with
    | none => s.meshCount Rc.STREAM
    | some l =>
      let a := s.mesh.rtBase + 2 * orig
      let d := (octAt b 0 + 256 - bits (s.rd (a + 1)).toNat 35 28) % 256
      if rtValid (s.rt orig) && (d = 0 || 127 < d) then s
      else
        let w0 := 1 <<< 35 ||| (2 ≤ l.length : Bool).toNat <<< 34 ||| l.headD 0 <<< 14 ||| l.getD 1 0
        s.wrs a [W w0, W (octAt b 0 <<< 28 ||| (s.reg R.RTC_SEC).toNat % 2 ^ 28)]

/-- The root clears a route entry that has grown old.
[DESIGN CHOICE, unsafe: notes/assumptions/69] -/
def Chip.routeExpiry (s : Chip) (a : Nat) : Chip :=
  let base := s.mesh.rtBase + 2 * a
  let age := ((s.reg R.RTC_SEC).toNat % 2 ^ 28 + 2 ^ 28 - bits (s.rd (base + 1)).toNat 27 0) % 2 ^ 28
  if s.mesh.role = 2 && 1 ≤ a && a ≤ 0x3FFF && rtValid (s.rt a) && 180 * s.mesh.advint < age then s.wr base (W (putBit (s.rt a) 35 false))
  else s

/-- The parents after `a` in a list. -/
def parentsAfter (a : Nat) : List Nat → List Nat
  | [] => []
  | p :: l => if p = a then l else parentsAfter a l

/-- The parent to try after `a`: of one that has been dropped since, the next that is a parent still, or the preferred one where
it is not known which came after it (R310). -/
def Chip.nextParent (s : Chip) (a : Nat) : Option Nat :=
  let m := s.mesh
  if m.parents.contains a then (parentsAfter a m.parents).head?
  else if m.before.contains a then (parentsAfter a m.before).find? m.parents.contains
  else m.parents.head?

/-- The body of a frame that the node itself built. -/
def Chip.ownBody (s : Chip) (f : List Byte) (m : MIn) : Option (List Byte) :=
  if !m.sec then some m.body
  else
    match s.meshKey (if m.jkey then 2 else m.epoch) true with
    | .ok key => meshOpen key false m.micl s.ownEui m.fcnt (f.take m.hdr) m.body m.mic
    | .error _ => none

/-- A link entry came back with NO_ACK; `f` is its frame (R306, R307, R310, R314). -/
def Chip.noAckReturn (s : Chip) (f : List Byte) (tries : Nat) : Chip :=
  match meshParse f with
  | none => s
  | some m =>
    let s0 := s.missQ m.dst tries
    let next := s0.nextParent m.dst
    let s1 := match s0.meshPeer m.dst with
      | none => s0
      | some p => if 3 ≤ p.noAcks + 1 then s0.dropParent m.dst else s0.setPeer { p with noAcks := p.noAcks + 1 }
    match s1.ownBody f m with
    | none => s1
    | some b =>
      if m.nt = 1 then
        match next with
        | none => s1.meshDrop Rc.NO_PARENT
        | some p => s1.meshPass { dst := p, ty := m.ty, pri := lhPri f = 1, nt := 1, hop := m.hop, orig := m.orig, jt := withJt m, body := b }
      else if m.nt = 2 then s1.sendRouteErr Rc.NO_ACK m.fdst m.dst
      else s1

/-- ADVINT minutes have passed. -/
def Chip.advertInterval (s : Chip) : Chip :=
  if s.mesh.member then (s.setMesh { s.mesh with advertAt := some (s.now + secs (60 * s.mesh.advint)) }).sendAdvert else s

/-- 3 × ADVINT minutes have passed without a frame from the child. -/
def Chip.childSilent (s : Chip) (c : MeshChild) : Bool := c.heard + secs (180 * s.mesh.advint) < s.now

/-- A silent child goes, and its neighbour entry with it, unless it is a parent too (R309). -/
def Chip.childTimeout (s : Chip) (a : Nat) : Chip :=
  let s1 := s.setMesh { s.mesh with children := s.mesh.children.filter (fun c => !(c.addr = a && s.childSilent c)) }
  if s1.mesh.parents.contains a || (s1.meshChild a).isSome then s1 else (s1.dropNbr a).meshSchedule

/-! ### Commands (R316, R317) -/

/-- Answer a command: one that came LOCAL to its sender, else UP to the root; the root answers DOWN.
[DEDUCED, unsafe: notes/assumptions/173] -/
def Chip.meshReply (s : Chip) (w : CmdFrom) (cid token code : Nat) (data : List Byte) : Chip :=
  let b := leOctets 1 (cid + 0x80) ++ leOctets 1 token ++ leOctets 1 code ++ data
  if w.loc then s.meshLocal w.orig 5 b
  else if s.mesh.role = 2 then s.sendDown w.orig 5 none b
  else s.meshUp 5 none b

/-- What refuses a command of the root before it is looked at. -/
def Chip.cmdCheck (s : Chip) (w : CmdFrom) : Nat :=
  if !s.mesh.joined then Rc.NOT_JOINED else if w.orig ≠ 0 then Rc.SECURITY else Rc.OK

/-- A command that the root alone may send. -/
def Chip.rootCmd (s : Chip) (w : CmdFrom) (cid token : Nat) (g : Chip → Nat × List Byte × Chip) : Chip :=
  let code := s.cmdCheck w
  if code ≠ Rc.OK then s.meshReply w cid token code []
  else
    let (c, data, s1) := g s
    s1.meshReply w cid token c data

def Chip.cmdPing (s : Chip) (w : CmdFrom) (token : Nat) : Chip :=
  s.rootCmd w 1 token fun s => (Rc.OK, leOctets 2 s.ownRank ++ leOctets 1 s.ownHops, s)

def Chip.cmdGetInfo (s : Chip) (w : CmdFrom) (token : Nat) : Chip :=
  s.rootCmd w 2 token fun s =>
    let m := s.mesh
    let o := s.meshOffer
    (Rc.OK, beOctets 8 s.ownEui ++ leOctets 1 m.role ++ leOctets 1 o.1 ++ leOctets 1 o.2 ++ leOctets 2 s.ownRank ++ leOctets 1 s.ownHops
      ++ leOctets 1 m.parents.length ++ m.parents.flatMap (leOctets 2) ++ leOctets 2 (s.fld F.MON_PLAN1_LIFE)
      ++ leOctets 4 (m.fcnt.getD m.epoch 0), s)

/-- One page of the channel plan. -/
def Chip.planPage (s : Chip) (page : Nat) : List Byte :=
  let n := s.fld F.LNK_HOPCFG_HOPLEN
  let first := 16 * page
  let count := min 16 (n - first)
  leOctets 1 s.mesh.planId ++ leOctets 1 n ++ leOctets 1 first ++ leOctets 1 count ++
    (List.range count).flatMap (fun i =>
      leOctets 1 (s.fld ⟨R.LNK_HOP (first + i), 5, 0⟩) ++ leOctets 4 (s.fld ⟨R.LNK_CH (first + i), 29, 0⟩))

def Chip.cmdGetPlan (s : Chip) (w : CmdFrom) (token page : Nat) : Chip :=
  if !s.mesh.joined then s.meshReply w 3 token Rc.NOT_JOINED []
  else if s.fld F.LNK_HOPCFG_HOPLEN ≤ 16 * page then s.meshReply w 3 token Rc.RANGE []
  else s.meshReply w 3 token Rc.OK (s.planPage page)

/-- The answer to GET_PLAN: its entries are loaded; the next page is asked for, or the plan is complete and slotframe 1 goes
on (R304 step 6, R316). -/
def Chip.planReceived (s : Chip) (b : List Byte) : Chip :=
  let first := octAt b 2
  let count := octAt b 3
  match s.mesh.planNew with
  | none => s
  | some (id, page) =>
    if b.length ≠ 4 + 5 * count || octAt b 0 ≠ id || first ≠ 16 * page || 64 < first + count then s
    else
      let load (c : Chip) (i : Nat) : Chip :=
        (c.lnkRegWrite .badger (R.LNK_HOP (first + i)) (W (octAt b (4 + 5 * i) % 64))).chWrite .badger (first + i) (W (leNat ((b.drop (5 + 5 * i)).take 4)))
      let s1 := (List.range count).foldl load s
      if first + count < octAt b 1 then (s1.setMesh { s1.mesh with planNew := some (id, page + 1) }).sendGetPlan
      else
        let s2 := s1.lnkRegWrite .badger R.LNK_HOPCFG (W (octAt b 1))
        (s2.setMesh { s2.mesh with planId := id, planNew := none }).meshSchedule

/-- KEY_NEXT: the key is unwrapped into the other epoch's slot; the answer OK follows when the store has written it. -/
def Chip.cmdKeyNext (s : Chip) (w : CmdFrom) (token epoch : Nat) (kw : List Byte) : Chip :=
  let other := 1 - s.mesh.epoch
  let code := s.cmdCheck w
  if code ≠ Rc.OK then s.meshReply w 4 token code []
  else if s.mesh.switch.isSome then s.meshReply w 4 token Rc.BUSY []
  else if kw.length ≠ 24 || epoch ≠ other then s.meshReply w 4 token Rc.KEY_SLOT []
  else
    match s.unwrapInto (s.meshSlot s.mesh.epoch) (s.meshSlot other) kw (.keyNext w token other) with
    | (false, s1) => s1.meshReply w 4 token Rc.KEY_SLOT []
    | (true, s1) => s1

/-- The next epoch's key is in its slot: it is accepted, and its counters begin at 0 (R291, R292, R317). -/
def Chip.keyNextDone (s : Chip) (w : CmdFrom) (token epoch code : Nat) : Chip :=
  if code ≠ Rc.OK then s.meshReply w 4 token code []
  else
    let m := s.mesh
    (s.setMesh { m with left := setAt m.left epoch false, replay := m.replay.filter (fun r => r.key ≠ epoch), fcnt := setAt m.fcnt epoch 0,
                        marks := setAt m.marks epoch 0 }).meshReply w 4 token Rc.OK []

/-- The node sends under the new epoch.  The counter of a key that KEY_NEXT brought begins at 0; that of a key already used goes
on, since no value may be used twice (R291, R317).
[DEDUCED, unsafe: notes/assumptions/173] -/
def Chip.switchEpoch (s : Chip) (e : Nat) : Chip := s.setMesh { s.mesh with epoch := e, switch := none }

/-- KEY_SWITCH, which is not answered unless it is refused (R316, R317). -/
def Chip.cmdKeySwitch (s : Chip) (h : CmdHead) (epoch asn : Nat) : Chip :=
  let code := s.cmdCheck h.src
  if code ≠ Rc.OK then s.meshReply h.src 5 h.token code []
  else if asn ≤ s.asnNow 0 then s.switchEpoch (epoch % 2)
  else s.setMesh { s.mesh with switch := some (epoch % 2, asn) }

def Chip.keySwitchReached (s : Chip) : Chip :=
  match s.mesh.switch with
  | some (e, _) => s.switchEpoch e
  | none => s

/-- LEAVE: the answer first; the node leaves once it has gone out (R317). -/
def Chip.cmdLeave (s : Chip) (w : CmdFrom) (token : Nat) : Chip :=
  let s1 := s.rootCmd w 6 token fun s => (Rc.OK, [], s)
  if s.cmdCheck w = Rc.OK then s1.setMesh { s1.mesh with leaving := true } else s1

/-- The answer to LEAVE, and all else that was queued, has gone out.
[DESIGN CHOICE, safe: notes/assumptions/190] -/
def Chip.leaveRun (s : Chip) : Chip :=
  if s.mesh.leaving && s.mesh.held.isEmpty && s.mesh.returns.isEmpty && txOrder.all (fun q => (s.headEntry q).isNone) then s.becomeJoiner else s

/-- A CID that is not defined. -/
def Chip.cmdUnknown (s : Chip) (orig : Nat) (loc : Bool) (cid token : Nat) : Chip :=
  if 1 ≤ cid && cid ≤ 7 then s
  else s.meshReply { orig := orig, loc := loc } (cid % 128) token (if s.mesh.joined then Rc.UNKNOWN_CMD else Rc.NOT_JOINED) []

/-! ### The layer's work from cycle to cycle

[DESIGN CHOICE, unsafe: notes/assumptions/172] -/

/-- The layer starts once the boot is over and its settings are in flash: the credentials of production or of a tap (R299),
and a root's own settings.  A root runs; any other node becomes a joiner. -/
def Chip.meshStart (s : Chip) : Chip :=
  if s.mesh.up || !s.meshSettings || s.pwr.bootPending || s.boot.ph ≠ .idle || s.pwr.st ≠ .run then s
  else
    let word (i : Nat) : Nat := (s.flashRd (meshSetBase + i)).toNat
    let b := ((List.range 10).flatMap (fun i => leOctets 4 (word i % 2 ^ 32))).take 39
    if !credOk b then s else
    let s1 := s.takeCred b
    let m := s1.mesh
    let w := word 11
    if m.role = 2 then
      (s1.setMesh { m with sfSize := bits (word 10) 11 0 + 1, sf1Size := bits (word 10) 23 12 + 1, advint := bits w 15 0, planId := bits w 23 16,
                           joinOpen := bitOf w 24, refuse := bits w 27 25 }).offJob .root
    else s1.becomeJoiner

/-- The layer's work on flash, one command of the flash controller at a time; a mark counts once its word reads back (R291). -/
def Chip.flashRun (s : Chip) : Chip :=
  if s.flcBusy then s
  else
    match s.mesh.todo with
    | [] => s
    | x :: l =>
      let s1 := s.setMesh { s.mesh with todo := l }
      match x with
      | .erase b => s1.flcErase b
      | .prog a w => (s1.setReg R.FLC_DATA (W w)).flcProgram a
      | .mark k v a => if s1.flashRd a = markWord k v then s1.setMesh { s1.mesh with marks := setAt s1.mesh.marks k v } else s1

/-- The key store has written the slot of an UNWRAP, or failed to. -/
def Chip.keyRun (s : Chip) : Chip :=
  match s.mesh.keyJob, s.mesh.keyDone with
  | some j, some code =>
    let s1 := s.setMesh { s.mesh with keyJob := none, keyDone := none }
    match j with
    | .join parent addr epoch advint sf1 => if code = Rc.OK then s1.completeJoin parent addr epoch advint sf1 else s1
    | .keyNext w token epoch => s1.keyNextDone w token epoch code
    | .tap b => if code = Rc.OK then s1.tapDone b else s1.meshCount Rc.KEY_SLOT
  | _, _ => s

/-- Frames and RESPONSEs that waited for a mark are built, once no mark is being recorded. -/
def Chip.heldRun (s : Chip) : Chip :=
  if s.mesh.todo.isEmpty && !s.flcBusy then
    let s1 := s.mesh.held.foldl Chip.meshPass (s.setMesh { s.mesh with held := [] })
    s.mesh.heldJoin.foldl (fun c e => c.rootJoin e.1 e.2) (s1.setMesh { s1.mesh with heldJoin := [] })
  else s

/-- The layer's work in a cycle. -/
def Chip.meshRun (s : Chip) : Chip :=
  let s0 := s.meshStart.offRun.flashRun.keyRun.heldRun.leaveRun
  let s1 := if s0.mesh.joinedAt.any (· ≤ s0.now) then s0.nowJoined else s0
  let s2 := if s1.mesh.up then s1.beaconRun else s1
  if s2.mesh.recheck then s2.meshParents else s2

/-- A LOCAL frame of data or a command. -/
def Chip.localReceived (s : Chip) (f : List Byte) (lqi : Nat) : Chip := s.onFrame f lqi (fun m => m.nt = 0) fun m b s => s.meshDeliver m b

/-- The oldest frame in the receive queues, those of priority 1 first: queue, entry, octets. -/
def Chip.rxHead (s : Chip) : Option (Nat × Nat × List Byte) :=
  match [4, 5, 6, 7, 0, 1, 2, 3].find? (fun q => (s.headEntry q).isSome) with
  | none => none
  | some q =>
    let a := s.qEntry q (s.qHead q)
    let buf := s.fld (F.QUE_BUF_BUFBASE q) + s.qHead q * s.fld (F.QUE_BUF_BUFSZ q)
    some (q, a, s.rdBs (4 * buf) (bits (s.rd a).toNat 10 0))

/-- The layer takes an entry from a receive queue. -/
def Chip.rxAdvance (s : Chip) (q : Nat) : Chip :=
  s.queHeadWrite (Agent.ofCode (s.qOwner q)) q (W ((s.qHead q + 1) % max 1 (s.qSize q)))

end Sys2Proof.Machine
end

