-- ==== Sys2Proof/Machine/Nfc.lean ====
section
/-!
DEFINITION. The contactless reader and tag, the commissioning mailbox and harvest mode (spec/12).
-/
namespace Sys2Proof.Machine

def Chip.setNfc (s : Chip) (n : Nfc) : Chip := { s with nfc := n }
def Chip.setRd (s : Chip) (r : Reader) : Chip := s.setNfc { s.nfc with rd := r }
def Chip.nfcReason (s : Chip) (code : Nat) : Chip := s.setReason R.NFC_STAT code

/-- NFC registers take writes from NFC_CFG.OWNER (R380). -/
def Chip.ifNfcOwner (s : Chip) (ag : Agent) (f : Chip → Chip) : Chip :=
  if owns ag (s.fld F.NFC_CFG_OWNER) then f s else s.nfcReason Rc.OWNED

/-! ### Entries (R376) -/

/-- Queue an entry. -/
def Chip.nfcEntry (s : Chip) (kind reason info w1 : Nat) (buf : List Byte) (st : Stamp) : Chip :=
  let q := s.fld F.NFC_CFG_QUEUE
  let a := s.fld (F.QUE_BUF_BUFBASE q) + s.qTail q * s.fld (F.QUE_BUF_BUFSZ q)
  let n := buf.length
  let pad := buf ++ List.replicate ((4 - n % 4) % 4) 0
  let s1 := if s.qTakes q then s.wrs a ((blocksOf 4 n pad).map (fun o => W (leNat o))) else s
  s1.produce q ([W (kind <<< 33 ||| reason <<< 25 ||| info <<< 17 ||| n % 512), W w1] ++ st.words)

/-- The same with a stamp of now. -/
def Chip.nfcEntryNow (s : Chip) (kind reason info w1 : Nat) (buf : List Byte) : Chip :=
  let (p, s1) := s.stamp s.now
  s1.nfcEntry kind reason info w1 buf p

/-! ### The tag (R355 to R358) -/

/-- The tag serves a field. -/
def Chip.tagOn (s : Chip) : Bool :=
  s.nfc.raw && (s.nfc.harvest || (s.bit F.NFC_CTL_EN && s.bit F.NFC_CTL_TAG))

/-- The 7-octet UID of the OTP row. -/
def Chip.otpUid (s : Chip) : List Byte := (List.range 4).map (octetOf (s.otpRd 2)) ++ (List.range 3).map (octetOf (s.otpRd 3))

/-- The UID presented: the random one in battery mode alone. -/
def Chip.tagUid (s : Chip) : List Byte := if s.bit F.NFC_CFG_RNDUID && !s.nfc.harvest then s.nfc.rnd else s.otpUid

/-- The four octets of a cascade level and their BCC.
[PRESUMED, unsafe: notes/assumptions/150] -/
def Chip.tagLevel (s : Chip) (cl : Nat) : List Byte :=
  let u := s.tagUid
  let l := if u.length = 4 then u else if cl = 1 then (0x88 : Byte) :: u.take 3 else u.drop 3
  l ++ [l.foldl (· ^^^ ·) 0]

def Chip.tagLevels (s : Chip) : Nat := if s.tagUid.length = 4 then 1 else 2

/-- Microseconds of a frame of `n` octets at 106 kbit/s: start, 9 bits an octet, end.
[PRESUMED, unsafe: notes/assumptions/124] -/
def nfcTime (n : Nat) : Nat := ceilDiv ((9 * n + 2) * 12800) 1356

/-- A reply of the tag, of `n` octets on the antenna: at once from the harvest path, by a claim of claimant 8 for its duration
plus 10 µs in battery mode (R356).
[DESIGN CHOICE, safe: notes/assumptions/123] [PRESUMED, unsafe: notes/assumptions/150] -/
def Chip.tagSend (s : Chip) (octets : List Byte) (n : Nat) : Chip :=
  if !s.nfc.raw then s
  else if s.nfc.harvest then s.setNfc { s.nfc with sent := octets }
  else (s.setNfc { s.nfc with reply := some octets, replyAt := s.now }).claim 8 (s.fld (F.EGY_DECL_PEAK 8)) (nfcTime n + 10) false

/-- A reply without CRC_A: ATQA, and the rest of a UID. -/
def Chip.tagBare (s : Chip) (octets : List Byte) : Chip := s.tagSend octets octets.length

/-- A reply that CRC_A follows: SAK, ATS and the blocks. -/
def Chip.tagReply (s : Chip) (octets : List Byte) : Chip := s.tagSend octets (octets.length + 2)

/-- Bear's answer to claimant 8.  A block of a chained answer is followed by the next once the reader's R(ACK) has passed.
[DESIGN CHOICE, safe: notes/assumptions/184] -/
def Chip.tagAnswer (s : Chip) (r : Answer) : Chip :=
  match r.kind, s.nfc.reply with
  | .grant, some o => s.setNfc { s.nfc with sent := o, reply := none, chainAt := s.now + us (nfcTime (o.length + 2) + nfcTime 3) }
  | _, _ => s

/-- 40 µs have passed without a grant: the reply is dropped, and what of its chain is left. -/
def Chip.tagMute (s : Chip) : Chip :=
  match s.nfc.reply with
  | some _ => if s.now < s.nfc.replyAt + us 40 then s else ((s.dropClaim 8).setNfc { s.nfc with reply := none, chain := [] }).count F.NFC_CNT_MUTE
  | none => s

/-! #### The block layer (R352) -/

/-- The I-blocks of an answer of `l` octets, each of `n` INF octets at most: PCB with the chaining bit on all but the last, and
the block number, which each block toggles. -/
def iBlocks (n : Nat) (blk : Bool) (l : List Byte) : List (List Byte) :=
  let p := blocksOf n (max 1 (ceilDiv l.length n)) l
  (p.zipIdx).map (fun (inf, i) => leOctets 1 (2 + 16 * (i + 1 < p.length : Bool).toNat + (blk ^^ (i % 2 = 0 : Bool)).toNat) ++ inf)

/-- Send the first of the I-blocks; the others wait for the reader's R(ACK).
[DESIGN CHOICE, safe: notes/assumptions/184] -/
def Chip.tagBlocks (s : Chip) : List (List Byte) → Chip
  | [] => s
  | b :: l => (s.setNfc { s.nfc with blk := bitOf (octAt b 0) 0, chain := l }).tagReply b

/-- The answer to an APDU: data and the status word, in blocks of at most FSD octets with PCB and CRC_A. -/
def Chip.tagApdu (s : Chip) (data : List Byte) (sw : Nat) : Chip :=
  s.tagBlocks (iBlocks (s.nfc.fsd - 3) s.nfc.blk (data ++ beOctets 2 sw))

def Chip.setTag (s : Chip) (t : TagSt) : Chip := s.setNfc { s.nfc with tag := t }

/-- REQA, or WUPA. -/
def Chip.tagReqa (s : Chip) (wupa : Bool) : Chip :=
  let low := s.nfc.harvest && s.fld F.NFC_FIELD_VNFC < 220
  if !s.tagOn || low then s
  else
    match s.nfc.tag with
    | .idle => (s.setTag (.ready 1)).tagBare (leOctets 2 (if s.tagLevels = 1 then 4 else 0x44))
    | .halt => if wupa then (s.setTag (.ready 1)).tagBare (leOctets 2 (if s.tagLevels = 1 then 4 else 0x44)) else s
    | _ => s

/-- A tag in READY heeds the cascade level it stands at, and level 1 (R372). -/
def Chip.tagHeeds (s : Chip) (cl : Nat) : Bool :=
  s.tagOn && match s.nfc.tag with
    | .ready c => cl = c || cl = 1
    | _ => false

/-- ANTICOLLISION at a level with the first `n` bits `known`: the tag answers with the rest of its UID. -/
def Chip.tagAnti (s : Chip) (cl n known : Nat) : Chip :=
  if s.tagHeeds cl && n ≤ 32 && leNat (s.tagLevel cl) % 2 ^ n = known % 2 ^ n then
    (s.setTag (.ready cl)).tagBare ((s.tagLevel cl).drop (n / 8))
  else s

/-- SELECT of a UID of a level with its BCC; another UID leaves the tag in READY (R357). -/
def Chip.tagSelect (s : Chip) (cl : Nat) (uid : List Byte) : Chip :=
  if s.tagHeeds cl && uid = s.tagLevel cl then
    if cl < s.tagLevels then (s.setTag (.ready (cl + 1))).tagReply [0x04] else (s.setTag .active).tagReply [0x20]
  else s

/-- HLTA halts the card it selected; one that was left in READY stays there (R372 and the worked example). -/
def Chip.tagHlta (s : Chip) : Chip :=
  match s.nfc.tag with
  | .active => s.setTag .halt
  | _ => s

def tagAts : List Byte := [0x05, 0x78, 0x00, 0x80, 0x00]

/-- The frame sizes that FSDI codes. -/
def frameSize (i : Nat) : Nat := [16, 24, 32, 40, 48, 64, 96, 128, 256].getD i 256

/-- RATS: the ATS.  The FSDI that the reader names is one the command does not carry.
[DESIGN CHOICE, safe: notes/assumptions/184] -/
def Chip.tagRats (s : Chip) : Chip :=
  if s.tagOn && s.nfc.tag = .active then
    (s.draw.setNfc { s.nfc with tag := .iso4, app := false, file := .none, blk := true, fsd := frameSize (Config.freeNat s.free % 9), chain := [] }).tagReply tagAts
  else s

/-- The next block of a chained answer goes out. -/
def Chip.tagNext (s : Chip) : Chip :=
  if s.tagOn && s.nfc.tag = .iso4 && s.nfc.reply.isNone && s.nfc.chainAt ≤ s.now then s.tagBlocks s.nfc.chain else s

def Chip.tagDeselect (s : Chip) : Chip :=
  if s.tagOn && s.nfc.tag = .iso4 then (s.setTag .halt).tagReply [0xC2] else s

/-- A frame waiting time, in HF-REF periods. -/
def fwt (fwi : Nat) : Nat := 4096 * 2 ^ fwi * 3200 / 1356

/-- How long after a command the tag asks for more time: FWT - 5 ms at its FWI of 8 (R355, R357). -/
def tWtx : Nat := fwt 8 - msec 5

/-- A reply that is late: S(WTX) with WTXM 1, and again when that time is nearly over.
[DEDUCED, unsafe: notes/assumptions/72] -/
def Chip.tagWtx (s : Chip) : Chip :=
  match s.nfc.mbox with
  | some m =>
    if s.tagOn && s.nfc.tag = .iso4 && m.wtxAt.any (fun t => t ≤ s.now) then
      (s.setNfc { s.nfc with mbox := some { m with wtxAt := some (s.now + tWtx) } }).tagReply [0xF2, 0x01]
    else s
  | none => s

/-- The status of a class and instruction that the tag does not serve; in harvest mode the NDEF files are not (R358).
[DEDUCED, unsafe: notes/assumptions/174] -/
def apduUnknown (harvest : Bool) (cla ins : Nat) : Option Nat :=
  if cla ≠ 0x00 ∧ cla ≠ 0x80 then some 0x6E00
  else if (cla = 0x00 ∧ ins = 0xA4) ∨ (cla = 0x80 ∧ ins = 0xD0) ∨ (!harvest ∧ cla = 0x00 ∧ (ins = 0xB0 ∨ ins = 0xD6)) then none
  else some 0x6D00

/-- An APDU reaches the tag. -/
def Chip.onApdu (s : Chip) (cla ins : Nat) (f : Chip → Chip) : Chip :=
  if s.tagOn && s.nfc.tag = .iso4 && s.nfc.mbox.isNone then
    match apduUnknown s.nfc.harvest cla ins with
    | some sw => s.tagApdu [] sw
    | none => f s
  else s

def ndefAid : List Byte := [0xD2, 0x76, 0x00, 0x00, 0x85, 0x01, 0x01]

def Chip.selectName (s : Chip) (aid : List Byte) : Chip :=
  s.onApdu 0x00 0xA4 fun s =>
    if !s.nfc.harvest && aid = ndefAid && s.fld F.NFC_NDEF_SIZEW ≠ 0 then
      (s.setNfc { s.nfc with app := true, file := .none }).tagApdu [] 0x9000
    else s.tagApdu [] 0x6A82

def Chip.selectFile (s : Chip) (c : FileSelect) : Chip :=
  s.onApdu c.cla c.ins fun s =>
    if !s.nfc.harvest && s.nfc.app && (c.fid = 0xE103 || c.fid = 0xE104) then
      (s.setNfc { s.nfc with file := if c.fid = 0xE103 then .cc else .ndef }).tagApdu [] 0x9000
    else s.tagApdu [] 0x6A82

/-! ### The NDEF area (R359, R360) -/

def Chip.ndefSize (s : Chip) : Nat := 4 * s.fld F.NFC_NDEF_SIZEW
def Chip.ndefBase (s : Chip) : Nat := 4 * s.fld F.NFC_NDEF_BASE

/-- The CC file. -/
def Chip.ccFile (s : Chip) : List Byte :=
  [0x00, 0x0F, 0x20, 0x00, 0xF0, 0x00, 0xF0, 0x04, 0x06, 0xE1, 0x04] ++ beOctets 2 s.ndefSize ++ [0x00, if s.bit F.NFC_NDEF_WRITE then 0x00 else 0xFF]

/-- The selected file. -/
def Chip.tagFile (s : Chip) : Option (List Byte) :=
  match s.nfc.file with
  | .none => none
  | .cc => some s.ccFile
  | .ndef => some (s.rdBs s.ndefBase s.ndefSize)

/-- The status of R360 for a file of `size` octets. -/
def binaryStatus (ro : Bool) (size off len : Nat) : Nat :=
  if ro then 0x6982 else if size ≤ off then 0x6B00 else if 240 < len ∨ size < off + len then 0x6700 else 0x9000

/-- The status with no file selected, which the spec does not give: a free value.
[DESIGN CHOICE, safe: notes/assumptions/57] -/
def Chip.noFile (s : Chip) : Chip := s.draw.tagApdu [] (Config.freeNat s.free % 65536)

def Chip.readBinary (s : Chip) (off len : Nat) : Chip :=
  s.onApdu 0x00 0xB0 fun s =>
    match s.tagFile with
    | none => s.noFile
    | some f =>
      let sw := binaryStatus false f.length off len
      s.tagApdu (if sw = 0x9000 then (f.drop off).take len else []) sw

def Chip.updateBinary (s : Chip) (off : Nat) (data : List Byte) : Chip :=
  s.onApdu 0x00 0xD6 fun s =>
    match s.nfc.file with
    | .none => s.noFile
    | _ =>
      let sw := binaryStatus (s.nfc.file = .cc || !s.bit F.NFC_NDEF_WRITE) s.ndefSize off data.length
      if sw ≠ 0x9000 then s.tagApdu [] sw
      else
        let s1 := s.wrBs (s.ndefBase + off) data
        let nlen := beNat (s1.rdBs s1.ndefBase 2)
        let s2 := if nlen ≠ 0 && off ≤ 1 && data.length ≠ 0 then s1.nfcEntryNow 3 Rc.OK 0 nlen [] else s1
        s2.tagApdu [] sw

/-! ### The mailbox (R361 to R369) -/

def mboxBase (slot : Nat) : Nat := 0x1EE800 + 16 * slot
def mboxCommit : Word := W 0xC3C3C3C3C

def Chip.mboxRec (s : Chip) (slot : Nat) : List Word := s.flashRds (mboxBase slot) 16

/-- The 14 words a record's check covers. -/
def mboxBody (rtype seq : Nat) (body : List Byte) : List Word :=
  let n := body.length
  let pad := body ++ List.replicate (52 - n) 0
  W (rtype <<< 24 ||| n <<< 16 ||| seq) :: (blocksOf 4 13 pad).map (fun o => W (leNat o))

/-- The CRC-32 of words 0 to 13 (R46). -/
def mboxChk (l : List Word) : Nat := crc32Words (l.map BitVec.toNat)

def Chip.mboxValid (s : Chip) (slot : Nat) : Bool :=
  let l := s.mboxRec slot
  l.getD 15 0 = mboxCommit && (l.getD 14 0).toNat = mboxChk (l.take 14)

/-- A slot whose 16 words all read erased. -/
def Chip.mboxErased (s : Chip) (slot : Nat) : Bool := (List.range 16).all (fun i => s.flashErased (mboxBase slot + i))

/-- A valid record of the same RTYPE and SEQ. -/
def Chip.mboxFind (s : Chip) (rtype seq : Nat) : Option Nat :=
  (List.range 256).find? (fun i =>
    let w := (s.flashRd (mboxBase i)).toNat
    bits w 31 24 = rtype && bits w 15 0 = seq && s.mboxValid i)

/-- NFC_MBOX.FREE. -/
def Chip.mboxCount (s : Chip) : Chip := s.setFld F.NFC_MBOX_FREE ((List.range 256).filter s.mboxErased).length

/-- The field check of R364, in units of 10 mV. -/
def vthr : Nat := 260

def Chip.setMbox (s : Chip) (m : Option MboxWrite) : Chip := (s.setNfc { s.nfc with mbox := m }).setBit F.NFC_STAT_MBUSY m.isSome

/-- A disable takes effect at the safe points of claimants 7 and 8, when no mailbox write runs (R128, R378). -/
def Chip.nfcSafe (s : Chip) : Chip :=
  if s.stopping.contains .nfc && s.nfc.mbox.isNone && s.nfc.rd.ph = .off && s.nfc.reply.isNone && !s.holds 8 then
    (s.setTag .off).blockStopped .nfc
  else s

/-! ### Field detection (R354) -/

/-- The tag meets a new field. -/
def Chip.tagField (s : Chip) : Chip :=
  let r := Config.freeNat s.free
  s.draw.setNfc { s.nfc with tag := .idle, rnd := (0x08 : Byte) :: leOctets 3 r, app := false, file := .none, chain := [] }

/-- The detector's level follows the outside field, unless the reader's own field is on. -/
def Chip.detectField (s : Chip) : Chip :=
  let now := s.bit F.NFC_STAT_EXTFLD
  if s.bit F.NFC_STAT_FIELDON || s.nfc.rd.ph = .ping || now = s.nfc.raw then s
  else
    let s1 := (s.setBit F.NFC_STAT_EXTFLD s.nfc.raw).setLatch { s.pins.latch with fdet := s.nfc.raw }
    if s.nfc.raw then ((s1.occ 73).wakeEvent 7 12).tagField
    else (((s1.occ 74).dropClaim 8).setNfc { s1.nfc with tag := .off, reply := none, chain := [] }).nfcSafe

/-- The chip boots out of harvest mode; the detector reports the field that is there. -/
def Chip.harvestBoot (s : Chip) : Chip := s.powerOn.detectField

/-- The write ends with a status word; the chip boots then, where VAON came up meanwhile (R369). -/
def Chip.mboxEnd (s : Chip) (sw : Nat) : Chip :=
  let s1 := ((s.setMbox none).tagApdu [] sw).nfcSafe
  if s1.nfc.booting then s1.harvestBoot else s1

/-- The level that a field check finds on VNFC; none with no field. -/
def Chip.vnfcNow (s : Chip) (l : List Nat) : Nat := if s.nfc.raw then l.headD 0 else 0

/-- Program the next word after its field check. -/
def Chip.mboxStep (s : Chip) (m : MboxWrite) : Chip :=
  match m.words with
  | [] =>
    let s1 := if s.nfc.harvest then s
      else ((s.setFld F.NFC_MBOX_LASTSEQ m.seq).occ 77).nfcEntry 4 Rc.OK m.rtype ((m.slot % 256) <<< 16 ||| m.seq) [] m.stamp
    s1.mboxEnd 0x9000
  | v :: l =>
    let vnfc := s.vnfcNow m.levels
    let s1 := s.setFld F.NFC_FIELD_VNFC vnfc
    if vnfc < vthr && !s.nfc.booting then s1.mboxEnd 0x6F11
    else
      let a := mboxBase m.slot + m.next
      let m1 := { m with words := l, next := m.next + 1, levels := m.levels.tail }
      let s2 := s1.setMbox (some m1)
      if s2.nfc.harvest then
        let o : FlOp := { src := .nfc, op := 1, target := a, steps := [.prog a v], limit := 16 }
        (s2.setFlc { s2.flc with op := some o }).flcGranted
      else s2.flcRequest .nfc a [.prog a v]

/-- A word of the write is programmed, or failed. -/
def Chip.mboxFlash (s : Chip) (code : Nat) : Chip :=
  match s.nfc.mbox with
  | none => s
  | some m => if code = Rc.OK then s.mboxStep m else s.mboxEnd 0x6F7F

/-- MAILBOX WRITE: SEQ, the data, and the VNFC levels (in 10 mV) that the checks of steps 2, 4 and 5 find. -/
def Chip.mailboxWrite (s : Chip) (seq : Nat) (data : List Byte) (levels : List Nat) : Chip :=
  s.onApdu 0x80 0xD0 fun s0 =>
    let s := s0.setFld F.NFC_FIELD_VNFC (levels.headD 0)
    let rtype := octAt data 0
    if data.length < 2 ∨ 53 < data.length then s.tagApdu [] 0x6700
    else if rtype = 0 ∨ rtype = 0xFF then s.tagApdu [] 0x6F05
    else if levels.headD 0 < vthr then s.tagApdu [] 0x6F11
    else if (s.mboxFind rtype seq).isSome then
      (if s.nfc.harvest then s else (s.setFld F.NFC_MBOX_LASTSEQ seq).occ 77).tagApdu [] 0x9000
    else
      match (List.range 256).find? s.mboxErased with
      | none => s.tagApdu [] 0x6F7C
      | some slot =>
        let l := mboxBody rtype (seq % 65536) (data.drop 1)
        let (p, s1) := if s.nfc.harvest then ({}, s) else s.stamp s.now
        s1.mboxStep { slot := slot, next := 0, words := l ++ [W (mboxChk l), mboxCommit], levels := levels.tail, rtype := rtype, seq := seq % 65536, stamp := p,
                       wtxAt := if s.nfc.harvest then none else some (s.now + tWtx) }

/-- VAON comes up in harvest mode: a record in programming is completed first, then the chip boots (R369). -/
def Chip.vaonUp (s : Chip) : Chip :=
  if !s.nfc.harvest then s
  else if s.nfc.mbox.isSome then s.setNfc { s.nfc with booting := true }
  else s.harvestBoot

/-- The field of harvest mode vanishes: the word whose check passed completes, with verify; COMMIT, in step 5, reads neither
erased nor the pattern (R365).
[DEDUCED, unsafe: notes/assumptions/126] -/
def Chip.fieldCollapse (s : Chip) (verified : Bool) : Chip :=
  if !s.nfc.harvest then s
  else if s.nfc.booting then s.setNfc { s.nfc with raw := false }
  else
    let s1 := match s.flc.op with
      | some { steps := .prog a v :: _, .. } => if verified && a % 16 ≠ 15 then s.flashPut a v else s
      | _ => s
    (s1.setFlc { s1.flc with op := none, pulsing := false, pulseAt := none, busyA := false, busyB := false }).setNfc { harvest := true }

/-- An outside field appears with a level on VNFC in 10 mV; without VAON the harvest path alone runs. -/
def Chip.fieldDetect (s : Chip) (vaon : Bool) (vnfc : Nat) : Chip :=
  if !vaon then
    let s1 := if s.nfc.harvest then s else s.powerOn
    (((s1.setNfc { s1.nfc with harvest := true, raw := true }).setFld F.NFC_FIELD_VNFC vnfc).setLatch { s1.pins.latch with fdet := false }).tagField
  else
    let s1 := if s.pwr.st = .ship then s.leaveShip 7 else s
    ((s1.setNfc { s1.nfc with raw := true, harvest := false }).setFld F.NFC_FIELD_VNFC vnfc).detectField

def Chip.fieldLost (s : Chip) : Chip :=
  if s.nfc.harvest then s.fieldCollapse true
  else ((s.setNfc { s.nfc with raw := false }).setFld F.NFC_FIELD_VNFC 0).detectField

/-! ### The reader (R370 to R373) -/

/-- The reader awaits an answer whose want is a failure of the round or exchange. -/
def RdPhase.awaits : RdPhase → Bool
  | .reqa => true | .anti => true | .select => true | .rats => true | .xchg => true | _ => false

def Chip.rdState (s : Chip) (v : Nat) : Chip := s.setFld F.NFC_STAT_RDSTATE v

/-- The field goes off and the grant is given back. -/
def Chip.rdOff (s : Chip) : Chip :=
  let s1 := (s.setRd { sent := s.nfc.rd.sent }).rdState 0
  (((s1.setBit F.NFC_STAT_FIELDON false).release 7).detectField).nfcSafe

/-- The stamp of the reader's last frame, taken at its end. -/
def Chip.frameStamp (s : Chip) : Stamp × Chip :=
  match s.nfc.rd.endStamp with
  | some p => (p, s)
  | none => s.stamp s.nfc.rd.frameEnd

/-- A reader's frame whose answer the reader awaits has ended: its stamp is requested (R604).
[DEDUCED, unsafe: notes/assumptions/166] -/
def Chip.stampFrame (s : Chip) : Chip :=
  let r := s.nfc.rd
  if r.ph.awaits && r.endStamp.isNone && r.frameEnd ≤ s.now then
    let (p, s1) := s.stamp r.frameEnd
    s1.setRd { r with endStamp := some p }
  else s

/-- The reader's claimant is at its safe point: the end of the current frame or ping (R128). -/
def Chip.readerSafe (s : Chip) : Bool := s.nfc.rd.ph ≠ .ping && s.nfc.rd.frameEnd ≤ s.now

/-- A round or exchange ends with a code; a failure after a frame was sent makes an entry. -/
def Chip.rdPost (s : Chip) (code : Nat) : Chip :=
  let s1 := (s.nfcReason code).occ 76
  if code ≠ Rc.OK && s.bit F.NFC_STAT_FIELDON && !s.nfc.rd.sent.isEmpty then
    let (p, s2) := s1.frameStamp
    s2.nfcEntry 2 code 0 0 [] p
  else s1

/-- The end of a poll round. -/
def Chip.roundEnd (s : Chip) (code : Nat) (card : Bool) : Chip :=
  let r := s.nfc.rd
  let s1 := match r.auto with
    | some (a, p) =>
      if code = Rc.NO_RESPONSE then ((s.setFld F.NFC_BASE_AMP a).setFld F.NFC_BASE_PHASE p).count F.NFC_CNT_FALSEDET else s
    | none => s
  let s2 := s1.rdPost code
  if !s2.bit F.NFC_CFG_MODE then s2.rdOff
  else if card then (s2.setRd { s2.nfc.rd with ph := .card, auto := none }).rdState 4
  else (s2.setRd { s2.nfc.rd with ph := .field, auto := none }).rdState 0

/-- FWI and FSC of an ATS. -/
def atsFwi (ats : List Byte) : Nat :=
  let t0 := octAt ats 1
  let i := 2 + (bits t0 4 4)
  if 2 ≤ ats.length && bitOf t0 5 then bits (octAt ats i) 7 4 else 4
/-- The start-up frame guard time of an ATS. -/
def atsSfgt (ats : List Byte) : Nat :=
  let t0 := octAt ats 1
  let i := if 2 ≤ ats.length && bitOf t0 5 then bits (octAt ats (2 + bits t0 4 4)) 3 0 else 0
  if i = 0 ∨ i = 15 then 0 else fwt i
def atsFsc (ats : List Byte) : Nat :=
  frameSize (if 2 ≤ ats.length then octAt ats 1 % 16 else 2)

/-- The time on the antenna of a reader's frame: short, bare, or with its CRC_A.
[PRESUMED, unsafe: notes/assumptions/124] -/
def rdTime (ph : RdPhase) (f : List Byte) : Nat :=
  us (match ph with
    | .reqa => ceilDiv (9 * 12800) 1356
    | .anti => nfcTime f.length
    | _ => nfcTime (f.length + 2))

/-- Send a frame, once the one before it has ended, and wait `k` frame waiting times for its answer.
[DESIGN CHOICE, safe: notes/assumptions/123] -/
def Chip.rdSend (s : Chip) (ph : RdPhase) (f : List Byte) (k : Nat := 1) : Chip :=
  let r := s.nfc.rd
  let e := max s.now (max r.frameEnd r.ready) + rdTime ph f
  s.setRd { r with ph := ph, sent := f, frameEnd := e, endStamp := none, due := some (e + k * fwt (atsFwi r.ats)) }

/-- The same for a new frame, with its retries. -/
def Chip.rdFirst (s : Chip) (ph : RdPhase) (f : List Byte) : Chip :=
  (s.setRd { s.nfc.rd with retries := s.fld F.NFC_CFG_RETRY }).rdSend ph f

def clCode (cl : Nat) : Byte := match cl with | 1 => 0x93 | 2 => 0x95 | _ => 0x97

/-- ANTICOLLISION with the bits known. -/
def Chip.rdAnti (s : Chip) : Chip :=
  let r := s.nfc.rd
  let nvb := (2 + r.nbits / 8) * 16 + r.nbits % 8
  s.rdFirst .anti ([clCode r.level] ++ leOctets 1 nvb ++ leOctets ((r.nbits + 7) / 8) r.known)

/-- SELECT with all 32 bits and their BCC. -/
def Chip.rdSelect (s : Chip) : Chip :=
  let r := s.nfc.rd
  let u := leOctets 4 r.known
  s.rdFirst .select ([clCode r.level, 0x70] ++ u ++ [u.foldl (· ^^^ ·) 0])

/-- A new cascade level begins. -/
def Chip.rdLevel (s : Chip) (cl : Nat) (uid : List Byte) : Chip :=
  (s.setRd { s.nfc.rd with level := cl, known := 0, nbits := 0, uid := uid }).rdAnti

/-- A round begins with its claim (R370). -/
def Chip.pollClaim (s : Chip) (auto : Option (Nat × Nat)) : Chip :=
  (((s.setRd { ph := .claim, auto := auto }).nfcReason Rc.OK)).claim 7 (s.fld (F.EGY_DECL_PEAK 7)) (s.fld F.NFC_CFG_SESSION) true

/-- A poll round is asked for: the checks of R379, then the round.  A ping is neither a round nor a session: one that waits for
its grant gives way, and a round follows one that runs.
[DEDUCED, unsafe: notes/assumptions/174] -/
def Chip.pollStart (s : Chip) (auto : Option (Nat × Nat)) : Chip :=
  if !s.bit F.NFC_CTL_EN || !s.bit F.NFC_CTL_READER then s.nfcReason Rc.BUSY
  else
    match s.nfc.rd.ph with
    | .off => s.pollClaim auto
    | .pingClaim => (s.dropClaim 7).pollClaim auto
    | .ping => if s.nfc.pollNext then s.nfcReason Rc.BUSY else (s.setNfc { s.nfc with pollNext := true }).nfcReason Rc.OK
    | _ => s.nfcReason Rc.BUSY

/-- Bear's answer to claimant 7. -/
def Chip.readerAnswerClaim (s : Chip) (a : Answer) : Chip :=
  match a.kind, s.nfc.rd.ph with
  | .grant, .claim =>
    if s.bit F.NFC_STAT_EXTFLD then ((s.nfcReason Rc.EXT_FIELD).occ 76).rdOff
    else ((s.setRd { s.nfc.rd with ph := .guard, due := some (s.now + us 5100) }).setBit F.NFC_STAT_FIELDON true).rdState 2
  | .deny, .claim => ((s.nfcReason a.code).occ 76).setRd {}
  | .grant, .pingClaim =>
    if s.bit F.NFC_STAT_EXTFLD then (s.setRd {}).release 7
    else ((s.setRd { s.nfc.rd with ph := .ping, due := some (s.now + us 75) }).rdState 1).startHf
  | .deny, .pingClaim => s.setRd {}
  | .defer, .claim => s
  | .defer, .pingClaim => s
  | .defer, .off => s
  | .defer, .ping => s
  | .defer, .field => ((s.dropClaim 7).occ 76).rdOff
  | .defer, .card => ((s.dropClaim 7).rdPost Rc.SESSION_END).rdOff
  | .defer, _ => ((s.dropClaim 7).rdPost Rc.SESSION_END).rdOff
  | _, _ => s

/-- The field has been on for 5.1 ms: the round. -/
def Chip.roundStart (s : Chip) : Chip :=
  if s.nfc.rd.ph ≠ .guard || !s.nfc.rd.due.any (fun t => t ≤ s.now) then s
  else (s.rdState 3).rdFirst .reqa [if s.bit F.NFC_CFG_WUPA then 0x52 else 0x26]

/-- The UID entry in hand is queued. -/
def Chip.queueUid (s : Chip) (ats : List Byte) : Chip :=
  let r := s.nfc.rd
  (s.nfcEntry 0 Rc.OK r.sak (r.uid.length <<< 16 ||| r.atqa) (r.uid ++ ats) (r.stamp.getD {})).setRd
    { r with stamp := none, ats := ats, ready := s.now + atsSfgt ats }

/-- SAK of the last level: an entry, then RATS, or HLTA and the next card. -/
def Chip.cardFound (s : Chip) : Chip :=
  let r := s.nfc.rd
  let (p, s1) := s.stamp s.now
  let s2 := s1.setRd { r with found := r.found + 1, stamp := some p }
  if s2.bit F.NFC_CFG_MODE then
    if bitOf r.sak 5 then s2.rdFirst .rats [0xE0, 0x80] else (s2.queueUid []).roundEnd Rc.OK false
  else
    let s3 := s2.queueUid []
    let s4 := s3.setRd { s3.nfc.rd with sent := [0x50, 0x00], frameEnd := s3.now + rdTime .select [0x50, 0x00], endStamp := none }
    -- the next frame follows the HLTA
    if r.found + 1 = 16 then s4.roundEnd Rc.CARD_LIMIT false else s4.rdLevel 1 []

/-! Exchanges. -/

def Chip.xchgEnd (s : Chip) (code : Nat) : Chip := ((s.rdPost code).setRd { s.nfc.rd with ph := .card, due := none, txRest := [], rx := [] }).rdState 4

/-- No valid block came: R(NAK) while retries are left. -/
def Chip.xchgRetry (s : Chip) (code : Nat) : Chip :=
  let r := s.nfc.rd
  if r.retries = 0 then s.xchgEnd code
  else (s.setRd { r with retries := r.retries - 1 }).rdSend .xchg (leOctets 1 (0xB2 + r.blk.toNat))

/-- Send the next I-block. -/
def Chip.xchgSend (s : Chip) : Chip :=
  let r := s.nfc.rd
  let n := atsFsc r.ats - 3
  let inf := r.txRest.take n
  let rest := r.txRest.drop n
  let pcb := 2 + 16 * (!rest.isEmpty).toNat + r.blk.toNat
  (s.setRd { r with txRest := rest, lastI := leOctets 1 pcb ++ inf }).rdFirst .xchg (leOctets 1 pcb ++ inf)

/-- Room of an entry's buffer, in octets. -/
def Chip.entryRoom (s : Chip) : Nat := 4 * s.fld (F.QUE_BUF_BUFSZ (s.fld F.NFC_CFG_QUEUE))

/-- A block of the card: PCB and INF (R373; the block rules of ISO/IEC 14443-4 that R352 takes in).
[PRESUMED, unsafe: notes/assumptions/124] -/
def Chip.xchgBlock (s : Chip) (b : List Byte) : Chip :=
  let r := s.nfc.rd
  let pcb := octAt b 0
  let inf := b.drop 1
  let r1 := { r with pcb := pcb }
  if pcb = 0xF2 then
    let k := octAt b 1 % 64
    (s.setRd r1).rdSend .xchg ([0xF2] ++ leOctets 1 k) (max 1 k)
  else if bits pcb 7 4 = 0xA then
    -- R(ACK): of another block, the last one is repeated; else the next piece of the chain
    if bitOf pcb 0 ≠ r.blk then (s.setRd r1).rdSend .xchg r.lastI
    else if r.txRest.isEmpty then (s.setRd r1).xchgRetry Rc.PROTOCOL
    else (s.setRd { r1 with blk := !r.blk }).xchgSend
  else if bits pcb 7 5 = 0 && bitOf pcb 1 && bitOf pcb 0 = r.blk then
    let rx := r.rx ++ inf
    let s1 := s.setRd { r1 with rx := rx, blk := !r.blk }
    if s.entryRoom < rx.length then s1.xchgEnd Rc.RX_OVERRUN
    else if bitOf pcb 4 then s1.rdFirst .xchg (leOctets 1 (0xA2 + (!r.blk).toNat))
    else (s1.nfcEntryNow 1 Rc.OK pcb 0 rx).xchgEnd Rc.OK
  else (s.setRd r1).xchgRetry Rc.PROTOCOL

/-- A card answered, after the reader's frame has ended: the octets, whether they passed their checks, and the lowest colliding bit and
whether the BCC collided. -/
def Chip.readerAnswer (s : Chip) (data : List Byte) (good : Bool) (coll : Option Nat) (bcc : Bool) : Chip :=
  let r := s.nfc.rd
  let again (ph : RdPhase) (last : Chip) : Chip :=
    if r.retries = 0 then last else (s.setRd { r with retries := r.retries - 1 }).rdSend ph r.sent
  if s.now < r.frameEnd then s
  else match r.ph with
  | .anti =>
    match coll.filter (fun k => r.nbits ≤ k && k < 32) with
    | some k =>
      let s1 := ((s.setFld F.NFC_COLL_CL r.level).setBit F.NFC_COLL_BCCCOL bcc).setFld F.NFC_COLL_POS k
      -- the answer carries the bits after those sent; the ones below the collision are known
      let below := (r.known % 2 ^ (r.nbits / 8 * 8) + leNat data <<< (r.nbits / 8 * 8)) % 2 ^ k
      let s2 := s1.setRd { r with known := below + 2 ^ k, nbits := k + 1 }
      if k = 31 then s2.rdSelect else s2.rdAnti
    | none =>
      let all := r.known % 2 ^ (r.nbits / 8 * 8) + leNat data <<< (r.nbits / 8 * 8)
      let u := leOctets 4 all
      let b := BitVec.ofNat 8 (all / 2 ^ 32)
      if !good || b ≠ u.foldl (· ^^^ ·) 0 then again .anti (s.roundEnd Rc.PROTOCOL false)
      else (s.setRd { r with known := all % 2 ^ 32, nbits := 32 }).rdSelect
  | .reqa =>
    if good || coll.isSome then (s.setRd { r with atqa := leNat data % 65536, found := 0 }).rdLevel 1 []
    else again .reqa (s.roundEnd Rc.PROTOCOL false)
  | .select =>
    if !good then again .select (s.roundEnd Rc.PROTOCOL false)
    else
      let u := leOctets 4 r.known
      let sak := octAt data 0
      -- a UID has at most three levels (R352)
      if bitOf sak 2 && r.level = 3 then s.roundEnd Rc.PROTOCOL false
      else if bitOf sak 2 then s.rdLevel (r.level + 1) (r.uid ++ u.drop 1)
      else (s.setRd { r with uid := r.uid ++ u, sak := sak }).cardFound
  | .rats =>
    if good then (s.queueUid data).roundEnd Rc.OK true
    else again .rats ((s.queueUid []).roundEnd Rc.PROTOCOL false)
  | .xchg => if good then s.xchgBlock data else s.xchgRetry Rc.PROTOCOL
  | .desel => (((s.setRd { r with ph := .field, due := none, ats := [] }).rdState 0).nfcReason Rc.OK)
  | _ => s

/-- A frame of the reader draws no answer. -/
def Chip.readerTimeout (s : Chip) : Chip :=
  let r := s.nfc.rd
  let again (ph : RdPhase) (f : List Byte) (last : Chip) : Chip :=
    if r.retries = 0 then last else (s.setRd { r with retries := r.retries - 1 }).rdSend ph f
  if !r.due.any (fun t => t ≤ s.now) then s
  else match r.ph with
  | .reqa => again .reqa r.sent (s.roundEnd Rc.NO_RESPONSE false)
  | .anti => again .anti r.sent (s.roundEnd (if 0 < r.found then Rc.OK else Rc.NO_RESPONSE) false)
  | .select => again .select r.sent (s.roundEnd Rc.NO_RESPONSE false)
  | .rats => again .rats r.sent ((s.queueUid []).roundEnd Rc.NO_RESPONSE false)
  | .xchg => s.xchgRetry Rc.NO_RESPONSE
  | .desel => again .desel r.sent (((s.setRd { r with ph := .field, due := none, ats := [] }).rdState 0).nfcReason Rc.NO_RESPONSE)
  | _ => s

/-- The remaining time of the reader's grant. -/
def Chip.rdGrantLeft (s : Chip) : Nat := ((s.grantOf 7).map (fun g => g.fin - s.now)).getD 0

/-- The blocks that carry a command of `n` octets, in HF-REF periods. -/
def xchgTime (fsc n : Nat) : Nat :=
  let k := ceilDiv n (fsc - 3) - 1
  us (k * nfcTime fsc + nfcTime (n - k * (fsc - 3) + 3))

/-- NFC_CMD.XCHG = 1.
[DEDUCED, unsafe: notes/assumptions/174] -/
def Chip.nfcXchg (s : Chip) : Chip :=
  let r := s.nfc.rd
  let n := s.fld F.NFC_RDX_LEN
  let a := s.fld F.NFC_RDX_BUF
  if r.ph ≠ .card then s.nfcReason Rc.BUSY
  else if n = 0 ∨ !sramSpan a n then s.nfcReason Rc.RANGE
  else if s.rdGrantLeft < (r.ready - s.now) + xchgTime (atsFsc r.ats) n + fwt (atsFwi r.ats) then (s.rdPost Rc.SESSION_END).rdOff
  else (((s.setRd { r with txRest := s.rdBs a n, rx := [] }).nfcReason Rc.OK).rdState 5).xchgSend

def Chip.nfcDesel (s : Chip) : Chip :=
  if s.nfc.rd.ph ≠ .card then s.nfcReason Rc.BUSY else (s.nfcReason Rc.OK).rdFirst .desel [0xC2]

/-- A round or exchange is in progress. -/
def RdPhase.busy : RdPhase → Bool
  | .reqa => true | .anti => true | .select => true | .rats => true | .xchg => true | .guard => true | .claim => true | _ => false

/-- The session ends. -/
def Chip.sessionEnd (s : Chip) : Chip :=
  (if s.nfc.rd.ph.busy then s.rdPost Rc.SESSION_END else s.occ 76).rdOff

def Chip.nfcFieldOff (s : Chip) : Chip :=
  match s.nfc.rd.ph with
  | .off => s.nfcReason Rc.BUSY
  | .pingClaim => s.nfcReason Rc.BUSY
  | .ping => s.nfcReason Rc.BUSY
  | _ =>
    let s1 := s.nfcReason Rc.OK
    if s1.readerSafe then s1.sessionEnd else s1.setRd { s1.nfc.rd with close := true }

/-- What the block does in each cycle: a FIELDOFF or a disable takes effect at its safe point (R373, R378). -/
def Chip.nfcTick (s : Chip) : Chip :=
  let stop := s.stopping.contains .nfc
  ((if (s.nfc.rd.close || stop) && s.nfc.rd.ph ≠ .off && s.readerSafe then s.sessionEnd else s)).tagNext.nfcSafe

/-- A ping that ends in SLEEP stops HF-REF again (R374). -/
def Chip.pingHfOff (s : Chip) : Chip := if s.pwr.st = .sleep then s.stopHf else s

/-- The end of the reader's grant. -/
def Chip.readerGrantEnd (s : Chip) : Chip :=
  match s.nfc.rd.ph with
  | .off => s.endGrant 7
  | .ping => if s.stopping.contains .nfc then (((s.endGrant 7).setRd {}).pingHfOff).detectField.nfcSafe else (s.endGrant 7).pingHfOff
  | _ => s.sessionEnd

/-! ### Pings (R374, R375) -/

/-- NFC_PING.INTERVAL in 1/125 of an STB tick: 1 ms is 4,096 of them. -/
def Chip.pingStep (s : Chip) : Nat := 4096 * s.fld F.NFC_PING_INTERVAL

/-- The next ping's time has come on STB. -/
def Chip.pingIsDue (s : Chip) : Bool := s.nfc.pingNext.any (fun t => t ≤ 125 * s.owl.stb)

/-- A ping falls due: it claims, unless a field, a session or the block's settings stop it.  The schedule starts with the
block's enable and runs on.
[DEDUCED, unsafe: notes/assumptions/174] -/
def Chip.pingDue (s : Chip) : Chip :=
  let s1 := s.setNfc { s.nfc with pingNext := s.nfc.pingNext.map (fun t => max (t + s.pingStep) (125 * s.owl.stb + 1)) }
  if s.pingIsDue && s1.bit F.NFC_CTL_EN && s1.bit F.NFC_CTL_READER && s1.bit F.NFC_CTL_PING && s1.nfc.rd.ph = .off && !s1.bit F.NFC_STAT_EXTFLD
      && (s1.pwr.st = .run || s1.pwr.st = .sleep) then
    (s1.setRd { ph := .pingClaim }).claim 7 (s1.fld (F.EGY_DECL_PEAK 7)) 75 false
  else s1

/-- The shorter way round from `b` to `a`, in 0.1°. -/
def phaseDiff (a b : Nat) : Int :=
  let d := (a + 3600 - b % 3600) % 3600
  if d ≤ 1800 then (d : Int) else (d : Int) - 3600

/-- A difference beyond the thresholds. -/
def Chip.pingDetects (s : Chip) (amp phase : Nat) : Bool :=
  let ab := s.fld F.NFC_BASE_AMP
  s.fld F.NFC_PING_ATHR * ab < absDiff amp ab * 1000 || s.fld F.NFC_PING_PTHR < (phaseDiff phase (s.fld F.NFC_BASE_PHASE)).natAbs

/-- The mean of the first pings; phases as differences from the first one.
[DESIGN CHOICE, unsafe: notes/assumptions/125] -/
def pingMean (l : List (Nat × Nat)) : Nat × Nat :=
  let p0 := (l.headD (0, 0)).2
  let d := l.foldl (fun acc e => acc + phaseDiff e.2 p0) 0
  (l.foldl (fun acc e => acc + e.1) 0 / l.length, (((p0 : Int) + d / l.length) % 3600).toNat)

/-- A round that a write asked for during the ping follows it. -/
def Chip.pollAfter (s : Chip) : Chip :=
  if s.nfc.pollNext then (s.setNfc { s.nfc with pollNext := false }).pollStart none else s

/-- A ping's measurement, at its end.  A baseline moves by a sixteenth of the difference, rounded towards 0.
[DESIGN CHOICE, unsafe: notes/assumptions/125] -/
def Chip.pingResult (s : Chip) (amp phase : Nat) : Chip :=
  if s.nfc.rd.ph ≠ .ping || !s.nfc.rd.due.any (fun t => t ≤ s.now) then s
  else
    let s0 := (((s.setRd {}).rdState 0).release 7).pingHfOff
    let s1 := (((s0.setFld F.NFC_PMEAS_AMP amp).setFld F.NFC_PMEAS_PHASE phase).setBit F.NFC_PMEAS_DET false).detectField
    if !s1.bit F.NFC_BASE_VALID then
      let l := s1.nfc.first ++ [(amp, phase)]
      let s2 := s1.setNfc { s1.nfc with first := l }
      if l.length < 8 then s2.pollAfter
      else
        let (a, p) := pingMean l
        (((s2.setFld F.NFC_BASE_AMP a).setFld F.NFC_BASE_PHASE p).setBit F.NFC_BASE_VALID true).pollAfter
    else if s1.pingDetects amp phase then
      let s2 := (((s1.setBit F.NFC_PMEAS_DET true).count F.NFC_CNT_DETECT).occ 75).wakeEvent 7 12
      if s2.bit F.NFC_PING_AUTOPOLL && s2.bit F.NFC_CTL_EN then (s2.setNfc { s2.nfc with pollNext := false }).pollStart (some (amp, phase))
      else s2.pollAfter
    else
      let ab := s1.fld F.NFC_BASE_AMP
      let pb := s1.fld F.NFC_BASE_PHASE
      let da := ((amp : Int) - ab).tdiv 16
      let dp := (phaseDiff phase pb).tdiv 16
      ((s1.setFld F.NFC_BASE_AMP ((ab : Int) + da).toNat).setFld F.NFC_BASE_PHASE (((pb : Int) + dp) % 3600).toNat).pollAfter

/-! ### Enable, registers (R377 to R380) -/

def Chip.nfcCheck (s : Chip) : Nat :=
  let q := s.fld F.NFC_CFG_QUEUE
  let bs := s.fld (F.QUE_BUF_BUFSZ q)
  if !s.prov 11 then Rc.CLOCK_OFF
  else if s.qOwner q ≠ s.fld F.NFC_CFG_OWNER then Rc.OWNED
  else if !s.qOn q || s.qKind q ≠ 4 || s.qEsz q ≠ 4 || bs < 3 || 128 < bs then Rc.COMBINATION
  else if (s.bit F.NFC_CTL_READER && s.fld (F.EGY_DECL_PEAK 7) < 548) || (s.bit F.NFC_CTL_TAG && s.fld (F.EGY_DECL_PEAK 8) < 120) then Rc.BUDGET
  else if !s.bit F.NFC_CTL_READER && !s.bit F.NFC_CTL_TAG then Rc.COMBINATION
  else Rc.OK

def Chip.nfcEnable (s : Chip) : Chip :=
  let code := s.nfcCheck
  let s1 := s.enableIf .nfc code
  if code ≠ Rc.OK then s1
  else
    let s2 := (s1.setBit F.NFC_BASE_VALID false).mboxCount
    let s3 := s2.setNfc { s2.nfc with first := [], pollNext := false, pingNext := some (125 * s2.owl.stb + s2.pingStep) }
    if s3.nfc.raw then s3.tagField else s3

/-- EN falls: a session ends at the end of its frame, a mailbox write completes first (R378). -/
def Chip.nfcDisable (s : Chip) : Chip :=
  let s1 := s.setBit F.NFC_CTL_EN false
  let s2 := { s1 with stopping := Block.nfc :: s1.stopping }
  let s3 := (s2.dropClaim 8).setNfc { s2.nfc with pingNext := none, pollNext := false, reply := none, chain := [] }
  (if s3.nfc.rd.ph = .pingClaim then s3.rdOff else s3).nfcTick

/-- A write of NFC_CTL: EN written as it reads changes nothing, and EN = 0 leaves REASON (R15, R16); other fields that change
post OK. -/
def Chip.nfcCtlWrite (s : Chip) (ag : Agent) (v : Word) : Chip :=
  s.ifNfcOwner ag fun s =>
    let old := (s.reg R.NFC_CTL).toNat
    let new := v.toNat % 16
    let en := bitOf old 0
    if en && bits new 2 1 ≠ bits old 2 1 then s.nfcReason Rc.BUSY
    else
      let s1 := if putBit new 0 en = old % 16 then s else (s.setReg R.NFC_CTL (W (putBit new 0 en))).nfcReason Rc.OK
      if bitOf new 0 && !en then s1.nfcEnable
      else if !bitOf new 0 && en then s1.nfcDisable
      else s1

/-- A write of NFC_CMD. -/
def Chip.nfcCmdWrite (s : Chip) (ag : Agent) (v : Word) : Chip :=
  s.ifNfcOwner ag fun s =>
    let w := v.toNat
    let s1 := if bitOf w 0 then s.pollStart none else s
    let s2 := if bitOf w 3 then s1.nfcXchg else s1
    let s3 := if bitOf w 2 then s2.nfcDesel else s2
    if bitOf w 1 then s3.nfcFieldOff else s3

/-- What refuses a value of the other registers. -/
def nfcRange (a w : Nat) : Nat :=
  if a = R.NFC_CFG then if bits w 33 29 < 16 ∨ bits w 9 0 < 10 ∨ 1000 < bits w 9 0 then Rc.RANGE else Rc.OK
  else if a = R.NFC_PING then if bits w 10 0 < 10 ∨ 2000 < bits w 10 0 then Rc.RANGE else Rc.OK
  else if a = R.NFC_RDX then if bits w 34 26 = 0 then Rc.RANGE else Rc.OK
  else if a = R.NFC_NDEF then
    if 1024 < bits w 34 24 ∨ (bits w 34 24 ≠ 0 ∧ !inSram (bits w 23 0) (bits w 34 24)) then Rc.RANGE else Rc.OK
  else Rc.OK

/-- A write of NFC_CFG, NFC_PING, NFC_RDX or NFC_NDEF. -/
def Chip.nfcRegWrite (s : Chip) (ag : Agent) (a : Nat) (v : Word) : Chip :=
  match regRow a with
  | none => s
  | some r =>
    s.ifNfcOwner ag fun s =>
      let new := v.toNat &&& r.rw
      if r.rw = 0 then s
      else if a = R.NFC_CFG && ag.code ≠ s.fld F.NFC_CFG_OWNER && bits new F.NFC_CFG_OWNER.hi F.NFC_CFG_OWNER.lo ≠ s.fld F.NFC_CFG_OWNER then s.nfcReason Rc.OWNED
      else if a = R.NFC_CFG && s.bit F.NFC_CTL_EN && W new ≠ s.reg a then s.nfcReason Rc.BUSY
      else if nfcRange a new ≠ Rc.OK then s.nfcReason (nfcRange a new)
      else (s.setReg a (W new)).nfcReason Rc.OK

/-- A flash controller command ended: an erase of a mailbox sector counts the free slots anew (R367). -/
def Chip.mboxErase (s : Chip) (target : Nat) : Chip :=
  if s.bit F.NFC_CTL_EN && 0x1EE800 ≤ target && target < 0x1EF800 then s.mboxCount else s

/-- Holder 8 (R381). -/
def Chip.nfcHolds (s : Chip) : Bool :=
  s.bit F.NFC_STAT_FIELDON || (s.bit F.NFC_CTL_TAG && s.bit F.NFC_STAT_EXTFLD) || s.nfc.mbox.isSome

end Sys2Proof.Machine
end

