-- ==== Sys2Proof/Machine/Time.lean ====
section
/-!
DEFINITION. The time bases: general timers, real-time clock, calendar routines and watchdog (spec/13).
-/
namespace Sys2Proof.Machine

/-! ### General timers (R386 to R396) -/

def Chip.timer (s : Chip) (n : Nat) : TimerSt := s.tmr.t.getD n {}
def Chip.setTimer (s : Chip) (n : Nat) (t : TimerSt) : Chip := { s with tmr := { s.tmr with t := setAt s.tmr.t n t } }
def Chip.tmrOn (s : Chip) (n : Nat) : Bool := n < 8 && s.bit (F.TMRN_CTL_EN n)

/-- Timer `n` is the low one of a linked pair (R390). -/
def Chip.pairLow (s : Chip) (n : Nat) : Bool := n % 2 = 0 && s.bit (F.TMRN_CFG_LINK n)
/-- Timer `n` is the high one of a linked pair.  An odd timer that runs alone goes on alone when LINK is set in its
neighbour (R387), whose enable is refused from then on (R388). -/
def Chip.pairHigh (s : Chip) (n : Nat) : Bool :=
  n % 2 = 1 && s.bit (F.TMRN_CFG_LINK (n - 1)) && (!s.tmrOn n || s.tmrOn (n - 1))

/-- The modulus of timer `n`'s count. -/
def Chip.tmrModulus (s : Chip) (n : Nat) : Nat := if s.pairLow n then 2 ^ 72 else 2 ^ 36

/-- A quantity that a linked pair splits across its two timers. -/
def Chip.tmrValue (s : Chip) (r : Nat → Nat) (n : Nat) : Nat :=
  if s.pairLow n then (s.reg (r (n + 1))).toNat * 2 ^ 36 + (s.reg (r n)).toNat else (s.reg (r n)).toNat
def Chip.setTmrValue (s : Chip) (r : Nat → Nat) (n v : Nat) : Chip :=
  if s.pairLow n then (s.setReg (r n) (W (v % 2 ^ 36))).setReg (r (n + 1)) (W (v / 2 ^ 36)) else s.setReg (r n) (W v)

def TimerSt.act (t : TimerSt) (c : Nat) : Nat := if c = 0 then t.act0 else t.act1
def TimerSt.pl (t : TimerSt) (c : Nat) : Option Nat := if c = 0 then t.pl0 else t.pl1
def TimerSt.setAct (t : TimerSt) (c v : Nat) : TimerSt := if c = 0 then { t with act0 := v } else { t with act1 := v }
def TimerSt.setPl (t : TimerSt) (c : Nat) (v : Option Nat) : TimerSt := if c = 0 then { t with pl0 := v } else { t with pl1 := v }

/-- Apply an action code to a level: 0 none, 1 set, 2 clear, 3 toggle (R392). -/
def actOn (code : Nat) (l : Bool) : Bool :=
  match code with
  | 1 => true | 2 => false | 3 => !l | _ => l

/-- Apply an action code to the latch of TMR_OUTn_c.
[DEDUCED, unsafe: notes/assumptions/87] -/
def Chip.tmrAct (s : Chip) (n c code : Nat) : Chip :=
  let b := 2 * n + c
  let o := s.pins.latch.tmrOut
  { s with pins := { s.pins with latch := { s.pins.latch with tmrOut := putBit o b (actOn code (bitOf o b)) } } }

/-- A timer event wakes the chip where WAKEN asks for it (R393). -/
def Chip.tmrWake (s : Chip) (n : Nat) : Chip :=
  if s.bit (F.TMRN_CFG_WAKEN n) && s.fld (F.TMRN_CFG_SRC n) = 1 then s.wakeEvent 4 8 else s

/-- Whether channel `c` fires when the count becomes `v`, and the compare after the copy (R391). -/
def TimerSt.fires (t : TimerSt) (c v m : Nat) : Bool × TimerSt :=
  match t.pl c with
  | some p => ((v + m - p) % m < m / 2, (t.setAct c p).setPl c none)
  | none => (t.act c = v, t)

/-- The prescaler wraps: COUNT increases, preloads are copied, matches and the overflow fire (R386, R391, R392).
[DEDUCED, unsafe: notes/assumptions/87] -/
def Chip.timerWrap (s : Chip) (n : Nat) : Chip :=
  if !s.tmrOn n || s.pairHigh n then s
  else
    let m := s.tmrModulus n
    let v := (s.tmrValue R.TMRN_COUNT n + 1) % m
    let t0 := { s.timer n with pres := 0 }
    let (f0, t1) := t0.fires 0 v m
    let (f1, t2) := t1.fires 1 v m
    let ovf := v = 0
    let s1 := (s.setTmrValue R.TMRN_COUNT n v).setTimer n t2
    let s2 := if ovf then ((s1.setBit (F.TMRN_FLAG_OVF n) true).tmrAct n 0 (s1.fld (F.TMRN_ACT_ACTO0 n))).tmrAct n 1 (s1.fld (F.TMRN_ACT_ACTO1 n)) else s1
    let s3 := if f0 then ((s2.setBit (F.TMRN_FLAG_MATCH0 n) true).tmrAct n 0 (s2.fld (F.TMRN_ACT_ACTM0 n))).publish (112 + n) else s2
    let s4 := if f1 then (s3.setBit (F.TMRN_FLAG_MATCH1 n) true).tmrAct n 1 (s3.fld (F.TMRN_ACT_ACTM1 n)) else s3
    if ovf || f0 || f1 then (s4.occ (1 + n)).tmrWake n else s4

/-- One tick of a timer's source: whether the prescaler wraps now, and the state with it advanced. -/
def Chip.presTick (s : Chip) (n : Nat) : Bool × Chip :=
  let t := s.timer n
  if s.fld (F.TMRN_CFG_PRE n) ≤ t.pres then (true, s) else (false, s.setTimer n { t with pres := t.pres + 1 })

/-- The timers that count source `src`. -/
def Chip.timersOf (s : Chip) (src : Nat) : List Nat :=
  (List.range 8).filter (fun n => s.tmrOn n && !s.pairHigh n && s.fld (F.TMRN_CFG_SRC n) = src)

/-- A tick of source `src` for all its timers; the timers whose prescaler wraps (R386). -/
def Chip.sourceTick (s : Chip) (src : Nat) : List Nat × Chip :=
  (s.timersOf src).foldl (fun p n =>
    let (w, s1) := p.2.presTick n
    (if w then p.1 ++ [n] else p.1, s1)) ([], s)

/-- An event channel's pulse for the timers that count it. -/
def Chip.countChannel (s : Chip) (c : Nat) : Chip :=
  ((s.timersOf 2).filter (fun n => s.fld (F.TMRN_CFG_EVSEL n) = c)).foldl (fun s n =>
    let (w, s1) := s.presTick n
    if w then s1.timerWrap n else s1) s

def Chip.tmrReason (s : Chip) (n code : Nat) : Chip := s.setReason (R.TMRN_STAT n) code

/-- The first item that refuses timer `n`'s enable (R388), but for the energy item. -/
def Chip.tmrCheck (s : Chip) (n : Nat) : Nat :=
  let src := s.fld (F.TMRN_CFG_SRC n)
  let ev := s.fld (F.TMRN_CFG_EVSEL n)
  let o := s.timerOwner n
  if src = 3 ∨ 39 < ev then Rc.RANGE
  else if s.pairHigh n then 0x80
  else if (src = 2 && s.fld (F.EVR_CH_PUB ev) = 0) || (s.pairLow n && (s.timerOwner (n + 1) ≠ o || s.tmrOn (n + 1))) then Rc.COMBINATION
  else if (s.carriers (Mean.TMR_CAP n) ++ s.carriers (Mean.TMR_OUT n 0) ++ s.carriers (Mean.TMR_OUT n 1)).any (fun p => s.pinOwner p ≠ o) then
    Rc.OWNED
  else Rc.OK

/-- Enable timer `n` (and its pair). -/
def Chip.tmrStart (s : Chip) (n : Nat) : Chip :=
  let on (s : Chip) (k : Nat) : Chip :=
    (((s.setBit (F.TMRN_CTL_EN k) true).setBit (F.TMRN_STAT_ACTIVE k) true).setTimer k { s.timer k with pres := 0 }).tmrReason k Rc.OK
  if s.pairLow n then
    let s1 := on (on s n) (n + 1)
    let lo := s1.timer n
    let hi := s1.timer (n + 1)
    s1.setTimer n { lo with act0 := hi.act0 * 2 ^ 36 + lo.act0, act1 := hi.act1 * 2 ^ 36 + lo.act1 }
  else on s n

/-- A write of TMRn_CTL.EN = 1 (R387 to R389). -/
def Chip.tmrEnable (s : Chip) (ag : Agent) (n : Nat) : Chip :=
  if 8 ≤ n then s
  else if !owns ag (s.timerOwner n) then s.tmrReason n Rc.OWNED
  else if s.tmrOn n then s
  else
    let code := s.tmrCheck n
    let src := s.fld (F.TMRN_CFG_SRC n)
    let hf := src ≠ 1
    if code ≠ Rc.OK then s.tmrReason n code
    else
      let s1 := if hf && !s.holds 11 then s.claimNow 11 (s.fld (F.EGY_DECL_PEAK 11)) else s
      if hf && !s1.holds 11 then (s1.dropClaim 11).tmrReason n Rc.BUDGET
      else
        let depth := s1.fld F.PMU_REQ_DEPTH
        if (hf && 1 ≤ depth) || 2 ≤ depth then
          (if s.holds 11 then s1 else s1.endGrant 11).tmrReason n Rc.BUSY
        else s1.tmrStart n

/-- A write of TMRn_CMPc (R390, R391). -/
def Chip.tmrCmpWrite (s : Chip) (ag : Agent) (n c : Nat) (v : Word) : Chip :=
  let r := if c = 0 then R.TMRN_CMP0 else R.TMRN_CMP1
  if 8 ≤ n then s
  else if !owns ag (s.timerOwner n) then s.tmrReason n Rc.OWNED
  else
    let s1 := (s.setReg (r n) v).tmrReason n Rc.OK
    if !s1.tmrOn n then s1.setTimer n ((s1.timer n).setAct c v.toNat)
    else if s1.pairHigh n then s1
    else s1.setTimer n ((s1.timer n).setPl c (some (s1.tmrValue r n)))

/-- Timer `n`'s COUNT in the cycle in which an edge leaves the synchroniser, 2 or 3 source cycles from now, which of them is
open (R394); a timer that counts events stands still between them.
[DEDUCED, unsafe: notes/assumptions/175] -/
def Chip.captured (s : Chip) (n : Nat) : Nat :=
  let lag := if s.fld (F.TMRN_CFG_SRC n) = 2 then 0 else 2 + Config.captureLag.toNat
  (s.tmrValue R.TMRN_COUNT n + ((s.timer n).pres + lag) / (s.fld (F.TMRN_CFG_PRE n) + 1)) % s.tmrModulus n

/-- A capture of timer `n` (R394, R395). -/
def Chip.tmrCapture (s : Chip) (n : Nat) (rise : Bool) : Chip :=
  if !s.tmrOn n || s.pairHigh n then s
  else
    let v := s.captured n
    let s1 :=
      if rise then
        let s' := if s.bit (F.TMRN_FLAG_NEWR n) then s.setBit (F.TMRN_FLAG_OVRR n) true else s
        (s'.setTmrValue R.TMRN_CAPR n v).setBit (F.TMRN_FLAG_NEWR n) true
      else
        let s' := if s.bit (F.TMRN_FLAG_NEWF n) then s.setBit (F.TMRN_FLAG_OVRF n) true else s
        let m := s.tmrModulus n
        ((s'.setTmrValue R.TMRN_CAPF n v).setTmrValue R.TMRN_PW n ((v + m - s.tmrValue R.TMRN_CAPR n) % m)).setBit (F.TMRN_FLAG_NEWF n) true
    s1.occ (9 + n)

/-- An edge at the capture input, with CAPEN = 1. -/
def Chip.captureEdge (s : Chip) (n : Nat) (rise : Bool) : Chip :=
  if n < 8 && s.bit (F.TMRN_CFG_CAPEN n) then s.tmrCapture n rise else s

/-- Task 16 + n: a rising capture, taken only while CAPEN = 0 (R428). -/
def Chip.captureTask (s : Chip) (n : Nat) : Chip := if s.bit (F.TMRN_CFG_CAPEN n) then s else s.tmrCapture n true

/-- Reads of CAPR and CAPF. -/
def Chip.caprRead (s : Chip) (n : Nat) : Word × Chip := (s.reg (R.TMRN_CAPR n), s.setBit (F.TMRN_FLAG_NEWR n) false)
def Chip.capfRead (s : Chip) (n : Nat) : Word × Chip := (s.reg (R.TMRN_CAPF n), s.setBit (F.TMRN_FLAG_NEWF n) false)

/-- A write of TMR_OWN (R396): whole, or refused for the first field that may not change; then the pins that carry a
timer's meanings must have its new owner (R67, R88).
[DEDUCED, unsafe: notes/assumptions/88] -/
def Chip.tmrOwnWrite (s : Chip) (ag : Agent) (v : Word) : Chip :=
  let new := v.toNat % 2 ^ 24
  let old := (s.reg R.TMR_OWN).toNat
  let changed := (List.range 8).filter (fun n => bits new (3 * n + 2) (3 * n) ≠ bits old (3 * n + 2) (3 * n))
  if s.lockedSec 8 then s.setReason R.TMR_STAT Rc.LOCKED
  else if changed.any (fun n => !owns ag (s.timerOwner n)) then s.setReason R.TMR_STAT Rc.OWNED
  else if changed.any (fun n => s.tmrOn n) then s.setReason R.TMR_STAT Rc.BUSY
  else
    let s1 := s.setReg R.TMR_OWN (W new)
    if !changed.isEmpty && (List.range 24).any (fun n => s1.timerPinBad (s1.pinMap n)) then s.setReason R.TMR_STAT Rc.OWNED
    else s1.setReason R.TMR_STAT Rc.OK

/-- A write of any other register of timer `n`, at offset `off` of its bank, whose offsets from 12 on are not listed (R503). -/
def Chip.tmrRegWrite (s : Chip) (ag : Agent) (n off : Nat) (v : Word) : Chip :=
  let ok (s : Chip) : Chip := s.tmrReason n Rc.OK
  if 12 ≤ off then s
  else if !owns ag (s.timerOwner n) then s.tmrReason n Rc.OWNED
  else
    match off with
    | 0x2 =>
      let new := W (v.toNat &&& (if n % 2 = 0 then 0xFFFFFFE00 else 0xFFFFFF600))
      if s.tmrOn n && new ≠ s.reg (R.TMRN_CFG n) then s.tmrReason n Rc.BUSY else ok (s.setReg (R.TMRN_CFG n) new)
    | 0x3 => if s.tmrOn n && v ≠ s.reg (R.TMRN_COUNT n) then s.tmrReason n Rc.BUSY else ok (s.setReg (R.TMRN_COUNT n) v)
    | 0x9 => ok (s.setReg (R.TMRN_FLAG n) (s.reg (R.TMRN_FLAG n) &&& ~~~ (v &&& 0x67#36)))
    | 0xA => ok (s.setReg (R.TMRN_ACT n) (v &&& 0xFF#36))
    | 0xB =>
      let o := putBit (putBit s.pins.latch.tmrOut (2 * n) (bitOf v.toNat 0)) (2 * n + 1) (bitOf v.toNat 1)
      ok { s with pins := { s.pins with latch := { s.pins.latch with tmrOut := o } } }
    | _ => s

/-! ### System time base and the AON-LF edge -/

/-- STB_FINE as it reads (R384). -/
def Chip.stbFineView (s : Chip) : Word :=
  let (lo, fv, fine) := s.stampTime s.now
  W ((lo % 2 ^ 24) <<< 12 ||| fv.toNat <<< 11 ||| fine)

/-- SQW's level at an edge of AON-LF: bit 14 − SQWK of RTC_SUB is 0 (R403). -/
def Chip.sqwLevel (s : Chip) : Bool := !bitOf (s.reg R.RTC_SUB).toNat (14 - s.fld F.RTC_CFG_SQWK)

def Chip.updateSqw (s : Chip) : Chip :=
  { s with pins := { s.pins with latch := { s.pins.latch with sqw := s.bit F.RTC_CFG_SQWEN && s.sqwLevel } } }

/-- RTC_SUB steps by one tick within a second, with the trim at 16,383 (R400). -/
def Chip.rtcStep (s : Chip) : Chip :=
  let sub := (s.reg R.RTC_SUB).toNat
  let m := s.owl.rtcAdj
  let set (s : Chip) (v : Nat) : Chip := (s.setReg R.RTC_SUB (W v)).updateSqw
  if sub = 16383 then
    if m < 0 ∧ (s.owl.rtcHeld : Int) < -m then { s with owl := { s.owl with rtcHeld := s.owl.rtcHeld + 1 } }
    else set s (if 0 < m then 16384 + m.toNat else 16384)
  else set s (sub + 1)

/-- A second boundary: RTC_SUB wraps, RTC_SEC increases, trim sets the coming second, the alarm may fire
(R397, R400, R402). -/
def Chip.secondBoundary (s : Chip) : Chip :=
  let sec := s.reg R.RTC_SEC + 1
  let acc := s.owl.rtcAcc + signed 10 (s.fld F.RTC_TRIM_TRIM) * 32768
  let m := acc.tdiv 1000000
  let s1 := ((s.setReg R.RTC_SEC sec).setReg R.RTC_SUB 0)
  let s2 := { s1 with owl := { s1.owl with rtcAcc := acc - m * 1000000, rtcAdj := m, rtcHeld := 0 } }
  let s3 := s2.updateSqw.publish 120
  if s3.bit F.RTC_CFG_ALMEN && sec = s3.reg R.RTC_ALARM then
    (((s3.setBit F.RTC_STAT_ALMF true).setBit F.RTC_CFG_ALMEN false).occ 17).wakeEvent 5 10
  else s3

/-- Reads of RTC_SUB and RTC_SEC by an agent (R398). -/
def Chip.rtcSubRead (s : Chip) (ag : Agent) : Word × Chip :=
  (s.reg R.RTC_SUB, { s with tmr := { s.tmr with shadows := setAt s.tmr.shadows ag.code (some (s.reg R.RTC_SEC).toNat) } })

def Chip.rtcSecRead (s : Chip) (ag : Agent) : Word × Chip :=
  match s.tmr.shadows.getD ag.code none with
  | some v => (W v, { s with tmr := { s.tmr with shadows := setAt s.tmr.shadows ag.code none } })
  | none => (s.reg R.RTC_SEC, s)

/-- A write of RTC_SEC, and its arrival at an AON-LF edge (R399). -/
def Chip.rtcSecWrite (s : Chip) (v : Word) : Chip := { s with owl := { s.owl with rtcWrite := some v.toNat } }

def Chip.rtcSecApply (s : Chip) : Chip :=
  match s.owl.rtcWrite with
  | none => s
  | some v =>
    let s1 := ({ s with owl := { s.owl with rtcWrite := none } }).setReg R.RTC_SEC (W v)
    let s2 := (s1.setReg R.RTC_SUB 0).updateSqw
    if s2.bit F.RTC_CFG_ALMEN && (s2.reg R.RTC_ALARM).toNat ≤ v then (s2.setBit F.RTC_CFG_ALMEN false).setReason R.RTC_STAT 0x89
    else s2.setReason R.RTC_STAT Rc.OK

def Chip.rtcTrimWrite (s : Chip) (v : Word) : Chip :=
  let t := v.toNat % 1024
  if t = 512 then s.setReason R.RTC_STAT Rc.RANGE
  else (({ s with owl := { s.owl with rtcAcc := 0 } }).setReg R.RTC_TRIM (W t)).setReason R.RTC_STAT Rc.OK

def Chip.rtcAlarmWrite (s : Chip) (v : Word) : Chip :=
  if s.bit F.RTC_CFG_ALMEN && v.toNat ≤ (s.reg R.RTC_SEC).toNat then s.setReason R.RTC_STAT 0x89
  else (s.setReg R.RTC_ALARM v).setReason R.RTC_STAT Rc.OK

/-- A write of RTC_CFG that sets ALMEN with a past alarm is refused whole with ALARM_PAST.
[DEDUCED, unsafe: notes/assumptions/86] -/
def Chip.rtcCfgWrite (s : Chip) (v : Word) : Chip :=
  if bitOf v.toNat 5 && (s.reg R.RTC_ALARM).toNat ≤ (s.reg R.RTC_SEC).toNat then s.setReason R.RTC_STAT 0x89
  else ((s.setReg R.RTC_CFG (W (v.toNat % 64))).setReason R.RTC_STAT Rc.OK).updateSqw

/-- What an AON-LF edge asks for beyond the counts. -/
inductive LfDue where
  | rtcApply | second | wrap (n : Nat)
deriving DecidableEq, Repr

/-- An AON-LF edge: STB counts, FINE clears, the RTC steps, LF timers tick (R383, R31, R397, R386). -/
def Chip.lfEdge (s : Chip) : List LfDue × Chip :=
  let s1 := { s with owl := { s.owl with stb := (s.owl.stb + 1) % 2 ^ 72, edged := true, edgeAt := s.now }, clk := { s.clk with fineHeld := 0 } }
  let (d1, s2) :=
    if s1.owl.rtcWrite.isSome then ([LfDue.rtcApply], s1)
    else if (s1.reg R.RTC_SUB).toNat = 32767 then ([LfDue.second], s1)
    else ([], s1.rtcStep)
  let (w, s3) := s2.sourceTick 1
  (d1 ++ w.map LfDue.wrap, s3)

/-! ### LFXO (R112, R401) -/

/-- What an AON-LF edge asked for, made at once. -/
def Chip.lfDo (s : Chip) : LfDue → Chip
  | .rtcApply => s.rtcSecApply
  | .second => s.secondBoundary
  | .wrap n => s.timerWrap n

/-- The first stable LFXO edge is the first AON-LF edge: it begins a tick, and the others follow it (R31, R112, R383).
[DEDUCED, unsafe: notes/assumptions/155] -/
def Chip.lfxoFirstEdge (s : Chip) : Chip :=
  if s.clk.lfOn then { s with clk := { s.clk with lfxoOk := true } }
  else
    let (l, s1) := ({ s with clk := { s.clk with lfxoOk := true, lfOn := true, lfRc := false, lfPhase := s.now } }).lfEdge
    l.foldl Chip.lfDo s1

def Chip.setOsf (s : Chip) : Chip := (s.setBit F.RTC_STAT_OSF true).occ 18

/-- LFXO has not started 1 s after VAON was established: AON-LF runs from AON-RC (R112). -/
def Chip.lfxoStartTimeout (s : Chip) : Chip :=
  if s.clk.lfOn || s.now < s.clk.vaonAt + secs 1 then s
  else (({ s with clk := { s.clk with lfOn := true, lfRc := true } }).setBit F.RTC_STAT_LFRC true).setOsf

/-- LFXO delivers no edge for 4 AON-RC cycles. -/
def Chip.lfxoStop (s : Chip) : Chip :=
  let s1 := { s with clk := { s.clk with lfxoOk := false, lfRc := s.clk.lfOn } }
  (s1.setBit F.RTC_STAT_LFRC s.clk.lfOn).setOsf

/-- LFXO has delivered edges without a gap for 1 s: the domain returns to it at an LFXO edge.
[DEDUCED, unsafe: notes/assumptions/155] -/
def Chip.lfxoRestored (s : Chip) : Chip :=
  ({ s with clk := { s.clk with lfxoOk := true, lfRc := false, lfPhase := if s.clk.lfRc then s.now else s.clk.lfPhase } }).setBit F.RTC_STAT_LFRC false

/-! ### Watchdog (R407 to R410) -/

/-- AON-RC cycles in TIMEOUT. -/
def Chip.wdtPeriod (s : Chip) : Nat := 32 * s.fld F.WDT_CFG_TIMEOUT

/-- The watchdog pauses: DBGPAUSE and a core halted by the service port. -/
def Chip.wdtPaused (s : Chip) : Bool := s.bit F.WDT_CTL_DBGPAUSE && allCores.any (fun c => (s.core c).halted)

def Chip.wdtStatView (s : Chip) : Word :=
  (F.WDT_STAT_PAUSED).put (s.reg R.WDT_STAT) (s.bit F.WDT_CTL_EN && s.wdtPaused).toNat
def Chip.wdtCountView (s : Chip) : Word := W (min (2 ^ 27 - 1) (s.tmr.wdt / 32))

def Chip.wdtEnable (s : Chip) : Chip :=
  if s.bit F.WDT_CTL_EN then s
  else
    let s1 := { s with tmr := { s.tmr with wdt := 0 } }
    ((s1.setBit F.WDT_CTL_EN true).setBit F.WDT_STAT_ACTIVE true).setReason R.WDT_STAT Rc.OK

/-- A write of WDT_CFG: the lock, then R17, then the range.
[DEDUCED, unsafe: notes/assumptions/164] -/
def Chip.wdtCfgWrite (s : Chip) (v : Word) : Chip :=
  let new := v.toNat % 2 ^ 31
  let t := bits new 26 0
  if s.lockedSec 8 then s.setReason R.WDT_STAT Rc.LOCKED
  else if s.bit F.WDT_CTL_EN && W new ≠ s.reg R.WDT_CFG then s.setReason R.WDT_STAT Rc.BUSY
  else if t = 0 ∨ 129600000 < t then s.setReason R.WDT_STAT Rc.RANGE
  else (s.setReg R.WDT_CFG (W new)).setReason R.WDT_STAT Rc.OK

/-- A kick of a watchdog that is not enabled changes nothing.
[DEDUCED, unsafe: notes/assumptions/89] -/
def Chip.wdtKick (s : Chip) (v : Word) : Chip :=
  if !s.bit F.WDT_CTL_EN then s
  else if v.toNat % 4096 ≠ 0xA5C then s.requestReset (.wdt 0x82)
  else if 8 * s.tmr.wdt < s.wdtPeriod * s.fld F.WDT_CFG_WINDOW then s.requestReset (.wdt 0x81)
  else { s.setReason R.WDT_STAT Rc.OK with tmr := { s.tmr with wdt := 0 } }

def Chip.wdtWarning (s : Chip) : Chip :=
  if s.bit F.WDT_CTL_EN && s.bit F.WDT_CFG_WARN then (s.setBit F.WDT_STAT_WARNF true).occ 19 else s

def Chip.wdtExpiry (s : Chip) : Chip := if s.bit F.WDT_CTL_EN then s.requestReset (.wdt 0x83) else s

def Chip.wdtDbgpause (s : Chip) (ag : Agent) (b : Bool) : Chip :=
  if ag ≠ .svc then s.setReason R.WDT_STAT Rc.SECURITY
  else if b = s.bit F.WDT_CTL_DBGPAUSE then s
  else (s.setBit F.WDT_CTL_DBGPAUSE b).setReason R.WDT_STAT Rc.OK

/-! ### The TIMERS section (R411) -/

def Chip.applyTimers (s : Chip) (body : List Nat) : Nat × Chip :=
  match body with
  | [w0, w1] =>
    let cfg := bits w1 30 0
    let t := bits cfg 26 0
    if bits w0 35 24 ≠ 0 ∨ bits w1 34 31 ≠ 0 ∨ (cfg ≠ 0 ∧ (t = 0 ∨ 129600000 < t)) then (Rc.RANGE, s)
    else
      let s1 := s.setReg R.TMR_OWN (W w0)
      if (List.range 24).any (fun n => s1.timerPinBad (s1.pinMap n)) then (Rc.OWNED, s)
      else
        let s2 := if cfg = 0 then s1.setReg R.WDT_CFG (regReset R.WDT_CFG) else s1.setReg R.WDT_CFG (W cfg)
        (Rc.OK, if bitOf w1 35 then s2.wdtEnable else s2)
  | _ => (Rc.STREAM, s)

def timersDefault : List Nat := [0, 0]

/-! ### Calendar routines (R404 to R406) -/

def leapYear (y : Nat) : Bool := y % 400 = 0 || (y % 4 = 0 && y % 100 ≠ 0)

def monthDays (y m : Nat) : Nat :=
  match m with
  | 2 => if leapYear y then 29 else 28
  | 4 => 30 | 6 => 30 | 9 => 30 | 11 => 30 | _ => 31

/-- Days from 2000-01-01 to the first day of year `y`. -/
def yearStart (y : Nat) : Nat :=
  let k := y - 2000
  -- leap years among 2000 to y − 1
  365 * k + (k + 3) / 4 - ((k + 99) / 100 - (k + 399) / 400)

/-- Days from the first day of year `y` to the first of month `m`. -/
def monthStart (y m : Nat) : Nat := (List.range (m - 1)).foldl (fun a i => a + monthDays y (i + 1)) 0

/-- CAL_TOSEC on words 0 and 1: the code, and the seconds. -/
def calToSec (w0 w1 : Nat) : Nat × Nat :=
  let y := bits w0 23 10
  let mo := bits w0 9 6
  let d := bits w0 5 0
  let h := bits w1 16 12
  let mi := bits w1 11 6
  let se := bits w1 5 0
  let t := (yearStart y + monthStart y mo + (d - 1)) * 86400 + h * 3600 + mi * 60 + se
  if bits w0 35 24 ≠ 0 ∨ bits w1 35 20 ≠ 0 then (Rc.RANGE, 0)
  else if y < 2000 ∨ 4177 < y then (0x88, 0)
  else if mo < 1 ∨ 12 < mo ∨ d < 1 ∨ monthDays y mo < d ∨ 23 < h ∨ 59 < mi ∨ 59 < se then (Rc.CALENDAR, 0)
  else if 2 ^ 36 ≤ t then (0x88, 0)
  else (Rc.OK, t)

/-- The year that day `d` (from 2000-01-01) falls in, searched upwards from `y`. -/
def findYear : Nat → Nat → Nat → Nat
  | 0, y, _ => y
  | n + 1, y, d => if yearStart (y + 1) ≤ d then findYear n (y + 1) d else y

/-- The month of day `d` of year `y`, and the days left in it. -/
def findMonth (y : Nat) : Nat → Nat → Nat → Nat × Nat
  | 0, m, d => (m, d)
  | n + 1, m, d => if monthDays y m ≤ d then findMonth y n (m + 1) (d - monthDays y m) else (m, d)

/-- CAL_FROMSEC: words 0 and 1. -/
def calFromSec (t : Nat) : Nat × Nat :=
  let day := t / 86400
  let r := t % 86400
  let y := findYear 6 (2000 + day / 366 - 0) day
  let (m, d) := findMonth y 11 1 (day - yearStart y)
  (y <<< 10 ||| m <<< 6 ||| (d + 1), ((day + 5) % 7) <<< 17 ||| (r / 3600) <<< 12 ||| (r / 60 % 60) <<< 6 ||| r % 60)

end Sys2Proof.Machine
end

