-- ==== Sys2Proof/Machine/Power.lean ====
section
/-!
DEFINITION. Rest states, wakes, brown-outs and supply warnings (spec/04 R98 to R113, spec/03 R76, R77).
-/
namespace Sys2Proof.Machine

/-! ### Holders (R103, R104) -/

/-- Some timer in `p` is enabled. -/
def Chip.anyTimer (s : Chip) (p : Nat → Bool) : Bool := (List.range 8).any (fun n => s.tmrOn n && p n)

/-- HCS is low at an enabled host port. -/
def Chip.hcsLow (s : Chip) : Bool := s.bit F.HP_STAT_ACTIVE && (s.pinOf Mean.HCS).isSome && !s.inputLevel Mean.HCS

/-- Holder `n` of R103 is present.  A SLOT window that is open holds the chip as one about to open does: SLOT ends when
it closes (R73).
[DEDUCED, unsafe: notes/assumptions/160] -/
def Chip.holder (s : Chip) (n : Nat) : Bool :=
  match n with
  | 0 => s.anyTimer (fun k => s.fld (F.TMRN_CFG_SRC k) ≠ 1)
  | 1 => s.anyTimer (fun _ => true)
  | 2 => s.bit F.LNK_CTL_EN || s.lnk.running
  | 3 => s.pins.windows ≠ 0 || match s.nextOpening with
    | none => false
    | some t => t ≤ s.now + us (s.fld F.LNK_CFG_WAKELEAD)
  | 4 => s.lnk.live.isSome || s.syn.job ≠ .idle
  | 5 => s.flc.op.isSome || s.flc.otp.isSome
  | 6 => (List.range 4).any (fun u => s.pageState u ≠ 0)
  | 7 => s.hcsLow || s.bit F.SVC_STAT_SESSION
  | 8 => s.nfcHolds
  | _ => false

def Chip.holdView (s : Chip) : Word := W ((List.range 9).foldl (fun acc n => putBit acc n (s.holder n)) 0)

/-- The deepest state that no holder forbids for good: 0 DOZE, 1 SLEEP, 2 HIBERNATE, 3 SHIP. -/
def Chip.depthLimit (s : Chip) : Nat := if s.holder 0 then 0 else if s.holder 1 || s.holder 2 then 1 else 3

/-- A delaying holder is present. -/
def Chip.delayed (s : Chip) : Bool := [3, 4, 5, 6, 7, 8].any s.holder

/-- Every released core is in WAIT, and none is halted (R103). -/
def Chip.allWait (s : Chip) : Bool :=
  allCores.all (fun c => (s.core c).run = .held || ((s.core c).run = .wait && !(s.core c).halted))

/-- No interrupt is pending for a released core's target. -/
def Chip.noneForWaiting (s : Chip) : Bool := allCores.all (fun c => (s.core c).run = .held || (s.bestSource c.cid).isNone)

/-- The rest state that the chip enters now; none while it stays in RUN or DOZE. -/
def Chip.restDepth (s : Chip) : Option PState :=
  if s.pwr.st ≠ .run || s.pwr.bootPending || s.boot.ph ≠ .idle || s.ldr.who = .rom || !s.allWait || !s.noneForWaiting || s.delayed then none
  else
    match min (s.fld F.PMU_REQ_DEPTH) s.depthLimit with
    | 0 => none
    | 1 => some .sleep
    | 2 => some .hibernate
    | _ => some .ship

/-- PMU_STAT.LAST keeps the deepest state reached since its last read. -/
def Chip.noteDepth (s : Chip) (d : Nat) : Chip := s.setFld F.PMU_STAT_LAST (max d (s.fld F.PMU_STAT_LAST))

/-- DOZE is reached when every released core waits (R101). -/
def Chip.noteDoze (s : Chip) : Chip :=
  if s.pwr.st = .run && s.allWait && allCores.any (fun c => (s.core c).run ≠ .held) && s.fld F.PMU_STAT_LAST = 0 then s.noteDepth 1 else s

/-! ### PMU registers (R103 to R108) -/

def Chip.pmuReason (s : Chip) (code : Nat) : Chip := s.setReason R.PMU_STAT code

/-- A write of PMU_REQ (R104, R105): DEPTH and RET are taken each on its own.
[DEDUCED, unsafe: notes/assumptions/13] [DEDUCED, unsafe: notes/assumptions/14]
[DEDUCED, unsafe: notes/assumptions/164] -/
def Chip.pmuReqWrite (s : Chip) (ag : Agent) (v : Word) : Chip :=
  let d := bits v.toNat 17 16
  let r := bits v.toNat 15 0
  let lasting := if s.holder 0 then 0 else if s.holder 1 then 1 else 3
  if ag = .badger then s.pmuReason Rc.SECURITY
  else
    let (c1, s1) : Nat × Chip :=
      if s.fld F.PMU_REQ_MAXDEPTH < d then (Rc.RANGE, s)
      else if d = s.fld F.PMU_REQ_DEPTH then (Rc.OK, s)
      else if lasting < d then (Rc.BUSY, s)
      else (Rc.OK, s.setFld F.PMU_REQ_DEPTH d)
    let (c2, s2) : Nat × Chip :=
      if r = s1.fld F.PMU_REQ_RET then (c1, s1)
      else if s1.lockedSec 2 then (Rc.LOCKED, s1)
      else (c1, s1.setFld F.PMU_REQ_RET r)
    s2.pmuReason c2

/-- A read of PMU_STAT clears LAST. -/
def Chip.pmuStatRead (s : Chip) : Word × Chip := (s.reg R.PMU_STAT, s.setFld F.PMU_STAT_LAST 0)

/-- A write of PMU_BOD: W1C flags, and VINBOD.  When both flags are clear the held claims are examined at once (R135). -/
def Chip.pmuBodWrite (s : Chip) (v : Word) : Chip :=
  let n := v.toNat % 8
  let s0 := s.setReg R.PMU_BOD (s.reg R.PMU_BOD &&& ~~~ (v &&& 0x18#36))
  let s1 := if s.warnHold && !s0.warnHold then s0.admission else s0
  if n = s1.fld F.PMU_BOD_VINBOD then s1.pmuReason Rc.OK
  else if s1.lockedSec 2 then s1.pmuReason Rc.LOCKED
  else if 4 < n then s1.pmuReason Rc.RANGE
  else (s1.setFld F.PMU_BOD_VINBOD n).pmuReason Rc.OK

/-- A write of PMU_WCLS (R108). -/
def Chip.pmuWclsWrite (s : Chip) (v : Word) : Chip :=
  let n := v.toNat % 65536 / 16 * 16
  if s.lockedSec 2 then s.pmuReason Rc.LOCKED
  else if wclsBad n then s.pmuReason Rc.RANGE
  else (s.setReg R.PMU_WCLS (W n)).pmuReason Rc.OK

/-! ### Brown-outs and warnings (R98 to R100) -/

/-- A detector that is active in the present state resets the chip. -/
def Chip.detectorActs (s : Chip) : Detector → Chip
  | .vin => if s.pwr.st = .ship then s else s.brownout 9
  | .vsys => if s.pwr.st = .ship || s.pwr.st = .hibernate then s else s.brownout 10
  | .vcore => if s.pwr.st = .ship || s.pwr.st = .hibernate then s else s.brownout 11

/-- The VIN warning: the flag, the supply event, and a measurement when the flag becomes 1 (R99, R121). -/
def Chip.vinWarning (s : Chip) : Chip :=
  if s.pwr.st = .ship then s
  else
    let s1 := { s with pwr := { s.pwr with vinLow := true } }
    let s2 := (s1.setBit F.PMU_BOD_VINW true).occ 20
    if s.bit F.PMU_BOD_VINW then s2 else s2.measFallsDue

/-- The VSYS warning also ends a transmission (R99). -/
def Chip.vsysWarning (s : Chip) : Chip :=
  if s.pwr.st = .ship || s.pwr.st = .hibernate then s
  else
    let s1 := { s with pwr := { s.pwr with vsysLow := true } }
    ((s1.setBit F.PMU_BOD_VSYSW true).occ 20).warnTx

/-- A low pulse of RESETN of `ns` nanoseconds: below 0.5 µs it never resets, from 2 µs it always does, and
between it may (R599).
[DESIGN CHOICE, safe: notes/assumptions/46] [DESIGN CHOICE, safe: notes/assumptions/152] -/
def Chip.resetnPulse (s : Chip) (ns : Nat) : Chip :=
  let reset (s : Chip) : Chip := if s.pwr.st = .ship then s.leaveShip 12 else s.requestReset .pin
  if 2000 ≤ ns then reset s
  else if ns < 500 then s
  else if Config.freeBool s.free then reset s.draw
  else s.draw

/-! ### Entering a rest state (R103, R106, R271) -/

/-- Steps 1 and 2: REST meanings, wake detectors, the link wake.  All four steps take at most 10 µs; how long is free.
[DESIGN CHOICE, safe: notes/assumptions/63] -/
def Chip.restBegin (s : Chip) (p : PState) : Chip :=
  let s1 := s.enterPhase .rest
  let lw := if p = .sleep then s.nextOpening.map (fun t => t - us (s.fld F.LNK_CFG_WAKELEAD)) else none
  let d := Config.freeNat s1.free % (us 10 + 1)
  { s1.draw with pwr := { s1.pwr with entering := some p, entryDoneAt := s1.now + d, linkWakeAt := lw } }

/-- HF-REF stops in SLEEP, after a ping that runs (R374). -/
def Chip.restHf (s : Chip) : Chip := if s.nfc.rd.ph = .ping then s.stopPll else s.stopHf

/-- Steps 3 and 4: what each state keeps.  In SLEEP the core buck holds VCORE at 0.75 V (R97). -/
def Chip.restComplete (s : Chip) (p : PState) : Chip :=
  let s0 := { s with pwr := { s.pwr with entering := none } }
  match p with
  | .run => s0
  | .sleep =>
    let s1 := (((s0.noteDepth 2).restHf.losePower (0xFFFF - s0.fld F.PMU_REQ_RET))).setFld F.PMU_VCORE_SETCODE 10
    { s1 with pwr := { s1.pwr with st := .sleep } }
  | .hibernate =>
    let s1 := ((s0.noteDepth 3).stopHf.losePower 0xFFFF).syncLevel.storeSupply
    (({ s1 with pwr := { s1.pwr with st := .hibernate },
                owl := { s1.owl with measAt := if s1.bear.measDue then some s1.now else s1.bear.nextMeas } }).setBear
      { s1.bear with grants := [], pend := [], resv := List.replicate 64 none, measuring := false, measDue := false, retryAt := none })
  | .ship =>
    let s1 := s0.powerOn
    { s1 with pwr := { s1.pwr with st := .ship },
              clk := { s1.clk with hfOn := false, lfxoOk := false },
              pins := { s1.pins with phase := .rest, cur := (List.replicate 24 Mean.OFF).set 2 Mean.FDET } }

/-- The chip enters a rest state: the second part of an entry in progress, or the whole entry. -/
def Chip.restEntry (s : Chip) : Chip :=
  match s.pwr.entering with
  | some p => s.restComplete p
  | none =>
    match s.restDepth with
    | none => s
    | some p => (s.restBegin p).restComplete p

/-- An interrupt that becomes pending for a waiting core aborts an entry (R106).
[DEDUCED, unsafe: notes/assumptions/21] -/
def Chip.entryAbort (s : Chip) : Chip :=
  if s.pwr.entering.isSome && !s.noneForWaiting then
    ((({ s with pwr := { s.pwr with entering := none } }).enterPhase s.openPhase).setCause 15).occ 82
  else s

/-! ### Wake sources (R76, R106, R108, R271, R551) -/

/-- An edge on general pin `n`.  In a REST meaning of its direction it aborts an entry or wakes the chip. -/
def Chip.wakePinEdge (s : Chip) (n : Nat) (rise : Bool) : Chip :=
  if 24 ≤ n then s
  else
    let m := s.pins.cur.getD n 0
    let hit := s.padIn n ≠ rise && s.pinPowered n && s.pins.phase = .rest && s.pwr.st ≠ .ship
      && m = (if rise then Mean.WAKE_RISE else Mean.WAKE_FALL)
    let s1 := s.drivePin n rise
    if !hit then s1
    else
      let s2 := s1.setFld ⟨R.PIN_WAKE, n, n⟩ 1
      let s3 := if s2.pwr.entering.isSome then s2.setBit F.PIN_WAKE_ABORT true else s2
      s3.wakeEvent 6 4

/-- The armed link wake fires. -/
def Chip.linkWake (s : Chip) : Chip :=
  match s.pwr.linkWakeAt with
  | none => s
  | some _ => ({ s with pwr := { s.pwr with linkWakeAt := none } }).wakeEvent 3 6

/-- An SVC_CK edge wakes the chip: it is in REST, or enters it, and not in SHIP (R70, R551). -/
def Chip.svcWakes (s : Chip) : Bool := s.pwr.st = .sleep || s.pwr.st = .hibernate || s.pwr.entering.isSome

/-- The first SVC_CK edge in REST wakes the chip, and the request it began is lost. -/
def Chip.svcWakeEdge (s : Chip) : Chip :=
  if s.svcWakes then
    ({ s with svc := { s.svc with lost := true, edgeAt := s.now } }).wakeEvent 2 14
  else s

/-! ### Waking (R108, R109, R141) -/

/-- Bear's answer to claimant 12 (R108, R141).  A grant after a deferral publishes the event; from HIBERNATE the warm
boot does, which would clear it.  The measurements every 100 ms begin with a deferral of any cause.
[DESIGN CHOICE, unsafe: notes/assumptions/192] -/
def Chip.wakeAnswer (s : Chip) (a : Answer) : Chip :=
  match a.kind with
  | .defer =>
    let s1 := s.setReg R.EGY_WDEF (W s.stbLo)
    { s1 with pwr := { s1.pwr with wakeDeferred := true, remeasureAt := some (s1.pwr.remeasureAt.getD (s1.now + msec 100)) } }
  | .deny => s
  | _ =>
    let warm := s.pwr.st = .hibernate
    let s1 := if s.pwr.wakeDeferred && !warm then s.occ 21 else s
    { s1 with pwr := { s1.pwr with wakeGranted := true, wakeDeferred := s1.pwr.wakeDeferred && warm, remeasureAt := none } }

/-- A measurement while a chip-wake claim waits: the one that runs ends, or one whose 100 ms have run is made from start
to end where LEVEL allows it; the claim is re-examined after it (R108, R121). -/
def Chip.wakeRemeasure (s : Chip) (m : SupplyMeas) : Chip :=
  if s.pwr.wakeSrc ≠ 0 && !s.pwr.wakeGranted && (s.bear.measuring || (s.wakeMeasDue && s.syncLevel.measLevelOk)) then
    let s1 := (s.measDone m).admission
    { s1 with pwr := { s1.pwr with remeasureAt := s1.pwr.remeasureAt.map (fun _ => s1.now + msec 100) } }
  else s

/-- The bits of every source that fired, and the state woken from. -/
def Chip.takeCause (s : Chip) (frm : Nat) : Chip :=
  let s1 := (List.range 16).foldl (fun c b => if bitOf s.pwr.wakeSrc b then c.setCause b else c) s
  ({ s1 with pwr := { s1.pwr with wakeSrc := 0, wakeGranted := false, wakeDeferred := false, linkWakeAt := none } }).setFrom frm

/-- The line of target `t` has risen, and stays high while what is presented is: no delay holds it back any more (R422, R461). -/
def Chip.ripen (s : Chip) (t : Nat) : Chip :=
  { s with icu := { s.icu with ripe := ((sources.filter (fun n => s.presented t n)).map (fun n => (t, n))).filter (fun p => !s.icu.ripe.contains p) ++ s.icu.ripe } }

/-- A waiting core leaves WAIT when its line is high (R461); in SLEEP only after the wake (R109), in the dead state and where Vole
parked it never (R576, R578, R582).
[DEDUCED, unsafe: notes/assumptions/62] -/
def Chip.endWait (s : Chip) (c : Core) : Chip :=
  if s.pwr.st = .run && s.boot.ph ≠ .dead && (s.core c).run = .wait && !(s.core c).halted && s.coreRate c ≠ 0 && s.line c.cid
    && !(c = .foxA && s.ldr.parked) then (s.ripen c.cid).setCore c { s.core c with run := .run } else s

/-- After the granted wake the chip is in RUN with everything intact (R109, R76, R436); VCORE rises before the clocks
(R97). -/
def Chip.wakeFromSleep (s : Chip) : Chip :=
  if s.pwr.st = .sleep && s.pwr.wakeGranted then
    let s1 := s.takeCause 1
    let s2 := ({ s1 with pwr := { s1.pwr with st := .run } }).setVcore.startHf
    let s2 := s2.enterPhase s2.openPhase
    allCores.foldl Chip.endWait s2.releaseHeld
  else s

end Sys2Proof.Machine
end

