-- ==== Sys2Proof/Machine/Sections.lean ====
section
/-!
DEFINITION. The RADIO, IRQ, EVENTS and CORES sections (spec/06 R180 to R182, spec/14 R437 to R439,
spec/20 R563 to R565), the enable of the host port (spec/19 R543, R548), and the application of a whole
stream (spec/02 R50 to R54).
-/
namespace Sys2Proof.Machine

/-- Apply checks in turn: the first code that is not OK ends them. -/
def Chip.eachOk {α : Type} (s : Chip) (f : Chip → α → Nat × Chip) : List α → Nat × Chip
  | [] => (Rc.OK, s)
  | x :: l =>
    match f s x with
    | (0, s1) => s1.eachOk f l
    | r => r

/-! ### RADIO -/

/-- The images of words 0 to 5 and the mask points are in range. -/
def radioRangeBad (b : List Nat) : Bool :=
  let w (i : Nat) : Nat := b.getD i 0
  bits (w 0) 35 6 ≠ 0 || bitOf (w 0) 3 || bits (w 1) 35 5 ≠ 0
    || bits (w 2) 35 24 ≠ 0 || bitOf (w 2) 15 || 4 < bits (w 2) 14 12
    || bits (w 3) 35 6 ≠ 0 || bits (w 3) 5 0 < 3 || 30 < bits (w 3) 5 0
    || (w 4 &&& 0xFFFC800FC) ≠ 0 || bits (w 5) 35 4 ≠ 0
    || (List.range 8).any (fun n => bits (w (6 + 2 * n)) 35 30 ≠ 0 || bits (w (7 + 2 * n)) 7 5 ≠ 0)
    || (b.length = 82 && ((List.range 4).any (fun k => bits (w (22 + 11 * k + 10)) 35 24 ≠ 0)
      || (List.range 16).any (fun p => bits (w (66 + p)) 34 24 ≠ 0 || 2048 < bits (w (66 + p)) 23 12)))

/-- One profile: its F and then its M, as writes of the same values. -/
def Chip.applyProf (b : List Nat) (s : Chip) (n : Nat) : Nat × Chip :=
  let f := b.getD (6 + 2 * n) 0
  let m := b.getD (7 + 2 * n) 0
  if f ≠ 0 && !inBands f then (Rc.BAND, s)
  else
    let s1 := s.setReg (R.RFE_PROF_F n) (W f)
    (s1.profMCheck n m, s1.setReg (R.RFE_PROF_M n) (W m))

/-- The version-2 RADIO body; the enables come last (R181). -/
def Chip.applyRadio (s : Chip) (b : List Nat) : Nat × Chip :=
  let w (i : Nat) : Word := W (b.getD i 0)
  if b.length ≠ 22 ∧ b.length ≠ 82 then (Rc.STREAM, s)
  else if radioRangeBad b then (Rc.RANGE, s)
  else
    let s1 := ((((s.setReg R.SYN_CFG (w 1)).setReg R.RFE_CFG ((F.RFE_CFG_OWNER).put (w 2) (bits (b.getD 0 0) 5 4))).setReg R.RFE_AGC (w 3)).setReg
      R.CX_CFG (w 4)).setReg R.CX_ARBNXT (w 5) |>.setReg R.CX_ARBCUR (w 5)
    let s2 := if b.length = 22 then s1 else
      (List.range 16).foldl (fun c p => c.setReg (R.RFE_MASK p) (w (66 + p)))
        ((List.range 44).foldl (fun c i => c.setReg (R.RFE_FIR (i / 11) (i % 11)) (w (22 + i))) s1)
    match s2.eachOk (Chip.applyProf b) (List.range 8) with
    | (0, s3) =>
      let en (bit : Nat) (blk : Block) (f : Chip → Chip) (s : Chip) : Nat × Chip :=
        if bitOf (b.getD 0 0) bit then let s' := f s; (s'.fld ⟨blockStat blk, 7, 0⟩, s') else (Rc.OK, s)
      s3.eachOk (fun s f => f s) [en 0 .syn Chip.synEnable, en 1 .rfe Chip.rfeEnable, en 2 .cx Chip.cxEnable]
    | r => r

/-- The default contents: the reset values and empty profiles. -/
def radioDefault : List Nat :=
  0 :: [R.SYN_CFG, R.RFE_CFG, R.RFE_AGC, R.CX_CFG, R.CX_ARBNXT].map (fun a => (regReset a).toNat) ++ List.replicate 16 0

/-- One profile of the version-1 body (R182). -/
def profV1 (f1 p : Nat) : Option (List Nat) :=
  let mode := bits p 7 6
  if bits f1 35 24 ≠ 0 ∨ bits p 35 11 ≠ 0 ∨ mode = 2 ∨ 31 < bits p 5 0 then none
  else
    let f := bits f1 23 0
    let pwr := 2 * bits p 5 0
    some [64 * f, ((f ≠ 0 : Bool).toNat <<< 35) ||| pwr <<< 29 ||| pwr <<< 23 ||| mode <<< 21 ||| bits p 10 8 <<< 18 ||| 0xF <<< 11 ||| 3 <<< 8 ||| 12]

/-- Translate the version-1 body: the code that refuses it, or the version-2 words. -/
def radioV1 (b : List Nat) : Nat × List Nat :=
  let w0 := b.getD 0 0
  if b.length ≠ 9 then (Rc.STREAM, [])
  else
    let ps := (List.range 4).map (fun n => profV1 (b.getD (1 + 2 * n) 0) (b.getD (2 + 2 * n) 0))
    if bits w0 35 11 ≠ 0 ∨ ps.any Option.isNone then (Rc.RANGE, [])
    else
      let on := bits w0 0 0
      let role := bits w0 2 1
      (Rc.OK, [((role ≠ 0 : Bool).toNat <<< 2) ||| on <<< 1 ||| on, (regReset R.SYN_CFG).toNat, (regReset R.RFE_CFG).toNat,
        (regReset R.RFE_AGC).toNat, bits w0 10 3 <<< 8 ||| role, (regReset R.CX_ARBNXT).toNat]
        ++ ps.flatMap (fun o => o.getD []) ++ List.replicate 8 0)

/-! ### IRQ -/

/-- The version-2 IRQ body (R437). -/
def Chip.applyIrq (s : Chip) (b : List Nat) : Nat × Chip :=
  let src (n : Nat) : Nat := b.getD (n - 1) 0
  let md (t : Nat) : Nat := b.getD (95 + t) 0
  if b.length ≠ 99 then (Rc.STREAM, s)
  else if sources.any (fun n => bits (src n) 35 8 ≠ 0 || (!nativeLevel n && !bitOf (src n) 3))
      ∨ (List.range 4).any (fun t => bits (md t) 35 12 ≠ 0 || 8 < bits (md t) 11 8) then (Rc.RANGE, s)
  else if sources.any (fun n => bitOf (src n) 7 && bits (src n) 6 4 ≠ 0) then (Rc.COMBINATION, s)
  else
    let s1 := sources.foldl (fun c n => (c.setFld ⟨R.ICU_SRC n, 7, 0⟩ (src n)).retrig n) s
    (Rc.OK, (List.range 4).foldl (fun c t => c.setFld ⟨R.ICU_MOD t, 11, 0⟩ (md t)) s1)

def irqDefault : List Nat :=
  sources.map (fun n => (regReset (R.ICU_SRC n)).toNat) ++ (List.range 4).map (fun t => bits (regReset (R.ICU_MOD t)).toNat 11 0)

/-- Translate the version-1 body (R438). -/
def irqV1 (b : List Nat) : Nat × List Nat :=
  let f (n : Nat) : Nat := bits (b.getD ((n - 1) / 9) 0) (4 * ((n - 1) % 9) + 3) (4 * ((n - 1) % 9))
  if b.length ≠ 11 then (Rc.STREAM, [])
  else if [96, 97, 98, 99].any (fun n => f n ≠ 0) then (Rc.RANGE, [])
  else (Rc.OK, sources.map (fun n => bits (f n) 3 3 <<< 4 ||| (!nativeLevel n).toNat <<< 3 ||| bits (f n) 2 0)
    ++ (List.range 4).map (fun t => bits (regReset (R.ICU_MOD t)).toNat 11 0))

/-! ### EVENTS -/

/-- The EVENTS body (R439). -/
def Chip.applyEvents (s : Chip) (b : List Nat) : Nat × Chip :=
  let w0 := b.getD 0 0
  let q := bits w0 12 8
  if b.length ≠ 73 then (Rc.STREAM, s)
  else if bits w0 35 13 ≠ 0 ∨ bits w0 7 3 ≠ 0 ∨ (q ≠ 0 ∧ q < 16)
      ∨ (List.range 40).any (fun c => (b.getD (1 + c) 0 &&& (0xFFFFFFFFF - chMask)) ≠ 0)
      ∨ (List.range 32).any (fun t => bits (b.getD (41 + t) 0) 33 14 ≠ 0) then (Rc.RANGE, s)
  else
    let s1 := (s.setFld F.EVR_QCFG_QUEUE q).setFld F.EVR_CLEAR_AGENT (bits w0 2 0)
    let ch (c : Nat) : Nat := b.getD (1 + c) 0
    let sub (t : Nat) : Nat := b.getD (41 + t) 0
    let s2 := (List.range 40).foldl (fun s c => s.setReg (R.EVR_CH c) (W (ch c))) s1
    let codes := (List.range 40).map (fun c => s1.evrChCheck c (ch c))
      ++ (List.range 32).map (fun t => s2.evrSubCheck (Agent.ofCode (bits (sub t) 35 34)) t (sub t) (bits (sub t) 35 34))
    (sectionCode codes, (List.range 32).foldl (fun s t => s.setReg (R.EVR_TSUB t) (W (sub t))) s2)

def eventsDefault : List Nat := 7 :: List.replicate 72 0

/-! ### CORES -/

/-- The address regions that an explicit entry may name (R564). -/
def entryOk (a : Nat) : Bool := (0x105010 ≤ a && a ≤ 0x17FFFF) || (0x180000 ≤ a && a ≤ 0x1EE7FF)

/-- The version-2 CORES body (R563, R564, R150).
[DEDUCED, unsafe: notes/assumptions/49] -/
def Chip.applyCores (s : Chip) (b : List Nat) : Nat × Chip :=
  let w (i : Nat) : Nat := b.getD i 0
  let rel (c : Core) : Bool := bitOf (w 0) c.cid
  let need := (allCores.filter rel).map s.corePower
  if b.length ≠ 4 then (Rc.STREAM, s)
  else if bits (w 0) 35 3 ≠ 0 ∨ [1, 2, 3].any (fun i => bits (w i) 34 24 ≠ 0 || (bitOf (w i) 35 && !entryOk (bits (w i) 23 0))) then (Rc.RANGE, s)
  else if !rel .foxA then (Rc.COMBINATION, s)
  else if (rel .foxB && (!s.prov 7 || s.foxCode .foxB = 0)) || (rel .badger && !s.prov 5) then (Rc.CLOCK_OFF, s)
  else if allCores.any (fun c => rel c && s.fld (F.EGY_DECL_PEAK c.cid) < s.corePower c)
      ∨ freeRefill s.refill s.bear.grants < ((need.foldl (· + ·) 0 : Nat) : Int) then (Rc.BUDGET, s)
  else (Rc.OK, { s with cfg := { s.cfg with cores := b } })

def coresDefault : List Nat := [1, 0, 0, 0]

/-- Translate the version-1 body (R565). -/
def coresV1 (b : List Nat) : Nat × List Nat :=
  match b with
  | [w] => if bits w 35 1 ≠ 0 then (Rc.RANGE, []) else (Rc.OK, [1 ||| bits w 0 0 <<< 2, 0, 0, 0])
  | _ => (Rc.STREAM, [])

/-! ### The host port's enable (R543, R548) -/

/-- The port goes to SELECT, or to version 1 when its entry allows nothing else. -/
def Chip.hpSelect (s : Chip) : Chip := s.setFld F.HP_STAT_VER (if (s.offer 0).2 = 1 then 1 else 0)

/-- A write of HP_CTL.EN = 1, which puts the port in SELECT (R543), and its checks (R548). -/
def Chip.hpEnable (s : Chip) : Chip :=
  let s := s.hpSelect
  let pinned := [Mean.HCS, Mean.HCK, Mean.HDI, Mean.HDO].zipIdx.all (fun (m, i) =>
    meanIn (s.pinMap (4 + i)) .run = m && meanIn (s.pinMap (4 + i)) .slot = m)
  if !s.prov 12 then s.setReason R.HP_STAT Rc.CLOCK_OFF
  else if !pinned then s.setReason R.HP_STAT Rc.PIN_PHASE
  else
    let s1 := if s.holds 10 then s else s.claimNow 10 (s.fld (F.EGY_DECL_PEAK 10))
    if s1.holds 10 then s1.enableBlock .hp else (s1.release 10).setReason R.HP_STAT Rc.BUDGET

/-- The port stops: the claim is released. -/
def Chip.hpStop (s : Chip) : Chip := (s.blockStopped .hp).release 10

/-- A write of HP_CTL.EN = 0 takes effect with HCS high. -/
def Chip.hpDisable (s : Chip) : Chip :=
  if !s.bit F.HP_CTL_EN then s
  else
    let s1 := ({ s with stopping := .hp :: s.stopping }).setBit F.HP_CTL_EN false
    if s1.hcsLow then s1 else s1.hpStop

/-! ### The whole stream (R50 to R54, R62) -/

/-- Apply a version-2 body of a section type. -/
def Chip.applySection (s : Chip) (ty : Nat) (b : List Nat) : Nat × Chip :=
  match ty with
  | 1 => s.applyClocks b | 2 => s.applyPower b | 3 => s.applyBudget b | 4 => s.applyMargins b | 5 => s.applyVersions b
  | 6 => s.applyPins b | 7 => s.applyQueues b | 8 => s.applyTimers b | 9 => s.applyEvents b | 10 => s.applyIrq b
  | 11 => s.applyKeys b | 12 => s.applyRadio b | _ => s.applyCores b

/-- Translate a version-1 body to version 2. -/
def sectionV1 (ty : Nat) (b : List Nat) : Nat × List Nat :=
  let one (f : Nat → Nat × List Nat) : Nat × List Nat :=
    match b with
    | [w] => f w
    | _ => (Rc.STREAM, [])
  match ty with
  | 1 => one clocksV1 | 2 => one powerV1 | 6 => pinsV1 b
  | 7 => if b.length = 16 then (Rc.OK, queuesV1 b) else (Rc.STREAM, [])
  | 10 => irqV1 b | 12 => radioV1 b | _ => coresV1 b

def sectionDefault (ty : Nat) : List Nat :=
  match ty with
  | 1 => clocksDefault | 2 => powerDefault | 3 => budgetDefault | 4 => marginsDefault | 5 => versionsDefault
  | 6 => pinsDefault | 7 => queuesDefault | 8 => timersDefault | 9 => eventsDefault | 10 => irqDefault
  | 11 => keysDefault | 12 => radioDefault | _ => coresDefault

/-- A section that takes its default contents; after PINS the ROM enables the host port (R53). -/
def Chip.applyDefault (s : Chip) (ty : Nat) : Nat × Chip :=
  let (code, s1) := s.applySection ty (sectionDefault ty)
  (code, if ty = 6 then s1.hpEnable else s1)

/-- The body lengths of a section type in a format version. -/
def lengthOk (ver ty n : Nat) : Bool :=
  if ver = 1 then
    match ty with
    | 1 => n = 1 | 2 => n = 1 | 6 => n = 12 | 7 => n = 16 | 10 => n = 11 | 12 => n = 9 | 13 => n = 1 | _ => false
  else
    match ty with
    | 1 => n = 2 | 2 => n = 3 | 3 => n = 19 | 4 => n = 6 | 5 => 1 ≤ n && n ≤ 4 | 6 => n = 24 | 7 => n = 96 | 8 => n = 2
    | 9 => n = 73 | 10 => n = 99 | 11 => n = 16 | 12 => n = 22 || n = 82 | _ => n = 4

/-- A section of the stream: its length, its version, its translation, its check (R49, R52). -/
def Chip.applyFound (s : Chip) (ver : Nat) (x : Section) : Nat × Chip :=
  let n := x.body.length
  if x.version = ver ∧ (ver = 2 ∨ v1Type x.ty) then
    if !lengthOk ver x.ty n then (Rc.STREAM, s)
    else if ver = 1 then
      match sectionV1 x.ty x.body with
      | (0, b) => s.applySection x.ty b
      | (code, _) => (code, s)
    else s.applySection x.ty x.body
  else if lengthOk 1 x.ty n || lengthOk 2 x.ty n then (Rc.VERSION, s)
  else (Rc.STREAM, s)

/-- Go through the section types in order: the section where the stream has it, its default contents
where it does not.  Answers the code, and the type and offset of a refused section. -/
def Chip.applyTypes (s : Chip) (ver : Nat) (l : List Section) : List Nat → Nat × Nat × Nat × Chip
  | [] => (Rc.OK, 0, 0, s)
  | ty :: rest =>
    match l.find? (fun x => x.ty = ty) with
    | some x =>
      match s.applyFound ver x with
      | (0, s1) => s1.applyTypes ver l rest
      | (code, _) => (code, ty, x.offset, s)
    | none =>
      match if ver = 1 && ty = 5 then s.applyVersions versionsV1 else s.applyDefault ty with
      | (0, s1) => s1.applyTypes ver l rest
      | (code, _) => (code, ty, 0, s)

def sectionTypes : List Nat := (List.range 13).map (· + 1)

/-- The default stream in full. -/
def Chip.applyDefaults (s : Chip) : Chip := sectionTypes.foldl (fun c ty => (c.applyDefault ty).2) s

/-- SSM_STAT and SSM_BOOT. -/
def Chip.ssm (s : Chip) (source reason ty offset crc : Nat) : Chip :=
  (((s.setFld F.SSM_STAT_SOURCE source).setReason R.SSM_STAT reason).setReg R.SSM_BOOT (W (ty <<< 27 ||| offset))).setReg R.SSM_CRC (W crc)

/-- Step 6 of the boot: the primary stream, or the default stream with the cause recorded. -/
def Chip.applyStream (s : Chip) : Chip :=
  match findStream (s.flashNats streamBase streamMax) with
  | .absent => s.applyDefaults.ssm 2 Rc.OK 0 0 0
  | .corrupt crc => s.applyDefaults.ssm 3 Rc.OK 0 0 crc
  | .refused crc ty off => s.applyDefaults.ssm 4 Rc.STREAM ty off crc
  | .sections crc ver lock l =>
    match s.applyTypes ver l sectionTypes with
    | (0, _, _, s1) => (s1.setReg R.SSM_LOCK (W lock)).ssm (if ver = 1 then 1 else 0) Rc.OK 0 0 crc
    | (code, ty, off, _) => s.applyDefaults.ssm 4 code ty off crc

end Sys2Proof.Machine
end

