-- ==== Sys2Proof/Machine/Boot.lean ====
section
/-!
DEFINITION. The boot sequence, the image check, the settings area, the release of the cores, recovery
and the dead state (spec/20 R557 to R568, R580, R582; spec/04 R110; spec/05 R126).
-/
namespace Sys2Proof.Machine

/-! ### The image check (R560 to R562) -/

/-- The five bytes of a word (R542). -/
def fiveBytes (w : Nat) : List Nat := [bits w 35 32, bits w 31 24, bits w 23 16, bits w 15 8, bits w 7 0]

/-- CRC-32 over words of five bytes each. -/
def crc36 (ws : List Nat) : Nat := crc32Bytes (ws.flatMap fiveBytes)

def imgBase : Nat := 0x105000
def voleBase : Nat := 0x100000
def imgMagic : Nat := 0x7E41A3648
def voleMagic : Nat := 0x7E41A3649

/-- What a header must satisfy, the image's or Vole's: items 3 and 4 of R561 and the limits of R560. -/
def headerOk (vole : Bool) (h : List Nat) : Bool :=
  let w (i : Nat) : Nat := h.getD i 0
  let len := bits (w 2) 18 0
  let sect := bits (w 8) 29 24
  let base := bits (w 8) 23 0
  let dlen := bits (w 10) 15 0
  bits (w 1) 35 24 = 1 && bits (w 1) 23 0 = 0 && bits (w 2) 35 19 = 0 && bits (w 3) 35 32 = 0 && bits (w 4) 35 16 = 0
    && [5, 6, 7].all (fun i => bits (w i) 34 24 = 0) && bits (w 8) 35 30 = 0 && bits (w 9) 35 19 = 0 && bits (w 10) 35 16 = 0
    && [12, 13, 14].all (fun i => w i = 0) && bits (w 15) 35 32 = 0
    && 1 ≤ len && len ≤ (if vole then 16368 else 503792) && crc36 (h.take 15) = w 15
    && (if vole then !bitOf (w 6) 35 && !bitOf (w 7) 35 && sect = 0
        else sect = 0 || (base % 1024 = 0 && 0x180000 ≤ base && base + 1024 * sect ≤ 0x1EE800 && dlen ≤ 1024 * sect - 1
          && bits (w 9) 18 0 + dlen ≤ len))

/-- Every core that the CORES words release at the header's entry has one in the body (item 5). -/
def entriesOk (cores h : List Nat) : Bool :=
  allCores.all (fun c =>
    !bitOf (cores.getD 0 0) c.cid || bitOf (cores.getD (1 + c.cid) 0) 35 ||
      (let e := h.getD (5 + c.cid) 0
       bitOf e 35 && 0x105010 ≤ bits e 23 0 && bits e 23 0 ≤ 0x10500F + bits (h.getD 2 0) 18 0))

/-- The header at `base`. -/
def Chip.header (s : Chip) (base : Nat) : List Nat := s.flashNats base 16

/-- The first item that fails; `last` is the last address of the region, `skip` leaves the body unread. -/
def Chip.imageCheck (s : Chip) (vole skip : Bool) : Nat :=
  let base := if vole then voleBase else imgBase
  let last := if vole then 0x103FFF else 0x17FFFF
  let h := s.header base
  let w0 := h.getD 0 0
  let len := bits (h.getD 2 0) 18 0
  let intr := (s.reg R.FLC_INTR).toNat
  if bitOf intr 35 ∧ base ≤ bits intr 23 0 ∧ bits intr 23 0 ≤ last then 0xAC
  else if w0 = erasedWord.toNat then 0xA8
  else if w0 ≠ (if vole then voleMagic else imgMagic) ∨ !headerOk vole h then 0xA9
  else if !vole ∧ !entriesOk s.cfg.cores h then 0xAB
  else if !skip ∧ crc36 (s.flashNats (base + 16) len) ≠ h.getD 3 0 then 0xAA
  else Rc.OK

/-! ### The boot report (R567) -/

/-- PROFILE of OTP word 63: 2 is the forerunner profile, any other value the Krente profile (R557). -/
def Chip.forerunner (s : Chip) : Bool := bits (s.otpRd 63).toNat 1 0 = 2

def Chip.bootReport (s : Chip) (path outcome : Nat) (setReset voleOk : Bool) (released setver appver : Nat) : Chip :=
  s.wrs 0x10000
    [W (0xB07 <<< 24 ||| (if s.forerunner then 2 else 1) <<< 16 ||| outcome <<< 8 ||| path),
     W (setReset.toNat <<< 35 ||| s.boot.p0low.toNat <<< 34 ||| voleOk.toNat <<< 33 ||| released <<< 30 ||| setver),
     s.boot.intr, W appver, W s.stbLo]

/-- VOLEOK: Vole's check at a cold boot; at a warm boot, which makes none, a free value. -/
def Chip.voleOk (s : Chip) : Bool × Chip :=
  if s.boot.warm then (Config.freeBool s.free, s.draw) else (s.imageCheck true false = Rc.OK, s)

/-! ### Recovery and the dead state (R569, R580, R582) -/

def lcb : Nat := 0x14000

/-- A loader begins to serve: LOADER and LVER, READY, and a DSEQ that the spec does not give.
[DESIGN CHOICE, safe: notes/assumptions/110] -/
def Chip.loaderReady (s : Chip) (who : Nat) : Chip :=
  let dseq := Config.freeNat s.free % 256
  let s1 := (s.draw.wr (lcb + 1) (W (dseq <<< 24 ||| 1 <<< 8))).wr (lcb + 4) (W (who <<< 24 ||| Config.loaderVersion who % 2 ^ 24))
  { s1 with ldr := { s1.ldr with who := if who = 1 then .rom else .vole, job := .idle, lastCmd := s1.now } }

/-- Recovery; `s` has nothing of the stream applied.
[DESIGN CHOICE, unsafe: notes/assumptions/109] [DEDUCED, unsafe: notes/assumptions/113] -/
def Chip.recover (s : Chip) (path outcome crc : Nat) : Chip :=
  let s1 := (s.applyDefaults.ssm 5 Rc.OK 0 0 crc).enterPhase .recover
  let (ok, s2) := s1.voleOk
  let s3 := s2.bootReport path outcome false ok 0 0 0
  let s4 := { s3 with boot := { s3.boot with ph := .idle } }
  let a := bits s4.boot.intr.toNat 23 0
  if bitOf s4.boot.intr.toNat 35 && voleBase ≤ a && a ≤ 0x103FFF && !s4.restrained a 30 then
    ({ s4 with ldr := { s4.ldr with who := .rom, job := .clean } }).flcRequest .loader (sectorBase a) [.sector (sectorBase a) 0]
  else s4.loaderReady 1

/-- The registers that no stream set: the Owl domain's, the flash controller's, Bear's measurements and the
monitor's. -/
def unstreamedReg (a : Nat) : Bool :=
  owlReg a || (R.FLC_CTL ≤ a && a < R.FLC_CTL + 0x1000) || (R.EGY_CTL ≤ a && a ≤ R.EGY_SRC) || (R.MON_CTL ≤ a && a < R.MON_CTL + 0x1000)

/-- Every setting applied from the stream is discarded (R51, R580); a flash operation of the boot goes on. -/
def Chip.dropStream (s : Chip) : Chip :=
  s.fieldStays { s with regs := Cells.keep unstreamedReg s.regs, cfg := {}, icu := {}, evr := {}, tmr := {}, cph := {}, syn := {}, lnk := {},
                        pins := s.pins.restart, stopping := [],
                        bear := { s.bear with grants := s.bear.grants.filter (fun g => g.who = 6), pend := s.bear.pend.filter (fun c => c.who = 6),
                                              resv := List.replicate 64 none } }

/-- The dead state (R582): Fox A waits with IE 0 and stays so. -/
def Chip.die (s : Chip) : Chip :=
  { s.setCore .foxA { s.cores.foxA with run := .wait, st := stSet s.cores.foxA.st St.IE false } with boot := { s.boot with ph := .dead } }

/-- A failed image check (R561, R582).
[DEDUCED, unsafe: notes/assumptions/113] -/
def Chip.bootFail (s : Chip) (outcome : Nat) : Chip :=
  if s.forerunner then s.die
  else s.dropStream.recover 3 outcome (s.reg R.SSM_CRC).toNat

/-! ### Release (R566) -/

/-- The claim of the next core to release, if any is left.
[DEDUCED, unsafe: notes/assumptions/48] -/
def Chip.nextRelease (s : Chip) : Chip :=
  match s.boot.todo with
  | [] => { s with boot := { s.boot with ph := .idle, granted := false } }
  | c :: _ => ({ s with boot := { s.boot with ph := .release, granted := false } }).claimCont c.cid (s.corePower c)

/-- The entry point of a core (R563). -/
def Chip.coreEntry (s : Chip) (c : Core) : BitVec 24 :=
  let w := s.cfg.cores.getD (1 + c.cid) 0
  BitVec.ofNat 24 (if bitOf w 35 then w else (s.flashRd (imgBase + 5 + c.cid)).toNat)

/-- A core whose release claim is granted starts at its entry with the registers of R465; the pins leave
BOOT at the first release. -/
def Chip.coreRelease (s : Chip) (c : Core) : Chip :=
  if s.boot.ph = .release && s.boot.granted && s.boot.todo.head? = some c then
    let s1 := s.setCore c { pc := s.coreEntry c, run := .run }
    let s2 := if s1.pins.phase = .boot then s1.enterPhase .run else s1
    ({ s2 with boot := { s2.boot with todo := s2.boot.todo.drop 1 } }).nextRelease
  else s

/-- Bear's answer to a core's claim: its release, or after a pre-emption its clock (R134, R566).
[DEDUCED, unsafe: notes/assumptions/48] -/
def Chip.coreAnswer (s : Chip) (a : Answer) : Chip :=
  let c := Core.ofCid a.who
  if s.boot.ph = .release && s.boot.todo.head? = some c then
    match a.kind with
    | .defer => s
    | .deny => ({ s with boot := { s.boot with todo := s.boot.todo.drop 1 } }).nextRelease
    | _ => { s with boot := { s.boot with granted := true } }
  else
    match a.kind with
    | .defer => if a.code = Rc.PREEMPTED then s.setCore c { s.core c with clkHeld := true } else s
    | .deny => s
    | _ => s.setCore c { s.core c with clkHeld := false }

/-! ### The settings area and steps 4 to 8 (R557, R558, R568) -/

/-- Word 0 of a settings area of format SETVER. -/
def settingsWord (h : List Nat) : Nat := 0x5E7 <<< 24 ||| bits (h.getD 4 0) 15 0

/-- The operations that reset the settings area: erase, the defaults, word 0 last. -/
def Chip.settingsSteps (s : Chip) (h : List Nat) : List FlStep :=
  let base := bits (h.getD 8 0) 23 0
  let body := imgBase + 16 + bits (h.getD 9 0) 18 0
  (List.range (bits (h.getD 8 0) 29 24)).map (fun i => FlStep.sector (base + 1024 * i) 0)
    ++ (List.range (bits (h.getD 10 0) 15 0)).filterMap (fun i =>
      let v := s.flashRd (body + i)
      if v = erasedWord then none else some (FlStep.prog (base + 1 + i) v))
    ++ [.prog base (W (settingsWord h))]

/-- The ROM resets the settings area, up to the first step that write protection refuses (R528, R568).
[DEDUCED, unsafe: notes/assumptions/183] -/
def Chip.settingsReset (s : Chip) (h : List Nat) : Chip :=
  let steps := s.settingsSteps h
  let may := steps.takeWhile (fun st => !s.restrained st.addr 30)
  ({ s with boot := { s.boot with ph := .settings (if may.length = steps.length then Rc.OK else 0x98) } }).flcRequest .rom
    (bits (h.getD 8 0) 23 0) may

/-- The end of step 7 and step 8: the report, then the first release. -/
def Chip.bootFinish (s : Chip) (setReset : Bool) : Chip :=
  let h := s.header imgBase
  let rel := bits (s.cfg.cores.getD 0 0) 2 0
  let (ok, s1) := s.voleOk
  let s2 := s1.bootReport (if s.boot.warm then 1 else 0) Rc.OK setReset ok rel (bits (h.getD 4 0) 15 0) (h.getD 11 0)
  ({ s2 with boot := { s2.boot with todo := [Core.badger, .foxB, .foxA].filter (fun c => bitOf rel c.cid) } }).nextRelease

/-- Steps 6 to 8; steps 1 to 5 are done, and `low` says that BOOTSEL read low in every sample.
[DESIGN CHOICE, unsafe: notes/assumptions/109] -/
def Chip.bootRun (s : Chip) (warm low : Bool) : Chip :=
  let s1 := { s with pwr := { s.pwr with bootPending := false, bootHeld := false }, boot := { s.boot with ph := .idle, p0low := low, warm := warm } }
  if low && !s1.forerunner then s1.recover 2 Rc.OK 0
  else
    let s2 := s1.applyStream
    let code := s2.imageCheck false (warm && s2.owl.imgok)
    if code ≠ Rc.OK then s2.bootFail code
    else
      let s3 := { s2 with owl := { s2.owl with imgok := true } }
      let h := s3.header imgBase
      let base := bits (h.getD 8 0) 23 0
      if bits (h.getD 8 0) 29 24 ≠ 0 && (s3.flashRd base).toNat ≠ settingsWord h then s3.settingsReset h else s3.bootFinish false

/-- The reset of the settings area ended: a failure ends the boot with recovery. -/
def Chip.settingsEnd (s : Chip) (code : Nat) : Chip :=
  match s.boot.ph with
  | .settings c => if code ≠ Rc.OK then s.bootFail code else if c ≠ Rc.OK then s.bootFail c else s.bootFinish true
  | _ => s

/-- Step 1. -/
def Chip.bootJournals (s : Chip) : Chip :=
  let s1 := s.journalScan
  { s1 with boot := { s1.boot with intr := s1.reg R.FLC_INTR } }

/-- The claim of Fox A at 32 MHz, 2.25 mW. -/
def romPower : Nat := 9

/-- Step 5: three samples of P0, 10 µs apart, of which this is one where it is due (R558). -/
def Chip.bootSample (s : Chip) : Chip :=
  match s.boot.ph with
  | .bootsel t k low =>
    let low := low && !s.inputLevel Mean.BOOTSEL
    if s.now < t then s
    else if 2 ≤ k then s.bootRun false low
    else { s with boot := { s.boot with ph := .bootsel (s.now + us 10) (k + 1) low } }
  | _ => s

/-- Steps 4 and 5 begin: the ROM runs. -/
def Chip.bootSelect (s : Chip) : Chip :=
  ({ s.journalErase with pwr := { s.pwr with bootHeld := false }, boot := { s.boot with ph := .bootsel s.now 0 true } }).bootSample

/-- Step 3 has a measurement: the ROM starts, or waits for the refill, for which Bear measures every 100 ms (R126); a
repeat that R122 or R124 asks for comes first. -/
def Chip.bootSupply (s : Chip) : Chip :=
  if s.bear.valid && romPower ≤ s.refill then s.bootSelect
  else { s with pwr := { s.pwr with bootHeld := true }, bear := { s.bear with retryAt := some (s.bear.retryAt.getD (s.now + msec 100)) } }

/-- The boot sequence after a reset; `m` is the supply measurement of step 3.
[DEDUCED, unsafe: notes/assumptions/47] -/
def Chip.bootSequence (s : Chip) (m : SupplyMeas) : Chip :=
  if s.pwr.bootPending && !s.pwr.bootHeld && s.boot.ph = .idle && s.pwr.st = .run && !s.nfc.harvest then (s.bootJournals.measDone m).bootSupply else s

/-- The measurement is repeated while the ROM is held, from its start to its end, as far as LEVEL allows (R121). -/
def Chip.bootRemeasure (s : Chip) (m : SupplyMeas) : Chip :=
  if s.pwr.bootPending && s.pwr.bootHeld && (s.bear.measuring || s.syncLevel.measLevelOk) then
    ((s.setBear { s.bear with retryAt := none }).measDone m).bootSupply
  else s

/-! ### The warm boot (R110, R125) -/

/-- A granted wake from HIBERNATE: everything but the Owl domain returns to reset, Bear keeps the account
it restored with the wake's own grant and deferral, and the ROM runs from step 1 without a measurement (R110, R140, R141).
[DEDUCED, unsafe: notes/assumptions/22] [DEDUCED, unsafe: notes/assumptions/112] -/
def Chip.hibernateWake (s : Chip) : Chip :=
  if s.pwr.st = .hibernate && s.pwr.wakeGranted then
    let s1 := (s.takeCause 2).syncLevel
    let s2 := s1.clearAllButOwl.restoreSupply
    let s3 := s2.setBear { s2.bear with level := s1.bear.level, levelAt := s1.bear.levelAt, grants := s1.bear.grants,
                                        lastStagger := s1.bear.lastStagger, nextMeas := s2.owl.measAt }
    let s4 := s3.publish 125
    (if s.pwr.wakeDeferred then (s4.setReg R.EGY_WDEF (s.reg R.EGY_WDEF)).occ 21 else s4).bootJournals.journalErase.bootRun true false
  else s

end Sys2Proof.Machine
end

