-- ==== Sys2Proof/Machine/Loader.lean ====
section
/-!
DEFINITION. The loader protocol of the recovery ROM and of Vole, and Vole's start and end (spec/20 R569
to R578, R581).
-/
namespace Sys2Proof.Machine

def lcbBuffer : Nat := 0x14010

/-- Word `i` of the loader control block. -/
def Chip.lcbWord (s : Chip) (i : Nat) : Nat := (s.rd (lcb + i)).toNat

/-- The operation, SEQ and argument of word 0; COUNT and BCRC. -/
def Chip.ldrOp (s : Chip) : Nat := bits (s.lcbWord 0) 35 32
def Chip.ldrSeqOf (s : Chip) : Nat := bits (s.lcbWord 0) 31 24
def Chip.ldrArg (s : Chip) : Nat := bits (s.lcbWord 0) 23 0
def Chip.ldrCount (s : Chip) : Nat := bits (s.lcbWord 2) 12 0

/-- The buffer's first `n` words. -/
def Chip.ldrBuf (s : Chip) (n : Nat) : List Nat := (s.rds lcbBuffer n).map BitVec.toNat

/-- Word 1 with DSEQ, BUSY, READY and REASON. -/
def lcbStatus (dseq : Nat) (busy ready : Bool) (reason : Nat) : Word :=
  W (dseq <<< 24 ||| busy.toNat <<< 9 ||| ready.toNat <<< 8 ||| reason)

def Chip.setLdr (s : Chip) (l : Ldr) : Chip := { s with ldr := l }

/-- The command ends: REASON and DSEQ are written and BUSY clears, in one write (R571).
[DEDUCED, unsafe: notes/assumptions/128] -/
def Chip.ldrDone (s : Chip) (code : Nat) : Chip :=
  (s.wr (lcb + 1) (lcbStatus s.ldr.seq false true code)).setLdr { s.ldr with job := .idle, lastCmd := s.now }

/-- The command ends and BEGIN must be given again (R573, R574).
[DEDUCED, unsafe: notes/assumptions/128] -/
def Chip.ldrAbandon (s : Chip) (code : Nat) : Chip := (s.setLdr { s.ldr with hdr := none }).ldrDone code

/-- A loader waits for a command of operation `op` and finds it, or an operation that is undefined. -/
def Chip.ldrSees (s : Chip) (op : Nat) : Bool :=
  s.ldr.who ≠ .off && s.ldr.job = .idle && s.ldrSeqOf ≠ bits (s.lcbWord 1) 31 24
    && (s.ldrOp = op || s.ldrOp = 0 || 4 < s.ldrOp)

/-- BUSY is set. -/
def Chip.ldrTake (s : Chip) : Chip :=
  let w := s.lcbWord 1
  (s.wr (lcb + 1) (lcbStatus (bits w 31 24) true true (bits w 7 0))).setLdr { s.ldr with seq := s.ldrSeqOf, lastCmd := s.now }

/-- Take a command of operation `op` and run `f` on it; an undefined operation completes with RANGE (R570).
[DESIGN CHOICE, unsafe: notes/assumptions/71] -/
def Chip.ldrServe (s : Chip) (op : Nat) (f : Chip → Chip) : Chip :=
  if s.ldrSees op then
    let s1 := s.ldrTake
    if s1.ldrOp = op then f s1 else s1.ldrDone Rc.RANGE
  else s

/-- The checks of a buffer that must hold between `lo` and `hi` words (R571). -/
def Chip.ldrBufCheck (s : Chip) (lo hi : Nat) : Nat :=
  let n := s.ldrCount
  if n < lo ∨ hi < n then Rc.RANGE
  else if crc36 (s.ldrBuf n) ≠ bits (s.lcbWord 3) 31 0 then 0xAE
  else Rc.OK

/-- The bases of the sectors from `base` to the one that holds `last`. -/
def sectorsTo (base last : Nat) : List Nat := (List.range ((sectorBase last - base) / 1024 + 1)).map (fun i => base + 1024 * i)

/-- Erase sectors in turn, up to the first that is write-protected (R572).
[DESIGN CHOICE, unsafe: notes/assumptions/131] -/
def Chip.ldrErase (s : Chip) (secs : List Nat) (job : Nat → LdrJob) : Chip :=
  let open' := secs.takeWhile (fun a => !s.restrained a 30)
  let code := if open'.length = secs.length then Rc.OK else 0x98
  (s.setLdr { s.ldr with job := job code }).flcRequest .loader (secs.headD 0) (open'.map (fun a => FlStep.sector a 0))

/-- Program words from `a` on; a word of all ones needs no pulse (R512). -/
def progSteps (a : Nat) : List Nat → List FlStep
  | [] => []
  | v :: l => (if W v = erasedWord then [] else [FlStep.prog a (W v)]) ++ progSteps (a + 1) l

/-- The base of the target: the image, or Vole. -/
def Chip.ldrBase (s : Chip) : Nat := if s.ldr.vole then voleBase else imgBase

/-- BEGIN (R572).
[DESIGN CHOICE, unsafe: notes/assumptions/71] -/
def Chip.ldrBegin (s : Chip) : Chip :=
  let code := s.ldrBufCheck 16 16
  let vole := bitOf s.ldrArg 0
  let h := s.ldrBuf 16
  if s.ldrArg / 2 ≠ 0 ∨ (vole ∧ s.ldr.who = .vole) then s.ldrDone Rc.RANGE
  else if code ≠ Rc.OK then s.ldrDone code
  else if (vole ∧ h.headD 0 ≠ voleMagic) ∨ !headerOk vole h then s.ldrAbandon 0xA9
  else
    let s1 := (s.setLdr { s.ldr with hdr := some h, vole := vole }).wr (lcb + 5) 0
    let base := s1.ldrBase
    s1.ldrErase (sectorsTo base (base + 15 + bits (h.getD 2 0) 18 0)) .erase

/-- DATA (R573).
[DEDUCED, unsafe: notes/assumptions/127] -/
def Chip.ldrData (s : Chip) : Chip :=
  let code := s.ldrBufCheck 0 4096
  let n := s.ldrCount
  match s.ldr.hdr with
  | none => s.ldrDone 0xAD
  | some h =>
    let a := s.ldrBase + 16 + s.ldrArg
    if code ≠ Rc.OK then s.ldrDone code
    else if bits (h.getD 2 0) 18 0 < s.ldrArg + n then s.ldrAbandon Rc.RANGE
    else if (List.range n).any (fun i => !s.flashErased (a + i)) then s.ldrAbandon Rc.NOT_ERASED
    else (s.setLdr { s.ldr with job := .data n }).flcRequest .loader a (progSteps a (s.ldrBuf n))

/-- COMMIT (R574).
[DEDUCED, unsafe: notes/assumptions/127] -/
def Chip.ldrCommit (s : Chip) : Chip :=
  match s.ldr.hdr with
  | none => s.ldrDone 0xAD
  | some h =>
    let base := s.ldrBase
    if crc36 (s.flashNats (base + 16) (bits (h.getD 2 0) 18 0)) ≠ h.getD 3 0 then s.ldrAbandon 0xAA
    else
      (s.setLdr { s.ldr with job := .header, hdr := none }).flcRequest .loader base
        (progSteps (base + 1) (h.drop 1) ++ progSteps base (h.take 1))

/-- The stream format versions the loader takes: the ROM 1 and 2, Vole those of its VERSIONS entry (R61). -/
def Chip.ldrVersions (s : Chip) : Nat × Nat := if s.ldr.who = .rom then (1, 2) else s.offer 3

/-- The check of a buffered stream (R575).
[DEDUCED, unsafe: notes/assumptions/129] -/
def Chip.ldrStreamCheck (s : Chip) : Nat :=
  let ws := s.ldrBuf s.ldrCount
  match findStream ws with
  | .sections _ ver _ _ => if ver < s.ldrVersions.1 ∨ s.ldrVersions.2 < ver then Rc.VERSION else Rc.OK
  | _ => Rc.STREAM

/-- STREAM (R575). -/
def Chip.ldrStream (s : Chip) : Chip :=
  let code := s.ldrBufCheck 0 4096
  if code ≠ Rc.OK then s.ldrDone code
  else if s.ldrCount ≠ hdrLength ((s.ldrBuf 1).headD 0) then s.ldrDone Rc.RANGE
  else
    let code := s.ldrStreamCheck
    if code ≠ Rc.OK then s.ldrDone code
    else s.ldrErase (sectorsTo streamBase (streamBase + 4095)) .streamErase

/-- Whether flash from `a` on reads as the buffer. -/
def Chip.ldrReadBack (s : Chip) (a n : Nat) : Bool := s.flashNats a n = s.ldrBuf n

/-- The flash controller has done what the loader waited for.
[DEDUCED, unsafe: notes/assumptions/129] -/
def Chip.ldrFlash (s : Chip) (code : Nat) : Chip :=
  let n := s.ldrCount
  match s.ldr.job with
  | .idle => s
  | .clean => s.loaderReady 1
  | .erase c =>
    if code ≠ Rc.OK then s.ldrAbandon code
    else if c ≠ Rc.OK then s.ldrAbandon c
    else if s.ldr.who = .rom && !s.ldr.vole && s.imageCheck true false ≠ Rc.OK then s.ldrDone 0xAF
    else s.ldrDone Rc.OK
  | .data k =>
    if code ≠ Rc.OK then s.ldrAbandon code
    else if !s.ldrReadBack (s.ldrBase + 16 + s.ldrArg) k then s.ldrAbandon 0xAE
    else (s.wr (lcb + 5) (W (s.lcbWord 5 + k))).ldrDone Rc.OK
  | .header =>
    if code ≠ Rc.OK then s.ldrDone code else (s.setLdr { s.ldr with started := false }).ldrDone Rc.OK
  | .streamErase c =>
    if code ≠ Rc.OK then s.ldrDone code
    else if c ≠ Rc.OK then s.ldrDone c
    else (s.setLdr { s.ldr with job := .streamData }).flcRequest .loader streamBase (progSteps streamBase (s.ldrBuf n))
  | .streamData => s.ldrDone (if code ≠ Rc.OK then code else if s.ldrReadBack streamBase n then Rc.OK else 0xAE)

/-! ### Vole (R576 to R578) -/

/-- Fox A waits with IE 0 until a reset. -/
def Chip.volePark (s : Chip) : Chip :=
  let f := s.cores.foxA
  (s.setCore .foxA { f with run := .wait, st := stSet f.st St.IE false }).setLdr { s.ldr with who := .off, parked := true }

/-- Whether the service port holds a core halted: at a boundary, not within SLOTW. -/
def CoreSt.stopped (c : CoreSt) : Bool :=
  c.halted && match c.run with
    | .slotw _ => false
    | _ => true

/-- Every core that the boot report shows as released, other than Fox A, is halted. -/
def Chip.voleAlone (s : Chip) : Bool :=
  let rel := bits (s.rd 0x10001).toNat 32 30
  [Core.foxB, .badger].all (fun c => !bitOf rel c.cid || (s.core c).stopped)

/-- Fox A runs Vole's copy of `len` words in SRAM: PC lies in it and VBR names vectors in it; of the other registers the spec
gives IE alone, and the rest are free.
[DESIGN CHOICE, safe: notes/assumptions/130] -/
def Chip.voleRuns (s : Chip) (len : Nat) : Chip :=
  let f := s.cores.foxA
  let w (i : Nat) : Word := Config.freeWord (s.free + i)
  let s1 := s.setCore .foxA { f with a := w 0, x := (w 1).setWidth 24, y := (w 2).setWidth 24,
                                     pc := BitVec.ofNat 24 (0x10000 + (w 3).toNat % len),
                                     vbr := BitVec.ofNat 24 (0x10000 + 8 * ((w 4).toNat % (len / 8))), st := stSet (w 5 &&& stMask) St.IE false }
  { s1 with free := s1.free + 6 }

/-- Vole's header and body check good: a unit whose Vole does not is not updated through it (R567, R581). -/
def Chip.voleGood (s : Chip) : Bool := s.imageCheck true false = Rc.OK

/-- Vole starts where Fox A stands at its entry (R576).
[DESIGN CHOICE, safe: notes/assumptions/130] -/
def Chip.voleStart (s : Chip) : Chip :=
  let h := s.header voleBase
  let f := s.cores.foxA
  if f.run ≠ .run || f.halted || f.pc.toNat ≠ bits (h.getD 5 0) 23 0 || s.ldr.who ≠ .off || !s.voleGood then s
  else if !s.voleAlone then
    let d := Config.freeNat s.free % 256
    (s.draw.wr (lcb + 1) (lcbStatus d false false Rc.BUSY)).volePark
  else
    ((s.wrs 0x10000 (s.flashRds (voleBase + 16) (bits (h.getD 2 0) 18 0))).voleRuns (bits (h.getD 2 0) 18 0)).loaderReady 2

/-- Vole is left alone: mid-update it resets the chip through the watchdog, else it waits (R578). -/
def Chip.voleLeft (s : Chip) : Chip :=
  if s.ldr.who ≠ .vole then s
  else if s.ldr.started then s.wdtEnable.wdtKick 0
  else s.volePark

/-- The master has sent no command for 60 s (R578). -/
def Chip.voleIdleTimeout (s : Chip) : Chip :=
  if s.ldr.job = .idle && s.ldr.lastCmd + secs 60 ≤ s.now then s.voleLeft else s

/-- Vole is between two of its flash operations: none runs, or the next has not had its first pulse. -/
def Chip.voleBetween (s : Chip) : Bool := s.flc.op.all (fun o => o.src ≠ .loader || (o.begins && o.pulses = 0 && !s.flc.pulsing))

/-- Between flash operations Vole kicks an enabled watchdog as soon as the closed window has passed (R577). -/
def Chip.voleKick (s : Chip) : Chip :=
  if s.ldr.who = .vole && s.voleBetween && s.bit F.WDT_CTL_EN && s.wdtPeriod * s.fld F.WDT_CFG_WINDOW ≤ 8 * s.tmr.wdt then
    s.wdtKick (W 0xA5C)
  else s

end Sys2Proof.Machine
end

