-- ==== Sys2Proof/Machine/Io.lean ====
section
/-!
DEFINITION. The one address space as every agent sees it (spec/17): which access each region takes, and
reads and writes of the registers, each going to the block whose rules govern it.
-/
namespace Sys2Proof.Machine

/-! ### Regions (R493, R494, R503) -/

def isRom (a : Nat) : Bool := a < 0x8000
def isOtp (a : Nat) : Bool := 0x200000 ≤ a && a < 0x200040
def isMirror (a : Nat) : Bool := 0x400000 ≤ a && a < 0x400400

/-- An assigned peripheral block. -/
def isBlock (a : Nat) : Bool := 0x300000 ≤ a && a < 0x319000

/-- The registers: assigned blocks and the host mirror. -/
def isReg (a : Nat) : Bool := isBlock a || isMirror a

/-- A core data write that does not fault.
[DEDUCED, unsafe: notes/assumptions/140] -/
def mayWriteAt (a : Nat) : Bool := isSram a || isReg a

/-- A core data read that its address does not make fault.
[DEDUCED, unsafe: notes/assumptions/140] -/
def mayReadAt (a : Nat) : Bool := isRom a || isSram a || isFlash a || isOtp a || isReg a

/-- A core fetch that its address does not make fault. -/
def mayFetchAt (a : Nat) : Bool := isRom a || isSram a || (isFlash a && !inSealed a)

/-- The status register of a register's block. -/
def statOf (a : Nat) : Nat := 0x300001 + 0x1000 * blockOf a

/-! ### Registers whose writes follow the general rules (R10, R17, R66, R67) -/

/-- A value that a register's own table refuses with RANGE. -/
def plainRange (a w : Nat) : Bool :=
  if a = R.RFE_CFG then 4 < bits w 14 12
  else if a = R.RFE_AGC then bits w 5 0 < 3 || 30 < bits w 5 0
  else if R.RFE_MASK 0 ≤ a ∧ a < R.RFE_MASK 16 then 2048 < bits w 23 12
  else false

/-- The stored word with the RW bits taken from `v`. -/
def RegRow.merged (r : RegRow) (old v : Nat) : Nat := (v &&& r.rw) ||| (old - (old &&& r.rw))

/-- A checked write of a plain register: the lock, fields settable only while the block is off, the range, and of an enabled
block the check of its EN (R67); REASON takes the outcome.
[DEDUCED, unsafe: notes/assumptions/164] -/
def Chip.plainWrite (s : Chip) (a : Nat) (v : Word) : Chip :=
  match regRow a with
  | none => s
  | some r =>
    let old := (s.reg a).toNat
    let new := r.merged old v.toNat
    let st := statOf a
    if r.smask ≠ 0 && s.lockedSec r.sec then s.setReason st Rc.LOCKED
    else if s.bit ⟨st - 1, 0, 0⟩ && (old ^^^ new) &&& r.off ≠ 0 then s.setReason st Rc.BUSY
    else if plainRange a new then s.setReason st Rc.RANGE
    else
      let code := (s.setReg a (W new)).enabledCode a
      (if code = Rc.OK then s.setReg a (W new) else s).setReason st code

/-- A write of W1C and SET bits, and of RW bits that nothing refuses. -/
def Chip.bitsWrite (s : Chip) (a : Nat) (v : Word) : Chip :=
  match regRow a with
  | none => s
  | some r =>
    let old := r.merged (s.reg a).toNat v.toNat
    let w := old ||| (v.toNat &&& r.set)
    s.setReg a (W (w - (w &&& (v.toNat &&& r.w1c))))

/-! ### Writes, block by block -/

def Chip.writeSsm (s : Chip) (a : Nat) (v : Word) : Chip := if a = R.SSM_LOCK then s.bitsWrite a v else s

def Chip.writeClk (s : Chip) (ag : Agent) (a : Nat) (v : Word) : Chip := if a = R.CLK_FOX then s.clkFoxWrite ag v else s

def Chip.writePin (s : Chip) (ag : Agent) (a : Nat) (v : Word) : Chip :=
  if a = R.PIN_OUT then s.pinOutWrite ag v
  else if a = R.PIN_OUTSET then s.pinSetWrite ag v
  else if a = R.PIN_OUTCLR then s.pinClrWrite ag v
  else if a = R.PIN_OUTTGL then s.pinTglWrite ag v
  else if a = R.PIN_DIR then s.pinDirWrite ag v
  else if a = R.PIN_WAKE then s.bitsWrite a v
  else if R.PIN_MAP 0 ≤ a ∧ a < R.PIN_MAP 24 then s.pinMapWrite ag (a - R.PIN_MAP 0) v
  else s

def Chip.writePmu (s : Chip) (ag : Agent) (a : Nat) (v : Word) : Chip :=
  if a = R.PMU_REQ then s.pmuReqWrite ag v
  else if a = R.PMU_BOD then s.pmuBodWrite v
  else if a = R.PMU_WCLS then s.pmuWclsWrite v
  else if a = R.PMU_CAUSE ∨ (R.PMU_RET 0 ≤ a ∧ a < R.PMU_RET 256) then s.bitsWrite a v
  else s

def Chip.writeEgy (s : Chip) (ag : Agent) (a : Nat) (v : Word) : Chip :=
  if a = R.EGY_CTL then (if bitOf v.toNat 1 then s.measCmd else s)
  else if a = R.EGY_RLIM ∨ a = R.EGY_CLIM ∨ a = R.EGY_CFG then s.egyLimWrite a v
  else if R.EGY_DECL 0 ≤ a ∧ a < R.EGY_DECL 16 then s.egyDecl (a - R.EGY_DECL 0) v
  else if a = R.EGY_SWCLM 13 ∨ a = R.EGY_SWCLM 14 ∨ a = R.EGY_SWCLM 15 then s.egySwclm (13 + (a - R.EGY_SWCLM 13) / 4) v
  else if a = R.EGY_RESS then s.setBear { s.bear with ress := setAt s.bear.ress ag.code v }
  else if a = R.EGY_RESP then s.egyResp ag v
  else if a = R.EGY_RESC then s.egyResc ag v
  else s

def Chip.writeMon (s : Chip) (a : Nat) (v : Word) : Chip :=
  if a = R.MON_CTL then (if bitOf v.toNat 1 then s.replanCmd else s)
  else if a = R.MON_STAT then s.bitsWrite a v
  else s

/-- EN of a radio block: an enable, a disable, or nothing new (R13, R15, R16). -/
def Chip.radioCtl (s : Chip) (b : Block) (v : Word) (en : Chip → Chip) : Chip :=
  if bitOf v.toNat 0 then (if s.bit ⟨blockStat b - 1, 0, 0⟩ then s else en s) else s.radioDisable b

def Chip.writeSyn (s : Chip) (ag : Agent) (a : Nat) (v : Word) : Chip :=
  if (regRow a).isNone then s
  else (if a = R.SYN_CFG then s.ifRadioOpen ag R.SYN_STAT else s.ifRadioOwner ag R.SYN_STAT) fun s =>
    if a = R.SYN_CTL then s.radioCtl .syn v Chip.synEnable
    else if a = R.SYN_CFG then s.plainWrite a v
    else if a = R.SYN_CMD then (if bitOf v.toNat 0 then s.synCal else s)
    else s

def Chip.writeRfe (s : Chip) (ag : Agent) (a : Nat) (v : Word) : Chip :=
  if a = R.RFE_CTL then s.ifRadioOwner ag R.RFE_STAT fun s => s.radioCtl .rfe v Chip.rfeEnable
  else if a = R.RFE_CMD then s.ifRadioOwner ag R.RFE_STAT fun s => if bitOf v.toNat 0 then s.bgCmd else s
  else if R.RFE_PROF_F 0 ≤ a ∧ a < R.RFE_PROF_F 8 then
    (if (a - R.RFE_PROF_F 0) % 2 = 0 then s.profFWrite ag ((a - R.RFE_PROF_F 0) / 2) v else s.profMWrite ag ((a - R.RFE_PROF_F 0) / 2) v)
  else if (regRow a).any (fun r => r.rw ≠ 0) then s.ifRadioOpen ag R.RFE_STAT fun s => s.plainWrite a v
  else if (regRow a).isNone then s
  else s.ifRadioOwner ag R.RFE_STAT fun s => s

def Chip.writeCx (s : Chip) (ag : Agent) (a : Nat) (v : Word) : Chip :=
  if a = R.CX_ARBNXT then s.arbNxtWrite ag v
  else if (regRow a).isNone then s
  else
    (if a = R.CX_CFG then s.ifRadioOpen ag R.CX_STAT else s.ifRadioOwner ag R.CX_STAT) fun s =>
      if a = R.CX_CTL then s.radioCtl .cx v Chip.cxEnable
      else if a = R.CX_CFG then s.plainWrite a v
      else s

def Chip.writeMdm (s : Chip) (ag : Agent) (a : Nat) (v : Word) : Chip :=
  if R.MDM_LS 0 ≤ a ∧ a < R.MDM_LS 8 then s.mdmSetWrite ag 1 (a - R.MDM_LS 0) v
  else if R.MDM_CM 0 ≤ a ∧ a < R.MDM_CM 8 then s.mdmSetWrite ag 2 (a - R.MDM_CM 0) v
  else if R.MDM_FK 0 ≤ a ∧ a < R.MDM_FK 8 then s.mdmSetWrite ag 3 (a - R.MDM_FK 0) v
  else if (regRow a).isNone then s
  else
    s.ifRadioOwner ag R.MDM_STAT fun s =>
      if a = R.MDM_CTL then s.radioCtl .mdm v Chip.mdmEnable
      else if a = R.MDM_LSCFG ∨ a = R.MDM_CMCFG ∨ a = R.MDM_FKCFG then s.plainWrite a v
      else s

def Chip.writeLnk (s : Chip) (ag : Agent) (a : Nat) (v : Word) : Chip :=
  if a = R.LNK_CTL then s.ifLnkOwner ag fun s => if bitOf v.toNat 0 then s.lnkEnable else s.lnkDisable
  else if a = R.LNK_TADJ then s.ifLnkOwner ag fun s => s.tadjWrite v
  else if R.LNK_SF 0 ≤ a ∧ a < R.LNK_SF 8 then s.sfWrite ag (a - R.LNK_SF 0) v
  else if R.LNK_CH 0 ≤ a ∧ a < R.LNK_CH 64 then s.chWrite ag (a - R.LNK_CH 0) v
  else if R.LNK_NBR_0 0 ≤ a ∧ a < R.LNK_NBR_0 64 then s.nbrWrite ag ((a - R.LNK_NBR_0 0) / 2) ((a - R.LNK_NBR_0 0) % 2) v
  else if R.LNK_CELL_0 0 ≤ a ∧ a < R.LNK_CELL_0 1024 then s.cellWrite ag ((a - R.LNK_CELL_0 0) / 2) ((a - R.LNK_CELL_0 0) % 2) v
  else if R.LNK_CLS_T0 0 ≤ a ∧ a < R.LNK_CLS_T0 4 ∧ (a - R.LNK_CLS_T0 0) % 8 = 3 then s.startWrite ag ((a - R.LNK_CLS_T0 0) / 8) v
  else s.lnkRegWrite ag a v

/-- A write of QUE_CFGq: ON set, ON cleared, or its other fields. -/
def Chip.writeQue (s : Chip) (ag : Agent) (a : Nat) (v : Word) : Chip :=
  if R.QUE_RING 0 ≤ a ∧ a < R.QUE_RING 32 then
    let q := (a - R.QUE_RING 0) / 8
    match (a - R.QUE_RING 0) % 8 with
    | 0 => s.queRegWrite ag q a v
    | 1 => s.queRegWrite ag q a v
    | 2 => s.queCfgWrite ag q v
    | 3 => s.queHeadWrite ag q v
    | 4 => s.queTailMove ag q v
    | _ => s
  else s

def Chip.writeCph (s : Chip) (ag : Agent) (rom : Bool) (a : Nat) (v : Word) : Chip :=
  if a = R.CPH_CTL then (if bitOf v.toNat 0 then s.cphEnable ag else s.cphDisable ag)
  else if R.CPH_UCMD 0 ≤ a ∧ a < R.CPH_UCMD 4 then s.cphPageWrite ag ((a - R.CPH_UCMD 0) / 0x100) ((a - R.CPH_UCMD 0) % 0x100) v rom
  else s

def Chip.writeKst (s : Chip) (ag : Agent) (a : Nat) (v : Word) : Chip :=
  if R.KST_ATTR 0 ≤ a ∧ a < R.KST_ATTR 16 then s.kstAttrWrite ag (a - R.KST_ATTR 0) v else s

def Chip.writeNfc (s : Chip) (ag : Agent) (a : Nat) (v : Word) : Chip :=
  if a = R.NFC_CTL then s.nfcCtlWrite ag v
  else if a = R.NFC_CMD then s.nfcCmdWrite ag v
  else s.nfcRegWrite ag a v

def Chip.writeTmr (s : Chip) (ag : Agent) (a : Nat) (v : Word) : Chip :=
  if a = R.TMR_OWN then s.tmrOwnWrite ag v
  else if R.TMRN_CTL 0 ≤ a ∧ a < R.TMRN_CTL 8 then
    let n := (a - R.TMRN_CTL 0) / 16
    match (a - R.TMRN_CTL 0) % 16 with
    | 0 => if bitOf v.toNat 0 || !owns ag (s.timerOwner n) then s.tmrEnable ag n else s
    | 4 => s.tmrCmpWrite ag n 0 v
    | 5 => s.tmrCmpWrite ag n 1 v
    | k => s.tmrRegWrite ag n k v
  else s

def Chip.writeRtc (s : Chip) (a : Nat) (v : Word) : Chip :=
  if a = R.RTC_STAT then s.bitsWrite a v
  else if a = R.RTC_SEC then s.rtcSecWrite v
  else if a = R.RTC_TRIM then s.rtcTrimWrite v
  else if a = R.RTC_ALARM then s.rtcAlarmWrite v
  else if a = R.RTC_CFG then s.rtcCfgWrite v
  else s

def Chip.writeWdt (s : Chip) (ag : Agent) (a : Nat) (v : Word) : Chip :=
  if a = R.WDT_CTL then
    let b := bitOf v.toNat 1
    if ag = .svc then (if bitOf v.toNat 0 then (s.wdtDbgpause ag b).wdtEnable else s.wdtDbgpause ag b)
    else if b || s.bit F.WDT_CTL_DBGPAUSE then s.wdtDbgpause ag b
    else if bitOf v.toNat 0 then s.wdtEnable else s
  else if a = R.WDT_CFG then s.wdtCfgWrite v
  else if a = R.WDT_KICK then s.wdtKick v
  else if a = R.WDT_STAT ∨ a = R.WDT_CAUSE then s.bitsWrite a v
  else s

def Chip.writeIcu (s : Chip) (ag : Agent) (a : Nat) (v : Word) : Chip :=
  if a = R.ICU_SWSET then s.icuSwset v
  else if R.ICU_CLAIM 0 ≤ a ∧ a < R.ICU_CLAIM 4 then
    let t := (a - R.ICU_CLAIM 0) / 4
    match (a - R.ICU_CLAIM 0) % 4 with
    | 1 => s.icuDone ag t (v.toNat % 1024)
    | 2 => s.icuModWrite t v
    | _ => s
  else if R.ICU_SRC 1 ≤ a ∧ a < R.ICU_SRC 96 then s.icuSrcWrite ag (a - R.ICU_SRC 0) v
  else s

def Chip.writeEvr (s : Chip) (ag : Agent) (a : Nat) (v : Word) : Chip :=
  if a = R.EVR_CLEAR then s.evrClearWrite ag v
  else if a = R.EVR_QCFG then s.evrQcfgWrite v
  else if a = R.EVR_SWPUB then s.evrSwpub ag v
  else if R.EVR_CH 0 ≤ a ∧ a < R.EVR_CH 40 then s.evrChWrite ag (a - R.EVR_CH 0) v
  else if R.EVR_TSUB 0 ≤ a ∧ a < R.EVR_TSUB 32 then s.evrTsubWrite ag (a - R.EVR_TSUB 0) v
  else s.bitsWrite a v

def Chip.writeFlc (s : Chip) (ag : Agent) (a : Nat) (v : Word) : Chip :=
  if a = R.FLC_CTL then (if bitOf v.toNat 1 then s.sqEnable else s.sqDisable)
  else if a = R.FLC_CMD then s.flcCmd ag v
  else if a = R.FLC_PWD0 then s.pwd0Write ag v
  else if a = R.FLC_PWD1 then s.pwd1Write ag v
  else if a = R.FLC_SQCFG then
    (let new := v.toNat &&& 0x3FF3F
     if s.bit F.FLC_CTL_SQEN then (if W new = s.reg a then s else s.flcReason Rc.BUSY) else (s.setReg a (W new)).flcReason Rc.OK)
  else s.bitsWrite a v

/-- A write of OTP_ADDR or OTP_DATA while OTP_STAT.BUSY is 1 is refused with BUSY.
[DEDUCED, unsafe: notes/assumptions/141] -/
def Chip.writeOtp (s : Chip) (a : Nat) (v : Word) : Chip :=
  if a = R.OTP_CMD then (if bitOf v.toNat 0 then s.otpProg else s)
  else if s.bit F.OTP_STAT_BUSY && (regRow a).isSome then s.otpReason Rc.BUSY
  else s.bitsWrite a v

def Chip.writeHp (s : Chip) (a : Nat) (v : Word) : Chip :=
  if a = R.HP_CTL then (if bitOf v.toNat 0 then (if s.bit F.HP_CTL_EN then s else s.hpEnable) else s.hpDisable) else s

/-- A write of HP_DBELL: the host sets bits, and source 80 occurs; the cores clear them (R547). -/
def Chip.dbellWrite (s : Chip) (ag : Agent) (v : Word) : Chip :=
  let old := s.reg R.HP_DBELL
  if ag = .host then
    let s1 := s.setReg R.HP_DBELL (old ||| v)
    if v = 0 then s1 else s1.occ 80
  else s.setReg R.HP_DBELL (old &&& ~~~ v)

/-- A mirror word: the fetch buffer and the mailbox are stored words (R546). -/
def Chip.writeMirror (s : Chip) (ag : Agent) (a : Nat) (v : Word) : Chip :=
  if a = R.HP_HSTAT then (if ag = .host then s.setReg a (s.reg a &&& ~~~ (v &&& 0x30300#36)) else s)
  else if a = R.HP_DBELL then s.dbellWrite ag v
  else if a = 0x400004 then s.icuDone ag 3 (v.toNat % 1024)
  else if 0x400200 ≤ a ∧ a < 0x400400 then { s with mirror := Cells.set zeroWord s.mirror a v }
  else s

/-- A write by an agent to a register; `rom` says that the writing instruction was fetched from ROM.
[DESIGN CHOICE, unsafe: notes/assumptions/12] -/
def Chip.ioWrite (s : Chip) (ag : Agent) (rom : Bool) (a : Nat) (v : Word) : Chip :=
  match blockOf a with
  | 0 => s.writeSsm a v | 1 => s.writeClk ag a v | 2 => s.writePin ag a v | 3 => s.writePmu ag a v
  | 4 => s.writeEgy ag a v | 5 => s.writeMon a v | 6 => s.writeSyn ag a v | 7 => s.writeRfe ag a v
  | 8 => s.writeCx ag a v | 9 => s.writeMdm ag a v | 10 => s.writeLnk ag a v | 11 => s.writeQue ag a v
  | 12 => s.writeCph ag rom a v | 13 => s.writeKst ag a v | 14 => s.writeNfc ag a v | 16 => s.writeTmr ag a v
  | 17 => s.writeRtc a v | 18 => s.writeWdt ag a v | 19 => s.writeIcu ag a v | 20 => s.writeEvr ag a v
  | 21 => s.writeFlc ag a v | 22 => s.writeOtp a v | 23 => s.writeHp a v | 0x100 => s.writeMirror ag a v
  | _ => s

/-! ### Views -/

/-- EGY_STAT with the warning hold, MEASURING and VALID as they stand. -/
def Chip.egyStatView (s : Chip) : Word :=
  F.EGY_STAT_VALID.put (F.EGY_STAT_MEASURING.put (F.EGY_STAT_WARNHOLD.put (s.reg R.EGY_STAT) s.warnHold.toNat) s.bear.measuring.toNat)
    s.bear.valid.toNat

/-- EGY_LEVEL: LEVEL in whole microjoules, KEPT(now) rounded up (R117, R138). -/
def Chip.egyLevelView (s : Chip) : Word :=
  let s1 := s.syncLevel
  let kept := (s1.acct s1.bear.grants s1.bear.resv).kept s1.now
  W ((min ((kept + 127999) / 128000) (2 ^ 18 - 1)) <<< 18 ||| s1.bear.level / 128000)

/-- EGY_CLAIMS: pending claims and held grants. -/
def Chip.egyClaimsView (s : Chip) : Word :=
  W ((List.range 16).foldl (fun acc n => putBit (putBit acc n (s.holds n)) (16 + n) (s.claimOf n).isSome) 0)

/-- A word of reservation entry `i` (R136). -/
def Chip.resvWord (s : Chip) (i k : Nat) : Word :=
  match s.bear.resv.getD i none with
  | none => 0
  | some b =>
    if k = 0 then W (b.start % 2 ^ 36)
    else W (2 ^ 35 + (b.who <<< 31 ||| b.ms.toNat <<< 30 ||| (b.power % 2048) <<< 19 ||| b.count % 2 ^ 19))

/-- ICU_PENDk. -/
def Chip.icuPendView (s : Chip) (k : Nat) : Word :=
  W ((List.range 36).foldl (fun acc i =>
    let n := 36 * k + i
    putBit acc i (1 ≤ n && n ≤ 95 && s.fld (F.ICU_SRC_STATE n) = 1)) 0)

/-- ICU_TSTATt: the line, whether the core waits, the record. -/
def Chip.icuTstatView (s : Chip) (t : Nat) : Word :=
  W ((s.line t).toNat <<< 17 ||| (s.targetWaiting t).toNat <<< 16 ||| s.icu.record.getD t 0)

/-- HP_ID and HP_HSTAT as they read. -/
def Chip.hpIdView (s : Chip) : Word := F.HP_ID_VER.put (s.reg R.HP_ID) (s.fld F.HP_STAT_VER)
def Chip.hstatView (s : Chip) : Word :=
  F.HP_HSTAT_FBUSY.put (F.HP_HSTAT_POSTCNT.put (s.reg R.HP_HSTAT) s.hp.posts.length) s.hp.fetch.isSome.toNat

/-- SVC_STAT with HALTED. -/
def Chip.svcStatView (s : Chip) : Word :=
  F.SVC_STAT_HALTED.put (s.reg R.SVC_STAT) (allCores.foldl (fun acc c => putBit acc c.cid (s.core c).stopped) 0)

/-! ### Reads, block by block: the value, and what the read changes -/

/-- A read of a register with no rule of its own: RC bits clear. -/
def Chip.plainRead (s : Chip) (a : Nat) : Word × Chip :=
  match regRow a with
  | none => (0, s)
  | some r => if r.rc = 0 then (s.reg a, s) else s.readClear a r.rc

def Chip.readPin (s : Chip) (a : Nat) : Word × Chip :=
  if a = R.PIN_STAT then (s.pinStatView, s)
  else if a = R.PIN_IN then (s.pinInView, s)
  else if a = R.PIN_OUTSET ∨ a = R.PIN_OUTCLR then (s.reg R.PIN_OUT, s)
  else s.plainRead a

def Chip.readPmu (s : Chip) (a : Nat) : Word × Chip :=
  if a = R.PMU_STAT then s.pmuStatRead
  else if a = R.PMU_HOLD then (s.holdView, s)
  else s.plainRead a

def Chip.readEgy (s : Chip) (ag : Agent) (a : Nat) : Word × Chip :=
  if a = R.EGY_STAT then (s.egyStatView, s)
  else if a = R.EGY_LEVEL then (s.egyLevelView, s)
  else if a = R.EGY_CLAIMS then (s.egyClaimsView, s)
  else if a = R.EGY_RESS then (s.bear.ress.getD ag.code 0, s)
  else if a = R.EGY_RESP then (s.bear.resp.getD ag.code 0, s)
  else if a = R.EGY_RESST then s.egyResst ag
  else if R.EGY_RES0 0 ≤ a ∧ a < R.EGY_RES0 64 then (s.resvWord ((a - R.EGY_RES0 0) / 2) ((a - R.EGY_RES0 0) % 2), s)
  else s.plainRead a

def Chip.readLnk (s : Chip) (a : Nat) : Word × Chip :=
  if a = R.LNK_NEXT then (s.lnkNextView, s)
  else if R.LNK_CLS_T0 0 ≤ a ∧ a < R.LNK_CLS_T0 4 then
    match (a - R.LNK_CLS_T0 0) % 8 with
    | 4 => (s.asnHiView ((a - R.LNK_CLS_T0 0) / 8), s)
    | 5 => s.asnLoRead ((a - R.LNK_CLS_T0 0) / 8)
    | _ => s.plainRead a
  else s.plainRead a

def Chip.readQue (s : Chip) (a : Nat) : Word × Chip :=
  if R.QUE_RING 0 ≤ a ∧ a < R.QUE_RING 32 ∧ (a - R.QUE_RING 0) % 8 = 5 then s.qstatRead ((a - R.QUE_RING 0) / 8) else s.plainRead a

def Chip.readCph (s : Chip) (ag : Agent) (a : Nat) : Word × Chip :=
  if R.CPH_UCMD 0 ≤ a ∧ a < R.CPH_UCMD 4 then
    if ownsPage ag ((a - R.CPH_UCMD 0) / 0x100) then s.plainRead a else (0, s.pageForeign)
  else if a = R.CPH_STAT then s.cphStatRead
  else s.plainRead a

def Chip.readStb (s : Chip) (a : Nat) : Word × Chip :=
  if a = R.STB_LO then (W s.stbLo, s)
  else if a = R.STB_HI then (W (s.owl.stb / 2 ^ 36), s)
  else if a = R.STB_FINE then (s.stbFineView, s)
  else s.plainRead a

def Chip.readTmr (s : Chip) (a : Nat) : Word × Chip :=
  if R.TMRN_CTL 0 ≤ a ∧ a < R.TMRN_CTL 8 then
    let n := (a - R.TMRN_CTL 0) / 16
    match (a - R.TMRN_CTL 0) % 16 with
    | 6 => s.caprRead n
    | 7 => s.capfRead n
    | 0xB => (W (bits s.pins.latch.tmrOut (2 * n + 1) (2 * n)), s)
    | _ => s.plainRead a
  else s.plainRead a

def Chip.readRtc (s : Chip) (ag : Agent) (a : Nat) : Word × Chip :=
  if a = R.RTC_SUB then s.rtcSubRead ag
  else if a = R.RTC_SEC then s.rtcSecRead ag
  else s.plainRead a

def Chip.readIcu (s : Chip) (ag : Agent) (a : Nat) : Word × Chip :=
  if R.ICU_PEND 0 ≤ a ∧ a < R.ICU_PEND 3 then (s.icuPendView (a - R.ICU_PEND 0), s)
  else if R.ICU_CLAIM 0 ≤ a ∧ a < R.ICU_CLAIM 4 then
    let t := (a - R.ICU_CLAIM 0) / 4
    match (a - R.ICU_CLAIM 0) % 4 with
    | 0 => let (n, s1) := s.icuClaimRead ag t; (W n, s1)
    | 3 => (s.icuTstatView t, s)
    | _ => s.plainRead a
  else s.plainRead a

def Chip.readEvr (s : Chip) (ag : Agent) (a : Nat) : Word × Chip :=
  if a = R.EVR_FLAG0 then (s.evrFlagView ag 0 36 (s.reg a), s)
  else if a = R.EVR_FLAG1 then (s.evrFlagView ag 36 4 (s.reg a), s)
  else s.plainRead a

def Chip.readFlc (s : Chip) (a : Nat) : Word × Chip :=
  if a = R.FLC_STAT then (s.flcStatView, s)
  else if a = R.FLC_SQSTAT then (s.sqStatView, s)
  else if a = R.FLC_SQWEAR then (s.sqWearView, s)
  else if R.FLC_SQMAP 0 ≤ a ∧ a < R.FLC_SQMAP 60 then (s.sqMapView (a - R.FLC_SQMAP 0), s)
  else s.plainRead a

def Chip.readMirror (s : Chip) (ag : Agent) (a : Nat) : Word × Chip :=
  if a = R.HP_ID then (s.hpIdView, s)
  else if a = R.HP_HSTAT then (s.hstatView, s)
  else if a = 0x400003 then (let (n, s1) := s.icuClaimRead ag 3; (W n, s1))
  else if 0x400100 ≤ a then (Cells.get zeroWord s.mirror a, s)
  else s.plainRead a

/-- A read by an agent of a register.
[DESIGN CHOICE, unsafe: notes/assumptions/12] -/
def Chip.ioRead (s : Chip) (ag : Agent) (a : Nat) : Word × Chip :=
  match blockOf a with
  | 1 => if a = R.CLK_RUN then (s.clkRunView ag, s) else s.plainRead a
  | 2 => s.readPin a | 3 => s.readPmu a | 4 => s.readEgy ag a
  | 8 => if a = R.CX_STAT then (s.cxStatView, s) else s.plainRead a
  | 10 => s.readLnk a | 11 => s.readQue a | 12 => s.readCph ag a
  | 13 => if a = R.KST_SEAL then (s.kstSealView, s) else s.plainRead a
  | 15 => s.readStb a | 16 => s.readTmr a | 17 => s.readRtc ag a
  | 18 => if a = R.WDT_STAT then (s.wdtStatView, s) else if a = R.WDT_COUNT then (s.wdtCountView, s) else s.plainRead a
  | 19 => s.readIcu ag a | 20 => s.readEvr ag a | 21 => s.readFlc a
  | 24 => if a = R.SVC_STAT then (s.svcStatView, s) else s.plainRead a
  | 0x100 => s.readMirror ag a
  | _ => s.plainRead a

/-! ### Reads of memory (R494, R496, R500, R507, R515, R528) -/

/-- Why a core traps on an access. -/
inductive MemFault where
  | bus | ecc
deriving DecidableEq, Repr

/-- The agent is a core, whose faulting reads trap; the ports get 0 instead (R528). -/
def isCoreAgent : Agent → Bool
  | .foxA => true | .foxB => true | .badger => true | _ => false

/-- An SRAM word holds an uncorrectable error (R497), or may, where nothing has written it since its bank lost power (R496).
A single-bit error is corrected and written back, with nothing that shows it.
[DESIGN CHOICE, unsafe: notes/assumptions/179] -/
def Chip.sramBad (s : Chip) (a : Nat) : Bool :=
  s.sramErr.contains a || (Cells.find a s.sram).isNone && Config.sramUndefTraps (s.sramLost.getD (bankOf a) 0) a

/-- A read of flash word `a` corrects a single-bit error, which FLC_ECC counts (R507). -/
def Chip.flashCorrect (s : Chip) (a : Nat) : Chip :=
  if s.flashOneAt a then (s.count F.FLC_ECC_CORR).setFld ⟨R.FLC_ECC, 23, 0⟩ a else s

/-- The free values of an undefined flash word are drawn afresh at each read. -/
def Chip.flashDraw (s : Chip) (a : Nat) : Chip := if s.flashUndefAt a then s.draw else s

/-- A data read of flash; `rom` says that the reading instruction was fetched from ROM.
[DESIGN CHOICE, unsafe: notes/assumptions/179] -/
def Chip.flashRead (s : Chip) (ag : Agent) (rom : Bool) (a : Nat) : Except MemFault Word × Chip :=
  if inSealed a then (.ok 0, s.setReason R.KST_STAT Rc.SECURITY)
  else if s.restrained a 31 && !(ag = .foxA && rom) then
    if isCoreAgent ag then (.error .bus, s) else (.ok 0, s.flcReason 0x98)
  else if s.bankBusy a then (.ok s.busyWord, s.setBit F.FLC_STAT_BUSYRD true)
  else if s.flashErrAt a then
    if isCoreAgent ag then (.error .ecc, s.flashDraw a)
    else (.ok (s.flashRd a), ((s.setBit F.FLC_ECC_UNCORR true).setFld ⟨R.FLC_ECC, 23, 0⟩ a).flashDraw a)
  else (.ok (s.flashRd a), (s.flashCorrect a).flashDraw a)

/-- A data read at any address.
[DESIGN CHOICE, safe: notes/assumptions/7] -/
def Chip.memRead (s : Chip) (ag : Agent) (rom : Bool) (a : Nat) : Except MemFault Word × Chip :=
  if isRom a then (.ok (Config.rom a), s)
  else if isSram a then (if isCoreAgent ag && s.sramBad a then (.error .ecc, s) else (.ok (s.rd a), s))
  else if isFlash a then s.flashRead ag rom a
  else if isOtp a then (.ok (if 0x200008 ≤ a && a ≤ 0x200027 then 0 else s.otpRd (a - 0x200000)), s)
  else if isReg a then (let (w, s1) := s.ioRead ag a; (.ok w, s1))
  else (.error .bus, s)

/-- A data write at an address that takes one. -/
def Chip.memWrite (s : Chip) (ag : Agent) (rom : Bool) (a : Nat) (v : Word) : Chip :=
  if isSram a then s.wr a v else s.ioWrite ag rom a v

end Sys2Proof.Machine
end

