-- ==== Sys2Proof/Machine/Operands.lean ====
section
/-!
DEFINITION. What every J36 instruction shares (spec/15, spec/16): fetch, operand forms, accesses and their
waits, the stack, the multiplier's pipeline, traps and interrupts.
-/
namespace Sys2Proof

/-- The instruction accepts the mode, and IXS is used in modes 2 and 3 only. -/
def Opnd.inModes (o : Opnd) (l : List Nat) : Bool :=
  l.contains o.mode.toNat && (!o.ixs || o.mode.toNat = 2 || o.mode.toNat = 3)

/-- The fields of an instruction that takes no operand. -/
def Opnd.isNone (o : Opnd) : Bool := o.mode = 0 && !o.ixs && o.opd = 0

def Opnd.idx (o : Opnd) (x : Machine.CoreSt) : BitVec 24 := if o.ixs then x.y else x.x

/-- Special register OPD[5:0]; OPD[23:6] is unused and must be 0 (R469).
[DEDUCED, unsafe: notes/assumptions/132] -/
def Opnd.specialNo (o : Opnd) : Nat := if o.opd.toNat < 64 then o.opd.toNat else 64

end Sys2Proof

namespace Sys2Proof.Machine

/-- A trap: its vector, its cause, TADDR, whether a data access raised it, and whether the next
instruction's address is saved (R455). -/
structure Trap where
  vec : Nat
  cause : Nat
  addr : BitVec 24
  data : Bool := false
  next : Bool := false
deriving DecidableEq, Repr

/-- What an access or an instruction comes to: a value, a trap, or a wait for what the chip has in hand (R533). -/
inductive Acc (α : Type) where
  | ok (v : α) (s : Chip)
  | trap (t : Trap) (s : Chip)
  | wait

/-- Go on with the value. -/
def Acc.andThen {α β : Type} (x : Acc α) (f : α → Chip → Acc β) : Acc β :=
  match x with
  | .ok v s => f v s
  | .trap t s => .trap t s
  | .wait => .wait

def illegalAt (pc : BitVec 24) : Trap := { vec := 1, cause := 0xB0, addr := pc }

/-! ### The core's clock -/

/-- A core that executes: released, not waiting, halted or stalled, and with its clock. -/
def CoreSt.runs (x : CoreSt) : Bool := x.run = .run && !x.halted && !x.clkHeld

/-- Whether core `c` executes instructions. -/
def Chip.coreRuns (s : Chip) (c : Core) : Bool := (s.core c).runs && !s.stalled c && s.coreRate c ≠ 0

/-- The rate of core `c` now, in MHz: HF-REF's until the PLL locks (R102). -/
def Chip.rateNow (s : Chip) (c : Core) : Nat := if s.clk.foxOnHf && foxPll (s.foxCode c) then 32 else s.coreRate c

/-- The rate of FLASH, in MHz (R22). -/
def Chip.flashRate (s : Chip) : Nat := if s.clk.pllOn then 24 else 16

/-- `n` cycles pass on core `c`.
[DEDUCED, unsafe: notes/assumptions/133] -/
def Chip.addCyc (s : Chip) (c : Core) (n : Nat) : Chip := s.setCore c { s.core c with cyc := (s.core c).cyc + n }

/-- An access by `ag` to the SRAM word at `a` takes its bank: whether another agent has taken it in the same cycle (R472).
[DESIGN CHOICE, unsafe: notes/assumptions/200] -/
def Chip.bankTake (s : Chip) (ag : Agent) (a : Nat) : Bool × Chip :=
  if !isSram a then (false, s)
  else
    let use := if s.busAt = s.now then s.busUse else []
    (use.any (fun p => p.1 ≠ ag && p.2 = bankOf a),
     { s with busAt := s.now, busUse := if use.contains (ag, bankOf a) then use else (ag, bankOf a) :: use })

/-- The wait of a data access or fetch at `a`, but for a bank conflict (R472). -/
def Chip.waitOf (s : Chip) (c : Core) (a : Nat) : Nat :=
  if isFlash a || isOtp a then ceilDiv (s.rateNow c) s.flashRate
  else if isReg a then ceilDiv (2 * s.rateNow c) s.fabricRate
  else 0

/-- A read and a write of a port: its access takes the bank, which a core then meets (R472, R498). -/
def Chip.portRead (s : Chip) (ag : Agent) (a : Nat) : Except MemFault Word × Chip := (s.bankTake ag a).2.memRead ag false a
def Chip.portWrite (s : Chip) (ag : Agent) (a : Nat) (v : Word) : Chip := (s.bankTake ag a).2.memWrite ag false a v

/-- An access of core `c` at `a` takes its wait: a conflict in an SRAM bank adds one FABRIC cycle, in whole core cycles. -/
def Chip.access (s : Chip) (c : Core) (a : Nat) : Chip :=
  let t := s.bankTake c.agent a
  t.2.addCyc c (s.waitOf c a + if t.1 then ceilDiv (s.rateNow c) s.fabricRate else 0)

/-! ### The multiplier (R449 to R452) -/

/-- The 72 bits of MHI:MLO after a product is written. -/
def Flight.result (f : Flight) (acc : Nat) : Nat :=
  match f.kind with
  | .signed => mulSigned f.a f.m
  | .unsigned => mulUnsigned f.a f.m
  | .mac => (acc + mulSigned f.a f.m) % 2 ^ 72

/-- A product is written to MHI and MLO. -/
def CoreSt.land (x : CoreSt) (f : Flight) : CoreSt :=
  let v := f.result (accOf x.mhi x.mlo)
  { x with mhi := accHi v, mlo := accLo v }

/-- Write every product that can be read in the present cycle: one issued in cycle i, from cycle i + 3. -/
def CoreSt.landDue (x : CoreSt) : CoreSt :=
  x.flight.foldl (fun y f => if f.cycle + 3 ≤ x.cyc then y.land f else { y with flight := y.flight ++ [f] }) { x with flight := [] }

/-- Wait until every product issued has been written (R452). -/
def CoreSt.landAll (x : CoreSt) : CoreSt :=
  let t := x.flight.foldl (fun t f => max t (f.cycle + 3)) x.cyc
  x.flight.foldl CoreSt.land { x with flight := [], cyc := t }

/-- Issue a product.
[DEDUCED, unsafe: notes/assumptions/133] -/
def CoreSt.issue (x : CoreSt) (k : MulKind) (m : Word) : CoreSt :=
  { x with flight := x.flight ++ [{ cycle := x.cyc, kind := k, a := x.a, m := m }], lastMul := some x.cyc }

/-! ### Special registers (R442) -/

/-- Special register `n` as it reads in the present cycle; none where it is not one. -/
def CoreSt.special (x : CoreSt) (c : Core) (n : Nat) : Option Word :=
  match n with
  | 0 => some x.st
  | 1 => some (x.sp.setWidth 36)
  | 2 => some x.landDue.mhi
  | 3 => some x.landDue.mlo
  | 4 => some (x.crcp.setWidth 36)
  | 5 => some (x.vbr.setWidth 36)
  | 6 => some (x.tcause.setWidth 36)
  | 7 => some (x.taddr.setWidth 36)
  | 8 => some (W c.cid)
  | 9 => some (W x.cyc)
  | _ => none

/-- Special register `n` written; none where it is read-only or not one.  A product still in flight
overwrites MHI and MLO later (R451). -/
def CoreSt.putSpecial (x : CoreSt) (n : Nat) (v : Word) : Option CoreSt :=
  match n with
  | 0 => some { x with st := v &&& stMask }
  | 1 => some { x with sp := v.setWidth 24 }
  | 2 => some { x.landDue with mhi := v }
  | 3 => some { x.landDue with mlo := v }
  | 4 => some { x with crcp := v.setWidth 8 }
  | 5 => some { x with vbr := (v &&& 0xFFFFF8#36).setWidth 24 }
  | 6 => some { x with tcause := v.setWidth 9 }
  | 7 => some { x with taddr := v.setWidth 24 }
  | _ => none

/-! ### The write buffer of a Fox core (R36, R472) -/

/-- The oldest buffered write becomes visible. -/
def Chip.drainOne (s : Chip) (c : Core) : Chip :=
  match (s.core c).wbuf with
  | [] => s
  | (a, v) :: l => ((s.setCore c { s.core c with wbuf := l }).bankTake c.agent a).2.wr a v

/-- A wait of a length that the spec does not fix.
[DESIGN CHOICE, safe: notes/assumptions/134] -/
def Chip.waitFree (s : Chip) (c : Core) : Chip := s.draw.addCyc c (Config.freeNat s.free)

/-- Every buffered write becomes visible, the core waiting for it.
[DESIGN CHOICE, safe: notes/assumptions/134] -/
def Chip.drainAll (s : Chip) (c : Core) : Chip :=
  if (s.core c).wbuf.isEmpty then s
  else ((List.range (s.core c).wbuf.length).foldl (fun s _ => s.drainOne c) s).waitFree c

/-- A memory-path write: Badger's is performed, a Fox core's joins its buffer of four. -/
def Chip.memPath (s : Chip) (c : Core) (a : Nat) (v : Word) : Chip :=
  if c = .badger then (s.access c a).wr a v
  else
    let s1 := if 4 ≤ (s.core c).wbuf.length then (s.drainOne c).waitFree c else s
    s1.setCore c { s1.core c with wbuf := (s1.core c).wbuf ++ [(a, v)] }

/-- The value that the core's own buffer holds for an address, the newest first. -/
def CoreSt.buffered (x : CoreSt) (a : Nat) : Option Word := (x.wbuf.reverse.find? (fun e => e.1 = a)).map Prod.snd

/-! ### Data accesses (R494, R472) -/

/-- A data read.  One of OTP waits for the end of its programming (R533). -/
def Chip.coreRead (s : Chip) (c : Core) (a : BitVec 24) : Acc Word :=
  let n := a.toNat
  match (s.core c).buffered n with
  | some v => .ok v s
  | none =>
    if isOtp n && s.flc.otp.isSome then .wait
    else match (s.access c n).memRead c.agent (s.core c).fromRom n with
    | (.ok v, s1) => .ok v s1
    | (.error .bus, _) => .trap { vec := 3, cause := 0xB2, addr := a, data := true } s
    | (.error .ecc, s1) => .trap { vec := 5, cause := 0xB4, addr := a, data := true } s1

/-- A data write: the address decides a fault before anything is written.  One of a register also waits for the crossing
handshake (R25) and for the check that it starts (R13), whose lengths the spec does not give.
[DESIGN CHOICE, safe: notes/assumptions/134] -/
def Chip.coreWrite (s : Chip) (c : Core) (a : BitVec 24) (v : Word) : Acc Unit :=
  let n := a.toNat
  if !mayWriteAt n then .trap { vec := 3, cause := 0xB2, addr := a, data := true } s
  else if isSram n then .ok () (s.memPath c n v)
  else .ok () (((s.access c n).waitFree c).ioWrite c.agent (s.core c).fromRom n v)

/-- An access by a stack instruction, SP standing at `sp` before it (R454). -/
def Chip.stackOk (a sp : BitVec 24) (k : Acc α) (s : Chip) : Acc α :=
  if isSram a.toNat then k else .trap { vec := 4, cause := 0xB3, addr := sp, data := true } s

/-- Push a word. -/
def Chip.push (s : Chip) (c : Core) (v : Word) : Acc Unit :=
  let sp := (s.core c).sp
  Chip.stackOk (sp - 1) sp (.ok () ((s.memPath c (sp - 1).toNat v).setCore c { (s.memPath c (sp - 1).toNat v).core c with sp := sp - 1 })) s

/-- The word at stack address `sp`. -/
def Chip.stackRead (s : Chip) (c : Core) (sp : BitVec 24) : Acc Word := Chip.stackOk sp sp (s.coreRead c sp) s

/-! ### Operand forms (R453, R470) -/

/-- The effective address. -/
def Chip.effAddr (s : Chip) (c : Core) (o : Opnd) : Acc (BitVec 24) :=
  match o.mode.toNat with
  | 2 => .ok (o.opd + o.idx (s.core c)) s
  | 3 => .ok (o.idx (s.core c)) s
  | 4 => (s.coreRead c o.opd).andThen fun w s => .ok (w.setWidth 24) s
  | _ => .ok o.opd s

/-- The index register gains the operand, in mode 3. -/
def Chip.postInc (s : Chip) (c : Core) (o : Opnd) : Chip :=
  let x := s.core c
  if o.mode ≠ 3 then s
  else if o.ixs then s.setCore c { x with y := x.y + o.opd }
  else s.setCore c { x with x := x.x + o.opd }

/-- M.
[DEDUCED, unsafe: notes/assumptions/132] -/
def Chip.readM (s : Chip) (c : Core) (o : Opnd) : Acc Word :=
  match o.mode.toNat with
  | 0 => .ok (o.opd.signExtend 36) s
  | 5 =>
    match (s.core c).special c o.specialNo with
    | some v => .ok v s
    | none => .trap (illegalAt (s.core c).pc) s
  | _ => (s.effAddr c o).andThen fun a s => s.coreRead c a

/-- M written. -/
def Chip.writeM (s : Chip) (c : Core) (o : Opnd) (v : Word) : Acc Unit :=
  if o.mode = 5 then
    match (s.core c).putSpecial o.specialNo v with
    | some x => .ok () (s.setCore c x)
    | none => .trap (illegalAt (s.core c).pc) s
  else (s.effAddr c o).andThen fun a s => s.coreWrite c a v

/-- The target of a branch (R483). -/
def Chip.target (s : Chip) (c : Core) (o : Opnd) : Acc (BitVec 24) :=
  match o.mode.toNat with
  | 0 => .ok ((s.core c).pc + 1 + o.opd) s
  | _ => s.effAddr c o

/-! ### Traps and interrupts (R455 to R458, R466) -/

/-- Lockup, with DATA and TADDR of the trap that led to it. -/
def Chip.lockup (s : Chip) (c : Core) (data : Bool) (addr : BitVec 24) : Chip :=
  s.setCore c { s.core c with tcause := BitVec.ofNat 9 (data.toNat * 256 + 0xB6), taddr := addr, run := .lockup }

/-- Push two words for an entry, from SP as it stands; a fault of either leads to lockup.
[DEDUCED, unsafe: notes/assumptions/137] -/
def Chip.pushFrame (s : Chip) (c : Core) (st pc : Word) : Bool × Chip :=
  match s.push c st with
  | .trap t s1 => (false, s1.lockup c t.data t.addr)
  | .wait => (false, s)
  | .ok _ s1 =>
    match s1.push c pc with
    | .trap t s2 => (false, s2.lockup c t.data t.addr)
    | .wait => (false, s)
    | .ok _ s2 => (true, s2)

/-- The reset vector table lies in ROM, and each of its vectors enters lockup; vector 0 writes LOCKUP. -/
def CoreSt.romVector (x : CoreSt) (vec : Nat) : CoreSt :=
  if x.vbr ≠ 0x000040#24 then x
  else { x with run := .lockup, tcause := if vec = 0 then 0xB6#9 else x.tcause }

/-- Entry at vector `vec` with `pc` saved: R456.
[DEDUCED, unsafe: notes/assumptions/137] -/
def Chip.enterVector (s : Chip) (c : Core) (vec : Nat) (pc : BitVec 24) (t : Option Trap) : Chip :=
  let s1 := s.setCore c (s.core c).landAll
  let s2 := if vec = 4 then s1.setCore c { s1.core c with sp := 0x050000#24 } else s1
  match s2.pushFrame c (s2.core c).st (pc.setWidth 36) with
  | (false, s3) => s3
  | (true, s3) =>
    let x := s3.core c
    let st := stSet x.st St.IE false
    let y := match t with
      | none => { x with st := st }
      | some t => { x with st := stSet st St.TH true, tcause := BitVec.ofNat 9 (t.data.toNat * 256 + t.cause), taddr := t.addr }
    s3.setCore c ({ y with pc := x.vbr + BitVec.ofNat 24 vec, cyc := x.cyc + 4, seqNext := false, lastCyc := 4,
                           badDec := false :: x.badDec, prefetch := [] }.romVector vec)

/-- Take a trap; a trap while TH is 1 leads to lockup (R458). -/
def Chip.takeTrap (s : Chip) (c : Core) (t : Trap) : Chip :=
  let x := s.core c
  if stBit x.st St.TH then (s.setCore c x.landAll).lockup c t.data t.addr
  else s.enterVector c t.vec (if t.next then x.pc + 1 else x.pc) (some t)

/-- An interrupt is taken at a boundary where IE is 1 and the line is high, 3 cycles or more after the
last multiplier issue (R452, R460). -/
def Chip.interruptDue (s : Chip) (c : Core) : Bool :=
  let x := s.core c
  s.coreRuns c && stBit x.st St.IE && s.line c.cid && x.lastMul.all (fun t => t + 3 ≤ x.cyc)

def Chip.interruptEntry (s : Chip) (c : Core) : Chip :=
  if s.interruptDue c then s.enterVector c 0 (s.core c).pc none else s

/-! ### Fetch and completion (R459, R464, R473) -/

/-- The word at `a` has been prefetched. -/
def CoreSt.prefetched (x : CoreSt) (a : Nat) : Option Word := (x.prefetch.find? (fun e => e.1 = a)).map Prod.snd

/-- A read of the word at `a` finds an uncorrectable error (R455, R496, R497, R507). -/
def Chip.eccBad (s : Chip) (a : Nat) : Bool := (isSram a && s.sramBad a) || (isFlash a && s.flashErrAt a)

/-- What a fetch at PC meets: a region that gives no fetch, a locked region, a busy bank, or an uncorrectable error.
[DEDUCED, unsafe: notes/assumptions/136] -/
def Chip.fetchTrap (s : Chip) (c : Core) : Option Trap :=
  let x := s.core c
  let n := x.pc.toNat
  if (x.prefetched n).isSome then none
  else if !mayFetchAt n || s.restrained n 31 then some { vec := 3, cause := 0xB2, addr := x.pc }
  else if isFlash n && s.bankBusy n then some { vec := 2, cause := 0xB1, addr := x.pc }
  else if s.eccBad n then some { vec := 5, cause := 0xB4, addr := x.pc }
  else none

/-- The wait of the fetch at PC. -/
def Chip.fetchWait (s : Chip) (c : Core) : Nat :=
  let x := s.core c
  let w := s.waitOf c x.pc.toNat
  if c ≠ .badger && x.seqNext then w - x.lastCyc else w

/-- A fetch from flash that no prefetch has made corrects a single-bit error (R507). -/
def Chip.fetchCorrect (s : Chip) (c : Core) : Chip :=
  let n := (s.core c).pc.toNat
  if isFlash n && ((s.core c).prefetched n).isNone then s.flashCorrect n else s

/-- The fetch of an instruction: its wait passes, and it is noted whether it comes from ROM. -/
def Chip.fetch (s : Chip) (c : Core) : Chip :=
  let t := (s.fetchCorrect c).bankTake c.agent (s.core c).pc.toNat
  let more := if t.1 && !(c ≠ .badger && (s.core c).seqNext) then ceilDiv (s.rateNow c) s.fabricRate else 0
  let s1 := t.2.addCyc c (s.fetchWait c + more)
  s1.setCore c { s1.core c with fromRom := isRom (s.core c).pc.toNat }

/-- The words that a Fox core prefetches: the two that follow, where they can be fetched; words it already
holds are kept as they are.
[DEDUCED, unsafe: notes/assumptions/135] -/
def Chip.prefetchAt (s : Chip) (c : Core) (pc : BitVec 24) : List (Nat × Word) :=
  if c = .badger then []
  else
    [pc.toNat, (pc + 1).toNat].filterMap (fun n =>
      match (s.core c).prefetched n with
      | some w => some (n, w)
      | none =>
        if !mayFetchAt n || s.restrained n 31 then none
        else if isRom n then some (n, Config.rom n)
        else if isSram n then (if s.sramBad n then none else some (n, s.rd n))
        else if s.bankBusy n || s.flashUndefAt n || s.flashErrAt n || s.flashOneAt n then none
        else some (n, s.flashRd n))

/-- What an instruction's body comes to: the cycles beyond its base, and a target when it branches. -/
structure Next where
  more : Nat := 0
  dest : Option (BitVec 24) := none
deriving DecidableEq, Repr

/-- The instruction completes after `n` cycles: PC moves on, or to the target. -/
def Chip.finish (s : Chip) (c : Core) (n : Nat) (dest : Option (BitVec 24)) : Chip :=
  let x := s.core c
  let pc := dest.getD (x.pc + 1)
  s.setCore c { x with pc := pc, cyc := x.cyc + n, lastCyc := n, seqNext := dest.isNone, prefetch := s.prefetchAt c pc }

/-- A trap's instruction has no architectural effect (R453): all is as it was at its fetch, but for the time it took. -/
def Chip.undone (s : Chip) (c : Core) (s2 : Chip) : Chip :=
  ({ s with free := s2.free }).setCore c { s.core c with cyc := (s2.core c).cyc }

/-- Core `c` executes an instruction with `base` cycles, whose fields it accepts if `ok`, and whose effect is
`body`.  A fetch that the interconnect refuses is no access; any other takes its wait, one that traps too (R459, R473).  A core that does not run executes nothing, and one that waits for an access executes the instruction later.
[DESIGN CHOICE, safe: notes/assumptions/176] -/
def Chip.instr (s : Chip) (c : Core) (ok : Bool) (base : Nat) (body : Chip → Acc Next) : Chip :=
  if !s.coreRuns c then s
  else
    match s.fetchTrap c with
    | some t => (if t.vec = 3 then s else s.fetch c).takeTrap c t
    | none =>
      let s1 := s.fetch c
      if !ok then s1.takeTrap c (illegalAt (s.core c).pc)
      else
        match body s1 with
        | .ok n s2 => s2.finish c (base + n.more) n.dest
        | .trap t s2 => (s1.undone c s2).takeTrap c t
        | .wait => s

/-- Go on in sequence from `s`. -/
def goOn (s : Chip) : Acc Next := .ok {} s

/-- A and ST take a result. -/
def Chip.result (s : Chip) (c : Core) (r : Word × Word) : Chip := s.setCore c { s.core c with a := r.1, st := r.2 }

/-- An instruction that works on A, M and ST: `f a m st` is the new A and the new ST. -/
def Chip.alu (s : Chip) (c : Core) (o : Opnd) (modes : List Nat) (f : Word → Word → Word → Word × Word) : Chip :=
  s.instr c (o.inModes modes) 1 fun s => (s.readM c o).andThen fun m s =>
    goOn ((s.result c (f (s.core c).a m (s.core c).st)).postInc c o)

/-- An instruction that works on A and ST alone. -/
def Chip.unary (s : Chip) (c : Core) (o : Opnd) (base : Nat) (f : Word → Word → Word × Word) : Chip :=
  s.instr c o.isNone base fun s => goOn (s.result c (f (s.core c).a (s.core c).st))

end Sys2Proof.Machine
end

