-- ==== Sys2Proof/Machine/Hub.lean ====
section
/-!
DEFINITION. What follows a command within the chip: Bear's answers reach their claimants, channel pulses
the timers that count them, ended flash operations their requesters, stamped events their queue; then
the conditions that hold at every instant are looked at again.
-/
namespace Sys2Proof.Machine

/-- Bear's answer reaches its claimant (R128, R130).  Claimant 10 needs only the grant itself; 13 to 15 are
software, which reads EGY_SWANS. -/
def Chip.routeAnswer (s : Chip) (a : Answer) : Chip :=
  match a.who with
  | 0 => s.coreAnswer a | 1 => s.coreAnswer a | 2 => s.coreAnswer a | 3 => s.rxAnswer a | 4 => s.txAnswer a
  | 5 => s.synAnswer a | 6 => s.flashAnswer a | 7 => s.readerAnswerClaim a | 8 => s.tagAnswer a | 9 => s.cipherAnswer a
  | 12 => s.wakeAnswer a
  | _ => s

/-- A flash operation ended: its requester goes on. -/
def Chip.routeFlash (s : Chip) (e : FlSrc × Nat) : Chip :=
  match e.1 with
  | .cmd => if s.fld F.FLC_RES_OP = 2 && e.2 = Rc.OK then s.mboxErase (s.fld F.FLC_RES_ADDR) else s
  | .keystore => s.recordDone e.2
  | .nfc => s.mboxFlash e.2
  | .rom => s.settingsEnd e.2
  | .loader => s.ldrFlash e.2
  | .squirrel => s
  | .ctl => s

/-- A stamped event gets its stamp and joins the event queue (R434). -/
def Chip.routeEvent (s : Chip) (e : Nat × Nat) : Chip :=
  let (p, s1) := s.stamp s.now
  s1.produce (s1.fld F.EVR_QCFG_QUEUE) (W (e.1 <<< 6 ||| e.2) :: p.words)

/-- The cycle's stamped events. -/
def Chip.stampEvents (s : Chip) : Chip := s.evr.recs.foldl Chip.routeEvent { s with evr := { s.evr with recs := [] } }

/-- Hand over what the outbox holds. -/
def Chip.handOver (s : Chip) : Chip :=
  let o := s.out
  let s1 := { s with out := {} }
  let s2 := o.answers.foldl Chip.routeAnswer s1
  let s3 := o.chans.foldl Chip.countChannel s2
  o.flash.foldl Chip.routeFlash s3

/-- Hand over until the outbox is empty. -/
def Chip.handOverAll : Nat → Chip → Chip
  | 0, s => s
  | n + 1, s => if s.out = {} then s else Chip.handOverAll n s.handOver

/-- A boundary of class `c` falls in this cycle and is still to be marked. -/
def Chip.boundaryDue (s : Chip) (c : Nat) : Bool := s.lnk.running && s.boundaryAt c (s.lnk.nextB.getD c 0) ≤ s.now

/-- Badger's line ends its SLOTW, where no boundary that it waits for falls in the same cycle (R489). -/
def Chip.slotwLine (s : Chip) : Chip :=
  match s.cores.badger.run with
  | .slotw c => if s.line 2 && !s.boundaryDue c then s.slotwOff else s
  | _ => s

/-- The end of every command.  In arbiter role CX_GNT follows its inputs, and the bus keepers follow their pins.
[DESIGN CHOICE, unsafe: notes/assumptions/5] -/
def Chip.settle (s : Chip) : Chip := (Chip.handOverAll 32 s).slotwLine.voleKick.entryAbort.noteDoze.cxGrant.keepLevels

/-- A command whose effect is `f`, with what follows from it.
[DESIGN CHOICE, unsafe: notes/assumptions/5] -/
def run (f : Chip → Chip) (s : State) : Host.Outcome State Fault Refusal := act (fun c => (f c).settle) s

/-- A burst grant reaches the end of its duration (R131). -/
def Chip.burstEnd (s : Chip) (n : Nat) : Chip :=
  match n with
  | 3 => s.radioGrantEnd 3
  | 4 => s.radioGrantEnd 4
  | 6 => if s.flc.pulsing then s else s.endGrant 6
  | 7 => s.readerGrantEnd
  | 9 => (s.endGrant 9).cipherGrantEnd
  | n => if (s.grantOf n).any (fun g => !g.cont) then s.endGrant n else s

end Sys2Proof.Machine
end

