-- ==== Sys2Proof/Machine/J36Alu.lean ====
section
/-!
DEFINITION. J36 arithmetic: binary, logic, shifts, fractions, decimal, check and bit, multiply (spec/16 R477
to R482; spec/15 R444 to R451).
-/
namespace Sys2Proof.Machine

def allModes : List Nat := [0, 1, 2, 3, 4, 5]
def shiftModes : List Nat := [0, 1, 2, 3, 4]

def Chip.opAdd (s : Chip) (c : Core) (o : Opnd) : Chip := s.alu c o allModes (fun a m st => addc a m false st)
def Chip.opAdc (s : Chip) (c : Core) (o : Opnd) : Chip := s.alu c o allModes (fun a m st => addc a m (stBit st St.C) st)
def Chip.opSub (s : Chip) (c : Core) (o : Opnd) : Chip := s.alu c o allModes (fun a m st => subb a m false st)
def Chip.opSbc (s : Chip) (c : Core) (o : Opnd) : Chip := s.alu c o allModes (fun a m st => subb a m (stBit st St.C) st)
def Chip.opCmp (s : Chip) (c : Core) (o : Opnd) : Chip := s.alu c o allModes (fun a m st => (a, (subb a m false st).2))
def Chip.opAnd (s : Chip) (c : Core) (o : Opnd) : Chip := s.alu c o allModes (fun a m st => logic (a &&& m) st)
def Chip.opOr (s : Chip) (c : Core) (o : Opnd) : Chip := s.alu c o allModes (fun a m st => logic (a ||| m) st)
def Chip.opXor (s : Chip) (c : Core) (o : Opnd) : Chip := s.alu c o allModes (fun a m st => logic (a ^^^ m) st)
def Chip.opNeg (s : Chip) (c : Core) (o : Opnd) : Chip := s.unary c o 1 (fun a st => subb 0 a false st)
def Chip.opNot (s : Chip) (c : Core) (o : Opnd) : Chip := s.unary c o 1 (fun a st => logic (~~~ a) st)
def Chip.opShl (s : Chip) (c : Core) (o : Opnd) : Chip := s.alu c o shiftModes shl
def Chip.opShr (s : Chip) (c : Core) (o : Opnd) : Chip := s.alu c o shiftModes shr
def Chip.opSha (s : Chip) (c : Core) (o : Opnd) : Chip := s.alu c o shiftModes sha
def Chip.opRol (s : Chip) (c : Core) (o : Opnd) : Chip := s.alu c o shiftModes rol
def Chip.opRor (s : Chip) (c : Core) (o : Opnd) : Chip := s.alu c o shiftModes ror

/-! ### Fractions (R479) -/

def Chip.opFadd (s : Chip) (c : Core) (o : Opnd) : Chip := s.alu c o allModes (fun a m st => fracResult (a.toInt + m.toInt) 0 st)
def Chip.opFsub (s : Chip) (c : Core) (o : Opnd) : Chip := s.alu c o allModes (fun a m st => fracResult (a.toInt - m.toInt) 0 st)
def Chip.opFneg (s : Chip) (c : Core) (o : Opnd) : Chip := s.unary c o 1 (fun a st => fracResult (-a.toInt) 0 st)
def Chip.opFabs (s : Chip) (c : Core) (o : Opnd) : Chip := s.unary c o 1 (fun a st => fracResult a.toInt.natAbs 0 st)
def Chip.opFshl (s : Chip) (c : Core) (o : Opnd) : Chip :=
  s.alu c o shiftModes (fun a m st => fracResult (a.toInt * 2 ^ fshiftCount m) 0 st)
def Chip.opFshr (s : Chip) (c : Core) (o : Opnd) : Chip := s.alu c o shiftModes (fun a m st => fracResult a.toInt (fshiftCount m) st)
def Chip.opSatn (s : Chip) (c : Core) (o : Opnd) : Chip := s.unary c o 1 satn

/-! ### Decimal (R447, R448, R480) -/

/-- ADDD and SUBD: the result, ST, and whether an operand was invalid. -/
def Chip.decFirst (s : Chip) (c : Core) (o : Opnd) (f : Word → Word → Word → Word × Word × Bool) : Chip :=
  s.instr c (o.inModes allModes) 1 fun s => (s.readM c o).andThen fun m s =>
    let x := s.core c
    let (r, st, bad) := f x.a m x.st
    goOn ((s.setCore c { x with a := r, st := st, badDec := bad :: x.badDec.drop 1 }).postInc c o)

/-- DAD and DAS: the first after an invalid operand yields a free digit pattern, and Z is that of it. -/
def Chip.decSecond (s : Chip) (c : Core) (o : Opnd) (want : Bool) : Chip :=
  s.instr c o.isNone 1 fun s =>
    let x := s.core c
    let bad := x.badDec.headD false
    let r := if bad then Config.freeWord s.free else decAdjust want x.a x.st
    let s1 := if bad then s.draw else s
    goOn (s1.setCore c { x with a := r, st := setZclrN x.st r, badDec := false :: x.badDec.drop 1 })

/-- D2B and B2D: OPD[0] is the format. -/
def Chip.convert (s : Chip) (c : Core) (o : Opnd) (base : Nat) (f : Word → Bool → Option Word) : Chip :=
  s.instr c (o.inModes [0] && o.opd.toNat < 2) base fun s =>
    let x := s.core c
    match f x.a (o.opd.toNat = 1) with
    | none => goOn (s.setCore c { x with st := stSet x.st St.V true })
    | some r => goOn (s.setCore c { x with a := r, st := stSet (setNZ x.st r) St.V false })

def Chip.opAddd (s : Chip) (c : Core) (o : Opnd) : Chip := s.decFirst c o addd
def Chip.opSubd (s : Chip) (c : Core) (o : Opnd) : Chip := s.decFirst c o subd
def Chip.opDad (s : Chip) (c : Core) (o : Opnd) : Chip := s.decSecond c o false
def Chip.opDas (s : Chip) (c : Core) (o : Opnd) : Chip := s.decSecond c o true
def Chip.opD2b (s : Chip) (c : Core) (o : Opnd) : Chip := s.convert c o 4 d2b
def Chip.opB2d (s : Chip) (c : Core) (o : Opnd) : Chip := s.convert c o 6 b2d

/-! ### Check and bit (R481) -/

def Chip.opCrcs (s : Chip) (c : Core) (o : Opnd) : Chip :=
  let poly := (s.core c).crcp.toNat
  s.alu c o allModes (fun a m st => let r := crcs a m poly; (r, setZclrN st r))
def Chip.opPar (s : Chip) (c : Core) (o : Opnd) : Chip :=
  s.alu c o allModes (fun a m st => let r := parity (a &&& m); (r, setZclrN st r))
def Chip.opBrev (s : Chip) (c : Core) (o : Opnd) : Chip :=
  let n := o.opd.toNat
  s.instr c (o.inModes [0] && 1 ≤ n && n ≤ 36) 1 fun s => goOn (s.result c (logic (brev (s.core c).a n) (s.core c).st))

/-! ### Multiply (R449, R482) -/

def Chip.multiply (s : Chip) (c : Core) (o : Opnd) (k : MulKind) : Chip :=
  s.instr c (o.inModes allModes) 1 fun s => (s.readM c o).andThen fun m s => goOn ((s.setCore c ((s.core c).landDue.issue k m)).postInc c o)

def Chip.opMul (s : Chip) (c : Core) (o : Opnd) : Chip := s.multiply c o .signed
def Chip.opMulu (s : Chip) (c : Core) (o : Opnd) : Chip := s.multiply c o .unsigned
def Chip.opMac (s : Chip) (c : Core) (o : Opnd) : Chip := s.multiply c o .mac

/-- FPR reads MHI and MLO as they stand in its own cycle. -/
def Chip.opFpr (s : Chip) (c : Core) (o : Opnd) : Chip :=
  s.instr c o.isNone 1 fun s =>
    let x := (s.core c).landDue
    let (r, st) := fprResult x.mhi x.mlo x.st
    goOn (s.setCore c { x with a := r, st := st })

/-- The oldest product in flight is written at the end of its third cycle (R450). -/
def Chip.opMulResultWrite (s : Chip) (c : Core) : Chip :=
  let x := s.core c
  match x.flight with
  | [] => s
  | f :: l => s.setCore c ({ x with flight := l, cyc := max x.cyc (f.cycle + 3) }.land f)

def execAdd (c : Core) (o : Opnd) (s : State) : Host.Outcome State Fault Refusal := run (fun ch => ch.opAdd c o) s
def execAdc (c : Core) (o : Opnd) (s : State) : Host.Outcome State Fault Refusal := run (fun ch => ch.opAdc c o) s
def execSub (c : Core) (o : Opnd) (s : State) : Host.Outcome State Fault Refusal := run (fun ch => ch.opSub c o) s
def execSbc (c : Core) (o : Opnd) (s : State) : Host.Outcome State Fault Refusal := run (fun ch => ch.opSbc c o) s
def execCmp (c : Core) (o : Opnd) (s : State) : Host.Outcome State Fault Refusal := run (fun ch => ch.opCmp c o) s
def execAnd (c : Core) (o : Opnd) (s : State) : Host.Outcome State Fault Refusal := run (fun ch => ch.opAnd c o) s
def execOr (c : Core) (o : Opnd) (s : State) : Host.Outcome State Fault Refusal := run (fun ch => ch.opOr c o) s
def execXor (c : Core) (o : Opnd) (s : State) : Host.Outcome State Fault Refusal := run (fun ch => ch.opXor c o) s
def execNeg (c : Core) (o : Opnd) (s : State) : Host.Outcome State Fault Refusal := run (fun ch => ch.opNeg c o) s
def execNot (c : Core) (o : Opnd) (s : State) : Host.Outcome State Fault Refusal := run (fun ch => ch.opNot c o) s
def execShl (c : Core) (o : Opnd) (s : State) : Host.Outcome State Fault Refusal := run (fun ch => ch.opShl c o) s
def execShr (c : Core) (o : Opnd) (s : State) : Host.Outcome State Fault Refusal := run (fun ch => ch.opShr c o) s
def execSha (c : Core) (o : Opnd) (s : State) : Host.Outcome State Fault Refusal := run (fun ch => ch.opSha c o) s
def execRol (c : Core) (o : Opnd) (s : State) : Host.Outcome State Fault Refusal := run (fun ch => ch.opRol c o) s
def execRor (c : Core) (o : Opnd) (s : State) : Host.Outcome State Fault Refusal := run (fun ch => ch.opRor c o) s
def execFadd (c : Core) (o : Opnd) (s : State) : Host.Outcome State Fault Refusal := run (fun ch => ch.opFadd c o) s
def execFsub (c : Core) (o : Opnd) (s : State) : Host.Outcome State Fault Refusal := run (fun ch => ch.opFsub c o) s
def execFneg (c : Core) (o : Opnd) (s : State) : Host.Outcome State Fault Refusal := run (fun ch => ch.opFneg c o) s
def execFabs (c : Core) (o : Opnd) (s : State) : Host.Outcome State Fault Refusal := run (fun ch => ch.opFabs c o) s
def execFshl (c : Core) (o : Opnd) (s : State) : Host.Outcome State Fault Refusal := run (fun ch => ch.opFshl c o) s
def execFshr (c : Core) (o : Opnd) (s : State) : Host.Outcome State Fault Refusal := run (fun ch => ch.opFshr c o) s
def execSatn (c : Core) (o : Opnd) (s : State) : Host.Outcome State Fault Refusal := run (fun ch => ch.opSatn c o) s
def execAddd (c : Core) (o : Opnd) (s : State) : Host.Outcome State Fault Refusal := run (fun ch => ch.opAddd c o) s
def execSubd (c : Core) (o : Opnd) (s : State) : Host.Outcome State Fault Refusal := run (fun ch => ch.opSubd c o) s
def execDad (c : Core) (o : Opnd) (s : State) : Host.Outcome State Fault Refusal := run (fun ch => ch.opDad c o) s
def execDas (c : Core) (o : Opnd) (s : State) : Host.Outcome State Fault Refusal := run (fun ch => ch.opDas c o) s
def execD2b (c : Core) (o : Opnd) (s : State) : Host.Outcome State Fault Refusal := run (fun ch => ch.opD2b c o) s
def execB2d (c : Core) (o : Opnd) (s : State) : Host.Outcome State Fault Refusal := run (fun ch => ch.opB2d c o) s
def execCrcs (c : Core) (o : Opnd) (s : State) : Host.Outcome State Fault Refusal := run (fun ch => ch.opCrcs c o) s
def execPar (c : Core) (o : Opnd) (s : State) : Host.Outcome State Fault Refusal := run (fun ch => ch.opPar c o) s
def execBrev (c : Core) (o : Opnd) (s : State) : Host.Outcome State Fault Refusal := run (fun ch => ch.opBrev c o) s
def execMul (c : Core) (o : Opnd) (s : State) : Host.Outcome State Fault Refusal := run (fun ch => ch.opMul c o) s
def execMulu (c : Core) (o : Opnd) (s : State) : Host.Outcome State Fault Refusal := run (fun ch => ch.opMulu c o) s
def execMac (c : Core) (o : Opnd) (s : State) : Host.Outcome State Fault Refusal := run (fun ch => ch.opMac c o) s
def execFpr (c : Core) (o : Opnd) (s : State) : Host.Outcome State Fault Refusal := run (fun ch => ch.opFpr c o) s
def execMulResultWrite (c : Core) (s : State) : Host.Outcome State Fault Refusal := run (fun ch => ch.opMulResultWrite c) s

end Sys2Proof.Machine
end

