-- ==== Sys2Proof/Machine/J36Data.lean ====
section
/-!
DEFINITION. J36 loads, stores and moves (spec/16 R475, R476, R492).
-/
namespace Sys2Proof.Machine

/-- Load an index register from M; `k` is the number of the register, 0 for X. -/
def Chip.loadIndex (s : Chip) (c : Core) (o : Opnd) (toY : Bool) : Chip :=
  s.instr c (o.inModes [0, 1, 2, 3, 4, 5] && !(o.mode = 3 && o.ixs = toY)) 1 fun s => (s.readM c o).andThen fun m s =>
    let x := s.core c
    goOn ((s.setCore c (if toY then { x with y := m.setWidth 24 } else { x with x := m.setWidth 24 })).postInc c o)

/-- Store `v` in M; in mode 3 the value is that of before the increment. -/
def Chip.storeM (s : Chip) (c : Core) (o : Opnd) (v : CoreSt → Word) : Chip :=
  s.instr c (o.inModes [1, 2, 3, 4, 5]) 1 fun s => (s.writeM c o (v (s.core c))).andThen fun _ s => goOn (s.postInc c o)

/-- Load an index register with the effective address. -/
def Chip.loadAddr (s : Chip) (c : Core) (o : Opnd) (toY : Bool) : Chip :=
  s.instr c (o.inModes [1, 2, 4]) 1 fun s => (s.effAddr c o).andThen fun a s =>
    let x := s.core c
    goOn (s.setCore c (if toY then { x with y := a } else { x with x := a }))

def Chip.opLda (s : Chip) (c : Core) (o : Opnd) : Chip := s.alu c o [0, 1, 2, 3, 4, 5] (fun _ m st => logic m st)
def Chip.opSta (s : Chip) (c : Core) (o : Opnd) : Chip := s.storeM c o CoreSt.a
def Chip.opLdx (s : Chip) (c : Core) (o : Opnd) : Chip := s.loadIndex c o false
def Chip.opLdy (s : Chip) (c : Core) (o : Opnd) : Chip := s.loadIndex c o true
def Chip.opStx (s : Chip) (c : Core) (o : Opnd) : Chip := s.storeM c o (fun x => x.x.setWidth 36)
def Chip.opSty (s : Chip) (c : Core) (o : Opnd) : Chip := s.storeM c o (fun x => x.y.setWidth 36)
def Chip.opLeax (s : Chip) (c : Core) (o : Opnd) : Chip := s.loadAddr c o false
def Chip.opLeay (s : Chip) (c : Core) (o : Opnd) : Chip := s.loadAddr c o true

/-- PUSH: M is read before SP moves (R492). -/
def Chip.opPush (s : Chip) (c : Core) (o : Opnd) : Chip :=
  s.instr c (o.inModes [0, 1, 2, 3, 4, 5]) 1 fun s => (s.readM c o).andThen fun m s =>
    (s.push c m).andThen fun _ s => goOn (s.postInc c o)

/-- POP: SP gains 1, except where SP is what is popped (R492). -/
def Chip.opPop (s : Chip) (c : Core) (o : Opnd) : Chip :=
  s.instr c (o.inModes [1, 2, 3, 4, 5]) 1 fun s =>
    let sp := (s.core c).sp
    (s.stackRead c sp).andThen fun w s => (s.writeM c o w).andThen fun _ s =>
      let s1 := if o.mode = 5 && o.specialNo = 1 then s else s.setCore c { s.core c with sp := sp + 1 }
      goOn (s1.postInc c o)

/-- MOVR: DST in OPD[3:2], SRC in OPD[1:0] (R476). -/
def movr (x : CoreSt) (dst src : Nat) : CoreSt :=
  let v : Word := match src with
    | 0 => x.a | 1 => x.x.setWidth 36 | _ => x.y.setWidth 36
  match dst with
  | 0 => { x with a := v, st := setNZ x.st v }
  | 1 => { x with x := v.setWidth 24 }
  | _ => { x with y := v.setWidth 24 }

def Chip.opMovr (s : Chip) (c : Core) (o : Opnd) : Chip :=
  let d := bits o.opd.toNat 3 2
  let r := bits o.opd.toNat 1 0
  s.instr c (o.inModes [0] && o.opd.toNat < 16 && d ≠ 3 && r ≠ 3) 1 fun s => goOn (s.setCore c (movr (s.core c) d r))

def execLda (c : Core) (o : Opnd) (s : State) : Host.Outcome State Fault Refusal := run (fun ch => ch.opLda c o) s
def execSta (c : Core) (o : Opnd) (s : State) : Host.Outcome State Fault Refusal := run (fun ch => ch.opSta c o) s
def execLdx (c : Core) (o : Opnd) (s : State) : Host.Outcome State Fault Refusal := run (fun ch => ch.opLdx c o) s
def execLdy (c : Core) (o : Opnd) (s : State) : Host.Outcome State Fault Refusal := run (fun ch => ch.opLdy c o) s
def execStx (c : Core) (o : Opnd) (s : State) : Host.Outcome State Fault Refusal := run (fun ch => ch.opStx c o) s
def execSty (c : Core) (o : Opnd) (s : State) : Host.Outcome State Fault Refusal := run (fun ch => ch.opSty c o) s
def execLeax (c : Core) (o : Opnd) (s : State) : Host.Outcome State Fault Refusal := run (fun ch => ch.opLeax c o) s
def execLeay (c : Core) (o : Opnd) (s : State) : Host.Outcome State Fault Refusal := run (fun ch => ch.opLeay c o) s
def execPush (c : Core) (o : Opnd) (s : State) : Host.Outcome State Fault Refusal := run (fun ch => ch.opPush c o) s
def execPop (c : Core) (o : Opnd) (s : State) : Host.Outcome State Fault Refusal := run (fun ch => ch.opPop c o) s
def execMovr (c : Core) (o : Opnd) (s : State) : Host.Outcome State Fault Refusal := run (fun ch => ch.opMovr c o) s

end Sys2Proof.Machine
end

