-- ==== Sys2Proof/Machine/J36Flow.lean ====
section
/-!
DEFINITION. J36 branches, calls and system instructions, interrupts and the calendar routines (spec/16 R483 to
R491; spec/15 R454 to R463; spec/13 R404 to R406).
-/
namespace Sys2Proof.Machine

def branchModes : List Nat := [0, 1, 2, 4]

/-- Go to `t` when `yes`, in one more cycle. -/
def branchIf (yes : Bool) (t : BitVec 24) (s : Chip) : Acc Next := if yes then .ok { more := 1, dest := some t } s else goOn s

def Chip.opJcc (s : Chip) (c : Core) (cc : BitVec 4) (o : Opnd) : Chip :=
  s.instr c (o.inModes branchModes) 1 fun s => (s.target c o).andThen fun t s => branchIf (condHolds cc.toNat (s.core c).st) t s

def Chip.opCall (s : Chip) (c : Core) (o : Opnd) : Chip :=
  s.instr c (o.inModes branchModes) 2 fun s => (s.target c o).andThen fun t s =>
    (s.push c (((s.core c).pc + 1).setWidth 36)).andThen fun _ s => .ok { dest := some t } s

def Chip.opRet (s : Chip) (c : Core) (o : Opnd) : Chip :=
  s.instr c o.isNone 2 fun s =>
    let sp := (s.core c).sp
    (s.stackRead c sp).andThen fun w s => .ok { dest := some (w.setWidth 24) } (s.setCore c { s.core c with sp := sp + 1 })

/-- RETI pops PC and then ST (R457). -/
def Chip.opReti (s : Chip) (c : Core) (o : Opnd) : Chip :=
  s.instr c o.isNone 3 fun s =>
    let sp := (s.core c).sp
    (s.stackRead c sp).andThen fun w s =>
      (Chip.stackOk (sp + 1) (sp + 1) (s.coreRead c (sp + 1)) s).andThen fun v s =>
        let x := s.core c
        let d := x.badDec.drop 1
        .ok { dest := some (w.setWidth 24) }
          (s.setCore c { x with sp := sp + 2, st := v &&& stMask, badDec := if d.isEmpty then [false] else d })

/-- DBX and DBY: the target is formed before the index counts down.
[DEDUCED, unsafe: notes/assumptions/138] -/
def Chip.opDbx (s : Chip) (c : Core) (o : Opnd) : Chip :=
  s.instr c (o.inModes branchModes) 1 fun s => (s.target c o).andThen fun t s =>
    let x := s.core c
    branchIf (x.x - 1 != 0) t (s.setCore c { x with x := x.x - 1 })

def Chip.opDby (s : Chip) (c : Core) (o : Opnd) : Chip :=
  s.instr c (o.inModes branchModes) 1 fun s => (s.target c o).andThen fun t s =>
    let x := s.core c
    branchIf (x.y - 1 != 0) t (s.setCore c { x with y := x.y - 1 })

def Chip.opTrap (s : Chip) (c : Core) (o : Opnd) : Chip :=
  s.instr c (o.inModes [0]) 1 fun s => .trap { vec := 6, cause := 0xB5, addr := o.opd, next := true } (s.addCyc c 1)

/-- WAIT: where the line is low the core waits (R461). -/
def Chip.opWait (s : Chip) (c : Core) (o : Opnd) : Chip :=
  s.instr c o.isNone 1 fun s => goOn (if s.line c.cid then s else s.setCore c { s.core c with run := .wait })

/-- The fences: on a Fox core every write of the memory path is made visible (R37); each of the I/O path is
performed when it is made.  FENCE also discards prefetched words. -/
def Chip.opFence (s : Chip) (c : Core) (o : Opnd) : Chip :=
  s.instr c o.isNone (if c = .badger then 1 else 2) fun s =>
    let s1 := s.drainAll c
    goOn (s1.setCore c { s1.core c with prefetch := [] })

def Chip.opFencew (s : Chip) (c : Core) (o : Opnd) : Chip := s.instr c o.isNone 1 fun s => goOn (s.drainAll c)
def Chip.opFenceio (s : Chip) (c : Core) (o : Opnd) : Chip := s.instr c o.isNone 1 fun s => goOn (s.drainAll c)

/-- XCHG: a FENCE on both sides, and SRAM only (R38, R463). -/
def Chip.opXchg (s : Chip) (c : Core) (o : Opnd) : Chip :=
  s.instr c (o.inModes [1, 2, 3, 4]) 3 fun s => (s.effAddr c o).andThen fun a s =>
    if !isSram a.toNat then .trap { vec := 3, cause := 0xB2, addr := a, data := true } s
    else
      let s1 := s.drainAll c
      (s1.coreRead c a).andThen fun w s =>
        let s2 := s.wr a.toNat (s.core c).a
        goOn ((s2.setCore c { s2.core c with a := w, prefetch := [] }).postInc c o)

/-- The last boundary of class `c` was marked in this cycle: its ASN. -/
def Chip.boundaryNow (s : Chip) (c : Nat) : Option Nat :=
  let n := s.lnk.nextB.getD c 0
  if s.lnk.running && 0 < n && s.boundaryAt c (n - 1) = s.now then some (n - 1) else none

/-- SLOTW: Badger waits for a boundary of class OPD[1:0], marked in this cycle or later; its line or an engine that is off ends
it with C set, the line not where a boundary falls in the same cycle (R489). -/
def Chip.opSlotw (s : Chip) (c : Core) (o : Opnd) : Chip :=
  s.instr c (o.inModes [0] && o.opd.toNat < 4 && c = .badger) 1 fun s =>
    let x := s.core c
    let off := goOn (s.setCore c { x with st := stSet x.st St.C true })
    if !s.bit F.LNK_CTL_EN then off
    else match s.boundaryNow o.opd.toNat with
      | some n => goOn (s.setCore c { x with a := W n, st := stSet x.st St.C false })
      | none => if s.line 2 && !s.boundaryDue o.opd.toNat then off else goOn (s.setCore c { x with run := .slotw o.opd.toNat })

/-- STAMP: a sample of the stamp unit, with the SEQ of the most recent stamp (R491).  Of the cycles that the rule allows it takes
the last whole one, two BADGER cycles long, in which no further stamp can be assigned.
[DEDUCED, unsafe: notes/assumptions/180] -/
def Chip.opStamp (s : Chip) (c : Core) (o : Opnd) : Chip :=
  s.instr c (o.inModes [1, 2, 3, 4] && c = .badger) 3 fun s =>
    let p := s.owl.sample
    (s.effAddr c o).andThen fun a s => (s.coreWrite c a (p.words.getD 1 0)).andThen fun _ s =>
      goOn ((s.setCore c { s.core c with a := p.words.getD 0 0 }).postInc c o)

def Chip.opNop (s : Chip) (c : Core) (o : Opnd) : Chip := s.instr c o.isNone 1 goOn

/-- TRAPB, whatever its other bits hold. -/
def Chip.opTrapb (s : Chip) (c : Core) (_ : Opnd) : Chip :=
  s.instr c true 0 fun s => .trap { vec := 2, cause := 0xB1, addr := (s.core c).pc } s

/-! ### The calendar routines (R404 to R406) -/

/-- A routine that a core entered at `entry` runs to its return: A holds the code; the flags other than IE,
MHI, MLO, the six words of stack under SP and the cycles it takes are free values.
[DESIGN CHOICE, safe: notes/assumptions/139] -/
def Chip.calRoutine (s : Chip) (c : Core) (entry : Nat) (f : Chip → Nat → Nat × Chip) : Chip :=
  if !s.coreRuns c || (s.core c).pc.toNat ≠ entry then s
  else
    let s1 := s.drainAll c
    let x := s1.core c
    let (code, s2) := f s1 x.x.toNat
    let w (i : Nat) : Word := Config.freeWord (s1.free + i)
    let s3 := (List.range 6).foldl (fun s i => s.wr (x.sp.toNat - 1 - i) (w i)) { s2 with free := s2.free + 10 }
    match s3.stackRead c x.sp with
    | .trap t s4 => s4.takeTrap c t
    | .wait => s
    | .ok ret s4 =>
      let y := s4.core c
      let flags : Word := 0x1FF07F
      s4.setCore c { y with a := W code, st := (y.st &&& ~~~ flags) ||| (w 6 &&& flags), mhi := w 7, mlo := w 8, flight := [],
                            sp := y.sp + 1, pc := ret.setWidth 24, fromRom := true, cyc := y.cyc + Config.freeNat (s1.free + 9) % 221,
                            lastCyc := 2, seqNext := false, prefetch := [] }

def Chip.opCalTosec (s : Chip) (c : Core) : Chip :=
  s.calRoutine c 0x20 fun s a =>
    let (code, t) := calToSec (s.rd a).toNat (s.rd (a + 1)).toNat
    (code, if code = Rc.OK then s.wr (a + 2) (W t) else s)

def Chip.opCalFromsec (s : Chip) (c : Core) : Chip :=
  s.calRoutine c 0x22 fun s a =>
    let (w0, w1) := calFromSec (s.rd (a + 2)).toNat
    (Rc.OK, (s.wr a (W w0)).wr (a + 1) (W w1))

def Chip.opInterruptEntry (s : Chip) (c : Core) : Chip := s.interruptEntry c
def Chip.opWaitEnd (s : Chip) (c : Core) : Chip := s.endWait c

def execJcc (c : Core) (cc : BitVec 4) (o : Opnd) (s : State) : Host.Outcome State Fault Refusal := run (fun ch => ch.opJcc c cc o) s
def execCall (c : Core) (o : Opnd) (s : State) : Host.Outcome State Fault Refusal := run (fun ch => ch.opCall c o) s
def execRet (c : Core) (o : Opnd) (s : State) : Host.Outcome State Fault Refusal := run (fun ch => ch.opRet c o) s
def execReti (c : Core) (o : Opnd) (s : State) : Host.Outcome State Fault Refusal := run (fun ch => ch.opReti c o) s
def execDbx (c : Core) (o : Opnd) (s : State) : Host.Outcome State Fault Refusal := run (fun ch => ch.opDbx c o) s
def execDby (c : Core) (o : Opnd) (s : State) : Host.Outcome State Fault Refusal := run (fun ch => ch.opDby c o) s
def execTrap (c : Core) (o : Opnd) (s : State) : Host.Outcome State Fault Refusal := run (fun ch => ch.opTrap c o) s
def execWait (c : Core) (o : Opnd) (s : State) : Host.Outcome State Fault Refusal := run (fun ch => ch.opWait c o) s
def execFence (c : Core) (o : Opnd) (s : State) : Host.Outcome State Fault Refusal := run (fun ch => ch.opFence c o) s
def execFencew (c : Core) (o : Opnd) (s : State) : Host.Outcome State Fault Refusal := run (fun ch => ch.opFencew c o) s
def execFenceio (c : Core) (o : Opnd) (s : State) : Host.Outcome State Fault Refusal := run (fun ch => ch.opFenceio c o) s
def execXchg (c : Core) (o : Opnd) (s : State) : Host.Outcome State Fault Refusal := run (fun ch => ch.opXchg c o) s
def execSlotw (c : Core) (o : Opnd) (s : State) : Host.Outcome State Fault Refusal := run (fun ch => ch.opSlotw c o) s
def execStamp (c : Core) (o : Opnd) (s : State) : Host.Outcome State Fault Refusal := run (fun ch => ch.opStamp c o) s
def execNop (c : Core) (o : Opnd) (s : State) : Host.Outcome State Fault Refusal := run (fun ch => ch.opNop c o) s
def execTrapb (c : Core) (o : Opnd) (s : State) : Host.Outcome State Fault Refusal := run (fun ch => ch.opTrapb c o) s
def execCalTosec (c : Core) (s : State) : Host.Outcome State Fault Refusal := run (fun ch => ch.opCalTosec c) s
def execCalFromsec (c : Core) (s : State) : Host.Outcome State Fault Refusal := run (fun ch => ch.opCalFromsec c) s
def execInterruptEntry (c : Core) (s : State) : Host.Outcome State Fault Refusal := run (fun ch => ch.opInterruptEntry c) s
def execWaitEnd (c : Core) (s : State) : Host.Outcome State Fault Refusal := run (fun ch => ch.opWaitEnd c) s

end Sys2Proof.Machine
end

