-- ==== Sys2Proof/Machine/Ports.lean ====
section
/-!
DEFINITION. The host port's transfers and the service port's requests (spec/19).
-/
namespace Sys2Proof.Machine

/-! ### Host port: outcomes and reachability (R536, R548) -/

/-- Post an outcome of the host port. -/
def Chip.hpReason (s : Chip) (code : Nat) : Chip := (s.setReason R.HP_STAT code).setReason R.HP_HSTAT code

/-- The version in force; 0 in SELECT. -/
def Chip.hpVer (s : Chip) : Nat := s.fld F.HP_STAT_VER

/-- The port receives a transfer: it is enabled, holds its grant, P4 carries HCS and HCS was high.  A pre-empted port
(R128, R134) receives none until its grant returns.
[DEDUCED, unsafe: notes/assumptions/168] -/
def Chip.hpHears (s : Chip) : Bool :=
  s.bit F.HP_CTL_EN && s.holds 10 && s.bit F.HP_STAT_ACTIVE && (s.pins.phase = .run || s.pins.phase = .slot) && s.pins.cur.getD 4 0 = Mean.HCS
    && s.inPin 4

/-- HCS falls and rises again around a transfer.  A port that does not receive it sees the two edges on P4
alone, which in REST wake the chip (R76). -/
def Chip.transfer (s : Chip) (f : Chip → Chip) : Chip :=
  if s.hpHears then f s
  else (if s.padIn 4 then s.wakePinEdge 4 false else s).wakePinEdge 4 true

/-- A transfer that the version in force does not define (R538, R543): outside version 1 HDO carries HP_HSTAT for its
first word (R537), and then 0. -/
def Chip.badCmd (s : Chip) : Chip :=
  ({ s.count F.HP_CNT_BADCMD with hp := { s.hp with hdo := if s.hpVer = 1 then [] else [s.hstatView], octs := [] } }).hpReason 0xA0

/-- A transfer of versions 2 and 3. -/
def Chip.transfer36 (s : Chip) (f : Chip → Chip) : Chip :=
  s.transfer fun s => if s.hpVer < 2 then s.badCmd else f s

/-- A transfer of the version-1 byte protocol: SELECT adopts version 1 where the entry allows it (R543). -/
def Chip.transferV1 (s : Chip) (f : Chip → Chip) : Chip :=
  s.transfer fun s =>
    match s.hpVer with
    | 0 =>
      if (s.offer 0).1 ≤ 1 then f (s.setFld F.HP_STAT_VER 1)
      else ({ s with hp := { s.hp with hdo := [s.hstatView] } }).hpReason Rc.VERSION
    | 1 => f s
    | _ => s.badCmd

/-! ### Host reads (R538 to R540, R542) -/

/-- The marker of a read outside the mirror. -/
def hostMarker : Word := W 0x3FFFFFFFE

/-- The addresses of `n` words. -/
def hostAddrs (fixed : Bool) (addr n : Nat) : List Nat := (List.range n).map (fun i => if fixed then addr else (addr + i) % 2 ^ 24)

/-- Read mirror words in turn as the host. -/
def Chip.mirrorReads (s : Chip) : List Nat → List Word × Chip
  | [] => ([], s)
  | a :: l =>
    let (w, s1) := s.ioRead .host a
    let (ws, s2) := s1.mirrorReads l
    (w :: ws, s2)

/-- Queue a fetch, of no more words than the fetch buffer holds, or post FETCH_BUSY while one is queued (R540).
[DEDUCED, unsafe: notes/assumptions/144] -/
def Chip.queueFetch (s : Chip) (fixed : Bool) (n addr : Nat) : Chip :=
  if s.hp.fetch.isSome then s.hpReason 0xA4
  else { s with hp := { s.hp with fetch := some { fixed := fixed, n := min n 256, addr := addr, behind := s.hp.posts.length } } }

/-- The words that a read sends of its first `k`, and its effect. -/
def Chip.hostData (s : Chip) (fixed : Bool) (n addr k : Nat) : List Word × Chip :=
  if (hostAddrs fixed addr n).all isMirror then (s.hpReason Rc.OK).mirrorReads (hostAddrs fixed addr k)
  else (List.replicate k hostMarker, (s.hpReason Rc.OK).queueFetch fixed n addr)

/-- The check word over a command word and data words (R542). -/
def checkWord (cmd : Nat) (ws : List Word) : Word := W (crc36 (cmd :: ws.map BitVec.toNat))

/-- READ and READF of `n` words, of which the host clocks the first bits of `clocked`: HDO carries HP_HSTAT,
the words, in version 3 the check word, and zeros. -/
def Chip.hostRead (s : Chip) (fixed : Bool) (n addr clocked : Nat) : Chip :=
  s.transfer36 fun s =>
    let hstat := s.hstatView
    let k := min n clocked
    let cmd := (if fixed then 3 else 1) <<< 32 ||| (n - 1) <<< 24 ||| addr
    let (ws, s1) := s.hostData fixed n addr k
    let tail := if clocked ≤ n then [] else (if s.hpVer = 3 then checkWord cmd ws else 0) :: List.replicate (clocked - n - 1) 0
    { s1 with hp := { s1.hp with hdo := hstat :: ws ++ tail } }

/-! ### Host writes (R541, R542) -/

/-- A written word: the mirror takes it at once, else it joins the posted writes. -/
def Chip.hostPut (s : Chip) (a : Nat) (v : Word) : Chip :=
  if isMirror a then s.ioWrite .host false a v
  else if 16 ≤ s.hp.posts.length then ((s.setBit F.HP_HSTAT_DROP true).count F.HP_CNT_DROPS).hpReason 0xA1
  else { s with hp := { s.hp with posts := s.hp.posts ++ [(a, v)] } }

def Chip.hostPuts (s : Chip) (l : List (Nat × Word)) : Chip := l.foldl (fun s e => s.hostPut e.1 e.2) s

/-- WRITE and WRITEF of `n` words; `words` are the whole words that arrive after the command word, in
version 3 the check word last.
[DEDUCED, unsafe: notes/assumptions/143] -/
def Chip.hostWrite (s : Chip) (fixed : Bool) (n addr : Nat) (words : List Word) : Chip :=
  s.transfer36 fun s =>
    let s0 := { s with hp := { s.hp with hdo := [s.hstatView] } }
    let data := words.take n
    let puts := (hostAddrs fixed addr n).zip data
    if s.hpVer = 3 then
      if words.length ≤ n then s0
      else if words.getD n 0 = checkWord ((if fixed then 4 else 2) <<< 32 ||| (n - 1) <<< 24 ||| addr) data then (s0.hpReason Rc.OK).hostPuts puts
      else (s0.count F.HP_CNT_CHKFAIL).hpReason 0xA2
    else (s0.hpReason Rc.OK).hostPuts puts

/-- OFFER (R544): the answer, and the version in force from the next transfer.
[DEDUCED, unsafe: notes/assumptions/142] -/
def Chip.hostOffer (s : Chip) (hi lo : Nat) : Chip :=
  s.transfer fun s =>
    if s.hpVer = 1 then s.badCmd
    else
      let hstat := s.hstatView
      let ans (s : Chip) (v code : Nat) : Chip := ({ s with hp := { s.hp with hdo := [hstat, W (v <<< 8 ||| code)] } }).hpReason code
      if hi < lo then ans s 0 Rc.RANGE
      else
        match agree (s.offer 0) (lo, hi) with
        | some v => ans (s.setFld F.HP_STAT_VER v) v Rc.OK
        | none => ans s.hpSelect 0 Rc.VERSION

/-! ### Version 1 (R545) -/

/-- A word as version 1 sends it: five octets, the highest bits first. -/
def v1Octets (w : Word) : List Byte := [32, 24, 16, 8, 0].map (fun k => BitVec.ofNat 8 (w.toNat / 2 ^ k))

/-- READ: HDO is 0 during the opcode, the address and the dummy byte, and carries the words then. -/
def Chip.hostV1Read (s : Chip) (addr clocked : Nat) : Chip :=
  s.transferV1 fun s =>
    let (ws, s1) := if clocked = 0 then ([], s.hpReason Rc.OK) else s.hostData false clocked addr clocked
    { s1 with hp := { s1.hp with hdo := [], octs := List.replicate 5 0 ++ ws.flatMap v1Octets } }

/-- WRITE: HDO stays 0. -/
def Chip.hostV1Write (s : Chip) (addr : Nat) (words : List Word) : Chip :=
  s.transferV1 fun s =>
    (({ s with hp := { s.hp with hdo := [], octs := List.replicate (4 + 5 * words.length) 0 } }).hpReason Rc.OK).hostPuts ((hostAddrs false addr words.length).zip words)

/-! ### Fetches and posted writes (R540, R541) -/

/-- Fetch words into the buffer from index `i` on. -/
def Chip.fetchWords (s : Chip) (i : Nat) : List Nat → Chip
  | [] => s
  | a :: l =>
    match s.portRead .host a with
    | (.ok w, s1) => ({ s1 with mirror := Cells.set zeroWord s1.mirror (0x400100 + i) w }).fetchWords (i + 1) l
    | (.error _, s1) =>
      ((({ s1 with mirror := Cells.set zeroWord s1.mirror (0x400100 + i) 0 }).setBit F.HP_HSTAT_FERR true).hpReason 0xA3).fetchWords (i + 1) l

def Chip.hostFetchDone (s : Chip) : Chip :=
  match s.hp.fetch with
  | none => s
  | some f =>
    if f.behind ≠ 0 then s
    else
      let s1 := ({ s with hp := { s.hp with fetch := none } }).fetchWords 0 (hostAddrs f.fixed f.addr f.n)
      (s1.setReg R.HP_FADDR (W (f.fixed.toNat <<< 32 ||| (f.n - 1) <<< 24 ||| f.addr))).setBit F.HP_HSTAT_FDONE true

def Chip.hostPostedWrite (s : Chip) : Chip :=
  match s.hp.posts with
  | [] => s
  | (a, v) :: l =>
    let wait : Option HostFetch := s.hp.fetch.map (fun f => HostFetch.mk f.fixed f.n f.addr (f.behind - 1))
    let s1 := { s with hp := { s.hp with posts := l, fetch := wait } }
    if mayWriteAt a then s1.portWrite .host a v else (s1.setBit F.HP_HSTAT_WERR true).hpReason 0xA3

/-! ### Cores under the service port (R553) -/

/-- HALT of one core.
[DEDUCED, unsafe: notes/assumptions/146] -/
def CoreSt.halt (x : CoreSt) : CoreSt :=
  match x.run with
  | .held => x
  | .wait => { x.landAll with run := .run, halted := true, pc := x.pc - 1 }
  | .lockup => { x with run := .run, halted := true }
  | .slotw _ => { x with halted := true }
  | .run => { x.landAll with halted := true }

/-- Run `f` on the cores that a mask names. -/
def Chip.onCores (s : Chip) (mask : Nat) (f : CoreSt → CoreSt) : Chip :=
  allCores.foldl (fun s c => if bitOf mask c.cid then s.setCore c (f (s.core c)) else s) s

/-- The word at PC, where its fetch does not trap. -/
def Chip.fetchWord (s : Chip) (c : Core) : Word × Chip :=
  let n := (s.core c).pc.toNat
  match (s.core c).prefetched n with
  | some w => (w, s)
  | none =>
    if isRom n then (Config.rom n, s)
    else if isSram n then (s.rd n, s)
    else (s.flashRd n, if s.flashUndefAt n then s.draw else s)

/-- Execute a J36 instruction. -/
def Chip.runInstr (s : Chip) : Instr → Chip
  | .lda c o => s.opLda c o
  | .sta c o => s.opSta c o
  | .ldx c o => s.opLdx c o
  | .ldy c o => s.opLdy c o
  | .stx c o => s.opStx c o
  | .sty c o => s.opSty c o
  | .leax c o => s.opLeax c o
  | .leay c o => s.opLeay c o
  | .push c o => s.opPush c o
  | .pop c o => s.opPop c o
  | .movr c o => s.opMovr c o
  | .add c o => s.opAdd c o
  | .adc c o => s.opAdc c o
  | .sub c o => s.opSub c o
  | .sbc c o => s.opSbc c o
  | .cmp c o => s.opCmp c o
  | .and c o => s.opAnd c o
  | .or c o => s.opOr c o
  | .xor c o => s.opXor c o
  | .neg c o => s.opNeg c o
  | .not c o => s.opNot c o
  | .shl c o => s.opShl c o
  | .shr c o => s.opShr c o
  | .sha c o => s.opSha c o
  | .rol c o => s.opRol c o
  | .ror c o => s.opRor c o
  | .fadd c o => s.opFadd c o
  | .fsub c o => s.opFsub c o
  | .fneg c o => s.opFneg c o
  | .fabs c o => s.opFabs c o
  | .fshl c o => s.opFshl c o
  | .fshr c o => s.opFshr c o
  | .satn c o => s.opSatn c o
  | .addd c o => s.opAddd c o
  | .subd c o => s.opSubd c o
  | .dad c o => s.opDad c o
  | .das c o => s.opDas c o
  | .d2b c o => s.opD2b c o
  | .b2d c o => s.opB2d c o
  | .crcs c o => s.opCrcs c o
  | .par c o => s.opPar c o
  | .brev c o => s.opBrev c o
  | .mul c o => s.opMul c o
  | .mulu c o => s.opMulu c o
  | .mac c o => s.opMac c o
  | .fpr c o => s.opFpr c o
  | .call c o => s.opCall c o
  | .ret c o => s.opRet c o
  | .reti c o => s.opReti c o
  | .dbx c o => s.opDbx c o
  | .dby c o => s.opDby c o
  | .trap c o => s.opTrap c o
  | .wait c o => s.opWait c o
  | .fence c o => s.opFence c o
  | .fencew c o => s.opFencew c o
  | .fenceio c o => s.opFenceio c o
  | .xchg c o => s.opXchg c o
  | .slotw c o => s.opSlotw c o
  | .stamp c o => s.opStamp c o
  | .nop c o => s.opNop c o
  | .trapb c o => s.opTrapb c o
  | .jcc c cc o => s.opJcc c cc o
  | _ => s

/-- Execute the instruction at PC. -/
def Chip.stepCore (s : Chip) (c : Core) : Chip :=
  match s.fetchTrap c with
  | some t => s.takeTrap c t
  | none =>
    let (w, s1) := s.fetchWord c
    match decodeJ36 c w with
    | some i => s1.runInstr i
    | none => s1.instr c false 0 goOn

/-- STEP: one instruction; a WAIT whose line is low is not completed, and a trap stops the core before the vector word, one of
the ROM's table too, which only RUN would take into lockup.
[DEDUCED, unsafe: notes/assumptions/146] -/
def Chip.svcStepCore (s : Chip) (c : Core) : Chip :=
  let s1 := (s.setCore c { s.core c with halted := false }).stepCore c
  let x := s1.core c
  s1.setCore c (match x.run with
    | .wait => { x with run := .run, halted := true, pc := x.pc - 1 }
    | .lockup => { x with run := if x.tcause.toNat % 256 = 0xB6 then .lockup else .run, halted := true }
    | _ => { x with halted := true })

/-- Register `n` of a request; none where the number names no register. -/
def CoreSt.svcReg (x : CoreSt) (c : Core) (n : Nat) : Option Word :=
  match n with
  | 0 => some x.a
  | 1 => some (x.x.setWidth 36)
  | 2 => some (x.y.setWidth 36)
  | 3 => some (x.pc.setWidth 36)
  | _ => if n < 16 then none else x.special c (n - 16)

def CoreSt.svcPutReg (x : CoreSt) (n : Nat) (v : Word) : Option CoreSt :=
  match n with
  | 0 => some { x with a := v }
  | 1 => some { x with x := v.setWidth 24 }
  | 2 => some { x with y := v.setWidth 24 }
  | 3 => some { x with pc := v.setWidth 24, seqNext := false }
  | _ => if n < 16 then none else x.putSpecial (n - 16) v

/-! ### Service requests (R549 to R552) -/

/-- What a request comes to: ACK, words, and the state. -/
structure SvcOut where
  ack : Nat
  words : List Word
  chip : Chip
deriving DecidableEq, Repr

def svcOk (s : Chip) (words : List Word) : SvcOut := { ack := 1, words := words, chip := s.setReason R.SVC_STAT Rc.OK }
def svcFault (s : Chip) (code : Nat) : SvcOut := { ack := 4, words := [W code], chip := s.setReason R.SVC_STAT code }

def Chip.session (s : Chip) : Bool := s.bit F.SVC_STAT_SESSION

/-- A request that needs a session.
[DEDUCED, unsafe: notes/assumptions/50] -/
def inSession (s : Chip) (f : Chip → SvcOut) : SvcOut := if s.session then f s else svcFault s 0xA5

/-- The session closes: DBGPAUSE clears, every halted core resumes, and source 81 is published (R551). -/
def Chip.svcEnd (s : Chip) : Chip :=
  if !s.session then s
  else
    let s1 := ((s.setBit F.SVC_STAT_SESSION false).setFld F.SVC_STAT_VER 0).setBit F.WDT_CTL_DBGPAUSE false
    (s1.onCores 7 (fun x => { x with halted := false })).occ 81

/-- The session closes, and Vole acts on it (R551, R578). -/
def Chip.svcClose (s : Chip) : Chip := if s.session then s.svcEnd.voleLeft else s

/-- The port answers: the chip has booted, is awake and not dead, and no request is lost.
[DEDUCED, unsafe: notes/assumptions/148] -/
def Chip.svcHears (s : Chip) : Bool := s.pwr.st = .run && !s.pwr.bootPending && s.boot.ph ≠ .dead && !s.svc.lost

/-- A second of AON-RC has run without an SVC_CK edge: the session closes (R551). -/
def Chip.svcTimeout (s : Chip) : Chip := if s.svc.edgeAt + secs 1 ≤ s.now then s.svcClose else s

/-- An answer, in version 2 with its check word. -/
def svcResponse (v2 : Bool) (req ack : Nat) (words : List Word) : List Word :=
  if ack = 1 && v2 then words ++ [checkWord req words] else words

/-- Perform a request: `req` is its word, `data` its data words and `chk` the check word after them; `late`
says that the first response bit is not ready at the end of the turnaround (R552).
[DEDUCED, unsafe: notes/assumptions/51] [DEDUCED, unsafe: notes/assumptions/52] -/
def Chip.svcDo (s : Chip) (late : Bool) (req : Nat) (data : List Word) (chk : Option Word) (f : Chip → SvcOut) : Chip :=
  let v2 := s.fld F.SVC_STAT_VER = 2
  let s0 := { s with svc := { s.svc with edgeAt := s.now, held := none } }
  let key := req :: data.map BitVec.toNat
  let out : SvcOut :=
    if v2 && chk ≠ some (checkWord req data) then svcFault s0 0xA2
    else match s.svc.held with
      | some (k, ack, ws) => if k = key then { ack := ack, words := ws, chip := s0 } else f s0
      | none => f s0
  let resp := svcResponse v2 req out.ack out.words
  let s1 := out.chip
  if late then { s1 with svc := { s1.svc with held := some (key, out.ack, out.words), ack := 2, resp := [] } }
  else { s1 with svc := { s1.svc with ack := out.ack, resp := resp } }

/-- A request arrives: in REST its first edge wakes the chip and it is lost; a port that does not hear it
answers nothing.
[DEDUCED, unsafe: notes/assumptions/52] -/
def Chip.svcRequest (s : Chip) (late : Bool) (req : Nat) (data : List Word) (chk : Option Word) (f : Chip → SvcOut) : Chip :=
  if s.svcWakes then
    let s1 := s.svcWakeEdge
    { s1 with svc := { s1.svc with lost := true, edgeAt := s1.now, ack := 0, resp := [] } }
  else if !s.svcHears then { s with svc := { s.svc with edgeAt := s.now, ack := 0, resp := [] } }
  else s.svcDo late req data chk f

/-- The request word. -/
def svcWord (op n addr : Nat) : Nat := op <<< 32 ||| (n - 1) <<< 24 ||| addr % 2 ^ 24

/-- OPEN.
[DEDUCED, unsafe: notes/assumptions/51] -/
def Chip.svcOpen (s : Chip) (hi lo : Nat) : SvcOut :=
  if hi < lo then let r := svcOk s [W Rc.RANGE]; { r with chip := r.chip.setReason R.SVC_STAT Rc.RANGE }
  else
    match agree (s.offer 2) (lo, hi) with
    | none => let r := svcOk s.svcClose [W Rc.VERSION]; { r with chip := r.chip.setReason R.SVC_STAT Rc.VERSION }
    | some v =>
      let s1 := if s.session then s else (s.setBit F.SVC_STAT_SESSION true).occ 81
      svcOk (s1.setFld F.SVC_STAT_VER v) [W (v <<< 8)]

/-- READ: words in turn, as the service port master.
[DEDUCED, unsafe: notes/assumptions/147] -/
def Chip.svcReads (s : Chip) : List Nat → Option (List Word) × Chip
  | [] => (some [], s)
  | a :: l =>
    match s.portRead .svc a with
    | (.error _, s1) => (none, s1)
    | (.ok w, s1) =>
      match s1.svcReads l with
      | (some ws, s2) => (some (w :: ws), s2)
      | (none, s2) => (none, s2)

/-- WRITE: words in turn; false at the first that has no target.
[DEDUCED, unsafe: notes/assumptions/147] -/
def Chip.svcWrites (s : Chip) : List (Nat × Word) → Bool × Chip
  | [] => (true, s)
  | (a, v) :: l => if mayWriteAt a then (s.portWrite .svc a v).svcWrites l else (false, s)

def Chip.svcRead (s : Chip) (n addr : Nat) : SvcOut :=
  inSession s fun s =>
    match s.svcReads (hostAddrs false addr n) with
    | (some ws, s1) => svcOk s1 ws
    | (none, s1) => svcFault s1 0xA3

def Chip.svcWrite (s : Chip) (addr : Nat) (words : List Word) : SvcOut :=
  inSession s fun s =>
    match s.svcWrites ((hostAddrs false addr words.length).zip words) with
    | (true, s1) => svcOk s1 []
    | (false, s1) => svcFault s1 0xA3

/-- A request on one halted core; 3 names none. -/
def onHalted (s : Chip) (core : Nat) (f : Core → SvcOut) : SvcOut :=
  inSession s fun s => if core < 3 && (s.core (Core.ofCid core)).stopped then f (Core.ofCid core) else svcFault s Rc.BUSY

/-- REGRD and REGWR of an undefined register, or a write of a read-only one, fault with RANGE, and of core 3 with BUSY.
[DEDUCED, unsafe: notes/assumptions/145] -/
def Chip.svcRegrd (s : Chip) (core reg : Nat) : SvcOut :=
  onHalted s core fun c =>
    match (s.core c).svcReg c reg with
    | some w => svcOk s [w]
    | none => svcFault s Rc.RANGE

def Chip.svcRegwr (s : Chip) (core reg : Nat) (v : Word) : SvcOut :=
  onHalted s core fun c =>
    match (s.core c).svcPutReg reg v with
    | some x => svcOk (s.setCore c x) []
    | none => svcFault s Rc.RANGE

/-- RESET: no response; the chip resets (R550, R551). -/
def Chip.svcResetReq (s : Chip) (addr : Nat) : SvcOut :=
  inSession s fun s =>
    if bitOf addr 0 then { ack := 0, words := [], chip := s.svcEnd.requestReset .svc } else svcFault s 0xA0

/-- A run of SVC_CK cycles with SVC_IO high: fifty or more discard a partial request (R549).
[DEDUCED, unsafe: notes/assumptions/148] -/
def Chip.svcLineReset (s : Chip) (cycles : Nat) : Chip :=
  let s1 := s.svcWakeEdge
  let awake := !s.svcWakes
  { s1 with svc := { s1.svc with edgeAt := s1.now, lost := if awake && 50 ≤ cycles then false else s1.svc.lost } }

end Sys2Proof.Machine
end

