-- ==== Sys2Proof/Machine/Access.lean ====
section
/-!
DEFINITION. The operations that commands share: a register access by an agent, a block's safe point, the
firing of a task, an edge at an input of a block, a bare request to the stamp unit.
-/
namespace Sys2Proof.Machine

/-! ### Register accesses (R8, R10 to R18, R25) -/

/-- The agent's instruction was fetched from ROM (R329). -/
def Chip.agentRom (s : Chip) : Agent → Bool
  | .foxA => s.cores.foxA.fromRom
  | .foxB => s.cores.foxB.fromRom
  | .badger => s.cores.badger.fromRom
  | _ => false

/-- Agent `ag` writes the register at `a`; an address that is no register takes nothing.
[DESIGN CHOICE, safe: notes/assumptions/76] -/
def Chip.regWrite (s : Chip) (ag : Agent) (a : Nat) (v : Word) : Chip := if isReg a then s.ioWrite ag (s.agentRom ag) a v else s

/-- Agent `ag` reads the register at `a`.
[DESIGN CHOICE, safe: notes/assumptions/76] -/
def Chip.regRead (s : Chip) (ag : Agent) (a : Nat) : Chip :=
  if isReg a then { (s.ioRead ag a).2 with rdata := (s.ioRead ag a).1 } else s

/-- Something numbered `n` of `size`; a larger number names nothing.
[DESIGN CHOICE, safe: notes/assumptions/75] -/
def Chip.ofIdx (s : Chip) (n size : Nat) (f : Chip → Chip) : Chip := if n < size then f s else s

/-- Register `n` of an array of `size`, at `a`.
[DESIGN CHOICE, safe: notes/assumptions/75] -/
def Chip.regWriteN (s : Chip) (ag : Agent) (n size a : Nat) (v : Word) : Chip := s.ofIdx n size (fun s => s.regWrite ag a v)
def Chip.regReadN (s : Chip) (ag : Agent) (n size a : Nat) : Chip := s.ofIdx n size (fun s => s.regRead ag a)

/-- A write that puts `v` into one field of a control register and leaves the others as they read. -/
def Chip.fldWrite (s : Chip) (ag : Agent) (f : Fld) (v : Nat) : Chip := s.regWrite ag f.addr (f.put (s.reg f.addr) v)

/-- The control register of a block that can be disabled (R12, R16). -/
def blockCtl : Block → Nat
  | .syn => R.SYN_CTL | .rfe => R.RFE_CTL | .cx => R.CX_CTL | .mdm => R.MDM_CTL
  | .lnk => R.LNK_CTL | .cph => R.CPH_CTL | .nfc => R.NFC_CTL | .hp => R.HP_CTL

/-- A block that was asked to stop is at its safe point: ACTIVE reads 0 (R16, R178, R203, R273, R378, R548).
[DEDUCED, unsafe: notes/assumptions/107] -/
def Chip.safePoint (s : Chip) (b : Block) : Chip :=
  if !s.stopping.contains b then s
  else match b with
    | .lnk => if s.boundaryFree then s.engineStop else s
    | .nfc => s.nfcSafe
    | .hp => if s.hcsLow then s else s.hpStop
    | .cph => s.cphSafe
    | .cx => s.blockStopped .cx
    | b => if s.radioIdle then s.blockStopped b else s

/-- A write of EGY_SWCLMn, for the software claimants 13 to 15 (R129). -/
def Chip.swClaimWrite (s : Chip) (ag : Agent) (n : Nat) (v : Word) : Chip :=
  if 13 ≤ n ∧ n ≤ 15 then s.regWrite ag (R.EGY_SWCLM n) v else s

/-- A read of a mode's failure counts: 1 long sweep, 2 chirp multiplex, 3 SUN-FSK (R198). -/
def Chip.mdmCountRead (s : Chip) (ag : Agent) (mm : Nat) : Chip := if 1 ≤ mm ∧ mm ≤ 3 then s.regRead ag (cntReg mm) else s

/-- An access to a register of another user's cipher page: it reads 0 (R340). -/
def Chip.foreignAccess (s : Chip) (ag : Agent) (u off : Nat) : Chip :=
  if ownsPage ag u then s else s.regReadN ag u 4 (R.CPH_UCMD u + off % 16)

/-- A write of FLC_CMD: OP and ADDR (R508). -/
def Chip.flcOrder (s : Chip) (ag : Agent) (op a : Nat) : Chip := s.regWrite ag R.FLC_CMD (W (op <<< 32 ||| a % 2 ^ 24))

/-! ### The stamp unit (R32) -/

/-- A stamp request arrives for an item whose reference instant lies `ago` HF-REF periods back, or ahead where
`ago` is negative; an event's reference instant is its arrival. -/
def Chip.stampRequest (s : Chip) (item : StampItem) (ago : Int) : Chip :=
  let t : Nat := if item = .event then s.now else ((s.now : Int) - ago).toNat
  let (p, s1) := s.stamp t
  { s1 with stamped := some (item, p) }

/-! ### Bear (R121, R122, R132, R135) -/

/-- A deferred claim's earliest start: admission runs again. -/
def Chip.reexamine (s : Chip) (n : Nat) : Chip := if (s.claimOf n).isSome then s.admission else s

/-- Each second of a warning the held claims are examined. -/
def Chip.warningRecheck (s : Chip) : Chip := if s.warnHold then s.admission else s

/-- MEASINT minutes have passed; in a rest state the measurement waits for the next wake. -/
def Chip.measInterval (s : Chip) : Chip :=
  let s1 := s.setBear { s.bear with nextMeas := some (s.now + secs (60 * s.fld F.EGY_CFG_MEASINT)), measDue := true }
  if s1.pwr.st = .run then s1.measStart else s1

/-- The measurement in progress completes.
[DESIGN CHOICE, safe: notes/assumptions/79] -/
def Chip.measResult (s : Chip) (m : SupplyMeas) : Chip :=
  if !s.bear.measuring then s
  else if s.pwr.bootPending && s.pwr.bootHeld then (s.measDone m).bootSupply
  else s.measDone m

/-- A measurement that failed or came out low, or found too little for the ROM, is repeated, when LEVEL allows it
(R121, R122, R124, R126). -/
def Chip.measRetry (s : Chip) : Chip :=
  if s.bear.retryAt.isSome then (s.setBear { s.bear with retryAt := none }).measFallsDue else s

/-- A slot boundary of some class falls now. -/
def Chip.atBoundary (s : Chip) : Bool :=
  s.lnk.running && (List.range 4).any (fun c =>
    let n := s.lnk.nextB.getD c 0
    s.boundaryAt c n = s.now || (0 < n && s.boundaryAt c (n - 1) = s.now))

/-- Claimant `n` is at its safe point (R128). -/
def Chip.claimantSafe (s : Chip) (n : Nat) : Bool :=
  match n with
  | 0 => true
  | 1 => true
  | 2 => s.atBoundary && s.pins.windows = 0
  | 3 => !s.lnk.live.any (fun l => l.win.any (fun w => w.st ≠ .done && w.st ≠ .handed))
  | 5 => s.syn.stepEnd.isNone
  | 6 => !s.flc.pulsing
  | 7 => s.readerSafe
  | 8 => (s.grantOf 8).any (fun g => g.fin ≤ s.now + us 10)
  | 9 => s.cph.cur.isNone
  | 10 => !s.hcsLow
  | _ => false

/-- A marked grant stops, at its claimant's safe point. -/
def Chip.preemptAt (s : Chip) (n : Nat) : Chip := if s.claimantSafe n then s.preemptStop n else s

/-! ### Interrupts, events and tasks (R416, R422, R424, R428, R429) -/

/-- The request of a level source has fallen while it is PENDING. -/
def Chip.levelFall (s : Chip) (n : Nat) : Chip :=
  if 1 ≤ n ∧ n ≤ 95 ∧ s.fld (F.ICU_SRC_TRIG n) = 0 ∧ s.fld (F.ICU_SRC_STATE n) = 1 ∧ !s.levelReq n then s.withdraw n else s

/-- The coalescing delay of a source for a target has run out. -/
def Chip.coalExpiry (s : Chip) (t n : Nat) : Chip :=
  if s.presented t n ∧ !s.icu.ripe.contains (t, n) ∧ s.icu.since.any (fun p => p.1 = n ∧ p.2 + us (s.fld (F.ICU_MOD_COAL t)) ≤ s.icu.ran) then { s with icu := { s.icu with ripe := (t, n) :: s.icu.ripe } } else s

/-- An edge at EVT_INk. -/
def Chip.evtInEdge (s : Chip) (k : Nat) (rise : Bool) : Chip :=
  s.ofIdx k 8 (fun s => s.inputEdge (Mean.EVT_IN k) rise (fun s => s.publish ((if rise then 96 else 104) + k)))

/-- A task's command to a block whose status register is `stat`: its refusal sets DROP and TASK_REFUSED. A block
that posts no outcome keeps its REASON.
[DEDUCED, unsafe: notes/assumptions/73] -/
def Chip.taskCmd (s : Chip) (t stat : Nat) (f : Chip → Chip) : Chip :=
  let s1 := f (s.setReason stat Rc.OK)
  if s1.fld ⟨stat, 7, 0⟩ = Rc.OK then f s
  else (((f s).setReason stat (s1.fld ⟨stat, 7, 0⟩)).setBit (F.EVR_TSTAT_DROP t) true).setReason R.EVR_STAT 0x91

/-- What task `t` does.
[DEDUCED, unsafe: notes/assumptions/73] -/
def Chip.taskAction (s : Chip) (t : Nat) : Chip :=
  let ag := Agent.ofCode (s.fld (F.EVR_TSUB_OWNER t))
  if t < 8 then s.occ (83 + t)
  else if t < 16 then { s with pins := { s.pins with latch := { s.pins.latch with
    evtOut := putBit s.pins.latch.evtOut (t - 8) (!bitOf s.pins.latch.evtOut (t - 8)) } } }
  else if t < 24 then s.captureTask (t - 16)
  else match t with
    | 24 => s.taskCmd t R.NFC_STAT (fun s => s.regWrite ag R.NFC_CMD (F.NFC_CMD_POLL.put 0 1))
    | 25 => s.taskCmd t R.EGY_STAT (fun s => s.regWrite ag R.EGY_CTL (F.EGY_CTL_MEAS.put 0 1))
    | 26 => s.taskCmd t R.MON_STAT (fun s => s.regWrite ag R.MON_CTL (F.MON_CTL_REPLAN.put 0 1))
    | 27 => s.taskCmd t R.SYN_STAT (fun s => s.regWrite ag R.SYN_CMD (F.SYN_CMD_CAL.put 0 1))
    | 28 => s.taskCmd t R.RFE_STAT (fun s => s.regWrite ag R.RFE_CMD (F.RFE_CMD_BGCAL.put 0 1))
    | _ => s

/-- Task `t`, which pulses of the cycle before reached, fires: the oldest firing that has come. -/
def Chip.taskFire (s : Chip) (t : Nat) : Chip :=
  match s.evr.fire.find? (fun p => p.1 = t && p.2.1 ≤ s.now) with
  | none => s
  | some (_, k, both) =>
    let s1 := { s with evr := { s.evr with fire := s.evr.fire.filter (fun p => p.1 ≠ t || p.2.1 ≠ k) } }
    let s2 := if both then (s1.setBit (F.EVR_TSTAT_COIN t) true).count (F.EVR_TSTAT_COINCNT t) else s1
    s2.taskAction t

/-! ### Ports (R538, R543, R550, R553) -/

/-- A transfer whose command word's bits 35 to 28 are `cmd`: 0xA5 is OFFER, and this row stands also for a
command word that names no operation.
[DESIGN CHOICE, safe: notes/assumptions/77] -/
def Chip.hostOfferCmd (s : Chip) (cmd hi lo : Nat) : Chip :=
  if cmd = 0xA5 then s.hostOffer hi lo else s.transfer Chip.badCmd

def Chip.svcHaltReq (s : Chip) (mask : Nat) : SvcOut := inSession s fun s => svcOk (s.onCores mask CoreSt.halt) []
def Chip.svcRunReq (s : Chip) (mask : Nat) : SvcOut :=
  inSession s fun s => svcOk (s.onCores mask (fun x => { x with halted := false })) []
def Chip.svcStepReq (s : Chip) (core : Nat) : SvcOut := onHalted s core fun c => svcOk (s.svcStepCore c) []
def Chip.svcCloseReq (s : Chip) : SvcOut := inSession s fun s => svcOk s.svcClose []

/-- STATUS is OP 0xA; this row stands also for the OP codes above it, which name no request.
[DEDUCED, unsafe: notes/assumptions/50] [DESIGN CHOICE, safe: notes/assumptions/77] -/
def Chip.svcStatusReq (s : Chip) (op : Nat) : SvcOut :=
  inSession s fun s => if op = 10 then svcOk s [s.svcStatView] else svcFault s 0xA0

end Sys2Proof.Machine
end

