-- ==== Sys2Proof/Machine/CmdAccess.lean ====
section
/-!
DEFINITION. Register accesses with no row of their own, and blocks that stop: the meanings of their commands, one definition for each.
-/
namespace Sys2Proof.Machine

/-- REGISTER_WRITE (R10). -/
def execRegisterWrite (ag : Agent) (addr : Nat) (v : Word) (s : State) : Host.Outcome State Fault Refusal := run (fun ch => ch.regWrite ag addr v) s
/-- BLOCK_DISABLE (R16). -/
def execBlockDisable (ag : Agent) (b : Block) (s : State) : Host.Outcome State Fault Refusal := run (fun ch => ch.fldWrite ag ⟨blockCtl b, 0, 0⟩ 0) s
/-- BLOCK_SAFE_POINT_STOP (R16). -/
def execBlockSafePointStop (b : Block) (s : State) : Host.Outcome State Fault Refusal := run (fun ch => ch.safePoint b) s

end Sys2Proof.Machine
end

