-- ==== Sys2Proof/Machine/CmdBear.lean ====
section
/-!
DEFINITION. Energy accounting and the health monitor: the meanings of their commands, one definition for each.
-/
namespace Sys2Proof.Machine

/-- BEAR_CLAIM (R132). -/
def execBearClaim (n power dur : Nat) (ms : Bool) (minP : Option Nat) (deadline : Option Nat) (s : State) : Host.Outcome State Fault Refusal := run (fun ch => ch.ofIdx n 16 (fun s => s.claim n power dur ms minP (deadline.map (fun d => s.now + d)))) s
/-- EARLIEST_START_REACHED (R132). -/
def execEarliestStartReached (n : Nat) (s : State) : Host.Outcome State Fault Refusal := run (fun ch => ch.reexamine n) s
/-- CLAIM_RELEASE (R131). -/
def execClaimRelease (n : Nat) (s : State) : Host.Outcome State Fault Refusal := run (fun ch => ch.release n) s
/-- BURST_GRANT_END (R131). -/
def execBurstGrantEnd (n : Nat) (s : State) : Host.Outcome State Fault Refusal := run (fun ch => ch.burstEnd n) s
/-- PREEMPTED_STOP (R134). -/
def execPreemptedStop (n : Nat) (s : State) : Host.Outcome State Fault Refusal := run (fun ch => ch.preemptAt n) s
/-- CLAIM_DEADLINE_PASSED (R135). -/
def execClaimDeadlinePassed (n : Nat) (s : State) : Host.Outcome State Fault Refusal := run (fun ch => ch.deadlinePassed n) s
/-- WARNING_HOLD_RECHECK (R135). -/
def execWarningHoldRecheck (s : State) : Host.Outcome State Fault Refusal := run (fun ch => ch.warningRecheck) s
/-- VSYS_SAMPLE (R119). -/
def execVsysSample (uV : Nat) (s : State) : Host.Outcome State Fault Refusal := run (fun ch => ch.vsysSample uV) s
/-- MEAS_INTERVAL_EXPIRY (R121). -/
def execMeasIntervalExpiry (s : State) : Host.Outcome State Fault Refusal := run (fun ch => ch.measInterval) s
/-- EGY_MEAS_CMD (R121). -/
def execEgyMeasCmd (ag : Agent) (s : State) : Host.Outcome State Fault Refusal := run (fun ch => ch.regWrite ag R.EGY_CTL (F.EGY_CTL_MEAS.put 0 1)) s
/-- MEASUREMENT_START (R121). -/
def execMeasurementStart (s : State) : Host.Outcome State Fault Refusal := run (fun ch => ch.measStart) s
/-- MEASUREMENT_DONE (R122). -/
def execMeasurementDone (m : SupplyMeas) (s : State) : Host.Outcome State Fault Refusal := run (fun ch => ch.measResult m) s
/-- MEASUREMENT_RETRY (R122). -/
def execMeasurementRetry (s : State) : Host.Outcome State Fault Refusal := run (fun ch => ch.measRetry) s
/-- EGY_RESP_WRITE (R137). -/
def execEgyRespWrite (ag : Agent) (v : Word) (s : State) : Host.Outcome State Fault Refusal := run (fun ch => ch.regWrite ag R.EGY_RESP v) s
/-- EGY_RESC_WRITE (R136). -/
def execEgyRescWrite (ag : Agent) (v : Word) (s : State) : Host.Outcome State Fault Refusal := run (fun ch => ch.regWrite ag R.EGY_RESC v) s
/-- EGY_RESST_READ (R139). -/
def execEgyResstRead (ag : Agent) (s : State) : Host.Outcome State Fault Refusal := run (fun ch => ch.regRead ag R.EGY_RESST) s
/-- RESERVATION_EXPIRY (R139). -/
def execReservationExpiry (i : Nat) (s : State) : Host.Outcome State Fault Refusal := run (fun ch => ch.expireResv i) s
/-- EGY_DECL_WRITE (R150). -/
def execEgyDeclWrite (ag : Agent) (n : Nat) (v : Word) (s : State) : Host.Outcome State Fault Refusal := run (fun ch => ch.regWriteN ag n 16 (R.EGY_DECL n) v) s
/-- SW_CLAIM (R129). -/
def execSwClaim (ag : Agent) (n : Nat) (v : Word) (s : State) : Host.Outcome State Fault Refusal := run (fun ch => ch.swClaimWrite ag n v) s
/-- SW_CLAIM_RELEASE (R129). -/
def execSwClaimRelease (ag : Agent) (n : Nat) (s : State) : Host.Outcome State Fault Refusal := run (fun ch => ch.swClaimWrite ag n 0) s
/-- TEMP_SAMPLE (R142). -/
def execTempSample (t : Int) (s : State) : Host.Outcome State Fault Refusal := run (fun ch => ch.tempSample t) s
/-- REPLAN_DUE (R65). -/
def execReplanDue (s : State) : Host.Outcome State Fault Refusal := run (fun ch => ch.replanDue) s
/-- MON_REPLAN_CMD (R149). -/
def execMonReplanCmd (ag : Agent) (s : State) : Host.Outcome State Fault Refusal := run (fun ch => ch.regWrite ag R.MON_CTL (F.MON_CTL_REPLAN.put 0 1)) s
/-- REPLAN_DONE (R146). -/
def execReplanDone (s : State) : Host.Outcome State Fault Refusal := run (fun ch => ch.replanDone) s
/-- RING_MEASURE (R145). -/
def execRingMeasure (counts : List Nat) (s : State) : Host.Outcome State Fault Refusal := run (fun ch => ch.ringMeasure counts) s
/-- HF_LF_MEASURE (R144). -/
def execHfLfMeasure (cycles : Nat) (s : State) : Host.Outcome State Fault Refusal := run (fun ch => ch.hfLfMeasure cycles) s

end Sys2Proof.Machine
end

