-- ==== Sys2Proof/Machine/CmdCipher.lean ====
section
/-!
DEFINITION. The cipher engine and the key store: the meanings of their commands, one definition for each.
-/
namespace Sys2Proof.Machine

/-- CPH_ENABLE (R348). -/
def execCphEnable (ag : Agent) (s : State) : Host.Outcome State Fault Refusal := run (fun ch => ch.fldWrite ag F.CPH_CTL_EN 1) s
/-- CPH_GO (R343). -/
def execCphGo (ag : Agent) (u : Nat) (s : State) : Host.Outcome State Fault Refusal := run (fun ch => ch.regWriteN ag u 4 (R.CPH_UGO u) 1#36) s
/-- CPH_ABORT (R346). -/
def execCphAbort (ag : Agent) (u : Nat) (s : State) : Host.Outcome State Fault Refusal := run (fun ch => ch.regWriteN ag u 4 (R.CPH_UGO u) 2#36) s
/-- CIPHER_OP_DONE (R347). -/
def execCipherOpDone (u : Nat) (mismatch : Bool) (s : State) : Host.Outcome State Fault Refusal := run (fun ch => ch.cipherOpDone u mismatch) s
/-- CIPHER_PAGE_FOREIGN (R340). -/
def execCipherPageForeign (ag : Agent) (u : Nat) (off : Nat) (s : State) : Host.Outcome State Fault Refusal := run (fun ch => ch.foreignAccess ag u off) s
/-- CPH_STAT_READ (R10). -/
def execCphStatRead (ag : Agent) (s : State) : Host.Outcome State Fault Refusal := run (fun ch => ch.regRead ag R.CPH_STAT) s
/-- KST_ATTR_WRITE (R349). -/
def execKstAttrWrite (ag : Agent) (slot : Nat) (v : Word) (s : State) : Host.Outcome State Fault Refusal := run (fun ch => ch.regWriteN ag slot 16 (R.KST_ATTR slot) v) s

end Sys2Proof.Machine
end

