-- ==== Sys2Proof/Machine/CmdEvent.lean ====
section
/-!
DEFINITION. Interrupts and events: the meanings of their commands, one definition for each.
-/
namespace Sys2Proof.Machine

/-- ICU_CLAIM_READ (R416). -/
def execIcuClaimRead (ag : Agent) (t : Nat) (s : State) : Host.Outcome State Fault Refusal := run (fun ch => ch.regReadN ag t 4 (R.ICU_CLAIM t)) s
/-- ICU_DONE_WRITE (R418). -/
def execIcuDoneWrite (ag : Agent) (t : Nat) (v : Word) (s : State) : Host.Outcome State Fault Refusal := run (fun ch => ch.regWriteN ag t 4 (R.ICU_DONE t) v) s
/-- ICU_SRC_WRITE (R419). -/
def execIcuSrcWrite (ag : Agent) (n : Nat) (v : Word) (s : State) : Host.Outcome State Fault Refusal := run (fun ch => ch.regWriteN ag n 96 (R.ICU_SRC n) v) s
/-- ICU_SWSET_WRITE (R413). -/
def execIcuSwsetWrite (ag : Agent) (v : Word) (s : State) : Host.Outcome State Fault Refusal := run (fun ch => ch.regWrite ag R.ICU_SWSET v) s
/-- LEVEL_REQUEST_FALL (R416). -/
def execLevelRequestFall (n : Nat) (s : State) : Host.Outcome State Fault Refusal := run (fun ch => ch.levelFall n) s
/-- COAL_EXPIRY (R422). -/
def execCoalExpiry (t n : Nat) (s : State) : Host.Outcome State Fault Refusal := run (fun ch => ch.coalExpiry t n) s
/-- EVR_CH_WRITE (R433). -/
def execEvrChWrite (ag : Agent) (c : Nat) (v : Word) (s : State) : Host.Outcome State Fault Refusal := run (fun ch => ch.regWriteN ag c 40 (R.EVR_CH c) v) s
/-- EVR_TSUB_WRITE (R431). -/
def execEvrTsubWrite (ag : Agent) (t : Nat) (v : Word) (s : State) : Host.Outcome State Fault Refusal := run (fun ch => ch.regWriteN ag t 32 (R.EVR_TSUB t) v) s
/-- EVR_SWPUB_WRITE (R427). -/
def execEvrSwpubWrite (ag : Agent) (v : Word) (s : State) : Host.Outcome State Fault Refusal := run (fun ch => ch.regWrite ag R.EVR_SWPUB v) s
/-- TASK_FIRE (R428). -/
def execTaskFire (t : Nat) (s : State) : Host.Outcome State Fault Refusal := run (fun ch => ch.taskFire t) s
/-- EVR_STAT_READ (R436). -/
def execEvrStatRead (ag : Agent) (s : State) : Host.Outcome State Fault Refusal := run (fun ch => ch.regRead ag R.EVR_STAT) s
/-- EVR_TSTAT_READ (R429). -/
def execEvrTstatRead (ag : Agent) (t : Nat) (s : State) : Host.Outcome State Fault Refusal := run (fun ch => ch.regReadN ag t 32 (R.EVR_TSTAT t)) s
/-- EVT_IN_EDGE (R425). -/
def execEvtInEdge (k : Nat) (rise : Bool) (s : State) : Host.Outcome State Fault Refusal := run (fun ch => ch.evtInEdge k rise) s

end Sys2Proof.Machine
end

