-- ==== Sys2Proof/Machine/CmdFlash.lean ====
section
/-!
DEFINITION. Flash and OTP: the meanings of their commands, one definition for each.
-/
namespace Sys2Proof.Machine

/-- FLC_PROGRAM (R512). -/
def execFlcProgram (ag : Agent) (addr : Nat) (s : State) : Host.Outcome State Fault Refusal := run (fun ch => ch.flcOrder ag 1 addr) s
/-- FLC_ERASE (R513). -/
def execFlcErase (ag : Agent) (addr : Nat) (s : State) : Host.Outcome State Fault Refusal := run (fun ch => ch.flcOrder ag 2 addr) s
/-- SQOPEN (R522). -/
def execSqopen (ag : Agent) (sect : Nat) (s : State) : Host.Outcome State Fault Refusal := run (fun ch => ch.flcOrder ag 3 sect) s
/-- SQCOMMIT (R523). -/
def execSqcommit (ag : Agent) (sect : Nat) (s : State) : Host.Outcome State Fault Refusal := run (fun ch => ch.flcOrder ag 4 sect) s
/-- SQABANDON (R523). -/
def execSqabandon (ag : Agent) (sect : Nat) (s : State) : Host.Outcome State Fault Refusal := run (fun ch => ch.flcOrder ag 5 sect) s
/-- SQLEVEL (R524). -/
def execSqlevel (ag : Agent) (s : State) : Host.Outcome State Fault Refusal := run (fun ch => ch.flcOrder ag 6 0) s
/-- PROTERASE (R531). -/
def execProterase (ag : Agent) (s : State) : Host.Outcome State Fault Refusal := run (fun ch => ch.flcOrder ag 7 0) s
/-- PROTPROG (R531). -/
def execProtprog (ag : Agent) (w : Nat) (s : State) : Host.Outcome State Fault Refusal := run (fun ch => ch.flcOrder ag 8 w) s
/-- PROGRAM_PULSE_END (R512). -/
def execProgramPulseEnd (verified : Bool) (s : State) : Host.Outcome State Fault Refusal := run (fun ch => ch.programPulseEnd verified) s
/-- ERASE_PULSE_END (R513). -/
def execErasePulseEnd (verified : Bool) (s : State) : Host.Outcome State Fault Refusal := run (fun ch => ch.erasePulseEnd verified) s
/-- SQUIRREL_ENABLE (R521). -/
def execSquirrelEnable (ag : Agent) (s : State) : Host.Outcome State Fault Refusal := run (fun ch => ch.fldWrite ag F.FLC_CTL_SQEN 1) s
/-- FLC_PWD1_WRITE (R529). -/
def execFlcPwd1Write (ag : Agent) (v : Word) (s : State) : Host.Outcome State Fault Refusal := run (fun ch => ch.regWrite ag R.FLC_PWD1 v) s
/-- FLC_ECC_READ (R507). -/
def execFlcEccRead (ag : Agent) (s : State) : Host.Outcome State Fault Refusal := run (fun ch => ch.regRead ag R.FLC_ECC) s
/-- OTP_PROG (R533). -/
def execOtpProg (ag : Agent) (s : State) : Host.Outcome State Fault Refusal := run (fun ch => ch.regWrite ag R.OTP_CMD (F.OTP_CMD_PROG.put 0 1)) s
/-- OTP_PULSE_END (R533). -/
def execOtpPulseEnd (verified : Bool) (s : State) : Host.Outcome State Fault Refusal := run (fun ch => ch.otpPulseEnd verified) s

end Sys2Proof.Machine
end

