-- ==== Sys2Proof/Machine/CmdHost.lean ====
section
/-!
DEFINITION. The host port: the meanings of their commands, one definition for each.
-/
namespace Sys2Proof.Machine

/-- HP_ENABLE (R548). -/
def execHpEnable (ag : Agent) (s : State) : Host.Outcome State Fault Refusal := run (fun ch => ch.fldWrite ag F.HP_CTL_EN 1) s
/-- HOST_READ (R539). -/
def execHostRead (n addr clocked : Nat) (s : State) : Host.Outcome State Fault Refusal := run (fun ch => ch.hostRead false n addr clocked) s
/-- HOST_READF (R538). -/
def execHostReadf (n addr clocked : Nat) (s : State) : Host.Outcome State Fault Refusal := run (fun ch => ch.hostRead true n addr clocked) s
/-- HOST_WRITE (R541). -/
def execHostWrite (n addr : Nat) (words : List Word) (s : State) : Host.Outcome State Fault Refusal := run (fun ch => ch.hostWrite false n addr words) s
/-- HOST_WRITEF (R541). -/
def execHostWritef (n addr : Nat) (words : List Word) (s : State) : Host.Outcome State Fault Refusal := run (fun ch => ch.hostWrite true n addr words) s
/-- HOST_OFFER (R544). -/
def execHostOffer (cmd hi lo : Nat) (s : State) : Host.Outcome State Fault Refusal := run (fun ch => ch.hostOfferCmd cmd hi lo) s
/-- HOST_V1_READ (R545). -/
def execHostV1Read (addr clocked : Nat) (s : State) : Host.Outcome State Fault Refusal := run (fun ch => ch.hostV1Read addr clocked) s
/-- HOST_V1_WRITE (R545). -/
def execHostV1Write (addr : Nat) (words : List Word) (s : State) : Host.Outcome State Fault Refusal := run (fun ch => ch.hostV1Write addr words) s
/-- HOST_FETCH_DONE (R540). -/
def execHostFetchDone (s : State) : Host.Outcome State Fault Refusal := run (fun ch => ch.hostFetchDone) s
/-- HOST_POSTED_WRITE (R541). -/
def execHostPostedWrite (s : State) : Host.Outcome State Fault Refusal := run (fun ch => ch.hostPostedWrite) s
/-- HP_DBELL_WRITE (R547). -/
def execHpDbellWrite (v : Word) (s : State) : Host.Outcome State Fault Refusal := run (fun ch => ch.regWrite .host R.HP_DBELL v) s
/-- HP_CNT_READ (R10). -/
def execHpCntRead (ag : Agent) (s : State) : Host.Outcome State Fault Refusal := run (fun ch => ch.regRead ag R.HP_CNT) s

end Sys2Proof.Machine
end

