-- ==== Sys2Proof/Machine/CmdLink.lean ====
section
/-!
DEFINITION. The link controller: the meanings of their commands, one definition for each.
-/
namespace Sys2Proof.Machine

/-- SLOT_BOUNDARY (R236). -/
def execSlotBoundary (c : Nat) (s : State) : Host.Outcome State Fault Refusal := run (fun ch => ch.ofIdx c 4 (fun s => s.slotBoundary c)) s
/-- CELL_CHOICE (R243). -/
def execCellChoice (c : Nat) (s : State) : Host.Outcome State Fault Refusal := run (fun ch => ch.ofIdx c 4 (fun s => s.cellChoice c)) s
/-- CELL_PREP_START (R248). -/
def execCellPrepStart (c : Nat) (s : State) : Host.Outcome State Fault Refusal := run (fun ch => ch.ofIdx c 4 (fun s => s.cellPrepStart c)) s
/-- RX_WINDOW_OPEN (R249). -/
def execRxWindowOpen (gnt : Bool) (s : State) : Host.Outcome State Fault Refusal := run (fun ch => ch.rxWindowOpen gnt) s
/-- RX_WINDOW_CLOSE (R199). -/
def execRxWindowClose (s : State) : Host.Outcome State Fault Refusal := run (fun ch => ch.windowClose false) s
/-- TX_END (R250). -/
def execTxEnd (s : State) : Host.Outcome State Fault Refusal := run (fun ch => ch.txEndStep) s
/-- ACK_CLAIM (R253). -/
def execAckClaim (s : State) : Host.Outcome State Fault Refusal := run (fun ch => ch.ackClaim) s
/-- ACK_TX_START (R253). -/
def execAckTxStart (gnt : Bool) (s : State) : Host.Outcome State Fault Refusal := run (fun ch => ch.ackTxStart gnt) s
/-- ACK_TX_END (R250). -/
def execAckTxEnd (s : State) : Host.Outcome State Fault Refusal := run (fun ch => ch.ackTxEnd) s
/-- ACK_WINDOW_OPEN (R254). -/
def execAckWindowOpen (gnt : Bool) (s : State) : Host.Outcome State Fault Refusal := run (fun ch => ch.ackWindowOpen gnt) s
/-- ACK_RECEIVED (R255). -/
def execAckReceived (s : State) : Host.Outcome State Fault Refusal := run (fun ch => ch.ackDecision) s
/-- ACK_WINDOW_CLOSE (R255). -/
def execAckWindowClose (s : State) : Host.Outcome State Fault Refusal := run (fun ch => ch.windowClose true) s
/-- DESYNC_TIMEOUT (R258). -/
def execDesyncTimeout (s : State) : Host.Outcome State Fault Refusal := run (fun ch => ch.desyncTimeout) s
/-- BOOK_TX_ENTRY (R261). -/
def execBookTxEntry (q : Nat) (s : State) : Host.Outcome State Fault Refusal := run (fun ch => ch.bookTx q) s
/-- BOOK_RX_CELL (R262). -/
def execBookRxCell (n : Nat) (s : State) : Host.Outcome State Fault Refusal := run (fun ch => ch.bookRx n) s
/-- LNK_ENABLE (R272). -/
def execLnkEnable (ag : Agent) (s : State) : Host.Outcome State Fault Refusal := run (fun ch => ch.fldWrite ag F.LNK_CTL_EN 1) s
/-- LNK_DISABLE (R273). -/
def execLnkDisable (ag : Agent) (s : State) : Host.Outcome State Fault Refusal := run (fun ch => ch.fldWrite ag F.LNK_CTL_EN 0) s
/-- LNK_SF_WRITE (R272). -/
def execLnkSfWrite (ag : Agent) (f : Nat) (v : Word) (s : State) : Host.Outcome State Fault Refusal := run (fun ch => ch.regWriteN ag f 8 (R.LNK_SF f) v) s
/-- LNK_CELL_WRITE (R241). -/
def execLnkCellWrite (ag : Agent) (n : Nat) (k : Nat) (v : Word) (s : State) : Host.Outcome State Fault Refusal := run (fun ch => ch.regWriteN ag (2 * n + k % 2) 2048 (R.LNK_CELL_0 0 + (2 * n + k % 2)) v) s
/-- LNK_CH_WRITE (R242). -/
def execLnkChWrite (ag : Agent) (k : Nat) (v : Word) (s : State) : Host.Outcome State Fault Refusal := run (fun ch => ch.regWriteN ag k 64 (R.LNK_CH k) v) s
/-- LNK_CLS_START_WRITE (R237). -/
def execLnkClsStartWrite (ag : Agent) (c : Nat) (v : Word) (s : State) : Host.Outcome State Fault Refusal := run (fun ch => ch.regWriteN ag c 4 (R.LNK_CLS_START c) v) s
/-- LNK_ASNLO_READ (R237). -/
def execLnkAsnloRead (ag : Agent) (c : Nat) (s : State) : Host.Outcome State Fault Refusal := run (fun ch => ch.regReadN ag c 4 (R.LNK_CLS_ASNLO c)) s
/-- LNK_NBR_WRITE (R240). -/
def execLnkNbrWrite (ag : Agent) (n : Nat) (v : Word) (s : State) : Host.Outcome State Fault Refusal := run (fun ch => ch.regWriteN ag n 64 (R.LNK_NBR_0 n) v) s
/-- LNK_TADJ_WRITE (R257). -/
def execLnkTadjWrite (ag : Agent) (v : Word) (s : State) : Host.Outcome State Fault Refusal := run (fun ch => ch.regWrite ag R.LNK_TADJ v) s
/-- LNK_CNT_READ (R10). -/
def execLnkCntRead (ag : Agent) (s : State) : Host.Outcome State Fault Refusal := run (fun ch => ch.regRead ag R.LNK_CNT) s

end Sys2Proof.Machine
end

