-- ==== Sys2Proof/Machine/CmdMesh.lean ====
section
/-!
DEFINITION. The mesh layer: the meanings of their commands, one definition for each.
-/
namespace Sys2Proof.Machine

/-- BEACON_RECEIVED (R300). -/
def execBeaconReceived (f : List Byte) (lo fine lqi : Nat) (s : State) : Host.Outcome State Fault Refusal := run (fun ch => ch.beaconReceived f lo fine lqi) s
/-- BEACON_COLLECT_END (R301). -/
def execBeaconCollectEnd (s : State) : Host.Outcome State Fault Refusal := run (fun ch => ch.collectEnd) s
/-- JOIN_WAIT_TIMEOUT (R301). -/
def execJoinWaitTimeout (s : State) : Host.Outcome State Fault Refusal := run (fun ch => ch.joinTimeout) s
/-- JOIN_REQUEST_RECEIVED (R302). -/
def execJoinRequestReceived (f : List Byte) (lqi : Nat) (s : State) : Host.Outcome State Fault Refusal := run (fun ch => ch.requestReceived f lqi) s
/-- JOIN_RELAY_RECEIVED (R303). -/
def execJoinRelayReceived (parent : Nat) (body : List Byte) (s : State) : Host.Outcome State Fault Refusal := run (fun ch => ch.relayReceived parent body) s
/-- JOIN_RESPONSE_RECEIVED (R304). -/
def execJoinResponseReceived (body : List Byte) (s : State) : Host.Outcome State Fault Refusal := run (fun ch => ch.responseReceived body) s
/-- JOIN_DELIVER_RECEIVED (R304). -/
def execJoinDeliverReceived (f : MeshRx) (s : State) : Host.Outcome State Fault Refusal := run (fun ch => ch.deliverReceived f) s
/-- HELLO_RECEIVED (R294). -/
def execHelloReceived (f : List Byte) (lqi : Nat) (s : State) : Host.Outcome State Fault Refusal := run (fun ch => ch.helloReceived f lqi) s
/-- ADVERT_RECEIVED (R312). -/
def execAdvertReceived (orig : Nat) (body : List Byte) (s : State) : Host.Outcome State Fault Refusal := run (fun ch => ch.advertReceived orig body) s
/-- ADVERT_INTERVAL (R307). -/
def execAdvertInterval (s : State) : Host.Outcome State Fault Refusal := run (fun ch => ch.advertInterval) s
/-- PARENT_BEACON_TIMEOUT (R307). -/
def execParentBeaconTimeout (a : Nat) (s : State) : Host.Outcome State Fault Refusal := run (fun ch => ch.dropParent a) s
/-- CHILD_TIMEOUT (R309). -/
def execChildTimeout (a : Nat) (s : State) : Host.Outcome State Fault Refusal := run (fun ch => ch.childTimeout a) s
/-- ROUTE_ENTRY_EXPIRY (R312). -/
def execRouteEntryExpiry (a : Nat) (s : State) : Host.Outcome State Fault Refusal := run (fun ch => ch.routeExpiry a) s
/-- UP_FRAME_RECEIVED (R310). -/
def execUpFrameReceived (f : List Byte) (lqi : Nat) (s : State) : Host.Outcome State Fault Refusal := run (fun ch => ch.upReceived f lqi) s
/-- DOWN_FRAME_RECEIVED (R314). -/
def execDownFrameReceived (f : List Byte) (lqi : Nat) (s : State) : Host.Outcome State Fault Refusal := run (fun ch => ch.downReceived f lqi) s
/-- ROOT_SEND_DOWN (R313). -/
def execRootSendDown (dest ty : Nat) (jt : Option Nat) (body : List Byte) (s : State) : Host.Outcome State Fault Refusal := run (fun ch => ch.rootSend dest ty jt body) s
/-- FLOOD_RECEIVED (R315). -/
def execFloodReceived (f : List Byte) (lqi : Nat) (s : State) : Host.Outcome State Fault Refusal := run (fun ch => ch.floodReceived f lqi) s
/-- ROUTE_ERR_RECEIVED (R314). -/
def execRouteErrReceived (fdst hop : Nat) (s : State) : Host.Outcome State Fault Refusal := run (fun ch => ch.routeErrReceived fdst hop) s
/-- MESH_NO_ACK_RETURN (R310). -/
def execMeshNoAckReturn (f : List Byte) (tries : Nat) (s : State) : Host.Outcome State Fault Refusal := run (fun ch => ch.noAckReturn f tries) s
/-- PING (R316). -/
def execPing (orig : CmdFrom) (token : Nat) (s : State) : Host.Outcome State Fault Refusal := run (fun ch => ch.cmdPing orig token) s
/-- GET_INFO (R316). -/
def execGetInfo (orig : CmdFrom) (token : Nat) (s : State) : Host.Outcome State Fault Refusal := run (fun ch => ch.cmdGetInfo orig token) s
/-- GET_PLAN (R317). -/
def execGetPlan (orig : CmdFrom) (token page : Nat) (s : State) : Host.Outcome State Fault Refusal := run (fun ch => ch.cmdGetPlan orig token page) s
/-- KEY_NEXT (R317). -/
def execKeyNext (orig : CmdFrom) (token epoch : Nat) (kw : List Byte) (s : State) : Host.Outcome State Fault Refusal := run (fun ch => ch.cmdKeyNext orig token epoch kw) s
/-- KEY_SWITCH (R317). -/
def execKeySwitch (orig : CmdHead) (epoch asn : Nat) (s : State) : Host.Outcome State Fault Refusal := run (fun ch => ch.cmdKeySwitch orig epoch asn) s
/-- KEY_SWITCH_ASN_REACHED (R317). -/
def execKeySwitchAsnReached (s : State) : Host.Outcome State Fault Refusal := run (fun ch => ch.keySwitchReached) s
/-- LEAVE (R317). -/
def execLeave (orig : CmdFrom) (token : Nat) (s : State) : Host.Outcome State Fault Refusal := run (fun ch => ch.cmdLeave orig token) s
/-- UNKNOWN_CMD (R317). -/
def execUnknownCmd (orig : Nat) (loc : Bool) (cid token : Nat) (s : State) : Host.Outcome State Fault Refusal := run (fun ch => ch.cmdUnknown orig loc cid token) s
/-- TAP_RECORD_APPLY (R305). -/
def execTapRecordApply (body : List Byte) (s : State) : Host.Outcome State Fault Refusal := run (fun ch => ch.tapApply body) s

end Sys2Proof.Machine
end

