-- ==== Sys2Proof/Machine/CmdModem.lean ====
section
/-!
DEFINITION. The modem: the meanings of their commands, one definition for each.
-/
namespace Sys2Proof.Machine

/-- MDM_ENABLE (R203). -/
def execMdmEnable (ag : Agent) (s : State) : Host.Outcome State Fault Refusal := run (fun ch => ch.fldWrite ag F.MDM_CTL_EN 1) s
/-- MDM_LS_WRITE (R202). -/
def execMdmLsWrite (ag : Agent) (m : Nat) (v : Word) (s : State) : Host.Outcome State Fault Refusal := run (fun ch => ch.regWriteN ag m 8 (R.MDM_LS m) v) s
/-- MDM_CM_WRITE (R224). -/
def execMdmCmWrite (ag : Agent) (m : Nat) (v : Word) (s : State) : Host.Outcome State Fault Refusal := run (fun ch => ch.regWriteN ag m 8 (R.MDM_CM m) v) s
/-- MDM_FK_WRITE (R233). -/
def execMdmFkWrite (ag : Agent) (m : Nat) (v : Word) (s : State) : Host.Outcome State Fault Refusal := run (fun ch => ch.regWriteN ag m 8 (R.MDM_FK m) v) s
/-- MDM_COUNT_READ (R198). -/
def execMdmCountRead (ag : Agent) (mm : Nat) (s : State) : Host.Outcome State Fault Refusal := run (fun ch => ch.mdmCountRead ag mm) s
/-- PREAMBLE_ACQUIRED (R196). -/
def execPreambleAcquired (foff : RxAcq) (s : State) : Host.Outcome State Fault Refusal := run (fun ch => ch.preambleAcquired foff) s
/-- SYNC_DECISION (R196). -/
def execSyncDecision (a b c : RxSync) (ago : Nat) (s : State) : Host.Outcome State Fault Refusal := run (fun ch => ch.syncDecision a b c ago) s
/-- HEADER_DECISION (R198). -/
def execHeaderDecision (f : RxField) (s : State) : Host.Outcome State Fault Refusal := run (fun ch => ch.headerDecision f) s
/-- TRACK_LOST (R197). -/
def execTrackLost (s : State) : Host.Outcome State Fault Refusal := run (fun ch => ch.trackLost) s
/-- FRAME_RECEIVED (R198). -/
def execFrameReceived (f : RxField) (det noise snr : Int) (s : State) : Host.Outcome State Fault Refusal := run (fun ch => ch.frameReceived f det noise snr) s
/-- FRAME_HANDOVER (R200). -/
def execFrameHandover (s : State) : Host.Outcome State Fault Refusal := run (fun ch => ch.frameHandover) s

end Sys2Proof.Machine
end

