-- ==== Sys2Proof/Machine/CmdNfc.lean ====
section
/-!
DEFINITION. The contactless block: the meanings of their commands, one definition for each.
-/
namespace Sys2Proof.Machine

/-- FIELD_DETECT (R354). -/
def execFieldDetect (vaon : Bool) (vnfc : Nat) (s : State) : Host.Outcome State Fault Refusal := run (fun ch => ch.fieldDetect vaon vnfc) s
/-- FIELD_LOST (R354). -/
def execFieldLost (s : State) : Host.Outcome State Fault Refusal := run (fun ch => ch.fieldLost) s
/-- FIELD_COLLAPSE (R365). -/
def execFieldCollapse (verified : Bool) (s : State) : Host.Outcome State Fault Refusal := run (fun ch => ch.fieldCollapse verified) s
/-- TAG_REQA (R355). -/
def execTagReqa (wupa : Bool) (s : State) : Host.Outcome State Fault Refusal := run (fun ch => ch.tagReqa wupa) s
/-- TAG_ANTICOLLISION (R355). -/
def execTagAnticollision (cl n known : Nat) (s : State) : Host.Outcome State Fault Refusal := run (fun ch => ch.tagAnti cl n known) s
/-- TAG_SELECT (R357). -/
def execTagSelect (cl : Nat) (uid : List Byte) (s : State) : Host.Outcome State Fault Refusal := run (fun ch => ch.tagSelect cl uid) s
/-- TAG_HLTA (R352). -/
def execTagHlta (s : State) : Host.Outcome State Fault Refusal := run (fun ch => ch.tagHlta) s
/-- TAG_RATS (R355). -/
def execTagRats (s : State) : Host.Outcome State Fault Refusal := run (fun ch => ch.tagRats) s
/-- TAG_DESELECT (R352). -/
def execTagDeselect (s : State) : Host.Outcome State Fault Refusal := run (fun ch => ch.tagDeselect) s
/-- TAG_REPLY_MUTE (R356). -/
def execTagReplyMute (s : State) : Host.Outcome State Fault Refusal := run (fun ch => ch.tagMute) s
/-- TAG_WTX_DUE (R357). -/
def execTagWtxDue (s : State) : Host.Outcome State Fault Refusal := run (fun ch => ch.tagWtx) s
/-- SELECT_BY_NAME (R358). -/
def execSelectByName (aid : List Byte) (s : State) : Host.Outcome State Fault Refusal := run (fun ch => ch.selectName aid) s
/-- SELECT_BY_FILE (R358). -/
def execSelectByFile (c : FileSelect) (s : State) : Host.Outcome State Fault Refusal := run (fun ch => ch.selectFile c) s
/-- READ_BINARY (R360). -/
def execReadBinary (off len : Nat) (s : State) : Host.Outcome State Fault Refusal := run (fun ch => ch.readBinary off len) s
/-- UPDATE_BINARY (R360). -/
def execUpdateBinary (off : Nat) (data : List Byte) (s : State) : Host.Outcome State Fault Refusal := run (fun ch => ch.updateBinary off data) s
/-- MAILBOX_WRITE (R364). -/
def execMailboxWrite (seq : Nat) (data : List Byte) (levels : List Nat) (s : State) : Host.Outcome State Fault Refusal := run (fun ch => ch.mailboxWrite seq data levels) s
/-- VAON_UP_DURING_HARVEST (R369). -/
def execVaonUpDuringHarvest (s : State) : Host.Outcome State Fault Refusal := run (fun ch => ch.vaonUp) s
/-- NFC_ENABLE (R377). -/
def execNfcEnable (ag : Agent) (s : State) : Host.Outcome State Fault Refusal := run (fun ch => ch.fldWrite ag F.NFC_CTL_EN 1) s
/-- NFC_DISABLE (R378). -/
def execNfcDisable (ag : Agent) (s : State) : Host.Outcome State Fault Refusal := run (fun ch => ch.fldWrite ag F.NFC_CTL_EN 0) s
/-- NFC_POLL (R370). -/
def execNfcPoll (ag : Agent) (s : State) : Host.Outcome State Fault Refusal := run (fun ch => ch.regWrite ag R.NFC_CMD (F.NFC_CMD_POLL.put 0 1)) s
/-- READER_ROUND_START (R370). -/
def execReaderRoundStart (s : State) : Host.Outcome State Fault Refusal := run (fun ch => ch.roundStart) s
/-- READER_ANSWER (R372). -/
def execReaderAnswer (data : List Byte) (good : Bool) (coll : Option Nat) (bcc : Bool) (s : State) : Host.Outcome State Fault Refusal := run (fun ch => ch.readerAnswer data good coll bcc) s
/-- READER_FRAME_TIMEOUT (R372). -/
def execReaderFrameTimeout (s : State) : Host.Outcome State Fault Refusal := run (fun ch => ch.readerTimeout) s
/-- NFC_XCHG (R373). -/
def execNfcXchg (ag : Agent) (s : State) : Host.Outcome State Fault Refusal := run (fun ch => ch.regWrite ag R.NFC_CMD (F.NFC_CMD_XCHG.put 0 1)) s
/-- NFC_DESEL (R373). -/
def execNfcDesel (ag : Agent) (s : State) : Host.Outcome State Fault Refusal := run (fun ch => ch.regWrite ag R.NFC_CMD (F.NFC_CMD_DESEL.put 0 1)) s
/-- NFC_FIELDOFF (R373). -/
def execNfcFieldoff (ag : Agent) (s : State) : Host.Outcome State Fault Refusal := run (fun ch => ch.regWrite ag R.NFC_CMD (F.NFC_CMD_FIELDOFF.put 0 1)) s
/-- PING_DUE (R374). -/
def execPingDue (s : State) : Host.Outcome State Fault Refusal := run (fun ch => ch.pingDue) s
/-- PING_RESULT (R375). -/
def execPingResult (amp phase : Nat) (s : State) : Host.Outcome State Fault Refusal := run (fun ch => ch.pingResult amp phase) s
/-- NFC_CNT_READ (R10). -/
def execNfcCntRead (ag : Agent) (s : State) : Host.Outcome State Fault Refusal := run (fun ch => ch.regRead ag R.NFC_CNT) s

end Sys2Proof.Machine
end

