-- ==== Sys2Proof/Machine/CmdPin.lean ====
section
/-!
DEFINITION. Pins: the meanings of their commands, one definition for each.
-/
namespace Sys2Proof.Machine

/-- PIN_MAP_WRITE (R92). -/
def execPinMapWrite (ag : Agent) (n : Nat) (v : Word) (s : State) : Host.Outcome State Fault Refusal := run (fun ch => ch.regWriteN ag n 24 (R.PIN_MAP n) v) s
/-- PIN_OUT_WRITE (R87). -/
def execPinOutWrite (ag : Agent) (v : Word) (s : State) : Host.Outcome State Fault Refusal := run (fun ch => ch.regWrite ag R.PIN_OUT v) s
/-- PIN_OUTSET_WRITE (R87). -/
def execPinOutsetWrite (ag : Agent) (v : Word) (s : State) : Host.Outcome State Fault Refusal := run (fun ch => ch.regWrite ag R.PIN_OUTSET v) s
/-- PIN_OUTCLR_WRITE (R87). -/
def execPinOutclrWrite (ag : Agent) (v : Word) (s : State) : Host.Outcome State Fault Refusal := run (fun ch => ch.regWrite ag R.PIN_OUTCLR v) s
/-- PIN_OUTTGL_WRITE (R87). -/
def execPinOuttglWrite (ag : Agent) (v : Word) (s : State) : Host.Outcome State Fault Refusal := run (fun ch => ch.regWrite ag R.PIN_OUTTGL v) s
/-- PIN_DIR_WRITE (R87). -/
def execPinDirWrite (ag : Agent) (v : Word) (s : State) : Host.Outcome State Fault Refusal := run (fun ch => ch.regWrite ag R.PIN_DIR v) s
/-- VDDIO2_CHANGE (R72). -/
def execVddio2Change (ok : Bool) (s : State) : Host.Outcome State Fault Refusal := run (fun ch => ch.vddio2Change ok) s
/-- WAKE_PIN_EDGE (R76). -/
def execWakePinEdge (n : Nat) (rise : Bool) (s : State) : Host.Outcome State Fault Refusal := run (fun ch => ch.wakePinEdge n rise) s

end Sys2Proof.Machine
end

