-- ==== Sys2Proof/Machine/CmdQueue.lean ====
section
/-!
DEFINITION. Queues, stamps and the write buffers: the meanings of their commands, one definition for each.
-/
namespace Sys2Proof.Machine

/-- QUE_TAIL_WRITE (R266). -/
def execQueTailWrite (ag : Agent) (q : Nat) (v : Word) (s : State) : Host.Outcome State Fault Refusal := run (fun ch => ch.regWriteN ag q 32 (R.QUE_TAIL q) v) s
/-- QUE_HEAD_WRITE (R266). -/
def execQueHeadWrite (ag : Agent) (q : Nat) (v : Word) (s : State) : Host.Outcome State Fault Refusal := run (fun ch => ch.regWriteN ag q 32 (R.QUE_HEAD q) v) s
/-- QUEUE_ON (R267). -/
def execQueueOn (ag : Agent) (q : Nat) (v : Word) (s : State) : Host.Outcome State Fault Refusal := run (fun ch => ch.regWriteN ag q 32 (R.QUE_CFG q) ((F.QUE_CFG_ON q).put v 1)) s
/-- QUEUE_OFF (R267). -/
def execQueueOff (ag : Agent) (q : Nat) (v : Word) (s : State) : Host.Outcome State Fault Refusal := run (fun ch => ch.regWriteN ag q 32 (R.QUE_CFG q) ((F.QUE_CFG_ON q).put v 0)) s
/-- HW_QUEUE_PRODUCE (R27). -/
def execHwQueueProduce (q : Nat) (entry : List Word) (s : State) : Host.Outcome State Fault Refusal := run (fun ch => ch.ofIdx q 32 (fun s => s.produce q entry)) s
/-- HW_QUEUE_CONSUME (R41). -/
def execHwQueueConsume (q : Nat) (n : Nat) (s : State) : Host.Outcome State Fault Refusal := run (fun ch => ch.ofIdx q 32 (fun s => s.consumeN q n)) s
/-- QUE_QSTAT_READ (R10). -/
def execQueQstatRead (ag : Agent) (q : Nat) (s : State) : Host.Outcome State Fault Refusal := run (fun ch => ch.regReadN ag q 32 (R.QUE_QSTAT q)) s
/-- STAMP_REQUEST (R32). -/
def execStampRequest (item : StampItem) (ago : Int) (s : State) : Host.Outcome State Fault Refusal := run (fun ch => ch.stampRequest item ago) s
/-- WRITE_BUFFER_DRAIN (R36). -/
def execWriteBufferDrain (c : Core) (s : State) : Host.Outcome State Fault Refusal := run (fun ch => ch.drainOne c) s

end Sys2Proof.Machine
end

