-- ==== Sys2Proof/Machine/CmdRadio.lean ====
section
/-!
DEFINITION. The radio front end: the meanings of their commands, one definition for each.
-/
namespace Sys2Proof.Machine

/-- SYN_ENABLE (R178). -/
def execSynEnable (ag : Agent) (s : State) : Host.Outcome State Fault Refusal := run (fun ch => ch.fldWrite ag F.SYN_CTL_EN 1) s
/-- RFE_ENABLE (R164). -/
def execRfeEnable (ag : Agent) (s : State) : Host.Outcome State Fault Refusal := run (fun ch => ch.fldWrite ag F.RFE_CTL_EN 1) s
/-- CX_ENABLE (R177). -/
def execCxEnable (ag : Agent) (s : State) : Host.Outcome State Fault Refusal := run (fun ch => ch.fldWrite ag F.CX_CTL_EN 1) s
/-- SYN_CAL_CMD (R157). -/
def execSynCalCmd (ag : Agent) (s : State) : Host.Outcome State Fault Refusal := run (fun ch => ch.regWrite ag R.SYN_CMD (F.SYN_CMD_CAL.put 0 1)) s
/-- CAL_PENDING_START (R157). -/
def execCalPendingStart (s : State) : Host.Outcome State Fault Refusal := run (fun ch => ch.calPending) s
/-- CAL_STEP_DONE (R154). -/
def execCalStepDone (ok : Bool) (s : State) : Host.Outcome State Fault Refusal := run (fun ch => ch.calStepDone ok) s
/-- SYN_LOCK (R158). -/
def execSynLock (s : State) : Host.Outcome State Fault Refusal := run (fun ch => ch.synLock) s
/-- LOCK_FAIL_TIMEOUT (R158). -/
def execLockFailTimeout (s : State) : Host.Outcome State Fault Refusal := run (fun ch => ch.lockFail) s
/-- LOCK_LOST (R158). -/
def execLockLost (s : State) : Host.Outcome State Fault Refusal := run (fun ch => ch.lockLost) s
/-- RFE_BGCAL_CMD (R172). -/
def execRfeBgcalCmd (ag : Agent) (s : State) : Host.Outcome State Fault Refusal := run (fun ch => ch.regWrite ag R.RFE_CMD (F.RFE_CMD_BGCAL.put 0 1)) s
/-- BG_CAL_DUE (R172). -/
def execBgCalDue (s : State) : Host.Outcome State Fault Refusal := run (fun ch => ch.bgDue) s
/-- BG_CAL_STEP_START (R173). -/
def execBgCalStepStart (s : State) : Host.Outcome State Fault Refusal := run (fun ch => ch.bgStart ch.nextPrep) s
/-- BG_CAL_STEP_DONE (R173). -/
def execBgCalStepDone (s : State) : Host.Outcome State Fault Refusal := run (fun ch => ch.bgStepDone) s
/-- RFE_PROF_F_WRITE (R169). -/
def execRfeProfFWrite (ag : Agent) (n : Nat) (v : Word) (s : State) : Host.Outcome State Fault Refusal := run (fun ch => ch.regWriteN ag n 8 (R.RFE_PROF_F n) v) s
/-- RFE_PROF_M_WRITE (R169). -/
def execRfeProfMWrite (ag : Agent) (n : Nat) (v : Word) (s : State) : Host.Outcome State Fault Refusal := run (fun ch => ch.regWriteN ag n 8 (R.RFE_PROF_M n) v) s
/-- AGC_PERIOD_END (R166). -/
def execAgcPeriodEnd (p rssi : Int) (s : State) : Host.Outcome State Fault Refusal := run (fun ch => ch.agcPeriodEnd p rssi) s
/-- TXEN_RISE (R165). -/
def execTxenRise (s : State) : Host.Outcome State Fault Refusal := run (fun ch => ch.txenRise) s
/-- TX_RAMP_START (R171). -/
def execTxRampStart (gnt : Bool) (s : State) : Host.Outcome State Fault Refusal := run (fun ch => ch.txRampStart gnt) s
/-- TX_HOLD_RESOLVE (R171). -/
def execTxHoldResolve (gnt : Bool) (s : State) : Host.Outcome State Fault Refusal := run (fun ch => ch.txHoldResolve gnt) s
/-- TX_DEADLINE_DROP (R171). -/
def execTxDeadlineDrop (s : State) : Host.Outcome State Fault Refusal := run (fun ch => ch.txDeadlineDrop) s
/-- CX_GNT_FALL (R175). -/
def execCxGntFall (s : State) : Host.Outcome State Fault Refusal := run (fun ch => ch.cxGntFall) s
/-- CX_ARB_INPUT_CHANGE (R176). -/
def execCxArbInputChange (req pri : Bool) (s : State) : Host.Outcome State Fault Refusal := run (fun ch => ch.cxArb req pri) s
/-- CX_ARBNXT_WRITE (R176). -/
def execCxArbnxtWrite (ag : Agent) (v : Word) (s : State) : Host.Outcome State Fault Refusal := run (fun ch => ch.regWrite ag R.CX_ARBNXT v) s
/-- CX_CNT_READ (R175). -/
def execCxCntRead (ag : Agent) (s : State) : Host.Outcome State Fault Refusal := run (fun ch => ch.regRead ag R.CX_CNT) s

end Sys2Proof.Machine
end

