-- ==== Sys2Proof/Machine/CmdSvc.lean ====
section
/-!
DEFINITION. The service port and the loader: the meanings of their commands, one definition for each.
-/
namespace Sys2Proof.Machine

/-- SVC_OPEN (R551). -/
def execSvcOpen (q : SvcLine) (hi lo : Nat) (s : State) : Host.Outcome State Fault Refusal := run (fun ch => ch.svcRequest q.late (svcWord 0 1 (hi <<< 8 ||| lo)) [] q.chk (fun s => s.svcOpen hi lo)) s
/-- SVC_READ (R554). -/
def execSvcRead (q : SvcLine) (n addr : Nat) (s : State) : Host.Outcome State Fault Refusal := run (fun ch => ch.svcRequest q.late (svcWord 1 n addr) [] q.chk (fun s => s.svcRead n addr)) s
/-- SVC_WRITE (R554). -/
def execSvcWrite (late : Bool) (addr : Nat) (words : List Word) (chk : Option Word) (s : State) : Host.Outcome State Fault Refusal := run (fun ch => ch.svcRequest late (svcWord 2 words.length addr) words chk (fun s => s.svcWrite addr words)) s
/-- SVC_HALT (R553). -/
def execSvcHalt (q : SvcLine) (mask : Nat) (s : State) : Host.Outcome State Fault Refusal := run (fun ch => ch.svcRequest q.late (svcWord 3 1 mask) [] q.chk (fun s => s.svcHaltReq mask)) s
/-- SVC_RUN (R553). -/
def execSvcRun (q : SvcLine) (mask : Nat) (s : State) : Host.Outcome State Fault Refusal := run (fun ch => ch.svcRequest q.late (svcWord 4 1 mask) [] q.chk (fun s => s.svcRunReq mask)) s
/-- SVC_STEP (R553). -/
def execSvcStep (q : SvcLine) (core : Nat) (s : State) : Host.Outcome State Fault Refusal := run (fun ch => ch.svcRequest q.late (svcWord 5 1 core) [] q.chk (fun s => s.svcStepReq core)) s
/-- SVC_REGRD (R553). -/
def execSvcRegrd (q : SvcLine) (core reg : Nat) (s : State) : Host.Outcome State Fault Refusal := run (fun ch => ch.svcRequest q.late (svcWord 6 1 (core <<< 16 ||| reg)) [] q.chk (fun s => s.svcRegrd core reg)) s
/-- SVC_REGWR (R553). -/
def execSvcRegwr (late : Bool) (core reg : Nat) (v : Word) (chk : Option Word) (s : State) : Host.Outcome State Fault Refusal := run (fun ch => ch.svcRequest late (svcWord 7 1 (core <<< 16 ||| reg)) [v] chk (fun s => s.svcRegwr core reg v)) s
/-- SVC_RESET (R550). -/
def execSvcReset (q : SvcLine) (addr : Nat) (s : State) : Host.Outcome State Fault Refusal := run (fun ch => ch.svcRequest q.late (svcWord 8 1 addr) [] q.chk (fun s => s.svcResetReq addr)) s
/-- SVC_CLOSE (R551). -/
def execSvcClose (q : SvcLine) (s : State) : Host.Outcome State Fault Refusal := run (fun ch => ch.svcRequest q.late (svcWord 9 1 0) [] q.chk (fun s => s.svcCloseReq)) s
/-- SVC_STATUS (R550). -/
def execSvcStatus (q : SvcLine) (op : Nat) (s : State) : Host.Outcome State Fault Refusal := run (fun ch => ch.svcRequest q.late (svcWord op 1 0) [] q.chk (fun s => s.svcStatusReq op)) s
/-- SVC_LINE_RESET (R549). -/
def execSvcLineReset (cycles : Nat) (s : State) : Host.Outcome State Fault Refusal := run (fun ch => ch.svcLineReset cycles) s
/-- SVC_SESSION_TIMEOUT (R551). -/
def execSvcSessionTimeout (s : State) : Host.Outcome State Fault Refusal := run (fun ch => ch.svcTimeout) s
/-- VOLE_START (R576). -/
def execVoleStart (s : State) : Host.Outcome State Fault Refusal := run (fun ch => ch.voleStart) s
/-- LOADER_BEGIN (R572). -/
def execLoaderBegin (s : State) : Host.Outcome State Fault Refusal := run (fun ch => ch.ldrServe 1 Chip.ldrBegin) s
/-- LOADER_DATA (R573). -/
def execLoaderData (s : State) : Host.Outcome State Fault Refusal := run (fun ch => ch.ldrServe 2 Chip.ldrData) s
/-- LOADER_COMMIT (R574). -/
def execLoaderCommit (s : State) : Host.Outcome State Fault Refusal := run (fun ch => ch.ldrServe 3 Chip.ldrCommit) s
/-- LOADER_STREAM (R575). -/
def execLoaderStream (s : State) : Host.Outcome State Fault Refusal := run (fun ch => ch.ldrServe 4 Chip.ldrStream) s
/-- VOLE_IDLE_TIMEOUT (R578). -/
def execVoleIdleTimeout (s : State) : Host.Outcome State Fault Refusal := run (fun ch => ch.voleIdleTimeout) s

end Sys2Proof.Machine
end

