-- ==== Sys2Proof/Machine/CmdSys.lean ====
section
/-!
DEFINITION. Clocks, resets, power and boot: the meanings of their commands, one definition for each.
-/
namespace Sys2Proof.Machine

/-- CLK_FOX_WRITE (R26). -/
def execClkFoxWrite (ag : Agent) (v : Word) (s : State) : Host.Outcome State Fault Refusal := run (fun ch => ch.regWrite ag R.CLK_FOX v) s
/-- VCORE_RAISE_SETTLED (R97). -/
def execVcoreRaiseSettled (s : State) : Host.Outcome State Fault Refusal := run (fun ch => ch.vcoreSettled) s
/-- PLL_LOCK (R102). -/
def execPllLock (s : State) : Host.Outcome State Fault Refusal := run (fun ch => ch.pllLock) s
/-- SSM_LOCK_WRITE (R68). -/
def execSsmLockWrite (ag : Agent) (v : Word) (s : State) : Host.Outcome State Fault Refusal := run (fun ch => ch.regWrite ag R.SSM_LOCK v) s
/-- BOOT_SEQUENCE (R557). -/
def execBootSequence (m : SupplyMeas) (s : State) : Host.Outcome State Fault Refusal := run (fun ch => ch.bootSequence m) s
/-- CORE_RELEASE (R566). -/
def execCoreRelease (c : Core) (s : State) : Host.Outcome State Fault Refusal := run (fun ch => ch.coreRelease c) s
/-- BOOT_SUPPLY_REMEASURE (R126). -/
def execBootSupplyRemeasure (m : SupplyMeas) (s : State) : Host.Outcome State Fault Refusal := run (fun ch => ch.bootRemeasure m) s
/-- POWER_ON_RESET (R100). -/
def execPowerOnReset (s : State) : Host.Outcome State Fault Refusal := run (fun ch => ch.powerOn) s
/-- BROWNOUT_RESET (R100). -/
def execBrownoutReset (d : Detector) (s : State) : Host.Outcome State Fault Refusal := run (fun ch => ch.detectorActs d) s
/-- VIN_WARNING (R99). -/
def execVinWarning (s : State) : Host.Outcome State Fault Refusal := run (fun ch => ch.vinWarning) s
/-- VSYS_WARNING (R99). -/
def execVsysWarning (s : State) : Host.Outcome State Fault Refusal := run (fun ch => ch.vsysWarning) s
/-- RESETN_PULSE (R599). -/
def execResetnPulse (ns : Nat) (s : State) : Host.Outcome State Fault Refusal := run (fun ch => ch.resetnPulse ns) s
/-- LFXO_FIRST_EDGE (R112). -/
def execLfxoFirstEdge (s : State) : Host.Outcome State Fault Refusal := run (fun ch => ch.lfxoFirstEdge) s
/-- LFXO_START_TIMEOUT (R112). -/
def execLfxoStartTimeout (s : State) : Host.Outcome State Fault Refusal := run (fun ch => ch.lfxoStartTimeout) s
/-- LFXO_STOP (R401). -/
def execLfxoStop (s : State) : Host.Outcome State Fault Refusal := run (fun ch => ch.lfxoStop) s
/-- LFXO_RESTORED (R401). -/
def execLfxoRestored (s : State) : Host.Outcome State Fault Refusal := run (fun ch => ch.lfxoRestored) s
/-- PMU_REQ_WRITE (R104). -/
def execPmuReqWrite (ag : Agent) (v : Word) (s : State) : Host.Outcome State Fault Refusal := run (fun ch => ch.regWrite ag R.PMU_REQ v) s
/-- PMU_STAT_READ (R10). -/
def execPmuStatRead (ag : Agent) (s : State) : Host.Outcome State Fault Refusal := run (fun ch => ch.regRead ag R.PMU_STAT) s
/-- REST_ENTRY (R106). -/
def execRestEntry (s : State) : Host.Outcome State Fault Refusal := run (fun ch => ch.restEntry) s
/-- LINK_WAKE (R271). -/
def execLinkWake (s : State) : Host.Outcome State Fault Refusal := run (fun ch => ch.linkWake) s
/-- SVC_WAKE_EDGE (R551). -/
def execSvcWakeEdge (s : State) : Host.Outcome State Fault Refusal := run (fun ch => ch.svcWakeEdge) s
/-- WAKE_FROM_SLEEP (R109). -/
def execWakeFromSleep (s : State) : Host.Outcome State Fault Refusal := run (fun ch => ch.wakeFromSleep) s
/-- HIBERNATE_WAKE (R110). -/
def execHibernateWake (s : State) : Host.Outcome State Fault Refusal := run (fun ch => ch.hibernateWake) s
/-- WAKE_DEFER_REMEASURE (R108). -/
def execWakeDeferRemeasure (m : SupplyMeas) (s : State) : Host.Outcome State Fault Refusal := run (fun ch => ch.wakeRemeasure m) s

end Sys2Proof.Machine
end

