-- ==== Sys2Proof/Machine/CmdTime.lean ====
section
/-!
DEFINITION. Timers, the real-time clock and the watchdog: the meanings of their commands, one definition for each.
-/
namespace Sys2Proof.Machine

/-- TMR_ENABLE (R388). -/
def execTmrEnable (ag : Agent) (n : Nat) (s : State) : Host.Outcome State Fault Refusal := run (fun ch => ch.ofIdx n 8 (fun s => s.fldWrite ag (F.TMRN_CTL_EN n) 1)) s
/-- TIMER_PRESCALER_WRAP (R386). -/
def execTimerPrescalerWrap (n : Nat) (s : State) : Host.Outcome State Fault Refusal := run (fun ch => ch.timerWrap n) s
/-- TMR_CMP_WRITE (R391). -/
def execTmrCmpWrite (ag : Agent) (n : Nat) (c : Nat) (v : Word) (s : State) : Host.Outcome State Fault Refusal := run (fun ch => ch.ofIdx n 8 (fun s => s.regWriteN ag c 2 (R.TMRN_CMP0 n + c) v)) s
/-- TIMER_CAPTURE_EDGE (R394). -/
def execTimerCaptureEdge (n : Nat) (rise : Bool) (s : State) : Host.Outcome State Fault Refusal := run (fun ch => ch.ofIdx n 8 (fun s => s.inputEdge (Mean.TMR_CAP n) rise (fun s => s.captureEdge n rise))) s
/-- TMR_CAPR_READ (R395). -/
def execTmrCaprRead (ag : Agent) (n : Nat) (s : State) : Host.Outcome State Fault Refusal := run (fun ch => ch.regReadN ag n 8 (R.TMRN_CAPR n)) s
/-- TMR_CAPF_READ (R395). -/
def execTmrCapfRead (ag : Agent) (n : Nat) (s : State) : Host.Outcome State Fault Refusal := run (fun ch => ch.regReadN ag n 8 (R.TMRN_CAPF n)) s
/-- TMR_OWN_WRITE (R396). -/
def execTmrOwnWrite (ag : Agent) (v : Word) (s : State) : Host.Outcome State Fault Refusal := run (fun ch => ch.regWrite ag R.TMR_OWN v) s
/-- SECOND_BOUNDARY (R400). -/
def execSecondBoundary (s : State) : Host.Outcome State Fault Refusal := run (fun ch => ch.secondBoundary) s
/-- RTC_SUB_READ (R398). -/
def execRtcSubRead (ag : Agent) (s : State) : Host.Outcome State Fault Refusal := run (fun ch => ch.regRead ag R.RTC_SUB) s
/-- RTC_SEC_READ (R398). -/
def execRtcSecRead (ag : Agent) (s : State) : Host.Outcome State Fault Refusal := run (fun ch => ch.regRead ag R.RTC_SEC) s
/-- RTC_SEC_WRITE (R399). -/
def execRtcSecWrite (ag : Agent) (v : Word) (s : State) : Host.Outcome State Fault Refusal := run (fun ch => ch.regWrite ag R.RTC_SEC v) s
/-- RTC_SEC_WRITE_APPLY (R399). -/
def execRtcSecWriteApply (s : State) : Host.Outcome State Fault Refusal := run (fun ch => ch.rtcSecApply) s
/-- RTC_TRIM_WRITE (R400). -/
def execRtcTrimWrite (ag : Agent) (v : Word) (s : State) : Host.Outcome State Fault Refusal := run (fun ch => ch.regWrite ag R.RTC_TRIM v) s
/-- RTC_ALARM_WRITE (R402). -/
def execRtcAlarmWrite (ag : Agent) (v : Word) (s : State) : Host.Outcome State Fault Refusal := run (fun ch => ch.regWrite ag R.RTC_ALARM v) s
/-- RTC_CFG_WRITE (R402). -/
def execRtcCfgWrite (ag : Agent) (v : Word) (s : State) : Host.Outcome State Fault Refusal := run (fun ch => ch.regWrite ag R.RTC_CFG v) s
/-- WDT_ENABLE (R407). -/
def execWdtEnable (ag : Agent) (s : State) : Host.Outcome State Fault Refusal := run (fun ch => ch.fldWrite ag F.WDT_CTL_EN 1) s
/-- WDT_KICK (R408). -/
def execWdtKick (ag : Agent) (v : Word) (s : State) : Host.Outcome State Fault Refusal := run (fun ch => ch.regWrite ag R.WDT_KICK v) s
/-- WDT_WARNING (R408). -/
def execWdtWarning (s : State) : Host.Outcome State Fault Refusal := run (fun ch => ch.wdtWarning) s
/-- WDT_EXPIRY (R409). -/
def execWdtExpiry (s : State) : Host.Outcome State Fault Refusal := run (fun ch => ch.wdtExpiry) s
/-- WDT_DBGPAUSE_WRITE (R410). -/
def execWdtDbgpauseWrite (ag : Agent) (b : Bool) (s : State) : Host.Outcome State Fault Refusal := run (fun ch => ch.wdtDbgpause ag b) s

end Sys2Proof.Machine
end

