-- ==== Sys2Proof/Machine/Dispatch.lean ====
section
/-!
DEFINITION. One arm per command: what it does to everything but the queue.
-/
namespace Sys2Proof.Machine

def exec (i : Instr) (s : State) : Host.Outcome State Fault Refusal :=
  match i with
  | .blockSafePointStop b => Sys2Proof.Machine.execBlockSafePointStop b s
  | .vcoreRaiseSettled => Sys2Proof.Machine.execVcoreRaiseSettled s
  | .pllLock => Sys2Proof.Machine.execPllLock s
  | .hwQueueProduce q entry => Sys2Proof.Machine.execHwQueueProduce q entry s
  | .hwQueueConsume q n => Sys2Proof.Machine.execHwQueueConsume q n s
  | .stampRequest item ago => Sys2Proof.Machine.execStampRequest item ago s
  | .writeBufferDrain c => Sys2Proof.Machine.execWriteBufferDrain c s
  | .bootSequence m => Sys2Proof.Machine.execBootSequence m s
  | .coreRelease c => Sys2Proof.Machine.execCoreRelease c s
  | .bootSupplyRemeasure m => Sys2Proof.Machine.execBootSupplyRemeasure m s
  | .vddio2Change ok => Sys2Proof.Machine.execVddio2Change ok s
  | .powerOnReset => Sys2Proof.Machine.execPowerOnReset s
  | .brownoutReset d => Sys2Proof.Machine.execBrownoutReset d s
  | .vinWarning => Sys2Proof.Machine.execVinWarning s
  | .vsysWarning => Sys2Proof.Machine.execVsysWarning s
  | .resetnPulse ns => Sys2Proof.Machine.execResetnPulse ns s
  | .lfxoFirstEdge => Sys2Proof.Machine.execLfxoFirstEdge s
  | .lfxoStartTimeout => Sys2Proof.Machine.execLfxoStartTimeout s
  | .lfxoStop => Sys2Proof.Machine.execLfxoStop s
  | .lfxoRestored => Sys2Proof.Machine.execLfxoRestored s
  | .restEntry => Sys2Proof.Machine.execRestEntry s
  | .wakePinEdge n rise => Sys2Proof.Machine.execWakePinEdge n rise s
  | .linkWake => Sys2Proof.Machine.execLinkWake s
  | .svcWakeEdge => Sys2Proof.Machine.execSvcWakeEdge s
  | .wakeFromSleep => Sys2Proof.Machine.execWakeFromSleep s
  | .hibernateWake => Sys2Proof.Machine.execHibernateWake s
  | .wakeDeferRemeasure m => Sys2Proof.Machine.execWakeDeferRemeasure m s
  | .bearClaim n power dur ms minP deadline => Sys2Proof.Machine.execBearClaim n power dur ms minP deadline s
  | .earliestStartReached n => Sys2Proof.Machine.execEarliestStartReached n s
  | .claimRelease n => Sys2Proof.Machine.execClaimRelease n s
  | .burstGrantEnd n => Sys2Proof.Machine.execBurstGrantEnd n s
  | .preemptedStop n => Sys2Proof.Machine.execPreemptedStop n s
  | .claimDeadlinePassed n => Sys2Proof.Machine.execClaimDeadlinePassed n s
  | .warningHoldRecheck => Sys2Proof.Machine.execWarningHoldRecheck s
  | .vsysSample uV => Sys2Proof.Machine.execVsysSample uV s
  | .measIntervalExpiry => Sys2Proof.Machine.execMeasIntervalExpiry s
  | .measurementStart => Sys2Proof.Machine.execMeasurementStart s
  | .measurementDone m => Sys2Proof.Machine.execMeasurementDone m s
  | .measurementRetry => Sys2Proof.Machine.execMeasurementRetry s
  | .reservationExpiry k => Sys2Proof.Machine.execReservationExpiry k s
  | .tempSample t => Sys2Proof.Machine.execTempSample t s
  | .replanDue => Sys2Proof.Machine.execReplanDue s
  | .replanDone => Sys2Proof.Machine.execReplanDone s
  | .ringMeasure counts => Sys2Proof.Machine.execRingMeasure counts s
  | .hfLfMeasure cycles => Sys2Proof.Machine.execHfLfMeasure cycles s
  | .calPendingStart => Sys2Proof.Machine.execCalPendingStart s
  | .calStepDone ok => Sys2Proof.Machine.execCalStepDone ok s
  | .synLock => Sys2Proof.Machine.execSynLock s
  | .lockFailTimeout => Sys2Proof.Machine.execLockFailTimeout s
  | .lockLost => Sys2Proof.Machine.execLockLost s
  | .bgCalDue => Sys2Proof.Machine.execBgCalDue s
  | .bgCalStepStart => Sys2Proof.Machine.execBgCalStepStart s
  | .bgCalStepDone => Sys2Proof.Machine.execBgCalStepDone s
  | .agcPeriodEnd p rssi => Sys2Proof.Machine.execAgcPeriodEnd p rssi s
  | .txenRise => Sys2Proof.Machine.execTxenRise s
  | .txRampStart gnt => Sys2Proof.Machine.execTxRampStart gnt s
  | .txHoldResolve gnt => Sys2Proof.Machine.execTxHoldResolve gnt s
  | .txDeadlineDrop => Sys2Proof.Machine.execTxDeadlineDrop s
  | .cxGntFall => Sys2Proof.Machine.execCxGntFall s
  | .cxArbInputChange req pri => Sys2Proof.Machine.execCxArbInputChange req pri s
  | .preambleAcquired foff => Sys2Proof.Machine.execPreambleAcquired foff s
  | .syncDecision a b c ago => Sys2Proof.Machine.execSyncDecision a b c ago s
  | .headerDecision f => Sys2Proof.Machine.execHeaderDecision f s
  | .trackLost => Sys2Proof.Machine.execTrackLost s
  | .frameReceived f det noise snr => Sys2Proof.Machine.execFrameReceived f det noise snr s
  | .frameHandover => Sys2Proof.Machine.execFrameHandover s
  | .slotBoundary c => Sys2Proof.Machine.execSlotBoundary c s
  | .cellChoice c => Sys2Proof.Machine.execCellChoice c s
  | .cellPrepStart c => Sys2Proof.Machine.execCellPrepStart c s
  | .rxWindowOpen gnt => Sys2Proof.Machine.execRxWindowOpen gnt s
  | .rxWindowClose => Sys2Proof.Machine.execRxWindowClose s
  | .txEnd => Sys2Proof.Machine.execTxEnd s
  | .ackClaim => Sys2Proof.Machine.execAckClaim s
  | .ackTxStart gnt => Sys2Proof.Machine.execAckTxStart gnt s
  | .ackTxEnd => Sys2Proof.Machine.execAckTxEnd s
  | .ackWindowOpen gnt => Sys2Proof.Machine.execAckWindowOpen gnt s
  | .ackReceived => Sys2Proof.Machine.execAckReceived s
  | .ackWindowClose => Sys2Proof.Machine.execAckWindowClose s
  | .desyncTimeout => Sys2Proof.Machine.execDesyncTimeout s
  | .bookTxEntry q => Sys2Proof.Machine.execBookTxEntry q s
  | .bookRxCell n => Sys2Proof.Machine.execBookRxCell n s
  | .cipherOpDone u mismatch => Sys2Proof.Machine.execCipherOpDone u mismatch s
  | .fieldDetect vaon vnfc => Sys2Proof.Machine.execFieldDetect vaon vnfc s
  | .fieldLost => Sys2Proof.Machine.execFieldLost s
  | .vaonUpDuringHarvest => Sys2Proof.Machine.execVaonUpDuringHarvest s
  | .readerRoundStart => Sys2Proof.Machine.execReaderRoundStart s
  | .readerAnswer data good coll bcc => Sys2Proof.Machine.execReaderAnswer data good coll bcc s
  | .readerFrameTimeout => Sys2Proof.Machine.execReaderFrameTimeout s
  | .pingDue => Sys2Proof.Machine.execPingDue s
  | .pingResult amp phase => Sys2Proof.Machine.execPingResult amp phase s
  | .timerPrescalerWrap n => Sys2Proof.Machine.execTimerPrescalerWrap n s
  | .timerCaptureEdge n rise => Sys2Proof.Machine.execTimerCaptureEdge n rise s
  | .secondBoundary => Sys2Proof.Machine.execSecondBoundary s
  | .rtcSecWriteApply => Sys2Proof.Machine.execRtcSecWriteApply s
  | .calTosec c => Sys2Proof.Machine.execCalTosec c s
  | .calFromsec c => Sys2Proof.Machine.execCalFromsec c s
  | .wdtWarning => Sys2Proof.Machine.execWdtWarning s
  | .wdtExpiry => Sys2Proof.Machine.execWdtExpiry s
  | .levelRequestFall n => Sys2Proof.Machine.execLevelRequestFall n s
  | .coalExpiry t n => Sys2Proof.Machine.execCoalExpiry t n s
  | .taskFire t => Sys2Proof.Machine.execTaskFire t s
  | .interruptEntry c => Sys2Proof.Machine.execInterruptEntry c s
  | .waitEnd c => Sys2Proof.Machine.execWaitEnd c s
  | .mulResultWrite c => Sys2Proof.Machine.execMulResultWrite c s
  | .lda c o => Sys2Proof.Machine.execLda c o s
  | .sta c o => Sys2Proof.Machine.execSta c o s
  | .ldx c o => Sys2Proof.Machine.execLdx c o s
  | .ldy c o => Sys2Proof.Machine.execLdy c o s
  | .stx c o => Sys2Proof.Machine.execStx c o s
  | .sty c o => Sys2Proof.Machine.execSty c o s
  | .leax c o => Sys2Proof.Machine.execLeax c o s
  | .leay c o => Sys2Proof.Machine.execLeay c o s
  | .push c o => Sys2Proof.Machine.execPush c o s
  | .pop c o => Sys2Proof.Machine.execPop c o s
  | .movr c o => Sys2Proof.Machine.execMovr c o s
  | .add c o => Sys2Proof.Machine.execAdd c o s
  | .adc c o => Sys2Proof.Machine.execAdc c o s
  | .sub c o => Sys2Proof.Machine.execSub c o s
  | .sbc c o => Sys2Proof.Machine.execSbc c o s
  | .cmp c o => Sys2Proof.Machine.execCmp c o s
  | .and c o => Sys2Proof.Machine.execAnd c o s
  | .or c o => Sys2Proof.Machine.execOr c o s
  | .xor c o => Sys2Proof.Machine.execXor c o s
  | .neg c o => Sys2Proof.Machine.execNeg c o s
  | .not c o => Sys2Proof.Machine.execNot c o s
  | .shl c o => Sys2Proof.Machine.execShl c o s
  | .shr c o => Sys2Proof.Machine.execShr c o s
  | .sha c o => Sys2Proof.Machine.execSha c o s
  | .rol c o => Sys2Proof.Machine.execRol c o s
  | .ror c o => Sys2Proof.Machine.execRor c o s
  | .fadd c o => Sys2Proof.Machine.execFadd c o s
  | .fsub c o => Sys2Proof.Machine.execFsub c o s
  | .fneg c o => Sys2Proof.Machine.execFneg c o s
  | .fabs c o => Sys2Proof.Machine.execFabs c o s
  | .fshl c o => Sys2Proof.Machine.execFshl c o s
  | .fshr c o => Sys2Proof.Machine.execFshr c o s
  | .satn c o => Sys2Proof.Machine.execSatn c o s
  | .addd c o => Sys2Proof.Machine.execAddd c o s
  | .subd c o => Sys2Proof.Machine.execSubd c o s
  | .dad c o => Sys2Proof.Machine.execDad c o s
  | .das c o => Sys2Proof.Machine.execDas c o s
  | .d2b c o => Sys2Proof.Machine.execD2b c o s
  | .b2d c o => Sys2Proof.Machine.execB2d c o s
  | .crcs c o => Sys2Proof.Machine.execCrcs c o s
  | .par c o => Sys2Proof.Machine.execPar c o s
  | .brev c o => Sys2Proof.Machine.execBrev c o s
  | .mul c o => Sys2Proof.Machine.execMul c o s
  | .mulu c o => Sys2Proof.Machine.execMulu c o s
  | .mac c o => Sys2Proof.Machine.execMac c o s
  | .fpr c o => Sys2Proof.Machine.execFpr c o s
  | .jcc c cc o => Sys2Proof.Machine.execJcc c cc o s
  | .call c o => Sys2Proof.Machine.execCall c o s
  | .ret c o => Sys2Proof.Machine.execRet c o s
  | .reti c o => Sys2Proof.Machine.execReti c o s
  | .dbx c o => Sys2Proof.Machine.execDbx c o s
  | .dby c o => Sys2Proof.Machine.execDby c o s
  | .trap c o => Sys2Proof.Machine.execTrap c o s
  | .wait c o => Sys2Proof.Machine.execWait c o s
  | .fence c o => Sys2Proof.Machine.execFence c o s
  | .fencew c o => Sys2Proof.Machine.execFencew c o s
  | .fenceio c o => Sys2Proof.Machine.execFenceio c o s
  | .xchg c o => Sys2Proof.Machine.execXchg c o s
  | .slotw c o => Sys2Proof.Machine.execSlotw c o s
  | .stamp c o => Sys2Proof.Machine.execStamp c o s
  | .nop c o => Sys2Proof.Machine.execNop c o s
  | .trapb c o => Sys2Proof.Machine.execTrapb c o s
  | .programPulseEnd verified => Sys2Proof.Machine.execProgramPulseEnd verified s
  | .erasePulseEnd verified => Sys2Proof.Machine.execErasePulseEnd verified s
  | .otpPulseEnd verified => Sys2Proof.Machine.execOtpPulseEnd verified s
  | .svcLineReset cycles => Sys2Proof.Machine.execSvcLineReset cycles s
  | .svcSessionTimeout => Sys2Proof.Machine.execSvcSessionTimeout s
  | .voleStart => Sys2Proof.Machine.execVoleStart s
  | .loaderBegin => Sys2Proof.Machine.execLoaderBegin s
  | .loaderData => Sys2Proof.Machine.execLoaderData s
  | .loaderCommit => Sys2Proof.Machine.execLoaderCommit s
  | .loaderStream => Sys2Proof.Machine.execLoaderStream s
  | .voleIdleTimeout => Sys2Proof.Machine.execVoleIdleTimeout s
  | .evtInEdge k rise => Sys2Proof.Machine.execEvtInEdge k rise s
  | .fieldCollapse verified => Sys2Proof.Machine.execFieldCollapse verified s
  | .registerWrite ag addr v => Sys2Proof.Machine.execRegisterWrite ag addr v s
  | .blockDisable ag b => Sys2Proof.Machine.execBlockDisable ag b s
  | .clkFoxWrite ag v => Sys2Proof.Machine.execClkFoxWrite ag v s
  | .ssmLockWrite ag v => Sys2Proof.Machine.execSsmLockWrite ag v s
  | .queTailWrite ag q v => Sys2Proof.Machine.execQueTailWrite ag q v s
  | .queHeadWrite ag q v => Sys2Proof.Machine.execQueHeadWrite ag q v s
  | .queueOn ag q v => Sys2Proof.Machine.execQueueOn ag q v s
  | .queueOff ag q v => Sys2Proof.Machine.execQueueOff ag q v s
  | .queQstatRead ag q => Sys2Proof.Machine.execQueQstatRead ag q s
  | .pinMapWrite ag n v => Sys2Proof.Machine.execPinMapWrite ag n v s
  | .pinOutWrite ag v => Sys2Proof.Machine.execPinOutWrite ag v s
  | .pinOutsetWrite ag v => Sys2Proof.Machine.execPinOutsetWrite ag v s
  | .pinOutclrWrite ag v => Sys2Proof.Machine.execPinOutclrWrite ag v s
  | .pinOuttglWrite ag v => Sys2Proof.Machine.execPinOuttglWrite ag v s
  | .pinDirWrite ag v => Sys2Proof.Machine.execPinDirWrite ag v s
  | .pmuReqWrite ag v => Sys2Proof.Machine.execPmuReqWrite ag v s
  | .pmuStatRead ag => Sys2Proof.Machine.execPmuStatRead ag s
  | .egyMeasCmd ag => Sys2Proof.Machine.execEgyMeasCmd ag s
  | .egyRespWrite ag v => Sys2Proof.Machine.execEgyRespWrite ag v s
  | .egyRescWrite ag v => Sys2Proof.Machine.execEgyRescWrite ag v s
  | .egyResstRead ag => Sys2Proof.Machine.execEgyResstRead ag s
  | .egyDeclWrite ag n v => Sys2Proof.Machine.execEgyDeclWrite ag n v s
  | .swClaim ag n v => Sys2Proof.Machine.execSwClaim ag n v s
  | .swClaimRelease ag n => Sys2Proof.Machine.execSwClaimRelease ag n s
  | .monReplanCmd ag => Sys2Proof.Machine.execMonReplanCmd ag s
  | .synEnable ag => Sys2Proof.Machine.execSynEnable ag s
  | .rfeEnable ag => Sys2Proof.Machine.execRfeEnable ag s
  | .cxEnable ag => Sys2Proof.Machine.execCxEnable ag s
  | .synCalCmd ag => Sys2Proof.Machine.execSynCalCmd ag s
  | .rfeBgcalCmd ag => Sys2Proof.Machine.execRfeBgcalCmd ag s
  | .rfeProfFWrite ag n v => Sys2Proof.Machine.execRfeProfFWrite ag n v s
  | .rfeProfMWrite ag n v => Sys2Proof.Machine.execRfeProfMWrite ag n v s
  | .cxArbnxtWrite ag v => Sys2Proof.Machine.execCxArbnxtWrite ag v s
  | .cxCntRead ag => Sys2Proof.Machine.execCxCntRead ag s
  | .mdmEnable ag => Sys2Proof.Machine.execMdmEnable ag s
  | .mdmLsWrite ag m v => Sys2Proof.Machine.execMdmLsWrite ag m v s
  | .mdmCmWrite ag m v => Sys2Proof.Machine.execMdmCmWrite ag m v s
  | .mdmFkWrite ag m v => Sys2Proof.Machine.execMdmFkWrite ag m v s
  | .mdmCountRead ag mm => Sys2Proof.Machine.execMdmCountRead ag mm s
  | .lnkEnable ag => Sys2Proof.Machine.execLnkEnable ag s
  | .lnkDisable ag => Sys2Proof.Machine.execLnkDisable ag s
  | .lnkSfWrite ag f v => Sys2Proof.Machine.execLnkSfWrite ag f v s
  | .lnkCellWrite ag n k v => Sys2Proof.Machine.execLnkCellWrite ag n k v s
  | .lnkChWrite ag k v => Sys2Proof.Machine.execLnkChWrite ag k v s
  | .lnkClsStartWrite ag c v => Sys2Proof.Machine.execLnkClsStartWrite ag c v s
  | .lnkAsnloRead ag c => Sys2Proof.Machine.execLnkAsnloRead ag c s
  | .lnkNbrWrite ag n v => Sys2Proof.Machine.execLnkNbrWrite ag n v s
  | .lnkTadjWrite ag v => Sys2Proof.Machine.execLnkTadjWrite ag v s
  | .lnkCntRead ag => Sys2Proof.Machine.execLnkCntRead ag s
  | .beaconReceived f lo fine lqi => Sys2Proof.Machine.execBeaconReceived f lo fine lqi s
  | .beaconCollectEnd => Sys2Proof.Machine.execBeaconCollectEnd s
  | .joinWaitTimeout => Sys2Proof.Machine.execJoinWaitTimeout s
  | .joinRequestReceived f lqi => Sys2Proof.Machine.execJoinRequestReceived f lqi s
  | .joinRelayReceived parent body => Sys2Proof.Machine.execJoinRelayReceived parent body s
  | .joinResponseReceived body => Sys2Proof.Machine.execJoinResponseReceived body s
  | .joinDeliverReceived f => Sys2Proof.Machine.execJoinDeliverReceived f s
  | .helloReceived f lqi => Sys2Proof.Machine.execHelloReceived f lqi s
  | .advertReceived orig body => Sys2Proof.Machine.execAdvertReceived orig body s
  | .advertInterval => Sys2Proof.Machine.execAdvertInterval s
  | .parentBeaconTimeout a => Sys2Proof.Machine.execParentBeaconTimeout a s
  | .childTimeout a => Sys2Proof.Machine.execChildTimeout a s
  | .routeEntryExpiry a => Sys2Proof.Machine.execRouteEntryExpiry a s
  | .upFrameReceived f lqi => Sys2Proof.Machine.execUpFrameReceived f lqi s
  | .downFrameReceived f lqi => Sys2Proof.Machine.execDownFrameReceived f lqi s
  | .rootSendDown dest ty jt body => Sys2Proof.Machine.execRootSendDown dest ty jt body s
  | .floodReceived f lqi => Sys2Proof.Machine.execFloodReceived f lqi s
  | .routeErrReceived fdst hop => Sys2Proof.Machine.execRouteErrReceived fdst hop s
  | .meshNoAckReturn f tries => Sys2Proof.Machine.execMeshNoAckReturn f tries s
  | .ping orig token => Sys2Proof.Machine.execPing orig token s
  | .getInfo orig token => Sys2Proof.Machine.execGetInfo orig token s
  | .getPlan orig token page => Sys2Proof.Machine.execGetPlan orig token page s
  | .keyNext orig token epoch kw => Sys2Proof.Machine.execKeyNext orig token epoch kw s
  | .keySwitch orig epoch asn => Sys2Proof.Machine.execKeySwitch orig epoch asn s
  | .keySwitchAsnReached => Sys2Proof.Machine.execKeySwitchAsnReached s
  | .leave orig token => Sys2Proof.Machine.execLeave orig token s
  | .unknownCmd orig loc cid token => Sys2Proof.Machine.execUnknownCmd orig loc cid token s
  | .tapRecordApply body => Sys2Proof.Machine.execTapRecordApply body s
  | .cphEnable ag => Sys2Proof.Machine.execCphEnable ag s
  | .cphGo ag u => Sys2Proof.Machine.execCphGo ag u s
  | .cphAbort ag u => Sys2Proof.Machine.execCphAbort ag u s
  | .cipherPageForeign ag u off => Sys2Proof.Machine.execCipherPageForeign ag u off s
  | .cphStatRead ag => Sys2Proof.Machine.execCphStatRead ag s
  | .kstAttrWrite ag slot v => Sys2Proof.Machine.execKstAttrWrite ag slot v s
  | .tagReqa wupa => Sys2Proof.Machine.execTagReqa wupa s
  | .tagAnticollision cl n known => Sys2Proof.Machine.execTagAnticollision cl n known s
  | .tagSelect cl uid => Sys2Proof.Machine.execTagSelect cl uid s
  | .tagHlta => Sys2Proof.Machine.execTagHlta s
  | .tagRats => Sys2Proof.Machine.execTagRats s
  | .tagDeselect => Sys2Proof.Machine.execTagDeselect s
  | .tagReplyMute => Sys2Proof.Machine.execTagReplyMute s
  | .tagWtxDue => Sys2Proof.Machine.execTagWtxDue s
  | .selectByName aid => Sys2Proof.Machine.execSelectByName aid s
  | .selectByFile c => Sys2Proof.Machine.execSelectByFile c s
  | .readBinary off len => Sys2Proof.Machine.execReadBinary off len s
  | .updateBinary off data => Sys2Proof.Machine.execUpdateBinary off data s
  | .mailboxWrite seq data levels => Sys2Proof.Machine.execMailboxWrite seq data levels s
  | .nfcEnable ag => Sys2Proof.Machine.execNfcEnable ag s
  | .nfcDisable ag => Sys2Proof.Machine.execNfcDisable ag s
  | .nfcPoll ag => Sys2Proof.Machine.execNfcPoll ag s
  | .nfcXchg ag => Sys2Proof.Machine.execNfcXchg ag s
  | .nfcDesel ag => Sys2Proof.Machine.execNfcDesel ag s
  | .nfcFieldoff ag => Sys2Proof.Machine.execNfcFieldoff ag s
  | .nfcCntRead ag => Sys2Proof.Machine.execNfcCntRead ag s
  | .tmrEnable ag n => Sys2Proof.Machine.execTmrEnable ag n s
  | .tmrCmpWrite ag n c v => Sys2Proof.Machine.execTmrCmpWrite ag n c v s
  | .tmrCaprRead ag n => Sys2Proof.Machine.execTmrCaprRead ag n s
  | .tmrCapfRead ag n => Sys2Proof.Machine.execTmrCapfRead ag n s
  | .tmrOwnWrite ag v => Sys2Proof.Machine.execTmrOwnWrite ag v s
  | .rtcSubRead ag => Sys2Proof.Machine.execRtcSubRead ag s
  | .rtcSecRead ag => Sys2Proof.Machine.execRtcSecRead ag s
  | .rtcSecWrite ag v => Sys2Proof.Machine.execRtcSecWrite ag v s
  | .rtcTrimWrite ag v => Sys2Proof.Machine.execRtcTrimWrite ag v s
  | .rtcAlarmWrite ag v => Sys2Proof.Machine.execRtcAlarmWrite ag v s
  | .rtcCfgWrite ag v => Sys2Proof.Machine.execRtcCfgWrite ag v s
  | .wdtEnable ag => Sys2Proof.Machine.execWdtEnable ag s
  | .wdtKick ag v => Sys2Proof.Machine.execWdtKick ag v s
  | .wdtDbgpauseWrite ag b => Sys2Proof.Machine.execWdtDbgpauseWrite ag b s
  | .icuClaimRead ag t => Sys2Proof.Machine.execIcuClaimRead ag t s
  | .icuDoneWrite ag t v => Sys2Proof.Machine.execIcuDoneWrite ag t v s
  | .icuSrcWrite ag n v => Sys2Proof.Machine.execIcuSrcWrite ag n v s
  | .icuSwsetWrite ag v => Sys2Proof.Machine.execIcuSwsetWrite ag v s
  | .evrChWrite ag c v => Sys2Proof.Machine.execEvrChWrite ag c v s
  | .evrTsubWrite ag t v => Sys2Proof.Machine.execEvrTsubWrite ag t v s
  | .evrSwpubWrite ag v => Sys2Proof.Machine.execEvrSwpubWrite ag v s
  | .evrStatRead ag => Sys2Proof.Machine.execEvrStatRead ag s
  | .evrTstatRead ag t => Sys2Proof.Machine.execEvrTstatRead ag t s
  | .flcProgram ag addr => Sys2Proof.Machine.execFlcProgram ag addr s
  | .flcErase ag addr => Sys2Proof.Machine.execFlcErase ag addr s
  | .sqopen ag sect => Sys2Proof.Machine.execSqopen ag sect s
  | .sqcommit ag sect => Sys2Proof.Machine.execSqcommit ag sect s
  | .sqabandon ag sect => Sys2Proof.Machine.execSqabandon ag sect s
  | .sqlevel ag => Sys2Proof.Machine.execSqlevel ag s
  | .proterase ag => Sys2Proof.Machine.execProterase ag s
  | .protprog ag w => Sys2Proof.Machine.execProtprog ag w s
  | .squirrelEnable ag => Sys2Proof.Machine.execSquirrelEnable ag s
  | .flcPwd1Write ag v => Sys2Proof.Machine.execFlcPwd1Write ag v s
  | .flcEccRead ag => Sys2Proof.Machine.execFlcEccRead ag s
  | .otpProg ag => Sys2Proof.Machine.execOtpProg ag s
  | .hpEnable ag => Sys2Proof.Machine.execHpEnable ag s
  | .hostRead n addr clocked => Sys2Proof.Machine.execHostRead n addr clocked s
  | .hostReadf n addr clocked => Sys2Proof.Machine.execHostReadf n addr clocked s
  | .hostWrite n addr words => Sys2Proof.Machine.execHostWrite n addr words s
  | .hostWritef n addr words => Sys2Proof.Machine.execHostWritef n addr words s
  | .hostOffer cmd hi lo => Sys2Proof.Machine.execHostOffer cmd hi lo s
  | .hostV1Read addr clocked => Sys2Proof.Machine.execHostV1Read addr clocked s
  | .hostV1Write addr words => Sys2Proof.Machine.execHostV1Write addr words s
  | .hostFetchDone => Sys2Proof.Machine.execHostFetchDone s
  | .hostPostedWrite => Sys2Proof.Machine.execHostPostedWrite s
  | .hpDbellWrite v => Sys2Proof.Machine.execHpDbellWrite v s
  | .hpCntRead ag => Sys2Proof.Machine.execHpCntRead ag s
  | .svcOpen late hi lo => Sys2Proof.Machine.execSvcOpen late hi lo s
  | .svcRead late n addr => Sys2Proof.Machine.execSvcRead late n addr s
  | .svcWrite late addr words chk => Sys2Proof.Machine.execSvcWrite late addr words chk s
  | .svcHalt late mask => Sys2Proof.Machine.execSvcHalt late mask s
  | .svcRun late mask => Sys2Proof.Machine.execSvcRun late mask s
  | .svcStep late core => Sys2Proof.Machine.execSvcStep late core s
  | .svcRegrd late core reg => Sys2Proof.Machine.execSvcRegrd late core reg s
  | .svcRegwr late core reg v chk => Sys2Proof.Machine.execSvcRegwr late core reg v chk s
  | .svcReset late addr => Sys2Proof.Machine.execSvcReset late addr s
  | .svcClose late => Sys2Proof.Machine.execSvcClose late s
  | .svcStatus late op => Sys2Proof.Machine.execSvcStatus late op s

end Sys2Proof.Machine
end

