-- ==== Sys2Proof/Machine/Tick.lean ====
section
/-!
DEFINITION. Time: what happens in one period of HF-REF while no command waits.  The clocks count, and the commands
whose instants have come join the queue.  Analog measurements, frames from the air, field events and edges at
pins come from outside only; the outcomes that the spec leaves to physics, a lock and a verified pulse, are free.
-/
namespace Sys2Proof.Machine

/-- A command that is due under a condition.
[DESIGN CHOICE, unsafe: notes/assumptions/64] -/
def due (b : Bool) (i : Instr) : List Instr := if b then [i] else []

/-- An instant has come. -/
def Chip.past (s : Chip) (t : Option Nat) : Bool := t.any (fun t => t ≤ s.now)

/-! ### Clocks, power, boot -/

def LfDue.instr : LfDue → Instr
  | .rtcApply => .rtcSecWriteApply
  | .second => .secondBoundary
  | .wrap n => .timerPrescalerWrap n

/-- The core that the boot releases next. -/
def Chip.releaseDue (s : Chip) : List Instr :=
  if s.boot.ph = .release && s.boot.granted then s.boot.todo.head?.toList.map Instr.coreRelease else []

def Chip.powerDue (s : Chip) : List Instr :=
  due (!s.clk.lfOn && s.clk.vaonAt + secs 1 = s.now && s.pwr.st ≠ .ship && !s.nfc.harvest) .lfxoStartTimeout
  ++ due (s.past s.clk.vcoreAt) .vcoreRaiseSettled ++ due (s.past s.clk.pllLockAt) .pllLock
  ++ due (s.pwr.entering.isSome && s.pwr.entryDoneAt ≤ s.now) .restEntry
  ++ due (s.past s.pwr.linkWakeAt) .linkWake
  ++ due (s.pwr.st = .sleep && s.pwr.wakeGranted && !s.holds 12) .wakeFromSleep
  ++ due (s.pwr.st = .hibernate && s.pwr.wakeGranted && !s.holds 12) .hibernateWake
  ++ s.releaseDue

/-- An AON-RC cycle, nominally 1,000 periods of HF-REF, for the watchdog (R407 to R410).
[DESIGN CHOICE, unsafe: notes/assumptions/11] -/
def Chip.wdtTick (s : Chip) : List Instr × Chip :=
  if s.now % 1000 ≠ 0 || !s.bit F.WDT_CTL_EN || s.wdtPaused then ([], s)
  else
    let n := s.tmr.wdt + 1
    (due (8 * n = 7 * s.wdtPeriod) .wdtWarning ++ due (s.wdtPeriod ≤ n) .wdtExpiry, { s with tmr := { s.tmr with wdt := n } })

/-- Edges of AON-LF and of HF-REF for the time bases and the timers. -/
def Chip.clockTick (s : Chip) : List Instr × Chip :=
  let (l, s1) := if s.clk.lfOn && s.lfIdx (s.now - 1) ≠ s.lfIdx s.now then s.lfEdge else ([], s)
  let (w, s2) := if s1.clk.hfOn && s1.pwr.st = .run then s1.sourceTick 0 else ([], s1)
  (l.map LfDue.instr ++ w.map Instr.timerPrescalerWrap, s2)

/-! ### Bear and the health monitor -/

def Chip.bearDue (s : Chip) : List Instr :=
  (s.bear.pend.flatMap fun c =>
    due (s.past c.earliest) (.earliestStartReached c.who) ++ due (c.deadline.any (fun t => t < s.now) && !s.fresh c) (.claimDeadlinePassed c.who))
  ++ (s.bear.grants.flatMap fun g =>
    due (!g.cont && g.fin ≤ s.now) (.burstGrantEnd g.who))
  ++ ((List.range 64).flatMap fun i =>
    due ((s.bear.resv.getD i none).any (fun r => s.resvTime r + msec 1 < s.now)) (.reservationExpiry i))
  ++ due (s.warnHold && s.past s.bear.holdCheckAt) .warningHoldRecheck
  ++ due (s.past s.bear.nextMeas && !s.bear.measDue && s.pwr.st = .run) .measIntervalExpiry
  ++ due ((s.bear.measDue && s.pwr.st = .run || s.wakeMeasDue) && !s.bear.measuring && s.measStart.bear.measuring) .measurementStart
  ++ due (s.past s.bear.retryAt && !s.bear.measuring) .measurementRetry
  ++ due (s.mon.nextPlan.any (fun t => t ≤ s.owl.stb) && !s.mon.planning) .replanDue ++ due (s.past s.mon.planDoneAt) .replanDone

/-- Marked grants at their claimants' safe points (R134). -/
def Chip.preemptDue (s : Chip) : List Instr := s.bear.grants.flatMap fun g => due (g.marked && s.claimantSafe g.who) (.preemptedStop g.who)

/-- The schedules of R121, R135 and R65 begin with the chip's run. -/
def Chip.schedules (s : Chip) : Chip :=
  if s.pwr.bootPending then s
  else
    let b := { s.bear with nextMeas := some (s.bear.nextMeas.getD (s.now + secs (60 * s.fld F.EGY_CFG_MEASINT))),
                           holdCheckAt := if s.warnHold then
                             (if s.past s.bear.holdCheckAt then some (s.now + secs 1) else some (s.bear.holdCheckAt.getD (s.now + secs 1)))
                           else none }
    { s with bear := b, mon := { s.mon with nextPlan := some (s.mon.nextPlan.getD (s.owl.stb + dayTicks)) } }

/-! ### Radio and link controller -/

/-- The synthesiser's steps and its lock; `lock` and `ok` are what the loop and the calibration find.
[DESIGN CHOICE, safe: notes/assumptions/65] -/
def Chip.synDue (s : Chip) (lock ok : Bool) : List Instr :=
  (match s.syn.job with
   | .bg _ => due (s.past s.syn.stepEnd) .bgCalStepDone
   | _ => due (s.past s.syn.stepEnd) (.calStepDone ok))
  ++ due (lock && s.syn.lockFrom.any (fun t => t + us 4 ≤ s.now)) .synLock
  ++ due (s.syn.lockFrom.any (fun t => t + us 60 = s.now)) .lockFailTimeout
  ++ due (s.bit F.SYN_STAT_CALPEND && s.radioIdle) .calPendingStart
  ++ due (s.bgMask ≠ s.syn.bgDue) .bgCalDue
  ++ due (s.syn.bgDue ≠ 0 && s.radioIdle && (s.claimOf 5).isNone && s.bit F.SYN_CTL_EN && s.bit F.RFE_CTL_EN && s.pwr.st = .run) .bgCalStepStart

/-- The level on CX_GNT. -/
def Chip.gntLevel (s : Chip) : Bool := s.padIn 10

/-- A held transmission is examined again where the rule of R171 would answer otherwise than it did. -/
def Chip.holdChanges (s : Chip) (l : Live) : Bool :=
  if s.bit F.SYN_STAT_LOCK && !s.calRuns then !s.cxDenies || l.cxTx || !l.cxHeld else l.cxHeld

/-- The instants of a transmission before its ramp (R165, R171), an acknowledgement's TXEN among them. -/
def Chip.txDue (s : Chip) (l : Live) : List Instr :=
  let lead := s.now + us l.lead
  if s.txWaiting.isNone then
    due (l.ack.isSome && 4 ≤ s.fld F.LNK_STAT_LIVE && l.rampAt.isNone && !l.txenUp && s.ackRampAt l ≤ lead) .txenRise
  else
    due (!l.txenUp && s.startOf l ≤ lead + s.ramp) .txenRise
    ++ (if l.held then
          if s.deadlineOf l < s.now + s.ramp then [.txDeadlineDrop] else due (s.holdChanges l) (.txHoldResolve s.gntLevel)
        else due (s.startOf l ≤ s.now + s.ramp) (.txRampStart s.gntLevel))

/-- The instants of a window and of the acknowledgements (R249, R253, R254), and the latest handover of a frame (R200, R221,
R231). -/
def Chip.winDue (s : Chip) (l : Live) : List Instr :=
  let live := s.fld F.LNK_STAT_LIVE
  (match l.win with
   | none => []
   | some w =>
     due (!l.c.tx && s.inPrep && !w.opened && w.openAt ≤ s.now && s.bit F.SYN_STAT_LOCK) (.rxWindowOpen s.gntLevel)
     ++ due (live = 3 && !l.held && ackClaimDue w ≤ s.now) (.ackWindowOpen s.gntLevel)
     ++ due (live = 3 && l.held && l.granted && !w.opened && w.openAt ≤ s.now && s.bit F.SYN_STAT_LOCK) (.ackWindowOpen s.gntLevel)
     ++ due (w.st = .done && w.endAt + tHandover l.mm l.mset ≤ s.now) .frameHandover
     ++ due (live = 3 && w.st = .handed) .ackReceived
     ++ due (live = 3 && w.st = .search && w.closeAt ≤ s.now) .ackWindowClose
     ++ due (live ≠ 3 && live ≠ 5 && w.st = .search && w.closeAt ≤ s.now) .rxWindowClose)
  ++ due (live = 4 && l.ack.isSome && s.ackClaimAt l ≤ s.now) .ackClaim
  ++ due (live = 5 && l.rampAt.isNone && s.ackRampAt l ≤ s.now) (.ackTxStart s.gntLevel)

/-- Transmissions end. -/
def Chip.txEndDue (s : Chip) (l : Live) : List Instr :=
  let live := s.fld F.LNK_STAT_LIVE
  due (live = 2 && s.past l.txEnd) .txEnd ++ due (live = 5 && s.past l.txEnd) .ackTxEnd

/-- The instants of the live cell. -/
def Chip.liveDue (s : Chip) (f : Live → List Instr) : List Instr :=
  match s.lnk.live with
  | none => []
  | some l => f l

/-- Preparation starts; of cells that start in one cycle the lowest class comes first (R245). -/
def Chip.prepDue (s : Chip) : List Instr :=
  (sortBy id ((s.lnk.chosen.filter (fun k => k.ended.isNone && s.prepAt k ≤ s.now)).map Chosen.cls)).map Instr.cellPrepStart

/-- Choices before boundaries, so that a boundary meets the windows that open at it (R257), then preparations (R236, R243,
R248), and the loss of synchronism (R258). -/
def Chip.linkDue (s : Chip) : List Instr :=
  if !s.lnk.running then []
  else
    ((List.range 4).flatMap fun c => due (s.boundaryAt c (s.lnk.nextC.getD c 0) ≤ (s.now + s.cxLead : Nat)) (.cellChoice c))
    ++ ((List.range 4).flatMap fun c => due (s.boundaryAt c (s.lnk.nextB.getD c 0) ≤ s.now) (.slotBoundary c))
    ++ s.prepDue
    ++ due (!s.lnk.desynced && s.fld F.LNK_SYNC_DESYNC ≠ 0 && s.lnk.lastCorr + secs (s.fld F.LNK_SYNC_DESYNC) ≤ s.now) .desyncTimeout

/-- Bookings (R261, R262), at the ends of Bear's cycles, after the releases and the claims (R133). -/
def Chip.bookDue (s : Chip) : List Instr :=
  if !s.lnk.running || s.now % 32 ≠ 0 then []
  else
    ([8, 9, 10, 11, 12, 13, 14, 15].flatMap fun q => due (s.bookable q) (.bookTxEntry q))
    ++ (s.validCells.flatMap fun e => due (s.bookRxNext e.1).isSome (.bookRxCell e.1))

/-! ### Mesh layer -/

/-- The intervals of R301, R307, R309 and R317, and at a second boundary the age of the root's routes (R312).
[DESIGN CHOICE, unsafe: notes/assumptions/69] [DESIGN CHOICE, unsafe: notes/assumptions/70] -/
def Chip.meshDue (s : Chip) (second : Bool) : List Instr :=
  let m := s.mesh
  due (s.past m.collectAt) .beaconCollectEnd ++ due (s.past m.joinAt) .joinWaitTimeout
  ++ due (m.member && s.past m.advertAt) .advertInterval
  ++ (m.peers.flatMap fun p =>
    due (m.parents.contains p.addr && p.beacons && p.beaconAt + s.beaconPeriods 4 < s.now) (.parentBeaconTimeout p.addr))
  ++ (m.children.flatMap fun c => due (s.childSilent c) (.childTimeout c.addr))
  ++ (if second && m.role = 2 then
        (List.range 0x4000).flatMap fun a => due (rtValid (s.rt a) && decide (s.routeExpiry a ≠ s)) (.routeEntryExpiry a)
      else [])
  ++ due (m.switch.any (fun p => p.2 ≤ s.asnNow 0)) .keySwitchAsnReached

/-- The command that a body for the layer is: what the root is told, a RESPONSE, a command of R316. -/
def MeshItem.instr (x : MeshItem) : List Instr :=
  let b := x.body
  let arg := b.drop 2
  match x.ty with
  | 3 => if x.jt = 2 then [.joinRelayReceived x.orig b] else if x.jt = 3 then [.joinResponseReceived b] else []
  | 4 => [.advertReceived x.orig b]
  | 5 =>
    let token := octAt b 1
    let w : CmdFrom := { orig := x.orig, loc := x.nt = 0 }
    match octAt b 0 with
    | 1 => [.ping w token]
    | 2 => [.getInfo w token]
    | 3 => [.getPlan w token (octAt arg 0)]
    | 4 => [.keyNext w token (octAt arg 0) (arg.drop 1)]
    | 5 => [.keySwitch { src := w, token := token } (octAt arg 0) (leNat ((arg.drop 1).take 6))]
    | 6 => [.leave w token]
    | 7 => [.routeErrReceived (oct2 arg 1) (oct2 arg 3)]
    | c => if c < 0x80 then [.unknownCmd x.orig (x.nt = 0) c token] else []
  | _ => []

/-- The command that a received frame is to the layer. -/
def frameInstr (f : List Byte) (lo fine lqi : Nat) : List Instr :=
  match meshParse f with
  | none => []
  | some m =>
    match m.ty, m.nt with
    | 2, _ => [.beaconReceived f lo fine lqi]
    | 6, _ => [.helloReceived f lqi]
    | 3, 0 => if m.jt = 1 then [.joinRequestReceived f lqi] else [.joinDeliverReceived { octets := f, lqi := lqi }]
    | _, 1 => [.upFrameReceived f lqi]
    | _, 2 => [.downFrameReceived f lqi]
    | _, 3 => [.floodReceived f lqi]
    | _, _ => []

/-- The running layer takes what waits for it, one thing in a cycle: an entry returned with NO_ACK, a body for itself, a frame
from the receive queues.  An answer to GET_PLAN is loaded, and LOCAL frames are delivered, on the spot.
[DESIGN CHOICE, unsafe: notes/assumptions/172] -/
def Chip.meshTake (s : Chip) : List Instr × Chip :=
  let m := s.mesh
  if !m.up then ([], s)
  else
    match m.returns, m.inbox with
    | (f, n) :: l, _ => ([.meshNoAckReturn f n], s.setMesh { m with returns := l })
    | [], x :: l =>
      let s1 := s.setMesh { m with inbox := l }
      if x.ty = 5 && x.nt = 0 && octAt x.body 0 = 0x83 && octAt x.body 2 = Rc.OK then ([], s1.planReceived (x.body.drop 3)) else (x.instr, s1)
    | [], [] =>
      match s.rxHead with
      | none => ([], s)
      | some (q, a, f) =>
        let s1 := s.rxAdvance q
        let lqi := bits (s.rd (a + 1)).toNat 16 9
        if bits (s.rd a).toNat 27 20 ≠ Rc.OK then ([], s1)
        else
          match meshParse f with
          | none => ([], s1.meshCount Rc.STREAM)
          | some p =>
            if p.nt = 0 && (p.ty = 0 || p.ty = 5) then ([], s1.localReceived f lqi)
            else (frameInstr f (s.rd (a + 2)).toNat (bits (s.rd (a + 3)).toNat 10 0) lqi, s1)

/-! ### Cipher, contactless block, flash -/

def Chip.cipherDue (s : Chip) : List Instr :=
  (List.range 4).flatMap fun u => due (s.pageWorks u && (s.page u).setup = 0 && (s.page u).left = 0) (.cipherOpDone u false)

def Chip.nfcDue (s : Chip) : List Instr :=
  let r := s.nfc.rd
  due (s.nfc.reply.isSome && s.nfc.replyAt + us 40 ≤ s.now) .tagReplyMute
  ++ due (s.nfc.mbox.any (fun m => s.past m.wtxAt)) .tagWtxDue
  ++ (match r.ph with
      | .guard => due (s.past r.due) .readerRoundStart
      | .ping => []
      | _ => due (s.past r.due) .readerFrameTimeout)
  ++ due s.pingIsDue .pingDue

/-- The pulse in progress ends, verified or not.
[DESIGN CHOICE, safe: notes/assumptions/65] -/
def Chip.flashDue (s : Chip) (verified : Bool) : List Instr :=
  if !s.flc.pulsing || !s.past s.flc.pulseAt then []
  else if s.flc.otp.isSome && s.flc.op.isNone then [.otpPulseEnd verified]
  else match s.flc.op.bind (fun o => o.steps.head?) with
    | some (.prog _ _) => [.programPulseEnd verified]
    | _ => [.erasePulseEnd verified]

/-! ### Interrupts and events, cores -/

def Chip.eventDue (s : Chip) : List Instr :=
  (s.evr.fire.filter (fun p => p.2.1 ≤ s.now)).map (fun p => .taskFire p.1)
  ++ (sources.flatMap fun n => due (s.fld (F.ICU_SRC_STATE n) = 1 && s.fld (F.ICU_SRC_TRIG n) = 0 && !s.levelReq n) (.levelRequestFall n))
  ++ (s.icu.since.flatMap fun p => (List.range 4).flatMap fun t =>
    due (s.presented t p.1 && s.fld (F.ICU_MOD_COAL t) ≠ 0 && !s.targetWaiting t && !s.icu.ripe.contains (t, p.1)
      && p.2 + us (s.fld (F.ICU_MOD_COAL t)) ≤ s.icu.ran) (.coalExpiry t p.1))

def Chip.coreDue (s : Chip) : List Instr :=
  allCores.flatMap fun c =>
    let x := s.core c
    due (!x.wbuf.isEmpty) (.writeBufferDrain c) ++ due (s.interruptDue c) (.interruptEntry c)
    ++ due (x.run = .wait && s.endWait c ≠ s) (.waitEnd c)

/-- The cycles of a core of rate `r` MHz in the period that ends at `t`. -/
def coreCycles (r t : Nat) : Nat := r * t / 32 - r * (t - 1) / 32

/-- A core that waits counts the cycles of its clock, which stops in DOZE and while Bear holds it; Badger's runs through SLOTW
(R134, R441, R461, R490). -/
def Chip.waitCycles (s : Chip) (c : Core) : Chip :=
  if (s.core c).clkHeld then s
  else match (s.core c).run with
  | .wait => if s.pwr.st = .run && !s.allWait && !s.stalled c then s.addCyc c (coreCycles (s.rateNow c) s.now) else s
  | .slotw _ => s.addCyc c (coreCycles (s.rateNow c) s.now)
  | _ => s

/-- FABRIC runs through one more period (R422). -/
def Chip.fabricRan (s : Chip) : Chip := if s.fabricOn then { s with icu := { s.icu with ran := s.icu.ran + 1 } } else s

/-- Pulses asked for through EVR_SWPUB in the cycle before (R427), level sources (R414), and the cycles of cores that wait. -/
def Chip.eventTick (s : Chip) : Chip :=
  allCores.foldl Chip.waitCycles (s.evr.swNext.foldl Chip.pulse { s.fabricRan with evr := { s.evr with swNext := [] } }).levelsPend

/-! ### Ports and loaders -/

/-- The loader's row for the command it finds; an undefined operation is taken by any of them. -/
def Chip.loaderDue (s : Chip) : List Instr :=
  if !s.ldrSees s.ldrOp then []
  else match s.ldrOp with
    | 2 => [.loaderData] | 3 => [.loaderCommit] | 4 => [.loaderStream] | _ => [.loaderBegin]

def Chip.portDue (s : Chip) : List Instr :=
  due (!s.hp.posts.isEmpty) .hostPostedWrite
  ++ due (s.hp.posts.isEmpty && s.hp.fetch.isSome) .hostFetchDone
  ++ due (s.session && s.svc.edgeAt + secs 1 ≤ s.now) .svcSessionTimeout
  ++ s.loaderDue
  ++ due (s.ldr.who = .off && s.cores.foxA.run = .run && s.cores.foxA.pc.toNat ≠ 0
      && s.cores.foxA.pc.toNat = bits (s.flashRd (voleBase + 5)).toNat 23 0 && s.voleGood) .voleStart
  ++ due (s.ldr.who = .vole && !s.ldr.parked && s.ldr.job = .idle && s.ldr.lastCmd + secs 60 ≤ s.now) .voleIdleTimeout

/-! ### One period -/

/-- A rest entry begins where nothing keeps the chip awake (R103, R106). -/
def Chip.restTick (s : Chip) : Chip :=
  match s.pwr.entering, s.restDepth with
  | none, some p => s.restBegin p
  | _, _ => s

/-- What the stamp unit holds in the cycle: its time, and the SEQ of the most recent stamp (R491). -/
def Chip.sampleNow (s : Chip) : Chip :=
  let (lo, fv, fine) := s.stampTime s.now
  { s with owl := { s.owl with sample := { lo := lo, seq := s.owl.seq, fv := fv, fine := fine } } }

/-- The stamps of a cycle after those of received frames, which are taken as they come: of transmit completions, slot records,
contactless frames and events (R32). -/
def Chip.lastStamps (s : Chip) : Chip := s.lateReturns.stampDone.stampReturned.stampRecords.stampFrame.slotEnd.stampEvents.sampleNow

/-- What the clock alone brings in a cycle. -/
def Chip.cycleStart (s : Chip) : Chip := s.bootSample.calReclaim.eventTick.txStartPulse.cphTick.nfcTick.meshRun

/-- The commands that the chip's own clocks bring in the next period, and the chip then.  Ends come before claims, choices
before boundaries, and bookings last.
[DESIGN CHOICE, unsafe: notes/assumptions/2] [DESIGN CHOICE, unsafe: notes/assumptions/64] -/
def Chip.tick (s0 : Chip) : List Instr × Chip :=
  let p := s0.lastStamps
  let s := { p with now := p.now + 1, free := p.free + 3 }
  -- in harvest mode nothing runs but the harvest path (R353, R368)
  if s.nfc.harvest then (s.flashDue (Config.freeBool (p.free + 2)), s)
  else
  let (a, s1) := s.clockTick
  let (b, s2) := s1.wdtTick
  -- in the dead state nothing works but the reset logic, the always-on clocks and the field detector (R582)
  if s.boot.ph = .dead then (a ++ b ++ s2.flashDue (Config.freeBool (p.free + 2)), s2)
  else
  let s3 := s2.cycleStart
  let late := s3.liveDue s3.txEndDue ++ s3.bearDue ++ s3.synDue (Config.freeBool p.free) (Config.freeBool (p.free + 1))
    ++ s3.liveDue s3.txDue ++ s3.liveDue s3.winDue ++ s3.linkDue ++ s3.preemptDue ++ s3.powerDue
    ++ s3.meshDue (a.contains .secondBoundary) ++ s3.cipherDue ++ s3.nfcDue ++ s3.flashDue (Config.freeBool (p.free + 2))
    ++ s3.eventDue ++ s3.coreDue ++ s3.portDue ++ s3.bookDue
  let (c, s4) := s3.meshTake
  (a ++ b ++ late ++ c, s4.schedules.restTick.settle)

end Sys2Proof.Machine
end

