-- ==== Sys2Proof/Machine/Step.lean ====
section
/-!
DEFINITION. One step: the command at the front of the queue, or, when none waits, one period of HF-REF.
-/
namespace Sys2Proof.Machine

/-- Run the command that waits longest; with none waiting, a period of HF-REF passes and the commands that fall
due join the queue.
[DESIGN CHOICE, unsafe: notes/assumptions/2] [DESIGN CHOICE, unsafe: notes/assumptions/4] -/
def step (s : State) : Host.Outcome State Fault Refusal :=
  match s.pending with
  | i :: rest => exec i { s with pending := rest }
  | [] => .next { pending := s.chip.tick.1, chip := s.chip.tick.2 }

/-- The opcode table gives no row a bit pattern, so no word spells a command, and the queue stays as it is.
[DESIGN CHOICE, safe: notes/assumptions/3] -/
def State.withFetchWord (s : State) (nbits w : Nat) : State :=
  match decodeTableWord nbits w with
  | none => s
  | some i => { s with pending := i :: s.pending }

end Sys2Proof.Machine
end

