-- ==== Sys2Proof/WellFormed.lean ====
section
/-!
DEFINITION. Which commands the chip's interfaces can pose: every index names one of what it counts, every address
and length fits its field.
-/
namespace Sys2Proof

/-- An address of the register window (R8, R493). -/
def inBlock (a : Nat) : Bool := decide (0x300000 ≤ a) && decide (a < 0x400400)

/-- 1 to 256 words from a 24-bit address, as the command word has them (R537, R550). -/
def transferOk (n a : Nat) : Bool := decide (1 ≤ n) && decide (n ≤ 256) && decide (a < 2 ^ 24)

/-- A well-formed command. -/
def Instr.wf : Instr → Bool
  | .blockSafePointStop _ => true
  | .vcoreRaiseSettled => true
  | .pllLock => true
  | .hwQueueProduce q entry => decide (q < 32) && decide (entry.length ≤ 8)
  | .hwQueueConsume q _ => decide (q < 32)
  | .stampRequest _ _ => true
  | .writeBufferDrain _ => true
  | .bootSequence _ => true
  | .coreRelease _ => true
  | .bootSupplyRemeasure _ => true
  | .vddio2Change _ => true
  | .powerOnReset => true
  | .brownoutReset _ => true
  | .vinWarning => true
  | .vsysWarning => true
  | .resetnPulse _ => true
  | .lfxoFirstEdge => true
  | .lfxoStartTimeout => true
  | .lfxoStop => true
  | .lfxoRestored => true
  | .restEntry => true
  | .wakePinEdge n _ => decide (n < 24)
  | .linkWake => true
  | .svcWakeEdge => true
  | .wakeFromSleep => true
  | .hibernateWake => true
  | .wakeDeferRemeasure _ => true
  | .bearClaim n _ _ _ _ _ => decide (n < 16)
  | .earliestStartReached n => decide (n < 16)
  | .claimRelease n => decide (n < 16)
  | .burstGrantEnd n => decide (n < 16)
  | .preemptedStop n => decide (n < 16)
  | .claimDeadlinePassed n => decide (n < 16)
  | .warningHoldRecheck => true
  | .vsysSample _ => true
  | .measIntervalExpiry => true
  | .measurementStart => true
  | .measurementDone _ => true
  | .measurementRetry => true
  | .reservationExpiry i => decide (i < 64)
  | .tempSample _ => true
  | .replanDue => true
  | .replanDone => true
  | .ringMeasure counts => decide (counts.length = 4)
  | .hfLfMeasure _ => true
  | .calPendingStart => true
  | .calStepDone _ => true
  | .synLock => true
  | .lockFailTimeout => true
  | .lockLost => true
  | .bgCalDue => true
  | .bgCalStepStart => true
  | .bgCalStepDone => true
  | .agcPeriodEnd _ _ => true
  | .txenRise => true
  | .txRampStart _ => true
  | .txHoldResolve _ => true
  | .txDeadlineDrop => true
  | .cxGntFall => true
  | .cxArbInputChange _ _ => true
  | .preambleAcquired _ => true
  | .syncDecision _ _ _ _ => true
  | .headerDecision _ => true
  | .trackLost => true
  | .frameReceived _ _ _ _ => true
  | .frameHandover => true
  | .slotBoundary c => decide (c < 4)
  | .cellChoice c => decide (c < 4)
  | .cellPrepStart c => decide (c < 4)
  | .rxWindowOpen _ => true
  | .rxWindowClose => true
  | .txEnd => true
  | .ackClaim => true
  | .ackTxStart _ => true
  | .ackTxEnd => true
  | .ackWindowOpen _ => true
  | .ackReceived => true
  | .ackWindowClose => true
  | .desyncTimeout => true
  | .bookTxEntry q => decide (8 ≤ q) && decide (q < 16)
  | .bookRxCell n => decide (n < 1024)
  | .cipherOpDone u _ => decide (u < 4)
  | .fieldDetect _ _ => true
  | .fieldLost => true
  | .vaonUpDuringHarvest => true
  | .readerRoundStart => true
  | .readerAnswer data _ _ _ => decide (data.length < 512)
  | .readerFrameTimeout => true
  | .pingDue => true
  | .pingResult _ phase => decide (phase < 3600)
  | .timerPrescalerWrap n => decide (n < 8)
  | .timerCaptureEdge n _ => decide (n < 8)
  | .secondBoundary => true
  | .rtcSecWriteApply => true
  | .calTosec _ => true
  | .calFromsec _ => true
  | .wdtWarning => true
  | .wdtExpiry => true
  | .levelRequestFall n => decide (1 ≤ n) && decide (n ≤ 95)
  | .coalExpiry t n => decide (t < 4) && decide (1 ≤ n) && decide (n ≤ 95)
  | .taskFire t => decide (t < 32)
  | .interruptEntry _ => true
  | .waitEnd _ => true
  | .mulResultWrite _ => true
  | .lda _ _ => true
  | .sta _ _ => true
  | .ldx _ _ => true
  | .ldy _ _ => true
  | .stx _ _ => true
  | .sty _ _ => true
  | .leax _ _ => true
  | .leay _ _ => true
  | .push _ _ => true
  | .pop _ _ => true
  | .movr _ _ => true
  | .add _ _ => true
  | .adc _ _ => true
  | .sub _ _ => true
  | .sbc _ _ => true
  | .cmp _ _ => true
  | .and _ _ => true
  | .or _ _ => true
  | .xor _ _ => true
  | .neg _ _ => true
  | .not _ _ => true
  | .shl _ _ => true
  | .shr _ _ => true
  | .sha _ _ => true
  | .rol _ _ => true
  | .ror _ _ => true
  | .fadd _ _ => true
  | .fsub _ _ => true
  | .fneg _ _ => true
  | .fabs _ _ => true
  | .fshl _ _ => true
  | .fshr _ _ => true
  | .satn _ _ => true
  | .addd _ _ => true
  | .subd _ _ => true
  | .dad _ _ => true
  | .das _ _ => true
  | .d2b _ _ => true
  | .b2d _ _ => true
  | .crcs _ _ => true
  | .par _ _ => true
  | .brev _ _ => true
  | .mul _ _ => true
  | .mulu _ _ => true
  | .mac _ _ => true
  | .fpr _ _ => true
  | .jcc _ _ _ => true
  | .call _ _ => true
  | .ret _ _ => true
  | .reti _ _ => true
  | .dbx _ _ => true
  | .dby _ _ => true
  | .trap _ _ => true
  | .wait _ _ => true
  | .fence _ _ => true
  | .fencew _ _ => true
  | .fenceio _ _ => true
  | .xchg _ _ => true
  | .slotw _ _ => true
  | .stamp _ _ => true
  | .nop _ _ => true
  | .trapb _ _ => true
  | .programPulseEnd _ => true
  | .erasePulseEnd _ => true
  | .otpPulseEnd _ => true
  | .svcLineReset _ => true
  | .svcSessionTimeout => true
  | .voleStart => true
  | .loaderBegin => true
  | .loaderData => true
  | .loaderCommit => true
  | .loaderStream => true
  | .voleIdleTimeout => true
  | .evtInEdge k _ => decide (k < 8)
  | .fieldCollapse _ => true
  | .registerWrite _ addr _ => inBlock addr
  | .blockDisable _ _ => true
  | .clkFoxWrite _ _ => true
  | .ssmLockWrite _ _ => true
  | .queTailWrite _ q _ => decide (q < 32)
  | .queHeadWrite _ q _ => decide (q < 32)
  | .queueOn _ q _ => decide (q < 32)
  | .queueOff _ q _ => decide (q < 32)
  | .queQstatRead _ q => decide (q < 32)
  | .pinMapWrite _ n _ => decide (n < 24)
  | .pinOutWrite _ _ => true
  | .pinOutsetWrite _ _ => true
  | .pinOutclrWrite _ _ => true
  | .pinOuttglWrite _ _ => true
  | .pinDirWrite _ _ => true
  | .pmuReqWrite _ _ => true
  | .pmuStatRead _ => true
  | .egyMeasCmd _ => true
  | .egyRespWrite _ _ => true
  | .egyRescWrite _ _ => true
  | .egyResstRead _ => true
  | .egyDeclWrite _ n _ => decide (n < 16)
  | .swClaim _ n _ => decide (13 ≤ n) && decide (n < 16)
  | .swClaimRelease _ n => decide (13 ≤ n) && decide (n < 16)
  | .monReplanCmd _ => true
  | .synEnable _ => true
  | .rfeEnable _ => true
  | .cxEnable _ => true
  | .synCalCmd _ => true
  | .rfeBgcalCmd _ => true
  | .rfeProfFWrite _ n _ => decide (n < 8)
  | .rfeProfMWrite _ n _ => decide (n < 8)
  | .cxArbnxtWrite _ _ => true
  | .cxCntRead _ => true
  | .mdmEnable _ => true
  | .mdmLsWrite _ m _ => decide (m < 8)
  | .mdmCmWrite _ m _ => decide (m < 8)
  | .mdmFkWrite _ m _ => decide (m < 8)
  | .mdmCountRead _ mm => decide (1 ≤ mm) && decide (mm ≤ 3)
  | .lnkEnable _ => true
  | .lnkDisable _ => true
  | .lnkSfWrite _ f _ => decide (f < 8)
  | .lnkCellWrite _ n k _ => decide (n < 1024) && decide (k < 2)
  | .lnkChWrite _ k _ => decide (k < 64)
  | .lnkClsStartWrite _ c _ => decide (c < 4)
  | .lnkAsnloRead _ c => decide (c < 4)
  | .lnkNbrWrite _ n _ => decide (n < 64)
  | .lnkTadjWrite _ _ => true
  | .lnkCntRead _ => true
  | .beaconReceived _ _ _ _ => true
  | .beaconCollectEnd => true
  | .joinWaitTimeout => true
  | .joinRequestReceived _ _ => true
  | .joinRelayReceived _ _ => true
  | .joinResponseReceived _ => true
  | .joinDeliverReceived _ => true
  | .helloReceived _ _ => true
  | .advertReceived _ _ => true
  | .advertInterval => true
  | .parentBeaconTimeout a => decide (a < 65536)
  | .childTimeout a => decide (a < 65536)
  | .routeEntryExpiry a => decide (a < 16384)
  | .upFrameReceived _ _ => true
  | .downFrameReceived _ _ => true
  | .rootSendDown dest ty jt _ => decide (dest < 65536) && (decide (ty = 5 ∧ jt = none) || (decide (dest ≠ 65535) && decide (ty = 0 ∧ jt = none ∨ ty = 3 ∧ jt = some 3)))
  | .floodReceived _ _ => true
  | .routeErrReceived _ _ => true
  | .meshNoAckReturn _ _ => true
  | .ping _ _ => true
  | .getInfo _ _ => true
  | .getPlan _ _ _ => true
  | .keyNext _ _ epoch _ => decide (epoch < 2)
  | .keySwitch _ epoch _ => decide (epoch < 2)
  | .keySwitchAsnReached => true
  | .leave _ _ => true
  | .unknownCmd _ _ _ _ => true
  | .tapRecordApply _ => true
  | .cphEnable _ => true
  | .cphGo _ u => decide (u < 4)
  | .cphAbort _ u => decide (u < 4)
  | .cipherPageForeign _ u off => decide (u < 4) && decide (off < 16)
  | .cphStatRead _ => true
  | .kstAttrWrite _ slot _ => decide (slot < 16)
  | .tagReqa _ => true
  | .tagAnticollision cl n _ => decide (1 ≤ cl) && decide (cl ≤ 3) && decide (n ≤ 32)
  | .tagSelect cl _ => decide (1 ≤ cl) && decide (cl ≤ 3)
  | .tagHlta => true
  | .tagRats => true
  | .tagDeselect => true
  | .tagReplyMute => true
  | .tagWtxDue => true
  | .selectByName _ => true
  | .selectByFile c => decide (c.fid < 65536) && decide (c.cla < 256) && decide (c.ins < 256)
    && decide (¬(c.cla = 0x00 ∧ (c.ins = 0xB0 ∨ c.ins = 0xD6)) ∧ ¬(c.cla = 0x80 ∧ c.ins = 0xD0))
  | .readBinary off len => decide (off < 65536) && decide (len ≤ 256)
  | .updateBinary off data => decide (off < 65536) && decide (data.length < 256)
  | .mailboxWrite seq _ _ => decide (seq < 65536)
  | .nfcEnable _ => true
  | .nfcDisable _ => true
  | .nfcPoll _ => true
  | .nfcXchg _ => true
  | .nfcDesel _ => true
  | .nfcFieldoff _ => true
  | .nfcCntRead _ => true
  | .tmrEnable _ n => decide (n < 8)
  | .tmrCmpWrite _ n c _ => decide (n < 8) && decide (c < 2)
  | .tmrCaprRead _ n => decide (n < 8)
  | .tmrCapfRead _ n => decide (n < 8)
  | .tmrOwnWrite _ _ => true
  | .rtcSubRead _ => true
  | .rtcSecRead _ => true
  | .rtcSecWrite _ _ => true
  | .rtcTrimWrite _ _ => true
  | .rtcAlarmWrite _ _ => true
  | .rtcCfgWrite _ _ => true
  | .wdtEnable _ => true
  | .wdtKick _ _ => true
  | .wdtDbgpauseWrite _ _ => true
  | .icuClaimRead _ t => decide (t < 4)
  | .icuDoneWrite _ t _ => decide (t < 4)
  | .icuSrcWrite _ n _ => decide (1 ≤ n) && decide (n ≤ 95)
  | .icuSwsetWrite _ _ => true
  | .evrChWrite _ c _ => decide (c < 40)
  | .evrTsubWrite _ t _ => decide (t < 32)
  | .evrSwpubWrite _ _ => true
  | .evrStatRead _ => true
  | .evrTstatRead _ t => decide (t < 32)
  | .flcProgram _ addr => decide (addr < 16777216)
  | .flcErase _ addr => decide (addr < 16777216)
  | .sqopen _ sect => decide (sect < 64)
  | .sqcommit _ sect => decide (sect < 64)
  | .sqabandon _ sect => decide (sect < 64)
  | .sqlevel _ => true
  | .proterase _ => true
  | .protprog _ w => decide (w < 16777216)
  | .squirrelEnable _ => true
  | .flcPwd1Write _ _ => true
  | .flcEccRead _ => true
  | .otpProg _ => true
  | .hpEnable _ => true
  | .hostRead n addr _ => transferOk n addr
  | .hostReadf n addr _ => transferOk n addr
  | .hostWrite n addr _ => transferOk n addr
  | .hostWritef n addr _ => transferOk n addr
  | .hostOffer cmd hi lo => decide (cmd < 256) && decide (hi < 256) && decide (lo < 256)
  | .hostV1Read addr _ => decide (addr < 2 ^ 24)
  | .hostV1Write addr _ => decide (addr < 2 ^ 24)
  | .hostFetchDone => true
  | .hostPostedWrite => true
  | .hpDbellWrite _ => true
  | .hpCntRead _ => true
  | .svcOpen _ hi lo => decide (hi < 256) && decide (lo < 256)
  | .svcRead _ n addr => transferOk n addr
  | .svcWrite _ addr words _ => transferOk words.length addr
  | .svcHalt _ mask => decide (mask < 8)
  | .svcRun _ mask => decide (mask < 8)
  | .svcStep _ core => decide (core < 4)
  | .svcRegrd _ core reg => decide (core < 4) && decide (reg < 32)
  | .svcRegwr _ core reg _ _ => decide (core < 4) && decide (reg < 32)
  | .svcReset _ addr => decide (addr < 16777216)
  | .svcClose _ => true
  | .svcStatus _ op => decide (10 ≤ op) && decide (op < 16)

end Sys2Proof
end

