-- ==== Sys2Proof/Safety.lean ====
section
/-!
DEFINITION. What claims about a run are stated in: the next state of a command, the canonical form of everything
that is stored as cells, and queues of well-formed commands.
-/
namespace Sys2Proof.Machine

/-- The next state in which a command's own effect has made the chip `c`, and what follows in the same cycle is
done: answers, pulses and stamps reach whom they concern.  The queue stays as it is. -/
def State.after (s : State) (c : Chip) : Host.Outcome State Fault Refusal := .next { s with chip := c.settle }

/-- Command `i`, taken from the chip `s`, completes with the effect `d`, whatever else waits: exec answers the next
state whose chip is `d` and what follows of it. -/
def Chip.gives (s : Chip) (i : Instr) (d : Chip) : Prop :=
  ∀ q : List Instr, exec i { pending := q, chip := s } = State.after { pending := q, chip := s } d

/-- Core `c` executes an instruction now, and its fetch meets no trap. -/
abbrev Chip.ready (s : Chip) (c : Core) : Prop := s.coreRuns c = true ∧ s.fetchTrap c = none

/-- ST with N and Z of a result, and C and V as given. -/
def stNZCV (st r : Word) (c v : Bool) : Word := stSet (stSet (setNZ st r) St.C c) St.V v

/-- Every store of the chip has its canonical form, so that equal contents are equal data. -/
def Chip.canonical (s : Chip) : Bool :=
  Cells.wf regReset s.regs && Cells.wfU s.sram && Cells.wf flashDefault s.flash && Cells.wf zeroWord s.otp && Cells.wf zeroWord s.mirror

/-- The word at an address as core `c` reads it: the newest of its own buffered writes there, else what SRAM holds (R36). -/
def Chip.sees (s : Chip) (c : Core) (a : Nat) : Word := ((s.core c).buffered a).getD (s.rd a)

/-- What every run keeps of a core's write buffer: it holds writes to SRAM alone (R36, R494), and Badger's is empty. -/
abbrev Chip.bufferOk (s : Chip) (c : Core) : Prop :=
  (∀ e ∈ (s.core c).wbuf, isSram e.1 = true) ∧ (c = .badger → (s.core c).wbuf = [])

/-- Every command that waits is well formed. -/
def State.queueWf (s : State) : Bool := s.pending.all Instr.wf

/-- What holds after every step: a rest entry goes on only while no interrupt waits for a released core (R103, R106),
and a chip in RUN whose released cores all wait has noted DOZE (R101). -/
def Chip.restInv (s : Chip) : Prop :=
  (s.pwr.entering.isSome = true → s.noneForWaiting = true)
  ∧ (s.pwr.st = .run → s.allWait = true → (∃ c, (s.core c).run ≠ .held) → s.fld F.PMU_STAT_LAST ≠ 0)

/-- A safe run of `n` steps: none of them stops with a fault or a refusal. -/
def State.runsFor (s : State) (n : Nat) : Prop := ∃ t, Host.Core.run Sys2Proof.core n s = .next t

end Sys2Proof.Machine
end

