-- ==== Sys2Proof/Certificates/Slice0/Obligations.lean ====
section
/-!
DEFINITION. The statements about the chip, from the rules of spec/.  In each, `s.gives i d` says that command `i` completes:
exec answers the next state whose chip is `d` with what follows of it, whatever else waits.
-/
open Sys2Proof Sys2Proof.Machine

/-! ### The machine as a whole -/

/-- With a command at the front of the queue, a step runs exactly it, with the rest of the queue. -/
def Obligations.StepTakesTheFront : Prop :=
  ∀ (i : Instr) (q : List Instr) (s : Chip), step { pending := i :: q, chip := s } = exec i { pending := q, chip := s }

/-- Every command, in every state, answers a next state, and leaves the queue as it is.
No run of any length, from any state and any queue, stops with a fault or a refusal. -/
def Obligations.CommandsLeaveTheQueue : Prop :=
  (∀ (i : Instr) (s : State), ∃ d : Chip, exec i s = s.after d)
  ∧ (∀ (n : Nat) (s : State), s.runsFor n)

/-- The model's choice (notes/assumptions/2): on an empty queue one period of HF-REF passes, time is one period on, and the queue is
then what falls due in it, the watchdog's expiry among it in the period in which its count reaches the timeout (R407, R409).
No row has bits, so no word puts a command in front. -/
def Obligations.EmptyQueueIsOnePeriod : Prop :=
  (∀ s : Chip, step { pending := [], chip := s } = .next { pending := s.tick.1, chip := s.tick.2 } ∧ s.tick.2.now = s.now + 1)
  ∧ (∀ s : Chip, s.nfc.harvest = false → (s.now + 1) % 1000 = 0 → s.bit F.WDT_CTL_EN = true → s.wdtPaused = false → s.wdtPeriod ≤ s.tmr.wdt + 1 →
    Instr.wdtExpiry ∈ s.tick.1)
  ∧ ∀ (s : State) (n w : Nat), s.withFetchWord n w = s

/-- After every step, whatever command it ran or time it let pass: a rest entry is in progress only while no interrupt
is pending for a released core, and a chip in RUN all of whose released cores wait has noted DOZE. -/
def Obligations.StepKeepsTheRestRules : Prop :=
  ∀ s t : State, step s = .next t → t.chip.restInv

/-- What a command's end leaves where the command has nothing to hand over: flash and OTP, the mirror, the queue entries in
SRAM, time, and Fox A and Fox B are as the command left them. -/
def Obligations.SettlingTouchesNoStore : Prop :=
  ∀ s : Chip, s.out = {} → s.flc.pulsing = false → s.ldr.who ≠ .vole →
    s.settle.flash = s.flash ∧ s.settle.otp = s.otp ∧ s.settle.mirror = s.mirror ∧ s.settle.sram = s.sram ∧ s.settle.now = s.now
    ∧ s.settle.cores.foxA = s.cores.foxA ∧ s.settle.cores.foxB = s.cores.foxB

/-- The chip right after its first power-up: nothing waits; PMU_CAUSE names the power-on reset alone and RTC_STAT.OSF reads 1
(R107, R397); STB and SEQ are 0 (R33, R383); the pins have their BOOT meanings (R100); no core is released; every store has its
canonical form, and the rest rules hold. -/
def Obligations.ResetState : Prop :=
  State.reset.pending = [] ∧ State.reset.chip.reg R.PMU_CAUSE = 0x100 ∧ State.reset.chip.bit F.RTC_STAT_OSF = true
  ∧ State.reset.chip.owl.stb = 0 ∧ State.reset.chip.owl.seq = 0 ∧ State.reset.chip.pins.phase = .boot
  ∧ (∀ c : Core, (State.reset.chip.core c).run = .held) ∧ State.reset.chip.canonical = true ∧ State.reset.chip.restInv

/-- A register reads as the word last stored in it and a store changes no other register; the same of SRAM words, within SRAM;
a field reads as the value put into it, and every operation that stores keeps the canonical form: the operations themselves, and every
step, whatever command it runs or time it lets pass, for the registers, SRAM, flash, OTP and the mirror.
Words, and octets, written at consecutive addresses of SRAM read back in order, and every word or octet outside them is as it was. -/
def Obligations.StoresReadBack : Prop :=
  ((∀ (s : Chip) (a b : Nat) (v : Word), (s.setReg a v).reg b = if b = a then v else s.reg b)
  ∧ (∀ (s : Chip) (a b : Nat) (v : Word), (s.wr a v).rd b = if b = a ∧ isSram a = true then v else s.rd b)
  ∧ (∀ (s : Chip) (f : Fld) (v : Nat), f.lo ≤ f.hi → f.hi < 36 → (s.setFld f v).fld f = v % 2 ^ (f.hi + 1 - f.lo))
  ∧ (∀ (s : Chip) (f g : Fld) (v : Nat), f.hi < 36 → g.hi < 36 → g.lo ≤ g.hi → f.lo ≤ f.hi → (g.addr ≠ f.addr ∨ g.hi < f.lo ∨ f.hi < g.lo) →
      (s.setFld f v).fld g = s.fld g)
  ∧ (∀ (s : Chip) (a : Nat) (v : Word), s.canonical = true → (s.setReg a v).canonical = true ∧ (s.wr a v).canonical = true)
  ∧ ∀ (s : Chip) (a : Nat) (l : List Byte), s.canonical = true → (s.wrBs a l).canonical = true)
  ∧ (∀ (s : Chip) (a : Nat) (l : List Word), 0x10000 ≤ a → a + l.length ≤ 0x50000 →
    (s.wrs a l).rds a l.length = l ∧ ∀ b : Nat, b < a ∨ a + l.length ≤ b → (s.wrs a l).rd b = s.rd b)
  ∧ (∀ (s : Chip) (a : Nat) (l : List Byte), 0x40000 ≤ a → a + l.length ≤ 0x140000 →
    (s.wrBs a l).rdBs a l.length = l ∧ ∀ b : Nat, b < a ∨ a + l.length ≤ b → (s.wrBs a l).rdB b = s.rdB b)
  ∧ ∀ s t : State, s.chip.canonical = true → step s = .next t → t.chip.canonical = true

/-! ### The encoding of the J36 instructions (R469, R471, R475 to R486) -/

/-- Decoding the word of an instruction gives the instruction, with every operand field at every value; and a word that
decodes is the word of what it decodes to: no two instructions share a word, and no bit is dropped. -/
def Obligations.DecodeAndEncodeAgree : Prop :=
  (∀ (i : Instr) (op : BitVec 8) (c : Core) (o : Opnd), j36Parts i = some (op, c, o) → decodeJ36 c (j36Word op o) = some i)
  ∧ (∀ (c : Core) (w : Word) (i : Instr), decodeJ36 c w = some i → encodeJ36 i = some w)
  ∧ ∀ (i : Instr) (w : Word), encodeJ36 i = some w → ∃ d : Core, decodeJ36 d w = some i

/-! ### The J36 cores -/

/-- The loads and moves (R475, R476): A, X, Y take M, its low 24 bits or the effective address; LDA sets N and Z from A and no
other flag; MOVR copies among A, X and Y, and sets N and Z only into A.  PC goes on and one cycle passes.
It says these forms complete, exec answering a next state under conditions on the state and operands alone: lda, ldx, ldy, leax,
leay, movr. -/
def Obligations.LoadsComplete : Prop :=
  ∀ (s t : Chip) (c : Core) (o : Opnd), s.ready c →
    (∀ m : Word, (s.fetch c).readM c o = .ok m t →
      (o.inModes [0, 1, 2, 3, 4, 5] = true →
        s.gives (.lda c o) (((t.setCore c { t.core c with a := m, st := setNZ (t.core c).st m }).postInc c o).finish c 1 none))
      ∧ (o.inModes [0, 1, 2, 4, 5] = true →
        s.gives (.ldx c o) ((t.setCore c { t.core c with x := m.setWidth 24 }).finish c 1 none)
        ∧ s.gives (.ldy c o) ((t.setCore c { t.core c with y := m.setWidth 24 }).finish c 1 none))
      ∧ (o.mode = 3 → o.ixs = true →
        s.gives (.ldx c o) ((t.setCore c { t.core c with x := m.setWidth 24, y := (t.core c).y + o.opd }).finish c 1 none))
      ∧ (o.mode = 3 → o.ixs = false →
        s.gives (.ldy c o) ((t.setCore c { t.core c with y := m.setWidth 24, x := (t.core c).x + o.opd }).finish c 1 none)))
    ∧ (∀ a : BitVec 24, (s.fetch c).effAddr c o = .ok a t → o.inModes [1, 2, 4] = true →
      s.gives (.leax c o) ((t.setCore c { t.core c with x := a }).finish c 1 none)
      ∧ s.gives (.leay c o) ((t.setCore c { t.core c with y := a }).finish c 1 none))
    ∧ (∀ d r : Nat, d < 3 → r < 3 → o = { mode := 0, ixs := false, opd := BitVec.ofNat 24 (4 * d + r) } →
      ∀ v : Word, v = (if r = 0 then ((s.fetch c).core c).a else if r = 1 then ((s.fetch c).core c).x.setWidth 36
          else ((s.fetch c).core c).y.setWidth 36) →
        s.gives (.movr c o) (((s.fetch c).setCore c
            (if d = 0 then { (s.fetch c).core c with a := v, st := setNZ ((s.fetch c).core c).st v }
             else if d = 1 then { (s.fetch c).core c with x := v.setWidth 24 }
             else { (s.fetch c).core c with y := v.setWidth 24 })).finish c 1 none))

/-- The stores (R475): STA, STX and STY write A, X or Y to M and change no register but an index register that mode 3 steps;
PUSH writes M one word below SP and moves SP there; POP writes the word at SP to M and moves SP up, except where SP is what it
pops (R492); the word stored at is the effective address, computed as the meaning computes it.
Where a store goes (R36, R470, R472, R494): a write of Badger's to SRAM, PUSH's among them, changes the word at its address and no other,
after the wait for its bank; a Fox core's joins its write buffer, oldest first, and changes no word, unless the buffer holds four, of which
the oldest then takes its own address; WRITE_BUFFER_DRAIN makes the oldest visible at its own address alone, and with an empty buffer changes
nothing.  A store to a register is that register's write, after its waits, and one to an address that takes none traps.
A store through M changes the word at its effective address alone: for every address that the effective address is, every
other word of SRAM reads as before.
It says these forms complete, exec answering a next state under conditions on the state and operands alone: writeBufferDrain, sta,
stx, sty, push, pop. -/
def Obligations.StoresComplete : Prop :=
  (∀ (s : Chip) (c : Core) (o : Opnd), s.ready c →
    (∀ t : Chip, o.inModes [1, 2, 3, 4, 5] = true →
      ((s.fetch c).writeM c o ((s.fetch c).core c).a = .ok () t → s.gives (.sta c o) ((t.postInc c o).finish c 1 none))
      ∧ ((s.fetch c).writeM c o (((s.fetch c).core c).x.setWidth 36) = .ok () t → s.gives (.stx c o) ((t.postInc c o).finish c 1 none))
      ∧ ((s.fetch c).writeM c o (((s.fetch c).core c).y.setWidth 36) = .ok () t → s.gives (.sty c o) ((t.postInc c o).finish c 1 none)))
    ∧ (∀ (m : Word) (t : Chip), o.inModes [0, 1, 2, 3, 4, 5] = true → (s.fetch c).readM c o = .ok m t →
      isSram ((t.core c).sp - 1).toNat = true →
      s.gives (.push c o) ((((t.memPath c ((t.core c).sp - 1).toNat m).setCore c
        { (t.memPath c ((t.core c).sp - 1).toNat m).core c with sp := (t.core c).sp - 1 }).postInc c o).finish c 1 none))
    ∧ ∀ (w : Word) (t u : Chip), o.inModes [1, 2, 3, 4, 5] = true → isSram ((s.fetch c).core c).sp.toNat = true →
      (s.fetch c).coreRead c ((s.fetch c).core c).sp = .ok w t → t.writeM c o w = .ok () u →
      s.gives (.pop c o) (((if o.mode = 5 ∧ o.opd = 1 then u
        else u.setCore c { u.core c with sp := ((s.fetch c).core c).sp + 1 }).postInc c o).finish c 1 none))
  ∧ ((∀ (s : Chip) (a : BitVec 24) (v : Word), isSram a.toNat = true →
    ∃ u : Chip, s.coreWrite .badger a v = .ok () u ∧ u = s.memPath .badger a.toNat v ∧ u.rd a.toNat = v ∧ (∀ b : Nat, b ≠ a.toNat → u.rd b = s.rd b)
      ∧ u.cores.foxA = s.cores.foxA ∧ u.cores.foxB = s.cores.foxB ∧ u.regs = s.regs
      ∧ u.cores.badger = { s.cores.badger with cyc := s.cores.badger.cyc
          + (if s.busAt = s.now ∧ (∃ p ∈ s.busUse, p.1 ≠ .badger ∧ p.2 = bankOf a.toNat) then ceilDiv (s.rateNow .badger) s.fabricRate else 0) })
  ∧ (∀ (s : Chip) (c : Core) (a : BitVec 24) (v : Word), c ≠ .badger → isSram a.toNat = true → (s.core c).wbuf.length < 4 →
    s.coreWrite c a v = .ok () (s.memPath c a.toNat v) ∧ s.memPath c a.toNat v = s.setCore c { s.core c with wbuf := (s.core c).wbuf ++ [(a.toNat, v)] })
  ∧ (∀ (s : Chip) (c : Core) (a k : Nat) (v w : Word) (l : List (Nat × Word)), c ≠ .badger → (s.core c).wbuf = (k, w) :: l → l.length = 3 →
    ((s.memPath c a v).core c).wbuf = l ++ [(a, v)] ∧ ∀ b : Nat, (s.memPath c a v).rd b = if b = k ∧ isSram k = true then w else s.rd b)
  ∧ (∀ (s : Chip) (c : Core) (a : BitVec 24) (v : Word), isSram a.toNat = false →
    (mayWriteAt a.toNat = true → s.coreWrite c a v = .ok () (((s.access c a.toNat).waitFree c).ioWrite c.agent (s.core c).fromRom a.toNat v))
    ∧ (mayWriteAt a.toNat = false → s.coreWrite c a v = .trap { vec := 3, cause := 0xB2, addr := a, data := true } s))
  ∧ (∀ (s : Chip) (c : Core) (a : Nat) (v : Word) (l : List (Nat × Word)), (s.core c).wbuf = (a, v) :: l →
    ∃ d : Chip, s.gives (.writeBufferDrain c) d ∧ (d.core c) = { s.core c with wbuf := l } ∧ d.regs = s.regs
      ∧ ∀ b : Nat, d.rd b = if b = a ∧ isSram a = true then v else s.rd b)
  ∧ ∀ (s : Chip) (c : Core), (s.core c).wbuf = [] → s.gives (.writeBufferDrain c) s)
  ∧ (∀ (s t u : Chip) (o : Opnd) (a : BitVec 24) (v : Word), o.inModes [1, 2, 3, 4] = true → s.effAddr .badger o = .ok a t → isSram a.toNat = true →
    s.writeM .badger o v = .ok () u →
    u.rd a.toNat = v ∧ (∀ b : Nat, b ≠ a.toNat → u.rd b = t.rd b) ∧ u.regs = t.regs ∧ u.flash = t.flash ∧ u.otp = t.otp ∧ u.mirror = t.mirror
    ∧ u.cores.foxA = t.cores.foxA ∧ u.cores.foxB = t.cores.foxB ∧ u.cores.badger = { t.cores.badger with cyc := u.cores.badger.cyc })

/-- The binary and logic instructions and the shifts (R474, R477, R478): A, and N, Z, C and V, on any accepted form of M; no other flag
changes, CMP keeps A, and a count of 0 keeps C.
It says these forms complete, exec answering a next state under conditions on the state and operands alone: add, adc, sub, sbc, cmp,
and, or, xor, shl, shr, sha, rol, ror. -/
def Obligations.BinaryInstructions : Prop :=
  ∀ (s t : Chip) (c : Core) (o : Opnd) (m : Word), s.ready c → (s.fetch c).readM c o = .ok m t →
    (o.inModes [0, 1, 2, 3, 4, 5] = true →
      s.gives (.add c o) (((t.result c ((t.core c).a + m, stNZCV (t.core c).st ((t.core c).a + m)
        (decide (2 ^ 36 ≤ (t.core c).a.toNat + m.toNat)) (decide (((t.core c).a + m).toInt ≠ (t.core c).a.toInt + m.toInt)))).postInc c o).finish c 1 none)
      ∧ s.gives (.adc c o) (((t.result c (BitVec.ofNat 36 ((t.core c).a.toNat + m.toNat + ((t.core c).st.getLsbD St.C).toNat),
          stNZCV (t.core c).st (BitVec.ofNat 36 ((t.core c).a.toNat + m.toNat + ((t.core c).st.getLsbD St.C).toNat))
        (decide (2 ^ 36 ≤ (t.core c).a.toNat + m.toNat + ((t.core c).st.getLsbD St.C).toNat))
        (decide ((BitVec.ofNat 36 ((t.core c).a.toNat + m.toNat + ((t.core c).st.getLsbD St.C).toNat)).toInt
          ≠ (t.core c).a.toInt + m.toInt + ((t.core c).st.getLsbD St.C).toNat)))).postInc c o).finish c 1 none)
      ∧ s.gives (.sub c o) (((t.result c ((t.core c).a - m, stNZCV (t.core c).st ((t.core c).a - m)
        (decide ((t.core c).a.toNat < m.toNat)) (decide (((t.core c).a - m).toInt ≠ (t.core c).a.toInt - m.toInt)))).postInc c o).finish c 1 none)
      ∧ s.gives (.sbc c o) (((t.result c (BitVec.ofInt 36 ((t.core c).a.toInt - m.toInt - ((t.core c).st.getLsbD St.C).toNat),
          stNZCV (t.core c).st (BitVec.ofInt 36 ((t.core c).a.toInt - m.toInt - ((t.core c).st.getLsbD St.C).toNat))
        (decide ((t.core c).a.toNat < m.toNat + ((t.core c).st.getLsbD St.C).toNat))
        (decide ((BitVec.ofInt 36 ((t.core c).a.toInt - m.toInt - ((t.core c).st.getLsbD St.C).toNat)).toInt
          ≠ (t.core c).a.toInt - m.toInt - ((t.core c).st.getLsbD St.C).toNat)))).postInc c o).finish c 1 none)
      ∧ s.gives (.cmp c o) (((t.result c ((t.core c).a, stNZCV (t.core c).st ((t.core c).a - m)
        (decide ((t.core c).a.toNat < m.toNat)) (decide (((t.core c).a - m).toInt ≠ (t.core c).a.toInt - m.toInt)))).postInc c o).finish c 1 none)
      ∧ s.gives (.and c o) (((t.result c ((t.core c).a &&& m, setNZ (t.core c).st ((t.core c).a &&& m))).postInc c o).finish c 1 none)
      ∧ s.gives (.or c o) (((t.result c ((t.core c).a ||| m, setNZ (t.core c).st ((t.core c).a ||| m))).postInc c o).finish c 1 none)
      ∧ s.gives (.xor c o) (((t.result c ((t.core c).a ^^^ m, setNZ (t.core c).st ((t.core c).a ^^^ m))).postInc c o).finish c 1 none))
    ∧ ∀ k : Nat, k = min (m.toNat % 64) 36 → o.inModes [0, 1, 2, 3, 4] = true →
      s.gives (.shl c o) (((t.result c ((t.core c).a <<< k, if k = 0 then setNZ (t.core c).st (t.core c).a
          else stSet (setNZ (t.core c).st ((t.core c).a <<< k)) St.C ((t.core c).a.getLsbD (36 - k)))).postInc c o).finish c 1 none)
      ∧ s.gives (.shr c o) (((t.result c ((t.core c).a >>> k, if k = 0 then setNZ (t.core c).st (t.core c).a
          else stSet (setNZ (t.core c).st ((t.core c).a >>> k)) St.C ((t.core c).a.getLsbD (k - 1)))).postInc c o).finish c 1 none)
      ∧ s.gives (.sha c o) (((t.result c ((t.core c).a.sshiftRight k, if k = 0 then setNZ (t.core c).st (t.core c).a
          else stSet (setNZ (t.core c).st ((t.core c).a.sshiftRight k)) St.C ((t.core c).a.getLsbD (k - 1)))).postInc c o).finish c 1 none)
      ∧ s.gives (.rol c o) (((t.result c ((t.core c).a.rotateLeft (k % 36), if k % 36 = 0 then setNZ (t.core c).st (t.core c).a
          else stSet (setNZ (t.core c).st ((t.core c).a.rotateLeft (k % 36))) St.C (((t.core c).a.rotateLeft (k % 36)).getLsbD 0))).postInc c o).finish c 1 none)
      ∧ s.gives (.ror c o) (((t.result c ((t.core c).a.rotateRight (k % 36), if k % 36 = 0 then setNZ (t.core c).st (t.core c).a
          else stSet (setNZ (t.core c).st ((t.core c).a.rotateRight (k % 36))) St.C (((t.core c).a.rotateRight (k % 36)).getLsbD 35))).postInc c o).finish c 1 none)

/-- The instructions on A alone (R477, R481): NEG and NOT, and BREV, whose OPD of 1 to 36 is the length it reverses; bit i of its
result is bit n - 1 - i of A, and the bits from n on are 0.
CRCS, PAR and the multiplier (R449 to R451, R481, R482): MUL, MULU and MAC issue a product and change neither A nor a flag; one issued in
cycle i reads as the old contents in cycles i + 1 and i + 2 and as the product from cycle i + 3; MAC adds to what is there; MUL_RESULT_WRITE lets the oldest product in flight land.
It says these forms complete, exec answering a next state under conditions on the state and operands alone: mulResultWrite, neg,
not, crcs, par, brev, mul, mulu, mac, nop. -/
def Obligations.UnaryInstructions : Prop :=
  (∀ (s : Chip) (c : Core), s.ready c →
    s.gives (.neg c ⟨0, false, 0⟩) (((s.fetch c).result c (-((s.fetch c).core c).a, stNZCV ((s.fetch c).core c).st (-((s.fetch c).core c).a)
      (decide (((s.fetch c).core c).a ≠ 0)) (decide (((s.fetch c).core c).a = BitVec.intMin 36)))).finish c 1 none)
    ∧ s.gives (.not c ⟨0, false, 0⟩) (((s.fetch c).result c (~~~ ((s.fetch c).core c).a, setNZ ((s.fetch c).core c).st (~~~ ((s.fetch c).core c).a))).finish c 1 none)
    ∧ (∀ n : Nat, 1 ≤ n → n ≤ 36 → ∃ r : Word, (∀ i : Nat, i < 36 → r.getLsbD i = (decide (i < n) && ((s.fetch c).core c).a.getLsbD (n - 1 - i)))
        ∧ s.gives (.brev c ⟨0, false, BitVec.ofNat 24 n⟩) (((s.fetch c).result c (r, setNZ ((s.fetch c).core c).st r)).finish c 1 none))
    ∧ s.gives (.nop c ⟨0, false, 0⟩) ((s.fetch c).finish c 1 none))
  ∧ ((∀ (s t : Chip) (c : Core) (o : Opnd) (m : Word), s.ready c → (s.fetch c).readM c o = .ok m t → o.inModes [0, 1, 2, 3, 4, 5] = true →
    s.gives (.crcs c o) (((t.result c (crcs (t.core c).a m (s.core c).crcp.toNat, setZclrN (t.core c).st (crcs (t.core c).a m (s.core c).crcp.toNat))).postInc c o).finish c 1 none)
    ∧ s.gives (.par c o) (((t.result c (parity ((t.core c).a &&& m), setZclrN (t.core c).st (parity ((t.core c).a &&& m)))).postInc c o).finish c 1 none)
    ∧ s.gives (.mul c o) (((t.setCore c ((t.core c).landDue.issue .signed m)).postInc c o).finish c 1 none)
    ∧ s.gives (.mulu c o) (((t.setCore c ((t.core c).landDue.issue .unsigned m)).postInc c o).finish c 1 none)
    ∧ s.gives (.mac c o) (((t.setCore c ((t.core c).landDue.issue .mac m)).postInc c o).finish c 1 none))
  ∧ (∀ (x : CoreSt) (e : Core) (k : MulKind) (m : Word) (n : Nat), x.flight = [] →
    (x.issue k m).a = x.a ∧ (x.issue k m).st = x.st
    ∧ ({ x.issue k m with cyc := x.cyc + n } : CoreSt).special e 2 = some (if n < 3 then x.mhi else W ((Flight.result { cycle := x.cyc, kind := k, a := x.a, m := m }
        (x.mhi.toNat * 2 ^ 36 + x.mlo.toNat)) / 2 ^ 36))
    ∧ ({ x.issue k m with cyc := x.cyc + n } : CoreSt).special e 3 = some (if n < 3 then x.mlo else W (Flight.result { cycle := x.cyc, kind := k, a := x.a, m := m }
        (x.mhi.toNat * 2 ^ 36 + x.mlo.toNat))))
  ∧ (∀ (a m : Word) (n acc : Nat),
    (Flight.result { cycle := n, kind := .signed, a := a, m := m } acc : Int) % 2 ^ 72 = a.toInt * m.toInt % 2 ^ 72
    ∧ Flight.result { cycle := n, kind := .unsigned, a := a, m := m } acc = a.toNat * m.toNat
    ∧ (Flight.result { cycle := n, kind := .mac, a := a, m := m } acc : Int) = (acc + a.toInt * m.toInt) % 2 ^ 72)
  ∧ (∀ (s : Chip) (c : Core) (f : Flight) (l : List Flight), (s.core c).flight = f :: l →
    s.gives (.mulResultWrite c) (s.setCore c (({ s.core c with flight := l, cyc := max (s.core c).cyc (f.cycle + 3) } : CoreSt).land f)))
  ∧ ∀ (s : Chip) (c : Core), (s.core c).flight = [] → s.gives (.mulResultWrite c) s)

/-- The fraction instructions and FPR (R449, R479): the exact result, rounded where bits are discarded and then limited, with F; on any
accepted form of M; FPR's exact value is MHI:MLO as a signed number with 62 fraction bits, of which it discards 31.  `fracResult n k` is the exact value n / 2^k rounded and limited: FractionLimits says what it is.
Rounding and limiting (R445, R446): the result of the exact value n / 2^k is the one that ST.RND names, held in the guard range with
V and S set outside it, then with SAT held in [-1, 1 - 2^-31] with S set outside it; G says whether the exact value lies outside
[-1, 1 - 2^-31]; N and Z are the result's, S is only ever set, and every other bit of ST keeps its value.
It says these forms complete, exec answering a next state under conditions on the state and operands alone: fadd, fsub, fneg, fabs,
fshl, fshr, satn, fpr. -/
def Obligations.FractionInstructions : Prop :=
  ((∀ (s t : Chip) (c : Core) (o : Opnd) (m : Word), s.ready c → (s.fetch c).readM c o = .ok m t →
    (o.inModes [0, 1, 2, 3, 4, 5] = true →
      s.gives (.fadd c o) (((t.result c (fracResult ((t.core c).a.toInt + m.toInt) 0 (t.core c).st)).postInc c o).finish c 1 none)
      ∧ s.gives (.fsub c o) (((t.result c (fracResult ((t.core c).a.toInt - m.toInt) 0 (t.core c).st)).postInc c o).finish c 1 none))
    ∧ ∀ k : Nat, k = min (m.toNat % 64) 35 → o.inModes [0, 1, 2, 3, 4] = true →
      s.gives (.fshl c o) (((t.result c (fracResult ((t.core c).a.toInt * 2 ^ k) 0 (t.core c).st)).postInc c o).finish c 1 none)
      ∧ s.gives (.fshr c o) (((t.result c (fracResult (t.core c).a.toInt k (t.core c).st)).postInc c o).finish c 1 none))
  ∧ (∀ (s : Chip) (c : Core) (x : CoreSt), s.ready c → x = ((s.fetch c).core c).landDue →
    s.gives (.fpr c ⟨0, false, 0⟩) ((((s.fetch c).setCore c x).result c
      (fracResult (signed 72 (x.mhi.toNat * 2 ^ 36 + x.mlo.toNat)) 31 x.st)).finish c 1 none))
  ∧ ∀ (s : Chip) (c : Core), s.ready c →
    s.gives (.fneg c ⟨0, false, 0⟩) (((s.fetch c).result c (fracResult (-((s.fetch c).core c).a.toInt) 0 ((s.fetch c).core c).st)).finish c 1 none)
    ∧ s.gives (.fabs c ⟨0, false, 0⟩) (((s.fetch c).result c (fracResult (((s.fetch c).core c).a.toInt.natAbs : Int) 0 ((s.fetch c).core c).st)).finish c 1 none)
    ∧ ∃ r : Word × Word, s.gives (.satn c ⟨0, false, 0⟩) (((s.fetch c).result c r).finish c 1 none)
      ∧ r.1.toInt = max (-2 ^ 31) (min (2 ^ 31 - 1) ((s.fetch c).core c).a.toInt)
      ∧ (r.2.getLsbD St.S = (((s.fetch c).core c).st.getLsbD St.S || decide (r.1 ≠ ((s.fetch c).core c).a)))
      ∧ (r.2.getLsbD St.G = decide (r.1 ≠ ((s.fetch c).core c).a)) ∧ r.2.getLsbD St.V = ((s.fetch c).core c).st.getLsbD St.V)
  ∧ (∀ (n : Int) (k : Nat) (st : Word), ∃ x y : Int,
    ((stRnd st = 0 → x * 2 ^ k ≤ n ∧ n < (x + 1) * 2 ^ k)
     ∧ (stRnd st = 1 → 2 * x * 2 ^ k ≤ 2 * n + 2 ^ k ∧ 2 * n + 2 ^ k < 2 * (x + 1) * 2 ^ k)
     ∧ (stRnd st = 2 → (2 * (x * 2 ^ k - n) ≤ 2 ^ k ∧ 2 * (n - x * 2 ^ k) ≤ 2 ^ k)
         ∧ (2 * (x * 2 ^ k - n) = 2 ^ k ∨ 2 * (n - x * 2 ^ k) = 2 ^ k → x % 2 = 0))
     ∧ (stRnd st = 3 → x = n.tdiv (2 ^ k)))
    ∧ y = max (-2 ^ 35) (min (2 ^ 35 - 1) x)
    ∧ (fracResult n k st).1.toInt = (if st.getLsbD St.SAT then max (-2 ^ 31) (min (2 ^ 31 - 1) y) else y)
    ∧ (fracResult n k st).2.getLsbD St.V = decide (y ≠ x)
    ∧ (fracResult n k st).2.getLsbD St.S = (st.getLsbD St.S || decide ((fracResult n k st).1.toInt ≠ x))
    ∧ (fracResult n k st).2.getLsbD St.G = decide (n < -2 ^ 31 * 2 ^ k ∨ (2 ^ 31 - 1) * 2 ^ k < n)
    ∧ (fracResult n k st).2.getLsbD St.N = (fracResult n k st).1.msb ∧ (fracResult n k st).2.getLsbD St.Z = decide ((fracResult n k st).1 = 0)
    ∧ ∀ i : Nat, i ≠ St.N → i ≠ St.Z → i ≠ St.G → i ≠ St.V → i ≠ St.S → (fracResult n k st).2.getLsbD i = st.getLsbD i)

/-- Decimal addition and subtraction (R447): ADDD and SUBD write the binary result, the nibble carries or borrows in NC, that of
nibble 8 in C and D; DAD and DAS take 6 from the nibbles that NC names, set Z, clear N and keep the rest; each completes so, on every form.  On valid operands the
two instructions give the nine-digit sum, or the difference modulo 10^9, and D is the decimal carry or borrow.  The digit pattern
of the one DAD or DAS that follows an invalid operand is a free value; everything else of it is as stated.
It says these forms complete, exec answering a next state under conditions on the state and operands alone: addd, subd, dad, das. -/
def Obligations.DecimalArithmetic : Prop :=
  ((∀ a m st : Word,
    (addd a m st).1 = a + m + 0x666666666#36
    ∧ (∀ i : Nat, i < 9 → (stNc (addd a m st).2.1).testBit i
        = decide (16 ^ (i + 1) ≤ a.toNat % 16 ^ (i + 1) + m.toNat % 16 ^ (i + 1) + 0x666666666 % 16 ^ (i + 1)))
    ∧ (addd a m st).2.1.getLsbD St.C = (stNc (addd a m st).2.1).testBit 8 ∧ (addd a m st).2.1.getLsbD St.D = (stNc (addd a m st).2.1).testBit 8
    ∧ (addd a m st).2.1.getLsbD St.V = decide (∃ i : Fin 9, 9 < nib a i.val ∨ 9 < nib m i.val)
    ∧ (subd a m st).1 = a - m
    ∧ (∀ i : Nat, i < 9 → (stNc (subd a m st).2.1).testBit i = decide (a.toNat % 16 ^ (i + 1) < m.toNat % 16 ^ (i + 1)))
    ∧ (subd a m st).2.1.getLsbD St.C = (stNc (subd a m st).2.1).testBit 8 ∧ (subd a m st).2.1.getLsbD St.D = (stNc (subd a m st).2.1).testBit 8
    ∧ (subd a m st).2.1.getLsbD St.V = decide (∃ i : Fin 9, 9 < nib a i.val ∨ 9 < nib m i.val))
  ∧ (∀ (a st : Word) (w : Bool) (i : Nat), i < 9 →
    nib (decAdjust w a st) i = if (stNc st).testBit i = w then (nib a i + 10) % 16 else nib a i)
  ∧ ∀ a m st : Word, digitsOk a 0 8 = true → digitsOk m 0 8 = true →
    digitsOk (decAdjust false (addd a m st).1 (addd a m st).2.1) 0 8 = true
    ∧ digitsVal (decAdjust false (addd a m st).1 (addd a m st).2.1) 0 8 = (digitsVal a 0 8 + digitsVal m 0 8) % 10 ^ 9
    ∧ (addd a m st).2.1.getLsbD St.D = decide (10 ^ 9 ≤ digitsVal a 0 8 + digitsVal m 0 8)
    ∧ digitsOk (decAdjust true (subd a m st).1 (subd a m st).2.1) 0 8 = true
    ∧ digitsVal (decAdjust true (subd a m st).1 (subd a m st).2.1) 0 8 = (digitsVal a 0 8 + 10 ^ 9 - digitsVal m 0 8) % 10 ^ 9
    ∧ (subd a m st).2.1.getLsbD St.D = decide (digitsVal a 0 8 < digitsVal m 0 8))
  ∧ (∀ (st r : Word) (i : Nat), (setZclrN st r).getLsbD i = if i = St.Z then decide (r = 0) else if i = St.N then false else st.getLsbD i)
  ∧ ((∀ (s t : Chip) (c : Core) (o : Opnd) (m : Word), s.ready c → (s.fetch c).readM c o = .ok m t → o.inModes [0, 1, 2, 3, 4, 5] = true →
    s.gives (.addd c o) ((((t.result c ((addd (t.core c).a m (t.core c).st).1, (addd (t.core c).a m (t.core c).st).2.1)).setCore c
        { (t.result c ((addd (t.core c).a m (t.core c).st).1, (addd (t.core c).a m (t.core c).st).2.1)).core c with badDec := (!(digitsOk (t.core c).a 0 8 && digitsOk m 0 8)) :: (t.core c).badDec.drop 1 }).postInc c o).finish c 1 none)
    ∧ s.gives (.subd c o) ((((t.result c ((subd (t.core c).a m (t.core c).st).1, (subd (t.core c).a m (t.core c).st).2.1)).setCore c
        { (t.result c ((subd (t.core c).a m (t.core c).st).1, (subd (t.core c).a m (t.core c).st).2.1)).core c with badDec := (!(digitsOk (t.core c).a 0 8 && digitsOk m 0 8)) :: (t.core c).badDec.drop 1 }).postInc c o).finish c 1 none))
  ∧ ∀ (s f : Chip) (c : Core) (x : CoreSt), s.ready c → f = s.fetch c → x = f.core c →
    (x.badDec.headD false = false →
      s.gives (.dad c ⟨0, false, 0⟩) ((f.setCore c { x with a := decAdjust false x.a x.st, st := setZclrN x.st (decAdjust false x.a x.st), badDec := false :: x.badDec.drop 1 }).finish c 1 none)
      ∧ s.gives (.das c ⟨0, false, 0⟩) ((f.setCore c { x with a := decAdjust true x.a x.st, st := setZclrN x.st (decAdjust true x.a x.st), badDec := false :: x.badDec.drop 1 }).finish c 1 none))
    ∧ (x.badDec.headD false = true → ∀ i : Instr, i = .dad c ⟨0, false, 0⟩ ∨ i = .das c ⟨0, false, 0⟩ →
      s.gives i ((f.draw.setCore c { x with a := Config.freeWord f.free, st := setZclrN x.st (Config.freeWord f.free), badDec := false :: x.badDec.drop 1 }).finish c 1 none)))

/-- The conversions (R448): D2B takes nine digits to their value and refuses a nibble above 9, and eight digits with a sign nibble
to the signed value; B2D is its inverse on what it accepts, 0 to 999,999,999 and -99,999,999 to 99,999,999, and refuses the rest.
Each completes so: a refusal sets V and leaves A; a success clears V and sets N and Z from the result.
It says these forms complete, exec answering a next state under conditions on the state and operands alone: d2b, b2d. -/
def Obligations.Conversions : Prop :=
  (∀ a : Word,
    (d2b a false = none ↔ ∃ i : Nat, i < 9 ∧ 9 < nib a i)
    ∧ (d2b a true = none ↔ (∃ i : Nat, 1 ≤ i ∧ i < 9 ∧ 9 < nib a i) ∨ (nib a 0 ≠ 0xC ∧ nib a 0 ≠ 0xD))
    ∧ (∀ r : Word, d2b a false = some r → r.toNat = digitsVal a 0 8)
    ∧ (∀ r : Word, d2b a true = some r → r.toInt = if nib a 0 = 0xD then -(digitsVal a 1 8 : Int) else digitsVal a 1 8)
    ∧ (b2d a false = none ↔ 999999999 < a.toNat) ∧ (b2d a true = none ↔ 99999999 < a.toInt.natAbs)
    ∧ (∀ r : Word, b2d a false = some r → d2b r false = some a)
    ∧ ∀ r : Word, b2d a true = some r → d2b r true = some a ∧ (0 ≤ a.toInt → nib r 0 = 0xC) ∧ (a.toInt < 0 → nib r 0 = 0xD))
  ∧ ∀ (s f : Chip) (c : Core) (x : CoreSt), s.ready c → f = s.fetch c → x = f.core c →
    ∀ (b : Bool) (o : Opnd), o = ⟨0, false, BitVec.ofNat 24 b.toNat⟩ →
      s.gives (.d2b c o) ((f.setCore c (match d2b x.a b with
        | none => { x with st := stSet x.st St.V true }
        | some r => { x with a := r, st := stSet (setNZ x.st r) St.V false })).finish c 4 none)
      ∧ s.gives (.b2d c o) ((f.setCore c (match b2d x.a b with
        | none => { x with st := stSet x.st St.V true }
        | some r => { x with a := r, st := stSet (setNZ x.st r) St.V false })).finish c 6 none)

/-- Branches, DBX, DBY, CALL and RET (R483 to R485, R454): a branch is taken, in one more cycle, when its condition holds in ST as it stands, and
goes on otherwise; DBX and DBY count their index down and branch while it is not 0; CALL pushes the address of the following instruction
and goes to its target; RET pops PC.
It says these forms complete, exec answering a next state under conditions on the state and operands alone: jcc, call, ret, dbx,
dby. -/
def Obligations.BranchesComplete : Prop :=
  (∀ (s t : Chip) (c : Core) (o : Opnd) (a : BitVec 24), s.ready c → o.inModes [0, 1, 2, 4] = true → (s.fetch c).target c o = .ok a t →
    (∀ cc : BitVec 4, s.gives (.jcc c cc o) (if condHolds cc.toNat (t.core c).st then t.finish c 2 (some a) else t.finish c 1 none))
    ∧ s.gives (.dbx c o) (if (t.core c).x = 1 then (t.setCore c { t.core c with x := 0 }).finish c 1 none
        else (t.setCore c { t.core c with x := (t.core c).x - 1 }).finish c 2 (some a))
    ∧ s.gives (.dby c o) (if (t.core c).y = 1 then (t.setCore c { t.core c with y := 0 }).finish c 1 none
        else (t.setCore c { t.core c with y := (t.core c).y - 1 }).finish c 2 (some a))
    ∧ ∀ u : Chip, t.push c (((t.core c).pc + 1).setWidth 36) = .ok () u → s.gives (.call c o) (u.finish c 2 (some a)))
  ∧ (∀ (s t : Chip) (c : Core) (w : Word), s.ready c → (s.fetch c).stackRead c ((s.fetch c).core c).sp = .ok w t →
    s.gives (.ret c ⟨0, false, 0⟩) ((t.setCore c { t.core c with sp := ((s.fetch c).core c).sp + 1 }).finish c 2 (some (w.setWidth 24))))
  ∧ ∀ (n : Nat) (st : Word), n < 16 → condHolds n st =
    (let f (i : Nat) : Bool := st.getLsbD i
     match n with
     | 0 => true | 1 => f St.D | 2 => f St.Z | 3 => !f St.Z | 4 => f St.N | 5 => !f St.N | 6 => f St.C | 7 => !f St.C | 8 => f St.V | 9 => !f St.V
     | 10 => !(f St.C || f St.Z) | 11 => f St.C || f St.Z | 12 => !(f St.N ^^ f St.V) | 13 => f St.N ^^ f St.V
     | 14 => !(f St.Z || (f St.N ^^ f St.V)) | _ => f St.Z || (f St.N ^^ f St.V))

/-- Trap entry (R455 to R458), of every core: with TH 0, once the products in flight have landed and the two words are pushed, ST first and
the saved PC below it, as the core sees its memory, TCAUSE takes DATA and the cause, TADDR the trap's address, TH is set, IE cleared, and PC is
VBR + k, four cycles later where no push waits; at the reset value of VBR the vector enters lockup.  A trap while TH is 1, or during the first
or the second of those pushes, leaves the core in lockup with TCAUSE = LOCKUP and its registers of the frame as they were.
TRAP enters vector 6 with its operand in TADDR and the next instruction's address to return to; TRAPB enters vector 2, whatever its other
bits hold; RETI pops PC and then ST, every bit of ST that exists (R455, R457, R486).
It says these forms complete, exec answering a next state under conditions on the state and operands alone: reti, trap, trapb. -/
def Obligations.TrapEntry : Prop :=
  ((∀ (s : Chip) (c : Core) (t : Trap) (u : Chip) (x : CoreSt), (s.core c).st.getLsbD St.TH = false → 1 ≤ t.vec → t.vec < 8 →
    x = (if t.vec = 4 then { (s.core c).landAll with sp := 0x050000#24 } else (s.core c).landAll) → s.bufferOk c →
    isSram (x.sp - 1).toNat = true → u = s.takeTrap c t →
    (isSram (x.sp - 2).toNat = true →
      (u.core c).pc = x.vbr + BitVec.ofNat 24 t.vec ∧ (u.core c).sp = x.sp - 2
      ∧ u.sees c (x.sp - 1).toNat = (s.core c).st ∧ u.sees c (x.sp - 2).toNat = ((if t.next then (s.core c).pc + 1 else (s.core c).pc).setWidth 36)
      ∧ (∀ b : Nat, b ≠ (x.sp - 1).toNat → b ≠ (x.sp - 2).toNat → u.sees c b = s.sees c b)
      ∧ (u.core c).tcause = BitVec.ofNat 9 (t.data.toNat * 256 + t.cause) ∧ (u.core c).taddr = t.addr
      ∧ (u.core c).st = stSet (stSet (s.core c).st St.IE false) St.TH true
      ∧ (u.core c).a = (s.core c).a ∧ (u.core c).x = (s.core c).x ∧ (u.core c).y = (s.core c).y ∧ (u.core c).vbr = (s.core c).vbr
      ∧ (u.core c).run = (if x.vbr = 0x000040#24 then .lockup else (s.core c).run)
      ∧ (∀ e : Core, e ≠ c → u.core e = s.core e) ∧ u.regs = s.regs ∧ u.flash = s.flash
      ∧ (s.busAt ≠ s.now → (s.core c).wbuf.length ≤ 2 → (u.core c).cyc = x.cyc + 4))
    ∧ (isSram (x.sp - 2).toNat = false →
      (u.core c).run = .lockup ∧ (u.core c).tcause = 0x1B6#9 ∧ (u.core c).taddr = x.sp - 1 ∧ (u.core c).sp = x.sp - 1 ∧ (u.core c).st = (s.core c).st
      ∧ (u.core c).pc = (s.core c).pc ∧ u.sees c (x.sp - 1).toNat = (s.core c).st ∧ ∀ b : Nat, b ≠ (x.sp - 1).toNat → u.sees c b = s.sees c b))
  ∧ (∀ (s : Chip) (c : Core) (t : Trap), (s.core c).st.getLsbD St.TH = true →
    s.takeTrap c t = s.setCore c { (s.core c).landAll with tcause := BitVec.ofNat 9 (t.data.toNat * 256 + 0xB6), taddr := t.addr, run := .lockup })
  ∧ ∀ (s : Chip) (c : Core) (t : Trap), (s.core c).st.getLsbD St.TH = false → t.vec ≠ 4 → isSram ((s.core c).sp - 1).toNat = false →
    ((s.takeTrap c t).core c).run = .lockup ∧ ((s.takeTrap c t).core c).tcause = 0x1B6#9 ∧ ((s.takeTrap c t).core c).taddr = (s.core c).sp
    ∧ ((s.takeTrap c t).core c).st = (s.core c).st ∧ (s.takeTrap c t).sram = s.sram)
  ∧ ((∀ (s : Chip) (c : Core) (n : BitVec 24), s.ready c →
    s.gives (.trap c ⟨0, false, n⟩) (((s.fetch c).addCyc c 1).takeTrap c { vec := 6, cause := 0xB5, addr := n, next := true }))
  ∧ (∀ (s : Chip) (c : Core) (o : Opnd), s.ready c →
    s.gives (.trapb c o) ((s.fetch c).takeTrap c { vec := 2, cause := 0xB1, addr := ((s.fetch c).core c).pc }))
  ∧ ∀ (s t u : Chip) (c : Core) (sp : BitVec 24) (w v : Word), s.ready c → sp = ((s.fetch c).core c).sp → isSram sp.toNat = true → isSram (sp + 1).toNat = true →
    (s.fetch c).coreRead c sp = .ok w t → t.coreRead c (sp + 1) = .ok v u →
    ∃ d : List Bool, s.gives (.reti c ⟨0, false, 0⟩) ((u.setCore c { u.core c with sp := sp + 2, st := v &&& 0x3FF7FF#36, badDec := d }).finish c 3
      (some (w.setWidth 24))))

/-- Interrupts and WAIT (R460, R461): a core that runs with IE 1 and its line high, three cycles or more after its last multiplier issue,
enters vector 0 with the address of the instruction it would have run, its TCAUSE and TADDR unchanged; otherwise the command changes
nothing.  WAIT with the line low leaves the core waiting at the next instruction, and with the line high goes on; a waiting core whose line
is high runs on.
The fences, XCHG and Badger's SLOTW and STAMP (R36 to R38, R463, R464, R486 to R491): a fence makes a Fox core's buffered writes visible, and FENCE
discards what it has prefetched; XCHG exchanges A with a word of SRAM, and traps outside it; SLOTW waits for its class, answers a boundary of its own cycle with the ASN, or
ends at once with C set where the engine is off or the line is high and no boundary is due; STAMP stores the second word of the stamp unit's
sample and leaves the first in A; on a Fox core both trap as illegal.
It says these forms complete, exec answering a next state under conditions on the state and operands alone: interruptEntry, waitEnd,
wait, fence, fencew, fenceio, xchg, slotw, stamp. -/
def Obligations.InterruptsAndWait : Prop :=
  ((∀ (s : Chip) (c : Core), s.coreRuns c = true → (s.core c).st.getLsbD St.IE = true → s.line c.cid = true → (∀ t, (s.core c).lastMul = some t → t + 3 ≤ (s.core c).cyc) →
    s.gives (.interruptEntry c) (s.enterVector c 0 (s.core c).pc none))
  ∧ (∀ (s : Chip) (c : Core), (s.core c).st.getLsbD St.IE = false ∨ s.line c.cid = false → s.gives (.interruptEntry c) s)
  ∧ (∀ (s u : Chip) (c : Core) (x : CoreSt), x = (s.core c).landAll → s.bufferOk c → isSram (x.sp - 1).toNat = true →
    u = s.enterVector c 0 x.pc none →
    (isSram (x.sp - 2).toNat = true →
      (u.core c).pc = x.vbr ∧ (u.core c).sp = x.sp - 2 ∧ (u.core c).st = stSet x.st St.IE false ∧ (u.core c).taddr = x.taddr
      ∧ (u.core c).tcause = (if x.vbr = 0x000040#24 then 0xB6#9 else x.tcause) ∧ (u.core c).run = (if x.vbr = 0x000040#24 then .lockup else x.run)
      ∧ u.sees c (x.sp - 1).toNat = x.st ∧ u.sees c (x.sp - 2).toNat = x.pc.setWidth 36
      ∧ ∀ b : Nat, b ≠ (x.sp - 1).toNat → b ≠ (x.sp - 2).toNat → u.sees c b = s.sees c b)
    ∧ (isSram (x.sp - 2).toNat = false → (u.core c).run = .lockup ∧ (u.core c).tcause = 0x1B6#9 ∧ (u.core c).taddr = x.sp - 1 ∧ u.sees c (x.sp - 1).toNat = x.st))
  ∧ (∀ (s : Chip) (c : Core), s.ready c →
    s.gives (.wait c ⟨0, false, 0⟩) (if (s.fetch c).line c.cid then (s.fetch c).finish c 1 none
      else ((s.fetch c).setCore c { (s.fetch c).core c with run := .wait }).finish c 1 none))
  ∧ (∀ (s : Chip) (c : Core), (s.core c).run = .wait → s.pwr.st = .run → s.boot.ph ≠ .dead → (s.core c).halted = false → s.coreRate c ≠ 0 → s.line c.cid = true →
    (c = .foxA → s.ldr.parked = false) → ∃ l : List (Nat × Nat), (∀ n : Nat, 1 ≤ n → n ≤ 95 → s.presented c.cid n = true → (c.cid, n) ∈ l) ∧ (∀ e ∈ s.icu.ripe, e ∈ l)
      ∧ s.gives (.waitEnd c) ({ s with icu := { s.icu with ripe := l } }.setCore c { s.core c with run := .run }))
  ∧ ∀ (s : Chip) (c : Core), (s.core c).run ≠ .wait ∨ s.line c.cid = false ∨ s.pwr.st ≠ .run ∨ s.boot.ph = .dead ∨ c = .foxA ∧ s.ldr.parked = true →
    s.gives (.waitEnd c) s)
  ∧ ((∀ (s f : Chip) (c : Core), s.ready c → f = s.fetch c →
    s.gives (.fence c ⟨0, false, 0⟩) (((f.drainAll c).setCore c { (f.drainAll c).core c with prefetch := [] }).finish c (if c = .badger then 1 else 2) none)
    ∧ s.gives (.fencew c ⟨0, false, 0⟩) ((f.drainAll c).finish c 1 none)
    ∧ s.gives (.fenceio c ⟨0, false, 0⟩) ((f.drainAll c).finish c 1 none))
  ∧ (∀ (s : Chip) (c : Core), (s.core c).wbuf = [] → s.drainAll c = s)
  ∧ (∀ (s : Chip) (c : Core) (l : List (Nat × Word)), l ≠ [] → (s.core c).wbuf = l → (∀ e ∈ l, isSram e.1 = true) →
    ((s.drainAll c).core c).wbuf = [] ∧ ∀ b : Nat, (s.drainAll c).rd b = ((s.core c).buffered b).getD (s.rd b))
  ∧ (∀ (s t u : Chip) (c : Core) (o : Opnd) (a : BitVec 24) (w : Word), s.ready c → o.inModes [1, 2, 3, 4] = true → (s.fetch c).effAddr c o = .ok a t →
    (isSram a.toNat = true → (t.drainAll c).coreRead c a = .ok w u →
      s.gives (.xchg c o) (((((u.wr a.toNat (u.core c).a).setCore c { (u.wr a.toNat (u.core c).a).core c with a := w, prefetch := [] }).postInc c o)).finish c 3 none))
    ∧ (isSram a.toNat = false → s.gives (.xchg c o) (((s.fetch c).undone c t).takeTrap c { vec := 3, cause := 0xB2, addr := a, data := true })))
  ∧ (∀ (s f : Chip) (k : Nat) (o : Opnd), s.ready .badger → k < 4 → o = ⟨0, false, BitVec.ofNat 24 k⟩ → f = s.fetch .badger →
    (f.bit F.LNK_CTL_EN = false → s.gives (.slotw .badger o) ((f.setCore .badger { f.cores.badger with st := stSet f.cores.badger.st St.C true }).finish .badger 1 none))
    ∧ (∀ n : Nat, f.bit F.LNK_CTL_EN = true → f.lnk.running = true → f.lnk.nextB.getD k 0 = n + 1 → f.boundaryAt k n = f.now →
      s.gives (.slotw .badger o) ((f.setCore .badger { f.cores.badger with a := W n, st := stSet f.cores.badger.st St.C false }).finish .badger 1 none))
    ∧ (∀ n : Nat, f.bit F.LNK_CTL_EN = true → n = f.lnk.nextB.getD k 0 → f.lnk.running = false ∨ n = 0 ∨ f.boundaryAt k (n - 1) ≠ f.now →
      (f.line 2 = true → f.lnk.running = false ∨ (f.now : Int) < f.boundaryAt k n →
        s.gives (.slotw .badger o) ((f.setCore .badger { f.cores.badger with st := stSet f.cores.badger.st St.C true }).finish .badger 1 none))
      ∧ (f.line 2 = false ∨ f.lnk.running = true ∧ f.boundaryAt k n ≤ f.now →
        s.gives (.slotw .badger o) ((f.setCore .badger { f.cores.badger with run := .slotw k }).finish .badger 1 none))))
  ∧ (∀ (s t u f : Chip) (o : Opnd) (a : BitVec 24) (p : Stamp), s.ready .badger → o.inModes [1, 2, 3, 4] = true → f = s.fetch .badger →
    p = f.owl.sample → f.effAddr .badger o = .ok a t →
    t.coreWrite .badger a (W (p.seq <<< 12 ||| p.fv.toNat <<< 11 ||| p.fine)) = .ok () u →
    s.gives (.stamp .badger o) (((u.setCore .badger { u.cores.badger with a := W p.lo }).postInc .badger o).finish .badger 3 none))
  ∧ ∀ (s : Chip) (c : Core) (o : Opnd), s.ready c → c ≠ .badger →
    s.gives (.slotw c o) ((s.fetch c).takeTrap c (illegalAt (s.core c).pc)) ∧ s.gives (.stamp c o) ((s.fetch c).takeTrap c (illegalAt (s.core c).pc)))

/-- Words that break the field rules (R453, R469): a mode that the instruction does not accept, an index select outside modes 2 and 3, or an
operand part that must be 0, traps with ILLEGAL_OP and the instruction's own address; so does an access to a special register that
does not exist.  A fetch that the interconnect refuses traps with BUS_FAULT, one from a busy bank of flash with BREAK and one of a word with an uncorrectable
error with ECC_FAULT (R455, R459, R497, R507), whatever the instruction.  A core that is held, waits, is halted or locked up executes nothing.
It says these forms complete, exec answering a next state under conditions on the state and operands alone: lda, sta. -/
def Obligations.IllegalForms : Prop :=
  (∀ (s : Chip) (c : Core) (o : Opnd) (cc : BitVec 4) (i : Instr), s.ready c →
    (o.inModes [0, 1, 2, 3, 4, 5] = false ∧ i ∈ [Instr.lda c o, .ldx c o, .ldy c o, .push c o, .add c o, .adc c o, .sub c o, .sbc c o, .cmp c o, .and c o, .or c o,
        .xor c o, .fadd c o, .fsub c o, .addd c o, .subd c o, .crcs c o, .par c o, .mul c o, .mulu c o, .mac c o]
      ∨ o.inModes [1, 2, 3, 4, 5] = false ∧ i ∈ [Instr.sta c o, .stx c o, .sty c o, .pop c o]
      ∨ o.inModes [1, 2, 4] = false ∧ i ∈ [Instr.leax c o, .leay c o]
      ∨ o.inModes [0, 1, 2, 3, 4] = false ∧ i ∈ [Instr.shl c o, .shr c o, .sha c o, .rol c o, .ror c o, .fshl c o, .fshr c o]
      ∨ o.inModes [0, 1, 2, 4] = false ∧ i ∈ [Instr.jcc c cc o, .call c o, .dbx c o, .dby c o]
      ∨ o.inModes [1, 2, 3, 4] = false ∧ i ∈ [Instr.xchg c o, .stamp c o]
      ∨ o ≠ ⟨0, false, 0⟩ ∧ i ∈ [Instr.neg c o, .not c o, .fneg c o, .fabs c o, .satn c o, .dad c o, .das c o, .fpr c o, .ret c o, .reti c o, .wait c o, .fence c o,
        .fencew c o, .fenceio c o, .nop c o]) →
    s.gives i ((s.fetch c).takeTrap c (illegalAt (s.core c).pc)))
  ∧ (∀ (s : Chip) (c : Core) (o : Opnd), s.ready c → o.mode = 5 → o.ixs = false → 9 < o.opd.toNat →
    s.gives (.lda c o) ((s.fetch c).takeTrap c (illegalAt ((s.fetch c).core c).pc)) ∧ s.gives (.sta c o) ((s.fetch c).takeTrap c (illegalAt ((s.fetch c).core c).pc)))
  ∧ ∀ (s : Chip) (c : Core) (o : Opnd) (i : Instr) (op : BitVec 8) (n : Nat), j36Parts i = some (op, c, o) → n = (s.core c).pc.toNat →
    ((s.core c).run ≠ .run ∨ (s.core c).halted = true → s.gives i s)
    ∧ (s.coreRuns c = true → (s.core c).prefetched n = none →
      (mayFetchAt n = false ∨ s.restrained n 31 = true → s.gives i (s.takeTrap c { vec := 3, cause := 0xB2, addr := (s.core c).pc }))
      ∧ (mayFetchAt n = true → s.restrained n 31 = false →
        (isFlash n = true → s.bankBusy n = true → s.gives i ((s.fetch c).takeTrap c { vec := 2, cause := 0xB1, addr := (s.core c).pc }))
        ∧ (isFlash n = false ∨ s.bankBusy n = false → s.eccBad n = true → s.gives i ((s.fetch c).takeTrap c { vec := 5, cause := 0xB4, addr := (s.core c).pc }))))

/-- What the register instructions leave alone, on an immediate operand (R474): memory, every register of the blocks (but FLC_ECC, where
the fetch itself corrects a flash word, R507), every other core, and of
their own core SP, CRCP, VBR, TCAUSE and TADDR; of X and Y all but what LDX and LDY load; of ST every bit that their rows do not name. -/
def Obligations.RegisterInstructionFrame : Prop :=
  ∀ (s : Chip) (c : Core) (n : BitVec 24) (o : Opnd) (i : Instr), s.ready c → o = ⟨0, false, n⟩ →
    i ∈ [Instr.lda c o, .ldx c o, .ldy c o, .add c o, .adc c o, .sub c o, .sbc c o, .cmp c o, .and c o, .or c o, .xor c o, .shl c o, .shr c o, .sha c o, .rol c o, .ror c o,
      .fadd c o, .fsub c o, .fshl c o, .fshr c o, .crcs c o, .par c o, .mul c o, .mulu c o, .mac c o] →
    ∃ d : Chip, s.gives i d ∧ (∀ a : Nat, a ≠ R.FLC_ECC ∨ s.flashOneAt (s.core c).pc.toNat = false → d.reg a = s.reg a) ∧ d.sram = s.sram ∧ d.flash = s.flash ∧ d.otp = s.otp ∧ d.mirror = s.mirror ∧ d.owl = s.owl ∧ d.bear = s.bear ∧ d.icu = s.icu
      ∧ (∀ e : Core, e ≠ c → d.core e = s.core e) ∧ (d.core c).pc = (s.core c).pc + 1 ∧ (d.core c).sp = (s.core c).sp ∧ (d.core c).crcp = (s.core c).crcp
      ∧ (d.core c).vbr = (s.core c).vbr ∧ (d.core c).tcause = (s.core c).tcause ∧ (d.core c).taddr = (s.core c).taddr ∧ (d.core c).wbuf = (s.core c).wbuf
      ∧ (i ≠ .ldx c o → (d.core c).x = (s.core c).x) ∧ (i ≠ .ldy c o → (d.core c).y = (s.core c).y)
      ∧ (i ∈ [Instr.cmp c o, .ldx c o, .ldy c o, .mul c o, .mulu c o, .mac c o] → (d.core c).a = (s.core c).a)
      ∧ (i ∈ [Instr.ldx c o, .ldy c o, .mul c o, .mulu c o, .mac c o] → (d.core c).st = (s.core c).st)
      ∧ ∀ k : Nat, 7 ≤ k ∨ k = St.D → (d.core c).st.getLsbD k = (s.core c).st.getLsbD k

/-- The calendar routines (R404 to R406), on every core: a core at the entry of CAL_TOSEC or CAL_FROMSEC with its return address on the stack runs the
routine and returns with the code in A, X, Y and SP as after the RET, and IE, SAT, RND and TH as they were; CAL_TOSEC writes the seconds above its
two words, or on a refusal leaves that word; CAL_FROMSEC writes the two words; of memory only these and the six words under SP change; what
CAL_FROMSEC writes for a second count is what CAL_TOSEC accepts and turns into that count; and the results of the table of R406.
It says these forms complete, exec answering a next state under conditions on the state and operands alone: calTosec, calFromsec. -/
def Obligations.CalendarRoutines : Prop :=
  (∀ (s u : Chip) (c : Core) (ret : Word) (a sp : BitVec 24) (back : Chip → Nat → Prop), s.coreRuns c = true → u = s.drainAll c → a = (s.core c).x → sp = (s.core c).sp →
    0x10006 ≤ sp.toNat → sp.toNat < 0x50000 → u.rd sp.toNat = ret → u.sramBad sp.toNat = false →
    isSram a.toNat = true → isSram (a.toNat + 2) = true → (a.toNat + 2 < sp.toNat - 6 ∨ sp.toNat < a.toNat) →
    (∀ (d : Chip) (code : Nat), back d code ↔ (d.core c).a = W code ∧ (d.core c).pc = ret.setWidth 24 ∧ (d.core c).sp = sp + 1 ∧ (d.core c).x = a ∧ (d.core c).y = (s.core c).y
      ∧ (∀ k ∈ [St.IE, 8, 9, St.SAT, St.TH], (d.core c).st.getLsbD k = (s.core c).st.getLsbD k)
      ∧ ∀ b : Nat, (b < sp.toNat - 6 ∨ sp.toNat ≤ b) → (b < a.toNat ∨ a.toNat + 2 < b) → d.rd b = u.rd b) →
    (∀ code t : Nat, (s.core c).pc = 0x20 → (code, t) = calToSec (u.rd a.toNat).toNat (u.rd (a.toNat + 1)).toNat →
      ∃ d : Chip, s.gives (.calTosec c) d ∧ back d code ∧ d.rd (a.toNat + 2) = (if code = Rc.OK then W t else u.rd (a.toNat + 2))
        ∧ d.rd a.toNat = u.rd a.toNat ∧ d.rd (a.toNat + 1) = u.rd (a.toNat + 1))
    ∧ (∀ w0 w1 : Nat, (s.core c).pc = 0x22 → (w0, w1) = calFromSec (u.rd (a.toNat + 2)).toNat →
      ∃ d : Chip, s.gives (.calFromsec c) d ∧ back d Rc.OK ∧ d.rd a.toNat = W w0 ∧ d.rd (a.toNat + 1) = W w1 ∧ d.rd (a.toNat + 2) = u.rd (a.toNat + 2)))
  ∧ (∀ t : Nat, t < 2 ^ 36 → calToSec (calFromSec t).1 (calFromSec t).2 = (Rc.OK, t))
  ∧ ∀ date time : Nat → Nat → Nat → Nat, (∀ y m d, date y m d = y <<< 10 ||| m <<< 6 ||| d) → (∀ h m s, time h m s = h <<< 12 ||| m <<< 6 ||| s) →
    calToSec (date 2000 1 1) (time 0 0 0) = (Rc.OK, 0) ∧ calToSec (date 2000 2 29) (time 0 0 0) = (Rc.OK, 5097600)
    ∧ calToSec (date 2100 2 28) (time 23 59 59) = (Rc.OK, 3160857599) ∧ calToSec 0x20D0C1 0 = (Rc.OK, 3160857600) ∧ (calToSec (date 2100 2 29) (time 0 0 0)).1 = Rc.CALENDAR
    ∧ (∀ w ∈ [date 2023 4 31, date 2024 1 0, date 2024 1 32, date 2024 13 1], (calToSec w 0).1 = Rc.CALENDAR)
    ∧ (calToSec (date 2024 6 30) (time 24 0 0)).1 = Rc.CALENDAR ∧ (calToSec (date 2016 12 31) (time 23 59 60)).1 = Rc.CALENDAR
    ∧ (calToSec (date 1999 12 31) (time 23 59 59)).1 = 0x88 ∧ calToSec (date 4177 8 19) (time 7 32 15) = (Rc.OK, 2 ^ 36 - 1) ∧ (calToSec (date 4177 8 19) (time 7 32 16)).1 = 0x88
    ∧ calFromSec 3160857599 = (date 2100 2 28, 6 <<< 17 ||| time 23 59 59) ∧ calFromSec 3160857600 = (date 2100 3 1, 0)

/-! ### Clocks, resets, power -/

/-- A write of CLK_FOX (R26, R97): the items are checked in their order; a refused write keeps the codes and puts its code in CLK_STAT.REASON;
one that passes and does not raise the highest rate switches at once, one that raises it raises VCORE first and stalls the writer until VCORE has
settled.  When the PLL locks, the cores that waited on HF-REF take their rates (R102).
It says these forms complete, exec answering a next state under conditions on the state and operands alone: clkFoxWrite,
vcoreRaiseSettled, pllLock. -/
def Obligations.ClockSwitch : Prop :=
  ∀ (s u : Chip) (ag : Agent) (v : Word) (n code : Nat), n = v.toNat % 256 → code = s.clkFoxCheck n → u = s.setReason R.CLK_STAT code →
    ((foxRate (n % 16) = none ∨ foxRate (n / 16) = none) → code = Rc.RANGE)
    ∧ ((foxRate (n % 16)).isSome = true → (foxRate (n / 16)).isSome = true →
      (s.lockedSec 1 = true → code = Rc.LOCKED)
      ∧ (s.lockedSec 1 = false → n / 16 ≠ 0 → s.prov 7 = false → code = Rc.CLOCK_OFF)
      ∧ (s.lockedSec 1 = false → (n / 16 = 0 ∨ s.prov 7 = true) → (8 ≤ n % 16 ∨ 8 ≤ n / 16) → s.cfg.pll = false → code = Rc.COMBINATION)
      ∧ (s.lockedSec 1 = false → (n / 16 = 0 ∨ s.prov 7 = true) → (n % 16 < 8 ∧ n / 16 < 8 ∨ s.cfg.pll = true) →
        (n % 16 ≠ s.fld F.CLK_FOX_FOXA_SEL ∧ s.fitsCont 0 (coreClaimAt ((foxRate (n % 16)).getD 0)) = false
          ∨ n / 16 ≠ s.fld F.CLK_FOX_FOXB_SEL ∧ s.fitsCont 1 (coreClaimAt ((foxRate (n / 16)).getD 0)) = false → code = Rc.BUDGET)
        ∧ ((n % 16 = s.fld F.CLK_FOX_FOXA_SEL ∨ s.fitsCont 0 (coreClaimAt ((foxRate (n % 16)).getD 0)) = true) → (n / 16 = s.fld F.CLK_FOX_FOXB_SEL ∨ s.fitsCont 1 (coreClaimAt ((foxRate (n / 16)).getD 0)) = true) →
          (n % 16 = 0 ∧ s.fld F.CLK_FOX_FOXA_SEL ≠ 0 ∧ s.cores.foxA.mayStop = false ∨ n / 16 = 0 ∧ s.fld F.CLK_FOX_FOXB_SEL ≠ 0 ∧ s.cores.foxB.mayStop = false → code = Rc.BUSY)
          ∧ ((n % 16 ≠ 0 ∨ s.fld F.CLK_FOX_FOXA_SEL = 0 ∨ s.cores.foxA.mayStop = true) → (n / 16 ≠ 0 ∨ s.fld F.CLK_FOX_FOXB_SEL = 0 ∨ s.cores.foxB.mayStop = true) → code = Rc.OK))))
    ∧ (code ≠ Rc.OK → s.gives (.clkFoxWrite ag v) u ∧ u.reg R.CLK_FOX = s.reg R.CLK_FOX)
    ∧ (code = Rc.OK → (u.setReg R.CLK_FOX (W n)).highestRate ≤ u.highestRate → s.gives (.clkFoxWrite ag v) (u.switchFox n))
    ∧ (code = Rc.OK → u.highestRate < (u.setReg R.CLK_FOX (W n)).highestRate →
      s.gives (.clkFoxWrite ag v) (({ u with clk := { u.clk with foxStall := some (W n, ag), vcoreAt := some (u.now + 640) } }).setFld F.PMU_VCORE_SETCODE
        (u.vcoreFor (u.setReg R.CLK_FOX (W n)).highestRate)))
    ∧ (∀ (w : Word) (a : Agent), s.clk.foxStall = some (w, a) →
      s.gives .vcoreRaiseSettled (({ s with clk := { s.clk with foxStall := none, vcoreAt := none } }).switchFox w.toNat))
    ∧ (s.clk.pllOn = true → s.bit F.CLK_STAT_PLLLOCK = false →
      s.gives .pllLock (({ s with clk := { s.clk with foxOnHf := false, pllLockAt := none } }).setBit F.CLK_STAT_PLLLOCK true))

/-- SSM_LOCK takes ones and gives none back (R66); a retained word holds what any agent writes (R101); a write to an address of no register
changes nothing.
A block that software disables (R16, R178, R203, R273, R378, R548): its EN reads 0 at once and it runs on to its safe point, a radio block's once no cell
is live and the synthesizer is idle, the cipher engine's once no page has work, the contactless block's once no mailbox write, session or answer
goes on, the link controller's once no window is open and no cell prepared, the host port's once HCS is high; at its safe point it stops and ACTIVE
reads 0; and a block that was not asked to stop is left alone.
It says these forms complete, exec answering a next state under conditions on the state and operands alone: registerWrite,
blockDisable, blockSafePointStop, ssmLockWrite. -/
def Obligations.PlainRegisters : Prop :=
  (∀ (s : Chip) (ag : Agent) (v : Word),
    s.gives (.ssmLockWrite ag v) (s.setReg R.SSM_LOCK (s.reg R.SSM_LOCK ||| (v &&& 0x3FFE#36)))
    ∧ (∀ n : Nat, n < 256 → s.gives (.registerWrite ag (R.PMU_RET n) v) (s.setReg (R.PMU_RET n) v))
    ∧ (∀ a : Nat, isReg a = false → s.gives (.registerWrite ag a v) s))
  ∧ ((∀ (s : Chip) (ag : Agent) (b : Block) (l : Live), b = .syn ∨ b = .rfe → s.radioOwner ag = true → s.bit ⟨blockCtl b, 0, 0⟩ = true → s.lnk.live = some l →
    s.gives (.blockDisable ag b) { s.setBit ⟨blockCtl b, 0, 0⟩ false with stopping := b :: s.stopping })
  ∧ (∀ (s : Chip) (b : Block), s.stopping.contains b = false → s.gives (.blockSafePointStop b) s)
  ∧ (∀ (s t : Chip) (b : Block), s.stopping.contains b = true → t = ({ s with stopping := s.stopping.filter (· ≠ b) }).setBit ⟨blockStat b, 8, 8⟩ false →
    (b = .syn ∨ b = .rfe ∨ b = .mdm →
      (s.lnk.live = none → s.syn.job = .idle → s.gives (.blockSafePointStop b) t) ∧ (s.lnk.live ≠ none ∨ s.syn.job ≠ .idle → s.gives (.blockSafePointStop b) s))
    ∧ (b = .cx → s.gives (.blockSafePointStop b) t)
    ∧ (b = .cph → ((∀ u < 4, s.pageState u = 0) → s.gives (.blockSafePointStop b) t) ∧ ((∃ u < 4, s.pageState u ≠ 0) → s.gives (.blockSafePointStop b) s))
    ∧ (b = .hp → (s.hcsLow = false → s.gives (.blockSafePointStop b) (t.release 10)) ∧ (s.hcsLow = true → s.gives (.blockSafePointStop b) s))
    ∧ (b = .nfc → s.nfc.mbox ≠ none ∨ s.nfc.rd.ph ≠ .off ∨ s.nfc.reply ≠ none ∨ s.holds 8 = true → s.gives (.blockSafePointStop b) s)
    ∧ (b = .lnk → (s.pins.windows ≠ 0 ∨ s.lnk.live ≠ none → s.gives (.blockSafePointStop b) s)
      ∧ (s.pins.windows = 0 → s.lnk.live = none → s.gives (.blockSafePointStop b) s.engineStop)))
  ∧ (∀ s : Chip, s.stopping.contains Block.nfc = true → s.nfc.mbox = none → s.nfc.rd.ph = .off → s.nfc.reply = none → s.holds 8 = false →
    s.gives (.blockSafePointStop .nfc) (({ s.setTag .off with stopping := (s.setTag .off).stopping.filter (· ≠ Block.nfc) }).setBit ⟨blockStat .nfc, 8, 8⟩ false)))

/-- What a reset clears and keeps (R100, R107, R599): a power-on reset returns every register to its reset value, PMU_CAUSE to POR alone, STB and SEQ to 0;
a brown-out, by a detector that acts in the present state, keeps STB, SEQ, the retained words, the RTC, PIN_WAKE and PMU_CAUSE, in which it sets
its own bit, and returns every register outside the Owl domain to its reset value; NFC_STAT.EXTFLD shows the field detector's level after either,
and after a brown-out MON_CELL.RBS0 the first Rbs measured since the power-on reset; after either the pins are in BOOT and no core is released.  A low
pulse of RESETN below 0.5 µs never resets, one from 2 µs always does, and in between it may; out of SHIP it leaves SHIP.
It says these forms complete, exec answering a next state under conditions on the state and operands alone: powerOnReset,
brownoutReset, resetnPulse. -/
def Obligations.Resets : Prop :=
  (∀ s : Chip, s.gives .powerOnReset s.powerOn ∧ (∀ a : Nat, a ≠ R.NFC_STAT → s.powerOn.reg a = regReset a)
    ∧ s.powerOn.reg R.NFC_STAT = Fld.put F.NFC_STAT_EXTFLD (regReset R.NFC_STAT) s.pins.latch.fdet.toNat ∧ s.powerOn.owl.stb = 0 ∧ s.powerOn.owl.seq = 0
    ∧ s.powerOn.pins.phase = .boot ∧ (∀ c : Core, s.powerOn.core c = {}) ∧ s.powerOn.flash = s.flash ∧ s.powerOn.otp = s.otp)
  ∧ (∀ (s t : Chip) (d : Detector) (b : Nat), (d = .vin ∧ b = 9) ∨ (d = .vsys ∧ b = 10) ∨ (d = .vcore ∧ b = 11) → s.pwr.st = .run ∨ s.pwr.st = .sleep →
    t = s.brownout b →
    s.gives (.brownoutReset d) t ∧ t.owl.stb = s.owl.stb ∧ t.owl.seq = s.owl.seq ∧ (∀ n : Nat, n < 256 → t.reg (R.PMU_RET n) = s.reg (R.PMU_RET n))
    ∧ (∀ a : Nat, R.RTC_CTL ≤ a → a ≤ R.RTC_CFG → t.reg a = s.reg a) ∧ t.reg R.PIN_WAKE = s.reg R.PIN_WAKE
    ∧ t.reg R.PMU_CAUSE = Fld.put ⟨R.PMU_CAUSE, b, b⟩ (s.reg R.PMU_CAUSE) 1
    ∧ (∀ a : Nat, owlReg a = false → a ≠ R.FLC_STAT → a ≠ R.NFC_STAT → a ≠ R.MON_CELL → t.reg a = regReset a)
    ∧ t.reg R.NFC_STAT = Fld.put F.NFC_STAT_EXTFLD (regReset R.NFC_STAT) s.pins.latch.fdet.toNat
    ∧ t.reg R.MON_CELL = Fld.put F.MON_CELL_RBS0 (regReset R.MON_CELL) (s.owl.rbs0.getD 0) ∧ t.pins.phase = .boot ∧ (∀ c : Core, t.core c = {}))
  ∧ (∀ s : Chip, s.pwr.st = .ship → ∀ d : Detector, s.gives (.brownoutReset d) s)
  ∧ ∀ (s : Chip) (ns : Nat),
    (ns < 500 → s.gives (.resetnPulse ns) s)
    ∧ (2000 ≤ ns → s.pwr.st ≠ .ship → s.flc.pulsing = false → s.gives (.resetnPulse ns) (s.clearAllButOwl.setCause 12))
    ∧ (500 ≤ ns → ns < 2000 → s.pwr.st ≠ .ship → s.flc.pulsing = false →
      s.gives (.resetnPulse ns) (if Config.freeBool s.free then s.draw.clearAllButOwl.setCause 12 else s.draw))
    ∧ (500 ≤ ns → ns < 2000 → s.pwr.st = .ship →
      s.gives (.resetnPulse ns) (if Config.freeBool s.free then (s.draw.powerOn.setCause 12).setFrom 3 else s.draw))
    ∧ (2000 ≤ ns → s.pwr.st = .ship → s.gives (.resetnPulse ns) ((s.powerOn.setCause 12).setFrom 3)
      ∧ ((s.powerOn.setCause 12).setFrom 3).reg R.PMU_CAUSE = 0x1103)

/-- PMU_REQ (R104, R105): a DEPTH above MAXDEPTH is refused with RANGE, one that a lasting holder forbids with BUSY, and any other takes effect, the
later write standing; a write from Badger is ignored and sets REASON to SECURITY.  A read of PMU_STAT gives it and clears LAST (R101).
It says these forms complete, exec answering a next state under conditions on the state and operands alone: pmuReqWrite,
pmuStatRead. -/
def Obligations.RestRequests : Prop :=
  ∀ (s : Chip) (ag : Agent) (v : Word) (d : Nat), d = bits v.toNat 17 16 →
    (ag = .badger → s.gives (.pmuReqWrite ag v) (s.setReason R.PMU_STAT Rc.SECURITY))
    ∧ (∀ x : Chip, ag ≠ .badger → x = (if bits v.toNat 15 0 = s.fld F.PMU_REQ_RET then s else s.setFld F.PMU_REQ_RET (bits v.toNat 15 0)) →
      (bits v.toNat 15 0 = s.fld F.PMU_REQ_RET ∨ s.lockedSec 2 = false →
        (s.fld F.PMU_REQ_MAXDEPTH < d → s.gives (.pmuReqWrite ag v) (x.setReason R.PMU_STAT Rc.RANGE))
        ∧ (d ≤ s.fld F.PMU_REQ_MAXDEPTH →
          (d = s.fld F.PMU_REQ_DEPTH → s.gives (.pmuReqWrite ag v) (x.setReason R.PMU_STAT Rc.OK))
          ∧ (d ≠ s.fld F.PMU_REQ_DEPTH →
            (s.holder 0 = true ∧ 1 ≤ d ∨ s.holder 1 = true ∧ 2 ≤ d → s.gives (.pmuReqWrite ag v) (x.setReason R.PMU_STAT Rc.BUSY))
            ∧ ((s.holder 0 = false ∨ d = 0) → (s.holder 1 = false ∨ d ≤ 1) → ∀ y : Chip,
              y = (if bits v.toNat 15 0 = s.fld F.PMU_REQ_RET then s.setFld F.PMU_REQ_DEPTH d else (s.setFld F.PMU_REQ_DEPTH d).setFld F.PMU_REQ_RET (bits v.toNat 15 0)) →
              s.gives (.pmuReqWrite ag v) (y.setReason R.PMU_STAT Rc.OK)))))
      ∧ (bits v.toNat 15 0 ≠ s.fld F.PMU_REQ_RET → s.lockedSec 2 = true → d = s.fld F.PMU_REQ_DEPTH → d ≤ s.fld F.PMU_REQ_MAXDEPTH →
        s.gives (.pmuReqWrite ag v) (s.setReason R.PMU_STAT Rc.LOCKED)))
    ∧ s.gives (.pmuStatRead ag) { s.setFld F.PMU_STAT_LAST 0 with rdata := s.reg R.PMU_STAT }

/-- The supply warnings (R99, R121, R135): a VIN warning, outside SHIP, sets its flag, is an occurrence of source 20 and makes a measurement due; a
VSYS warning in RUN or SLEEP also ends a transmission; each second of a warning the held claims are examined.
The thermal state (R142): it rises to 1 at 110 °C and to 2 at 120 °C, and falls from 2 below 115 °C and from 1 below 105 °C; the sample is shown, a change is an
occurrence of source 24, and admission runs again.  (Where one sample would carry it from 2 to 0 the model takes both steps: notes/assumptions/27.)
It says these forms complete, exec answering a next state under conditions on the state and operands alone: vinWarning, vsysWarning,
warningHoldRecheck, tempSample. -/
def Obligations.SupplyWarnings : Prop :=
  (∀ s : Chip,
    (s.pwr.st ≠ .ship → s.bit F.PMU_BOD_VINW = false →
      s.gives .vinWarning (((({ s with pwr := { s.pwr with vinLow := true } }).setBit F.PMU_BOD_VINW true).occ 20).measFallsDue))
    ∧ (s.pwr.st ≠ .ship → s.bit F.PMU_BOD_VINW = true →
      s.gives .vinWarning ((({ s with pwr := { s.pwr with vinLow := true } }).setBit F.PMU_BOD_VINW true).occ 20))
    ∧ (s.pwr.st = .run ∨ s.pwr.st = .sleep →
      s.gives .vsysWarning (((({ s with pwr := { s.pwr with vsysLow := true } }).setBit F.PMU_BOD_VSYSW true).occ 20).warnTx))
    ∧ (s.bit F.PMU_BOD_VINW = true ∨ s.bit F.PMU_BOD_VSYSW = true → s.gives .warningHoldRecheck s.admission)
    ∧ (s.bit F.PMU_BOD_VINW = false → s.bit F.PMU_BOD_VSYSW = false → s.gives .warningHoldRecheck s))
  ∧ ((∀ (th : Nat) (t : Int), th ≤ 2 →
    (120 ≤ t → thermNext th t = 2) ∧ (115 ≤ t → th = 2 → thermNext th t = 2) ∧ (110 ≤ t → t < 115 → thermNext th t = 1)
    ∧ (110 ≤ t → t < 120 → th ≤ 1 → thermNext th t = 1) ∧ (105 ≤ t → t < 110 → th = 0 → thermNext th t = 0) ∧ (105 ≤ t → t < 110 → th ≠ 0 → thermNext th t = 1)
    ∧ (t < 105 → thermNext th t = 0))
  ∧ ∀ (s u : Chip) (t : Int), u = (s.setFld F.EGY_STAT_TEMP (t % 512).toNat).setFld F.EGY_STAT_THERM (thermNext (s.fld F.EGY_STAT_THERM) t) →
    (thermNext (s.fld F.EGY_STAT_THERM) t = s.fld F.EGY_STAT_THERM → s.gives (.tempSample t) u.admission)
    ∧ (thermNext (s.fld F.EGY_STAT_THERM) t ≠ s.fld F.EGY_STAT_THERM → s.gives (.tempSample t) (u.occ 24).admission))

/-- Entering rest and waking (R76, R103, R106 to R110, R141, R271, R551): an entry in progress completes into its state, one that R103 calls for is made, and with
neither nothing changes; an edge on a pin that has the meaning of its direction in REST sets the pin's PIN_WAKE bit and, where an entry is in progress,
ABORT, and any other edge only drives the pin; a wake source in SLEEP makes the chip-wake claim; once that is granted the chip is in RUN again, and each waiting core with its line high leaves WAIT.
It says these forms complete, exec answering a next state under conditions on the state and operands alone: restEntry, wakePinEdge,
linkWake, svcWakeEdge, wakeFromSleep, wakeDeferRemeasure. -/
def Obligations.RestAndWake : Prop :=
  (∀ (s : Chip) (p : PState), s.pwr.entering = some p → s.gives .restEntry (s.restComplete p))
  ∧ (∀ (s : Chip) (p : PState), s.pwr.entering = none → s.restDepth = some p → s.gives .restEntry ((s.restBegin p).restComplete p))
  ∧ (∀ s : Chip, s.pwr.entering = none → s.restDepth = none → s.gives .restEntry s)
  ∧ (∀ (s : Chip) (p : PState), s.restDepth = some p → s.allWait = true ∧ s.noneForWaiting = true ∧ s.delayed = false ∧ p ≠ .run
      ∧ (p = .hibernate ∨ p = .ship → s.holder 1 = false ∧ s.holder 2 = false) ∧ (p = .sleep → s.holder 0 = false))
  ∧ (∀ (s : Chip) (t : Nat), s.pwr.linkWakeAt = some t → s.gives .linkWake (({ s with pwr := { s.pwr with linkWakeAt := none } }).wakeEvent 3 6))
  ∧ (∀ s : Chip, s.pwr.st = .sleep ∨ s.pwr.st = .hibernate →
      s.gives .svcWakeEdge (({ s with svc := { s.svc with lost := true, edgeAt := s.now } }).wakeEvent 2 14))
  ∧ (∀ (s : Chip) (b cls : Nat), s.pwr.entering = none → s.pwr.st = .sleep → s.pwr.wakeSrc = 0 →
      s.wakeEvent b cls = ({ s with pwr := { s.pwr with wakeSrc := putBit 0 b true } }).makeClaim 12 24 35 false (bits (s.reg R.PMU_WCLS).toNat (cls + 1) cls) none none)
  ∧ (∀ (s d : Chip) (n : Nat) (rise : Bool), n < 24 → d = (s.drivePin n rise).setFld ⟨R.PIN_WAKE, n, n⟩ 1 →
      (s.pins.cur.getD n 0 ≠ (if rise then Mean.WAKE_RISE else Mean.WAKE_FALL) ∨ s.padIn n = rise ∨ s.pinPowered n = false ∨ s.pins.phase ≠ .rest ∨ s.pwr.st = .ship →
        s.gives (.wakePinEdge n rise) (s.drivePin n rise))
      ∧ (s.pins.cur.getD n 0 = (if rise then Mean.WAKE_RISE else Mean.WAKE_FALL) → s.padIn n ≠ rise → s.pinPowered n = true → s.pins.phase = .rest → s.pwr.st ≠ .ship →
        (s.pwr.entering = none → s.gives (.wakePinEdge n rise) (d.wakeEvent 6 4))
        ∧ (s.pwr.entering.isSome = true → s.gives (.wakePinEdge n rise) ((d.setBit F.PIN_WAKE_ABORT true).wakeEvent 6 4))))
  ∧ (∀ (s t u : Chip), s.pwr.st = .sleep → s.pwr.wakeGranted = true →
      u = ({ s.takeCause 1 with pwr := { (s.takeCause 1).pwr with st := .run } }).setVcore.startHf →
      t = u.enterPhase (if u.pins.windows = 0 then .run else .slot) →
      s.gives .wakeFromSleep (((t.releaseHeld.endWait .foxA).endWait .foxB).endWait .badger))
  ∧ (∀ (s t : Chip) (m : SupplyMeas), s.pwr.wakeSrc ≠ 0 → s.pwr.wakeGranted = false → s.bear.measuring = true ∨ s.wakeMeasDue = true ∧ s.syncLevel.measLevelOk = true →
      t = (s.measDone m).admission →
      s.gives (.wakeDeferRemeasure m) { t with pwr := { t.pwr with remeasureAt := t.pwr.remeasureAt.map (fun _ => t.now + msec 100) } })

/-- The boot (R110, R126, R557 to R568): step 3 takes a measurement; the ROM goes on where the refill carries Fox A at 32 MHz, 2.25 mW, and otherwise waits for
the next one; then P0 is sampled three times, 10 µs apart, and only a low level in all three chooses recovery, never in the forerunner profile; else the stream is
applied and the image checked, and a failed check ends in recovery, or in the forerunner profile in the dead state, in which Fox A waits with IE 0; a granted release starts its core at its entry with the registers of R465; a granted wake from HIBERNATE clears all but the
Owl domain and boots warm with the account that Bear restored.
It says these forms complete, exec answering a next state under conditions on the state and operands alone: bootSequence,
coreRelease, bootSupplyRemeasure, hibernateWake. -/
def Obligations.BootSteps : Prop :=
  (∀ (s t : Chip) (m : SupplyMeas), s.pwr.bootPending = true → s.pwr.bootHeld = false → s.boot.ph = .idle → s.pwr.st = .run → s.nfc.harvest = false → t = s.bootJournals.measDone m →
    (t.bear.valid = true → 9 ≤ t.fld F.EGY_SUPPLY_REFILL → s.gives (.bootSequence m) t.bootSelect)
    ∧ (t.bear.valid = false ∨ t.fld F.EGY_SUPPLY_REFILL < 9 → s.gives (.bootSequence m) { t with
        pwr := { t.pwr with bootHeld := true }, bear := { t.bear with retryAt := some (t.bear.retryAt.getD (t.now + 3200000)) } }))
  ∧ (∀ (s t : Chip) (m : SupplyMeas), s.pwr.bootPending = true → s.pwr.bootHeld = true → (s.bear.measuring = true ∨ s.syncLevel.measLevelOk = true) →
    t = (s.setBear { s.bear with retryAt := none }).measDone m →
    (t.bear.valid = true → 9 ≤ t.fld F.EGY_SUPPLY_REFILL → s.gives (.bootSupplyRemeasure m) t.bootSelect)
    ∧ (t.bear.valid = false ∨ t.fld F.EGY_SUPPLY_REFILL < 9 → s.gives (.bootSupplyRemeasure m) { t with
        pwr := { t.pwr with bootHeld := true }, bear := { t.bear with retryAt := some (t.bear.retryAt.getD (t.now + 3200000)) } }))
  ∧ (∀ s : Chip, s.bootSelect = ({ s.journalErase with pwr := { s.journalErase.pwr with bootHeld := false }, boot := { s.journalErase.boot with ph := .bootsel s.now 0 true } }).bootSample)
  ∧ (∀ (s : Chip) (t k : Nat) (low all : Bool), s.boot.ph = .bootsel t k low → all = (low && !s.inputLevel Mean.BOOTSEL) →
    (s.now < t → s.bootSample = s)
    ∧ (t ≤ s.now → k < 2 → s.bootSample = { s with boot := { s.boot with ph := .bootsel (s.now + 320) (k + 1) all } })
    ∧ (t ≤ s.now → 2 ≤ k → s.bootSample = s.bootRun false all))
  ∧ (∀ (s t : Chip), t = { s with pwr := { s.pwr with bootPending := false, bootHeld := false }, boot := { s.boot with ph := .idle, p0low := true, warm := false } } →
    s.forerunner = false → s.bootRun false true = t.recover 2 Rc.OK 0)
  ∧ (∀ (s t : Chip) (w low : Bool), t = { s with pwr := { s.pwr with bootPending := false, bootHeld := false }, boot := { s.boot with ph := .idle, p0low := low, warm := w } } →
    (low = false ∨ s.forerunner = true) → t.applyStream.imageCheck false (w && t.applyStream.owl.imgok) ≠ Rc.OK →
    s.bootRun w low = t.applyStream.bootFail (t.applyStream.imageCheck false (w && t.applyStream.owl.imgok)))
  ∧ (∀ (s : Chip) (code : Nat), s.forerunner = true → (s.bootFail code).boot.ph = .dead ∧ (s.bootFail code).cores.foxA.run = .wait
    ∧ stBit (s.bootFail code).cores.foxA.st St.IE = false ∧ ∀ c : Core, (s.bootFail code).endWait c = s.bootFail code)
  ∧ (∀ (s u : Chip) (c : Core) (l : List Core), s.boot.ph = .release → s.boot.granted = true → s.boot.todo = c :: l →
    u = (if s.pins.phase = .boot then (s.setCore c { pc := s.coreEntry c, run := .run }).enterPhase .run else s.setCore c { pc := s.coreEntry c, run := .run }) →
    s.gives (.coreRelease c) (({ u with boot := { u.boot with todo := l } }).nextRelease))
  ∧ (∀ (s t u v : Chip), s.pwr.st = .hibernate → s.pwr.wakeGranted = true → t = (s.takeCause 2).syncLevel → u = t.clearAllButOwl.restoreSupply →
    v = (u.setBear { u.bear with level := t.bear.level, levelAt := t.bear.levelAt, grants := t.bear.grants, lastStagger := t.bear.lastStagger, nextMeas := u.owl.measAt }).publish 125 →
    (s.pwr.wakeDeferred = false → s.gives .hibernateWake (v.bootJournals.journalErase.bootRun true false))
    ∧ (s.pwr.wakeDeferred = true → s.gives .hibernateWake (((v.setReg R.EGY_WDEF (s.reg R.EGY_WDEF)).occ 21).bootJournals.journalErase.bootRun true false)))

/-! ### Pins, queues and stamps -/

/-- The pin outputs (R87, R89 to R91): each of PIN_OUT, PIN_OUTSET, PIN_OUTCLR, PIN_OUTTGL and PIN_DIR completes, for every agent and value; it changes the bits of the
agent's own pins, and of the others none; a write aimed at another agent's pin sets REASON to OWNED, any other to OK.
It says these forms complete, exec answering a next state under conditions on the state and operands alone: pinOutWrite,
pinOutsetWrite, pinOutclrWrite, pinOuttglWrite, pinDirWrite. -/
def Obligations.PinOutputs : Prop :=
  (∀ (s : Chip) (ag : Agent) (v : Word) (n own old dir : Nat), n = v.toNat % 2 ^ 24 → own = s.ownPins ag → old = (s.reg R.PIN_OUT).toNat → dir = (s.reg R.PIN_DIR).toNat →
    s.gives (.pinOutWrite ag v) (((s.setReg R.PIN_OUT (W (n &&& own ||| old &&& (0xFFFFFF - own)))).setReason R.PIN_STAT
      (if (n ^^^ old) &&& (0xFFFFFF - own) = 0 then Rc.OK else Rc.OWNED)))
    ∧ s.gives (.pinDirWrite ag v) (((s.setReg R.PIN_DIR (W (n &&& own ||| dir &&& (0xFFFFFF - own)))).setReason R.PIN_STAT
      (if (n ^^^ dir) &&& (0xFFFFFF - own) = 0 then Rc.OK else Rc.OWNED)))
    ∧ s.gives (.pinOutsetWrite ag v) (((s.setReg R.PIN_OUT (W ((old ||| n) &&& own ||| old &&& (0xFFFFFF - own)))).setReason R.PIN_STAT
      (if n &&& (0xFFFFFF - own) = 0 then Rc.OK else Rc.OWNED)))
    ∧ s.gives (.pinOutclrWrite ag v) (((s.setReg R.PIN_OUT (W (old &&& (0xFFFFFF - n) &&& own ||| old &&& (0xFFFFFF - own)))).setReason R.PIN_STAT
      (if n &&& (0xFFFFFF - own) = 0 then Rc.OK else Rc.OWNED)))
    ∧ s.gives (.pinOuttglWrite ag v) (((s.setReg R.PIN_OUT (W ((old ^^^ n) &&& own ||| old &&& (0xFFFFFF - own)))).setReason R.PIN_STAT
      (if n &&& (0xFFFFFF - own) = 0 then Rc.OK else Rc.OWNED))))
  ∧ (∀ (s : Chip) (ag : Agent) (n : Nat), n < 24 → (s.ownPins ag).testBit n = owns ag (s.pinOwner n))
  ∧ (∀ (s : Chip) (r new aimed n : Nat) (ag : Agent), r ≠ R.PIN_STAT → n < 24 →
    ((s.pinBits ag r new aimed).reg r).getLsbD n = (if owns ag (s.pinOwner n) = true then new.testBit n else (s.reg r).getLsbD n))

/-- PIN_MAP (R78, R84 to R88, R92): a write of a locked section is LOCKED, whoever makes it; then the checks; a word that passes is stored with the BOOT and RECOVER fields
as they were, and in the RUN phase the pin takes its new meaning at once.  (The order of the checks after the lock is the model's: notes/assumptions/154.)
VDDIO2 makes the pins of its bank usable or not (R72): a pin of P12 to P23 reads 0 while its bank is unpowered.
It says these forms complete, exec answering a next state under conditions on the state and operands alone: pinMapWrite,
vddio2Change. -/
def Obligations.PinMapsAndBanks : Prop :=
  (∀ (s : Chip) (ag : Agent) (n : Nat) (v w : Word), n < 24 → w = (v &&& 0xF03FFFF03#36) ||| (s.reg (R.PIN_MAP n) &&& 0x0FC0000FC#36) →
    (s.lockedSec 6 = true → s.gives (.pinMapWrite ag n v) (s.setReason R.PIN_STAT Rc.LOCKED))
    ∧ (s.lockedSec 6 = false →
      (owns ag (s.pinOwner n) = false → s.gives (.pinMapWrite ag n v) (s.setReason R.PIN_STAT Rc.OWNED))
      ∧ (owns ag (s.pinOwner n) = true →
        (mapCodesOk n w.toNat = false → s.gives (.pinMapWrite ag n v) (s.setReason R.PIN_STAT Rc.RANGE))
        ∧ (mapCodesOk n w.toNat = true →
          (s.inputsClash (s.pinMaps.set n w.toNat) = true ∨ s.removesNeeded n w.toNat = true → s.gives (.pinMapWrite ag n v) (s.setReason R.PIN_STAT Rc.PIN_PHASE))
          ∧ (s.inputsClash (s.pinMaps.set n w.toNat) = false → s.removesNeeded n w.toNat = false →
            (s.timerPinBad w.toNat = true ∨ s.eventPinBad w.toNat = true → s.gives (.pinMapWrite ag n v) (s.setReason R.PIN_STAT Rc.OWNED))
            ∧ (s.timerPinBad w.toNat = false → s.eventPinBad w.toNat = false →
              (s.pins.phase ≠ .run → s.gives (.pinMapWrite ag n v) ((s.setReg (R.PIN_MAP n) w).setReason R.PIN_STAT Rc.OK))
              ∧ (s.pins.phase = .run → s.gives (.pinMapWrite ag n v)
                (((s.setReg (R.PIN_MAP n) w).setReason R.PIN_STAT Rc.OK).pinTakes n (meanIn w.toNat .run)))))))))
  ∧ (∀ (s : Chip) (b : Bool), s.gives (.vddio2Change b) { s with pins := { s.pins with io2ok := b } })
  ∧ (∀ (s : Chip) (n : Nat), s.pins.io2ok = false → 12 ≤ n → n < 24 → s.inPin n = false ∧ s.gpioDrives n = false)

/-- A hardware side of a queue (R27, R41): an item is taken while the ring is on and not full, its words written where tail points before tail advances, and
otherwise dropped and counted; a consumer takes what is there, one entry at a time, from where head points; either is an occurrence of
the queue's own source.
It says these forms complete, exec answering a next state under conditions on the state and operands alone: hwQueueProduce,
hwQueueConsume. -/
def Obligations.QueueHardware : Prop :=
  (∀ (s : Chip) (q : Nat) (e : List Word), q < 32 →
    (s.qTakes q = true → s.gives (.hwQueueProduce q e)
      (((s.wrs (s.fld (F.QUE_RING_BASE q) + s.qTail q * s.qEsz q) (e.take (s.qEsz q))).setReg (R.QUE_TAIL q) (W ((s.qTail q + 1) % s.qSize q))).occ (33 + q)))
    ∧ (s.qTakes q = false → s.gives (.hwQueueProduce q e) ((s.setFld (F.QUE_QSTAT_OVF q) (min (s.fld (F.QUE_QSTAT_OVF q) + 1) 4095)).occ 65))
    ∧ (s.qTakes q = true ↔ s.bit (F.QUE_CFG_ON q) = true ∧ s.qCount q + 1 < s.qSize q))
  ∧ (∀ (s : Chip) (q : Nat), q < 32 →
    (s.bit (F.QUE_CFG_ON q) = true → s.qCount q ≠ 0 →
      s.gives (.hwQueueConsume q 1) ((s.setReg (R.QUE_HEAD q) (W ((s.qHead q + 1) % s.qSize q))).occ (33 + q)))
    ∧ (s.bit (F.QUE_CFG_ON q) = false ∨ s.qCount q = 0 → s.gives (.hwQueueConsume q 1) s)
    ∧ (∀ n : Nat, s.gives (.hwQueueConsume q (n + 1)) ((s.consume q).consumeN q n)))
  ∧ (∀ size h t : Nat, 2 ≤ size → h < size → t < size → ringCount size h t < size
    ∧ (ringCount size h t + 1 < size → ringCount size h ((t + 1) % size) = ringCount size h t + 1)
    ∧ (ringCount size h t ≠ 0 → ringCount size ((h + 1) % size) t + 1 = ringCount size h t))

/-- The software side of a queue (R266): the writer's tail and head move within the ring and the entries it holds; another agent's write is OWNED, an index
outside the ring RANGE, a tail that would overrun BUSY, a head past the tail RANGE; a read of QUE_QSTAT shows the queue and clears OVF.
It says these forms complete, exec answering a next state under conditions on the state and operands alone: queTailWrite,
queHeadWrite, queQstatRead. -/
def Obligations.QueueSoftware : Prop :=
  ∀ (s : Chip) (ag : Agent) (q t : Nat) (v : Word), q < 32 → t = v.toNat % 4096 →
    (mayWrite ag (s.tailWriter q) = false → s.gives (.queTailWrite ag q v) (s.qReason q Rc.OWNED))
    ∧ (mayWrite ag (s.tailWriter q) = true →
      (s.qSize q ≤ t → s.gives (.queTailWrite ag q v) (s.qReason q Rc.RANGE))
      ∧ (t < s.qSize q → s.qSize q ≤ s.qCount q + ringCount (s.qSize q) (s.qTail q) t → s.gives (.queTailWrite ag q v) (s.qReason q Rc.BUSY))
      ∧ (t < s.qSize q → s.qCount q + ringCount (s.qSize q) (s.qTail q) t < s.qSize q → (s.qKind q ≠ 5 ∨ t = s.qTail q) →
        s.gives (.queTailWrite ag q v) ((s.setReg (R.QUE_TAIL q) (W t)).qReason q Rc.OK))
      ∧ (t < s.qSize q → s.qCount q + ringCount (s.qSize q) (s.qTail q) t < s.qSize q → s.qKind q = 5 → t ≠ s.qTail q →
        s.gives (.queTailWrite ag q v) (((s.setReg (R.QUE_TAIL q) (W t)).qReason q Rc.OK).occ (33 + q))))
    ∧ (mayWrite ag (s.headWriter q) = false → s.gives (.queHeadWrite ag q v) (s.qReason q Rc.OWNED))
    ∧ (mayWrite ag (s.headWriter q) = true →
      (s.qSize q ≤ t ∨ s.qCount q < ringCount (s.qSize q) (s.qHead q) t → s.gives (.queHeadWrite ag q v) (s.qReason q Rc.RANGE))
      ∧ (t < s.qSize q → ringCount (s.qSize q) (s.qHead q) t ≤ s.qCount q → s.gives (.queHeadWrite ag q v) ((s.setReg (R.QUE_HEAD q) (W t)).qReason q Rc.OK)))
    ∧ s.gives (.queQstatRead ag q) { s.setFld (F.QUE_QSTAT_OVF q) 0 with rdata := s.qstatView q }

/-- Turning a queue on and off (R267): while it is off, by its owner and unlocked, a configuration that the check accepts turns it on empty, with OVF 0; one that
the check refuses stays off and gives the code; a queue that is on goes off by a write that changes nothing else.
The stamp unit (R31 to R33): a request takes the next SEQ, modulo 2^24, and the time of its reference instant; an event's is its arrival; it changes nothing else, and a
later stamp never has an earlier one's SEQ.
It says these forms complete, exec answering a next state under conditions on the state and operands alone: queueOn, queueOff,
stampRequest. -/
def Obligations.QueueOnOff : Prop :=
  (∀ (s : Chip) (ag : Agent) (q code : Nat) (v w : Word), q < 32 → owns ag (s.qOwner q) = true → s.lockedSec 7 = false → w = v &&& 0xFFE000000#36 →
    code = s.queueOnCheck q (s.reg (R.QUE_RING q)).toNat (s.reg (R.QUE_BUF q)).toNat (w ||| 0x1000000#36).toNat →
    (s.bit (F.QUE_CFG_ON q) = false → code = Rc.OK → s.gives (.queueOn ag q v)
      ((((((s.setReg (R.QUE_CFG q) w).setReg (R.QUE_CFG q) (w ||| 0x1000000#36)).setReg (R.QUE_HEAD q) 0).setReg (R.QUE_TAIL q) 0).setFld (F.QUE_QSTAT_OVF q) 0).qReason q Rc.OK))
    ∧ (s.bit (F.QUE_CFG_ON q) = false → code ≠ Rc.OK → s.gives (.queueOn ag q v) ((s.setReg (R.QUE_CFG q) w).qReason q code))
    ∧ (s.bit (F.QUE_CFG_ON q) = true → w = s.reg (R.QUE_CFG q) &&& 0xFFE000000#36 → s.gives (.queueOff ag q v) ((s.setReg (R.QUE_CFG q) w).qReason q Rc.OK)))
  ∧ (∀ (s : Chip) (item : StampItem) (ago : Int), ∃ p : Stamp, p.seq = (s.owl.seq + 1) % 2 ^ 24
    ∧ (p.lo, p.fv, p.fine) = s.stampTime (if item = .event then s.now else ((s.now : Int) - ago).toNat)
    ∧ s.gives (.stampRequest item ago) { s with owl := { s.owl with seq := (s.owl.seq + 1) % 2 ^ 24 }, stamped := some (item, p) })

/-! ### Bear -/

/-- A claim (R128 to R133): one that its declaration forbids is denied with its code; one that is accepted waits, in the order of arrival, for the end of its cycle of
ENERGY; there a continuous claim that FREE carries, with no warning and nothing else pending, is granted at its power.  A claimant that holds a grant makes no second one.
The order in which pending claims are examined (R132, R133): every claim once, by class, then claims that spend a reservation, then the cycle of arrival, then claimant.
(What a cycle of ENERGY is aligned to is the model's: notes/assumptions/158.)
It says these forms complete, exec answering a next state under conditions on the state and operands alone: bearClaim,
earliestStartReached. -/
def Obligations.ClaimsAreAnswered : Prop :=
  (∀ (s : Chip) (n p dur : Nat) (ms : Bool) (minP dl : Option Nat), n < 16 →
    (s.holds n = true → s.gives (.bearClaim n p dur ms minP dl) s)
    ∧ (s.holds n = false →
      (s.fld (F.EGY_DECL_PEAK n) = 0 → s.gives (.bearClaim n p dur ms minP dl) ((s.dropClaim n).deny n Rc.UNDECLARED))
      ∧ (s.fld (F.EGY_DECL_PEAK n) ≠ 0 → s.fld (F.EGY_DECL_PEAK n) < p → s.gives (.bearClaim n p dur ms minP dl) ((s.dropClaim n).deny n Rc.BUDGET))
      ∧ (p ≤ s.fld (F.EGY_DECL_PEAK n) → s.fld (F.EGY_DECL_PEAK n) ≠ 0 →
        (s.fld (F.EGY_DECL_DCLASS n) = 0 ∧ (ms = true ∨ dur = 0 ∨ 100 < dur) ∨ s.fld (F.EGY_DECL_DCLASS n) = 1 ∧ (ms = true ∨ dur = 0 ∨ 10000 < dur)
          ∨ s.fld (F.EGY_DECL_DCLASS n) = 2 ∧ (dur = 0 ∨ 524287000 < dur ∨ ms = true ∧ 524287 < dur)) →
        s.gives (.bearClaim n p dur ms minP dl) ((s.dropClaim n).deny n Rc.RANGE))
      ∧ ∀ (c : Claim) (t : Nat) (k : Bool), s.fld (F.EGY_DECL_PEAK n) ≠ 0 → p ≤ s.fld (F.EGY_DECL_PEAK n) → k = decide (s.fld (F.EGY_DECL_DCLASS n) = 3) →
        (k = true ∨ s.fld (F.EGY_DECL_DCLASS n) = 0 ∧ ms = false ∧ 1 ≤ dur ∧ dur ≤ 100 ∨ s.fld (F.EGY_DECL_DCLASS n) = 1 ∧ ms = false ∧ 1 ≤ dur ∧ dur ≤ 10000
          ∨ s.fld (F.EGY_DECL_DCLASS n) = 2 ∧ 1 ≤ dur ∧ dur ≤ (if ms then 524287 else 524287000)) →
        t = (if k then 0 else if ms then 32000 * dur else 32 * dur) →
        c = { who := n, power := p, dur := t, cont := k, minP := minP, deadline := dl.map (fun d => s.now + d), cls := s.fld (F.EGY_DECL_PCLASS n), arrival := s.now,
              earliest := some ((s.now / 32 + 1) * 32), resv := if k then none else s.matchResv n p t } →
        (n = 4 → s.fld F.EGY_STAT_THERM = 2 → s.gives (.bearClaim n p dur ms minP dl) ((s.dropClaim n).deny n Rc.THERMAL))
        ∧ (n ≠ 4 ∨ s.fld F.EGY_STAT_THERM ≠ 2 →
          (s.bear.valid = true → n ≠ 12 → c.resv = none → s.everFits c = false → s.gives (.bearClaim n p dur ms minP dl) ((s.dropClaim n).deny n Rc.NEVER_FITS))
          ∧ (s.bear.valid = false ∨ n = 12 ∨ c.resv.isSome = true ∨ s.everFits c = true →
            s.gives (.bearClaim n p dur ms minP dl) (s.setBear { s.bear with pend := s.bear.pend.filter (fun x => x.who ≠ n) ++ [c] })))))
  ∧ (∀ (s u : Chip) (c : Claim), s.bear.pend = [c] → c.cont = true → 3 ≤ c.who → c.who ≠ 4 → c.who ≠ 12 → c.cls = 3 → c.resv = none → c.arrival / 32 < s.now / 32 →
    s.bear.valid = true → s.warnHold = false → (c.power : Int) ≤ freeRefill s.refill s.bear.grants → u = s.syncLevel →
    s.gives (.earliestStartReached c.who) (u.grant c c.power) ∧ (u.grant c c.power).holds c.who = true ∧ (u.grant c c.power).claimOf c.who = none)
  ∧ (∀ l : List Claim, List.Perm (l.foldr insertClaim []) l
    ∧ (l.foldr insertClaim []).Pairwise (fun a b => a.cls < b.cls ∨ a.cls = b.cls ∧ (a.resv.isSome = true ∧ b.resv.isSome = false
        ∨ a.resv.isSome = b.resv.isSome ∧ (a.arrival / 32 < b.arrival / 32 ∨ a.arrival / 32 = b.arrival / 32 ∧ a.who ≤ b.who))))

/-- The end of claims and grants (R122, R131, R134, R135): a release takes the pending claim and the grant, and admission runs again; a burst ends alike; a marked grant that
stops, at its claimant's safe point and not before, rejoins the pending claims with its first arrival and a DEFER for PREEMPTED; a deadline that passes denies with LATE; an earliest start
has the claims examined; nothing is done for a claimant that has nothing.
It says these forms complete, exec answering a next state under conditions on the state and operands alone: earliestStartReached,
claimRelease, burstGrantEnd, preemptedStop, claimDeadlinePassed. -/
def Obligations.GrantsEnd : Prop :=
  (∀ (s u : Chip) (n : Nat), n < 13 → n ≠ 4 → s.holds n = true → u = (s.dropClaim n).syncLevel →
    s.gives (.claimRelease n) ((u.setBear { u.bear with grants := u.bear.grants.filter (fun g => g.who ≠ n) }).admission))
  ∧ (∀ (s : Chip) (n : Nat), s.holds n = false → s.gives (.claimRelease n) (s.dropClaim n))
  ∧ (∀ (s u : Chip) (n : Nat), n = 5 ∨ n = 8 ∨ n = 10 → s.holds n = true → (∀ g, s.grantOf n = some g → g.cont = false) → u = s.syncLevel →
    s.gives (.burstGrantEnd n) ((u.setBear { u.bear with grants := u.bear.grants.filter (fun g => g.who ≠ n) }).admission))
  ∧ (∀ (s u : Chip) (n : Nat) (g : Grant) (c : Claim) (a : Answer), n < 13 → s.grantOf n = some g → g.marked = true → s.claimantSafe n = true → u = s.syncLevel →
    a = { who := n, kind := .defer, code := Rc.PREEMPTED } →
    c = { who := n, power := g.power, dur := if g.cont then 0 else g.dur - (s.now - g.start), cont := g.cont, cls := g.cls, arrival := g.arrival,
          minP := g.minP, deadline := g.deadline, answered := true, cause := Rc.PREEMPTED } →
    s.gives (.preemptedStop n) (((u.setBear { u.bear with grants := u.bear.grants.filter (fun x => x.who ≠ n), pend := u.bear.pend ++ [c] }).answer a).admission))
  ∧ (∀ (s : Chip) (n : Nat), s.claimantSafe n = false → s.gives (.preemptedStop n) s)
  ∧ (∀ (s : Chip) (n d : Nat) (c : Claim), s.claimOf n = some c → c.deadline = some d → s.gives (.claimDeadlinePassed n) (s.deny n Rc.LATE))
  ∧ (∀ (s : Chip) (n : Nat), (s.claimOf n = none → s.gives (.earliestStartReached n) s ∧ s.gives (.claimDeadlinePassed n) s)
    ∧ ((s.claimOf n).isSome = true → s.gives (.earliestStartReached n) s.admission))

/-- The measurements of the supply (R118, R119, R121 to R125): commanded, at their interval, started when the account allows, taken into it, or repeated; a VSYS sample
only ever lowers LEVEL.
It says these forms complete, exec answering a next state under conditions on the state and operands alone: vsysSample,
measIntervalExpiry, egyMeasCmd, measurementStart, measurementDone, measurementRetry. -/
def Obligations.SupplyMeasurements : Prop :=
  (∀ (s u : Chip) (v : Nat), u = s.syncLevel →
    (s.bear.valid = false → s.gives (.vsysSample v) s)
    ∧ (s.bear.valid = true → s.bear.c.1 * (v * v - 9000000000000) / (14375 * s.bear.c.2) < u.bear.level →
      s.gives (.vsysSample v) ((u.setBear { u.bear with level := s.bear.c.1 * (v * v - 9000000000000) / (14375 * s.bear.c.2) }).admission))
    ∧ (s.bear.valid = true → u.bear.level ≤ s.bear.c.1 * (v * v - 9000000000000) / (14375 * s.bear.c.2) → s.gives (.vsysSample v) u))
  ∧ (∀ (s u : Chip), u = s.setBear { s.bear with nextMeas := some (s.now + 1920000000 * s.fld F.EGY_CFG_MEASINT), measDue := true } →
    (s.pwr.st = .run → s.gives .measIntervalExpiry u.measStart) ∧ (s.pwr.st ≠ .run → s.gives .measIntervalExpiry u))
  ∧ (∀ (s : Chip) (ag : Agent),
    (s.bear.measuring = true ∨ s.bear.measDue = true → s.gives (.egyMeasCmd ag) (s.setReason R.EGY_STAT Rc.BUSY))
    ∧ (s.bear.measuring = false → s.bear.measDue = false →
      s.gives (.egyMeasCmd ag) (((s.setReason R.EGY_STAT Rc.OK).setBear { s.bear with measDue := true }).measStart)))
  ∧ (∀ (s u : Chip), s.bear.measDue = true → s.bear.measuring = false → u = s.syncLevel → u.wakeMeasDue = false →
    (u.bear.valid = false ∨ (u.acct u.bear.grants u.bear.resv).head + (u.acct u.bear.grants u.bear.resv).kept u.now + uJ 250 ≤ u.bear.level →
      s.gives .measurementStart (u.setBear { u.bear with measDue := false, measuring := true }))
    ∧ (u.bear.valid = true → u.bear.level < (u.acct u.bear.grants u.bear.resv).head + (u.acct u.bear.grants u.bear.resv).kept u.now + uJ 250 →
      s.gives .measurementStart u))
  ∧ (∀ (s u : Chip) (m : SupplyMeas), s.bear.measuring = true → u = s.setBear { s.bear with measuring := false } →
    (supplyMoved m = false → s.fld F.EGY_RLIM_FLOOR ≤ supplyRefill m (s.fld F.PMU_BOD_VINBOD) → s.fld F.EGY_CLIM_FLOOR ≤ supplyCap m →
      s.gives (.measurementDone m) (if s.pwr.bootPending && s.pwr.bootHeld then (u.takeSupply m Rc.OK).bootSupply else u.takeSupply m Rc.OK))
    ∧ (supplyMoved m = true → s.bear.calFails < 2 → ∀ w : Chip,
      w = (u.setBear { u.bear with calFails := s.bear.calFails + 1, retryAt := some (s.now + 320000) }).setReason R.EGY_STAT Rc.CAL_FAIL →
      s.gives (.measurementDone m) (if s.pwr.bootPending && s.pwr.bootHeld then w.bootSupply else w)))
  ∧ (∀ (s : Chip) (t : Nat), s.bear.retryAt = some t → s.gives .measurementRetry ((s.setBear { s.bear with retryAt := none, measDue := true }).measStart))

/-- Reservations (R136 to R139): an add is refused with RES_FULL, RES_WINDOW or RES_OVERBOOK, in that order, and otherwise takes the first free entry; a clear frees
an entry, one of the slot engine only for Badger; an unspent one expires and is counted up to 255; a read of EGY_RESST clears that count.
It says these forms complete, exec answering a next state under conditions on the state and operands alone: egyRespWrite,
egyRescWrite, egyResstRead, reservationExpiry. -/
def Obligations.Reservations : Prop :=
  (∀ (s u : Chip) (ag : Agent) (v : Word) (b : Resv) (l : List (Option Resv)) (k : Option Nat) (code : Nat), (∀ c ∈ s.bear.pend, s.fresh c = false) → u = s.syncLevel →
    b = s.stagedResv (s.bear.ress.getD ag.code 0) v false → (l, k) = addResv b u.bear.resv 0 →
    code = (if k.isNone then Rc.RES_FULL else if b.start < s.owl.stb + 33 ∨ 2 ^ 24 < b.start - s.owl.stb then Rc.RES_WINDOW
      else if (u.acct u.bear.grants l).carries then Rc.OK else Rc.RES_OVERBOOK) →
    (code ≠ Rc.OK → ∀ r : List (Bool × Nat), r = u.bear.resOk.set ag.code (false, (u.bear.resOk.getD ag.code (false, 0)).2) →
      s.gives (.egyRespWrite ag v) ((u.setBear { u.bear with resp := u.bear.resp.set ag.code v, resOk := r }).setReason R.EGY_STAT code))
    ∧ (∀ (i : Nat) (r : List (Bool × Nat)), k = some i → code = Rc.OK → r = u.bear.resOk.set ag.code (true, i) →
      s.gives (.egyRespWrite ag v) ((u.setBear { u.bear with resv := l, resp := u.bear.resp.set ag.code v, resOk := r }).setReason R.EGY_STAT Rc.OK)))
  ∧ (∀ (b : Resv) (l : List (Option Resv)) (i : Nat), (addResv b l 0).2 = some i →
      l.getD i (some b) = none ∧ (addResv b l 0).1 = l.set i (some b) ∧ ∀ j : Nat, j < i → (l.getD j none).isSome = true)
  ∧ (∀ (s : Chip) (ag : Agent) (v : Word) (b : Resv), s.bear.resv.getD (v.toNat % 64) none = some b →
    (b.bySlot = true → ag ≠ .badger → s.gives (.egyRescWrite ag v) (s.setReason R.EGY_STAT Rc.OWNED))
    ∧ (b.bySlot = false ∨ ag = .badger →
      s.gives (.egyRescWrite ag v) (((s.setBear { s.bear with resv := s.bear.resv.set (v.toNat % 64) none }).setReason R.EGY_STAT Rc.OK).admission)))
  ∧ (∀ (s : Chip) (i : Nat) (b : Resv), s.bear.resv.getD i none = some b →
    s.gives (.reservationExpiry i) ((s.setBear { s.bear with resv := s.bear.resv.set i none, expired := min 255 (s.bear.expired + 1) }).admission))
  ∧ (∀ (s : Chip) (i : Nat), s.bear.resv.getD i none = none → s.gives (.reservationExpiry i) s)
  ∧ ∀ (s : Chip) (ag : Agent), s.gives (.egyResstRead ag) { s.setBear { s.bear with expired := 0 } with rdata := (s.egyResst ag).1 }

/-- Declarations and software claims (R129, R150): a declaration is refused while locked, for a forbidden value, and below a grant that is held; a write of a software
claimant's register claims, is BUSY while it holds a grant, and with power 0 gives up both.
It says these forms complete, exec answering a next state under conditions on the state and operands alone: egyDeclWrite, swClaim,
swClaimRelease. -/
def Obligations.DeclarationsAndSoftwareClaims : Prop :=
  (∀ (s : Chip) (ag : Agent) (n new : Nat) (v : Word), n < 16 →
    new = (v.toNat &&& (if n ≤ 12 then 0xB0FFF else 0xBCFFF)) ||| ((s.reg (R.EGY_DECL n)).toNat - ((s.reg (R.EGY_DECL n)).toNat &&& (if n ≤ 12 then 0xB0FFF else 0xBCFFF))) →
    (s.lockedSec 3 = true → s.gives (.egyDeclWrite ag n v) (s.setReason R.EGY_STAT Rc.LOCKED))
    ∧ (s.lockedSec 3 = false → declCheck n new = Rc.OK →
      (∀ g, s.grantOf n = some g → bits new 11 0 < g.power → s.gives (.egyDeclWrite ag n v) (s.setReason R.EGY_STAT Rc.BUSY))
      ∧ ((∀ g, s.grantOf n = some g → g.power ≤ bits new 11 0) → s.gives (.egyDeclWrite ag n v) ((s.setReg (R.EGY_DECL n) (W new)).setReason R.EGY_STAT Rc.OK)))
    ∧ (s.lockedSec 3 = false → declCheck n new ≠ Rc.OK → s.gives (.egyDeclWrite ag n v) (s.setReason R.EGY_STAT Rc.RANGE)))
  ∧ ∀ (s : Chip) (ag : Agent) (n : Nat) (v : Word), 13 ≤ n → n ≤ 15 →
    (v.toNat % 4096 ≠ 0 → s.holds n = true → s.gives (.swClaim ag n v) (s.setReason R.EGY_STAT Rc.BUSY))
    ∧ (v.toNat % 4096 ≠ 0 → s.holds n = false →
      s.gives (.swClaim ag n v) (((s.setReg (R.EGY_SWCLM n) v).claim n (v.toNat % 4096) (bits v.toNat 34 12) (bitOf v.toNat 35)).setReason R.EGY_STAT Rc.OK))
    ∧ s.gives (.swClaimRelease ag n) ((((s.setReg (R.EGY_SWCLM n) 0).release n).setBit ⟨R.EGY_SWANS n, 24, 24⟩ false).setReason R.EGY_STAT Rc.OK)

/-- The health monitor (R144, R65, R146 to R148): the ring and crystal measurements show their figures; a re-plan starts daily or on command, is BUSY while one runs, and at its end
sets each quantity, within its floor and ceiling and with its limit flag, where the stream has ADAPTIVE set, then the life estimate and its alarm.
It says these forms complete, exec answering a next state under conditions on the state and operands alone: replanDue, monReplanCmd,
replanDone, ringMeasure, hfLfMeasure. -/
def Obligations.HealthMonitor : Prop :=
  (∀ (s : Chip) (n : Nat), s.clk.hfOn = true → ∃ d : Int, d = max (-2048) (min 2047 (((n : Int) - 32000000) * 5 / 8)) ∧
    s.gives (.hfLfMeasure n) { s.setFld F.MON_XTAL_HFLF (d % 4096).toNat with mon := { s.mon with nextHfLf := some (s.now + 32000000) } })
  ∧ (∀ (s : Chip) (l : List Nat), s.pwr.st = .run → ∃ r : List Nat,
    r = (List.range 4).map (fun i => ringSlowdown (l.getD i 0) (bits (s.otpRd 5).toNat (9 * i + 8) (9 * i)) (s.fld F.PMU_VCORE_SETCODE) (signed 9 (s.fld F.EGY_STAT_TEMP)))
    ∧ s.gives (.ringMeasure l) { s.setReg R.MON_RING (W ((List.range 4).foldl (fun acc i => acc ||| min 127 (r.getD i 0) <<< (8 * i)) 0)) with
        mon := { s.mon with rings := (s.owl.stb, listMax r) :: prune s.owl.stb s.mon.rings, nextRing := some (s.now + secs 3600) } })
  ∧ (∀ (s : Chip) (ag : Agent),
    (s.mon.planning = true → s.gives .replanDue s ∧ s.gives (.monReplanCmd ag) (s.setReason R.MON_STAT Rc.BUSY))
    ∧ (s.mon.planning = false →
      s.gives .replanDue { s.setBit F.MON_STAT_PLANNING true with
        mon := { s.mon with planning := true, commanded := false, planDoneAt := some (s.now + 160000), nextPlan := s.mon.nextPlan.map (· + 86400 * 32768) } }
      ∧ s.gives (.monReplanCmd ag) { (s.setReason R.MON_STAT Rc.OK).setBit F.MON_STAT_PLANNING true with
        mon := { s.mon with planning := true, commanded := true, planDoneAt := some (s.now + 160000) } }))
  ∧ (∀ (s : Chip) (k v floor ceil x : Nat), s.planValue k = some v → s.margin k = (x, floor, ceil) →
    s.planOne k = (if max floor (min ceil v) = v then s.loadMargin k v else (s.loadMargin k (max floor (min ceil v))).setFld ⟨R.MON_STAT, 8 + k, 8 + k⟩ 1))
  ∧ (∀ (s : Chip), s.mon.planning = false → s.gives .replanDone s)
  ∧ ∀ (s t u : Chip) (a : Bool), s.mon.planning = true → s.mon.commanded = true → t = (if s.cfg.adaptive then (((s.planOne 1).planOne 2).planOne 3).planOne 4 else s) →
    u = (t.setFld F.MON_PLAN1_LIFE t.lifeEstimate).setReg R.MON_LAST (W t.owl.stb) →
    a = (u.cfg.lifeAlarm ≠ 0 && t.lifeEstimate ≠ 0xFFF && t.lifeEstimate ≤ u.cfg.lifeAlarm) → t.mon.commanded = true → (a = false ∨ u.bit F.MON_STAT_LIFEALM = true) →
    s.gives .replanDone (Chip.admission { ((u.setBit F.MON_STAT_LIFEALM a).setBit F.MON_STAT_PLANNING false).setReason R.MON_STAT Rc.OK with
      mon := { u.mon with planning := false, planDoneAt := none } })

/-! ### Radio and modem -/

/-- Enabling SYN, RFE, CX and MDM (R13, R15, R164, R177, R178, R203): an agent that does not own them posts OWNED; an enabled block is left alone; each condition that fails
posts its reason and leaves EN at 0; an enable sets EN and ACTIVE and posts OK.  RFE shows in MASKOK which FIR sets pass.
It says these forms complete, exec answering a next state under conditions on the state and operands alone: synEnable, rfeEnable,
cxEnable, mdmEnable. -/
def Obligations.RadioEnables : Prop :=
  (∀ (s : Chip) (b : Block), (s.enableBlock b).bit ⟨blockStat b - 1, 0, 0⟩ = true ∧ (s.enableBlock b).bit ⟨blockStat b, 8, 8⟩ = true
    ∧ (s.enableBlock b).fld ⟨blockStat b, 7, 0⟩ = Rc.OK)
  ∧ ∀ (s : Chip) (ag : Agent),
    (s.radioOwner ag = false → s.gives (.synEnable ag) (s.setReason R.SYN_STAT Rc.OWNED) ∧ s.gives (.rfeEnable ag) (s.setReason R.RFE_STAT Rc.OWNED)
      ∧ s.gives (.cxEnable ag) (s.setReason R.CX_STAT Rc.OWNED) ∧ s.gives (.mdmEnable ag) (s.setReason R.MDM_STAT Rc.OWNED))
    ∧ (s.radioOwner ag = true →
      (s.bit F.SYN_CTL_EN = true → s.gives (.synEnable ag) s)
      ∧ (s.bit F.SYN_CTL_EN = false → s.prov 3 = false → s.gives (.synEnable ag) (s.setReason R.SYN_STAT Rc.CLOCK_OFF))
      ∧ (s.bit F.SYN_CTL_EN = false → s.prov 3 = true → s.fld (F.EGY_DECL_PEAK 5) < 48 → s.gives (.synEnable ag) (s.setReason R.SYN_STAT Rc.BUDGET))
      ∧ (s.bit F.SYN_CTL_EN = false → s.prov 3 = true → 48 ≤ s.fld (F.EGY_DECL_PEAK 5) → s.gives (.synEnable ag) (s.enableBlock .syn))
      ∧ (s.bit F.RFE_CTL_EN = false → s.bit F.SYN_CTL_EN = false → s.gives (.rfeEnable ag) (s.setReason R.RFE_STAT Rc.CLOCK_OFF))
      ∧ (s.bit F.RFE_CTL_EN = false → s.bit F.SYN_CTL_EN = true → s.validProfs.any (fun m => s.fld (F.EGY_DECL_PEAK 4) < txClaim (mPwr m)) = true →
        s.gives (.rfeEnable ag) (s.setReason R.RFE_STAT Rc.BUDGET))
      ∧ (∀ u : Chip, s.bit F.RFE_CTL_EN = false → s.bit F.SYN_CTL_EN = true → s.validProfs.any (fun m => s.fld (F.EGY_DECL_PEAK 4) < txClaim (mPwr m)) = false →
        u = { s with free := s.free + 4 }.setFld F.RFE_STAT_MASKOK ((List.range 4).foldl (fun acc k => putBit acc k (s.firCode k = Rc.OK)) 0) →
        ((∀ k : Nat, k < 4 → s.validProfs.any (fun m => mFir m = k) = true → s.firCode k = Rc.OK) → s.gives (.rfeEnable ag) (u.enableBlock .rfe))
        ∧ (∀ k : Nat, k < 4 → s.validProfs.any (fun m => mFir m = k) = true → s.firCode k ≠ Rc.OK →
          (∀ j : Nat, j < k → s.validProfs.any (fun m => mFir m = j) = true → s.firCode j = Rc.OK) → s.gives (.rfeEnable ag) (u.setReason R.RFE_STAT (s.firCode k))))
      ∧ (s.bit F.CX_CTL_EN = false → (s.fld F.CX_CFG_ROLE = 3 → s.gives (.cxEnable ag) (s.setReason R.CX_STAT Rc.RANGE))
        ∧ (s.fld F.CX_CFG_ROLE = 0 → s.gives (.cxEnable ag) (s.setReason R.CX_STAT Rc.COMBINATION))
        ∧ (s.fld F.CX_CFG_ROLE = 1 ∨ s.fld F.CX_CFG_ROLE = 2 → s.cxPinsOk = false → s.gives (.cxEnable ag) (s.setReason R.CX_STAT Rc.PIN_PHASE))
        ∧ (s.fld F.CX_CFG_ROLE = 1 → s.cxPinsOk = true → s.bit F.RFE_CTL_EN = false → s.gives (.cxEnable ag) (s.setReason R.CX_STAT Rc.COMBINATION))
        ∧ (s.fld F.CX_CFG_ROLE = 1 → s.cxPinsOk = true → s.bit F.RFE_CTL_EN = true → s.gives (.cxEnable ag) (s.enableBlock .cx))
        ∧ (∀ (u : Chip) (g : Bool), s.fld F.CX_CFG_ROLE = 2 → s.cxPinsOk = true → u = s.enableBlock .cx →
          g = bitOf (u.fld F.CX_ARBCUR_TABLE) (2 * (u.inputLevel Mean.CX_PRI).toNat + (u.inputLevel Mean.CX_REQ).toNat) →
          s.gives (.cxEnable ag) (u.setLatch { u.pins.latch with cxGnt := g })))
      ∧ (s.bit F.MDM_CTL_EN = false →
        (s.prov 4 = false ∨ s.bit F.RFE_CTL_EN = false → s.gives (.mdmEnable ag) ((s.setReason R.MDM_STAT Rc.CLOCK_OFF).updatePll))
        ∧ (s.prov 4 = true → s.bit F.RFE_CTL_EN = true → s.fld (F.EGY_DECL_PEAK 3) < 67 → s.gives (.mdmEnable ag) ((s.setReason R.MDM_STAT Rc.BUDGET).updatePll))
        ∧ (s.prov 4 = true → s.bit F.RFE_CTL_EN = true → 67 ≤ s.fld (F.EGY_DECL_PEAK 3) → s.gives (.mdmEnable ag) ((s.enableBlock .mdm).updatePll))))

/-- The radio's settings and counts (R169, R176, R198, R202, R224, R233, R10): a profile's frequency outside the bands is refused with BAND and a good one clears VALID; word M and the
parameter sets are checked; the next arbitration table is Badger's and is in force at once while the engine is off; a read of a count returns it and clears it.
It says these forms complete, exec answering a next state under conditions on the state and operands alone: rfeProfFWrite,
rfeProfMWrite, cxArbnxtWrite, cxCntRead, mdmLsWrite, mdmCmWrite, mdmFkWrite, mdmCountRead, lnkCntRead. -/
def Obligations.RadioSettings : Prop :=
  (∀ (s : Chip) (ag : Agent) (n : Nat) (v : Word), n < 8 →
    (s.lockedSec 12 = false → s.radioOwner ag = false → s.gives (.rfeProfFWrite ag n v) (s.setReason R.RFE_STAT Rc.OWNED) ∧ s.gives (.rfeProfMWrite ag n v) (s.setReason R.RFE_STAT Rc.OWNED))
    ∧ (s.lockedSec 12 = true →
      s.gives (.rfeProfFWrite ag n v) (s.setReason R.RFE_STAT Rc.LOCKED) ∧ s.gives (.rfeProfMWrite ag n v) (s.setReason R.RFE_STAT Rc.LOCKED))
    ∧ (∀ f : Nat, s.radioOwner ag = true → s.lockedSec 12 = false → f = bits v.toNat 29 0 →
      (f ≠ 0 → inBands f = false → s.gives (.rfeProfFWrite ag n v) (s.setReason R.RFE_STAT Rc.BAND))
      ∧ (f = 0 ∨ inBands f = true →
        s.gives (.rfeProfFWrite ag n v) (((s.setReg (R.RFE_PROF_F n) (W f)).setFld ⟨R.RFE_PROF_M n, 35, 35⟩ 0).setReason R.RFE_STAT Rc.OK)))
    ∧ (∀ m : Nat, s.radioOwner ag = true → s.lockedSec 12 = false → m = v.toNat &&& 0xFFFFFFF1F →
      (s.profMCheck n m = Rc.OK → s.gives (.rfeProfMWrite ag n v) ((s.setReg (R.RFE_PROF_M n) (W m)).setReason R.RFE_STAT Rc.OK))
      ∧ (s.profMCheck n m ≠ Rc.OK → s.gives (.rfeProfMWrite ag n v) (s.setReason R.RFE_STAT (s.profMCheck n m)))
      ∧ (mValid m = true → s.profF n = 0 → s.profMCheck n m = Rc.BAND)
      ∧ (s.profF n ≠ 0 → mPwr m = 63 ∨ 24 < bits m 4 0 ∨ mValid m = true ∧ mMode m = 0 → s.profMCheck n m = Rc.RANGE)
      ∧ (s.profF n ≠ 0 → mPwr m ≠ 63 → bits m 4 0 ≤ 24 → mRxbw m < 12 → mMode m ≠ 0 → mPwr m < mMinPwr m → s.profMCheck n m = Rc.COMBINATION)))
  ∧ (∀ (s : Chip) (ag : Agent) (m w : Nat) (v : Word) (code : Nat → Nat), m < 8 →
    code = (fun mm => if setCheck mm (v.toNat &&& setMask mm) ≠ Rc.OK then setCheck mm (v.toNat &&& setMask mm)
      else if s.validProfs.any (fun p => mMode p = mm && mMset p = m && tooNarrow mm (v.toNat &&& setMask mm) (mRxbw p)) then Rc.COMBINATION else Rc.OK) →
    (s.radioOwner ag = false → s.gives (.mdmLsWrite ag m v) (s.setReason R.MDM_STAT Rc.OWNED) ∧ s.gives (.mdmCmWrite ag m v) (s.setReason R.MDM_STAT Rc.OWNED)
      ∧ s.gives (.mdmFkWrite ag m v) (s.setReason R.MDM_STAT Rc.OWNED))
    ∧ (s.radioOwner ag = true →
      (code 1 = Rc.OK → s.gives (.mdmLsWrite ag m v) ((s.setReg (R.MDM_LS m) (W (v.toNat &&& 0xFFFFFF7F8))).setReason R.MDM_STAT Rc.OK))
      ∧ (code 1 ≠ Rc.OK → s.gives (.mdmLsWrite ag m v) (s.setReason R.MDM_STAT (code 1)))
      ∧ (code 2 = Rc.OK → s.gives (.mdmCmWrite ag m v) ((s.setReg (R.MDM_CM m) (W (v.toNat &&& 0xF7C))).setReason R.MDM_STAT Rc.OK))
      ∧ (code 2 ≠ Rc.OK → s.gives (.mdmCmWrite ag m v) (s.setReason R.MDM_STAT (code 2)))
      ∧ (code 3 = Rc.OK → s.gives (.mdmFkWrite ag m v) ((s.setReg (R.MDM_FK m) (W (v.toNat &&& 0xFFC1FF000))).setReason R.MDM_STAT Rc.OK))
      ∧ (code 3 ≠ Rc.OK → s.gives (.mdmFkWrite ag m v) (s.setReason R.MDM_STAT (code 3))))
    ∧ (lsSwf w < 6 ∨ 14 < lsSwf w ∨ lsNpre w < 8 → setCheck 1 w = Rc.RANGE) ∧ (bits w 11 10 = 3 → setCheck 2 w = Rc.RANGE)
    ∧ (fkFec w = 3 ∨ fkNpre w < 4 ∨ 1000 < fkNpre w → setCheck 3 w = Rc.RANGE))
  ∧ (∀ (s : Chip) (ag : Agent) (v : Word), (ag ≠ .badger → s.gives (.cxArbnxtWrite ag v) (s.setReason R.CX_STAT Rc.OWNED))
    ∧ ∀ u : Chip, u = (s.setFld F.CX_ARBNXT_TABLE v.toNat).setReason R.CX_STAT Rc.OK →
      (s.bit F.LNK_CTL_EN = true → s.gives (.cxArbnxtWrite .badger v) u)
      ∧ (s.bit F.LNK_CTL_EN = false → s.gives (.cxArbnxtWrite .badger v) (Chip.cxGrant (u.setReg R.CX_ARBCUR (u.reg R.CX_ARBNXT)))))
  ∧ ∀ (s : Chip) (ag : Agent),
    s.gives (.cxCntRead ag) { s.setReg R.CX_CNT (s.reg R.CX_CNT &&& ~~~ 0xFFFF#36) with rdata := s.reg R.CX_CNT }
    ∧ s.gives (.lnkCntRead ag) { s.setReg R.LNK_CNT 0 with rdata := s.reg R.LNK_CNT }
    ∧ s.gives (.mdmCountRead ag 1) { s.setReg R.MDM_LSCNT 0 with rdata := s.reg R.MDM_LSCNT }
    ∧ s.gives (.mdmCountRead ag 2) { s.setReg R.MDM_CMCNT 0 with rdata := s.reg R.MDM_CMCNT }
    ∧ s.gives (.mdmCountRead ag 3) { s.setReg R.MDM_FKCNT 0 with rdata := s.reg R.MDM_FKCNT }

/-- Locks and calibrations (R154 to R158): a commanded calibration is BUSY while the synthesiser is off or one runs or waits, waits while a cell lives, and else claims
48 for its first 45 µs step; each step ends its grant and claims the next; after the fourth CALVALID and TCAL are set, and a
cell that waits for its lock has it, or has it later, as the loop gives (notes/assumptions/65); or VCO_RANGE is posted.  LOCK is set within its time or
UNLOCKED is posted (source 71), and a lost lock ends a transmission or a reception with UNLOCKED.
Background calibrations (R172, R173): the command makes the enabled ones due, as their interval and a change of temperature do; the first that is due claims its time in a gap that
is long enough, but not again in one in which a step was denied LATE, and when its step ends it is due no more and the grant is given up.
It says these forms complete, exec answering a next state under conditions on the state and operands alone: synCalCmd,
calPendingStart, calStepDone, synLock, lockFailTimeout, lockLost, rfeBgcalCmd, bgCalDue, bgCalStepStart, bgCalStepDone. -/
def Obligations.LocksAndCalibrations : Prop :=
  ((∀ (s u : Chip) (ag : Agent), s.radioOwner ag = true →
    (s.bit F.SYN_CTL_EN = false ∨ s.bit F.SYN_STAT_CALPEND = true ∨ (∃ k, s.syn.job = .cmd k ∨ s.syn.job = .cell k) →
      s.gives (.synCalCmd ag) (s.setReason R.SYN_STAT Rc.BUSY))
    ∧ (s.bit F.SYN_CTL_EN = true → s.bit F.SYN_STAT_CALPEND = false → s.syn.job = .idle →
      (s.lnk.live.isSome = true → s.gives (.synCalCmd ag) ((s.setBit F.SYN_STAT_CALPEND true).setReason R.SYN_STAT Rc.OK))
      ∧ (s.lnk.live = none → u = (s.setReason R.SYN_STAT Rc.OK).setBit F.SYN_STAT_CALPEND false →
        s.gives (.synCalCmd ag) ((u.setSyn { s.syn with bad := false, orphan := false, job := .cmd 0, stepEnd := none }).claim 5 48 45 false))))
  ∧ (∀ s : Chip, (s.bit F.SYN_STAT_CALPEND = false ∨ s.lnk.live.isSome = true → s.gives .calPendingStart s)
    ∧ (s.bit F.SYN_STAT_CALPEND = true → s.lnk.live = none → s.syn.job = .idle → s.gives .calPendingStart
      (((s.setBit F.SYN_STAT_CALPEND false).setSyn { s.syn with bad := false, orphan := false, job := .cmd 0, stepEnd := none }).claim 5 48 45 false)))
  ∧ (∀ (s u : Chip) (ok : Bool) (k : Nat), u = s.endGrant 5 →
    (s.syn.job = .idle ∨ s.syn.stepEnd = none → s.gives (.calStepDone ok) s)
    ∧ (s.syn.job = .cmd k → k < 3 → s.syn.stepEnd.isSome = true → s.syn.orphan = false →
      s.gives (.calStepDone ok) ((u.setSyn { u.syn with bad := s.syn.bad || !ok, job := .cmd (k + 1), stepEnd := none }).claim 5 48 45 false))
    ∧ (s.syn.job = .cmd 3 → s.syn.stepEnd.isSome = true → s.syn.orphan = false → s.syn.bad = false → ∀ w : Chip,
      w = ((u.calOver.setFld F.SYN_STAT_TCAL (u.calOver.fld F.EGY_STAT_TEMP)).setBit F.SYN_STAT_CALVALID true).setReason R.SYN_STAT Rc.OK →
      (w.wantsLock = false → s.gives (.calStepDone true) w)
      ∧ (∀ (l : Live) (x : Chip), w.wantsLock = true → w.lnk.live = some l → x = (w.setFld F.SYN_FREQ_FREQ l.freq).draw →
        s.gives (.calStepDone true) (if Config.freeBool x.free then x.locked else (x.setSyn { x.syn with lockFrom := some x.now }).setFld F.RFE_STAT_STATE 1)))
    ∧ (s.syn.job = .cmd 3 → s.syn.stepEnd.isSome = true → s.syn.orphan = false → s.syn.bad = true ∨ ok = false →
      s.gives (.calStepDone ok) ((((u.calOver.setBit F.SYN_STAT_CALVALID false).setReason R.SYN_STAT Rc.VCO_RANGE).occ 71).resumeLock)))
  ∧ (∀ s : Chip, (s.syn.lockFrom = none → s.gives .synLock s ∧ s.gives .lockFailTimeout s)
    ∧ (s.syn.lockFrom.isSome = true →
      s.gives .synLock (((s.setSyn { s.syn with lockFrom := none }).setBit F.SYN_STAT_LOCK true).setReason R.SYN_STAT Rc.OK)
      ∧ s.gives .lockFailTimeout ((s.setReason R.SYN_STAT Rc.UNLOCKED).occ 71)))
  ∧ ∀ (s u : Chip), u = ((s.setBit F.SYN_STAT_LOCK false).setReason R.SYN_STAT Rc.UNLOCKED).occ 71 →
    (s.bit F.SYN_STAT_LOCK = false → s.gives .lockLost s)
    ∧ (s.bit F.SYN_STAT_LOCK = true → s.lnk.live = none → u.lnk.live = none → s.gives .lockLost u)
    ∧ (∀ l : Live, s.bit F.SYN_STAT_LOCK = true → u.lnk.live = some l → l.onAir = true →
      s.gives .lockLost (u.setLive { l with abort := some Rc.UNLOCKED, txEnd := some (u.now + min 64 u.ramp) }))
    ∧ (∀ l : Live, s.bit F.SYN_STAT_LOCK = true → u.lnk.live = some l → l.onAir = false → l.receiving = true → u.fld F.LNK_STAT_LIVE ≠ 3 →
      s.gives .lockLost (u.endCell l Rc.UNLOCKED)))
  ∧ ((∀ (s : Chip) (ag : Agent), (s.radioOwner ag = true → s.gives (.rfeBgcalCmd ag) (s.setSyn { s.syn with bgDue := s.syn.bgDue ||| s.fld F.RFE_CFG_BGEN }))
    ∧ (s.radioOwner ag = false → s.gives (.rfeBgcalCmd ag) (s.setReason R.RFE_STAT Rc.OWNED)))
  ∧ (∀ s : Chip, s.gives .bgCalDue (s.setSyn { s.syn with bgDue := s.bgMask })
    ∧ ∀ (k t c : Nat), k < 4 → s.syn.bgDone.getD k (0, 0) = (t, c) → (bitOf s.bgMask k = true ↔ bitOf s.syn.bgDue k = true
      ∨ bitOf (s.fld F.RFE_CFG_BGEN) k = true ∧ s.fld F.RFE_CFG_BGINT ≠ 0 ∧ t + secs (10 * s.fld F.RFE_CFG_BGINT) ≤ s.now ∨ s.tempMoved c = true))
  ∧ (∀ (s : Chip) (k d : Nat), k < 4 → bitOf s.syn.bgDue k = true → (∀ j : Nat, j < k → bitOf s.syn.bgDue j = false) → d = [40, 50, 50, 45].getD k 45 →
    s.pwr.st = .run → s.bit F.SYN_CTL_EN = true → s.bit F.RFE_CTL_EN = true → s.radioIdle = true →
    (s.nextPrep = none → s.gives .bgCalStepStart ((s.setSyn { s.syn with gap := none, gapLate := false, job := .bg k, stepEnd := none }).claim 5 48 d false))
    ∧ (∀ t : Nat, s.nextPrep = some t → s.syn.idleSince + us 300 ≤ t → s.now + us (d + 10) ≤ t →
      (s.syn.gapLate = false ∨ s.syn.gap ≠ some t →
        s.gives .bgCalStepStart ((s.setSyn { s.syn with gap := some t, gapLate := false, job := .bg k, stepEnd := none }).claim 5 48 d false none (some (t - us (d + 10)))))
      ∧ (s.syn.gapLate = true → s.syn.gap = some t → s.gives .bgCalStepStart s))
    ∧ (∀ t : Nat, s.nextPrep = some t → t < s.syn.idleSince + us 300 ∨ t < s.now + us (d + 10) → s.gives .bgCalStepStart s))
  ∧ (∀ s : Chip, (∀ k : Nat, k < 4 → bitOf s.syn.bgDue k = false) ∨ s.radioIdle = false → s.gives .bgCalStepStart s)
  ∧ ∀ (s u : Chip) (k : Nat), u = s.calOver → (s.syn.job = .idle ∨ s.syn.stepEnd = none → s.gives .bgCalStepDone s)
    ∧ (s.syn.job = .bg k → s.syn.stepEnd.isSome = true → ∀ y : Syn,
      y = { u.syn with bgDue := putBit u.syn.bgDue k false, bgDone := u.syn.bgDone.set k (u.now, u.fld F.EGY_STAT_TEMP), idleSince := s.syn.idleSince } →
      s.gives .bgCalStepDone ((u.setSyn y).endGrant 5)))

/-- The start of a transmission (R165, R171, R174 to R176): at the scheduled ramp start it starts, with its ramp and air time, or is held for lock or CX_GNT, or ends with CX_DENIED, or is
dropped with LATE past its deadline; a held one is examined again; a fall of CX_GNT, where P10 carries it and was high, ends it with CX_LOST where LOSSPOL said so when its cell was prepared; the arbiter's table gives CX_GNT.
It says these forms complete, exec answering a next state under conditions on the state and operands alone: txenRise, txRampStart,
txHoldResolve, txDeadlineDrop, cxGntFall, cxArbInputChange. -/
def Obligations.TransmitStart : Prop :=
  (∀ (s : Chip) (l : Live) (a : Nat) (f : List Byte) (e : Nat), s.headEntry l.c.q = some a → f = s.rdBs (4 * bits (s.rd a).toNat 23 0) (bits (s.rd (a + 1)).toNat 10 0) →
    e = s.now + s.ramp + airTime l.mm l.mset f.length →
    (s.startTx l).lnk.live = some { l with done := none, rampAt := some s.now, held := false, octets := f, e := e, txEnd := some (e + s.ramp), txenUp := true }
    ∧ (s.startTx l).pins.latch.txen = true ∧ (s.startTx l).fld F.LNK_STAT_LIVE = 2 ∧ (s.startTx l).sram = s.sram)
  ∧ (∀ (s u : Chip) (gnt : Bool) (l : Live), u = s.driveGnt gnt → u.txWaiting = some l → ∀ i : Instr,
    i = .txRampStart gnt ∧ l.held = false ∨ i = .txHoldResolve gnt ∧ l.held = true →
    (u.deadlineOf l < u.now + u.ramp → l.cxHeld = false → s.gives i (u.endCellEntry l Rc.LATE (u.deadlineOf l)))
    ∧ (u.now + u.ramp ≤ u.deadlineOf l → u.bit F.SYN_STAT_LOCK = false ∨ u.calRuns = true → s.gives i (u.setLive { l with held := true, cxHeld := false }))
    ∧ (u.now + u.ramp ≤ u.deadlineOf l → u.bit F.SYN_STAT_LOCK = true → u.calRuns = false →
      (u.cxDenies = true → l.cxTx = true → s.gives i (Chip.cxCount (u.endCellEntry l Rc.CX_DENIED (u.startOf l))))
      ∧ (u.cxDenies = true → l.cxTx = false → s.gives i (u.setLive { l with held := true, cxHeld := true }))
      ∧ (u.cxDenies = false → s.gives i (u.startTx l))))
  ∧ (∀ (s : Chip) (gnt : Bool), ((s.driveGnt gnt).txWaiting = none → s.gives (.txRampStart gnt) (s.driveGnt gnt) ∧ s.gives (.txHoldResolve gnt) (s.driveGnt gnt)))
  ∧ (∀ s : Chip, (s.txWaiting = none → s.gives .txDeadlineDrop s)
    ∧ ∀ l : Live, s.txWaiting = some l → (l.held = false → s.gives .txDeadlineDrop s)
      ∧ (l.held = true → l.cxHeld = false → s.gives .txDeadlineDrop (s.endCellEntry l Rc.LATE (s.deadlineOf l)))
      ∧ (l.held = true → l.cxHeld = true → ∀ u : Chip, u = s.cxCount → s.gives .txDeadlineDrop (u.endCellEntry l Rc.LATE (u.deadlineOf l))))
  ∧ (∀ s : Chip, (s.lnk.live = none → s.gives .txenRise s)
    ∧ ∀ l : Live, s.lnk.live = some l → (l.rampAt.isSome = true → s.gives .txenRise s)
      ∧ (l.rampAt = none → s.gives .txenRise ((s.setLive { l with txenUp := true }).setLatch { s.pins.latch with txen := true })))
  ∧ (∀ s : Chip, s.pinOf Mean.CX_GNT = none → s.gives .cxGntFall s)
  ∧ (∀ (s u : Chip) (n : Nat), s.pinOf Mean.CX_GNT = some n → u = s.drivePin n false → (s.inPin n = false ∨ u.inPin n = true → s.gives .cxGntFall u)
    ∧ (s.inPin n = true → u.inPin n = false → (u.lnk.live = none → s.gives .cxGntFall u)
    ∧ ∀ l : Live, u.lnk.live = some l →
      (u.requester = true → l.cxLoss = true → l.onAir = true →
        s.gives .cxGntFall (Chip.cxCount (u.setLive { l with abort := some Rc.CX_LOST, txEnd := some (u.now + us 1 + u.ramp) })))
      ∧ (u.requester = false ∨ l.cxLoss = false ∨ l.onAir = false → s.gives .cxGntFall u)))
  ∧ (∀ (s : Chip) (g : Bool), s.driveGnt g = if s.requester = true ∧ s.padIn 10 ≠ g then s.drivePin 10 g else s)
  ∧ ∀ (s u : Chip) (req pri : Bool), u = (s.drivePin 8 req).drivePin 9 pri → (u.arbiter = false → s.gives (.cxArbInputChange req pri) u)
    ∧ (u.arbiter = true → ∀ g : Bool, g = bitOf (u.fld F.CX_ARBCUR_TABLE) (2 * (u.inputLevel Mean.CX_PRI).toNat + (u.inputLevel Mean.CX_REQ).toNat) →
      s.gives (.cxArbInputChange req pri) (u.setLatch { u.pins.latch with cxGnt := g }))

/-- A reception (R166, R186, R196 to R200, R219 to R222, R229, R231, R251): gain steps; a preamble that was heard since the search began, within the ranges of carrier and symbol rate, is
acquired and holds the window; the sync decision, the header that the field decodes to and the payload check each go on or fail the acquisition, and are counted; track is lost only where
the course exceeds the mode's limit; a good frame is shown with its quality; its handover filters a frame that is for another node and delivers one that is for this one.
It says these forms complete, exec answering a next state under conditions on the state and operands alone: agcPeriodEnd,
preambleAcquired, syncDecision, headerDecision, trackLost, frameReceived, frameHandover. -/
def Obligations.Reception : Prop :=
  (∀ (s : Chip) (l : Live) (w : RxWin), s.lnk.live = some l → l.win = some w →
    (∀ p rssi : Int, w.opened = true → w.agcAt.isSome = true → bitOf l.m 17 = false → w.st ≠ .synced → w.st ≠ .header → ∀ w' : RxWin,
      w' = { w with gain := agcStep w.gain l.hi p, agcAt := some (s.now + us (2 ^ bits l.m 10 8)) } →
      s.gives (.agcPeriodEnd p rssi) ((s.setLive { l with win := some w' }).setFld F.RFE_RSSI_RSSI (rssi % 1024).toNat))
    ∧ (∀ a : RxAcq, w.opened = true → w.st = .search → s.now < w.closeAt → w.since + tAcq l.mm l.mset ≤ s.now →
      a.foff.natAbs ≤ foffLimit l.mm → a.rate.natAbs ≤ rateLimit l.mm l.mset → ∀ w' : RxWin,
      w' = { w with st := .acquired, foff := a.foff, rate := a.rate, phase := a.phase, timing := a.timing, acqAt := s.now, course := a.course, drift := a.drift, holdTo := s.now + tDecision l.mm l.mset } →
      s.gives (.preambleAcquired a) ((s.setLive { l with win := some w' }).setFld F.MDM_STAT_LIVE (if l.mm = 1 then 2 else liveRx l.mm)))
    ∧ (∀ a : RxAcq, foffLimit l.mm < a.foff.natAbs ∨ rateLimit l.mm l.mset < a.rate.natAbs ∨ s.now < w.since + tAcq l.mm l.mset →
      s.gives (.preambleAcquired a) s)
    ∧ (∀ (a b c : RxSync) (ago : Nat), w.st = .acquired →
      (syncOk l.mm l.mset w.timing a b c = false → s.gives (.syncDecision a b c ago) ((s.count ⟨cntReg l.mm, 35, 24⟩).winFail l w (syncFail l.mm)))
      ∧ (syncOk l.mm l.mset w.timing a b c = true → s.fld F.LNK_STAT_LIVE ≠ 4 →
        s.gives (.syncDecision a b c ago)
          ((s.setLive { l with win := some { syncKeep l.mm l.mset a b c w with st := .synced, syncAt := s.now - ago, stamp := none } }).publish 123))
      ∧ (syncOk l.mm l.mset w.timing a b c = true → s.fld F.LNK_STAT_LIVE = 4 → ∀ (p : Stamp) (u : Chip), (p, u) = s.stamp (s.now - ago) →
        s.gives (.syncDecision a b c ago)
          ((u.setLive { l with win := some { syncKeep l.mm l.mset a b c w with st := .synced, syncAt := s.now - ago, stamp := some p } }).publish 123)))
    ∧ (∀ (f : RxField) (hdr rot : Nat), w.st = .synced → (hdr, rot) = rxHeader l.mm l.mset w f →
      (l.mm = 1 → tracksOff 1 w (l.trackedSymbols w s.now) = true → s.gives (.headerDecision f) (s.winFail l w Rc.TRACK_LOST))
      ∧ (l.mm ≠ 1 ∨ tracksOff 1 w (l.trackedSymbols w s.now) = false →
      (headerCheck l.mm hdr ≠ Rc.OK → s.gives (.headerDecision f) ((s.count ⟨cntReg l.mm, 23, 12⟩).winFail l w (headerCheck l.mm hdr)))
      ∧ (headerCheck l.mm hdr = Rc.OK → ∀ e : Nat, e = w.syncAt + headerTime l.mm l.mset + frameLeft l.mm l.mset hdr → s.gives (.headerDecision f)
        ((s.setReg (lastReg l.mm) (W (lastWord l.mm hdr w.foff))).setLive { l with win := some { w with st := .header, hdr := hdr, endAt := e, rot := rot } }))))
    ∧ (w.st = .acquired ∨ w.st = .synced ∨ w.st = .header → tracksOff l.mm w (l.trackedSymbols w s.now) = true → s.gives .trackLost (s.winFail l w Rc.TRACK_LOST))
    ∧ (tracksOff l.mm w (l.trackedSymbols w s.now) = false → s.gives .trackLost s)
    ∧ (∀ (f : RxField) (det noise snr snr' evm : Int) (o : List Byte) (lost : Bool), w.st = .header → (o, lost, snr', evm) = rxPayload l.mm l.mset w f snr →
      (lost = true → s.gives (.frameReceived f det noise snr) (s.winFail l w Rc.TRACK_LOST))
      ∧ (lost = false → (checkFrame l.mm w.hdr o).2 = false → (s.count ⟨cntReg l.mm, 11, 0⟩).bit (keepBad l.mm) = false →
        s.gives (.frameReceived f det noise snr) ((s.count ⟨cntReg l.mm, 11, 0⟩).winFail l w (payFail l.mm)))
      ∧ (∀ (q : Nat) (u : Chip) (w' : RxWin), lost = false → (checkFrame l.mm w.hdr o).2 = true → s.fld F.LNK_STAT_LIVE = 4 →
        q = qualityWord l.mm l.mset w.hdr (if 0 ≤ snr' then det else noise + snr' / 2) snr' evm →
        w' = { w with st := .done, frame := (checkFrame l.mm w.hdr o).1, code := Rc.OK, qual := q, agcAt := none } →
        u = ((((s.setReg R.RFE_QUAL (W q)).setReason R.MDM_STAT Rc.OK).setBit F.RFE_RSSI_VALID false).setFld F.RFE_RSSI_RSSI 0).setFld F.MDM_STAT_LIVE 0 →
        s.gives (.frameReceived f det noise snr) ((u.setLive { l with win := some w' }).release 3)))
    ∧ (w.st = .done → s.fld F.LNK_STAT_LIVE ≠ 4 → s.gives .frameHandover (s.setLive { l with win := some { w with st := .handed, handedAt := s.now } }))
    ∧ (∀ (f : List Byte) (w' : RxWin), w.st = .done → s.fld F.LNK_STAT_LIVE = 4 → w.code = Rc.OK → f = w.frame → w' = { w with st := .handed, handedAt := s.now } →
      (f.length < 9 ∨ lhMesh f ≠ s.meshId ∨ lhDst f ≠ 0xFFFF ∧ lhDst f ≠ s.saddr ∨ lhDst f ≠ 0xFFFF ∧ s.bit F.LNK_CFG_BCONLY = true →
        s.gives .frameHandover (Chip.endCell (s.count F.LNK_CNT_FILTERED) { l with win := some w' } Rc.FILTERED))
      ∧ (∀ (d : Delivery) (l' : Live) (c : Int), 9 ≤ f.length → lhMesh f = s.meshId → lhDst f = 0xFFFF → s.senderOf (lhSrc f) = 127 → lhAckReq f = false →
        f.length ≤ 4 * s.fld (F.QUE_BUF_BUFSZ (4 * lhPri f)) → s.qTakes (4 * lhPri f) = true →
        d = { q := 4 * lhPri f, nbr := 127, frame := f, code := Rc.OK, qual := w.qual, stamp := w.stamp.getD {} } →
        c = corrOf ((s.startOf l : Int) - (w.syncAt - tSync l.mm l.mset)) 8 →
        l' = { l with win := some w', rxd := true, reason := Rc.OK, corr := some c, deliver := some d } →
        s.gives .frameHandover (Chip.endCell (s.deliverFrame l' false) { l' with deliver := none } Rc.OK))))
  ∧ (∀ (s : Chip) (l : Live) (w : RxWin) (code : Nat), (w.closeAt ≤ s.now → s.winFail l w code = s.endWindow l code)
    ∧ (s.now < w.closeAt → s.winFail l w code
      = ((s.setLive { l with win := some { w with st := .search, since := s.now, failed := some code } }).setReason R.MDM_STAT code).setFld F.MDM_STAT_LIVE (liveRx l.mm)))
  ∧ (∀ (g hi : Nat) (p : Int), (-(100 * hi : Int) < p → g < 24 → agcStep g hi p = g + 1) ∧ (p < -(100 * (hi + 6) : Int) → 0 < g → agcStep g hi p = g - 1))
  ∧ ∀ (s : Chip) (p rssi foff : Int) (ago : Nat) (q : RxAcq) (a b c : RxSync) (g : RxField), s.lnk.live = none →
    s.gives (.agcPeriodEnd p rssi) s ∧ s.gives (.preambleAcquired q) s
    ∧ s.gives (.syncDecision a b c ago) s ∧ s.gives (.headerDecision g) s ∧ s.gives .trackLost s ∧ s.gives (.frameReceived g p rssi foff) s ∧ s.gives .frameHandover s

/-! ### Link controller -/

/-- Slot boundaries and time corrections (R236, R237, R257, R258, R271): a boundary counts its class's ASN on, copies the arbitration table, is occurrence 67 + c, and ends Badger's
SLOTW on that class with the ASN; corrections wait for a free boundary, where they move TOFF and each, however it came, is passed to the health monitor (R144), and one above MAXCORR is rejected; DESYNC falls once where none came.
It says these forms complete, exec answering a next state under conditions on the state and operands alone: slotBoundary,
cellChoice, desyncTimeout, lnkTadjWrite. -/
def Obligations.SlotBoundaries : Prop :=
  (∀ (s : Chip) (c : Nat), c < 4 → s.lnk.running = false → s.gives (.slotBoundary c) s ∧ s.gives (.cellChoice c) s)
  ∧ (∀ (s u v : Chip) (c n : Nat), c < 4 → s.lnk.running = true → s.lnk.chosen = [] → s.pwr.st = .run → n = s.lnk.nextB.getD c 0 →
    u = s.setLnk { s.lnk with nextB := s.lnk.nextB.set c (n + 1) } → v = Chip.occ (Chip.cxGrant (u.setReg R.CX_ARBCUR (u.reg R.CX_ARBNXT))) (67 + c) →
    (Chip.cxGrant (u.setReg R.CX_ARBCUR (u.reg R.CX_ARBNXT))).pwr.st = .run → s.pins.windows ≠ 0 → v.pins.windows ≠ 0 →
    (v.cores.badger.run ≠ .slotw c → s.gives (.slotBoundary c) v)
    ∧ (v.cores.badger.run = .slotw c → ∀ b : CoreSt, b = { v.cores.badger with run := .run, a := W (n % 2 ^ 36), st := stSet v.cores.badger.st St.C false } →
      s.gives (.slotBoundary c) (v.setCore .badger b)))
  ∧ (∀ (s u : Chip) (c : Nat), c < 4 → s.lnk.running = true → s.boundaryFree = true → s.lnk.corrs ≠ [] → u = s.applyCorrections →
    (u.now : Int) < u.boundaryAt c (u.lnk.nextB.getD c 0) → s.lnk.nextB = u.lnk.nextB → s.gives (.slotBoundary c) u)
  ∧ (∀ (s t u : Chip) (d : Int), s.lnk.corrs = [d] → t = s.setFld F.LNK_TOFF_TOFF ((s.toff + d) % 16777216).toNat → u = t.monCorrection d 4 →
    s.applyCorrections = (u.setLnk { u.lnk with corrs := [], lastCorr := u.now, desynced := false }).setBit F.LNK_STAT_SYNCED true)
  ∧ (∀ (s : Chip) (ag : Agent) (v : Word) (d : Int), d = signed 16 (v.toNat % 65536) →
    (ag ≠ .badger → ag ≠ .svc → s.gives (.lnkTadjWrite ag v) (s.setReason R.LNK_STAT Rc.OWNED))
    ∧ (ag = .badger ∨ ag = .svc →
      (d ≤ (s.fld F.LNK_SYNC_MAXCORR : Int) → -(s.fld F.LNK_SYNC_MAXCORR : Int) ≤ d →
        s.gives (.lnkTadjWrite ag v) ((s.setLnk { s.lnk with corrs := s.lnk.corrs ++ [d] }).setReason R.LNK_STAT Rc.OK))
      ∧ ((s.fld F.LNK_SYNC_MAXCORR : Int) < d ∨ d < -(s.fld F.LNK_SYNC_MAXCORR : Int) →
        s.gives (.lnkTadjWrite ag v) (((s.setBit F.LNK_EVT_CORRREJ true).occ 66).setReason R.LNK_STAT Rc.CORR_REJECT))))
  ∧ ∀ s : Chip, (s.lnk.running = false ∨ s.lnk.desynced = true ∨ s.fld F.LNK_SYNC_DESYNC = 0 ∨ s.hasTimeSource = false → s.gives .desyncTimeout s)
    ∧ (s.lnk.running = true → s.lnk.desynced = false → s.fld F.LNK_SYNC_DESYNC ≠ 0 → s.hasTimeSource = true → ∀ u : Chip,
      u = ((s.setLnk { s.lnk with desynced := true }).setBit F.LNK_STAT_SYNCED false).setReason R.LNK_STAT Rc.DESYNC →
      s.gives .desyncTimeout (Chip.occ (Chip.occ (u.setBit F.LNK_EVT_DESYNC true) 66) 32))

/-- The choice of a cell and its preparation (R243, R245, R248, R249, R170, R205): a chosen cell opens a SLOT window at its choice instant, or ends there with BAND where
its hop's channel is unset, whatever the power state, and else with NOT_AWAKE where the chip does not run; at its preparation start, with its profile, taps and coexistence choices copied, it claims the
transmitter or the receiver for the time its frame or window needs, or ends with OVERLAP, PROFILE_EMPTY, CLOCK_OFF or its length's code.
It says these forms complete, exec answering a next state under conditions on the state and operands alone: cellChoice,
cellPrepStart. -/
def Obligations.CellPreparation : Prop :=
  (∀ (s u w : Chip) (c n i w0 w1 : Nat) (q : Option Nat) (k : Chosen), c < 4 → s.lnk.running = true → n = s.lnk.nextC.getD c 0 → s.lnk.nextC = s.purgeBooks.lnk.nextC →
    u = s.purgeBooks.setLnk { s.purgeBooks.lnk with nextC := s.lnk.nextC.set c (n + 1) } →
    (u.choose c n true = (none, w) → s.gives (.cellChoice c) w)
    ∧ (u.choose c n true = (some (i, w0, w1, q), w) → w.lnk.nextB.getD c 0 ≤ n → sfHop (w.sfWord (cellSf w0)) = false → w.pwr.st = .run →
      (q.isSome = true ∨ us (w.fld F.MON_PLAN0_GUARD) ≤ w.txOff c - w.lockLead c) →
      k = { cls := c, asn := n, b := (u.boundaryAt c n).toNat, index := i, w0 := w0, w1 := w1, tx := q.isSome, q := q.getD 0, guard := w.fld F.MON_PLAN0_GUARD,
            entry := q.bind (fun q => w.headMark q) } →
      s.gives (.cellChoice c) ((w.setLnk { w.lnk with chosen := w.lnk.chosen ++ [{ k with window := true }] }).openWindow k))
    ∧ (u.choose c n true = (some (i, w0, w1, q), w) → w.lnk.nextB.getD c 0 ≤ n →
      k = { cls := c, asn := n, b := (u.boundaryAt c n).toNat, index := i, w0 := w0, w1 := w1, tx := q.isSome, q := q.getD 0, guard := w.fld F.MON_PLAN0_GUARD,
            ch := if sfHop (w.sfWord (cellSf w0)) then w.hopCh n w0 else 63, freq := if sfHop (w.sfWord (cellSf w0)) then some (w.fld ⟨R.LNK_CH (w.hopCh n w0), 29, 0⟩) else none,
            entry := q.bind (fun q => w.headMark q) } → ∀ code : Nat,
      code = (if k.freq = some 0 then Rc.BAND else Rc.NOT_AWAKE) → k.freq = some 0 ∨ w.pwr.st ≠ .run → ∀ x : Chip, x = w.setReasons code →
      s.gives (.cellChoice c) (x.setLnk { x.lnk with chosen := x.lnk.chosen ++ [{ k with ended := some code }] })))
  ∧ ∀ (s : Chip) (c : Nat), c < 4 →
    (s.lnk.chosen.find? (fun k => k.cls = c && k.ended.isNone) = none → s.gives (.cellPrepStart c) s)
    ∧ ∀ (k : Chosen) (u : Chip), s.lnk.chosen.find? (fun k => k.cls = c && k.ended.isNone) = some k →
      u = s.setLnk { s.lnk with chosen := s.lnk.chosen.filter (· ≠ k) } →
      (s.lnk.live.isSome = true → s.gives (.cellPrepStart c) (((u.setBit F.LNK_EVT_OVERLAP true).occ 66).endChosen k Rc.OVERLAP))
      ∧ (∀ v : Chip, s.lnk.live = none → v = (u.setFld F.RFE_STAT_PROF k.prof).stopBg →
        (mValid (s.profM k.prof) = false → s.gives (.cellPrepStart c) ((v.endChosen k Rc.PROFILE_EMPTY).setReason R.RFE_STAT Rc.PROFILE_EMPTY))
        ∧ (mValid (s.profM k.prof) = true → v.radioOn = false → s.gives (.cellPrepStart c) (v.endChosen k Rc.CLOCK_OFF))
        ∧ (∀ (l : Live) (x : Chip), mValid (s.profM k.prof) = true → v.radioOn = true →
          l = { c := k, freq := k.freq.getD (v.profF k.prof), m := s.profM k.prof, mset := v.msetOf (s.profM k.prof), ramp := v.fld F.RFE_CFG_RAMP,
                lead := v.fld F.RFE_CFG_TXENLEAD, hi := v.fld F.RFE_AGC_HI, taps := v.firTaps (mFir (s.profM k.prof)),
                cxTx := v.bit F.CX_CFG_TXPOL, cxRx := v.bit F.CX_CFG_RXPOL, cxLoss := v.bit F.CX_CFG_LOSSPOL, rxw := rxWidth (mMode (s.profM k.prof)) (v.msetOf (s.profM k.prof)) (mRxbw (s.profM k.prof)),
                fs := txRate (mMode (s.profM k.prof)) (v.msetOf (s.profM k.prof)) } →
          x = (((v.setLive l).setFld F.LNK_STAT_LIVE 1).setFld F.LNK_STAT_CLS c).setFld F.RFE_STAT_STATE 1 →
          (k.tx = true → x.headEntry k.q = none → s.gives (.cellPrepStart c) (x.endCell l (if x.qOn k.q then Rc.OK else Rc.QUEUE_OFF)))
          ∧ (∀ a : Nat, k.tx = true → x.headEntry k.q = some a → x.headMark k.q ≠ k.entry ∨ x.leaving k.q = true → s.gives (.cellPrepStart c) (x.endCell l Rc.OK))
          ∧ (∀ a len d : Nat, k.tx = true → x.headEntry k.q = some a → x.headMark k.q = k.entry → x.leaving k.q = false → len = bits (x.rd (a + 1)).toNat 10 0 → d = x.dTx k.cls l.mm l.mset len →
            (lenCheck l.mm l.mset len ≠ Rc.OK → s.gives (.cellPrepStart c) (x.endCellEntry l (lenCheck l.mm l.mset len) (x.startOf l)))
            ∧ (lenCheck l.mm l.mset len = Rc.OK → 524287000 < d → s.gives (.cellPrepStart c) (x.endCellEntry l Rc.TOA_LIMIT (x.startOf l)))
            ∧ (lenCheck l.mm l.mset len = Rc.OK → d ≤ 524287000 → x.bit (F.EGY_DECL_FIT 4) = false → s.gives (.cellPrepStart c)
              (x.claim 4 (txClaim (mPwr l.m)) d false none (some (x.deadlineOf l - x.ramp - x.lockLead k.cls)))))
          ∧ (∀ (g : Nat) (w : RxWin), k.tx = false → g = x.guardOf k.cls k.guard →
            w = { openAt := k.b + x.txOff k.cls - g, closeAt := k.b + x.txOff k.cls + g + tAcq l.mm l.mset } →
            s.gives (.cellPrepStart c) ((x.setLive { l with win := some w }).claim 3 (rxPower l.mm) (ceilDiv (w.closeAt - x.now) 32) false none (some w.closeAt)))))

/-- Windows, the end of a transmission, and acknowledgements (R199, R249, R250, R253 to R256): a window opens with lock, unless RXPOL, as it was at the cell's preparation, forbids it, and closes with its last failure, or stays
for a frame in progress; a sent frame returns its entry, or waits for its acknowledgement; an acknowledgement is claimed, sent or dropped with ACK_LATE; one that comes is judged, a good one
returns the entry with OK, samples Q and ends its peer's run of failures, and a
miss returns the entry with NO_ACK when its tries are used up.
It says these forms complete, exec answering a next state under conditions on the state and operands alone: rxWindowOpen,
rxWindowClose, txEnd, ackClaim, ackTxStart, ackTxEnd, ackWindowOpen, ackReceived, ackWindowClose. -/
def Obligations.WindowsAndAcknowledgements : Prop :=
  (∀ (s u : Chip) (gnt : Bool) (l : Live) (w w' : RxWin), u = s.driveGnt gnt → u.lnk.live = some l → l.win = some w → w.opened = false → u.bit F.SYN_STAT_LOCK = true →
    w' = { w with opened := true, since := u.now, gain := bits l.m 4 0, agcAt := some (u.now + us (2 ^ bits l.m 10 8)) } → ∀ x : Chip,
    x = ((((u.setLive { l with win := some w' }).setFld F.RFE_STAT_STATE 2).setFld F.MDM_STAT_LIVE (liveRx l.mm)).setBit F.RFE_RSSI_VALID true) →
    (l.c.tx = false → u.inPrep = true → u.rxDenied l = true → s.gives (.rxWindowOpen gnt) (Chip.cxCount (u.endCell l Rc.CX_DENIED)))
    ∧ (l.c.tx = false → u.inPrep = true → u.rxDenied l = false → s.gives (.rxWindowOpen gnt) (x.setFld F.LNK_STAT_LIVE 4))
    ∧ (u.fld F.LNK_STAT_LIVE = 3 → l.held = true → l.granted = true → u.rxDenied l = false → s.gives (.ackWindowOpen gnt) x)
    ∧ (u.fld F.LNK_STAT_LIVE = 3 → l.held = true → l.granted = true → u.rxDenied l = true → s.gives (.ackWindowOpen gnt) (Chip.cxCount (u.ackMissed l Rc.CX_DENIED)))
    ∧ (u.fld F.LNK_STAT_LIVE = 3 → l.held = false → s.gives (.ackWindowOpen gnt)
      ((u.setLive { l with held := true }).claim 3 (rxPower l.mm) (max 1 (ceilDiv (w.closeAt - u.now) 32)) false none (some w.closeAt))))
  ∧ (∀ (s : Chip) (l : Live) (w : RxWin) (code : Nat), s.lnk.live = some l → l.win = some w → code = w.failed.getD Rc.NO_PREAMBLE →
    (s.fld F.LNK_STAT_LIVE = 4 → l.c.tx = false →
      (w.st = .search → s.gives .rxWindowClose ((s.setReason R.MDM_STAT code).endCell l code))
      ∧ (w.st ≠ .search → s.gives .rxWindowClose (s.setLive { l with win := some { w with closeAt := min w.closeAt s.now } })))
    ∧ (s.fld F.LNK_STAT_LIVE = 3 →
      (w.st = .search → s.gives .ackWindowClose ((s.setReason R.MDM_STAT code).ackMissed l code))
      ∧ (w.st ≠ .search → s.gives .ackWindowClose (s.setLive { l with win := some { w with closeAt := min w.closeAt s.now } }))))
  ∧ (∀ (z s u : Chip) (l l' : Live), s = z.stampDone → s.lnk.live = some l → u = s.setLatch { s.pins.latch with txen := false } →
    (s.fld F.LNK_STAT_LIVE ≠ 2 → z.gives .txEnd s)
    ∧ (s.fld F.LNK_STAT_LIVE = 2 →
      (∀ code, l.abort = some code → z.gives .txEnd (u.endCellEntry l code s.now))
      ∧ (∀ a, l.abort = none → s.headEntry l.c.q = some a → l' = { l with txd := true, txenUp := false, rampAt := none, txEnd := none, granted := false, held := false } →
        (bitOf (s.rd a).toNat 28 = false → z.gives .txEnd (u.endCellEntry l' Rc.OK l.e))
        ∧ (∀ (m : Nat) (w : RxWin) (x : Chip), bitOf (s.rd a).toNat 28 = true → m = l.e + s.tAck l.c.cls →
          w = { openAt := m - s.ackGuard l.c.cls, closeAt := m + s.ackGuard l.c.cls + tAcq l.mm l.mset } →
          x = ((((u.setLive { l' with win := some w }).setFld F.LNK_STAT_LIVE 3).setFld F.MDM_STAT_LIVE 0).setFld F.RFE_STAT_STATE 0).release 4 →
          us 100 ≤ x.ackGap l.c.cls → z.gives .txEnd x.synOff))))
  ∧ (∀ (s : Chip) (l : Live) (f : List Byte), s.lnk.live = some l →
    (l.ack = none ∨ s.fld F.LNK_STAT_LIVE ≠ 4 → s.gives .ackClaim s)
    ∧ (l.ack = some f → s.fld F.LNK_STAT_LIVE = 4 → ∀ d : Nat, d = 24 + ceilDiv (airTime l.mm l.mset (s.fld F.LNK_CFG_ACKLEN) + 2 * s.ramp) 32 →
      s.gives .ackClaim (((s.setLive { l with pwr := mPwr l.m }).setFld F.LNK_STAT_LIVE 5).claim 4 (txClaim (mPwr l.m)) d false none (some s.now)))
    ∧ (s.fld F.LNK_STAT_LIVE = 5 → l.txEnd.isSome = true →
      (l.abort = none → s.gives .ackTxEnd ((s.deliverFrame l true).endCell { l with deliver := none } l.reason))
      ∧ (∀ code, l.abort = some code → s.gives .ackTxEnd ((s.deliverFrame l false).endCell { l with deliver := none } code)))
    ∧ (∀ (gnt : Bool) (u : Chip) (w : RxWin), u = s.driveGnt gnt → u.lnk.live = some l → l.win = some w → l.ack = some f → l.rampAt = none → 4 ≤ u.fld F.LNK_STAT_LIVE →
      (l.granted = false ∨ u.now < w.handedAt + us 30 ∨ u.bit F.SYN_STAT_LOCK = false ∨ u.calRuns = true → s.gives (.ackTxStart gnt) (u.ackLate l))
      ∧ (l.granted = true → w.handedAt + us 30 ≤ u.now → u.bit F.SYN_STAT_LOCK = true → u.calRuns = false →
        (u.cxDenies = true → s.gives (.ackTxStart gnt) (Chip.cxCount (u.ackLate l))) ∧ (u.cxDenies = false → s.gives (.ackTxStart gnt) (u.rampFor l f)))))
  ∧ (∀ (s : Chip) (l : Live) (w : RxWin), s.lnk.live = some l → l.win = some w → s.fld F.LNK_STAT_LIVE = 3 → w.st = .handed →
    (w.code ≠ Rc.OK → s.gives .ackReceived (s.ackMissed l w.code))
    ∧ (w.code = Rc.OK → s.ackGood l w = false → s.gives .ackReceived (s.ackMissed l Rc.ACK_BAD))
    ∧ (∀ (d x : Chip) (l' : Live) (c : Int) (a : Nat), w.code = Rc.OK → s.ackGood l w = true → 11 ≤ w.frame.length → s.nbrTs (s.headNbr l.c.q) = false → a = s.nbrAddr (s.headNbr l.c.q) →
      c = signed 16 (oct2 w.frame 9) * (if lhVer w.frame = 1 then 4 else 1) → l' = { l with ackok := true, reason := Rc.OK, corr := some (max (-32768) (min 32767 c)) } →
      d = ((s.endEntry l.c.q Rc.OK (s.lnk.tries.getD (l.c.q - 8) 0 - 1) l.pwr l.e (decide (l.c.ty = 2))).endCell l' Rc.OK).sampleQ a
        (if lhVer w.frame = 1 then bits w.qual 16 9 else octAt w.frame 11) →
      x = (match d.meshPeer a with | some p => d.setPeer { p with noAcks := 0 } | none => d) →
      (∀ m : MIn, meshParse l.octets = some m → m.ty = 4 → m.orig = s.saddr → s.gives .ackReceived (if m.dst = 0 then x.nowJoined else x.joinLater))
      ∧ ((∀ m : MIn, meshParse l.octets = some m → m.ty ≠ 4 ∨ m.orig ≠ s.saddr) → s.gives .ackReceived x)))
  ∧ ∀ (s : Chip) (l : Live) (a code : Nat), l.c.ty ≠ 2 → s.headEntry l.c.q = some a →
    (bits (s.rd a).toNat 27 25 + 1 ≤ s.lnk.tries.getD (l.c.q - 8) 0 → s.ackMissed l code = s.endCellEntry l Rc.NO_ACK l.e)
    ∧ (s.lnk.tries.getD (l.c.q - 8) 0 < bits (s.rd a).toNat 27 25 + 1 → s.ackMissed l code = s.endCell l code)

/-- Bookings (R261, R262): an entry is booked to the first cell whose reservations Bear takes; an entry goes unbooked where BOOKMAX would be passed; a reception is booked for the next
occurrence of its cell, or sets BOOKFAIL.
It says these forms complete, exec answering a next state under conditions on the state and operands alone: bookTxEntry, bookRxCell. -/
def Obligations.Bookings : Prop :=
  (∀ (s u : Chip) (q : Nat), u = s.purgeBooks →
    (s.lnk.running = false ∨ q < 8 ∨ 16 ≤ q ∨ s.fld F.LNK_BOOK_BOOKAHEAD = 0 ∨ (u.lnk.books.getD (q - 8) none).isSome = true → u.lnk.running = s.lnk.running →
      s.gives (.bookTxEntry q) u)
    ∧ ∀ (a p c n i w0 : Nat) (l : List (Nat × Nat × Nat × Nat × Nat)) (rs : List Resv), u.lnk.running = true → 8 ≤ q → q < 16 → u.fld F.LNK_BOOK_BOOKAHEAD ≠ 0 →
      u.lnk.books.getD (q - 8) none = none → u.lnk.unbooked.getD (q - 8) false = false → u.headEntry q = some a → u.bookCandidates q = (p, c, n, i, w0) :: l →
      rs = u.entryResv a p c w0 →
      (u.fld F.LNK_BOOK_BOOKMAX < u.engineResv + rs.length → s.gives (.bookTxEntry q) (u.setLnk { u.lnk with unbooked := u.lnk.unbooked.set (q - 8) true }))
      ∧ (∀ (got : List Nat) (v : Chip) (k : Book), u.engineResv + rs.length ≤ u.fld F.LNK_BOOK_BOOKMAX → u.reserveAll [] rs = (Rc.OK, got, v) →
        k = { cls := c, asn := n, cell := i, resv := got, prepAt := p } →
        s.gives (.bookTxEntry q) (v.setLnk { v.lnk with books := v.lnk.books.set (q - 8) (some k) })))
  ∧ ∀ (s : Chip) (i : Nat), (s.bookRxNext i = none → s.gives (.bookRxCell i) s)
    ∧ ∀ (c n w0 m g p t : Nat) (r : Resv) (l : List (Nat × Nat × Option (Nat × Nat))), s.bookRxNext i = some (c, n, w0) → m = s.profM (bits w0 4 2) →
      g = s.guardOf c (s.fld F.MON_PLAN0_GUARD) → p = (s.boundaryAt c n + s.txOff c - g - s.lockLead c).toNat → t = s.lockLead c + 2 * g + tAcq (mMode m) (s.msetOf m) →
      r = s.slotResv 3 p (rxPower (mMode m)) t →
      (s.fld F.LNK_BOOK_BOOKMAX < s.engineResv + 1 → l = s.lnk.rxBooks.filter (fun e => e.1 ≠ i || n < e.2.1 + sfSize (s.sfWord (cellSf w0))) →
        s.gives (.bookRxCell i) (Chip.lnkEvent (s.setLnk { s.lnk with rxBooks := (i, n, none) :: l }) F.LNK_EVT_BOOKFAIL))
      ∧ (∀ (k : Nat) (v : Chip), s.engineResv + 1 ≤ s.fld F.LNK_BOOK_BOOKMAX → s.reserve r = (Rc.OK, some k, v) →
        l = v.lnk.rxBooks.filter (fun e => e.1 ≠ i || n < e.2.1 + sfSize (v.sfWord (cellSf w0))) →
        s.gives (.bookRxCell i) (v.setLnk { v.lnk with rxBooks := (i, n, some (k, r.start)) :: l }))

/-- The engine's registers (R237, R239 to R242, R272 to R274): only Badger and the service port master write them; an enable that a check refuses posts its reason and one that passes starts
the engine, or, while a stop is still pending, sets EN alone; a disable goes on until a free boundary and ends SLOTW; slotframes, cells, channels, neighbours and START are checked as the spec says; a read of ASNLO latches ASNHI.
It says these forms complete, exec answering a next state under conditions on the state and operands alone: lnkEnable, lnkDisable,
lnkSfWrite, lnkCellWrite, lnkChWrite, lnkClsStartWrite, lnkAsnloRead, lnkNbrWrite. -/
def Obligations.LinkRegisters : Prop :=
  ∀ (s : Chip) (ag : Agent) (v : Word),
    (ag ≠ .badger → ag ≠ .svc → ∀ f n k c : Nat, f < 8 → n < 64 → k < 64 → c < 4 → ∀ i : Instr,
      i = .lnkEnable ag ∨ i = .lnkDisable ag ∨ i = .lnkSfWrite ag f v ∨ i = .lnkCellWrite ag n k v ∨ i = .lnkChWrite ag k v ∨ i = .lnkClsStartWrite ag c v ∨ i = .lnkNbrWrite ag n v →
      s.gives i (s.setReason R.LNK_STAT Rc.OWNED))
    ∧ (∀ c a : Nat, c < 4 → a = s.asnNow c → s.gives (.lnkAsnloRead ag c) { s.setLnk { s.lnk with shadow := s.lnk.shadow.set c (a / 2 ^ 36) } with rdata := W a })
    ∧ (ag = .badger ∨ ag = .svc →
      (s.bit F.LNK_CTL_EN = true → s.gives (.lnkEnable ag) s)
      ∧ (s.bit F.LNK_CTL_EN = false → s.lnkCheck ≠ Rc.OK → s.gives (.lnkEnable ag) (s.setReason R.LNK_STAT s.lnkCheck))
      ∧ (s.bit F.LNK_CTL_EN = false → s.lnkCheck = Rc.OK → s.lnk.running = false → s.gives (.lnkEnable ag) (s.enableBlock .lnk).engineStart)
      ∧ (s.bit F.LNK_CTL_EN = false → s.lnkCheck = Rc.OK → s.lnk.running = true → s.gives (.lnkEnable ag) ((s.setBit F.LNK_CTL_EN true).setReason R.LNK_STAT Rc.OK))
      ∧ (s.prov 5 = false ∨ s.bit F.MDM_CTL_EN = false → s.lnkCheck = Rc.CLOCK_OFF)
      ∧ (s.bit F.LNK_CTL_EN = false → s.gives (.lnkDisable ag) s)
      ∧ (∀ u : Chip, s.bit F.LNK_CTL_EN = true → u = (s.setBit F.LNK_CTL_EN false).slotwOff → s.gives (.lnkDisable ag) { u with stopping := Block.lnk :: u.stopping })
      ∧ (∀ f w : Nat, f < 8 → w = v.toNat % 65536 →
        (sfOn (s.sfWord f) = true → sfSize w ≠ sfSize (s.sfWord f) → s.gives (.lnkSfWrite ag f v) (s.setReason R.LNK_STAT Rc.BUSY))
        ∧ (sfOn (s.sfWord f) = false → s.bit F.LNK_CTL_EN = false ∨ sfOn w = false → s.gives (.lnkSfWrite ag f v) ((s.setReg (R.LNK_SF f) (W w)).setReason R.LNK_STAT Rc.OK))
        ∧ (sfOn (s.sfWord f) = false → s.bit F.LNK_CTL_EN = true → sfOn w = true → s.classCheck (sfClass w) ≠ Rc.OK →
          s.gives (.lnkSfWrite ag f v) ((s.setReg (R.LNK_SF f) (W (putBit w 15 false))).setReason R.LNK_STAT (s.classCheck (sfClass w)))))
      ∧ (∀ n : Nat, n < 1024 → s.gives (.lnkCellWrite ag n 1 v) ((s.setReg (R.LNK_CELL_1 n) (v &&& 0xFFC000000#36)).setReason R.LNK_STAT Rc.OK))
      ∧ (∀ n : Nat, n < 1024 →
        (sfSize (s.sfWord (cellSf v.toNat)) ≤ bits v.toNat 31 20 ∨ 63 < cellNbr v.toNat ∧ cellNbr v.toNat < 127 → s.gives (.lnkCellWrite ag n 0 v) (s.setReason R.LNK_STAT Rc.RANGE))
        ∧ (bits v.toNat 31 20 < sfSize (s.sfWord (cellSf v.toNat)) → cellNbr v.toNat ≤ 63 ∨ cellNbr v.toNat = 127 →
          s.gives (.lnkCellWrite ag n 0 v) ((s.setReg (R.LNK_CELL_0 n) (v &&& 0xFFFFFFFFE#36)).setReason R.LNK_STAT Rc.OK)))
      ∧ (∀ k f : Nat, k < 64 → f = bits v.toNat 29 0 →
        (f ≠ 0 → inBands f = false → s.gives (.lnkChWrite ag k v) (s.setReason R.LNK_STAT Rc.BAND))
        ∧ (f = 0 ∨ inBands f = true → s.gives (.lnkChWrite ag k v) ((s.setReg (R.LNK_CH k) (W f)).setReason R.LNK_STAT Rc.OK)))
      ∧ (∀ n : Nat, n < 64 →
        s.gives (.lnkNbrWrite ag n v) (((s.setReg (R.LNK_NBR_0 n) (v &&& 0xFC0003FFF#36)).setFld ⟨R.LNK_NBR_1 n, 8, 8⟩ 0).setReason R.LNK_STAT Rc.OK))
      ∧ (∀ c : Nat, c < 4 →
        (s.bit F.LNK_CTL_EN = true → s.gives (.lnkClsStartWrite ag c v) (s.setReason R.LNK_STAT Rc.BUSY))
        ∧ (∀ (t : Nat) (u : Chip), s.bit F.LNK_CTL_EN = false → t = ((s.owl.stb : Int) + signed 36 ((v.toNat + 2 ^ 36 - s.stbLo) % 2 ^ 36)).toNat →
          u = (s.setReg (R.LNK_CLS_START c) v).setFld F.LNK_TOFF_TOFF 0 →
          s.gives (.lnkClsStartWrite ag c v) ((u.setLnk { s.lnk with starts := s.lnk.starts.set c t }).setReason R.LNK_STAT Rc.OK))))

/-! ### Mesh layer -/

/-- Mesh frames and routes (R310 to R315): an accepted frame that goes UP is delivered at the root, else sent on to the preferred parent, or dropped with RANK_LOOP, HOP_LIMIT or NO_PARENT (a version-1 ADVERT
that names other than one parent with STREAM, R296);
one that goes DOWN follows its route; a FLOOD is taken once and sent on by routers; the root keeps its route table from ADVERT frames, ages it, and takes ROUTE_ERR into it; it sends DOWN what R284 allows; an entry that
came back with NO_ACK goes to the next parent after the one that failed, though that one be dropped meanwhile, or is told to the root.
It says these forms complete, exec answering a next state under conditions on the state and operands alone: advertReceived,
advertInterval, routeEntryExpiry, upFrameReceived, downFrameReceived, rootSendDown, floodReceived, routeErrReceived,
meshNoAckReturn. -/
def Obligations.MeshRouting : Prop :=
  (∀ (s u : Chip) (f : List Byte) (lqi e : Nat) (b : List Byte) (m : MIn) (s1 : Chip), meshParse f = some m → s.meshAccept f m (s.euiOf m.src).toList = .ok (e, b, s1) →
    u = s1.heard m lqi →
    (m.nt = 1 → m.ver = 1 → m.ty = 4 → octAt b 1 ≠ 1 → s.gives (.upFrameReceived f lqi) (u.meshCount Rc.STREAM))
    ∧ (m.nt = 1 → m.ver ≠ 1 ∨ m.ty ≠ 4 ∨ octAt b 1 = 1 →
      (u.mesh.role = 2 → s.gives (.upFrameReceived f lqi) (u.meshDeliver m b))
      ∧ (u.mesh.role = 0 → s.gives (.upFrameReceived f lqi) u)
      ∧ (u.mesh.role = 1 → u.mesh.parents.contains m.src = true → s.gives (.upFrameReceived f lqi) (u.meshCount Rc.RANK_LOOP))
      ∧ (u.mesh.role = 1 → u.mesh.parents.contains m.src = false → m.hop = 1 → s.gives (.upFrameReceived f lqi) (u.meshCount Rc.HOP_LIMIT))
      ∧ (u.mesh.role = 1 → m.hop ≠ 1 → u.mesh.parents = [] → s.gives (.upFrameReceived f lqi) (u.meshCount Rc.NO_PARENT))
      ∧ (∀ (p : Nat) (l : List Nat) (code : Nat) (v : Chip), u.mesh.role = 1 → u.mesh.parents.contains m.src = false → m.hop ≠ 1 → u.mesh.parents = p :: l →
        u.meshSend { dst := p, ty := m.ty, pri := lhPri f = 1, nt := 1, hop := m.hop - 1, orig := m.orig, jt := withJt m, body := b } = (code, v) →
        (code ≠ Rc.TOO_BIG ∨ m.orig = u.saddr → s.gives (.upFrameReceived f lqi) v)
        ∧ (code = Rc.TOO_BIG → m.orig ≠ u.saddr → s.gives (.upFrameReceived f lqi) (v.sendRouteErr Rc.TOO_BIG 0 p))))
    ∧ (m.nt = 2 →
      (m.fdst = u.saddr → s.gives (.downFrameReceived f lqi) (u.nowJoined.meshDeliver m b))
      ∧ (m.fdst ≠ u.saddr → m.hop = 1 → s.gives (.downFrameReceived f lqi) (u.meshCount Rc.HOP_LIMIT))
      ∧ (m.fdst ≠ u.saddr → m.hop ≠ 1 → u.mesh.role = 0 → s.gives (.downFrameReceived f lqi) u)
      ∧ (m.fdst ≠ u.saddr → m.hop ≠ 1 → u.mesh.role = 1 → u.mesh.parents = [] → s.gives (.downFrameReceived f lqi) (u.meshCount Rc.NO_PARENT))
      ∧ (∀ (h : Nat) (r : List Nat), m.fdst ≠ u.saddr → m.hop ≠ 1 → u.mesh.role = 2 ∨ u.mesh.role = 1 ∧ u.mesh.parents ≠ [] → m.route = h :: r ∨ m.route = [] ∧ h = m.fdst ∧ r = [] →
        (u.reachable h = false → s.gives (.downFrameReceived f lqi) ((u.meshCount Rc.NO_ROUTE).sendRouteErr Rc.NO_ROUTE m.fdst h))
        ∧ (u.reachable h = true → u.verFor h = 1 → 15 < r.length →
          s.gives (.downFrameReceived f lqi) ((u.meshCount Rc.HOP_LIMIT).sendRouteErr Rc.HOP_LIMIT m.fdst h))
        ∧ (∀ (code : Nat) (v : Chip), u.reachable h = true → u.verFor h ≠ 1 ∨ r.length ≤ 15 →
          u.meshSend { dst := h, ty := m.ty, pri := lhPri f = 1, nt := 2, hop := m.hop - 1, fdst := m.fdst, orig := m.orig, route := r, jt := withJt m, body := b } = (code, v) →
          (code ≠ Rc.TOO_BIG → s.gives (.downFrameReceived f lqi) v) ∧ (code = Rc.TOO_BIG → s.gives (.downFrameReceived f lqi) (v.sendRouteErr Rc.TOO_BIG m.fdst h)))))
    ∧ (m.nt = 3 → ∀ d : Nat, u.mesh.fseqLast = none ∧ d = 1 ∨ (∃ x, u.mesh.fseqLast = some x ∧ d = (m.fseq + 256 - x) % 256) →
      (d = 0 ∨ 127 < d ∨ u.mesh.role = 2 → s.gives (.floodReceived f lqi) u)
      ∧ (∀ v : Chip, 1 ≤ d → d ≤ 127 → u.mesh.role ≠ 2 → v = (u.setMesh { u.mesh with fseqLast := some m.fseq }).meshDeliver m b →
        (u.mesh.role = 0 ∨ m.hop = 1 ∨ u.mesh.parents = [] → s.gives (.floodReceived f lqi) v)
        ∧ (u.mesh.role = 1 → m.hop ≠ 1 → u.mesh.parents ≠ [] → s.gives (.floodReceived f lqi)
          (v.meshSend { dst := 0xFFFF, ty := m.ty, pri := lhPri f = 1, nt := 3, hop := m.hop - 1, fdst := 0xFFFF, orig := m.orig, fseq := m.fseq, body := b }).2))))
  ∧ (∀ (s : Chip) (f : List Byte) (lqi : Nat) (i : Instr), i = .upFrameReceived f lqi ∨ i = .downFrameReceived f lqi ∨ i = .floodReceived f lqi →
    (meshParse f = none → s.gives i (s.meshCount Rc.STREAM))
    ∧ (∀ (m : MIn) (code : Nat), meshParse f = some m → (i = .upFrameReceived f lqi → m.nt = 1) → (i = .downFrameReceived f lqi → m.nt = 2) →
      (i = .floodReceived f lqi → m.nt = 3) → s.meshAccept f m (s.euiOf m.src).toList = .error code → s.gives i (s.meshCount code)))
  ∧ (∀ (s : Chip) (o a w n : Nat) (b : List Byte), (s.mesh.role ≠ 2 ∨ o = 0 ∨ 0x3FFF < o → s.gives (.advertReceived o b) s)
    ∧ (s.mesh.role = 2 → 1 ≤ o → o ≤ 0x3FFF → n = octAt b 1 → n = 0 ∨ 4 < n ∨ b.length ≠ 2 + 2 * n → s.gives (.advertReceived o b) (s.meshCount Rc.STREAM))
    ∧ (s.mesh.role = 2 → 1 ≤ o → o ≤ 0x3FFF → n = octAt b 1 → 1 ≤ n → n ≤ 4 → b.length = 2 + 2 * n → (∀ i : Nat, i < n → oct2 b (2 + 2 * i) ≤ 0x3FFF) →
      a = s.mesh.rtBase + 2 * o → rtValid (s.rt o) = false →
      w = (1 <<< 35 ||| (decide (2 ≤ n)).toNat <<< 34 ||| oct2 b 2 <<< 14 ||| (if 2 ≤ n then oct2 b 4 else 0)) →
      s.gives (.advertReceived o b) (s.wrs a [W w, W (octAt b 0 <<< 28 ||| (s.reg R.RTC_SEC).toNat % 2 ^ 28)])))
  ∧ (∀ (s : Chip) (a age : Nat), age = ((s.reg R.RTC_SEC).toNat % 2 ^ 28 + 2 ^ 28 - bits (s.rd (s.mesh.rtBase + 2 * a + 1)).toNat 27 0) % 2 ^ 28 →
    (s.mesh.role = 2 → 1 ≤ a → a ≤ 0x3FFF → rtValid (s.rt a) = true → 180 * s.mesh.advint < age →
      s.gives (.routeEntryExpiry a) (s.wr (s.mesh.rtBase + 2 * a) (W (putBit (s.rt a) 35 false))))
    ∧ (s.mesh.role ≠ 2 ∨ age ≤ 180 * s.mesh.advint → s.gives (.routeEntryExpiry a) s))
  ∧ (∀ (s : Chip) (d ty : Nat) (jt : Option Nat) (b : List Byte) (may : Bool),
    may = decide (ty = 5 ∧ jt = none ∨ d ≠ 0xFFFF ∧ (ty = 0 ∧ jt = none ∨ ty = 3 ∧ jt = some 3)) → (s.mesh.role ≠ 2 ∨ may = false → s.gives (.rootSendDown d ty jt b) s)
    ∧ (may = true →
    (s.mesh.role = 2 → d ≠ 0xFFFF → d = 0 ∨ 0x3FFF < d ∨ rtValid (s.rt d) = false → s.gives (.rootSendDown d ty jt b) (s.meshCount Rc.NO_ROUTE))
    ∧ (∀ n : Nat, s.mesh.role = 2 → n = (s.mesh.fseq + 1) % 256 → d = 0xFFFF → s.gives (.rootSendDown d ty jt b)
      ((s.setMesh { s.mesh with fseq := n }).meshSend { dst := 0xFFFF, ty := ty, nt := 3, fdst := 0xFFFF, orig := s.saddr, fseq := n, jt := jt, body := b }).2)
    ∧ (s.mesh.role = 2 → d ≠ 0xFFFF → s.routeTo d = (Rc.OK, []) →
      s.gives (.rootSendDown d ty jt b) (s.meshSend { dst := d, ty := ty, nt := 2, fdst := d, orig := s.saddr, jt := jt, body := b }).2)
    ∧ (∀ (h : Nat) (r : List Nat), s.mesh.role = 2 → d ≠ 0xFFFF → s.routeTo d = (Rc.OK, h :: r) → s.verFor h = 1 → 15 < r.length →
      s.gives (.rootSendDown d ty jt b) (s.meshCount Rc.HOP_LIMIT))
    ∧ (∀ (h : Nat) (r : List Nat), s.mesh.role = 2 → d ≠ 0xFFFF → s.routeTo d = (Rc.OK, h :: r) → s.verFor h ≠ 1 ∨ r.length ≤ 15 →
      s.gives (.rootSendDown d ty jt b) (s.meshSend { dst := h, ty := ty, nt := 2, fdst := d, orig := s.saddr, route := r, jt := jt, body := b }).2)))
  ∧ (∀ (s : Chip) (fdst hop : Nat) (l : List Nat), l = (s.routeEntries 64 fdst).filter (fun a => rtParent (s.rt a) = hop && bitOf (s.rt a) 34) →
    (s.mesh.role ≠ 2 ∨ fdst = 0 ∨ 0x3FFF < fdst → s.gives (.routeErrReceived fdst hop) s)
    ∧ (s.mesh.role = 2 → 1 ≤ fdst → fdst ≤ 0x3FFF → l = [] → s.gives (.routeErrReceived fdst hop) (s.wr (s.mesh.rtBase + 2 * fdst) (W (putBit (s.rt fdst) 35 false))))
    ∧ (∀ a : Nat, s.mesh.role = 2 → 1 ≤ fdst → fdst ≤ 0x3FFF → l = [a] → s.gives (.routeErrReceived fdst hop)
      (s.wr (s.mesh.rtBase + 2 * a) (W (s.rt a / 2 ^ 28 <<< 28 ||| rtAlt (s.rt a) <<< 14 ||| rtParent (s.rt a))))))
  ∧ (∀ (s u v : Chip) (f b : List Byte) (n : Nat) (m : MIn), meshParse f = some m → u = s.missQ m.dst n →
    (u.meshPeer m.dst = none ∧ v = u ∨ ∃ p, u.meshPeer m.dst = some p ∧ (p.noAcks + 1 < 3 ∧ v = u.setPeer { p with noAcks := p.noAcks + 1 }
      ∨ 3 ≤ p.noAcks + 1 ∧ v = u.dropParent m.dst)) →
    v.ownBody f m = some b →
    (m.nt = 1 → u.nextParent m.dst = none → s.gives (.meshNoAckReturn f n) (v.meshCount Rc.NO_PARENT))
    ∧ (∀ (p code : Nat) (x : Chip), m.nt = 1 → u.nextParent m.dst = some p →
      v.meshSend { dst := p, ty := m.ty, pri := lhPri f = 1, nt := 1, hop := m.hop, orig := m.orig, jt := withJt m, body := b } = (code, x) →
      (code ≠ Rc.TOO_BIG ∨ m.orig = v.saddr → s.gives (.meshNoAckReturn f n) x)
      ∧ (code = Rc.TOO_BIG → m.orig ≠ v.saddr → s.gives (.meshNoAckReturn f n) (x.sendRouteErr Rc.TOO_BIG 0 p)))
    ∧ (m.nt = 2 → s.gives (.meshNoAckReturn f n) (v.sendRouteErr Rc.NO_ACK m.fdst m.dst)))
  ∧ (∀ (s : Chip) (a p : Nat) (l r : List Nat), a ∉ l →
    (s.mesh.parents = l ++ a :: p :: r → s.nextParent a = some p) ∧ (s.mesh.parents = l ++ [a] → s.nextParent a = none)
    ∧ (a ∉ s.mesh.parents → s.mesh.before = l ++ a :: r → s.nextParent a = r.find? (fun x => s.mesh.parents.contains x))
    ∧ (a ∉ s.mesh.parents → a ∉ s.mesh.before → s.nextParent a = s.mesh.parents.head?))
  ∧ ∀ (s : Chip) (f : List Byte) (n : Nat), (meshParse f = none → s.gives (.meshNoAckReturn f n) s)
    ∧ (s.mesh.member = false → s.gives .advertInterval s)
    ∧ (s.mesh.member = true → s.gives .advertInterval (s.setMesh { s.mesh with advertAt := some (s.now + 1920000000 * s.mesh.advint) }).sendAdvert)

/-- Joining and neighbours (R294 to R309): a joiner collects the nodes that take joiners, synchronises to the first, asks the best one with a fresh nonce, at most five times, then the next; a
router relays the request and delivers the answer; the root refuses while it is closed, for an address that is held, and else gives one; the joiner takes only an answer that verifies, for its
nonce, and then joins.  HELLO tells a child, also of an EUI-64 that the node has not met (the model's candidate for it is free: notes/assumptions/189); a child that is silent, and a parent whose beacons stop, are dropped.
It says these forms complete, exec answering a next state under conditions on the state and operands alone: beaconReceived,
beaconCollectEnd, joinWaitTimeout, joinRequestReceived, joinRelayReceived, joinResponseReceived, joinDeliverReceived, helloReceived,
parentBeaconTimeout, childTimeout. -/
def Obligations.MeshJoining : Prop :=
  (∀ (s : Chip) (f : List Byte) (lo fine lqi : Nat), (meshParse f = none → s.gives (.beaconReceived f lo fine lqi) (s.meshCount Rc.STREAM))
    ∧ ∀ (m : MIn) (i : BeaconInfo) (lo' hi' : Nat) (p : MeshPeer), meshParse f = some m → m.ty = 2 → readBeacon m.ver m.body = some i →
      (lo', hi') = (if m.ver = 1 then (1, 1) else (i.vmin, i.vmax)) →
      p = { addr := m.src, eui := i.eui, vmin := lo', vmax := hi', rank := i.rank, hops := i.hops, q := lqi, beacons := decide (i.rank ≠ 0xFFFF), beaconAt := s.now,
            flags := i.flags, planId := i.planId } →
      (i.sfSize < 3 ∨ 4096 < i.sfSize → s.gives (.beaconReceived f lo fine lqi) (s.meshCount Rc.STREAM))
      ∧ (3 ≤ i.sfSize → i.sfSize ≤ 4096 →
        (∀ code : Nat, s.mesh.member = true → s.meshAccept f m [i.eui] = .error code → s.gives (.beaconReceived f lo fine lqi) (s.meshCount code))
        ∧ (∀ (e v : Nat) (b : List Byte) (u w : Chip), s.mesh.member = true → s.meshAccept f m [i.eui] = .ok (e, b, u) → u.takeOffer m.src lo' hi' = (some v, w) →
          w.now = s.now → w.meshPeer m.src = none → s.gives (.beaconReceived f lo fine lqi) (w.setPeer p).meshParents.planCheck)
        ∧ (s.mesh.member = false → m.ver < s.meshOffer.1 ∨ s.meshOffer.2 < m.ver → s.gives (.beaconReceived f lo fine lqi) (s.meshCount Rc.VERSION))
        ∧ (s.mesh.member = false → s.meshOffer.1 ≤ m.ver → m.ver ≤ s.meshOffer.2 →
          (bitOf i.flags 1 = false ∨ bitOf i.flags 2 = false → s.gives (.beaconReceived f lo fine lqi) s)
          ∧ (∀ (v : Nat) (w : Chip), bitOf i.flags 1 = true → bitOf i.flags 2 = true → s.takeOffer m.src lo' hi' = (some v, w) →
            w.now = s.now → w.meshPeer m.src = none → w.mesh.sfSize = 0 → s.gives (.beaconReceived f lo fine lqi) ((w.setPeer p).meshSync lo fine m.src i)))))
  ∧ (∀ (s : Chip) (l : List Nat), l = (sortBy MeshPeer.sum (s.mesh.peers.filter (s.eligible 0xFFFF))).map MeshPeer.addr →
    (s.mesh.role = 2 ∨ s.mesh.member = true ∧ s.mesh.parents ≠ [] → s.gives .beaconCollectEnd s)
    ∧ (s.mesh.role ≠ 2 → s.mesh.member = true → s.mesh.parents = [] → s.gives .beaconCollectEnd (s.setMesh { s.mesh with collectAt := none }).meshParents)
    ∧ (s.mesh.member = false → s.mesh.role ≠ 2 → s.gives .beaconCollectEnd ((s.listenCells false).sendRequest { cands := l, tries := 0, nonce := 0 })))
  ∧ (∀ (s : Chip) (j : MeshJoin), (s.mesh.join = none → s.gives .joinWaitTimeout s)
    ∧ (s.mesh.join = some j → j.tries < 5 → s.gives .joinWaitTimeout (s.sendRequest j))
    ∧ (s.mesh.join = some j → 5 ≤ j.tries → s.gives .joinWaitTimeout (s.sendRequest { cands := j.cands.tail, tries := 0, nonce := 0 }))
    ∧ (j.cands = [] → s.sendRequest j = (s.setMesh { s.mesh with join := none, collectAt := some (s.now + s.beaconPeriods 2), joinAt := none }).listenCells true))
  ∧ (∀ (s : Chip) (f : List Byte) (lqi : Nat), (meshParse f = none → s.gives (.joinRequestReceived f lqi) (s.meshCount Rc.STREAM))
    ∧ ∀ m : MIn, meshParse f = some m → m.ty = 3 → m.jt = 1 → m.jkey = true →
      (s.mesh.role = 0 ∨ s.mesh.role = 1 ∧ s.mesh.joined = false → s.gives (.joinRequestReceived f lqi) s)
      ∧ (s.mesh.role = 1 → s.mesh.joined = true → 256 ≤ s.mesh.children.length → s.gives (.joinRequestReceived f lqi) (s.meshCount Rc.CHILD_FULL))
      ∧ (s.mesh.role = 1 → s.mesh.joined = true → s.mesh.children.length < 256 → m.ver < s.meshOffer.1 ∨ s.meshOffer.2 < m.ver →
        s.gives (.joinRequestReceived f lqi) (s.meshCount Rc.VERSION))
      ∧ (s.mesh.role = 1 → s.mesh.joined = true → s.mesh.children.length < 256 → s.meshOffer.1 ≤ m.ver → m.ver ≤ s.meshOffer.2 →
        ∀ l : List (Nat × Nat), l = (m.eui, m.ver) :: s.mesh.joiners.filter (fun e => e.1 ≠ m.eui) →
        s.gives (.joinRequestReceived f lqi) ((s.setMesh { s.mesh with joiners := l }).meshUp 3 (some 2) (leOctets 1 lqi ++ leOctets 2 f.length ++ f)))
      ∧ (s.mesh.role = 2 → s.meshOffer.1 ≤ m.ver → m.ver ≤ s.meshOffer.2 → s.gives (.joinRequestReceived f lqi) (s.rootJoin 0 f)))
  ∧ (∀ (s : Chip) (parent : Nat) (b : List Byte),
    (s.mesh.role ≠ 2 ∨ b.length < 3 ∨ b.length ≠ 3 + oct2 b 1 → s.gives (.joinRelayReceived parent b) s)
    ∧ (s.mesh.role = 2 → 3 ≤ b.length → b.length = 3 + oct2 b 1 → s.gives (.joinRelayReceived parent b) (s.rootJoin parent (b.drop 3))))
  ∧ (∀ (s : Chip) (eui role req : Nat), (s.mesh.joinOpen = false ∨ bitOf s.mesh.refuse role = true → s.joinDecision eui role req = (Rc.JOIN_REFUSED, 0))
    ∧ (s.mesh.joinOpen = true → bitOf s.mesh.refuse role = false → req ≠ 0xFFFF →
      (1 ≤ req → req ≤ (if s.asTk2416 then 0x0FFF else 0x3FFF) → (∀ e ∈ s.addrList, e.1 = req → e.2 = eui) → s.joinDecision eui role req = (Rc.OK, req))
      ∧ (req = 0 ∨ (if s.asTk2416 then 0x0FFF else 0x3FFF) < req → s.joinDecision eui role req = (Rc.ADDR_CONFLICT, 0))))
  ∧ (∀ (s : Chip) (b : List Byte), (s.mesh.role ≠ 1 ∨ b.length < 16 → s.gives (.joinResponseReceived b) s)
    ∧ (∀ (c : MeshChild) (ver : Nat), s.mesh.role = 1 → 16 ≤ b.length → s.mesh.children.length < 256 → s.mesh.children.any (fun c => c.eui = beNat (b.take 8)) = false →
      s.mesh.joiners.head? = some (beNat (b.take 8), ver) → c = { addr := 0xFFFE, eui := beNat (b.take 8), vmin := ver, vmax := ver, heard := s.now } →
      s.gives (.joinResponseReceived b) ((s.setMesh { s.mesh with children := s.mesh.children ++ [c] }).sendDeliver ver b)))
  ∧ (∀ (s : Chip) (f : MeshRx), (meshParse f.octets = none ∨ s.mesh.join = none → s.gives (.joinDeliverReceived f) s)
    ∧ ∀ (x : Chip) (m : MIn) (j : MeshJoin) (key : List Nat) (b : List Byte) (o : Option (List Byte)), meshParse f.octets = some m → s.mesh.join = some j → s.meshKey 2 true = .ok key →
      x = (if s.verFor m.src = 1 then s.sampleQ m.src f.lqi else s) →
      b = m.body → m.ty = 3 → m.jt = 4 → b.length = 64 → beNat (b.take 8) = x.ownEui → x.mesh.member = false → x.meshOffer.1 ≤ m.ver → m.ver ≤ x.meshOffer.2 →
      o = meshOpen key false 1 (beNat ((b.drop 8).take 8)) (leNat ((b.drop 16).take 4)) (b.take 20) ((b.drop 20).take 36) (b.drop 56) →
      (o = none → s.gives (.joinDeliverReceived f) x)
      ∧ ∀ p : List Byte, o = some p →
        (leNat (p.drop 32) ≠ j.nonce → s.gives (.joinDeliverReceived f) x)
        ∧ (leNat (p.drop 32) = j.nonce → octAt p 0 ≠ Rc.OK → x.mesh.join = some j → s.gives (.joinDeliverReceived f) (x.sendRequest { cands := j.cands.tail, tries := 0, nonce := 0 }))
        ∧ (∀ u : Chip, leNat (p.drop 32) = j.nonce → octAt p 0 = Rc.OK →
          x.unwrapInto (x.meshSlot 2) (x.meshSlot (octAt p 3 % 2)) ((p.drop 4).take 24) (.join (j.cands.headD 0) (oct2 p 1) (octAt p 3 % 2) (oct2 p 28) (oct2 p 30)) = (true, u) →
          s.gives (.joinDeliverReceived f) u))
  ∧ (∀ (s : Chip) (key tslot : Nat) (kw : List Byte) (k k' : List Nat) (job : MeshKeyJob), s.meshSlots 7 true key tslot = Rc.OK → s.keyOf key = some k →
    Aes.unwrap k (toNats kw) = some k' →
    s.unwrapInto key tslot kw job = (true, Chip.kstQueue ((s.setCph { s.cph with starts := s.cph.starts + 1 }).setMesh { s.mesh with keyJob := some job })
      { page := meshPage, slot := tslot, key := k', order := s.cph.starts }))
  ∧ (∀ (s : Chip) (f : List Byte) (lqi : Nat), (meshParse f = none → s.gives (.helloReceived f lqi) (s.meshCount Rc.STREAM))
    ∧ ∀ (m : MIn) (e v : Nat) (b : List Byte) (u w x : Chip) (l : List MeshChild) (c : MeshChild), meshParse f = some m → m.ty = 6 →
      s.meshAccept f m ((s.euiOf m.src).toList ++ (s.mesh.peers.map MeshPeer.eui ++ s.mesh.children.map MeshChild.eui ++ s.addrList.map Prod.snd)
        ++ [Config.meshEui m.src % 2 ^ 64]) = .ok (e, b, u) →
      (b.length ≠ 13 → s.gives (.helloReceived f lqi) (u.meshCount Rc.STREAM))
      ∧ (b.length = 13 → u.takeOffer m.src (octAt b 0) (octAt b 1) = (none, w) → s.gives (.helloReceived f lqi) w)
      ∧ (b.length = 13 → u.takeOffer m.src (octAt b 0) (octAt b 1) = (some v, w) → w.meshPeer m.src = none → x = w.heard m lqi → x.mesh.role = 2 →
        l = x.mesh.children.filter (fun y => y.eui ≠ e && y.addr ≠ m.src) → c = { addr := m.src, eui := e, vmin := octAt b 0, vmax := octAt b 1, heard := x.now } →
        s.gives (.helloReceived f lqi) (Chip.meshSchedule ((x.setMesh { x.mesh with children := l ++ [c] }).addNbr none m.src v))))
  ∧ ∀ (s u : Chip) (a : Nat),
    u = s.setMesh { s.mesh with children := s.mesh.children.filter (fun c => !(c.addr = a && c.heard + 32000000 * (180 * s.mesh.advint) < s.now)) } →
    (s.mesh.parents.contains a = true ∨ (∃ c ∈ u.mesh.children, c.addr = a) → s.gives (.childTimeout a) u)
    ∧ (s.mesh.parents.contains a = false → (∀ c ∈ u.mesh.children, c.addr ≠ a) → s.gives (.childTimeout a) (u.dropNbr a).meshSchedule)
    ∧ (s.meshPeer a = none → s.gives (.parentBeaconTimeout a) s)
    ∧ (∀ p : MeshPeer, s.meshPeer a = some p → s.gives (.parentBeaconTimeout a) (s.setPeer { p with beacons := false, noAcks := 0 }).meshParents)

/-- Commands to the mesh layer (R299, R305, R316, R317): one that is not the root's is answered with SECURITY and one to a node that has not joined with NOT_JOINED; the others have their effect
and are answered; an answer goes back the way the command came, LOCAL to a LOCAL command, DOWN from the root, else UP; KEY_SWITCH takes effect at its ASN; LEAVE makes the node a joiner once its answer is sent; an undefined CID is answered UNKNOWN_CMD; a commissioning record sets what it carries.
It says these forms complete, exec answering a next state under conditions on the state and operands alone: ping, getInfo, getPlan,
keyNext, keySwitch, keySwitchAsnReached, leave, unknownCmd, tapRecordApply. -/
def Obligations.MeshCommands : Prop :=
  (∀ (s : Chip) (w : CmdFrom) (token e asn : Nat) (kw : List Byte) (code : Nat), code = (if s.mesh.joined = false then Rc.NOT_JOINED else if w.orig ≠ 0 then Rc.SECURITY else Rc.OK) →
    (code ≠ Rc.OK →
      s.gives (.ping w token) (s.meshReply w 1 token code []) ∧ s.gives (.getInfo w token) (s.meshReply w 2 token code [])
      ∧ s.gives (.keyNext w token e kw) (s.meshReply w 4 token code []) ∧ s.gives (.leave w token) (s.meshReply w 6 token code [])
      ∧ s.gives (.keySwitch ⟨w, token⟩ e asn) (s.meshReply w 5 token code []))
    ∧ (code = Rc.OK → s.gives (.ping w token) (s.meshReply w 1 token Rc.OK (leOctets 2 s.ownRank ++ leOctets 1 s.ownHops))
      ∧ (∀ d : List Byte, d = beOctets 8 s.ownEui ++ leOctets 1 s.mesh.role ++ leOctets 1 s.meshOffer.1 ++ leOctets 1 s.meshOffer.2 ++ leOctets 2 s.ownRank ++ leOctets 1 s.ownHops
          ++ leOctets 1 s.mesh.parents.length ++ s.mesh.parents.flatMap (leOctets 2) ++ leOctets 2 (s.fld F.MON_PLAN1_LIFE) ++ leOctets 4 (s.mesh.fcnt.getD s.mesh.epoch 0) →
        s.gives (.getInfo w token) (s.meshReply w 2 token Rc.OK d))
      ∧ (s.mesh.switch.isSome = true → s.gives (.keyNext w token e kw) (s.meshReply w 4 token Rc.BUSY []))
      ∧ (∀ (done : Bool) (u : Chip), s.mesh.switch = none → e = 1 - s.mesh.epoch → kw.length = 24 →
        s.unwrapInto (s.meshSlot s.mesh.epoch) (s.meshSlot e) kw (.keyNext w token e) = (done, u) →
        s.gives (.keyNext w token e kw) (if done then u else u.meshReply w 4 token Rc.KEY_SLOT []))
      ∧ (s.mesh.switch = none → e ≠ 1 - s.mesh.epoch ∨ kw.length ≠ 24 → s.gives (.keyNext w token e kw) (s.meshReply w 4 token Rc.KEY_SLOT []))
      ∧ (asn ≤ s.asnNow 0 → s.gives (.keySwitch ⟨w, token⟩ e asn)
        (s.setMesh { s.mesh with epoch := e % 2, switch := none }))
      ∧ (s.asnNow 0 < asn → s.gives (.keySwitch ⟨w, token⟩ e asn) (s.setMesh { s.mesh with switch := some (e % 2, asn) }))
      ∧ (∀ u : Chip, u = s.meshReply w 6 token Rc.OK [] → s.gives (.leave w token) (u.setMesh { u.mesh with leaving := true }))))
  ∧ (∀ (s : Chip) (w : CmdFrom) (cid token code : Nat) (d b : List Byte), b = leOctets 1 (cid + 0x80) ++ leOctets 1 token ++ leOctets 1 code ++ d →
    (w.loc = true → s.meshReply w cid token code d = s.meshLocal w.orig 5 b)
    ∧ (w.loc = false → s.mesh.role = 2 → s.meshReply w cid token code d = s.sendDown w.orig 5 none b)
    ∧ (w.loc = false → s.mesh.role ≠ 2 → s.meshReply w cid token code d = s.meshUp 5 none b))
  ∧ (∀ s : Chip, s.mesh.leaving = true → s.mesh.held = [] → s.mesh.returns = [] → (∀ q : Nat, 8 ≤ q → q < 16 → s.headEntry q = none) → s.leaveRun = s.becomeJoiner)
  ∧ (∀ (s : Chip) (w : CmdFrom) (token page : Nat), (s.mesh.joined = false → s.gives (.getPlan w token page) (s.meshReply w 3 token Rc.NOT_JOINED []))
    ∧ (s.mesh.joined = true → s.fld F.LNK_HOPCFG_HOPLEN ≤ 16 * page → s.gives (.getPlan w token page) (s.meshReply w 3 token Rc.RANGE []))
    ∧ (s.mesh.joined = true → 16 * page < s.fld F.LNK_HOPCFG_HOPLEN → s.gives (.getPlan w token page) (s.meshReply w 3 token Rc.OK (s.planPage page))))
  ∧ (∀ s : Chip, (s.mesh.switch = none → s.gives .keySwitchAsnReached s)
    ∧ ∀ e asn : Nat, s.mesh.switch = some (e, asn) → s.gives .keySwitchAsnReached
      (s.setMesh { s.mesh with epoch := e, switch := none }))
  ∧ (∀ (s : Chip) (orig : Nat) (loc : Bool) (cid token : Nat),
    (1 ≤ cid → cid ≤ 7 → s.gives (.unknownCmd orig loc cid token) s)
    ∧ (cid = 0 ∨ 7 < cid → s.mesh.joined = true → s.gives (.unknownCmd orig loc cid token) (s.meshReply ⟨orig, loc⟩ (cid % 128) token Rc.UNKNOWN_CMD []))
    ∧ (cid = 0 ∨ 7 < cid → s.mesh.joined = false → s.gives (.unknownCmd orig loc cid token) (s.meshReply ⟨orig, loc⟩ (cid % 128) token Rc.NOT_JOINED [])))
  ∧ (∀ s u : Chip, s.bit F.LNK_CTL_EN = true → s.lnk.running = true → u = s.becomeJoiner →
    u.mesh.joined = false ∧ u.mesh.member = false ∧ u.mesh.left = [true, true] ∧ u.mesh.parents = [] ∧ u.mesh.children = [] ∧ u.mesh.rank = 0xFFFF
    ∧ u.mesh.offJobs = s.mesh.offJobs ++ [.listen] ∧ u.bit F.LNK_CFG_BCONLY = true ∧ u.saddr = 0 ∧ u.bit F.LNK_CTL_EN = false ∧ ∀ n : Nat, n < 64 → u.nbrValid n = false)
  ∧ (∀ (s : Chip) (w : CmdFrom) (token epoch code : Nat) (m : Mesh), (code ≠ Rc.OK → s.keyNextDone w token epoch code = s.meshReply w 4 token code [])
    ∧ (m = { s.mesh with left := s.mesh.left.set epoch false, replay := s.mesh.replay.filter (fun r => r.key ≠ epoch), fcnt := s.mesh.fcnt.set epoch 0,
                         marks := s.mesh.marks.set epoch 0 } → s.keyNextDone w token epoch Rc.OK = (s.setMesh m).meshReply w 4 token Rc.OK []))
  ∧ ∀ (s : Chip) (b : List Byte), (s.asTk2416 = true → s.gives (.tapRecordApply b) s)
    ∧ (s.asTk2416 = false → b.length ≠ 39 ∨ octAt b 0 ≠ 1 ∨ leNat ((b.drop 1).take 3) = 0 ∨ octAt b 9 = 1 ∧ octAt b 10 = 1 ∧ bits (octAt b 8) 7 6 = 2 →
      s.gives (.tapRecordApply b) (s.meshCount Rc.STREAM))
    ∧ (s.asTk2416 = false → b.length = 39 → octAt b 0 = 1 → leNat ((b.drop 1).take 3) ≠ 0 → octAt b 9 ≠ 1 ∨ octAt b 10 ≠ 1 ∨ bits (octAt b 8) 7 6 ≠ 2 →
      (∀ (done : Bool) (u : Chip), s.unwrapInto 1 (octAt b 14) (b.drop 15) (.tap b) = (done, u) → s.gives (.tapRecordApply b) (if done then u else u.meshCount Rc.KEY_SLOT))
      ∧ (∀ (m : Mesh) (u w : Chip) (v : List (Bool × Nat × Nat)),
        m = { s.mesh with cred := leNat ((b.drop 1).take 3), joinFreq := leNat ((b.drop 4).take 4) % 2 ^ 30, joinMode := bits (octAt b 8) 7 6, joinSet := bits (octAt b 8) 5 3,
                          role := octAt b 11, reqAddr := oct2 b 12, jslot := octAt b 14, up := true } →
        u = (s.setMesh m).setFld F.LNK_MESHID_MESHID (leNat ((b.drop 1).take 3)) →
        v = u.cfg.versions.set 1 (decide (octAt b 9 ≠ octAt b 10), octAt b 9, octAt b 10) →
        w = { u with cfg := { u.cfg with versions := v } } →
        s.tapDone b = (Chip.becomeJoiner (w.setMesh { w.mesh with todo := w.mesh.todo ++ settingSteps b })).meshCount Rc.OK))

/-! ### Cipher and contactless block -/

/-- The cipher engine and key store (R16, R322, R325, R334, R337 to R349): Fox A enables it, and disabling aborts what works; GO is refused with the first check that fails, and else the page
waits for the claim; block work that ends writes what the mode computes, the chaining value and the tag, or zeroes the output for a bad tag (0x71) or a fault (0x70); an UNWRAP or CLEAR goes to
the key store, and ends with the record; ABORT ends a command with 0x76, but not a record whose words are begun, within a block, the last one too, at the block's end; a disabled engine stops where its last page ends; another user's page reads 0 and is counted; attributes are
cleared by a named user and never set.
It says these forms complete, exec answering a next state under conditions on the state and operands alone: cphEnable, cphGo,
cphAbort, cipherOpDone, cipherPageForeign, cphStatRead, kstAttrWrite. -/
def Obligations.CipherAndKeys : Prop :=
  (∀ (s : Chip) (ag : Agent), (ag ≠ .foxA → s.gives (.cphEnable ag) (s.setReason R.CPH_STAT Rc.SECURITY) ∧ s.cphDisable ag = s.setReason R.CPH_STAT Rc.SECURITY)
    ∧ (s.bit F.CPH_CTL_EN = true → s.gives (.cphEnable .foxA) s)
    ∧ (s.bit F.CPH_CTL_EN = false → s.fld (F.EGY_DECL_PEAK 9) < 8 → s.gives (.cphEnable .foxA) (s.setReason R.CPH_STAT Rc.BUDGET))
    ∧ (∀ u : Chip, s.bit F.CPH_CTL_EN = false → 8 ≤ s.fld (F.EGY_DECL_PEAK 9) → u = { s with stopping := s.stopping.filter (· ≠ Block.cph) } →
      s.gives (.cphEnable .foxA) (((u.setBit F.CPH_CTL_EN true).setBit F.CPH_STAT_ACTIVE true).setReason R.CPH_STAT Rc.OK))
    ∧ (s.bit F.CPH_CTL_EN = false → s.cphDisable .foxA = s)
    ∧ (∀ u : Chip, s.bit F.CPH_CTL_EN = true → (∀ p : Nat, p < 4 → s.pageState p = 0) → u = s.setBit F.CPH_CTL_EN false → (∀ p : Nat, p < 4 → u.pageState p = 0) →
      s.cphDisable .foxA = (Chip.blockStopped { u with stopping := Block.cph :: u.stopping } .cph)))
  ∧ (∀ (s : Chip) (ag : Agent) (u off : Nat), u < 4 →
    (ownsPage ag u = false → s.gives (.cphGo ag u) (Chip.occ ((s.setReason R.CPH_STAT Rc.SECURITY).count F.CPH_STAT_SECCNT) 30)
      ∧ s.gives (.cphAbort ag u) (Chip.occ ((s.setReason R.CPH_STAT Rc.SECURITY).count F.CPH_STAT_SECCNT) 30)
      ∧ s.gives (.cipherPageForeign ag u off) { Chip.occ ((s.setReason R.CPH_STAT Rc.SECURITY).count F.CPH_STAT_SECCNT) 30 with rdata := 0 })
    ∧ (ownsPage ag u = true → s.gives (.cipherPageForeign ag u off) s)
    ∧ (ownsPage ag u = true → ∀ code : Nat, code = s.goCheck u (s.agentRom ag) →
      (s.bit F.CPH_CTL_EN = false ∨ s.pageState u ≠ 0 → code = Rc.BUSY)
      ∧ (s.bit F.CPH_CTL_EN = true → s.pageState u = 0 → 8 < (s.cphCmd u).mode ∨ 1 < (s.cphCmd u).fmode → code = Rc.RANGE)
      ∧ (code ≠ Rc.OK → s.gives (.cphGo ag u) (s.pageReason u code))
      ∧ (code = Rc.OK → ∀ (x : Chip) (p : CphPage), p = { order := s.cph.starts, busy := true, setup := 24, left := (s.cphCmd u).blocks, key := (s.keyOf (s.cphCmd u).key).getD [], target := (s.keyOf (s.cphCmd u).tslot).getD [] } →
        x = (((s.setBit (F.CPH_USTAT_DONE u) false).setPageState u 1).setFld (F.CPH_UPROG_BLOCKS u) 0).setPage u p →
        x.cph.starts = s.cph.starts → s.gives (.cphGo ag u) (Chip.cphClaim (x.setCph { x.cph with starts := s.cph.starts + 1 }))))
    ∧ (ownsPage ag u = true → (s.pageState u = 0 → s.gives (.cphAbort ag u) s)
      ∧ (s.pageState u ≠ 0 → s.cph.recs = [] → s.cph.cur = some u → 1 ≤ (s.page u).left → s.gives (.cphAbort ag u) (s.setPage u { s.page u with aborting := true }))
      ∧ (s.pageState u ≠ 0 → s.cph.recs = [] → s.cph.cur ≠ some u → s.pageState u = 1 ∨ 1 ≤ (s.page u).setup ∨ 1 ≤ (s.page u).left →
        s.gives (.cphAbort ag u) ((((s.cphZero (s.cphCmd u)).cphPost u 0x76).kstServe.cphRelease).cphSafe))))
  ∧ (∀ (s v : Chip) (u : Nat) (c : CphCmd) (o : CphOut), (4 ≤ u ∨ s.pageState u ≠ 2 ∨ (s.page u).busy = false → s.gives (.cipherOpDone u false) s.cphSafe ∧ s.gives (.cipherOpDone u true) s.cphSafe)
    ∧ (u < 4 → s.pageState u = 2 → (s.page u).busy = true → c = s.cphCmd u →
      v = ((s.leaveBlock u).setPage u { s.page u with busy := false, setup := 0, left := 0 }).setFld (F.CPH_UPROG_BLOCKS u) c.blocks → o = v.cphCompute c (s.page u).key (s.page u).target →
      s.gives (.cipherOpDone u true) ((Chip.cphPost (Chip.occ ((v.cphZero c).count F.CPH_STAT_FAULTCNT) 29) u 0x70).kstServe.cphRelease.cphSafe)
      ∧ (3 ≤ c.mode → c.mode ≤ 5 → c.dec = true → v.octets c.tag c.tagLen ≠ o.tag →
        s.gives (.cipherOpDone u false) (((v.putOctets c.outArea.1 (Aes.zeros c.outArea.2)).cphPost u 0x71).cphRelease.cphSafe))
      ∧ (c.mode ≤ 6 → c.dec = true → c.mode < 3 ∨ v.octets c.tag c.tagLen = o.tag → o.chain = none →
        s.gives (.cipherOpDone u false) (((v.putOctets c.outArea.1 o.out).cphPost u Rc.OK).cphRelease.cphSafe))
      ∧ (∀ x : Chip, c.mode ≤ 6 → c.dec = false → (o.chain = none ∧ x = v.putOctets c.outArea.1 o.out
          ∨ ∃ l, o.chain = some l ∧ x = (v.putOctets c.outArea.1 o.out).putOctets c.iv l) →
        s.gives (.cipherOpDone u false) (((x.putOctets c.tag o.tag).cphPost u Rc.OK).cphRelease.cphSafe))
      ∧ (c.mode = 7 → Aes.unwrap (s.page u).key (v.octets c.src c.len) = none → s.gives (.cipherOpDone u false) ((v.cphPost u 0x73).kstServe.cphRelease.cphSafe))
      ∧ (∀ k : List Nat, c.mode = 7 → Aes.unwrap (s.page u).key (v.octets c.src c.len) = some k →
        s.gives (.cipherOpDone u false) (v.kstQueue { page := u, slot := c.tslot, key := k, order := (s.page u).order }).cphRelease.cphSafe)
      ∧ (c.mode = 8 → s.gives (.cipherOpDone u false) (v.kstQueue { page := u, slot := c.tslot, key := [], order := (s.page u).order }).cphRelease.cphSafe)))
  ∧ (∀ s : Chip, ((∃ u < 4, s.pageState u ≠ 0) → s.cphSafe = s) ∧ ((∀ u < 4, s.pageState u = 0) → s.cphSafe = s.blockStopped .cph))
  ∧ (∀ (s : Chip) (ag : Agent), s.gives (.cphStatRead ag) { (s.setFld F.CPH_STAT_SECCNT 0).setFld F.CPH_STAT_FAULTCNT 0 with rdata := s.reg R.CPH_STAT })
  ∧ ∀ (s : Chip) (ag : Agent) (n new : Nat) (v : Word), n < 16 → new = v.toNat % 512 →
    (n = 0 → s.gives (.kstAttrWrite ag n v) (s.setReason R.KST_STAT Rc.SECURITY))
    ∧ (n ≠ 0 → s.lockedSec 11 = true → s.gives (.kstAttrWrite ag n v) (s.setReason R.KST_STAT Rc.LOCKED))
    ∧ (n ≠ 0 → s.lockedSec 11 = false →
      (ag = .svc ∨ s.slotUser n ag.code = false ∨ new &&& (511 - (s.reg (R.KST_ATTR n)).toNat % 512) ≠ 0 →
        s.gives (.kstAttrWrite ag n v) (s.setReason R.KST_STAT Rc.SECURITY))
      ∧ (ag ≠ .svc → s.slotUser n ag.code = true → new &&& (511 - (s.reg (R.KST_ATTR n)).toNat % 512) = 0 → s.gives (.kstAttrWrite ag n v) ((s.setFld ⟨R.KST_ATTR n, 8, 0⟩ new).setReason R.KST_STAT Rc.OK)))

/-- The tag (R353 to R369): fields come and go; the tag answers REQA, anticollision, SELECT and RATS as ISO/IEC 14443 has it, with its UID; an answer to an APDU goes in blocks of
ISO/IEC 14443-4, of at most the reader's frame size, chained where it is longer, a claim being made for each reply's time with its CRC_A; an unknown class gets 6E00 and an unknown
instruction 6D00; it selects the NDEF application and its files, reads
and writes them with the status words of R360; the mailbox checks a record's length, type and field before it programs it, and takes a repeated one as done.  The address of a READ or UPDATE
with no file selected gets a free status (notes/assumptions/57).
It says these forms complete, exec answering a next state under conditions on the state and operands alone: fieldDetect, fieldLost,
tagReqa, tagAnticollision, tagSelect, tagHlta, tagRats, tagDeselect, tagReplyMute, tagWtxDue, selectByName, selectByFile,
readBinary, updateBinary, mailboxWrite, vaonUpDuringHarvest, fieldCollapse. -/
def Obligations.TheTag : Prop :=
  (∀ (s u : Chip) (v : Nat), s.pwr.st ≠ .ship → u = (s.setNfc { s.nfc with raw := true, harvest := false }).setFld F.NFC_FIELD_VNFC v → s.gives (.fieldDetect true v) u.detectField)
  ∧ (∀ (s u : Chip) (v : Nat), s.nfc.harvest = true → u = (s.setNfc { s.nfc with raw := true }).setFld F.NFC_FIELD_VNFC v →
    s.gives (.fieldDetect false v) (u.setLatch { s.pins.latch with fdet := false }).tagField)
  ∧ (∀ (s x u : Chip) (v : Nat), s.nfc.harvest = false → x = s.powerOn → u = (x.setNfc { x.nfc with harvest := true, raw := true }).setFld F.NFC_FIELD_VNFC v →
    s.gives (.fieldDetect false v) (u.setLatch { x.pins.latch with fdet := false }).tagField)
  ∧ (∀ (s : Chip) (b : Bool), s.nfc.harvest = false → s.gives .fieldLost (Chip.detectField ((s.setNfc { s.nfc with raw := false }).setFld F.NFC_FIELD_VNFC 0))
    ∧ s.gives (.fieldCollapse b) s ∧ s.gives .vaonUpDuringHarvest s)
  ∧ (∀ (s : Chip) (b : Bool), s.nfc.harvest = true → s.nfc.booting = true → s.gives (.fieldCollapse b) (s.setNfc { s.nfc with raw := false }))
  ∧ (∀ s : Chip, s.nfc.harvest = true → s.nfc.mbox.isSome = true → s.gives .vaonUpDuringHarvest (s.setNfc { s.nfc with booting := true }))
  ∧ (∀ (s : Chip) (b : Bool), s.nfc.harvest = true → s.nfc.booting = false → s.flc.op = none → ∀ u : Chip,
    u = (s.setFlc { s.flc with op := none, pulsing := false, pulseAt := none, busyA := false, busyB := false }).setNfc { harvest := true } →
    s.gives (.fieldCollapse b) u ∧ s.gives .fieldLost u ∧ (s.nfc.mbox = none → s.gives .vaonUpDuringHarvest s.powerOn.detectField))
  ∧ (∀ s : Chip, s.bit F.NFC_STAT_FIELDON = false → s.nfc.rd.ph ≠ .ping → s.bit F.NFC_STAT_EXTFLD = false → s.nfc.raw = true →
    s.detectField = Chip.tagField (Chip.wakeEvent (Chip.occ ((s.setBit F.NFC_STAT_EXTFLD true).setLatch { s.pins.latch with fdet := true }) 73) 7 12))
  ∧ (∀ (s : Chip) (w : Bool), s.tagOn = true →
    (s.nfc.harvest = false ∨ 220 ≤ s.fld F.NFC_FIELD_VNFC → s.nfc.tag = .idle ∨ s.nfc.tag = .halt ∧ w = true →
      s.gives (.tagReqa w) ((s.setTag (.ready 1)).tagBare (leOctets 2 (if s.tagLevels = 1 then 4 else 0x44))))
    ∧ (s.nfc.tag = .halt → s.gives (.tagReqa false) s) ∧ (s.nfc.tag = .active ∨ s.nfc.tag = .iso4 ∨ s.nfc.tag = .off → s.gives (.tagReqa w) s)
    ∧ (∀ (cl n known : Nat) (uid : List Byte), s.nfc.tag = .ready cl →
      (n ≤ 32 → leNat (s.tagLevel cl) % 2 ^ n = known % 2 ^ n → s.gives (.tagAnticollision cl n known) (s.tagBare ((s.tagLevel cl).drop (n / 8))))
      ∧ (leNat (s.tagLevel cl) % 2 ^ n ≠ known % 2 ^ n → s.gives (.tagAnticollision cl n known) s)
      ∧ (uid ≠ s.tagLevel cl → s.gives (.tagSelect cl uid) s)
      ∧ (cl < s.tagLevels → s.gives (.tagSelect cl (s.tagLevel cl)) ((s.setTag (.ready (cl + 1))).tagReply [0x04]))
      ∧ (s.tagLevels ≤ cl → s.gives (.tagSelect cl (s.tagLevel cl)) ((s.setTag .active).tagReply [0x20]))
      ∧ s.gives .tagHlta s)
    ∧ (s.nfc.tag = .active → s.gives .tagHlta (s.setTag .halt)
      ∧ s.gives .tagRats
        ((s.draw.setNfc { s.nfc with tag := .iso4, app := false, file := .none, blk := true, fsd := frameSize (Config.freeNat s.free % 9), chain := [] }).tagReply [0x05, 0x78, 0x00, 0x80, 0x00]))
    ∧ (s.nfc.tag ≠ .active → s.gives .tagRats s)
    ∧ (s.nfc.tag = .iso4 → s.gives .tagDeselect ((s.setTag .halt).tagReply [0xC2]) ∧ (∀ m : MboxWrite, s.nfc.mbox = some m →
          (m.wtxAt.any (fun t => t ≤ s.now) = true → s.gives .tagWtxDue ((s.setNfc { s.nfc with mbox := some { m with wtxAt := some (s.now + tWtx) } }).tagReply [0xF2, 0x01]))
          ∧ (m.wtxAt.any (fun t => t ≤ s.now) = false → s.gives .tagWtxDue s))
      ∧ (s.nfc.mbox = none → s.gives .tagWtxDue s)))
  ∧ (∀ s : Chip, (s.nfc.reply = none → s.gives .tagReplyMute s)
    ∧ ∀ o : List Byte, s.nfc.reply = some o → (s.now < s.nfc.replyAt + us 40 → s.gives .tagReplyMute s)
      ∧ (s.nfc.replyAt + us 40 ≤ s.now → s.gives .tagReplyMute (Chip.count ((s.dropClaim 8).setNfc { s.nfc with reply := none, chain := [] }) F.NFC_CNT_MUTE)))
  ∧ (∀ (s : Chip) (o : List Byte), (s.nfc.raw = false → s.tagReply o = s ∧ s.tagBare o = s)
    ∧ (s.nfc.raw = true → s.nfc.harvest = true → s.tagReply o = s.setNfc { s.nfc with sent := o } ∧ s.tagBare o = s.setNfc { s.nfc with sent := o })
    ∧ (∀ u : Chip, s.nfc.raw = true → s.nfc.harvest = false → u = s.setNfc { s.nfc with reply := some o, replyAt := s.now } →
      s.tagReply o = u.claim 8 (s.fld (F.EGY_DECL_PEAK 8)) (nfcTime (o.length + 2) + 10) false ∧ s.tagBare o = u.claim 8 (s.fld (F.EGY_DECL_PEAK 8)) (nfcTime o.length + 10) false))
  ∧ (∀ (s : Chip) (data l : List Byte) (sw n : Nat), l = data ++ beOctets 2 sw → n = s.nfc.fsd - 3 →
    (l.length ≤ n → s.tagApdu data sw = (s.setNfc { s.nfc with blk := !s.nfc.blk, chain := [] }).tagReply (leOctets 1 (0x02 + (!s.nfc.blk).toNat) ++ l))
    ∧ (0 < n → n < l.length → ∃ r : List (List Byte), r ≠ [] ∧ (r.flatMap (List.drop 1) = l.drop n)
      ∧ s.tagApdu data sw = (s.setNfc { s.nfc with blk := !s.nfc.blk, chain := r }).tagReply (leOctets 1 (0x12 + (!s.nfc.blk).toNat) ++ l.take n)))
  ∧ (∀ s : Chip, s.tagOn = true → s.nfc.tag = .iso4 → s.nfc.mbox = none →
    (∀ (aid : List Byte) (c : FileSelect),
      (s.nfc.harvest = false → aid = [0xD2, 0x76, 0x00, 0x00, 0x85, 0x01, 0x01] → s.fld F.NFC_NDEF_SIZEW ≠ 0 →
        s.gives (.selectByName aid) ((s.setNfc { s.nfc with app := true, file := .none }).tagApdu [] 0x9000))
      ∧ (s.nfc.harvest = true ∨ aid ≠ [0xD2, 0x76, 0x00, 0x00, 0x85, 0x01, 0x01] ∨ s.fld F.NFC_NDEF_SIZEW = 0 → s.gives (.selectByName aid) (s.tagApdu [] 0x6A82))
      ∧ (s.nfc.harvest = false → s.nfc.app = true → c = { fid := 0xE103 } → s.gives (.selectByFile c) ((s.setNfc { s.nfc with file := .cc }).tagApdu [] 0x9000))
      ∧ (s.nfc.harvest = false → s.nfc.app = true → c = { fid := 0xE104 } → s.gives (.selectByFile c) ((s.setNfc { s.nfc with file := .ndef }).tagApdu [] 0x9000))
      ∧ (c.cla = 0x00 → c.ins = 0xA4 → s.nfc.harvest = true ∨ s.nfc.app = false ∨ c.fid ≠ 0xE103 ∧ c.fid ≠ 0xE104 → s.gives (.selectByFile c) (s.tagApdu [] 0x6A82))
      ∧ (c.cla ≠ 0x00 → c.cla ≠ 0x80 → s.gives (.selectByFile c) (s.tagApdu [] 0x6E00))
      ∧ (c.cla = 0x00 → c.ins ≠ 0xA4 → s.nfc.harvest = true ∨ c.ins ≠ 0xB0 ∧ c.ins ≠ 0xD6 → s.gives (.selectByFile c) (s.tagApdu [] 0x6D00))
      ∧ (c.cla = 0x80 → c.ins ≠ 0xD0 → s.gives (.selectByFile c) (s.tagApdu [] 0x6D00)))
    ∧ (∀ (off len : Nat) (data : List Byte), s.nfc.harvest = true → s.gives (.readBinary off len) (s.tagApdu [] 0x6D00) ∧ s.gives (.updateBinary off data) (s.tagApdu [] 0x6D00))
    ∧ (∀ (off len sw : Nat) (f : List Byte), s.nfc.harvest = false → s.tagFile = some f → sw = (if f.length ≤ off then 0x6B00 else if 240 < len ∨ f.length < off + len then 0x6700 else 0x9000) →
      s.gives (.readBinary off len) (s.tagApdu (if sw = 0x9000 then (f.drop off).take len else []) sw))
    ∧ (∀ (off sw : Nat) (data : List Byte), s.nfc.harvest = false → s.nfc.file = .ndef → s.bit F.NFC_NDEF_WRITE = true →
      sw = (if s.ndefSize ≤ off then 0x6B00 else if 240 < data.length ∨ s.ndefSize < off + data.length then 0x6700 else 0x9000) →
      (sw ≠ 0x9000 → s.gives (.updateBinary off data) (s.tagApdu [] sw))
      ∧ (sw = 0x9000 → 1 < off → s.gives (.updateBinary off data) (Chip.tagApdu (s.wrBs (s.ndefBase + off) data) [] 0x9000)))
    ∧ (∀ (off : Nat) (data : List Byte), s.nfc.harvest = false → s.nfc.file = .cc ∨ s.nfc.file = .ndef ∧ s.bit F.NFC_NDEF_WRITE = false →
      s.gives (.updateBinary off data) (s.tagApdu [] 0x6982))
    ∧ (∀ (q : Nat) (data : List Byte) (l : List Nat) (u : Chip), u = s.setFld F.NFC_FIELD_VNFC (l.headD 0) →
      (data.length < 2 ∨ 53 < data.length → s.gives (.mailboxWrite q data l) (u.tagApdu [] 0x6700))
      ∧ (2 ≤ data.length → data.length ≤ 53 → octAt data 0 = 0 ∨ octAt data 0 = 0xFF → s.gives (.mailboxWrite q data l) (u.tagApdu [] 0x6F05))
      ∧ (2 ≤ data.length → data.length ≤ 53 → octAt data 0 ≠ 0 → octAt data 0 ≠ 0xFF →
        (l.headD 0 < 260 → s.gives (.mailboxWrite q data l) (u.tagApdu [] 0x6F11))
        ∧ (260 ≤ l.headD 0 → (u.mboxFind (octAt data 0) q).isSome = true →
          (u.nfc.harvest = true → s.gives (.mailboxWrite q data l) (u.tagApdu [] 0x9000))
          ∧ (u.nfc.harvest = false → s.gives (.mailboxWrite q data l) (Chip.tagApdu (Chip.occ (u.setFld F.NFC_MBOX_LASTSEQ q) 77) [] 0x9000)))
        ∧ (260 ≤ l.headD 0 → u.mboxFind (octAt data 0) q = none → (List.range 256).find? u.mboxErased = none → s.gives (.mailboxWrite q data l) (u.tagApdu [] 0x6F7C))
        ∧ (∀ (k : Nat) (b : List Word) (m : MboxWrite), 260 ≤ l.headD 0 → u.mboxFind (octAt data 0) q = none → (List.range 256).find? u.mboxErased = some k → u.nfc.harvest = true →
          b = mboxBody (octAt data 0) (q % 65536) (data.drop 1) →
          m = { slot := k, next := 0, words := b ++ [W (mboxChk b), W 0xC3C3C3C3C], levels := l.tail, rtype := octAt data 0, seq := q % 65536, stamp := {} } →
          s.gives (.mailboxWrite q data l) (u.mboxStep m)))))

/-- The reader (R370 to R380): enabling and disabling; a poll claims and then runs its round; anticollision goes on from a collision's lowest bit; a frame without an answer is repeated RETRY
times; exchanges, deselection, the end of the field; pings are measured, take the baseline, and detect a card.
It says these forms complete, exec answering a next state under conditions on the state and operands alone: nfcEnable, nfcDisable,
nfcPoll, readerRoundStart, readerAnswer, readerFrameTimeout, nfcXchg, nfcDesel, nfcFieldoff, pingDue, pingResult, nfcCntRead. -/
def Obligations.TheReader : Prop :=
  (∀ (s : Chip) (ag : Agent), owns ag (s.fld F.NFC_CFG_OWNER) = false → ∀ i : Instr,
    i = .nfcEnable ag ∨ i = .nfcDisable ag ∨ i = .nfcPoll ag ∨ i = .nfcXchg ag ∨ i = .nfcDesel ag ∨ i = .nfcFieldoff ag → s.gives i (s.setReason R.NFC_STAT Rc.OWNED))
  ∧ (∀ (s : Chip) (ag : Agent), s.gives (.nfcCntRead ag) { s.setReg R.NFC_CNT 0 with rdata := s.reg R.NFC_CNT })
  ∧ (∀ (s u : Chip) (ag : Agent), owns ag (s.fld F.NFC_CFG_OWNER) = true →
    (s.bit F.NFC_CTL_EN = false → s.gives (.nfcEnable ag) s.nfcEnable ∧ s.gives (.nfcDisable ag) s)
    ∧ (s.bit F.NFC_CTL_EN = true → s.gives (.nfcEnable ag) s ∧ s.gives (.nfcDisable ag) s.nfcDisable)
    ∧ (∀ c : Nat, c = u.nfcCheck → u.bit F.NFC_CTL_EN = false → (c ≠ Rc.OK → u.nfcEnable = u.setReason R.NFC_STAT c)
      ∧ (c = Rc.OK → ∀ x : Chip, x = ((u.enableBlock .nfc).setBit F.NFC_BASE_VALID false).mboxCount → x.nfc.raw = false →
        u.nfcEnable = x.setNfc { x.nfc with first := [], pollNext := false, pingNext := some (125 * x.owl.stb + 4096 * x.fld F.NFC_PING_INTERVAL) }))
    ∧ (∀ x : Chip, x = Chip.setNfc (Chip.dropClaim { u.setBit F.NFC_CTL_EN false with stopping := Block.nfc :: u.stopping } 8)
        { u.nfc with pingNext := none, pollNext := false, reply := none, chain := [] } →
      (u.nfc.rd.ph = .off → u.nfcDisable = x.nfcSafe) ∧ (u.nfc.rd.ph = .pingClaim → u.nfcDisable = x.rdOff.nfcSafe)
      ∧ (u.nfc.rd.ph ≠ .off → u.nfc.rd.ph ≠ .pingClaim → u.now < u.nfc.rd.frameEnd → u.nfcDisable = x)
      ∧ (u.nfc.rd.ph ≠ .off → u.nfc.rd.ph ≠ .pingClaim → u.nfc.rd.ph ≠ .ping → u.nfc.rd.frameEnd ≤ u.now → u.nfcDisable = x.sessionEnd.nfcSafe))
    ∧ (s.bit F.NFC_CTL_EN = false ∨ s.bit F.NFC_CTL_READER = false ∨ (s.nfc.rd.ph ≠ .off ∧ s.nfc.rd.ph ≠ .pingClaim ∧ s.nfc.rd.ph ≠ .ping)
      ∨ (s.nfc.rd.ph = .ping ∧ s.nfc.pollNext = true) → s.gives (.nfcPoll ag) (s.setReason R.NFC_STAT Rc.BUSY))
    ∧ (∀ x : Chip, s.bit F.NFC_CTL_EN = true → s.bit F.NFC_CTL_READER = true → (s.nfc.rd.ph = .off ∧ x = s) ∨ (s.nfc.rd.ph = .pingClaim ∧ x = s.dropClaim 7) →
      s.gives (.nfcPoll ag) (Chip.claim ((x.setRd { ph := .claim }).setReason R.NFC_STAT Rc.OK) 7 (s.fld (F.EGY_DECL_PEAK 7)) (s.fld F.NFC_CFG_SESSION) true))
    ∧ (s.bit F.NFC_CTL_EN = true → s.bit F.NFC_CTL_READER = true → s.nfc.rd.ph = .ping → s.nfc.pollNext = false →
      s.gives (.nfcPoll ag) ((s.setNfc { s.nfc with pollNext := true }).setReason R.NFC_STAT Rc.OK))
    ∧ (s.nfc.rd.ph ≠ .card → s.gives (.nfcXchg ag) (s.setReason R.NFC_STAT Rc.BUSY) ∧ s.gives (.nfcDesel ag) (s.setReason R.NFC_STAT Rc.BUSY))
    ∧ (s.nfc.rd.ph = .card → s.gives (.nfcDesel ag) ((s.setReason R.NFC_STAT Rc.OK).rdFirst .desel [0xC2]))
    ∧ (s.nfc.rd.ph = .card → s.fld F.NFC_RDX_LEN = 0 ∨ sramSpan (s.fld F.NFC_RDX_BUF) (s.fld F.NFC_RDX_LEN) = false → s.gives (.nfcXchg ag) (s.setReason R.NFC_STAT Rc.RANGE))
    ∧ (∀ (n : Nat) (r : Reader), s.nfc.rd.ph = .card → n = s.fld F.NFC_RDX_LEN → n ≠ 0 → sramSpan (s.fld F.NFC_RDX_BUF) n = true →
      (s.nfc.rd.ready - s.now) + xchgTime (atsFsc s.nfc.rd.ats) n + fwt (atsFwi s.nfc.rd.ats) ≤ s.rdGrantLeft → r = { s.nfc.rd with txRest := s.rdBs (s.fld F.NFC_RDX_BUF) n, rx := [] } →
      s.gives (.nfcXchg ag) ((((s.setRd r).setReason R.NFC_STAT Rc.OK).setFld F.NFC_STAT_RDSTATE 5).xchgSend))
    ∧ (s.nfc.rd.ph = .off ∨ s.nfc.rd.ph = .ping ∨ s.nfc.rd.ph = .pingClaim → s.gives (.nfcFieldoff ag) (s.setReason R.NFC_STAT Rc.BUSY))
    ∧ (s.nfc.rd.ph = .card ∨ s.nfc.rd.ph = .field → s.nfc.rd.frameEnd ≤ s.now → s.gives (.nfcFieldoff ag) (((s.setReason R.NFC_STAT Rc.OK).occ 76).rdOff))
    ∧ (s.nfc.rd.ph = .reqa ∨ s.nfc.rd.ph = .anti ∨ s.nfc.rd.ph = .select ∨ s.nfc.rd.ph = .rats ∨ s.nfc.rd.ph = .xchg →
      (s.now < s.nfc.rd.frameEnd → s.gives (.nfcFieldoff ag) ((s.setReason R.NFC_STAT Rc.OK).setRd { s.nfc.rd with close := true }))
      ∧ (s.nfc.rd.frameEnd ≤ s.now → s.gives (.nfcFieldoff ag) (((s.setReason R.NFC_STAT Rc.OK).rdPost Rc.SESSION_END).rdOff))))
  ∧ (∀ (s : Chip) (r : Reader) (data : List Byte) (b : Bool), r = s.nfc.rd →
    (r.ph ≠ .guard ∨ r.due.any (fun t => t ≤ s.now) = false → s.gives .readerRoundStart s)
    ∧ (r.ph = .guard → r.due.any (fun t => t ≤ s.now) = true → s.gives .readerRoundStart ((s.setFld F.NFC_STAT_RDSTATE 3).rdFirst .reqa [if s.bit F.NFC_CFG_WUPA then 0x52 else 0x26]))
    ∧ (r.ph = .off → s.gives .readerFrameTimeout s ∧ s.gives (.readerAnswer data true none b) s)
    ∧ (r.due.any (fun t => t ≤ s.now) = false → s.gives .readerFrameTimeout s)
    ∧ (s.now < r.frameEnd → ∀ (good : Bool) (c : Option Nat), s.gives (.readerAnswer data good c b) s)
    ∧ (r.due.any (fun t => t ≤ s.now) = true → r.retries ≠ 0 → ∀ p : RdPhase, r.ph = p → p = .reqa ∨ p = .anti ∨ p = .select ∨ p = .rats ∨ p = .desel →
      s.gives .readerFrameTimeout ((s.setRd { r with retries := r.retries - 1 }).rdSend p r.sent))
    ∧ (r.due.any (fun t => t ≤ s.now) = true → r.retries ≠ 0 → r.ph = .xchg →
      s.gives .readerFrameTimeout ((s.setRd { r with retries := r.retries - 1 }).rdSend .xchg (leOctets 1 (0xB2 + r.blk.toNat))))
    ∧ (r.due.any (fun t => t ≤ s.now) = true → r.retries = 0 → (r.ph = .reqa ∨ r.ph = .select → s.gives .readerFrameTimeout (s.roundEnd Rc.NO_RESPONSE false))
      ∧ (r.ph = .rats → s.gives .readerFrameTimeout ((s.queueUid []).roundEnd Rc.NO_RESPONSE false))
      ∧ (r.ph = .desel → s.gives .readerFrameTimeout ((Chip.setFld (s.setRd { r with ph := .field, due := none, ats := [] }) F.NFC_STAT_RDSTATE 0).setReason R.NFC_STAT Rc.NO_RESPONSE))
      ∧ (r.ph = .anti → s.gives .readerFrameTimeout (s.roundEnd (if 0 < r.found then Rc.OK else Rc.NO_RESPONSE) false))
      ∧ (r.ph = .xchg → s.gives .readerFrameTimeout (s.xchgEnd Rc.NO_RESPONSE)))
    ∧ (r.ph = .reqa → r.frameEnd ≤ s.now → s.gives (.readerAnswer data true none b) ((s.setRd { r with atqa := leNat data % 65536, found := 0 }).rdLevel 1 []))
    ∧ (∀ (k m : Nat) (u : Chip), r.ph = .anti → r.frameEnd ≤ s.now → r.nbits ≤ k → k < 32 → m = (r.known % 2 ^ (r.nbits / 8 * 8) + leNat data <<< (r.nbits / 8 * 8)) % 2 ^ k →
      u = (((s.setFld F.NFC_COLL_CL r.level).setBit F.NFC_COLL_BCCCOL b).setFld F.NFC_COLL_POS k).setRd { r with known := m + 2 ^ k, nbits := k + 1 } →
      s.gives (.readerAnswer data true (some k) b) (if k = 31 then u.rdSelect else u.rdAnti))
    ∧ (r.ph = .select → r.frameEnd ≤ s.now → bitOf (octAt data 0) 2 = true → r.level = 3 → s.gives (.readerAnswer data true none b) (s.roundEnd Rc.PROTOCOL false))
    ∧ (r.ph = .select → r.frameEnd ≤ s.now → bitOf (octAt data 0) 2 = true → r.level ≠ 3 → s.gives (.readerAnswer data true none b) (s.rdLevel (r.level + 1) (r.uid ++ (leOctets 4 r.known).drop 1)))
    ∧ (r.ph = .select → r.frameEnd ≤ s.now → bitOf (octAt data 0) 2 = false →
      s.gives (.readerAnswer data true none b) (s.setRd { r with uid := r.uid ++ leOctets 4 r.known, sak := octAt data 0 }).cardFound)
    ∧ (r.ph = .rats → r.frameEnd ≤ s.now → s.gives (.readerAnswer data true none b) ((s.queueUid data).roundEnd Rc.OK true))
    ∧ (r.ph = .xchg → r.frameEnd ≤ s.now → s.gives (.readerAnswer data true none b) (s.xchgBlock data)))
  ∧ ∀ (s u : Chip) (amp phase : Nat),
    (s.nfc.rd.ph ≠ .ping ∨ s.nfc.rd.due.any (fun t => t ≤ s.now) = false → s.gives (.pingResult amp phase) s)
    ∧ (s.nfc.rd.ph = .ping → s.nfc.rd.due.any (fun t => t ≤ s.now) = true → s.nfc.pollNext = false →
      u = (((((((s.setRd {}).setFld F.NFC_STAT_RDSTATE 0).release 7).pingHfOff).setFld F.NFC_PMEAS_AMP amp).setFld F.NFC_PMEAS_PHASE phase).setBit F.NFC_PMEAS_DET false).detectField →
      (u.bit F.NFC_BASE_VALID = false → u.nfc.first.length < 7 → s.gives (.pingResult amp phase) (u.setNfc { u.nfc with first := u.nfc.first ++ [(amp, phase)] }))
      ∧ (∀ v : Chip, u.bit F.NFC_BASE_VALID = true → u.pingDetects amp phase = true → v = Chip.wakeEvent (Chip.occ ((u.setBit F.NFC_PMEAS_DET true).count F.NFC_CNT_DETECT) 75) 7 12 →
        v.bit F.NFC_PING_AUTOPOLL = false → s.gives (.pingResult amp phase) v)
      ∧ (u.bit F.NFC_BASE_VALID = true → u.pingDetects amp phase = false → s.gives (.pingResult amp phase)
        ((u.setFld F.NFC_BASE_AMP ((u.fld F.NFC_BASE_AMP : Int) + ((amp : Int) - u.fld F.NFC_BASE_AMP).tdiv 16).toNat).setFld F.NFC_BASE_PHASE
          (((u.fld F.NFC_BASE_PHASE : Int) + (phaseDiff phase (u.fld F.NFC_BASE_PHASE)).tdiv 16) % 3600).toNat)))
    ∧ (u = s.setNfc { s.nfc with pingNext := s.nfc.pingNext.map (fun t => max (t + 4096 * s.fld F.NFC_PING_INTERVAL) (125 * s.owl.stb + 1)) } →
      (s.nfc.pingNext.any (fun t => t ≤ 125 * s.owl.stb) = true → s.bit F.NFC_CTL_EN = true → s.bit F.NFC_CTL_READER = true → s.bit F.NFC_CTL_PING = true → s.nfc.rd.ph = .off → s.bit F.NFC_STAT_EXTFLD = false → s.pwr.st = .run ∨ s.pwr.st = .sleep →
        s.gives .pingDue ((u.setRd { ph := .pingClaim }).claim 7 (s.fld (F.EGY_DECL_PEAK 7)) 75 false))
      ∧ (s.bit F.NFC_CTL_PING = false ∨ s.nfc.rd.ph ≠ .off ∨ s.bit F.NFC_STAT_EXTFLD = true ∨ s.nfc.pingNext.any (fun t => t ≤ 125 * s.owl.stb) = false → s.gives .pingDue u))

/-! ### Time bases, interrupts and events -/

/-- The time bases (R386 to R410, and LFXO's start and failure, R112, R401): a timer's enable is refused with the first item that fails and else starts it at a prescaler of 0; a wrap counts, matches and overflows;
compares are preloaded while it runs; captures set flag and value, and reading CAPR or CAPF clears its flag; the ownership register takes a write whole; a second boundary carries and may fire the alarm;
RTC_SUB's read holds RTC_SEC for its reader; RTC_SEC is written at an edge; the watchdog is enabled once, its kick resets the chip with a wrong value or inside the closed window, its expiry resets it,
and DBGPAUSE is the service port's alone, a write of another agent that carries it refused whole.
It says these forms complete, exec answering a next state under conditions on the state and operands alone: lfxoFirstEdge,
lfxoStartTimeout, lfxoStop, lfxoRestored, tmrEnable, timerPrescalerWrap, tmrCmpWrite, timerCaptureEdge, tmrCaprRead, tmrCapfRead,
tmrOwnWrite, secondBoundary, rtcSubRead, rtcSecRead, rtcSecWrite, rtcSecWriteApply, rtcTrimWrite, rtcAlarmWrite, rtcCfgWrite,
wdtEnable, wdtKick, wdtWarning, wdtExpiry, wdtDbgpauseWrite. -/
def Obligations.TimeBases : Prop :=
  (∀ (s : Chip) (ag : Agent) (n : Nat), n < 8 →
    (owns ag (s.timerOwner n) = false → s.gives (.tmrEnable ag n) (s.tmrReason n Rc.OWNED))
    ∧ (owns ag (s.timerOwner n) = true → (s.bit (F.TMRN_CTL_EN n) = true → s.gives (.tmrEnable ag n) s)
      ∧ (s.bit (F.TMRN_CTL_EN n) = false →
        (s.fld (F.TMRN_CFG_SRC n) = 3 ∨ 39 < s.fld (F.TMRN_CFG_EVSEL n) → s.gives (.tmrEnable ag n) (s.tmrReason n Rc.RANGE))
        ∧ (s.fld (F.TMRN_CFG_SRC n) ≠ 3 → s.fld (F.TMRN_CFG_EVSEL n) ≤ 39 → s.pairHigh n = true → s.gives (.tmrEnable ag n) (s.tmrReason n 0x80))
        ∧ (s.tmrCheck n ≠ Rc.OK → s.gives (.tmrEnable ag n) (s.tmrReason n (s.tmrCheck n)))
        ∧ (s.tmrCheck n = Rc.OK → s.fld (F.TMRN_CFG_SRC n) = 1 → (s.fld F.PMU_REQ_DEPTH < 2 → s.gives (.tmrEnable ag n) (s.tmrStart n))
          ∧ (2 ≤ s.fld F.PMU_REQ_DEPTH → s.gives (.tmrEnable ag n) (s.tmrReason n Rc.BUSY)))
        ∧ (s.tmrCheck n = Rc.OK → s.fld (F.TMRN_CFG_SRC n) ≠ 1 → s.holds 11 = true → (s.fld F.PMU_REQ_DEPTH = 0 → s.gives (.tmrEnable ag n) (s.tmrStart n))
          ∧ (1 ≤ s.fld F.PMU_REQ_DEPTH → s.gives (.tmrEnable ag n) (s.tmrReason n Rc.BUSY)))
        ∧ (s.tmrCheck n = Rc.OK → s.fld (F.TMRN_CFG_SRC n) ≠ 1 → s.holds 11 = false → ∀ y : Chip, y = s.claimNow 11 (s.fld (F.EGY_DECL_PEAK 11)) →
          (y.holds 11 = false → s.gives (.tmrEnable ag n) ((y.dropClaim 11).tmrReason n Rc.BUDGET))
          ∧ (y.holds 11 = true → y.fld F.PMU_REQ_DEPTH = 0 → s.gives (.tmrEnable ag n) (y.tmrStart n))
          ∧ (y.holds 11 = true → 1 ≤ y.fld F.PMU_REQ_DEPTH → s.gives (.tmrEnable ag n) ((y.endGrant 11).tmrReason n Rc.BUSY)))))
    ∧ (s.pairLow n = false → ∀ x : Chip, x = (s.setBit (F.TMRN_CTL_EN n) true).setBit (F.TMRN_STAT_ACTIVE n) true →
      s.tmrStart n = (x.setTimer n { x.timer n with pres := 0 }).tmrReason n Rc.OK)
    ∧ (∀ (c : Nat) (v : Word) (x : Chip), c < 2 → x = (s.setReg (R.TMRN_CMP0 n + c) v).tmrReason n Rc.OK →
      (owns ag (s.timerOwner n) = false → s.gives (.tmrCmpWrite ag n c v) (s.tmrReason n Rc.OWNED))
      ∧ (owns ag (s.timerOwner n) = true → (x.tmrOn n = false → s.gives (.tmrCmpWrite ag n c v) (x.setTimer n ((x.timer n).setAct c v.toNat)))
        ∧ (x.tmrOn n = true → x.pairHigh n = true → s.gives (.tmrCmpWrite ag n c v) x)
        ∧ (x.tmrOn n = true → x.pairHigh n = false → x.pairLow n = false → s.gives (.tmrCmpWrite ag n c v) (x.setTimer n ((x.timer n).setPl c (some (x.reg (R.TMRN_CMP0 n + c)).toNat))))))
    ∧ s.gives (.tmrCaprRead ag n) { s.setBit (F.TMRN_FLAG_NEWR n) false with rdata := s.reg (R.TMRN_CAPR n) }
    ∧ s.gives (.tmrCapfRead ag n) { s.setBit (F.TMRN_FLAG_NEWF n) false with rdata := s.reg (R.TMRN_CAPF n) })
  ∧ (∀ (s : Chip) (n : Nat), s.pairHigh n = true ↔ n % 2 = 1 ∧ s.bit (F.TMRN_CFG_LINK (n - 1)) = true ∧ (s.tmrOn n = false ∨ s.tmrOn (n - 1) = true))
  ∧ (∀ (s : Chip) (n : Nat), (s.tmrOn n = false ∨ s.pairHigh n = true → s.gives (.timerPrescalerWrap n) s)
    ∧ (s.tmrOn n = true → s.pairHigh n = false → ∀ (v : Nat) (x : Chip), v = (s.tmrValue R.TMRN_COUNT n + 1) % s.tmrModulus n → (s.timer n).pl0 = none → (s.timer n).pl1 = none →
      x = (s.setTmrValue R.TMRN_COUNT n v).setTimer n { s.timer n with pres := 0 } →
      ((s.timer n).act0 ≠ v → (s.timer n).act1 ≠ v → v ≠ 0 → s.gives (.timerPrescalerWrap n) x)
      ∧ ((s.timer n).act0 = v → (s.timer n).act1 ≠ v → v ≠ 0 → s.gives (.timerPrescalerWrap n)
        (Chip.tmrWake (Chip.occ (Chip.publish ((x.setBit (F.TMRN_FLAG_MATCH0 n) true).tmrAct n 0 (x.fld (F.TMRN_ACT_ACTM0 n))) (112 + n)) (1 + n)) n))
      ∧ ((s.timer n).act0 ≠ v → (s.timer n).act1 = v → v ≠ 0 → s.gives (.timerPrescalerWrap n)
        (Chip.tmrWake (Chip.occ ((x.setBit (F.TMRN_FLAG_MATCH1 n) true).tmrAct n 1 (x.fld (F.TMRN_ACT_ACTM1 n))) (1 + n)) n))
      ∧ ((s.timer n).act0 ≠ v → (s.timer n).act1 ≠ v → v = 0 → s.gives (.timerPrescalerWrap n)
        (Chip.tmrWake (Chip.occ (((x.setBit (F.TMRN_FLAG_OVF n) true).tmrAct n 0 (x.fld (F.TMRN_ACT_ACTO0 n))).tmrAct n 1 (x.fld (F.TMRN_ACT_ACTO1 n))) (1 + n)) n)))
    ∧ (n < 8 → ∀ b : Bool, (s.pinOf (Mean.TMR_CAP n) = none → s.gives (.timerCaptureEdge n b) s)
      ∧ ∀ (p : Nat) (x : Chip), s.pinOf (Mean.TMR_CAP n) = some p → x = s.drivePin p b →
        (s.inPin p = b ∨ x.inPin p ≠ b ∨ s.bit (F.TMRN_CFG_CAPEN n) = false ∨ s.tmrOn n = false ∨ s.pairHigh n = true → s.gives (.timerCaptureEdge n b) x)
        ∧ (s.inPin p ≠ b → x.inPin p = b → s.bit (F.TMRN_CFG_CAPEN n) = true → s.tmrOn n = true → s.pairHigh n = false →
          (b = true → s.bit (F.TMRN_FLAG_NEWR n) = false → s.gives (.timerCaptureEdge n b)
            (Chip.occ ((x.setTmrValue R.TMRN_CAPR n (x.captured n)).setBit (F.TMRN_FLAG_NEWR n) true) (9 + n)))
          ∧ (b = true → s.bit (F.TMRN_FLAG_NEWR n) = true → s.gives (.timerCaptureEdge n b)
            (Chip.occ (((x.setBit (F.TMRN_FLAG_OVRR n) true).setTmrValue R.TMRN_CAPR n (x.captured n)).setBit (F.TMRN_FLAG_NEWR n) true) (9 + n)))
          ∧ (b = false → s.bit (F.TMRN_FLAG_NEWF n) = false → s.gives (.timerCaptureEdge n b)
            (Chip.occ (((x.setTmrValue R.TMRN_CAPF n (x.captured n)).setTmrValue R.TMRN_PW n
              ((x.captured n + x.tmrModulus n - x.tmrValue R.TMRN_CAPR n) % x.tmrModulus n)).setBit (F.TMRN_FLAG_NEWF n) true) (9 + n)))
          ∧ (b = false → s.bit (F.TMRN_FLAG_NEWF n) = true → s.gives (.timerCaptureEdge n b)
            (Chip.occ ((((x.setBit (F.TMRN_FLAG_OVRF n) true).setTmrValue R.TMRN_CAPF n (x.captured n)).setTmrValue R.TMRN_PW n
              ((x.captured n + x.tmrModulus n - x.tmrValue R.TMRN_CAPR n) % x.tmrModulus n)).setBit (F.TMRN_FLAG_NEWF n) true) (9 + n))))))
  ∧ (∀ (s : Chip) (ag : Agent) (v : Word) (new : Nat), new = v.toNat % 2 ^ 24 →
    (s.lockedSec 8 = true → s.gives (.tmrOwnWrite ag v) (s.setReason R.TMR_STAT Rc.LOCKED))
    ∧ (s.lockedSec 8 = false →
      ((∀ n, n < 8 → bits new (3 * n + 2) (3 * n) ≠ bits (s.reg R.TMR_OWN).toNat (3 * n + 2) (3 * n) → owns ag (s.timerOwner n) = true ∧ s.tmrOn n = false) →
          (∀ n, n < 24 → Chip.timerPinBad (s.setReg R.TMR_OWN (W new)) (s.pinMap n) = false) →
        s.gives (.tmrOwnWrite ag v) ((s.setReg R.TMR_OWN (W new)).setReason R.TMR_STAT Rc.OK))
      ∧ ((∀ n, n < 8 → bits new (3 * n + 2) (3 * n) ≠ bits (s.reg R.TMR_OWN).toNat (3 * n + 2) (3 * n) → owns ag (s.timerOwner n) = true ∧ s.tmrOn n = false) →
          (∃ n, n < 8 ∧ bits new (3 * n + 2) (3 * n) ≠ bits (s.reg R.TMR_OWN).toNat (3 * n + 2) (3 * n)) →
          (∃ n, n < 24 ∧ Chip.timerPinBad (s.setReg R.TMR_OWN (W new)) (s.pinMap n) = true) → s.gives (.tmrOwnWrite ag v) (s.setReason R.TMR_STAT Rc.OWNED))
      ∧ ((∃ n, n < 8 ∧ bits new (3 * n + 2) (3 * n) ≠ bits (s.reg R.TMR_OWN).toNat (3 * n + 2) (3 * n) ∧ owns ag (s.timerOwner n) = false) →
        s.gives (.tmrOwnWrite ag v) (s.setReason R.TMR_STAT Rc.OWNED))
      ∧ ((∀ n, n < 8 → bits new (3 * n + 2) (3 * n) ≠ bits (s.reg R.TMR_OWN).toNat (3 * n + 2) (3 * n) → owns ag (s.timerOwner n) = true) →
        (∃ n, n < 8 ∧ bits new (3 * n + 2) (3 * n) ≠ bits (s.reg R.TMR_OWN).toNat (3 * n + 2) (3 * n) ∧ s.tmrOn n = true) →
        s.gives (.tmrOwnWrite ag v) (s.setReason R.TMR_STAT Rc.BUSY))))
  ∧ (∀ (s : Chip) (x : Chip), (s.clk.lfOn = true → s.gives .lfxoFirstEdge { s with clk := { s.clk with lfxoOk := true } } ∧ s.gives .lfxoStartTimeout s)
    ∧ (s.clk.lfOn = false → (∀ (l : List LfDue) (y : Chip),
        (l, y) = Chip.lfEdge { s with clk := { s.clk with lfxoOk := true, lfOn := true, lfRc := false, lfPhase := s.now } } → s.gives .lfxoFirstEdge (l.foldl Chip.lfDo y))
      ∧ (s.now < s.clk.vaonAt + secs 1 → s.gives .lfxoStartTimeout s)
      ∧ (s.clk.vaonAt + secs 1 ≤ s.now → x = { s with clk := { s.clk with lfOn := true, lfRc := true } } → s.gives .lfxoStartTimeout (Chip.occ ((x.setBit F.RTC_STAT_LFRC true).setBit F.RTC_STAT_OSF true) 18)))
    ∧ (x = { s with clk := { s.clk with lfxoOk := false, lfRc := s.clk.lfOn } } → s.gives .lfxoStop (Chip.occ ((x.setBit F.RTC_STAT_LFRC s.clk.lfOn).setBit F.RTC_STAT_OSF true) 18))
    ∧ (x = { s with clk := { s.clk with lfxoOk := true, lfRc := false, lfPhase := if s.clk.lfRc then s.now else s.clk.lfPhase } } → s.gives .lfxoRestored (x.setBit F.RTC_STAT_LFRC false)))
  ∧ (∀ (s x y : Chip) (acc m : Int), acc = s.owl.rtcAcc + signed 10 (s.fld F.RTC_TRIM_TRIM) * 32768 → m = acc.tdiv 1000000 →
    x = { (s.setReg R.RTC_SEC (s.reg R.RTC_SEC + 1)).setReg R.RTC_SUB 0 with owl := { s.owl with rtcAcc := acc - m * 1000000, rtcAdj := m, rtcHeld := 0 } } →
    y = x.updateSqw.publish 120 →
    (y.bit F.RTC_CFG_ALMEN = false ∨ y.reg R.RTC_ALARM ≠ s.reg R.RTC_SEC + 1 → s.gives .secondBoundary y)
    ∧ (y.bit F.RTC_CFG_ALMEN = true → y.reg R.RTC_ALARM = s.reg R.RTC_SEC + 1 →
      s.gives .secondBoundary (Chip.wakeEvent (Chip.occ ((y.setBit F.RTC_STAT_ALMF true).setBit F.RTC_CFG_ALMEN false) 17) 5 10)))
  ∧ (∀ (s : Chip) (ag : Agent) (v : Word) (k : Nat),
    s.gives (.rtcSubRead ag) { s with tmr := { s.tmr with shadows := setAt s.tmr.shadows ag.code (some (s.reg R.RTC_SEC).toNat) }, rdata := s.reg R.RTC_SUB }
    ∧ (s.tmr.shadows.getD ag.code none = none → s.gives (.rtcSecRead ag) { s with rdata := s.reg R.RTC_SEC })
    ∧ (s.tmr.shadows.getD ag.code none = some k → s.gives (.rtcSecRead ag) { s with tmr := { s.tmr with shadows := setAt s.tmr.shadows ag.code none }, rdata := W k })
    ∧ s.gives (.rtcSecWrite ag v) { s with owl := { s.owl with rtcWrite := some v.toNat } }
    ∧ (s.owl.rtcWrite = none → s.gives .rtcSecWriteApply s)
    ∧ (s.owl.rtcWrite = some k → ∀ x y : Chip, x = { s with owl := { s.owl with rtcWrite := none } } → y = ((x.setReg R.RTC_SEC (W k)).setReg R.RTC_SUB 0).updateSqw →
      (s.bit F.RTC_CFG_ALMEN = true → (s.reg R.RTC_ALARM).toNat ≤ k → s.gives .rtcSecWriteApply ((y.setBit F.RTC_CFG_ALMEN false).setReason R.RTC_STAT 0x89))
      ∧ (s.bit F.RTC_CFG_ALMEN = false ∨ k < (s.reg R.RTC_ALARM).toNat → s.gives .rtcSecWriteApply (y.setReason R.RTC_STAT Rc.OK)))
    ∧ (v.toNat % 1024 = 512 → s.gives (.rtcTrimWrite ag v) (s.setReason R.RTC_STAT Rc.RANGE))
    ∧ (v.toNat % 1024 ≠ 512 → ∀ x : Chip, x = { s with owl := { s.owl with rtcAcc := 0 } } →
      s.gives (.rtcTrimWrite ag v) ((x.setReg R.RTC_TRIM (W (v.toNat % 1024))).setReason R.RTC_STAT Rc.OK))
    ∧ (s.bit F.RTC_CFG_ALMEN = true → v.toNat ≤ (s.reg R.RTC_SEC).toNat → s.gives (.rtcAlarmWrite ag v) (s.setReason R.RTC_STAT 0x89))
    ∧ (s.bit F.RTC_CFG_ALMEN = false ∨ (s.reg R.RTC_SEC).toNat < v.toNat → s.gives (.rtcAlarmWrite ag v) ((s.setReg R.RTC_ALARM v).setReason R.RTC_STAT Rc.OK))
    ∧ (bitOf v.toNat 5 = true → (s.reg R.RTC_ALARM).toNat ≤ (s.reg R.RTC_SEC).toNat → s.gives (.rtcCfgWrite ag v) (s.setReason R.RTC_STAT 0x89))
    ∧ (bitOf v.toNat 5 = false ∨ (s.reg R.RTC_SEC).toNat < (s.reg R.RTC_ALARM).toNat →
      s.gives (.rtcCfgWrite ag v) ((s.setReg R.RTC_CFG (W (v.toNat % 64))).setReason R.RTC_STAT Rc.OK).updateSqw))
  ∧ (∀ (s : Chip) (ag : Agent), (ag ≠ .svc → s.bit F.WDT_CTL_DBGPAUSE = true → s.gives (.wdtEnable ag) (s.setReason R.WDT_STAT Rc.SECURITY))
    ∧ (ag = .svc ∨ s.bit F.WDT_CTL_DBGPAUSE = false → s.bit F.WDT_CTL_EN = true → s.gives (.wdtEnable ag) s)
    ∧ (ag = .svc ∨ s.bit F.WDT_CTL_DBGPAUSE = false → s.bit F.WDT_CTL_EN = false → ∀ y : Chip, y = { s with tmr := { s.tmr with wdt := 0 } } →
      s.gives (.wdtEnable ag) (((y.setBit F.WDT_CTL_EN true).setBit F.WDT_STAT_ACTIVE true).setReason R.WDT_STAT Rc.OK)))
  ∧ ∀ (s : Chip) (ag : Agent) (v : Word) (b : Bool),
    (s.bit F.WDT_CTL_EN = false → s.gives (.wdtKick ag v) s ∧ s.gives .wdtWarning s ∧ s.gives .wdtExpiry s)
    ∧ (s.bit F.WDT_CTL_EN = true → (v.toNat % 4096 ≠ 0xA5C → s.gives (.wdtKick ag v) (s.requestReset (.wdt 0x82)))
      ∧ (v.toNat % 4096 = 0xA5C → 8 * s.tmr.wdt < s.wdtPeriod * s.fld F.WDT_CFG_WINDOW → s.gives (.wdtKick ag v) (s.requestReset (.wdt 0x81)))
      ∧ (v.toNat % 4096 = 0xA5C → s.wdtPeriod * s.fld F.WDT_CFG_WINDOW ≤ 8 * s.tmr.wdt →
        s.gives (.wdtKick ag v) { s.setReason R.WDT_STAT Rc.OK with tmr := { s.tmr with wdt := 0 } })
      ∧ (s.bit F.WDT_CFG_WARN = true → s.gives .wdtWarning (Chip.occ (s.setBit F.WDT_STAT_WARNF true) 19))
      ∧ (s.bit F.WDT_CFG_WARN = false → s.gives .wdtWarning s)
      ∧ s.gives .wdtExpiry (s.requestReset (.wdt 0x83)))
    ∧ (b = s.bit F.WDT_CTL_DBGPAUSE → s.gives (.wdtDbgpauseWrite .svc b) s)
    ∧ (b ≠ s.bit F.WDT_CTL_DBGPAUSE → s.gives (.wdtDbgpauseWrite .svc b) ((s.setBit F.WDT_CTL_DBGPAUSE b).setReason R.WDT_STAT Rc.OK))
    ∧ (ag ≠ .svc → s.gives (.wdtDbgpauseWrite ag b) (s.setReason R.WDT_STAT Rc.SECURITY))

/-- Interrupts and events (R413 to R436): a claim takes the presented source with the highest priority, and among equals the lowest number, or answers the record; done returns a source to IDLE or pends it again;
source fields, coalescing and withdrawal; channels and subscriptions are checked in order; a software pulse leaves for the next cycle; a task acts in the cycle after its pulse, once for all pulses of one cycle; the clearing reads; an edge at EVT_IN publishes.
It says these forms complete, exec answering a next state under conditions on the state and operands alone: icuClaimRead,
icuDoneWrite, icuSrcWrite, icuSwsetWrite, levelRequestFall, coalExpiry, evrChWrite, evrTsubWrite, evrSwpubWrite, taskFire,
evrStatRead, evrTstatRead, evtInEdge. -/
def Obligations.InterruptsAndEvents : Prop :=
  (∀ (s : Chip) (t : Nat), (s.bestSource t = none ↔ ∀ n, 1 ≤ n → n ≤ 95 → s.presented t n = false)
    ∧ ∀ n, s.bestSource t = some n → 1 ≤ n ∧ n ≤ 95 ∧ s.presented t n = true
      ∧ ∀ m, 1 ≤ m → m ≤ 95 → s.presented t m = true → s.fld (F.ICU_SRC_PRIO m) < s.fld (F.ICU_SRC_PRIO n) ∨ s.fld (F.ICU_SRC_PRIO m) = s.fld (F.ICU_SRC_PRIO n) ∧ n ≤ m)
  ∧ (∀ (s : Chip) (ag : Agent) (t : Nat), t < 4 →
    (answersTarget ag t = false → s.gives (.icuClaimRead ag t) { s.setReason R.ICU_STAT Rc.SECURITY with rdata := 0 }
      ∧ ∀ v : Word, s.gives (.icuDoneWrite ag t v) (s.setReason R.ICU_STAT Rc.SECURITY))
    ∧ (answersTarget ag t = true →
      (s.bestSource t = none → s.gives (.icuClaimRead ag t) { s with icu := { s.icu with record := setAt s.icu.record t 0 }, rdata := W (s.icu.record.getD t 0) })
      ∧ (∀ (n : Nat) (x : Chip), s.bestSource t = some n → x = ((s.recordLoss n 1023 t).unpend n 2).setFld (F.ICU_SRC_BY n) t →
        s.gives (.icuClaimRead ag t) { x with icu := { x.icu with record := setAt x.icu.record t 0 }, rdata := W n })
      ∧ (∀ (v : Word) (n : Nat), n = v.toNat % 1024 →
        (n = 0 ∨ 95 < n ∨ s.fld (F.ICU_SRC_STATE n) ≠ 2 ∨ s.fld (F.ICU_SRC_BY n) ≠ t → s.gives (.icuDoneWrite ag t v) (s.setReason R.ICU_STAT Rc.NOT_CLAIMED))
        ∧ (1 ≤ n → n ≤ 95 → s.fld (F.ICU_SRC_STATE n) = 2 → s.fld (F.ICU_SRC_BY n) = t → ∀ x y : Chip, x = (s.setFld (F.ICU_SRC_BY n) 0).setReason R.ICU_STAT Rc.OK →
          y = { x with icu := { s.icu with rearm := s.icu.rearm.filter (fun k => k ≠ n) } } →
          (s.bit (F.ICU_SRC_TRIG n) = false ∧ s.levelReq n = true ∨ s.bit (F.ICU_SRC_TRIG n) = true ∧ s.icu.rearm.contains n = true → s.gives (.icuDoneWrite ag t v) (y.pend n))
          ∧ (s.bit (F.ICU_SRC_TRIG n) = false ∧ s.levelReq n = false ∨ s.bit (F.ICU_SRC_TRIG n) = true ∧ s.icu.rearm.contains n = false → s.gives (.icuDoneWrite ag t v) (y.unpend n 0))))))
  ∧ (∀ (s : Chip) (ag : Agent) (n old new0 new : Nat) (v : Word) (x : Chip), 1 ≤ n → n ≤ 95 → old = (s.reg (R.ICU_SRC n)).toNat % 256 →
    new0 = (if nativeLevel n then v.toNat % 256 else v.toNat % 256 ||| 8) →
    (ag = .foxA ∨ ag = .svc) ∧ new = new0 ∨ ag ≠ .foxA ∧ ag ≠ .svc ∧ new = putBit old (4 + ag.code) (bitOf new0 (4 + ag.code)) →
    x = (s.setFld ⟨R.ICU_SRC n, 7, 0⟩ new).setReason R.ICU_STAT (if new = new0 then Rc.OK else Rc.SECURITY) →
    (s.lockedSec 10 = true → s.gives (.icuSrcWrite ag n v) (s.setReason R.ICU_STAT Rc.LOCKED))
    ∧ (s.lockedSec 10 = false →
      (bitOf new 7 = true → bits new 7 4 ≠ 8 → s.gives (.icuSrcWrite ag n v) (s.setReason R.ICU_STAT Rc.COMBINATION))
      ∧ (bitOf new 7 = false ∨ bits new 7 4 = 8 → (bitOf new 3 = bitOf old 3 → s.gives (.icuSrcWrite ag n v) x) ∧ (bitOf new 3 ≠ bitOf old 3 → s.gives (.icuSrcWrite ag n v) (x.retrig n)))))
  ∧ (∀ (s : Chip) (ag : Agent) (v : Word), s.gives (.icuSwsetWrite ag v) ([0, 1, 2, 3].foldl (fun c k => if bitOf v.toNat k then c.occ (91 + k) else c) s))
  ∧ (∀ (s : Chip) (n t : Nat),
    (1 ≤ n → n ≤ 95 → s.fld (F.ICU_SRC_TRIG n) = 0 → s.fld (F.ICU_SRC_STATE n) = 1 → s.levelReq n = false → s.gives (.levelRequestFall n) ((s.recordLoss n 1022 4).unpend n 0))
    ∧ (n = 0 ∨ 95 < n ∨ s.fld (F.ICU_SRC_TRIG n) ≠ 0 ∨ s.fld (F.ICU_SRC_STATE n) ≠ 1 ∨ s.levelReq n = true → s.gives (.levelRequestFall n) s)
    ∧ (s.presented t n = true → s.icu.ripe.contains (t, n) = false → s.icu.since.any (fun p => p.1 = n ∧ p.2 + us (s.fld (F.ICU_MOD_COAL t)) ≤ s.icu.ran) = true →
      s.gives (.coalExpiry t n) { s with icu := { s.icu with ripe := (t, n) :: s.icu.ripe } })
    ∧ (s.presented t n = false ∨ s.icu.ripe.contains (t, n) = true ∨ s.icu.since.any (fun p => p.1 = n ∧ p.2 + us (s.fld (F.ICU_MOD_COAL t)) ≤ s.icu.ran) = false → s.gives (.coalExpiry t n) s))
  ∧ (∀ (s : Chip) (ag : Agent) (c new code : Nat) (v : Word), c < 40 → new = v.toNat &&& 0xF00FF007F → code = s.evrChCheck c new →
    (s.lockedSec 9 = false → owns ag (s.fld (F.EVR_CH_OWNER c)) = false → s.gives (.evrChWrite ag c v) (s.setReason R.EVR_STAT Rc.OWNED))
    ∧ (s.lockedSec 9 = true → s.gives (.evrChWrite ag c v) (s.setReason R.EVR_STAT Rc.LOCKED))
    ∧ (owns ag (s.fld (F.EVR_CH_OWNER c)) = true →
      (s.lockedSec 9 = false → (83 ≤ bits new 6 0 ∧ bits new 6 0 ≤ 90 ∨ bits new 6 0 = 126 ∨ 106 ≤ bits new 22 16 → code = Rc.RANGE)
        ∧ (code = Rc.OK → s.gives (.evrChWrite ag c v) ((s.setReg (R.EVR_CH c) (W new)).setReason R.EVR_STAT Rc.OK))
        ∧ (code ≠ Rc.OK → s.gives (.evrChWrite ag c v) (s.evrRefuse code)))))
  ∧ (∀ (s : Chip) (ag : Agent) (t new code : Nat) (v : Word), t < 32 → new = v.toNat % 2 ^ 14 → code = s.evrSubCheck ag t new (s.fld (F.EVR_TSUB_OWNER t)) →
    (s.lockedSec 9 = false → owns ag (s.fld (F.EVR_TSUB_OWNER t)) = false → s.gives (.evrTsubWrite ag t v) (s.setReason R.EVR_STAT Rc.OWNED))
    ∧ (s.lockedSec 9 = true → s.gives (.evrTsubWrite ag t v) (s.setReason R.EVR_STAT Rc.LOCKED))
    ∧ (owns ag (s.fld (F.EVR_TSUB_OWNER t)) = true →
      (s.lockedSec 9 = false → (29 ≤ t → bitOf new 6 = true ∨ bitOf new 13 = true → code = Rc.RANGE)
        ∧ (code = Rc.OK → s.gives (.evrTsubWrite ag t v) ((s.setFld ⟨R.EVR_TSUB t, 13, 0⟩ new).setReason R.EVR_STAT Rc.OK))
        ∧ (code ≠ Rc.OK → code ≠ Rc.SECURITY → s.gives (.evrTsubWrite ag t v) (s.setReason R.EVR_STAT code))
        ∧ (code = Rc.SECURITY → s.gives (.evrTsubWrite ag t v) (Chip.occ (s.setReason R.EVR_STAT Rc.SECURITY) 95))))
    ∧ s.gives (.evrTstatRead ag t) { s.setReg (R.EVR_TSTAT t) (s.reg (R.EVR_TSTAT t) &&& ~~~ 0xFF#36) with rdata := s.reg (R.EVR_TSTAT t) })
  ∧ (∀ (s : Chip) (ag : Agent) (v : Word) (c : Nat), c = v.toNat % 64 →
    (39 < c → s.gives (.evrSwpubWrite ag v) (s.setReason R.EVR_STAT Rc.RANGE))
    ∧ (c ≤ 39 → s.fld (F.EVR_CH_PUB c) ≠ 127 → s.gives (.evrSwpubWrite ag v) (s.setReason R.EVR_STAT Rc.COMBINATION))
    ∧ (c ≤ 39 → s.fld (F.EVR_CH_PUB c) = 127 → ag.code ≠ s.fld (F.EVR_CH_OWNER c) → s.gives (.evrSwpubWrite ag v) (s.setReason R.EVR_STAT Rc.OWNED))
    ∧ (c ≤ 39 → s.fld (F.EVR_CH_PUB c) = 127 → ag.code = s.fld (F.EVR_CH_OWNER c) →
      s.gives (.evrSwpubWrite ag v) { s.setReason R.EVR_STAT Rc.OK with evr := { s.evr with swNext := s.evr.swNext ++ [c] } })
    ∧ s.gives (.evrStatRead ag) { s.setReg R.EVR_STAT (s.reg R.EVR_STAT &&& ~~~ 0xFF000#36) with rdata := s.reg R.EVR_STAT })
  ∧ (∀ (s x y : Chip) (t : Nat), (s.evr.fire.find? (fun p => p.1 = t && p.2.1 ≤ s.now) = none → s.gives (.taskFire t) s)
    ∧ ∀ (k : Nat) (both : Bool), s.evr.fire.find? (fun p => p.1 = t && p.2.1 ≤ s.now) = some (t, k, both) →
      x = { s with evr := { s.evr with fire := s.evr.fire.filter (fun p => p.1 ≠ t || p.2.1 ≠ k) } } →
      (both = true ∧ y = (x.setBit (F.EVR_TSTAT_COIN t) true).count (F.EVR_TSTAT_COINCNT t) ∨ both = false ∧ y = x) →
      (t < 8 → s.gives (.taskFire t) (y.occ (83 + t)))
      ∧ (8 ≤ t → t < 16 → s.gives (.taskFire t)
        { y with pins := { y.pins with latch := { y.pins.latch with evtOut := putBit y.pins.latch.evtOut (t - 8) (!bitOf y.pins.latch.evtOut (t - 8)) } } })
      ∧ (16 ≤ t → t < 24 → (y.bit (F.TMRN_CFG_CAPEN (t - 16)) = true → s.gives (.taskFire t) y) ∧ (y.bit (F.TMRN_CFG_CAPEN (t - 16)) = false → s.gives (.taskFire t) (y.tmrCapture (t - 16) true)))
      ∧ (∀ ag : Agent, ag = Agent.ofCode (y.fld (F.EVR_TSUB_OWNER t)) →
        (t = 24 → s.gives (.taskFire t) (y.taskCmd t R.NFC_STAT (fun c => c.regWrite ag R.NFC_CMD 1)))
        ∧ (t = 25 → s.gives (.taskFire t) (y.taskCmd t R.EGY_STAT (fun c => c.regWrite ag R.EGY_CTL 2)))
        ∧ (t = 26 → s.gives (.taskFire t) (y.taskCmd t R.MON_STAT (fun c => c.regWrite ag R.MON_CTL 2)))
        ∧ (t = 27 → s.gives (.taskFire t) (y.taskCmd t R.SYN_STAT (fun c => c.regWrite ag R.SYN_CMD 1)))
        ∧ (t = 28 → s.gives (.taskFire t) (y.taskCmd t R.RFE_STAT (fun c => c.regWrite ag R.RFE_CMD 1))))
      ∧ (29 ≤ t → s.gives (.taskFire t) y))
  ∧ ∀ (s : Chip) (k : Nat) (b : Bool), (8 ≤ k ∨ s.pinOf (Mean.EVT_IN k) = none → s.gives (.evtInEdge k b) s)
    ∧ ∀ (p : Nat) (x : Chip), k < 8 → s.pinOf (Mean.EVT_IN k) = some p → x = s.drivePin p b →
      (s.inPin p = b ∨ x.inPin p ≠ b → s.gives (.evtInEdge k b) x)
      ∧ (s.inPin p ≠ b → x.inPin p = b → (b = true → s.gives (.evtInEdge k b) (x.publish (96 + k))) ∧ (b = false → s.gives (.evtInEdge k b) (x.publish (104 + k))))

/-! ### Flash, ports and loader -/

/-- The flash controller and the OTP programmer (R508 to R534): of two agents' commands in one cycle the second is BUSY (R509); PROGRAM and ERASE are checked in order; a word is erased where data and check bits are (R506); a word of all ones needs no pulse; the pool's and the protection row's commands; pulses verify,
are repeated up to their limits and end their operation; Squirrel's enable; the password, with its failures counted; OTP programming is checked in order, and its pulses set bits.
It says these forms complete, exec answering a next state under conditions on the state and operands alone: flcProgram, flcErase,
sqopen, sqcommit, sqabandon, sqlevel, proterase, protprog, programPulseEnd, erasePulseEnd, squirrelEnable, flcPwd1Write, flcEccRead,
otpProg, otpPulseEnd. -/
def Obligations.FlashOperations : Prop :=
  (∀ (s : Chip) (op a code : Nat), code = s.flcCheck op a → (s.flcBusy = true → code = Rc.BUSY)
    ∧ (s.flcBusy = false → (isFlash a = false → code = Rc.RANGE)
      ∧ (isFlash a = true → inSealed a = true → code = Rc.SECURITY)
      ∧ (isFlash a = true → inSealed a = false → s.flcOwned op a = true → code = Rc.OWNED)
      ∧ (isFlash a = true → inSealed a = false → s.flcOwned op a = false → s.restrained a 30 = true → code = 0x98)
      ∧ (isFlash a = true → inSealed a = false → s.flcOwned op a = false → s.restrained a 30 = false →
        (op = 1 → s.flashErased a = false → code = Rc.NOT_ERASED) ∧ (op ≠ 1 ∨ s.flashErased a = true → code = Rc.OK))))
  ∧ (∀ (s : Chip) (a : Nat), s.flashErased a = true ↔ s.flashRd a = erasedWord ∧ s.flashErrAt a = false ∧ s.flashOneAt a = false)
  ∧ (∀ (s : Chip) (ag b : Agent) (a : Nat), s.flc.cmdAt = some (s.now, b) → b ≠ ag → ∀ i : Instr, i = .flcProgram ag a ∨ i = .flcErase ag a ∨ i = .sqopen ag a ∨ i = .sqcommit ag a
    ∨ i = .sqabandon ag a ∨ i = .sqlevel ag ∨ i = .proterase ag ∨ i = .protprog ag a → s.gives i (s.flcReason Rc.BUSY))
  ∧ (∀ (z s : Chip) (ag : Agent) (addr a code : Nat) (o : FlOp), (∀ b : Agent, z.flc.cmdAt = some (z.now, b) → b = ag) → s = z.setFlc { z.flc with cmdAt := some (z.now, ag) } →
    a = addr % 2 ^ 24 →
    (code = s.flcCheck 1 a → (code ≠ Rc.OK → z.gives (.flcProgram ag addr) (s.flcReason code))
      ∧ (code = Rc.OK → s.reg R.FLC_DATA = erasedWord → o = { src := .cmd, op := 1, target := a, steps := [], limit := s.fld F.FLC_MAXPULSE_MAXPULSE, spot := a } →
        z.gives (.flcProgram ag addr) (Chip.flcPost (s.setFld F.FLC_RES_PULSES 0) o Rc.OK false))
      ∧ (code = Rc.OK → s.reg R.FLC_DATA ≠ erasedWord → o = { src := .cmd, op := 1, target := a, steps := [.prog a (s.reg R.FLC_DATA)], limit := s.fld F.FLC_MAXPULSE_MAXPULSE, spot := a } →
        z.gives (.flcProgram ag addr) (Chip.makeClaim (s.setFlc { s.flc with op := some o, pulsing := false, pulseTill := none, pulseAt := none }) 6 (s.fld (F.EGY_DECL_PEAK 6))
          (20 * s.fld F.FLC_MAXPULSE_MAXPULSE) false (s.fld (F.EGY_DECL_PCLASS 6)) none none)))
    ∧ (code = s.flcCheck 2 a → (code ≠ Rc.OK → z.gives (.flcErase ag addr) (s.flcReason code))
      ∧ (code = Rc.OK → o = { src := .cmd, op := 2, target := sectorBase a, steps := s.expandSector (sectorBase a) 0, limit := s.fld F.FLC_MAXPULSE_MAXPULSE, spot := sectorBase a } →
        z.gives (.flcErase ag addr) (Chip.flcClaim (s.setFlc { s.flc with op := some o, pulsing := false, pulseTill := none, pulseAt := none }) o))))
  ∧ (∀ (z s : Chip) (ag : Agent) (l sect p q : Nat), (∀ b : Agent, z.flc.cmdAt = some (z.now, b) → b = ag) → s = z.setFlc { z.flc with cmdAt := some (z.now, ag) } →
    l = sect % 64 →
    (s.flcBusy = true → z.gives (.sqopen ag sect) (s.flcReason Rc.BUSY) ∧ z.gives (.sqcommit ag sect) (s.flcReason Rc.BUSY) ∧ z.gives (.sqabandon ag sect) (s.flcReason Rc.BUSY)
      ∧ z.gives (.sqlevel ag) (s.flcReason Rc.BUSY) ∧ z.gives (.proterase ag) (s.flcReason Rc.BUSY) ∧ z.gives (.protprog ag sect) (s.flcReason Rc.BUSY))
    ∧ (s.flcBusy = false → (s.sqWin ≤ l → z.gives (.sqopen ag sect) (s.flcReason Rc.RANGE))
      ∧ (l < s.sqWin → s.sqOpenSector ≠ none ∨ s.flc.sqActive = false → z.gives (.sqopen ag sect) (s.flcReason Rc.BUSY))
      ∧ (l < s.sqWin → s.sqOpenSector = none → s.flc.sqActive = true → (s.sqSpare true = none → z.gives (.sqopen ag sect) (s.flcReason 0x9D))
        ∧ (s.sqSpare true = some p → q = (s.flc.sqSeq + 1) % 2 ^ 24 →
          z.gives (.sqopen ag sect) (Chip.flcAccept (s.setFlc { s.flc with sqSeq := q }) 3 (sqBase p) [.prog (sqBase p + 1) (W (l <<< 24 ||| q))])))
      ∧ (s.sqOpenSector = none → z.gives (.sqcommit ag sect) (s.flcReason Rc.BUSY) ∧ z.gives (.sqabandon ag sect) (s.flcReason Rc.BUSY))
      ∧ (s.sqOpenSector = some p → (s.flc.sqActive = false ∨ s.sqL p ≠ l → z.gives (.sqcommit ag sect) (s.flcReason Rc.BUSY) ∧ z.gives (.sqabandon ag sect) (s.flcReason Rc.BUSY))
        ∧ (s.flc.sqActive = true → s.sqL p = l → (s.sqHolder l = none → z.gives (.sqcommit ag sect) (s.flcAccept 4 (sqBase p) [.prog (sqBase p + 2) (W 0x5C5C5C5C5)]))
          ∧ (s.sqHolder l = some q → z.gives (.sqcommit ag sect)
            (s.flcAccept 4 (sqBase p) (.prog (sqBase p + 2) (W 0x5C5C5C5C5) :: .prog (sqBase q + 3) 0 :: sqErase q (s.sqCount q + 1))))
          ∧ z.gives (.sqabandon ag sect) (s.flcAccept 5 (sqBase p) (.prog (sqBase p + 3) 0 :: sqErase p (s.sqCount p + 1)))))
      ∧ (s.flc.sqActive = false ∨ s.sqLevelDue = true ∧ s.sqOpenSector ≠ none → z.gives (.sqlevel ag) (s.flcReason Rc.BUSY))
      ∧ (s.flc.sqActive = true → s.sqLevelDue = false → z.gives (.sqlevel ag) (s.flcAccept 6 0 []))
      ∧ (s.flc.sqActive = true → s.sqOpenSector = none → (s.sqOf .valid = [] → z.gives (.sqlevel ag) (s.flcAccept 6 0 []))
        ∧ (s.sqLevelDue = true → p ∈ s.sqOf .valid → (∀ r ∈ s.sqOf .valid, s.sqCount p < s.sqCount r ∨ s.sqCount p = s.sqCount r ∧ p ≤ r) →
          (s.sqSpare false = none → z.gives (.sqlevel ag) (s.flcReason 0x9D))
          ∧ ∀ (n : Nat) (copy : List FlStep), s.sqSpare false = some q → n = (s.flc.sqSeq + 1) % 2 ^ 24 →
            copy = ((List.range 1020).map (· + 4)).filterMap (fun i => if s.flashRd (sqBase p + i) = erasedWord then none else some (FlStep.prog (sqBase q + i) (s.flashRd (sqBase p + i)))) →
            z.gives (.sqlevel ag) (Chip.flcAccept (s.setFlc { s.flc with sqSeq := n }) 6 (sqBase q)
              (.prog (sqBase q + 1) (W (s.sqL p <<< 24 ||| n)) :: (copy ++ s.sqCommitSteps q (s.sqL p))))))
      ∧ (s.flc.unlocked = false → z.gives (.proterase ag) (s.flcReason 0x98)) ∧ (s.flc.unlocked = true → z.gives (.proterase ag) (s.flcAccept 7 0 [.erase protBase]))
      ∧ (∀ v : Word, v = s.reg R.FLC_DATA → (18 < l ∨ l < 16 ∧ (bits v.toNat 35 32 ≠ 0 ∨ bits v.toNat 19 10 < bits v.toNat 9 0) → z.gives (.protprog ag sect) (s.flcReason Rc.RANGE))
        ∧ (l ≤ 18 → 16 ≤ l ∨ bits v.toNat 35 32 = 0 ∧ bits v.toNat 9 0 ≤ bits v.toNat 19 10 → (s.flc.unlocked = false → z.gives (.protprog ag sect) (s.flcReason 0x98))
          ∧ (s.flc.unlocked = true → (s.flashErased (protBase + l) = false → z.gives (.protprog ag sect) (s.flcReason Rc.NOT_ERASED))
            ∧ (s.flashErased (protBase + l) = true → (v = erasedWord → z.gives (.protprog ag sect) (Chip.flcAccept (s.setFld F.FLC_RES_PULSES 0) 8 l []))
              ∧ (v ≠ erasedWord → z.gives (.protprog ag sect) (s.flcAccept 8 l [.prog (protBase + l) v]))))))))
  ∧ (∀ (s : Chip) (b : Bool), s.flc.op = none ∨ s.flc.pulsing = false → s.gives (.programPulseEnd b) s ∧ s.gives (.erasePulseEnd b) s)
  ∧ (∀ (s x : Chip) (o : FlOp) (a n : Nat) (v : Word) (l : List FlStep), s.flc.op = some o → s.flc.pulsing = true → n = o.pulses + 1 →
    (o.steps = .prog a v :: l → (∀ b : Bool, s.gives (.erasePulseEnd b) s)
      ∧ (∀ k, s.pwr.resetWait = some k → ∀ b : Bool, s.gives (.programPulseEnd b) (s.keepOwlReset k))
      ∧ (s.pwr.resetWait = none →
        s.gives (.programPulseEnd true) ((Chip.flcNext (((s.flashPut a v).notePulses n).endGrant 6) { o with steps := l }).flcServe)
        ∧ (o.limit ≤ n → s.gives (.programPulseEnd false) ((Chip.flcPost ((s.notePulses n).endGrant 6) o 0x9B true).flcServe))
        ∧ (n < o.limit → x = s.setFlc { s.flc with op := some { o with pulses := n }, pulseTill := some (s.now + us 16), pulseAt := some (s.now + us 20) } →
          ((s.grantOf 6).any Grant.marked = false → s.gives (.programPulseEnd false) x)
          ∧ ((s.grantOf 6).any Grant.marked = true → s.gives (.programPulseEnd false) (Chip.preemptStop (x.setFlc { x.flc with pulsing := false, pulseTill := none, pulseAt := none }) 6)))))
    ∧ (o.steps = .erase a :: l → (∀ b : Bool, s.gives (.programPulseEnd b) s)
      ∧ (∀ k, s.pwr.resetWait = some k → ∀ b : Bool, s.gives (.erasePulseEnd b) (s.keepOwlReset k))
      ∧ (s.pwr.resetWait = none → s.gives (.erasePulseEnd true) ((Chip.flcNext (((s.endGrant 6).flashClear a).erasedAgain o.src a) { o with steps := l }).flcServe)
        ∧ (8 ≤ n → a < 0x200000 → ∀ (j : Nat) (w : Word) (l' : List FlStep), 0x1000000 ≤ j → l = .prog j w :: l' →
          s.gives (.erasePulseEnd false) ((Chip.flcNext (s.endGrant 6) { o with steps := [.prog j w], result := 0x9C }).flcServe))
        ∧ (8 ≤ n → l = [] ∨ 0x200000 ≤ a → s.gives (.erasePulseEnd false) ((Chip.flcNext (s.endGrant 6) { o with steps := [], result := 0x9C }).flcServe))
        ∧ (n < 8 → x = s.endGrant 6 → s.gives (.erasePulseEnd false)
          (Chip.flcClaim (x.setFlc { x.flc with op := some { o with pulses := n }, pulsing := false, pulseTill := none, pulseAt := none }) { o with pulses := n })))))
  ∧ (∀ (s : Chip) (src : FlSrc) (a : Nat), s.erasedAgain src a
    = if (src = .rom ∨ src = .loader) ∧ s.bit F.FLC_INTR_VALID = true ∧ sectorBase (s.fld ⟨R.FLC_INTR, 23, 0⟩) = a then s.setBit F.FLC_INTR_VALID false else s)
  ∧ (∀ (s x : Chip) (ag : Agent) (code : Nat) (steps : List FlStep), code = s.sqEnableCheck → steps = (List.range 64).flatMap s.sqRecover →
    (s.bit F.FLC_CTL_SQEN = true → s.gives (.squirrelEnable ag) s)
    ∧ (s.bit F.FLC_CTL_SQEN = false → (s.sqWin < 8 ∨ 60 < s.sqWin ∨ s.fld F.FLC_SQCFG_LVLTHR = 0 → code = Rc.RANGE)
      ∧ (code ≠ Rc.OK → s.gives (.squirrelEnable ag) (s.flcReason code))
      ∧ (code = Rc.OK → x = ((s.setBit F.FLC_CTL_SQEN true).flcReason Rc.OK).setFlc { s.flc with sqSeq := listMax (((s.sqOf .valid) ++ (s.sqOf .open) ++ (s.sqOf .retired)).map s.sqSeqOf), sqStop := false } →
        (steps = [] → s.gives (.squirrelEnable ag) (x.setFlc { x.flc with sqActive := true })) ∧ (steps ≠ [] → s.gives (.squirrelEnable ag) (x.flcRequest .squirrel (sqBase 0) steps)))))
  ∧ (∀ (s : Chip) (ag : Agent) (v : Word), (s.bit F.FLC_STAT_LOCKOUT = true → s.gives (.flcPwd1Write ag v) (s.flcReason 0x9A))
    ∧ (s.bit F.FLC_STAT_LOCKOUT = false → (s.password = none → s.gives (.flcPwd1Write ag v) (s.flcReason Rc.OK))
      ∧ (∀ w : Word, s.password = some (s.flc.pwd0.getD ag.code 0, w) → v = w →
        s.gives (.flcPwd1Write ag v) (Chip.flcReason (Chip.setFld (s.setFlc { s.flc with unlocked := true }) F.FLC_STAT_FAILS 0) Rc.OK))
      ∧ ∀ h w : Word, s.password = some (h, w) → h ≠ s.flc.pwd0.getD ag.code 0 ∨ v ≠ w → s.fld F.FLC_STAT_FAILS < 8 →
        s.gives (.flcPwd1Write ag v) (Chip.flcReason ((s.setFld F.FLC_STAT_FAILS (s.fld F.FLC_STAT_FAILS + 1)).setBit F.FLC_STAT_LOCKOUT (7 ≤ s.fld F.FLC_STAT_FAILS)) 0x99))
    ∧ s.gives (.flcEccRead ag) { s.setReg R.FLC_ECC (s.reg R.FLC_ECC &&& ~~~ 0x7FF000000#36) with rdata := s.reg R.FLC_ECC })
  ∧ (∀ (s : Chip) (ag : Agent) (w : Nat) (d : Word), w = s.fld F.OTP_ADDR_WORD → d = s.reg R.OTP_DATA →
    (s.flcBusy = true → s.gives (.otpProg ag) (s.otpReason Rc.BUSY))
    ∧ (s.flcBusy = false → (57 ≤ w ∧ w ≤ 62 ∨ (8 ≤ w ∧ w ≤ 39 ∨ w = 56) ∧ bits d.toNat 35 32 ≠ 0 → s.gives (.otpProg ag) (s.otpReason Rc.RANGE))
      ∧ ((w < 57 ∨ 62 < w) → ¬ ((8 ≤ w ∧ w ≤ 39) ∨ w = 56) ∨ bits d.toNat 35 32 = 0 → (s.otpLocked w = true → s.gives (.otpProg ag) (s.otpReason Rc.LOCKED))
        ∧ (s.otpLocked w = false → ∀ t : Int, t = signed 9 (s.fld F.EGY_STAT_TEMP) → (t < 0 ∨ 85 < t → s.gives (.otpProg ag) (s.otpReason Rc.THERMAL))
          ∧ (0 ≤ t → t ≤ 85 → (s.otpRd w ||| d = s.otpRd w → s.gives (.otpProg ag) (s.otpReason Rc.OK))
            ∧ (s.otpRd w ||| d ≠ s.otpRd w → s.gives (.otpProg ag)
              (Chip.claim (Chip.setBit (s.setFlc { s.flc with otp := some { word := w, data := d } }) F.OTP_STAT_BUSY true) 6 (s.fld (F.EGY_DECL_PEAK 6)) 150 false)))))))
  ∧ ∀ (s x : Chip) (o : OtpOp), (s.flc.otp = none ∨ s.flc.pulsing = false → s.gives (.otpPulseEnd true) s ∧ s.gives (.otpPulseEnd false) s)
    ∧ (s.flc.otp = some o → s.flc.pulsing = true →
      (x = { s with otp := Cells.set zeroWord s.otp o.word (s.otpRd o.word ||| o.data) } → s.gives (.otpPulseEnd true) ((x.endGrant 6).otpEnd Rc.OK))
      ∧ (o.attempts < 2 → ∀ y : Chip, y = s.setFlc { s.flc with otp := some { o with attempts := o.attempts + 1 }, pulseAt := some (s.now + us 50) } →
        ((y.grantOf 6).any Grant.marked = false → s.gives (.otpPulseEnd false) y)
        ∧ ((y.grantOf 6).any Grant.marked = true → s.gives (.otpPulseEnd false) (Chip.preemptStop (y.setFlc { y.flc with pulsing := false, pulseAt := none }) 6)))
      ∧ (2 ≤ o.attempts → x = { s.draw with otp := Cells.set zeroWord s.otp o.word (s.otpRd o.word ||| (o.data &&& Config.freeWord s.free)) } →
        s.gives (.otpPulseEnd false) ((x.endGrant 6).otpEnd 0x9B)))

/-- The host port (R536 to R548): its enable; a transfer that the port does not hear is only edges at P4; reads outside the mirror send markers and queue a fetch; version 3 carries check words;
an offer chooses the version; version 1's byte protocol, its octets with the dummy byte and the highest bits of a word first; fetches and posted writes; the doorbell, which rings for a bit that is set already too; the counts clear when read.
It says these forms complete, exec answering a next state under conditions on the state and operands alone: hpEnable, hostRead,
hostReadf, hostWrite, hostWritef, hostOffer, hostV1Read, hostV1Write, hostFetchDone, hostPostedWrite, hpDbellWrite, hpCntRead. -/
def Obligations.HostPort : Prop :=
  (∀ (s x y : Chip) (ag : Agent), (s.bit F.HP_CTL_EN = true → s.gives (.hpEnable ag) s)
    ∧ (s.bit F.HP_CTL_EN = false → y = s.hpSelect → (s.prov 12 = false → s.gives (.hpEnable ag) (y.setReason R.HP_STAT Rc.CLOCK_OFF))
      ∧ (s.prov 12 = true → (∃ p ∈ [(4, Mean.HCS), (5, Mean.HCK), (6, Mean.HDI), (7, Mean.HDO)], meanIn (s.pinMap p.1) .run ≠ p.2 ∨ meanIn (s.pinMap p.1) .slot ≠ p.2) →
        s.gives (.hpEnable ag) (y.setReason R.HP_STAT Rc.PIN_PHASE))
      ∧ (s.prov 12 = true → (∀ p ∈ [(4, Mean.HCS), (5, Mean.HCK), (6, Mean.HDI), (7, Mean.HDO)], meanIn (s.pinMap p.1) .run = p.2 ∧ meanIn (s.pinMap p.1) .slot = p.2) →
        (y.holds 10 = true ∧ x = y ∨ y.holds 10 = false ∧ x = y.claimNow 10 (y.fld (F.EGY_DECL_PEAK 10))) →
        (x.holds 10 = true → s.gives (.hpEnable ag) (x.enableBlock .hp)) ∧ (x.holds 10 = false → s.gives (.hpEnable ag) ((x.release 10).setReason R.HP_STAT Rc.BUDGET)))))
  ∧ (∀ (s x : Chip) (i : Instr) (cmd n addr k hi lo : Nat) (ws : List Word), s.hpHears = false →
    (s.padIn 4 = true ∧ x = s.wakePinEdge 4 false ∨ s.padIn 4 = false ∧ x = s) →
    i = .hostRead n addr k ∨ i = .hostReadf n addr k ∨ i = .hostWrite n addr ws ∨ i = .hostWritef n addr ws ∨ i = .hostOffer cmd hi lo ∨ i = .hostV1Read addr k ∨ i = .hostV1Write addr ws →
    s.gives i (x.wakePinEdge 4 true))
  ∧ (∀ (s x : Chip) (i : Instr) (cmd n addr k hi lo : Nat) (ws : List Word), s.hpHears = true →
    x = (Chip.hpReason { s.count F.HP_CNT_BADCMD with hp := { s.hp with hdo := if s.hpVer = 1 then [] else [s.hstatView], octs := [] } } 0xA0) →
    (s.hpVer < 2 → i = .hostRead n addr k ∨ i = .hostReadf n addr k ∨ i = .hostWrite n addr ws ∨ i = .hostWritef n addr ws → s.gives i x)
    ∧ (2 ≤ s.hpVer → i = .hostV1Read addr k ∨ i = .hostV1Write addr ws → s.gives i x)
    ∧ (cmd ≠ 0xA5 ∨ s.hpVer = 1 → s.gives (.hostOffer cmd hi lo) x)
    ∧ (s.hpVer = 0 → 1 < (s.offer 0).1 → i = .hostV1Read addr k ∨ i = .hostV1Write addr ws → s.gives i (Chip.hpReason { s with hp := { s.hp with hdo := [s.hstatView] } } Rc.VERSION)))
  ∧ (∀ (s : Chip) (fixed : Bool) (n addr k : Nat) (x : List Word × Chip) (tail : List Word), s.hpHears = true → 2 ≤ s.hpVer → x = s.hostData fixed n addr (min n k) →
    tail = (if k ≤ n then [] else (if s.hpVer = 3 then checkWord ((if fixed then 3 else 1) <<< 32 ||| (n - 1) <<< 24 ||| addr) x.1 else 0) :: List.replicate (k - n - 1) 0) →
    s.gives (if fixed then .hostReadf n addr k else .hostRead n addr k) { x.2 with hp := { x.2.hp with hdo := s.hstatView :: x.1 ++ tail } })
  ∧ (∀ (s : Chip) (fixed : Bool) (n addr k : Nat), ((∀ a ∈ hostAddrs fixed addr n, isMirror a = true) → s.hostData fixed n addr k = (s.hpReason Rc.OK).mirrorReads (hostAddrs fixed addr k))
    ∧ ((∃ a ∈ hostAddrs fixed addr n, isMirror a = false) → (s.hostData fixed n addr k).1 = List.replicate k (W 0x3FFFFFFFE)
      ∧ (s.hp.fetch = none → (s.hostData fixed n addr k).2 = { s.hpReason Rc.OK with hp := { s.hp with fetch := some { fixed := fixed, n := min n 256, addr := addr, behind := s.hp.posts.length } } })
      ∧ (s.hp.fetch ≠ none → (s.hostData fixed n addr k).2 = (s.hpReason Rc.OK).hpReason 0xA4)))
  ∧ (∀ (s x : Chip) (fixed : Bool) (n addr : Nat) (ws : List Word), s.hpHears = true → x = { s with hp := { s.hp with hdo := [s.hstatView] } } →
    (2 ≤ s.hpVer → s.hpVer ≠ 3 → s.gives (if fixed then .hostWritef n addr ws else .hostWrite n addr ws) ((x.hpReason Rc.OK).hostPuts ((hostAddrs fixed addr n).zip (ws.take n))))
    ∧ (s.hpVer = 3 → (ws.length ≤ n → s.gives (if fixed then .hostWritef n addr ws else .hostWrite n addr ws) x)
      ∧ (n < ws.length → ws.getD n 0 = checkWord ((if fixed then 4 else 2) <<< 32 ||| (n - 1) <<< 24 ||| addr) (ws.take n) →
        s.gives (if fixed then .hostWritef n addr ws else .hostWrite n addr ws) ((x.hpReason Rc.OK).hostPuts ((hostAddrs fixed addr n).zip (ws.take n))))
      ∧ (n < ws.length → ws.getD n 0 ≠ checkWord ((if fixed then 4 else 2) <<< 32 ||| (n - 1) <<< 24 ||| addr) (ws.take n) →
        s.gives (if fixed then .hostWritef n addr ws else .hostWrite n addr ws) (Chip.hpReason (x.count F.HP_CNT_CHKFAIL) 0xA2))))
  ∧ (∀ (s : Chip) (a : Nat) (v : Word), (isMirror a = true → s.hostPut a v = s.ioWrite .host false a v)
    ∧ (isMirror a = false → (s.hp.posts.length < 16 → s.hostPut a v = { s with hp := { s.hp with posts := s.hp.posts ++ [(a, v)] } })
      ∧ (16 ≤ s.hp.posts.length → s.hostPut a v = ((s.setBit F.HP_HSTAT_DROP true).count F.HP_CNT_DROPS).hpReason 0xA1)))
  ∧ (∀ (s : Chip) (hi lo : Nat), s.hpHears = true → s.hpVer ≠ 1 → ∀ ans : Chip → Nat → Nat → Chip,
    (∀ c v code, ans c v code = Chip.hpReason { c with hp := { c.hp with hdo := [s.hstatView, W (v <<< 8 ||| code)] } } code) →
    (hi < lo → s.gives (.hostOffer 0xA5 hi lo) (ans s 0 Rc.RANGE))
    ∧ (lo ≤ hi → max (s.offer 0).1 lo ≤ min (s.offer 0).2 hi → s.gives (.hostOffer 0xA5 hi lo) (ans (s.setFld F.HP_STAT_VER (min (s.offer 0).2 hi)) (min (s.offer 0).2 hi) Rc.OK))
    ∧ (lo ≤ hi → min (s.offer 0).2 hi < max (s.offer 0).1 lo → s.gives (.hostOffer 0xA5 hi lo) (ans s.hpSelect 0 Rc.VERSION)))
  ∧ (∀ (s x : Chip) (addr k : Nat) (ws : List Word), s.hpHears = true → (s.hpVer = 1 ∧ x = s ∨ s.hpVer = 0 ∧ (s.offer 0).1 ≤ 1 ∧ x = s.setFld F.HP_STAT_VER 1) →
    (k = 0 → s.gives (.hostV1Read addr k) { x.hpReason Rc.OK with hp := { x.hp with hdo := [], octs := [0, 0, 0, 0, 0] } })
    ∧ (∀ y : List Word × Chip, k ≠ 0 → y = x.hostData false k addr k → s.gives (.hostV1Read addr k)
      { y.2 with hp := { y.2.hp with hdo := [], octs := [0, 0, 0, 0, 0] ++ y.1.flatMap (fun w => [32, 24, 16, 8, 0].map (fun j => BitVec.ofNat 8 (w.toNat / 2 ^ j))) } })
    ∧ (∀ y : Chip, y = { x with hp := { x.hp with hdo := [], octs := List.replicate (4 + 5 * ws.length) 0 } } → s.gives (.hostV1Write addr ws) ((y.hpReason Rc.OK).hostPuts ((hostAddrs false addr ws.length).zip ws))))
  ∧ (∀ (s x : Chip) (f : HostFetch), (s.hp.fetch = none → s.gives .hostFetchDone s)
    ∧ (s.hp.fetch = some f → (f.behind ≠ 0 → s.gives .hostFetchDone s)
      ∧ (f.behind = 0 → x = Chip.fetchWords { s with hp := { s.hp with fetch := none } } 0 (hostAddrs f.fixed f.addr f.n) →
        s.gives .hostFetchDone ((x.setReg R.HP_FADDR (W (f.fixed.toNat <<< 32 ||| (f.n - 1) <<< 24 ||| f.addr))).setBit F.HP_HSTAT_FDONE true))))
  ∧ (∀ (s x : Chip) (a : Nat) (v : Word) (l : List (Nat × Word)), (s.hp.posts = [] → s.gives .hostPostedWrite s)
    ∧ (s.hp.posts = (a, v) :: l → (s.hp.fetch = none ∧ x = { s with hp := { s.hp with posts := l } }
        ∨ ∃ f, s.hp.fetch = some f ∧ x = { s with hp := { s.hp with posts := l, fetch := some { f with behind := f.behind - 1 } } }) →
      (isSram a = true → s.gives .hostPostedWrite ((x.bankTake .host a).2.wr a v)) ∧ (isSram a = false → isReg a = true → s.gives .hostPostedWrite (x.ioWrite .host false a v))
      ∧ (isSram a = false → isReg a = false → s.gives .hostPostedWrite (Chip.hpReason (x.setBit F.HP_HSTAT_WERR true) 0xA3))))
  ∧ ∀ (s : Chip) (ag : Agent) (v : Word), (v = 0 → s.gives (.hpDbellWrite v) (s.setReg R.HP_DBELL (s.reg R.HP_DBELL ||| v)))
    ∧ (v ≠ 0 → s.gives (.hpDbellWrite v) (Chip.occ (s.setReg R.HP_DBELL (s.reg R.HP_DBELL ||| v)) 80))
    ∧ s.gives (.hpCntRead ag) { s.setReg R.HP_CNT 0 with rdata := s.reg R.HP_CNT }

/-- The service port (R549 to R553), Vole and the loader (R569 to R578): a request in a rest state wakes the chip and is lost; a repeated request takes the answer that was held; a request without a session,
a wrong check word, which in version 2 every request carries, and an address without a target are faults; cores are halted, run, stepped, read and written; the session closes; a step into a vector of the reset VBR leaves the core stopped before it; Vole starts, if its image checks good,
when the other cores stand still, and a Fox A that it parked never leaves WAIT; the loader takes a
command in its turn, checks its buffer, and erases, programs and checks what it is given.
It says these forms complete, exec answering a next state under conditions on the state and operands alone: svcOpen, svcRead,
svcWrite, svcHalt, svcRun, svcStep, svcRegrd, svcRegwr, svcReset, svcClose, svcStatus, svcLineReset, svcSessionTimeout, voleStart,
loaderBegin, loaderData, loaderCommit, loaderStream, voleIdleTimeout. -/
def Obligations.ServicePortAndLoader : Prop :=
  (∀ (s x : Chip) (q : SvcLine) (late : Bool) (i : Instr) (req n addr m c r hi lo op : Nat) (data ws : List Word) (v : Word) (chk k : Option Word) (f : Chip → SvcOut),
    (i = .svcOpen q hi lo ∧ req = svcWord 0 1 (hi <<< 8 ||| lo) ∧ data = [] ∧ late = q.late ∧ k = q.chk ∧ f = (fun s => s.svcOpen hi lo)
      ∨ i = .svcRead q n addr ∧ req = svcWord 1 n addr ∧ data = [] ∧ late = q.late ∧ k = q.chk ∧ f = (fun s => s.svcRead n addr)
      ∨ i = .svcWrite late addr ws chk ∧ req = svcWord 2 ws.length addr ∧ data = ws ∧ k = chk ∧ f = (fun s => s.svcWrite addr ws)
      ∨ i = .svcHalt q m ∧ req = svcWord 3 1 m ∧ data = [] ∧ late = q.late ∧ k = q.chk ∧ f = (fun s => s.svcHaltReq m)
      ∨ i = .svcRun q m ∧ req = svcWord 4 1 m ∧ data = [] ∧ late = q.late ∧ k = q.chk ∧ f = (fun s => s.svcRunReq m)
      ∨ i = .svcStep q c ∧ req = svcWord 5 1 c ∧ data = [] ∧ late = q.late ∧ k = q.chk ∧ f = (fun s => s.svcStepReq c)
      ∨ i = .svcRegrd q c r ∧ req = svcWord 6 1 (c <<< 16 ||| r) ∧ data = [] ∧ late = q.late ∧ k = q.chk ∧ f = (fun s => s.svcRegrd c r)
      ∨ i = .svcRegwr late c r v chk ∧ req = svcWord 7 1 (c <<< 16 ||| r) ∧ data = [v] ∧ k = chk ∧ f = (fun s => s.svcRegwr c r v)
      ∨ i = .svcReset q addr ∧ req = svcWord 8 1 addr ∧ data = [] ∧ late = q.late ∧ k = q.chk ∧ f = (fun s => s.svcResetReq addr)
      ∨ i = .svcClose q ∧ req = svcWord 9 1 0 ∧ data = [] ∧ late = q.late ∧ k = q.chk ∧ f = (fun s => s.svcCloseReq)
      ∨ i = .svcStatus q op ∧ req = svcWord op 1 0 ∧ data = [] ∧ late = q.late ∧ k = q.chk ∧ f = (fun s => s.svcStatusReq op)) →
    (s.pwr.st = .sleep ∨ s.pwr.st = .hibernate ∨ s.pwr.entering.isSome = true → x = s.svcWakeEdge → s.gives i { x with svc := { x.svc with lost := true, edgeAt := x.now, ack := 0, resp := [] } })
    ∧ (s.pwr.st ≠ .sleep → s.pwr.st ≠ .hibernate → s.pwr.entering = none → s.pwr.st ≠ .run ∨ s.pwr.bootPending = true ∨ s.boot.ph = .dead ∨ s.svc.lost = true →
      s.gives i { s with svc := { s.svc with edgeAt := s.now, ack := 0, resp := [] } })
    ∧ (s.pwr.st = .run → s.pwr.entering = none → s.pwr.bootPending = false → s.boot.ph ≠ .dead → s.svc.lost = false → ∀ o : SvcOut,
      (x = { s with svc := { s.svc with edgeAt := s.now, held := none } } →
        (s.fld F.SVC_STAT_VER ≠ 2 ∨ k = some (checkWord req data)) ∧
          ((∃ (a : Nat) (w : List Word), s.svc.held = some (req :: data.map BitVec.toNat, a, w) ∧ o = { ack := a, words := w, chip := x })
            ∨ s.svc.held.any (fun h => h.1 = req :: data.map BitVec.toNat) = false ∧ o = f x)
        ∨ s.fld F.SVC_STAT_VER = 2 ∧ k ≠ some (checkWord req data) ∧ o = { ack := 4, words := [W 0xA2], chip := x.setReason R.SVC_STAT 0xA2 } →
        (late = false → (o.ack = 1 → s.fld F.SVC_STAT_VER = 2 → s.gives i { o.chip with svc := { o.chip.svc with ack := 1, resp := o.words ++ [checkWord req o.words] } })
          ∧ (o.ack ≠ 1 ∨ s.fld F.SVC_STAT_VER ≠ 2 → s.gives i { o.chip with svc := { o.chip.svc with ack := o.ack, resp := o.words } }))
        ∧ (late = true → s.gives i { o.chip with svc := { o.chip.svc with held := some (req :: data.map BitVec.toNat, o.ack, o.words), ack := 2, resp := [] } }))))
  ∧ (∀ (s : Chip) (o : SvcOut) (n addr m c r hi lo op : Nat) (ws : List Word) (v : Word), s.bit F.SVC_STAT_SESSION = false →
    o = { ack := 4, words := [W 0xA5], chip := s.setReason R.SVC_STAT 0xA5 } →
    s.svcRead n addr = o ∧ s.svcWrite addr ws = o ∧ s.svcHaltReq m = o ∧ s.svcRunReq m = o ∧ s.svcStepReq c = o ∧ s.svcRegrd c r = o ∧ s.svcRegwr c r v = o ∧ s.svcResetReq addr = o
      ∧ s.svcCloseReq = o ∧ s.svcStatusReq op = o
      ∧ (lo ≤ hi → max (s.offer 2).1 lo ≤ min (s.offer 2).2 hi → s.svcOpen hi lo = svcOk (Chip.setFld (Chip.occ (s.setBit F.SVC_STAT_SESSION true) 81) F.SVC_STAT_VER (min (s.offer 2).2 hi)) [W (min (s.offer 2).2 hi <<< 8)])
      ∧ (hi < lo → s.svcOpen hi lo = { ack := 1, words := [W Rc.RANGE], chip := (s.setReason R.SVC_STAT Rc.OK).setReason R.SVC_STAT Rc.RANGE })
      ∧ (lo ≤ hi → min (s.offer 2).2 hi < max (s.offer 2).1 lo → s.svcOpen hi lo = { ack := 1, words := [W Rc.VERSION], chip := (s.setReason R.SVC_STAT Rc.OK).setReason R.SVC_STAT Rc.VERSION }))
  ∧ (∀ (s t : Chip) (n addr m r hi lo op : Nat) (ws : List Word) (v : Word) (c : Core), s.bit F.SVC_STAT_SESSION = true →
    (hi < lo → s.svcOpen hi lo = { ack := 1, words := [W Rc.RANGE], chip := (s.setReason R.SVC_STAT Rc.OK).setReason R.SVC_STAT Rc.RANGE })
    ∧ (lo ≤ hi → max (s.offer 2).1 lo ≤ min (s.offer 2).2 hi → s.svcOpen hi lo = svcOk (s.setFld F.SVC_STAT_VER (min (s.offer 2).2 hi)) [W (min (s.offer 2).2 hi <<< 8)])
    ∧ (lo ≤ hi → min (s.offer 2).2 hi < max (s.offer 2).1 lo → s.svcOpen hi lo = { ack := 1, words := [W Rc.VERSION], chip := (s.svcClose.setReason R.SVC_STAT Rc.OK).setReason R.SVC_STAT Rc.VERSION })
    ∧
    (∀ l, s.svcReads (hostAddrs false addr n) = (some l, t) → s.svcRead n addr = svcOk t l)
    ∧ (s.svcReads (hostAddrs false addr n) = (none, t) → s.svcRead n addr = svcFault t 0xA3)
    ∧ (s.svcWrites ((hostAddrs false addr ws.length).zip ws) = (true, t) → s.svcWrite addr ws = svcOk t [])
    ∧ (s.svcWrites ((hostAddrs false addr ws.length).zip ws) = (false, t) → s.svcWrite addr ws = svcFault t 0xA3)
    ∧ s.svcHaltReq m = svcOk (s.onCores m CoreSt.halt) [] ∧ s.svcRunReq m = svcOk (s.onCores m (fun x => { x with halted := false })) []
    ∧ ((s.core c).stopped = false → s.svcStepReq c.cid = svcFault s Rc.BUSY ∧ s.svcRegrd c.cid r = svcFault s Rc.BUSY ∧ s.svcRegwr c.cid r v = svcFault s Rc.BUSY)
    ∧ ((s.core c).stopped = true → s.svcStepReq c.cid = svcOk (s.svcStepCore c) []
      ∧ s.svcRegrd c.cid 0 = svcOk s [(s.core c).a] ∧ s.svcRegrd c.cid 1 = svcOk s [(s.core c).x.setWidth 36] ∧ s.svcRegrd c.cid 3 = svcOk s [(s.core c).pc.setWidth 36]
      ∧ s.svcRegwr c.cid 0 v = svcOk (s.setCore c { s.core c with a := v }) [] ∧ s.svcRegwr c.cid 2 v = svcOk (s.setCore c { s.core c with y := v.setWidth 24 }) []
      ∧ (4 ≤ r → r < 16 → s.svcRegrd c.cid r = svcFault s Rc.RANGE ∧ s.svcRegwr c.cid r v = svcFault s Rc.RANGE))
    ∧ (addr % 2 = 1 → s.svcResetReq addr = { ack := 0, words := [], chip := s.svcEnd.requestReset .svc }) ∧ (addr % 2 = 0 → s.svcResetReq addr = svcFault s 0xA0)
    ∧ s.svcCloseReq = svcOk s.svcClose [] ∧ s.svcStatusReq 10 = svcOk s [s.svcStatView] ∧ (op ≠ 10 → s.svcStatusReq op = svcFault s 0xA0))
  ∧ (∀ s x : Chip, (s.bit F.SVC_STAT_SESSION = false ∨ s.now < s.svc.edgeAt + secs 1 → s.gives .svcSessionTimeout s)
    ∧ (s.bit F.SVC_STAT_SESSION = true → s.svc.edgeAt + secs 1 ≤ s.now → x = Chip.onCores (((s.setBit F.SVC_STAT_SESSION false).setFld F.SVC_STAT_VER 0).setBit F.WDT_CTL_DBGPAUSE false) 7 (fun x => { x with halted := false }) →
      s.gives .svcSessionTimeout (Chip.voleLeft (x.occ 81)))
    ∧ (∀ k : Nat, s.pwr.st ≠ .sleep → s.pwr.st ≠ .hibernate → s.pwr.entering = none → (k < 50 → s.gives (.svcLineReset k) { s with svc := { s.svc with edgeAt := s.now } })
      ∧ (50 ≤ k → s.gives (.svcLineReset k) { s with svc := { s.svc with edgeAt := s.now, lost := false } }))
    ∧ (∀ k : Nat, s.pwr.st = .sleep ∨ s.pwr.st = .hibernate ∨ s.pwr.entering.isSome = true → x = s.svcWakeEdge →
      s.gives (.svcLineReset k) { x with svc := { x.svc with edgeAt := x.now } }))
  ∧ (∀ (s : Chip) (h : List Nat), h = s.header voleBase →
    ((s.core .foxA).run ≠ .run ∨ (s.core .foxA).halted = true ∨ (s.core .foxA).pc.toNat ≠ bits (h.getD 5 0) 23 0 ∨ s.ldr.who ≠ .off ∨ s.voleGood = false → s.gives .voleStart s)
    ∧ ((s.core .foxA).run = .run → (s.core .foxA).halted = false → (s.core .foxA).pc.toNat = bits (h.getD 5 0) 23 0 → s.ldr.who = .off → s.voleGood = true →
      (s.voleAlone = true → s.gives .voleStart (Chip.loaderReady (Chip.voleRuns (s.wrs 0x10000 (s.flashRds (voleBase + 16) (bits (h.getD 2 0) 18 0))) (bits (h.getD 2 0) 18 0)) 2))
      ∧ (s.voleAlone = false → s.gives .voleStart (Chip.volePark (s.draw.wr (lcb + 1) (lcbStatus (Config.freeNat s.free % 256) false false Rc.BUSY)))))
    ∧ (s.ldr.who ≠ .vole ∨ s.ldr.job ≠ .idle ∨ s.now < s.ldr.lastCmd + secs 60 → s.gives .voleIdleTimeout s)
    ∧ (s.ldr.who = .vole → s.ldr.job = .idle → s.ldr.lastCmd + secs 60 ≤ s.now → (s.ldr.started = true → s.gives .voleIdleTimeout (s.wdtEnable.wdtKick 0)) ∧ (s.ldr.started = false → s.gives .voleIdleTimeout s.volePark))
    ∧ (s.ldr.parked = true → s.endWait .foxA = s) ∧ (s.volePark.cores.foxA.run = .wait ∧ s.volePark.ldr.parked = true ∧ stBit s.volePark.cores.foxA.st St.IE = false)
    ∧ (s.voleGood = true ↔ s.imageCheck true false = Rc.OK)
    ∧ (∀ (c : Core) (u : Chip), u = (s.setCore c { s.core c with halted := false }).stepCore c → (u.core c).run = .lockup →
      (s.svcStepCore c).core c = { u.core c with run := if (u.core c).tcause.toNat % 256 = 0xB6 then .lockup else .run, halted := true }))
  ∧ (∀ s : Chip, s.ldr.who = .off ∨ s.ldr.job ≠ .idle ∨ s.ldrSeqOf = bits (s.lcbWord 1) 31 24 → s.gives .loaderBegin s ∧ s.gives .loaderData s ∧ s.gives .loaderCommit s ∧ s.gives .loaderStream s)
  ∧ ∀ (s x : Chip) (n : Nat) (hd : List Nat), s.ldr.who ≠ .off → s.ldr.job = .idle → s.ldrSeqOf ≠ bits (s.lcbWord 1) 31 24 → x = s.ldrTake → n = x.ldrCount →
    (s.ldrOp = 0 ∨ 4 < s.ldrOp → x.ldrOp ≠ 1 → s.gives .loaderBegin (x.ldrDone Rc.RANGE))
    ∧ (s.ldrOp = 1 → x.ldrOp = 1 →
      (x.ldrArg / 2 ≠ 0 ∨ bitOf x.ldrArg 0 = true ∧ x.ldr.who = .vole → s.gives .loaderBegin (x.ldrDone Rc.RANGE))
      ∧ (x.ldrArg / 2 = 0 → bitOf x.ldrArg 0 = false ∨ x.ldr.who ≠ .vole → (n ≠ 16 → s.gives .loaderBegin (x.ldrDone Rc.RANGE))
        ∧ (n = 16 → crc36 (x.ldrBuf 16) ≠ bits (x.lcbWord 3) 31 0 → s.gives .loaderBegin (x.ldrDone 0xAE))
        ∧ (n = 16 → crc36 (x.ldrBuf 16) = bits (x.lcbWord 3) 31 0 → ∀ vole : Bool, vole = bitOf x.ldrArg 0 →
          (vole = true ∧ (x.ldrBuf 16).headD 0 ≠ voleMagic ∨ headerOk vole (x.ldrBuf 16) = false → s.gives .loaderBegin (x.ldrAbandon 0xA9))
          ∧ (vole = false ∨ (x.ldrBuf 16).headD 0 = voleMagic → headerOk vole (x.ldrBuf 16) = true → ∀ y : Chip,
            y = (x.setLdr { x.ldr with hdr := some (x.ldrBuf 16), vole := vole }).wr (lcb + 5) 0 →
            s.gives .loaderBegin (y.ldrErase (sectorsTo y.ldrBase (y.ldrBase + 15 + bits ((x.ldrBuf 16).getD 2 0) 18 0)) .erase)))))
    ∧ (s.ldrOp = 2 → x.ldrOp = 2 → (x.ldr.hdr = none → s.gives .loaderData (x.ldrDone 0xAD))
      ∧ (x.ldr.hdr = some hd → (4096 < n → s.gives .loaderData (x.ldrDone Rc.RANGE))
        ∧ (n ≤ 4096 → crc36 (x.ldrBuf n) ≠ bits (x.lcbWord 3) 31 0 → s.gives .loaderData (x.ldrDone 0xAE))
        ∧ (n ≤ 4096 → crc36 (x.ldrBuf n) = bits (x.lcbWord 3) 31 0 → ∀ a : Nat, a = x.ldrBase + 16 + x.ldrArg →
          (bits (hd.getD 2 0) 18 0 < x.ldrArg + n → s.gives .loaderData (x.ldrAbandon Rc.RANGE))
          ∧ (x.ldrArg + n ≤ bits (hd.getD 2 0) 18 0 → (∃ i, i < n ∧ x.flashErased (a + i) = false) → s.gives .loaderData (x.ldrAbandon Rc.NOT_ERASED))
          ∧ (x.ldrArg + n ≤ bits (hd.getD 2 0) 18 0 → (∀ i, i < n → x.flashErased (a + i) = true) →
            s.gives .loaderData (Chip.flcRequest (x.setLdr { x.ldr with job := .data n }) .loader a (progSteps a (x.ldrBuf n)))))))
    ∧ (s.ldrOp = 3 → x.ldrOp = 3 → (x.ldr.hdr = none → s.gives .loaderCommit (x.ldrDone 0xAD))
      ∧ (x.ldr.hdr = some hd → (crc36 (x.flashNats (x.ldrBase + 16) (bits (hd.getD 2 0) 18 0)) ≠ hd.getD 3 0 → s.gives .loaderCommit (x.ldrAbandon 0xAA))
        ∧ (crc36 (x.flashNats (x.ldrBase + 16) (bits (hd.getD 2 0) 18 0)) = hd.getD 3 0 →
          s.gives .loaderCommit (Chip.flcRequest (x.setLdr { x.ldr with job := .header, hdr := none }) .loader x.ldrBase (progSteps (x.ldrBase + 1) (hd.drop 1) ++ progSteps x.ldrBase (hd.take 1))))))
    ∧ (s.ldrOp = 4 → x.ldrOp = 4 → (4096 < n → s.gives .loaderStream (x.ldrDone Rc.RANGE))
      ∧ (n ≤ 4096 → crc36 (x.ldrBuf n) ≠ bits (x.lcbWord 3) 31 0 → s.gives .loaderStream (x.ldrDone 0xAE))
      ∧ (n ≤ 4096 → crc36 (x.ldrBuf n) = bits (x.lcbWord 3) 31 0 → (n ≠ hdrLength ((x.ldrBuf 1).headD 0) → s.gives .loaderStream (x.ldrDone Rc.RANGE))
        ∧ (n = hdrLength ((x.ldrBuf 1).headD 0) → (x.ldrStreamCheck ≠ Rc.OK → s.gives .loaderStream (x.ldrDone x.ldrStreamCheck))
          ∧ (x.ldrStreamCheck = Rc.OK → s.gives .loaderStream (x.ldrErase (sectorsTo streamBase (streamBase + 4095)) .streamErase)))))
end

