-- ==== Sys2Proof/Laws/Cells.lean ====
section
/-!
SUPPORT. Cells: a read after a write, and that every operation keeps the canonical form.
-/
namespace Sys2Proof.Machine

/-! ### Reads after writes -/

@[simp] theorem Cells.find_drop_self (a : Nat) (l : Cells) : Cells.find a (Cells.drop a l) = none := by
  induction l with
  | nil => rfl
  | cons e l ih => unfold Cells.drop; split <;> simp_all [Cells.find]

theorem Cells.find_drop_ne {a b : Nat} (h : b ≠ a) (l : Cells) : Cells.find b (Cells.drop a l) = Cells.find b l := by
  induction l with
  | nil => rfl
  | cons e l ih => unfold Cells.drop; split <;> simp_all [Cells.find]; omega

theorem Cells.find_put (a b : Nat) (v : Word) (l : Cells) (h : Cells.find a l = none) :
    Cells.find b (Cells.put a v l) = if b = a then some v else Cells.find b l := by
  induction l with
  | nil => simp [Cells.put, Cells.find, eq_comm]
  | cons e l ih =>
    have hne : ¬ e.1 = a := by intro he; simp [Cells.find, he] at h
    have hl : Cells.find a l = none := by simpa [Cells.find, hne] using h
    unfold Cells.put
    split
    · by_cases hb : b = a
      · subst hb; simp [Cells.find]
      · simp [Cells.find, hb, Ne.symm hb]
    · simp only [Cells.find, ih hl]
      by_cases hb : b = a
      · subst hb; simp [hne]
      · simp [hb]

/-- A read after a write of the same store: the written word at its address, every other word as before. -/
theorem Cells.get_set (d : Nat → Word) (l : Cells) (a b : Nat) (v : Word) :
    Cells.get d (Cells.set d l a v) b = if b = a then v else Cells.get d l b := by
  unfold Cells.get Cells.set
  split
  · rename_i hv
    by_cases hb : b = a
    · subst hb; simp [hv]
    · simp [hb, Cells.find_drop_ne hb]
  · rw [Cells.find_put _ _ _ _ (Cells.find_drop_self a l)]
    by_cases hb : b = a
    · subst hb; simp
    · simp [hb, Cells.find_drop_ne hb]

/-- The same where every written word is listed. -/
theorem Cells.get_setU (d : Nat → Word) (l : Cells) (a b : Nat) (v : Word) :
    Cells.get d (Cells.setU l a v) b = if b = a then v else Cells.get d l b := by
  unfold Cells.get Cells.setU
  rw [Cells.find_put _ _ _ _ (Cells.find_drop_self a l)]
  by_cases hb : b = a
  · subst hb; simp
  · simp [hb, Cells.find_drop_ne hb]

@[simp] theorem Cells.get_nil (d : Nat → Word) (a : Nat) : Cells.get d [] a = d a := rfl

/-! ### The canonical form -/

theorem Cells.above_cons (a : Nat) (e : Nat × Word) (l : Cells) :
    Cells.above a (e :: l) = (decide (a < e.1) && Cells.above a l) := rfl

theorem Cells.sparse_cons (d : Nat → Word) (e : Nat × Word) (l : Cells) :
    Cells.sparse d (e :: l) = (e.2 != d e.1 && Cells.sparse d l) := rfl

theorem Cells.above_trans {a b : Nat} {l : Cells} (h : a < b) (hl : Cells.above b l = true) : Cells.above a l = true := by
  simp only [Cells.above, List.all_eq_true, decide_eq_true_eq] at *
  exact fun e he => Nat.lt_trans h (hl e he)

theorem Cells.above_drop {b : Nat} (a : Nat) {l : Cells} (h : Cells.above b l = true) : Cells.above b (Cells.drop a l) = true := by
  induction l with
  | nil => exact h
  | cons e l ih =>
    simp only [Cells.above_cons, Bool.and_eq_true] at h
    unfold Cells.drop; split
    · exact ih h.2
    · simp only [Cells.above_cons, Bool.and_eq_true]; exact ⟨h.1, ih h.2⟩

theorem Cells.rising_drop (a : Nat) {l : Cells} (h : Cells.rising l = true) : Cells.rising (Cells.drop a l) = true := by
  induction l with
  | nil => exact h
  | cons e l ih =>
    simp only [Cells.rising, Bool.and_eq_true] at h
    unfold Cells.drop; split
    · exact ih h.2
    · simp only [Cells.rising, Bool.and_eq_true]; exact ⟨Cells.above_drop a h.1, ih h.2⟩

theorem Cells.above_put {a b : Nat} (v : Word) {l : Cells} (hb : b < a) (h : Cells.above b l = true) :
    Cells.above b (Cells.put a v l) = true := by
  induction l with
  | nil => simp [Cells.put, Cells.above, hb]
  | cons e l ih =>
    have h' := h
    simp only [Cells.above_cons, Bool.and_eq_true] at h'
    unfold Cells.put; split
    · simp only [Cells.above_cons, Bool.and_eq_true]; exact ⟨by simpa using hb, h'.1, h'.2⟩
    · simp only [Cells.above_cons, Bool.and_eq_true]; exact ⟨h'.1, ih h'.2⟩

theorem Cells.rising_put (a : Nat) (v : Word) {l : Cells} (h : Cells.rising l = true) (hn : Cells.find a l = none) :
    Cells.rising (Cells.put a v l) = true := by
  induction l with
  | nil => simp [Cells.put, Cells.rising, Cells.above]
  | cons e l ih =>
    simp only [Cells.rising, Bool.and_eq_true] at h
    have hne : ¬ e.1 = a := by intro he; simp [Cells.find, he] at hn
    have hl : Cells.find a l = none := by simpa [Cells.find, hne] using hn
    unfold Cells.put; split
    · rename_i hlt
      have hab : Cells.above a (e :: l) = true := by
        have := Cells.above_trans hlt h.1
        simp only [Cells.above, List.all_cons, Bool.and_eq_true, decide_eq_true_eq] at *
        exact ⟨hlt, this⟩
      simp only [Cells.rising, Bool.and_eq_true]
      exact ⟨hab, h.1, h.2⟩
    · simp only [Cells.rising, Bool.and_eq_true]
      exact ⟨Cells.above_put v (by omega) h.1, ih h.2 hl⟩

theorem Cells.sparse_drop (d : Nat → Word) (a : Nat) {l : Cells} (h : Cells.sparse d l = true) :
    Cells.sparse d (Cells.drop a l) = true := by
  induction l with
  | nil => exact h
  | cons e l ih => unfold Cells.drop; split <;> simp_all [Cells.sparse]

theorem Cells.sparse_put (d : Nat → Word) (a : Nat) (v : Word) {l : Cells} (hv : v ≠ d a) (h : Cells.sparse d l = true) :
    Cells.sparse d (Cells.put a v l) = true := by
  induction l with
  | nil => simp [Cells.put, Cells.sparse, hv]
  | cons e l ih => unfold Cells.put; split <;> simp_all [Cells.sparse]

/-- A write keeps the canonical form. -/
theorem Cells.wf_set (d : Nat → Word) (l : Cells) (a : Nat) (v : Word) (h : Cells.wf d l = true) :
    Cells.wf d (Cells.set d l a v) = true := by
  simp only [Cells.wf, Bool.and_eq_true] at *
  unfold Cells.set; split
  · exact ⟨Cells.rising_drop a h.1, Cells.sparse_drop d a h.2⟩
  · rename_i hv
    exact ⟨Cells.rising_put a v (Cells.rising_drop a h.1) (Cells.find_drop_self a l),
           Cells.sparse_put d a v hv (Cells.sparse_drop d a h.2)⟩

theorem Cells.wfU_setU (l : Cells) (a : Nat) (v : Word) (h : Cells.wfU l = true) : Cells.wfU (Cells.setU l a v) = true :=
  Cells.rising_put a v (Cells.rising_drop a h) (Cells.find_drop_self a l)

theorem Cells.above_filter {a : Nat} (p : Nat × Word → Bool) {l : Cells} (h : Cells.above a l = true) :
    Cells.above a (l.filter p) = true := by
  simp only [Cells.above, List.all_eq_true] at *
  exact fun e he => h e (List.mem_filter.mp he).1

theorem Cells.rising_filter (p : Nat × Word → Bool) {l : Cells} (h : Cells.rising l = true) : Cells.rising (l.filter p) = true := by
  induction l with
  | nil => exact h
  | cons e l ih =>
    simp only [Cells.rising, Bool.and_eq_true] at h
    rw [List.filter_cons]; split
    · simp only [Cells.rising, Bool.and_eq_true]; exact ⟨Cells.above_filter p h.1, ih h.2⟩
    · exact ih h.2

theorem Cells.sparse_filter (d : Nat → Word) (p : Nat × Word → Bool) {l : Cells} (h : Cells.sparse d l = true) :
    Cells.sparse d (l.filter p) = true := by
  simp only [Cells.sparse, List.all_eq_true] at *
  exact fun e he => h e (List.mem_filter.mp he).1

/-- Dropping entries keeps the canonical form. -/
theorem Cells.wf_filter (d : Nat → Word) (p : Nat × Word → Bool) (l : Cells) (h : Cells.wf d l = true) :
    Cells.wf d (l.filter p) = true := by
  simp only [Cells.wf, Bool.and_eq_true] at *
  exact ⟨Cells.rising_filter p h.1, Cells.sparse_filter d p h.2⟩

theorem Cells.wfU_filter (p : Nat × Word → Bool) (l : Cells) (h : Cells.wfU l = true) : Cells.wfU (l.filter p) = true :=
  Cells.rising_filter p h

theorem Cells.wf_keep (d : Nat → Word) (p : Nat → Bool) (l : Cells) (h : Cells.wf d l = true) : Cells.wf d (Cells.keep p l) = true :=
  Cells.wf_filter d _ l h

end Sys2Proof.Machine
end

