-- ==== Sys2Proof/Laws/State.lean ====
section
/-!
SUPPORT. State updates: what each named update of the chip changes, and that it leaves every other field as it is;
registers and fields of registers read back.
-/
namespace Sys2Proof.Machine

/-! ### Every other field -/

@[simp] theorem Chip.setReg_now (s : Chip) (a : Nat) (v : Word) : (s.setReg a v).now = s.now := rfl
@[simp] theorem Chip.setReg_free (s : Chip) (a : Nat) (v : Word) : (s.setReg a v).free = s.free := rfl
@[simp] theorem Chip.setReg_sram (s : Chip) (a : Nat) (v : Word) : (s.setReg a v).sram = s.sram := rfl
@[simp] theorem Chip.setReg_sramErr (s : Chip) (a : Nat) (v : Word) : (s.setReg a v).sramErr = s.sramErr := rfl
@[simp] theorem Chip.setReg_flashOne (s : Chip) (a : Nat) (v : Word) : (s.setReg a v).flashOne = s.flashOne := rfl
@[simp] theorem Chip.setReg_flashErr (s : Chip) (a : Nat) (v : Word) : (s.setReg a v).flashErr = s.flashErr := rfl
@[simp] theorem Chip.setReg_busAt (s : Chip) (a : Nat) (v : Word) : (s.setReg a v).busAt = s.busAt := rfl
@[simp] theorem Chip.setReg_busUse (s : Chip) (a : Nat) (v : Word) : (s.setReg a v).busUse = s.busUse := rfl
@[simp] theorem Chip.setReg_sramLost (s : Chip) (a : Nat) (v : Word) : (s.setReg a v).sramLost = s.sramLost := rfl
@[simp] theorem Chip.setReg_flash (s : Chip) (a : Nat) (v : Word) : (s.setReg a v).flash = s.flash := rfl
@[simp] theorem Chip.setReg_flashBad (s : Chip) (a : Nat) (v : Word) : (s.setReg a v).flashBad = s.flashBad := rfl
@[simp] theorem Chip.setReg_flashBadSec (s : Chip) (a : Nat) (v : Word) : (s.setReg a v).flashBadSec = s.flashBadSec := rfl
@[simp] theorem Chip.setReg_otp (s : Chip) (a : Nat) (v : Word) : (s.setReg a v).otp = s.otp := rfl
@[simp] theorem Chip.setReg_mirror (s : Chip) (a : Nat) (v : Word) : (s.setReg a v).mirror = s.mirror := rfl
@[simp] theorem Chip.setReg_rdata (s : Chip) (a : Nat) (v : Word) : (s.setReg a v).rdata = s.rdata := rfl
@[simp] theorem Chip.setReg_stamped (s : Chip) (a : Nat) (v : Word) : (s.setReg a v).stamped = s.stamped := rfl
@[simp] theorem Chip.setReg_owl (s : Chip) (a : Nat) (v : Word) : (s.setReg a v).owl = s.owl := rfl
@[simp] theorem Chip.setReg_cfg (s : Chip) (a : Nat) (v : Word) : (s.setReg a v).cfg = s.cfg := rfl
@[simp] theorem Chip.setReg_clk (s : Chip) (a : Nat) (v : Word) : (s.setReg a v).clk = s.clk := rfl
@[simp] theorem Chip.setReg_pins (s : Chip) (a : Nat) (v : Word) : (s.setReg a v).pins = s.pins := rfl
@[simp] theorem Chip.setReg_pwr (s : Chip) (a : Nat) (v : Word) : (s.setReg a v).pwr = s.pwr := rfl
@[simp] theorem Chip.setReg_bear (s : Chip) (a : Nat) (v : Word) : (s.setReg a v).bear = s.bear := rfl
@[simp] theorem Chip.setReg_mon (s : Chip) (a : Nat) (v : Word) : (s.setReg a v).mon = s.mon := rfl
@[simp] theorem Chip.setReg_icu (s : Chip) (a : Nat) (v : Word) : (s.setReg a v).icu = s.icu := rfl
@[simp] theorem Chip.setReg_evr (s : Chip) (a : Nat) (v : Word) : (s.setReg a v).evr = s.evr := rfl
@[simp] theorem Chip.setReg_out (s : Chip) (a : Nat) (v : Word) : (s.setReg a v).out = s.out := rfl
@[simp] theorem Chip.setReg_cores (s : Chip) (a : Nat) (v : Word) : (s.setReg a v).cores = s.cores := rfl
@[simp] theorem Chip.setReg_tmr (s : Chip) (a : Nat) (v : Word) : (s.setReg a v).tmr = s.tmr := rfl
@[simp] theorem Chip.setReg_flc (s : Chip) (a : Nat) (v : Word) : (s.setReg a v).flc = s.flc := rfl
@[simp] theorem Chip.setReg_cph (s : Chip) (a : Nat) (v : Word) : (s.setReg a v).cph = s.cph := rfl
@[simp] theorem Chip.setReg_syn (s : Chip) (a : Nat) (v : Word) : (s.setReg a v).syn = s.syn := rfl
@[simp] theorem Chip.setReg_lnk (s : Chip) (a : Nat) (v : Word) : (s.setReg a v).lnk = s.lnk := rfl
@[simp] theorem Chip.setReg_stopping (s : Chip) (a : Nat) (v : Word) : (s.setReg a v).stopping = s.stopping := rfl
@[simp] theorem Chip.setReg_mesh (s : Chip) (a : Nat) (v : Word) : (s.setReg a v).mesh = s.mesh := rfl
@[simp] theorem Chip.setReg_nfc (s : Chip) (a : Nat) (v : Word) : (s.setReg a v).nfc = s.nfc := rfl
@[simp] theorem Chip.setReg_hp (s : Chip) (a : Nat) (v : Word) : (s.setReg a v).hp = s.hp := rfl
@[simp] theorem Chip.setReg_svc (s : Chip) (a : Nat) (v : Word) : (s.setReg a v).svc = s.svc := rfl
@[simp] theorem Chip.setReg_ldr (s : Chip) (a : Nat) (v : Word) : (s.setReg a v).ldr = s.ldr := rfl
@[simp] theorem Chip.setReg_boot (s : Chip) (a : Nat) (v : Word) : (s.setReg a v).boot = s.boot := rfl

@[simp] theorem Chip.setFld_now (s : Chip) (f : Fld) (v : Nat) : (s.setFld f v).now = s.now := rfl
@[simp] theorem Chip.setFld_free (s : Chip) (f : Fld) (v : Nat) : (s.setFld f v).free = s.free := rfl
@[simp] theorem Chip.setFld_sram (s : Chip) (f : Fld) (v : Nat) : (s.setFld f v).sram = s.sram := rfl
@[simp] theorem Chip.setFld_sramErr (s : Chip) (f : Fld) (v : Nat) : (s.setFld f v).sramErr = s.sramErr := rfl
@[simp] theorem Chip.setFld_flashOne (s : Chip) (f : Fld) (v : Nat) : (s.setFld f v).flashOne = s.flashOne := rfl
@[simp] theorem Chip.setFld_flashErr (s : Chip) (f : Fld) (v : Nat) : (s.setFld f v).flashErr = s.flashErr := rfl
@[simp] theorem Chip.setFld_busAt (s : Chip) (f : Fld) (v : Nat) : (s.setFld f v).busAt = s.busAt := rfl
@[simp] theorem Chip.setFld_busUse (s : Chip) (f : Fld) (v : Nat) : (s.setFld f v).busUse = s.busUse := rfl
@[simp] theorem Chip.setFld_sramLost (s : Chip) (f : Fld) (v : Nat) : (s.setFld f v).sramLost = s.sramLost := rfl
@[simp] theorem Chip.setFld_flash (s : Chip) (f : Fld) (v : Nat) : (s.setFld f v).flash = s.flash := rfl
@[simp] theorem Chip.setFld_flashBad (s : Chip) (f : Fld) (v : Nat) : (s.setFld f v).flashBad = s.flashBad := rfl
@[simp] theorem Chip.setFld_flashBadSec (s : Chip) (f : Fld) (v : Nat) : (s.setFld f v).flashBadSec = s.flashBadSec := rfl
@[simp] theorem Chip.setFld_otp (s : Chip) (f : Fld) (v : Nat) : (s.setFld f v).otp = s.otp := rfl
@[simp] theorem Chip.setFld_mirror (s : Chip) (f : Fld) (v : Nat) : (s.setFld f v).mirror = s.mirror := rfl
@[simp] theorem Chip.setFld_rdata (s : Chip) (f : Fld) (v : Nat) : (s.setFld f v).rdata = s.rdata := rfl
@[simp] theorem Chip.setFld_stamped (s : Chip) (f : Fld) (v : Nat) : (s.setFld f v).stamped = s.stamped := rfl
@[simp] theorem Chip.setFld_owl (s : Chip) (f : Fld) (v : Nat) : (s.setFld f v).owl = s.owl := rfl
@[simp] theorem Chip.setFld_cfg (s : Chip) (f : Fld) (v : Nat) : (s.setFld f v).cfg = s.cfg := rfl
@[simp] theorem Chip.setFld_clk (s : Chip) (f : Fld) (v : Nat) : (s.setFld f v).clk = s.clk := rfl
@[simp] theorem Chip.setFld_pins (s : Chip) (f : Fld) (v : Nat) : (s.setFld f v).pins = s.pins := rfl
@[simp] theorem Chip.setFld_pwr (s : Chip) (f : Fld) (v : Nat) : (s.setFld f v).pwr = s.pwr := rfl
@[simp] theorem Chip.setFld_bear (s : Chip) (f : Fld) (v : Nat) : (s.setFld f v).bear = s.bear := rfl
@[simp] theorem Chip.setFld_mon (s : Chip) (f : Fld) (v : Nat) : (s.setFld f v).mon = s.mon := rfl
@[simp] theorem Chip.setFld_icu (s : Chip) (f : Fld) (v : Nat) : (s.setFld f v).icu = s.icu := rfl
@[simp] theorem Chip.setFld_evr (s : Chip) (f : Fld) (v : Nat) : (s.setFld f v).evr = s.evr := rfl
@[simp] theorem Chip.setFld_out (s : Chip) (f : Fld) (v : Nat) : (s.setFld f v).out = s.out := rfl
@[simp] theorem Chip.setFld_cores (s : Chip) (f : Fld) (v : Nat) : (s.setFld f v).cores = s.cores := rfl
@[simp] theorem Chip.setFld_tmr (s : Chip) (f : Fld) (v : Nat) : (s.setFld f v).tmr = s.tmr := rfl
@[simp] theorem Chip.setFld_flc (s : Chip) (f : Fld) (v : Nat) : (s.setFld f v).flc = s.flc := rfl
@[simp] theorem Chip.setFld_cph (s : Chip) (f : Fld) (v : Nat) : (s.setFld f v).cph = s.cph := rfl
@[simp] theorem Chip.setFld_syn (s : Chip) (f : Fld) (v : Nat) : (s.setFld f v).syn = s.syn := rfl
@[simp] theorem Chip.setFld_lnk (s : Chip) (f : Fld) (v : Nat) : (s.setFld f v).lnk = s.lnk := rfl
@[simp] theorem Chip.setFld_stopping (s : Chip) (f : Fld) (v : Nat) : (s.setFld f v).stopping = s.stopping := rfl
@[simp] theorem Chip.setFld_mesh (s : Chip) (f : Fld) (v : Nat) : (s.setFld f v).mesh = s.mesh := rfl
@[simp] theorem Chip.setFld_nfc (s : Chip) (f : Fld) (v : Nat) : (s.setFld f v).nfc = s.nfc := rfl
@[simp] theorem Chip.setFld_hp (s : Chip) (f : Fld) (v : Nat) : (s.setFld f v).hp = s.hp := rfl
@[simp] theorem Chip.setFld_svc (s : Chip) (f : Fld) (v : Nat) : (s.setFld f v).svc = s.svc := rfl
@[simp] theorem Chip.setFld_ldr (s : Chip) (f : Fld) (v : Nat) : (s.setFld f v).ldr = s.ldr := rfl
@[simp] theorem Chip.setFld_boot (s : Chip) (f : Fld) (v : Nat) : (s.setFld f v).boot = s.boot := rfl

@[simp] theorem Chip.setBit_now (s : Chip) (f : Fld) (b : Bool) : (s.setBit f b).now = s.now := rfl
@[simp] theorem Chip.setBit_free (s : Chip) (f : Fld) (b : Bool) : (s.setBit f b).free = s.free := rfl
@[simp] theorem Chip.setBit_sram (s : Chip) (f : Fld) (b : Bool) : (s.setBit f b).sram = s.sram := rfl
@[simp] theorem Chip.setBit_sramErr (s : Chip) (f : Fld) (b : Bool) : (s.setBit f b).sramErr = s.sramErr := rfl
@[simp] theorem Chip.setBit_flashOne (s : Chip) (f : Fld) (b : Bool) : (s.setBit f b).flashOne = s.flashOne := rfl
@[simp] theorem Chip.setBit_flashErr (s : Chip) (f : Fld) (b : Bool) : (s.setBit f b).flashErr = s.flashErr := rfl
@[simp] theorem Chip.setBit_busAt (s : Chip) (f : Fld) (b : Bool) : (s.setBit f b).busAt = s.busAt := rfl
@[simp] theorem Chip.setBit_busUse (s : Chip) (f : Fld) (b : Bool) : (s.setBit f b).busUse = s.busUse := rfl
@[simp] theorem Chip.setBit_sramLost (s : Chip) (f : Fld) (b : Bool) : (s.setBit f b).sramLost = s.sramLost := rfl
@[simp] theorem Chip.setBit_flash (s : Chip) (f : Fld) (b : Bool) : (s.setBit f b).flash = s.flash := rfl
@[simp] theorem Chip.setBit_flashBad (s : Chip) (f : Fld) (b : Bool) : (s.setBit f b).flashBad = s.flashBad := rfl
@[simp] theorem Chip.setBit_flashBadSec (s : Chip) (f : Fld) (b : Bool) : (s.setBit f b).flashBadSec = s.flashBadSec := rfl
@[simp] theorem Chip.setBit_otp (s : Chip) (f : Fld) (b : Bool) : (s.setBit f b).otp = s.otp := rfl
@[simp] theorem Chip.setBit_mirror (s : Chip) (f : Fld) (b : Bool) : (s.setBit f b).mirror = s.mirror := rfl
@[simp] theorem Chip.setBit_rdata (s : Chip) (f : Fld) (b : Bool) : (s.setBit f b).rdata = s.rdata := rfl
@[simp] theorem Chip.setBit_stamped (s : Chip) (f : Fld) (b : Bool) : (s.setBit f b).stamped = s.stamped := rfl
@[simp] theorem Chip.setBit_owl (s : Chip) (f : Fld) (b : Bool) : (s.setBit f b).owl = s.owl := rfl
@[simp] theorem Chip.setBit_cfg (s : Chip) (f : Fld) (b : Bool) : (s.setBit f b).cfg = s.cfg := rfl
@[simp] theorem Chip.setBit_clk (s : Chip) (f : Fld) (b : Bool) : (s.setBit f b).clk = s.clk := rfl
@[simp] theorem Chip.setBit_pins (s : Chip) (f : Fld) (b : Bool) : (s.setBit f b).pins = s.pins := rfl
@[simp] theorem Chip.setBit_pwr (s : Chip) (f : Fld) (b : Bool) : (s.setBit f b).pwr = s.pwr := rfl
@[simp] theorem Chip.setBit_bear (s : Chip) (f : Fld) (b : Bool) : (s.setBit f b).bear = s.bear := rfl
@[simp] theorem Chip.setBit_mon (s : Chip) (f : Fld) (b : Bool) : (s.setBit f b).mon = s.mon := rfl
@[simp] theorem Chip.setBit_icu (s : Chip) (f : Fld) (b : Bool) : (s.setBit f b).icu = s.icu := rfl
@[simp] theorem Chip.setBit_evr (s : Chip) (f : Fld) (b : Bool) : (s.setBit f b).evr = s.evr := rfl
@[simp] theorem Chip.setBit_out (s : Chip) (f : Fld) (b : Bool) : (s.setBit f b).out = s.out := rfl
@[simp] theorem Chip.setBit_cores (s : Chip) (f : Fld) (b : Bool) : (s.setBit f b).cores = s.cores := rfl
@[simp] theorem Chip.setBit_tmr (s : Chip) (f : Fld) (b : Bool) : (s.setBit f b).tmr = s.tmr := rfl
@[simp] theorem Chip.setBit_flc (s : Chip) (f : Fld) (b : Bool) : (s.setBit f b).flc = s.flc := rfl
@[simp] theorem Chip.setBit_cph (s : Chip) (f : Fld) (b : Bool) : (s.setBit f b).cph = s.cph := rfl
@[simp] theorem Chip.setBit_syn (s : Chip) (f : Fld) (b : Bool) : (s.setBit f b).syn = s.syn := rfl
@[simp] theorem Chip.setBit_lnk (s : Chip) (f : Fld) (b : Bool) : (s.setBit f b).lnk = s.lnk := rfl
@[simp] theorem Chip.setBit_stopping (s : Chip) (f : Fld) (b : Bool) : (s.setBit f b).stopping = s.stopping := rfl
@[simp] theorem Chip.setBit_mesh (s : Chip) (f : Fld) (b : Bool) : (s.setBit f b).mesh = s.mesh := rfl
@[simp] theorem Chip.setBit_nfc (s : Chip) (f : Fld) (b : Bool) : (s.setBit f b).nfc = s.nfc := rfl
@[simp] theorem Chip.setBit_hp (s : Chip) (f : Fld) (b : Bool) : (s.setBit f b).hp = s.hp := rfl
@[simp] theorem Chip.setBit_svc (s : Chip) (f : Fld) (b : Bool) : (s.setBit f b).svc = s.svc := rfl
@[simp] theorem Chip.setBit_ldr (s : Chip) (f : Fld) (b : Bool) : (s.setBit f b).ldr = s.ldr := rfl
@[simp] theorem Chip.setBit_boot (s : Chip) (f : Fld) (b : Bool) : (s.setBit f b).boot = s.boot := rfl

@[simp] theorem Chip.setReason_now (s : Chip) (st c : Nat) : (s.setReason st c).now = s.now := rfl
@[simp] theorem Chip.setReason_free (s : Chip) (st c : Nat) : (s.setReason st c).free = s.free := rfl
@[simp] theorem Chip.setReason_sram (s : Chip) (st c : Nat) : (s.setReason st c).sram = s.sram := rfl
@[simp] theorem Chip.setReason_sramErr (s : Chip) (st c : Nat) : (s.setReason st c).sramErr = s.sramErr := rfl
@[simp] theorem Chip.setReason_flashOne (s : Chip) (st c : Nat) : (s.setReason st c).flashOne = s.flashOne := rfl
@[simp] theorem Chip.setReason_flashErr (s : Chip) (st c : Nat) : (s.setReason st c).flashErr = s.flashErr := rfl
@[simp] theorem Chip.setReason_busAt (s : Chip) (st c : Nat) : (s.setReason st c).busAt = s.busAt := rfl
@[simp] theorem Chip.setReason_busUse (s : Chip) (st c : Nat) : (s.setReason st c).busUse = s.busUse := rfl
@[simp] theorem Chip.setReason_sramLost (s : Chip) (st c : Nat) : (s.setReason st c).sramLost = s.sramLost := rfl
@[simp] theorem Chip.setReason_flash (s : Chip) (st c : Nat) : (s.setReason st c).flash = s.flash := rfl
@[simp] theorem Chip.setReason_flashBad (s : Chip) (st c : Nat) : (s.setReason st c).flashBad = s.flashBad := rfl
@[simp] theorem Chip.setReason_flashBadSec (s : Chip) (st c : Nat) : (s.setReason st c).flashBadSec = s.flashBadSec := rfl
@[simp] theorem Chip.setReason_otp (s : Chip) (st c : Nat) : (s.setReason st c).otp = s.otp := rfl
@[simp] theorem Chip.setReason_mirror (s : Chip) (st c : Nat) : (s.setReason st c).mirror = s.mirror := rfl
@[simp] theorem Chip.setReason_rdata (s : Chip) (st c : Nat) : (s.setReason st c).rdata = s.rdata := rfl
@[simp] theorem Chip.setReason_stamped (s : Chip) (st c : Nat) : (s.setReason st c).stamped = s.stamped := rfl
@[simp] theorem Chip.setReason_owl (s : Chip) (st c : Nat) : (s.setReason st c).owl = s.owl := rfl
@[simp] theorem Chip.setReason_cfg (s : Chip) (st c : Nat) : (s.setReason st c).cfg = s.cfg := rfl
@[simp] theorem Chip.setReason_clk (s : Chip) (st c : Nat) : (s.setReason st c).clk = s.clk := rfl
@[simp] theorem Chip.setReason_pins (s : Chip) (st c : Nat) : (s.setReason st c).pins = s.pins := rfl
@[simp] theorem Chip.setReason_pwr (s : Chip) (st c : Nat) : (s.setReason st c).pwr = s.pwr := rfl
@[simp] theorem Chip.setReason_bear (s : Chip) (st c : Nat) : (s.setReason st c).bear = s.bear := rfl
@[simp] theorem Chip.setReason_mon (s : Chip) (st c : Nat) : (s.setReason st c).mon = s.mon := rfl
@[simp] theorem Chip.setReason_icu (s : Chip) (st c : Nat) : (s.setReason st c).icu = s.icu := rfl
@[simp] theorem Chip.setReason_evr (s : Chip) (st c : Nat) : (s.setReason st c).evr = s.evr := rfl
@[simp] theorem Chip.setReason_out (s : Chip) (st c : Nat) : (s.setReason st c).out = s.out := rfl
@[simp] theorem Chip.setReason_cores (s : Chip) (st c : Nat) : (s.setReason st c).cores = s.cores := rfl
@[simp] theorem Chip.setReason_tmr (s : Chip) (st c : Nat) : (s.setReason st c).tmr = s.tmr := rfl
@[simp] theorem Chip.setReason_flc (s : Chip) (st c : Nat) : (s.setReason st c).flc = s.flc := rfl
@[simp] theorem Chip.setReason_cph (s : Chip) (st c : Nat) : (s.setReason st c).cph = s.cph := rfl
@[simp] theorem Chip.setReason_syn (s : Chip) (st c : Nat) : (s.setReason st c).syn = s.syn := rfl
@[simp] theorem Chip.setReason_lnk (s : Chip) (st c : Nat) : (s.setReason st c).lnk = s.lnk := rfl
@[simp] theorem Chip.setReason_stopping (s : Chip) (st c : Nat) : (s.setReason st c).stopping = s.stopping := rfl
@[simp] theorem Chip.setReason_mesh (s : Chip) (st c : Nat) : (s.setReason st c).mesh = s.mesh := rfl
@[simp] theorem Chip.setReason_nfc (s : Chip) (st c : Nat) : (s.setReason st c).nfc = s.nfc := rfl
@[simp] theorem Chip.setReason_hp (s : Chip) (st c : Nat) : (s.setReason st c).hp = s.hp := rfl
@[simp] theorem Chip.setReason_svc (s : Chip) (st c : Nat) : (s.setReason st c).svc = s.svc := rfl
@[simp] theorem Chip.setReason_ldr (s : Chip) (st c : Nat) : (s.setReason st c).ldr = s.ldr := rfl
@[simp] theorem Chip.setReason_boot (s : Chip) (st c : Nat) : (s.setReason st c).boot = s.boot := rfl

@[simp] theorem Chip.count_now (s : Chip) (f : Fld) (n : Nat) : (s.count f n).now = s.now := rfl
@[simp] theorem Chip.count_free (s : Chip) (f : Fld) (n : Nat) : (s.count f n).free = s.free := rfl
@[simp] theorem Chip.count_sram (s : Chip) (f : Fld) (n : Nat) : (s.count f n).sram = s.sram := rfl
@[simp] theorem Chip.count_sramErr (s : Chip) (f : Fld) (n : Nat) : (s.count f n).sramErr = s.sramErr := rfl
@[simp] theorem Chip.count_flashOne (s : Chip) (f : Fld) (n : Nat) : (s.count f n).flashOne = s.flashOne := rfl
@[simp] theorem Chip.count_flashErr (s : Chip) (f : Fld) (n : Nat) : (s.count f n).flashErr = s.flashErr := rfl
@[simp] theorem Chip.count_busAt (s : Chip) (f : Fld) (n : Nat) : (s.count f n).busAt = s.busAt := rfl
@[simp] theorem Chip.count_busUse (s : Chip) (f : Fld) (n : Nat) : (s.count f n).busUse = s.busUse := rfl
@[simp] theorem Chip.count_sramLost (s : Chip) (f : Fld) (n : Nat) : (s.count f n).sramLost = s.sramLost := rfl
@[simp] theorem Chip.count_flash (s : Chip) (f : Fld) (n : Nat) : (s.count f n).flash = s.flash := rfl
@[simp] theorem Chip.count_flashBad (s : Chip) (f : Fld) (n : Nat) : (s.count f n).flashBad = s.flashBad := rfl
@[simp] theorem Chip.count_flashBadSec (s : Chip) (f : Fld) (n : Nat) : (s.count f n).flashBadSec = s.flashBadSec := rfl
@[simp] theorem Chip.count_otp (s : Chip) (f : Fld) (n : Nat) : (s.count f n).otp = s.otp := rfl
@[simp] theorem Chip.count_mirror (s : Chip) (f : Fld) (n : Nat) : (s.count f n).mirror = s.mirror := rfl
@[simp] theorem Chip.count_rdata (s : Chip) (f : Fld) (n : Nat) : (s.count f n).rdata = s.rdata := rfl
@[simp] theorem Chip.count_stamped (s : Chip) (f : Fld) (n : Nat) : (s.count f n).stamped = s.stamped := rfl
@[simp] theorem Chip.count_owl (s : Chip) (f : Fld) (n : Nat) : (s.count f n).owl = s.owl := rfl
@[simp] theorem Chip.count_cfg (s : Chip) (f : Fld) (n : Nat) : (s.count f n).cfg = s.cfg := rfl
@[simp] theorem Chip.count_clk (s : Chip) (f : Fld) (n : Nat) : (s.count f n).clk = s.clk := rfl
@[simp] theorem Chip.count_pins (s : Chip) (f : Fld) (n : Nat) : (s.count f n).pins = s.pins := rfl
@[simp] theorem Chip.count_pwr (s : Chip) (f : Fld) (n : Nat) : (s.count f n).pwr = s.pwr := rfl
@[simp] theorem Chip.count_bear (s : Chip) (f : Fld) (n : Nat) : (s.count f n).bear = s.bear := rfl
@[simp] theorem Chip.count_mon (s : Chip) (f : Fld) (n : Nat) : (s.count f n).mon = s.mon := rfl
@[simp] theorem Chip.count_icu (s : Chip) (f : Fld) (n : Nat) : (s.count f n).icu = s.icu := rfl
@[simp] theorem Chip.count_evr (s : Chip) (f : Fld) (n : Nat) : (s.count f n).evr = s.evr := rfl
@[simp] theorem Chip.count_out (s : Chip) (f : Fld) (n : Nat) : (s.count f n).out = s.out := rfl
@[simp] theorem Chip.count_cores (s : Chip) (f : Fld) (n : Nat) : (s.count f n).cores = s.cores := rfl
@[simp] theorem Chip.count_tmr (s : Chip) (f : Fld) (n : Nat) : (s.count f n).tmr = s.tmr := rfl
@[simp] theorem Chip.count_flc (s : Chip) (f : Fld) (n : Nat) : (s.count f n).flc = s.flc := rfl
@[simp] theorem Chip.count_cph (s : Chip) (f : Fld) (n : Nat) : (s.count f n).cph = s.cph := rfl
@[simp] theorem Chip.count_syn (s : Chip) (f : Fld) (n : Nat) : (s.count f n).syn = s.syn := rfl
@[simp] theorem Chip.count_lnk (s : Chip) (f : Fld) (n : Nat) : (s.count f n).lnk = s.lnk := rfl
@[simp] theorem Chip.count_stopping (s : Chip) (f : Fld) (n : Nat) : (s.count f n).stopping = s.stopping := rfl
@[simp] theorem Chip.count_mesh (s : Chip) (f : Fld) (n : Nat) : (s.count f n).mesh = s.mesh := rfl
@[simp] theorem Chip.count_nfc (s : Chip) (f : Fld) (n : Nat) : (s.count f n).nfc = s.nfc := rfl
@[simp] theorem Chip.count_hp (s : Chip) (f : Fld) (n : Nat) : (s.count f n).hp = s.hp := rfl
@[simp] theorem Chip.count_svc (s : Chip) (f : Fld) (n : Nat) : (s.count f n).svc = s.svc := rfl
@[simp] theorem Chip.count_ldr (s : Chip) (f : Fld) (n : Nat) : (s.count f n).ldr = s.ldr := rfl
@[simp] theorem Chip.count_boot (s : Chip) (f : Fld) (n : Nat) : (s.count f n).boot = s.boot := rfl

@[simp] theorem Chip.setBear_now (s : Chip) (b : Bear) : (s.setBear b).now = s.now := rfl
@[simp] theorem Chip.setBear_free (s : Chip) (b : Bear) : (s.setBear b).free = s.free := rfl
@[simp] theorem Chip.setBear_regs (s : Chip) (b : Bear) : (s.setBear b).regs = s.regs := rfl
@[simp] theorem Chip.setBear_sram (s : Chip) (b : Bear) : (s.setBear b).sram = s.sram := rfl
@[simp] theorem Chip.setBear_sramErr (s : Chip) (b : Bear) : (s.setBear b).sramErr = s.sramErr := rfl
@[simp] theorem Chip.setBear_flashOne (s : Chip) (b : Bear) : (s.setBear b).flashOne = s.flashOne := rfl
@[simp] theorem Chip.setBear_flashErr (s : Chip) (b : Bear) : (s.setBear b).flashErr = s.flashErr := rfl
@[simp] theorem Chip.setBear_busAt (s : Chip) (b : Bear) : (s.setBear b).busAt = s.busAt := rfl
@[simp] theorem Chip.setBear_busUse (s : Chip) (b : Bear) : (s.setBear b).busUse = s.busUse := rfl
@[simp] theorem Chip.setBear_sramLost (s : Chip) (b : Bear) : (s.setBear b).sramLost = s.sramLost := rfl
@[simp] theorem Chip.setBear_flash (s : Chip) (b : Bear) : (s.setBear b).flash = s.flash := rfl
@[simp] theorem Chip.setBear_flashBad (s : Chip) (b : Bear) : (s.setBear b).flashBad = s.flashBad := rfl
@[simp] theorem Chip.setBear_flashBadSec (s : Chip) (b : Bear) : (s.setBear b).flashBadSec = s.flashBadSec := rfl
@[simp] theorem Chip.setBear_otp (s : Chip) (b : Bear) : (s.setBear b).otp = s.otp := rfl
@[simp] theorem Chip.setBear_mirror (s : Chip) (b : Bear) : (s.setBear b).mirror = s.mirror := rfl
@[simp] theorem Chip.setBear_rdata (s : Chip) (b : Bear) : (s.setBear b).rdata = s.rdata := rfl
@[simp] theorem Chip.setBear_stamped (s : Chip) (b : Bear) : (s.setBear b).stamped = s.stamped := rfl
@[simp] theorem Chip.setBear_owl (s : Chip) (b : Bear) : (s.setBear b).owl = s.owl := rfl
@[simp] theorem Chip.setBear_cfg (s : Chip) (b : Bear) : (s.setBear b).cfg = s.cfg := rfl
@[simp] theorem Chip.setBear_clk (s : Chip) (b : Bear) : (s.setBear b).clk = s.clk := rfl
@[simp] theorem Chip.setBear_pins (s : Chip) (b : Bear) : (s.setBear b).pins = s.pins := rfl
@[simp] theorem Chip.setBear_pwr (s : Chip) (b : Bear) : (s.setBear b).pwr = s.pwr := rfl
@[simp] theorem Chip.setBear_mon (s : Chip) (b : Bear) : (s.setBear b).mon = s.mon := rfl
@[simp] theorem Chip.setBear_icu (s : Chip) (b : Bear) : (s.setBear b).icu = s.icu := rfl
@[simp] theorem Chip.setBear_evr (s : Chip) (b : Bear) : (s.setBear b).evr = s.evr := rfl
@[simp] theorem Chip.setBear_out (s : Chip) (b : Bear) : (s.setBear b).out = s.out := rfl
@[simp] theorem Chip.setBear_cores (s : Chip) (b : Bear) : (s.setBear b).cores = s.cores := rfl
@[simp] theorem Chip.setBear_tmr (s : Chip) (b : Bear) : (s.setBear b).tmr = s.tmr := rfl
@[simp] theorem Chip.setBear_flc (s : Chip) (b : Bear) : (s.setBear b).flc = s.flc := rfl
@[simp] theorem Chip.setBear_cph (s : Chip) (b : Bear) : (s.setBear b).cph = s.cph := rfl
@[simp] theorem Chip.setBear_syn (s : Chip) (b : Bear) : (s.setBear b).syn = s.syn := rfl
@[simp] theorem Chip.setBear_lnk (s : Chip) (b : Bear) : (s.setBear b).lnk = s.lnk := rfl
@[simp] theorem Chip.setBear_stopping (s : Chip) (b : Bear) : (s.setBear b).stopping = s.stopping := rfl
@[simp] theorem Chip.setBear_mesh (s : Chip) (b : Bear) : (s.setBear b).mesh = s.mesh := rfl
@[simp] theorem Chip.setBear_nfc (s : Chip) (b : Bear) : (s.setBear b).nfc = s.nfc := rfl
@[simp] theorem Chip.setBear_hp (s : Chip) (b : Bear) : (s.setBear b).hp = s.hp := rfl
@[simp] theorem Chip.setBear_svc (s : Chip) (b : Bear) : (s.setBear b).svc = s.svc := rfl
@[simp] theorem Chip.setBear_ldr (s : Chip) (b : Bear) : (s.setBear b).ldr = s.ldr := rfl
@[simp] theorem Chip.setBear_boot (s : Chip) (b : Bear) : (s.setBear b).boot = s.boot := rfl

@[simp] theorem Chip.setLnk_now (s : Chip) (l : Lnk) : (s.setLnk l).now = s.now := rfl
@[simp] theorem Chip.setLnk_free (s : Chip) (l : Lnk) : (s.setLnk l).free = s.free := rfl
@[simp] theorem Chip.setLnk_regs (s : Chip) (l : Lnk) : (s.setLnk l).regs = s.regs := rfl
@[simp] theorem Chip.setLnk_sram (s : Chip) (l : Lnk) : (s.setLnk l).sram = s.sram := rfl
@[simp] theorem Chip.setLnk_sramErr (s : Chip) (l : Lnk) : (s.setLnk l).sramErr = s.sramErr := rfl
@[simp] theorem Chip.setLnk_flashOne (s : Chip) (l : Lnk) : (s.setLnk l).flashOne = s.flashOne := rfl
@[simp] theorem Chip.setLnk_flashErr (s : Chip) (l : Lnk) : (s.setLnk l).flashErr = s.flashErr := rfl
@[simp] theorem Chip.setLnk_busAt (s : Chip) (l : Lnk) : (s.setLnk l).busAt = s.busAt := rfl
@[simp] theorem Chip.setLnk_busUse (s : Chip) (l : Lnk) : (s.setLnk l).busUse = s.busUse := rfl
@[simp] theorem Chip.setLnk_sramLost (s : Chip) (l : Lnk) : (s.setLnk l).sramLost = s.sramLost := rfl
@[simp] theorem Chip.setLnk_flash (s : Chip) (l : Lnk) : (s.setLnk l).flash = s.flash := rfl
@[simp] theorem Chip.setLnk_flashBad (s : Chip) (l : Lnk) : (s.setLnk l).flashBad = s.flashBad := rfl
@[simp] theorem Chip.setLnk_flashBadSec (s : Chip) (l : Lnk) : (s.setLnk l).flashBadSec = s.flashBadSec := rfl
@[simp] theorem Chip.setLnk_otp (s : Chip) (l : Lnk) : (s.setLnk l).otp = s.otp := rfl
@[simp] theorem Chip.setLnk_mirror (s : Chip) (l : Lnk) : (s.setLnk l).mirror = s.mirror := rfl
@[simp] theorem Chip.setLnk_rdata (s : Chip) (l : Lnk) : (s.setLnk l).rdata = s.rdata := rfl
@[simp] theorem Chip.setLnk_stamped (s : Chip) (l : Lnk) : (s.setLnk l).stamped = s.stamped := rfl
@[simp] theorem Chip.setLnk_owl (s : Chip) (l : Lnk) : (s.setLnk l).owl = s.owl := rfl
@[simp] theorem Chip.setLnk_cfg (s : Chip) (l : Lnk) : (s.setLnk l).cfg = s.cfg := rfl
@[simp] theorem Chip.setLnk_clk (s : Chip) (l : Lnk) : (s.setLnk l).clk = s.clk := rfl
@[simp] theorem Chip.setLnk_pins (s : Chip) (l : Lnk) : (s.setLnk l).pins = s.pins := rfl
@[simp] theorem Chip.setLnk_pwr (s : Chip) (l : Lnk) : (s.setLnk l).pwr = s.pwr := rfl
@[simp] theorem Chip.setLnk_bear (s : Chip) (l : Lnk) : (s.setLnk l).bear = s.bear := rfl
@[simp] theorem Chip.setLnk_mon (s : Chip) (l : Lnk) : (s.setLnk l).mon = s.mon := rfl
@[simp] theorem Chip.setLnk_icu (s : Chip) (l : Lnk) : (s.setLnk l).icu = s.icu := rfl
@[simp] theorem Chip.setLnk_evr (s : Chip) (l : Lnk) : (s.setLnk l).evr = s.evr := rfl
@[simp] theorem Chip.setLnk_out (s : Chip) (l : Lnk) : (s.setLnk l).out = s.out := rfl
@[simp] theorem Chip.setLnk_cores (s : Chip) (l : Lnk) : (s.setLnk l).cores = s.cores := rfl
@[simp] theorem Chip.setLnk_tmr (s : Chip) (l : Lnk) : (s.setLnk l).tmr = s.tmr := rfl
@[simp] theorem Chip.setLnk_flc (s : Chip) (l : Lnk) : (s.setLnk l).flc = s.flc := rfl
@[simp] theorem Chip.setLnk_cph (s : Chip) (l : Lnk) : (s.setLnk l).cph = s.cph := rfl
@[simp] theorem Chip.setLnk_syn (s : Chip) (l : Lnk) : (s.setLnk l).syn = s.syn := rfl
@[simp] theorem Chip.setLnk_stopping (s : Chip) (l : Lnk) : (s.setLnk l).stopping = s.stopping := rfl
@[simp] theorem Chip.setLnk_mesh (s : Chip) (l : Lnk) : (s.setLnk l).mesh = s.mesh := rfl
@[simp] theorem Chip.setLnk_nfc (s : Chip) (l : Lnk) : (s.setLnk l).nfc = s.nfc := rfl
@[simp] theorem Chip.setLnk_hp (s : Chip) (l : Lnk) : (s.setLnk l).hp = s.hp := rfl
@[simp] theorem Chip.setLnk_svc (s : Chip) (l : Lnk) : (s.setLnk l).svc = s.svc := rfl
@[simp] theorem Chip.setLnk_ldr (s : Chip) (l : Lnk) : (s.setLnk l).ldr = s.ldr := rfl
@[simp] theorem Chip.setLnk_boot (s : Chip) (l : Lnk) : (s.setLnk l).boot = s.boot := rfl

@[simp] theorem Chip.setSyn_now (s : Chip) (y : Syn) : (s.setSyn y).now = s.now := rfl
@[simp] theorem Chip.setSyn_free (s : Chip) (y : Syn) : (s.setSyn y).free = s.free := rfl
@[simp] theorem Chip.setSyn_regs (s : Chip) (y : Syn) : (s.setSyn y).regs = s.regs := rfl
@[simp] theorem Chip.setSyn_sram (s : Chip) (y : Syn) : (s.setSyn y).sram = s.sram := rfl
@[simp] theorem Chip.setSyn_sramErr (s : Chip) (y : Syn) : (s.setSyn y).sramErr = s.sramErr := rfl
@[simp] theorem Chip.setSyn_flashOne (s : Chip) (y : Syn) : (s.setSyn y).flashOne = s.flashOne := rfl
@[simp] theorem Chip.setSyn_flashErr (s : Chip) (y : Syn) : (s.setSyn y).flashErr = s.flashErr := rfl
@[simp] theorem Chip.setSyn_busAt (s : Chip) (y : Syn) : (s.setSyn y).busAt = s.busAt := rfl
@[simp] theorem Chip.setSyn_busUse (s : Chip) (y : Syn) : (s.setSyn y).busUse = s.busUse := rfl
@[simp] theorem Chip.setSyn_sramLost (s : Chip) (y : Syn) : (s.setSyn y).sramLost = s.sramLost := rfl
@[simp] theorem Chip.setSyn_flash (s : Chip) (y : Syn) : (s.setSyn y).flash = s.flash := rfl
@[simp] theorem Chip.setSyn_flashBad (s : Chip) (y : Syn) : (s.setSyn y).flashBad = s.flashBad := rfl
@[simp] theorem Chip.setSyn_flashBadSec (s : Chip) (y : Syn) : (s.setSyn y).flashBadSec = s.flashBadSec := rfl
@[simp] theorem Chip.setSyn_otp (s : Chip) (y : Syn) : (s.setSyn y).otp = s.otp := rfl
@[simp] theorem Chip.setSyn_mirror (s : Chip) (y : Syn) : (s.setSyn y).mirror = s.mirror := rfl
@[simp] theorem Chip.setSyn_rdata (s : Chip) (y : Syn) : (s.setSyn y).rdata = s.rdata := rfl
@[simp] theorem Chip.setSyn_stamped (s : Chip) (y : Syn) : (s.setSyn y).stamped = s.stamped := rfl
@[simp] theorem Chip.setSyn_owl (s : Chip) (y : Syn) : (s.setSyn y).owl = s.owl := rfl
@[simp] theorem Chip.setSyn_cfg (s : Chip) (y : Syn) : (s.setSyn y).cfg = s.cfg := rfl
@[simp] theorem Chip.setSyn_clk (s : Chip) (y : Syn) : (s.setSyn y).clk = s.clk := rfl
@[simp] theorem Chip.setSyn_pins (s : Chip) (y : Syn) : (s.setSyn y).pins = s.pins := rfl
@[simp] theorem Chip.setSyn_pwr (s : Chip) (y : Syn) : (s.setSyn y).pwr = s.pwr := rfl
@[simp] theorem Chip.setSyn_bear (s : Chip) (y : Syn) : (s.setSyn y).bear = s.bear := rfl
@[simp] theorem Chip.setSyn_mon (s : Chip) (y : Syn) : (s.setSyn y).mon = s.mon := rfl
@[simp] theorem Chip.setSyn_icu (s : Chip) (y : Syn) : (s.setSyn y).icu = s.icu := rfl
@[simp] theorem Chip.setSyn_evr (s : Chip) (y : Syn) : (s.setSyn y).evr = s.evr := rfl
@[simp] theorem Chip.setSyn_out (s : Chip) (y : Syn) : (s.setSyn y).out = s.out := rfl
@[simp] theorem Chip.setSyn_cores (s : Chip) (y : Syn) : (s.setSyn y).cores = s.cores := rfl
@[simp] theorem Chip.setSyn_tmr (s : Chip) (y : Syn) : (s.setSyn y).tmr = s.tmr := rfl
@[simp] theorem Chip.setSyn_flc (s : Chip) (y : Syn) : (s.setSyn y).flc = s.flc := rfl
@[simp] theorem Chip.setSyn_cph (s : Chip) (y : Syn) : (s.setSyn y).cph = s.cph := rfl
@[simp] theorem Chip.setSyn_lnk (s : Chip) (y : Syn) : (s.setSyn y).lnk = s.lnk := rfl
@[simp] theorem Chip.setSyn_stopping (s : Chip) (y : Syn) : (s.setSyn y).stopping = s.stopping := rfl
@[simp] theorem Chip.setSyn_mesh (s : Chip) (y : Syn) : (s.setSyn y).mesh = s.mesh := rfl
@[simp] theorem Chip.setSyn_nfc (s : Chip) (y : Syn) : (s.setSyn y).nfc = s.nfc := rfl
@[simp] theorem Chip.setSyn_hp (s : Chip) (y : Syn) : (s.setSyn y).hp = s.hp := rfl
@[simp] theorem Chip.setSyn_svc (s : Chip) (y : Syn) : (s.setSyn y).svc = s.svc := rfl
@[simp] theorem Chip.setSyn_ldr (s : Chip) (y : Syn) : (s.setSyn y).ldr = s.ldr := rfl
@[simp] theorem Chip.setSyn_boot (s : Chip) (y : Syn) : (s.setSyn y).boot = s.boot := rfl

@[simp] theorem Chip.setFlc_now (s : Chip) (f : Flc) : (s.setFlc f).now = s.now := rfl
@[simp] theorem Chip.setFlc_free (s : Chip) (f : Flc) : (s.setFlc f).free = s.free := rfl
@[simp] theorem Chip.setFlc_regs (s : Chip) (f : Flc) : (s.setFlc f).regs = s.regs := rfl
@[simp] theorem Chip.setFlc_sram (s : Chip) (f : Flc) : (s.setFlc f).sram = s.sram := rfl
@[simp] theorem Chip.setFlc_sramErr (s : Chip) (f : Flc) : (s.setFlc f).sramErr = s.sramErr := rfl
@[simp] theorem Chip.setFlc_flashOne (s : Chip) (f : Flc) : (s.setFlc f).flashOne = s.flashOne := rfl
@[simp] theorem Chip.setFlc_flashErr (s : Chip) (f : Flc) : (s.setFlc f).flashErr = s.flashErr := rfl
@[simp] theorem Chip.setFlc_busAt (s : Chip) (f : Flc) : (s.setFlc f).busAt = s.busAt := rfl
@[simp] theorem Chip.setFlc_busUse (s : Chip) (f : Flc) : (s.setFlc f).busUse = s.busUse := rfl
@[simp] theorem Chip.setFlc_sramLost (s : Chip) (f : Flc) : (s.setFlc f).sramLost = s.sramLost := rfl
@[simp] theorem Chip.setFlc_flash (s : Chip) (f : Flc) : (s.setFlc f).flash = s.flash := rfl
@[simp] theorem Chip.setFlc_flashBad (s : Chip) (f : Flc) : (s.setFlc f).flashBad = s.flashBad := rfl
@[simp] theorem Chip.setFlc_flashBadSec (s : Chip) (f : Flc) : (s.setFlc f).flashBadSec = s.flashBadSec := rfl
@[simp] theorem Chip.setFlc_otp (s : Chip) (f : Flc) : (s.setFlc f).otp = s.otp := rfl
@[simp] theorem Chip.setFlc_mirror (s : Chip) (f : Flc) : (s.setFlc f).mirror = s.mirror := rfl
@[simp] theorem Chip.setFlc_rdata (s : Chip) (f : Flc) : (s.setFlc f).rdata = s.rdata := rfl
@[simp] theorem Chip.setFlc_stamped (s : Chip) (f : Flc) : (s.setFlc f).stamped = s.stamped := rfl
@[simp] theorem Chip.setFlc_owl (s : Chip) (f : Flc) : (s.setFlc f).owl = s.owl := rfl
@[simp] theorem Chip.setFlc_cfg (s : Chip) (f : Flc) : (s.setFlc f).cfg = s.cfg := rfl
@[simp] theorem Chip.setFlc_clk (s : Chip) (f : Flc) : (s.setFlc f).clk = s.clk := rfl
@[simp] theorem Chip.setFlc_pins (s : Chip) (f : Flc) : (s.setFlc f).pins = s.pins := rfl
@[simp] theorem Chip.setFlc_pwr (s : Chip) (f : Flc) : (s.setFlc f).pwr = s.pwr := rfl
@[simp] theorem Chip.setFlc_bear (s : Chip) (f : Flc) : (s.setFlc f).bear = s.bear := rfl
@[simp] theorem Chip.setFlc_mon (s : Chip) (f : Flc) : (s.setFlc f).mon = s.mon := rfl
@[simp] theorem Chip.setFlc_icu (s : Chip) (f : Flc) : (s.setFlc f).icu = s.icu := rfl
@[simp] theorem Chip.setFlc_evr (s : Chip) (f : Flc) : (s.setFlc f).evr = s.evr := rfl
@[simp] theorem Chip.setFlc_out (s : Chip) (f : Flc) : (s.setFlc f).out = s.out := rfl
@[simp] theorem Chip.setFlc_cores (s : Chip) (f : Flc) : (s.setFlc f).cores = s.cores := rfl
@[simp] theorem Chip.setFlc_tmr (s : Chip) (f : Flc) : (s.setFlc f).tmr = s.tmr := rfl
@[simp] theorem Chip.setFlc_cph (s : Chip) (f : Flc) : (s.setFlc f).cph = s.cph := rfl
@[simp] theorem Chip.setFlc_syn (s : Chip) (f : Flc) : (s.setFlc f).syn = s.syn := rfl
@[simp] theorem Chip.setFlc_lnk (s : Chip) (f : Flc) : (s.setFlc f).lnk = s.lnk := rfl
@[simp] theorem Chip.setFlc_stopping (s : Chip) (f : Flc) : (s.setFlc f).stopping = s.stopping := rfl
@[simp] theorem Chip.setFlc_mesh (s : Chip) (f : Flc) : (s.setFlc f).mesh = s.mesh := rfl
@[simp] theorem Chip.setFlc_nfc (s : Chip) (f : Flc) : (s.setFlc f).nfc = s.nfc := rfl
@[simp] theorem Chip.setFlc_hp (s : Chip) (f : Flc) : (s.setFlc f).hp = s.hp := rfl
@[simp] theorem Chip.setFlc_svc (s : Chip) (f : Flc) : (s.setFlc f).svc = s.svc := rfl
@[simp] theorem Chip.setFlc_ldr (s : Chip) (f : Flc) : (s.setFlc f).ldr = s.ldr := rfl
@[simp] theorem Chip.setFlc_boot (s : Chip) (f : Flc) : (s.setFlc f).boot = s.boot := rfl

@[simp] theorem Chip.setCph_now (s : Chip) (c : Cph) : (s.setCph c).now = s.now := rfl
@[simp] theorem Chip.setCph_free (s : Chip) (c : Cph) : (s.setCph c).free = s.free := rfl
@[simp] theorem Chip.setCph_regs (s : Chip) (c : Cph) : (s.setCph c).regs = s.regs := rfl
@[simp] theorem Chip.setCph_sram (s : Chip) (c : Cph) : (s.setCph c).sram = s.sram := rfl
@[simp] theorem Chip.setCph_sramErr (s : Chip) (c : Cph) : (s.setCph c).sramErr = s.sramErr := rfl
@[simp] theorem Chip.setCph_flashOne (s : Chip) (c : Cph) : (s.setCph c).flashOne = s.flashOne := rfl
@[simp] theorem Chip.setCph_flashErr (s : Chip) (c : Cph) : (s.setCph c).flashErr = s.flashErr := rfl
@[simp] theorem Chip.setCph_busAt (s : Chip) (c : Cph) : (s.setCph c).busAt = s.busAt := rfl
@[simp] theorem Chip.setCph_busUse (s : Chip) (c : Cph) : (s.setCph c).busUse = s.busUse := rfl
@[simp] theorem Chip.setCph_sramLost (s : Chip) (c : Cph) : (s.setCph c).sramLost = s.sramLost := rfl
@[simp] theorem Chip.setCph_flash (s : Chip) (c : Cph) : (s.setCph c).flash = s.flash := rfl
@[simp] theorem Chip.setCph_flashBad (s : Chip) (c : Cph) : (s.setCph c).flashBad = s.flashBad := rfl
@[simp] theorem Chip.setCph_flashBadSec (s : Chip) (c : Cph) : (s.setCph c).flashBadSec = s.flashBadSec := rfl
@[simp] theorem Chip.setCph_otp (s : Chip) (c : Cph) : (s.setCph c).otp = s.otp := rfl
@[simp] theorem Chip.setCph_mirror (s : Chip) (c : Cph) : (s.setCph c).mirror = s.mirror := rfl
@[simp] theorem Chip.setCph_rdata (s : Chip) (c : Cph) : (s.setCph c).rdata = s.rdata := rfl
@[simp] theorem Chip.setCph_stamped (s : Chip) (c : Cph) : (s.setCph c).stamped = s.stamped := rfl
@[simp] theorem Chip.setCph_owl (s : Chip) (c : Cph) : (s.setCph c).owl = s.owl := rfl
@[simp] theorem Chip.setCph_cfg (s : Chip) (c : Cph) : (s.setCph c).cfg = s.cfg := rfl
@[simp] theorem Chip.setCph_clk (s : Chip) (c : Cph) : (s.setCph c).clk = s.clk := rfl
@[simp] theorem Chip.setCph_pins (s : Chip) (c : Cph) : (s.setCph c).pins = s.pins := rfl
@[simp] theorem Chip.setCph_pwr (s : Chip) (c : Cph) : (s.setCph c).pwr = s.pwr := rfl
@[simp] theorem Chip.setCph_bear (s : Chip) (c : Cph) : (s.setCph c).bear = s.bear := rfl
@[simp] theorem Chip.setCph_mon (s : Chip) (c : Cph) : (s.setCph c).mon = s.mon := rfl
@[simp] theorem Chip.setCph_icu (s : Chip) (c : Cph) : (s.setCph c).icu = s.icu := rfl
@[simp] theorem Chip.setCph_evr (s : Chip) (c : Cph) : (s.setCph c).evr = s.evr := rfl
@[simp] theorem Chip.setCph_out (s : Chip) (c : Cph) : (s.setCph c).out = s.out := rfl
@[simp] theorem Chip.setCph_cores (s : Chip) (c : Cph) : (s.setCph c).cores = s.cores := rfl
@[simp] theorem Chip.setCph_tmr (s : Chip) (c : Cph) : (s.setCph c).tmr = s.tmr := rfl
@[simp] theorem Chip.setCph_flc (s : Chip) (c : Cph) : (s.setCph c).flc = s.flc := rfl
@[simp] theorem Chip.setCph_syn (s : Chip) (c : Cph) : (s.setCph c).syn = s.syn := rfl
@[simp] theorem Chip.setCph_lnk (s : Chip) (c : Cph) : (s.setCph c).lnk = s.lnk := rfl
@[simp] theorem Chip.setCph_stopping (s : Chip) (c : Cph) : (s.setCph c).stopping = s.stopping := rfl
@[simp] theorem Chip.setCph_mesh (s : Chip) (c : Cph) : (s.setCph c).mesh = s.mesh := rfl
@[simp] theorem Chip.setCph_nfc (s : Chip) (c : Cph) : (s.setCph c).nfc = s.nfc := rfl
@[simp] theorem Chip.setCph_hp (s : Chip) (c : Cph) : (s.setCph c).hp = s.hp := rfl
@[simp] theorem Chip.setCph_svc (s : Chip) (c : Cph) : (s.setCph c).svc = s.svc := rfl
@[simp] theorem Chip.setCph_ldr (s : Chip) (c : Cph) : (s.setCph c).ldr = s.ldr := rfl
@[simp] theorem Chip.setCph_boot (s : Chip) (c : Cph) : (s.setCph c).boot = s.boot := rfl

@[simp] theorem Chip.setMesh_now (s : Chip) (m : Mesh) : (s.setMesh m).now = s.now := rfl
@[simp] theorem Chip.setMesh_free (s : Chip) (m : Mesh) : (s.setMesh m).free = s.free := rfl
@[simp] theorem Chip.setMesh_regs (s : Chip) (m : Mesh) : (s.setMesh m).regs = s.regs := rfl
@[simp] theorem Chip.setMesh_sram (s : Chip) (m : Mesh) : (s.setMesh m).sram = s.sram := rfl
@[simp] theorem Chip.setMesh_sramErr (s : Chip) (m : Mesh) : (s.setMesh m).sramErr = s.sramErr := rfl
@[simp] theorem Chip.setMesh_flashOne (s : Chip) (m : Mesh) : (s.setMesh m).flashOne = s.flashOne := rfl
@[simp] theorem Chip.setMesh_flashErr (s : Chip) (m : Mesh) : (s.setMesh m).flashErr = s.flashErr := rfl
@[simp] theorem Chip.setMesh_busAt (s : Chip) (m : Mesh) : (s.setMesh m).busAt = s.busAt := rfl
@[simp] theorem Chip.setMesh_busUse (s : Chip) (m : Mesh) : (s.setMesh m).busUse = s.busUse := rfl
@[simp] theorem Chip.setMesh_sramLost (s : Chip) (m : Mesh) : (s.setMesh m).sramLost = s.sramLost := rfl
@[simp] theorem Chip.setMesh_flash (s : Chip) (m : Mesh) : (s.setMesh m).flash = s.flash := rfl
@[simp] theorem Chip.setMesh_flashBad (s : Chip) (m : Mesh) : (s.setMesh m).flashBad = s.flashBad := rfl
@[simp] theorem Chip.setMesh_flashBadSec (s : Chip) (m : Mesh) : (s.setMesh m).flashBadSec = s.flashBadSec := rfl
@[simp] theorem Chip.setMesh_otp (s : Chip) (m : Mesh) : (s.setMesh m).otp = s.otp := rfl
@[simp] theorem Chip.setMesh_mirror (s : Chip) (m : Mesh) : (s.setMesh m).mirror = s.mirror := rfl
@[simp] theorem Chip.setMesh_rdata (s : Chip) (m : Mesh) : (s.setMesh m).rdata = s.rdata := rfl
@[simp] theorem Chip.setMesh_stamped (s : Chip) (m : Mesh) : (s.setMesh m).stamped = s.stamped := rfl
@[simp] theorem Chip.setMesh_owl (s : Chip) (m : Mesh) : (s.setMesh m).owl = s.owl := rfl
@[simp] theorem Chip.setMesh_cfg (s : Chip) (m : Mesh) : (s.setMesh m).cfg = s.cfg := rfl
@[simp] theorem Chip.setMesh_clk (s : Chip) (m : Mesh) : (s.setMesh m).clk = s.clk := rfl
@[simp] theorem Chip.setMesh_pins (s : Chip) (m : Mesh) : (s.setMesh m).pins = s.pins := rfl
@[simp] theorem Chip.setMesh_pwr (s : Chip) (m : Mesh) : (s.setMesh m).pwr = s.pwr := rfl
@[simp] theorem Chip.setMesh_bear (s : Chip) (m : Mesh) : (s.setMesh m).bear = s.bear := rfl
@[simp] theorem Chip.setMesh_mon (s : Chip) (m : Mesh) : (s.setMesh m).mon = s.mon := rfl
@[simp] theorem Chip.setMesh_icu (s : Chip) (m : Mesh) : (s.setMesh m).icu = s.icu := rfl
@[simp] theorem Chip.setMesh_evr (s : Chip) (m : Mesh) : (s.setMesh m).evr = s.evr := rfl
@[simp] theorem Chip.setMesh_out (s : Chip) (m : Mesh) : (s.setMesh m).out = s.out := rfl
@[simp] theorem Chip.setMesh_cores (s : Chip) (m : Mesh) : (s.setMesh m).cores = s.cores := rfl
@[simp] theorem Chip.setMesh_tmr (s : Chip) (m : Mesh) : (s.setMesh m).tmr = s.tmr := rfl
@[simp] theorem Chip.setMesh_flc (s : Chip) (m : Mesh) : (s.setMesh m).flc = s.flc := rfl
@[simp] theorem Chip.setMesh_cph (s : Chip) (m : Mesh) : (s.setMesh m).cph = s.cph := rfl
@[simp] theorem Chip.setMesh_syn (s : Chip) (m : Mesh) : (s.setMesh m).syn = s.syn := rfl
@[simp] theorem Chip.setMesh_lnk (s : Chip) (m : Mesh) : (s.setMesh m).lnk = s.lnk := rfl
@[simp] theorem Chip.setMesh_stopping (s : Chip) (m : Mesh) : (s.setMesh m).stopping = s.stopping := rfl
@[simp] theorem Chip.setMesh_nfc (s : Chip) (m : Mesh) : (s.setMesh m).nfc = s.nfc := rfl
@[simp] theorem Chip.setMesh_hp (s : Chip) (m : Mesh) : (s.setMesh m).hp = s.hp := rfl
@[simp] theorem Chip.setMesh_svc (s : Chip) (m : Mesh) : (s.setMesh m).svc = s.svc := rfl
@[simp] theorem Chip.setMesh_ldr (s : Chip) (m : Mesh) : (s.setMesh m).ldr = s.ldr := rfl
@[simp] theorem Chip.setMesh_boot (s : Chip) (m : Mesh) : (s.setMesh m).boot = s.boot := rfl

@[simp] theorem Chip.setNfc_now (s : Chip) (n : Nfc) : (s.setNfc n).now = s.now := rfl
@[simp] theorem Chip.setNfc_free (s : Chip) (n : Nfc) : (s.setNfc n).free = s.free := rfl
@[simp] theorem Chip.setNfc_regs (s : Chip) (n : Nfc) : (s.setNfc n).regs = s.regs := rfl
@[simp] theorem Chip.setNfc_sram (s : Chip) (n : Nfc) : (s.setNfc n).sram = s.sram := rfl
@[simp] theorem Chip.setNfc_sramErr (s : Chip) (n : Nfc) : (s.setNfc n).sramErr = s.sramErr := rfl
@[simp] theorem Chip.setNfc_flashOne (s : Chip) (n : Nfc) : (s.setNfc n).flashOne = s.flashOne := rfl
@[simp] theorem Chip.setNfc_flashErr (s : Chip) (n : Nfc) : (s.setNfc n).flashErr = s.flashErr := rfl
@[simp] theorem Chip.setNfc_busAt (s : Chip) (n : Nfc) : (s.setNfc n).busAt = s.busAt := rfl
@[simp] theorem Chip.setNfc_busUse (s : Chip) (n : Nfc) : (s.setNfc n).busUse = s.busUse := rfl
@[simp] theorem Chip.setNfc_sramLost (s : Chip) (n : Nfc) : (s.setNfc n).sramLost = s.sramLost := rfl
@[simp] theorem Chip.setNfc_flash (s : Chip) (n : Nfc) : (s.setNfc n).flash = s.flash := rfl
@[simp] theorem Chip.setNfc_flashBad (s : Chip) (n : Nfc) : (s.setNfc n).flashBad = s.flashBad := rfl
@[simp] theorem Chip.setNfc_flashBadSec (s : Chip) (n : Nfc) : (s.setNfc n).flashBadSec = s.flashBadSec := rfl
@[simp] theorem Chip.setNfc_otp (s : Chip) (n : Nfc) : (s.setNfc n).otp = s.otp := rfl
@[simp] theorem Chip.setNfc_mirror (s : Chip) (n : Nfc) : (s.setNfc n).mirror = s.mirror := rfl
@[simp] theorem Chip.setNfc_rdata (s : Chip) (n : Nfc) : (s.setNfc n).rdata = s.rdata := rfl
@[simp] theorem Chip.setNfc_stamped (s : Chip) (n : Nfc) : (s.setNfc n).stamped = s.stamped := rfl
@[simp] theorem Chip.setNfc_owl (s : Chip) (n : Nfc) : (s.setNfc n).owl = s.owl := rfl
@[simp] theorem Chip.setNfc_cfg (s : Chip) (n : Nfc) : (s.setNfc n).cfg = s.cfg := rfl
@[simp] theorem Chip.setNfc_clk (s : Chip) (n : Nfc) : (s.setNfc n).clk = s.clk := rfl
@[simp] theorem Chip.setNfc_pins (s : Chip) (n : Nfc) : (s.setNfc n).pins = s.pins := rfl
@[simp] theorem Chip.setNfc_pwr (s : Chip) (n : Nfc) : (s.setNfc n).pwr = s.pwr := rfl
@[simp] theorem Chip.setNfc_bear (s : Chip) (n : Nfc) : (s.setNfc n).bear = s.bear := rfl
@[simp] theorem Chip.setNfc_mon (s : Chip) (n : Nfc) : (s.setNfc n).mon = s.mon := rfl
@[simp] theorem Chip.setNfc_icu (s : Chip) (n : Nfc) : (s.setNfc n).icu = s.icu := rfl
@[simp] theorem Chip.setNfc_evr (s : Chip) (n : Nfc) : (s.setNfc n).evr = s.evr := rfl
@[simp] theorem Chip.setNfc_out (s : Chip) (n : Nfc) : (s.setNfc n).out = s.out := rfl
@[simp] theorem Chip.setNfc_cores (s : Chip) (n : Nfc) : (s.setNfc n).cores = s.cores := rfl
@[simp] theorem Chip.setNfc_tmr (s : Chip) (n : Nfc) : (s.setNfc n).tmr = s.tmr := rfl
@[simp] theorem Chip.setNfc_flc (s : Chip) (n : Nfc) : (s.setNfc n).flc = s.flc := rfl
@[simp] theorem Chip.setNfc_cph (s : Chip) (n : Nfc) : (s.setNfc n).cph = s.cph := rfl
@[simp] theorem Chip.setNfc_syn (s : Chip) (n : Nfc) : (s.setNfc n).syn = s.syn := rfl
@[simp] theorem Chip.setNfc_lnk (s : Chip) (n : Nfc) : (s.setNfc n).lnk = s.lnk := rfl
@[simp] theorem Chip.setNfc_stopping (s : Chip) (n : Nfc) : (s.setNfc n).stopping = s.stopping := rfl
@[simp] theorem Chip.setNfc_mesh (s : Chip) (n : Nfc) : (s.setNfc n).mesh = s.mesh := rfl
@[simp] theorem Chip.setNfc_hp (s : Chip) (n : Nfc) : (s.setNfc n).hp = s.hp := rfl
@[simp] theorem Chip.setNfc_svc (s : Chip) (n : Nfc) : (s.setNfc n).svc = s.svc := rfl
@[simp] theorem Chip.setNfc_ldr (s : Chip) (n : Nfc) : (s.setNfc n).ldr = s.ldr := rfl
@[simp] theorem Chip.setNfc_boot (s : Chip) (n : Nfc) : (s.setNfc n).boot = s.boot := rfl

@[simp] theorem Chip.setLdr_now (s : Chip) (l : Ldr) : (s.setLdr l).now = s.now := rfl
@[simp] theorem Chip.setLdr_free (s : Chip) (l : Ldr) : (s.setLdr l).free = s.free := rfl
@[simp] theorem Chip.setLdr_regs (s : Chip) (l : Ldr) : (s.setLdr l).regs = s.regs := rfl
@[simp] theorem Chip.setLdr_sram (s : Chip) (l : Ldr) : (s.setLdr l).sram = s.sram := rfl
@[simp] theorem Chip.setLdr_sramErr (s : Chip) (l : Ldr) : (s.setLdr l).sramErr = s.sramErr := rfl
@[simp] theorem Chip.setLdr_flashOne (s : Chip) (l : Ldr) : (s.setLdr l).flashOne = s.flashOne := rfl
@[simp] theorem Chip.setLdr_flashErr (s : Chip) (l : Ldr) : (s.setLdr l).flashErr = s.flashErr := rfl
@[simp] theorem Chip.setLdr_busAt (s : Chip) (l : Ldr) : (s.setLdr l).busAt = s.busAt := rfl
@[simp] theorem Chip.setLdr_busUse (s : Chip) (l : Ldr) : (s.setLdr l).busUse = s.busUse := rfl
@[simp] theorem Chip.setLdr_sramLost (s : Chip) (l : Ldr) : (s.setLdr l).sramLost = s.sramLost := rfl
@[simp] theorem Chip.setLdr_flash (s : Chip) (l : Ldr) : (s.setLdr l).flash = s.flash := rfl
@[simp] theorem Chip.setLdr_flashBad (s : Chip) (l : Ldr) : (s.setLdr l).flashBad = s.flashBad := rfl
@[simp] theorem Chip.setLdr_flashBadSec (s : Chip) (l : Ldr) : (s.setLdr l).flashBadSec = s.flashBadSec := rfl
@[simp] theorem Chip.setLdr_otp (s : Chip) (l : Ldr) : (s.setLdr l).otp = s.otp := rfl
@[simp] theorem Chip.setLdr_mirror (s : Chip) (l : Ldr) : (s.setLdr l).mirror = s.mirror := rfl
@[simp] theorem Chip.setLdr_rdata (s : Chip) (l : Ldr) : (s.setLdr l).rdata = s.rdata := rfl
@[simp] theorem Chip.setLdr_stamped (s : Chip) (l : Ldr) : (s.setLdr l).stamped = s.stamped := rfl
@[simp] theorem Chip.setLdr_owl (s : Chip) (l : Ldr) : (s.setLdr l).owl = s.owl := rfl
@[simp] theorem Chip.setLdr_cfg (s : Chip) (l : Ldr) : (s.setLdr l).cfg = s.cfg := rfl
@[simp] theorem Chip.setLdr_clk (s : Chip) (l : Ldr) : (s.setLdr l).clk = s.clk := rfl
@[simp] theorem Chip.setLdr_pins (s : Chip) (l : Ldr) : (s.setLdr l).pins = s.pins := rfl
@[simp] theorem Chip.setLdr_pwr (s : Chip) (l : Ldr) : (s.setLdr l).pwr = s.pwr := rfl
@[simp] theorem Chip.setLdr_bear (s : Chip) (l : Ldr) : (s.setLdr l).bear = s.bear := rfl
@[simp] theorem Chip.setLdr_mon (s : Chip) (l : Ldr) : (s.setLdr l).mon = s.mon := rfl
@[simp] theorem Chip.setLdr_icu (s : Chip) (l : Ldr) : (s.setLdr l).icu = s.icu := rfl
@[simp] theorem Chip.setLdr_evr (s : Chip) (l : Ldr) : (s.setLdr l).evr = s.evr := rfl
@[simp] theorem Chip.setLdr_out (s : Chip) (l : Ldr) : (s.setLdr l).out = s.out := rfl
@[simp] theorem Chip.setLdr_cores (s : Chip) (l : Ldr) : (s.setLdr l).cores = s.cores := rfl
@[simp] theorem Chip.setLdr_tmr (s : Chip) (l : Ldr) : (s.setLdr l).tmr = s.tmr := rfl
@[simp] theorem Chip.setLdr_flc (s : Chip) (l : Ldr) : (s.setLdr l).flc = s.flc := rfl
@[simp] theorem Chip.setLdr_cph (s : Chip) (l : Ldr) : (s.setLdr l).cph = s.cph := rfl
@[simp] theorem Chip.setLdr_syn (s : Chip) (l : Ldr) : (s.setLdr l).syn = s.syn := rfl
@[simp] theorem Chip.setLdr_lnk (s : Chip) (l : Ldr) : (s.setLdr l).lnk = s.lnk := rfl
@[simp] theorem Chip.setLdr_stopping (s : Chip) (l : Ldr) : (s.setLdr l).stopping = s.stopping := rfl
@[simp] theorem Chip.setLdr_mesh (s : Chip) (l : Ldr) : (s.setLdr l).mesh = s.mesh := rfl
@[simp] theorem Chip.setLdr_nfc (s : Chip) (l : Ldr) : (s.setLdr l).nfc = s.nfc := rfl
@[simp] theorem Chip.setLdr_hp (s : Chip) (l : Ldr) : (s.setLdr l).hp = s.hp := rfl
@[simp] theorem Chip.setLdr_svc (s : Chip) (l : Ldr) : (s.setLdr l).svc = s.svc := rfl
@[simp] theorem Chip.setLdr_boot (s : Chip) (l : Ldr) : (s.setLdr l).boot = s.boot := rfl

@[simp] theorem Chip.setTimer_now (s : Chip) (n : Nat) (t : TimerSt) : (s.setTimer n t).now = s.now := rfl
@[simp] theorem Chip.setTimer_free (s : Chip) (n : Nat) (t : TimerSt) : (s.setTimer n t).free = s.free := rfl
@[simp] theorem Chip.setTimer_regs (s : Chip) (n : Nat) (t : TimerSt) : (s.setTimer n t).regs = s.regs := rfl
@[simp] theorem Chip.setTimer_sram (s : Chip) (n : Nat) (t : TimerSt) : (s.setTimer n t).sram = s.sram := rfl
@[simp] theorem Chip.setTimer_sramErr (s : Chip) (n : Nat) (t : TimerSt) : (s.setTimer n t).sramErr = s.sramErr := rfl
@[simp] theorem Chip.setTimer_flashOne (s : Chip) (n : Nat) (t : TimerSt) : (s.setTimer n t).flashOne = s.flashOne := rfl
@[simp] theorem Chip.setTimer_flashErr (s : Chip) (n : Nat) (t : TimerSt) : (s.setTimer n t).flashErr = s.flashErr := rfl
@[simp] theorem Chip.setTimer_busAt (s : Chip) (n : Nat) (t : TimerSt) : (s.setTimer n t).busAt = s.busAt := rfl
@[simp] theorem Chip.setTimer_busUse (s : Chip) (n : Nat) (t : TimerSt) : (s.setTimer n t).busUse = s.busUse := rfl
@[simp] theorem Chip.setTimer_sramLost (s : Chip) (n : Nat) (t : TimerSt) : (s.setTimer n t).sramLost = s.sramLost := rfl
@[simp] theorem Chip.setTimer_flash (s : Chip) (n : Nat) (t : TimerSt) : (s.setTimer n t).flash = s.flash := rfl
@[simp] theorem Chip.setTimer_flashBad (s : Chip) (n : Nat) (t : TimerSt) : (s.setTimer n t).flashBad = s.flashBad := rfl
@[simp] theorem Chip.setTimer_flashBadSec (s : Chip) (n : Nat) (t : TimerSt) : (s.setTimer n t).flashBadSec = s.flashBadSec := rfl
@[simp] theorem Chip.setTimer_otp (s : Chip) (n : Nat) (t : TimerSt) : (s.setTimer n t).otp = s.otp := rfl
@[simp] theorem Chip.setTimer_mirror (s : Chip) (n : Nat) (t : TimerSt) : (s.setTimer n t).mirror = s.mirror := rfl
@[simp] theorem Chip.setTimer_rdata (s : Chip) (n : Nat) (t : TimerSt) : (s.setTimer n t).rdata = s.rdata := rfl
@[simp] theorem Chip.setTimer_stamped (s : Chip) (n : Nat) (t : TimerSt) : (s.setTimer n t).stamped = s.stamped := rfl
@[simp] theorem Chip.setTimer_owl (s : Chip) (n : Nat) (t : TimerSt) : (s.setTimer n t).owl = s.owl := rfl
@[simp] theorem Chip.setTimer_cfg (s : Chip) (n : Nat) (t : TimerSt) : (s.setTimer n t).cfg = s.cfg := rfl
@[simp] theorem Chip.setTimer_clk (s : Chip) (n : Nat) (t : TimerSt) : (s.setTimer n t).clk = s.clk := rfl
@[simp] theorem Chip.setTimer_pins (s : Chip) (n : Nat) (t : TimerSt) : (s.setTimer n t).pins = s.pins := rfl
@[simp] theorem Chip.setTimer_pwr (s : Chip) (n : Nat) (t : TimerSt) : (s.setTimer n t).pwr = s.pwr := rfl
@[simp] theorem Chip.setTimer_bear (s : Chip) (n : Nat) (t : TimerSt) : (s.setTimer n t).bear = s.bear := rfl
@[simp] theorem Chip.setTimer_mon (s : Chip) (n : Nat) (t : TimerSt) : (s.setTimer n t).mon = s.mon := rfl
@[simp] theorem Chip.setTimer_icu (s : Chip) (n : Nat) (t : TimerSt) : (s.setTimer n t).icu = s.icu := rfl
@[simp] theorem Chip.setTimer_evr (s : Chip) (n : Nat) (t : TimerSt) : (s.setTimer n t).evr = s.evr := rfl
@[simp] theorem Chip.setTimer_out (s : Chip) (n : Nat) (t : TimerSt) : (s.setTimer n t).out = s.out := rfl
@[simp] theorem Chip.setTimer_cores (s : Chip) (n : Nat) (t : TimerSt) : (s.setTimer n t).cores = s.cores := rfl
@[simp] theorem Chip.setTimer_flc (s : Chip) (n : Nat) (t : TimerSt) : (s.setTimer n t).flc = s.flc := rfl
@[simp] theorem Chip.setTimer_cph (s : Chip) (n : Nat) (t : TimerSt) : (s.setTimer n t).cph = s.cph := rfl
@[simp] theorem Chip.setTimer_syn (s : Chip) (n : Nat) (t : TimerSt) : (s.setTimer n t).syn = s.syn := rfl
@[simp] theorem Chip.setTimer_lnk (s : Chip) (n : Nat) (t : TimerSt) : (s.setTimer n t).lnk = s.lnk := rfl
@[simp] theorem Chip.setTimer_stopping (s : Chip) (n : Nat) (t : TimerSt) : (s.setTimer n t).stopping = s.stopping := rfl
@[simp] theorem Chip.setTimer_mesh (s : Chip) (n : Nat) (t : TimerSt) : (s.setTimer n t).mesh = s.mesh := rfl
@[simp] theorem Chip.setTimer_nfc (s : Chip) (n : Nat) (t : TimerSt) : (s.setTimer n t).nfc = s.nfc := rfl
@[simp] theorem Chip.setTimer_hp (s : Chip) (n : Nat) (t : TimerSt) : (s.setTimer n t).hp = s.hp := rfl
@[simp] theorem Chip.setTimer_svc (s : Chip) (n : Nat) (t : TimerSt) : (s.setTimer n t).svc = s.svc := rfl
@[simp] theorem Chip.setTimer_ldr (s : Chip) (n : Nat) (t : TimerSt) : (s.setTimer n t).ldr = s.ldr := rfl
@[simp] theorem Chip.setTimer_boot (s : Chip) (n : Nat) (t : TimerSt) : (s.setTimer n t).boot = s.boot := rfl

@[simp] theorem Chip.setLatch_now (s : Chip) (l : Latches) : (s.setLatch l).now = s.now := rfl
@[simp] theorem Chip.setLatch_free (s : Chip) (l : Latches) : (s.setLatch l).free = s.free := rfl
@[simp] theorem Chip.setLatch_regs (s : Chip) (l : Latches) : (s.setLatch l).regs = s.regs := rfl
@[simp] theorem Chip.setLatch_sram (s : Chip) (l : Latches) : (s.setLatch l).sram = s.sram := rfl
@[simp] theorem Chip.setLatch_sramErr (s : Chip) (l : Latches) : (s.setLatch l).sramErr = s.sramErr := rfl
@[simp] theorem Chip.setLatch_flashOne (s : Chip) (l : Latches) : (s.setLatch l).flashOne = s.flashOne := rfl
@[simp] theorem Chip.setLatch_flashErr (s : Chip) (l : Latches) : (s.setLatch l).flashErr = s.flashErr := rfl
@[simp] theorem Chip.setLatch_busAt (s : Chip) (l : Latches) : (s.setLatch l).busAt = s.busAt := rfl
@[simp] theorem Chip.setLatch_busUse (s : Chip) (l : Latches) : (s.setLatch l).busUse = s.busUse := rfl
@[simp] theorem Chip.setLatch_sramLost (s : Chip) (l : Latches) : (s.setLatch l).sramLost = s.sramLost := rfl
@[simp] theorem Chip.setLatch_flash (s : Chip) (l : Latches) : (s.setLatch l).flash = s.flash := rfl
@[simp] theorem Chip.setLatch_flashBad (s : Chip) (l : Latches) : (s.setLatch l).flashBad = s.flashBad := rfl
@[simp] theorem Chip.setLatch_flashBadSec (s : Chip) (l : Latches) : (s.setLatch l).flashBadSec = s.flashBadSec := rfl
@[simp] theorem Chip.setLatch_otp (s : Chip) (l : Latches) : (s.setLatch l).otp = s.otp := rfl
@[simp] theorem Chip.setLatch_mirror (s : Chip) (l : Latches) : (s.setLatch l).mirror = s.mirror := rfl
@[simp] theorem Chip.setLatch_rdata (s : Chip) (l : Latches) : (s.setLatch l).rdata = s.rdata := rfl
@[simp] theorem Chip.setLatch_stamped (s : Chip) (l : Latches) : (s.setLatch l).stamped = s.stamped := rfl
@[simp] theorem Chip.setLatch_owl (s : Chip) (l : Latches) : (s.setLatch l).owl = s.owl := rfl
@[simp] theorem Chip.setLatch_cfg (s : Chip) (l : Latches) : (s.setLatch l).cfg = s.cfg := rfl
@[simp] theorem Chip.setLatch_clk (s : Chip) (l : Latches) : (s.setLatch l).clk = s.clk := rfl
@[simp] theorem Chip.setLatch_pwr (s : Chip) (l : Latches) : (s.setLatch l).pwr = s.pwr := rfl
@[simp] theorem Chip.setLatch_bear (s : Chip) (l : Latches) : (s.setLatch l).bear = s.bear := rfl
@[simp] theorem Chip.setLatch_mon (s : Chip) (l : Latches) : (s.setLatch l).mon = s.mon := rfl
@[simp] theorem Chip.setLatch_icu (s : Chip) (l : Latches) : (s.setLatch l).icu = s.icu := rfl
@[simp] theorem Chip.setLatch_evr (s : Chip) (l : Latches) : (s.setLatch l).evr = s.evr := rfl
@[simp] theorem Chip.setLatch_out (s : Chip) (l : Latches) : (s.setLatch l).out = s.out := rfl
@[simp] theorem Chip.setLatch_cores (s : Chip) (l : Latches) : (s.setLatch l).cores = s.cores := rfl
@[simp] theorem Chip.setLatch_tmr (s : Chip) (l : Latches) : (s.setLatch l).tmr = s.tmr := rfl
@[simp] theorem Chip.setLatch_flc (s : Chip) (l : Latches) : (s.setLatch l).flc = s.flc := rfl
@[simp] theorem Chip.setLatch_cph (s : Chip) (l : Latches) : (s.setLatch l).cph = s.cph := rfl
@[simp] theorem Chip.setLatch_syn (s : Chip) (l : Latches) : (s.setLatch l).syn = s.syn := rfl
@[simp] theorem Chip.setLatch_lnk (s : Chip) (l : Latches) : (s.setLatch l).lnk = s.lnk := rfl
@[simp] theorem Chip.setLatch_stopping (s : Chip) (l : Latches) : (s.setLatch l).stopping = s.stopping := rfl
@[simp] theorem Chip.setLatch_mesh (s : Chip) (l : Latches) : (s.setLatch l).mesh = s.mesh := rfl
@[simp] theorem Chip.setLatch_nfc (s : Chip) (l : Latches) : (s.setLatch l).nfc = s.nfc := rfl
@[simp] theorem Chip.setLatch_hp (s : Chip) (l : Latches) : (s.setLatch l).hp = s.hp := rfl
@[simp] theorem Chip.setLatch_svc (s : Chip) (l : Latches) : (s.setLatch l).svc = s.svc := rfl
@[simp] theorem Chip.setLatch_ldr (s : Chip) (l : Latches) : (s.setLatch l).ldr = s.ldr := rfl
@[simp] theorem Chip.setLatch_boot (s : Chip) (l : Latches) : (s.setLatch l).boot = s.boot := rfl

@[simp] theorem Chip.draw_now (s : Chip) : (s.draw).now = s.now := rfl
@[simp] theorem Chip.draw_regs (s : Chip) : (s.draw).regs = s.regs := rfl
@[simp] theorem Chip.draw_sram (s : Chip) : (s.draw).sram = s.sram := rfl
@[simp] theorem Chip.draw_sramErr (s : Chip) : (s.draw).sramErr = s.sramErr := rfl
@[simp] theorem Chip.draw_flashOne (s : Chip) : (s.draw).flashOne = s.flashOne := rfl
@[simp] theorem Chip.draw_flashErr (s : Chip) : (s.draw).flashErr = s.flashErr := rfl
@[simp] theorem Chip.draw_busAt (s : Chip) : (s.draw).busAt = s.busAt := rfl
@[simp] theorem Chip.draw_busUse (s : Chip) : (s.draw).busUse = s.busUse := rfl
@[simp] theorem Chip.draw_sramLost (s : Chip) : (s.draw).sramLost = s.sramLost := rfl
@[simp] theorem Chip.draw_flash (s : Chip) : (s.draw).flash = s.flash := rfl
@[simp] theorem Chip.draw_flashBad (s : Chip) : (s.draw).flashBad = s.flashBad := rfl
@[simp] theorem Chip.draw_flashBadSec (s : Chip) : (s.draw).flashBadSec = s.flashBadSec := rfl
@[simp] theorem Chip.draw_otp (s : Chip) : (s.draw).otp = s.otp := rfl
@[simp] theorem Chip.draw_mirror (s : Chip) : (s.draw).mirror = s.mirror := rfl
@[simp] theorem Chip.draw_rdata (s : Chip) : (s.draw).rdata = s.rdata := rfl
@[simp] theorem Chip.draw_stamped (s : Chip) : (s.draw).stamped = s.stamped := rfl
@[simp] theorem Chip.draw_owl (s : Chip) : (s.draw).owl = s.owl := rfl
@[simp] theorem Chip.draw_cfg (s : Chip) : (s.draw).cfg = s.cfg := rfl
@[simp] theorem Chip.draw_clk (s : Chip) : (s.draw).clk = s.clk := rfl
@[simp] theorem Chip.draw_pins (s : Chip) : (s.draw).pins = s.pins := rfl
@[simp] theorem Chip.draw_pwr (s : Chip) : (s.draw).pwr = s.pwr := rfl
@[simp] theorem Chip.draw_bear (s : Chip) : (s.draw).bear = s.bear := rfl
@[simp] theorem Chip.draw_mon (s : Chip) : (s.draw).mon = s.mon := rfl
@[simp] theorem Chip.draw_icu (s : Chip) : (s.draw).icu = s.icu := rfl
@[simp] theorem Chip.draw_evr (s : Chip) : (s.draw).evr = s.evr := rfl
@[simp] theorem Chip.draw_out (s : Chip) : (s.draw).out = s.out := rfl
@[simp] theorem Chip.draw_cores (s : Chip) : (s.draw).cores = s.cores := rfl
@[simp] theorem Chip.draw_tmr (s : Chip) : (s.draw).tmr = s.tmr := rfl
@[simp] theorem Chip.draw_flc (s : Chip) : (s.draw).flc = s.flc := rfl
@[simp] theorem Chip.draw_cph (s : Chip) : (s.draw).cph = s.cph := rfl
@[simp] theorem Chip.draw_syn (s : Chip) : (s.draw).syn = s.syn := rfl
@[simp] theorem Chip.draw_lnk (s : Chip) : (s.draw).lnk = s.lnk := rfl
@[simp] theorem Chip.draw_stopping (s : Chip) : (s.draw).stopping = s.stopping := rfl
@[simp] theorem Chip.draw_mesh (s : Chip) : (s.draw).mesh = s.mesh := rfl
@[simp] theorem Chip.draw_nfc (s : Chip) : (s.draw).nfc = s.nfc := rfl
@[simp] theorem Chip.draw_hp (s : Chip) : (s.draw).hp = s.hp := rfl
@[simp] theorem Chip.draw_svc (s : Chip) : (s.draw).svc = s.svc := rfl
@[simp] theorem Chip.draw_ldr (s : Chip) : (s.draw).ldr = s.ldr := rfl
@[simp] theorem Chip.draw_boot (s : Chip) : (s.draw).boot = s.boot := rfl

@[simp] theorem Chip.setCore_now (s : Chip) (c : Core) (x : CoreSt) : (s.setCore c x).now = s.now := by cases c <;> rfl
@[simp] theorem Chip.setCore_free (s : Chip) (c : Core) (x : CoreSt) : (s.setCore c x).free = s.free := by cases c <;> rfl
@[simp] theorem Chip.setCore_regs (s : Chip) (c : Core) (x : CoreSt) : (s.setCore c x).regs = s.regs := by cases c <;> rfl
@[simp] theorem Chip.setCore_sram (s : Chip) (c : Core) (x : CoreSt) : (s.setCore c x).sram = s.sram := by cases c <;> rfl
@[simp] theorem Chip.setCore_sramErr (s : Chip) (c : Core) (x : CoreSt) : (s.setCore c x).sramErr = s.sramErr := by cases c <;> rfl
@[simp] theorem Chip.setCore_flashOne (s : Chip) (c : Core) (x : CoreSt) : (s.setCore c x).flashOne = s.flashOne := by cases c <;> rfl
@[simp] theorem Chip.setCore_flashErr (s : Chip) (c : Core) (x : CoreSt) : (s.setCore c x).flashErr = s.flashErr := by cases c <;> rfl
@[simp] theorem Chip.setCore_busAt (s : Chip) (c : Core) (x : CoreSt) : (s.setCore c x).busAt = s.busAt := by cases c <;> rfl
@[simp] theorem Chip.setCore_busUse (s : Chip) (c : Core) (x : CoreSt) : (s.setCore c x).busUse = s.busUse := by cases c <;> rfl
@[simp] theorem Chip.setCore_sramLost (s : Chip) (c : Core) (x : CoreSt) : (s.setCore c x).sramLost = s.sramLost := by cases c <;> rfl
@[simp] theorem Chip.setCore_flash (s : Chip) (c : Core) (x : CoreSt) : (s.setCore c x).flash = s.flash := by cases c <;> rfl
@[simp] theorem Chip.setCore_flashBad (s : Chip) (c : Core) (x : CoreSt) : (s.setCore c x).flashBad = s.flashBad := by cases c <;> rfl
@[simp] theorem Chip.setCore_flashBadSec (s : Chip) (c : Core) (x : CoreSt) : (s.setCore c x).flashBadSec = s.flashBadSec := by cases c <;> rfl
@[simp] theorem Chip.setCore_otp (s : Chip) (c : Core) (x : CoreSt) : (s.setCore c x).otp = s.otp := by cases c <;> rfl
@[simp] theorem Chip.setCore_mirror (s : Chip) (c : Core) (x : CoreSt) : (s.setCore c x).mirror = s.mirror := by cases c <;> rfl
@[simp] theorem Chip.setCore_rdata (s : Chip) (c : Core) (x : CoreSt) : (s.setCore c x).rdata = s.rdata := by cases c <;> rfl
@[simp] theorem Chip.setCore_stamped (s : Chip) (c : Core) (x : CoreSt) : (s.setCore c x).stamped = s.stamped := by cases c <;> rfl
@[simp] theorem Chip.setCore_owl (s : Chip) (c : Core) (x : CoreSt) : (s.setCore c x).owl = s.owl := by cases c <;> rfl
@[simp] theorem Chip.setCore_cfg (s : Chip) (c : Core) (x : CoreSt) : (s.setCore c x).cfg = s.cfg := by cases c <;> rfl
@[simp] theorem Chip.setCore_clk (s : Chip) (c : Core) (x : CoreSt) : (s.setCore c x).clk = s.clk := by cases c <;> rfl
@[simp] theorem Chip.setCore_pins (s : Chip) (c : Core) (x : CoreSt) : (s.setCore c x).pins = s.pins := by cases c <;> rfl
@[simp] theorem Chip.setCore_pwr (s : Chip) (c : Core) (x : CoreSt) : (s.setCore c x).pwr = s.pwr := by cases c <;> rfl
@[simp] theorem Chip.setCore_bear (s : Chip) (c : Core) (x : CoreSt) : (s.setCore c x).bear = s.bear := by cases c <;> rfl
@[simp] theorem Chip.setCore_mon (s : Chip) (c : Core) (x : CoreSt) : (s.setCore c x).mon = s.mon := by cases c <;> rfl
@[simp] theorem Chip.setCore_icu (s : Chip) (c : Core) (x : CoreSt) : (s.setCore c x).icu = s.icu := by cases c <;> rfl
@[simp] theorem Chip.setCore_evr (s : Chip) (c : Core) (x : CoreSt) : (s.setCore c x).evr = s.evr := by cases c <;> rfl
@[simp] theorem Chip.setCore_out (s : Chip) (c : Core) (x : CoreSt) : (s.setCore c x).out = s.out := by cases c <;> rfl
@[simp] theorem Chip.setCore_tmr (s : Chip) (c : Core) (x : CoreSt) : (s.setCore c x).tmr = s.tmr := by cases c <;> rfl
@[simp] theorem Chip.setCore_flc (s : Chip) (c : Core) (x : CoreSt) : (s.setCore c x).flc = s.flc := by cases c <;> rfl
@[simp] theorem Chip.setCore_cph (s : Chip) (c : Core) (x : CoreSt) : (s.setCore c x).cph = s.cph := by cases c <;> rfl
@[simp] theorem Chip.setCore_syn (s : Chip) (c : Core) (x : CoreSt) : (s.setCore c x).syn = s.syn := by cases c <;> rfl
@[simp] theorem Chip.setCore_lnk (s : Chip) (c : Core) (x : CoreSt) : (s.setCore c x).lnk = s.lnk := by cases c <;> rfl
@[simp] theorem Chip.setCore_stopping (s : Chip) (c : Core) (x : CoreSt) : (s.setCore c x).stopping = s.stopping := by cases c <;> rfl
@[simp] theorem Chip.setCore_mesh (s : Chip) (c : Core) (x : CoreSt) : (s.setCore c x).mesh = s.mesh := by cases c <;> rfl
@[simp] theorem Chip.setCore_nfc (s : Chip) (c : Core) (x : CoreSt) : (s.setCore c x).nfc = s.nfc := by cases c <;> rfl
@[simp] theorem Chip.setCore_hp (s : Chip) (c : Core) (x : CoreSt) : (s.setCore c x).hp = s.hp := by cases c <;> rfl
@[simp] theorem Chip.setCore_svc (s : Chip) (c : Core) (x : CoreSt) : (s.setCore c x).svc = s.svc := by cases c <;> rfl
@[simp] theorem Chip.setCore_ldr (s : Chip) (c : Core) (x : CoreSt) : (s.setCore c x).ldr = s.ldr := by cases c <;> rfl
@[simp] theorem Chip.setCore_boot (s : Chip) (c : Core) (x : CoreSt) : (s.setCore c x).boot = s.boot := by cases c <;> rfl

@[simp] theorem Chip.wr_now (s : Chip) (a : Nat) (v : Word) : (s.wr a v).now = s.now := by unfold Chip.wr; split <;> rfl
@[simp] theorem Chip.wr_free (s : Chip) (a : Nat) (v : Word) : (s.wr a v).free = s.free := by unfold Chip.wr; split <;> rfl
@[simp] theorem Chip.wr_regs (s : Chip) (a : Nat) (v : Word) : (s.wr a v).regs = s.regs := by unfold Chip.wr; split <;> rfl
@[simp] theorem Chip.wr_flashOne (s : Chip) (a : Nat) (v : Word) : (s.wr a v).flashOne = s.flashOne := by unfold Chip.wr; split <;> rfl
@[simp] theorem Chip.wr_flashErr (s : Chip) (a : Nat) (v : Word) : (s.wr a v).flashErr = s.flashErr := by unfold Chip.wr; split <;> rfl
@[simp] theorem Chip.wr_busAt (s : Chip) (a : Nat) (v : Word) : (s.wr a v).busAt = s.busAt := by unfold Chip.wr; split <;> rfl
@[simp] theorem Chip.wr_busUse (s : Chip) (a : Nat) (v : Word) : (s.wr a v).busUse = s.busUse := by unfold Chip.wr; split <;> rfl
@[simp] theorem Chip.wr_sramLost (s : Chip) (a : Nat) (v : Word) : (s.wr a v).sramLost = s.sramLost := by unfold Chip.wr; split <;> rfl
@[simp] theorem Chip.wr_flash (s : Chip) (a : Nat) (v : Word) : (s.wr a v).flash = s.flash := by unfold Chip.wr; split <;> rfl
@[simp] theorem Chip.wr_flashBad (s : Chip) (a : Nat) (v : Word) : (s.wr a v).flashBad = s.flashBad := by unfold Chip.wr; split <;> rfl
@[simp] theorem Chip.wr_flashBadSec (s : Chip) (a : Nat) (v : Word) : (s.wr a v).flashBadSec = s.flashBadSec := by unfold Chip.wr; split <;> rfl
@[simp] theorem Chip.wr_otp (s : Chip) (a : Nat) (v : Word) : (s.wr a v).otp = s.otp := by unfold Chip.wr; split <;> rfl
@[simp] theorem Chip.wr_mirror (s : Chip) (a : Nat) (v : Word) : (s.wr a v).mirror = s.mirror := by unfold Chip.wr; split <;> rfl
@[simp] theorem Chip.wr_rdata (s : Chip) (a : Nat) (v : Word) : (s.wr a v).rdata = s.rdata := by unfold Chip.wr; split <;> rfl
@[simp] theorem Chip.wr_stamped (s : Chip) (a : Nat) (v : Word) : (s.wr a v).stamped = s.stamped := by unfold Chip.wr; split <;> rfl
@[simp] theorem Chip.wr_owl (s : Chip) (a : Nat) (v : Word) : (s.wr a v).owl = s.owl := by unfold Chip.wr; split <;> rfl
@[simp] theorem Chip.wr_cfg (s : Chip) (a : Nat) (v : Word) : (s.wr a v).cfg = s.cfg := by unfold Chip.wr; split <;> rfl
@[simp] theorem Chip.wr_clk (s : Chip) (a : Nat) (v : Word) : (s.wr a v).clk = s.clk := by unfold Chip.wr; split <;> rfl
@[simp] theorem Chip.wr_pins (s : Chip) (a : Nat) (v : Word) : (s.wr a v).pins = s.pins := by unfold Chip.wr; split <;> rfl
@[simp] theorem Chip.wr_pwr (s : Chip) (a : Nat) (v : Word) : (s.wr a v).pwr = s.pwr := by unfold Chip.wr; split <;> rfl
@[simp] theorem Chip.wr_bear (s : Chip) (a : Nat) (v : Word) : (s.wr a v).bear = s.bear := by unfold Chip.wr; split <;> rfl
@[simp] theorem Chip.wr_mon (s : Chip) (a : Nat) (v : Word) : (s.wr a v).mon = s.mon := by unfold Chip.wr; split <;> rfl
@[simp] theorem Chip.wr_icu (s : Chip) (a : Nat) (v : Word) : (s.wr a v).icu = s.icu := by unfold Chip.wr; split <;> rfl
@[simp] theorem Chip.wr_evr (s : Chip) (a : Nat) (v : Word) : (s.wr a v).evr = s.evr := by unfold Chip.wr; split <;> rfl
@[simp] theorem Chip.wr_out (s : Chip) (a : Nat) (v : Word) : (s.wr a v).out = s.out := by unfold Chip.wr; split <;> rfl
@[simp] theorem Chip.wr_cores (s : Chip) (a : Nat) (v : Word) : (s.wr a v).cores = s.cores := by unfold Chip.wr; split <;> rfl
@[simp] theorem Chip.wr_tmr (s : Chip) (a : Nat) (v : Word) : (s.wr a v).tmr = s.tmr := by unfold Chip.wr; split <;> rfl
@[simp] theorem Chip.wr_flc (s : Chip) (a : Nat) (v : Word) : (s.wr a v).flc = s.flc := by unfold Chip.wr; split <;> rfl
@[simp] theorem Chip.wr_cph (s : Chip) (a : Nat) (v : Word) : (s.wr a v).cph = s.cph := by unfold Chip.wr; split <;> rfl
@[simp] theorem Chip.wr_syn (s : Chip) (a : Nat) (v : Word) : (s.wr a v).syn = s.syn := by unfold Chip.wr; split <;> rfl
@[simp] theorem Chip.wr_lnk (s : Chip) (a : Nat) (v : Word) : (s.wr a v).lnk = s.lnk := by unfold Chip.wr; split <;> rfl
@[simp] theorem Chip.wr_stopping (s : Chip) (a : Nat) (v : Word) : (s.wr a v).stopping = s.stopping := by unfold Chip.wr; split <;> rfl
@[simp] theorem Chip.wr_mesh (s : Chip) (a : Nat) (v : Word) : (s.wr a v).mesh = s.mesh := by unfold Chip.wr; split <;> rfl
@[simp] theorem Chip.wr_nfc (s : Chip) (a : Nat) (v : Word) : (s.wr a v).nfc = s.nfc := by unfold Chip.wr; split <;> rfl
@[simp] theorem Chip.wr_hp (s : Chip) (a : Nat) (v : Word) : (s.wr a v).hp = s.hp := by unfold Chip.wr; split <;> rfl
@[simp] theorem Chip.wr_svc (s : Chip) (a : Nat) (v : Word) : (s.wr a v).svc = s.svc := by unfold Chip.wr; split <;> rfl
@[simp] theorem Chip.wr_ldr (s : Chip) (a : Nat) (v : Word) : (s.wr a v).ldr = s.ldr := by unfold Chip.wr; split <;> rfl
@[simp] theorem Chip.wr_boot (s : Chip) (a : Nat) (v : Word) : (s.wr a v).boot = s.boot := by unfold Chip.wr; split <;> rfl

@[simp] theorem Chip.bankTake_now (s : Chip) (ag : Agent) (a : Nat) : (s.bankTake ag a).2.now = s.now := by unfold Chip.bankTake; split <;> rfl
@[simp] theorem Chip.bankTake_free (s : Chip) (ag : Agent) (a : Nat) : (s.bankTake ag a).2.free = s.free := by unfold Chip.bankTake; split <;> rfl
@[simp] theorem Chip.bankTake_regs (s : Chip) (ag : Agent) (a : Nat) : (s.bankTake ag a).2.regs = s.regs := by unfold Chip.bankTake; split <;> rfl
@[simp] theorem Chip.bankTake_sram (s : Chip) (ag : Agent) (a : Nat) : (s.bankTake ag a).2.sram = s.sram := by unfold Chip.bankTake; split <;> rfl
@[simp] theorem Chip.bankTake_sramErr (s : Chip) (ag : Agent) (a : Nat) : (s.bankTake ag a).2.sramErr = s.sramErr := by unfold Chip.bankTake; split <;> rfl
@[simp] theorem Chip.bankTake_flashOne (s : Chip) (ag : Agent) (a : Nat) : (s.bankTake ag a).2.flashOne = s.flashOne := by unfold Chip.bankTake; split <;> rfl
@[simp] theorem Chip.bankTake_flashErr (s : Chip) (ag : Agent) (a : Nat) : (s.bankTake ag a).2.flashErr = s.flashErr := by unfold Chip.bankTake; split <;> rfl
@[simp] theorem Chip.bankTake_sramLost (s : Chip) (ag : Agent) (a : Nat) : (s.bankTake ag a).2.sramLost = s.sramLost := by unfold Chip.bankTake; split <;> rfl
@[simp] theorem Chip.bankTake_flash (s : Chip) (ag : Agent) (a : Nat) : (s.bankTake ag a).2.flash = s.flash := by unfold Chip.bankTake; split <;> rfl
@[simp] theorem Chip.bankTake_flashBad (s : Chip) (ag : Agent) (a : Nat) : (s.bankTake ag a).2.flashBad = s.flashBad := by unfold Chip.bankTake; split <;> rfl
@[simp] theorem Chip.bankTake_flashBadSec (s : Chip) (ag : Agent) (a : Nat) : (s.bankTake ag a).2.flashBadSec = s.flashBadSec := by unfold Chip.bankTake; split <;> rfl
@[simp] theorem Chip.bankTake_otp (s : Chip) (ag : Agent) (a : Nat) : (s.bankTake ag a).2.otp = s.otp := by unfold Chip.bankTake; split <;> rfl
@[simp] theorem Chip.bankTake_mirror (s : Chip) (ag : Agent) (a : Nat) : (s.bankTake ag a).2.mirror = s.mirror := by unfold Chip.bankTake; split <;> rfl
@[simp] theorem Chip.bankTake_rdata (s : Chip) (ag : Agent) (a : Nat) : (s.bankTake ag a).2.rdata = s.rdata := by unfold Chip.bankTake; split <;> rfl
@[simp] theorem Chip.bankTake_stamped (s : Chip) (ag : Agent) (a : Nat) : (s.bankTake ag a).2.stamped = s.stamped := by unfold Chip.bankTake; split <;> rfl
@[simp] theorem Chip.bankTake_owl (s : Chip) (ag : Agent) (a : Nat) : (s.bankTake ag a).2.owl = s.owl := by unfold Chip.bankTake; split <;> rfl
@[simp] theorem Chip.bankTake_cfg (s : Chip) (ag : Agent) (a : Nat) : (s.bankTake ag a).2.cfg = s.cfg := by unfold Chip.bankTake; split <;> rfl
@[simp] theorem Chip.bankTake_clk (s : Chip) (ag : Agent) (a : Nat) : (s.bankTake ag a).2.clk = s.clk := by unfold Chip.bankTake; split <;> rfl
@[simp] theorem Chip.bankTake_pins (s : Chip) (ag : Agent) (a : Nat) : (s.bankTake ag a).2.pins = s.pins := by unfold Chip.bankTake; split <;> rfl
@[simp] theorem Chip.bankTake_pwr (s : Chip) (ag : Agent) (a : Nat) : (s.bankTake ag a).2.pwr = s.pwr := by unfold Chip.bankTake; split <;> rfl
@[simp] theorem Chip.bankTake_bear (s : Chip) (ag : Agent) (a : Nat) : (s.bankTake ag a).2.bear = s.bear := by unfold Chip.bankTake; split <;> rfl
@[simp] theorem Chip.bankTake_mon (s : Chip) (ag : Agent) (a : Nat) : (s.bankTake ag a).2.mon = s.mon := by unfold Chip.bankTake; split <;> rfl
@[simp] theorem Chip.bankTake_icu (s : Chip) (ag : Agent) (a : Nat) : (s.bankTake ag a).2.icu = s.icu := by unfold Chip.bankTake; split <;> rfl
@[simp] theorem Chip.bankTake_evr (s : Chip) (ag : Agent) (a : Nat) : (s.bankTake ag a).2.evr = s.evr := by unfold Chip.bankTake; split <;> rfl
@[simp] theorem Chip.bankTake_out (s : Chip) (ag : Agent) (a : Nat) : (s.bankTake ag a).2.out = s.out := by unfold Chip.bankTake; split <;> rfl
@[simp] theorem Chip.bankTake_cores (s : Chip) (ag : Agent) (a : Nat) : (s.bankTake ag a).2.cores = s.cores := by unfold Chip.bankTake; split <;> rfl
@[simp] theorem Chip.bankTake_tmr (s : Chip) (ag : Agent) (a : Nat) : (s.bankTake ag a).2.tmr = s.tmr := by unfold Chip.bankTake; split <;> rfl
@[simp] theorem Chip.bankTake_flc (s : Chip) (ag : Agent) (a : Nat) : (s.bankTake ag a).2.flc = s.flc := by unfold Chip.bankTake; split <;> rfl
@[simp] theorem Chip.bankTake_cph (s : Chip) (ag : Agent) (a : Nat) : (s.bankTake ag a).2.cph = s.cph := by unfold Chip.bankTake; split <;> rfl
@[simp] theorem Chip.bankTake_syn (s : Chip) (ag : Agent) (a : Nat) : (s.bankTake ag a).2.syn = s.syn := by unfold Chip.bankTake; split <;> rfl
@[simp] theorem Chip.bankTake_lnk (s : Chip) (ag : Agent) (a : Nat) : (s.bankTake ag a).2.lnk = s.lnk := by unfold Chip.bankTake; split <;> rfl
@[simp] theorem Chip.bankTake_stopping (s : Chip) (ag : Agent) (a : Nat) : (s.bankTake ag a).2.stopping = s.stopping := by unfold Chip.bankTake; split <;> rfl
@[simp] theorem Chip.bankTake_mesh (s : Chip) (ag : Agent) (a : Nat) : (s.bankTake ag a).2.mesh = s.mesh := by unfold Chip.bankTake; split <;> rfl
@[simp] theorem Chip.bankTake_nfc (s : Chip) (ag : Agent) (a : Nat) : (s.bankTake ag a).2.nfc = s.nfc := by unfold Chip.bankTake; split <;> rfl
@[simp] theorem Chip.bankTake_hp (s : Chip) (ag : Agent) (a : Nat) : (s.bankTake ag a).2.hp = s.hp := by unfold Chip.bankTake; split <;> rfl
@[simp] theorem Chip.bankTake_svc (s : Chip) (ag : Agent) (a : Nat) : (s.bankTake ag a).2.svc = s.svc := by unfold Chip.bankTake; split <;> rfl
@[simp] theorem Chip.bankTake_ldr (s : Chip) (ag : Agent) (a : Nat) : (s.bankTake ag a).2.ldr = s.ldr := by unfold Chip.bankTake; split <;> rfl
@[simp] theorem Chip.bankTake_boot (s : Chip) (ag : Agent) (a : Nat) : (s.bankTake ag a).2.boot = s.boot := by unfold Chip.bankTake; split <;> rfl

@[simp] theorem Chip.stamp_now (s : Chip) (t : Nat) : (s.stamp t).2.now = s.now := rfl
@[simp] theorem Chip.stamp_free (s : Chip) (t : Nat) : (s.stamp t).2.free = s.free := rfl
@[simp] theorem Chip.stamp_regs (s : Chip) (t : Nat) : (s.stamp t).2.regs = s.regs := rfl
@[simp] theorem Chip.stamp_sram (s : Chip) (t : Nat) : (s.stamp t).2.sram = s.sram := rfl
@[simp] theorem Chip.stamp_sramErr (s : Chip) (t : Nat) : (s.stamp t).2.sramErr = s.sramErr := rfl
@[simp] theorem Chip.stamp_flashOne (s : Chip) (t : Nat) : (s.stamp t).2.flashOne = s.flashOne := rfl
@[simp] theorem Chip.stamp_flashErr (s : Chip) (t : Nat) : (s.stamp t).2.flashErr = s.flashErr := rfl
@[simp] theorem Chip.stamp_busAt (s : Chip) (t : Nat) : (s.stamp t).2.busAt = s.busAt := rfl
@[simp] theorem Chip.stamp_busUse (s : Chip) (t : Nat) : (s.stamp t).2.busUse = s.busUse := rfl
@[simp] theorem Chip.stamp_sramLost (s : Chip) (t : Nat) : (s.stamp t).2.sramLost = s.sramLost := rfl
@[simp] theorem Chip.stamp_flash (s : Chip) (t : Nat) : (s.stamp t).2.flash = s.flash := rfl
@[simp] theorem Chip.stamp_flashBad (s : Chip) (t : Nat) : (s.stamp t).2.flashBad = s.flashBad := rfl
@[simp] theorem Chip.stamp_flashBadSec (s : Chip) (t : Nat) : (s.stamp t).2.flashBadSec = s.flashBadSec := rfl
@[simp] theorem Chip.stamp_otp (s : Chip) (t : Nat) : (s.stamp t).2.otp = s.otp := rfl
@[simp] theorem Chip.stamp_mirror (s : Chip) (t : Nat) : (s.stamp t).2.mirror = s.mirror := rfl
@[simp] theorem Chip.stamp_rdata (s : Chip) (t : Nat) : (s.stamp t).2.rdata = s.rdata := rfl
@[simp] theorem Chip.stamp_stamped (s : Chip) (t : Nat) : (s.stamp t).2.stamped = s.stamped := rfl
@[simp] theorem Chip.stamp_cfg (s : Chip) (t : Nat) : (s.stamp t).2.cfg = s.cfg := rfl
@[simp] theorem Chip.stamp_clk (s : Chip) (t : Nat) : (s.stamp t).2.clk = s.clk := rfl
@[simp] theorem Chip.stamp_pins (s : Chip) (t : Nat) : (s.stamp t).2.pins = s.pins := rfl
@[simp] theorem Chip.stamp_pwr (s : Chip) (t : Nat) : (s.stamp t).2.pwr = s.pwr := rfl
@[simp] theorem Chip.stamp_bear (s : Chip) (t : Nat) : (s.stamp t).2.bear = s.bear := rfl
@[simp] theorem Chip.stamp_mon (s : Chip) (t : Nat) : (s.stamp t).2.mon = s.mon := rfl
@[simp] theorem Chip.stamp_icu (s : Chip) (t : Nat) : (s.stamp t).2.icu = s.icu := rfl
@[simp] theorem Chip.stamp_evr (s : Chip) (t : Nat) : (s.stamp t).2.evr = s.evr := rfl
@[simp] theorem Chip.stamp_out (s : Chip) (t : Nat) : (s.stamp t).2.out = s.out := rfl
@[simp] theorem Chip.stamp_cores (s : Chip) (t : Nat) : (s.stamp t).2.cores = s.cores := rfl
@[simp] theorem Chip.stamp_tmr (s : Chip) (t : Nat) : (s.stamp t).2.tmr = s.tmr := rfl
@[simp] theorem Chip.stamp_flc (s : Chip) (t : Nat) : (s.stamp t).2.flc = s.flc := rfl
@[simp] theorem Chip.stamp_cph (s : Chip) (t : Nat) : (s.stamp t).2.cph = s.cph := rfl
@[simp] theorem Chip.stamp_syn (s : Chip) (t : Nat) : (s.stamp t).2.syn = s.syn := rfl
@[simp] theorem Chip.stamp_lnk (s : Chip) (t : Nat) : (s.stamp t).2.lnk = s.lnk := rfl
@[simp] theorem Chip.stamp_stopping (s : Chip) (t : Nat) : (s.stamp t).2.stopping = s.stopping := rfl
@[simp] theorem Chip.stamp_mesh (s : Chip) (t : Nat) : (s.stamp t).2.mesh = s.mesh := rfl
@[simp] theorem Chip.stamp_nfc (s : Chip) (t : Nat) : (s.stamp t).2.nfc = s.nfc := rfl
@[simp] theorem Chip.stamp_hp (s : Chip) (t : Nat) : (s.stamp t).2.hp = s.hp := rfl
@[simp] theorem Chip.stamp_svc (s : Chip) (t : Nat) : (s.stamp t).2.svc = s.svc := rfl
@[simp] theorem Chip.stamp_ldr (s : Chip) (t : Nat) : (s.stamp t).2.ldr = s.ldr := rfl
@[simp] theorem Chip.stamp_boot (s : Chip) (t : Nat) : (s.stamp t).2.boot = s.boot := rfl

/-! ### The field itself -/

@[simp] theorem Chip.setBear_bear (s : Chip) (b : Bear) : (s.setBear b).bear = b := rfl
@[simp] theorem Chip.setLnk_lnk (s : Chip) (l : Lnk) : (s.setLnk l).lnk = l := rfl
@[simp] theorem Chip.setSyn_syn (s : Chip) (y : Syn) : (s.setSyn y).syn = y := rfl
@[simp] theorem Chip.setFlc_flc (s : Chip) (f : Flc) : (s.setFlc f).flc = f := rfl
@[simp] theorem Chip.setCph_cph (s : Chip) (c : Cph) : (s.setCph c).cph = c := rfl
@[simp] theorem Chip.setMesh_mesh (s : Chip) (m : Mesh) : (s.setMesh m).mesh = m := rfl
@[simp] theorem Chip.setNfc_nfc (s : Chip) (n : Nfc) : (s.setNfc n).nfc = n := rfl
@[simp] theorem Chip.setLdr_ldr (s : Chip) (l : Ldr) : (s.setLdr l).ldr = l := rfl
@[simp] theorem Chip.draw_free (s : Chip) : s.draw.free = s.free + 1 := rfl

@[simp] theorem Chip.core_setCore_self (s : Chip) (c : Core) (x : CoreSt) : (s.setCore c x).core c = x := by cases c <;> rfl

theorem Chip.core_setCore_ne (s : Chip) {c d : Core} (x : CoreSt) (h : d ≠ c) : (s.setCore c x).core d = s.core d := by
  cases c <;> cases d <;> first | rfl | exact absurd rfl h

/-- The time base gains a sequence number and nothing else with a stamp (R33). -/
@[simp] theorem Chip.stamp_seq (s : Chip) (t : Nat) : (s.stamp t).1.seq = (s.owl.seq + 1) % 2 ^ 24 := rfl
@[simp] theorem Chip.stamp_owl (s : Chip) (t : Nat) : (s.stamp t).2.owl = { s.owl with seq := (s.owl.seq + 1) % 2 ^ 24 } := rfl

/-! ### Registers -/

/-- A register reads back what was stored, and no other register changes. -/
theorem Chip.reg_setReg (s : Chip) (a b : Nat) (v : Word) : (s.setReg a v).reg b = if b = a then v else s.reg b :=
  Cells.get_set regReset s.regs a b v

@[simp] theorem Chip.reg_setReg_self (s : Chip) (a : Nat) (v : Word) : (s.setReg a v).reg a = v := by simp [Chip.reg_setReg]

theorem Chip.reg_setReg_ne (s : Chip) {a b : Nat} (v : Word) (h : b ≠ a) : (s.setReg a v).reg b = s.reg b := by
  simp [Chip.reg_setReg, h]

theorem Chip.reg_setFld_ne (s : Chip) (f : Fld) (v : Nat) {b : Nat} (h : b ≠ f.addr) : (s.setFld f v).reg b = s.reg b :=
  Chip.reg_setReg_ne s _ h

@[simp] theorem Chip.reg_setFld_self (s : Chip) (f : Fld) (v : Nat) : (s.setFld f v).reg f.addr = f.put (s.reg f.addr) v :=
  Chip.reg_setReg_self s _ _

@[simp] theorem Chip.reg_setCore (s : Chip) (c : Core) (x : CoreSt) (a : Nat) : (s.setCore c x).reg a = s.reg a := by cases c <;> rfl

theorem Fld.of_eq (f : Fld) (w : Word) : f.of w = ((w &&& maskOf f.hi f.lo) >>> f.lo).toNat := rfl

/-- A field reads back what was put into it, modulo its width. -/
theorem Fld.of_put (f : Fld) (w : Word) (v : Nat) :
    f.of (f.put w v) = (((BitVec.ofNat 36 v <<< f.lo) &&& maskOf f.hi f.lo) >>> f.lo).toNat := by
  unfold Fld.of Fld.put
  congr 2
  ext i hi
  simp only [BitVec.getElem_and, BitVec.getElem_or, BitVec.getElem_not]
  cases (maskOf f.hi f.lo)[i] <;> simp

/-! ### Memory -/

/-- An SRAM word reads back what was written, and no other word changes. -/
theorem Chip.rd_wr (s : Chip) (a b : Nat) (v : Word) (h : isSram a = true) : (s.wr a v).rd b = if b = a then v else s.rd b := by
  unfold Chip.wr
  rw [if_pos h]
  exact Cells.get_setU _ _ _ _ _

/-- A write gives the word its check bits. -/
theorem Chip.wr_sramErr (s : Chip) (a : Nat) (v : Word) (h : isSram a = true) : (s.wr a v).sramErr = s.sramErr.filter (· ≠ a) := by
  simp [Chip.wr, h]

/-- Outside SRAM nothing is written. -/
theorem Chip.wr_outside (s : Chip) (a : Nat) (v : Word) (h : isSram a = false) : s.wr a v = s := by simp [Chip.wr, h]

theorem Chip.rd_wr_ne (s : Chip) {a b : Nat} (v : Word) (h : b ≠ a) : (s.wr a v).rd b = s.rd b := by
  by_cases ha : isSram a = true
  · simp [Chip.rd_wr, ha, h]
  · rw [Chip.wr_outside s a v (by simpa using ha)]

/-! ### The canonical form of the stores -/

theorem Chip.setReg_wf (s : Chip) (a : Nat) (v : Word) (h : Cells.wf regReset s.regs = true) :
    Cells.wf regReset (s.setReg a v).regs = true := Cells.wf_set _ _ _ _ h

theorem Chip.wr_wf (s : Chip) (a : Nat) (v : Word) (h : Cells.wfU s.sram = true) : Cells.wfU (s.wr a v).sram = true := by
  unfold Chip.wr; split
  · exact Cells.wfU_setU _ _ _ h
  · exact h

theorem Chip.wrs_wf (s : Chip) (a : Nat) (l : List Word) (h : Cells.wfU s.sram = true) : Cells.wfU (s.wrs a l).sram = true := by
  induction l generalizing s a with
  | nil => exact h
  | cons v l ih => exact ih _ _ (Chip.wr_wf s a v h)

theorem Chip.wrB_wf (s : Chip) (a : Nat) (b : Byte) (h : Cells.wfU s.sram = true) : Cells.wfU (s.wrB a b).sram = true :=
  Chip.wr_wf _ _ _ h

theorem Chip.wrBs_wf (s : Chip) (a : Nat) (l : List Byte) (h : Cells.wfU s.sram = true) : Cells.wfU (s.wrBs a l).sram = true := by
  induction l generalizing s a with
  | nil => exact h
  | cons v l ih => exact ih _ _ (Chip.wrB_wf s a v h)

theorem Chip.losePower_wf (s : Chip) (m : Nat) (h : Cells.wfU s.sram = true) : Cells.wfU (s.losePower m).sram = true :=
  Cells.wfU_filter _ _ h

theorem Chip.flashPut_wf (s : Chip) (a : Nat) (v : Word) (h : Cells.wf flashDefault s.flash = true) :
    Cells.wf flashDefault (s.flashPut a v).flash = true := Cells.wf_set _ _ _ _ h

theorem Chip.flashClear_wf (s : Chip) (b : Nat) (h : Cells.wf flashDefault s.flash = true) :
    Cells.wf flashDefault (s.flashClear b).flash = true := Cells.wf_filter _ _ _ h

theorem Chip.flashSpoil_wf (s : Chip) (p : FlStep) (h : Cells.wf flashDefault s.flash = true) :
    Cells.wf flashDefault (s.flashSpoil p).flash = true := by
  cases p
  · exact h
  · exact Cells.wf_filter _ _ _ h
  · exact h

/-- At reset nothing is listed, and every store is in its form. -/
theorem reset_stores_wf : Cells.wf regReset State.reset.chip.regs = true ∧ Cells.wfU State.reset.chip.sram = true
    ∧ Cells.wf flashDefault State.reset.chip.flash = true ∧ Cells.wf zeroWord State.reset.chip.otp = true
    ∧ Cells.wf zeroWord State.reset.chip.mirror = true := ⟨rfl, rfl, rfl, rfl, rfl⟩

end Sys2Proof.Machine
end

