-- ==== Sys2Proof/Laws/Run.lean ====
section
/-!
SUPPORT. What every meaning and every shared operation comes to.
-/
namespace Sys2Proof.Machine

/-! ### Meanings and steps -/

/-- A meaning answers the next state with its own effect and what follows from it, the queue as it is. -/
theorem run_after (f : Chip → Chip) (s : State) : run f s = s.after (f s.chip) := rfl

/-- With a command waiting, a step is the command at the front, with the queue's rest. -/
theorem step_cons (i : Instr) (l : List Instr) (c : Chip) : step { pending := i :: l, chip := c } = exec i { pending := l, chip := c } := rfl

/-- With none waiting, one period passes and what falls due joins the queue. -/
theorem step_nil (c : Chip) : step { pending := [], chip := c } = .next { pending := c.tick.1, chip := c.tick.2 } := rfl

/-- Nothing to hand over. -/
theorem Chip.handOverAll_none (n : Nat) (s : Chip) (h : s.out = {}) : Chip.handOverAll n s = s := by
  cases n with
  | zero => rfl
  | succ n => simp [Chip.handOverAll, h]

/-! ### Register accesses -/

theorem Chip.ofIdx_lt (s : Chip) {n size : Nat} (f : Chip → Chip) (h : n < size) : s.ofIdx n size f = f s := by simp [Chip.ofIdx, h]

/-- A number beyond the array names nothing. -/
theorem Chip.ofIdx_ge (s : Chip) {n size : Nat} (f : Chip → Chip) (h : size ≤ n) : s.ofIdx n size f = s := by
  simp [Chip.ofIdx, Nat.not_lt.mpr h]

theorem Chip.regWrite_reg (s : Chip) (ag : Agent) {a : Nat} (v : Word) (h : isReg a = true) :
    s.regWrite ag a v = s.ioWrite ag (s.agentRom ag) a v := by simp [Chip.regWrite, h]

theorem Chip.regRead_reg (s : Chip) (ag : Agent) {a : Nat} (h : isReg a = true) :
    s.regRead ag a = { (s.ioRead ag a).2 with rdata := (s.ioRead ag a).1 } := if_pos h

/-! ### J36 instructions -/

/-- A core that does not run executes nothing. -/
theorem Chip.instr_stopped (s : Chip) (c : Core) (ok : Bool) (n : Nat) (body : Chip → Acc Next) (h : s.coreRuns c = false) :
    s.instr c ok n body = s := by simp [Chip.instr, h]

/-- An instruction whose fetch traps takes that trap, after the fetch's wait unless the interconnect refuses the fetch. -/
theorem Chip.instr_fetchTrap (s : Chip) (c : Core) (ok : Bool) (n : Nat) (body : Chip → Acc Next) {t : Trap} (h : s.coreRuns c = true)
    (ht : s.fetchTrap c = some t) : s.instr c ok n body = (if t.vec = 3 then s else s.fetch c).takeTrap c t := by
  simp [Chip.instr, h, ht]

/-- Fields that the instruction does not accept trap as illegal. -/
theorem Chip.instr_illegal (s : Chip) (c : Core) (n : Nat) (body : Chip → Acc Next) (h : s.coreRuns c = true)
    (ht : s.fetchTrap c = none) : s.instr c false n body = (s.fetch c).takeTrap c (illegalAt (s.core c).pc) := by simp [Chip.instr, h, ht]

/-- An instruction whose effect succeeds completes in its cycles and goes on, in sequence or at its target. -/
theorem Chip.instr_ok (s : Chip) (c : Core) (n : Nat) (body : Chip → Acc Next) {x : Next} {t : Chip} (h : s.coreRuns c = true)
    (ht : s.fetchTrap c = none) (hb : body (s.fetch c) = .ok x t) : s.instr c true n body = t.finish c (n + x.more) x.dest := by
  simp [Chip.instr, h, ht, hb]

/-- An instruction whose effect traps takes that trap, and nothing else of it is done. -/
theorem Chip.instr_trap (s : Chip) (c : Core) (n : Nat) (body : Chip → Acc Next) {t : Trap} {u : Chip} (h : s.coreRuns c = true)
    (ht : s.fetchTrap c = none) (hb : body (s.fetch c) = .trap t u) : s.instr c true n body = ((s.fetch c).undone c u).takeTrap c t := by
  simp [Chip.instr, h, ht, hb]

/-- An instruction whose access waits is not executed. -/
theorem Chip.instr_wait (s : Chip) (c : Core) (n : Nat) (body : Chip → Acc Next) (h : s.coreRuns c = true)
    (ht : s.fetchTrap c = none) (hb : body (s.fetch c) = .wait) : s.instr c true n body = s := by
  simp [Chip.instr, h, ht, hb]

/-- An instruction on A, M and ST whose M can be read. -/
theorem Chip.alu_ok (s : Chip) (c : Core) (o : Opnd) (l : List Nat) (f : Word → Word → Word → Word × Word) {m : Word} {t : Chip}
    (h : s.coreRuns c = true) (ht : s.fetchTrap c = none) (hm : o.inModes l = true) (hr : (s.fetch c).readM c o = .ok m t) :
    s.alu c o l f = ((t.result c (f (t.core c).a m (t.core c).st)).postInc c o).finish c 1 none := by
  unfold Chip.alu
  rw [hm]
  refine Chip.instr_ok (x := {}) s c 1 _ h ht ?_
  rw [hr]; rfl

/-- An instruction on A and ST alone. -/
theorem Chip.unary_ok (s : Chip) (c : Core) (o : Opnd) (n : Nat) (f : Word → Word → Word × Word) (h : s.coreRuns c = true)
    (ht : s.fetchTrap c = none) (hm : o.isNone = true) :
    s.unary c o n f = ((s.fetch c).result c (f ((s.fetch c).core c).a ((s.fetch c).core c).st)).finish c n none := by
  unfold Chip.unary
  rw [hm]
  exact Chip.instr_ok (x := {}) s c n _ h ht rfl

/-- A trap taken while TH is 1 leads to lockup (R458). -/
theorem Chip.takeTrap_lockup (s : Chip) (c : Core) (t : Trap) (h : stBit (s.core c).st St.TH = true) :
    s.takeTrap c t = (s.setCore c (s.core c).landAll).lockup c t.data t.addr := by simp [Chip.takeTrap, h]

theorem Chip.takeTrap_enter (s : Chip) (c : Core) (t : Trap) (h : stBit (s.core c).st St.TH = false) :
    s.takeTrap c t = s.enterVector c t.vec (if t.next then (s.core c).pc + 1 else (s.core c).pc) (some t) := by simp [Chip.takeTrap, h]

end Sys2Proof.Machine
end

