-- ==== Sys2Proof/Laws/Access.lean ====
section
/-!
SUPPORT. Register accesses: which operation of which block each command's access comes to.
-/
namespace Sys2Proof.Machine

/-! ### Fields of one bit -/

/-- The bit that a one-bit field puts. -/
theorem bitOf_put_self (a k : Nat) (w : Word) (v : Nat) (hk : k < 36) : bitOf (Fld.put ⟨a, k, k⟩ w v).toNat k = v.testBit 0 := by
  show (Fld.put ⟨a, k, k⟩ w v).getLsbD k = _
  have e : (BitVec.ofNat 36 v)[0] = v.testBit 0 := by rw [BitVec.getElem_eq_testBit_toNat]; simp
  simp [Fld.put, maskOf, hk, e]

/-- It leaves every other bit. -/
theorem bitOf_put_ne (a k i : Nat) (w : Word) (v : Nat) (h : i ≠ k) : bitOf (Fld.put ⟨a, k, k⟩ w v).toNat i = bitOf w.toNat i := by
  show (Fld.put ⟨a, k, k⟩ w v).getLsbD i = w.getLsbD i
  by_cases hi : i < 36
  · rcases Nat.lt_or_gt_of_ne h with g | g
    · simp [Fld.put, maskOf, hi, g]
    · have e : ¬ i < k := by omega
      have e2 : i - k ≠ 0 := by omega
      simp [Fld.put, maskOf, hi, e, e2]
  · rw [BitVec.getLsbD_of_ge _ _ (by omega), BitVec.getLsbD_of_ge _ _ (by omega)]

/-! ### The block that an address names -/

theorem Chip.regWrite_block (s : Chip) (ag : Agent) {a : Nat} (v : Word) (h : 0x300000 ≤ a) (h' : a < 0x319000) :
    s.regWrite ag a v = s.ioWrite ag (s.agentRom ag) a v := s.regWrite_reg ag v (by simp [isReg, isBlock, h, h'])

theorem Chip.regRead_block (s : Chip) (ag : Agent) {a : Nat} (h : 0x300000 ≤ a) (h' : a < 0x319000) :
    s.regRead ag a = { (s.ioRead ag a).2 with rdata := (s.ioRead ag a).1 } := s.regRead_reg ag (by simp [isReg, isBlock, h, h'])

theorem Chip.regWrite_clk (s : Chip) (ag : Agent) (a : Nat) (v : Word) (h : 0x300000 + 0x1000 * 1 ≤ a) (h' : a < 0x301000 + 0x1000 * 1) :
    s.regWrite ag a v = s.writeClk ag a v := by
  have e : blockOf a = 1 := by simp only [blockOf]; omega
  rw [s.regWrite_block ag v (by omega) (by omega)]
  simp [Chip.ioWrite, e]

theorem Chip.regWrite_pin (s : Chip) (ag : Agent) (a : Nat) (v : Word) (h : 0x300000 + 0x1000 * 2 ≤ a) (h' : a < 0x301000 + 0x1000 * 2) :
    s.regWrite ag a v = s.writePin ag a v := by
  have e : blockOf a = 2 := by simp only [blockOf]; omega
  rw [s.regWrite_block ag v (by omega) (by omega)]
  simp [Chip.ioWrite, e]

theorem Chip.regWrite_pmu (s : Chip) (ag : Agent) (a : Nat) (v : Word) (h : 0x300000 + 0x1000 * 3 ≤ a) (h' : a < 0x301000 + 0x1000 * 3) :
    s.regWrite ag a v = s.writePmu ag a v := by
  have e : blockOf a = 3 := by simp only [blockOf]; omega
  rw [s.regWrite_block ag v (by omega) (by omega)]
  simp [Chip.ioWrite, e]

theorem Chip.regWrite_egy (s : Chip) (ag : Agent) (a : Nat) (v : Word) (h : 0x300000 + 0x1000 * 4 ≤ a) (h' : a < 0x301000 + 0x1000 * 4) :
    s.regWrite ag a v = s.writeEgy ag a v := by
  have e : blockOf a = 4 := by simp only [blockOf]; omega
  rw [s.regWrite_block ag v (by omega) (by omega)]
  simp [Chip.ioWrite, e]

theorem Chip.regWrite_mon (s : Chip) (ag : Agent) (a : Nat) (v : Word) (h : 0x300000 + 0x1000 * 5 ≤ a) (h' : a < 0x301000 + 0x1000 * 5) :
    s.regWrite ag a v = s.writeMon a v := by
  have e : blockOf a = 5 := by simp only [blockOf]; omega
  rw [s.regWrite_block ag v (by omega) (by omega)]
  simp [Chip.ioWrite, e]

theorem Chip.regWrite_syn (s : Chip) (ag : Agent) (a : Nat) (v : Word) (h : 0x300000 + 0x1000 * 6 ≤ a) (h' : a < 0x301000 + 0x1000 * 6) :
    s.regWrite ag a v = s.writeSyn ag a v := by
  have e : blockOf a = 6 := by simp only [blockOf]; omega
  rw [s.regWrite_block ag v (by omega) (by omega)]
  simp [Chip.ioWrite, e]

theorem Chip.regWrite_rfe (s : Chip) (ag : Agent) (a : Nat) (v : Word) (h : 0x300000 + 0x1000 * 7 ≤ a) (h' : a < 0x301000 + 0x1000 * 7) :
    s.regWrite ag a v = s.writeRfe ag a v := by
  have e : blockOf a = 7 := by simp only [blockOf]; omega
  rw [s.regWrite_block ag v (by omega) (by omega)]
  simp [Chip.ioWrite, e]

theorem Chip.regWrite_cx (s : Chip) (ag : Agent) (a : Nat) (v : Word) (h : 0x300000 + 0x1000 * 8 ≤ a) (h' : a < 0x301000 + 0x1000 * 8) :
    s.regWrite ag a v = s.writeCx ag a v := by
  have e : blockOf a = 8 := by simp only [blockOf]; omega
  rw [s.regWrite_block ag v (by omega) (by omega)]
  simp [Chip.ioWrite, e]

theorem Chip.regWrite_mdm (s : Chip) (ag : Agent) (a : Nat) (v : Word) (h : 0x300000 + 0x1000 * 9 ≤ a) (h' : a < 0x301000 + 0x1000 * 9) :
    s.regWrite ag a v = s.writeMdm ag a v := by
  have e : blockOf a = 9 := by simp only [blockOf]; omega
  rw [s.regWrite_block ag v (by omega) (by omega)]
  simp [Chip.ioWrite, e]

theorem Chip.regWrite_lnk (s : Chip) (ag : Agent) (a : Nat) (v : Word) (h : 0x300000 + 0x1000 * 10 ≤ a) (h' : a < 0x301000 + 0x1000 * 10) :
    s.regWrite ag a v = s.writeLnk ag a v := by
  have e : blockOf a = 10 := by simp only [blockOf]; omega
  rw [s.regWrite_block ag v (by omega) (by omega)]
  simp [Chip.ioWrite, e]

theorem Chip.regWrite_que (s : Chip) (ag : Agent) (a : Nat) (v : Word) (h : 0x300000 + 0x1000 * 11 ≤ a) (h' : a < 0x301000 + 0x1000 * 11) :
    s.regWrite ag a v = s.writeQue ag a v := by
  have e : blockOf a = 11 := by simp only [blockOf]; omega
  rw [s.regWrite_block ag v (by omega) (by omega)]
  simp [Chip.ioWrite, e]

theorem Chip.regWrite_kst (s : Chip) (ag : Agent) (a : Nat) (v : Word) (h : 0x300000 + 0x1000 * 13 ≤ a) (h' : a < 0x301000 + 0x1000 * 13) :
    s.regWrite ag a v = s.writeKst ag a v := by
  have e : blockOf a = 13 := by simp only [blockOf]; omega
  rw [s.regWrite_block ag v (by omega) (by omega)]
  simp [Chip.ioWrite, e]

theorem Chip.regWrite_nfc (s : Chip) (ag : Agent) (a : Nat) (v : Word) (h : 0x300000 + 0x1000 * 14 ≤ a) (h' : a < 0x301000 + 0x1000 * 14) :
    s.regWrite ag a v = s.writeNfc ag a v := by
  have e : blockOf a = 14 := by simp only [blockOf]; omega
  rw [s.regWrite_block ag v (by omega) (by omega)]
  simp [Chip.ioWrite, e]

theorem Chip.regWrite_tmr (s : Chip) (ag : Agent) (a : Nat) (v : Word) (h : 0x300000 + 0x1000 * 16 ≤ a) (h' : a < 0x301000 + 0x1000 * 16) :
    s.regWrite ag a v = s.writeTmr ag a v := by
  have e : blockOf a = 16 := by simp only [blockOf]; omega
  rw [s.regWrite_block ag v (by omega) (by omega)]
  simp [Chip.ioWrite, e]

theorem Chip.regWrite_rtc (s : Chip) (ag : Agent) (a : Nat) (v : Word) (h : 0x300000 + 0x1000 * 17 ≤ a) (h' : a < 0x301000 + 0x1000 * 17) :
    s.regWrite ag a v = s.writeRtc a v := by
  have e : blockOf a = 17 := by simp only [blockOf]; omega
  rw [s.regWrite_block ag v (by omega) (by omega)]
  simp [Chip.ioWrite, e]

theorem Chip.regWrite_wdt (s : Chip) (ag : Agent) (a : Nat) (v : Word) (h : 0x300000 + 0x1000 * 18 ≤ a) (h' : a < 0x301000 + 0x1000 * 18) :
    s.regWrite ag a v = s.writeWdt ag a v := by
  have e : blockOf a = 18 := by simp only [blockOf]; omega
  rw [s.regWrite_block ag v (by omega) (by omega)]
  simp [Chip.ioWrite, e]

theorem Chip.regWrite_icu (s : Chip) (ag : Agent) (a : Nat) (v : Word) (h : 0x300000 + 0x1000 * 19 ≤ a) (h' : a < 0x301000 + 0x1000 * 19) :
    s.regWrite ag a v = s.writeIcu ag a v := by
  have e : blockOf a = 19 := by simp only [blockOf]; omega
  rw [s.regWrite_block ag v (by omega) (by omega)]
  simp [Chip.ioWrite, e]

theorem Chip.regWrite_evr (s : Chip) (ag : Agent) (a : Nat) (v : Word) (h : 0x300000 + 0x1000 * 20 ≤ a) (h' : a < 0x301000 + 0x1000 * 20) :
    s.regWrite ag a v = s.writeEvr ag a v := by
  have e : blockOf a = 20 := by simp only [blockOf]; omega
  rw [s.regWrite_block ag v (by omega) (by omega)]
  simp [Chip.ioWrite, e]

theorem Chip.regWrite_flc (s : Chip) (ag : Agent) (a : Nat) (v : Word) (h : 0x300000 + 0x1000 * 21 ≤ a) (h' : a < 0x301000 + 0x1000 * 21) :
    s.regWrite ag a v = s.writeFlc ag a v := by
  have e : blockOf a = 21 := by simp only [blockOf]; omega
  rw [s.regWrite_block ag v (by omega) (by omega)]
  simp [Chip.ioWrite, e]

theorem Chip.regWrite_otp (s : Chip) (ag : Agent) (a : Nat) (v : Word) (h : 0x300000 + 0x1000 * 22 ≤ a) (h' : a < 0x301000 + 0x1000 * 22) :
    s.regWrite ag a v = s.writeOtp a v := by
  have e : blockOf a = 22 := by simp only [blockOf]; omega
  rw [s.regWrite_block ag v (by omega) (by omega)]
  simp [Chip.ioWrite, e]

theorem Chip.regWrite_hp (s : Chip) (ag : Agent) (a : Nat) (v : Word) (h : 0x300000 + 0x1000 * 23 ≤ a) (h' : a < 0x301000 + 0x1000 * 23) :
    s.regWrite ag a v = s.writeHp a v := by
  have e : blockOf a = 23 := by simp only [blockOf]; omega
  rw [s.regWrite_block ag v (by omega) (by omega)]
  simp [Chip.ioWrite, e]

theorem Chip.regWrite_cph (s : Chip) (ag : Agent) (a : Nat) (v : Word) (h : 0x30C000 ≤ a) (h' : a < 0x30D000) :
    s.regWrite ag a v = s.writeCph ag (s.agentRom ag) a v := by
  have e : blockOf a = 12 := by simp only [blockOf]; omega
  rw [s.regWrite_block ag v (by omega) (by omega)]
  simp [Chip.ioWrite, e]

theorem Chip.regRead_lnk (s : Chip) (ag : Agent) (a : Nat) (h : 0x300000 + 0x1000 * 10 ≤ a) (h' : a < 0x301000 + 0x1000 * 10) :
    s.regRead ag a = { (s.readLnk a).2 with rdata := (s.readLnk a).1 } := by
  have e : blockOf a = 10 := by simp only [blockOf]; omega
  rw [s.regRead_block ag (by omega) (by omega)]
  simp [Chip.ioRead, e]

theorem Chip.regRead_que (s : Chip) (ag : Agent) (a : Nat) (h : 0x300000 + 0x1000 * 11 ≤ a) (h' : a < 0x301000 + 0x1000 * 11) :
    s.regRead ag a = { (s.readQue a).2 with rdata := (s.readQue a).1 } := by
  have e : blockOf a = 11 := by simp only [blockOf]; omega
  rw [s.regRead_block ag (by omega) (by omega)]
  simp [Chip.ioRead, e]

theorem Chip.regRead_cph (s : Chip) (ag : Agent) (a : Nat) (h : 0x300000 + 0x1000 * 12 ≤ a) (h' : a < 0x301000 + 0x1000 * 12) :
    s.regRead ag a = { (s.readCph ag a).2 with rdata := (s.readCph ag a).1 } := by
  have e : blockOf a = 12 := by simp only [blockOf]; omega
  rw [s.regRead_block ag (by omega) (by omega)]
  simp [Chip.ioRead, e]

theorem Chip.regRead_tmr (s : Chip) (ag : Agent) (a : Nat) (h : 0x300000 + 0x1000 * 16 ≤ a) (h' : a < 0x301000 + 0x1000 * 16) :
    s.regRead ag a = { (s.readTmr a).2 with rdata := (s.readTmr a).1 } := by
  have e : blockOf a = 16 := by simp only [blockOf]; omega
  rw [s.regRead_block ag (by omega) (by omega)]
  simp [Chip.ioRead, e]

theorem Chip.regRead_icu (s : Chip) (ag : Agent) (a : Nat) (h : 0x300000 + 0x1000 * 19 ≤ a) (h' : a < 0x301000 + 0x1000 * 19) :
    s.regRead ag a = { (s.readIcu ag a).2 with rdata := (s.readIcu ag a).1 } := by
  have e : blockOf a = 19 := by simp only [blockOf]; omega
  rw [s.regRead_block ag (by omega) (by omega)]
  simp [Chip.ioRead, e]

theorem Chip.regRead_evr (s : Chip) (ag : Agent) (a : Nat) (h : 0x300000 + 0x1000 * 20 ≤ a) (h' : a < 0x301000 + 0x1000 * 20) :
    s.regRead ag a = { (s.readEvr ag a).2 with rdata := (s.readEvr ag a).1 } := by
  have e : blockOf a = 20 := by simp only [blockOf]; omega
  rw [s.regRead_block ag (by omega) (by omega)]
  simp [Chip.ioRead, e]

/-! ### Enables, disables and orders -/

theorem exec_synEnable (s : State) (ag : Agent) : exec (.synEnable ag) s = s.after (s.chip.ifRadioOwner ag R.SYN_STAT fun c => if c.bit F.SYN_CTL_EN then c else c.synEnable) := by
  have e : bitOf (Fld.put F.SYN_CTL_EN (s.chip.reg (F.SYN_CTL_EN).addr) 1).toNat 0 = true := bitOf_put_self _ _ _ _ (by decide)
  show s.after (s.chip.regWrite ag R.SYN_CTL (Fld.put F.SYN_CTL_EN (s.chip.reg (F.SYN_CTL_EN).addr) 1)) = _
  generalize Fld.put F.SYN_CTL_EN (s.chip.reg (F.SYN_CTL_EN).addr) 1 = w at e ⊢
  rw [s.chip.regWrite_syn ag _ _ (by decide) (by decide)]
  simp [Chip.writeSyn, Chip.radioCtl, blockStat, R.SYN_STAT, F.SYN_CTL_EN, R.SYN_CTL, e]
  rfl

theorem exec_rfeEnable (s : State) (ag : Agent) : exec (.rfeEnable ag) s = s.after (s.chip.ifRadioOwner ag R.RFE_STAT fun c => if c.bit F.RFE_CTL_EN then c else c.rfeEnable) := by
  have e : bitOf (Fld.put F.RFE_CTL_EN (s.chip.reg (F.RFE_CTL_EN).addr) 1).toNat 0 = true := bitOf_put_self _ _ _ _ (by decide)
  show s.after (s.chip.regWrite ag R.RFE_CTL (Fld.put F.RFE_CTL_EN (s.chip.reg (F.RFE_CTL_EN).addr) 1)) = _
  generalize Fld.put F.RFE_CTL_EN (s.chip.reg (F.RFE_CTL_EN).addr) 1 = w at e ⊢
  rw [s.chip.regWrite_rfe ag _ _ (by decide) (by decide)]
  simp [Chip.writeRfe, Chip.radioCtl, blockStat, R.RFE_STAT, F.RFE_CTL_EN, R.RFE_CTL, e]
  rfl

theorem exec_cxEnable (s : State) (ag : Agent) : exec (.cxEnable ag) s = s.after (s.chip.ifRadioOwner ag R.CX_STAT fun c => if c.bit F.CX_CTL_EN then c else c.cxEnable) := by
  have e : bitOf (Fld.put F.CX_CTL_EN (s.chip.reg (F.CX_CTL_EN).addr) 1).toNat 0 = true := bitOf_put_self _ _ _ _ (by decide)
  show s.after (s.chip.regWrite ag R.CX_CTL (Fld.put F.CX_CTL_EN (s.chip.reg (F.CX_CTL_EN).addr) 1)) = _
  generalize Fld.put F.CX_CTL_EN (s.chip.reg (F.CX_CTL_EN).addr) 1 = w at e ⊢
  rw [s.chip.regWrite_cx ag _ _ (by decide) (by decide)]
  simp [Chip.writeCx, Chip.radioCtl, blockStat, R.CX_STAT, F.CX_CTL_EN, R.CX_CTL, R.CX_ARBNXT, e]
  rfl

theorem exec_mdmEnable (s : State) (ag : Agent) : exec (.mdmEnable ag) s = s.after (s.chip.ifRadioOwner ag R.MDM_STAT fun c => if c.bit F.MDM_CTL_EN then c else c.mdmEnable) := by
  have e : bitOf (Fld.put F.MDM_CTL_EN (s.chip.reg (F.MDM_CTL_EN).addr) 1).toNat 0 = true := bitOf_put_self _ _ _ _ (by decide)
  show s.after (s.chip.regWrite ag R.MDM_CTL (Fld.put F.MDM_CTL_EN (s.chip.reg (F.MDM_CTL_EN).addr) 1)) = _
  generalize Fld.put F.MDM_CTL_EN (s.chip.reg (F.MDM_CTL_EN).addr) 1 = w at e ⊢
  rw [s.chip.regWrite_mdm ag _ _ (by decide) (by decide)]
  simp [Chip.writeMdm, Chip.radioCtl, blockStat, R.MDM_STAT, F.MDM_CTL_EN, R.MDM_CTL, R.MDM_LS, R.MDM_CM, R.MDM_FK, e]
  rfl

theorem exec_lnkEnable (s : State) (ag : Agent) : exec (.lnkEnable ag) s = s.after (s.chip.ifLnkOwner ag Chip.lnkEnable) := by
  have e : bitOf (Fld.put F.LNK_CTL_EN (s.chip.reg (F.LNK_CTL_EN).addr) 1).toNat 0 = true := bitOf_put_self _ _ _ _ (by decide)
  show s.after (s.chip.regWrite ag R.LNK_CTL (Fld.put F.LNK_CTL_EN (s.chip.reg (F.LNK_CTL_EN).addr) 1)) = _
  generalize Fld.put F.LNK_CTL_EN (s.chip.reg (F.LNK_CTL_EN).addr) 1 = w at e ⊢
  rw [s.chip.regWrite_lnk ag _ _ (by decide) (by decide)]
  simp [Chip.writeLnk, R.LNK_CTL, e]

theorem exec_lnkDisable (s : State) (ag : Agent) : exec (.lnkDisable ag) s = s.after (s.chip.ifLnkOwner ag Chip.lnkDisable) := by
  have e : bitOf (Fld.put F.LNK_CTL_EN (s.chip.reg (F.LNK_CTL_EN).addr) 0).toNat 0 = false := bitOf_put_self _ _ _ _ (by decide)
  show s.after (s.chip.regWrite ag R.LNK_CTL (Fld.put F.LNK_CTL_EN (s.chip.reg (F.LNK_CTL_EN).addr) 0)) = _
  generalize Fld.put F.LNK_CTL_EN (s.chip.reg (F.LNK_CTL_EN).addr) 0 = w at e ⊢
  rw [s.chip.regWrite_lnk ag _ _ (by decide) (by decide)]
  simp [Chip.writeLnk, R.LNK_CTL, e]

theorem exec_hpEnable (s : State) (ag : Agent) : exec (.hpEnable ag) s = s.after (if s.chip.bit F.HP_CTL_EN then s.chip else s.chip.hpEnable) := by
  have e : bitOf (Fld.put F.HP_CTL_EN (s.chip.reg (F.HP_CTL_EN).addr) 1).toNat 0 = true := bitOf_put_self _ _ _ _ (by decide)
  show s.after (s.chip.regWrite ag R.HP_CTL (Fld.put F.HP_CTL_EN (s.chip.reg (F.HP_CTL_EN).addr) 1)) = _
  generalize Fld.put F.HP_CTL_EN (s.chip.reg (F.HP_CTL_EN).addr) 1 = w at e ⊢
  rw [s.chip.regWrite_hp ag _ _ (by decide) (by decide)]
  simp [Chip.writeHp, R.HP_CTL, e]

theorem exec_squirrelEnable (s : State) (ag : Agent) : exec (.squirrelEnable ag) s = s.after (s.chip.sqEnable) := by
  have e : bitOf (Fld.put F.FLC_CTL_SQEN (s.chip.reg (F.FLC_CTL_SQEN).addr) 1).toNat 1 = true := bitOf_put_self _ _ _ _ (by decide)
  show s.after (s.chip.regWrite ag R.FLC_CTL (Fld.put F.FLC_CTL_SQEN (s.chip.reg (F.FLC_CTL_SQEN).addr) 1)) = _
  generalize Fld.put F.FLC_CTL_SQEN (s.chip.reg (F.FLC_CTL_SQEN).addr) 1 = w at e ⊢
  rw [s.chip.regWrite_flc ag _ _ (by decide) (by decide)]
  simp [Chip.writeFlc, R.FLC_CTL, e]

theorem exec_cphEnable (s : State) (ag : Agent) : exec (.cphEnable ag) s = s.after (s.chip.cphEnable ag) := by
  have e : bitOf (Fld.put F.CPH_CTL_EN (s.chip.reg (F.CPH_CTL_EN).addr) 1).toNat 0 = true := bitOf_put_self _ _ _ _ (by decide)
  show s.after (s.chip.regWrite ag R.CPH_CTL (Fld.put F.CPH_CTL_EN (s.chip.reg (F.CPH_CTL_EN).addr) 1)) = _
  rw [s.chip.regWrite_cph ag _ _ (by decide) (by decide)]
  simp [Chip.writeCph, R.CPH_CTL, e]

theorem exec_tmrEnable (s : State) (ag : Agent) (n : Nat) (h : n < 8) : exec (.tmrEnable ag n) s = s.after (s.chip.tmrEnable ag n) := by
  have e : bitOf (Fld.put (F.TMRN_CTL_EN n) (s.chip.reg (F.TMRN_CTL_EN n).addr) 1).toNat 0 = true := bitOf_put_self _ _ _ _ (by decide)
  have e1 : (R.TMRN_CTL n - R.TMRN_CTL 0) / 16 = n := by simp only [R.TMRN_CTL]; omega
  have e2 : (R.TMRN_CTL n - R.TMRN_CTL 0) % 16 = 0 := by simp only [R.TMRN_CTL]; omega
  have e3 : R.TMRN_CTL n ≠ R.TMR_OWN := by simp only [R.TMRN_CTL, R.TMR_OWN]; omega
  have e4 : R.TMRN_CTL 0 ≤ R.TMRN_CTL n ∧ R.TMRN_CTL n < R.TMRN_CTL 8 := by simp only [R.TMRN_CTL]; omega
  show s.after (s.chip.ofIdx n 8 fun c => c.regWrite ag (R.TMRN_CTL n) _) = _
  rw [s.chip.ofIdx_lt _ h, s.chip.regWrite_tmr ag _ _ (by simp only [R.TMRN_CTL]; omega) (by simp only [R.TMRN_CTL]; omega)]
  simp only [Chip.writeTmr, e1, e2, e3, e4, if_false, if_true, and_self]
  rw [if_pos (by simp [e])]

/-! ### Writes of one register -/

theorem exec_egyMeasCmd (s : State) (ag : Agent) : exec (.egyMeasCmd ag) s = s.after (s.chip.measCmd) := rfl

theorem exec_egyRespWrite (s : State) (ag : Agent) (v : Word) : exec (.egyRespWrite ag v) s = s.after (s.chip.egyResp ag v) := rfl

theorem exec_egyRescWrite (s : State) (ag : Agent) (v : Word) : exec (.egyRescWrite ag v) s = s.after (s.chip.egyResc ag v) := rfl

theorem exec_monReplanCmd (s : State) (ag : Agent) : exec (.monReplanCmd ag) s = s.after (s.chip.replanCmd) := rfl

theorem exec_evrSwpubWrite (s : State) (ag : Agent) (v : Word) : exec (.evrSwpubWrite ag v) s = s.after (s.chip.evrSwpub ag v) := rfl

theorem exec_icuSwsetWrite (s : State) (ag : Agent) (v : Word) : exec (.icuSwsetWrite ag v) s = s.after (s.chip.icuSwset v) := rfl

theorem exec_flcPwd1Write (s : State) (ag : Agent) (v : Word) : exec (.flcPwd1Write ag v) s = s.after (s.chip.pwd1Write ag v) := rfl

theorem exec_otpProg (s : State) (ag : Agent) : exec (.otpProg ag) s = s.after (s.chip.otpProg) := rfl

theorem exec_hpDbellWrite (s : State) (v : Word) : exec (.hpDbellWrite v) s = s.after (s.chip.dbellWrite .host v) := rfl

theorem exec_lnkTadjWrite (s : State) (ag : Agent) (v : Word) : exec (.lnkTadjWrite ag v) s = s.after (s.chip.ifLnkOwner ag fun c => c.tadjWrite v) := rfl

theorem exec_nfcPoll (s : State) (ag : Agent) : exec (.nfcPoll ag) s = s.after (s.chip.nfcCmdWrite ag 1) := by
  show s.after (s.chip.regWrite ag R.NFC_CMD (Fld.put F.NFC_CMD_POLL 0 1)) = _
  rw [s.chip.regWrite_nfc ag _ _ (by decide) (by decide), show Fld.put F.NFC_CMD_POLL 0 1 = 1#36 from by decide]
  rfl

theorem exec_nfcXchg (s : State) (ag : Agent) : exec (.nfcXchg ag) s = s.after (s.chip.nfcCmdWrite ag 8) := by
  show s.after (s.chip.regWrite ag R.NFC_CMD (Fld.put F.NFC_CMD_XCHG 0 1)) = _
  rw [s.chip.regWrite_nfc ag _ _ (by decide) (by decide), show Fld.put F.NFC_CMD_XCHG 0 1 = 8#36 from by decide]
  rfl

theorem exec_nfcDesel (s : State) (ag : Agent) : exec (.nfcDesel ag) s = s.after (s.chip.nfcCmdWrite ag 4) := by
  show s.after (s.chip.regWrite ag R.NFC_CMD (Fld.put F.NFC_CMD_DESEL 0 1)) = _
  rw [s.chip.regWrite_nfc ag _ _ (by decide) (by decide), show Fld.put F.NFC_CMD_DESEL 0 1 = 4#36 from by decide]
  rfl

theorem exec_nfcFieldoff (s : State) (ag : Agent) : exec (.nfcFieldoff ag) s = s.after (s.chip.nfcCmdWrite ag 2) := by
  show s.after (s.chip.regWrite ag R.NFC_CMD (Fld.put F.NFC_CMD_FIELDOFF 0 1)) = _
  rw [s.chip.regWrite_nfc ag _ _ (by decide) (by decide), show Fld.put F.NFC_CMD_FIELDOFF 0 1 = 2#36 from by decide]
  rfl

theorem exec_pinOutWrite (s : State) (ag : Agent) (v : Word) : exec (.pinOutWrite ag v) s = s.after (s.chip.pinOutWrite ag v) := rfl

theorem exec_pinOutsetWrite (s : State) (ag : Agent) (v : Word) : exec (.pinOutsetWrite ag v) s = s.after (s.chip.pinSetWrite ag v) := rfl

theorem exec_pinOutclrWrite (s : State) (ag : Agent) (v : Word) : exec (.pinOutclrWrite ag v) s = s.after (s.chip.pinClrWrite ag v) := rfl

theorem exec_pinOuttglWrite (s : State) (ag : Agent) (v : Word) : exec (.pinOuttglWrite ag v) s = s.after (s.chip.pinTglWrite ag v) := rfl

theorem exec_pinDirWrite (s : State) (ag : Agent) (v : Word) : exec (.pinDirWrite ag v) s = s.after (s.chip.pinDirWrite ag v) := rfl

theorem exec_synCalCmd (s : State) (ag : Agent) : exec (.synCalCmd ag) s = s.after (s.chip.ifRadioOwner ag R.SYN_STAT Chip.synCal) := rfl

theorem exec_rfeBgcalCmd (s : State) (ag : Agent) : exec (.rfeBgcalCmd ag) s = s.after (s.chip.ifRadioOwner ag R.RFE_STAT Chip.bgCmd) := rfl

theorem exec_cxArbnxtWrite (s : State) (ag : Agent) (v : Word) : exec (.cxArbnxtWrite ag v) s = s.after (s.chip.arbNxtWrite ag v) := rfl

theorem exec_clkFoxWrite (s : State) (ag : Agent) (v : Word) : exec (.clkFoxWrite ag v) s = s.after (s.chip.clkFoxWrite ag v) := rfl

theorem exec_ssmLockWrite (s : State) (ag : Agent) (v : Word) : exec (.ssmLockWrite ag v) s = s.after (s.chip.bitsWrite R.SSM_LOCK v) := rfl

theorem exec_pmuReqWrite (s : State) (ag : Agent) (v : Word) : exec (.pmuReqWrite ag v) s = s.after (s.chip.pmuReqWrite ag v) := rfl

theorem exec_tmrOwnWrite (s : State) (ag : Agent) (v : Word) : exec (.tmrOwnWrite ag v) s = s.after (s.chip.tmrOwnWrite ag v) := rfl

theorem exec_rtcSecWrite (s : State) (ag : Agent) (v : Word) : exec (.rtcSecWrite ag v) s = s.after (s.chip.rtcSecWrite v) := rfl

theorem exec_rtcTrimWrite (s : State) (ag : Agent) (v : Word) : exec (.rtcTrimWrite ag v) s = s.after (s.chip.rtcTrimWrite v) := rfl

theorem exec_rtcAlarmWrite (s : State) (ag : Agent) (v : Word) : exec (.rtcAlarmWrite ag v) s = s.after (s.chip.rtcAlarmWrite v) := rfl

theorem exec_rtcCfgWrite (s : State) (ag : Agent) (v : Word) : exec (.rtcCfgWrite ag v) s = s.after (s.chip.rtcCfgWrite v) := rfl

theorem exec_wdtKick (s : State) (ag : Agent) (v : Word) : exec (.wdtKick ag v) s = s.after (s.chip.wdtKick v) := rfl

/-! ### Writes of one register of an array -/

theorem exec_evrChWrite (s : State) (ag : Agent) (c : Nat) (v : Word) (h : c < 40) : exec (.evrChWrite ag c v) s = s.after (s.chip.evrChWrite ag c v) := by
  show s.after (s.chip.regWriteN ag c 40 (R.EVR_CH c) v) = _
  rw [Chip.regWriteN, s.chip.ofIdx_lt _ h, s.chip.regWrite_evr ag _ _ (by simp only [R.EVR_CH]; omega) (by simp only [R.EVR_CH]; omega)]
  have n0 : ¬ (R.EVR_CH c = R.EVR_CLEAR) := by simp only [R.EVR_CH, R.EVR_CLEAR]; omega
  have n1 : ¬ (R.EVR_CH c = R.EVR_QCFG) := by simp only [R.EVR_CH, R.EVR_QCFG]; omega
  have n2 : ¬ (R.EVR_CH c = R.EVR_SWPUB) := by simp only [R.EVR_CH, R.EVR_SWPUB]; omega
  have n3 : R.EVR_CH 0 ≤ R.EVR_CH c ∧ R.EVR_CH c < R.EVR_CH 40 := by simp only [R.EVR_CH]; omega
  rw [Chip.writeEvr, if_neg n0, if_neg n1, if_neg n2, if_pos n3]
  rw [show R.EVR_CH c - R.EVR_CH 0 = c from by simp only [R.EVR_CH]; omega]

theorem exec_evrTsubWrite (s : State) (ag : Agent) (t : Nat) (v : Word) (h : t < 32) : exec (.evrTsubWrite ag t v) s = s.after (s.chip.evrTsubWrite ag t v) := by
  show s.after (s.chip.regWriteN ag t 32 (R.EVR_TSUB t) v) = _
  rw [Chip.regWriteN, s.chip.ofIdx_lt _ h, s.chip.regWrite_evr ag _ _ (by simp only [R.EVR_TSUB]; omega) (by simp only [R.EVR_TSUB]; omega)]
  have n0 : ¬ (R.EVR_TSUB t = R.EVR_CLEAR) := by simp only [R.EVR_TSUB, R.EVR_CLEAR]; omega
  have n1 : ¬ (R.EVR_TSUB t = R.EVR_QCFG) := by simp only [R.EVR_TSUB, R.EVR_QCFG]; omega
  have n2 : ¬ (R.EVR_TSUB t = R.EVR_SWPUB) := by simp only [R.EVR_TSUB, R.EVR_SWPUB]; omega
  have n3 : ¬ (R.EVR_CH 0 ≤ R.EVR_TSUB t ∧ R.EVR_TSUB t < R.EVR_CH 40) := by simp only [R.EVR_CH, R.EVR_TSUB]; omega
  have n4 : R.EVR_TSUB 0 ≤ R.EVR_TSUB t ∧ R.EVR_TSUB t < R.EVR_TSUB 32 := by simp only [R.EVR_TSUB]; omega
  rw [Chip.writeEvr, if_neg n0, if_neg n1, if_neg n2, if_neg n3, if_pos n4]
  rw [show R.EVR_TSUB t - R.EVR_TSUB 0 = t from by simp only [R.EVR_TSUB]; omega]

theorem exec_pinMapWrite (s : State) (ag : Agent) (n : Nat) (v : Word) (h : n < 24) : exec (.pinMapWrite ag n v) s = s.after (s.chip.pinMapWrite ag n v) := by
  show s.after (s.chip.regWriteN ag n 24 (R.PIN_MAP n) v) = _
  rw [Chip.regWriteN, s.chip.ofIdx_lt _ h, s.chip.regWrite_pin ag _ _ (by simp only [R.PIN_MAP]; omega) (by simp only [R.PIN_MAP]; omega)]
  have n0 : ¬ (R.PIN_MAP n = R.PIN_OUT) := by simp only [R.PIN_MAP, R.PIN_OUT]; omega
  have n1 : ¬ (R.PIN_MAP n = R.PIN_OUTSET) := by simp only [R.PIN_MAP, R.PIN_OUTSET]; omega
  have n2 : ¬ (R.PIN_MAP n = R.PIN_OUTCLR) := by simp only [R.PIN_MAP, R.PIN_OUTCLR]; omega
  have n3 : ¬ (R.PIN_MAP n = R.PIN_OUTTGL) := by simp only [R.PIN_MAP, R.PIN_OUTTGL]; omega
  have n4 : ¬ (R.PIN_MAP n = R.PIN_DIR) := by simp only [R.PIN_MAP, R.PIN_DIR]; omega
  have n5 : ¬ (R.PIN_MAP n = R.PIN_WAKE) := by simp only [R.PIN_MAP, R.PIN_WAKE]; omega
  have n6 : R.PIN_MAP 0 ≤ R.PIN_MAP n ∧ R.PIN_MAP n < R.PIN_MAP 24 := by simp only [R.PIN_MAP]; omega
  rw [Chip.writePin, if_neg n0, if_neg n1, if_neg n2, if_neg n3, if_neg n4, if_neg n5, if_pos n6]
  rw [show R.PIN_MAP n - R.PIN_MAP 0 = n from by simp only [R.PIN_MAP]; omega]

theorem exec_egyDeclWrite (s : State) (ag : Agent) (n : Nat) (v : Word) (h : n < 16) : exec (.egyDeclWrite ag n v) s = s.after (s.chip.egyDecl n v) := by
  show s.after (s.chip.regWriteN ag n 16 (R.EGY_DECL n) v) = _
  rw [Chip.regWriteN, s.chip.ofIdx_lt _ h, s.chip.regWrite_egy ag _ _ (by simp only [R.EGY_DECL]; omega) (by simp only [R.EGY_DECL]; omega)]
  have n0 : ¬ (R.EGY_DECL n = R.EGY_CTL) := by simp only [R.EGY_DECL, R.EGY_CTL]; omega
  have n1 : ¬ (R.EGY_DECL n = R.EGY_RLIM ∨ R.EGY_DECL n = R.EGY_CLIM ∨ R.EGY_DECL n = R.EGY_CFG) := by simp only [R.EGY_DECL, R.EGY_RLIM, R.EGY_CLIM, R.EGY_CFG]; omega
  have n2 : R.EGY_DECL 0 ≤ R.EGY_DECL n ∧ R.EGY_DECL n < R.EGY_DECL 16 := by simp only [R.EGY_DECL]; omega
  rw [Chip.writeEgy, if_neg n0, if_neg n1, if_pos n2]
  rw [show R.EGY_DECL n - R.EGY_DECL 0 = n from by simp only [R.EGY_DECL]; omega]

theorem exec_kstAttrWrite (s : State) (ag : Agent) (n : Nat) (v : Word) (h : n < 16) : exec (.kstAttrWrite ag n v) s = s.after (s.chip.kstAttrWrite ag n v) := by
  show s.after (s.chip.regWriteN ag n 16 (R.KST_ATTR n) v) = _
  rw [Chip.regWriteN, s.chip.ofIdx_lt _ h, s.chip.regWrite_kst ag _ _ (by simp only [R.KST_ATTR]; omega) (by simp only [R.KST_ATTR]; omega)]
  have n0 : R.KST_ATTR 0 ≤ R.KST_ATTR n ∧ R.KST_ATTR n < R.KST_ATTR 16 := by simp only [R.KST_ATTR]; omega
  rw [Chip.writeKst, if_pos n0]
  rw [show R.KST_ATTR n - R.KST_ATTR 0 = n from by simp only [R.KST_ATTR]; omega]

theorem exec_lnkSfWrite (s : State) (ag : Agent) (n : Nat) (v : Word) (h : n < 8) : exec (.lnkSfWrite ag n v) s = s.after (s.chip.sfWrite ag n v) := by
  show s.after (s.chip.regWriteN ag n 8 (R.LNK_SF n) v) = _
  rw [Chip.regWriteN, s.chip.ofIdx_lt _ h, s.chip.regWrite_lnk ag _ _ (by simp only [R.LNK_SF]; omega) (by simp only [R.LNK_SF]; omega)]
  have n0 : ¬ (R.LNK_SF n = R.LNK_CTL) := by simp only [R.LNK_SF, R.LNK_CTL]; omega
  have n1 : ¬ (R.LNK_SF n = R.LNK_TADJ) := by simp only [R.LNK_SF, R.LNK_TADJ]; omega
  have n2 : R.LNK_SF 0 ≤ R.LNK_SF n ∧ R.LNK_SF n < R.LNK_SF 8 := by simp only [R.LNK_SF]; omega
  rw [Chip.writeLnk, if_neg n0, if_neg n1, if_pos n2]
  rw [show R.LNK_SF n - R.LNK_SF 0 = n from by simp only [R.LNK_SF]; omega]

theorem exec_lnkChWrite (s : State) (ag : Agent) (n : Nat) (v : Word) (h : n < 64) : exec (.lnkChWrite ag n v) s = s.after (s.chip.chWrite ag n v) := by
  show s.after (s.chip.regWriteN ag n 64 (R.LNK_CH n) v) = _
  rw [Chip.regWriteN, s.chip.ofIdx_lt _ h, s.chip.regWrite_lnk ag _ _ (by simp only [R.LNK_CH]; omega) (by simp only [R.LNK_CH]; omega)]
  have n0 : ¬ (R.LNK_CH n = R.LNK_CTL) := by simp only [R.LNK_CH, R.LNK_CTL]; omega
  have n1 : ¬ (R.LNK_CH n = R.LNK_TADJ) := by simp only [R.LNK_CH, R.LNK_TADJ]; omega
  have n2 : ¬ (R.LNK_SF 0 ≤ R.LNK_CH n ∧ R.LNK_CH n < R.LNK_SF 8) := by simp only [R.LNK_SF, R.LNK_CH]; omega
  have n3 : R.LNK_CH 0 ≤ R.LNK_CH n ∧ R.LNK_CH n < R.LNK_CH 64 := by simp only [R.LNK_CH]; omega
  rw [Chip.writeLnk, if_neg n0, if_neg n1, if_neg n2, if_pos n3]
  rw [show R.LNK_CH n - R.LNK_CH 0 = n from by simp only [R.LNK_CH]; omega]

theorem exec_lnkNbrWrite (s : State) (ag : Agent) (n : Nat) (v : Word) (h : n < 64) : exec (.lnkNbrWrite ag n v) s = s.after (s.chip.nbrWrite ag n 0 v) := by
  show s.after (s.chip.regWriteN ag n 64 (R.LNK_NBR_0 n) v) = _
  rw [Chip.regWriteN, s.chip.ofIdx_lt _ h, s.chip.regWrite_lnk ag _ _ (by simp only [R.LNK_NBR_0]; omega) (by simp only [R.LNK_NBR_0]; omega)]
  have n0 : ¬ (R.LNK_NBR_0 n = R.LNK_CTL) := by simp only [R.LNK_NBR_0, R.LNK_CTL]; omega
  have n1 : ¬ (R.LNK_NBR_0 n = R.LNK_TADJ) := by simp only [R.LNK_NBR_0, R.LNK_TADJ]; omega
  have n2 : ¬ (R.LNK_SF 0 ≤ R.LNK_NBR_0 n ∧ R.LNK_NBR_0 n < R.LNK_SF 8) := by simp only [R.LNK_SF, R.LNK_NBR_0]; omega
  have n3 : ¬ (R.LNK_CH 0 ≤ R.LNK_NBR_0 n ∧ R.LNK_NBR_0 n < R.LNK_CH 64) := by simp only [R.LNK_CH, R.LNK_NBR_0]; omega
  have n4 : R.LNK_NBR_0 0 ≤ R.LNK_NBR_0 n ∧ R.LNK_NBR_0 n < R.LNK_NBR_0 64 := by simp only [R.LNK_NBR_0]; omega
  rw [Chip.writeLnk, if_neg n0, if_neg n1, if_neg n2, if_neg n3, if_pos n4]
  rw [show (R.LNK_NBR_0 n - R.LNK_NBR_0 0) / 2 = n from by simp only [R.LNK_NBR_0]; omega]
  rw [show (R.LNK_NBR_0 n - R.LNK_NBR_0 0) % 2 = 0 from by simp only [R.LNK_NBR_0]; omega]

theorem exec_lnkClsStartWrite (s : State) (ag : Agent) (n : Nat) (v : Word) (h : n < 4) : exec (.lnkClsStartWrite ag n v) s = s.after (s.chip.startWrite ag n v) := by
  show s.after (s.chip.regWriteN ag n 4 (R.LNK_CLS_START n) v) = _
  rw [Chip.regWriteN, s.chip.ofIdx_lt _ h, s.chip.regWrite_lnk ag _ _ (by simp only [R.LNK_CLS_START]; omega) (by simp only [R.LNK_CLS_START]; omega)]
  have n0 : ¬ (R.LNK_CLS_START n = R.LNK_CTL) := by simp only [R.LNK_CLS_START, R.LNK_CTL]; omega
  have n1 : ¬ (R.LNK_CLS_START n = R.LNK_TADJ) := by simp only [R.LNK_CLS_START, R.LNK_TADJ]; omega
  have n2 : ¬ (R.LNK_SF 0 ≤ R.LNK_CLS_START n ∧ R.LNK_CLS_START n < R.LNK_SF 8) := by simp only [R.LNK_SF, R.LNK_CLS_START]; omega
  have n3 : ¬ (R.LNK_CH 0 ≤ R.LNK_CLS_START n ∧ R.LNK_CLS_START n < R.LNK_CH 64) := by simp only [R.LNK_CH, R.LNK_CLS_START]; omega
  have n4 : ¬ (R.LNK_NBR_0 0 ≤ R.LNK_CLS_START n ∧ R.LNK_CLS_START n < R.LNK_NBR_0 64) := by simp only [R.LNK_NBR_0, R.LNK_CLS_START]; omega
  have n5 : ¬ (R.LNK_CELL_0 0 ≤ R.LNK_CLS_START n ∧ R.LNK_CLS_START n < R.LNK_CELL_0 1024) := by simp only [R.LNK_CELL_0, R.LNK_CLS_START]; omega
  have n6 : R.LNK_CLS_T0 0 ≤ R.LNK_CLS_START n ∧ R.LNK_CLS_START n < R.LNK_CLS_T0 4 ∧ (R.LNK_CLS_START n - R.LNK_CLS_T0 0) % 8 = 3 := by simp only [R.LNK_CLS_T0, R.LNK_CLS_START]; omega
  rw [Chip.writeLnk, if_neg n0, if_neg n1, if_neg n2, if_neg n3, if_neg n4, if_neg n5, if_pos n6]
  rw [show (R.LNK_CLS_START n - R.LNK_CLS_T0 0) / 8 = n from by simp only [R.LNK_CLS_START, R.LNK_CLS_T0]; omega]

theorem exec_mdmLsWrite (s : State) (ag : Agent) (n : Nat) (v : Word) (h : n < 8) : exec (.mdmLsWrite ag n v) s = s.after (s.chip.mdmSetWrite ag 1 n v) := by
  show s.after (s.chip.regWriteN ag n 8 (R.MDM_LS n) v) = _
  rw [Chip.regWriteN, s.chip.ofIdx_lt _ h, s.chip.regWrite_mdm ag _ _ (by simp only [R.MDM_LS]; omega) (by simp only [R.MDM_LS]; omega)]
  have n0 : R.MDM_LS 0 ≤ R.MDM_LS n ∧ R.MDM_LS n < R.MDM_LS 8 := by simp only [R.MDM_LS]; omega
  rw [Chip.writeMdm, if_pos n0]
  rw [show R.MDM_LS n - R.MDM_LS 0 = n from by simp only [R.MDM_LS]; omega]

theorem exec_mdmCmWrite (s : State) (ag : Agent) (n : Nat) (v : Word) (h : n < 8) : exec (.mdmCmWrite ag n v) s = s.after (s.chip.mdmSetWrite ag 2 n v) := by
  show s.after (s.chip.regWriteN ag n 8 (R.MDM_CM n) v) = _
  rw [Chip.regWriteN, s.chip.ofIdx_lt _ h, s.chip.regWrite_mdm ag _ _ (by simp only [R.MDM_CM]; omega) (by simp only [R.MDM_CM]; omega)]
  have n0 : ¬ (R.MDM_LS 0 ≤ R.MDM_CM n ∧ R.MDM_CM n < R.MDM_LS 8) := by simp only [R.MDM_LS, R.MDM_CM]; omega
  have n1 : R.MDM_CM 0 ≤ R.MDM_CM n ∧ R.MDM_CM n < R.MDM_CM 8 := by simp only [R.MDM_CM]; omega
  rw [Chip.writeMdm, if_neg n0, if_pos n1]
  rw [show R.MDM_CM n - R.MDM_CM 0 = n from by simp only [R.MDM_CM]; omega]

theorem exec_mdmFkWrite (s : State) (ag : Agent) (n : Nat) (v : Word) (h : n < 8) : exec (.mdmFkWrite ag n v) s = s.after (s.chip.mdmSetWrite ag 3 n v) := by
  show s.after (s.chip.regWriteN ag n 8 (R.MDM_FK n) v) = _
  rw [Chip.regWriteN, s.chip.ofIdx_lt _ h, s.chip.regWrite_mdm ag _ _ (by simp only [R.MDM_FK]; omega) (by simp only [R.MDM_FK]; omega)]
  have n0 : ¬ (R.MDM_LS 0 ≤ R.MDM_FK n ∧ R.MDM_FK n < R.MDM_LS 8) := by simp only [R.MDM_LS, R.MDM_FK]; omega
  have n1 : ¬ (R.MDM_CM 0 ≤ R.MDM_FK n ∧ R.MDM_FK n < R.MDM_CM 8) := by simp only [R.MDM_CM, R.MDM_FK]; omega
  have n2 : R.MDM_FK 0 ≤ R.MDM_FK n ∧ R.MDM_FK n < R.MDM_FK 8 := by simp only [R.MDM_FK]; omega
  rw [Chip.writeMdm, if_neg n0, if_neg n1, if_pos n2]
  rw [show R.MDM_FK n - R.MDM_FK 0 = n from by simp only [R.MDM_FK]; omega]

theorem exec_queTailWrite (s : State) (ag : Agent) (n : Nat) (v : Word) (h : n < 32) : exec (.queTailWrite ag n v) s = s.after (s.chip.queTailMove ag n v) := by
  show s.after (s.chip.regWriteN ag n 32 (R.QUE_TAIL n) v) = _
  rw [Chip.regWriteN, s.chip.ofIdx_lt _ h, s.chip.regWrite_que ag _ _ (by simp only [R.QUE_TAIL]; omega) (by simp only [R.QUE_TAIL]; omega)]
  have n0 : R.QUE_RING 0 ≤ R.QUE_TAIL n ∧ R.QUE_TAIL n < R.QUE_RING 32 := by simp only [R.QUE_RING, R.QUE_TAIL]; omega
  rw [Chip.writeQue, if_pos n0]
  have e1 : (R.QUE_TAIL n - R.QUE_RING 0) / 8 = n := by simp only [R.QUE_TAIL, R.QUE_RING]; omega
  have e2 : (R.QUE_TAIL n - R.QUE_RING 0) % 8 = 4 := by simp only [R.QUE_TAIL, R.QUE_RING]; omega
  simp only [e1, e2]

theorem exec_queHeadWrite (s : State) (ag : Agent) (n : Nat) (v : Word) (h : n < 32) : exec (.queHeadWrite ag n v) s = s.after (s.chip.queHeadWrite ag n v) := by
  show s.after (s.chip.regWriteN ag n 32 (R.QUE_HEAD n) v) = _
  rw [Chip.regWriteN, s.chip.ofIdx_lt _ h, s.chip.regWrite_que ag _ _ (by simp only [R.QUE_HEAD]; omega) (by simp only [R.QUE_HEAD]; omega)]
  have n0 : R.QUE_RING 0 ≤ R.QUE_HEAD n ∧ R.QUE_HEAD n < R.QUE_RING 32 := by simp only [R.QUE_RING, R.QUE_HEAD]; omega
  rw [Chip.writeQue, if_pos n0]
  have e1 : (R.QUE_HEAD n - R.QUE_RING 0) / 8 = n := by simp only [R.QUE_HEAD, R.QUE_RING]; omega
  have e2 : (R.QUE_HEAD n - R.QUE_RING 0) % 8 = 3 := by simp only [R.QUE_HEAD, R.QUE_RING]; omega
  simp only [e1, e2]

theorem exec_queueOn (s : State) (ag : Agent) (n : Nat) (v : Word) (h : n < 32) : exec (.queueOn ag n v) s = s.after (s.chip.queCfgWrite ag n ((F.QUE_CFG_ON n).put v 1)) := by
  show s.after (s.chip.regWriteN ag n 32 (R.QUE_CFG n) ((F.QUE_CFG_ON n).put v 1)) = _
  rw [Chip.regWriteN, s.chip.ofIdx_lt _ h, s.chip.regWrite_que ag _ _ (by simp only [R.QUE_CFG]; omega) (by simp only [R.QUE_CFG]; omega)]
  have n0 : R.QUE_RING 0 ≤ R.QUE_CFG n ∧ R.QUE_CFG n < R.QUE_RING 32 := by simp only [R.QUE_RING, R.QUE_CFG]; omega
  have e1 : (R.QUE_CFG n - R.QUE_RING 0) / 8 = n := by simp only [R.QUE_CFG, R.QUE_RING]; omega
  have e2 : (R.QUE_CFG n - R.QUE_RING 0) % 8 = 2 := by simp only [R.QUE_CFG, R.QUE_RING]; omega
  rw [Chip.writeQue, if_pos n0]
  simp only [e1, e2]

theorem exec_queueOff (s : State) (ag : Agent) (n : Nat) (v : Word) (h : n < 32) : exec (.queueOff ag n v) s = s.after (s.chip.queCfgWrite ag n ((F.QUE_CFG_ON n).put v 0)) := by
  show s.after (s.chip.regWriteN ag n 32 (R.QUE_CFG n) ((F.QUE_CFG_ON n).put v 0)) = _
  rw [Chip.regWriteN, s.chip.ofIdx_lt _ h, s.chip.regWrite_que ag _ _ (by simp only [R.QUE_CFG]; omega) (by simp only [R.QUE_CFG]; omega)]
  have n0 : R.QUE_RING 0 ≤ R.QUE_CFG n ∧ R.QUE_CFG n < R.QUE_RING 32 := by simp only [R.QUE_RING, R.QUE_CFG]; omega
  have e1 : (R.QUE_CFG n - R.QUE_RING 0) / 8 = n := by simp only [R.QUE_CFG, R.QUE_RING]; omega
  have e2 : (R.QUE_CFG n - R.QUE_RING 0) % 8 = 2 := by simp only [R.QUE_CFG, R.QUE_RING]; omega
  rw [Chip.writeQue, if_pos n0]
  simp only [e1, e2]

theorem exec_cphGo (s : State) (ag : Agent) (u : Nat) (h : u < 4) : exec (.cphGo ag u) s = s.after (s.chip.cphPageWrite ag u 8 1#36 (s.chip.agentRom ag)) := by
  show s.after (s.chip.regWriteN ag u 4 (R.CPH_UGO u) 1#36) = _
  rw [Chip.regWriteN, s.chip.ofIdx_lt _ h, s.chip.regWrite_cph ag _ _ (by simp only [R.CPH_UGO]; omega) (by simp only [R.CPH_UGO]; omega)]
  have n0 : ¬ (R.CPH_UGO u = R.CPH_CTL) := by simp only [R.CPH_UGO, R.CPH_CTL]; omega
  have n1 : R.CPH_UCMD 0 ≤ R.CPH_UGO u ∧ R.CPH_UGO u < R.CPH_UCMD 4 := by simp only [R.CPH_UCMD, R.CPH_UGO]; omega
  have e1 : (R.CPH_UGO u - R.CPH_UCMD 0) / 0x100 = u := by simp only [R.CPH_UGO, R.CPH_UCMD]; omega
  have e2 : (R.CPH_UGO u - R.CPH_UCMD 0) % 0x100 = 8 := by simp only [R.CPH_UGO, R.CPH_UCMD]; omega
  rw [Chip.writeCph, if_neg n0, if_pos n1, e1, e2]

theorem exec_cphAbort (s : State) (ag : Agent) (u : Nat) (h : u < 4) : exec (.cphAbort ag u) s = s.after (s.chip.cphPageWrite ag u 8 2#36 (s.chip.agentRom ag)) := by
  show s.after (s.chip.regWriteN ag u 4 (R.CPH_UGO u) 2#36) = _
  rw [Chip.regWriteN, s.chip.ofIdx_lt _ h, s.chip.regWrite_cph ag _ _ (by simp only [R.CPH_UGO]; omega) (by simp only [R.CPH_UGO]; omega)]
  have n0 : ¬ (R.CPH_UGO u = R.CPH_CTL) := by simp only [R.CPH_UGO, R.CPH_CTL]; omega
  have n1 : R.CPH_UCMD 0 ≤ R.CPH_UGO u ∧ R.CPH_UGO u < R.CPH_UCMD 4 := by simp only [R.CPH_UCMD, R.CPH_UGO]; omega
  have e1 : (R.CPH_UGO u - R.CPH_UCMD 0) / 0x100 = u := by simp only [R.CPH_UGO, R.CPH_UCMD]; omega
  have e2 : (R.CPH_UGO u - R.CPH_UCMD 0) % 0x100 = 8 := by simp only [R.CPH_UGO, R.CPH_UCMD]; omega
  rw [Chip.writeCph, if_neg n0, if_pos n1, e1, e2]

theorem exec_rfeProfFWrite (s : State) (ag : Agent) (n : Nat) (v : Word) (h : n < 8) : exec (.rfeProfFWrite ag n v) s = s.after (s.chip.profFWrite ag n v) := by
  show s.after (s.chip.regWriteN ag n 8 (R.RFE_PROF_F n) v) = _
  rw [Chip.regWriteN, s.chip.ofIdx_lt _ h, s.chip.regWrite_rfe ag _ _ (by simp only [R.RFE_PROF_F]; omega) (by simp only [R.RFE_PROF_F]; omega)]
  have n0 : ¬ (R.RFE_PROF_F n = R.RFE_CTL) := by simp only [R.RFE_PROF_F, R.RFE_CTL]; omega
  have n1 : ¬ (R.RFE_PROF_F n = R.RFE_CMD) := by simp only [R.RFE_PROF_F, R.RFE_CMD]; omega
  have n2 : R.RFE_PROF_F 0 ≤ R.RFE_PROF_F n ∧ R.RFE_PROF_F n < R.RFE_PROF_F 8 := by simp only [R.RFE_PROF_F]; omega
  have e1 : (R.RFE_PROF_F n - R.RFE_PROF_F 0) / 2 = n := by simp only [R.RFE_PROF_F]; omega
  have e2 : (R.RFE_PROF_F n - R.RFE_PROF_F 0) % 2 = 0 := by simp only [R.RFE_PROF_F]; omega
  simp only [Chip.writeRfe, if_neg n0, if_neg n1, if_pos n2, e1, e2]
  rfl

theorem exec_rfeProfMWrite (s : State) (ag : Agent) (n : Nat) (v : Word) (h : n < 8) : exec (.rfeProfMWrite ag n v) s = s.after (s.chip.profMWrite ag n v) := by
  show s.after (s.chip.regWriteN ag n 8 (R.RFE_PROF_M n) v) = _
  rw [Chip.regWriteN, s.chip.ofIdx_lt _ h, s.chip.regWrite_rfe ag _ _ (by simp only [R.RFE_PROF_M]; omega) (by simp only [R.RFE_PROF_M]; omega)]
  have n0 : ¬ (R.RFE_PROF_M n = R.RFE_CTL) := by simp only [R.RFE_PROF_M, R.RFE_CTL]; omega
  have n1 : ¬ (R.RFE_PROF_M n = R.RFE_CMD) := by simp only [R.RFE_PROF_M, R.RFE_CMD]; omega
  have n2 : R.RFE_PROF_F 0 ≤ R.RFE_PROF_M n ∧ R.RFE_PROF_M n < R.RFE_PROF_F 8 := by simp only [R.RFE_PROF_F, R.RFE_PROF_M]; omega
  have e1 : (R.RFE_PROF_M n - R.RFE_PROF_F 0) / 2 = n := by simp only [R.RFE_PROF_M, R.RFE_PROF_F]; omega
  have e2 : (R.RFE_PROF_M n - R.RFE_PROF_F 0) % 2 = 1 := by simp only [R.RFE_PROF_M, R.RFE_PROF_F]; omega
  simp only [Chip.writeRfe, if_neg n0, if_neg n1, if_pos n2, e1, e2]
  rfl

theorem exec_icuSrcWrite (s : State) (ag : Agent) (n : Nat) (v : Word) (h : n < 96) (h0 : 1 ≤ n) : exec (.icuSrcWrite ag n v) s = s.after (s.chip.icuSrcWrite ag n v) := by
  show s.after (s.chip.regWriteN ag n 96 (R.ICU_SRC n) v) = _
  rw [Chip.regWriteN, s.chip.ofIdx_lt _ h, s.chip.regWrite_icu ag _ _ (by simp only [R.ICU_SRC]; omega) (by simp only [R.ICU_SRC]; omega)]
  have n0 : ¬ (R.ICU_SRC n = R.ICU_SWSET) := by simp only [R.ICU_SRC, R.ICU_SWSET]; omega
  have n1 : ¬ (R.ICU_CLAIM 0 ≤ R.ICU_SRC n ∧ R.ICU_SRC n < R.ICU_CLAIM 4) := by simp only [R.ICU_CLAIM, R.ICU_SRC]; omega
  have n2 : R.ICU_SRC 1 ≤ R.ICU_SRC n ∧ R.ICU_SRC n < R.ICU_SRC 96 := by simp only [R.ICU_SRC]; omega
  rw [Chip.writeIcu, if_neg n0, if_neg n1, if_pos n2]
  rw [show R.ICU_SRC n - R.ICU_SRC 0 = n from by simp only [R.ICU_SRC]; omega]

theorem exec_icuDoneWrite (s : State) (ag : Agent) (t : Nat) (v : Word) (h : t < 4) : exec (.icuDoneWrite ag t v) s = s.after (s.chip.icuDone ag t (v.toNat % 1024)) := by
  show s.after (s.chip.regWriteN ag t 4 (R.ICU_DONE t) v) = _
  rw [Chip.regWriteN, s.chip.ofIdx_lt _ h, s.chip.regWrite_icu ag _ _ (by simp only [R.ICU_DONE]; omega) (by simp only [R.ICU_DONE]; omega)]
  have n0 : ¬ (R.ICU_DONE t = R.ICU_SWSET) := by simp only [R.ICU_DONE, R.ICU_SWSET]; omega
  have n1 : R.ICU_CLAIM 0 ≤ R.ICU_DONE t ∧ R.ICU_DONE t < R.ICU_CLAIM 4 := by simp only [R.ICU_CLAIM, R.ICU_DONE]; omega
  rw [Chip.writeIcu, if_neg n0, if_pos n1]
  have e1 : (R.ICU_DONE t - R.ICU_CLAIM 0) / 4 = t := by simp only [R.ICU_DONE, R.ICU_CLAIM]; omega
  have e2 : (R.ICU_DONE t - R.ICU_CLAIM 0) % 4 = 1 := by simp only [R.ICU_DONE, R.ICU_CLAIM]; omega
  simp only [e1, e2]

theorem exec_tmrCmpWrite (s : State) (ag : Agent) (n : Nat) (c : Nat) (v : Word) (h : n < 8) (hc : c < 2) : exec (.tmrCmpWrite ag n c v) s = s.after (s.chip.tmrCmpWrite ag n c v) := by
  show s.after (s.chip.ofIdx n 8 fun x => x.regWriteN ag c 2 (R.TMRN_CMP0 n + c) v) = _
  rw [s.chip.ofIdx_lt _ h, Chip.regWriteN, s.chip.ofIdx_lt _ hc, s.chip.regWrite_tmr ag _ _ (by simp only [R.TMRN_CMP0]; omega) (by simp only [R.TMRN_CMP0]; omega)]
  have n0 : ¬ (R.TMRN_CMP0 n + c = R.TMR_OWN) := by simp only [R.TMRN_CMP0, R.TMR_OWN]; omega
  have n1 : R.TMRN_CTL 0 ≤ R.TMRN_CMP0 n + c ∧ R.TMRN_CMP0 n + c < R.TMRN_CTL 8 := by simp only [R.TMRN_CTL, R.TMRN_CMP0]; omega
  have e1 : (R.TMRN_CMP0 n + c - R.TMRN_CTL 0) / 16 = n := by simp only [R.TMRN_CMP0, R.TMRN_CTL]; omega
  have e2 : (R.TMRN_CMP0 n + c - R.TMRN_CTL 0) % 16 = 4 + c := by simp only [R.TMRN_CMP0, R.TMRN_CTL]; omega
  simp only [Chip.writeTmr, if_neg n0, if_pos n1, e1, e2]
  rcases (by omega : c = 0 ∨ c = 1) with rfl | rfl <;> rfl

/-! ### Reads -/

theorem exec_egyResstRead (s : State) (ag : Agent) : exec (.egyResstRead ag) s = s.after ({ (s.chip.egyResst ag).2 with rdata := (s.chip.egyResst ag).1 }) := rfl

theorem exec_cphStatRead (s : State) (ag : Agent) : exec (.cphStatRead ag) s = s.after ({ (s.chip.cphStatRead).2 with rdata := (s.chip.cphStatRead).1 }) := rfl

theorem exec_pmuStatRead (s : State) (ag : Agent) : exec (.pmuStatRead ag) s = s.after ({ (s.chip.pmuStatRead).2 with rdata := (s.chip.pmuStatRead).1 }) := rfl

theorem exec_rtcSubRead (s : State) (ag : Agent) : exec (.rtcSubRead ag) s = s.after ({ (s.chip.rtcSubRead ag).2 with rdata := (s.chip.rtcSubRead ag).1 }) := rfl

theorem exec_rtcSecRead (s : State) (ag : Agent) : exec (.rtcSecRead ag) s = s.after ({ (s.chip.rtcSecRead ag).2 with rdata := (s.chip.rtcSecRead ag).1 }) := rfl

theorem exec_evrStatRead (s : State) (ag : Agent) : exec (.evrStatRead ag) s = s.after ({ s.chip.setReg R.EVR_STAT (s.chip.reg R.EVR_STAT &&& ~~~ 0xFF000#36) with rdata := s.chip.reg R.EVR_STAT }) := rfl

theorem exec_flcEccRead (s : State) (ag : Agent) : exec (.flcEccRead ag) s = s.after ({ s.chip.setReg R.FLC_ECC (s.chip.reg R.FLC_ECC &&& ~~~ 0x7FF000000#36) with rdata := s.chip.reg R.FLC_ECC }) := rfl

theorem exec_hpCntRead (s : State) (ag : Agent) : exec (.hpCntRead ag) s = s.after ({ s.chip.setReg R.HP_CNT (s.chip.reg R.HP_CNT &&& ~~~ 0xFFFFFFFFF#36) with rdata := s.chip.reg R.HP_CNT }) := rfl

theorem exec_nfcCntRead (s : State) (ag : Agent) : exec (.nfcCntRead ag) s = s.after ({ s.chip.setReg R.NFC_CNT (s.chip.reg R.NFC_CNT &&& ~~~ 0xFFFFFFFFF#36) with rdata := s.chip.reg R.NFC_CNT }) := rfl

theorem exec_lnkCntRead (s : State) (ag : Agent) : exec (.lnkCntRead ag) s = s.after ({ s.chip.setReg R.LNK_CNT (s.chip.reg R.LNK_CNT &&& ~~~ 0xFFFFFFFFF#36) with rdata := s.chip.reg R.LNK_CNT }) := rfl

theorem exec_cxCntRead (s : State) (ag : Agent) : exec (.cxCntRead ag) s = s.after ({ s.chip.setReg R.CX_CNT (s.chip.reg R.CX_CNT &&& ~~~ 0xFFFF#36) with rdata := s.chip.reg R.CX_CNT }) := by
  have e : s.chip.ioRead ag R.CX_CNT = s.chip.plainRead R.CX_CNT := by simp [Chip.ioRead, blockOf, R.CX_CNT, R.CX_STAT]
  have e1 : s.chip.plainRead R.CX_CNT = s.chip.readClear R.CX_CNT 0xFFFF := rfl
  show s.after (s.chip.regRead ag R.CX_CNT) = _
  rw [s.chip.regRead_block ag (by decide) (by decide), e, e1]
  rfl

theorem exec_mdmCountRead_ls (s : State) (ag : Agent) : exec (.mdmCountRead ag 1) s = s.after { s.chip.setReg R.MDM_LSCNT (s.chip.reg R.MDM_LSCNT &&& ~~~ 0xFFFFFFFFF#36) with rdata := s.chip.reg R.MDM_LSCNT } := rfl
theorem exec_mdmCountRead_cm (s : State) (ag : Agent) : exec (.mdmCountRead ag 2) s = s.after { s.chip.setReg R.MDM_CMCNT (s.chip.reg R.MDM_CMCNT &&& ~~~ 0xFFFFFFFFF#36) with rdata := s.chip.reg R.MDM_CMCNT } := rfl
theorem exec_mdmCountRead_fk (s : State) (ag : Agent) : exec (.mdmCountRead ag 3) s = s.after { s.chip.setReg R.MDM_FKCNT (s.chip.reg R.MDM_FKCNT &&& ~~~ 0xFFFFFFFFF#36) with rdata := s.chip.reg R.MDM_FKCNT } := rfl

theorem exec_tmrCaprRead (s : State) (ag : Agent) (n : Nat) (h : n < 8) : exec (.tmrCaprRead ag n) s = s.after ({ (s.chip.caprRead n).2 with rdata := (s.chip.caprRead n).1 }) := by
  show s.after (s.chip.regReadN ag n 8 (R.TMRN_CAPR n)) = _
  rw [Chip.regReadN, s.chip.ofIdx_lt _ h, s.chip.regRead_tmr ag _ (by simp only [R.TMRN_CAPR]; omega) (by simp only [R.TMRN_CAPR]; omega)]
  have e1 : (R.TMRN_CAPR n - R.TMRN_CTL 0) / 16 = n := by simp only [R.TMRN_CAPR, R.TMRN_CTL]; omega
  have e2 : (R.TMRN_CAPR n - R.TMRN_CTL 0) % 16 = 6 := by simp only [R.TMRN_CAPR, R.TMRN_CTL]; omega
  have e3 : R.TMRN_CTL 0 ≤ R.TMRN_CAPR n ∧ R.TMRN_CAPR n < R.TMRN_CTL 8 := by simp only [R.TMRN_CTL, R.TMRN_CAPR]; omega
  have e : s.chip.readTmr (R.TMRN_CAPR n) = s.chip.caprRead n := by simp only [Chip.readTmr, if_pos e3, e1, e2]
  rw [e]

theorem exec_tmrCapfRead (s : State) (ag : Agent) (n : Nat) (h : n < 8) : exec (.tmrCapfRead ag n) s = s.after ({ (s.chip.capfRead n).2 with rdata := (s.chip.capfRead n).1 }) := by
  show s.after (s.chip.regReadN ag n 8 (R.TMRN_CAPF n)) = _
  rw [Chip.regReadN, s.chip.ofIdx_lt _ h, s.chip.regRead_tmr ag _ (by simp only [R.TMRN_CAPF]; omega) (by simp only [R.TMRN_CAPF]; omega)]
  have e1 : (R.TMRN_CAPF n - R.TMRN_CTL 0) / 16 = n := by simp only [R.TMRN_CAPF, R.TMRN_CTL]; omega
  have e2 : (R.TMRN_CAPF n - R.TMRN_CTL 0) % 16 = 7 := by simp only [R.TMRN_CAPF, R.TMRN_CTL]; omega
  have e3 : R.TMRN_CTL 0 ≤ R.TMRN_CAPF n ∧ R.TMRN_CAPF n < R.TMRN_CTL 8 := by simp only [R.TMRN_CTL, R.TMRN_CAPF]; omega
  have e : s.chip.readTmr (R.TMRN_CAPF n) = s.chip.capfRead n := by simp only [Chip.readTmr, if_pos e3, e1, e2]
  rw [e]

theorem exec_icuClaimRead (s : State) (ag : Agent) (t : Nat) (h : t < 4) : exec (.icuClaimRead ag t) s = s.after ({ (s.chip.icuClaimRead ag t).2 with rdata := W (s.chip.icuClaimRead ag t).1 }) := by
  show s.after (s.chip.regReadN ag t 4 (R.ICU_CLAIM t)) = _
  rw [Chip.regReadN, s.chip.ofIdx_lt _ h, s.chip.regRead_icu ag _ (by simp only [R.ICU_CLAIM]; omega) (by simp only [R.ICU_CLAIM]; omega)]
  have e1 : (R.ICU_CLAIM t - R.ICU_CLAIM 0) / 4 = t := by simp only [R.ICU_CLAIM]; omega
  have e2 : (R.ICU_CLAIM t - R.ICU_CLAIM 0) % 4 = 0 := by simp only [R.ICU_CLAIM]; omega
  have e3 : R.ICU_CLAIM 0 ≤ R.ICU_CLAIM t ∧ R.ICU_CLAIM t < R.ICU_CLAIM 4 := by simp only [R.ICU_CLAIM]; omega
  have e4 : ¬ (R.ICU_PEND 0 ≤ R.ICU_CLAIM t ∧ R.ICU_CLAIM t < R.ICU_PEND 3) := by simp only [R.ICU_PEND, R.ICU_CLAIM]; omega
  have e : s.chip.readIcu ag (R.ICU_CLAIM t) = (W (s.chip.icuClaimRead ag t).1, (s.chip.icuClaimRead ag t).2) := by
    simp only [Chip.readIcu, if_neg e4, if_pos e3, e1, e2]
  rw [e]

theorem exec_queQstatRead (s : State) (ag : Agent) (q : Nat) (h : q < 32) : exec (.queQstatRead ag q) s = s.after ({ (s.chip.qstatRead q).2 with rdata := (s.chip.qstatRead q).1 }) := by
  show s.after (s.chip.regReadN ag q 32 (R.QUE_QSTAT q)) = _
  rw [Chip.regReadN, s.chip.ofIdx_lt _ h, s.chip.regRead_que ag _ (by simp only [R.QUE_QSTAT]; omega) (by simp only [R.QUE_QSTAT]; omega)]
  have e1 : (R.QUE_QSTAT q - R.QUE_RING 0) / 8 = q := by simp only [R.QUE_QSTAT, R.QUE_RING]; omega
  have e3 : R.QUE_RING 0 ≤ R.QUE_QSTAT q ∧ R.QUE_QSTAT q < R.QUE_RING 32 ∧ (R.QUE_QSTAT q - R.QUE_RING 0) % 8 = 5 := by simp only [R.QUE_RING, R.QUE_QSTAT]; omega
  have e : s.chip.readQue (R.QUE_QSTAT q) = s.chip.qstatRead q := by simp only [Chip.readQue, if_pos e3, e1]
  rw [e]

theorem exec_lnkAsnloRead (s : State) (ag : Agent) (c : Nat) (h : c < 4) : exec (.lnkAsnloRead ag c) s = s.after ({ (s.chip.asnLoRead c).2 with rdata := (s.chip.asnLoRead c).1 }) := by
  show s.after (s.chip.regReadN ag c 4 (R.LNK_CLS_ASNLO c)) = _
  rw [Chip.regReadN, s.chip.ofIdx_lt _ h, s.chip.regRead_lnk ag _ (by simp only [R.LNK_CLS_ASNLO]; omega) (by simp only [R.LNK_CLS_ASNLO]; omega)]
  have e1 : (R.LNK_CLS_ASNLO c - R.LNK_CLS_T0 0) / 8 = c := by simp only [R.LNK_CLS_ASNLO, R.LNK_CLS_T0]; omega
  have e2 : (R.LNK_CLS_ASNLO c - R.LNK_CLS_T0 0) % 8 = 5 := by simp only [R.LNK_CLS_ASNLO, R.LNK_CLS_T0]; omega
  have e3 : R.LNK_CLS_T0 0 ≤ R.LNK_CLS_ASNLO c ∧ R.LNK_CLS_ASNLO c < R.LNK_CLS_T0 4 := by simp only [R.LNK_CLS_T0, R.LNK_CLS_ASNLO]; omega
  have e4 : R.LNK_CLS_ASNLO c ≠ R.LNK_NEXT := by simp only [R.LNK_CLS_ASNLO, R.LNK_NEXT]; omega
  have e : s.chip.readLnk (R.LNK_CLS_ASNLO c) = s.chip.asnLoRead c := by simp only [Chip.readLnk, if_neg e4, if_pos e3, e1, e2]
  rw [e]

end Sys2Proof.Machine
end

