-- ==== Sys2Proof/Laws/Exec.lean ====
section
/-!
SUPPORT. What each command's own effect is, before what follows of it: one lemma for each meaning that Laws/Access
does not state.
-/
namespace Sys2Proof.Machine

theorem exec_registerWrite (x : State) (ag : Agent) (addr : Nat) (v : Word) : exec (.registerWrite ag addr v) x = x.after (x.chip.regWrite ag addr v) := rfl
theorem exec_blockDisable (x : State) (ag : Agent) (b : Block) : exec (.blockDisable ag b) x = x.after (x.chip.fldWrite ag ⟨blockCtl b, 0, 0⟩ 0) := rfl
theorem exec_blockSafePointStop (x : State) (b : Block) : exec (.blockSafePointStop b) x = x.after (x.chip.safePoint b) := rfl
theorem exec_bearClaim (x : State) (n power dur : Nat) (ms : Bool) (minP : Option Nat) (deadline : Option Nat) : exec (.bearClaim n power dur ms minP deadline) x = x.after (x.chip.ofIdx n 16 (fun s => s.claim n power dur ms minP (deadline.map (fun d => s.now + d)))) := rfl
theorem exec_earliestStartReached (x : State) (n : Nat) : exec (.earliestStartReached n) x = x.after (x.chip.reexamine n) := rfl
theorem exec_claimRelease (x : State) (n : Nat) : exec (.claimRelease n) x = x.after (x.chip.release n) := rfl
theorem exec_burstGrantEnd (x : State) (n : Nat) : exec (.burstGrantEnd n) x = x.after (x.chip.burstEnd n) := rfl
theorem exec_preemptedStop (x : State) (n : Nat) : exec (.preemptedStop n) x = x.after (x.chip.preemptAt n) := rfl
theorem exec_claimDeadlinePassed (x : State) (n : Nat) : exec (.claimDeadlinePassed n) x = x.after (x.chip.deadlinePassed n) := rfl
theorem exec_warningHoldRecheck (x : State) : exec .warningHoldRecheck x = x.after (x.chip.warningRecheck) := rfl
theorem exec_vsysSample (x : State) (uV : Nat) : exec (.vsysSample uV) x = x.after (x.chip.vsysSample uV) := rfl
theorem exec_measIntervalExpiry (x : State) : exec .measIntervalExpiry x = x.after (x.chip.measInterval) := rfl
theorem exec_measurementStart (x : State) : exec .measurementStart x = x.after (x.chip.measStart) := rfl
theorem exec_measurementDone (x : State) (m : SupplyMeas) : exec (.measurementDone m) x = x.after (x.chip.measResult m) := rfl
theorem exec_measurementRetry (x : State) : exec .measurementRetry x = x.after (x.chip.measRetry) := rfl
theorem exec_reservationExpiry (x : State) (i : Nat) : exec (.reservationExpiry i) x = x.after (x.chip.expireResv i) := rfl
theorem exec_swClaim (x : State) (ag : Agent) (n : Nat) (v : Word) : exec (.swClaim ag n v) x = x.after (x.chip.swClaimWrite ag n v) := rfl
theorem exec_swClaimRelease (x : State) (ag : Agent) (n : Nat) : exec (.swClaimRelease ag n) x = x.after (x.chip.swClaimWrite ag n 0) := rfl
theorem exec_tempSample (x : State) (t : Int) : exec (.tempSample t) x = x.after (x.chip.tempSample t) := rfl
theorem exec_replanDue (x : State) : exec .replanDue x = x.after (x.chip.replanDue) := rfl
theorem exec_replanDone (x : State) : exec .replanDone x = x.after (x.chip.replanDone) := rfl
theorem exec_ringMeasure (x : State) (counts : List Nat) : exec (.ringMeasure counts) x = x.after (x.chip.ringMeasure counts) := rfl
theorem exec_hfLfMeasure (x : State) (cycles : Nat) : exec (.hfLfMeasure cycles) x = x.after (x.chip.hfLfMeasure cycles) := rfl
theorem exec_cipherOpDone (x : State) (u : Nat) (mismatch : Bool) : exec (.cipherOpDone u mismatch) x = x.after (x.chip.cipherOpDone u mismatch) := rfl
theorem exec_cipherPageForeign (x : State) (ag : Agent) (u : Nat) (off : Nat) : exec (.cipherPageForeign ag u off) x = x.after (x.chip.foreignAccess ag u off) := rfl
theorem exec_levelRequestFall (x : State) (n : Nat) : exec (.levelRequestFall n) x = x.after (x.chip.levelFall n) := rfl
theorem exec_coalExpiry (x : State) (t n : Nat) : exec (.coalExpiry t n) x = x.after (x.chip.coalExpiry t n) := rfl
theorem exec_taskFire (x : State) (t : Nat) : exec (.taskFire t) x = x.after (x.chip.taskFire t) := rfl
theorem exec_evrTstatRead (x : State) (ag : Agent) (t : Nat) : exec (.evrTstatRead ag t) x = x.after (x.chip.regReadN ag t 32 (R.EVR_TSTAT t)) := rfl
theorem exec_evtInEdge (x : State) (k : Nat) (rise : Bool) : exec (.evtInEdge k rise) x = x.after (x.chip.evtInEdge k rise) := rfl
theorem exec_flcProgram (x : State) (ag : Agent) (addr : Nat) : exec (.flcProgram ag addr) x = x.after (x.chip.flcOrder ag 1 addr) := rfl
theorem exec_flcErase (x : State) (ag : Agent) (addr : Nat) : exec (.flcErase ag addr) x = x.after (x.chip.flcOrder ag 2 addr) := rfl
theorem exec_sqopen (x : State) (ag : Agent) (sect : Nat) : exec (.sqopen ag sect) x = x.after (x.chip.flcOrder ag 3 sect) := rfl
theorem exec_sqcommit (x : State) (ag : Agent) (sect : Nat) : exec (.sqcommit ag sect) x = x.after (x.chip.flcOrder ag 4 sect) := rfl
theorem exec_sqabandon (x : State) (ag : Agent) (sect : Nat) : exec (.sqabandon ag sect) x = x.after (x.chip.flcOrder ag 5 sect) := rfl
theorem exec_sqlevel (x : State) (ag : Agent) : exec (.sqlevel ag) x = x.after (x.chip.flcOrder ag 6 0) := rfl
theorem exec_proterase (x : State) (ag : Agent) : exec (.proterase ag) x = x.after (x.chip.flcOrder ag 7 0) := rfl
theorem exec_protprog (x : State) (ag : Agent) (w : Nat) : exec (.protprog ag w) x = x.after (x.chip.flcOrder ag 8 w) := rfl
theorem exec_programPulseEnd (x : State) (verified : Bool) : exec (.programPulseEnd verified) x = x.after (x.chip.programPulseEnd verified) := rfl
theorem exec_erasePulseEnd (x : State) (verified : Bool) : exec (.erasePulseEnd verified) x = x.after (x.chip.erasePulseEnd verified) := rfl
theorem exec_otpPulseEnd (x : State) (verified : Bool) : exec (.otpPulseEnd verified) x = x.after (x.chip.otpPulseEnd verified) := rfl
theorem exec_hostRead (x : State) (n addr clocked : Nat) : exec (.hostRead n addr clocked) x = x.after (x.chip.hostRead false n addr clocked) := rfl
theorem exec_hostReadf (x : State) (n addr clocked : Nat) : exec (.hostReadf n addr clocked) x = x.after (x.chip.hostRead true n addr clocked) := rfl
theorem exec_hostWrite (x : State) (n addr : Nat) (words : List Word) : exec (.hostWrite n addr words) x = x.after (x.chip.hostWrite false n addr words) := rfl
theorem exec_hostWritef (x : State) (n addr : Nat) (words : List Word) : exec (.hostWritef n addr words) x = x.after (x.chip.hostWrite true n addr words) := rfl
theorem exec_hostOffer (x : State) (cmd hi lo : Nat) : exec (.hostOffer cmd hi lo) x = x.after (x.chip.hostOfferCmd cmd hi lo) := rfl
theorem exec_hostV1Read (x : State) (addr clocked : Nat) : exec (.hostV1Read addr clocked) x = x.after (x.chip.hostV1Read addr clocked) := rfl
theorem exec_hostV1Write (x : State) (addr : Nat) (words : List Word) : exec (.hostV1Write addr words) x = x.after (x.chip.hostV1Write addr words) := rfl
theorem exec_hostFetchDone (x : State) : exec .hostFetchDone x = x.after (x.chip.hostFetchDone) := rfl
theorem exec_hostPostedWrite (x : State) : exec .hostPostedWrite x = x.after (x.chip.hostPostedWrite) := rfl
theorem exec_slotBoundary (x : State) (c : Nat) : exec (.slotBoundary c) x = x.after (x.chip.ofIdx c 4 (fun s => s.slotBoundary c)) := rfl
theorem exec_cellChoice (x : State) (c : Nat) : exec (.cellChoice c) x = x.after (x.chip.ofIdx c 4 (fun s => s.cellChoice c)) := rfl
theorem exec_cellPrepStart (x : State) (c : Nat) : exec (.cellPrepStart c) x = x.after (x.chip.ofIdx c 4 (fun s => s.cellPrepStart c)) := rfl
theorem exec_rxWindowOpen (x : State) (gnt : Bool) : exec (.rxWindowOpen gnt) x = x.after (x.chip.rxWindowOpen gnt) := rfl
theorem exec_rxWindowClose (x : State) : exec .rxWindowClose x = x.after (x.chip.windowClose false) := rfl
theorem exec_txEnd (x : State) : exec .txEnd x = x.after (x.chip.txEndStep) := rfl
theorem exec_ackClaim (x : State) : exec .ackClaim x = x.after (x.chip.ackClaim) := rfl
theorem exec_ackTxStart (x : State) (gnt : Bool) : exec (.ackTxStart gnt) x = x.after (x.chip.ackTxStart gnt) := rfl
theorem exec_ackTxEnd (x : State) : exec .ackTxEnd x = x.after (x.chip.ackTxEnd) := rfl
theorem exec_ackWindowOpen (x : State) (gnt : Bool) : exec (.ackWindowOpen gnt) x = x.after (x.chip.ackWindowOpen gnt) := rfl
theorem exec_ackReceived (x : State) : exec .ackReceived x = x.after (x.chip.ackDecision) := rfl
theorem exec_ackWindowClose (x : State) : exec .ackWindowClose x = x.after (x.chip.windowClose true) := rfl
theorem exec_desyncTimeout (x : State) : exec .desyncTimeout x = x.after (x.chip.desyncTimeout) := rfl
theorem exec_bookTxEntry (x : State) (q : Nat) : exec (.bookTxEntry q) x = x.after (x.chip.bookTx q) := rfl
theorem exec_bookRxCell (x : State) (n : Nat) : exec (.bookRxCell n) x = x.after (x.chip.bookRx n) := rfl
theorem exec_lnkCellWrite (x : State) (ag : Agent) (n : Nat) (k : Nat) (v : Word) : exec (.lnkCellWrite ag n k v) x = x.after (x.chip.regWriteN ag (2 * n + k % 2) 2048 (R.LNK_CELL_0 0 + (2 * n + k % 2)) v) := rfl
theorem exec_beaconReceived (x : State) (f : List Byte) (lo fine lqi : Nat) : exec (.beaconReceived f lo fine lqi) x = x.after (x.chip.beaconReceived f lo fine lqi) := rfl
theorem exec_beaconCollectEnd (x : State) : exec .beaconCollectEnd x = x.after (x.chip.collectEnd) := rfl
theorem exec_joinWaitTimeout (x : State) : exec .joinWaitTimeout x = x.after (x.chip.joinTimeout) := rfl
theorem exec_joinRequestReceived (x : State) (f : List Byte) (lqi : Nat) : exec (.joinRequestReceived f lqi) x = x.after (x.chip.requestReceived f lqi) := rfl
theorem exec_joinRelayReceived (x : State) (parent : Nat) (body : List Byte) : exec (.joinRelayReceived parent body) x = x.after (x.chip.relayReceived parent body) := rfl
theorem exec_joinResponseReceived (x : State) (body : List Byte) : exec (.joinResponseReceived body) x = x.after (x.chip.responseReceived body) := rfl
theorem exec_joinDeliverReceived (x : State) (f : MeshRx) : exec (.joinDeliverReceived f) x = x.after (x.chip.deliverReceived f) := rfl
theorem exec_helloReceived (x : State) (f : List Byte) (lqi : Nat) : exec (.helloReceived f lqi) x = x.after (x.chip.helloReceived f lqi) := rfl
theorem exec_advertReceived (x : State) (orig : Nat) (body : List Byte) : exec (.advertReceived orig body) x = x.after (x.chip.advertReceived orig body) := rfl
theorem exec_advertInterval (x : State) : exec .advertInterval x = x.after (x.chip.advertInterval) := rfl
theorem exec_parentBeaconTimeout (x : State) (a : Nat) : exec (.parentBeaconTimeout a) x = x.after (x.chip.dropParent a) := rfl
theorem exec_childTimeout (x : State) (a : Nat) : exec (.childTimeout a) x = x.after (x.chip.childTimeout a) := rfl
theorem exec_routeEntryExpiry (x : State) (a : Nat) : exec (.routeEntryExpiry a) x = x.after (x.chip.routeExpiry a) := rfl
theorem exec_upFrameReceived (x : State) (f : List Byte) (lqi : Nat) : exec (.upFrameReceived f lqi) x = x.after (x.chip.upReceived f lqi) := rfl
theorem exec_downFrameReceived (x : State) (f : List Byte) (lqi : Nat) : exec (.downFrameReceived f lqi) x = x.after (x.chip.downReceived f lqi) := rfl
theorem exec_rootSendDown (x : State) (dest ty : Nat) (jt : Option Nat) (body : List Byte) : exec (.rootSendDown dest ty jt body) x = x.after (x.chip.rootSend dest ty jt body) := rfl
theorem exec_floodReceived (x : State) (f : List Byte) (lqi : Nat) : exec (.floodReceived f lqi) x = x.after (x.chip.floodReceived f lqi) := rfl
theorem exec_routeErrReceived (x : State) (fdst hop : Nat) : exec (.routeErrReceived fdst hop) x = x.after (x.chip.routeErrReceived fdst hop) := rfl
theorem exec_meshNoAckReturn (x : State) (f : List Byte) (tries : Nat) : exec (.meshNoAckReturn f tries) x = x.after (x.chip.noAckReturn f tries) := rfl
theorem exec_ping (x : State) (orig : CmdFrom) (token : Nat) : exec (.ping orig token) x = x.after (x.chip.cmdPing orig token) := rfl
theorem exec_getInfo (x : State) (orig : CmdFrom) (token : Nat) : exec (.getInfo orig token) x = x.after (x.chip.cmdGetInfo orig token) := rfl
theorem exec_getPlan (x : State) (orig : CmdFrom) (token page : Nat) : exec (.getPlan orig token page) x = x.after (x.chip.cmdGetPlan orig token page) := rfl
theorem exec_keyNext (x : State) (orig : CmdFrom) (token epoch : Nat) (kw : List Byte) : exec (.keyNext orig token epoch kw) x = x.after (x.chip.cmdKeyNext orig token epoch kw) := rfl
theorem exec_keySwitch (x : State) (orig : CmdHead) (epoch asn : Nat) : exec (.keySwitch orig epoch asn) x = x.after (x.chip.cmdKeySwitch orig epoch asn) := rfl
theorem exec_keySwitchAsnReached (x : State) : exec .keySwitchAsnReached x = x.after (x.chip.keySwitchReached) := rfl
theorem exec_leave (x : State) (orig : CmdFrom) (token : Nat) : exec (.leave orig token) x = x.after (x.chip.cmdLeave orig token) := rfl
theorem exec_unknownCmd (x : State) (orig : Nat) (loc : Bool) (cid token : Nat) : exec (.unknownCmd orig loc cid token) x = x.after (x.chip.cmdUnknown orig loc cid token) := rfl
theorem exec_tapRecordApply (x : State) (body : List Byte) : exec (.tapRecordApply body) x = x.after (x.chip.tapApply body) := rfl
theorem exec_mdmCountRead (x : State) (ag : Agent) (mm : Nat) : exec (.mdmCountRead ag mm) x = x.after (x.chip.mdmCountRead ag mm) := rfl
theorem exec_preambleAcquired (x : State) (foff : RxAcq) : exec (.preambleAcquired foff) x = x.after (x.chip.preambleAcquired foff) := rfl
theorem exec_syncDecision (x : State) (a b c : RxSync) (ago : Nat) : exec (.syncDecision a b c ago) x = x.after (x.chip.syncDecision a b c ago) := rfl
theorem exec_headerDecision (x : State) (f : RxField) : exec (.headerDecision f) x = x.after (x.chip.headerDecision f) := rfl
theorem exec_trackLost (x : State) : exec .trackLost x = x.after (x.chip.trackLost) := rfl
theorem exec_frameReceived (x : State) (f : RxField) (det noise snr : Int) : exec (.frameReceived f det noise snr) x = x.after (x.chip.frameReceived f det noise snr) := rfl
theorem exec_frameHandover (x : State) : exec .frameHandover x = x.after (x.chip.frameHandover) := rfl
theorem exec_fieldDetect (x : State) (vaon : Bool) (vnfc : Nat) : exec (.fieldDetect vaon vnfc) x = x.after (x.chip.fieldDetect vaon vnfc) := rfl
theorem exec_fieldLost (x : State) : exec .fieldLost x = x.after (x.chip.fieldLost) := rfl
theorem exec_fieldCollapse (x : State) (verified : Bool) : exec (.fieldCollapse verified) x = x.after (x.chip.fieldCollapse verified) := rfl
theorem exec_tagReqa (x : State) (wupa : Bool) : exec (.tagReqa wupa) x = x.after (x.chip.tagReqa wupa) := rfl
theorem exec_tagAnticollision (x : State) (cl n known : Nat) : exec (.tagAnticollision cl n known) x = x.after (x.chip.tagAnti cl n known) := rfl
theorem exec_tagSelect (x : State) (cl : Nat) (uid : List Byte) : exec (.tagSelect cl uid) x = x.after (x.chip.tagSelect cl uid) := rfl
theorem exec_tagHlta (x : State) : exec .tagHlta x = x.after (x.chip.tagHlta) := rfl
theorem exec_tagRats (x : State) : exec .tagRats x = x.after (x.chip.tagRats) := rfl
theorem exec_tagDeselect (x : State) : exec .tagDeselect x = x.after (x.chip.tagDeselect) := rfl
theorem exec_tagReplyMute (x : State) : exec .tagReplyMute x = x.after (x.chip.tagMute) := rfl
theorem exec_tagWtxDue (x : State) : exec .tagWtxDue x = x.after (x.chip.tagWtx) := rfl
theorem exec_selectByName (x : State) (aid : List Byte) : exec (.selectByName aid) x = x.after (x.chip.selectName aid) := rfl
theorem exec_selectByFile (x : State) (c : FileSelect) : exec (.selectByFile c) x = x.after (x.chip.selectFile c) := rfl
theorem exec_readBinary (x : State) (off len : Nat) : exec (.readBinary off len) x = x.after (x.chip.readBinary off len) := rfl
theorem exec_updateBinary (x : State) (off : Nat) (data : List Byte) : exec (.updateBinary off data) x = x.after (x.chip.updateBinary off data) := rfl
theorem exec_mailboxWrite (x : State) (seq : Nat) (data : List Byte) (levels : List Nat) : exec (.mailboxWrite seq data levels) x = x.after (x.chip.mailboxWrite seq data levels) := rfl
theorem exec_vaonUpDuringHarvest (x : State) : exec .vaonUpDuringHarvest x = x.after (x.chip.vaonUp) := rfl
theorem exec_nfcEnable (x : State) (ag : Agent) : exec (.nfcEnable ag) x = x.after (x.chip.fldWrite ag F.NFC_CTL_EN 1) := rfl
theorem exec_nfcDisable (x : State) (ag : Agent) : exec (.nfcDisable ag) x = x.after (x.chip.fldWrite ag F.NFC_CTL_EN 0) := rfl
theorem exec_readerRoundStart (x : State) : exec .readerRoundStart x = x.after (x.chip.roundStart) := rfl
theorem exec_readerAnswer (x : State) (data : List Byte) (good : Bool) (coll : Option Nat) (bcc : Bool) : exec (.readerAnswer data good coll bcc) x = x.after (x.chip.readerAnswer data good coll bcc) := rfl
theorem exec_readerFrameTimeout (x : State) : exec .readerFrameTimeout x = x.after (x.chip.readerTimeout) := rfl
theorem exec_pingDue (x : State) : exec .pingDue x = x.after (x.chip.pingDue) := rfl
theorem exec_pingResult (x : State) (amp phase : Nat) : exec (.pingResult amp phase) x = x.after (x.chip.pingResult amp phase) := rfl
theorem exec_vddio2Change (x : State) (ok : Bool) : exec (.vddio2Change ok) x = x.after (x.chip.vddio2Change ok) := rfl
theorem exec_wakePinEdge (x : State) (n : Nat) (rise : Bool) : exec (.wakePinEdge n rise) x = x.after (x.chip.wakePinEdge n rise) := rfl
theorem exec_hwQueueProduce (x : State) (q : Nat) (entry : List Word) : exec (.hwQueueProduce q entry) x = x.after (x.chip.ofIdx q 32 (fun s => s.produce q entry)) := rfl
theorem exec_hwQueueConsume (x : State) (q : Nat) (n : Nat) : exec (.hwQueueConsume q n) x = x.after (x.chip.ofIdx q 32 (fun s => s.consumeN q n)) := rfl
theorem exec_stampRequest (x : State) (item : StampItem) (ago : Int) : exec (.stampRequest item ago) x = x.after (x.chip.stampRequest item ago) := rfl
theorem exec_writeBufferDrain (x : State) (c : Core) : exec (.writeBufferDrain c) x = x.after (x.chip.drainOne c) := rfl
theorem exec_calPendingStart (x : State) : exec .calPendingStart x = x.after (x.chip.calPending) := rfl
theorem exec_calStepDone (x : State) (ok : Bool) : exec (.calStepDone ok) x = x.after (x.chip.calStepDone ok) := rfl
theorem exec_synLock (x : State) : exec .synLock x = x.after (x.chip.synLock) := rfl
theorem exec_lockFailTimeout (x : State) : exec .lockFailTimeout x = x.after (x.chip.lockFail) := rfl
theorem exec_lockLost (x : State) : exec .lockLost x = x.after (x.chip.lockLost) := rfl
theorem exec_bgCalDue (x : State) : exec .bgCalDue x = x.after (x.chip.bgDue) := rfl
theorem exec_bgCalStepStart (x : State) : exec .bgCalStepStart x = x.after (x.chip.bgStart x.chip.nextPrep) := rfl
theorem exec_bgCalStepDone (x : State) : exec .bgCalStepDone x = x.after (x.chip.bgStepDone) := rfl
theorem exec_agcPeriodEnd (x : State) (p rssi : Int) : exec (.agcPeriodEnd p rssi) x = x.after (x.chip.agcPeriodEnd p rssi) := rfl
theorem exec_txenRise (x : State) : exec .txenRise x = x.after (x.chip.txenRise) := rfl
theorem exec_txRampStart (x : State) (gnt : Bool) : exec (.txRampStart gnt) x = x.after (x.chip.txRampStart gnt) := rfl
theorem exec_txHoldResolve (x : State) (gnt : Bool) : exec (.txHoldResolve gnt) x = x.after (x.chip.txHoldResolve gnt) := rfl
theorem exec_txDeadlineDrop (x : State) : exec .txDeadlineDrop x = x.after (x.chip.txDeadlineDrop) := rfl
theorem exec_cxGntFall (x : State) : exec .cxGntFall x = x.after (x.chip.cxGntFall) := rfl
theorem exec_cxArbInputChange (x : State) (req pri : Bool) : exec (.cxArbInputChange req pri) x = x.after (x.chip.cxArb req pri) := rfl
theorem exec_svcOpen (x : State) (q : SvcLine) (hi lo : Nat) : exec (.svcOpen q hi lo) x = x.after (x.chip.svcRequest q.late (svcWord 0 1 (hi <<< 8 ||| lo)) [] q.chk (fun s => s.svcOpen hi lo)) := rfl
theorem exec_svcRead (x : State) (q : SvcLine) (n addr : Nat) : exec (.svcRead q n addr) x = x.after (x.chip.svcRequest q.late (svcWord 1 n addr) [] q.chk (fun s => s.svcRead n addr)) := rfl
theorem exec_svcWrite (x : State) (late : Bool) (addr : Nat) (words : List Word) (chk : Option Word) : exec (.svcWrite late addr words chk) x = x.after (x.chip.svcRequest late (svcWord 2 words.length addr) words chk (fun s => s.svcWrite addr words)) := rfl
theorem exec_svcHalt (x : State) (q : SvcLine) (mask : Nat) : exec (.svcHalt q mask) x = x.after (x.chip.svcRequest q.late (svcWord 3 1 mask) [] q.chk (fun s => s.svcHaltReq mask)) := rfl
theorem exec_svcRun (x : State) (q : SvcLine) (mask : Nat) : exec (.svcRun q mask) x = x.after (x.chip.svcRequest q.late (svcWord 4 1 mask) [] q.chk (fun s => s.svcRunReq mask)) := rfl
theorem exec_svcStep (x : State) (q : SvcLine) (core : Nat) : exec (.svcStep q core) x = x.after (x.chip.svcRequest q.late (svcWord 5 1 core) [] q.chk (fun s => s.svcStepReq core)) := rfl
theorem exec_svcRegrd (x : State) (q : SvcLine) (core reg : Nat) : exec (.svcRegrd q core reg) x = x.after (x.chip.svcRequest q.late (svcWord 6 1 (core <<< 16 ||| reg)) [] q.chk (fun s => s.svcRegrd core reg)) := rfl
theorem exec_svcRegwr (x : State) (late : Bool) (core reg : Nat) (v : Word) (chk : Option Word) : exec (.svcRegwr late core reg v chk) x = x.after (x.chip.svcRequest late (svcWord 7 1 (core <<< 16 ||| reg)) [v] chk (fun s => s.svcRegwr core reg v)) := rfl
theorem exec_svcReset (x : State) (q : SvcLine) (addr : Nat) : exec (.svcReset q addr) x = x.after (x.chip.svcRequest q.late (svcWord 8 1 addr) [] q.chk (fun s => s.svcResetReq addr)) := rfl
theorem exec_svcClose (x : State) (q : SvcLine) : exec (.svcClose q) x = x.after (x.chip.svcRequest q.late (svcWord 9 1 0) [] q.chk (fun s => s.svcCloseReq)) := rfl
theorem exec_svcStatus (x : State) (q : SvcLine) (op : Nat) : exec (.svcStatus q op) x = x.after (x.chip.svcRequest q.late (svcWord op 1 0) [] q.chk (fun s => s.svcStatusReq op)) := rfl
theorem exec_svcLineReset (x : State) (cycles : Nat) : exec (.svcLineReset cycles) x = x.after (x.chip.svcLineReset cycles) := rfl
theorem exec_svcSessionTimeout (x : State) : exec .svcSessionTimeout x = x.after (x.chip.svcTimeout) := rfl
theorem exec_voleStart (x : State) : exec .voleStart x = x.after (x.chip.voleStart) := rfl
theorem exec_loaderBegin (x : State) : exec .loaderBegin x = x.after (x.chip.ldrServe 1 Chip.ldrBegin) := rfl
theorem exec_loaderData (x : State) : exec .loaderData x = x.after (x.chip.ldrServe 2 Chip.ldrData) := rfl
theorem exec_loaderCommit (x : State) : exec .loaderCommit x = x.after (x.chip.ldrServe 3 Chip.ldrCommit) := rfl
theorem exec_loaderStream (x : State) : exec .loaderStream x = x.after (x.chip.ldrServe 4 Chip.ldrStream) := rfl
theorem exec_voleIdleTimeout (x : State) : exec .voleIdleTimeout x = x.after (x.chip.voleIdleTimeout) := rfl
theorem exec_vcoreRaiseSettled (x : State) : exec .vcoreRaiseSettled x = x.after (x.chip.vcoreSettled) := rfl
theorem exec_pllLock (x : State) : exec .pllLock x = x.after (x.chip.pllLock) := rfl
theorem exec_bootSequence (x : State) (m : SupplyMeas) : exec (.bootSequence m) x = x.after (x.chip.bootSequence m) := rfl
theorem exec_coreRelease (x : State) (c : Core) : exec (.coreRelease c) x = x.after (x.chip.coreRelease c) := rfl
theorem exec_bootSupplyRemeasure (x : State) (m : SupplyMeas) : exec (.bootSupplyRemeasure m) x = x.after (x.chip.bootRemeasure m) := rfl
theorem exec_powerOnReset (x : State) : exec .powerOnReset x = x.after (x.chip.powerOn) := rfl
theorem exec_brownoutReset (x : State) (d : Detector) : exec (.brownoutReset d) x = x.after (x.chip.detectorActs d) := rfl
theorem exec_vinWarning (x : State) : exec .vinWarning x = x.after (x.chip.vinWarning) := rfl
theorem exec_vsysWarning (x : State) : exec .vsysWarning x = x.after (x.chip.vsysWarning) := rfl
theorem exec_resetnPulse (x : State) (ns : Nat) : exec (.resetnPulse ns) x = x.after (x.chip.resetnPulse ns) := rfl
theorem exec_lfxoFirstEdge (x : State) : exec .lfxoFirstEdge x = x.after (x.chip.lfxoFirstEdge) := rfl
theorem exec_lfxoStartTimeout (x : State) : exec .lfxoStartTimeout x = x.after (x.chip.lfxoStartTimeout) := rfl
theorem exec_lfxoStop (x : State) : exec .lfxoStop x = x.after (x.chip.lfxoStop) := rfl
theorem exec_lfxoRestored (x : State) : exec .lfxoRestored x = x.after (x.chip.lfxoRestored) := rfl
theorem exec_restEntry (x : State) : exec .restEntry x = x.after (x.chip.restEntry) := rfl
theorem exec_linkWake (x : State) : exec .linkWake x = x.after (x.chip.linkWake) := rfl
theorem exec_svcWakeEdge (x : State) : exec .svcWakeEdge x = x.after (x.chip.svcWakeEdge) := rfl
theorem exec_wakeFromSleep (x : State) : exec .wakeFromSleep x = x.after (x.chip.wakeFromSleep) := rfl
theorem exec_hibernateWake (x : State) : exec .hibernateWake x = x.after (x.chip.hibernateWake) := rfl
theorem exec_wakeDeferRemeasure (x : State) (m : SupplyMeas) : exec (.wakeDeferRemeasure m) x = x.after (x.chip.wakeRemeasure m) := rfl
theorem exec_timerPrescalerWrap (x : State) (n : Nat) : exec (.timerPrescalerWrap n) x = x.after (x.chip.timerWrap n) := rfl
theorem exec_timerCaptureEdge (x : State) (n : Nat) (rise : Bool) : exec (.timerCaptureEdge n rise) x = x.after (x.chip.ofIdx n 8 (fun s => s.inputEdge (Mean.TMR_CAP n) rise (fun s => s.captureEdge n rise))) := rfl
theorem exec_secondBoundary (x : State) : exec .secondBoundary x = x.after (x.chip.secondBoundary) := rfl
theorem exec_rtcSecWriteApply (x : State) : exec .rtcSecWriteApply x = x.after (x.chip.rtcSecApply) := rfl
theorem exec_wdtEnable (x : State) (ag : Agent) : exec (.wdtEnable ag) x = x.after (x.chip.fldWrite ag F.WDT_CTL_EN 1) := rfl
theorem exec_wdtWarning (x : State) : exec .wdtWarning x = x.after (x.chip.wdtWarning) := rfl
theorem exec_wdtExpiry (x : State) : exec .wdtExpiry x = x.after (x.chip.wdtExpiry) := rfl
theorem exec_wdtDbgpauseWrite (x : State) (ag : Agent) (b : Bool) : exec (.wdtDbgpauseWrite ag b) x = x.after (x.chip.wdtDbgpause ag b) := rfl

end Sys2Proof.Machine
end

