-- ==== Sys2Proof/Laws/Fields.lean ====
section
/-!
SUPPORT. What a register or a field reads after another was written.
-/
namespace Sys2Proof.Machine

/-! ### Whole registers -/

/-- The stored words and the registers are one thing. -/
theorem Chip.get_regs (s : Chip) (a : Nat) : Cells.get regReset s.regs a = s.reg a := rfl

/-! ### Fields of one word -/

/-- Bit `i` of a mask. -/
theorem maskOf_getLsbD (hi lo i : Nat) (hlo : lo ≤ hi) (hhi : hi < 36) : (maskOf hi lo).getLsbD i = decide (lo ≤ i ∧ i ≤ hi) := by
  simp only [maskOf, BitVec.getLsbD_shiftLeft, BitVec.getLsbD_ushiftRight, BitVec.getLsbD_allOnes]
  by_cases h1 : i < lo
  · have : ¬ lo ≤ i := by omega
    simp [h1, this]
  · by_cases h2 : i ≤ hi
    · have a : i < 36 := by omega
      have b : 35 - (hi - lo) + (i - lo) < 36 := by omega
      have c : lo ≤ i := by omega
      simp [h1, h2, a, b, c]
    · have b : ¬ 35 - (hi - lo) + (i - lo) < 36 := by omega
      simp [h2, b]

theorem Fld.of_put_self (f : Fld) (w : Word) (v : Nat) (hlo : f.lo ≤ f.hi) (hhi : f.hi < 36) :
    f.of (f.put w v) = v % 2 ^ (f.hi + 1 - f.lo) := by
  apply Nat.eq_of_testBit_eq
  intro i
  have e : (f.of (f.put w v)).testBit i = ((f.put w v &&& maskOf f.hi f.lo) >>> f.lo).getLsbD i := rfl
  rw [e, Nat.testBit_mod_two_pow]
  simp only [Fld.put, BitVec.getLsbD_ushiftRight, BitVec.getLsbD_and, BitVec.getLsbD_or, BitVec.getLsbD_not,
    BitVec.getLsbD_shiftLeft, maskOf_getLsbD _ _ _ hlo hhi, BitVec.getLsbD_ofNat]
  by_cases h : i < f.hi + 1 - f.lo
  · have a : f.lo + i ≤ f.hi := by omega
    have b : f.lo + i < 36 := by omega
    have c : i < 36 := by omega
    have d : f.lo + i - f.lo = i := by omega
    simp [h, a, b, c, d]
  · have a : ¬ f.lo + i ≤ f.hi := by omega
    simp [h, a]

theorem Fld.of_put_disj (f g : Fld) (w : Word) (v : Nat) (hlo : f.lo ≤ f.hi) (hhi : f.hi < 36) (glo : g.lo ≤ g.hi) (ghi : g.hi < 36)
    (h : f.hi < g.lo ∨ g.hi < f.lo) : g.of (f.put w v) = g.of w := by
  apply Nat.eq_of_testBit_eq
  intro i
  have e (x : Word) : (g.of x).testBit i = ((x &&& maskOf g.hi g.lo) >>> g.lo).getLsbD i := rfl
  rw [e, e]
  simp only [Fld.put, BitVec.getLsbD_ushiftRight, BitVec.getLsbD_and, BitVec.getLsbD_or, BitVec.getLsbD_not,
    maskOf_getLsbD _ _ _ hlo hhi, maskOf_getLsbD _ _ _ glo ghi]
  by_cases a : g.lo + i ≤ g.hi
  · have b : ¬ (f.lo ≤ g.lo + i ∧ g.lo + i ≤ f.hi) := by omega
    have c : g.lo + i < 36 := by omega
    simp [a, b, c]
  · simp [a]

/-! ### Fields of the chip -/

theorem Chip.fld_setReg_ne (s : Chip) {a : Nat} (v : Word) {g : Fld} (h : g.addr ≠ a) : (s.setReg a v).fld g = s.fld g := by
  simp [Chip.fld, s.reg_setReg_ne v h]

theorem Chip.fld_setFld_self (s : Chip) (f : Fld) (v : Nat) (hlo : f.lo ≤ f.hi) (hhi : f.hi < 36) :
    (s.setFld f v).fld f = v % 2 ^ (f.hi + 1 - f.lo) := by
  simp [Chip.fld, Chip.setFld, Fld.of_put_self f _ v hlo hhi]

theorem Chip.fld_setFld_ne (s : Chip) (f : Fld) (v : Nat) {g : Fld} (h : g.addr ≠ f.addr) : (s.setFld f v).fld g = s.fld g :=
  s.fld_setReg_ne _ h

theorem Chip.fld_setFld_disj (s : Chip) (f : Fld) (v : Nat) {g : Fld} (h : g.addr = f.addr) (hlo : f.lo ≤ f.hi) (hhi : f.hi < 36)
    (glo : g.lo ≤ g.hi) (ghi : g.hi < 36) (d : f.hi < g.lo ∨ g.hi < f.lo) : (s.setFld f v).fld g = s.fld g := by
  simp [Chip.fld, Chip.setFld, h, Fld.of_put_disj f g _ v hlo hhi glo ghi d]

theorem Chip.bit_setBit_self (s : Chip) (f : Fld) (b : Bool) (h : f.lo = f.hi) (hhi : f.hi < 36) : (s.setBit f b).bit f = b := by
  have e : f.hi + 1 - f.lo = 1 := by omega
  cases b <;> simp [Chip.bit, Chip.setBit, s.fld_setFld_self f _ (by omega) hhi, e]

end Sys2Proof.Machine
end

