-- ==== Sys2Proof/Tests/Slice0.lean ====
section
/-!
SUPPORT. The author's own tests: terms that WellFormed refuses, words of the J36 instructions written from the tables of
spec/16, single steps against the spec's worked examples, and for every statement with hypotheses states and operands
that meet them, clause by clause.
-/

open Sys2Proof Sys2Proof.Machine

set_option linter.unusedVariables false
set_option Elab.async false

/-! ### Helpers: states built small, and the answers they give -/

/-- An answer that is a value. -/
def wOk {α : Type} : Acc α → Bool
  | .ok _ _ => true
  | .trap _ _ => false
  | .wait => false
/-- The value of an answer that is one. -/
def wVal {α : Type} : (x : Acc α) → wOk x = true → α
  | .ok v _ => fun _ => v
  | .trap _ _ => fun h => Bool.noConfusion h
  | .wait => fun h => Bool.noConfusion h
/-- The chip of an answer. -/
def wChip {α : Type} : Acc α → Chip
  | .ok _ s => s
  | .trap _ s => s
  | .wait => {}
theorem wAcc {α : Type} (x : Acc α) (h : wOk x = true) : x = .ok (wVal x h) (wChip x) := by
  match x with
  | .ok v s => rfl
  | .trap t s => exact Bool.noConfusion h
  | .wait => exact Bool.noConfusion h
theorem wSome {α : Type} (x : Option α) (h : x.isSome = true) : x = some (x.get h) := by simp
theorem wCons {α : Type} (l : List α) (h : l.isEmpty = false) : l = l.head (by simpa using h) :: l.tail := by simp
theorem wNone {α β : Type} (x : Option α × β) (h : x.1.isNone = true) : x = (none, x.2) := by
  obtain ⟨a, b⟩ := x; simp at h; simp [h]
theorem wPairSome {α β : Type} (x : Option α × β) (h : x.1.isSome = true) : x = (some (x.1.get h), x.2) := by simp
/-- A chip in RUN with Fox A running at 0x010_000. -/
def run1 (s : Chip) : Chip :=
  let s := { s with pwr := { s.pwr with bootPending := false }, pins := { s.pins with phase := .run }, clk := { s.clk with lfOn := true, lfxoOk := true } }
  (s.wr 0x10000 0).setCore .foxA { pc := 0x10000, run := .run }
/-- A live cell with every field at rest. -/
def live0 : Live := { c := { cls := 0, asn := 0, b := 0, index := 0, w0 := 0, w1 := 0, tx := false, ch := 0 }, freq := 0, m := 0, mset := 0 }
/-- The live cell changed by `f`, made where there is none. -/
def withLive (s : Chip) (f : Live → Live) : Chip := { s with lnk := { s.lnk with live := some (f (s.lnk.live.getD live0)) } }
/-- The receive window of a live cell changed by `f`, made where there is none. -/
def withWin (l : Live) (f : RxWin → RxWin) : Live := { l with win := some (f (l.win.getD { openAt := 0, closeAt := 0 })) }
/-- A chip that has joined mesh 1 as node 7 with the all-zero keys, and knows itself as a neighbour. -/
def meshBase (s : Chip) : Chip :=
  let z := some (List.replicate 16 0)
  let s := (((s.setShadow 1 z).setShadow 4 z).setShadow 5 z).setShadow 6 z
  let s := [1, 4, 5, 6].foldl (fun c n => c.setReg (R.KST_ATTR n) (W 0xFFF)) s
  let s := (s.setFld F.LNK_MESHID_MESHID 1).setFld F.LNK_SADDR_SADDR 7
  { s with mesh := { s.mesh with member := true, joined := true, cred := 1, fcnt := [5, 5, 5], marks := [4000, 4000, 4000], addrs := [(7, 0)], peers := [{ addr := 7, eui := 0, vmin := 1, vmax := 3, rank := 256, hops := 0, q := 200, beacons := true, beaconAt := 0 }] } }
/-- A router under node 7. -/
def routerBase (s : Chip) : Chip := let s := meshBase s; { s with mesh := { s.mesh with role := 1, parents := [7] } }
/-- A root with the all-zero keys. -/
def rootBase (s : Chip) : Chip := let s := meshBase s; { s with mesh := { s.mesh with role := 2 } }
/-- A chip whose host port is selected, active and granted. -/
def hostBase (s : Chip) : Chip :=
  let s := { s with pins := { s.pins with phase := .run, cur := s.pins.cur.set 4 Mean.HCS, pad := 16, driven := 16 } }
  let s := { s with bear := { s.bear with grants := [{ who := 10, power := 1, dur := 0, cont := true, start := 0, cls := 0, arrival := 0, marked := false }] } }
  (s.setBit F.HP_CTL_EN true).setBit F.HP_STAT_ACTIVE true
/-- An answer that is no error. -/
def wExcOk {ε α : Type} : Except ε α → Bool
  | .ok _ => true
  | .error _ => false
/-- The value of an answer that is no error. -/
def wExcVal {ε α : Type} : (x : Except ε α) → wExcOk x = true → α
  | .ok v => fun _ => v
  | .error _ => fun h => Bool.noConfusion h
theorem wExc {ε α : Type} (x : Except ε α) (h : wExcOk x = true) : x = .ok (wExcVal x h) := by
  match x with
  | .ok v => rfl
  | .error e => exact Bool.noConfusion h
theorem wMk {α β : Type} (x : α × β) : x = (x.1, x.2) := rfl
theorem wPair {α β : Type} (x : α × β) (a : α) (h : x.1 = a) : x = (a, x.2) := by
  obtain ⟨b, c⟩ := x; simpa using h
theorem wTrip {α β γ : Type} (x : α × β × γ) (a : α) (b : β) (h : x.1 = a) (h' : x.2.1 = b) : x = (a, b, x.2.2) := by
  obtain ⟨c, d, e⟩ := x; simp_all
theorem wHead {α : Type} (l : List α) (a : α) (h : l.head? = some a) : l = a :: l.tail := by
  cases l <;> simp_all
/-- A chip in RUN whose radio is on, with profile 0 in mode 2, slotframe 0 of class 0 and one slot, and the engine running. -/
def linkBase (s : Chip) : Chip :=
  let s := (((run1 s).setBit F.SYN_CTL_EN true).setBit F.RFE_CTL_EN true).setBit F.MDM_CTL_EN true
  let s := (s.setReg (R.RFE_PROF_M 0) (W (1 <<< 35 ||| 2 <<< 21))).setReg (R.LNK_SF 0) (W (1 <<< 15))
  let s := ((s.setFld (F.LNK_CLS_T0_TXOFF 0) 2000).setFld (F.LNK_CLS_T1_LOCKLEAD 0) 100).setFld (F.LNK_CLS_T0_LEN 0) 10
  { s with lnk := { s.lnk with running := true }, pwr := { s.pwr with st := .run } }
/-- The error of an answer. -/
def wErrOf {ε α : Type} : Except ε α → Option ε
  | .ok _ => none
  | .error e => some e
theorem wErr {ε α : Type} (x : Except ε α) (e : ε) (h : wErrOf x = some e) : x = .error e := by
  match x with
  | .ok v => simp [wErrOf] at h
  | .error e' => simp [wErrOf] at h; simp [h]
/-- A key of 16 zero octets. -/
def zeroKey : List Nat := List.replicate 16 0
/-- The zero key wrapped under itself. -/
def zeroWrapped : List Byte := [191, 59, 119, 181, 233, 12, 170, 159, 80, 9, 254, 150, 38, 228, 239, 226, 13, 237, 117, 238, 59, 26, 192, 213]
theorem wUnwrap : Aes.unwrap zeroKey (toNats zeroWrapped) = some zeroKey := by decide +kernel
theorem wUnwrapOf (k : List Nat) (l : List Nat) (h : k = zeroKey) (h' : l = toNats zeroWrapped) : Aes.unwrap k l = some zeroKey := by
  rw [h, h', wUnwrap]
theorem wNo {α : Type} (o : Option α) {P : α → Prop} (h : o.isNone = true) : ∀ m, o = some m → P m := by
  intro m hm; subst hm; simp at h
theorem wRange {p : Nat → Prop} [DecidablePred p] (h : (List.range 16).all (fun q => decide (q < 8) || decide (p q)) = true) : ∀ q, 8 ≤ q → q < 16 → p q := by
  intro q h8 h16
  have := List.all_eq_true.mp h q (List.mem_range.mpr h16)
  simpa [Nat.not_lt.mpr h8] using this
theorem wCmd (o : Option (Nat × Agent)) (n : Nat) (ag : Agent) (h : o.all (fun p => decide (p.1 ≠ n) || decide (p.2 = ag)) = true) :
    ∀ b : Agent, o = some (n, b) → b = ag := by
  intro b hb; subst hb; simpa using h
/-- An ADVERT of node 7 on its way up. -/
def frADV : List Byte := [236, 0, 1, 0, 0, 5, 0, 7, 0, 64, 5, 0, 0, 0, 64, 1, 0, 0, 7, 0, 209, 245, 51, 68, 43, 109, 29, 114, 149, 239, 251]
/-- An UP frame of node 7. -/
def frUP1 : List Byte := [232, 0, 1, 0, 0, 5, 0, 7, 0, 64, 5, 0, 0, 0, 64, 1, 0, 0, 7, 0, 209, 126, 100, 182, 236, 202, 56, 162, 115]
/-- An UP frame of node 7. -/
def frUPA : List Byte := [108, 0, 1, 0, 0, 5, 0, 7, 0, 0, 5, 0, 0, 0, 64, 1, 0, 0, 7, 0, 183, 155, 184, 36, 63, 50]
/-- An UP frame of node 7. -/
def frUP2 : List Byte := [232, 0, 1, 0, 0, 5, 0, 7, 0, 64, 5, 0, 0, 0, 64, 2, 0, 0, 7, 0, 209, 188, 39, 171, 149, 250, 42, 50, 48]
/-- A DOWN frame of node 7. -/
def frDNM : List Byte := [232, 0, 1, 0, 0, 5, 0, 7, 0, 64, 5, 0, 0, 0, 128, 2, 7, 0, 0, 0, 209, 161, 68, 215, 124, 5, 43, 191, 185]
/-- A DOWN frame of node 7. -/
def frDN1 : List Byte := [232, 0, 1, 0, 0, 5, 0, 7, 0, 64, 5, 0, 0, 0, 128, 1, 9, 0, 0, 0, 209, 55, 60, 234, 194, 246, 181, 76, 224]
/-- A DOWN frame of node 7. -/
def frDN2 : List Byte := [232, 0, 1, 0, 0, 5, 0, 7, 0, 64, 5, 0, 0, 0, 128, 2, 9, 0, 0, 0, 209, 199, 216, 86, 70, 42, 84, 161, 222]
/-- A DOWN frame of node 7. -/
def frDNS : List Byte := [232, 0, 1, 0, 0, 5, 0, 7, 0, 64, 5, 0, 0, 0, 129, 2, 8, 0, 0, 0, 7, 0, 209, 120, 230, 143, 89, 58, 138, 220, 233]
/-- A DOWN frame of node 7. -/
def frDNU : List Byte := [232, 0, 1, 0, 0, 5, 0, 7, 0, 64, 5, 0, 0, 0, 129, 2, 8, 0, 0, 0, 9, 0, 209, 207, 52, 94, 33, 221, 115, 196, 64]
/-- A DOWN frame of node 7. -/
def frDNR : List Byte := [232, 0, 1, 0, 0, 5, 0, 7, 0, 64, 5, 0, 0, 0, 145, 2, 9, 0, 0, 0, 5, 64, 1, 80, 0, 20, 0, 5, 64, 1, 80, 0, 20, 0, 5, 64, 1, 80, 0, 20, 0, 5, 64, 1, 80, 0, 20, 0, 5, 0, 209, 228, 164, 230, 178, 105, 17, 188, 131]
/-- A FLOOD frame of node 7. -/
def frFL1 : List Byte := [205, 0, 1, 0, 0, 255, 255, 7, 0, 64, 5, 0, 0, 0, 192, 1, 255, 255, 7, 0, 1, 209, 243, 22, 76, 11, 138, 171, 140, 200]
/-- A FLOOD frame of node 7. -/
def frFL2 : List Byte := [205, 0, 1, 0, 0, 255, 255, 7, 0, 64, 5, 0, 0, 0, 192, 2, 255, 255, 7, 0, 1, 209, 137, 191, 30, 127, 156, 238, 180, 43]
/-- The node's own UP frame. -/
def frOUP : List Byte := [232, 0, 1, 0, 0, 7, 0, 7, 0, 64, 5, 0, 0, 0, 64, 2, 0, 0, 7, 0, 209, 166, 248, 18, 162, 33, 171, 121, 13]
/-- The node's own DOWN frame. -/
def frODN : List Byte := [232, 0, 1, 0, 0, 7, 0, 7, 0, 64, 5, 0, 0, 0, 128, 2, 9, 0, 0, 0, 209, 169, 241, 148, 252, 187, 60, 150, 238]
/-- A HELLO of node 7. -/
def frHEL : List Byte := [238, 0, 1, 0, 0, 5, 0, 7, 0, 64, 5, 0, 0, 0, 0, 209, 247, 50, 129, 91, 215, 78, 126, 31, 147, 74, 114, 208, 14, 98, 35, 115, 64, 82, 97, 133]
/-- A HELLO of node 7. -/
def frHE9 : List Byte := [238, 0, 1, 0, 0, 5, 0, 7, 0, 64, 5, 0, 0, 0, 0, 217, 253, 50, 129, 91, 215, 78, 126, 31, 147, 74, 114, 208, 116, 144, 252, 239, 173, 117, 200, 168]
/-- A HELLO of node 7. -/
def frHES : List Byte := [238, 0, 1, 0, 0, 5, 0, 7, 0, 64, 5, 0, 0, 0, 0, 209, 166, 175, 44, 220, 140, 113, 140, 182]
/-- A join REQUEST. -/
def frREQ : List Byte := [235, 0, 1, 0, 0, 5, 0, 254, 255, 80, 5, 0, 0, 0, 0, 0, 0, 0, 0, 0, 0, 0, 0, 1, 209, 247, 50, 126, 164, 208, 78, 126, 31, 224, 176, 250, 203, 93, 178, 129, 76]
/-- A BEACON of node 7. -/
def frBC02 : List Byte := [202, 0, 1, 0, 0, 255, 255, 7, 0, 0, 5, 0, 0, 0, 1, 3, 0, 1, 0, 1, 0, 0, 0, 0, 0, 0, 0, 0, 0, 0, 0, 0, 0, 0, 232, 3, 2, 0, 0, 100, 0, 0, 200, 0, 0, 104, 109, 224, 62]
/-- A BEACON of node 7. -/
def frBC03 : List Byte := [202, 0, 1, 0, 0, 255, 255, 7, 0, 0, 5, 0, 0, 0, 1, 3, 0, 1, 0, 1, 0, 0, 0, 0, 0, 0, 0, 0, 0, 0, 0, 0, 0, 0, 232, 3, 3, 0, 0, 100, 0, 0, 200, 0, 0, 41, 27, 24, 110]
/-- A BEACON of node 7. -/
def frBC62 : List Byte := [202, 0, 1, 0, 0, 255, 255, 7, 0, 0, 5, 0, 0, 0, 1, 3, 6, 1, 0, 1, 0, 0, 0, 0, 0, 0, 0, 0, 0, 0, 0, 0, 0, 0, 232, 3, 2, 0, 0, 100, 0, 0, 200, 0, 0, 147, 191, 190, 245]
/-- A BEACON of node 7. -/
def frBC63 : List Byte := [202, 0, 1, 0, 0, 255, 255, 7, 0, 0, 5, 0, 0, 0, 1, 3, 6, 1, 0, 1, 0, 0, 0, 0, 0, 0, 0, 0, 0, 0, 0, 0, 0, 0, 232, 3, 3, 0, 0, 100, 0, 0, 200, 0, 0, 88, 64, 227, 33]
/-- A join DELIVER. -/
def frDLN : List Byte := [195, 0, 1, 0, 0, 255, 255, 7, 0, 0, 4, 0, 0, 0, 0, 0, 0, 0, 0, 0, 0, 0, 0, 0, 0, 0, 0, 5, 0, 0, 0, 208, 241, 50, 129, 228, 236, 57, 203, 246, 159, 224, 237, 128, 4, 234, 13, 217, 218, 163, 75, 99, 94, 36, 252, 77, 76, 24, 213, 114, 110, 158, 228, 126, 232, 79, 202, 239, 136, 230, 93, 121, 169, 55, 97]
/-- A join DELIVER. -/
def frDLC : List Byte := [195, 0, 1, 0, 0, 255, 255, 7, 0, 0, 4, 0, 0, 0, 0, 0, 0, 0, 0, 0, 0, 0, 0, 0, 0, 0, 0, 5, 0, 0, 0, 240, 241, 50, 129, 228, 236, 57, 203, 246, 159, 224, 237, 128, 4, 234, 13, 217, 218, 163, 75, 99, 94, 36, 252, 77, 76, 24, 213, 114, 110, 158, 228, 127, 232, 79, 202, 183, 239, 102, 64, 61, 37, 241, 70]
/-- A join DELIVER. -/
def frDLO : List Byte := [195, 0, 1, 0, 0, 255, 255, 7, 0, 0, 4, 0, 0, 0, 0, 0, 0, 0, 0, 0, 0, 0, 0, 0, 0, 0, 0, 5, 0, 0, 0, 208, 241, 50, 129, 228, 236, 57, 203, 246, 159, 224, 237, 128, 4, 234, 13, 217, 218, 163, 75, 99, 94, 36, 252, 77, 76, 24, 213, 114, 110, 158, 228, 127, 232, 79, 202, 155, 55, 105, 200, 253, 69, 98, 228]
/-- A join DELIVER. -/
def frDLX : List Byte := [195, 0, 1, 0, 0, 255, 255, 7, 0, 0, 4, 0, 0, 0, 0, 0, 0, 0, 0, 0, 0, 0, 0, 0, 0, 0, 0, 0, 0, 0, 0, 0, 0, 0, 0, 0, 0, 0, 0, 0, 0, 0, 0, 0, 0, 0, 0, 0, 0, 0, 0, 0, 0, 0, 0, 0, 0, 0, 0, 0, 0, 0, 0, 0, 0, 0, 0, 0, 0, 0, 0, 0, 0, 0, 0]
/-- An answer that is the zero key. -/
def keyIs : Except Nat (List Nat) → Bool
  | .ok k => k == zeroKey
  | .error _ => false
theorem wKey (x : Except Nat (List Nat)) (h : keyIs x = true) : x = .ok zeroKey := by
  match x with
  | .ok k => simp [keyIs] at h; rw [h]
  | .error _ => simp [keyIs] at h
/-- What `meshAccept` asks of a frame under the zero key, but for its check. -/
def admits (s : Chip) (m : MIn) (euis : List Nat) : Bool :=
  let r := if m.ty = 2 || m.ty = 3 || m.ty = 6 then s.meshOffer else s.commonRange m.src
  decide (¬(m.ver < r.1 ∨ r.2 < m.ver)) && m.sec && keyIs (s.meshKey (if m.jkey then 2 else m.epoch) true) && decide (euis.head? = some 0)
theorem wAccept (s : Chip) (f : List Byte) (m : MIn) (euis : List Nat) (b : List Byte) (h : admits s m euis = true)
    (h' : meshOpen zeroKey (m.ty = 2) m.micl 0 m.fcnt (f.take m.hdr) m.body m.mic = some b)
    (h6 : (s.replayCheck 0 (if m.jkey then 2 else m.epoch) m.fcnt).isSome = true) :
    s.meshAccept f m euis = .ok (0, b, (s.replayCheck 0 (if m.jkey then 2 else m.epoch) m.fcnt).get h6) := by
  simp only [admits, Bool.and_eq_true, decide_eq_true_eq] at h
  obtain ⟨⟨⟨h1, h2⟩, h3⟩, h4⟩ := h
  obtain ⟨e, l, rfl⟩ : ∃ e l, euis = e :: l := by cases euis with
    | nil => simp at h4
    | cons e l => exact ⟨e, l, rfl⟩
  simp only [List.head?_cons, Option.some.injEq] at h4
  subst h4
  unfold Chip.meshAccept
  simp only [Bool.or_eq_true, decide_eq_true_eq] at h1 ⊢
  rw [if_neg h1, h2, wKey _ h3]
  simp only [List.findSome?_cons, h', Option.map_some]
  revert h6
  generalize s.replayCheck 0 (if m.jkey then 2 else m.epoch) m.fcnt = o
  intro h6
  cases o with
  | none => simp at h6
  | some s1 => simp
theorem wOwn (s : Chip) (f : List Byte) (m : MIn) (b : List Byte) (h : (m.sec && keyIs (s.meshKey (if m.jkey then 2 else m.epoch) true) && decide (s.ownEui = 0)) = true)
    (h' : meshOpen zeroKey false m.micl 0 m.fcnt (f.take m.hdr) m.body m.mic = some b) : s.ownBody f m = some b := by
  simp only [Bool.and_eq_true, decide_eq_true_eq] at h
  obtain ⟨⟨h1, h2⟩, h3⟩ := h
  simp [Chip.ownBody, h1, wKey _ h2, h3, h']
theorem pUP1 : (meshParse frUP1).isSome = true := by decide +kernel
/-- The parts of the frame. -/
def mUP1 : MIn := (meshParse frUP1).get pUP1
theorem oUP1 : meshOpen zeroKey (mUP1.ty = 2) mUP1.micl 0 mUP1.fcnt (frUP1.take mUP1.hdr) mUP1.body mUP1.mic = some [1] := by decide +kernel
theorem pUPA : (meshParse frUPA).isSome = true := by decide +kernel
/-- The parts of the frame. -/
def mUPA : MIn := (meshParse frUPA).get pUPA
theorem oUPA : meshOpen zeroKey (mUPA.ty = 2) mUPA.micl 0 mUPA.fcnt (frUPA.take mUPA.hdr) mUPA.body mUPA.mic = some [1, 0] := by decide +kernel
theorem pUP2 : (meshParse frUP2).isSome = true := by decide +kernel
/-- The parts of the frame. -/
def mUP2 : MIn := (meshParse frUP2).get pUP2
theorem oUP2 : meshOpen zeroKey (mUP2.ty = 2) mUP2.micl 0 mUP2.fcnt (frUP2.take mUP2.hdr) mUP2.body mUP2.mic = some [1] := by decide +kernel
theorem pDNM : (meshParse frDNM).isSome = true := by decide +kernel
/-- The parts of the frame. -/
def mDNM : MIn := (meshParse frDNM).get pDNM
theorem oDNM : meshOpen zeroKey (mDNM.ty = 2) mDNM.micl 0 mDNM.fcnt (frDNM.take mDNM.hdr) mDNM.body mDNM.mic = some [1] := by decide +kernel
theorem pDN1 : (meshParse frDN1).isSome = true := by decide +kernel
/-- The parts of the frame. -/
def mDN1 : MIn := (meshParse frDN1).get pDN1
theorem oDN1 : meshOpen zeroKey (mDN1.ty = 2) mDN1.micl 0 mDN1.fcnt (frDN1.take mDN1.hdr) mDN1.body mDN1.mic = some [1] := by decide +kernel
theorem pDN2 : (meshParse frDN2).isSome = true := by decide +kernel
/-- The parts of the frame. -/
def mDN2 : MIn := (meshParse frDN2).get pDN2
theorem oDN2 : meshOpen zeroKey (mDN2.ty = 2) mDN2.micl 0 mDN2.fcnt (frDN2.take mDN2.hdr) mDN2.body mDN2.mic = some [1] := by decide +kernel
theorem pDNS : (meshParse frDNS).isSome = true := by decide +kernel
/-- The parts of the frame. -/
def mDNS : MIn := (meshParse frDNS).get pDNS
theorem oDNS : meshOpen zeroKey (mDNS.ty = 2) mDNS.micl 0 mDNS.fcnt (frDNS.take mDNS.hdr) mDNS.body mDNS.mic = some [1] := by decide +kernel
theorem pDNU : (meshParse frDNU).isSome = true := by decide +kernel
/-- The parts of the frame. -/
def mDNU : MIn := (meshParse frDNU).get pDNU
theorem oDNU : meshOpen zeroKey (mDNU.ty = 2) mDNU.micl 0 mDNU.fcnt (frDNU.take mDNU.hdr) mDNU.body mDNU.mic = some [1] := by decide +kernel
theorem pDNR : (meshParse frDNR).isSome = true := by decide +kernel
/-- The parts of the frame. -/
def mDNR : MIn := (meshParse frDNR).get pDNR
theorem oDNR : meshOpen zeroKey (mDNR.ty = 2) mDNR.micl 0 mDNR.fcnt (frDNR.take mDNR.hdr) mDNR.body mDNR.mic = some [1] := by decide +kernel
theorem pFL1 : (meshParse frFL1).isSome = true := by decide +kernel
/-- The parts of the frame. -/
def mFL1 : MIn := (meshParse frFL1).get pFL1
theorem oFL1 : meshOpen zeroKey (mFL1.ty = 2) mFL1.micl 0 mFL1.fcnt (frFL1.take mFL1.hdr) mFL1.body mFL1.mic = some [1] := by decide +kernel
theorem pFL2 : (meshParse frFL2).isSome = true := by decide +kernel
/-- The parts of the frame. -/
def mFL2 : MIn := (meshParse frFL2).get pFL2
theorem oFL2 : meshOpen zeroKey (mFL2.ty = 2) mFL2.micl 0 mFL2.fcnt (frFL2.take mFL2.hdr) mFL2.body mFL2.mic = some [1] := by decide +kernel
theorem pOUP : (meshParse frOUP).isSome = true := by decide +kernel
/-- The parts of the frame. -/
def mOUP : MIn := (meshParse frOUP).get pOUP
theorem oOUP : meshOpen zeroKey false mOUP.micl 0 mOUP.fcnt (frOUP.take mOUP.hdr) mOUP.body mOUP.mic = some [1] := by decide +kernel
theorem pODN : (meshParse frODN).isSome = true := by decide +kernel
/-- The parts of the frame. -/
def mODN : MIn := (meshParse frODN).get pODN
theorem oODN : meshOpen zeroKey false mODN.micl 0 mODN.fcnt (frODN.take mODN.hdr) mODN.body mODN.mic = some [1] := by decide +kernel
theorem pHEL : (meshParse frHEL).isSome = true := by decide +kernel
/-- The parts of the frame. -/
def mHEL : MIn := (meshParse frHEL).get pHEL
theorem oHEL : meshOpen zeroKey (mHEL.ty = 2) mHEL.micl 0 mHEL.fcnt (frHEL.take mHEL.hdr) mHEL.body mHEL.mic = some [1, 3, 0, 0, 0, 0, 0, 0, 0, 0, 0, 0, 0] := by decide +kernel
theorem pHE9 : (meshParse frHE9).isSome = true := by decide +kernel
/-- The parts of the frame. -/
def mHE9 : MIn := (meshParse frHE9).get pHE9
theorem oHE9 : meshOpen zeroKey (mHE9.ty = 2) mHE9.micl 0 mHE9.fcnt (frHE9.take mHE9.hdr) mHE9.body mHE9.mic = some [9, 9, 0, 0, 0, 0, 0, 0, 0, 0, 0, 0, 0] := by decide +kernel
theorem pHES : (meshParse frHES).isSome = true := by decide +kernel
/-- The parts of the frame. -/
def mHES : MIn := (meshParse frHES).get pHES
theorem oHES : meshOpen zeroKey (mHES.ty = 2) mHES.micl 0 mHES.fcnt (frHES.take mHES.hdr) mHES.body mHES.mic = some [1] := by decide +kernel

/-! ### Commands that the interfaces cannot pose are refused by WellFormed, their nearest neighbours accepted -/

theorem test_wf_queues :
    [Instr.hwQueueProduce 32 [], .hwQueueProduce 0 [1, 2, 3, 4, 5, 6, 7, 8, 9], .hwQueueConsume 32 0, .queTailWrite .foxA 32 0, .queHeadWrite .foxA 32 0, .queueOn .foxA 32 0, .queueOff .foxA 32 0, .queQstatRead .foxA 32, .bookTxEntry 7, .bookTxEntry 16].all (fun i => !i.wf) = true
    ∧ [Instr.hwQueueProduce 31 [1, 2, 3, 4, 5, 6, 7, 8], .queQstatRead .foxA 0, .bookTxEntry 8, .bookTxEntry 15].all Instr.wf = true := by decide +kernel

theorem test_wf_pinsAndPower :
    [Instr.wakePinEdge 24 true, .pinMapWrite .foxA 24 0, .registerWrite .foxA 0x2FFFFF 0, .registerWrite .foxA 0x400400 0].all (fun i => !i.wf) = true
    ∧ [Instr.wakePinEdge 23 true, .registerWrite .foxA 0x300000 0, .registerWrite .foxA 0x4003FF 0].all Instr.wf = true := by decide +kernel

theorem test_wf_bear :
    [Instr.bearClaim 16 0 0 false none none, .earliestStartReached 16, .claimRelease 16, .burstGrantEnd 16, .preemptedStop 16, .claimDeadlinePassed 16, .reservationExpiry 64, .egyDeclWrite .foxA 16 0, .swClaim .foxA 12 0, .swClaim .foxA 16 0, .swClaimRelease .foxA 12, .swClaimRelease .foxA 16, .ringMeasure [0, 0, 0]].all (fun i => !i.wf) = true
    ∧ [Instr.bearClaim 15 0 0 false none none, .reservationExpiry 63, .swClaim .foxA 13 0, .swClaim .foxA 15 0, .ringMeasure [0, 0, 0, 0]].all Instr.wf = true := by decide +kernel

theorem test_wf_radio :
    [Instr.rfeProfFWrite .badger 8 0, .rfeProfMWrite .badger 8 0, .mdmLsWrite .badger 8 0, .mdmCmWrite .badger 8 0, .mdmFkWrite .badger 8 0, .mdmCountRead .badger 0, .mdmCountRead .badger 4].all (fun i => !i.wf) = true
    ∧ [Instr.mdmCountRead .badger 1, .mdmCountRead .badger 3, .rfeProfFWrite .badger 7 0].all Instr.wf = true := by decide +kernel

theorem test_wf_link :
    [Instr.slotBoundary 4, .cellChoice 4, .cellPrepStart 4, .bookRxCell 1024, .lnkSfWrite .badger 8 0, .lnkCellWrite .badger 1024 0 0, .lnkCellWrite .badger 0 2 0, .lnkChWrite .badger 64 0, .lnkClsStartWrite .badger 4 0, .lnkAsnloRead .badger 4, .lnkNbrWrite .badger 64 0].all (fun i => !i.wf) = true
    ∧ [Instr.slotBoundary 3, .bookRxCell 1023, .lnkCellWrite .badger 1023 1 0, .lnkNbrWrite .badger 63 0].all Instr.wf = true := by decide +kernel

theorem test_wf_mesh :
    [Instr.parentBeaconTimeout 65536, .childTimeout 65536, .routeEntryExpiry 16384, .rootSendDown 65536 0 none [], .rootSendDown 65535 0 none [], .rootSendDown 1 3 (some 1) [], .rootSendDown 1 4 none [], .keyNext ⟨0, false⟩ 0 2 [], .keySwitch ⟨⟨0, false⟩, 0⟩ 2 0].all (fun i => !i.wf) = true
    ∧ [Instr.parentBeaconTimeout 65535, .routeEntryExpiry 16383, .rootSendDown 65534 0 none [], .rootSendDown 65535 5 none [], .rootSendDown 1 3 (some 3) [], .keyNext ⟨0, false⟩ 0 1 []].all Instr.wf = true := by decide +kernel

theorem test_wf_cipherAndNfc :
    [Instr.cipherOpDone 4 true, .cphGo .foxA 4, .cphAbort .foxA 4, .cipherPageForeign .foxA 4 0, .cipherPageForeign .foxA 0 16, .kstAttrWrite .foxA 16 0, .readerAnswer (List.replicate 512 0) true none false, .pingResult 0 3600, .tagAnticollision 0 0 0, .tagAnticollision 4 0 0, .tagAnticollision 1 33 0, .tagSelect 0 [], .tagSelect 4 [], .selectByFile ⟨0, 0xA4, 65536⟩, .selectByFile ⟨256, 0xA4, 0⟩, .selectByFile ⟨0, 256, 0⟩, .selectByFile ⟨0, 0xB0, 0⟩, .selectByFile ⟨0x80, 0xD0, 0⟩, .readBinary 65536 0, .readBinary 0 257, .updateBinary 65536 [], .updateBinary 0 (List.replicate 256 0), .mailboxWrite 65536 [] []].all (fun i => !i.wf) = true
    ∧ [Instr.selectByFile ⟨0x80, 0xB0, 0xE104⟩, .mailboxWrite 65535 [] [], .cphGo .foxA 3, .kstAttrWrite .foxA 15 0, .tagAnticollision 3 32 0, .readBinary 65535 256, .pingResult 0 3599].all Instr.wf = true := by decide +kernel

theorem test_wf_timersAndEvents :
    [Instr.timerPrescalerWrap 8, .timerCaptureEdge 8 true, .tmrEnable .foxA 8, .tmrCmpWrite .foxA 8 0 0, .tmrCmpWrite .foxA 0 2 0, .tmrCaprRead .foxA 8, .tmrCapfRead .foxA 8, .levelRequestFall 0, .levelRequestFall 96, .coalExpiry 4 1, .coalExpiry 0 0, .coalExpiry 0 96, .icuClaimRead .foxA 4, .icuDoneWrite .foxA 4 0, .icuSrcWrite .foxA 0 0, .icuSrcWrite .foxA 96 0, .taskFire 32, .evtInEdge 8 true, .evrChWrite .foxA 40 0, .evrTsubWrite .foxA 32 0, .evrTstatRead .foxA 32].all (fun i => !i.wf) = true
    ∧ [Instr.tmrCmpWrite .foxA 7 1 0, .levelRequestFall 1, .levelRequestFall 95, .coalExpiry 3 95, .taskFire 31, .evrChWrite .foxA 39 0].all Instr.wf = true := by decide +kernel

theorem test_wf_flashAndPorts :
    [Instr.flcProgram .foxA 0x1000000, .flcErase .foxA 0x1000000, .sqopen .foxA 64, .sqcommit .foxA 64, .sqabandon .foxA 64, .protprog .foxA 0x1000000, .hostRead 0 0 0, .hostReadf 257 0 0, .hostWrite 1 0x1000000 [], .hostWritef 0 0 [], .hostOffer 256 0 0, .hostOffer 0 256 0, .hostOffer 0 0 256, .hostV1Read 0x1000000 0, .hostV1Write 0x1000000 [], .svcOpen {} 256 0, .svcOpen {} 0 256, .svcRead {} 0 0, .svcWrite false 0 [] none, .svcHalt {} 8, .svcRun {} 8, .svcStep {} 4, .svcRegrd {} 4 0, .svcRegrd {} 0 32, .svcRegwr false 4 0 0 none, .svcRegwr false 0 32 0 none, .svcReset {} 0x1000000, .svcStatus {} 9, .svcStatus {} 16].all (fun i => !i.wf) = true
    ∧ [Instr.flcProgram .foxA 0xFFFFFF, .sqopen .foxA 63, .hostRead 256 0xFFFFFF 0, .hostRead 1 0 0, .svcHalt {} 7, .svcStep {} 3, .svcStatus {} 10, .svcStatus {} 15].all Instr.wf = true := by decide +kernel

/-! ### Words of the J36 instructions, written from the tables of spec/16: OP, MODE, IXS, OPD -/

/-- R475, R476. -/
theorem test_decode_loads :
    decodeJ36 .badger 0b000000010000000000000000000000000101#36 = some (.lda .badger ⟨0, false, 5⟩)
    ∧ decodeJ36 .badger 0b000000100010000000010000000000000000#36 = some (.sta .badger ⟨1, false, 65536⟩)
    ∧ decodeJ36 .badger 0b000000110101111111111111111111111111#36 = some (.ldx .badger ⟨2, true, 16777215⟩)
    ∧ decodeJ36 .badger 0b000001000110000000000000000000000001#36 = some (.ldy .badger ⟨3, false, 1⟩)
    ∧ decodeJ36 .badger 0b000001011000000000000000000000000111#36 = some (.stx .badger ⟨4, false, 7⟩)
    ∧ decodeJ36 .badger 0b000001101010000000000000000000000011#36 = some (.sty .badger ⟨5, false, 3⟩)
    ∧ decodeJ36 .badger 0b000001110010000000000000000000001001#36 = some (.leax .badger ⟨1, false, 9⟩)
    ∧ decodeJ36 .badger 0b000010001000000000000000000000000010#36 = some (.leay .badger ⟨4, false, 2⟩)
    ∧ decodeJ36 .badger 0b000010010000000000000000000000000000#36 = some (.push .badger ⟨0, false, 0⟩)
    ∧ decodeJ36 .badger 0b000010101010000000000000000000000001#36 = some (.pop .badger ⟨5, false, 1⟩)
    ∧ decodeJ36 .badger 0b000010110000000000000000000000000110#36 = some (.movr .badger ⟨0, false, 6⟩) := by decide +kernel

/-- R477, R478. -/
theorem test_decode_binary :
    decodeJ36 .badger 0b000100000000111111111111111111111111#36 = some (.add .badger ⟨0, false, 16777215⟩)
    ∧ decodeJ36 .badger 0b000100010010000000000000000000000001#36 = some (.adc .badger ⟨1, false, 1⟩)
    ∧ decodeJ36 .badger 0b000100100100000000000000000000000010#36 = some (.sub .badger ⟨2, false, 2⟩)
    ∧ decodeJ36 .badger 0b000100110111000000000000000000000011#36 = some (.sbc .badger ⟨3, true, 3⟩)
    ∧ decodeJ36 .badger 0b000101001000000000000000000000000100#36 = some (.cmp .badger ⟨4, false, 4⟩)
    ∧ decodeJ36 .badger 0b000101011010000000000000000000000010#36 = some (.and .badger ⟨5, false, 2⟩)
    ∧ decodeJ36 .badger 0b000101100000000000000000000000000110#36 = some (.or .badger ⟨0, false, 6⟩)
    ∧ decodeJ36 .badger 0b000101110000000000000000000000000111#36 = some (.xor .badger ⟨0, false, 7⟩)
    ∧ decodeJ36 .badger 0b000110000000000000000000000000000000#36 = some (.neg .badger ⟨0, false, 0⟩)
    ∧ decodeJ36 .badger 0b000110010000000000000000000000000000#36 = some (.not .badger ⟨0, false, 0⟩)
    ∧ decodeJ36 .badger 0b000110100000000000000000000000100100#36 = some (.shl .badger ⟨0, false, 36⟩)
    ∧ decodeJ36 .badger 0b000110110000000000000000000000000001#36 = some (.shr .badger ⟨0, false, 1⟩)
    ∧ decodeJ36 .badger 0b000111000010000000000000000000000010#36 = some (.sha .badger ⟨1, false, 2⟩)
    ∧ decodeJ36 .badger 0b000111010000000000000000000000000011#36 = some (.rol .badger ⟨0, false, 3⟩)
    ∧ decodeJ36 .badger 0b000111100000000000000000000000000100#36 = some (.ror .badger ⟨0, false, 4⟩) := by decide +kernel

/-- R479. -/
theorem test_decode_fractions :
    decodeJ36 .badger 0b001000000000000000000000000000000001#36 = some (.fadd .badger ⟨0, false, 1⟩)
    ∧ decodeJ36 .badger 0b001000010010000000000000000000000010#36 = some (.fsub .badger ⟨1, false, 2⟩)
    ∧ decodeJ36 .badger 0b001000100000000000000000000000000000#36 = some (.fneg .badger ⟨0, false, 0⟩)
    ∧ decodeJ36 .badger 0b001000110000000000000000000000000000#36 = some (.fabs .badger ⟨0, false, 0⟩)
    ∧ decodeJ36 .badger 0b001001000000000000000000000000000101#36 = some (.fshl .badger ⟨0, false, 5⟩)
    ∧ decodeJ36 .badger 0b001001011000000000000000000000000110#36 = some (.fshr .badger ⟨4, false, 6⟩)
    ∧ decodeJ36 .badger 0b001001100000000000000000000000000000#36 = some (.satn .badger ⟨0, false, 0⟩) := by decide +kernel

/-- R480. -/
theorem test_decode_decimal :
    decodeJ36 .badger 0b001100000000000000000000000000001001#36 = some (.addd .badger ⟨0, false, 9⟩)
    ∧ decodeJ36 .badger 0b001100010110000000000000000000001000#36 = some (.subd .badger ⟨3, false, 8⟩)
    ∧ decodeJ36 .badger 0b001100100000000000000000000000000000#36 = some (.dad .badger ⟨0, false, 0⟩)
    ∧ decodeJ36 .badger 0b001100110000000000000000000000000000#36 = some (.das .badger ⟨0, false, 0⟩)
    ∧ decodeJ36 .badger 0b001101000000000000000000000000000001#36 = some (.d2b .badger ⟨0, false, 1⟩)
    ∧ decodeJ36 .badger 0b001101010000000000000000000000000000#36 = some (.b2d .badger ⟨0, false, 0⟩) := by decide +kernel

/-- R481, R482. -/
theorem test_decode_checking :
    decodeJ36 .badger 0b001110000000000000000000000000000001#36 = some (.crcs .badger ⟨0, false, 1⟩)
    ∧ decodeJ36 .badger 0b001110011010000000000000000000000010#36 = some (.par .badger ⟨5, false, 2⟩)
    ∧ decodeJ36 .badger 0b001110100000000000000000000000100100#36 = some (.brev .badger ⟨0, false, 36⟩)
    ∧ decodeJ36 .badger 0b010000000000000000000000000000000011#36 = some (.mul .badger ⟨0, false, 3⟩)
    ∧ decodeJ36 .badger 0b010000010010000000000000000000000100#36 = some (.mulu .badger ⟨1, false, 4⟩)
    ∧ decodeJ36 .badger 0b010000100100000000000000000000000101#36 = some (.mac .badger ⟨2, false, 5⟩)
    ∧ decodeJ36 .badger 0b010000110000000000000000000000000000#36 = some (.fpr .badger ⟨0, false, 0⟩) := by decide +kernel

/-- R483 to R485. -/
theorem test_decode_control :
    decodeJ36 .badger 0b100011000000000000000000000000000100#36 = some (.jcc .badger 12 ⟨0, false, 4⟩)
    ∧ decodeJ36 .badger 0b100100000010000000110000000000000000#36 = some (.call .badger ⟨1, false, 196608⟩)
    ∧ decodeJ36 .badger 0b100100010000000000000000000000000000#36 = some (.ret .badger ⟨0, false, 0⟩)
    ∧ decodeJ36 .badger 0b100100100000000000000000000000000000#36 = some (.reti .badger ⟨0, false, 0⟩)
    ∧ decodeJ36 .badger 0b100100110000111111111111111111111110#36 = some (.dbx .badger ⟨0, false, 16777214⟩)
    ∧ decodeJ36 .badger 0b100101001000000000000000000000000001#36 = some (.dby .badger ⟨4, false, 1⟩) := by decide +kernel

/-- R486. -/
theorem test_decode_system :
    decodeJ36 .badger 0b111000000000101010111100110111101111#36 = some (.trap .badger ⟨0, false, 11259375⟩)
    ∧ decodeJ36 .badger 0b111000010000000000000000000000000000#36 = some (.wait .badger ⟨0, false, 0⟩)
    ∧ decodeJ36 .badger 0b111000100000000000000000000000000000#36 = some (.fence .badger ⟨0, false, 0⟩)
    ∧ decodeJ36 .badger 0b111000110000000000000000000000000000#36 = some (.fencew .badger ⟨0, false, 0⟩)
    ∧ decodeJ36 .badger 0b111001000000000000000000000000000000#36 = some (.fenceio .badger ⟨0, false, 0⟩)
    ∧ decodeJ36 .badger 0b111001010010000000100000000000000000#36 = some (.xchg .badger ⟨1, false, 131072⟩)
    ∧ decodeJ36 .badger 0b111010000000000000000000000000000011#36 = some (.slotw .badger ⟨0, false, 3⟩)
    ∧ decodeJ36 .badger 0b111010010100000000000000000000000100#36 = some (.stamp .badger ⟨2, false, 4⟩)
    ∧ decodeJ36 .badger 0b111011110000000000000000000000000000#36 = some (.nop .badger ⟨0, false, 0⟩)
    ∧ decodeJ36 .badger 0b111100011111111111111111111111111111#36 = some (.trapb .badger ⟨7, true, 16777215⟩) := by decide +kernel

/-- R471: the undefined opcodes, the word of zeros and a word of erased flash name no instruction. -/
theorem test_decode_undefined :
    [0x00, 0x0C, 0x1F, 0x27, 0x36, 0x3B, 0x44, 0x95, 0xE6, 0xEA, 0xF0, 0xF2, 0xFF].all (fun op => (decodeJ36 .foxA (BitVec.ofNat 36 (op * 2 ^ 28))).isNone) = true
    ∧ decodeJ36 .foxA 0#36 = none ∧ decodeJ36 .foxA 0xFFFFFFFFF#36 = none := by decide +kernel

/-! ### One step each, against the worked examples of the spec -/

/-- Fox A in RUN at 0x010_000 with these A, ST and M = `m` in MHI:MLO. -/
def foxWith (a st : Word) (hi : Word) : Chip :=
  (run1 {}).setCore .foxA { pc := 0x10000, run := .run, a := a, st := st, mhi := hi }

/-- The chip after one step that takes `i`. -/
def stepOn (i : Instr) (s : Chip) : Option Chip :=
  match step { pending := [i], chip := s } with
  | .next t => some t.chip
  | _ => none

/-- A and ST of Fox A after the step. -/
def aAndSt (i : Instr) (s : Chip) : Option (Word × Word) := (stepOn i s).map (fun t => (t.cores.foxA.a, t.cores.foxA.st))

/-- Spec/16, worked example: the CRC-8 of 0x19, 0x14 and 0x00 goes through 0x4F and 0x86 to 0x9B. -/
theorem test_crcs :
    (aAndSt (.crcs .foxA ⟨0, false, 0x19⟩) (foxWith 0 0 0)).map Prod.fst = some 0x4F
    ∧ (aAndSt (.crcs .foxA ⟨0, false, 0x14⟩) (foxWith 0x4F 0 0)).map Prod.fst = some 0x86
    ∧ (aAndSt (.crcs .foxA ⟨0, false, 0⟩) (foxWith 0x86 0 0)).map Prod.fst = some 0x9B := by decide +kernel

/-- Spec/16, worked example and R476: the words of the loop and of MOVR X,A. -/
theorem test_words :
    decodeJ36 .foxA 0x030020100#36 = some (.ldx .foxA ⟨0, false, 0x20100⟩) ∧ decodeJ36 .foxA 0x386000001#36 = some (.crcs .foxA ⟨3, false, 1⟩)
    ∧ decodeJ36 .foxA 0x940FFFFFE#36 = some (.dby .foxA ⟨0, false, 0xFFFFFE⟩) ∧ decodeJ36 .foxA 0x0B0000004#36 = some (.movr .foxA ⟨0, false, 4⟩) := by
  decide +kernel

/-- Spec/16, worked example: DBY at 0x010_404 goes back to 0x010_403 while Y is not 0. -/
theorem test_dby :
    (stepOn (.dby .foxA ⟨0, false, 0xFFFFFE⟩) (((run1 {}).wr 0x10404 0x940FFFFFE#36).setCore .foxA { pc := 0x10404, run := .run, y := 3 })).map (fun t => (t.cores.foxA.pc, t.cores.foxA.y))
      = some (0x10403, 2)
    ∧ (stepOn (.dby .foxA ⟨0, false, 0xFFFFFE⟩) (((run1 {}).wr 0x10404 0x940FFFFFE#36).setCore .foxA { pc := 0x10404, run := .run, y := 1 })).map (fun t => (t.cores.foxA.pc, t.cores.foxA.y))
      = some (0x10405, 0) := by decide +kernel

/-- Spec/15, worked example "nine-digit meter register": B2D, then ADDD and DAD (R447, R448), and the register's limit.  NC is ST[20:12], D is ST[5]. -/
theorem test_decimal :
    (aAndSt (.b2d .foxA ⟨0, false, 0⟩) (foxWith 458 0 0)).map Prod.fst = some 0x458
    ∧ addd 0x000000458 0x009999678 0 = (0x670000136, 0x07F000, false)
    ∧ (aAndSt (.dad .foxA ⟨0, false, 0⟩) (foxWith 0x670000136 0x07F000 0)).map Prod.fst = some 0x010000136
    ∧ addd 0x999999990 0x000000015 0 = (0x00000000B, 0x1FE024, false)
    ∧ (aAndSt (.dad .foxA ⟨0, false, 0⟩) (foxWith 0x00000000B 0x1FE020 0)).map Prod.fst = some 0x000000005 := by decide +kernel

/-- Spec/15, worked example "flow integration": 0.75 + 0.5 without and with SAT (R445), and FPR of the accumulated volume (R449). -/
theorem test_fractions :
    (fracResult (0x060000000 + 0x040000000) 0 0).1 = 0x0A0000000 ∧ ((fracResult (0x060000000 + 0x040000000) 0 0).2.getLsbD St.G) = true
    ∧ (fracResult (0x060000000 + 0x040000000) 0 0x400).1 = 0x07FFFFFFF ∧ ((fracResult (0x060000000 + 0x040000000) 0 0x400).2.getLsbD St.S) = true
    ∧ (aAndSt (.fpr .foxA ⟨0, false, 0⟩) (foxWith 0 0 0x001B00000)).map Prod.fst = some 0x036000000 := by decide +kernel

/-- The wraps of R445: the largest unsigned and signed sums, and the smallest negative number negated. -/
theorem test_add_wraps :
    aAndSt (.add .foxA ⟨0, false, 1⟩) (foxWith 0xFFFFFFFFF 0 0) = some (0, 0b000110)
    ∧ aAndSt (.add .foxA ⟨0, false, 1⟩) (foxWith 0x7FFFFFFFF 0 0) = some (0x800000000, 0b001001)
    ∧ aAndSt (.neg .foxA ⟨0, false, 0⟩) (foxWith 0x800000000 0 0) = some (0x800000000, 0b001101)
    ∧ aAndSt (.sub .foxA ⟨0, false, 1⟩) (foxWith 0 0 0) = some (0xFFFFFFFFF, 0b000101) := by decide +kernel

/-- R455, R456, R486: TRAP on Badger pushes ST and the next instruction's address, and enters vector 6. -/
theorem test_trap :
    (stepOn (.trap .badger ⟨0, false, 0xABC⟩) (((run1 {}).wr 0x12345 0xF10000ABC#36).setCore .badger { pc := 0x12345, run := .run, vbr := 0x20000, sp := 0x30000, st := 0x81 })).map
      (fun t => (t.cores.badger.pc, t.cores.badger.sp, t.rd 0x2FFFF, t.rd 0x2FFFE, t.cores.badger.tcause, t.cores.badger.taddr))
    = some (0x20006, 0x2FFFE, 0x81, 0x12346, 0x0B5, 0xABC) := by decide +kernel

/-- R107 and R33: PMU_CAUSE, STB and SEQ after the first power-up. -/
theorem test_reset : State.reset.chip.reg R.PMU_CAUSE = 0x100 ∧ State.reset.chip.owl.stb = 0 ∧ State.reset.chip.owl.seq = 0 := by decide +kernel

/-- R66: SSM_LOCK takes ones and gives none back. -/
theorem test_lock :
    (stepOn (.ssmLockWrite .foxA 0x3FFF) ({} : Chip)).map (fun t => t.reg R.SSM_LOCK) = some 0x3FFE
    ∧ (stepOn (.ssmLockWrite .foxA 0) (({} : Chip).setReg R.SSM_LOCK 0x6)).map (fun t => t.reg R.SSM_LOCK) = some 0x6 := by decide +kernel

/-- R405, R406: Saturday, 1 January 2000, is second 0, and the day after 28 February 2000 is the 29th. -/
theorem test_calendar : calFromSec 0 = (2000 <<< 10 ||| 1 <<< 6 ||| 1, 5 <<< 17) ∧ (calFromSec (59 * 86400)).1 = 2000 <<< 10 ||| 2 <<< 6 ||| 29 := by decide +kernel

/-- An empty queue lets one period pass; a queue runs first in, first out. -/
theorem test_queue :
    (match step { pending := [.nop .foxA ⟨0, false, 0⟩, .neg .foxA ⟨0, false, 0⟩], chip := run1 {} } with
      | .next t => decide (t.pending = [.neg .foxA ⟨0, false, 0⟩] ∧ t.chip.cores.foxA.pc = 0x10001)
      | _ => false) = true
    ∧ ({} : Chip).tick.2.now = 1 := by decide +kernel


/-! ### States and operands that meet the hypotheses of each statement -/

theorem wit_EmptyQueueIsOnePeriod :
    ∃ (s : Chip), (s.nfc.harvest = false) ∧ ((s.now + 1) % 1000 = 0) ∧ (s.bit F.WDT_CTL_EN = true) ∧ (s.wdtPaused = false) ∧ (s.wdtPeriod ≤ s.tmr.wdt + 1) :=
  ⟨(let s : Chip := {}; let s := s.setFld F.WDT_CTL_EN 1; let s := { s with tmr := { s.tmr with wdt := 3219456 } }; { s with now := 999 }), by decide +kernel⟩

theorem wit_SettlingTouchesNoStore :
    ∃ (s : Chip), (s.out = { answers := [], chans := [], flash := [] }) ∧ (s.flc.pulsing = false) ∧ (s.ldr.who ≠ LdrWho.vole) :=
  ⟨{}, by decide +kernel⟩

theorem wit_StoresReadBack :
    (∃ (s : Chip), (s.canonical = true))
    ∧ (∃ (s : Chip), (s.canonical = true))
    ∧ (∃ (a : Nat) (l : List Word) (b : Nat), (65536 ≤ a) ∧ (a + l.length ≤ 327680) ∧ (b < a ∨ a + l.length ≤ b))
    ∧ (∃ (a : Nat) (l : List Byte) (b : Nat), (262144 ≤ a) ∧ (a + l.length ≤ 1310720) ∧ (b < a ∨ a + l.length ≤ b)) :=
  ⟨⟨{}, by decide +kernel⟩,
    ⟨{}, by decide +kernel⟩,
    ⟨65536, [], 0, by decide +kernel⟩,
    ⟨262144, [], 0, by decide +kernel⟩⟩

theorem wit_LoadsComplete :
    (∃ (s : Chip) (t : Chip) (c : Core) (o : Opnd) (m : Word), (s.ready c) ∧ ((s.fetch c).readM c o = Acc.ok m t) ∧ (o.inModes [0, 1, 2, 3, 4, 5] = true))
    ∧ (∃ (s : Chip) (t : Chip) (c : Core) (o : Opnd) (m : Word), (s.ready c) ∧ ((s.fetch c).readM c o = Acc.ok m t) ∧ (o.inModes [0, 1, 2, 4, 5] = true))
    ∧ (∃ (s : Chip) (t : Chip) (c : Core) (o : Opnd) (m : Word), (s.ready c) ∧ ((s.fetch c).readM c o = Acc.ok m t) ∧ (o.mode = 3) ∧ (o.ixs = true))
    ∧ (∃ (s : Chip) (t : Chip) (c : Core) (o : Opnd) (m : Word), (s.ready c) ∧ ((s.fetch c).readM c o = Acc.ok m t) ∧ (o.mode = 3) ∧ (o.ixs = false))
    ∧ (∃ (s : Chip) (t : Chip) (c : Core) (o : Opnd) (a : BitVec 24), (s.ready c) ∧ ((s.fetch c).effAddr c o = Acc.ok a t) ∧ (o.inModes [1, 2, 4] = true))
    ∧ (∃ (s : Chip) (c : Core) (o : Opnd) (d : Nat) (r : Nat) (v : Word), ((s.ready c) ∧ (d < 3) ∧ (r < 3)) ∧ (o = { mode := 0, ixs := false, opd := BitVec.ofNat 24 (4 * d + r) }) ∧ (v = if r = 0 then ((s.fetch c).core c).a else if r = 1 then BitVec.setWidth 36 ((s.fetch c).core c).x else BitVec.setWidth 36 ((s.fetch c).core c).y)) :=
  ⟨⟨(run1 {}), _, Core.foxA, { mode := 0#3, ixs := false, opd := 0#24 }, _, by decide +kernel, wAcc _ (by decide +kernel), by decide +kernel⟩,
    ⟨(run1 {}), _, Core.foxA, { mode := 0#3, ixs := false, opd := 0#24 }, _, by decide +kernel, wAcc _ (by decide +kernel), by decide +kernel⟩,
    ⟨(run1 {}), _, Core.foxA, { mode := 3#3, ixs := true, opd := 0#24 }, _, by decide +kernel, wAcc _ (by decide +kernel), by decide +kernel⟩,
    ⟨(run1 {}), _, Core.foxA, { mode := 3#3, ixs := false, opd := 0#24 }, _, by decide +kernel, wAcc _ (by decide +kernel), by decide +kernel⟩,
    ⟨(run1 {}), _, Core.foxA, { mode := 1#3, ixs := false, opd := 0#24 }, _, by decide +kernel, wAcc _ (by decide +kernel), by decide +kernel⟩,
    ⟨(run1 {}), .foxA, _, 0, 1, _, by decide +kernel, rfl, rfl⟩⟩

theorem wit_StoresComplete :
    (∃ (s : Chip) (c : Core) (o : Opnd) (t : Chip), ((s.ready c) ∧ (o.inModes [1, 2, 3, 4, 5] = true)) ∧ ((s.fetch c).writeM c o ((s.fetch c).core c).a = Acc.ok () t))
    ∧ (∃ (s : Chip) (c : Core) (o : Opnd) (t : Chip), ((s.ready c) ∧ (o.inModes [1, 2, 3, 4, 5] = true)) ∧ ((s.fetch c).writeM c o (BitVec.setWidth 36 ((s.fetch c).core c).x) = Acc.ok () t))
    ∧ (∃ (s : Chip) (c : Core) (o : Opnd) (t : Chip), ((s.ready c) ∧ (o.inModes [1, 2, 3, 4, 5] = true)) ∧ ((s.fetch c).writeM c o (BitVec.setWidth 36 ((s.fetch c).core c).y) = Acc.ok () t))
    ∧ (∃ (s : Chip) (c : Core) (o : Opnd) (m : Word) (t : Chip), ((s.ready c) ∧ (o.inModes [0, 1, 2, 3, 4, 5] = true)) ∧ ((s.fetch c).readM c o = Acc.ok m t) ∧ (isSram ((t.core c).sp - 1).toNat = true))
    ∧ (∃ (s : Chip) (c : Core) (o : Opnd) (w : Word) (t : Chip) (u : Chip), ((s.ready c) ∧ (o.inModes [1, 2, 3, 4, 5] = true) ∧ (isSram ((s.fetch c).core c).sp.toNat = true)) ∧ ((s.fetch c).coreRead c ((s.fetch c).core c).sp = Acc.ok w t) ∧ (t.writeM c o w = Acc.ok () u))
    ∧ (∃ (a : BitVec 24), (isSram a.toNat = true))
    ∧ (∃ (s : Chip) (c : Core) (a : BitVec 24), (c ≠ Core.badger) ∧ (isSram a.toNat = true) ∧ ((s.core c).wbuf.length < 4))
    ∧ (∃ (s : Chip) (c : Core) (k : Nat) (w : Word) (l : List (Nat × Word)), (c ≠ Core.badger) ∧ ((s.core c).wbuf = (k, w) :: l) ∧ (l.length = 3))
    ∧ (∃ (a : BitVec 24), (isSram a.toNat = false) ∧ (mayWriteAt a.toNat = true))
    ∧ (∃ (a : BitVec 24), (isSram a.toNat = false) ∧ (mayWriteAt a.toNat = false))
    ∧ (∃ (s : Chip) (c : Core) (a : Nat) (v : Word) (l : List (Nat × Word)), ((s.core c).wbuf = (a, v) :: l))
    ∧ (∃ (s : Chip) (c : Core), ((s.core c).wbuf = []))
    ∧ (∃ (s : Chip) (t : Chip) (u : Chip) (o : Opnd) (a : BitVec 24) (v : Word) (b : Nat), (o.inModes [1, 2, 3, 4] = true) ∧ (s.effAddr Core.badger o = Acc.ok a t) ∧ (isSram a.toNat = true) ∧ (s.writeM Core.badger o v = Acc.ok () u) ∧ (b ≠ a.toNat)) :=
  ⟨⟨(let s : Chip := {}; let s := { s with cores := { s.cores with badger := { s.cores.badger with run := CoreRun.run } } }; { s with cores := { s.cores with badger := { s.cores.badger with y := 0x10000#24 } } }), Core.badger, { mode := 2#3, ixs := true, opd := 0#24 }, _, by decide +kernel, wAcc _ (by decide +kernel)⟩,
    ⟨(run1 {}), Core.foxA, { mode := 1#3, ixs := false, opd := 0x10000#24 }, _, by decide +kernel, wAcc _ (by decide +kernel)⟩,
    ⟨(run1 {}), Core.foxA, { mode := 1#3, ixs := false, opd := 0x10000#24 }, _, by decide +kernel, wAcc _ (by decide +kernel)⟩,
    ⟨(run1 {}), Core.foxA, { mode := 0#3, ixs := false, opd := 0#24 }, _, _, by decide +kernel, wAcc _ (by decide +kernel), by decide +kernel⟩,
    ⟨(let s : Chip := {}; let s := { s with cores := { s.cores with foxB := { s.cores.foxB with sp := 0x10000#24 } } }; let s := s.setReg R.CLK_FOX (W 16); let s := { s with cores := { s.cores with foxB := { s.cores.foxB with run := CoreRun.run } } }; s.wr 0x10000 0), Core.foxB, { mode := 1#3, ixs := false, opd := 0x10000#24 }, _, _, _, by decide +kernel, wAcc _ (by decide +kernel), wAcc _ (by decide +kernel)⟩,
    ⟨0x1c280#24, by decide +kernel⟩,
    ⟨{}, Core.foxA, 0x10000#24, by decide +kernel⟩,
    ⟨(let s : Chip := {}; { s with cores := { s.cores with foxA := { s.cores.foxA with wbuf := [(0x10000, 0), (0x10001, 0), (0x10002, 0), (0x10003, 0)] } } }), .foxA, _, _, _, by decide +kernel, wCons _ (by decide +kernel), by decide +kernel⟩,
    ⟨0x300000#24, by decide +kernel⟩,
    ⟨0#24, by decide +kernel⟩,
    ⟨(let s : Chip := {}; { s with cores := { s.cores with foxB := { s.cores.foxB with wbuf := [(0, 0#36)] } } }), Core.foxB, _, _, _, wCons _ (by decide +kernel)⟩,
    ⟨{}, Core.foxA, by decide +kernel⟩,
    ⟨{}, _, _, { mode := 1#3, ixs := false, opd := 0x10000#24 }, _, 0#36, 0, by decide +kernel, wAcc _ (by decide +kernel), by decide +kernel, wAcc _ (by decide +kernel), by decide +kernel⟩⟩

theorem wit_BinaryInstructions :
    (∃ (s : Chip) (t : Chip) (c : Core) (o : Opnd) (m : Word), (s.ready c) ∧ ((s.fetch c).readM c o = Acc.ok m t) ∧ (o.inModes [0, 1, 2, 3, 4, 5] = true))
    ∧ (∃ (s : Chip) (t : Chip) (c : Core) (o : Opnd) (m : Word) (k : Nat), (s.ready c) ∧ ((s.fetch c).readM c o = Acc.ok m t) ∧ (k = min (BitVec.toNat m % 64) 36) ∧ (o.inModes [0, 1, 2, 3, 4] = true)) :=
  ⟨⟨(run1 {}), _, Core.foxA, { mode := 0#3, ixs := false, opd := 0#24 }, _, by decide +kernel, wAcc _ (by decide +kernel), by decide +kernel⟩,
    ⟨(run1 {}), _, Core.foxA, { mode := 0#3, ixs := false, opd := 0#24 }, _, _, by decide +kernel, wAcc _ (by decide +kernel), rfl, by decide +kernel⟩⟩

theorem wit_UnaryInstructions :
    (∃ (s : Chip) (c : Core) (n : Nat), (s.ready c) ∧ (1 ≤ n) ∧ (n ≤ 36))
    ∧ (∃ (s : Chip) (t : Chip) (c : Core) (o : Opnd) (m : Word), (s.ready c) ∧ ((s.fetch c).readM c o = Acc.ok m t) ∧ (o.inModes [0, 1, 2, 3, 4, 5] = true))
    ∧ (∃ (x : CoreSt), (x.flight = []))
    ∧ (∃ (s : Chip) (c : Core) (f : Flight) (l : List Flight), ((s.core c).flight = f :: l))
    ∧ (∃ (s : Chip) (c : Core), ((s.core c).flight = [])) :=
  ⟨⟨(let s : Chip := {}; let s := s.setReg R.CLK_FOX (W 16); { s with cores := { s.cores with foxB := { s.cores.foxB with run := CoreRun.run } } }), Core.foxB, 1, by decide +kernel⟩,
    ⟨(let s : Chip := {}; { s with cores := { s.cores with badger := { s.cores.badger with run := CoreRun.run } } }), _, Core.badger, { mode := 0#3, ixs := false, opd := 0#24 }, _, by decide +kernel, wAcc _ (by decide +kernel), by decide +kernel⟩,
    ⟨{ a := 0#36, x := 0#24, y := 0#24, pc := 0#24, sp := 0#24, st := 0#36, mhi := 0#36, mlo := 0#36, crcp := 0#8, vbr := 0#24, tcause := 0#9, taddr := 0#24, cyc := 0, run := CoreRun.held, halted := false, clkHeld := false, flight := [], lastMul := none, wbuf := [], prefetch := [], lastCyc := 0, seqNext := false, badDec := [], fromRom := false }, by decide +kernel⟩,
    ⟨(let s : Chip := {}; { s with cores := { s.cores with badger := { s.cores.badger with flight := [{ cycle := 0, kind := MulKind.signed, a := 0#36, m := 0#36 }] } } }), Core.badger, _, _, wCons _ (by decide +kernel)⟩,
    ⟨{}, Core.foxA, by decide +kernel⟩⟩

theorem wit_FractionInstructions :
    (∃ (s : Chip) (t : Chip) (c : Core) (o : Opnd) (m : Word), (s.ready c) ∧ ((s.fetch c).readM c o = Acc.ok m t) ∧ (o.inModes [0, 1, 2, 3, 4, 5] = true))
    ∧ (∃ (s : Chip) (t : Chip) (c : Core) (o : Opnd) (m : Word) (k : Nat), (s.ready c) ∧ ((s.fetch c).readM c o = Acc.ok m t) ∧ (k = min (BitVec.toNat m % 64) 35) ∧ (o.inModes [0, 1, 2, 3, 4] = true))
    ∧ (∃ (s : Chip) (c : Core) (x : CoreSt), (s.ready c) ∧ (x = ((s.fetch c).core c).landDue))
    ∧ (∃ (s : Chip) (c : Core), (s.ready c)) :=
  ⟨⟨(run1 {}), _, Core.foxA, { mode := 0#3, ixs := false, opd := 0#24 }, _, by decide +kernel, wAcc _ (by decide +kernel), by decide +kernel⟩,
    ⟨(run1 {}), _, Core.foxA, { mode := 0#3, ixs := false, opd := 0#24 }, _, _, by decide +kernel, wAcc _ (by decide +kernel), rfl, by decide +kernel⟩,
    ⟨(run1 {}), Core.foxA, _, by decide +kernel, rfl⟩,
    ⟨(run1 {}), Core.foxA, by decide +kernel⟩⟩

theorem wit_DecimalArithmetic :
    (∃ (i : Nat), (i < 9))
    ∧ (∃ (i : Nat), (i < 9))
    ∧ (∃ (i : Nat), (i < 9))
    ∧ (∃ (a : Word) (m : Word), (digitsOk a 0 8 = true) ∧ (digitsOk m 0 8 = true))
    ∧ (∃ (s : Chip) (t : Chip) (c : Core) (o : Opnd) (m : Word), (s.ready c) ∧ ((s.fetch c).readM c o = Acc.ok m t) ∧ (o.inModes [0, 1, 2, 3, 4, 5] = true))
    ∧ (∃ (s : Chip) (f : Chip) (c : Core) (x : CoreSt), (s.ready c) ∧ (f = s.fetch c) ∧ (x = f.core c) ∧ (x.badDec.headD false = false))
    ∧ (∃ (s : Chip) (f : Chip) (c : Core) (x : CoreSt) (i : Instr), (s.ready c) ∧ (f = s.fetch c) ∧ (x = f.core c) ∧ (x.badDec.headD false = true) ∧ (i = Instr.dad c { mode := 0, ixs := false, opd := 0 }))
    ∧ (∃ (s : Chip) (f : Chip) (c : Core) (x : CoreSt) (i : Instr), (s.ready c) ∧ (f = s.fetch c) ∧ (x = f.core c) ∧ (x.badDec.headD false = true) ∧ (i = Instr.das c { mode := 0, ixs := false, opd := 0 })) :=
  ⟨⟨0, by decide +kernel⟩,
    ⟨0, by decide +kernel⟩,
    ⟨0, by decide +kernel⟩,
    ⟨0#36, 0#36, by decide +kernel⟩,
    ⟨(run1 {}), _, Core.foxA, { mode := 0#3, ixs := false, opd := 0#24 }, _, by decide +kernel, wAcc _ (by decide +kernel), by decide +kernel⟩,
    ⟨(run1 {}), _, Core.foxA, _, by decide +kernel, rfl, rfl, by decide +kernel⟩,
    ⟨(let s : Chip := {}; let s := { s with cores := { s.cores with badger := { s.cores.badger with run := CoreRun.run } } }; { s with cores := { s.cores with badger := { s.cores.badger with badDec := [true] } } }), _, Core.badger, _, _, by decide +kernel, rfl, rfl, by decide +kernel, rfl⟩,
    ⟨(let s : Chip := {}; let s := { s with cores := { s.cores with badger := { s.cores.badger with badDec := [true] } } }; { s with cores := { s.cores with badger := { s.cores.badger with run := CoreRun.run } } }), _, Core.badger, _, _, by decide +kernel, rfl, rfl, by decide +kernel, rfl⟩⟩

theorem wit_Conversions :
    (∃ (a : Word) (r : Word), (d2b a false = some r))
    ∧ (∃ (a : Word) (r : Word), (d2b a true = some r))
    ∧ (∃ (a : Word) (r : Word), (b2d a false = some r))
    ∧ (∃ (a : Word) (r : Word), (b2d a true = some r) ∧ (0 ≤ BitVec.toInt a))
    ∧ (∃ (a : Word) (r : Word), (b2d a true = some r) ∧ (BitVec.toInt a < 0))
    ∧ (∃ (s : Chip) (f : Chip) (c : Core) (x : CoreSt) (b : Bool) (o : Opnd), (s.ready c) ∧ (f = s.fetch c) ∧ (x = f.core c) ∧ (o = { mode := 0, ixs := false, opd := BitVec.ofNat 24 b.toNat })) :=
  ⟨⟨0#36, _, wSome _ (by decide +kernel)⟩,
    ⟨0xc#36, _, wSome _ (by decide +kernel)⟩,
    ⟨0#36, _, wSome _ (by decide +kernel)⟩,
    ⟨0#36, _, wSome _ (by decide +kernel), by decide +kernel⟩,
    ⟨0xffdf5e0ff#36, _, wSome _ (by decide +kernel), by decide +kernel⟩,
    ⟨(run1 {}), _, Core.foxA, _, false, _, by decide +kernel, rfl, rfl, rfl⟩⟩

theorem wit_BranchesComplete :
    (∃ (s : Chip) (t : Chip) (c : Core) (o : Opnd) (a : BitVec 24) (u : Chip), ((s.ready c) ∧ (o.inModes [0, 1, 2, 4] = true)) ∧ ((s.fetch c).target c o = Acc.ok a t) ∧ (t.push c (BitVec.setWidth 36 ((t.core c).pc + 1)) = Acc.ok () u))
    ∧ (∃ (s : Chip) (t : Chip) (c : Core) (w : Word), (s.ready c) ∧ ((s.fetch c).stackRead c ((s.fetch c).core c).sp = Acc.ok w t))
    ∧ (∃ (n : Nat), (n < 16)) :=
  ⟨⟨(let s : Chip := {}; { s with cores := { s.cores with badger := { s.cores.badger with run := CoreRun.run } } }), _, Core.badger, { mode := 0#3, ixs := false, opd := 0#24 }, _, _, by decide +kernel, wAcc _ (by decide +kernel), wAcc _ (by decide +kernel)⟩,
    ⟨(let s : Chip := run1 {}; let s := { s with cores := { s.cores with foxA := { s.cores.foxA with sp := 0x10000#24 } } }; s.wr 0x10000 0), _, Core.foxA, _, by decide +kernel, wAcc _ (by decide +kernel)⟩,
    ⟨0, by decide +kernel⟩⟩

theorem wit_TrapEntry :
    (∃ (s : Chip) (c : Core) (t : Trap) (u : Chip) (x : CoreSt) (b : Nat), ((BitVec.getLsbD (s.core c).st St.TH = false) ∧ (1 ≤ t.vec) ∧ (t.vec < 8)) ∧ (x = if t.vec = 4 then { ((s.core c).landAll) with sp := 327680#24 } else (s.core c).landAll) ∧ ((s.bufferOk c) ∧ (isSram (x.sp - 1).toNat = true)) ∧ (u = s.takeTrap c t) ∧ (isSram (x.sp - 2).toNat = true) ∧ (b ≠ (x.sp - 1).toNat) ∧ (b ≠ (x.sp - 2).toNat))
    ∧ (∃ (s : Chip) (c : Core) (t : Trap) (u : Chip) (x : CoreSt) (e : Core), ((BitVec.getLsbD (s.core c).st St.TH = false) ∧ (1 ≤ t.vec) ∧ (t.vec < 8)) ∧ (x = if t.vec = 4 then { ((s.core c).landAll) with sp := 327680#24 } else (s.core c).landAll) ∧ ((s.bufferOk c) ∧ (isSram (x.sp - 1).toNat = true)) ∧ (u = s.takeTrap c t) ∧ (isSram (x.sp - 2).toNat = true) ∧ (e ≠ c))
    ∧ (∃ (s : Chip) (c : Core) (t : Trap) (u : Chip) (x : CoreSt), ((BitVec.getLsbD (s.core c).st St.TH = false) ∧ (1 ≤ t.vec) ∧ (t.vec < 8)) ∧ (x = if t.vec = 4 then { ((s.core c).landAll) with sp := 327680#24 } else (s.core c).landAll) ∧ ((s.bufferOk c) ∧ (isSram (x.sp - 1).toNat = true)) ∧ (u = s.takeTrap c t) ∧ (isSram (x.sp - 2).toNat = true) ∧ (s.busAt ≠ s.now) ∧ ((s.core c).wbuf.length ≤ 2))
    ∧ (∃ (s : Chip) (c : Core) (t : Trap) (u : Chip) (x : CoreSt) (b : Nat), ((BitVec.getLsbD (s.core c).st St.TH = false) ∧ (1 ≤ t.vec) ∧ (t.vec < 8)) ∧ (x = if t.vec = 4 then { ((s.core c).landAll) with sp := 327680#24 } else (s.core c).landAll) ∧ ((s.bufferOk c) ∧ (isSram (x.sp - 1).toNat = true)) ∧ (u = s.takeTrap c t) ∧ (isSram (x.sp - 2).toNat = false) ∧ (b ≠ (x.sp - 1).toNat))
    ∧ (∃ (s : Chip) (c : Core), (BitVec.getLsbD (s.core c).st St.TH = true))
    ∧ (∃ (s : Chip) (c : Core) (t : Trap), (BitVec.getLsbD (s.core c).st St.TH = false) ∧ (t.vec ≠ 4) ∧ (isSram ((s.core c).sp - 1).toNat = false))
    ∧ (∃ (s : Chip) (c : Core), (s.ready c))
    ∧ (∃ (s : Chip) (c : Core), (s.ready c))
    ∧ (∃ (s : Chip) (t : Chip) (u : Chip) (c : Core) (sp : BitVec 24) (w : Word) (v : Word), (s.ready c) ∧ (sp = ((s.fetch c).core c).sp) ∧ ((isSram sp.toNat = true) ∧ (isSram (sp + 1).toNat = true)) ∧ ((s.fetch c).coreRead c sp = Acc.ok w t) ∧ (t.coreRead c (sp + 1) = Acc.ok v u)) :=
  ⟨⟨{}, Core.foxA, { vec := 1, cause := 0, addr := 0#24, data := false, next := false }, _, _, 0, by decide +kernel, rfl, by decide +kernel, rfl, by decide +kernel⟩,
    ⟨{}, Core.foxB, { vec := 1, cause := 0, addr := 0#24, data := false, next := false }, _, _, Core.foxA, by decide +kernel, rfl, by decide +kernel, rfl, by decide +kernel⟩,
    ⟨(let s : Chip := {}; { s with now := 1 }), Core.foxA, { vec := 1, cause := 0, addr := 0#24, data := false, next := false }, _, _, by decide +kernel, rfl, by decide +kernel, rfl, by decide +kernel⟩,
    ⟨(let s : Chip := {}; { s with cores := { s.cores with foxA := { s.cores.foxA with sp := 0x10001 } } }), .foxA, { vec := 1, cause := 0xB0, addr := 0 }, _, _, 0, by decide +kernel, rfl, by decide +kernel, rfl, by decide +kernel⟩,
    ⟨(let s : Chip := {}; { s with cores := { s.cores with badger := { s.cores.badger with st := 0x200000#36 } } }), Core.badger, by decide +kernel⟩,
    ⟨(let s : Chip := {}; { s with cores := { s.cores with badger := { s.cores.badger with sp := 0#24 } } }), Core.badger, { vec := 0, cause := 0, addr := 0#24, data := false, next := false }, by decide +kernel⟩,
    ⟨(let s : Chip := {}; { s with cores := { s.cores with badger := { s.cores.badger with run := CoreRun.run } } }), Core.badger, by decide +kernel⟩,
    ⟨(let s : Chip := {}; { s with cores := { s.cores with badger := { s.cores.badger with run := CoreRun.run } } }), Core.badger, by decide +kernel⟩,
    ⟨(let s : Chip := {}; let s := { s with cores := { s.cores with badger := { s.cores.badger with sp := 0x10000#24 } } }; let s := { s with cores := { s.cores with badger := { s.cores.badger with run := CoreRun.run } } }; let s := s.wr 0x10000 0; s.wr 0x10001 0), _, _, Core.badger, _, _, _, by decide +kernel, rfl, by decide +kernel, wAcc _ (by decide +kernel), wAcc _ (by decide +kernel)⟩⟩

theorem wit_InterruptsAndWait :
    (∃ (s : Chip) (c : Core), (s.coreRuns c = true) ∧ (BitVec.getLsbD (s.core c).st St.IE = true) ∧ (s.line c.cid = true) ∧ (∀ (t : Nat), (s.core c).lastMul = some t → t + 3 ≤ (s.core c).cyc))
    ∧ (∃ (s : Chip) (c : Core), (BitVec.getLsbD (s.core c).st St.IE = false ∨ s.line c.cid = false))
    ∧ (∃ (s : Chip) (u : Chip) (c : Core) (x : CoreSt) (b : Nat), (x = (s.core c).landAll) ∧ ((s.bufferOk c) ∧ (isSram (x.sp - 1).toNat = true)) ∧ (u = s.enterVector c 0 x.pc none) ∧ (isSram (x.sp - 2).toNat = true) ∧ (b ≠ (x.sp - 1).toNat) ∧ (b ≠ (x.sp - 2).toNat))
    ∧ (∃ (s : Chip) (u : Chip) (c : Core) (x : CoreSt), (x = (s.core c).landAll) ∧ ((s.bufferOk c) ∧ (isSram (x.sp - 1).toNat = true)) ∧ (u = s.enterVector c 0 x.pc none) ∧ (isSram (x.sp - 2).toNat = false))
    ∧ (∃ (s : Chip) (c : Core), (s.ready c))
    ∧ (∃ (s : Chip) (c : Core), ((s.core c).run = CoreRun.wait) ∧ (s.pwr.st = PState.run) ∧ (s.boot.ph ≠ BootPh.dead) ∧ ((s.core c).halted = false) ∧ (s.coreRate c ≠ 0) ∧ (s.line c.cid = true) ∧ (c = Core.foxA → s.ldr.parked = false))
    ∧ (∃ (s : Chip) (c : Core), ((s.core c).run ≠ CoreRun.wait ∨ s.line c.cid = false ∨ s.pwr.st ≠ PState.run ∨ s.boot.ph = BootPh.dead ∨ c = Core.foxA ∧ s.ldr.parked = true))
    ∧ (∃ (s : Chip) (f : Chip) (c : Core), (s.ready c) ∧ (f = s.fetch c))
    ∧ (∃ (s : Chip) (c : Core), ((s.core c).wbuf = []))
    ∧ (∃ (s : Chip) (c : Core) (l : List (Nat × Word)), (l ≠ []) ∧ ((s.core c).wbuf = l) ∧ (∀ (e : Nat × Word), e ∈ l → isSram e.fst = true))
    ∧ (∃ (s : Chip) (t : Chip) (u : Chip) (c : Core) (o : Opnd) (a : BitVec 24) (w : Word), ((s.ready c) ∧ (o.inModes [1, 2, 3, 4] = true)) ∧ ((s.fetch c).effAddr c o = Acc.ok a t) ∧ (isSram a.toNat = true) ∧ ((t.drainAll c).coreRead c a = Acc.ok w u))
    ∧ (∃ (s : Chip) (t : Chip) (c : Core) (o : Opnd) (a : BitVec 24), ((s.ready c) ∧ (o.inModes [1, 2, 3, 4] = true)) ∧ ((s.fetch c).effAddr c o = Acc.ok a t) ∧ (isSram a.toNat = false))
    ∧ (∃ (s : Chip) (f : Chip) (k : Nat) (o : Opnd), ((s.ready Core.badger) ∧ (k < 4)) ∧ (o = { mode := 0, ixs := false, opd := BitVec.ofNat 24 k }) ∧ (f = s.fetch Core.badger) ∧ (f.bit F.LNK_CTL_EN = false))
    ∧ (∃ (s : Chip) (f : Chip) (k : Nat) (o : Opnd) (n : Nat), ((s.ready Core.badger) ∧ (k < 4)) ∧ (o = { mode := 0, ixs := false, opd := BitVec.ofNat 24 k }) ∧ (f = s.fetch Core.badger) ∧ (f.bit F.LNK_CTL_EN = true) ∧ (f.lnk.running = true) ∧ (f.lnk.nextB.getD k 0 = n + 1) ∧ (f.boundaryAt k n = (↑f.now : Int)))
    ∧ (∃ (s : Chip) (f : Chip) (k : Nat) (o : Opnd) (n : Nat), ((s.ready Core.badger) ∧ (k < 4)) ∧ (o = { mode := 0, ixs := false, opd := BitVec.ofNat 24 k }) ∧ (f = s.fetch Core.badger) ∧ (f.bit F.LNK_CTL_EN = true) ∧ (n = f.lnk.nextB.getD k 0) ∧ (f.lnk.running = false ∨ n = 0 ∨ f.boundaryAt k (n - 1) ≠ (↑f.now : Int)) ∧ (f.line 2 = true) ∧ (f.lnk.running = false ∨ (↑f.now : Int) < f.boundaryAt k n))
    ∧ (∃ (s : Chip) (f : Chip) (k : Nat) (o : Opnd) (n : Nat), ((s.ready Core.badger) ∧ (k < 4)) ∧ (o = { mode := 0, ixs := false, opd := BitVec.ofNat 24 k }) ∧ (f = s.fetch Core.badger) ∧ (f.bit F.LNK_CTL_EN = true) ∧ (n = f.lnk.nextB.getD k 0) ∧ (f.lnk.running = false ∨ n = 0 ∨ f.boundaryAt k (n - 1) ≠ (↑f.now : Int)) ∧ (f.line 2 = false ∨ f.lnk.running = true ∧ f.boundaryAt k n ≤ (↑f.now : Int)))
    ∧ (∃ (s : Chip) (t : Chip) (u : Chip) (f : Chip) (o : Opnd) (a : BitVec 24) (p : Stamp), ((s.ready Core.badger) ∧ (o.inModes [1, 2, 3, 4] = true)) ∧ (f = s.fetch Core.badger) ∧ (p = f.owl.sample) ∧ (f.effAddr Core.badger o = Acc.ok a t) ∧ (t.coreWrite Core.badger a (W (p.seq <<< 12 ||| p.fv.toNat <<< 11 ||| p.fine)) = Acc.ok () u))
    ∧ (∃ (s : Chip) (c : Core), (s.ready c) ∧ (c ≠ Core.badger)) :=
  ⟨⟨(let s : Chip := run1 {}; let s := { s with cores := { s.cores with foxA := { s.cores.foxA with st := 0xed70dfb4#36 } } }; let s := s.setReg (R.ICU_SRC 95) (W 16); s.setFld (F.ICU_SRC_STATE 95) 1), Core.foxA, by decide +kernel⟩,
    ⟨{}, Core.foxA, by decide +kernel⟩,
    ⟨{}, _, Core.foxA, _, 0, rfl, by decide +kernel, rfl, by decide +kernel⟩,
    ⟨(let s : Chip := {}; { s with cores := { s.cores with foxA := { s.cores.foxA with sp := 0x10001 } } }), _, .foxA, _, rfl, by decide +kernel, rfl, by decide +kernel⟩,
    ⟨(run1 {}), Core.foxA, by decide +kernel⟩,
    ⟨(let s : Chip := {}; let s := { s with cores := { s.cores with badger := { s.cores.badger with run := CoreRun.wait } } }; s.setReg (R.ICU_SRC 1) (W 1525)), Core.badger, by decide +kernel⟩,
    ⟨{}, Core.foxA, by decide +kernel⟩,
    ⟨(run1 {}), _, Core.foxA, by decide +kernel, rfl⟩,
    ⟨{}, Core.foxA, by decide +kernel⟩,
    ⟨(let s : Chip := {}; { s with cores := { s.cores with badger := { s.cores.badger with wbuf := [(65536, 0#36)] } } }), Core.badger, _, by decide +kernel, rfl, by decide +kernel⟩,
    ⟨(let s : Chip := run1 {}; s.wr 0x10000 0), _, _, Core.foxA, { mode := 1#3, ixs := false, opd := 0x10000#24 }, _, _, by decide +kernel, wAcc _ (by decide +kernel), by decide +kernel, wAcc _ (by decide +kernel)⟩,
    ⟨(run1 {}), _, Core.foxA, { mode := 1#3, ixs := false, opd := 0#24 }, _, by decide +kernel, wAcc _ (by decide +kernel), by decide +kernel⟩,
    ⟨(let s : Chip := {}; { s with cores := { s.cores with badger := { s.cores.badger with run := CoreRun.run } } }), _, 0, _, by decide +kernel, rfl, rfl, by decide +kernel⟩,
    ⟨(let s : Chip := {}; let s := { s with cores := { s.cores with badger := { s.cores.badger with run := .run } } }; let s := s.setFld F.LNK_CTL_EN 1; { s with lnk := { s.lnk with running := true, nextB := [1, 0, 0, 0] } }), _, 0, _, 0, by decide +kernel, rfl, rfl, by decide +kernel⟩,
    ⟨(let s : Chip := {}; let s := { s with cores := { s.cores with badger := { s.cores.badger with run := CoreRun.run } } }; let s := s.setFld F.LNK_CTL_EN 1; s.setReg (R.ICU_MOD 62) (W 2397)), _, 0, _, _, by decide +kernel, rfl, rfl, by decide +kernel, rfl, by decide +kernel⟩,
    ⟨(let s : Chip := {}; let s := s.setFld F.LNK_CTL_EN 1; { s with cores := { s.cores with badger := { s.cores.badger with run := CoreRun.run } } }), _, 0, _, _, by decide +kernel, rfl, rfl, by decide +kernel, rfl, by decide +kernel⟩,
    ⟨(let s : Chip := {}; { s with cores := { s.cores with badger := { s.cores.badger with run := CoreRun.run } } }), _, _, _, { mode := 1#3, ixs := false, opd := 0x10000#24 }, _, _, by decide +kernel, rfl, rfl, wAcc _ (by decide +kernel), wAcc _ (by decide +kernel)⟩,
    ⟨(run1 {}), Core.foxA, by decide +kernel⟩⟩

theorem wit_IllegalForms :
    (∃ (s : Chip) (c : Core) (o : Opnd) (i : Instr), ((s.ready c) ∧ (o.inModes [0, 1, 2, 3, 4, 5] = false)) ∧ (i = Instr.lda c o))
    ∧ (∃ (s : Chip) (c : Core) (o : Opnd) (i : Instr), ((s.ready c) ∧ (o.inModes [1, 2, 3, 4, 5] = false)) ∧ (i = Instr.sta c o))
    ∧ (∃ (s : Chip) (c : Core) (o : Opnd) (i : Instr), ((s.ready c) ∧ (o.inModes [1, 2, 4] = false)) ∧ (i = Instr.leax c o))
    ∧ (∃ (s : Chip) (c : Core) (o : Opnd) (i : Instr), ((s.ready c) ∧ (o.inModes [0, 1, 2, 3, 4] = false)) ∧ (i = Instr.shl c o))
    ∧ (∃ (s : Chip) (c : Core) (o : Opnd) (cc : BitVec 4) (i : Instr), ((s.ready c) ∧ (o.inModes [0, 1, 2, 4] = false)) ∧ (i = Instr.jcc c cc o))
    ∧ (∃ (s : Chip) (c : Core) (o : Opnd) (i : Instr), ((s.ready c) ∧ (o.inModes [1, 2, 3, 4] = false)) ∧ (i = Instr.xchg c o))
    ∧ (∃ (s : Chip) (c : Core) (o : Opnd) (i : Instr), ((s.ready c) ∧ (o ≠ { mode := 0, ixs := false, opd := 0 })) ∧ (i = Instr.neg c o))
    ∧ (∃ (s : Chip) (c : Core) (o : Opnd), (s.ready c) ∧ (o.mode = 5) ∧ (o.ixs = false) ∧ (9 < o.opd.toNat))
    ∧ (∃ (s : Chip) (c : Core) (o : Opnd) (i : Instr) (op : BitVec 8) (n : Nat), (j36Parts i = some (op, c, o)) ∧ (n = (s.core c).pc.toNat) ∧ ((s.core c).run ≠ CoreRun.run ∨ (s.core c).halted = true))
    ∧ (∃ (s : Chip) (c : Core) (o : Opnd) (i : Instr) (op : BitVec 8) (n : Nat), (j36Parts i = some (op, c, o)) ∧ (n = (s.core c).pc.toNat) ∧ (s.coreRuns c = true) ∧ ((s.core c).prefetched n = none) ∧ (mayFetchAt n = false ∨ s.restrained n 31 = true))
    ∧ (∃ (s : Chip) (c : Core) (o : Opnd) (i : Instr) (op : BitVec 8) (n : Nat), (j36Parts i = some (op, c, o)) ∧ (n = (s.core c).pc.toNat) ∧ (s.coreRuns c = true) ∧ ((s.core c).prefetched n = none) ∧ (mayFetchAt n = true) ∧ (s.restrained n 31 = false) ∧ (isFlash n = true) ∧ (s.bankBusy n = true))
    ∧ (∃ (s : Chip) (c : Core) (o : Opnd) (i : Instr) (op : BitVec 8) (n : Nat), (j36Parts i = some (op, c, o)) ∧ (n = (s.core c).pc.toNat) ∧ (s.coreRuns c = true) ∧ ((s.core c).prefetched n = none) ∧ (mayFetchAt n = true) ∧ (s.restrained n 31 = false) ∧ (isFlash n = false ∨ s.bankBusy n = false) ∧ (s.eccBad n = true)) :=
  ⟨⟨(run1 {}), Core.foxA, { mode := 0#3, ixs := true, opd := 0#24 }, _, by decide +kernel, rfl⟩,
    ⟨(let s : Chip := {}; { s with cores := { s.cores with badger := { s.cores.badger with run := CoreRun.run } } }), Core.badger, { mode := 0#3, ixs := false, opd := 0#24 }, _, by decide +kernel, rfl⟩,
    ⟨(let s : Chip := {}; { s with cores := { s.cores with badger := { s.cores.badger with run := CoreRun.run } } }), Core.badger, { mode := 0#3, ixs := false, opd := 0#24 }, _, by decide +kernel, rfl⟩,
    ⟨(let s : Chip := {}; { s with cores := { s.cores with badger := { s.cores.badger with run := CoreRun.run } } }), Core.badger, { mode := 0#3, ixs := true, opd := 0#24 }, _, by decide +kernel, rfl⟩,
    ⟨(let s : Chip := {}; { s with cores := { s.cores with foxA := { s.cores.foxA with run := CoreRun.run } } }), Core.foxA, { mode := 3#3, ixs := false, opd := 0#24 }, 0#4, _, by decide +kernel, rfl⟩,
    ⟨(run1 {}), Core.foxA, { mode := 0#3, ixs := false, opd := 0#24 }, _, by decide +kernel, rfl⟩,
    ⟨(let s : Chip := {}; { s with cores := { s.cores with badger := { s.cores.badger with run := CoreRun.run } } }), Core.badger, { mode := 0#3, ixs := false, opd := 1#24 }, _, by decide +kernel, rfl⟩,
    ⟨(run1 {}), Core.foxA, { mode := 5#3, ixs := false, opd := 0xa#24 }, by decide +kernel⟩,
    ⟨{}, _, _, .nop .foxA ⟨0, false, 0⟩, _, _, wSome _ (by decide +kernel), rfl, by decide +kernel⟩,
    ⟨(let s : Chip := {}; let s := run1 s; { s with cores := { s.cores with foxA := { s.cores.foxA with pc := 0xFFFFFF, prefetch := [] } } }), _, _, .nop .foxA ⟨0, false, 0⟩, _, _, wSome _ (by decide +kernel), rfl, by decide +kernel⟩,
    ⟨(let s : Chip := {}; let s := run1 s; let s := { s with cores := { s.cores with foxA := { s.cores.foxA with pc := 0x100000, prefetch := [] } } }; { s with flc := { s.flc with busyA := true } }), _, _, .nop .foxA ⟨0, false, 0⟩, _, _, wSome _ (by decide +kernel), rfl, by decide +kernel⟩,
    ⟨(let s : Chip := {}; let s := run1 s; let s := { s with cores := { s.cores with foxA := { s.cores.foxA with prefetch := [] } } }; { s with sramErr := [0x10000] }), _, _, .nop .foxA ⟨0, false, 0⟩, _, _, wSome _ (by decide +kernel), rfl, by decide +kernel⟩⟩

theorem wit_RegisterInstructionFrame :
    ∃ (s : Chip) (c : Core) (n : BitVec 24) (o : Opnd) (i : Instr), (s.ready c) ∧ (o = { mode := 0, ixs := false, opd := n }) ∧ (i = Instr.lda c o) :=
  ⟨(run1 {}), Core.foxA, 0#24, _, _, by decide +kernel, rfl, rfl⟩

theorem wit_CalendarRoutines :
    (∃ (s : Chip) (u : Chip) (c : Core) (ret : Word) (a : BitVec 24) (sp : BitVec 24) (back : Chip → Nat → Prop) (code : Nat) (t : Nat), (s.coreRuns c = true) ∧ (u = s.drainAll c) ∧ (a = (s.core c).x) ∧ (sp = (s.core c).sp) ∧ ((65542 ≤ sp.toNat) ∧ (sp.toNat < 327680)) ∧ (u.rd sp.toNat = ret) ∧ ((u.sramBad sp.toNat = false) ∧ (isSram a.toNat = true) ∧ (isSram (a.toNat + 2) = true) ∧ (a.toNat + 2 < sp.toNat - 6 ∨ sp.toNat < a.toNat)) ∧ (∀ (d : Chip) (code : Nat), back d code ↔ (d.core c).a = W code ∧ (d.core c).pc = BitVec.setWidth 24 ret ∧ (d.core c).sp = sp + 1 ∧ (d.core c).x = a ∧ (d.core c).y = (s.core c).y ∧ (∀ (k : Nat), k ∈ [St.IE, 8, 9, St.SAT, St.TH] → BitVec.getLsbD (d.core c).st k = BitVec.getLsbD (s.core c).st k) ∧ ∀ (b : Nat), b < sp.toNat - 6 ∨ sp.toNat ≤ b → b < a.toNat ∨ a.toNat + 2 < b → d.rd b = u.rd b) ∧ ((s.core c).pc = 32) ∧ ((code, t) = calToSec (BitVec.toNat (u.rd a.toNat)) (BitVec.toNat (u.rd (a.toNat + 1)))))
    ∧ (∃ (s : Chip) (u : Chip) (c : Core) (ret : Word) (a : BitVec 24) (sp : BitVec 24) (back : Chip → Nat → Prop) (w0 : Nat) (w1 : Nat), (s.coreRuns c = true) ∧ (u = s.drainAll c) ∧ (a = (s.core c).x) ∧ (sp = (s.core c).sp) ∧ ((65542 ≤ sp.toNat) ∧ (sp.toNat < 327680)) ∧ (u.rd sp.toNat = ret) ∧ ((u.sramBad sp.toNat = false) ∧ (isSram a.toNat = true) ∧ (isSram (a.toNat + 2) = true) ∧ (a.toNat + 2 < sp.toNat - 6 ∨ sp.toNat < a.toNat)) ∧ (∀ (d : Chip) (code : Nat), back d code ↔ (d.core c).a = W code ∧ (d.core c).pc = BitVec.setWidth 24 ret ∧ (d.core c).sp = sp + 1 ∧ (d.core c).x = a ∧ (d.core c).y = (s.core c).y ∧ (∀ (k : Nat), k ∈ [St.IE, 8, 9, St.SAT, St.TH] → BitVec.getLsbD (d.core c).st k = BitVec.getLsbD (s.core c).st k) ∧ ∀ (b : Nat), b < sp.toNat - 6 ∨ sp.toNat ≤ b → b < a.toNat ∨ a.toNat + 2 < b → d.rd b = u.rd b) ∧ ((s.core c).pc = 34) ∧ ((w0, w1) = calFromSec (BitVec.toNat (u.rd (a.toNat + 2)))))
    ∧ (∃ (t : Nat), (t < 2 ^ 36))
    ∧ (∃ (date : Nat → Nat → Nat → Nat) (time : Nat → Nat → Nat → Nat) (w : Nat), (∀ (y m d : Nat), date y m d = y <<< 10 ||| m <<< 6 ||| d) ∧ (∀ (h m s : Nat), time h m s = h <<< 12 ||| m <<< 6 ||| s) ∧ (w = date 2023 4 31)) :=
  ⟨⟨(let s : Chip := {}; let s := { s with cores := { s.cores with badger := { s.cores.badger with x := 0x10000, sp := 0x10010, run := CoreRun.run, pc := 0x20 } } }; s.wr 0x10010 0), _, .badger, _, _, _, _, _, _, by decide +kernel, rfl, rfl, rfl, by decide +kernel, rfl, by decide +kernel, fun _ _ => Iff.rfl, by decide +kernel, rfl⟩,
    ⟨(let s : Chip := {}; let s := { s with cores := { s.cores with badger := { s.cores.badger with x := 0x10007, sp := 0x10006, run := CoreRun.run, pc := 0x22 } } }; s.wr 0x10006 0), _, .badger, _, _, _, _, _, _, by decide +kernel, rfl, rfl, rfl, by decide +kernel, rfl, by decide +kernel, fun _ _ => Iff.rfl, by decide +kernel, rfl⟩,
    ⟨0, by decide +kernel⟩,
    ⟨_, _, _, fun _ _ _ => rfl, fun _ _ _ => rfl, rfl⟩⟩

theorem wit_ClockSwitch :
    (∃ (s : Chip) (u : Chip) (v : Word) (n : Nat) (code : Nat), (n = BitVec.toNat v % 256) ∧ (code = s.clkFoxCheck n) ∧ (u = s.setReason R.CLK_STAT code) ∧ (foxRate (n % 16) = none ∨ foxRate (n / 16) = none))
    ∧ (∃ (s : Chip) (u : Chip) (v : Word) (n : Nat) (code : Nat), (n = BitVec.toNat v % 256) ∧ (code = s.clkFoxCheck n) ∧ (u = s.setReason R.CLK_STAT code) ∧ ((foxRate (n % 16)).isSome = true) ∧ ((foxRate (n / 16)).isSome = true) ∧ (s.lockedSec 1 = true))
    ∧ (∃ (s : Chip) (u : Chip) (v : Word) (n : Nat) (code : Nat), (n = BitVec.toNat v % 256) ∧ (code = s.clkFoxCheck n) ∧ (u = s.setReason R.CLK_STAT code) ∧ ((foxRate (n % 16)).isSome = true) ∧ ((foxRate (n / 16)).isSome = true) ∧ (s.lockedSec 1 = false) ∧ (n / 16 ≠ 0) ∧ (s.prov 7 = false))
    ∧ (∃ (s : Chip) (u : Chip) (v : Word) (n : Nat) (code : Nat), (n = BitVec.toNat v % 256) ∧ (code = s.clkFoxCheck n) ∧ (u = s.setReason R.CLK_STAT code) ∧ ((foxRate (n % 16)).isSome = true) ∧ ((foxRate (n / 16)).isSome = true) ∧ (s.lockedSec 1 = false) ∧ (n / 16 = 0 ∨ s.prov 7 = true) ∧ (8 ≤ n % 16 ∨ 8 ≤ n / 16) ∧ (s.cfg.pll = false))
    ∧ (∃ (s : Chip) (u : Chip) (v : Word) (n : Nat) (code : Nat), (n = BitVec.toNat v % 256) ∧ (code = s.clkFoxCheck n) ∧ (u = s.setReason R.CLK_STAT code) ∧ ((foxRate (n % 16)).isSome = true) ∧ ((foxRate (n / 16)).isSome = true) ∧ (s.lockedSec 1 = false) ∧ (n / 16 = 0 ∨ s.prov 7 = true) ∧ (n % 16 < 8 ∧ n / 16 < 8 ∨ s.cfg.pll = true) ∧ (n % 16 ≠ s.fld F.CLK_FOX_FOXA_SEL ∧ s.fitsCont 0 (coreClaimAt ((foxRate (n % 16)).getD 0)) = false ∨ n / 16 ≠ s.fld F.CLK_FOX_FOXB_SEL ∧ s.fitsCont 1 (coreClaimAt ((foxRate (n / 16)).getD 0)) = false))
    ∧ (∃ (s : Chip) (u : Chip) (v : Word) (n : Nat) (code : Nat), (n = BitVec.toNat v % 256) ∧ (code = s.clkFoxCheck n) ∧ (u = s.setReason R.CLK_STAT code) ∧ ((foxRate (n % 16)).isSome = true) ∧ ((foxRate (n / 16)).isSome = true) ∧ (s.lockedSec 1 = false) ∧ (n / 16 = 0 ∨ s.prov 7 = true) ∧ (n % 16 < 8 ∧ n / 16 < 8 ∨ s.cfg.pll = true) ∧ (n % 16 = s.fld F.CLK_FOX_FOXA_SEL ∨ s.fitsCont 0 (coreClaimAt ((foxRate (n % 16)).getD 0)) = true) ∧ (n / 16 = s.fld F.CLK_FOX_FOXB_SEL ∨ s.fitsCont 1 (coreClaimAt ((foxRate (n / 16)).getD 0)) = true) ∧ (n % 16 = 0 ∧ s.fld F.CLK_FOX_FOXA_SEL ≠ 0 ∧ s.cores.foxA.mayStop = false ∨ n / 16 = 0 ∧ s.fld F.CLK_FOX_FOXB_SEL ≠ 0 ∧ s.cores.foxB.mayStop = false))
    ∧ (∃ (s : Chip) (u : Chip) (v : Word) (n : Nat) (code : Nat), (n = BitVec.toNat v % 256) ∧ (code = s.clkFoxCheck n) ∧ (u = s.setReason R.CLK_STAT code) ∧ ((foxRate (n % 16)).isSome = true) ∧ ((foxRate (n / 16)).isSome = true) ∧ (s.lockedSec 1 = false) ∧ (n / 16 = 0 ∨ s.prov 7 = true) ∧ (n % 16 < 8 ∧ n / 16 < 8 ∨ s.cfg.pll = true) ∧ (n % 16 = s.fld F.CLK_FOX_FOXA_SEL ∨ s.fitsCont 0 (coreClaimAt ((foxRate (n % 16)).getD 0)) = true) ∧ (n / 16 = s.fld F.CLK_FOX_FOXB_SEL ∨ s.fitsCont 1 (coreClaimAt ((foxRate (n / 16)).getD 0)) = true) ∧ (n % 16 ≠ 0 ∨ s.fld F.CLK_FOX_FOXA_SEL = 0 ∨ s.cores.foxA.mayStop = true) ∧ (n / 16 ≠ 0 ∨ s.fld F.CLK_FOX_FOXB_SEL = 0 ∨ s.cores.foxB.mayStop = true))
    ∧ (∃ (s : Chip) (u : Chip) (v : Word) (n : Nat) (code : Nat), (n = BitVec.toNat v % 256) ∧ (code = s.clkFoxCheck n) ∧ (u = s.setReason R.CLK_STAT code) ∧ (code ≠ Rc.OK))
    ∧ (∃ (s : Chip) (u : Chip) (v : Word) (n : Nat) (code : Nat), (n = BitVec.toNat v % 256) ∧ (code = s.clkFoxCheck n) ∧ (u = s.setReason R.CLK_STAT code) ∧ (code = Rc.OK) ∧ ((u.setReg R.CLK_FOX (W n)).highestRate ≤ u.highestRate))
    ∧ (∃ (s : Chip) (u : Chip) (v : Word) (n : Nat) (code : Nat), (n = BitVec.toNat v % 256) ∧ (code = s.clkFoxCheck n) ∧ (u = s.setReason R.CLK_STAT code) ∧ (code = Rc.OK) ∧ (u.highestRate < (u.setReg R.CLK_FOX (W n)).highestRate))
    ∧ (∃ (s : Chip) (u : Chip) (v : Word) (n : Nat) (code : Nat) (w : Word) (a : Agent), (n = BitVec.toNat v % 256) ∧ (code = s.clkFoxCheck n) ∧ (u = s.setReason R.CLK_STAT code) ∧ (s.clk.foxStall = some (w, a)))
    ∧ (∃ (s : Chip) (u : Chip) (v : Word) (n : Nat) (code : Nat), (n = BitVec.toNat v % 256) ∧ (code = s.clkFoxCheck n) ∧ (u = s.setReason R.CLK_STAT code) ∧ (s.clk.pllOn = true) ∧ (s.bit F.CLK_STAT_PLLLOCK = false)) :=
  ⟨⟨{}, _, 3#36, _, _, rfl, rfl, rfl, by decide +kernel⟩,
    ⟨(let s : Chip := {}; s.setReg R.SSM_LOCK (W 2)), _, 0#36, _, _, rfl, rfl, rfl, by decide +kernel⟩,
    ⟨{}, _, 0x10#36, _, _, rfl, rfl, rfl, by decide +kernel⟩,
    ⟨{}, _, 8#36, _, _, rfl, rfl, rfl, by decide +kernel⟩,
    ⟨(let s : Chip := {}; s.setFld F.CLK_FOX_FOXA_SEL 0), _, 1#36, _, _, rfl, rfl, rfl, by decide +kernel⟩,
    ⟨{}, _, 0#36, _, _, rfl, rfl, rfl, by decide +kernel⟩,
    ⟨(let s : Chip := {}; let s := { s with cfg := { s.cfg with pll := true } }; s.setReg R.EGY_SUPPLY (W 32)), _, 1#36, _, _, rfl, rfl, rfl, by decide +kernel⟩,
    ⟨{}, _, 0#36, _, _, rfl, rfl, rfl, by decide +kernel⟩,
    ⟨(let s : Chip := {}; { s with cores := { s.cores with foxA := { s.cores.foxA with halted := true } } }), _, 0#36, _, _, rfl, rfl, rfl, by decide +kernel⟩,
    ⟨(let s : Chip := {}; let s := { s with bear := { s.bear with c := (10 ^ 9, 1), level := 10 ^ 18, valid := true } }; let s := s.setFld F.EGY_CAP_CAP 60000; let s := s.setFld F.EGY_SUPPLY_REFILL 2000; { s with cfg := { s.cfg with pll := true } }), _, 8#36, _, _, rfl, rfl, rfl, by decide +kernel⟩,
    ⟨(let s : Chip := {}; { s with clk := { s.clk with foxStall := some (0#36, Agent.foxA) } }), _, 0#36, _, _, _, _, rfl, rfl, rfl, wSome _ (by decide +kernel)⟩,
    ⟨(let s : Chip := {}; { s with clk := { s.clk with pllOn := true } }), _, 0#36, _, _, rfl, rfl, rfl, by decide +kernel⟩⟩

theorem wit_PlainRegisters :
    (∃ (n : Nat), (n < 256))
    ∧ (∃ (a : Nat), (isReg a = false))
    ∧ (∃ (s : Chip) (ag : Agent) (b : Block) (l : Live), ((b = Block.syn ∨ b = Block.rfe) ∧ (s.radioOwner ag = true) ∧ (s.bit { addr := blockCtl b, hi := 0, lo := 0 } = true)) ∧ (s.lnk.live = some l))
    ∧ (∃ (s : Chip) (b : Block), (s.stopping.contains b = false))
    ∧ (∃ (s : Chip) (t : Chip) (b : Block), (s.stopping.contains b = true) ∧ (t = { s with stopping := List.filter (fun (x : Block) => decide (x ≠ b)) s.stopping }.setBit { addr := blockStat b, hi := 8, lo := 8 } false) ∧ (b = Block.syn ∨ b = Block.rfe ∨ b = Block.mdm) ∧ (s.lnk.live = none) ∧ (s.syn.job = SynJob.idle))
    ∧ (∃ (s : Chip) (t : Chip) (b : Block), (s.stopping.contains b = true) ∧ (t = { s with stopping := List.filter (fun (x : Block) => decide (x ≠ b)) s.stopping }.setBit { addr := blockStat b, hi := 8, lo := 8 } false) ∧ (b = Block.syn ∨ b = Block.rfe ∨ b = Block.mdm) ∧ (s.lnk.live ≠ none ∨ s.syn.job ≠ SynJob.idle))
    ∧ (∃ (s : Chip) (t : Chip) (b : Block), (s.stopping.contains b = true) ∧ (t = { s with stopping := List.filter (fun (x : Block) => decide (x ≠ b)) s.stopping }.setBit { addr := blockStat b, hi := 8, lo := 8 } false) ∧ (b = Block.cx))
    ∧ (∃ (s : Chip) (t : Chip) (b : Block), (s.stopping.contains b = true) ∧ (t = { s with stopping := List.filter (fun (x : Block) => decide (x ≠ b)) s.stopping }.setBit { addr := blockStat b, hi := 8, lo := 8 } false) ∧ (b = Block.cph) ∧ (∀ (u : Nat), u < 4 → s.pageState u = 0))
    ∧ (∃ (s : Chip) (t : Chip) (b : Block) (u : Nat), (s.stopping.contains b = true) ∧ (t = { s with stopping := List.filter (fun (x : Block) => decide (x ≠ b)) s.stopping }.setBit { addr := blockStat b, hi := 8, lo := 8 } false) ∧ (b = Block.cph) ∧ (u < 4) ∧ (s.pageState u ≠ 0))
    ∧ (∃ (s : Chip) (t : Chip) (b : Block), (s.stopping.contains b = true) ∧ (t = { s with stopping := List.filter (fun (x : Block) => decide (x ≠ b)) s.stopping }.setBit { addr := blockStat b, hi := 8, lo := 8 } false) ∧ (b = Block.hp) ∧ (s.hcsLow = false))
    ∧ (∃ (s : Chip) (t : Chip) (b : Block), (s.stopping.contains b = true) ∧ (t = { s with stopping := List.filter (fun (x : Block) => decide (x ≠ b)) s.stopping }.setBit { addr := blockStat b, hi := 8, lo := 8 } false) ∧ (b = Block.hp) ∧ (s.hcsLow = true))
    ∧ (∃ (s : Chip) (t : Chip) (b : Block), (s.stopping.contains b = true) ∧ (t = { s with stopping := List.filter (fun (x : Block) => decide (x ≠ b)) s.stopping }.setBit { addr := blockStat b, hi := 8, lo := 8 } false) ∧ (b = Block.nfc) ∧ (s.nfc.mbox ≠ none ∨ s.nfc.rd.ph ≠ RdPhase.off ∨ s.nfc.reply ≠ none ∨ s.holds 8 = true))
    ∧ (∃ (s : Chip) (t : Chip) (b : Block), (s.stopping.contains b = true) ∧ (t = { s with stopping := List.filter (fun (x : Block) => decide (x ≠ b)) s.stopping }.setBit { addr := blockStat b, hi := 8, lo := 8 } false) ∧ (b = Block.lnk) ∧ (s.pins.windows ≠ 0 ∨ s.lnk.live ≠ none))
    ∧ (∃ (s : Chip) (t : Chip) (b : Block), (s.stopping.contains b = true) ∧ (t = { s with stopping := List.filter (fun (x : Block) => decide (x ≠ b)) s.stopping }.setBit { addr := blockStat b, hi := 8, lo := 8 } false) ∧ (b = Block.lnk) ∧ (s.pins.windows = 0) ∧ (s.lnk.live = none))
    ∧ (∃ (s : Chip), (s.stopping.contains Block.nfc = true) ∧ (s.nfc.mbox = none) ∧ (s.nfc.rd.ph = RdPhase.off) ∧ (s.nfc.reply = none) ∧ (s.holds 8 = false)) :=
  ⟨⟨0, by decide +kernel⟩,
    ⟨0, by decide +kernel⟩,
    ⟨(let s : Chip := {}; let s := s.setReg R.SYN_CTL (W 1); { s with lnk := { s.lnk with live := some { c := { cls := 0, asn := 0, b := 0, index := 0, w0 := 0, w1 := 0, tx := false, q := 0, ch := 0, freq := none, guard := 0, window := false, marked := false, stamp := none, ended := none }, freq := 0, m := 0, mset := 0, granted := false, held := false, cxHeld := false, rampAt := none, txEnd := none, abort := none, pwr := 0, octets := [], e := 0, win := none, ack := none, deliver := none, reason := 0, txd := false, rxd := false, ackok := false, corr := none, corrUsed := false, txenUp := false } } }), Agent.foxA, Block.syn, _, by decide +kernel, wSome _ (by decide +kernel)⟩,
    ⟨{}, Block.syn, by decide +kernel⟩,
    ⟨(let s : Chip := {}; { s with stopping := [Block.syn, Block.mdm] }), _, Block.syn, by decide +kernel, rfl, by decide +kernel⟩,
    ⟨(let s : Chip := {}; let s := { s with lnk := { s.lnk with live := some { c := { cls := 0, asn := 0, b := 0, index := 0, w0 := 0, w1 := 0, tx := false, q := 0, ch := 0, freq := none, guard := 0, window := false, marked := false, stamp := none, due := false, ended := none, entry := none }, freq := 0, m := 0, mset := 0, ramp := 0, lead := 0, hi := 0, rxw := 0, fs := 0, taps := [], cxTx := false, cxRx := false, cxLoss := false, granted := false, held := false, cxHeld := false, rampAt := none, txEnd := none, abort := none, pwr := 0, octets := [], e := 0, win := none, ack := none, deliver := none, reason := 0, txd := false, rxd := false, ackok := false, corr := none, corrUsed := false, txenUp := false, done := none } } }; { s with stopping := [Block.syn, Block.syn, Block.rfe] }), _, Block.syn, by decide +kernel, rfl, by decide +kernel⟩,
    ⟨(let s : Chip := {}; { s with stopping := [Block.syn, Block.cx] }), _, _, by decide +kernel, rfl, rfl⟩,
    ⟨(let s : Chip := {}; { s with stopping := [Block.cph] }), _, _, by decide +kernel, rfl, rfl, by decide +kernel⟩,
    ⟨(let s : Chip := {}; let s := { s with stopping := [Block.cph] }; s.setFld (F.CPH_USTAT_STATE 3) 1), _, _, 3, by decide +kernel, rfl, rfl, by decide +kernel⟩,
    ⟨(let s : Chip := {}; { s with stopping := [Block.syn, Block.hp] }), _, _, by decide +kernel, rfl, rfl, by decide +kernel⟩,
    ⟨(let s : Chip := {}; let s := { s with stopping := [Block.syn, Block.syn, Block.hp] }; let s := hostBase s; { s with pins := { s.pins with pad := 0 } }), _, _, by decide +kernel, rfl, rfl, by decide +kernel⟩,
    ⟨(let s : Chip := {}; let s := { s with nfc := { s.nfc with mbox := some { slot := 0, next := 0, words := [], levels := [], rtype := 0, seq := 0, stamp := { lo := 0, seq := 0, fv := false, fine := 0 }, wtxAt := none } } }; { s with stopping := [Block.nfc] }), _, _, by decide +kernel, rfl, rfl, by decide +kernel⟩,
    ⟨(let s : Chip := {}; let s := { s with lnk := { s.lnk with live := some { c := { cls := 0, asn := 0, b := 0, index := 0, w0 := 0, w1 := 0, tx := false, q := 0, ch := 0, freq := none, guard := 0, window := false, marked := false, stamp := none, due := false, ended := none, entry := none }, freq := 0, m := 0, mset := 0, ramp := 0, lead := 0, hi := 0, rxw := 0, fs := 0, taps := [], cxTx := false, cxRx := false, cxLoss := false, granted := false, held := false, cxHeld := false, rampAt := none, txEnd := none, abort := none, pwr := 0, octets := [], e := 0, win := none, ack := none, deliver := none, reason := 0, txd := false, rxd := false, ackok := false, corr := none, corrUsed := false, txenUp := false, done := none } } }; { s with stopping := [Block.syn, Block.lnk] }), _, _, by decide +kernel, rfl, rfl, by decide +kernel⟩,
    ⟨(let s : Chip := {}; { s with stopping := [Block.lnk] }), _, _, by decide +kernel, rfl, rfl, by decide +kernel⟩,
    ⟨(let s : Chip := {}; { s with stopping := [Block.syn, Block.syn, Block.nfc] }), by decide +kernel⟩⟩

theorem wit_Resets :
    (∃ (a : Nat), (a ≠ R.NFC_STAT))
    ∧ (∃ (s : Chip) (t : Chip) (d : Detector) (b : Nat) (n : Nat), ((d = Detector.vin ∧ b = 9 ∨ d = Detector.vsys ∧ b = 10 ∨ d = Detector.vcore ∧ b = 11) ∧ (s.pwr.st = PState.run ∨ s.pwr.st = PState.sleep)) ∧ (t = s.brownout b) ∧ (n < 256))
    ∧ (∃ (s : Chip) (t : Chip) (d : Detector) (b : Nat) (a : Nat), ((d = Detector.vin ∧ b = 9 ∨ d = Detector.vsys ∧ b = 10 ∨ d = Detector.vcore ∧ b = 11) ∧ (s.pwr.st = PState.run ∨ s.pwr.st = PState.sleep)) ∧ (t = s.brownout b) ∧ (R.RTC_CTL ≤ a) ∧ (a ≤ R.RTC_CFG))
    ∧ (∃ (s : Chip) (t : Chip) (d : Detector) (b : Nat) (a : Nat), ((d = Detector.vin ∧ b = 9 ∨ d = Detector.vsys ∧ b = 10 ∨ d = Detector.vcore ∧ b = 11) ∧ (s.pwr.st = PState.run ∨ s.pwr.st = PState.sleep)) ∧ (t = s.brownout b) ∧ (owlReg a = false) ∧ (a ≠ R.FLC_STAT) ∧ (a ≠ R.NFC_STAT) ∧ (a ≠ R.MON_CELL))
    ∧ (∃ (s : Chip), (s.pwr.st = PState.ship))
    ∧ (∃ (ns : Nat), (ns < 500))
    ∧ (∃ (s : Chip) (ns : Nat), (2000 ≤ ns) ∧ (s.pwr.st ≠ PState.ship) ∧ (s.flc.pulsing = false))
    ∧ (∃ (s : Chip) (ns : Nat), (500 ≤ ns) ∧ (ns < 2000) ∧ (s.pwr.st ≠ PState.ship) ∧ (s.flc.pulsing = false))
    ∧ (∃ (s : Chip) (ns : Nat), (500 ≤ ns) ∧ (ns < 2000) ∧ (s.pwr.st = PState.ship))
    ∧ (∃ (s : Chip) (ns : Nat), (2000 ≤ ns) ∧ (s.pwr.st = PState.ship)) :=
  ⟨⟨0, by decide +kernel⟩,
    ⟨{}, _, Detector.vin, 9, 0, by decide +kernel, rfl, by decide +kernel⟩,
    ⟨{}, _, Detector.vin, 9, 3215360, by decide +kernel, rfl, by decide +kernel⟩,
    ⟨{}, _, Detector.vsys, 10, 0, by decide +kernel, rfl, by decide +kernel⟩,
    ⟨(let s : Chip := {}; { s with pwr := { s.pwr with st := PState.ship } }), by decide +kernel⟩,
    ⟨0, by decide +kernel⟩,
    ⟨{}, 2000, by decide +kernel⟩,
    ⟨{}, 500, by decide +kernel⟩,
    ⟨(let s : Chip := {}; { s with pwr := { s.pwr with st := PState.ship } }), 500, by decide +kernel⟩,
    ⟨(let s : Chip := {}; { s with pwr := { s.pwr with st := PState.ship } }), 2000, by decide +kernel⟩⟩

theorem wit_RestRequests :
    (∃ (ag : Agent) (v : Word) (d : Nat), (d = bits (BitVec.toNat v) 17 16) ∧ (ag = Agent.badger))
    ∧ (∃ (s : Chip) (ag : Agent) (v : Word) (d : Nat) (x : Chip), (d = bits (BitVec.toNat v) 17 16) ∧ (ag ≠ Agent.badger) ∧ (x = if bits (BitVec.toNat v) 15 0 = s.fld F.PMU_REQ_RET then s else s.setFld F.PMU_REQ_RET (bits (BitVec.toNat v) 15 0)) ∧ (bits (BitVec.toNat v) 15 0 = s.fld F.PMU_REQ_RET ∨ s.lockedSec 2 = false) ∧ (s.fld F.PMU_REQ_MAXDEPTH < d))
    ∧ (∃ (s : Chip) (ag : Agent) (v : Word) (d : Nat) (x : Chip), (d = bits (BitVec.toNat v) 17 16) ∧ (ag ≠ Agent.badger) ∧ (x = if bits (BitVec.toNat v) 15 0 = s.fld F.PMU_REQ_RET then s else s.setFld F.PMU_REQ_RET (bits (BitVec.toNat v) 15 0)) ∧ (bits (BitVec.toNat v) 15 0 = s.fld F.PMU_REQ_RET ∨ s.lockedSec 2 = false) ∧ (d ≤ s.fld F.PMU_REQ_MAXDEPTH) ∧ (d = s.fld F.PMU_REQ_DEPTH))
    ∧ (∃ (s : Chip) (ag : Agent) (v : Word) (d : Nat) (x : Chip), (d = bits (BitVec.toNat v) 17 16) ∧ (ag ≠ Agent.badger) ∧ (x = if bits (BitVec.toNat v) 15 0 = s.fld F.PMU_REQ_RET then s else s.setFld F.PMU_REQ_RET (bits (BitVec.toNat v) 15 0)) ∧ (bits (BitVec.toNat v) 15 0 = s.fld F.PMU_REQ_RET ∨ s.lockedSec 2 = false) ∧ (d ≤ s.fld F.PMU_REQ_MAXDEPTH) ∧ (d ≠ s.fld F.PMU_REQ_DEPTH) ∧ (s.holder 0 = true ∧ 1 ≤ d ∨ s.holder 1 = true ∧ 2 ≤ d))
    ∧ (∃ (s : Chip) (ag : Agent) (v : Word) (d : Nat) (x : Chip) (y : Chip), (d = bits (BitVec.toNat v) 17 16) ∧ (ag ≠ Agent.badger) ∧ (x = if bits (BitVec.toNat v) 15 0 = s.fld F.PMU_REQ_RET then s else s.setFld F.PMU_REQ_RET (bits (BitVec.toNat v) 15 0)) ∧ ((bits (BitVec.toNat v) 15 0 = s.fld F.PMU_REQ_RET ∨ s.lockedSec 2 = false) ∧ (d ≤ s.fld F.PMU_REQ_MAXDEPTH) ∧ (d ≠ s.fld F.PMU_REQ_DEPTH) ∧ (s.holder 0 = false ∨ d = 0) ∧ (s.holder 1 = false ∨ d ≤ 1)) ∧ (y = if bits (BitVec.toNat v) 15 0 = s.fld F.PMU_REQ_RET then s.setFld F.PMU_REQ_DEPTH d else (s.setFld F.PMU_REQ_DEPTH d).setFld F.PMU_REQ_RET (bits (BitVec.toNat v) 15 0)))
    ∧ (∃ (s : Chip) (ag : Agent) (v : Word) (d : Nat) (x : Chip), (d = bits (BitVec.toNat v) 17 16) ∧ (ag ≠ Agent.badger) ∧ (x = if bits (BitVec.toNat v) 15 0 = s.fld F.PMU_REQ_RET then s else s.setFld F.PMU_REQ_RET (bits (BitVec.toNat v) 15 0)) ∧ (bits (BitVec.toNat v) 15 0 ≠ s.fld F.PMU_REQ_RET) ∧ (s.lockedSec 2 = true) ∧ (d = s.fld F.PMU_REQ_DEPTH) ∧ (d ≤ s.fld F.PMU_REQ_MAXDEPTH)) :=
  ⟨⟨_, 0#36, _, rfl, rfl⟩,
    ⟨{}, Agent.foxA, 0x1ad8f2#36, _, _, rfl, by decide +kernel, rfl, by decide +kernel⟩,
    ⟨{}, Agent.foxA, 0#36, _, _, rfl, by decide +kernel, rfl, by decide +kernel⟩,
    ⟨(let s : Chip := {}; let s := s.setReg (R.TMRN_CTL 0) (W 1); s.setFld F.PMU_REQ_MAXDEPTH 3), Agent.foxA, 0x7d000#36, _, _, rfl, by decide +kernel, rfl, by decide +kernel⟩,
    ⟨{}, Agent.foxA, 0x310100#36, _, _, _, rfl, by decide +kernel, rfl, by decide +kernel, rfl⟩,
    ⟨(let s : Chip := {}; s.setReg R.SSM_LOCK (W 4)), Agent.foxA, 0#36, _, _, rfl, by decide +kernel, rfl, by decide +kernel⟩⟩

theorem wit_SupplyWarnings :
    (∃ (s : Chip), (s.pwr.st ≠ PState.ship) ∧ (s.bit F.PMU_BOD_VINW = false))
    ∧ (∃ (s : Chip), (s.pwr.st ≠ PState.ship) ∧ (s.bit F.PMU_BOD_VINW = true))
    ∧ (∃ (s : Chip), (s.pwr.st = PState.run ∨ s.pwr.st = PState.sleep))
    ∧ (∃ (s : Chip), (s.bit F.PMU_BOD_VINW = true ∨ s.bit F.PMU_BOD_VSYSW = true))
    ∧ (∃ (s : Chip), (s.bit F.PMU_BOD_VINW = false) ∧ (s.bit F.PMU_BOD_VSYSW = false))
    ∧ (∃ (th : Nat) (t : Int), (th ≤ 2) ∧ (120 ≤ t))
    ∧ (∃ (th : Nat) (t : Int), ((th ≤ 2) ∧ (115 ≤ t)) ∧ (th = 2))
    ∧ (∃ (th : Nat) (t : Int), (th ≤ 2) ∧ (110 ≤ t) ∧ (t < 115))
    ∧ (∃ (th : Nat) (t : Int), (th ≤ 2) ∧ (110 ≤ t) ∧ (t < 120) ∧ (th ≤ 1))
    ∧ (∃ (th : Nat) (t : Int), ((th ≤ 2) ∧ (105 ≤ t) ∧ (t < 110)) ∧ (th = 0))
    ∧ (∃ (th : Nat) (t : Int), (th ≤ 2) ∧ (105 ≤ t) ∧ (t < 110) ∧ (th ≠ 0))
    ∧ (∃ (th : Nat) (t : Int), (th ≤ 2) ∧ (t < 105))
    ∧ (∃ (s : Chip) (u : Chip) (t : Int), (u = (s.setFld F.EGY_STAT_TEMP (t % 512).toNat).setFld F.EGY_STAT_THERM (thermNext (s.fld F.EGY_STAT_THERM) t)) ∧ (thermNext (s.fld F.EGY_STAT_THERM) t = s.fld F.EGY_STAT_THERM))
    ∧ (∃ (s : Chip) (u : Chip) (t : Int), (u = (s.setFld F.EGY_STAT_TEMP (t % 512).toNat).setFld F.EGY_STAT_THERM (thermNext (s.fld F.EGY_STAT_THERM) t)) ∧ (thermNext (s.fld F.EGY_STAT_THERM) t ≠ s.fld F.EGY_STAT_THERM)) :=
  ⟨⟨{}, by decide +kernel⟩,
    ⟨(let s : Chip := {}; s.setBit F.PMU_BOD_VINW true), by decide +kernel⟩,
    ⟨{}, by decide +kernel⟩,
    ⟨(let s : Chip := {}; s.setFld F.PMU_BOD_VINW 1), by decide +kernel⟩,
    ⟨{}, by decide +kernel⟩,
    ⟨0, 120, by decide +kernel⟩,
    ⟨_, 115, by decide +kernel, rfl⟩,
    ⟨0, 110, by decide +kernel⟩,
    ⟨0, 110, by decide +kernel⟩,
    ⟨_, 105, by decide +kernel, rfl⟩,
    ⟨1, 105, by decide +kernel⟩,
    ⟨0, 0, by decide +kernel⟩,
    ⟨{}, _, 0, rfl, by decide +kernel⟩,
    ⟨{}, _, 110, rfl, by decide +kernel⟩⟩

theorem wit_RestAndWake :
    (∃ (s : Chip) (p : PState), (s.pwr.entering = some p))
    ∧ (∃ (s : Chip) (p : PState), (s.pwr.entering = none) ∧ (s.restDepth = some p))
    ∧ (∃ (s : Chip), (s.pwr.entering = none) ∧ (s.restDepth = none))
    ∧ (∃ (s : Chip) (p : PState), (s.restDepth = some p) ∧ (p = PState.hibernate ∨ p = PState.ship))
    ∧ (∃ (s : Chip) (p : PState), (s.restDepth = some p) ∧ (p = PState.sleep))
    ∧ (∃ (s : Chip) (t : Nat), (s.pwr.linkWakeAt = some t))
    ∧ (∃ (s : Chip), (s.pwr.st = PState.sleep ∨ s.pwr.st = PState.hibernate))
    ∧ (∃ (s : Chip), (s.pwr.entering = none) ∧ (s.pwr.st = PState.sleep) ∧ (s.pwr.wakeSrc = 0))
    ∧ (∃ (s : Chip) (d : Chip) (n : Nat) (rise : Bool), (n < 24) ∧ (d = (s.drivePin n rise).setFld { addr := R.PIN_WAKE, hi := n, lo := n } 1) ∧ ((s.pins.cur.getD n 0 ≠ if rise = true then Mean.WAKE_RISE else Mean.WAKE_FALL) ∨ s.padIn n = rise ∨ s.pinPowered n = false ∨ s.pins.phase ≠ Phase.rest ∨ s.pwr.st = PState.ship))
    ∧ (∃ (s : Chip) (d : Chip) (n : Nat) (rise : Bool), (n < 24) ∧ (d = (s.drivePin n rise).setFld { addr := R.PIN_WAKE, hi := n, lo := n } 1) ∧ (s.pins.cur.getD n 0 = if rise = true then Mean.WAKE_RISE else Mean.WAKE_FALL) ∧ (s.padIn n ≠ rise) ∧ (s.pinPowered n = true) ∧ (s.pins.phase = Phase.rest) ∧ (s.pwr.st ≠ PState.ship) ∧ (s.pwr.entering = none))
    ∧ (∃ (s : Chip) (d : Chip) (n : Nat) (rise : Bool), (n < 24) ∧ (d = (s.drivePin n rise).setFld { addr := R.PIN_WAKE, hi := n, lo := n } 1) ∧ (s.pins.cur.getD n 0 = if rise = true then Mean.WAKE_RISE else Mean.WAKE_FALL) ∧ (s.padIn n ≠ rise) ∧ (s.pinPowered n = true) ∧ (s.pins.phase = Phase.rest) ∧ (s.pwr.st ≠ PState.ship) ∧ (s.pwr.entering.isSome = true))
    ∧ (∃ (s : Chip) (t : Chip) (u : Chip), ((s.pwr.st = PState.sleep) ∧ (s.pwr.wakeGranted = true)) ∧ (u = ({ (s.takeCause 1) with pwr := { ((s.takeCause 1).pwr) with st := PState.run } }).setVcore.startHf) ∧ (t = u.enterPhase (if u.pins.windows = 0 then Phase.run else Phase.slot)))
    ∧ (∃ (s : Chip) (t : Chip) (m : SupplyMeas), ((s.pwr.wakeSrc ≠ 0) ∧ (s.pwr.wakeGranted = false) ∧ (s.bear.measuring = true ∨ s.wakeMeasDue = true ∧ s.syncLevel.measLevelOk = true)) ∧ (t = (s.measDone m).admission)) :=
  ⟨⟨(let s : Chip := {}; { s with pwr := { s.pwr with entering := some (PState.run) } }), _, wSome _ (by decide +kernel)⟩,
    ⟨(let s : Chip := run1 {}; let s := { s with cores := { s.cores with foxA := { s.cores.foxA with run := CoreRun.held } } }; s.setFld F.PMU_REQ_DEPTH 1), _, by decide +kernel, wSome _ (by decide +kernel)⟩,
    ⟨{}, by decide +kernel⟩,
    ⟨(let s : Chip := run1 {}; let s := { s with cores := { s.cores with foxA := { s.cores.foxA with run := .held } } }; s.setFld F.PMU_REQ_DEPTH 2), _, wSome _ (by decide +kernel), by decide +kernel⟩,
    ⟨(let s : Chip := run1 {}; let s := { s with cores := { s.cores with foxA := { s.cores.foxA with run := .held } } }; s.setFld F.PMU_REQ_DEPTH 1), _, wSome _ (by decide +kernel), by decide +kernel⟩,
    ⟨(let s : Chip := {}; { s with pwr := { s.pwr with linkWakeAt := some 0 } }), _, wSome _ (by decide +kernel)⟩,
    ⟨(let s : Chip := {}; { s with pwr := { s.pwr with st := PState.sleep } }), by decide +kernel⟩,
    ⟨(let s : Chip := {}; { s with pwr := { s.pwr with st := PState.sleep } }), by decide +kernel⟩,
    ⟨{}, _, 0, false, by decide +kernel, rfl, by decide +kernel⟩,
    ⟨(let s : Chip := {}; let s := { s with pins := { s.pins with phase := Phase.rest } }; { s with pins := { s.pins with cur := [0, 2] } }), _, 1, true, by decide +kernel, rfl, by decide +kernel⟩,
    ⟨(let s : Chip := {}; let s := { s with pins := { s.pins with driven := 1 } }; let s := { s with pwr := { s.pwr with entering := some (PState.run) } }; let s := { s with pins := { s.pins with cur := [2] } }; { s with pins := { s.pins with phase := Phase.rest } }), _, 0, true, by decide +kernel, rfl, by decide +kernel⟩,
    ⟨(let s : Chip := {}; { s with pwr := { s.pwr with st := .sleep, wakeGranted := true } }), _, _, by decide +kernel, rfl, rfl⟩,
    ⟨(let s : Chip := {}; let s := { s with pwr := { s.pwr with wakeSrc := 1, wakeGranted := false } }; { s with bear := { s.bear with measuring := true } }), _, { vin2 := 0, vin10 := 0, vbs2 := 0, vbs10 := 0, vinBefore := 0, vinAfter := 0, vbsBefore := 0, vbsAfter := 0, charge := 0, fall := 0, vsys := 0 }, by decide +kernel, rfl⟩⟩

theorem wit_BootSteps :
    (∃ (s : Chip) (t : Chip) (m : SupplyMeas), ((s.pwr.bootPending = true) ∧ (s.pwr.bootHeld = false) ∧ (s.boot.ph = BootPh.idle) ∧ (s.pwr.st = PState.run) ∧ (s.nfc.harvest = false)) ∧ (t = s.bootJournals.measDone m) ∧ (t.bear.valid = true) ∧ (9 ≤ t.fld F.EGY_SUPPLY_REFILL))
    ∧ (∃ (s : Chip) (t : Chip) (m : SupplyMeas), ((s.pwr.bootPending = true) ∧ (s.pwr.bootHeld = false) ∧ (s.boot.ph = BootPh.idle) ∧ (s.pwr.st = PState.run) ∧ (s.nfc.harvest = false)) ∧ (t = s.bootJournals.measDone m) ∧ (t.bear.valid = false ∨ t.fld F.EGY_SUPPLY_REFILL < 9))
    ∧ (∃ (s : Chip) (t : Chip) (m : SupplyMeas), ((s.pwr.bootPending = true) ∧ (s.pwr.bootHeld = true) ∧ (s.bear.measuring = true ∨ s.syncLevel.measLevelOk = true)) ∧ (t = (s.setBear ({ s.bear with retryAt := none })).measDone m) ∧ (t.bear.valid = true) ∧ (9 ≤ t.fld F.EGY_SUPPLY_REFILL))
    ∧ (∃ (s : Chip) (t : Chip) (m : SupplyMeas), ((s.pwr.bootPending = true) ∧ (s.pwr.bootHeld = true) ∧ (s.bear.measuring = true ∨ s.syncLevel.measLevelOk = true)) ∧ (t = (s.setBear ({ s.bear with retryAt := none })).measDone m) ∧ (t.bear.valid = false ∨ t.fld F.EGY_SUPPLY_REFILL < 9))
    ∧ (∃ (s : Chip) (t : Nat) (k : Nat) (low : Bool) (all : Bool), (s.boot.ph = BootPh.bootsel t k low) ∧ (all = (low && !s.inputLevel Mean.BOOTSEL)) ∧ (s.now < t))
    ∧ (∃ (s : Chip) (t : Nat) (k : Nat) (low : Bool) (all : Bool), (s.boot.ph = BootPh.bootsel t k low) ∧ (all = (low && !s.inputLevel Mean.BOOTSEL)) ∧ (t ≤ s.now) ∧ (k < 2))
    ∧ (∃ (s : Chip) (t : Nat) (k : Nat) (low : Bool) (all : Bool), (s.boot.ph = BootPh.bootsel t k low) ∧ (all = (low && !s.inputLevel Mean.BOOTSEL)) ∧ (t ≤ s.now) ∧ (2 ≤ k))
    ∧ (∃ (s : Chip) (t : Chip), (t = { s with pwr := { s.pwr with bootPending := false, bootHeld := false }, boot := { s.boot with ph := BootPh.idle, p0low := true, warm := false } }) ∧ (s.forerunner = false))
    ∧ (∃ (s : Chip) (t : Chip) (w : Bool) (low : Bool), (t = { s with pwr := { s.pwr with bootPending := false, bootHeld := false }, boot := { s.boot with ph := BootPh.idle, p0low := low, warm := w } }) ∧ (low = false ∨ s.forerunner = true) ∧ (t.applyStream.imageCheck false (w && t.applyStream.owl.imgok) ≠ Rc.OK))
    ∧ (∃ (s : Chip), (s.forerunner = true))
    ∧ (∃ (s : Chip) (u : Chip) (c : Core) (l : List Core), ((s.boot.ph = BootPh.release) ∧ (s.boot.granted = true)) ∧ (s.boot.todo = c :: l) ∧ (u = if s.pins.phase = Phase.boot then (s.setCore c { a := 0, x := 0, y := 0, pc := s.coreEntry c, sp := 327680, st := 0, mhi := 0, mlo := 0, crcp := 7, vbr := 64, tcause := 0, taddr := 0, cyc := 0, run := CoreRun.run, halted := false, clkHeld := false, flight := [], lastMul := none, wbuf := [], prefetch := [], lastCyc := 0, seqNext := false, badDec := [false], fromRom := false }).enterPhase Phase.run else s.setCore c { a := 0, x := 0, y := 0, pc := s.coreEntry c, sp := 327680, st := 0, mhi := 0, mlo := 0, crcp := 7, vbr := 64, tcause := 0, taddr := 0, cyc := 0, run := CoreRun.run, halted := false, clkHeld := false, flight := [], lastMul := none, wbuf := [], prefetch := [], lastCyc := 0, seqNext := false, badDec := [false], fromRom := false }))
    ∧ (∃ (s : Chip) (t : Chip) (u : Chip) (v : Chip), ((s.pwr.st = PState.hibernate) ∧ (s.pwr.wakeGranted = true)) ∧ (t = (s.takeCause 2).syncLevel) ∧ (u = t.clearAllButOwl.restoreSupply) ∧ (v = (u.setBear ({ u.bear with level := t.bear.level, levelAt := t.bear.levelAt, nextMeas := u.owl.measAt, grants := t.bear.grants, lastStagger := t.bear.lastStagger })).publish 125) ∧ (s.pwr.wakeDeferred = false))
    ∧ (∃ (s : Chip) (t : Chip) (u : Chip) (v : Chip), ((s.pwr.st = PState.hibernate) ∧ (s.pwr.wakeGranted = true)) ∧ (t = (s.takeCause 2).syncLevel) ∧ (u = t.clearAllButOwl.restoreSupply) ∧ (v = (u.setBear ({ u.bear with level := t.bear.level, levelAt := t.bear.levelAt, nextMeas := u.owl.measAt, grants := t.bear.grants, lastStagger := t.bear.lastStagger })).publish 125) ∧ (s.pwr.wakeDeferred = true)) :=
  ⟨⟨{}, _, { vin2 := 2000000, vin10 := 0, vbs2 := 0, vbs10 := 0, vinBefore := 0, vinAfter := 0, vbsBefore := 0, vbsAfter := 0, charge := 0, fall := 0, vsys := 0 }, by decide +kernel, rfl, by decide +kernel⟩,
    ⟨{}, _, { vin2 := 0, vin10 := 0, vbs2 := 0, vbs10 := 0, vinBefore := 0, vinAfter := 0, vbsBefore := 0, vbsAfter := 0, charge := 0, fall := 0, vsys := 0 }, by decide +kernel, rfl, by decide +kernel⟩,
    ⟨(let s : Chip := {}; let s := { s with pwr := { s.pwr with bootHeld := true } }; let s := { s with bear := { s.bear with measuring := true } }; let s := s.setFld F.EGY_SUPPLY_REFILL 9; { s with bear := { s.bear with valid := true } }), _, { vin2 := 0, vin10 := 0, vbs2 := 0, vbs10 := 0, vinBefore := 0, vinAfter := 0, vbsBefore := 0, vbsAfter := 64000, charge := 0, fall := 0, vsys := 0 }, by decide +kernel, rfl, by decide +kernel⟩,
    ⟨(let s : Chip := {}; { s with pwr := { s.pwr with bootHeld := true } }), _, { vin2 := 0, vin10 := 0, vbs2 := 0, vbs10 := 0, vinBefore := 0, vinAfter := 0, vbsBefore := 0, vbsAfter := 0, charge := 0, fall := 0, vsys := 0 }, by decide +kernel, rfl, by decide +kernel⟩,
    ⟨(let s : Chip := {}; { s with boot := { s.boot with ph := .bootsel 1 0 true } }), 1, 0, true, _, by decide +kernel, rfl, by decide +kernel⟩,
    ⟨(let s : Chip := {}; { s with boot := { s.boot with ph := .bootsel 0 0 true } }), 0, 0, true, _, by decide +kernel, rfl, by decide +kernel⟩,
    ⟨(let s : Chip := {}; { s with boot := { s.boot with ph := .bootsel 0 2 true } }), 0, 2, true, _, by decide +kernel, rfl, by decide +kernel⟩,
    ⟨{}, _, rfl, by decide +kernel⟩,
    ⟨{}, _, false, false, rfl, by decide +kernel⟩,
    ⟨(let s : Chip := {}; { s with otp := Cells.set zeroWord s.otp 63 2#36 }), by decide +kernel⟩,
    ⟨(let s : Chip := {}; let s := { s with boot := { s.boot with ph := BootPh.release } }; let s := { s with boot := { s.boot with todo := [Core.foxA] } }; { s with boot := { s.boot with granted := true } }), _, _, _, by decide +kernel, wCons _ (by decide +kernel), rfl⟩,
    ⟨(let s : Chip := {}; let s := { s with pwr := { s.pwr with wakeGranted := true } }; { s with pwr := { s.pwr with st := PState.hibernate } }), _, _, _, by decide +kernel, rfl, rfl, rfl, by decide +kernel⟩,
    ⟨(let s : Chip := {}; let s := { s with pwr := { s.pwr with wakeDeferred := true } }; let s := { s with pwr := { s.pwr with st := PState.hibernate } }; { s with pwr := { s.pwr with wakeGranted := true } }), _, _, _, by decide +kernel, rfl, rfl, rfl, by decide +kernel⟩⟩

theorem wit_PinOutputs :
    (∃ (s : Chip) (ag : Agent) (v : Word) (n : Nat) (own : Nat) (old : Nat) (dir : Nat), (n = BitVec.toNat v % 2 ^ 24) ∧ (own = s.ownPins ag) ∧ (old = BitVec.toNat (s.reg R.PIN_OUT)) ∧ (dir = BitVec.toNat (s.reg R.PIN_DIR)))
    ∧ (∃ (n : Nat), (n < 24))
    ∧ (∃ (r : Nat) (n : Nat), (r ≠ R.PIN_STAT) ∧ (n < 24)) :=
  ⟨⟨{}, Agent.foxA, 0#36, _, _, _, _, rfl, rfl, rfl, rfl⟩,
    ⟨0, by decide +kernel⟩,
    ⟨R.PIN_OUT, 0, by decide +kernel⟩⟩

theorem wit_PinMapsAndBanks :
    (∃ (s : Chip) (n : Nat) (v : Word) (w : Word), (n < 24) ∧ (w = v &&& 64491618051#36 ||| s.reg (R.PIN_MAP n) &&& 4227858684#36) ∧ (s.lockedSec 6 = true))
    ∧ (∃ (s : Chip) (ag : Agent) (n : Nat) (v : Word) (w : Word), (n < 24) ∧ (w = v &&& 64491618051#36 ||| s.reg (R.PIN_MAP n) &&& 4227858684#36) ∧ (s.lockedSec 6 = false) ∧ (owns ag (s.pinOwner n) = false))
    ∧ (∃ (s : Chip) (ag : Agent) (n : Nat) (v : Word) (w : Word), (n < 24) ∧ (w = v &&& 64491618051#36 ||| s.reg (R.PIN_MAP n) &&& 4227858684#36) ∧ (s.lockedSec 6 = false) ∧ (owns ag (s.pinOwner n) = true) ∧ (mapCodesOk n (BitVec.toNat w) = false))
    ∧ (∃ (s : Chip) (ag : Agent) (n : Nat) (v : Word) (w : Word), (n < 24) ∧ (w = v &&& 64491618051#36 ||| s.reg (R.PIN_MAP n) &&& 4227858684#36) ∧ (s.lockedSec 6 = false) ∧ (owns ag (s.pinOwner n) = true) ∧ (mapCodesOk n (BitVec.toNat w) = true) ∧ (s.inputsClash (s.pinMaps.set n (BitVec.toNat w)) = true ∨ s.removesNeeded n (BitVec.toNat w) = true))
    ∧ (∃ (s : Chip) (ag : Agent) (n : Nat) (v : Word) (w : Word), (n < 24) ∧ (w = v &&& 64491618051#36 ||| s.reg (R.PIN_MAP n) &&& 4227858684#36) ∧ (s.lockedSec 6 = false) ∧ (owns ag (s.pinOwner n) = true) ∧ (mapCodesOk n (BitVec.toNat w) = true) ∧ (s.inputsClash (s.pinMaps.set n (BitVec.toNat w)) = false) ∧ (s.removesNeeded n (BitVec.toNat w) = false) ∧ (s.timerPinBad (BitVec.toNat w) = true ∨ s.eventPinBad (BitVec.toNat w) = true))
    ∧ (∃ (s : Chip) (ag : Agent) (n : Nat) (v : Word) (w : Word), (n < 24) ∧ (w = v &&& 64491618051#36 ||| s.reg (R.PIN_MAP n) &&& 4227858684#36) ∧ (s.lockedSec 6 = false) ∧ (owns ag (s.pinOwner n) = true) ∧ (mapCodesOk n (BitVec.toNat w) = true) ∧ (s.inputsClash (s.pinMaps.set n (BitVec.toNat w)) = false) ∧ (s.removesNeeded n (BitVec.toNat w) = false) ∧ (s.timerPinBad (BitVec.toNat w) = false) ∧ (s.eventPinBad (BitVec.toNat w) = false) ∧ (s.pins.phase ≠ Phase.run))
    ∧ (∃ (s : Chip) (ag : Agent) (n : Nat) (v : Word) (w : Word), (n < 24) ∧ (w = v &&& 64491618051#36 ||| s.reg (R.PIN_MAP n) &&& 4227858684#36) ∧ (s.lockedSec 6 = false) ∧ (owns ag (s.pinOwner n) = true) ∧ (mapCodesOk n (BitVec.toNat w) = true) ∧ (s.inputsClash (s.pinMaps.set n (BitVec.toNat w)) = false) ∧ (s.removesNeeded n (BitVec.toNat w) = false) ∧ (s.timerPinBad (BitVec.toNat w) = false) ∧ (s.eventPinBad (BitVec.toNat w) = false) ∧ (s.pins.phase = Phase.run))
    ∧ (∃ (s : Chip) (n : Nat), (s.pins.io2ok = false) ∧ (12 ≤ n) ∧ (n < 24)) :=
  ⟨⟨(let s : Chip := {}; s.setReg R.SSM_LOCK (W 241)), 0, 0#36, _, by decide +kernel, rfl, by decide +kernel⟩,
    ⟨{}, Agent.foxB, 0, 0#36, _, by decide +kernel, rfl, by decide +kernel⟩,
    ⟨{}, Agent.foxA, 0, 0x1002#36, _, by decide +kernel, rfl, by decide +kernel⟩,
    ⟨(let s : Chip := {}; s.setReg R.HP_CTL (W 1)), Agent.foxA, 4, 0#36, _, by decide +kernel, rfl, by decide +kernel⟩,
    ⟨(let s : Chip := {}; s.setReg R.TMR_OWN (W 5)), Agent.foxA, 3, 0x2000#36, _, by decide +kernel, rfl, by decide +kernel⟩,
    ⟨{}, Agent.foxA, 0, 0#36, _, by decide +kernel, rfl, by decide +kernel⟩,
    ⟨(run1 {}), Agent.foxA, 0, 0#36, _, by decide +kernel, rfl, by decide +kernel⟩,
    ⟨(let s : Chip := {}; { s with pins := { s.pins with io2ok := false } }), 12, by decide +kernel⟩⟩

theorem wit_QueueHardware :
    (∃ (s : Chip) (q : Nat), (q < 32) ∧ (s.qTakes q = true))
    ∧ (∃ (s : Chip) (q : Nat), (q < 32) ∧ (s.qTakes q = false))
    ∧ (∃ (s : Chip) (q : Nat), (q < 32) ∧ (s.bit (F.QUE_CFG_ON q) = true) ∧ (s.qCount q ≠ 0))
    ∧ (∃ (s : Chip) (q : Nat), (q < 32) ∧ (s.bit (F.QUE_CFG_ON q) = false ∨ s.qCount q = 0))
    ∧ (∃ (size : Nat) (h : Nat) (t : Nat), (2 ≤ size) ∧ (h < size) ∧ (t < size) ∧ (ringCount size h t + 1 < size))
    ∧ (∃ (size : Nat) (h : Nat) (t : Nat), (2 ≤ size) ∧ (h < size) ∧ (t < size) ∧ (ringCount size h t ≠ 0)) :=
  ⟨⟨{}, 0, by decide +kernel⟩,
    ⟨{}, 24, by decide +kernel⟩,
    ⟨(let s : Chip := {}; let s := s.setFld (F.QUE_RING_SIZE 1) 7; s.setReg (R.QUE_TAIL 1) (W 1)), 1, by decide +kernel⟩,
    ⟨{}, 0, by decide +kernel⟩,
    ⟨2, 0, 0, by decide +kernel⟩,
    ⟨2, 1, 0, by decide +kernel⟩⟩

theorem wit_QueueSoftware :
    (∃ (s : Chip) (ag : Agent) (q : Nat) (t : Nat) (v : Word), (q < 32) ∧ (t = BitVec.toNat v % 4096) ∧ (mayWrite ag (s.tailWriter q) = false))
    ∧ (∃ (s : Chip) (ag : Agent) (q : Nat) (t : Nat) (v : Word), (q < 32) ∧ (t = BitVec.toNat v % 4096) ∧ (mayWrite ag (s.tailWriter q) = true) ∧ (s.qSize q ≤ t))
    ∧ (∃ (s : Chip) (ag : Agent) (q : Nat) (t : Nat) (v : Word), (q < 32) ∧ (t = BitVec.toNat v % 4096) ∧ (mayWrite ag (s.tailWriter q) = true) ∧ (t < s.qSize q) ∧ (s.qSize q ≤ s.qCount q + ringCount (s.qSize q) (s.qTail q) t))
    ∧ (∃ (s : Chip) (ag : Agent) (q : Nat) (t : Nat) (v : Word), (q < 32) ∧ (t = BitVec.toNat v % 4096) ∧ (mayWrite ag (s.tailWriter q) = true) ∧ (t < s.qSize q) ∧ (s.qCount q + ringCount (s.qSize q) (s.qTail q) t < s.qSize q) ∧ (s.qKind q ≠ 5 ∨ t = s.qTail q))
    ∧ (∃ (s : Chip) (ag : Agent) (q : Nat) (t : Nat) (v : Word), (q < 32) ∧ (t = BitVec.toNat v % 4096) ∧ (mayWrite ag (s.tailWriter q) = true) ∧ (t < s.qSize q) ∧ (s.qCount q + ringCount (s.qSize q) (s.qTail q) t < s.qSize q) ∧ (s.qKind q = 5) ∧ (t ≠ s.qTail q))
    ∧ (∃ (s : Chip) (ag : Agent) (q : Nat) (t : Nat) (v : Word), (q < 32) ∧ (t = BitVec.toNat v % 4096) ∧ (mayWrite ag (s.headWriter q) = false))
    ∧ (∃ (s : Chip) (ag : Agent) (q : Nat) (t : Nat) (v : Word), (q < 32) ∧ (t = BitVec.toNat v % 4096) ∧ (mayWrite ag (s.headWriter q) = true) ∧ (s.qSize q ≤ t ∨ s.qCount q < ringCount (s.qSize q) (s.qHead q) t))
    ∧ (∃ (s : Chip) (ag : Agent) (q : Nat) (t : Nat) (v : Word), (q < 32) ∧ (t = BitVec.toNat v % 4096) ∧ (mayWrite ag (s.headWriter q) = true) ∧ (t < s.qSize q) ∧ (ringCount (s.qSize q) (s.qHead q) t ≤ s.qCount q)) :=
  ⟨⟨{}, Agent.foxA, 0, _, 0#36, by decide +kernel, rfl, by decide +kernel⟩,
    ⟨{}, Agent.foxA, 8, _, 0x18#36, by decide +kernel, rfl, by decide +kernel⟩,
    ⟨(let s : Chip := {}; s.setFld (F.QUE_HEAD_HEAD 8) 1), Agent.foxA, 8, _, 1#36, by decide +kernel, rfl, by decide +kernel⟩,
    ⟨{}, Agent.foxA, 8, _, 0#36, by decide +kernel, rfl, by decide +kernel⟩,
    ⟨(let s : Chip := {}; let s := s.setFld (F.QUE_CFG_KIND 24) 5; s.setFld (F.QUE_RING_SIZE 24) 2), Agent.foxA, 24, _, 1#36, by decide +kernel, rfl, by decide +kernel⟩,
    ⟨{}, Agent.foxB, 0, _, 0#36, by decide +kernel, rfl, by decide +kernel⟩,
    ⟨{}, Agent.foxA, 0, _, 1#36, by decide +kernel, rfl, by decide +kernel⟩,
    ⟨{}, Agent.foxA, 0, _, 0#36, by decide +kernel, rfl, by decide +kernel⟩⟩

theorem wit_QueueOnOff :
    (∃ (s : Chip) (ag : Agent) (q : Nat) (code : Nat) (v : Word) (w : Word), ((q < 32) ∧ (owns ag (s.qOwner q) = true) ∧ (s.lockedSec 7 = false)) ∧ (w = v &&& 68685922304#36) ∧ (code = s.queueOnCheck q (BitVec.toNat (s.reg (R.QUE_RING q))) (BitVec.toNat (s.reg (R.QUE_BUF q))) (BitVec.toNat (w ||| 16777216#36))) ∧ (s.bit (F.QUE_CFG_ON q) = false) ∧ (code = Rc.OK))
    ∧ (∃ (s : Chip) (ag : Agent) (q : Nat) (code : Nat) (v : Word) (w : Word), ((q < 32) ∧ (owns ag (s.qOwner q) = true) ∧ (s.lockedSec 7 = false)) ∧ (w = v &&& 68685922304#36) ∧ (code = s.queueOnCheck q (BitVec.toNat (s.reg (R.QUE_RING q))) (BitVec.toNat (s.reg (R.QUE_BUF q))) (BitVec.toNat (w ||| 16777216#36))) ∧ (s.bit (F.QUE_CFG_ON q) = false) ∧ (code ≠ Rc.OK))
    ∧ (∃ (s : Chip) (ag : Agent) (q : Nat) (code : Nat) (v : Word) (w : Word), ((q < 32) ∧ (owns ag (s.qOwner q) = true) ∧ (s.lockedSec 7 = false)) ∧ (w = v &&& 68685922304#36) ∧ (code = s.queueOnCheck q (BitVec.toNat (s.reg (R.QUE_RING q))) (BitVec.toNat (s.reg (R.QUE_BUF q))) (BitVec.toNat (w ||| 16777216#36))) ∧ (s.bit (F.QUE_CFG_ON q) = true) ∧ (w = s.reg (R.QUE_CFG q) &&& 68685922304#36)) :=
  ⟨⟨(let s : Chip := {}; s.setReg (R.QUE_RING 16) (W 0x2010000)), .foxA, 16, _, 0x2000000#36, _, by decide +kernel, rfl, rfl, by decide +kernel⟩,
    ⟨{}, Agent.foxA, 16, _, 0#36, _, by decide +kernel, rfl, rfl, by decide +kernel⟩,
    ⟨(let s : Chip := {}; s.setFld (F.QUE_CFG_ON 24) 1), Agent.foxA, 24, _, 0#36, _, by decide +kernel, rfl, rfl, by decide +kernel⟩⟩

theorem wit_ClaimsAreAnswered :
    (∃ (s : Chip) (n : Nat), (n < 16) ∧ (s.holds n = true))
    ∧ (∃ (s : Chip) (n : Nat), (n < 16) ∧ (s.holds n = false) ∧ (s.fld (F.EGY_DECL_PEAK n) = 0))
    ∧ (∃ (s : Chip) (n : Nat) (p : Nat), (n < 16) ∧ (s.holds n = false) ∧ (s.fld (F.EGY_DECL_PEAK n) ≠ 0) ∧ (s.fld (F.EGY_DECL_PEAK n) < p))
    ∧ (∃ (s : Chip) (n : Nat) (p : Nat) (dur : Nat) (ms : Bool), (n < 16) ∧ (s.holds n = false) ∧ (p ≤ s.fld (F.EGY_DECL_PEAK n)) ∧ (s.fld (F.EGY_DECL_PEAK n) ≠ 0) ∧ (s.fld (F.EGY_DECL_DCLASS n) = 0 ∧ (ms = true ∨ dur = 0 ∨ 100 < dur) ∨ s.fld (F.EGY_DECL_DCLASS n) = 1 ∧ (ms = true ∨ dur = 0 ∨ 10000 < dur) ∨ s.fld (F.EGY_DECL_DCLASS n) = 2 ∧ (dur = 0 ∨ 524287000 < dur ∨ ms = true ∧ 524287 < dur)))
    ∧ (∃ (s : Chip) (n : Nat) (p : Nat) (dur : Nat) (ms : Bool) (minP : Option Nat) (dl : Option Nat) (c : Claim) (t : Nat) (k : Bool), ((n < 16) ∧ (s.holds n = false) ∧ (s.fld (F.EGY_DECL_PEAK n) ≠ 0) ∧ (p ≤ s.fld (F.EGY_DECL_PEAK n))) ∧ (k = decide (s.fld (F.EGY_DECL_DCLASS n) = 3)) ∧ (k = true ∨ s.fld (F.EGY_DECL_DCLASS n) = 0 ∧ ms = false ∧ 1 ≤ dur ∧ dur ≤ 100 ∨ s.fld (F.EGY_DECL_DCLASS n) = 1 ∧ ms = false ∧ 1 ≤ dur ∧ dur ≤ 10000 ∨ s.fld (F.EGY_DECL_DCLASS n) = 2 ∧ 1 ≤ dur ∧ dur ≤ if ms = true then 524287 else 524287000) ∧ (t = if k = true then 0 else if ms = true then 32000 * dur else 32 * dur) ∧ (c = { who := n, power := p, dur := t, cont := k, minP := minP, deadline := Option.map (fun (d : Nat) => s.now + d) dl, cls := s.fld (F.EGY_DECL_PCLASS n), arrival := s.now, resv := if k = true then none else s.matchResv n p t, answered := false, earliest := some ((s.now / 32 + 1) * 32), cause := 0 }) ∧ (n = 4) ∧ (s.fld F.EGY_STAT_THERM = 2))
    ∧ (∃ (s : Chip) (n : Nat) (p : Nat) (dur : Nat) (ms : Bool) (minP : Option Nat) (dl : Option Nat) (c : Claim) (t : Nat) (k : Bool), ((n < 16) ∧ (s.holds n = false) ∧ (s.fld (F.EGY_DECL_PEAK n) ≠ 0) ∧ (p ≤ s.fld (F.EGY_DECL_PEAK n))) ∧ (k = decide (s.fld (F.EGY_DECL_DCLASS n) = 3)) ∧ (k = true ∨ s.fld (F.EGY_DECL_DCLASS n) = 0 ∧ ms = false ∧ 1 ≤ dur ∧ dur ≤ 100 ∨ s.fld (F.EGY_DECL_DCLASS n) = 1 ∧ ms = false ∧ 1 ≤ dur ∧ dur ≤ 10000 ∨ s.fld (F.EGY_DECL_DCLASS n) = 2 ∧ 1 ≤ dur ∧ dur ≤ if ms = true then 524287 else 524287000) ∧ (t = if k = true then 0 else if ms = true then 32000 * dur else 32 * dur) ∧ (c = { who := n, power := p, dur := t, cont := k, minP := minP, deadline := Option.map (fun (d : Nat) => s.now + d) dl, cls := s.fld (F.EGY_DECL_PCLASS n), arrival := s.now, resv := if k = true then none else s.matchResv n p t, answered := false, earliest := some ((s.now / 32 + 1) * 32), cause := 0 }) ∧ (n ≠ 4 ∨ s.fld F.EGY_STAT_THERM ≠ 2) ∧ (s.bear.valid = true) ∧ (n ≠ 12) ∧ (c.resv = none) ∧ (s.everFits c = false))
    ∧ (∃ (s : Chip) (n : Nat) (p : Nat) (dur : Nat) (ms : Bool) (minP : Option Nat) (dl : Option Nat) (c : Claim) (t : Nat) (k : Bool), ((n < 16) ∧ (s.holds n = false) ∧ (s.fld (F.EGY_DECL_PEAK n) ≠ 0) ∧ (p ≤ s.fld (F.EGY_DECL_PEAK n))) ∧ (k = decide (s.fld (F.EGY_DECL_DCLASS n) = 3)) ∧ (k = true ∨ s.fld (F.EGY_DECL_DCLASS n) = 0 ∧ ms = false ∧ 1 ≤ dur ∧ dur ≤ 100 ∨ s.fld (F.EGY_DECL_DCLASS n) = 1 ∧ ms = false ∧ 1 ≤ dur ∧ dur ≤ 10000 ∨ s.fld (F.EGY_DECL_DCLASS n) = 2 ∧ 1 ≤ dur ∧ dur ≤ if ms = true then 524287 else 524287000) ∧ (t = if k = true then 0 else if ms = true then 32000 * dur else 32 * dur) ∧ (c = { who := n, power := p, dur := t, cont := k, minP := minP, deadline := Option.map (fun (d : Nat) => s.now + d) dl, cls := s.fld (F.EGY_DECL_PCLASS n), arrival := s.now, resv := if k = true then none else s.matchResv n p t, answered := false, earliest := some ((s.now / 32 + 1) * 32), cause := 0 }) ∧ (n ≠ 4 ∨ s.fld F.EGY_STAT_THERM ≠ 2) ∧ (s.bear.valid = false ∨ n = 12 ∨ c.resv.isSome = true ∨ s.everFits c = true))
    ∧ (∃ (s : Chip) (u : Chip) (c : Claim), (s.bear.pend = [c]) ∧ ((c.cont = true) ∧ (3 ≤ c.who) ∧ (c.who ≠ 4) ∧ (c.who ≠ 12) ∧ (c.cls = 3) ∧ (c.resv = none) ∧ (c.arrival / 32 < s.now / 32) ∧ (s.bear.valid = true) ∧ (s.warnHold = false) ∧ ((↑c.power : Int) ≤ freeRefill s.refill s.bear.grants)) ∧ (u = s.syncLevel)) :=
  ⟨⟨(let s : Chip := {}; { s with bear := { s.bear with grants := [{ who := 0, power := 0, dur := 0, cont := false, start := 0, cls := 0, arrival := 0, marked := false }, { who := 0, power := 0, dur := 0, cont := false, start := 0, cls := 0, arrival := 0, marked := false }] } }), 0, by decide +kernel⟩,
    ⟨{}, 15, by decide +kernel⟩,
    ⟨(let s : Chip := {}; s.setFld (F.EGY_DECL_PEAK 5) 1), 5, 2, by decide +kernel⟩,
    ⟨{}, 3, 0, 0, false, by decide +kernel⟩,
    ⟨(let s : Chip := {}; s.setFld F.EGY_STAT_THERM 2), _, 0, 1, false, none, none, _, _, _, by decide +kernel, rfl, by decide +kernel, rfl, rfl, rfl, by decide +kernel⟩,
    ⟨(let s : Chip := {}; { s with bear := { s.bear with valid := true } }), 0, 1, 0, false, none, none, _, _, _, by decide +kernel, rfl, by decide +kernel, rfl, rfl, by decide +kernel⟩,
    ⟨{}, 0, 0, 0, false, none, none, _, _, _, by decide +kernel, rfl, by decide +kernel, rfl, rfl, by decide +kernel⟩,
    ⟨(let s : Chip := {}; let s := { s with bear := { s.bear with valid := true } }; let s := { s with now := s.now + 32 }; let s := { s with bear := { s.bear with pend := [{ who := 3, power := 0, dur := 0, cont := true, minP := some 0, deadline := some 0, cls := 3, arrival := 0, resv := none, answered := false, earliest := none, cause := 0 }] } }; s.setReg R.EGY_SUPPLY (W 0)), _, _, wCons _ (by decide +kernel), by decide +kernel, rfl⟩⟩

theorem wit_GrantsEnd :
    (∃ (s : Chip) (u : Chip) (n : Nat), ((n < 13) ∧ (n ≠ 4) ∧ (s.holds n = true)) ∧ (u = (s.dropClaim n).syncLevel))
    ∧ (∃ (s : Chip) (n : Nat), (s.holds n = false))
    ∧ (∃ (s : Chip) (u : Chip) (n : Nat), ((n = 5 ∨ n = 8 ∨ n = 10) ∧ (s.holds n = true) ∧ (∀ (g : Grant), s.grantOf n = some g → g.cont = false)) ∧ (u = s.syncLevel))
    ∧ (∃ (s : Chip) (u : Chip) (n : Nat) (g : Grant) (c : Claim) (a : Answer), (n < 13) ∧ (s.grantOf n = some g) ∧ ((g.marked = true) ∧ (s.claimantSafe n = true)) ∧ (u = s.syncLevel) ∧ (a = { who := n, kind := AnswerKind.defer, power := 0, code := Rc.PREEMPTED, start := none }) ∧ (c = { g with who := n, dur := if g.cont = true then 0 else g.dur - (s.now - g.start), resv := none, answered := true, earliest := none, cause := Rc.PREEMPTED }))
    ∧ (∃ (s : Chip) (n : Nat), (s.claimantSafe n = false))
    ∧ (∃ (s : Chip) (n : Nat) (d : Nat) (c : Claim), (s.claimOf n = some c) ∧ (c.deadline = some d))
    ∧ (∃ (s : Chip) (n : Nat), (s.claimOf n = none))
    ∧ (∃ (s : Chip) (n : Nat), ((s.claimOf n).isSome = true)) :=
  ⟨⟨(let s : Chip := {}; { s with bear := { s.bear with grants := [{ who := 0, power := 0, dur := 0, cont := false, start := 0, cls := 0, arrival := 0, marked := false }, { who := 0, power := 0, dur := 0, cont := false, start := 0, cls := 0, arrival := 0, marked := false }, { who := 5, power := 0, dur := 0, cont := false, start := 0, cls := 0, arrival := 0, marked := false }] } }), _, 0, by decide +kernel, rfl⟩,
    ⟨{}, 0, by decide +kernel⟩,
    ⟨(let s : Chip := {}; { s with bear := { s.bear with grants := [{ who := 0, power := 0, dur := 0, cont := false, start := 0, cls := 0, arrival := 0, marked := false }, { who := 10, power := 0, dur := 0, cont := false, start := 0, cls := 0, arrival := 0, marked := false }] } }), _, 10, by decide +kernel, rfl⟩,
    ⟨(let s : Chip := {}; { s with bear := { s.bear with grants := [{ who := 0, power := 0, dur := 0, cont := false, start := 0, cls := 0, arrival := 0, minP := none, deadline := none, marked := true }, { who := 0, power := 0, dur := 0, cont := false, start := 0, cls := 0, arrival := 0, minP := none, deadline := none, marked := false }] } }), _, 0, _, _, _, by decide +kernel, wSome _ (by decide +kernel), by decide +kernel, rfl, rfl, rfl⟩,
    ⟨{}, 2, by decide +kernel⟩,
    ⟨(let s : Chip := {}; { s with bear := { s.bear with pend := [{ who := 0, power := 0, dur := 0, cont := false, minP := some 0, deadline := some 0, cls := 0, arrival := 0, resv := some 0, answered := false, earliest := none, cause := 0 }, { who := 5, power := 0, dur := 0, cont := false, minP := none, deadline := some 0, cls := 0, arrival := 0, resv := none, answered := false, earliest := none, cause := 0 }] } }), 0, _, _, wSome _ (by decide +kernel), wSome _ (by decide +kernel)⟩,
    ⟨{}, 0, by decide +kernel⟩,
    ⟨(let s : Chip := {}; { s with bear := { s.bear with pend := [{ who := 0, power := 0, dur := 0, cont := false, minP := none, deadline := none, cls := 0, arrival := 0, resv := none, answered := false, earliest := none, cause := 0 }, { who := 0, power := 0, dur := 0, cont := false, minP := none, deadline := none, cls := 0, arrival := 0, resv := none, answered := false, earliest := none, cause := 0 }, { who := 0, power := 0, dur := 0, cont := false, minP := none, deadline := none, cls := 0, arrival := 0, resv := none, answered := false, earliest := none, cause := 0 }] } }), 0, by decide +kernel⟩⟩

theorem wit_SupplyMeasurements :
    (∃ (s : Chip) (u : Chip), (u = s.syncLevel) ∧ (s.bear.valid = false))
    ∧ (∃ (s : Chip) (u : Chip) (v : Nat), (u = s.syncLevel) ∧ (s.bear.valid = true) ∧ (s.bear.c.fst * (v * v - 9000000000000) / (14375 * s.bear.c.snd) < u.bear.level))
    ∧ (∃ (s : Chip) (u : Chip) (v : Nat), (u = s.syncLevel) ∧ (s.bear.valid = true) ∧ (u.bear.level ≤ s.bear.c.fst * (v * v - 9000000000000) / (14375 * s.bear.c.snd)))
    ∧ (∃ (s : Chip) (u : Chip), (u = s.setBear ({ s.bear with measDue := true, nextMeas := some (s.now + 1920000000 * s.fld F.EGY_CFG_MEASINT) })) ∧ (s.pwr.st = PState.run))
    ∧ (∃ (s : Chip) (u : Chip), (u = s.setBear ({ s.bear with measDue := true, nextMeas := some (s.now + 1920000000 * s.fld F.EGY_CFG_MEASINT) })) ∧ (s.pwr.st ≠ PState.run))
    ∧ (∃ (s : Chip), (s.bear.measuring = true ∨ s.bear.measDue = true))
    ∧ (∃ (s : Chip), (s.bear.measuring = false) ∧ (s.bear.measDue = false))
    ∧ (∃ (s : Chip) (u : Chip), ((s.bear.measDue = true) ∧ (s.bear.measuring = false)) ∧ (u = s.syncLevel) ∧ (u.wakeMeasDue = false) ∧ (u.bear.valid = false ∨ (u.acct u.bear.grants u.bear.resv).head + (u.acct u.bear.grants u.bear.resv).kept u.now + uJ 250 ≤ u.bear.level))
    ∧ (∃ (s : Chip) (u : Chip), ((s.bear.measDue = true) ∧ (s.bear.measuring = false)) ∧ (u = s.syncLevel) ∧ (u.wakeMeasDue = false) ∧ (u.bear.valid = true) ∧ (u.bear.level < (u.acct u.bear.grants u.bear.resv).head + (u.acct u.bear.grants u.bear.resv).kept u.now + uJ 250))
    ∧ (∃ (s : Chip) (u : Chip) (m : SupplyMeas), (s.bear.measuring = true) ∧ (u = s.setBear ({ s.bear with measuring := false })) ∧ (supplyMoved m = false) ∧ (s.fld F.EGY_RLIM_FLOOR ≤ supplyRefill m (s.fld F.PMU_BOD_VINBOD)) ∧ (s.fld F.EGY_CLIM_FLOOR ≤ supplyCap m))
    ∧ (∃ (s : Chip) (u : Chip) (m : SupplyMeas) (w : Chip), (s.bear.measuring = true) ∧ (u = s.setBear ({ s.bear with measuring := false })) ∧ ((supplyMoved m = true) ∧ (s.bear.calFails < 2)) ∧ (w = (u.setBear ({ u.bear with calFails := s.bear.calFails + 1, retryAt := some (s.now + 320000) })).setReason R.EGY_STAT Rc.CAL_FAIL))
    ∧ (∃ (s : Chip) (t : Nat), (s.bear.retryAt = some t)) :=
  ⟨⟨{}, _, rfl, by decide +kernel⟩,
    ⟨(let s : Chip := {}; let s := { s with now := 1 }; let s := s.setFld F.EGY_CAP_CAP 1; let s := s.setFld F.EGY_SUPPLY_REFILL 1; { s with bear := { s.bear with valid := true } }), _, 0, rfl, by decide +kernel⟩,
    ⟨(let s : Chip := {}; { s with bear := { s.bear with valid := true } }), _, 0, rfl, by decide +kernel⟩,
    ⟨{}, _, rfl, by decide +kernel⟩,
    ⟨(let s : Chip := {}; { s with pwr := { s.pwr with st := PState.sleep } }), _, rfl, by decide +kernel⟩,
    ⟨(let s : Chip := {}; { s with bear := { s.bear with measuring := true } }), by decide +kernel⟩,
    ⟨{}, by decide +kernel⟩,
    ⟨(let s : Chip := {}; { s with bear := { s.bear with measDue := true } }), _, by decide +kernel, rfl, by decide +kernel⟩,
    ⟨(let s : Chip := {}; let s := { s with bear := { s.bear with measDue := true } }; { s with bear := { s.bear with valid := true } }), _, by decide +kernel, rfl, by decide +kernel⟩,
    ⟨(let s : Chip := {}; { s with bear := { s.bear with measuring := true } }), _, { vin2 := 0, vin10 := 0, vbs2 := 0, vbs10 := 0, vinBefore := 0, vinAfter := 0, vbsBefore := 0, vbsAfter := 0, charge := 0, fall := 0, vsys := 0 }, by decide +kernel, rfl, by decide +kernel⟩,
    ⟨(let s : Chip := {}; { s with bear := { s.bear with measuring := true } }), _, { vin2 := 0, vin10 := 0, vbs2 := 0, vbs10 := 0, vinBefore := 0, vinAfter := 238728, vbsBefore := 0, vbsAfter := 0, charge := 0, fall := 0, vsys := 0 }, _, by decide +kernel, rfl, by decide +kernel, rfl⟩,
    ⟨(let s : Chip := {}; { s with bear := { s.bear with retryAt := some 0 } }), _, wSome _ (by decide +kernel)⟩⟩

theorem wit_Reservations :
    (∃ (s : Chip) (u : Chip) (ag : Agent) (v : Word) (b : Resv) (l : List (Option Resv)) (k : Option Nat) (code : Nat) (r : List (Bool × Nat)), (∀ (c : Claim), c ∈ s.bear.pend → s.fresh c = false) ∧ (u = s.syncLevel) ∧ (b = s.stagedResv (s.bear.ress.getD ag.code 0) v false) ∧ ((l, k) = addResv b u.bear.resv 0) ∧ (code = if k.isNone = true then Rc.RES_FULL else if b.start < s.owl.stb + 33 ∨ 2 ^ 24 < b.start - s.owl.stb then Rc.RES_WINDOW else if (u.acct u.bear.grants l).carries = true then Rc.OK else Rc.RES_OVERBOOK) ∧ (code ≠ Rc.OK) ∧ (r = u.bear.resOk.set ag.code (false, (u.bear.resOk.getD ag.code (false, 0)).snd)))
    ∧ (∃ (s : Chip) (u : Chip) (ag : Agent) (v : Word) (b : Resv) (l : List (Option Resv)) (k : Option Nat) (code : Nat) (i : Nat) (r : List (Bool × Nat)), (∀ (c : Claim), c ∈ s.bear.pend → s.fresh c = false) ∧ (u = s.syncLevel) ∧ (b = s.stagedResv (s.bear.ress.getD ag.code 0) v false) ∧ ((l, k) = addResv b u.bear.resv 0) ∧ (code = if k.isNone = true then Rc.RES_FULL else if b.start < s.owl.stb + 33 ∨ 2 ^ 24 < b.start - s.owl.stb then Rc.RES_WINDOW else if (u.acct u.bear.grants l).carries = true then Rc.OK else Rc.RES_OVERBOOK) ∧ (k = some i) ∧ (code = Rc.OK) ∧ (r = u.bear.resOk.set ag.code (true, i)))
    ∧ (∃ (b : Resv) (l : List (Option Resv)) (i : Nat) (j : Nat), ((addResv b l 0).snd = some i) ∧ (j < i))
    ∧ (∃ (s : Chip) (ag : Agent) (v : Word) (b : Resv), (s.bear.resv.getD (BitVec.toNat v % 64) none = some b) ∧ (b.bySlot = true) ∧ (ag ≠ Agent.badger))
    ∧ (∃ (s : Chip) (ag : Agent) (v : Word) (b : Resv), (s.bear.resv.getD (BitVec.toNat v % 64) none = some b) ∧ (b.bySlot = false ∨ ag = Agent.badger))
    ∧ (∃ (s : Chip) (i : Nat) (b : Resv), (s.bear.resv.getD i none = some b))
    ∧ (∃ (s : Chip) (i : Nat), (s.bear.resv.getD i none = none)) :=
  ⟨⟨{}, _, Agent.foxA, 0#36, _, _, _, _, _, by decide +kernel, rfl, rfl, rfl, rfl, by decide +kernel, rfl⟩,
    ⟨(let s : Chip := {}; { s with bear := { s.bear with ress := [0x40#36] } }), _, Agent.foxA, 0#36, _, _, _, _, _, _, by decide +kernel, rfl, rfl, rfl, rfl, wSome _ (by decide +kernel), by decide +kernel, rfl⟩,
    ⟨{ start := 0, who := 0, ms := false, power := 0, count := 0, bySlot := false }, [some { start := 0, who := 0, ms := false, power := 0, count := 0, bySlot := false }, none], _, 0, wSome _ (by decide +kernel), by decide +kernel⟩,
    ⟨(let s : Chip := {}; { s with bear := { s.bear with resv := [some { start := 0, who := 0, ms := false, power := 0, count := 0, bySlot := true }] } }), Agent.foxA, 0#36, _, wSome _ (by decide +kernel), by decide +kernel⟩,
    ⟨(let s : Chip := {}; { s with bear := { s.bear with resv := [none, some { start := 0, who := 0, ms := false, power := 0, count := 0, bySlot := false }, some { start := 0, who := 0, ms := false, power := 0, count := 0, bySlot := false }] } }), Agent.foxA, 1#36, _, wSome _ (by decide +kernel), by decide +kernel⟩,
    ⟨(let s : Chip := {}; { s with bear := { s.bear with resv := [some { start := 0, who := 0, ms := false, power := 0, count := 0, bySlot := false }] } }), 0, _, wSome _ (by decide +kernel)⟩,
    ⟨{}, 0, by decide +kernel⟩⟩

theorem wit_DeclarationsAndSoftwareClaims :
    (∃ (s : Chip) (n : Nat) (new : Nat) (v : Word), (n < 16) ∧ (new = (BitVec.toNat v &&& if n ≤ 12 then 724991 else 774143) ||| BitVec.toNat (s.reg (R.EGY_DECL n)) - (BitVec.toNat (s.reg (R.EGY_DECL n)) &&& if n ≤ 12 then 724991 else 774143)) ∧ (s.lockedSec 3 = true))
    ∧ (∃ (s : Chip) (n : Nat) (new : Nat) (v : Word) (g : Grant), (n < 16) ∧ (new = (BitVec.toNat v &&& if n ≤ 12 then 724991 else 774143) ||| BitVec.toNat (s.reg (R.EGY_DECL n)) - (BitVec.toNat (s.reg (R.EGY_DECL n)) &&& if n ≤ 12 then 724991 else 774143)) ∧ ((s.lockedSec 3 = false) ∧ (declCheck n new = Rc.OK)) ∧ (s.grantOf n = some g) ∧ (bits new 11 0 < g.power))
    ∧ (∃ (s : Chip) (n : Nat) (new : Nat) (v : Word), (n < 16) ∧ (new = (BitVec.toNat v &&& if n ≤ 12 then 724991 else 774143) ||| BitVec.toNat (s.reg (R.EGY_DECL n)) - (BitVec.toNat (s.reg (R.EGY_DECL n)) &&& if n ≤ 12 then 724991 else 774143)) ∧ (s.lockedSec 3 = false) ∧ (declCheck n new = Rc.OK) ∧ (∀ (g : Grant), s.grantOf n = some g → g.power ≤ bits new 11 0))
    ∧ (∃ (s : Chip) (n : Nat) (new : Nat) (v : Word), (n < 16) ∧ (new = (BitVec.toNat v &&& if n ≤ 12 then 724991 else 774143) ||| BitVec.toNat (s.reg (R.EGY_DECL n)) - (BitVec.toNat (s.reg (R.EGY_DECL n)) &&& if n ≤ 12 then 724991 else 774143)) ∧ (s.lockedSec 3 = false) ∧ (declCheck n new ≠ Rc.OK))
    ∧ (∃ (s : Chip) (n : Nat) (v : Word), (13 ≤ n) ∧ (n ≤ 15) ∧ (BitVec.toNat v % 4096 ≠ 0) ∧ (s.holds n = true))
    ∧ (∃ (s : Chip) (n : Nat) (v : Word), (13 ≤ n) ∧ (n ≤ 15) ∧ (BitVec.toNat v % 4096 ≠ 0) ∧ (s.holds n = false)) :=
  ⟨⟨(let s : Chip := {}; s.setReg R.SSM_LOCK (W 8)), 0, _, 0#36, by decide +kernel, rfl, by decide +kernel⟩,
    ⟨(let s : Chip := {}; { s with bear := { s.bear with grants := [{ who := 0, power := 0, dur := 0, cont := false, start := 0, cls := 0, arrival := 0, marked := false }, { who := 11, power := 1, dur := 0, cont := false, start := 0, cls := 0, arrival := 0, marked := false }] } }), 11, _, 0#36, _, by decide +kernel, rfl, by decide +kernel, wSome _ (by decide +kernel), by decide +kernel⟩,
    ⟨{}, 0, _, 0#36, by decide +kernel, rfl, by decide +kernel⟩,
    ⟨{}, 0, _, 0xb0ffe#36, by decide +kernel, rfl, by decide +kernel⟩,
    ⟨(let s : Chip := {}; { s with bear := { s.bear with grants := [{ who := 0, power := 0, dur := 0, cont := false, start := 0, cls := 0, arrival := 0, marked := false }, { who := 0, power := 0, dur := 0, cont := false, start := 0, cls := 0, arrival := 0, marked := false }, { who := 14, power := 0, dur := 0, cont := false, start := 0, cls := 0, arrival := 0, marked := false }] } }), 14, 1#36, by decide +kernel⟩,
    ⟨{}, 13, 1#36, by decide +kernel⟩⟩

theorem wit_HealthMonitor :
    (∃ (s : Chip), (s.clk.hfOn = true))
    ∧ (∃ (s : Chip), (s.pwr.st = PState.run))
    ∧ (∃ (s : Chip), (s.mon.planning = true))
    ∧ (∃ (s : Chip), (s.mon.planning = false))
    ∧ (∃ (s : Chip) (k : Nat) (v : Nat) (floor : Nat) (ceil : Nat) (x : Nat), (s.planValue k = some v) ∧ (s.margin k = (x, floor, ceil)))
    ∧ (∃ (s : Chip), (s.mon.planning = false))
    ∧ (∃ (s : Chip) (t : Chip) (u : Chip) (a : Bool), ((s.mon.planning = true) ∧ (s.mon.commanded = true)) ∧ (t = if s.cfg.adaptive = true then (((s.planOne 1).planOne 2).planOne 3).planOne 4 else s) ∧ (u = (t.setFld F.MON_PLAN1_LIFE t.lifeEstimate).setReg R.MON_LAST (W t.owl.stb)) ∧ (a = (decide (u.cfg.lifeAlarm ≠ 0) && decide (t.lifeEstimate ≠ 4095) && decide (t.lifeEstimate ≤ u.cfg.lifeAlarm))) ∧ (t.mon.commanded = true) ∧ (a = false ∨ u.bit F.MON_STAT_LIFEALM = true)) :=
  ⟨⟨{}, by decide +kernel⟩,
    ⟨{}, by decide +kernel⟩,
    ⟨(let s : Chip := {}; { s with mon := { s.mon with planning := true } }), by decide +kernel⟩,
    ⟨{}, by decide +kernel⟩,
    ⟨(let s : Chip := {}; { s with mon := { s.mon with pulses := [(0, 0)] } }), 0, _, _, _, _, wSome _ (by decide +kernel), rfl⟩,
    ⟨{}, by decide +kernel⟩,
    ⟨(let s : Chip := {}; let s := { s with mon := { s.mon with planning := true } }; { s with mon := { s.mon with commanded := true } }), _, _, _, by decide +kernel, rfl, rfl, rfl, by decide +kernel⟩⟩

theorem wit_RadioEnables :
    (∃ (s : Chip) (ag : Agent), (s.radioOwner ag = false))
    ∧ (∃ (s : Chip) (ag : Agent), (s.radioOwner ag = true) ∧ (s.bit F.SYN_CTL_EN = false) ∧ (s.prov 3 = false))
    ∧ (∃ (s : Chip) (ag : Agent), (s.radioOwner ag = true) ∧ (s.bit F.SYN_CTL_EN = false) ∧ (s.prov 3 = true) ∧ (s.fld (F.EGY_DECL_PEAK 5) < 48))
    ∧ (∃ (s : Chip) (ag : Agent), (s.radioOwner ag = true) ∧ (s.bit F.SYN_CTL_EN = false) ∧ (s.prov 3 = true) ∧ (48 ≤ s.fld (F.EGY_DECL_PEAK 5)))
    ∧ (∃ (s : Chip) (ag : Agent), (s.radioOwner ag = true) ∧ (s.bit F.RFE_CTL_EN = false) ∧ (s.bit F.SYN_CTL_EN = false))
    ∧ (∃ (s : Chip) (ag : Agent), (s.radioOwner ag = true) ∧ (s.bit F.RFE_CTL_EN = false) ∧ (s.bit F.SYN_CTL_EN = true) ∧ ((s.validProfs.any fun (m : Nat) => decide (s.fld (F.EGY_DECL_PEAK 4) < txClaim (mPwr m))) = true))
    ∧ (∃ (s : Chip) (ag : Agent) (u : Chip), ((s.radioOwner ag = true) ∧ (s.bit F.RFE_CTL_EN = false) ∧ (s.bit F.SYN_CTL_EN = true) ∧ ((s.validProfs.any fun (m : Nat) => decide (s.fld (F.EGY_DECL_PEAK 4) < txClaim (mPwr m))) = false)) ∧ (u = { s with free := s.free + 4 }.setFld F.RFE_STAT_MASKOK (List.foldl (fun (acc k : Nat) => putBit acc k (decide (s.firCode k = Rc.OK))) 0 (List.range 4))) ∧ (∀ (k : Nat), k < 4 → (s.validProfs.any fun (m : Nat) => decide (mFir m = k)) = true → s.firCode k = Rc.OK))
    ∧ (∃ (s : Chip) (ag : Agent) (u : Chip) (k : Nat), ((s.radioOwner ag = true) ∧ (s.bit F.RFE_CTL_EN = false) ∧ (s.bit F.SYN_CTL_EN = true) ∧ ((s.validProfs.any fun (m : Nat) => decide (s.fld (F.EGY_DECL_PEAK 4) < txClaim (mPwr m))) = false)) ∧ (u = { s with free := s.free + 4 }.setFld F.RFE_STAT_MASKOK (List.foldl (fun (acc k : Nat) => putBit acc k (decide (s.firCode k = Rc.OK))) 0 (List.range 4))) ∧ (k < 4) ∧ ((s.validProfs.any fun (m : Nat) => decide (mFir m = k)) = true) ∧ (s.firCode k ≠ Rc.OK) ∧ (∀ (j : Nat), j < k → (s.validProfs.any fun (m : Nat) => decide (mFir m = j)) = true → s.firCode j = Rc.OK))
    ∧ (∃ (s : Chip) (ag : Agent), (s.radioOwner ag = true) ∧ (s.bit F.CX_CTL_EN = false) ∧ (s.fld F.CX_CFG_ROLE = 3))
    ∧ (∃ (s : Chip) (ag : Agent), (s.radioOwner ag = true) ∧ (s.bit F.CX_CTL_EN = false) ∧ (s.fld F.CX_CFG_ROLE = 0))
    ∧ (∃ (s : Chip) (ag : Agent), (s.radioOwner ag = true) ∧ (s.bit F.CX_CTL_EN = false) ∧ (s.fld F.CX_CFG_ROLE = 1 ∨ s.fld F.CX_CFG_ROLE = 2) ∧ (s.cxPinsOk = false))
    ∧ (∃ (s : Chip) (ag : Agent), (s.radioOwner ag = true) ∧ (s.bit F.CX_CTL_EN = false) ∧ (s.fld F.CX_CFG_ROLE = 1) ∧ (s.cxPinsOk = true) ∧ (s.bit F.RFE_CTL_EN = false))
    ∧ (∃ (s : Chip) (ag : Agent), (s.radioOwner ag = true) ∧ (s.bit F.CX_CTL_EN = false) ∧ (s.fld F.CX_CFG_ROLE = 1) ∧ (s.cxPinsOk = true) ∧ (s.bit F.RFE_CTL_EN = true))
    ∧ (∃ (s : Chip) (ag : Agent) (u : Chip) (g : Bool), ((s.radioOwner ag = true) ∧ (s.bit F.CX_CTL_EN = false) ∧ (s.fld F.CX_CFG_ROLE = 2) ∧ (s.cxPinsOk = true)) ∧ (u = s.enableBlock Block.cx) ∧ (g = bitOf (u.fld F.CX_ARBCUR_TABLE) (2 * (u.inputLevel Mean.CX_PRI).toNat + (u.inputLevel Mean.CX_REQ).toNat)))
    ∧ (∃ (s : Chip) (ag : Agent), (s.radioOwner ag = true) ∧ (s.bit F.MDM_CTL_EN = false) ∧ (s.prov 4 = false ∨ s.bit F.RFE_CTL_EN = false))
    ∧ (∃ (s : Chip) (ag : Agent), (s.radioOwner ag = true) ∧ (s.bit F.MDM_CTL_EN = false) ∧ (s.prov 4 = true) ∧ (s.bit F.RFE_CTL_EN = true) ∧ (s.fld (F.EGY_DECL_PEAK 3) < 67))
    ∧ (∃ (s : Chip) (ag : Agent), (s.radioOwner ag = true) ∧ (s.bit F.MDM_CTL_EN = false) ∧ (s.prov 4 = true) ∧ (s.bit F.RFE_CTL_EN = true) ∧ (67 ≤ s.fld (F.EGY_DECL_PEAK 3))) :=
  ⟨⟨{}, Agent.foxB, by decide +kernel⟩,
    ⟨{}, Agent.foxA, by decide +kernel⟩,
    ⟨(let s : Chip := {}; let s := s.setReg (R.EGY_DECL 5) (W 0); { s with cfg := { s.cfg with prov := 8 } }), Agent.foxA, by decide +kernel⟩,
    ⟨(let s : Chip := {}; { s with cfg := { s.cfg with prov := 8 } }), Agent.foxA, by decide +kernel⟩,
    ⟨{}, Agent.foxA, by decide +kernel⟩,
    ⟨(let s : Chip := {}; let s := s.setBit F.SYN_CTL_EN true; let s := s.setFld (F.EGY_DECL_PEAK 4) 0; s.setReg (R.RFE_PROF_M 0) (W 0x80F800000)), .svc, by decide +kernel⟩,
    ⟨(let s : Chip := {}; s.setFld F.SYN_CTL_EN 1), Agent.foxA, _, by decide +kernel, rfl, by decide +kernel⟩,
    ⟨(let s : Chip := {}; let s := s.setReg (R.RFE_PROF_M 0) (W 0x800000000); let s := s.setFld (F.EGY_DECL_PEAK 4) 4095; let s := s.setBit F.SYN_CTL_EN true; (List.range 11).foldl (fun s i => s.setReg (R.RFE_FIR 0 i) (W 0)) s), .foxA, _, 0, by decide +kernel, rfl, by decide +kernel⟩,
    ⟨(let s : Chip := {}; s.setReg R.CX_CFG (W 3)), Agent.foxA, by decide +kernel⟩,
    ⟨{}, Agent.foxA, by decide +kernel⟩,
    ⟨(let s : Chip := {}; s.setFld F.CX_CFG_ROLE 2), Agent.foxA, by decide +kernel⟩,
    ⟨(let s : Chip := {}; s.setReg R.CX_CFG (W 1)), Agent.foxA, by decide +kernel⟩,
    ⟨(let s : Chip := {}; let s := s.setReg R.RFE_CTL (W 1); s.setFld F.CX_CFG_ROLE 1), Agent.foxA, by decide +kernel⟩,
    ⟨(let s : Chip := {}; let s := s.setFld F.CX_CFG_ROLE 2; let s := s.setReg (R.PIN_MAP 1) (W (13 <<< 8 ||| 13 <<< 14)); let s := s.setReg (R.PIN_MAP 2) (W (14 <<< 8 ||| 14 <<< 14)); s.setReg (R.PIN_MAP 3) (W (15 <<< 8 ||| 15 <<< 14))), .foxA, _, _, by decide +kernel, rfl, rfl⟩,
    ⟨{}, Agent.foxA, by decide +kernel⟩,
    ⟨(let s : Chip := {}; let s := s.setFld F.RFE_CTL_EN 1; let s := { s with cfg := { s.cfg with prov := 24 } }; s.setReg (R.EGY_DECL 3) (W 0)), Agent.foxA, by decide +kernel⟩,
    ⟨(let s : Chip := {}; let s := { s with cfg := { s.cfg with prov := 24 } }; s.setFld F.RFE_CTL_EN 1), Agent.foxA, by decide +kernel⟩⟩

theorem wit_RadioSettings :
    (∃ (s : Chip) (ag : Agent) (n : Nat), (n < 8) ∧ (s.lockedSec 12 = false) ∧ (s.radioOwner ag = false))
    ∧ (∃ (s : Chip) (n : Nat), (n < 8) ∧ (s.lockedSec 12 = true))
    ∧ (∃ (s : Chip) (ag : Agent) (n : Nat) (v : Word) (f : Nat), ((n < 8) ∧ (s.radioOwner ag = true) ∧ (s.lockedSec 12 = false)) ∧ (f = bits (BitVec.toNat v) 29 0) ∧ (f ≠ 0) ∧ (inBands f = false))
    ∧ (∃ (s : Chip) (ag : Agent) (n : Nat) (v : Word) (f : Nat), ((n < 8) ∧ (s.radioOwner ag = true) ∧ (s.lockedSec 12 = false)) ∧ (f = bits (BitVec.toNat v) 29 0) ∧ (f = 0 ∨ inBands f = true))
    ∧ (∃ (s : Chip) (ag : Agent) (n : Nat) (v : Word) (m : Nat), ((n < 8) ∧ (s.radioOwner ag = true) ∧ (s.lockedSec 12 = false)) ∧ (m = BitVec.toNat v &&& 68719476511) ∧ (s.profMCheck n m = Rc.OK))
    ∧ (∃ (s : Chip) (ag : Agent) (n : Nat) (v : Word) (m : Nat), ((n < 8) ∧ (s.radioOwner ag = true) ∧ (s.lockedSec 12 = false)) ∧ (m = BitVec.toNat v &&& 68719476511) ∧ (s.profMCheck n m ≠ Rc.OK))
    ∧ (∃ (s : Chip) (ag : Agent) (n : Nat) (v : Word) (m : Nat), ((n < 8) ∧ (s.radioOwner ag = true) ∧ (s.lockedSec 12 = false)) ∧ (m = BitVec.toNat v &&& 68719476511) ∧ (mValid m = true) ∧ (s.profF n = 0))
    ∧ (∃ (s : Chip) (ag : Agent) (n : Nat) (v : Word) (m : Nat), ((n < 8) ∧ (s.radioOwner ag = true) ∧ (s.lockedSec 12 = false)) ∧ (m = BitVec.toNat v &&& 68719476511) ∧ (s.profF n ≠ 0) ∧ (mPwr m = 63 ∨ 24 < bits m 4 0 ∨ mValid m = true ∧ mMode m = 0))
    ∧ (∃ (s : Chip) (ag : Agent) (n : Nat) (v : Word) (m : Nat), ((n < 8) ∧ (s.radioOwner ag = true) ∧ (s.lockedSec 12 = false)) ∧ (m = BitVec.toNat v &&& 68719476511) ∧ (s.profF n ≠ 0) ∧ (mPwr m ≠ 63) ∧ (bits m 4 0 ≤ 24) ∧ (mRxbw m < 12) ∧ (mMode m ≠ 0) ∧ (mPwr m < mMinPwr m))
    ∧ (∃ (s : Chip) (ag : Agent) (m : Nat) (v : Word) (code : Nat → Nat), (m < 8) ∧ (code = fun (mm : Nat) => if setCheck mm (BitVec.toNat v &&& setMask mm) ≠ Rc.OK then setCheck mm (BitVec.toNat v &&& setMask mm) else if (s.validProfs.any fun (p : Nat) => decide (mMode p = mm) && decide (mMset p = m) && tooNarrow mm (BitVec.toNat v &&& setMask mm) (mRxbw p)) = true then Rc.COMBINATION else Rc.OK) ∧ (s.radioOwner ag = false))
    ∧ (∃ (s : Chip) (ag : Agent) (m : Nat) (v : Word) (code : Nat → Nat), (m < 8) ∧ (code = fun (mm : Nat) => if setCheck mm (BitVec.toNat v &&& setMask mm) ≠ Rc.OK then setCheck mm (BitVec.toNat v &&& setMask mm) else if (s.validProfs.any fun (p : Nat) => decide (mMode p = mm) && decide (mMset p = m) && tooNarrow mm (BitVec.toNat v &&& setMask mm) (mRxbw p)) = true then Rc.COMBINATION else Rc.OK) ∧ (s.radioOwner ag = true) ∧ (code 1 = Rc.OK))
    ∧ (∃ (s : Chip) (ag : Agent) (m : Nat) (v : Word) (code : Nat → Nat), (m < 8) ∧ (code = fun (mm : Nat) => if setCheck mm (BitVec.toNat v &&& setMask mm) ≠ Rc.OK then setCheck mm (BitVec.toNat v &&& setMask mm) else if (s.validProfs.any fun (p : Nat) => decide (mMode p = mm) && decide (mMset p = m) && tooNarrow mm (BitVec.toNat v &&& setMask mm) (mRxbw p)) = true then Rc.COMBINATION else Rc.OK) ∧ (s.radioOwner ag = true) ∧ (code 1 ≠ Rc.OK))
    ∧ (∃ (s : Chip) (ag : Agent) (m : Nat) (v : Word) (code : Nat → Nat), (m < 8) ∧ (code = fun (mm : Nat) => if setCheck mm (BitVec.toNat v &&& setMask mm) ≠ Rc.OK then setCheck mm (BitVec.toNat v &&& setMask mm) else if (s.validProfs.any fun (p : Nat) => decide (mMode p = mm) && decide (mMset p = m) && tooNarrow mm (BitVec.toNat v &&& setMask mm) (mRxbw p)) = true then Rc.COMBINATION else Rc.OK) ∧ (s.radioOwner ag = true) ∧ (code 2 = Rc.OK))
    ∧ (∃ (s : Chip) (ag : Agent) (m : Nat) (v : Word) (code : Nat → Nat), (m < 8) ∧ (code = fun (mm : Nat) => if setCheck mm (BitVec.toNat v &&& setMask mm) ≠ Rc.OK then setCheck mm (BitVec.toNat v &&& setMask mm) else if (s.validProfs.any fun (p : Nat) => decide (mMode p = mm) && decide (mMset p = m) && tooNarrow mm (BitVec.toNat v &&& setMask mm) (mRxbw p)) = true then Rc.COMBINATION else Rc.OK) ∧ (s.radioOwner ag = true) ∧ (code 2 ≠ Rc.OK))
    ∧ (∃ (s : Chip) (ag : Agent) (m : Nat) (v : Word) (code : Nat → Nat), (m < 8) ∧ (code = fun (mm : Nat) => if setCheck mm (BitVec.toNat v &&& setMask mm) ≠ Rc.OK then setCheck mm (BitVec.toNat v &&& setMask mm) else if (s.validProfs.any fun (p : Nat) => decide (mMode p = mm) && decide (mMset p = m) && tooNarrow mm (BitVec.toNat v &&& setMask mm) (mRxbw p)) = true then Rc.COMBINATION else Rc.OK) ∧ (s.radioOwner ag = true) ∧ (code 3 = Rc.OK))
    ∧ (∃ (s : Chip) (ag : Agent) (m : Nat) (v : Word) (code : Nat → Nat), (m < 8) ∧ (code = fun (mm : Nat) => if setCheck mm (BitVec.toNat v &&& setMask mm) ≠ Rc.OK then setCheck mm (BitVec.toNat v &&& setMask mm) else if (s.validProfs.any fun (p : Nat) => decide (mMode p = mm) && decide (mMset p = m) && tooNarrow mm (BitVec.toNat v &&& setMask mm) (mRxbw p)) = true then Rc.COMBINATION else Rc.OK) ∧ (s.radioOwner ag = true) ∧ (code 3 ≠ Rc.OK))
    ∧ (∃ (s : Chip) (m : Nat) (w : Nat) (v : Word) (code : Nat → Nat), (m < 8) ∧ (code = fun (mm : Nat) => if setCheck mm (BitVec.toNat v &&& setMask mm) ≠ Rc.OK then setCheck mm (BitVec.toNat v &&& setMask mm) else if (s.validProfs.any fun (p : Nat) => decide (mMode p = mm) && decide (mMset p = m) && tooNarrow mm (BitVec.toNat v &&& setMask mm) (mRxbw p)) = true then Rc.COMBINATION else Rc.OK) ∧ (lsSwf w < 6 ∨ 14 < lsSwf w ∨ lsNpre w < 8))
    ∧ (∃ (s : Chip) (m : Nat) (w : Nat) (v : Word) (code : Nat → Nat), (m < 8) ∧ (code = fun (mm : Nat) => if setCheck mm (BitVec.toNat v &&& setMask mm) ≠ Rc.OK then setCheck mm (BitVec.toNat v &&& setMask mm) else if (s.validProfs.any fun (p : Nat) => decide (mMode p = mm) && decide (mMset p = m) && tooNarrow mm (BitVec.toNat v &&& setMask mm) (mRxbw p)) = true then Rc.COMBINATION else Rc.OK) ∧ (bits w 11 10 = 3))
    ∧ (∃ (s : Chip) (m : Nat) (w : Nat) (v : Word) (code : Nat → Nat), (m < 8) ∧ (code = fun (mm : Nat) => if setCheck mm (BitVec.toNat v &&& setMask mm) ≠ Rc.OK then setCheck mm (BitVec.toNat v &&& setMask mm) else if (s.validProfs.any fun (p : Nat) => decide (mMode p = mm) && decide (mMset p = m) && tooNarrow mm (BitVec.toNat v &&& setMask mm) (mRxbw p)) = true then Rc.COMBINATION else Rc.OK) ∧ (fkFec w = 3 ∨ fkNpre w < 4 ∨ 1000 < fkNpre w))
    ∧ (∃ (ag : Agent), (ag ≠ Agent.badger))
    ∧ (∃ (s : Chip) (v : Word) (u : Chip), (u = (s.setFld F.CX_ARBNXT_TABLE (BitVec.toNat v)).setReason R.CX_STAT Rc.OK) ∧ (s.bit F.LNK_CTL_EN = true))
    ∧ (∃ (s : Chip) (v : Word) (u : Chip), (u = (s.setFld F.CX_ARBNXT_TABLE (BitVec.toNat v)).setReason R.CX_STAT Rc.OK) ∧ (s.bit F.LNK_CTL_EN = false)) :=
  ⟨⟨{}, Agent.foxB, 0, by decide +kernel⟩,
    ⟨(let s : Chip := {}; s.setReg R.SSM_LOCK (W 0x3FFE)), 0, by decide +kernel⟩,
    ⟨{}, Agent.foxA, 0, 1#36, _, by decide +kernel, rfl, by decide +kernel⟩,
    ⟨(let s : Chip := {}; s.setReg R.RFE_CFG (W 510000000)), Agent.badger, 0, 0#36, _, by decide +kernel, rfl, by decide +kernel⟩,
    ⟨(let s : Chip := {}; s.setFld F.RFE_CFG_OWNER 3), Agent.host, 0, 0#36, _, by decide +kernel, rfl, by decide +kernel⟩,
    ⟨(let s : Chip := {}; s.setFld F.RFE_CFG_OWNER 1), Agent.foxB, 0, 0x200000#36, _, by decide +kernel, rfl, by decide +kernel⟩,
    ⟨{}, Agent.foxA, 0, 0xfffffff1e#36, _, by decide +kernel, rfl, by decide +kernel⟩,
    ⟨(let s : Chip := {}; s.setReg (R.RFE_PROF_F 1) (W 1)), Agent.foxA, 1, 0x19#36, _, by decide +kernel, rfl, by decide +kernel⟩,
    ⟨(let s : Chip := {}; s.setReg (R.RFE_PROF_F 0) (W 1)), Agent.foxA, 0, 0x7c674c204#36, _, by decide +kernel, rfl, by decide +kernel⟩,
    ⟨{}, Agent.foxB, 0, 0#36, _, by decide +kernel, rfl, by decide +kernel⟩,
    ⟨(let s : Chip := {}; s.setFld F.RFE_CFG_OWNER 3), Agent.host, 0, 0x30d40#36, _, by decide +kernel, rfl, by decide +kernel⟩,
    ⟨{}, Agent.foxA, 0, 0#36, _, by decide +kernel, rfl, by decide +kernel⟩,
    ⟨(let s : Chip := {}; s.setFld F.RFE_CFG_OWNER 1), Agent.foxB, 0, 0#36, _, by decide +kernel, rfl, by decide +kernel⟩,
    ⟨{}, Agent.foxA, 0, 0xc#36, _, by decide +kernel, rfl, by decide +kernel⟩,
    ⟨{}, Agent.foxA, 0, 0x800000000#36, _, by decide +kernel, rfl, by decide +kernel⟩,
    ⟨{}, Agent.foxA, 0, 0#36, _, by decide +kernel, rfl, by decide +kernel⟩,
    ⟨{}, 0, 0, 0#36, _, by decide +kernel, rfl, by decide +kernel⟩,
    ⟨{}, 0, 3964, 0#36, _, by decide +kernel, rfl, by decide +kernel⟩,
    ⟨{}, 0, 0, 0#36, _, by decide +kernel, rfl, by decide +kernel⟩,
    ⟨Agent.foxA, by decide +kernel⟩,
    ⟨(let s : Chip := {}; s.setFld F.LNK_CTL_EN 1), 0#36, _, rfl, by decide +kernel⟩,
    ⟨{}, 0#36, _, rfl, by decide +kernel⟩⟩

theorem wit_LocksAndCalibrations :
    (∃ (s : Chip) (ag : Agent), (s.radioOwner ag = true) ∧ (s.bit F.SYN_CTL_EN = false))
    ∧ (∃ (s : Chip) (ag : Agent), (s.radioOwner ag = true) ∧ (s.bit F.SYN_STAT_CALPEND = true))
    ∧ (∃ (s : Chip) (ag : Agent) (k : Nat), (s.radioOwner ag = true) ∧ (s.syn.job = SynJob.cmd k ∨ s.syn.job = SynJob.cell k))
    ∧ (∃ (s : Chip) (ag : Agent), (s.radioOwner ag = true) ∧ (s.bit F.SYN_CTL_EN = true) ∧ (s.bit F.SYN_STAT_CALPEND = false) ∧ (s.syn.job = SynJob.idle) ∧ (s.lnk.live.isSome = true))
    ∧ (∃ (s : Chip) (u : Chip) (ag : Agent), ((s.radioOwner ag = true) ∧ (s.bit F.SYN_CTL_EN = true) ∧ (s.bit F.SYN_STAT_CALPEND = false) ∧ (s.syn.job = SynJob.idle) ∧ (s.lnk.live = none)) ∧ (u = (s.setReason R.SYN_STAT Rc.OK).setBit F.SYN_STAT_CALPEND false))
    ∧ (∃ (s : Chip), (s.bit F.SYN_STAT_CALPEND = false ∨ s.lnk.live.isSome = true))
    ∧ (∃ (s : Chip), (s.bit F.SYN_STAT_CALPEND = true) ∧ (s.lnk.live = none) ∧ (s.syn.job = SynJob.idle))
    ∧ (∃ (s : Chip) (u : Chip), (u = s.endGrant 5) ∧ (s.syn.job = SynJob.idle ∨ s.syn.stepEnd = none))
    ∧ (∃ (s : Chip) (u : Chip) (k : Nat), (u = s.endGrant 5) ∧ (s.syn.job = SynJob.cmd k) ∧ (k < 3) ∧ (s.syn.stepEnd.isSome = true) ∧ (s.syn.orphan = false))
    ∧ (∃ (s : Chip) (u : Chip) (w : Chip), (u = s.endGrant 5) ∧ ((s.syn.job = SynJob.cmd 3) ∧ (s.syn.stepEnd.isSome = true) ∧ (s.syn.orphan = false) ∧ (s.syn.bad = false)) ∧ (w = ((u.calOver.setFld F.SYN_STAT_TCAL (u.calOver.fld F.EGY_STAT_TEMP)).setBit F.SYN_STAT_CALVALID true).setReason R.SYN_STAT Rc.OK) ∧ (w.wantsLock = false))
    ∧ (∃ (s : Chip) (u : Chip) (w : Chip) (l : Live) (x : Chip), (u = s.endGrant 5) ∧ ((s.syn.job = SynJob.cmd 3) ∧ (s.syn.stepEnd.isSome = true) ∧ (s.syn.orphan = false) ∧ (s.syn.bad = false)) ∧ (w = ((u.calOver.setFld F.SYN_STAT_TCAL (u.calOver.fld F.EGY_STAT_TEMP)).setBit F.SYN_STAT_CALVALID true).setReason R.SYN_STAT Rc.OK) ∧ (w.wantsLock = true) ∧ (w.lnk.live = some l) ∧ (x = (w.setFld F.SYN_FREQ_FREQ l.freq).draw))
    ∧ (∃ (s : Chip) (u : Chip) (ok : Bool), (u = s.endGrant 5) ∧ (s.syn.job = SynJob.cmd 3) ∧ (s.syn.stepEnd.isSome = true) ∧ (s.syn.orphan = false) ∧ (s.syn.bad = true ∨ ok = false))
    ∧ (∃ (s : Chip), (s.syn.lockFrom = none))
    ∧ (∃ (s : Chip), (s.syn.lockFrom.isSome = true))
    ∧ (∃ (s : Chip) (u : Chip), (u = ((s.setBit F.SYN_STAT_LOCK false).setReason R.SYN_STAT Rc.UNLOCKED).occ 71) ∧ (s.bit F.SYN_STAT_LOCK = false))
    ∧ (∃ (s : Chip) (u : Chip), (u = ((s.setBit F.SYN_STAT_LOCK false).setReason R.SYN_STAT Rc.UNLOCKED).occ 71) ∧ (s.bit F.SYN_STAT_LOCK = true) ∧ (s.lnk.live = none) ∧ (u.lnk.live = none))
    ∧ (∃ (s : Chip) (u : Chip) (l : Live), (u = ((s.setBit F.SYN_STAT_LOCK false).setReason R.SYN_STAT Rc.UNLOCKED).occ 71) ∧ (s.bit F.SYN_STAT_LOCK = true) ∧ (u.lnk.live = some l) ∧ (l.onAir = true))
    ∧ (∃ (s : Chip) (u : Chip) (l : Live), (u = ((s.setBit F.SYN_STAT_LOCK false).setReason R.SYN_STAT Rc.UNLOCKED).occ 71) ∧ (s.bit F.SYN_STAT_LOCK = true) ∧ (u.lnk.live = some l) ∧ (l.onAir = false) ∧ (l.receiving = true) ∧ (u.fld F.LNK_STAT_LIVE ≠ 3))
    ∧ (∃ (s : Chip) (ag : Agent), (s.radioOwner ag = true))
    ∧ (∃ (s : Chip) (ag : Agent), (s.radioOwner ag = false))
    ∧ (∃ (s : Chip) (k : Nat) (t : Nat) (c : Nat), (k < 4) ∧ (s.syn.bgDone.getD k (0, 0) = (t, c)))
    ∧ (∃ (s : Chip) (k : Nat) (d : Nat), ((k < 4) ∧ (bitOf s.syn.bgDue k = true) ∧ (∀ (j : Nat), j < k → bitOf s.syn.bgDue j = false)) ∧ (d = [40, 50, 50, 45].getD k 45) ∧ (s.pwr.st = PState.run) ∧ (s.bit F.SYN_CTL_EN = true) ∧ (s.bit F.RFE_CTL_EN = true) ∧ (s.radioIdle = true) ∧ (s.nextPrep = none))
    ∧ (∃ (s : Chip) (k : Nat) (d : Nat) (t : Nat), ((k < 4) ∧ (bitOf s.syn.bgDue k = true) ∧ (∀ (j : Nat), j < k → bitOf s.syn.bgDue j = false)) ∧ (d = [40, 50, 50, 45].getD k 45) ∧ ((s.pwr.st = PState.run) ∧ (s.bit F.SYN_CTL_EN = true) ∧ (s.bit F.RFE_CTL_EN = true) ∧ (s.radioIdle = true)) ∧ (s.nextPrep = some t) ∧ (s.syn.idleSince + us 300 ≤ t) ∧ (s.now + us (d + 10) ≤ t) ∧ (s.syn.gapLate = false ∨ s.syn.gap ≠ some t))
    ∧ (∃ (s : Chip) (k : Nat) (d : Nat) (t : Nat), ((k < 4) ∧ (bitOf s.syn.bgDue k = true) ∧ (∀ (j : Nat), j < k → bitOf s.syn.bgDue j = false)) ∧ (d = [40, 50, 50, 45].getD k 45) ∧ ((s.pwr.st = PState.run) ∧ (s.bit F.SYN_CTL_EN = true) ∧ (s.bit F.RFE_CTL_EN = true) ∧ (s.radioIdle = true)) ∧ (s.nextPrep = some t) ∧ (s.syn.idleSince + us 300 ≤ t) ∧ (s.now + us (d + 10) ≤ t) ∧ (s.syn.gapLate = true) ∧ (s.syn.gap = some t))
    ∧ (∃ (s : Chip) (k : Nat) (d : Nat) (t : Nat), ((k < 4) ∧ (bitOf s.syn.bgDue k = true) ∧ (∀ (j : Nat), j < k → bitOf s.syn.bgDue j = false)) ∧ (d = [40, 50, 50, 45].getD k 45) ∧ ((s.pwr.st = PState.run) ∧ (s.bit F.SYN_CTL_EN = true) ∧ (s.bit F.RFE_CTL_EN = true) ∧ (s.radioIdle = true)) ∧ (s.nextPrep = some t) ∧ (t < s.syn.idleSince + us 300 ∨ t < s.now + us (d + 10)))
    ∧ (∃ (s : Chip), ((∀ (k : Nat), k < 4 → bitOf s.syn.bgDue k = false) ∨ s.radioIdle = false))
    ∧ (∃ (s : Chip) (u : Chip), (u = s.calOver) ∧ (s.syn.job = SynJob.idle ∨ s.syn.stepEnd = none))
    ∧ (∃ (s : Chip) (u : Chip) (k : Nat) (y : Syn), (u = s.calOver) ∧ ((s.syn.job = SynJob.bg k) ∧ (s.syn.stepEnd.isSome = true)) ∧ (y = { u.syn with bgDue := putBit u.syn.bgDue k false, bgDone := u.syn.bgDone.set k (u.now, u.fld F.EGY_STAT_TEMP), idleSince := s.syn.idleSince })) :=
  ⟨⟨(let s : Chip := {}; s.setFld F.RFE_CFG_OWNER 3), Agent.host, by decide +kernel⟩,
    ⟨(let s : Chip := {}; s.setFld F.SYN_STAT_CALPEND 1), Agent.foxA, by decide +kernel⟩,
    ⟨(let s : Chip := {}; { s with syn := { s.syn with job := SynJob.cmd 7 } }), Agent.foxA, 7, by decide +kernel⟩,
    ⟨(let s : Chip := {}; let s := { s with lnk := { s.lnk with live := some { c := { cls := 0, asn := 0, b := 0, index := 0, w0 := 0, w1 := 0, tx := false, q := 0, ch := 0, freq := none, guard := 0, window := false, marked := false, stamp := none, ended := none }, freq := 0, m := 0, mset := 0, granted := false, held := false, cxHeld := false, rampAt := none, txEnd := none, abort := none, pwr := 0, octets := [], e := 0, win := none, ack := none, deliver := none, reason := 0, txd := false, rxd := false, ackok := false, corr := none, corrUsed := false, txenUp := false } } }; s.setReg R.SYN_CTL (W 1)), Agent.foxA, by decide +kernel⟩,
    ⟨(let s : Chip := {}; s.setFld F.SYN_CTL_EN 1), _, Agent.foxA, by decide +kernel, rfl⟩,
    ⟨{}, by decide +kernel⟩,
    ⟨(let s : Chip := {}; s.setFld F.SYN_STAT_CALPEND 1), by decide +kernel⟩,
    ⟨{}, _, rfl, by decide +kernel⟩,
    ⟨(let s : Chip := {}; { s with syn := { s.syn with job := .cmd 0, stepEnd := some 0 } }), _, 0, rfl, by decide +kernel⟩,
    ⟨(let s : Chip := {}; { s with syn := { s.syn with job := SynJob.cmd 3, stepEnd := some 0 } }), _, _, rfl, by decide +kernel, rfl, by decide +kernel⟩,
    ⟨(let s : Chip := {}; let s := { s with syn := { s.syn with job := SynJob.cmd 3, stepEnd := some 0 } }; { s with lnk := { s.lnk with live := some { c := { cls := 0, asn := 0, b := 0, index := 0, w0 := 0, w1 := 0, tx := true, q := 5, ch := 0 }, freq := 0, m := 2 <<< 21, mset := 0, granted := true, win := some { openAt := 0, closeAt := 0 } } } }), _, _, _, _, rfl, by decide +kernel, rfl, by decide +kernel, wSome _ (by decide +kernel), rfl⟩,
    ⟨(let s : Chip := {}; { s with syn := { s.syn with job := .cmd 3, stepEnd := some 0, bad := true } }), _, false, rfl, by decide +kernel⟩,
    ⟨{}, by decide +kernel⟩,
    ⟨(let s : Chip := {}; { s with syn := { s.syn with lockFrom := some 0 } }), by decide +kernel⟩,
    ⟨{}, _, rfl, by decide +kernel⟩,
    ⟨(let s : Chip := {}; s.setFld F.SYN_STAT_LOCK 1), _, rfl, by decide +kernel⟩,
    ⟨(let s : Chip := {}; let s := s.setFld F.SYN_STAT_LOCK 1; let s := withLive s (fun l => { l with txEnd := some 0 }); withLive s (fun l => { l with rampAt := some 0 })), _, _, rfl, by decide +kernel, wSome _ (by decide +kernel), by decide +kernel⟩,
    ⟨(let s : Chip := {}; let s := s.setFld F.SYN_STAT_LOCK 1; withLive s (fun l => withWin l (fun w => { w with opened := true }))), _, _, rfl, by decide +kernel, wSome _ (by decide +kernel), by decide +kernel⟩,
    ⟨{}, Agent.foxA, by decide +kernel⟩,
    ⟨(let s : Chip := {}; s.setFld F.RFE_CFG_OWNER 1), Agent.foxA, by decide +kernel⟩,
    ⟨{}, 0, _, _, by decide +kernel, rfl⟩,
    ⟨(let s : Chip := {}; let s := s.setFld F.RFE_CTL_EN 1; let s := s.setReg R.SYN_CTL (W 1); { s with syn := { s.syn with bgDue := 1 } }), 0, _, by decide +kernel, rfl, by decide +kernel⟩,
    ⟨(let s : Chip := {}; let s := s.setFld F.RFE_CTL_EN 1; let s := { s with lnk := { s.lnk with chosen := [{ cls := 0, asn := 0, b := 10 ^ 9, index := 0, w0 := 0, w1 := 0, tx := true, q := 5, ch := 0 }] } }; let s := s.setReg R.SYN_CTL (W 1); { s with syn := { s.syn with bgDue := 8, gapLate := false } }), 3, _, _, by decide +kernel, rfl, by decide +kernel, wSome _ (by decide +kernel), by decide +kernel⟩,
    ⟨(let s : Chip := {}; let s := s.setFld F.RFE_CTL_EN 1; let s := { s with lnk := { s.lnk with chosen := [{ cls := 0, asn := 0, b := 10 ^ 9, index := 0, w0 := 0, w1 := 0, tx := true, q := 5, ch := 0 }] } }; let s := s.setReg R.SYN_CTL (W 1); { s with syn := { s.syn with bgDue := 8, gapLate := true, gap := s.nextPrep } }), 3, _, _, by decide +kernel, rfl, by decide +kernel, wSome _ (by decide +kernel), by decide +kernel⟩,
    ⟨(let s : Chip := {}; let s := s.setFld F.RFE_CTL_EN 1; let s := { s with lnk := { s.lnk with chosen := [{ cls := 0, asn := 0, b := 0, index := 0, w0 := 0, w1 := 0, tx := false, q := 0, ch := 0, freq := none, guard := 0, window := false, marked := false, stamp := none, ended := none }, { cls := 4, asn := 0, b := 0, index := 0, w0 := 0, w1 := 0, tx := false, q := 0, ch := 0, freq := none, guard := 0, window := false, marked := false, stamp := none, ended := none }] } }; let s := s.setReg R.SYN_CTL (W 1); { s with syn := { s.syn with bgDue := 8 } }), 3, _, _, by decide +kernel, rfl, by decide +kernel, wSome _ (by decide +kernel), by decide +kernel⟩,
    ⟨{}, by decide +kernel⟩,
    ⟨{}, _, rfl, by decide +kernel⟩,
    ⟨(let s : Chip := {}; let s := { s with syn := { s.syn with stepEnd := some 0 } }; { s with syn := { s.syn with job := SynJob.bg 24 } }), _, 24, _, rfl, by decide +kernel, rfl⟩⟩

theorem wit_TransmitStart :
    (∃ (s : Chip) (l : Live) (a : Nat) (f : List Byte) (e : Nat), (s.headEntry l.c.q = some a) ∧ (f = s.rdBs (4 * bits (BitVec.toNat (s.rd a)) 23 0) (bits (BitVec.toNat (s.rd (a + 1))) 10 0)) ∧ (e = s.now + s.ramp + airTime l.mm l.mset f.length))
    ∧ (∃ (s : Chip) (u : Chip) (gnt : Bool) (l : Live) (i : Instr), (u = s.driveGnt gnt) ∧ (u.txWaiting = some l) ∧ (i = Instr.txRampStart gnt) ∧ (l.held = false) ∧ (u.deadlineOf l < u.now + u.ramp) ∧ (l.cxHeld = false))
    ∧ (∃ (s : Chip) (u : Chip) (gnt : Bool) (l : Live) (i : Instr), (u = s.driveGnt gnt) ∧ (u.txWaiting = some l) ∧ (i = Instr.txRampStart gnt) ∧ (l.held = false) ∧ (u.now + u.ramp ≤ u.deadlineOf l) ∧ (u.bit F.SYN_STAT_LOCK = false ∨ u.calRuns = true))
    ∧ (∃ (s : Chip) (u : Chip) (gnt : Bool) (l : Live) (i : Instr), (u = s.driveGnt gnt) ∧ (u.txWaiting = some l) ∧ (i = Instr.txRampStart gnt) ∧ (l.held = false) ∧ (u.now + u.ramp ≤ u.deadlineOf l) ∧ (u.bit F.SYN_STAT_LOCK = true) ∧ (u.calRuns = false) ∧ (u.cxDenies = true) ∧ (l.cxTx = true))
    ∧ (∃ (s : Chip) (u : Chip) (gnt : Bool) (l : Live) (i : Instr), (u = s.driveGnt gnt) ∧ (u.txWaiting = some l) ∧ (i = Instr.txRampStart gnt) ∧ (l.held = false) ∧ (u.now + u.ramp ≤ u.deadlineOf l) ∧ (u.bit F.SYN_STAT_LOCK = true) ∧ (u.calRuns = false) ∧ (u.cxDenies = true) ∧ (l.cxTx = false))
    ∧ (∃ (s : Chip) (u : Chip) (gnt : Bool) (l : Live) (i : Instr), (u = s.driveGnt gnt) ∧ (u.txWaiting = some l) ∧ (i = Instr.txRampStart gnt) ∧ (l.held = false) ∧ (u.now + u.ramp ≤ u.deadlineOf l) ∧ (u.bit F.SYN_STAT_LOCK = true) ∧ (u.calRuns = false) ∧ (u.cxDenies = false))
    ∧ (∃ (s : Chip) (u : Chip) (gnt : Bool) (l : Live) (i : Instr), (u = s.driveGnt gnt) ∧ (u.txWaiting = some l) ∧ (i = Instr.txHoldResolve gnt) ∧ (l.held = true) ∧ (u.deadlineOf l < u.now + u.ramp) ∧ (l.cxHeld = false))
    ∧ (∃ (s : Chip) (u : Chip) (gnt : Bool) (l : Live) (i : Instr), (u = s.driveGnt gnt) ∧ (u.txWaiting = some l) ∧ (i = Instr.txHoldResolve gnt) ∧ (l.held = true) ∧ (u.now + u.ramp ≤ u.deadlineOf l) ∧ (u.bit F.SYN_STAT_LOCK = false ∨ u.calRuns = true))
    ∧ (∃ (s : Chip) (u : Chip) (gnt : Bool) (l : Live) (i : Instr), (u = s.driveGnt gnt) ∧ (u.txWaiting = some l) ∧ (i = Instr.txHoldResolve gnt) ∧ (l.held = true) ∧ (u.now + u.ramp ≤ u.deadlineOf l) ∧ (u.bit F.SYN_STAT_LOCK = true) ∧ (u.calRuns = false) ∧ (u.cxDenies = true) ∧ (l.cxTx = true))
    ∧ (∃ (s : Chip) (u : Chip) (gnt : Bool) (l : Live) (i : Instr), (u = s.driveGnt gnt) ∧ (u.txWaiting = some l) ∧ (i = Instr.txHoldResolve gnt) ∧ (l.held = true) ∧ (u.now + u.ramp ≤ u.deadlineOf l) ∧ (u.bit F.SYN_STAT_LOCK = true) ∧ (u.calRuns = false) ∧ (u.cxDenies = true) ∧ (l.cxTx = false))
    ∧ (∃ (s : Chip) (u : Chip) (gnt : Bool) (l : Live) (i : Instr), (u = s.driveGnt gnt) ∧ (u.txWaiting = some l) ∧ (i = Instr.txHoldResolve gnt) ∧ (l.held = true) ∧ (u.now + u.ramp ≤ u.deadlineOf l) ∧ (u.bit F.SYN_STAT_LOCK = true) ∧ (u.calRuns = false) ∧ (u.cxDenies = false))
    ∧ (∃ (s : Chip) (gnt : Bool), ((s.driveGnt gnt).txWaiting = none))
    ∧ (∃ (s : Chip), (s.txWaiting = none))
    ∧ (∃ (s : Chip) (l : Live), (s.txWaiting = some l) ∧ (l.held = false))
    ∧ (∃ (s : Chip) (l : Live), (s.txWaiting = some l) ∧ (l.held = true) ∧ (l.cxHeld = false))
    ∧ (∃ (s : Chip) (l : Live) (u : Chip), (s.txWaiting = some l) ∧ ((l.held = true) ∧ (l.cxHeld = true)) ∧ (u = s.cxCount))
    ∧ (∃ (s : Chip), (s.lnk.live = none))
    ∧ (∃ (s : Chip) (l : Live), (s.lnk.live = some l) ∧ (l.rampAt.isSome = true))
    ∧ (∃ (s : Chip) (l : Live), (s.lnk.live = some l) ∧ (l.rampAt = none))
    ∧ (∃ (s : Chip), (s.pinOf Mean.CX_GNT = none))
    ∧ (∃ (s : Chip) (u : Chip) (n : Nat), (s.pinOf Mean.CX_GNT = some n) ∧ (u = s.drivePin n false) ∧ (s.inPin n = false ∨ u.inPin n = true))
    ∧ (∃ (s : Chip) (u : Chip) (n : Nat), (s.pinOf Mean.CX_GNT = some n) ∧ (u = s.drivePin n false) ∧ (s.inPin n = true) ∧ (u.inPin n = false) ∧ (u.lnk.live = none))
    ∧ (∃ (s : Chip) (u : Chip) (n : Nat) (l : Live), (s.pinOf Mean.CX_GNT = some n) ∧ (u = s.drivePin n false) ∧ ((s.inPin n = true) ∧ (u.inPin n = false)) ∧ (u.lnk.live = some l) ∧ (u.requester = true) ∧ (l.cxLoss = true) ∧ (l.onAir = true))
    ∧ (∃ (s : Chip) (u : Chip) (n : Nat) (l : Live), (s.pinOf Mean.CX_GNT = some n) ∧ (u = s.drivePin n false) ∧ ((s.inPin n = true) ∧ (u.inPin n = false)) ∧ (u.lnk.live = some l) ∧ (u.requester = false ∨ l.cxLoss = false ∨ l.onAir = false))
    ∧ (∃ (s : Chip) (u : Chip) (req : Bool) (pri : Bool), (u = (s.drivePin 8 req).drivePin 9 pri) ∧ (u.arbiter = false))
    ∧ (∃ (s : Chip) (u : Chip) (req : Bool) (pri : Bool) (g : Bool), (u = (s.drivePin 8 req).drivePin 9 pri) ∧ (u.arbiter = true) ∧ (g = bitOf (u.fld F.CX_ARBCUR_TABLE) (2 * (u.inputLevel Mean.CX_PRI).toNat + (u.inputLevel Mean.CX_REQ).toNat))) :=
  ⟨⟨(let s : Chip := {}; s.setReg (R.QUE_TAIL 1) (W 1)), { c := { cls := 0, asn := 0, b := 0, index := 0, w0 := 0, w1 := 0, tx := false, q := 1, ch := 0, freq := none, guard := 0, window := false, marked := false, stamp := none, ended := none }, freq := 0, m := 0, mset := 0, granted := false, held := false, cxHeld := false, rampAt := none, txEnd := none, abort := none, pwr := 0, octets := [], e := 0, win := none, ack := none, deliver := none, reason := 0, txd := false, rxd := false, ackok := false, corr := none, corrUsed := false, txenUp := false }, _, _, _, wSome _ (by decide +kernel), rfl, rfl⟩,
    ⟨(let s : Chip := {}; let s := { s with now := s.now + 95699208 }; let s := { s with lnk := { s.lnk with live := some { c := { cls := 0, asn := 0, b := 0, index := 0, w0 := 0, w1 := 0, tx := true, q := 0, ch := 0, freq := none, guard := 0, window := false, marked := false, stamp := some { lo := 0, seq := 0, fv := false, fine := 0 }, ended := none }, freq := 0, m := 0, mset := 0, granted := false, held := false, cxHeld := false, rampAt := none, txEnd := none, abort := none, pwr := 0, octets := [], e := 0, win := none, ack := none, deliver := none, reason := 0, txd := false, rxd := false, ackok := false, corr := none, corrUsed := false, txenUp := false } } }; s.setFld F.LNK_STAT_LIVE 1), _, false, _, _, rfl, wSome _ (by decide +kernel), rfl, by decide +kernel⟩,
    ⟨(let s : Chip := {}; let s := withLive s (fun l => { l with c := { l.c with tx := true } }); s.setFld F.LNK_STAT_LIVE 1), _, false, _, _, rfl, wSome _ (by decide +kernel), rfl, by decide +kernel⟩,
    ⟨(let s : Chip := {}; let s := s.setFld F.SYN_STAT_LOCK 1; let s := s.setReg R.CX_CTL (W 1); let s := s.setFld F.LNK_STAT_LIVE 1; let s := { s with lnk := { s.lnk with live := some { c := { cls := 0, asn := 0, b := 0, index := 0, w0 := 0, w1 := 0, tx := true, q := 0, ch := 0, freq := none, guard := 0, window := false, marked := false, stamp := none, due := false, ended := none, entry := some (0, 0) }, freq := 0, m := 0, mset := 0, ramp := 0, lead := 0, hi := 0, rxw := 0, fs := 0, taps := [], cxTx := false, cxRx := false, cxLoss := false, granted := false, held := false, cxHeld := false, rampAt := none, txEnd := none, abort := none, pwr := 0, octets := [], e := 0, win := none, ack := none, deliver := none, reason := 0, txd := false, rxd := false, ackok := false, corr := none, corrUsed := false, txenUp := false, done := none } } }; let s := s.setReg R.CX_CFG (W 1); withLive s (fun l => { l with cxTx := true })), _, false, _, _, rfl, wSome _ (by decide +kernel), rfl, by decide +kernel⟩,
    ⟨(let s : Chip := {}; let s := s.setFld F.LNK_STAT_LIVE 1; let s := withLive s (fun l => { l with c := { l.c with tx := true } }); let s := s.setFld F.SYN_STAT_LOCK 1; let s := s.setReg R.CX_CTL (W 1); s.setReg R.CX_CFG (W 1)), _, false, _, _, rfl, wSome _ (by decide +kernel), rfl, by decide +kernel⟩,
    ⟨(let s : Chip := {}; let s := s.setFld F.SYN_STAT_LOCK 1; let s := s.setReg R.LNK_STAT (W 234157); let s := { s with lnk := { s.lnk with live := some { c := { cls := 0, asn := 0, b := 0, index := 0, w0 := 0, w1 := 0, tx := true, q := 0, ch := 0, freq := none, guard := 0, window := false, marked := false, stamp := some { lo := 0, seq := 0, fv := false, fine := 0 }, ended := none }, freq := 0, m := 0, mset := 0, granted := false, held := false, cxHeld := false, rampAt := none, txEnd := none, abort := none, pwr := 0, octets := [], e := 0, win := none, ack := none, deliver := none, reason := 0, txd := false, rxd := false, ackok := false, corr := none, corrUsed := false, txenUp := false } } }; withLive s (fun l => { l with c := { l.c with cls := 0 } })), _, false, _, _, rfl, wSome _ (by decide +kernel), rfl, by decide +kernel⟩,
    ⟨(let s : Chip := {}; let s := { s with lnk := { s.lnk with live := some { c := { cls := 4, asn := 0, b := 0, index := 0, w0 := 0, w1 := 0, tx := true, q := 0, ch := 0, freq := none, guard := 0, window := false, marked := false, stamp := some { lo := 0, seq := 0, fv := false, fine := 0 }, ended := none }, freq := 0, m := 0, mset := 0, granted := false, held := false, cxHeld := false, rampAt := none, txEnd := none, abort := none, pwr := 0, octets := [], e := 0, win := none, ack := none, deliver := none, reason := 0, txd := false, rxd := false, ackok := false, corr := none, corrUsed := false, txenUp := false } } }; let s := s.setFld F.LNK_STAT_LIVE 1; withLive s (fun l => { l with held := true })), _, false, _, _, rfl, wSome _ (by decide +kernel), rfl, by decide +kernel⟩,
    ⟨(let s : Chip := {}; let s := withLive s (fun l => { l with held := true }); let s := s.setReg R.LNK_STAT (W 793); withLive s (fun l => { l with c := { cls := 0, asn := 0, b := 0, index := 0, w0 := 0, w1 := 0, tx := true, q := 0, ch := 0, freq := none, guard := 0, window := false, marked := false, stamp := none, ended := none } })), _, false, _, _, rfl, wSome _ (by decide +kernel), rfl, by decide +kernel⟩,
    ⟨(let s : Chip := {}; let s := s.setFld F.SYN_STAT_LOCK 1; let s := withLive s (fun l => { l with cxTx := true }); let s := s.setFld F.LNK_STAT_LIVE 1; let s := s.setReg R.CX_CTL (W 1); let s := s.setFld F.CX_CFG_ROLE 1; let s := withLive s (fun l => { l with c := { cls := 0, asn := 0, b := 0, index := 0, w0 := 0, w1 := 0, tx := true, q := 0, ch := 0, freq := none, guard := 0, window := false, marked := false, stamp := none, due := false, ended := none, entry := none } }); withLive s (fun l => { l with held := true })), _, false, _, _, rfl, wSome _ (by decide +kernel), rfl, by decide +kernel⟩,
    ⟨(let s : Chip := {}; let s := s.setFld F.SYN_STAT_LOCK 1; let s := withLive s (fun l => { l with c := { l.c with tx := true } }); let s := withLive s (fun l => { l with held := true }); let s := s.setFld F.CX_CFG_ROLE 1; let s := s.setFld F.LNK_STAT_LIVE 1; s.setReg R.CX_CTL (W 1)), _, false, _, _, rfl, wSome _ (by decide +kernel), rfl, by decide +kernel⟩,
    ⟨(let s : Chip := {}; let s := s.setFld F.SYN_STAT_LOCK 1; let s := s.setFld F.LNK_STAT_LIVE 1; let s := withLive s (fun l => { l with c := { l.c with tx := true } }); withLive s (fun l => { l with held := true })), _, false, _, _, rfl, wSome _ (by decide +kernel), rfl, by decide +kernel⟩,
    ⟨{}, false, by decide +kernel⟩,
    ⟨{}, by decide +kernel⟩,
    ⟨(let s : Chip := {}; let s := { s with lnk := { s.lnk with live := some { c := { cls := 0, asn := 0, b := 0, index := 0, w0 := 0, w1 := 0, tx := true, q := 0, ch := 0, freq := none, guard := 0, window := false, marked := false, stamp := some { lo := 0, seq := 0, fv := false, fine := 0 }, ended := none }, freq := 0, m := 0, mset := 0, granted := false, held := false, cxHeld := false, rampAt := none, txEnd := none, abort := none, pwr := 0, octets := [], e := 0, win := none, ack := none, deliver := none, reason := 0, txd := false, rxd := false, ackok := false, corr := none, corrUsed := false, txenUp := false } } }; s.setFld F.LNK_STAT_LIVE 1), _, wSome _ (by decide +kernel), by decide +kernel⟩,
    ⟨(let s : Chip := {}; let s := withLive s (fun l => { l with c := { cls := 0, asn := 0, b := 0, index := 0, w0 := 0, w1 := 0, tx := true, q := 0, ch := 0, freq := none, guard := 0, window := false, marked := false, stamp := none, ended := none } }); let s := s.setFld F.LNK_STAT_LIVE 1; withLive s (fun l => { l with held := true })), _, wSome _ (by decide +kernel), by decide +kernel⟩,
    ⟨(let s : Chip := {}; let s := { s with lnk := { s.lnk with live := some { c := { cls := 0, asn := 0, b := 0, index := 0, w0 := 0, w1 := 0, tx := true, q := 0, ch := 0, freq := none, guard := 0, window := false, marked := false, stamp := none, ended := some 0 }, freq := 0, m := 0, mset := 0, granted := false, held := false, cxHeld := false, rampAt := none, txEnd := none, abort := none, pwr := 0, octets := [], e := 0, win := none, ack := none, deliver := none, reason := 0, txd := false, rxd := false, ackok := false, corr := none, corrUsed := false, txenUp := false } } }; let s := s.setFld F.LNK_STAT_LIVE 1; let s := withLive s (fun l => { l with held := true }); withLive s (fun l => { l with cxHeld := true })), _, _, wSome _ (by decide +kernel), by decide +kernel, rfl⟩,
    ⟨{}, by decide +kernel⟩,
    ⟨(let s : Chip := {}; withLive s (fun l => { l with rampAt := some 0 })), _, wSome _ (by decide +kernel), by decide +kernel⟩,
    ⟨(let s : Chip := {}; { s with lnk := { s.lnk with live := some { c := { cls := 0, asn := 0, b := 0, index := 0, w0 := 0, w1 := 0, tx := false, q := 0, ch := 0, freq := none, guard := 0, window := false, marked := false, stamp := none, ended := none, entry := none }, freq := 0, m := 0, mset := 0, ramp := 0, lead := 0, hi := 0, rxw := 0, fs := 0, granted := false, held := false, cxHeld := false, rampAt := none, txEnd := none, abort := none, pwr := 0, octets := [], e := 0, win := none, ack := none, deliver := none, reason := 0, txd := false, rxd := false, ackok := false, corr := none, corrUsed := false, txenUp := false, done := none } } }), _, wSome _ (by decide +kernel), by decide +kernel⟩,
    ⟨{}, by decide +kernel⟩,
    ⟨(let s : Chip := {}; { s with pins := { s.pins with cur := [0, 0, 15], driven := 4, pad := 0 } }), _, _, wSome _ (by decide +kernel), rfl, by decide +kernel⟩,
    ⟨(let s : Chip := {}; { s with pins := { s.pins with cur := [15] } }), _, _, wSome _ (by decide +kernel), rfl, by decide +kernel⟩,
    ⟨(let s : Chip := {}; let s := s.setFld F.CX_CFG_ROLE 1; let s := withLive s (fun l => { l with txEnd := some 0 }); let s := s.setReg R.CX_CTL (W 1); let s := withLive s (fun l => { l with rampAt := some 0 }); let s := withLive s (fun l => { l with cxLoss := true }); { s with pins := { s.pins with cur := [15] } }), _, _, _, wSome _ (by decide +kernel), rfl, by decide +kernel, wSome _ (by decide +kernel), by decide +kernel⟩,
    ⟨(let s : Chip := {}; let s := { s with lnk := { s.lnk with live := some { c := { cls := 0, asn := 0, b := 0, index := 0, w0 := 0, w1 := 0, tx := false, q := 0, ch := 0, freq := none, guard := 0, window := false, marked := false, stamp := none, due := false, ended := none, entry := none }, freq := 0, m := 0, mset := 0, ramp := 0, lead := 0, hi := 0, rxw := 0, fs := 0, taps := [], cxTx := false, cxRx := false, cxLoss := false, granted := false, held := false, cxHeld := false, rampAt := none, txEnd := none, abort := none, pwr := 0, octets := [], e := 0, win := none, ack := none, deliver := none, reason := 0, txd := false, rxd := false, ackok := false, corr := none, corrUsed := false, txenUp := false, done := none } } }; let s := { s with pins := { s.pins with pad := 4 } }; let s := { s with pins := { s.pins with cur := [0, 0, 15] } }; { s with pins := { s.pins with driven := 4 } }), _, _, _, wSome _ (by decide +kernel), rfl, by decide +kernel, wSome _ (by decide +kernel), by decide +kernel⟩,
    ⟨{}, _, false, false, rfl, by decide +kernel⟩,
    ⟨(let s : Chip := {}; let s := s.setFld F.CX_CFG_ROLE 2; s.setReg R.CX_CTL (W 1)), _, false, false, _, rfl, by decide +kernel, rfl⟩⟩

theorem wit_Reception :
    (∃ (s : Chip) (l : Live) (w : RxWin) (p : Int) (w' : RxWin), (s.lnk.live = some l) ∧ (l.win = some w) ∧ ((w.opened = true) ∧ (w.agcAt.isSome = true) ∧ (bitOf l.m 17 = false) ∧ (w.st ≠ RxSt.synced) ∧ (w.st ≠ RxSt.header)) ∧ (w' = { w with gain := agcStep w.gain l.hi p, agcAt := some (s.now + us (2 ^ bits l.m 10 8)) }))
    ∧ (∃ (s : Chip) (l : Live) (w : RxWin) (a : RxAcq) (w' : RxWin), (s.lnk.live = some l) ∧ (l.win = some w) ∧ ((w.opened = true) ∧ (w.st = RxSt.search) ∧ (s.now < w.closeAt) ∧ (w.since + tAcq l.mm l.mset ≤ s.now) ∧ (a.foff.natAbs ≤ foffLimit l.mm) ∧ (a.rate.natAbs ≤ rateLimit l.mm l.mset)) ∧ (w' = { w with holdTo := s.now + tDecision l.mm l.mset, st := RxSt.acquired, foff := a.foff, rate := a.rate, phase := a.phase, timing := a.timing, acqAt := s.now, course := a.course, drift := a.drift }))
    ∧ (∃ (s : Chip) (l : Live) (w : RxWin) (a : RxAcq), (s.lnk.live = some l) ∧ (l.win = some w) ∧ (foffLimit l.mm < a.foff.natAbs ∨ rateLimit l.mm l.mset < a.rate.natAbs ∨ s.now < w.since + tAcq l.mm l.mset))
    ∧ (∃ (s : Chip) (l : Live) (w : RxWin) (a : RxSync) (b : RxSync) (c : RxSync), (s.lnk.live = some l) ∧ (l.win = some w) ∧ (w.st = RxSt.acquired) ∧ (syncOk l.mm l.mset w.timing a b c = false))
    ∧ (∃ (s : Chip) (l : Live) (w : RxWin) (a : RxSync) (b : RxSync) (c : RxSync), (s.lnk.live = some l) ∧ (l.win = some w) ∧ (w.st = RxSt.acquired) ∧ (syncOk l.mm l.mset w.timing a b c = true) ∧ (s.fld F.LNK_STAT_LIVE ≠ 4))
    ∧ (∃ (s : Chip) (l : Live) (w : RxWin) (a : RxSync) (b : RxSync) (c : RxSync) (ago : Nat) (p : Stamp) (u : Chip), (s.lnk.live = some l) ∧ (l.win = some w) ∧ ((w.st = RxSt.acquired) ∧ (syncOk l.mm l.mset w.timing a b c = true) ∧ (s.fld F.LNK_STAT_LIVE = 4)) ∧ ((p, u) = s.stamp (s.now - ago)))
    ∧ (∃ (s : Chip) (l : Live) (w : RxWin) (f : RxField) (hdr : Nat) (rot : Nat), (s.lnk.live = some l) ∧ (l.win = some w) ∧ (w.st = RxSt.synced) ∧ ((hdr, rot) = rxHeader l.mm l.mset w f) ∧ (l.mm = 1) ∧ (tracksOff 1 w (l.trackedSymbols w s.now) = true))
    ∧ (∃ (s : Chip) (l : Live) (w : RxWin) (f : RxField) (hdr : Nat) (rot : Nat), (s.lnk.live = some l) ∧ (l.win = some w) ∧ (w.st = RxSt.synced) ∧ ((hdr, rot) = rxHeader l.mm l.mset w f) ∧ (l.mm ≠ 1 ∨ tracksOff 1 w (l.trackedSymbols w s.now) = false) ∧ (headerCheck l.mm hdr ≠ Rc.OK))
    ∧ (∃ (s : Chip) (l : Live) (w : RxWin) (f : RxField) (hdr : Nat) (rot : Nat) (e : Nat), (s.lnk.live = some l) ∧ (l.win = some w) ∧ (w.st = RxSt.synced) ∧ ((hdr, rot) = rxHeader l.mm l.mset w f) ∧ ((l.mm ≠ 1 ∨ tracksOff 1 w (l.trackedSymbols w s.now) = false) ∧ (headerCheck l.mm hdr = Rc.OK)) ∧ (e = w.syncAt + headerTime l.mm l.mset + frameLeft l.mm l.mset hdr))
    ∧ (∃ (s : Chip) (l : Live) (w : RxWin), (s.lnk.live = some l) ∧ (l.win = some w) ∧ (w.st = RxSt.acquired ∨ w.st = RxSt.synced ∨ w.st = RxSt.header) ∧ (tracksOff l.mm w (l.trackedSymbols w s.now) = true))
    ∧ (∃ (s : Chip) (l : Live) (w : RxWin), (s.lnk.live = some l) ∧ (l.win = some w) ∧ (tracksOff l.mm w (l.trackedSymbols w s.now) = false))
    ∧ (∃ (s : Chip) (l : Live) (w : RxWin) (f : RxField) (snr : Int) (snr' : Int) (evm : Int) (o : List Byte) (lost : Bool), (s.lnk.live = some l) ∧ (l.win = some w) ∧ (w.st = RxSt.header) ∧ ((o, lost, snr', evm) = rxPayload l.mm l.mset w f snr) ∧ (lost = true))
    ∧ (∃ (s : Chip) (l : Live) (w : RxWin) (f : RxField) (snr : Int) (snr' : Int) (evm : Int) (o : List Byte) (lost : Bool), (s.lnk.live = some l) ∧ (l.win = some w) ∧ (w.st = RxSt.header) ∧ ((o, lost, snr', evm) = rxPayload l.mm l.mset w f snr) ∧ (lost = false) ∧ ((checkFrame l.mm w.hdr o).snd = false) ∧ ((s.count { addr := cntReg l.mm, hi := 11, lo := 0 }).bit (keepBad l.mm) = false))
    ∧ (∃ (s : Chip) (l : Live) (w : RxWin) (f : RxField) (det : Int) (noise : Int) (snr : Int) (snr' : Int) (evm : Int) (o : List Byte) (lost : Bool) (q : Nat) (u : Chip) (w' : RxWin), (s.lnk.live = some l) ∧ (l.win = some w) ∧ (w.st = RxSt.header) ∧ ((o, lost, snr', evm) = rxPayload l.mm l.mset w f snr) ∧ ((lost = false) ∧ ((checkFrame l.mm w.hdr o).snd = true) ∧ (s.fld F.LNK_STAT_LIVE = 4)) ∧ (q = qualityWord l.mm l.mset w.hdr (if 0 ≤ snr' then det else noise + snr' / 2) snr' evm) ∧ (w' = { w with st := RxSt.done, frame := (checkFrame l.mm w.hdr o).fst, code := Rc.OK, qual := q, agcAt := none }) ∧ (u = ((((s.setReg R.RFE_QUAL (W q)).setReason R.MDM_STAT Rc.OK).setBit F.RFE_RSSI_VALID false).setFld F.RFE_RSSI_RSSI 0).setFld F.MDM_STAT_LIVE 0))
    ∧ (∃ (s : Chip) (l : Live) (w : RxWin), (s.lnk.live = some l) ∧ (l.win = some w) ∧ (w.st = RxSt.done) ∧ (s.fld F.LNK_STAT_LIVE ≠ 4))
    ∧ (∃ (s : Chip) (l : Live) (w : RxWin) (f : List Byte) (w' : RxWin), (s.lnk.live = some l) ∧ (l.win = some w) ∧ ((w.st = RxSt.done) ∧ (s.fld F.LNK_STAT_LIVE = 4) ∧ (w.code = Rc.OK)) ∧ (f = w.frame) ∧ (w' = { w with st := RxSt.handed, handedAt := s.now }) ∧ (f.length < 9 ∨ lhMesh f ≠ s.meshId ∨ lhDst f ≠ 65535 ∧ lhDst f ≠ s.saddr ∨ lhDst f ≠ 65535 ∧ s.bit F.LNK_CFG_BCONLY = true))
    ∧ (∃ (s : Chip) (l : Live) (w : RxWin) (f : List Byte) (w' : RxWin) (d : Delivery) (l' : Live) (c : Int), (s.lnk.live = some l) ∧ (l.win = some w) ∧ ((w.st = RxSt.done) ∧ (s.fld F.LNK_STAT_LIVE = 4) ∧ (w.code = Rc.OK)) ∧ (f = w.frame) ∧ (w' = { w with st := RxSt.handed, handedAt := s.now }) ∧ ((9 ≤ f.length) ∧ (lhMesh f = s.meshId) ∧ (lhDst f = 65535) ∧ (s.senderOf (lhSrc f) = 127) ∧ (lhAckReq f = false) ∧ (f.length ≤ 4 * s.fld (F.QUE_BUF_BUFSZ (4 * lhPri f))) ∧ (s.qTakes (4 * lhPri f) = true)) ∧ (d = { q := 4 * lhPri f, nbr := 127, frame := f, code := Rc.OK, qual := w.qual, stamp := w.stamp.getD { lo := 0, seq := 0, fv := false, fine := 0 } }) ∧ (c = corrOf ((↑(s.startOf l) : Int) - ((↑w.syncAt : Int) - (↑(tSync l.mm l.mset) : Int))) 8) ∧ (l' = { l with win := some w', deliver := some d, reason := Rc.OK, rxd := true, corr := some c }))
    ∧ (∃ (s : Chip) (w : RxWin), (w.closeAt ≤ s.now))
    ∧ (∃ (s : Chip) (w : RxWin), (s.now < w.closeAt))
    ∧ (∃ (g : Nat) (hi : Nat) (p : Int), (-(100 * (↑hi : Int)) < p) ∧ (g < 24))
    ∧ (∃ (g : Nat) (hi : Nat) (p : Int), (p < -(100 * ((↑hi : Int) + 6))) ∧ (0 < g))
    ∧ (∃ (s : Chip), (s.lnk.live = none)) :=
  ⟨⟨(let s : Chip := {}; let s := withLive s (fun l => withWin l (fun w => { w with opened := true })); withLive s (fun l => withWin l (fun w => { w with agcAt := some 0 }))), _, _, 0, _, wSome _ (by decide +kernel), wSome _ (by decide +kernel), by decide +kernel, rfl⟩,
    ⟨(let s : Chip := {}; let s := withLive s (fun l => withWin l (fun w => { w with opened := true })); let s := withLive s (fun l => withWin l (fun w => { w with closeAt := 40849 })); { s with now := 18407 }), _, _, { foff := 0, timing := 0, rate := 0, phase := 0, course := [], drift := [] }, _, wSome _ (by decide +kernel), wSome _ (by decide +kernel), by decide +kernel, rfl⟩,
    ⟨(let s : Chip := {}; withLive s (fun l => withWin l (fun w => { w with st := .search }))), _, _, { foff := 0, rate := 0, phase := 0, course := [] }, wSome _ (by decide +kernel), wSome _ (by decide +kernel), by decide +kernel⟩,
    ⟨(let s : Chip := {}; withLive s (fun l => { l with win := some { openAt := 0, closeAt := 0, opened := false, holdTo := 0, st := RxSt.acquired, since := 0, foff := 0, rate := 0, phase := 0, timing := 0, acqAt := 0, course := [], drift := [], carrier := 0, late := 0, align := 0, taps := [], rot := 0, hdr := 0, failed := none, syncAt := 0, stamp := none, frame := [], code := 0, qual := 0, endAt := 0, handedAt := 0, gain := 0, agcAt := none } })), _, _, RxSync.sweep 0, RxSync.sweep 0, RxSync.sweep 0, wSome _ (by decide +kernel), wSome _ (by decide +kernel), by decide +kernel⟩,
    ⟨(let s : Chip := {}; let s := withLive s (fun l => withWin l (fun w => { w with st := RxSt.acquired })); withLive s (fun l => { l with m := 3186689 })), _, _, RxSync.sweep 0, RxSync.sweep 0, RxSync.mark 0 0, wSome _ (by decide +kernel), wSome _ (by decide +kernel), by decide +kernel⟩,
    ⟨(let s : Chip := {}; let s := s.setFld F.LNK_STAT_LIVE 4; let s := withLive s (fun l => { l with m := 3186689 }); withLive s (fun l => withWin l (fun w => { w with st := .acquired }))), _, _, .sweep 0, .sweep 0, .mark 0 0, 0, _, _, wSome _ (by decide +kernel), wSome _ (by decide +kernel), by decide +kernel, rfl⟩,
    ⟨(let s : Chip := {}; let s := linkBase s; let s := { s with lnk := { s.lnk with live := some { c := { cls := 0, asn := 0, b := 0, index := 0, w0 := 0, w1 := 0, tx := true, q := 5, ch := 0 }, freq := 0, m := 1 <<< 21, mset := 0, win := some { openAt := 0, closeAt := 0, st := .synced, acqAt := 0, course := [600, 600, 600] } } } }; { s with now := 10 ^ 9 }), _, _, .symbols [], _, _, wSome _ (by decide +kernel), wSome _ (by decide +kernel), by decide +kernel, rfl, by decide +kernel⟩,
    ⟨(let s : Chip := {}; withLive s (fun l => withWin l (fun w => { w with st := RxSt.synced }))), _, _, RxField.symbols [], _, _, wSome _ (by decide +kernel), wSome _ (by decide +kernel), by decide +kernel, rfl, by decide +kernel⟩,
    ⟨(let s : Chip := {}; let s := linkBase s; { s with lnk := { s.lnk with live := some { c := { cls := 0, asn := 0, b := 0, index := 0, w0 := 0, w1 := 0, tx := true, q := 5, ch := 0 }, freq := 0, m := 3 <<< 21, mset := 0, win := some { openAt := 0, closeAt := 0, st := .synced } } } }), _, _, .bits (-1 :: List.replicate 15 1), _, _, _, wSome _ (by decide +kernel), wSome _ (by decide +kernel), by decide +kernel, rfl, by decide +kernel, rfl⟩,
    ⟨(let s : Chip := {}; withLive s (fun l => withWin l (fun w => { w with st := RxSt.acquired }))), _, _, wSome _ (by decide +kernel), wSome _ (by decide +kernel), by decide +kernel⟩,
    ⟨(let s : Chip := {}; let s := withLive s (fun l => { l with m := 3186689 }); withLive s (fun l => withWin l (fun w => { w with st := .acquired }))), _, _, wSome _ (by decide +kernel), wSome _ (by decide +kernel), by decide +kernel⟩,
    ⟨(let s : Chip := {}; let s := linkBase s; { s with lnk := { s.lnk with live := some { c := { cls := 0, asn := 0, b := 0, index := 0, w0 := 0, w1 := 0, tx := true, q := 5, ch := 0 }, freq := 0, m := 2 <<< 21, mset := 0, win := some { openAt := 0, closeAt := 0, st := .header, rot := 2048, taps := List.replicate 64 (cxOne, 0) } } } }), _, _, .samples (List.replicate (cmPrefix 0) (0, 0) ++ [(cxOne, 0)] ++ List.replicate 63 (0, 0) ++ (List.replicate (cmPrefix 0) (0, 0) ++ [(0, cxOne)] ++ List.replicate 63 (0, 0))), 0, _, _, _, _, wSome _ (by decide +kernel), wSome _ (by decide +kernel), by decide +kernel, rfl, by decide +kernel⟩,
    ⟨(let s : Chip := {}; withLive s (fun l => { l with win := some { openAt := 0, closeAt := 0, st := RxSt.header } })), _, _, RxField.symbols [], 0, _, _, _, _, wSome _ (by decide +kernel), wSome _ (by decide +kernel), by decide +kernel, rfl, by decide +kernel⟩,
    ⟨(let s : Chip := {}; let s := withLive s (fun l => withWin l (fun w => { w with hdr := 4 })); let s := withLive s (fun l => withWin l (fun w => { w with st := RxSt.header })); s.setFld F.LNK_STAT_LIVE 4), _, _, RxField.symbols [], 0, 0, 0, _, _, _, _, _, _, _, wSome _ (by decide +kernel), wSome _ (by decide +kernel), by decide +kernel, rfl, by decide +kernel, rfl, rfl, rfl⟩,
    ⟨(let s : Chip := {}; withLive s (fun l => { l with win := some { openAt := 0, closeAt := 0, opened := false, holdTo := 0, st := RxSt.done, foff := 0, hdr := 0, failed := none, syncAt := 0, stamp := none, frame := [], code := 0, qual := 0, endAt := 0, handedAt := 0, gain := 0, agcAt := none } })), _, _, wSome _ (by decide +kernel), wSome _ (by decide +kernel), by decide +kernel⟩,
    ⟨(let s : Chip := {}; let s := withLive s (fun l => withWin l (fun w => { w with st := RxSt.done })); s.setFld F.LNK_STAT_LIVE 4), _, _, _, _, wSome _ (by decide +kernel), wSome _ (by decide +kernel), by decide +kernel, rfl, rfl, by decide +kernel⟩,
    ⟨(let s : Chip := {}; let s := linkBase s; let s := s.setFld (F.QUE_BUF_BUFSZ 0) 16; let s := s.setFld (F.QUE_RING_SIZE 0) 4; let s := s.setFld F.LNK_STAT_LIVE 4; { s with lnk := { s.lnk with live := some { c := { cls := 0, asn := 0, b := 0, index := 0, w0 := 0, w1 := 0, tx := true, q := 5, ch := 0 }, freq := 0, m := 2 <<< 21, mset := 0, win := some { openAt := 0, closeAt := 0, st := .done, frame := [64, 0, 0, 0, 0, 255, 255, 9, 0] } } } }), _, _, _, _, _, _, _, wSome _ (by decide +kernel), wSome _ (by decide +kernel), by decide +kernel, rfl, rfl, by decide +kernel, rfl, rfl, rfl⟩,
    ⟨{}, { openAt := 0, closeAt := 0, opened := false, holdTo := 0, st := RxSt.search, foff := 0, hdr := 0, failed := none, syncAt := 0, stamp := none, frame := [], code := 0, qual := 0, endAt := 0, handedAt := 0, gain := 0, agcAt := none }, by decide +kernel⟩,
    ⟨{}, { openAt := 0, closeAt := 1, opened := false, holdTo := 0, st := RxSt.search, foff := 0, hdr := 0, failed := none, syncAt := 0, stamp := none, frame := [], code := 0, qual := 0, endAt := 0, handedAt := 0, gain := 0, agcAt := none }, by decide +kernel⟩,
    ⟨0, 1, 0, by decide +kernel⟩,
    ⟨1, 0, -2753, by decide +kernel⟩,
    ⟨{}, by decide +kernel⟩⟩

theorem wit_SlotBoundaries :
    (∃ (s : Chip) (c : Nat), (c < 4) ∧ (s.lnk.running = false))
    ∧ (∃ (s : Chip) (u : Chip) (v : Chip) (c : Nat) (n : Nat), ((c < 4) ∧ (s.lnk.running = true) ∧ (s.lnk.chosen = []) ∧ (s.pwr.st = PState.run)) ∧ (n = s.lnk.nextB.getD c 0) ∧ (u = s.setLnk ({ s.lnk with nextB := s.lnk.nextB.set c (n + 1) })) ∧ (v = (u.setReg R.CX_ARBCUR (u.reg R.CX_ARBNXT)).cxGrant.occ (67 + c)) ∧ ((u.setReg R.CX_ARBCUR (u.reg R.CX_ARBNXT)).cxGrant.pwr.st = PState.run) ∧ (s.pins.windows ≠ 0) ∧ (v.pins.windows ≠ 0) ∧ (v.cores.badger.run ≠ CoreRun.slotw c))
    ∧ (∃ (s : Chip) (u : Chip) (v : Chip) (c : Nat) (n : Nat) (b : CoreSt), ((c < 4) ∧ (s.lnk.running = true) ∧ (s.lnk.chosen = []) ∧ (s.pwr.st = PState.run)) ∧ (n = s.lnk.nextB.getD c 0) ∧ (u = s.setLnk ({ s.lnk with nextB := s.lnk.nextB.set c (n + 1) })) ∧ (v = (u.setReg R.CX_ARBCUR (u.reg R.CX_ARBNXT)).cxGrant.occ (67 + c)) ∧ (((u.setReg R.CX_ARBCUR (u.reg R.CX_ARBNXT)).cxGrant.pwr.st = PState.run) ∧ (s.pins.windows ≠ 0) ∧ (v.pins.windows ≠ 0) ∧ (v.cores.badger.run = CoreRun.slotw c)) ∧ (b = { v.cores.badger with a := W (n % 2 ^ 36), st := stSet v.cores.badger.st St.C false, run := CoreRun.run }))
    ∧ (∃ (s : Chip) (u : Chip) (c : Nat), ((c < 4) ∧ (s.lnk.running = true) ∧ (s.boundaryFree = true) ∧ (s.lnk.corrs ≠ [])) ∧ (u = s.applyCorrections) ∧ ((↑u.now : Int) < u.boundaryAt c (u.lnk.nextB.getD c 0)) ∧ (s.lnk.nextB = u.lnk.nextB))
    ∧ (∃ (s : Chip) (t : Chip) (u : Chip) (d : Int), (s.lnk.corrs = [d]) ∧ (t = s.setFld F.LNK_TOFF_TOFF ((s.toff + d) % 16777216).toNat) ∧ (u = t.monCorrection d 4))
    ∧ (∃ (ag : Agent) (v : Word) (d : Int), (d = signed 16 (BitVec.toNat v % 65536)) ∧ (ag ≠ Agent.badger) ∧ (ag ≠ Agent.svc))
    ∧ (∃ (s : Chip) (ag : Agent) (v : Word) (d : Int), (d = signed 16 (BitVec.toNat v % 65536)) ∧ (ag = Agent.badger ∨ ag = Agent.svc) ∧ (d ≤ (↑(s.fld F.LNK_SYNC_MAXCORR) : Int)) ∧ (-(↑(s.fld F.LNK_SYNC_MAXCORR) : Int) ≤ d))
    ∧ (∃ (s : Chip) (ag : Agent) (v : Word) (d : Int), (d = signed 16 (BitVec.toNat v % 65536)) ∧ (ag = Agent.badger ∨ ag = Agent.svc) ∧ ((↑(s.fld F.LNK_SYNC_MAXCORR) : Int) < d ∨ d < -(↑(s.fld F.LNK_SYNC_MAXCORR) : Int)))
    ∧ (∃ (s : Chip), (s.lnk.running = false ∨ s.lnk.desynced = true ∨ s.fld F.LNK_SYNC_DESYNC = 0 ∨ s.hasTimeSource = false))
    ∧ (∃ (s : Chip) (u : Chip), ((s.lnk.running = true) ∧ (s.lnk.desynced = false) ∧ (s.fld F.LNK_SYNC_DESYNC ≠ 0) ∧ (s.hasTimeSource = true)) ∧ (u = ((s.setLnk ({ s.lnk with desynced := true })).setBit F.LNK_STAT_SYNCED false).setReason R.LNK_STAT Rc.DESYNC)) :=
  ⟨⟨{}, 0, by decide +kernel⟩,
    ⟨(let s : Chip := {}; let s := { s with lnk := { s.lnk with running := true } }; { s with pins := { s.pins with windows := 1 } }), _, _, 0, _, by decide +kernel, rfl, rfl, rfl, by decide +kernel⟩,
    ⟨(let s : Chip := {}; let s := { s with lnk := { s.lnk with running := true } }; let s := { s with pins := { s.pins with windows := 1 } }; { s with cores := { s.cores with badger := { s.cores.badger with run := CoreRun.slotw 3 } } }), _, _, 3, _, _, by decide +kernel, rfl, rfl, rfl, by decide +kernel, rfl⟩,
    ⟨(let s : Chip := {}; { s with lnk := { s.lnk with corrs := [1], running := true } }), _, 0, by decide +kernel, rfl, by decide +kernel⟩,
    ⟨(let s : Chip := {}; { s with lnk := { s.lnk with corrs := [0] } }), _, _, _, wCons _ (by decide +kernel), rfl, rfl⟩,
    ⟨Agent.foxA, 0#36, _, rfl, by decide +kernel⟩,
    ⟨{}, Agent.badger, 0#36, _, rfl, by decide +kernel⟩,
    ⟨(let s : Chip := {}; s.setReg R.LNK_SYNC (W 0)), Agent.badger, 1#36, _, rfl, by decide +kernel⟩,
    ⟨{}, by decide +kernel⟩,
    ⟨(let s : Chip := {}; let s := linkBase s; let s := s.setReg (R.LNK_NBR_0 0) (W (3 <<< 34)); s.setFld F.LNK_SYNC_DESYNC 1), _, by decide +kernel, rfl⟩⟩

theorem wit_CellPreparation :
    (∃ (s : Chip) (u : Chip) (w : Chip) (c : Nat) (n : Nat), ((c < 4) ∧ (s.lnk.running = true)) ∧ (n = s.lnk.nextC.getD c 0) ∧ (s.lnk.nextC = s.purgeBooks.lnk.nextC) ∧ (u = s.purgeBooks.setLnk ({ s.purgeBooks.lnk with nextC := s.lnk.nextC.set c (n + 1) })) ∧ (u.choose c n true = (none, w)))
    ∧ (∃ (s : Chip) (u : Chip) (w : Chip) (c : Nat) (n : Nat) (i : Nat) (w0 : Nat) (w1 : Nat) (q : Option Nat) (k : Chosen), ((c < 4) ∧ (s.lnk.running = true)) ∧ (n = s.lnk.nextC.getD c 0) ∧ (s.lnk.nextC = s.purgeBooks.lnk.nextC) ∧ (u = s.purgeBooks.setLnk ({ s.purgeBooks.lnk with nextC := s.lnk.nextC.set c (n + 1) })) ∧ (u.choose c n true = (some (i, w0, w1, q), w)) ∧ ((w.lnk.nextB.getD c 0 ≤ n) ∧ (sfHop (w.sfWord (cellSf w0)) = false) ∧ (w.pwr.st = PState.run) ∧ (q.isSome = true ∨ us (w.fld F.MON_PLAN0_GUARD) ≤ w.txOff c - w.lockLead c)) ∧ (k = { cls := c, asn := n, b := (u.boundaryAt c n).toNat, index := i, w0 := w0, w1 := w1, tx := q.isSome, q := q.getD 0, ch := 63, freq := none, guard := w.fld F.MON_PLAN0_GUARD, window := false, marked := false, stamp := none, due := false, ended := none, entry := q.bind fun (q : Nat) => w.headMark q }))
    ∧ (∃ (s : Chip) (u : Chip) (w : Chip) (c : Nat) (n : Nat) (i : Nat) (w0 : Nat) (w1 : Nat) (q : Option Nat) (k : Chosen) (code : Nat) (x : Chip), ((c < 4) ∧ (s.lnk.running = true)) ∧ (n = s.lnk.nextC.getD c 0) ∧ (s.lnk.nextC = s.purgeBooks.lnk.nextC) ∧ (u = s.purgeBooks.setLnk ({ s.purgeBooks.lnk with nextC := s.lnk.nextC.set c (n + 1) })) ∧ (u.choose c n true = (some (i, w0, w1, q), w)) ∧ (w.lnk.nextB.getD c 0 ≤ n) ∧ (k = { cls := c, asn := n, b := (u.boundaryAt c n).toNat, index := i, w0 := w0, w1 := w1, tx := q.isSome, q := q.getD 0, ch := if sfHop (w.sfWord (cellSf w0)) = true then w.hopCh n w0 else 63, freq := if sfHop (w.sfWord (cellSf w0)) = true then some (w.fld { addr := R.LNK_CH (w.hopCh n w0), hi := 29, lo := 0 }) else none, guard := w.fld F.MON_PLAN0_GUARD, window := false, marked := false, stamp := none, due := false, ended := none, entry := q.bind fun (q : Nat) => w.headMark q }) ∧ (code = if k.freq = some 0 then Rc.BAND else Rc.NOT_AWAKE) ∧ (k.freq = some 0 ∨ w.pwr.st ≠ PState.run) ∧ (x = w.setReasons code))
    ∧ (∃ (s : Chip) (c : Nat), (c < 4) ∧ (List.find? (fun (k : Chosen) => decide (k.cls = c) && k.ended.isNone) s.lnk.chosen = none))
    ∧ (∃ (s : Chip) (c : Nat) (k : Chosen) (u : Chip), (c < 4) ∧ (List.find? (fun (k : Chosen) => decide (k.cls = c) && k.ended.isNone) s.lnk.chosen = some k) ∧ (u = s.setLnk ({ s.lnk with chosen := List.filter (fun (x : Chosen) => decide (x ≠ k)) s.lnk.chosen })) ∧ (s.lnk.live.isSome = true))
    ∧ (∃ (s : Chip) (c : Nat) (k : Chosen) (u : Chip) (v : Chip), (c < 4) ∧ (List.find? (fun (k : Chosen) => decide (k.cls = c) && k.ended.isNone) s.lnk.chosen = some k) ∧ (u = s.setLnk ({ s.lnk with chosen := List.filter (fun (x : Chosen) => decide (x ≠ k)) s.lnk.chosen })) ∧ (s.lnk.live = none) ∧ (v = (u.setFld F.RFE_STAT_PROF k.prof).stopBg) ∧ (mValid (s.profM k.prof) = false))
    ∧ (∃ (s : Chip) (c : Nat) (k : Chosen) (u : Chip) (v : Chip), (c < 4) ∧ (List.find? (fun (k : Chosen) => decide (k.cls = c) && k.ended.isNone) s.lnk.chosen = some k) ∧ (u = s.setLnk ({ s.lnk with chosen := List.filter (fun (x : Chosen) => decide (x ≠ k)) s.lnk.chosen })) ∧ (s.lnk.live = none) ∧ (v = (u.setFld F.RFE_STAT_PROF k.prof).stopBg) ∧ (mValid (s.profM k.prof) = true) ∧ (v.radioOn = false))
    ∧ (∃ (s : Chip) (c : Nat) (k : Chosen) (u : Chip) (v : Chip) (l : Live) (x : Chip), (c < 4) ∧ (List.find? (fun (k : Chosen) => decide (k.cls = c) && k.ended.isNone) s.lnk.chosen = some k) ∧ (u = s.setLnk ({ s.lnk with chosen := List.filter (fun (x : Chosen) => decide (x ≠ k)) s.lnk.chosen })) ∧ (s.lnk.live = none) ∧ (v = (u.setFld F.RFE_STAT_PROF k.prof).stopBg) ∧ ((mValid (s.profM k.prof) = true) ∧ (v.radioOn = true)) ∧ (l = { c := k, freq := k.freq.getD (v.profF k.prof), m := s.profM k.prof, mset := v.msetOf (s.profM k.prof), ramp := v.fld F.RFE_CFG_RAMP, lead := v.fld F.RFE_CFG_TXENLEAD, hi := v.fld F.RFE_AGC_HI, rxw := rxWidth (mMode (s.profM k.prof)) (v.msetOf (s.profM k.prof)) (mRxbw (s.profM k.prof)), fs := txRate (mMode (s.profM k.prof)) (v.msetOf (s.profM k.prof)), taps := v.firTaps (mFir (s.profM k.prof)), cxTx := v.bit F.CX_CFG_TXPOL, cxRx := v.bit F.CX_CFG_RXPOL, cxLoss := v.bit F.CX_CFG_LOSSPOL, granted := false, held := false, cxHeld := false, rampAt := none, txEnd := none, abort := none, pwr := 0, octets := [], e := 0, win := none, ack := none, deliver := none, reason := 0, txd := false, rxd := false, ackok := false, corr := none, corrUsed := false, txenUp := false, done := none }) ∧ (x = (((v.setLive l).setFld F.LNK_STAT_LIVE 1).setFld F.LNK_STAT_CLS c).setFld F.RFE_STAT_STATE 1) ∧ (k.tx = true) ∧ (x.headEntry k.q = none))
    ∧ (∃ (s : Chip) (c : Nat) (k : Chosen) (u : Chip) (v : Chip) (l : Live) (x : Chip) (a : Nat), (c < 4) ∧ (List.find? (fun (k : Chosen) => decide (k.cls = c) && k.ended.isNone) s.lnk.chosen = some k) ∧ (u = s.setLnk ({ s.lnk with chosen := List.filter (fun (x : Chosen) => decide (x ≠ k)) s.lnk.chosen })) ∧ (s.lnk.live = none) ∧ (v = (u.setFld F.RFE_STAT_PROF k.prof).stopBg) ∧ ((mValid (s.profM k.prof) = true) ∧ (v.radioOn = true)) ∧ (l = { c := k, freq := k.freq.getD (v.profF k.prof), m := s.profM k.prof, mset := v.msetOf (s.profM k.prof), ramp := v.fld F.RFE_CFG_RAMP, lead := v.fld F.RFE_CFG_TXENLEAD, hi := v.fld F.RFE_AGC_HI, rxw := rxWidth (mMode (s.profM k.prof)) (v.msetOf (s.profM k.prof)) (mRxbw (s.profM k.prof)), fs := txRate (mMode (s.profM k.prof)) (v.msetOf (s.profM k.prof)), taps := v.firTaps (mFir (s.profM k.prof)), cxTx := v.bit F.CX_CFG_TXPOL, cxRx := v.bit F.CX_CFG_RXPOL, cxLoss := v.bit F.CX_CFG_LOSSPOL, granted := false, held := false, cxHeld := false, rampAt := none, txEnd := none, abort := none, pwr := 0, octets := [], e := 0, win := none, ack := none, deliver := none, reason := 0, txd := false, rxd := false, ackok := false, corr := none, corrUsed := false, txenUp := false, done := none }) ∧ (x = (((v.setLive l).setFld F.LNK_STAT_LIVE 1).setFld F.LNK_STAT_CLS c).setFld F.RFE_STAT_STATE 1) ∧ (k.tx = true) ∧ (x.headEntry k.q = some a) ∧ (x.headMark k.q ≠ k.entry ∨ x.leaving k.q = true))
    ∧ (∃ (s : Chip) (c : Nat) (k : Chosen) (u : Chip) (v : Chip) (l : Live) (x : Chip) (a : Nat) (len : Nat) (d : Nat), (c < 4) ∧ (List.find? (fun (k : Chosen) => decide (k.cls = c) && k.ended.isNone) s.lnk.chosen = some k) ∧ (u = s.setLnk ({ s.lnk with chosen := List.filter (fun (x : Chosen) => decide (x ≠ k)) s.lnk.chosen })) ∧ (s.lnk.live = none) ∧ (v = (u.setFld F.RFE_STAT_PROF k.prof).stopBg) ∧ ((mValid (s.profM k.prof) = true) ∧ (v.radioOn = true)) ∧ (l = { c := k, freq := k.freq.getD (v.profF k.prof), m := s.profM k.prof, mset := v.msetOf (s.profM k.prof), ramp := v.fld F.RFE_CFG_RAMP, lead := v.fld F.RFE_CFG_TXENLEAD, hi := v.fld F.RFE_AGC_HI, rxw := rxWidth (mMode (s.profM k.prof)) (v.msetOf (s.profM k.prof)) (mRxbw (s.profM k.prof)), fs := txRate (mMode (s.profM k.prof)) (v.msetOf (s.profM k.prof)), taps := v.firTaps (mFir (s.profM k.prof)), cxTx := v.bit F.CX_CFG_TXPOL, cxRx := v.bit F.CX_CFG_RXPOL, cxLoss := v.bit F.CX_CFG_LOSSPOL, granted := false, held := false, cxHeld := false, rampAt := none, txEnd := none, abort := none, pwr := 0, octets := [], e := 0, win := none, ack := none, deliver := none, reason := 0, txd := false, rxd := false, ackok := false, corr := none, corrUsed := false, txenUp := false, done := none }) ∧ (x = (((v.setLive l).setFld F.LNK_STAT_LIVE 1).setFld F.LNK_STAT_CLS c).setFld F.RFE_STAT_STATE 1) ∧ (k.tx = true) ∧ (x.headEntry k.q = some a) ∧ ((x.headMark k.q = k.entry) ∧ (x.leaving k.q = false)) ∧ (len = bits (BitVec.toNat (x.rd (a + 1))) 10 0) ∧ (d = x.dTx k.cls l.mm l.mset len) ∧ (lenCheck l.mm l.mset len ≠ Rc.OK))
    ∧ (∃ (s : Chip) (c : Nat) (k : Chosen) (u : Chip) (v : Chip) (l : Live) (x : Chip) (a : Nat) (len : Nat) (d : Nat), (c < 4) ∧ (List.find? (fun (k : Chosen) => decide (k.cls = c) && k.ended.isNone) s.lnk.chosen = some k) ∧ (u = s.setLnk ({ s.lnk with chosen := List.filter (fun (x : Chosen) => decide (x ≠ k)) s.lnk.chosen })) ∧ (s.lnk.live = none) ∧ (v = (u.setFld F.RFE_STAT_PROF k.prof).stopBg) ∧ ((mValid (s.profM k.prof) = true) ∧ (v.radioOn = true)) ∧ (l = { c := k, freq := k.freq.getD (v.profF k.prof), m := s.profM k.prof, mset := v.msetOf (s.profM k.prof), ramp := v.fld F.RFE_CFG_RAMP, lead := v.fld F.RFE_CFG_TXENLEAD, hi := v.fld F.RFE_AGC_HI, rxw := rxWidth (mMode (s.profM k.prof)) (v.msetOf (s.profM k.prof)) (mRxbw (s.profM k.prof)), fs := txRate (mMode (s.profM k.prof)) (v.msetOf (s.profM k.prof)), taps := v.firTaps (mFir (s.profM k.prof)), cxTx := v.bit F.CX_CFG_TXPOL, cxRx := v.bit F.CX_CFG_RXPOL, cxLoss := v.bit F.CX_CFG_LOSSPOL, granted := false, held := false, cxHeld := false, rampAt := none, txEnd := none, abort := none, pwr := 0, octets := [], e := 0, win := none, ack := none, deliver := none, reason := 0, txd := false, rxd := false, ackok := false, corr := none, corrUsed := false, txenUp := false, done := none }) ∧ (x = (((v.setLive l).setFld F.LNK_STAT_LIVE 1).setFld F.LNK_STAT_CLS c).setFld F.RFE_STAT_STATE 1) ∧ (k.tx = true) ∧ (x.headEntry k.q = some a) ∧ ((x.headMark k.q = k.entry) ∧ (x.leaving k.q = false)) ∧ (len = bits (BitVec.toNat (x.rd (a + 1))) 10 0) ∧ (d = x.dTx k.cls l.mm l.mset len) ∧ (lenCheck l.mm l.mset len = Rc.OK) ∧ (524287000 < d))
    ∧ (∃ (s : Chip) (c : Nat) (k : Chosen) (u : Chip) (v : Chip) (l : Live) (x : Chip) (a : Nat) (len : Nat) (d : Nat), (c < 4) ∧ (List.find? (fun (k : Chosen) => decide (k.cls = c) && k.ended.isNone) s.lnk.chosen = some k) ∧ (u = s.setLnk ({ s.lnk with chosen := List.filter (fun (x : Chosen) => decide (x ≠ k)) s.lnk.chosen })) ∧ (s.lnk.live = none) ∧ (v = (u.setFld F.RFE_STAT_PROF k.prof).stopBg) ∧ ((mValid (s.profM k.prof) = true) ∧ (v.radioOn = true)) ∧ (l = { c := k, freq := k.freq.getD (v.profF k.prof), m := s.profM k.prof, mset := v.msetOf (s.profM k.prof), ramp := v.fld F.RFE_CFG_RAMP, lead := v.fld F.RFE_CFG_TXENLEAD, hi := v.fld F.RFE_AGC_HI, rxw := rxWidth (mMode (s.profM k.prof)) (v.msetOf (s.profM k.prof)) (mRxbw (s.profM k.prof)), fs := txRate (mMode (s.profM k.prof)) (v.msetOf (s.profM k.prof)), taps := v.firTaps (mFir (s.profM k.prof)), cxTx := v.bit F.CX_CFG_TXPOL, cxRx := v.bit F.CX_CFG_RXPOL, cxLoss := v.bit F.CX_CFG_LOSSPOL, granted := false, held := false, cxHeld := false, rampAt := none, txEnd := none, abort := none, pwr := 0, octets := [], e := 0, win := none, ack := none, deliver := none, reason := 0, txd := false, rxd := false, ackok := false, corr := none, corrUsed := false, txenUp := false, done := none }) ∧ (x = (((v.setLive l).setFld F.LNK_STAT_LIVE 1).setFld F.LNK_STAT_CLS c).setFld F.RFE_STAT_STATE 1) ∧ (k.tx = true) ∧ (x.headEntry k.q = some a) ∧ ((x.headMark k.q = k.entry) ∧ (x.leaving k.q = false)) ∧ (len = bits (BitVec.toNat (x.rd (a + 1))) 10 0) ∧ (d = x.dTx k.cls l.mm l.mset len) ∧ (lenCheck l.mm l.mset len = Rc.OK) ∧ (d ≤ 524287000) ∧ (x.bit (F.EGY_DECL_FIT 4) = false))
    ∧ (∃ (s : Chip) (c : Nat) (k : Chosen) (u : Chip) (v : Chip) (l : Live) (x : Chip) (g : Nat) (w : RxWin), (c < 4) ∧ (List.find? (fun (k : Chosen) => decide (k.cls = c) && k.ended.isNone) s.lnk.chosen = some k) ∧ (u = s.setLnk ({ s.lnk with chosen := List.filter (fun (x : Chosen) => decide (x ≠ k)) s.lnk.chosen })) ∧ (s.lnk.live = none) ∧ (v = (u.setFld F.RFE_STAT_PROF k.prof).stopBg) ∧ ((mValid (s.profM k.prof) = true) ∧ (v.radioOn = true)) ∧ (l = { c := k, freq := k.freq.getD (v.profF k.prof), m := s.profM k.prof, mset := v.msetOf (s.profM k.prof), ramp := v.fld F.RFE_CFG_RAMP, lead := v.fld F.RFE_CFG_TXENLEAD, hi := v.fld F.RFE_AGC_HI, rxw := rxWidth (mMode (s.profM k.prof)) (v.msetOf (s.profM k.prof)) (mRxbw (s.profM k.prof)), fs := txRate (mMode (s.profM k.prof)) (v.msetOf (s.profM k.prof)), taps := v.firTaps (mFir (s.profM k.prof)), cxTx := v.bit F.CX_CFG_TXPOL, cxRx := v.bit F.CX_CFG_RXPOL, cxLoss := v.bit F.CX_CFG_LOSSPOL, granted := false, held := false, cxHeld := false, rampAt := none, txEnd := none, abort := none, pwr := 0, octets := [], e := 0, win := none, ack := none, deliver := none, reason := 0, txd := false, rxd := false, ackok := false, corr := none, corrUsed := false, txenUp := false, done := none }) ∧ (x = (((v.setLive l).setFld F.LNK_STAT_LIVE 1).setFld F.LNK_STAT_CLS c).setFld F.RFE_STAT_STATE 1) ∧ (k.tx = false) ∧ (g = x.guardOf k.cls k.guard) ∧ (w = { openAt := k.b + x.txOff k.cls - g, closeAt := k.b + x.txOff k.cls + g + tAcq l.mm l.mset, opened := false, holdTo := 0, st := RxSt.search, since := 0, foff := 0, rate := 0, phase := 0, timing := 0, acqAt := 0, course := [], drift := [], carrier := 0, late := 0, align := 0, taps := [], rot := 0, hdr := 0, failed := none, syncAt := 0, stamp := none, frame := [], code := 0, qual := 0, endAt := 0, handedAt := 0, gain := 0, agcAt := none })) :=
  ⟨⟨(let s : Chip := {}; { s with lnk := { s.lnk with running := true } }), _, _, 0, _, by decide +kernel, rfl, by decide +kernel, rfl, wNone _ (by decide +kernel)⟩,
    ⟨(let s : Chip := {}; let s := linkBase s; let s := s.setReg (R.LNK_CELL_0 0) (W (1 <<< 35)); let s := s.setReg (R.LNK_CELL_1 0) (W (1 <<< 28)); let s := s.setReg (R.QUE_HEAD 8) (W 0); let s := s.setReg (R.QUE_TAIL 8) (W 1); let s := s.setFld (F.QUE_RING_SIZE 8) 2; let s := s.setFld (F.QUE_RING_BASE 8) 0x10000; let s := s.wr 0x10000 0; s.wr 0x10001 5), _, _, 0, _, _, _, _, _, _, by decide +kernel, rfl, by decide +kernel, rfl, wPairSome _ (by decide +kernel), by decide +kernel, rfl⟩,
    ⟨(let s : Chip := {}; let s := linkBase s; let s := s.setReg (R.LNK_CELL_0 0) (W (1 <<< 35)); let s := s.setReg (R.LNK_CELL_1 0) (W (1 <<< 28)); let s := s.setReg (R.QUE_HEAD 8) (W 0); let s := s.setReg (R.QUE_TAIL 8) (W 1); let s := s.setFld (F.QUE_RING_SIZE 8) 2; let s := s.setFld (F.QUE_RING_BASE 8) 0x10000; let s := s.wr 0x10000 0; let s := s.wr 0x10001 5; { s with pwr := { s.pwr with st := .sleep } }), _, _, 0, _, _, _, _, _, _, _, _, by decide +kernel, rfl, by decide +kernel, rfl, wPairSome _ (by decide +kernel), by decide +kernel, rfl, rfl, by decide +kernel, rfl⟩,
    ⟨{}, 0, by decide +kernel⟩,
    ⟨(let s : Chip := {}; let s := { s with lnk := { s.lnk with live := some { c := { cls := 0, asn := 0, b := 0, index := 0, w0 := 0, w1 := 0, tx := false, q := 0, ch := 0, freq := none, guard := 0, window := false, marked := false, stamp := none, ended := none, entry := none }, freq := 0, m := 0, mset := 0, ramp := 0, lead := 0, hi := 0, rxw := 0, fs := 0, granted := false, held := false, cxHeld := false, rampAt := none, txEnd := none, abort := none, pwr := 0, octets := [], e := 0, win := none, ack := none, deliver := none, reason := 0, txd := false, rxd := false, ackok := false, corr := none, corrUsed := false, txenUp := false, done := none } } }; { s with lnk := { s.lnk with chosen := [{ cls := 0, asn := 0, b := 0, index := 0, w0 := 0, w1 := 0, tx := false, q := 0, ch := 0, freq := none, guard := 0, window := false, marked := false, stamp := none, ended := none, entry := none }, { cls := 0, asn := 0, b := 0, index := 0, w0 := 0, w1 := 0, tx := false, q := 0, ch := 0, freq := none, guard := 0, window := false, marked := false, stamp := none, ended := none, entry := none }, { cls := 0, asn := 0, b := 0, index := 0, w0 := 0, w1 := 0, tx := false, q := 0, ch := 0, freq := none, guard := 0, window := false, marked := false, stamp := none, ended := none, entry := none }] } }), 0, _, _, by decide +kernel, wSome _ (by decide +kernel), rfl, by decide +kernel⟩,
    ⟨(let s : Chip := {}; { s with lnk := { s.lnk with chosen := [{ cls := 0, asn := 0, b := 0, index := 0, w0 := 0, w1 := 0, tx := false, q := 0, ch := 0, freq := none, guard := 0, window := false, marked := false, stamp := some { lo := 0, seq := 0, fv := false, fine := 0 }, ended := none, entry := none }, { cls := 0, asn := 0, b := 0, index := 0, w0 := 0, w1 := 0, tx := false, q := 0, ch := 0, freq := none, guard := 0, window := false, marked := false, stamp := none, ended := none, entry := none }] } }), 0, _, _, _, by decide +kernel, wSome _ (by decide +kernel), rfl, by decide +kernel, rfl, by decide +kernel⟩,
    ⟨(let s : Chip := {}; let s := s.setReg (R.RFE_PROF_M 0) (W (1 <<< 35)); { s with lnk := { s.lnk with chosen := [{ cls := 0, asn := 0, b := 0, index := 0, w0 := 0, w1 := 0, tx := true, q := 5, ch := 0 }] } }), 0, _, _, _, by decide +kernel, wSome _ (by decide +kernel), rfl, by decide +kernel, rfl, by decide +kernel⟩,
    ⟨(let s : Chip := {}; let s := linkBase s; { s with lnk := { s.lnk with chosen := [{ cls := 0, asn := 0, b := 0, index := 0, w0 := 0, w1 := 0, tx := true, q := 5, ch := 0 }] } }), 0, _, _, _, _, _, by decide +kernel, wSome _ (by decide +kernel), rfl, by decide +kernel, rfl, by decide +kernel, rfl, rfl, by decide +kernel⟩,
    ⟨(let s : Chip := {}; let s := linkBase s; let s := s.setReg (R.QUE_HEAD 5) (W 0); let s := s.setReg (R.QUE_TAIL 5) (W 1); let s := s.setFld (F.QUE_RING_SIZE 5) 2; let s := s.setFld (F.QUE_RING_BASE 5) 0x10000; let s := s.wr 0x10000 0; let s := s.wr 0x10001 0; { s with lnk := { s.lnk with chosen := [{ cls := 0, asn := 0, b := 0, index := 0, w0 := 0, w1 := 0, tx := true, q := 5, ch := 0 }] } }), 0, _, _, _, _, _, _, by decide +kernel, wSome _ (by decide +kernel), rfl, by decide +kernel, rfl, by decide +kernel, rfl, rfl, by decide +kernel, wSome _ (by decide +kernel), by decide +kernel⟩,
    ⟨(let s : Chip := {}; let s := linkBase s; let s := s.setReg (R.QUE_HEAD 5) (W 0); let s := s.setReg (R.QUE_TAIL 5) (W 1); let s := s.setFld (F.QUE_RING_SIZE 5) 2; let s := s.setFld (F.QUE_RING_BASE 5) 0x10000; let s := s.wr 0x10000 0; let s := s.wr 0x10001 0; { s with lnk := { s.lnk with chosen := [{ cls := 0, asn := 0, b := 0, index := 0, w0 := 0, w1 := 0, tx := true, q := 5, ch := 0, entry := some (0, 0x10000) }] } }), 0, _, _, _, _, _, _, _, _, by decide +kernel, wSome _ (by decide +kernel), rfl, by decide +kernel, rfl, by decide +kernel, rfl, rfl, by decide +kernel, wSome _ (by decide +kernel), by decide +kernel, rfl, rfl, by decide +kernel⟩,
    ⟨(let s : Chip := {}; let s := linkBase s; let s := s.setReg (R.QUE_HEAD 5) (W 0); let s := s.setReg (R.QUE_TAIL 5) (W 1); let s := s.setFld (F.QUE_RING_SIZE 5) 2; let s := s.setFld (F.QUE_RING_BASE 5) 0x10000; let s := s.wr 0x10000 0; let s := s.wr 0x10001 200; let s := { s with lnk := { s.lnk with chosen := [{ cls := 0, asn := 0, b := 0, index := 0, w0 := 0, w1 := 0, tx := true, q := 5, ch := 0, entry := some (0, 0x10000) }] } }; let s := s.setReg (R.RFE_PROF_M 0) (W (1 <<< 35 ||| 1 <<< 21)); s.setReg (R.MDM_LS 0) (W (2 ^ 36 - 1 - 2 ^ 11))), 0, _, _, _, _, _, _, _, _, by decide +kernel, wSome _ (by decide +kernel), rfl, by decide +kernel, rfl, by decide +kernel, rfl, rfl, by decide +kernel, wSome _ (by decide +kernel), by decide +kernel, rfl, rfl, by decide +kernel⟩,
    ⟨(let s : Chip := {}; let s := linkBase s; let s := s.setReg (R.QUE_HEAD 5) (W 0); let s := s.setReg (R.QUE_TAIL 5) (W 1); let s := s.setFld (F.QUE_RING_SIZE 5) 2; let s := s.setFld (F.QUE_RING_BASE 5) 0x10000; let s := s.wr 0x10000 0; let s := s.wr 0x10001 5; let s := { s with lnk := { s.lnk with chosen := [{ cls := 0, asn := 0, b := 0, index := 0, w0 := 0, w1 := 0, tx := true, q := 5, ch := 0, entry := some (0, 0x10000) }] } }; s.setBit (F.EGY_DECL_FIT 4) false), 0, _, _, _, _, _, _, _, _, by decide +kernel, wSome _ (by decide +kernel), rfl, by decide +kernel, rfl, by decide +kernel, rfl, rfl, by decide +kernel, wSome _ (by decide +kernel), by decide +kernel, rfl, rfl, by decide +kernel⟩,
    ⟨(let s : Chip := {}; let s := linkBase s; { s with lnk := { s.lnk with chosen := [{ cls := 0, asn := 0, b := 0, index := 0, w0 := 0, w1 := 0, tx := false, q := 5, ch := 0 }] } }), 0, _, _, _, _, _, _, _, by decide +kernel, wSome _ (by decide +kernel), rfl, by decide +kernel, rfl, by decide +kernel, rfl, rfl, by decide +kernel, rfl, rfl⟩⟩

theorem wit_WindowsAndAcknowledgements :
    (∃ (s : Chip) (u : Chip) (gnt : Bool) (l : Live) (w : RxWin) (w' : RxWin) (x : Chip), (u = s.driveGnt gnt) ∧ (u.lnk.live = some l) ∧ (l.win = some w) ∧ ((w.opened = false) ∧ (u.bit F.SYN_STAT_LOCK = true)) ∧ (w' = { w with opened := true, since := u.now, gain := bits l.m 4 0, agcAt := some (u.now + us (2 ^ bits l.m 10 8)) }) ∧ (x = (((u.setLive { l with win := some w' }).setFld F.RFE_STAT_STATE 2).setFld F.MDM_STAT_LIVE (liveRx l.mm)).setBit F.RFE_RSSI_VALID true) ∧ (l.c.tx = false) ∧ (u.inPrep = true) ∧ (u.rxDenied l = true))
    ∧ (∃ (s : Chip) (u : Chip) (gnt : Bool) (l : Live) (w : RxWin) (w' : RxWin) (x : Chip), (u = s.driveGnt gnt) ∧ (u.lnk.live = some l) ∧ (l.win = some w) ∧ ((w.opened = false) ∧ (u.bit F.SYN_STAT_LOCK = true)) ∧ (w' = { w with opened := true, since := u.now, gain := bits l.m 4 0, agcAt := some (u.now + us (2 ^ bits l.m 10 8)) }) ∧ (x = (((u.setLive { l with win := some w' }).setFld F.RFE_STAT_STATE 2).setFld F.MDM_STAT_LIVE (liveRx l.mm)).setBit F.RFE_RSSI_VALID true) ∧ (l.c.tx = false) ∧ (u.inPrep = true) ∧ (u.rxDenied l = false))
    ∧ (∃ (s : Chip) (u : Chip) (gnt : Bool) (l : Live) (w : RxWin) (w' : RxWin) (x : Chip), (u = s.driveGnt gnt) ∧ (u.lnk.live = some l) ∧ (l.win = some w) ∧ ((w.opened = false) ∧ (u.bit F.SYN_STAT_LOCK = true)) ∧ (w' = { w with opened := true, since := u.now, gain := bits l.m 4 0, agcAt := some (u.now + us (2 ^ bits l.m 10 8)) }) ∧ (x = (((u.setLive { l with win := some w' }).setFld F.RFE_STAT_STATE 2).setFld F.MDM_STAT_LIVE (liveRx l.mm)).setBit F.RFE_RSSI_VALID true) ∧ (u.fld F.LNK_STAT_LIVE = 3) ∧ (l.held = true) ∧ (l.granted = true) ∧ (u.rxDenied l = false))
    ∧ (∃ (s : Chip) (u : Chip) (gnt : Bool) (l : Live) (w : RxWin) (w' : RxWin) (x : Chip), (u = s.driveGnt gnt) ∧ (u.lnk.live = some l) ∧ (l.win = some w) ∧ ((w.opened = false) ∧ (u.bit F.SYN_STAT_LOCK = true)) ∧ (w' = { w with opened := true, since := u.now, gain := bits l.m 4 0, agcAt := some (u.now + us (2 ^ bits l.m 10 8)) }) ∧ (x = (((u.setLive { l with win := some w' }).setFld F.RFE_STAT_STATE 2).setFld F.MDM_STAT_LIVE (liveRx l.mm)).setBit F.RFE_RSSI_VALID true) ∧ (u.fld F.LNK_STAT_LIVE = 3) ∧ (l.held = true) ∧ (l.granted = true) ∧ (u.rxDenied l = true))
    ∧ (∃ (s : Chip) (u : Chip) (gnt : Bool) (l : Live) (w : RxWin) (w' : RxWin) (x : Chip), (u = s.driveGnt gnt) ∧ (u.lnk.live = some l) ∧ (l.win = some w) ∧ ((w.opened = false) ∧ (u.bit F.SYN_STAT_LOCK = true)) ∧ (w' = { w with opened := true, since := u.now, gain := bits l.m 4 0, agcAt := some (u.now + us (2 ^ bits l.m 10 8)) }) ∧ (x = (((u.setLive { l with win := some w' }).setFld F.RFE_STAT_STATE 2).setFld F.MDM_STAT_LIVE (liveRx l.mm)).setBit F.RFE_RSSI_VALID true) ∧ (u.fld F.LNK_STAT_LIVE = 3) ∧ (l.held = false))
    ∧ (∃ (s : Chip) (l : Live) (w : RxWin) (code : Nat), (s.lnk.live = some l) ∧ (l.win = some w) ∧ (code = w.failed.getD Rc.NO_PREAMBLE) ∧ (s.fld F.LNK_STAT_LIVE = 4) ∧ (l.c.tx = false) ∧ (w.st = RxSt.search))
    ∧ (∃ (s : Chip) (l : Live) (w : RxWin) (code : Nat), (s.lnk.live = some l) ∧ (l.win = some w) ∧ (code = w.failed.getD Rc.NO_PREAMBLE) ∧ (s.fld F.LNK_STAT_LIVE = 4) ∧ (l.c.tx = false) ∧ (w.st ≠ RxSt.search))
    ∧ (∃ (s : Chip) (l : Live) (w : RxWin) (code : Nat), (s.lnk.live = some l) ∧ (l.win = some w) ∧ (code = w.failed.getD Rc.NO_PREAMBLE) ∧ (s.fld F.LNK_STAT_LIVE = 3) ∧ (w.st = RxSt.search))
    ∧ (∃ (s : Chip) (l : Live) (w : RxWin) (code : Nat), (s.lnk.live = some l) ∧ (l.win = some w) ∧ (code = w.failed.getD Rc.NO_PREAMBLE) ∧ (s.fld F.LNK_STAT_LIVE = 3) ∧ (w.st ≠ RxSt.search))
    ∧ (∃ (z : Chip) (s : Chip) (u : Chip) (l : Live), (s = z.stampDone) ∧ (s.lnk.live = some l) ∧ (u = s.setLatch ({ s.pins.latch with txen := false })) ∧ (s.fld F.LNK_STAT_LIVE ≠ 2))
    ∧ (∃ (z : Chip) (s : Chip) (u : Chip) (l : Live) (code : Nat), (s = z.stampDone) ∧ (s.lnk.live = some l) ∧ (u = s.setLatch ({ s.pins.latch with txen := false })) ∧ (s.fld F.LNK_STAT_LIVE = 2) ∧ (l.abort = some code))
    ∧ (∃ (z : Chip) (s : Chip) (u : Chip) (l : Live) (l' : Live) (a : Nat), (s = z.stampDone) ∧ (s.lnk.live = some l) ∧ (u = s.setLatch ({ s.pins.latch with txen := false })) ∧ ((s.fld F.LNK_STAT_LIVE = 2) ∧ (l.abort = none)) ∧ (s.headEntry l.c.q = some a) ∧ (l' = { l with granted := false, held := false, rampAt := none, txEnd := none, txd := true, txenUp := false }) ∧ (bitOf (BitVec.toNat (s.rd a)) 28 = false))
    ∧ (∃ (z : Chip) (s : Chip) (u : Chip) (l : Live) (l' : Live) (a : Nat) (m : Nat) (w : RxWin) (x : Chip), (s = z.stampDone) ∧ (s.lnk.live = some l) ∧ (u = s.setLatch ({ s.pins.latch with txen := false })) ∧ ((s.fld F.LNK_STAT_LIVE = 2) ∧ (l.abort = none)) ∧ (s.headEntry l.c.q = some a) ∧ (l' = { l with granted := false, held := false, rampAt := none, txEnd := none, txd := true, txenUp := false }) ∧ (bitOf (BitVec.toNat (s.rd a)) 28 = true) ∧ (m = l.e + s.tAck l.c.cls) ∧ (w = { openAt := m - s.ackGuard l.c.cls, closeAt := m + s.ackGuard l.c.cls + tAcq l.mm l.mset, opened := false, holdTo := 0, st := RxSt.search, since := 0, foff := 0, rate := 0, phase := 0, timing := 0, acqAt := 0, course := [], drift := [], carrier := 0, late := 0, align := 0, taps := [], rot := 0, hdr := 0, failed := none, syncAt := 0, stamp := none, frame := [], code := 0, qual := 0, endAt := 0, handedAt := 0, gain := 0, agcAt := none }) ∧ (x = ((((u.setLive { l' with win := some w }).setFld F.LNK_STAT_LIVE 3).setFld F.MDM_STAT_LIVE 0).setFld F.RFE_STAT_STATE 0).release 4) ∧ (us 100 ≤ x.ackGap l.c.cls))
    ∧ (∃ (s : Chip) (l : Live), (s.lnk.live = some l) ∧ (l.ack = none ∨ s.fld F.LNK_STAT_LIVE ≠ 4))
    ∧ (∃ (s : Chip) (l : Live) (f : List Byte) (d : Nat), (s.lnk.live = some l) ∧ (l.ack = some f) ∧ (s.fld F.LNK_STAT_LIVE = 4) ∧ (d = 24 + ceilDiv (airTime l.mm l.mset (s.fld F.LNK_CFG_ACKLEN) + 2 * s.ramp) 32))
    ∧ (∃ (s : Chip) (l : Live), (s.lnk.live = some l) ∧ (s.fld F.LNK_STAT_LIVE = 5) ∧ (l.txEnd.isSome = true) ∧ (l.abort = none))
    ∧ (∃ (s : Chip) (l : Live) (code : Nat), (s.lnk.live = some l) ∧ ((s.fld F.LNK_STAT_LIVE = 5) ∧ (l.txEnd.isSome = true)) ∧ (l.abort = some code))
    ∧ (∃ (s : Chip) (l : Live) (f : List Byte) (gnt : Bool) (u : Chip) (w : RxWin), (s.lnk.live = some l) ∧ (u = s.driveGnt gnt) ∧ (u.lnk.live = some l) ∧ (l.win = some w) ∧ (l.ack = some f) ∧ (l.rampAt = none) ∧ (4 ≤ u.fld F.LNK_STAT_LIVE) ∧ (l.granted = false ∨ u.now < w.handedAt + us 30 ∨ u.bit F.SYN_STAT_LOCK = false ∨ u.calRuns = true))
    ∧ (∃ (s : Chip) (l : Live) (f : List Byte) (gnt : Bool) (u : Chip) (w : RxWin), (s.lnk.live = some l) ∧ (u = s.driveGnt gnt) ∧ (u.lnk.live = some l) ∧ (l.win = some w) ∧ (l.ack = some f) ∧ (l.rampAt = none) ∧ (4 ≤ u.fld F.LNK_STAT_LIVE) ∧ (l.granted = true) ∧ (w.handedAt + us 30 ≤ u.now) ∧ (u.bit F.SYN_STAT_LOCK = true) ∧ (u.calRuns = false) ∧ (u.cxDenies = true))
    ∧ (∃ (s : Chip) (l : Live) (f : List Byte) (gnt : Bool) (u : Chip) (w : RxWin), (s.lnk.live = some l) ∧ (u = s.driveGnt gnt) ∧ (u.lnk.live = some l) ∧ (l.win = some w) ∧ (l.ack = some f) ∧ (l.rampAt = none) ∧ (4 ≤ u.fld F.LNK_STAT_LIVE) ∧ (l.granted = true) ∧ (w.handedAt + us 30 ≤ u.now) ∧ (u.bit F.SYN_STAT_LOCK = true) ∧ (u.calRuns = false) ∧ (u.cxDenies = false))
    ∧ (∃ (s : Chip) (l : Live) (w : RxWin), (s.lnk.live = some l) ∧ (l.win = some w) ∧ (s.fld F.LNK_STAT_LIVE = 3) ∧ (w.st = RxSt.handed) ∧ (w.code ≠ Rc.OK))
    ∧ (∃ (s : Chip) (l : Live) (w : RxWin), (s.lnk.live = some l) ∧ (l.win = some w) ∧ (s.fld F.LNK_STAT_LIVE = 3) ∧ (w.st = RxSt.handed) ∧ (w.code = Rc.OK) ∧ (s.ackGood l w = false))
    ∧ (∃ (s : Chip) (l : Live) (w : RxWin) (d : Chip) (x : Chip) (l' : Live) (c : Int) (a : Nat) (m : MIn), (s.lnk.live = some l) ∧ (l.win = some w) ∧ ((s.fld F.LNK_STAT_LIVE = 3) ∧ (w.st = RxSt.handed) ∧ (w.code = Rc.OK) ∧ (s.ackGood l w = true) ∧ (11 ≤ w.frame.length) ∧ (s.nbrTs (s.headNbr l.c.q) = false)) ∧ (a = s.nbrAddr (s.headNbr l.c.q)) ∧ (c = signed 16 (oct2 w.frame 9) * if lhVer w.frame = 1 then 4 else 1) ∧ (l' = { l with reason := Rc.OK, ackok := true, corr := some (max (-32768) (min 32767 c)) }) ∧ (d = ((s.endEntry l.c.q Rc.OK (s.lnk.tries.getD (l.c.q - 8) 0 - 1) l.pwr l.e (decide (l.c.ty = 2))).endCell l' Rc.OK).sampleQ a (if lhVer w.frame = 1 then bits w.qual 16 9 else octAt w.frame 11)) ∧ (x = match d.meshPeer a with | some p => d.setPeer { p with noAcks := 0 } | none => d) ∧ (meshParse l.octets = some m) ∧ (m.ty = 4) ∧ (m.orig = s.saddr))
    ∧ (∃ (s : Chip) (l : Live) (w : RxWin) (d : Chip) (x : Chip) (l' : Live) (c : Int) (a : Nat), (s.lnk.live = some l) ∧ (l.win = some w) ∧ ((s.fld F.LNK_STAT_LIVE = 3) ∧ (w.st = RxSt.handed) ∧ (w.code = Rc.OK) ∧ (s.ackGood l w = true) ∧ (11 ≤ w.frame.length) ∧ (s.nbrTs (s.headNbr l.c.q) = false)) ∧ (a = s.nbrAddr (s.headNbr l.c.q)) ∧ (c = signed 16 (oct2 w.frame 9) * if lhVer w.frame = 1 then 4 else 1) ∧ (l' = { l with reason := Rc.OK, ackok := true, corr := some (max (-32768) (min 32767 c)) }) ∧ (d = ((s.endEntry l.c.q Rc.OK (s.lnk.tries.getD (l.c.q - 8) 0 - 1) l.pwr l.e (decide (l.c.ty = 2))).endCell l' Rc.OK).sampleQ a (if lhVer w.frame = 1 then bits w.qual 16 9 else octAt w.frame 11)) ∧ (x = match d.meshPeer a with | some p => d.setPeer { p with noAcks := 0 } | none => d) ∧ (∀ (m : MIn), meshParse l.octets = some m → m.ty ≠ 4 ∨ m.orig ≠ s.saddr))
    ∧ (∃ (s : Chip) (l : Live) (a : Nat), (l.c.ty ≠ 2) ∧ (s.headEntry l.c.q = some a) ∧ (bits (BitVec.toNat (s.rd a)) 27 25 + 1 ≤ s.lnk.tries.getD (l.c.q - 8) 0))
    ∧ (∃ (s : Chip) (l : Live) (a : Nat), (l.c.ty ≠ 2) ∧ (s.headEntry l.c.q = some a) ∧ (s.lnk.tries.getD (l.c.q - 8) 0 < bits (BitVec.toNat (s.rd a)) 27 25 + 1)) :=
  ⟨⟨(let s : Chip := {}; let s := s.setFld F.SYN_STAT_LOCK 1; let s := withLive s (fun l => withWin l (fun w => { w with timing := 0 })); let s := s.setReg R.CX_CFG (W 1); let s := s.setReg R.CX_CTL (W 1); let s := withLive s (fun l => { l with cxRx := true }); s.setFld F.LNK_STAT_LIVE 1), _, false, _, _, _, _, rfl, wSome _ (by decide +kernel), wSome _ (by decide +kernel), by decide +kernel, rfl, rfl, by decide +kernel⟩,
    ⟨(let s : Chip := {}; let s := s.setFld F.LNK_STAT_LIVE 1; let s := withLive s (fun l => withWin l (fun w => { w with stamp := none })); s.setFld F.SYN_STAT_LOCK 1), _, false, _, _, _, _, rfl, wSome _ (by decide +kernel), wSome _ (by decide +kernel), by decide +kernel, rfl, rfl, by decide +kernel⟩,
    ⟨(let s : Chip := {}; let s := withLive s (fun l => { l with held := true }); let s := withLive s (fun l => withWin l (fun w => { w with hdr := 0 })); let s := s.setFld F.SYN_STAT_LOCK 1; let s := withLive s (fun l => { l with granted := true }); s.setReg R.LNK_STAT (W 1888)), _, false, _, _, _, _, rfl, wSome _ (by decide +kernel), wSome _ (by decide +kernel), by decide +kernel, rfl, rfl, by decide +kernel⟩,
    ⟨(let s : Chip := {}; let s := withLive s (fun l => { l with granted := true }); let s := s.setFld F.LNK_STAT_LIVE 3; let s := withLive s (fun l => { l with held := true }); let s := withLive s (fun l => withWin l (fun w => { w with frame := [] })); let s := withLive s (fun l => { l with cxRx := true }); let s := s.setReg R.CX_CTL (W 1); let s := s.setFld F.CX_CFG_ROLE 1; s.setFld F.SYN_STAT_LOCK 1), _, false, _, _, _, _, rfl, wSome _ (by decide +kernel), wSome _ (by decide +kernel), by decide +kernel, rfl, rfl, by decide +kernel⟩,
    ⟨(let s : Chip := {}; let s := withLive s (fun l => withWin l (fun w => { w with qual := 0 })); let s := s.setFld F.LNK_STAT_LIVE 3; s.setReg R.SYN_STAT (W 7794)), _, false, _, _, _, _, rfl, wSome _ (by decide +kernel), wSome _ (by decide +kernel), by decide +kernel, rfl, rfl, by decide +kernel⟩,
    ⟨(let s : Chip := {}; let s := withLive s (fun l => { l with win := some { openAt := 0, closeAt := 0, opened := false, holdTo := 0, st := RxSt.search, foff := 0, hdr := 0, failed := none, syncAt := 0, stamp := none, frame := [], code := 0, qual := 0, endAt := 0, handedAt := 0, gain := 0, agcAt := none } }); s.setFld F.LNK_STAT_LIVE 4), _, _, _, wSome _ (by decide +kernel), wSome _ (by decide +kernel), rfl, by decide +kernel⟩,
    ⟨(let s : Chip := {}; let s := withLive s (fun l => withWin l (fun w => { w with st := RxSt.done })); s.setFld F.LNK_STAT_LIVE 4), _, _, _, wSome _ (by decide +kernel), wSome _ (by decide +kernel), rfl, by decide +kernel⟩,
    ⟨(let s : Chip := {}; let s := s.setFld F.LNK_STAT_LIVE 3; withLive s (fun l => withWin l (fun w => { w with failed := none }))), _, _, _, wSome _ (by decide +kernel), wSome _ (by decide +kernel), rfl, by decide +kernel⟩,
    ⟨(let s : Chip := {}; let s := withLive s (fun l => { l with win := some { openAt := 0, closeAt := 0, opened := false, holdTo := 0, st := RxSt.done, foff := 0, hdr := 0, failed := none, syncAt := 0, stamp := none, frame := [], code := 0, qual := 0, endAt := 0, handedAt := 0, gain := 0, agcAt := none } }); s.setFld F.LNK_STAT_LIVE 3), _, _, _, wSome _ (by decide +kernel), wSome _ (by decide +kernel), rfl, by decide +kernel⟩,
    ⟨(let s : Chip := {}; let s := withLive s (fun l => withWin l (fun w => { w with failed := none })); let s := s.setFld F.CX_CFG_ROLE 1; let s := s.setFld F.CX_CFG_RXPOL 1; let s := s.setFld F.SYN_STAT_LOCK 1; let s := s.setFld F.CX_CTL_EN 1; s.setFld F.LNK_STAT_LIVE 1), _, _, _, rfl, wSome _ (by decide +kernel), rfl, by decide +kernel⟩,
    ⟨(let s : Chip := {}; let s := withLive s (fun l => { l with abort := some 0 }); s.setFld F.LNK_STAT_LIVE 2), _, _, _, _, rfl, wSome _ (by decide +kernel), rfl, by decide +kernel, wSome _ (by decide +kernel)⟩,
    ⟨(let s : Chip := {}; let s := linkBase s; let s := s.setReg (R.QUE_HEAD 5) (W 0); let s := s.setReg (R.QUE_TAIL 5) (W 1); let s := s.setFld (F.QUE_RING_SIZE 5) 2; let s := s.setFld (F.QUE_RING_BASE 5) 0x10000; let s := s.wr 0x10000 0; let s := s.wr 0x10000 0; let s := s.setFld F.LNK_STAT_LIVE 2; { s with lnk := { s.lnk with live := some { c := { cls := 0, asn := 0, b := 0, index := 0, w0 := 0, w1 := 0, tx := true, q := 5, ch := 0 }, freq := 0, m := 2 <<< 21, mset := 0 } } }), _, _, _, _, _, rfl, wSome _ (by decide +kernel), rfl, by decide +kernel, wSome _ (by decide +kernel), rfl, by decide +kernel⟩,
    ⟨(let s : Chip := {}; let s := linkBase s; let s := s.setReg (R.QUE_HEAD 5) (W 0); let s := s.setReg (R.QUE_TAIL 5) (W 1); let s := s.setFld (F.QUE_RING_SIZE 5) 2; let s := s.setFld (F.QUE_RING_BASE 5) 0x10000; let s := s.wr 0x10000 0; let s := s.wr 0x10000 0x10000000#36; let s := s.setFld (F.LNK_CLS_T2_TACK 0) 1000; let s := s.setFld F.LNK_STAT_LIVE 2; { s with lnk := { s.lnk with live := some { c := { cls := 0, asn := 0, b := 0, index := 0, w0 := 0, w1 := 0, tx := true, q := 5, ch := 0 }, freq := 0, m := 2 <<< 21, mset := 0 } } }), _, _, _, _, _, _, _, _, rfl, wSome _ (by decide +kernel), rfl, by decide +kernel, wSome _ (by decide +kernel), rfl, by decide +kernel, rfl, rfl, rfl, by decide +kernel⟩,
    ⟨(let s : Chip := {}; withLive s (fun l => { l with ack := none })), _, wSome _ (by decide +kernel), by decide +kernel⟩,
    ⟨(let s : Chip := {}; let s := withLive s (fun l => { l with ack := some [] }); s.setReg R.LNK_STAT (W 121198985)), _, _, _, wSome _ (by decide +kernel), wSome _ (by decide +kernel), by decide +kernel, rfl⟩,
    ⟨(let s : Chip := {}; let s := withLive s (fun l => { l with txEnd := some 0 }); s.setFld F.LNK_STAT_LIVE 5), _, wSome _ (by decide +kernel), by decide +kernel⟩,
    ⟨(let s : Chip := {}; let s := withLive s (fun l => { l with txEnd := some 0 }); let s := s.setFld F.LNK_STAT_LIVE 5; withLive s (fun l => { l with abort := some 0 })), _, _, wSome _ (by decide +kernel), by decide +kernel, wSome _ (by decide +kernel)⟩,
    ⟨(let s : Chip := {}; let s := withLive s (fun l => { l with ack := some [] }); let s := withLive s (fun l => { l with win := some { openAt := 0, closeAt := 0, opened := false, holdTo := 0, st := RxSt.search, foff := 0, hdr := 0, failed := none, syncAt := 0, stamp := none, frame := [], code := 0, qual := 0, endAt := 0, handedAt := 0, gain := 0, agcAt := none } }); s.setFld F.LNK_STAT_LIVE 4), _, _, false, _, _, wSome _ (by decide +kernel), rfl, by decide +kernel, wSome _ (by decide +kernel), wSome _ (by decide +kernel), by decide +kernel⟩,
    ⟨(let s : Chip := {}; let s := { s with now := s.now + 3170305 }; let s := s.setFld F.CX_CTL_EN 1; let s := withLive s (fun l => { l with granted := true }); let s := s.setReg R.CX_CFG (W 1); let s := s.setFld F.LNK_STAT_LIVE 4; let s := s.setFld F.SYN_STAT_LOCK 1; let s := withLive s (fun l => { l with win := some { openAt := 0, closeAt := 0, opened := false, holdTo := 0, st := RxSt.search, foff := 0, hdr := 0, failed := none, syncAt := 0, stamp := none, frame := [0#8, 0#8, 0#8, 0#8, 0#8, 0#8, 0#8, 0#8, 0#8, 0#8, 0#8, 0#8, 0#8, 0#8, 0#8, 0#8, 0#8, 0#8, 0#8, 0#8, 0#8, 0#8, 0#8, 0#8, 0#8, 0#8, 0#8, 0#8, 0#8, 0#8, 0#8, 0#8, 0#8, 0#8, 0#8, 0#8, 0#8, 0#8, 0#8, 0#8], code := 0, qual := 0, endAt := 0, handedAt := 0, gain := 0, agcAt := none } }); withLive s (fun l => { l with ack := some [] })), _, _, false, _, _, wSome _ (by decide +kernel), rfl, by decide +kernel, wSome _ (by decide +kernel), wSome _ (by decide +kernel), by decide +kernel⟩,
    ⟨(let s : Chip := {}; let s := withLive s (fun l => { l with granted := true }); let s := withLive s (fun l => { l with win := some { openAt := 0, closeAt := 0, opened := false, holdTo := 0, st := RxSt.search, foff := 0, hdr := 0, failed := none, syncAt := 0, stamp := none, frame := [], code := 0, qual := 0, endAt := 0, handedAt := 0, gain := 0, agcAt := none } }); let s := withLive s (fun l => { l with ack := some [] }); let s := { s with now := s.now + 3170305 }; let s := s.setFld F.LNK_STAT_LIVE 4; s.setFld F.SYN_STAT_LOCK 1), _, _, false, _, _, wSome _ (by decide +kernel), rfl, by decide +kernel, wSome _ (by decide +kernel), wSome _ (by decide +kernel), by decide +kernel⟩,
    ⟨(let s : Chip := {}; let s := withLive s (fun l => withWin l (fun w => { w with code := 1 })); let s := s.setFld F.LNK_STAT_LIVE 3; withLive s (fun l => withWin l (fun w => { w with st := RxSt.handed }))), _, _, wSome _ (by decide +kernel), wSome _ (by decide +kernel), by decide +kernel⟩,
    ⟨(let s : Chip := {}; let s := withLive s (fun l => { l with win := some { openAt := 0, closeAt := 0, opened := false, holdTo := 0, st := RxSt.handed, foff := 0, hdr := 0, failed := none, syncAt := 0, stamp := some { lo := 0, seq := 0, fv := false, fine := 0 }, frame := [0#8, 0#8, 0#8, 0#8, 0#8, 0#8, 0#8, 0#8, 0#8, 0#8, 0#8, 0#8, 0#8, 0#8, 0#8, 0#8, 0#8, 0#8, 0#8, 0#8, 0#8, 0#8, 0#8, 0#8, 0#8, 0#8, 0#8, 0#8, 0#8, 0#8, 0#8, 0#8, 0#8, 0#8, 0#8, 0#8, 0#8, 0#8, 0#8, 0#8], code := 0, qual := 0, endAt := 0, handedAt := 0, gain := 0, agcAt := none } }); s.setReg R.LNK_STAT (W 17986)), _, _, wSome _ (by decide +kernel), wSome _ (by decide +kernel), by decide +kernel⟩,
    ⟨(let s : Chip := {}; let s := linkBase s; let s := s.setFld F.LNK_SADDR_SADDR 7; let s := s.setReg (R.QUE_HEAD 5) (W 0); let s := s.setReg (R.QUE_TAIL 5) (W 1); let s := s.setFld (F.QUE_RING_SIZE 5) 2; let s := s.setFld (F.QUE_RING_BASE 5) 0x10000; let s := s.wr 0x10000 0; let s := s.setReg (R.LNK_NBR_0 0) (W (1 <<< 35 ||| 1 <<< 30)); let s := s.setFld F.LNK_STAT_LIVE 3; { s with lnk := { s.lnk with live := some { c := { cls := 0, asn := 0, b := 0, index := 0, w0 := 0, w1 := 0, tx := true, q := 5, ch := 0 }, freq := 0, m := 2 <<< 21, mset := 0, octets := frADV, win := some { openAt := 0, closeAt := 0, st := .handed, frame := [1 + 64, 0, 0, 0, 0, 7, 0, 0, 0, 0, 0] } } } }), _, _, _, _, _, _, _, _, wSome _ (by decide +kernel), wSome _ (by decide +kernel), by decide +kernel, rfl, rfl, rfl, rfl, rfl, wSome _ (by decide +kernel), by decide +kernel⟩,
    ⟨(let s : Chip := {}; let s := linkBase s; let s := s.setFld F.LNK_SADDR_SADDR 0; let s := s.setReg (R.QUE_HEAD 5) (W 0); let s := s.setReg (R.QUE_TAIL 5) (W 1); let s := s.setFld (F.QUE_RING_SIZE 5) 2; let s := s.setFld (F.QUE_RING_BASE 5) 0x10000; let s := s.wr 0x10000 0; let s := s.setReg (R.LNK_NBR_0 0) (W (1 <<< 35 ||| 1 <<< 30)); let s := s.setFld F.LNK_STAT_LIVE 3; { s with lnk := { s.lnk with live := some { c := { cls := 0, asn := 0, b := 0, index := 0, w0 := 0, w1 := 0, tx := true, q := 5, ch := 0 }, freq := 0, m := 2 <<< 21, mset := 0, octets := [], win := some { openAt := 0, closeAt := 0, st := .handed, frame := [1 + 64, 0, 0, 0, 0, 0, 0, 0, 0, 0, 0] } } } }), _, _, _, _, _, _, _, wSome _ (by decide +kernel), wSome _ (by decide +kernel), by decide +kernel, rfl, rfl, rfl, rfl, rfl, wNo _ (by decide +kernel)⟩,
    ⟨(let s : Chip := {}; let s := s.setReg (R.QUE_TAIL 4) (W 1); let s := { s with lnk := { s.lnk with tries := [1] } }; let s := s.setFld (F.QUE_RING_SIZE 0) 2; let s := s.setReg (R.QUE_HEAD 4) (W 0); let s := s.setReg (R.QUE_TAIL 4) (W 1); let s := s.setFld (F.QUE_RING_SIZE 4) 2; let s := s.setFld (F.QUE_RING_BASE 4) 0x10000; s.wr 0x10000 0), { c := { cls := 0, asn := 0, b := 0, index := 0, w0 := 0, w1 := 0, tx := false, q := 4, ch := 0, freq := none, guard := 0, window := false, marked := false, stamp := none, ended := none }, freq := 0, m := 0, mset := 0, granted := false, held := false, cxHeld := false, rampAt := none, txEnd := none, abort := none, pwr := 0, octets := [], e := 0, win := none, ack := none, deliver := none, reason := 0, txd := false, rxd := false, ackok := false, corr := none, corrUsed := false, txenUp := false }, _, by decide +kernel, wSome _ (by decide +kernel), by decide +kernel⟩,
    ⟨(let s : Chip := {}; s.setFld (F.QUE_HEAD_HEAD 12) 1), { c := { cls := 0, asn := 0, b := 0, index := 0, w0 := 0, w1 := 0, tx := false, q := 12, ch := 0, freq := none, guard := 0, window := false, marked := false, stamp := none, ended := none }, freq := 0, m := 0, mset := 0, granted := false, held := false, cxHeld := false, rampAt := none, txEnd := none, abort := none, pwr := 0, octets := [], e := 0, win := none, ack := none, deliver := none, reason := 0, txd := false, rxd := false, ackok := false, corr := none, corrUsed := false, txenUp := false }, _, by decide +kernel, wSome _ (by decide +kernel), by decide +kernel⟩⟩

theorem wit_Bookings :
    (∃ (s : Chip) (u : Chip) (q : Nat), (u = s.purgeBooks) ∧ (s.lnk.running = false ∨ q < 8 ∨ 16 ≤ q ∨ s.fld F.LNK_BOOK_BOOKAHEAD = 0 ∨ (u.lnk.books.getD (q - 8) none).isSome = true) ∧ (u.lnk.running = s.lnk.running))
    ∧ (∃ (s : Chip) (u : Chip) (q : Nat) (a : Nat) (p : Nat) (c : Nat) (n : Nat) (i : Nat) (w0 : Nat) (l : List (Nat × Nat × Nat × Nat × Nat)) (rs : List Resv), (u = s.purgeBooks) ∧ ((u.lnk.running = true) ∧ (8 ≤ q) ∧ (q < 16) ∧ (u.fld F.LNK_BOOK_BOOKAHEAD ≠ 0) ∧ (u.lnk.books.getD (q - 8) none = none) ∧ (u.lnk.unbooked.getD (q - 8) false = false) ∧ (u.headEntry q = some a)) ∧ (u.bookCandidates q = (p, c, n, i, w0) :: l) ∧ (rs = u.entryResv a p c w0) ∧ (u.fld F.LNK_BOOK_BOOKMAX < u.engineResv + rs.length))
    ∧ (∃ (s : Chip) (u : Chip) (q : Nat) (a : Nat) (p : Nat) (c : Nat) (n : Nat) (i : Nat) (w0 : Nat) (l : List (Nat × Nat × Nat × Nat × Nat)) (rs : List Resv) (got : List Nat) (v : Chip) (k : Book), (u = s.purgeBooks) ∧ ((u.lnk.running = true) ∧ (8 ≤ q) ∧ (q < 16) ∧ (u.fld F.LNK_BOOK_BOOKAHEAD ≠ 0) ∧ (u.lnk.books.getD (q - 8) none = none) ∧ (u.lnk.unbooked.getD (q - 8) false = false) ∧ (u.headEntry q = some a)) ∧ (u.bookCandidates q = (p, c, n, i, w0) :: l) ∧ (rs = u.entryResv a p c w0) ∧ (u.engineResv + rs.length ≤ u.fld F.LNK_BOOK_BOOKMAX) ∧ (u.reserveAll [] rs = (Rc.OK, got, v)) ∧ (k = { cls := c, asn := n, cell := i, resv := got, prepAt := p }))
    ∧ (∃ (s : Chip) (i : Nat), (s.bookRxNext i = none))
    ∧ (∃ (s : Chip) (i : Nat) (c : Nat) (n : Nat) (w0 : Nat) (m : Nat) (g : Nat) (p : Nat) (t : Nat) (r : Resv) (l : List (Nat × Nat × Option (Nat × Nat))), (s.bookRxNext i = some (c, n, w0)) ∧ (m = s.profM (bits w0 4 2)) ∧ (g = s.guardOf c (s.fld F.MON_PLAN0_GUARD)) ∧ (p = (s.boundaryAt c n + (↑(s.txOff c) : Int) - (↑g : Int) - (↑(s.lockLead c) : Int)).toNat) ∧ (t = s.lockLead c + 2 * g + tAcq (mMode m) (s.msetOf m)) ∧ (r = s.slotResv 3 p (rxPower (mMode m)) t) ∧ (s.fld F.LNK_BOOK_BOOKMAX < s.engineResv + 1) ∧ (l = List.filter (fun (e : Nat × Nat × Option (Nat × Nat)) => decide (e.fst ≠ i) || decide (n < e.snd.fst + sfSize (s.sfWord (cellSf w0)))) s.lnk.rxBooks))
    ∧ (∃ (s : Chip) (i : Nat) (c : Nat) (n : Nat) (w0 : Nat) (m : Nat) (g : Nat) (p : Nat) (t : Nat) (r : Resv) (l : List (Nat × Nat × Option (Nat × Nat))) (k : Nat) (v : Chip), (s.bookRxNext i = some (c, n, w0)) ∧ (m = s.profM (bits w0 4 2)) ∧ (g = s.guardOf c (s.fld F.MON_PLAN0_GUARD)) ∧ (p = (s.boundaryAt c n + (↑(s.txOff c) : Int) - (↑g : Int) - (↑(s.lockLead c) : Int)).toNat) ∧ (t = s.lockLead c + 2 * g + tAcq (mMode m) (s.msetOf m)) ∧ (r = s.slotResv 3 p (rxPower (mMode m)) t) ∧ (s.engineResv + 1 ≤ s.fld F.LNK_BOOK_BOOKMAX) ∧ (s.reserve r = (Rc.OK, some k, v)) ∧ (l = List.filter (fun (e : Nat × Nat × Option (Nat × Nat)) => decide (e.fst ≠ i) || decide (n < e.snd.fst + sfSize (v.sfWord (cellSf w0)))) v.lnk.rxBooks)) :=
  ⟨⟨{}, _, 0, rfl, by decide +kernel⟩,
    ⟨(let s : Chip := {}; let s := linkBase s; let s := s.setReg (R.LNK_CELL_0 0) (W (1 <<< 35)); let s := s.setReg (R.LNK_CELL_1 0) (W (1 <<< 28)); let s := s.setReg (R.QUE_HEAD 8) (W 0); let s := s.setReg (R.QUE_TAIL 8) (W 1); let s := s.setFld (F.QUE_RING_SIZE 8) 2; let s := s.setFld (F.QUE_RING_BASE 8) 0x10000; let s := s.wr 0x10000 0; let s := s.wr 0x10001 5; let s := s.setFld F.LNK_BOOK_BOOKAHEAD 100; s.setFld F.LNK_BOOK_BOOKMAX 0), _, 8, 0x10000, 60672, 0, 0, 0, 34359738368, _, _, rfl, by decide +kernel, wHead _ _ (by decide +kernel), rfl, by decide +kernel⟩,
    ⟨(let s : Chip := {}; let s := linkBase s; let s := s.setReg (R.LNK_CELL_0 0) (W (1 <<< 35)); let s := s.setReg (R.LNK_CELL_1 0) (W (1 <<< 28)); let s := s.setReg (R.QUE_HEAD 8) (W 0); let s := s.setReg (R.QUE_TAIL 8) (W 1); let s := s.setFld (F.QUE_RING_SIZE 8) 2; let s := s.setFld (F.QUE_RING_BASE 8) 0x10000; let s := s.wr 0x10000 0; let s := s.wr 0x10001 5; let s := s.setFld F.LNK_BOOK_BOOKAHEAD 100; let s := { s with bear := { s.bear with c := (10 ^ 9, 1), level := 10 ^ 18, valid := true } }; s.setFld F.EGY_CAP_CAP 60000), _, 8, 0x10000, 60672, 0, 0, 0, 34359738368, _, _, [0], _, _, rfl, by decide +kernel, wHead _ _ (by decide +kernel), rfl, by decide +kernel, wTrip _ _ _ (by decide +kernel) (by decide +kernel), rfl⟩,
    ⟨{}, 0, by decide +kernel⟩,
    ⟨(let s : Chip := {}; let s := linkBase s; let s := s.setReg (R.LNK_CELL_0 0) (W (1 <<< 35 ||| 1 <<< 12)); let s := s.setReg (R.LNK_CELL_1 0) (W (1 <<< 26)); let s := s.setFld F.LNK_BOOK_BOOKAHEAD 100; s.setFld F.LNK_BOOK_BOOKMAX 0), 0, _, _, _, _, _, _, _, _, _, wSome _ (by decide +kernel), rfl, rfl, rfl, rfl, rfl, by decide +kernel, rfl⟩,
    ⟨(let s : Chip := {}; let s := linkBase s; let s := s.setReg (R.LNK_CELL_0 0) (W (1 <<< 35 ||| 1 <<< 12)); let s := s.setReg (R.LNK_CELL_1 0) (W (1 <<< 26)); let s := s.setFld F.LNK_BOOK_BOOKAHEAD 100; let s := { s with bear := { s.bear with c := (10 ^ 9, 1), level := 10 ^ 18, valid := true } }; s.setFld F.EGY_CAP_CAP 60000), 0, _, _, _, _, _, _, _, _, _, 0, _, wSome _ (by decide +kernel), rfl, rfl, rfl, rfl, rfl, by decide +kernel, wTrip _ _ _ (by decide +kernel) (by decide +kernel), rfl⟩⟩

theorem wit_LinkRegisters :
    (∃ (ag : Agent) (f : Nat) (n : Nat) (k : Nat) (c : Nat) (i : Instr), ((ag ≠ Agent.badger) ∧ (ag ≠ Agent.svc) ∧ (f < 8) ∧ (n < 64) ∧ (k < 64) ∧ (c < 4)) ∧ (i = Instr.lnkEnable ag))
    ∧ (∃ (ag : Agent) (f : Nat) (n : Nat) (k : Nat) (c : Nat) (i : Instr), ((ag ≠ Agent.badger) ∧ (ag ≠ Agent.svc) ∧ (f < 8) ∧ (n < 64) ∧ (k < 64) ∧ (c < 4)) ∧ (i = Instr.lnkDisable ag))
    ∧ (∃ (ag : Agent) (v : Word) (f : Nat) (n : Nat) (k : Nat) (c : Nat) (i : Instr), ((ag ≠ Agent.badger) ∧ (ag ≠ Agent.svc) ∧ (f < 8) ∧ (n < 64) ∧ (k < 64) ∧ (c < 4)) ∧ (i = Instr.lnkSfWrite ag f v))
    ∧ (∃ (ag : Agent) (v : Word) (f : Nat) (n : Nat) (k : Nat) (c : Nat) (i : Instr), ((ag ≠ Agent.badger) ∧ (ag ≠ Agent.svc) ∧ (f < 8) ∧ (n < 64) ∧ (k < 64) ∧ (c < 4)) ∧ (i = Instr.lnkCellWrite ag n k v))
    ∧ (∃ (ag : Agent) (v : Word) (f : Nat) (n : Nat) (k : Nat) (c : Nat) (i : Instr), ((ag ≠ Agent.badger) ∧ (ag ≠ Agent.svc) ∧ (f < 8) ∧ (n < 64) ∧ (k < 64) ∧ (c < 4)) ∧ (i = Instr.lnkChWrite ag k v))
    ∧ (∃ (ag : Agent) (v : Word) (f : Nat) (n : Nat) (k : Nat) (c : Nat) (i : Instr), ((ag ≠ Agent.badger) ∧ (ag ≠ Agent.svc) ∧ (f < 8) ∧ (n < 64) ∧ (k < 64) ∧ (c < 4)) ∧ (i = Instr.lnkClsStartWrite ag c v))
    ∧ (∃ (ag : Agent) (v : Word) (f : Nat) (n : Nat) (k : Nat) (c : Nat) (i : Instr), ((ag ≠ Agent.badger) ∧ (ag ≠ Agent.svc) ∧ (f < 8) ∧ (n < 64) ∧ (k < 64) ∧ (c < 4)) ∧ (i = Instr.lnkNbrWrite ag n v))
    ∧ (∃ (s : Chip) (c : Nat) (a : Nat), (c < 4) ∧ (a = s.asnNow c))
    ∧ (∃ (s : Chip) (ag : Agent), (ag = Agent.badger ∨ ag = Agent.svc) ∧ (s.bit F.LNK_CTL_EN = false) ∧ (s.lnkCheck ≠ Rc.OK))
    ∧ (∃ (s : Chip) (ag : Agent), (ag = Agent.badger ∨ ag = Agent.svc) ∧ (s.bit F.LNK_CTL_EN = false) ∧ (s.lnkCheck = Rc.OK) ∧ (s.lnk.running = false))
    ∧ (∃ (s : Chip) (ag : Agent), (ag = Agent.badger ∨ ag = Agent.svc) ∧ (s.bit F.LNK_CTL_EN = false) ∧ (s.lnkCheck = Rc.OK) ∧ (s.lnk.running = true))
    ∧ (∃ (s : Chip) (ag : Agent), (ag = Agent.badger ∨ ag = Agent.svc) ∧ (s.prov 5 = false ∨ s.bit F.MDM_CTL_EN = false))
    ∧ (∃ (s : Chip) (ag : Agent) (u : Chip), ((ag = Agent.badger ∨ ag = Agent.svc) ∧ (s.bit F.LNK_CTL_EN = true)) ∧ (u = (s.setBit F.LNK_CTL_EN false).slotwOff))
    ∧ (∃ (s : Chip) (ag : Agent) (v : Word) (f : Nat) (w : Nat), ((ag = Agent.badger ∨ ag = Agent.svc) ∧ (f < 8)) ∧ (w = BitVec.toNat v % 65536) ∧ (sfOn (s.sfWord f) = true) ∧ (sfSize w ≠ sfSize (s.sfWord f)))
    ∧ (∃ (s : Chip) (ag : Agent) (v : Word) (f : Nat) (w : Nat), ((ag = Agent.badger ∨ ag = Agent.svc) ∧ (f < 8)) ∧ (w = BitVec.toNat v % 65536) ∧ (sfOn (s.sfWord f) = false) ∧ (s.bit F.LNK_CTL_EN = false ∨ sfOn w = false))
    ∧ (∃ (s : Chip) (ag : Agent) (v : Word) (f : Nat) (w : Nat), ((ag = Agent.badger ∨ ag = Agent.svc) ∧ (f < 8)) ∧ (w = BitVec.toNat v % 65536) ∧ (sfOn (s.sfWord f) = false) ∧ (s.bit F.LNK_CTL_EN = true) ∧ (sfOn w = true) ∧ (s.classCheck (sfClass w) ≠ Rc.OK))
    ∧ (∃ (ag : Agent) (n : Nat), (ag = Agent.badger ∨ ag = Agent.svc) ∧ (n < 1024))
    ∧ (∃ (s : Chip) (ag : Agent) (v : Word) (n : Nat), (ag = Agent.badger ∨ ag = Agent.svc) ∧ (n < 1024) ∧ (sfSize (s.sfWord (cellSf (BitVec.toNat v))) ≤ bits (BitVec.toNat v) 31 20 ∨ 63 < cellNbr (BitVec.toNat v) ∧ cellNbr (BitVec.toNat v) < 127))
    ∧ (∃ (s : Chip) (ag : Agent) (v : Word) (n : Nat), (ag = Agent.badger ∨ ag = Agent.svc) ∧ (n < 1024) ∧ (bits (BitVec.toNat v) 31 20 < sfSize (s.sfWord (cellSf (BitVec.toNat v)))) ∧ (cellNbr (BitVec.toNat v) ≤ 63 ∨ cellNbr (BitVec.toNat v) = 127))
    ∧ (∃ (ag : Agent) (v : Word) (k : Nat) (f : Nat), ((ag = Agent.badger ∨ ag = Agent.svc) ∧ (k < 64)) ∧ (f = bits (BitVec.toNat v) 29 0) ∧ (f ≠ 0) ∧ (inBands f = false))
    ∧ (∃ (ag : Agent) (v : Word) (k : Nat) (f : Nat), ((ag = Agent.badger ∨ ag = Agent.svc) ∧ (k < 64)) ∧ (f = bits (BitVec.toNat v) 29 0) ∧ (f = 0 ∨ inBands f = true))
    ∧ (∃ (ag : Agent) (n : Nat), (ag = Agent.badger ∨ ag = Agent.svc) ∧ (n < 64))
    ∧ (∃ (s : Chip) (ag : Agent) (c : Nat), (ag = Agent.badger ∨ ag = Agent.svc) ∧ (c < 4) ∧ (s.bit F.LNK_CTL_EN = true))
    ∧ (∃ (s : Chip) (ag : Agent) (v : Word) (c : Nat) (t : Nat) (u : Chip), ((ag = Agent.badger ∨ ag = Agent.svc) ∧ (c < 4) ∧ (s.bit F.LNK_CTL_EN = false)) ∧ (t = ((↑s.owl.stb : Int) + signed 36 ((BitVec.toNat v + 2 ^ 36 - s.stbLo) % 2 ^ 36)).toNat) ∧ (u = (s.setReg (R.LNK_CLS_START c) v).setFld F.LNK_TOFF_TOFF 0)) :=
  ⟨⟨Agent.foxA, 0, 0, 0, 0, _, by decide +kernel, rfl⟩,
    ⟨Agent.foxA, 0, 0, 0, 0, _, by decide +kernel, rfl⟩,
    ⟨Agent.foxA, 0#36, 0, 0, 0, 0, _, by decide +kernel, rfl⟩,
    ⟨Agent.foxA, 0#36, 0, 0, 0, 0, _, by decide +kernel, rfl⟩,
    ⟨Agent.foxA, 0#36, 0, 0, 0, 0, _, by decide +kernel, rfl⟩,
    ⟨Agent.foxA, 0#36, 0, 0, 0, 0, _, by decide +kernel, rfl⟩,
    ⟨Agent.foxA, 0#36, 0, 0, 0, 0, _, by decide +kernel, rfl⟩,
    ⟨{}, 0, _, by decide +kernel, rfl⟩,
    ⟨{}, Agent.badger, by decide +kernel⟩,
    ⟨(let s : Chip := {}; let s := s.setFld F.MDM_CTL_EN 1; { s with cfg := { s.cfg with prov := 32 } }), Agent.badger, by decide +kernel⟩,
    ⟨(let s : Chip := {}; let s := { s with lnk := { s.lnk with running := true } }; let s := s.setReg R.MDM_CTL (W 1); { s with cfg := { s.cfg with prov := 32 } }), Agent.badger, by decide +kernel⟩,
    ⟨{}, Agent.badger, by decide +kernel⟩,
    ⟨(let s : Chip := {}; s.setFld F.LNK_CTL_EN 1), Agent.badger, _, by decide +kernel, rfl⟩,
    ⟨(let s : Chip := {}; s.setReg (R.LNK_SF 5) (W 65535)), Agent.badger, 0#36, 5, _, by decide +kernel, rfl, by decide +kernel⟩,
    ⟨{}, Agent.badger, 0#36, 0, _, by decide +kernel, rfl, by decide +kernel⟩,
    ⟨(let s : Chip := {}; let s := s.setFld (F.LNK_CLS_T2_TACK 1) 0; s.setReg R.LNK_CTL (W 1)), Agent.badger, 0xf1d49b#36, 0, _, by decide +kernel, rfl, by decide +kernel⟩,
    ⟨Agent.badger, 0, by decide +kernel⟩,
    ⟨{}, Agent.badger, 0x800#36, 0, by decide +kernel⟩,
    ⟨{}, Agent.badger, 0#36, 0, by decide +kernel⟩,
    ⟨Agent.badger, 1#36, 0, _, by decide +kernel, rfl, by decide +kernel⟩,
    ⟨Agent.badger, 0#36, 0, _, by decide +kernel, rfl, by decide +kernel⟩,
    ⟨Agent.badger, 0, by decide +kernel⟩,
    ⟨(let s : Chip := {}; s.setReg R.LNK_CTL (W 1)), Agent.badger, 0, by decide +kernel⟩,
    ⟨{}, Agent.badger, 0#36, 0, _, _, by decide +kernel, rfl, rfl⟩⟩

theorem wit_MeshRouting_1 :
    (∃ (s : Chip) (u : Chip) (f : List Byte) (lqi : Nat) (e : Nat) (b : List Byte) (m : MIn) (s1 : Chip), (meshParse f = some m) ∧ (s.meshAccept f m (s.euiOf m.src).toList = Except.ok (e, b, s1)) ∧ (u = s1.heard m lqi) ∧ (m.nt = 1) ∧ (m.ver = 1) ∧ (m.ty = 4) ∧ (octAt b 1 ≠ 1))
    ∧ (∃ (s : Chip) (u : Chip) (f : List Byte) (lqi : Nat) (e : Nat) (b : List Byte) (m : MIn) (s1 : Chip), (meshParse f = some m) ∧ (s.meshAccept f m (s.euiOf m.src).toList = Except.ok (e, b, s1)) ∧ (u = s1.heard m lqi) ∧ (m.nt = 1) ∧ (m.ver ≠ 1 ∨ m.ty ≠ 4 ∨ octAt b 1 = 1) ∧ (u.mesh.role = 2))
    ∧ (∃ (s : Chip) (u : Chip) (f : List Byte) (lqi : Nat) (e : Nat) (b : List Byte) (m : MIn) (s1 : Chip), (meshParse f = some m) ∧ (s.meshAccept f m (s.euiOf m.src).toList = Except.ok (e, b, s1)) ∧ (u = s1.heard m lqi) ∧ (m.nt = 1) ∧ (m.ver ≠ 1 ∨ m.ty ≠ 4 ∨ octAt b 1 = 1) ∧ (u.mesh.role = 0))
    ∧ (∃ (s : Chip) (u : Chip) (f : List Byte) (lqi : Nat) (e : Nat) (b : List Byte) (m : MIn) (s1 : Chip), (meshParse f = some m) ∧ (s.meshAccept f m (s.euiOf m.src).toList = Except.ok (e, b, s1)) ∧ (u = s1.heard m lqi) ∧ (m.nt = 1) ∧ (m.ver ≠ 1 ∨ m.ty ≠ 4 ∨ octAt b 1 = 1) ∧ (u.mesh.role = 1) ∧ (u.mesh.parents.contains m.src = true)) :=
  ⟨⟨(rootBase {}), _, frUPA, 0, _, _, mUPA, _, wSome _ pUPA, wAccept _ _ _ _ _ (by decide +kernel) oUPA (by decide +kernel), rfl, by decide +kernel⟩,
    ⟨(let s : Chip := {}; rootBase s), _, [0xec#8, 0#8, 1#8, 0#8, 0#8, 5#8, 0#8, 7#8, 0#8, 0x40#8, 5#8, 0#8, 0#8, 0#8, 0x40#8, 2#8, 0#8, 0#8, 7#8, 0#8, 0xd1#8, 0xf5#8, 0x33#8, 0x17#8, 4#8, 0x1f#8, 0x63#8, 0x88#8, 0x6c#8, 0x85#8, 0xc1#8], 0, _, _, _, _, wSome _ (by decide +kernel), wExc _ (by decide +kernel), rfl, by decide +kernel⟩,
    ⟨(meshBase {}), _, [0xec#8, 0#8, 1#8, 0#8, 0#8, 5#8, 0#8, 7#8, 0#8, 0x40#8, 5#8, 0#8, 0#8, 0#8, 0x40#8, 2#8, 0#8, 0#8, 7#8, 0#8, 0xd1#8, 0xf5#8, 0x33#8, 0x17#8, 4#8, 0x1f#8, 0x63#8, 0x88#8, 0x6c#8, 0x85#8, 0xc1#8], 0, _, _, _, _, wSome _ (by decide +kernel), wExc _ (by decide +kernel), rfl, by decide +kernel⟩,
    ⟨(let s : Chip := {}; routerBase s), _, [0xec#8, 0#8, 1#8, 0#8, 0#8, 5#8, 0#8, 7#8, 0#8, 0x40#8, 5#8, 0#8, 0#8, 0#8, 0x40#8, 2#8, 0#8, 0#8, 7#8, 0#8, 0xd1#8, 0xf5#8, 0x33#8, 0x17#8, 4#8, 0x1f#8, 0x63#8, 0x88#8, 0x6c#8, 0x85#8, 0xc1#8], 0, _, _, _, _, wSome _ (by decide +kernel), wExc _ (by decide +kernel), rfl, by decide +kernel⟩⟩

theorem wit_MeshRouting_2 :
    (∃ (s : Chip) (u : Chip) (f : List Byte) (lqi : Nat) (e : Nat) (b : List Byte) (m : MIn) (s1 : Chip), (meshParse f = some m) ∧ (s.meshAccept f m (s.euiOf m.src).toList = Except.ok (e, b, s1)) ∧ (u = s1.heard m lqi) ∧ (m.nt = 1) ∧ (m.ver ≠ 1 ∨ m.ty ≠ 4 ∨ octAt b 1 = 1) ∧ (u.mesh.role = 1) ∧ (u.mesh.parents.contains m.src = false) ∧ (m.hop = 1))
    ∧ (∃ (s : Chip) (u : Chip) (f : List Byte) (lqi : Nat) (e : Nat) (b : List Byte) (m : MIn) (s1 : Chip), (meshParse f = some m) ∧ (s.meshAccept f m (s.euiOf m.src).toList = Except.ok (e, b, s1)) ∧ (u = s1.heard m lqi) ∧ (m.nt = 1) ∧ (m.ver ≠ 1 ∨ m.ty ≠ 4 ∨ octAt b 1 = 1) ∧ (u.mesh.role = 1) ∧ (m.hop ≠ 1) ∧ (u.mesh.parents = []))
    ∧ (∃ (s : Chip) (u : Chip) (f : List Byte) (lqi : Nat) (e : Nat) (b : List Byte) (m : MIn) (s1 : Chip) (p : Nat) (l : List Nat) (code : Nat) (v : Chip), (meshParse f = some m) ∧ (s.meshAccept f m (s.euiOf m.src).toList = Except.ok (e, b, s1)) ∧ (u = s1.heard m lqi) ∧ ((m.nt = 1) ∧ (m.ver ≠ 1 ∨ m.ty ≠ 4 ∨ octAt b 1 = 1) ∧ (u.mesh.role = 1) ∧ (u.mesh.parents.contains m.src = false) ∧ (m.hop ≠ 1)) ∧ (u.mesh.parents = p :: l) ∧ (u.meshSend { dst := p, ty := m.ty, ver := none, pri := decide (lhPri f = 1), ack := true, sec := true, jkey := false, nt := 1, hop := m.hop - 1, fdst := 0, orig := m.orig, fseq := 0, route := [], jt := withJt m, body := b } = (code, v)) ∧ (code ≠ Rc.TOO_BIG ∨ m.orig = u.saddr))
    ∧ (∃ (s : Chip) (u : Chip) (f : List Byte) (lqi : Nat) (e : Nat) (b : List Byte) (m : MIn) (s1 : Chip), (meshParse f = some m) ∧ (s.meshAccept f m (s.euiOf m.src).toList = Except.ok (e, b, s1)) ∧ (u = s1.heard m lqi) ∧ (m.nt = 2) ∧ (m.fdst = u.saddr)) :=
  ⟨⟨(let s : Chip := {}; let s := routerBase s; { s with mesh := { s.mesh with parents := [] } }), _, [0xe8#8, 0#8, 1#8, 0#8, 0#8, 5#8, 0#8, 7#8, 0#8, 0x40#8, 5#8, 0#8, 0#8, 0#8, 0x40#8, 1#8, 0#8, 0#8, 7#8, 0#8, 0xd1#8, 0xf5#8, 0x33#8, 0xf5#8, 0x20#8, 0x10#8, 0x8e#8, 0x10#8, 0xc6#8, 0x8c#8, 0x6f#8], 0, _, _, _, _, wSome _ (by decide +kernel), wExc _ (by decide +kernel), rfl, by decide +kernel⟩,
    ⟨(let s : Chip := {}; let s := routerBase s; { s with mesh := { s.mesh with parents := [] } }), _, [0xec#8, 0#8, 1#8, 0#8, 0#8, 5#8, 0#8, 7#8, 0#8, 0x40#8, 5#8, 0#8, 0#8, 0#8, 0x40#8, 2#8, 0#8, 0#8, 7#8, 0#8, 0xd1#8, 0xf5#8, 0x33#8, 0x17#8, 4#8, 0x1f#8, 0x63#8, 0x88#8, 0x6c#8, 0x85#8, 0xc1#8], 0, _, _, _, _, wSome _ (by decide +kernel), wExc _ (by decide +kernel), rfl, by decide +kernel⟩,
    ⟨(let s : Chip := {}; let s := routerBase s; { s with mesh := { s.mesh with parents := [0] } }), _, [0x6b#8, 0#8, 1#8, 0#8, 0#8, 5#8, 0#8, 7#8, 0#8, 0#8, 5#8, 0#8, 0#8, 0#8, 0x40#8, 0x10#8, 0#8, 0#8, 0#8, 0#8, 2#8, 0xb7#8, 0x9a#8, 0x11#8, 0x2c#8, 0xdc#8, 0x1a#8, 0xaa#8], 0, _, _, _, _, _, _, _, _, wSome _ (by decide +kernel), wExc _ (by decide +kernel), rfl, by decide +kernel, wCons _ (by decide +kernel), rfl, by decide +kernel⟩,
    ⟨(meshBase {}), _, frDNM, 0, _, _, mDNM, _, wSome _ pDNM, wAccept _ _ _ _ _ (by decide +kernel) oDNM (by decide +kernel), rfl, by decide +kernel⟩⟩

theorem wit_MeshRouting_3 :
    (∃ (s : Chip) (u : Chip) (f : List Byte) (lqi : Nat) (e : Nat) (b : List Byte) (m : MIn) (s1 : Chip), (meshParse f = some m) ∧ (s.meshAccept f m (s.euiOf m.src).toList = Except.ok (e, b, s1)) ∧ (u = s1.heard m lqi) ∧ (m.nt = 2) ∧ (m.fdst ≠ u.saddr) ∧ (m.hop = 1))
    ∧ (∃ (s : Chip) (u : Chip) (f : List Byte) (lqi : Nat) (e : Nat) (b : List Byte) (m : MIn) (s1 : Chip), (meshParse f = some m) ∧ (s.meshAccept f m (s.euiOf m.src).toList = Except.ok (e, b, s1)) ∧ (u = s1.heard m lqi) ∧ (m.nt = 2) ∧ (m.fdst ≠ u.saddr) ∧ (m.hop ≠ 1) ∧ (u.mesh.role = 0))
    ∧ (∃ (s : Chip) (u : Chip) (f : List Byte) (lqi : Nat) (e : Nat) (b : List Byte) (m : MIn) (s1 : Chip), (meshParse f = some m) ∧ (s.meshAccept f m (s.euiOf m.src).toList = Except.ok (e, b, s1)) ∧ (u = s1.heard m lqi) ∧ (m.nt = 2) ∧ (m.fdst ≠ u.saddr) ∧ (m.hop ≠ 1) ∧ (u.mesh.role = 1) ∧ (u.mesh.parents = []))
    ∧ (∃ (s : Chip) (u : Chip) (f : List Byte) (lqi : Nat) (e : Nat) (b : List Byte) (m : MIn) (s1 : Chip) (h : Nat) (r : List Nat), (meshParse f = some m) ∧ (s.meshAccept f m (s.euiOf m.src).toList = Except.ok (e, b, s1)) ∧ (u = s1.heard m lqi) ∧ ((m.nt = 2) ∧ (m.fdst ≠ u.saddr) ∧ (m.hop ≠ 1) ∧ (u.mesh.role = 2 ∨ u.mesh.role = 1 ∧ u.mesh.parents ≠ [])) ∧ (m.route = h :: r) ∧ (u.reachable h = false)) :=
  ⟨⟨(meshBase {}), _, frDN1, 0, _, _, mDN1, _, wSome _ pDN1, wAccept _ _ _ _ _ (by decide +kernel) oDN1 (by decide +kernel), rfl, by decide +kernel⟩,
    ⟨(meshBase {}), _, frDN2, 0, _, _, mDN2, _, wSome _ pDN2, wAccept _ _ _ _ _ (by decide +kernel) oDN2 (by decide +kernel), rfl, by decide +kernel⟩,
    ⟨(let s : Chip := {}; let s := meshBase s; { s with mesh := { s.mesh with parents := [], role := 1 } }), _, frDN2, 0, _, _, mDN2, _, wSome _ pDN2, wAccept _ _ _ _ _ (by decide +kernel) oDN2 (by decide +kernel), rfl, by decide +kernel⟩,
    ⟨(let s : Chip := {}; rootBase s), _, frDNU, 0, _, _, mDNU, _, _, _, wSome _ pDNU, wAccept _ _ _ _ _ (by decide +kernel) oDNU (by decide +kernel), rfl, by decide +kernel, wCons _ (by decide +kernel), by decide +kernel⟩⟩

theorem wit_MeshRouting_4 :
    (∃ (s : Chip) (u : Chip) (f : List Byte) (lqi : Nat) (e : Nat) (b : List Byte) (m : MIn) (s1 : Chip) (h : Nat) (r : List Nat), (meshParse f = some m) ∧ (s.meshAccept f m (s.euiOf m.src).toList = Except.ok (e, b, s1)) ∧ (u = s1.heard m lqi) ∧ ((m.nt = 2) ∧ (m.fdst ≠ u.saddr) ∧ (m.hop ≠ 1) ∧ (u.mesh.role = 2 ∨ u.mesh.role = 1 ∧ u.mesh.parents ≠ [])) ∧ (m.route = h :: r) ∧ (u.reachable h = true) ∧ (u.verFor h = 1) ∧ (15 < r.length))
    ∧ (∃ (s : Chip) (u : Chip) (f : List Byte) (lqi : Nat) (e : Nat) (b : List Byte) (m : MIn) (s1 : Chip) (h : Nat) (r : List Nat) (code : Nat) (v : Chip), (meshParse f = some m) ∧ (s.meshAccept f m (s.euiOf m.src).toList = Except.ok (e, b, s1)) ∧ (u = s1.heard m lqi) ∧ ((m.nt = 2) ∧ (m.fdst ≠ u.saddr) ∧ (m.hop ≠ 1) ∧ (u.mesh.role = 2 ∨ u.mesh.role = 1 ∧ u.mesh.parents ≠ [])) ∧ (m.route = h :: r) ∧ ((u.reachable h = true) ∧ (u.verFor h ≠ 1 ∨ r.length ≤ 15)) ∧ (u.meshSend { dst := h, ty := m.ty, ver := none, pri := decide (lhPri f = 1), ack := true, sec := true, jkey := false, nt := 2, hop := m.hop - 1, fdst := m.fdst, orig := m.orig, fseq := 0, route := r, jt := withJt m, body := b } = (code, v)) ∧ (code ≠ Rc.TOO_BIG))
    ∧ (∃ (s : Chip) (u : Chip) (f : List Byte) (lqi : Nat) (e : Nat) (b : List Byte) (m : MIn) (s1 : Chip) (h : Nat) (r : List Nat), (meshParse f = some m) ∧ (s.meshAccept f m (s.euiOf m.src).toList = Except.ok (e, b, s1)) ∧ (u = s1.heard m lqi) ∧ ((m.nt = 2) ∧ (m.fdst ≠ u.saddr) ∧ (m.hop ≠ 1) ∧ (u.mesh.role = 2 ∨ u.mesh.role = 1 ∧ u.mesh.parents ≠ []) ∧ (m.route = [])) ∧ (h = m.fdst) ∧ (r = []) ∧ (u.reachable h = false))
    ∧ (∃ (s : Chip) (u : Chip) (f : List Byte) (lqi : Nat) (e : Nat) (b : List Byte) (m : MIn) (s1 : Chip) (h : Nat) (r : List Nat) (code : Nat) (v : Chip), (meshParse f = some m) ∧ (s.meshAccept f m (s.euiOf m.src).toList = Except.ok (e, b, s1)) ∧ (u = s1.heard m lqi) ∧ ((m.nt = 2) ∧ (m.fdst ≠ u.saddr) ∧ (m.hop ≠ 1) ∧ (u.mesh.role = 2 ∨ u.mesh.role = 1 ∧ u.mesh.parents ≠ []) ∧ (m.route = [])) ∧ (h = m.fdst) ∧ (r = []) ∧ ((u.reachable h = true) ∧ (u.verFor h ≠ 1 ∨ r.length ≤ 15)) ∧ (u.meshSend { dst := h, ty := m.ty, ver := none, pri := decide (lhPri f = 1), ack := true, sec := true, jkey := false, nt := 2, hop := m.hop - 1, fdst := m.fdst, orig := m.orig, fseq := 0, route := r, jt := withJt m, body := b } = (code, v)) ∧ (code ≠ Rc.TOO_BIG)) :=
  ⟨⟨(let s : Chip := {}; let s := rootBase s; { s with mesh := { s.mesh with peers := { addr := 5, eui := 5, vmin := 1, vmax := 1, rank := 512, hops := 1, q := 200, noAcks := 0, beacons := true, beaconAt := 0 } :: s.mesh.peers } }), _, frDNR, 0, _, _, mDNR, _, _, _, wSome _ pDNR, wAccept _ _ _ _ _ (by decide +kernel) oDNR (by decide +kernel), rfl, by decide +kernel, wCons _ (by decide +kernel), by decide +kernel⟩,
    ⟨(let s : Chip := {}; rootBase s), _, frDNS, 0, _, _, mDNS, _, _, _, _, _, wSome _ pDNS, wAccept _ _ _ _ _ (by decide +kernel) oDNS (by decide +kernel), rfl, by decide +kernel, wCons _ (by decide +kernel), by decide +kernel, wMk _, by decide +kernel⟩,
    ⟨(let s : Chip := {}; rootBase s), _, frDN2, 0, _, _, mDN2, _, _, _, wSome _ pDN2, wAccept _ _ _ _ _ (by decide +kernel) oDN2 (by decide +kernel), rfl, by decide +kernel, rfl, rfl, by decide +kernel⟩,
    ⟨(let s : Chip := {}; let s := rootBase s; s.setFld F.LNK_SADDR_SADDR 5), _, frDNM, 0, _, _, mDNM, _, _, _, _, _, wSome _ pDNM, wAccept _ _ _ _ _ (by decide +kernel) oDNM (by decide +kernel), rfl, by decide +kernel, rfl, rfl, by decide +kernel, wMk _, by decide +kernel⟩⟩

theorem wit_MeshRouting_5 :
    (∃ (s : Chip) (u : Chip) (f : List Byte) (lqi : Nat) (e : Nat) (b : List Byte) (m : MIn) (s1 : Chip) (d : Nat), (meshParse f = some m) ∧ (s.meshAccept f m (s.euiOf m.src).toList = Except.ok (e, b, s1)) ∧ (u = s1.heard m lqi) ∧ ((m.nt = 3) ∧ (u.mesh.fseqLast = none)) ∧ (d = 1) ∧ (d = 0 ∨ 127 < d ∨ u.mesh.role = 2))
    ∧ (∃ (s : Chip) (u : Chip) (f : List Byte) (lqi : Nat) (e : Nat) (b : List Byte) (m : MIn) (s1 : Chip) (d : Nat) (v : Chip), (meshParse f = some m) ∧ (s.meshAccept f m (s.euiOf m.src).toList = Except.ok (e, b, s1)) ∧ (u = s1.heard m lqi) ∧ ((m.nt = 3) ∧ (u.mesh.fseqLast = none)) ∧ (d = 1) ∧ ((1 ≤ d) ∧ (d ≤ 127) ∧ (u.mesh.role ≠ 2)) ∧ (v = (u.setMesh ({ u.mesh with fseqLast := some m.fseq })).meshDeliver m b) ∧ (u.mesh.role = 0 ∨ m.hop = 1 ∨ u.mesh.parents = []))
    ∧ (∃ (s : Chip) (u : Chip) (f : List Byte) (lqi : Nat) (e : Nat) (b : List Byte) (m : MIn) (s1 : Chip) (d : Nat) (v : Chip), (meshParse f = some m) ∧ (s.meshAccept f m (s.euiOf m.src).toList = Except.ok (e, b, s1)) ∧ (u = s1.heard m lqi) ∧ ((m.nt = 3) ∧ (u.mesh.fseqLast = none)) ∧ (d = 1) ∧ ((1 ≤ d) ∧ (d ≤ 127) ∧ (u.mesh.role ≠ 2)) ∧ (v = (u.setMesh ({ u.mesh with fseqLast := some m.fseq })).meshDeliver m b) ∧ (u.mesh.role = 1) ∧ (m.hop ≠ 1) ∧ (u.mesh.parents ≠ []))
    ∧ (∃ (s : Chip) (u : Chip) (f : List Byte) (lqi : Nat) (e : Nat) (b : List Byte) (m : MIn) (s1 : Chip) (d : Nat) (x : Nat), (meshParse f = some m) ∧ (s.meshAccept f m (s.euiOf m.src).toList = Except.ok (e, b, s1)) ∧ (u = s1.heard m lqi) ∧ (m.nt = 3) ∧ (u.mesh.fseqLast = some x) ∧ (d = (m.fseq + 256 - x) % 256) ∧ (d = 0 ∨ 127 < d ∨ u.mesh.role = 2)) :=
  ⟨⟨(let s : Chip := {}; rootBase s), _, frFL1, 0, _, _, mFL1, _, _, wSome _ pFL1, wAccept _ _ _ _ _ (by decide +kernel) oFL1 (by decide +kernel), rfl, by decide +kernel, rfl, by decide +kernel⟩,
    ⟨(meshBase {}), _, frFL1, 0, _, _, mFL1, _, _, _, wSome _ pFL1, wAccept _ _ _ _ _ (by decide +kernel) oFL1 (by decide +kernel), rfl, by decide +kernel, rfl, by decide +kernel, rfl, by decide +kernel⟩,
    ⟨(let s : Chip := {}; routerBase s), _, frFL2, 0, _, _, mFL2, _, _, _, wSome _ pFL2, wAccept _ _ _ _ _ (by decide +kernel) oFL2 (by decide +kernel), rfl, by decide +kernel, rfl, by decide +kernel, rfl, by decide +kernel⟩,
    ⟨(let s : Chip := {}; let s := meshBase s; { s with mesh := { s.mesh with fseqLast := some 1 } }), _, frFL1, 0, _, _, mFL1, _, _, _, wSome _ pFL1, wAccept _ _ _ _ _ (by decide +kernel) oFL1 (by decide +kernel), rfl, by decide +kernel, wSome _ (by decide +kernel), rfl, by decide +kernel⟩⟩

theorem wit_MeshRouting_6 :
    (∃ (s : Chip) (u : Chip) (f : List Byte) (lqi : Nat) (e : Nat) (b : List Byte) (m : MIn) (s1 : Chip) (d : Nat) (x : Nat) (v : Chip), (meshParse f = some m) ∧ (s.meshAccept f m (s.euiOf m.src).toList = Except.ok (e, b, s1)) ∧ (u = s1.heard m lqi) ∧ (m.nt = 3) ∧ (u.mesh.fseqLast = some x) ∧ (d = (m.fseq + 256 - x) % 256) ∧ ((1 ≤ d) ∧ (d ≤ 127) ∧ (u.mesh.role ≠ 2)) ∧ (v = (u.setMesh ({ u.mesh with fseqLast := some m.fseq })).meshDeliver m b) ∧ (u.mesh.role = 0 ∨ m.hop = 1 ∨ u.mesh.parents = []))
    ∧ (∃ (s : Chip) (u : Chip) (f : List Byte) (lqi : Nat) (e : Nat) (b : List Byte) (m : MIn) (s1 : Chip) (d : Nat) (x : Nat) (v : Chip), (meshParse f = some m) ∧ (s.meshAccept f m (s.euiOf m.src).toList = Except.ok (e, b, s1)) ∧ (u = s1.heard m lqi) ∧ (m.nt = 3) ∧ (u.mesh.fseqLast = some x) ∧ (d = (m.fseq + 256 - x) % 256) ∧ ((1 ≤ d) ∧ (d ≤ 127) ∧ (u.mesh.role ≠ 2)) ∧ (v = (u.setMesh ({ u.mesh with fseqLast := some m.fseq })).meshDeliver m b) ∧ (u.mesh.role = 1) ∧ (m.hop ≠ 1) ∧ (u.mesh.parents ≠ []))
    ∧ (∃ (f : List Byte) (lqi : Nat) (i : Instr), (i = Instr.upFrameReceived f lqi) ∧ (meshParse f = none))
    ∧ (∃ (s : Chip) (f : List Byte) (lqi : Nat) (i : Instr) (m : MIn) (code : Nat), (i = Instr.upFrameReceived f lqi) ∧ (meshParse f = some m) ∧ ((i = Instr.upFrameReceived f lqi → m.nt = 1) ∧ (i = Instr.downFrameReceived f lqi → m.nt = 2) ∧ (i = Instr.floodReceived f lqi → m.nt = 3)) ∧ (s.meshAccept f m (s.euiOf m.src).toList = Except.error code)) :=
  ⟨⟨(let s : Chip := {}; let s := meshBase s; { s with mesh := { s.mesh with fseqLast := some 0 } }), _, frFL1, 0, _, _, mFL1, _, _, _, _, wSome _ pFL1, wAccept _ _ _ _ _ (by decide +kernel) oFL1 (by decide +kernel), rfl, by decide +kernel, wSome _ (by decide +kernel), rfl, by decide +kernel, rfl, by decide +kernel⟩,
    ⟨(let s : Chip := {}; let s := routerBase s; { s with mesh := { s.mesh with fseqLast := some 0 } }), _, frFL2, 0, _, _, mFL2, _, _, _, _, wSome _ pFL2, wAccept _ _ _ _ _ (by decide +kernel) oFL2 (by decide +kernel), rfl, by decide +kernel, wSome _ (by decide +kernel), rfl, by decide +kernel, rfl, by decide +kernel⟩,
    ⟨[], 0, _, rfl, by decide +kernel⟩,
    ⟨{}, frUP1, 0, _, _, Rc.KEY_EPOCH, rfl, wSome _ (by decide +kernel), by decide +kernel, wErr _ _ (by decide +kernel)⟩⟩

theorem wit_MeshRouting_7 :
    (∃ (f : List Byte) (lqi : Nat) (i : Instr), (i = Instr.downFrameReceived f lqi) ∧ (meshParse f = none))
    ∧ (∃ (s : Chip) (f : List Byte) (lqi : Nat) (i : Instr) (m : MIn) (code : Nat), (i = Instr.downFrameReceived f lqi) ∧ (meshParse f = some m) ∧ ((i = Instr.upFrameReceived f lqi → m.nt = 1) ∧ (i = Instr.downFrameReceived f lqi → m.nt = 2) ∧ (i = Instr.floodReceived f lqi → m.nt = 3)) ∧ (s.meshAccept f m (s.euiOf m.src).toList = Except.error code))
    ∧ (∃ (f : List Byte) (lqi : Nat) (i : Instr), (i = Instr.floodReceived f lqi) ∧ (meshParse f = none))
    ∧ (∃ (s : Chip) (f : List Byte) (lqi : Nat) (i : Instr) (m : MIn) (code : Nat), (i = Instr.floodReceived f lqi) ∧ (meshParse f = some m) ∧ ((i = Instr.upFrameReceived f lqi → m.nt = 1) ∧ (i = Instr.downFrameReceived f lqi → m.nt = 2) ∧ (i = Instr.floodReceived f lqi → m.nt = 3)) ∧ (s.meshAccept f m (s.euiOf m.src).toList = Except.error code)) :=
  ⟨⟨[], 0, _, rfl, by decide +kernel⟩,
    ⟨{}, frDN2, 0, _, _, Rc.KEY_EPOCH, rfl, wSome _ (by decide +kernel), by decide +kernel, wErr _ _ (by decide +kernel)⟩,
    ⟨[], 0, _, rfl, by decide +kernel⟩,
    ⟨{}, frFL1, 0, _, _, Rc.KEY_EPOCH, rfl, wSome _ (by decide +kernel), by decide +kernel, wErr _ _ (by decide +kernel)⟩⟩

theorem wit_MeshRouting_8 :
    (∃ (s : Chip) (o : Nat), (s.mesh.role ≠ 2 ∨ o = 0 ∨ 16383 < o))
    ∧ (∃ (s : Chip) (o : Nat) (n : Nat) (b : List Byte), ((s.mesh.role = 2) ∧ (1 ≤ o) ∧ (o ≤ 16383)) ∧ (n = octAt b 1) ∧ (n = 0 ∨ 4 < n ∨ b.length ≠ 2 + 2 * n))
    ∧ (∃ (s : Chip) (o : Nat) (a : Nat) (w : Nat) (n : Nat) (b : List Byte), ((s.mesh.role = 2) ∧ (1 ≤ o) ∧ (o ≤ 16383)) ∧ (n = octAt b 1) ∧ ((1 ≤ n) ∧ (n ≤ 4) ∧ (b.length = 2 + 2 * n) ∧ (∀ (i : Nat), i < n → oct2 b (2 + 2 * i) ≤ 16383)) ∧ (a = s.mesh.rtBase + 2 * o) ∧ (rtValid (s.rt o) = false) ∧ (w = 1 <<< 35 ||| (decide (2 ≤ n)).toNat <<< 34 ||| oct2 b 2 <<< 14 ||| if 2 ≤ n then oct2 b 4 else 0))
    ∧ (∃ (s : Chip) (a : Nat) (age : Nat), (age = (BitVec.toNat (s.reg R.RTC_SEC) % 2 ^ 28 + 2 ^ 28 - bits (BitVec.toNat (s.rd (s.mesh.rtBase + 2 * a + 1))) 27 0) % 2 ^ 28) ∧ (s.mesh.role = 2) ∧ (1 ≤ a) ∧ (a ≤ 16383) ∧ (rtValid (s.rt a) = true) ∧ (180 * s.mesh.advint < age)) :=
  ⟨⟨{}, 0, by decide +kernel⟩,
    ⟨(let s : Chip := {}; rootBase s), 1, _, [], by decide +kernel, rfl, by decide +kernel⟩,
    ⟨(let s : Chip := {}; let s := { s with mesh := { s.mesh with role := 2 } }; s.wr 0x30002 0), 1, _, _, _, [0#8, 2#8, 0#8, 0#8, 0#8, 0#8], by decide +kernel, rfl, by decide +kernel, rfl, by decide +kernel, rfl⟩,
    ⟨(let s : Chip := {}; let s := { s with mesh := { s.mesh with role := 2 } }; let s := s.wr 0x30002 (W (1 <<< 35)); let s := s.wr 0x30003 0; s.setReg R.RTC_SEC (W 1000000)), 1, _, rfl, by decide +kernel⟩⟩

theorem wit_MeshRouting_9 :
    (∃ (s : Chip) (a : Nat) (age : Nat), (age = (BitVec.toNat (s.reg R.RTC_SEC) % 2 ^ 28 + 2 ^ 28 - bits (BitVec.toNat (s.rd (s.mesh.rtBase + 2 * a + 1))) 27 0) % 2 ^ 28) ∧ (s.mesh.role ≠ 2 ∨ age ≤ 180 * s.mesh.advint))
    ∧ (∃ (s : Chip) (d : Nat) (ty : Nat) (jt : Option Nat) (may : Bool), (may = decide (ty = 5 ∧ jt = none ∨ d ≠ 65535 ∧ (ty = 0 ∧ jt = none ∨ ty = 3 ∧ jt = some 3))) ∧ (s.mesh.role ≠ 2 ∨ may = false))
    ∧ (∃ (s : Chip) (d : Nat) (ty : Nat) (jt : Option Nat) (may : Bool), (may = decide (ty = 5 ∧ jt = none ∨ d ≠ 65535 ∧ (ty = 0 ∧ jt = none ∨ ty = 3 ∧ jt = some 3))) ∧ (may = true) ∧ (s.mesh.role = 2) ∧ (d ≠ 65535) ∧ (d = 0 ∨ 16383 < d ∨ rtValid (s.rt d) = false))
    ∧ (∃ (s : Chip) (d : Nat) (ty : Nat) (jt : Option Nat) (may : Bool) (n : Nat), (may = decide (ty = 5 ∧ jt = none ∨ d ≠ 65535 ∧ (ty = 0 ∧ jt = none ∨ ty = 3 ∧ jt = some 3))) ∧ ((may = true) ∧ (s.mesh.role = 2)) ∧ (n = (s.mesh.fseq + 1) % 256) ∧ (d = 65535)) :=
  ⟨⟨{}, 0, _, rfl, by decide +kernel⟩,
    ⟨{}, 0, 0, none, _, rfl, by decide +kernel⟩,
    ⟨(let s : Chip := {}; rootBase s), 0, 0, none, _, rfl, by decide +kernel⟩,
    ⟨(let s : Chip := {}; rootBase s), _, 5, none, _, _, rfl, by decide +kernel, rfl, rfl⟩⟩

theorem wit_MeshRouting_10 :
    (∃ (s : Chip) (d : Nat) (ty : Nat) (jt : Option Nat) (may : Bool), (may = decide (ty = 5 ∧ jt = none ∨ d ≠ 65535 ∧ (ty = 0 ∧ jt = none ∨ ty = 3 ∧ jt = some 3))) ∧ (may = true) ∧ (s.mesh.role = 2) ∧ (d ≠ 65535) ∧ (s.routeTo d = (Rc.OK, [])))
    ∧ (∃ (s : Chip) (d : Nat) (ty : Nat) (jt : Option Nat) (may : Bool) (h : Nat) (r : List Nat), (may = decide (ty = 5 ∧ jt = none ∨ d ≠ 65535 ∧ (ty = 0 ∧ jt = none ∨ ty = 3 ∧ jt = some 3))) ∧ ((may = true) ∧ (s.mesh.role = 2) ∧ (d ≠ 65535)) ∧ (s.routeTo d = (Rc.OK, h :: r)) ∧ (s.verFor h = 1) ∧ (15 < r.length))
    ∧ (∃ (s : Chip) (d : Nat) (ty : Nat) (jt : Option Nat) (may : Bool) (h : Nat) (r : List Nat), (may = decide (ty = 5 ∧ jt = none ∨ d ≠ 65535 ∧ (ty = 0 ∧ jt = none ∨ ty = 3 ∧ jt = some 3))) ∧ ((may = true) ∧ (s.mesh.role = 2) ∧ (d ≠ 65535)) ∧ (s.routeTo d = (Rc.OK, h :: r)) ∧ (s.verFor h ≠ 1 ∨ r.length ≤ 15))
    ∧ (∃ (s : Chip) (fdst : Nat) (hop : Nat) (l : List Nat), (l = List.filter (fun (a : Nat) => decide (rtParent (s.rt a) = hop) && bitOf (s.rt a) 34) (s.routeEntries 64 fdst)) ∧ (s.mesh.role ≠ 2 ∨ fdst = 0 ∨ 16383 < fdst)) :=
  ⟨⟨(let s : Chip := {}; let s := rootBase s; let s := { s with mesh := { s.mesh with rtBase := 0x10000 } }; s.wr 65550 (W (1 <<< 35 ||| 0 <<< 14))), 7, 0, none, _, rfl, by decide +kernel⟩,
    ⟨(let s : Chip := {}; let s := rootBase s; let s := { s with mesh := { s.mesh with rtBase := 0x10000 } }; let s := (List.range 18).foldl (fun c i => c.wr (0x10000 + 2 * (10 + i)) (W (1 <<< 35 ||| (if i = 0 then 0 else 9 + i) <<< 14))) s; { s with mesh := { s.mesh with peers := [{ addr := 10, eui := 0, vmin := 1, vmax := 1, rank := 256, hops := 0, q := 200, beacons := true, beaconAt := 0 }] } }), 27, 0, none, _, _, _, rfl, by decide +kernel, rfl, by decide +kernel⟩,
    ⟨(let s : Chip := {}; let s := rootBase s; let s := { s with mesh := { s.mesh with rtBase := 0x10000 } }; let s := s.wr 65550 (W (1 <<< 35 ||| 0 <<< 14)); s.wr 65552 (W (1 <<< 35 ||| 7 <<< 14))), 8, 0, none, _, _, _, rfl, by decide +kernel, rfl, by decide +kernel⟩,
    ⟨{}, 0, 0, _, rfl, by decide +kernel⟩⟩

theorem wit_MeshRouting_11 :
    (∃ (s : Chip) (fdst : Nat) (hop : Nat) (l : List Nat), (l = List.filter (fun (a : Nat) => decide (rtParent (s.rt a) = hop) && bitOf (s.rt a) 34) (s.routeEntries 64 fdst)) ∧ (s.mesh.role = 2) ∧ (1 ≤ fdst) ∧ (fdst ≤ 16383) ∧ (l = []))
    ∧ (∃ (s : Chip) (fdst : Nat) (hop : Nat) (l : List Nat) (a : Nat), (l = List.filter (fun (a : Nat) => decide (rtParent (s.rt a) = hop) && bitOf (s.rt a) 34) (s.routeEntries 64 fdst)) ∧ (s.mesh.role = 2) ∧ (1 ≤ fdst) ∧ (fdst ≤ 16383) ∧ (l = [a]))
    ∧ (∃ (s : Chip) (u : Chip) (v : Chip) (f : List Byte) (b : List Byte) (n : Nat) (m : MIn), (meshParse f = some m) ∧ (u = s.missQ m.dst n) ∧ (u.meshPeer m.dst = none) ∧ (v = u) ∧ (v.ownBody f m = some b) ∧ (m.nt = 1) ∧ (u.nextParent m.dst = none))
    ∧ (∃ (s : Chip) (u : Chip) (v : Chip) (f : List Byte) (b : List Byte) (n : Nat) (m : MIn) (p : Nat) (code : Nat) (x : Chip), (meshParse f = some m) ∧ (u = s.missQ m.dst n) ∧ (u.meshPeer m.dst = none) ∧ (v = u) ∧ (v.ownBody f m = some b) ∧ (m.nt = 1) ∧ (u.nextParent m.dst = some p) ∧ (v.meshSend { dst := p, ty := m.ty, ver := none, pri := decide (lhPri f = 1), ack := true, sec := true, jkey := false, nt := 1, hop := m.hop, fdst := 0, orig := m.orig, fseq := 0, route := [], jt := withJt m, body := b } = (code, x)) ∧ (code ≠ Rc.TOO_BIG ∨ m.orig = v.saddr)) :=
  ⟨⟨(let s : Chip := {}; let s := rootBase s; s.wr 0x30002 0), 1, 0, _, rfl, by decide +kernel⟩,
    ⟨(let s : Chip := {}; let s := rootBase s; let s := s.wr 0x30002 (W (3 <<< 34 ||| 2 <<< 14)); s.wr 0x30004 (W (1 <<< 35))), 1, 2, _, 1, rfl, by decide +kernel⟩,
    ⟨(let s : Chip := {}; rootBase s), _, _, [0xec#8, 0#8, 1#8, 0#8, 0#8, 5#8, 0#8, 7#8, 0#8, 0x40#8, 5#8, 0#8, 0#8, 0#8, 0x40#8, 2#8, 0#8, 0#8, 7#8, 0#8, 0xd1#8, 0xf5#8, 0x33#8, 0x17#8, 4#8, 0x1f#8, 0x63#8, 0x88#8, 0x6c#8, 0x85#8, 0xc1#8], _, 0, _, wSome _ (by decide +kernel), rfl, by decide +kernel, rfl, wSome _ (by decide +kernel), by decide +kernel⟩,
    ⟨(let s : Chip := {}; routerBase s), _, _, [0x6b#8, 0#8, 1#8, 0#8, 0#8, 5#8, 0#8, 7#8, 0#8, 0#8, 5#8, 0#8, 0#8, 0#8, 0x40#8, 0x10#8, 0#8, 0#8, 0#8, 0#8, 2#8, 0xb7#8, 0x9a#8, 0x11#8, 0x2c#8, 0xdc#8, 0x1a#8, 0xaa#8], _, 0, _, _, _, _, wSome _ (by decide +kernel), rfl, by decide +kernel, rfl, wSome _ (by decide +kernel), by decide +kernel, wSome _ (by decide +kernel), rfl, by decide +kernel⟩⟩

theorem wit_MeshRouting_12 :
    (∃ (s : Chip) (u : Chip) (v : Chip) (f : List Byte) (b : List Byte) (n : Nat) (m : MIn), (meshParse f = some m) ∧ (u = s.missQ m.dst n) ∧ (u.meshPeer m.dst = none) ∧ (v = u) ∧ (v.ownBody f m = some b) ∧ (m.nt = 2))
    ∧ (∃ (s : Chip) (u : Chip) (v : Chip) (f : List Byte) (b : List Byte) (n : Nat) (m : MIn) (p : MeshPeer), (meshParse f = some m) ∧ (u = s.missQ m.dst n) ∧ (u.meshPeer m.dst = some p) ∧ (p.noAcks + 1 < 3) ∧ (v = u.setPeer { p with noAcks := p.noAcks + 1 }) ∧ (v.ownBody f m = some b) ∧ (m.nt = 1) ∧ (u.nextParent m.dst = none))
    ∧ (∃ (s : Chip) (u : Chip) (v : Chip) (f : List Byte) (b : List Byte) (n : Nat) (m : MIn) (p : MeshPeer) (p' : Nat) (code : Nat) (x : Chip), (meshParse f = some m) ∧ (u = s.missQ m.dst n) ∧ (u.meshPeer m.dst = some p) ∧ (p.noAcks + 1 < 3) ∧ (v = u.setPeer { p with noAcks := p.noAcks + 1 }) ∧ (v.ownBody f m = some b) ∧ (m.nt = 1) ∧ (u.nextParent m.dst = some p') ∧ (v.meshSend { dst := p', ty := m.ty, ver := none, pri := decide (lhPri f = 1), ack := true, sec := true, jkey := false, nt := 1, hop := m.hop, fdst := 0, orig := m.orig, fseq := 0, route := [], jt := withJt m, body := b } = (code, x)) ∧ (code ≠ Rc.TOO_BIG ∨ m.orig = v.saddr))
    ∧ (∃ (s : Chip) (u : Chip) (v : Chip) (f : List Byte) (b : List Byte) (n : Nat) (m : MIn) (p : MeshPeer), (meshParse f = some m) ∧ (u = s.missQ m.dst n) ∧ (u.meshPeer m.dst = some p) ∧ (p.noAcks + 1 < 3) ∧ (v = u.setPeer { p with noAcks := p.noAcks + 1 }) ∧ (v.ownBody f m = some b) ∧ (m.nt = 2)) :=
  ⟨⟨(let s : Chip := {}; let s := meshBase s; { s with mesh := { s.mesh with peers := [] } }), _, _, frODN, _, 0, mODN, wSome _ pODN, rfl, by decide +kernel, rfl, wOwn _ _ _ _ (by decide +kernel) oODN, by decide +kernel⟩,
    ⟨(meshBase {}), _, _, frOUP, _, 0, _, _, wSome _ (by decide +kernel), rfl, wSome _ (by decide +kernel), by decide +kernel, rfl, wSome _ (by decide +kernel), by decide +kernel⟩,
    ⟨(let s : Chip := {}; let s := meshBase s; { s with mesh := { s.mesh with parents := [7, 8] } }), _, _, frOUP, _, 0, _, _, _, _, _, wSome _ (by decide +kernel), rfl, wSome _ (by decide +kernel), by decide +kernel, rfl, wSome _ (by decide +kernel), by decide +kernel, wSome _ (by decide +kernel), rfl, by decide +kernel⟩,
    ⟨(meshBase {}), _, _, frODN, _, 0, mODN, _, wSome _ pODN, rfl, wSome _ (by decide +kernel), by decide +kernel, rfl, wOwn _ _ _ _ (by decide +kernel) oODN, by decide +kernel⟩⟩

theorem wit_MeshRouting_13 :
    (∃ (s : Chip) (u : Chip) (v : Chip) (f : List Byte) (b : List Byte) (n : Nat) (m : MIn) (p : MeshPeer), (meshParse f = some m) ∧ (u = s.missQ m.dst n) ∧ (u.meshPeer m.dst = some p) ∧ (3 ≤ p.noAcks + 1) ∧ (v = u.dropParent m.dst) ∧ (v.ownBody f m = some b) ∧ (m.nt = 1) ∧ (u.nextParent m.dst = none))
    ∧ (∃ (s : Chip) (u : Chip) (v : Chip) (f : List Byte) (b : List Byte) (n : Nat) (m : MIn) (p : MeshPeer) (p' : Nat) (code : Nat) (x : Chip), (meshParse f = some m) ∧ (u = s.missQ m.dst n) ∧ (u.meshPeer m.dst = some p) ∧ (3 ≤ p.noAcks + 1) ∧ (v = u.dropParent m.dst) ∧ (v.ownBody f m = some b) ∧ (m.nt = 1) ∧ (u.nextParent m.dst = some p') ∧ (v.meshSend { dst := p', ty := m.ty, ver := none, pri := decide (lhPri f = 1), ack := true, sec := true, jkey := false, nt := 1, hop := m.hop, fdst := 0, orig := m.orig, fseq := 0, route := [], jt := withJt m, body := b } = (code, x)) ∧ (code ≠ Rc.TOO_BIG ∨ m.orig = v.saddr))
    ∧ (∃ (s : Chip) (u : Chip) (v : Chip) (f : List Byte) (b : List Byte) (n : Nat) (m : MIn) (p : MeshPeer), (meshParse f = some m) ∧ (u = s.missQ m.dst n) ∧ (u.meshPeer m.dst = some p) ∧ (3 ≤ p.noAcks + 1) ∧ (v = u.dropParent m.dst) ∧ (v.ownBody f m = some b) ∧ (m.nt = 2))
    ∧ (∃ (s : Chip) (a : Nat) (p : Nat) (l : List Nat) (r : List Nat), (¬a ∈ l) ∧ (s.mesh.parents = l ++ a :: p :: r)) :=
  ⟨⟨(let s : Chip := {}; let s := rootBase s; { s with mesh := { s.mesh with peers := [{ addr := 5, eui := 0, vmin := 0, vmax := 0, rank := 0, hops := 0, q := 0, noAcks := 2, beacons := false, beaconAt := 0, flags := 0, planId := 0 }] } }), _, _, [0x6c#8, 0#8, 1#8, 0#8, 0#8, 5#8, 0#8, 7#8, 0#8, 0#8, 5#8, 0#8, 0#8, 0#8, 0x40#8, 2#8, 0#8, 0#8, 7#8, 0#8, 0xb7#8, 0x9a#8, 0x11#8, 0xbf#8, 0xb#8, 0x6b#8, 0x2b#8], _, 0, _, _, wSome _ (by decide +kernel), rfl, wSome _ (by decide +kernel), by decide +kernel, rfl, wSome _ (by decide +kernel), by decide +kernel⟩,
    ⟨(let s : Chip := {}; let s := meshBase s; let s := { s with mesh := { s.mesh with peers := [] } }; let s := { s with mesh := { s.mesh with peers := { addr := 7, eui := 7, vmin := 1, vmax := 3, rank := 512, hops := 1, q := 200, noAcks := 2, beacons := true, beaconAt := 0 } :: s.mesh.peers } }; { s with mesh := { s.mesh with parents := [7, 8] } }), _, _, frOUP, _, 0, _, _, _, _, _, wSome _ (by decide +kernel), rfl, wSome _ (by decide +kernel), by decide +kernel, rfl, wSome _ (by decide +kernel), by decide +kernel, wSome _ (by decide +kernel), rfl, by decide +kernel⟩,
    ⟨(let s : Chip := {}; let s := meshBase s; let s := { s with mesh := { s.mesh with peers := [] } }; { s with mesh := { s.mesh with peers := { addr := 7, eui := 7, vmin := 1, vmax := 3, rank := 512, hops := 1, q := 200, noAcks := 2, beacons := true, beaconAt := 0 } :: s.mesh.peers } }), _, _, frODN, _, 0, mODN, _, wSome _ pODN, rfl, wSome _ (by decide +kernel), by decide +kernel, rfl, wOwn _ _ _ _ (by decide +kernel) oODN, by decide +kernel⟩,
    ⟨(let s : Chip := {}; { s with mesh := { s.mesh with parents := [7, 8] } }), 7, 8, [], [], by decide +kernel⟩⟩

theorem wit_MeshRouting_14 :
    (∃ (s : Chip) (a : Nat) (l : List Nat), (¬a ∈ l) ∧ (s.mesh.parents = l ++ [a]))
    ∧ (∃ (s : Chip) (a : Nat) (l : List Nat) (r : List Nat), (¬a ∈ l) ∧ (¬a ∈ s.mesh.parents) ∧ (s.mesh.before = l ++ a :: r))
    ∧ (∃ (s : Chip) (a : Nat) (l : List Nat), (¬a ∈ l) ∧ (¬a ∈ s.mesh.parents) ∧ (¬a ∈ s.mesh.before))
    ∧ (∃ (f : List Byte), (meshParse f = none)) :=
  ⟨⟨(let s : Chip := {}; routerBase s), 7, [], by decide +kernel⟩,
    ⟨(let s : Chip := {}; { s with mesh := { s.mesh with before := [8] } }), 8, [], [], by decide +kernel⟩,
    ⟨{}, 0, [], by decide +kernel⟩,
    ⟨[], by decide +kernel⟩⟩

theorem wit_MeshRouting_15 :
    (∃ (s : Chip), (s.mesh.member = false))
    ∧ (∃ (s : Chip), (s.mesh.member = true)) :=
  ⟨⟨{}, by decide +kernel⟩,
    ⟨(let s : Chip := {}; routerBase s), by decide +kernel⟩⟩

theorem wit_MeshJoining_1 :
    (∃ (f : List Byte), (meshParse f = none))
    ∧ (∃ (s : Chip) (f : List Byte) (lqi : Nat) (m : MIn) (i : BeaconInfo) (lo' : Nat) (hi' : Nat) (p : MeshPeer), (meshParse f = some m) ∧ (m.ty = 2) ∧ (readBeacon m.ver m.body = some i) ∧ ((lo', hi') = if m.ver = 1 then (1, 1) else (i.vmin, i.vmax)) ∧ (p = { addr := m.src, eui := i.eui, vmin := lo', vmax := hi', rank := i.rank, hops := i.hops, q := lqi, noAcks := 0, beacons := decide (i.rank ≠ 65535), beaconAt := s.now, flags := i.flags, planId := i.planId }) ∧ (i.sfSize < 3 ∨ 4096 < i.sfSize))
    ∧ (∃ (s : Chip) (f : List Byte) (lqi : Nat) (m : MIn) (i : BeaconInfo) (lo' : Nat) (hi' : Nat) (p : MeshPeer) (code : Nat), (meshParse f = some m) ∧ (m.ty = 2) ∧ (readBeacon m.ver m.body = some i) ∧ ((lo', hi') = if m.ver = 1 then (1, 1) else (i.vmin, i.vmax)) ∧ (p = { addr := m.src, eui := i.eui, vmin := lo', vmax := hi', rank := i.rank, hops := i.hops, q := lqi, noAcks := 0, beacons := decide (i.rank ≠ 65535), beaconAt := s.now, flags := i.flags, planId := i.planId }) ∧ ((3 ≤ i.sfSize) ∧ (i.sfSize ≤ 4096) ∧ (s.mesh.member = true)) ∧ (s.meshAccept f m [i.eui] = Except.error code))
    ∧ (∃ (s : Chip) (f : List Byte) (lqi : Nat) (m : MIn) (i : BeaconInfo) (lo' : Nat) (hi' : Nat) (p : MeshPeer) (e : Nat) (v : Nat) (b : List Byte) (u : Chip) (w : Chip), (meshParse f = some m) ∧ (m.ty = 2) ∧ (readBeacon m.ver m.body = some i) ∧ ((lo', hi') = if m.ver = 1 then (1, 1) else (i.vmin, i.vmax)) ∧ (p = { addr := m.src, eui := i.eui, vmin := lo', vmax := hi', rank := i.rank, hops := i.hops, q := lqi, noAcks := 0, beacons := decide (i.rank ≠ 65535), beaconAt := s.now, flags := i.flags, planId := i.planId }) ∧ ((3 ≤ i.sfSize) ∧ (i.sfSize ≤ 4096) ∧ (s.mesh.member = true)) ∧ (s.meshAccept f m [i.eui] = Except.ok (e, b, u)) ∧ (u.takeOffer m.src lo' hi' = (some v, w)) ∧ (w.now = s.now) ∧ (w.meshPeer m.src = none)) :=
  ⟨⟨[], by decide +kernel⟩,
    ⟨{}, frBC02, 0, _, _, _, _, _, wSome _ (by decide +kernel), by decide +kernel, wSome _ (by decide +kernel), (wMk _).symm, rfl, by decide +kernel⟩,
    ⟨(let s : Chip := {}; { s with mesh := { s.mesh with member := true } }), frBC03, 0, _, _, _, _, _, Rc.KEY_EPOCH, wSome _ (by decide +kernel), by decide +kernel, wSome _ (by decide +kernel), (wMk _).symm, rfl, by decide +kernel, wErr _ _ (by decide +kernel)⟩,
    ⟨(let s : Chip := {}; let s := meshBase s; { s with mesh := { s.mesh with peers := [] } }), frBC03, 0, _, _, _, _, _, _, _, _, _, _, wSome _ (by decide +kernel), by decide +kernel, wSome _ (by decide +kernel), (wMk _).symm, rfl, by decide +kernel, wExc _ (by decide +kernel), wPairSome _ (by decide +kernel), by decide +kernel⟩⟩

theorem wit_MeshJoining_2 :
    (∃ (s : Chip) (f : List Byte) (lqi : Nat) (m : MIn) (i : BeaconInfo) (lo' : Nat) (hi' : Nat) (p : MeshPeer), (meshParse f = some m) ∧ (m.ty = 2) ∧ (readBeacon m.ver m.body = some i) ∧ ((lo', hi') = if m.ver = 1 then (1, 1) else (i.vmin, i.vmax)) ∧ (p = { addr := m.src, eui := i.eui, vmin := lo', vmax := hi', rank := i.rank, hops := i.hops, q := lqi, noAcks := 0, beacons := decide (i.rank ≠ 65535), beaconAt := s.now, flags := i.flags, planId := i.planId }) ∧ (3 ≤ i.sfSize) ∧ (i.sfSize ≤ 4096) ∧ (s.mesh.member = false) ∧ (m.ver < s.meshOffer.fst ∨ s.meshOffer.snd < m.ver))
    ∧ (∃ (s : Chip) (f : List Byte) (lqi : Nat) (m : MIn) (i : BeaconInfo) (lo' : Nat) (hi' : Nat) (p : MeshPeer), (meshParse f = some m) ∧ (m.ty = 2) ∧ (readBeacon m.ver m.body = some i) ∧ ((lo', hi') = if m.ver = 1 then (1, 1) else (i.vmin, i.vmax)) ∧ (p = { addr := m.src, eui := i.eui, vmin := lo', vmax := hi', rank := i.rank, hops := i.hops, q := lqi, noAcks := 0, beacons := decide (i.rank ≠ 65535), beaconAt := s.now, flags := i.flags, planId := i.planId }) ∧ (3 ≤ i.sfSize) ∧ (i.sfSize ≤ 4096) ∧ (s.mesh.member = false) ∧ (s.meshOffer.fst ≤ m.ver) ∧ (m.ver ≤ s.meshOffer.snd) ∧ (bitOf i.flags 1 = false ∨ bitOf i.flags 2 = false))
    ∧ (∃ (s : Chip) (f : List Byte) (lqi : Nat) (m : MIn) (i : BeaconInfo) (lo' : Nat) (hi' : Nat) (p : MeshPeer) (v : Nat) (w : Chip), (meshParse f = some m) ∧ (m.ty = 2) ∧ (readBeacon m.ver m.body = some i) ∧ ((lo', hi') = if m.ver = 1 then (1, 1) else (i.vmin, i.vmax)) ∧ (p = { addr := m.src, eui := i.eui, vmin := lo', vmax := hi', rank := i.rank, hops := i.hops, q := lqi, noAcks := 0, beacons := decide (i.rank ≠ 65535), beaconAt := s.now, flags := i.flags, planId := i.planId }) ∧ ((3 ≤ i.sfSize) ∧ (i.sfSize ≤ 4096) ∧ (s.mesh.member = false) ∧ (s.meshOffer.fst ≤ m.ver) ∧ (m.ver ≤ s.meshOffer.snd) ∧ (bitOf i.flags 1 = true) ∧ (bitOf i.flags 2 = true)) ∧ (s.takeOffer m.src lo' hi' = (some v, w)) ∧ (w.now = s.now) ∧ (w.meshPeer m.src = none) ∧ (w.mesh.sfSize = 0))
    ∧ (∃ (s : Chip) (l : List Nat), (l = List.map MeshPeer.addr (sortBy MeshPeer.sum (List.filter (s.eligible 65535) s.mesh.peers))) ∧ (s.mesh.role = 2 ∨ s.mesh.member = true ∧ s.mesh.parents ≠ [])) :=
  ⟨⟨(let s : Chip := {}; { s with cfg := { s.cfg with versions := [] } }), frBC03, 0, _, _, _, _, _, wSome _ (by decide +kernel), by decide +kernel, wSome _ (by decide +kernel), (wMk _).symm, rfl, by decide +kernel⟩,
    ⟨{}, frBC03, 0, _, _, _, _, _, wSome _ (by decide +kernel), by decide +kernel, wSome _ (by decide +kernel), (wMk _).symm, rfl, by decide +kernel⟩,
    ⟨{}, frBC63, 0, _, _, _, _, _, _, _, wSome _ (by decide +kernel), by decide +kernel, wSome _ (by decide +kernel), (wMk _).symm, rfl, by decide +kernel, wPairSome _ (by decide +kernel), by decide +kernel⟩,
    ⟨(let s : Chip := {}; rootBase s), _, rfl, by decide +kernel⟩⟩

theorem wit_MeshJoining_3 :
    (∃ (s : Chip) (l : List Nat), (l = List.map MeshPeer.addr (sortBy MeshPeer.sum (List.filter (s.eligible 65535) s.mesh.peers))) ∧ (s.mesh.role ≠ 2) ∧ (s.mesh.member = true) ∧ (s.mesh.parents = []))
    ∧ (∃ (s : Chip) (l : List Nat), (l = List.map MeshPeer.addr (sortBy MeshPeer.sum (List.filter (s.eligible 65535) s.mesh.peers))) ∧ (s.mesh.member = false) ∧ (s.mesh.role ≠ 2))
    ∧ (∃ (s : Chip), (s.mesh.join = none))
    ∧ (∃ (s : Chip) (j : MeshJoin), (s.mesh.join = some j) ∧ (j.tries < 5)) :=
  ⟨⟨(let s : Chip := {}; { s with mesh := { s.mesh with member := true } }), _, rfl, by decide +kernel⟩,
    ⟨{}, _, rfl, by decide +kernel⟩,
    ⟨{}, by decide +kernel⟩,
    ⟨(let s : Chip := {}; { s with mesh := { s.mesh with join := some { cands := [], tries := 0, nonce := 0 } } }), _, wSome _ (by decide +kernel), by decide +kernel⟩⟩

theorem wit_MeshJoining_4 :
    (∃ (s : Chip) (j : MeshJoin), (s.mesh.join = some j) ∧ (5 ≤ j.tries))
    ∧ (∃ (j : MeshJoin), (j.cands = []))
    ∧ (∃ (f : List Byte), (meshParse f = none))
    ∧ (∃ (s : Chip) (f : List Byte) (m : MIn), (meshParse f = some m) ∧ (m.ty = 3) ∧ (m.jt = 1) ∧ (m.jkey = true) ∧ (s.mesh.role = 0 ∨ s.mesh.role = 1 ∧ s.mesh.joined = false)) :=
  ⟨⟨(let s : Chip := {}; { s with mesh := { s.mesh with join := some { cands := [], tries := 5, nonce := 0 } } }), _, wSome _ (by decide +kernel), by decide +kernel⟩,
    ⟨{ cands := [], tries := 0, nonce := 0 }, by decide +kernel⟩,
    ⟨[], by decide +kernel⟩,
    ⟨{}, frREQ, _, wSome _ (by decide +kernel), by decide +kernel⟩⟩

theorem wit_MeshJoining_5 :
    (∃ (s : Chip) (f : List Byte) (m : MIn), (meshParse f = some m) ∧ (m.ty = 3) ∧ (m.jt = 1) ∧ (m.jkey = true) ∧ (s.mesh.role = 1) ∧ (s.mesh.joined = true) ∧ (256 ≤ s.mesh.children.length))
    ∧ (∃ (s : Chip) (f : List Byte) (m : MIn), (meshParse f = some m) ∧ (m.ty = 3) ∧ (m.jt = 1) ∧ (m.jkey = true) ∧ (s.mesh.role = 1) ∧ (s.mesh.joined = true) ∧ (s.mesh.children.length < 256) ∧ (m.ver < s.meshOffer.fst ∨ s.meshOffer.snd < m.ver))
    ∧ (∃ (s : Chip) (f : List Byte) (m : MIn) (l : List (Nat × Nat)), (meshParse f = some m) ∧ ((m.ty = 3) ∧ (m.jt = 1) ∧ (m.jkey = true) ∧ (s.mesh.role = 1) ∧ (s.mesh.joined = true) ∧ (s.mesh.children.length < 256) ∧ (s.meshOffer.fst ≤ m.ver) ∧ (m.ver ≤ s.meshOffer.snd)) ∧ (l = (m.eui, m.ver) :: List.filter (fun (e : Nat × Nat) => decide (e.fst ≠ m.eui)) s.mesh.joiners))
    ∧ (∃ (s : Chip) (f : List Byte) (m : MIn), (meshParse f = some m) ∧ (m.ty = 3) ∧ (m.jt = 1) ∧ (m.jkey = true) ∧ (s.mesh.role = 2) ∧ (s.meshOffer.fst ≤ m.ver) ∧ (m.ver ≤ s.meshOffer.snd)) :=
  ⟨⟨(let s : Chip := {}; { s with mesh := { s.mesh with role := 1, joined := true, children := List.replicate 256 { addr := 0, eui := 0, vmin := 1, vmax := 1 } } }), frREQ, _, wSome _ (by decide +kernel), by decide +kernel⟩,
    ⟨(let s : Chip := {}; let s := routerBase s; { s with cfg := { s.cfg with versions := [] } }), frREQ, _, wSome _ (by decide +kernel), by decide +kernel⟩,
    ⟨(let s : Chip := {}; routerBase s), frREQ, _, _, wSome _ (by decide +kernel), by decide +kernel, rfl⟩,
    ⟨(let s : Chip := {}; { s with mesh := { s.mesh with role := 2 } }), frREQ, _, wSome _ (by decide +kernel), by decide +kernel⟩⟩

theorem wit_MeshJoining_6 :
    (∃ (s : Chip) (b : List Byte), (s.mesh.role ≠ 2 ∨ b.length < 3 ∨ b.length ≠ 3 + oct2 b 1))
    ∧ (∃ (s : Chip) (b : List Byte), (s.mesh.role = 2) ∧ (3 ≤ b.length) ∧ (b.length = 3 + oct2 b 1))
    ∧ (∃ (s : Chip) (role : Nat), (s.mesh.joinOpen = false ∨ bitOf s.mesh.refuse role = true))
    ∧ (∃ (s : Chip) (eui : Nat) (role : Nat) (req : Nat), (s.mesh.joinOpen = true) ∧ (bitOf s.mesh.refuse role = false) ∧ (req ≠ 65535) ∧ (1 ≤ req) ∧ (req ≤ if s.asTk2416 = true then 4095 else 16383) ∧ (∀ (e : Nat × Nat), e ∈ s.addrList → e.fst = req → e.snd = eui)) :=
  ⟨⟨{}, [], by decide +kernel⟩,
    ⟨(let s : Chip := {}; { s with mesh := { s.mesh with role := 2 } }), [0, 0, 0], by decide +kernel⟩,
    ⟨{}, 0, by decide +kernel⟩,
    ⟨(let s : Chip := {}; { s with mesh := { s.mesh with joinOpen := true } }), 0, 0, 1, by decide +kernel⟩⟩

theorem wit_MeshJoining_7 :
    (∃ (s : Chip) (role : Nat) (req : Nat), (s.mesh.joinOpen = true) ∧ (bitOf s.mesh.refuse role = false) ∧ (req ≠ 65535) ∧ (req = 0 ∨ (if s.asTk2416 = true then 4095 else 16383) < req))
    ∧ (∃ (s : Chip) (b : List Byte), (s.mesh.role ≠ 1 ∨ b.length < 16))
    ∧ (∃ (s : Chip) (b : List Byte) (c : MeshChild) (ver : Nat), ((s.mesh.role = 1) ∧ (16 ≤ b.length) ∧ (s.mesh.children.length < 256) ∧ ((s.mesh.children.any fun (c : MeshChild) => decide (c.eui = beNat (List.take 8 b))) = false) ∧ (s.mesh.joiners.head? = some (beNat (List.take 8 b), ver))) ∧ (c = { addr := 65534, eui := beNat (List.take 8 b), vmin := ver, vmax := ver, heard := s.now }))
    ∧ (∃ (s : Chip) (f : MeshRx), (meshParse f.octets = none ∨ s.mesh.join = none)) :=
  ⟨⟨(let s : Chip := {}; { s with mesh := { s.mesh with joinOpen := true } }), 0, 0, by decide +kernel⟩,
    ⟨{}, [], by decide +kernel⟩,
    ⟨(let s : Chip := {}; { s with mesh := { s.mesh with role := 1, joiners := [(0, 3)] } }), List.replicate 16 0, _, 3, by decide +kernel, rfl⟩,
    ⟨{}, { octets := [], lqi := 0 }, by decide +kernel⟩⟩

theorem wit_MeshJoining_8 :
    (∃ (s : Chip) (f : MeshRx) (x : Chip) (m : MIn) (j : MeshJoin) (key : List Nat) (b : List Byte) (o : Option (List Byte)), (meshParse f.octets = some m) ∧ (s.mesh.join = some j) ∧ (s.meshKey 2 true = Except.ok key) ∧ (x = if s.verFor m.src = 1 then s.sampleQ m.src f.lqi else s) ∧ (b = m.body) ∧ ((m.ty = 3) ∧ (m.jt = 4) ∧ (b.length = 64) ∧ (beNat (List.take 8 b) = x.ownEui) ∧ (x.mesh.member = false) ∧ (x.meshOffer.fst ≤ m.ver) ∧ (m.ver ≤ x.meshOffer.snd)) ∧ (o = meshOpen key false 1 (beNat (List.take 8 (List.drop 8 b))) (leNat (List.take 4 (List.drop 16 b))) (List.take 20 b) (List.take 36 (List.drop 20 b)) (List.drop 56 b)) ∧ (o = none))
    ∧ (∃ (s : Chip) (f : MeshRx) (x : Chip) (m : MIn) (j : MeshJoin) (key : List Nat) (b : List Byte) (o : Option (List Byte)) (p : List Byte), (meshParse f.octets = some m) ∧ (s.mesh.join = some j) ∧ (s.meshKey 2 true = Except.ok key) ∧ (x = if s.verFor m.src = 1 then s.sampleQ m.src f.lqi else s) ∧ (b = m.body) ∧ ((m.ty = 3) ∧ (m.jt = 4) ∧ (b.length = 64) ∧ (beNat (List.take 8 b) = x.ownEui) ∧ (x.mesh.member = false) ∧ (x.meshOffer.fst ≤ m.ver) ∧ (m.ver ≤ x.meshOffer.snd)) ∧ (o = meshOpen key false 1 (beNat (List.take 8 (List.drop 8 b))) (leNat (List.take 4 (List.drop 16 b))) (List.take 20 b) (List.take 36 (List.drop 20 b)) (List.drop 56 b)) ∧ (o = some p) ∧ (leNat (List.drop 32 p) ≠ j.nonce))
    ∧ (∃ (s : Chip) (f : MeshRx) (x : Chip) (m : MIn) (j : MeshJoin) (key : List Nat) (b : List Byte) (o : Option (List Byte)) (p : List Byte), (meshParse f.octets = some m) ∧ (s.mesh.join = some j) ∧ (s.meshKey 2 true = Except.ok key) ∧ (x = if s.verFor m.src = 1 then s.sampleQ m.src f.lqi else s) ∧ (b = m.body) ∧ ((m.ty = 3) ∧ (m.jt = 4) ∧ (b.length = 64) ∧ (beNat (List.take 8 b) = x.ownEui) ∧ (x.mesh.member = false) ∧ (x.meshOffer.fst ≤ m.ver) ∧ (m.ver ≤ x.meshOffer.snd)) ∧ (o = meshOpen key false 1 (beNat (List.take 8 (List.drop 8 b))) (leNat (List.take 4 (List.drop 16 b))) (List.take 20 b) (List.take 36 (List.drop 20 b)) (List.drop 56 b)) ∧ (o = some p) ∧ (leNat (List.drop 32 p) = j.nonce) ∧ (octAt p 0 ≠ Rc.OK) ∧ (x.mesh.join = some j))
    ∧ (∃ (s : Chip) (f : MeshRx) (x : Chip) (m : MIn) (j : MeshJoin) (key : List Nat) (b : List Byte) (o : Option (List Byte)) (p : List Byte) (u : Chip), (meshParse f.octets = some m) ∧ (s.mesh.join = some j) ∧ (s.meshKey 2 true = Except.ok key) ∧ (x = if s.verFor m.src = 1 then s.sampleQ m.src f.lqi else s) ∧ (b = m.body) ∧ ((m.ty = 3) ∧ (m.jt = 4) ∧ (b.length = 64) ∧ (beNat (List.take 8 b) = x.ownEui) ∧ (x.mesh.member = false) ∧ (x.meshOffer.fst ≤ m.ver) ∧ (m.ver ≤ x.meshOffer.snd)) ∧ (o = meshOpen key false 1 (beNat (List.take 8 (List.drop 8 b))) (leNat (List.take 4 (List.drop 16 b))) (List.take 20 b) (List.take 36 (List.drop 20 b)) (List.drop 56 b)) ∧ (o = some p) ∧ ((leNat (List.drop 32 p) = j.nonce) ∧ (octAt p 0 = Rc.OK)) ∧ (x.unwrapInto (x.meshSlot 2) (x.meshSlot (octAt p 3 % 2)) (List.take 24 (List.drop 4 p)) (MeshKeyJob.join (j.cands.headD 0) (oct2 p 1) (octAt p 3 % 2) (oct2 p 28) (oct2 p 30)) = (true, u))) :=
  ⟨⟨(let s : Chip := {}; let s := routerBase s; let s := { s with mesh := { s.mesh with member := false } }; { s with mesh := { s.mesh with join := some { cands := [], tries := 0, nonce := 0 } } }), { octets := [0xc3#8, 0#8, 1#8, 0#8, 0#8, 0xff#8, 0xff#8, 7#8, 0#8, 0#8, 4#8, 0#8, 0#8, 0#8, 0#8, 0#8, 0#8, 0#8, 0#8, 0#8, 0#8, 0#8, 0#8, 0#8, 0#8, 0#8, 0#8, 0#8, 0#8, 0#8, 0#8, 0#8, 0#8, 0#8, 0#8, 0#8, 0#8, 0#8, 0#8, 0#8, 0#8, 0#8, 0#8, 0#8, 0#8, 0#8, 0#8, 0#8, 0#8, 0#8, 0#8, 0#8, 0#8, 0#8, 0#8, 0#8, 0#8, 0#8, 0#8, 0#8, 0#8, 0#8, 0#8, 0#8, 0#8, 0#8, 0#8, 0#8, 0#8, 0#8, 0#8, 0#8, 0#8, 0#8, 0#8], lqi := 0 }, _, _, _, _, _, _, wSome _ (by decide +kernel), wSome _ (by decide +kernel), wExc _ (by decide +kernel), rfl, rfl, by decide +kernel, rfl, by decide +kernel⟩,
    ⟨(let s : Chip := {}; let s := { s with mesh := { s.mesh with join := some { cands := [], tries := 0, nonce := 1 } } }; let s := rootBase s; { s with mesh := { s.mesh with member := false } }), { octets := [0xc3#8, 0#8, 1#8, 0#8, 0#8, 0xff#8, 0xff#8, 7#8, 0#8, 0#8, 4#8, 0#8, 0#8, 0#8, 0#8, 0#8, 0#8, 0#8, 0#8, 0#8, 0#8, 0#8, 0#8, 0#8, 0#8, 0#8, 0#8, 5#8, 0#8, 0#8, 0#8, 0xf0#8, 0xf1#8, 0x32#8, 0x81#8, 0xe4#8, 0xec#8, 0x39#8, 0xcb#8, 0xf6#8, 0x9f#8, 0xe0#8, 0xed#8, 0x80#8, 4#8, 0xea#8, 0xd#8, 0xd9#8, 0xda#8, 0xa3#8, 0x4b#8, 0x63#8, 0x5e#8, 0x24#8, 0xfc#8, 0x4d#8, 0x4c#8, 0x18#8, 0xd5#8, 0x72#8, 0x6e#8, 0x9e#8, 0xe4#8, 0x7f#8, 0xe8#8, 0x4f#8, 0xca#8, 0xb7#8, 0xef#8, 0x66#8, 0x40#8, 0x3d#8, 0x25#8, 0xf1#8, 0x46#8], lqi := 0 }, _, _, _, _, _, _, _, wSome _ (by decide +kernel), wSome _ (by decide +kernel), wExc _ (by decide +kernel), rfl, rfl, by decide +kernel, rfl, wSome _ (by decide +kernel), by decide +kernel⟩,
    ⟨(let s : Chip := {}; let s := meshBase s; let s := { s with mesh := { s.mesh with join := some { cands := [0], tries := 0, nonce := 1 } } }; { s with mesh := { s.mesh with member := false } }), { octets := [0xc3#8, 0#8, 1#8, 0#8, 0#8, 0xff#8, 0xff#8, 7#8, 0#8, 0#8, 4#8, 0#8, 0#8, 0#8, 0#8, 0#8, 0#8, 0#8, 0#8, 0#8, 0#8, 0#8, 0#8, 0#8, 0#8, 0#8, 0#8, 5#8, 0#8, 0#8, 0#8, 0xf0#8, 0xf1#8, 0x32#8, 0x81#8, 0xe4#8, 0xec#8, 0x39#8, 0xcb#8, 0xf6#8, 0x9f#8, 0xe0#8, 0xed#8, 0x80#8, 4#8, 0xea#8, 0xd#8, 0xd9#8, 0xda#8, 0xa3#8, 0x4b#8, 0x63#8, 0x5e#8, 0x24#8, 0xfc#8, 0x4d#8, 0x4c#8, 0x18#8, 0xd5#8, 0x72#8, 0x6e#8, 0x9e#8, 0xe4#8, 0x7e#8, 0xe8#8, 0x4f#8, 0xca#8, 0x88#8, 0x3c#8, 0x4a#8, 0x76#8, 0x89#8, 0x7b#8, 0x96#8, 0xa8#8], lqi := 0 }, _, _, _, _, _, _, _, wSome _ (by decide +kernel), wSome _ (by decide +kernel), wExc _ (by decide +kernel), rfl, rfl, by decide +kernel, rfl, wSome _ (by decide +kernel), by decide +kernel⟩,
    ⟨(let s : Chip := {}; let s := { s with mesh := { s.mesh with join := some { cands := [0, 0, 0], tries := 0, nonce := 0 } } }; let s := rootBase s; { s with mesh := { s.mesh with member := false } }), { octets := [0xc3#8, 0#8, 1#8, 0#8, 0#8, 0xff#8, 0xff#8, 7#8, 0#8, 0#8, 4#8, 0#8, 0#8, 0#8, 0#8, 0#8, 0#8, 0#8, 0#8, 0#8, 0#8, 0#8, 0#8, 0#8, 0#8, 0#8, 0#8, 5#8, 0#8, 0#8, 0#8, 0xd0#8, 0xf1#8, 0x32#8, 0x81#8, 0xe4#8, 0xec#8, 0x39#8, 0xcb#8, 0xf6#8, 0x9f#8, 0xe0#8, 0xed#8, 0x80#8, 4#8, 0xea#8, 0xd#8, 0xd9#8, 0xda#8, 0xa3#8, 0x4b#8, 0x63#8, 0x5e#8, 0x24#8, 0xfc#8, 0x4d#8, 0x4c#8, 0x18#8, 0xd5#8, 0x72#8, 0x6e#8, 0x9e#8, 0xe4#8, 0x7f#8, 0xe8#8, 0x4f#8, 0xca#8, 0x9b#8, 0x37#8, 0x69#8, 0xc8#8, 0xfd#8, 0x45#8, 0x62#8, 0xe4#8], lqi := 0 }, _, _, _, _, _, _, _, _, wSome _ (by decide +kernel), wSome _ (by decide +kernel), wExc _ (by decide +kernel), rfl, rfl, by decide +kernel, rfl, wSome _ (by decide +kernel), by decide +kernel, wPair _ _ (by decide +kernel)⟩⟩

theorem wit_MeshJoining_9 :
    (∃ (s : Chip) (key : Nat) (tslot : Nat) (kw : List Byte) (k : List Nat) (k' : List Nat), ((s.meshSlots 7 true key tslot = Rc.OK) ∧ (s.keyOf key = some k)) ∧ (Aes.unwrap k (toNats kw) = some k'))
    ∧ (∃ (f : List Byte), (meshParse f = none))
    ∧ (∃ (s : Chip) (f : List Byte) (m : MIn) (e : Nat) (b : List Byte) (u : Chip), (meshParse f = some m) ∧ (m.ty = 6) ∧ (s.meshAccept f m ((s.euiOf m.src).toList ++ (List.map MeshPeer.eui s.mesh.peers ++ List.map MeshChild.eui s.mesh.children ++ List.map Prod.snd s.addrList) ++ [Config.meshEui m.src % 2 ^ 64]) = Except.ok (e, b, u)) ∧ (b.length ≠ 13))
    ∧ (∃ (s : Chip) (f : List Byte) (m : MIn) (e : Nat) (b : List Byte) (u : Chip) (w : Chip), (meshParse f = some m) ∧ (m.ty = 6) ∧ (s.meshAccept f m ((s.euiOf m.src).toList ++ (List.map MeshPeer.eui s.mesh.peers ++ List.map MeshChild.eui s.mesh.children ++ List.map Prod.snd s.addrList) ++ [Config.meshEui m.src % 2 ^ 64]) = Except.ok (e, b, u)) ∧ (b.length = 13) ∧ (u.takeOffer m.src (octAt b 0) (octAt b 1) = (none, w))) :=
  ⟨⟨(meshBase {}), 1, 6, zeroWrapped, zeroKey, zeroKey, by decide +kernel, wUnwrapOf _ _ rfl rfl⟩,
    ⟨[], by decide +kernel⟩,
    ⟨(meshBase {}), frHES, _, _, _, _, wSome _ (by decide +kernel), by decide +kernel, wExc _ (by decide +kernel), by decide +kernel⟩,
    ⟨(meshBase {}), frHE9, _, _, _, _, _, wSome _ (by decide +kernel), by decide +kernel, wExc _ (by decide +kernel), by decide +kernel, wNone _ (by decide +kernel)⟩⟩

theorem wit_MeshJoining_10 :
    (∃ (s : Chip) (f : List Byte) (lqi : Nat) (m : MIn) (e : Nat) (v : Nat) (b : List Byte) (u : Chip) (w : Chip) (x : Chip) (l : List MeshChild) (c : MeshChild), (meshParse f = some m) ∧ (m.ty = 6) ∧ (s.meshAccept f m ((s.euiOf m.src).toList ++ (List.map MeshPeer.eui s.mesh.peers ++ List.map MeshChild.eui s.mesh.children ++ List.map Prod.snd s.addrList) ++ [Config.meshEui m.src % 2 ^ 64]) = Except.ok (e, b, u)) ∧ (b.length = 13) ∧ (u.takeOffer m.src (octAt b 0) (octAt b 1) = (some v, w)) ∧ (w.meshPeer m.src = none) ∧ (x = w.heard m lqi) ∧ (x.mesh.role = 2) ∧ (l = List.filter (fun (y : MeshChild) => decide (y.eui ≠ e) && decide (y.addr ≠ m.src)) x.mesh.children) ∧ (c = { addr := m.src, eui := e, vmin := octAt b 0, vmax := octAt b 1, heard := x.now }))
    ∧ (∃ (s : Chip) (u : Chip) (a : Nat), (u = s.setMesh ({ s.mesh with children := List.filter (fun (c : MeshChild) => !(decide (c.addr = a) && decide (c.heard + 32000000 * (180 * s.mesh.advint) < s.now))) s.mesh.children })) ∧ (s.mesh.parents.contains a = true))
    ∧ (∃ (s : Chip) (u : Chip) (a : Nat) (c : MeshChild), (u = s.setMesh ({ s.mesh with children := List.filter (fun (c : MeshChild) => !(decide (c.addr = a) && decide (c.heard + 32000000 * (180 * s.mesh.advint) < s.now))) s.mesh.children })) ∧ (c ∈ u.mesh.children) ∧ (c.addr = a))
    ∧ (∃ (s : Chip) (u : Chip) (a : Nat), (u = s.setMesh ({ s.mesh with children := List.filter (fun (c : MeshChild) => !(decide (c.addr = a) && decide (c.heard + 32000000 * (180 * s.mesh.advint) < s.now))) s.mesh.children })) ∧ (s.mesh.parents.contains a = false) ∧ (∀ (c : MeshChild), c ∈ u.mesh.children → c.addr ≠ a)) :=
  ⟨⟨(let s : Chip := {}; let s := rootBase s; { s with mesh := { s.mesh with peers := [] } }), [0x6e#8, 0#8, 1#8, 0#8, 0#8, 5#8, 0#8, 7#8, 0#8, 0#8, 5#8, 0#8, 0#8, 0#8, 0#8, 0xb7#8, 0x98#8, 0x10#8, 0x2e#8, 8#8, 0x86#8, 0xe9#8, 4#8, 0xc3#8, 7#8, 0x7a#8, 0x89#8, 0xdf#8, 0xd9#8, 0xdd#8, 0x19#8, 0xb8#8], 0, _, _, _, _, _, _, _, _, _, wSome _ (by decide +kernel), by decide +kernel, wExc _ (by decide +kernel), by decide +kernel, wPairSome _ (by decide +kernel), by decide +kernel, rfl, by decide +kernel, rfl, rfl⟩,
    ⟨(let s : Chip := {}; { s with mesh := { s.mesh with parents := [3] } }), _, 3, rfl, by decide +kernel⟩,
    ⟨(let s : Chip := {}; { s with mesh := { s.mesh with children := [{ addr := 7, eui := 0, vmin := 1, vmax := 3 }] } }), _, _, { addr := 7, eui := 0, vmin := 1, vmax := 3 }, rfl, by decide +kernel, rfl⟩,
    ⟨{}, _, 0, rfl, by decide +kernel⟩⟩

theorem wit_MeshJoining_11 :
    (∃ (s : Chip) (u : Chip) (a : Nat), (u = s.setMesh ({ s.mesh with children := List.filter (fun (c : MeshChild) => !(decide (c.addr = a) && decide (c.heard + 32000000 * (180 * s.mesh.advint) < s.now))) s.mesh.children })) ∧ (s.meshPeer a = none))
    ∧ (∃ (s : Chip) (u : Chip) (a : Nat) (p : MeshPeer), (u = s.setMesh ({ s.mesh with children := List.filter (fun (c : MeshChild) => !(decide (c.addr = a) && decide (c.heard + 32000000 * (180 * s.mesh.advint) < s.now))) s.mesh.children })) ∧ (s.meshPeer a = some p)) :=
  ⟨⟨{}, _, 0, rfl, by decide +kernel⟩,
    ⟨(let s : Chip := {}; routerBase s), _, 7, _, rfl, wSome _ (by decide +kernel)⟩⟩

theorem wit_MeshCommands :
    (∃ (s : Chip) (w : CmdFrom) (code : Nat), (code = if s.mesh.joined = false then Rc.NOT_JOINED else if w.orig ≠ 0 then Rc.SECURITY else Rc.OK) ∧ (code ≠ Rc.OK))
    ∧ (∃ (s : Chip) (w : CmdFrom) (code : Nat) (d : List Byte), (code = if s.mesh.joined = false then Rc.NOT_JOINED else if w.orig ≠ 0 then Rc.SECURITY else Rc.OK) ∧ (code = Rc.OK) ∧ (d = beOctets 8 s.ownEui ++ leOctets 1 s.mesh.role ++ leOctets 1 s.meshOffer.fst ++ leOctets 1 s.meshOffer.snd ++ leOctets 2 s.ownRank ++ leOctets 1 s.ownHops ++ leOctets 1 s.mesh.parents.length ++ List.flatMap (leOctets 2) s.mesh.parents ++ leOctets 2 (s.fld F.MON_PLAN1_LIFE) ++ leOctets 4 (s.mesh.fcnt.getD s.mesh.epoch 0)))
    ∧ (∃ (s : Chip) (w : CmdFrom) (code : Nat), (code = if s.mesh.joined = false then Rc.NOT_JOINED else if w.orig ≠ 0 then Rc.SECURITY else Rc.OK) ∧ (code = Rc.OK) ∧ (s.mesh.switch.isSome = true))
    ∧ (∃ (s : Chip) (w : CmdFrom) (token : Nat) (e : Nat) (kw : List Byte) (code : Nat) (done : Bool) (u : Chip), (code = if s.mesh.joined = false then Rc.NOT_JOINED else if w.orig ≠ 0 then Rc.SECURITY else Rc.OK) ∧ ((code = Rc.OK) ∧ (s.mesh.switch = none)) ∧ (e = 1 - s.mesh.epoch) ∧ (kw.length = 24) ∧ (s.unwrapInto (s.meshSlot s.mesh.epoch) (s.meshSlot e) kw (MeshKeyJob.keyNext w token e) = (done, u)))
    ∧ (∃ (s : Chip) (w : CmdFrom) (e : Nat) (kw : List Byte) (code : Nat), (code = if s.mesh.joined = false then Rc.NOT_JOINED else if w.orig ≠ 0 then Rc.SECURITY else Rc.OK) ∧ (code = Rc.OK) ∧ (s.mesh.switch = none) ∧ (e ≠ 1 - s.mesh.epoch ∨ kw.length ≠ 24))
    ∧ (∃ (s : Chip) (w : CmdFrom) (asn : Nat) (code : Nat), (code = if s.mesh.joined = false then Rc.NOT_JOINED else if w.orig ≠ 0 then Rc.SECURITY else Rc.OK) ∧ (code = Rc.OK) ∧ (asn ≤ s.asnNow 0))
    ∧ (∃ (s : Chip) (w : CmdFrom) (asn : Nat) (code : Nat), (code = if s.mesh.joined = false then Rc.NOT_JOINED else if w.orig ≠ 0 then Rc.SECURITY else Rc.OK) ∧ (code = Rc.OK) ∧ (s.asnNow 0 < asn))
    ∧ (∃ (s : Chip) (w : CmdFrom) (token : Nat) (code : Nat) (u : Chip), (code = if s.mesh.joined = false then Rc.NOT_JOINED else if w.orig ≠ 0 then Rc.SECURITY else Rc.OK) ∧ (code = Rc.OK) ∧ (u = s.meshReply w 6 token Rc.OK []))
    ∧ (∃ (w : CmdFrom) (cid : Nat) (token : Nat) (code : Nat) (d : List Byte) (b : List Byte), (b = leOctets 1 (cid + 128) ++ leOctets 1 token ++ leOctets 1 code ++ d) ∧ (w.loc = true))
    ∧ (∃ (s : Chip) (w : CmdFrom) (cid : Nat) (token : Nat) (code : Nat) (d : List Byte) (b : List Byte), (b = leOctets 1 (cid + 128) ++ leOctets 1 token ++ leOctets 1 code ++ d) ∧ (w.loc = false) ∧ (s.mesh.role = 2))
    ∧ (∃ (s : Chip) (w : CmdFrom) (cid : Nat) (token : Nat) (code : Nat) (d : List Byte) (b : List Byte), (b = leOctets 1 (cid + 128) ++ leOctets 1 token ++ leOctets 1 code ++ d) ∧ (w.loc = false) ∧ (s.mesh.role ≠ 2))
    ∧ (∃ (s : Chip), ((s.mesh.leaving = true) ∧ (s.mesh.held = []) ∧ (s.mesh.returns = [])) ∧ (∀ (q : Nat), 8 ≤ q → q < 16 → s.headEntry q = none))
    ∧ (∃ (s : Chip), (s.mesh.joined = false))
    ∧ (∃ (s : Chip) (page : Nat), (s.mesh.joined = true) ∧ (s.fld F.LNK_HOPCFG_HOPLEN ≤ 16 * page))
    ∧ (∃ (s : Chip) (page : Nat), (s.mesh.joined = true) ∧ (16 * page < s.fld F.LNK_HOPCFG_HOPLEN))
    ∧ (∃ (s : Chip), (s.mesh.switch = none))
    ∧ (∃ (s : Chip) (e : Nat) (asn : Nat), (s.mesh.switch = some (e, asn)))
    ∧ (∃ (cid : Nat), (1 ≤ cid) ∧ (cid ≤ 7))
    ∧ (∃ (s : Chip) (cid : Nat), (cid = 0 ∨ 7 < cid) ∧ (s.mesh.joined = true))
    ∧ (∃ (s : Chip) (cid : Nat), (cid = 0 ∨ 7 < cid) ∧ (s.mesh.joined = false))
    ∧ (∃ (s : Chip) (u : Chip) (n : Nat), ((s.bit F.LNK_CTL_EN = true) ∧ (s.lnk.running = true)) ∧ (u = s.becomeJoiner) ∧ (n < 64))
    ∧ (∃ (code : Nat), (code ≠ Rc.OK))
    ∧ (∃ (s : Chip) (epoch : Nat) (m : Mesh), (m = { s.mesh with left := s.mesh.left.set epoch false, fcnt := s.mesh.fcnt.set epoch 0, marks := s.mesh.marks.set epoch 0, replay := List.filter (fun (r : MeshReplay) => decide (r.key ≠ epoch)) s.mesh.replay }))
    ∧ (∃ (s : Chip), (s.asTk2416 = true))
    ∧ (∃ (s : Chip) (b : List Byte), (s.asTk2416 = false) ∧ (b.length ≠ 39 ∨ octAt b 0 ≠ 1 ∨ leNat (List.take 3 (List.drop 1 b)) = 0 ∨ octAt b 9 = 1 ∧ octAt b 10 = 1 ∧ bits (octAt b 8) 7 6 = 2))
    ∧ (∃ (s : Chip) (b : List Byte) (done : Bool) (u : Chip), ((s.asTk2416 = false) ∧ (b.length = 39) ∧ (octAt b 0 = 1) ∧ (leNat (List.take 3 (List.drop 1 b)) ≠ 0) ∧ (octAt b 9 ≠ 1 ∨ octAt b 10 ≠ 1 ∨ bits (octAt b 8) 7 6 ≠ 2)) ∧ (s.unwrapInto 1 (octAt b 14) (List.drop 15 b) (MeshKeyJob.tap b) = (done, u)))
    ∧ (∃ (s : Chip) (b : List Byte) (m : Mesh) (u : Chip) (w : Chip) (v : List (Bool × Nat × Nat)), ((s.asTk2416 = false) ∧ (b.length = 39) ∧ (octAt b 0 = 1) ∧ (leNat (List.take 3 (List.drop 1 b)) ≠ 0) ∧ (octAt b 9 ≠ 1 ∨ octAt b 10 ≠ 1 ∨ bits (octAt b 8) 7 6 ≠ 2)) ∧ (m = { s.mesh with role := octAt b 11, cred := leNat (List.take 3 (List.drop 1 b)), joinFreq := leNat (List.take 4 (List.drop 4 b)) % 2 ^ 30, joinMode := bits (octAt b 8) 7 6, joinSet := bits (octAt b 8) 5 3, reqAddr := oct2 b 12, jslot := octAt b 14, up := true }) ∧ (u = (s.setMesh m).setFld F.LNK_MESHID_MESHID (leNat (List.take 3 (List.drop 1 b)))) ∧ (v = u.cfg.versions.set 1 (decide (octAt b 9 ≠ octAt b 10), octAt b 9, octAt b 10)) ∧ (w = { u with cfg := { u.cfg with versions := v } })) :=
  ⟨⟨{}, { orig := 0, loc := false }, _, rfl, by decide +kernel⟩,
    ⟨(let s : Chip := {}; rootBase s), { orig := 0, loc := false }, _, _, rfl, by decide +kernel, rfl⟩,
    ⟨(let s : Chip := {}; let s := { s with mesh := { s.mesh with switch := some (0, 0) } }; meshBase s), { orig := 0, loc := false }, _, rfl, by decide +kernel⟩,
    ⟨(meshBase {}), { orig := 0, loc := false }, 0, _, [0xbf#8, 0x3b#8, 0x77#8, 0xb5#8, 0xe9#8, 0xc#8, 0xaa#8, 0x9f#8, 0x50#8, 9#8, 0xfe#8, 0x96#8, 0x26#8, 0xe4#8, 0xef#8, 0xe2#8, 0xd#8, 0xed#8, 0x75#8, 0xee#8, 0x3b#8, 0x1a#8, 0xc0#8, 0xd5#8], _, _, _, rfl, by decide +kernel, rfl, by decide +kernel, wMk _⟩,
    ⟨(meshBase {}), { orig := 0, loc := false }, 0, [], _, rfl, by decide +kernel⟩,
    ⟨(let s : Chip := {}; { s with mesh := { s.mesh with joined := true } }), { orig := 0, loc := false }, 0, _, rfl, by decide +kernel⟩,
    ⟨(let s : Chip := {}; rootBase s), { orig := 0, loc := false }, 1, _, rfl, by decide +kernel⟩,
    ⟨(meshBase {}), { orig := 0, loc := false }, 0, _, _, rfl, by decide +kernel, rfl⟩,
    ⟨{ orig := 0, loc := true }, 0, 0, 0, [], _, rfl, by decide +kernel⟩,
    ⟨(let s : Chip := {}; rootBase s), { orig := 0, loc := false }, 0, 0, 0, [], _, rfl, by decide +kernel⟩,
    ⟨{}, { orig := 0, loc := false }, 0, 0, 0, [], _, rfl, by decide +kernel⟩,
    ⟨(let s : Chip := {}; { s with mesh := { s.mesh with leaving := true } }), by decide +kernel, wRange (by decide +kernel)⟩,
    ⟨{}, by decide +kernel⟩,
    ⟨(meshBase {}), 1, by decide +kernel⟩,
    ⟨(meshBase {}), 0, by decide +kernel⟩,
    ⟨{}, by decide +kernel⟩,
    ⟨(let s : Chip := {}; { s with mesh := { s.mesh with switch := some (0, 0) } }), _, _, wSome _ (by decide +kernel)⟩,
    ⟨1, by decide +kernel⟩,
    ⟨(meshBase {}), 0, by decide +kernel⟩,
    ⟨{}, 0, by decide +kernel⟩,
    ⟨(let s : Chip := {}; let s := { s with lnk := { s.lnk with running := true } }; s.setFld F.LNK_CTL_EN 1), _, 0, by decide +kernel, rfl, by decide +kernel⟩,
    ⟨1, by decide +kernel⟩,
    ⟨{}, 0, _, rfl⟩,
    ⟨(let s : Chip := {}; { s with cfg := { s.cfg with versions := [(false, 0, 0), (false, 1, 1)] } }), by decide +kernel⟩,
    ⟨{}, [], by decide +kernel⟩,
    ⟨{}, [1#8, 1#8, 0#8, 0#8, 0#8, 0#8, 0#8, 0#8, 0x40#8, 1#8, 3#8, 0#8, 0xff#8, 0xff#8, 9#8, 0xbf#8, 0x3b#8, 0x77#8, 0xb5#8, 0xe9#8, 0xc#8, 0xaa#8, 0x9f#8, 0x50#8, 9#8, 0xfe#8, 0x96#8, 0x26#8, 0xe4#8, 0xef#8, 0xe2#8, 0xd#8, 0xed#8, 0x75#8, 0xee#8, 0x3b#8, 0x1a#8, 0xc0#8, 0xd5#8], _, _, by decide +kernel, rfl⟩,
    ⟨{}, [1#8, 1#8, 0#8, 0#8, 0#8, 0#8, 0#8, 0#8, 0x40#8, 1#8, 3#8, 0#8, 0xff#8, 0xff#8, 4#8, 0xbf#8, 0x3b#8, 0x77#8, 0xb5#8, 0xe9#8, 0xc#8, 0xaa#8, 0x9f#8, 0x50#8, 9#8, 0xfe#8, 0x96#8, 0x26#8, 0xe4#8, 0xef#8, 0xe2#8, 0xd#8, 0xed#8, 0x75#8, 0xee#8, 0x3b#8, 0x1a#8, 0xc0#8, 0xd5#8], _, _, _, _, by decide +kernel, rfl, rfl, rfl, rfl⟩⟩

theorem wit_CipherAndKeys :
    (∃ (ag : Agent), (ag ≠ Agent.foxA))
    ∧ (∃ (s : Chip), (s.bit F.CPH_CTL_EN = false) ∧ (s.fld (F.EGY_DECL_PEAK 9) < 8))
    ∧ (∃ (s : Chip) (u : Chip), ((s.bit F.CPH_CTL_EN = false) ∧ (8 ≤ s.fld (F.EGY_DECL_PEAK 9))) ∧ (u = { s with stopping := List.filter (fun (x : Block) => decide (x ≠ Block.cph)) s.stopping }))
    ∧ (∃ (s : Chip) (u : Chip), ((s.bit F.CPH_CTL_EN = true) ∧ (∀ (p : Nat), p < 4 → s.pageState p = 0)) ∧ (u = s.setBit F.CPH_CTL_EN false) ∧ (∀ (p : Nat), p < 4 → u.pageState p = 0))
    ∧ (∃ (ag : Agent) (u : Nat), (u < 4) ∧ (ownsPage ag u = false))
    ∧ (∃ (s : Chip) (ag : Agent) (u : Nat) (code : Nat), ((u < 4) ∧ (ownsPage ag u = true)) ∧ (code = s.goCheck u (s.agentRom ag)) ∧ (s.bit F.CPH_CTL_EN = false ∨ s.pageState u ≠ 0))
    ∧ (∃ (s : Chip) (ag : Agent) (u : Nat) (code : Nat), ((u < 4) ∧ (ownsPage ag u = true)) ∧ (code = s.goCheck u (s.agentRom ag)) ∧ (s.bit F.CPH_CTL_EN = true) ∧ (s.pageState u = 0) ∧ (8 < (s.cphCmd u).mode ∨ 1 < (s.cphCmd u).fmode))
    ∧ (∃ (s : Chip) (ag : Agent) (u : Nat) (code : Nat), ((u < 4) ∧ (ownsPage ag u = true)) ∧ (code = s.goCheck u (s.agentRom ag)) ∧ (code ≠ Rc.OK))
    ∧ (∃ (s : Chip) (ag : Agent) (u : Nat) (code : Nat) (x : Chip) (p : CphPage), ((u < 4) ∧ (ownsPage ag u = true)) ∧ (code = s.goCheck u (s.agentRom ag)) ∧ (code = Rc.OK) ∧ (p = { key := (s.keyOf (s.cphCmd u).key).getD [], target := (s.keyOf (s.cphCmd u).tslot).getD [], order := s.cph.starts, busy := true, setup := 24, left := (s.cphCmd u).blocks, aborting := false }) ∧ (x = (((s.setBit (F.CPH_USTAT_DONE u) false).setPageState u 1).setFld (F.CPH_UPROG_BLOCKS u) 0).setPage u p) ∧ (x.cph.starts = s.cph.starts))
    ∧ (∃ (s : Chip) (ag : Agent) (u : Nat), (u < 4) ∧ (ownsPage ag u = true) ∧ (s.pageState u ≠ 0) ∧ (s.cph.recs = []) ∧ (s.cph.cur = some u) ∧ (1 ≤ (s.page u).left))
    ∧ (∃ (s : Chip) (ag : Agent) (u : Nat), (u < 4) ∧ (ownsPage ag u = true) ∧ (s.pageState u ≠ 0) ∧ (s.cph.recs = []) ∧ (s.cph.cur ≠ some u) ∧ (s.pageState u = 1 ∨ 1 ≤ (s.page u).setup ∨ 1 ≤ (s.page u).left))
    ∧ (∃ (s : Chip) (u : Nat), (4 ≤ u ∨ s.pageState u ≠ 2 ∨ (s.page u).busy = false))
    ∧ (∃ (s : Chip) (v : Chip) (u : Nat) (c : CphCmd) (o : CphOut), ((u < 4) ∧ (s.pageState u = 2) ∧ ((s.page u).busy = true)) ∧ (c = s.cphCmd u) ∧ (v = ((s.leaveBlock u).setPage u ({ (s.page u) with busy := false, setup := 0, left := 0 })).setFld (F.CPH_UPROG_BLOCKS u) c.blocks) ∧ (o = v.cphCompute c (s.page u).key (s.page u).target) ∧ (3 ≤ c.mode) ∧ (c.mode ≤ 5) ∧ (c.dec = true) ∧ (v.octets c.tag c.tagLen ≠ o.tag))
    ∧ (∃ (s : Chip) (v : Chip) (u : Nat) (c : CphCmd) (o : CphOut), ((u < 4) ∧ (s.pageState u = 2) ∧ ((s.page u).busy = true)) ∧ (c = s.cphCmd u) ∧ (v = ((s.leaveBlock u).setPage u ({ (s.page u) with busy := false, setup := 0, left := 0 })).setFld (F.CPH_UPROG_BLOCKS u) c.blocks) ∧ (o = v.cphCompute c (s.page u).key (s.page u).target) ∧ (c.mode ≤ 6) ∧ (c.dec = true) ∧ (c.mode < 3 ∨ v.octets c.tag c.tagLen = o.tag) ∧ (o.chain = none))
    ∧ (∃ (s : Chip) (v : Chip) (u : Nat) (c : CphCmd) (o : CphOut) (x : Chip), ((u < 4) ∧ (s.pageState u = 2) ∧ ((s.page u).busy = true)) ∧ (c = s.cphCmd u) ∧ (v = ((s.leaveBlock u).setPage u ({ (s.page u) with busy := false, setup := 0, left := 0 })).setFld (F.CPH_UPROG_BLOCKS u) c.blocks) ∧ (o = v.cphCompute c (s.page u).key (s.page u).target) ∧ ((c.mode ≤ 6) ∧ (c.dec = false) ∧ (o.chain = none)) ∧ (x = v.putOctets c.outArea.fst o.out))
    ∧ (∃ (s : Chip) (v : Chip) (u : Nat) (c : CphCmd) (o : CphOut) (x : Chip) (l : List Nat), ((u < 4) ∧ (s.pageState u = 2) ∧ ((s.page u).busy = true)) ∧ (c = s.cphCmd u) ∧ (v = ((s.leaveBlock u).setPage u ({ (s.page u) with busy := false, setup := 0, left := 0 })).setFld (F.CPH_UPROG_BLOCKS u) c.blocks) ∧ (o = v.cphCompute c (s.page u).key (s.page u).target) ∧ ((c.mode ≤ 6) ∧ (c.dec = false)) ∧ (o.chain = some l) ∧ (x = (v.putOctets c.outArea.fst o.out).putOctets c.iv l))
    ∧ (∃ (s : Chip) (v : Chip) (u : Nat) (c : CphCmd) (o : CphOut), ((u < 4) ∧ (s.pageState u = 2) ∧ ((s.page u).busy = true)) ∧ (c = s.cphCmd u) ∧ (v = ((s.leaveBlock u).setPage u ({ (s.page u) with busy := false, setup := 0, left := 0 })).setFld (F.CPH_UPROG_BLOCKS u) c.blocks) ∧ (o = v.cphCompute c (s.page u).key (s.page u).target) ∧ (c.mode = 7) ∧ (Aes.unwrap (s.page u).key (v.octets c.src c.len) = none))
    ∧ (∃ (s : Chip) (v : Chip) (u : Nat) (c : CphCmd) (o : CphOut) (k : List Nat), ((u < 4) ∧ (s.pageState u = 2) ∧ ((s.page u).busy = true)) ∧ (c = s.cphCmd u) ∧ (v = ((s.leaveBlock u).setPage u ({ (s.page u) with busy := false, setup := 0, left := 0 })).setFld (F.CPH_UPROG_BLOCKS u) c.blocks) ∧ (o = v.cphCompute c (s.page u).key (s.page u).target) ∧ (c.mode = 7) ∧ (Aes.unwrap (s.page u).key (v.octets c.src c.len) = some k))
    ∧ (∃ (s : Chip) (v : Chip) (u : Nat) (c : CphCmd) (o : CphOut), ((u < 4) ∧ (s.pageState u = 2) ∧ ((s.page u).busy = true)) ∧ (c = s.cphCmd u) ∧ (v = ((s.leaveBlock u).setPage u ({ (s.page u) with busy := false, setup := 0, left := 0 })).setFld (F.CPH_UPROG_BLOCKS u) c.blocks) ∧ (o = v.cphCompute c (s.page u).key (s.page u).target) ∧ (c.mode = 8))
    ∧ (∃ (s : Chip) (u : Nat), (u < 4) ∧ (s.pageState u ≠ 0))
    ∧ (∃ (s : Chip), (∀ (u : Nat), u < 4 → s.pageState u = 0))
    ∧ (∃ (n : Nat) (new : Nat) (v : Word), (n < 16) ∧ (new = BitVec.toNat v % 512) ∧ (n = 0))
    ∧ (∃ (s : Chip) (n : Nat) (new : Nat) (v : Word), (n < 16) ∧ (new = BitVec.toNat v % 512) ∧ (n ≠ 0) ∧ (s.lockedSec 11 = true))
    ∧ (∃ (s : Chip) (ag : Agent) (n : Nat) (new : Nat) (v : Word), (n < 16) ∧ (new = BitVec.toNat v % 512) ∧ (n ≠ 0) ∧ (s.lockedSec 11 = false) ∧ (ag = Agent.svc ∨ s.slotUser n ag.code = false ∨ new &&& 511 - BitVec.toNat (s.reg (R.KST_ATTR n)) % 512 ≠ 0))
    ∧ (∃ (s : Chip) (ag : Agent) (n : Nat) (new : Nat) (v : Word), (n < 16) ∧ (new = BitVec.toNat v % 512) ∧ (n ≠ 0) ∧ (s.lockedSec 11 = false) ∧ (ag ≠ Agent.svc) ∧ (s.slotUser n ag.code = true) ∧ (new &&& 511 - BitVec.toNat (s.reg (R.KST_ATTR n)) % 512 = 0)) :=
  ⟨⟨Agent.foxB, by decide +kernel⟩,
    ⟨(let s : Chip := {}; s.setFld (F.EGY_DECL_PEAK 9) 0), by decide +kernel⟩,
    ⟨{}, _, by decide +kernel, rfl⟩,
    ⟨(let s : Chip := {}; s.setFld F.CPH_CTL_EN 1), _, by decide +kernel, rfl, by decide +kernel⟩,
    ⟨Agent.foxB, 0, by decide +kernel⟩,
    ⟨{}, Agent.badger, 2, _, by decide +kernel, rfl, by decide +kernel⟩,
    ⟨(let s : Chip := {}; let s := s.setReg R.CPH_CTL (W 1); s.setReg (R.CPH_UCMD 1) (W 9)), Agent.foxB, 1, _, by decide +kernel, rfl, by decide +kernel⟩,
    ⟨{}, Agent.foxA, 0, _, by decide +kernel, rfl, by decide +kernel⟩,
    ⟨(let s : Chip := {}; let s := s.setBit F.CPH_CTL_EN true; let s := s.setReg (R.CPH_UCMD 0) (W (4 <<< 12 ||| 8)); s.setReg (R.KST_ATTR 4) (W 1)), .foxA, 0, _, _, _, by decide +kernel, rfl, by decide +kernel, rfl, rfl, by decide +kernel⟩,
    ⟨(let s : Chip := {}; let s := { s with cph := { s.cph with cur := some 1 } }; let s := { s with cph := { s.cph with pages := [{}, { key := [0, 0], target := [0], left := 1 }] } }; s.setFld (F.CPH_USTAT_STATE 1) 1), Agent.foxB, 1, by decide +kernel⟩,
    ⟨(let s : Chip := {}; s.setFld (F.CPH_USTAT_STATE 1) 1), Agent.foxB, 1, by decide +kernel⟩,
    ⟨{}, 0, by decide +kernel⟩,
    ⟨(let s : Chip := {}; let s := s.setFld (F.CPH_USTAT_STATE 0) 2; let s := s.setPage 0 { key := List.replicate 16 0, busy := true }; let s := s.setReg (R.CPH_UCMD 0) (W (1 <<< 4 ||| 5)); let s := s.setFld (F.CPH_UCMD_TAGLEN 0) 1; let s := s.setFld (F.CPH_UTAG_TAG 0) 0x40000; s.wr 0x10000 0), _, 0, _, _, by decide +kernel, rfl, rfl, rfl, by decide +kernel⟩,
    ⟨(let s : Chip := {}; let s := s.setFld (F.CPH_USTAT_STATE 0) 2; let s := s.setPage 0 { key := List.replicate 16 0, busy := true }; s.setReg (R.CPH_UCMD 0) (W (1 <<< 4 ||| 0))), _, 0, _, _, by decide +kernel, rfl, rfl, rfl, by decide +kernel⟩,
    ⟨(let s : Chip := {}; let s := s.setFld (F.CPH_USTAT_STATE 0) 2; let s := s.setPage 0 { key := List.replicate 16 0, busy := true }; s.setReg (R.CPH_UCMD 0) (W ( 0))), _, 0, _, _, _, by decide +kernel, rfl, rfl, rfl, by decide +kernel, rfl⟩,
    ⟨(let s : Chip := {}; let s := s.setFld (F.CPH_USTAT_STATE 0) 2; let s := s.setPage 0 { key := List.replicate 16 0, busy := true }; s.setReg (R.CPH_UCMD 0) (W ( 1))), _, 0, _, _, _, _, by decide +kernel, rfl, rfl, rfl, by decide +kernel, wSome _ (by decide +kernel), rfl⟩,
    ⟨(let s : Chip := {}; let s := s.setFld (F.CPH_USTAT_STATE 0) 2; let s := s.setPage 0 { key := List.replicate 16 0, busy := true }; s.setReg (R.CPH_UCMD 0) (W ( 7))), _, 0, _, _, by decide +kernel, rfl, rfl, rfl, by decide +kernel⟩,
    ⟨(let s : Chip := {}; let s := s.setFld (F.CPH_USTAT_STATE 0) 2; let s := s.setPage 0 { key := List.replicate 16 0, busy := true }; let s := s.setReg (R.CPH_UCMD 0) (W ( 7)); let s := s.setFld (F.CPH_ULEN_LEN 0) 24; let s := s.setFld (F.CPH_USRC_SRC 0) 0x40000; let s := s.wr 0x10000 0xb5773bbf#36; let s := s.wr 0x10001 0x9faa0ce9#36; let s := s.wr 0x10002 0x96fe0950#36; let s := s.wr 0x10003 0xe2efe426#36; let s := s.wr 0x10004 0xee75ed0d#36; s.wr 0x10005 0xd5c01a3b#36), _, 0, _, _, _, by decide +kernel, rfl, rfl, rfl, by decide +kernel, wSome _ (by decide +kernel)⟩,
    ⟨(let s : Chip := {}; let s := s.setFld (F.CPH_USTAT_STATE 0) 2; let s := s.setPage 0 { key := List.replicate 16 0, busy := true }; s.setReg (R.CPH_UCMD 0) (W ( 8))), _, 0, _, _, by decide +kernel, rfl, rfl, rfl, by decide +kernel⟩,
    ⟨(let s : Chip := {}; s.setFld (F.CPH_USTAT_STATE 1) 1), 1, by decide +kernel⟩,
    ⟨{}, by decide +kernel⟩,
    ⟨_, _, 0#36, by decide +kernel, rfl, rfl⟩,
    ⟨(let s : Chip := {}; s.setReg R.SSM_LOCK (W 6875)), 1, _, 0#36, by decide +kernel, rfl, by decide +kernel⟩,
    ⟨{}, Agent.foxA, 1, _, 0#36, by decide +kernel, rfl, by decide +kernel⟩,
    ⟨(let s : Chip := {}; s.setReg (R.KST_ATTR 10) (W 8)), Agent.host, 10, _, 0#36, by decide +kernel, rfl, by decide +kernel⟩⟩

theorem wit_TheTag :
    (∃ (s : Chip) (u : Chip) (v : Nat), (s.pwr.st ≠ PState.ship) ∧ (u = (s.setNfc ({ s.nfc with harvest := false, raw := true })).setFld F.NFC_FIELD_VNFC v))
    ∧ (∃ (s : Chip) (u : Chip) (v : Nat), (s.nfc.harvest = true) ∧ (u = (s.setNfc ({ s.nfc with raw := true })).setFld F.NFC_FIELD_VNFC v))
    ∧ (∃ (s : Chip) (x : Chip) (u : Chip) (v : Nat), (s.nfc.harvest = false) ∧ (x = s.powerOn) ∧ (u = (x.setNfc ({ x.nfc with harvest := true, raw := true })).setFld F.NFC_FIELD_VNFC v))
    ∧ (∃ (s : Chip), (s.nfc.harvest = false))
    ∧ (∃ (s : Chip), (s.nfc.harvest = true) ∧ (s.nfc.booting = true))
    ∧ (∃ (s : Chip), (s.nfc.harvest = true) ∧ (s.nfc.mbox.isSome = true))
    ∧ (∃ (s : Chip) (u : Chip), ((s.nfc.harvest = true) ∧ (s.nfc.booting = false) ∧ (s.flc.op = none)) ∧ (u = (s.setFlc ({ s.flc with op := none, pulsing := false, pulseAt := none, busyA := false, busyB := false })).setNfc { harvest := true, raw := false, tag := TagSt.off, rnd := [], app := false, file := TagFile.none, reply := none, replyAt := 0, sent := [], blk := true, fsd := 256, chain := [], chainAt := 0, mbox := none, rd := { ph := RdPhase.off, due := none, retries := 0, found := 0, level := 1, known := 0, nbits := 0, uid := [], atqa := 0, sak := 0, stamp := none, ats := [], txRest := [], rx := [], blk := false, pcb := 0, sent := [], frameEnd := 0, ready := 0, lastI := [], close := false, endStamp := none, auto := none }, booting := false, pollNext := false, pingNext := none, first := [] }) ∧ (s.nfc.mbox = none))
    ∧ (∃ (s : Chip), (s.bit F.NFC_STAT_FIELDON = false) ∧ (s.nfc.rd.ph ≠ RdPhase.ping) ∧ (s.bit F.NFC_STAT_EXTFLD = false) ∧ (s.nfc.raw = true))
    ∧ (∃ (s : Chip) (w : Bool), (s.tagOn = true) ∧ (s.nfc.harvest = false ∨ 220 ≤ s.fld F.NFC_FIELD_VNFC) ∧ (s.nfc.tag = TagSt.idle ∨ s.nfc.tag = TagSt.halt ∧ w = true))
    ∧ (∃ (s : Chip), (s.tagOn = true) ∧ (s.nfc.tag = TagSt.halt))
    ∧ (∃ (s : Chip), (s.tagOn = true) ∧ (s.nfc.tag = TagSt.active ∨ s.nfc.tag = TagSt.iso4 ∨ s.nfc.tag = TagSt.off))
    ∧ (∃ (s : Chip) (cl : Nat) (n : Nat) (known : Nat), (s.tagOn = true) ∧ (s.nfc.tag = TagSt.ready cl) ∧ (n ≤ 32) ∧ (leNat (s.tagLevel cl) % 2 ^ n = known % 2 ^ n))
    ∧ (∃ (s : Chip) (cl : Nat) (n : Nat) (known : Nat), (s.tagOn = true) ∧ (s.nfc.tag = TagSt.ready cl) ∧ (leNat (s.tagLevel cl) % 2 ^ n ≠ known % 2 ^ n))
    ∧ (∃ (s : Chip) (cl : Nat) (uid : List Byte), (s.tagOn = true) ∧ (s.nfc.tag = TagSt.ready cl) ∧ (uid ≠ s.tagLevel cl))
    ∧ (∃ (s : Chip) (cl : Nat), (s.tagOn = true) ∧ (s.nfc.tag = TagSt.ready cl) ∧ (cl < s.tagLevels))
    ∧ (∃ (s : Chip) (cl : Nat), (s.tagOn = true) ∧ (s.nfc.tag = TagSt.ready cl) ∧ (s.tagLevels ≤ cl))
    ∧ (∃ (s : Chip), (s.tagOn = true) ∧ (s.nfc.tag = TagSt.active))
    ∧ (∃ (s : Chip), (s.tagOn = true) ∧ (s.nfc.tag ≠ TagSt.active))
    ∧ (∃ (s : Chip) (m : MboxWrite), ((s.tagOn = true) ∧ (s.nfc.tag = TagSt.iso4)) ∧ (s.nfc.mbox = some m) ∧ (Option.any (fun (t : Nat) => decide (t ≤ s.now)) m.wtxAt = true))
    ∧ (∃ (s : Chip) (m : MboxWrite), ((s.tagOn = true) ∧ (s.nfc.tag = TagSt.iso4)) ∧ (s.nfc.mbox = some m) ∧ (Option.any (fun (t : Nat) => decide (t ≤ s.now)) m.wtxAt = false))
    ∧ (∃ (s : Chip), (s.tagOn = true) ∧ (s.nfc.tag = TagSt.iso4) ∧ (s.nfc.mbox = none))
    ∧ (∃ (s : Chip), (s.nfc.reply = none))
    ∧ (∃ (s : Chip) (o : List Byte), (s.nfc.reply = some o) ∧ (s.now < s.nfc.replyAt + us 40))
    ∧ (∃ (s : Chip) (o : List Byte), (s.nfc.reply = some o) ∧ (s.nfc.replyAt + us 40 ≤ s.now))
    ∧ (∃ (s : Chip), (s.nfc.raw = false))
    ∧ (∃ (s : Chip), (s.nfc.raw = true) ∧ (s.nfc.harvest = true))
    ∧ (∃ (s : Chip) (o : List Byte) (u : Chip), ((s.nfc.raw = true) ∧ (s.nfc.harvest = false)) ∧ (u = s.setNfc ({ s.nfc with reply := some o, replyAt := s.now })))
    ∧ (∃ (s : Chip) (data : List Byte) (l : List Byte) (sw : Nat) (n : Nat), (l = data ++ beOctets 2 sw) ∧ (n = s.nfc.fsd - 3) ∧ (l.length ≤ n))
    ∧ (∃ (s : Chip) (data : List Byte) (l : List Byte) (sw : Nat) (n : Nat), (l = data ++ beOctets 2 sw) ∧ (n = s.nfc.fsd - 3) ∧ (0 < n) ∧ (n < l.length))
    ∧ (∃ (s : Chip) (aid : List Byte), ((s.tagOn = true) ∧ (s.nfc.tag = TagSt.iso4) ∧ (s.nfc.mbox = none) ∧ (s.nfc.harvest = false)) ∧ (aid = [210, 118, 0, 0, 133, 1, 1]) ∧ (s.fld F.NFC_NDEF_SIZEW ≠ 0))
    ∧ (∃ (s : Chip) (aid : List Byte), (s.tagOn = true) ∧ (s.nfc.tag = TagSt.iso4) ∧ (s.nfc.mbox = none) ∧ (s.nfc.harvest = true ∨ aid ≠ [210, 118, 0, 0, 133, 1, 1] ∨ s.fld F.NFC_NDEF_SIZEW = 0))
    ∧ (∃ (s : Chip) (c : FileSelect), ((s.tagOn = true) ∧ (s.nfc.tag = TagSt.iso4) ∧ (s.nfc.mbox = none) ∧ (s.nfc.harvest = false) ∧ (s.nfc.app = true)) ∧ (c = { cla := 0, ins := 164, fid := 57603 }))
    ∧ (∃ (s : Chip) (c : FileSelect), ((s.tagOn = true) ∧ (s.nfc.tag = TagSt.iso4) ∧ (s.nfc.mbox = none) ∧ (s.nfc.harvest = false) ∧ (s.nfc.app = true)) ∧ (c = { cla := 0, ins := 164, fid := 57604 }))
    ∧ (∃ (s : Chip) (c : FileSelect), (s.tagOn = true) ∧ (s.nfc.tag = TagSt.iso4) ∧ (s.nfc.mbox = none) ∧ (c.cla = 0) ∧ (c.ins = 164) ∧ (s.nfc.harvest = true ∨ s.nfc.app = false ∨ c.fid ≠ 57603 ∧ c.fid ≠ 57604))
    ∧ (∃ (s : Chip) (c : FileSelect), (s.tagOn = true) ∧ (s.nfc.tag = TagSt.iso4) ∧ (s.nfc.mbox = none) ∧ (c.cla ≠ 0) ∧ (c.cla ≠ 128))
    ∧ (∃ (s : Chip) (c : FileSelect), (s.tagOn = true) ∧ (s.nfc.tag = TagSt.iso4) ∧ (s.nfc.mbox = none) ∧ (c.cla = 0) ∧ (c.ins ≠ 164) ∧ (s.nfc.harvest = true ∨ c.ins ≠ 176 ∧ c.ins ≠ 214))
    ∧ (∃ (s : Chip) (c : FileSelect), (s.tagOn = true) ∧ (s.nfc.tag = TagSt.iso4) ∧ (s.nfc.mbox = none) ∧ (c.cla = 128) ∧ (c.ins ≠ 208))
    ∧ (∃ (s : Chip), (s.tagOn = true) ∧ (s.nfc.tag = TagSt.iso4) ∧ (s.nfc.mbox = none) ∧ (s.nfc.harvest = true))
    ∧ (∃ (s : Chip) (off : Nat) (len : Nat) (sw : Nat) (f : List Byte), ((s.tagOn = true) ∧ (s.nfc.tag = TagSt.iso4) ∧ (s.nfc.mbox = none) ∧ (s.nfc.harvest = false)) ∧ (s.tagFile = some f) ∧ (sw = if f.length ≤ off then 27392 else if 240 < len ∨ f.length < off + len then 26368 else 36864))
    ∧ (∃ (s : Chip) (off : Nat) (sw : Nat) (data : List Byte), ((s.tagOn = true) ∧ (s.nfc.tag = TagSt.iso4) ∧ (s.nfc.mbox = none) ∧ (s.nfc.harvest = false) ∧ (s.nfc.file = TagFile.ndef) ∧ (s.bit F.NFC_NDEF_WRITE = true)) ∧ (sw = if s.ndefSize ≤ off then 27392 else if 240 < data.length ∨ s.ndefSize < off + data.length then 26368 else 36864) ∧ (sw ≠ 36864))
    ∧ (∃ (s : Chip) (off : Nat) (sw : Nat) (data : List Byte), ((s.tagOn = true) ∧ (s.nfc.tag = TagSt.iso4) ∧ (s.nfc.mbox = none) ∧ (s.nfc.harvest = false) ∧ (s.nfc.file = TagFile.ndef) ∧ (s.bit F.NFC_NDEF_WRITE = true)) ∧ (sw = if s.ndefSize ≤ off then 27392 else if 240 < data.length ∨ s.ndefSize < off + data.length then 26368 else 36864) ∧ (sw = 36864) ∧ (1 < off))
    ∧ (∃ (s : Chip), (s.tagOn = true) ∧ (s.nfc.tag = TagSt.iso4) ∧ (s.nfc.mbox = none) ∧ (s.nfc.harvest = false) ∧ (s.nfc.file = TagFile.cc ∨ s.nfc.file = TagFile.ndef ∧ s.bit F.NFC_NDEF_WRITE = false))
    ∧ (∃ (s : Chip) (data : List Byte) (l : List Nat) (u : Chip), ((s.tagOn = true) ∧ (s.nfc.tag = TagSt.iso4) ∧ (s.nfc.mbox = none)) ∧ (u = s.setFld F.NFC_FIELD_VNFC (l.headD 0)) ∧ (data.length < 2 ∨ 53 < data.length))
    ∧ (∃ (s : Chip) (data : List Byte) (l : List Nat) (u : Chip), ((s.tagOn = true) ∧ (s.nfc.tag = TagSt.iso4) ∧ (s.nfc.mbox = none)) ∧ (u = s.setFld F.NFC_FIELD_VNFC (l.headD 0)) ∧ (2 ≤ data.length) ∧ (data.length ≤ 53) ∧ (octAt data 0 = 0 ∨ octAt data 0 = 255))
    ∧ (∃ (s : Chip) (data : List Byte) (l : List Nat) (u : Chip), ((s.tagOn = true) ∧ (s.nfc.tag = TagSt.iso4) ∧ (s.nfc.mbox = none)) ∧ (u = s.setFld F.NFC_FIELD_VNFC (l.headD 0)) ∧ (2 ≤ data.length) ∧ (data.length ≤ 53) ∧ (octAt data 0 ≠ 0) ∧ (octAt data 0 ≠ 255) ∧ (l.headD 0 < 260))
    ∧ (∃ (s : Chip) (q : Nat) (data : List Byte) (l : List Nat) (u : Chip), ((s.tagOn = true) ∧ (s.nfc.tag = TagSt.iso4) ∧ (s.nfc.mbox = none)) ∧ (u = s.setFld F.NFC_FIELD_VNFC (l.headD 0)) ∧ (2 ≤ data.length) ∧ (data.length ≤ 53) ∧ (octAt data 0 ≠ 0) ∧ (octAt data 0 ≠ 255) ∧ (260 ≤ l.headD 0) ∧ ((u.mboxFind (octAt data 0) q).isSome = true) ∧ (u.nfc.harvest = true))
    ∧ (∃ (s : Chip) (q : Nat) (data : List Byte) (l : List Nat) (u : Chip), ((s.tagOn = true) ∧ (s.nfc.tag = TagSt.iso4) ∧ (s.nfc.mbox = none)) ∧ (u = s.setFld F.NFC_FIELD_VNFC (l.headD 0)) ∧ (2 ≤ data.length) ∧ (data.length ≤ 53) ∧ (octAt data 0 ≠ 0) ∧ (octAt data 0 ≠ 255) ∧ (260 ≤ l.headD 0) ∧ ((u.mboxFind (octAt data 0) q).isSome = true) ∧ (u.nfc.harvest = false))
    ∧ (∃ (s : Chip) (q : Nat) (data : List Byte) (l : List Nat) (u : Chip), ((s.tagOn = true) ∧ (s.nfc.tag = TagSt.iso4) ∧ (s.nfc.mbox = none)) ∧ (u = s.setFld F.NFC_FIELD_VNFC (l.headD 0)) ∧ (2 ≤ data.length) ∧ (data.length ≤ 53) ∧ (octAt data 0 ≠ 0) ∧ (octAt data 0 ≠ 255) ∧ (260 ≤ l.headD 0) ∧ (u.mboxFind (octAt data 0) q = none) ∧ (List.find? u.mboxErased (List.range 256) = none))
    ∧ (∃ (s : Chip) (q : Nat) (data : List Byte) (l : List Nat) (u : Chip) (k : Nat) (b : List Word) (m : MboxWrite), ((s.tagOn = true) ∧ (s.nfc.tag = TagSt.iso4) ∧ (s.nfc.mbox = none)) ∧ (u = s.setFld F.NFC_FIELD_VNFC (l.headD 0)) ∧ ((2 ≤ data.length) ∧ (data.length ≤ 53) ∧ (octAt data 0 ≠ 0) ∧ (octAt data 0 ≠ 255) ∧ (260 ≤ l.headD 0) ∧ (u.mboxFind (octAt data 0) q = none)) ∧ (List.find? u.mboxErased (List.range 256) = some k) ∧ (u.nfc.harvest = true) ∧ (b = mboxBody (octAt data 0) (q % 65536) (List.drop 1 data)) ∧ (m = { slot := k, next := 0, words := b ++ [W (mboxChk b), W 52550188092], levels := l.tail, rtype := octAt data 0, seq := q % 65536, stamp := { lo := 0, seq := 0, fv := false, fine := 0 }, wtxAt := none })) :=
  ⟨⟨{}, _, 0, by decide +kernel, rfl⟩,
    ⟨(let s : Chip := {}; { s with nfc := { s.nfc with harvest := true } }), _, 0, by decide +kernel, rfl⟩,
    ⟨{}, _, _, 0, by decide +kernel, rfl, rfl⟩,
    ⟨{}, by decide +kernel⟩,
    ⟨(let s : Chip := {}; let s := { s with nfc := { s.nfc with harvest := true } }; { s with nfc := { s.nfc with booting := true } }), by decide +kernel⟩,
    ⟨(let s : Chip := {}; let s := { s with nfc := { s.nfc with harvest := true } }; { s with nfc := { s.nfc with mbox := some { slot := 0, next := 0, words := [], levels := [], rtype := 0, seq := 0, stamp := { lo := 0, seq := 0, fv := false, fine := 0 }, wtxAt := none } } }), by decide +kernel⟩,
    ⟨(let s : Chip := {}; { s with nfc := { s.nfc with harvest := true } }), _, by decide +kernel, rfl, by decide +kernel⟩,
    ⟨(let s : Chip := {}; { s with nfc := { s.nfc with raw := true } }), by decide +kernel⟩,
    ⟨(let s : Chip := {}; let s := s.setFld F.NFC_CTL_EN 1; let s := { s with nfc := { s.nfc with raw := true } }; let s := s.setFld F.NFC_CTL_TAG 1; { s with nfc := { s.nfc with tag := TagSt.idle } }), false, by decide +kernel⟩,
    ⟨(let s : Chip := {}; let s := { s with nfc := { s.nfc with raw := true } }; let s := { s with nfc := { s.nfc with harvest := true } }; { s with nfc := { s.nfc with tag := TagSt.halt } }), by decide +kernel⟩,
    ⟨(let s : Chip := {}; let s := s.setReg R.NFC_CTL (W 3); { s with nfc := { s.nfc with raw := true } }), by decide +kernel⟩,
    ⟨(let s : Chip := {}; let s := { s with nfc := { s.nfc with harvest := true } }; let s := { s with nfc := { s.nfc with raw := true } }; { s with nfc := { s.nfc with tag := TagSt.ready 3 } }), 3, 0, 0, by decide +kernel⟩,
    ⟨(let s : Chip := {}; let s := s.setFld F.NFC_CTL_EN 1; let s := { s with nfc := { s.nfc with tag := TagSt.ready 7 } }; let s := s.setFld F.NFC_CTL_TAG 1; { s with nfc := { s.nfc with raw := true } }), 7, 2, 1, by decide +kernel⟩,
    ⟨(let s : Chip := {}; let s := { s with nfc := { s.nfc with raw := true } }; let s := { s with nfc := { s.nfc with harvest := true } }; { s with nfc := { s.nfc with tag := TagSt.ready 7 } }), 7, [], by decide +kernel⟩,
    ⟨(let s : Chip := {}; let s := { s with nfc := { s.nfc with raw := true } }; let s := { s with nfc := { s.nfc with tag := TagSt.ready 1 } }; let s := s.setReg R.NFC_CTL (W 2); s.setFld F.NFC_CTL_EN 1), 1, by decide +kernel⟩,
    ⟨(let s : Chip := {}; let s := { s with nfc := { s.nfc with tag := TagSt.ready 3 } }; let s := { s with nfc := { s.nfc with raw := true } }; { s with nfc := { s.nfc with harvest := true } }), 3, by decide +kernel⟩,
    ⟨(let s : Chip := {}; let s := { s with nfc := { s.nfc with tag := TagSt.active } }; let s := { s with nfc := { s.nfc with harvest := true } }; { s with nfc := { s.nfc with raw := true } }), by decide +kernel⟩,
    ⟨(let s : Chip := {}; let s := { s with nfc := { s.nfc with harvest := true } }; { s with nfc := { s.nfc with raw := true } }), by decide +kernel⟩,
    ⟨(let s : Chip := {}; let s := { s with nfc := { s.nfc with raw := true } }; let s := { s with nfc := { s.nfc with mbox := some { slot := 0, next := 0, words := [], levels := [0], rtype := 0, seq := 0, stamp := { lo := 0, seq := 0, fv := false, fine := 0 }, wtxAt := some 0 } } }; let s := { s with now := 0 }; let s := s.setReg R.NFC_CTL (W 3); { s with nfc := { s.nfc with tag := TagSt.iso4 } }), _, by decide +kernel, wSome _ (by decide +kernel), by decide +kernel⟩,
    ⟨(let s : Chip := {}; let s := { s with nfc := { s.nfc with mbox := some { slot := 0, next := 0, words := [], levels := [], rtype := 0, seq := 0, stamp := { lo := 0, seq := 0, fv := false, fine := 0 }, wtxAt := none } } }; let s := { s with nfc := { s.nfc with raw := true } }; let s := s.setReg R.NFC_CTL (W 3); { s with nfc := { s.nfc with tag := TagSt.iso4 } }), _, by decide +kernel, wSome _ (by decide +kernel), by decide +kernel⟩,
    ⟨(let s : Chip := {}; let s := s.setFld F.NFC_CTL_TAG 1; let s := s.setFld F.NFC_CTL_EN 1; let s := { s with nfc := { s.nfc with tag := TagSt.iso4 } }; { s with nfc := { s.nfc with raw := true } }), by decide +kernel⟩,
    ⟨{}, by decide +kernel⟩,
    ⟨(let s : Chip := {}; { s with nfc := { s.nfc with reply := some [] } }), _, wSome _ (by decide +kernel), by decide +kernel⟩,
    ⟨(let s : Chip := {}; let s := { s with nfc := { s.nfc with reply := some [] } }; { s with now := 14111 }), _, wSome _ (by decide +kernel), by decide +kernel⟩,
    ⟨{}, by decide +kernel⟩,
    ⟨(let s : Chip := {}; let s := { s with nfc := { s.nfc with harvest := true } }; { s with nfc := { s.nfc with raw := true } }), by decide +kernel⟩,
    ⟨(let s : Chip := {}; { s with nfc := { s.nfc with raw := true } }), [], _, by decide +kernel, rfl⟩,
    ⟨{}, [], _, 0, _, rfl, rfl, by decide +kernel⟩,
    ⟨(let s : Chip := {}; { s with nfc := { s.nfc with fsd := 4 } }), [], _, 0, _, rfl, rfl, by decide +kernel⟩,
    ⟨(let s : Chip := {}; let s := { s with nfc := { s.nfc with tag := TagSt.iso4 } }; let s := { s with nfc := { s.nfc with raw := true } }; let s := s.setFld F.NFC_NDEF_SIZEW 1; let s := s.setReg R.NFC_CTL (W 1); s.setFld F.NFC_CTL_TAG 1), _, by decide +kernel, rfl, by decide +kernel⟩,
    ⟨(let s : Chip := {}; let s := { s with nfc := { s.nfc with harvest := true } }; let s := { s with nfc := { s.nfc with raw := true } }; { s with nfc := { s.nfc with tag := TagSt.iso4 } }), [], by decide +kernel⟩,
    ⟨(let s : Chip := {}; let s := { s with nfc := { s.nfc with app := true } }; let s := { s with nfc := { s.nfc with raw := true } }; let s := s.setFld F.NFC_CTL_EN 1; let s := s.setFld F.NFC_CTL_TAG 1; { s with nfc := { s.nfc with tag := TagSt.iso4 } }), _, by decide +kernel, rfl⟩,
    ⟨(let s : Chip := {}; let s := { s with nfc := { s.nfc with raw := true } }; let s := s.setReg R.NFC_CTL (W 3); let s := { s with nfc := { s.nfc with app := true } }; { s with nfc := { s.nfc with tag := TagSt.iso4 } }), _, by decide +kernel, rfl⟩,
    ⟨(let s : Chip := {}; let s := { s with nfc := { s.nfc with tag := TagSt.iso4 } }; let s := { s with nfc := { s.nfc with raw := true } }; { s with nfc := { s.nfc with harvest := true } }), { cla := 0, ins := 164, fid := 0 }, by decide +kernel⟩,
    ⟨(let s : Chip := {}; let s := { s with nfc := { s.nfc with tag := TagSt.iso4 } }; let s := s.setReg R.NFC_CTL (W 1); let s := { s with nfc := { s.nfc with raw := true } }; s.setFld F.NFC_CTL_TAG 1), { cla := 1, ins := 0, fid := 0 }, by decide +kernel⟩,
    ⟨(let s : Chip := {}; let s := { s with nfc := { s.nfc with harvest := true } }; let s := { s with nfc := { s.nfc with raw := true } }; { s with nfc := { s.nfc with tag := TagSt.iso4 } }), { cla := 0, ins := 0, fid := 0 }, by decide +kernel⟩,
    ⟨(let s : Chip := {}; let s := { s with nfc := { s.nfc with tag := TagSt.iso4 } }; let s := { s with nfc := { s.nfc with harvest := true } }; { s with nfc := { s.nfc with raw := true } }), { cla := 128, ins := 0, fid := 0 }, by decide +kernel⟩,
    ⟨(let s : Chip := {}; let s := { s with nfc := { s.nfc with harvest := true } }; let s := { s with nfc := { s.nfc with tag := TagSt.iso4 } }; { s with nfc := { s.nfc with raw := true } }), by decide +kernel⟩,
    ⟨(let s : Chip := {}; let s := { s with nfc := { s.nfc with tag := TagSt.iso4 } }; let s := { s with nfc := { s.nfc with file := TagFile.cc } }; let s := s.setFld F.NFC_CTL_TAG 1; let s := { s with nfc := { s.nfc with raw := true } }; s.setFld F.NFC_CTL_EN 1), 0, 0, _, _, by decide +kernel, wSome _ (by decide +kernel), rfl⟩,
    ⟨(let s : Chip := {}; let s := { s with nfc := { s.nfc with file := TagFile.ndef } }; let s := s.setFld F.NFC_NDEF_WRITE 1; let s := { s with nfc := { s.nfc with tag := TagSt.iso4 } }; let s := s.setReg R.NFC_CTL (W 3); { s with nfc := { s.nfc with raw := true } }), 0, _, [], by decide +kernel, rfl, by decide +kernel⟩,
    ⟨(let s : Chip := {}; let s := { s with nfc := { s.nfc with file := TagFile.ndef } }; let s := s.setFld F.NFC_NDEF_WRITE 1; let s := s.setFld F.NFC_NDEF_SIZEW 239; let s := s.setFld F.NFC_CTL_TAG 1; let s := { s with nfc := { s.nfc with raw := true } }; let s := s.setFld F.NFC_CTL_EN 1; { s with nfc := { s.nfc with tag := TagSt.iso4 } }), 2, _, [], by decide +kernel, rfl, by decide +kernel⟩,
    ⟨(let s : Chip := {}; let s := { s with nfc := { s.nfc with tag := TagSt.iso4 } }; let s := { s with nfc := { s.nfc with file := TagFile.cc } }; let s := { s with nfc := { s.nfc with raw := true } }; let s := s.setReg R.NFC_CTL (W 1); s.setFld F.NFC_CTL_TAG 1), by decide +kernel⟩,
    ⟨(let s : Chip := {}; let s := { s with nfc := { s.nfc with raw := true } }; let s := { s with nfc := { s.nfc with tag := TagSt.iso4 } }; { s with nfc := { s.nfc with harvest := true } }), [], [], _, by decide +kernel, rfl, by decide +kernel⟩,
    ⟨(let s : Chip := {}; let s := s.setReg R.NFC_CTL (W 3); let s := { s with nfc := { s.nfc with raw := true } }; { s with nfc := { s.nfc with tag := TagSt.iso4 } }), [0#8, 0#8, 0#8, 0#8, 0#8, 0#8, 0#8, 0#8, 0#8, 0#8, 0#8, 0#8, 0#8, 0#8, 0#8, 0#8, 0#8, 0#8, 0#8, 0#8, 0#8, 0#8, 0#8, 0#8, 0#8, 0#8, 0#8, 0#8, 0#8, 0#8, 0#8, 0#8, 0#8, 0#8, 0#8, 0#8, 0#8, 0#8, 0#8, 0#8], [], _, by decide +kernel, rfl, by decide +kernel⟩,
    ⟨(let s : Chip := {}; let s := { s with nfc := { s.nfc with tag := TagSt.iso4 } }; let s := s.setReg R.NFC_CTL (W 3); { s with nfc := { s.nfc with raw := true } }), [1#8, 0#8, 0#8, 0#8, 0#8, 0#8, 0#8, 0#8, 0#8, 0#8, 0#8, 0#8, 0#8, 0#8, 0#8, 0#8, 0#8, 0#8, 0#8, 0#8, 0#8, 0#8, 0#8, 0#8, 0#8, 0#8, 0#8, 0#8, 0#8, 0#8, 0#8, 0#8, 0#8, 0#8, 0#8, 0#8, 0#8, 0#8, 0#8, 0#8], [], _, by decide +kernel, rfl, by decide +kernel⟩,
    ⟨(let s : Chip := {}; let s := { s with nfc := { s.nfc with raw := true, harvest := true, tag := .iso4 } }; { s with flash := (((mboxBody 1 0 []) ++ [W (mboxChk (mboxBody 1 0 [])), mboxCommit]).zipIdx).map (fun (w, i) => (mboxBase 0 + i, w)) }), 0, [1, 0], [260], _, by decide +kernel, rfl, by decide +kernel⟩,
    ⟨(let s : Chip := {}; let s := { s with nfc := { s.nfc with raw := true, harvest := false, tag := .iso4 } }; let s := s.setReg R.NFC_CTL (W 3); { s with flash := (((mboxBody 1 0 []) ++ [W (mboxChk (mboxBody 1 0 [])), mboxCommit]).zipIdx).map (fun (w, i) => (mboxBase 0 + i, w)) }), 0, [1, 0], [260], _, by decide +kernel, rfl, by decide +kernel⟩,
    ⟨(let s : Chip := {}; let s := { s with nfc := { s.nfc with raw := true, harvest := true, tag := .iso4 } }; { s with flash := (List.range 256).map (fun i => (mboxBase i, 0)) }), 0, [1, 0], [260], _, by decide +kernel, rfl, by decide +kernel⟩,
    ⟨(let s : Chip := {}; let s := { s with nfc := { s.nfc with harvest := true } }; let s := { s with nfc := { s.nfc with tag := TagSt.iso4 } }; { s with nfc := { s.nfc with raw := true } }), 0, [1#8, 0#8, 0#8, 0#8, 0#8, 0#8, 0#8, 0#8, 0#8, 0#8, 0#8, 0#8, 0#8, 0#8, 0#8, 0#8, 0#8, 0#8, 0#8, 0#8, 0#8, 0#8, 0#8, 0#8, 0#8, 0#8, 0#8, 0#8, 0#8, 0#8, 0#8, 0#8, 0#8, 0#8, 0#8, 0#8, 0#8, 0#8, 0#8, 0#8], [260], _, _, _, _, by decide +kernel, rfl, by decide +kernel, wSome _ (by decide +kernel), by decide +kernel, rfl, rfl⟩⟩

theorem wit_TheReader :
    (∃ (s : Chip) (ag : Agent) (i : Instr), (owns ag (s.fld F.NFC_CFG_OWNER) = false) ∧ (i = Instr.nfcEnable ag))
    ∧ (∃ (s : Chip) (ag : Agent) (i : Instr), (owns ag (s.fld F.NFC_CFG_OWNER) = false) ∧ (i = Instr.nfcDisable ag))
    ∧ (∃ (s : Chip) (ag : Agent) (i : Instr), (owns ag (s.fld F.NFC_CFG_OWNER) = false) ∧ (i = Instr.nfcPoll ag))
    ∧ (∃ (s : Chip) (ag : Agent) (i : Instr), (owns ag (s.fld F.NFC_CFG_OWNER) = false) ∧ (i = Instr.nfcXchg ag))
    ∧ (∃ (s : Chip) (ag : Agent) (i : Instr), (owns ag (s.fld F.NFC_CFG_OWNER) = false) ∧ (i = Instr.nfcDesel ag))
    ∧ (∃ (s : Chip) (ag : Agent) (i : Instr), (owns ag (s.fld F.NFC_CFG_OWNER) = false) ∧ (i = Instr.nfcFieldoff ag))
    ∧ (∃ (s : Chip) (ag : Agent), (owns ag (s.fld F.NFC_CFG_OWNER) = true) ∧ (s.bit F.NFC_CTL_EN = false))
    ∧ (∃ (s : Chip) (u : Chip) (ag : Agent) (c : Nat), (owns ag (s.fld F.NFC_CFG_OWNER) = true) ∧ (c = u.nfcCheck) ∧ (u.bit F.NFC_CTL_EN = false) ∧ (c ≠ Rc.OK))
    ∧ (∃ (s : Chip) (u : Chip) (ag : Agent) (c : Nat) (x : Chip), (owns ag (s.fld F.NFC_CFG_OWNER) = true) ∧ (c = u.nfcCheck) ∧ ((u.bit F.NFC_CTL_EN = false) ∧ (c = Rc.OK)) ∧ (x = ((u.enableBlock Block.nfc).setBit F.NFC_BASE_VALID false).mboxCount) ∧ (x.nfc.raw = false))
    ∧ (∃ (s : Chip) (u : Chip) (ag : Agent) (x : Chip), (owns ag (s.fld F.NFC_CFG_OWNER) = true) ∧ (x = (({ (u.setBit F.NFC_CTL_EN false) with stopping := Block.nfc :: u.stopping }).dropClaim 8).setNfc ({ u.nfc with reply := none, chain := [], pollNext := false, pingNext := none })) ∧ (u.nfc.rd.ph = RdPhase.off))
    ∧ (∃ (s : Chip) (u : Chip) (ag : Agent) (x : Chip), (owns ag (s.fld F.NFC_CFG_OWNER) = true) ∧ (x = (({ (u.setBit F.NFC_CTL_EN false) with stopping := Block.nfc :: u.stopping }).dropClaim 8).setNfc ({ u.nfc with reply := none, chain := [], pollNext := false, pingNext := none })) ∧ (u.nfc.rd.ph = RdPhase.pingClaim))
    ∧ (∃ (s : Chip) (u : Chip) (ag : Agent) (x : Chip), (owns ag (s.fld F.NFC_CFG_OWNER) = true) ∧ (x = (({ (u.setBit F.NFC_CTL_EN false) with stopping := Block.nfc :: u.stopping }).dropClaim 8).setNfc ({ u.nfc with reply := none, chain := [], pollNext := false, pingNext := none })) ∧ (u.nfc.rd.ph ≠ RdPhase.off) ∧ (u.nfc.rd.ph ≠ RdPhase.pingClaim) ∧ (u.now < u.nfc.rd.frameEnd))
    ∧ (∃ (s : Chip) (u : Chip) (ag : Agent) (x : Chip), (owns ag (s.fld F.NFC_CFG_OWNER) = true) ∧ (x = (({ (u.setBit F.NFC_CTL_EN false) with stopping := Block.nfc :: u.stopping }).dropClaim 8).setNfc ({ u.nfc with reply := none, chain := [], pollNext := false, pingNext := none })) ∧ (u.nfc.rd.ph ≠ RdPhase.off) ∧ (u.nfc.rd.ph ≠ RdPhase.pingClaim) ∧ (u.nfc.rd.ph ≠ RdPhase.ping) ∧ (u.nfc.rd.frameEnd ≤ u.now))
    ∧ (∃ (s : Chip) (ag : Agent), (owns ag (s.fld F.NFC_CFG_OWNER) = true) ∧ (s.bit F.NFC_CTL_EN = false ∨ s.bit F.NFC_CTL_READER = false ∨ s.nfc.rd.ph ≠ RdPhase.off ∧ s.nfc.rd.ph ≠ RdPhase.pingClaim ∧ s.nfc.rd.ph ≠ RdPhase.ping ∨ s.nfc.rd.ph = RdPhase.ping ∧ s.nfc.pollNext = true))
    ∧ (∃ (s : Chip) (ag : Agent) (x : Chip), ((owns ag (s.fld F.NFC_CFG_OWNER) = true) ∧ (s.bit F.NFC_CTL_EN = true) ∧ (s.bit F.NFC_CTL_READER = true) ∧ (s.nfc.rd.ph = RdPhase.off)) ∧ (x = s))
    ∧ (∃ (s : Chip) (ag : Agent) (x : Chip), ((owns ag (s.fld F.NFC_CFG_OWNER) = true) ∧ (s.bit F.NFC_CTL_EN = true) ∧ (s.bit F.NFC_CTL_READER = true) ∧ (s.nfc.rd.ph = RdPhase.pingClaim)) ∧ (x = s.dropClaim 7))
    ∧ (∃ (s : Chip) (ag : Agent), (owns ag (s.fld F.NFC_CFG_OWNER) = true) ∧ (s.bit F.NFC_CTL_EN = true) ∧ (s.bit F.NFC_CTL_READER = true) ∧ (s.nfc.rd.ph = RdPhase.ping) ∧ (s.nfc.pollNext = false))
    ∧ (∃ (s : Chip) (ag : Agent), (owns ag (s.fld F.NFC_CFG_OWNER) = true) ∧ (s.nfc.rd.ph ≠ RdPhase.card))
    ∧ (∃ (s : Chip) (ag : Agent), (owns ag (s.fld F.NFC_CFG_OWNER) = true) ∧ (s.nfc.rd.ph = RdPhase.card) ∧ (s.fld F.NFC_RDX_LEN = 0 ∨ sramSpan (s.fld F.NFC_RDX_BUF) (s.fld F.NFC_RDX_LEN) = false))
    ∧ (∃ (s : Chip) (ag : Agent) (n : Nat) (r : Reader), ((owns ag (s.fld F.NFC_CFG_OWNER) = true) ∧ (s.nfc.rd.ph = RdPhase.card)) ∧ (n = s.fld F.NFC_RDX_LEN) ∧ ((n ≠ 0) ∧ (sramSpan (s.fld F.NFC_RDX_BUF) n = true) ∧ (s.nfc.rd.ready - s.now + xchgTime (atsFsc s.nfc.rd.ats) n + fwt (atsFwi s.nfc.rd.ats) ≤ s.rdGrantLeft)) ∧ (r = { s.nfc.rd with txRest := s.rdBs (s.fld F.NFC_RDX_BUF) n, rx := [] }))
    ∧ (∃ (s : Chip) (ag : Agent), (owns ag (s.fld F.NFC_CFG_OWNER) = true) ∧ (s.nfc.rd.ph = RdPhase.off ∨ s.nfc.rd.ph = RdPhase.ping ∨ s.nfc.rd.ph = RdPhase.pingClaim))
    ∧ (∃ (s : Chip) (ag : Agent), (owns ag (s.fld F.NFC_CFG_OWNER) = true) ∧ (s.nfc.rd.ph = RdPhase.card ∨ s.nfc.rd.ph = RdPhase.field) ∧ (s.nfc.rd.frameEnd ≤ s.now))
    ∧ (∃ (s : Chip) (ag : Agent), (owns ag (s.fld F.NFC_CFG_OWNER) = true) ∧ (s.nfc.rd.ph = RdPhase.reqa ∨ s.nfc.rd.ph = RdPhase.anti ∨ s.nfc.rd.ph = RdPhase.select ∨ s.nfc.rd.ph = RdPhase.rats ∨ s.nfc.rd.ph = RdPhase.xchg) ∧ (s.now < s.nfc.rd.frameEnd))
    ∧ (∃ (s : Chip) (ag : Agent), (owns ag (s.fld F.NFC_CFG_OWNER) = true) ∧ (s.nfc.rd.ph = RdPhase.reqa ∨ s.nfc.rd.ph = RdPhase.anti ∨ s.nfc.rd.ph = RdPhase.select ∨ s.nfc.rd.ph = RdPhase.rats ∨ s.nfc.rd.ph = RdPhase.xchg) ∧ (s.nfc.rd.frameEnd ≤ s.now))
    ∧ (∃ (s : Chip) (r : Reader), (r = s.nfc.rd) ∧ (r.ph ≠ RdPhase.guard ∨ Option.any (fun (t : Nat) => decide (t ≤ s.now)) r.due = false))
    ∧ (∃ (s : Chip) (r : Reader), (r = s.nfc.rd) ∧ (r.ph = RdPhase.guard) ∧ (Option.any (fun (t : Nat) => decide (t ≤ s.now)) r.due = true))
    ∧ (∃ (s : Chip) (r : Reader), (r = s.nfc.rd) ∧ (r.ph = RdPhase.off))
    ∧ (∃ (s : Chip) (r : Reader), (r = s.nfc.rd) ∧ (Option.any (fun (t : Nat) => decide (t ≤ s.now)) r.due = false))
    ∧ (∃ (s : Chip) (r : Reader), (r = s.nfc.rd) ∧ (s.now < r.frameEnd))
    ∧ (∃ (s : Chip) (r : Reader) (p : RdPhase), (r = s.nfc.rd) ∧ ((Option.any (fun (t : Nat) => decide (t ≤ s.now)) r.due = true) ∧ (r.retries ≠ 0)) ∧ (r.ph = p) ∧ (p = RdPhase.reqa))
    ∧ (∃ (s : Chip) (r : Reader) (p : RdPhase), (r = s.nfc.rd) ∧ ((Option.any (fun (t : Nat) => decide (t ≤ s.now)) r.due = true) ∧ (r.retries ≠ 0)) ∧ (r.ph = p) ∧ (p = RdPhase.anti))
    ∧ (∃ (s : Chip) (r : Reader) (p : RdPhase), (r = s.nfc.rd) ∧ ((Option.any (fun (t : Nat) => decide (t ≤ s.now)) r.due = true) ∧ (r.retries ≠ 0)) ∧ (r.ph = p) ∧ (p = RdPhase.select))
    ∧ (∃ (s : Chip) (r : Reader) (p : RdPhase), (r = s.nfc.rd) ∧ ((Option.any (fun (t : Nat) => decide (t ≤ s.now)) r.due = true) ∧ (r.retries ≠ 0)) ∧ (r.ph = p) ∧ (p = RdPhase.rats))
    ∧ (∃ (s : Chip) (r : Reader) (p : RdPhase), (r = s.nfc.rd) ∧ ((Option.any (fun (t : Nat) => decide (t ≤ s.now)) r.due = true) ∧ (r.retries ≠ 0)) ∧ (r.ph = p) ∧ (p = RdPhase.desel))
    ∧ (∃ (s : Chip) (r : Reader), (r = s.nfc.rd) ∧ (Option.any (fun (t : Nat) => decide (t ≤ s.now)) r.due = true) ∧ (r.retries ≠ 0) ∧ (r.ph = RdPhase.xchg))
    ∧ (∃ (s : Chip) (r : Reader), (r = s.nfc.rd) ∧ (Option.any (fun (t : Nat) => decide (t ≤ s.now)) r.due = true) ∧ (r.retries = 0) ∧ (r.ph = RdPhase.reqa ∨ r.ph = RdPhase.select))
    ∧ (∃ (s : Chip) (r : Reader), (r = s.nfc.rd) ∧ (Option.any (fun (t : Nat) => decide (t ≤ s.now)) r.due = true) ∧ (r.retries = 0) ∧ (r.ph = RdPhase.rats))
    ∧ (∃ (s : Chip) (r : Reader), (r = s.nfc.rd) ∧ (Option.any (fun (t : Nat) => decide (t ≤ s.now)) r.due = true) ∧ (r.retries = 0) ∧ (r.ph = RdPhase.desel))
    ∧ (∃ (s : Chip) (r : Reader), (r = s.nfc.rd) ∧ (Option.any (fun (t : Nat) => decide (t ≤ s.now)) r.due = true) ∧ (r.retries = 0) ∧ (r.ph = RdPhase.anti))
    ∧ (∃ (s : Chip) (r : Reader), (r = s.nfc.rd) ∧ (Option.any (fun (t : Nat) => decide (t ≤ s.now)) r.due = true) ∧ (r.retries = 0) ∧ (r.ph = RdPhase.xchg))
    ∧ (∃ (s : Chip) (r : Reader), (r = s.nfc.rd) ∧ (r.ph = RdPhase.reqa) ∧ (r.frameEnd ≤ s.now))
    ∧ (∃ (s : Chip) (r : Reader) (data : List Byte) (b : Bool) (k : Nat) (m : Nat) (u : Chip), (r = s.nfc.rd) ∧ ((r.ph = RdPhase.anti) ∧ (r.frameEnd ≤ s.now) ∧ (r.nbits ≤ k) ∧ (k < 32)) ∧ (m = (r.known % 2 ^ (r.nbits / 8 * 8) + leNat data <<< (r.nbits / 8 * 8)) % 2 ^ k) ∧ (u = (((s.setFld F.NFC_COLL_CL r.level).setBit F.NFC_COLL_BCCCOL b).setFld F.NFC_COLL_POS k).setRd { r with known := m + 2 ^ k, nbits := k + 1 }))
    ∧ (∃ (s : Chip) (r : Reader) (data : List Byte), (r = s.nfc.rd) ∧ (r.ph = RdPhase.select) ∧ (r.frameEnd ≤ s.now) ∧ (bitOf (octAt data 0) 2 = true) ∧ (r.level = 3))
    ∧ (∃ (s : Chip) (r : Reader) (data : List Byte), (r = s.nfc.rd) ∧ (r.ph = RdPhase.select) ∧ (r.frameEnd ≤ s.now) ∧ (bitOf (octAt data 0) 2 = true) ∧ (r.level ≠ 3))
    ∧ (∃ (s : Chip) (r : Reader) (data : List Byte), (r = s.nfc.rd) ∧ (r.ph = RdPhase.select) ∧ (r.frameEnd ≤ s.now) ∧ (bitOf (octAt data 0) 2 = false))
    ∧ (∃ (s : Chip) (r : Reader), (r = s.nfc.rd) ∧ (r.ph = RdPhase.rats) ∧ (r.frameEnd ≤ s.now))
    ∧ (∃ (s : Chip) (r : Reader), (r = s.nfc.rd) ∧ (r.ph = RdPhase.xchg) ∧ (r.frameEnd ≤ s.now))
    ∧ (∃ (s : Chip), (s.nfc.rd.ph ≠ RdPhase.ping ∨ Option.any (fun (t : Nat) => decide (t ≤ s.now)) s.nfc.rd.due = false))
    ∧ (∃ (s : Chip) (u : Chip) (amp : Nat) (phase : Nat), ((s.nfc.rd.ph = RdPhase.ping) ∧ (Option.any (fun (t : Nat) => decide (t ≤ s.now)) s.nfc.rd.due = true) ∧ (s.nfc.pollNext = false)) ∧ (u = ((((((s.setRd { ph := RdPhase.off, due := none, retries := 0, found := 0, level := 1, known := 0, nbits := 0, uid := [], atqa := 0, sak := 0, stamp := none, ats := [], txRest := [], rx := [], blk := false, pcb := 0, sent := [], frameEnd := 0, ready := 0, lastI := [], close := false, endStamp := none, auto := none }).setFld F.NFC_STAT_RDSTATE 0).release 7).pingHfOff.setFld F.NFC_PMEAS_AMP amp).setFld F.NFC_PMEAS_PHASE phase).setBit F.NFC_PMEAS_DET false).detectField) ∧ (u.bit F.NFC_BASE_VALID = false) ∧ (u.nfc.first.length < 7))
    ∧ (∃ (s : Chip) (u : Chip) (amp : Nat) (phase : Nat) (v : Chip), ((s.nfc.rd.ph = RdPhase.ping) ∧ (Option.any (fun (t : Nat) => decide (t ≤ s.now)) s.nfc.rd.due = true) ∧ (s.nfc.pollNext = false)) ∧ (u = ((((((s.setRd { ph := RdPhase.off, due := none, retries := 0, found := 0, level := 1, known := 0, nbits := 0, uid := [], atqa := 0, sak := 0, stamp := none, ats := [], txRest := [], rx := [], blk := false, pcb := 0, sent := [], frameEnd := 0, ready := 0, lastI := [], close := false, endStamp := none, auto := none }).setFld F.NFC_STAT_RDSTATE 0).release 7).pingHfOff.setFld F.NFC_PMEAS_AMP amp).setFld F.NFC_PMEAS_PHASE phase).setBit F.NFC_PMEAS_DET false).detectField) ∧ ((u.bit F.NFC_BASE_VALID = true) ∧ (u.pingDetects amp phase = true)) ∧ (v = (((u.setBit F.NFC_PMEAS_DET true).count F.NFC_CNT_DETECT).occ 75).wakeEvent 7 12) ∧ (v.bit F.NFC_PING_AUTOPOLL = false))
    ∧ (∃ (s : Chip) (u : Chip) (amp : Nat) (phase : Nat), ((s.nfc.rd.ph = RdPhase.ping) ∧ (Option.any (fun (t : Nat) => decide (t ≤ s.now)) s.nfc.rd.due = true) ∧ (s.nfc.pollNext = false)) ∧ (u = ((((((s.setRd { ph := RdPhase.off, due := none, retries := 0, found := 0, level := 1, known := 0, nbits := 0, uid := [], atqa := 0, sak := 0, stamp := none, ats := [], txRest := [], rx := [], blk := false, pcb := 0, sent := [], frameEnd := 0, ready := 0, lastI := [], close := false, endStamp := none, auto := none }).setFld F.NFC_STAT_RDSTATE 0).release 7).pingHfOff.setFld F.NFC_PMEAS_AMP amp).setFld F.NFC_PMEAS_PHASE phase).setBit F.NFC_PMEAS_DET false).detectField) ∧ (u.bit F.NFC_BASE_VALID = true) ∧ (u.pingDetects amp phase = false))
    ∧ (∃ (s : Chip) (u : Chip), (u = s.setNfc ({ s.nfc with pingNext := Option.map (fun (t : Nat) => max (t + 4096 * s.fld F.NFC_PING_INTERVAL) (125 * s.owl.stb + 1)) s.nfc.pingNext })) ∧ (Option.any (fun (t : Nat) => decide (t ≤ 125 * s.owl.stb)) s.nfc.pingNext = true) ∧ (s.bit F.NFC_CTL_EN = true) ∧ (s.bit F.NFC_CTL_READER = true) ∧ (s.bit F.NFC_CTL_PING = true) ∧ (s.nfc.rd.ph = RdPhase.off) ∧ (s.bit F.NFC_STAT_EXTFLD = false) ∧ (s.pwr.st = PState.run ∨ s.pwr.st = PState.sleep))
    ∧ (∃ (s : Chip) (u : Chip), (u = s.setNfc ({ s.nfc with pingNext := Option.map (fun (t : Nat) => max (t + 4096 * s.fld F.NFC_PING_INTERVAL) (125 * s.owl.stb + 1)) s.nfc.pingNext })) ∧ (s.bit F.NFC_CTL_PING = false ∨ s.nfc.rd.ph ≠ RdPhase.off ∨ s.bit F.NFC_STAT_EXTFLD = true ∨ Option.any (fun (t : Nat) => decide (t ≤ 125 * s.owl.stb)) s.nfc.pingNext = false)) :=
  ⟨⟨(let s : Chip := {}; s.setFld F.NFC_CFG_OWNER 1), Agent.foxA, _, by decide +kernel, rfl⟩,
    ⟨(let s : Chip := {}; s.setFld F.NFC_CFG_OWNER 1), Agent.foxA, _, by decide +kernel, rfl⟩,
    ⟨{}, Agent.foxB, _, by decide +kernel, rfl⟩,
    ⟨{}, Agent.foxB, _, by decide +kernel, rfl⟩,
    ⟨{}, Agent.foxB, _, by decide +kernel, rfl⟩,
    ⟨{}, Agent.foxB, _, by decide +kernel, rfl⟩,
    ⟨{}, Agent.foxA, by decide +kernel⟩,
    ⟨{}, {}, Agent.foxA, _, by decide +kernel, rfl, by decide +kernel⟩,
    ⟨{}, (let s : Chip := {}; let s := { s with cfg := { s.cfg with prov := 0x3F47 } }; let s := s.setReg (R.QUE_CFG 16) (W (4 <<< 29 ||| 4 <<< 25 ||| 1 <<< 24)); let s := s.setFld (F.QUE_BUF_BUFSZ 16) 3; let s := s.setBit F.NFC_CTL_TAG true; s.setFld (F.EGY_DECL_PEAK 8) 120), .foxA, _, _, by decide +kernel, rfl, by decide +kernel, rfl, by decide +kernel⟩,
    ⟨{}, {}, Agent.foxA, _, by decide +kernel, rfl, by decide +kernel⟩,
    ⟨{}, (let s : Chip := {}; { s with nfc := { s.nfc with rd := { ph := RdPhase.pingClaim, due := none, retries := 0, found := 0, level := 0, known := 0, nbits := 0, uid := [], atqa := 0, sak := 0, stamp := none, ats := [], txRest := [], rx := [], blk := false, pcb := 0, sent := [], frameEnd := 0, ready := 0, lastI := [], close := false, endStamp := none, auto := none } } }), Agent.foxA, _, by decide +kernel, rfl, by decide +kernel⟩,
    ⟨{}, (let s : Chip := {}; let s := { s with nfc := { s.nfc with rd := { s.nfc.rd with ph := RdPhase.claim } } }; { s with nfc := { s.nfc with rd := { s.nfc.rd with frameEnd := 1 } } }), Agent.foxA, _, by decide +kernel, rfl, by decide +kernel⟩,
    ⟨{}, (let s : Chip := {}; { s with nfc := { s.nfc with rd := { s.nfc.rd with ph := RdPhase.claim } } }), Agent.foxA, _, by decide +kernel, rfl, by decide +kernel⟩,
    ⟨{}, Agent.foxA, by decide +kernel⟩,
    ⟨_, Agent.foxA, (let s : Chip := {}; let s := s.setFld F.NFC_CTL_READER 1; s.setFld F.NFC_CTL_EN 1), by decide +kernel, rfl⟩,
    ⟨(let s : Chip := {}; let s := s.setReg R.NFC_CTL (W 5); { s with nfc := { s.nfc with rd := { ph := RdPhase.pingClaim, due := none, retries := 0, found := 0, level := 0, known := 0, nbits := 0, uid := [], atqa := 0, sak := 0, stamp := none, ats := [], txRest := [], rx := [], blk := false, pcb := 0, sent := [], frameEnd := 0, ready := 0, lastI := [], close := false, endStamp := none, auto := none } } }), Agent.foxA, _, by decide +kernel, rfl⟩,
    ⟨(let s : Chip := {}; let s := s.setFld F.NFC_CTL_EN 1; let s := s.setFld F.NFC_CTL_READER 1; { s with nfc := { s.nfc with rd := { s.nfc.rd with ph := RdPhase.ping } } }), Agent.foxA, by decide +kernel⟩,
    ⟨{}, Agent.foxA, by decide +kernel⟩,
    ⟨(let s : Chip := {}; { s with nfc := { s.nfc with rd := { s.nfc.rd with ph := RdPhase.card } } }), Agent.foxA, by decide +kernel⟩,
    ⟨(let s : Chip := {}; let s := { s with nfc := { s.nfc with rd := { s.nfc.rd with ph := .card } } }; let s := s.setFld F.NFC_RDX_BUF 0x40000; let s := s.setFld F.NFC_RDX_LEN 4; { s with bear := { s.bear with grants := [{ who := 7, power := 0, dur := 0, cont := false, start := 10 ^ 9, cls := 0, arrival := 0, marked := false }] } }), .foxA, _, _, by decide +kernel, rfl, by decide +kernel, rfl⟩,
    ⟨{}, Agent.foxA, by decide +kernel⟩,
    ⟨(let s : Chip := {}; { s with nfc := { s.nfc with rd := { s.nfc.rd with ph := RdPhase.field } } }), Agent.foxA, by decide +kernel⟩,
    ⟨(let s : Chip := {}; let s := { s with nfc := { s.nfc with rd := { ph := RdPhase.reqa, due := none, retries := 0, found := 0, level := 0, known := 0, nbits := 0, uid := [], atqa := 0, sak := 0, stamp := none, ats := [], txRest := [], rx := [], blk := false, pcb := 0, sent := [], frameEnd := 0, ready := 0, lastI := [], close := false, endStamp := none, auto := none } } }; { s with nfc := { s.nfc with rd := { s.nfc.rd with frameEnd := 1 } } }), Agent.foxA, by decide +kernel⟩,
    ⟨(let s : Chip := {}; { s with nfc := { s.nfc with rd := { ph := RdPhase.reqa, due := none, retries := 0, found := 0, level := 0, known := 0, nbits := 0, uid := [], atqa := 0, sak := 0, stamp := none, ats := [], txRest := [], rx := [], blk := false, pcb := 0, sent := [0#8, 0#8, 0#8, 0#8, 0#8, 0#8, 0#8, 0#8, 0#8, 0#8, 0#8, 0#8, 0#8, 0#8, 0#8, 0#8, 0#8, 0#8, 0#8, 0#8, 0#8, 0#8, 0#8, 0#8, 0#8, 0#8, 0#8, 0#8, 0#8, 0#8, 0#8, 0#8, 0#8, 0#8, 0#8, 0#8, 0#8, 0#8, 0#8, 0#8], frameEnd := 0, ready := 0, lastI := [], close := false, endStamp := none, auto := none } } }), Agent.foxA, by decide +kernel⟩,
    ⟨{}, _, rfl, by decide +kernel⟩,
    ⟨(let s : Chip := {}; let s := { s with now := s.now + 3 }; let s := { s with nfc := { s.nfc with rd := { s.nfc.rd with due := some 0 } } }; { s with nfc := { s.nfc with rd := { s.nfc.rd with ph := RdPhase.guard } } }), _, rfl, by decide +kernel⟩,
    ⟨{}, _, rfl, by decide +kernel⟩,
    ⟨{}, _, rfl, by decide +kernel⟩,
    ⟨(let s : Chip := {}; { s with nfc := { s.nfc with rd := { s.nfc.rd with frameEnd := 1 } } }), _, rfl, by decide +kernel⟩,
    ⟨(let s : Chip := {}; let s := { s with now := s.now + 5 }; { s with nfc := { s.nfc with rd := { ph := RdPhase.reqa, due := some 0, retries := 1, found := 0, level := 0, known := 0, nbits := 0, uid := [], atqa := 0, sak := 0, stamp := none, ats := [], txRest := [], rx := [], blk := false, pcb := 0, sent := [], frameEnd := 0, ready := 0, lastI := [], close := false, endStamp := none, auto := none } } }), _, _, rfl, by decide +kernel, rfl, by decide +kernel⟩,
    ⟨(let s : Chip := {}; let s := { s with nfc := { s.nfc with rd := { ph := RdPhase.off, due := some 0, retries := 1, found := 0, level := 0, known := 0, nbits := 0, uid := [], atqa := 0, sak := 0, stamp := none, ats := [], txRest := [], rx := [], blk := false, pcb := 0, sent := [], frameEnd := 0, ready := 0, lastI := [], close := false, endStamp := none, auto := none } } }; let s := { s with now := 0 }; { s with nfc := { s.nfc with rd := { s.nfc.rd with ph := RdPhase.anti } } }), _, _, rfl, by decide +kernel, rfl, by decide +kernel⟩,
    ⟨(let s : Chip := {}; let s := { s with now := s.now + 2 }; { s with nfc := { s.nfc with rd := { ph := RdPhase.select, due := some 0, retries := 1, found := 0, level := 0, known := 0, nbits := 0, uid := [], atqa := 0, sak := 0, stamp := none, ats := [], txRest := [], rx := [], blk := false, pcb := 0, sent := [], frameEnd := 0, ready := 0, lastI := [], close := false, endStamp := none, auto := none } } }), _, _, rfl, by decide +kernel, rfl, by decide +kernel⟩,
    ⟨(let s : Chip := {}; let s := { s with now := 1 }; let s := { s with nfc := { s.nfc with rd := { ph := RdPhase.off, due := some 0, retries := 1, found := 0, level := 0, known := 0, nbits := 0, uid := [], atqa := 0, sak := 0, stamp := none, ats := [], txRest := [], rx := [], blk := false, pcb := 0, sent := [], frameEnd := 0, ready := 0, lastI := [], close := false, endStamp := none, auto := none } } }; { s with nfc := { s.nfc with rd := { s.nfc.rd with ph := RdPhase.rats } } }), _, _, rfl, by decide +kernel, rfl, by decide +kernel⟩,
    ⟨(let s : Chip := {}; let s := { s with now := s.now + 4 }; let s := { s with nfc := { s.nfc with rd := { ph := RdPhase.off, due := some 0, retries := 1, found := 0, level := 0, known := 0, nbits := 0, uid := [], atqa := 0, sak := 0, stamp := none, ats := [], txRest := [], rx := [], blk := false, pcb := 0, sent := [], frameEnd := 0, ready := 0, lastI := [], close := false, endStamp := none, auto := none } } }; { s with nfc := { s.nfc with rd := { s.nfc.rd with ph := RdPhase.desel } } }), _, _, rfl, by decide +kernel, rfl, by decide +kernel⟩,
    ⟨(let s : Chip := {}; let s := { s with now := 2 }; { s with nfc := { s.nfc with rd := { ph := RdPhase.xchg, due := some 0, retries := 1, found := 0, level := 0, known := 0, nbits := 0, uid := [], atqa := 0, sak := 0, stamp := none, ats := [], txRest := [], rx := [], blk := false, pcb := 0, sent := [], frameEnd := 0, ready := 0, lastI := [], close := false, endStamp := none, auto := none } } }), _, rfl, by decide +kernel⟩,
    ⟨(let s : Chip := {}; let s := { s with nfc := { s.nfc with rd := { ph := RdPhase.reqa, due := some 0, retries := 0, found := 0, level := 0, known := 0, nbits := 0, uid := [], atqa := 0, sak := 0, stamp := none, ats := [], txRest := [], rx := [], blk := false, pcb := 0, sent := [], frameEnd := 0, ready := 0, lastI := [], close := false, endStamp := none, auto := none } } }; let s := { s with now := s.now + 0 }; let s := { s with now := s.now + 0 }; { s with nfc := { s.nfc with rd := { s.nfc.rd with retries := 0 } } }), _, rfl, by decide +kernel⟩,
    ⟨(let s : Chip := {}; let s := { s with now := 4 }; let s := { s with nfc := { s.nfc with rd := { s.nfc.rd with due := some 0 } } }; { s with nfc := { s.nfc with rd := { s.nfc.rd with ph := RdPhase.rats } } }), _, rfl, by decide +kernel⟩,
    ⟨(let s : Chip := {}; let s := { s with now := s.now + 4 }; let s := { s with now := s.now + 4 }; let s := { s with nfc := { s.nfc with rd := { ph := RdPhase.desel, due := some 0, retries := 0, found := 0, level := 0, known := 0, nbits := 0, uid := [], atqa := 0, sak := 0, stamp := none, ats := [], txRest := [], rx := [], blk := false, pcb := 0, sent := [], frameEnd := 0, ready := 0, lastI := [], close := false, endStamp := none, auto := none } } }; { s with nfc := { s.nfc with rd := { s.nfc.rd with retries := 0 } } }), _, rfl, by decide +kernel⟩,
    ⟨(let s : Chip := {}; let s := { s with nfc := { s.nfc with rd := { s.nfc.rd with ph := RdPhase.anti } } }; let s := { s with nfc := { s.nfc with rd := { s.nfc.rd with due := some 0 } } }; { s with now := s.now + 0 }), _, rfl, by decide +kernel⟩,
    ⟨(let s : Chip := {}; let s := { s with now := s.now + 16211 }; let s := { s with nfc := { s.nfc with rd := { ph := RdPhase.off, due := some 0, retries := 0, found := 0, level := 0, known := 0, nbits := 0, uid := [], atqa := 0, sak := 0, stamp := none, ats := [], txRest := [], rx := [], blk := false, pcb := 0, sent := [], frameEnd := 0, ready := 0, lastI := [], close := false, endStamp := none, auto := none } } }; { s with nfc := { s.nfc with rd := { s.nfc.rd with ph := RdPhase.xchg } } }), _, rfl, by decide +kernel⟩,
    ⟨(let s : Chip := {}; { s with nfc := { s.nfc with rd := { s.nfc.rd with ph := RdPhase.reqa } } }), _, rfl, by decide +kernel⟩,
    ⟨(let s : Chip := {}; { s with nfc := { s.nfc with rd := { s.nfc.rd with ph := RdPhase.anti } } }), _, [], false, 0, _, _, rfl, by decide +kernel, rfl, rfl⟩,
    ⟨(let s : Chip := {}; let s := { s with nfc := { s.nfc with rd := { s.nfc.rd with level := 3 } } }; { s with nfc := { s.nfc with rd := { s.nfc.rd with ph := RdPhase.select } } }), _, [4#8, 0#8, 0#8, 0#8, 0#8, 0#8, 0#8, 0#8, 0#8, 0#8, 0#8, 0#8, 0#8, 0#8, 0#8, 0#8, 0#8, 0#8, 0#8, 0#8, 0#8, 0#8, 0#8, 0#8, 0#8, 0#8, 0#8, 0#8, 0#8, 0#8, 0#8, 0#8, 0#8, 0#8, 0#8, 0#8, 0#8, 0#8, 0#8, 0#8], rfl, by decide +kernel⟩,
    ⟨(let s : Chip := {}; { s with nfc := { s.nfc with rd := { ph := RdPhase.select, due := none, retries := 0, found := 0, level := 0, known := 0, nbits := 0, uid := [], atqa := 0, sak := 0, stamp := none, ats := [], txRest := [], rx := [], blk := false, pcb := 0, sent := [0#8, 0#8, 0#8, 0#8, 0#8, 0#8, 0#8, 0#8, 0#8, 0#8, 0#8, 0#8, 0#8, 0#8, 0#8, 0#8, 0#8, 0#8, 0#8, 0#8, 0#8, 0#8, 0#8, 0#8, 0#8, 0#8, 0#8, 0#8, 0#8, 0#8, 0#8, 0#8, 0#8, 0#8, 0#8, 0#8, 0#8, 0#8, 0#8, 0#8], frameEnd := 0, ready := 0, lastI := [], close := false, endStamp := none, auto := none } } }), _, [4#8, 0#8, 0#8, 0#8, 0#8, 0#8, 0#8, 0#8, 0#8, 0#8, 0#8, 0#8, 0#8, 0#8, 0#8, 0#8, 0#8, 0#8, 0#8, 0#8, 0#8, 0#8, 0#8, 0#8, 0#8, 0#8, 0#8, 0#8, 0#8, 0#8, 0#8, 0#8, 0#8, 0#8, 0#8, 0#8, 0#8, 0#8, 0#8, 0#8], rfl, by decide +kernel⟩,
    ⟨(let s : Chip := {}; { s with nfc := { s.nfc with rd := { s.nfc.rd with ph := RdPhase.select } } }), _, [], rfl, by decide +kernel⟩,
    ⟨(let s : Chip := {}; { s with nfc := { s.nfc with rd := { ph := RdPhase.rats, due := none, retries := 0, found := 0, level := 0, known := 0, nbits := 0, uid := [], atqa := 0, sak := 0, stamp := none, ats := [], txRest := [], rx := [], blk := false, pcb := 0, sent := [0#8, 0#8, 0#8, 0#8, 0#8, 0#8, 0#8, 0#8, 0#8, 0#8, 0#8, 0#8, 0#8, 0#8, 0#8, 0#8, 0#8, 0#8, 0#8, 0#8, 0#8, 0#8, 0#8, 0#8, 0#8, 0#8, 0#8, 0#8, 0#8, 0#8, 0#8, 0#8, 0#8, 0#8, 0#8, 0#8, 0#8, 0#8, 0#8, 0#8], frameEnd := 0, ready := 0, lastI := [], close := false, endStamp := none, auto := none } } }), _, rfl, by decide +kernel⟩,
    ⟨(let s : Chip := {}; { s with nfc := { s.nfc with rd := { ph := RdPhase.xchg, due := none, retries := 0, found := 0, level := 0, known := 0, nbits := 0, uid := [], atqa := 0, sak := 0, stamp := none, ats := [], txRest := [], rx := [], blk := false, pcb := 0, sent := [0#8, 0#8, 0#8, 0#8, 0#8, 0#8, 0#8, 0#8, 0#8, 0#8, 0#8, 0#8, 0#8, 0#8, 0#8, 0#8, 0#8, 0#8, 0#8, 0#8, 0#8, 0#8, 0#8, 0#8, 0#8, 0#8, 0#8, 0#8, 0#8, 0#8, 0#8, 0#8, 0#8, 0#8, 0#8, 0#8, 0#8, 0#8, 0#8, 0#8], frameEnd := 0, ready := 0, lastI := [], close := false, endStamp := none, auto := none } } }), _, rfl, by decide +kernel⟩,
    ⟨{}, by decide +kernel⟩,
    ⟨(let s : Chip := {}; let s := { s with now := s.now + 3 }; let s := { s with nfc := { s.nfc with rd := { s.nfc.rd with due := some 0 } } }; { s with nfc := { s.nfc with rd := { s.nfc.rd with ph := RdPhase.ping } } }), _, 0, 0, by decide +kernel, rfl, by decide +kernel⟩,
    ⟨(let s : Chip := {}; let s := { s with now := s.now + 76 }; let s := s.setReg R.NFC_PING (W 0); let s := s.setFld F.NFC_BASE_VALID 1; { s with nfc := { s.nfc with rd := { ph := RdPhase.ping, due := some 0, retries := 0, found := 0, level := 0, known := 0, nbits := 0, uid := [], atqa := 0, sak := 0, stamp := none, ats := [], txRest := [], rx := [], blk := false, pcb := 0, sent := [], frameEnd := 0, ready := 0, lastI := [], close := false, endStamp := none, auto := none } } }), _, 0, 1, _, by decide +kernel, rfl, by decide +kernel, rfl, by decide +kernel⟩,
    ⟨(let s : Chip := {}; let s := s.setFld F.NFC_PING_ATHR 200; let s := { s with now := s.now + 26 }; let s := s.setReg R.NFC_BASE (W 36); let s := { s with nfc := { s.nfc with rd := { s.nfc.rd with due := some 0 } } }; let s := { s with nfc := { s.nfc with rd := { s.nfc.rd with ph := RdPhase.ping } } }; s.setFld F.NFC_BASE_VALID 1), _, 29, 0, by decide +kernel, rfl, by decide +kernel⟩,
    ⟨(let s : Chip := {}; let s := s.setReg R.NFC_CTL (W 4); let s := s.setFld F.NFC_CTL_EN 1; let s := { s with owl := { s.owl with stb := 1 } }; let s := s.setFld F.NFC_CTL_PING 1; { s with nfc := { s.nfc with pingNext := some 0 } }), _, rfl, by decide +kernel⟩,
    ⟨{}, _, rfl, by decide +kernel⟩⟩

theorem wit_TimeBases :
    (∃ (s : Chip) (ag : Agent) (n : Nat), (n < 8) ∧ (owns ag (s.timerOwner n) = true) ∧ (s.bit (F.TMRN_CTL_EN n) = true))
    ∧ (∃ (s : Chip) (ag : Agent) (n : Nat), (n < 8) ∧ (owns ag (s.timerOwner n) = true) ∧ (s.bit (F.TMRN_CTL_EN n) = false) ∧ (s.fld (F.TMRN_CFG_SRC n) = 3 ∨ 39 < s.fld (F.TMRN_CFG_EVSEL n)))
    ∧ (∃ (s : Chip) (ag : Agent) (n : Nat), (n < 8) ∧ (owns ag (s.timerOwner n) = true) ∧ (s.bit (F.TMRN_CTL_EN n) = false) ∧ (s.fld (F.TMRN_CFG_SRC n) ≠ 3) ∧ (s.fld (F.TMRN_CFG_EVSEL n) ≤ 39) ∧ (s.pairHigh n = true))
    ∧ (∃ (s : Chip) (ag : Agent) (n : Nat), (n < 8) ∧ (owns ag (s.timerOwner n) = true) ∧ (s.bit (F.TMRN_CTL_EN n) = false) ∧ (s.tmrCheck n ≠ Rc.OK))
    ∧ (∃ (s : Chip) (ag : Agent) (n : Nat), (n < 8) ∧ (owns ag (s.timerOwner n) = true) ∧ (s.bit (F.TMRN_CTL_EN n) = false) ∧ (s.tmrCheck n = Rc.OK) ∧ (s.fld (F.TMRN_CFG_SRC n) = 1) ∧ (s.fld F.PMU_REQ_DEPTH < 2))
    ∧ (∃ (s : Chip) (ag : Agent) (n : Nat), (n < 8) ∧ (owns ag (s.timerOwner n) = true) ∧ (s.bit (F.TMRN_CTL_EN n) = false) ∧ (s.tmrCheck n = Rc.OK) ∧ (s.fld (F.TMRN_CFG_SRC n) = 1) ∧ (2 ≤ s.fld F.PMU_REQ_DEPTH))
    ∧ (∃ (s : Chip) (ag : Agent) (n : Nat), (n < 8) ∧ (owns ag (s.timerOwner n) = true) ∧ (s.bit (F.TMRN_CTL_EN n) = false) ∧ (s.tmrCheck n = Rc.OK) ∧ (s.fld (F.TMRN_CFG_SRC n) ≠ 1) ∧ (s.holds 11 = true) ∧ (s.fld F.PMU_REQ_DEPTH = 0))
    ∧ (∃ (s : Chip) (ag : Agent) (n : Nat), (n < 8) ∧ (owns ag (s.timerOwner n) = true) ∧ (s.bit (F.TMRN_CTL_EN n) = false) ∧ (s.tmrCheck n = Rc.OK) ∧ (s.fld (F.TMRN_CFG_SRC n) ≠ 1) ∧ (s.holds 11 = true) ∧ (1 ≤ s.fld F.PMU_REQ_DEPTH))
    ∧ (∃ (s : Chip) (ag : Agent) (n : Nat) (y : Chip), ((n < 8) ∧ (owns ag (s.timerOwner n) = true) ∧ (s.bit (F.TMRN_CTL_EN n) = false) ∧ (s.tmrCheck n = Rc.OK) ∧ (s.fld (F.TMRN_CFG_SRC n) ≠ 1) ∧ (s.holds 11 = false)) ∧ (y = s.claimNow 11 (s.fld (F.EGY_DECL_PEAK 11))) ∧ (y.holds 11 = false))
    ∧ (∃ (s : Chip) (ag : Agent) (n : Nat) (y : Chip), ((n < 8) ∧ (owns ag (s.timerOwner n) = true) ∧ (s.bit (F.TMRN_CTL_EN n) = false) ∧ (s.tmrCheck n = Rc.OK) ∧ (s.fld (F.TMRN_CFG_SRC n) ≠ 1) ∧ (s.holds 11 = false)) ∧ (y = s.claimNow 11 (s.fld (F.EGY_DECL_PEAK 11))) ∧ (y.holds 11 = true) ∧ (y.fld F.PMU_REQ_DEPTH = 0))
    ∧ (∃ (s : Chip) (ag : Agent) (n : Nat) (y : Chip), ((n < 8) ∧ (owns ag (s.timerOwner n) = true) ∧ (s.bit (F.TMRN_CTL_EN n) = false) ∧ (s.tmrCheck n = Rc.OK) ∧ (s.fld (F.TMRN_CFG_SRC n) ≠ 1) ∧ (s.holds 11 = false)) ∧ (y = s.claimNow 11 (s.fld (F.EGY_DECL_PEAK 11))) ∧ (y.holds 11 = true) ∧ (1 ≤ y.fld F.PMU_REQ_DEPTH))
    ∧ (∃ (s : Chip) (n : Nat) (x : Chip), ((n < 8) ∧ (s.pairLow n = false)) ∧ (x = (s.setBit (F.TMRN_CTL_EN n) true).setBit (F.TMRN_STAT_ACTIVE n) true))
    ∧ (∃ (s : Chip) (ag : Agent) (n : Nat) (c : Nat) (v : Word) (x : Chip), ((n < 8) ∧ (c < 2)) ∧ (x = (s.setReg (R.TMRN_CMP0 n + c) v).tmrReason n Rc.OK) ∧ (owns ag (s.timerOwner n) = false))
    ∧ (∃ (s : Chip) (ag : Agent) (n : Nat) (c : Nat) (v : Word) (x : Chip), ((n < 8) ∧ (c < 2)) ∧ (x = (s.setReg (R.TMRN_CMP0 n + c) v).tmrReason n Rc.OK) ∧ (owns ag (s.timerOwner n) = true) ∧ (x.tmrOn n = false))
    ∧ (∃ (s : Chip) (ag : Agent) (n : Nat) (c : Nat) (v : Word) (x : Chip), ((n < 8) ∧ (c < 2)) ∧ (x = (s.setReg (R.TMRN_CMP0 n + c) v).tmrReason n Rc.OK) ∧ (owns ag (s.timerOwner n) = true) ∧ (x.tmrOn n = true) ∧ (x.pairHigh n = true))
    ∧ (∃ (s : Chip) (ag : Agent) (n : Nat) (c : Nat) (v : Word) (x : Chip), ((n < 8) ∧ (c < 2)) ∧ (x = (s.setReg (R.TMRN_CMP0 n + c) v).tmrReason n Rc.OK) ∧ (owns ag (s.timerOwner n) = true) ∧ (x.tmrOn n = true) ∧ (x.pairHigh n = false) ∧ (x.pairLow n = false))
    ∧ (∃ (s : Chip) (n : Nat), (s.tmrOn n = false ∨ s.pairHigh n = true))
    ∧ (∃ (s : Chip) (n : Nat) (v : Nat) (x : Chip), ((s.tmrOn n = true) ∧ (s.pairHigh n = false)) ∧ (v = (s.tmrValue R.TMRN_COUNT n + 1) % s.tmrModulus n) ∧ (((s.timer n).pl0 = none) ∧ ((s.timer n).pl1 = none)) ∧ (x = (s.setTmrValue R.TMRN_COUNT n v).setTimer n ({ (s.timer n) with pres := 0 })) ∧ ((s.timer n).act0 ≠ v) ∧ ((s.timer n).act1 ≠ v) ∧ (v ≠ 0))
    ∧ (∃ (s : Chip) (n : Nat) (v : Nat) (x : Chip), ((s.tmrOn n = true) ∧ (s.pairHigh n = false)) ∧ (v = (s.tmrValue R.TMRN_COUNT n + 1) % s.tmrModulus n) ∧ (((s.timer n).pl0 = none) ∧ ((s.timer n).pl1 = none)) ∧ (x = (s.setTmrValue R.TMRN_COUNT n v).setTimer n ({ (s.timer n) with pres := 0 })) ∧ ((s.timer n).act0 = v) ∧ ((s.timer n).act1 ≠ v) ∧ (v ≠ 0))
    ∧ (∃ (s : Chip) (n : Nat) (v : Nat) (x : Chip), ((s.tmrOn n = true) ∧ (s.pairHigh n = false)) ∧ (v = (s.tmrValue R.TMRN_COUNT n + 1) % s.tmrModulus n) ∧ (((s.timer n).pl0 = none) ∧ ((s.timer n).pl1 = none)) ∧ (x = (s.setTmrValue R.TMRN_COUNT n v).setTimer n ({ (s.timer n) with pres := 0 })) ∧ ((s.timer n).act0 ≠ v) ∧ ((s.timer n).act1 = v) ∧ (v ≠ 0))
    ∧ (∃ (s : Chip) (n : Nat) (v : Nat) (x : Chip), ((s.tmrOn n = true) ∧ (s.pairHigh n = false)) ∧ (v = (s.tmrValue R.TMRN_COUNT n + 1) % s.tmrModulus n) ∧ (((s.timer n).pl0 = none) ∧ ((s.timer n).pl1 = none)) ∧ (x = (s.setTmrValue R.TMRN_COUNT n v).setTimer n ({ (s.timer n) with pres := 0 })) ∧ ((s.timer n).act0 ≠ v) ∧ ((s.timer n).act1 ≠ v) ∧ (v = 0))
    ∧ (∃ (s : Chip) (n : Nat), (n < 8) ∧ (s.pinOf (Mean.TMR_CAP n) = none))
    ∧ (∃ (s : Chip) (n : Nat) (b : Bool) (p : Nat) (x : Chip), (n < 8) ∧ (s.pinOf (Mean.TMR_CAP n) = some p) ∧ (x = s.drivePin p b) ∧ (s.inPin p = b ∨ x.inPin p ≠ b ∨ s.bit (F.TMRN_CFG_CAPEN n) = false ∨ s.tmrOn n = false ∨ s.pairHigh n = true))
    ∧ (∃ (s : Chip) (n : Nat) (b : Bool) (p : Nat) (x : Chip), (n < 8) ∧ (s.pinOf (Mean.TMR_CAP n) = some p) ∧ (x = s.drivePin p b) ∧ ((s.inPin p ≠ b) ∧ (x.inPin p = b) ∧ (s.bit (F.TMRN_CFG_CAPEN n) = true) ∧ (s.tmrOn n = true) ∧ (s.pairHigh n = false)) ∧ (b = true) ∧ (s.bit (F.TMRN_FLAG_NEWR n) = false))
    ∧ (∃ (s : Chip) (n : Nat) (b : Bool) (p : Nat) (x : Chip), (n < 8) ∧ (s.pinOf (Mean.TMR_CAP n) = some p) ∧ (x = s.drivePin p b) ∧ ((s.inPin p ≠ b) ∧ (x.inPin p = b) ∧ (s.bit (F.TMRN_CFG_CAPEN n) = true) ∧ (s.tmrOn n = true) ∧ (s.pairHigh n = false)) ∧ (b = true) ∧ (s.bit (F.TMRN_FLAG_NEWR n) = true))
    ∧ (∃ (s : Chip) (n : Nat) (b : Bool) (p : Nat) (x : Chip), (n < 8) ∧ (s.pinOf (Mean.TMR_CAP n) = some p) ∧ (x = s.drivePin p b) ∧ ((s.inPin p ≠ b) ∧ (x.inPin p = b) ∧ (s.bit (F.TMRN_CFG_CAPEN n) = true) ∧ (s.tmrOn n = true) ∧ (s.pairHigh n = false)) ∧ (b = false) ∧ (s.bit (F.TMRN_FLAG_NEWF n) = false))
    ∧ (∃ (s : Chip) (n : Nat) (b : Bool) (p : Nat) (x : Chip), (n < 8) ∧ (s.pinOf (Mean.TMR_CAP n) = some p) ∧ (x = s.drivePin p b) ∧ ((s.inPin p ≠ b) ∧ (x.inPin p = b) ∧ (s.bit (F.TMRN_CFG_CAPEN n) = true) ∧ (s.tmrOn n = true) ∧ (s.pairHigh n = false)) ∧ (b = false) ∧ (s.bit (F.TMRN_FLAG_NEWF n) = true))
    ∧ (∃ (s : Chip) (v : Word) (new : Nat), (new = BitVec.toNat v % 2 ^ 24) ∧ (s.lockedSec 8 = true))
    ∧ (∃ (s : Chip) (ag : Agent) (v : Word) (new : Nat), (new = BitVec.toNat v % 2 ^ 24) ∧ (s.lockedSec 8 = false) ∧ (∀ (n : Nat), n < 8 → bits new (3 * n + 2) (3 * n) ≠ bits (BitVec.toNat (s.reg R.TMR_OWN)) (3 * n + 2) (3 * n) → owns ag (s.timerOwner n) = true ∧ s.tmrOn n = false) ∧ (∀ (n : Nat), n < 24 → (s.setReg R.TMR_OWN (W new)).timerPinBad (s.pinMap n) = false))
    ∧ (∃ (s : Chip) (ag : Agent) (v : Word) (new : Nat) (n : Nat) (n' : Nat), (new = BitVec.toNat v % 2 ^ 24) ∧ (s.lockedSec 8 = false) ∧ (∀ (n : Nat), n < 8 → bits new (3 * n + 2) (3 * n) ≠ bits (BitVec.toNat (s.reg R.TMR_OWN)) (3 * n + 2) (3 * n) → owns ag (s.timerOwner n) = true ∧ s.tmrOn n = false) ∧ (n < 8) ∧ (bits new (3 * n + 2) (3 * n) ≠ bits (BitVec.toNat (s.reg R.TMR_OWN)) (3 * n + 2) (3 * n)) ∧ (n' < 24) ∧ ((s.setReg R.TMR_OWN (W new)).timerPinBad (s.pinMap n') = true))
    ∧ (∃ (s : Chip) (ag : Agent) (v : Word) (new : Nat) (n : Nat), (new = BitVec.toNat v % 2 ^ 24) ∧ (s.lockedSec 8 = false) ∧ (n < 8) ∧ (bits new (3 * n + 2) (3 * n) ≠ bits (BitVec.toNat (s.reg R.TMR_OWN)) (3 * n + 2) (3 * n)) ∧ (owns ag (s.timerOwner n) = false))
    ∧ (∃ (s : Chip) (ag : Agent) (v : Word) (new : Nat) (n : Nat), (new = BitVec.toNat v % 2 ^ 24) ∧ (s.lockedSec 8 = false) ∧ (∀ (n : Nat), n < 8 → bits new (3 * n + 2) (3 * n) ≠ bits (BitVec.toNat (s.reg R.TMR_OWN)) (3 * n + 2) (3 * n) → owns ag (s.timerOwner n) = true) ∧ (n < 8) ∧ (bits new (3 * n + 2) (3 * n) ≠ bits (BitVec.toNat (s.reg R.TMR_OWN)) (3 * n + 2) (3 * n)) ∧ (s.tmrOn n = true))
    ∧ (∃ (s : Chip), (s.clk.lfOn = true))
    ∧ (∃ (s : Chip) (l : List LfDue) (y : Chip), (s.clk.lfOn = false) ∧ ((l, y) = { s with clk := { s.clk with lfOn := true, lfRc := false, lfxoOk := true, lfPhase := s.now } }.lfEdge))
    ∧ (∃ (s : Chip), (s.clk.lfOn = false) ∧ (s.now < s.clk.vaonAt + secs 1))
    ∧ (∃ (s : Chip) (x : Chip), ((s.clk.lfOn = false) ∧ (s.clk.vaonAt + secs 1 ≤ s.now)) ∧ (x = { s with clk := { s.clk with lfOn := true, lfRc := true } }))
    ∧ (∃ (s : Chip) (x : Chip), (x = { s with clk := { s.clk with lfRc := s.clk.lfOn, lfxoOk := false } }))
    ∧ (∃ (s : Chip) (x : Chip), (x = { s with clk := { s.clk with lfRc := false, lfxoOk := true, lfPhase := if s.clk.lfRc = true then s.now else s.clk.lfPhase } }))
    ∧ (∃ (s : Chip) (x : Chip) (y : Chip) (acc : Int) (m : Int), (acc = s.owl.rtcAcc + signed 10 (s.fld F.RTC_TRIM_TRIM) * 32768) ∧ (m = acc.tdiv 1000000) ∧ (x = { ((s.setReg R.RTC_SEC (s.reg R.RTC_SEC + 1)).setReg R.RTC_SUB 0) with owl := { s.owl with rtcAcc := acc - m * 1000000, rtcAdj := m, rtcHeld := 0 } }) ∧ (y = x.updateSqw.publish 120) ∧ (y.bit F.RTC_CFG_ALMEN = false ∨ y.reg R.RTC_ALARM ≠ s.reg R.RTC_SEC + 1))
    ∧ (∃ (s : Chip) (x : Chip) (y : Chip) (acc : Int) (m : Int), (acc = s.owl.rtcAcc + signed 10 (s.fld F.RTC_TRIM_TRIM) * 32768) ∧ (m = acc.tdiv 1000000) ∧ (x = { ((s.setReg R.RTC_SEC (s.reg R.RTC_SEC + 1)).setReg R.RTC_SUB 0) with owl := { s.owl with rtcAcc := acc - m * 1000000, rtcAdj := m, rtcHeld := 0 } }) ∧ (y = x.updateSqw.publish 120) ∧ (y.bit F.RTC_CFG_ALMEN = true) ∧ (y.reg R.RTC_ALARM = s.reg R.RTC_SEC + 1))
    ∧ (∃ (s : Chip) (ag : Agent), (s.tmr.shadows.getD ag.code none = none))
    ∧ (∃ (s : Chip) (ag : Agent) (k : Nat), (s.tmr.shadows.getD ag.code none = some k))
    ∧ (∃ (s : Chip), (s.owl.rtcWrite = none))
    ∧ (∃ (s : Chip) (k : Nat) (x : Chip) (y : Chip), (s.owl.rtcWrite = some k) ∧ (x = { s with owl := { s.owl with rtcWrite := none } }) ∧ (y = ((x.setReg R.RTC_SEC (W k)).setReg R.RTC_SUB 0).updateSqw) ∧ (s.bit F.RTC_CFG_ALMEN = true) ∧ (BitVec.toNat (s.reg R.RTC_ALARM) ≤ k))
    ∧ (∃ (s : Chip) (k : Nat) (x : Chip) (y : Chip), (s.owl.rtcWrite = some k) ∧ (x = { s with owl := { s.owl with rtcWrite := none } }) ∧ (y = ((x.setReg R.RTC_SEC (W k)).setReg R.RTC_SUB 0).updateSqw) ∧ (s.bit F.RTC_CFG_ALMEN = false ∨ k < BitVec.toNat (s.reg R.RTC_ALARM)))
    ∧ (∃ (v : Word), (BitVec.toNat v % 1024 = 512))
    ∧ (∃ (s : Chip) (v : Word) (x : Chip), (BitVec.toNat v % 1024 ≠ 512) ∧ (x = { s with owl := { s.owl with rtcAcc := 0 } }))
    ∧ (∃ (s : Chip) (v : Word), (s.bit F.RTC_CFG_ALMEN = true) ∧ (BitVec.toNat v ≤ BitVec.toNat (s.reg R.RTC_SEC)))
    ∧ (∃ (s : Chip) (v : Word), (s.bit F.RTC_CFG_ALMEN = false ∨ BitVec.toNat (s.reg R.RTC_SEC) < BitVec.toNat v))
    ∧ (∃ (s : Chip) (v : Word), (bitOf (BitVec.toNat v) 5 = true) ∧ (BitVec.toNat (s.reg R.RTC_ALARM) ≤ BitVec.toNat (s.reg R.RTC_SEC)))
    ∧ (∃ (s : Chip) (v : Word), (bitOf (BitVec.toNat v) 5 = false ∨ BitVec.toNat (s.reg R.RTC_SEC) < BitVec.toNat (s.reg R.RTC_ALARM)))
    ∧ (∃ (s : Chip) (ag : Agent), (ag ≠ Agent.svc) ∧ (s.bit F.WDT_CTL_DBGPAUSE = true))
    ∧ (∃ (s : Chip) (ag : Agent), (ag = Agent.svc ∨ s.bit F.WDT_CTL_DBGPAUSE = false) ∧ (s.bit F.WDT_CTL_EN = true))
    ∧ (∃ (s : Chip) (ag : Agent) (y : Chip), ((ag = Agent.svc ∨ s.bit F.WDT_CTL_DBGPAUSE = false) ∧ (s.bit F.WDT_CTL_EN = false)) ∧ (y = { s with tmr := { s.tmr with wdt := 0 } }))
    ∧ (∃ (s : Chip), (s.bit F.WDT_CTL_EN = false))
    ∧ (∃ (s : Chip) (v : Word), (s.bit F.WDT_CTL_EN = true) ∧ (BitVec.toNat v % 4096 ≠ 2652))
    ∧ (∃ (s : Chip) (v : Word), (s.bit F.WDT_CTL_EN = true) ∧ (BitVec.toNat v % 4096 = 2652) ∧ (8 * s.tmr.wdt < s.wdtPeriod * s.fld F.WDT_CFG_WINDOW))
    ∧ (∃ (s : Chip) (v : Word), (s.bit F.WDT_CTL_EN = true) ∧ (BitVec.toNat v % 4096 = 2652) ∧ (s.wdtPeriod * s.fld F.WDT_CFG_WINDOW ≤ 8 * s.tmr.wdt))
    ∧ (∃ (s : Chip), (s.bit F.WDT_CTL_EN = true) ∧ (s.bit F.WDT_CFG_WARN = true))
    ∧ (∃ (s : Chip), (s.bit F.WDT_CTL_EN = true) ∧ (s.bit F.WDT_CFG_WARN = false))
    ∧ (∃ (s : Chip) (b : Bool), (b = s.bit F.WDT_CTL_DBGPAUSE))
    ∧ (∃ (s : Chip) (b : Bool), (b ≠ s.bit F.WDT_CTL_DBGPAUSE))
    ∧ (∃ (ag : Agent), (ag ≠ Agent.svc)) :=
  ⟨⟨(let s : Chip := {}; s.setReg (R.TMRN_CTL 2) (W 1)), Agent.foxA, 2, by decide +kernel⟩,
    ⟨(let s : Chip := {}; s.setFld (F.TMRN_CFG_SRC 6) 3), Agent.foxA, 6, by decide +kernel⟩,
    ⟨(let s : Chip := {}; s.setFld (F.TMRN_CFG_LINK 6) 1), Agent.foxA, 7, by decide +kernel⟩,
    ⟨(let s : Chip := {}; s.setReg R.TMR_OWN (W 5)), Agent.foxB, 0, by decide +kernel⟩,
    ⟨{}, Agent.foxA, 0, by decide +kernel⟩,
    ⟨(let s : Chip := {}; s.setFld F.PMU_REQ_DEPTH 2), Agent.foxA, 0, by decide +kernel⟩,
    ⟨(let s : Chip := {}; let s := { s with bear := { s.bear with grants := [{ who := 11, power := 0, dur := 0, cont := false, start := 0, cls := 0, arrival := 0, marked := false }] } }; s.setReg (R.TMRN_CFG 1) (W 0)), Agent.foxA, 1, by decide +kernel⟩,
    ⟨(let s : Chip := {}; let s := s.setReg R.PMU_REQ (W 3211266); let s := s.setReg (R.TMRN_CFG 5) (W 0); { s with bear := { s.bear with grants := [{ who := 11, power := 0, dur := 0, cont := false, start := 0, cls := 0, arrival := 0, marked := false }] } }), Agent.foxA, 5, by decide +kernel⟩,
    ⟨(let s : Chip := {}; s.setFld (F.TMRN_CFG_SRC 1) 0), Agent.foxA, 1, _, by decide +kernel, rfl, by decide +kernel⟩,
    ⟨(let s : Chip := {}; let s := { s with bear := { s.bear with c := (10 ^ 9, 1), level := 10 ^ 18, valid := true } }; let s := s.setFld F.EGY_CAP_CAP 60000; let s := s.setFld F.EGY_SUPPLY_REFILL 2000; s.setFld (F.TMRN_CFG_SRC 0) 0), .svc, 0, _, by decide +kernel, rfl, by decide +kernel⟩,
    ⟨(let s : Chip := {}; let s := { s with bear := { s.bear with c := (10 ^ 9, 1), level := 10 ^ 18, valid := true } }; let s := s.setFld F.EGY_CAP_CAP 60000; let s := s.setFld F.EGY_SUPPLY_REFILL 2000; let s := s.setFld (F.TMRN_CFG_SRC 0) 0; s.setFld F.PMU_REQ_DEPTH 1), .svc, 0, _, by decide +kernel, rfl, by decide +kernel⟩,
    ⟨{}, 0, _, by decide +kernel, rfl⟩,
    ⟨{}, Agent.foxB, 0, 0, 0#36, _, by decide +kernel, rfl, by decide +kernel⟩,
    ⟨{}, Agent.foxA, 0, 0, 0#36, _, by decide +kernel, rfl, by decide +kernel⟩,
    ⟨(let s : Chip := {}; let s := s.setReg (R.TMRN_CFG 4) (W 2305); let s := s.setFld (F.TMRN_CTL_EN 5) 1; s.setFld (F.TMRN_CTL_EN 4) 1), Agent.foxA, 5, 0, 0, _, by decide +kernel, rfl, by decide +kernel⟩,
    ⟨(let s : Chip := {}; s.setReg (R.TMRN_CTL 1) (W 1)), Agent.foxA, 1, 0, 0#36, _, by decide +kernel, rfl, by decide +kernel⟩,
    ⟨{}, 0, by decide +kernel⟩,
    ⟨(let s : Chip := {}; s.setFld (F.TMRN_CTL_EN 4) 1), 4, _, _, by decide +kernel, rfl, by decide +kernel, rfl, by decide +kernel⟩,
    ⟨(let s : Chip := {}; let s := s.setBit (F.TMRN_CTL_EN 4) true; s.setTimer 4 { act0 := 1 }), 4, _, _, by decide +kernel, rfl, by decide +kernel, rfl, by decide +kernel⟩,
    ⟨(let s : Chip := {}; let s := s.setBit (F.TMRN_CTL_EN 4) true; s.setTimer 4 { act1 := 1 }), 4, _, _, by decide +kernel, rfl, by decide +kernel, rfl, by decide +kernel⟩,
    ⟨(let s : Chip := {}; let s := s.setBit (F.TMRN_CTL_EN 4) true; let s := s.setTmrValue R.TMRN_COUNT 4 (2 ^ 36 - 1); s.setTimer 4 { act0 := 1, act1 := 1 }), 4, _, _, by decide +kernel, rfl, by decide +kernel, rfl, by decide +kernel⟩,
    ⟨{}, 0, by decide +kernel⟩,
    ⟨(let s : Chip := {}; { s with pins := { s.pins with cur := [31] } }), 7, false, _, _, by decide +kernel, wSome _ (by decide +kernel), rfl, by decide +kernel⟩,
    ⟨(let s : Chip := {}; let s := { s with pins := { s.pins with driven := 1 } }; let s := s.setFld (F.TMRN_CFG_CAPEN 0) 1; let s := { s with pins := { s.pins with cur := [24] } }; s.setFld (F.TMRN_CTL_EN 0) 1), 0, _, _, _, by decide +kernel, wSome _ (by decide +kernel), rfl, by decide +kernel, rfl, by decide +kernel⟩,
    ⟨(let s : Chip := {}; let s := { s with pins := { s.pins with cur := [27], driven := 1, pad := 0 } }; let s := s.setReg (R.TMRN_CTL 3) (W 1); let s := s.setFld (F.TMRN_CFG_CAPEN 3) 1; s.setFld (F.TMRN_FLAG_NEWR 3) 1), 3, _, _, _, by decide +kernel, wSome _ (by decide +kernel), rfl, by decide +kernel, rfl, by decide +kernel⟩,
    ⟨(let s : Chip := {}; let s := s.setFld (F.TMRN_CTL_EN 0) 1; let s := s.setFld (F.TMRN_CFG_CAPEN 0) 1; { s with pins := { s.pins with cur := [24] } }), 0, _, _, _, by decide +kernel, wSome _ (by decide +kernel), rfl, by decide +kernel, rfl, by decide +kernel⟩,
    ⟨(let s : Chip := {}; let s := { s with pins := { s.pins with cur := [27], driven := 1, pad := 1 } }; let s := s.setReg (R.TMRN_CTL 3) (W 1); let s := s.setFld (F.TMRN_CFG_CAPEN 3) 1; s.setFld (F.TMRN_FLAG_NEWF 3) 1), 3, _, _, _, by decide +kernel, wSome _ (by decide +kernel), rfl, by decide +kernel, rfl, by decide +kernel⟩,
    ⟨(let s : Chip := {}; s.setReg R.SSM_LOCK (W 49462)), 0#36, _, rfl, by decide +kernel⟩,
    ⟨{}, Agent.foxA, 0#36, _, rfl, by decide +kernel⟩,
    ⟨(let s : Chip := {}; s.setReg (R.PIN_MAP 0) (W (0x18 <<< 8))), .foxA, 6, _, 0, 0, rfl, by decide +kernel⟩,
    ⟨(let s : Chip := {}; s.setFld (F.TMR_OWN_OWNER 6) 1), Agent.foxB, 0#36, _, 6, rfl, by decide +kernel⟩,
    ⟨(let s : Chip := {}; s.setFld (F.TMRN_CTL_EN 3) 1), Agent.foxA, 0x2d83#36, _, 3, rfl, by decide +kernel⟩,
    ⟨(run1 {}), by decide +kernel⟩,
    ⟨{}, _, _, by decide +kernel, rfl⟩,
    ⟨{}, by decide +kernel⟩,
    ⟨(let s : Chip := {}; { s with now := s.now + secs 2 }), _, by decide +kernel, rfl⟩,
    ⟨{}, _, rfl⟩,
    ⟨{}, _, rfl⟩,
    ⟨{}, _, _, _, _, rfl, rfl, rfl, rfl, by decide +kernel⟩,
    ⟨(let s : Chip := {}; let s := s.setReg R.RTC_CFG (W 32); s.setReg R.RTC_ALARM (W 1)), _, _, _, _, rfl, rfl, rfl, rfl, by decide +kernel⟩,
    ⟨{}, Agent.foxA, by decide +kernel⟩,
    ⟨(let s : Chip := {}; { s with tmr := { s.tmr with shadows := [some 0] } }), Agent.foxA, _, wSome _ (by decide +kernel)⟩,
    ⟨{}, by decide +kernel⟩,
    ⟨(let s : Chip := {}; let s := s.setReg R.RTC_CFG (W 35); { s with owl := { s.owl with rtcWrite := some 0 } }), _, _, _, wSome _ (by decide +kernel), rfl, rfl, by decide +kernel⟩,
    ⟨(let s : Chip := {}; { s with owl := { s.owl with rtcWrite := some 0 } }), _, _, _, wSome _ (by decide +kernel), rfl, rfl, by decide +kernel⟩,
    ⟨0x200#36, by decide +kernel⟩,
    ⟨{}, 0#36, _, by decide +kernel, rfl⟩,
    ⟨(let s : Chip := {}; s.setFld F.RTC_CFG_ALMEN 1), 0#36, by decide +kernel⟩,
    ⟨{}, 0#36, by decide +kernel⟩,
    ⟨{}, 0x23#36, by decide +kernel⟩,
    ⟨{}, 0#36, by decide +kernel⟩,
    ⟨(let s : Chip := {}; s.setFld F.WDT_CTL_DBGPAUSE 1), Agent.foxA, by decide +kernel⟩,
    ⟨(let s : Chip := {}; s.setFld F.WDT_CTL_EN 1), Agent.foxA, by decide +kernel⟩,
    ⟨{}, Agent.foxA, _, by decide +kernel, rfl⟩,
    ⟨{}, by decide +kernel⟩,
    ⟨(let s : Chip := {}; s.setReg R.WDT_CTL (W 1)), 0#36, by decide +kernel⟩,
    ⟨(let s : Chip := {}; let s := s.setFld F.WDT_CTL_EN 1; s.setFld F.WDT_CFG_WINDOW 1), 0xa5c#36, by decide +kernel⟩,
    ⟨(let s : Chip := {}; s.setFld F.WDT_CTL_EN 1), 0xa5c#36, by decide +kernel⟩,
    ⟨(let s : Chip := {}; let s := s.setReg R.WDT_CTL (W 1); s.setFld F.WDT_CFG_WARN 1), by decide +kernel⟩,
    ⟨(let s : Chip := {}; s.setReg R.WDT_CTL (W 1)), by decide +kernel⟩,
    ⟨{}, _, rfl⟩,
    ⟨{}, true, by decide +kernel⟩,
    ⟨Agent.foxA, by decide +kernel⟩⟩

theorem wit_InterruptsAndEvents :
    (∃ (s : Chip) (t : Nat) (n : Nat) (m : Nat), (s.bestSource t = some n) ∧ (1 ≤ m) ∧ (m ≤ 95) ∧ (s.presented t m = true))
    ∧ (∃ (ag : Agent) (t : Nat), (t < 4) ∧ (answersTarget ag t = false))
    ∧ (∃ (s : Chip) (ag : Agent) (t : Nat), (t < 4) ∧ (answersTarget ag t = true) ∧ (s.bestSource t = none))
    ∧ (∃ (s : Chip) (ag : Agent) (t : Nat) (n : Nat) (x : Chip), ((t < 4) ∧ (answersTarget ag t = true)) ∧ (s.bestSource t = some n) ∧ (x = ((s.recordLoss n 1023 t).unpend n 2).setFld (F.ICU_SRC_BY n) t))
    ∧ (∃ (s : Chip) (ag : Agent) (t : Nat) (v : Word) (n : Nat), ((t < 4) ∧ (answersTarget ag t = true)) ∧ (n = BitVec.toNat v % 1024) ∧ (n = 0 ∨ 95 < n ∨ s.fld (F.ICU_SRC_STATE n) ≠ 2 ∨ s.fld (F.ICU_SRC_BY n) ≠ t))
    ∧ (∃ (s : Chip) (ag : Agent) (t : Nat) (v : Word) (n : Nat) (x : Chip) (y : Chip), ((t < 4) ∧ (answersTarget ag t = true)) ∧ (n = BitVec.toNat v % 1024) ∧ ((1 ≤ n) ∧ (n ≤ 95) ∧ (s.fld (F.ICU_SRC_STATE n) = 2)) ∧ (s.fld (F.ICU_SRC_BY n) = t) ∧ (x = (s.setFld (F.ICU_SRC_BY n) 0).setReason R.ICU_STAT Rc.OK) ∧ (y = { x with icu := { s.icu with rearm := List.filter (fun (k : Nat) => decide (k ≠ n)) s.icu.rearm } }) ∧ (s.bit (F.ICU_SRC_TRIG n) = false ∧ s.levelReq n = true ∨ s.bit (F.ICU_SRC_TRIG n) = true ∧ s.icu.rearm.contains n = true))
    ∧ (∃ (s : Chip) (ag : Agent) (t : Nat) (v : Word) (n : Nat) (x : Chip) (y : Chip), ((t < 4) ∧ (answersTarget ag t = true)) ∧ (n = BitVec.toNat v % 1024) ∧ ((1 ≤ n) ∧ (n ≤ 95) ∧ (s.fld (F.ICU_SRC_STATE n) = 2)) ∧ (s.fld (F.ICU_SRC_BY n) = t) ∧ (x = (s.setFld (F.ICU_SRC_BY n) 0).setReason R.ICU_STAT Rc.OK) ∧ (y = { x with icu := { s.icu with rearm := List.filter (fun (k : Nat) => decide (k ≠ n)) s.icu.rearm } }) ∧ (s.bit (F.ICU_SRC_TRIG n) = false ∧ s.levelReq n = false ∨ s.bit (F.ICU_SRC_TRIG n) = true ∧ s.icu.rearm.contains n = false))
    ∧ (∃ (s : Chip) (ag : Agent) (n : Nat) (old : Nat) (new0 : Nat) (new : Nat) (v : Word) (x : Chip), ((1 ≤ n) ∧ (n ≤ 95)) ∧ (old = BitVec.toNat (s.reg (R.ICU_SRC n)) % 256) ∧ (new0 = if nativeLevel n = true then BitVec.toNat v % 256 else BitVec.toNat v % 256 ||| 8) ∧ ((ag = Agent.foxA ∨ ag = Agent.svc) ∧ new = new0 ∨ ag ≠ Agent.foxA ∧ ag ≠ Agent.svc ∧ new = putBit old (4 + ag.code) (bitOf new0 (4 + ag.code))) ∧ (x = (s.setFld { addr := R.ICU_SRC n, hi := 7, lo := 0 } new).setReason R.ICU_STAT (if new = new0 then Rc.OK else Rc.SECURITY)) ∧ (s.lockedSec 10 = true))
    ∧ (∃ (s : Chip) (ag : Agent) (n : Nat) (old : Nat) (new0 : Nat) (new : Nat) (v : Word) (x : Chip), ((1 ≤ n) ∧ (n ≤ 95)) ∧ (old = BitVec.toNat (s.reg (R.ICU_SRC n)) % 256) ∧ (new0 = if nativeLevel n = true then BitVec.toNat v % 256 else BitVec.toNat v % 256 ||| 8) ∧ ((ag = Agent.foxA ∨ ag = Agent.svc) ∧ new = new0 ∨ ag ≠ Agent.foxA ∧ ag ≠ Agent.svc ∧ new = putBit old (4 + ag.code) (bitOf new0 (4 + ag.code))) ∧ (x = (s.setFld { addr := R.ICU_SRC n, hi := 7, lo := 0 } new).setReason R.ICU_STAT (if new = new0 then Rc.OK else Rc.SECURITY)) ∧ (s.lockedSec 10 = false) ∧ (bitOf new 7 = true) ∧ (bits new 7 4 ≠ 8))
    ∧ (∃ (s : Chip) (ag : Agent) (n : Nat) (old : Nat) (new0 : Nat) (new : Nat) (v : Word) (x : Chip), ((1 ≤ n) ∧ (n ≤ 95)) ∧ (old = BitVec.toNat (s.reg (R.ICU_SRC n)) % 256) ∧ (new0 = if nativeLevel n = true then BitVec.toNat v % 256 else BitVec.toNat v % 256 ||| 8) ∧ ((ag = Agent.foxA ∨ ag = Agent.svc) ∧ new = new0 ∨ ag ≠ Agent.foxA ∧ ag ≠ Agent.svc ∧ new = putBit old (4 + ag.code) (bitOf new0 (4 + ag.code))) ∧ (x = (s.setFld { addr := R.ICU_SRC n, hi := 7, lo := 0 } new).setReason R.ICU_STAT (if new = new0 then Rc.OK else Rc.SECURITY)) ∧ (s.lockedSec 10 = false) ∧ (bitOf new 7 = false ∨ bits new 7 4 = 8) ∧ (bitOf new 3 = bitOf old 3))
    ∧ (∃ (s : Chip) (ag : Agent) (n : Nat) (old : Nat) (new0 : Nat) (new : Nat) (v : Word) (x : Chip), ((1 ≤ n) ∧ (n ≤ 95)) ∧ (old = BitVec.toNat (s.reg (R.ICU_SRC n)) % 256) ∧ (new0 = if nativeLevel n = true then BitVec.toNat v % 256 else BitVec.toNat v % 256 ||| 8) ∧ ((ag = Agent.foxA ∨ ag = Agent.svc) ∧ new = new0 ∨ ag ≠ Agent.foxA ∧ ag ≠ Agent.svc ∧ new = putBit old (4 + ag.code) (bitOf new0 (4 + ag.code))) ∧ (x = (s.setFld { addr := R.ICU_SRC n, hi := 7, lo := 0 } new).setReason R.ICU_STAT (if new = new0 then Rc.OK else Rc.SECURITY)) ∧ (s.lockedSec 10 = false) ∧ (bitOf new 7 = false ∨ bits new 7 4 = 8) ∧ (bitOf new 3 ≠ bitOf old 3))
    ∧ (∃ (s : Chip) (n : Nat), (1 ≤ n) ∧ (n ≤ 95) ∧ (s.fld (F.ICU_SRC_TRIG n) = 0) ∧ (s.fld (F.ICU_SRC_STATE n) = 1) ∧ (s.levelReq n = false))
    ∧ (∃ (s : Chip) (n : Nat), (n = 0 ∨ 95 < n ∨ s.fld (F.ICU_SRC_TRIG n) ≠ 0 ∨ s.fld (F.ICU_SRC_STATE n) ≠ 1 ∨ s.levelReq n = true))
    ∧ (∃ (s : Chip) (n : Nat) (t : Nat), (s.presented t n = true) ∧ (s.icu.ripe.contains (t, n) = false) ∧ ((s.icu.since.any fun (p : Nat × Nat) => decide (p.fst = n ∧ p.snd + us (s.fld (F.ICU_MOD_COAL t)) ≤ s.icu.ran)) = true))
    ∧ (∃ (s : Chip) (n : Nat) (t : Nat), (s.presented t n = false ∨ s.icu.ripe.contains (t, n) = true ∨ (s.icu.since.any fun (p : Nat × Nat) => decide (p.fst = n ∧ p.snd + us (s.fld (F.ICU_MOD_COAL t)) ≤ s.icu.ran)) = false))
    ∧ (∃ (s : Chip) (ag : Agent) (c : Nat) (new : Nat) (code : Nat) (v : Word), (c < 40) ∧ (new = BitVec.toNat v &&& 64441221247) ∧ (code = s.evrChCheck c new) ∧ (s.lockedSec 9 = false) ∧ (owns ag (s.fld (F.EVR_CH_OWNER c)) = false))
    ∧ (∃ (s : Chip) (c : Nat) (new : Nat) (code : Nat) (v : Word), (c < 40) ∧ (new = BitVec.toNat v &&& 64441221247) ∧ (code = s.evrChCheck c new) ∧ (s.lockedSec 9 = true))
    ∧ (∃ (s : Chip) (ag : Agent) (c : Nat) (new : Nat) (code : Nat) (v : Word), (c < 40) ∧ (new = BitVec.toNat v &&& 64441221247) ∧ (code = s.evrChCheck c new) ∧ (owns ag (s.fld (F.EVR_CH_OWNER c)) = true) ∧ (s.lockedSec 9 = false) ∧ (83 ≤ bits new 6 0 ∧ bits new 6 0 ≤ 90 ∨ bits new 6 0 = 126 ∨ 106 ≤ bits new 22 16))
    ∧ (∃ (s : Chip) (ag : Agent) (c : Nat) (new : Nat) (code : Nat) (v : Word), (c < 40) ∧ (new = BitVec.toNat v &&& 64441221247) ∧ (code = s.evrChCheck c new) ∧ (owns ag (s.fld (F.EVR_CH_OWNER c)) = true) ∧ (s.lockedSec 9 = false) ∧ (code = Rc.OK))
    ∧ (∃ (s : Chip) (ag : Agent) (c : Nat) (new : Nat) (code : Nat) (v : Word), (c < 40) ∧ (new = BitVec.toNat v &&& 64441221247) ∧ (code = s.evrChCheck c new) ∧ (owns ag (s.fld (F.EVR_CH_OWNER c)) = true) ∧ (s.lockedSec 9 = false) ∧ (code ≠ Rc.OK))
    ∧ (∃ (s : Chip) (ag : Agent) (t : Nat) (new : Nat) (code : Nat) (v : Word), (t < 32) ∧ (new = BitVec.toNat v % 2 ^ 14) ∧ (code = s.evrSubCheck ag t new (s.fld (F.EVR_TSUB_OWNER t))) ∧ (s.lockedSec 9 = false) ∧ (owns ag (s.fld (F.EVR_TSUB_OWNER t)) = false))
    ∧ (∃ (s : Chip) (ag : Agent) (t : Nat) (new : Nat) (code : Nat) (v : Word), (t < 32) ∧ (new = BitVec.toNat v % 2 ^ 14) ∧ (code = s.evrSubCheck ag t new (s.fld (F.EVR_TSUB_OWNER t))) ∧ (s.lockedSec 9 = true))
    ∧ (∃ (s : Chip) (ag : Agent) (t : Nat) (new : Nat) (code : Nat) (v : Word), (t < 32) ∧ (new = BitVec.toNat v % 2 ^ 14) ∧ (code = s.evrSubCheck ag t new (s.fld (F.EVR_TSUB_OWNER t))) ∧ (owns ag (s.fld (F.EVR_TSUB_OWNER t)) = true) ∧ (s.lockedSec 9 = false) ∧ (29 ≤ t) ∧ (bitOf new 6 = true ∨ bitOf new 13 = true))
    ∧ (∃ (s : Chip) (ag : Agent) (t : Nat) (new : Nat) (code : Nat) (v : Word), (t < 32) ∧ (new = BitVec.toNat v % 2 ^ 14) ∧ (code = s.evrSubCheck ag t new (s.fld (F.EVR_TSUB_OWNER t))) ∧ (owns ag (s.fld (F.EVR_TSUB_OWNER t)) = true) ∧ (s.lockedSec 9 = false) ∧ (code = Rc.OK))
    ∧ (∃ (s : Chip) (ag : Agent) (t : Nat) (new : Nat) (code : Nat) (v : Word), (t < 32) ∧ (new = BitVec.toNat v % 2 ^ 14) ∧ (code = s.evrSubCheck ag t new (s.fld (F.EVR_TSUB_OWNER t))) ∧ (owns ag (s.fld (F.EVR_TSUB_OWNER t)) = true) ∧ (s.lockedSec 9 = false) ∧ (code ≠ Rc.OK) ∧ (code ≠ Rc.SECURITY))
    ∧ (∃ (s : Chip) (ag : Agent) (t : Nat) (new : Nat) (code : Nat) (v : Word), (t < 32) ∧ (new = BitVec.toNat v % 2 ^ 14) ∧ (code = s.evrSubCheck ag t new (s.fld (F.EVR_TSUB_OWNER t))) ∧ (owns ag (s.fld (F.EVR_TSUB_OWNER t)) = true) ∧ (s.lockedSec 9 = false) ∧ (code = Rc.SECURITY))
    ∧ (∃ (v : Word) (c : Nat), (c = BitVec.toNat v % 64) ∧ (39 < c))
    ∧ (∃ (s : Chip) (v : Word) (c : Nat), (c = BitVec.toNat v % 64) ∧ (c ≤ 39) ∧ (s.fld (F.EVR_CH_PUB c) ≠ 127))
    ∧ (∃ (s : Chip) (ag : Agent) (v : Word) (c : Nat), (c = BitVec.toNat v % 64) ∧ (c ≤ 39) ∧ (s.fld (F.EVR_CH_PUB c) = 127) ∧ (ag.code ≠ s.fld (F.EVR_CH_OWNER c)))
    ∧ (∃ (s : Chip) (ag : Agent) (v : Word) (c : Nat), (c = BitVec.toNat v % 64) ∧ (c ≤ 39) ∧ (s.fld (F.EVR_CH_PUB c) = 127) ∧ (ag.code = s.fld (F.EVR_CH_OWNER c)))
    ∧ (∃ (s : Chip) (t : Nat), (List.find? (fun (p : Nat × Nat × Bool) => decide (p.fst = t) && decide (p.snd.fst ≤ s.now)) s.evr.fire = none))
    ∧ (∃ (s : Chip) (x : Chip) (y : Chip) (t : Nat) (k : Nat) (both : Bool), (List.find? (fun (p : Nat × Nat × Bool) => decide (p.fst = t) && decide (p.snd.fst ≤ s.now)) s.evr.fire = some (t, k, both)) ∧ (x = { s with evr := { s.evr with fire := List.filter (fun (p : Nat × Nat × Bool) => decide (p.fst ≠ t) || decide (p.snd.fst ≠ k)) s.evr.fire } }) ∧ (both = true) ∧ (y = (x.setBit (F.EVR_TSTAT_COIN t) true).count (F.EVR_TSTAT_COINCNT t)) ∧ (t < 8))
    ∧ (∃ (s : Chip) (x : Chip) (y : Chip) (t : Nat) (k : Nat) (both : Bool), (List.find? (fun (p : Nat × Nat × Bool) => decide (p.fst = t) && decide (p.snd.fst ≤ s.now)) s.evr.fire = some (t, k, both)) ∧ (x = { s with evr := { s.evr with fire := List.filter (fun (p : Nat × Nat × Bool) => decide (p.fst ≠ t) || decide (p.snd.fst ≠ k)) s.evr.fire } }) ∧ (both = true) ∧ (y = (x.setBit (F.EVR_TSTAT_COIN t) true).count (F.EVR_TSTAT_COINCNT t)) ∧ (8 ≤ t) ∧ (t < 16))
    ∧ (∃ (s : Chip) (x : Chip) (y : Chip) (t : Nat) (k : Nat) (both : Bool), (List.find? (fun (p : Nat × Nat × Bool) => decide (p.fst = t) && decide (p.snd.fst ≤ s.now)) s.evr.fire = some (t, k, both)) ∧ (x = { s with evr := { s.evr with fire := List.filter (fun (p : Nat × Nat × Bool) => decide (p.fst ≠ t) || decide (p.snd.fst ≠ k)) s.evr.fire } }) ∧ (both = true) ∧ (y = (x.setBit (F.EVR_TSTAT_COIN t) true).count (F.EVR_TSTAT_COINCNT t)) ∧ (16 ≤ t) ∧ (t < 24) ∧ (y.bit (F.TMRN_CFG_CAPEN (t - 16)) = true))
    ∧ (∃ (s : Chip) (x : Chip) (y : Chip) (t : Nat) (k : Nat) (both : Bool), (List.find? (fun (p : Nat × Nat × Bool) => decide (p.fst = t) && decide (p.snd.fst ≤ s.now)) s.evr.fire = some (t, k, both)) ∧ (x = { s with evr := { s.evr with fire := List.filter (fun (p : Nat × Nat × Bool) => decide (p.fst ≠ t) || decide (p.snd.fst ≠ k)) s.evr.fire } }) ∧ (both = true) ∧ (y = (x.setBit (F.EVR_TSTAT_COIN t) true).count (F.EVR_TSTAT_COINCNT t)) ∧ (16 ≤ t) ∧ (t < 24) ∧ (y.bit (F.TMRN_CFG_CAPEN (t - 16)) = false))
    ∧ (∃ (s : Chip) (x : Chip) (y : Chip) (t : Nat) (k : Nat) (both : Bool) (ag : Agent), (List.find? (fun (p : Nat × Nat × Bool) => decide (p.fst = t) && decide (p.snd.fst ≤ s.now)) s.evr.fire = some (t, k, both)) ∧ (x = { s with evr := { s.evr with fire := List.filter (fun (p : Nat × Nat × Bool) => decide (p.fst ≠ t) || decide (p.snd.fst ≠ k)) s.evr.fire } }) ∧ (both = true) ∧ (y = (x.setBit (F.EVR_TSTAT_COIN t) true).count (F.EVR_TSTAT_COINCNT t)) ∧ (ag = Agent.ofCode (y.fld (F.EVR_TSUB_OWNER t))) ∧ (t = 24))
    ∧ (∃ (s : Chip) (x : Chip) (y : Chip) (t : Nat) (k : Nat) (both : Bool) (ag : Agent), (List.find? (fun (p : Nat × Nat × Bool) => decide (p.fst = t) && decide (p.snd.fst ≤ s.now)) s.evr.fire = some (t, k, both)) ∧ (x = { s with evr := { s.evr with fire := List.filter (fun (p : Nat × Nat × Bool) => decide (p.fst ≠ t) || decide (p.snd.fst ≠ k)) s.evr.fire } }) ∧ (both = true) ∧ (y = (x.setBit (F.EVR_TSTAT_COIN t) true).count (F.EVR_TSTAT_COINCNT t)) ∧ (ag = Agent.ofCode (y.fld (F.EVR_TSUB_OWNER t))) ∧ (t = 25))
    ∧ (∃ (s : Chip) (x : Chip) (y : Chip) (t : Nat) (k : Nat) (both : Bool) (ag : Agent), (List.find? (fun (p : Nat × Nat × Bool) => decide (p.fst = t) && decide (p.snd.fst ≤ s.now)) s.evr.fire = some (t, k, both)) ∧ (x = { s with evr := { s.evr with fire := List.filter (fun (p : Nat × Nat × Bool) => decide (p.fst ≠ t) || decide (p.snd.fst ≠ k)) s.evr.fire } }) ∧ (both = true) ∧ (y = (x.setBit (F.EVR_TSTAT_COIN t) true).count (F.EVR_TSTAT_COINCNT t)) ∧ (ag = Agent.ofCode (y.fld (F.EVR_TSUB_OWNER t))) ∧ (t = 26))
    ∧ (∃ (s : Chip) (x : Chip) (y : Chip) (t : Nat) (k : Nat) (both : Bool) (ag : Agent), (List.find? (fun (p : Nat × Nat × Bool) => decide (p.fst = t) && decide (p.snd.fst ≤ s.now)) s.evr.fire = some (t, k, both)) ∧ (x = { s with evr := { s.evr with fire := List.filter (fun (p : Nat × Nat × Bool) => decide (p.fst ≠ t) || decide (p.snd.fst ≠ k)) s.evr.fire } }) ∧ (both = true) ∧ (y = (x.setBit (F.EVR_TSTAT_COIN t) true).count (F.EVR_TSTAT_COINCNT t)) ∧ (ag = Agent.ofCode (y.fld (F.EVR_TSUB_OWNER t))) ∧ (t = 27))
    ∧ (∃ (s : Chip) (x : Chip) (y : Chip) (t : Nat) (k : Nat) (both : Bool) (ag : Agent), (List.find? (fun (p : Nat × Nat × Bool) => decide (p.fst = t) && decide (p.snd.fst ≤ s.now)) s.evr.fire = some (t, k, both)) ∧ (x = { s with evr := { s.evr with fire := List.filter (fun (p : Nat × Nat × Bool) => decide (p.fst ≠ t) || decide (p.snd.fst ≠ k)) s.evr.fire } }) ∧ (both = true) ∧ (y = (x.setBit (F.EVR_TSTAT_COIN t) true).count (F.EVR_TSTAT_COINCNT t)) ∧ (ag = Agent.ofCode (y.fld (F.EVR_TSUB_OWNER t))) ∧ (t = 28))
    ∧ (∃ (s : Chip) (x : Chip) (y : Chip) (t : Nat) (k : Nat) (both : Bool), (List.find? (fun (p : Nat × Nat × Bool) => decide (p.fst = t) && decide (p.snd.fst ≤ s.now)) s.evr.fire = some (t, k, both)) ∧ (x = { s with evr := { s.evr with fire := List.filter (fun (p : Nat × Nat × Bool) => decide (p.fst ≠ t) || decide (p.snd.fst ≠ k)) s.evr.fire } }) ∧ (both = true) ∧ (y = (x.setBit (F.EVR_TSTAT_COIN t) true).count (F.EVR_TSTAT_COINCNT t)) ∧ (29 ≤ t))
    ∧ (∃ (s : Chip) (x : Chip) (y : Chip) (t : Nat) (k : Nat) (both : Bool), (List.find? (fun (p : Nat × Nat × Bool) => decide (p.fst = t) && decide (p.snd.fst ≤ s.now)) s.evr.fire = some (t, k, both)) ∧ (x = { s with evr := { s.evr with fire := List.filter (fun (p : Nat × Nat × Bool) => decide (p.fst ≠ t) || decide (p.snd.fst ≠ k)) s.evr.fire } }) ∧ (both = false) ∧ (y = x) ∧ (t < 8))
    ∧ (∃ (s : Chip) (x : Chip) (y : Chip) (t : Nat) (k : Nat) (both : Bool), (List.find? (fun (p : Nat × Nat × Bool) => decide (p.fst = t) && decide (p.snd.fst ≤ s.now)) s.evr.fire = some (t, k, both)) ∧ (x = { s with evr := { s.evr with fire := List.filter (fun (p : Nat × Nat × Bool) => decide (p.fst ≠ t) || decide (p.snd.fst ≠ k)) s.evr.fire } }) ∧ (both = false) ∧ (y = x) ∧ (8 ≤ t) ∧ (t < 16))
    ∧ (∃ (s : Chip) (x : Chip) (y : Chip) (t : Nat) (k : Nat) (both : Bool), (List.find? (fun (p : Nat × Nat × Bool) => decide (p.fst = t) && decide (p.snd.fst ≤ s.now)) s.evr.fire = some (t, k, both)) ∧ (x = { s with evr := { s.evr with fire := List.filter (fun (p : Nat × Nat × Bool) => decide (p.fst ≠ t) || decide (p.snd.fst ≠ k)) s.evr.fire } }) ∧ (both = false) ∧ (y = x) ∧ (16 ≤ t) ∧ (t < 24) ∧ (y.bit (F.TMRN_CFG_CAPEN (t - 16)) = true))
    ∧ (∃ (s : Chip) (x : Chip) (y : Chip) (t : Nat) (k : Nat) (both : Bool), (List.find? (fun (p : Nat × Nat × Bool) => decide (p.fst = t) && decide (p.snd.fst ≤ s.now)) s.evr.fire = some (t, k, both)) ∧ (x = { s with evr := { s.evr with fire := List.filter (fun (p : Nat × Nat × Bool) => decide (p.fst ≠ t) || decide (p.snd.fst ≠ k)) s.evr.fire } }) ∧ (both = false) ∧ (y = x) ∧ (16 ≤ t) ∧ (t < 24) ∧ (y.bit (F.TMRN_CFG_CAPEN (t - 16)) = false))
    ∧ (∃ (s : Chip) (x : Chip) (y : Chip) (t : Nat) (k : Nat) (both : Bool) (ag : Agent), (List.find? (fun (p : Nat × Nat × Bool) => decide (p.fst = t) && decide (p.snd.fst ≤ s.now)) s.evr.fire = some (t, k, both)) ∧ (x = { s with evr := { s.evr with fire := List.filter (fun (p : Nat × Nat × Bool) => decide (p.fst ≠ t) || decide (p.snd.fst ≠ k)) s.evr.fire } }) ∧ (both = false) ∧ (y = x) ∧ (ag = Agent.ofCode (y.fld (F.EVR_TSUB_OWNER t))) ∧ (t = 24))
    ∧ (∃ (s : Chip) (x : Chip) (y : Chip) (t : Nat) (k : Nat) (both : Bool) (ag : Agent), (List.find? (fun (p : Nat × Nat × Bool) => decide (p.fst = t) && decide (p.snd.fst ≤ s.now)) s.evr.fire = some (t, k, both)) ∧ (x = { s with evr := { s.evr with fire := List.filter (fun (p : Nat × Nat × Bool) => decide (p.fst ≠ t) || decide (p.snd.fst ≠ k)) s.evr.fire } }) ∧ (both = false) ∧ (y = x) ∧ (ag = Agent.ofCode (y.fld (F.EVR_TSUB_OWNER t))) ∧ (t = 25))
    ∧ (∃ (s : Chip) (x : Chip) (y : Chip) (t : Nat) (k : Nat) (both : Bool) (ag : Agent), (List.find? (fun (p : Nat × Nat × Bool) => decide (p.fst = t) && decide (p.snd.fst ≤ s.now)) s.evr.fire = some (t, k, both)) ∧ (x = { s with evr := { s.evr with fire := List.filter (fun (p : Nat × Nat × Bool) => decide (p.fst ≠ t) || decide (p.snd.fst ≠ k)) s.evr.fire } }) ∧ (both = false) ∧ (y = x) ∧ (ag = Agent.ofCode (y.fld (F.EVR_TSUB_OWNER t))) ∧ (t = 26))
    ∧ (∃ (s : Chip) (x : Chip) (y : Chip) (t : Nat) (k : Nat) (both : Bool) (ag : Agent), (List.find? (fun (p : Nat × Nat × Bool) => decide (p.fst = t) && decide (p.snd.fst ≤ s.now)) s.evr.fire = some (t, k, both)) ∧ (x = { s with evr := { s.evr with fire := List.filter (fun (p : Nat × Nat × Bool) => decide (p.fst ≠ t) || decide (p.snd.fst ≠ k)) s.evr.fire } }) ∧ (both = false) ∧ (y = x) ∧ (ag = Agent.ofCode (y.fld (F.EVR_TSUB_OWNER t))) ∧ (t = 27))
    ∧ (∃ (s : Chip) (x : Chip) (y : Chip) (t : Nat) (k : Nat) (both : Bool) (ag : Agent), (List.find? (fun (p : Nat × Nat × Bool) => decide (p.fst = t) && decide (p.snd.fst ≤ s.now)) s.evr.fire = some (t, k, both)) ∧ (x = { s with evr := { s.evr with fire := List.filter (fun (p : Nat × Nat × Bool) => decide (p.fst ≠ t) || decide (p.snd.fst ≠ k)) s.evr.fire } }) ∧ (both = false) ∧ (y = x) ∧ (ag = Agent.ofCode (y.fld (F.EVR_TSUB_OWNER t))) ∧ (t = 28))
    ∧ (∃ (s : Chip) (x : Chip) (y : Chip) (t : Nat) (k : Nat) (both : Bool), (List.find? (fun (p : Nat × Nat × Bool) => decide (p.fst = t) && decide (p.snd.fst ≤ s.now)) s.evr.fire = some (t, k, both)) ∧ (x = { s with evr := { s.evr with fire := List.filter (fun (p : Nat × Nat × Bool) => decide (p.fst ≠ t) || decide (p.snd.fst ≠ k)) s.evr.fire } }) ∧ (both = false) ∧ (y = x) ∧ (29 ≤ t))
    ∧ (∃ (s : Chip) (k : Nat), (8 ≤ k ∨ s.pinOf (Mean.EVT_IN k) = none))
    ∧ (∃ (s : Chip) (k : Nat) (b : Bool) (p : Nat) (x : Chip), (k < 8) ∧ (s.pinOf (Mean.EVT_IN k) = some p) ∧ (x = s.drivePin p b) ∧ (s.inPin p = b ∨ x.inPin p ≠ b))
    ∧ (∃ (s : Chip) (k : Nat) (b : Bool) (p : Nat) (x : Chip), (k < 8) ∧ (s.pinOf (Mean.EVT_IN k) = some p) ∧ (x = s.drivePin p b) ∧ ((s.inPin p ≠ b) ∧ (x.inPin p = b)) ∧ (b = true))
    ∧ (∃ (s : Chip) (k : Nat) (b : Bool) (p : Nat) (x : Chip), (k < 8) ∧ (s.pinOf (Mean.EVT_IN k) = some p) ∧ (x = s.drivePin p b) ∧ ((s.inPin p ≠ b) ∧ (x.inPin p = b)) ∧ (b = false)) :=
  ⟨⟨(let s : Chip := {}; let s := s.setReg (R.ICU_SRC 1) (W 94); s.setFld (F.ICU_SRC_STATE 1) 1), 0, _, 1, wSome _ (by decide +kernel), by decide +kernel⟩,
    ⟨Agent.foxA, 1, by decide +kernel⟩,
    ⟨{}, Agent.foxA, 0, by decide +kernel⟩,
    ⟨(let s : Chip := {}; let s := s.setFld (F.ICU_SRC_STATE 1) 1; s.setFld (F.ICU_SRC_TMASK 1) 8), Agent.host, 3, _, _, by decide +kernel, wSome _ (by decide +kernel), rfl⟩,
    ⟨{}, Agent.foxA, 0, 0#36, _, by decide +kernel, rfl, by decide +kernel⟩,
    ⟨(let s : Chip := {}; let s := s.setFld (F.ICU_SRC_STATE 1) 2; let s := s.setFld (F.ICU_SRC_TRIG 1) 1; { s with icu := { s.icu with rearm := [1] } }), .foxA, _, 1, _, _, _, by decide +kernel, rfl, by decide +kernel, rfl, rfl, rfl, by decide +kernel⟩,
    ⟨(let s : Chip := {}; s.setFld (F.ICU_SRC_STATE 94) 2), Agent.foxA, _, 0x5e#36, _, _, _, by decide +kernel, rfl, by decide +kernel, rfl, rfl, rfl, by decide +kernel⟩,
    ⟨(let s : Chip := {}; s.setReg R.SSM_LOCK (W 52932)), Agent.foxA, 1, _, _, 25, 0x19#36, _, by decide +kernel, rfl, rfl, by decide +kernel, rfl, by decide +kernel⟩,
    ⟨{}, Agent.foxA, 1, _, _, 255, 0x1ff#36, _, by decide +kernel, rfl, rfl, by decide +kernel, rfl, by decide +kernel⟩,
    ⟨{}, Agent.foxA, 35, _, _, 8, 0#36, _, by decide +kernel, rfl, rfl, by decide +kernel, rfl, by decide +kernel⟩,
    ⟨{}, Agent.foxA, 1, _, _, 10, 0xa#36, _, by decide +kernel, rfl, rfl, by decide +kernel, rfl, by decide +kernel⟩,
    ⟨(let s : Chip := {}; s.setReg (R.ICU_SRC 9) (W 256)), 9, by decide +kernel⟩,
    ⟨{}, 0, by decide +kernel⟩,
    ⟨(let s : Chip := {}; let s := s.setReg (R.ICU_SRC 4) (W 318); let s := { s with icu := { s.icu with since := [(4, 0)] } }; { s with icu := { s.icu with ran := 0 } }), 4, 0, by decide +kernel⟩,
    ⟨{}, 0, 0, by decide +kernel⟩,
    ⟨{}, Agent.foxB, 0, _, _, 0, by decide +kernel, rfl, rfl, by decide +kernel⟩,
    ⟨(let s : Chip := {}; s.setReg R.SSM_LOCK (W 0x3FFE)), 0, _, _, 0, by decide +kernel, rfl, rfl, by decide +kernel⟩,
    ⟨{}, Agent.foxA, 0, _, _, 0x56#36, by decide +kernel, rfl, rfl, by decide +kernel⟩,
    ⟨{}, Agent.foxA, 0, _, _, 0#36, by decide +kernel, rfl, rfl, by decide +kernel⟩,
    ⟨{}, Agent.foxA, 0, _, _, 0x300004000#36, by decide +kernel, rfl, rfl, by decide +kernel⟩,
    ⟨{}, Agent.foxB, 0, _, _, 0, by decide +kernel, rfl, rfl, by decide +kernel⟩,
    ⟨(let s : Chip := {}; s.setReg R.SSM_LOCK (W 0x3FFE)), Agent.foxA, 0, _, _, 0, by decide +kernel, rfl, rfl, by decide +kernel⟩,
    ⟨{}, Agent.foxA, 29, _, _, 0x302010#36, by decide +kernel, rfl, rfl, by decide +kernel⟩,
    ⟨{}, Agent.foxA, 0, _, _, 0#36, by decide +kernel, rfl, rfl, by decide +kernel⟩,
    ⟨{}, Agent.foxA, 0, _, _, 0xc2f2#36, by decide +kernel, rfl, rfl, by decide +kernel⟩,
    ⟨(let s : Chip := {}; let s := s.setFld F.EVR_CLEAR_AGENT 0; s.setFld (F.EVR_CH_ATTR 8) 1), Agent.foxA, 0, _, _, 0x48#36, by decide +kernel, rfl, rfl, by decide +kernel⟩,
    ⟨0x2b#36, _, rfl, by decide +kernel⟩,
    ⟨{}, 0#36, _, rfl, by decide +kernel⟩,
    ⟨(let s : Chip := {}; s.setFld (F.EVR_CH_PUB 5) 127), Agent.foxB, 5#36, _, rfl, by decide +kernel⟩,
    ⟨(let s : Chip := {}; let s := s.setFld (F.EVR_CH_PUB 0) 127; s.setFld (F.EVR_CH_OWNER 0) 2), Agent.badger, 0#36, _, rfl, by decide +kernel⟩,
    ⟨{}, 0, by decide +kernel⟩,
    ⟨(let s : Chip := {}; let s := { s with now := 16 }; { s with evr := { s.evr with fire := [(0, 0, false), (0, 0, false), (3, 0, true)] } }), _, _, 3, _, _, wSome _ (by decide +kernel), rfl, by decide +kernel, rfl, by decide +kernel⟩,
    ⟨(let s : Chip := {}; let s := { s with now := 1 }; { s with evr := { s.evr with fire := [(9, 0, true)] } }), _, _, 9, _, _, wSome _ (by decide +kernel), rfl, by decide +kernel, rfl, by decide +kernel⟩,
    ⟨(let s : Chip := {}; let s := { s with evr := { s.evr with fire := [(0, 0, false), (0, 0, false), (17, 0, true)] } }; let s := { s with now := 0 }; s.setFld (F.TMRN_CFG_CAPEN 1) 1), _, _, 17, _, _, wSome _ (by decide +kernel), rfl, by decide +kernel, rfl, by decide +kernel⟩,
    ⟨(let s : Chip := {}; let s := { s with now := 35 }; { s with evr := { s.evr with fire := [(23, 0, true)] } }), _, _, 23, _, _, wSome _ (by decide +kernel), rfl, by decide +kernel, rfl, by decide +kernel⟩,
    ⟨(let s : Chip := {}; let s := { s with now := 3227776 }; { s with evr := { s.evr with fire := [(0, 0, false), (24, 0, true)] } }), _, _, _, _, _, _, wSome _ (by decide +kernel), rfl, by decide +kernel, rfl, rfl, rfl⟩,
    ⟨(let s : Chip := {}; let s := { s with now := 1 }; let s := { s with now := s.now + 34 }; { s with evr := { s.evr with fire := [(25, 0, true)] } }), _, _, _, _, _, _, wSome _ (by decide +kernel), rfl, by decide +kernel, rfl, rfl, rfl⟩,
    ⟨(let s : Chip := {}; let s := { s with now := 5 }; { s with evr := { s.evr with fire := [(26, 0, true)] } }), _, _, _, _, _, _, wSome _ (by decide +kernel), rfl, by decide +kernel, rfl, rfl, rfl⟩,
    ⟨(let s : Chip := {}; let s := { s with now := s.now + 8 }; let s := { s with now := s.now + 26 }; { s with evr := { s.evr with fire := [(27, 0, true)] } }), _, _, _, _, _, _, wSome _ (by decide +kernel), rfl, by decide +kernel, rfl, rfl, rfl⟩,
    ⟨(let s : Chip := {}; let s := { s with now := s.now + 29 }; { s with evr := { s.evr with fire := [(0, 0, false), (0, 0, false), (28, 0, true)] } }), _, _, _, _, _, _, wSome _ (by decide +kernel), rfl, by decide +kernel, rfl, rfl, rfl⟩,
    ⟨(let s : Chip := {}; let s := { s with now := s.now + 5 }; { s with evr := { s.evr with fire := [(0, 0, false), (30, 0, true)] } }), _, _, 30, _, _, wSome _ (by decide +kernel), rfl, by decide +kernel, rfl, by decide +kernel⟩,
    ⟨(let s : Chip := {}; let s := { s with now := 3 }; { s with evr := { s.evr with fire := [(2, 0, false)] } }), _, _, 2, _, _, wSome _ (by decide +kernel), rfl, by decide +kernel, rfl, by decide +kernel⟩,
    ⟨(let s : Chip := {}; let s := { s with now := s.now + 5 }; { s with evr := { s.evr with fire := [(0, 0, false), (0, 0, false), (9, 0, false)] } }), _, _, 9, _, _, wSome _ (by decide +kernel), rfl, by decide +kernel, rfl, by decide +kernel⟩,
    ⟨(let s : Chip := {}; let s := s.setFld (F.TMRN_CFG_CAPEN 0) 1; let s := { s with now := s.now + 4 }; { s with evr := { s.evr with fire := [(0, 0, false), (16, 0, false)] } }), _, _, 16, _, _, wSome _ (by decide +kernel), rfl, by decide +kernel, rfl, by decide +kernel⟩,
    ⟨(let s : Chip := {}; let s := { s with now := 23 }; { s with evr := { s.evr with fire := [(16, 0, false)] } }), _, _, 16, _, _, wSome _ (by decide +kernel), rfl, by decide +kernel, rfl, by decide +kernel⟩,
    ⟨(let s : Chip := {}; let s := { s with evr := { s.evr with fire := [(24, 0, false)] } }; { s with now := 0 }), _, _, _, _, _, _, wSome _ (by decide +kernel), rfl, by decide +kernel, rfl, rfl, rfl⟩,
    ⟨(let s : Chip := {}; let s := { s with now := 3227776 }; { s with evr := { s.evr with fire := [(25, 0, false)] } }), _, _, _, _, _, _, wSome _ (by decide +kernel), rfl, by decide +kernel, rfl, rfl, rfl⟩,
    ⟨(let s : Chip := {}; let s := { s with now := s.now + 4 }; { s with evr := { s.evr with fire := [(26, 0, false)] } }), _, _, _, _, _, _, wSome _ (by decide +kernel), rfl, by decide +kernel, rfl, rfl, rfl⟩,
    ⟨(let s : Chip := {}; let s := { s with now := s.now + 26 }; let s := { s with evr := { s.evr with fire := [(0, 0, false), (0, 0, false), (27, 0, false)] } }; { s with now := s.now + 0 }), _, _, _, _, _, _, wSome _ (by decide +kernel), rfl, by decide +kernel, rfl, rfl, rfl⟩,
    ⟨(let s : Chip := {}; { s with evr := { s.evr with fire := [(0, 0, false), (0, 0, false), (28, 0, false)] } }), _, _, _, _, _, _, wSome _ (by decide +kernel), rfl, by decide +kernel, rfl, rfl, rfl⟩,
    ⟨(let s : Chip := {}; let s := { s with now := s.now + 8 }; { s with evr := { s.evr with fire := [(30, 0, false)] } }), _, _, 30, _, _, wSome _ (by decide +kernel), rfl, by decide +kernel, rfl, by decide +kernel⟩,
    ⟨{}, 0, by decide +kernel⟩,
    ⟨(let s : Chip := {}; { s with pins := { s.pins with cur := [48] } }), 0, true, _, _, by decide +kernel, wSome _ (by decide +kernel), rfl, by decide +kernel⟩,
    ⟨(let s : Chip := {}; { s with pins := { s.pins with cur := [0, 0, 48], driven := 4 } }), 0, true, _, _, by decide +kernel, wSome _ (by decide +kernel), rfl, by decide +kernel, rfl⟩,
    ⟨(let s : Chip := {}; { s with pins := { s.pins with cur := [48] } }), 0, _, _, _, by decide +kernel, wSome _ (by decide +kernel), rfl, by decide +kernel, rfl⟩⟩

theorem wit_FlashOperations :
    (∃ (s : Chip) (op : Nat) (a : Nat) (code : Nat), (code = s.flcCheck op a) ∧ (s.flcBusy = true))
    ∧ (∃ (s : Chip) (op : Nat) (a : Nat) (code : Nat), (code = s.flcCheck op a) ∧ (s.flcBusy = false) ∧ (isFlash a = false))
    ∧ (∃ (s : Chip) (op : Nat) (a : Nat) (code : Nat), (code = s.flcCheck op a) ∧ (s.flcBusy = false) ∧ (isFlash a = true) ∧ (inSealed a = true))
    ∧ (∃ (s : Chip) (op : Nat) (a : Nat) (code : Nat), (code = s.flcCheck op a) ∧ (s.flcBusy = false) ∧ (isFlash a = true) ∧ (inSealed a = false) ∧ (s.flcOwned op a = true))
    ∧ (∃ (s : Chip) (op : Nat) (a : Nat) (code : Nat), (code = s.flcCheck op a) ∧ (s.flcBusy = false) ∧ (isFlash a = true) ∧ (inSealed a = false) ∧ (s.flcOwned op a = false) ∧ (s.restrained a 30 = true))
    ∧ (∃ (s : Chip) (op : Nat) (a : Nat) (code : Nat), (code = s.flcCheck op a) ∧ ((s.flcBusy = false) ∧ (isFlash a = true) ∧ (inSealed a = false) ∧ (s.flcOwned op a = false) ∧ (s.restrained a 30 = false)) ∧ (op = 1) ∧ (s.flashErased a = false))
    ∧ (∃ (s : Chip) (op : Nat) (a : Nat) (code : Nat), (code = s.flcCheck op a) ∧ (s.flcBusy = false) ∧ (isFlash a = true) ∧ (inSealed a = false) ∧ (s.flcOwned op a = false) ∧ (s.restrained a 30 = false) ∧ (op ≠ 1 ∨ s.flashErased a = true))
    ∧ (∃ (s : Chip) (ag : Agent) (b : Agent) (a : Nat) (i : Instr), (s.flc.cmdAt = some (s.now, b)) ∧ (b ≠ ag) ∧ (i = Instr.flcProgram ag a))
    ∧ (∃ (s : Chip) (ag : Agent) (b : Agent) (a : Nat) (i : Instr), (s.flc.cmdAt = some (s.now, b)) ∧ (b ≠ ag) ∧ (i = Instr.flcErase ag a))
    ∧ (∃ (s : Chip) (ag : Agent) (b : Agent) (a : Nat) (i : Instr), (s.flc.cmdAt = some (s.now, b)) ∧ (b ≠ ag) ∧ (i = Instr.sqopen ag a))
    ∧ (∃ (s : Chip) (ag : Agent) (b : Agent) (a : Nat) (i : Instr), (s.flc.cmdAt = some (s.now, b)) ∧ (b ≠ ag) ∧ (i = Instr.sqcommit ag a))
    ∧ (∃ (s : Chip) (ag : Agent) (b : Agent) (a : Nat) (i : Instr), (s.flc.cmdAt = some (s.now, b)) ∧ (b ≠ ag) ∧ (i = Instr.sqabandon ag a))
    ∧ (∃ (s : Chip) (ag : Agent) (b : Agent) (i : Instr), (s.flc.cmdAt = some (s.now, b)) ∧ (b ≠ ag) ∧ (i = Instr.sqlevel ag))
    ∧ (∃ (s : Chip) (ag : Agent) (b : Agent) (i : Instr), (s.flc.cmdAt = some (s.now, b)) ∧ (b ≠ ag) ∧ (i = Instr.proterase ag))
    ∧ (∃ (s : Chip) (ag : Agent) (b : Agent) (a : Nat) (i : Instr), (s.flc.cmdAt = some (s.now, b)) ∧ (b ≠ ag) ∧ (i = Instr.protprog ag a))
    ∧ (∃ (z : Chip) (s : Chip) (ag : Agent) (addr : Nat) (a : Nat) (code : Nat), (∀ (b : Agent), z.flc.cmdAt = some (z.now, b) → b = ag) ∧ (s = z.setFlc ({ z.flc with cmdAt := some (z.now, ag) })) ∧ (a = addr % 2 ^ 24) ∧ (code = s.flcCheck 1 a) ∧ (code ≠ Rc.OK))
    ∧ (∃ (z : Chip) (s : Chip) (ag : Agent) (addr : Nat) (a : Nat) (code : Nat) (o : FlOp), (∀ (b : Agent), z.flc.cmdAt = some (z.now, b) → b = ag) ∧ (s = z.setFlc ({ z.flc with cmdAt := some (z.now, ag) })) ∧ (a = addr % 2 ^ 24) ∧ (code = s.flcCheck 1 a) ∧ ((code = Rc.OK) ∧ (s.reg R.FLC_DATA = erasedWord)) ∧ (o = { src := FlSrc.cmd, op := 1, target := a, steps := [], limit := s.fld F.FLC_MAXPULSE_MAXPULSE, pulses := 0, spot := a, begins := true, result := 0 }))
    ∧ (∃ (z : Chip) (s : Chip) (ag : Agent) (addr : Nat) (a : Nat) (code : Nat) (o : FlOp), (∀ (b : Agent), z.flc.cmdAt = some (z.now, b) → b = ag) ∧ (s = z.setFlc ({ z.flc with cmdAt := some (z.now, ag) })) ∧ (a = addr % 2 ^ 24) ∧ (code = s.flcCheck 1 a) ∧ ((code = Rc.OK) ∧ (s.reg R.FLC_DATA ≠ erasedWord)) ∧ (o = { src := FlSrc.cmd, op := 1, target := a, steps := [FlStep.prog a (s.reg R.FLC_DATA)], limit := s.fld F.FLC_MAXPULSE_MAXPULSE, pulses := 0, spot := a, begins := true, result := 0 }))
    ∧ (∃ (z : Chip) (s : Chip) (ag : Agent) (addr : Nat) (a : Nat) (code : Nat), (∀ (b : Agent), z.flc.cmdAt = some (z.now, b) → b = ag) ∧ (s = z.setFlc ({ z.flc with cmdAt := some (z.now, ag) })) ∧ (a = addr % 2 ^ 24) ∧ (code = s.flcCheck 2 a) ∧ (code ≠ Rc.OK))
    ∧ (∃ (z : Chip) (s : Chip) (ag : Agent) (addr : Nat) (a : Nat) (code : Nat) (o : FlOp), (∀ (b : Agent), z.flc.cmdAt = some (z.now, b) → b = ag) ∧ (s = z.setFlc ({ z.flc with cmdAt := some (z.now, ag) })) ∧ (a = addr % 2 ^ 24) ∧ (code = s.flcCheck 2 a) ∧ (code = Rc.OK) ∧ (o = { src := FlSrc.cmd, op := 2, target := sectorBase a, steps := s.expandSector (sectorBase a) 0, limit := s.fld F.FLC_MAXPULSE_MAXPULSE, pulses := 0, spot := sectorBase a, begins := true, result := 0 }))
    ∧ (∃ (z : Chip) (s : Chip) (ag : Agent) (l : Nat) (sect : Nat), (∀ (b : Agent), z.flc.cmdAt = some (z.now, b) → b = ag) ∧ (s = z.setFlc ({ z.flc with cmdAt := some (z.now, ag) })) ∧ (l = sect % 64) ∧ (s.flcBusy = true))
    ∧ (∃ (z : Chip) (s : Chip) (ag : Agent) (l : Nat) (sect : Nat), (∀ (b : Agent), z.flc.cmdAt = some (z.now, b) → b = ag) ∧ (s = z.setFlc ({ z.flc with cmdAt := some (z.now, ag) })) ∧ (l = sect % 64) ∧ (s.flcBusy = false) ∧ (s.sqWin ≤ l))
    ∧ (∃ (z : Chip) (s : Chip) (ag : Agent) (l : Nat) (sect : Nat), (∀ (b : Agent), z.flc.cmdAt = some (z.now, b) → b = ag) ∧ (s = z.setFlc ({ z.flc with cmdAt := some (z.now, ag) })) ∧ (l = sect % 64) ∧ (s.flcBusy = false) ∧ (l < s.sqWin) ∧ (s.sqOpenSector ≠ none ∨ s.flc.sqActive = false))
    ∧ (∃ (z : Chip) (s : Chip) (ag : Agent) (l : Nat) (sect : Nat), (∀ (b : Agent), z.flc.cmdAt = some (z.now, b) → b = ag) ∧ (s = z.setFlc ({ z.flc with cmdAt := some (z.now, ag) })) ∧ (l = sect % 64) ∧ (s.flcBusy = false) ∧ (l < s.sqWin) ∧ (s.sqOpenSector = none) ∧ (s.flc.sqActive = true) ∧ (s.sqSpare true = none))
    ∧ (∃ (z : Chip) (s : Chip) (ag : Agent) (l : Nat) (sect : Nat) (p : Nat) (q : Nat), (∀ (b : Agent), z.flc.cmdAt = some (z.now, b) → b = ag) ∧ (s = z.setFlc ({ z.flc with cmdAt := some (z.now, ag) })) ∧ (l = sect % 64) ∧ ((s.flcBusy = false) ∧ (l < s.sqWin) ∧ (s.sqOpenSector = none) ∧ (s.flc.sqActive = true)) ∧ (s.sqSpare true = some p) ∧ (q = (s.flc.sqSeq + 1) % 2 ^ 24))
    ∧ (∃ (z : Chip) (s : Chip) (ag : Agent) (l : Nat) (sect : Nat) (p : Nat), (∀ (b : Agent), z.flc.cmdAt = some (z.now, b) → b = ag) ∧ (s = z.setFlc ({ z.flc with cmdAt := some (z.now, ag) })) ∧ (l = sect % 64) ∧ (s.flcBusy = false) ∧ (s.sqOpenSector = some p) ∧ (s.flc.sqActive = false ∨ s.sqL p ≠ l))
    ∧ (∃ (z : Chip) (s : Chip) (ag : Agent) (l : Nat) (sect : Nat) (p : Nat), (∀ (b : Agent), z.flc.cmdAt = some (z.now, b) → b = ag) ∧ (s = z.setFlc ({ z.flc with cmdAt := some (z.now, ag) })) ∧ (l = sect % 64) ∧ (s.flcBusy = false) ∧ (s.sqOpenSector = some p) ∧ (s.flc.sqActive = true) ∧ (s.sqL p = l) ∧ (s.sqHolder l = none))
    ∧ (∃ (z : Chip) (s : Chip) (ag : Agent) (l : Nat) (sect : Nat) (p : Nat) (q : Nat), (∀ (b : Agent), z.flc.cmdAt = some (z.now, b) → b = ag) ∧ (s = z.setFlc ({ z.flc with cmdAt := some (z.now, ag) })) ∧ (l = sect % 64) ∧ (s.flcBusy = false) ∧ (s.sqOpenSector = some p) ∧ ((s.flc.sqActive = true) ∧ (s.sqL p = l)) ∧ (s.sqHolder l = some q))
    ∧ (∃ (z : Chip) (s : Chip) (ag : Agent) (l : Nat) (sect : Nat), (∀ (b : Agent), z.flc.cmdAt = some (z.now, b) → b = ag) ∧ (s = z.setFlc ({ z.flc with cmdAt := some (z.now, ag) })) ∧ (l = sect % 64) ∧ (s.flcBusy = false) ∧ (s.flc.sqActive = false ∨ s.sqLevelDue = true ∧ s.sqOpenSector ≠ none))
    ∧ (∃ (z : Chip) (s : Chip) (ag : Agent) (l : Nat) (sect : Nat), (∀ (b : Agent), z.flc.cmdAt = some (z.now, b) → b = ag) ∧ (s = z.setFlc ({ z.flc with cmdAt := some (z.now, ag) })) ∧ (l = sect % 64) ∧ (s.flcBusy = false) ∧ (s.flc.sqActive = true) ∧ (s.sqLevelDue = false))
    ∧ (∃ (z : Chip) (s : Chip) (ag : Agent) (l : Nat) (sect : Nat), (∀ (b : Agent), z.flc.cmdAt = some (z.now, b) → b = ag) ∧ (s = z.setFlc ({ z.flc with cmdAt := some (z.now, ag) })) ∧ (l = sect % 64) ∧ (s.flcBusy = false) ∧ (s.flc.sqActive = true) ∧ (s.sqOpenSector = none) ∧ (s.sqOf SqKind.valid = []))
    ∧ (∃ (z : Chip) (s : Chip) (ag : Agent) (l : Nat) (sect : Nat) (p : Nat), (∀ (b : Agent), z.flc.cmdAt = some (z.now, b) → b = ag) ∧ (s = z.setFlc ({ z.flc with cmdAt := some (z.now, ag) })) ∧ (l = sect % 64) ∧ (s.flcBusy = false) ∧ (s.flc.sqActive = true) ∧ (s.sqOpenSector = none) ∧ (s.sqLevelDue = true) ∧ (p ∈ s.sqOf SqKind.valid) ∧ (∀ (r : Nat), r ∈ s.sqOf SqKind.valid → s.sqCount p < s.sqCount r ∨ s.sqCount p = s.sqCount r ∧ p ≤ r) ∧ (s.sqSpare false = none))
    ∧ (∃ (z : Chip) (s : Chip) (ag : Agent) (l : Nat) (sect : Nat) (p : Nat) (q : Nat) (n : Nat) (copy : List FlStep), (∀ (b : Agent), z.flc.cmdAt = some (z.now, b) → b = ag) ∧ (s = z.setFlc ({ z.flc with cmdAt := some (z.now, ag) })) ∧ (l = sect % 64) ∧ ((s.flcBusy = false) ∧ (s.flc.sqActive = true) ∧ (s.sqOpenSector = none) ∧ (s.sqLevelDue = true) ∧ (p ∈ s.sqOf SqKind.valid) ∧ (∀ (r : Nat), r ∈ s.sqOf SqKind.valid → s.sqCount p < s.sqCount r ∨ s.sqCount p = s.sqCount r ∧ p ≤ r)) ∧ (s.sqSpare false = some q) ∧ (n = (s.flc.sqSeq + 1) % 2 ^ 24) ∧ (copy = List.filterMap (fun (i : Nat) => if s.flashRd (sqBase p + i) = erasedWord then none else some (FlStep.prog (sqBase q + i) (s.flashRd (sqBase p + i)))) (List.map (fun (x : Nat) => x + 4) (List.range 1020))))
    ∧ (∃ (z : Chip) (s : Chip) (ag : Agent) (l : Nat) (sect : Nat) (v : Word), (∀ (b : Agent), z.flc.cmdAt = some (z.now, b) → b = ag) ∧ (s = z.setFlc ({ z.flc with cmdAt := some (z.now, ag) })) ∧ (l = sect % 64) ∧ (s.flcBusy = false) ∧ (v = s.reg R.FLC_DATA) ∧ (18 < l ∨ l < 16 ∧ (bits (BitVec.toNat v) 35 32 ≠ 0 ∨ bits (BitVec.toNat v) 19 10 < bits (BitVec.toNat v) 9 0)))
    ∧ (∃ (z : Chip) (s : Chip) (ag : Agent) (l : Nat) (sect : Nat) (v : Word), (∀ (b : Agent), z.flc.cmdAt = some (z.now, b) → b = ag) ∧ (s = z.setFlc ({ z.flc with cmdAt := some (z.now, ag) })) ∧ (l = sect % 64) ∧ (s.flcBusy = false) ∧ (v = s.reg R.FLC_DATA) ∧ (l ≤ 18) ∧ (16 ≤ l ∨ bits (BitVec.toNat v) 35 32 = 0 ∧ bits (BitVec.toNat v) 9 0 ≤ bits (BitVec.toNat v) 19 10) ∧ (s.flc.unlocked = false))
    ∧ (∃ (z : Chip) (s : Chip) (ag : Agent) (l : Nat) (sect : Nat) (v : Word), (∀ (b : Agent), z.flc.cmdAt = some (z.now, b) → b = ag) ∧ (s = z.setFlc ({ z.flc with cmdAt := some (z.now, ag) })) ∧ (l = sect % 64) ∧ (s.flcBusy = false) ∧ (v = s.reg R.FLC_DATA) ∧ (l ≤ 18) ∧ (16 ≤ l ∨ bits (BitVec.toNat v) 35 32 = 0 ∧ bits (BitVec.toNat v) 9 0 ≤ bits (BitVec.toNat v) 19 10) ∧ (s.flc.unlocked = true) ∧ (s.flashErased (protBase + l) = false))
    ∧ (∃ (z : Chip) (s : Chip) (ag : Agent) (l : Nat) (sect : Nat) (v : Word), (∀ (b : Agent), z.flc.cmdAt = some (z.now, b) → b = ag) ∧ (s = z.setFlc ({ z.flc with cmdAt := some (z.now, ag) })) ∧ (l = sect % 64) ∧ (s.flcBusy = false) ∧ (v = s.reg R.FLC_DATA) ∧ (l ≤ 18) ∧ (16 ≤ l ∨ bits (BitVec.toNat v) 35 32 = 0 ∧ bits (BitVec.toNat v) 9 0 ≤ bits (BitVec.toNat v) 19 10) ∧ (s.flc.unlocked = true) ∧ (s.flashErased (protBase + l) = true) ∧ (v = erasedWord))
    ∧ (∃ (z : Chip) (s : Chip) (ag : Agent) (l : Nat) (sect : Nat) (v : Word), (∀ (b : Agent), z.flc.cmdAt = some (z.now, b) → b = ag) ∧ (s = z.setFlc ({ z.flc with cmdAt := some (z.now, ag) })) ∧ (l = sect % 64) ∧ (s.flcBusy = false) ∧ (v = s.reg R.FLC_DATA) ∧ (l ≤ 18) ∧ (16 ≤ l ∨ bits (BitVec.toNat v) 35 32 = 0 ∧ bits (BitVec.toNat v) 9 0 ≤ bits (BitVec.toNat v) 19 10) ∧ (s.flc.unlocked = true) ∧ (s.flashErased (protBase + l) = true) ∧ (v ≠ erasedWord))
    ∧ (∃ (s : Chip), (s.flc.op = none ∨ s.flc.pulsing = false))
    ∧ (∃ (s : Chip) (o : FlOp) (a : Nat) (n : Nat) (v : Word) (l : List FlStep) (k : ResetKind), (s.flc.op = some o) ∧ (s.flc.pulsing = true) ∧ (n = o.pulses + 1) ∧ (o.steps = FlStep.prog a v :: l) ∧ (s.pwr.resetWait = some k))
    ∧ (∃ (s : Chip) (o : FlOp) (a : Nat) (n : Nat) (v : Word) (l : List FlStep), (s.flc.op = some o) ∧ (s.flc.pulsing = true) ∧ (n = o.pulses + 1) ∧ (o.steps = FlStep.prog a v :: l) ∧ (s.pwr.resetWait = none) ∧ (o.limit ≤ n))
    ∧ (∃ (s : Chip) (x : Chip) (o : FlOp) (a : Nat) (n : Nat) (v : Word) (l : List FlStep), (s.flc.op = some o) ∧ (s.flc.pulsing = true) ∧ (n = o.pulses + 1) ∧ (o.steps = FlStep.prog a v :: l) ∧ ((s.pwr.resetWait = none) ∧ (n < o.limit)) ∧ (x = s.setFlc ({ s.flc with op := some { o with pulses := n }, pulseTill := some (s.now + us 16), pulseAt := some (s.now + us 20) })) ∧ (Option.any Grant.marked (s.grantOf 6) = false))
    ∧ (∃ (s : Chip) (x : Chip) (o : FlOp) (a : Nat) (n : Nat) (v : Word) (l : List FlStep), (s.flc.op = some o) ∧ (s.flc.pulsing = true) ∧ (n = o.pulses + 1) ∧ (o.steps = FlStep.prog a v :: l) ∧ ((s.pwr.resetWait = none) ∧ (n < o.limit)) ∧ (x = s.setFlc ({ s.flc with op := some { o with pulses := n }, pulseTill := some (s.now + us 16), pulseAt := some (s.now + us 20) })) ∧ (Option.any Grant.marked (s.grantOf 6) = true))
    ∧ (∃ (s : Chip) (o : FlOp) (a : Nat) (n : Nat) (l : List FlStep) (k : ResetKind), (s.flc.op = some o) ∧ (s.flc.pulsing = true) ∧ (n = o.pulses + 1) ∧ (o.steps = FlStep.erase a :: l) ∧ (s.pwr.resetWait = some k))
    ∧ (∃ (s : Chip) (o : FlOp) (a : Nat) (n : Nat) (l : List FlStep) (j : Nat) (w : Word) (l' : List FlStep), (s.flc.op = some o) ∧ (s.flc.pulsing = true) ∧ (n = o.pulses + 1) ∧ (o.steps = FlStep.erase a :: l) ∧ ((s.pwr.resetWait = none) ∧ (8 ≤ n) ∧ (a < 2097152) ∧ (16777216 ≤ j)) ∧ (l = FlStep.prog j w :: l'))
    ∧ (∃ (s : Chip) (o : FlOp) (a : Nat) (n : Nat) (l : List FlStep), (s.flc.op = some o) ∧ (s.flc.pulsing = true) ∧ (n = o.pulses + 1) ∧ (o.steps = FlStep.erase a :: l) ∧ (s.pwr.resetWait = none) ∧ (8 ≤ n) ∧ (l = []))
    ∧ (∃ (s : Chip) (o : FlOp) (a : Nat) (n : Nat) (l : List FlStep), (s.flc.op = some o) ∧ (s.flc.pulsing = true) ∧ (n = o.pulses + 1) ∧ (o.steps = FlStep.erase a :: l) ∧ (s.pwr.resetWait = none) ∧ (8 ≤ n) ∧ (2097152 ≤ a))
    ∧ (∃ (s : Chip) (x : Chip) (o : FlOp) (a : Nat) (n : Nat) (l : List FlStep), (s.flc.op = some o) ∧ (s.flc.pulsing = true) ∧ (n = o.pulses + 1) ∧ (o.steps = FlStep.erase a :: l) ∧ ((s.pwr.resetWait = none) ∧ (n < 8)) ∧ (x = s.endGrant 6))
    ∧ (∃ (s : Chip) (code : Nat) (steps : List FlStep), (code = s.sqEnableCheck) ∧ (steps = List.flatMap s.sqRecover (List.range 64)) ∧ (s.bit F.FLC_CTL_SQEN = true))
    ∧ (∃ (s : Chip) (code : Nat) (steps : List FlStep), (code = s.sqEnableCheck) ∧ (steps = List.flatMap s.sqRecover (List.range 64)) ∧ (s.bit F.FLC_CTL_SQEN = false) ∧ (s.sqWin < 8 ∨ 60 < s.sqWin ∨ s.fld F.FLC_SQCFG_LVLTHR = 0))
    ∧ (∃ (s : Chip) (code : Nat) (steps : List FlStep), (code = s.sqEnableCheck) ∧ (steps = List.flatMap s.sqRecover (List.range 64)) ∧ (s.bit F.FLC_CTL_SQEN = false) ∧ (code ≠ Rc.OK)) :=
  ⟨⟨(let s : Chip := {}; { s with flc := { s.flc with otp := some { word := 0, data := 0#36, attempts := 0 } } }), 0, 0, _, rfl, by decide +kernel⟩,
    ⟨{}, 0, 0, _, rfl, by decide +kernel⟩,
    ⟨{}, 0, 2029568, _, rfl, by decide +kernel⟩,
    ⟨(let s : Chip := {}; { s with flc := { s.flc with sqActive := true } }), 0, 2031616, _, rfl, by decide +kernel⟩,
    ⟨(let s : Chip := {}; let s := { s with flc := { s.flc with prot := some [0xc5c5efc50#36] } }; { s with flc := { s.flc with unlocked := false } }), 0, 2025472, _, rfl, by decide +kernel⟩,
    ⟨(let s : Chip := {}; { s with flash := [(0x100000, 0)] }), _, 0x100000, _, rfl, by decide +kernel, rfl, by decide +kernel⟩,
    ⟨{}, 0, 1048576, _, rfl, by decide +kernel⟩,
    ⟨(let s : Chip := {}; let s := { s with now := 3 }; { s with flc := { s.flc with cmdAt := some (3, Agent.foxA) } }), Agent.foxB, _, 0, _, wSome _ (by decide +kernel), by decide +kernel, rfl⟩,
    ⟨(let s : Chip := {}; let s := { s with now := 7 }; { s with flc := { s.flc with cmdAt := some (7, Agent.foxA) } }), Agent.foxB, _, 0, _, wSome _ (by decide +kernel), by decide +kernel, rfl⟩,
    ⟨(let s : Chip := {}; let s := { s with flc := { s.flc with cmdAt := some (7, Agent.foxB) } }; { s with now := 7 }), Agent.foxA, _, 0, _, wSome _ (by decide +kernel), by decide +kernel, rfl⟩,
    ⟨(let s : Chip := {}; let s := { s with flc := { s.flc with cmdAt := some (2, Agent.foxB) } }; { s with now := 2 }), Agent.foxA, _, 0, _, wSome _ (by decide +kernel), by decide +kernel, rfl⟩,
    ⟨(let s : Chip := {}; let s := { s with flc := { s.flc with cmdAt := some (1, Agent.foxA) } }; { s with now := 1 }), Agent.foxB, _, 0, _, wSome _ (by decide +kernel), by decide +kernel, rfl⟩,
    ⟨(let s : Chip := {}; let s := { s with now := 1 }; { s with flc := { s.flc with cmdAt := some (1, Agent.foxB) } }), Agent.foxA, _, _, wSome _ (by decide +kernel), by decide +kernel, rfl⟩,
    ⟨(let s : Chip := {}; let s := { s with flc := { s.flc with cmdAt := some (8, Agent.foxA) } }; { s with now := 8 }), Agent.foxB, _, _, wSome _ (by decide +kernel), by decide +kernel, rfl⟩,
    ⟨(let s : Chip := {}; { s with flc := { s.flc with cmdAt := some (0, Agent.foxB) } }), Agent.foxA, _, 0, _, wSome _ (by decide +kernel), by decide +kernel, rfl⟩,
    ⟨{}, _, Agent.foxA, 0, _, _, wCmd _ _ _ (by decide +kernel), rfl, rfl, rfl, by decide +kernel⟩,
    ⟨(let s : Chip := {}; s.setReg R.FLC_DATA (W 68719476735)), _, .foxA, 0x100000, _, _, _, wCmd _ _ _ (by decide +kernel), rfl, rfl, rfl, by decide +kernel, rfl⟩,
    ⟨{}, _, Agent.foxA, 1048576, _, _, _, wCmd _ _ _ (by decide +kernel), rfl, rfl, rfl, by decide +kernel, rfl⟩,
    ⟨{}, _, Agent.foxA, 0, _, _, wCmd _ _ _ (by decide +kernel), rfl, rfl, rfl, by decide +kernel⟩,
    ⟨{}, _, Agent.foxA, 1048576, _, _, _, wCmd _ _ _ (by decide +kernel), rfl, rfl, rfl, by decide +kernel, rfl⟩,
    ⟨(let s : Chip := {}; { s with flc := { s.flc with op := some { src := FlSrc.cmd, op := 0, target := 0, steps := [], limit := 0, pulses := 0, spot := 0, begins := false, result := 0 } } }), _, Agent.foxA, _, 0, wCmd _ _ _ (by decide +kernel), rfl, rfl, by decide +kernel⟩,
    ⟨(let s : Chip := {}; s.setReg R.FLC_SQCFG (W 0)), _, Agent.foxA, _, 0, wCmd _ _ _ (by decide +kernel), rfl, rfl, by decide +kernel⟩,
    ⟨{}, _, Agent.foxA, _, 0, wCmd _ _ _ (by decide +kernel), rfl, rfl, by decide +kernel⟩,
    ⟨(let s : Chip := {}; { s with flc := { s.flc with sqActive := true } }), _, Agent.foxA, _, 0, wCmd _ _ _ (by decide +kernel), rfl, rfl, by decide +kernel⟩,
    ⟨(let s : Chip := {}; let s := { s with flash := [(sqBase 0, sqHeader 5)] }; let s := { s with flc := { s.flc with sqActive := true } }; s.setFld F.FLC_SQCFG_WIN 8), _, .foxA, _, 0, _, _, wCmd _ _ _ (by decide +kernel), rfl, rfl, by decide +kernel, wSome _ (by decide +kernel), rfl⟩,
    ⟨(let s : Chip := {}; let s := { s with flash := [(sqBase 0, sqHeader 5), (sqBase 0 + 1, W (3 <<< 24 ||| 1))] }; s.setFld F.FLC_SQCFG_WIN 8), _, .foxA, _, 0, _, wCmd _ _ _ (by decide +kernel), rfl, rfl, by decide +kernel, wSome _ (by decide +kernel), by decide +kernel⟩,
    ⟨(let s : Chip := {}; let s := { s with flash := [(sqBase 0, sqHeader 5), (sqBase 0 + 1, W (3 <<< 24 ||| 1))] }; let s := { s with flc := { s.flc with sqActive := true } }; s.setFld F.FLC_SQCFG_WIN 8), _, .foxA, _, 3, _, wCmd _ _ _ (by decide +kernel), rfl, rfl, by decide +kernel, wSome _ (by decide +kernel), by decide +kernel⟩,
    ⟨(let s : Chip := {}; let s := { s with flash := [(sqBase 0, sqHeader 5), (sqBase 0 + 1, W (3 <<< 24 ||| 1)), (sqBase 1, sqHeader 9), (sqBase 1 + 1, W (3 <<< 24 ||| 1)), (sqBase 1 + 2, sqCommit)] }; let s := { s with flc := { s.flc with sqActive := true } }; s.setFld F.FLC_SQCFG_WIN 8), _, .foxA, _, 3, _, _, wCmd _ _ _ (by decide +kernel), rfl, rfl, by decide +kernel, wSome _ (by decide +kernel), by decide +kernel, wSome _ (by decide +kernel)⟩,
    ⟨{}, _, Agent.foxA, _, 0, wCmd _ _ _ (by decide +kernel), rfl, rfl, by decide +kernel⟩,
    ⟨(let s : Chip := {}; { s with flc := { s.flc with sqActive := true } }), _, Agent.foxA, _, 0, wCmd _ _ _ (by decide +kernel), rfl, rfl, by decide +kernel⟩,
    ⟨(let s : Chip := {}; { s with flc := { s.flc with sqActive := true } }), _, Agent.foxA, _, 0, wCmd _ _ _ (by decide +kernel), rfl, rfl, by decide +kernel⟩,
    ⟨(let s : Chip := {}; let s := { s with flash := [(sqBase 0, sqHeader 5), (sqBase 0 + 1, W (2 <<< 24 ||| 1)), (sqBase 0 + 2, sqCommit), (sqBase 1, sqHeader 900), (sqBase 1 + 1, W (3 <<< 24 ||| 1)), (sqBase 1 + 2, sqCommit)] }; let s := { s with flc := { s.flc with sqActive := true } }; let s := s.setFld F.FLC_SQCFG_WIN 8; s.setFld F.FLC_SQCFG_LVLTHR 1), _, .foxA, _, 3, 0, wCmd _ _ _ (by decide +kernel), rfl, rfl, by decide +kernel⟩,
    ⟨(let s : Chip := {}; let s := { s with flash := [(sqBase 0, sqHeader 5), (sqBase 0 + 1, W (2 <<< 24 ||| 1)), (sqBase 0 + 2, sqCommit), (sqBase 1, sqHeader 900), (sqBase 1 + 1, W (3 <<< 24 ||| 1)), (sqBase 1 + 2, sqCommit), (sqBase 2, sqHeader 7)] }; let s := { s with flc := { s.flc with sqActive := true } }; let s := s.setFld F.FLC_SQCFG_WIN 8; s.setFld F.FLC_SQCFG_LVLTHR 1), _, .foxA, _, 3, 0, _, _, _, wCmd _ _ _ (by decide +kernel), rfl, rfl, by decide +kernel, wSome _ (by decide +kernel), rfl, rfl⟩,
    ⟨(let s : Chip := {}; s.setReg R.FLC_DATA (W 1)), _, Agent.foxA, _, 0, _, wCmd _ _ _ (by decide +kernel), rfl, rfl, by decide +kernel, rfl, by decide +kernel⟩,
    ⟨(let s : Chip := {}; { s with flc := { s.flc with unlocked := false } }), _, Agent.foxA, _, 0, _, wCmd _ _ _ (by decide +kernel), rfl, rfl, by decide +kernel, rfl, by decide +kernel⟩,
    ⟨(let s : Chip := {}; let s := { s with flash := [(protBase, 0)] }; { s with flc := { s.flc with unlocked := true } }), _, .foxA, _, 0, _, wCmd _ _ _ (by decide +kernel), rfl, rfl, by decide +kernel, rfl, by decide +kernel⟩,
    ⟨(let s : Chip := {}; let s := s.setReg R.FLC_DATA erasedWord; { s with flc := { s.flc with unlocked := true } }), _, .foxA, _, 16, _, wCmd _ _ _ (by decide +kernel), rfl, rfl, by decide +kernel, rfl, by decide +kernel⟩,
    ⟨{}, _, Agent.foxA, _, 0, _, wCmd _ _ _ (by decide +kernel), rfl, rfl, by decide +kernel, rfl, by decide +kernel⟩,
    ⟨{}, by decide +kernel⟩,
    ⟨(let s : Chip := {}; let s := { s with flc := { s.flc with pulsing := true } }; let s := { s with pwr := { s.pwr with resetWait := some (ResetKind.wdt 0) } }; { s with flc := { s.flc with op := some { src := FlSrc.cmd, op := 0, target := 0, steps := [FlStep.prog 3 2#36], limit := 0, pulses := 0, result := 0 } } }), _, 3, _, 2#36, _, _, wSome _ (by decide +kernel), by decide +kernel, rfl, wCons _ (by decide +kernel), wSome _ (by decide +kernel)⟩,
    ⟨(let s : Chip := {}; { s with flc := { s.flc with op := some { src := .cmd, op := 1, target := 0x100000, steps := [.prog 0x100000 0], limit := 1, pulses := 0 }, pulsing := true } }), { src := .cmd, op := 1, target := 0x100000, steps := [.prog 0x100000 0], limit := 1, pulses := 0 }, 0x100000, _, 0, [], rfl, by decide +kernel, rfl, rfl, by decide +kernel⟩,
    ⟨(let s : Chip := {}; let s := { s with flc := { s.flc with pulsing := true } }; { s with flc := { s.flc with op := some { src := FlSrc.cmd, op := 0, target := 0, steps := [FlStep.prog 20 3#36], limit := 4, pulses := 0, spot := 0, begins := false, result := 0 } } }), _, _, 20, _, 3#36, _, wSome _ (by decide +kernel), by decide +kernel, rfl, wCons _ (by decide +kernel), by decide +kernel, rfl, by decide +kernel⟩,
    ⟨(let s : Chip := {}; let s := { s with flc := { s.flc with op := some { src := .cmd, op := 1, target := 0x100000, steps := [.prog 0x100000 0], limit := 5, pulses := 0 }, pulsing := true } }; { s with bear := { s.bear with grants := [{ who := 6, power := 0, dur := 0, cont := false, start := 0, cls := 0, arrival := 0, marked := true }] } }), _, _, 0x100000, _, 0, _, wSome _ (by decide +kernel), by decide +kernel, rfl, wCons _ (by decide +kernel), by decide +kernel, rfl, by decide +kernel⟩,
    ⟨(let s : Chip := {}; let s := { s with flc := { s.flc with pulsing := true } }; let s := { s with pwr := { s.pwr with resetWait := some (ResetKind.wdt 0) } }; { s with flc := { s.flc with op := some { src := FlSrc.cmd, op := 0, target := 0, steps := [FlStep.erase 4], limit := 0, pulses := 0, result := 0 } } }), _, 4, _, _, _, wSome _ (by decide +kernel), by decide +kernel, rfl, wCons _ (by decide +kernel), wSome _ (by decide +kernel)⟩,
    ⟨(let s : Chip := {}; { s with flc := { s.flc with op := some { src := .cmd, op := 1, target := 0x100000, steps := [.erase 0x100000, .prog 0x1000000 0], limit := 8, pulses := 7 }, pulsing := true } }), { src := .cmd, op := 1, target := 0x100000, steps := [.erase 0x100000, .prog 0x1000000 0], limit := 8, pulses := 7 }, 0x100000, _, [.prog 0x1000000 0], 0x1000000, 0, [], rfl, by decide +kernel, rfl, rfl, by decide +kernel, rfl⟩,
    ⟨(let s : Chip := {}; let s := { s with flc := { s.flc with pulsing := true } }; { s with flc := { s.flc with op := some { src := FlSrc.cmd, op := 0, target := 0, steps := [FlStep.erase 0], limit := 0, pulses := 7, result := 0 } } }), _, 0, _, _, wSome _ (by decide +kernel), by decide +kernel, rfl, wCons _ (by decide +kernel), by decide +kernel⟩,
    ⟨(let s : Chip := {}; let s := { s with flc := { s.flc with pulsing := true } }; { s with flc := { s.flc with op := some { src := FlSrc.cmd, op := 0, target := 0, steps := [FlStep.erase 2097153], limit := 0, pulses := 7, result := 0 } } }), _, 2097153, _, _, wSome _ (by decide +kernel), by decide +kernel, rfl, wCons _ (by decide +kernel), by decide +kernel⟩,
    ⟨(let s : Chip := {}; let s := { s with flc := { s.flc with pulsing := true } }; { s with flc := { s.flc with op := some { src := FlSrc.cmd, op := 0, target := 0, steps := [FlStep.erase 16, FlStep.prog 0 0#36, FlStep.prog 0 0#36], limit := 0, pulses := 0, result := 0 } } }), _, _, 16, _, _, wSome _ (by decide +kernel), by decide +kernel, rfl, wCons _ (by decide +kernel), by decide +kernel, rfl⟩,
    ⟨(let s : Chip := {}; s.setReg R.FLC_CTL (W 2)), _, _, rfl, rfl, by decide +kernel⟩,
    ⟨(let s : Chip := {}; s.setReg R.FLC_SQCFG (W 0)), _, _, rfl, rfl, by decide +kernel⟩,
    ⟨(let s : Chip := {}; s.setReg R.FLC_SQCFG (W 0)), _, _, rfl, rfl, by decide +kernel⟩⟩

theorem wit_HostPort :
    (∃ (s : Chip), (s.bit F.HP_CTL_EN = true))
    ∧ (∃ (s : Chip) (y : Chip), (s.bit F.HP_CTL_EN = false) ∧ (y = s.hpSelect) ∧ (s.prov 12 = false))
    ∧ (∃ (s : Chip) (y : Chip) (p : Nat × Nat), (s.bit F.HP_CTL_EN = false) ∧ (y = s.hpSelect) ∧ (s.prov 12 = true) ∧ (p = (4, Mean.HCS)) ∧ (meanIn (s.pinMap p.fst) Phase.run ≠ p.snd ∨ meanIn (s.pinMap p.fst) Phase.slot ≠ p.snd))
    ∧ (∃ (s : Chip) (x : Chip) (y : Chip), (s.bit F.HP_CTL_EN = false) ∧ (y = s.hpSelect) ∧ ((s.prov 12 = true) ∧ (∀ (p : Nat × Nat), p ∈ [(4, Mean.HCS), (5, Mean.HCK), (6, Mean.HDI), (7, Mean.HDO)] → meanIn (s.pinMap p.fst) Phase.run = p.snd ∧ meanIn (s.pinMap p.fst) Phase.slot = p.snd) ∧ (y.holds 10 = true)) ∧ (x = y) ∧ (x.holds 10 = true))
    ∧ (∃ (s : Chip) (x : Chip) (y : Chip), (s.bit F.HP_CTL_EN = false) ∧ (y = s.hpSelect) ∧ ((s.prov 12 = true) ∧ (∀ (p : Nat × Nat), p ∈ [(4, Mean.HCS), (5, Mean.HCK), (6, Mean.HDI), (7, Mean.HDO)] → meanIn (s.pinMap p.fst) Phase.run = p.snd ∧ meanIn (s.pinMap p.fst) Phase.slot = p.snd) ∧ (y.holds 10 = false)) ∧ (x = y.claimNow 10 (y.fld (F.EGY_DECL_PEAK 10))) ∧ (x.holds 10 = true))
    ∧ (∃ (s : Chip) (x : Chip) (y : Chip), (s.bit F.HP_CTL_EN = false) ∧ (y = s.hpSelect) ∧ ((s.prov 12 = true) ∧ (∀ (p : Nat × Nat), p ∈ [(4, Mean.HCS), (5, Mean.HCK), (6, Mean.HDI), (7, Mean.HDO)] → meanIn (s.pinMap p.fst) Phase.run = p.snd ∧ meanIn (s.pinMap p.fst) Phase.slot = p.snd) ∧ (y.holds 10 = false)) ∧ (x = y.claimNow 10 (y.fld (F.EGY_DECL_PEAK 10))) ∧ (x.holds 10 = false))
    ∧ (∃ (s : Chip) (x : Chip) (i : Instr) (n : Nat) (addr : Nat) (k : Nat), ((s.hpHears = false) ∧ (s.padIn 4 = true)) ∧ (x = s.wakePinEdge 4 false) ∧ (i = Instr.hostRead n addr k))
    ∧ (∃ (s : Chip) (x : Chip) (i : Instr) (n : Nat) (addr : Nat) (k : Nat), ((s.hpHears = false) ∧ (s.padIn 4 = true)) ∧ (x = s.wakePinEdge 4 false) ∧ (i = Instr.hostReadf n addr k))
    ∧ (∃ (s : Chip) (x : Chip) (i : Instr) (n : Nat) (addr : Nat) (ws : List Word), ((s.hpHears = false) ∧ (s.padIn 4 = true)) ∧ (x = s.wakePinEdge 4 false) ∧ (i = Instr.hostWrite n addr ws))
    ∧ (∃ (s : Chip) (x : Chip) (i : Instr) (n : Nat) (addr : Nat) (ws : List Word), ((s.hpHears = false) ∧ (s.padIn 4 = true)) ∧ (x = s.wakePinEdge 4 false) ∧ (i = Instr.hostWritef n addr ws))
    ∧ (∃ (s : Chip) (x : Chip) (i : Instr) (cmd : Nat) (hi : Nat) (lo : Nat), ((s.hpHears = false) ∧ (s.padIn 4 = true)) ∧ (x = s.wakePinEdge 4 false) ∧ (i = Instr.hostOffer cmd hi lo))
    ∧ (∃ (s : Chip) (x : Chip) (i : Instr) (addr : Nat) (k : Nat), ((s.hpHears = false) ∧ (s.padIn 4 = true)) ∧ (x = s.wakePinEdge 4 false) ∧ (i = Instr.hostV1Read addr k))
    ∧ (∃ (s : Chip) (x : Chip) (i : Instr) (addr : Nat) (ws : List Word), ((s.hpHears = false) ∧ (s.padIn 4 = true)) ∧ (x = s.wakePinEdge 4 false) ∧ (i = Instr.hostV1Write addr ws))
    ∧ (∃ (s : Chip) (x : Chip) (i : Instr) (n : Nat) (addr : Nat) (k : Nat), ((s.hpHears = false) ∧ (s.padIn 4 = false)) ∧ (x = s) ∧ (i = Instr.hostRead n addr k))
    ∧ (∃ (s : Chip) (x : Chip) (i : Instr) (n : Nat) (addr : Nat) (k : Nat), ((s.hpHears = false) ∧ (s.padIn 4 = false)) ∧ (x = s) ∧ (i = Instr.hostReadf n addr k))
    ∧ (∃ (s : Chip) (x : Chip) (i : Instr) (n : Nat) (addr : Nat) (ws : List Word), ((s.hpHears = false) ∧ (s.padIn 4 = false)) ∧ (x = s) ∧ (i = Instr.hostWrite n addr ws))
    ∧ (∃ (s : Chip) (x : Chip) (i : Instr) (n : Nat) (addr : Nat) (ws : List Word), ((s.hpHears = false) ∧ (s.padIn 4 = false)) ∧ (x = s) ∧ (i = Instr.hostWritef n addr ws))
    ∧ (∃ (s : Chip) (x : Chip) (i : Instr) (cmd : Nat) (hi : Nat) (lo : Nat), ((s.hpHears = false) ∧ (s.padIn 4 = false)) ∧ (x = s) ∧ (i = Instr.hostOffer cmd hi lo))
    ∧ (∃ (s : Chip) (x : Chip) (i : Instr) (addr : Nat) (k : Nat), ((s.hpHears = false) ∧ (s.padIn 4 = false)) ∧ (x = s) ∧ (i = Instr.hostV1Read addr k))
    ∧ (∃ (s : Chip) (x : Chip) (i : Instr) (addr : Nat) (ws : List Word), ((s.hpHears = false) ∧ (s.padIn 4 = false)) ∧ (x = s) ∧ (i = Instr.hostV1Write addr ws))
    ∧ (∃ (s : Chip) (x : Chip) (i : Instr) (n : Nat) (addr : Nat) (k : Nat), (s.hpHears = true) ∧ (x = ({ (s.count F.HP_CNT_BADCMD) with hp := { s.hp with hdo := if s.hpVer = 1 then [] else [s.hstatView], octs := [] } }).hpReason 160) ∧ (s.hpVer < 2) ∧ (i = Instr.hostRead n addr k))
    ∧ (∃ (s : Chip) (x : Chip) (i : Instr) (n : Nat) (addr : Nat) (k : Nat), (s.hpHears = true) ∧ (x = ({ (s.count F.HP_CNT_BADCMD) with hp := { s.hp with hdo := if s.hpVer = 1 then [] else [s.hstatView], octs := [] } }).hpReason 160) ∧ (s.hpVer < 2) ∧ (i = Instr.hostReadf n addr k))
    ∧ (∃ (s : Chip) (x : Chip) (i : Instr) (n : Nat) (addr : Nat) (ws : List Word), (s.hpHears = true) ∧ (x = ({ (s.count F.HP_CNT_BADCMD) with hp := { s.hp with hdo := if s.hpVer = 1 then [] else [s.hstatView], octs := [] } }).hpReason 160) ∧ (s.hpVer < 2) ∧ (i = Instr.hostWrite n addr ws))
    ∧ (∃ (s : Chip) (x : Chip) (i : Instr) (n : Nat) (addr : Nat) (ws : List Word), (s.hpHears = true) ∧ (x = ({ (s.count F.HP_CNT_BADCMD) with hp := { s.hp with hdo := if s.hpVer = 1 then [] else [s.hstatView], octs := [] } }).hpReason 160) ∧ (s.hpVer < 2) ∧ (i = Instr.hostWritef n addr ws))
    ∧ (∃ (s : Chip) (x : Chip) (i : Instr) (addr : Nat) (k : Nat), (s.hpHears = true) ∧ (x = ({ (s.count F.HP_CNT_BADCMD) with hp := { s.hp with hdo := if s.hpVer = 1 then [] else [s.hstatView], octs := [] } }).hpReason 160) ∧ (2 ≤ s.hpVer) ∧ (i = Instr.hostV1Read addr k))
    ∧ (∃ (s : Chip) (x : Chip) (i : Instr) (addr : Nat) (ws : List Word), (s.hpHears = true) ∧ (x = ({ (s.count F.HP_CNT_BADCMD) with hp := { s.hp with hdo := if s.hpVer = 1 then [] else [s.hstatView], octs := [] } }).hpReason 160) ∧ (2 ≤ s.hpVer) ∧ (i = Instr.hostV1Write addr ws))
    ∧ (∃ (s : Chip) (x : Chip) (cmd : Nat), (s.hpHears = true) ∧ (x = ({ (s.count F.HP_CNT_BADCMD) with hp := { s.hp with hdo := if s.hpVer = 1 then [] else [s.hstatView], octs := [] } }).hpReason 160) ∧ (cmd ≠ 165 ∨ s.hpVer = 1))
    ∧ (∃ (s : Chip) (x : Chip) (i : Instr) (addr : Nat) (k : Nat), (s.hpHears = true) ∧ (x = ({ (s.count F.HP_CNT_BADCMD) with hp := { s.hp with hdo := if s.hpVer = 1 then [] else [s.hstatView], octs := [] } }).hpReason 160) ∧ ((s.hpVer = 0) ∧ (1 < (s.offer 0).fst)) ∧ (i = Instr.hostV1Read addr k))
    ∧ (∃ (s : Chip) (x : Chip) (i : Instr) (addr : Nat) (ws : List Word), (s.hpHears = true) ∧ (x = ({ (s.count F.HP_CNT_BADCMD) with hp := { s.hp with hdo := if s.hpVer = 1 then [] else [s.hstatView], octs := [] } }).hpReason 160) ∧ ((s.hpVer = 0) ∧ (1 < (s.offer 0).fst)) ∧ (i = Instr.hostV1Write addr ws))
    ∧ (∃ (s : Chip) (fixed : Bool) (n : Nat) (addr : Nat) (k : Nat) (x : List Word × Chip) (tail : List Word), ((s.hpHears = true) ∧ (2 ≤ s.hpVer)) ∧ (x = s.hostData fixed n addr (min n k)) ∧ (tail = if k ≤ n then [] else (if s.hpVer = 3 then checkWord ((if fixed = true then 3 else 1) <<< 32 ||| (n - 1) <<< 24 ||| addr) x.fst else 0) :: List.replicate (k - n - 1) 0))
    ∧ (∃ (fixed : Bool) (n : Nat) (addr : Nat), (∀ (a : Nat), a ∈ hostAddrs fixed addr n → isMirror a = true))
    ∧ (∃ (s : Chip) (fixed : Bool) (n : Nat) (addr : Nat) (a : Nat), (a ∈ hostAddrs fixed addr n) ∧ (isMirror a = false) ∧ (s.hp.fetch = none))
    ∧ (∃ (s : Chip) (fixed : Bool) (n : Nat) (addr : Nat) (a : Nat), (a ∈ hostAddrs fixed addr n) ∧ (isMirror a = false) ∧ (s.hp.fetch ≠ none))
    ∧ (∃ (s : Chip) (x : Chip), (s.hpHears = true) ∧ (x = { s with hp := { s.hp with hdo := [s.hstatView] } }) ∧ (2 ≤ s.hpVer) ∧ (s.hpVer ≠ 3))
    ∧ (∃ (s : Chip) (x : Chip) (n : Nat) (ws : List Word), (s.hpHears = true) ∧ (x = { s with hp := { s.hp with hdo := [s.hstatView] } }) ∧ (s.hpVer = 3) ∧ (ws.length ≤ n))
    ∧ (∃ (s : Chip) (x : Chip) (fixed : Bool) (n : Nat) (addr : Nat) (ws : List Word), (s.hpHears = true) ∧ (x = { s with hp := { s.hp with hdo := [s.hstatView] } }) ∧ (s.hpVer = 3) ∧ (n < ws.length) ∧ (ws.getD n 0 = checkWord ((if fixed = true then 4 else 2) <<< 32 ||| (n - 1) <<< 24 ||| addr) (List.take n ws)))
    ∧ (∃ (s : Chip) (x : Chip) (fixed : Bool) (n : Nat) (addr : Nat) (ws : List Word), (s.hpHears = true) ∧ (x = { s with hp := { s.hp with hdo := [s.hstatView] } }) ∧ (s.hpVer = 3) ∧ (n < ws.length) ∧ (ws.getD n 0 ≠ checkWord ((if fixed = true then 4 else 2) <<< 32 ||| (n - 1) <<< 24 ||| addr) (List.take n ws)))
    ∧ (∃ (a : Nat), (isMirror a = true))
    ∧ (∃ (s : Chip) (a : Nat), (isMirror a = false) ∧ (s.hp.posts.length < 16))
    ∧ (∃ (s : Chip) (a : Nat), (isMirror a = false) ∧ (16 ≤ s.hp.posts.length))
    ∧ (∃ (s : Chip) (hi : Nat) (lo : Nat) (ans : Chip → Nat → Nat → Chip), ((s.hpHears = true) ∧ (s.hpVer ≠ 1)) ∧ (∀ (c : Chip) (v code : Nat), ans c v code = { c with hp := { c.hp with hdo := [s.hstatView, W (v <<< 8 ||| code)] } }.hpReason code) ∧ (hi < lo))
    ∧ (∃ (s : Chip) (hi : Nat) (lo : Nat) (ans : Chip → Nat → Nat → Chip), ((s.hpHears = true) ∧ (s.hpVer ≠ 1)) ∧ (∀ (c : Chip) (v code : Nat), ans c v code = { c with hp := { c.hp with hdo := [s.hstatView, W (v <<< 8 ||| code)] } }.hpReason code) ∧ (lo ≤ hi) ∧ (max (s.offer 0).fst lo ≤ min (s.offer 0).snd hi))
    ∧ (∃ (s : Chip) (hi : Nat) (lo : Nat) (ans : Chip → Nat → Nat → Chip), ((s.hpHears = true) ∧ (s.hpVer ≠ 1)) ∧ (∀ (c : Chip) (v code : Nat), ans c v code = { c with hp := { c.hp with hdo := [s.hstatView, W (v <<< 8 ||| code)] } }.hpReason code) ∧ (lo ≤ hi) ∧ (min (s.offer 0).snd hi < max (s.offer 0).fst lo))
    ∧ (∃ (s : Chip) (x : Chip) (k : Nat), ((s.hpHears = true) ∧ (s.hpVer = 1)) ∧ (x = s) ∧ (k = 0))
    ∧ (∃ (s : Chip) (x : Chip) (addr : Nat) (k : Nat) (y : List Word × Chip), ((s.hpHears = true) ∧ (s.hpVer = 1)) ∧ (x = s) ∧ (k ≠ 0) ∧ (y = x.hostData false k addr k))
    ∧ (∃ (s : Chip) (x : Chip) (ws : List Word) (y : Chip), ((s.hpHears = true) ∧ (s.hpVer = 1)) ∧ (x = s) ∧ (y = { x with hp := { x.hp with hdo := [], octs := List.replicate (4 + 5 * ws.length) 0 } }))
    ∧ (∃ (s : Chip) (x : Chip) (k : Nat), ((s.hpHears = true) ∧ (s.hpVer = 0) ∧ ((s.offer 0).fst ≤ 1)) ∧ (x = s.setFld F.HP_STAT_VER 1) ∧ (k = 0))
    ∧ (∃ (s : Chip) (x : Chip) (addr : Nat) (k : Nat) (y : List Word × Chip), ((s.hpHears = true) ∧ (s.hpVer = 0) ∧ ((s.offer 0).fst ≤ 1)) ∧ (x = s.setFld F.HP_STAT_VER 1) ∧ (k ≠ 0) ∧ (y = x.hostData false k addr k))
    ∧ (∃ (s : Chip) (x : Chip) (ws : List Word) (y : Chip), ((s.hpHears = true) ∧ (s.hpVer = 0) ∧ ((s.offer 0).fst ≤ 1)) ∧ (x = s.setFld F.HP_STAT_VER 1) ∧ (y = { x with hp := { x.hp with hdo := [], octs := List.replicate (4 + 5 * ws.length) 0 } }))
    ∧ (∃ (s : Chip), (s.hp.fetch = none))
    ∧ (∃ (s : Chip) (f : HostFetch), (s.hp.fetch = some f) ∧ (f.behind ≠ 0))
    ∧ (∃ (s : Chip) (x : Chip) (f : HostFetch), (s.hp.fetch = some f) ∧ (f.behind = 0) ∧ (x = { s with hp := { s.hp with fetch := none } }.fetchWords 0 (hostAddrs f.fixed f.addr f.n)))
    ∧ (∃ (s : Chip), (s.hp.posts = []))
    ∧ (∃ (s : Chip) (x : Chip) (a : Nat) (v : Word) (l : List (Nat × Word)), (s.hp.posts = (a, v) :: l) ∧ (s.hp.fetch = none) ∧ (x = { s with hp := { s.hp with posts := l } }) ∧ (isSram a = true))
    ∧ (∃ (s : Chip) (x : Chip) (a : Nat) (v : Word) (l : List (Nat × Word)), (s.hp.posts = (a, v) :: l) ∧ (s.hp.fetch = none) ∧ (x = { s with hp := { s.hp with posts := l } }) ∧ (isSram a = false) ∧ (isReg a = true))
    ∧ (∃ (s : Chip) (x : Chip) (a : Nat) (v : Word) (l : List (Nat × Word)), (s.hp.posts = (a, v) :: l) ∧ (s.hp.fetch = none) ∧ (x = { s with hp := { s.hp with posts := l } }) ∧ (isSram a = false) ∧ (isReg a = false))
    ∧ (∃ (s : Chip) (x : Chip) (a : Nat) (v : Word) (l : List (Nat × Word)) (f : HostFetch), (s.hp.posts = (a, v) :: l) ∧ (s.hp.fetch = some f) ∧ (x = { s with hp := { s.hp with posts := l, fetch := some { f with behind := f.behind - 1 } } }) ∧ (isSram a = true))
    ∧ (∃ (s : Chip) (x : Chip) (a : Nat) (v : Word) (l : List (Nat × Word)) (f : HostFetch), (s.hp.posts = (a, v) :: l) ∧ (s.hp.fetch = some f) ∧ (x = { s with hp := { s.hp with posts := l, fetch := some { f with behind := f.behind - 1 } } }) ∧ (isSram a = false) ∧ (isReg a = true))
    ∧ (∃ (s : Chip) (x : Chip) (a : Nat) (v : Word) (l : List (Nat × Word)) (f : HostFetch), (s.hp.posts = (a, v) :: l) ∧ (s.hp.fetch = some f) ∧ (x = { s with hp := { s.hp with posts := l, fetch := some { f with behind := f.behind - 1 } } }) ∧ (isSram a = false) ∧ (isReg a = false))
    ∧ (∃ (v : Word), (v = 0))
    ∧ (∃ (v : Word), (v ≠ 0)) :=
  ⟨⟨(hostBase {}), by decide +kernel⟩,
    ⟨(let s : Chip := {}; { s with cfg := { s.cfg with prov := 0 } }), _, by decide +kernel, rfl, by decide +kernel⟩,
    ⟨(let s : Chip := {}; s.setReg (R.PIN_MAP 4) (W 0)), _, _, by decide +kernel, rfl, by decide +kernel, rfl, by decide +kernel⟩,
    ⟨(let s : Chip := {}; { s with bear := { s.bear with grants := [{ who := 0, power := 0, dur := 0, cont := false, start := 0, cls := 0, arrival := 0, minP := none, deadline := some 0, marked := false }, { who := 10, power := 0, dur := 0, cont := false, start := 0, cls := 0, arrival := 0, minP := none, deadline := none, marked := false }] } }), _, _, by decide +kernel, rfl, by decide +kernel, rfl, by decide +kernel⟩,
    ⟨(let s : Chip := {}; let s := { s with bear := { s.bear with c := (10 ^ 9, 1), level := 10 ^ 18, valid := true } }; let s := s.setFld F.EGY_CAP_CAP 60000; s.setFld F.EGY_SUPPLY_REFILL 2000), _, _, by decide +kernel, rfl, by decide +kernel, rfl, by decide +kernel⟩,
    ⟨{}, _, _, by decide +kernel, rfl, by decide +kernel, rfl, by decide +kernel⟩,
    ⟨{}, _, _, 0, 0, 0, by decide +kernel, rfl, rfl⟩,
    ⟨{}, _, _, 0, 0, 0, by decide +kernel, rfl, rfl⟩,
    ⟨{}, _, _, 0, 0, [], by decide +kernel, rfl, rfl⟩,
    ⟨{}, _, _, 0, 0, [], by decide +kernel, rfl, rfl⟩,
    ⟨{}, _, _, 0, 0, 0, by decide +kernel, rfl, rfl⟩,
    ⟨{}, _, _, 0, 0, by decide +kernel, rfl, rfl⟩,
    ⟨{}, _, _, 0, [], by decide +kernel, rfl, rfl⟩,
    ⟨_, (let s : Chip := {}; { s with pins := { s.pins with driven := 16 } }), _, 0, 0, 0, by decide +kernel, rfl, rfl⟩,
    ⟨_, (let s : Chip := {}; { s with pins := { s.pins with driven := 16 } }), _, 0, 0, 0, by decide +kernel, rfl, rfl⟩,
    ⟨_, (let s : Chip := {}; { s with pins := { s.pins with driven := 16 } }), _, 0, 0, [], by decide +kernel, rfl, rfl⟩,
    ⟨_, (let s : Chip := {}; { s with pins := { s.pins with driven := 16 } }), _, 0, 0, [], by decide +kernel, rfl, rfl⟩,
    ⟨_, (let s : Chip := {}; { s with pins := { s.pins with driven := 16 } }), _, 0, 0, 0, by decide +kernel, rfl, rfl⟩,
    ⟨_, (let s : Chip := {}; { s with pins := { s.pins with driven := 16, pad := 0 } }), _, 0, 0, by decide +kernel, rfl, rfl⟩,
    ⟨_, (let s : Chip := {}; { s with pins := { s.pins with driven := 16, pad := 0 } }), _, 0, [], by decide +kernel, rfl, rfl⟩,
    ⟨(hostBase {}), _, _, 0, 0, 0, by decide +kernel, rfl, by decide +kernel, rfl⟩,
    ⟨(hostBase {}), _, _, 0, 0, 0, by decide +kernel, rfl, by decide +kernel, rfl⟩,
    ⟨(hostBase {}), _, _, 0, 0, [], by decide +kernel, rfl, by decide +kernel, rfl⟩,
    ⟨(hostBase {}), _, _, 0, 0, [], by decide +kernel, rfl, by decide +kernel, rfl⟩,
    ⟨(let s : Chip := {}; let s := hostBase s; s.setFld F.HP_STAT_VER 2), _, _, 0, 0, by decide +kernel, rfl, by decide +kernel, rfl⟩,
    ⟨(let s : Chip := {}; let s := s.setFld F.HP_STAT_VER 2; hostBase s), _, _, 0, [], by decide +kernel, rfl, by decide +kernel, rfl⟩,
    ⟨(hostBase {}), _, 0, by decide +kernel, rfl, by decide +kernel⟩,
    ⟨(let s : Chip := {}; let s := { s with cfg := { s.cfg with versions := [(false, 2, 0)] } }; hostBase s), _, _, 0, 0, by decide +kernel, rfl, by decide +kernel, rfl⟩,
    ⟨(let s : Chip := {}; let s := hostBase s; { s with cfg := { s.cfg with versions := [(false, 2, 0)] } }), _, _, 0, [], by decide +kernel, rfl, by decide +kernel, rfl⟩,
    ⟨(let s : Chip := {}; let s := hostBase s; s.setFld F.HP_STAT_VER 2), false, 0, 0, 0, _, _, by decide +kernel, rfl, rfl⟩,
    ⟨false, 0, 0, by decide +kernel⟩,
    ⟨{}, false, 1, 0, 0, by decide +kernel⟩,
    ⟨(let s : Chip := {}; { s with hp := { s.hp with fetch := some { fixed := false, n := 0, addr := 0, behind := 0 } } }), false, 1, 3, 3, by decide +kernel⟩,
    ⟨(let s : Chip := {}; let s := s.setFld F.HP_STAT_VER 2; hostBase s), _, by decide +kernel, rfl, by decide +kernel⟩,
    ⟨(let s : Chip := {}; let s := s.setFld F.HP_STAT_VER 3; hostBase s), _, 0, [], by decide +kernel, rfl, by decide +kernel⟩,
    ⟨(let s : Chip := {}; let s := hostBase s; s.setFld F.HP_STAT_VER 3), _, false, 1, 0, [0, checkWord (2 <<< 32) [0]], by decide +kernel, rfl, by decide +kernel⟩,
    ⟨(let s : Chip := {}; let s := hostBase s; s.setFld F.HP_STAT_VER 3), _, false, 0, 0, [0#36], by decide +kernel, rfl, by decide +kernel⟩,
    ⟨0x400000, by decide +kernel⟩,
    ⟨{}, 0, by decide +kernel⟩,
    ⟨(let s : Chip := {}; { s with hp := { s.hp with posts := List.replicate 16 (0, 0) } }), 0, by decide +kernel⟩,
    ⟨(let s : Chip := {}; let s := hostBase s; s.setFld F.HP_STAT_VER 3), 1, 2, fun c v code => ({ c with hp := { c.hp with hdo := [Chip.hstatView ((hostBase {}).setFld F.HP_STAT_VER 3), W (v <<< 8 ||| code)] } } : Chip).hpReason code, by decide +kernel, fun _ _ _ => rfl, by decide +kernel⟩,
    ⟨(let s : Chip := {}; let s := hostBase s; s.setFld F.HP_STAT_VER 3), 2, 2, fun c v code => ({ c with hp := { c.hp with hdo := [Chip.hstatView ((hostBase {}).setFld F.HP_STAT_VER 3), W (v <<< 8 ||| code)] } } : Chip).hpReason code, by decide +kernel, fun _ _ _ => rfl, by decide +kernel⟩,
    ⟨(let s : Chip := {}; let s := hostBase s; s.setFld F.HP_STAT_VER 3), 9, 9, fun c v code => ({ c with hp := { c.hp with hdo := [Chip.hstatView ((hostBase {}).setFld F.HP_STAT_VER 3), W (v <<< 8 ||| code)] } } : Chip).hpReason code, by decide +kernel, fun _ _ _ => rfl, by decide +kernel⟩,
    ⟨_, (let s : Chip := {}; let s := s.setFld F.HP_STAT_VER 1; hostBase s), _, by decide +kernel, rfl, rfl⟩,
    ⟨_, (let s : Chip := {}; let s := s.setFld F.HP_STAT_VER 1; hostBase s), 0, 1, _, by decide +kernel, rfl, by decide +kernel, rfl⟩,
    ⟨_, (let s : Chip := {}; let s := hostBase s; s.setReg R.HP_STAT (W 1353)), [], _, by decide +kernel, rfl, rfl⟩,
    ⟨(hostBase {}), _, _, by decide +kernel, rfl, rfl⟩,
    ⟨(hostBase {}), _, 0, 1, _, by decide +kernel, rfl, by decide +kernel, rfl⟩,
    ⟨(hostBase {}), _, [], _, by decide +kernel, rfl, rfl⟩,
    ⟨{}, by decide +kernel⟩,
    ⟨(let s : Chip := {}; { s with hp := { s.hp with fetch := some { fixed := false, n := 0, addr := 0, behind := 1 } } }), _, wSome _ (by decide +kernel), by decide +kernel⟩,
    ⟨(let s : Chip := {}; { s with hp := { s.hp with fetch := some { fixed := false, n := 0, addr := 0, behind := 0 } } }), _, _, wSome _ (by decide +kernel), by decide +kernel, rfl⟩,
    ⟨{}, by decide +kernel⟩,
    ⟨(let s : Chip := {}; { s with hp := { s.hp with posts := [(65536, 0#36)] } }), _, _, _, _, wCons _ (by decide +kernel), by decide +kernel, rfl, by decide +kernel⟩,
    ⟨(let s : Chip := {}; { s with hp := { s.hp with posts := [(3145728, 0#36)] } }), _, _, _, _, wCons _ (by decide +kernel), by decide +kernel, rfl, by decide +kernel⟩,
    ⟨(let s : Chip := {}; { s with hp := { s.hp with posts := [(0, 0#36)] } }), _, _, _, _, wCons _ (by decide +kernel), by decide +kernel, rfl, by decide +kernel⟩,
    ⟨(let s : Chip := {}; let s := { s with hp := { s.hp with fetch := some { fixed := false, n := 0, addr := 0, behind := 0 } } }; { s with hp := { s.hp with posts := [(65536, 0#36)] } }), _, _, _, _, _, wCons _ (by decide +kernel), wSome _ (by decide +kernel), rfl, by decide +kernel⟩,
    ⟨(let s : Chip := {}; let s := { s with hp := { s.hp with fetch := some { fixed := false, n := 0, addr := 0, behind := 0 } } }; { s with hp := { s.hp with posts := [(3145728, 0#36)] } }), _, _, _, _, _, wCons _ (by decide +kernel), wSome _ (by decide +kernel), rfl, by decide +kernel⟩,
    ⟨(let s : Chip := {}; let s := { s with hp := { s.hp with fetch := some { fixed := false, n := 0, addr := 0, behind := 0 } } }; { s with hp := { s.hp with posts := [(0, 0#36)] } }), _, _, _, _, _, wCons _ (by decide +kernel), wSome _ (by decide +kernel), rfl, by decide +kernel⟩,
    ⟨_, rfl⟩,
    ⟨1#36, by decide +kernel⟩⟩

theorem wit_ServicePortAndLoader :
    (∃ (s : Chip) (o : SvcOut) (hi : Nat) (lo : Nat), (s.bit F.SVC_STAT_SESSION = false) ∧ (o = { ack := 4, words := [W 165], chip := s.setReason R.SVC_STAT 165 }) ∧ (lo ≤ hi) ∧ (max (s.offer 2).fst lo ≤ min (s.offer 2).snd hi))
    ∧ (∃ (s : Chip) (o : SvcOut) (hi : Nat) (lo : Nat), (s.bit F.SVC_STAT_SESSION = false) ∧ (o = { ack := 4, words := [W 165], chip := s.setReason R.SVC_STAT 165 }) ∧ (hi < lo))
    ∧ (∃ (s : Chip) (o : SvcOut) (hi : Nat) (lo : Nat), (s.bit F.SVC_STAT_SESSION = false) ∧ (o = { ack := 4, words := [W 165], chip := s.setReason R.SVC_STAT 165 }) ∧ (lo ≤ hi) ∧ (min (s.offer 2).snd hi < max (s.offer 2).fst lo))
    ∧ (∃ (s : Chip) (hi : Nat) (lo : Nat), (s.bit F.SVC_STAT_SESSION = true) ∧ (hi < lo))
    ∧ (∃ (s : Chip) (hi : Nat) (lo : Nat), (s.bit F.SVC_STAT_SESSION = true) ∧ (lo ≤ hi) ∧ (max (s.offer 2).fst lo ≤ min (s.offer 2).snd hi))
    ∧ (∃ (s : Chip) (hi : Nat) (lo : Nat), (s.bit F.SVC_STAT_SESSION = true) ∧ (lo ≤ hi) ∧ (min (s.offer 2).snd hi < max (s.offer 2).fst lo))
    ∧ (∃ (s : Chip) (t : Chip) (n : Nat) (addr : Nat) (l : List Word), (s.bit F.SVC_STAT_SESSION = true) ∧ (s.svcReads (hostAddrs false addr n) = (some l, t)))
    ∧ (∃ (s : Chip) (t : Chip) (n : Nat) (addr : Nat), (s.bit F.SVC_STAT_SESSION = true) ∧ (s.svcReads (hostAddrs false addr n) = (none, t)))
    ∧ (∃ (s : Chip) (t : Chip) (addr : Nat) (ws : List Word), (s.bit F.SVC_STAT_SESSION = true) ∧ (s.svcWrites ((hostAddrs false addr ws.length).zip ws) = (true, t)))
    ∧ (∃ (s : Chip) (t : Chip) (addr : Nat) (ws : List Word), (s.bit F.SVC_STAT_SESSION = true) ∧ (s.svcWrites ((hostAddrs false addr ws.length).zip ws) = (false, t)))
    ∧ (∃ (s : Chip) (c : Core), (s.bit F.SVC_STAT_SESSION = true) ∧ ((s.core c).stopped = false))
    ∧ (∃ (s : Chip) (r : Nat) (c : Core), (s.bit F.SVC_STAT_SESSION = true) ∧ ((s.core c).stopped = true) ∧ (4 ≤ r) ∧ (r < 16))
    ∧ (∃ (s : Chip) (addr : Nat), (s.bit F.SVC_STAT_SESSION = true) ∧ (addr % 2 = 1))
    ∧ (∃ (s : Chip) (addr : Nat), (s.bit F.SVC_STAT_SESSION = true) ∧ (addr % 2 = 0))
    ∧ (∃ (s : Chip) (op : Nat), (s.bit F.SVC_STAT_SESSION = true) ∧ (op ≠ 10))
    ∧ (∃ (s : Chip), (s.bit F.SVC_STAT_SESSION = false ∨ s.now < s.svc.edgeAt + secs 1))
    ∧ (∃ (s : Chip) (x : Chip), ((s.bit F.SVC_STAT_SESSION = true) ∧ (s.svc.edgeAt + secs 1 ≤ s.now)) ∧ (x = (((s.setBit F.SVC_STAT_SESSION false).setFld F.SVC_STAT_VER 0).setBit F.WDT_CTL_DBGPAUSE false).onCores 7 fun (x : CoreSt) => { x with halted := false }))
    ∧ (∃ (s : Chip) (k : Nat), (s.pwr.st ≠ PState.sleep) ∧ (s.pwr.st ≠ PState.hibernate) ∧ (s.pwr.entering = none) ∧ (k < 50))
    ∧ (∃ (s : Chip) (k : Nat), (s.pwr.st ≠ PState.sleep) ∧ (s.pwr.st ≠ PState.hibernate) ∧ (s.pwr.entering = none) ∧ (50 ≤ k))
    ∧ (∃ (s : Chip) (x : Chip), (s.pwr.st = PState.sleep ∨ s.pwr.st = PState.hibernate ∨ s.pwr.entering.isSome = true) ∧ (x = s.svcWakeEdge))
    ∧ (∃ (s : Chip) (h : List Nat), (h = s.header voleBase) ∧ ((s.core Core.foxA).run ≠ CoreRun.run ∨ (s.core Core.foxA).halted = true ∨ (s.core Core.foxA).pc.toNat ≠ bits (h.getD 5 0) 23 0 ∨ s.ldr.who ≠ LdrWho.off ∨ s.voleGood = false))
    ∧ (∃ (s : Chip) (h : List Nat), (h = s.header voleBase) ∧ ((s.core Core.foxA).run = CoreRun.run) ∧ ((s.core Core.foxA).halted = false) ∧ ((s.core Core.foxA).pc.toNat = bits (h.getD 5 0) 23 0) ∧ (s.ldr.who = LdrWho.off) ∧ (s.voleGood = true) ∧ (s.voleAlone = true))
    ∧ (∃ (s : Chip) (h : List Nat), (h = s.header voleBase) ∧ ((s.core Core.foxA).run = CoreRun.run) ∧ ((s.core Core.foxA).halted = false) ∧ ((s.core Core.foxA).pc.toNat = bits (h.getD 5 0) 23 0) ∧ (s.ldr.who = LdrWho.off) ∧ (s.voleGood = true) ∧ (s.voleAlone = false))
    ∧ (∃ (s : Chip) (h : List Nat), (h = s.header voleBase) ∧ (s.ldr.who ≠ LdrWho.vole ∨ s.ldr.job ≠ LdrJob.idle ∨ s.now < s.ldr.lastCmd + secs 60))
    ∧ (∃ (s : Chip) (h : List Nat), (h = s.header voleBase) ∧ (s.ldr.who = LdrWho.vole) ∧ (s.ldr.job = LdrJob.idle) ∧ (s.ldr.lastCmd + secs 60 ≤ s.now) ∧ (s.ldr.started = true))
    ∧ (∃ (s : Chip) (h : List Nat), (h = s.header voleBase) ∧ (s.ldr.who = LdrWho.vole) ∧ (s.ldr.job = LdrJob.idle) ∧ (s.ldr.lastCmd + secs 60 ≤ s.now) ∧ (s.ldr.started = false))
    ∧ (∃ (s : Chip) (h : List Nat), (h = s.header voleBase) ∧ (s.ldr.parked = true))
    ∧ (∃ (s : Chip) (h : List Nat) (c : Core) (u : Chip), (h = s.header voleBase) ∧ (u = (s.setCore c ({ (s.core c) with halted := false })).stepCore c) ∧ ((u.core c).run = CoreRun.lockup))
    ∧ (∃ (s : Chip), (s.ldr.who = LdrWho.off ∨ s.ldr.job ≠ LdrJob.idle ∨ s.ldrSeqOf = bits (s.lcbWord 1) 31 24))
    ∧ (∃ (s : Chip) (x : Chip) (n : Nat), ((s.ldr.who ≠ LdrWho.off) ∧ (s.ldr.job = LdrJob.idle) ∧ (s.ldrSeqOf ≠ bits (s.lcbWord 1) 31 24)) ∧ (x = s.ldrTake) ∧ (n = x.ldrCount) ∧ (s.ldrOp = 0 ∨ 4 < s.ldrOp) ∧ (x.ldrOp ≠ 1))
    ∧ (∃ (s : Chip) (x : Chip) (n : Nat), ((s.ldr.who ≠ LdrWho.off) ∧ (s.ldr.job = LdrJob.idle) ∧ (s.ldrSeqOf ≠ bits (s.lcbWord 1) 31 24)) ∧ (x = s.ldrTake) ∧ (n = x.ldrCount) ∧ (s.ldrOp = 1) ∧ (x.ldrOp = 1) ∧ (x.ldrArg / 2 ≠ 0 ∨ bitOf x.ldrArg 0 = true ∧ x.ldr.who = LdrWho.vole))
    ∧ (∃ (s : Chip) (x : Chip) (n : Nat), ((s.ldr.who ≠ LdrWho.off) ∧ (s.ldr.job = LdrJob.idle) ∧ (s.ldrSeqOf ≠ bits (s.lcbWord 1) 31 24)) ∧ (x = s.ldrTake) ∧ (n = x.ldrCount) ∧ (s.ldrOp = 1) ∧ (x.ldrOp = 1) ∧ (x.ldrArg / 2 = 0) ∧ (bitOf x.ldrArg 0 = false ∨ x.ldr.who ≠ LdrWho.vole) ∧ (n ≠ 16))
    ∧ (∃ (s : Chip) (x : Chip) (n : Nat), ((s.ldr.who ≠ LdrWho.off) ∧ (s.ldr.job = LdrJob.idle) ∧ (s.ldrSeqOf ≠ bits (s.lcbWord 1) 31 24)) ∧ (x = s.ldrTake) ∧ (n = x.ldrCount) ∧ (s.ldrOp = 1) ∧ (x.ldrOp = 1) ∧ (x.ldrArg / 2 = 0) ∧ (bitOf x.ldrArg 0 = false ∨ x.ldr.who ≠ LdrWho.vole) ∧ (n = 16) ∧ (crc36 (x.ldrBuf 16) ≠ bits (x.lcbWord 3) 31 0))
    ∧ (∃ (s : Chip) (x : Chip) (n : Nat) (vole : Bool), ((s.ldr.who ≠ LdrWho.off) ∧ (s.ldr.job = LdrJob.idle) ∧ (s.ldrSeqOf ≠ bits (s.lcbWord 1) 31 24)) ∧ (x = s.ldrTake) ∧ (n = x.ldrCount) ∧ ((s.ldrOp = 1) ∧ (x.ldrOp = 1) ∧ (x.ldrArg / 2 = 0) ∧ (bitOf x.ldrArg 0 = false ∨ x.ldr.who ≠ LdrWho.vole) ∧ (n = 16) ∧ (crc36 (x.ldrBuf 16) = bits (x.lcbWord 3) 31 0)) ∧ (vole = bitOf x.ldrArg 0) ∧ (vole = true ∧ (x.ldrBuf 16).headD 0 ≠ voleMagic ∨ headerOk vole (x.ldrBuf 16) = false))
    ∧ (∃ (s : Chip) (x : Chip) (n : Nat) (vole : Bool) (y : Chip), ((s.ldr.who ≠ LdrWho.off) ∧ (s.ldr.job = LdrJob.idle) ∧ (s.ldrSeqOf ≠ bits (s.lcbWord 1) 31 24)) ∧ (x = s.ldrTake) ∧ (n = x.ldrCount) ∧ ((s.ldrOp = 1) ∧ (x.ldrOp = 1) ∧ (x.ldrArg / 2 = 0) ∧ (bitOf x.ldrArg 0 = false ∨ x.ldr.who ≠ LdrWho.vole) ∧ (n = 16) ∧ (crc36 (x.ldrBuf 16) = bits (x.lcbWord 3) 31 0)) ∧ (vole = bitOf x.ldrArg 0) ∧ ((vole = false ∨ (x.ldrBuf 16).headD 0 = voleMagic) ∧ (headerOk vole (x.ldrBuf 16) = true)) ∧ (y = (x.setLdr ({ x.ldr with hdr := some (x.ldrBuf 16), vole := vole })).wr (lcb + 5) 0))
    ∧ (∃ (s : Chip) (x : Chip) (n : Nat), ((s.ldr.who ≠ LdrWho.off) ∧ (s.ldr.job = LdrJob.idle) ∧ (s.ldrSeqOf ≠ bits (s.lcbWord 1) 31 24)) ∧ (x = s.ldrTake) ∧ (n = x.ldrCount) ∧ (s.ldrOp = 2) ∧ (x.ldrOp = 2) ∧ (x.ldr.hdr = none))
    ∧ (∃ (s : Chip) (x : Chip) (n : Nat) (hd : List Nat), ((s.ldr.who ≠ LdrWho.off) ∧ (s.ldr.job = LdrJob.idle) ∧ (s.ldrSeqOf ≠ bits (s.lcbWord 1) 31 24)) ∧ (x = s.ldrTake) ∧ (n = x.ldrCount) ∧ ((s.ldrOp = 2) ∧ (x.ldrOp = 2)) ∧ (x.ldr.hdr = some hd) ∧ (4096 < n))
    ∧ (∃ (s : Chip) (x : Chip) (n : Nat) (hd : List Nat), ((s.ldr.who ≠ LdrWho.off) ∧ (s.ldr.job = LdrJob.idle) ∧ (s.ldrSeqOf ≠ bits (s.lcbWord 1) 31 24)) ∧ (x = s.ldrTake) ∧ (n = x.ldrCount) ∧ ((s.ldrOp = 2) ∧ (x.ldrOp = 2)) ∧ (x.ldr.hdr = some hd) ∧ (n ≤ 4096) ∧ (crc36 (x.ldrBuf n) ≠ bits (x.lcbWord 3) 31 0))
    ∧ (∃ (s : Chip) (x : Chip) (n : Nat) (hd : List Nat) (a : Nat), ((s.ldr.who ≠ LdrWho.off) ∧ (s.ldr.job = LdrJob.idle) ∧ (s.ldrSeqOf ≠ bits (s.lcbWord 1) 31 24)) ∧ (x = s.ldrTake) ∧ (n = x.ldrCount) ∧ ((s.ldrOp = 2) ∧ (x.ldrOp = 2)) ∧ (x.ldr.hdr = some hd) ∧ ((n ≤ 4096) ∧ (crc36 (x.ldrBuf n) = bits (x.lcbWord 3) 31 0)) ∧ (a = x.ldrBase + 16 + x.ldrArg) ∧ (bits (hd.getD 2 0) 18 0 < x.ldrArg + n))
    ∧ (∃ (s : Chip) (x : Chip) (n : Nat) (hd : List Nat) (a : Nat) (i : Nat), ((s.ldr.who ≠ LdrWho.off) ∧ (s.ldr.job = LdrJob.idle) ∧ (s.ldrSeqOf ≠ bits (s.lcbWord 1) 31 24)) ∧ (x = s.ldrTake) ∧ (n = x.ldrCount) ∧ ((s.ldrOp = 2) ∧ (x.ldrOp = 2)) ∧ (x.ldr.hdr = some hd) ∧ ((n ≤ 4096) ∧ (crc36 (x.ldrBuf n) = bits (x.lcbWord 3) 31 0)) ∧ (a = x.ldrBase + 16 + x.ldrArg) ∧ (x.ldrArg + n ≤ bits (hd.getD 2 0) 18 0) ∧ (i < n) ∧ (x.flashErased (a + i) = false))
    ∧ (∃ (s : Chip) (x : Chip) (n : Nat) (hd : List Nat) (a : Nat), ((s.ldr.who ≠ LdrWho.off) ∧ (s.ldr.job = LdrJob.idle) ∧ (s.ldrSeqOf ≠ bits (s.lcbWord 1) 31 24)) ∧ (x = s.ldrTake) ∧ (n = x.ldrCount) ∧ ((s.ldrOp = 2) ∧ (x.ldrOp = 2)) ∧ (x.ldr.hdr = some hd) ∧ ((n ≤ 4096) ∧ (crc36 (x.ldrBuf n) = bits (x.lcbWord 3) 31 0)) ∧ (a = x.ldrBase + 16 + x.ldrArg) ∧ (x.ldrArg + n ≤ bits (hd.getD 2 0) 18 0) ∧ (∀ (i : Nat), i < n → x.flashErased (a + i) = true))
    ∧ (∃ (s : Chip) (x : Chip) (n : Nat), ((s.ldr.who ≠ LdrWho.off) ∧ (s.ldr.job = LdrJob.idle) ∧ (s.ldrSeqOf ≠ bits (s.lcbWord 1) 31 24)) ∧ (x = s.ldrTake) ∧ (n = x.ldrCount) ∧ (s.ldrOp = 3) ∧ (x.ldrOp = 3) ∧ (x.ldr.hdr = none))
    ∧ (∃ (s : Chip) (x : Chip) (n : Nat) (hd : List Nat), ((s.ldr.who ≠ LdrWho.off) ∧ (s.ldr.job = LdrJob.idle) ∧ (s.ldrSeqOf ≠ bits (s.lcbWord 1) 31 24)) ∧ (x = s.ldrTake) ∧ (n = x.ldrCount) ∧ ((s.ldrOp = 3) ∧ (x.ldrOp = 3)) ∧ (x.ldr.hdr = some hd) ∧ (crc36 (x.flashNats (x.ldrBase + 16) (bits (hd.getD 2 0) 18 0)) ≠ hd.getD 3 0))
    ∧ (∃ (s : Chip) (x : Chip) (n : Nat) (hd : List Nat), ((s.ldr.who ≠ LdrWho.off) ∧ (s.ldr.job = LdrJob.idle) ∧ (s.ldrSeqOf ≠ bits (s.lcbWord 1) 31 24)) ∧ (x = s.ldrTake) ∧ (n = x.ldrCount) ∧ ((s.ldrOp = 3) ∧ (x.ldrOp = 3)) ∧ (x.ldr.hdr = some hd) ∧ (crc36 (x.flashNats (x.ldrBase + 16) (bits (hd.getD 2 0) 18 0)) = hd.getD 3 0))
    ∧ (∃ (s : Chip) (x : Chip) (n : Nat), ((s.ldr.who ≠ LdrWho.off) ∧ (s.ldr.job = LdrJob.idle) ∧ (s.ldrSeqOf ≠ bits (s.lcbWord 1) 31 24)) ∧ (x = s.ldrTake) ∧ (n = x.ldrCount) ∧ (s.ldrOp = 4) ∧ (x.ldrOp = 4) ∧ (4096 < n))
    ∧ (∃ (s : Chip) (x : Chip) (n : Nat), ((s.ldr.who ≠ LdrWho.off) ∧ (s.ldr.job = LdrJob.idle) ∧ (s.ldrSeqOf ≠ bits (s.lcbWord 1) 31 24)) ∧ (x = s.ldrTake) ∧ (n = x.ldrCount) ∧ (s.ldrOp = 4) ∧ (x.ldrOp = 4) ∧ (n ≤ 4096) ∧ (crc36 (x.ldrBuf n) ≠ bits (x.lcbWord 3) 31 0))
    ∧ (∃ (s : Chip) (x : Chip) (n : Nat), ((s.ldr.who ≠ LdrWho.off) ∧ (s.ldr.job = LdrJob.idle) ∧ (s.ldrSeqOf ≠ bits (s.lcbWord 1) 31 24)) ∧ (x = s.ldrTake) ∧ (n = x.ldrCount) ∧ (s.ldrOp = 4) ∧ (x.ldrOp = 4) ∧ (n ≤ 4096) ∧ (crc36 (x.ldrBuf n) = bits (x.lcbWord 3) 31 0) ∧ (n ≠ hdrLength ((x.ldrBuf 1).headD 0)))
    ∧ (∃ (s : Chip) (x : Chip) (n : Nat), ((s.ldr.who ≠ LdrWho.off) ∧ (s.ldr.job = LdrJob.idle) ∧ (s.ldrSeqOf ≠ bits (s.lcbWord 1) 31 24)) ∧ (x = s.ldrTake) ∧ (n = x.ldrCount) ∧ (s.ldrOp = 4) ∧ (x.ldrOp = 4) ∧ (n ≤ 4096) ∧ (crc36 (x.ldrBuf n) = bits (x.lcbWord 3) 31 0) ∧ (n = hdrLength ((x.ldrBuf 1).headD 0)) ∧ (x.ldrStreamCheck ≠ Rc.OK))
    ∧ (∃ (s : Chip) (x : Chip) (n : Nat), ((s.ldr.who ≠ LdrWho.off) ∧ (s.ldr.job = LdrJob.idle) ∧ (s.ldrSeqOf ≠ bits (s.lcbWord 1) 31 24)) ∧ (x = s.ldrTake) ∧ (n = x.ldrCount) ∧ (s.ldrOp = 4) ∧ (x.ldrOp = 4) ∧ (n ≤ 4096) ∧ (crc36 (x.ldrBuf n) = bits (x.lcbWord 3) 31 0) ∧ (n = hdrLength ((x.ldrBuf 1).headD 0)) ∧ (x.ldrStreamCheck = Rc.OK))
    ∧ (∃ (s : Chip) (x : Chip) (q : SvcLine) (late : Bool) (i : Instr) (req : Nat) (hi : Nat) (lo : Nat) (data : List Word) (k : Option Word) (f : Chip → SvcOut), (i = Instr.svcOpen q hi lo) ∧ (req = svcWord 0 1 (hi <<< 8 ||| lo)) ∧ (data = []) ∧ (late = q.late) ∧ (k = q.chk) ∧ (f = fun (s : Chip) => s.svcOpen hi lo) ∧ (s.pwr.st = PState.sleep ∨ s.pwr.st = PState.hibernate ∨ s.pwr.entering.isSome = true) ∧ (x = s.svcWakeEdge))
    ∧ (∃ (s : Chip) (q : SvcLine) (late : Bool) (i : Instr) (req : Nat) (n : Nat) (addr : Nat) (data : List Word) (k : Option Word) (f : Chip → SvcOut), (i = Instr.svcRead q n addr) ∧ (req = svcWord 1 n addr) ∧ (data = []) ∧ (late = q.late) ∧ (k = q.chk) ∧ (f = fun (s : Chip) => s.svcRead n addr) ∧ (s.pwr.st ≠ PState.sleep) ∧ (s.pwr.st ≠ PState.hibernate) ∧ (s.pwr.entering = none) ∧ (s.pwr.st ≠ PState.run ∨ s.pwr.bootPending = true ∨ s.boot.ph = BootPh.dead ∨ s.svc.lost = true))
    ∧ (∃ (s : Chip) (x : Chip) (q : SvcLine) (late : Bool) (i : Instr) (req : Nat) (data : List Word) (k : Option Word) (f : Chip → SvcOut) (o : SvcOut) (a : Nat) (w : List Word), (i = Instr.svcClose q) ∧ (req = svcWord 9 1 0) ∧ (data = []) ∧ (late = q.late) ∧ (k = q.chk) ∧ (f = fun (s : Chip) => s.svcCloseReq) ∧ ((s.pwr.st = PState.run) ∧ (s.pwr.entering = none) ∧ (s.pwr.bootPending = false) ∧ (s.boot.ph ≠ BootPh.dead) ∧ (s.svc.lost = false)) ∧ (x = { s with svc := { s.svc with held := none, edgeAt := s.now } }) ∧ (s.fld F.SVC_STAT_VER ≠ 2) ∧ (s.svc.held = some (req :: List.map BitVec.toNat data, a, w)) ∧ (o = { ack := a, words := w, chip := x }) ∧ (late = false) ∧ (o.ack ≠ 1 ∨ s.fld F.SVC_STAT_VER ≠ 2))
    ∧ (∃ (s : Chip) (x : Chip) (q : SvcLine) (late : Bool) (i : Instr) (req : Nat) (hi : Nat) (lo : Nat) (data : List Word) (k : Option Word) (f : Chip → SvcOut) (o : SvcOut) (a : Nat) (w : List Word), (i = Instr.svcOpen q hi lo) ∧ (req = svcWord 0 1 (hi <<< 8 ||| lo)) ∧ (data = []) ∧ (late = q.late) ∧ (k = q.chk) ∧ (f = fun (s : Chip) => s.svcOpen hi lo) ∧ ((s.pwr.st = PState.run) ∧ (s.pwr.entering = none) ∧ (s.pwr.bootPending = false) ∧ (s.boot.ph ≠ BootPh.dead) ∧ (s.svc.lost = false)) ∧ (x = { s with svc := { s.svc with held := none, edgeAt := s.now } }) ∧ (s.fld F.SVC_STAT_VER ≠ 2) ∧ (s.svc.held = some (req :: List.map BitVec.toNat data, a, w)) ∧ (o = { ack := a, words := w, chip := x }) ∧ (late = true))
    ∧ (∃ (s : Chip) (x : Chip) (q : SvcLine) (late : Bool) (i : Instr) (req : Nat) (c : Nat) (r : Nat) (data : List Word) (k : Option Word) (f : Chip → SvcOut) (o : SvcOut), (i = Instr.svcRegrd q c r) ∧ (req = svcWord 6 1 (c <<< 16 ||| r)) ∧ (data = []) ∧ (late = q.late) ∧ (k = q.chk) ∧ (f = fun (s : Chip) => s.svcRegrd c r) ∧ ((s.pwr.st = PState.run) ∧ (s.pwr.entering = none) ∧ (s.pwr.bootPending = false) ∧ (s.boot.ph ≠ BootPh.dead) ∧ (s.svc.lost = false)) ∧ (x = { s with svc := { s.svc with held := none, edgeAt := s.now } }) ∧ ((s.fld F.SVC_STAT_VER ≠ 2) ∧ (Option.any (fun (h : List Nat × Nat × List Word) => decide (h.fst = req :: List.map BitVec.toNat data)) s.svc.held = false)) ∧ (o = f x) ∧ (late = false) ∧ (o.ack ≠ 1 ∨ s.fld F.SVC_STAT_VER ≠ 2))
    ∧ (∃ (s : Chip) (x : Chip) (q : SvcLine) (late : Bool) (i : Instr) (req : Nat) (addr : Nat) (data : List Word) (k : Option Word) (f : Chip → SvcOut) (o : SvcOut), (i = Instr.svcReset q addr) ∧ (req = svcWord 8 1 addr) ∧ (data = []) ∧ (late = q.late) ∧ (k = q.chk) ∧ (f = fun (s : Chip) => s.svcResetReq addr) ∧ ((s.pwr.st = PState.run) ∧ (s.pwr.entering = none) ∧ (s.pwr.bootPending = false) ∧ (s.boot.ph ≠ BootPh.dead) ∧ (s.svc.lost = false)) ∧ (x = { s with svc := { s.svc with held := none, edgeAt := s.now } }) ∧ ((s.fld F.SVC_STAT_VER ≠ 2) ∧ (Option.any (fun (h : List Nat × Nat × List Word) => decide (h.fst = req :: List.map BitVec.toNat data)) s.svc.held = false)) ∧ (o = f x) ∧ (late = true))
    ∧ (∃ (s : Chip) (x : Chip) (q : SvcLine) (late : Bool) (i : Instr) (req : Nat) (data : List Word) (k : Option Word) (f : Chip → SvcOut) (o : SvcOut) (a : Nat) (w : List Word), (i = Instr.svcClose q) ∧ (req = svcWord 9 1 0) ∧ (data = []) ∧ (late = q.late) ∧ (k = q.chk) ∧ (f = fun (s : Chip) => s.svcCloseReq) ∧ ((s.pwr.st = PState.run) ∧ (s.pwr.entering = none) ∧ (s.pwr.bootPending = false) ∧ (s.boot.ph ≠ BootPh.dead) ∧ (s.svc.lost = false)) ∧ (x = { s with svc := { s.svc with held := none, edgeAt := s.now } }) ∧ (k = some (checkWord req data)) ∧ (s.svc.held = some (req :: List.map BitVec.toNat data, a, w)) ∧ (o = { ack := a, words := w, chip := x }) ∧ (late = false) ∧ (o.ack = 1) ∧ (s.fld F.SVC_STAT_VER = 2))
    ∧ (∃ (s : Chip) (x : Chip) (q : SvcLine) (late : Bool) (i : Instr) (req : Nat) (data : List Word) (k : Option Word) (f : Chip → SvcOut) (o : SvcOut) (a : Nat) (w : List Word), (i = Instr.svcClose q) ∧ (req = svcWord 9 1 0) ∧ (data = []) ∧ (late = q.late) ∧ (k = q.chk) ∧ (f = fun (s : Chip) => s.svcCloseReq) ∧ ((s.pwr.st = PState.run) ∧ (s.pwr.entering = none) ∧ (s.pwr.bootPending = false) ∧ (s.boot.ph ≠ BootPh.dead) ∧ (s.svc.lost = false)) ∧ (x = { s with svc := { s.svc with held := none, edgeAt := s.now } }) ∧ (k = some (checkWord req data)) ∧ (s.svc.held = some (req :: List.map BitVec.toNat data, a, w)) ∧ (o = { ack := a, words := w, chip := x }) ∧ (late = false) ∧ (o.ack ≠ 1 ∨ s.fld F.SVC_STAT_VER ≠ 2))
    ∧ (∃ (s : Chip) (x : Chip) (q : SvcLine) (late : Bool) (i : Instr) (req : Nat) (data : List Word) (k : Option Word) (f : Chip → SvcOut) (o : SvcOut) (a : Nat) (w : List Word), (i = Instr.svcClose q) ∧ (req = svcWord 9 1 0) ∧ (data = []) ∧ (late = q.late) ∧ (k = q.chk) ∧ (f = fun (s : Chip) => s.svcCloseReq) ∧ ((s.pwr.st = PState.run) ∧ (s.pwr.entering = none) ∧ (s.pwr.bootPending = false) ∧ (s.boot.ph ≠ BootPh.dead) ∧ (s.svc.lost = false)) ∧ (x = { s with svc := { s.svc with held := none, edgeAt := s.now } }) ∧ (k = some (checkWord req data)) ∧ (s.svc.held = some (req :: List.map BitVec.toNat data, a, w)) ∧ (o = { ack := a, words := w, chip := x }) ∧ (late = true))
    ∧ (∃ (s : Chip) (x : Chip) (late : Bool) (i : Instr) (req : Nat) (addr : Nat) (data : List Word) (ws : List Word) (chk : Option Word) (k : Option Word) (f : Chip → SvcOut) (o : SvcOut), (i = Instr.svcWrite late addr ws chk) ∧ (req = svcWord 2 ws.length addr) ∧ (data = ws) ∧ (k = chk) ∧ (f = fun (s : Chip) => s.svcWrite addr ws) ∧ ((s.pwr.st = PState.run) ∧ (s.pwr.entering = none) ∧ (s.pwr.bootPending = false) ∧ (s.boot.ph ≠ BootPh.dead) ∧ (s.svc.lost = false)) ∧ (x = { s with svc := { s.svc with held := none, edgeAt := s.now } }) ∧ (k = some (checkWord req data)) ∧ (Option.any (fun (h : List Nat × Nat × List Word) => decide (h.fst = req :: List.map BitVec.toNat data)) s.svc.held = false) ∧ (o = f x) ∧ (late = false) ∧ (o.ack = 1) ∧ (s.fld F.SVC_STAT_VER = 2))
    ∧ (∃ (s : Chip) (x : Chip) (late : Bool) (i : Instr) (req : Nat) (addr : Nat) (data : List Word) (ws : List Word) (chk : Option Word) (k : Option Word) (f : Chip → SvcOut) (o : SvcOut), (i = Instr.svcWrite late addr ws chk) ∧ (req = svcWord 2 ws.length addr) ∧ (data = ws) ∧ (k = chk) ∧ (f = fun (s : Chip) => s.svcWrite addr ws) ∧ ((s.pwr.st = PState.run) ∧ (s.pwr.entering = none) ∧ (s.pwr.bootPending = false) ∧ (s.boot.ph ≠ BootPh.dead) ∧ (s.svc.lost = false)) ∧ (x = { s with svc := { s.svc with held := none, edgeAt := s.now } }) ∧ (k = some (checkWord req data)) ∧ (Option.any (fun (h : List Nat × Nat × List Word) => decide (h.fst = req :: List.map BitVec.toNat data)) s.svc.held = false) ∧ (o = f x) ∧ (late = false) ∧ (o.ack ≠ 1 ∨ s.fld F.SVC_STAT_VER ≠ 2))
    ∧ (∃ (s : Chip) (x : Chip) (late : Bool) (i : Instr) (req : Nat) (addr : Nat) (data : List Word) (ws : List Word) (chk : Option Word) (k : Option Word) (f : Chip → SvcOut) (o : SvcOut), (i = Instr.svcWrite late addr ws chk) ∧ (req = svcWord 2 ws.length addr) ∧ (data = ws) ∧ (k = chk) ∧ (f = fun (s : Chip) => s.svcWrite addr ws) ∧ ((s.pwr.st = PState.run) ∧ (s.pwr.entering = none) ∧ (s.pwr.bootPending = false) ∧ (s.boot.ph ≠ BootPh.dead) ∧ (s.svc.lost = false)) ∧ (x = { s with svc := { s.svc with held := none, edgeAt := s.now } }) ∧ (k = some (checkWord req data)) ∧ (Option.any (fun (h : List Nat × Nat × List Word) => decide (h.fst = req :: List.map BitVec.toNat data)) s.svc.held = false) ∧ (o = f x) ∧ (late = true))
    ∧ (∃ (s : Chip) (x : Chip) (q : SvcLine) (late : Bool) (i : Instr) (req : Nat) (c : Nat) (r : Nat) (data : List Word) (k : Option Word) (f : Chip → SvcOut) (o : SvcOut), (i = Instr.svcRegrd q c r) ∧ (req = svcWord 6 1 (c <<< 16 ||| r)) ∧ (data = []) ∧ (late = q.late) ∧ (k = q.chk) ∧ (f = fun (s : Chip) => s.svcRegrd c r) ∧ ((s.pwr.st = PState.run) ∧ (s.pwr.entering = none) ∧ (s.pwr.bootPending = false) ∧ (s.boot.ph ≠ BootPh.dead) ∧ (s.svc.lost = false)) ∧ (x = { s with svc := { s.svc with held := none, edgeAt := s.now } }) ∧ ((s.fld F.SVC_STAT_VER = 2) ∧ (k ≠ some (checkWord req data))) ∧ (o = { ack := 4, words := [W 162], chip := x.setReason R.SVC_STAT 162 }) ∧ (late = false) ∧ (o.ack ≠ 1 ∨ s.fld F.SVC_STAT_VER ≠ 2))
    ∧ (∃ (s : Chip) (x : Chip) (q : SvcLine) (late : Bool) (i : Instr) (req : Nat) (c : Nat) (r : Nat) (data : List Word) (k : Option Word) (f : Chip → SvcOut) (o : SvcOut), (i = Instr.svcRegrd q c r) ∧ (req = svcWord 6 1 (c <<< 16 ||| r)) ∧ (data = []) ∧ (late = q.late) ∧ (k = q.chk) ∧ (f = fun (s : Chip) => s.svcRegrd c r) ∧ ((s.pwr.st = PState.run) ∧ (s.pwr.entering = none) ∧ (s.pwr.bootPending = false) ∧ (s.boot.ph ≠ BootPh.dead) ∧ (s.svc.lost = false)) ∧ (x = { s with svc := { s.svc with held := none, edgeAt := s.now } }) ∧ ((s.fld F.SVC_STAT_VER = 2) ∧ (k ≠ some (checkWord req data))) ∧ (o = { ack := 4, words := [W 162], chip := x.setReason R.SVC_STAT 162 }) ∧ (late = true)) :=
  ⟨⟨{}, _, 2, 0, by decide +kernel, rfl, by decide +kernel⟩,
    ⟨{}, _, 0, 1, by decide +kernel, rfl, by decide +kernel⟩,
    ⟨{}, _, 9, 9, by decide +kernel, rfl, by decide +kernel⟩,
    ⟨(let s : Chip := {}; s.setBit F.SVC_STAT_SESSION true), 0, 1, by decide +kernel⟩,
    ⟨(let s : Chip := {}; s.setFld F.SVC_STAT_SESSION 1), 1, 0, by decide +kernel⟩,
    ⟨(let s : Chip := {}; s.setFld F.SVC_STAT_SESSION 1), 5, 3, by decide +kernel⟩,
    ⟨(let s : Chip := {}; s.setFld F.SVC_STAT_SESSION 1), _, 0, 0, _, by decide +kernel, wPairSome _ (by decide +kernel)⟩,
    ⟨(let s : Chip := run1 {}; s.setFld F.SVC_STAT_SESSION 1), _, 1, 0xFFFFFF, by decide +kernel, wNone _ (by decide +kernel)⟩,
    ⟨(let s : Chip := {}; s.setFld F.SVC_STAT_SESSION 1), _, 0, [], by decide +kernel, rfl⟩,
    ⟨(let s : Chip := {}; s.setFld F.SVC_STAT_SESSION 1), _, 0, [0#36], by decide +kernel, rfl⟩,
    ⟨(let s : Chip := {}; s.setFld F.SVC_STAT_SESSION 1), Core.foxA, by decide +kernel⟩,
    ⟨(let s : Chip := {}; let s := { s with cores := { s.cores with foxA := { s.cores.foxA with halted := true } } }; s.setFld F.SVC_STAT_SESSION 1), 4, Core.foxA, by decide +kernel⟩,
    ⟨(let s : Chip := {}; s.setFld F.SVC_STAT_SESSION 1), 1, by decide +kernel⟩,
    ⟨(let s : Chip := {}; s.setReg R.SVC_STAT (W 2814)), 0, by decide +kernel⟩,
    ⟨(let s : Chip := {}; s.setReg R.SVC_STAT (W 14927)), 0, by decide +kernel⟩,
    ⟨{}, by decide +kernel⟩,
    ⟨(let s : Chip := {}; let s := s.setBit F.SVC_STAT_SESSION true; { s with now := secs 2 }), _, by decide +kernel, rfl⟩,
    ⟨(let s : Chip := {}; { s with pwr := { s.pwr with st := .run } }), 0, by decide +kernel⟩,
    ⟨(let s : Chip := {}; { s with pwr := { s.pwr with st := .run } }), 50, by decide +kernel⟩,
    ⟨(let s : Chip := {}; { s with pwr := { s.pwr with st := .sleep } }), _, by decide +kernel, rfl⟩,
    ⟨{}, _, rfl, by decide +kernel⟩,
    ⟨(let s : Chip := {}; let s := run1 s; let s := s.setCore .foxA { s.core .foxA with pc := 0 }; let s := { s with flash := (([voleMagic, 1 <<< 24, 1, crc36 [0], 0, 0, 0, 0, 0, 0, 0, 0, 0, 0, 0] ++ [crc36 [voleMagic, 1 <<< 24, 1, crc36 [0], 0, 0, 0, 0, 0, 0, 0, 0, 0, 0, 0], 0]).zipIdx.map (fun (w, i) => (voleBase + i, W w))) }; s.wr 0x10001 (0)), _, rfl, by decide +kernel⟩,
    ⟨(let s : Chip := {}; let s := run1 s; let s := s.setCore .foxA { s.core .foxA with pc := 0 }; let s := { s with flash := (([voleMagic, 1 <<< 24, 1, crc36 [0], 0, 0, 0, 0, 0, 0, 0, 0, 0, 0, 0] ++ [crc36 [voleMagic, 1 <<< 24, 1, crc36 [0], 0, 0, 0, 0, 0, 0, 0, 0, 0, 0, 0], 0]).zipIdx.map (fun (w, i) => (voleBase + i, W w))) }; s.wr 0x10001 (W (7 <<< 30))), _, rfl, by decide +kernel⟩,
    ⟨{}, _, rfl, by decide +kernel⟩,
    ⟨(let s : Chip := {}; { s with now := secs 70, ldr := { s.ldr with who := .vole, job := .idle, lastCmd := 0, started := true } }), _, rfl, by decide +kernel⟩,
    ⟨(let s : Chip := {}; { s with now := secs 70, ldr := { s.ldr with who := .vole, job := .idle, lastCmd := 0, started := false } }), _, rfl, by decide +kernel⟩,
    ⟨(let s : Chip := {}; { s with ldr := { s.ldr with parked := true } }), _, rfl, by decide +kernel⟩,
    ⟨(let s : Chip := {}; { s with cores := { s.cores with badger := { s.cores.badger with pc := 0x8000#24 } } }), _, Core.badger, _, rfl, rfl, by decide +kernel⟩,
    ⟨{}, by decide +kernel⟩,
    ⟨(let s : Chip := {}; let s := { s with ldr := { s.ldr with who := LdrWho.rom } }; let s := s.wr (lcb + 0) 0x1000000#36; let s := s.wr (lcb + 1) 0; let s := s.wr (lcb + 2) 0; s.wr (lcb + 3) 0), _, _, by decide +kernel, rfl, rfl, by decide +kernel⟩,
    ⟨(let s : Chip := {}; let s := { s with ldr := { s.ldr with who := LdrWho.rom } }; let s := s.wr (lcb + 0) (W (1 <<< 32 ||| 1 <<< 24 ||| 2)); let s := s.wr (lcb + 1) 0; let s := s.wr (lcb + 2) (W 0); s.wr (lcb + 3) (W (0))), _, _, by decide +kernel, rfl, rfl, by decide +kernel⟩,
    ⟨(let s : Chip := {}; let s := { s with ldr := { s.ldr with who := LdrWho.rom } }; let s := s.wr (lcb + 0) (W (1 <<< 32 ||| 1 <<< 24 ||| 0)); let s := s.wr (lcb + 1) 0; let s := s.wr (lcb + 2) (W 5); s.wr (lcb + 3) (W (0))), _, _, by decide +kernel, rfl, rfl, by decide +kernel⟩,
    ⟨(let s : Chip := {}; let s := { s with ldr := { s.ldr with who := LdrWho.rom } }; let s := s.wr (lcb + 0) (W (1 <<< 32 ||| 1 <<< 24 ||| 0)); let s := s.wr (lcb + 1) 0; let s := s.wr (lcb + 2) (W 16); let s := s.wr (lcb + 3) (W (1)); s.wrs lcbBuffer (List.replicate 16 0)), _, _, by decide +kernel, rfl, rfl, by decide +kernel⟩,
    ⟨(let s : Chip := {}; let s := { s with ldr := { s.ldr with who := LdrWho.rom } }; let s := s.wr (lcb + 0) (W (1 <<< 32 ||| 1 <<< 24 ||| 0)); let s := s.wr (lcb + 1) 0; let s := s.wr (lcb + 2) (W 16); let s := s.wr (lcb + 3) (W (crc36 (List.replicate 16 0))); s.wrs lcbBuffer (List.replicate 16 0)), _, _, _, by decide +kernel, rfl, rfl, by decide +kernel, rfl, by decide +kernel⟩,
    ⟨(let s : Chip := {}; let s := { s with ldr := { s.ldr with who := LdrWho.rom } }; let s := s.wr (lcb + 0) (W (1 <<< 32 ||| 1 <<< 24 ||| 0)); let s := s.wr (lcb + 1) 0; let s := s.wr (lcb + 2) (W 16); let s := s.wr (lcb + 3) (W (crc36 [imgMagic, 1 <<< 24, 1, 0, 0, 0, 0, 0, 0, 0, 0, 0, 0, 0, 0, crc36 [imgMagic, 1 <<< 24, 1, 0, 0, 0, 0, 0, 0, 0, 0, 0, 0, 0, 0]])); s.wrs lcbBuffer ([imgMagic, 1 <<< 24, 1, 0, 0, 0, 0, 0, 0, 0, 0, 0, 0, 0, 0, crc36 [imgMagic, 1 <<< 24, 1, 0, 0, 0, 0, 0, 0, 0, 0, 0, 0, 0, 0]].map W)), _, _, _, _, by decide +kernel, rfl, rfl, by decide +kernel, rfl, by decide +kernel, rfl⟩,
    ⟨(let s : Chip := {}; let s := { s with ldr := { s.ldr with who := LdrWho.rom } }; let s := s.wr (lcb + 0) (W (2 <<< 32 ||| 1 <<< 24 ||| 0)); let s := s.wr (lcb + 1) 0; let s := s.wr (lcb + 2) (W 0); s.wr (lcb + 3) (W (0))), _, _, by decide +kernel, rfl, rfl, by decide +kernel⟩,
    ⟨(let s : Chip := {}; let s := { s with ldr := { s.ldr with who := LdrWho.rom } }; let s := s.wr (lcb + 0) (W (2 <<< 32 ||| 1 <<< 24 ||| 0)); let s := s.wr (lcb + 1) 0; let s := s.wr (lcb + 2) (W 4097); let s := s.wr (lcb + 3) (W (0)); { s with ldr := { s.ldr with hdr := some [] } }), _, _, _, by decide +kernel, rfl, rfl, by decide +kernel, wSome _ (by decide +kernel), by decide +kernel⟩,
    ⟨(let s : Chip := {}; let s := { s with ldr := { s.ldr with who := LdrWho.rom } }; let s := s.wr (lcb + 0) (W (2 <<< 32 ||| 1 <<< 24 ||| 0)); let s := s.wr (lcb + 1) 0; let s := s.wr (lcb + 2) (W 0); let s := s.wr (lcb + 3) (W (1)); { s with ldr := { s.ldr with hdr := some [] } }), _, _, _, by decide +kernel, rfl, rfl, by decide +kernel, wSome _ (by decide +kernel), by decide +kernel⟩,
    ⟨(let s : Chip := {}; let s := { s with ldr := { s.ldr with who := LdrWho.rom } }; let s := s.wr (lcb + 0) (W (2 <<< 32 ||| 1 <<< 24 ||| 0)); let s := s.wr (lcb + 1) 0; let s := s.wr (lcb + 2) (W 1); let s := s.wr (lcb + 3) (W (crc36 [0])); let s := { s with ldr := { s.ldr with hdr := some [] } }; s.wrs lcbBuffer ([0])), _, _, _, _, by decide +kernel, rfl, rfl, by decide +kernel, wSome _ (by decide +kernel), by decide +kernel, rfl, by decide +kernel⟩,
    ⟨(let s : Chip := {}; let s := { s with ldr := { s.ldr with who := LdrWho.rom } }; let s := s.wr (lcb + 0) (W (2 <<< 32 ||| 1 <<< 24 ||| 0)); let s := s.wr (lcb + 1) 0; let s := s.wr (lcb + 2) (W 1); let s := s.wr (lcb + 3) (W (crc36 [0])); let s := { s with ldr := { s.ldr with hdr := some [0, 0, 8] } }; let s := s.wrs lcbBuffer [0]; { s with flash := [(imgBase + 16, 0)] }), _, _, _, _, 0, by decide +kernel, rfl, rfl, by decide +kernel, wSome _ (by decide +kernel), by decide +kernel, rfl, by decide +kernel⟩,
    ⟨(let s : Chip := {}; let s := { s with ldr := { s.ldr with who := LdrWho.rom } }; let s := s.wr (lcb + 0) (W (2 <<< 32 ||| 1 <<< 24 ||| 0)); let s := s.wr (lcb + 1) 0; let s := s.wr (lcb + 2) (W 1); let s := s.wr (lcb + 3) (W (crc36 [0])); let s := { s with ldr := { s.ldr with hdr := some [0, 0, 8] } }; s.wrs lcbBuffer [0]), _, _, _, _, by decide +kernel, rfl, rfl, by decide +kernel, wSome _ (by decide +kernel), by decide +kernel, rfl, by decide +kernel⟩,
    ⟨(let s : Chip := {}; let s := { s with ldr := { s.ldr with who := LdrWho.rom } }; let s := s.wr (lcb + 0) (W (3 <<< 32 ||| 1 <<< 24 ||| 0)); let s := s.wr (lcb + 1) 0; let s := s.wr (lcb + 2) (W 0); s.wr (lcb + 3) (W (0))), _, _, by decide +kernel, rfl, rfl, by decide +kernel⟩,
    ⟨(let s : Chip := {}; let s := { s with ldr := { s.ldr with who := LdrWho.rom } }; let s := s.wr (lcb + 0) (W (3 <<< 32 ||| 1 <<< 24 ||| 0)); let s := s.wr (lcb + 1) 0; let s := s.wr (lcb + 2) (W 0); let s := s.wr (lcb + 3) (W (0)); { s with ldr := { s.ldr with hdr := some [0, 0, 0, 1] } }), _, _, _, by decide +kernel, rfl, rfl, by decide +kernel, wSome _ (by decide +kernel), by decide +kernel⟩,
    ⟨(let s : Chip := {}; let s := { s with ldr := { s.ldr with who := LdrWho.rom } }; let s := s.wr (lcb + 0) (W (3 <<< 32 ||| 1 <<< 24 ||| 0)); let s := s.wr (lcb + 1) 0; let s := s.wr (lcb + 2) (W 0); let s := s.wr (lcb + 3) (W (0)); { s with ldr := { s.ldr with hdr := some [0, 0, 0, crc36 []] } }), _, _, _, by decide +kernel, rfl, rfl, by decide +kernel, wSome _ (by decide +kernel), by decide +kernel⟩,
    ⟨(let s : Chip := {}; let s := { s with ldr := { s.ldr with who := LdrWho.rom } }; let s := s.wr (lcb + 0) (W (4 <<< 32 ||| 1 <<< 24 ||| 0)); let s := s.wr (lcb + 1) 0; let s := s.wr (lcb + 2) (W 4097); s.wr (lcb + 3) (W (0))), _, _, by decide +kernel, rfl, rfl, by decide +kernel⟩,
    ⟨(let s : Chip := {}; let s := { s with ldr := { s.ldr with who := LdrWho.rom } }; let s := s.wr (lcb + 0) (W (4 <<< 32 ||| 1 <<< 24 ||| 0)); let s := s.wr (lcb + 1) 0; let s := s.wr (lcb + 2) (W 0); s.wr (lcb + 3) (W (1))), _, _, by decide +kernel, rfl, rfl, by decide +kernel⟩,
    ⟨(let s : Chip := {}; let s := { s with ldr := { s.ldr with who := LdrWho.rom } }; let s := s.wr (lcb + 0) (W (4 <<< 32 ||| 1 <<< 24 ||| 0)); let s := s.wr (lcb + 1) 0; let s := s.wr (lcb + 2) (W 1); let s := s.wr (lcb + 3) (W (crc36 [0])); s.wrs lcbBuffer ([0])), _, _, by decide +kernel, rfl, rfl, by decide +kernel⟩,
    ⟨(let s : Chip := {}; let s := { s with ldr := { s.ldr with who := LdrWho.rom } }; let s := s.wr (lcb + 0) (W (4 <<< 32 ||| 1 <<< 24 ||| 0)); let s := s.wr (lcb + 1) 0; let s := s.wr (lcb + 2) (W 1); let s := s.wr (lcb + 3) (W (crc36 [1])); s.wrs lcbBuffer ([1])), _, _, by decide +kernel, rfl, rfl, by decide +kernel⟩,
    ⟨(let s : Chip := {}; let s := { s with ldr := { s.ldr with who := LdrWho.rom } }; let s := s.wr (lcb + 0) (W (4 <<< 32 ||| 1 <<< 24 ||| 0)); let s := s.wr (lcb + 1) 0; let s := s.wr (lcb + 2) (W 3); let s := s.wr (lcb + 3) (W (crc36 [0x15A <<< 27 ||| 1 <<< 18 ||| 3, 0, crc32Words [0x15A <<< 27 ||| 1 <<< 18 ||| 3, 0]])); s.wrs lcbBuffer ([0x15A <<< 27 ||| 1 <<< 18 ||| 3, 0, crc32Words [0x15A <<< 27 ||| 1 <<< 18 ||| 3, 0]].map W)), _, _, by decide +kernel, rfl, rfl, by decide +kernel⟩,
    ⟨(let s : Chip := {}; { s with pwr := { s.pwr with entering := some (PState.run) } }), _, { late := false, chk := none }, _, _, _, 0, 0, _, _, _, rfl, rfl, rfl, rfl, rfl, rfl, by decide +kernel, rfl⟩,
    ⟨{}, { late := false, chk := none }, _, _, _, 0, 0, _, _, _, rfl, rfl, rfl, rfl, rfl, rfl, by decide +kernel⟩,
    ⟨(let s : Chip := {}; let s := run1 s; { s with svc := { s.svc with held := some ([svcWord 9 1 0], 0, []) } }), _, { late := false, chk := none }, _, _, _, _, _, _, _, _, _, rfl, rfl, rfl, rfl, rfl, rfl, by decide +kernel, rfl, by decide +kernel, wSome _ (by decide +kernel), rfl, by decide +kernel⟩,
    ⟨(let s : Chip := {}; let s := { s with svc := { s.svc with held := some ([6], 0, []) } }; { s with pwr := { s.pwr with bootPending := false } }), _, { late := true, chk := none }, _, _, _, 0, 6, _, _, _, _, _, _, rfl, rfl, rfl, rfl, rfl, rfl, by decide +kernel, rfl, by decide +kernel, wSome _ (by decide +kernel), rfl, by decide +kernel⟩,
    ⟨(let s : Chip := {}; { s with pwr := { s.pwr with bootPending := false } }), _, { late := false, chk := none }, _, _, _, 0, 0, _, _, _, _, rfl, rfl, rfl, rfl, rfl, rfl, by decide +kernel, rfl, by decide +kernel, rfl, by decide +kernel⟩,
    ⟨(run1 {}), _, { late := true, chk := none }, _, _, _, 0, _, _, _, _, rfl, rfl, rfl, rfl, rfl, rfl, by decide +kernel, rfl, by decide +kernel, rfl, by decide +kernel⟩,
    ⟨(let s : Chip := {}; let s := run1 s; let s := s.setFld F.SVC_STAT_VER 2; { s with svc := { s.svc with held := some ([svcWord 9 1 0], 1, []) } }), _, { late := false, chk := some (checkWord (svcWord 9 1 0) []) }, _, _, _, _, _, _, _, _, _, rfl, rfl, rfl, rfl, rfl, rfl, by decide +kernel, rfl, by decide +kernel, wSome _ (by decide +kernel), rfl, by decide +kernel⟩,
    ⟨(let s : Chip := {}; let s := run1 s; let s := s.setFld F.SVC_STAT_VER 2; { s with svc := { s.svc with held := some ([svcWord 9 1 0], 0, []) } }), _, { late := false, chk := some (checkWord (svcWord 9 1 0) []) }, _, _, _, _, _, _, _, _, _, rfl, rfl, rfl, rfl, rfl, rfl, by decide +kernel, rfl, by decide +kernel, wSome _ (by decide +kernel), rfl, by decide +kernel⟩,
    ⟨(let s : Chip := {}; let s := run1 s; let s := s.setFld F.SVC_STAT_VER 2; { s with svc := { s.svc with held := some ([svcWord 9 1 0], 0, []) } }), _, { late := true, chk := some (checkWord (svcWord 9 1 0) []) }, _, _, _, _, _, _, _, _, _, rfl, rfl, rfl, rfl, rfl, rfl, by decide +kernel, rfl, by decide +kernel, wSome _ (by decide +kernel), rfl, by decide +kernel⟩,
    ⟨(let s : Chip := run1 {}; let s := s.setReg R.SVC_STAT (W 197376); s.setFld F.SVC_STAT_VER 2), _, _, _, _, 0, [], _, _, _, _, _, rfl, rfl, rfl, rfl, rfl, by decide +kernel, rfl, rfl, by decide +kernel, rfl, rfl, by decide +kernel⟩,
    ⟨(let s : Chip := {}; { s with pwr := { s.pwr with bootPending := false } }), _, _, _, _, 0, [], _, _, _, _, _, rfl, rfl, rfl, rfl, rfl, by decide +kernel, rfl, rfl, by decide +kernel, rfl, rfl, by decide +kernel⟩,
    ⟨(run1 {}), _, _, _, _, 0, [], _, _, _, _, _, rfl, rfl, rfl, rfl, rfl, by decide +kernel, rfl, rfl, by decide +kernel, rfl, rfl⟩,
    ⟨(let s : Chip := run1 {}; s.setFld F.SVC_STAT_VER 2), _, { late := false, chk := none }, _, _, _, 0, 0, _, _, _, _, rfl, rfl, rfl, rfl, rfl, rfl, by decide +kernel, rfl, by decide +kernel, rfl, by decide +kernel⟩,
    ⟨(let s : Chip := {}; let s := { s with pwr := { s.pwr with bootPending := false } }; s.setReg R.SVC_STAT (W 2104)), _, { late := true, chk := none }, _, _, _, 0, 0, _, _, _, _, rfl, rfl, rfl, rfl, rfl, rfl, by decide +kernel, rfl, by decide +kernel, rfl, by decide +kernel⟩⟩

theorem wit_DecodeAndEncodeAgree :
    (∃ (i : Instr) (op : BitVec 8) (c : Core) (o : Opnd), j36Parts i = some (op, c, o))
    ∧ (∃ (c : Core) (w : Word) (i : Instr), decodeJ36 c w = some i)
    ∧ (∃ (i : Instr) (w : Word), encodeJ36 i = some w) :=
  ⟨⟨.lda .foxA ⟨7, true, 0xFFFFFF⟩, 1, .foxA, ⟨7, true, 0xFFFFFF⟩, rfl⟩, ⟨.badger, 0xF10000000#36, .trapb .badger ⟨0, false, 0⟩, by decide +kernel⟩,
    ⟨.jcc .foxB 15 ⟨0, false, 0⟩, 0x8F0000000#36, by decide +kernel⟩⟩
theorem wit_StepKeepsTheRestRules : ∃ s t : Sys2Proof.Machine.State, step s = .next t := ⟨{ pending := [], chip := {} }, _, rfl⟩
theorem wit_StoresReadBack_fields :
    (∃ (s : Chip) (f : Fld) (v : Nat), f.lo ≤ f.hi ∧ f.hi < 36)
    ∧ (∃ (s : Chip) (f g : Fld) (v : Nat), f.hi < 36 ∧ g.hi < 36 ∧ g.lo ≤ g.hi ∧ f.lo ≤ f.hi ∧ (g.addr ≠ f.addr ∨ g.hi < f.lo ∨ f.hi < g.lo)) :=
  ⟨⟨{}, ⟨0, 35, 0⟩, 1, by decide +kernel⟩, ⟨{}, ⟨5, 35, 18⟩, ⟨5, 17, 0⟩, 1, by decide +kernel⟩⟩

theorem wit_StoresReadBack_step :
    ∃ s t : Sys2Proof.Machine.State, s.chip.canonical = true ∧ step s = .next t := ⟨{ pending := [], chip := {} }, _, by decide +kernel, rfl⟩
end

section
/-!
PROOFS. Requests for a rest state (R104, R105): a write of PMU_REQ is two writes in turn, that of DEPTH and that of RET,
and the code of the later one that refuses goes to PMU_STAT.REASON.
-/
namespace Sys2Proof.Machine

/-! ### The DEPTH half of a write -/

/-- The deepest state that the enabled timers allow: with a holder 0 none but DOZE, with a holder 1 SLEEP (R104). -/
def Chip.timerDepthLimit (s : Chip) : Nat := if s.holder 0 then 0 else if s.holder 1 then 1 else 3

theorem Chip.timerDepthLimit_lt_iff (s : Chip) {d : Nat} (hd : d ≤ 3) :
    s.timerDepthLimit < d ↔ s.holder 0 = true ∧ 1 ≤ d ∨ s.holder 1 = true ∧ 2 ≤ d := by
  unfold Chip.timerDepthLimit
  split
  case isTrue h0 =>
    refine ⟨fun h => .inl ⟨h0, h⟩, ?_⟩
    rintro (⟨-, h⟩ | ⟨-, h⟩) <;> omega
  case isFalse h0 =>
    split
    case isTrue h1 => exact ⟨fun h => .inr ⟨h1, h⟩, fun h => (h.resolve_left fun a => h0 a.1).2⟩
    case isFalse h1 => exact ⟨fun h => absurd h (Nat.not_lt_of_le hd), fun h => absurd (h.resolve_left fun a => h0 a.1).1 h1⟩

theorem Chip.le_timerDepthLimit_iff (s : Chip) {d : Nat} (hd : d ≤ 3) :
    d ≤ s.timerDepthLimit ↔ (s.holder 0 = false ∨ d = 0) ∧ (s.holder 1 = false ∨ d ≤ 1) := by
  rw [← Nat.not_lt, s.timerDepthLimit_lt_iff hd, not_or, Classical.not_and_iff_not_or_not, Classical.not_and_iff_not_or_not,
    Bool.not_eq_true, Bool.not_eq_true, Nat.not_le, Nat.not_le, Nat.lt_one_iff, Nat.lt_succ_iff]

/-- What a write of DEPTH `d` answers, and the chip it leaves (R104, R105). -/
def Chip.requestDepth (s : Chip) (d : Nat) : Nat × Chip :=
  if s.fld F.PMU_REQ_MAXDEPTH < d then (Rc.RANGE, s)
  else if d = s.fld F.PMU_REQ_DEPTH then (Rc.OK, s)
  else if s.timerDepthLimit < d then (Rc.BUSY, s)
  else (Rc.OK, s.setFld F.PMU_REQ_DEPTH d)

section Depth
variable {s : Chip} {d : Nat}

theorem Chip.requestDepth_above (h : s.fld F.PMU_REQ_MAXDEPTH < d) : s.requestDepth d = (Rc.RANGE, s) := if_pos h

variable (hmax : d ≤ s.fld F.PMU_REQ_MAXDEPTH)
include hmax

theorem Chip.requestDepth_same (h : d = s.fld F.PMU_REQ_DEPTH) : s.requestDepth d = (Rc.OK, s) := by
  rw [Chip.requestDepth, if_neg (Nat.not_lt_of_le hmax), if_pos h]

theorem Chip.requestDepth_held (hne : d ≠ s.fld F.PMU_REQ_DEPTH) (h : s.timerDepthLimit < d) :
    s.requestDepth d = (Rc.BUSY, s) := by
  rw [Chip.requestDepth, if_neg (Nat.not_lt_of_le hmax), if_neg hne, if_pos h]

theorem Chip.requestDepth_taken (hne : d ≠ s.fld F.PMU_REQ_DEPTH) (h : d ≤ s.timerDepthLimit) :
    s.requestDepth d = (Rc.OK, s.setFld F.PMU_REQ_DEPTH d) := by
  rw [Chip.requestDepth, if_neg (Nat.not_lt_of_le hmax), if_neg hne, if_neg (Nat.not_lt_of_le h)]

end Depth

/-- A new DEPTH leaves RET as it is. -/
theorem Chip.fld_ret_setFld_depth (s : Chip) (d : Nat) :
    (s.setFld F.PMU_REQ_DEPTH d).fld F.PMU_REQ_RET = s.fld F.PMU_REQ_RET :=
  s.fld_setFld_disj F.PMU_REQ_DEPTH d (g := F.PMU_REQ_RET) rfl (by decide) (by decide) (by decide) (by decide) (by decide)

/-- A new DEPTH locks and unlocks no section. -/
theorem Chip.lockedSec_setFld_depth (s : Chip) (d n : Nat) : (s.setFld F.PMU_REQ_DEPTH d).lockedSec n = s.lockedSec n := by
  rw [Chip.lockedSec, s.reg_setFld_ne F.PMU_REQ_DEPTH d (by decide), Chip.lockedSec]

/-! ### The RET half of a write -/

/-- What a write of RET `r` leaves where it takes effect; the value RET already has changes nothing. -/
def Chip.withRet (s : Chip) (r : Nat) : Chip := if r = s.fld F.PMU_REQ_RET then s else s.setFld F.PMU_REQ_RET r

/-- The code after a write of RET `r` that follows the code `code`, and the chip it leaves: the lock of section 2 keeps RET (R66). -/
def Chip.requestRet (s : Chip) (code r : Nat) : Nat × Chip :=
  if r = s.fld F.PMU_REQ_RET then (code, s)
  else if s.lockedSec 2 then (Rc.LOCKED, s)
  else (code, s.setFld F.PMU_REQ_RET r)

theorem Chip.requestRet_taken {s : Chip} {r : Nat} (code : Nat) (h : r = s.fld F.PMU_REQ_RET ∨ s.lockedSec 2 = false) :
    s.requestRet code r = (code, s.withRet r) := by
  unfold Chip.requestRet Chip.withRet
  by_cases hr : r = s.fld F.PMU_REQ_RET
  · rw [if_pos hr, if_pos hr]
  · rw [if_neg hr, if_neg hr, if_neg (Bool.eq_false_iff.1 (h.resolve_left hr))]

theorem Chip.requestRet_locked {s : Chip} {r : Nat} (code : Nat) (hr : r ≠ s.fld F.PMU_REQ_RET) (h : s.lockedSec 2 = true) :
    s.requestRet code r = (Rc.LOCKED, s) := by
  rw [Chip.requestRet, if_neg hr, if_pos h]

/-! ### The whole write, and the read -/

theorem Chip.pmuReqWrite_badger (s : Chip) (v : Word) : s.pmuReqWrite .badger v = s.setReason R.PMU_STAT Rc.SECURITY := rfl

/-- A write of PMU_REQ from any agent but Badger: DEPTH first, then RET, then the code. -/
theorem Chip.pmuReqWrite_eq (s : Chip) {ag : Agent} (v : Word) {code : Nat} {t : Chip} (hag : ag ≠ .badger)
    (hd : s.requestDepth (bits v.toNat 17 16) = (code, t)) :
    s.pmuReqWrite ag v = (t.requestRet code (bits v.toNat 15 0)).2.setReason R.PMU_STAT (t.requestRet code (bits v.toNat 15 0)).1 := by
  have h : s.pmuReqWrite ag v =
      ((s.requestDepth (bits v.toNat 17 16)).2.requestRet (s.requestDepth (bits v.toNat 17 16)).1 (bits v.toNat 15 0)).2.setReason
        R.PMU_STAT ((s.requestDepth (bits v.toNat 17 16)).2.requestRet (s.requestDepth (bits v.toNat 17 16)).1 (bits v.toNat 15 0)).1 :=
    if_neg hag
  rw [h, hd]

theorem Chip.gives_pmuReqWrite (s : Chip) (ag : Agent) (v : Word) : s.gives (.pmuReqWrite ag v) (s.pmuReqWrite ag v) :=
  fun q => exec_pmuReqWrite ⟨q, s⟩ ag v

theorem Chip.gives_pmuStatRead (s : Chip) (ag : Agent) :
    s.gives (.pmuStatRead ag) { s.setFld F.PMU_STAT_LAST 0 with rdata := s.reg R.PMU_STAT } :=
  fun q => exec_pmuStatRead ⟨q, s⟩ ag

section Write
variable {s t : Chip} {ag : Agent} {v : Word} {code : Nat} (hag : ag ≠ .badger)
  (hd : s.requestDepth (bits v.toNat 17 16) = (code, t))
include hag hd

/-- Where RET takes effect, the code is that of DEPTH. -/
theorem Chip.gives_pmuReqWrite_of_ret_taken (hr : bits v.toNat 15 0 = t.fld F.PMU_REQ_RET ∨ t.lockedSec 2 = false) :
    s.gives (.pmuReqWrite ag v) ((t.withRet (bits v.toNat 15 0)).setReason R.PMU_STAT code) := by
  have h := s.gives_pmuReqWrite ag v
  rwa [s.pmuReqWrite_eq v hag hd, Chip.requestRet_taken code hr] at h

/-- Where the lock keeps RET, the code is LOCKED. -/
theorem Chip.gives_pmuReqWrite_of_ret_locked (hr : bits v.toNat 15 0 ≠ t.fld F.PMU_REQ_RET) (hl : t.lockedSec 2 = true) :
    s.gives (.pmuReqWrite ag v) (t.setReason R.PMU_STAT Rc.LOCKED) := by
  have h := s.gives_pmuReqWrite ag v
  rwa [s.pmuReqWrite_eq v hag hd, Chip.requestRet_locked code hr hl] at h

end Write

/-- A new DEPTH that no lasting holder forbids is stored beside RET, and the code is OK. -/
theorem Chip.gives_pmuReqWrite_of_depth_taken {s : Chip} {ag : Agent} {v : Word} (hag : ag ≠ .badger)
    (hr : bits v.toNat 15 0 = s.fld F.PMU_REQ_RET ∨ s.lockedSec 2 = false)
    (hmax : bits v.toNat 17 16 ≤ s.fld F.PMU_REQ_MAXDEPTH) (hne : bits v.toNat 17 16 ≠ s.fld F.PMU_REQ_DEPTH)
    (hfree : bits v.toNat 17 16 ≤ s.timerDepthLimit) :
    s.gives (.pmuReqWrite ag v)
      (((s.setFld F.PMU_REQ_DEPTH (bits v.toNat 17 16)).withRet (bits v.toNat 15 0)).setReason R.PMU_STAT Rc.OK) := by
  rw [← s.fld_ret_setFld_depth (bits v.toNat 17 16), ← s.lockedSec_setFld_depth (bits v.toNat 17 16) 2] at hr
  exact Chip.gives_pmuReqWrite_of_ret_taken hag (Chip.requestDepth_taken hmax hne hfree) hr

/-- Settles O25: each outcome of the DEPTH half, with RET taken or locked, is one case of the write. -/
theorem restRequests : Obligations.RestRequests := by
  rintro s ag v d rfl
  have hd3 : bits v.toNat 17 16 ≤ 3 := Nat.le_of_lt_succ (Nat.mod_lt _ (by decide))
  refine ⟨?badger, fun x hag hx => ⟨fun hr => ⟨?range, fun hmax => ⟨?same, fun hne => ⟨?busy, ?taken⟩⟩⟩, ?locked⟩,
    s.gives_pmuStatRead ag⟩
  case badger =>
    rintro rfl
    have h := s.gives_pmuReqWrite .badger v
    rwa [s.pmuReqWrite_badger v] at h
  case range =>
    intro h
    subst hx
    exact Chip.gives_pmuReqWrite_of_ret_taken hag (Chip.requestDepth_above h) hr
  case same =>
    intro h
    subst hx
    exact Chip.gives_pmuReqWrite_of_ret_taken hag (Chip.requestDepth_same hmax h) hr
  case busy =>
    intro h
    subst hx
    exact Chip.gives_pmuReqWrite_of_ret_taken hag (Chip.requestDepth_held hmax hne ((s.timerDepthLimit_lt_iff hd3).2 h)) hr
  case taken =>
    rintro h0 h1 y rfl
    have h := Chip.gives_pmuReqWrite_of_depth_taken hag hr hmax hne ((s.le_timerDepthLimit_iff hd3).2 ⟨h0, h1⟩)
    rwa [Chip.withRet, s.fld_ret_setFld_depth] at h
  case locked =>
    intro hr hl hsame hmax
    exact Chip.gives_pmuReqWrite_of_ret_locked hag (Chip.requestDepth_same hmax hsame) hr hl

end Sys2Proof.Machine
end

section
/-!
PROOFS. Numbers by their digits: what both the words of nine nibbles and the field ST.NC are read through.
-/
namespace Sys2Proof.Machine

/-! ### Sums of digits -/

/-- The number with the `n` digits `f` in base `b`. -/
def digitSum (b : Nat) (f : Nat → Nat) : Nat → Nat
  | 0 => 0
  | n + 1 => digitSum b f n + f n * b ^ n

theorem digitSum_succ (b : Nat) (f : Nat → Nat) (n : Nat) : digitSum b f (n + 1) = digitSum b f n + f n * b ^ n := rfl

theorem digitSum_congr {b n : Nat} {f g : Nat → Nat} (h : ∀ i, i < n → f i = g i) : digitSum b f n = digitSum b g n := by
  induction n with
  | zero => rfl
  | succ n ih => rw [digitSum_succ, digitSum_succ, ih fun i hi => h i (Nat.lt_succ_of_lt hi), h n n.lt_succ_self]

theorem foldl_digitSum (b : Nat) (f : Nat → Nat) (n : Nat) :
    (List.range n).foldl (fun acc i => acc + f i * b ^ i) 0 = digitSum b f n := by
  induction n with
  | zero => rfl
  | succ n ih => rw [List.range_succ, List.foldl_append, ih]; rfl

theorem digitSum_lt {b n : Nat} {f : Nat → Nat} (h : ∀ i, i < n → f i < b) : digitSum b f n < b ^ n := by
  induction n with
  | zero => exact Nat.one_pos
  | succ n ih =>
    have hlow := ih fun i hi => h i (Nat.lt_succ_of_lt hi)
    calc digitSum b f (n + 1) < b ^ n + f n * b ^ n := Nat.add_lt_add_right hlow _
      _ = (f n + 1) * b ^ n := by rw [Nat.succ_mul, Nat.add_comm]
      _ ≤ b * b ^ n := Nat.mul_le_mul_right _ (h n n.lt_succ_self)
      _ = b ^ (n + 1) := Nat.pow_succ'.symm

section
variable {b n j : Nat} {f : Nat → Nat} (h : ∀ i, f i < b)
include h

/-- The low digits are what is left modulo a power of the base. -/
theorem digitSum_mod_pow (hj : j ≤ n) : digitSum b f n % b ^ j = digitSum b f j := by
  induction hj with
  | refl => exact Nat.mod_eq_of_lt (digitSum_lt fun i _ => h i)
  | @step n hn ih =>
    have hd : b ^ j ∣ f n * b ^ n := Nat.dvd_trans (Nat.pow_dvd_pow b hn) (Nat.dvd_mul_left ..)
    rw [digitSum_succ, Nat.add_mod, Nat.mod_eq_zero_of_dvd hd, Nat.add_zero, Nat.mod_mod, ih]

theorem digitSum_digit (hj : j < n) : digitSum b f n / b ^ j % b = f j := by
  have e := digitSum_mod_pow h (Nat.succ_le_of_lt hj)
  rw [Nat.mod_pow_succ, digitSum_mod_pow h (Nat.le_of_lt hj), digitSum_succ, Nat.mul_comm (f j)] at e
  exact Nat.eq_of_mul_eq_mul_left (Nat.pow_pos (Nat.zero_lt_of_lt (h 0))) (Nat.add_left_cancel e)

end

theorem digitSum_of (b v n : Nat) : digitSum b (fun i => v / b ^ i % b) n = v % b ^ n := by
  induction n with
  | zero => exact (Nat.mod_one v).symm
  | succ n ih => rw [digitSum_succ, ih, Nat.mod_pow_succ, Nat.mul_comm]

/-- Adding digit by digit with carries `c`, whatever the base: the sums differ by the last carry alone. -/
theorem digitSum_carry {b n : Nat} {o x y c : Nat → Nat} (h0 : c 0 = 0)
    (h : ∀ i, i < n → o i + b * c (i + 1) = x i + y i + c i) :
    digitSum b o n + b ^ n * c n = digitSum b x n + digitSum b y n := by
  induction n with
  | zero => rw [h0]; rfl
  | succ n ih =>
    have low := ih fun i hi => h i (Nat.lt_succ_of_lt hi)
    have column : o n * b ^ n + b ^ (n + 1) * c (n + 1) = x n * b ^ n + y n * b ^ n + b ^ n * c n := by
      have e := congrArg (· * b ^ n) (h n n.lt_succ_self)
      simp only [Nat.add_mul] at e
      rw [Nat.pow_succ', Nat.mul_right_comm, e, Nat.mul_comm (c n)]
    simp only [digitSum_succ]
    omega

/-! ### The nibbles of a word -/

theorem nib_eq (w : Word) (i : Nat) : nib w i = w.toNat / 16 ^ i % 16 := by
  rw [nib, Nat.shiftRight_eq_div_pow, Nat.pow_mul]

theorem nib_lt (w : Word) (i : Nat) : nib w i < 16 := Nat.mod_lt _ (by decide)

theorem nib_ofNibs (f : Nat → Nat) {i : Nat} (hi : i < 9) : nib (ofNibs f) i = f i % 16 := by
  have hf : ∀ j, f j % 16 < 16 := fun j => Nat.mod_lt _ (by decide)
  have hs : ofNibs f = W (digitSum 16 (fun j => f j % 16) 9) := by
    rw [ofNibs, ← foldl_digitSum]
    simp only [Nat.shiftLeft_eq, Nat.pow_mul, Nat.reducePow]
  have hlt : digitSum 16 (fun j => f j % 16) 9 < 2 ^ 36 := digitSum_lt fun j _ => hf j
  rw [nib_eq, hs, BitVec.toNat_ofNat, Nat.mod_eq_of_lt hlt, digitSum_digit hf hi]

theorem digitsOk_iff {w : Word} {lo hi : Nat} : digitsOk w lo hi = true ↔ ∀ i, lo ≤ i → i ≤ hi → nib w i ≤ 9 := by
  simp only [digitsOk, List.all_eq_true, List.mem_range, Nat.lt_succ_iff, Bool.or_eq_true, decide_eq_true_eq]
  exact ⟨fun h i hl hh => (h i hh).resolve_left (Nat.not_lt_of_le hl),
    fun h i hh => (Nat.lt_or_ge i lo).imp_right fun hl => h i hl hh⟩

theorem digitsOk_false_iff {w : Word} {lo hi : Nat} : digitsOk w lo hi = false ↔ ∃ i, lo ≤ i ∧ i ≤ hi ∧ 9 < nib w i := by
  rw [← Bool.not_eq_true, digitsOk_iff]
  simp only [Classical.not_forall, Nat.not_le, exists_prop]

/-- Digits below `lo` are skipped, and `n` digits from there are read, the highest first. -/
theorem foldl_digits (w : Word) (lo n acc : Nat) :
    (List.range (lo + n)).reverse.foldl (fun acc i => if i < lo then acc else acc * 10 + nib w i) acc
      = acc * 10 ^ n + digitSum 10 (fun i => nib w (lo + i)) n := by
  induction n generalizing acc with
  | zero =>
    have skip : ∀ l : List Nat, (∀ i, i ∈ l → i < lo) →
        l.foldl (fun acc i => if i < lo then acc else acc * 10 + nib w i) acc = acc := by
      intro l
      induction l with
      | nil => exact fun _ => rfl
      | cons i l ih =>
        intro h
        rw [List.foldl_cons, if_pos (h i List.mem_cons_self), ih fun j hj => h j (List.mem_cons_of_mem i hj)]
    rw [Nat.add_zero, skip _ fun i hi => List.mem_range.1 (List.mem_reverse.1 hi), Nat.pow_zero, Nat.mul_one]
    rfl
  | succ n ih =>
    have hn : ¬ lo + n < lo := by omega
    rw [← Nat.add_assoc, List.range_succ, List.reverse_append, List.reverse_singleton, List.singleton_append, List.foldl_cons,
      if_neg hn, ih, digitSum_succ, Nat.add_mul, Nat.pow_succ', Nat.mul_assoc]
    omega

theorem digitsVal_eq (w : Word) (lo n : Nat) :
    digitsVal w lo (lo + n) = digitSum 10 (fun i => nib w (lo + i)) (n + 1) := by
  have h := foldl_digits w lo (n + 1) 0
  rwa [Nat.zero_mul, Nat.zero_add] at h

/-- The value of nine digits (D9). -/
theorem digitsVal_nine (w : Word) : digitsVal w 0 8 = digitSum 10 (nib w) 9 :=
  (digitsVal_eq w 0 8).trans (digitSum_congr fun i _ => by rw [Nat.zero_add])

/-- The value of the eight digits above the sign nibble (DS). -/
theorem digitsVal_eight (w : Word) : digitsVal w 1 8 = digitSum 10 (fun i => nib w (i + 1)) 8 :=
  (digitsVal_eq w 1 7).trans (digitSum_congr fun i _ => by rw [Nat.add_comm])

theorem digitsVal_nine_lt {w : Word} (h : digitsOk w 0 8 = true) : digitsVal w 0 8 < 10 ^ 9 := by
  rw [digitsVal_nine]
  exact digitSum_lt fun i hi => Nat.lt_succ_of_le (digitsOk_iff.1 h i (Nat.zero_le i) (Nat.le_of_lt_succ hi))

theorem digitsVal_eight_lt {w : Word} (h : digitsOk w 1 8 = true) : digitsVal w 1 8 < 10 ^ 8 := by
  rw [digitsVal_eight]
  exact digitSum_lt fun i hi => Nat.lt_succ_of_le (digitsOk_iff.1 h (i + 1) (Nat.le_add_left 1 i) hi)

end Sys2Proof.Machine
end

section
/-!
PROOFS. The bits of ST (R442): what each is after one of them, or NC, is set.
-/
namespace Sys2Proof.Machine

theorem getLsbD_stSet (st : Word) {i : Nat} (b : Bool) (j : Nat) (hi : i < 36) :
    (stSet st i b).getLsbD j = if j = i then b else st.getLsbD j := by
  have one : (1#36 <<< i).getLsbD j = decide (j = i) := by
    rw [BitVec.getLsbD_shiftLeft, BitVec.getLsbD_one]
    by_cases h : j = i
    · simp [h, hi]
    · simp only [h, decide_false, Bool.and_eq_false_iff, Bool.not_eq_false', decide_eq_true_eq, decide_eq_false_iff_not]
      omega
  cases b with
  | true => by_cases h : j = i <;> simp [stSet, one, h, hi]
  | false =>
    by_cases h : j = i
    · simp [stSet, h]
    · simp only [stSet, Bool.false_eq_true, if_false, BitVec.getLsbD_and, BitVec.getLsbD_not, one, h, decide_false, Bool.not_false,
        Bool.and_true, Bool.and_eq_left_iff_imp, decide_eq_true_eq]
      exact BitVec.lt_of_getLsbD

theorem getLsbD_stPutNc (st : Word) (nc j : Nat) :
    (stPutNc st nc).getLsbD j = if 12 ≤ j ∧ j < 21 then nc.testBit (j - 12) else st.getLsbD j := by
  have mask : (0x1FF#36 <<< 12).getLsbD j = decide (12 ≤ j ∧ j < 21) := by
    have e : (0x1FF#36 : Word) = BitVec.ofNat 36 (2 ^ 9 - 1) := rfl
    rw [e, BitVec.getLsbD_shiftLeft, BitVec.getLsbD_ofNat, Nat.testBit_two_pow_sub_one, Bool.eq_iff_iff]
    simp only [Bool.and_eq_true, Bool.not_eq_true', decide_eq_true_eq, decide_eq_false_iff_not]
    omega
  have e : nc % 512 = nc % 2 ^ 9 := rfl
  simp only [stPutNc, e, BitVec.getLsbD_or, BitVec.getLsbD_and, BitVec.getLsbD_not, mask, BitVec.getLsbD_shiftLeft,
    BitVec.getLsbD_ofNat, Nat.testBit_mod_two_pow]
  by_cases h : 12 ≤ j ∧ j < 21
  · have h36 : j < 36 := by omega
    have hsub : j - 12 < 9 := by omega
    have hsub36 : j - 12 < 36 := by omega
    simp [h, h36, hsub, hsub36]
  · have hrange : j < 12 ∨ ¬ j - 12 < 9 := by omega
    by_cases h36 : j < 36
    · rcases hrange with hr | hr <;> simp [h, h36, hr]
    · simp [h, h36, BitVec.getLsbD_of_ge st j (Nat.le_of_not_lt h36)]

theorem testBit_stNc (st : Word) {i : Nat} (hi : i < 9) : (stNc st).testBit i = st.getLsbD (12 + i) := by
  rw [stNc, bits, Nat.testBit_mod_two_pow, Nat.testBit_shiftRight, decide_eq_true hi, Bool.true_and]
  rfl

theorem testBit_ncOf (p : Nat → Bool) {i : Nat} (hi : i < 9) : (ncOf p).testBit i = p i := by
  have hp : ∀ j, (p j).toNat < 2 := fun j => Bool.toNat_lt _
  have hs : ncOf p = digitSum 2 (fun j => (p j).toNat) 9 := by
    rw [ncOf, ← foldl_digitSum]
    simp only [Nat.shiftLeft_eq]
  rw [Nat.testBit_eq_decide_div_mod_eq, hs, digitSum_digit hp hi]
  cases p i <;> rfl

theorem testBit_stNc_stPutNc (st : Word) (p : Nat → Bool) {i : Nat} (hi : i < 9) :
    (stNc (stPutNc st (ncOf p))).testBit i = p i := by
  rw [testBit_stNc _ hi, getLsbD_stPutNc, if_pos (by omega), Nat.add_sub_cancel_left, testBit_ncOf p hi]

theorem getLsbD_setNZ (st r : Word) (j : Nat) :
    (setNZ st r).getLsbD j = if j = St.Z then decide (r = 0) else if j = St.N then r.msb else st.getLsbD j := by
  rw [setNZ, getLsbD_stSet _ _ _ (by decide), getLsbD_stSet _ _ _ (by decide)]
  rfl

theorem getLsbD_setZclrN (st r : Word) (j : Nat) :
    (setZclrN st r).getLsbD j = if j = St.Z then decide (r = 0) else if j = St.N then false else st.getLsbD j := by
  rw [setZclrN, getLsbD_stSet _ _ _ (by decide), getLsbD_stSet _ _ _ (by decide)]
  rfl

end Sys2Proof.Machine
end

section
/-!
PROOFS. What the instructions of the J36 arithmetic come to on a core that executes now: one rule for each shape that
they share.
-/
namespace Sys2Proof.Machine

@[simp] theorem Chip.setCore_setCore (s : Chip) (c : Core) (x y : CoreSt) : (s.setCore c x).setCore c y = s.setCore c y := by
  cases c <;> rfl

section
variable {s t : Chip} {c : Core} {o : Opnd} {m : Word} {i : Instr} (hs : s.ready c)
include hs

/-- An instruction on A, M and ST, where M can be read. -/
theorem Chip.gives_alu {l : List Nat} (f : Word → Word → Word → Word × Word)
    (hi : ∀ q, exec i ⟨q, s⟩ = run (fun ch => ch.alu c o l f) ⟨q, s⟩) (hr : (s.fetch c).readM c o = .ok m t) (ho : o.inModes l = true) :
    s.gives i (((t.result c (f (t.core c).a m (t.core c).st)).postInc c o).finish c 1 none) := by
  intro q
  rw [hi, run_after, Chip.alu_ok s c o l f hs.1 hs.2 ho hr]

/-- An instruction on A and ST alone. -/
theorem Chip.gives_unary (f : Word → Word → Word × Word)
    (hi : ∀ q, exec i ⟨q, s⟩ = run (fun ch => ch.unary c ⟨0, false, 0⟩ 1 f) ⟨q, s⟩) :
    s.gives i (((s.fetch c).result c (f ((s.fetch c).core c).a ((s.fetch c).core c).st)).finish c 1 none) := by
  intro q
  rw [hi, run_after, Chip.unary_ok s c ⟨0, false, 0⟩ 1 f hs.1 hs.2 rfl]

/-- An instruction whose fields are accepted and whose effect makes the chip `t`, going on in sequence. -/
theorem Chip.gives_instr {ok : Bool} {n : Nat} {body : Chip → Acc Next}
    (hi : ∀ q, exec i ⟨q, s⟩ = run (fun ch => ch.instr c ok n body) ⟨q, s⟩) (hok : ok = true) (hb : body (s.fetch c) = goOn t) :
    s.gives i (t.finish c n none) := by
  intro q
  subst hok
  rw [hi, run_after, Chip.instr_ok s c n body hs.1 hs.2 hb]
  rfl

end

end Sys2Proof.Machine
end

section
/-!
PROOFS. The conversions (R448).
-/
namespace Sys2Proof.Machine

/-! ### D2B -/

theorem d2b_nine (a : Word) : d2b a false = if digitsOk a 0 8 then some (W (digitsVal a 0 8)) else none := rfl

/-- The signed value of a word in DS. -/
def dsVal (a : Word) : Int := if nib a 0 = 0xD then -(digitsVal a 1 8 : Int) else digitsVal a 1 8

theorem d2b_signed (a : Word) :
    d2b a true = if digitsOk a 1 8 = true ∧ (nib a 0 = 0xC ∨ nib a 0 = 0xD) then some (BitVec.ofInt 36 (dsVal a)) else none := by
  simp [d2b, dsVal]

theorem d2b_nine_eq_none {a : Word} : d2b a false = none ↔ ∃ i, i < 9 ∧ 9 < nib a i := by
  have e : (∃ i, i < 9 ∧ 9 < nib a i) ↔ digitsOk a 0 8 = false := by
    simp only [digitsOk_false_iff, Nat.zero_le, true_and, Nat.lt_succ_iff]
  rw [d2b_nine, e]
  cases digitsOk a 0 8 <;> simp

theorem d2b_signed_eq_none {a : Word} :
    d2b a true = none ↔ (∃ i, 1 ≤ i ∧ i < 9 ∧ 9 < nib a i) ∨ (nib a 0 ≠ 0xC ∧ nib a 0 ≠ 0xD) := by
  have e : (∃ i, 1 ≤ i ∧ i < 9 ∧ 9 < nib a i) ↔ digitsOk a 1 8 = false := by
    simp only [digitsOk_false_iff, Nat.lt_succ_iff]
  rw [d2b_signed, e]
  cases digitsOk a 1 8 <;> simp

theorem toNat_d2b_nine {a r : Word} (h : d2b a false = some r) : r.toNat = digitsVal a 0 8 := by
  rw [d2b_nine, Option.ite_none_right_eq_some] at h
  obtain ⟨hok, hr⟩ := h
  have hlt := digitsVal_nine_lt hok
  obtain rfl := Option.some.inj hr
  exact Nat.mod_eq_of_lt (by omega)

theorem toInt_d2b_signed {a r : Word} (h : d2b a true = some r) : r.toInt = dsVal a := by
  rw [d2b_signed, Option.ite_none_right_eq_some] at h
  obtain ⟨⟨hok, -⟩, hr⟩ := h
  have hlt := digitsVal_eight_lt hok
  obtain rfl := Option.some.inj hr
  rw [BitVec.toInt_ofInt]
  unfold dsVal
  exact Int.bmod_eq_of_le (by split <;> omega) (by split <;> omega)

/-! ### B2D -/

theorem decDigit_lt (v i : Nat) : decDigit v i < 10 := Nat.mod_lt _ (by decide)

theorem digitSum_decDigit {v n : Nat} (h : v < 10 ^ n) : digitSum 10 (decDigit v) n = v :=
  (digitSum_of 10 v n).trans (Nat.mod_eq_of_lt h)

/-- Nine digits of a value, as D9. -/
def nineDigits (v : Nat) : Word := ofNibs (decDigit v)

/-- Eight digits of a magnitude above its sign, as DS. -/
def signedDigits (v : Int) : Word := ofNibs fun i => if i = 0 then (if v < 0 then 0xD else 0xC) else decDigit v.natAbs (i - 1)

theorem b2d_nine (a : Word) : b2d a false = if a.toNat ≤ 999999999 then some (nineDigits a.toNat) else none := rfl

theorem b2d_signed (a : Word) : b2d a true = if a.toInt.natAbs ≤ 99999999 then some (signedDigits a.toInt) else none := rfl

theorem b2d_nine_eq_none {a : Word} : b2d a false = none ↔ 999999999 < a.toNat := by
  rw [b2d_nine, ite_eq_right_iff]
  simp

theorem b2d_signed_eq_none {a : Word} : b2d a true = none ↔ 99999999 < a.toInt.natAbs := by
  rw [b2d_signed, ite_eq_right_iff]
  simp

theorem nib_nineDigits (v : Nat) {i : Nat} (hi : i < 9) : nib (nineDigits v) i = decDigit v i := by
  rw [nineDigits, nib_ofNibs _ hi]
  exact Nat.mod_eq_of_lt (Nat.lt_trans (decDigit_lt v i) (by decide))

theorem nib_signedDigits_zero (v : Int) : nib (signedDigits v) 0 = if v < 0 then 0xD else 0xC := by
  rw [signedDigits, nib_ofNibs _ (by decide), if_pos rfl]
  split <;> rfl

theorem nib_signedDigits_succ (v : Int) {i : Nat} (hi : i < 8) : nib (signedDigits v) (i + 1) = decDigit v.natAbs i := by
  rw [signedDigits, nib_ofNibs _ (Nat.succ_lt_succ hi), if_neg i.succ_ne_zero]
  exact Nat.mod_eq_of_lt (Nat.lt_trans (decDigit_lt _ i) (by decide))

theorem digitsOk_nineDigits (v : Nat) : digitsOk (nineDigits v) 0 8 = true :=
  digitsOk_iff.2 fun i _ hi => Nat.le_trans (Nat.le_of_eq (nib_nineDigits v (Nat.lt_succ_of_le hi))) (Nat.le_of_lt_succ (decDigit_lt v i))

theorem digitsOk_signedDigits (v : Int) : digitsOk (signedDigits v) 1 8 = true := by
  refine digitsOk_iff.2 fun i hl hi => ?_
  obtain ⟨j, rfl⟩ := Nat.exists_eq_add_of_le' hl
  exact Nat.le_trans (Nat.le_of_eq (nib_signedDigits_succ v hi)) (Nat.le_of_lt_succ (decDigit_lt _ j))

theorem digitsVal_nineDigits {v : Nat} (h : v < 10 ^ 9) : digitsVal (nineDigits v) 0 8 = v := by
  rw [digitsVal_nine, digitSum_congr fun i hi => nib_nineDigits v hi, digitSum_decDigit h]

theorem digitsVal_signedDigits {v : Int} (h : v.natAbs < 10 ^ 8) : digitsVal (signedDigits v) 1 8 = v.natAbs := by
  rw [digitsVal_eight, digitSum_congr fun i hi => nib_signedDigits_succ v hi, digitSum_decDigit h]

theorem dsVal_signedDigits {v : Int} (h : v.natAbs < 10 ^ 8) : dsVal (signedDigits v) = v := by
  rw [dsVal, digitsVal_signedDigits h, nib_signedDigits_zero]
  by_cases hv : v < 0
  · rw [if_pos hv, if_pos rfl]; omega
  · rw [if_neg hv, if_neg (by decide)]; omega

/-- B2D, then D2B, in D9. -/
theorem d2b_b2d_nine {a r : Word} (h : b2d a false = some r) : d2b r false = some a := by
  rw [b2d_nine, Option.ite_none_right_eq_some] at h
  obtain ⟨hle, hr⟩ := h
  obtain rfl := Option.some.inj hr
  rw [d2b_nine, if_pos (digitsOk_nineDigits _), digitsVal_nineDigits (Nat.lt_succ_of_le hle), W, BitVec.ofNat_toNat, BitVec.setWidth_eq]

/-- B2D, then D2B, in DS; the sign nibble is the sign of the value. -/
theorem d2b_b2d_signed {a r : Word} (h : b2d a true = some r) :
    d2b r true = some a ∧ (0 ≤ a.toInt → nib r 0 = 0xC) ∧ (a.toInt < 0 → nib r 0 = 0xD) := by
  rw [b2d_signed, Option.ite_none_right_eq_some] at h
  obtain ⟨hle, hr⟩ := h
  obtain rfl := Option.some.inj hr
  have hsign := nib_signedDigits_zero a.toInt
  refine ⟨?_, fun h0 => ?_, fun h0 => ?_⟩
  · have hcd : nib (signedDigits a.toInt) 0 = 0xC ∨ nib (signedDigits a.toInt) 0 = 0xD := by rw [hsign]; split <;> simp
    rw [d2b_signed, if_pos ⟨digitsOk_signedDigits _, hcd⟩, dsVal_signedDigits (Nat.lt_succ_of_le hle), BitVec.ofInt_toInt]
  · rw [hsign, if_neg (Int.not_lt.2 h0)]
  · rw [hsign, if_pos h0]

/-! ### The instructions -/

/-- A and ST after a conversion that answers `r`. -/
def CoreSt.converted (x : CoreSt) (r : Option Word) : CoreSt :=
  match r with
  | none => { x with st := stSet x.st St.V true }
  | some r => { x with a := r, st := stSet (setNZ x.st r) St.V false }

theorem Chip.gives_convert {s : Chip} {c : Core} {i : Instr} {n : Nat} {f : Word → Bool → Option Word} (b : Bool) (hs : s.ready c)
    (hi : ∀ q, exec i ⟨q, s⟩ = run (fun ch => ch.convert c ⟨0, false, BitVec.ofNat 24 b.toNat⟩ n f) ⟨q, s⟩) :
    s.gives i (((s.fetch c).setCore c (((s.fetch c).core c).converted (f ((s.fetch c).core c).a b))).finish c n none) := by
  have hb : decide ((BitVec.ofNat 24 b.toNat).toNat = 1) = b := by cases b <;> rfl
  refine Chip.gives_instr hs hi (by cases b <;> rfl) ?_
  simp only [hb]
  cases f ((s.fetch c).core c).a b <;> rfl

/-- Settles O15: on digits the two conversions are each other's inverse, and each instruction is the one shape `convert`. -/
theorem conversions : Obligations.Conversions := by
  refine ⟨fun a => ⟨d2b_nine_eq_none, d2b_signed_eq_none, fun _ => toNat_d2b_nine, fun _ => toInt_d2b_signed, b2d_nine_eq_none,
    b2d_signed_eq_none, fun _ => d2b_b2d_nine, fun _ => d2b_b2d_signed⟩, ?_⟩
  rintro s f c x hs rfl rfl b o rfl
  exact ⟨Chip.gives_convert b hs fun _ => rfl, Chip.gives_convert b hs fun _ => rfl⟩

end Sys2Proof.Machine
end

section
/-!
PROOFS. The fraction instructions and FPR (R445, R446, R449, R479).
-/
namespace Sys2Proof.Machine

/-! ### Rounding and limiting -/

theorem clampInt_eq {lo hi : Int} (h : lo ≤ hi) (x : Int) : clampInt lo hi x = max lo (min hi x) := by
  unfold clampInt
  split
  · omega
  · split <;> omega

/-- What R446 says of the integer `x` that each mode rounds n / 2^k to. -/
def RoundsTo (rnd : Nat) (n : Int) (k : Nat) (x : Int) : Prop :=
  (rnd = 0 → x * 2 ^ k ≤ n ∧ n < (x + 1) * 2 ^ k)
  ∧ (rnd = 1 → 2 * x * 2 ^ k ≤ 2 * n + 2 ^ k ∧ 2 * n + 2 ^ k < 2 * (x + 1) * 2 ^ k)
  ∧ (rnd = 2 → (2 * (x * 2 ^ k - n) ≤ 2 ^ k ∧ 2 * (n - x * 2 ^ k) ≤ 2 ^ k)
      ∧ (2 * (x * 2 ^ k - n) = 2 ^ k ∨ 2 * (n - x * 2 ^ k) = 2 ^ k → x % 2 = 0))
  ∧ (rnd = 3 → x = n.tdiv (2 ^ k))

theorem two_pow_pos (k : Nat) : (0 : Int) < 2 ^ k := Int.pow_pos (by decide)

section
variable {d : Int} (hd : 0 < d) (n : Int)
include hd

theorem ediv_floor : n / d * d ≤ n ∧ n < (n / d + 1) * d :=
  ⟨Int.ediv_mul_le n (Int.ne_of_gt hd), Int.lt_ediv_add_one_mul_self n hd⟩

/-- Half up is the floor of n / d + 1/2. -/
theorem ediv_halfUp : 2 * ((2 * n + d) / (2 * d)) * d ≤ 2 * n + d ∧ 2 * n + d < 2 * ((2 * n + d) / (2 * d) + 1) * d := by
  have h := ediv_floor (show 0 < 2 * d by omega) (2 * n + d)
  rwa [← Int.mul_assoc, ← Int.mul_assoc, Int.mul_comm _ 2, Int.mul_comm _ 2] at h

end

/-- The nearest integer, an even one at a tie. -/
theorem roundDiv_two (n : Int) (k : Nat) :
    (2 * (roundDiv 2 n k * 2 ^ k - n) ≤ 2 ^ k ∧ 2 * (n - roundDiv 2 n k * 2 ^ k) ≤ 2 ^ k)
    ∧ (2 * (roundDiv 2 n k * 2 ^ k - n) = 2 ^ k ∨ 2 * (n - roundDiv 2 n k * 2 ^ k) = 2 ^ k → roundDiv 2 n k % 2 = 0) := by
  have hd := two_pow_pos k
  have hn : n / 2 ^ k * 2 ^ k = n - n % 2 ^ k := by rw [Int.emod_def, Int.mul_comm]; omega
  have h0 := Int.emod_nonneg n (Int.ne_of_gt hd)
  have hlt := Int.emod_lt_of_pos n hd
  have hup : (n / 2 ^ k + 1) * 2 ^ k = n - n % 2 ^ k + 2 ^ k := by rw [Int.add_mul, hn, Int.one_mul]
  simp only [roundDiv]
  generalize n / 2 ^ k = q at *
  generalize n % 2 ^ k = r at *
  generalize (2 : Int) ^ k = d at *
  by_cases hlow : 2 * r < d
  · rw [if_pos hlow, hn]; omega
  · rw [if_neg hlow]
    by_cases hhigh : d < 2 * r
    · rw [if_pos hhigh, hup]; omega
    · rw [if_neg hhigh]
      split
      · rw [hn]; omega
      · rw [hup]; omega

theorem roundsTo_roundDiv (rnd : Nat) (n : Int) (k : Nat) : RoundsTo rnd n k (roundDiv rnd n k) := by
  have hd := two_pow_pos k
  refine ⟨?floor, ?halfUp, ?halfEven, ?towardZero⟩
  case floor => rintro rfl; exact ediv_floor hd n
  case halfUp => rintro rfl; exact ediv_halfUp hd n
  case halfEven => rintro rfl; exact roundDiv_two n k
  case towardZero => rintro rfl; rfl

/-! ### The result of an exact value -/

/-- The rounded value. -/
def roundedFrac (n : Int) (k : Nat) (st : Word) : Int := roundDiv (stRnd st) n k

/-- The rounded value, held in the guard range. -/
def guardedFrac (n : Int) (k : Nat) (st : Word) : Int := clampInt (-2 ^ 35) (2 ^ 35 - 1) (roundedFrac n k st)

/-- The rounded value, held in the guard range, and with SAT in [-1, 1 - 2^-31]. -/
def limitedFrac (n : Int) (k : Nat) (st : Word) : Int :=
  if stBit st St.SAT then clampInt (-2 ^ 31) (2 ^ 31 - 1) (guardedFrac n k st) else guardedFrac n k st

/-- Whether the exact value lies outside [-1, 1 - 2^-31]. -/
def fracBeyond (n : Int) (k : Nat) : Bool := decide (n < -2 ^ 31 * 2 ^ k ∨ (2 ^ 31 - 1) * 2 ^ k < n)

/-- ST after a fraction instruction, but for S. -/
def fracFlags (n : Int) (k : Nat) (st : Word) : Word :=
  stSet (stSet (setNZ st (fracResult n k st).1) St.G (fracBeyond n k)) St.V (guardedFrac n k st != roundedFrac n k st)

theorem fracResult_fst (n : Int) (k : Nat) (st : Word) : (fracResult n k st).1 = BitVec.ofInt 36 (limitedFrac n k st) := rfl

theorem fracResult_snd (n : Int) (k : Nat) (st : Word) :
    (fracResult n k st).2 =
      if limitedFrac n k st ≠ roundedFrac n k st then stSet (fracFlags n k st) St.S true else fracFlags n k st :=
  (ite_not ..).symm

theorem clampInt_guard (x : Int) : clampInt (-2 ^ 35) (2 ^ 35 - 1) x = max (-2 ^ 35) (min (2 ^ 35 - 1) x) := clampInt_eq (by decide) x

theorem clampInt_unit (x : Int) : clampInt (-2 ^ 31) (2 ^ 31 - 1) x = max (-2 ^ 31) (min (2 ^ 31 - 1) x) := clampInt_eq (by decide) x

theorem limitedFrac_eq (n : Int) (k : Nat) (st : Word) :
    limitedFrac n k st
      = if st.getLsbD St.SAT then max (-2 ^ 31) (min (2 ^ 31 - 1) (guardedFrac n k st)) else guardedFrac n k st := by
  rw [limitedFrac, clampInt_unit, stBit]

theorem toInt_ofInt_of_guard {x : Int} (h : -2 ^ 35 ≤ x ∧ x ≤ 2 ^ 35 - 1) : (BitVec.ofInt 36 x).toInt = x := by
  rw [BitVec.toInt_ofInt]
  exact Int.bmod_eq_of_le (by omega) (by omega)

theorem toInt_fracResult (n : Int) (k : Nat) (st : Word) : (fracResult n k st).1.toInt = limitedFrac n k st := by
  rw [fracResult_fst]
  refine toInt_ofInt_of_guard ?_
  rw [limitedFrac_eq, guardedFrac, clampInt_guard]
  split <;> omega

/-- S is only ever set. -/
theorem getLsbD_sticky (w : Word) (p : Prop) [Decidable p] (j : Nat) :
    (if p then stSet w St.S true else w).getLsbD j = if j = St.S then w.getLsbD St.S || decide p else w.getLsbD j := by
  by_cases hp : p
  · rw [if_pos hp, getLsbD_stSet _ _ _ (by decide), decide_eq_true hp, Bool.or_true]
  · rw [if_neg hp, decide_eq_false hp, Bool.or_false]
    split
    · next h => rw [h]
    · rfl

theorem getLsbD_fracFlags (n : Int) (k : Nat) (st : Word) (j : Nat) :
    (fracFlags n k st).getLsbD j =
      if j = St.V then decide (guardedFrac n k st ≠ roundedFrac n k st)
      else if j = St.G then fracBeyond n k
      else if j = St.Z then decide ((fracResult n k st).1 = 0)
      else if j = St.N then (fracResult n k st).1.msb
      else st.getLsbD j := by
  rw [fracFlags, getLsbD_stSet _ _ _ (by decide), getLsbD_stSet _ _ _ (by decide), getLsbD_setNZ, bne, decide_not]
  rfl

/-- ST after a fraction instruction, bit by bit. -/
theorem getLsbD_fracResult (n : Int) (k : Nat) (st : Word) (j : Nat) :
    (fracResult n k st).2.getLsbD j =
      if j = St.S then st.getLsbD St.S || decide ((fracResult n k st).1.toInt ≠ roundedFrac n k st)
      else (fracFlags n k st).getLsbD j := by
  rw [fracResult_snd, getLsbD_sticky, toInt_fracResult, getLsbD_fracFlags _ _ _ St.S]
  rfl

theorem getLsbD_fracResult_other (n : Int) (k : Nat) (st : Word) {j : Nat} (hN : j ≠ St.N) (hZ : j ≠ St.Z) (hG : j ≠ St.G)
    (hV : j ≠ St.V) (hS : j ≠ St.S) : (fracResult n k st).2.getLsbD j = st.getLsbD j := by
  rw [getLsbD_fracResult, if_neg hS, getLsbD_fracFlags, if_neg hV, if_neg hG, if_neg hZ, if_neg hN]

theorem fshiftCount_eq (m : Word) : fshiftCount m = min (m.toNat % 64) 35 := rfl

/-! ### SATN -/

theorem toInt_satn (a st : Word) : (satn a st).1.toInt = max (-2 ^ 31) (min (2 ^ 31 - 1) a.toInt) := by
  rw [← clampInt_unit]
  refine toInt_ofInt_of_guard ?_
  rw [clampInt_unit]
  omega

theorem satn_changes_iff (a st : Word) : (satn a st).1 ≠ a ↔ a.toInt < -2 ^ 31 ∨ 2 ^ 31 - 1 < a.toInt := by
  rw [ne_eq, ← BitVec.toInt_inj, toInt_satn]
  omega

theorem getLsbD_satn (a st : Word) (j : Nat) :
    (satn a st).2.getLsbD j =
      if j = St.S then st.getLsbD St.S || decide ((satn a st).1 ≠ a)
      else if j = St.G then decide ((satn a st).1 ≠ a)
      else (setNZ st (satn a st).1).getLsbD j := by
  have e : (satn a st).2 = if (satn a st).1 ≠ a then stSet (stSet (setNZ st (satn a st).1) St.G (decide ((satn a st).1 ≠ a))) St.S true
      else stSet (setNZ st (satn a st).1) St.G (decide ((satn a st).1 ≠ a)) := by
    simp only [satn_changes_iff]
    simp only [satn, decide_eq_true_eq]
  rw [e, getLsbD_sticky, getLsbD_stSet _ _ _ (by decide), getLsbD_stSet _ _ _ (by decide), getLsbD_setNZ]
  rfl

/-! ### The instructions -/

theorem Chip.setCore_result (s : Chip) (c : Core) (x : CoreSt) (r : Word × Word) :
    (s.setCore c x).result c r = s.setCore c { x with a := r.1, st := r.2 } := by
  rw [Chip.result, Chip.core_setCore_self, Chip.setCore_setCore]

/-- FPR takes MHI and MLO as they stand in its own cycle. -/
theorem Chip.gives_fpr {s : Chip} {c : Core} {x : CoreSt} (hs : s.ready c) (hx : x = ((s.fetch c).core c).landDue) :
    s.gives (.fpr c ⟨0, false, 0⟩) ((((s.fetch c).setCore c x).result c
      (fracResult (signed 72 (x.mhi.toNat * 2 ^ 36 + x.mlo.toNat)) 31 x.st)).finish c 1 none) := by
  subst hx
  rw [Chip.setCore_result]
  exact Chip.gives_instr hs (fun _ => rfl) rfl rfl

/-- The result of an exact value n / 2^k, with each bit of ST (R445, R446). -/
theorem fracResult_spec (n : Int) (k : Nat) (st : Word) : ∃ x y : Int,
    RoundsTo (stRnd st) n k x
    ∧ y = max (-2 ^ 35) (min (2 ^ 35 - 1) x)
    ∧ (fracResult n k st).1.toInt = (if st.getLsbD St.SAT then max (-2 ^ 31) (min (2 ^ 31 - 1) y) else y)
    ∧ (fracResult n k st).2.getLsbD St.V = decide (y ≠ x)
    ∧ (fracResult n k st).2.getLsbD St.S = (st.getLsbD St.S || decide ((fracResult n k st).1.toInt ≠ x))
    ∧ (fracResult n k st).2.getLsbD St.G = decide (n < -2 ^ 31 * 2 ^ k ∨ (2 ^ 31 - 1) * 2 ^ k < n)
    ∧ (fracResult n k st).2.getLsbD St.N = (fracResult n k st).1.msb
    ∧ (fracResult n k st).2.getLsbD St.Z = decide ((fracResult n k st).1 = 0)
    ∧ ∀ i : Nat, i ≠ St.N → i ≠ St.Z → i ≠ St.G → i ≠ St.V → i ≠ St.S → (fracResult n k st).2.getLsbD i = st.getLsbD i := by
  have flag {j : Nat} (hj : j ≠ St.S) : (fracResult n k st).2.getLsbD j = (fracFlags n k st).getLsbD j := by
    rw [getLsbD_fracResult, if_neg hj]
  refine ⟨roundedFrac n k st, guardedFrac n k st, roundsTo_roundDiv _ n k, clampInt_guard _,
    (toInt_fracResult n k st).trans (limitedFrac_eq n k st), ?V, getLsbD_fracResult n k st St.S, ?G, ?N, ?Z,
    fun _ => getLsbD_fracResult_other n k st⟩
  case V => exact (flag (by decide)).trans (getLsbD_fracFlags n k st St.V)
  case G => exact (flag (by decide)).trans (getLsbD_fracFlags n k st St.G)
  case N => exact (flag (by decide)).trans (getLsbD_fracFlags n k st St.N)
  case Z => exact (flag (by decide)).trans (getLsbD_fracFlags n k st St.Z)

/-- Settles O13: every instruction is one of the three shapes with `fracResult` or `satn` in it, and each of these is known bit by bit. -/
theorem fractionInstructions : Obligations.FractionInstructions := by
  refine ⟨⟨?operandM, fun s c x => Chip.gives_fpr, ?operandA⟩, fracResult_spec⟩
  case operandM =>
    intro s t c o m hs hr
    refine ⟨fun ho => ⟨?fadd, ?fsub⟩, ?_⟩
    case fadd => exact Chip.gives_alu hs (fun a m st => fracResult (a.toInt + m.toInt) 0 st) (fun _ => rfl) hr ho
    case fsub => exact Chip.gives_alu hs (fun a m st => fracResult (a.toInt - m.toInt) 0 st) (fun _ => rfl) hr ho
    rintro k rfl ho
    rw [← fshiftCount_eq]
    exact ⟨Chip.gives_alu hs (fun a m st => fracResult (a.toInt * 2 ^ fshiftCount m) 0 st) (fun _ => rfl) hr ho,
      Chip.gives_alu hs (fun a m st => fracResult a.toInt (fshiftCount m) st) (fun _ => rfl) hr ho⟩
  case operandA =>
    intro s c hs
    refine ⟨?fneg, ?fabs, satn _ _, ?satn, toInt_satn _ _, getLsbD_satn _ _ St.S, getLsbD_satn _ _ St.G, ?satnV⟩
    case fneg => exact Chip.gives_unary hs (fun a st => fracResult (-a.toInt) 0 st) fun _ => rfl
    case fabs => exact Chip.gives_unary hs (fun a st => fracResult a.toInt.natAbs 0 st) fun _ => rfl
    case satn => exact Chip.gives_unary hs satn fun _ => rfl
    case satnV => exact (getLsbD_satn _ _ St.V).trans (getLsbD_setNZ _ _ St.V)

end Sys2Proof.Machine
end

section
/-!
PROOFS. Decimal addition and subtraction (R447): the nibble carries of a binary sum, digit by digit, and what the
adjustment by 6 makes of them.
-/
namespace Sys2Proof.Machine

/-! ### The carries of a sum in base 16 -/

/-- The carry that enters nibble `i` of the sum of three words. -/
def hexCarry (x y z : Word) (i : Nat) : Nat := (x.toNat % 16 ^ i + y.toNat % 16 ^ i + z.toNat % 16 ^ i) / 16 ^ i

theorem pow16_pos (i : Nat) : 0 < 16 ^ i := Nat.pow_pos (by decide)

theorem hexCarry_zero (x y z : Word) : hexCarry x y z 0 = 0 := by simp [hexCarry, Nat.mod_one]

/-- A nibble is the high one of the low `i + 1`. -/
theorem nib_eq_low (w : Word) (i : Nat) : nib w i = w.toNat % 16 ^ (i + 1) / 16 ^ i := by
  rw [nib_eq, Nat.pow_succ, Nat.mod_mul_right_div_self]

/-- The low `i` nibbles of the sum are those of the sum of the low `i` nibbles. -/
theorem toNat_add_add_mod (x y z : Word) {i : Nat} (hi : i ≤ 9) :
    (x + y + z).toNat % 16 ^ i = (x.toNat % 16 ^ i + y.toNat % 16 ^ i + z.toNat % 16 ^ i) % 16 ^ i := by
  have hd : 16 ^ i ∣ 2 ^ 36 := Nat.pow_dvd_pow 16 hi
  rw [BitVec.toNat_add, BitVec.toNat_add, Nat.mod_mod_of_dvd _ hd, Nat.add_mod, Nat.mod_mod_of_dvd _ hd, Nat.add_mod x.toNat,
    ← Nat.add_mod, Nat.add_mod_mod]

/-- One column of a sum: the three nibbles and the carry that enters come to the nibble of the sum and the next carry. -/
theorem hexCarry_column (x y z : Word) {i : Nat} (hi : i < 9) :
    nib (x + y + z) i + 16 * hexCarry x y z (i + 1) = nib x i + nib y i + nib z i + hexCarry x y z i := by
  have low : x.toNat % 16 ^ (i + 1) + y.toNat % 16 ^ (i + 1) + z.toNat % 16 ^ (i + 1)
      = x.toNat % 16 ^ i + y.toNat % 16 ^ i + z.toNat % 16 ^ i + 16 ^ i * (nib x i + nib y i + nib z i) := by
    simp only [Nat.mod_pow_succ, nib_eq, Nat.mul_add]
    omega
  have column : (x.toNat % 16 ^ (i + 1) + y.toNat % 16 ^ (i + 1) + z.toNat % 16 ^ (i + 1)) / 16 ^ i
      = hexCarry x y z i + (nib x i + nib y i + nib z i) := by
    rw [low, Nat.add_mul_div_left _ _ (pow16_pos i), hexCarry]
  have carry : hexCarry x y z (i + 1) = (hexCarry x y z i + (nib x i + nib y i + nib z i)) / 16 := by
    rw [hexCarry, Nat.pow_succ, ← Nat.div_div_eq_div_mul, ← Nat.pow_succ, column]
  have digit : nib (x + y + z) i = (hexCarry x y z i + (nib x i + nib y i + nib z i)) % 16 := by
    rw [nib_eq_low, toNat_add_add_mod x y z hi, Nat.pow_succ, Nat.mod_mul_right_div_self, ← Nat.pow_succ, column]
  rw [carry, digit]
  omega

/-- Where no column comes to more than 30, every carry is 0 or 1. -/
theorem hexCarry_le_one {x y z : Word} (h : ∀ i, i < 9 → nib x i + nib y i + nib z i ≤ 30) {i : Nat} (hi : i ≤ 9) :
    hexCarry x y z i ≤ 1 := by
  induction i with
  | zero => rw [hexCarry_zero]; exact Nat.zero_le 1
  | succ i ih =>
    have column := hexCarry_column x y z hi
    have hsum := h i hi
    have hin := ih (Nat.le_of_lt hi)
    omega

/-! ### ADDD and SUBD, bit by bit -/

/-- What ADDD adds: a 6 in each nibble. -/
abbrev sixes : Nat := 0x666666666

theorem nib_sixes {i : Nat} (hi : i < 9) : nib (W sixes) i = 6 :=
  (by decide : ∀ j, j < 9 → nib (W sixes) j = 6) i hi

theorem nib_zero (i : Nat) : nib 0 i = 0 := by simp [nib]

/-- ADDD's carry out of nibble `i`. -/
def adddCarry (a m : Word) (i : Nat) : Bool :=
  decide (16 ^ (i + 1) ≤ a.toNat % 16 ^ (i + 1) + m.toNat % 16 ^ (i + 1) + sixes % 16 ^ (i + 1))

/-- SUBD's borrow out of nibble `i`. -/
def subdBorrow (a m : Word) (i : Nat) : Bool := decide (a.toNat % 16 ^ (i + 1) < m.toNat % 16 ^ (i + 1))

/-- Whether an operand holds a nibble above 9. -/
def decInvalid (a m : Word) : Bool := !(digitsOk a 0 8 && digitsOk m 0 8)

/-- ST after ADDD or SUBD of result `r`, where `p` is the carry or borrow out of each nibble. -/
def decFlags (st r : Word) (p : Nat → Bool) (bad : Bool) : Word :=
  stPutNc (stSet (stSet (stSet (setNZ st r) St.C (p 8)) St.D (p 8)) St.V bad) (ncOf p)

theorem addd_st (a m st : Word) :
    (addd a m st).2.1 = decFlags st (a + m + W sixes) (adddCarry a m) (decInvalid a m) := rfl

theorem subd_st (a m st : Word) : (subd a m st).2.1 = decFlags st (a - m) (subdBorrow a m) (decInvalid a m) := rfl

section
variable (st r : Word) (p : Nat → Bool) (bad : Bool)

theorem stNc_decFlags {i : Nat} (hi : i < 9) : (stNc (decFlags st r p bad)).testBit i = p i :=
  testBit_stNc_stPutNc _ p hi

theorem decFlags_C : (decFlags st r p bad).getLsbD St.C = p 8 := by
  rw [decFlags, getLsbD_stPutNc, getLsbD_stSet _ _ _ (by decide), getLsbD_stSet _ _ _ (by decide), getLsbD_stSet _ _ _ (by decide)]
  rfl

theorem decFlags_D : (decFlags st r p bad).getLsbD St.D = p 8 := by
  rw [decFlags, getLsbD_stPutNc, getLsbD_stSet _ _ _ (by decide), getLsbD_stSet _ _ _ (by decide)]
  rfl

theorem decFlags_V : (decFlags st r p bad).getLsbD St.V = bad := by
  rw [decFlags, getLsbD_stPutNc, getLsbD_stSet _ _ _ (by decide)]
  rfl

/-- C and D are the carry or borrow out of nibble 8, as NC holds it. -/
theorem decFlags_C_eq_nc : (decFlags st r p bad).getLsbD St.C = (stNc (decFlags st r p bad)).testBit 8 := by
  rw [decFlags_C, stNc_decFlags st r p bad (by decide)]

theorem decFlags_D_eq_nc : (decFlags st r p bad).getLsbD St.D = (stNc (decFlags st r p bad)).testBit 8 := by
  rw [decFlags_D, stNc_decFlags st r p bad (by decide)]

end

theorem decInvalid_eq (a m : Word) : decInvalid a m = decide (∃ i : Fin 9, 9 < nib a i.val ∨ 9 < nib m i.val) := by
  rw [decInvalid, Bool.not_and, Bool.eq_iff_iff]
  simp only [Bool.or_eq_true, Bool.not_eq_true', digitsOk_false_iff, decide_eq_true_eq, exists_or, Fin.exists_iff, exists_prop,
    Nat.zero_le, true_and, Nat.lt_succ_iff]

/-! ### DAD and DAS -/

/-- DAD and DAS take 6 from the nibbles that NC names. -/
theorem nib_decAdjust (a st : Word) (want : Bool) {i : Nat} (hi : i < 9) :
    nib (decAdjust want a st) i = if (stNc st).testBit i = want then (nib a i + 10) % 16 else nib a i := by
  rw [decAdjust, nib_ofNibs _ hi, bitOf]
  split
  · rfl
  · exact Nat.mod_eq_of_lt (nib_lt a i)

/-! ### Valid operands -/

section
variable {a m : Word} (ha : digitsOk a 0 8 = true) (hm : digitsOk m 0 8 = true)
include ha hm

theorem nib_le_nine {i : Nat} (hi : i < 9) : nib a i ≤ 9 ∧ nib m i ≤ 9 :=
  ⟨digitsOk_iff.1 ha i i.zero_le (Nat.le_of_lt_succ hi), digitsOk_iff.1 hm i i.zero_le (Nat.le_of_lt_succ hi)⟩

end

/-- Where the columns of nine digits add up with carries, so do the values. -/
theorem digitsVal_carry {o x y : Word} {c : Nat → Nat} (h0 : c 0 = 0)
    (h : ∀ i, i < 9 → nib o i + 10 * c (i + 1) = nib x i + nib y i + c i) :
    digitsVal o 0 8 + 10 ^ 9 * c 9 = digitsVal x 0 8 + digitsVal y 0 8 := by
  simp only [digitsVal_nine, digitSum_carry h0 h]

/-! ### The sum -/

/-- The carry that enters nibble `i` of ADDD. -/
def adddIn (a m : Word) (i : Nat) : Nat := hexCarry a m (W sixes) i

theorem adddIn_zero (a m : Word) : adddIn a m 0 = 0 := hexCarry_zero a m _

theorem addd_column (a m st : Word) {i : Nat} (hi : i < 9) :
    nib (addd a m st).1 i + 16 * adddIn a m (i + 1) = nib a i + nib m i + 6 + adddIn a m i := by
  have column := hexCarry_column a m (W sixes) hi
  rwa [nib_sixes hi] at column

theorem adddCarry_iff (a m : Word) (i : Nat) : adddCarry a m i = true ↔ 1 ≤ adddIn a m (i + 1) := by
  rw [adddCarry, decide_eq_true_iff, adddIn, hexCarry, Nat.le_div_iff_mul_le (pow16_pos (i + 1)), Nat.one_mul]
  rfl

section
variable {a m : Word} (ha : digitsOk a 0 8 = true) (hm : digitsOk m 0 8 = true)
include ha hm

theorem adddIn_le_one {i : Nat} (hi : i ≤ 9) : adddIn a m i ≤ 1 := by
  refine hexCarry_le_one (fun j hj => ?_) hi
  have hle := nib_le_nine ha hm hj
  rw [nib_sixes hj]
  omega

/-- One decimal column of ADDD and DAD. -/
theorem dad_column (st : Word) {i : Nat} (hi : i < 9) :
    nib (decAdjust false (addd a m st).1 (addd a m st).2.1) i + 10 * adddIn a m (i + 1) = nib a i + nib m i + adddIn a m i
    ∧ nib (decAdjust false (addd a m st).1 (addd a m st).2.1) i ≤ 9 := by
  have column := addd_column a m st hi
  have hle := nib_le_nine ha hm hi
  have hin := adddIn_le_one ha hm (Nat.le_of_lt hi)
  have hout := adddIn_le_one ha hm (Nat.succ_le_of_lt hi)
  have h16 := nib_lt (addd a m st).1 i
  rw [nib_decAdjust _ _ _ hi, addd_st, stNc_decFlags _ _ _ _ hi]
  simp only [← Bool.not_eq_true, adddCarry_iff]
  split <;> omega

end

/-! ### The difference -/

/-- The borrow that enters nibble `i` of SUBD: the carry of the difference and M, which add up to A. -/
def subdIn (a m : Word) (i : Nat) : Nat := hexCarry (a - m) m 0 i

theorem subdIn_zero (a m : Word) : subdIn a m 0 = 0 := hexCarry_zero _ m 0

theorem sub_add_add_zero (a m : Word) : a - m + m + 0 = a := by
  rw [BitVec.sub_add_cancel]
  exact BitVec.add_zero a

theorem subd_column (a m st : Word) {i : Nat} (hi : i < 9) :
    nib a i + 16 * subdIn a m (i + 1) = nib (subd a m st).1 i + nib m i + subdIn a m i := by
  have column := hexCarry_column (a - m) m 0 hi
  rwa [sub_add_add_zero, nib_zero, Nat.add_zero] at column

theorem subdIn_le_one (a m : Word) {i : Nat} (hi : i ≤ 9) : subdIn a m i ≤ 1 := by
  refine hexCarry_le_one (fun j _ => ?_) hi
  have hr := nib_lt (a - m) j
  have hm := nib_lt m j
  rw [nib_zero]
  omega

theorem subdBorrow_iff (a m : Word) {i : Nat} (hi : i < 9) : subdBorrow a m i = true ↔ 1 ≤ subdIn a m (i + 1) := by
  have e := toNat_add_add_mod (a - m) m 0 (Nat.succ_le_of_lt hi)
  have hp := pow16_pos (i + 1)
  have hr := Nat.mod_lt (a - m).toNat hp
  have hm := Nat.mod_lt m.toNat hp
  have h0 : (0 : Word).toNat % 16 ^ (i + 1) = 0 := Nat.zero_mod _
  rw [sub_add_add_zero, h0, Nat.add_zero] at e
  rw [subdBorrow, decide_eq_true_iff, e, subdIn, hexCarry, h0, Nat.add_zero, Nat.le_div_iff_mul_le hp, Nat.one_mul]
  generalize 16 ^ (i + 1) = p at *
  generalize (a - m).toNat % p = x at *
  generalize m.toNat % p = y at *
  by_cases h : p ≤ x + y
  · rw [Nat.mod_eq_sub_mod h, Nat.mod_eq_of_lt (by omega)]
    omega
  · rw [Nat.mod_eq_of_lt (by omega)]
    omega

section
variable {a m : Word} (ha : digitsOk a 0 8 = true) (hm : digitsOk m 0 8 = true)
include ha hm

/-- One decimal column of SUBD and DAS, read as the sum of their result and M. -/
theorem das_column (st : Word) {i : Nat} (hi : i < 9) :
    nib a i + 10 * subdIn a m (i + 1) = nib (decAdjust true (subd a m st).1 (subd a m st).2.1) i + nib m i + subdIn a m i
    ∧ nib (decAdjust true (subd a m st).1 (subd a m st).2.1) i ≤ 9 := by
  have column := subd_column a m st hi
  have hle := nib_le_nine ha hm hi
  have hin := subdIn_le_one a m (Nat.le_of_lt hi)
  have hout := subdIn_le_one a m (Nat.succ_le_of_lt hi)
  have h16 := nib_lt (subd a m st).1 i
  rw [nib_decAdjust _ _ _ hi, subd_st, stNc_decFlags _ _ _ _ hi]
  simp only [subdBorrow_iff a m hi]
  split <;> omega

/-- ADDD, then DAD: nine valid digits, the sum of the operands, and the decimal carry in D. -/
theorem addd_dad (st : Word) :
    digitsOk (decAdjust false (addd a m st).1 (addd a m st).2.1) 0 8 = true
    ∧ digitsVal (decAdjust false (addd a m st).1 (addd a m st).2.1) 0 8 = (digitsVal a 0 8 + digitsVal m 0 8) % 10 ^ 9
    ∧ (addd a m st).2.1.getLsbD St.D = decide (10 ^ 9 ≤ digitsVal a 0 8 + digitsVal m 0 8) := by
  have hok : digitsOk (decAdjust false (addd a m st).1 (addd a m st).2.1) 0 8 = true :=
    digitsOk_iff.2 fun i _ hi => (dad_column ha hm st (Nat.lt_succ_of_le hi)).2
  have hval := digitsVal_carry (adddIn_zero a m) fun i hi => (dad_column ha hm st hi).1
  have hlt := digitsVal_nine_lt hok
  have hcarry : adddCarry a m 8 = true ↔ 1 ≤ adddIn a m 9 := adddCarry_iff a m 8
  refine ⟨hok, ?_, ?_⟩
  · rw [← hval, Nat.add_mul_mod_self_left, Nat.mod_eq_of_lt hlt]
  · rw [addd_st, decFlags_D, Bool.eq_iff_iff, hcarry, decide_eq_true_iff, ← hval]
    omega

/-- SUBD, then DAS: nine valid digits, the difference of the operands modulo 10^9, and the decimal borrow in D. -/
theorem subd_das (st : Word) :
    digitsOk (decAdjust true (subd a m st).1 (subd a m st).2.1) 0 8 = true
    ∧ digitsVal (decAdjust true (subd a m st).1 (subd a m st).2.1) 0 8 = (digitsVal a 0 8 + 10 ^ 9 - digitsVal m 0 8) % 10 ^ 9
    ∧ (subd a m st).2.1.getLsbD St.D = decide (digitsVal a 0 8 < digitsVal m 0 8) := by
  have hok : digitsOk (decAdjust true (subd a m st).1 (subd a m st).2.1) 0 8 = true :=
    digitsOk_iff.2 fun i _ hi => (das_column ha hm st (Nat.lt_succ_of_le hi)).2
  have hval := digitsVal_carry (subdIn_zero a m) fun i hi => (das_column ha hm st hi).1
  have hlt := digitsVal_nine_lt hok
  have hla := digitsVal_nine_lt ha
  have hle : subdIn a m 9 ≤ 1 := subdIn_le_one a m (Nat.le_refl 9)
  have hborrow : subdBorrow a m 8 = true ↔ 1 ≤ subdIn a m 9 := subdBorrow_iff a m (by decide)
  refine ⟨hok, ?_, ?_⟩
  · omega
  · rw [subd_st, decFlags_D, Bool.eq_iff_iff, hborrow, decide_eq_true_iff]
    omega

end

/-! ### The instructions -/

/-- A and ST after an adjustment that answers `r`, and no invalid operand that waits for one. -/
def CoreSt.adjusted (x : CoreSt) (r : Word) : CoreSt :=
  { x with a := r, st := setZclrN x.st r, badDec := false :: x.badDec.drop 1 }

section
variable {s t : Chip} {c : Core} {o : Opnd} {m : Word} {i : Instr} (hs : s.ready c)
include hs

/-- A and ST after ADDD or SUBD, and whether the adjustment that follows is to be free. -/
theorem Chip.gives_decFirst (f : Word → Word → Word → Word × Word × Bool)
    (hi : ∀ q, exec i ⟨q, s⟩ = run (fun ch => ch.decFirst c o f) ⟨q, s⟩) (hr : (s.fetch c).readM c o = .ok m t)
    (ho : o.inModes [0, 1, 2, 3, 4, 5] = true) :
    s.gives i ((((t.result c ((f (t.core c).a m (t.core c).st).1, (f (t.core c).a m (t.core c).st).2.1)).setCore c
        { (t.result c ((f (t.core c).a m (t.core c).st).1, (f (t.core c).a m (t.core c).st).2.1)).core c with
          badDec := (f (t.core c).a m (t.core c).st).2.2 :: (t.core c).badDec.drop 1 }).postInc c o).finish c 1 none) := by
  refine Chip.gives_instr hs hi ho ?_
  rw [hr, Chip.result, Chip.core_setCore_self, Chip.setCore_setCore]
  rfl

/-- DAD and DAS, after an operand that was invalid or not: after an invalid one the digit pattern is free. -/
theorem Chip.gives_decSecond (want bad : Bool)
    (hi : ∀ q, exec i ⟨q, s⟩ = run (fun ch => ch.decSecond c ⟨0, false, 0⟩ want) ⟨q, s⟩)
    (hb : ((s.fetch c).core c).badDec.headD false = bad) :
    s.gives i (((if bad then (s.fetch c).draw else s.fetch c).setCore c (((s.fetch c).core c).adjusted
      (if bad then Config.freeWord (s.fetch c).free
        else decAdjust want ((s.fetch c).core c).a ((s.fetch c).core c).st))).finish c 1 none) := by
  subst hb
  exact Chip.gives_instr hs hi rfl rfl

end

/-- Settles O14: the digits go column by column, where the adjustment turns each carry in base 16 into one in base 10. -/
theorem decimalArithmetic : Obligations.DecimalArithmetic := by
  refine ⟨⟨?flags, fun a st w i => nib_decAdjust a st w, ?valid⟩, getLsbD_setZclrN, ?first, ?second⟩
  case flags =>
    intro a m st
    rw [addd_st, subd_st]
    refine ⟨rfl, fun i hi => stNc_decFlags _ _ _ _ hi, decFlags_C_eq_nc _ _ _ _, decFlags_D_eq_nc _ _ _ _, ?_,
      rfl, fun i hi => stNc_decFlags _ _ _ _ hi, decFlags_C_eq_nc _ _ _ _, decFlags_D_eq_nc _ _ _ _, ?_⟩
    · rw [decFlags_V, decInvalid_eq]
    · rw [decFlags_V, decInvalid_eq]
  case valid =>
    intro a m st ha hm
    obtain ⟨hok, hval, hD⟩ := addd_dad ha hm st
    exact ⟨hok, hval, hD, subd_das ha hm st⟩
  case first =>
    intro s t c o m hs hr ho
    exact ⟨Chip.gives_decFirst hs addd (fun _ => rfl) hr ho, Chip.gives_decFirst hs subd (fun _ => rfl) hr ho⟩
  case second =>
    rintro s f c x hs rfl rfl
    refine ⟨fun hb => ⟨Chip.gives_decSecond hs false false (fun _ => rfl) hb, Chip.gives_decSecond hs true false (fun _ => rfl) hb⟩,
      fun hb i hi => ?_⟩
    obtain rfl | rfl := hi
    · exact Chip.gives_decSecond hs false true (fun _ => rfl) hb
    · exact Chip.gives_decSecond hs true true (fun _ => rfl) hb

end Sys2Proof.Machine
end

section
/-!
PROOFS. The rest rules (R101, R103, R106): a command's end restores them, and so does a period of the running chip, but a period in
harvest mode, in which nothing runs but the harvest path, leaves the chip as it was.
-/
namespace Sys2Proof.Machine

/-- A chip in harvest mode whose Fox A waits, in RUN, with PMU_STAT.LAST at 0 and nothing else at work. -/
def harvestWaiting : Chip := { nfc := { harvest := true }, cores := { foxA := { run := .wait } } }

/-- In harvest mode a period takes the cycle's stamps and counts the time on, and does nothing else. -/
theorem Chip.tick_chip_of_harvest {s : Chip} (h : s.lastStamps.nfc.harvest = true) :
    s.tick.2 = { s.lastStamps with now := s.lastStamps.now + 1, free := s.lastStamps.free + 3 } := by
  rw [Chip.tick]
  exact congrArg Prod.snd (if_pos h)

/-- Refutes O4: a period in harvest mode settles nothing, so a chip in RUN whose only released core waits keeps PMU_STAT.LAST at 0.
The statement asks nothing of the state before the step; `harvestWaiting` is one that breaks the rule and stays as it is. -/
theorem not_stepKeepsTheRestRules : ¬ Obligations.StepKeepsTheRestRules := by
  intro h
  obtain ⟨-, doze⟩ := h { pending := [], chip := harvestWaiting } _ (step_nil harvestWaiting)
  have hs : harvestWaiting.tick.2 = _ := Chip.tick_chip_of_harvest rfl
  rw [hs] at doze
  exact doze rfl rfl ⟨.foxA, by decide⟩ rfl

end Sys2Proof.Machine
end

section
/-!
PROOFS. The encoding of the J36 instructions (R469, R471): the fields of a word, and the opcode of an instruction.
-/
namespace Sys2Proof.Machine

/-! ### The fields of a word -/

theorem j36Word_op (op : BitVec 8) (o : Opnd) : (j36Word op o).extractLsb' 28 8 = op := BitVec.extractLsb'_append_eq_left

theorem j36Word_mode (op : BitVec 8) (o : Opnd) : (j36Word op o).extractLsb' 25 3 = o.mode := by
  rw [j36Word, BitVec.extractLsb'_append_eq_of_add_le (by decide), BitVec.extractLsb'_append_eq_of_le (by decide)]
  exact BitVec.extractLsb'_eq_self

theorem j36Word_ixs (op : BitVec 8) (o : Opnd) : (j36Word op o).getLsbD 24 = o.ixs := by
  rw [j36Word, BitVec.getLsbD_append, BitVec.getLsbD_append, BitVec.getLsbD_append]
  exact BitVec.getLsbD_ofBool o.ixs 0

theorem j36Word_opd (op : BitVec 8) (o : Opnd) : (j36Word op o).extractLsb' 0 24 = o.opd := by
  rw [j36Word, BitVec.extractLsb'_append_eq_of_add_le (by decide), BitVec.extractLsb'_append_eq_of_add_le (by decide)]
  exact BitVec.extractLsb'_append_eq_right

theorem j36Opnd_j36Word (op : BitVec 8) (o : Opnd) : j36Opnd (j36Word op o) = o := by
  rw [j36Opnd, j36Word_mode, j36Word_ixs, j36Word_opd]

/-- A word is the word of its fields: no bit is dropped. -/
theorem j36Word_fields (w : Word) : j36Word (w.extractLsb' 28 8) (j36Opnd w) = w := by
  have ixs : BitVec.ofBool (w.getLsbD 24) = w.extractLsb' 24 1 := by
    ext i hi
    obtain rfl : i = 0 := Nat.lt_one_iff.1 hi
    simp
  have low : w.extractLsb' 24 1 ++ w.extractLsb' 0 24 = w.extractLsb' 0 25 := BitVec.extractLsb'_append_extractLsb'_eq_extractLsb' rfl
  have mid : w.extractLsb' 25 3 ++ w.extractLsb' 0 25 = w.extractLsb' 0 28 := BitVec.extractLsb'_append_extractLsb'_eq_extractLsb' rfl
  have all : w.extractLsb' 28 8 ++ w.extractLsb' 0 28 = w.extractLsb' 0 36 := BitVec.extractLsb'_append_extractLsb'_eq_extractLsb' rfl
  rw [j36Word, j36Opnd, ixs, low, mid, all]
  exact BitVec.extractLsb'_eq_self

/-! ### Opcodes -/

/-- The sixteen opcodes of the branches, one for each condition (R485). -/
theorem j36Of_branch {op : BitVec 8} {c : Core} {o : Opnd} (h : op.toNat / 16 = 8) :
    j36Of op c o = some (.jcc c (op.setWidth 4) o) := by
  unfold j36Of
  split
  case h_62 => exact if_pos h
  all_goals omega

/-- Each opcode of an instruction means that instruction. -/
theorem j36Of_of_parts {i : Instr} {op : BitVec 8} {c : Core} {o : Opnd} (h : j36Parts i = some (op, c, o)) :
    j36Of op c o = some i := by
  cases i
  case jcc c' cc o' =>
    cases h
    have fields : ∀ b : BitVec 4, (0x80#8 ||| b.setWidth 8).toNat / 16 = 8 ∧ (0x80#8 ||| b.setWidth 8).setWidth 4 = b := by decide
    rw [j36Of_branch (fields cc).1, (fields cc).2]
  all_goals cases h <;> rfl

theorem j36Parts_of_j36Of {op : BitVec 8} {c : Core} {o : Opnd} {i : Instr} (h : j36Of op c o = some i) :
    j36Parts i = some (op, c, o) := by
  have branch : ∀ b : BitVec 8, b.toNat / 16 = 8 → 0x80#8 ||| (b.setWidth 4).setWidth 8 = b := by decide
  have number : op = BitVec.ofNat 8 op.toNat := (BitVec.ofNat_toNat 8 op).symm
  unfold j36Of at h
  split at h
  case h_62 =>
    split at h
    case isTrue hb => cases h; rw [j36Parts, branch op hb]
    case isFalse => cases h
  all_goals
    rename_i hop
    cases h
    rw [number, hop]
    rfl

/-- Settles O8: the fields of a word and the opcode of an instruction give each other. -/
theorem decodeAndEncodeAgree : Obligations.DecodeAndEncodeAgree := by
  have decode_word : ∀ (i : Instr) (op : BitVec 8) (c : Core) (o : Opnd), j36Parts i = some (op, c, o) →
      decodeJ36 c (j36Word op o) = some i := by
    intro i op c o h
    rw [decodeJ36, j36Word_op, j36Opnd_j36Word, j36Of_of_parts h]
  refine ⟨decode_word, ?back, ?some⟩
  case back =>
    intro c w i h
    rw [encodeJ36, j36Parts_of_j36Of h, Option.map_some, j36Word_fields]
  case some =>
    intro i w h
    obtain ⟨⟨op, c, o⟩, hp, rfl⟩ := Option.map_eq_some_iff.1 h
    exact ⟨c, decode_word i op c o hp⟩

end Sys2Proof.Machine
end

section
/-!
PROOFS. Every command answers a next state, so no run stops.
-/
namespace Sys2Proof.Machine

/-- A command has an effect on the chip, whatever waits behind it. -/
theorem exec_after (i : Instr) (s : State) : ∃ d : Chip, exec i s = s.after d := by
  cases i <;> exact ⟨_, rfl⟩

/-- A step answers a next state: that of the command at the front, or that of a period. -/
theorem step_next (s : State) : ∃ t : State, step s = .next t := by
  obtain ⟨_ | ⟨i, rest⟩, c⟩ := s
  case nil => exact ⟨_, step_nil c⟩
  case cons =>
    obtain ⟨d, hd⟩ := exec_after i ⟨rest, c⟩
    exact ⟨_, (step_cons i rest c).trans hd⟩

theorem run_succ_of_step {s t : State} (n : Nat) (h : step s = .next t) :
    Host.Core.run Sys2Proof.core (n + 1) s = Host.Core.run Sys2Proof.core n t := by
  have hcore : Sys2Proof.core.step s = .next t := h
  simp only [Host.Core.run, hcore]

theorem runsFor_all (n : Nat) (s : State) : s.runsFor n := by
  induction n generalizing s with
  | zero => exact ⟨s, rfl⟩
  | succ n ih =>
    obtain ⟨t, ht⟩ := step_next s
    obtain ⟨u, hu⟩ := ih t
    exact ⟨u, (run_succ_of_step n ht).trans hu⟩

/-- Settles O2: a command's effect, and the induction over the length of a run. -/
theorem commandsLeaveTheQueue : Obligations.CommandsLeaveTheQueue := ⟨exec_after, runsFor_all⟩

end Sys2Proof.Machine
end

section
/-!
PROOFS. What a command's end leaves alone (R8): registers, pins, Badger and what waits for the event router may change; the stores,
time and the Fox cores do not.
-/
namespace Sys2Proof.Machine

/-- Flash, OTP, the mirror, SRAM, time and the Fox cores are in `t` as in `s`. -/
structure Chip.SameStores (s t : Chip) : Prop where
  flash : t.flash = s.flash
  otp : t.otp = s.otp
  mirror : t.mirror = s.mirror
  sram : t.sram = s.sram
  now : t.now = s.now
  foxA : t.cores.foxA = s.cores.foxA
  foxB : t.cores.foxB = s.cores.foxB

namespace Chip.SameStores

theorem refl (s : Chip) : s.SameStores s := ⟨rfl, rfl, rfl, rfl, rfl, rfl, rfl⟩

theorem trans {s t u : Chip} (h : s.SameStores t) (k : t.SameStores u) : s.SameStores u :=
  ⟨k.flash.trans h.flash, k.otp.trans h.otp, k.mirror.trans h.mirror, k.sram.trans h.sram, k.now.trans h.now,
    k.foxA.trans h.foxA, k.foxB.trans h.foxB⟩

theorem foldl {α : Type} {f : Chip → α → Chip} (hf : ∀ (s : Chip) x, s.SameStores (f s x)) (l : List α) (s : Chip) : s.SameStores (l.foldl f s) := by
  induction l generalizing s with
  | nil => exact refl s
  | cons x l ih => exact (hf s x).trans (ih (f s x))

theorem setReg (s : Chip) (a : Nat) (v : Word) : s.SameStores (s.setReg a v) := ⟨rfl, rfl, rfl, rfl, rfl, rfl, rfl⟩

theorem setFld (s : Chip) (f : Fld) (v : Nat) : s.SameStores (s.setFld f v) := setReg s f.addr _

theorem enterPhase (s : Chip) (p : Phase) : s.SameStores (s.enterPhase p) := ⟨rfl, rfl, rfl, rfl, rfl, rfl, rfl⟩

/-! ### Occurrences and pulses -/

theorem pulse (s : Chip) (c : Nat) : s.SameStores (s.pulse c) := by
  have flag : ∀ t : Chip, t.SameStores (t.setEvrFlag c) := by
    intro t
    unfold Chip.setEvrFlag
    split <;> exact setFld ..
  have stamp : ∀ t : Chip, t.SameStores (if t.bit (F.EVR_CH_STQ c) then
      { t with evr := { t.evr with recs := t.evr.recs ++ [(t.fld (F.EVR_CH_PUB c), c)] } } else t) := by
    intro t
    split
    · exact ⟨rfl, rfl, rfl, rfl, rfl, rfl, rfl⟩
    · exact refl t
  have rest : ∀ t : Chip, t.SameStores { t.deliver c with out := { (t.deliver c).out with chans := (t.deliver c).out.chans ++ [c] } } :=
    fun t => ⟨rfl, rfl, rfl, rfl, rfl, rfl, rfl⟩
  unfold Chip.pulse
  split
  · exact refl s
  · exact (flag s).trans ((stamp _).trans (rest _))

theorem publish (s : Chip) (p : Nat) : s.SameStores (s.publish p) := by
  unfold Chip.publish
  split
  · exact foldl pulse _ s
  · split
    · exact setFld ..
    · exact ⟨rfl, rfl, rfl, rfl, rfl, rfl, rfl⟩

theorem occSeen (s : Chip) (n : Nat) : s.SameStores (s.occSeen n) := by
  unfold Chip.occSeen
  split
  · exact ⟨rfl, rfl, rfl, rfl, rfl, rfl, rfl⟩
  · split
    · exact ⟨rfl, rfl, rfl, rfl, rfl, rfl, rfl⟩
    · exact refl s
  · exact refl s

theorem occHold (s : Chip) (n : Nat) : s.SameStores (s.occHold n) := by
  unfold Chip.occHold
  split
  · exact ⟨rfl, rfl, rfl, rfl, rfl, rfl, rfl⟩
  · exact refl s

theorem occ (s : Chip) (n : Nat) : s.SameStores (s.occ n) := by
  have seen : s.SameStores (if s.fabricOn then s.occSeen n else s.occHold n) := by
    split
    · exact occSeen s n
    · exact occHold s n
  show s.SameStores (if 83 ≤ n ∧ n ≤ 90 then _ else Chip.publish _ n)
  split
  · exact seen
  · exact seen.trans (publish _ n)

/-! ### The parts of a command's end -/

theorem slotwLine (s : Chip) : s.SameStores s.slotwLine := by
  have off : s.SameStores s.slotwOff := by
    unfold Chip.slotwOff
    dsimp only
    split
    · exact ⟨rfl, rfl, rfl, rfl, rfl, rfl, rfl⟩
    · exact refl s
  unfold Chip.slotwLine
  split
  · split
    · exact off
    · exact refl s
  · exact refl s

theorem entryAbort (s : Chip) : s.SameStores s.entryAbort := by
  unfold Chip.entryAbort
  split
  · have stop : s.SameStores { s with pwr := { s.pwr with entering := none } } := ⟨rfl, rfl, rfl, rfl, rfl, rfl, rfl⟩
    exact stop.trans ((enterPhase _ _).trans ((setFld _ _ 1).trans (occ _ 82)))
  · exact refl s

theorem noteDoze (s : Chip) : s.SameStores s.noteDoze := by
  unfold Chip.noteDoze
  split
  · exact setFld ..
  · exact refl s

theorem cxGrant (s : Chip) : s.SameStores s.cxGrant := by
  unfold Chip.cxGrant
  split
  · exact ⟨rfl, rfl, rfl, rfl, rfl, rfl, rfl⟩
  · exact refl s

theorem keepLevels (s : Chip) : s.SameStores s.keepLevels := by
  unfold Chip.keepLevels
  split
  · exact ⟨rfl, rfl, rfl, rfl, rfl, rfl, rfl⟩
  · exact refl s

end Chip.SameStores

/-! ### The whole end -/

@[simp] theorem Chip.slotwLine_ldr (s : Chip) : s.slotwLine.ldr = s.ldr := by
  have off : s.slotwOff.ldr = s.ldr := by
    unfold Chip.slotwOff
    dsimp only
    split <;> rfl
  unfold Chip.slotwLine
  split
  · split
    · exact off
    · rfl
  · rfl

/-- Where Vole does not work, nothing kicks the watchdog for it (R577). -/
theorem Chip.voleKick_of_not_vole (s : Chip) (h : s.ldr.who ≠ .vole) : s.voleKick = s := by simp [Chip.voleKick, h]

theorem Chip.SameStores.settle {s : Chip} (hout : s.out = {}) (hldr : s.ldr.who ≠ .vole) : s.SameStores s.settle := by
  have kick : s.slotwLine.voleKick = s.slotwLine := s.slotwLine.voleKick_of_not_vole (by rwa [Chip.slotwLine_ldr])
  rw [Chip.settle, Chip.handOverAll_none 32 s hout, kick]
  exact (slotwLine s).trans ((entryAbort _).trans ((noteDoze _).trans ((cxGrant _).trans (keepLevels _))))

/-- Settles O5: with nothing to hand over, each part of a command's end leaves the stores. -/
theorem settlingTouchesNoStore : Obligations.SettlingTouchesNoStore := by
  intro s hout _ hldr
  obtain ⟨flash, otp, mirror, sram, now, foxA, foxB⟩ := Chip.SameStores.settle hout hldr
  exact ⟨flash, otp, mirror, sram, now, foxA, foxB⟩

end Sys2Proof.Machine
end

section
/-!
PROOFS. Loads and moves (R475, R476): what the operand forms accept, what mode 3 adds to an index register, and one rule for each
instruction.
-/
namespace Sys2Proof.Machine

theorem eq_of_lt_three {d : Nat} (h : d < 3) : d = 0 ∨ d = 1 ∨ d = 2 := by omega

/-! ### Operand forms -/

theorem Opnd.inModes_mono {o : Opnd} {l l' : List Nat} (hl : ∀ n ∈ l, n ∈ l') (h : o.inModes l = true) : o.inModes l' = true := by
  simp only [Opnd.inModes, Bool.and_eq_true, List.contains_iff_mem] at h ⊢
  exact ⟨hl _ h.1, h.2⟩

theorem Opnd.mode_mem_of_inModes {o : Opnd} {l : List Nat} (h : o.inModes l = true) : o.mode.toNat ∈ l := by
  simp only [Opnd.inModes, Bool.and_eq_true, List.contains_iff_mem] at h
  exact h.1

theorem Opnd.mode_ne_three_of_inModes {o : Opnd} {l : List Nat} (h : o.inModes l = true) (hl : 3 ∉ l) : o.mode ≠ 3 := by
  intro hm
  have hmem := Opnd.mode_mem_of_inModes h
  rw [hm] at hmem
  exact hl hmem

theorem Opnd.inModes_of_mode_three {o : Opnd} {l : List Nat} (h : o.mode = 3) (hl : 3 ∈ l) : o.inModes l = true := by
  have hn : o.mode.toNat = 3 := congrArg BitVec.toNat h
  simp [Opnd.inModes, hn, hl]

/-! ### The step of mode 3 -/

theorem Chip.postInc_of_mode_ne (s : Chip) (c : Core) {o : Opnd} (h : o.mode ≠ 3) : s.postInc c o = s := if_pos h

theorem Chip.postInc_y (s : Chip) (c : Core) {o : Opnd} (h : o.mode = 3) (hx : o.ixs = true) :
    s.postInc c o = s.setCore c { s.core c with y := (s.core c).y + o.opd } := by simp [Chip.postInc, h, hx]

theorem Chip.postInc_x (s : Chip) (c : Core) {o : Opnd} (h : o.mode = 3) (hx : o.ixs = false) :
    s.postInc c o = s.setCore c { s.core c with x := (s.core c).x + o.opd } := by simp [Chip.postInc, h, hx]

/-! ### The instructions -/

section
variable {s t : Chip} {c : Core} {o : Opnd} {m : Word} (hs : s.ready c)
include hs

theorem Chip.gives_lda (hr : (s.fetch c).readM c o = .ok m t) (ho : o.inModes [0, 1, 2, 3, 4, 5] = true) :
    s.gives (.lda c o) (((t.setCore c { t.core c with a := m, st := setNZ (t.core c).st m }).postInc c o).finish c 1 none) :=
  Chip.gives_alu hs (fun _ m st => logic m st) (fun _ => rfl) hr ho

/-- LDX on any form that does not step X itself. -/
theorem Chip.gives_ldx (hr : (s.fetch c).readM c o = .ok m t) (ho : o.inModes [0, 1, 2, 3, 4, 5] = true)
    (hx : o.mode = 3 → o.ixs = true) :
    s.gives (.ldx c o) (((t.setCore c { t.core c with x := m.setWidth 24 }).postInc c o).finish c 1 none) := by
  have ok : (o.inModes [0, 1, 2, 3, 4, 5] && !(decide (o.mode = 3) && decide (o.ixs = false))) = true := by
    simpa [ho, -Bool.not_and] using hx
  refine Chip.gives_instr hs (fun _ => rfl) ok ?_
  rw [hr]
  rfl

/-- LDY on any form that does not step Y itself. -/
theorem Chip.gives_ldy (hr : (s.fetch c).readM c o = .ok m t) (ho : o.inModes [0, 1, 2, 3, 4, 5] = true)
    (hy : o.mode = 3 → o.ixs = false) :
    s.gives (.ldy c o) (((t.setCore c { t.core c with y := m.setWidth 24 }).postInc c o).finish c 1 none) := by
  have ok : (o.inModes [0, 1, 2, 3, 4, 5] && !(decide (o.mode = 3) && decide (o.ixs = true))) = true := by
    simpa [ho, -Bool.not_and] using hy
  refine Chip.gives_instr hs (fun _ => rfl) ok ?_
  rw [hr]
  rfl

theorem Chip.gives_leax {a : BitVec 24} (ha : (s.fetch c).effAddr c o = .ok a t) (ho : o.inModes [1, 2, 4] = true) :
    s.gives (.leax c o) ((t.setCore c { t.core c with x := a }).finish c 1 none) := by
  refine Chip.gives_instr hs (fun _ => rfl) ho ?_
  rw [ha]
  rfl

theorem Chip.gives_leay {a : BitVec 24} (ha : (s.fetch c).effAddr c o = .ok a t) (ho : o.inModes [1, 2, 4] = true) :
    s.gives (.leay c o) ((t.setCore c { t.core c with y := a }).finish c 1 none) := by
  refine Chip.gives_instr hs (fun _ => rfl) ho ?_
  rw [ha]
  rfl

/-- MOVR from register `r` to register `d`, each A, X or Y. -/
theorem Chip.gives_movr {d r : Nat} (hd : d < 3) (hr : r < 3) :
    s.gives (.movr c ⟨0, false, BitVec.ofNat 24 (4 * d + r)⟩) (((s.fetch c).setCore c (movr ((s.fetch c).core c) d r)).finish c 1 none) := by
  have fields : bits (BitVec.ofNat 24 (4 * d + r)).toNat 3 2 = d ∧ bits (BitVec.ofNat 24 (4 * d + r)).toNat 1 0 = r
      ∧ (BitVec.ofNat 24 (4 * d + r)).toNat < 16 := by
    obtain rfl | rfl | rfl := eq_of_lt_three hd <;> obtain rfl | rfl | rfl := eq_of_lt_three hr <;> exact ⟨rfl, rfl, by decide⟩
  obtain ⟨dst, src, small⟩ := fields
  have ok : (Opnd.inModes ⟨0, false, BitVec.ofNat 24 (4 * d + r)⟩ [0] && decide ((BitVec.ofNat 24 (4 * d + r)).toNat < 16)
      && decide (bits (BitVec.ofNat 24 (4 * d + r)).toNat 3 2 ≠ 3) && decide (bits (BitVec.ofNat 24 (4 * d + r)).toNat 1 0 ≠ 3)) = true := by
    rw [dst, src, decide_eq_true small, decide_eq_true (Nat.ne_of_lt hd), decide_eq_true (Nat.ne_of_lt hr)]
    rfl
  have h := Chip.gives_instr hs (i := .movr c ⟨0, false, BitVec.ofNat 24 (4 * d + r)⟩) (fun _ => rfl) ok rfl
  rwa [dst, src] at h

end

/-- What MOVR makes of the registers, by the destination. -/
theorem movr_eq (x : CoreSt) {d r : Nat} (hd : d < 3) (hr : r < 3) {v : Word}
    (hv : v = if r = 0 then x.a else if r = 1 then x.x.setWidth 36 else x.y.setWidth 36) :
    movr x d r = if d = 0 then { x with a := v, st := setNZ x.st v }
      else if d = 1 then { x with x := v.setWidth 24 } else { x with y := v.setWidth 24 } := by
  subst hv
  obtain rfl | rfl | rfl := eq_of_lt_three hd <;> obtain rfl | rfl | rfl := eq_of_lt_three hr <;> rfl

/-- Settles O9: each instruction has its rule; an index register is stepped where mode 3 names the other one. -/
theorem loadsComplete : Obligations.LoadsComplete := by
  intro s t c o hs
  refine ⟨fun m hr => ⟨fun ho => Chip.gives_lda hs hr ho, ?plain, ?stepY, ?stepX⟩, ?address, ?move⟩
  case plain =>
    intro ho
    have h3 := Opnd.mode_ne_three_of_inModes ho (by decide)
    have hall := Opnd.inModes_mono (l' := [0, 1, 2, 3, 4, 5]) (by decide) ho
    have hx := Chip.gives_ldx hs hr hall fun h => absurd h h3
    have hy := Chip.gives_ldy hs hr hall fun h => absurd h h3
    rw [Chip.postInc_of_mode_ne _ c h3] at hx hy
    exact ⟨hx, hy⟩
  case stepY =>
    intro h3 hi
    have h := Chip.gives_ldx hs hr (Opnd.inModes_of_mode_three h3 (by decide)) fun _ => hi
    rwa [Chip.postInc_y _ c h3 hi, Chip.core_setCore_self, Chip.setCore_setCore] at h
  case stepX =>
    intro h3 hi
    have h := Chip.gives_ldy hs hr (Opnd.inModes_of_mode_three h3 (by decide)) fun _ => hi
    rwa [Chip.postInc_x _ c h3 hi, Chip.core_setCore_self, Chip.setCore_setCore] at h
  case address => exact fun a ha ho => ⟨Chip.gives_leax hs ha ho, Chip.gives_leay hs ha ho⟩
  case move =>
    rintro d r hd hr rfl v hv
    rw [← movr_eq _ hd hr hv]
    exact Chip.gives_movr hs hd hr

end Sys2Proof.Machine
end

section
/-!
PROOFS. The memory path of a core (R36, R472): what an access, a wait, the write buffer and a write leave alone, and what a read finds
after them.
-/
namespace Sys2Proof.Machine

/-! ### What a read depends on -/

/-- A word of SRAM reads the same in two chips with the same SRAM that have lost its power equally often. -/
theorem Chip.rd_congr {s t : Chip} (hsram : t.sram = s.sram) (hlost : t.sramLost = s.sramLost) (b : Nat) : t.rd b = s.rd b := by
  have hdef : t.sramDefault = s.sramDefault := by
    funext a
    rw [Chip.sramDefault, Chip.sramDefault, hlost]
  rw [Chip.rd, Chip.rd, hsram, hdef]

@[simp] theorem Chip.rd_setCore (s : Chip) (c : Core) (x : CoreSt) (b : Nat) : (s.setCore c x).rd b = s.rd b :=
  Chip.rd_congr (by simp) (by simp) b

@[simp] theorem Chip.rd_bankTake (s : Chip) (ag : Agent) (a b : Nat) : (s.bankTake ag a).2.rd b = s.rd b :=
  Chip.rd_congr (by simp) (by simp) b

@[simp] theorem Chip.rd_draw (s : Chip) (b : Nat) : s.draw.rd b = s.rd b := rfl

/-! ### The cores after an access -/

@[simp] theorem Chip.core_bankTake (s : Chip) (ag : Agent) (a : Nat) (c : Core) : (s.bankTake ag a).2.core c = s.core c := by
  cases c <;> simp [Chip.core]

@[simp] theorem Chip.core_wr (s : Chip) (a : Nat) (v : Word) (c : Core) : (s.wr a v).core c = s.core c := by
  cases c <;> simp [Chip.core]

@[simp] theorem Chip.core_draw (s : Chip) (c : Core) : s.draw.core c = s.core c := by cases c <;> rfl

theorem Chip.core_addCyc (s : Chip) (c : Core) (n : Nat) : (s.addCyc c n).core c = { s.core c with cyc := (s.core c).cyc + n } :=
  s.core_setCore_self c _

theorem Chip.core_addCyc_ne (s : Chip) {c d : Core} (n : Nat) (h : d ≠ c) : (s.addCyc c n).core d = s.core d := s.core_setCore_ne _ h

@[simp] theorem Chip.rd_addCyc (s : Chip) (c : Core) (n b : Nat) : (s.addCyc c n).rd b = s.rd b := s.rd_setCore c _ b

theorem Chip.core_waitFree (s : Chip) (c : Core) :
    (s.waitFree c).core c = { s.core c with cyc := (s.core c).cyc + Config.freeNat s.free } := by
  rw [Chip.waitFree, Chip.core_addCyc, Chip.core_draw]

theorem Chip.core_waitFree_ne (s : Chip) {c d : Core} (h : d ≠ c) : (s.waitFree c).core d = s.core d := by
  rw [Chip.waitFree, Chip.core_addCyc_ne _ _ h, Chip.core_draw]

@[simp] theorem Chip.rd_waitFree (s : Chip) (c : Core) (b : Nat) : (s.waitFree c).rd b = s.rd b := by simp [Chip.waitFree]

/-! ### The stores that neither an access nor a wait touches -/

/-- Registers, flash, OTP, the mirror and every core but `c` are in `t` as in `s`. -/
structure Chip.SameBut (c : Core) (s t : Chip) : Prop where
  regs : t.regs = s.regs
  flash : t.flash = s.flash
  otp : t.otp = s.otp
  mirror : t.mirror = s.mirror
  core : ∀ d, d ≠ c → t.core d = s.core d

namespace Chip.SameBut
variable {c : Core} {s t u : Chip}

theorem refl (s : Chip) : s.SameBut c s := ⟨rfl, rfl, rfl, rfl, fun _ _ => rfl⟩

theorem trans (h : Chip.SameBut c s t) (k : Chip.SameBut c t u) : Chip.SameBut c s u :=
  ⟨k.regs.trans h.regs, k.flash.trans h.flash, k.otp.trans h.otp, k.mirror.trans h.mirror, fun d hd => (k.core d hd).trans (h.core d hd)⟩

theorem setCore (s : Chip) (x : CoreSt) : Chip.SameBut c s (s.setCore c x) :=
  ⟨by simp, by simp, by simp, by simp, fun _ hd => s.core_setCore_ne x hd⟩

theorem bankTake (s : Chip) (ag : Agent) (a : Nat) : Chip.SameBut c s (s.bankTake ag a).2 :=
  ⟨by simp, by simp, by simp, by simp, fun d _ => s.core_bankTake ag a d⟩

theorem wr (s : Chip) (a : Nat) (v : Word) : Chip.SameBut c s (s.wr a v) :=
  ⟨by simp, by simp, by simp, by simp, fun d _ => s.core_wr a v d⟩

theorem waitFree (s : Chip) : Chip.SameBut c s (s.waitFree c) :=
  ⟨by simp [Chip.waitFree, Chip.addCyc], by simp [Chip.waitFree, Chip.addCyc], by simp [Chip.waitFree, Chip.addCyc],
    by simp [Chip.waitFree, Chip.addCyc], fun _ hd => s.core_waitFree_ne hd⟩

theorem access (s : Chip) (a : Nat) : Chip.SameBut c s (s.access c a) := (bankTake s c.agent a).trans (setCore _ _)

theorem drainOne (s : Chip) : Chip.SameBut c s (s.drainOne c) := by
  unfold Chip.drainOne
  split
  · exact refl s
  · exact (setCore s _).trans ((bankTake _ _ _).trans (wr _ _ _))

theorem drainAll (s : Chip) : Chip.SameBut c s (s.drainAll c) := by
  have drained : ∀ (n : Nat) (s : Chip), Chip.SameBut c s ((List.range n).foldl (fun s _ => s.drainOne c) s) := by
    intro n s
    induction n with
    | zero => exact refl s
    | succ n ih =>
      rw [List.range_succ, List.foldl_append]
      exact ih.trans (drainOne _)
  unfold Chip.drainAll
  split
  · exact refl s
  · exact (drained _ s).trans (waitFree _)

theorem memPath (s : Chip) (a : Nat) (v : Word) : Chip.SameBut c s (s.memPath c a v) := by
  unfold Chip.memPath
  split
  · exact (access s a).trans (wr _ a v)
  · dsimp only
    split
    · exact (drainOne s).trans ((waitFree _).trans (setCore _ _))
    · exact setCore s _

end Chip.SameBut

/-! ### The oldest buffered write -/

section
variable {s : Chip} {c : Core} {a : Nat} {v : Word} {l : List (Nat × Word)} (h : (s.core c).wbuf = (a, v) :: l)
include h

theorem Chip.drainOne_cons : s.drainOne c = ((s.setCore c { s.core c with wbuf := l }).bankTake c.agent a).2.wr a v := by
  rw [Chip.drainOne, h]

theorem Chip.core_drainOne : (s.drainOne c).core c = { s.core c with wbuf := l } := by
  rw [Chip.drainOne_cons h, Chip.core_wr, Chip.core_bankTake, Chip.core_setCore_self]

theorem Chip.rd_drainOne (b : Nat) : (s.drainOne c).rd b = if b = a ∧ isSram a = true then v else s.rd b := by
  rw [Chip.drainOne_cons h]
  by_cases ha : isSram a = true
  · simp [Chip.rd_wr _ a b v ha, ha]
  · rw [Chip.wr_outside _ a v (by simpa using ha)]
    simp [ha]

end

theorem Chip.drainOne_nil {s : Chip} {c : Core} (h : (s.core c).wbuf = []) : s.drainOne c = s := by rw [Chip.drainOne, h]

theorem Chip.drainAll_nil {s : Chip} {c : Core} (h : (s.core c).wbuf = []) : s.drainAll c = s := by simp [Chip.drainAll, h]

/-! ### A write of the memory path -/

/-- Badger's write is performed (R36). -/
theorem Chip.memPath_badger (s : Chip) (a : Nat) (v : Word) : s.memPath .badger a v = (s.access .badger a).wr a v := if_pos rfl

/-- A Fox core's write joins its buffer. -/
theorem Chip.memPath_room {s : Chip} {c : Core} (hc : c ≠ .badger) (h : (s.core c).wbuf.length < 4) (a : Nat) (v : Word) :
    s.memPath c a v = s.setCore c { s.core c with wbuf := (s.core c).wbuf ++ [(a, v)] } := by
  rw [Chip.memPath, if_neg hc, if_neg (Nat.not_le_of_lt h)]

/-- A full buffer lets its oldest write go first. -/
theorem Chip.memPath_full {s : Chip} {c : Core} (hc : c ≠ .badger) (h : 4 ≤ (s.core c).wbuf.length) (a : Nat) (v : Word) :
    s.memPath c a v = ((s.drainOne c).waitFree c).setCore c
      { ((s.drainOne c).waitFree c).core c with wbuf := (((s.drainOne c).waitFree c).core c).wbuf ++ [(a, v)] } := by
  rw [Chip.memPath, if_neg hc, if_pos h]

/-- The wait of an access to SRAM is that of its bank alone. -/
theorem Chip.waitOf_sram (s : Chip) (c : Core) {a : Nat} (h : isSram a = true) : s.waitOf c a = 0 := by
  simp only [isSram, Bool.and_eq_true, decide_eq_true_eq] at h
  have hflash : isFlash a = false := by simp [isFlash]; omega
  have hotp : isOtp a = false := by simp [isOtp]; omega
  have hreg : isReg a = false := by simp [isReg, isBlock, isMirror]; omega
  simp [Chip.waitOf, hflash, hotp, hreg]

/-! ### A push -/

theorem Chip.push_ok {s : Chip} {c : Core} (h : isSram ((s.core c).sp - 1).toNat = true) (v : Word) :
    s.push c v = .ok () ((s.memPath c ((s.core c).sp - 1).toNat v).setCore c
      { (s.memPath c ((s.core c).sp - 1).toNat v).core c with sp := (s.core c).sp - 1 }) := if_pos h

/-- A push outside SRAM traps, and the trap's address is SP as it stood (R454). -/
theorem Chip.push_trap {s : Chip} {c : Core} (h : isSram ((s.core c).sp - 1).toNat = false) (v : Word) :
    s.push c v = .trap { vec := 4, cause := 0xB3, addr := (s.core c).sp, data := true } s :=
  if_neg (Bool.eq_false_iff.1 h)

end Sys2Proof.Machine
end

section
/-!
PROOFS. Stores, PUSH and POP (R475), and where a store goes (R36, R472, R494).
-/
namespace Sys2Proof.Machine

/-! ### The instructions -/

theorem Opnd.specialNo_eq_one_iff (o : Opnd) : o.specialNo = 1 ↔ o.opd = 1 := by
  have hn : o.opd.toNat = 1 ↔ o.opd = 1 := ⟨fun h => BitVec.eq_of_toNat_eq h, fun h => by rw [h]; rfl⟩
  unfold Opnd.specialNo
  split
  · exact hn
  · refine ⟨fun h => absurd h (by decide), fun h => ?_⟩
    have := hn.2 h
    omega

section
variable {s t u : Chip} {c : Core} {o : Opnd} {m w : Word} (hs : s.ready c)
include hs

theorem Chip.gives_storeM {i : Instr} (v : CoreSt → Word) (hi : ∀ q, exec i ⟨q, s⟩ = run (fun ch => ch.storeM c o v) ⟨q, s⟩)
    (ho : o.inModes [1, 2, 3, 4, 5] = true) (hw : (s.fetch c).writeM c o (v ((s.fetch c).core c)) = .ok () t) :
    s.gives i ((t.postInc c o).finish c 1 none) := by
  refine Chip.gives_instr hs hi ho ?_
  rw [hw]
  rfl

theorem Chip.gives_push (ho : o.inModes [0, 1, 2, 3, 4, 5] = true) (hr : (s.fetch c).readM c o = .ok m t)
    (hsp : isSram ((t.core c).sp - 1).toNat = true) :
    s.gives (.push c o) ((((t.memPath c ((t.core c).sp - 1).toNat m).setCore c
      { (t.memPath c ((t.core c).sp - 1).toNat m).core c with sp := (t.core c).sp - 1 }).postInc c o).finish c 1 none) := by
  refine Chip.gives_instr hs (fun _ => rfl) ho ?_
  rw [hr, Acc.andThen, Chip.push_ok hsp]
  rfl

theorem Chip.gives_pop (ho : o.inModes [1, 2, 3, 4, 5] = true) (hsp : isSram ((s.fetch c).core c).sp.toNat = true)
    (hr : (s.fetch c).coreRead c ((s.fetch c).core c).sp = .ok w t) (hw : t.writeM c o w = .ok () u) :
    s.gives (.pop c o) (((if o.mode = 5 ∧ o.opd = 1 then u
      else u.setCore c { u.core c with sp := ((s.fetch c).core c).sp + 1 }).postInc c o).finish c 1 none) := by
  refine Chip.gives_instr hs (fun _ => rfl) ho ?_
  have hstack : (s.fetch c).stackRead c ((s.fetch c).core c).sp = .ok w t := (if_pos hsp).trans hr
  simp only [hstack, Acc.andThen, hw, Bool.and_eq_true, decide_eq_true_eq, Opnd.specialNo_eq_one_iff]

end

/-! ### Where a store goes -/

theorem Chip.coreWrite_sram (s : Chip) (c : Core) {a : BitVec 24} (v : Word) (h : isSram a.toNat = true) :
    s.coreWrite c a v = .ok () (s.memPath c a.toNat v) := by
  simp [Chip.coreWrite, mayWriteAt, h]

theorem Chip.coreWrite_register (s : Chip) (c : Core) {a : BitVec 24} (v : Word) (h : isSram a.toNat = false)
    (hw : mayWriteAt a.toNat = true) :
    s.coreWrite c a v = .ok () (((s.access c a.toNat).waitFree c).ioWrite c.agent (s.core c).fromRom a.toNat v) := by
  simp [Chip.coreWrite, hw, h]

theorem Chip.coreWrite_nowhere (s : Chip) (c : Core) {a : BitVec 24} (v : Word) (h : mayWriteAt a.toNat = false) :
    s.coreWrite c a v = .trap { vec := 3, cause := 0xB2, addr := a, data := true } s := by
  simp [Chip.coreWrite, h]

/-- A write of Badger's to SRAM changes its word alone. -/
theorem Chip.rd_memPath_badger (s : Chip) {a : Nat} (v : Word) (h : isSram a = true) (b : Nat) :
    (s.memPath .badger a v).rd b = if b = a then v else s.rd b := by
  rw [Chip.memPath_badger, Chip.rd_wr _ _ _ _ h]
  simp [Chip.access]

/-- Another agent has taken the bank of `a` in this cycle (R472). -/
theorem Chip.bankTake_conflict_iff (s : Chip) (ag : Agent) {a : Nat} (h : isSram a = true) :
    (s.bankTake ag a).1 = true ↔ s.busAt = s.now ∧ ∃ p ∈ s.busUse, p.1 ≠ ag ∧ p.2 = bankOf a := by
  by_cases hb : s.busAt = s.now <;> simp [Chip.bankTake, h, hb]

theorem Chip.badger_memPath (s : Chip) {a : Nat} (v : Word) (h : isSram a = true) :
    (s.memPath .badger a v).cores.badger = { s.cores.badger with cyc := s.cores.badger.cyc
      + (if s.busAt = s.now ∧ (∃ p ∈ s.busUse, p.1 ≠ .badger ∧ p.2 = bankOf a) then ceilDiv (s.rateNow .badger) s.fabricRate else 0) } := by
  have hcore : (s.memPath .badger a v).core .badger = { s.core .badger with cyc := (s.core .badger).cyc
      + (0 + if (s.bankTake .badger a).1 = true then ceilDiv (s.rateNow .badger) s.fabricRate else 0) } := by
    rw [Chip.memPath_badger, Chip.core_wr, Chip.access, Chip.core_addCyc, Chip.core_bankTake, s.waitOf_sram .badger h]
    rfl
  simp only [Chip.bankTake_conflict_iff s .badger h, Nat.zero_add] at hcore
  exact hcore

/-- A full buffer of a Fox core: its oldest write takes its own address, and no other word changes. -/
theorem Chip.memPath_full_effect {s : Chip} {c : Core} {k : Nat} {w : Word} {l : List (Nat × Word)} (hc : c ≠ .badger)
    (hb : (s.core c).wbuf = (k, w) :: l) (hl : l.length = 3) (a : Nat) (v : Word) :
    ((s.memPath c a v).core c).wbuf = l ++ [(a, v)]
    ∧ ∀ b : Nat, (s.memPath c a v).rd b = if b = k ∧ isSram k = true then w else s.rd b := by
  have hfull : 4 ≤ (s.core c).wbuf.length := by simp [hb, hl]
  rw [Chip.memPath_full hc hfull]
  refine ⟨?_, fun b => ?_⟩
  · rw [Chip.core_setCore_self, Chip.core_waitFree, Chip.core_drainOne hb]
  · rw [Chip.rd_setCore, Chip.rd_waitFree, Chip.rd_drainOne hb]

/-! ### A store through M -/

/-- What a store of Badger's through M changes: the word at its effective address, and time. -/
theorem Chip.writeM_badger_sram {s t u : Chip} {o : Opnd} {a : BitVec 24} {v : Word} (ho : o.inModes [1, 2, 3, 4] = true)
    (ha : s.effAddr .badger o = .ok a t) (hs : isSram a.toNat = true) (hw : s.writeM .badger o v = .ok () u) :
    u = t.memPath .badger a.toNat v := by
  have h5 : o.mode ≠ 5 := by
    intro h
    have hmem := Opnd.mode_mem_of_inModes ho
    rw [h] at hmem
    exact absurd hmem (by decide)
  rw [Chip.writeM, if_neg h5, ha, Acc.andThen, Chip.coreWrite_sram t .badger v hs] at hw
  injection hw with _ h
  exact h.symm

theorem Chip.gives_writeBufferDrain (s : Chip) (c : Core) : s.gives (.writeBufferDrain c) (s.drainOne c) :=
  fun q => exec_writeBufferDrain ⟨q, s⟩ c

/-- Settles O10: one rule for each instruction, and the memory path's rules for where a store goes. -/
theorem storesComplete : Obligations.StoresComplete := by
  refine ⟨fun s c o hs => ⟨?store, fun m t ho hr => Chip.gives_push hs ho hr, fun w t u => Chip.gives_pop hs⟩,
    ⟨?badger, ?room, fun s c a k v w l hc hb hl => Chip.memPath_full_effect hc hb hl a v, ?other, ?drain, ?idle⟩, ?through⟩
  case store =>
    intro t ho
    exact ⟨Chip.gives_storeM hs CoreSt.a (fun _ => rfl) ho, Chip.gives_storeM hs (fun x => x.x.setWidth 36) (fun _ => rfl) ho,
      Chip.gives_storeM hs (fun x => x.y.setWidth 36) (fun _ => rfl) ho⟩
  case badger =>
    intro s a v h
    have frame := Chip.SameBut.memPath (c := .badger) s a.toNat v
    refine ⟨_, s.coreWrite_sram .badger v h, rfl, ?_, fun b hb => ?_, frame.core .foxA (by decide), frame.core .foxB (by decide),
      frame.regs, s.badger_memPath v h⟩
    · rw [Chip.rd_memPath_badger s v h, if_pos rfl]
    · rw [Chip.rd_memPath_badger s v h, if_neg hb]
  case room =>
    intro s c a v hc h hroom
    exact ⟨s.coreWrite_sram c v h, Chip.memPath_room hc hroom _ v⟩
  case other =>
    intro s c a v h
    exact ⟨s.coreWrite_register c v h, s.coreWrite_nowhere c v⟩
  case drain =>
    intro s c a v l h
    exact ⟨_, s.gives_writeBufferDrain c, Chip.core_drainOne h, (Chip.SameBut.drainOne s).regs, Chip.rd_drainOne h⟩
  case idle =>
    intro s c h
    have hg := s.gives_writeBufferDrain c
    rwa [Chip.drainOne_nil h] at hg
  case through =>
    intro s t u o a v ho ha h hw
    obtain rfl := Chip.writeM_badger_sram ho ha h hw
    have frame := Chip.SameBut.memPath (c := .badger) t a.toNat v
    refine ⟨?_, fun b hb => ?_, frame.regs, frame.flash, frame.otp, frame.mirror, frame.core .foxA (by decide),
      frame.core .foxB (by decide), ?_⟩
    · rw [Chip.rd_memPath_badger t v h, if_pos rfl]
    · rw [Chip.rd_memPath_badger t v h, if_neg hb]
    · rw [t.badger_memPath v h]

end Sys2Proof.Machine
end

section
/-!
PROOFS. The binary, logic and shift instructions (R474, R477, R478): each operation in the terms of its result.
-/
namespace Sys2Proof.Machine

/-! ### Sums and differences -/

theorem addc_false (a m st : Word) : addc a m false st = (a + m, stNZCV st (a + m) (decide (2 ^ 36 ≤ a.toNat + m.toNat))
    (decide ((a + m).toInt ≠ a.toInt + m.toInt))) := by
  simp [addc, stNZCV]

theorem addc_carry (a m st : Word) (b : Bool) : addc a m b st = (W (a.toNat + m.toNat + b.toNat),
    stNZCV st (W (a.toNat + m.toNat + b.toNat)) (decide (2 ^ 36 ≤ a.toNat + m.toNat + b.toNat))
      (decide ((W (a.toNat + m.toNat + b.toNat)).toInt ≠ a.toInt + m.toInt + b.toNat))) := by
  have sum : a + m + BitVec.ofNat 36 b.toNat = W (a.toNat + m.toNat + b.toNat) := by
    rw [W, BitVec.ofNat_add, BitVec.ofNat_add, BitVec.ofNat_toNat, BitVec.ofNat_toNat, BitVec.setWidth_eq, BitVec.setWidth_eq]
  rw [addc, sum]
  rfl

theorem subb_false (a m st : Word) : subb a m false st = (a - m, stNZCV st (a - m) (decide (a.toNat < m.toNat))
    (decide ((a - m).toInt ≠ a.toInt - m.toInt))) := by
  simp [subb, stNZCV]

theorem subb_borrow (a m st : Word) (b : Bool) : subb a m b st = (BitVec.ofInt 36 (a.toInt - m.toInt - b.toNat),
    stNZCV st (BitVec.ofInt 36 (a.toInt - m.toInt - b.toNat)) (decide (a.toNat < m.toNat + b.toNat))
      (decide ((BitVec.ofInt 36 (a.toInt - m.toInt - b.toNat)).toInt ≠ a.toInt - m.toInt - b.toNat))) := by
  have difference : a - m - BitVec.ofNat 36 b.toNat = BitVec.ofInt 36 (a.toInt - m.toInt - b.toNat) := by
    rw [Int.sub_eq_add_neg, Int.sub_eq_add_neg, BitVec.ofInt_add, BitVec.ofInt_add, BitVec.ofInt_neg, BitVec.ofInt_neg,
      BitVec.ofInt_toInt, BitVec.ofInt_toInt, BitVec.ofInt_natCast, ← BitVec.sub_eq_add_neg, ← BitVec.sub_eq_add_neg]
  rw [subb, difference]
  rfl

/-! ### Shifts -/

theorem shiftCount_eq (m : Word) : shiftCount m = min (m.toNat % 64) 36 := rfl

/-- A count of 0 leaves A, and so N and Z are those of A. -/
theorem shifted_eq {a r : Word} {k : Nat} (h : k = 0 → r = a) (b : Bool) (st : Word) :
    shifted r b k st = (r, if k = 0 then setNZ st a else stSet (setNZ st r) St.C b) := by
  by_cases hk : k = 0
  · rw [shifted, if_pos hk, if_pos hk, h hk]
  · rw [shifted, if_neg hk, if_neg hk]

theorem shl_eq (a m st : Word) : shl a m st = (a <<< shiftCount m, if shiftCount m = 0 then setNZ st a
    else stSet (setNZ st (a <<< shiftCount m)) St.C (a.getLsbD (36 - shiftCount m))) :=
  shifted_eq (fun h => by rw [h, BitVec.shiftLeft_zero]) _ st

theorem shr_eq (a m st : Word) : shr a m st = (a >>> shiftCount m, if shiftCount m = 0 then setNZ st a
    else stSet (setNZ st (a >>> shiftCount m)) St.C (a.getLsbD (shiftCount m - 1))) :=
  shifted_eq (fun h => by rw [h, BitVec.ushiftRight_zero]) _ st

theorem sha_eq (a m st : Word) : sha a m st = (a.sshiftRight (shiftCount m), if shiftCount m = 0 then setNZ st a
    else stSet (setNZ st (a.sshiftRight (shiftCount m))) St.C (a.getLsbD (shiftCount m - 1))) :=
  shifted_eq (fun h => by rw [h, BitVec.sshiftRight_zero]) _ st

theorem rol_eq (a m st : Word) : rol a m st = (a.rotateLeft (shiftCount m % 36), if shiftCount m % 36 = 0 then setNZ st a
    else stSet (setNZ st (a.rotateLeft (shiftCount m % 36))) St.C ((a.rotateLeft (shiftCount m % 36)).getLsbD 0)) :=
  shifted_eq (fun h => by simp [h, BitVec.rotateLeft, BitVec.rotateLeftAux, BitVec.ushiftRight_eq_zero]) _ st

theorem ror_eq (a m st : Word) : ror a m st = (a.rotateRight (shiftCount m % 36), if shiftCount m % 36 = 0 then setNZ st a
    else stSet (setNZ st (a.rotateRight (shiftCount m % 36))) St.C ((a.rotateRight (shiftCount m % 36)).getLsbD 35)) :=
  shifted_eq (fun h => by simp [h, BitVec.rotateRight, BitVec.rotateRightAux]) _ st

/-! ### The instructions -/

section
variable {s t : Chip} {c : Core} {o : Opnd} {m : Word} {i : Instr} (hs : s.ready c) (hr : (s.fetch c).readM c o = .ok m t)
include hs hr

/-- An instruction on A, M and ST with the result `r`. -/
theorem Chip.gives_alu_eq {l : List Nat} (ho : o.inModes l = true) {f : Word → Word → Word → Word × Word} {r : Word × Word}
    (hf : f (t.core c).a m (t.core c).st = r) (hi : ∀ q, exec i ⟨q, s⟩ = run (fun ch => ch.alu c o l f) ⟨q, s⟩) :
    s.gives i (((t.result c r).postInc c o).finish c 1 none) := hf ▸ Chip.gives_alu hs f hi hr ho

end

/-- Settles O11: each instruction is the one shape `alu` with an operation whose result is known. -/
theorem binaryInstructions : Obligations.BinaryInstructions := by
  intro s t c o m hs hr
  refine ⟨fun ho => ⟨?add, ?adc, ?sub, ?sbc, ?cmp, ?and, ?or, ?xor⟩, fun k hk ho => ?shifts⟩
  case add => exact Chip.gives_alu_eq hs hr ho (addc_false _ _ _) fun _ => rfl
  case adc => exact Chip.gives_alu_eq hs hr ho (addc_carry _ _ _ _) fun _ => rfl
  case sub => exact Chip.gives_alu_eq hs hr ho (subb_false _ _ _) fun _ => rfl
  case sbc => exact Chip.gives_alu_eq hs hr ho (subb_borrow _ _ _ _) fun _ => rfl
  case cmp =>
    exact Chip.gives_alu_eq hs hr ho (congrArg (fun r => ((t.core c).a, r.2)) (subb_false _ _ _)) fun _ => rfl
  case and => exact Chip.gives_alu hs (fun a m st => logic (a &&& m) st) (fun _ => rfl) hr ho
  case or => exact Chip.gives_alu hs (fun a m st => logic (a ||| m) st) (fun _ => rfl) hr ho
  case xor => exact Chip.gives_alu hs (fun a m st => logic (a ^^^ m) st) (fun _ => rfl) hr ho
  case shifts =>
    obtain rfl : k = shiftCount m := hk
    exact ⟨Chip.gives_alu_eq hs hr ho (shl_eq _ _ _) fun _ => rfl, Chip.gives_alu_eq hs hr ho (shr_eq _ _ _) fun _ => rfl,
      Chip.gives_alu_eq hs hr ho (sha_eq _ _ _) fun _ => rfl, Chip.gives_alu_eq hs hr ho (rol_eq _ _ _) fun _ => rfl,
      Chip.gives_alu_eq hs hr ho (ror_eq _ _ _) fun _ => rfl⟩

end Sys2Proof.Machine
end

section
/-!
PROOFS. The instructions on A alone, the check instructions and the multiplier (R449 to R451, R477, R481, R482).
-/
namespace Sys2Proof.Machine

/-! ### NEG and NOT -/

theorem subb_zero_left (a st : Word) : subb 0 a false st = (-a, stNZCV st (-a) (decide (a ≠ 0)) (decide (a = BitVec.intMin 36))) := by
  have carry : (0#36).toNat < a.toNat ↔ a ≠ 0 :=
    Nat.pos_iff_ne_zero.trans (not_congr ⟨fun h => BitVec.eq_of_toNat_eq h, fun h => h ▸ rfl⟩)
  have overflow : (-a).toInt ≠ (0#36).toInt - a.toInt ↔ a = BitVec.intMin 36 := by
    rw [BitVec.toInt_zero, Int.zero_sub]
    refine ⟨fun h => ?_, fun h => by rw [h]; decide⟩
    refine Decidable.byContradiction fun hne => ?_
    exact h (BitVec.toInt_neg_of_ne_intMin hne)
  rw [subb_false]
  simp only [BitVec.ofNat_eq_ofNat, BitVec.zero_sub, carry, overflow]

/-! ### BREV -/

/-- The lowest digit apart: the rest is a digit sum again. -/
theorem digitSum_succ_low (b : Nat) (f : Nat → Nat) (n : Nat) : digitSum b f (n + 1) = f 0 + b * digitSum b (fun j => f (j + 1)) n := by
  induction n with
  | zero => simp [digitSum]
  | succ n ih =>
    rw [digitSum_succ, ih, digitSum_succ, Nat.mul_add, Nat.pow_succ', Nat.mul_left_comm b, Nat.add_assoc]

/-- The bits of A read from the top of the length: a number whose lowest digit is A's highest bit in it. -/
theorem foldl_brev (a : Word) (n k : Nat) (h : k ≤ n) :
    (List.range k).foldl (fun acc i => acc + (a.getLsbD i).toNat <<< (n - 1 - i)) 0
      = 2 ^ (n - k) * digitSum 2 (fun j => (a.getLsbD (k - 1 - j)).toNat) k := by
  induction k with
  | zero => rfl
  | succ k ih =>
    have shift : (fun j => (a.getLsbD (k + 1 - 1 - (j + 1))).toNat) = fun j => (a.getLsbD (k - 1 - j)).toNat := by
      funext j
      have e : k + 1 - 1 - (j + 1) = k - 1 - j := by omega
      rw [e]
    have power : n - k = n - (k + 1) + 1 := by omega
    have place : n - 1 - k = n - (k + 1) := by omega
    rw [List.range_succ, List.foldl_append, ih (by omega), digitSum_succ_low, shift, List.foldl_cons, List.foldl_nil,
      Nat.shiftLeft_eq, power, place, Nat.pow_succ, Nat.mul_add, Nat.add_sub_cancel, Nat.sub_zero]
    ac_rfl

theorem getLsbD_brev (a : Word) (n : Nat) {i : Nat} (hi : i < 36) :
    (brev a n).getLsbD i = (decide (i < n) && a.getLsbD (n - 1 - i)) := by
  have digit : ∀ j, (a.getLsbD (n - 1 - j)).toNat < 2 := fun j => Bool.toNat_lt _
  have value : brev a n = W (digitSum 2 (fun j => (a.getLsbD (n - 1 - j)).toNat) n) := by
    rw [brev, foldl_brev a n n (Nat.le_refl n), Nat.sub_self, Nat.pow_zero, Nat.one_mul]
  rw [value, BitVec.getLsbD_ofNat, decide_eq_true hi, Bool.true_and]
  by_cases h : i < n
  · rw [Nat.testBit_eq_decide_div_mod_eq, digitSum_digit digit h, decide_eq_true h, Bool.true_and]
    cases a.getLsbD (n - 1 - i) <;> rfl
  · rw [decide_eq_false h, Bool.false_and]
    have small := digitSum_lt (b := 2) (n := n) fun j _ => digit j
    exact Nat.testBit_lt_two_pow (Nat.lt_of_lt_of_le small (Nat.pow_le_pow_right (by decide) (Nat.le_of_not_lt h)))

/-! ### Products -/

theorem unsigned_cast (n : Nat) (v : Int) : (unsigned n v : Int) = v % 2 ^ n :=
  Int.toNat_of_nonneg (Int.emod_nonneg v (Int.pow_ne_zero (by decide)))

/-- MHI and MLO, read `n` cycles after the issue of the only product in flight: the old contents up to the third cycle. -/
theorem special_of_issued {x : CoreSt} (hx : x.flight = []) (e : Core) (k : MulKind) (m : Word) (n : Nat) :
    ({ x.issue k m with cyc := x.cyc + n } : CoreSt).special e 2 = some (if n < 3 then x.mhi
      else W (Flight.result { cycle := x.cyc, kind := k, a := x.a, m := m } (x.mhi.toNat * 2 ^ 36 + x.mlo.toNat) / 2 ^ 36))
    ∧ ({ x.issue k m with cyc := x.cyc + n } : CoreSt).special e 3 = some (if n < 3 then x.mlo
      else W (Flight.result { cycle := x.cyc, kind := k, a := x.a, m := m } (x.mhi.toNat * 2 ^ 36 + x.mlo.toNat))) := by
  by_cases h : n < 3
  · have late : ¬ x.cyc + 3 ≤ x.cyc + n := by omega
    simp [CoreSt.special, CoreSt.landDue, CoreSt.issue, hx, h, late]
  · have due : x.cyc + 3 ≤ x.cyc + n := by omega
    simp [CoreSt.special, CoreSt.landDue, CoreSt.issue, CoreSt.land, hx, h, due, accOf, accHi, accLo]

/-! ### The instructions -/

section
variable {s t : Chip} {c : Core} {o : Opnd} {m : Word} (hs : s.ready c)
include hs

theorem Chip.gives_brev {n : Nat} (h1 : 1 ≤ n) (h36 : n ≤ 36) :
    s.gives (.brev c ⟨0, false, BitVec.ofNat 24 n⟩)
      (((s.fetch c).result c (logic (brev ((s.fetch c).core c).a n) ((s.fetch c).core c).st)).finish c 1 none) := by
  have hn : (BitVec.ofNat 24 n).toNat = n := Nat.mod_eq_of_lt (by omega)
  have ok : (Opnd.inModes ⟨0, false, BitVec.ofNat 24 n⟩ [0] && decide (1 ≤ (BitVec.ofNat 24 n).toNat)
      && decide ((BitVec.ofNat 24 n).toNat ≤ 36)) = true := by
    rw [hn, decide_eq_true h1, decide_eq_true h36]
    rfl
  refine Chip.gives_instr hs (fun _ => rfl) ok ?_
  simp only [hn]

/-- CRCS takes its polynomial as CRCP stands before the fetch. -/
theorem Chip.gives_crcs (hr : (s.fetch c).readM c o = .ok m t) (ho : o.inModes [0, 1, 2, 3, 4, 5] = true) :
    s.gives (.crcs c o) (((t.result c (crcs (t.core c).a m (s.core c).crcp.toNat,
      setZclrN (t.core c).st (crcs (t.core c).a m (s.core c).crcp.toNat))).postInc c o).finish c 1 none) := by
  intro q
  have h := Chip.alu_ok s c o allModes
    (fun a m st => (crcs a m (s.core c).crcp.toNat, setZclrN st (crcs a m (s.core c).crcp.toNat))) hs.1 hs.2 ho hr
  exact congrArg (State.after ⟨q, s⟩) h

theorem Chip.gives_multiply {i : Instr} (k : MulKind) (hi : ∀ q, exec i ⟨q, s⟩ = run (fun ch => ch.multiply c o k) ⟨q, s⟩)
    (hr : (s.fetch c).readM c o = .ok m t) (ho : o.inModes [0, 1, 2, 3, 4, 5] = true) :
    s.gives i (((t.setCore c ((t.core c).landDue.issue k m)).postInc c o).finish c 1 none) := by
  refine Chip.gives_instr hs hi ho ?_
  rw [hr]
  rfl

end

theorem Chip.gives_mulResultWrite (s : Chip) (c : Core) : s.gives (.mulResultWrite c) (s.opMulResultWrite c) := fun _ => rfl

/-- Settles O12: BREV's digits are those of A from the other end, and a product lands in the third cycle after its issue. -/
theorem unaryInstructions : Obligations.UnaryInstructions := by
  refine ⟨fun s c hs => ⟨?neg, ?not, fun n h1 h36 => ?brev, ?nop⟩, fun s t c o m hs hr ho => ⟨?crcs, ?par, ?mul, ?mulu, ?mac⟩,
    fun x e k m n hx => ⟨rfl, rfl, special_of_issued hx e k m n⟩, fun a m n acc => ⟨?signed, rfl, ?accumulated⟩,
    fun s c f l h => ?land, fun s c h => ?idle⟩
  case neg =>
    have h := Chip.gives_unary hs (i := .neg c ⟨0, false, 0⟩) (fun a st => subb 0 a false st) fun _ => rfl
    rwa [subb_zero_left] at h
  case not => exact Chip.gives_unary hs (fun a st => logic (~~~ a) st) fun _ => rfl
  case brev => exact ⟨_, fun i hi => getLsbD_brev _ n hi, Chip.gives_brev hs h1 h36⟩
  case nop => exact Chip.gives_instr hs (fun _ => rfl) rfl rfl
  case crcs => exact Chip.gives_crcs hs hr ho
  case par => exact Chip.gives_alu hs (fun a m st => (parity (a &&& m), setZclrN st (parity (a &&& m)))) (fun _ => rfl) hr ho
  case mul => exact Chip.gives_multiply hs .signed (fun _ => rfl) hr ho
  case mulu => exact Chip.gives_multiply hs .unsigned (fun _ => rfl) hr ho
  case mac => exact Chip.gives_multiply hs .mac (fun _ => rfl) hr ho
  case signed =>
    show (unsigned 72 (a.toInt * m.toInt) : Int) % 2 ^ 72 = _
    rw [unsigned_cast, Int.emod_emod]
  case accumulated =>
    show (((acc + unsigned 72 (a.toInt * m.toInt)) % 2 ^ 72 : Nat) : Int) = _
    rw [Int.natCast_emod, Int.natCast_add, unsigned_cast]
    exact Int.add_emod_emod ..
  case land =>
    have hg := s.gives_mulResultWrite c
    rwa [Chip.opMulResultWrite, h] at hg
  case idle =>
    have hg := s.gives_mulResultWrite c
    rwa [Chip.opMulResultWrite, h] at hg

end Sys2Proof.Machine
end

section
/-!
PROOFS. Branches, DBX, DBY, CALL and RET (R454, R483 to R485).
-/
namespace Sys2Proof.Machine

/-- Counting down to 0 and branching otherwise, by what the index was before. -/
theorem ite_count_down (x : BitVec 24) (f : BitVec 24 → Chip) (p q : Chip → Chip) :
    (if (x - 1 != 0) = true then p (f (x - 1)) else q (f (x - 1))) = if x = 1 then q (f 0) else p (f (x - 1)) := by
  by_cases h : x = 1
  · subst h
    rfl
  · have hne : x - 1 ≠ 0 := fun h0 => h (by simpa using BitVec.sub_eq_iff_eq_add.1 h0)
    rw [if_neg h, if_pos (bne_iff_ne.2 hne)]

section
variable {s t u : Chip} {c : Core} {o : Opnd} {a : BitVec 24} {i : Instr} (hs : s.ready c)
include hs

/-- An instruction whose fields are accepted and whose effect succeeds, with its cycles and its target. -/
theorem Chip.gives_next {ok : Bool} {n : Nat} {body : Chip → Acc Next} {x : Next}
    (hi : ∀ q, exec i ⟨q, s⟩ = run (fun ch => ch.instr c ok n body) ⟨q, s⟩) (hok : ok = true) (hb : body (s.fetch c) = .ok x t) :
    s.gives i (t.finish c (n + x.more) x.dest) := by
  intro q
  subst hok
  rw [hi, run_after, Chip.instr_ok s c n body hs.1 hs.2 hb]

/-- A branch to `a` where `yes`, in one more cycle. -/
theorem Chip.gives_branchIf {ok : Bool} {body : Chip → Acc Next} (yes : Bool)
    (hi : ∀ q, exec i ⟨q, s⟩ = run (fun ch => ch.instr c ok 1 body) ⟨q, s⟩) (hok : ok = true)
    (hb : body (s.fetch c) = branchIf yes a u) :
    s.gives i (if yes then u.finish c 2 (some a) else u.finish c 1 none) := by
  cases yes
  · exact Chip.gives_next (x := {}) hs hi hok hb
  · exact Chip.gives_next (x := { more := 1, dest := some a }) hs hi hok hb

variable (ho : o.inModes [0, 1, 2, 4] = true) (ha : (s.fetch c).target c o = .ok a t)
include ho ha

theorem Chip.gives_jcc (cc : BitVec 4) :
    s.gives (.jcc c cc o) (if condHolds cc.toNat (t.core c).st then t.finish c 2 (some a) else t.finish c 1 none) := by
  refine Chip.gives_branchIf hs _ (fun _ => rfl) ho ?_
  rw [ha]
  rfl

/-- DBX counts X down and branches while it is not 0. -/
theorem Chip.gives_dbx : s.gives (.dbx c o) (if (t.core c).x = 1 then (t.setCore c { t.core c with x := 0 }).finish c 1 none
    else (t.setCore c { t.core c with x := (t.core c).x - 1 }).finish c 2 (some a)) := by
  have h := Chip.gives_branchIf (i := .dbx c o) (u := t.setCore c { t.core c with x := (t.core c).x - 1 }) (a := a) hs
    ((t.core c).x - 1 != 0) (fun _ => rfl) ho (by rw [ha]; rfl)
  exact ite_count_down _ (fun z => t.setCore c { t.core c with x := z }) (·.finish c 2 (some a)) (·.finish c 1 none) ▸ h

/-- DBY counts Y down and branches while it is not 0. -/
theorem Chip.gives_dby : s.gives (.dby c o) (if (t.core c).y = 1 then (t.setCore c { t.core c with y := 0 }).finish c 1 none
    else (t.setCore c { t.core c with y := (t.core c).y - 1 }).finish c 2 (some a)) := by
  have h := Chip.gives_branchIf (i := .dby c o) (u := t.setCore c { t.core c with y := (t.core c).y - 1 }) (a := a) hs
    ((t.core c).y - 1 != 0) (fun _ => rfl) ho (by rw [ha]; rfl)
  exact ite_count_down _ (fun z => t.setCore c { t.core c with y := z }) (·.finish c 2 (some a)) (·.finish c 1 none) ▸ h

theorem Chip.gives_call (hp : t.push c (((t.core c).pc + 1).setWidth 36) = .ok () u) : s.gives (.call c o) (u.finish c 2 (some a)) := by
  refine Chip.gives_next (x := { dest := some a }) hs (fun _ => rfl) ho ?_
  rw [ha, Acc.andThen, hp]
  rfl

end

theorem Chip.gives_ret {s t : Chip} {c : Core} {w : Word} (hs : s.ready c) (hr : (s.fetch c).stackRead c ((s.fetch c).core c).sp = .ok w t) :
    s.gives (.ret c ⟨0, false, 0⟩) ((t.setCore c { t.core c with sp := ((s.fetch c).core c).sp + 1 }).finish c 2 (some (w.setWidth 24))) := by
  refine Chip.gives_next (x := { dest := some (w.setWidth 24) }) hs (fun _ => rfl) rfl ?_
  simp only [hr, Acc.andThen]

/-- Settles O16: each branch is `branchIf` at its target, and the table of conditions is that of R485. -/
theorem branchesComplete : Obligations.BranchesComplete := by
  refine ⟨fun s t c o a hs ho ha => ⟨Chip.gives_jcc hs ho ha, Chip.gives_dbx hs ho ha, Chip.gives_dby hs ho ha,
    fun u => Chip.gives_call hs ho ha⟩, fun s t c w hs => Chip.gives_ret hs, ?conditions⟩
  case conditions =>
    intro n st hn
    have equal : ∀ p q : Bool, (p == q) = !(p ^^ q) := by decide
    have unequal : ∀ p q : Bool, (p != q) = (p ^^ q) := by decide
    match n, hn with
    | 0, _ | 1, _ | 2, _ | 3, _ | 4, _ | 5, _ | 6, _ | 7, _ | 8, _ | 9, _ | 10, _ | 11, _ | 12, _ | 13, _ | 14, _ | 15, _ =>
      simp [condHolds, stBit, equal, unequal, Bool.not_or]
    | n + 16, hn => exact absurd hn (by omega)

end Sys2Proof.Machine
end

section
/-!
PROOFS. What a core sees of SRAM through its write buffer (R36), after a drain, a write and a push of its own.
-/
namespace Sys2Proof.Machine

/-! ### The newest write of a buffer -/

/-- The newest word that a buffer holds for an address. -/
def newestFor (l : List (Nat × Word)) (b : Nat) : Option Word := (l.reverse.find? (fun e => e.1 = b)).map Prod.snd

theorem CoreSt.buffered_eq (x : CoreSt) (b : Nat) : x.buffered b = newestFor x.wbuf b := rfl

@[simp] theorem newestFor_nil (b : Nat) : newestFor [] b = none := rfl

theorem newestFor_append (l : List (Nat × Word)) (a : Nat) (v : Word) (b : Nat) :
    newestFor (l ++ [(a, v)]) b = if b = a then some v else newestFor l b := by
  by_cases h : b = a
  · simp [newestFor, h]
  · simp [newestFor, h, Ne.symm h]

/-- The oldest write counts where no newer one has its address. -/
theorem newestFor_cons (k : Nat) (w : Word) (l : List (Nat × Word)) (b : Nat) :
    newestFor ((k, w) :: l) b = (newestFor l b).or (if b = k then some w else none) := by
  by_cases h : b = k
  · subst h
    simp [newestFor, List.find?_append]
    cases l.reverse.find? (fun e => decide (e.1 = b)) <;> rfl
  · simp [newestFor, List.find?_append, h, Ne.symm h]

theorem Chip.sees_eq (s : Chip) (c : Core) (b : Nat) : s.sees c b = (newestFor (s.core c).wbuf b).getD (s.rd b) := rfl

/-- A core sees the same in two chips where its buffer and SRAM are the same. -/
theorem Chip.sees_congr {s t : Chip} {c : Core} (hbuf : (t.core c).wbuf = (s.core c).wbuf) (hrd : ∀ b, t.rd b = s.rd b) (b : Nat) :
    t.sees c b = s.sees c b := by
  rw [Chip.sees_eq, Chip.sees_eq, hbuf, hrd]

theorem Chip.bufferOk_congr {s t : Chip} {c : Core} (hbuf : (t.core c).wbuf = (s.core c).wbuf) (h : s.bufferOk c) : t.bufferOk c := by
  rw [Chip.bufferOk, hbuf]
  exact h

/-! ### Draining -/

/-- The oldest write becomes visible to the others; to its own core it was. -/
theorem Chip.sees_drainOne {s : Chip} {c : Core} (h : s.bufferOk c) (b : Nat) : (s.drainOne c).sees c b = s.sees c b := by
  rcases hb : (s.core c).wbuf with _ | ⟨⟨k, w⟩, l⟩
  · rw [Chip.drainOne_nil hb]
  · have hk : isSram k = true := h.1 (k, w) (hb ▸ List.mem_cons_self)
    rw [Chip.sees_eq, Chip.core_drainOne hb, Chip.rd_drainOne hb, Chip.sees_eq, hb, newestFor_cons]
    cases newestFor l b with
    | some v => rfl
    | none => by_cases hbk : b = k <;> simp [hbk, hk]

theorem Chip.bufferOk_drainOne {s : Chip} {c : Core} (h : s.bufferOk c) : (s.drainOne c).bufferOk c := by
  rcases hb : (s.core c).wbuf with _ | ⟨⟨k, w⟩, l⟩
  · rwa [Chip.drainOne_nil hb]
  · rw [Chip.bufferOk, Chip.core_drainOne hb]
    exact ⟨fun e he => h.1 e (hb ▸ List.mem_cons_of_mem _ he), fun hc => absurd (h.2 hc) (by simp [hb])⟩

/-! ### A write of the core's own -/

/-- The chip in which a write of core `c` finds room: Badger's, and one whose full buffer has let its oldest write go. -/
def Chip.bufferRoom (s : Chip) (c : Core) : Chip :=
  if c ≠ .badger ∧ 4 ≤ (s.core c).wbuf.length then (s.drainOne c).waitFree c else s

theorem Chip.memPath_fox {s : Chip} {c : Core} (hc : c ≠ .badger) (a : Nat) (v : Word) :
    s.memPath c a v = (s.bufferRoom c).setCore c { (s.bufferRoom c).core c with wbuf := ((s.bufferRoom c).core c).wbuf ++ [(a, v)] } := by
  simp [Chip.memPath, Chip.bufferRoom, hc]

theorem Chip.sees_bufferRoom {s : Chip} {c : Core} (h : s.bufferOk c) (b : Nat) : (s.bufferRoom c).sees c b = s.sees c b := by
  unfold Chip.bufferRoom
  split
  · rw [← Chip.sees_drainOne h b]
    exact Chip.sees_congr (by rw [Chip.core_waitFree]) (fun b => Chip.rd_waitFree _ c b) b
  · rfl

theorem Chip.bufferOk_bufferRoom {s : Chip} {c : Core} (h : s.bufferOk c) : (s.bufferRoom c).bufferOk c := by
  unfold Chip.bufferRoom
  split
  · exact Chip.bufferOk_congr (by rw [Chip.core_waitFree]) (Chip.bufferOk_drainOne h)
  · exact h

/-- A core sees its own write at its address, and everything else as before. -/
theorem Chip.sees_memPath {s : Chip} {c : Core} (h : s.bufferOk c) {a : Nat} (ha : isSram a = true) (v : Word) (b : Nat) :
    (s.memPath c a v).sees c b = if b = a then v else s.sees c b := by
  by_cases hc : c = .badger
  · subst hc
    have hbuf : ((s.memPath .badger a v).core .badger).wbuf = [] := by
      rw [Chip.memPath_badger, Chip.core_wr, Chip.access, Chip.core_addCyc, Chip.core_bankTake]
      exact h.2 rfl
    have hrd : (s.access .badger a).rd b = s.rd b := by simp [Chip.access]
    rw [Chip.sees_eq, Chip.sees_eq, hbuf, h.2 rfl, Chip.memPath_badger, Chip.rd_wr _ a b v ha, hrd]
    rfl
  · rw [← Chip.sees_bufferRoom h b, Chip.memPath_fox hc, Chip.sees_eq, Chip.core_setCore_self, Chip.rd_setCore, newestFor_append,
      Chip.sees_eq]
    by_cases hb : b = a <;> simp [hb]

theorem Chip.bufferOk_memPath {s : Chip} {c : Core} (h : s.bufferOk c) {a : Nat} (ha : isSram a = true) (v : Word) :
    (s.memPath c a v).bufferOk c := by
  by_cases hc : c = .badger
  · subst hc
    refine Chip.bufferOk_congr ?_ h
    rw [Chip.memPath_badger, Chip.core_wr, Chip.access, Chip.core_addCyc, Chip.core_bankTake]
  · rw [Chip.memPath_fox hc, Chip.bufferOk, Chip.core_setCore_self]
    refine ⟨fun e he => ?_, fun hb => absurd hb hc⟩
    obtain he | rfl := List.mem_append.1 he |>.imp_right List.mem_singleton.1
    · exact (Chip.bufferOk_bufferRoom h).1 e he
    · exact ha

/-- Of its own core a write changes the buffer, and the cycles that it waits. -/
theorem Chip.core_memPath (s : Chip) (c : Core) (a : Nat) (v : Word) :
    ∃ l n, (s.memPath c a v).core c = { s.core c with wbuf := l, cyc := n } := by
  by_cases hc : c = .badger
  · subst hc
    rw [Chip.memPath_badger, Chip.core_wr, Chip.access, Chip.core_addCyc, Chip.core_bankTake]
    exact ⟨_, _, rfl⟩
  · rw [Chip.memPath_fox hc, Chip.core_setCore_self, Chip.bufferRoom]
    split
    · rw [Chip.core_waitFree]
      rcases hb : (s.core c).wbuf with _ | ⟨⟨k, w⟩, l⟩
      · rw [Chip.drainOne_nil hb]
        exact ⟨_, _, rfl⟩
      · rw [Chip.core_drainOne hb]
        exact ⟨_, _, rfl⟩
    · exact ⟨_, _, rfl⟩

end Sys2Proof.Machine
end

section
/-!
PROOFS. The entry of a trap or an interrupt (R455 to R458): the products in flight land, two words are pushed, and the core goes to
its vector; a push that fails leads to lockup.
-/
namespace Sys2Proof.Machine

/-! ### Products in flight -/

theorem CoreSt.land_eq (x : CoreSt) (f : Flight) : ∃ hi lo, x.land f = { x with mhi := hi, mlo := lo } := ⟨_, _, rfl⟩

/-- Landing every product changes MHI, MLO and the cycle count, and empties the pipeline. -/
theorem CoreSt.landAll_eq (x : CoreSt) : ∃ hi lo n, x.landAll = { x with flight := [], cyc := n, mhi := hi, mlo := lo } := by
  have landed : ∀ (l : List Flight) (y : CoreSt), ∃ hi lo, l.foldl CoreSt.land y = { y with mhi := hi, mlo := lo } := by
    intro l
    induction l with
    | nil => exact fun y => ⟨y.mhi, y.mlo, rfl⟩
    | cons f l ih =>
      intro y
      obtain ⟨hi, lo, h⟩ := ih (y.land f)
      exact ⟨hi, lo, h⟩
  obtain ⟨hi, lo, h⟩ := landed x.flight { x with flight := [], cyc := x.flight.foldl (fun t f => max t (f.cycle + 3)) x.cyc }
  exact ⟨hi, lo, _, h⟩

/-! ### A push -/

/-- A push of `v` by core `c` took the chip `s` to `u`. -/
structure Chip.Pushed (s : Chip) (c : Core) (v : Word) (u : Chip) : Prop where
  push : s.push c v = .ok () u
  core : ∃ l n, u.core c = { s.core c with sp := (s.core c).sp - 1, wbuf := l, cyc := n }
  sees : ∀ b, u.sees c b = if b = ((s.core c).sp - 1).toNat then v else s.sees c b
  buffer : u.bufferOk c
  same : s.SameBut c u

theorem Chip.exists_pushed {s : Chip} {c : Core} (h : s.bufferOk c) (hsp : isSram ((s.core c).sp - 1).toNat = true) (v : Word) :
    ∃ u, s.Pushed c v u := by
  refine ⟨_, Chip.push_ok hsp v, ?core, fun b => ?sees, ?buffer, (Chip.SameBut.memPath s _ v).trans (.setCore _ _)⟩
  case core =>
    obtain ⟨l, n, hm⟩ := s.core_memPath c ((s.core c).sp - 1).toNat v
    rw [Chip.core_setCore_self, hm]
    exact ⟨l, n, rfl⟩
  case sees =>
    rw [← Chip.sees_memPath h hsp v b]
    exact Chip.sees_congr (by rw [Chip.core_setCore_self]) (fun b => Chip.rd_setCore _ c _ b) b
  case buffer => exact Chip.bufferOk_congr (by rw [Chip.core_setCore_self]) (Chip.bufferOk_memPath h hsp v)

/-- `n` writes of core `c` wait for nothing: its buffer has room for them, and no other agent is on SRAM in this cycle where they
go straight to it. -/
def Chip.freeFor (s : Chip) (c : Core) (n : Nat) : Prop :=
  (c ≠ .badger → (s.core c).wbuf.length + n ≤ 4) ∧ (c = .badger → s.busAt = s.now → ∀ p ∈ s.busUse, p.1 = .badger)

/-- Badger finds its bank free, and leaves it to itself. -/
theorem Chip.bankTake_of_own {s : Chip} {a : Nat} (h : s.busAt = s.now → ∀ p ∈ s.busUse, p.1 = .badger) :
    (s.bankTake .badger a).1 = false
    ∧ ((s.bankTake .badger a).2.busAt = (s.bankTake .badger a).2.now → ∀ p ∈ (s.bankTake .badger a).2.busUse, p.1 = .badger) := by
  have own : ∀ p ∈ (if s.busAt = s.now then s.busUse else []), p.1 = Agent.badger := by
    split
    case isTrue hb => exact h hb
    case isFalse => exact fun p hp => absurd hp List.not_mem_nil
  unfold Chip.bankTake
  generalize (if s.busAt = s.now then s.busUse else []) = use at own
  split
  · exact ⟨rfl, h⟩
  · refine ⟨List.any_eq_false.2 fun p hp => by simp [own p hp], fun _ p hp => ?_⟩
    dsimp only at hp
    split at hp
    · exact own p hp
    · obtain rfl | hp := List.mem_cons.1 hp
      · rfl
      · exact own p hp

theorem Chip.memPath_of_free {s : Chip} {c : Core} {n : Nat} (h : s.freeFor c (n + 1)) {a : Nat} (ha : isSram a = true) (v : Word) :
    ((s.memPath c a v).core c).cyc = (s.core c).cyc ∧ (s.memPath c a v).freeFor c n := by
  by_cases hc : c = .badger
  · subst hc
    obtain ⟨quiet, own⟩ := Chip.bankTake_of_own (a := a) (h.2 rfl)
    rw [Chip.memPath_badger, Chip.freeFor]
    refine ⟨?_, fun hc => absurd rfl hc, fun _ => ?_⟩
    · rw [Chip.core_wr, Chip.access, Chip.core_addCyc, Chip.core_bankTake, s.waitOf_sram .badger ha]
      simp [Core.agent, quiet]
    · simpa [Chip.access, Chip.addCyc, Core.agent] using own
  · have room : (s.core c).wbuf.length < 4 := by have := h.1 hc; omega
    rw [Chip.memPath_room hc room, Chip.freeFor, Chip.core_setCore_self]
    refine ⟨rfl, fun _ => ?_, fun hb => absurd hb hc⟩
    have := h.1 hc
    simp only [List.length_append, List.length_cons, List.length_nil]
    omega

theorem Chip.Pushed.free {s u : Chip} {c : Core} {v : Word} {n : Nat} (hp : s.Pushed c v u)
    (hsp : isSram ((s.core c).sp - 1).toNat = true) (h : s.freeFor c (n + 1)) : (u.core c).cyc = (s.core c).cyc ∧ u.freeFor c n := by
  obtain ⟨cyc, free⟩ := Chip.memPath_of_free h hsp v
  have hu := (Chip.push_ok hsp v).symm.trans hp.push
  injection hu with _ hu
  subst hu
  refine ⟨by rw [Chip.core_setCore_self, cyc], ?_, ?_⟩
  · intro hc
    rw [Chip.core_setCore_self]
    exact free.1 hc
  · intro hc
    simpa using free.2 hc

/-! ### The frame -/

theorem Chip.pushFrame_ok {s t u : Chip} {c : Core} {st pc : Word} (h1 : s.push c st = .ok () t) (h2 : t.push c pc = .ok () u) :
    s.pushFrame c st pc = (true, u) := by simp only [Chip.pushFrame, h1, h2]

theorem Chip.pushFrame_trap_second {s t u : Chip} {c : Core} {st pc : Word} {x : Trap} (h1 : s.push c st = .ok () t)
    (h2 : t.push c pc = .trap x u) : s.pushFrame c st pc = (false, u.lockup c x.data x.addr) := by simp only [Chip.pushFrame, h1, h2]

theorem Chip.pushFrame_trap_first {s t : Chip} {c : Core} {st pc : Word} {x : Trap} (h : s.push c st = .trap x t) :
    s.pushFrame c st pc = (false, t.lockup c x.data x.addr) := by simp only [Chip.pushFrame, h]

/-! ### The vector -/

/-- The core as it pushes the frame: every product has landed, and a stack fault starts a new stack (R455). -/
def Chip.entryCore (s : Chip) (c : Core) (vec : Nat) : CoreSt :=
  if vec = 4 then { (s.core c).landAll with sp := 0x050000#24 } else (s.core c).landAll

theorem Chip.entryCore_eq (s : Chip) (c : Core) (vec : Nat) :
    ∃ hi lo n sp, s.entryCore c vec = { s.core c with flight := [], cyc := n, mhi := hi, mlo := lo, sp := sp }
      ∧ (vec ≠ 4 → sp = (s.core c).sp) := by
  obtain ⟨hi, lo, n, h⟩ := (s.core c).landAll_eq
  unfold Chip.entryCore
  rw [h]
  split
  case isTrue h4 => exact ⟨hi, lo, n, _, rfl, fun hn => absurd h4 hn⟩
  case isFalse => exact ⟨hi, lo, n, _, rfl, fun _ => rfl⟩

/-- The core once the frame is pushed, at vector `vec` for trap `t` or for an interrupt. -/
def CoreSt.atVector (x : CoreSt) (vec : Nat) (t : Option Trap) : CoreSt :=
  let st := stSet x.st St.IE false
  let y := match t with
    | none => { x with st := st }
    | some t => { x with st := stSet st St.TH true, tcause := BitVec.ofNat 9 (t.data.toNat * 256 + t.cause), taddr := t.addr }
  ({ y with pc := x.vbr + BitVec.ofNat 24 vec, cyc := x.cyc + 4, seqNext := false, lastCyc := 4,
            badDec := false :: x.badDec, prefetch := [] } : CoreSt).romVector vec

/-- The chip as the frame is pushed. -/
theorem Chip.entryChip_eq (s : Chip) (c : Core) (vec : Nat) :
    (if vec = 4 then (s.setCore c (s.core c).landAll).setCore c { (s.setCore c (s.core c).landAll).core c with sp := 0x050000#24 }
      else s.setCore c (s.core c).landAll) = s.setCore c (s.entryCore c vec) := by
  unfold Chip.entryCore
  split
  · rw [Chip.core_setCore_self, Chip.setCore_setCore]
  · rfl

section
variable {s u : Chip} {c : Core} {vec : Nat} {pc : BitVec 24} {b : Bool}
  (h : (s.setCore c (s.entryCore c vec)).pushFrame c (s.entryCore c vec).st (pc.setWidth 36) = (b, u))
include h

theorem Chip.enterVector_fault (hb : b = false) (t : Option Trap) : s.enterVector c vec pc t = u := by
  subst hb
  unfold Chip.enterVector
  dsimp only
  rw [Chip.entryChip_eq, Chip.core_setCore_self, h]

theorem Chip.enterVector_frame (hb : b = true) (t : Option Trap) :
    s.enterVector c vec pc t = u.setCore c ((u.core c).atVector vec t) := by
  subst hb
  unfold Chip.enterVector
  dsimp only
  rw [Chip.entryChip_eq, Chip.core_setCore_self, h]
  rfl

end

end Sys2Proof.Machine
end

section
/-!
PROOFS. The frame of an entry, pushed whole, or stopped at its first or its second word (R456, R458).
-/
namespace Sys2Proof.Machine

/-! ### Lockup -/

theorem Chip.core_lockup (s : Chip) (c : Core) (data : Bool) (addr : BitVec 24) : (s.lockup c data addr).core c =
    { s.core c with tcause := BitVec.ofNat 9 (data.toNat * 256 + 0xB6), taddr := addr, run := .lockup } := s.core_setCore_self c _

theorem Chip.sees_lockup (s : Chip) (c : Core) (data : Bool) (addr : BitVec 24) (b : Nat) : (s.lockup c data addr).sees c b = s.sees c b :=
  Chip.sees_congr (by rw [Chip.core_setCore_self]) (fun b => s.rd_setCore c _ b) b

/-- TCAUSE in a lockup that a push led to (R458). -/
theorem lockup_tcause_data : BitVec.ofNat 9 (true.toNat * 256 + 0xB6) = 0x1B6#9 := by decide

/-! ### The two words -/

/-- Core `c`, as `x`, pushed `st` and then `pc` from the chip `s`: the chip is then `u`. -/
structure Chip.Framed (s : Chip) (c : Core) (x : CoreSt) (st pc : Word) (u : Chip) : Prop where
  pushed : (s.setCore c x).pushFrame c st pc = (true, u)
  core : ∃ l n, u.core c = { x with sp := x.sp - 2, wbuf := l, cyc := n }
  sees : ∀ b, u.sees c b = if b = (x.sp - 2).toNat then pc else if b = (x.sp - 1).toNat then st else s.sees c b
  same : s.SameBut c u
  free : (s.setCore c x).freeFor c 2 → (u.core c).cyc = x.cyc

/-- The first word was pushed and the second was not: the core is in lockup, SP one word down. -/
structure Chip.HalfFramed (s : Chip) (c : Core) (x : CoreSt) (st pc : Word) (u : Chip) : Prop where
  pushed : (s.setCore c x).pushFrame c st pc = (false, u)
  core : ∃ l n, u.core c = { x with sp := x.sp - 1, wbuf := l, cyc := n, tcause := 0x1B6#9, taddr := x.sp - 1, run := .lockup }
  sees : ∀ b, u.sees c b = if b = (x.sp - 1).toNat then st else s.sees c b

section
variable {s : Chip} {c : Core} {x : CoreSt} (hbuf : s.bufferOk c) (hw : x.wbuf = (s.core c).wbuf)
  (h1 : isSram (x.sp - 1).toNat = true) (st pc : Word)
include hbuf hw h1

/-- The first push, from the chip in which the core is `x`. -/
theorem Chip.exists_first_push : ∃ t, (s.setCore c x).Pushed c st t ∧ (t.core c).sp = x.sp - 1
    ∧ (∀ b, t.sees c b = if b = (x.sp - 1).toNat then st else s.sees c b) := by
  have buffer : (s.setCore c x).bufferOk c := Chip.bufferOk_congr (by rw [Chip.core_setCore_self, hw]) hbuf
  have stack : isSram (((s.setCore c x).core c).sp - 1).toNat = true := by rwa [Chip.core_setCore_self]
  have sees : ∀ b, (s.setCore c x).sees c b = s.sees c b :=
    Chip.sees_congr (by rw [Chip.core_setCore_self, hw]) fun b => Chip.rd_setCore s c x b
  obtain ⟨t, ht⟩ := Chip.exists_pushed buffer stack st
  obtain ⟨l, n, hcore⟩ := ht.core
  rw [Chip.core_setCore_self] at hcore
  refine ⟨t, ht, by rw [hcore], fun b => ?_⟩
  rw [ht.sees, Chip.core_setCore_self, sees]

theorem Chip.exists_framed (h2 : isSram (x.sp - 2).toNat = true) : ∃ u, s.Framed c x st pc u := by
  obtain ⟨t, ht, hsp, hsees⟩ := Chip.exists_first_push hbuf hw h1 st
  have hsp2 : (t.core c).sp - 1 = x.sp - 2 := by rw [hsp]; bv_omega
  obtain ⟨u, hu⟩ := Chip.exists_pushed ht.buffer (by rwa [hsp2]) pc
  refine ⟨u, Chip.pushFrame_ok ht.push hu.push, ?core, fun b => ?sees, (Chip.SameBut.setCore s x).trans (ht.same.trans hu.same),
    fun hfree => ?free⟩
  case core =>
    obtain ⟨l, n, hcore⟩ := hu.core
    obtain ⟨l', n', hcore'⟩ := ht.core
    rw [hsp2, hcore', Chip.core_setCore_self] at hcore
    exact ⟨l, n, hcore⟩
  case sees => rw [hu.sees, hsp2, hsees]
  case free =>
    obtain ⟨first, free⟩ := ht.free (by rwa [Chip.core_setCore_self]) hfree
    rw [(hu.free (by rwa [hsp2]) free).1, first, Chip.core_setCore_self]

theorem Chip.exists_halfFramed (h2 : isSram (x.sp - 2).toNat = false) : ∃ u, s.HalfFramed c x st pc u := by
  obtain ⟨t, ht, hsp, hsees⟩ := Chip.exists_first_push hbuf hw h1 st
  have hsp2 : (t.core c).sp - 1 = x.sp - 2 := by rw [hsp]; bv_omega
  refine ⟨_, Chip.pushFrame_trap_second ht.push (Chip.push_trap (by rwa [hsp2]) pc), ?core, fun b => ?sees⟩
  case core =>
    obtain ⟨l, n, hcore⟩ := ht.core
    rw [Chip.core_setCore_self] at hcore
    refine ⟨l, n, ?_⟩
    rw [Chip.core_lockup, lockup_tcause_data, hsp, hcore]
  case sees =>
    rw [Chip.sees_lockup, hsees]

end

/-! ### The core at its vector -/

/-- The addresses of the two words differ. -/
theorem frame_addresses_ne (sp : BitVec 24) : (sp - 1).toNat ≠ (sp - 2).toNat := by bv_omega

section
variable (x : CoreSt) (vec : Nat) (t : Option Trap)

theorem CoreSt.romVector_eq : x.romVector vec = { x with
    run := if x.vbr = 0x000040#24 then .lockup else x.run,
    tcause := if x.vbr = 0x000040#24 ∧ vec = 0 then 0xB6#9 else x.tcause } := by
  unfold CoreSt.romVector
  by_cases h : x.vbr = 0x000040#24
  · by_cases hv : vec = 0 <;> simp [h, hv]
  · simp [h]

theorem CoreSt.atVector_pc : (x.atVector vec t).pc = x.vbr + BitVec.ofNat 24 vec := by
  cases t <;> simp [CoreSt.atVector, CoreSt.romVector_eq]

theorem CoreSt.atVector_keeps : (x.atVector vec t).sp = x.sp ∧ (x.atVector vec t).a = x.a ∧ (x.atVector vec t).x = x.x
    ∧ (x.atVector vec t).y = x.y ∧ (x.atVector vec t).vbr = x.vbr ∧ (x.atVector vec t).wbuf = x.wbuf := by
  cases t <;> simp [CoreSt.atVector, CoreSt.romVector_eq]

theorem CoreSt.atVector_run : (x.atVector vec t).run = if x.vbr = 0x000040#24 then .lockup else x.run := by
  cases t <;> simp [CoreSt.atVector, CoreSt.romVector_eq]

theorem CoreSt.atVector_cyc : (x.atVector vec t).cyc = x.cyc + 4 := by cases t <;> simp [CoreSt.atVector, CoreSt.romVector_eq]

/-- What a trap leaves in ST, TCAUSE and TADDR. -/
theorem CoreSt.atVector_trap (t : Trap) (hv : vec ≠ 0) : (x.atVector vec (some t)).st = stSet (stSet x.st St.IE false) St.TH true
    ∧ (x.atVector vec (some t)).tcause = BitVec.ofNat 9 (t.data.toNat * 256 + t.cause) ∧ (x.atVector vec (some t)).taddr = t.addr := by
  simp [CoreSt.atVector, CoreSt.romVector_eq, hv]

/-- What an interrupt leaves in ST, TCAUSE and TADDR. -/
theorem CoreSt.atVector_interrupt : (x.atVector 0 none).st = stSet x.st St.IE false
    ∧ (x.atVector 0 none).tcause = (if x.vbr = 0x000040#24 then 0xB6#9 else x.tcause) ∧ (x.atVector 0 none).taddr = x.taddr := by
  simp [CoreSt.atVector, CoreSt.romVector_eq]

end

/-- The core's step to its vector is seen in its registers alone. -/
theorem Chip.sees_atVector (u : Chip) (c : Core) (vec : Nat) (t : Option Trap) (b : Nat) :
    (u.setCore c ((u.core c).atVector vec t)).sees c b = u.sees c b := by
  obtain ⟨-, -, -, -, -, hw⟩ := (u.core c).atVector_keeps vec t
  exact Chip.sees_congr (by rw [Chip.core_setCore_self, hw]) (fun b => Chip.rd_setCore _ c _ b) b

end Sys2Proof.Machine
end

section
/-!
PROOFS. Trap entry, lockup, TRAP, TRAPB and RETI (R455 to R458, R486).
-/
namespace Sys2Proof.Machine

/-! ### Trap entry -/

/-- The address that a trap saves: its own, or that of the next instruction. -/
def CoreSt.savedPc (x : CoreSt) (t : Trap) : BitVec 24 := if t.next then x.pc + 1 else x.pc

theorem Chip.freeFor_entry {s : Chip} {c : Core} {x : CoreSt} (hw : x.wbuf = (s.core c).wbuf) (hbus : s.busAt ≠ s.now)
    (hroom : (s.core c).wbuf.length ≤ 2) : (s.setCore c x).freeFor c 2 := by
  refine ⟨fun _ => ?_, fun _ h => ?_⟩
  · rw [Chip.core_setCore_self, hw]
    omega
  · rw [Chip.setCore_busAt, Chip.setCore_now] at h
    exact absurd h hbus

theorem Chip.entryCore_keeps (s : Chip) (c : Core) (vec : Nat) : (s.entryCore c vec).a = (s.core c).a
    ∧ (s.entryCore c vec).x = (s.core c).x ∧ (s.entryCore c vec).y = (s.core c).y ∧ (s.entryCore c vec).st = (s.core c).st
    ∧ (s.entryCore c vec).pc = (s.core c).pc ∧ (s.entryCore c vec).vbr = (s.core c).vbr ∧ (s.entryCore c vec).run = (s.core c).run
    ∧ (s.entryCore c vec).wbuf = (s.core c).wbuf := by
  obtain ⟨hi, lo, n, sp, heq, -⟩ := s.entryCore_eq c vec
  rw [heq]
  exact ⟨rfl, rfl, rfl, rfl, rfl, rfl, rfl, rfl⟩

/-- A trap with a stack for both words (R456). -/
theorem Chip.takeTrap_framed {s : Chip} {c : Core} {t : Trap} {x : CoreSt} (hth : stBit (s.core c).st St.TH = false)
    (hx : x = s.entryCore c t.vec) (hbuf : s.bufferOk c) (h1 : isSram (x.sp - 1).toNat = true) (h2 : isSram (x.sp - 2).toNat = true) :
    ∃ u, s.Framed c x (s.core c).st (((s.core c).savedPc t).setWidth 36) u
      ∧ s.takeTrap c t = u.setCore c ((u.core c).atVector t.vec (some t)) := by
  obtain ⟨hi, lo, n, sp, heq, -⟩ := s.entryCore_eq c t.vec
  subst hx
  have hst : (s.entryCore c t.vec).st = (s.core c).st := by rw [heq]
  obtain ⟨u, hu⟩ := Chip.exists_framed hbuf (by rw [heq]) h1 (s.core c).st (((s.core c).savedPc t).setWidth 36) h2
  refine ⟨u, hu, (s.takeTrap_enter c t hth).trans (Chip.enterVector_frame ?_ rfl (some t))⟩
  rw [hst]
  exact hu.pushed

theorem Chip.takeTrap_halfFramed {s : Chip} {c : Core} {t : Trap} {x : CoreSt} (hth : stBit (s.core c).st St.TH = false)
    (hx : x = s.entryCore c t.vec) (hbuf : s.bufferOk c) (h1 : isSram (x.sp - 1).toNat = true) (h2 : isSram (x.sp - 2).toNat = false) :
    s.HalfFramed c x (s.core c).st (((s.core c).savedPc t).setWidth 36) (s.takeTrap c t) := by
  obtain ⟨hi, lo, n, sp, heq, -⟩ := s.entryCore_eq c t.vec
  subst hx
  have hst : (s.entryCore c t.vec).st = (s.core c).st := by rw [heq]
  obtain ⟨u, hu⟩ := Chip.exists_halfFramed hbuf (by rw [heq]) h1 (s.core c).st (((s.core c).savedPc t).setWidth 36) h2
  have htake : s.takeTrap c t = u := by
    refine (s.takeTrap_enter c t hth).trans (Chip.enterVector_fault ?_ rfl (some t))
    rw [hst]
    exact hu.pushed
  rwa [htake]

/-- A trap with no stack for its first word: nothing is pushed (R458). -/
theorem Chip.takeTrap_unframed {s : Chip} {c : Core} {t : Trap} (hth : stBit (s.core c).st St.TH = false) (h4 : t.vec ≠ 4)
    (h1 : isSram ((s.core c).sp - 1).toNat = false) :
    s.takeTrap c t = (s.setCore c (s.entryCore c t.vec)).lockup c true (s.core c).sp := by
  obtain ⟨hi, lo, n, sp, heq, hsp⟩ := s.entryCore_eq c t.vec
  have stack : ((s.setCore c (s.entryCore c t.vec)).core c).sp = (s.core c).sp := by
    rw [Chip.core_setCore_self, heq]
    exact hsp h4
  have hpush := Chip.pushFrame_trap_first (pc := ((s.core c).savedPc t).setWidth 36)
    (Chip.push_trap (s := s.setCore c (s.entryCore c t.vec)) (c := c) (by rwa [stack]) (s.entryCore c t.vec).st)
  rw [stack] at hpush
  exact (s.takeTrap_enter c t hth).trans (Chip.enterVector_fault hpush rfl (some t))

/-! ### The instructions -/

@[simp] theorem Chip.setCore_core (s : Chip) (c : Core) : s.setCore c (s.core c) = s := by cases c <;> rfl

theorem Chip.undone_self (s : Chip) (c : Core) : s.undone c s = s := s.setCore_core c

/-- Of an instruction that traps the time alone stays (R453). -/
theorem Chip.undone_addCyc (s : Chip) (c : Core) (n : Nat) : s.undone c (s.addCyc c n) = s.addCyc c n := by
  cases c <;> rfl

section
variable {s : Chip} {c : Core} (hs : s.ready c)
include hs

/-- An instruction whose fields are accepted and whose effect traps. -/
theorem Chip.gives_trapping {i : Instr} {ok : Bool} {n : Nat} {body : Chip → Acc Next} {t : Trap} {u : Chip}
    (hi : ∀ q, exec i ⟨q, s⟩ = run (fun ch => ch.instr c ok n body) ⟨q, s⟩) (hok : ok = true) (hb : body (s.fetch c) = .trap t u) :
    s.gives i (((s.fetch c).undone c u).takeTrap c t) := by
  intro q
  subst hok
  rw [hi, run_after, Chip.instr_trap s c n body hs.1 hs.2 hb]

theorem Chip.gives_trap (n : BitVec 24) :
    s.gives (.trap c ⟨0, false, n⟩) (((s.fetch c).addCyc c 1).takeTrap c { vec := 6, cause := 0xB5, addr := n, next := true }) := by
  have h := Chip.gives_trapping hs (i := .trap c ⟨0, false, n⟩) (fun _ => rfl) rfl rfl
  rwa [Chip.undone_addCyc] at h

theorem Chip.gives_trapb (o : Opnd) :
    s.gives (.trapb c o) ((s.fetch c).takeTrap c { vec := 2, cause := 0xB1, addr := ((s.fetch c).core c).pc }) := by
  have h := Chip.gives_trapping hs (i := .trapb c o) (fun _ => rfl) rfl rfl
  rwa [Chip.undone_self] at h

theorem Chip.gives_reti {t u : Chip} {sp : BitVec 24} {w v : Word} (hsp : sp = ((s.fetch c).core c).sp) (h1 : isSram sp.toNat = true)
    (h2 : isSram (sp + 1).toNat = true) (hw : (s.fetch c).coreRead c sp = .ok w t) (hv : t.coreRead c (sp + 1) = .ok v u) :
    ∃ d : List Bool, s.gives (.reti c ⟨0, false, 0⟩)
      ((u.setCore c { u.core c with sp := sp + 2, st := v &&& 0x3FF7FF#36, badDec := d }).finish c 3 (some (w.setWidth 24))) := by
  subst hsp
  have first : (s.fetch c).stackRead c ((s.fetch c).core c).sp = .ok w t := (if_pos h1).trans hw
  have second : Chip.stackOk (((s.fetch c).core c).sp + 1) (((s.fetch c).core c).sp + 1)
      (t.coreRead c (((s.fetch c).core c).sp + 1)) t = .ok v u := (if_pos h2).trans hv
  refine ⟨if ((u.core c).badDec.drop 1).isEmpty then [false] else (u.core c).badDec.drop 1,
    Chip.gives_next (x := { dest := some (w.setWidth 24) }) hs (fun _ => rfl) rfl ?_⟩
  simp only [first, Acc.andThen, second]
  rfl

end

/-- Settles O17: the frame is pushed whole, to its first word, or not at all, and the core goes on from there. -/
theorem trapEntry : Obligations.TrapEntry := by
  refine ⟨⟨?entry, ?second, ?unframed⟩, fun s c n hs => Chip.gives_trap hs n, fun s c o hs => Chip.gives_trapb hs o,
    fun s t u c sp w v hs hsp => Chip.gives_reti hs hsp⟩
  case entry =>
    intro s c t u x hth hv1 _ hx hbuf h1 hu
    have hx : x = s.entryCore c t.vec := hx
    have hv0 : t.vec ≠ 0 := by omega
    obtain ⟨xa, xx, xy, xst, xpc, xvbr, xrun, xw⟩ := s.entryCore_keeps c t.vec
    rw [← hx] at xa xx xy xst xpc xvbr xrun xw
    subst hu
    refine ⟨fun h2 => ?_, fun h2 => ?_⟩
    · obtain ⟨v, hv, htake⟩ := Chip.takeTrap_framed hth hx hbuf h1 h2
      obtain ⟨l, m, hcore⟩ := hv.core
      obtain ⟨ksp, ka, kx, ky, kvbr, -⟩ := (v.core c).atVector_keeps t.vec (some t)
      obtain ⟨hst, hcause, haddr⟩ := (v.core c).atVector_trap t.vec t hv0
      have hsees : ∀ b, (s.takeTrap c t).sees c b = v.sees c b := by
        rw [htake]
        exact v.sees_atVector c t.vec (some t)
      have ucore : (s.takeTrap c t).core c = (v.core c).atVector t.vec (some t) := by rw [htake, Chip.core_setCore_self]
      have same : s.SameBut c (s.takeTrap c t) := by
        rw [htake]
        exact hv.same.trans (.setCore _ _)
      refine ⟨?_, ?_, ?_, ?_, fun b hb1 hb2 => ?_, ?_, ?_, ?_, ?_, ?_, ?_, ?_, ?_, same.core, same.regs, same.flash, fun hbus hroom => ?_⟩
      · rw [ucore, CoreSt.atVector_pc, hcore]
      · rw [ucore, ksp, hcore]
      · rw [hsees, hv.sees, if_neg (frame_addresses_ne x.sp), if_pos rfl]
      · rw [hsees, hv.sees, if_pos rfl, CoreSt.savedPc]
      · rw [hsees, hv.sees, if_neg hb2, if_neg hb1]
      · rw [ucore, hcause]
      · rw [ucore, haddr]
      · rw [ucore, hst, hcore, ← xst]
      · rw [ucore, ka, hcore, ← xa]
      · rw [ucore, kx, hcore, ← xx]
      · rw [ucore, ky, hcore, ← xy]
      · rw [ucore, kvbr, hcore, ← xvbr]
      · rw [ucore, CoreSt.atVector_run, hcore, ← xrun]
      · rw [ucore, CoreSt.atVector_cyc, hv.free (Chip.freeFor_entry xw hbus hroom)]
    · have half := Chip.takeTrap_halfFramed hth hx hbuf h1 h2
      obtain ⟨l, m, hcore⟩ := half.core
      rw [hcore]
      refine ⟨rfl, rfl, rfl, rfl, xst, xpc, ?_, fun b hb => ?_⟩
      · rw [half.sees, if_pos rfl]
      · rw [half.sees, if_neg hb]
  case second =>
    intro s c t hth
    rw [Chip.takeTrap_lockup s c t hth, Chip.lockup, Chip.core_setCore_self, Chip.setCore_setCore]
  case unframed =>
    intro s c t hth h4 h1
    obtain ⟨hi, lo, n, sp, heq, -⟩ := s.entryCore_eq c t.vec
    rw [Chip.takeTrap_unframed hth h4 h1, Chip.core_lockup, Chip.core_setCore_self, heq]
    exact ⟨rfl, lockup_tcause_data, rfl, rfl, by simp [Chip.lockup]⟩

end Sys2Proof.Machine
end

section
/-!
PROOFS. Interrupts and WAIT (R460, R461), the fences and XCHG (R36 to R38, R463, R464), and Badger's SLOTW and STAMP (R489, R491).
-/
namespace Sys2Proof.Machine

/-! ### Interrupts -/

theorem Chip.gives_interruptEntry_due {s : Chip} {c : Core} (hruns : s.coreRuns c = true) (hie : (s.core c).st.getLsbD St.IE = true)
    (hline : s.line c.cid = true) (hmul : ∀ t, (s.core c).lastMul = some t → t + 3 ≤ (s.core c).cyc) :
    s.gives (.interruptEntry c) (s.enterVector c 0 (s.core c).pc none) := by
  have hmul' : (s.core c).lastMul.all (fun t => decide (t + 3 ≤ (s.core c).cyc)) = true := by
    cases hlast : (s.core c).lastMul with
    | none => rfl
    | some t => exact decide_eq_true (hmul t hlast)
  have due : s.interruptDue c = true := by simp [Chip.interruptDue, hruns, stBit, hie, hline, hmul']
  intro q
  exact congrArg (State.after ⟨q, s⟩) (if_pos due)

theorem Chip.gives_interruptEntry_none {s : Chip} {c : Core} (h : (s.core c).st.getLsbD St.IE = false ∨ s.line c.cid = false) :
    s.gives (.interruptEntry c) s := by
  have due : s.interruptDue c = false := by rcases h with h | h <;> simp [Chip.interruptDue, stBit, h]
  intro q
  exact congrArg (State.after ⟨q, s⟩) (if_neg (Bool.eq_false_iff.1 due))

/-! ### WAIT -/

theorem Chip.gives_wait {s : Chip} {c : Core} (hs : s.ready c) :
    s.gives (.wait c ⟨0, false, 0⟩) (if (s.fetch c).line c.cid then (s.fetch c).finish c 1 none
      else ((s.fetch c).setCore c { (s.fetch c).core c with run := .wait }).finish c 1 none) := by
  have h := Chip.gives_instr hs (i := .wait c ⟨0, false, 0⟩) (fun _ => rfl) rfl rfl
  split
  case isTrue hl => rwa [if_pos hl] at h
  case isFalse hl => rwa [if_neg hl] at h

theorem Chip.gives_waitEnd (s : Chip) (c : Core) : s.gives (.waitEnd c) (s.endWait c) := fun _ => rfl

/-- The sources that target `t` presents are listed as ripe, and none is dropped. -/
theorem Chip.mem_ripen (s : Chip) (t : Nat) : (∀ n, 1 ≤ n → n ≤ 95 → s.presented t n = true → (t, n) ∈ (s.ripen t).icu.ripe)
    ∧ ∀ e ∈ s.icu.ripe, e ∈ (s.ripen t).icu.ripe := by
  refine ⟨fun n h1 h95 hp => ?_, fun e he => List.mem_append_right _ he⟩
  have listed : n ∈ sources := List.mem_map.2 ⟨n - 1, List.mem_range.2 (by omega), by omega⟩
  by_cases hr : (t, n) ∈ s.icu.ripe
  · exact List.mem_append_right _ hr
  · refine List.mem_append_left _ (List.mem_filter.2 ⟨List.mem_map.2 ⟨n, List.mem_filter.2 ⟨listed, hp⟩, rfl⟩, ?_⟩)
    simpa using hr

theorem Chip.endWait_runs {s : Chip} {c : Core} (hwait : (s.core c).run = .wait) (hst : s.pwr.st = .run) (hph : s.boot.ph ≠ .dead)
    (hhalt : (s.core c).halted = false) (hrate : s.coreRate c ≠ 0) (hline : s.line c.cid = true) (hpark : c = .foxA → s.ldr.parked = false) :
    s.endWait c = (s.ripen c.cid).setCore c { s.core c with run := .run } := by
  have park : (decide (c = .foxA) && s.ldr.parked) = false := by
    by_cases hc : c = .foxA
    · rw [hpark hc, Bool.and_false]
    · rw [decide_eq_false hc, Bool.false_and]
  refine if_pos ?_
  simp [hwait, hst, hph, hhalt, hrate, hline, -Bool.not_and, park]

theorem Chip.endWait_none {s : Chip} {c : Core} (h : (s.core c).run ≠ .wait ∨ s.line c.cid = false ∨ s.pwr.st ≠ .run
    ∨ s.boot.ph = .dead ∨ c = .foxA ∧ s.ldr.parked = true) : s.endWait c = s := by
  refine if_neg ?_
  rcases h with h | h | h | h | ⟨rfl, h⟩ <;> simp [h]

/-! ### The fences -/

/-- Every buffered write has taken its address, the newest of each counting. -/
theorem Chip.drained {c : Core} (l : List (Nat × Word)) (hl : ∀ e ∈ l, isSram e.1 = true) (r : List Nat) (hr : r.length = l.length)
    (s : Chip) (h : (s.core c).wbuf = l) : ((r.foldl (fun s _ => s.drainOne c) s).core c).wbuf = []
      ∧ ∀ b, (r.foldl (fun s _ => s.drainOne c) s).rd b = (newestFor l b).getD (s.rd b) := by
  induction l generalizing s r with
  | nil =>
    obtain rfl := List.length_eq_zero_iff.1 hr
    exact ⟨h, fun _ => rfl⟩
  | cons e l ih =>
    obtain ⟨k, w⟩ := e
    obtain ⟨x, r, rfl⟩ := List.exists_cons_of_length_pos (l := r) (by rw [hr]; exact Nat.succ_pos _)
    have hk : isSram k = true := hl (k, w) List.mem_cons_self
    obtain ⟨hbuf, hrd⟩ := ih (fun e he => hl e (List.mem_cons_of_mem _ he)) r (Nat.succ.inj hr) (s.drainOne c) (by rw [Chip.core_drainOne h])
    refine ⟨hbuf, fun b => ?_⟩
    rw [List.foldl_cons, hrd, Chip.rd_drainOne h, newestFor_cons]
    cases newestFor l b with
    | some v => rfl
    | none => by_cases hb : b = k <;> simp [hb, hk]

theorem Chip.drainAll_cons {s : Chip} {c : Core} (h : (s.core c).wbuf ≠ []) :
    s.drainAll c = ((List.range (s.core c).wbuf.length).foldl (fun s _ => s.drainOne c) s).waitFree c :=
  if_neg (by simpa using h)

/-- A fence makes every buffered write visible. -/
theorem Chip.drainAll_effect {s : Chip} {c : Core} (hne : (s.core c).wbuf ≠ []) (hl : ∀ e ∈ (s.core c).wbuf, isSram e.1 = true) :
    ((s.drainAll c).core c).wbuf = [] ∧ ∀ b, (s.drainAll c).rd b = ((s.core c).buffered b).getD (s.rd b) := by
  obtain ⟨hbuf, hrd⟩ := Chip.drained _ hl (List.range (s.core c).wbuf.length) List.length_range s rfl
  rw [Chip.drainAll_cons hne]
  refine ⟨by rw [Chip.core_waitFree, hbuf], fun b => ?_⟩
  rw [Chip.rd_waitFree, hrd]
  rfl

theorem Chip.gives_fence {s : Chip} {c : Core} (hs : s.ready c) : s.gives (.fence c ⟨0, false, 0⟩)
    ((((s.fetch c).drainAll c).setCore c { ((s.fetch c).drainAll c).core c with prefetch := [] }).finish c (if c = .badger then 1 else 2) none) :=
  Chip.gives_instr hs (fun _ => rfl) rfl rfl

/-! ### XCHG -/

section
variable {s t u : Chip} {c : Core} {o : Opnd} {a : BitVec 24} {w : Word} (hs : s.ready c) (ho : o.inModes [1, 2, 3, 4] = true)
  (ha : (s.fetch c).effAddr c o = .ok a t)
include hs ho ha

theorem Chip.gives_xchg (h : isSram a.toNat = true) (hr : (t.drainAll c).coreRead c a = .ok w u) :
    s.gives (.xchg c o) ((((u.wr a.toNat (u.core c).a).setCore c { (u.wr a.toNat (u.core c).a).core c with a := w, prefetch := [] }).postInc
      c o).finish c 3 none) := by
  refine Chip.gives_instr hs (fun _ => rfl) ho ?_
  simp [ha, Acc.andThen, h, hr]

/-- Outside SRAM there is nothing to exchange with (R463). -/
theorem Chip.gives_xchg_outside (h : isSram a.toNat = false) :
    s.gives (.xchg c o) (((s.fetch c).undone c t).takeTrap c { vec := 3, cause := 0xB2, addr := a, data := true }) := by
  refine Chip.gives_trapping hs (fun _ => rfl) ho ?_
  simp [ha, Acc.andThen, h]

end

/-! ### SLOTW -/

section
variable {s f : Chip} {k : Nat} (hs : s.ready .badger) (hk : k < 4) (hf : f = s.fetch .badger)
include hs hk hf

omit hs hf in
theorem slotw_class : (BitVec.ofNat 24 k).toNat = k := Nat.mod_eq_of_lt (by omega)

omit hs hf in
theorem slotw_fields : (Opnd.inModes ⟨0, false, BitVec.ofNat 24 k⟩ [0] && decide ((BitVec.ofNat 24 k).toNat < 4)
    && decide (Core.badger = .badger)) = true := by
  rw [slotw_class hk, decide_eq_true hk]
  rfl

/-- SLOTW with the engine off ends at once. -/
theorem Chip.gives_slotw_off (h : f.bit F.LNK_CTL_EN = false) : s.gives (.slotw .badger ⟨0, false, BitVec.ofNat 24 k⟩)
    ((f.setCore .badger { f.cores.badger with st := stSet f.cores.badger.st St.C true }).finish .badger 1 none) := by
  subst hf
  refine Chip.gives_instr hs (fun _ => rfl) (slotw_fields hk) ?_
  simp [h]
  rfl

/-- SLOTW at a boundary of its own cycle answers with the ASN. -/
theorem Chip.gives_slotw_now {n : Nat} (h : f.bit F.LNK_CTL_EN = true) (hnow : f.boundaryNow k = some n) :
    s.gives (.slotw .badger ⟨0, false, BitVec.ofNat 24 k⟩)
      ((f.setCore .badger { f.cores.badger with a := W n, st := stSet f.cores.badger.st St.C false }).finish .badger 1 none) := by
  subst hf
  refine Chip.gives_instr hs (fun _ => rfl) (slotw_fields hk) ?_
  simp [h, slotw_class hk, hnow]
  rfl

/-- Badger's line ends SLOTW at once where no boundary is due. -/
theorem Chip.gives_slotw_line (h : f.bit F.LNK_CTL_EN = true) (hnow : f.boundaryNow k = none) (hline : f.line 2 = true)
    (hdue : f.boundaryDue k = false) : s.gives (.slotw .badger ⟨0, false, BitVec.ofNat 24 k⟩)
      ((f.setCore .badger { f.cores.badger with st := stSet f.cores.badger.st St.C true }).finish .badger 1 none) := by
  subst hf
  refine Chip.gives_instr hs (fun _ => rfl) (slotw_fields hk) ?_
  simp [h, slotw_class hk, hnow, hline, hdue]
  rfl

/-- SLOTW waits for its class. -/
theorem Chip.gives_slotw_wait (h : f.bit F.LNK_CTL_EN = true) (hnow : f.boundaryNow k = none)
    (hwait : f.line 2 = false ∨ f.boundaryDue k = true) : s.gives (.slotw .badger ⟨0, false, BitVec.ofNat 24 k⟩)
      ((f.setCore .badger { f.cores.badger with run := .slotw k }).finish .badger 1 none) := by
  subst hf
  refine Chip.gives_instr hs (fun _ => rfl) (slotw_fields hk) ?_
  rcases hwait with hl | hd
  · simp [h, slotw_class hk, hnow, hl]
    rfl
  · simp [h, slotw_class hk, hnow, hd]
    rfl

end

/-- The last boundary of class `k` is `n`, and it falls in this cycle. -/
theorem Chip.boundaryNow_some {f : Chip} {k n : Nat} (hrun : f.lnk.running = true) (hn : f.lnk.nextB.getD k 0 = n + 1)
    (hat : f.boundaryAt k n = f.now) : f.boundaryNow k = some n := by
  simp [-List.getD_eq_getElem?_getD, Chip.boundaryNow, hrun, hn, hat]

theorem Chip.boundaryNow_none {f : Chip} {k n : Nat} (hn : n = f.lnk.nextB.getD k 0)
    (h : f.lnk.running = false ∨ n = 0 ∨ f.boundaryAt k (n - 1) ≠ f.now) : f.boundaryNow k = none := by
  subst hn
  refine if_neg ?_
  rcases h with h | h | h <;> simp [-List.getD_eq_getElem?_getD, h]

theorem Chip.boundaryDue_false {f : Chip} {k n : Nat} (hn : n = f.lnk.nextB.getD k 0)
    (h : f.lnk.running = false ∨ (f.now : Int) < f.boundaryAt k n) : f.boundaryDue k = false := by
  subst hn
  rcases h with h | h <;> simp [-List.getD_eq_getElem?_getD, Chip.boundaryDue, h]

theorem Chip.boundaryDue_true {f : Chip} {k n : Nat} (hn : n = f.lnk.nextB.getD k 0) (hrun : f.lnk.running = true)
    (h : f.boundaryAt k n ≤ f.now) : f.boundaryDue k = true := by
  subst hn
  simp [-List.getD_eq_getElem?_getD, Chip.boundaryDue, hrun, h]

/-! ### STAMP -/

theorem Chip.gives_stamp {s t u f : Chip} {o : Opnd} {a : BitVec 24} {p : Stamp} (hs : s.ready .badger) (ho : o.inModes [1, 2, 3, 4] = true)
    (hf : f = s.fetch .badger) (hp : p = f.owl.sample) (ha : f.effAddr .badger o = .ok a t)
    (hw : t.coreWrite .badger a (W (p.seq <<< 12 ||| p.fv.toNat <<< 11 ||| p.fine)) = .ok () u) :
    s.gives (.stamp .badger o) (((u.setCore .badger { u.cores.badger with a := W p.lo }).postInc .badger o).finish .badger 3 none) := by
  subst hf hp
  have ok : (o.inModes [1, 2, 3, 4] && decide (Core.badger = .badger)) = true := by rw [ho]; rfl
  refine Chip.gives_instr hs (fun _ => rfl) ok ?_
  simp only [ha, Acc.andThen, Stamp.words, List.getD_cons_succ, List.getD_cons_zero, hw]
  rfl

/-! ### Illegal forms -/

/-- Fields that an instruction does not accept trap as illegal. -/
theorem Chip.gives_illegal {s : Chip} {c : Core} {i : Instr} {ok : Bool} {n : Nat} {body : Chip → Acc Next} (hs : s.ready c)
    (hi : ∀ q, exec i ⟨q, s⟩ = run (fun ch => ch.instr c ok n body) ⟨q, s⟩) (hok : ok = false) :
    s.gives i ((s.fetch c).takeTrap c (illegalAt (s.core c).pc)) := by
  intro q
  subst hok
  rw [hi, run_after, Chip.instr_illegal s c n body hs.1 hs.2]

/-! ### The obligation -/

/-- What an interrupt leaves (R460): the frame as a trap's, TCAUSE and TADDR as they were. -/
theorem Chip.interrupt_framed {s u : Chip} {c : Core} {x : CoreSt} (hx : x = (s.core c).landAll) (hbuf : s.bufferOk c)
    (h1 : isSram (x.sp - 1).toNat = true) (h2 : isSram (x.sp - 2).toNat = true) (hu : u = s.enterVector c 0 x.pc none) :
    (u.core c).pc = x.vbr ∧ (u.core c).sp = x.sp - 2 ∧ (u.core c).st = stSet x.st St.IE false ∧ (u.core c).taddr = x.taddr
      ∧ (u.core c).tcause = (if x.vbr = 0x000040#24 then 0xB6#9 else x.tcause)
      ∧ (u.core c).run = (if x.vbr = 0x000040#24 then .lockup else x.run)
      ∧ u.sees c (x.sp - 1).toNat = x.st ∧ u.sees c (x.sp - 2).toNat = x.pc.setWidth 36
      ∧ ∀ b : Nat, b ≠ (x.sp - 1).toNat → b ≠ (x.sp - 2).toNat → u.sees c b = s.sees c b := by
  have hx : x = s.entryCore c 0 := hx
  obtain ⟨-, -, -, -, -, -, -, xw⟩ := s.entryCore_keeps c 0
  rw [← hx] at xw
  obtain ⟨v, hv⟩ := Chip.exists_framed hbuf xw h1 x.st (x.pc.setWidth 36) h2
  obtain ⟨l, m, hcore⟩ := hv.core
  have henter : u = v.setCore c ((v.core c).atVector 0 none) := by
    rw [hu]
    refine Chip.enterVector_frame ?_ rfl none
    rw [← hx]
    exact hv.pushed
  have ucore : u.core c = (v.core c).atVector 0 none := by rw [henter, Chip.core_setCore_self]
  have hsees : ∀ b, u.sees c b = v.sees c b := by
    rw [henter]
    exact v.sees_atVector c 0 none
  obtain ⟨ksp, -⟩ := (v.core c).atVector_keeps 0 none
  obtain ⟨hst, hcause, haddr⟩ := (v.core c).atVector_interrupt
  refine ⟨?_, ?_, ?_, ?_, ?_, ?_, ?_, ?_, fun b hb1 hb2 => ?_⟩
  · rw [ucore, CoreSt.atVector_pc, hcore]
    exact BitVec.add_zero _
  · rw [ucore, ksp, hcore]
  · rw [ucore, hst, hcore]
  · rw [ucore, haddr, hcore]
  · rw [ucore, hcause, hcore]
  · rw [ucore, CoreSt.atVector_run, hcore]
  · rw [hsees, hv.sees, if_neg (frame_addresses_ne x.sp), if_pos rfl]
  · rw [hsees, hv.sees, if_pos rfl]
  · rw [hsees, hv.sees, if_neg hb2, if_neg hb1]

theorem Chip.interrupt_halfFramed {s u : Chip} {c : Core} {x : CoreSt} (hx : x = (s.core c).landAll) (hbuf : s.bufferOk c)
    (h1 : isSram (x.sp - 1).toNat = true) (h2 : isSram (x.sp - 2).toNat = false) (hu : u = s.enterVector c 0 x.pc none) :
    (u.core c).run = .lockup ∧ (u.core c).tcause = 0x1B6#9 ∧ (u.core c).taddr = x.sp - 1 ∧ u.sees c (x.sp - 1).toNat = x.st := by
  have hx : x = s.entryCore c 0 := hx
  obtain ⟨-, -, -, -, -, -, -, xw⟩ := s.entryCore_keeps c 0
  rw [← hx] at xw
  obtain ⟨v, hv⟩ := Chip.exists_halfFramed hbuf xw h1 x.st (x.pc.setWidth 36) h2
  obtain ⟨l, m, hcore⟩ := hv.core
  have henter : u = v := by
    rw [hu]
    refine Chip.enterVector_fault ?_ rfl none
    rw [← hx]
    exact hv.pushed
  rw [henter, hcore, hv.sees, if_pos rfl]
  exact ⟨rfl, rfl, rfl, rfl⟩

/-- Settles O18: an interrupt pushes the frame that a trap does, and each instruction has its rule. -/
theorem interruptsAndWait : Obligations.InterruptsAndWait := by
  refine ⟨⟨fun s c => Chip.gives_interruptEntry_due, fun s c => Chip.gives_interruptEntry_none,
      fun s u c x hx hbuf h1 hu => ⟨fun h2 => Chip.interrupt_framed hx hbuf h1 h2 hu, fun h2 => Chip.interrupt_halfFramed hx hbuf h1 h2 hu⟩,
      fun s c => Chip.gives_wait, ?waitEnds, ?waitStays⟩,
    ?fences, fun s c => Chip.drainAll_nil, ?drained, fun s t u c o a w hs ho ha => ⟨Chip.gives_xchg hs ho ha, Chip.gives_xchg_outside hs ho ha⟩,
    ?slotw, fun s t u f o a p => Chip.gives_stamp, fun s c o hs hc => ⟨?slotwFox, ?stampFox⟩⟩
  case waitEnds =>
    intro s c hwait hst hph hhalt hrate hline hpark
    obtain ⟨presented, kept⟩ := s.mem_ripen c.cid
    refine ⟨(s.ripen c.cid).icu.ripe, presented, kept, ?_⟩
    have h := s.gives_waitEnd c
    rwa [Chip.endWait_runs hwait hst hph hhalt hrate hline hpark] at h
  case waitStays =>
    intro s c h
    have hg := s.gives_waitEnd c
    rwa [Chip.endWait_none h] at hg
  case fences =>
    rintro s f c hs rfl
    exact ⟨Chip.gives_fence hs, Chip.gives_instr hs (fun _ => rfl) rfl rfl, Chip.gives_instr hs (fun _ => rfl) rfl rfl⟩
  case drained =>
    rintro s c l hne rfl hl
    exact Chip.drainAll_effect hne hl
  case slotw =>
    rintro s f k o hs hk rfl hf
    refine ⟨Chip.gives_slotw_off hs hk hf, fun n h hrun hn hat => Chip.gives_slotw_now hs hk hf h (Chip.boundaryNow_some hrun hn hat),
      fun n h hn hnone => ⟨fun hline hdue => ?_, fun hwait => ?_⟩⟩
    · exact Chip.gives_slotw_line hs hk hf h (Chip.boundaryNow_none hn hnone) hline (Chip.boundaryDue_false hn hdue)
    · exact Chip.gives_slotw_wait hs hk hf h (Chip.boundaryNow_none hn hnone)
        (hwait.imp_right fun hd => Chip.boundaryDue_true hn hd.1 hd.2)
  case slotwFox => exact Chip.gives_illegal hs (fun _ => rfl) (by rw [decide_eq_false hc, Bool.and_false])
  case stampFox => exact Chip.gives_illegal hs (fun _ => rfl) (by rw [decide_eq_false hc, Bool.and_false])

end Sys2Proof.Machine
end

section
/-!
PROOFS. Words that break the field rules (R453, R469), fetches that trap (R455, R459), and cores that do not run.
-/
namespace Sys2Proof.Machine

/-! ### The field rules -/

/-- The fields that a J36 instruction accepts (R469): its modes, its index select, and the parts of the operand that must be 0. -/
def fieldsOk : Instr → Bool
  | .lda _ o | .push _ o | .add _ o | .adc _ o | .sub _ o | .sbc _ o | .cmp _ o | .and _ o | .or _ o | .xor _ o | .fadd _ o | .fsub _ o
  | .addd _ o | .subd _ o | .crcs _ o | .par _ o | .mul _ o | .mulu _ o | .mac _ o => o.inModes [0, 1, 2, 3, 4, 5]
  | .ldx _ o => o.inModes [0, 1, 2, 3, 4, 5] && !(o.mode = 3 && o.ixs = false)
  | .ldy _ o => o.inModes [0, 1, 2, 3, 4, 5] && !(o.mode = 3 && o.ixs = true)
  | .sta _ o | .stx _ o | .sty _ o | .pop _ o => o.inModes [1, 2, 3, 4, 5]
  | .leax _ o | .leay _ o => o.inModes [1, 2, 4]
  | .shl _ o | .shr _ o | .sha _ o | .rol _ o | .ror _ o | .fshl _ o | .fshr _ o => o.inModes [0, 1, 2, 3, 4]
  | .jcc _ _ o | .call _ o | .dbx _ o | .dby _ o => o.inModes [0, 1, 2, 4]
  | .xchg _ o => o.inModes [1, 2, 3, 4]
  | .stamp c o => o.inModes [1, 2, 3, 4] && c = .badger
  | .slotw c o => o.inModes [0] && o.opd.toNat < 4 && c = .badger
  | .movr _ o => o.inModes [0] && o.opd.toNat < 16 && bits o.opd.toNat 3 2 ≠ 3 && bits o.opd.toNat 1 0 ≠ 3
  | .d2b _ o | .b2d _ o => o.inModes [0] && o.opd.toNat < 2
  | .brev _ o => o.inModes [0] && 1 ≤ o.opd.toNat && o.opd.toNat ≤ 36
  | .trap _ o => o.inModes [0]
  | .neg _ o | .not _ o | .fneg _ o | .fabs _ o | .satn _ o | .dad _ o | .das _ o | .fpr _ o | .ret _ o | .reti _ o | .wait _ o | .fence _ o
  | .fencew _ o | .fenceio _ o | .nop _ o => o.isNone
  | _ => true

theorem Opnd.isNone_of_ne {o : Opnd} (h : o ≠ ⟨0, false, 0⟩) : o.isNone = false := by
  obtain ⟨m, i, d⟩ := o
  cases hn : Opnd.isNone ⟨m, i, d⟩ with
  | false => rfl
  | true =>
    refine absurd ?_ h
    simp only [Opnd.isNone, Bool.and_eq_true, Bool.not_eq_true', decide_eq_true_eq] at hn
    obtain ⟨⟨rfl, rfl⟩, rfl⟩ := hn
    rfl

/-! ### What every J36 instruction is -/

/-- A J36 instruction in the queue is that instruction executed by its core. -/
theorem exec_eq_runInstr {i : Instr} {op : BitVec 8} {c : Core} {o : Opnd} (h : j36Parts i = some (op, c, o)) (s : Chip) (q : List Instr) :
    exec i ⟨q, s⟩ = State.after ⟨q, s⟩ (s.runInstr i) := by
  unfold j36Parts at h
  split at h <;> first | rfl | exact absurd h (by simp)


/-- Every J36 instruction is its fetch, its field rule and its effect. -/
theorem Chip.runInstr_eq {i : Instr} {op : BitVec 8} {c : Core} {o : Opnd} (h : j36Parts i = some (op, c, o)) (s : Chip) :
    ∃ (n : Nat) (body : Chip → Acc Next), s.runInstr i = s.instr c (fieldsOk i) n body := by
  unfold j36Parts at h
  split at h
  case h_63 => exact absurd h (by simp)
  all_goals
    obtain ⟨-, rfl, rfl⟩ : _ ∧ _ = c ∧ _ = o := by simpa using h
    simp only [Chip.runInstr, fieldsOk, Chip.alu, Chip.unary, Chip.loadIndex, Chip.storeM, Chip.loadAddr, Chip.decFirst, Chip.decSecond,
    Chip.convert, Chip.multiply, allModes, shiftModes, branchModes, Chip.opLda, Chip.opSta, Chip.opLdx, Chip.opLdy, Chip.opStx,
    Chip.opSty, Chip.opLeax, Chip.opLeay, Chip.opPush, Chip.opPop, Chip.opMovr, Chip.opAdd, Chip.opAdc, Chip.opSub, Chip.opSbc,
    Chip.opCmp, Chip.opAnd, Chip.opOr, Chip.opXor, Chip.opNeg, Chip.opNot, Chip.opShl, Chip.opShr, Chip.opSha, Chip.opRol, Chip.opRor,
    Chip.opFadd, Chip.opFsub, Chip.opFneg, Chip.opFabs, Chip.opFshl, Chip.opFshr, Chip.opSatn, Chip.opAddd, Chip.opSubd, Chip.opDad,
    Chip.opDas, Chip.opD2b, Chip.opB2d, Chip.opCrcs, Chip.opPar, Chip.opBrev, Chip.opMul, Chip.opMulu, Chip.opMac, Chip.opFpr,
    Chip.opCall, Chip.opRet, Chip.opReti, Chip.opDbx, Chip.opDby, Chip.opTrap, Chip.opWait, Chip.opFence, Chip.opFencew,
    Chip.opFenceio, Chip.opXchg, Chip.opSlotw, Chip.opStamp, Chip.opNop, Chip.opTrapb, Chip.opJcc]
    exact ⟨_, _, rfl⟩
section
variable {s : Chip} {c : Core} {o : Opnd} {i : Instr} {op : BitVec 8} (hi : j36Parts i = some (op, c, o))
include hi

theorem Chip.gives_runInstr : s.gives i (s.runInstr i) := exec_eq_runInstr hi s

/-- Fields that the instruction does not accept trap as illegal. -/
theorem Chip.gives_refused (hs : s.ready c) (ho : fieldsOk i = false) : s.gives i ((s.fetch c).takeTrap c (illegalAt (s.core c).pc)) := by
  obtain ⟨n, body, h⟩ := Chip.runInstr_eq hi s
  rw [ho, Chip.instr_illegal s c n body hs.1 hs.2] at h
  exact h ▸ Chip.gives_runInstr hi

/-- A core that does not run executes nothing. -/
theorem Chip.gives_stopped (h : s.coreRuns c = false) : s.gives i s := by
  obtain ⟨n, body, hr⟩ := Chip.runInstr_eq hi s
  rw [Chip.instr_stopped s c _ n body h] at hr
  exact fun q => (exec_eq_runInstr hi s q).trans (congrArg _ hr)

/-- A fetch that traps takes its trap, whatever the instruction. -/
theorem Chip.gives_fetchTrap {t : Trap} (h : s.coreRuns c = true) (ht : s.fetchTrap c = some t) :
    s.gives i ((if t.vec = 3 then s else s.fetch c).takeTrap c t) := by
  obtain ⟨n, body, hr⟩ := Chip.runInstr_eq hi s
  rw [Chip.instr_fetchTrap s c _ n body h ht] at hr
  exact hr ▸ Chip.gives_runInstr hi

theorem Chip.gives_fetchTrap_refused {t : Trap} (h : s.coreRuns c = true) (ht : s.fetchTrap c = some t) (hv : t.vec = 3) :
    s.gives i (s.takeTrap c t) := by
  have hg := Chip.gives_fetchTrap hi h ht
  rwa [if_pos hv] at hg

theorem Chip.gives_fetchTrap_fetched {t : Trap} (h : s.coreRuns c = true) (ht : s.fetchTrap c = some t) (hv : t.vec ≠ 3) :
    s.gives i ((s.fetch c).takeTrap c t) := by
  have hg := Chip.gives_fetchTrap hi h ht
  rwa [if_neg hv] at hg

end

theorem Chip.coreRuns_false {s : Chip} {c : Core} (h : (s.core c).run ≠ .run ∨ (s.core c).halted = true) : s.coreRuns c = false := by
  rcases h with h | h <;> simp [Chip.coreRuns, CoreSt.runs, h]

/-! ### The traps of a fetch -/

section
variable {s : Chip} {c : Core} {n : Nat} (hn : n = (s.core c).pc.toNat) (hp : (s.core c).prefetched n = none)
include hn hp

theorem Chip.fetchTrap_refused (h : mayFetchAt n = false ∨ s.restrained n 31 = true) :
    s.fetchTrap c = some { vec := 3, cause := 0xB2, addr := (s.core c).pc } := by
  subst hn
  rcases h with h | h <;> simp [Chip.fetchTrap, hp, h]

theorem Chip.fetchTrap_busy (hm : mayFetchAt n = true) (hr : s.restrained n 31 = false) (hf : isFlash n = true) (hb : s.bankBusy n = true) :
    s.fetchTrap c = some { vec := 2, cause := 0xB1, addr := (s.core c).pc } := by
  subst hn
  simp [Chip.fetchTrap, hp, hm, hr, hf, hb]

theorem Chip.fetchTrap_ecc (hm : mayFetchAt n = true) (hr : s.restrained n 31 = false) (hb : isFlash n = false ∨ s.bankBusy n = false)
    (he : s.eccBad n = true) : s.fetchTrap c = some { vec := 5, cause := 0xB4, addr := (s.core c).pc } := by
  subst hn
  rcases hb with hb | hb <;> simp [Chip.fetchTrap, hp, hm, hr, hb, he]

end

/-! ### Special registers that do not exist -/

theorem Opnd.specialNo_gt {o : Opnd} (h : 9 < o.opd.toNat) : 9 < o.specialNo := by
  unfold Opnd.specialNo
  split <;> omega

theorem CoreSt.special_none (x : CoreSt) (c : Core) {k : Nat} (h : 9 < k) : x.special c k = none := by
  unfold CoreSt.special
  split
  case h_11 => rfl
  all_goals omega

theorem CoreSt.putSpecial_none (x : CoreSt) {k : Nat} (h : 9 < k) (v : Word) : x.putSpecial k v = none := by
  unfold CoreSt.putSpecial
  split
  case h_9 => rfl
  all_goals omega

section
variable {s : Chip} {c : Core} {o : Opnd} (hs : s.ready c) (hm : o.mode = 5) (hx : o.ixs = false) (hk : 9 < o.opd.toNat)
include hs hm hx hk

theorem Chip.gives_lda_noSpecial : s.gives (.lda c o) ((s.fetch c).takeTrap c (illegalAt ((s.fetch c).core c).pc)) := by
  have read : (s.fetch c).readM c o = .trap (illegalAt ((s.fetch c).core c).pc) (s.fetch c) := by
    simp [Chip.readM, hm, CoreSt.special_none _ _ (Opnd.specialNo_gt hk)]
  have h := Chip.gives_trapping hs (i := .lda c o) (fun _ => rfl) (by simp [Opnd.inModes, hm, hx]) (by rw [read]; rfl)
  rwa [Chip.undone_self] at h

theorem Chip.gives_sta_noSpecial : s.gives (.sta c o) ((s.fetch c).takeTrap c (illegalAt ((s.fetch c).core c).pc)) := by
  have write : (s.fetch c).writeM c o ((s.fetch c).core c).a = .trap (illegalAt ((s.fetch c).core c).pc) (s.fetch c) := by
    simp [Chip.writeM, hm, CoreSt.putSpecial_none _ (Opnd.specialNo_gt hk)]
  have h := Chip.gives_trapping hs (i := .sta c o) (fun _ => rfl) (by simp [Opnd.inModes, hm, hx]) (by rw [write]; rfl)
  rwa [Chip.undone_self] at h

end

/-! ### The obligation -/

/-- Settles O19: every J36 instruction is its fetch, its field rule and its effect, so the rules are refusals of the field rule. -/
theorem illegalForms : Obligations.IllegalForms := by
  unfold Obligations.IllegalForms
  refine ⟨fun s c o cc i hs h => ?_, fun s c o hs hm hx hk => ⟨Chip.gives_lda_noSpecial hs hm hx hk, Chip.gives_sta_noSpecial hs hm hx hk⟩,
    fun s c o i op n hi hn => ⟨fun h => Chip.gives_stopped hi (Chip.coreRuns_false h), fun hr hp => ⟨fun h => ?_, fun hm hl => ⟨fun hf hb => ?_, fun hb he => ?_⟩⟩⟩⟩
  · have refused : ∀ l : List Instr, i ∈ l → (∀ j ∈ l, ∃ op, j36Parts j = some (op, c, o) ∧ fieldsOk j = false) →
        s.gives i ((s.fetch c).takeTrap c (illegalAt (s.core c).pc)) := fun l hi hl =>
      have ⟨_, parts, fields⟩ := hl i hi
      Chip.gives_refused parts hs fields
    rcases h with ⟨ho, h⟩ | ⟨ho, h⟩ | ⟨ho, h⟩ | ⟨ho, h⟩ | ⟨ho, h⟩ | ⟨ho, h⟩ | ⟨ho, h⟩
    case inr.inr.inr.inr.inr.inr => exact refused _ h (by simp [j36Parts, fieldsOk, Opnd.isNone_of_ne ho])
    all_goals exact refused _ h (by simp [j36Parts, fieldsOk, ho])
  · exact Chip.gives_fetchTrap_refused hi hr (Chip.fetchTrap_refused hn hp h) rfl
  · exact Chip.gives_fetchTrap_fetched hi hr (Chip.fetchTrap_busy hn hp hm hl hf hb) (by simp)
  · exact Chip.gives_fetchTrap_fetched hi hr (Chip.fetchTrap_ecc hn hp hm hl hb he) (by simp)

end Sys2Proof.Machine
end

section
/-!
PROOFS. What the register instructions leave alone on an immediate operand (R474).
-/
namespace Sys2Proof.Machine

/-! ### What a fetch leaves alone -/

/-- What `d` shares with the chip `s` whose core `c` fetches: the stores, the registers but FLC_ECC where a flash word is corrected, and
every other core. -/
structure Chip.FetchFrame (s : Chip) (c : Core) (d : Chip) : Prop where
  reg : ∀ a, a ≠ R.FLC_ECC ∨ s.flashOneAt (s.core c).pc.toNat = false → d.reg a = s.reg a
  sram : d.sram = s.sram
  flash : d.flash = s.flash
  otp : d.otp = s.otp
  mirror : d.mirror = s.mirror
  owl : d.owl = s.owl
  bear : d.bear = s.bear
  icu : d.icu = s.icu
  core : ∀ e, e ≠ c → d.core e = s.core e

theorem Chip.FetchFrame.setCore {s d : Chip} {c : Core} (h : s.FetchFrame c d) (x : CoreSt) : s.FetchFrame c (d.setCore c x) := by
  obtain ⟨reg, sram, flash, otp, mirror, owl, bear, icu, core⟩ := h
  exact ⟨fun a ha => (d.reg_setCore c x a).trans (reg a ha), by simpa using sram, by simpa using flash, by simpa using otp, by simpa using mirror,
    by simpa using owl, by simpa using bear, by simpa using icu, fun e he => (d.core_setCore_ne x he).trans (core e he)⟩

theorem Chip.fetchFrame_fetchCorrect (s : Chip) (c : Core) : s.FetchFrame c (s.fetchCorrect c) ∧ (s.fetchCorrect c).cores = s.cores := by
  have same : s.FetchFrame c s := ⟨fun _ _ => rfl, rfl, rfl, rfl, rfl, rfl, rfl, rfl, fun _ _ => rfl⟩
  unfold Chip.fetchCorrect Chip.flashCorrect
  dsimp only
  split
  case isFalse => exact ⟨same, rfl⟩
  split
  case isFalse => exact ⟨same, rfl⟩
  case isTrue hone =>
    refine ⟨⟨fun a ha => ?_, by simp, by simp, by simp, by simp, by simp, by simp, by simp, fun e _ => by simp [Chip.core]⟩, by simp⟩
    have hne : a ≠ R.FLC_ECC := ha.resolve_right (by rw [hone]; simp)
    exact (Chip.reg_setFld_ne _ _ _ hne).trans (Chip.reg_setFld_ne _ _ _ hne)

theorem Chip.core_of_cores {s t : Chip} (h : t.cores = s.cores) (c : Core) : t.core c = s.core c := by
  cases c <;> simp only [Chip.core, h]

theorem Chip.reg_bankTake (s : Chip) (ag : Agent) (a b : Nat) : (s.bankTake ag a).2.reg b = s.reg b := by
  unfold Chip.bankTake
  split <;> rfl

/-- Before the core notes its wait and where the word came from, a fetch has corrected and taken a bank. -/
theorem Chip.fetch_eq (s : Chip) (c : Core) : ∃ n, s.fetch c = (((s.fetchCorrect c).bankTake c.agent (s.core c).pc.toNat).2.setCore c
    { s.core c with cyc := n, fromRom := isRom (s.core c).pc.toNat }) := by
  have core : ((s.fetchCorrect c).bankTake c.agent (s.core c).pc.toNat).2.core c = s.core c := by
    rw [Chip.core_bankTake, Chip.core_of_cores (s.fetchFrame_fetchCorrect c).2]
  simp only [Chip.fetch, Chip.addCyc, core, Chip.core_setCore_self, Chip.setCore_setCore]
  exact ⟨_, rfl⟩

theorem Chip.fetchFrame_fetch (s : Chip) (c : Core) : s.FetchFrame c (s.fetch c) := by
  obtain ⟨n, h⟩ := s.fetch_eq c
  obtain ⟨reg, sram, flash, otp, mirror, owl, bear, icu, core⟩ := (s.fetchFrame_fetchCorrect c).1
  rw [h]
  refine Chip.FetchFrame.setCore ⟨fun a ha => ?_, ?_, ?_, ?_, ?_, ?_, ?_, ?_, fun e he => (Chip.core_bankTake _ _ _ _).trans (core e he)⟩ _
  · exact (Chip.reg_bankTake _ _ _ a).trans (reg a ha)
  all_goals simp [*]

theorem Chip.core_fetch (s : Chip) (c : Core) : ∃ n b, (s.fetch c).core c = { s.core c with cyc := n, fromRom := b } := by
  obtain ⟨n, h⟩ := s.fetch_eq c
  exact ⟨n, _, by rw [h, Chip.core_setCore_self]⟩

/-! ### What an instruction does to its own core -/

theorem CoreSt.landDue_eq (x : CoreSt) : ∃ hi lo l, x.landDue = { x with mhi := hi, mlo := lo, flight := l } := by
  have landed : ∀ (l : List Flight) (y : CoreSt), ∃ hi lo f,
      l.foldl (fun y f => if f.cycle + 3 ≤ x.cyc then y.land f else { y with flight := y.flight ++ [f] }) y
        = { y with mhi := hi, mlo := lo, flight := f } := by
    intro l
    induction l with
    | nil => exact fun y => ⟨y.mhi, y.mlo, y.flight, rfl⟩
    | cons f l ih =>
      intro y
      rw [List.foldl_cons]
      split
      · obtain ⟨hi, lo, fl, h⟩ := ih (y.land f)
        exact ⟨hi, lo, fl, h⟩
      · obtain ⟨hi, lo, fl, h⟩ := ih { y with flight := y.flight ++ [f] }
        exact ⟨hi, lo, fl, h⟩
  obtain ⟨hi, lo, f, h⟩ := landed x.flight { x with flight := [] }
  exact ⟨hi, lo, f, h⟩

/-- What the register instruction `i` makes of its own core `p` at most: `q`. -/
structure CoreSt.Effect (i : Instr) (c : Core) (o : Opnd) (p q : CoreSt) : Prop where
  pc : q.pc = p.pc
  sp : q.sp = p.sp
  crcp : q.crcp = p.crcp
  vbr : q.vbr = p.vbr
  tcause : q.tcause = p.tcause
  taddr : q.taddr = p.taddr
  wbuf : q.wbuf = p.wbuf
  x : i ≠ .ldx c o → q.x = p.x
  y : i ≠ .ldy c o → q.y = p.y
  a : i ∈ [Instr.cmp c o, .ldx c o, .ldy c o, .mul c o, .mulu c o, .mac c o] → q.a = p.a
  st : i ∈ [Instr.ldx c o, .ldy c o, .mul c o, .mulu c o, .mac c o] → q.st = p.st
  flags : ∀ k, 7 ≤ k ∨ k = St.D → q.st.getLsbD k = p.st.getLsbD k

/-- The instruction completes in one cycle, and its effect is on its own core alone. -/
def Chip.staysInCore (s : Chip) (c : Core) (o : Opnd) (i : Instr) : Prop :=
  ∃ q, s.gives i (((s.fetch c).setCore c q).finish c 1 none) ∧ CoreSt.Effect i c o (s.core c) q

theorem Chip.readM_immediate (s : Chip) (c : Core) (n : BitVec 24) : s.readM c ⟨0, false, n⟩ = .ok (n.signExtend 36) s := rfl

/-- The flags that an operation on A, M and ST leaves alone: D, and IE and above. -/
def keepsFlags (r st : Word) : Prop := ∀ k, 7 ≤ k ∨ k = St.D → r.getLsbD k = st.getLsbD k

theorem keepsFlags_stSet {r st : Word} (h : keepsFlags r st) {i : Nat} (hi : i < 7) (hD : i ≠ St.D) (b : Bool) :
    keepsFlags (stSet r i b) st := by
  intro k hk
  rw [getLsbD_stSet _ _ _ (by omega), if_neg (by rintro rfl; exact hk.elim (by omega) hD)]
  exact h k hk

theorem keepsFlags_ite {p : Prop} [Decidable p] {r r' st : Word} (h : keepsFlags r st) (h' : keepsFlags r' st) :
    keepsFlags (if p then r else r') st := by
  split
  · exact h
  · exact h'

theorem keepsFlags_setNZ (st r : Word) : keepsFlags (setNZ st r) st :=
  keepsFlags_stSet (keepsFlags_stSet (fun _ _ => rfl) (by decide) (by decide) _) (by decide) (by decide) _

theorem keepsFlags_setZclrN (st r : Word) : keepsFlags (setZclrN st r) st :=
  keepsFlags_stSet (keepsFlags_stSet (fun _ _ => rfl) (by decide) (by decide) _) (by decide) (by decide) _

theorem keepsFlags_addc (a m : Word) (b : Bool) (st : Word) : keepsFlags (addc a m b st).2 st :=
  keepsFlags_stSet (keepsFlags_stSet (keepsFlags_setNZ _ _) (by decide) (by decide) _) (by decide) (by decide) _

theorem keepsFlags_subb (a m : Word) (b : Bool) (st : Word) : keepsFlags (subb a m b st).2 st :=
  keepsFlags_stSet (keepsFlags_stSet (keepsFlags_setNZ _ _) (by decide) (by decide) _) (by decide) (by decide) _

theorem keepsFlags_shifted (r : Word) (b : Bool) (k : Nat) (st : Word) : keepsFlags (shifted r b k st).2 st := by
  exact keepsFlags_ite (keepsFlags_setNZ _ _) (keepsFlags_stSet (i := St.C) (keepsFlags_setNZ _ _) (by decide) (by decide) _)

theorem keepsFlags_fracResult (n : Int) (k : Nat) (st : Word) : keepsFlags (fracResult n k st).2 st := by
  have frac : ∀ r g v, keepsFlags (stSet (stSet (setNZ st r) St.G g) St.V v) st := fun r g v =>
    keepsFlags_stSet (keepsFlags_stSet (keepsFlags_setNZ _ _) (by decide) (by decide) _) (by decide) (by decide) _
  exact keepsFlags_ite (frac _ _ _) (keepsFlags_stSet (i := St.S) (frac _ _ _) (by decide) (by decide) _)

section
variable {s : Chip} {c : Core} {n : BitVec 24} {i : Instr} (hs : s.ready c)
include hs

theorem Chip.staysInCore_alu {l : List Nat} {f : Word → Word → Word → Word × Word} (hl : Opnd.inModes ⟨0, false, n⟩ l = true)
    (hi : ∀ q, exec i ⟨q, s⟩ = State.after ⟨q, s⟩ (s.alu c ⟨0, false, n⟩ l f)) (hf : ∀ a m st, keepsFlags (f a m st).2 st)
    (ha : i = .cmp c ⟨0, false, n⟩ → ∀ a m st, (f a m st).1 = a)
    (ht : i ∉ [Instr.ldx c ⟨0, false, n⟩, .ldy c ⟨0, false, n⟩, .mul c ⟨0, false, n⟩, .mulu c ⟨0, false, n⟩, .mac c ⟨0, false, n⟩]) :
    s.staysInCore c ⟨0, false, n⟩ i := by
  obtain ⟨k, b, hc⟩ := s.core_fetch c
  have done := Chip.alu_ok s c ⟨0, false, n⟩ l f hs.1 hs.2 hl (Chip.readM_immediate (s.fetch c) c n)
  have ca : ((s.fetch c).core c).a = (s.core c).a := by rw [hc]
  have ct : ((s.fetch c).core c).st = (s.core c).st := by rw [hc]
  rw [ca, ct] at done
  generalize hr : f (s.core c).a (n.signExtend 36) (s.core c).st = r at done
  refine ⟨{ (s.fetch c).core c with a := r.1, st := r.2 }, fun q => (hi q).trans (congrArg (State.after ⟨q, s⟩) done), ?_⟩
  rw [hc]
  exact ⟨rfl, rfl, rfl, rfl, rfl, rfl, rfl, fun _ => rfl, fun _ => rfl,
    fun h => hr ▸ ha ((List.mem_cons.1 h).resolve_right ht) _ _ _, fun h => absurd h ht, hr ▸ hf _ _ _⟩

theorem Chip.staysInCore_multiply (k : MulKind) (hi : ∀ q, exec i ⟨q, s⟩ = run (fun ch => ch.multiply c ⟨0, false, n⟩ k) ⟨q, s⟩) :
    s.staysInCore c ⟨0, false, n⟩ i := by
  obtain ⟨cyc, b, hc⟩ := s.core_fetch c
  obtain ⟨hi', lo, l, hland⟩ := ((s.fetch c).core c).landDue_eq
  have done := Chip.gives_multiply hs k hi (Chip.readM_immediate (s.fetch c) c n) rfl
  rw [Chip.postInc_of_mode_ne _ c (o := ⟨0, false, n⟩) (by simp)] at done
  refine ⟨((s.fetch c).core c).landDue.issue k (n.signExtend 36), done, ?_⟩
  rw [hland, hc]
  exact ⟨rfl, rfl, rfl, rfl, rfl, rfl, rfl, fun _ => rfl, fun _ => rfl, fun _ => rfl, fun _ => rfl, fun _ _ => rfl⟩

theorem Chip.staysInCore_ldx : s.staysInCore c ⟨0, false, n⟩ (.ldx c ⟨0, false, n⟩) := by
  obtain ⟨cyc, b, hc⟩ := s.core_fetch c
  refine ⟨{ (s.fetch c).core c with x := (n.signExtend 36).setWidth 24 }, Chip.gives_ldx hs (Chip.readM_immediate (s.fetch c) c n) rfl (fun h => absurd h (by simp)), ?_⟩
  rw [hc]
  exact ⟨rfl, rfl, rfl, rfl, rfl, rfl, rfl, fun h => absurd rfl h, fun _ => rfl, fun _ => rfl, fun _ => rfl, fun _ _ => rfl⟩

theorem Chip.staysInCore_ldy : s.staysInCore c ⟨0, false, n⟩ (.ldy c ⟨0, false, n⟩) := by
  obtain ⟨cyc, b, hc⟩ := s.core_fetch c
  refine ⟨{ (s.fetch c).core c with y := (n.signExtend 36).setWidth 24 }, Chip.gives_ldy hs (Chip.readM_immediate (s.fetch c) c n) rfl (fun h => absurd h (by simp)), ?_⟩
  rw [hc]
  exact ⟨rfl, rfl, rfl, rfl, rfl, rfl, rfl, fun _ => rfl, fun h => absurd rfl h, fun _ => rfl, fun _ => rfl, fun _ _ => rfl⟩

end

/-- Every register instruction on an immediate operand completes, and its effect is on its own core alone. -/
theorem Chip.staysInCore_immediate {s : Chip} {c : Core} {n : BitVec 24} {o : Opnd} {i : Instr} (hs : s.ready c) (ho : o = ⟨0, false, n⟩)
    (hi : i ∈ [Instr.lda c o, .ldx c o, .ldy c o, .add c o, .adc c o, .sub c o, .sbc c o, .cmp c o, .and c o, .or c o, .xor c o, .shl c o,
      .shr c o, .sha c o, .rol c o, .ror c o, .fadd c o, .fsub c o, .fshl c o, .fshr c o, .crcs c o, .par c o, .mul c o, .mulu c o, .mac c o]) :
    s.staysInCore c o i := by
  subst ho
  simp only [List.mem_cons, List.not_mem_nil, or_false] at hi
  rcases hi with rfl | rfl | rfl | rfl | rfl | rfl | rfl | rfl | rfl | rfl | rfl | rfl | rfl | rfl | rfl | rfl | rfl | rfl | rfl | rfl | rfl
    | rfl | rfl | rfl | rfl
  · exact Chip.staysInCore_alu hs rfl (fun _ => rfl) (fun _ _ _ => keepsFlags_setNZ _ _) (by simp) (by simp)
  · exact Chip.staysInCore_ldx hs
  · exact Chip.staysInCore_ldy hs
  · exact Chip.staysInCore_alu hs rfl (fun _ => rfl) (fun _ _ _ => keepsFlags_addc _ _ _ _) (by simp) (by simp)
  · exact Chip.staysInCore_alu hs rfl (fun _ => rfl) (fun _ _ _ => keepsFlags_addc _ _ _ _) (by simp) (by simp)
  · exact Chip.staysInCore_alu hs rfl (fun _ => rfl) (fun _ _ _ => keepsFlags_subb _ _ _ _) (by simp) (by simp)
  · exact Chip.staysInCore_alu hs rfl (fun _ => rfl) (fun _ _ _ => keepsFlags_subb _ _ _ _) (by simp) (by simp)
  · exact Chip.staysInCore_alu hs rfl (fun _ => rfl) (fun _ _ _ => keepsFlags_subb _ _ _ _) (fun _ _ _ _ => rfl) (by simp)
  · exact Chip.staysInCore_alu hs rfl (fun _ => rfl) (fun _ _ _ => keepsFlags_setNZ _ _) (by simp) (by simp)
  · exact Chip.staysInCore_alu hs rfl (fun _ => rfl) (fun _ _ _ => keepsFlags_setNZ _ _) (by simp) (by simp)
  · exact Chip.staysInCore_alu hs rfl (fun _ => rfl) (fun _ _ _ => keepsFlags_setNZ _ _) (by simp) (by simp)
  · exact Chip.staysInCore_alu hs rfl (fun _ => rfl) (fun _ _ _ => keepsFlags_shifted _ _ _ _) (by simp) (by simp)
  · exact Chip.staysInCore_alu hs rfl (fun _ => rfl) (fun _ _ _ => keepsFlags_shifted _ _ _ _) (by simp) (by simp)
  · exact Chip.staysInCore_alu hs rfl (fun _ => rfl) (fun _ _ _ => keepsFlags_shifted _ _ _ _) (by simp) (by simp)
  · exact Chip.staysInCore_alu hs rfl (fun _ => rfl) (fun _ _ _ => keepsFlags_shifted _ _ _ _) (by simp) (by simp)
  · exact Chip.staysInCore_alu hs rfl (fun _ => rfl) (fun _ _ _ => keepsFlags_shifted _ _ _ _) (by simp) (by simp)
  · exact Chip.staysInCore_alu hs rfl (fun _ => rfl) (fun _ _ _ => keepsFlags_fracResult _ _ _) (by simp) (by simp)
  · exact Chip.staysInCore_alu hs rfl (fun _ => rfl) (fun _ _ _ => keepsFlags_fracResult _ _ _) (by simp) (by simp)
  · exact Chip.staysInCore_alu hs rfl (fun _ => rfl) (fun _ _ _ => keepsFlags_fracResult _ _ _) (by simp) (by simp)
  · exact Chip.staysInCore_alu hs rfl (fun _ => rfl) (fun _ _ _ => keepsFlags_fracResult _ _ _) (by simp) (by simp)
  · exact Chip.staysInCore_alu hs rfl (f := fun a m st => (crcs a m (s.core c).crcp.toNat, setZclrN st (crcs a m (s.core c).crcp.toNat)))
      (fun _ => rfl) (fun _ _ _ => keepsFlags_setZclrN _ _) (by simp) (by simp)
  · exact Chip.staysInCore_alu hs rfl (fun _ => rfl) (fun _ _ _ => keepsFlags_setZclrN _ _) (by simp) (by simp)
  · exact Chip.staysInCore_multiply hs .signed (fun _ => rfl)
  · exact Chip.staysInCore_multiply hs .unsigned (fun _ => rfl)
  · exact Chip.staysInCore_multiply hs .mac (fun _ => rfl)

/-- Settles O20: a register instruction is its fetch and an effect on its own core. -/
theorem registerInstructionFrame : Obligations.RegisterInstructionFrame := by
  intro s c n o i hs ho hi
  obtain ⟨q, hg, pc, sp, crcp, vbr, tcause, taddr, wbuf, x, y, a, st, flags⟩ := Chip.staysInCore_immediate hs ho hi
  have frame := ((s.fetchFrame_fetch c).setCore q).setCore
    { q with pc := q.pc + 1, cyc := q.cyc + 1, lastCyc := 1, seqNext := true, prefetch := ((s.fetch c).setCore c q).prefetchAt c (q.pc + 1) }
  obtain ⟨reg, sram, flash, otp, mirror, owl, bear, icu, core⟩ := frame
  refine ⟨_, hg, ?_⟩
  simp only [Chip.finish, Chip.core_setCore_self, Option.getD_none]
  refine ⟨reg, sram, flash, otp, mirror, owl, bear, icu, core, by rw [pc], sp, crcp, vbr, tcause, taddr, wbuf, x, y, a, st, flags⟩

end Sys2Proof.Machine
end

section
/-!
PROOFS. The calendar of R404 to R406: CAL_FROMSEC finds the year, the month and the day that a second count falls in, and CAL_TOSEC turns
them into that count again.
-/
namespace Sys2Proof.Machine

/-! ### Years -/

theorem yearStart_add (k : Nat) : yearStart (2000 + k) = 365 * k + (k + 3) / 4 - ((k + 99) / 100 - (k + 399) / 400) := by
  rw [yearStart, Nat.add_sub_cancel_left]

theorem yearStart_bounds (k : Nat) : 365 * k ≤ yearStart (2000 + k) ∧ yearStart (2000 + k) ≤ 366 * k
    ∧ 365 * k + (k + 3) / 4 ≤ yearStart (2000 + k) + (k + 99) / 100 := by
  have hundreds : (k + 399) / 400 ≤ (k + 99) / 100 := by omega
  have fours : (k + 99) / 100 ≤ (k + 3) / 4 := by omega
  have most : (k + 3) / 4 ≤ k := by omega
  rw [yearStart_add]
  omega

theorem yearStart_le_year {k day : Nat} (h : yearStart (2000 + k) ≤ day) (hd : day < 795365) : k ≤ 2177 := by
  obtain ⟨-, -, hb⟩ := yearStart_bounds k
  omega

/-- The search of CAL_FROMSEC for the year begins at or before the year, and at most six years before it. -/
theorem yearStart_search {day : Nat} (hd : day < 795365) :
    yearStart (2000 + day / 366) ≤ day ∧ day < yearStart (2000 + day / 366 + 6 + 1) := by
  obtain ⟨-, hlow, -⟩ := yearStart_bounds (day / 366)
  obtain ⟨hhigh, -, -⟩ := yearStart_bounds (day / 366 + 7)
  have seven : 2000 + day / 366 + 6 + 1 = 2000 + (day / 366 + 7) := by omega
  rw [seven]
  omega

theorem findYear_spec (day n : Nat) : ∀ y, yearStart y ≤ day → day < yearStart (y + n + 1) →
    y ≤ findYear n y day ∧ yearStart (findYear n y day) ≤ day ∧ day < yearStart (findYear n y day + 1) := by
  induction n with
  | zero => exact fun y h1 h2 => ⟨Nat.le_refl y, h1, h2⟩
  | succ n ih =>
    intro y h1 h2
    unfold findYear
    split
    case isTrue h =>
      obtain ⟨hy, hs⟩ := ih (y + 1) h (by rwa [Nat.add_right_comm y 1 n])
      exact ⟨Nat.le_of_succ_le hy, hs⟩
    case isFalse h => exact ⟨Nat.le_refl y, h1, Nat.lt_of_not_le h⟩

/-! ### Months -/

theorem monthStart_succ (y : Nat) {m : Nat} (hm : 1 ≤ m) : monthStart y (m + 1) = monthStart y m + monthDays y m := by
  obtain ⟨k, rfl⟩ := Nat.exists_eq_add_of_le' hm
  rw [monthStart, monthStart, Nat.add_sub_cancel, Nat.add_sub_cancel, List.range_succ, List.foldl_append]
  rfl

theorem monthStart_whole (y : Nat) : monthStart y 13 = 365 + (leapYear y).toNat := by
  have first : monthStart y 1 = 0 := rfl
  simp only [monthStart_succ, first, monthDays, Nat.reduceLeDiff]
  cases leapYear y <;> rfl

theorem toNat_leapYear (k : Nat) : (leapYear (2000 + k)).toNat = if k % 400 = 0 ∨ k % 4 = 0 ∧ k % 100 ≠ 0 then 1 else 0 := by
  have h : leapYear (2000 + k) = decide (k % 400 = 0 ∨ k % 4 = 0 ∧ k % 100 ≠ 0) := by
    rw [leapYear, Bool.eq_iff_iff]
    simp only [Bool.or_eq_true, Bool.and_eq_true, decide_eq_true_eq]
    omega
  rw [h]
  split <;> simp [*]

theorem ceil_succ (k : Nat) {n : Nat} (hn : 0 < n) : (k + 1 + (n - 1)) / n = (k + (n - 1)) / n + if k % n = 0 then 1 else 0 := by
  have up : k + (n - 1) + 1 = k + n := by omega
  rw [Nat.add_right_comm, Nat.succ_div, up]
  simp only [Nat.dvd_iff_mod_eq_zero, Nat.add_mod_right]

/-- The twelve months of a year take it from its first day to that of the next. -/
theorem monthStart_thirteen (k : Nat) : yearStart (2000 + k) + monthStart (2000 + k) 13 = yearStart (2000 + k + 1) := by
  have hundreds : (k + 399) / 400 ≤ (k + 99) / 100 := by omega
  have fours : (k + 99) / 100 ≤ (k + 3) / 4 := by omega
  have c400 : k % 400 = 0 → k % 100 = 0 := by omega
  have c100 : k % 100 = 0 → k % 4 = 0 := by omega
  have s400 : (k + 1 + 399) / 400 = _ := ceil_succ k (n := 400) (by decide)
  have s100 : (k + 1 + 99) / 100 = _ := ceil_succ k (n := 100) (by decide)
  have s4 : (k + 1 + 3) / 4 = _ := ceil_succ k (n := 4) (by decide)
  rw [monthStart_whole, toNat_leapYear, Nat.add_assoc 2000, yearStart_add, yearStart_add, s400, s100, s4]
  simp only [Nat.reduceSub]
  generalize (k + 399) / 400 = q400, (k + 99) / 100 = q100, (k + 3) / 4 = q4 at hundreds fours ⊢
  by_cases h400 : k % 400 = 0
  · simp only [h400, c400, c100, true_or, if_true]
    omega
  · by_cases h100 : k % 100 = 0 <;> by_cases h4 : k % 4 = 0 <;> simp [h400, h100, h4] at c100 ⊢ <;> omega

theorem findMonth_spec (y n : Nat) : ∀ m d, 1 ≤ m → monthStart y m + d < monthStart y (m + n + 1) →
    m ≤ (findMonth y n m d).1 ∧ (findMonth y n m d).1 ≤ m + n ∧ (findMonth y n m d).2 < monthDays y (findMonth y n m d).1
      ∧ monthStart y (findMonth y n m d).1 + (findMonth y n m d).2 = monthStart y m + d := by
  induction n with
  | zero =>
    intro m d hm h
    rw [Nat.add_zero, monthStart_succ y hm] at h
    exact ⟨Nat.le_refl m, Nat.le_refl m, Nat.lt_of_add_lt_add_left h, rfl⟩
  | succ n ih =>
    intro m d hm h
    unfold findMonth
    split
    case isTrue hd =>
      have step : monthStart y (m + 1) + (d - monthDays y m) = monthStart y m + d := by
        rw [monthStart_succ y hm, Nat.add_assoc, Nat.add_sub_cancel' hd]
      obtain ⟨h1, h2, h3, h4⟩ := ih (m + 1) (d - monthDays y m) (Nat.le_add_left 1 m) (by rwa [step, Nat.add_right_comm m 1 n])
      exact ⟨Nat.le_of_succ_le h1, by rwa [Nat.add_right_comm m 1 n] at h2, h3, h4.trans step⟩
    case isFalse hd => exact ⟨Nat.le_refl m, Nat.le_add_right m _, Nat.lt_of_not_le hd, rfl⟩

theorem monthDays_le (y m : Nat) : monthDays y m ≤ 31 := by
  unfold monthDays
  split
  case h_1 => split <;> decide
  all_goals decide

/-! ### The two words -/

theorem or_eq_add {a b : Nat} (n : Nat) (ha : 2 ^ n ∣ a) (hb : b < 2 ^ n) : a ||| b = a + b := by
  obtain ⟨k, rfl⟩ := ha
  rw [← Nat.two_pow_add_eq_or_of_lt hb]

theorem packDate {y m d : Nat} (hm : m < 2 ^ 4) (hd : d < 2 ^ 6) : y <<< 10 ||| m <<< 6 ||| d = y * 1024 + m * 64 + d := by
  simp only [Nat.shiftLeft_eq]
  have low : y * 2 ^ 10 ||| m * 2 ^ 6 = y * 2 ^ 10 + m * 2 ^ 6 := or_eq_add 10 (by omega) (by omega)
  rw [low, or_eq_add 6 (by omega) (by omega)] <;> omega

theorem packTime {w h m s : Nat} (hh : h < 2 ^ 5) (hm : m < 2 ^ 6) (hs : s < 2 ^ 6) :
    w <<< 17 ||| h <<< 12 ||| m <<< 6 ||| s = w * 131072 + h * 4096 + m * 64 + s := by
  simp only [Nat.shiftLeft_eq]
  have high : w * 2 ^ 17 ||| h * 2 ^ 12 = w * 2 ^ 17 + h * 2 ^ 12 := or_eq_add 17 (by omega) (by omega)
  have low : w * 2 ^ 17 + h * 2 ^ 12 ||| m * 2 ^ 6 = w * 2 ^ 17 + h * 2 ^ 12 + m * 2 ^ 6 := or_eq_add 12 (by omega) (by omega)
  rw [high, low, or_eq_add 6 (by omega) (by omega)] <;> omega

theorem bits_date {y m d : Nat} (hy : y < 16384) (hm : m < 16) (hd : d < 64) :
    bits (y * 1024 + m * 64 + d) 23 10 = y ∧ bits (y * 1024 + m * 64 + d) 9 6 = m ∧ bits (y * 1024 + m * 64 + d) 5 0 = d
      ∧ bits (y * 1024 + m * 64 + d) 35 24 = 0 := by
  simp only [bits, Nat.shiftRight_eq_div_pow, Nat.reduceAdd, Nat.reduceSub, Nat.reducePow]
  omega

theorem bits_time {w h n e : Nat} (hw : w < 8) (hh : h < 32) (hn : n < 64) (he : e < 64) :
    bits (w * 131072 + h * 4096 + n * 64 + e) 16 12 = h ∧ bits (w * 131072 + h * 4096 + n * 64 + e) 11 6 = n
      ∧ bits (w * 131072 + h * 4096 + n * 64 + e) 5 0 = e ∧ bits (w * 131072 + h * 4096 + n * 64 + e) 35 20 = 0 := by
  simp only [bits, Nat.shiftRight_eq_div_pow, Nat.reduceAdd, Nat.reduceSub, Nat.reducePow]
  omega

/-! ### Both ways -/

/-- CAL_FROMSEC's year, month and day for a day of the 2178 years that it covers. -/
theorem calFromSec_spec {t : Nat} (ht : t < 2 ^ 36) : ∃ k m d, k ≤ 2177 ∧ 1 ≤ m ∧ m ≤ 12 ∧ d < monthDays (2000 + k) m
    ∧ yearStart (2000 + k) + monthStart (2000 + k) m + d = t / 86400
    ∧ calFromSec t = ((2000 + k) * 1024 + m * 64 + (d + 1),
        (t / 86400 + 5) % 7 * 131072 + t % 86400 / 3600 * 4096 + t % 86400 / 60 % 60 * 64 + t % 86400 % 60) := by
  have hd : t / 86400 < 795365 := by omega
  obtain ⟨hfirst, hlast⟩ := yearStart_search hd
  obtain ⟨hy, hy1, hy2⟩ := findYear_spec _ 6 _ hfirst hlast
  generalize hyear : findYear 6 (2000 + t / 86400 / 366) (t / 86400) = y at hy hy1 hy2
  obtain ⟨k, rfl⟩ : ∃ k, y = 2000 + k := ⟨y - 2000, by omega⟩
  obtain ⟨hm1, hm12, hdays, hsum⟩ := findMonth_spec (2000 + k) 11 1 (t / 86400 - yearStart (2000 + k)) (Nat.le_refl 1) (by
    have whole := monthStart_thirteen k
    have first : monthStart (2000 + k) 1 = 0 := rfl
    change _ < monthStart (2000 + k) 13
    rw [first]
    omega)
  have first : monthStart (2000 + k) 1 = 0 := rfl
  generalize hmonth : findMonth (2000 + k) 11 1 (t / 86400 - yearStart (2000 + k)) = p at hm1 hm12 hdays hsum
  obtain ⟨m, d⟩ := p
  dsimp only at hm1 hm12 hdays hsum
  have hle := monthDays_le (2000 + k) m
  refine ⟨k, m, d, yearStart_le_year hy1 hd, hm1, hm12, hdays, ?_, ?_⟩
  · rw [first] at hsum
    omega
  · rw [calFromSec]
    simp only [Nat.sub_zero, hyear, hmonth]
    rw [packDate (by omega) (by omega), packTime (by omega) (by omega) (by omega)]

theorem calToSec_calFromSec {t : Nat} (ht : t < 2 ^ 36) : calToSec (calFromSec t).1 (calFromSec t).2 = (Rc.OK, t) := by
  obtain ⟨k, m, d, hk, hm1, hm12, hd, hday, h⟩ := calFromSec_spec ht
  have hle := monthDays_le (2000 + k) m
  rw [h]
  obtain ⟨fy, fm, fd, f0⟩ := bits_date (y := 2000 + k) (m := m) (d := d + 1) (by omega) (by omega) (by omega)
  obtain ⟨fh, fn, fe, f1⟩ := bits_time (w := (t / 86400 + 5) % 7) (h := t % 86400 / 3600) (n := t % 86400 / 60 % 60) (e := t % 86400 % 60)
    (by omega) (by omega) (by omega) (by omega)
  have sums : t / 86400 * 86400 + t % 86400 / 3600 * 3600 + t % 86400 / 60 % 60 * 60 + t % 86400 % 60 = t := by omega
  simp only [calToSec, fy, fm, fd, f0, fh, fn, fe, f1, Nat.add_sub_cancel, hday, sums]
  rw [if_neg (by omega), if_neg (by omega), if_neg (by omega), if_neg (by omega)]

end Sys2Proof.Machine
end

section
/-!
PROOFS. The calendar routines (R404 to R406): what a core finds when its routine has returned.
-/
namespace Sys2Proof.Machine

/-! ### The write buffer is empty when the routine begins -/

theorem Chip.core_drainOnes {c : Core} (r : List Nat) : ∀ s : Chip, r.length = (s.core c).wbuf.length →
    (r.foldl (fun s _ => s.drainOne c) s).core c = { s.core c with wbuf := [] } := by
  induction r with
  | nil =>
    intro s hl
    have hb : (s.core c).wbuf = [] := List.length_eq_zero_iff.1 hl.symm
    rw [List.foldl_nil, ← hb]
  | cons n r ih =>
    intro s hl
    match hb : (s.core c).wbuf with
    | [] => rw [hb] at hl; exact absurd hl (Nat.succ_ne_zero _)
    | (a, v) :: l =>
      have one : (s.drainOne c).core c = { s.core c with wbuf := l } := Chip.core_drainOne hb
      rw [List.foldl_cons, ih _ (by rw [one]; rw [hb] at hl; exact Nat.succ.inj hl), one]

theorem Chip.core_drainAll (s : Chip) (c : Core) : ∃ n, (s.drainAll c).core c = { s.core c with wbuf := [], cyc := n } := by
  cases hb : (s.core c).wbuf with
  | nil => exact ⟨(s.core c).cyc, by rw [Chip.drainAll_nil hb, ← hb]⟩
  | cons e l =>
    rw [Chip.drainAll_cons (by simp [hb]), Chip.core_waitFree, Chip.core_drainOnes _ s (by simp [hb])]
    exact ⟨_, rfl⟩

/-! ### Reading the return address -/

theorem Chip.sramBad_congr {s t : Chip} {a : Nat} (herr : t.sramErr.contains a = s.sramErr.contains a)
    (hfind : Cells.find a t.sram = Cells.find a s.sram) (hlost : t.sramLost = s.sramLost) : t.sramBad a = s.sramBad a := by
  rw [Chip.sramBad, Chip.sramBad, herr, hfind, hlost]

theorem Cells.find_setU_ne (l : Cells) {a b : Nat} (v : Word) (h : b ≠ a) : Cells.find b (Cells.setU l a v) = Cells.find b l := by
  rw [Cells.setU, Cells.find_put _ _ _ _ (Cells.find_drop_self a l), if_neg h, Cells.find_drop_ne h]

theorem Chip.sramBad_wr_ne (s : Chip) {a b : Nat} (v : Word) (h : b ≠ a) : (s.wr a v).sramBad b = s.sramBad b := by
  unfold Chip.wr
  split
  case isFalse => rfl
  case isTrue =>
    refine Chip.sramBad_congr ?_ (Cells.find_setU_ne _ v h) rfl
    rw [Bool.eq_iff_iff]
    simp [h]

theorem Chip.sramBad_access (s : Chip) (c : Core) (a b : Nat) : (s.access c a).sramBad b = s.sramBad b := by
  refine Chip.sramBad_congr ?_ ?_ ?_ <;> simp [Chip.access, Chip.addCyc]

theorem Chip.rd_access (s : Chip) (c : Core) (a b : Nat) : (s.access c a).rd b = s.rd b := by
  simp [Chip.access]

theorem Chip.core_access (s : Chip) (c : Core) (a : Nat) : ∃ n, (s.access c a).core c = { s.core c with cyc := n } := by
  rw [Chip.access, Chip.core_addCyc, Chip.core_bankTake]
  exact ⟨_, rfl⟩

/-- A pop of a core whose write buffer is empty reads SRAM after its wait. -/
theorem Chip.stackRead_sram {s : Chip} {c : Core} {sp : BitVec 24} (hb : (s.core c).wbuf = []) (hs : isSram sp.toNat = true)
    (hbad : s.sramBad sp.toNat = false) : s.stackRead c sp = .ok (s.rd sp.toNat) (s.access c sp.toNat) := by
  have range : 0x10000 ≤ sp.toNat ∧ sp.toNat < 0x50000 := by simpa [isSram] using hs
  have rom : isRom sp.toNat = false := by simp [isRom]; omega
  have otp : isOtp sp.toNat = false := by simp [isOtp]; omega
  have read : (s.access c sp.toNat).memRead c.agent (s.core c).fromRom sp.toNat = (.ok (s.rd sp.toNat), s.access c sp.toNat) := by
    simp [Chip.memRead, rom, hs, Chip.sramBad_access, hbad, Chip.rd_access]
  rw [Chip.stackRead, Chip.stackOk, if_pos hs]
  simp only [Chip.coreRead, CoreSt.buffered, hb, List.reverse_nil, List.find?_nil, Option.map_none, otp, Bool.false_and, Bool.false_eq_true,
    if_false, read]

/-! ### The six words under SP -/

theorem Chip.spoiled (s : Chip) (sp : Nat) (w : Nat → Word) (l : List Nat) (hl : ∀ i ∈ l, i < 6) :
    (∀ c, (l.foldl (fun s i => s.wr (sp - 1 - i) (w i)) s).core c = s.core c)
    ∧ ∀ b, b < sp - 6 ∨ sp ≤ b → 6 ≤ sp → (l.foldl (fun s i => s.wr (sp - 1 - i) (w i)) s).rd b = s.rd b
      ∧ (l.foldl (fun s i => s.wr (sp - 1 - i) (w i)) s).sramBad b = s.sramBad b := by
  induction l generalizing s with
  | nil => exact ⟨fun _ => rfl, fun _ _ _ => ⟨rfl, rfl⟩⟩
  | cons i l ih =>
    obtain ⟨hcore, hrd⟩ := ih (s.wr (sp - 1 - i) (w i)) fun j hj => hl j (List.mem_cons_of_mem i hj)
    have hi : i < 6 := hl i List.mem_cons_self
    refine ⟨fun c => (hcore c).trans (s.core_wr _ _ c), fun b hb h6 => ?_⟩
    have hne : b ≠ sp - 1 - i := by omega
    exact ⟨(hrd b hb h6).1.trans (s.rd_wr_ne _ hne), (hrd b hb h6).2.trans (s.sramBad_wr_ne _ hne)⟩

/-- The flags that a routine may leave in ST as it likes. -/
def calFlags : Word := 0x1FF07F

theorem getLsbD_calFlags (st w : Word) {k : Nat} (hk : k ∈ [St.IE, 8, 9, St.SAT, St.TH]) :
    ((st &&& ~~~ calFlags) ||| (w &&& calFlags)).getLsbD k = st.getLsbD k := by
  simp only [List.mem_cons, List.not_mem_nil, or_false] at hk
  rcases hk with rfl | rfl | rfl | rfl | rfl <;> simp [St.IE, St.SAT, St.TH, calFlags]

/-- What core `c` of `s` finds when its routine has returned to `ret` with `code`: of memory as the routine left it in `t` the six words
under SP may have changed. -/
structure Chip.Returned (s t : Chip) (c : Core) (ret : Word) (code : Nat) (d : Chip) : Prop where
  a : (d.core c).a = W code
  pc : (d.core c).pc = ret.setWidth 24
  sp : (d.core c).sp = (s.core c).sp + 1
  x : (d.core c).x = (s.core c).x
  y : (d.core c).y = (s.core c).y
  st : ∀ k ∈ [St.IE, 8, 9, St.SAT, St.TH], (d.core c).st.getLsbD k = (s.core c).st.getLsbD k
  rd : ∀ b, b < (s.core c).sp.toNat - 6 ∨ (s.core c).sp.toNat ≤ b → d.rd b = t.rd b

theorem Chip.calRoutine_returns {s t : Chip} {c : Core} {entry code : Nat} {f : Chip → Nat → Nat × Chip} (hruns : s.coreRuns c = true)
    (hpc : (s.core c).pc.toNat = entry) (hf : f (s.drainAll c) (s.core c).x.toNat = (code, t)) (hcore : t.core c = (s.drainAll c).core c)
    (hlow : 0x10006 ≤ (s.core c).sp.toNat) (hhigh : (s.core c).sp.toNat < 0x50000) (hbad : t.sramBad (s.core c).sp.toNat = false) :
    s.Returned t c (t.rd (s.core c).sp.toNat) code (s.calRoutine c entry f) := by
  obtain ⟨n, hdrained⟩ := s.core_drainAll c
  have guard : ¬ (!s.coreRuns c || decide ((s.core c).pc.toNat ≠ entry)) = true := by simp [hruns, hpc]
  obtain ⟨score, srd⟩ := Chip.spoiled { t with free := t.free + 10 } (s.core c).sp.toNat (fun i => Config.freeWord ((s.drainAll c).free + i))
    (List.range 6) (fun i hi => List.mem_range.1 hi)
  rw [Chip.calRoutine, if_neg guard]
  simp only [hdrained, hf]
  generalize hs3 : (List.range 6).foldl (fun s' i => s'.wr ((s.core c).sp.toNat - 1 - i) (Config.freeWord ((s.drainAll c).free + i)))
    { t with free := t.free + 10 } = s3 at score srd ⊢
  have core3 : s3.core c = { s.core c with wbuf := [], cyc := n } := (score c).trans (by cases c <;> exact hcore.trans hdrained)
  have atSp := srd (s.core c).sp.toNat (Or.inr (Nat.le_refl _)) (by omega)
  have read := Chip.stackRead_sram (s := s3) (c := c) (sp := (s.core c).sp) (by rw [core3]) (by simp [isSram]; omega) (atSp.2.trans hbad)
  obtain ⟨m, core4⟩ := s3.core_access c (s.core c).sp.toNat
  rw [core3] at core4
  simp only [read, core4]
  refine ⟨?_, ?_, ?_, ?_, ?_, fun k hk => ?_, fun b hb => ?_⟩
  case refine_7 => exact (Chip.rd_setCore _ _ _ _).trans ((Chip.rd_access _ _ _ _).trans (srd b hb (by omega)).1)
  all_goals rw [Chip.core_setCore_self]
  case refine_2 => exact congrArg (BitVec.setWidth 24) atSp.1
  case refine_6 => exact getLsbD_calFlags _ _ hk

/-! ### The obligation -/

section
variable {s : Chip} {c : Core} (hruns : s.coreRuns c = true) (hlow : 0x10006 ≤ (s.core c).sp.toNat) (hhigh : (s.core c).sp.toNat < 0x50000)
  (hbad : (s.drainAll c).sramBad (s.core c).sp.toNat = false)
include hruns hlow hhigh hbad

theorem Chip.calTosec_returns {code n : Nat} (hne : (s.core c).sp.toNat ≠ (s.core c).x.toNat + 2) (hpc : (s.core c).pc = 0x20)
    (h : (code, n) = calToSec ((s.drainAll c).rd (s.core c).x.toNat).toNat ((s.drainAll c).rd ((s.core c).x.toNat + 1)).toNat) :
    s.Returned (if code = Rc.OK then (s.drainAll c).wr ((s.core c).x.toNat + 2) (W n) else s.drainAll c) c
      ((s.drainAll c).rd (s.core c).sp.toNat) code (s.opCalTosec c) := by
  have same : (if code = Rc.OK then (s.drainAll c).wr ((s.core c).x.toNat + 2) (W n) else s.drainAll c).rd (s.core c).sp.toNat
      = (s.drainAll c).rd (s.core c).sp.toNat := by
    split
    · exact Chip.rd_wr_ne _ _ hne
    · rfl
  rw [← same]
  refine Chip.calRoutine_returns hruns (by rw [hpc]; rfl) ?_ ?_ hlow hhigh ?_
  · simp only [← h]
  · split
    · exact Chip.core_wr _ _ _ _
    · rfl
  · split
    · exact (Chip.sramBad_wr_ne _ _ hne).trans hbad
    · exact hbad

theorem Chip.calFromsec_returns {w0 w1 : Nat} (hne : (s.core c).sp.toNat ≠ (s.core c).x.toNat)
    (hne1 : (s.core c).sp.toNat ≠ (s.core c).x.toNat + 1) (hpc : (s.core c).pc = 0x22)
    (h : (w0, w1) = calFromSec ((s.drainAll c).rd ((s.core c).x.toNat + 2)).toNat) :
    s.Returned (((s.drainAll c).wr (s.core c).x.toNat (W w0)).wr ((s.core c).x.toNat + 1) (W w1)) c
      ((s.drainAll c).rd (s.core c).sp.toNat) Rc.OK (s.opCalFromsec c) := by
  rw [← (Chip.rd_wr_ne _ (W w1) hne1).trans (Chip.rd_wr_ne (s.drainAll c) (W w0) hne)]
  refine Chip.calRoutine_returns hruns (by rw [hpc]; rfl) ?_ ?_ hlow hhigh ?_
  · simp only [← h]
  · exact (Chip.core_wr _ _ _ _).trans (Chip.core_wr _ _ _ _)
  · exact ((Chip.sramBad_wr_ne _ _ hne1).trans (Chip.sramBad_wr_ne _ _ hne)).trans hbad

end

/-- Settles O21. -/
theorem calendarRoutines : Obligations.CalendarRoutines := by
  refine ⟨fun s u c ret a sp back hruns hu ha hsp hlow hhigh hret hbad hsa hsa2 hsep hback => ⟨fun code t hpc h => ?_, fun w0 w1 hpc h => ?_⟩,
    fun t ht => calToSec_calFromSec ht, fun date time hdate htime => ?_⟩
  · subst hu ha hsp hret
    obtain ⟨da, dpc, dsp, dx, dy, dst, drd⟩ := Chip.calTosec_returns hruns hlow hhigh hbad (by omega) hpc h
    have kept : ∀ b, b ≠ (s.core c).x.toNat + 2 → (if code = Rc.OK then (s.drainAll c).wr ((s.core c).x.toNat + 2) (W t) else s.drainAll c).rd b
        = (s.drainAll c).rd b := by
      intro b hb
      split
      · exact Chip.rd_wr_ne _ _ hb
      · rfl
    refine ⟨s.opCalTosec c, fun _ => rfl, (hback _ _).2 ⟨da, dpc, dsp, dx, dy, dst, fun b hb hba => (drd b hb).trans (kept b (by omega))⟩,
      (drd _ (by omega)).trans ?_, (drd _ (by omega)).trans (kept _ (by omega)), (drd _ (by omega)).trans (kept _ (by omega))⟩
    split
    · exact (Chip.rd_wr _ _ _ _ hsa2).trans (if_pos rfl)
    · rfl
  · subst hu ha hsp hret
    have hsa1 : isSram ((s.core c).x.toNat + 1) = true := by
      simp only [isSram, Bool.and_eq_true, decide_eq_true_eq] at hsa hsa2 ⊢
      omega
    obtain ⟨da, dpc, dsp, dx, dy, dst, drd⟩ := Chip.calFromsec_returns hruns hlow hhigh hbad (by omega) (by omega) hpc h
    have written : ∀ b, (((s.drainAll c).wr (s.core c).x.toNat (W w0)).wr ((s.core c).x.toNat + 1) (W w1)).rd b
        = if b = (s.core c).x.toNat + 1 then W w1 else if b = (s.core c).x.toNat then W w0 else (s.drainAll c).rd b := fun b => by
      rw [Chip.rd_wr _ _ _ _ hsa1, Chip.rd_wr _ _ _ _ hsa]
    refine ⟨s.opCalFromsec c, fun _ => rfl, (hback _ _).2 ⟨da, dpc, dsp, dx, dy, dst, fun b hb hba => ?_⟩, ?_, ?_, ?_⟩
    all_goals rw [drd _ (by omega), written]
    · rw [if_neg (by omega), if_neg (by omega)]
    · rw [if_neg (by omega), if_pos rfl]
    · rw [if_pos rfl]
    · rw [if_neg (by omega), if_neg (by omega)]
  · simp only [hdate, htime]
    decide

end Sys2Proof.Machine
end

section
/-!
PROOFS. A command answers what its effect comes to.
-/
namespace Sys2Proof.Machine

/-- A command whose effect is `e` answers `d` where the two are equal. -/
theorem Chip.gives_of {s e d : Chip} {i : Instr} (h : e = d) (hi : ∀ q, exec i ⟨q, s⟩ = State.after ⟨q, s⟩ e) : s.gives i d :=
  fun q => (hi q).trans (congrArg (State.after ⟨q, s⟩) h)

end Sys2Proof.Machine
end

section
/-!
PROOFS. A write of CLK_FOX, the end of the VCORE raise, and the lock of the PLL (R26, R97, R102).
-/
namespace Sys2Proof.Machine

/-! ### The checks of a write -/

theorem bits_nibbles {n : Nat} (h : n < 256) : bits n 3 0 = n % 16 ∧ bits n 7 4 = n / 16 := by
  simp only [bits, Nat.shiftRight_eq_div_pow, Nat.reduceAdd, Nat.reduceSub, Nat.reducePow]
  omega

/-- The codes of the PLL's rates are those from 8 on. -/
theorem foxPll_of_rate {k : Nat} (h : (foxRate k).isSome = true) : foxPll k = decide (8 ≤ k) := by
  have hk : k ≤ 13 := by
    refine Nat.le_of_not_lt fun hk => ?_
    obtain ⟨j, rfl⟩ := Nat.exists_eq_add_of_lt hk
    have none : foxRate (13 + j + 1) = none := by
      unfold foxRate
      split
      case h_10 => rfl
      all_goals omega
    rw [none] at h
    exact Bool.noConfusion h
  simp [foxPll, hk]

section
variable {s : Chip} {n : Nat} (hn : n < 256)
include hn

theorem Chip.clkFoxCheck_range (h : foxRate (n % 16) = none ∨ foxRate (n / 16) = none) : s.clkFoxCheck n = Rc.RANGE := by
  obtain ⟨ha, hb⟩ := bits_nibbles hn
  rcases h with h | h <;> simp [Chip.clkFoxCheck, ha, hb, h]

variable (hra : (foxRate (n % 16)).isSome = true) (hrb : (foxRate (n / 16)).isSome = true)
include hra hrb

/-- The checks after RANGE, in their order. -/
theorem Chip.clkFoxCheck_eq : s.clkFoxCheck n =
    if s.lockedSec 1 = true then Rc.LOCKED
    else if n / 16 ≠ 0 ∧ s.prov 7 = false then Rc.CLOCK_OFF
    else if (8 ≤ n % 16 ∨ 8 ≤ n / 16) ∧ s.cfg.pll = false then Rc.COMBINATION
    else if (n % 16 ≠ s.fld F.CLK_FOX_FOXA_SEL ∧ s.fitsCont 0 (coreClaimAt ((foxRate (n % 16)).getD 0)) = false)
      ∨ (n / 16 ≠ s.fld F.CLK_FOX_FOXB_SEL ∧ s.fitsCont 1 (coreClaimAt ((foxRate (n / 16)).getD 0)) = false) then Rc.BUDGET
    else if (n % 16 = 0 ∧ s.fld F.CLK_FOX_FOXA_SEL ≠ 0 ∧ s.cores.foxA.mayStop = false)
      ∨ (n / 16 = 0 ∧ s.fld F.CLK_FOX_FOXB_SEL ≠ 0 ∧ s.cores.foxB.mayStop = false) then Rc.BUSY
    else Rc.OK := by
  obtain ⟨ha, hb⟩ := bits_nibbles hn
  obtain ⟨a, ea⟩ := Option.isSome_iff_exists.1 hra
  obtain ⟨b, eb⟩ := Option.isSome_iff_exists.1 hrb
  simp [Chip.clkFoxCheck, ha, hb, foxPll_of_rate hra, foxPll_of_rate hrb, ea, eb, and_assoc]

end

/-! ### The write -/

section
variable {s : Chip} {ag : Agent} {v : Word} {n code : Nat} (hn : n = v.toNat % 256) (hc : code = s.clkFoxCheck n)
include hn hc

theorem Chip.clkFoxWrite_refused (h : code ≠ Rc.OK) : s.clkFoxWrite ag v = s.setReason R.CLK_STAT code := by
  subst hn hc
  simp only [Chip.clkFoxWrite]
  exact if_pos h

theorem Chip.clkFoxWrite_switch (h : code = Rc.OK) (hr : ((s.setReason R.CLK_STAT code).setReg R.CLK_FOX (W n)).highestRate
    ≤ (s.setReason R.CLK_STAT code).highestRate) : s.clkFoxWrite ag v = (s.setReason R.CLK_STAT code).switchFox n := by
  subst hn hc
  simp only [Chip.clkFoxWrite]
  rw [if_neg (Classical.not_not.2 h), if_neg (Nat.not_lt.2 hr)]

theorem Chip.clkFoxWrite_raise {u : Chip} (hu : u = s.setReason R.CLK_STAT code) (h : code = Rc.OK)
    (hr : u.highestRate < (u.setReg R.CLK_FOX (W n)).highestRate) : s.clkFoxWrite ag v
      = ({ u with clk := { u.clk with foxStall := some (W n, ag), vcoreAt := some (u.now + 640) } }).setFld F.PMU_VCORE_SETCODE
        (u.vcoreFor (u.setReg R.CLK_FOX (W n)).highestRate) := by
  subst hn hc hu
  simp only [Chip.clkFoxWrite]
  rw [if_neg (Classical.not_not.2 h), if_pos hr]
  rfl

end

/-- Settles O22: the checks in their order, then the switch or the raise before it. -/
theorem clockSwitch : Obligations.ClockSwitch := by
  intro s u ag v n code hn hcode hu
  have h256 : n < 256 := hn ▸ Nat.mod_lt _ (by decide)
  refine ⟨fun h => hcode.trans (Chip.clkFoxCheck_range h256 h), fun hra hrb => ?_, fun h => ⟨?_, ?_⟩, fun h hr => ?_, fun h hr => ?_, fun w a hst => ?_,
    fun hon hlock => ?_⟩
  · rw [hcode, Chip.clkFoxCheck_eq h256 hra hrb]
    refine ⟨fun hl => if_pos hl, fun hl h0 hp => ?_, fun hl hp h8 hpll => ?_, fun hl hp h8 => ⟨fun hf => ?_, fun ha hb => ⟨fun hstop => ?_, fun hsa hsb => ?_⟩⟩⟩
    all_goals rw [if_neg (by simp [hl])]
    · exact if_pos ⟨h0, hp⟩
    all_goals rw [if_neg (by rintro ⟨h0, h7⟩; exact hp.elim h0 (by simp [h7]))]
    · exact if_pos ⟨h8, hpll⟩
    all_goals rw [if_neg (by rintro ⟨h, hpll⟩; exact h8.elim (by omega) (by simp [hpll]))]
    · exact if_pos hf
    all_goals rw [if_neg (by rintro (⟨h, hf⟩ | ⟨h, hf⟩); exact ha.elim h (by simp [hf]); exact hb.elim h (by simp [hf]))]
    · exact if_pos hstop
    · refine if_neg ?_
      rintro (⟨h0, hs, hm⟩ | ⟨h0, hs, hm⟩)
      · exact hsa.elim (· h0) (Or.rec hs (by simp [hm]))
      · exact hsb.elim (· h0) (Or.rec hs (by simp [hm]))
  · exact Chip.gives_of ((Chip.clkFoxWrite_refused hn hcode h).trans hu.symm) fun _ => rfl
  · rw [hu]
    exact Chip.reg_setFld_ne s ⟨R.CLK_STAT, 7, 0⟩ code (by decide)
  · subst hu
    exact Chip.gives_of (Chip.clkFoxWrite_switch hn hcode h hr) fun _ => rfl
  · exact Chip.gives_of (Chip.clkFoxWrite_raise hn hcode hu h hr) fun _ => rfl
  · exact Chip.gives_of (e := s.vcoreSettled) (by simp only [Chip.vcoreSettled, hst]) fun _ => rfl
  · exact Chip.gives_of (e := s.pllLock) (if_pos (by simp [hon, hlock])) fun _ => rfl

end Sys2Proof.Machine
end

section
/-!
PROOFS. SSM_LOCK, the retained words, addresses of no register, and the blocks that stop (R16, R66, R101).
-/
namespace Sys2Proof.Machine

/-! ### Plain registers -/

theorem Chip.bitsWrite_ssmLock (s : Chip) (v : Word) : s.bitsWrite R.SSM_LOCK v = s.setReg R.SSM_LOCK (s.reg R.SSM_LOCK ||| (v &&& 0x3FFE#36)) := by
  have row : regRow R.SSM_LOCK = some { base := R.SSM_LOCK, set := 0x3FFE } := rfl
  simp only [Chip.bitsWrite, row, RegRow.merged, Nat.and_zero, Nat.sub_zero, Nat.zero_or]
  congr 1
  apply BitVec.eq_of_toNat_eq
  rw [BitVec.toNat_ofNat, BitVec.toNat_or, BitVec.toNat_and]
  exact Nat.mod_eq_of_lt (Nat.or_lt_two_pow (BitVec.isLt _) (Nat.and_lt_two_pow _ (by decide)))

theorem regRow_pmuRet {n : Nat} (h : n < 256) : regRow (R.PMU_RET n) = some { base := R.PMU_RET 0, count := 256, rw := fullMask } := by
  have block : blockOf (R.PMU_RET n) = 3 := by simp only [blockOf, R.PMU_RET]; omega
  rw [regRow, if_neg (by simp only [R.PMU_RET]; omega), block]
  simp [blockRows, rowsPmu, List.find?_cons, RegRow.index, R.PMU_RET, R.PMU_CTL, R.PMU_STAT, R.PMU_REQ, R.PMU_HOLD, R.PMU_CAUSE, R.PMU_BOD, R.PMU_VCORE,
    R.PMU_WCLS, Nat.mod_one]
  have other : ∀ k, k < 3158272 → ¬ (k ≤ 3158272 + n ∧ 3158272 + n - k = 0) := by omega
  simp only [other, h, Nat.reduceLT, if_false, if_true, Option.isSome_none, Option.isSome_some]

theorem Chip.bitsWrite_pmuRet (s : Chip) {n : Nat} (h : n < 256) (v : Word) : s.bitsWrite (R.PMU_RET n) v = s.setReg (R.PMU_RET n) v := by
  have full : ∀ w : Word, w.toNat &&& fullMask = w.toNat := fun w =>
    (Nat.and_two_pow_sub_one_eq_mod w.toNat 36).trans (Nat.mod_eq_of_lt w.isLt)
  simp only [Chip.bitsWrite, regRow_pmuRet h, RegRow.merged, full, Nat.and_zero, Nat.or_zero, Nat.sub_self, Nat.sub_zero]
  rw [W, BitVec.ofNat_toNat, BitVec.setWidth_eq]

theorem Chip.regWrite_nowhere (s : Chip) (ag : Agent) {a : Nat} (v : Word) (h : isReg a = false) : s.regWrite ag a v = s := by
  rw [Chip.regWrite, h]
  rfl

theorem Chip.regWrite_pmuRet (s : Chip) (ag : Agent) {n : Nat} (h : n < 256) (v : Word) :
    s.regWrite ag (R.PMU_RET n) v = s.setReg (R.PMU_RET n) v := by
  rw [Chip.regWrite_pmu s ag _ v (by simp only [R.PMU_RET]; omega) (by simp only [R.PMU_RET]; omega), ← Chip.bitsWrite_pmuRet s h]
  have range : R.PMU_RET 0 ≤ R.PMU_RET n ∧ R.PMU_RET n < R.PMU_RET 256 := by simp only [R.PMU_RET]; omega
  have above : ∀ a, a < R.PMU_RET 0 → R.PMU_RET n ≠ a := fun a ha => by omega
  rw [Chip.writePmu, if_neg (above _ (by decide)), if_neg (above _ (by decide)), if_neg (above _ (by decide)), if_pos (Or.inr range)]

/-! ### A block that is switched off -/

theorem bitOf_put_zero (a : Nat) (w : Word) : bitOf (Fld.put ⟨a, 0, 0⟩ w 0).toNat 0 = false := by
  simp [bitOf, Fld.put, maskOf, BitVec.toNat_and]

theorem blockStat_sub_one (b : Block) : blockStat b - 1 = blockCtl b := by cases b <;> rfl

/-- An enabled radio block that a cell uses reads EN 0 at once, and is to stop. -/
theorem Chip.radioDisable_live {s : Chip} {b : Block} {l : Live} (hb : b = .syn ∨ b = .rfe) (hen : s.bit ⟨blockCtl b, 0, 0⟩ = true)
    (hl : s.lnk.live = some l) : s.radioDisable b = { s.setBit ⟨blockCtl b, 0, 0⟩ false with stopping := b :: s.stopping } := by
  have idle : s.radioIdle = false := by simp [Chip.radioIdle, hl]
  rw [Chip.radioDisable, blockStat_sub_one]
  rcases hb with rfl | rfl <;> simp [hen, idle, Chip.setBit]

theorem Chip.regWrite_synCtl_off {s : Chip} {ag : Agent} {v : Word} (hag : s.radioOwner ag = true) (hv : bitOf v.toNat 0 = false) :
    s.regWrite ag R.SYN_CTL v = s.radioDisable .syn := by
  rw [Chip.regWrite_syn s ag _ _ (by decide) (by decide), Chip.writeSyn, if_neg (by decide), if_neg (by decide), Chip.ifRadioOwner,
    if_pos hag, if_pos rfl, Chip.radioCtl, if_neg (by rw [hv]; decide)]

theorem Chip.regWrite_rfeCtl_off {s : Chip} {ag : Agent} {v : Word} (hag : s.radioOwner ag = true) (hv : bitOf v.toNat 0 = false) :
    s.regWrite ag R.RFE_CTL v = s.radioDisable .rfe := by
  rw [Chip.regWrite_rfe s ag _ _ (by decide) (by decide), Chip.writeRfe, if_pos rfl, Chip.ifRadioOwner, if_pos hag, Chip.radioCtl,
    if_neg (by rw [hv]; decide)]

theorem Chip.gives_blockDisable {s : Chip} {ag : Agent} {b : Block} {l : Live} (hb : b = .syn ∨ b = .rfe) (hag : s.radioOwner ag = true)
    (hen : s.bit ⟨blockCtl b, 0, 0⟩ = true) (hl : s.lnk.live = some l) :
    s.gives (.blockDisable ag b) { s.setBit ⟨blockCtl b, 0, 0⟩ false with stopping := b :: s.stopping } := by
  refine Chip.gives_of (e := s.fldWrite ag ⟨blockCtl b, 0, 0⟩ 0) ?_ fun _ => rfl
  rw [← Chip.radioDisable_live hb hen hl]
  rcases hb with rfl | rfl
  · exact Chip.regWrite_synCtl_off hag (bitOf_put_zero _ _)
  · exact Chip.regWrite_rfeCtl_off hag (bitOf_put_zero _ _)

/-! ### A block at its safe point -/

/-- A block that was asked to stop, once stopped. -/
theorem Chip.blockStopped_eq {s : Chip} {b : Block} (h : s.stopping.contains b = true) :
    s.blockStopped b = ({ s with stopping := s.stopping.filter (· ≠ b) }).setBit ⟨blockStat b, 8, 8⟩ false := if_pos h

theorem Chip.gives_safePoint {s d : Chip} {b : Block} (h : s.safePoint b = d) : s.gives (.blockSafePointStop b) d :=
  Chip.gives_of h fun _ => rfl

theorem Chip.safePoint_none {s : Chip} {b : Block} (h : s.stopping.contains b = false) : s.safePoint b = s := if_pos (by simpa using h)

section
variable {s : Chip}

theorem Chip.safePoint_radio {b : Block} (h : s.stopping.contains b = true) (hb : b = .syn ∨ b = .rfe ∨ b = .mdm) :
    s.safePoint b = if s.radioIdle then s.blockStopped b else s := by
  rcases hb with rfl | rfl | rfl <;> exact if_neg (by simpa using h)

theorem Chip.safePoint_cx (h : s.stopping.contains .cx = true) : s.safePoint .cx = s.blockStopped .cx := if_neg (by simpa using h)

theorem Chip.safePoint_cph (h : s.stopping.contains .cph = true) : s.safePoint .cph = s.cphSafe := if_neg (by simpa using h)

theorem Chip.safePoint_hp (h : s.stopping.contains .hp = true) : s.safePoint .hp = if s.hcsLow then s else s.hpStop := if_neg (by simpa using h)

theorem Chip.safePoint_nfc (h : s.stopping.contains .nfc = true) : s.safePoint .nfc = s.nfcSafe := if_neg (by simpa using h)

theorem Chip.safePoint_lnk (h : s.stopping.contains .lnk = true) : s.safePoint .lnk = if s.boundaryFree then s.engineStop else s :=
  if_neg (by simpa using h)

end

/-- Settles O23. -/
theorem plainRegisters : Obligations.PlainRegisters := by
  refine ⟨fun s ag v => ⟨Chip.gives_of (s.bitsWrite_ssmLock v) fun _ => rfl, fun n hn => Chip.gives_of (s.regWrite_pmuRet ag hn v) fun _ => rfl,
      fun a ha => Chip.gives_of (s.regWrite_nowhere ag v ha) fun _ => rfl⟩,
    fun s ag b l hb hag hen hl => Chip.gives_blockDisable hb hag hen hl, fun s b h => Chip.gives_safePoint (Chip.safePoint_none h),
    fun s t b h ht => ⟨fun hb => ⟨fun hl hj => ?_, fun hl => ?_⟩, ?_, ?_, ?_, ?_, ?_⟩, fun s h hm hph hr h8 => ?_⟩
  · rw [ht, ← Chip.blockStopped_eq h]
    exact Chip.gives_safePoint ((Chip.safePoint_radio h hb).trans (if_pos (by simp [Chip.radioIdle, hl, hj])))
  · refine Chip.gives_safePoint ((Chip.safePoint_radio h hb).trans (if_neg ?_))
    rcases hl with hl | hl <;> simp [Chip.radioIdle, hl]
  · rintro rfl
    exact Chip.gives_safePoint ((Chip.safePoint_cx h).trans ((Chip.blockStopped_eq h).trans ht.symm))
  · rintro rfl
    refine ⟨fun hp => Chip.gives_safePoint ((Chip.safePoint_cph h).trans ?_), fun ⟨u, hu, hp⟩ => Chip.gives_safePoint ((Chip.safePoint_cph h).trans ?_)⟩
    · rw [Chip.cphSafe, if_neg (by simpa using hp), Chip.blockStopped_eq h, ht]
    · exact if_pos (List.any_eq_true.2 ⟨u, List.mem_range.2 hu, by simpa using hp⟩)
  · rintro rfl
    refine ⟨fun hc => Chip.gives_safePoint ((Chip.safePoint_hp h).trans ?_), fun hc => Chip.gives_safePoint ((Chip.safePoint_hp h).trans (if_pos hc))⟩
    rw [hc, if_neg Bool.false_ne_true, Chip.hpStop, Chip.blockStopped_eq h, ht]
  · rintro rfl hbusy
    refine Chip.gives_safePoint ((Chip.safePoint_nfc h).trans (if_neg ?_))
    rcases hbusy with hm | hph | hr | h8
    · simp [Option.isNone_iff_eq_none, hm]
    · simp [hph]
    · simp [Option.isNone_iff_eq_none, hr]
    · simp [h8]
  · rintro rfl
    refine ⟨fun hw => Chip.gives_safePoint ((Chip.safePoint_lnk h).trans (if_neg ?_)),
      fun hw hl => Chip.gives_safePoint ((Chip.safePoint_lnk h).trans (if_pos (by simp [Chip.boundaryFree, hw, hl])))⟩
    rcases hw with hw | hw <;> simp [Chip.boundaryFree, hw]
  · refine Chip.gives_safePoint ((Chip.safePoint_nfc h).trans ((if_pos (by simp [-List.contains_eq_mem, h, hm, hph, hr, h8])).trans (Chip.blockStopped_eq h)))

end Sys2Proof.Machine
end

section
/-!
PROOFS. The resets (R100, R107): a reset that cuts an OTP pulse stores that word of the row again.
-/
namespace Sys2Proof.Machine

/-- The row after a reset is as the cut pulse leaves it. -/
theorem Chip.powerOn_otp (s : Chip) : s.powerOn.otp = s.otpCut := rfl

/-- A chip in the middle of an OTP pulse that sets no bit, on a word whose cell is stored though it is zero. -/
def otpPulsing : Chip := { otp := [(0, 0)], flc := { otp := some { word := 0, data := 0 }, pulsing := true } }

/-- The cut pulse leaves the word zero, which has no cell. -/
theorem otpCut_otpPulsing : otpPulsing.otpCut = [] := by
  have none : otpPulsing.otpRd 0 ||| (0#36 &&& Config.freeWord otpPulsing.free) = 0#36 := by
    rw [BitVec.zero_and]
    rfl
  change Cells.set zeroWord [(0, 0)] 0 (otpPulsing.otpRd 0 ||| (0#36 &&& Config.freeWord otpPulsing.free)) = []
  rw [none]
  rfl

/-- Refutes O24: after a power-on reset the OTP row is what a pulse that the reset cuts leaves of it (notes/assumptions/176), and the
statement asks for the row as it was, in every state. -/
theorem not_resets : ¬ Obligations.Resets := by
  rintro ⟨powerOn, -⟩
  obtain ⟨-, -, -, -, -, -, -, -, otp⟩ := powerOn otpPulsing
  rw [Chip.powerOn_otp, otpCut_otpPulsing] at otp
  exact absurd otp (by decide)

end Sys2Proof.Machine
end

section
/-!
PROOFS. The thermal state (R142): a sample that takes it to 2 denies the transmitter's pending claim.
-/
namespace Sys2Proof.Machine

/-- A chip whose thermal state is 2, with a claim of the transmitter (claimant 4) of this cycle pending. -/
def hotClaiming : Chip :=
  { regs := [(R.EGY_STAT, W 0x8000)], bear := { pend := [{ who := 4, power := 1, dur := 1, cont := false, cls := 0, arrival := 0 }] } }

/-- A sample of 120 °C, shown, with no claim denied for it. -/
def hotSampled : Chip := (hotClaiming.setFld F.EGY_STAT_TEMP 120).setFld F.EGY_STAT_THERM 2

theorem tempSample_hotClaiming : (hotClaiming.tempSample 120).settle.bear.pend = [] := by
  rfl

theorem admission_hotSampled : hotSampled.admission.settle.bear.pend ≠ [] := by
  decide

/-- Refutes O26: where a sample leaves the thermal state at 2, the claim of `hotClaiming` is denied with THERMAL before admission runs
(R142), and the statement has admission run alone. -/
theorem not_supplyWarnings : ¬ Obligations.SupplyWarnings := by
  rintro ⟨-, -, samples⟩
  obtain ⟨unchanged, -⟩ := samples hotClaiming hotSampled 120 rfl
  have answer := unchanged rfl []
  have same : (hotClaiming.tempSample 120).settle = hotSampled.admission.settle := by
    injection answer with answer
    exact congrArg State.chip answer
  exact admission_hotSampled (same ▸ tempSample_hotClaiming)

end Sys2Proof.Machine
end

section
/-!
PROOFS. Entering rest and waking (R76, R103, R106 to R110, R141, R271, R551).
-/
namespace Sys2Proof.Machine

/-! ### The depth of rest -/

/-- SLEEP is as deep as the timers that count on HF-REF allow, and HIBERNATE and SHIP as the other holders do. -/
theorem Chip.holders_of_depthLimit (s : Chip) : (1 ≤ s.depthLimit → s.holder 0 = false)
    ∧ (2 ≤ s.depthLimit → s.holder 1 = false ∧ s.holder 2 = false) := by
  unfold Chip.depthLimit
  cases s.holder 0 <;> cases s.holder 1 <;> cases s.holder 2 <;> simp

theorem Chip.restDepth_some {s : Chip} {p : PState} (h : s.restDepth = some p) :
    s.allWait = true ∧ s.noneForWaiting = true ∧ s.delayed = false ∧ p ≠ .run
      ∧ (p = .hibernate ∨ p = .ship → s.holder 1 = false ∧ s.holder 2 = false) ∧ (p = .sleep → s.holder 0 = false) := by
  obtain ⟨sleep, deeper⟩ := s.holders_of_depthLimit
  have le := Nat.min_le_right (s.fld F.PMU_REQ_DEPTH) s.depthLimit
  unfold Chip.restDepth at h
  split at h
  case isTrue => exact absurd h (by simp)
  case isFalse hstop =>
    simp only [Bool.or_eq_true, Bool.not_eq_true', not_or, Bool.not_eq_false, Bool.not_eq_true] at hstop
    obtain ⟨⟨⟨-, hwait⟩, hnone⟩, hdelay⟩ := hstop
    refine ⟨hwait, hnone, hdelay, ?_⟩
    split at h
    case h_1 => exact absurd h (by simp)
    case h_2 hd =>
      obtain rfl := Option.some.inj h
      exact ⟨by simp, by simp, fun _ => sleep (by omega)⟩
    case h_3 hd =>
      obtain rfl := Option.some.inj h
      exact ⟨by simp, fun _ => deeper (by omega), by simp⟩
    case h_4 h0 h1 h2 =>
      obtain rfl := Option.some.inj h
      have n0 : min (s.fld F.PMU_REQ_DEPTH) s.depthLimit ≠ 0 := h0
      have n1 : min (s.fld F.PMU_REQ_DEPTH) s.depthLimit ≠ 1 := h1
      exact ⟨by simp, fun _ => deeper (by omega), by simp⟩

/-! ### Wake sources -/

theorem Chip.wakeEvent_first {s : Chip} (b cls : Nat) (hent : s.pwr.entering = none) (hst : s.pwr.st = .sleep) (hsrc : s.pwr.wakeSrc = 0) :
    s.wakeEvent b cls = ({ s with pwr := { s.pwr with wakeSrc := putBit 0 b true } }).makeClaim 12 24 35 false
      (bits (s.reg R.PMU_WCLS).toNat (cls + 1) cls) none none := by
  simp [Chip.wakeEvent, hent, hst, hsrc, wakeClaim]

section
variable {s : Chip} {n : Nat} {rise : Bool} (hn : n < 24)
include hn

theorem Chip.wakePinEdge_other (h : s.pins.cur.getD n 0 ≠ (if rise then Mean.WAKE_RISE else Mean.WAKE_FALL) ∨ s.padIn n = rise ∨ s.pinPowered n = false
    ∨ s.pins.phase ≠ .rest ∨ s.pwr.st = .ship) : s.wakePinEdge n rise = s.drivePin n rise := by
  rw [Chip.wakePinEdge, if_neg (Nat.not_le.2 hn)]
  refine if_pos ?_
  rcases h with h | h | h | h | h <;> simp [-List.getD_eq_getElem?_getD, h]

theorem Chip.wakePinEdge_wake {d : Chip} (hd : d = (s.drivePin n rise).setFld ⟨R.PIN_WAKE, n, n⟩ 1)
    (hm : s.pins.cur.getD n 0 = (if rise then Mean.WAKE_RISE else Mean.WAKE_FALL)) (hl : s.padIn n ≠ rise) (hp : s.pinPowered n = true)
    (hph : s.pins.phase = .rest) (hst : s.pwr.st ≠ .ship) :
    s.wakePinEdge n rise = (if s.pwr.entering.isSome then d.setBit F.PIN_WAKE_ABORT true else d).wakeEvent 6 4 := by
  subst hd
  rw [Chip.wakePinEdge, if_neg (Nat.not_le.2 hn)]
  exact if_neg (by simp [-List.getD_eq_getElem?_getD, hm, hl, hp, hph, hst])

end

/-- Settles O27. -/
theorem restAndWake : Obligations.RestAndWake := by
  refine ⟨fun s p h => ?_, fun s p h hd => ?_, fun s h hd => ?_, fun s p h => Chip.restDepth_some h, fun s t h => ?_, fun s h => ?_,
    fun s b cls hent hst hsrc => Chip.wakeEvent_first b cls hent hst hsrc, fun s d n rise hn hd => ⟨fun h => ?_, fun hm hl hp hph hst => ⟨fun hent => ?_, fun hent => ?_⟩⟩,
    fun s t u hst hg hu ht => ?_, fun s t m hsrc hg hm ht => ?_⟩
  · exact Chip.gives_of (e := s.restEntry) (by simp only [Chip.restEntry, h]) fun _ => rfl
  · exact Chip.gives_of (e := s.restEntry) (by simp only [Chip.restEntry, h, hd]) fun _ => rfl
  · exact Chip.gives_of (e := s.restEntry) (by simp only [Chip.restEntry, h, hd]) fun _ => rfl
  · exact Chip.gives_of (e := s.linkWake) (by simp only [Chip.linkWake, h]) fun _ => rfl
  · exact Chip.gives_of (e := s.svcWakeEdge) (if_pos (by rcases h with h | h <;> simp [Chip.svcWakes, h])) fun _ => rfl
  · exact Chip.gives_of (Chip.wakePinEdge_other hn h) fun _ => rfl
  · refine Chip.gives_of ((Chip.wakePinEdge_wake hn hd hm hl hp hph hst).trans ?_) fun _ => rfl
    rw [hent]
    rfl
  · exact Chip.gives_of ((Chip.wakePinEdge_wake hn hd hm hl hp hph hst).trans (by rw [if_pos hent])) fun _ => rfl
  · subst hu ht
    refine Chip.gives_of (e := s.wakeFromSleep) ?_ fun _ => rfl
    rw [Chip.wakeFromSleep, if_pos (by simp [hst, hg])]
    simp only [allCores, List.foldl, Chip.openPhase]
  · subst ht
    refine Chip.gives_of (e := s.wakeRemeasure m) (if_pos ?_) fun _ => rfl
    rcases hm with hm | ⟨hd, hl⟩
    · simp [hsrc, hg, hm]
    · simp [hsrc, hg, hd, hl]

end Sys2Proof.Machine
end

section
/-!
PROOFS. What occurrences, claims and the flash controller's queue leave alone: all of the chip but the registers, the interrupt controller,
the event router, the outbox, Bear and the flash controller.
-/
namespace Sys2Proof.Machine

/-- `t` is `s` but for its registers, interrupts, events, outbox, Bear and flash controller. -/
def Chip.Aside (s t : Chip) : Prop := ∃ r i e o b f, t = { s with regs := r, icu := i, evr := e, out := o, bear := b, flc := f }

namespace Chip.Aside

theorem refl (s : Chip) : s.Aside s := ⟨_, _, _, _, _, _, rfl⟩

theorem trans {s t u : Chip} (h : s.Aside t) (k : t.Aside u) : s.Aside u := by
  obtain ⟨r, i, e, o, b, f, rfl⟩ := h
  obtain ⟨r', i', e', o', b', f', rfl⟩ := k
  exact ⟨r', i', e', o', b', f', rfl⟩

theorem foldl {α : Type} {f : Chip → α → Chip} (hf : ∀ (s : Chip) x, s.Aside (f s x)) (l : List α) (s : Chip) : s.Aside (l.foldl f s) := by
  induction l generalizing s with
  | nil => exact refl s
  | cons x l ih => exact (hf s x).trans (ih (f s x))

/-- Whichever way a test goes. -/
theorem ite {p : Prop} [Decidable p] {s t u : Chip} (h : s.Aside t) (k : s.Aside u) : s.Aside (if p then t else u) := by
  split
  · exact h
  · exact k

theorem setReg (s : Chip) (a : Nat) (v : Word) : s.Aside (s.setReg a v) := ⟨_, _, _, _, _, _, rfl⟩

theorem setFld (s : Chip) (f : Fld) (v : Nat) : s.Aside (s.setFld f v) := setReg s f.addr _

theorem setBear (s : Chip) (b : Bear) : s.Aside (s.setBear b) := ⟨_, _, _, _, _, _, rfl⟩

theorem setFlc (s : Chip) (f : Flc) : s.Aside (s.setFlc f) := ⟨_, _, _, _, _, _, rfl⟩

/-! ### Occurrences and pulses -/

theorem pulse (s : Chip) (c : Nat) : s.Aside (s.pulse c) := by
  have flag : s.Aside (s.setEvrFlag c) := ite (setFld ..) (setFld ..)
  have stamp : ∀ t : Chip, t.Aside (if t.bit (F.EVR_CH_STQ c) then
      { t with evr := { t.evr with recs := t.evr.recs ++ [(t.fld (F.EVR_CH_PUB c), c)] } } else t) :=
    fun t => ite ⟨_, _, _, _, _, _, rfl⟩ (refl t)
  have rest : ∀ t : Chip, t.Aside { t.deliver c with out := { (t.deliver c).out with chans := (t.deliver c).out.chans ++ [c] } } :=
    fun t => ⟨_, _, _, _, _, _, rfl⟩
  exact ite (refl s) (flag.trans ((stamp _).trans (rest _)))

theorem publish (s : Chip) (p : Nat) : s.Aside (s.publish p) :=
  ite (foldl pulse _ s) (ite (setFld ..) ⟨_, _, _, _, _, _, rfl⟩)

theorem pend (s : Chip) (n : Nat) : s.Aside (s.pend n) := ⟨_, _, _, _, _, _, rfl⟩

theorem occSeen (s : Chip) (n : Nat) : s.Aside (s.occSeen n) := by
  unfold Chip.occSeen
  split
  · exact pend s n
  · exact ite ⟨_, _, _, _, _, _, rfl⟩ (refl s)
  · exact refl s

theorem occ (s : Chip) (n : Nat) : s.Aside (s.occ n) := by
  have seen : s.Aside (if s.fabricOn then s.occSeen n else s.occHold n) := ite (occSeen s n) (ite ⟨_, _, _, _, _, _, rfl⟩ (refl s))
  exact ite seen (seen.trans (publish _ n))

/-! ### Claims -/

theorem answer (s : Chip) (r : Answer) : s.Aside (s.answer r) := by
  have last : s.Aside ((((s.setFld F.EGY_LAST_CLAIMANT r.who).setFld F.EGY_LAST_ANSWER r.kind.code).setFld F.EGY_LAST_POWER r.power).setFld
      F.EGY_LAST_CAUSE r.code) := ⟨_, _, _, _, _, _, rfl⟩
  have out : ∀ t : Chip, t.Aside { t with out := { t.out with answers := t.out.answers ++ [r] } } := fun t => ⟨_, _, _, _, _, _, rfl⟩
  have early : ∀ (t : Chip) (v : Word), t.Aside (if r.kind = .defer then t.setReg R.EGY_EARLY v else t) :=
    fun t v => ite (setReg ..) (refl t)
  have soft : ∀ (t : Chip) (v w : Word), t.Aside (if 13 ≤ r.who then
      (if r.kind = .defer then (t.setReg (R.EGY_SWANS r.who) v).setReg (R.EGY_SWERL r.who) w else t.setReg (R.EGY_SWANS r.who) v) else t) :=
    fun t v w => ite (ite ((setReg ..).trans (setReg ..)) (setReg ..)) (refl t)
  exact last.trans ((early _ _).trans ((soft _ _ _).trans (out _)))

theorem deny (s : Chip) (n code : Nat) : s.Aside (s.deny n code) := (setBear ..).trans (answer ..)

theorem makeClaim (s : Chip) (n power count : Nat) (ms : Bool) (cls : Nat) (minP deadline : Option Nat) :
    s.Aside (s.makeClaim n power count ms cls minP deadline) := by
  have denied : ∀ code, s.Aside ((s.dropClaim n).deny n code) := fun code => (setBear ..).trans (deny ..)
  exact ite (refl s) (ite (denied _) (ite (denied _) (ite (denied _) (ite (denied _) (ite (denied _) ((setBear ..).trans (setBear ..)))))))

/-! ### The flash controller's queue -/

theorem flcPost (s : Chip) (o : FlOp) (code : Nat) (fail : Bool) : s.Aside (s.flcPost o code fail) := by
  have posted : ∀ (v : Nat), s.Aside (((s.setFld F.FLC_RES_OP o.op).setFld F.FLC_RES_ADDR v).flcReason code) :=
    fun v => (setFld ..).trans ((setFld ..).trans (setFld ..))
  have flags : ∀ (t : Chip) (b c : Bool), t.Aside ((t.setBit F.FLC_STAT_DONE b).setBit F.FLC_STAT_FAIL c) := fun t b c => (setFld ..).trans (setFld ..)
  have sqen : ∀ (t : Chip) (b : Bool), t.Aside (if b then t.setBit F.FLC_CTL_SQEN false else t) := fun t b => ite (setFld ..) (refl t)
  have out : ∀ (t : Chip), t.Aside { t with out := { t.out with flash := t.out.flash ++ [(o.src, code)] } } := fun t => ⟨_, _, _, _, _, _, rfl⟩
  have done : ∀ (t : Chip), t.Aside (if s.nfc.harvest then t else t.occ 78) := fun t => ite (refl t) (occ t 78)
  have failed : ∀ (t : Chip), t.Aside (if fail && !s.nfc.harvest then t.occ 79 else t) := fun t => ite (occ t 79) (refl t)
  exact (ite (refl s) ((posted _).trans (flags _ _ _))).trans
    ((setFlc _ _).trans ((sqen _ _).trans ((done _).trans ((failed _).trans (out _)))))

theorem flcNext (s : Chip) (o : FlOp) : s.Aside (s.flcNext o) := by
  have claim : ∀ (t : Chip) (o : FlOp), t.Aside (t.flcClaim o) := by
    intro t o
    unfold Chip.flcClaim
    dsimp only
    split
    · exact refl t
    · exact makeClaim ..
    · exact makeClaim ..
  unfold Chip.flcNext
  split
  · exact flcPost ..
  · exact (setFlc ..).trans (claim ..)

theorem flcServe (s : Chip) : s.Aside s.flcServe := by
  unfold Chip.flcServe
  split
  · exact ite (refl s) ((setFlc ..).trans (flcNext ..))
  · exact refl s

theorem flcRequest (s : Chip) (src : FlSrc) (target : Nat) (steps : List FlStep) : s.Aside (s.flcRequest src target steps) :=
  (setFlc ..).trans (flcServe _)

end Chip.Aside

end Sys2Proof.Machine
end

section
/-!
PROOFS. The steps of the boot, and the wake from HIBERNATE (R110, R126, R557 to R568).
-/
namespace Sys2Proof.Machine

/-! ### The supply, and P0 -/

section
variable {t : Chip}

theorem Chip.bootSupply_carries (hv : t.bear.valid = true) (hr : 9 ≤ t.fld F.EGY_SUPPLY_REFILL) : t.bootSupply = t.bootSelect :=
  if_pos (by simp [hv, romPower, Chip.refill, hr])

theorem Chip.bootSupply_waits (h : t.bear.valid = false ∨ t.fld F.EGY_SUPPLY_REFILL < 9) : t.bootSupply = { t with
    pwr := { t.pwr with bootHeld := true }, bear := { t.bear with retryAt := some (t.bear.retryAt.getD (t.now + 3200000)) } } := by
  refine if_neg ?_
  rcases h with h | h
  · simp [h]
  · simp [romPower, Chip.refill, Nat.not_le.2 h]

end

theorem Chip.aside_journalErase (s : Chip) : s.Aside s.journalErase :=
  (Chip.Aside.setFlc _ _).trans (Chip.Aside.foldl (fun c _ => Chip.Aside.flcRequest c ..) _ _)

theorem Chip.bootSelect_eq (s : Chip) : s.bootSelect = ({ s.journalErase with
    pwr := { s.journalErase.pwr with bootHeld := false }, boot := { s.journalErase.boot with ph := .bootsel s.now 0 true } }).bootSample := by
  obtain ⟨r, i, e, o, b, f, h⟩ := s.aside_journalErase
  rw [Chip.bootSelect, h]

section
variable {s : Chip} {t k : Nat} {low : Bool} (hph : s.boot.ph = .bootsel t k low)
include hph

theorem Chip.bootSample_early (h : s.now < t) : s.bootSample = s := by
  simp only [Chip.bootSample, hph, h, if_true]

theorem Chip.bootSample_next (h : t ≤ s.now) (hk : k < 2) : s.bootSample
    = { s with boot := { s.boot with ph := .bootsel (s.now + 320) (k + 1) (low && !s.inputLevel Mean.BOOTSEL) } } := by
  simp only [Chip.bootSample, hph, Nat.not_lt.2 h, Nat.not_le.2 hk, if_false]
  rfl

theorem Chip.bootSample_last (h : t ≤ s.now) (hk : 2 ≤ k) : s.bootSample = s.bootRun false (low && !s.inputLevel Mean.BOOTSEL) := by
  simp only [Chip.bootSample, hph, Nat.not_lt.2 h, hk, if_false, if_true]

end

/-! ### The run of the ROM -/

theorem Chip.bootRun_recover {s t : Chip} (hf : s.forerunner = false) (ht : t = { s with
    pwr := { s.pwr with bootPending := false, bootHeld := false }, boot := { s.boot with ph := .idle, p0low := true, warm := false } }) :
    s.bootRun false true = t.recover 2 Rc.OK 0 := by
  subst ht
  refine if_pos ?_
  change (true && !s.forerunner) = true
  rw [hf]
  rfl

theorem Chip.bootRun_fail {s t : Chip} {w low : Bool} (ht : t = { s with
    pwr := { s.pwr with bootPending := false, bootHeld := false }, boot := { s.boot with ph := .idle, p0low := low, warm := w } })
    (hl : low = false ∨ s.forerunner = true) (hc : t.applyStream.imageCheck false (w && t.applyStream.owl.imgok) ≠ Rc.OK) :
    s.bootRun w low = t.applyStream.bootFail (t.applyStream.imageCheck false (w && t.applyStream.owl.imgok)) := by
  subst ht
  have stays : ¬ (low && !s.forerunner) = true := by rcases hl with hl | hl <;> simp [hl]
  exact (if_neg stays).trans (if_pos hc)

theorem Chip.endWait_dead {s : Chip} (h : s.boot.ph = .dead) (c : Core) : s.endWait c = s := if_neg (by simp [h])

theorem Chip.bootFail_forerunner {s : Chip} (code : Nat) (h : s.forerunner = true) : s.bootFail code = s.die := if_pos h

theorem stBit_stSet_false (st : Word) (i : Nat) : stBit (stSet st i false) i = false := by
  simp [stBit, stSet]

/-! ### Releases, and the wake from HIBERNATE -/

/-- A granted release starts its core at its entry. -/
theorem Chip.coreRelease_granted {s u : Chip} {c : Core} {l : List Core} (hph : s.boot.ph = .release) (hg : s.boot.granted = true)
    (ht : s.boot.todo = c :: l)
    (hu : u = (if s.pins.phase = .boot then (s.setCore c { pc := s.coreEntry c, run := .run }).enterPhase .run
      else s.setCore c { pc := s.coreEntry c, run := .run })) :
    s.coreRelease c = ({ u with boot := { u.boot with todo := l } }).nextRelease := by
  have boot : u.boot = s.boot := by
    rw [hu]
    split <;> simp [Chip.enterPhase]
  have head : (s.boot.ph = .release && s.boot.granted && s.boot.todo.head? = some c) = true := by simp [hph, hg, ht]
  have phase : (s.setCore c { pc := s.coreEntry c, run := .run }).pins.phase = s.pins.phase := by simp
  rw [Chip.coreRelease, if_pos head]
  simp only [phase, ← hu, boot, ht, List.drop_one, List.tail_cons]

theorem Chip.hibernateWake_granted {s t u v : Chip} (hst : s.pwr.st = .hibernate) (hg : s.pwr.wakeGranted = true) (ht : t = (s.takeCause 2).syncLevel)
    (hu : u = t.clearAllButOwl.restoreSupply) (hv : v = (u.setBear { u.bear with
      level := t.bear.level, levelAt := t.bear.levelAt, grants := t.bear.grants, lastStagger := t.bear.lastStagger, nextMeas := u.owl.measAt }).publish 125) :
    s.hibernateWake = (if s.pwr.wakeDeferred then (v.setReg R.EGY_WDEF (s.reg R.EGY_WDEF)).occ 21 else v).bootJournals.journalErase.bootRun true false := by
  subst ht hu hv
  exact if_pos (by simp [hst, hg])

/-- Settles O28. -/
theorem bootSteps : Obligations.BootSteps := by
  refine ⟨fun s t m hp hh hi hst hn ht => ?_, fun s t m hp hh hm ht => ?_, fun s => s.bootSelect_eq, fun s t k low all hph hall => ?_,
    fun s t ht hf => Chip.bootRun_recover hf ht, fun s t w low ht hl hc => Chip.bootRun_fail ht hl hc, fun s code hf => ?_,
    fun s u c l hph hg ht hu => Chip.gives_of (Chip.coreRelease_granted hph hg ht hu) fun _ => rfl, fun s t u v hst hg ht hu hv => ?_⟩
  · have step : s.bootSequence m = t.bootSupply := ht ▸ if_pos (by simp [hp, hh, hi, hst, hn])
    exact ⟨fun hv hr => Chip.gives_of (step.trans (Chip.bootSupply_carries hv hr)) fun _ => rfl,
      fun h => Chip.gives_of (step.trans (Chip.bootSupply_waits h)) fun _ => rfl⟩
  · have step : s.bootRemeasure m = t.bootSupply := ht ▸ if_pos (by rcases hm with hm | hm <;> simp [hp, hh, hm])
    exact ⟨fun hv hr => Chip.gives_of (step.trans (Chip.bootSupply_carries hv hr)) fun _ => rfl,
      fun h => Chip.gives_of (step.trans (Chip.bootSupply_waits h)) fun _ => rfl⟩
  · subst hall
    exact ⟨fun h => Chip.bootSample_early hph h, fun h hk => Chip.bootSample_next hph h hk, fun h hk => Chip.bootSample_last hph h hk⟩
  · rw [Chip.bootFail_forerunner code hf]
    exact ⟨rfl, rfl, stBit_stSet_false s.cores.foxA.st St.IE, fun c => Chip.endWait_dead rfl c⟩
  · have wake := Chip.hibernateWake_granted hst hg ht hu hv
    refine ⟨fun hd => Chip.gives_of (wake.trans ?_) fun _ => rfl, fun hd => Chip.gives_of (wake.trans ?_) fun _ => rfl⟩
    · rw [hd]
      rfl
    · rw [if_pos hd]

end Sys2Proof.Machine
end

section
/-!
PROOFS. The pin outputs (R87, R89 to R91): each write changes the bits of the agent's own pins alone.
-/
namespace Sys2Proof.Machine

/-- Taking a set bit's weight off clears that bit. -/
theorem testBit_sub_two_pow {m n : Nat} (h : m.testBit n = true) (k : Nat) : (m - 2 ^ n).testBit k = if k = n then false else m.testBit k := by
  have odd : m / 2 ^ n % 2 = 1 := by simpa [Nat.testBit_eq_decide_div_mod_eq] using h
  have low : m % 2 ^ n < 2 ^ n := Nat.mod_lt _ (Nat.two_pow_pos n)
  have whole : m = 2 ^ n * (2 * (m / 2 ^ n / 2) + 1) + m % 2 ^ n := by
    have half : 2 * (m / 2 ^ n / 2) + 1 = m / 2 ^ n := by omega
    rw [half, Nat.div_add_mod]
  have less : m - 2 ^ n = 2 ^ n * (2 * (m / 2 ^ n / 2)) + m % 2 ^ n := by
    conv => lhs; rw [whole]
    rw [Nat.mul_add]
    omega
  generalize m / 2 ^ n / 2 = q at whole less
  generalize m % 2 ^ n = r at low whole less
  rw [less, whole, Nat.testBit_two_pow_mul_add _ low, Nat.testBit_two_pow_mul_add _ low]
  by_cases hk : k < n
  · rw [if_pos hk, if_pos hk, if_neg (Nat.ne_of_lt hk)]
  · obtain ⟨j, rfl⟩ := Nat.exists_eq_add_of_le (Nat.le_of_not_lt hk)
    rw [if_neg hk, if_neg hk, Nat.add_sub_cancel_left]
    cases j with
    | zero => simp
    | succ j =>
      have even : 2 * q / 2 = q := by omega
      have step : (2 * q + 1) / 2 = q := by omega
      rw [if_neg (by omega), Nat.testBit_succ, Nat.testBit_succ, even, step]

theorem testBit_putBit (m n : Nat) (b : Bool) (k : Nat) : (putBit m n b).testBit k = if k = n then b else m.testBit k := by
  unfold putBit
  rw [Nat.one_shiftLeft]
  split
  case isTrue hb =>
    rw [Nat.testBit_or, Nat.testBit_two_pow, hb]
    rw [show decide (n = k) = decide (k = n) from decide_eq_decide.2 eq_comm]
    by_cases h : k = n <;> simp [h]
  case isFalse hb =>
    rw [Bool.not_eq_true] at hb
    rw [hb]
    split
    case isTrue hm => exact testBit_sub_two_pow hm k
    case isFalse hm =>
      by_cases h : k = n
      · rw [if_pos h, h]
        exact Bool.eq_false_iff.2 hm
      · rw [if_neg h]

theorem testBit_foldl_putBit (f : Nat → Bool) (l : List Nat) (m k : Nat) :
    (l.foldl (fun m n => putBit m n (f n)) m).testBit k = if k ∈ l then f k else m.testBit k := by
  induction l generalizing m with
  | nil => simp
  | cons n l ih =>
    rw [List.foldl_cons, ih, testBit_putBit]
    by_cases hl : k ∈ l <;> by_cases hk : k = n <;> simp [hl, hk]

theorem Chip.testBit_ownPins (s : Chip) (ag : Agent) (n : Nat) : (s.ownPins ag).testBit n = (decide (n < 24) && owns ag (s.pinOwner n)) := by
  rw [Chip.ownPins, testBit_foldl_putBit]
  by_cases h : n < 24 <;> simp [h]

theorem Chip.ownPins_lt (s : Chip) (ag : Agent) : s.ownPins ag < 2 ^ 24 :=
  Nat.lt_pow_two_of_testBit _ fun n hn => by simp [Chip.testBit_ownPins, Nat.not_lt.2 hn]

/-- Of the pins that are the agent's the register takes the new bits, of the others it keeps the old. -/
theorem testBit_masked (new old own : Nat) (h : own < 2 ^ 24) {n : Nat} (hn : n < 24) :
    ((new &&& own) ||| (old &&& (0xFFFFFF - own))).testBit n = if own.testBit n then new.testBit n else old.testBit n := by
  have others : (0xFFFFFF - own).testBit n = !own.testBit n := by
    have := Nat.testBit_two_pow_sub_succ h n
    simpa [hn] using this
  rw [Nat.testBit_or, Nat.testBit_and, Nat.testBit_and, others]
  cases own.testBit n <;> simp

theorem Chip.getLsbD_pinBits (s : Chip) (ag : Agent) (r new aimed : Nat) {n : Nat} (hr : r ≠ R.PIN_STAT) (hn : n < 24) :
    ((s.pinBits ag r new aimed).reg r).getLsbD n = if owns ag (s.pinOwner n) = true then new.testBit n else (s.reg r).getLsbD n := by
  have stored : (s.pinBits ag r new aimed).reg r
      = W ((new &&& s.ownPins ag) ||| ((s.reg r).toNat &&& (0xFFFFFF - s.ownPins ag))) :=
    (Chip.reg_setFld_ne _ ⟨R.PIN_STAT, 7, 0⟩ _ hr).trans (s.reg_setReg_self r _)
  have h36 : n < 36 := by omega
  rw [stored, BitVec.getLsbD_ofNat, testBit_masked _ _ _ (s.ownPins_lt ag) hn, s.testBit_ownPins]
  rw [decide_eq_true h36, decide_eq_true hn, Bool.true_and, Bool.true_and]
  rfl

/-- Settles O29. -/
theorem pinOutputs : Obligations.PinOutputs := by
  refine ⟨fun s ag v n own old dir hn hown hold hdir => ?_, fun s ag n hn => ?_, fun s r new aimed n ag hr hn => s.getLsbD_pinBits ag r new aimed hr hn⟩
  · subst hn hown hold hdir
    exact ⟨fun _ => rfl, fun _ => rfl, fun _ => rfl, fun _ => rfl, fun _ => rfl⟩
  · rw [s.testBit_ownPins, decide_eq_true hn, Bool.true_and]

end Sys2Proof.Machine
end

section
/-!
PROOFS. PIN_MAP (R78, R84 to R88, R92) and bank 2's supply (R72).
-/
namespace Sys2Proof.Machine

section
variable {s : Chip} {ag : Agent} {n : Nat} {v w : Word} (hn : n < 24)
  (hw : w = (v &&& 0xF03FFFF03#36) ||| (s.reg (R.PIN_MAP n) &&& 0x0FC0000FC#36))
include hn hw

/-- A write of PIN_MAPn: the lock, the checks in the model's order, and the new map. -/
theorem Chip.pinMapWrite_eq : s.pinMapWrite ag n v =
    if s.lockedSec 6 then s.setReason R.PIN_STAT Rc.LOCKED
    else if !owns ag (s.pinOwner n) then s.setReason R.PIN_STAT Rc.OWNED
    else if !mapCodesOk n w.toNat then s.setReason R.PIN_STAT Rc.RANGE
    else if s.inputsClash (s.pinMaps.set n w.toNat) || s.removesNeeded n w.toNat then s.setReason R.PIN_STAT Rc.PIN_PHASE
    else if s.timerPinBad w.toNat || s.eventPinBad w.toNat then s.setReason R.PIN_STAT Rc.OWNED
    else if s.pins.phase = .run then ((s.setReg (R.PIN_MAP n) w).setReason R.PIN_STAT Rc.OK).pinTakes n (meanIn w.toNat .run)
    else (s.setReg (R.PIN_MAP n) w).setReason R.PIN_STAT Rc.OK := by
  have word : (v.toNat &&& 0xF03FFFF03) ||| (s.pinMap n &&& 0x0FC0000FC) = w.toNat := by
    rw [hw, BitVec.toNat_or, BitVec.toNat_and, BitVec.toNat_and]
    rfl
  have back : W w.toNat = w := by rw [W, BitVec.ofNat_toNat, BitVec.setWidth_eq]
  rw [Chip.pinMapWrite]
  simp only [word, back, Nat.not_le.2 hn, if_false]
  rfl

end

/-- The pins of an unpowered bank neither read nor drive. -/
theorem Chip.unpowered {s : Chip} {n : Nat} (hio : s.pins.io2ok = false) (h12 : 12 ≤ n) : s.inPin n = false ∧ s.gpioDrives n = false := by
  have off : s.pinPowered n = false := by simp [Chip.pinPowered, hio, h12]
  simp [Chip.inPin, Chip.gpioDrives, Chip.padIn, off]

/-- Settles O30. -/
theorem pinMapsAndBanks : Obligations.PinMapsAndBanks := by
  refine ⟨fun s ag n v w hn hw => ?_, fun s b => fun _ => rfl, fun s n hio h12 hn => Chip.unpowered hio h12⟩
  have write : ∀ d, s.pinMapWrite ag n v = d → s.gives (.pinMapWrite ag n v) d := fun d h => Chip.gives_of h fun q => exec_pinMapWrite ⟨q, s⟩ ag n v hn
  have steps := Chip.pinMapWrite_eq (ag := ag) hn hw
  refine ⟨fun hl => ?_, fun hl => ⟨fun ho => ?_, fun ho => ⟨fun hc => ?_, fun hc => ⟨fun hp => ?_, fun hp hq => ⟨fun ht => ?_, fun ht he => ⟨fun hph => ?_, fun hph => ?_⟩⟩⟩⟩⟩⟩ <;>
    refine write _ (steps.trans ?_)
  case refine_1 => rw [if_pos hl]
  all_goals rw [if_neg (by simp [hl])]
  case refine_2 => rw [if_pos (by simp [ho])]
  all_goals rw [if_neg (by simp [ho])]
  case refine_3 => rw [if_pos (by simp [hc])]
  all_goals rw [if_neg (by simp [hc])]
  case refine_4 => rw [if_pos (by simpa using hp)]
  all_goals rw [if_neg (by simp [hp, hq])]
  case refine_5 => rw [if_pos (by simpa using ht)]
  all_goals rw [if_neg (by simp [ht, he])]
  case refine_6 => rw [if_neg hph]
  case refine_7 => rw [if_pos hph]

end Sys2Proof.Machine
end

section
/-!
PROOFS. The hardware sides of a queue (R27, R41).
-/
namespace Sys2Proof.Machine

/-! ### Entries of a ring -/

theorem ringCount_eq {size h t : Nat} (hh : h < size) (ht : t < size) : ringCount size h t = if h ≤ t then t - h else t + size - h := by
  rw [ringCount, if_neg (by omega), Nat.mod_eq_of_lt hh]
  split
  · rw [Nat.sub_add_comm ‹_›, Nat.add_mod_right, Nat.mod_eq_of_lt (by omega)]
  · exact Nat.mod_eq_of_lt (by omega)

theorem ringCount_lt {size h t : Nat} (hh : h < size) (ht : t < size) : ringCount size h t < size := by
  rw [ringCount_eq hh ht]
  split <;> omega

theorem succ_mod_eq {size k : Nat} (hk : k < size) : (k + 1) % size = if k + 1 = size then 0 else k + 1 := by
  split
  case isTrue h => rw [h, Nat.mod_self]
  case isFalse h => exact Nat.mod_eq_of_lt (by omega)

section
variable {size h t : Nat} (hs : 2 ≤ size) (hh : h < size) (ht : t < size)
include hs hh ht

theorem ringCount_tail_succ (hc : ringCount size h t + 1 < size) : ringCount size h ((t + 1) % size) = ringCount size h t + 1 := by
  have next : (t + 1) % size < size := Nat.mod_lt _ (by omega)
  rw [ringCount_eq hh ht] at hc ⊢
  rw [ringCount_eq hh next, succ_mod_eq ht]
  split at hc <;> split <;> split <;> omega

theorem ringCount_head_succ (hc : ringCount size h t ≠ 0) : ringCount size ((h + 1) % size) t + 1 = ringCount size h t := by
  have next : (h + 1) % size < size := Nat.mod_lt _ (by omega)
  rw [ringCount_eq hh ht] at hc ⊢
  rw [ringCount_eq next ht, succ_mod_eq hh]
  split at hc <;> split <;> split <;> omega

end

/-! ### The two sides -/

section
variable {s : Chip} {q : Nat} (hq : q < 32)
include hq

theorem Chip.gives_hwQueueProduce {d : Chip} {e : List Word} (h : s.produce q e = d) : s.gives (.hwQueueProduce q e) d :=
  Chip.gives_of ((s.ofIdx_lt (fun s => s.produce q e) hq).trans h) fun _ => rfl

theorem Chip.gives_hwQueueConsume {d : Chip} {n : Nat} (h : s.consumeN q n = d) : s.gives (.hwQueueConsume q n) d :=
  Chip.gives_of ((s.ofIdx_lt (fun s => s.consumeN q n) hq).trans h) fun _ => rfl

theorem Chip.qOn_eq : s.qOn q = s.bit (F.QUE_CFG_ON q) := by rw [Chip.qOn, decide_eq_true hq, Bool.true_and]

theorem Chip.qTakes_iff : s.qTakes q = true ↔ s.bit (F.QUE_CFG_ON q) = true ∧ s.qCount q + 1 < s.qSize q := by
  rw [Chip.qTakes, Chip.qOn_eq hq, Bool.and_eq_true, decide_eq_true_iff]

theorem Chip.consume_takes (hon : s.bit (F.QUE_CFG_ON q) = true) (hc : s.qCount q ≠ 0) :
    s.consume q = (s.setReg (R.QUE_HEAD q) (W ((s.qHead q + 1) % s.qSize q))).occ (33 + q) := by
  rw [Chip.consume, if_pos (by rw [Chip.qOn_eq hq, hon]; simpa using hc)]
  rfl

theorem Chip.consume_none (h : s.bit (F.QUE_CFG_ON q) = false ∨ s.qCount q = 0) : s.consume q = s := by
  rw [Chip.consume, Chip.qOn_eq hq]
  rcases h with h | h <;> simp [h]

end

/-- Settles O31. -/
theorem queueHardware : Obligations.QueueHardware := by
  refine ⟨fun s q e hq => ⟨fun h => Chip.gives_hwQueueProduce hq (if_pos h), fun h => Chip.gives_hwQueueProduce hq (if_neg (Bool.eq_false_iff.1 h)),
      Chip.qTakes_iff hq⟩,
    fun s q hq => ⟨fun hon hc => Chip.gives_hwQueueConsume hq (Chip.consume_takes hq hon hc), fun h => Chip.gives_hwQueueConsume hq (Chip.consume_none hq h),
      fun n => Chip.gives_hwQueueConsume hq rfl⟩,
    fun size h t hs hh ht => ⟨ringCount_lt hh ht, fun hc => ringCount_tail_succ hs hh ht hc, fun hc => ringCount_head_succ hs hh ht hc⟩⟩

end Sys2Proof.Machine
end

section
/-!
PROOFS. A write of a transmit queue's tail (R266) while the slot engine runs: the engine checks the head entry that it puts there, and
returns a bad one at once (R265).
-/
namespace Sys2Proof.Machine

/-- Transmit queue 8, on and empty, of four entries at 0x010_000, with the engine running; the entry to be queued names neighbour 1, which no
entry of the neighbour table holds. -/
def badEntryBehindTail : Chip :=
  { regs := [(R.QUE_RING 8, W (4 <<< 24 ||| 0x10000)), (R.QUE_CFG 8, W (1 <<< 29 ||| 4 <<< 25 ||| 1 <<< 24))],
    sram := [(0x10000, W (1 <<< 29))], lnk := { running := true } }

/-- The engine returns the entry: the head follows the tail. -/
theorem head_queTailMove_badEntry : (badEntryBehindTail.queTailMove .foxA 8 1).settle.qHead 8 = 1 := by
  rfl

theorem head_tailAlone_badEntry : ((badEntryBehindTail.setReg (R.QUE_TAIL 8) (W 1)).qReason 8 Rc.OK).settle.qHead 8 = 0 := by
  rfl

/-- Refutes O32: the statement has a tail write that passes move the tail alone, and with the engine running the write that puts a first
entry into a transmit queue has its head checked (R265). -/
theorem not_queueSoftware : ¬ Obligations.QueueSoftware := by
  intro h
  obtain ⟨-, tail, -⟩ := h badEntryBehindTail .foxA 8 1 1 (by decide) rfl
  obtain ⟨-, -, moves, -⟩ := tail rfl
  have answer := moves (by decide) (by decide) (Or.inl (by decide)) []
  rw [exec_queTailWrite _ _ _ _ (by decide)] at answer
  have same : (badEntryBehindTail.queTailMove .foxA 8 1).settle = ((badEntryBehindTail.setReg (R.QUE_TAIL 8) (W 1)).qReason 8 Rc.OK).settle := by
    injection answer with answer
    exact congrArg State.chip answer
  have heads := congrArg (Chip.qHead · 8) same
  exact absurd (head_queTailMove_badEntry.symm.trans (heads.trans head_tailAlone_badEntry)) (by decide)

end Sys2Proof.Machine
end

section
/-!
PROOFS. A transmit queue that goes on (R267): the slot engine begins with a new head entry.
-/
namespace Sys2Proof.Machine

/-- Transmit queue 8, off, of four entries at 0x010_000. -/
def transmitQueueOff : Chip := { regs := [(R.QUE_RING 8, W (4 <<< 24 ||| 0x10000)), (R.QUE_CFG 8, W 0)] }

/-- The other fields of its configuration: a transmit queue of Fox A with entries of four words. -/
def transmitCfg : Word := W (1 <<< 29 ||| 4 <<< 25)

theorem heads_queCfgWrite_transmit :
    (transmitQueueOff.queCfgWrite .foxA 8 ((F.QUE_CFG_ON 8).put transmitCfg 1)).settle.lnk.heads ≠ transmitQueueOff.lnk.heads := by
  decide

/-- The writes that the statement names. -/
def transmitQueueOn : Chip :=
  (((((transmitQueueOff.setReg (R.QUE_CFG 8) transmitCfg).setReg (R.QUE_CFG 8) (transmitCfg ||| 0x1000000#36)).setReg (R.QUE_HEAD 8) 0).setReg
    (R.QUE_TAIL 8) 0).setFld (F.QUE_QSTAT_OVF 8) 0).qReason 8 Rc.OK

theorem heads_transmitQueueOn : transmitQueueOn.settle.lnk.heads = transmitQueueOff.lnk.heads := by
  rfl

/-- Refutes O33: the statement has the configuration and the indices written alone, and a transmit queue of the link controller that goes
on also starts the count of its head entries anew (notes/assumptions/84). -/
theorem not_queueOnOff : ¬ Obligations.QueueOnOff := by
  rintro ⟨turnedOn, -⟩
  obtain ⟨on, -⟩ := turnedOn transmitQueueOff .foxA 8 Rc.OK transmitCfg transmitCfg (by decide) rfl rfl rfl rfl
  have answer := on rfl rfl []
  rw [exec_queueOn _ _ _ _ (by decide)] at answer
  have same : (transmitQueueOff.queCfgWrite .foxA 8 ((F.QUE_CFG_ON 8).put transmitCfg 1)).settle = transmitQueueOn.settle := by
    injection answer with answer
    exact congrArg State.chip answer
  exact heads_queCfgWrite_transmit ((congrArg (fun s : Chip => s.lnk.heads) same).trans heads_transmitQueueOn)

end Sys2Proof.Machine
end

section
/-!
PROOFS. Claims: each refusal, the claim that waits, the grant at the end of its cycle, and the order of examination.
-/
namespace Sys2Proof.Machine

/-! ### A claim that reaches Bear -/

/-- The claim that Bear holds for an accepted call of `makeClaim`. -/
def Chip.claimMade (s : Chip) (n p dur : Nat) (ms : Bool) (minP dl : Option Nat) : Claim :=
  let k : Bool := decide (s.fld (F.EGY_DECL_DCLASS n) = 3)
  let t := if k then 0 else if ms then msec dur else us dur
  { who := n, power := p, dur := t, cont := k, minP := minP, deadline := dl.map (fun d => s.now + d), cls := s.fld (F.EGY_DECL_PCLASS n),
    arrival := s.now, earliest := some ((s.now / 32 + 1) * 32), resv := if k then none else s.matchResv n p t }

theorem Chip.bearClaim_eq (s : Chip) {n : Nat} (p dur : Nat) (ms : Bool) (minP dl : Option Nat) (hn : n < 16) :
    s.ofIdx n 16 (fun s => s.claim n p dur ms minP (dl.map (fun d => s.now + d))) =
      (if s.holds n then s
      else if s.fld (F.EGY_DECL_PEAK n) = 0 then (s.dropClaim n).deny n Rc.UNDECLARED
      else if s.fld (F.EGY_DECL_PEAK n) < p then (s.dropClaim n).deny n Rc.BUDGET
      else if !durOk (s.fld (F.EGY_DECL_DCLASS n)) dur ms (decide (s.fld (F.EGY_DECL_DCLASS n) = 3)) then (s.dropClaim n).deny n Rc.RANGE
      else if n = 4 && s.fld F.EGY_STAT_THERM = 2 then (s.dropClaim n).deny n Rc.THERMAL
      else if s.bear.valid && n ≠ 12 && (s.claimMade n p dur ms minP dl).resv.isNone && !s.everFits (s.claimMade n p dur ms minP dl) then
        (s.dropClaim n).deny n Rc.NEVER_FITS
      else s.setBear { s.bear with pend := s.bear.pend.filter (fun x => x.who ≠ n) ++ [s.claimMade n p dur ms minP dl] }) := by
  rw [Chip.ofIdx, if_pos hn, Chip.claim, Chip.makeClaim]
  simp only [Chip.claimMade, energyCycle, decide_eq_true_eq]
  rfl

/-- A duration that suits its class. -/
theorem durOk_eq_true {cls dur : Nat} {ms k : Bool} (hk : k = decide (cls = 3))
    (h : k = true ∨ cls = 0 ∧ ms = false ∧ 1 ≤ dur ∧ dur ≤ 100 ∨ cls = 1 ∧ ms = false ∧ 1 ≤ dur ∧ dur ≤ 10000
      ∨ cls = 2 ∧ 1 ≤ dur ∧ dur ≤ (if ms then 524287 else 524287000)) : durOk cls dur ms k = true := by
  subst hk
  rcases h with h | ⟨rfl, rfl, lo, hi⟩ | ⟨rfl, rfl, lo, hi⟩ | ⟨rfl, lo, hi⟩
  · obtain rfl := of_decide_eq_true h
    rfl
  · simp [durOk, lo, hi]
  · simp [durOk, lo, hi]
  · cases ms <;> simpa [durOk, Nat.one_le_iff_ne_zero] using ⟨Nat.one_le_iff_ne_zero.1 lo, hi⟩

/-- A duration that its class refuses. -/
theorem durOk_eq_false {cls dur : Nat} {ms : Bool}
    (h : cls = 0 ∧ (ms = true ∨ dur = 0 ∨ 100 < dur) ∨ cls = 1 ∧ (ms = true ∨ dur = 0 ∨ 10000 < dur)
      ∨ cls = 2 ∧ (dur = 0 ∨ 524287000 < dur ∨ ms = true ∧ 524287 < dur)) : durOk cls dur ms (decide (cls = 3)) = false := by
  rcases h with ⟨rfl, h⟩ | ⟨rfl, h⟩ | ⟨rfl, h⟩
  · rcases h with rfl | rfl | h <;> simp [durOk, *]
  · rcases h with rfl | rfl | h <;> simp [durOk, *]
  · rcases h with rfl | h | ⟨rfl, h⟩
    · rfl
    · cases ms <;> simp [durOk] <;> omega
    · simp [durOk, h]

/-! ### The grant of a continuous claim that waits alone -/

@[simp] theorem Chip.answer_bear (s : Chip) (r : Answer) : (s.answer r).bear = s.bear := by
  unfold Chip.answer
  dsimp only
  split <;> split <;> rfl

theorem Chip.claimOf_of_only {s : Chip} {c : Claim} (h : s.bear.pend = [c]) : s.claimOf c.who = some c := by simp [Chip.claimOf, h]

/-- A grant is held from then on, and its claim waits no more. -/
theorem Chip.grant_holds (s : Chip) (c : Claim) (p : Nat) : (s.grant c p).holds c.who = true ∧ (s.grant c p).claimOf c.who = none := by
  simp [Chip.holds, Chip.grantOf, Chip.claimOf, Chip.grant]

/-- FREE carries a continuous claim that no warning holds and no stagger meets: it may start now. -/
theorem Chip.earliest_of_free {s : Chip} {c : Claim} (stag : Nat) (lo : 3 ≤ c.who) (n4 : c.who ≠ 4) (n12 : c.who ≠ 12) (hc : c.cont = true)
    (hr : c.resv = none) (hv : s.bear.valid = true) (hw : s.warnHold = false) (hf : (c.power : Int) ≤ freeRefill s.refill s.bear.grants) :
    (s.earliest c stag).1 = some s.now := by
  have bound : s.energyBound c = (s.now, true) := by simp [Chip.energyBound, hv, hr, hc, hf]
  have free : staggered c.who = false := by
    have : ¬ c.who ≤ 2 := by omega
    simp [staggered, this, n12]
  simp [Chip.earliest, bound, free, Chip.dutyBound, n4, hw]

/-- The claim that waits alone, and that may start, is granted. -/
theorem Chip.examine_grants {s : Chip} {c : Claim} (stag : Nat) (lo : 3 ≤ c.who) (n4 : c.who ≠ 4) (n12 : c.who ≠ 12) (hp : s.bear.pend = [c])
    (hc : c.cont = true) (hr : c.resv = none) (hv : s.bear.valid = true) (hw : s.warnHold = false)
    (hf : (c.power : Int) ≤ freeRefill s.refill s.bear.grants) : (s.examine stag c.who).1 = s.grant c c.power := by
  have start := Chip.earliest_of_free stag lo n4 n12 hc hr hv hw hf
  simp [Chip.examine, Chip.claimOf_of_only hp, hr, n12, start]

/-- The claim that waits alone, from an earlier cycle, and that may start, is granted by admission. -/
theorem Chip.admission_grants {s : Chip} {c : Claim} (lo : 3 ≤ c.who) (n4 : c.who ≠ 4) (n12 : c.who ≠ 12) (hp : s.bear.pend = [c])
    (hc : c.cont = true) (hr : c.resv = none) (past : c.arrival / 32 < s.now / 32) (hv : s.bear.valid = true) (hw : s.warnHold = false)
    (hf : (c.power : Int) ≤ freeRefill s.refill s.bear.grants) : s.admission = s.syncLevel.grant c c.power := by
  have old : s.fresh c = false := by simp [Chip.fresh, energyCycle, Nat.ne_of_lt past]
  have order : ((s.bear.pend.filter fun c => !s.fresh c).foldr insertClaim []).map Claim.who = [c.who] := by
    simp [hp, old, insertClaim]
  rw [Chip.admission, Chip.examineAll, order]
  exact Chip.examine_grants (s := s.syncLevel) _ lo n4 n12 hp hc hr hv hw hf

/-! ### The order of examination -/

theorem insertClaim_perm (c : Claim) (l : List Claim) : (insertClaim c l).Perm (c :: l) := by
  induction l with
  | nil => exact .refl _
  | cons x l ih =>
    unfold insertClaim
    split
    · exact .refl _
    · exact (ih.cons x).trans (.swap c x l)

/-- Every pending claim once. -/
theorem examination_perm (l : List Claim) : (l.foldr insertClaim []).Perm l := by
  induction l with
  | nil => exact .refl _
  | cons x l ih => exact (insertClaim_perm x _).trans (ih.cons x)

/-- What comes before what. -/
theorem claimBefore_iff (a b : Claim) : claimBefore a b = true ↔
    a.cls < b.cls ∨ a.cls = b.cls ∧ (a.resv.isSome = true ∧ b.resv.isSome = false
      ∨ a.resv.isSome = b.resv.isSome ∧ (a.arrival / 32 < b.arrival / 32 ∨ a.arrival / 32 = b.arrival / 32 ∧ a.who ≤ b.who)) := by
  unfold claimBefore energyCycle
  grind

theorem claimBefore_total (a b : Claim) : claimBefore a b = true ∨ claimBefore b a = true := by
  simp only [claimBefore_iff]
  cases a.resv.isSome <;> cases b.resv.isSome <;> simp <;> omega

theorem claimBefore_trans (a b c : Claim) (h : claimBefore a b = true) (k : claimBefore b c = true) : claimBefore a c = true := by
  rw [claimBefore_iff] at h k ⊢
  grind

theorem insertClaim_sorted (c : Claim) {l : List Claim} (h : l.Pairwise (fun a b => claimBefore a b = true)) :
    (insertClaim c l).Pairwise (fun a b => claimBefore a b = true) := by
  induction l with
  | nil => exact List.pairwise_singleton _ c
  | cons x l ih =>
    obtain ⟨first, rest⟩ := List.pairwise_cons.1 h
    unfold insertClaim
    split
    case isTrue hc =>
      refine List.pairwise_cons.2 ⟨fun y hy => ?_, h⟩
      rcases List.mem_cons.1 hy with rfl | hy
      · exact hc
      · exact claimBefore_trans c x y hc (first y hy)
    case isFalse hc =>
      refine List.pairwise_cons.2 ⟨fun y hy => ?_, ih rest⟩
      rcases List.mem_cons.1 ((insertClaim_perm c l).mem_iff.1 hy) with rfl | hy
      · exact (claimBefore_total y x).resolve_left hc
      · exact first y hy

theorem examination_sorted (l : List Claim) : (l.foldr insertClaim []).Pairwise (fun a b => claimBefore a b = true) := by
  induction l with
  | nil => exact .nil
  | cons x l ih => exact insertClaim_sorted x ih

/-- Settles O34. -/
theorem claimsAreAnswered : Obligations.ClaimsAreAnswered := by
  unfold Obligations.ClaimsAreAnswered
  refine ⟨fun s n p dur ms minP dl hn => ?_, fun s u c hp hc lo n4 n12 _ hr past hv hw hf hu => ?_, fun l => ⟨?_, ?_⟩⟩
  · have answers {d : Chip} (h : s.ofIdx n 16 (fun s => s.claim n p dur ms minP (dl.map (fun d => s.now + d))) = d) :
        s.gives (.bearClaim n p dur ms minP dl) d := Chip.gives_of h fun _ => rfl
    rw [s.bearClaim_eq p dur ms minP dl hn] at answers
    refine ⟨fun held => answers (if_pos held), fun free => ?_⟩
    rw [if_neg (by simp [free])] at answers
    refine ⟨fun h0 => answers (if_pos h0), fun h0 hp => answers (by rw [if_neg h0, if_pos hp]), fun hp h0 hd => answers ?_, ?_⟩
    · rw [if_neg h0, if_neg (by omega), if_pos (by rw [durOk_eq_false hd]; rfl)]
    · intro c t k h0 hp hk hd ht hc
      have hd := durOk_eq_true hk hd
      have made : s.claimMade n p dur ms minP dl = c := by
        subst hk ht hc
        rfl
      rw [made, if_neg h0, if_neg (by omega), if_neg (by rw [← hk, hd]; simp)] at answers
      refine ⟨fun h4 th => answers (if_pos (by simp [h4, th])), fun cool => ?_⟩
      rw [if_neg (by simpa [Decidable.imp_iff_not_or] using cool)] at answers
      refine ⟨fun hv h12 hr hf => answers (if_pos (by simp [hv, h12, hr, hf])), fun fits => answers (if_neg ?_)⟩
      intro never
      simp only [Bool.and_eq_true, decide_eq_true_eq, Option.isNone_iff_eq_none, Bool.not_eq_true'] at never
      obtain ⟨⟨⟨hv, h12⟩, hr⟩, hf⟩ := never
      rcases fits with h | h | h | h
      · simp [hv] at h
      · exact h12 h
      · simp [hr] at h
      · simp [hf] at h
  · subst hu
    refine ⟨Chip.gives_of (e := s.reexamine c.who) ?_ fun _ => rfl, s.syncLevel.grant_holds c _⟩
    rw [Chip.reexamine, Chip.claimOf_of_only hp, Option.isSome_some, if_pos rfl, Chip.admission_grants lo n4 n12 hp hc hr past hv hw hf]
  · exact examination_perm l
  · exact (examination_sorted l).imp fun {a b} h => (claimBefore_iff a b).1 h

end Sys2Proof.Machine
end

section
/-!
PROOFS. The ends of claims and grants.
-/
namespace Sys2Proof.Machine

/-- The end of a grant of a claimant whose end moves nothing but the account. -/
theorem Chip.endGrant_of_holds {s : Chip} {n : Nat} (lo : n < 13) (n4 : n ≠ 4) (h : s.holds n = true) :
    s.endGrant n =
      (s.syncLevel.setBear { s.syncLevel.bear with grants := s.syncLevel.bear.grants.filter (fun g => g.who ≠ n) }).admission := by
  simp only [Chip.endGrant, if_pos h, if_neg n4, if_neg (by omega : ¬ 13 ≤ n)]

theorem Chip.endGrant_of_not_holds {s : Chip} {n : Nat} (h : s.holds n = false) : s.endGrant n = s := by
  rw [Chip.endGrant, if_neg (by simp [h])]

/-- Claimants 5, 8 and 10 have no course of their own at the end of a burst. -/
theorem Chip.burstEnd_of_burst {s : Chip} {n : Nat} (hn : n = 5 ∨ n = 8 ∨ n = 10) (h : s.holds n = true)
    (burst : ∀ g, s.grantOf n = some g → g.cont = false) : s.burstEnd n = s.endGrant n := by
  obtain ⟨g, hg⟩ := Option.isSome_iff_exists.1 h
  have any : (s.grantOf n).any (fun g => !g.cont) = true := by simp [hg, burst g hg]
  rcases hn with rfl | rfl | rfl <;> exact if_pos any

/-- The claim with which a stopped grant of claimant `n` waits again, at the instant `t`. -/
def Grant.rejoined (g : Grant) (n t : Nat) : Claim :=
  { who := n, power := g.power, dur := if g.cont then 0 else g.dur - (t - g.start), cont := g.cont, cls := g.cls, arrival := g.arrival,
    minP := g.minP, deadline := g.deadline, answered := true, cause := Rc.PREEMPTED }

/-- A marked grant that stops rejoins the pending claims. -/
theorem Chip.preemptStop_of_marked {s : Chip} {n : Nat} {g : Grant} (lo : n < 13) (hg : s.grantOf n = some g) (hm : g.marked = true) :
    s.preemptStop n =
      ((s.syncLevel.setBear { s.syncLevel.bear with grants := s.syncLevel.bear.grants.filter (fun x => x.who ≠ n),
                                                    pend := s.syncLevel.bear.pend ++ [g.rejoined n s.now] }).answer
        { who := n, kind := .defer, code := Rc.PREEMPTED }).admission := by
  simp only [Chip.preemptStop, hg]
  rw [if_neg (by simp only [hm]; simpa using lo)]
  rfl

/-- Settles O35. -/
theorem grantsEnd : Obligations.GrantsEnd := by
  unfold Obligations.GrantsEnd
  refine ⟨fun s u n lo n4 h hu => ?_, fun s n h => ?_, fun s u n hn h burst hu => ?_, fun s u n g c a lo hg hm safe hu ha hc => ?_,
    fun s n risky => ?_, fun s n d c hc hd => ?_, fun s n => ⟨fun none => ⟨?_, ?_⟩, fun some => ?_⟩⟩
  · subst hu
    exact Chip.gives_of (e := s.release n) (Chip.endGrant_of_holds (s := s.dropClaim n) lo n4 h) fun _ => rfl
  · exact Chip.gives_of (e := s.release n) (Chip.endGrant_of_not_holds (s := s.dropClaim n) h) fun _ => rfl
  · subst hu
    have lo : n < 13 ∧ n ≠ 4 := by omega
    exact Chip.gives_of (e := s.burstEnd n) ((Chip.burstEnd_of_burst hn h burst).trans (Chip.endGrant_of_holds lo.1 lo.2 h)) fun _ => rfl
  · subst hu ha hc
    exact Chip.gives_of (e := s.preemptAt n) ((if_pos safe).trans (Chip.preemptStop_of_marked lo hg hm)) fun _ => rfl
  · exact Chip.gives_of (e := s.preemptAt n) (if_neg (by simp [risky])) fun _ => rfl
  · exact Chip.gives_of (e := s.deadlinePassed n) (by simp only [Chip.deadlinePassed, hc, hd]) fun _ => rfl
  · exact Chip.gives_of (e := s.reexamine n) (if_neg (by simp [none])) fun _ => rfl
  · exact Chip.gives_of (e := s.deadlinePassed n) (by simp only [Chip.deadlinePassed, none]) fun _ => rfl
  · exact Chip.gives_of (e := s.reexamine n) (if_pos some) fun _ => rfl

end Sys2Proof.Machine
end

section
/-!
PROOFS. The measurements of the supply.
-/
namespace Sys2Proof.Machine

/-! ### A sample of VSYS, and a measurement that falls due -/

theorem Chip.vsysSample_of_valid {s : Chip} (v : Nat) (h : s.bear.valid = true) :
    s.vsysSample v =
      (if s.bear.c.1 * (v * v - 9000000000000) / (14375 * s.bear.c.2) < s.syncLevel.bear.level then
        (s.syncLevel.setBear { s.syncLevel.bear with level := s.bear.c.1 * (v * v - 9000000000000) / (14375 * s.bear.c.2) }).admission
      else s.syncLevel) := by
  rw [Chip.vsysSample, if_neg (by simp [h])]
  rfl

theorem Chip.measInterval_eq (s : Chip) {u : Chip}
    (hu : u = s.setBear { s.bear with nextMeas := some (s.now + 1920000000 * s.fld F.EGY_CFG_MEASINT), measDue := true }) :
    s.measInterval = if s.pwr.st = .run then u.measStart else u := by
  have minute : secs (60 * s.fld F.EGY_CFG_MEASINT) = 1920000000 * s.fld F.EGY_CFG_MEASINT := by rw [secs, ← Nat.mul_assoc]
  rw [hu, Chip.measInterval, minute]
  rfl

/-! ### A measurement that is due -/

/-- A measurement that is due starts when the account allows it. -/
theorem Chip.measStart_of_due {s : Chip} (due : s.bear.measDue = true) (idle : s.bear.measuring = false) (wake : s.syncLevel.wakeMeasDue = false) :
    s.measStart =
      if s.syncLevel.measLevelOk then s.syncLevel.setBear { s.syncLevel.bear with measDue := false, measuring := true } else s.syncLevel := by
  rw [Chip.measStart, if_neg (by simp [due, idle])]
  simp only [wake, Bool.false_eq_true, if_false]
  rfl

theorem Chip.measLevelOk_iff (s : Chip) : s.measLevelOk = true ↔
    s.bear.valid = false ∨ (s.acct s.bear.grants s.bear.resv).head + (s.acct s.bear.grants s.bear.resv).kept s.now + uJ 250 ≤ s.bear.level := by
  simp [Chip.measLevelOk]

/-! ### A measurement that completes -/

theorem Chip.measResult_of_measuring {s : Chip} (m : SupplyMeas) (h : s.bear.measuring = true) :
    s.measResult m = if s.pwr.bootPending && s.pwr.bootHeld then (s.measDone m).bootSupply else s.measDone m := by
  rw [Chip.measResult, if_neg (by simp [h])]

/-- A measurement that did not move and reaches both floors is taken. -/
theorem Chip.measDone_of_good {s : Chip} {m : SupplyMeas} (still : supplyMoved m = false)
    (refill : s.fld F.EGY_RLIM_FLOOR ≤ supplyRefill m (s.fld F.PMU_BOD_VINBOD)) (cap : s.fld F.EGY_CLIM_FLOOR ≤ supplyCap m) :
    s.measDone m = (s.setBear { s.bear with measuring := false }).takeSupply m Rc.OK := by
  have fld (f : Fld) (b : Bear) : (s.setBear b).fld f = s.fld f := rfl
  rw [Chip.measDone, if_neg (by simp [still]), if_neg (by simp [fld, refill, cap])]

/-- One that moved, the first or the second in a row, is repeated after 10 ms. -/
theorem Chip.measDone_of_moved {s : Chip} {m : SupplyMeas} (moved : supplyMoved m = true) (few : s.bear.calFails < 2) :
    s.measDone m =
      (s.setBear { s.bear with measuring := false, calFails := s.bear.calFails + 1, retryAt := some (s.now + 320000) }).setReason R.EGY_STAT
        Rc.CAL_FAIL := by
  have third : ¬ 3 ≤ s.bear.calFails + 1 := by omega
  rw [Chip.measDone, if_pos moved]
  simp only [Chip.setBear_bear, third, if_false]
  rfl

/-- Settles O36. -/
theorem supplyMeasurements : Obligations.SupplyMeasurements := by
  unfold Obligations.SupplyMeasurements
  refine ⟨fun s u v hu => ?_, fun s u hu => ?_, fun s ag => ?_, fun s u due idle hu wake => ?_, fun s u m on hu => ?_, fun s t ht => ?_⟩
  · subst hu
    have answers {d : Chip} (h : s.vsysSample v = d) : s.gives (.vsysSample v) d := Chip.gives_of h fun _ => rfl
    refine ⟨fun hv => answers (if_pos (by simp [hv])), fun hv lo => answers ?_, fun hv hi => answers ?_⟩
    · rw [Chip.vsysSample_of_valid v hv, if_pos lo]
    · rw [Chip.vsysSample_of_valid v hv, if_neg (by omega)]
  · have answers {d : Chip} (h : s.measInterval = d) : s.gives .measIntervalExpiry d := Chip.gives_of h fun _ => rfl
    rw [s.measInterval_eq hu] at answers
    exact ⟨fun run => answers (if_pos run), fun rest => answers (if_neg rest)⟩
  · have answers {d : Chip} (h : s.measCmd = d) : s.gives (.egyMeasCmd ag) d := Chip.gives_of h fun _ => rfl
    exact ⟨fun busy => answers (if_pos (by simpa using busy)), fun idle free => answers (if_neg (by simp [idle, free]))⟩
  · subst hu
    have answers {d : Chip} (h : s.measStart = d) : s.gives .measurementStart d := Chip.gives_of h fun _ => rfl
    rw [Chip.measStart_of_due due idle wake] at answers
    refine ⟨fun ok => answers (if_pos ((Chip.measLevelOk_iff _).2 ok)), fun hv low => answers (if_neg ?_)⟩
    rw [Chip.measLevelOk_iff, not_or]
    exact ⟨by simp [hv], by omega⟩
  · subst hu
    have answers {d : Chip} (h : s.measResult m = d) : s.gives (.measurementDone m) d := Chip.gives_of h fun _ => rfl
    rw [Chip.measResult_of_measuring m on] at answers
    refine ⟨fun still refill cap => answers ?_, fun moved few w hw => answers ?_⟩
    · rw [Chip.measDone_of_good still refill cap]
    · subst hw
      rw [Chip.measDone_of_moved moved few]
      rfl
  · exact Chip.gives_of (e := s.measRetry) (if_pos (by simp [ht])) fun _ => rfl

end Sys2Proof.Machine
end

section
/-!
PROOFS. Reservations: added, cleared, expired, counted.
-/
namespace Sys2Proof.Machine

/-- Where an add lands, counted from `k`: the first free entry. -/
theorem addResv_spec (b : Resv) (l : List (Option Resv)) {k i : Nat} (h : (addResv b l k).2 = some i) :
    ∃ j, i = k + j ∧ l.getD j (some b) = none ∧ (addResv b l k).1 = l.set j (some b) ∧ ∀ m < j, (l.getD m none).isSome = true := by
  induction l generalizing k with
  | nil => cases h
  | cons o l ih =>
    cases o with
    | none =>
      obtain rfl := Option.some.inj h
      exact ⟨0, rfl, rfl, rfl, fun m hm => absurd hm m.not_lt_zero⟩
    | some x =>
      obtain ⟨j, hi, free, put, full⟩ := ih h
      refine ⟨j + 1, by omega, free, congrArg (some x :: ·) put, fun m hm => ?_⟩
      cases m with
      | zero => rfl
      | succ m => exact full m (by omega)

/-- With no claim of the same cycle before it, an add is checked at once. -/
theorem Chip.reserve_of_settled {s : Chip} (b : Resv) (h : ∀ c ∈ s.bear.pend, s.fresh c = false) :
    s.reserve b =
      (if (addResv b s.syncLevel.bear.resv 0).2.isNone then (Rc.RES_FULL, none, s.syncLevel)
      else if b.start < s.owl.stb + 33 ∨ 2 ^ 24 < b.start - s.owl.stb then (Rc.RES_WINDOW, none, s.syncLevel)
      else if (s.syncLevel.acct s.syncLevel.bear.grants (addResv b s.syncLevel.bear.resv 0).1).carries then
        (Rc.OK, (addResv b s.syncLevel.bear.resv 0).2, s.syncLevel.setBear { s.syncLevel.bear with resv := (addResv b s.syncLevel.bear.resv 0).1 })
      else (Rc.RES_OVERBOOK, none, s.syncLevel)) := by
  have settled : s.bear.pend.any s.fresh = false := by simpa using h
  have flip (p : Bool) (x y : Nat × Option Nat × Chip) : (if !p then x else y) = if p then y else x := by cases p <;> rfl
  simp only [Chip.reserve, settled, Bool.false_eq_true, if_false, flip]
  rfl

/-- The code of a checked add. -/
def Chip.addCode (s : Chip) (b : Resv) : Nat :=
  if (addResv b s.syncLevel.bear.resv 0).2.isNone then Rc.RES_FULL
  else if b.start < s.owl.stb + 33 ∨ 2 ^ 24 < b.start - s.owl.stb then Rc.RES_WINDOW
  else if (s.syncLevel.acct s.syncLevel.bear.grants (addResv b s.syncLevel.bear.resv 0).1).carries then Rc.OK else Rc.RES_OVERBOOK

/-- A refused add leaves the table. -/
theorem Chip.reserve_refused {s : Chip} {b : Resv} (h : ∀ c ∈ s.bear.pend, s.fresh c = false) (no : s.addCode b ≠ Rc.OK) :
    s.reserve b = (s.addCode b, none, s.syncLevel) := by
  rw [Chip.reserve_of_settled b h]
  revert no
  unfold Chip.addCode
  split
  · exact fun _ => rfl
  split
  · exact fun _ => rfl
  split
  · exact fun no => absurd rfl no
  · exact fun _ => rfl

/-- An accepted add puts the reservation into the table. -/
theorem Chip.reserve_accepted {s : Chip} {b : Resv} (h : ∀ c ∈ s.bear.pend, s.fresh c = false) (ok : s.addCode b = Rc.OK) :
    s.reserve b = (Rc.OK, (addResv b s.syncLevel.bear.resv 0).2,
      s.syncLevel.setBear { s.syncLevel.bear with resv := (addResv b s.syncLevel.bear.resv 0).1 }) := by
  rw [Chip.reserve_of_settled b h]
  revert ok
  unfold Chip.addCode
  split
  · exact fun ok => absurd ok (by decide)
  split
  · exact fun ok => absurd ok (by decide)
  split
  · exact fun _ => rfl
  · exact fun ok => absurd ok (by decide)

theorem Chip.egyResc_of_some {s : Chip} {v : Word} {b : Resv} (ag : Agent) (h : s.bear.resv.getD (v.toNat % 64) none = some b) :
    s.egyResc ag v =
      if b.bySlot && ag ≠ .badger then s.setReason R.EGY_STAT Rc.OWNED
      else ((s.setBear { s.bear with resv := s.bear.resv.set (v.toNat % 64) none }).setReason R.EGY_STAT Rc.OK).admission := by
  simp only [Chip.egyResc, h]
  rfl

/-- Settles O37. -/
theorem reservations : Obligations.Reservations := by
  unfold Obligations.Reservations
  refine ⟨fun s u ag v b l k code settled hu hb hl hcode => ?_, fun b l i h => ?_, fun s ag v b h => ?_, fun s i b h => ?_, fun s i h => ?_,
    fun s ag => Chip.gives_of rfl fun _ => rfl⟩
  · subst hu
    obtain ⟨rfl, rfl⟩ := Prod.mk.inj hl
    have code_eq : s.addCode b = code := hcode.symm
    have answers {d : Chip} (h : s.egyResp ag v = d) : s.gives (.egyRespWrite ag v) d := Chip.gives_of h fun _ => rfl
    refine ⟨fun no r hr => answers ?_, fun i r hi ok hr => answers ?_⟩
    · subst hr
      rw [Chip.egyResp, ← hb, Chip.reserve_refused settled (by rwa [code_eq]), code_eq]
      rfl
    · subst hr
      rw [Chip.egyResp, ← hb, Chip.reserve_accepted settled (code_eq.trans ok), hi]
      rfl
  · obtain ⟨j, rfl, free, put, full⟩ := addResv_spec b l h
    rw [Nat.zero_add]
    exact ⟨free, put, full⟩
  · have answers {d : Chip} (h : s.egyResc ag v = d) : s.gives (.egyRescWrite ag v) d := Chip.gives_of h fun _ => rfl
    rw [Chip.egyResc_of_some ag h] at answers
    refine ⟨fun slot other => answers (if_pos (by simp [slot, other])), fun may => answers (if_neg ?_)⟩
    rcases may with may | may <;> simp [may]
  · exact Chip.gives_of (e := s.expireResv i) (by simp only [Chip.expireResv, h]; rfl) fun _ => rfl
  · exact Chip.gives_of (e := s.expireResv i) (by simp only [Chip.expireResv, h]) fun _ => rfl

end Sys2Proof.Machine
end

section
/-!
PROOFS. Declarations and software claims.
-/
namespace Sys2Proof.Machine

/-- RANGE is the one code with which a declaration is refused. -/
theorem declCheck_eq (n v : Nat) : declCheck n v = Rc.OK ∨ declCheck n v = Rc.RANGE := by
  unfold declCheck
  dsimp only
  split
  · exact .inr rfl
  split
  · exact .inr rfl
  split
  · exact .inr rfl
  · exact .inl rfl

/-- What a declaration register would hold after a write of `v`. -/
def Chip.declNew (s : Chip) (n : Nat) (v : Word) : Nat :=
  (v.toNat &&& (if n ≤ 12 then 0xB0FFF else 0xBCFFF)) |||
    ((s.reg (R.EGY_DECL n)).toNat - ((s.reg (R.EGY_DECL n)).toNat &&& (if n ≤ 12 then 0xB0FFF else 0xBCFFF)))

theorem Chip.egyDecl_eq (s : Chip) {n : Nat} (v : Word) (hn : n < 16) :
    s.egyDecl n v =
      if s.lockedSec 3 then s.setReason R.EGY_STAT Rc.LOCKED
      else if declCheck n (s.declNew n v) ≠ Rc.OK then s.setReason R.EGY_STAT (declCheck n (s.declNew n v))
      else if (s.grantOf n).any (fun g => bits (s.declNew n v) 11 0 < g.power) then s.setReason R.EGY_STAT Rc.BUSY
      else (s.setReg (R.EGY_DECL n) (W (s.declNew n v))).setReason R.EGY_STAT Rc.OK :=
  if_neg (by omega)

/-- A write of a software claimant's claim register. -/
theorem Chip.swClaimWrite_eq (s : Chip) (ag : Agent) {n : Nat} (v : Word) (lo : 13 ≤ n) (hi : n ≤ 15) : s.swClaimWrite ag n v = s.egySwclm n v := by
  rw [Chip.swClaimWrite, if_pos ⟨lo, hi⟩]
  obtain rfl | rfl | rfl : n = 13 ∨ n = 14 ∨ n = 15 := by omega
  all_goals
    rw [s.regWrite_egy ag _ _ (by decide) (by decide)]
    rfl

/-- Settles O38. -/
theorem declarationsAndSoftwareClaims : Obligations.DeclarationsAndSoftwareClaims := by
  unfold Obligations.DeclarationsAndSoftwareClaims
  refine ⟨fun s ag n new v hn hnew => ?_, fun s ag n v lo hi => ?_⟩
  · have made : s.declNew n v = new := hnew.symm
    have answers {d : Chip} (h : s.egyDecl n v = d) : s.gives (.egyDeclWrite ag n v) d := Chip.gives_of h fun q => exec_egyDeclWrite ⟨q, s⟩ ag n v hn
    rw [s.egyDecl_eq v hn, made] at answers
    refine ⟨fun locked => answers (if_pos locked), fun free good => ?_, fun free bad => answers ?_⟩
    · rw [if_neg (by simp [free]), if_neg (Classical.not_not.2 good)] at answers
      refine ⟨fun g hg above => answers (if_pos (by simp [hg, above])), fun within => answers (if_neg ?_)⟩
      cases hg : s.grantOf n with
      | none => simp
      | some g => simpa using within g hg
    · rw [if_neg (by simp [free]), if_pos bad, (declCheck_eq n new).resolve_left bad]
  · have answers {d : Chip} (h : s.egySwclm n v = d) : s.gives (.swClaim ag n v) d :=
      Chip.gives_of ((s.swClaimWrite_eq ag v lo hi).trans h) fun _ => rfl
    rw [Chip.egySwclm, if_neg (by omega)] at answers
    refine ⟨fun some held => answers ?_, fun some free => answers ?_, ?_⟩
    · rw [if_neg some, if_pos held]
    · rw [if_neg some, if_neg (by simp [free])]
    · refine Chip.gives_of (e := s.swClaimWrite ag n 0) ((s.swClaimWrite_eq ag 0 lo hi).trans ?_) fun _ => rfl
      rw [Chip.egySwclm, if_neg (by omega)]
      rfl

end Sys2Proof.Machine
end

section
/-!
PROOFS. The health monitor.
-/
namespace Sys2Proof.Machine

/-- One quantity of a re-plan that has a value. -/
theorem Chip.planOne_of_some {s : Chip} {k v floor ceil x : Nat} (hv : s.planValue k = some v) (hm : s.margin k = (x, floor, ceil)) :
    s.planOne k = (if max floor (min ceil v) = v then s.loadMargin k v
      else (s.loadMargin k (max floor (min ceil v))).setFld ⟨R.MON_STAT, 8 + k, 8 + k⟩ 1) := by
  simp only [Chip.planOne, hv, hm]
  split
  next h => rw [h]
  next => rfl

/-- The end of a commanded re-plan whose life alarm is not new. -/
theorem Chip.replanDone_of_commanded {s t u : Chip} {a : Bool} (on : s.mon.planning = true)
    (ht : t = if s.cfg.adaptive then (((s.planOne 1).planOne 2).planOne 3).planOne 4 else s)
    (hu : u = (t.setFld F.MON_PLAN1_LIFE t.lifeEstimate).setReg R.MON_LAST (W t.owl.stb))
    (ha : a = (u.cfg.lifeAlarm ≠ 0 && t.lifeEstimate ≠ 0xFFF && t.lifeEstimate ≤ u.cfg.lifeAlarm))
    (cmd : t.mon.commanded = true) (old : a = false ∨ u.bit F.MON_STAT_LIFEALM = true) :
    s.replanDone = Chip.admission { ((u.setBit F.MON_STAT_LIFEALM a).setBit F.MON_STAT_PLANNING false).setReason R.MON_STAT Rc.OK with
      mon := { u.mon with planning := false, planDoneAt := none } } := by
  have plan : (if s.cfg.adaptive then [1, 2, 3, 4].foldl Chip.planOne s else s) = t := by
    rw [ht, List.foldl_cons, List.foldl_cons, List.foldl_cons, List.foldl_cons, List.foldl_nil]
  have quiet : (a && !u.bit F.MON_STAT_LIFEALM) = false := by
    rcases old with h | h <;> simp [h]
  rw [Chip.replanDone, if_neg (by simp [on])]
  simp only [plan, cmd, if_true, ← hu, ← ha, quiet, Bool.false_eq_true, if_false]
  rfl

/-- Settles O39. -/
theorem healthMonitor : Obligations.HealthMonitor := by
  unfold Obligations.HealthMonitor
  refine ⟨fun s n on => ⟨_, rfl, ?_⟩, fun s l run => ⟨_, rfl, ?_⟩, fun s ag => ⟨fun busy => ⟨?_, ?_⟩, fun idle => ⟨?_, ?_⟩⟩,
    fun s k v floor ceil x hv hm => Chip.planOne_of_some hv hm, fun s idle => ?_, fun s t u a on _ ht hu ha cmd old => ?_⟩
  · exact Chip.gives_of (e := s.hfLfMeasure n) (if_neg (by simp [on])) fun _ => rfl
  · exact Chip.gives_of (e := s.ringMeasure l) (if_neg (by simp [Chip.fabricOn, run])) fun _ => rfl
  · exact Chip.gives_of (e := s.replanDue) (if_pos busy) fun _ => rfl
  · exact Chip.gives_of (e := s.replanCmd) (if_pos busy) fun _ => rfl
  · exact Chip.gives_of (e := s.replanDue) (if_neg (by simp [idle])) fun _ => rfl
  · exact Chip.gives_of (e := s.replanCmd) (if_neg (by simp [idle])) fun _ => rfl
  · exact Chip.gives_of (e := s.replanDone) (if_pos (by simp [idle])) fun _ => rfl
  · exact Chip.gives_of (e := s.replanDone) (Chip.replanDone_of_commanded on ht hu ha cmd old) fun _ => rfl

end Sys2Proof.Machine
end

section
/-!
PROOFS. Enabling SYN, RFE, CX and MDM.
-/
namespace Sys2Proof.Machine

/-- A bit of another register than the one a field is put into. -/
theorem Chip.bit_setFld_ne (s : Chip) (f : Fld) (v : Nat) {g : Fld} (h : g.addr ≠ f.addr) : (s.setFld f v).bit g = s.bit g := by
  rw [Chip.bit, Chip.bit, s.fld_setFld_ne f v h]

/-- A bit of another register than the one a REASON is put into. -/
theorem Chip.bit_setReason_ne (s : Chip) {stat : Nat} (code : Nat) {g : Fld} (h : g.addr ≠ stat) : (s.setReason stat code).bit g = s.bit g :=
  s.bit_setFld_ne _ _ h

theorem Chip.ifRadioOwner_of_owner {s : Chip} {ag : Agent} {stat : Nat} {f : Chip → Chip} (h : s.radioOwner ag = true) :
    s.ifRadioOwner ag stat f = f s := if_pos h

theorem Chip.ifRadioOwner_of_not {s : Chip} {ag : Agent} {stat : Nat} {f : Chip → Chip} (h : s.radioOwner ag = false) :
    s.ifRadioOwner ag stat f = s.setReason stat Rc.OWNED := if_neg (by simp [h])

/-- The owner's enable of a block that is off. -/
theorem Chip.ifRadioOwner_of_off {s : Chip} {ag : Agent} {stat : Nat} {f : Fld} {g : Chip → Chip} (h : s.radioOwner ag = true) (off : s.bit f = false) :
    s.ifRadioOwner ag stat (fun c => if c.bit f then c else g c) = g s :=
  (Chip.ifRadioOwner_of_owner h).trans (if_neg (by simp [off]))

/-! ### An enable that passes -/

theorem blockStat_pos (b : Block) : 0 < blockStat b := by cases b <;> decide

/-- EN, ACTIVE and REASON of a block that is enabled. -/
theorem Chip.enableBlock_reads (s : Chip) (b : Block) :
    (s.enableBlock b).bit ⟨blockStat b - 1, 0, 0⟩ = true ∧ (s.enableBlock b).bit ⟨blockStat b, 8, 8⟩ = true
      ∧ (s.enableBlock b).fld ⟨blockStat b, 7, 0⟩ = Rc.OK := by
  have other : blockStat b - 1 ≠ blockStat b := by have := blockStat_pos b; omega
  refine ⟨?_, ?_, ?_⟩
  · rw [Chip.enableBlock, Chip.bit_setReason_ne _ _ other, Chip.setBit, Chip.bit_setFld_ne _ _ _ other]
    exact Chip.bit_setBit_self _ _ _ rfl (by simp)
  · rw [Chip.enableBlock, Chip.bit, Chip.setReason, Chip.fld_setFld_disj _ _ _ (by rfl) (by simp) (by simp) (by simp) (by simp) (by simp)]
    exact Chip.bit_setBit_self _ _ _ rfl (by simp)
  · rw [Chip.enableBlock, Chip.setReason, Chip.fld_setFld_self _ _ _ (by simp) (by simp)]
    rfl

/-- An enable leaves the registers of the other blocks. -/
theorem Chip.enableBlock_fld (s : Chip) (b : Block) {f : Fld} (ctl : f.addr ≠ blockStat b - 1) (stat : f.addr ≠ blockStat b) :
    (s.enableBlock b).fld f = s.fld f := by
  rw [Chip.enableBlock, Chip.setReason, Chip.fld_setFld_ne _ _ _ stat, Chip.setBit, Chip.fld_setFld_ne _ _ _ stat, Chip.setBit,
    Chip.fld_setFld_ne _ _ _ ctl]
  rfl

theorem Chip.enableIf_of_off {s : Chip} {b : Block} (code : Nat) (off : s.bit ⟨blockStat b - 1, 0, 0⟩ = false) :
    s.enableIf b code = if code = Rc.OK then s.enableBlock b else s.setReason (blockStat b) code := by
  rw [Chip.enableIf, if_neg (by simp [off])]

/-! ### The FIR sets -/

/-- MASKOK: a bit for each FIR set that passes. -/
theorem Chip.maskOk_eq (s : Chip) :
    ((List.range 4).map s.firCode).zipIdx.foldl (fun acc (c, k) => putBit acc k (c = Rc.OK)) 0 =
      (List.range 4).foldl (fun acc k => putBit acc k (s.firCode k = Rc.OK)) 0 := rfl

/-- The code of the sets that the valid profiles name, found among the numbers of the sets. -/
theorem Chip.setsCode_eq (s : Chip) : s.setsCode ((List.range 4).map s.firCode) =
    (((List.range 4).find? (fun k => s.validProfs.any (fun m => mFir m = k) && (s.firCode k ≠ Rc.OK : Bool))).map s.firCode).getD Rc.OK := by
  have codes (P : Nat → Bool) : ((List.range 4).filter P).map (fun k => ((List.range 4).map s.firCode).getD k 0) = ((List.range 4).filter P).map s.firCode := by
    refine List.map_congr_left fun k hk => ?_
    have lt : k < 4 := List.mem_range.1 (List.mem_filter.1 hk).1
    simp [lt]
  rw [Chip.setsCode, codes, List.find?_map, List.find?_filter]
  simp only [Bool.decide_and, Bool.decide_eq_true]
  rfl

theorem Chip.setsCode_ok {s : Chip} (h : ∀ k : Nat, k < 4 → s.validProfs.any (fun m => mFir m = k) = true → s.firCode k = Rc.OK) :
    s.setsCode ((List.range 4).map s.firCode) = Rc.OK := by
  rw [s.setsCode_eq, List.find?_range_eq_none.2]
  · rfl
  · intro k hk
    cases named : s.validProfs.any (fun m => mFir m = k) with
    | false => rfl
    | true => simp [h k hk named]

/-- The lowest failing set that a valid profile names gives the code. -/
theorem Chip.setsCode_first {s : Chip} {k : Nat} (hk : k < 4) (named : s.validProfs.any (fun m => mFir m = k) = true) (bad : s.firCode k ≠ Rc.OK)
    (before : ∀ j : Nat, j < k → s.validProfs.any (fun m => mFir m = j) = true → s.firCode j = Rc.OK) :
    s.setsCode ((List.range 4).map s.firCode) = s.firCode k := by
  rw [s.setsCode_eq, List.find?_range_eq_some.2 ⟨?_, List.mem_range.2 hk, ?_⟩]
  · rfl
  · simp only [named, Bool.true_and, decide_eq_true_eq]
    exact bad
  · intro j hj
    cases other : s.validProfs.any (fun m => mFir m = j) with
    | false => rfl
    | true => simp [before j hj other]

/-- RFE's enable, once the synthesizer and the declared peak allow it. -/
theorem Chip.rfeEnable_of_sets {s : Chip} (off : s.bit F.RFE_CTL_EN = false) (syn : s.bit F.SYN_CTL_EN = true)
    (peak : s.validProfs.any (fun m => s.fld (F.EGY_DECL_PEAK 4) < txClaim (mPwr m)) = false) {u : Chip}
    (hu : u = { s with free := s.free + 4 }.setFld F.RFE_STAT_MASKOK ((List.range 4).foldl (fun acc k => putBit acc k (s.firCode k = Rc.OK)) 0)) :
    s.rfeEnable = if s.setsCode ((List.range 4).map s.firCode) = Rc.OK then u.enableBlock .rfe
      else u.setReason R.RFE_STAT (s.setsCode ((List.range 4).map s.firCode)) := by
  have code : s.rfeCode = Rc.OK := by simp [Chip.rfeCode, syn, peak]
  have still : u.bit F.RFE_CTL_EN = false := by rw [hu, Chip.bit_setFld_ne _ _ _ (by decide), ← off]; rfl
  rw [Chip.rfeEnable, if_neg (by simp [off]), if_neg (by simp [code])]
  simp only [s.maskOk_eq, ← hu]
  exact Chip.enableIf_of_off (b := .rfe) _ still

/-! ### CX -/

/-- A refused enable of CX leaves its wires. -/
theorem Chip.cxEnable_refused {s : Chip} (off : s.bit F.CX_CTL_EN = false) {code : Nat} (h : s.cxCode = code) (bad : code ≠ Rc.OK) :
    s.cxEnable = s.setReason R.CX_STAT code := by
  have idle : (s.setReason R.CX_STAT code).arbiter = false := by
    rw [Chip.arbiter, Chip.bit_setReason_ne _ _ (by decide), off]
    rfl
  rw [Chip.cxEnable, Chip.enableIf_of_off (b := .cx) _ off, h, if_neg bad]
  exact if_neg (by simp [show (s.setReason (blockStat .cx) code).arbiter = false from idle])

theorem Chip.cxEnable_passed {s : Chip} (off : s.bit F.CX_CTL_EN = false) (h : s.cxCode = Rc.OK) :
    s.cxEnable = (s.enableBlock .cx).cxGrant := by
  rw [Chip.cxEnable, Chip.enableIf_of_off (b := .cx) _ off, h, if_pos rfl]

/-- An enabled CX is the arbiter in role 2. -/
theorem Chip.enableBlock_arbiter (s : Chip) : (s.enableBlock .cx).arbiter = decide (s.fld F.CX_CFG_ROLE = 2) := by
  have en : (s.enableBlock .cx).bit F.CX_CTL_EN = true := (s.enableBlock_reads .cx).1
  rw [Chip.arbiter, en, s.enableBlock_fld .cx (by decide) (by decide), Bool.true_and]

theorem Chip.mdmEnable_of_off {s : Chip} (off : s.bit F.MDM_CTL_EN = false) {code : Nat}
    (h : (if !s.prov 4 || !s.bit F.RFE_CTL_EN then Rc.CLOCK_OFF else if s.fld (F.EGY_DECL_PEAK 3) < 67 then Rc.BUDGET else Rc.OK) = code) :
    s.mdmEnable = (if code = Rc.OK then s.enableBlock .mdm else s.setReason R.MDM_STAT code).updatePll := by
  rw [Chip.mdmEnable]
  simp only [h]
  exact congrArg Chip.updatePll (Chip.enableIf_of_off (b := .mdm) _ off)

/-- Settles O40. -/
theorem radioEnables : Obligations.RadioEnables := by
  unfold Obligations.RadioEnables
  refine ⟨Chip.enableBlock_reads, fun s ag => ⟨fun no => ⟨?_, ?_, ?_, ?_⟩, fun own => ?_⟩⟩
  · exact Chip.gives_of (Chip.ifRadioOwner_of_not no) fun q => exec_synEnable ⟨q, s⟩ ag
  · exact Chip.gives_of (Chip.ifRadioOwner_of_not no) fun q => exec_rfeEnable ⟨q, s⟩ ag
  · exact Chip.gives_of (Chip.ifRadioOwner_of_not no) fun q => exec_cxEnable ⟨q, s⟩ ag
  · exact Chip.gives_of (Chip.ifRadioOwner_of_not no) fun q => exec_mdmEnable ⟨q, s⟩ ag
  · have syn {d : Chip} (h : (if s.bit F.SYN_CTL_EN then s else s.synEnable) = d) : s.gives (.synEnable ag) d :=
      Chip.gives_of ((Chip.ifRadioOwner_of_owner own).trans h) fun q => exec_synEnable ⟨q, s⟩ ag
    have synOff (off : s.bit F.SYN_CTL_EN = false) : (if s.bit F.SYN_CTL_EN then s else s.synEnable) =
        if s.synCode = Rc.OK then s.enableBlock .syn else s.setReason R.SYN_STAT s.synCode := by
      rw [if_neg (by simp [off])]
      exact Chip.enableIf_of_off (b := .syn) _ off
    have rfe {d : Chip} (off : s.bit F.RFE_CTL_EN = false) (h : s.rfeEnable = d) : s.gives (.rfeEnable ag) d :=
      Chip.gives_of ((Chip.ifRadioOwner_of_off own off).trans h) fun q => exec_rfeEnable ⟨q, s⟩ ag
    have cx {d : Chip} (off : s.bit F.CX_CTL_EN = false) (h : s.cxEnable = d) : s.gives (.cxEnable ag) d :=
      Chip.gives_of ((Chip.ifRadioOwner_of_off own off).trans h) fun q => exec_cxEnable ⟨q, s⟩ ag
    have mdm {d : Chip} (off : s.bit F.MDM_CTL_EN = false) (h : s.mdmEnable = d) : s.gives (.mdmEnable ag) d :=
      Chip.gives_of ((Chip.ifRadioOwner_of_off own off).trans h) fun q => exec_mdmEnable ⟨q, s⟩ ag
    refine ⟨fun on => syn (if_pos on), fun off prov => syn ?_, fun off prov peak => syn ?_, fun off prov peak => syn ?_,
      fun off syn => rfe off ?_, fun off syn peak => rfe off ?_, fun u off syn peak hu => ⟨fun all => rfe off ?_, fun k hk named bad before => rfe off ?_⟩,
      fun off => ⟨fun role => ?_, fun role => ?_, fun role pins => ?_, fun role pins front => ?_, fun role pins front => ?_,
        fun u g role pins hu hg => ?_⟩, fun off => ⟨fun no => ?_, fun prov front peak => ?_, fun prov front peak => ?_⟩⟩
    · rw [synOff off, show s.synCode = Rc.CLOCK_OFF by simp [Chip.synCode, prov], if_neg (by decide)]
    · rw [synOff off, show s.synCode = Rc.BUDGET by simp [Chip.synCode, prov, peak], if_neg (by decide)]
    · rw [synOff off, show s.synCode = Rc.OK by simp [Chip.synCode, prov, Nat.not_lt.2 peak], if_pos rfl]
    · have code : s.rfeCode = Rc.CLOCK_OFF := by simp [Chip.rfeCode, syn]
      rw [Chip.rfeEnable, if_neg (by simp [off]), code, if_pos (by decide)]
    · have code : s.rfeCode = Rc.BUDGET := by rw [Chip.rfeCode, if_neg (by simp [syn]), if_pos peak]
      rw [Chip.rfeEnable, if_neg (by simp [off]), code, if_pos (by decide)]
    · rw [Chip.rfeEnable_of_sets off syn peak hu, Chip.setsCode_ok all, if_pos rfl]
    · rw [Chip.rfeEnable_of_sets off syn peak hu, Chip.setsCode_first hk named bad before, if_neg bad]
    · exact cx off (Chip.cxEnable_refused off (by simp [Chip.cxCode, role]) (by decide))
    · exact cx off (Chip.cxEnable_refused off (by simp [Chip.cxCode, role]) (by decide))
    · exact cx off (Chip.cxEnable_refused off (by rcases role with role | role <;> simp [Chip.cxCode, role, pins]) (by decide))
    · exact cx off (Chip.cxEnable_refused off (by simp [Chip.cxCode, role, pins, front]) (by decide))
    · refine cx off ((Chip.cxEnable_passed off (by simp [Chip.cxCode, role, pins, front])).trans (if_neg ?_))
      simp [s.enableBlock_arbiter, role]
    · subst hu hg
      exact cx off ((Chip.cxEnable_passed off (by simp [Chip.cxCode, role, pins])).trans (if_pos (by simp [s.enableBlock_arbiter, role])))
    · refine mdm off (Chip.mdmEnable_of_off off (if_pos ?_))
      rcases no with no | no <;> simp [no]
    · exact mdm off (Chip.mdmEnable_of_off (code := Rc.BUDGET) off (by simp [prov, front, peak]))
    · exact mdm off (Chip.mdmEnable_of_off (code := Rc.OK) off (by simp [prov, front, Nat.not_lt.2 peak]))

end Sys2Proof.Machine
end

section
/-!
PROOFS. The radio's settings and counts.
-/
namespace Sys2Proof.Machine

theorem Chip.ifRadioOpen_of_locked {s : Chip} {ag : Agent} {stat : Nat} {f : Chip → Chip} (h : s.lockedSec 12 = true) :
    s.ifRadioOpen ag stat f = s.setReason stat Rc.LOCKED := if_pos h

theorem Chip.ifRadioOpen_of_not_locked {s : Chip} {ag : Agent} {stat : Nat} {f : Chip → Chip} (h : s.lockedSec 12 = false) :
    s.ifRadioOpen ag stat f = s.ifRadioOwner ag stat f := if_neg (by simp [h])

/-! ### Profiles -/

theorem Chip.profFWrite_eq {s : Chip} {ag : Agent} {n : Nat} (v : Word) (hn : n < 8) (own : s.radioOwner ag = true) (free : s.lockedSec 12 = false) :
    s.profFWrite ag n v =
      if bits v.toNat 29 0 ≠ 0 && !inBands (bits v.toNat 29 0) then s.setReason R.RFE_STAT Rc.BAND
      else ((s.setReg (R.RFE_PROF_F n) (W (bits v.toNat 29 0))).setFld ⟨R.RFE_PROF_M n, 35, 35⟩ 0).setReason R.RFE_STAT Rc.OK := by
  rw [Chip.profFWrite, Chip.ifRadioOpen_of_not_locked free, Chip.ifRadioOwner_of_owner own]
  exact if_neg (by omega)

theorem Chip.profMWrite_eq {s : Chip} {ag : Agent} {n : Nat} (v : Word) (hn : n < 8) (own : s.radioOwner ag = true) (free : s.lockedSec 12 = false) :
    s.profMWrite ag n v =
      (if s.profMCheck n (v.toNat &&& profMMask) = Rc.OK then s.setReg (R.RFE_PROF_M n) (W (v.toNat &&& profMMask)) else s).setReason R.RFE_STAT
        (s.profMCheck n (v.toNat &&& profMMask)) := by
  rw [Chip.profMWrite, Chip.ifRadioOpen_of_not_locked free, Chip.ifRadioOwner_of_owner own]
  exact if_neg (by omega)

/-- The first items with which word M of a profile is refused. -/
theorem Chip.profMCheck_codes (s : Chip) (n m : Nat) :
    (mValid m = true → s.profF n = 0 → s.profMCheck n m = Rc.BAND)
    ∧ (s.profF n ≠ 0 → mPwr m = 63 ∨ 24 < bits m 4 0 ∨ mValid m = true ∧ mMode m = 0 → s.profMCheck n m = Rc.RANGE)
    ∧ (s.profF n ≠ 0 → mPwr m ≠ 63 → bits m 4 0 ≤ 24 → mRxbw m < 12 → mMode m ≠ 0 → mPwr m < mMinPwr m → s.profMCheck n m = Rc.COMBINATION) := by
  refine ⟨fun valid none => if_pos (by simp [valid, none]), fun some bad => ?_, fun some pwr lo rx mode low => ?_⟩
  · rw [Chip.profMCheck, if_neg (by simp [some])]
    refine if_pos ?_
    rcases bad with bad | bad | bad
    · exact .inl bad
    · exact .inr (.inl bad)
    · exact .inr (.inr (.inr bad))
  · rw [Chip.profMCheck, if_neg (by simp [some])]
    rw [if_neg, if_pos (.inl low)]
    rintro (h | h | h | h)
    · exact pwr h
    · omega
    · omega
    · exact mode h.2

/-! ### The parameter sets -/

/-- The code of a parameter set, against itself and against the profiles that name it. -/
def Chip.mdmCode (s : Chip) (m : Nat) (v : Word) (mm : Nat) : Nat :=
  if setCheck mm (v.toNat &&& setMask mm) ≠ Rc.OK then setCheck mm (v.toNat &&& setMask mm)
  else if s.validProfs.any (fun p => mMode p = mm && mMset p = m && tooNarrow mm (v.toNat &&& setMask mm) (mRxbw p)) then Rc.COMBINATION else Rc.OK

theorem Chip.mdmSetWrite_eq {s : Chip} {ag : Agent} {m : Nat} (mm : Nat) (v : Word) (hm : m < 8) (own : s.radioOwner ag = true) :
    s.mdmSetWrite ag mm m v =
      (if s.mdmCode m v mm = Rc.OK then s.setReg (mdmSet mm m) (W (v.toNat &&& setMask mm)) else s).setReason R.MDM_STAT (s.mdmCode m v mm) := by
  rw [Chip.mdmSetWrite, Chip.ifRadioOwner_of_owner own]
  exact if_neg (by omega)

theorem Chip.mdmSetWrite_ok {s : Chip} {ag : Agent} {m mm : Nat} {v : Word} (hm : m < 8) (own : s.radioOwner ag = true)
    (ok : s.mdmCode m v mm = Rc.OK) : s.mdmSetWrite ag mm m v = (s.setReg (mdmSet mm m) (W (v.toNat &&& setMask mm))).setReason R.MDM_STAT Rc.OK := by
  rw [Chip.mdmSetWrite_eq mm v hm own, ok, if_pos rfl]

theorem Chip.mdmSetWrite_bad {s : Chip} {ag : Agent} {m mm : Nat} {v : Word} (hm : m < 8) (own : s.radioOwner ag = true)
    (bad : s.mdmCode m v mm ≠ Rc.OK) : s.mdmSetWrite ag mm m v = s.setReason R.MDM_STAT (s.mdmCode m v mm) := by
  rw [Chip.mdmSetWrite_eq mm v hm own, if_neg bad]

/-- A parameter set beyond its ranges. -/
theorem setCheck_range (w : Nat) : (lsSwf w < 6 ∨ 14 < lsSwf w ∨ lsNpre w < 8 → setCheck 1 w = Rc.RANGE) ∧ (bits w 11 10 = 3 → setCheck 2 w = Rc.RANGE)
    ∧ (fkFec w = 3 ∨ fkNpre w < 4 ∨ 1000 < fkNpre w → setCheck 3 w = Rc.RANGE) :=
  ⟨fun h => if_pos h, fun h => if_pos (.inl h), fun h => if_pos h⟩

/-! ### The arbitration table -/

theorem Chip.arbNxtWrite_badger {s u : Chip} {v : Word} (hu : u = (s.setFld F.CX_ARBNXT_TABLE v.toNat).setReason R.CX_STAT Rc.OK) :
    s.arbNxtWrite .badger v = if s.bit F.LNK_CTL_EN then u else Chip.cxGrant (u.setReg R.CX_ARBCUR (u.reg R.CX_ARBNXT)) := by
  have en : u.bit F.LNK_CTL_EN = s.bit F.LNK_CTL_EN := by
    rw [hu, Chip.bit_setReason_ne _ _ (by decide), Chip.bit_setFld_ne _ _ _ (by decide)]
  rw [Chip.arbNxtWrite, if_neg (by decide), ← en, hu]
  rfl

/-- Settles O41. -/
theorem radioSettings : Obligations.RadioSettings := by
  unfold Obligations.RadioSettings
  refine ⟨fun s ag n v hn => ?_, fun s ag m w v code hm hcode => ?_, fun s ag v => ⟨fun other => ?_, fun u hu => ⟨fun on => ?_, fun off => ?_⟩⟩,
    fun s ag => ⟨?_, ?_, ?_, ?_, ?_⟩⟩
  · have f {d : Chip} (h : s.profFWrite ag n v = d) : s.gives (.rfeProfFWrite ag n v) d := Chip.gives_of h fun q => exec_rfeProfFWrite ⟨q, s⟩ ag n v hn
    have m {d : Chip} (h : s.profMWrite ag n v = d) : s.gives (.rfeProfMWrite ag n v) d := Chip.gives_of h fun q => exec_rfeProfMWrite ⟨q, s⟩ ag n v hn
    refine ⟨fun free no => ⟨f ?_, m ?_⟩, fun locked => ⟨f (Chip.ifRadioOpen_of_locked locked), m (Chip.ifRadioOpen_of_locked locked)⟩,
      fun x own free hx => ?_, fun x own free hx => ?_⟩
    · rw [Chip.profFWrite, Chip.ifRadioOpen_of_not_locked free, Chip.ifRadioOwner_of_not no]
    · rw [Chip.profMWrite, Chip.ifRadioOpen_of_not_locked free, Chip.ifRadioOwner_of_not no]
    · rw [Chip.profFWrite_eq v hn own free, ← hx] at f
      refine ⟨fun some out => f (if_pos (by simp [some, out])), fun good => f (if_neg ?_)⟩
      rcases good with good | good <;> simp [good]
    · have word : v.toNat &&& profMMask = x := hx.symm
      rw [Chip.profMWrite_eq v hn own free, word] at m
      exact ⟨fun ok => m (by rw [ok, if_pos rfl]), fun bad => m (by rw [if_neg bad]), s.profMCheck_codes n x⟩
  · subst hcode
    have ls {d : Chip} (h : s.mdmSetWrite ag 1 m v = d) : s.gives (.mdmLsWrite ag m v) d := Chip.gives_of h fun q => exec_mdmLsWrite ⟨q, s⟩ ag m v hm
    have cm {d : Chip} (h : s.mdmSetWrite ag 2 m v = d) : s.gives (.mdmCmWrite ag m v) d := Chip.gives_of h fun q => exec_mdmCmWrite ⟨q, s⟩ ag m v hm
    have fk {d : Chip} (h : s.mdmSetWrite ag 3 m v = d) : s.gives (.mdmFkWrite ag m v) d := Chip.gives_of h fun q => exec_mdmFkWrite ⟨q, s⟩ ag m v hm
    exact ⟨fun no => ⟨ls (Chip.ifRadioOwner_of_not no), cm (Chip.ifRadioOwner_of_not no), fk (Chip.ifRadioOwner_of_not no)⟩,
      fun own => ⟨fun ok => ls (Chip.mdmSetWrite_ok hm own ok), fun bad => ls (Chip.mdmSetWrite_bad hm own bad),
        fun ok => cm (Chip.mdmSetWrite_ok hm own ok), fun bad => cm (Chip.mdmSetWrite_bad hm own bad),
        fun ok => fk (Chip.mdmSetWrite_ok hm own ok), fun bad => fk (Chip.mdmSetWrite_bad hm own bad)⟩, setCheck_range w⟩
  · exact Chip.gives_of (e := s.arbNxtWrite ag v) (if_pos other) fun _ => rfl
  · exact Chip.gives_of (e := s.arbNxtWrite .badger v) ((Chip.arbNxtWrite_badger hu).trans (if_pos on)) fun _ => rfl
  · exact Chip.gives_of (e := s.arbNxtWrite .badger v) ((Chip.arbNxtWrite_badger hu).trans (if_neg (by simp [off]))) fun _ => rfl
  · exact fun q => exec_cxCntRead ⟨q, s⟩ ag
  all_goals
    have all (w : Word) : w &&& ~~~ 0xFFFFFFFFF#36 = 0 := by simp
  · exact fun q => by rw [exec_lnkCntRead, all]
  · exact fun q => by rw [exec_mdmCountRead_ls, all]
  · exact fun q => by rw [exec_mdmCountRead_cm, all]
  · exact fun q => by rw [exec_mdmCountRead_fk, all]

end Sys2Proof.Machine
end

section
/-!
PROOFS. The start and loss of a transmission, and the coexistence wires.
-/
namespace Sys2Proof.Machine

/-- What the start of a transmission leaves: the live cell, TXEN and LNK_STAT.LIVE. -/
theorem Chip.startTx_reads {s : Chip} {l : Live} {a : Nat} {f : List Byte} {e : Nat} (ha : s.headEntry l.c.q = some a)
    (hf : f = s.rdBs (4 * bits (s.rd a).toNat 23 0) (bits (s.rd (a + 1)).toNat 10 0)) (he : e = s.now + s.ramp + airTime l.mm l.mset f.length) :
    (s.startTx l).lnk.live =
        some { l with done := none, rampAt := some s.now, held := false, octets := f, e := e, txEnd := some (e + s.ramp), txenUp := true }
      ∧ (s.startTx l).pins.latch.txen = true ∧ (s.startTx l).fld F.LNK_STAT_LIVE = 2 ∧ (s.startTx l).sram = s.sram := by
  subst hf he
  rw [Chip.startTx]
  simp only [ha]
  refine ⟨rfl, rfl, ?_, by simp [Chip.rampFor, Chip.setLive]⟩
  rw [Chip.fld_setFld_self _ _ _ (by decide) (by decide)]
  rfl

/-! ### The rule of R171 -/

theorem Chip.txRule_late {s : Chip} {l : Live} (late : s.deadlineOf l < s.now + s.ramp) (h : l.cxHeld = false) :
    s.txRule l = s.endCellEntry l Rc.LATE (s.deadlineOf l) := by
  rw [Chip.txRule, if_pos late, Chip.dropLate, if_neg (by simp [h])]

theorem Chip.txRule_unlocked {s : Chip} {l : Live} (time : s.now + s.ramp ≤ s.deadlineOf l)
    (h : s.bit F.SYN_STAT_LOCK = false ∨ s.calRuns = true) : s.txRule l = s.setLive { l with held := true, cxHeld := false } := by
  rw [Chip.txRule, if_neg (by omega), if_pos]
  rcases h with h | h <;> simp [h]

theorem Chip.txRule_locked {s : Chip} {l : Live} (time : s.now + s.ramp ≤ s.deadlineOf l) (lock : s.bit F.SYN_STAT_LOCK = true)
    (cal : s.calRuns = false) : s.txRule l = if s.cxDenies then
      if l.cxTx then (s.endCellEntry l Rc.CX_DENIED (s.startOf l)).cxCount else s.setLive { l with held := true, cxHeld := true }
      else s.startTx l := by
  rw [Chip.txRule, if_neg (by omega), if_neg (by simp [lock, cal])]

/-- The rule runs at the scheduled ramp start, and again on a held transmission. -/
theorem Chip.gives_txRule {s u : Chip} {gnt : Bool} {l : Live} {i : Instr} {d : Chip} (hu : u = s.driveGnt gnt) (wait : u.txWaiting = some l)
    (hi : i = .txRampStart gnt ∧ l.held = false ∨ i = .txHoldResolve gnt ∧ l.held = true) (h : u.txRule l = d) : s.gives i d := by
  subst hu
  rcases hi with ⟨rfl, held⟩ | ⟨rfl, held⟩
  · refine Chip.gives_of (e := s.txRampStart gnt) ?_ fun _ => rfl
    simp only [Chip.txRampStart, wait, held, Bool.false_eq_true, if_false, h]
  · refine Chip.gives_of (e := s.txHoldResolve gnt) ?_ fun _ => rfl
    simp only [Chip.txHoldResolve, wait, held, if_true, h]

theorem Chip.txDeadlineDrop_of_waiting {s : Chip} {l : Live} (wait : s.txWaiting = some l) :
    s.txDeadlineDrop = if l.held then s.dropLate l else s := by simp only [Chip.txDeadlineDrop, wait]

/-! ### The coexistence wires -/

theorem Chip.cxGntFall_of_pin {s : Chip} {n : Nat} (h : s.pinOf Mean.CX_GNT = some n) :
    s.cxGntFall = if s.inPin n ≠ false && (s.drivePin n false).inPin n = false then (s.drivePin n false).gntLost else s.drivePin n false := by
  simp only [Chip.cxGntFall, Chip.inputEdge, h]

theorem Chip.gntLost_of_live {s : Chip} {l : Live} (h : s.lnk.live = some l) :
    s.gntLost = if s.requester && l.cxLoss && l.onAir then
      Chip.cxCount (s.setLive { l with abort := some Rc.CX_LOST, txEnd := some (s.now + us 1 + s.ramp) }) else s := by
  simp only [Chip.gntLost, h]
  rfl

theorem Chip.driveGnt_eq (s : Chip) (g : Bool) : s.driveGnt g = if s.requester = true ∧ s.padIn 10 ≠ g then s.drivePin 10 g else s := by
  unfold Chip.driveGnt
  cases s.requester <;> cases s.padIn 10 <;> cases g <;> rfl

/-- Settles O43. -/
theorem transmitStart : Obligations.TransmitStart := by
  unfold Obligations.TransmitStart
  refine ⟨fun s l a f e ha hf he => Chip.startTx_reads ha hf he, fun s u gnt l hu wait i hi => ?_, fun s gnt none => ⟨?_, ?_⟩,
    fun s => ⟨fun none => ?_, fun l wait => ?_⟩, fun s => ⟨fun none => ?_, fun l live => ⟨fun up => ?_, fun down => ?_⟩⟩, fun s none => ?_,
    fun s u n pin hu => ?_, Chip.driveGnt_eq, fun s u req pri hu => ?_⟩
  · have rule {d : Chip} (h : u.txRule l = d) : s.gives i d := Chip.gives_txRule hu wait hi h
    refine ⟨fun late held => rule (Chip.txRule_late late held), fun time lock => rule (Chip.txRule_unlocked time lock), fun time lock cal => ?_⟩
    rw [Chip.txRule_locked time lock cal] at rule
    refine ⟨fun deny ends => rule ?_, fun deny holds => rule ?_, fun grant => rule (if_neg (by simp [grant]))⟩
    · rw [if_pos deny, if_pos ends]
    · rw [if_pos deny, if_neg (by simp [holds])]
  · exact Chip.gives_of (e := s.txRampStart gnt) (by simp only [Chip.txRampStart, none]) fun _ => rfl
  · exact Chip.gives_of (e := s.txHoldResolve gnt) (by simp only [Chip.txHoldResolve, none]) fun _ => rfl
  · exact Chip.gives_of (e := s.txDeadlineDrop) (by simp only [Chip.txDeadlineDrop, none]) fun _ => rfl
  · have answers {d : Chip} (h : s.txDeadlineDrop = d) : s.gives .txDeadlineDrop d := Chip.gives_of h fun _ => rfl
    rw [Chip.txDeadlineDrop_of_waiting wait] at answers
    refine ⟨fun free => answers (if_neg (by simp [free])), fun held cx => answers ?_, fun held cx u hu => answers ?_⟩
    · rw [if_pos held, Chip.dropLate, if_neg (by simp [cx])]
    · rw [if_pos held, Chip.dropLate, if_pos cx, hu]
  · exact Chip.gives_of (e := s.txenRise) (by simp only [Chip.txenRise, none]) fun _ => rfl
  · refine Chip.gives_of (e := s.txenRise) ?_ fun _ => rfl
    simp only [Chip.txenRise, live]
    exact if_neg (by simpa using Option.isSome_iff_ne_none.1 up)
  · refine Chip.gives_of (e := s.txenRise) ?_ fun _ => rfl
    simp only [Chip.txenRise, live]
    exact if_pos (by simp [down])
  · exact Chip.gives_of (e := s.cxGntFall) (by simp only [Chip.cxGntFall, Chip.inputEdge, none]) fun _ => rfl
  · subst hu
    have answers {d : Chip} (h : s.cxGntFall = d) : s.gives .cxGntFall d := Chip.gives_of h fun _ => rfl
    rw [Chip.cxGntFall_of_pin pin] at answers
    refine ⟨fun still => answers (if_neg ?_), fun high low => ?_⟩
    · rcases still with h | h <;> simp [h]
    · rw [if_pos (by simp [high, low])] at answers
      refine ⟨fun none => answers (by simp only [Chip.gntLost, none]), fun l live => ?_⟩
      rw [Chip.gntLost_of_live live] at answers
      refine ⟨fun role loss air => answers (if_pos (by simp [role, loss, air])), fun no => answers (if_neg ?_)⟩
      rcases no with h | h | h <;> simp [h]
  · subst hu
    have answers {d : Chip} (h : s.cxArb req pri = d) : s.gives (.cxArbInputChange req pri) d := Chip.gives_of h fun _ => rfl
    refine ⟨fun no => answers (if_neg (by simp [no])), fun yes g hg => answers ?_⟩
    rw [hg]
    exact if_pos yes

end Sys2Proof.Machine
end

section
/-!
PROOFS. A reception, from acquisition to handover.
-/
namespace Sys2Proof.Machine

theorem Chip.liveWin_of_live {s : Chip} {l : Live} {w : RxWin} (hl : s.lnk.live = some l) (hw : l.win = some w) : s.liveWin = some (l, w) := by
  simp [Chip.liveWin, hl, hw]

theorem Chip.liveWin_of_none {s : Chip} (h : s.lnk.live = none) : s.liveWin = none := by simp [Chip.liveWin, h]

/-! ### Gain and search -/

theorem agcStep_up {g hi : Nat} {p : Int} (h : -(100 * hi : Int) < p) (lt : g < 24) : agcStep g hi p = g + 1 := if_pos ⟨h, lt⟩

theorem agcStep_down {g hi : Nat} {p : Int} (h : p < -(100 * (hi + 6) : Int)) (pos : 0 < g) : agcStep g hi p = g - 1 := by
  rw [agcStep, if_neg (by omega), if_pos ⟨h, pos⟩]

/-- A gain step of a window that is open and not frozen. -/
theorem Chip.agcPeriodEnd_of_search {s : Chip} {l : Live} {w : RxWin} (hl : s.lnk.live = some l) (hw : l.win = some w) (p rssi : Int)
    (opened : w.opened = true) (agc : w.agcAt.isSome = true) (free : bitOf l.m 17 = false) (sync : w.st ≠ .synced) (head : w.st ≠ .header) :
    s.agcPeriodEnd p rssi = (s.setLive { l with win := some { w with gain := agcStep w.gain l.hi p, agcAt := some (s.now + us (2 ^ bits l.m 10 8)) } }).setFld
      F.RFE_RSSI_RSSI (rssi % 1024).toNat := by
  simp only [Chip.agcPeriodEnd, hl, hw]
  rw [if_neg (by simpa [opened] using Option.isSome_iff_ne_none.1 agc)]
  simp only [free, sync, head, decide_false, Bool.false_or, Bool.false_eq_true, if_false]
  rfl

/-- What a preamble must meet to be acquired. -/
def Chip.canAcquire (s : Chip) (l : Live) (w : RxWin) (a : RxAcq) : Bool :=
  w.opened && w.st = .search && s.now < w.closeAt && w.since + tAcq l.mm l.mset ≤ s.now && acquires l.mm l.mset a.foff a.rate

theorem Chip.canAcquire_true {s : Chip} {l : Live} {w : RxWin} {a : RxAcq} (opened : w.opened = true) (st : w.st = .search) (time : s.now < w.closeAt)
    (heard : w.since + tAcq l.mm l.mset ≤ s.now) (foff : a.foff.natAbs ≤ foffLimit l.mm) (rate : a.rate.natAbs ≤ rateLimit l.mm l.mset) :
    s.canAcquire l w a = true := by
  simp [Chip.canAcquire, acquires, opened, st, time, heard, foff, rate]

theorem Chip.canAcquire_false {s : Chip} {l : Live} {w : RxWin} {a : RxAcq}
    (h : foffLimit l.mm < a.foff.natAbs ∨ rateLimit l.mm l.mset < a.rate.natAbs ∨ s.now < w.since + tAcq l.mm l.mset) : s.canAcquire l w a = false := by
  rcases h with h | h | h <;> simp [Chip.canAcquire, acquires, Nat.not_le.2 h]

theorem Chip.preambleAcquired_of_live {s : Chip} {l : Live} {w : RxWin} (hw : s.liveWin = some (l, w)) (a : RxAcq) :
    s.preambleAcquired a = if s.canAcquire l w a then
      (s.setLive { l with win := some { w with st := .acquired, foff := a.foff, rate := a.rate, phase := a.phase, timing := a.timing, acqAt := s.now,
                                               course := a.course, drift := a.drift, holdTo := s.now + tDecision l.mm l.mset } }).setFld
        F.MDM_STAT_LIVE (if l.mm = 1 then 2 else liveRx l.mm)
      else s := by
  simp only [Chip.preambleAcquired, hw]
  rfl

/-! ### Sync and header -/

theorem Chip.syncDecision_of_acquired {s : Chip} {l : Live} {w : RxWin} (hw : s.liveWin = some (l, w)) (a b c : RxSync) (ago : Nat)
    (st : w.st = .acquired) :
    s.syncDecision a b c ago =
      if !syncOk l.mm l.mset w.timing a b c then (s.count ⟨cntReg l.mm, 35, 24⟩).winFail l w (syncFail l.mm)
      else if s.fld F.LNK_STAT_LIVE = 4 then
        (((s.stamp (s.now - ago)).2.setLive { l with win := some { syncKeep l.mm l.mset a b c w with
          st := .synced, syncAt := s.now - ago, stamp := some (s.stamp (s.now - ago)).1 } }).publish 123)
      else (s.setLive { l with win := some { syncKeep l.mm l.mset a b c w with st := .synced, syncAt := s.now - ago, stamp := none } }).publish 123 := by
  simp only [Chip.syncDecision, hw]
  rw [if_neg (by simp [st])]
  split
  · rfl
  · split <;> rfl

theorem Chip.headerDecision_of_synced {s : Chip} {l : Live} {w : RxWin} {hdr rot : Nat} {f : RxField} (hw : s.liveWin = some (l, w))
    (st : w.st = .synced) (hf : (hdr, rot) = rxHeader l.mm l.mset w f) :
    s.headerDecision f =
      if l.mm = 1 && tracksOff 1 w (l.trackedSymbols w s.now) then s.winFail l w Rc.TRACK_LOST
      else if headerCheck l.mm hdr ≠ Rc.OK then (s.count ⟨cntReg l.mm, 23, 12⟩).winFail l w (headerCheck l.mm hdr)
      else (s.setReg (lastReg l.mm) (W (lastWord l.mm hdr w.foff))).setLive { l with win := some { w with
        st := .header, hdr := hdr, endAt := w.syncAt + headerTime l.mm l.mset + frameLeft l.mm l.mset hdr, rot := rot } } := by
  simp only [Chip.headerDecision, hw, ← hf]
  exact if_neg (by simp [st])

theorem Chip.trackLost_of_live {s : Chip} {l : Live} {w : RxWin} (hw : s.liveWin = some (l, w)) :
    s.trackLost =
      if (w.st = .acquired || w.st = .synced || w.st = .header) && tracksOff l.mm w (l.trackedSymbols w s.now) then s.winFail l w Rc.TRACK_LOST
      else s := by
  simp only [Chip.trackLost, hw]

/-! ### The payload -/

theorem Chip.frameReceived_lost {s : Chip} {l : Live} {w : RxWin} {f : RxField} {det noise snr snr' evm : Int} {o : List Byte} (hw : s.liveWin = some (l, w))
    (st : w.st = .header) (ho : (o, true, snr', evm) = rxPayload l.mm l.mset w f snr) :
    s.frameReceived f det noise snr = s.winFail l w Rc.TRACK_LOST := by
  simp only [Chip.frameReceived, hw, ← ho]
  rw [if_neg (by simp [st]), if_pos trivial]

theorem Chip.frameReceived_bad {s : Chip} {l : Live} {w : RxWin} {f : RxField} {det noise snr snr' evm : Int} {o : List Byte} (hw : s.liveWin = some (l, w))
    (st : w.st = .header) (ho : (o, false, snr', evm) = rxPayload l.mm l.mset w f snr) (bad : (checkFrame l.mm w.hdr o).2 = false)
    (keep : (s.count ⟨cntReg l.mm, 11, 0⟩).bit (keepBad l.mm) = false) :
    s.frameReceived f det noise snr = (s.count ⟨cntReg l.mm, 11, 0⟩).winFail l w (payFail l.mm) := by
  simp only [Chip.frameReceived, hw, ← ho, bad, Bool.false_eq_true, if_false, keep, Bool.not_false, Bool.and_self, if_true]
  exact if_neg (by simp [st])

/-- A good frame in a receive cell is shown with its quality, and its claim is released. -/
theorem Chip.frameReceived_good {s u : Chip} {l : Live} {w : RxWin} {f : RxField} {det noise snr snr' evm : Int} {o : List Byte} {q : Nat}
    (hw : s.liveWin = some (l, w)) (st : w.st = .header) (ho : (o, false, snr', evm) = rxPayload l.mm l.mset w f snr)
    (good : (checkFrame l.mm w.hdr o).2 = true) (cell : s.fld F.LNK_STAT_LIVE = 4)
    (hq : q = qualityWord l.mm l.mset w.hdr (if 0 ≤ snr' then det else noise + snr' / 2) snr' evm)
    (hu : u = ((((s.setReg R.RFE_QUAL (W q)).setReason R.MDM_STAT Rc.OK).setBit F.RFE_RSSI_VALID false).setFld F.RFE_RSSI_RSSI 0).setFld F.MDM_STAT_LIVE 0) :
    s.frameReceived f det noise snr =
      (u.setLive { l with win := some { w with st := .done, frame := (checkFrame l.mm w.hdr o).1, code := Rc.OK, qual := q, agcAt := none } }).release 3 := by
  have live : u.fld F.LNK_STAT_LIVE ≠ 3 := by
    rw [hu, Chip.fld_setFld_ne _ _ _ (by decide), Chip.fld_setFld_ne _ _ _ (by decide), Chip.setBit, Chip.fld_setFld_ne _ _ _ (by decide), Chip.setReason,
      Chip.fld_setFld_ne _ _ _ (by decide), Chip.fld_setReg_ne _ _ (by decide), cell]
    decide
  simp only [Chip.frameReceived, hw, ← ho, good, Bool.false_eq_true, if_false, if_true, Bool.not_true, Bool.false_and, rssiOf]
  rw [← hq, ← hu, if_neg live, if_neg (by simp [st])]
  rfl

/-! ### The handover -/

theorem Chip.frameHandover_of_done {s : Chip} {l : Live} {w : RxWin} (hw : s.liveWin = some (l, w)) (st : w.st = .done) :
    s.frameHandover = if s.fld F.LNK_STAT_LIVE = 4 then
      s.rxHandover { l with win := some { w with st := .handed, handedAt := s.now } } { w with st := .handed, handedAt := s.now }
      else s.setLive { l with win := some { w with st := .handed, handedAt := s.now } } := by
  simp only [Chip.frameHandover, hw]
  exact if_neg (by simp [st])

/-- A frame for another node is filtered. -/
theorem Chip.rxHandover_filtered {s : Chip} {l : Live} {w : RxWin} (ok : w.code = Rc.OK)
    (other : w.frame.length < 9 ∨ lhMesh w.frame ≠ s.meshId ∨ lhDst w.frame ≠ 0xFFFF ∧ lhDst w.frame ≠ s.saddr
      ∨ lhDst w.frame ≠ 0xFFFF ∧ s.bit F.LNK_CFG_BCONLY = true) : s.rxHandover l w = (s.count F.LNK_CNT_FILTERED).endCell l Rc.FILTERED := by
  rw [Chip.rxHandover]
  dsimp only
  rw [if_pos]
  rcases other with h | h | ⟨h, k⟩ | ⟨h, k⟩
  · simp [ok, Nat.not_le.2 h]
  · simp [ok, h]
  · simp [ok, h, k]
  · simp [ok, h, k]

/-- No entry of the neighbour table stands for a sender that is not in it. -/
theorem Chip.nbrWord_none (s : Chip) : s.nbrWord 127 = 0 := rfl

/-- A broadcast of a sender that is not in the neighbour table is delivered without an acknowledgement. -/
theorem Chip.rxHandover_broadcast {s : Chip} {l l' : Live} {w : RxWin} {d : Delivery} {c : Int} (ok : w.code = Rc.OK) (whole : 9 ≤ w.frame.length)
    (mesh : lhMesh w.frame = s.meshId) (all : lhDst w.frame = 0xFFFF) (unknown : s.senderOf (lhSrc w.frame) = 127) (quiet : lhAckReq w.frame = false)
    (fits : w.frame.length ≤ 4 * s.fld (F.QUE_BUF_BUFSZ (4 * lhPri w.frame))) (room : s.qTakes (4 * lhPri w.frame) = true)
    (hd : d = { q := 4 * lhPri w.frame, nbr := 127, frame := w.frame, code := Rc.OK, qual := w.qual, stamp := w.stamp.getD {} })
    (hc : c = corrOf ((s.startOf l : Int) - (w.syncAt - tSync l.mm l.mset)) 8)
    (hl : l' = { l with rxd := true, reason := Rc.OK, corr := some c, deliver := some d }) :
    s.rxHandover l w = (s.deliverFrame l' false).endCell { l' with deliver := none } Rc.OK := by
  subst hl hc hd
  have ts : s.nbrTs 127 = false := by rw [Chip.nbrTs, s.nbrWord_none]; rfl
  have cls : s.nbrClass 127 = 0 := by rw [Chip.nbrClass, s.nbrWord_none]; rfl
  rw [Chip.rxHandover]
  simp [ok, whole, mesh, all, unknown, quiet, ts, cls, Nat.not_lt.2 fits, room]

/-- Settles O44. -/
theorem reception : Obligations.Reception := by
  unfold Obligations.Reception
  refine ⟨fun s l w hl hw => ?_, fun s l w code => ⟨fun past => if_pos past, fun time => if_neg (by omega)⟩,
    fun g hi p => ⟨agcStep_up, agcStep_down⟩, fun s p rssi foff ago q a b c g none => ?_⟩
  · have live := Chip.liveWin_of_live hl hw
    refine ⟨fun p rssi opened agc free sync head w' hw' => ?_, fun a opened st time heard foff rate w' hw' => ?_, fun a no => ?_,
      fun a b c ago st => ⟨fun bad => ?_, fun ok cell => ?_, fun ok cell p u hp => ?_⟩,
      fun f hdr rot st hf => ⟨fun m1 off => ?_, fun on => ⟨fun bad => ?_, fun ok e he => ?_⟩⟩, fun st off => ?_, fun on => ?_,
      fun f det noise snr snr' evm o lost st ho => ⟨fun yes => ?_, fun no bad keep => ?_, fun q u w' no good cell hq hw' hu => ?_⟩,
      fun st cell => ?_, fun f w' st cell ok hf hw' => ⟨fun other => ?_, fun d l' c whole mesh all unknown quiet fits room hd hc hl' => ?_⟩⟩
    · subst hw'
      exact Chip.gives_of (e := s.agcPeriodEnd p rssi) (Chip.agcPeriodEnd_of_search hl hw p rssi opened agc free sync head) fun _ => rfl
    · subst hw'
      refine Chip.gives_of (e := s.preambleAcquired a) ?_ fun _ => rfl
      rw [Chip.preambleAcquired_of_live live, if_pos (Chip.canAcquire_true opened st time heard foff rate)]
    · refine Chip.gives_of (e := s.preambleAcquired a) ?_ fun _ => rfl
      rw [Chip.preambleAcquired_of_live live, if_neg (by simp [Chip.canAcquire_false no])]
    · refine Chip.gives_of (e := s.syncDecision a b c ago) ?_ fun _ => rfl
      rw [Chip.syncDecision_of_acquired live a b c ago st, if_pos (by simp [bad])]
    · refine Chip.gives_of (e := s.syncDecision a b c ago) ?_ fun _ => rfl
      rw [Chip.syncDecision_of_acquired live a b c ago st, if_neg (by simp [ok]), if_neg cell]
    · refine Chip.gives_of (e := s.syncDecision a b c ago) ?_ fun _ => rfl
      rw [Chip.syncDecision_of_acquired live a b c ago st, if_neg (by simp [ok]), if_pos cell, ← hp]
    · refine Chip.gives_of (e := s.headerDecision f) ?_ fun _ => rfl
      rw [Chip.headerDecision_of_synced live st hf, if_pos (by simp [m1, off])]
    · refine Chip.gives_of (e := s.headerDecision f) ?_ fun _ => rfl
      rw [Chip.headerDecision_of_synced live st hf, if_neg (by rcases on with h | h <;> simp [h]), if_pos bad]
    · subst he
      refine Chip.gives_of (e := s.headerDecision f) ?_ fun _ => rfl
      rw [Chip.headerDecision_of_synced live st hf, if_neg (by rcases on with h | h <;> simp [h]), if_neg (Classical.not_not.2 ok)]
    · refine Chip.gives_of (e := s.trackLost) ?_ fun _ => rfl
      rw [Chip.trackLost_of_live live, if_pos (by rcases st with h | h | h <;> simp [h, off])]
    · refine Chip.gives_of (e := s.trackLost) ?_ fun _ => rfl
      rw [Chip.trackLost_of_live live, if_neg (by simp [on])]
    · subst yes
      exact Chip.gives_of (e := s.frameReceived f det noise snr) (Chip.frameReceived_lost live st ho) fun _ => rfl
    · subst no
      exact Chip.gives_of (e := s.frameReceived f det noise snr) (Chip.frameReceived_bad live st ho bad keep) fun _ => rfl
    · subst no hw'
      exact Chip.gives_of (e := s.frameReceived f det noise snr) (Chip.frameReceived_good live st ho good cell hq hu) fun _ => rfl
    · exact Chip.gives_of (e := s.frameHandover) ((Chip.frameHandover_of_done live st).trans (if_neg cell)) fun _ => rfl
    · subst hf hw'
      exact Chip.gives_of (e := s.frameHandover)
        (((Chip.frameHandover_of_done live st).trans (if_pos cell)).trans (Chip.rxHandover_filtered ok other)) fun _ => rfl
    · subst hf hw'
      exact Chip.gives_of (e := s.frameHandover)
        (((Chip.frameHandover_of_done live st).trans (if_pos cell)).trans
          (Chip.rxHandover_broadcast ok whole mesh all unknown quiet fits room hd hc hl')) fun _ => rfl
  · have idle := Chip.liveWin_of_none none
    refine ⟨?_, ?_, ?_, ?_, ?_, ?_, ?_⟩
    · exact Chip.gives_of (e := s.agcPeriodEnd p rssi) (by simp only [Chip.agcPeriodEnd, none]) fun _ => rfl
    · exact Chip.gives_of (e := s.preambleAcquired q) (by simp only [Chip.preambleAcquired, idle]) fun _ => rfl
    · exact Chip.gives_of (e := s.syncDecision a b c ago) (by simp only [Chip.syncDecision, idle]) fun _ => rfl
    · exact Chip.gives_of (e := s.headerDecision g) (by simp only [Chip.headerDecision, idle]) fun _ => rfl
    · exact Chip.gives_of (e := s.trackLost) (by simp only [Chip.trackLost, idle]) fun _ => rfl
    · exact Chip.gives_of (e := s.frameReceived g p rssi foff) (by simp only [Chip.frameReceived, idle]) fun _ => rfl
    · exact Chip.gives_of (e := s.frameHandover) (by simp only [Chip.frameHandover, idle]) fun _ => rfl

end Sys2Proof.Machine
end

section
/-!
PROOFS. Slot boundaries, time corrections and DESYNC.
-/
namespace Sys2Proof.Machine

/-- A boundary at which no correction is due and no cell was chosen, with a SLOT window open. -/
theorem Chip.slotBoundary_of_window {s u v : Chip} {c n : Nat} (run : s.lnk.running = true) (chosen : s.lnk.chosen = []) (hn : n = s.lnk.nextB.getD c 0)
    (hu : u = s.setLnk { s.lnk with nextB := s.lnk.nextB.set c (n + 1) })
    (hv : v = Chip.occ (Chip.cxGrant (u.setReg R.CX_ARBCUR (u.reg R.CX_ARBNXT))) (67 + c))
    (awake : (Chip.cxGrant (u.setReg R.CX_ARBCUR (u.reg R.CX_ARBNXT))).pwr.st = .run) (open' : s.pins.windows ≠ 0) (still : v.pins.windows ≠ 0) :
    s.slotBoundary c = v.slotwBoundary c (n % 2 ^ 36) := by
  have busy : s.boundaryFree = false := by simp [Chip.boundaryFree, open']
  have kept (t : Chip) : t.setLnk { t.lnk with chosen := t.lnk.chosen } = t := rfl
  have none : u.lnk.chosen = [] := by rw [hu]; exact chosen
  have marked : (u.setLnk { u.lnk with chosen := [] }).markChosen c n u.lnk.chosen = u := by
    rw [none, Chip.markChosen, ← none, kept]
  have windows (m : Nat) : (v.slotwBoundary c m).pins.windows ≠ 0 := by
    unfold Chip.slotwBoundary
    dsimp only
    split
    · exact still
    · exact still
  have last (m : Nat) : (v.slotwBoundary c m).boundaryFree = false := by simp [Chip.boundaryFree, windows]
  have made : s.setLnk { s.lnk with nextB := setAt s.lnk.nextB c (n + 1) } = u := hu.symm
  have awake' : u.arbCopy.pwr.st = .run := awake
  have here : u.arbCopy.occ (67 + c) = v := hv.symm
  rw [Chip.slotBoundary, if_neg (by simp [run])]
  simp only [busy, Bool.false_and, Bool.false_eq_true, if_false, ← hn, made, marked, if_pos awake', here, windows, last, Bool.and_false]

/-- Waiting corrections that move a free boundary ahead of now. -/
theorem Chip.slotBoundary_of_correction {s u : Chip} {c : Nat} (run : s.lnk.running = true) (free : s.boundaryFree = true) (some : s.lnk.corrs ≠ [])
    (hu : u = s.applyCorrections) (ahead : (u.now : Int) < u.boundaryAt c (u.lnk.nextB.getD c 0)) (same : s.lnk.nextB = u.lnk.nextB) :
    s.slotBoundary c = u := by
  have due : (s.boundaryFree && !s.lnk.corrs.isEmpty) = true := by simp [free, some]
  rw [Chip.slotBoundary, if_neg (by simp [run])]
  simp only [due, if_true, ← hu, same, ahead, decide_true, Bool.and_self]

/-- One waiting correction moves TOFF and goes to the health monitor. -/
theorem Chip.applyCorrections_of_one {s t u : Chip} {d : Int} (hd : s.lnk.corrs = [d])
    (ht : t = s.setFld F.LNK_TOFF_TOFF ((s.toff + d) % 16777216).toNat) (hu : u = t.monCorrection d 4) :
    s.applyCorrections = (u.setLnk { u.lnk with corrs := [], lastCorr := u.now, desynced := false }).setBit F.LNK_STAT_SYNCED true := by
  have moved : (s.setFld F.LNK_TOFF_TOFF (unsigned 24 (s.toff + d))).monCorrection d 4 = u := by rw [hu, ht]; rfl
  simp only [Chip.applyCorrections, hd, List.foldl_cons, List.foldl_nil, moved]

theorem Chip.ifLnkOwner_of_other {s : Chip} {ag : Agent} {f : Chip → Chip} (b : ag ≠ .badger) (v : ag ≠ .svc) :
    s.ifLnkOwner ag f = s.setReason R.LNK_STAT Rc.OWNED := if_neg (by simp [b, v])

theorem Chip.ifLnkOwner_of_owner {s : Chip} {ag : Agent} {f : Chip → Chip} (h : ag = .badger ∨ ag = .svc) : s.ifLnkOwner ag f = f s :=
  if_pos (by simpa using h)

theorem Chip.takeCorrection_within {s : Chip} {d : Int} (hi : d ≤ (s.fld F.LNK_SYNC_MAXCORR : Int)) (lo : -(s.fld F.LNK_SYNC_MAXCORR : Int) ≤ d) :
    s.takeCorrection d = (true, s.setLnk { s.lnk with corrs := s.lnk.corrs ++ [d] }) := by
  rw [Chip.takeCorrection, if_neg]
  rw [Bool.or_eq_true, decide_eq_true_eq, decide_eq_true_eq]
  omega

theorem Chip.takeCorrection_beyond {s : Chip} {d : Int} (h : (s.fld F.LNK_SYNC_MAXCORR : Int) < d ∨ d < -(s.fld F.LNK_SYNC_MAXCORR : Int)) :
    s.takeCorrection d = (false, (s.setBit F.LNK_EVT_CORRREJ true).occ 66) := by
  rw [Chip.takeCorrection, if_pos]
  · rfl
  · rw [Bool.or_eq_true, decide_eq_true_eq, decide_eq_true_eq]
    omega

/-- Settles O45. -/
theorem slotBoundaries : Obligations.SlotBoundaries := by
  unfold Obligations.SlotBoundaries
  refine ⟨fun s c hc off => ⟨?_, ?_⟩, fun s u v c n hc run chosen _ hn hu hv awake open' still => ?_, fun s u c hc run free some hu ahead same => ?_,
    fun s t u d hd ht hu => Chip.applyCorrections_of_one hd ht hu, fun s ag v d hd => ⟨fun b p => ?_, fun own => ?_⟩, fun s => ⟨fun no => ?_, fun run first some src u hu => ?_⟩⟩
  · exact Chip.gives_of (e := s.ofIdx c 4 fun s => s.slotBoundary c) ((s.ofIdx_lt _ hc).trans (if_pos (by simp [off]))) fun _ => rfl
  · exact Chip.gives_of (e := s.ofIdx c 4 fun s => s.cellChoice c) ((s.ofIdx_lt _ hc).trans (if_pos (by simp [off]))) fun _ => rfl
  · have answers {d : Chip} (h : v.slotwBoundary c (n % 2 ^ 36) = d) : s.gives (.slotBoundary c) d :=
      Chip.gives_of (e := s.ofIdx c 4 fun s => s.slotBoundary c)
        ((s.ofIdx_lt _ hc).trans ((Chip.slotBoundary_of_window run chosen hn hu hv awake open' still).trans h)) fun _ => rfl
    refine ⟨fun other => answers (if_neg other), fun waits b hb => answers ?_⟩
    rw [hb]
    exact if_pos waits
  · exact Chip.gives_of (e := s.ofIdx c 4 fun s => s.slotBoundary c)
      ((s.ofIdx_lt _ hc).trans (Chip.slotBoundary_of_correction run free some hu ahead same)) fun _ => rfl
  · exact Chip.gives_of (e := s.ifLnkOwner ag fun c => c.tadjWrite v) (Chip.ifLnkOwner_of_other b p) fun _ => rfl
  · have low : signed 16 (bits v.toNat 15 0) = d := hd.symm
    have answers {e : Chip} (h : s.tadjWrite v = e) : s.gives (.lnkTadjWrite ag v) e :=
      Chip.gives_of (e := s.ifLnkOwner ag fun c => c.tadjWrite v) ((Chip.ifLnkOwner_of_owner own).trans h) fun _ => rfl
    simp only [Chip.tadjWrite, low] at answers
    refine ⟨fun hi lo => answers ?_, fun beyond => answers ?_⟩
    · rw [Chip.takeCorrection_within hi lo]
      rfl
    · rw [Chip.takeCorrection_beyond beyond]
      rfl
  · refine Chip.gives_of (e := s.desyncTimeout) (if_neg ?_) fun _ => rfl
    rcases no with h | h | h | h <;> simp [h]
  · subst hu
    exact Chip.gives_of (e := s.desyncTimeout) (if_pos (by simp [run, first, some, src])) fun _ => rfl

end Sys2Proof.Machine
end

section
/-!
PROOFS. The choice of a cell and its preparation.
-/
namespace Sys2Proof.Machine

/-! ### The choice instant -/

/-- The state in which the choice for ASN `n` of class `c` is made. -/
def Chip.choosing (s : Chip) (c n : Nat) : Chip := s.purgeBooks.setLnk { s.purgeBooks.lnk with nextC := s.lnk.nextC.set c (n + 1) }

/-- The cell that is chosen, before its end or its window. -/
def Chip.chosenFor (w : Chip) (c n b i w0 w1 : Nat) (q : Option Nat) : Chosen :=
  { cls := c, asn := n, b := b, index := i, w0 := w0, w1 := w1, tx := q.isSome, q := q.getD 0, guard := w.fld F.MON_PLAN0_GUARD,
    ch := if sfHop (w.sfWord (cellSf w0)) then w.hopCh n w0 else 63
    freq := if sfHop (w.sfWord (cellSf w0)) then some (w.fld ⟨R.LNK_CH (w.hopCh n w0), 29, 0⟩) else none
    entry := q.bind (fun q => w.headMark q) }

theorem Chip.cellChoice_none {s w : Chip} {c n : Nat} (run : s.lnk.running = true) (hn : n = s.lnk.nextC.getD c 0)
    (h : (s.choosing c n).choose c n true = (none, w)) : s.cellChoice c = w := by
  have made : s.purgeBooks.setLnk { s.purgeBooks.lnk with nextC := setAt s.purgeBooks.lnk.nextC c (n + 1) } = s.choosing c n := rfl
  rw [Chip.cellChoice, if_neg (by simp [run])]
  simp only [← hn, made, h]

/-- A choice whose boundary lies ahead. -/
theorem Chip.cellChoice_some {s w : Chip} {c n i w0 w1 : Nat} {q : Option Nat} {k : Chosen} (run : s.lnk.running = true) (hn : n = s.lnk.nextC.getD c 0)
    (h : (s.choosing c n).choose c n true = (some (i, w0, w1, q), w)) (ahead : w.lnk.nextB.getD c 0 ≤ n)
    (hk : k = w.chosenFor c n ((s.choosing c n).boundaryAt c n).toNat i w0 w1 q) :
    s.cellChoice c =
      if sfHop (w.sfWord (cellSf w0)) && w.fld ⟨R.LNK_CH (w.hopCh n w0), 29, 0⟩ = 0 then w.endAtChoice k Rc.BAND
      else if w.pwr.st ≠ .run then w.endAtChoice k Rc.NOT_AWAKE
      else
        let x := if !k.tx && w.guardOf c k.guard < us k.guard then w.lnkEvent F.LNK_EVT_GCLAMP else w
        (x.setLnk { x.lnk with chosen := x.lnk.chosen ++ [{ k with window := true }] }).openWindow k := by
  have made : s.purgeBooks.setLnk { s.purgeBooks.lnk with nextC := setAt s.purgeBooks.lnk.nextC c (n + 1) } = s.choosing c n := rfl
  have later : decide (n < w.lnk.nextB.getD c 0) = false := by simpa using ahead
  rw [Chip.cellChoice, if_neg (by simp [run]), hk]
  simp only [← hn, made, h, later, Bool.false_and]
  rfl

/-- A cell that ends at its choice, ahead of its boundary. -/
theorem Chip.endAtChoice_ahead (s : Chip) {k : Chosen} (code : Nat) (h : k.marked = false) :
    s.endAtChoice k code =
      (s.setReasons code).setLnk { (s.setReasons code).lnk with chosen := (s.setReasons code).lnk.chosen ++ [{ k with ended := some code }] } :=
  if_neg (by simp [h])

/-- The frequency 0 names an unset channel. -/
theorem Chip.chosenFor_unset {w : Chip} {c n b i w0 w1 : Nat} {q : Option Nat} : (w.chosenFor c n b i w0 w1 q).freq = some 0 ↔
    (sfHop (w.sfWord (cellSf w0)) && w.fld ⟨R.LNK_CH (w.hopCh n w0), 29, 0⟩ = 0) = true := by
  unfold Chip.chosenFor
  cases sfHop (w.sfWord (cellSf w0)) <;> simp

/-! ### The preparation start -/

/-- The live cell of a chosen one, as its profile and the coexistence choices stand. -/
def Chip.liveOf (v : Chip) (k : Chosen) (m : Nat) : Live :=
  { c := k, freq := k.freq.getD (v.profF k.prof), m := m, mset := v.msetOf m, ramp := v.fld F.RFE_CFG_RAMP,
    lead := v.fld F.RFE_CFG_TXENLEAD, hi := v.fld F.RFE_AGC_HI, taps := v.firTaps (mFir m),
    cxTx := v.bit F.CX_CFG_TXPOL, cxRx := v.bit F.CX_CFG_RXPOL, cxLoss := v.bit F.CX_CFG_LOSSPOL, rxw := rxWidth (mMode m) (v.msetOf m) (mRxbw m),
    fs := txRate (mMode m) (v.msetOf m) }

/-- The state in which a live cell is prepared. -/
def Chip.preparing (v : Chip) (l : Live) (c : Nat) : Chip :=
  (((v.setLive l).setFld F.LNK_STAT_LIVE 1).setFld F.LNK_STAT_CLS c).setFld F.RFE_STAT_STATE 1

theorem Chip.cellPrepStart_none {s : Chip} {c : Nat} (h : s.lnk.chosen.find? (fun k => k.cls = c && k.ended.isNone) = none) : s.cellPrepStart c = s := by
  simp only [Chip.cellPrepStart, h]

theorem Chip.cellPrepStart_overlap {s u : Chip} {c : Nat} {k : Chosen} (h : s.lnk.chosen.find? (fun k => k.cls = c && k.ended.isNone) = some k)
    (hu : u = s.setLnk { s.lnk with chosen := s.lnk.chosen.filter (· ≠ k) }) (live : s.lnk.live.isSome = true) :
    s.cellPrepStart c = ((u.setBit F.LNK_EVT_OVERLAP true).occ 66).endChosen k Rc.OVERLAP := by
  simp only [Chip.cellPrepStart, h, ← hu]
  refine if_pos ?_
  rw [hu]
  exact live

/-- The preparation of a chosen cell, with no other cell live. -/
theorem Chip.cellPrepStart_some {s u v : Chip} {c : Nat} {k : Chosen} (h : s.lnk.chosen.find? (fun k => k.cls = c && k.ended.isNone) = some k)
    (hu : u = s.setLnk { s.lnk with chosen := s.lnk.chosen.filter (· ≠ k) }) (idle : s.lnk.live = none)
    (hv : v = (u.setFld F.RFE_STAT_PROF k.prof).stopBg) :
    s.cellPrepStart c =
      if !mValid (s.profM k.prof) then (v.endChosen k Rc.PROFILE_EMPTY).setReason R.RFE_STAT Rc.PROFILE_EMPTY
      else if !v.radioOn then v.endChosen k Rc.CLOCK_OFF
      else if k.tx then (v.preparing (v.liveOf k (s.profM k.prof)) c).prepTx (v.liveOf k (s.profM k.prof))
      else (v.preparing (v.liveOf k (s.profM k.prof)) c).prepRx (v.liveOf k (s.profM k.prof)) := by
  have prof : u.profM k.prof = s.profM k.prof := by rw [hu]; rfl
  have none : ¬ u.lnk.live.isSome = true := by rw [hu]; simp [idle]
  simp only [Chip.cellPrepStart, h, ← hu, prof, ← hv, if_neg none]
  rfl

theorem Chip.prepTx_none {x : Chip} {l : Live} (h : x.headEntry l.c.q = none) : x.prepTx l = x.endCell l (if x.qOn l.c.q then Rc.OK else Rc.QUEUE_OFF) := by
  simp only [Chip.prepTx, h]

theorem Chip.prepTx_left {x : Chip} {l : Live} {a : Nat} (h : x.headEntry l.c.q = some a)
    (left : x.headMark l.c.q ≠ l.c.entry ∨ x.leaving l.c.q = true) : x.prepTx l = x.endCell l Rc.OK := by
  simp only [Chip.prepTx, h]
  exact if_pos (by simpa using left)

/-- The entry is still the one chosen: its length and its time on air decide. -/
theorem Chip.prepTx_entry {x : Chip} {l : Live} {a len d : Nat} (h : x.headEntry l.c.q = some a) (mark : x.headMark l.c.q = l.c.entry)
    (stays : x.leaving l.c.q = false) (hlen : len = bits (x.rd (a + 1)).toNat 10 0) (hd : d = x.dTx l.c.cls l.mm l.mset len) :
    x.prepTx l =
      if lenCheck l.mm l.mset len ≠ Rc.OK then x.endCellEntry l (lenCheck l.mm l.mset len) (x.startOf l)
      else if 524287000 < d then x.endCellEntry l Rc.TOA_LIMIT (x.startOf l)
      else x.claim 4 (txClaim (mPwr l.m)) d false (if x.bit (F.EGY_DECL_FIT 4) then some (txClaim (mMinPwr l.m)) else none)
        (some (x.deadlineOf l - x.ramp - x.lockLead l.c.cls)) := by
  simp only [Chip.prepTx, h]
  rw [if_neg (by simp [mark, stays]), hd, hlen]

/-- Settles O46. -/
theorem cellPreparation : Obligations.CellPreparation := by
  unfold Obligations.CellPreparation
  refine ⟨fun s u w c n i w0 w1 q k hc run hn _ hu => ?_, fun s c hc => ?_⟩
  · have start : s.choosing c n = u := hu.symm
    have answers {d : Chip} (h : s.cellChoice c = d) : s.gives (.cellChoice c) d :=
      Chip.gives_of (e := s.ofIdx c 4 fun s => s.cellChoice c) ((s.ofIdx_lt _ hc).trans h) fun _ => rfl
    refine ⟨fun h => answers (Chip.cellChoice_none run hn (by rw [start]; exact h)), fun h ahead fixed awake guard hk => answers ?_,
      fun h ahead hk code hcode why x hx => answers ?_⟩
    · have same : k = w.chosenFor c n ((s.choosing c n).boundaryAt c n).toNat i w0 w1 q := by rw [hk, start, Chip.chosenFor, fixed]; rfl
      have clear : (!k.tx && w.guardOf c k.guard < us k.guard) = false := by
        rw [hk]
        rcases guard with tx | wide
        · simp [tx]
        · simp [Chip.guardOf, wide]
      rw [Chip.cellChoice_some run hn (by rw [start]; exact h) ahead same, if_neg (by simp [fixed]), if_neg (by simp [awake])]
      simp only [clear, Bool.false_eq_true, if_false]
    · have same : k = w.chosenFor c n ((s.choosing c n).boundaryAt c n).toNat i w0 w1 q := by rw [hk, start]; rfl
      have unset : k.freq = some 0 ↔ (sfHop (w.sfWord (cellSf w0)) && w.fld ⟨R.LNK_CH (w.hopCh n w0), 29, 0⟩ = 0) = true := by
        rw [same]
        exact Chip.chosenFor_unset
      have unmarked : k.marked = false := by rw [same]; rfl
      rw [Chip.cellChoice_some run hn (by rw [start]; exact h) ahead same, hx, hcode]
      by_cases zero : k.freq = some 0
      · rw [if_pos (unset.1 zero), if_pos zero, Chip.endAtChoice_ahead w _ unmarked]
      · rw [if_neg (mt unset.2 zero), if_neg zero, if_pos (why.resolve_left zero), Chip.endAtChoice_ahead w _ unmarked]
  · have answers {d : Chip} (h : s.cellPrepStart c = d) : s.gives (.cellPrepStart c) d :=
      Chip.gives_of (e := s.ofIdx c 4 fun s => s.cellPrepStart c) ((s.ofIdx_lt _ hc).trans h) fun _ => rfl
    refine ⟨fun none => answers (Chip.cellPrepStart_none none), fun k u some hu => ⟨fun live => answers (Chip.cellPrepStart_overlap some hu live),
      fun v idle hv => ?_⟩⟩
    rw [Chip.cellPrepStart_some some hu idle hv] at answers
    refine ⟨fun empty => answers (if_pos (by simp [empty])), fun valid off => answers ?_, fun l x valid on hl hx => ?_⟩
    · rw [if_neg (by simp [valid]), if_pos (by simp [off])]
    · have cell : v.liveOf k (s.profM k.prof) = l := hl.symm
      have start : v.preparing l c = x := hx.symm
      have kept : l.c = k := by rw [hl]
      rw [if_neg (by simp [valid]), if_neg (by simp [on]), cell, start] at answers
      refine ⟨fun tx none => answers ?_, fun a tx head left => answers ?_, fun a len d tx head mark stays hlen hd => ?_, fun g w tx hg hw => answers ?_⟩
      · rw [if_pos tx, Chip.prepTx_none (by rw [kept]; exact none), kept]
      · rw [if_pos tx, Chip.prepTx_left (by rw [kept]; exact head) (by rw [kept]; exact left)]
      · rw [if_pos tx, Chip.prepTx_entry (d := d) (by rw [kept]; exact head) (by rw [kept]; exact mark) (by rw [kept]; exact stays) hlen
          (by rw [kept]; exact hd)] at answers
        refine ⟨fun bad => answers (if_pos bad), fun ok long => answers ?_, fun ok short fit => answers ?_⟩
        · rw [if_neg (Classical.not_not.2 ok), if_pos long]
        · rw [if_neg (Classical.not_not.2 ok), if_neg (by omega), if_neg (by simp [fit]), kept]
      · rw [if_neg (by simp [tx]), hw, hg, Chip.prepRx, kept]

end Sys2Proof.Machine
end

section
/-!
PROOFS. Windows, the end of a transmission, and acknowledgements.
-/
namespace Sys2Proof.Machine

/-! ### Windows -/

/-- The window of a receive cell opens, with lock. -/
theorem Chip.rxWindowOpen_of_locked {s u : Chip} {gnt : Bool} {l : Live} {w : RxWin} (hu : u = s.driveGnt gnt) (hw : u.liveWin = some (l, w))
    (shut : w.opened = false) (lock : u.bit F.SYN_STAT_LOCK = true) (rx : l.c.tx = false) (prep : u.inPrep = true) :
    s.rxWindowOpen gnt = if u.rxDenied l then (u.endCell l Rc.CX_DENIED).cxCount else (u.openRx l w).setFld F.LNK_STAT_LIVE 4 := by
  simp only [Chip.rxWindowOpen, ← hu, hw]
  exact if_neg (by simp [rx, prep, lock, shut])

/-- The acknowledgement window's turn: its claim, and then its opening. -/
theorem Chip.ackWindowOpen_of_live {s u : Chip} {gnt : Bool} {l : Live} {w : RxWin} (hu : u = s.driveGnt gnt) (hw : u.liveWin = some (l, w))
    (shut : w.opened = false) (state : u.fld F.LNK_STAT_LIVE = 3) :
    s.ackWindowOpen gnt =
      if !l.held then u.ackWindowClaim l w
      else if !l.granted || !u.bit F.SYN_STAT_LOCK then u
      else if u.rxDenied l then (u.ackMissed l Rc.CX_DENIED).cxCount
      else u.openRx l w := by
  simp only [Chip.ackWindowOpen, ← hu, hw]
  exact if_neg (by simp [state, shut])

theorem Chip.endWindow_of_ack {s : Chip} (l : Live) (code : Nat) (h : s.fld F.LNK_STAT_LIVE = 3) :
    s.endWindow l code = (s.setReason R.MDM_STAT code).ackMissed l code := by
  have state : (s.setReason R.MDM_STAT code).fld F.LNK_STAT_LIVE = 3 := (Chip.fld_setFld_ne _ _ _ (by decide)).trans h
  exact if_pos state

theorem Chip.endWindow_of_cell {s : Chip} (l : Live) (code : Nat) (h : s.fld F.LNK_STAT_LIVE ≠ 3) :
    s.endWindow l code = (s.setReason R.MDM_STAT code).endCell l code := by
  have state : (s.setReason R.MDM_STAT code).fld F.LNK_STAT_LIVE ≠ 3 := by
    rwa [Chip.setReason, Chip.fld_setFld_ne _ _ _ (by decide)]
  exact if_neg state

/-- The close of the window that is open. -/
theorem Chip.windowClose_of_live {s : Chip} {ack : Bool} {l : Live} {w : RxWin} (hw : s.liveWin = some (l, w))
    (mine : ack = true ∧ s.fld F.LNK_STAT_LIVE = 3 ∨ ack = false ∧ s.fld F.LNK_STAT_LIVE = 4 ∧ l.c.tx = false) :
    s.windowClose ack = if w.st = .search then s.endWindow l (w.failed.getD Rc.NO_PREAMBLE)
      else s.setLive { l with win := some { w with closeAt := min w.closeAt s.now } } := by
  simp only [Chip.windowClose, hw]
  rcases mine with ⟨rfl, h⟩ | ⟨rfl, h, rx⟩
  · exact if_neg (by simp [h])
  · exact if_neg (by simp [h, rx])

/-! ### The end of a transmission -/

/-- The live cell of a transmission that has ended. -/
def Live.sent (l : Live) : Live := { l with txd := true, txenUp := false, rampAt := none, txEnd := none, granted := false, held := false }

theorem Chip.txEndStep_idle {z s : Chip} {l : Live} (hs : s = z.stampDone) (hl : s.lnk.live = some l) (h : s.fld F.LNK_STAT_LIVE ≠ 2) : z.txEndStep = s := by
  simp only [Chip.txEndStep, ← hs, hl]
  exact if_pos h

theorem Chip.txEndStep_aborted {z s u : Chip} {l : Live} {code : Nat} (hs : s = z.stampDone) (hl : s.lnk.live = some l) (h : s.fld F.LNK_STAT_LIVE = 2)
    (hu : u = s.setLatch { s.pins.latch with txen := false }) (ha : l.abort = some code) : z.txEndStep = u.endCellEntry l code s.now := by
  simp only [Chip.txEndStep, ← hs, hl, ← hu, ha]
  rw [if_neg (Classical.not_not.2 h), hu]
  rfl

/-- An entry without acknowledgement is returned at the end of its frame. -/
theorem Chip.txEndStep_plain {z s u : Chip} {l : Live} {a : Nat} (hs : s = z.stampDone) (hl : s.lnk.live = some l) (h : s.fld F.LNK_STAT_LIVE = 2)
    (hu : u = s.setLatch { s.pins.latch with txen := false }) (ha : l.abort = none) (head : s.headEntry l.c.q = some a)
    (ack : bitOf (s.rd a).toNat 28 = false) : z.txEndStep = u.endCellEntry l.sent Rc.OK l.e := by
  have head' : u.headEntry l.c.q = some a := by rw [hu]; exact head
  have ack' : bitOf (u.rd a).toNat 28 = false := by rw [hu]; exact ack
  simp only [Chip.txEndStep, ← hs, hl, ← hu, ha, head', ack']
  rw [if_neg (Classical.not_not.2 h)]
  rfl

/-- One that is acknowledged waits for its window. -/
theorem Chip.txEndStep_acked {z s u x : Chip} {l : Live} {a m : Nat} {w : RxWin} (hs : s = z.stampDone) (hl : s.lnk.live = some l)
    (h : s.fld F.LNK_STAT_LIVE = 2) (hu : u = s.setLatch { s.pins.latch with txen := false }) (ha : l.abort = none) (head : s.headEntry l.c.q = some a)
    (ack : bitOf (s.rd a).toNat 28 = true) (hm : m = l.e + s.tAck l.c.cls)
    (hw : w = { openAt := m - s.ackGuard l.c.cls, closeAt := m + s.ackGuard l.c.cls + tAcq l.mm l.mset })
    (hx : x = ((((u.setLive { l.sent with win := some w }).setFld F.LNK_STAT_LIVE 3).setFld F.MDM_STAT_LIVE 0).setFld F.RFE_STAT_STATE 0).release 4)
    (gap : us 100 ≤ x.ackGap l.c.cls) : z.txEndStep = x.synOff := by
  have head' : u.headEntry l.c.q = some a := by rw [hu]; exact head
  have ack' : bitOf (u.rd a).toNat 28 = true := by rw [hu]; exact ack
  have window : { openAt := l.e + u.tAck l.c.cls - u.ackGuard l.c.cls,
                  closeAt := l.e + u.tAck l.c.cls + u.ackGuard l.c.cls + tAcq l.mm l.mset : RxWin } = w := by rw [hw, hm, hu]; rfl
  simp only [Live.sent, ha] at hx
  simp only [Chip.txEndStep, ← hs, hl, ← hu, ha, head', ack', window, ← hx, if_pos gap]
  rw [if_neg (Classical.not_not.2 h)]
  rfl

/-! ### An acknowledgement that is sent -/

theorem Chip.ackClaim_none {s : Chip} {l : Live} (hl : s.lnk.live = some l) (h : l.ack = none ∨ s.fld F.LNK_STAT_LIVE ≠ 4) : s.ackClaim = s := by
  simp only [Chip.ackClaim, hl]
  refine if_neg ?_
  rcases h with h | h <;> simp [h]

theorem Chip.ackClaim_some {s : Chip} {l : Live} {f : List Byte} (hl : s.lnk.live = some l) (ack : l.ack = some f) (state : s.fld F.LNK_STAT_LIVE = 4) :
    s.ackClaim = ((s.setLive { l with pwr := mPwr l.m }).setFld F.LNK_STAT_LIVE 5).claim 4 (txClaim (mPwr l.m))
      (24 + ceilDiv (airTime l.mm l.mset (s.fld F.LNK_CFG_ACKLEN) + 2 * s.ramp) 32) false none (some s.now) := by
  simp only [Chip.ackClaim, hl]
  exact if_pos (by simp [ack, state])

theorem Chip.ackTxEnd_of_sent {s : Chip} {l : Live} (hl : s.lnk.live = some l) (state : s.fld F.LNK_STAT_LIVE = 5) (sent : l.txEnd.isSome = true) :
    s.ackTxEnd = match l.abort with
      | some code => (s.deliverFrame l false).endCell { l with deliver := none } code
      | none => (s.deliverFrame l true).endCell { l with deliver := none } l.reason := by
  simp only [Chip.ackTxEnd, hl]
  exact if_pos (by simp [state, sent])

/-- The ramp instant of an acknowledgement that is built. -/
theorem Chip.ackTxStart_of_built {s u : Chip} {gnt : Bool} {l : Live} {w : RxWin} {f : List Byte} (hu : u = s.driveGnt gnt)
    (hw : u.liveWin = some (l, w)) (ack : l.ack = some f) (ramp : l.rampAt = none) (state : 4 ≤ u.fld F.LNK_STAT_LIVE) :
    s.ackTxStart gnt =
      if !l.granted || u.now < w.handedAt + us 30 || !u.bit F.SYN_STAT_LOCK || u.calRuns then u.ackLate l
      else if u.cxDenies then (u.ackLate l).cxCount
      else u.rampFor l f := by
  simp only [Chip.ackTxStart, ← hu, hw, ack]
  exact if_neg (by simpa [ramp] using state)

/-! ### An acknowledgement that is judged -/

/-- What a good acknowledgement's cell shows. -/
def Live.acked (l : Live) (c : Int) : Live := { l with ackok := true, reason := Rc.OK, corr := some (max (-32768) (min 32767 c)) }

theorem Chip.ackGood_code {s : Chip} {l : Live} {w : RxWin} (h : s.ackGood l w = true) : w.code = Rc.OK := by
  simp only [Chip.ackGood, Bool.and_eq_true, decide_eq_true_eq] at h
  obtain ⟨⟨⟨⟨⟨⟨⟨code, -⟩, -⟩, -⟩, -⟩, -⟩, -⟩, -⟩ := h
  exact code

theorem Chip.ackReceived_bad {s : Chip} {l : Live} {w : RxWin} (hw : s.liveWin = some (l, w)) (state : s.fld F.LNK_STAT_LIVE = 3) (st : w.st = .handed)
    (bad : s.ackGood l w = false) : s.ackReceived = s.ackMissed l (if w.code = Rc.OK then Rc.ACK_BAD else w.code) := by
  simp only [Chip.ackReceived, hw]
  rw [if_neg (by simp [state, st])]
  by_cases ok : w.code = Rc.OK
  · rw [if_neg (Classical.not_not.2 ok), if_pos (by simp [bad]), if_pos ok]
  · rw [if_pos ok, if_neg ok]

theorem Chip.ackDecision_bad {s : Chip} {l : Live} {w : RxWin} (hw : s.liveWin = some (l, w)) (state : s.fld F.LNK_STAT_LIVE = 3) (st : w.st = .handed)
    (bad : s.ackGood l w = false) : s.ackDecision = s.ackMissed l (if w.code = Rc.OK then Rc.ACK_BAD else w.code) := by
  rw [← Chip.ackReceived_bad hw state st bad]
  simp only [Chip.ackDecision, hw]
  exact if_neg (by simp [bad])

/-- A good acknowledgement of a neighbour that is no time source returns the entry with OK. -/
theorem Chip.ackReceived_good {s : Chip} {l : Live} {w : RxWin} (hw : s.liveWin = some (l, w)) (state : s.fld F.LNK_STAT_LIVE = 3) (st : w.st = .handed)
    (good : s.ackGood l w = true) (whole : 11 ≤ w.frame.length) (plain : s.nbrTs (s.headNbr l.c.q) = false) :
    s.ackReceived = (s.endEntry l.c.q Rc.OK (s.lnk.tries.getD (l.c.q - 8) 0 - 1) l.pwr l.e (decide (l.c.ty = 2))).endCell
      (l.acked (signed 16 (oct2 w.frame 9) * (if lhVer w.frame = 1 then 4 else 1))) Rc.OK := by
  simp only [Chip.ackReceived, hw, whole, plain, Bool.and_false, Bool.false_eq_true, if_false]
  rw [if_neg (by simp [state, st]), if_neg (Classical.not_not.2 (Chip.ackGood_code good)), if_neg (by simp [good])]
  rfl

/-- What follows a good acknowledgement: the sample of Q, the end of a run of failures, and the joining of an ADVERT's sender. -/
theorem Chip.ackDecision_good {s : Chip} {l : Live} {w : RxWin} (hw : s.liveWin = some (l, w)) (state : s.fld F.LNK_STAT_LIVE = 3) (st : w.st = .handed)
    (good : s.ackGood l w = true) {d x : Chip} {a : Nat} (ha : a = s.nbrAddr (s.headNbr l.c.q))
    (hd : d = s.ackReceived.sampleQ a (if lhVer w.frame = 1 then bits w.qual 16 9 else octAt w.frame 11))
    (hx : x = (match d.meshPeer a with | some p => d.setPeer { p with noAcks := 0 } | none => d)) :
    s.ackDecision = match meshParse l.octets with
      | some m => if m.ty = 4 && m.orig = s.saddr then (if m.dst = 0 then x.nowJoined else x.joinLater) else x
      | none => x := by
  subst hx hd ha
  simp only [Chip.ackDecision, hw]
  exact if_pos (by simp [state, st, good])

/-- A miss in a cell that is not SHARED. -/
theorem Chip.ackMissed_of_head {s : Chip} {l : Live} {a : Nat} (code : Nat) (ty : l.c.ty ≠ 2) (head : s.headEntry l.c.q = some a) :
    s.ackMissed l code = if bits (s.rd a).toNat 27 25 + 1 ≤ s.lnk.tries.getD (l.c.q - 8) 0 then s.endCellEntry l Rc.NO_ACK l.e else s.endCell l code := by
  simp only [Chip.ackMissed, Chip.ackEnd, if_neg ty, head]
  rfl

/-- Settles O47. -/
theorem windowsAndAcknowledgements : Obligations.WindowsAndAcknowledgements := by
  unfold Obligations.WindowsAndAcknowledgements
  refine ⟨fun s u gnt l w w' hu hl hw shut lock hw' x hx => ?_, fun s l w code hl hw hcode => ?_, fun z s u l l' hs hl hu => ⟨fun idle => ?_, fun state => ⟨fun code ha => ?_,
    fun a ha head hl' => ⟨fun plain => ?_, fun m w x ack hm hw hx gap => ?_⟩⟩⟩, fun s l f hl => ?_, fun s l w hl hw state st => ?_, fun s l a code ty head => ?_⟩
  · have live := Chip.liveWin_of_live hl hw
    have opens : u.openRx l w = x := by rw [hx, hw']; rfl
    have rx {d : Chip} (h : s.rxWindowOpen gnt = d) : s.gives (.rxWindowOpen gnt) d := Chip.gives_of h fun _ => rfl
    have ack {d : Chip} (h : s.ackWindowOpen gnt = d) : s.gives (.ackWindowOpen gnt) d := Chip.gives_of h fun _ => rfl
    refine ⟨fun tx prep deny => rx ?_, fun tx prep free => rx ?_, fun state held granted free => ack ?_, fun state held granted deny => ack ?_,
      fun state held => ack ?_⟩
    · rw [Chip.rxWindowOpen_of_locked hu live shut lock tx prep, if_pos deny]
    · rw [Chip.rxWindowOpen_of_locked hu live shut lock tx prep, if_neg (by simp [free]), opens]
    · rw [Chip.ackWindowOpen_of_live hu live shut state, if_neg (by simp [held]), if_neg (by simp [granted, lock]), if_neg (by simp [free]), opens]
    · rw [Chip.ackWindowOpen_of_live hu live shut state, if_neg (by simp [held]), if_neg (by simp [granted, lock]), if_pos deny]
    · rw [Chip.ackWindowOpen_of_live hu live shut state, if_pos (by simp [held]), Chip.ackWindowClaim]
  · subst hcode
    have live := Chip.liveWin_of_live hl hw
    refine ⟨fun state tx => ⟨fun search => ?_, fun busy => ?_⟩, fun state => ⟨fun search => ?_, fun busy => ?_⟩⟩
    · refine Chip.gives_of (e := s.windowClose false) ?_ fun _ => rfl
      rw [Chip.windowClose_of_live live (.inr ⟨rfl, state, tx⟩), if_pos search, Chip.endWindow_of_cell l _ (by omega)]
    · refine Chip.gives_of (e := s.windowClose false) ?_ fun _ => rfl
      rw [Chip.windowClose_of_live live (.inr ⟨rfl, state, tx⟩), if_neg busy]
    · refine Chip.gives_of (e := s.windowClose true) ?_ fun _ => rfl
      rw [Chip.windowClose_of_live live (.inl ⟨rfl, state⟩), if_pos search, Chip.endWindow_of_ack l _ state]
    · refine Chip.gives_of (e := s.windowClose true) ?_ fun _ => rfl
      rw [Chip.windowClose_of_live live (.inl ⟨rfl, state⟩), if_neg busy]
  · exact Chip.gives_of (e := z.txEndStep) (Chip.txEndStep_idle hs hl idle) fun _ => rfl
  · exact Chip.gives_of (e := z.txEndStep) (Chip.txEndStep_aborted hs hl state hu ha) fun _ => rfl
  · rw [hl']
    exact Chip.gives_of (e := z.txEndStep) (Chip.txEndStep_plain hs hl state hu ha head plain) fun _ => rfl
  · rw [hl'] at hx
    exact Chip.gives_of (e := z.txEndStep) (Chip.txEndStep_acked hs hl state hu ha head ack hm hw hx gap) fun _ => rfl
  · refine ⟨fun none => ?_, fun ack state d hd => ?_, fun state sent => ⟨fun none => ?_, fun code some => ?_⟩,
      fun gnt u w hu hl' hw ack ramp state => ?_⟩
    · exact Chip.gives_of (e := s.ackClaim) (Chip.ackClaim_none hl none) fun _ => rfl
    · rw [hd]
      exact Chip.gives_of (e := s.ackClaim) (Chip.ackClaim_some hl ack state) fun _ => rfl
    · exact Chip.gives_of (e := s.ackTxEnd) (by rw [Chip.ackTxEnd_of_sent hl state sent, none]) fun _ => rfl
    · exact Chip.gives_of (e := s.ackTxEnd) (by rw [Chip.ackTxEnd_of_sent hl state sent, some]) fun _ => rfl
    · have answers {d : Chip} (h : s.ackTxStart gnt = d) : s.gives (.ackTxStart gnt) d := Chip.gives_of h fun _ => rfl
      rw [Chip.ackTxStart_of_built hu (Chip.liveWin_of_live hl' hw) ack ramp state] at answers
      refine ⟨fun late => answers (if_pos ?_), fun granted time lock cal => ?_⟩
      · rcases late with h | h | h | h <;> simp [h]
      · rw [if_neg (by simp [granted, time, lock, cal])] at answers
        exact ⟨fun deny => answers (if_pos deny), fun free => answers (if_neg (by simp [free]))⟩
  · have live := Chip.liveWin_of_live hl hw
    have answers {d : Chip} (h : s.ackDecision = d) : s.gives .ackReceived d := Chip.gives_of h fun _ => rfl
    refine ⟨fun bad => answers ?_, fun ok bad => answers ?_, fun d x l' c a ok good whole plain ha hc hl' hd hx => ?_⟩
    · have no : s.ackGood l w = false := by
        rw [Bool.eq_false_iff]
        exact fun good => bad (Chip.ackGood_code good)
      rw [Chip.ackDecision_bad live state st no, if_neg bad]
    · rw [Chip.ackDecision_bad live state st bad, if_pos ok]
    · have cell : l' = l.acked (signed 16 (oct2 w.frame 9) * (if lhVer w.frame = 1 then 4 else 1)) := by rw [hl', hc]; rfl
      rw [cell, ← Chip.ackReceived_good live state st good whole plain] at hd
      rw [Chip.ackDecision_good live state st good ha hd hx] at answers
      refine ⟨fun m hm ty orig => answers ?_, fun other => answers ?_⟩
      · simp only [hm]
        exact if_pos (by simp [ty, orig])
      · cases hm : meshParse l.octets with
        | none => rfl
        | some m => exact if_neg (by simpa [Decidable.imp_iff_not_or] using other m hm)
  · rw [Chip.ackMissed_of_head code ty head]
    exact ⟨fun spent => if_pos spent, fun left => if_neg (by omega)⟩

end Sys2Proof.Machine
end

section
/-!
PROOFS. Bookings of transmit entries and receive cells.
-/
namespace Sys2Proof.Machine

/-- Nothing to book. -/
theorem Chip.bookTx_idle {s u : Chip} {q : Nat} (hu : u = s.purgeBooks)
    (h : u.lnk.running = false ∨ q < 8 ∨ 16 ≤ q ∨ u.fld F.LNK_BOOK_BOOKAHEAD = 0 ∨ (u.lnk.books.getD (q - 8) none).isSome = true) : s.bookTx q = u := by
  rw [Chip.bookTx, ← hu]
  refine if_pos ?_
  simp only [Bool.or_eq_true, Bool.not_eq_true', decide_eq_true_eq]
  rcases h with h | h | h | h | h <;> simp only [h, true_or, or_true]

/-- The head entry of a queue is tried in the cells that may take it. -/
theorem Chip.bookTx_of_head {s u : Chip} {q a : Nat} (hu : u = s.purgeBooks) (run : u.lnk.running = true) (lo : 8 ≤ q) (hi : q < 16)
    (ahead : u.fld F.LNK_BOOK_BOOKAHEAD ≠ 0) (free : u.lnk.books.getD (q - 8) none = none) (may : u.lnk.unbooked.getD (q - 8) false = false)
    (head : u.headEntry q = some a) : s.bookTx q = u.tryBook q a (u.bookCandidates q) := by
  rw [Chip.bookTx, ← hu, if_neg, head]
  simp only [run, ahead, free, may, Option.isSome_none, Bool.not_true, Bool.false_or, Bool.or_false, decide_false, Bool.or_eq_true, decide_eq_true_eq]
  omega

/-- The first candidate, where BOOKMAX would be passed and where Bear takes its reservations. -/
theorem Chip.tryBook_first {u : Chip} {q a p c n i w0 : Nat} {l : List (Nat × Nat × Nat × Nat × Nat)} {rs : List Resv} (hr : rs = u.entryResv a p c w0) :
    (u.fld F.LNK_BOOK_BOOKMAX < u.engineResv + rs.length →
      u.tryBook q a ((p, c, n, i, w0) :: l) = u.setLnk { u.lnk with unbooked := u.lnk.unbooked.set (q - 8) true })
    ∧ (∀ (got : List Nat) (v : Chip), u.engineResv + rs.length ≤ u.fld F.LNK_BOOK_BOOKMAX → u.reserveAll [] rs = (Rc.OK, got, v) →
      u.tryBook q a ((p, c, n, i, w0) :: l) =
        v.setLnk { v.lnk with books := v.lnk.books.set (q - 8) (some { cls := c, asn := n, cell := i, resv := got, prepAt := p }) }) := by
  subst hr
  refine ⟨fun past => if_pos past, fun got v fits took => ?_⟩
  rw [Chip.tryBook, if_neg (by omega), took]
  exact if_pos rfl

/-- A reception that is booked, or is not. -/
theorem Chip.bookRx_next {s : Chip} {i c n w0 m g p t : Nat} {r : Resv} (next : s.bookRxNext i = some (c, n, w0)) (hm : m = s.profM (bits w0 4 2))
    (hg : g = s.guardOf c (s.fld F.MON_PLAN0_GUARD)) (hp : p = (s.boundaryAt c n + s.txOff c - g - s.lockLead c).toNat)
    (ht : t = s.lockLead c + 2 * g + tAcq (mMode m) (s.msetOf m)) (hr : r = s.slotResv 3 p (rxPower (mMode m)) t) :
    (s.fld F.LNK_BOOK_BOOKMAX < s.engineResv + 1 →
      s.bookRx i = Chip.lnkEvent (s.setLnk { s.lnk with
        rxBooks := (i, n, none) :: s.lnk.rxBooks.filter (fun e => e.1 ≠ i || n < e.2.1 + sfSize (s.sfWord (cellSf w0))) }) F.LNK_EVT_BOOKFAIL)
    ∧ (∀ (k : Nat) (v : Chip), s.engineResv + 1 ≤ s.fld F.LNK_BOOK_BOOKMAX → s.reserve r = (Rc.OK, some k, v) →
      s.bookRx i = v.setLnk { v.lnk with
        rxBooks := (i, n, some (k, r.start)) :: v.lnk.rxBooks.filter (fun e => e.1 ≠ i || n < e.2.1 + sfSize (v.sfWord (cellSf w0))) }) := by
  refine ⟨fun past => ?_, fun k v fits took => ?_⟩
  · simp only [Chip.bookRx, next]
    exact if_pos past
  · simp only [Chip.bookRx, next, ← hm, ← hg, ← hp, ← ht, ← hr, took]
    rw [if_neg (by omega)]
    rfl

/-- Settles O48. -/
theorem bookings : Obligations.Bookings := by
  unfold Obligations.Bookings
  refine ⟨fun s u q hu => ⟨fun no run => ?_, fun a p c n i w0 l rs run lo hi ahead free may head cands hr => ?_⟩,
    fun s i => ⟨fun none => ?_, fun c n w0 m g p t r l next hm hg hp ht hr => ?_⟩⟩
  · refine Chip.gives_of (e := s.bookTx q) (Chip.bookTx_idle hu ?_) fun _ => rfl
    have fld : u.fld F.LNK_BOOK_BOOKAHEAD = s.fld F.LNK_BOOK_BOOKAHEAD := by rw [hu]; rfl
    rwa [run, fld]
  · have answers {d : Chip} (h : u.tryBook q a ((p, c, n, i, w0) :: l) = d) : s.gives (.bookTxEntry q) d :=
      Chip.gives_of (e := s.bookTx q) ((Chip.bookTx_of_head hu run lo hi ahead free may head).trans (by rw [cands, h])) fun _ => rfl
    obtain ⟨past, taken⟩ := Chip.tryBook_first (q := q) (n := n) (i := i) (l := l) hr
    refine ⟨fun h => answers (past h), fun got v k fits took hk => answers ?_⟩
    rw [hk]
    exact taken got v fits took
  · exact Chip.gives_of (e := s.bookRx i) (by simp only [Chip.bookRx, none]) fun _ => rfl
  · obtain ⟨past, taken⟩ := Chip.bookRx_next next hm hg hp ht hr
    have answers {d : Chip} (h : s.bookRx i = d) : s.gives (.bookRxCell i) d := Chip.gives_of h fun _ => rfl
    refine ⟨fun h hl => answers ?_, fun k v fits took hl => answers ?_⟩
    · rw [hl]
      exact past h
    · rw [hl]
      exact taken k v fits took

end Sys2Proof.Machine
end

section
/-!
PROOFS. The link controller's registers.
-/
namespace Sys2Proof.Machine

/-! ### The write of a cell's word -/

theorem exec_lnkCellWrite_word (x : State) (ag : Agent) {n : Nat} (k : Nat) (v : Word) (hn : n < 1024) :
    exec (.lnkCellWrite ag n k v) x = x.after (x.chip.cellWrite ag n (k % 2) v) := by
  obtain ⟨j, hj⟩ : ∃ j, j = 2 * n + k % 2 := ⟨_, rfl⟩
  have lt : j < 2048 := by omega
  have ctl : ¬ (R.LNK_CELL_0 0 + j = R.LNK_CTL) := by simp only [R.LNK_CELL_0, R.LNK_CTL]; omega
  have tadj : ¬ (R.LNK_CELL_0 0 + j = R.LNK_TADJ) := by simp only [R.LNK_CELL_0, R.LNK_TADJ]; omega
  have sf : ¬ (R.LNK_SF 0 ≤ R.LNK_CELL_0 0 + j ∧ R.LNK_CELL_0 0 + j < R.LNK_SF 8) := by simp only [R.LNK_CELL_0, R.LNK_SF]; omega
  have ch : ¬ (R.LNK_CH 0 ≤ R.LNK_CELL_0 0 + j ∧ R.LNK_CELL_0 0 + j < R.LNK_CH 64) := by simp only [R.LNK_CELL_0, R.LNK_CH]; omega
  have nbr : ¬ (R.LNK_NBR_0 0 ≤ R.LNK_CELL_0 0 + j ∧ R.LNK_CELL_0 0 + j < R.LNK_NBR_0 64) := by simp only [R.LNK_CELL_0, R.LNK_NBR_0]; omega
  have cell : R.LNK_CELL_0 0 ≤ R.LNK_CELL_0 0 + j ∧ R.LNK_CELL_0 0 + j < R.LNK_CELL_0 1024 := by simp only [R.LNK_CELL_0]; omega
  have index : (R.LNK_CELL_0 0 + j - R.LNK_CELL_0 0) / 2 = n := by omega
  have word : (R.LNK_CELL_0 0 + j - R.LNK_CELL_0 0) % 2 = k % 2 := by omega
  rw [exec_lnkCellWrite, ← hj, Chip.regWriteN, x.chip.ofIdx_lt _ lt,
    x.chip.regWrite_lnk ag _ _ (by simp only [R.LNK_CELL_0]; omega) (by simp only [R.LNK_CELL_0]; omega),
    Chip.writeLnk, if_neg ctl, if_neg tadj, if_neg sf, if_neg ch, if_neg nbr, if_pos cell, index, word]

/-! ### Enable and disable -/

theorem Chip.lnkEnable_of_off {s : Chip} (off : s.bit F.LNK_CTL_EN = false) :
    s.lnkEnable =
      if s.lnkCheck = Rc.OK then
        if s.lnk.running then (s.setBit F.LNK_CTL_EN true).setReason R.LNK_STAT Rc.OK else (s.enableBlock .lnk).engineStart
      else s.setReason R.LNK_STAT s.lnkCheck := by
  have enable : s.enableIf .lnk s.lnkCheck = if s.lnkCheck = Rc.OK then s.enableBlock .lnk else s.setReason R.LNK_STAT s.lnkCheck :=
    Chip.enableIf_of_off (b := .lnk) _ off
  rw [Chip.lnkEnable, if_neg (by simp [off])]
  by_cases ok : s.lnkCheck = Rc.OK
  · by_cases run : s.lnk.running = true <;> simp [ok, run, ok ▸ enable]
  · simp [ok, enable]

theorem Chip.lnkCheck_clock {s : Chip} (h : s.prov 5 = false ∨ s.bit F.MDM_CTL_EN = false) : s.lnkCheck = Rc.CLOCK_OFF := by
  rw [Chip.lnkCheck]
  refine if_pos ?_
  rcases h with h | h <;> simp [h]

/-! ### Slotframes, cells, channels and START -/

theorem Chip.sfWrite_owner {s : Chip} {ag : Agent} {f w : Nat} {v : Word} (own : ag = .badger ∨ ag = .svc) (hf : f < 8) (hw : w = v.toNat % 65536) :
    s.sfWrite ag f v =
      let code := if s.bit F.LNK_CTL_EN && sfOn w && (!sfOn (s.sfWord f) || sfClass w ≠ sfClass (s.sfWord f)) then s.classCheck (sfClass w) else Rc.OK
      if sfOn (s.sfWord f) && sfSize w ≠ sfSize (s.sfWord f) then s.setReason R.LNK_STAT Rc.BUSY
      else (s.setReg (R.LNK_SF f) (W (if code = Rc.OK then w else putBit w 15 false))).setReason R.LNK_STAT code := by
  subst hw
  rw [Chip.sfWrite, Chip.ifLnkOwner_of_owner own]
  exact if_neg (by omega)

theorem Chip.cellWrite_owner {s : Chip} {ag : Agent} {n : Nat} (k : Nat) (v : Word) (own : ag = .badger ∨ ag = .svc) (hn : n < 1024) (hk : k < 2) :
    s.cellWrite ag n k v =
      if k = 1 then (s.setReg (R.LNK_CELL_1 n) (v &&& W 0xFFC000000)).setReason R.LNK_STAT Rc.OK
      else if sfSize (s.sfWord (cellSf v.toNat)) ≤ bits v.toNat 31 20 ∨ (63 < cellNbr v.toNat ∧ cellNbr v.toNat < 127) then s.setReason R.LNK_STAT Rc.RANGE
      else (s.setReg (R.LNK_CELL_0 n) (v &&& W 0xFFFFFFFFE)).setReason R.LNK_STAT Rc.OK := by
  rw [Chip.cellWrite, Chip.ifLnkOwner_of_owner own]
  exact if_neg (by omega)

theorem Chip.chWrite_owner {s : Chip} {ag : Agent} {k f : Nat} {v : Word} (own : ag = .badger ∨ ag = .svc) (hk : k < 64) (hf : f = bits v.toNat 29 0) :
    s.chWrite ag k v = if f ≠ 0 && !inBands f then s.setReason R.LNK_STAT Rc.BAND else (s.setReg (R.LNK_CH k) (W f)).setReason R.LNK_STAT Rc.OK := by
  subst hf
  rw [Chip.chWrite, Chip.ifLnkOwner_of_owner own]
  exact if_neg (by omega)

theorem Chip.startWrite_owner {s : Chip} {ag : Agent} {c : Nat} (v : Word) (own : ag = .badger ∨ ag = .svc) (hc : c < 4) :
    s.startWrite ag c v =
      if s.bit F.LNK_CTL_EN then s.setReason R.LNK_STAT Rc.BUSY
      else ((((s.setReg (R.LNK_CLS_START c) v).setFld F.LNK_TOFF_TOFF 0).setLnk { s.lnk with
        starts := s.lnk.starts.set c ((s.owl.stb : Int) + signed 36 ((v.toNat + 2 ^ 36 - s.stbLo) % 2 ^ 36)).toNat })).setReason R.LNK_STAT Rc.OK := by
  rw [Chip.startWrite, Chip.ifLnkOwner_of_owner own]
  exact if_neg (by omega)

/-- The writes of another agent. -/
theorem Chip.gives_owned {s : Chip} {ag : Agent} {v : Word} (b : ag ≠ .badger) (p : ag ≠ .svc) {f n k c : Nat} (hf : f < 8) (hn : n < 64) (hk : k < 64) (hc : c < 4)
    {i : Instr} (hi : i = .lnkEnable ag ∨ i = .lnkDisable ag ∨ i = .lnkSfWrite ag f v ∨ i = .lnkCellWrite ag n k v ∨ i = .lnkChWrite ag k v
      ∨ i = .lnkClsStartWrite ag c v ∨ i = .lnkNbrWrite ag n v) : s.gives i (s.setReason R.LNK_STAT Rc.OWNED) := by
  have owned {g : Chip → Chip} : s.ifLnkOwner ag g = s.setReason R.LNK_STAT Rc.OWNED := Chip.ifLnkOwner_of_other b p
  rcases hi with rfl | rfl | rfl | rfl | rfl | rfl | rfl
  · exact Chip.gives_of (e := s.ifLnkOwner ag Chip.lnkEnable) owned fun q => exec_lnkEnable ⟨q, s⟩ ag
  · exact Chip.gives_of (e := s.ifLnkOwner ag Chip.lnkDisable) owned fun q => exec_lnkDisable ⟨q, s⟩ ag
  · exact Chip.gives_of (e := s.sfWrite ag f v) owned fun q => exec_lnkSfWrite ⟨q, s⟩ ag f v hf
  · exact Chip.gives_of (e := s.cellWrite ag n (k % 2) v) owned fun q => exec_lnkCellWrite_word ⟨q, s⟩ ag k v (by omega)
  · exact Chip.gives_of (e := s.chWrite ag k v) owned fun q => exec_lnkChWrite ⟨q, s⟩ ag k v hk
  · exact Chip.gives_of (e := s.startWrite ag c v) owned fun q => exec_lnkClsStartWrite ⟨q, s⟩ ag c v hc
  · exact Chip.gives_of (e := s.nbrWrite ag n 0 v) owned fun q => exec_lnkNbrWrite ⟨q, s⟩ ag n v hn

/-- Settles O49. -/
theorem linkRegisters : Obligations.LinkRegisters := by
  unfold Obligations.LinkRegisters
  refine fun s ag v => ⟨fun b p f n k c hf hn hk hc i hi => Chip.gives_owned b p hf hn hk hc hi, fun c a hc ha => ?_, fun own => ?_⟩
  · subst ha
    exact fun q => exec_lnkAsnloRead ⟨q, s⟩ ag c hc
  · have enable {d : Chip} (h : s.lnkEnable = d) : s.gives (.lnkEnable ag) d :=
      Chip.gives_of (e := s.ifLnkOwner ag Chip.lnkEnable) ((Chip.ifLnkOwner_of_owner own).trans h) fun q => exec_lnkEnable ⟨q, s⟩ ag
    have disable {d : Chip} (h : s.lnkDisable = d) : s.gives (.lnkDisable ag) d :=
      Chip.gives_of (e := s.ifLnkOwner ag Chip.lnkDisable) ((Chip.ifLnkOwner_of_owner own).trans h) fun q => exec_lnkDisable ⟨q, s⟩ ag
    refine ⟨fun on => enable (if_pos on), fun off bad => enable ?_, fun off ok idle => enable ?_, fun off ok run => enable ?_, Chip.lnkCheck_clock,
      fun off => disable (if_pos (by simp [off])), fun u on hu => disable ?_, fun f w hf hw => ?_, fun n hn => ?_, fun n hn => ?_, fun k f hk hf => ?_,
      fun n hn => ?_, fun c hc => ?_⟩
    · rw [Chip.lnkEnable_of_off off, if_neg bad]
    · rw [Chip.lnkEnable_of_off off, if_pos ok, if_neg (by simp [idle])]
    · rw [Chip.lnkEnable_of_off off, if_pos ok, if_pos run]
    · rw [hu]
      exact if_neg (by simp [on])
    · have answers {d : Chip} (h : s.sfWrite ag f v = d) : s.gives (.lnkSfWrite ag f v) d := Chip.gives_of h fun q => exec_lnkSfWrite ⟨q, s⟩ ag f v hf
      rw [Chip.sfWrite_owner own hf hw] at answers
      refine ⟨fun on size => answers (if_pos (by simp [on, size])), fun off quiet => answers ?_, fun off on new bad => answers ?_⟩
      · rcases quiet with h | h <;> simp [off, h]
      · simp only [off, on, new, bad, Bool.false_and, Bool.false_eq_true, if_false, Bool.true_and, Bool.not_false, Bool.true_or, if_true]
    · refine Chip.gives_of (e := s.cellWrite ag n 1 v) ?_ fun q => exec_lnkCellWrite_word ⟨q, s⟩ ag 1 v hn
      exact (Chip.cellWrite_owner 1 v own hn (by decide)).trans (if_pos rfl)
    · have answers {d : Chip} (h : s.cellWrite ag n 0 v = d) : s.gives (.lnkCellWrite ag n 0 v) d :=
        Chip.gives_of h fun q => exec_lnkCellWrite_word ⟨q, s⟩ ag 0 v hn
      rw [Chip.cellWrite_owner 0 v own hn (by decide), if_neg (by decide)] at answers
      exact ⟨fun bad => answers (if_pos bad), fun slot nbr => answers (if_neg (by omega))⟩
    · have answers {d : Chip} (h : s.chWrite ag k v = d) : s.gives (.lnkChWrite ag k v) d := Chip.gives_of h fun q => exec_lnkChWrite ⟨q, s⟩ ag k v hk
      rw [Chip.chWrite_owner own hk hf] at answers
      refine ⟨fun some out => answers (if_pos (by simp [some, out])), fun good => answers (if_neg ?_)⟩
      rcases good with good | good <;> simp [good]
    · refine Chip.gives_of (e := s.nbrWrite ag n 0 v) ?_ fun q => exec_lnkNbrWrite ⟨q, s⟩ ag n v hn
      rw [Chip.nbrWrite, Chip.ifLnkOwner_of_owner own]
      exact if_neg (by omega)
    · have answers {d : Chip} (h : s.startWrite ag c v = d) : s.gives (.lnkClsStartWrite ag c v) d :=
        Chip.gives_of h fun q => exec_lnkClsStartWrite ⟨q, s⟩ ag c v hc
      rw [Chip.startWrite_owner v own hc] at answers
      refine ⟨fun on => answers (if_pos on), fun t u off ht hu => answers ?_⟩
      rw [if_neg (by simp [off]), ht, hu]

end Sys2Proof.Machine
end

section
/-!
PROOFS. Mesh frames and routes.
-/
namespace Sys2Proof.Machine

/-! ### A frame that is received -/

section
variable {s : Chip} {f : List Byte} {lqi : Nat} {want : MIn → Bool} {g : MIn → List Byte → Chip → Chip}

theorem Chip.onFrame_none (h : meshParse f = none) : s.onFrame f lqi want g = s.meshCount Rc.STREAM := by
  simp only [Chip.onFrame, h]

theorem Chip.onFrame_error {m : MIn} {code : Nat} (h : meshParse f = some m) (hw : want m = true)
    (he : s.meshAccept f m (s.euiOf m.src).toList = .error code) : s.onFrame f lqi want g = s.meshCount code := by
  simp only [Chip.onFrame, h, hw, Bool.not_true, Bool.false_eq_true, if_false, he]

theorem Chip.onFrame_ok {m : MIn} {e : Nat} {b : List Byte} {t : Chip} (h : meshParse f = some m) (hw : want m = true)
    (he : s.meshAccept f m (s.euiOf m.src).toList = .ok (e, b, t)) : s.onFrame f lqi want g = g m b (t.heard m lqi) := by
  simp only [Chip.onFrame, h, hw, Bool.not_true, Bool.false_eq_true, if_false, he]

end

/-! ### Sending on -/

/-- A frame that goes out, or is reported as too big where it is another node's. -/
theorem Chip.meshPass_eq {s v : Chip} {o : MOut} {code : Nat} (h : s.meshSend o = (code, v)) :
    s.meshPass o = if code = Rc.TOO_BIG && ((o.nt = 1 && o.orig ≠ s.saddr) || o.nt = 2) then v.sendRouteErr code o.fdst o.dst else v := by
  simp only [Chip.meshPass, h]

theorem Chip.meshPass_up {s v : Chip} {o : MOut} {code : Nat} (h : s.meshSend o = (code, v)) (up : o.nt = 1) :
    (code ≠ Rc.TOO_BIG ∨ o.orig = s.saddr → s.meshPass o = v)
    ∧ (code = Rc.TOO_BIG → o.orig ≠ s.saddr → s.meshPass o = v.sendRouteErr Rc.TOO_BIG o.fdst o.dst) := by
  rw [Chip.meshPass_eq h]
  refine ⟨fun ok => if_neg ?_, fun big other => ?_⟩
  · rcases ok with h | h <;> simp [h, up]
  · rw [big, if_pos (by simp [up, other])]

theorem Chip.meshPass_down {s v : Chip} {o : MOut} {code : Nat} (h : s.meshSend o = (code, v)) (down : o.nt = 2) :
    (code ≠ Rc.TOO_BIG → s.meshPass o = v) ∧ (code = Rc.TOO_BIG → s.meshPass o = v.sendRouteErr Rc.TOO_BIG o.fdst o.dst) := by
  rw [Chip.meshPass_eq h]
  refine ⟨fun ok => if_neg (by simp [ok]), fun big => ?_⟩
  rw [big, if_pos (by simp [down])]

/-! ### UP, DOWN and FLOOD -/

/-- What an accepted UP frame does. -/
def Chip.upRule (f : List Byte) (m : MIn) (b : List Byte) (s : Chip) : Chip :=
  if m.ver = 1 && m.ty = 4 && octAt b 1 ≠ 1 then s.meshCount Rc.STREAM
  else if s.mesh.role = 2 then s.meshDeliver m b
  else if s.mesh.role = 0 then s
  else if s.mesh.parents.contains m.src then s.meshCount Rc.RANK_LOOP
  else if m.hop = 1 then s.meshCount Rc.HOP_LIMIT
  else
    match s.mesh.parents with
    | [] => s.meshCount Rc.NO_PARENT
    | p :: _ => s.meshPass { dst := p, ty := m.ty, pri := lhPri f = 1, nt := 1, hop := m.hop - 1, orig := m.orig, jt := withJt m, body := b }

theorem Chip.upReceived_eq (s : Chip) (f : List Byte) (lqi : Nat) : s.upReceived f lqi = s.onFrame f lqi (fun m => m.nt = 1) (Chip.upRule f) := rfl

/-- Where a DOWN frame is sent on to, and the route that is left. -/
def downHop (m : MIn) : Nat × List Nat :=
  match m.route with
  | [] => (m.fdst, [])
  | x :: l => (x, l)

/-- What an accepted DOWN frame does. -/
def Chip.downRule (f : List Byte) (m : MIn) (b : List Byte) (s : Chip) : Chip :=
  if m.fdst = s.saddr then (s.nowJoined).meshDeliver m b
  else if m.hop = 1 then s.meshCount Rc.HOP_LIMIT
  else if s.mesh.role = 0 then s
  else if s.mesh.role = 1 && s.mesh.parents.isEmpty then s.meshCount Rc.NO_PARENT
  else if !s.reachable (downHop m).1 then (s.meshCount Rc.NO_ROUTE).sendRouteErr Rc.NO_ROUTE m.fdst (downHop m).1
  else if s.verFor (downHop m).1 = 1 && 15 < (downHop m).2.length then (s.meshCount Rc.HOP_LIMIT).sendRouteErr Rc.HOP_LIMIT m.fdst (downHop m).1
  else s.meshPass { dst := (downHop m).1, ty := m.ty, pri := lhPri f = 1, nt := 2, hop := m.hop - 1, fdst := m.fdst, orig := m.orig,
                    route := (downHop m).2, jt := withJt m, body := b }

theorem Chip.downReceived_eq (s : Chip) (f : List Byte) (lqi : Nat) : s.downReceived f lqi = s.onFrame f lqi (fun m => m.nt = 2) (Chip.downRule f) := rfl

/-- How far a FLOOD's number is ahead of the last one taken. -/
def Chip.floodAhead (s : Chip) (m : MIn) : Nat :=
  match s.mesh.fseqLast with
  | none => 1
  | some x => (m.fseq + 256 - x) % 256

/-- What an accepted FLOOD does. -/
def Chip.floodRule (f : List Byte) (m : MIn) (b : List Byte) (s : Chip) : Chip :=
  if s.floodAhead m = 0 || 127 < s.floodAhead m || s.mesh.role = 2 then s
  else
    let t := (s.setMesh { s.mesh with fseqLast := some m.fseq }).meshDeliver m b
    if s.mesh.role = 1 && m.hop ≠ 1 && !s.mesh.parents.isEmpty then
      (t.meshSend { dst := 0xFFFF, ty := m.ty, pri := lhPri f = 1, nt := 3, hop := m.hop - 1, fdst := 0xFFFF, orig := m.orig, fseq := m.fseq, body := b }).2
    else t

theorem Chip.floodReceived_eq (s : Chip) (f : List Byte) (lqi : Nat) : s.floodReceived f lqi = s.onFrame f lqi (fun m => m.nt = 3) (Chip.floodRule f) := rfl

/-! ### The root's route table -/

/-- The root's record of an ADVERT that names its parents. -/
theorem Chip.advertReceived_taken {s : Chip} {o a w n : Nat} {b : List Byte} (root : s.mesh.role = 2) (lo : 1 ≤ o) (hi : o ≤ 0x3FFF) (hn : n = octAt b 1)
    (n1 : 1 ≤ n) (n4 : n ≤ 4) (len : b.length = 2 + 2 * n) (all : ∀ i : Nat, i < n → oct2 b (2 + 2 * i) ≤ 0x3FFF) (ha : a = s.mesh.rtBase + 2 * o)
    (free : rtValid (s.rt o) = false)
    (hw : w = (1 <<< 35 ||| (decide (2 ≤ n)).toNat <<< 34 ||| oct2 b 2 <<< 14 ||| (if 2 ≤ n then oct2 b 4 else 0))) :
    s.advertReceived o b = s.wrs a [W w, W (octAt b 0 <<< 28 ||| (s.reg R.RTC_SEC).toNat % 2 ^ 28)] := by
  have parents : advertParents b = some ((List.range n).map (fun i => oct2 b (2 + 2 * i))) := by
    rw [advertParents, ← hn]
    refine if_pos ⟨n1, n4, len, ?_⟩
    simpa using all
  have first : ((List.range n).map (fun i => oct2 b (2 + 2 * i))).headD 0 = oct2 b 2 := by
    obtain ⟨k, rfl⟩ := Nat.exists_eq_add_of_le' n1
    simp [List.range_succ_eq_map]
  have second : ((List.range n).map (fun i => oct2 b (2 + 2 * i))).getD 1 0 = if 2 ≤ n then oct2 b 4 else 0 := by
    by_cases two : 1 < n
    · simp [two, show 2 ≤ n from two]
    · simp [two, show ¬ 2 ≤ n from two]
  simp only [Chip.advertReceived, parents, free, first, second, ← ha, List.length_map, List.length_range, ← hw]
  rw [if_neg, if_neg (by simp)]
  simp only [root, Bool.or_eq_true, decide_eq_true_eq]
  omega

theorem Chip.advertReceived_stream {s : Chip} {o n : Nat} {b : List Byte} (root : s.mesh.role = 2) (lo : 1 ≤ o) (hi : o ≤ 0x3FFF) (hn : n = octAt b 1)
    (bad : n = 0 ∨ 4 < n ∨ b.length ≠ 2 + 2 * n) : s.advertReceived o b = s.meshCount Rc.STREAM := by
  have none : advertParents b = none := by
    rw [advertParents, ← hn]
    refine if_neg ?_
    rintro ⟨n1, n4, len, -⟩
    omega
  simp only [Chip.advertReceived, none]
  rw [if_neg]
  simp only [root, Bool.or_eq_true, decide_eq_true_eq]
  omega

/-- The root sends DOWN only what it may. -/
def rootMay (d ty : Nat) (jt : Option Nat) : Bool := (ty = 5 && jt.isNone) || (d ≠ 0xFFFF && ((ty = 0 && jt.isNone) || (ty = 3 && jt = some 3)))

theorem rootMay_eq (d ty : Nat) (jt : Option Nat) :
    rootMay d ty jt = decide (ty = 5 ∧ jt = none ∨ d ≠ 0xFFFF ∧ (ty = 0 ∧ jt = none ∨ ty = 3 ∧ jt = some 3)) := by
  cases jt <;> simp [rootMay]

theorem Chip.rootSend_eq (s : Chip) (d ty : Nat) (jt : Option Nat) (b : List Byte) :
    s.rootSend d ty jt b = if rootMay d ty jt then s.sendDown d ty jt b else s := rfl

theorem Chip.sendDown_root {s : Chip} {d ty : Nat} {jt : Option Nat} {b : List Byte} (root : s.mesh.role = 2) (one : d ≠ 0xFFFF) :
    s.sendDown d ty jt b = match s.routeTo d with
      | (0, []) => (s.meshSend { dst := d, ty := ty, nt := 2, fdst := d, orig := s.saddr, jt := jt, body := b }).2
      | (0, h :: r) => if s.verFor h = 1 && 15 < r.length then s.meshCount Rc.HOP_LIMIT
        else (s.meshSend { dst := h, ty := ty, nt := 2, fdst := d, orig := s.saddr, route := r, jt := jt, body := b }).2
      | (code, _) => s.meshCount code := by
  rw [Chip.sendDown, if_neg (Classical.not_not.2 root), if_neg one] <;> rfl

theorem Chip.routeTo_none {s : Chip} {d : Nat} (h : d = 0 ∨ 0x3FFF < d ∨ rtValid (s.rt d) = false) : s.routeTo d = (Rc.NO_ROUTE, []) := by
  refine if_neg ?_
  rcases h with h | h | h
  · simp [h]
  · simp [Nat.not_le.2 h]
  · simp [h]

/-- ROUTE_ERR at the root. -/
theorem Chip.routeErrReceived_root {s : Chip} {fdst hop : Nat} (root : s.mesh.role = 2) (lo : 1 ≤ fdst) (hi : fdst ≤ 0x3FFF) {l : List Nat}
    (hl : l = (s.routeEntries 64 fdst).filter (fun a => rtParent (s.rt a) = hop && bitOf (s.rt a) 34)) :
    (l = [] → s.routeErrReceived fdst hop = s.wr (s.mesh.rtBase + 2 * fdst) (W (putBit (s.rt fdst) 35 false)))
    ∧ (∀ a : Nat, l = [a] → s.routeErrReceived fdst hop =
        s.wr (s.mesh.rtBase + 2 * a) (W (s.rt a / 2 ^ 28 <<< 28 ||| rtAlt (s.rt a) <<< 14 ||| rtParent (s.rt a)))) := by
  have here : ¬ (s.mesh.role ≠ 2 || fdst = 0 || 0x3FFF < fdst) = true := by
    simp only [root, Bool.or_eq_true, decide_eq_true_eq]
    omega
  refine ⟨fun none => ?_, fun a one => ?_⟩
  · rw [Chip.routeErrReceived, if_neg here]
    simp only [← hl, none]
    rfl
  · rw [Chip.routeErrReceived, if_neg here]
    simp only [← hl, one]
    rfl

/-! ### The next parent -/

theorem parentsAfter_append {a : Nat} {l r : List Nat} (h : a ∉ l) : parentsAfter a (l ++ a :: r) = r := by
  induction l with
  | nil => exact if_pos rfl
  | cons x l ih =>
    have other : x ≠ a := fun e => h (e ▸ List.mem_cons_self)
    exact (if_neg other).trans (ih fun m => h (List.mem_cons_of_mem _ m))

theorem Chip.nextParent_of_parent {s : Chip} {a : Nat} {l r : List Nat} (h : a ∉ l) (hp : s.mesh.parents = l ++ a :: r) : s.nextParent a = r.head? := by
  rw [Chip.nextParent, hp]
  rw [if_pos (by simp), parentsAfter_append h]

theorem Chip.nextParent_of_before {s : Chip} {a : Nat} {l r : List Nat} (h : a ∉ l) (gone : a ∉ s.mesh.parents) (hb : s.mesh.before = l ++ a :: r) :
    s.nextParent a = r.find? (fun x => s.mesh.parents.contains x) := by
  rw [Chip.nextParent, hb]
  rw [if_neg (by simpa using gone), if_pos (by simp), parentsAfter_append h]

theorem Chip.nextParent_unknown {s : Chip} {a : Nat} (gone : a ∉ s.mesh.parents) (never : a ∉ s.mesh.before) : s.nextParent a = s.mesh.parents.head? := by
  rw [Chip.nextParent, if_neg (by simpa using gone), if_neg (by simpa using never)]

/-! ### An entry that came back with NO_ACK -/

/-- The run of failures of the peer that did not acknowledge. -/
def Chip.noAcked (u : Chip) (a : Nat) : Chip :=
  match u.meshPeer a with
  | none => u
  | some p => if 3 ≤ p.noAcks + 1 then u.dropParent a else u.setPeer { p with noAcks := p.noAcks + 1 }

theorem Chip.noAcked_eq {u v : Chip} {a : Nat} (h : u.meshPeer a = none ∧ v = u ∨ ∃ p, u.meshPeer a = some p ∧
    (p.noAcks + 1 < 3 ∧ v = u.setPeer { p with noAcks := p.noAcks + 1 } ∨ 3 ≤ p.noAcks + 1 ∧ v = u.dropParent a)) : u.noAcked a = v := by
  rcases h with ⟨none, rfl⟩ | ⟨p, hp, ⟨few, rfl⟩ | ⟨run, rfl⟩⟩
  · simp only [Chip.noAcked, none]
  · simp only [Chip.noAcked, hp]
    exact if_neg (by omega)
  · simp only [Chip.noAcked, hp]
    exact if_pos run

/-- What is done with an own frame that did not get through. -/
def Chip.noAckRule (f : List Byte) (m : MIn) (next : Option Nat) (v : Chip) : Chip :=
  match v.ownBody f m with
  | none => v
  | some b =>
    if m.nt = 1 then
      match next with
      | none => v.meshCount Rc.NO_PARENT
      | some p => v.meshPass { dst := p, ty := m.ty, pri := lhPri f = 1, nt := 1, hop := m.hop, orig := m.orig, jt := withJt m, body := b }
    else if m.nt = 2 then v.sendRouteErr Rc.NO_ACK m.fdst m.dst
    else v

theorem Chip.noAckReturn_none {s : Chip} {f : List Byte} (n : Nat) (h : meshParse f = none) : s.noAckReturn f n = s := by
  simp only [Chip.noAckReturn, h]

theorem Chip.noAckReturn_some {s u v : Chip} {f : List Byte} {n : Nat} {m : MIn} (hm : meshParse f = some m) (hu : u = s.missQ m.dst n)
    (hv : u.noAcked m.dst = v) : s.noAckReturn f n = Chip.noAckRule f m (u.nextParent m.dst) v := by
  subst hu hv
  simp only [Chip.noAckReturn, hm]
  rfl

theorem Chip.noAckRule_up {v : Chip} {f b : List Byte} {m : MIn} (next : Option Nat) (own : v.ownBody f m = some b) (up : m.nt = 1) :
    Chip.noAckRule f m next v = match next with
      | none => v.meshCount Rc.NO_PARENT
      | some p => v.meshPass { dst := p, ty := m.ty, pri := lhPri f = 1, nt := 1, hop := m.hop, orig := m.orig, jt := withJt m, body := b } := by
  cases next <;> simp only [Chip.noAckRule, own, if_pos up]

theorem Chip.noAckRule_down {v : Chip} {f b : List Byte} {m : MIn} (next : Option Nat) (own : v.ownBody f m = some b) (down : m.nt = 2) :
    Chip.noAckRule f m next v = v.sendRouteErr Rc.NO_ACK m.fdst m.dst := by
  have up : m.nt ≠ 1 := by omega
  simp only [Chip.noAckRule, own, if_neg up, if_pos down]

/-- Settles O50. -/
theorem meshRouting : Obligations.MeshRouting := by
  unfold Obligations.MeshRouting
  refine ⟨fun s u f lqi e b m s1 hm he hu => ⟨fun nt ver ty par => ?_, fun nt fine => ?_, fun nt => ?_, fun nt d hd => ?_⟩, fun s f lqi i hi => ⟨fun none => ?_, fun m code hm up down flood he => ?_⟩,
    fun s o a w n b => ⟨fun no => ?_, fun root lo hi hn bad => ?_, fun root lo hi hn n1 n4 len all ha free hw => ?_⟩,
    fun s a age hage => ⟨fun root lo hi valid old => ?_, fun no => ?_⟩, fun s d ty jt b may hmay => ⟨fun no => ?_, fun yes => ?_⟩,
    fun s fdst hop l hl => ⟨fun no => ?_, fun root lo hi none => ?_, fun a root lo hi one => ?_⟩, fun s u v f b n m hm hu hv own => ?_, fun s a p l r out => ⟨fun hp => ?_, fun hp => ?_, fun gone hb => ?_,
      Chip.nextParent_unknown⟩, fun s f n => ⟨fun none => ?_, fun no => ?_, fun yes => ?_⟩⟩
  · have answers {d : Chip} (h : Chip.upRule f m b u = d) : s.gives (.upFrameReceived f lqi) d :=
      Chip.gives_of (e := s.upReceived f lqi) ((s.upReceived_eq f lqi).trans ((Chip.onFrame_ok hm (by simp [nt]) he).trans (hu ▸ h))) fun _ => rfl
    exact answers (if_pos (by simp [ver, ty, par]))
  · have answers {d : Chip} (h : Chip.upRule f m b u = d) : s.gives (.upFrameReceived f lqi) d :=
      Chip.gives_of (e := s.upReceived f lqi) ((s.upReceived_eq f lqi).trans ((Chip.onFrame_ok hm (by simp [nt]) he).trans (hu ▸ h))) fun _ => rfl
    rw [Chip.upRule, if_neg (by rcases fine with h | h | h <;> simp [h])] at answers
    refine ⟨fun root => answers (if_pos root), fun out => answers ?_, fun router loop => answers ?_, fun router clear hop => answers ?_,
      fun router hop none => answers ?_, fun p l code v router clear hop hp sent => ?_⟩
    · rw [if_neg (by omega), if_pos out]
    · rw [if_neg (by omega), if_neg (by omega), if_pos loop]
    · rw [if_neg (by omega), if_neg (by omega), if_neg (by rw [clear]; simp), if_pos hop]
    · rw [if_neg (by omega), if_neg (by omega), if_neg (by simp [none]), if_neg hop, none]
    · obtain ⟨good, big⟩ := Chip.meshPass_up sent rfl
      rw [if_neg (by omega), if_neg (by omega), if_neg (by rw [clear]; simp), if_neg hop, hp] at answers
      exact ⟨fun h => answers (good h), fun h other => answers (big h other)⟩
  · have answers {d : Chip} (h : Chip.downRule f m b u = d) : s.gives (.downFrameReceived f lqi) d :=
      Chip.gives_of (e := s.downReceived f lqi) ((s.downReceived_eq f lqi).trans ((Chip.onFrame_ok hm (by simp [nt]) he).trans (hu ▸ h))) fun _ => rfl
    rw [Chip.downRule] at answers
    refine ⟨fun mine => answers (if_pos mine), fun other hop => answers ?_, fun other hop out => answers ?_, fun other hop router none => answers ?_,
      fun h r other hop role route => ?_⟩
    · rw [if_neg other, if_pos hop]
    · rw [if_neg other, if_neg hop, if_pos out]
    · rw [if_neg other, if_neg hop, if_neg (by omega), if_pos (by simp [router, none])]
    · have next : downHop m = (h, r) := by
        rcases route with h | ⟨h, rfl, rfl⟩ <;> simp only [downHop, h]
      have onward : ¬ (u.mesh.role = 1 && u.mesh.parents.isEmpty) = true := by
        rcases role with h | ⟨-, h⟩ <;> simp [h]
      rw [if_neg other, if_neg hop, if_neg (by omega), if_neg onward, next] at answers
      refine ⟨fun far => answers (if_pos (by simp [far])), fun near ver long => answers ?_, fun code v near short sent => ?_⟩
      · rw [if_neg (by simp [near]), if_pos (by simp [ver, long])]
      · obtain ⟨good, big⟩ := Chip.meshPass_down sent rfl
        rw [if_neg (by simp [near]), if_neg (by rcases short with h | h <;> simp [h])] at answers
        exact ⟨fun h => answers (good h), fun h => answers (big h)⟩
  · have answers {d : Chip} (h : Chip.floodRule f m b u = d) : s.gives (.floodReceived f lqi) d :=
      Chip.gives_of (e := s.floodReceived f lqi) ((s.floodReceived_eq f lqi).trans ((Chip.onFrame_ok hm (by simp [nt]) he).trans (hu ▸ h))) fun _ => rfl
    have ahead : u.floodAhead m = d := by
      rcases hd with ⟨h, rfl⟩ | ⟨x, h, rfl⟩ <;> simp only [Chip.floodAhead, h]
    rw [Chip.floodRule, ahead] at answers
    refine ⟨fun old => answers (if_pos ?_), fun v lo hi role hv => ?_⟩
    · rcases old with h | h | h <;> simp [h]
    · rw [if_neg (by simp only [Bool.or_eq_true, decide_eq_true_eq]; omega)] at answers
      simp only [← hv] at answers
      refine ⟨fun ends => answers (if_neg ?_), fun router hop some => answers (if_pos (by simp [router, hop, some]))⟩
      rcases ends with h | h | h <;> simp [h]
  · rcases hi with rfl | rfl | rfl
    · exact Chip.gives_of (e := s.upReceived f lqi) (Chip.onFrame_none none) fun _ => rfl
    · exact Chip.gives_of (e := s.downReceived f lqi) (Chip.onFrame_none none) fun _ => rfl
    · exact Chip.gives_of (e := s.floodReceived f lqi) (Chip.onFrame_none none) fun _ => rfl
  · rcases hi with rfl | rfl | rfl
    · exact Chip.gives_of (e := s.upReceived f lqi) (Chip.onFrame_error hm (by simp [up rfl]) he) fun _ => rfl
    · exact Chip.gives_of (e := s.downReceived f lqi) (Chip.onFrame_error hm (by simp [down rfl]) he) fun _ => rfl
    · exact Chip.gives_of (e := s.floodReceived f lqi) (Chip.onFrame_error hm (by simp [flood rfl]) he) fun _ => rfl
  · refine Chip.gives_of (e := s.advertReceived o b) (if_pos ?_) fun _ => rfl
    rcases no with h | h | h <;> simp [h]
  · exact Chip.gives_of (e := s.advertReceived o b) (Chip.advertReceived_stream root lo hi hn bad) fun _ => rfl
  · exact Chip.gives_of (e := s.advertReceived o b) (Chip.advertReceived_taken root lo hi hn n1 n4 len all ha free hw) fun _ => rfl
  · subst hage
    exact Chip.gives_of (e := s.routeExpiry a) (if_pos (by simp only [root, lo, hi, valid, old, decide_true, Bool.and_self])) fun _ => rfl
  · subst hage
    refine Chip.gives_of (e := s.routeExpiry a) (if_neg ?_) fun _ => rfl
    simp only [Bool.and_eq_true, decide_eq_true_eq]
    rintro ⟨⟨⟨⟨root, -⟩, -⟩, -⟩, old⟩
    rcases no with h | h
    · exact h root
    · omega
  · have answers {e : Chip} (h : s.rootSend d ty jt b = e) : s.gives (.rootSendDown d ty jt b) e := Chip.gives_of h fun _ => rfl
    rw [s.rootSend_eq, rootMay_eq, ← hmay] at answers
    rcases no with h | h
    · cases may
      · exact answers rfl
      · exact answers (if_pos h)
    · exact answers (if_neg (by simp [h]))
  · have answers {e : Chip} (h : s.sendDown d ty jt b = e) : s.gives (.rootSendDown d ty jt b) e :=
      Chip.gives_of (e := s.rootSend d ty jt b) ((if_pos ((rootMay_eq d ty jt).trans (hmay.symm.trans yes))).trans h) fun _ => rfl
    refine ⟨fun root one none => answers ?_, fun n root hn all => answers ?_, fun root one route => answers ?_, fun h r root one route ver long => answers ?_,
      fun h r root one route short => answers ?_⟩
    · rw [Chip.sendDown_root root one, Chip.routeTo_none none]
      rfl
    · subst hn
      rw [Chip.sendDown, if_neg (Classical.not_not.2 root), if_pos all]
    · rw [Chip.sendDown_root root one, route]
      rfl
    · rw [Chip.sendDown_root root one, route]
      exact if_pos (by simp [ver, long])
    · rw [Chip.sendDown_root root one, route]
      exact if_neg (by rcases short with h | h <;> simp [h])
  · refine Chip.gives_of (e := s.routeErrReceived fdst hop) (if_pos ?_) fun _ => rfl
    rcases no with h | h | h <;> simp [h]
  · exact Chip.gives_of (e := s.routeErrReceived fdst hop) ((Chip.routeErrReceived_root root lo hi hl).1 none) fun _ => rfl
  · exact Chip.gives_of (e := s.routeErrReceived fdst hop) ((Chip.routeErrReceived_root root lo hi hl).2 a one) fun _ => rfl
  · have answers {d : Chip} (h : Chip.noAckRule f m (u.nextParent m.dst) v = d) : s.gives (.meshNoAckReturn f n) d :=
      Chip.gives_of (e := s.noAckReturn f n) ((Chip.noAckReturn_some hm hu (Chip.noAcked_eq hv)).trans h) fun _ => rfl
    refine ⟨fun nt none => answers ?_, fun p code x nt some sent => ?_, fun nt => answers (Chip.noAckRule_down _ own nt)⟩
    · rw [Chip.noAckRule_up _ own nt, none]
    · obtain ⟨good, big⟩ := Chip.meshPass_up sent rfl
      rw [Chip.noAckRule_up _ own nt, some] at answers
      exact ⟨fun h => answers (good h), fun h other => answers (big h other)⟩
  · rw [Chip.nextParent_of_parent out hp]
    rfl
  · rw [Chip.nextParent_of_parent out hp]
    rfl
  · exact Chip.nextParent_of_before out gone hb
  · exact Chip.gives_of (e := s.noAckReturn f n) (Chip.noAckReturn_none n none) fun _ => rfl
  · exact Chip.gives_of (e := s.advertInterval) (if_neg (by simp [no])) fun _ => rfl
  · have minute : secs (60 * s.mesh.advint) = 1920000000 * s.mesh.advint := by rw [secs, ← Nat.mul_assoc]
    refine Chip.gives_of (e := s.advertInterval) ?_ fun _ => rfl
    rw [Chip.advertInterval, if_pos yes, minute]

end Sys2Proof.Machine
end

section
/-!
PROOFS. The machine right after its first power-up, and the command at the front of the queue.
-/
namespace Sys2Proof.Machine

/-- Settles O1: a step with a queue that is not empty is the command at its front, by definition of `step`. -/
theorem stepTakesTheFront : Obligations.StepTakesTheFront := fun i q s => step_cons i q s

/-- At reset no core is released. -/
theorem Chip.core_reset_held (c : Core) : (State.reset.chip.core c).run = .held := by cases c <;> rfl

/-- Settles O6: the stores are empty above their reset values, every core is held, and no rest entry is in progress. -/
theorem resetState : Obligations.ResetState := by
  have hwf : State.reset.chip.canonical = true := by decide +kernel
  have hrest : State.reset.chip.restInv :=
    ⟨fun h => absurd h (by decide), fun _ _ ⟨c, hc⟩ => absurd (Chip.core_reset_held c) hc⟩
  exact ⟨rfl, by decide +kernel, by decide +kernel, rfl, rfl, rfl, Chip.core_reset_held, hwf, hrest⟩

end Sys2Proof.Machine
end

section
/-!
PROOFS. Joining a mesh, and the neighbours' time-outs.
-/
namespace Sys2Proof.Machine

/-! ### Beacons -/

section
variable {s : Chip} {f : List Byte} {m : MIn} {i : BeaconInfo} {lo fine lqi : Nat}

theorem Chip.beaconReceived_none (h : meshParse f = none) : s.beaconReceived f lo fine lqi = s.meshCount Rc.STREAM := by
  simp only [Chip.beaconReceived, h]

/-- What a beacon that reads does, by its slotframe and by what the node is. -/
theorem Chip.beaconReceived_some (h : meshParse f = some m) (ht : m.ty = 2) (hi : readBeacon m.ver m.body = some i) :
    s.beaconReceived f lo fine lqi
      = if i.sfSize < 3 ∨ 4096 < i.sfSize then s.meshCount Rc.STREAM
        else if s.mesh.member then
          match s.meshAccept f m [i.eui] with
          | .error code => s.meshCount code
          | .ok (_, _, u) => (u.takeBeacon m i lqi).meshParents.planCheck
        else if !s.supports m.ver then s.meshCount Rc.VERSION
        else if bitOf i.flags 1 && bitOf i.flags 2 then
          if (s.takeBeacon m i lqi).mesh.sfSize = 0 && ((s.takeBeacon m i lqi).meshPeer m.src).isSome then
            (s.takeBeacon m i lqi).meshSync lo fine m.src i
          else s.takeBeacon m i lqi
        else s := by
  simp only [Chip.beaconReceived, h, if_pos ht, hi] <;> rfl

/-- The sender of a first beacon is recorded with the beacon's LQI as its Q. -/
theorem Chip.takeBeacon_first {v lo' hi' : Nat} {w : Chip} (range : (lo', hi') = if m.ver = 1 then (1, 1) else (i.vmin, i.vmax))
    (h : s.takeOffer m.src lo' hi' = (some v, w)) (new : w.meshPeer m.src = none) :
    s.takeBeacon m i lqi = w.setPeer { addr := m.src, eui := i.eui, vmin := lo', vmax := hi', rank := i.rank, hops := i.hops, q := lqi,
                                       beacons := decide (i.rank ≠ 0xFFFF), beaconAt := w.now, flags := i.flags, planId := i.planId } := by
  simp only [Chip.takeBeacon, ← range, h, new]
  rfl

theorem Chip.meshPeer_setPeer (s : Chip) (p : MeshPeer) : (s.setPeer p).meshPeer p.addr = some p := by
  simp [Chip.meshPeer, Chip.setPeer]

end

/-! ### The joiner -/

theorem Chip.sendRequest_nil {s : Chip} {j : MeshJoin} (h : j.cands = []) :
    s.sendRequest j = (s.setMesh { s.mesh with join := none, collectAt := some (s.now + s.beaconPeriods 2), joinAt := none }).listenCells true := by
  simp only [Chip.sendRequest, h]

theorem Chip.joinTimeout_some {s : Chip} {j : MeshJoin} (h : s.mesh.join = some j) :
    s.joinTimeout = if j.tries < 5 then s.sendRequest j else s.sendRequest { cands := j.cands.tail, tries := 0, nonce := 0 } := by
  simp only [Chip.joinTimeout, Chip.nextCandidate, h]

/-- What a DELIVER in the joiner's hands does, once `linkQ` has sampled the link. -/
theorem Chip.deliverReceived_some {s : Chip} {f : MeshRx} {m : MIn} {j : MeshJoin} {key : List Nat} (hm : meshParse f.octets = some m)
    (hj : s.mesh.join = some j) (hk : s.meshKey 2 true = .ok key) {x : Chip} (hx : s.linkQ m f.lqi = x) {b : List Byte} (hb : b = m.body) (h3 : m.ty = 3) (h4 : m.jt = 4)
    (len : b.length = 64) (own : beNat (b.take 8) = x.ownEui) (out : x.mesh.member = false) (sup : x.supports m.ver = true) :
    s.deliverReceived f
      = match meshOpen key false 1 (beNat ((b.drop 8).take 8)) (leNat ((b.drop 16).take 4)) (b.take 20) ((b.drop 20).take 36) (b.drop 56) with
        | none => x
        | some p =>
          if leNat (p.drop 32) ≠ j.nonce then x
          else if octAt p 0 ≠ Rc.OK then x.nextCandidate
          else (x.unwrapInto (x.meshSlot 2) (x.meshSlot (octAt p 3 % 2)) ((p.drop 4).take 24)
            (.join (j.cands.headD 0) (oct2 p 1) (octAt p 3 % 2) (oct2 p 28) (oct2 p 30))).2 := by
  subst hb
  simp only [Chip.deliverReceived, hm, hj, hk, hx]
  rw [if_neg (by simp [h3, h4, len, own, out]), if_neg (by simp [sup])] <;> rfl

theorem Chip.unwrapInto_ok {s : Chip} {key tslot : Nat} {kw : List Byte} {k k' : List Nat} (job : MeshKeyJob) (may : s.meshSlots 7 true key tslot = Rc.OK)
    (hk : s.keyOf key = some k) (hu : Aes.unwrap k (toNats kw) = some k') :
    s.unwrapInto key tslot kw job = (true, Chip.kstQueue ((s.setCph { s.cph with starts := s.cph.starts + 1 }).setMesh { s.mesh with keyJob := some job })
      { page := meshPage, slot := tslot, key := k', order := s.cph.starts }) := by
  rw [Chip.unwrapInto, if_neg (Classical.not_not.2 may), hk, Option.getD_some, hu]

/-! ### The parents and the root -/

theorem Chip.requestReceived_some {s : Chip} {f : List Byte} {lqi : Nat} {m : MIn} (h : meshParse f = some m) (h3 : m.ty = 3) (h1 : m.jt = 1) :
    s.requestReceived f lqi
      = if s.mesh.role = 0 || !s.mesh.joined && s.mesh.role ≠ 2 then s
        else if 256 ≤ s.mesh.children.length && s.mesh.role = 1 then s.meshCount Rc.CHILD_FULL
        else if !s.supports m.ver then s.meshCount Rc.VERSION
        else if s.mesh.role = 2 then s.rootJoin 0 f
        else (s.setMesh { s.mesh with joiners := (m.eui, m.ver) :: s.mesh.joiners.filter (fun e => e.1 ≠ m.eui) }).meshUp 3 (some 2)
          (leOctets 1 lqi ++ leOctets 2 f.length ++ f) := by
  simp only [Chip.requestReceived, h, h3, h1, ne_eq, not_true_eq_false, decide_false, Bool.false_or]

theorem Chip.joinDecision_refused {s : Chip} (eui : Nat) {role : Nat} (req : Nat) (h : s.mesh.joinOpen = false ∨ bitOf s.mesh.refuse role = true) :
    s.joinDecision eui role req = (Rc.JOIN_REFUSED, 0) := by
  rw [Chip.joinDecision]
  exact if_pos (by simpa using h)

/-- The root's answer to a request for an address. -/
theorem Chip.joinDecision_asked {s : Chip} (eui : Nat) {role req : Nat} (isOpen : s.mesh.joinOpen = true) (may : bitOf s.mesh.refuse role = false) (asks : req ≠ 0xFFFF) :
    s.joinDecision eui role req
      = if 1 ≤ req && req ≤ (if s.asTk2416 then 0x0FFF else 0x3FFF)
          && ((s.addrList.find? (fun e => e.1 = req)).map Prod.snd = none || (s.addrList.find? (fun e => e.1 = req)).map Prod.snd = some eui)
        then (Rc.OK, req) else (Rc.ADDR_CONFLICT, 0) := by
  rw [Chip.joinDecision]
  exact (if_neg (by simp [isOpen, may])).trans (if_pos asks)

/-- Nobody else holds an address, as the list of those given says. -/
theorem holder_free {l : List (Nat × Nat)} {a eui : Nat} (h : ∀ e ∈ l, e.1 = a → e.2 = eui) :
    (l.find? (fun e => e.1 = a)).map Prod.snd = none ∨ (l.find? (fun e => e.1 = a)).map Prod.snd = some eui := by
  cases he : l.find? (fun e => e.1 = a) with
  | none => exact .inl rfl
  | some e => exact .inr (congrArg some (h e (List.mem_of_find?_eq_some he) (by simpa using List.find?_some he)))

/-- What a RESPONSE makes of the joiner that asked last. -/
theorem Chip.responseReceived_head {s : Chip} {b : List Byte} {c : MeshChild} {ver : Nat} (role : s.mesh.role = 1) (len : 16 ≤ b.length) (room : s.mesh.children.length < 256)
    (new : s.mesh.children.any (fun c => c.eui = beNat (b.take 8)) = false) (last : s.mesh.joiners.head? = some (beNat (b.take 8), ver))
    (hc : c = { addr := 0xFFFE, eui := beNat (b.take 8), vmin := ver, vmax := ver, heard := s.now }) :
    s.responseReceived b = (s.setMesh { s.mesh with children := s.mesh.children ++ [c] }).sendDeliver ver b := by
  have found : s.mesh.joiners.find? (fun e => e.1 = beNat (b.take 8)) = some (beNat (b.take 8), ver) := by
    obtain ⟨l, hl⟩ := List.head?_eq_some_iff.1 last
    simp [hl]
  have added : s.addJoiner (beNat (b.take 8)) ver ver = s.setMesh { s.mesh with children := s.mesh.children ++ [c] } := by
    rw [hc]
    exact if_neg (by rw [new]; simpa [role] using room)
  rw [Chip.responseReceived, if_neg (by simpa [role] using len)]
  simp only [found, Option.map_some, Option.getD_some, added]

/-- What a HELLO does once it is accepted with a body of its length. -/
theorem Chip.helloReceived_ok {s : Chip} {f : List Byte} {lqi : Nat} {m : MIn} {e : Nat} {b : List Byte} {u : Chip} (h : meshParse f = some m) (h6 : m.ty = 6)
    (acc : s.meshAccept f m ((s.euiOf m.src).toList ++ (s.mesh.peers.map MeshPeer.eui ++ s.mesh.children.map MeshChild.eui ++ s.addrList.map Prod.snd)
      ++ [Config.meshEui m.src % 2 ^ 64]) = .ok (e, b, u)) :
    (b.length ≠ 13 → s.helloReceived f lqi = u.meshCount Rc.STREAM)
    ∧ (∀ w, b.length = 13 → u.takeOffer m.src (octAt b 0) (octAt b 1) = (none, w) → s.helloReceived f lqi = w)
    ∧ ∀ v w, b.length = 13 → u.takeOffer m.src (octAt b 0) (octAt b 1) = (some v, w) → w.meshPeer m.src = none → (w.heard m lqi).mesh.role = 2 →
      s.helloReceived f lqi = Chip.meshSchedule (((w.heard m lqi).setMesh { (w.heard m lqi).mesh with
        children := (w.heard m lqi).mesh.children.filter (fun y => y.eui ≠ e && y.addr ≠ m.src)
          ++ [{ addr := m.src, eui := e, vmin := octAt b 0, vmax := octAt b 1, heard := (w.heard m lqi).now }] }).addNbr none m.src v) := by
  refine ⟨fun len => ?_, fun w len off => ?_, fun v w len off new root => ?_⟩
  · simp only [Chip.helloReceived, h, if_neg (Classical.not_not.2 h6), acc]
    exact if_pos len
  · simp only [Chip.helloReceived, h, if_neg (Classical.not_not.2 h6), acc, if_neg (Classical.not_not.2 len), off]
  · simp only [Chip.helloReceived, h, if_neg (Classical.not_not.2 h6), acc, if_neg (Classical.not_not.2 len), off, new, root]
    rfl

/-! ### Time-outs -/

theorem Chip.meshChild_isSome {s : Chip} {a : Nat} : (s.meshChild a).isSome = true ↔ ∃ c ∈ s.mesh.children, c.addr = a := by
  simp [Chip.meshChild]

theorem Chip.childTimeout_eq (s : Chip) (a : Nat) {u : Chip}
    (hu : u = s.setMesh { s.mesh with children := s.mesh.children.filter (fun c => !(c.addr = a && c.heard + 32000000 * (180 * s.mesh.advint) < s.now)) }) :
    s.childTimeout a = if u.mesh.parents.contains a || (u.meshChild a).isSome then u else (u.dropNbr a).meshSchedule := by
  have silent (c : MeshChild) : s.childSilent c = decide (c.heard + 32000000 * (180 * s.mesh.advint) < s.now) := by
    rw [Chip.childSilent, secs, Nat.mul_comm 32000000]
  simp only [Chip.childTimeout, silent, ← hu]

/-- Settles O51, each clause by the equation of its command. -/
theorem meshJoining : Obligations.MeshJoining := by
  refine ⟨fun s f lo fine lqi => ⟨fun none => ?_, fun m i lo' hi' p hm ht hi range hp => ?_⟩,
    fun s l hl => ⟨?_, ?_, ?_⟩, fun s j => ⟨?_, ?_, ?_, Chip.sendRequest_nil⟩, fun s f lqi => ⟨fun none => ?_, fun m hm h3 h1 hk => ?_⟩,
    fun s parent b => ⟨fun no => ?_, fun root len all => ?_⟩, fun s eui role req => ⟨Chip.joinDecision_refused eui req, fun isOpen may asks => ?_⟩,
    fun s b => ⟨fun no => ?_, fun c ver role len room new last hc => ?_⟩,
    fun s f => ⟨fun no => ?_, fun x m j key b o hm hj hk hx hb h3 h4 len own out lo hi ho => ?_⟩, fun s key tslot kw k k' job => Chip.unwrapInto_ok job,
    fun s f lqi => ⟨fun none => ?_, fun m e v b u w x l c hm h6 acc => ?_⟩, fun s u a hu => ?_⟩
  · exact Chip.gives_of (e := s.beaconReceived f lo fine lqi) (Chip.beaconReceived_none none) fun _ => rfl
  · have answers {d : Chip} (h : s.beaconReceived f lo fine lqi = d) : s.gives (.beaconReceived f lo fine lqi) d := Chip.gives_of h fun _ => rfl
    rw [Chip.beaconReceived_some hm ht hi] at answers
    refine ⟨fun size => answers (if_pos size), fun size₁ size₂ => ?_⟩
    rw [if_neg (by omega)] at answers
    refine ⟨fun code member err => answers ?_, fun e v b u w member acc off now new => answers ?_, fun out ver => answers ?_, fun out ver₁ ver₂ => ?_⟩
    · rw [if_pos member, err]
    · rw [if_pos member, acc]
      simp only [Chip.takeBeacon_first range off new, hp, now]
    · rw [if_neg (by simp [out]), if_pos (by simp only [Chip.supports]; simp; omega)]
    · rw [if_neg (by simp [out]), if_neg (by simp [Chip.supports, ver₁, ver₂])] at answers
      refine ⟨fun closed => answers (if_neg (by rcases closed with h | h <;> simp [h])), fun v w isOpen room off now new fresh => answers ?_⟩
      have taken : s.takeBeacon m i lqi = w.setPeer p := by rw [Chip.takeBeacon_first range off new, hp, now]
      have mine : ((w.setPeer p).meshPeer m.src).isSome = true := by
        rw [show m.src = p.addr by rw [hp], Chip.meshPeer_setPeer]
        rfl
      rw [if_pos (by simp [isOpen, room]), taken]
      exact if_pos (by rw [mine]; simpa [Chip.setPeer] using fresh)
  · intro no
    refine Chip.gives_of (e := s.collectEnd) ?_ fun _ => rfl
    rw [Chip.collectEnd]
    by_cases root : s.mesh.role = 2
    · exact if_pos root
    · obtain ⟨member, l⟩ := no.resolve_left root
      rw [if_neg root, if_pos member, if_neg (by simpa using l)]
  · intro root member none
    refine Chip.gives_of (e := s.collectEnd) ?_ fun _ => rfl
    rw [Chip.collectEnd, if_neg root, if_pos member, if_pos (by simp [none])]
  · intro out root
    refine Chip.gives_of (e := s.collectEnd) ?_ fun _ => rfl
    rw [Chip.collectEnd, if_neg root, if_neg (by simp [out]), hl]
  · intro none
    exact Chip.gives_of (e := s.joinTimeout) (by simp only [Chip.joinTimeout, none]) fun _ => rfl
  · intro some few
    exact Chip.gives_of (e := s.joinTimeout) ((Chip.joinTimeout_some some).trans (if_pos few)) fun _ => rfl
  · intro some all
    exact Chip.gives_of (e := s.joinTimeout) ((Chip.joinTimeout_some some).trans (if_neg (by omega))) fun _ => rfl
  · exact Chip.gives_of (e := s.requestReceived f lqi) (by simp only [Chip.requestReceived, none]) fun _ => rfl
  · have answers {d : Chip} (h : s.requestReceived f lqi = d) : s.gives (.joinRequestReceived f lqi) d := Chip.gives_of h fun _ => rfl
    rw [Chip.requestReceived_some hm h3 h1] at answers
    refine ⟨fun no => answers (if_pos ?_), fun router joined full => answers ?_, fun router joined room ver => answers ?_,
      fun router joined room lo hi l hl => answers ?_, fun root lo hi => answers ?_⟩
    · rcases no with h | ⟨h, j⟩ <;> simp [*]
    · rw [if_neg (by simp [router, joined]), if_pos (by simp [router, full])]
    · rw [if_neg (by simp [router, joined]), if_neg (by simp [Nat.not_le.2 room]), if_pos (by simp only [Chip.supports]; simp; omega)]
    · rw [if_neg (by simp [router, joined]), if_neg (by simp [Nat.not_le.2 room]), if_neg (by simp [Chip.supports, lo, hi]), if_neg (by simp [router]), hl]
    · rw [if_neg (by simp [root]), if_neg (by simp [root]), if_neg (by simp [Chip.supports, lo, hi]), if_pos root]
  · refine Chip.gives_of (e := s.relayReceived parent b) (if_pos ?_) fun _ => rfl
    rcases no with h | h | h <;> simp [h]
  · exact Chip.gives_of (e := s.relayReceived parent b) (if_neg (by simp [root, ← all, len])) fun _ => rfl
  · rw [Chip.joinDecision_asked eui isOpen may asks]
    refine ⟨fun lo hi free => if_pos ?_, fun bad => if_neg ?_⟩
    · simpa [lo, hi] using holder_free free
    · rcases bad with h | h
      · simp [h]
      · simp [Nat.not_le.2 h]
  · refine Chip.gives_of (e := s.responseReceived b) (if_pos ?_) fun _ => rfl
    rcases no with h | h <;> simp [h]
  · exact Chip.gives_of (e := s.responseReceived b) (Chip.responseReceived_head role len room new last hc) fun _ => rfl
  · refine Chip.gives_of (e := s.deliverReceived f) ?_ fun _ => rfl
    rcases no with h | h
    · simp only [Chip.deliverReceived, h]
    · simp only [Chip.deliverReceived, h]
      cases meshParse f.octets <;> rfl
  · have hq : s.linkQ m f.lqi = x := by simp [Chip.linkQ, h3, hx]
    have answers {d : Chip} (h : s.deliverReceived f = d) : s.gives (.joinDeliverReceived f) d := Chip.gives_of h fun _ => rfl
    rw [Chip.deliverReceived_some hm hj hk hq hb h3 h4 len own out (by simp [Chip.supports, lo, hi]), ← ho] at answers
    refine ⟨fun none => answers (by rw [none]), fun p some => ?_⟩
    rw [some] at answers
    refine ⟨fun old => answers (if_pos old), fun own no hj' => answers ?_, fun u own yes hu => answers ?_⟩
    · simp only [if_neg (Classical.not_not.2 own), if_pos no, Chip.nextCandidate, hj']
    · simp only [if_neg (Classical.not_not.2 own), if_neg (Classical.not_not.2 yes), hu]
  · exact Chip.gives_of (e := s.helloReceived f lqi) (by simp only [Chip.helloReceived, none]) fun _ => rfl
  · have answers {d : Chip} (h : s.helloReceived f lqi = d) : s.gives (.helloReceived f lqi) d := Chip.gives_of h fun _ => rfl
    obtain ⟨short, refused, taken⟩ := Chip.helloReceived_ok hm h6 acc
    refine ⟨fun len => answers (short len), fun len off => answers (refused w len off), fun len off new hx root hl hc => answers ?_⟩
    subst hx hl hc
    exact taken v w len off new root
  · have answers {d : Chip} (h : s.childTimeout a = d) : s.gives (.childTimeout a) d := Chip.gives_of h fun _ => rfl
    rw [Chip.childTimeout_eq s a hu] at answers
    have same : u.mesh.parents = s.mesh.parents := by rw [hu]; rfl
    refine ⟨fun keep => answers (if_pos ?_), fun par none => answers (if_neg ?_), fun none => ?_, fun p some => ?_⟩
    · rw [same, Bool.or_eq_true, Chip.meshChild_isSome]
      exact keep
    · rw [same, Bool.or_eq_true, Chip.meshChild_isSome, par]
      simpa using none
    · exact Chip.gives_of (e := s.dropParent a) (by simp only [Chip.dropParent, none]) fun _ => rfl
    · exact Chip.gives_of (e := s.dropParent a) (by simp only [Chip.dropParent, some]) fun _ => rfl

end Sys2Proof.Machine
end

section
/-!
PROOFS. Commands to the mesh layer.
-/
namespace Sys2Proof.Machine

/-! ### Commands of the root -/

/-- What the check of a command's sender answers. -/
theorem Chip.cmdCheck_eq (s : Chip) (w : CmdFrom) :
    s.cmdCheck w = if s.mesh.joined = false then Rc.NOT_JOINED else if w.orig ≠ 0 then Rc.SECURITY else Rc.OK := by
  simp only [Chip.cmdCheck, Bool.not_eq_true']

section
variable {s : Chip} {w : CmdFrom}

theorem Chip.rootCmd_refused (cid token : Nat) (g : Chip → Nat × List Byte × Chip) (h : s.cmdCheck w ≠ Rc.OK) :
    s.rootCmd w cid token g = s.meshReply w cid token (s.cmdCheck w) [] := if_pos h

theorem Chip.rootCmd_ok (cid token : Nat) (g : Chip → Nat × List Byte × Chip) (h : s.cmdCheck w = Rc.OK) :
    s.rootCmd w cid token g = (g s).2.2.meshReply w cid token (g s).1 (g s).2.1 := if_neg (Classical.not_not.2 h)

/-- KEY_NEXT of the root at a node that has joined. -/
theorem Chip.cmdKeyNext_ok (token e : Nat) (kw : List Byte) (h : s.cmdCheck w = Rc.OK) :
    s.cmdKeyNext w token e kw
      = if s.mesh.switch.isSome then s.meshReply w 4 token Rc.BUSY []
        else if kw.length ≠ 24 || e ≠ 1 - s.mesh.epoch then s.meshReply w 4 token Rc.KEY_SLOT []
        else
          let r := s.unwrapInto (s.meshSlot s.mesh.epoch) (s.meshSlot (1 - s.mesh.epoch)) kw (.keyNext w token (1 - s.mesh.epoch))
          if r.1 then r.2 else r.2.meshReply w 4 token Rc.KEY_SLOT [] := by
  rw [Chip.cmdKeyNext]
  refine (if_neg (Classical.not_not.2 h)).trans ?_
  obtain ⟨done, u⟩ := s.unwrapInto (s.meshSlot s.mesh.epoch) (s.meshSlot (1 - s.mesh.epoch)) kw (.keyNext w token (1 - s.mesh.epoch))
  cases done <;> rfl

end

/-! ### A node that becomes a joiner -/

/-- The neighbour table's first words are cleared, those of `l`. -/
def Chip.clearNbrs (s : Chip) (l : List Nat) : Chip := l.foldl (fun c n => c.setReg (R.LNK_NBR_0 n) 0) s

theorem Chip.clearNbrs_cons (s : Chip) (n : Nat) (l : List Nat) : s.clearNbrs (n :: l) = (s.setReg (R.LNK_NBR_0 n) 0).clearNbrs l := rfl

theorem Chip.clearNbrs_mesh (s : Chip) (l : List Nat) : (s.clearNbrs l).mesh = s.mesh ∧ (s.clearNbrs l).lnk = s.lnk := by
  induction l generalizing s with
  | nil => exact ⟨rfl, rfl⟩
  | cons n l ih => exact ih (s.setReg (R.LNK_NBR_0 n) 0)

theorem Chip.clearNbrs_reg_ne (s : Chip) {l : List Nat} {a : Nat} (h : ∀ n ∈ l, a ≠ R.LNK_NBR_0 n) : (s.clearNbrs l).reg a = s.reg a := by
  induction l generalizing s with
  | nil => rfl
  | cons n l ih =>
    rw [Chip.clearNbrs_cons, ih _ fun k hk => h k (List.mem_cons_of_mem _ hk), Chip.reg_setReg_ne _ _ (h n List.mem_cons_self)]

theorem Chip.clearNbrs_reg (s : Chip) {l : List Nat} {n : Nat} (h : n ∈ l) : (s.clearNbrs l).reg (R.LNK_NBR_0 n) = 0 := by
  induction l generalizing s with
  | nil => cases h
  | cons k l ih =>
    rw [Chip.clearNbrs_cons]
    by_cases hl : n ∈ l
    · exact ih _ hl
    · obtain rfl : n = k := (List.mem_cons.1 h).resolve_right hl
      rw [Chip.clearNbrs_reg_ne, Chip.reg_setReg_self]
      intro j hj e
      rw [R.LNK_NBR_0, R.LNK_NBR_0] at e
      exact hl (by rwa [show n = j by omega])

/-- What a joiner keeps of the mesh layer's state. -/
def Mesh.asJoiner (m : Mesh) : Mesh :=
  { m with member := false, joined := false, joinedAt := none, leaving := false, left := [true, true], switch := none, peers := [], parents := [], before := [], rank := 0xFFFF, hops := 0,
           children := [], join := none, joiners := [], syncSrc := none, collectAt := none, joinAt := none, advertAt := none,
           orphanAt := none, beaconFor := none, planNew := none, sfSize := 0, replay := [], held := [], heldJoin := [], fseqLast := none }

/-- The registers of a joiner, with EN as it was. -/
def Chip.joinerRegs (s : Chip) : Chip := ((s.clearNbrs (List.range 64)).setFld F.LNK_SADDR_SADDR 0).setFld F.LNK_CFG_BCONLY 1

theorem Chip.becomeJoiner_eq (s : Chip) : s.becomeJoiner = (s.joinerRegs.setMesh s.joinerRegs.mesh.asJoiner).offJob .listen := rfl

theorem Chip.joinerRegs_reg_ne (s : Chip) {a : Nat} (hc : a ≠ R.LNK_CFG) (hs : a ≠ R.LNK_SADDR) : s.joinerRegs.reg a = (s.clearNbrs (List.range 64)).reg a := by
  rw [Chip.joinerRegs, Chip.reg_setFld_ne _ _ _ hc, Chip.reg_setFld_ne _ _ _ hs]

theorem Chip.joinerRegs_en (s : Chip) : s.joinerRegs.bit F.LNK_CTL_EN = s.bit F.LNK_CTL_EN := by
  have same : s.joinerRegs.reg R.LNK_CTL = s.reg R.LNK_CTL := by
    rw [Chip.joinerRegs_reg_ne _ (by decide) (by decide)]
    refine Chip.clearNbrs_reg_ne _ fun n _ => ?_
    rw [R.LNK_NBR_0, R.LNK_CTL]
    omega
  rw [Chip.bit, Chip.fld, show F.LNK_CTL_EN.addr = R.LNK_CTL from rfl, same]
  rfl

/-- Badger's SLOTW ends: of the state only that core changes. -/
theorem Chip.slotwOff_regs (s : Chip) : s.slotwOff.regs = s.regs ∧ s.slotwOff.mesh = s.mesh ∧ s.slotwOff.lnk = s.lnk := by
  rw [Chip.slotwOff]
  split <;> exact ⟨rfl, rfl, rfl⟩

/-- A job for the engine off, given while it is on and runs: the job waits, EN reads 0, and nothing else of the registers
and of the mesh layer changes. -/
theorem Chip.offJob_on {s : Chip} (j : MeshOff) (en : s.bit F.LNK_CTL_EN = true) (run : s.lnk.running = true) :
    (s.offJob j).regs = (s.setBit F.LNK_CTL_EN false).regs ∧ (s.offJob j).mesh = { s.mesh with offJobs := s.mesh.offJobs ++ [j] } := by
  have off : (s.setMesh { s.mesh with offJobs := s.mesh.offJobs ++ [j] }).lnkDisable.lnk = s.lnk
      ∧ (s.setMesh { s.mesh with offJobs := s.mesh.offJobs ++ [j] }).lnkDisable.regs = (s.setBit F.LNK_CTL_EN false).regs
      ∧ (s.setMesh { s.mesh with offJobs := s.mesh.offJobs ++ [j] }).lnkDisable.mesh = { s.mesh with offJobs := s.mesh.offJobs ++ [j] } := by
    obtain ⟨hr, hm, hl⟩ := ((s.setMesh { s.mesh with offJobs := s.mesh.offJobs ++ [j] }).setBit F.LNK_CTL_EN false).slotwOff_regs
    have on : (s.setMesh { s.mesh with offJobs := s.mesh.offJobs ++ [j] }).bit F.LNK_CTL_EN = true := en
    rw [Chip.lnkDisable, if_neg (by simp [on])]
    exact ⟨hl, hr, hm⟩
  obtain ⟨hl, hr, hm⟩ := off
  rw [Chip.offJob, Chip.offRun, if_pos (by rw [hl, run]; simp)]
  exact ⟨hr, hm⟩

theorem Chip.joinerRegs_mesh (s : Chip) : s.joinerRegs.mesh = s.mesh ∧ s.joinerRegs.lnk = s.lnk := by
  rw [Chip.joinerRegs, Chip.setFld_mesh, Chip.setFld_mesh, Chip.setFld_lnk, Chip.setFld_lnk]
  exact s.clearNbrs_mesh _

theorem Chip.becomeJoiner_on {s : Chip} (en : s.bit F.LNK_CTL_EN = true) (run : s.lnk.running = true) :
    s.becomeJoiner.regs = (s.joinerRegs.setBit F.LNK_CTL_EN false).regs
    ∧ s.becomeJoiner.mesh = { s.mesh.asJoiner with offJobs := s.mesh.offJobs ++ [.listen] } := by
  rw [Chip.becomeJoiner_eq]
  have en' := s.joinerRegs_en.trans en
  obtain ⟨hm, hl⟩ := s.joinerRegs_mesh
  rw [← hl] at run
  rw [← hm]
  generalize s.joinerRegs = t at en' run ⊢
  exact Chip.offJob_on (s := t.setMesh t.mesh.asJoiner) .listen en' run

/-! ### The obligation -/

/-- Settles O52, each clause by the equation of its command. -/
theorem meshCommands : Obligations.MeshCommands := by
  refine ⟨fun s w token e asn kw code hcode => ?_, fun s w cid token code d b hb => ?_, fun s leaving held returns heads => ?_, fun s w token page => ?_, fun s => ?_,
    fun s orig loc cid token => ?_, fun s u en run hu => ?_, fun s w token epoch code m => ?_, fun s b => ?_⟩
  · rw [← s.cmdCheck_eq w] at hcode
    subst hcode
    refine ⟨fun no => ⟨?_, ?_, ?_, ?_, ?_⟩, fun ok => ⟨?_, fun d hd => ?_, fun busy => ?_, fun done u idle he len hu => ?_, fun idle bad => ?_, fun past => ?_, fun ahead => ?_, fun u hu => ?_⟩⟩
    · exact Chip.gives_of (e := s.cmdPing w token) (Chip.rootCmd_refused 1 token _ no) fun _ => rfl
    · exact Chip.gives_of (e := s.cmdGetInfo w token) (Chip.rootCmd_refused 2 token _ no) fun _ => rfl
    · exact Chip.gives_of (e := s.cmdKeyNext w token e kw) (if_pos no) fun _ => rfl
    · refine Chip.gives_of (e := s.cmdLeave w token) ?_ fun _ => rfl
      exact (if_neg no).trans (Chip.rootCmd_refused 6 token _ no)
    · exact Chip.gives_of (e := s.cmdKeySwitch ⟨w, token⟩ e asn) (if_pos no) fun _ => rfl
    · exact Chip.gives_of (e := s.cmdPing w token) (Chip.rootCmd_ok 1 token _ ok) fun _ => rfl
    · subst hd
      exact Chip.gives_of (e := s.cmdGetInfo w token) (Chip.rootCmd_ok 2 token _ ok) fun _ => rfl
    · exact Chip.gives_of (e := s.cmdKeyNext w token e kw) ((Chip.cmdKeyNext_ok token e kw ok).trans (if_pos busy)) fun _ => rfl
    · subst he
      refine Chip.gives_of (e := s.cmdKeyNext w token (1 - s.mesh.epoch) kw) ((Chip.cmdKeyNext_ok token _ kw ok).trans ?_) fun _ => rfl
      rw [if_neg (by simp [idle]), if_neg (by simp [len]), hu]
    · refine Chip.gives_of (e := s.cmdKeyNext w token e kw) ((Chip.cmdKeyNext_ok token e kw ok).trans ?_) fun _ => rfl
      rw [if_neg (by simp [idle]), if_pos (by simpa using bad.symm)]
    · exact Chip.gives_of (e := s.cmdKeySwitch ⟨w, token⟩ e asn) ((if_neg (Classical.not_not.2 ok)).trans (if_pos past)) fun _ => rfl
    · exact Chip.gives_of (e := s.cmdKeySwitch ⟨w, token⟩ e asn) ((if_neg (Classical.not_not.2 ok)).trans (if_neg (by omega))) fun _ => rfl
    · subst hu
      refine Chip.gives_of (e := s.cmdLeave w token) ((if_pos ok).trans ?_) fun _ => rfl
      rw [Chip.rootCmd_ok 6 token _ ok]
  · subst hb
    rw [Chip.meshReply]
    refine ⟨fun loc => if_pos loc, fun loc root => (if_neg (by simp [loc])).trans (if_pos root), fun loc root => (if_neg (by simp [loc])).trans (if_neg root)⟩
  · refine if_pos ?_
    simp [leaving, held, returns, txOrder, heads]
  · have answers {d : Chip} (h : s.cmdGetPlan w token page = d) : s.gives (.getPlan w token page) d := Chip.gives_of h fun _ => rfl
    rw [Chip.cmdGetPlan] at answers
    refine ⟨fun out => answers (if_pos (by simp [out])), fun inn past => answers ?_, fun inn here => answers ?_⟩
    · rw [if_neg (by simp [inn]), if_pos past]
    · rw [if_neg (by simp [inn]), if_neg (by omega)]
  · have answers {d : Chip} (h : s.keySwitchReached = d) : s.gives .keySwitchAsnReached d := Chip.gives_of h fun _ => rfl
    refine ⟨fun none => answers ?_, fun e asn some => answers ?_⟩
    · simp only [Chip.keySwitchReached, none]
    · simp only [Chip.keySwitchReached, some, Chip.switchEpoch]
  · have answers {d : Chip} (h : s.cmdUnknown orig loc cid token = d) : s.gives (.unknownCmd orig loc cid token) d := Chip.gives_of h fun _ => rfl
    rw [Chip.cmdUnknown] at answers
    refine ⟨fun lo hi => answers (if_pos (by simp [lo, hi])), fun undef inn => answers ?_, fun undef out => answers ?_⟩
    · rw [if_neg (by simp; omega), inn]
      rfl
    · rw [if_neg (by simp; omega), out]
      rfl
  · subst hu
    obtain ⟨hr, hm⟩ := Chip.becomeJoiner_on en run
    have reg (a : Nat) (h : a ≠ R.LNK_CTL) : s.becomeJoiner.reg a = s.joinerRegs.reg a :=
      (congrArg (Cells.get regReset · a) hr).trans (Chip.reg_setFld_ne _ _ _ h)
    have bcOnly : s.becomeJoiner.bit F.LNK_CFG_BCONLY = true := by
      have := Chip.fld_setFld_self ((s.clearNbrs (List.range 64)).setFld F.LNK_SADDR_SADDR 0) F.LNK_CFG_BCONLY 1 (by decide) (by decide)
      rw [Chip.bit, Chip.fld, reg _ (by decide)]
      exact (congrArg (· != 0) this).trans (by decide)
    have saddr : s.becomeJoiner.saddr = 0 := by
      have := Chip.fld_setFld_self (s.clearNbrs (List.range 64)) F.LNK_SADDR_SADDR 0 (by decide) (by decide)
      rw [Chip.saddr, Chip.fld, reg _ (by decide), Chip.joinerRegs, Chip.reg_setFld_ne _ _ _ (by decide)]
      exact this
    have off : s.becomeJoiner.bit F.LNK_CTL_EN = false := by
      rw [Chip.bit, Chip.fld, Chip.reg, hr]
      exact Chip.bit_setBit_self s.joinerRegs F.LNK_CTL_EN false rfl (by decide)
    have nbrs (n : Nat) (h : n < 64) : s.becomeJoiner.nbrValid n = false := by
      have word : s.becomeJoiner.reg (R.LNK_NBR_0 n) = 0 := by
        rw [reg _ (by rw [R.LNK_NBR_0, R.LNK_CTL]; omega), Chip.joinerRegs_reg_ne _ (by rw [R.LNK_NBR_0, R.LNK_CFG]; omega)
          (by rw [R.LNK_NBR_0, R.LNK_SADDR]; omega)]
        exact Chip.clearNbrs_reg s (List.mem_range.2 h)
      rw [Chip.nbrValid, word]
      simp [bitOf]
    rw [hm]
    exact ⟨rfl, rfl, rfl, rfl, rfl, rfl, rfl, bcOnly, saddr, off, nbrs⟩
  · refine ⟨fun no => if_pos no, fun hm => ?_⟩
    subst hm
    exact if_neg (Classical.not_not.2 rfl)
  · have answers {d : Chip} (h : s.tapApply b = d) : s.gives (.tapRecordApply b) d := Chip.gives_of h fun _ => rfl
    have sound : credOk b = false ↔ leNat ((b.drop 1).take 3) = 0 ∨ octAt b 9 = 1 ∧ octAt b 10 = 1 ∧ bits (octAt b 8) 7 6 = 2 := by
      rw [credOk]
      simp [Decidable.imp_iff_not_or, and_assoc]
    refine ⟨fun pinned => answers (if_pos pinned), fun may bad => answers ?_, fun may len ver cred vers => ⟨fun done u hu => answers ?_, fun m u w v hm hu hv hw => ?_⟩⟩
    · rw [← sound] at bad
      rw [Chip.tapApply, if_neg (by simp [may]), if_pos bad]
    · have good : ¬(b.length ≠ 39 ∨ octAt b 0 ≠ 1 ∨ credOk b = false) := by
        rw [sound]
        grind
      rw [Chip.tapApply, if_neg (by simp [may]), if_neg good, hu]
      cases done <;> rfl
    · subst hm hu hv hw
      rfl

end Sys2Proof.Machine
end

section
/-!
PROOFS. The cipher engine and the key store.
-/
namespace Sys2Proof.Machine

/-! ### Pages -/

/-- A read of another user's page reads 0 and is counted. -/
theorem Chip.foreignAccess_foreign {s : Chip} {ag : Agent} {u : Nat} (off : Nat) (hu : u < 4) (no : ownsPage ag u = false) :
    s.foreignAccess ag u off = { s.pageForeign with rdata := 0 } := by
  have lo : R.CPH_UCMD 0 ≤ R.CPH_UCMD u + off % 16 ∧ R.CPH_UCMD u + off % 16 < R.CPH_UCMD 4 := by simp only [R.CPH_UCMD]; omega
  have page : (R.CPH_UCMD u + off % 16 - R.CPH_UCMD 0) / 0x100 = u := by simp only [R.CPH_UCMD]; omega
  rw [Chip.foreignAccess, if_neg (by simp [no]), Chip.regReadN, s.ofIdx_lt _ hu, s.regRead_cph ag _ (by simp only [R.CPH_UCMD]; omega) (by simp only [R.CPH_UCMD]; omega),
    Chip.readCph, if_pos lo, page, if_neg (by simp [no])]

/-- A write to the GO register of a page, by its owner or another. -/
theorem Chip.cphPageWrite_go (s : Chip) (ag : Agent) (u : Nat) (rom : Bool) :
    s.cphPageWrite ag u 8 1#36 rom = if ownsPage ag u then s.cphGo u rom else s.pageForeign := by
  have b1 : bitOf 1 1 = false := by decide
  have b0 : bitOf 1 0 = true := by decide
  cases h : ownsPage ag u <;> simp [Chip.cphPageWrite, h, b0, b1]

theorem Chip.cphPageWrite_abort (s : Chip) (ag : Agent) (u : Nat) (rom : Bool) :
    s.cphPageWrite ag u 8 2#36 rom = if ownsPage ag u then s.cphAbort u else s.pageForeign := by
  have b1 : bitOf 2 1 = true := by decide
  have b0 : bitOf 2 0 = false := by decide
  cases h : ownsPage ag u <;> simp [Chip.cphPageWrite, h, b0, b1]

theorem Chip.cphAbort_idle {s : Chip} {u : Nat} (h : s.pageState u = 0) : s.cphAbort u = s := if_pos (by simp [h])

/-- ABORT of an operation while the key store has no record in hand. -/
theorem Chip.cphAbort_noRec {s : Chip} {u : Nat} (work : s.pageState u ≠ 0) (none : s.cph.recs = [])
    (more : s.pageState u = 1 ∨ 1 ≤ (s.page u).setup ∨ 1 ≤ (s.page u).left) :
    s.cphAbort u = if s.cph.cur = some u then s.setPage u { s.page u with aborting := true } else s.pageAborted u := by
  rw [Chip.cphAbort]
  simp only [none, Bool.false_and, Bool.or_false]
  refine if_neg ?_
  simp only [Bool.or_eq_true, Bool.and_eq_true, decide_eq_true_eq]
  rintro (h | ⟨⟨⟨h2, -⟩, hs⟩, hl⟩)
  · exact work h
  · omega

theorem Chip.pageAborted_noRec {s : Chip} {u : Nat} (none : s.cph.recs = []) (other : s.cph.cur ≠ some u) :
    s.pageAborted u = ((((s.cphZero (s.cphCmd u)).cphPost u 0x76).kstServe.cphRelease).cphSafe) := by
  have same : (s.leaveBlock u).setCph { (s.leaveBlock u).cph with recs := s.cph.recs.filter (fun r => r.page ≠ u) } = s := by
    rw [Chip.leaveBlock, if_neg other, none, List.filter_nil, ← none]
    rfl
  rw [Chip.pageAborted, same]

/-- No page has work: ABORT of every page changes nothing. -/
theorem Chip.abortAll_idle {s : Chip} {l : List Nat} (h : ∀ u ∈ l, s.pageState u = 0) : l.foldl Chip.cphAbort s = s := by
  induction l with
  | nil => rfl
  | cons u l ih => rw [List.foldl_cons, Chip.cphAbort_idle (h u List.mem_cons_self), ih fun v hv => h v (List.mem_cons_of_mem _ hv)]

/-- A disabled engine stops where no page has work. -/
theorem Chip.cphSafe_of_idle {s : Chip} (h : ∀ u < 4, s.pageState u = 0) : s.cphSafe = s.blockStopped .cph :=
  if_neg (by simpa using h)

theorem Chip.cphSafe_of_work {s : Chip} (h : ∃ u < 4, s.pageState u ≠ 0) : s.cphSafe = s := if_pos (by simpa using h)

/-! ### The end of an operation -/

/-- What the end of an operation's block work does, by what the fault check found and by the mode. -/
theorem Chip.pageDone_working {s v : Chip} {u : Nat} {c : CphCmd} {o : CphOut} (fault : Bool) (hu : u < 4) (run : s.pageState u = 2) (busy : (s.page u).busy = true)
    (hc : c = s.cphCmd u)
    (hv : v = ((s.leaveBlock u).setPage u { s.page u with busy := false, setup := 0, left := 0 }).setFld (F.CPH_UPROG_BLOCKS u) c.blocks)
    (ho : o = v.cphCompute c (s.page u).key (s.page u).target) :
    s.pageDone u fault
      = if fault then (Chip.cphPost (Chip.occ ((v.cphZero c).count F.CPH_STAT_FAULTCNT) 29) u 0x70).kstServe.cphRelease
        else if c.mode = 8 then (v.kstQueue { page := u, slot := c.tslot, key := [], order := (s.page u).order }).cphRelease
        else if c.mode = 7 then
          match Aes.unwrap (s.page u).key (v.octets c.src c.len) with
          | none => ((v.cphPost u 0x73).kstServe).cphRelease
          | some k => (v.kstQueue { page := u, slot := c.tslot, key := k, order := (s.page u).order }).cphRelease
        else if c.dec && (3 ≤ c.mode && c.mode ≤ 5) && v.octets c.tag c.tagLen ≠ o.tag then ((v.putOctets c.outArea.1 (Aes.zeros c.outArea.2)).cphPost u 0x71).cphRelease
        else
          let x := match o.chain with
            | some l => (v.putOctets c.outArea.1 o.out).putOctets c.iv l
            | none => v.putOctets c.outArea.1 o.out
          ((if c.dec then x else x.putOctets c.tag o.tag).cphPost u Rc.OK).cphRelease := by
  subst hc hv ho
  rw [Chip.pageDone, if_neg (by rw [run, busy]; simp; omega)] <;> rfl

/-- Settles O53, each clause by the equation of its command. -/
theorem cipherAndKeys : Obligations.CipherAndKeys := by
  refine ⟨fun s ag => ?_, fun s ag u off hu => ?_, fun s v u c o => ?_, fun s => ?_, fun s ag => ?_, fun s ag n new v hn hnew => ?_⟩
  · have answers {d : Chip} (ag : Agent) (h : s.cphEnable ag = d) : s.gives (.cphEnable ag) d := Chip.gives_of h fun q => exec_cphEnable ⟨q, s⟩ ag
    have self : ¬(Agent.foxA ≠ .foxA) := Classical.not_not.2 rfl
    refine ⟨fun other => ⟨answers ag (if_pos other), if_pos other⟩, fun on => answers _ ?_, fun off small => answers _ ?_, fun u off big hu => answers _ ?_, fun off => ?_,
      fun u on idle hu idle' => ?_⟩
    · exact (if_neg self).trans (if_pos on)
    · exact (if_neg self).trans ((if_neg (by simp [off])).trans (if_pos small))
    · subst hu
      exact (if_neg self).trans ((if_neg (by simp [off])).trans (if_neg (by omega)))
    · exact (if_neg self).trans (if_pos (by simp [off]))
    · subst hu
      rw [Chip.cphDisable, if_neg self, if_neg (by simp [on]), Chip.abortAll_idle fun p hp => idle p (List.mem_range.1 hp)]
      exact Chip.cphSafe_of_idle idle'
  · have go {d : Chip} (h : s.cphPageWrite ag u 8 1#36 (s.agentRom ag) = d) : s.gives (.cphGo ag u) d := Chip.gives_of h fun q => exec_cphGo ⟨q, s⟩ ag u hu
    have abort {d : Chip} (h : s.cphPageWrite ag u 8 2#36 (s.agentRom ag) = d) : s.gives (.cphAbort ag u) d := Chip.gives_of h fun q => exec_cphAbort ⟨q, s⟩ ag u hu
    have foreign {d : Chip} (h : s.foreignAccess ag u off = d) : s.gives (.cipherPageForeign ag u off) d := Chip.gives_of h fun _ => rfl
    rw [Chip.cphPageWrite_go] at go
    rw [Chip.cphPageWrite_abort] at abort
    refine ⟨fun no => ⟨go (if_neg (by simp [no])), abort (if_neg (by simp [no])), foreign (Chip.foreignAccess_foreign off hu no)⟩, fun own => foreign (if_pos own),
      fun own code hcode => ?_, fun own => ?_⟩
    · rw [if_pos own, Chip.cphGo, ← hcode] at go
      refine ⟨fun busy => ?_, fun on idle bad => ?_, fun no => go (if_pos no), fun ok x p hp hx hst => go ?_⟩
      · rw [hcode, Chip.goCheck]
        exact if_pos (by simpa using busy)
      · rw [hcode, Chip.goCheck]
        exact (if_neg (by simp [on, idle])).trans (if_pos (by simpa using bad))
      · subst hx hp
        exact if_neg (Classical.not_not.2 ok)
    · rw [if_pos own] at abort
      refine ⟨fun idle => abort (Chip.cphAbort_idle idle), fun work none cur more => abort ?_, fun work none cur more => abort ?_⟩
      · rw [Chip.cphAbort_noRec work none (.inr (.inr more)), if_pos cur]
      · rw [Chip.cphAbort_noRec work none more, if_neg cur, Chip.pageAborted_noRec none cur]
  · have answers {d : Chip} (fault : Bool) (h : (s.pageDone u fault).cphSafe = d) : s.gives (.cipherOpDone u fault) d :=
      Chip.gives_of (e := s.cipherOpDone u fault) h fun _ => rfl
    refine ⟨fun no => ?_, fun hu run busy hc hv ho => ?_⟩
    · have none (fault : Bool) : s.pageDone u fault = s := by
        rw [Chip.pageDone]
        exact if_pos (by simpa using no)
      exact ⟨answers _ (by rw [none]), answers _ (by rw [none])⟩
    · have done (fault : Bool) := Chip.pageDone_working fault hu run busy hc hv ho
      refine ⟨answers _ (by rw [done]; rfl), fun lo hi dec bad => answers _ ?_, fun hi dec good chain => answers _ ?_, fun x hi enc hx => answers _ ?_,
        fun h7 bad => answers _ ?_, fun k h7 good => answers _ ?_, fun h8 => answers _ ?_⟩
      · rw [done, if_neg (by simp), if_neg (by omega), if_neg (by omega), if_pos (by simp [lo, hi, dec, bad])]
      · rw [done, if_neg (by simp), if_neg (by omega), if_neg (by omega), if_neg]
        · simp only [chain, dec, if_true]
        · simp only [Bool.and_eq_true, decide_eq_true_eq]
          rintro ⟨⟨-, lo, -⟩, bad⟩
          exact good.elim (fun h => by omega) bad
      · rw [done, if_neg (by simp), if_neg (by omega), if_neg (by omega), if_neg (by simp [enc])]
        rcases hx with ⟨hn, hx⟩ | ⟨l, hl, hx⟩
        · simp only [enc, hn, hx, Bool.false_eq_true, if_false]
        · simp only [enc, hl, hx, Bool.false_eq_true, if_false]
      · rw [done, if_neg (by simp), if_neg (by omega), if_pos h7, bad]
      · rw [done, if_neg (by simp), if_neg (by omega), if_pos h7, good]
      · rw [done, if_neg (by simp), if_pos h8]
  · exact ⟨Chip.cphSafe_of_work, Chip.cphSafe_of_idle⟩
  · exact fun q => exec_cphStatRead ⟨q, s⟩ ag
  · have answers {d : Chip} (h : s.kstAttrWrite ag n v = d) : s.gives (.kstAttrWrite ag n v) d := Chip.gives_of h fun q => exec_kstAttrWrite ⟨q, s⟩ ag n v hn
    rw [Chip.kstAttrWrite, if_neg (by omega), ← hnew] at answers
    refine ⟨fun zero => answers ?_, fun nz locked => answers (if_pos (by simp [nz, locked])), fun nz free => ⟨fun bad => answers ?_, fun own user clears => answers ?_⟩⟩
    · rw [if_neg (by simp [zero]), if_pos (.inl zero)]
    · rw [if_neg (by simp [free]), if_pos (.inr (by simpa using bad))]
    · rw [if_neg (by simp [free]), if_neg (by simp [nz, own, user, clears])]

end Sys2Proof.Machine
end

section
/-!
PROOFS. The contactless tag.
-/
namespace Sys2Proof.Machine

/-! ### Blocks of an answer -/

/-- The blocks of a list are its items in order, where there are blocks enough. -/
theorem flatten_blocksOf {α : Type} {n k : Nat} {l : List α} (h : l.length ≤ k * n) : (blocksOf n k l).flatten = l := by
  induction k generalizing l with
  | zero =>
    rw [Nat.zero_mul, Nat.le_zero, List.length_eq_zero_iff] at h
    simp [blocksOf, h]
  | succ k ih =>
    cases l with
    | nil => simp [blocksOf]
    | cons a l =>
      rw [blocksOf, if_neg (by simp), List.flatten_cons, ih, List.take_append_drop]
      rw [Nat.succ_mul] at h
      rw [List.length_drop]
      omega

theorem le_ceilDiv_mul (a : Nat) {b : Nat} (h : 0 < b) : a ≤ ceilDiv a b * b := by
  have := Nat.div_add_mod (a + b - 1) b
  have := Nat.mod_lt (a + b - 1) h
  rw [ceilDiv, Nat.mul_comm]
  omega

/-- I-blocks without their PCB are what they carry. -/
theorem flatMap_drop_pcb (g : Nat → Nat) (p : List (List Byte)) (j : Nat) :
    ((p.zipIdx j).map fun x => leOctets 1 (g x.2) ++ x.1).flatMap (List.drop 1) = p.flatten := by
  induction p generalizing j with
  | nil => rfl
  | cons a p ih =>
    rw [List.zipIdx_cons, List.map_cons, List.flatMap_cons, ih, List.flatten_cons]
    simp [leOctets]

theorem bitOf_pcb (v : Nat) (l : List Byte) : bitOf (octAt (leOctets 1 v ++ l) 0) 0 = v.testBit 0 := by
  simp [octAt, leOctets, bitOf]

/-- The PCB of block `i` of `k`. -/
def pcbOf (k : Nat) (blk : Bool) (i : Nat) : Nat := 2 + 16 * (i + 1 < k : Bool).toNat + (blk ^^ (i % 2 = 0 : Bool)).toNat

theorem iBlocks_eq (n : Nat) (blk : Bool) (l : List Byte) :
    iBlocks n blk l = ((blocksOf n (max 1 (ceilDiv l.length n)) l).zipIdx).map fun x =>
      leOctets 1 (pcbOf (blocksOf n (max 1 (ceilDiv l.length n)) l).length blk x.2) ++ x.1 := rfl

theorem iBlocks_short {n : Nat} (blk : Bool) {l : List Byte} (some : 0 < l.length) (fits : l.length ≤ n) :
    iBlocks n blk l = [leOctets 1 (0x02 + (!blk).toNat) ++ l] := by
  have one : ceilDiv l.length n = 1 := by
    rw [ceilDiv, Nat.div_eq_of_lt_le] <;> omega
  have ne : l ≠ [] := by
    rintro rfl
    simp at some
  simp [iBlocks_eq, pcbOf, one, blocksOf, ne, List.take_of_length_le fits]

theorem iBlocks_long {n : Nat} (blk : Bool) {l : List Byte} (pos : 0 < n) (long : n < l.length) :
    ∃ r : List (List Byte), iBlocks n blk l = (leOctets 1 (0x12 + (!blk).toNat) ++ l.take n) :: r ∧ r ≠ [] ∧ r.flatMap (List.drop 1) = l.drop n := by
  have two : 2 ≤ ceilDiv l.length n := by
    rw [ceilDiv, Nat.le_div_iff_mul_le pos]
    omega
  obtain ⟨m, hm⟩ : ∃ m, max 1 (ceilDiv l.length n) = m + 2 := ⟨ceilDiv l.length n - 2, by omega⟩
  have all : l.length ≤ (m + 2) * n := Nat.le_trans (le_ceilDiv_mul l.length pos) (Nat.mul_le_mul_right n (by omega))
  have rest : (blocksOf n (m + 1) (l.drop n)).flatten = l.drop n := by
    refine flatten_blocksOf ?_
    rw [Nat.add_mul] at all ⊢
    rw [List.length_drop]
    omega
  have left : l.drop n ≠ [] := by simpa using long
  have more : blocksOf n (m + 1) (l.drop n) ≠ [] := by simp [blocksOf, left]
  have first : blocksOf n (m + 2) l = l.take n :: blocksOf n (m + 1) (l.drop n) := if_neg (by
    rw [List.isEmpty_iff]
    rintro rfl
    simp at long)
  generalize blocksOf n (m + 1) (l.drop n) = p at rest more first
  obtain ⟨q, t, rfl⟩ := List.exists_cons_of_ne_nil more
  rw [iBlocks_eq, hm, first, List.zipIdx_cons, List.map_cons]
  refine ⟨_, ?_, ?_, (flatMap_drop_pcb (pcbOf (l.take n :: q :: t).length blk) (q :: t) 1).trans rest⟩
  · simp [pcbOf]
  · simp

theorem Chip.tagApdu_short {s : Chip} {data l : List Byte} {sw n : Nat} (hl : l = data ++ beOctets 2 sw) (hn : n = s.nfc.fsd - 3) (fits : l.length ≤ n) :
    s.tagApdu data sw = (s.setNfc { s.nfc with blk := !s.nfc.blk, chain := [] }).tagReply (leOctets 1 (0x02 + (!s.nfc.blk).toNat) ++ l) := by
  have some : 0 < l.length := by rw [hl]; simp [beOctets, leOctets]
  rw [Chip.tagApdu, ← hl, ← hn, iBlocks_short _ some fits, Chip.tagBlocks, bitOf_pcb]
  cases s.nfc.blk <;> rfl

theorem Chip.tagApdu_long {s : Chip} {data l : List Byte} {sw n : Nat} (hl : l = data ++ beOctets 2 sw) (hn : n = s.nfc.fsd - 3) (pos : 0 < n) (long : n < l.length) :
    ∃ r : List (List Byte), r ≠ [] ∧ (r.flatMap (List.drop 1) = l.drop n)
      ∧ s.tagApdu data sw = (s.setNfc { s.nfc with blk := !s.nfc.blk, chain := r }).tagReply (leOctets 1 (0x12 + (!s.nfc.blk).toNat) ++ l.take n) := by
  obtain ⟨r, hr, more, rest⟩ := iBlocks_long s.nfc.blk pos long
  refine ⟨r, more, rest, ?_⟩
  rw [Chip.tagApdu, ← hl, ← hn, hr, Chip.tagBlocks, bitOf_pcb]
  cases s.nfc.blk <;> rfl

/-! ### Fields -/

theorem Nfc.harvest_self {n : Nfc} (h : n.harvest = true) : { n with harvest := true, raw := true } = { n with raw := true } := by
  rw [← h]

/-- In harvest mode, with no operation of the flash, the field's end leaves the harvest path at its start. -/
theorem Chip.fieldCollapse_idle {s : Chip} (b : Bool) (h : s.nfc.harvest = true) (boots : s.nfc.booting = false) (idle : s.flc.op = none) :
    s.fieldCollapse b = (s.setFlc { s.flc with op := none, pulsing := false, pulseAt := none, busyA := false, busyB := false }).setNfc { harvest := true } := by
  rw [Chip.fieldCollapse, if_neg (by simp [h]), if_neg (by simp [boots])]
  simp only [idle]

theorem Chip.detectField_new {s : Chip} (mine : s.bit F.NFC_STAT_FIELDON = false) (ping : s.nfc.rd.ph ≠ .ping) (out : s.bit F.NFC_STAT_EXTFLD = false) (raw : s.nfc.raw = true) :
    s.detectField = Chip.tagField (Chip.wakeEvent (Chip.occ ((s.setBit F.NFC_STAT_EXTFLD true).setLatch { s.pins.latch with fdet := true }) 73) 7 12) := by
  rw [Chip.detectField]
  simp only [mine, ping, out, raw, Bool.false_eq_true, decide_false, Bool.or_false, if_false, if_true]

/-! ### Activation -/

/-- A tag that stands at a cascade level heeds it. -/
theorem Chip.tagHeeds_self {s : Chip} {cl : Nat} (on : s.tagOn = true) (h : s.nfc.tag = .ready cl) : s.tagHeeds cl = true := by
  simp [Chip.tagHeeds, on, h]

theorem Chip.setTag_self {s : Chip} {t : TagSt} (h : s.nfc.tag = t) : s.setTag t = s := by
  subst h
  rfl

/-! ### APDUs -/

/-- An APDU reaches a tag that is activated and free. -/
theorem Chip.onApdu_free {s : Chip} (cla ins : Nat) (f : Chip → Chip) (on : s.tagOn = true) (act : s.nfc.tag = .iso4) (free : s.nfc.mbox = none) :
    s.onApdu cla ins f = match apduUnknown s.nfc.harvest cla ins with
      | some sw => s.tagApdu [] sw
      | none => f s := by
  rw [Chip.onApdu, if_pos (by simp [on, act, free])] <;> rfl

section
variable {s : Chip}

theorem Chip.selectName_free (aid : List Byte) (on : s.tagOn = true) (act : s.nfc.tag = .iso4) (free : s.nfc.mbox = none) :
    s.selectName aid = if !s.nfc.harvest && aid = ndefAid && s.fld F.NFC_NDEF_SIZEW ≠ 0 then (s.setNfc { s.nfc with app := true, file := .none }).tagApdu [] 0x9000
      else s.tagApdu [] 0x6A82 := by
  rw [Chip.selectName, Chip.onApdu_free _ _ _ on act free]
  rfl

/-- SELECT by file identifier. -/
theorem Chip.selectFile_free (c : FileSelect) (on : s.tagOn = true) (act : s.nfc.tag = .iso4) (free : s.nfc.mbox = none) :
    (∀ sw, apduUnknown s.nfc.harvest c.cla c.ins = some sw → s.selectFile c = s.tagApdu [] sw)
    ∧ (apduUnknown s.nfc.harvest c.cla c.ins = none →
      s.selectFile c = if !s.nfc.harvest && s.nfc.app && (c.fid = 0xE103 || c.fid = 0xE104) then
          (s.setNfc { s.nfc with file := if c.fid = 0xE103 then .cc else .ndef }).tagApdu [] 0x9000
        else s.tagApdu [] 0x6A82) := by
  rw [Chip.selectFile, Chip.onApdu_free _ _ _ on act free]
  exact ⟨fun sw h => by rw [h], fun h => by rw [h]⟩

theorem Chip.readBinary_harvest (off len : Nat) (on : s.tagOn = true) (act : s.nfc.tag = .iso4) (free : s.nfc.mbox = none) (h : s.nfc.harvest = true) :
    s.readBinary off len = s.tagApdu [] 0x6D00 := by
  rw [Chip.readBinary, Chip.onApdu_free _ _ _ on act free, h]
  rfl

theorem Chip.updateBinary_harvest (off : Nat) (data : List Byte) (on : s.tagOn = true) (act : s.nfc.tag = .iso4) (free : s.nfc.mbox = none) (h : s.nfc.harvest = true) :
    s.updateBinary off data = s.tagApdu [] 0x6D00 := by
  rw [Chip.updateBinary, Chip.onApdu_free _ _ _ on act free, h]
  rfl

theorem Chip.readBinary_file (off len : Nat) {f : List Byte} (on : s.tagOn = true) (act : s.nfc.tag = .iso4) (free : s.nfc.mbox = none) (h : s.nfc.harvest = false)
    (file : s.tagFile = some f) :
    s.readBinary off len = s.tagApdu (if binaryStatus false f.length off len = 0x9000 then (f.drop off).take len else []) (binaryStatus false f.length off len) := by
  rw [Chip.readBinary, Chip.onApdu_free _ _ _ on act free, h]
  simp only [apduUnknown, file]
  rfl

/-- What UPDATE BINARY does with a file selected. -/
theorem Chip.updateBinary_file (off : Nat) (data : List Byte) (on : s.tagOn = true) (act : s.nfc.tag = .iso4) (free : s.nfc.mbox = none) (h : s.nfc.harvest = false)
    {ro : Bool} {sw : Nat} (file : s.nfc.file ≠ .none) (hro : (s.nfc.file = .cc || !s.bit F.NFC_NDEF_WRITE) = ro) (hsw : sw = binaryStatus ro s.ndefSize off data.length) :
    (sw ≠ 0x9000 → s.updateBinary off data = s.tagApdu [] sw)
    ∧ (sw = 0x9000 → 1 < off → s.updateBinary off data = (s.wrBs (s.ndefBase + off) data).tagApdu [] sw) := by
  have does : s.updateBinary off data
      = if sw ≠ 0x9000 then s.tagApdu [] sw
        else
          let s1 := s.wrBs (s.ndefBase + off) data
          let nlen := beNat (s1.rdBs s1.ndefBase 2)
          let s2 := if nlen ≠ 0 && off ≤ 1 && data.length ≠ 0 then s1.nfcEntryNow 3 Rc.OK 0 nlen [] else s1
          s2.tagApdu [] sw := by
    rw [Chip.updateBinary, Chip.onApdu_free _ _ _ on act free, h, hsw, ← hro]
    cases e : s.nfc.file with
    | none => exact absurd e file
    | cc => simp only [apduUnknown]; rfl
    | ndef => simp only [apduUnknown]; rfl
  rw [does]
  refine ⟨fun no => if_pos no, fun ok inside => (if_neg (Classical.not_not.2 ok)).trans ?_⟩
  have late : ¬off ≤ 1 := by omega
  simp only [late, decide_false, Bool.and_false, Bool.false_and, Bool.false_eq_true, if_false]

/-- MAILBOX WRITE, by the first check that fails. -/
theorem Chip.mailboxWrite_free (q : Nat) (data : List Byte) (l : List Nat) (on : s.tagOn = true) (act : s.nfc.tag = .iso4) (free : s.nfc.mbox = none) {u : Chip}
    (hu : u = s.setFld F.NFC_FIELD_VNFC (l.headD 0)) :
    s.mailboxWrite q data l
      = if data.length < 2 ∨ 53 < data.length then u.tagApdu [] 0x6700
        else if octAt data 0 = 0 ∨ octAt data 0 = 0xFF then u.tagApdu [] 0x6F05
        else if l.headD 0 < 260 then u.tagApdu [] 0x6F11
        else if (u.mboxFind (octAt data 0) q).isSome then (if u.nfc.harvest then u else (u.setFld F.NFC_MBOX_LASTSEQ q).occ 77).tagApdu [] 0x9000
        else
          match (List.range 256).find? u.mboxErased with
          | none => u.tagApdu [] 0x6F7C
          | some slot =>
            let b := mboxBody (octAt data 0) (q % 65536) (data.drop 1)
            let (p, u1) := if u.nfc.harvest then ({}, u) else u.stamp u.now
            u1.mboxStep { slot := slot, next := 0, words := b ++ [W (mboxChk b), mboxCommit], levels := l.tail, rtype := octAt data 0, seq := q % 65536, stamp := p,
                          wtxAt := if u.nfc.harvest then none else some (u.now + tWtx) } := by
  subst hu
  rw [Chip.mailboxWrite, Chip.onApdu_free _ _ _ on act free] <;> rfl

end

/-- Settles O54, each clause by the equation of its command. -/
theorem theTag : Obligations.TheTag := by
  refine ⟨fun s u v st hu => ?_, fun s u v h hu => ?_, fun s x u v h hx hu => ?_, fun s b h => ⟨?_, ?_, ?_⟩, fun s b h boots => ?_, fun s h mbox => ?_, fun s b h boots idle u hu => ?_,
    fun s => Chip.detectField_new, fun s w on => ?_, fun s => ?_, fun s o => ?_, fun s data l sw n hl hn => ⟨Chip.tagApdu_short hl hn, Chip.tagApdu_long hl hn⟩, fun s on act free => ?_⟩
  · subst hu
    refine Chip.gives_of (e := s.fieldDetect true v) ?_ fun _ => rfl
    rw [Chip.fieldDetect, if_neg (by simp), if_neg st]
  · subst hu
    refine Chip.gives_of (e := s.fieldDetect false v) ?_ fun _ => rfl
    rw [Chip.fieldDetect, if_pos Bool.not_false, if_pos h]
    simp only [Nfc.harvest_self h]
  · subst hu hx
    refine Chip.gives_of (e := s.fieldDetect false v) ?_ fun _ => rfl
    rw [Chip.fieldDetect, if_pos Bool.not_false, if_neg (by simp [h])]
  · exact Chip.gives_of (e := s.fieldLost) (if_neg (by simp [h])) fun _ => rfl
  · exact Chip.gives_of (e := s.fieldCollapse b) (if_pos (by simp [h])) fun _ => rfl
  · exact Chip.gives_of (e := s.vaonUp) (if_pos (by simp [h])) fun _ => rfl
  · exact Chip.gives_of (e := s.fieldCollapse b) ((if_neg (by simp [h])).trans (if_pos boots)) fun _ => rfl
  · exact Chip.gives_of (e := s.vaonUp) ((if_neg (by simp [h])).trans (if_pos mbox)) fun _ => rfl
  · subst hu
    refine ⟨Chip.gives_of (e := s.fieldCollapse b) (Chip.fieldCollapse_idle b h boots idle) fun _ => rfl,
      Chip.gives_of (e := s.fieldLost) ((if_pos h).trans (Chip.fieldCollapse_idle true h boots idle)) fun _ => rfl, fun none => ?_⟩
    exact Chip.gives_of (e := s.vaonUp) ((if_neg (by simp [h])).trans (if_neg (by simp [none]))) fun _ => rfl
  · have reqa (w : Bool) {d : Chip} (h : s.tagReqa w = d) : s.gives (.tagReqa w) d := Chip.gives_of h fun _ => rfl
    have hlta {d : Chip} (h : s.tagHlta = d) : s.gives .tagHlta d := Chip.gives_of h fun _ => rfl
    have rats {d : Chip} (h : s.tagRats = d) : s.gives .tagRats d := Chip.gives_of h fun _ => rfl
    have wtx {d : Chip} (h : s.tagWtx = d) : s.gives .tagWtxDue d := Chip.gives_of h fun _ => rfl
    refine ⟨fun strong st => reqa w ?_, fun halt => reqa false ?_, fun busy => reqa w ?_, fun cl n known uid ready => ?_, fun active => ⟨hlta ?_, rats ?_⟩,
      fun out => rats (if_neg (by simp [out])), fun iso => ⟨?_, fun m hm => ⟨fun due => wtx ?_, fun early => wtx ?_⟩, fun none => wtx ?_⟩⟩
    · rw [Chip.tagReqa]
      refine (if_neg (by rcases strong with h | h <;> simp [on, h])).trans ?_
      rcases st with h | ⟨h, rfl⟩
      · simp only [h]
      · simp only [h, if_true]
    · simp [Chip.tagReqa, halt]
    · rcases busy with h | h | h <;> simp [Chip.tagReqa, h]
    · have heeds := Chip.tagHeeds_self on ready
      have anti {d : Chip} (h : s.tagAnti cl n known = d) : s.gives (.tagAnticollision cl n known) d := Chip.gives_of h fun _ => rfl
      have select (uid : List Byte) {d : Chip} (h : s.tagSelect cl uid = d) : s.gives (.tagSelect cl uid) d := Chip.gives_of h fun _ => rfl
      refine ⟨fun some same => anti ?_, fun other => anti (if_neg (by simp [other])), fun other => select _ (if_neg (by simp [other])), fun more => select _ ?_, fun last => select _ ?_,
        hlta ?_⟩
      · rw [Chip.tagAnti, if_pos (by simp [heeds, some, same]), Chip.setTag_self ready]
      · exact (if_pos (by simp [heeds])).trans (if_pos more)
      · exact (if_pos (by simp [heeds])).trans (if_neg (by omega))
      · simp only [Chip.tagHlta, ready]
    · simp only [Chip.tagHlta, active]
    · exact if_pos (by simp [on, active])
    · exact Chip.gives_of (e := s.tagDeselect) (if_pos (by simp [on, iso])) fun _ => rfl
    · simp only [Chip.tagWtx, hm]
      exact if_pos (by simp [on, iso, due])
    · simp only [Chip.tagWtx, hm]
      exact if_neg (by simp [early])
    · simp only [Chip.tagWtx, none]
  · have answers {d : Chip} (h : s.tagMute = d) : s.gives .tagReplyMute d := Chip.gives_of h fun _ => rfl
    refine ⟨fun none => answers (by simp only [Chip.tagMute, none]), fun o some => ⟨fun early => answers ?_, fun late => answers ?_⟩⟩
    · simp only [Chip.tagMute, some, if_pos early]
    · simp only [Chip.tagMute, some, if_neg (Nat.not_lt.2 late)]
  · refine ⟨fun raw => ?_, fun raw h => ?_, fun u raw h hu => ?_⟩
    · exact ⟨if_pos (by simp [raw]), if_pos (by simp [raw])⟩
    · exact ⟨(if_neg (by simp [raw])).trans (if_pos h), (if_neg (by simp [raw])).trans (if_pos h)⟩
    · subst hu
      exact ⟨(if_neg (by simp [raw])).trans (if_neg (by simp [h])), (if_neg (by simp [raw])).trans (if_neg (by simp [h]))⟩
  · refine ⟨fun aid c => ?_, fun off len data h => ?_, fun off len sw f h file hsw => ?_, fun off sw data h file may hsw => ?_, fun off data h no => ?_, fun q data l u hu => ?_⟩
    · have name {d : Chip} (h : s.selectName aid = d) : s.gives (.selectByName aid) d := Chip.gives_of h fun _ => rfl
      have file {d : Chip} (h : s.selectFile c = d) : s.gives (.selectByFile c) d := Chip.gives_of h fun _ => rfl
      rw [Chip.selectName_free aid on act free] at name
      obtain ⟨unknown, known⟩ := Chip.selectFile_free c on act free
      refine ⟨fun h ndef size => name (if_pos (by simp [h, ndef, ndefAid, size])), fun no => name (if_neg ?_), fun h app hc => file ?_, fun h app hc => file ?_, fun cla ins no => file ?_,
        fun cla cla' => file (unknown _ ?_), fun cla ins no => file (unknown _ ?_), fun cla ins => file (unknown _ ?_)⟩
      · rcases no with h | h | h
        · simp [h]
        · have : aid ≠ ndefAid := h
          simp [this]
        · simp [h]
      · subst hc
        exact (known (by simp [apduUnknown])).trans (if_pos (by simp [h, app]))
      · subst hc
        exact (known (by simp [apduUnknown])).trans (if_pos (by simp [h, app]))
      · refine (known (by simp [apduUnknown, cla, ins])).trans (if_neg ?_)
        rcases no with h | h | ⟨h, h'⟩
        · simp [h]
        · simp [h]
        · simp [h, h']
      · simp [apduUnknown, cla, cla']
      · simp only [apduUnknown, cla, ins]
        rcases no with h | ⟨h, h'⟩
        · simp [h]
        · simp [h, h']
      · simp [apduUnknown, cla, ins]
    · exact ⟨Chip.gives_of (Chip.readBinary_harvest off len on act free h) fun _ => rfl, Chip.gives_of (Chip.updateBinary_harvest off data on act free h) fun _ => rfl⟩
    · subst hsw
      exact Chip.gives_of (e := s.readBinary off len) (Chip.readBinary_file off len on act free h file) fun _ => rfl
    · obtain ⟨bad, good⟩ := Chip.updateBinary_file off data on act free h (ro := false) (sw := sw) (by simp [file]) (by simp [file, may]) hsw
      exact ⟨fun no => Chip.gives_of (e := s.updateBinary off data) (bad no) fun _ => rfl,
        fun ok inside => Chip.gives_of (e := s.updateBinary off data) (ok ▸ good ok inside) fun _ => rfl⟩
    · have ro : (s.nfc.file = .cc || !s.bit F.NFC_NDEF_WRITE) = true := by rcases no with h | ⟨-, h⟩ <;> simp [h]
      have some : s.nfc.file ≠ .none := by rcases no with h | ⟨h, -⟩ <;> simp [h]
      exact Chip.gives_of (e := s.updateBinary off data) ((Chip.updateBinary_file off data on act free h some ro rfl).1 (by simp [binaryStatus])) fun _ => rfl
    · have answers {d : Chip} (h : s.mailboxWrite q data l = d) : s.gives (.mailboxWrite q data l) d := Chip.gives_of h fun _ => rfl
      rw [Chip.mailboxWrite_free q data l on act free hu] at answers
      refine ⟨fun bad => answers (if_pos bad), fun lo hi bad => answers ?_, fun lo hi z f => ?_⟩
      · rw [if_neg (by omega), if_pos bad]
      · rw [if_neg (by omega), if_neg (by simp [z, f])] at answers
        refine ⟨fun weak => answers (if_pos weak), fun strong some => ⟨fun h => answers ?_, fun h => answers ?_⟩, fun strong none full => answers ?_,
          fun k b m strong none hk h hb hm => answers ?_⟩
        · rw [if_neg (Nat.not_lt.2 strong), if_pos some, if_pos h]
        · rw [if_neg (Nat.not_lt.2 strong), if_pos some, if_neg (by simp [h])]
        · rw [if_neg (Nat.not_lt.2 strong), if_neg (by simp [none]), full]
        · rw [if_neg (Nat.not_lt.2 strong), if_neg (by simp [none]), hk, hm, hb]
          simp only [h, if_true]
          rfl

end Sys2Proof.Machine
end

section
/-!
PROOFS. What Bear leaves alone when it examines claims and ends grants, and what the operations around it leave of the
contactless block's state.
-/
namespace Sys2Proof.Machine

/-- A start at `t` is past a claim's deadline. -/
def Claim.tooLate (c : Claim) (t cause : Nat) : Bool :=
  match c.deadline with
  | some d => d < t && cause ≠ Rc.WARNING
  | none => false

/-- What an examination makes of claim `c` of claimant `n`, which may start at `e` and waits otherwise for `cause`. -/
def Chip.examineAs (s : Chip) (stag n : Nat) (c : Claim) (e : Option Nat) (cause : Nat) : Chip × Nat :=
  let gap := us (s.fld F.EGY_CFG_STAGGER)
  let defer (e : Option Nat) (cause : Nat) (s : Chip) : Chip :=
    let moved := !c.answered || c.earliest ≠ e
    let c' := { c with answered := true, earliest := e, cause := cause }
    let s1 := s.setBear { s.bear with pend := s.bear.pend.map (fun x => if x.who = n then c' else x) }
    if moved then s1.answer { who := n, kind := .defer, code := cause, start := e } else s1
  if e = some s.now then ((s.grant c c.power), if staggered n then s.now + gap else stag)
  else
    match if n = 4 && s.energyOnly c stag then s.bestStep c else none with
    | some p => (s.grant c p, stag)
    | none =>
      let s0 := if cause = Rc.BUDGET then s.preempt c else s
      match e with
      | none => (defer none cause s0, stag)
      | some t =>
        if c.tooLate t cause then (s0.deny n Rc.LATE, stag)
        else if horizon ≤ s0.ticksTo t then
          if n = 12 then (defer none Rc.HORIZON s0, stag) else (s0.deny n Rc.HORIZON, stag)
        else (defer (some t) cause s0, if staggered n then t + gap else stag)

namespace Chip.Aside

theorem grant (s : Chip) (c : Claim) (power : Nat) : s.Aside (s.grant c power) := (setBear ..).trans (answer ..)

theorem markFor (s : Chip) (c : Claim) (l : List Grant) : s.Aside (s.markFor c l) := by
  induction l generalizing s with
  | nil => exact refl s
  | cons g l ih =>
    have marked : s.Aside (s.setBear { s.bear with grants := s.bear.grants.map (fun x => if x.who = g.who then { x with marked := true } else x) }) := setBear ..
    exact ite (refl s) ((marked.trans (ite (setFld ..) (refl _))).trans (ih _))

theorem preempt (s : Chip) (c : Claim) : s.Aside (s.preempt c) := ite (markFor ..) (refl s)

/-- A claim that is deferred. -/
theorem deferred (s : Chip) (b : Bear) (r : Answer) (p : Prop) [Decidable p] : s.Aside (if p then (s.setBear b).answer r else s.setBear b) :=
  ite ((setBear ..).trans (answer ..)) (setBear ..)

theorem examineAs (s : Chip) (stag n : Nat) (c : Claim) (e : Option Nat) (cause : Nat) : s.Aside (s.examineAs stag n c e cause).1 := by
  have pre : s.Aside (if cause = Rc.BUDGET then s.preempt c else s) := ite (preempt ..) (refl s)
  unfold Chip.examineAs
  dsimp only
  split
  · exact grant ..
  · split
    · exact grant ..
    · refine pre.trans ?_
      generalize (if cause = Rc.BUDGET then s.preempt c else s) = u
      split
      · exact deferred ..
      · split
        · exact deny ..
        · split
          · split
            · exact deferred ..
            · exact deny ..
          · exact deferred ..

theorem examine (s : Chip) (stag n : Nat) : s.Aside (s.examine stag n).1 := by
  unfold Chip.examine
  split
  · exact refl s
  · exact examineAs s stag n _ _ _

theorem syncLevel (s : Chip) : s.Aside s.syncLevel := setBear ..

theorem examineAll (s : Chip) (p : Claim → Bool) : s.Aside (s.examineAll p) := by
  have all (l : List Nat) (x : Chip × Nat) : x.1.Aside (l.foldl (fun (p : Chip × Nat) n => p.1.examine p.2 n) x).1 := by
    induction l generalizing x with
    | nil => exact refl _
    | cons n l ih => exact (examine x.1 x.2 n).trans (ih _)
  exact (syncLevel s).trans (all _ _)

theorem admission (s : Chip) : s.Aside s.admission := examineAll ..

theorem endGrant (s : Chip) (n : Nat) : s.Aside (s.endGrant n) :=
  ite ((syncLevel s).trans ((setBear _ _).trans ((ite ((setFld ..).trans (setFld ..)) (refl _)).trans (admission _)))) (refl s)

theorem release (s : Chip) (n : Nat) : s.Aside (s.release n) := (setBear ..).trans (endGrant ..)

/-- What stays of the contactless block. -/
theorem nfc {s t : Chip} (h : s.Aside t) : t.nfc = s.nfc := by
  obtain ⟨r, i, e, o, b, f, rfl⟩ := h
  rfl

end Chip.Aside

/-! ### The contactless block's state -/

theorem Chip.wrs_nfc (s : Chip) (a : Nat) (l : List Word) : (s.wrs a l).nfc = s.nfc := by
  induction l generalizing s a with
  | nil => rfl
  | cons v l ih => rw [Chip.wrs, ih, Chip.wr_nfc]

theorem Chip.produce_nfc (s : Chip) (q : Nat) (l : List Word) : (s.produce q l).nfc = s.nfc := by
  unfold Chip.produce
  split
  · rw [(Chip.Aside.occ _ _).nfc]
    exact Chip.wrs_nfc ..
  · exact (Chip.Aside.occ _ _).nfc

theorem Chip.blockStopped_nfc (s : Chip) (b : Block) : (s.blockStopped b).nfc = s.nfc := by
  unfold Chip.blockStopped
  split <;> rfl

theorem Chip.makeClaim_nfc (s : Chip) (n power count : Nat) (ms : Bool) (cls : Nat) (minP deadline : Option Nat) :
    (s.makeClaim n power count ms cls minP deadline).nfc = s.nfc := (Chip.Aside.makeClaim ..).nfc

/-- A wake event: the power states, the pins and Bear's claims, but not the contactless block. -/
theorem Chip.wakeEvent_nfc (s : Chip) (b cls : Nat) : (s.wakeEvent b cls).nfc = s.nfc := by
  have restored : (if s.pwr.st = .hibernate then s.restoreSupply else s).nfc = s.nfc := by
    split <;> rfl
  unfold Chip.wakeEvent
  split
  · exact (Chip.Aside.occ _ _).nfc
  · split
    · split
      · rfl
      · exact (Chip.makeClaim_nfc ..).trans restored
    · rfl

theorem Chip.nfcEntry_nfc (s : Chip) (kind reason info w1 : Nat) (buf : List Byte) (st : Stamp) : (s.nfcEntry kind reason info w1 buf st).nfc = s.nfc := by
  unfold Chip.nfcEntry
  rw [Chip.produce_nfc]
  split
  · exact Chip.wrs_nfc ..
  · rfl

theorem Chip.frameStamp_nfc (s : Chip) : s.frameStamp.2.nfc = s.nfc := by
  unfold Chip.frameStamp
  split <;> rfl

/-- The end of a round or exchange is reported: registers, stamps and queues change. -/
theorem Chip.rdPost_nfc (s : Chip) (code : Nat) : (s.rdPost code).nfc = s.nfc := by
  have posted : ((s.nfcReason code).occ 76).nfc = s.nfc := (Chip.Aside.occ _ _).nfc
  unfold Chip.rdPost
  split
  · exact (Chip.nfcEntry_nfc ..).trans ((Chip.frameStamp_nfc _).trans posted)
  · exact posted

end Sys2Proof.Machine
end

section
/-!
PROOFS. The contactless reader and its pings.
-/
namespace Sys2Proof.Machine

/-! ### Writes of NFC_CTL and NFC_CMD -/

/-- A word whose lowest bit is put. -/
theorem toNat_put_lowest (a : Nat) (w : Word) (v : Nat) : (Fld.put ⟨a, 0, 0⟩ w v).toNat = w.toNat / 2 * 2 + v % 2 := by
  have low : (Fld.put ⟨a, 0, 0⟩ w v).toNat % 2 = v % 2 := by
    have h := bitOf_put_self a 0 w v (by decide)
    simp only [bitOf, Nat.testBit_zero, decide_eq_decide] at h
    omega
  have high : (Fld.put ⟨a, 0, 0⟩ w v).toNat / 2 = w.toNat / 2 := by
    refine Nat.eq_of_testBit_eq fun j => ?_
    have h := bitOf_put_ne a 0 (j + 1) w v (by omega)
    rwa [bitOf, bitOf, Nat.testBit_succ, Nat.testBit_succ] at h
  omega

/-- What a write of EN alone finds in NFC_CTL's four bits: nothing else changes. -/
theorem nfcCtl_low : ∀ k < 16, ∀ v < 2, bits (k / 2 * 2 + v) 2 1 = bits k 2 1 ∧ putBit (k / 2 * 2 + v) 0 (bitOf k 0) = k
    ∧ bitOf (k / 2 * 2 + v) 0 = decide (v = 1) := by decide

theorem bits_mod (w : Nat) : bits (w % 16) 2 1 = bits w 2 1 := by
  simp only [bits, Nat.shiftRight_eq_div_pow]
  omega

theorem bitOf_mod (w : Nat) : bitOf (w % 16) 0 = bitOf w 0 := by
  simp only [bitOf, Nat.testBit_zero, decide_eq_decide]
  omega

/-- The lowest bit of a register. -/
theorem Chip.bit_lowest (s : Chip) (a : Nat) : s.bit ⟨a, 0, 0⟩ = bitOf (s.reg a).toNat 0 := by
  have one : (maskOf 0 0).toNat = 1 := by decide
  simp only [Chip.bit, Chip.fld, Fld.of_eq, BitVec.ushiftRight_zero, BitVec.toNat_and, one, Nat.and_one_is_mod, bitOf, Nat.testBit_zero]
  rcases Nat.mod_two_eq_zero_or_one (s.reg a).toNat with h | h <;> simp [h]

/-- A write of NFC_CTL.EN alone. -/
theorem Chip.fldWrite_nfcEn (s : Chip) (ag : Agent) {v : Nat} (hv : v < 2) :
    s.fldWrite ag F.NFC_CTL_EN v = if owns ag (s.fld F.NFC_CFG_OWNER) then
      (if v = 1 then (if s.bit F.NFC_CTL_EN then s else s.nfcEnable) else (if s.bit F.NFC_CTL_EN then s.nfcDisable else s))
    else s.setReason R.NFC_STAT Rc.OWNED := by
  have new : (Fld.put F.NFC_CTL_EN (s.reg F.NFC_CTL_EN.addr) v).toNat % 16 = (s.reg R.NFC_CTL).toNat % 16 / 2 * 2 + v := by
    rw [F.NFC_CTL_EN, toNat_put_lowest]
    dsimp only
    omega
  obtain ⟨same, rest, bit⟩ := nfcCtl_low ((s.reg R.NFC_CTL).toNat % 16) (by omega) v hv
  rw [bits_mod] at same
  rw [bitOf_mod] at rest
  rw [Chip.fldWrite, s.regWrite_nfc ag _ _ (by decide) (by decide)]
  refine (if_pos rfl).trans ?_
  rw [Chip.nfcCtlWrite, Chip.ifNfcOwner, F.NFC_CTL_EN, Chip.bit_lowest, ← F.NFC_CTL_EN]
  cases own : owns ag (s.fld F.NFC_CFG_OWNER)
  · rfl
  · simp only [new, same, rest, bit, if_true]
    cases bitOf (s.reg R.NFC_CTL).toNat 0 <;> simp

/-- A write of NFC_CMD by the bits that it carries. -/
theorem Chip.nfcCmdWrite_bits (s : Chip) (ag : Agent) {v : Word} {b0 b1 b2 b3 : Bool} (h0 : bitOf v.toNat 0 = b0) (h1 : bitOf v.toNat 1 = b1)
    (h2 : bitOf v.toNat 2 = b2) (h3 : bitOf v.toNat 3 = b3) :
    s.nfcCmdWrite ag v = if owns ag (s.fld F.NFC_CFG_OWNER) then
      let s1 := if b0 then s.pollStart none else s
      let s2 := if b3 then s1.nfcXchg else s1
      let s3 := if b2 then s2.nfcDesel else s2
      if b1 then s3.nfcFieldOff else s3
    else s.setReason R.NFC_STAT Rc.OWNED := by
  simp only [Chip.nfcCmdWrite, Chip.ifNfcOwner, Chip.nfcReason, h0, h1, h2, h3]

theorem Chip.nfcCmdWrite_one (s : Chip) (ag : Agent) :
    (s.nfcCmdWrite ag 1 = if owns ag (s.fld F.NFC_CFG_OWNER) then s.pollStart none else s.setReason R.NFC_STAT Rc.OWNED)
    ∧ (s.nfcCmdWrite ag 2 = if owns ag (s.fld F.NFC_CFG_OWNER) then s.nfcFieldOff else s.setReason R.NFC_STAT Rc.OWNED)
    ∧ (s.nfcCmdWrite ag 4 = if owns ag (s.fld F.NFC_CFG_OWNER) then s.nfcDesel else s.setReason R.NFC_STAT Rc.OWNED)
    ∧ (s.nfcCmdWrite ag 8 = if owns ag (s.fld F.NFC_CFG_OWNER) then s.nfcXchg else s.setReason R.NFC_STAT Rc.OWNED) := by
  have poll := s.nfcCmdWrite_bits ag (v := 1) (b0 := true) (b1 := false) (b2 := false) (b3 := false) (by decide) (by decide) (by decide) (by decide)
  have off := s.nfcCmdWrite_bits ag (v := 2) (b0 := false) (b1 := true) (b2 := false) (b3 := false) (by decide) (by decide) (by decide) (by decide)
  have desel := s.nfcCmdWrite_bits ag (v := 4) (b0 := false) (b1 := false) (b2 := true) (b3 := false) (by decide) (by decide) (by decide) (by decide)
  have xchg := s.nfcCmdWrite_bits ag (v := 8) (b0 := false) (b1 := false) (b2 := false) (b3 := true) (by decide) (by decide) (by decide) (by decide)
  simp only [if_true, Bool.false_eq_true, if_false] at poll off desel xchg
  exact ⟨poll, off, desel, xchg⟩

/-! ### The safe points of a disable -/

/-- The tag has nothing to send. -/
theorem Chip.tagNext_done {s : Chip} (h : s.nfc.chain = []) : s.tagNext = s := by
  rw [Chip.tagNext, h]
  exact ite_self s

theorem Chip.nfcSafe_keeps (s : Chip) : s.nfcSafe.nfc.rd = s.nfc.rd ∧ s.nfcSafe.nfc.chain = s.nfc.chain ∧ s.nfcSafe.nfc.pollNext = s.nfc.pollNext := by
  unfold Chip.nfcSafe
  split
  · rw [Chip.blockStopped_nfc]
    exact ⟨rfl, rfl, rfl⟩
  · exact ⟨rfl, rfl, rfl⟩

theorem Chip.tagField_keeps (s : Chip) : s.tagField.nfc.rd = s.nfc.rd ∧ s.tagField.nfc.pollNext = s.nfc.pollNext ∧ s.tagField.nfc.chain = [] := ⟨rfl, rfl, rfl⟩

/-- The field's detector changes what the tag holds, not what the reader does. -/
theorem Chip.detectField_keeps (s : Chip) :
    s.detectField.nfc.rd = s.nfc.rd ∧ s.detectField.nfc.pollNext = s.nfc.pollNext ∧ (s.nfc.chain = [] → s.detectField.nfc.chain = []) := by
  rw [Chip.detectField]
  generalize hu : (s.setBit F.NFC_STAT_EXTFLD s.nfc.raw).setLatch { s.pins.latch with fdet := s.nfc.raw } = u
  have same : u.nfc = s.nfc := by rw [← hu]; rfl
  simp only
  split
  · exact ⟨rfl, rfl, id⟩
  · split
    · have kept : ((u.occ 73).wakeEvent 7 12).nfc = s.nfc := by rw [Chip.wakeEvent_nfc, (Chip.Aside.occ u 73).nfc, same]
      obtain ⟨hr, hp, hc⟩ := ((u.occ 73).wakeEvent 7 12).tagField_keeps
      exact ⟨hr.trans (congrArg Nfc.rd kept), hp.trans (congrArg Nfc.pollNext kept), fun _ => hc⟩
    · obtain ⟨hr, hc, hp⟩ := (((u.occ 74).dropClaim 8).setNfc { u.nfc with tag := .off, reply := none, chain := [] }).nfcSafe_keeps
      rw [hr, hc, hp]
      rw [← same]
      exact ⟨rfl, rfl, fun _ => rfl⟩

/-- With the reader's field off no phase is left, and the tag has nothing to send where it had nothing. -/
theorem Chip.rdOff_keeps {s : Chip} (h : s.nfc.chain = []) : s.rdOff.nfc.rd.ph = .off ∧ s.rdOff.nfc.chain = [] := by
  rw [Chip.rdOff]
  generalize hu : ((s.setRd { sent := s.nfc.rd.sent }).rdState 0).setBit F.NFC_STAT_FIELDON false = u
  have phase : u.nfc.rd.ph = .off := by rw [← hu]; rfl
  have chain : u.nfc.chain = [] := by rw [← hu]; exact h
  have rel := (Chip.Aside.release u 7).nfc
  obtain ⟨hr, hc, -⟩ := (u.release 7).detectField.nfcSafe_keeps
  obtain ⟨hr', -, hc'⟩ := (u.release 7).detectField_keeps
  simp only [hr, hc, hr', rel, phase, true_and]
  exact hc' (by rw [rel, chain])

theorem Chip.sessionEnd_keeps {s : Chip} (h : s.nfc.chain = []) : s.sessionEnd.nfc.chain = [] := by
  have same : (if s.nfc.rd.ph.busy then s.rdPost Rc.SESSION_END else s.occ 76).nfc = s.nfc := by
    split
    · exact Chip.rdPost_nfc ..
    · exact (Chip.Aside.occ ..).nfc
  exact (Chip.rdOff_keeps (by rw [same, h])).2

/-- What the block does in a cycle of a disable, with nothing for the tag to send. -/
theorem Chip.nfcTick_stopping {s : Chip} (stop : s.stopping.contains .nfc = true) (h : s.nfc.chain = []) :
    s.nfcTick = if s.nfc.rd.ph ≠ .off ∧ s.readerSafe = true then s.sessionEnd.nfcSafe else s.nfcSafe := by
  rw [Chip.nfcTick, stop, Bool.or_true, Bool.true_and]
  by_cases go : s.nfc.rd.ph ≠ .off ∧ s.readerSafe = true
  · rw [if_pos (by simpa using go), if_pos go, Chip.tagNext_done (Chip.sessionEnd_keeps h)]
  · rw [if_neg (by simpa using go), if_neg go, Chip.tagNext_done h]

theorem Chip.nfcTick_off {s : Chip} (off : s.nfc.rd.ph = .off) (h : s.nfc.chain = []) : s.nfcTick = s.nfcSafe := by
  rw [Chip.nfcTick, if_neg (by simp [off]), Chip.tagNext_done h]

/-- FIELDOFF in a session, at its safe point and before it. -/
theorem Chip.nfcFieldOff_session {s : Chip} (h : s.nfc.rd.ph ≠ .off ∧ s.nfc.rd.ph ≠ .pingClaim ∧ s.nfc.rd.ph ≠ .ping) :
    s.nfcFieldOff = if s.nfc.rd.frameEnd ≤ s.now then
        (if s.nfc.rd.ph.busy then (s.setReason R.NFC_STAT Rc.OK).rdPost Rc.SESSION_END else (s.setReason R.NFC_STAT Rc.OK).occ 76).rdOff
      else (s.setReason R.NFC_STAT Rc.OK).setRd { s.nfc.rd with close := true } := by
  obtain ⟨off, claim, ping⟩ := h
  have safe : (s.nfcReason Rc.OK).readerSafe = true ↔ s.nfc.rd.frameEnd ≤ s.now := by
    rw [Chip.readerSafe, Bool.and_eq_true]
    exact ⟨fun h => of_decide_eq_true h.2, fun h => ⟨decide_eq_true ping, decide_eq_true h⟩⟩
  have does : s.nfcFieldOff = if (s.nfcReason Rc.OK).readerSafe then (s.nfcReason Rc.OK).sessionEnd
      else (s.nfcReason Rc.OK).setRd { (s.nfcReason Rc.OK).nfc.rd with close := true } := by
    unfold Chip.nfcFieldOff
    split
    · exact absurd ‹_› off
    · exact absurd ‹_› claim
    · exact absurd ‹_› ping
    · rfl
  rw [does]
  by_cases late : s.nfc.rd.frameEnd ≤ s.now
  · rw [if_pos (safe.2 late), if_pos late]
    rfl
  · rw [if_neg fun h => late (safe.1 h), if_neg late]
    rfl

/-- A disable as far as it goes at once. -/
def Chip.nfcEnFalls (u : Chip) : Chip := Chip.setNfc (Chip.dropClaim { u.setBit F.NFC_CTL_EN false with stopping := Block.nfc :: u.stopping } 8)
  { u.nfc with pingNext := none, pollNext := false, reply := none, chain := [] }

theorem Chip.nfcDisable_eq (u : Chip) : u.nfcDisable = (if u.nfc.rd.ph = .pingClaim then u.nfcEnFalls.rdOff else u.nfcEnFalls).nfcTick := rfl

theorem Chip.nfcEnFalls_stop (u : Chip) : u.nfcEnFalls.stopping.contains .nfc = true := by
  show (Block.nfc :: u.stopping).contains .nfc = true
  simp

theorem Chip.nfcSafe_busy {s : Chip} (h : s.nfc.rd.ph ≠ .off) : s.nfcSafe = s := if_neg (by simp [h])

/-! ### The reader's frames -/

section
variable {s : Chip}

/-- The next try of a frame, or `last` with no try left. -/
def Chip.rdAgain (s : Chip) (p : RdPhase) (f : List Byte) (last : Chip) : Chip :=
  if s.nfc.rd.retries = 0 then last else (s.setRd { s.nfc.rd with retries := s.nfc.rd.retries - 1 }).rdSend p f

/-- A frame of the reader draws no answer, by the phase it stands in. -/
theorem Chip.readerTimeout_due (due : s.nfc.rd.due.any (fun t => t ≤ s.now) = true) :
    s.readerTimeout = match s.nfc.rd.ph with
      | .reqa => s.rdAgain .reqa s.nfc.rd.sent (s.roundEnd Rc.NO_RESPONSE false)
      | .anti => s.rdAgain .anti s.nfc.rd.sent (s.roundEnd (if 0 < s.nfc.rd.found then Rc.OK else Rc.NO_RESPONSE) false)
      | .select => s.rdAgain .select s.nfc.rd.sent (s.roundEnd Rc.NO_RESPONSE false)
      | .rats => s.rdAgain .rats s.nfc.rd.sent ((s.queueUid []).roundEnd Rc.NO_RESPONSE false)
      | .xchg => s.xchgRetry Rc.NO_RESPONSE
      | .desel => s.rdAgain .desel s.nfc.rd.sent (((s.setRd { s.nfc.rd with ph := .field, due := none, ats := [] }).rdState 0).nfcReason Rc.NO_RESPONSE)
      | _ => s := by
  rw [Chip.readerTimeout]
  refine (if_neg (by simp [due])).trans ?_
  cases s.nfc.rd.ph <;> rfl

theorem Chip.readerTimeout_early (h : s.nfc.rd.due.any (fun t => t ≤ s.now) = false) : s.readerTimeout = s := if_pos (by simp [h])

end

/-! ### Pings -/

theorem Chip.pollAfter_none {s : Chip} (h : s.nfc.pollNext = false) : s.pollAfter = s := if_neg (by simp [h])

/-- What a ping's measurement makes of the baseline, once the ping is over. -/
def Chip.pingJudged (s : Chip) (amp phase : Nat) : Chip :=
  if !s.bit F.NFC_BASE_VALID then
    let l := s.nfc.first ++ [(amp, phase)]
    let s2 := s.setNfc { s.nfc with first := l }
    if l.length < 8 then s2.pollAfter
    else
      let (a, p) := pingMean l
      (((s2.setFld F.NFC_BASE_AMP a).setFld F.NFC_BASE_PHASE p).setBit F.NFC_BASE_VALID true).pollAfter
  else if s.pingDetects amp phase then
    let s2 := (((s.setBit F.NFC_PMEAS_DET true).count F.NFC_CNT_DETECT).occ 75).wakeEvent 7 12
    if s2.bit F.NFC_PING_AUTOPOLL && s2.bit F.NFC_CTL_EN then (s2.setNfc { s2.nfc with pollNext := false }).pollStart (some (amp, phase))
    else s2.pollAfter
  else
    let ab := s.fld F.NFC_BASE_AMP
    let pb := s.fld F.NFC_BASE_PHASE
    let da := ((amp : Int) - ab).tdiv 16
    let dp := (phaseDiff phase pb).tdiv 16
    ((s.setFld F.NFC_BASE_AMP ((ab : Int) + da).toNat).setFld F.NFC_BASE_PHASE (((pb : Int) + dp) % 3600).toNat).pollAfter

theorem Chip.pingResult_due {s : Chip} {amp phase : Nat} (ph : s.nfc.rd.ph = .ping) (due : s.nfc.rd.due.any (fun t => t ≤ s.now) = true) :
    s.pingResult amp phase = (((((((s.setRd {}).setFld F.NFC_STAT_RDSTATE 0).release 7).pingHfOff).setFld F.NFC_PMEAS_AMP amp).setFld F.NFC_PMEAS_PHASE
      phase).setBit F.NFC_PMEAS_DET false).detectField.pingJudged amp phase := by
  rw [Chip.pingResult, if_neg (by simp [ph, due])]
  rfl

/-- A ping's time, with the schedule that runs on in `u`. -/
theorem Chip.pingDue_eq {s u : Chip} (hu : u = s.setNfc { s.nfc with pingNext := s.nfc.pingNext.map (fun t => max (t + 4096 * s.fld F.NFC_PING_INTERVAL) (125 * s.owl.stb + 1)) }) :
    s.pingDue = if s.nfc.pingNext.any (fun t => t ≤ 125 * s.owl.stb) && s.bit F.NFC_CTL_EN && s.bit F.NFC_CTL_READER && s.bit F.NFC_CTL_PING && s.nfc.rd.ph = .off
        && !s.bit F.NFC_STAT_EXTFLD && (s.pwr.st = .run || s.pwr.st = .sleep) then
      (u.setRd { ph := .pingClaim }).claim 7 (s.fld (F.EGY_DECL_PEAK 7)) 75 false
    else u := by
  subst hu
  rfl

theorem Chip.pingHfOff_nfc (s : Chip) : s.pingHfOff.nfc = s.nfc := by
  unfold Chip.pingHfOff
  split <;> rfl

/-- Settles O55, each clause by the equation of its command. -/
theorem theReader : Obligations.TheReader := by
  refine ⟨fun s ag no i hi => ?_, fun s ag => ?_, fun s u ag own => ?_, fun s r data b hr => ?_, fun s u amp phase => ?_⟩
  · obtain ⟨one, two, four, eight⟩ := s.nfcCmdWrite_one ag
    have refused : ¬owns ag (s.fld F.NFC_CFG_OWNER) = true := by simp [no]
    rcases hi with rfl | rfl | rfl | rfl | rfl | rfl
    · exact Chip.gives_of ((s.fldWrite_nfcEn ag (v := 1) (by decide)).trans (if_neg refused)) fun _ => rfl
    · exact Chip.gives_of ((s.fldWrite_nfcEn ag (v := 0) (by decide)).trans (if_neg refused)) fun _ => rfl
    · exact Chip.gives_of (one.trans (if_neg refused)) fun q => exec_nfcPoll ⟨q, s⟩ ag
    · exact Chip.gives_of (eight.trans (if_neg refused)) fun q => exec_nfcXchg ⟨q, s⟩ ag
    · exact Chip.gives_of (four.trans (if_neg refused)) fun q => exec_nfcDesel ⟨q, s⟩ ag
    · exact Chip.gives_of (two.trans (if_neg refused)) fun q => exec_nfcFieldoff ⟨q, s⟩ ag
  · have zero : s.setReg R.NFC_CNT (s.reg R.NFC_CNT &&& ~~~ 0xFFFFFFFFF#36) = s.setReg R.NFC_CNT 0 := by
      rw [show ~~~ 0xFFFFFFFFF#36 = 0#36 by decide, BitVec.and_zero]
      rfl
    intro q
    rw [exec_nfcCntRead, zero]
  · obtain ⟨one, two, four, eight⟩ := s.nfcCmdWrite_one ag
    have enable {d : Chip} (h : (if s.bit F.NFC_CTL_EN then s else s.nfcEnable) = d) : s.gives (.nfcEnable ag) d :=
      Chip.gives_of ((s.fldWrite_nfcEn ag (v := 1) (by decide)).trans ((if_pos own).trans ((if_pos rfl).trans h))) fun _ => rfl
    have disable {d : Chip} (h : (if s.bit F.NFC_CTL_EN then s.nfcDisable else s) = d) : s.gives (.nfcDisable ag) d :=
      Chip.gives_of ((s.fldWrite_nfcEn ag (v := 0) (by decide)).trans ((if_pos own).trans ((if_neg (by decide)).trans h))) fun _ => rfl
    have poll {d : Chip} (h : s.pollStart none = d) : s.gives (.nfcPoll ag) d :=
      Chip.gives_of (one.trans ((if_pos own).trans h)) fun q => exec_nfcPoll ⟨q, s⟩ ag
    have xchg {d : Chip} (h : s.nfcXchg = d) : s.gives (.nfcXchg ag) d :=
      Chip.gives_of (eight.trans ((if_pos own).trans h)) fun q => exec_nfcXchg ⟨q, s⟩ ag
    have desel {d : Chip} (h : s.nfcDesel = d) : s.gives (.nfcDesel ag) d :=
      Chip.gives_of (four.trans ((if_pos own).trans h)) fun q => exec_nfcDesel ⟨q, s⟩ ag
    have fieldOff {d : Chip} (h : s.nfcFieldOff = d) : s.gives (.nfcFieldoff ag) d :=
      Chip.gives_of (two.trans ((if_pos own).trans h)) fun q => exec_nfcFieldoff ⟨q, s⟩ ag
    refine ⟨fun off => ⟨enable (if_neg (by simp [off])), disable (if_neg (by simp [off]))⟩, fun on => ⟨enable (if_pos on), disable (if_pos on)⟩, fun c hc off => ⟨fun no => ?_, fun ok x hx dark => ?_⟩,
      fun x hx => ?_, fun no => poll ?_, fun x on rd ph => poll ?_, fun on rd ph free => poll ?_, fun no => ⟨xchg (if_pos no), desel (if_pos no)⟩, fun card => desel (if_neg (Classical.not_not.2 card)),
      fun card bad => xchg ?_, fun n r card hn pos span time hr => xchg ?_, fun no => fieldOff ?_, fun ph late => fieldOff ?_, fun ph => ⟨fun early => fieldOff ?_, fun late => fieldOff ?_⟩⟩
    · rw [Chip.nfcEnable, ← hc]
      refine (if_pos no).trans ?_
      rw [Chip.enableIf_of_off (b := .nfc) c off, if_neg no]
      rfl
    · subst hx
      rw [Chip.nfcEnable, ← hc]
      refine (if_neg (Classical.not_not.2 ok)).trans ?_
      rw [Chip.enableIf_of_off (b := .nfc) c off, if_pos ok]
      exact if_neg (by simpa using dark)
    · obtain rfl : x = u.nfcEnFalls := hx
      have stop := u.nfcEnFalls_stop
      rw [Chip.nfcDisable_eq]
      refine ⟨fun ph => ?_, fun ph => ?_, fun ph ph' early => ?_, fun ph ph' ping late => ?_⟩
      · rw [if_neg (by simp [ph]), Chip.nfcTick_off (s := u.nfcEnFalls) ph rfl]
      · obtain ⟨off, chain⟩ := Chip.rdOff_keeps (s := u.nfcEnFalls) rfl
        rw [if_pos ph, Chip.nfcTick_off off chain]
      · have unsafeYet : u.nfcEnFalls.readerSafe = false := by
          have : ¬u.nfcEnFalls.nfc.rd.frameEnd ≤ u.nfcEnFalls.now := Nat.not_le.2 early
          simp [Chip.readerSafe, this]
        rw [if_neg ph', Chip.nfcTick_stopping stop rfl, if_neg (by simp [unsafeYet]), Chip.nfcSafe_busy (s := u.nfcEnFalls) ph]
      · have safe : u.nfcEnFalls.readerSafe = true := by
          have h : u.nfcEnFalls.nfc.rd.frameEnd ≤ u.nfcEnFalls.now := late
          have h' : u.nfcEnFalls.nfc.rd.ph ≠ .ping := ping
          simp [Chip.readerSafe, h, h']
        rw [if_neg ph', Chip.nfcTick_stopping stop rfl, if_pos ⟨ph, safe⟩]
    · rw [Chip.pollStart]
      rcases no with h | h | ⟨h, h', h''⟩ | ⟨h, h'⟩
      · exact if_pos (by simp [h])
      · exact if_pos (by simp [h])
      · cases e : s.nfc.rd.ph <;> simp_all [Chip.nfcReason]
      · simp [h, h', Chip.nfcReason]
    · rw [Chip.pollStart, if_neg (by simp [on, rd])]
      rcases ph with ⟨h, rfl⟩ | ⟨h, rfl⟩
      · simp only [h]
        rfl
      · simp only [h]
        rfl
    · rw [Chip.pollStart, if_neg (by simp [on, rd])]
      simp only [ph, free, Bool.false_eq_true, if_false]
      rfl
    · exact (if_neg (Classical.not_not.2 card)).trans (if_pos (by simpa using bad))
    · subst hn hr
      rw [Chip.nfcXchg]
      refine (if_neg (Classical.not_not.2 card)).trans ((if_neg (by simp [pos, span])).trans (if_neg (Nat.not_lt.2 time)))
    · rcases no with h | h | h <;> simp only [Chip.nfcFieldOff, h] <;> rfl
    · have quiet : s.nfc.rd.ph.busy = false := by rcases ph with h | h <;> rw [h] <;> rfl
      rw [Chip.nfcFieldOff_session (by rcases ph with h | h <;> rw [h] <;> decide), if_pos late, if_neg (by simp [quiet])]
    · rw [Chip.nfcFieldOff_session (by rcases ph with h | h | h | h | h <;> rw [h] <;> decide), if_neg (Nat.not_le.2 early)]
    · have busy : s.nfc.rd.ph.busy = true := by rcases ph with h | h | h | h | h <;> rw [h] <;> rfl
      rw [Chip.nfcFieldOff_session (by rcases ph with h | h | h | h | h <;> rw [h] <;> decide), if_pos late, if_pos busy]
  · subst hr
    have start {d : Chip} (h : s.roundStart = d) : s.gives .readerRoundStart d := Chip.gives_of h fun _ => rfl
    have timeout {d : Chip} (h : s.readerTimeout = d) : s.gives .readerFrameTimeout d := Chip.gives_of h fun _ => rfl
    have answer (good : Bool) (c : Option Nat) {d : Chip} (h : s.readerAnswer data good c b = d) : s.gives (.readerAnswer data good c b) d := Chip.gives_of h fun _ => rfl
    refine ⟨fun no => start (if_pos (by simpa using no)), fun ph due => start (if_neg (by simp [ph, due])), fun ph => ⟨timeout ?_, answer _ _ ?_⟩, fun early => timeout (Chip.readerTimeout_early early),
      fun early good c => answer _ _ (if_pos early), fun due left p ph hp => timeout ?_, fun due left ph => timeout ?_, fun due none => ⟨fun ph => timeout ?_, fun ph => timeout ?_, fun ph => timeout ?_, fun ph => timeout ?_, fun ph => timeout ?_⟩,
      fun ph late => answer _ _ ?_, fun k m u ph late lo hi hm hu => answer _ _ ?_, fun ph late more three => answer _ _ ?_, fun ph late more level => answer _ _ ?_, fun ph late last => answer _ _ ?_,
      fun ph late => answer _ _ ?_, fun ph late => answer _ _ ?_⟩
    · cases due : s.nfc.rd.due.any (fun t => t ≤ s.now)
      · exact Chip.readerTimeout_early due
      · rw [Chip.readerTimeout_due due, ph]
    · rw [Chip.readerAnswer]
      simp only [ph, ite_self]
    · rw [Chip.readerTimeout_due due]
      rcases hp with rfl | rfl | rfl | rfl | rfl <;> simp only [ph, Chip.rdAgain, if_neg left]
    · rw [Chip.readerTimeout_due due, ph]
      exact if_neg left
    · rw [Chip.readerTimeout_due due]
      rcases ph with h | h <;> simp only [h, Chip.rdAgain, if_pos none]
    · rw [Chip.readerTimeout_due due, ph]
      exact if_pos none
    · rw [Chip.readerTimeout_due due, ph]
      exact if_pos none
    · rw [Chip.readerTimeout_due due, ph]
      exact if_pos none
    · rw [Chip.readerTimeout_due due, ph]
      exact if_pos none
    · simp only [Chip.readerAnswer, if_neg (Nat.not_lt.2 late), ph, Bool.true_or, if_true]
    · have found : (some k).filter (fun k => s.nfc.rd.nbits ≤ k && k < 32) = some k := by simp [lo, hi]
      subst hm hu
      simp only [Chip.readerAnswer, if_neg (Nat.not_lt.2 late), ph, found]
    · simp only [Chip.readerAnswer, if_neg (Nat.not_lt.2 late), ph, more, three]
      rfl
    · simp only [Chip.readerAnswer, if_neg (Nat.not_lt.2 late), ph, more, level]
      rfl
    · simp only [Chip.readerAnswer, if_neg (Nat.not_lt.2 late), ph, last]
      rfl
    · simp only [Chip.readerAnswer, if_neg (Nat.not_lt.2 late), ph, if_true]
    · simp only [Chip.readerAnswer, if_neg (Nat.not_lt.2 late), ph, if_true]
  · have result {d : Chip} (h : s.pingResult amp phase = d) : s.gives (.pingResult amp phase) d := Chip.gives_of h fun _ => rfl
    have ping {d : Chip} (h : s.pingDue = d) : s.gives .pingDue d := Chip.gives_of h fun _ => rfl
    refine ⟨fun no => result (if_pos (by simpa using no)), fun ph due free hu => ?_, fun hu => ⟨fun come en rd on off dark st => ping ?_, fun no => ping ?_⟩⟩
    · have calm : u.nfc.pollNext = false := by
        rw [hu, (Chip.detectField_keeps _).2.1]
        show ((((s.setRd {}).setFld F.NFC_STAT_RDSTATE 0).release 7).pingHfOff).nfc.pollNext = false
        rw [Chip.pingHfOff_nfc, (Chip.Aside.release ..).nfc]
        exact free
      rw [Chip.pingResult_due ph due, ← hu, Chip.pingJudged] at result
      refine ⟨fun unset few => result ?_, fun v set det hv auto => result ?_, fun set same => result ?_⟩
      · rw [if_pos (by simp [unset])]
        refine (if_pos (by rw [List.length_append]; exact Nat.succ_lt_succ few)).trans (Chip.pollAfter_none calm)
      · have calm' : v.nfc.pollNext = false := by
          rw [hv, Chip.wakeEvent_nfc, (Chip.Aside.occ ..).nfc]
          exact calm
        rw [if_neg (by simp [set]), if_pos det, ← hv]
        exact (if_neg (by simp [auto])).trans (Chip.pollAfter_none calm')
      · rw [if_neg (by simp [set]), if_neg (by simp [same])]
        exact Chip.pollAfter_none calm
    · rw [Chip.pingDue_eq hu]
      exact if_pos (by simp [come, en, rd, on, off, dark, st])
    · rw [Chip.pingDue_eq hu]
      refine if_neg ?_
      rcases no with h | h | h | h <;> simp [h]

end Sys2Proof.Machine
end

section
/-!
PROOFS. Timers, the real-time clock, LFXO and the watchdog.
-/
namespace Sys2Proof.Machine

/-! ### Timers -/

theorem Chip.tmrOn_of_lt (s : Chip) {n : Nat} (h : n < 8) : s.tmrOn n = s.bit (F.TMRN_CTL_EN n) := by
  simp [Chip.tmrOn, h]

theorem Chip.pairHigh_iff (s : Chip) (n : Nat) :
    s.pairHigh n = true ↔ n % 2 = 1 ∧ s.bit (F.TMRN_CFG_LINK (n - 1)) = true ∧ (s.tmrOn n = false ∨ s.tmrOn (n - 1) = true) := by
  simp [Chip.pairHigh, and_assoc]

/-- The enable of a timer that its owner may enable and that is off, once the checks have passed. -/
theorem Chip.tmrEnable_passed {s : Chip} {ag : Agent} {n : Nat} (hn : n < 8) (own : owns ag (s.timerOwner n) = true)
    (off : s.bit (F.TMRN_CTL_EN n) = false) (ok : s.tmrCheck n = Rc.OK) :
    s.tmrEnable ag n =
      let hf := s.fld (F.TMRN_CFG_SRC n) ≠ 1
      let s1 := if hf && !s.holds 11 then s.claimNow 11 (s.fld (F.EGY_DECL_PEAK 11)) else s
      if hf && !s1.holds 11 then (s1.dropClaim 11).tmrReason n Rc.BUDGET
      else if (hf && 1 ≤ s1.fld F.PMU_REQ_DEPTH) || 2 ≤ s1.fld F.PMU_REQ_DEPTH then
        (if s.holds 11 then s1 else s1.endGrant 11).tmrReason n Rc.BUSY
      else s1.tmrStart n := by
  rw [Chip.tmrEnable, if_neg (by omega), if_neg (by simp [own]), if_neg (by simp [s.tmrOn_of_lt hn, off])]
  exact if_neg (Classical.not_not.2 ok)

theorem Chip.tmrEnable_refused {s : Chip} {ag : Agent} {n : Nat} (hn : n < 8) (own : owns ag (s.timerOwner n) = true)
    (off : s.bit (F.TMRN_CTL_EN n) = false) (no : s.tmrCheck n ≠ Rc.OK) : s.tmrEnable ag n = s.tmrReason n (s.tmrCheck n) := by
  rw [Chip.tmrEnable, if_neg (by omega), if_neg (by simp [own]), if_neg (by simp [s.tmrOn_of_lt hn, off])]
  exact if_pos no

/-- A timer that counts AON-LF needs no grant. -/
theorem Chip.tmrEnable_lf {s : Chip} {ag : Agent} {n : Nat} (hn : n < 8) (own : owns ag (s.timerOwner n) = true)
    (off : s.bit (F.TMRN_CTL_EN n) = false) (ok : s.tmrCheck n = Rc.OK) (src : s.fld (F.TMRN_CFG_SRC n) = 1) :
    s.tmrEnable ag n = if 2 ≤ s.fld F.PMU_REQ_DEPTH then s.tmrReason n Rc.BUSY else s.tmrStart n := by
  have same : (if s.holds 11 = true then s else s.endGrant 11) = s := by
    cases h : s.holds 11
    · exact Chip.endGrant_of_not_holds h
    · rfl
  rw [Chip.tmrEnable_passed hn own off ok]
  simp [src, same]

/-- A timer that counts HF-REF or events, with claimant 11 in grant. -/
theorem Chip.tmrEnable_granted {s : Chip} {ag : Agent} {n : Nat} (hn : n < 8) (own : owns ag (s.timerOwner n) = true)
    (off : s.bit (F.TMRN_CTL_EN n) = false) (ok : s.tmrCheck n = Rc.OK) (src : s.fld (F.TMRN_CFG_SRC n) ≠ 1) (held : s.holds 11 = true) :
    s.tmrEnable ag n = if 1 ≤ s.fld F.PMU_REQ_DEPTH then s.tmrReason n Rc.BUSY else s.tmrStart n := by
  rw [Chip.tmrEnable_passed hn own off ok]
  have two : (1 ≤ s.fld F.PMU_REQ_DEPTH ∨ 2 ≤ s.fld F.PMU_REQ_DEPTH) ↔ 1 ≤ s.fld F.PMU_REQ_DEPTH := by omega
  simp [src, held, two]

/-- And without one: it claims first. -/
theorem Chip.tmrEnable_claims {s : Chip} {ag : Agent} {n : Nat} (hn : n < 8) (own : owns ag (s.timerOwner n) = true)
    (off : s.bit (F.TMRN_CTL_EN n) = false) (ok : s.tmrCheck n = Rc.OK) (src : s.fld (F.TMRN_CFG_SRC n) ≠ 1) (free : s.holds 11 = false) :
    s.tmrEnable ag n = let y := s.claimNow 11 (s.fld (F.EGY_DECL_PEAK 11))
      if y.holds 11 = false then (y.dropClaim 11).tmrReason n Rc.BUDGET
      else if 1 ≤ y.fld F.PMU_REQ_DEPTH then (y.endGrant 11).tmrReason n Rc.BUSY else y.tmrStart n := by
  rw [Chip.tmrEnable_passed hn own off ok]
  generalize hy : s.claimNow 11 (s.fld (F.EGY_DECL_PEAK 11)) = y
  have two : (1 ≤ y.fld F.PMU_REQ_DEPTH ∨ 2 ≤ y.fld F.PMU_REQ_DEPTH) ↔ 1 ≤ y.fld F.PMU_REQ_DEPTH := by omega
  simp [src, free, two]

theorem Chip.tmrCheck_range {s : Chip} {n : Nat} (h : s.fld (F.TMRN_CFG_SRC n) = 3 ∨ 39 < s.fld (F.TMRN_CFG_EVSEL n)) : s.tmrCheck n = Rc.RANGE :=
  if_pos h

theorem Chip.tmrCheck_high {s : Chip} {n : Nat} (src : s.fld (F.TMRN_CFG_SRC n) ≠ 3) (ev : s.fld (F.TMRN_CFG_EVSEL n) ≤ 39)
    (high : s.pairHigh n = true) : s.tmrCheck n = 0x80 :=
  (if_neg (by omega)).trans (if_pos high)

/-- A write of a compare: at once while the timer is off, preloaded while it runs. -/
theorem Chip.tmrCmpWrite_owned {s : Chip} {ag : Agent} {n c : Nat} {v : Word} (hn : n < 8) (hc : c < 2) (own : owns ag (s.timerOwner n) = true) :
    s.tmrCmpWrite ag n c v =
      let x := (s.setReg (R.TMRN_CMP0 n + c) v).tmrReason n Rc.OK
      if x.tmrOn n = false then x.setTimer n ((x.timer n).setAct c v.toNat)
      else if x.pairHigh n then x
      else x.setTimer n ((x.timer n).setPl c (some (x.tmrValue (fun k => R.TMRN_CMP0 k + c) n))) := by
  have reg : (if c = 0 then R.TMRN_CMP0 else R.TMRN_CMP1) = fun k => R.TMRN_CMP0 k + c := by
    rcases (by omega : c = 0 ∨ c = 1) with rfl | rfl
    · rfl
    · funext k
      simp [R.TMRN_CMP0, R.TMRN_CMP1]
      omega
  rw [Chip.tmrCmpWrite, if_neg (by omega), if_neg (by simp [own]), reg]
  simp only [Bool.not_eq_true']

/-! ### A wrap of the prescaler -/

/-- A wrap with no preload that waits. -/
theorem Chip.timerWrap_plain {s : Chip} {n v : Nat} {x : Chip} (on : s.tmrOn n = true) (low : s.pairHigh n = false)
    (hv : v = (s.tmrValue R.TMRN_COUNT n + 1) % s.tmrModulus n) (p0 : (s.timer n).pl0 = none) (p1 : (s.timer n).pl1 = none)
    (hx : x = (s.setTmrValue R.TMRN_COUNT n v).setTimer n { s.timer n with pres := 0 }) :
    s.timerWrap n =
      let f0 := decide ((s.timer n).act0 = v)
      let f1 := decide ((s.timer n).act1 = v)
      let ovf := v = 0
      let s2 := if ovf then ((x.setBit (F.TMRN_FLAG_OVF n) true).tmrAct n 0 (x.fld (F.TMRN_ACT_ACTO0 n))).tmrAct n 1 (x.fld (F.TMRN_ACT_ACTO1 n)) else x
      let s3 := if f0 then ((s2.setBit (F.TMRN_FLAG_MATCH0 n) true).tmrAct n 0 (s2.fld (F.TMRN_ACT_ACTM0 n))).publish (112 + n) else s2
      let s4 := if f1 then (s3.setBit (F.TMRN_FLAG_MATCH1 n) true).tmrAct n 1 (s3.fld (F.TMRN_ACT_ACTM1 n)) else s3
      if ovf || f0 || f1 then (s4.occ (1 + n)).tmrWake n else s4 := by
  have h0 : TimerSt.fires { s.timer n with pres := 0 } 0 v (s.tmrModulus n) = (decide ((s.timer n).act0 = v), { s.timer n with pres := 0 }) := by
    simp [TimerSt.fires, TimerSt.pl, TimerSt.act, p0]
  have h1 : TimerSt.fires { s.timer n with pres := 0 } 1 v (s.tmrModulus n) = (decide ((s.timer n).act1 = v), { s.timer n with pres := 0 }) := by
    simp [TimerSt.fires, TimerSt.pl, TimerSt.act, p1]
  rw [Chip.timerWrap, if_neg (by simp [on, low])]
  simp only [← hv, h0, h1, ← hx]

/-! ### Captures -/

/-- An edge at a capture input that a pin carries. -/
theorem Chip.inputEdge_some {s : Chip} {m p : Nat} {b : Bool} (f : Chip → Chip) (h : s.pinOf m = some p) :
    s.inputEdge m b f = if s.inPin p ≠ b ∧ (s.drivePin p b).inPin p = b then f (s.drivePin p b) else s.drivePin p b := by
  simp only [Chip.inputEdge, h, Bool.and_eq_true, decide_eq_true_eq]

theorem Chip.inputEdge_none {s : Chip} {m : Nat} {b : Bool} (f : Chip → Chip) (h : s.pinOf m = none) : s.inputEdge m b f = s := by
  simp only [Chip.inputEdge, h]

theorem Chip.captureEdge_idle {s : Chip} {n : Nat} {b : Bool}
    (h : s.bit (F.TMRN_CFG_CAPEN n) = false ∨ s.tmrOn n = false ∨ s.pairHigh n = true) : s.captureEdge n b = s := by
  rw [Chip.captureEdge, Chip.tmrCapture]
  rcases h with h | h | h <;> simp [h]

/-- A rising capture, over one that has not been read and without. -/
theorem Chip.captureEdge_rise {s : Chip} {n : Nat} (hn : n < 8) (en : s.bit (F.TMRN_CFG_CAPEN n) = true) (on : s.tmrOn n = true)
    (low : s.pairHigh n = false) :
    s.captureEdge n true = ((((if s.bit (F.TMRN_FLAG_NEWR n) then s.setBit (F.TMRN_FLAG_OVRR n) true else s).setTmrValue R.TMRN_CAPR n
      (s.captured n)).setBit (F.TMRN_FLAG_NEWR n) true).occ (9 + n)) := by
  rw [Chip.captureEdge, if_pos (by simp [hn, en]), Chip.tmrCapture, if_neg (by simp [on, low])]
  rfl

theorem Chip.captureEdge_fall {s : Chip} {n : Nat} (hn : n < 8) (en : s.bit (F.TMRN_CFG_CAPEN n) = true) (on : s.tmrOn n = true)
    (low : s.pairHigh n = false) :
    s.captureEdge n false = (((((if s.bit (F.TMRN_FLAG_NEWF n) then s.setBit (F.TMRN_FLAG_OVRF n) true else s).setTmrValue R.TMRN_CAPF n
      (s.captured n)).setTmrValue R.TMRN_PW n ((s.captured n + s.tmrModulus n - s.tmrValue R.TMRN_CAPR n) % s.tmrModulus n)).setBit
      (F.TMRN_FLAG_NEWF n) true).occ (9 + n)) := by
  rw [Chip.captureEdge, if_pos (by simp [hn, en]), Chip.tmrCapture, if_neg (by simp [on, low])]
  rfl

/-! ### Ownership -/

/-- A pin's map is none of the timers' registers. -/
theorem Chip.pinMap_setOwn (s : Chip) (w : Word) (n : Nat) (h : n < 24) : (s.setReg R.TMR_OWN w).pinMap n = s.pinMap n := by
  rw [Chip.pinMap, Chip.reg_setReg_ne _ _ (by simp only [R.PIN_MAP, R.TMR_OWN]; omega), Chip.pinMap]

/-- The fields of TMR_OWN that a write changes. -/
def Chip.ownChanged (s : Chip) (new n : Nat) : Prop := bits new (3 * n + 2) (3 * n) ≠ bits (s.reg R.TMR_OWN).toNat (3 * n + 2) (3 * n)

/-- A write of TMR_OWN, by what holds of the timers whose field it changes. -/
theorem Chip.tmrOwnWrite_unlocked {s : Chip} {ag : Agent} {v : Word} {new : Nat} (hnew : new = v.toNat % 2 ^ 24) (free : s.lockedSec 8 = false) :
    ((∃ n < 8, s.ownChanged new n ∧ owns ag (s.timerOwner n) = false) → s.tmrOwnWrite ag v = s.setReason R.TMR_STAT Rc.OWNED)
    ∧ ((∀ n < 8, s.ownChanged new n → owns ag (s.timerOwner n) = true) →
      ((∃ n < 8, s.ownChanged new n ∧ s.tmrOn n = true) → s.tmrOwnWrite ag v = s.setReason R.TMR_STAT Rc.BUSY)
      ∧ ((∀ n < 8, s.ownChanged new n → s.tmrOn n = false) →
        ((∃ n < 8, s.ownChanged new n) → (∃ n < 24, Chip.timerPinBad (s.setReg R.TMR_OWN (W new)) (s.pinMap n) = true) →
          s.tmrOwnWrite ag v = s.setReason R.TMR_STAT Rc.OWNED)
        ∧ ((∀ n < 24, Chip.timerPinBad (s.setReg R.TMR_OWN (W new)) (s.pinMap n) = false) →
          s.tmrOwnWrite ag v = (s.setReg R.TMR_OWN (W new)).setReason R.TMR_STAT Rc.OK))) := by
  subst hnew
  have any (p : Nat → Bool) : ((List.range 8).filter fun n => bits (v.toNat % 2 ^ 24) (3 * n + 2) (3 * n) ≠ bits (s.reg R.TMR_OWN).toNat (3 * n + 2) (3 * n)).any p = true
      ↔ ∃ n < 8, s.ownChanged (v.toNat % 2 ^ 24) n ∧ p n = true := by
    simp [Chip.ownChanged]
  have start : s.tmrOwnWrite ag v = _ := if_neg (by simp [free])
  refine ⟨fun h => start.trans (if_pos ((any _).2 ?_)), fun own => ?_⟩
  · obtain ⟨n, hn, hc, no⟩ := h
    exact ⟨n, hn, hc, by simp [no]⟩
  replace start := start.trans (if_neg (mt (any _).1 ?_))
  · refine ⟨fun h => start.trans (if_pos ((any _).2 h)), fun off => ?_⟩
    replace start := start.trans (if_neg (mt (any _).1 ?_))
    · refine ⟨fun hc bad => start.trans (if_pos ?_), fun good => start.trans (if_neg ?_)⟩
      · obtain ⟨n, hn, hc⟩ := hc
        obtain ⟨k, hk, bad⟩ := bad
        rw [Bool.and_eq_true]
        constructor
        · rw [Bool.not_eq_true', List.isEmpty_eq_false_iff]
          exact List.ne_nil_of_mem (List.mem_filter.2 ⟨List.mem_range.2 hn, decide_eq_true hc⟩)
        · exact List.any_eq_true.2 ⟨k, List.mem_range.2 hk, by rw [s.pinMap_setOwn _ _ hk, bad]⟩
      · rw [Bool.and_eq_true]
        rintro ⟨-, h⟩
        obtain ⟨k, hk, bad⟩ := List.any_eq_true.1 h
        rw [s.pinMap_setOwn _ _ (List.mem_range.1 hk), good k (List.mem_range.1 hk)] at bad
        exact Bool.false_ne_true bad
    · rintro ⟨n, hn, hc, on⟩
      rw [off n hn hc] at on
      exact Bool.false_ne_true on
  · rintro ⟨n, hn, hc, no⟩
    rw [own n hn hc] at no
    exact Bool.false_ne_true no

/-! ### The real-time clock -/

/-- RTC_SEC's write arrives at an edge. -/
theorem Chip.rtcSecApply_some {s : Chip} {k : Nat} (h : s.owl.rtcWrite = some k) :
    s.rtcSecApply =
      let y := ((({ s with owl := { s.owl with rtcWrite := none } } : Chip).setReg R.RTC_SEC (W k)).setReg R.RTC_SUB 0).updateSqw
      if s.bit F.RTC_CFG_ALMEN && (s.reg R.RTC_ALARM).toNat ≤ k then (y.setBit F.RTC_CFG_ALMEN false).setReason R.RTC_STAT 0x89
      else y.setReason R.RTC_STAT Rc.OK := by
  have reg (a : Nat) (h1 : a ≠ R.RTC_SEC) (h2 : a ≠ R.RTC_SUB) :
      ((({ s with owl := { s.owl with rtcWrite := none } } : Chip).setReg R.RTC_SEC (W k)).setReg R.RTC_SUB 0).updateSqw.reg a = s.reg a := by
    show ((({ s with owl := { s.owl with rtcWrite := none } } : Chip).setReg R.RTC_SEC (W k)).setReg R.RTC_SUB 0).reg a = s.reg a
    rw [Chip.reg_setReg_ne _ _ h2, Chip.reg_setReg_ne _ _ h1]
    rfl
  have alarm := reg R.RTC_ALARM (by decide) (by decide)
  have cfg := reg R.RTC_CFG (by decide) (by decide)
  have en : ((({ s with owl := { s.owl with rtcWrite := none } } : Chip).setReg R.RTC_SEC (W k)).setReg R.RTC_SUB 0).updateSqw.bit F.RTC_CFG_ALMEN = s.bit F.RTC_CFG_ALMEN := by
    rw [Chip.bit, Chip.fld]
    exact congrArg (fun w => F.RTC_CFG_ALMEN.of w != 0) cfg
  simp only [Chip.rtcSecApply, h, alarm, en]

/-! ### The watchdog's enable -/

/-- A bit of a register. -/
theorem Chip.bit_single (s : Chip) (a : Nat) {k : Nat} (hk : k < 36) : s.bit ⟨a, k, k⟩ = bitOf (s.reg a).toNat k := by
  have mask : (maskOf k k).toNat = 2 ^ k := by
    have one : BitVec.allOnes 36 >>> (35 - (k - k)) = 1#36 := by rw [Nat.sub_self]; decide
    rw [maskOf, one, BitVec.toNat_shiftLeft, BitVec.toNat_ofNat, Nat.one_mod_two_pow (by decide), Nat.one_shiftLeft,
      Nat.mod_eq_of_lt (Nat.pow_lt_pow_right (by decide) hk)]
  simp only [Chip.bit, Chip.fld, Fld.of_eq, BitVec.toNat_ushiftRight, BitVec.toNat_and, mask, bitOf]
  rw [Nat.shiftRight_and_distrib, Nat.shiftRight_eq_div_pow, Nat.shiftRight_eq_div_pow, Nat.div_self (Nat.two_pow_pos k),
    Nat.and_one_is_mod, Nat.testBit_eq_decide_div_mod_eq]
  rcases Nat.mod_two_eq_zero_or_one ((s.reg a).toNat / 2 ^ k) with h | h <;> rw [h] <;> rfl

/-- A write of WDT_CTL.EN alone carries DBGPAUSE as it reads. -/
theorem Chip.fldWrite_wdtEn (s : Chip) (ag : Agent) :
    s.fldWrite ag F.WDT_CTL_EN 1 = if ag ≠ .svc ∧ s.bit F.WDT_CTL_DBGPAUSE = true then s.setReason R.WDT_STAT Rc.SECURITY else s.wdtEnable := by
  have en : bitOf (Fld.put F.WDT_CTL_EN (s.reg F.WDT_CTL_EN.addr) 1).toNat 0 = true := bitOf_put_self _ _ _ _ (by decide)
  have pause : bitOf (Fld.put F.WDT_CTL_EN (s.reg F.WDT_CTL_EN.addr) 1).toNat 1 = s.bit F.WDT_CTL_DBGPAUSE := by
    rw [F.WDT_CTL_EN, bitOf_put_ne _ _ _ _ _ (by decide), F.WDT_CTL_DBGPAUSE, Chip.bit_single _ _ (by decide)]
  rw [Chip.fldWrite, s.regWrite_wdt ag _ _ (by decide) (by decide)]
  refine (if_pos rfl).trans ?_
  simp only [en, pause, if_true]
  by_cases h : ag = .svc
  · subst h
    simp [Chip.wdtDbgpause]
  · cases hp : s.bit F.WDT_CTL_DBGPAUSE <;> simp [h, Chip.wdtDbgpause]

/-! ### The obligation -/

/-- Settles O56: each command by its equation, over the cases of its guards. -/
theorem timeBases : Obligations.TimeBases := by
  unfold Obligations.TimeBases
  refine ⟨fun s ag n hn => ?_, Chip.pairHigh_iff, fun s n => ⟨fun no => ?_, fun on low v x hv p0 p1 hx => ?_, fun hn b => ?_⟩, fun s ag v new hnew => ?_,
    fun s x => ?_, fun s x y acc m hacc hm hx hy => ?_, fun s ag v k => ?_, fun s ag => ?_, fun s ag v b => ?_⟩
  · have enable {d : Chip} (h : s.tmrEnable ag n = d) : s.gives (.tmrEnable ag n) d := Chip.gives_of h fun q => exec_tmrEnable ⟨q, s⟩ ag n hn
    refine ⟨fun no => enable ?_, fun own => ⟨fun on => enable ?_, fun off => ?_⟩, fun low x hx => ?_, fun c v x hc hx => ?_,
      fun q => exec_tmrCaprRead ⟨q, s⟩ ag n hn, fun q => exec_tmrCapfRead ⟨q, s⟩ ag n hn⟩
    · exact (if_neg (by omega)).trans (if_pos (by simp [no]))
    · exact (if_neg (by omega)).trans ((if_neg (by simp [own])).trans (if_pos (by rw [s.tmrOn_of_lt hn, on])))
    · have refused {code : Nat} (h : s.tmrCheck n = code) (no : code ≠ Rc.OK) : s.gives (.tmrEnable ag n) (s.tmrReason n code) := by
        subst h
        exact enable (Chip.tmrEnable_refused hn own off no)
      refine ⟨fun h => refused (Chip.tmrCheck_range h) (by decide), fun src ev high => refused (Chip.tmrCheck_high src ev high) (by decide),
        refused rfl, fun ok src => ?_, fun ok src held => ?_, fun ok src none y hy => ?_⟩
      · rw [Chip.tmrEnable_lf hn own off ok src] at enable
        exact ⟨fun h => enable (if_neg (Nat.not_le.2 h)), fun h => enable (if_pos h)⟩
      · rw [Chip.tmrEnable_granted hn own off ok src held] at enable
        exact ⟨fun h => enable (if_neg (by omega)), fun h => enable (if_pos h)⟩
      · rw [Chip.tmrEnable_claims hn own off ok src none, ← hy] at enable
        exact ⟨fun h => enable (if_pos h), fun h depth => enable ((if_neg (by simp [h])).trans (if_neg (by omega))),
          fun h depth => enable ((if_neg (by simp [h])).trans (if_pos depth))⟩
    · subst hx
      exact if_neg (by simp [low])
    · have write {d : Chip} (h : s.tmrCmpWrite ag n c v = d) : s.gives (.tmrCmpWrite ag n c v) d := Chip.gives_of h fun q => exec_tmrCmpWrite ⟨q, s⟩ ag n c v hn hc
      refine ⟨fun no => write ((if_neg (by omega)).trans (if_pos (by simp [no]))), fun own => ?_⟩
      rw [Chip.tmrCmpWrite_owned hn hc own, ← hx] at write
      refine ⟨fun off => write (if_pos off), fun on high => write ((if_neg (by simp [on])).trans (if_pos high)), fun on high low => write ?_⟩
      refine (if_neg (by simp [on])).trans ((if_neg (by simp [high])).trans ?_)
      rw [Chip.tmrValue, if_neg (by simp [low])]
  · exact Chip.gives_of (e := s.timerWrap n) (if_pos (by simpa using no)) fun _ => rfl
  · have wrap {d : Chip} (h : s.timerWrap n = d) : s.gives (.timerPrescalerWrap n) d := Chip.gives_of h fun _ => rfl
    rw [Chip.timerWrap_plain on low hv p0 p1 hx] at wrap
    refine ⟨fun h0 h1 hz => wrap ?_, fun h0 h1 hz => wrap ?_, fun h0 h1 hz => wrap ?_, fun h0 h1 hz => wrap ?_⟩
    · simp [h0, h1, hz]
    · simp [h0, h1, hz]
    · simp [h0, h1, hz]
    · simp [h0, h1, if_pos hz]
  · have edge {d : Chip} (h : s.inputEdge (Mean.TMR_CAP n) b (fun s => s.captureEdge n b) = d) : s.gives (.timerCaptureEdge n b) d :=
      Chip.gives_of ((s.ofIdx_lt _ hn).trans h) fun _ => rfl
    refine ⟨fun none => edge (Chip.inputEdge_none _ none), fun p x pin hx => ?_⟩
    have regs : x.regs = s.regs := by rw [hx]; rfl
    have same (f : Fld) : x.bit f = s.bit f := by rw [hx]; rfl
    have onSame : x.tmrOn n = s.tmrOn n := by rw [hx]; rfl
    have highSame : x.pairHigh n = s.pairHigh n := by rw [hx]; rfl
    rw [Chip.inputEdge_some _ pin, ← hx] at edge
    refine ⟨fun no => edge ?_, fun was is en on low => ?_⟩
    · split
      next moved =>
        refine Chip.captureEdge_idle ?_
        rw [same, onSame, highSame]
        simpa [moved.1, moved.2] using no
      next => rfl
    · rw [if_pos ⟨was, is⟩] at edge
      rw [← same] at en
      rw [← onSame] at on
      rw [← highSame] at low
      refine ⟨fun rise new => ?_, fun rise new => ?_, fun fall new => ?_, fun fall new => ?_⟩
      · subst rise
        rw [Chip.captureEdge_rise hn en on low, if_neg (by simp [same, new])] at edge
        exact edge rfl
      · subst rise
        rw [Chip.captureEdge_rise hn en on low, if_pos (by simp [same, new])] at edge
        exact edge rfl
      · subst fall
        rw [Chip.captureEdge_fall hn en on low, if_neg (by simp [same, new])] at edge
        exact edge rfl
      · subst fall
        rw [Chip.captureEdge_fall hn en on low, if_pos (by simp [same, new])] at edge
        exact edge rfl
  · have write {d : Chip} (h : s.tmrOwnWrite ag v = d) : s.gives (.tmrOwnWrite ag v) d := Chip.gives_of h fun _ => rfl
    refine ⟨fun locked => write (if_pos locked), fun free => ?_⟩
    obtain ⟨other, mine⟩ := Chip.tmrOwnWrite_unlocked (ag := ag) hnew free
    refine ⟨fun all good => write ?_, fun all some bad => write ?_, fun h => write (other h), fun own on => write ((mine own).1 on)⟩
    · exact ((mine fun n hn hc => (all n hn hc).1).2 fun n hn hc => (all n hn hc).2).2 good
    · exact ((mine fun n hn hc => (all n hn hc).1).2 fun n hn hc => (all n hn hc).2).1 some bad
  · have first {d : Chip} (h : s.lfxoFirstEdge = d) : s.gives .lfxoFirstEdge d := Chip.gives_of h fun _ => rfl
    have timeout {d : Chip} (h : s.lfxoStartTimeout = d) : s.gives .lfxoStartTimeout d := Chip.gives_of h fun _ => rfl
    refine ⟨fun on => ⟨first (if_pos on), timeout (if_pos (by simp [on]))⟩, fun off => ⟨fun l y hy => first ?_, fun early => timeout (if_pos (by simp [early])), fun late hx => timeout ?_⟩,
      fun hx => Chip.gives_of (e := s.lfxoStop) ?_ fun _ => rfl, fun hx => Chip.gives_of (e := s.lfxoRestored) ?_ fun _ => rfl⟩
    · rw [Chip.lfxoFirstEdge, if_neg (by simp [off]), ← hy]
    · rw [hx]
      exact if_neg (by simp [off, late])
    · rw [hx]
      rfl
    · rw [hx]
      rfl
  · have boundary {d : Chip} (h : s.secondBoundary = d) : s.gives .secondBoundary d := Chip.gives_of h fun _ => rfl
    have eq : s.secondBoundary = if y.bit F.RTC_CFG_ALMEN && s.reg R.RTC_SEC + 1 = y.reg R.RTC_ALARM then
        (((y.setBit F.RTC_STAT_ALMF true).setBit F.RTC_CFG_ALMEN false).occ 17).wakeEvent 5 10 else y := by
      subst hacc hm hx hy
      rfl
    rw [eq] at boundary
    refine ⟨fun no => boundary (if_neg fun h => ?_), fun en alarm => boundary (if_pos (by simp [en, alarm]))⟩
    rw [Bool.and_eq_true, decide_eq_true_iff] at h
    exact no.elim (fun off => Bool.false_ne_true (off.symm.trans h.1)) fun other => other h.2.symm
  · have secRead {d : Chip} (h : { (s.rtcSecRead ag).2 with rdata := (s.rtcSecRead ag).1 } = d) : s.gives (.rtcSecRead ag) d := Chip.gives_of h fun _ => rfl
    have apply {d : Chip} (h : s.rtcSecApply = d) : s.gives .rtcSecWriteApply d := Chip.gives_of h fun _ => rfl
    have trim {d : Chip} (h : s.rtcTrimWrite v = d) : s.gives (.rtcTrimWrite ag v) d := Chip.gives_of h fun _ => rfl
    have alarm {d : Chip} (h : s.rtcAlarmWrite v = d) : s.gives (.rtcAlarmWrite ag v) d := Chip.gives_of h fun _ => rfl
    have cfg {d : Chip} (h : s.rtcCfgWrite v = d) : s.gives (.rtcCfgWrite ag v) d := Chip.gives_of h fun _ => rfl
    refine ⟨fun _ => rfl, fun none => secRead ?_, fun held => secRead ?_, fun _ => rfl, fun none => apply ?_, fun some x y hx hy => ?_, fun h => trim (if_pos h),
      fun h x hx => trim ?_, fun en past => alarm (if_pos (by simp [en, past])), fun no => alarm (if_neg ?_), fun en past => cfg (if_pos (by simp [en, past])), fun no => cfg (if_neg ?_)⟩
    · simp only [Chip.rtcSecRead, none]
    · simp only [Chip.rtcSecRead, held]
    · simp only [Chip.rtcSecApply, none]
    · subst hx
      rw [Chip.rtcSecApply_some some, ← hy] at apply
      exact ⟨fun en past => apply (if_pos (by simp [en, past])), fun no => apply (if_neg (by rcases no with h | h <;> simp [h]))⟩
    · subst hx
      exact if_neg h
    · rcases no with h | h <;> simp [h]
    · rcases no with h | h <;> simp [h]
  · have enable {d : Chip} (h : s.fldWrite ag F.WDT_CTL_EN 1 = d) : s.gives (.wdtEnable ag) d := Chip.gives_of h fun _ => rfl
    rw [Chip.fldWrite_wdtEn] at enable
    have free (h : ag = .svc ∨ s.bit F.WDT_CTL_DBGPAUSE = false) : ¬(ag ≠ .svc ∧ s.bit F.WDT_CTL_DBGPAUSE = true) := by
      rcases h with h | h <;> simp [h]
    refine ⟨fun other paused => enable (if_pos ⟨other, paused⟩), fun h on => enable ((if_neg (free h)).trans (if_pos on)), fun h off y hy => enable ((if_neg (free h)).trans ?_)⟩
    subst hy
    exact if_neg (by simp [off])
  · have kick {d : Chip} (h : s.wdtKick v = d) : s.gives (.wdtKick ag v) d := Chip.gives_of h fun _ => rfl
    have warn {d : Chip} (h : s.wdtWarning = d) : s.gives .wdtWarning d := Chip.gives_of h fun _ => rfl
    have expire {d : Chip} (h : s.wdtExpiry = d) : s.gives .wdtExpiry d := Chip.gives_of h fun _ => rfl
    have pause {ag : Agent} {d : Chip} (h : s.wdtDbgpause ag b = d) : s.gives (.wdtDbgpauseWrite ag b) d := Chip.gives_of h fun _ => rfl
    refine ⟨fun off => ⟨kick (if_pos (by simp [off])), warn (if_neg (by simp [off])), expire (if_neg (by simp [off]))⟩, fun on => ?_,
      fun same => pause ((if_neg (Classical.not_not.2 rfl)).trans (if_pos same)), fun new => pause ((if_neg (Classical.not_not.2 rfl)).trans (if_neg new)), fun other => pause (if_pos other)⟩
    have kicked : s.wdtKick v = _ := if_neg (by simp [on])
    exact ⟨fun wrong => kick (kicked.trans (if_pos wrong)), fun right early => kick (kicked.trans ((if_neg (Classical.not_not.2 right)).trans (if_pos early))),
      fun right late => kick (kicked.trans ((if_neg (Classical.not_not.2 right)).trans (if_neg (Nat.not_lt.2 late)))),
      fun en => warn (if_pos (by simp [on, en])), fun no => warn (if_neg (by simp [no])), expire (if_pos on)⟩

end Sys2Proof.Machine
end

section
/-!
PROOFS. Interrupts and event routing.
-/
namespace Sys2Proof.Machine

/-! ### The presented source -/

/-- What the examination of one more source makes of the best one so far. -/
def Chip.betterSource (s : Chip) (t : Nat) (best : Option Nat) (n : Nat) : Option Nat :=
  if s.presented t n then
    match best with
    | none => some n
    | some b => if s.fld (F.ICU_SRC_PRIO b) < s.fld (F.ICU_SRC_PRIO n) then some n else best
  else best

theorem Chip.bestSource_eq (s : Chip) (t : Nat) : s.bestSource t = ((List.range 95).map (· + 1)).foldl (s.betterSource t) none := rfl

theorem Chip.betterSource_absent {s : Chip} {t n : Nat} (best : Option Nat) (h : s.presented t n = false) : s.betterSource t best n = best :=
  if_neg (by simp [h])

theorem Chip.betterSource_first {s : Chip} {t n : Nat} (h : s.presented t n = true) : s.betterSource t none n = some n := if_pos h

theorem Chip.betterSource_second {s : Chip} {t n : Nat} (b : Nat) (h : s.presented t n = true) :
    s.betterSource t (some b) n = if s.fld (F.ICU_SRC_PRIO b) < s.fld (F.ICU_SRC_PRIO n) then some n else some b := if_pos h

/-- `best` is the presented source of the first `k` with the highest priority, and among equals the lowest number. -/
def Chip.BestOf (s : Chip) (t k : Nat) : Option Nat → Prop
  | none => ∀ n, 1 ≤ n → n ≤ k → s.presented t n = false
  | some n => 1 ≤ n ∧ n ≤ k ∧ s.presented t n = true
    ∧ ∀ m, 1 ≤ m → m ≤ k → s.presented t m = true → s.fld (F.ICU_SRC_PRIO m) < s.fld (F.ICU_SRC_PRIO n) ∨ s.fld (F.ICU_SRC_PRIO m) = s.fld (F.ICU_SRC_PRIO n) ∧ n ≤ m

theorem Chip.BestOf.step {s : Chip} {t k : Nat} {best : Option Nat} (h : s.BestOf t k best) : s.BestOf t (k + 1) (s.betterSource t best (k + 1)) := by
  cases new : s.presented t (k + 1)
  case false =>
    rw [Chip.betterSource_absent best new]
    have old {m : Nat} (hm : m ≤ k + 1) (pm : s.presented t m = true) : m ≤ k := by
      rcases Nat.lt_or_eq_of_le hm with lt | rfl
      · omega
      · rw [new] at pm
        exact absurd pm Bool.false_ne_true
    cases best with
    | none =>
      intro m h1 hm
      refine Bool.eq_false_iff.2 fun pm => ?_
      rw [h m h1 (old hm pm)] at pm
      exact Bool.false_ne_true pm
    | some b =>
      obtain ⟨b1, bk, pb, top⟩ := h
      exact ⟨b1, by omega, pb, fun m h1 hm pm => top m h1 (old hm pm) pm⟩
  case true =>
    cases best with
    | none =>
      rw [Chip.betterSource_first new]
      refine ⟨by omega, Nat.le_refl _, new, fun m h1 hm pm => ?_⟩
      rcases Nat.lt_or_eq_of_le hm with lt | rfl
      · rw [h m h1 (by omega)] at pm
        exact absurd pm Bool.false_ne_true
      · exact .inr ⟨rfl, Nat.le_refl _⟩
    | some b =>
      obtain ⟨b1, bk, pb, top⟩ := h
      rw [Chip.betterSource_second b new]
      split
      next higher =>
        refine ⟨by omega, Nat.le_refl _, new, fun m h1 hm pm => ?_⟩
        rcases Nat.lt_or_eq_of_le hm with lt | rfl
        · have := top m h1 (by omega) pm
          omega
        · exact .inr ⟨rfl, Nat.le_refl _⟩
      next lower =>
        refine ⟨b1, by omega, pb, fun m h1 hm pm => ?_⟩
        rcases Nat.lt_or_eq_of_le hm with lt | rfl
        · exact top m h1 (by omega) pm
        · omega

theorem Chip.bestOf_fold (s : Chip) (t k : Nat) : s.BestOf t k (((List.range k).map (· + 1)).foldl (s.betterSource t) none) := by
  induction k with
  | zero =>
    intro n h1 h0
    omega
  | succ k ih =>
    rw [List.range_succ, List.map_append, List.foldl_append]
    exact ih.step

theorem Chip.bestOf_bestSource (s : Chip) (t : Nat) : s.BestOf t 95 (s.bestSource t) := s.bestOf_fold t 95

theorem Chip.bestSource_none_iff (s : Chip) (t : Nat) : s.bestSource t = none ↔ ∀ n, 1 ≤ n → n ≤ 95 → s.presented t n = false := by
  have h := s.bestOf_bestSource t
  cases e : s.bestSource t with
  | none =>
    rw [e] at h
    exact ⟨fun _ => h, fun _ => rfl⟩
  | some n =>
    rw [e] at h
    obtain ⟨n1, nk, pn, -⟩ := h
    refine ⟨fun no => (nomatch no), fun all => ?_⟩
    rw [all n n1 nk] at pn
    exact absurd pn Bool.false_ne_true

theorem Chip.icuClaimRead_other {s : Chip} {ag : Agent} {t : Nat} (h : answersTarget ag t = false) :
    s.icuClaimRead ag t = (0, s.setReason R.ICU_STAT Rc.SECURITY) := if_neg (by simp [h])

theorem Chip.icuClaimRead_none {s : Chip} {ag : Agent} {t : Nat} (h : answersTarget ag t = true) (none : s.bestSource t = none) :
    s.icuClaimRead ag t = (s.icu.record.getD t 0, { s with icu := { s.icu with record := setAt s.icu.record t 0 } }) := by
  rw [Chip.icuClaimRead, if_pos h, Chip.icuClaim, none]

theorem Chip.icuClaimRead_some {s x : Chip} {ag : Agent} {t n : Nat} (h : answersTarget ag t = true) (some : s.bestSource t = some n)
    (hx : x = ((s.recordLoss n 1023 t).unpend n 2).setFld (F.ICU_SRC_BY n) t) :
    s.icuClaimRead ag t = (n, { x with icu := { x.icu with record := setAt x.icu.record t 0 } }) := by
  rw [Chip.icuClaimRead, if_pos h, Chip.icuClaim, some, hx]

/-! ### Source fields -/

/-- The bits of a source's word that an agent may write. -/
def srcMay (ag : Agent) (b : Nat) : Bool := (ag = .foxA || ag = .svc) || (4 ≤ b && b = 4 + ag.code)

/-- What a write of a source leaves of its old bits. -/
def srcMerged (ag : Agent) (old new0 : Nat) : Nat := (List.range 8).foldl (fun acc b => if srcMay ag b then putBit acc b (bitOf new0 b) else acc) old

theorem testBit_putWhere (may f : Nat → Bool) (l : List Nat) (m k : Nat) :
    (l.foldl (fun acc b => if may b then putBit acc b (f b) else acc) m).testBit k = if k ∈ l ∧ may k = true then f k else m.testBit k := by
  induction l generalizing m with
  | nil => simp
  | cons n l ih =>
    rw [List.foldl_cons, ih]
    by_cases hl : k ∈ l <;> by_cases hk : k = n <;> cases hm : may n <;> simp_all [testBit_putBit]

theorem testBit_srcMerged (ag : Agent) (old new0 k : Nat) :
    (srcMerged ag old new0).testBit k = if k < 8 ∧ srcMay ag k = true then new0.testBit k else old.testBit k := by
  rw [srcMerged, testBit_putWhere]
  simp [bitOf]

theorem srcMerged_all {ag : Agent} {old new0 : Nat} (h : ag = .foxA ∨ ag = .svc) (lo : old < 2 ^ 8) (ln : new0 < 2 ^ 8) : srcMerged ag old new0 = new0 := by
  refine Nat.eq_of_testBit_eq fun k => ?_
  have may : srcMay ag k = true := by rcases h with rfl | rfl <;> rfl
  rw [testBit_srcMerged]
  split
  next => rfl
  next h =>
    have hk : 8 ≤ k := Nat.not_lt.1 fun lt => h ⟨lt, may⟩
    rw [Nat.testBit_lt_two_pow (Nat.lt_of_lt_of_le lo (Nat.pow_le_pow_right (by decide) hk)),
      Nat.testBit_lt_two_pow (Nat.lt_of_lt_of_le ln (Nat.pow_le_pow_right (by decide) hk))]

theorem srcMerged_own {ag : Agent} (old new0 : Nat) (h : ag ≠ .foxA) (h' : ag ≠ .svc) :
    srcMerged ag old new0 = putBit old (4 + ag.code) (bitOf new0 (4 + ag.code)) := by
  have code : ag.code < 4 := by
    cases ag
    case svc => exact absurd rfl h'
    all_goals decide
  refine Nat.eq_of_testBit_eq fun k => ?_
  rw [testBit_srcMerged, testBit_putBit, bitOf]
  by_cases hk : k = 4 + ag.code
  · subst hk
    rw [if_pos rfl, if_pos ⟨by omega, by simp [srcMay]⟩]
  · rw [if_neg hk, if_neg (by simp [srcMay, h, h', hk])]

theorem bitOf_highest (w : Nat) : bitOf (bits w 7 4) 3 = bitOf w 7 := by
  rw [bitOf, bits, bitOf, Nat.testBit_mod_two_pow, Nat.testBit_shiftRight]
  rfl

/-- A write of a source's word, unlocked, by what it leaves of the old bits. -/
theorem Chip.icuSrcWrite_unlocked {s : Chip} {ag : Agent} {n old new0 new : Nat} {v : Word} (h1 : 1 ≤ n) (h95 : n ≤ 95)
    (ho : old = (s.reg (R.ICU_SRC n)).toNat % 256) (h0 : new0 = if nativeLevel n then v.toNat % 256 else v.toNat % 256 ||| 8)
    (hn : new = srcMerged ag old new0) (free : s.lockedSec 10 = false) :
    s.icuSrcWrite ag n v =
      if bitOf new 7 && bits new 7 4 ≠ 8 then s.setReason R.ICU_STAT Rc.COMBINATION
      else
        let x := (s.setFld ⟨R.ICU_SRC n, 7, 0⟩ new).setReason R.ICU_STAT (if new = new0 then Rc.OK else Rc.SECURITY)
        if bitOf new 3 ≠ bitOf old 3 then x.retrig n else x := by
  have low (w : Nat) : bits w 7 0 = w % 256 := rfl
  have native : (if nativeLevel n then bits v.toNat 7 0 else bits v.toNat 7 0 ||| 8) = new0 := by rw [h0, low]
  rw [Chip.icuSrcWrite, if_neg (by omega), native]
  refine (if_neg (by simp [free])).trans ?_
  simp only [low, ← ho]
  rw [show (List.range 8).foldl (fun acc b => if (decide (ag = .foxA) || decide (ag = .svc)) || (decide (4 ≤ b) && decide (b = 4 + ag.code)) then
    putBit acc b (bitOf new0 b) else acc) old = new from hn.symm, bitOf_highest]

/-! ### Tasks -/

theorem put_command : Fld.put F.NFC_CMD_POLL 0 1 = 1 ∧ Fld.put F.EGY_CTL_MEAS 0 1 = 2 ∧ Fld.put F.MON_CTL_REPLAN 0 1 = 2
    ∧ Fld.put F.SYN_CMD_CAL 0 1 = 1 ∧ Fld.put F.RFE_CMD_BGCAL 0 1 = 1 := by decide

/-- The tasks that are a command's write by the subscription's owner. -/
theorem Chip.taskAction_commands (s : Chip) :
    s.taskAction 24 = s.taskCmd 24 R.NFC_STAT (fun c => c.regWrite (Agent.ofCode (s.fld (F.EVR_TSUB_OWNER 24))) R.NFC_CMD 1)
    ∧ s.taskAction 25 = s.taskCmd 25 R.EGY_STAT (fun c => c.regWrite (Agent.ofCode (s.fld (F.EVR_TSUB_OWNER 25))) R.EGY_CTL 2)
    ∧ s.taskAction 26 = s.taskCmd 26 R.MON_STAT (fun c => c.regWrite (Agent.ofCode (s.fld (F.EVR_TSUB_OWNER 26))) R.MON_CTL 2)
    ∧ s.taskAction 27 = s.taskCmd 27 R.SYN_STAT (fun c => c.regWrite (Agent.ofCode (s.fld (F.EVR_TSUB_OWNER 27))) R.SYN_CMD 1)
    ∧ s.taskAction 28 = s.taskCmd 28 R.RFE_STAT (fun c => c.regWrite (Agent.ofCode (s.fld (F.EVR_TSUB_OWNER 28))) R.RFE_CMD 1) := by
  obtain ⟨nfc, egy, mon, syn, rfe⟩ := put_command
  have poll : s.taskAction 24 = s.taskCmd 24 R.NFC_STAT (fun c => c.regWrite (Agent.ofCode (s.fld (F.EVR_TSUB_OWNER 24))) R.NFC_CMD (F.NFC_CMD_POLL.put 0 1)) := rfl
  have meas : s.taskAction 25 = s.taskCmd 25 R.EGY_STAT (fun c => c.regWrite (Agent.ofCode (s.fld (F.EVR_TSUB_OWNER 25))) R.EGY_CTL (F.EGY_CTL_MEAS.put 0 1)) := rfl
  have replan : s.taskAction 26 = s.taskCmd 26 R.MON_STAT (fun c => c.regWrite (Agent.ofCode (s.fld (F.EVR_TSUB_OWNER 26))) R.MON_CTL (F.MON_CTL_REPLAN.put 0 1)) := rfl
  have cal : s.taskAction 27 = s.taskCmd 27 R.SYN_STAT (fun c => c.regWrite (Agent.ofCode (s.fld (F.EVR_TSUB_OWNER 27))) R.SYN_CMD (F.SYN_CMD_CAL.put 0 1)) := rfl
  have bgcal : s.taskAction 28 = s.taskCmd 28 R.RFE_STAT (fun c => c.regWrite (Agent.ofCode (s.fld (F.EVR_TSUB_OWNER 28))) R.RFE_CMD (F.RFE_CMD_BGCAL.put 0 1)) := rfl
  rw [poll, meas, replan, cal, bgcal, nfc, egy, mon, syn, rfe]
  exact ⟨rfl, rfl, rfl, rfl, rfl⟩

/-- A read of a task's status clears its counts. -/
theorem tstat_row : ∀ t < 32, (regRow (R.EVR_TSTAT t)).map RegRow.rc = some 0xFF := by decide

theorem Chip.regRead_tstat (s : Chip) (ag : Agent) {t : Nat} (h : t < 32) :
    s.regReadN ag t 32 (R.EVR_TSTAT t) = { s.setReg (R.EVR_TSTAT t) (s.reg (R.EVR_TSTAT t) &&& ~~~ 0xFF#36) with rdata := s.reg (R.EVR_TSTAT t) } := by
  obtain ⟨row, hrow, rc⟩ := Option.map_eq_some_iff.1 (tstat_row t h)
  have plain : s.plainRead (R.EVR_TSTAT t) = s.readClear (R.EVR_TSTAT t) 0xFF := by
    simp only [Chip.plainRead, hrow, rc]
    rfl
  rw [Chip.regReadN, s.ofIdx_lt _ h, s.regRead_evr ag _ (by simp only [R.EVR_TSTAT]; omega) (by simp only [R.EVR_TSTAT]; omega), Chip.readEvr,
    if_neg (by simp only [R.EVR_TSTAT, R.EVR_FLAG0]; omega), if_neg (by simp only [R.EVR_TSTAT, R.EVR_FLAG1]; omega), plain]
  rfl

/-- A task that is due acts, once for all pulses of its cycle. -/
theorem Chip.taskFire_due {s x y : Chip} {t k : Nat} {both : Bool} (h : s.evr.fire.find? (fun p => p.1 = t && p.2.1 ≤ s.now) = some (t, k, both))
    (hx : x = { s with evr := { s.evr with fire := s.evr.fire.filter (fun p => p.1 ≠ t || p.2.1 ≠ k) } })
    (hy : both = true ∧ y = (x.setBit (F.EVR_TSTAT_COIN t) true).count (F.EVR_TSTAT_COINCNT t) ∨ both = false ∧ y = x) : s.taskFire t = y.taskAction t := by
  have both' : (if both then (x.setBit (F.EVR_TSTAT_COIN t) true).count (F.EVR_TSTAT_COINCNT t) else x) = y := by
    rcases hy with ⟨rfl, rfl⟩ | ⟨rfl, rfl⟩ <;> rfl
  simp only [Chip.taskFire, h, ← hx, both']

theorem Chip.evrRefuse_plain (s : Chip) {code : Nat} (h : code ≠ Rc.SECURITY) : s.evrRefuse code = s.setReason R.EVR_STAT code := if_neg h

/-! ### The obligation -/

/-- Settles O57: each command by its equation, over the cases of its guards; the presented source by induction over the sources examined. -/
theorem interruptsAndEvents : Obligations.InterruptsAndEvents := by
  unfold Obligations.InterruptsAndEvents
  refine ⟨fun s t => ⟨s.bestSource_none_iff t, fun n hn => ?_⟩, fun s ag t ht => ?_, fun s ag n old new0 new v x h1 h95 ho h0 hw hx => ?_, fun s ag v => Chip.gives_of (e := s.icuSwset v) rfl fun _ => rfl, fun s n t => ?_,
    fun s ag c new code v hc hn hcode => ?_, fun s ag t new code v ht hn hcode => ?_, fun s ag v c hc => ?_, fun s x y t => ?_, fun s k b => ?_⟩
  · have h := s.bestOf_bestSource t
    rw [hn] at h
    exact h
  · have claim {m : Nat} {c : Chip} (h : s.icuClaimRead ag t = (m, c)) : s.gives (.icuClaimRead ag t) { c with rdata := W m } := fun q => by
      rw [exec_icuClaimRead ⟨q, s⟩ ag t ht, h]
    have done {v : Word} {d : Chip} (h : s.icuDone ag t (v.toNat % 1024) = d) : s.gives (.icuDoneWrite ag t v) d := Chip.gives_of h fun q => exec_icuDoneWrite ⟨q, s⟩ ag t v ht
    have other (no : answersTarget ag t = false) := claim (Chip.icuClaimRead_other no)
    refine ⟨fun no => ⟨other no, fun v => done (if_pos (by simp [no]))⟩, fun may => ⟨fun none => ?_, fun n x hn hx => ?_, fun v n hn => ⟨fun no => ?_, fun h1 h95 st by' x y hx hy => ⟨fun again => ?_, fun once => ?_⟩⟩⟩⟩
    · have h := claim (Chip.icuClaimRead_none may none)
      exact h
    · have h := claim (Chip.icuClaimRead_some may hn hx)
      exact h
    · subst hn
      exact done ((if_neg (by simp [may])).trans (if_pos no))
    · subst hn hx hy
      refine done ((if_neg (by simp [may])).trans ((if_neg (by omega)).trans (if_pos ?_)))
      rcases again with ⟨tr, h⟩ | ⟨tr, h⟩ <;> simpa [tr] using h
    · subst hn hx hy
      refine done ((if_neg (by simp [may])).trans ((if_neg (by omega)).trans (if_neg ?_)))
      rcases once with ⟨tr, h⟩ | ⟨tr, h⟩ <;> simpa [tr] using h
  · have write {d : Chip} (h : s.icuSrcWrite ag n v = d) : s.gives (.icuSrcWrite ag n v) d := Chip.gives_of h fun q => exec_icuSrcWrite ⟨q, s⟩ ag n v (by omega) h1
    refine ⟨fun locked => write ((if_neg (by omega)).trans (if_pos locked)), fun free => ?_⟩
    have merged : new = srcMerged ag old new0 := by
      rcases hw with ⟨all, rfl⟩ | ⟨a, b, rfl⟩
      · refine (srcMerged_all all (by omega) ?_).symm
        rw [h0]
        split
        · omega
        · exact Nat.or_lt_two_pow (by omega) (by decide)
      · exact (srcMerged_own _ _ a b).symm
    rw [Chip.icuSrcWrite_unlocked h1 h95 ho h0 merged free, ← hx] at write
    refine ⟨fun high more => write (if_pos (by simp [high, more])), fun ok => ?_⟩
    have pass : ¬(bitOf new 7 && bits new 7 4 ≠ 8) = true := by rcases ok with h | h <;> simp [h]
    exact ⟨fun same => write ((if_neg pass).trans (if_neg (Classical.not_not.2 same))), fun other => write ((if_neg pass).trans (if_pos other))⟩
  · have fall {d : Chip} (h : s.levelFall n = d) : s.gives (.levelRequestFall n) d := Chip.gives_of h fun _ => rfl
    have coal {d : Chip} (h : s.coalExpiry t n = d) : s.gives (.coalExpiry t n) d := Chip.gives_of h fun _ => rfl
    refine ⟨fun h1 h95 trig st low => fall (if_pos ⟨h1, h95, trig, st, by simp [low]⟩), fun no => fall (if_neg ?_),
      fun pres ripe since => coal (if_pos ⟨pres, by simp only [ripe]; rfl, since⟩), fun no => coal (if_neg ?_)⟩
    · rintro ⟨h1, h95, trig, st, low⟩
      rcases no with h | h | h | h | h
      · omega
      · omega
      · exact h trig
      · exact h st
      · rw [h] at low
        exact Bool.false_ne_true low
    · rintro ⟨pres, ripe, since⟩
      rcases no with h | h | h
      · exact Bool.false_ne_true (h.symm.trans pres)
      · rw [h] at ripe
        exact Bool.false_ne_true ripe
      · exact Bool.false_ne_true (h.symm.trans since)
  · have write {d : Chip} (h : s.evrChWrite ag c v = d) : s.gives (.evrChWrite ag c v) d := Chip.gives_of h fun q => exec_evrChWrite ⟨q, s⟩ ag c v hc
    subst hn
    refine ⟨fun free no => write ?_, fun locked => write ?_, fun own free => ⟨fun bad => ?_, fun ok => write ?_, fun no => write ?_⟩⟩
    · exact (if_neg (by omega)).trans ((if_neg (by simp [free])).trans ((if_pos (by simp [no])).trans (s.evrRefuse_plain (by decide))))
    · exact (if_neg (by omega)).trans ((if_pos locked).trans (s.evrRefuse_plain (by decide)))
    · rw [hcode]
      refine if_pos ?_
      rcases bad with h | h | h
      · exact .inl h
      · exact .inr (.inl h)
      · exact .inr (.inr h)
    · rw [hcode] at ok
      exact (if_neg (by omega)).trans ((if_neg (by simp [free])).trans ((if_neg (by simp [own])).trans (if_pos ok)))
    · rw [hcode] at no ⊢
      exact (if_neg (by omega)).trans ((if_neg (by simp [free])).trans ((if_neg (by simp [own])).trans (if_neg no)))
  · have write {d : Chip} (h : s.evrTsubWrite ag t v = d) : s.gives (.evrTsubWrite ag t v) d := Chip.gives_of h fun q => exec_evrTsubWrite ⟨q, s⟩ ag t v ht
    subst hn
    refine ⟨fun free no => write ?_, fun locked => write ?_, fun own free => ?_, Chip.gives_of (e := s.regReadN ag t 32 (R.EVR_TSTAT t)) (s.regRead_tstat ag ht) fun _ => rfl⟩
    · exact (if_neg (by omega)).trans ((if_neg (by simp [free])).trans ((if_pos (by simp [no])).trans (s.evrRefuse_plain (by decide))))
    · exact (if_neg (by omega)).trans ((if_pos locked).trans (s.evrRefuse_plain (by decide)))
    · have checked : s.evrTsubWrite ag t v = if code = Rc.OK then (s.setFld ⟨R.EVR_TSUB t, 13, 0⟩ (v.toNat % 2 ^ 14)).setReason R.EVR_STAT Rc.OK else s.evrRefuse code := by
        rw [hcode]
        exact (if_neg (by omega)).trans ((if_neg (by simp [free])).trans (if_neg (by simp [own])))
      rw [checked] at write
      refine ⟨fun high en => ?_, fun ok => write (if_pos ok), fun no other => write ((if_neg no).trans (s.evrRefuse_plain other)), fun sec => write ?_⟩
      · rw [hcode]
        refine if_pos ?_
        rcases en with h | h <;> simp [-Nat.reducePow, high, h]
      · rw [sec]
        rfl
  · have pub {d : Chip} (h : s.evrSwpub ag v = d) : s.gives (.evrSwpubWrite ag v) d := Chip.gives_of h fun _ => rfl
    have low : bits v.toNat 5 0 = v.toNat % 64 := rfl
    rw [Chip.evrSwpub, low, ← hc] at pub
    refine ⟨fun h => pub (if_pos h), fun h no => pub ((if_neg (by omega)).trans (if_pos no)), fun h is no => pub ((if_neg (by omega)).trans ((if_neg (Classical.not_not.2 is)).trans (if_pos no))),
      fun h is own => pub ((if_neg (by omega)).trans ((if_neg (Classical.not_not.2 is)).trans (if_neg (Classical.not_not.2 own)))), fun _ => rfl⟩
  · have fire {d : Chip} (h : s.taskFire t = d) : s.gives (.taskFire t) d := Chip.gives_of h fun _ => rfl
    refine ⟨fun none => fire ?_, fun k both due hx hy => ?_⟩
    · simp only [Chip.taskFire, none]
    · rw [Chip.taskFire_due due hx hy] at fire
      refine ⟨fun h => fire (if_pos h), fun h h' => fire ((if_neg (by omega)).trans (if_pos h')), fun h h' => ?_, fun ag hag => ?_, fun h => fire ?_⟩
      · have capture : y.taskAction t = y.captureTask (t - 16) := (if_neg (by omega)).trans ((if_neg (by omega)).trans (if_pos h'))
        rw [capture] at fire
        exact ⟨fun en => fire (if_pos en), fun off => fire (if_neg (by simp [off]))⟩
      · subst hag
        obtain ⟨nfc, egy, mon, syn, rfe⟩ := y.taskAction_commands
        exact ⟨fun h => fire (h ▸ nfc), fun h => fire (h ▸ egy), fun h => fire (h ▸ mon), fun h => fire (h ▸ syn), fun h => fire (h ▸ rfe)⟩
      · refine (if_neg (by omega)).trans ((if_neg (by omega)).trans ((if_neg (by omega)).trans ?_))
        split
        case h_6 => rfl
        all_goals omega
  · refine ⟨fun no => ?_, fun p x hk pin hx => ?_⟩
    · refine Chip.gives_of (e := s.evtInEdge k b) ?_ fun _ => rfl
      rcases no with h | h
      · exact if_neg (by omega)
      · rw [Chip.evtInEdge, Chip.ofIdx]
        split
        · exact Chip.inputEdge_none _ h
        · rfl
    · have edge {d : Chip} (h : (if s.inPin p ≠ b ∧ x.inPin p = b then x.publish ((if b then 96 else 104) + k) else x) = d) : s.gives (.evtInEdge k b) d := by
        subst hx
        exact Chip.gives_of (((s.ofIdx_lt _ hk).trans (Chip.inputEdge_some _ pin)).trans h) fun _ => rfl
      refine ⟨fun no => edge (if_neg fun h => ?_), fun was is => ⟨fun rise => edge ((if_pos ⟨was, is⟩).trans (by rw [rise]; rfl)), fun fall => edge ((if_pos ⟨was, is⟩).trans (by rw [fall]; rfl))⟩⟩
      exact no.elim h.1 fun other => other h.2

end Sys2Proof.Machine
end

section
/-!
PROOFS. The flash controller and the OTP programmer.
-/
namespace Sys2Proof.Machine

/-! ### A write of FLC_CMD -/

/-- What a command does once it is the first of its cycle. -/
def Chip.flcDo (s : Chip) (op a : Nat) : Chip :=
  match op with
  | 1 => s.flcProgram a
  | 2 => s.flcErase a
  | 3 => s.sqOpen (a % 64)
  | 4 => s.sqCommitCmd (a % 64)
  | 5 => s.sqAbandon (a % 64)
  | 6 => s.sqLevel
  | 7 => s.protErase
  | 8 => s.protProg a
  | _ => s.flcReason (if s.flcBusy then Rc.BUSY else Rc.RANGE)

/-- The two fields of a command word. -/
theorem orderWord_fields {op a : Nat} (ho : op < 16) (ha : a < 2 ^ 24) :
    bits (W (op <<< 32 ||| a)).toNat 23 0 = a ∧ bits (W (op <<< 32 ||| a)).toNat 35 32 = op := by
  have sum : op <<< 32 ||| a = op * 2 ^ 32 + a := by
    rw [← Nat.shiftLeft_add_eq_or_of_lt (by omega) op, Nat.shiftLeft_eq]
  rw [sum, W, BitVec.toNat_ofNat, Nat.mod_eq_of_lt (by omega)]
  simp only [bits, Nat.shiftRight_eq_div_pow]
  omega

theorem Chip.flcOrder_eq (z : Chip) (ag : Agent) {op : Nat} (a : Nat) (ho : op < 16) :
    z.flcOrder ag op a = if z.flc.cmdAt.any (fun p => p.1 = z.now && p.2 ≠ ag) then z.flcReason Rc.BUSY
      else (z.setFlc { z.flc with cmdAt := some (z.now, ag) }).flcDo op (a % 2 ^ 24) := by
  obtain ⟨low, high⟩ := orderWord_fields ho (Nat.mod_lt a (show 0 < 2 ^ 24 by decide))
  rw [Chip.flcOrder, z.regWrite_flc ag _ _ (by decide) (by decide), Chip.writeFlc, if_neg (by decide), if_pos rfl, Chip.flcCmd, low, high]
  rfl

/-- A command whose cycle has no other agent's before it. -/
theorem Chip.flcOrder_first {z : Chip} {ag : Agent} {op : Nat} (a : Nat) (ho : op < 16) (first : ∀ b : Agent, z.flc.cmdAt = some (z.now, b) → b = ag) :
    z.flcOrder ag op a = (z.setFlc { z.flc with cmdAt := some (z.now, ag) }).flcDo op (a % 2 ^ 24) := by
  rw [z.flcOrder_eq ag a ho, if_neg]
  simp only [Option.any_eq_true, Bool.and_eq_true, decide_eq_true_eq]
  rintro ⟨⟨t, b⟩, at', rfl, other⟩
  exact other (first b at')

theorem Chip.flcOrder_second {z : Chip} {ag b : Agent} {op : Nat} (a : Nat) (ho : op < 16) (at' : z.flc.cmdAt = some (z.now, b)) (other : b ≠ ag) :
    z.flcOrder ag op a = z.flcReason Rc.BUSY := by
  rw [z.flcOrder_eq ag a ho, if_pos]
  simp [at', other]

/-! ### Checks and acceptance -/

theorem Chip.flashErased_iff (s : Chip) (a : Nat) :
    s.flashErased a = true ↔ s.flashRd a = erasedWord ∧ s.flashErrAt a = false ∧ s.flashOneAt a = false := by
  simp [Chip.flashErased, and_assoc]

theorem Chip.flcNext_nil {s : Chip} {o : FlOp} (h : o.steps = []) : s.flcNext o = s.flcPost o o.result (o.result ≠ 0) := by
  rw [Chip.flcNext, h]

/-- A command of a single word's program, accepted. -/
theorem Chip.flcAccept_prog (s : Chip) (a : Nat) (v : Word) (ha : a < 2 ^ 24) :
    s.flcAccept 1 a [.prog a v] =
      let o : FlOp := { src := .cmd, op := 1, target := a, steps := [.prog a v], limit := s.fld F.FLC_MAXPULSE_MAXPULSE, spot := a }
      (s.setFlc { s.flc with op := some o, pulsing := false, pulseTill := none, pulseAt := none }).makeClaim 6 (s.fld (F.EGY_DECL_PEAK 6)) (20 * s.fld F.FLC_MAXPULSE_MAXPULSE) false
        (s.fld (F.EGY_DECL_PCLASS 6)) none none := by
  simp only [Chip.flcAccept, Chip.flcNext, FlOp.enter, if_pos ha]
  rfl

/-- A command of a sector's erase, accepted. -/
theorem Chip.flcAccept_sector (s : Chip) (b : Nat) :
    s.flcAccept 2 b [.sector b 0] =
      let o : FlOp := { src := .cmd, op := 2, target := b, steps := s.expandSector b 0, limit := s.fld F.FLC_MAXPULSE_MAXPULSE, spot := b }
      (s.setFlc { s.flc with op := some o, pulsing := false, pulseTill := none, pulseAt := none }).flcClaim o := by
  simp only [Chip.flcAccept, Chip.flcNext, FlOp.enter, Chip.flcExpand, List.append_nil]
  rfl

/-! ### Pool sectors -/

/-- The lowest by `f` so far, the first on a tie. -/
def firstLowest (f : Nat → Nat) (best : Option Nat) (p : Nat) : Option Nat :=
  match best with
  | none => some p
  | some q => if f p < f q then some p else some q

/-- `p` is the lowest of `l` by `f`, and among equals the least. -/
def LowestOf (f : Nat → Nat) (l : List Nat) (p : Nat) : Prop := p ∈ l ∧ ∀ r ∈ l, f p < f r ∨ f p = f r ∧ p ≤ r

theorem LowestOf.unique {f : Nat → Nat} {l : List Nat} {p q : Nat} (hp : LowestOf f l p) (hq : LowestOf f l q) : p = q := by
  have a := hp.2 q hq.1
  have b := hq.2 p hp.1
  omega

theorem lowestOf_fold {f : Nat → Nat} {l : List Nat} {b : Nat} (sorted : (b :: l).Pairwise (· < ·)) :
    ∃ p, l.foldl (firstLowest f) (some b) = some p ∧ LowestOf f (b :: l) p := by
  induction l generalizing b with
  | nil => exact ⟨b, rfl, List.mem_singleton_self b, fun r hr => by simp [List.mem_singleton.1 hr]⟩
  | cons c l ih =>
    obtain ⟨hb, hcl⟩ := List.pairwise_cons.1 sorted
    have bc : b < c := hb c List.mem_cons_self
    rw [List.foldl_cons]
    by_cases h : f c < f b
    · obtain ⟨p, hp, mem, low⟩ := ih hcl
      have pc := low c List.mem_cons_self
      refine ⟨p, by simpa [firstLowest, h] using hp, List.mem_cons_of_mem _ mem, fun r hr => ?_⟩
      rcases List.mem_cons.1 hr with rfl | hr
      · omega
      · exact low r hr
    · obtain ⟨p, hp, mem, low⟩ := ih (b := b) (List.pairwise_cons.2 ⟨fun r hr => hb r (List.mem_cons_of_mem _ hr), (List.pairwise_cons.1 hcl).2⟩)
      have pb := low b List.mem_cons_self
      refine ⟨p, by simpa [firstLowest, h] using hp, ?_, fun r hr => ?_⟩
      · rcases List.mem_cons.1 mem with rfl | mem
        · exact List.mem_cons_self
        · exact List.mem_cons_of_mem _ (List.mem_cons_of_mem _ mem)
      · rcases List.mem_cons.1 hr with rfl | hr
        · exact low _ List.mem_cons_self
        · rcases List.mem_cons.1 hr with rfl | hr
          · omega
          · exact low r (List.mem_cons_of_mem _ hr)

theorem lowestOf_foldl {f : Nat → Nat} {l : List Nat} {p : Nat} (sorted : l.Pairwise (· < ·)) (h : LowestOf f l p) :
    l.foldl (firstLowest f) none = some p := by
  cases l with
  | nil => exact absurd h.1 List.not_mem_nil
  | cons b l =>
    obtain ⟨q, hq, low⟩ := lowestOf_fold (f := f) sorted
    rw [h.unique low]
    exact hq

theorem Chip.sqOf_sorted (s : Chip) (k : SqKind) : (s.sqOf k).Pairwise (· < ·) := List.Pairwise.filter _ List.pairwise_lt_range

/-- The levelling of the pool, from its lowest valid sector to a spare one. -/
def Chip.sqLevelBy (s : Chip) (low spare : Option Nat) : Chip :=
  match low, spare with
  | some p, some q =>
    let n := (s.flc.sqSeq + 1) % 2 ^ 24
    let copy := ((List.range 1020).map (· + 4)).filterMap (fun i =>
      if s.flashRd (sqBase p + i) = erasedWord then none else some (FlStep.prog (sqBase q + i) (s.flashRd (sqBase p + i))))
    (s.setFlc { s.flc with sqSeq := n }).flcAccept 6 (sqBase q)
      (.prog (sqBase q + 1) (W (s.sqL p <<< 24 ||| n)) :: (copy ++ s.sqCommitSteps q (s.sqL p)))
  | some _, none => s.flcReason 0x9D
  | none, _ => s.flcAccept 6 0 []

theorem Chip.sqLevel_due {s : Chip} (free : s.flcBusy = false) (active : s.flc.sqActive = true) (due : s.sqLevelDue = true)
    (shut : s.sqOpenSector = none) : s.sqLevel = s.sqLevelBy ((s.sqOf .valid).foldl (firstLowest s.sqCount) none) (s.sqSpare false) :=
  (if_neg (by simp [free, active])).trans ((if_neg (by simp [due])).trans (if_neg (by simp [shut])))

/-- With no sector open there is nothing to commit or to abandon. -/
theorem Chip.sqCommitCmd_shut {s : Chip} (l : Nat) (h : s.sqOpenSector = none) : s.sqCommitCmd l = s.flcReason Rc.BUSY := by
  simp only [Chip.sqCommitCmd, h]

theorem Chip.sqAbandon_shut {s : Chip} (l : Nat) (h : s.sqOpenSector = none) : s.sqAbandon l = s.flcReason Rc.BUSY := by
  simp only [Chip.sqAbandon, h]

theorem Chip.sqCommitCmd_open {s : Chip} {p : Nat} (l : Nat) (h : s.sqOpenSector = some p) :
    s.sqCommitCmd l = if s.flcBusy || !s.flc.sqActive || s.sqL p ≠ l then s.flcReason Rc.BUSY else s.flcAccept 4 (sqBase p) (s.sqCommitSteps p l) := by
  simp only [Chip.sqCommitCmd, h]

theorem Chip.sqAbandon_open {s : Chip} {p : Nat} (l : Nat) (h : s.sqOpenSector = some p) :
    s.sqAbandon l = if s.flcBusy || !s.flc.sqActive || s.sqL p ≠ l then s.flcReason Rc.BUSY
      else s.flcAccept 5 (sqBase p) (.prog (sqBase p + 3) 0 :: sqErase p (s.sqCount p + 1)) := by
  simp only [Chip.sqAbandon, h]

theorem Chip.sqCommitCmd_busy {s : Chip} (l : Nat) (h : s.flcBusy = true) : s.sqCommitCmd l = s.flcReason Rc.BUSY := by
  cases e : s.sqOpenSector with
  | none => exact Chip.sqCommitCmd_shut l e
  | some p => rw [Chip.sqCommitCmd_open l e, if_pos (by simp [h])]

theorem Chip.sqAbandon_busy {s : Chip} (l : Nat) (h : s.flcBusy = true) : s.sqAbandon l = s.flcReason Rc.BUSY := by
  cases e : s.sqOpenSector with
  | none => exact Chip.sqAbandon_shut l e
  | some p => rw [Chip.sqAbandon_open l e, if_pos (by simp [h])]

/-- A sector is opened on the spare that has the lowest count. -/
theorem Chip.sqOpen_ready {s : Chip} {l : Nat} (free : s.flcBusy = false) (lt : l < s.sqWin) (shut : s.sqOpenSector = none) (active : s.flc.sqActive = true) :
    (s.sqSpare true = none → s.sqOpen l = s.flcReason 0x9D)
    ∧ ∀ p, s.sqSpare true = some p → s.sqOpen l =
      (s.setFlc { s.flc with sqSeq := (s.flc.sqSeq + 1) % 2 ^ 24 }).flcAccept 3 (sqBase p) [.prog (sqBase p + 1) (W (l <<< 24 ||| (s.flc.sqSeq + 1) % 2 ^ 24))] := by
  have start : s.sqOpen l = _ := (if_neg (by simp [free])).trans ((if_neg (Nat.not_le.2 lt)).trans (if_neg (by simp [shut, active])))
  refine ⟨fun none => start.trans ?_, fun p some => start.trans ?_⟩
  · simp only [none]
  · simp only [some]

/-! ### Pulses -/

theorem Chip.programPulseEnd_idle {s : Chip} (b : Bool) (h : s.flc.op = none ∨ s.flc.pulsing = false) : s.programPulseEnd b = s := by
  rcases h with h | h
  · simp only [Chip.programPulseEnd, h]
  · rw [Chip.programPulseEnd, h]
    split <;> rfl

theorem Chip.erasePulseEnd_idle {s : Chip} (b : Bool) (h : s.flc.op = none ∨ s.flc.pulsing = false) : s.erasePulseEnd b = s := by
  rcases h with h | h
  · simp only [Chip.erasePulseEnd, h]
  · rw [Chip.erasePulseEnd, h]
    split <;> rfl

section
variable {s : Chip} {o : FlOp} {a : Nat} {v : Word} {l : List FlStep} (op : s.flc.op = some o) (pulsing : s.flc.pulsing = true)
include op pulsing

theorem Chip.programPulseEnd_erase (b : Bool) (steps : o.steps = .erase a :: l) : s.programPulseEnd b = s := by
  simp only [Chip.programPulseEnd, op, pulsing, steps, Bool.not_true, Bool.false_eq_true, if_false]

theorem Chip.erasePulseEnd_prog (b : Bool) (steps : o.steps = .prog a v :: l) : s.erasePulseEnd b = s := by
  simp only [Chip.erasePulseEnd, op, pulsing, steps, Bool.not_true, Bool.false_eq_true, if_false]

/-- A reset that waited for the pulse is made instead. -/
theorem Chip.programPulseEnd_reset (b : Bool) {k : ResetKind} (steps : o.steps = .prog a v :: l) (waits : s.pwr.resetWait = some k) :
    s.programPulseEnd b = s.keepOwlReset k := by
  simp only [Chip.programPulseEnd, op, pulsing, steps, Bool.not_true, Bool.false_eq_true, if_false, Chip.resetAfterPulse, waits, Option.map_some]

theorem Chip.erasePulseEnd_reset (b : Bool) {k : ResetKind} (steps : o.steps = .erase a :: l) (waits : s.pwr.resetWait = some k) :
    s.erasePulseEnd b = s.keepOwlReset k := by
  simp only [Chip.erasePulseEnd, op, pulsing, steps, Bool.not_true, Bool.false_eq_true, if_false, Chip.resetAfterPulse, waits, Option.map_some]

/-- A program pulse: the word verifies, or the limit is reached, or another pulse follows. -/
theorem Chip.programPulseEnd_step (b : Bool) (steps : o.steps = .prog a v :: l) (calm : s.pwr.resetWait = none) :
    s.programPulseEnd b =
      if b then ((((s.flashPut a v).notePulses (o.pulses + 1)).endGrant 6).flcNext { o with steps := l }).flcServe
      else if o.limit ≤ o.pulses + 1 then (((s.notePulses (o.pulses + 1)).endGrant 6).flcPost o 0x9B true).flcServe
      else
        let x := s.setFlc { s.flc with op := some { o with pulses := o.pulses + 1 }, pulseTill := some (s.now + us 16), pulseAt := some (s.now + us 20) }
        if (s.grantOf 6).any Grant.marked then (x.setFlc { x.flc with pulsing := false, pulseTill := none, pulseAt := none }).preemptStop 6 else x := by
  simp only [Chip.programPulseEnd, op, pulsing, steps, Bool.not_true, Bool.false_eq_true, if_false, Chip.resetAfterPulse, calm, Option.map_none]
  rfl

/-- What is left of an erase whose sector has failed: its journal entry is closed. -/
def closing (b : Nat) (l : List FlStep) : List FlStep :=
  match l with
  | .prog a v :: _ => if b < 0x200000 && 0x1000000 ≤ a then [FlStep.prog a v] else []
  | _ => []

omit op pulsing in
theorem closing_entry {b j : Nat} {w : Word} {l : List FlStep} (hb : b < 0x200000) (hj : 0x1000000 ≤ j) : closing b (.prog j w :: l) = [.prog j w] :=
  if_pos (by simp [hb, hj])

omit op pulsing in
theorem closing_nil {b : Nat} {l : List FlStep} (h : l = [] ∨ 0x200000 ≤ b) : closing b l = [] := by
  rcases h with rfl | h
  · rfl
  · unfold closing
    split
    · exact if_neg (by simp [Nat.not_lt.2 h])
    · rfl

/-- An erase pulse: the sector verifies, or it has failed, or another pulse follows. -/
theorem Chip.erasePulseEnd_step (b : Bool) (steps : o.steps = .erase a :: l) (calm : s.pwr.resetWait = none) :
    s.erasePulseEnd b =
      if b then ((((s.endGrant 6).flashClear a).erasedAgain o.src a).flcNext { o with steps := l }).flcServe
      else if 8 ≤ o.pulses + 1 then ((s.endGrant 6).flcNext { o with steps := closing a l, result := 0x9C }).flcServe
      else ((s.endGrant 6).setFlc { (s.endGrant 6).flc with op := some { o with pulses := o.pulses + 1 }, pulsing := false, pulseTill := none, pulseAt := none }).flcClaim
        { o with pulses := o.pulses + 1 } := by
  simp only [Chip.erasePulseEnd, op, pulsing, steps, Bool.not_true, Bool.false_eq_true, if_false, Chip.resetAfterPulse, calm, Option.map_none]
  rfl
end

/-! ### The password -/

theorem Chip.pwd1Write_none {s : Chip} {ag : Agent} {v : Word} (on : s.bit F.FLC_STAT_LOCKOUT = false) (h : s.password = none) :
    s.pwd1Write ag v = s.flcReason Rc.OK := by
  simp only [Chip.pwd1Write, on, h, Bool.false_eq_true, if_false]

theorem Chip.pwd1Write_some {s : Chip} {ag : Agent} {v h w : Word} (on : s.bit F.FLC_STAT_LOCKOUT = false) (pw : s.password = some (h, w)) :
    s.pwd1Write ag v =
      if s.flc.pwd0.getD ag.code 0 = h ∧ v = w then ((s.setFlc { s.flc with unlocked := true }).setFld F.FLC_STAT_FAILS 0).flcReason Rc.OK
      else ((s.setFld F.FLC_STAT_FAILS (min 8 (s.fld F.FLC_STAT_FAILS + 1))).setBit F.FLC_STAT_LOCKOUT (8 ≤ s.fld F.FLC_STAT_FAILS + 1)).flcReason 0x99 := by
  simp only [Chip.pwd1Write, on, pw, Bool.false_eq_true, if_false]

/-! ### OTP -/

theorem Chip.otpPulseEnd_idle {s : Chip} (b : Bool) (h : s.flc.otp = none ∨ s.flc.pulsing = false) : s.otpPulseEnd b = s := by
  rcases h with h | h
  · simp only [Chip.otpPulseEnd, h]
  · rw [Chip.otpPulseEnd, h]
    split <;> rfl

theorem Chip.otpPulseEnd_step {s : Chip} {o : OtpOp} (b : Bool) (op : s.flc.otp = some o) (pulsing : s.flc.pulsing = true) :
    s.otpPulseEnd b =
      if b then (({ s with otp := Cells.set zeroWord s.otp o.word (s.otpRd o.word ||| o.data) } : Chip).endGrant 6).otpEnd Rc.OK
      else if 3 ≤ o.attempts + 1 then
        (({ s.draw with otp := Cells.set zeroWord s.otp o.word (s.otpRd o.word ||| (o.data &&& Config.freeWord s.free)) } : Chip).endGrant 6).otpEnd 0x9B
      else
        let y := s.setFlc { s.flc with otp := some { o with attempts := o.attempts + 1 }, pulseAt := some (s.now + us 50) }
        if (s.grantOf 6).any Grant.marked then (y.setFlc { y.flc with pulsing := false, pulseAt := none }).preemptStop 6 else y := by
  simp only [Chip.otpPulseEnd, op, pulsing, Bool.not_true, Bool.false_eq_true, if_false]
  rfl

/-! ### The obligation -/

/-- Settles O58: each command by its equation, over the cases of its checks. -/
theorem flashOperations : Obligations.FlashOperations := by
  unfold Obligations.FlashOperations
  refine ⟨fun s op a code hcode => ?_, Chip.flashErased_iff, fun s ag b a at' other i hi => ?_, fun z s ag addr a code o first hs ha => ?_, fun z s ag l sect p q first hs hl => ?_,
    fun s b no => ⟨Chip.gives_of (Chip.programPulseEnd_idle b no) fun _ => rfl, Chip.gives_of (Chip.erasePulseEnd_idle b no) fun _ => rfl⟩,
    fun s x o a n v l op pulsing hn => ?_, fun s src a => ?_, fun s x ag code steps hcode hsteps => ?_, fun s ag v => ?_, fun s ag w d hw hd => ?_, fun s x o => ?_⟩
  · subst hcode
    refine ⟨fun busy => if_pos busy, fun free => ?_⟩
    have start : s.flcCheck op a = _ := if_neg (by simp [free])
    refine ⟨fun no => start.trans (if_pos (by simp [no])), fun is sealed => start.trans ((if_neg (by simp [is])).trans (if_pos sealed)), fun is open' owned => ?_, fun is open' mine held => ?_, fun is open' mine loose => ?_⟩
    · exact start.trans ((if_neg (by simp [is])).trans ((if_neg (by simp [open'])).trans (if_pos owned)))
    · exact start.trans ((if_neg (by simp [is])).trans ((if_neg (by simp [open'])).trans ((if_neg (by simp [mine])).trans (if_pos held))))
    · have last : s.flcCheck op a = if op = 1 && !s.flashErased a then Rc.NOT_ERASED else Rc.OK :=
        start.trans ((if_neg (by simp [is])).trans ((if_neg (by simp [open'])).trans ((if_neg (by simp [mine])).trans (if_neg (by simp [loose])))))
      rw [last]
      exact ⟨fun prog full => if_pos (by simp [prog, full]), fun ok => if_neg (by rcases ok with h | h <;> simp [h])⟩
  · have busy (op x : Nat) (ho : op < 16) : s.flcOrder ag op x = s.flcReason Rc.BUSY := Chip.flcOrder_second x ho at' other
    rcases hi with rfl | rfl | rfl | rfl | rfl | rfl | rfl | rfl
    · exact Chip.gives_of (busy 1 a (by decide)) fun q => exec_flcProgram ⟨q, s⟩ ag a
    · exact Chip.gives_of (busy 2 a (by decide)) fun q => exec_flcErase ⟨q, s⟩ ag a
    · exact Chip.gives_of (busy 3 a (by decide)) fun q => exec_sqopen ⟨q, s⟩ ag a
    · exact Chip.gives_of (busy 4 a (by decide)) fun q => exec_sqcommit ⟨q, s⟩ ag a
    · exact Chip.gives_of (busy 5 a (by decide)) fun q => exec_sqabandon ⟨q, s⟩ ag a
    · exact Chip.gives_of (busy 6 0 (by decide)) fun q => exec_sqlevel ⟨q, s⟩ ag
    · exact Chip.gives_of (busy 7 0 (by decide)) fun q => exec_proterase ⟨q, s⟩ ag
    · exact Chip.gives_of (busy 8 a (by decide)) fun q => exec_protprog ⟨q, s⟩ ag a
  · have program {d : Chip} (h : s.flcProgram a = d) : z.gives (.flcProgram ag addr) d := by
      subst hs ha
      exact Chip.gives_of ((Chip.flcOrder_first addr (op := 1) (by decide) first).trans h) fun q => exec_flcProgram ⟨q, z⟩ ag addr
    have erase {d : Chip} (h : s.flcErase a = d) : z.gives (.flcErase ag addr) d := by
      subst hs ha
      exact Chip.gives_of ((Chip.flcOrder_first addr (op := 2) (by decide) first).trans h) fun q => exec_flcErase ⟨q, z⟩ ag addr
    refine ⟨fun hc => ?_, fun hc => ?_⟩
    · subst hc
      refine ⟨fun no => program (if_pos no), fun ok blank ho => program ((if_neg (Classical.not_not.2 ok)).trans ((if_pos blank).trans ?_)),
        fun ok full ho => program ((if_neg (Classical.not_not.2 ok)).trans ((if_neg full).trans ?_))⟩
      · have limit : (s.setFld F.FLC_RES_PULSES 0).fld F.FLC_MAXPULSE_MAXPULSE = s.fld F.FLC_MAXPULSE_MAXPULSE := Chip.fld_setFld_ne _ _ _ (by decide)
        rw [Chip.flcAccept, Chip.flcNext_nil rfl, limit, ho]
        rfl
      · rw [Chip.flcAccept_prog _ _ _ (by omega), ho]
    · subst hc
      refine ⟨fun no => erase (if_pos no), fun ok ho => erase ((if_neg (Classical.not_not.2 ok)).trans ?_)⟩
      rw [Chip.flcAccept_sector, ho]
  · have index : sect % 2 ^ 24 % 64 = l := by omega
    have open' {d : Chip} (h : s.sqOpen l = d) : z.gives (.sqopen ag sect) d := by
      subst hs index
      exact Chip.gives_of ((Chip.flcOrder_first sect (op := 3) (by decide) first).trans h) fun q => exec_sqopen ⟨q, z⟩ ag sect
    have commit {d : Chip} (h : s.sqCommitCmd l = d) : z.gives (.sqcommit ag sect) d := by
      subst hs index
      exact Chip.gives_of ((Chip.flcOrder_first sect (op := 4) (by decide) first).trans h) fun q => exec_sqcommit ⟨q, z⟩ ag sect
    have abandon {d : Chip} (h : s.sqAbandon l = d) : z.gives (.sqabandon ag sect) d := by
      subst hs index
      exact Chip.gives_of ((Chip.flcOrder_first sect (op := 5) (by decide) first).trans h) fun q => exec_sqabandon ⟨q, z⟩ ag sect
    have level {d : Chip} (h : s.sqLevel = d) : z.gives (.sqlevel ag) d := by
      subst hs
      exact Chip.gives_of ((Chip.flcOrder_first 0 (op := 6) (by decide) first).trans h) fun q => exec_sqlevel ⟨q, z⟩ ag
    have protErase {d : Chip} (h : s.protErase = d) : z.gives (.proterase ag) d := by
      subst hs
      exact Chip.gives_of ((Chip.flcOrder_first 0 (op := 7) (by decide) first).trans h) fun q => exec_proterase ⟨q, z⟩ ag
    have protProg {d : Chip} (h : s.protProg (sect % 2 ^ 24) = d) : z.gives (.protprog ag sect) d := by
      subst hs
      exact Chip.gives_of ((Chip.flcOrder_first sect (op := 8) (by decide) first).trans h) fun q => exec_protprog ⟨q, z⟩ ag sect
    refine ⟨fun busy => ⟨open' (if_pos busy), commit (Chip.sqCommitCmd_busy l busy), abandon (Chip.sqAbandon_busy l busy), level (if_pos (by simp [busy])),
      protErase (if_pos busy), protProg (if_pos busy)⟩, fun free => ⟨fun out => open' ((if_neg (by simp [free])).trans (if_pos out)), fun lt no => open' ?_, fun lt shut active => ?_,
      fun shut => ⟨commit (Chip.sqCommitCmd_shut l shut), abandon (Chip.sqAbandon_shut l shut)⟩, fun opened => ⟨fun no => ?_, fun active here => ⟨fun none => commit ?_, fun some => commit ?_, abandon ?_⟩⟩,
      fun no => level ?_, fun active calm => level ?_, fun active shut => ⟨fun none => level ?_, fun due mem low => ?_⟩, fun locked => protErase ?_, fun unlocked => protErase ?_, fun v hv => ?_⟩⟩
    · refine (if_neg (by simp [free])).trans ((if_neg (Nat.not_le.2 lt)).trans (if_pos ?_))
      rcases no with h | h
      · simp [Option.isSome_iff_ne_none.2 h]
      · simp [h]
    · obtain ⟨none, some⟩ := Chip.sqOpen_ready free lt shut active
      refine ⟨fun h => open' (none h), fun h hq => open' ?_⟩
      rw [some p h, hq]
    · have bad : (s.flcBusy || !s.flc.sqActive || s.sqL p ≠ l) = true := by rcases no with h | h <;> simp [h]
      exact ⟨commit ((Chip.sqCommitCmd_open l opened).trans (if_pos bad)), abandon ((Chip.sqAbandon_open l opened).trans (if_pos bad))⟩
    · rw [Chip.sqCommitCmd_open l opened, if_neg (by simp [free, active, here]), Chip.sqCommitSteps, none]
      rfl
    · rw [Chip.sqCommitCmd_open l opened, if_neg (by simp [free, active, here]), Chip.sqCommitSteps, some]
      rfl
    · rw [Chip.sqAbandon_open l opened, if_neg (by simp [free, active, here])]
    · cases active : s.flc.sqActive
      · exact if_pos (by simp [active])
      · rcases no with h | ⟨due, h⟩
        · exact absurd (h.symm.trans active) Bool.false_ne_true
        · exact (if_neg (by simp [free, active])).trans ((if_neg (by simp [due])).trans (if_pos (Option.isSome_iff_ne_none.2 h)))
    · exact (if_neg (by simp [free, active])).trans (if_pos (by simp [calm]))
    · cases due : s.sqLevelDue
      · exact (if_neg (by simp [free, active])).trans (if_pos (by simp [due]))
      · rw [Chip.sqLevel_due free active due shut, none]
        rfl
    · rw [Chip.sqLevel_due free active due shut, lowestOf_foldl (s.sqOf_sorted .valid) ⟨mem, low⟩] at level
      refine ⟨fun none => level (by rw [none]; rfl), fun n copy some hn hcopy => level ?_⟩
      rw [some, hcopy, hn]
      rfl
    · exact (if_neg (by simp [free])).trans (if_pos (by simp [locked]))
    · exact (if_neg (by simp [free])).trans (if_neg (by simp [unlocked]))
    · subst hv
      have start : s.protProg (sect % 2 ^ 24) =
          if 18 < l ∨ (l < 16 ∧ (bits (s.reg R.FLC_DATA).toNat 35 32 ≠ 0 ∨ bits (s.reg R.FLC_DATA).toNat 19 10 < bits (s.reg R.FLC_DATA).toNat 9 0)) then s.flcReason Rc.RANGE
          else if !s.flc.unlocked then s.flcReason 0x98
          else if !s.flashErased (protBase + l) then s.flcReason Rc.NOT_ERASED
          else if s.reg R.FLC_DATA = erasedWord then (s.setFld F.FLC_RES_PULSES 0).flcAccept 8 l []
          else s.flcAccept 8 l [.prog (protBase + l) (s.reg R.FLC_DATA)] := by
        rw [← index]
        exact if_neg (by simp [free])
      rw [start] at protProg
      refine ⟨fun bad => protProg (if_pos bad), fun le ok => ?_⟩
      rw [if_neg (by omega)] at protProg
      refine ⟨fun locked => protProg (if_pos (by simp [locked])), fun unlocked => ?_⟩
      rw [if_neg (by simp [unlocked])] at protProg
      refine ⟨fun full => protProg (if_pos (by simp [full])), fun blank => ?_⟩
      rw [if_neg (by simp [blank])] at protProg
      exact ⟨fun ones => protProg (if_pos ones), fun other => protProg (if_neg other)⟩
  · subst hn
    have prog (b : Bool) {d : Chip} (h : s.programPulseEnd b = d) : s.gives (.programPulseEnd b) d := Chip.gives_of h fun _ => rfl
    have erase (b : Bool) {d : Chip} (h : s.erasePulseEnd b = d) : s.gives (.erasePulseEnd b) d := Chip.gives_of h fun _ => rfl
    refine ⟨fun steps => ⟨fun b => erase b (Chip.erasePulseEnd_prog op pulsing b steps), fun k waits b => prog b (Chip.programPulseEnd_reset op pulsing b steps waits), fun calm => ?_⟩,
      fun steps => ⟨fun b => prog b (Chip.programPulseEnd_erase op pulsing b steps), fun k waits b => erase b (Chip.erasePulseEnd_reset op pulsing b steps waits), fun calm => ?_⟩⟩
    · have good := prog true (Chip.programPulseEnd_step op pulsing true steps calm)
      have bad {d : Chip} h := prog false (d := d) ((Chip.programPulseEnd_step op pulsing false steps calm).trans ((if_neg Bool.false_ne_true).trans h))
      refine ⟨good, fun limit => bad (if_pos limit), fun more hx => ?_⟩
      subst hx
      exact ⟨fun plain => bad ((if_neg (Nat.not_le.2 more)).trans (if_neg (by simp [plain]))), fun marked => bad ((if_neg (Nat.not_le.2 more)).trans (if_pos marked))⟩
    · have good := erase true (Chip.erasePulseEnd_step op pulsing true steps calm)
      have bad {d : Chip} h := erase false (d := d) ((Chip.erasePulseEnd_step op pulsing false steps calm).trans ((if_neg Bool.false_ne_true).trans h))
      refine ⟨good, fun over' ha j w l' hj hl => bad ((if_pos over').trans ?_), fun over' no => bad ((if_pos over').trans ?_), fun more hx => bad ((if_neg (Nat.not_le.2 more)).trans ?_)⟩
      · rw [hl, closing_entry ha hj]
      · rw [closing_nil no]
      · rw [hx]
  · rw [Chip.erasedAgain]
    exact ite_congr (by simp [and_assoc]) (fun _ => rfl) fun _ => rfl
  · subst hcode
    have enable {d : Chip} (h : s.sqEnable = d) : s.gives (.squirrelEnable ag) d := Chip.gives_of h fun q => exec_squirrelEnable ⟨q, s⟩ ag
    refine ⟨fun on => enable (if_pos on), fun off => ?_⟩
    have start : s.sqEnable = _ := if_neg (by simp [off])
    refine ⟨fun out => if_pos out, fun no => enable (start.trans (if_pos no)), fun ok hx => ?_⟩
    replace start := start.trans (if_neg (Classical.not_not.2 ok))
    subst hx
    refine ⟨fun none => enable (start.trans (if_pos ?_)), fun some => enable (start.trans ?_)⟩
    · exact List.isEmpty_iff.2 (hsteps.symm.trans none)
    · rw [hsteps] at some ⊢
      exact if_neg fun h => some (List.isEmpty_iff.1 h)
  · have write {d : Chip} (h : s.pwd1Write ag v = d) : s.gives (.flcPwd1Write ag v) d := Chip.gives_of h fun _ => rfl
    refine ⟨fun out => write (if_pos out), fun on => ⟨fun none => write (Chip.pwd1Write_none on none), fun w pw hv => write ?_, fun h w pw wrong few => write ?_⟩, fun _ => rfl⟩
    · rw [Chip.pwd1Write_some on pw, if_pos ⟨rfl, hv⟩]
    · have least : min 8 (s.fld F.FLC_STAT_FAILS + 1) = s.fld F.FLC_STAT_FAILS + 1 := by omega
      have last : decide (8 ≤ s.fld F.FLC_STAT_FAILS + 1) = decide (7 ≤ s.fld F.FLC_STAT_FAILS) := decide_eq_decide.2 (by omega)
      rw [Chip.pwd1Write_some on pw, if_neg (fun good => wrong.elim (fun no => no good.1.symm) fun no => no good.2), least, last]
  · subst hw hd
    have prog {d : Chip} (h : s.otpProg = d) : s.gives (.otpProg ag) d := Chip.gives_of h fun _ => rfl
    refine ⟨fun busy => prog (if_pos busy), fun free => ?_⟩
    have start : s.otpProg = _ := if_neg (by simp [free])
    refine ⟨fun bad => prog (start.trans (if_pos bad)), fun word ok => ?_⟩
    replace start := start.trans (if_neg (by omega))
    refine ⟨fun locked => prog (start.trans (if_pos locked)), fun unlocked t ht => ?_⟩
    replace start := start.trans (if_neg (by simp [unlocked]))
    subst ht
    refine ⟨fun hot => prog (start.trans (if_pos hot)), fun lo hi => ?_⟩
    replace start := start.trans (if_neg (by omega))
    exact ⟨fun same => prog (start.trans (if_pos same)), fun new => prog (start.trans (if_neg new))⟩
  · have pulse (b : Bool) {d : Chip} (h : s.otpPulseEnd b = d) : s.gives (.otpPulseEnd b) d := Chip.gives_of h fun _ => rfl
    refine ⟨fun no => ⟨pulse true (Chip.otpPulseEnd_idle true no), pulse false (Chip.otpPulseEnd_idle false no)⟩, fun op pulsing => ⟨fun hx => ?_, fun few y hy => ?_, fun many hx => ?_⟩⟩
    · subst hx
      exact pulse true (Chip.otpPulseEnd_step true op pulsing)
    · subst hy
      have step := (Chip.otpPulseEnd_step false op pulsing).trans ((if_neg Bool.false_ne_true).trans (if_neg (by omega)))
      exact ⟨fun plain => pulse false (step.trans (if_neg (Bool.not_eq_true _ ▸ plain))), fun marked => pulse false (step.trans (if_pos marked))⟩
    · subst hx
      exact pulse false ((Chip.otpPulseEnd_step false op pulsing).trans ((if_neg Bool.false_ne_true).trans (if_pos (by omega))))

end Sys2Proof.Machine
end

section
/-!
PROOFS. The host port.
-/
namespace Sys2Proof.Machine

/-! ### The enable -/

/-- The four pins and the meanings that the port needs of them. -/
def portPins : List (Nat × Nat) := [(4, Mean.HCS), (5, Mean.HCK), (6, Mean.HDI), (7, Mean.HDO)]

/-- The pins carry the port's meanings in RUN and in SLOT. -/
def Chip.portPinned (s : Chip) : Bool := portPins.all fun p => meanIn (s.pinMap p.1) .run = p.2 && meanIn (s.pinMap p.1) .slot = p.2

theorem Chip.pinMap_hpSelect (s : Chip) {n : Nat} (h : n < 24) : s.hpSelect.pinMap n = s.pinMap n := by
  rw [Chip.pinMap, Chip.hpSelect, Chip.reg_setFld_ne _ _ _ (by simp only [R.PIN_MAP, F.HP_STAT_VER, R.HP_STAT]; omega), Chip.pinMap]

theorem Chip.portPinned_hpSelect (s : Chip) : s.hpSelect.portPinned = s.portPinned := by
  simp only [Chip.portPinned, portPins, List.all_cons, List.all_nil, s.pinMap_hpSelect (show 4 < 24 by decide), s.pinMap_hpSelect (show 5 < 24 by decide),
    s.pinMap_hpSelect (show 6 < 24 by decide), s.pinMap_hpSelect (show 7 < 24 by decide)]

/-- The model's own walk of the four pins. -/
theorem Chip.portPinned_eq (s : Chip) : ([Mean.HCS, Mean.HCK, Mean.HDI, Mean.HDO].zipIdx.all fun (m, i) =>
    meanIn (s.pinMap (4 + i)) .run = m && meanIn (s.pinMap (4 + i)) .slot = m) = s.portPinned := by
  simp only [List.zipIdx_cons, List.zipIdx_nil, List.all_cons, List.all_nil, Chip.portPinned, portPins, Nat.reduceAdd]

theorem Chip.hpEnable_eq {s y : Chip} (hy : y = s.hpSelect) :
    s.hpEnable = if !s.prov 12 then y.setReason R.HP_STAT Rc.CLOCK_OFF
      else if !s.portPinned then y.setReason R.HP_STAT Rc.PIN_PHASE
      else
        let x := if y.holds 10 then y else y.claimNow 10 (y.fld (F.EGY_DECL_PEAK 10))
        if x.holds 10 then x.enableBlock .hp else (x.release 10).setReason R.HP_STAT Rc.BUDGET := by
  subst hy
  rw [Chip.hpEnable]
  dsimp only
  rw [Chip.portPinned_eq, Chip.portPinned_hpSelect]
  rfl

/-! ### Transfers -/

/-- A transfer that the port does not hear is two edges at P4. -/
theorem Chip.transfer_deaf {s x : Chip} (f : Chip → Chip) (deaf : s.hpHears = false)
    (hx : s.padIn 4 = true ∧ x = s.wakePinEdge 4 false ∨ s.padIn 4 = false ∧ x = s) : s.transfer f = x.wakePinEdge 4 true := by
  rw [Chip.transfer, if_neg (by simp [deaf])]
  rcases hx with ⟨h, rfl⟩ | ⟨h, rfl⟩ <;> rw [h] <;> rfl

theorem Chip.transfer_heard {s : Chip} (f : Chip → Chip) (heard : s.hpHears = true) : s.transfer f = f s := if_pos heard

theorem Chip.transfer36_old {s : Chip} (f : Chip → Chip) (heard : s.hpHears = true) (old : s.hpVer < 2) : s.transfer36 f = s.badCmd :=
  (Chip.transfer_heard _ heard).trans (if_pos old)

theorem Chip.transfer36_new {s : Chip} (f : Chip → Chip) (heard : s.hpHears = true) (new : 2 ≤ s.hpVer) : s.transfer36 f = f s :=
  (Chip.transfer_heard _ heard).trans (if_neg (Nat.not_lt.2 new))

/-- A version-1 transfer in a later version. -/
theorem Chip.transferV1_new {s : Chip} (f : Chip → Chip) (heard : s.hpHears = true) (new : 2 ≤ s.hpVer) : s.transferV1 f = s.badCmd := by
  rw [Chip.transferV1, Chip.transfer_heard _ heard]
  split
  · omega
  · omega
  · rfl

/-- In SELECT, where the entry does not allow version 1. -/
theorem Chip.transferV1_barred {s : Chip} (f : Chip → Chip) (heard : s.hpHears = true) (select : s.hpVer = 0) (barred : 1 < (s.offer 0).1) :
    s.transferV1 f = ({ s with hp := { s.hp with hdo := [s.hstatView] } } : Chip).hpReason Rc.VERSION := by
  rw [Chip.transferV1, Chip.transfer_heard _ heard]
  simp only [select, if_neg (Nat.not_le.2 barred)]

/-- In version 1, or in SELECT where it is adopted. -/
theorem Chip.transferV1_adopted {s x : Chip} (f : Chip → Chip) (heard : s.hpHears = true)
    (hx : s.hpVer = 1 ∧ x = s ∨ s.hpVer = 0 ∧ (s.offer 0).1 ≤ 1 ∧ x = s.setFld F.HP_STAT_VER 1) : s.transferV1 f = f x := by
  rw [Chip.transferV1, Chip.transfer_heard _ heard]
  rcases hx with ⟨ver, rfl⟩ | ⟨ver, may, rfl⟩
  · simp only [ver]
  · simp only [ver, if_pos may]

/-- A version-1 read of which the host clocks no word, and one of which it clocks some. -/
theorem Chip.hostV1Read_none {s x : Chip} {k : Nat} (addr : Nat) (none : k = 0) (heard : s.hpHears = true)
    (hx : s.hpVer = 1 ∧ x = s ∨ s.hpVer = 0 ∧ (s.offer 0).1 ≤ 1 ∧ x = s.setFld F.HP_STAT_VER 1) :
    s.hostV1Read addr k = { x.hpReason Rc.OK with hp := { x.hp with hdo := [], octs := [0, 0, 0, 0, 0] } } := by
  rw [Chip.hostV1Read, Chip.transferV1_adopted _ heard hx, if_pos none]
  rfl

theorem Chip.hostV1Read_some {s x : Chip} {y : List Word × Chip} {k : Nat} (addr : Nat) (some : k ≠ 0) (heard : s.hpHears = true)
    (hx : s.hpVer = 1 ∧ x = s ∨ s.hpVer = 0 ∧ (s.offer 0).1 ≤ 1 ∧ x = s.setFld F.HP_STAT_VER 1) (hy : y = x.hostData false k addr k) :
    s.hostV1Read addr k = { y.2 with hp := { y.2.hp with hdo := [], octs := [0, 0, 0, 0, 0] ++ y.1.flatMap v1Octets } } := by
  rw [Chip.hostV1Read, Chip.transferV1_adopted _ heard hx, if_neg some, ← hy]
  rfl

theorem Chip.hostV1Write_adopted {s x y : Chip} {ws : List Word} (addr : Nat) (heard : s.hpHears = true)
    (hx : s.hpVer = 1 ∧ x = s ∨ s.hpVer = 0 ∧ (s.offer 0).1 ≤ 1 ∧ x = s.setFld F.HP_STAT_VER 1)
    (hy : y = { x with hp := { x.hp with hdo := [], octs := List.replicate (4 + 5 * ws.length) 0 } }) :
    s.hostV1Write addr ws = (y.hpReason Rc.OK).hostPuts ((hostAddrs false addr ws.length).zip ws) := by
  rw [Chip.hostV1Write, Chip.transferV1_adopted _ heard hx, hy]

/-! ### Words -/

theorem Chip.hostData_outside {s : Chip} {fixed : Bool} {n addr : Nat} (k : Nat) (h : ∃ a ∈ hostAddrs fixed addr n, isMirror a = false) :
    s.hostData fixed n addr k = (List.replicate k hostMarker, (s.hpReason Rc.OK).queueFetch fixed n addr) := by
  refine if_neg fun all => ?_
  obtain ⟨a, ha, no⟩ := h
  exact Bool.false_ne_true (no.symm.trans (List.all_eq_true.1 all a ha))

theorem Chip.hostData_mirror {s : Chip} {fixed : Bool} {n addr : Nat} (k : Nat) (h : ∀ a ∈ hostAddrs fixed addr n, isMirror a = true) :
    s.hostData fixed n addr k = (s.hpReason Rc.OK).mirrorReads (hostAddrs fixed addr k) := if_pos (List.all_eq_true.2 h)

/-- A write of `n` words in version 3 arrives whole, or is cut before its check word, or fails it. -/
theorem Chip.hostWrite_new {s x : Chip} {fixed : Bool} {n addr : Nat} {ws : List Word} (heard : s.hpHears = true) (new : 2 ≤ s.hpVer)
    (hx : x = { s with hp := { s.hp with hdo := [s.hstatView] } }) :
    s.hostWrite fixed n addr ws =
      if s.hpVer = 3 then
        if ws.length ≤ n then x
        else if ws.getD n 0 = checkWord ((if fixed then 4 else 2) <<< 32 ||| (n - 1) <<< 24 ||| addr) (ws.take n) then
          (x.hpReason Rc.OK).hostPuts ((hostAddrs fixed addr n).zip (ws.take n))
        else (x.count F.HP_CNT_CHKFAIL).hpReason 0xA2
      else (x.hpReason Rc.OK).hostPuts ((hostAddrs fixed addr n).zip (ws.take n)) := by
  subst hx
  exact Chip.transfer36_new _ heard new

theorem gives_hostWrite {s d : Chip} {fixed : Bool} {n addr : Nat} {ws : List Word} (h : s.hostWrite fixed n addr ws = d) :
    s.gives (if fixed then .hostWritef n addr ws else .hostWrite n addr ws) d := by
  subst h
  cases fixed
  · exact fun q => exec_hostWrite ⟨q, s⟩ n addr ws
  · exact fun q => exec_hostWritef ⟨q, s⟩ n addr ws

theorem gives_hostRead {s d : Chip} {fixed : Bool} {n addr k : Nat} (h : s.hostRead fixed n addr k = d) :
    s.gives (if fixed then .hostReadf n addr k else .hostRead n addr k) d := by
  subst h
  cases fixed
  · exact fun q => exec_hostRead ⟨q, s⟩ n addr k
  · exact fun q => exec_hostReadf ⟨q, s⟩ n addr k

/-! ### Offers -/

theorem agree_some {a b : Nat × Nat} (h : max a.1 b.1 ≤ min a.2 b.2) : agree a b = some (min a.2 b.2) := if_pos h
theorem agree_none {a b : Nat × Nat} (h : min a.2 b.2 < max a.1 b.1) : agree a b = none := if_neg (Nat.not_le.2 h)

/-! ### Posted writes -/

/-- The queue with its first write taken; a fetch that waits has one fewer before it. -/
theorem Chip.hostPostedWrite_cons {s x : Chip} {a : Nat} {v : Word} {l : List (Nat × Word)} (h : s.hp.posts = (a, v) :: l)
    (hx : s.hp.fetch = none ∧ x = { s with hp := { s.hp with posts := l } }
      ∨ ∃ f, s.hp.fetch = some f ∧ x = { s with hp := { s.hp with posts := l, fetch := some { f with behind := f.behind - 1 } } }) :
    s.hostPostedWrite = if mayWriteAt a then x.portWrite .host a v else (x.setBit F.HP_HSTAT_WERR true).hpReason 0xA3 := by
  rcases hx with ⟨free, rfl⟩ | ⟨f, waits, rfl⟩
  · simp only [Chip.hostPostedWrite, h, free, Option.map_none]
  · simp only [Chip.hostPostedWrite, h, waits, Option.map_some]

/-! ### The obligation -/

/-- Settles O59: each command by its equation, over what the port hears and the version in force. -/
theorem hostPort : Obligations.HostPort := by
  unfold Obligations.HostPort
  refine ⟨fun s x y ag => ?_, fun s x i cmd n addr k hi lo ws deaf hx h => ?_, fun s x i cmd n addr k hi lo ws heard hx => ?_, fun s fixed n addr k x tail heard new hx ht => ?_,
    fun s fixed n addr k => ⟨Chip.hostData_mirror k, fun out => ?_⟩, fun s x fixed n addr ws heard hx => ?_, fun s a v => ?_, fun s hi lo heard ver ans hans => ?_,
    fun s x addr k ws heard hx => ?_, fun s x f => ?_, fun s x a v l => ?_, fun s ag v => ?_⟩
  · have enable {d : Chip} (h : (if s.bit F.HP_CTL_EN then s else s.hpEnable) = d) : s.gives (.hpEnable ag) d := Chip.gives_of h fun q => exec_hpEnable ⟨q, s⟩ ag
    refine ⟨fun on => enable (if_pos on), fun off hy => ?_⟩
    have start := (if_neg (by simp [off]) : (if s.bit F.HP_CTL_EN then s else s.hpEnable) = s.hpEnable).trans (Chip.hpEnable_eq hy)
    refine ⟨fun no => enable (start.trans (if_pos (by simp [no]))), fun prov bad => enable (start.trans ((if_neg (by simp [prov])).trans (if_pos ?_))), fun prov good hx => ?_⟩
    · obtain ⟨p, hp, no⟩ := bad
      rw [Bool.not_eq_true']
      refine List.all_eq_false.2 ⟨p, hp, ?_⟩
      rcases no with h | h <;> simp [h]
    · have pinned : s.portPinned = true := List.all_eq_true.2 fun p hp => by
        obtain ⟨run, slot⟩ := good p hp
        simp [run, slot]
      have claimed : (if y.holds 10 then y else y.claimNow 10 (y.fld (F.EGY_DECL_PEAK 10))) = x := by
        rcases hx with ⟨h, rfl⟩ | ⟨h, rfl⟩
        · exact if_pos h
        · exact if_neg (by simp [h])
      replace start := start.trans ((if_neg (by simp [prov])).trans (if_neg (by simp [pinned])))
      rw [claimed] at start
      exact ⟨fun held => enable (start.trans (if_pos held)), fun none => enable (start.trans (if_neg (by simp [none])))⟩
  · have edges (f : Chip → Chip) := Chip.transfer_deaf f deaf hx
    rcases h with rfl | rfl | rfl | rfl | rfl | rfl | rfl
    · exact Chip.gives_of (edges _) fun q => exec_hostRead ⟨q, s⟩ n addr k
    · exact Chip.gives_of (edges _) fun q => exec_hostReadf ⟨q, s⟩ n addr k
    · exact Chip.gives_of (edges _) fun q => exec_hostWrite ⟨q, s⟩ n addr ws
    · exact Chip.gives_of (edges _) fun q => exec_hostWritef ⟨q, s⟩ n addr ws
    · refine Chip.gives_of (e := s.hostOfferCmd cmd hi lo) ?_ fun q => exec_hostOffer ⟨q, s⟩ cmd hi lo
      rw [Chip.hostOfferCmd]
      split
      · exact edges _
      · exact edges _
    · exact Chip.gives_of (edges _) fun q => exec_hostV1Read ⟨q, s⟩ addr k
    · exact Chip.gives_of (edges _) fun q => exec_hostV1Write ⟨q, s⟩ addr ws
  · obtain rfl : x = s.badCmd := hx
    refine ⟨fun old h => ?_, fun new h => ?_, fun no => ?_, fun select barred h => ?_⟩
    · have bad (f : Chip → Chip) := Chip.transfer36_old f heard old
      rcases h with rfl | rfl | rfl | rfl
      · exact Chip.gives_of (bad _) fun q => exec_hostRead ⟨q, s⟩ n addr k
      · exact Chip.gives_of (bad _) fun q => exec_hostReadf ⟨q, s⟩ n addr k
      · exact Chip.gives_of (bad _) fun q => exec_hostWrite ⟨q, s⟩ n addr ws
      · exact Chip.gives_of (bad _) fun q => exec_hostWritef ⟨q, s⟩ n addr ws
    · have bad (f : Chip → Chip) := Chip.transferV1_new f heard new
      rcases h with rfl | rfl
      · exact Chip.gives_of (bad _) fun q => exec_hostV1Read ⟨q, s⟩ addr k
      · exact Chip.gives_of (bad _) fun q => exec_hostV1Write ⟨q, s⟩ addr ws
    · refine Chip.gives_of (e := s.hostOfferCmd cmd hi lo) ?_ fun q => exec_hostOffer ⟨q, s⟩ cmd hi lo
      by_cases offer : cmd = 0xA5
      · exact (if_pos offer).trans ((Chip.transfer_heard _ heard).trans (if_pos (no.resolve_left (Classical.not_not.2 offer))))
      · exact (if_neg offer).trans (Chip.transfer_heard _ heard)
    · have bad (f : Chip → Chip) := Chip.transferV1_barred f heard select barred
      rcases h with rfl | rfl
      · exact Chip.gives_of (bad _) fun q => exec_hostV1Read ⟨q, s⟩ addr k
      · exact Chip.gives_of (bad _) fun q => exec_hostV1Write ⟨q, s⟩ addr ws
  · subst hx ht
    exact gives_hostRead (Chip.transfer36_new _ heard new)
  · rw [Chip.hostData_outside k out, Chip.queueFetch]
    refine ⟨rfl, fun empty => if_neg ?_, fun some => if_pos (Option.isSome_iff_ne_none.2 some)⟩
    have kept : (s.hpReason Rc.OK).hp.fetch = none := empty
    simp [kept]
  · refine ⟨fun new no => gives_hostWrite ((Chip.hostWrite_new heard new hx).trans (if_neg no)), fun three => ?_⟩
    have write {d : Chip} h := gives_hostWrite (d := d) ((Chip.hostWrite_new (fixed := fixed) (n := n) (addr := addr) (ws := ws) heard (by omega) hx).trans ((if_pos three).trans h))
    exact ⟨fun cut => write (if_pos cut), fun whole good => write ((if_neg (Nat.not_le.2 whole)).trans (if_pos good)), fun whole bad => write ((if_neg (Nat.not_le.2 whole)).trans (if_neg bad))⟩
  · exact ⟨fun is => if_pos is, fun no => ⟨fun room => (if_neg (by simp [no])).trans (if_neg (Nat.not_le.2 room)), fun full => (if_neg (by simp [no])).trans (if_pos full)⟩⟩
  · have offer {d : Chip} h : s.gives (.hostOffer 0xA5 hi lo) d :=
      Chip.gives_of (e := s.hostOfferCmd 0xA5 hi lo) ((if_pos rfl).trans ((Chip.transfer_heard _ heard).trans ((if_neg ver).trans h))) fun q => exec_hostOffer ⟨q, s⟩ 0xA5 hi lo
    refine ⟨fun lt => offer ?_, fun le ok => offer ?_, fun le no => offer ?_⟩
    · rw [hans]
      exact if_pos lt
    · rw [hans, agree_some (a := s.offer 0) (b := (lo, hi)) ok]
      exact if_neg (Nat.not_lt.2 le)
    · rw [hans, agree_none (a := s.offer 0) (b := (lo, hi)) no]
      exact if_neg (Nat.not_lt.2 le)
  · refine ⟨fun none => ?_, fun y some hy => ?_, fun y hy => ?_⟩
    · exact Chip.gives_of (Chip.hostV1Read_none addr none heard hx) fun q => exec_hostV1Read ⟨q, s⟩ addr k
    · exact Chip.gives_of (Chip.hostV1Read_some addr some heard hx hy) fun q => exec_hostV1Read ⟨q, s⟩ addr k
    · exact Chip.gives_of (Chip.hostV1Write_adopted addr heard hx hy) fun q => exec_hostV1Write ⟨q, s⟩ addr ws
  · have done {d : Chip} (h : s.hostFetchDone = d) : s.gives .hostFetchDone d := Chip.gives_of h fun _ => rfl
    refine ⟨fun none => done ?_, fun some => ⟨fun behind => done ?_, fun first hx => done ?_⟩⟩
    · simp only [Chip.hostFetchDone, none]
    · simp only [Chip.hostFetchDone, some, if_pos behind]
    · simp only [Chip.hostFetchDone, some, if_neg (Classical.not_not.2 first), hx]
  · have posted {d : Chip} (h : s.hostPostedWrite = d) : s.gives .hostPostedWrite d := Chip.gives_of h fun _ => rfl
    refine ⟨fun none => posted ?_, fun cons hx => ?_⟩
    · simp only [Chip.hostPostedWrite, none]
    · rw [Chip.hostPostedWrite_cons cons hx] at posted
      refine ⟨fun sram => posted ((if_pos (by simp [mayWriteAt, sram])).trans (if_pos sram)), fun no reg => posted ((if_pos (by simp [mayWriteAt, reg])).trans ?_),
        fun no no' => posted (if_neg (by simp [mayWriteAt, no, no']))⟩
      rw [Chip.portWrite, Chip.bankTake, if_pos (by simp [no])]
      exact if_neg (by simp [no])
  · have ring {d : Chip} (h : s.dbellWrite .host v = d) : s.gives (.hpDbellWrite v) d := Chip.gives_of h fun _ => rfl
    have host : s.dbellWrite .host v = if v = 0 then s.setReg R.HP_DBELL (s.reg R.HP_DBELL ||| v) else (s.setReg R.HP_DBELL (s.reg R.HP_DBELL ||| v)).occ 80 := by simp only [Chip.dbellWrite, if_true]
    refine ⟨fun zero => ring (host.trans (if_pos zero)), fun some => ring (host.trans (if_neg some)), ?_⟩
    have all : s.reg R.HP_CNT &&& ~~~ 0xFFFFFFFFF#36 = 0 := by
      rw [show ~~~ 0xFFFFFFFFF#36 = 0#36 by decide, BitVec.and_zero]
      rfl
    rw [← all]
    exact fun q => exec_hpCntRead ⟨q, s⟩ ag

end Sys2Proof.Machine
end

section
/-!
PROOFS. The service port, Vole and the loader.
-/
namespace Sys2Proof.Machine

/-! ### Requests -/

/-- What a request comes to before its answer is sent: a wrong check word, an answer that was held, or the request itself. -/
def Chip.svcOutcome (s x : Chip) (req : Nat) (data : List Word) (chk : Option Word) (f : Chip → SvcOut) : SvcOut :=
  if s.fld F.SVC_STAT_VER = 2 && chk ≠ some (checkWord req data) then svcFault x 0xA2
  else match s.svc.held with
    | some (k, ack, ws) => if k = req :: data.map BitVec.toNat then { ack := ack, words := ws, chip := x } else f x
    | none => f x

/-- The answer on the line, or held where it is late. -/
def svcAnswered (late v2 : Bool) (req : Nat) (data : List Word) (o : SvcOut) : Chip :=
  if late then { o.chip with svc := { o.chip.svc with held := some (req :: data.map BitVec.toNat, o.ack, o.words), ack := 2, resp := [] } }
  else { o.chip with svc := { o.chip.svc with ack := o.ack, resp := svcResponse v2 req o.ack o.words } }

theorem Chip.svcDo_eq {s x : Chip} (late : Bool) (req : Nat) (data : List Word) (chk : Option Word) (f : Chip → SvcOut)
    (hx : x = { s with svc := { s.svc with edgeAt := s.now, held := none } }) :
    s.svcDo late req data chk f = svcAnswered late (s.fld F.SVC_STAT_VER = 2) req data (s.svcOutcome x req data chk f) := by
  subst hx
  rfl

theorem Chip.svcOutcome_badCheck {s x : Chip} {req : Nat} {data : List Word} {chk : Option Word} (f : Chip → SvcOut) (v2 : s.fld F.SVC_STAT_VER = 2)
    (bad : chk ≠ some (checkWord req data)) : s.svcOutcome x req data chk f = svcFault x 0xA2 := if_pos (by simp [v2, bad])

section
variable {s x : Chip} {req : Nat} {data : List Word} {chk : Option Word} (f : Chip → SvcOut)
  (good : s.fld F.SVC_STAT_VER ≠ 2 ∨ chk = some (checkWord req data))
include good

theorem Chip.svcOutcome_again {a : Nat} {w : List Word} (held : s.svc.held = some (req :: data.map BitVec.toNat, a, w)) :
    s.svcOutcome x req data chk f = { ack := a, words := w, chip := x } := by
  rw [Chip.svcOutcome, if_neg (by rcases good with h | h <;> simp [h]), held]
  exact if_pos rfl

theorem Chip.svcOutcome_new (new : s.svc.held.any (fun h => h.1 = req :: data.map BitVec.toNat) = false) : s.svcOutcome x req data chk f = f x := by
  rw [Chip.svcOutcome, if_neg (by rcases good with h | h <;> simp [h])]
  cases e : s.svc.held with
  | none => rfl
  | some h =>
    rw [e, Option.any_some, decide_eq_false_iff_not] at new
    exact if_neg new
end

theorem Chip.svcWakes_iff (s : Chip) : s.svcWakes = true ↔ s.pwr.st = .sleep ∨ s.pwr.st = .hibernate ∨ s.pwr.entering.isSome = true := by
  simp [Chip.svcWakes, or_assoc]

theorem Chip.svcWakes_awake {s : Chip} (h : s.pwr.st ≠ .sleep) (h' : s.pwr.st ≠ .hibernate) (h'' : s.pwr.entering = none) : s.svcWakes = false := by
  simp [Chip.svcWakes, h, h', h'']

theorem Chip.svcHears_iff (s : Chip) :
    s.svcHears = true ↔ s.pwr.st = .run ∧ s.pwr.bootPending = false ∧ s.boot.ph ≠ .dead ∧ s.svc.lost = false := by
  simp [Chip.svcHears, and_assoc]

/-! ### Sessions -/

theorem inSession_closed {s : Chip} (f : Chip → SvcOut) (h : s.bit F.SVC_STAT_SESSION = false) : inSession s f = svcFault s 0xA5 :=
  if_neg (by simp [Chip.session, h])

theorem inSession_open {s : Chip} (f : Chip → SvcOut) (h : s.bit F.SVC_STAT_SESSION = true) : inSession s f = f s := if_pos h

theorem Chip.svcClose_closed {s : Chip} (h : s.bit F.SVC_STAT_SESSION = false) : s.svcClose = s := if_neg (by simp [Chip.session, h])

theorem Chip.svcClose_open {s : Chip} (h : s.bit F.SVC_STAT_SESSION = true) :
    s.svcClose = Chip.voleLeft (((((s.setBit F.SVC_STAT_SESSION false).setFld F.SVC_STAT_VER 0).setBit F.WDT_CTL_DBGPAUSE false).onCores 7
      (fun x => { x with halted := false })).occ 81) :=
  (if_pos h).trans (congrArg Chip.voleLeft (if_neg (by simp [Chip.session, h])))

theorem Chip.svcOpen_range (s : Chip) {hi lo : Nat} (h : hi < lo) :
    s.svcOpen hi lo = { ack := 1, words := [W Rc.RANGE], chip := (s.setReason R.SVC_STAT Rc.OK).setReason R.SVC_STAT Rc.RANGE } := if_pos h

theorem Chip.svcOpen_none (s : Chip) {hi lo : Nat} (le : lo ≤ hi) (no : min (s.offer 2).2 hi < max (s.offer 2).1 lo) :
    s.svcOpen hi lo = { ack := 1, words := [W Rc.VERSION], chip := (s.svcClose.setReason R.SVC_STAT Rc.OK).setReason R.SVC_STAT Rc.VERSION } := by
  rw [Chip.svcOpen, if_neg (Nat.not_lt.2 le), agree_none (a := s.offer 2) (b := (lo, hi)) no]
  rfl

theorem Chip.svcOpen_some (s : Chip) {hi lo : Nat} (le : lo ≤ hi) (ok : max (s.offer 2).1 lo ≤ min (s.offer 2).2 hi) :
    s.svcOpen hi lo = svcOk ((if s.session then s else (s.setBit F.SVC_STAT_SESSION true).occ 81).setFld F.SVC_STAT_VER (min (s.offer 2).2 hi))
      [W (min (s.offer 2).2 hi <<< 8)] := by
  rw [Chip.svcOpen, if_neg (Nat.not_lt.2 le), agree_some (a := s.offer 2) (b := (lo, hi)) ok]

theorem ofCid_cid (c : Core) : Core.ofCid c.cid = c := by cases c <;> rfl
theorem cid_lt (c : Core) : c.cid < 3 := by cases c <;> decide

theorem onHalted_running {s : Chip} {c : Core} (f : Core → SvcOut) (on : s.bit F.SVC_STAT_SESSION = true) (h : (s.core c).stopped = false) :
    onHalted s c.cid f = svcFault s Rc.BUSY := by
  rw [onHalted, inSession_open _ on, if_neg (by simp [ofCid_cid, h])]

theorem onHalted_stopped {s : Chip} {c : Core} (f : Core → SvcOut) (on : s.bit F.SVC_STAT_SESSION = true) (h : (s.core c).stopped = true) :
    onHalted s c.cid f = f c := by
  rw [onHalted, inSession_open _ on, if_pos (by simp [ofCid_cid, cid_lt, h]), ofCid_cid]

/-- The numbers 4 to 15 name no register. -/
theorem CoreSt.svcReg_none (x : CoreSt) (c : Core) {r : Nat} (h4 : 4 ≤ r) (h16 : r < 16) : x.svcReg c r = none := by
  unfold CoreSt.svcReg
  split
  · omega
  · omega
  · omega
  · omega
  · exact if_pos h16

theorem CoreSt.svcPutReg_none (x : CoreSt) (v : Word) {r : Nat} (h4 : 4 ≤ r) (h16 : r < 16) : x.svcPutReg r v = none := by
  unfold CoreSt.svcPutReg
  split
  · omega
  · omega
  · omega
  · omega
  · exact if_pos h16

/-! ### The loader -/

theorem Chip.ldrServe_deaf {s : Chip} (op : Nat) (f : Chip → Chip) (h : s.ldr.who = .off ∨ s.ldr.job ≠ .idle ∨ s.ldrSeqOf = bits (s.lcbWord 1) 31 24) :
    s.ldrServe op f = s := by
  refine if_neg ?_
  rcases h with h | h | h <;> simp [Chip.ldrSees, h]

theorem Chip.ldrServe_takes {s x : Chip} {op : Nat} (f : Chip → Chip) (on : s.ldr.who ≠ .off) (idle : s.ldr.job = .idle)
    (new : s.ldrSeqOf ≠ bits (s.lcbWord 1) 31 24) (mine : s.ldrOp = op ∨ s.ldrOp = 0 ∨ 4 < s.ldrOp) (hx : x = s.ldrTake) :
    s.ldrServe op f = if x.ldrOp = op then f x else x.ldrDone Rc.RANGE := by
  subst hx
  refine if_pos ?_
  rcases mine with h | h | h <;> simp [Chip.ldrSees, on, idle, new, h]

theorem Chip.ldrBufCheck_ok {s : Chip} {lo hi : Nat} (l : lo ≤ s.ldrCount) (h : s.ldrCount ≤ hi) (crc : crc36 (s.ldrBuf s.ldrCount) = bits (s.lcbWord 3) 31 0) :
    s.ldrBufCheck lo hi = Rc.OK := (if_neg (by omega)).trans (if_neg (Classical.not_not.2 crc))

theorem Chip.ldrBufCheck_crc {s : Chip} {lo hi : Nat} (l : lo ≤ s.ldrCount) (h : s.ldrCount ≤ hi) (crc : crc36 (s.ldrBuf s.ldrCount) ≠ bits (s.lcbWord 3) 31 0) :
    s.ldrBufCheck lo hi = 0xAE := (if_neg (by omega)).trans (if_pos crc)

theorem Chip.ldrBufCheck_range {s : Chip} {lo hi : Nat} (h : s.ldrCount < lo ∨ hi < s.ldrCount) : s.ldrBufCheck lo hi = Rc.RANGE := if_pos h

theorem Chip.ldrBegin_args {s : Chip} (ok : s.ldrArg / 2 = 0) (may : bitOf s.ldrArg 0 = false ∨ s.ldr.who ≠ .vole) :
    s.ldrBegin = if s.ldrBufCheck 16 16 ≠ Rc.OK then s.ldrDone (s.ldrBufCheck 16 16)
      else if (bitOf s.ldrArg 0 ∧ (s.ldrBuf 16).headD 0 ≠ voleMagic) ∨ !headerOk (bitOf s.ldrArg 0) (s.ldrBuf 16) then s.ldrAbandon 0xA9
      else
        let y := (s.setLdr { s.ldr with hdr := some (s.ldrBuf 16), vole := bitOf s.ldrArg 0 }).wr (lcb + 5) 0
        y.ldrErase (sectorsTo y.ldrBase (y.ldrBase + 15 + bits ((s.ldrBuf 16).getD 2 0) 18 0)) .erase := by
  refine if_neg ?_
  rintro (h | ⟨h, h'⟩)
  · exact h ok
  · rcases may with no | no
    · exact Bool.false_ne_true (no.symm.trans h)
    · exact no h'

theorem Chip.ldrData_none {s : Chip} (h : s.ldr.hdr = none) : s.ldrData = s.ldrDone 0xAD := by
  simp only [Chip.ldrData, h]

theorem Chip.ldrData_some {s : Chip} {hd : List Nat} (h : s.ldr.hdr = some hd) :
    s.ldrData = if s.ldrBufCheck 0 4096 ≠ Rc.OK then s.ldrDone (s.ldrBufCheck 0 4096)
      else if bits (hd.getD 2 0) 18 0 < s.ldrArg + s.ldrCount then s.ldrAbandon Rc.RANGE
      else if (List.range s.ldrCount).any (fun i => !s.flashErased (s.ldrBase + 16 + s.ldrArg + i)) then s.ldrAbandon Rc.NOT_ERASED
      else (s.setLdr { s.ldr with job := .data s.ldrCount }).flcRequest .loader (s.ldrBase + 16 + s.ldrArg) (progSteps (s.ldrBase + 16 + s.ldrArg) (s.ldrBuf s.ldrCount)) := by
  simp only [Chip.ldrData, h]

theorem Chip.ldrCommit_none {s : Chip} (h : s.ldr.hdr = none) : s.ldrCommit = s.ldrDone 0xAD := by
  simp only [Chip.ldrCommit, h]

theorem Chip.ldrCommit_some {s : Chip} {hd : List Nat} (h : s.ldr.hdr = some hd) :
    s.ldrCommit = if crc36 (s.flashNats (s.ldrBase + 16) (bits (hd.getD 2 0) 18 0)) ≠ hd.getD 3 0 then s.ldrAbandon 0xAA
      else (s.setLdr { s.ldr with job := .header, hdr := none }).flcRequest .loader s.ldrBase (progSteps (s.ldrBase + 1) (hd.drop 1) ++ progSteps s.ldrBase (hd.take 1)) := by
  simp only [Chip.ldrCommit, h]

/-! ### Vole -/

theorem Chip.voleLeft_none {s : Chip} (h : s.ldr.who ≠ .vole) : s.voleLeft = s := if_pos h

/-- A parked Fox A never leaves WAIT. -/
theorem Chip.endWait_parked {s : Chip} (h : s.ldr.parked = true) : s.endWait .foxA = s := if_neg (by simp [h])

/-! ### The obligation -/

/-- Settles O60: each request by its outcome, each loader command by its checks. -/
theorem servicePortAndLoader : Obligations.ServicePortAndLoader := by
  unfold Obligations.ServicePortAndLoader
  refine ⟨fun s x q late i req n addr m c r hi lo op data ws v chk k f hi' => ?_, fun s o n addr m c r hi lo op ws v shut ho => ?_, fun s t n addr m r hi lo op ws v c on => ?_,
    fun s x => ?_, fun s h hh => ?_, fun s no => ?_, fun s x n hd on idle new hx hn => ?_⟩
  · have gives {d : Chip} (h : s.svcRequest late req data k f = d) : s.gives i d := by
      rcases hi' with ⟨rfl, rfl, rfl, rfl, rfl, rfl⟩ | ⟨rfl, rfl, rfl, rfl, rfl, rfl⟩ | ⟨rfl, rfl, rfl, rfl, rfl⟩ | ⟨rfl, rfl, rfl, rfl, rfl, rfl⟩ | ⟨rfl, rfl, rfl, rfl, rfl, rfl⟩
        | ⟨rfl, rfl, rfl, rfl, rfl, rfl⟩ | ⟨rfl, rfl, rfl, rfl, rfl, rfl⟩ | ⟨rfl, rfl, rfl, rfl, rfl⟩ | ⟨rfl, rfl, rfl, rfl, rfl, rfl⟩ | ⟨rfl, rfl, rfl, rfl, rfl, rfl⟩
        | ⟨rfl, rfl, rfl, rfl, rfl, rfl⟩
      · exact Chip.gives_of h fun y => exec_svcOpen ⟨y, s⟩ q hi lo
      · exact Chip.gives_of h fun y => exec_svcRead ⟨y, s⟩ q n addr
      · exact Chip.gives_of h fun y => exec_svcWrite ⟨y, s⟩ late addr data k
      · exact Chip.gives_of h fun y => exec_svcHalt ⟨y, s⟩ q m
      · exact Chip.gives_of h fun y => exec_svcRun ⟨y, s⟩ q m
      · exact Chip.gives_of h fun y => exec_svcStep ⟨y, s⟩ q c
      · exact Chip.gives_of h fun y => exec_svcRegrd ⟨y, s⟩ q c r
      · exact Chip.gives_of h fun y => exec_svcRegwr ⟨y, s⟩ late c r v k
      · exact Chip.gives_of h fun y => exec_svcReset ⟨y, s⟩ q addr
      · exact Chip.gives_of h fun y => exec_svcClose ⟨y, s⟩ q
      · exact Chip.gives_of h fun y => exec_svcStatus ⟨y, s⟩ q op
    refine ⟨fun rest hx => ?_, fun h1 h2 h3 no => gives ?_, fun run h3 boot dead lost o hx ho => ?_⟩
    · subst hx
      exact gives (if_pos (s.svcWakes_iff.2 rest))
    · refine (if_neg (by simp [Chip.svcWakes_awake h1 h2 h3])).trans (if_pos ?_)
      rcases no with h | h | h | h <;> simp [Chip.svcHears, h]
    · have awake := Chip.svcWakes_awake (s := s) (by rw [run]; decide) (by rw [run]; decide) h3
      have hears := s.svcHears_iff.2 ⟨run, boot, dead, lost⟩
      have out : s.svcOutcome x req data k f = o := by
        rcases ho with ⟨good, h⟩ | ⟨v2, bad, rfl⟩
        · rcases h with ⟨a, w, held, rfl⟩ | ⟨fresh, rfl⟩
          · exact Chip.svcOutcome_again f good held
          · exact Chip.svcOutcome_new f good fresh
        · exact Chip.svcOutcome_badCheck f v2 bad
      have answered : s.svcRequest late req data k f = svcAnswered late (s.fld F.SVC_STAT_VER = 2) req data o := by
        rw [Chip.svcRequest, if_neg (by simp [awake]), if_neg (by simp [hears]), Chip.svcDo_eq late req data k f hx, out]
      rw [answered, svcAnswered] at gives
      refine ⟨fun now => ⟨fun ack v2 => gives ?_, fun plain => gives ?_⟩, fun hold => gives (if_pos hold)⟩
      · rw [if_neg (by simp [now]), svcResponse, if_pos (by simp [ack, v2]), ack]
      · rw [if_neg (by simp [now]), svcResponse, if_neg (by rcases plain with h | h <;> simp [h])]
  · obtain rfl : o = svcFault s 0xA5 := ho
    have closed (f : Chip → SvcOut) := inSession_closed f shut
    have halted (f : Core → SvcOut) : onHalted s c f = svcFault s 0xA5 := closed _
    refine ⟨closed _, closed _, closed _, closed _, halted _, halted _, halted _, closed _, closed _, closed _, fun le ok => ?_, fun lt => s.svcOpen_range lt, fun le no => ?_⟩
    · rw [s.svcOpen_some le ok, Chip.session, if_neg (by simp [shut])]
    · rw [s.svcOpen_none le no, Chip.svcClose_closed shut]
  · have within (f : Chip → SvcOut) := inSession_open f on
    refine ⟨fun lt => s.svcOpen_range lt, fun le ok => ?_, fun le no => s.svcOpen_none le no, fun l hl => ?_, fun hl => ?_, fun hw => ?_, fun hw => ?_, within _, within _,
      fun running => ⟨onHalted_running _ on running, onHalted_running _ on running, onHalted_running _ on running⟩,
      fun stopped => ⟨onHalted_stopped _ on stopped, onHalted_stopped _ on stopped, onHalted_stopped _ on stopped, onHalted_stopped _ on stopped, onHalted_stopped _ on stopped,
        onHalted_stopped _ on stopped, fun h4 h16 => ⟨(onHalted_stopped _ on stopped).trans ?_, (onHalted_stopped _ on stopped).trans ?_⟩⟩,
      fun odd => (within _).trans (if_pos ?_), fun even => (within _).trans (if_neg ?_), within _, (within _).trans (if_pos rfl), fun other => (within _).trans (if_neg other)⟩
    · rw [s.svcOpen_some le ok, Chip.session, if_pos on]
    · rw [Chip.svcRead, within, hl]
    · rw [Chip.svcRead, within, hl]
    · rw [Chip.svcWrite, within, hw]
    · rw [Chip.svcWrite, within, hw]
    · rw [(s.core c).svcReg_none c h4 h16]
    · rw [(s.core c).svcPutReg_none v h4 h16]
    · simp [bitOf, odd]
    · simp [bitOf, even]
  · have timeout {d : Chip} (h : s.svcTimeout = d) : s.gives .svcSessionTimeout d := Chip.gives_of h fun _ => rfl
    have reset (k : Nat) {d : Chip} (h : s.svcLineReset k = d) : s.gives (.svcLineReset k) d := Chip.gives_of h fun _ => rfl
    refine ⟨fun no => timeout ?_, fun on late hx => timeout ?_, fun k h1 h2 h3 => ?_, fun k rest hx => reset k ?_⟩
    · rcases no with h | h
      · rw [Chip.svcTimeout, Chip.svcClose_closed h, ite_self]
      · exact if_neg (Nat.not_le.2 h)
    · subst hx
      exact (if_pos late).trans (Chip.svcClose_open on)
    · have awake := Chip.svcWakes_awake h1 h2 h3
      have same : s.svcWakeEdge = s := if_neg (by simp [awake])
      refine ⟨fun few => reset k ?_, fun many => reset k ?_⟩
      · rw [Chip.svcLineReset, same, awake, if_neg (by simpa using few)]
      · rw [Chip.svcLineReset, same, awake, if_pos (by simpa using many)]
    · subst hx
      have wakes := s.svcWakes_iff.2 rest
      rw [Chip.svcLineReset, wakes, if_neg (by simp)]
  · subst hh
    have start {d : Chip} (h : s.voleStart = d) : s.gives .voleStart d := Chip.gives_of h fun _ => rfl
    have timeout {d : Chip} (h : s.voleIdleTimeout = d) : s.gives .voleIdleTimeout d := Chip.gives_of h fun _ => rfl
    have begins : s.voleStart = if s.cores.foxA.run ≠ .run || s.cores.foxA.halted || s.cores.foxA.pc.toNat ≠ bits ((s.header voleBase).getD 5 0) 23 0 || s.ldr.who ≠ .off || !s.voleGood then s
        else if !s.voleAlone then (s.draw.wr (lcb + 1) (lcbStatus (Config.freeNat s.free % 256) false false Rc.BUSY)).volePark
        else ((s.wrs 0x10000 (s.flashRds (voleBase + 16) (bits ((s.header voleBase).getD 2 0) 18 0))).voleRuns (bits ((s.header voleBase).getD 2 0) 18 0)).loaderReady 2 := rfl
    generalize hentry : bits ((s.header voleBase).getD 5 0) 23 0 = entry at begins ⊢
    refine ⟨fun no => start (begins.trans (if_pos ?_)), fun run held pc off good => ?_, fun no => timeout ?_, fun who idle late => ?_, Chip.endWait_parked, ⟨rfl, rfl, stBit_stSet_false _ _⟩, decide_eq_true_iff,
      fun c u hu lock => ?_⟩
    · have foxA : s.core .foxA = s.cores.foxA := rfl
      rw [foxA] at no
      rcases no with h | h | h | h | h <;> simp [h]
    · have foxA : s.core .foxA = s.cores.foxA := rfl
      rw [foxA] at run held pc
      have begun := begins.trans (if_neg (by simp [run, held, pc, off, good]))
      exact ⟨fun alone => start (begun.trans (if_neg (by simp [alone]))), fun others => start (begun.trans (if_pos (by simp [others])))⟩
    · rw [Chip.voleIdleTimeout]
      split
      next h =>
        rw [Bool.and_eq_true, decide_eq_true_iff, decide_eq_true_iff] at h
        refine Chip.voleLeft_none fun who => ?_
        rcases no with no | no | no
        · exact no who
        · exact no h.1
        · omega
      next => rfl
    · have left : s.voleIdleTimeout = if s.ldr.started then s.wdtEnable.wdtKick 0 else s.volePark :=
        (if_pos (by simp [idle, late])).trans (if_neg (Classical.not_not.2 who))
      exact ⟨fun st => timeout (left.trans (if_pos st)), fun st => timeout (left.trans (if_neg (by simp [st])))⟩
    · subst hu
      rw [Chip.svcStepCore, Chip.core_setCore_self, lock]
  · exact ⟨Chip.gives_of (Chip.ldrServe_deaf 1 _ no) fun _ => rfl, Chip.gives_of (Chip.ldrServe_deaf 2 _ no) fun _ => rfl,
      Chip.gives_of (Chip.ldrServe_deaf 3 _ no) fun _ => rfl, Chip.gives_of (Chip.ldrServe_deaf 4 _ no) fun _ => rfl⟩
  · have takes {op : Nat} (f : Chip → Chip) (mine : s.ldrOp = op ∨ s.ldrOp = 0 ∨ 4 < s.ldrOp) := Chip.ldrServe_takes f on idle new mine hx
    subst hn
    refine ⟨fun none other => Chip.gives_of ((takes Chip.ldrBegin (.inr none)).trans (if_neg other)) fun q => exec_loaderBegin ⟨q, s⟩, fun op op' => ?_, fun op op' => ?_, fun op op' => ?_, fun op op' => ?_⟩
    · have begins {d : Chip} (h : x.ldrBegin = d) : s.gives .loaderBegin d := Chip.gives_of ((takes Chip.ldrBegin (.inl op)).trans ((if_pos op').trans h)) fun q => exec_loaderBegin ⟨q, s⟩
      refine ⟨fun bad => begins (if_pos bad), fun ok may => ?_⟩
      rw [Chip.ldrBegin_args ok may] at begins
      refine ⟨fun length => begins ?_, fun length crc => begins ?_, fun length crc vole hv => ?_⟩
      · rw [Chip.ldrBufCheck_range (by omega)]
        exact if_pos (by decide)
      · rw [Chip.ldrBufCheck_crc (by omega) (by omega) (by rwa [length])]
        exact if_pos (by decide)
      · rw [Chip.ldrBufCheck_ok (by omega) (by omega) (by rwa [length]), if_neg (Classical.not_not.2 rfl), ← hv] at begins
        refine ⟨fun bad => begins (if_pos (bad.imp_right fun h => by simp [h])), fun magic good y hy => begins ((if_neg ?_).trans ?_)⟩
        · rintro (⟨h, h'⟩ | h)
          · exact magic.elim (fun no => Bool.false_ne_true (no.symm.trans h)) h'
          · rw [good] at h
            exact Bool.false_ne_true h
        · subst hy
          rfl
    · have data {d : Chip} (h : x.ldrData = d) : s.gives .loaderData d := Chip.gives_of ((takes Chip.ldrData (.inl op)).trans ((if_pos op').trans h)) fun q => exec_loaderData ⟨q, s⟩
      refine ⟨fun none => data (Chip.ldrData_none none), fun some => ?_⟩
      rw [Chip.ldrData_some some] at data
      refine ⟨fun long => data ?_, fun fits crc => data ?_, fun fits crc a ha => ?_⟩
      · rw [Chip.ldrBufCheck_range (.inr long)]
        exact if_pos (by decide)
      · rw [Chip.ldrBufCheck_crc (Nat.zero_le _) fits crc]
        exact if_pos (by decide)
      · rw [Chip.ldrBufCheck_ok (Nat.zero_le _) fits crc, if_neg (Classical.not_not.2 rfl), ← ha] at data
        refine ⟨fun past => data (if_pos past), fun within full => data ((if_neg (Nat.not_lt.2 within)).trans (if_pos ?_)), fun within blank => data ((if_neg (Nat.not_lt.2 within)).trans (if_neg ?_))⟩
        · obtain ⟨i, hi, full⟩ := full
          exact List.any_eq_true.2 ⟨i, List.mem_range.2 hi, by rw [full]; rfl⟩
        · intro h
          obtain ⟨i, hi, full⟩ := List.any_eq_true.1 h
          rw [blank i (List.mem_range.1 hi)] at full
          exact Bool.false_ne_true full
    · have commit {d : Chip} (h : x.ldrCommit = d) : s.gives .loaderCommit d := Chip.gives_of ((takes Chip.ldrCommit (.inl op)).trans ((if_pos op').trans h)) fun q => exec_loaderCommit ⟨q, s⟩
      refine ⟨fun none => commit (Chip.ldrCommit_none none), fun some => ?_⟩
      rw [Chip.ldrCommit_some some] at commit
      exact ⟨fun bad => commit (if_pos bad), fun good => commit (if_neg (Classical.not_not.2 good))⟩
    · have stream {d : Chip} (h : x.ldrStream = d) : s.gives .loaderStream d := Chip.gives_of ((takes Chip.ldrStream (.inl op)).trans ((if_pos op').trans h)) fun q => exec_loaderStream ⟨q, s⟩
      rw [Chip.ldrStream] at stream
      refine ⟨fun long => stream ?_, fun fits crc => stream ?_, fun fits crc => ?_⟩
      · rw [Chip.ldrBufCheck_range (.inr long)]
        exact if_pos (by decide)
      · rw [Chip.ldrBufCheck_crc (Nat.zero_le _) fits crc]
        exact if_pos (by decide)
      · rw [Chip.ldrBufCheck_ok (Nat.zero_le _) fits crc, if_neg (Classical.not_not.2 rfl)] at stream
        refine ⟨fun cut => stream (if_pos cut), fun whole => ⟨fun bad => stream ((if_neg (Classical.not_not.2 whole)).trans (if_pos bad)), fun good => stream ((if_neg (Classical.not_not.2 whole)).trans (if_neg (Classical.not_not.2 good)))⟩⟩

end Sys2Proof.Machine
end

section
/-!
PROOFS. What every operation of the chip keeps: time, which passes with the period alone, and the canonical form of the stores.
`Steady τ P` is one predicate for both, so that one rule per operation serves both.
-/
namespace Sys2Proof.Machine

/-- The chip is at time `τ`, and where `P` holds its stores have their canonical form. -/
structure Chip.Steady (τ : Nat) (P : Prop) (s : Chip) : Prop where
  now_eq : s.now = τ
  canonical : P → s.canonical = true

/-- An access that ends in a chip ends in a steady one. -/
def Acc.Steady {α : Type} (τ : Nat) (P : Prop) : Acc α → Prop
  | .ok _ s | .trap _ s => s.Steady τ P
  | .wait => True

namespace Chip.Steady

variable {τ : Nat} {P : Prop}

theorem refl (s : Chip) : s.Steady s.now (s.canonical = true) := ⟨rfl, id⟩

/-- An operation that writes none of the stores. -/
theorem congr {s t : Chip} (h : s.Steady τ P)
    (ht : (t.now, t.regs, t.sram, t.flash, t.otp, t.mirror) = (s.now, s.regs, s.sram, s.flash, s.otp, s.mirror)) : t.Steady τ P := by
  simp only [Prod.mk.injEq] at ht
  obtain ⟨hnow, hregs, hsram, hflash, hotp, hmirror⟩ := ht
  exact ⟨hnow.trans h.now_eq, fun hp => by simpa [Chip.canonical, hregs, hsram, hflash, hotp, hmirror] using h.canonical hp⟩

theorem regs_wf {s : Chip} (h : s.Steady τ P) (hp : P) : Cells.wf regReset s.regs = true := by
  have := h.canonical hp; simp_all [Chip.canonical]

theorem sram_wf {s : Chip} (h : s.Steady τ P) (hp : P) : Cells.wfU s.sram = true := by
  have := h.canonical hp; simp_all [Chip.canonical]

theorem flash_wf {s : Chip} (h : s.Steady τ P) (hp : P) : Cells.wf flashDefault s.flash = true := by
  have := h.canonical hp; simp_all [Chip.canonical]

theorem otp_wf {s : Chip} (h : s.Steady τ P) (hp : P) : Cells.wf zeroWord s.otp = true := by
  have := h.canonical hp; simp_all [Chip.canonical]

theorem mirror_wf {s : Chip} (h : s.Steady τ P) (hp : P) : Cells.wf zeroWord s.mirror = true := by
  have := h.canonical hp; simp_all [Chip.canonical]

/-- An operation that writes stores, each canonical again. -/
theorem of_wf {s t : Chip} (h : s.Steady τ P) (hnow : t.now = s.now) (hregs : P → Cells.wf regReset t.regs = true)
    (hsram : P → Cells.wfU t.sram = true) (hflash : P → Cells.wf flashDefault t.flash = true)
    (hotp : P → Cells.wf zeroWord t.otp = true) (hmirror : P → Cells.wf zeroWord t.mirror = true) : t.Steady τ P :=
  ⟨hnow.trans h.now_eq, fun hp => by
    simp [Chip.canonical, hregs hp, hsram hp, hflash hp, hotp hp, hmirror hp]⟩

/-! ### Updates of fields that are no stores -/

/-- A record update that names no store: `now` and the five stores are those of `s`. -/
theorem upd {s : Chip} {free busAt : Nat} {sramErr flashOne flashErr sramLost flashBadSec : List Nat} {busUse : List (Agent × Nat)}
    {flashBad : List (Nat × Word)} {rdata : Word} {stamped : Option (StampItem × Stamp)} {owl : Owl} {cfg : StreamCfg}
    {clk : Clocks} {pins : Pins} {pwr : Power} {bear : Bear} {mon : Monitor} {icu : Icu} {evr : Evr} {out : Outbox}
    {cores : Cores} {tmr : Timers} {flc : Flc} {cph : Cph} {syn : Syn} {lnk : Lnk} {stopping : List Block} {mesh : Mesh}
    {nfc : Nfc} {hp : HostPort} {svc : SvcPort} {ldr : Ldr} {boot : Boot} (h : s.Steady τ P) :
    Steady τ P ⟨s.now, free, s.regs, s.sram, sramErr, flashOne, flashErr, busAt, busUse, sramLost, s.flash, flashBad,
      flashBadSec, s.otp, s.mirror, rdata, stamped, owl, cfg, clk, pins, pwr, bear, mon, icu, evr, out, cores, tmr, flc, cph,
      syn, lnk, stopping, mesh, nfc, hp, svc, ldr, boot⟩ :=
  ⟨h.now_eq, h.canonical⟩

/-! ### Ways that operations are put together -/

/-- A step that later steps use more than once. -/
theorem share {s t : Chip} (h : s.Steady τ P) (ht : s.Steady τ P → t.Steady τ P) : t.Steady τ P := ht h

theorem ite {c : Prop} {_ : Decidable c} {s t : Chip} (hs : s.Steady τ P) (ht : t.Steady τ P) : (if c then s else t).Steady τ P := by
  split <;> assumption

theorem ite_snd {α : Type} {c : Prop} {_ : Decidable c} {s t : α × Chip} (hs : s.2.Steady τ P) (ht : t.2.Steady τ P) :
    (if c then s else t).2.Steady τ P := by
  split <;> assumption

theorem snd_of_eq {α : Type} {x : α × Chip} {a : α} {s : Chip} (hx : x = (a, s)) (h : x.2.Steady τ P) : s.Steady τ P := by
  subst hx; exact h

theorem snd_snd_of_eq {α β : Type} {x : α × β × Chip} {a : α} {b : β} {s : Chip} (hx : x = (a, b, s)) (h : x.2.2.Steady τ P) :
    s.Steady τ P := by
  subst hx; exact h

theorem foldl {α : Type} {f : Chip → α → Chip} {l : List α} {s : Chip} (hf : ∀ c x, c.Steady τ P → (f c x).Steady τ P)
    (h : s.Steady τ P) : (l.foldl f s).Steady τ P := by
  induction l generalizing s with
  | nil => exact h
  | cons x l ih => exact ih (hf s x h)

theorem foldl_fst {α β : Type} {f : Chip × β → α → Chip × β} {l : List α} {s : Chip × β}
    (hf : ∀ c x, c.1.Steady τ P → (f c x).1.Steady τ P) (h : s.1.Steady τ P) : (l.foldl f s).1.Steady τ P := by
  induction l generalizing s with
  | nil => exact h
  | cons x l ih => exact ih (hf s x h)

theorem foldl_snd {α β : Type} {f : β × Chip → α → β × Chip} {l : List α} {s : β × Chip}
    (hf : ∀ c x, c.2.Steady τ P → (f c x).2.Steady τ P) (h : s.2.Steady τ P) : (l.foldl f s).2.Steady τ P := by
  induction l generalizing s with
  | nil => exact h
  | cons x l ih => exact ih (hf s x h)

end Chip.Steady

namespace Acc.Steady

variable {α β : Type} {τ : Nat} {P : Prop}

theorem ok {v : α} {s : Chip} (h : s.Steady τ P) : (Acc.ok v s).Steady τ P := h

theorem trap {t : Trap} {s : Chip} (h : s.Steady τ P) : (Acc.trap t s : Acc α).Steady τ P := h

theorem of_ok {x : Acc α} {v : α} {s : Chip} (hx : x = .ok v s) (h : x.Steady τ P) : s.Steady τ P := by
  subst hx; exact h

theorem of_trap {x : Acc α} {t : Trap} {s : Chip} (hx : x = .trap t s) (h : x.Steady τ P) : s.Steady τ P := by
  subst hx; exact h

theorem andThen {x : Acc α} {f : α → Chip → Acc β} (hx : x.Steady τ P) (hf : ∀ v s, s.Steady τ P → (f v s).Steady τ P) :
    (x.andThen f).Steady τ P := by
  cases x with
  | ok v s => exact hf v s hx
  | trap t s => exact hx
  | wait => trivial

end Acc.Steady

namespace Chip.Steady

variable {τ : Nat} {P : Prop}

/-! ### The writes of the stores -/

theorem setReg {s : Chip} {a : Nat} {v : Word} (h : s.Steady τ P) : (s.setReg a v).Steady τ P :=
  h.of_wf rfl (fun hp => Cells.wf_set _ _ _ _ (h.regs_wf hp)) h.sram_wf h.flash_wf h.otp_wf h.mirror_wf

theorem wr {s : Chip} {a : Nat} {v : Word} (h : s.Steady τ P) : (s.wr a v).Steady τ P := by
  unfold Chip.wr
  split
  · exact h.of_wf rfl h.regs_wf (fun hp => Cells.wfU_setU _ _ _ (h.sram_wf hp)) h.flash_wf h.otp_wf h.mirror_wf
  · exact h

theorem losePower {s : Chip} {m : Nat} (h : s.Steady τ P) : (s.losePower m).Steady τ P :=
  h.of_wf rfl h.regs_wf (fun hp => Cells.wfU_filter _ _ (h.sram_wf hp)) h.flash_wf h.otp_wf h.mirror_wf

theorem flashPut {s : Chip} {a : Nat} {v : Word} (h : s.Steady τ P) : (s.flashPut a v).Steady τ P :=
  h.of_wf rfl h.regs_wf h.sram_wf (fun hp => Cells.wf_set _ _ _ _ (h.flash_wf hp)) h.otp_wf h.mirror_wf

theorem flashClear {s : Chip} {b : Nat} (h : s.Steady τ P) : (s.flashClear b).Steady τ P :=
  h.of_wf rfl h.regs_wf h.sram_wf (fun hp => Cells.wf_filter _ _ _ (h.flash_wf hp)) h.otp_wf h.mirror_wf

theorem flashSpoil {s : Chip} {f : FlStep} (h : s.Steady τ P) : (s.flashSpoil f).Steady τ P := by
  cases f with
  | prog => exact h.congr rfl
  | erase => exact h.of_wf rfl h.regs_wf h.sram_wf (fun hp => Cells.wf_filter _ _ _ (h.flash_wf hp)) h.otp_wf h.mirror_wf
  | sector => exact h

/-- A word of the OTP row. -/
theorem setOtp {s : Chip} {i : Nat} {v : Word} (h : s.Steady τ P) :
    Steady τ P { s with otp := Cells.set zeroWord s.otp i v } :=
  h.of_wf rfl h.regs_wf h.sram_wf h.flash_wf (fun hp => Cells.wf_set _ _ _ _ (h.otp_wf hp)) h.mirror_wf

/-- A word of the mirror. -/
theorem setMirror {s : Chip} {a : Nat} {v : Word} (h : s.Steady τ P) :
    Steady τ P { s with mirror := Cells.set zeroWord s.mirror a v } :=
  h.of_wf rfl h.regs_wf h.sram_wf h.flash_wf h.otp_wf (fun hp => Cells.wf_set _ _ _ _ (h.mirror_wf hp))

theorem otpCut_wf {s : Chip} (h : s.Steady τ P) (hp : P) : Cells.wf zeroWord s.otpCut = true := by
  have hw := h.otp_wf hp
  unfold Chip.otpCut
  split
  · split
    · exact Cells.wf_set _ _ _ _ hw
    · exact hw
  · exact hw

end Chip.Steady

end Sys2Proof.Machine
end

section
/-!
PROOFS. Each operation of the chip keeps a steady chip steady: one rule per function of the model, under the function's name,
in the order of the model's files, each named in the heading of its part. A rule follows the branches of its function and
cites the rules of what the function calls.
-/
namespace Sys2Proof.Machine.Chip.Steady
variable {τ : Nat} {P : Prop}

/-! ### Ops -/

theorem setFld {s : Chip} {f : Fld} {v : Nat} (h : s.Steady τ P) : (s.setFld f v).Steady τ P := h.setReg

theorem setBit {s : Chip} {f : Fld} {b : Bool} (h : s.Steady τ P) : (s.setBit f b).Steady τ P := h.setFld

theorem setReason {s : Chip} {stat code : Nat} (h : s.Steady τ P) : (s.setReason stat code).Steady τ P := h.setFld

theorem count {s : Chip} {f : Fld} {n : Nat} (h : s.Steady τ P) : (s.count f n).Steady τ P := h.setFld

theorem draw {s : Chip} (h : s.Steady τ P) : s.draw.Steady τ P := h.upd

theorem wrs {s : Chip} {a : Nat} {l : List Word} (h : s.Steady τ P) : (s.wrs a l).Steady τ P := by
  induction l generalizing s a with
  | nil => exact h
  | cons v l ih => exact ih h.wr

theorem wrB {s : Chip} {a : Nat} {b : Byte} (h : s.Steady τ P) : (s.wrB a b).Steady τ P := h.wr

theorem wrBs {s : Chip} {a : Nat} {l : List Byte} (h : s.Steady τ P) : (s.wrBs a l).Steady τ P := by
  induction l generalizing s a with
  | nil => exact h
  | cons v l ih => exact ih h.wrB

theorem setCore {s : Chip} {c : Core} {x : CoreSt} (h : s.Steady τ P) : (s.setCore c x).Steady τ P := by
  unfold Chip.setCore
  split <;> exact h.upd

theorem stamp {s : Chip} {t : Nat} (h : s.Steady τ P) : (s.stamp t).2.Steady τ P := h.upd

/-! ### Pads -/

theorem enterPhase {s : Chip} {p : Phase} (h : s.Steady τ P) : (s.enterPhase p).Steady τ P := h.upd

/-! ### Irq -/

theorem setEvrFlag {s : Chip} {c : Nat} (h : s.Steady τ P) : (s.setEvrFlag c).Steady τ P := .ite h.setFld h.setFld

theorem deliver {s : Chip} {c : Nat} (h : s.Steady τ P) : (s.deliver c).Steady τ P := h.upd

theorem pulse {s : Chip} {c : Nat} (h : s.Steady τ P) : (s.pulse c).Steady τ P :=
  .ite h (Steady.upd (Steady.deliver (.ite h.setEvrFlag.upd h.setEvrFlag)))

theorem publish {s : Chip} {p : Nat} (h : s.Steady τ P) : (s.publish p).Steady τ P :=
  .ite (Steady.foldl (fun _ _ h1 => h1.pulse) h) (.ite h.count h.upd)

theorem pend {s : Chip} {n : Nat} (h : s.Steady τ P) : (s.pend n).Steady τ P := h.setFld.upd

theorem unpend {s : Chip} {n st : Nat} (h : s.Steady τ P) : (s.unpend n st).Steady τ P := h.setFld.upd

theorem occSeen {s : Chip} {n : Nat} (h : s.Steady τ P) : (s.occSeen n).Steady τ P := by
  unfold Chip.occSeen
  split
  · exact h.pend
  · exact .ite h.upd h
  · exact h

theorem occHold {s : Chip} {n : Nat} (h : s.Steady τ P) : (s.occHold n).Steady τ P := .ite h.upd h

theorem occ {s : Chip} {n : Nat} (h : s.Steady τ P) : (s.occ n).Steady τ P :=
  .ite (.ite h.occSeen h.occHold) (Steady.publish (.ite h.occSeen h.occHold))

theorem levelsPend {s : Chip} (h : s.Steady τ P) : s.levelsPend.Steady τ P :=
  .ite h (Steady.foldl (fun _ _ h1 => .ite h1.pend h1) h)

theorem releaseHeld {s : Chip} (h : s.Steady τ P) : s.releaseHeld.Steady τ P :=
  Steady.levelsPend (Steady.foldl (fun _ _ h2 => h2.publish) (Steady.upd (Steady.foldl (fun _ _ h1 => h1.occSeen) h.upd)))

theorem recordLoss {s : Chip} {n r skip : Nat} (h : s.Steady τ P) : (s.recordLoss n r skip).Steady τ P := h.upd

theorem withdraw {s : Chip} {n : Nat} (h : s.Steady τ P) : (s.withdraw n).Steady τ P := h.recordLoss.unpend

theorem icuClaim {s : Chip} {t : Nat} (h : s.Steady τ P) : (s.icuClaim t).2.Steady τ P := by
  unfold Chip.icuClaim
  split
  · exact h.recordLoss.unpend.setFld.upd
  · exact h.upd

theorem icuClaimRead {s : Chip} {ag : Agent} {t : Nat} (h : s.Steady τ P) : (s.icuClaimRead ag t).2.Steady τ P :=
  .ite_snd h.icuClaim h.setReason

theorem icuDone {s : Chip} {ag : Agent} {t n : Nat} (h : s.Steady τ P) : (s.icuDone ag t n).Steady τ P :=
  .ite h.setReason (.ite h.setReason (.ite h.setFld.setReason.upd.pend h.setFld.setReason.upd.unpend))

theorem retrig {s : Chip} {n : Nat} (h : s.Steady τ P) : (s.retrig n).Steady τ P := by
  unfold Chip.retrig
  split
  · exact h
  · split
    · exact .ite h.pend h
    · exact .ite h h.withdraw
    · exact h

theorem icuSrcWrite {s : Chip} {ag : Agent} {n : Nat} {v : Word} (h : s.Steady τ P) : (s.icuSrcWrite ag n v).Steady τ P :=
  .ite h (.ite h.setReason (.ite h.setReason (.ite h.setFld.setReason.retrig h.setFld.setReason)))

theorem icuModWrite {s : Chip} {t : Nat} {v : Word} (h : s.Steady τ P) : (s.icuModWrite t v).Steady τ P :=
  .ite h.setReason (.ite h.setReason h.setFld.setReason)

theorem icuSwset {s : Chip} {v : Word} (h : s.Steady τ P) : (s.icuSwset v).Steady τ P :=
  Steady.foldl (fun _ _ h1 => .ite h1.occ h1) h

theorem evrRefuse {s : Chip} {code : Nat} (h : s.Steady τ P) : (s.evrRefuse code).Steady τ P := .ite h.setReason.occ h.setReason

theorem evrChWrite {s : Chip} {ag : Agent} {c : Nat} {v : Word} (h : s.Steady τ P) : (s.evrChWrite ag c v).Steady τ P :=
  .ite h (.ite h.evrRefuse (.ite h.evrRefuse (.ite h.setReg.setReason h.evrRefuse)))

theorem evrTsubWrite {s : Chip} {ag : Agent} {t : Nat} {v : Word} (h : s.Steady τ P) : (s.evrTsubWrite ag t v).Steady τ P :=
  .ite h (.ite h.evrRefuse (.ite h.evrRefuse (.ite h.setFld.setReason h.evrRefuse)))

theorem evrSwpub {s : Chip} {ag : Agent} {v : Word} (h : s.Steady τ P) : (s.evrSwpub ag v).Steady τ P :=
  .ite h.evrRefuse (.ite h.evrRefuse (.ite h.evrRefuse h.setReason.upd))

theorem evrClearWrite {s : Chip} {ag : Agent} {v : Word} (h : s.Steady τ P) : (s.evrClearWrite ag v).Steady τ P :=
  .ite h.evrRefuse (.ite h.evrRefuse h.setFld.setReason)

theorem evrQcfgWrite {s : Chip} {v : Word} (h : s.Steady τ P) : (s.evrQcfgWrite v).Steady τ P :=
  .ite h.evrRefuse (.ite h.evrRefuse (.ite h.evrRefuse h.setFld.setReason))

/-! ### Bear -/

theorem answer {s : Chip} {r : Answer} (h : s.Steady τ P) : (s.answer r).Steady τ P :=
  Steady.share h.setFld.setFld.setFld.setFld fun h1 => Steady.upd
      (.ite (.ite (Steady.setReg (Steady.setReg (.ite h1.setReg h1))) (Steady.setReg (.ite h1.setReg h1))) (.ite h1.setReg h1))

theorem setBear {s : Chip} {b : Bear} (h : s.Steady τ P) : (s.setBear b).Steady τ P := h.upd

theorem syncLevel {s : Chip} (h : s.Steady τ P) : s.syncLevel.Steady τ P := h.setBear

theorem dropClaim {s : Chip} {n : Nat} (h : s.Steady τ P) : (s.dropClaim n).Steady τ P := h.setBear

theorem deny {s : Chip} {n code : Nat} (h : s.Steady τ P) : (s.deny n code).Steady τ P := h.dropClaim.answer

theorem grant {s : Chip} {c : Claim} {power : Nat} (h : s.Steady τ P) : (s.grant c power).Steady τ P := h.setBear.answer

theorem markFor {s : Chip} {c : Claim} {l : List Grant} (h : s.Steady τ P) : (s.markFor c l).Steady τ P := by
  induction l generalizing s with
  | nil => exact h
  | cons g l ih => exact .ite h (ih (.ite h.setBear.setBit h.setBear))

theorem preempt {s : Chip} {c : Claim} (h : s.Steady τ P) : (s.preempt c).Steady τ P := .ite h.markFor h

theorem examine {s : Chip} {stag k : Nat} (h : s.Steady τ P) : (s.examine stag k).1.Steady τ P := by
  unfold Chip.examine
  split
  · exact h
  extract_lets c never gap defer
  have hdefer (e : Option Nat) (cause : Nat) (s : Chip) (hs : s.Steady τ P) : (defer e cause s).Steady τ P :=
    .ite hs.setBear.answer hs.setBear
  clear_value c never gap defer
  split
  split
  split
  · exact h.grant
  split
  · exact h.grant
  extract_lets s0
  have h0 : s0.Steady τ P := .ite h.preempt h
  clear_value s0
  split
  · exact hdefer _ _ _ h0
  extract_lets late
  clear_value late
  split
  · exact h0.deny
  split
  · split
    · exact hdefer _ _ _ h0
    · exact h0.deny
  · exact hdefer _ _ _ h0

theorem examineAll {s : Chip} {p : Claim → Bool} (h : s.Steady τ P) : (s.examineAll p).Steady τ P :=
  Steady.foldl_fst (fun _ _ hc => hc.examine) h.syncLevel

theorem admission {s : Chip} (h : s.Steady τ P) : s.admission.Steady τ P := h.examineAll

theorem makeClaim {s : Chip} {n power count : Nat} {ms : Bool} {cls : Nat} {minP deadline : Option Nat} (h : s.Steady τ P) :
    (s.makeClaim n power count ms cls minP deadline).Steady τ P :=
  Steady.share h.dropClaim fun h1 => .ite h (.ite h1.deny (.ite h1.deny (.ite h1.deny (.ite h1.deny (.ite h1.deny h1.setBear)))))

theorem claim {s : Chip} {n power count : Nat} {ms : Bool} {minP deadline : optParam (Option Nat) none} (h : s.Steady τ P) :
    (s.claim n power count ms minP deadline).Steady τ P :=
  h.makeClaim

theorem claimCont {s : Chip} {n power : Nat} (h : s.Steady τ P) : (s.claimCont n power).Steady τ P := h.claim

theorem claimNow {s : Chip} {n power : Nat} (h : s.Steady τ P) : (s.claimNow n power).Steady τ P := h.claimCont.examineAll

theorem endGrant {s : Chip} {n : Nat} (h : s.Steady τ P) : (s.endGrant n).Steady τ P :=
  .ite (Steady.admission (.ite h.syncLevel.setBear.setBit.setBit h.syncLevel.setBear)) h

theorem release {s : Chip} {n : Nat} (h : s.Steady τ P) : (s.release n).Steady τ P := h.dropClaim.endGrant

theorem preemptStop {s : Chip} {n : Nat} (h : s.Steady τ P) : (s.preemptStop n).Steady τ P := by
  unfold Chip.preemptStop
  split
  · exact h
  · exact .ite h h.syncLevel.setBear.answer.admission

theorem reserve {s0 : Chip} {b : Resv} (h : s0.Steady τ P) : (s0.reserve b).2.2.Steady τ P := by
  unfold Chip.reserve
  extract_lets s
  have h1 : s.Steady τ P := .ite h.examineAll h.syncLevel
  dsimp only
  split
  · exact h1
  split
  · exact h1
  split
  · exact h1
  · exact h1.setBear

theorem egyResp {s : Chip} {ag : Agent} {v : Word} (h : s.Steady τ P) : (s.egyResp ag v).Steady τ P := h.reserve.setBear.setReason

theorem egyResc {s : Chip} {ag : Agent} {v : Word} (h : s.Steady τ P) : (s.egyResc ag v).Steady τ P := by
  unfold Chip.egyResc
  dsimp only
  split
  · exact h.setReason
  · exact .ite h.setReason h.setBear.setReason.admission

theorem egyResst {s : Chip} {ag : Agent} (h : s.Steady τ P) : (s.egyResst ag).2.Steady τ P := h.setBear

theorem expireResv {s : Chip} {i : Nat} (h : s.Steady τ P) : (s.expireResv i).Steady τ P := by
  unfold Chip.expireResv
  split
  · exact h
  · exact h.setBear.admission

theorem egyDecl {s : Chip} {n : Nat} {v : Word} (h : s.Steady τ P) : (s.egyDecl n v).Steady τ P :=
  .ite h (.ite h.setReason (.ite h.setReason (.ite h.setReason h.setReg.setReason)))

theorem reclamp {s : Chip} (h : s.Steady τ P) : s.reclamp.Steady τ P := .ite h h.syncLevel.setFld.setFld.setBear.admission

theorem egyLimWrite {s : Chip} {a : Nat} {v : Word} (h : s.Steady τ P) : (s.egyLimWrite a v).Steady τ P :=
  .ite h.setReason (.ite h.setReason h.setReg.setReason.reclamp)

theorem applyBudget {s : Chip} {body : List Nat} (h : s.Steady τ P) : (s.applyBudget body).2.Steady τ P :=
  .ite_snd h (.ite_snd h (Steady.reclamp (Steady.foldl (fun _ _ h2 => h2.setReg) h.setReg.setReg.setReg)))

theorem egySwclm {s : Chip} {n : Nat} {v : Word} (h : s.Steady τ P) : (s.egySwclm n v).Steady τ P :=
  .ite h (.ite h.setReg.release.setBit.setReason (.ite h.setReason h.setReg.claim.setReason))

theorem deadlinePassed {s : Chip} {n : Nat} (h : s.Steady τ P) : (s.deadlinePassed n).Steady τ P := by
  unfold Chip.deadlinePassed
  split
  · exact h
  · split
    · exact h
    · exact h.deny

theorem tempSample {s : Chip} {t : Int} (h : s.Steady τ P) : (s.tempSample t).Steady τ P :=
  Steady.share h.setFld.setFld fun h1 => Steady.admission (.ite (Steady.deny (.ite h1 h1.occ)) (.ite h1 h1.occ))

theorem vsysSample {s : Chip} {uV : Nat} (h : s.Steady τ P) : (s.vsysSample uV).Steady τ P :=
  .ite h (.ite h.syncLevel.setBear.admission h.syncLevel)

theorem storeSupply {s : Chip} (h : s.Steady τ P) : s.storeSupply.Steady τ P := h.upd

theorem takeSupply {s0 : Chip} {m : SupplyMeas} {code : Nat} (h : s0.Steady τ P) : (s0.takeSupply m code).Steady τ P :=
  h.syncLevel.setFld.setFld.setFld.setFld.setFld.setFld.setBear.setFld.upd.setFld.upd.setReason.storeSupply.admission

theorem measDone {s : Chip} {m : SupplyMeas} (h : s.Steady τ P) : (s.measDone m).Steady τ P :=
  Steady.share h.setBear fun h1 => .ite h1.setBear.setReason (.ite (.ite h1.setBear h1.takeSupply.occ) h1.takeSupply)

theorem measStart {s : Chip} (h : s.Steady τ P) : s.measStart.Steady τ P := .ite h (.ite h.syncLevel.upd h.syncLevel)

theorem measFallsDue {s : Chip} (h : s.Steady τ P) : s.measFallsDue.Steady τ P := h.setBear.measStart

theorem measCmd {s : Chip} (h : s.Steady τ P) : s.measCmd.Steady τ P := .ite h.setReason h.setReason.measFallsDue

/-! ### Clock -/

theorem stopPll {s : Chip} (h : s.Steady τ P) : s.stopPll.Steady τ P := h.upd.setBit

theorem updatePll {s : Chip} (h : s.Steady τ P) : s.updatePll.Steady τ P := .ite h (.ite h.upd h.stopPll)

theorem stopHf {s : Chip} (h : s.Steady τ P) : s.stopHf.Steady τ P := h.upd.stopPll

theorem startHf {s : Chip} (h : s.Steady τ P) : s.startHf.Steady τ P := Steady.updatePll (.ite h h.upd.publish)

theorem pllLock {s : Chip} (h : s.Steady τ P) : s.pllLock.Steady τ P := .ite h.upd.setBit h

theorem setVcore {s : Chip} (h : s.Steady τ P) : s.setVcore.Steady τ P := Steady.setFld (Steady.setFld (.ite h h.setFld))

theorem regrant {s : Chip} {n power : Nat} (h : s.Steady τ P) : (s.regrant n power).Steady τ P :=
  .ite h.syncLevel.setBear.admission h

theorem switchFox {s : Chip} {v : Nat} (h : s.Steady τ P) : (s.switchFox v).Steady τ P :=
  h.setReg.updatePll.regrant.regrant.setVcore

theorem clkFoxWrite {s : Chip} {ag : Agent} {v : Word} (h : s.Steady τ P) : (s.clkFoxWrite ag v).Steady τ P :=
  .ite h.setReason (.ite h.setReason.upd.setFld h.setReason.switchFox)

theorem vcoreSettled {s : Chip} (h : s.Steady τ P) : s.vcoreSettled.Steady τ P := by
  unfold Chip.vcoreSettled
  split
  · exact h.upd
  · exact h.upd.switchFox

/-! ### Monitor -/

theorem ringMeasure {s : Chip} {counts : List Nat} (h : s.Steady τ P) : (s.ringMeasure counts).Steady τ P := .ite h h.setReg.upd

theorem hfLfMeasure {s : Chip} {cycles : Nat} (h : s.Steady τ P) : (s.hfLfMeasure cycles).Steady τ P := .ite h h.setFld.upd

theorem monCorrection {s : Chip} {c : Int} {per : Nat} (h : s.Steady τ P) : (s.monCorrection c per).Steady τ P := by
  unfold Chip.monCorrection
  split
  · exact h.upd
  · exact .ite h h.setFld.upd

theorem monPulses {s : Chip} {n : Nat} (h : s.Steady τ P) : (s.monPulses n).Steady τ P := h.setFld.setFld.upd

theorem startPlan {s : Chip} {commanded : Bool} (h : s.Steady τ P) : (s.startPlan commanded).Steady τ P := h.setBit.upd

theorem replanDue {s : Chip} (h : s.Steady τ P) : s.replanDue.Steady τ P := .ite h h.startPlan

theorem replanCmd {s : Chip} (h : s.Steady τ P) : s.replanCmd.Steady τ P := .ite h.setReason h.setReason.startPlan

theorem loadMargin {s : Chip} {k v : Nat} (h : s.Steady τ P) : (s.loadMargin k v).Steady τ P := by
  unfold Chip.loadMargin
  split
  · exact h.setFld.setVcore
  · exact h.setFld
  · exact h.setFld
  · exact h.setFld.setFld

theorem planOne {s : Chip} {k : Nat} (h : s.Steady τ P) : (s.planOne k).Steady τ P := by
  unfold Chip.planOne
  split
  · exact h
  · exact .ite h.loadMargin h.loadMargin.setFld

theorem addTrend {s : Chip} (h : s.Steady τ P) : s.addTrend.Steady τ P := h.upd

theorem replanDone {s : Chip} (h : s.Steady τ P) : s.replanDone.Steady τ P :=
  .ite h (Steady.share (.ite (Steady.foldl (fun _ _ h1 => h1.planOne) h) h) fun h1 => Steady.admission
      (Steady.upd (Steady.setReason (Steady.setBit (.ite (Steady.occ
          (Steady.setBit (Steady.setReg (Steady.setFld (.ite h1 h1.addTrend)))))
              (Steady.setBit (Steady.setReg (Steady.setFld (.ite h1 h1.addTrend)))))))))

/-! ### Queue -/

theorem setQHead {s : Chip} {q v : Nat} (h : s.Steady τ P) : (s.setQHead q v).Steady τ P := h.setReg

theorem setQTail {s : Chip} {q v : Nat} (h : s.Steady τ P) : (s.setQTail q v).Steady τ P := h.setReg

theorem qDrop {s : Chip} {q : Nat} (h : s.Steady τ P) : (s.qDrop q).Steady τ P := h.count.occ

theorem produce {s : Chip} {q : Nat} {entry : List Word} (h : s.Steady τ P) : (s.produce q entry).Steady τ P :=
  .ite h.wrs.setQTail.occ h.qDrop

theorem consume {s : Chip} {q : Nat} (h : s.Steady τ P) : (s.consume q).Steady τ P := .ite h.setQHead.occ h

theorem consumeN {s : Chip} {q k : Nat} (h : s.Steady τ P) : (s.consumeN q k).Steady τ P := by
  induction k generalizing s with
  | zero => exact h
  | succ k ih => exact ih h.consume

theorem qReason {s : Chip} {q code : Nat} (h : s.Steady τ P) : (s.qReason q code).Steady τ P := h.setReason

theorem queTailWrite {s : Chip} {ag : Agent} {q : Nat} {v : Word} (h : s.Steady τ P) : (s.queTailWrite ag q v).Steady τ P :=
  .ite h (.ite h.qReason (.ite h.qReason (.ite h.qReason (.ite h.setQTail.qReason.occ h.setQTail.qReason))))

theorem queHeadWrite {s : Chip} {ag : Agent} {q : Nat} {v : Word} (h : s.Steady τ P) : (s.queHeadWrite ag q v).Steady τ P :=
  .ite h (.ite h.qReason (.ite h.qReason h.setQHead.qReason))

theorem newHead {s : Chip} {q : Nat} (h : s.Steady τ P) : (s.newHead q).Steady τ P := .ite h.upd h

theorem queCfgWrite {s : Chip} {ag : Agent} {q : Nat} {v : Word} (h : s.Steady τ P) : (s.queCfgWrite ag q v).Steady τ P :=
  .ite h (.ite h.qReason (.ite h.qReason (.ite (.ite h.qReason h.setReg.qReason)
      (.ite (.ite h.setReg.newHead.setReg.setQHead.setQTail.setFld.qReason h.setReg.qReason) h.setReg.qReason))))

theorem queRegWrite {s : Chip} {ag : Agent} {q r : Nat} {v : Word} (h : s.Steady τ P) : (s.queRegWrite ag q r v).Steady τ P :=
  .ite h.qReason (.ite h.qReason (.ite h.qReason h.setReg.qReason))

theorem qstatRead {s : Chip} {q : Nat} (h : s.Steady τ P) : (s.qstatRead q).2.Steady τ P := h.setFld

theorem applyQueue {s : Chip} {q ring buf cfg : Nat} (h : s.Steady τ P) : (s.applyQueue q ring buf cfg).2.Steady τ P :=
  .ite_snd (.ite_snd h.setReg.setReg.setReg.setQHead.setQTail.setFld.setReg h.setReg.setReg.setReg.setQHead.setQTail.setFld)
      h.setReg.setReg.setReg.setQHead.setQTail.setFld

theorem queuesOff {s : Chip} (h : s.Steady τ P) : s.queuesOff.Steady τ P := Steady.foldl (fun _ _ h1 => h1.setReg) h

theorem applyQueueList {s : Chip} {q : Nat} {l : List Nat} (h : s.Steady τ P) : (s.applyQueueList q l).2.Steady τ P := by
  fun_induction Chip.applyQueueList s q l with
  | case1 s q ring buf cfg l code s1 heq codes s2 heq2 ih =>
    have h1 := ih (Steady.snd_of_eq heq h.applyQueue)
    exact Steady.snd_of_eq heq2 h1
  | case2 => exact h

theorem applyQueues {s : Chip} {body : List Nat} (h : s.Steady τ P) : (s.applyQueues body).2.Steady τ P :=
  .ite_snd h h.queuesOff.applyQueueList

/-! ### Peers -/

theorem setMesh {s : Chip} {m : Mesh} (h : s.Steady τ P) : (s.setMesh m).Steady τ P := h.upd

theorem setPeer {s : Chip} {p : MeshPeer} (h : s.Steady τ P) : (s.setPeer p).Steady τ P := h.setMesh

theorem sampleQ {s : Chip} {a l : Nat} (h : s.Steady τ P) : (s.sampleQ a l).Steady τ P := by
  unfold Chip.sampleQ
  split
  · exact h
  · exact h.setPeer.setMesh

theorem missQ {s : Chip} {a k : Nat} (h : s.Steady τ P) : (s.missQ a k).Steady τ P := by
  induction k generalizing s with
  | zero => exact h
  | succ k ih => exact ih h.sampleQ

/-! ### Reset -/

theorem recordCut {s after : Chip} (h : s.Steady τ P) (h' : after.Steady τ P) : (s.recordCut after).Steady τ P := by
  unfold Chip.recordCut
  split
  · exact .ite h'.setReg h'
  · exact h'

theorem fieldStays {s after : Chip} (h : s.Steady τ P) (h' : after.Steady τ P) : (s.fieldStays after).Steady τ P := h'.upd.setBit

theorem clearAllButOwl {s : Chip} (h : s.Steady τ P) : s.clearAllButOwl.Steady τ P :=
  h.recordCut (Steady.setReg (Steady.setFld (h.fieldStays
    (h.of_wf rfl (fun hp => Cells.wf_keep _ _ _ (h.regs_wf hp)) h.sram_wf h.flash_wf h.otpCut_wf fun _ => rfl))))

theorem setCause {s : Chip} {b : Nat} (h : s.Steady τ P) : (s.setCause b).Steady τ P := h.setFld

theorem setFrom {s : Chip} {v : Nat} (h : s.Steady τ P) : (s.setFrom v).Steady τ P := h.setFld

theorem brownout {s : Chip} {b : Nat} (h : s.Steady τ P) : (s.brownout b).Steady τ P := h.clearAllButOwl.losePower.setCause

theorem powerOn {s : Chip} (h : s.Steady τ P) : s.powerOn.Steady τ P :=
  Steady.losePower (h.fieldStays (h.of_wf rfl (fun _ => rfl) h.sram_wf h.flash_wf h.otpCut_wf fun _ => rfl))

theorem leaveShip {s : Chip} {b : Nat} (h : s.Steady τ P) : (s.leaveShip b).Steady τ P := h.powerOn.setCause.setFrom

theorem keepOwlReset {s : Chip} {a : ResetKind} (h : s.Steady τ P) : (s.keepOwlReset a).Steady τ P := by
  unfold Chip.keepOwlReset
  split
  · exact h.clearAllButOwl.setCause.setFld.setBit
  · exact h.clearAllButOwl.setCause
  · exact h.clearAllButOwl.setCause

theorem requestReset {s : Chip} {k : ResetKind} (h : s.Steady τ P) : (s.requestReset k).Steady τ P := by
  unfold Chip.requestReset
  split
  · refine Steady.upd ?_
    split
    · exact h.setBit
    · exact h
  · exact h.keepOwlReset

theorem restoreSupply {s : Chip} (h : s.Steady τ P) : s.restoreSupply.Steady τ P := h.setReg.setReg.setReg.setBear

theorem wakeEvent {s : Chip} {b cls : Nat} (h : s.Steady τ P) : (s.wakeEvent b cls).Steady τ P := by
  unfold Chip.wakeEvent
  split
  · exact h.upd.enterPhase.setCause.setCause.occ
  · exact .ite (.ite h.upd (Steady.makeClaim (Steady.upd (.ite h.restoreSupply h)))) h

/-! ### Flash -/

theorem flcReason {s : Chip} {code : Nat} (h : s.Steady τ P) : (s.flcReason code).Steady τ P := h.setReason

theorem setFlc {s : Chip} {f : Flc} (h : s.Steady τ P) : (s.setFlc f).Steady τ P := h.upd

theorem flcClaim {s : Chip} {o : FlOp} (h : s.Steady τ P) : (s.flcClaim o).Steady τ P := by
  unfold Chip.flcClaim
  dsimp only
  split
  · exact h
  · exact h.makeClaim
  · exact h.makeClaim

theorem flcPost {s : Chip} {o : FlOp} {code : Nat} {fail : Bool} (h : s.Steady τ P) : (s.flcPost o code fail).Steady τ P :=
  Steady.share (.ite (Steady.setBit (Steady.setFlc (.ite h h.setFld.setFld.flcReason.setBit.setBit)))
      (Steady.setFlc (.ite h h.setFld.setFld.flcReason.setBit.setBit))) fun h4 => Steady.upd
          (.ite (Steady.occ (.ite h4 h4.occ)) (.ite h4 h4.occ))

theorem flcNext {s : Chip} {o : FlOp} (h : s.Steady τ P) : (s.flcNext o).Steady τ P := by
  unfold Chip.flcNext
  split
  · exact h.flcPost
  · exact h.setFlc.flcClaim

theorem flcServe {s : Chip} (h : s.Steady τ P) : s.flcServe.Steady τ P := by
  unfold Chip.flcServe
  split
  · exact .ite h h.setFlc.flcNext
  · exact h

theorem flcRequest {s : Chip} {src : FlSrc} {target : Nat} {steps : List FlStep} (h : s.Steady τ P) :
    (s.flcRequest src target steps).Steady τ P :=
  h.setFlc.flcServe

theorem flcAccept {s : Chip} {op target : Nat} {steps : List FlStep} (h : s.Steady τ P) :
    (s.flcAccept op target steps).Steady τ P :=
  h.flcNext

theorem flcGranted {s : Chip} (h : s.Steady τ P) : s.flcGranted.Steady τ P := by
  unfold Chip.flcGranted
  dsimp only
  split
  · exact h
  · split
    · exact h
    · split
      · exact Steady.upd (Steady.setFlc (Steady.flashSpoil (.ite h.upd h)))
      · exact Steady.setFlc (Steady.flashSpoil (.ite h.upd h))

theorem flcDenied {s : Chip} {code : Nat} (h : s.Steady τ P) : (s.flcDenied code).Steady τ P := by
  unfold Chip.flcDenied
  split
  · exact h
  · exact h.flcPost.flcServe

theorem resetAfterPulse {s : Chip} (h : s.Steady τ P) : ∀ t, s.resetAfterPulse = some t → t.Steady τ P := by
  intro t ht
  obtain ⟨k, -, rfl⟩ := Option.map_eq_some_iff.mp ht
  exact h.keepOwlReset

theorem notePulses {s : Chip} {n : Nat} (h : s.Steady τ P) : (s.notePulses n).Steady τ P := .ite h h.setFld.monPulses

theorem programPulseEnd {s : Chip} {verified : Bool} (h : s.Steady τ P) : (s.programPulseEnd verified).Steady τ P := by
  unfold Chip.programPulseEnd
  split
  · exact h
  · split
    · exact h
    · split
      · split
        · next heq => exact h.resetAfterPulse _ heq
        · split
          · exact h.flashPut.notePulses.endGrant.flcNext.flcServe
          · exact .ite h.notePulses.endGrant.flcPost.flcServe (.ite h.setFlc.setFlc.preemptStop h.setFlc)
      · exact h

theorem erasedAgain {s : Chip} {src : FlSrc} {b : Nat} (h : s.Steady τ P) : (s.erasedAgain src b).Steady τ P := .ite h.setBit h

theorem erasePulseEnd {s : Chip} {verified : Bool} (h : s.Steady τ P) : (s.erasePulseEnd verified).Steady τ P := by
  unfold Chip.erasePulseEnd
  split
  · exact h
  · split
    · exact h
    · split
      · split
        · next heq => exact h.resetAfterPulse _ heq
        · split
          · exact h.endGrant.flashClear.erasedAgain.flcNext.flcServe
          · exact .ite h.endGrant.flcNext.flcServe h.endGrant.setFlc.flcClaim
      · exact h

theorem sqEnable {s : Chip} (h : s.Steady τ P) : s.sqEnable.Steady τ P :=
  .ite h (.ite h.flcReason (.ite h.setBit.flcReason.setFlc.setFlc h.setBit.flcReason.setFlc.flcRequest))

theorem sqDisable {s : Chip} (h : s.Steady τ P) : s.sqDisable.Steady τ P := .ite h (.ite h.setFlc h.setBit.setFlc)

theorem flcProgram {s : Chip} {a : Nat} (h : s.Steady τ P) : (s.flcProgram a).Steady τ P :=
  .ite h.flcReason (.ite h.setFld.flcAccept h.flcAccept)

theorem flcErase {s : Chip} {a : Nat} (h : s.Steady τ P) : (s.flcErase a).Steady τ P := .ite h.flcReason h.flcAccept

theorem sqOpen {s : Chip} {l : Nat} (h : s.Steady τ P) : (s.sqOpen l).Steady τ P := by
  unfold Chip.sqOpen
  split
  · exact h.flcReason
  · split
    · exact h.flcReason
    · split
      · exact h.flcReason
      · split
        · exact h.flcReason
        · exact h.setFlc.flcAccept

theorem sqCommitCmd {s : Chip} {l : Nat} (h : s.Steady τ P) : (s.sqCommitCmd l).Steady τ P := by
  unfold Chip.sqCommitCmd
  split
  · exact h.flcReason
  · exact .ite h.flcReason h.flcAccept

theorem sqAbandon {s : Chip} {l : Nat} (h : s.Steady τ P) : (s.sqAbandon l).Steady τ P := by
  unfold Chip.sqAbandon
  split
  · exact h.flcReason
  · exact .ite h.flcReason h.flcAccept

theorem sqLevel {s : Chip} (h : s.Steady τ P) : s.sqLevel.Steady τ P := by
  unfold Chip.sqLevel
  dsimp only
  split
  · exact h.flcReason
  · split
    · exact h.flcAccept
    · split
      · exact h.flcReason
      · split
        · exact h.setFlc.flcAccept
        · exact h.flcReason
        · exact h.flcAccept

theorem protErase {s : Chip} (h : s.Steady τ P) : s.protErase.Steady τ P := .ite h.flcReason (.ite h.flcReason h.flcAccept)

theorem protProg {s : Chip} {w : Nat} (h : s.Steady τ P) : (s.protProg w).Steady τ P :=
  .ite h.flcReason (.ite h.flcReason (.ite h.flcReason (.ite h.flcReason (.ite h.setFld.flcAccept h.flcAccept))))

theorem flcCmd {s0 : Chip} {ag : Agent} {v : Word} (h : s0.Steady τ P) : (s0.flcCmd ag v).Steady τ P := by
  unfold Chip.flcCmd
  exact Steady.share h.setFlc fun h1 => by
    split
    · exact h.flcReason
    · split
      · exact h1.flcProgram
      · exact h1.flcErase
      · exact h1.sqOpen
      · exact h1.sqCommitCmd
      · exact h1.sqAbandon
      · exact h1.sqLevel
      · exact h1.protErase
      · exact h1.protProg
      · exact h1.flcReason

theorem pwd0Write {s : Chip} {ag : Agent} {v : Word} (h : s.Steady τ P) : (s.pwd0Write ag v).Steady τ P := h.setFlc

theorem pwd1Write {s : Chip} {ag : Agent} {v : Word} (h : s.Steady τ P) : (s.pwd1Write ag v).Steady τ P := by
  unfold Chip.pwd1Write
  split
  · exact h.flcReason
  · split
    · exact h.flcReason
    · exact .ite h.setFlc.setFld.flcReason h.setFld.setBit.flcReason

theorem loadRow {s : Chip} (h : s.Steady τ P) : s.loadRow.Steady τ P := Steady.foldl (fun _ _ h3 => h3.setReg) h.setFlc.setFlc

theorem journalScan {s : Chip} (h : s.Steady τ P) : s.journalScan.Steady τ P := by
  unfold Chip.journalScan
  refine Steady.setFlc ?_
  split
  · exact h.loadRow.setReg
  · exact h.loadRow

theorem journalErase {s : Chip} (h : s.Steady τ P) : s.journalErase.Steady τ P :=
  Steady.foldl (fun _ _ h1 => h1.flcRequest) h.setFlc

theorem otpReason {s : Chip} {code : Nat} (h : s.Steady τ P) : (s.otpReason code).Steady τ P := h.setReason

theorem otpEnd {s : Chip} {code : Nat} (h : s.Steady τ P) : (s.otpEnd code).Steady τ P := h.setFlc.setBit.otpReason.flcServe

theorem otpProg {s : Chip} (h : s.Steady τ P) : s.otpProg.Steady τ P :=
  .ite h.otpReason (.ite h.otpReason (.ite h.otpReason (.ite h.otpReason (.ite h.otpReason h.setFlc.setBit.claim))))

theorem otpGranted {s : Chip} (h : s.Steady τ P) : s.otpGranted.Steady τ P := h.setFlc

theorem otpPulseEnd {s : Chip} {verified : Bool} (h : s.Steady τ P) : (s.otpPulseEnd verified).Steady τ P := by
  unfold Chip.otpPulseEnd
  split
  · exact h
  · exact .ite h (.ite h.setOtp.endGrant.otpEnd (.ite h.draw.setOtp.endGrant.otpEnd (.ite h.setFlc.setFlc.preemptStop h.setFlc)))

theorem flashAnswer {s : Chip} {r : Answer} (h : s.Steady τ P) : (s.flashAnswer r).Steady τ P := by
  unfold Chip.flashAnswer
  split
  · exact h
  · exact .ite h.otpEnd h.flcDenied
  · exact .ite h.otpGranted h.flcGranted

/-! ### Stream -/

theorem applyClocks {s : Chip} {body : List Nat} (h : s.Steady τ P) : (s.applyClocks body).2.Steady τ P := by
  unfold Chip.applyClocks
  split
  · exact .ite_snd h h.upd.switchFox
  · exact h

theorem applyPower {s : Chip} {body : List Nat} (h : s.Steady τ P) : (s.applyPower body).2.Steady τ P := by
  unfold Chip.applyPower
  split
  · exact .ite_snd h h.setFld.setFld.setReg.setFld
  · exact h

theorem applyMargins {s : Chip} {body : List Nat} (h : s.Steady τ P) : (s.applyMargins body).2.Steady τ P := by
  unfold Chip.applyMargins
  split
  · exact .ite_snd h (Steady.foldl (fun _ _ h2 => h2.loadMargin) h.upd)
  · exact h

theorem applyVersions {s : Chip} {body : List Nat} (h : s.Steady τ P) : (s.applyVersions body).2.Steady τ P :=
  .ite_snd h (.ite_snd h h.upd)

/-! ### Cell -/

theorem setLnk {s : Chip} {l : Lnk} (h : s.Steady τ P) : (s.setLnk l).Steady τ P := h.upd

theorem setSyn {s : Chip} {y : Syn} (h : s.Steady τ P) : (s.setSyn y).Steady τ P := h.upd

theorem setLive {s : Chip} {l : Live} (h : s.Steady τ P) : (s.setLive l).Steady τ P := h.setLnk

theorem setLatch {s : Chip} {l : Latches} (h : s.Steady τ P) : (s.setLatch l).Steady τ P := h.upd

theorem lnkEvent {s : Chip} {f : Fld} (h : s.Steady τ P) : (s.lnkEvent f).Steady τ P := h.setBit.occ

theorem openWindow {s : Chip} {c : Chosen} (h : s.Steady τ P) : (s.openWindow c).Steady τ P :=
  Steady.share h.upd fun h1 => .ite (Steady.setLatch (.ite h1.enterPhase.publish h1)) (.ite h1.enterPhase.publish h1)

theorem closeWindow {s : Chip} (h : s.Steady τ P) : s.closeWindow.Steady τ P := h.upd

theorem slotEnd {s : Chip} (h : s.Steady τ P) : s.slotEnd.Steady τ P :=
  .ite (.ite h.enterPhase.publish.setLatch h.enterPhase.publish) h

theorem putRecord {s : Chip} {words : List Word} (h : s.Steady τ P) : (s.putRecord words).Steady τ P := by
  unfold Chip.putRecord
  split
  · exact h
  · exact .ite h.produce h.produce.lnkEvent

theorem slotRecord {s : Chip} {c : Chosen} {words : List Word} {reason : Nat} {used : Bool} (h : s.Steady τ P) :
    (s.slotRecord c words reason used).Steady τ P := by
  unfold Chip.slotRecord
  split
  · exact .ite h h.putRecord
  · exact .ite h h.setLnk

theorem skipRecord {s : Chip} {c : Chosen} {reason : Nat} (h : s.Steady τ P) : (s.skipRecord c reason).Steady τ P := h.slotRecord

theorem resetBackoff {s : Chip} {q : Nat} (h : s.Steady τ P) : (s.resetBackoff q).Steady τ P := h.setFld.setFld

theorem doneStamp {s : Chip} {q reason a t : Nat} (h : s.Steady τ P) : (s.doneStamp q reason a t).Steady τ P := by
  unfold Chip.doneStamp
  split
  · exact h.wrs
  · exact h.setLnk

theorem returnNow {s : Chip} {q reason tries pwr t : Nat} {bo : Bool} (h : s.Steady τ P) :
    (s.returnNow q reason tries pwr t bo).Steady τ P := by
  unfold Chip.returnNow
  split
  · exact h
  · exact Steady.share (.ite h.wr.doneStamp.count (.ite h.wr.doneStamp.count h.wr.doneStamp)) fun h2 => .ite
          h2.consume.newHead.resetBackoff h2.consume.newHead

theorem returnEntry {s : Chip} {q reason tries pwr t : Nat} {bo : Bool} (h : s.Steady τ P) :
    (s.returnEntry q reason tries pwr t bo).Steady τ P :=
  .ite h.setLnk h.returnNow

theorem checkHead {s : Chip} {q k : Nat} (h : s.Steady τ P) : (s.checkHead q k).Steady τ P := by
  induction k generalizing s with
  | zero => exact h
  | succ k ih =>
    unfold Chip.checkHead
    split
    · exact h
    · exact .ite h (ih h.returnEntry)

theorem headCheck {s : Chip} {q : Nat} (h : s.Steady τ P) : (s.headCheck q).Steady τ P := .ite h.checkHead h

theorem queTailMove {s : Chip} {ag : Agent} {q : Nat} {v : Word} (h : s.Steady τ P) : (s.queTailMove ag q v).Steady τ P :=
  .ite h.queTailWrite.headCheck h.queTailWrite

theorem countMisses {s : Chip} {q reason : Nat} (h : s.Steady τ P) : (s.countMisses q reason).Steady τ P := by
  unfold Chip.countMisses
  split
  · exact h
  · exact .ite (.ite h.setMesh h) (.ite h.missQ h)

theorem endEntry {s : Chip} {q reason tries pwr t : Nat} {bo : Bool} (h : s.Steady τ P) :
    (s.endEntry q reason tries pwr t bo).Steady τ P :=
  h.countMisses.returnEntry.headCheck

theorem lateReturns {s : Chip} (h : s.Steady τ P) : s.lateReturns.Steady τ P :=
  Steady.foldl (fun _ _ h1 => h1.setLnk.returnNow.headCheck) h

theorem stampDone {s : Chip} (h : s.Steady τ P) : s.stampDone.Steady τ P := by
  unfold Chip.stampDone
  dsimp only
  split
  · exact .ite h.stamp.setLive h
  · exact h

theorem stampReturned {s : Chip} (h : s.Steady τ P) : s.stampReturned.Steady τ P := by
  unfold Chip.stampReturned
  dsimp only
  exact Steady.foldl (fun _ _ h1 => h1.stamp.wrs) h.setLnk

theorem stampChosen {s : Chip} {k : Chosen} (h : s.Steady τ P) : (s.stampChosen k).2.Steady τ P := by
  unfold Chip.stampChosen
  split
  · exact h.stamp (t := k.b)
  · exact h

theorem stampRecords {s : Chip} (h : s.Steady τ P) : s.stampRecords.Steady τ P := by
  unfold Chip.stampRecords
  extract_lets l s1
  have h1 : s1.Steady τ P := by
    refine Steady.foldl (fun c e hc => ?_) h.setLnk
    split
    next heq =>
    have hs := Steady.snd_of_eq heq hc.stamp
    exact .ite hs hs.putRecord
  clear_value s1
  split
  next heq =>
  extract_lets l' s3
  have h3 : s3.Steady τ P := Steady.setLnk (Steady.snd_of_eq heq (Steady.foldl_snd (fun _ _ hc => hc.stampChosen) h1))
  split
  · exact h3
  · exact h3.stampChosen.setLive

theorem blockStopped {s : Chip} {b : Block} (h : s.Steady τ P) : (s.blockStopped b).Steady τ P := .ite h.upd.setBit h

theorem radioStops {s : Chip} (h : s.Steady τ P) : s.radioStops.Steady τ P := Steady.foldl (fun _ _ h1 => h1.blockStopped) h

theorem synOff {s : Chip} (h : s.Steady τ P) : s.synOff.Steady τ P := h.setBit.setFld.setSyn

theorem abandonCal {s : Chip} (h : s.Steady τ P) : s.abandonCal.Steady τ P := by
  unfold Chip.abandonCal
  split
  · exact .ite h.setSyn h.setSyn.setBit.dropClaim
  · exact h

theorem endCell {s : Chip} {l : Live} {reason : Nat} (h : s.Steady τ P) : (s.endCell l reason).Steady τ P :=
  Steady.share h.abandonCal.synOff.setLnk.setLatch.setFld.setFld.setFld.setFld.setFld.setReason.setReason fun h5 =>
      Steady.radioStops (Steady.setSyn (.ite (Steady.closeWindow
          (Steady.slotRecord (Steady.release (Steady.release (.ite h5 h5.setReason)))))
              (Steady.slotRecord (Steady.release (Steady.release (.ite h5 h5.setReason))))))

theorem endCellEntry {s : Chip} {l : Live} {reason t : Nat} (h : s.Steady τ P) : (s.endCellEntry l reason t).Steady τ P :=
  h.endEntry.endCell

theorem backoffFail {s : Chip} {q : Nat} (h : s.Steady τ P) : (s.backoffFail q).Steady τ P := h.setLnk.setFld.setFld

theorem ackEnd {s : Chip} {l : Live} {code last : Nat} (h : s.Steady τ P) : (s.ackEnd l code last).Steady τ P :=
  .ite (Steady.endCell (Steady.endEntry (.ite h.backoffFail h))) (Steady.endCell (.ite h.backoffFail h))

theorem ackMissed {s : Chip} {l : Live} {code : Nat} (h : s.Steady τ P) : (s.ackMissed l code).Steady τ P := h.ackEnd

/-! ### Cipher -/

theorem setCph {s : Chip} {c : Cph} (h : s.Steady τ P) : (s.setCph c).Steady τ P := h.upd

theorem setPage {s : Chip} {u : Nat} {p : CphPage} (h : s.Steady τ P) : (s.setPage u p).Steady τ P := h.setCph

theorem setPageState {s : Chip} {u v : Nat} (h : s.Steady τ P) : (s.setPageState u v).Steady τ P := h.setFld.setBit

theorem pageReason {s : Chip} {u code : Nat} (h : s.Steady τ P) : (s.pageReason u code).Steady τ P := h.setReason

theorem putOctets {s : Chip} {a : Nat} {l : List Nat} (h : s.Steady τ P) : (s.putOctets a l).Steady τ P := by
  induction l generalizing s a with
  | nil => exact h
  | cons v l ih => exact ih h.wr

theorem setShadow {s : Chip} {slot : Nat} {k : Option (List Nat)} (h : s.Steady τ P) : (s.setShadow slot k).Steady τ P :=
  .ite h.setCph.setBit h.setCph.setBit.setFld

theorem loadShadow {s : Chip} (h : s.Steady τ P) : s.loadShadow.Steady τ P := Steady.foldl (fun _ _ h1 => h1.setShadow) h

theorem kstServe {s : Chip} (h : s.Steady τ P) : s.kstServe.Steady τ P := by
  unfold Chip.kstServe
  split
  · exact h
  · exact .ite h h.setCph.setBit.setBit.flcRequest

theorem kstQueue {s : Chip} {r : KeyRec} (h : s.Steady τ P) : (s.kstQueue r).Steady τ P := h.setCph.kstServe

theorem pageRun {s : Chip} {u : Nat} (h : s.Steady τ P) : (s.pageRun u).Steady τ P := .ite h h.setPageState

theorem cphClaim {s : Chip} (h : s.Steady τ P) : s.cphClaim.Steady τ P :=
  .ite (.ite (Steady.foldl (fun _ _ h1 => h1.pageRun) h) (.ite h h.claim)) h

theorem cphRelease {s : Chip} (h : s.Steady τ P) : s.cphRelease.Steady τ P := .ite h h.release

theorem cphGo {s : Chip} {u : Nat} {rom : Bool} (h : s.Steady τ P) : (s.cphGo u rom).Steady τ P :=
  .ite h.pageReason h.setBit.setPageState.setFld.setPage.setCph.cphClaim

theorem cphPost {s : Chip} {u code : Nat} (h : s.Steady τ P) : (s.cphPost u code).Steady τ P :=
  h.setPageState.pageReason.setPage.setBit.occ

theorem cphZero {s : Chip} {c : CphCmd} (h : s.Steady τ P) : (s.cphZero c).Steady τ P := .ite h.putOctets h.putOctets.putOctets

theorem leaveBlock {s : Chip} {u : Nat} (h : s.Steady τ P) : (s.leaveBlock u).Steady τ P := .ite h.setCph h

theorem pageDone {s : Chip} {u : Nat} {fault : Bool} (h : s.Steady τ P) : (s.pageDone u fault).Steady τ P := by
  unfold Chip.pageDone
  dsimp only
  split
  · exact h
  · exact Steady.share h.leaveBlock.setPage.setFld fun h1 => by
      split
      · exact h1.cphZero.count.occ.cphPost.kstServe.cphRelease
      · split
        · exact h1.kstQueue.cphRelease
        · split
          · split
            · exact h1.cphPost.kstServe.cphRelease
            · exact h1.kstQueue.cphRelease
          · split
            · exact h1.putOctets.cphPost.cphRelease
            · exact Steady.share (by split; exact h1.putOctets.putOctets; exact h1.putOctets) fun h3 => Steady.cphRelease
                    (Steady.cphPost (.ite h3 h3.putOctets))

theorem cphSafe {s : Chip} (h : s.Steady τ P) : s.cphSafe.Steady τ P := .ite h h.blockStopped

theorem cipherOpDone {s : Chip} {u : Nat} {fault : Bool} (h : s.Steady τ P) : (s.cipherOpDone u fault).Steady τ P :=
  h.pageDone.cphSafe

theorem recWithdraw {s : Chip} (h : s.Steady τ P) : s.recWithdraw.Steady τ P := h.setFlc.setCph.setBit.setBit

theorem recordDone {s : Chip} {code : Nat} (h : s.Steady τ P) : (s.recordDone code).Steady τ P := by
  unfold Chip.recordDone
  split
  · exact Steady.share h.setCph.setBit.setBit.setCph fun h2 => Steady.cphSafe
          (Steady.kstServe (.ite (Steady.setMesh (Steady.occ (Steady.setReason (.ite h2.setShadow h2))))
              (Steady.cphPost (Steady.occ (Steady.setReason (.ite h2.setShadow h2))))))
  · exact h.setCph.setBit.setBit.kstServe.cphSafe

theorem recAbandon {s : Chip} (h : s.Steady τ P) : s.recAbandon.Steady τ P := by
  unfold Chip.recAbandon
  split
  · exact .ite h.setFlc.setCph h.recWithdraw
  · exact h.recWithdraw

theorem pageAborted {s : Chip} {u : Nat} (h : s.Steady τ P) : (s.pageAborted u).Steady τ P :=
  h.leaveBlock.setCph.cphZero.cphPost.kstServe.cphRelease.cphSafe

theorem cphAbort {s : Chip} {u : Nat} (h : s.Steady τ P) : (s.cphAbort u).Steady τ P :=
  .ite h (.ite h.setPage (Steady.pageAborted (.ite h.recAbandon h)))

theorem pagesWait {s : Chip} (h : s.Steady τ P) : s.pagesWait.Steady τ P := Steady.foldl (fun _ _ h1 => .ite h1.setPageState h1) h

theorem nextBlock {s : Chip} (h : s.Steady τ P) : s.nextBlock.Steady τ P := by
  unfold Chip.nextBlock
  dsimp only
  split
  · exact h
  · split
    · exact h.setCph
    · exact h

theorem blockEnd {s : Chip} {u : Nat} (h : s.Steady τ P) : (s.blockEnd u).Steady τ P :=
  .ite h.setCph.setPage.setFld.pageAborted h.setCph.setPage.setFld

theorem cphCycle {s : Chip} (h : s.Steady τ P) : s.cphCycle.Steady τ P := by
  unfold Chip.cphCycle
  exact Steady.share (Steady.foldl (fun _ _ h1 => .ite h1.setPage h1) h) fun h1 => by
    exact Steady.share (by split; exact .ite h1.blockEnd h1.setCph; exact h1) fun h2 => Steady.nextBlock
        (.ite h2.setCph.pagesWait.cphClaim h2)

theorem cphCycles {s : Chip} {k : Nat} (h : s.Steady τ P) : (s.cphCycles k).Steady τ P := by
  induction k generalizing s with
  | zero => exact h
  | succ k ih => exact ih h.cphCycle

theorem cphTick {s : Chip} (h : s.Steady τ P) : s.cphTick.Steady τ P := .ite h.setCph.cphCycles h

theorem cipherAnswer {s : Chip} {r : Answer} (h : s.Steady τ P) : (s.cipherAnswer r).Steady τ P := by
  unfold Chip.cipherAnswer
  split
  · exact .ite h.pagesWait h
  · exact Steady.cphSafe (Steady.kstServe (Steady.foldl (fun _ _ h1 => .ite h1.cphPost h1) h))
  · exact Steady.foldl (fun _ _ h1 => h1.pageRun) h

theorem cipherGrantEnd {s : Chip} (h : s.Steady τ P) : s.cipherGrantEnd.Steady τ P := .ite h.setCph h.pagesWait.cphClaim

theorem cphEnable {s : Chip} {ag : Agent} (h : s.Steady τ P) : (s.cphEnable ag).Steady τ P :=
  .ite h.setReason (.ite h (.ite h.setReason h.upd.setBit.setBit.setReason))

theorem cphDisable {s : Chip} {ag : Agent} (h : s.Steady τ P) : (s.cphDisable ag).Steady τ P :=
  .ite h.setReason (.ite h (Steady.cphSafe (Steady.upd (Steady.setBit (Steady.foldl (fun _ _ h1 => h1.cphAbort) h)))))

theorem pageForeign {s : Chip} (h : s.Steady τ P) : s.pageForeign.Steady τ P := h.setReason.count.occ

theorem cphPageWrite {s : Chip} {ag : Agent} {u off : Nat} {v : Word} {rom : Bool} (h : s.Steady τ P) :
    (s.cphPageWrite ag u off v rom).Steady τ P :=
  .ite h.pageForeign (.ite (.ite h.pageReason h.setReg) (.ite (.ite (Steady.cphGo (.ite h.cphAbort h)) (.ite h.cphAbort h))
      (.ite (.ite h.setBit h) h)))

theorem cphStatRead {s : Chip} (h : s.Steady τ P) : s.cphStatRead.2.Steady τ P := h.setFld.setFld

theorem kstAttrWrite {s : Chip} {ag : Agent} {slot : Nat} {v : Word} (h : s.Steady τ P) : (s.kstAttrWrite ag slot v).Steady τ P :=
  .ite h (.ite h.setReason (.ite h.setReason h.setFld.setReason))

theorem applyKeys {s : Chip} {body : List Nat} (h : s.Steady τ P) : (s.applyKeys body).2.Steady τ P :=
  .ite_snd h (.ite_snd h (.ite_snd h (.ite_snd h (Steady.share (Steady.foldl (fun _ _ h1 => h1.setReg) h) fun h1 => .ite
      h1.loadShadow.cphEnable h1.loadShadow))))

/-! ### PinRegs -/

theorem pinReason {s : Chip} {code : Nat} (h : s.Steady τ P) : (s.pinReason code).Steady τ P := h.setReason

theorem pinBits {s : Chip} {ag : Agent} {r new aimed : Nat} (h : s.Steady τ P) : (s.pinBits ag r new aimed).Steady τ P :=
  h.setReg.pinReason

theorem pinOutWrite {s : Chip} {ag : Agent} {v : Word} (h : s.Steady τ P) : (s.pinOutWrite ag v).Steady τ P := h.pinBits

theorem pinDirWrite {s : Chip} {ag : Agent} {v : Word} (h : s.Steady τ P) : (s.pinDirWrite ag v).Steady τ P := h.pinBits

theorem pinSetWrite {s : Chip} {ag : Agent} {v : Word} (h : s.Steady τ P) : (s.pinSetWrite ag v).Steady τ P := h.pinBits

theorem pinClrWrite {s : Chip} {ag : Agent} {v : Word} (h : s.Steady τ P) : (s.pinClrWrite ag v).Steady τ P := h.pinBits

theorem pinTglWrite {s : Chip} {ag : Agent} {v : Word} (h : s.Steady τ P) : (s.pinTglWrite ag v).Steady τ P := h.pinBits

theorem pinTakes {s : Chip} {n m : Nat} (h : s.Steady τ P) : (s.pinTakes n m).Steady τ P := h.upd

theorem pinMapWrite {s : Chip} {ag : Agent} {n : Nat} {v : Word} (h : s.Steady τ P) : (s.pinMapWrite ag n v).Steady τ P :=
  .ite h (.ite h.pinReason (.ite h.pinReason (.ite h.pinReason
      (.ite h.pinReason (.ite h.pinReason (.ite h.setReg.pinReason.pinTakes h.setReg.pinReason))))))

theorem applyPins {s : Chip} {body : List Nat} (h : s.Steady τ P) : (s.applyPins body).2.Steady τ P :=
  .ite_snd h (.ite_snd h (.ite_snd h (Steady.foldl (fun _ _ h1 => h1.setReg) h)))

theorem vddio2Change {s : Chip} {ok : Bool} (h : s.Steady τ P) : (s.vddio2Change ok).Steady τ P := h.upd

theorem drivePin {s : Chip} {n : Nat} {v : Bool} (h : s.Steady τ P) : (s.drivePin n v).Steady τ P := h.upd

theorem inputEdge {s : Chip} {m : Nat} {rise : Bool} {f : Chip → Chip} (h : s.Steady τ P)
    (h' : ∀ x1, x1.Steady τ P → (f x1).Steady τ P) :
    (s.inputEdge m rise f).Steady τ P := by
  unfold Chip.inputEdge
  split
  · exact h
  · exact .ite (h' _ h.drivePin) h.drivePin

theorem keepLevels {s : Chip} (h : s.Steady τ P) : s.keepLevels.Steady τ P := .ite h.upd h

/-! ### Radio -/

theorem ifRadioOwner {s : Chip} {ag : Agent} {stat : Nat} {f : Chip → Chip} (h : s.Steady τ P)
    (h' : ∀ x1, x1.Steady τ P → (f x1).Steady τ P) :
    (s.ifRadioOwner ag stat f).Steady τ P :=
  .ite (h' _ h) h.setReason

theorem ifRadioOpen {s : Chip} {ag : Agent} {stat : Nat} {f : Chip → Chip} (h : s.Steady τ P)
    (h' : ∀ x1, x1.Steady τ P → (f x1).Steady τ P) :
    (s.ifRadioOpen ag stat f).Steady τ P :=
  .ite h.setReason (h.ifRadioOwner h')

theorem profFWrite {s : Chip} {ag : Agent} {n : Nat} {v : Word} (h : s.Steady τ P) : (s.profFWrite ag n v).Steady τ P :=
  h.ifRadioOpen (fun _ h1 => .ite h1 (.ite h1.setReason h1.setReg.setFld.setReason))

theorem profMWrite {s : Chip} {ag : Agent} {n : Nat} {v : Word} (h : s.Steady τ P) : (s.profMWrite ag n v).Steady τ P :=
  h.ifRadioOpen (fun _ h1 => .ite h1 (Steady.setReason (.ite h1.setReg h1)))

theorem enableBlock {s : Chip} {b : Block} (h : s.Steady τ P) : (s.enableBlock b).Steady τ P := h.upd.setBit.setBit.setReason

theorem enableIf {s : Chip} {b : Block} {code : Nat} (h : s.Steady τ P) : (s.enableIf b code).Steady τ P :=
  .ite h (.ite h.enableBlock h.setReason)

theorem synEnable {s : Chip} (h : s.Steady τ P) : s.synEnable.Steady τ P := h.enableIf

theorem rfeEnable {s : Chip} (h : s.Steady τ P) : s.rfeEnable.Steady τ P := .ite h (.ite h.setReason h.upd.setFld.enableIf)

theorem cxGrant {s : Chip} (h : s.Steady τ P) : s.cxGrant.Steady τ P := .ite h.setLatch h

theorem cxEnable {s : Chip} (h : s.Steady τ P) : s.cxEnable.Steady τ P := h.enableIf.cxGrant

theorem mdmEnable {s : Chip} (h : s.Steady τ P) : s.mdmEnable.Steady τ P := h.enableIf.updatePll

theorem radioDisable {s : Chip} {b : Block} (h : s.Steady τ P) : (s.radioDisable b).Steady τ P :=
  .ite h (Steady.share h.setBit.upd fun h2 => .ite (Steady.setLatch (.ite h2.blockStopped h2))
      (.ite (Steady.updatePll (.ite h2.blockStopped h2)) (.ite h2.blockStopped h2)))

theorem mdmSetWrite {s : Chip} {ag : Agent} {mm m : Nat} {v : Word} (h : s.Steady τ P) : (s.mdmSetWrite ag mm m v).Steady τ P :=
  h.ifRadioOwner (fun _ h1 => .ite h1 (Steady.setReason (.ite h1.setReg h1)))

theorem claimStep {s : Chip} {j : SynJob} {dur : Nat} {deadline : Option Nat} (h : s.Steady τ P) :
    (s.claimStep j dur deadline).Steady τ P :=
  h.setSyn.claim

theorem startLock {s : Chip} (h : s.Steady τ P) : s.startLock.Steady τ P := by
  unfold Chip.startLock
  split
  · exact .ite h.setFld.setSyn.setFld.claimStep h.setFld.setSyn.setFld
  · exact h

theorem resumeLock {s : Chip} (h : s.Steady τ P) : s.resumeLock.Steady τ P := .ite h.startLock h

theorem calOver {s : Chip} (h : s.Steady τ P) : s.calOver.Steady τ P :=
  .ite h.setSyn.setBit.setFld.radioStops h.setSyn.setBit.setFld

theorem calFailed {s : Chip} {code : Nat} (h : s.Steady τ P) : (s.calFailed code).Steady τ P := by
  unfold Chip.calFailed
  split
  · exact h
  · exact .ite h.ackEnd (.ite h.endCellEntry h.endCell)

theorem calReclaim {s : Chip} (h : s.Steady τ P) : s.calReclaim.Steady τ P := by
  unfold Chip.calReclaim
  split
  · exact .ite h.claimStep h
  · exact h

theorem synAnswer {s : Chip} {r : Answer} (h : s.Steady τ P) : (s.synAnswer r).Steady τ P := by
  unfold Chip.synAnswer
  dsimp only
  split
  · exact h
  · exact h.setSyn.setFld
  · exact h.setSyn.setBit.setFld
  · exact h.calOver.calFailed
  · exact h.setReason
  · exact h.calOver.setSyn
  · exact h

theorem locked {s : Chip} (h : s.Steady τ P) : s.locked.Steady τ P := h.setSyn.setBit.setReason

theorem radioFail {s : Chip} {code : Nat} (h : s.Steady τ P) : (s.radioFail code).Steady τ P := h.setReason.occ

theorem calComplete {s : Chip} {bad cell : Bool} (h : s.Steady τ P) : (s.calComplete bad cell).Steady τ P := by
  unfold Chip.calComplete
  dsimp only
  split
  · exact .ite h.calOver.setBit.radioFail.calFailed h.calOver.setBit.radioFail.resumeLock
  · exact Steady.share h.calOver.setFld.setBit.setReason fun h2 => by
      split
      · exact .ite (.ite h2.setFld.draw.locked h2.setFld.draw.setSyn.setFld) h2
      · exact h2

theorem calStepDone {s : Chip} {ok : Bool} (h : s.Steady τ P) : (s.calStepDone ok).Steady τ P := by
  unfold Chip.calStepDone
  dsimp only
  split
  · split
    · exact h
    · split
      · exact h.endGrant.calOver.resumeLock
      · exact .ite h.endGrant.setSyn.claimStep h.endGrant.calComplete
  · split
    · exact h
    · split
      · exact h.endGrant.calOver.resumeLock
      · exact .ite h.endGrant.setSyn.claimStep h.endGrant.calComplete
  · exact h

theorem startCmdCal {s : Chip} (h : s.Steady τ P) : s.startCmdCal.Steady τ P := h.setBit.setSyn.claimStep

theorem stopBg {s : Chip} (h : s.Steady τ P) : s.stopBg.Steady τ P := by
  unfold Chip.stopBg
  split
  · exact h.calOver.release
  · exact h

theorem synCal {s : Chip} (h : s.Steady τ P) : s.synCal.Steady τ P := by
  unfold Chip.synCal
  split
  · exact h.setReason
  · split
    · exact h.setReason
    · exact h.setReason
    · exact .ite h.setReason (.ite h.stopBg.setReason.startCmdCal h.setBit.setReason)

theorem calPending {s : Chip} (h : s.Steady τ P) : s.calPending.Steady τ P := by
  unfold Chip.calPending
  split
  · split
    · exact h.startCmdCal
    · exact h.stopBg.startCmdCal
    · exact h
  · exact h

theorem synLock {s : Chip} (h : s.Steady τ P) : s.synLock.Steady τ P := .ite h.locked h

theorem lockFail {s : Chip} (h : s.Steady τ P) : s.lockFail.Steady τ P := .ite h.radioFail h

theorem abortTx {s : Chip} {l : Live} {code t : Nat} (h : s.Steady τ P) : (s.abortTx l code t).Steady τ P := h.setLive

theorem lockLost {s : Chip} (h : s.Steady τ P) : s.lockLost.Steady τ P := by
  unfold Chip.lockLost
  dsimp only
  split
  · exact h
  · exact Steady.share h.setBit.radioFail fun h1 => by
      split
      · exact h1
      · exact .ite h1.abortTx (.ite (.ite h1.setLive h1.endCell) (.ite h1.setSyn h1))

theorem bgDue {s : Chip} (h : s.Steady τ P) : s.bgDue.Steady τ P := h.setSyn

theorem bgCmd {s : Chip} (h : s.Steady τ P) : s.bgCmd.Steady τ P := h.setSyn

theorem bgStart {s : Chip} {prep : Option Nat} (h : s.Steady τ P) : (s.bgStart prep).Steady τ P := by
  unfold Chip.bgStart
  split
  · exact h
  · exact .ite h.setSyn.claimStep h

theorem bgStepDone {s : Chip} (h : s.Steady τ P) : s.bgStepDone.Steady τ P := by
  unfold Chip.bgStepDone
  split
  · exact h.calOver.setSyn.endGrant
  · exact h

theorem cxCount {s : Chip} (h : s.Steady τ P) : s.cxCount.Steady τ P := h.count.occ

theorem driveGnt {s : Chip} {gnt : Bool} (h : s.Steady τ P) : (s.driveGnt gnt).Steady τ P := .ite h h.drivePin

theorem gntLost {s : Chip} (h : s.Steady τ P) : s.gntLost.Steady τ P := by
  unfold Chip.gntLost
  split
  · exact .ite h.abortTx.cxCount h
  · exact h

theorem cxGntFall {s : Chip} (h : s.Steady τ P) : s.cxGntFall.Steady τ P := h.inputEdge (fun _ h1 => h1.gntLost)

theorem cxArb {s : Chip} {req pri : Bool} (h : s.Steady τ P) : (s.cxArb req pri).Steady τ P := h.drivePin.drivePin.cxGrant

theorem arbCopy {s : Chip} (h : s.Steady τ P) : s.arbCopy.Steady τ P := h.setReg.cxGrant

theorem arbNxtWrite {s : Chip} {ag : Agent} {v : Word} (h : s.Steady τ P) : (s.arbNxtWrite ag v).Steady τ P :=
  .ite h.setReason (.ite h.setFld.setReason h.setFld.setReason.arbCopy)

theorem txenRise {s : Chip} (h : s.Steady τ P) : s.txenRise.Steady τ P := by
  unfold Chip.txenRise
  split
  · exact .ite h.setLive.setLatch h
  · exact h

theorem rampFor {s : Chip} {l : Live} {octets : List Byte} (h : s.Steady τ P) : (s.rampFor l octets).Steady τ P :=
  h.setLive.setLatch.setLnk.setFld.setFld.setFld

theorem txStartPulse {s : Chip} (h : s.Steady τ P) : s.txStartPulse.Steady τ P := .ite h.publish h

theorem startTx {s : Chip} {l0 : Live} (h : s.Steady τ P) : (s.startTx l0).Steady τ P := h.rampFor.setLnk.setFld

theorem dropLate {s : Chip} {l : Live} (h : s.Steady τ P) : (s.dropLate l).Steady τ P := Steady.endCellEntry (.ite h.cxCount h)

theorem txRule {s : Chip} {l : Live} (h : s.Steady τ P) : (s.txRule l).Steady τ P :=
  .ite h.dropLate (.ite h.setLive (.ite (.ite h.endCellEntry.cxCount h.setLive) h.startTx))

theorem txRampStart {s : Chip} {gnt : Bool} (h : s.Steady τ P) : (s.txRampStart gnt).Steady τ P := by
  unfold Chip.txRampStart
  dsimp only
  split
  · exact .ite h.driveGnt h.driveGnt.txRule
  · exact h.driveGnt

theorem txHoldResolve {s : Chip} {gnt : Bool} (h : s.Steady τ P) : (s.txHoldResolve gnt).Steady τ P := by
  unfold Chip.txHoldResolve
  dsimp only
  split
  · exact .ite h.driveGnt.txRule h.driveGnt
  · exact h.driveGnt

theorem txDeadlineDrop {s : Chip} (h : s.Steady τ P) : s.txDeadlineDrop.Steady τ P := by
  unfold Chip.txDeadlineDrop
  split
  · exact .ite h.dropLate h
  · exact h

theorem warnTx {s : Chip} (h : s.Steady τ P) : s.warnTx.Steady τ P := by
  unfold Chip.warnTx
  split
  · exact .ite h.abortTx h
  · exact h

theorem agcPeriodEnd {s : Chip} {p rssi : Int} (h : s.Steady τ P) : (s.agcPeriodEnd p rssi).Steady τ P := by
  unfold Chip.agcPeriodEnd
  split
  · exact h
  · split
    · exact h
    · exact .ite h h.setLive.setFld

/-! ### Engine -/

theorem serveQueue {s : Chip} {c n index w0 w1 : Nat} {books : Bool} {l : List Nat} (h : s.Steady τ P) :
    (s.serveQueue c n index w0 w1 books l).2.Steady τ P := by
  induction l generalizing s with
  | nil => exact h
  | cons q l ih => exact .ite_snd (.ite_snd (ih h.setFld) h) (ih h)

theorem chooseSend {s : Chip} {c n : Nat} {books : Bool} {l : List (Nat × Nat × Nat)} (h : s.Steady τ P) :
    (s.chooseSend c n books l).2.Steady τ P := by
  induction l generalizing s with
  | nil => exact h
  | cons e l ih =>
    unfold Chip.chooseSend
    split
    · split
      · next heq => exact Steady.snd_of_eq heq h.serveQueue
      · next heq => exact ih (Steady.snd_of_eq heq h.serveQueue)
    · exact ih h

theorem choose {s : Chip} {c n : Nat} {books : Bool} (h : s.Steady τ P) : (s.choose c n books).2.Steady τ P := by
  unfold Chip.choose
  dsimp only
  split
  · next heq => exact Steady.snd_of_eq heq h.chooseSend
  · next heq => exact Steady.snd_of_eq heq h.chooseSend

theorem purgeBooks {s : Chip} (h : s.Steady τ P) : s.purgeBooks.Steady τ P := h.setLnk

theorem setReasons {s : Chip} {code : Nat} (h : s.Steady τ P) : (s.setReasons code).Steady τ P := h.setReason

theorem endAtChoice {s : Chip} {c : Chosen} {code : Nat} (h : s.Steady τ P) : (s.endAtChoice c code).Steady τ P :=
  .ite h.setReasons.skipRecord h.setReasons.setLnk

theorem cellChoice {s : Chip} {c : Nat} (h : s.Steady τ P) : (s.cellChoice c).Steady τ P := by
  unfold Chip.cellChoice
  dsimp only
  split
  · exact h
  · split
    · next heq => exact Steady.snd_of_eq heq h.purgeBooks.setLnk.choose
    · next heq =>
        have h3 := Steady.snd_of_eq heq h.purgeBooks.setLnk.choose
        split
        · exact h3.endAtChoice
        · exact .ite h3.endAtChoice (Steady.openWindow (Steady.setLnk (.ite h3.lnkEvent h3)))

theorem endChosen {s : Chip} {c : Chosen} {code : Nat} (h : s.Steady τ P) : (s.endChosen c code).Steady τ P :=
  Steady.share h.setReasons.skipRecord fun h1 => .ite (Steady.closeWindow (.ite h1.setLnk h1)) (.ite h1.setLnk h1)

theorem prepTx {s : Chip} {l : Live} (h : s.Steady τ P) : (s.prepTx l).Steady τ P := by
  unfold Chip.prepTx
  split
  · exact h.endCell
  · exact .ite h.endCell (.ite h.endCellEntry (.ite h.endCellEntry h.claim))

theorem prepRx {s : Chip} {l : Live} (h : s.Steady τ P) : (s.prepRx l).Steady τ P := h.setLive.claim

theorem cellPrepStart {s : Chip} {c : Nat} (h : s.Steady τ P) : (s.cellPrepStart c).Steady τ P := by
  unfold Chip.cellPrepStart
  split
  · exact h
  · exact Steady.share h.setLnk fun h1 => .ite h1.lnkEvent.endChosen
          (.ite h1.setFld.stopBg.endChosen.setReason (.ite h1.setFld.stopBg.endChosen
              (Steady.share h1.setFld.stopBg.setLive.setFld.setFld.setFld fun h3 => .ite h3.prepTx h3.prepRx)))

theorem takeCorrection {s : Chip} {d : Int} (h : s.Steady τ P) : (s.takeCorrection d).2.Steady τ P := .ite_snd h.lnkEvent h.setLnk

theorem applyCorrections {s : Chip} (h : s.Steady τ P) : s.applyCorrections.Steady τ P :=
  Steady.setBit (Steady.setLnk (Steady.foldl (fun _ _ h1 => h1.setFld.monCorrection) h))

theorem tadjWrite {s : Chip} {v : Word} (h : s.Steady τ P) : (s.tadjWrite v).Steady τ P := h.takeCorrection.setReasons

theorem desyncTimeout {s : Chip} (h : s.Steady τ P) : s.desyncTimeout.Steady τ P := .ite h.setLnk.setBit.setReasons.lnkEvent.occ h

theorem engineStart {s : Chip} (h : s.Steady τ P) : s.engineStart.Steady τ P :=
  Steady.foldl (fun _ _ h2 => h2.headCheck) (Steady.foldl (fun _ _ h1 => h1.resetBackoff) h.setLnk)

theorem ifLnkOwner {s : Chip} {ag : Agent} {f : Chip → Chip} (h : s.Steady τ P) (h' : ∀ x1, x1.Steady τ P → (f x1).Steady τ P) :
    (s.ifLnkOwner ag f).Steady τ P :=
  .ite (h' _ h) h.setReason

theorem lnkEnable {s : Chip} (h : s.Steady τ P) : s.lnkEnable.Steady τ P :=
  .ite h (.ite h.setBit.setReason (.ite h.enableIf.engineStart h.enableIf))

theorem slotwOff {s : Chip} (h : s.Steady τ P) : s.slotwOff.Steady τ P := by
  unfold Chip.slotwOff
  dsimp only
  split
  · exact h.setCore
  · exact h

theorem slotwBoundary {s : Chip} {c asn : Nat} (h : s.Steady τ P) : (s.slotwBoundary c asn).Steady τ P := .ite h.setCore h

theorem lnkDisable {s : Chip} (h : s.Steady τ P) : s.lnkDisable.Steady τ P := .ite h h.setBit.slotwOff.upd

theorem engineStop {s : Chip} (h : s.Steady τ P) : s.engineStop.Steady τ P :=
  Steady.share (Steady.foldl (fun _ _ h2 => h2.resetBackoff) h.setBear) fun h2 => Steady.admission
      (.ite h2.setLnk.blockStopped.setBit.engineStart h2.setLnk.blockStopped)

theorem markChosen {s : Chip} {c n : Nat} {l : List Chosen} (h : s.Steady τ P) : (s.markChosen c n l).Steady τ P := by
  induction l generalizing s with
  | nil => exact h
  | cons k l ih =>
    unfold Chip.markChosen
    split
    · split
      · exact ih h.skipRecord
      · exact (ih h).setLnk
    · exact (ih h).setLnk

theorem slotBoundary {s : Chip} {c : Nat} (h : s.Steady τ P) : (s.slotBoundary c).Steady τ P :=
  .ite h (.ite (.ite h.applyCorrections h) (Steady.share (Steady.slotwBoundary
      (.ite (Steady.occ (Steady.arbCopy (Steady.markChosen (Steady.setLnk (Steady.setLnk (.ite h.applyCorrections h))))))
          (Steady.arbCopy (Steady.markChosen (Steady.setLnk (Steady.setLnk (.ite h.applyCorrections h))))))) fun h6 => .ite
              (Steady.engineStop (.ite h6.preemptStop h6)) (.ite h6.preemptStop h6)))

theorem reserveAll {s : Chip} {got : List Nat} {l : List Resv} (h : s.Steady τ P) : (s.reserveAll got l).2.2.Steady τ P := by
  induction l generalizing s got with
  | nil => exact h
  | cons b l ih =>
    unfold Chip.reserveAll
    split
    · next heq =>
      have h1 := Steady.snd_snd_of_eq heq h.reserve
      split
      · exact ih h1
      · exact h1
    · next heq => exact (Steady.snd_snd_of_eq heq h.reserve).setBear

theorem tryBook {s : Chip} {q a : Nat} {l : List (Nat × Nat × Nat × Nat × Nat)} (h : s.Steady τ P) :
    (s.tryBook q a l).Steady τ P := by
  induction l generalizing s with
  | nil => exact h
  | cons e l ih =>
    unfold Chip.tryBook
    extract_lets rs
    refine .ite h.setLnk ?_
    split
    next heq =>
    have h1 := Steady.snd_snd_of_eq heq h.reserveAll
    exact .ite h1.setLnk (.ite h1.lnkEvent.setLnk (ih h1.lnkEvent.setLnk))

theorem bookTx {s0 : Chip} {q : Nat} (h : s0.Steady τ P) : (s0.bookTx q).Steady τ P := by
  unfold Chip.bookTx
  dsimp only
  split
  · exact h.purgeBooks
  · split
    · exact h.purgeBooks
    · exact h.purgeBooks.tryBook

theorem bookRx {s : Chip} {i : Nat} (h : s.Steady τ P) : (s.bookRx i).Steady τ P := by
  unfold Chip.bookRx
  dsimp only
  split
  · exact h
  · split
    · exact h.setLnk.lnkEvent
    · split
      · next heq =>
          have h1 := Steady.snd_snd_of_eq heq h.reserve
          exact .ite h1.setLnk h1.setLnk.lnkEvent
      · next heq => exact Steady.lnkEvent (Steady.setLnk (Steady.snd_snd_of_eq heq h.reserve))

theorem sfWrite {s : Chip} {ag : Agent} {f : Nat} {v : Word} (h : s.Steady τ P) : (s.sfWrite ag f v).Steady τ P :=
  h.ifLnkOwner (fun _ h1 => .ite h1 (.ite h1.setReasons h1.setReg.setReasons))

theorem cellWrite {s : Chip} {ag : Agent} {i k : Nat} {v : Word} (h : s.Steady τ P) : (s.cellWrite ag i k v).Steady τ P :=
  h.ifLnkOwner (fun _ h1 => .ite h1 (.ite h1.setReg.setReasons (.ite h1.setReasons h1.setReg.setReasons)))

theorem chWrite {s : Chip} {ag : Agent} {k : Nat} {v : Word} (h : s.Steady τ P) : (s.chWrite ag k v).Steady τ P :=
  h.ifLnkOwner (fun _ h1 => .ite h1 (.ite h1.setReasons h1.setReg.setReasons))

theorem nbrWrite {s : Chip} {ag : Agent} {n k : Nat} {v : Word} (h : s.Steady τ P) : (s.nbrWrite ag n k v).Steady τ P :=
  h.ifLnkOwner (fun _ h1 => .ite h1 h1.setReg.setFld.setReasons)

theorem startWrite {s : Chip} {ag : Agent} {c : Nat} {v : Word} (h : s.Steady τ P) : (s.startWrite ag c v).Steady τ P :=
  h.ifLnkOwner (fun _ h1 => .ite h1 (.ite h1.setReasons h1.setReg.setFld.setLnk.setReasons))

theorem asnLoRead {s : Chip} {c : Nat} (h : s.Steady τ P) : (s.asnLoRead c).2.Steady τ P := h.setLnk

theorem lnkRegWrite {s : Chip} {ag : Agent} {a : Nat} {v : Word} (h : s.Steady τ P) : (s.lnkRegWrite ag a v).Steady τ P := by
  unfold Chip.lnkRegWrite
  split
  · exact h
  · exact h.ifLnkOwner (fun _ h1 => .ite h1.setReg (.ite h1.setReasons (.ite h1.setReasons (.ite h1 h1.setReg.setReasons))))

theorem readClear {s : Chip} {a mask : Nat} (h : s.Steady τ P) : (s.readClear a mask).2.Steady τ P := h.setReg

/-! ### Rx -/

theorem rxRelease {s : Chip} (h : s.Steady τ P) : s.rxRelease.Steady τ P := h.release

theorem deliverFrame {s : Chip} {l : Live} {acked : Bool} (h : s.Steady τ P) : (s.deliverFrame l acked).Steady τ P := by
  unfold Chip.deliverFrame
  split
  · exact h
  · exact Steady.produce (.ite h.wrs h)

theorem ackLate {s : Chip} {l : Live} (h : s.Steady τ P) : (s.ackLate l).Steady τ P := h.deliverFrame.endCell

theorem txAnswer {s : Chip} {r : Answer} (h : s.Steady τ P) : (s.txAnswer r).Steady τ P := by
  unfold Chip.txAnswer
  split
  · split
    · exact h
    · split
      · exact h.setLive.startLock
      · exact h.setLive.startLock
      · exact h.endCellEntry
      · exact h
  · split
    · exact h.setLive
    · exact h.ackLate
    · exact h
  · exact h

theorem rxAnswer {s : Chip} {r : Answer} (h : s.Steady τ P) : (s.rxAnswer r).Steady τ P := by
  unfold Chip.rxAnswer
  split
  · exact .ite h h.setLive.startLock
  · exact .ite h h.endCell
  · exact .ite h.setLive h.setLive.startLock
  · exact h.ackMissed
  · exact h

theorem openRx {s : Chip} {l : Live} {w : RxWin} (h : s.Steady τ P) : (s.openRx l w).Steady τ P := h.setLive.setFld.setFld.setBit

theorem rxWindowOpen {s0 : Chip} {gnt : Bool} (h : s0.Steady τ P) : (s0.rxWindowOpen gnt).Steady τ P := by
  unfold Chip.rxWindowOpen
  dsimp only
  exact Steady.share h.driveGnt fun h1 => by
    split
    · exact h1
    · exact .ite h1 (.ite h1.endCell.cxCount h1.openRx.setFld)

theorem ackWindowClaim {s : Chip} {l : Live} {w : RxWin} (h : s.Steady τ P) : (s.ackWindowClaim l w).Steady τ P := h.setLive.claim

theorem ackWindowOpen {s0 : Chip} {gnt : Bool} (h : s0.Steady τ P) : (s0.ackWindowOpen gnt).Steady τ P := by
  unfold Chip.ackWindowOpen
  dsimp only
  exact Steady.share h.driveGnt fun h1 => by
    split
    · exact h1
    · exact .ite h1 (.ite h1.ackWindowClaim (.ite h1 (.ite h1.ackMissed.cxCount h1.openRx)))

theorem endWindow {s : Chip} {l : Live} {code : Nat} (h : s.Steady τ P) : (s.endWindow l code).Steady τ P :=
  .ite h.setReason.ackMissed h.setReason.endCell

theorem winFail {s : Chip} {l : Live} {w : RxWin} {code : Nat} (h : s.Steady τ P) : (s.winFail l w code).Steady τ P :=
  .ite h.endWindow h.setLive.setReason.setFld

theorem windowClose {s : Chip} {ack : Bool} (h : s.Steady τ P) : (s.windowClose ack).Steady τ P := by
  unfold Chip.windowClose
  split
  · exact h
  · exact .ite h (.ite h.endWindow h.setLive)

theorem preambleAcquired {s : Chip} {a : RxAcq} (h : s.Steady τ P) : (s.preambleAcquired a).Steady τ P := by
  unfold Chip.preambleAcquired
  split
  · exact .ite h.setLive.setFld h
  · exact h

theorem syncDecision {s : Chip} {a b c : RxSync} {ago : Nat} (h : s.Steady τ P) : (s.syncDecision a b c ago).Steady τ P := by
  unfold Chip.syncDecision
  split
  · split
    · exact h
    split
    · exact h.count.winFail
    extract_lets at'
    split
    next heq =>
    have h1 := Steady.snd_of_eq heq (.ite_snd (h.stamp (t := at')) h)
    exact h1.setLive.publish
  · exact h

theorem headerDecision {s : Chip} {f : RxField} (h : s.Steady τ P) : (s.headerDecision f).Steady τ P := by
  unfold Chip.headerDecision
  split
  · exact .ite h (.ite h.winFail (.ite h.count.winFail h.setReg.setLive))
  · exact h

theorem trackLost {s : Chip} (h : s.Steady τ P) : s.trackLost.Steady τ P := by
  unfold Chip.trackLost
  split
  · exact .ite h.winFail h
  · exact h

theorem frameReceived {s : Chip} {f : RxField} {det noise snr : Int} (h : s.Steady τ P) :
    (s.frameReceived f det noise snr).Steady τ P := by
  unfold Chip.frameReceived
  split
  · split
    · exact h
    split
    next octets lost snr' evm _ =>
    split
    next body ok _ =>
    extract_lets s1 code q w1 s2 s3
    have h1 : s1.Steady τ P := .ite h h.count
    have h2 : s2.Steady τ P := h1.setReg.setReason.setBit.setFld.setFld
    have h3 : s3.Steady τ P := .ite h2.closeWindow h2
    exact .ite h.winFail (.ite h1.winFail (.ite h3.setLive.synOff.setFld.rxRelease h2.setLive.rxRelease))
  · exact h

theorem cellCorrection {s : Chip} {l : Live} {d : Int} (h : s.Steady τ P) : (s.cellCorrection l d).2.Steady τ P :=
  h.takeCorrection

theorem rxHandover {s : Chip} {l : Live} {w : RxWin} (h : s.Steady τ P) : (s.rxHandover l w).Steady τ P :=
  .ite h.count.endCell (Steady.share (.ite_snd h.cellCorrection h) fun h1 => .ite h1.endCell
      (.ite h1.qDrop.endCell (.ite (.ite (Steady.ackLate (.ite h1.setFld.setBit h1)) (Steady.setLive (.ite h1.setFld.setBit h1)))
          (Steady.endCell (Steady.deliverFrame (.ite h1.setFld.setBit h1))))))

theorem frameHandover {s : Chip} (h : s.Steady τ P) : s.frameHandover.Steady τ P := by
  unfold Chip.frameHandover
  split
  · exact .ite h (.ite h.rxHandover h.setLive)
  · exact h

theorem ackClaim {s : Chip} (h : s.Steady τ P) : s.ackClaim.Steady τ P := by
  unfold Chip.ackClaim
  split
  · exact .ite h.setLive.setFld.claim h
  · exact h

theorem ackTxStart {s0 : Chip} {gnt : Bool} (h : s0.Steady τ P) : (s0.ackTxStart gnt).Steady τ P := by
  unfold Chip.ackTxStart
  dsimp only
  exact Steady.share h.driveGnt fun h1 => by
    split
    · split
      · exact h1
      · exact .ite h1 (.ite h1.ackLate (.ite h1.ackLate.cxCount h1.rampFor))
    · exact h1

theorem ackTxEnd {s : Chip} (h : s.Steady τ P) : s.ackTxEnd.Steady τ P := by
  unfold Chip.ackTxEnd
  split
  · split
    · split <;> exact h.deliverFrame.endCell
    · exact h
  · exact h

theorem txEndStep {s0 : Chip} (h : s0.Steady τ P) : s0.txEndStep.Steady τ P := by
  unfold Chip.txEndStep
  extract_lets s
  have hs : s.Steady τ P := h.stampDone
  clear_value s
  split
  · exact hs
  split
  · exact hs
  split
  · exact hs.setLatch.endCellEntry
  refine .ite hs.setLatch.endCellEntry ?_
  refine .ite hs.setLatch.setLive.setFld.setFld.setFld.release.synOff ?_
  split
  · exact hs.setLatch.setLive.setFld.setFld.setFld.release.ackWindowClaim
  · exact hs.setLatch.setLive.setFld.setFld.setFld.release

theorem ackReceived {s : Chip} (h : s.Steady τ P) : s.ackReceived.Steady τ P := by
  unfold Chip.ackReceived
  split
  · exact h
  · split
    · exact h
    · split
      · exact h.ackMissed
      · exact .ite h.ackMissed (Steady.endCell (Steady.endEntry (.ite_snd h.cellCorrection h)))

theorem radioGrantEnd {s : Chip} {n : Nat} (h : s.Steady τ P) : (s.radioGrantEnd n).Steady τ P := by
  unfold Chip.radioGrantEnd
  split
  · exact h
  · exact .ite h.setBear h.endGrant

/-! ### Mesh -/

theorem meshCount {s : Chip} {code : Nat} (h : s.Steady τ P) : (s.meshCount code).Steady τ P := h.setMesh

theorem replayCheck {s : Chip} {eui k c : Nat} (h : s.Steady τ P) : ∀ t, s.replayCheck eui k c = some t → t.Steady τ P := by
  intro t ht
  unfold Chip.replayCheck at ht
  extract_lets mine put at ht
  split at ht
  · cases ht; exact h.setMesh
  · obtain ⟨r, -, rfl⟩ := Option.map_eq_some_iff.mp ht
    exact h.setMesh

theorem putNbr {s : Chip} {n ver addr : Nat} {ts : Bool} (h : s.Steady τ P) : (s.putNbr n ver addr ts).Steady τ P :=
  .ite h h.setReg.setFld

theorem addNbr {s : Chip} {keep : Option (List Nat)} {a ver : Nat} (h : s.Steady τ P) : (s.addNbr keep a ver).Steady τ P := by
  unfold Chip.addNbr
  split
  · exact h.putNbr
  · exact h.putNbr
  · split
    · exact h.putNbr
    · exact h

theorem dropNbr {s : Chip} {a : Nat} (h : s.Steady τ P) : (s.dropNbr a).Steady τ P := by
  unfold Chip.dropNbr
  split
  · exact h.setReg
  · exact h

theorem setTimeSource {s : Chip} {pref : Option Nat} (h : s.Steady τ P) : (s.setTimeSource pref).Steady τ P := by
  unfold Chip.setTimeSource
  dsimp only
  exact Steady.share (Steady.foldl (fun _ _ h1 => .ite h1.putNbr h1) h) fun h1 => by
    split
    · exact h1.putNbr
    · exact h1

theorem takeOffer {s : Chip} {a vmin vmax : Nat} (h : s.Steady τ P) : (s.takeOffer a vmin vmax).2.Steady τ P := by
  unfold Chip.takeOffer
  split
  · exact h.meshCount
  · split
    · exact h.putNbr
    · exact h

theorem putCell {s : Chip} {i sf slot choff ty nbr mask : Nat} {btx : Bool} (h : s.Steady τ P) :
    (s.putCell i sf slot choff ty nbr mask btx).Steady τ P :=
  .ite h h.cellWrite.cellWrite

theorem dropCell {s : Chip} {i : Nat} (h : s.Steady τ P) : (s.dropCell i).Steady τ P := .ite h.cellWrite h

theorem putSlotframe {s : Chip} {f size : Nat} {hop' on : Bool} (h : s.Steady τ P) : (s.putSlotframe f size hop' on).Steady τ P :=
  .ite h (Steady.sfWrite (.ite h.sfWrite h))

theorem buildSf0 {s : Chip} (h : s.Steady τ P) : s.buildSf0.Steady τ P := by
  unfold Chip.buildSf0
  dsimp only
  split
  · exact h
  · exact Steady.foldl (fun _ _ h3 => by split; exact h3.putCell; exact h3.dropCell)
          (.ite h.putSlotframe.putCell.putCell h.putSlotframe.putCell.dropCell)

theorem buildSf1 {s : Chip} (h : s.Steady τ P) : s.buildSf1.Steady τ P :=
  .ite h (Steady.foldl (fun _ _ h2 => .ite h2.putCell h2.dropCell) h.putSlotframe.putCell)

theorem meshSchedule {s : Chip} (h : s.Steady τ P) : s.meshSchedule.Steady τ P := h.buildSf0.buildSf1

theorem listenCells {s : Chip} {on : Bool} (h : s.Steady τ P) : (s.listenCells on).Steady τ P :=
  .ite h.putSlotframe.putCell h.putSlotframe.dropCell

theorem joinProfile {s : Chip} (h : s.Steady τ P) : s.joinProfile.Steady τ P := .ite h h.profFWrite.profMWrite

theorem buildFrame {s : Chip} {ver : Nat} {o : MOut} (h : s.Steady τ P) : (s.buildFrame ver o).2.Steady τ P := by
  unfold Chip.buildFrame
  dsimp only
  split
  · exact h.setMesh
  · split
    · exact h.meshCount
    · exact .ite_snd h.meshCount h.setMesh.setMesh

theorem askMark {s : Chip} {k : Nat} (h : s.Steady τ P) : (s.askMark k).Steady τ P := .ite h h.setMesh

theorem placeFrame {s : Chip} {q nbr : Nat} {ack : Bool} {f : List Byte} (h : s.Steady τ P) :
    (s.placeFrame q nbr ack f).2.Steady τ P :=
  .ite_snd h (.ite_snd h h.wrs.wrs.queTailMove)

theorem queueFrame {s : Chip} {o : MOut} {nbr : Option Nat} {f : List Byte} (h : s.Steady τ P) :
    (s.queueFrame o nbr f).Steady τ P := by
  unfold Chip.queueFrame
  dsimp only
  exact Steady.share h.setMesh fun h1 => by
    split
    · next heq => exact Steady.snd_of_eq heq h1.placeFrame
    · next heq => exact Steady.meshCount (Steady.snd_of_eq heq h1.placeFrame)

theorem meshSend {s : Chip} {o : MOut} (h : s.Steady τ P) : (s.meshSend o).2.Steady τ P := by
  unfold Chip.meshSend
  extract_lets k nbr ver o1 held
  split
  · exact h.setMesh.askMark
  · split
    · next heq => exact Steady.snd_of_eq heq h.buildFrame
    · next heq =>
      have h1 := Steady.snd_of_eq heq h.buildFrame
      exact .ite_snd h1.meshCount h1.queueFrame

theorem meshUp {s : Chip} {ty : Nat} {jt : Option Nat} {body : List Byte} (h : s.Steady τ P) :
    (s.meshUp ty jt body).Steady τ P := by
  unfold Chip.meshUp
  split
  · exact h.meshCount
  · exact h.meshSend

theorem meshLocal {s : Chip} {dst ty : Nat} {body : List Byte} (h : s.Steady τ P) : (s.meshLocal dst ty body).Steady τ P :=
  h.meshSend

theorem sendHello {s : Chip} {dst : Nat} (h : s.Steady τ P) : (s.sendHello dst).Steady τ P := h.meshLocal

theorem sendAdvert {s : Chip} (h : s.Steady τ P) : s.sendAdvert.Steady τ P := by
  unfold Chip.sendAdvert
  dsimp only
  split
  · exact h
  · exact h.setMesh.meshUp

theorem sendGetPlan {s : Chip} (h : s.Steady τ P) : s.sendGetPlan.Steady τ P := by
  unfold Chip.sendGetPlan
  split
  · exact h.meshLocal
  · exact h

theorem orphan {s : Chip} (h : s.Steady τ P) : s.orphan.Steady τ P := h.setMesh.setTimeSource.listenCells.meshSchedule

theorem takeParents {s : Chip} {old ps : List Nat} {pref : Nat} (h : s.Steady τ P) : (s.takeParents old ps pref).Steady τ P :=
  Steady.share (Steady.setTimeSource (Steady.foldl (fun _ _ h2 => h2.addNbr) (Steady.foldl (fun _ _ h1 => h1.dropNbr) h))) fun h2
      => Steady.sendAdvert (Steady.foldl (fun _ _ h4 => h4.sendHello) (Steady.meshSchedule (.ite h2.listenCells h2)))

theorem adopt {s : Chip} {p : MeshPeer} (h : s.Steady τ P) : (s.adopt p).Steady τ P := .ite h.setMesh h.setMesh.takeParents

theorem meshParents {s0 : Chip} (h : s0.Steady τ P) : s0.meshParents.Steady τ P := by
  unfold Chip.meshParents
  dsimp only
  split
  · exact h.setMesh
  · split
    · exact h.setMesh.orphan
    · exact h.setMesh.adopt

theorem dropParent {s : Chip} {a : Nat} (h : s.Steady τ P) : (s.dropParent a).Steady τ P := by
  unfold Chip.dropParent
  split
  · exact h
  · exact h.setPeer.meshParents

theorem nowJoined {s : Chip} (h : s.Steady τ P) : s.nowJoined.Steady τ P := .ite h.setMesh.meshSchedule h

theorem joinLater {s : Chip} (h : s.Steady τ P) : s.joinLater.Steady τ P := .ite h.draw.setMesh h

theorem ackDecision {s : Chip} (h : s.Steady τ P) : s.ackDecision.Steady τ P := by
  unfold Chip.ackDecision
  split
  · split
    · extract_lets a s1 s2
      have h2 : s2.Steady τ P := by
        unfold s2
        split
        · exact h.ackReceived.sampleQ.setPeer
        · exact h.ackReceived.sampleQ
      split
      · exact .ite (.ite h2.nowJoined h2.joinLater) h2
      · exact h2
    · exact h.ackReceived
  · exact h

/-! ### MeshNode -/

theorem meshAccept {s : Chip} {f : List Byte} {m : MIn} {euis : List Nat} (h : s.Steady τ P) :
    ∀ t, s.meshAccept f m euis = .ok t → t.2.2.Steady τ P := by
  intro t ht
  unfold Chip.meshAccept at ht
  extract_lets offer r k at ht
  split at ht
  · cases ht
  split at ht
  · cases ht; exact h
  split at ht
  · cases ht
  split at ht
  · cases ht
  split at ht
  · cases ht
  · next heq => cases ht; exact h.replayCheck _ heq

theorem linkQ {s : Chip} {m : MIn} {lqi : Nat} (h : s.Steady τ P) : (s.linkQ m lqi).Steady τ P := .ite h.sampleQ h

theorem heard {s : Chip} {m : MIn} {lqi : Nat} (h : s.Steady τ P) : (s.heard m lqi).Steady τ P := h.setMesh.linkQ

theorem onFrame {s : Chip} {f : List Byte} {lqi : Nat} {want : MIn → Bool} {g : MIn → List Byte → Chip → Chip} (h : s.Steady τ P)
    (h' : ∀ x1 x2 x3, x3.Steady τ P → (g x1 x2 x3).Steady τ P) :
    (s.onFrame f lqi want g).Steady τ P := by
  unfold Chip.onFrame
  split
  · exact h.meshCount
  · split
    · exact h
    · split
      · exact h.meshCount
      · next heq => exact h' _ _ _ (Steady.heard (h.meshAccept _ heq))

theorem meshDeliver {s : Chip} {m : MIn} {b : List Byte} (h : s.Steady τ P) : (s.meshDeliver m b).Steady τ P := h.setMesh

theorem setAckunk {s : Chip} {v : Bool} (h : s.Steady τ P) : (s.setAckunk v).Steady τ P := h.setBit

theorem startNow {s : Chip} (h : s.Steady τ P) : s.startNow.Steady τ P := h.startWrite.lnkRegWrite.lnkRegWrite

theorem enterMesh {s : Chip} {parent : Nat} (h : s.Steady τ P) : (s.enterMesh parent).Steady τ P := by
  unfold Chip.enterMesh
  dsimp only
  split
  · exact h.setMesh.meshParents
  · exact h.setMesh.setMesh.adopt.sendGetPlan

theorem offStep {s : Chip} {a : MeshOff} (h : s.Steady τ P) : (s.offStep a).Steady τ P := by
  unfold Chip.offStep
  split
  · exact Steady.listenCells (Steady.foldl (fun _ _ h3 => h3.dropCell) h.setAckunk.startNow.joinProfile.putSlotframe.putSlotframe)
  · exact h.startWrite.lnkRegWrite.lnkRegWrite.lnkRegWrite.lnkRegWrite.meshSchedule
  · exact h.setAckunk.enterMesh
  · exact h.setAckunk.setFld.setBit.startNow.joinProfile.setMesh.meshSchedule

theorem offRun {s : Chip} (h : s.Steady τ P) : s.offRun.Steady τ P :=
  .ite h (Steady.lnkEnable (Steady.foldl (fun _ _ h1 => h1.offStep) h.setMesh))

theorem offJob {s : Chip} {j : MeshOff} (h : s.Steady τ P) : (s.offJob j).Steady τ P := h.setMesh.lnkDisable.offRun

theorem unwrapInto {s : Chip} {key tslot : Nat} {kw : List Byte} {job : MeshKeyJob} (h : s.Steady τ P) :
    (s.unwrapInto key tslot kw job).2.Steady τ P := by
  unfold Chip.unwrapInto
  split
  · exact h
  · split
    · exact h
    · exact h.setCph.setMesh.kstQueue

theorem beaconRun {s : Chip} (h : s.Steady τ P) : s.beaconRun.Steady τ P := by
  unfold Chip.beaconRun
  dsimp only
  split
  · exact h
  · split
    · exact h.askMark
    · split
      · split
        · next heq => exact Steady.setMesh (Steady.placeFrame (Steady.snd_of_eq heq h.buildFrame))
        · next heq => exact Steady.snd_of_eq heq h.buildFrame
      · split
        · split
          · next heq => exact Steady.setMesh (Steady.wrs (Steady.snd_of_eq heq h.buildFrame))
          · next heq => exact Steady.snd_of_eq heq h.buildFrame
        · exact h
      · exact h

theorem meshSync {s : Chip} {lo fine src : Nat} {i : BeaconInfo} (h : s.Steady τ P) : (s.meshSync lo fine src i).Steady τ P :=
  h.setMesh.offJob

theorem takeBeacon {s : Chip} {m : MIn} {i : BeaconInfo} {lqi : Nat} (h : s.Steady τ P) : (s.takeBeacon m i lqi).Steady τ P := by
  unfold Chip.takeBeacon
  dsimp only
  split
  · next heq => exact Steady.snd_of_eq heq h.takeOffer
  · next heq => exact Steady.setPeer (Steady.snd_of_eq heq h.takeOffer)

theorem planCheck {s : Chip} (h : s.Steady τ P) : s.planCheck.Steady τ P := by
  unfold Chip.planCheck
  split
  · exact h
  · exact .ite h.setMesh.sendGetPlan h

theorem beaconReceived {s : Chip} {f : List Byte} {lo fine lqi : Nat} (h : s.Steady τ P) :
    (s.beaconReceived f lo fine lqi).Steady τ P := by
  unfold Chip.beaconReceived
  split
  · exact h.meshCount
  · split
    · exact h
    · split
      · exact h.meshCount
      · split
        · split
          · exact h.meshCount
          · next heq => exact Steady.planCheck (Steady.meshParents (Steady.takeBeacon (h.meshAccept _ heq)))
        · exact .ite h.meshCount (.ite (.ite h.takeBeacon.meshSync h.takeBeacon) h)

theorem sendRequest {s : Chip} {j : MeshJoin} (h : s.Steady τ P) : (s.sendRequest j).Steady τ P := by
  unfold Chip.sendRequest
  split
  · exact h.setMesh.listenCells
  · exact h.draw.setMesh.meshSend

theorem collectEnd {s : Chip} (h : s.Steady τ P) : s.collectEnd.Steady τ P :=
  .ite h (.ite (.ite h.setMesh.meshParents h) h.listenCells.sendRequest)

theorem nextCandidate {s : Chip} (h : s.Steady τ P) : s.nextCandidate.Steady τ P := by
  unfold Chip.nextCandidate
  split
  · exact h
  · exact h.sendRequest

theorem joinTimeout {s : Chip} (h : s.Steady τ P) : s.joinTimeout.Steady τ P := by
  unfold Chip.joinTimeout
  split
  · exact h
  · exact .ite h.sendRequest h.nextCandidate

theorem sendDeliver {s : Chip} {ver : Nat} {body : List Byte} (h : s.Steady τ P) : (s.sendDeliver ver body).Steady τ P :=
  h.meshSend

theorem addJoiner {s : Chip} {eui vmin vmax : Nat} (h : s.Steady τ P) : (s.addJoiner eui vmin vmax).Steady τ P := .ite h h.setMesh

theorem sendDown {s : Chip} {d ty : Nat} {jt : Option Nat} {body : List Byte} (h : s.Steady τ P) :
    (s.sendDown d ty jt body).Steady τ P := by
  unfold Chip.sendDown
  split
  · exact h
  · split
    · exact h.setMesh.meshSend
    · split
      · exact h.meshSend
      · exact .ite h.meshCount h.meshSend
      · exact h.meshCount

theorem rootSend {s : Chip} {d ty : Nat} {jt : Option Nat} {body : List Byte} (h : s.Steady τ P) :
    (s.rootSend d ty jt body).Steady τ P :=
  .ite h.sendDown h

theorem recordAddr {s : Chip} {a eui : Nat} (h : s.Steady τ P) : (s.recordAddr a eui).Steady τ P := .ite h h.setMesh

theorem rootJoin {s : Chip} {parent : Nat} {req : List Byte} (h : s.Steady τ P) : (s.rootJoin parent req).Steady τ P := by
  unfold Chip.rootJoin
  split
  · exact h
  split
  · exact h
  split
  · next s1 _ heq _ =>
    have h1 : s1.Steady τ P := h.meshAccept _ heq
    refine .ite h1 (.ite h1.meshCount (.ite h1.meshCount (.ite h1.meshCount (.ite h1.meshCount (.ite h.setMesh.askMark ?_)))))
    exact .ite (Steady.sendDeliver (Steady.addJoiner (.ite h1.setMesh.recordAddr h1.setMesh)))
      (Steady.sendDown (.ite h1.setMesh.recordAddr h1.setMesh))
  · exact h

theorem requestReceived {s : Chip} {f : List Byte} {lqi : Nat} (h : s.Steady τ P) : (s.requestReceived f lqi).Steady τ P := by
  unfold Chip.requestReceived
  split
  · exact h.meshCount
  · exact .ite h (.ite h.meshCount (.ite h.meshCount (.ite h.rootJoin h.setMesh.meshUp)))

theorem relayReceived {s : Chip} {parent : Nat} {body : List Byte} (h : s.Steady τ P) :
    (s.relayReceived parent body).Steady τ P :=
  .ite h h.rootJoin

theorem responseReceived {s : Chip} {body : List Byte} (h : s.Steady τ P) : (s.responseReceived body).Steady τ P :=
  .ite h h.addJoiner.sendDeliver

theorem completeJoin {s : Chip} {parent addr epoch advint sf1 : Nat} (h : s.Steady τ P) :
    (s.completeJoin parent addr epoch advint sf1).Steady τ P :=
  .ite h.setMesh.setFld.setFld.offJob h.setMesh.setFld.setFld.enterMesh

theorem deliverReceived {s0 : Chip} {r : MeshRx} (h : s0.Steady τ P) : (s0.deliverReceived r).Steady τ P := by
  unfold Chip.deliverReceived
  dsimp only
  split
  · exact Steady.share h.linkQ fun h1 => by
      split
      · exact h1
      · split
        · exact h1.meshCount
        · split
          · exact h1
          · exact .ite h1 (.ite h1.nextCandidate h1.unwrapInto)
  · exact h

theorem helloReceived {s : Chip} {f : List Byte} {lqi : Nat} (h : s.Steady τ P) : (s.helloReceived f lqi).Steady τ P := by
  unfold Chip.helloReceived
  dsimp only
  split
  · exact h.meshCount
  · split
    · exact h
    · split
      · exact h.meshCount
      · next heq =>
          have h1 := h.meshAccept _ heq
          split
          · exact h1.meshCount
          · split
            · next heq => exact Steady.snd_of_eq heq h1.takeOffer
            · next heq =>
                have h2 := Steady.snd_of_eq heq h1.takeOffer
                exact Steady.share (Steady.heard (by split; exact h2.setPeer; exact h2)) fun h3 => .ite h3
                    (.ite h3.meshCount h3.setMesh.addNbr.meshSchedule)

theorem becomeJoiner {s : Chip} (h : s.Steady τ P) : s.becomeJoiner.Steady τ P :=
  Steady.offJob (Steady.setMesh (Steady.setFld (Steady.setFld (Steady.foldl (fun _ _ h1 => h1.setReg) h))))

theorem takeCred {s : Chip} {b : List Byte} (h : s.Steady τ P) : (s.takeCred b).Steady τ P := h.setMesh.setFld.upd

theorem tapApply {s : Chip} {b : List Byte} (h : s.Steady τ P) : (s.tapApply b).Steady τ P := by
  unfold Chip.tapApply
  split
  · exact h
  · split
    · exact h.meshCount
    · split
      · next heq => exact Steady.meshCount (Steady.snd_of_eq heq h.unwrapInto)
      · next heq => exact Steady.snd_of_eq heq h.unwrapInto

theorem tapDone {s : Chip} {b : List Byte} (h : s.Steady τ P) : (s.tapDone b).Steady τ P :=
  h.takeCred.setMesh.becomeJoiner.meshCount

theorem routeErrReceived {s : Chip} {fdst hop' : Nat} (h : s.Steady τ P) : (s.routeErrReceived fdst hop').Steady τ P :=
  .ite h (.ite h.wr (Steady.foldl (fun _ _ h1 => h1.wr) h))

theorem sendRouteErr {s : Chip} {code fdst hop' : Nat} (h : s.Steady τ P) : (s.sendRouteErr code fdst hop').Steady τ P :=
  .ite h.routeErrReceived (.ite h h.meshUp)

theorem meshPass {s : Chip} {o : MOut} (h : s.Steady τ P) : (s.meshPass o).Steady τ P := .ite h.meshSend.sendRouteErr h.meshSend

theorem meshDrop {s : Chip} {code : Nat} (h : s.Steady τ P) : (s.meshDrop code).Steady τ P := h.meshCount

theorem upReceived {s : Chip} {f : List Byte} {lqi : Nat} (h : s.Steady τ P) : (s.upReceived f lqi).Steady τ P := by
  unfold Chip.upReceived
  exact h.onFrame fun _ _ _ h1 => by
    split
    · exact h1.meshDrop
    · split
      · exact h1.meshDeliver
      · split
        · exact h1
        · split
          · exact h1.meshDrop
          · split
            · exact h1.meshDrop
            · split
              · exact h1.meshDrop
              · exact h1.meshPass

theorem downReceived {s : Chip} {f : List Byte} {lqi : Nat} (h : s.Steady τ P) : (s.downReceived f lqi).Steady τ P :=
  h.onFrame (fun _ _ _ h1 => .ite h1.nowJoined.meshDeliver (.ite h1.meshDrop
      (.ite h1 (.ite h1.meshDrop (.ite h1.meshDrop.sendRouteErr (.ite h1.meshDrop.sendRouteErr h1.meshPass))))))

theorem floodReceived {s : Chip} {f : List Byte} {lqi : Nat} (h : s.Steady τ P) : (s.floodReceived f lqi).Steady τ P :=
  h.onFrame (fun _ _ _ h1 => .ite h1 (.ite h1.setMesh.meshDeliver.meshSend h1.setMesh.meshDeliver))

theorem advertReceived {s : Chip} {orig : Nat} {b : List Byte} (h : s.Steady τ P) : (s.advertReceived orig b).Steady τ P := by
  unfold Chip.advertReceived
  split
  · exact h
  · split
    · exact h.meshCount
    · exact .ite h h.wrs

theorem routeExpiry {s : Chip} {a : Nat} (h : s.Steady τ P) : (s.routeExpiry a).Steady τ P := .ite h.wr h

theorem noAckReturn {s : Chip} {f : List Byte} {tries : Nat} (h : s.Steady τ P) : (s.noAckReturn f tries).Steady τ P := by
  unfold Chip.noAckReturn
  split
  · exact h
  · extract_lets s0 nxt s1
    have h1 : s1.Steady τ P := by
      unfold s1
      split
      · exact h.missQ
      · exact .ite h.missQ.dropParent h.missQ.setPeer
    clear_value s1 nxt
    split
    · exact h1
    · split
      · cases nxt with
        | none => exact h1.meshDrop
        | some p => exact h1.meshPass
      · exact .ite h1.sendRouteErr h1

theorem advertInterval {s : Chip} (h : s.Steady τ P) : s.advertInterval.Steady τ P := .ite h.setMesh.sendAdvert h

theorem childTimeout {s : Chip} {a : Nat} (h : s.Steady τ P) : (s.childTimeout a).Steady τ P :=
  .ite h.setMesh h.setMesh.dropNbr.meshSchedule

theorem meshReply {s : Chip} {w : CmdFrom} {cid token code : Nat} {data : List Byte} (h : s.Steady τ P) :
    (s.meshReply w cid token code data).Steady τ P :=
  .ite h.meshLocal (.ite h.sendDown h.meshUp)

theorem rootCmd {s : Chip} {w : CmdFrom} {cid token : Nat} {g : Chip → Nat × List Byte × Chip} (h : s.Steady τ P)
    (h' : ∀ x1, x1.Steady τ P → (g x1).2.2.Steady τ P) :
    (s.rootCmd w cid token g).Steady τ P :=
  .ite h.meshReply (Steady.meshReply (h' _ h))

theorem cmdPing {s : Chip} {w : CmdFrom} {token : Nat} (h : s.Steady τ P) : (s.cmdPing w token).Steady τ P :=
  h.rootCmd (fun _ h1 => h1)

theorem cmdGetInfo {s : Chip} {w : CmdFrom} {token : Nat} (h : s.Steady τ P) : (s.cmdGetInfo w token).Steady τ P :=
  h.rootCmd (fun _ h1 => h1)

theorem cmdGetPlan {s : Chip} {w : CmdFrom} {token page : Nat} (h : s.Steady τ P) : (s.cmdGetPlan w token page).Steady τ P :=
  .ite h.meshReply (.ite h.meshReply h.meshReply)

theorem planReceived {s : Chip} {b : List Byte} (h : s.Steady τ P) : (s.planReceived b).Steady τ P := by
  unfold Chip.planReceived
  dsimp only
  split
  · exact h
  · split
    · exact h
    · exact Steady.share (Steady.foldl (fun _ _ h1 => h1.lnkRegWrite.chWrite) h) fun h1 => .ite h1.setMesh.sendGetPlan
            h1.lnkRegWrite.setMesh.meshSchedule

theorem cmdKeyNext {s : Chip} {w : CmdFrom} {token epoch : Nat} {kw : List Byte} (h : s.Steady τ P) :
    (s.cmdKeyNext w token epoch kw).Steady τ P := by
  unfold Chip.cmdKeyNext
  dsimp only
  split
  · exact h.meshReply
  · split
    · exact h.meshReply
    · split
      · exact h.meshReply
      · split
        · next heq => exact Steady.meshReply (Steady.snd_of_eq heq h.unwrapInto)
        · next heq => exact Steady.snd_of_eq heq h.unwrapInto

theorem keyNextDone {s : Chip} {w : CmdFrom} {token epoch code : Nat} (h : s.Steady τ P) :
    (s.keyNextDone w token epoch code).Steady τ P :=
  .ite h.meshReply h.setMesh.meshReply

theorem switchEpoch {s : Chip} {e : Nat} (h : s.Steady τ P) : (s.switchEpoch e).Steady τ P := h.setMesh

theorem cmdKeySwitch {s : Chip} {h' : CmdHead} {epoch asn : Nat} (h : s.Steady τ P) : (s.cmdKeySwitch h' epoch asn).Steady τ P :=
  .ite h.meshReply (.ite h.switchEpoch h.setMesh)

theorem keySwitchReached {s : Chip} (h : s.Steady τ P) : s.keySwitchReached.Steady τ P := by
  unfold Chip.keySwitchReached
  split
  · exact h.switchEpoch
  · exact h

theorem cmdLeave {s : Chip} {w : CmdFrom} {token : Nat} (h : s.Steady τ P) : (s.cmdLeave w token).Steady τ P :=
  .ite (Steady.setMesh (h.rootCmd (fun _ h1 => h1))) (h.rootCmd (fun _ h1 => h1))

theorem leaveRun {s : Chip} (h : s.Steady τ P) : s.leaveRun.Steady τ P := .ite h.becomeJoiner h

theorem cmdUnknown {s : Chip} {orig : Nat} {loc : Bool} {cid token : Nat} (h : s.Steady τ P) :
    (s.cmdUnknown orig loc cid token).Steady τ P :=
  .ite h h.meshReply

theorem meshStart {s : Chip} (h : s.Steady τ P) : s.meshStart.Steady τ P :=
  .ite h (.ite h (.ite h.takeCred.setMesh.offJob h.takeCred.becomeJoiner))

theorem flashRun {s : Chip} (h : s.Steady τ P) : s.flashRun.Steady τ P := by
  unfold Chip.flashRun
  split
  · exact h
  · split
    · exact h
    · exact Steady.share h.setMesh fun h1 => by
        split
        · exact h1.flcErase
        · exact h1.setReg.flcProgram
        · exact .ite h1.setMesh h1

theorem keyRun {s : Chip} (h : s.Steady τ P) : s.keyRun.Steady τ P := by
  unfold Chip.keyRun
  dsimp only
  split
  · exact Steady.share h.setMesh fun h1 => by
      split
      · exact .ite h1.completeJoin h1
      · exact h1.keyNextDone
      · exact .ite h1.tapDone h1.meshCount
  · exact h

theorem heldRun {s : Chip} (h : s.Steady τ P) : s.heldRun.Steady τ P :=
  .ite (Steady.foldl (fun _ _ h2 => h2.rootJoin) (Steady.setMesh (Steady.foldl (fun _ _ h1 => h1.meshPass) h.setMesh))) h

theorem meshRun {s : Chip} (h : s.Steady τ P) : s.meshRun.Steady τ P :=
  Steady.share h.meshStart.offRun.flashRun.keyRun.heldRun.leaveRun fun h1 => Steady.share (.ite h1.nowJoined h1) fun h2 => .ite
      (Steady.meshParents (.ite h2.beaconRun h2)) (.ite h2.beaconRun h2)

theorem localReceived {s : Chip} {f : List Byte} {lqi : Nat} (h : s.Steady τ P) : (s.localReceived f lqi).Steady τ P :=
  h.onFrame (fun _ _ _ h1 => h1.meshDeliver)

theorem rxAdvance {s : Chip} {q : Nat} (h : s.Steady τ P) : (s.rxAdvance q).Steady τ P := h.queHeadWrite

/-! ### Nfc -/

theorem setNfc {s : Chip} {n : Nfc} (h : s.Steady τ P) : (s.setNfc n).Steady τ P := h.upd

theorem setRd {s : Chip} {r : Reader} (h : s.Steady τ P) : (s.setRd r).Steady τ P := h.setNfc

theorem nfcReason {s : Chip} {code : Nat} (h : s.Steady τ P) : (s.nfcReason code).Steady τ P := h.setReason

theorem ifNfcOwner {s : Chip} {ag : Agent} {f : Chip → Chip} (h : s.Steady τ P) (h' : ∀ x1, x1.Steady τ P → (f x1).Steady τ P) :
    (s.ifNfcOwner ag f).Steady τ P :=
  .ite (h' _ h) h.nfcReason

theorem nfcEntry {s : Chip} {kind reason info w1 : Nat} {buf : List Byte} {st : Stamp} (h : s.Steady τ P) :
    (s.nfcEntry kind reason info w1 buf st).Steady τ P :=
  Steady.produce (.ite h.wrs h)

theorem nfcEntryNow {s : Chip} {kind reason info w1 : Nat} {buf : List Byte} (h : s.Steady τ P) :
    (s.nfcEntryNow kind reason info w1 buf).Steady τ P := by
  unfold Chip.nfcEntryNow
  dsimp only
  exact h.stamp.nfcEntry

theorem tagSend {s : Chip} {octets : List Byte} {n : Nat} (h : s.Steady τ P) : (s.tagSend octets n).Steady τ P :=
  .ite h (.ite h.setNfc h.setNfc.claim)

theorem tagBare {s : Chip} {octets : List Byte} (h : s.Steady τ P) : (s.tagBare octets).Steady τ P := h.tagSend

theorem tagReply {s : Chip} {octets : List Byte} (h : s.Steady τ P) : (s.tagReply octets).Steady τ P := h.tagSend

theorem tagAnswer {s : Chip} {r : Answer} (h : s.Steady τ P) : (s.tagAnswer r).Steady τ P := by
  unfold Chip.tagAnswer
  split
  · exact h.setNfc
  · exact h

theorem tagMute {s : Chip} (h : s.Steady τ P) : s.tagMute.Steady τ P := by
  unfold Chip.tagMute
  split
  · exact .ite h h.dropClaim.setNfc.count
  · exact h

theorem tagBlocks {s : Chip} {a : List (List Byte)} (h : s.Steady τ P) : (s.tagBlocks a).Steady τ P := by
  unfold Chip.tagBlocks
  split
  · exact h
  · exact h.setNfc.tagReply

theorem tagApdu {s : Chip} {data : List Byte} {sw : Nat} (h : s.Steady τ P) : (s.tagApdu data sw).Steady τ P := h.tagBlocks

theorem setTag {s : Chip} {t : TagSt} (h : s.Steady τ P) : (s.setTag t).Steady τ P := h.setNfc

theorem tagReqa {s : Chip} {wupa : Bool} (h : s.Steady τ P) : (s.tagReqa wupa).Steady τ P := by
  unfold Chip.tagReqa
  dsimp only
  split
  · exact h
  · split
    · exact h.setTag.tagBare
    · exact .ite h.setTag.tagBare h
    · exact h

theorem tagAnti {s : Chip} {cl n known : Nat} (h : s.Steady τ P) : (s.tagAnti cl n known).Steady τ P := .ite h.setTag.tagBare h

theorem tagSelect {s : Chip} {cl : Nat} {uid : List Byte} (h : s.Steady τ P) : (s.tagSelect cl uid).Steady τ P :=
  .ite (.ite h.setTag.tagReply h.setTag.tagReply) h

theorem tagHlta {s : Chip} (h : s.Steady τ P) : s.tagHlta.Steady τ P := by
  unfold Chip.tagHlta
  split
  · exact h.setTag
  · exact h

theorem tagRats {s : Chip} (h : s.Steady τ P) : s.tagRats.Steady τ P := .ite h.draw.setNfc.tagReply h

theorem tagNext {s : Chip} (h : s.Steady τ P) : s.tagNext.Steady τ P := .ite h.tagBlocks h

theorem tagDeselect {s : Chip} (h : s.Steady τ P) : s.tagDeselect.Steady τ P := .ite h.setTag.tagReply h

theorem tagWtx {s : Chip} (h : s.Steady τ P) : s.tagWtx.Steady τ P := by
  unfold Chip.tagWtx
  split
  · exact .ite h.setNfc.tagReply h
  · exact h

theorem onApdu {s : Chip} {cla ins : Nat} {f : Chip → Chip} (h : s.Steady τ P) (h' : ∀ x1, x1.Steady τ P → (f x1).Steady τ P) :
    (s.onApdu cla ins f).Steady τ P := by
  unfold Chip.onApdu
  split
  · split
    · exact h.tagApdu
    · exact h' _ h
  · exact h

theorem selectName {s : Chip} {aid : List Byte} (h : s.Steady τ P) : (s.selectName aid).Steady τ P :=
  h.onApdu (fun _ h1 => .ite h1.setNfc.tagApdu h1.tagApdu)

theorem selectFile {s : Chip} {c : FileSelect} (h : s.Steady τ P) : (s.selectFile c).Steady τ P :=
  h.onApdu (fun _ h1 => .ite h1.setNfc.tagApdu h1.tagApdu)

theorem noFile {s : Chip} (h : s.Steady τ P) : s.noFile.Steady τ P := h.draw.tagApdu

theorem readBinary {s : Chip} {off len : Nat} (h : s.Steady τ P) : (s.readBinary off len).Steady τ P := by
  unfold Chip.readBinary
  exact h.onApdu fun _ h1 => by
    split
    · exact h1.noFile
    · exact h1.tagApdu

theorem updateBinary {s : Chip} {off : Nat} {data : List Byte} (h : s.Steady τ P) : (s.updateBinary off data).Steady τ P := by
  unfold Chip.updateBinary
  exact h.onApdu fun _ h1 => by
    split
    · exact h1.noFile
    · exact .ite h1.tagApdu (Steady.tagApdu (.ite h1.wrBs.nfcEntryNow h1.wrBs))

theorem mboxCount {s : Chip} (h : s.Steady τ P) : s.mboxCount.Steady τ P := h.setFld

theorem setMbox {s : Chip} {m : Option MboxWrite} (h : s.Steady τ P) : (s.setMbox m).Steady τ P := h.setNfc.setBit

theorem nfcSafe {s : Chip} (h : s.Steady τ P) : s.nfcSafe.Steady τ P := .ite h.setTag.blockStopped h

theorem tagField {s : Chip} (h : s.Steady τ P) : s.tagField.Steady τ P := h.draw.setNfc

theorem detectField {s : Chip} (h : s.Steady τ P) : s.detectField.Steady τ P :=
  .ite h (.ite h.setBit.setLatch.occ.wakeEvent.tagField h.setBit.setLatch.occ.dropClaim.setNfc.nfcSafe)

theorem harvestBoot {s : Chip} (h : s.Steady τ P) : s.harvestBoot.Steady τ P := h.powerOn.detectField

theorem mboxEnd {s : Chip} {sw : Nat} (h : s.Steady τ P) : (s.mboxEnd sw).Steady τ P :=
  .ite h.setMbox.tagApdu.nfcSafe.harvestBoot h.setMbox.tagApdu.nfcSafe

theorem mboxStep {s : Chip} {m : MboxWrite} (h : s.Steady τ P) : (s.mboxStep m).Steady τ P := by
  unfold Chip.mboxStep
  dsimp only
  split
  · exact Steady.mboxEnd (.ite h h.setFld.occ.nfcEntry)
  · split
    · exact h.setFld.mboxEnd
    · exact .ite h.setFld.setMbox.setFlc.flcGranted h.setFld.setMbox.flcRequest

theorem mboxFlash {s : Chip} {code : Nat} (h : s.Steady τ P) : (s.mboxFlash code).Steady τ P := by
  unfold Chip.mboxFlash
  split
  · exact h
  · exact .ite h.mboxStep h.mboxEnd

theorem mailboxWrite {s : Chip} {seq : Nat} {data : List Byte} {levels : List Nat} (h : s.Steady τ P) :
    (s.mailboxWrite seq data levels).Steady τ P :=
  h.onApdu fun s h0 => by
    refine .ite h0.setFld.tagApdu (.ite h0.setFld.tagApdu (.ite h0.setFld.tagApdu
      (.ite (Steady.tagApdu (.ite h0.setFld h0.setFld.setFld.occ)) ?_)))
    split
    · exact h0.setFld.tagApdu
    · split
      next heq => exact (Steady.snd_of_eq heq (.ite_snd h0.setFld h0.setFld.stamp)).mboxStep

theorem vaonUp {s : Chip} (h : s.Steady τ P) : s.vaonUp.Steady τ P := .ite h (.ite h.setNfc h.harvestBoot)

theorem fieldCollapse {s : Chip} {verified : Bool} (h : s.Steady τ P) : (s.fieldCollapse verified).Steady τ P := by
  unfold Chip.fieldCollapse
  split
  · exact h
  · split
    · exact h.setNfc
    · refine Steady.setNfc ?_
      refine Steady.setFlc ?_
      split
      · exact .ite h.flashPut h
      · exact h

theorem fieldDetect {s : Chip} {vaon : Bool} {vnfc : Nat} (h : s.Steady τ P) : (s.fieldDetect vaon vnfc).Steady τ P :=
  .ite (Steady.tagField (Steady.setLatch (Steady.setFld (Steady.setNfc (.ite h h.powerOn)))))
      (Steady.detectField (Steady.setFld (Steady.setNfc (.ite h.leaveShip h))))

theorem fieldLost {s : Chip} (h : s.Steady τ P) : s.fieldLost.Steady τ P := .ite h.fieldCollapse h.setNfc.setFld.detectField

theorem rdState {s : Chip} {v : Nat} (h : s.Steady τ P) : (s.rdState v).Steady τ P := h.setFld

theorem rdOff {s : Chip} (h : s.Steady τ P) : s.rdOff.Steady τ P := h.setRd.rdState.setBit.release.detectField.nfcSafe

theorem frameStamp {s : Chip} (h : s.Steady τ P) : s.frameStamp.2.Steady τ P := by
  unfold Chip.frameStamp
  split
  · exact h
  · exact h.stamp

theorem stampFrame {s : Chip} (h : s.Steady τ P) : s.stampFrame.Steady τ P := by
  unfold Chip.stampFrame
  dsimp only
  exact .ite h.stamp.setRd h

theorem rdPost {s : Chip} {code : Nat} (h : s.Steady τ P) : (s.rdPost code).Steady τ P :=
  .ite h.nfcReason.occ.frameStamp.nfcEntry h.nfcReason.occ

theorem roundEnd {s : Chip} {code : Nat} {card : Bool} (h : s.Steady τ P) : (s.roundEnd code card).Steady τ P := by
  unfold Chip.roundEnd
  exact Steady.share (by split; exact .ite h.setFld.setFld.count h; exact h) fun h1 => .ite h1.rdPost.rdOff
      (.ite h1.rdPost.setRd.rdState h1.rdPost.setRd.rdState)

theorem rdSend {s : Chip} {ph : RdPhase} {f : List Byte} {k : Nat} (h : s.Steady τ P) : (s.rdSend ph f k).Steady τ P := h.setRd

theorem rdFirst {s : Chip} {ph : RdPhase} {f : List Byte} (h : s.Steady τ P) : (s.rdFirst ph f).Steady τ P := h.setRd.rdSend

theorem rdAnti {s : Chip} (h : s.Steady τ P) : s.rdAnti.Steady τ P := h.rdFirst

theorem rdSelect {s : Chip} (h : s.Steady τ P) : s.rdSelect.Steady τ P := h.rdFirst

theorem rdLevel {s : Chip} {cl : Nat} {uid : List Byte} (h : s.Steady τ P) : (s.rdLevel cl uid).Steady τ P := h.setRd.rdAnti

theorem pollClaim {s : Chip} {auto : Option (Nat × Nat)} (h : s.Steady τ P) : (s.pollClaim auto).Steady τ P :=
  h.setRd.nfcReason.claim

theorem pollStart {s : Chip} {auto : Option (Nat × Nat)} (h : s.Steady τ P) : (s.pollStart auto).Steady τ P := by
  unfold Chip.pollStart
  split
  · exact h.nfcReason
  · split
    · exact h.pollClaim
    · exact h.dropClaim.pollClaim
    · exact .ite h.nfcReason h.setNfc.nfcReason
    · exact h.nfcReason

theorem readerAnswerClaim {s : Chip} {a : Answer} (h : s.Steady τ P) : (s.readerAnswerClaim a).Steady τ P := by
  unfold Chip.readerAnswerClaim
  split
  · exact .ite h.nfcReason.occ.rdOff h.setRd.setBit.rdState
  · exact h.nfcReason.occ.setRd
  · exact .ite h.setRd.release h.setRd.rdState.startHf
  · exact h.setRd
  · exact h
  · exact h
  · exact h
  · exact h
  · exact h.dropClaim.occ.rdOff
  · exact h.dropClaim.rdPost.rdOff
  · exact h.dropClaim.rdPost.rdOff
  · exact h

theorem roundStart {s : Chip} (h : s.Steady τ P) : s.roundStart.Steady τ P := .ite h h.rdState.rdFirst

theorem queueUid {s : Chip} {ats : List Byte} (h : s.Steady τ P) : (s.queueUid ats).Steady τ P := h.nfcEntry.setRd

theorem cardFound {s : Chip} (h : s.Steady τ P) : s.cardFound.Steady τ P := by
  unfold Chip.cardFound
  dsimp only
  exact Steady.share h.stamp.setRd fun h2 => .ite (.ite h2.rdFirst h2.queueUid.roundEnd)
      (.ite h2.queueUid.setRd.roundEnd h2.queueUid.setRd.rdLevel)

theorem xchgEnd {s : Chip} {code : Nat} (h : s.Steady τ P) : (s.xchgEnd code).Steady τ P := h.rdPost.setRd.rdState

theorem xchgRetry {s : Chip} {code : Nat} (h : s.Steady τ P) : (s.xchgRetry code).Steady τ P := .ite h.xchgEnd h.setRd.rdSend

theorem xchgSend {s : Chip} (h : s.Steady τ P) : s.xchgSend.Steady τ P := h.setRd.rdFirst

theorem xchgBlock {s : Chip} {b : List Byte} (h : s.Steady τ P) : (s.xchgBlock b).Steady τ P :=
  .ite h.setRd.rdSend (.ite (.ite h.setRd.rdSend (.ite h.setRd.xchgRetry h.setRd.xchgSend))
      (.ite (.ite h.setRd.xchgEnd (.ite h.setRd.rdFirst h.setRd.nfcEntryNow.xchgEnd)) h.setRd.xchgRetry))

theorem readerAnswer {s : Chip} {data : List Byte} {good : Bool} {coll : Option Nat} {bcc : Bool} (h : s.Steady τ P) :
    (s.readerAnswer data good coll bcc).Steady τ P := by
  unfold Chip.readerAnswer
  dsimp only
  split
  · exact h
  · split
    · split
      · exact .ite h.setFld.setBit.setFld.setRd.rdSelect h.setFld.setBit.setFld.setRd.rdAnti
      · exact .ite (.ite h.roundEnd h.setRd.rdSend) h.setRd.rdSelect
    · exact .ite h.setRd.rdLevel (.ite h.roundEnd h.setRd.rdSend)
    · split
      · exact .ite h.roundEnd h.setRd.rdSend
      · exact .ite h.roundEnd (.ite h.rdLevel h.setRd.cardFound)
    · exact .ite h.queueUid.roundEnd (.ite h.queueUid.roundEnd h.setRd.rdSend)
    · exact .ite h.xchgBlock h.xchgRetry
    · exact h.setRd.rdState.nfcReason
    · exact h

theorem readerTimeout {s : Chip} (h : s.Steady τ P) : s.readerTimeout.Steady τ P := by
  unfold Chip.readerTimeout
  dsimp only
  split
  · exact h
  · split
    · exact .ite h.roundEnd h.setRd.rdSend
    · exact .ite h.roundEnd h.setRd.rdSend
    · exact .ite h.roundEnd h.setRd.rdSend
    · exact .ite h.queueUid.roundEnd h.setRd.rdSend
    · exact h.xchgRetry
    · exact .ite h.setRd.rdState.nfcReason h.setRd.rdSend
    · exact h

theorem nfcXchg {s : Chip} (h : s.Steady τ P) : s.nfcXchg.Steady τ P :=
  .ite h.nfcReason (.ite h.nfcReason (.ite h.rdPost.rdOff h.setRd.nfcReason.rdState.xchgSend))

theorem nfcDesel {s : Chip} (h : s.Steady τ P) : s.nfcDesel.Steady τ P := .ite h.nfcReason h.nfcReason.rdFirst

theorem sessionEnd {s : Chip} (h : s.Steady τ P) : s.sessionEnd.Steady τ P := Steady.rdOff (.ite h.rdPost h.occ)

theorem nfcFieldOff {s : Chip} (h : s.Steady τ P) : s.nfcFieldOff.Steady τ P := by
  unfold Chip.nfcFieldOff
  split
  · exact h.nfcReason
  · exact h.nfcReason
  · exact h.nfcReason
  · exact .ite h.nfcReason.sessionEnd h.nfcReason.setRd

theorem nfcTick {s : Chip} (h : s.Steady τ P) : s.nfcTick.Steady τ P := Steady.nfcSafe (Steady.tagNext (.ite h.sessionEnd h))

theorem pingHfOff {s : Chip} (h : s.Steady τ P) : s.pingHfOff.Steady τ P := .ite h.stopHf h

theorem readerGrantEnd {s : Chip} (h : s.Steady τ P) : s.readerGrantEnd.Steady τ P := by
  unfold Chip.readerGrantEnd
  split
  · exact h.endGrant
  · exact .ite h.endGrant.setRd.pingHfOff.detectField.nfcSafe h.endGrant.pingHfOff
  · exact h.sessionEnd

theorem pingDue {s : Chip} (h : s.Steady τ P) : s.pingDue.Steady τ P := .ite h.setNfc.setRd.claim h.setNfc

theorem pollAfter {s : Chip} (h : s.Steady τ P) : s.pollAfter.Steady τ P := .ite h.setNfc.pollStart h

theorem pingResult {s : Chip} {amp phase : Nat} (h : s.Steady τ P) : (s.pingResult amp phase).Steady τ P :=
  .ite h (Steady.share h.setRd.rdState.release.pingHfOff.setFld.setFld.setBit.detectField fun h2 => .ite
      (.ite h2.setNfc.pollAfter h2.setNfc.setFld.setFld.setBit.pollAfter)
          (.ite (.ite h2.setBit.count.occ.wakeEvent.setNfc.pollStart h2.setBit.count.occ.wakeEvent.pollAfter)
              h2.setFld.setFld.pollAfter))

theorem nfcEnable {s : Chip} (h : s.Steady τ P) : s.nfcEnable.Steady τ P :=
  .ite h.enableIf (.ite h.enableIf.setBit.mboxCount.setNfc.tagField h.enableIf.setBit.mboxCount.setNfc)

theorem nfcDisable {s : Chip} (h : s.Steady τ P) : s.nfcDisable.Steady τ P :=
  Steady.nfcTick (.ite h.setBit.upd.dropClaim.setNfc.rdOff h.setBit.upd.dropClaim.setNfc)

theorem nfcCtlWrite {s : Chip} {ag : Agent} {v : Word} (h : s.Steady τ P) : (s.nfcCtlWrite ag v).Steady τ P :=
  h.ifNfcOwner (fun _ h1 => .ite h1.nfcReason (.ite (Steady.nfcEnable (.ite h1 h1.setReg.nfcReason))
      (.ite (Steady.nfcDisable (.ite h1 h1.setReg.nfcReason)) (.ite h1 h1.setReg.nfcReason))))

theorem nfcCmdWrite {s : Chip} {ag : Agent} {v : Word} (h : s.Steady τ P) : (s.nfcCmdWrite ag v).Steady τ P :=
  h.ifNfcOwner (fun _ h1 => Steady.share (.ite (Steady.nfcXchg (.ite h1.pollStart h1)) (.ite h1.pollStart h1)) fun h3 => .ite
      (Steady.nfcFieldOff (.ite h3.nfcDesel h3)) (.ite h3.nfcDesel h3))

theorem nfcRegWrite {s : Chip} {ag : Agent} {a : Nat} {v : Word} (h : s.Steady τ P) : (s.nfcRegWrite ag a v).Steady τ P := by
  unfold Chip.nfcRegWrite
  split
  · exact h
  · exact h.ifNfcOwner (fun _ h1 => .ite h1 (.ite h1.nfcReason (.ite h1.nfcReason (.ite h1.nfcReason h1.setReg.nfcReason))))

theorem mboxErase {s : Chip} {target : Nat} (h : s.Steady τ P) : (s.mboxErase target).Steady τ P := .ite h.mboxCount h

/-! ### Time -/

theorem setTimer {s : Chip} {n : Nat} {t : TimerSt} (h : s.Steady τ P) : (s.setTimer n t).Steady τ P := h.upd

theorem setTmrValue {s : Chip} {r : Nat → Nat} {n v : Nat} (h : s.Steady τ P) : (s.setTmrValue r n v).Steady τ P :=
  .ite h.setReg.setReg h.setReg

theorem tmrAct {s : Chip} {n c code : Nat} (h : s.Steady τ P) : (s.tmrAct n c code).Steady τ P := h.upd

theorem tmrWake {s : Chip} {n : Nat} (h : s.Steady τ P) : (s.tmrWake n).Steady τ P := .ite h.wakeEvent h

theorem timerWrap {s : Chip} {n : Nat} (h : s.Steady τ P) : (s.timerWrap n).Steady τ P :=
  .ite h (Steady.share (.ite h.setTmrValue.setTimer.setBit.tmrAct.tmrAct h.setTmrValue.setTimer) fun h2 => Steady.share
      (.ite h2.setBit.tmrAct.publish h2) fun h3 => .ite (Steady.tmrWake (Steady.occ (.ite h3.setBit.tmrAct h3)))
          (.ite h3.setBit.tmrAct h3))

theorem presTick {s : Chip} {n : Nat} (h : s.Steady τ P) : (s.presTick n).2.Steady τ P := .ite_snd h h.setTimer

theorem sourceTick {s : Chip} {src : Nat} (h : s.Steady τ P) : (s.sourceTick src).2.Steady τ P :=
  Steady.foldl_snd (fun _ _ h1 => h1.presTick) h

theorem countChannel {s : Chip} {c : Nat} (h : s.Steady τ P) : (s.countChannel c).Steady τ P :=
  Steady.foldl (fun _ _ h1 => .ite h1.presTick.timerWrap h1.presTick) h

theorem tmrReason {s : Chip} {n code : Nat} (h : s.Steady τ P) : (s.tmrReason n code).Steady τ P := h.setReason

theorem tmrStart {s : Chip} {n : Nat} (h : s.Steady τ P) : (s.tmrStart n).Steady τ P :=
  .ite h.setBit.setBit.setTimer.tmrReason.setBit.setBit.setTimer.tmrReason.setTimer h.setBit.setBit.setTimer.tmrReason

theorem tmrEnable {s : Chip} {ag : Agent} {n : Nat} (h : s.Steady τ P) : (s.tmrEnable ag n).Steady τ P :=
  .ite h (.ite h.tmrReason (.ite h (.ite h.tmrReason (Steady.share (.ite h.claimNow h) fun h1 => .ite h1.dropClaim.tmrReason
      (.ite (Steady.tmrReason (.ite h1 h1.endGrant)) h1.tmrStart)))))

theorem tmrCmpWrite {s : Chip} {ag : Agent} {n c : Nat} {v : Word} (h : s.Steady τ P) : (s.tmrCmpWrite ag n c v).Steady τ P :=
  .ite h (.ite h.tmrReason (.ite h.setReg.tmrReason.setTimer (.ite h.setReg.tmrReason h.setReg.tmrReason.setTimer)))

theorem tmrCapture {s : Chip} {n : Nat} {rise : Bool} (h : s.Steady τ P) : (s.tmrCapture n rise).Steady τ P :=
  .ite h (Steady.occ (.ite (Steady.setBit (Steady.setTmrValue (.ite h.setBit h)))
      (Steady.setBit (Steady.setTmrValue (Steady.setTmrValue (.ite h.setBit h))))))

theorem captureEdge {s : Chip} {n : Nat} {rise : Bool} (h : s.Steady τ P) : (s.captureEdge n rise).Steady τ P :=
  .ite h.tmrCapture h

theorem captureTask {s : Chip} {n : Nat} (h : s.Steady τ P) : (s.captureTask n).Steady τ P := .ite h h.tmrCapture

theorem caprRead {s : Chip} {n : Nat} (h : s.Steady τ P) : (s.caprRead n).2.Steady τ P := h.setBit

theorem capfRead {s : Chip} {n : Nat} (h : s.Steady τ P) : (s.capfRead n).2.Steady τ P := h.setBit

theorem tmrOwnWrite {s : Chip} {ag : Agent} {v : Word} (h : s.Steady τ P) : (s.tmrOwnWrite ag v).Steady τ P :=
  .ite h.setReason (.ite h.setReason (.ite h.setReason (.ite h.setReason h.setReg.setReason)))

theorem tmrRegWrite {s : Chip} {ag : Agent} {n off : Nat} {v : Word} (h : s.Steady τ P) :
    (s.tmrRegWrite ag n off v).Steady τ P := by
  unfold Chip.tmrRegWrite
  split
  · exact h
  · split
    · exact h.tmrReason
    · split
      · exact .ite h.tmrReason h.setReg.tmrReason
      · exact .ite h.tmrReason h.setReg.tmrReason
      · exact h.setReg.tmrReason
      · exact h.setReg.tmrReason
      · exact h.upd.tmrReason
      · exact h

theorem updateSqw {s : Chip} (h : s.Steady τ P) : s.updateSqw.Steady τ P := h.upd

theorem rtcStep {s : Chip} (h : s.Steady τ P) : s.rtcStep.Steady τ P := .ite (.ite h.upd h.setReg.updateSqw) h.setReg.updateSqw

theorem secondBoundary {s : Chip} (h : s.Steady τ P) : s.secondBoundary.Steady τ P :=
  .ite h.setReg.setReg.upd.updateSqw.publish.setBit.setBit.occ.wakeEvent h.setReg.setReg.upd.updateSqw.publish

theorem rtcSubRead {s : Chip} {ag : Agent} (h : s.Steady τ P) : (s.rtcSubRead ag).2.Steady τ P := h.upd

theorem rtcSecRead {s : Chip} {ag : Agent} (h : s.Steady τ P) : (s.rtcSecRead ag).2.Steady τ P := by
  unfold Chip.rtcSecRead
  split
  · exact h.upd
  · exact h

theorem rtcSecWrite {s : Chip} {v : Word} (h : s.Steady τ P) : (s.rtcSecWrite v).Steady τ P := h.upd

theorem rtcSecApply {s : Chip} (h : s.Steady τ P) : s.rtcSecApply.Steady τ P := by
  unfold Chip.rtcSecApply
  dsimp only
  split
  · exact h
  · split
    · exact h.upd.setReg.setReg.updateSqw.setBit.setReason
    · exact h.upd.setReg.setReg.updateSqw.setReason

theorem rtcTrimWrite {s : Chip} {v : Word} (h : s.Steady τ P) : (s.rtcTrimWrite v).Steady τ P :=
  .ite h.setReason h.upd.setReg.setReason

theorem rtcAlarmWrite {s : Chip} {v : Word} (h : s.Steady τ P) : (s.rtcAlarmWrite v).Steady τ P :=
  .ite h.setReason h.setReg.setReason

theorem rtcCfgWrite {s : Chip} {v : Word} (h : s.Steady τ P) : (s.rtcCfgWrite v).Steady τ P :=
  .ite h.setReason h.setReg.setReason.updateSqw

theorem lfEdge {s : Chip} (h : s.Steady τ P) : s.lfEdge.2.Steady τ P :=
  Steady.sourceTick (.ite_snd h.upd (.ite_snd h.upd h.upd.rtcStep))

theorem lfDo {s : Chip} {a : LfDue} (h : s.Steady τ P) : (s.lfDo a).Steady τ P := by
  unfold Chip.lfDo
  split
  · exact h.rtcSecApply
  · exact h.secondBoundary
  · exact h.timerWrap

theorem lfxoFirstEdge {s : Chip} (h : s.Steady τ P) : s.lfxoFirstEdge.Steady τ P :=
  .ite h.upd (Steady.foldl (fun _ _ h2 => h2.lfDo) h.upd.lfEdge)

theorem setOsf {s : Chip} (h : s.Steady τ P) : s.setOsf.Steady τ P := h.setBit.occ

theorem lfxoStartTimeout {s : Chip} (h : s.Steady τ P) : s.lfxoStartTimeout.Steady τ P := .ite h h.upd.setBit.setOsf

theorem lfxoStop {s : Chip} (h : s.Steady τ P) : s.lfxoStop.Steady τ P := h.upd.setBit.setOsf

theorem lfxoRestored {s : Chip} (h : s.Steady τ P) : s.lfxoRestored.Steady τ P := h.upd.setBit

theorem wdtEnable {s : Chip} (h : s.Steady τ P) : s.wdtEnable.Steady τ P := .ite h h.upd.setBit.setBit.setReason

theorem wdtCfgWrite {s : Chip} {v : Word} (h : s.Steady τ P) : (s.wdtCfgWrite v).Steady τ P :=
  .ite h.setReason (.ite h.setReason (.ite h.setReason h.setReg.setReason))

theorem wdtKick {s : Chip} {v : Word} (h : s.Steady τ P) : (s.wdtKick v).Steady τ P :=
  .ite h (.ite h.requestReset (.ite h.requestReset h.setReason.upd))

theorem wdtWarning {s : Chip} (h : s.Steady τ P) : s.wdtWarning.Steady τ P := .ite h.setBit.occ h

theorem wdtExpiry {s : Chip} (h : s.Steady τ P) : s.wdtExpiry.Steady τ P := .ite h.requestReset h

theorem wdtDbgpause {s : Chip} {ag : Agent} {b : Bool} (h : s.Steady τ P) : (s.wdtDbgpause ag b).Steady τ P :=
  .ite h.setReason (.ite h h.setBit.setReason)

theorem applyTimers {s : Chip} {body : List Nat} (h : s.Steady τ P) : (s.applyTimers body).2.Steady τ P := by
  unfold Chip.applyTimers
  dsimp only
  split
  · split
    · exact h
    · exact Steady.share h.setReg fun h1 => .ite_snd h (.ite (Steady.wdtEnable (.ite h1.setReg h1.setReg))
            (.ite h1.setReg h1.setReg))
  · exact h

/-! ### Power -/

theorem noteDepth {s : Chip} {d : Nat} (h : s.Steady τ P) : (s.noteDepth d).Steady τ P := h.setFld

theorem noteDoze {s : Chip} (h : s.Steady τ P) : s.noteDoze.Steady τ P := .ite h.noteDepth h

theorem pmuReason {s : Chip} {code : Nat} (h : s.Steady τ P) : (s.pmuReason code).Steady τ P := h.setReason

theorem pmuReqWrite {s : Chip} {ag : Agent} {v : Word} (h : s.Steady τ P) : (s.pmuReqWrite ag v).Steady τ P :=
  .ite h.pmuReason (Steady.share (.ite_snd h (.ite_snd h (.ite_snd h h.setFld))) fun h1 => Steady.pmuReason
      (.ite_snd h1 (.ite_snd h1 h1.setFld)))

theorem pmuStatRead {s : Chip} (h : s.Steady τ P) : s.pmuStatRead.2.Steady τ P := h.setFld

theorem pmuBodWrite {s : Chip} {v : Word} (h : s.Steady τ P) : (s.pmuBodWrite v).Steady τ P :=
  Steady.share (.ite h.setReg.admission h.setReg) fun h2 => .ite h2.pmuReason
      (.ite h2.pmuReason (.ite h2.pmuReason h2.setFld.pmuReason))

theorem pmuWclsWrite {s : Chip} {v : Word} (h : s.Steady τ P) : (s.pmuWclsWrite v).Steady τ P :=
  .ite h.pmuReason (.ite h.pmuReason h.setReg.pmuReason)

theorem detectorActs {s : Chip} {a : Detector} (h : s.Steady τ P) : (s.detectorActs a).Steady τ P := by
  unfold Chip.detectorActs
  split <;> exact .ite h h.brownout

theorem vinWarning {s : Chip} (h : s.Steady τ P) : s.vinWarning.Steady τ P :=
  .ite h (.ite h.upd.setBit.occ h.upd.setBit.occ.measFallsDue)

theorem vsysWarning {s : Chip} (h : s.Steady τ P) : s.vsysWarning.Steady τ P := .ite h h.upd.setBit.occ.warnTx

theorem resetnPulse {s : Chip} {ns : Nat} (h : s.Steady τ P) : (s.resetnPulse ns).Steady τ P :=
  .ite (.ite h.leaveShip h.requestReset) (.ite h (.ite (.ite h.draw.leaveShip h.draw.requestReset) h.draw))

theorem restBegin {s : Chip} {p : PState} (h : s.Steady τ P) : (s.restBegin p).Steady τ P := h.enterPhase.draw.upd

theorem restHf {s : Chip} (h : s.Steady τ P) : s.restHf.Steady τ P := .ite h.stopPll h.stopHf

theorem restComplete {s : Chip} {p : PState} (h : s.Steady τ P) : (s.restComplete p).Steady τ P := by
  unfold Chip.restComplete
  exact Steady.share h.upd fun h1 => by
    split
    · exact h1
    · exact h1.noteDepth.restHf.losePower.setFld.upd
    · exact h1.noteDepth.stopHf.losePower.syncLevel.storeSupply.upd.setBear
    · exact h1.powerOn.upd

theorem restEntry {s : Chip} (h : s.Steady τ P) : s.restEntry.Steady τ P := by
  unfold Chip.restEntry
  split
  · exact h.restComplete
  · split
    · exact h
    · exact h.restBegin.restComplete

theorem entryAbort {s : Chip} (h : s.Steady τ P) : s.entryAbort.Steady τ P := .ite h.upd.enterPhase.setCause.occ h

theorem wakePinEdge {s : Chip} {n : Nat} {rise : Bool} (h : s.Steady τ P) : (s.wakePinEdge n rise).Steady τ P :=
  .ite h (.ite h.drivePin (Steady.wakeEvent (.ite h.drivePin.setFld.setBit h.drivePin.setFld)))

theorem linkWake {s : Chip} (h : s.Steady τ P) : s.linkWake.Steady τ P := by
  unfold Chip.linkWake
  split
  · exact h
  · exact h.upd.wakeEvent

theorem svcWakeEdge {s : Chip} (h : s.Steady τ P) : s.svcWakeEdge.Steady τ P := .ite h.upd.wakeEvent h

theorem wakeAnswer {s : Chip} {a : Answer} (h : s.Steady τ P) : (s.wakeAnswer a).Steady τ P := by
  unfold Chip.wakeAnswer
  split
  · exact h.setReg.upd
  · exact h
  · exact Steady.upd (.ite h.occ h)

theorem wakeRemeasure {s : Chip} {m : SupplyMeas} (h : s.Steady τ P) : (s.wakeRemeasure m).Steady τ P :=
  .ite h.measDone.admission.upd h

theorem takeCause {s : Chip} {frm : Nat} (h : s.Steady τ P) : (s.takeCause frm).Steady τ P :=
  Steady.setFrom (Steady.upd (Steady.foldl (fun _ _ h1 => .ite h1.setCause h1) h))

theorem ripen {s : Chip} {t : Nat} (h : s.Steady τ P) : (s.ripen t).Steady τ P := h.upd

theorem endWait {s : Chip} {c : Core} (h : s.Steady τ P) : (s.endWait c).Steady τ P := .ite h.ripen.setCore h

theorem wakeFromSleep {s : Chip} (h : s.Steady τ P) : s.wakeFromSleep.Steady τ P :=
  .ite (Steady.foldl (fun _ _ h4 => h4.endWait) h.takeCause.upd.setVcore.startHf.enterPhase.releaseHeld) h

/-! ### Sections -/

theorem eachOk_of_mem {α : Type} {s : Chip} {f : Chip → α → Nat × Chip} {l : List α} (h : s.Steady τ P)
    (hf : ∀ s, ∀ x ∈ l, s.Steady τ P → (f s x).2.Steady τ P) : (s.eachOk f l).2.Steady τ P := by
  induction l generalizing s with
  | nil => exact h
  | cons x l ih =>
    have hx := hf s x List.mem_cons_self h
    unfold Chip.eachOk
    split
    · next heq => exact ih (Steady.snd_of_eq heq hx) fun s y hy => hf s y (List.mem_cons_of_mem x hy)
    · exact hx

theorem eachOk {α : Type} {s : Chip} {f : Chip → α → Nat × Chip} {l : List α} (h : s.Steady τ P)
    (hf : ∀ s x, s.Steady τ P → (f s x).2.Steady τ P) : (s.eachOk f l).2.Steady τ P :=
  h.eachOk_of_mem fun s x _ => hf s x

theorem applyProf {b : List Nat} {s : Chip} {n : Nat} (h : s.Steady τ P) : (s.applyProf b n).2.Steady τ P :=
  .ite_snd h h.setReg.setReg

theorem applyRadio {s : Chip} {b : List Nat} (h : s.Steady τ P) : (s.applyRadio b).2.Steady τ P := by
  unfold Chip.applyRadio
  extract_lets w s1 s2 en
  have h1 : s1.Steady τ P := h.setReg.setReg.setReg.setReg.setReg.setReg
  have h2 : s2.Steady τ P := .ite h1 (Steady.foldl (fun _ _ hc => hc.setReg) (Steady.foldl (fun _ _ hc => hc.setReg) h1))
  have hen (i : Nat) (blk : Block) (f : Chip → Chip) (hf : ∀ s, s.Steady τ P → (f s).Steady τ P) (s : Chip) (hs : s.Steady τ P) :
      (en i blk f s).2.Steady τ P := .ite_snd (hf s hs) hs
  split
  · exact h
  split
  · exact h
  split
  · next heq =>
    refine (Steady.snd_of_eq heq (h2.eachOk fun _ _ hc => hc.applyProf)).eachOk_of_mem fun s f hf hs => ?_
    simp only [List.mem_cons, List.not_mem_nil, or_false] at hf
    obtain rfl | rfl | rfl := hf
    · exact hen _ _ _ (fun _ hc => hc.synEnable) s hs
    · exact hen _ _ _ (fun _ hc => hc.rfeEnable) s hs
    · exact hen _ _ _ (fun _ hc => hc.cxEnable) s hs
  · exact h2.eachOk fun _ _ hc => hc.applyProf

theorem applyIrq {s : Chip} {b : List Nat} (h : s.Steady τ P) : (s.applyIrq b).2.Steady τ P :=
  .ite_snd h (.ite_snd h (.ite_snd h (Steady.foldl (fun _ _ h2 => h2.setFld) (Steady.foldl (fun _ _ h1 => h1.setFld.retrig) h))))

theorem applyEvents {s : Chip} {b : List Nat} (h : s.Steady τ P) : (s.applyEvents b).2.Steady τ P :=
  .ite_snd h (.ite_snd h (Steady.foldl (fun _ _ h3 => h3.setReg) (Steady.foldl (fun _ _ h2 => h2.setReg) h.setFld.setFld)))

theorem applyCores {s : Chip} {b : List Nat} (h : s.Steady τ P) : (s.applyCores b).2.Steady τ P :=
  .ite_snd h (.ite_snd h (.ite_snd h (.ite_snd h (.ite_snd h h.upd))))

theorem hpSelect {s : Chip} (h : s.Steady τ P) : s.hpSelect.Steady τ P := h.setFld

theorem hpEnable {s : Chip} (h : s.Steady τ P) : s.hpEnable.Steady τ P :=
  Steady.share h.hpSelect fun h1 => .ite h1.setReason (.ite h1.setReason
      (.ite (Steady.enableBlock (.ite h1 h1.claimNow)) (Steady.setReason (Steady.release (.ite h1 h1.claimNow)))))

theorem hpStop {s : Chip} (h : s.Steady τ P) : s.hpStop.Steady τ P := h.blockStopped.release

theorem hpDisable {s : Chip} (h : s.Steady τ P) : s.hpDisable.Steady τ P := .ite h (.ite h.upd.setBit h.upd.setBit.hpStop)

theorem applySection {s : Chip} {ty : Nat} {b : List Nat} (h : s.Steady τ P) : (s.applySection ty b).2.Steady τ P := by
  unfold Chip.applySection
  split
  · exact h.applyClocks
  · exact h.applyPower
  · exact h.applyBudget
  · exact h.applyMargins
  · exact h.applyVersions
  · exact h.applyPins
  · exact h.applyQueues
  · exact h.applyTimers
  · exact h.applyEvents
  · exact h.applyIrq
  · exact h.applyKeys
  · exact h.applyRadio
  · exact h.applyCores

theorem applyDefault {s : Chip} {ty : Nat} (h : s.Steady τ P) : (s.applyDefault ty).2.Steady τ P :=
  .ite h.applySection.hpEnable h.applySection

theorem applyFound {s : Chip} {ver : Nat} {x : Section} (h : s.Steady τ P) : (s.applyFound ver x).2.Steady τ P := by
  unfold Chip.applyFound
  dsimp only
  split
  · split
    · exact h
    · split
      · split
        · exact h.applySection
        · exact h
      · exact h.applySection
  · exact .ite_snd h h

theorem applyTypes {s : Chip} {ver : Nat} {l : List Section} {a : List Nat} (h : s.Steady τ P) :
    (s.applyTypes ver l a).2.2.2.Steady τ P := by
  induction a generalizing s with
  | nil => exact h
  | cons ty rest ih =>
    unfold Chip.applyTypes
    split
    · split
      · next heq => exact ih (Steady.snd_of_eq heq h.applyFound)
      · exact h
    · split
      · next heq => exact ih (Steady.snd_of_eq heq (.ite_snd h.applyVersions h.applyDefault))
      · exact h

theorem applyDefaults {s : Chip} (h : s.Steady τ P) : s.applyDefaults.Steady τ P := Steady.foldl (fun _ _ h1 => h1.applyDefault) h

theorem ssm {s : Chip} {source reason ty offset crc : Nat} (h : s.Steady τ P) : (s.ssm source reason ty offset crc).Steady τ P :=
  h.setFld.setReason.setReg.setReg

theorem applyStream {s : Chip} (h : s.Steady τ P) : s.applyStream.Steady τ P := by
  unfold Chip.applyStream
  split
  · exact h.applyDefaults.ssm
  · exact h.applyDefaults.ssm
  · exact h.applyDefaults.ssm
  · split
    · next heq => exact (Steady.snd_snd_of_eq (congrArg Prod.snd heq) h.applyTypes).setReg.ssm
    · exact h.applyDefaults.ssm

/-! ### Boot -/

theorem bootReport {s : Chip} {path outcome : Nat} {setReset voleOk : Bool} {released setver appver : Nat} (h : s.Steady τ P) :
    (s.bootReport path outcome setReset voleOk released setver appver).Steady τ P :=
  h.wrs

theorem voleOk {s : Chip} (h : s.Steady τ P) : s.voleOk.2.Steady τ P := .ite_snd h.draw h

theorem loaderReady {s : Chip} {who : Nat} (h : s.Steady τ P) : (s.loaderReady who).Steady τ P := h.draw.wr.wr.upd

theorem recover {s : Chip} {path outcome crc : Nat} (h : s.Steady τ P) : (s.recover path outcome crc).Steady τ P :=
  .ite h.applyDefaults.ssm.enterPhase.voleOk.bootReport.upd.upd.flcRequest
      h.applyDefaults.ssm.enterPhase.voleOk.bootReport.upd.loaderReady

theorem dropStream {s : Chip} (h : s.Steady τ P) : s.dropStream.Steady τ P :=
  h.fieldStays (h.of_wf rfl (fun hp => Cells.wf_keep _ _ _ (h.regs_wf hp)) h.sram_wf h.flash_wf h.otp_wf h.mirror_wf)

theorem die {s : Chip} (h : s.Steady τ P) : s.die.Steady τ P := h.setCore.upd

theorem bootFail {s : Chip} {outcome : Nat} (h : s.Steady τ P) : (s.bootFail outcome).Steady τ P :=
  .ite h.die h.dropStream.recover

theorem nextRelease {s : Chip} (h : s.Steady τ P) : s.nextRelease.Steady τ P := by
  unfold Chip.nextRelease
  split
  · exact h.upd
  · exact h.upd.claimCont

theorem coreRelease {s : Chip} {c : Core} (h : s.Steady τ P) : (s.coreRelease c).Steady τ P :=
  .ite (Steady.nextRelease (Steady.upd (.ite h.setCore.enterPhase h.setCore))) h

theorem coreAnswer {s : Chip} {a : Answer} (h : s.Steady τ P) : (s.coreAnswer a).Steady τ P := by
  unfold Chip.coreAnswer
  dsimp only
  split
  · split
    · exact h
    · exact h.upd.nextRelease
    · exact h.upd
  · split
    · exact .ite h.setCore h
    · exact h
    · exact h.setCore

theorem settingsReset {s : Chip} {h' : List Nat} (h : s.Steady τ P) : (s.settingsReset h').Steady τ P := h.upd.flcRequest

theorem bootFinish {s : Chip} {setReset : Bool} (h : s.Steady τ P) : (s.bootFinish setReset).Steady τ P :=
  h.voleOk.bootReport.upd.nextRelease

theorem bootRun {s : Chip} {warm low : Bool} (h : s.Steady τ P) : (s.bootRun warm low).Steady τ P :=
  Steady.share h.upd fun h1 => .ite h1.recover (.ite h1.applyStream.bootFail
      (.ite h1.applyStream.upd.settingsReset h1.applyStream.upd.bootFinish))

theorem settingsEnd {s : Chip} {code : Nat} (h : s.Steady τ P) : (s.settingsEnd code).Steady τ P := by
  unfold Chip.settingsEnd
  split
  · exact .ite h.bootFail (.ite h.bootFail h.bootFinish)
  · exact h

theorem bootJournals {s : Chip} (h : s.Steady τ P) : s.bootJournals.Steady τ P := h.journalScan.upd

theorem bootSample {s : Chip} (h : s.Steady τ P) : s.bootSample.Steady τ P := by
  unfold Chip.bootSample
  split
  · exact .ite h (.ite h.bootRun h.upd)
  · exact h

theorem bootSelect {s : Chip} (h : s.Steady τ P) : s.bootSelect.Steady τ P := h.journalErase.upd.bootSample

theorem bootSupply {s : Chip} (h : s.Steady τ P) : s.bootSupply.Steady τ P := .ite h.bootSelect h.upd

theorem bootSequence {s : Chip} {m : SupplyMeas} (h : s.Steady τ P) : (s.bootSequence m).Steady τ P :=
  .ite h.bootJournals.measDone.bootSupply h

theorem bootRemeasure {s : Chip} {m : SupplyMeas} (h : s.Steady τ P) : (s.bootRemeasure m).Steady τ P :=
  .ite h.setBear.measDone.bootSupply h

theorem hibernateWake {s : Chip} (h : s.Steady τ P) : s.hibernateWake.Steady τ P :=
  .ite (Steady.share h.takeCause.syncLevel.clearAllButOwl.restoreSupply fun h2 => Steady.bootRun
      (Steady.journalErase (Steady.bootJournals (.ite h2.setBear.publish.setReg.occ h2.setBear.publish)))) h

/-! ### Loader -/

theorem setLdr {s : Chip} {l : Ldr} (h : s.Steady τ P) : (s.setLdr l).Steady τ P := h.upd

theorem ldrDone {s : Chip} {code : Nat} (h : s.Steady τ P) : (s.ldrDone code).Steady τ P := h.wr.setLdr

theorem ldrAbandon {s : Chip} {code : Nat} (h : s.Steady τ P) : (s.ldrAbandon code).Steady τ P := h.setLdr.ldrDone

theorem ldrTake {s : Chip} (h : s.Steady τ P) : s.ldrTake.Steady τ P := h.wr.setLdr

theorem ldrServe {s : Chip} {op : Nat} {f : Chip → Chip} (h : s.Steady τ P) (h' : ∀ x1, x1.Steady τ P → (f x1).Steady τ P) :
    (s.ldrServe op f).Steady τ P :=
  .ite (.ite (h' _ h.ldrTake) h.ldrTake.ldrDone) h

theorem ldrErase {s : Chip} {secs : List Nat} {job : Nat → LdrJob} (h : s.Steady τ P) : (s.ldrErase secs job).Steady τ P :=
  h.setLdr.flcRequest

theorem ldrBegin {s : Chip} (h : s.Steady τ P) : s.ldrBegin.Steady τ P :=
  .ite h.ldrDone (.ite h.ldrDone (.ite h.ldrAbandon h.setLdr.wr.ldrErase))

theorem ldrData {s : Chip} (h : s.Steady τ P) : s.ldrData.Steady τ P := by
  unfold Chip.ldrData
  split
  · exact h.ldrDone
  · exact .ite h.ldrDone (.ite h.ldrAbandon (.ite h.ldrAbandon h.setLdr.flcRequest))

theorem ldrCommit {s : Chip} (h : s.Steady τ P) : s.ldrCommit.Steady τ P := by
  unfold Chip.ldrCommit
  split
  · exact h.ldrDone
  · exact .ite h.ldrAbandon h.setLdr.flcRequest

theorem ldrStream {s : Chip} (h : s.Steady τ P) : s.ldrStream.Steady τ P :=
  .ite h.ldrDone (.ite h.ldrDone (.ite h.ldrDone h.ldrErase))

theorem ldrFlash {s : Chip} {code : Nat} (h : s.Steady τ P) : (s.ldrFlash code).Steady τ P := by
  unfold Chip.ldrFlash
  split
  · exact h
  · exact h.loaderReady
  · exact .ite h.ldrAbandon (.ite h.ldrAbandon (.ite h.ldrDone h.ldrDone))
  · exact .ite h.ldrAbandon (.ite h.ldrAbandon h.wr.ldrDone)
  · exact .ite h.ldrDone h.setLdr.ldrDone
  · exact .ite h.ldrDone (.ite h.ldrDone h.setLdr.flcRequest)
  · exact h.ldrDone

theorem volePark {s : Chip} (h : s.Steady τ P) : s.volePark.Steady τ P := h.setCore.setLdr

theorem voleRuns {s : Chip} {len : Nat} (h : s.Steady τ P) : (s.voleRuns len).Steady τ P := h.setCore.upd

theorem voleStart {s : Chip} (h : s.Steady τ P) : s.voleStart.Steady τ P :=
  .ite h (.ite h.draw.wr.volePark h.wrs.voleRuns.loaderReady)

theorem voleLeft {s : Chip} (h : s.Steady τ P) : s.voleLeft.Steady τ P := .ite h (.ite h.wdtEnable.wdtKick h.volePark)

theorem voleIdleTimeout {s : Chip} (h : s.Steady τ P) : s.voleIdleTimeout.Steady τ P := .ite h.voleLeft h

theorem voleKick {s : Chip} (h : s.Steady τ P) : s.voleKick.Steady τ P := .ite h.wdtKick h

/-! ### Io -/

theorem plainWrite {s : Chip} {a : Nat} {v : Word} (h : s.Steady τ P) : (s.plainWrite a v).Steady τ P := by
  unfold Chip.plainWrite
  split
  · exact h
  · split
    · exact h.setReason
    · exact .ite h.setReason (.ite h.setReason (Steady.setReason (.ite h.setReg h)))

theorem bitsWrite {s : Chip} {a : Nat} {v : Word} (h : s.Steady τ P) : (s.bitsWrite a v).Steady τ P := by
  unfold Chip.bitsWrite
  split
  · exact h
  · exact h.setReg

theorem writeSsm {s : Chip} {a : Nat} {v : Word} (h : s.Steady τ P) : (s.writeSsm a v).Steady τ P := .ite h.bitsWrite h

theorem writeClk {s : Chip} {ag : Agent} {a : Nat} {v : Word} (h : s.Steady τ P) : (s.writeClk ag a v).Steady τ P :=
  .ite h.clkFoxWrite h

theorem writePin {s : Chip} {ag : Agent} {a : Nat} {v : Word} (h : s.Steady τ P) : (s.writePin ag a v).Steady τ P :=
  .ite h.pinOutWrite (.ite h.pinSetWrite (.ite h.pinClrWrite (.ite h.pinTglWrite
      (.ite h.pinDirWrite (.ite h.bitsWrite (.ite h.pinMapWrite h))))))

theorem writePmu {s : Chip} {ag : Agent} {a : Nat} {v : Word} (h : s.Steady τ P) : (s.writePmu ag a v).Steady τ P :=
  .ite h.pmuReqWrite (.ite h.pmuBodWrite (.ite h.pmuWclsWrite (.ite h.bitsWrite h)))

theorem writeEgy {s : Chip} {ag : Agent} {a : Nat} {v : Word} (h : s.Steady τ P) : (s.writeEgy ag a v).Steady τ P :=
  .ite (.ite h.measCmd h) (.ite h.egyLimWrite (.ite h.egyDecl
      (.ite h.egySwclm (.ite h.setBear (.ite h.egyResp (.ite h.egyResc h))))))

theorem writeMon {s : Chip} {a : Nat} {v : Word} (h : s.Steady τ P) : (s.writeMon a v).Steady τ P :=
  .ite (.ite h.replanCmd h) (.ite h.bitsWrite h)

theorem radioCtl {s : Chip} {b : Block} {v : Word} {en : Chip → Chip} (h : s.Steady τ P)
    (h' : ∀ x1, x1.Steady τ P → (en x1).Steady τ P) :
    (s.radioCtl b v en).Steady τ P :=
  .ite (.ite h (h' _ h)) h.radioDisable

theorem writeSyn {s : Chip} {ag : Agent} {a : Nat} {v : Word} (h : s.Steady τ P) : (s.writeSyn ag a v).Steady τ P := by
  unfold Chip.writeSyn
  split
  · exact h
  split
  · exact h.ifRadioOpen fun _ h1 => .ite (h1.radioCtl fun _ h2 => h2.synEnable) h1.plainWrite
  · exact h.ifRadioOwner fun _ h1 => .ite (h1.radioCtl fun _ h2 => h2.synEnable) (.ite (.ite h1.synCal h1) h1)

theorem writeRfe {s : Chip} {ag : Agent} {a : Nat} {v : Word} (h : s.Steady τ P) : (s.writeRfe ag a v).Steady τ P :=
  .ite (h.ifRadioOwner (fun _ h1 => h1.radioCtl (fun _ h2 => h2.rfeEnable)))
      (.ite (h.ifRadioOwner (fun _ h1 => .ite h1.bgCmd h1)) (.ite (.ite h.profFWrite h.profMWrite)
          (.ite (h.ifRadioOpen (fun _ h1 => h1.plainWrite)) (.ite h (h.ifRadioOwner (fun _ h1 => h1))))))

theorem writeCx {s : Chip} {ag : Agent} {a : Nat} {v : Word} (h : s.Steady τ P) : (s.writeCx ag a v).Steady τ P := by
  unfold Chip.writeCx
  split
  · exact h.arbNxtWrite
  split
  · exact h
  split
  · exact h.ifRadioOpen fun _ h1 => .ite (h1.radioCtl fun _ h2 => h2.cxEnable) h1.plainWrite
  · exact h.ifRadioOwner fun _ h1 => .ite (h1.radioCtl fun _ h2 => h2.cxEnable) h1

theorem writeMdm {s : Chip} {ag : Agent} {a : Nat} {v : Word} (h : s.Steady τ P) : (s.writeMdm ag a v).Steady τ P :=
  .ite h.mdmSetWrite (.ite h.mdmSetWrite (.ite h.mdmSetWrite (.ite h
      (h.ifRadioOwner (fun _ h1 => .ite (h1.radioCtl (fun _ h2 => h2.mdmEnable)) (.ite h1.plainWrite h1))))))

theorem writeLnk {s : Chip} {ag : Agent} {a : Nat} {v : Word} (h : s.Steady τ P) : (s.writeLnk ag a v).Steady τ P :=
  .ite (h.ifLnkOwner (fun _ h1 => .ite h1.lnkEnable h1.lnkDisable))
      (.ite (h.ifLnkOwner (fun _ h1 => h1.tadjWrite)) (.ite h.sfWrite
          (.ite h.chWrite (.ite h.nbrWrite (.ite h.cellWrite (.ite h.startWrite h.lnkRegWrite))))))

theorem writeQue {s : Chip} {ag : Agent} {a : Nat} {v : Word} (h : s.Steady τ P) : (s.writeQue ag a v).Steady τ P := by
  unfold Chip.writeQue
  split
  · split
    · exact h.queRegWrite
    · exact h.queRegWrite
    · exact h.queCfgWrite
    · exact h.queHeadWrite
    · exact h.queTailMove
    · exact h
  · exact h

theorem writeCph {s : Chip} {ag : Agent} {rom : Bool} {a : Nat} {v : Word} (h : s.Steady τ P) :
    (s.writeCph ag rom a v).Steady τ P :=
  .ite (.ite h.cphEnable h.cphDisable) (.ite h.cphPageWrite h)

theorem writeKst {s : Chip} {ag : Agent} {a : Nat} {v : Word} (h : s.Steady τ P) : (s.writeKst ag a v).Steady τ P :=
  .ite h.kstAttrWrite h

theorem writeNfc {s : Chip} {ag : Agent} {a : Nat} {v : Word} (h : s.Steady τ P) : (s.writeNfc ag a v).Steady τ P :=
  .ite h.nfcCtlWrite (.ite h.nfcCmdWrite h.nfcRegWrite)

theorem writeTmr {s : Chip} {ag : Agent} {a : Nat} {v : Word} (h : s.Steady τ P) : (s.writeTmr ag a v).Steady τ P := by
  unfold Chip.writeTmr
  split
  · exact h.tmrOwnWrite
  · split
    · split
      · exact .ite h.tmrEnable h
      · exact h.tmrCmpWrite
      · exact h.tmrCmpWrite
      · exact h.tmrRegWrite
    · exact h

theorem writeRtc {s : Chip} {a : Nat} {v : Word} (h : s.Steady τ P) : (s.writeRtc a v).Steady τ P :=
  .ite h.bitsWrite (.ite h.rtcSecWrite (.ite h.rtcTrimWrite (.ite h.rtcAlarmWrite (.ite h.rtcCfgWrite h))))

theorem writeWdt {s : Chip} {ag : Agent} {a : Nat} {v : Word} (h : s.Steady τ P) : (s.writeWdt ag a v).Steady τ P :=
  .ite (.ite (.ite h.wdtDbgpause.wdtEnable h.wdtDbgpause) (.ite h.wdtDbgpause (.ite h.wdtEnable h)))
      (.ite h.wdtCfgWrite (.ite h.wdtKick (.ite h.bitsWrite h)))

theorem writeIcu {s : Chip} {ag : Agent} {a : Nat} {v : Word} (h : s.Steady τ P) : (s.writeIcu ag a v).Steady τ P := by
  unfold Chip.writeIcu
  split
  · exact h.icuSwset
  · split
    · split
      · exact h.icuDone
      · exact h.icuModWrite
      · exact h
    · exact .ite h.icuSrcWrite h

theorem writeEvr {s : Chip} {ag : Agent} {a : Nat} {v : Word} (h : s.Steady τ P) : (s.writeEvr ag a v).Steady τ P :=
  .ite h.evrClearWrite (.ite h.evrQcfgWrite (.ite h.evrSwpub (.ite h.evrChWrite (.ite h.evrTsubWrite h.bitsWrite))))

theorem writeFlc {s : Chip} {ag : Agent} {a : Nat} {v : Word} (h : s.Steady τ P) : (s.writeFlc ag a v).Steady τ P :=
  .ite (.ite h.sqEnable h.sqDisable) (.ite h.flcCmd (.ite h.pwd0Write
      (.ite h.pwd1Write (.ite (.ite (.ite h h.flcReason) h.setReg.flcReason) h.bitsWrite))))

theorem writeOtp {s : Chip} {a : Nat} {v : Word} (h : s.Steady τ P) : (s.writeOtp a v).Steady τ P :=
  .ite (.ite h.otpProg h) (.ite h.otpReason h.bitsWrite)

theorem writeHp {s : Chip} {a : Nat} {v : Word} (h : s.Steady τ P) : (s.writeHp a v).Steady τ P :=
  .ite (.ite (.ite h h.hpEnable) h.hpDisable) h

theorem dbellWrite {s : Chip} {ag : Agent} {v : Word} (h : s.Steady τ P) : (s.dbellWrite ag v).Steady τ P :=
  .ite (.ite h.setReg h.setReg.occ) h.setReg

theorem writeMirror {s : Chip} {ag : Agent} {a : Nat} {v : Word} (h : s.Steady τ P) : (s.writeMirror ag a v).Steady τ P :=
  .ite (.ite h.setReg h) (.ite h.dbellWrite (.ite h.icuDone (.ite h.setMirror h)))

theorem ioWrite {s : Chip} {ag : Agent} {rom : Bool} {a : Nat} {v : Word} (h : s.Steady τ P) :
    (s.ioWrite ag rom a v).Steady τ P := by
  unfold Chip.ioWrite
  split
  · exact h.writeSsm
  · exact h.writeClk
  · exact h.writePin
  · exact h.writePmu
  · exact h.writeEgy
  · exact h.writeMon
  · exact h.writeSyn
  · exact h.writeRfe
  · exact h.writeCx
  · exact h.writeMdm
  · exact h.writeLnk
  · exact h.writeQue
  · exact h.writeCph
  · exact h.writeKst
  · exact h.writeNfc
  · exact h.writeTmr
  · exact h.writeRtc
  · exact h.writeWdt
  · exact h.writeIcu
  · exact h.writeEvr
  · exact h.writeFlc
  · exact h.writeOtp
  · exact h.writeHp
  · exact h.writeMirror
  · exact h

theorem plainRead {s : Chip} {a : Nat} (h : s.Steady τ P) : (s.plainRead a).2.Steady τ P := by
  unfold Chip.plainRead
  split
  · exact h
  · exact .ite_snd h h.readClear

theorem readPin {s : Chip} {a : Nat} (h : s.Steady τ P) : (s.readPin a).2.Steady τ P :=
  .ite_snd h (.ite_snd h (.ite_snd h h.plainRead))

theorem readPmu {s : Chip} {a : Nat} (h : s.Steady τ P) : (s.readPmu a).2.Steady τ P :=
  .ite_snd h.pmuStatRead (.ite_snd h h.plainRead)

theorem readEgy {s : Chip} {ag : Agent} {a : Nat} (h : s.Steady τ P) : (s.readEgy ag a).2.Steady τ P :=
  .ite_snd h (.ite_snd h (.ite_snd h (.ite_snd h (.ite_snd h (.ite_snd h.egyResst (.ite_snd h h.plainRead))))))

theorem readLnk {s : Chip} {a : Nat} (h : s.Steady τ P) : (s.readLnk a).2.Steady τ P := by
  unfold Chip.readLnk
  split
  · exact h
  · split
    · split
      · exact h
      · exact h.asnLoRead
      · exact h.plainRead
    · exact h.plainRead

theorem readQue {s : Chip} {a : Nat} (h : s.Steady τ P) : (s.readQue a).2.Steady τ P := .ite_snd h.qstatRead h.plainRead

theorem readCph {s : Chip} {ag : Agent} {a : Nat} (h : s.Steady τ P) : (s.readCph ag a).2.Steady τ P :=
  .ite_snd (.ite_snd h.plainRead h.pageForeign) (.ite_snd h.cphStatRead h.plainRead)

theorem readStb {s : Chip} {a : Nat} (h : s.Steady τ P) : (s.readStb a).2.Steady τ P :=
  .ite_snd h (.ite_snd h (.ite_snd h h.plainRead))

theorem readTmr {s : Chip} {a : Nat} (h : s.Steady τ P) : (s.readTmr a).2.Steady τ P := by
  unfold Chip.readTmr
  split
  · split
    · exact h.caprRead
    · exact h.capfRead
    · exact h
    · exact h.plainRead
  · exact h.plainRead

theorem readRtc {s : Chip} {ag : Agent} {a : Nat} (h : s.Steady τ P) : (s.readRtc ag a).2.Steady τ P :=
  .ite_snd h.rtcSubRead (.ite_snd h.rtcSecRead h.plainRead)

theorem readIcu {s : Chip} {ag : Agent} {a : Nat} (h : s.Steady τ P) : (s.readIcu ag a).2.Steady τ P := by
  unfold Chip.readIcu
  split
  · exact h
  · split
    · split
      · exact h.icuClaimRead
      · exact h
      · exact h.plainRead
    · exact h.plainRead

theorem readEvr {s : Chip} {ag : Agent} {a : Nat} (h : s.Steady τ P) : (s.readEvr ag a).2.Steady τ P :=
  .ite_snd h (.ite_snd h h.plainRead)

theorem readFlc {s : Chip} {a : Nat} (h : s.Steady τ P) : (s.readFlc a).2.Steady τ P :=
  .ite_snd h (.ite_snd h (.ite_snd h (.ite_snd h h.plainRead)))

theorem readMirror {s : Chip} {ag : Agent} {a : Nat} (h : s.Steady τ P) : (s.readMirror ag a).2.Steady τ P :=
  .ite_snd h (.ite_snd h (.ite_snd h.icuClaimRead (.ite_snd h h.plainRead)))

theorem ioRead {s : Chip} {ag : Agent} {a : Nat} (h : s.Steady τ P) : (s.ioRead ag a).2.Steady τ P := by
  unfold Chip.ioRead
  split
  · exact .ite_snd h h.plainRead
  · exact h.readPin
  · exact h.readPmu
  · exact h.readEgy
  · exact .ite_snd h h.plainRead
  · exact h.readLnk
  · exact h.readQue
  · exact h.readCph
  · exact .ite_snd h h.plainRead
  · exact h.readStb
  · exact h.readTmr
  · exact h.readRtc
  · exact .ite_snd h (.ite_snd h h.plainRead)
  · exact h.readIcu
  · exact h.readEvr
  · exact h.readFlc
  · exact .ite_snd h h.plainRead
  · exact h.readMirror
  · exact h.plainRead

theorem flashCorrect {s : Chip} {a : Nat} (h : s.Steady τ P) : (s.flashCorrect a).Steady τ P := .ite h.count.setFld h

theorem flashDraw {s : Chip} {a : Nat} (h : s.Steady τ P) : (s.flashDraw a).Steady τ P := .ite h.draw h

theorem flashRead {s : Chip} {ag : Agent} {rom : Bool} {a : Nat} (h : s.Steady τ P) : (s.flashRead ag rom a).2.Steady τ P :=
  .ite_snd h.setReason (.ite_snd (.ite_snd h h.flcReason) (.ite_snd h.setBit
      (.ite_snd (.ite_snd h.flashDraw h.setBit.setFld.flashDraw) h.flashCorrect.flashDraw)))

theorem memRead {s : Chip} {ag : Agent} {rom : Bool} {a : Nat} (h : s.Steady τ P) : (s.memRead ag rom a).2.Steady τ P := by
  unfold Chip.memRead
  split
  · exact h
  split
  · exact .ite_snd h h
  split
  · exact h.flashRead
  split
  · exact h
  split
  · split
    next heq => exact Steady.snd_of_eq heq h.ioRead
  · exact h

theorem memWrite {s : Chip} {ag : Agent} {rom : Bool} {a : Nat} {v : Word} (h : s.Steady τ P) :
    (s.memWrite ag rom a v).Steady τ P :=
  .ite h.wr h.ioWrite

/-! ### Operands -/


theorem addCyc {s : Chip} {c : Core} {n : Nat} (h : s.Steady τ P) : (s.addCyc c n).Steady τ P := h.setCore

theorem bankTake {s : Chip} {ag : Agent} {a : Nat} (h : s.Steady τ P) : (s.bankTake ag a).2.Steady τ P := .ite_snd h h.upd

theorem portRead {s : Chip} {ag : Agent} {a : Nat} (h : s.Steady τ P) : (s.portRead ag a).2.Steady τ P := h.bankTake.memRead

theorem portWrite {s : Chip} {ag : Agent} {a : Nat} {v : Word} (h : s.Steady τ P) : (s.portWrite ag a v).Steady τ P :=
  h.bankTake.memWrite

theorem access {s : Chip} {c : Core} {a : Nat} (h : s.Steady τ P) : (s.access c a).Steady τ P := h.bankTake.addCyc

theorem drainOne {s : Chip} {c : Core} (h : s.Steady τ P) : (s.drainOne c).Steady τ P := by
  unfold Chip.drainOne
  split
  · exact h
  · exact h.setCore.bankTake.wr

theorem waitFree {s : Chip} {c : Core} (h : s.Steady τ P) : (s.waitFree c).Steady τ P := h.draw.addCyc

theorem drainAll {s : Chip} {c : Core} (h : s.Steady τ P) : (s.drainAll c).Steady τ P :=
  .ite h (Steady.waitFree (Steady.foldl (fun _ _ h1 => h1.drainOne) h))

theorem memPath {s : Chip} {c : Core} {a : Nat} {v : Word} (h : s.Steady τ P) : (s.memPath c a v).Steady τ P :=
  .ite h.access.wr (Steady.setCore (.ite h.drainOne.waitFree h))

theorem coreRead {s : Chip} {c : Core} {a : BitVec 24} (h : s.Steady τ P) : (s.coreRead c a).Steady τ P := by
  unfold Chip.coreRead
  dsimp only
  split
  · exact Acc.Steady.ok h
  · split
    · exact trivial
    · split
      · next heq => exact Acc.Steady.ok (Steady.snd_of_eq heq h.access.memRead)
      · exact Acc.Steady.trap h
      · next heq => exact Acc.Steady.trap (Steady.snd_of_eq heq h.access.memRead)

theorem coreWrite {s : Chip} {c : Core} {a : BitVec 24} {v : Word} (h : s.Steady τ P) : (s.coreWrite c a v).Steady τ P := by
  unfold Chip.coreWrite
  dsimp only
  split
  · exact Acc.Steady.trap h
  · split
    · exact Acc.Steady.ok h.memPath
    · exact Acc.Steady.ok h.access.waitFree.ioWrite

theorem stackOk {α : Type} {a sp : BitVec 24} {k : Acc α} {s : Chip} (h : k.Steady τ P) (h' : s.Steady τ P) :
    (s.stackOk a sp k).Steady τ P := by
  unfold Chip.stackOk
  split
  · exact h
  · exact Acc.Steady.trap h'

theorem push {s : Chip} {c : Core} {v : Word} (h : s.Steady τ P) : (s.push c v).Steady τ P :=
  Steady.stackOk (Acc.Steady.ok h.memPath.setCore) h

theorem stackRead {s : Chip} {c : Core} {sp : BitVec 24} (h : s.Steady τ P) : (s.stackRead c sp).Steady τ P :=
  Steady.stackOk h.coreRead h

theorem effAddr {s : Chip} {c : Core} {o : Opnd} (h : s.Steady τ P) : (s.effAddr c o).Steady τ P := by
  unfold Chip.effAddr
  split
  · exact Acc.Steady.ok h
  · exact Acc.Steady.ok h
  · exact h.coreRead.andThen (fun _ _ h1 => Acc.Steady.ok h1)
  · exact Acc.Steady.ok h

theorem postInc {s : Chip} {c : Core} {o : Opnd} (h : s.Steady τ P) : (s.postInc c o).Steady τ P :=
  .ite h (.ite h.setCore h.setCore)

theorem readM {s : Chip} {c : Core} {o : Opnd} (h : s.Steady τ P) : (s.readM c o).Steady τ P := by
  unfold Chip.readM
  split
  · exact Acc.Steady.ok h
  · split
    · exact Acc.Steady.ok h
    · exact Acc.Steady.trap h
  · exact h.effAddr.andThen (fun _ _ h1 => h1.coreRead)

theorem writeM {s : Chip} {c : Core} {o : Opnd} {v : Word} (h : s.Steady τ P) : (s.writeM c o v).Steady τ P := by
  unfold Chip.writeM
  split
  · split
    · exact Acc.Steady.ok h.setCore
    · exact Acc.Steady.trap h
  · exact h.effAddr.andThen (fun _ _ h1 => h1.coreWrite)

theorem target {s : Chip} {c : Core} {o : Opnd} (h : s.Steady τ P) : (s.target c o).Steady τ P := by
  unfold Chip.target
  split
  · exact Acc.Steady.ok h
  · exact h.effAddr

theorem lockup {s : Chip} {c : Core} {data : Bool} {addr : BitVec 24} (h : s.Steady τ P) : (s.lockup c data addr).Steady τ P :=
  h.setCore

theorem pushFrame {s : Chip} {c : Core} {st pc : Word} (h : s.Steady τ P) : (s.pushFrame c st pc).2.Steady τ P := by
  unfold Chip.pushFrame
  split
  · next heq => exact (Acc.Steady.of_trap heq h.push).lockup
  · exact h
  · next heq =>
    have h1 := Acc.Steady.of_ok heq h.push
    split
    · next heq => exact (Acc.Steady.of_trap heq h1.push).lockup
    · exact h
    · next heq => exact Acc.Steady.of_ok heq h1.push

theorem enterVector {s : Chip} {c : Core} {vec : Nat} {pc : BitVec 24} {t : Option Trap} (h : s.Steady τ P) :
    (s.enterVector c vec pc t).Steady τ P := by
  unfold Chip.enterVector
  extract_lets s1 y s2
  have h2 : s2.Steady τ P := .ite h.setCore.setCore h.setCore
  split
  · next heq => exact Steady.snd_of_eq heq h2.pushFrame
  · next heq => exact (Steady.snd_of_eq heq h2.pushFrame).setCore

theorem takeTrap {s : Chip} {c : Core} {t : Trap} (h : s.Steady τ P) : (s.takeTrap c t).Steady τ P :=
  .ite h.setCore.lockup h.enterVector

theorem interruptEntry {s : Chip} {c : Core} (h : s.Steady τ P) : (s.interruptEntry c).Steady τ P := .ite h.enterVector h

theorem fetchCorrect {s : Chip} {c : Core} (h : s.Steady τ P) : (s.fetchCorrect c).Steady τ P := .ite h.flashCorrect h

theorem fetch {s : Chip} {c : Core} (h : s.Steady τ P) : (s.fetch c).Steady τ P := h.fetchCorrect.bankTake.addCyc.setCore

theorem finish {s : Chip} {c : Core} {n : Nat} {dest : Option (BitVec 24)} (h : s.Steady τ P) : (s.finish c n dest).Steady τ P :=
  h.setCore

theorem undone {s : Chip} {c : Core} {s2 : Chip} (h : s.Steady τ P) (h' : s2.Steady τ P) : (s.undone c s2).Steady τ P :=
  h.upd.setCore

theorem instr {s : Chip} {c : Core} {ok : Bool} {base : Nat} {body : Chip → Acc Next} (h : s.Steady τ P)
    (hb : ∀ s, s.Steady τ P → (body s).Steady τ P) : (s.instr c ok base body).Steady τ P := by
  unfold Chip.instr
  split
  · exact h
  split
  · exact Steady.takeTrap (.ite h h.fetch)
  extract_lets s1
  have h1 : s1.Steady τ P := h.fetch
  split
  · exact h1.takeTrap
  split
  · next heq => exact (Acc.Steady.of_ok heq (hb _ h1)).finish
  · next heq => exact (h1.undone (Acc.Steady.of_trap heq (hb _ h1))).takeTrap
  · exact h

theorem goOn {s : Chip} (h : s.Steady τ P) : (goOn s).Steady τ P := Acc.Steady.ok h

theorem result {s : Chip} {c : Core} {r : Word × Word} (h : s.Steady τ P) : (s.result c r).Steady τ P := h.setCore

theorem alu {s : Chip} {c : Core} {o : Opnd} {modes : List Nat} {f : Word → Word → Word → Word × Word} (h : s.Steady τ P) :
    (s.alu c o modes f).Steady τ P :=
  h.instr (fun _ h1 => h1.readM.andThen (fun _ _ h2 => h2.result.postInc.goOn))

theorem unary {s : Chip} {c : Core} {o : Opnd} {base : Nat} {f : Word → Word → Word × Word} (h : s.Steady τ P) :
    (s.unary c o base f).Steady τ P :=
  h.instr (fun _ h1 => h1.result.goOn)

/-! ### Hub -/

theorem routeAnswer {s : Chip} {a : Answer} (h : s.Steady τ P) : (s.routeAnswer a).Steady τ P := by
  unfold Chip.routeAnswer
  split
  · exact h.coreAnswer
  · exact h.coreAnswer
  · exact h.coreAnswer
  · exact h.rxAnswer
  · exact h.txAnswer
  · exact h.synAnswer
  · exact h.flashAnswer
  · exact h.readerAnswerClaim
  · exact h.tagAnswer
  · exact h.cipherAnswer
  · exact h.wakeAnswer
  · exact h

theorem routeFlash {s : Chip} {e : FlSrc × Nat} (h : s.Steady τ P) : (s.routeFlash e).Steady τ P := by
  unfold Chip.routeFlash
  split
  · exact .ite h.mboxErase h
  · exact h.recordDone
  · exact h.mboxFlash
  · exact h.settingsEnd
  · exact h.ldrFlash
  · exact h
  · exact h

theorem routeEvent {s : Chip} {e : Nat × Nat} (h : s.Steady τ P) : (s.routeEvent e).Steady τ P := by
  unfold Chip.routeEvent
  dsimp only
  exact h.stamp.produce

theorem stampEvents {s : Chip} (h : s.Steady τ P) : s.stampEvents.Steady τ P := Steady.foldl (fun _ _ h1 => h1.routeEvent) h.upd

theorem handOver {s : Chip} (h : s.Steady τ P) : s.handOver.Steady τ P :=
  Steady.foldl (fun _ _ h4 => h4.routeFlash) (Steady.foldl (fun _ _ h3 => h3.countChannel)
      (Steady.foldl (fun _ _ h2 => h2.routeAnswer) h.upd))

theorem handOverAll {k : Nat} {s : Chip} (h : s.Steady τ P) : (Chip.handOverAll k s).Steady τ P := by
  induction k generalizing s with
  | zero => exact h
  | succ k ih => exact .ite h (ih h.handOver)

theorem slotwLine {s : Chip} (h : s.Steady τ P) : s.slotwLine.Steady τ P := by
  unfold Chip.slotwLine
  split
  · exact .ite h.slotwOff h
  · exact h

theorem settle {s : Chip} (h : s.Steady τ P) : s.settle.Steady τ P :=
  h.handOverAll.slotwLine.voleKick.entryAbort.noteDoze.cxGrant.keepLevels

theorem burstEnd {s : Chip} {n : Nat} (h : s.Steady τ P) : (s.burstEnd n).Steady τ P := by
  unfold Chip.burstEnd
  split
  · exact h.radioGrantEnd
  · exact h.radioGrantEnd
  · exact .ite h h.endGrant
  · exact h.readerGrantEnd
  · exact h.endGrant.cipherGrantEnd
  · exact .ite h.endGrant h

/-! ### J36Alu -/

theorem opAdd {s : Chip} {c : Core} {o : Opnd} (h : s.Steady τ P) : (s.opAdd c o).Steady τ P := h.alu

theorem opAdc {s : Chip} {c : Core} {o : Opnd} (h : s.Steady τ P) : (s.opAdc c o).Steady τ P := h.alu

theorem opSub {s : Chip} {c : Core} {o : Opnd} (h : s.Steady τ P) : (s.opSub c o).Steady τ P := h.alu

theorem opSbc {s : Chip} {c : Core} {o : Opnd} (h : s.Steady τ P) : (s.opSbc c o).Steady τ P := h.alu

theorem opCmp {s : Chip} {c : Core} {o : Opnd} (h : s.Steady τ P) : (s.opCmp c o).Steady τ P := h.alu

theorem opAnd {s : Chip} {c : Core} {o : Opnd} (h : s.Steady τ P) : (s.opAnd c o).Steady τ P := h.alu

theorem opOr {s : Chip} {c : Core} {o : Opnd} (h : s.Steady τ P) : (s.opOr c o).Steady τ P := h.alu

theorem opXor {s : Chip} {c : Core} {o : Opnd} (h : s.Steady τ P) : (s.opXor c o).Steady τ P := h.alu

theorem opNeg {s : Chip} {c : Core} {o : Opnd} (h : s.Steady τ P) : (s.opNeg c o).Steady τ P := h.unary

theorem opNot {s : Chip} {c : Core} {o : Opnd} (h : s.Steady τ P) : (s.opNot c o).Steady τ P := h.unary

theorem opShl {s : Chip} {c : Core} {o : Opnd} (h : s.Steady τ P) : (s.opShl c o).Steady τ P := h.alu

theorem opShr {s : Chip} {c : Core} {o : Opnd} (h : s.Steady τ P) : (s.opShr c o).Steady τ P := h.alu

theorem opSha {s : Chip} {c : Core} {o : Opnd} (h : s.Steady τ P) : (s.opSha c o).Steady τ P := h.alu

theorem opRol {s : Chip} {c : Core} {o : Opnd} (h : s.Steady τ P) : (s.opRol c o).Steady τ P := h.alu

theorem opRor {s : Chip} {c : Core} {o : Opnd} (h : s.Steady τ P) : (s.opRor c o).Steady τ P := h.alu

theorem opFadd {s : Chip} {c : Core} {o : Opnd} (h : s.Steady τ P) : (s.opFadd c o).Steady τ P := h.alu

theorem opFsub {s : Chip} {c : Core} {o : Opnd} (h : s.Steady τ P) : (s.opFsub c o).Steady τ P := h.alu

theorem opFneg {s : Chip} {c : Core} {o : Opnd} (h : s.Steady τ P) : (s.opFneg c o).Steady τ P := h.unary

theorem opFabs {s : Chip} {c : Core} {o : Opnd} (h : s.Steady τ P) : (s.opFabs c o).Steady τ P := h.unary

theorem opFshl {s : Chip} {c : Core} {o : Opnd} (h : s.Steady τ P) : (s.opFshl c o).Steady τ P := h.alu

theorem opFshr {s : Chip} {c : Core} {o : Opnd} (h : s.Steady τ P) : (s.opFshr c o).Steady τ P := h.alu

theorem opSatn {s : Chip} {c : Core} {o : Opnd} (h : s.Steady τ P) : (s.opSatn c o).Steady τ P := h.unary

theorem decFirst {s : Chip} {c : Core} {o : Opnd} {f : Word → Word → Word → Word × Word × Bool} (h : s.Steady τ P) :
    (s.decFirst c o f).Steady τ P :=
  h.instr (fun _ h1 => h1.readM.andThen (fun _ _ h2 => h2.setCore.postInc.goOn))

theorem decSecond {s : Chip} {c : Core} {o : Opnd} {want : Bool} (h : s.Steady τ P) : (s.decSecond c o want).Steady τ P :=
  h.instr (fun _ h1 => Steady.goOn (Steady.setCore (.ite h1.draw h1)))

theorem convert {s : Chip} {c : Core} {o : Opnd} {base : Nat} {f : Word → Bool → Option Word} (h : s.Steady τ P) :
    (s.convert c o base f).Steady τ P := by
  unfold Chip.convert
  dsimp only
  exact h.instr fun _ h1 => by
    split <;> exact h1.setCore.goOn

theorem opAddd {s : Chip} {c : Core} {o : Opnd} (h : s.Steady τ P) : (s.opAddd c o).Steady τ P := h.decFirst

theorem opSubd {s : Chip} {c : Core} {o : Opnd} (h : s.Steady τ P) : (s.opSubd c o).Steady τ P := h.decFirst

theorem opDad {s : Chip} {c : Core} {o : Opnd} (h : s.Steady τ P) : (s.opDad c o).Steady τ P := h.decSecond

theorem opDas {s : Chip} {c : Core} {o : Opnd} (h : s.Steady τ P) : (s.opDas c o).Steady τ P := h.decSecond

theorem opD2b {s : Chip} {c : Core} {o : Opnd} (h : s.Steady τ P) : (s.opD2b c o).Steady τ P := h.convert

theorem opB2d {s : Chip} {c : Core} {o : Opnd} (h : s.Steady τ P) : (s.opB2d c o).Steady τ P := h.convert

theorem opCrcs {s : Chip} {c : Core} {o : Opnd} (h : s.Steady τ P) : (s.opCrcs c o).Steady τ P := by
  unfold Chip.opCrcs
  dsimp only
  exact h.alu

theorem opPar {s : Chip} {c : Core} {o : Opnd} (h : s.Steady τ P) : (s.opPar c o).Steady τ P := h.alu

theorem opBrev {s : Chip} {c : Core} {o : Opnd} (h : s.Steady τ P) : (s.opBrev c o).Steady τ P :=
  h.instr (fun _ h1 => h1.result.goOn)

theorem multiply {s : Chip} {c : Core} {o : Opnd} {k : MulKind} (h : s.Steady τ P) : (s.multiply c o k).Steady τ P :=
  h.instr (fun _ h1 => h1.readM.andThen (fun _ _ h2 => h2.setCore.postInc.goOn))

theorem opMul {s : Chip} {c : Core} {o : Opnd} (h : s.Steady τ P) : (s.opMul c o).Steady τ P := h.multiply

theorem opMulu {s : Chip} {c : Core} {o : Opnd} (h : s.Steady τ P) : (s.opMulu c o).Steady τ P := h.multiply

theorem opMac {s : Chip} {c : Core} {o : Opnd} (h : s.Steady τ P) : (s.opMac c o).Steady τ P := h.multiply

theorem opFpr {s : Chip} {c : Core} {o : Opnd} (h : s.Steady τ P) : (s.opFpr c o).Steady τ P :=
  h.instr (fun _ h1 => h1.setCore.goOn)

theorem opMulResultWrite {s : Chip} {c : Core} (h : s.Steady τ P) : (s.opMulResultWrite c).Steady τ P := by
  unfold Chip.opMulResultWrite
  dsimp only
  split
  · exact h
  · exact h.setCore

/-! ### J36Data -/

theorem loadIndex {s : Chip} {c : Core} {o : Opnd} {toY : Bool} (h : s.Steady τ P) : (s.loadIndex c o toY).Steady τ P :=
  h.instr (fun _ h1 => h1.readM.andThen (fun _ _ h2 => h2.setCore.postInc.goOn))

theorem storeM {s : Chip} {c : Core} {o : Opnd} {v : CoreSt → Word} (h : s.Steady τ P) : (s.storeM c o v).Steady τ P :=
  h.instr (fun _ h1 => h1.writeM.andThen (fun _ _ h2 => h2.postInc.goOn))

theorem loadAddr {s : Chip} {c : Core} {o : Opnd} {toY : Bool} (h : s.Steady τ P) : (s.loadAddr c o toY).Steady τ P :=
  h.instr (fun _ h1 => h1.effAddr.andThen (fun _ _ h2 => h2.setCore.goOn))

theorem opLda {s : Chip} {c : Core} {o : Opnd} (h : s.Steady τ P) : (s.opLda c o).Steady τ P := h.alu

theorem opSta {s : Chip} {c : Core} {o : Opnd} (h : s.Steady τ P) : (s.opSta c o).Steady τ P := h.storeM

theorem opLdx {s : Chip} {c : Core} {o : Opnd} (h : s.Steady τ P) : (s.opLdx c o).Steady τ P := h.loadIndex

theorem opLdy {s : Chip} {c : Core} {o : Opnd} (h : s.Steady τ P) : (s.opLdy c o).Steady τ P := h.loadIndex

theorem opStx {s : Chip} {c : Core} {o : Opnd} (h : s.Steady τ P) : (s.opStx c o).Steady τ P := h.storeM

theorem opSty {s : Chip} {c : Core} {o : Opnd} (h : s.Steady τ P) : (s.opSty c o).Steady τ P := h.storeM

theorem opLeax {s : Chip} {c : Core} {o : Opnd} (h : s.Steady τ P) : (s.opLeax c o).Steady τ P := h.loadAddr

theorem opLeay {s : Chip} {c : Core} {o : Opnd} (h : s.Steady τ P) : (s.opLeay c o).Steady τ P := h.loadAddr

theorem opPush {s : Chip} {c : Core} {o : Opnd} (h : s.Steady τ P) : (s.opPush c o).Steady τ P :=
  h.instr (fun _ h1 => h1.readM.andThen (fun _ _ h2 => h2.push.andThen (fun _ _ h3 => h3.postInc.goOn)))

theorem opPop {s : Chip} {c : Core} {o : Opnd} (h : s.Steady τ P) : (s.opPop c o).Steady τ P :=
  h.instr (fun _ h1 => h1.stackRead.andThen (fun _ _ h2 => h2.writeM.andThen
      (fun _ _ h3 => Steady.goOn (Steady.postInc (.ite h3 h3.setCore)))))

theorem opMovr {s : Chip} {c : Core} {o : Opnd} (h : s.Steady τ P) : (s.opMovr c o).Steady τ P :=
  h.instr (fun _ h1 => h1.setCore.goOn)

/-! ### J36Flow -/

theorem branchIf {yes : Bool} {t : BitVec 24} {s : Chip} (h : s.Steady τ P) : (branchIf yes t s).Steady τ P := by
  unfold Machine.branchIf
  split
  · exact Acc.Steady.ok h
  · exact h.goOn

theorem opJcc {s : Chip} {c : Core} {cc : BitVec 4} {o : Opnd} (h : s.Steady τ P) : (s.opJcc c cc o).Steady τ P :=
  h.instr (fun _ h1 => h1.target.andThen (fun _ _ h2 => h2.branchIf))

theorem opCall {s : Chip} {c : Core} {o : Opnd} (h : s.Steady τ P) : (s.opCall c o).Steady τ P :=
  h.instr (fun _ h1 => h1.target.andThen (fun _ _ h2 => h2.push.andThen (fun _ _ h3 => Acc.Steady.ok h3)))

theorem opRet {s : Chip} {c : Core} {o : Opnd} (h : s.Steady τ P) : (s.opRet c o).Steady τ P :=
  h.instr (fun _ h1 => h1.stackRead.andThen (fun _ _ h2 => Acc.Steady.ok h2.setCore))

theorem opReti {s : Chip} {c : Core} {o : Opnd} (h : s.Steady τ P) : (s.opReti c o).Steady τ P :=
  h.instr fun _ h1 => h1.stackRead.andThen fun _ _ h2 => (Steady.stackOk h2.coreRead h2).andThen fun _ _ h3 => Acc.Steady.ok
      h3.setCore

theorem opDbx {s : Chip} {c : Core} {o : Opnd} (h : s.Steady τ P) : (s.opDbx c o).Steady τ P :=
  h.instr (fun _ h1 => h1.target.andThen (fun _ _ h2 => h2.setCore.branchIf))

theorem opDby {s : Chip} {c : Core} {o : Opnd} (h : s.Steady τ P) : (s.opDby c o).Steady τ P :=
  h.instr (fun _ h1 => h1.target.andThen (fun _ _ h2 => h2.setCore.branchIf))

theorem opTrap {s : Chip} {c : Core} {o : Opnd} (h : s.Steady τ P) : (s.opTrap c o).Steady τ P :=
  h.instr (fun _ h1 => Acc.Steady.trap h1.addCyc)

theorem opWait {s : Chip} {c : Core} {o : Opnd} (h : s.Steady τ P) : (s.opWait c o).Steady τ P :=
  h.instr (fun _ h1 => Steady.goOn (.ite h1 h1.setCore))

theorem opFence {s : Chip} {c : Core} {o : Opnd} (h : s.Steady τ P) : (s.opFence c o).Steady τ P :=
  h.instr (fun _ h1 => h1.drainAll.setCore.goOn)

theorem opFencew {s : Chip} {c : Core} {o : Opnd} (h : s.Steady τ P) : (s.opFencew c o).Steady τ P :=
  h.instr (fun _ h1 => h1.drainAll.goOn)

theorem opFenceio {s : Chip} {c : Core} {o : Opnd} (h : s.Steady τ P) : (s.opFenceio c o).Steady τ P :=
  h.instr (fun _ h1 => h1.drainAll.goOn)

theorem opXchg {s : Chip} {c : Core} {o : Opnd} (h : s.Steady τ P) : (s.opXchg c o).Steady τ P := by
  unfold Chip.opXchg
  dsimp only
  exact h.instr fun _ h1 => by
    exact h1.effAddr.andThen fun _ _ h2 => by
      split
      · exact Acc.Steady.trap h2
      · exact h2.drainAll.coreRead.andThen (fun _ _ h4 => h4.wr.setCore.postInc.goOn)

theorem opSlotw {s : Chip} {c : Core} {o : Opnd} (h : s.Steady τ P) : (s.opSlotw c o).Steady τ P := by
  unfold Chip.opSlotw
  dsimp only
  exact h.instr fun _ h1 => by
    split
    · exact h1.setCore.goOn
    · split
      · exact h1.setCore.goOn
      · split <;> exact h1.setCore.goOn

theorem opStamp {s : Chip} {c : Core} {o : Opnd} (h : s.Steady τ P) : (s.opStamp c o).Steady τ P :=
  h.instr (fun _ h1 => h1.effAddr.andThen (fun _ _ h2 => h2.coreWrite.andThen (fun _ _ h3 => h3.setCore.postInc.goOn)))

theorem opNop {s : Chip} {c : Core} {o : Opnd} (h : s.Steady τ P) : (s.opNop c o).Steady τ P := h.instr (fun _ h1 => h1.goOn)

theorem opTrapb {s : Chip} {c : Core} {a2 : Opnd} (h : s.Steady τ P) : (s.opTrapb c a2).Steady τ P :=
  h.instr (fun _ h1 => Acc.Steady.trap h1)

theorem calRoutine {s : Chip} {c : Core} {entry : Nat} {f : Chip → Nat → Nat × Chip} (h : s.Steady τ P)
    (hf : ∀ s n, s.Steady τ P → (f s n).2.Steady τ P) : (s.calRoutine c entry f).Steady τ P := by
  unfold Chip.calRoutine
  split
  · exact h
  · have h2 := hf (s.drainAll c) ((s.drainAll c).core c).x.toNat h.drainAll
    extract_lets s1 x w flags
    split
    next heq =>
    extract_lets s3
    have h3 : s3.Steady τ P := Steady.foldl (fun _ _ hc => hc.wr) (Steady.snd_of_eq heq h2).upd
    split
    · next heq => exact (Acc.Steady.of_trap heq h3.stackRead).takeTrap
    · exact h
    · next heq => exact (Acc.Steady.of_ok heq h3.stackRead).setCore

theorem opCalTosec {s : Chip} {c : Core} (h : s.Steady τ P) : (s.opCalTosec c).Steady τ P :=
  h.calRoutine (fun _ _ h1 => .ite h1.wr h1)

theorem opCalFromsec {s : Chip} {c : Core} (h : s.Steady τ P) : (s.opCalFromsec c).Steady τ P :=
  h.calRoutine (fun _ _ h1 => h1.wr.wr)

theorem opInterruptEntry {s : Chip} {c : Core} (h : s.Steady τ P) : (s.opInterruptEntry c).Steady τ P := h.interruptEntry

theorem opWaitEnd {s : Chip} {c : Core} (h : s.Steady τ P) : (s.opWaitEnd c).Steady τ P := h.endWait

/-! ### Ports -/

theorem hpReason {s : Chip} {code : Nat} (h : s.Steady τ P) : (s.hpReason code).Steady τ P := h.setReason.setReason

theorem transfer {s : Chip} {f : Chip → Chip} (h : s.Steady τ P) (h' : ∀ x1, x1.Steady τ P → (f x1).Steady τ P) :
    (s.transfer f).Steady τ P :=
  .ite (h' _ h) (Steady.wakePinEdge (.ite h.wakePinEdge h))

theorem badCmd {s : Chip} (h : s.Steady τ P) : s.badCmd.Steady τ P := h.count.upd.hpReason

theorem transfer36 {s : Chip} {f : Chip → Chip} (h : s.Steady τ P) (h' : ∀ x1, x1.Steady τ P → (f x1).Steady τ P) :
    (s.transfer36 f).Steady τ P :=
  h.transfer (fun _ h2 => .ite h2.badCmd (h' _ h2))

theorem transferV1 {s : Chip} {f : Chip → Chip} (h : s.Steady τ P) (h' : ∀ x1, x1.Steady τ P → (f x1).Steady τ P) :
    (s.transferV1 f).Steady τ P := by
  unfold Chip.transferV1
  exact h.transfer fun _ h2 => by
    split
    · exact .ite (h' _ h2.setFld) h2.upd.hpReason
    · exact h' _ h2
    · exact h2.badCmd

/-- The read is made a variable first: nothing here depends on what a register reads as. -/
theorem mirrorReads {s : Chip} {l : List Nat} (h : s.Steady τ P) : (s.mirrorReads l).2.Steady τ P := by
  obtain ⟨r, hr⟩ : ∃ r, r = Chip.ioRead := ⟨_, rfl⟩
  have hread (s : Chip) (ag : Agent) (a : Nat) (h : s.Steady τ P) : (r s ag a).2.Steady τ P := hr ▸ h.ioRead
  delta Chip.mirrorReads Chip.mirrorReads._f
  rw [← hr]
  clear hr
  induction l generalizing s with
  | nil => exact h
  | cons a l ih => exact ih (hread s .host a h)

theorem queueFetch {s : Chip} {fixed : Bool} {n addr : Nat} (h : s.Steady τ P) : (s.queueFetch fixed n addr).Steady τ P :=
  .ite h.hpReason h.upd

theorem hostData {s : Chip} {fixed : Bool} {n addr k : Nat} (h : s.Steady τ P) : (s.hostData fixed n addr k).2.Steady τ P :=
  .ite_snd h.hpReason.mirrorReads h.hpReason.queueFetch

theorem hostRead {s : Chip} {fixed : Bool} {n addr clocked : Nat} (h : s.Steady τ P) :
    (s.hostRead fixed n addr clocked).Steady τ P :=
  h.transfer36 (fun _ h1 => h1.hostData.upd)

theorem hostPut {s : Chip} {a : Nat} {v : Word} (h : s.Steady τ P) : (s.hostPut a v).Steady τ P :=
  .ite h.ioWrite (.ite h.setBit.count.hpReason h.upd)

theorem hostPuts {s : Chip} {l : List (Nat × Word)} (h : s.Steady τ P) : (s.hostPuts l).Steady τ P :=
  Steady.foldl (fun _ _ h1 => h1.hostPut) h

theorem hostWrite {s : Chip} {fixed : Bool} {n addr : Nat} {words : List Word} (h : s.Steady τ P) :
    (s.hostWrite fixed n addr words).Steady τ P :=
  h.transfer36 (fun _ h1 => Steady.share h1.upd fun h2 => .ite (.ite h2 (.ite h2.hpReason.hostPuts h2.count.hpReason))
      h2.hpReason.hostPuts)

theorem hostOffer {s : Chip} {hi' lo : Nat} (h : s.Steady τ P) : (s.hostOffer hi' lo).Steady τ P := by
  unfold Chip.hostOffer
  exact h.transfer fun _ h1 => by
    split
    · exact h1.badCmd
    · split
      · exact h1.upd.hpReason
      · split
        · exact h1.setFld.upd.hpReason
        · exact h1.hpSelect.upd.hpReason

theorem hostV1Read {s : Chip} {addr clocked : Nat} (h : s.Steady τ P) : (s.hostV1Read addr clocked).Steady τ P :=
  h.transferV1 (fun _ h1 => Steady.upd (.ite_snd h1.hpReason h1.hostData))

theorem hostV1Write {s : Chip} {addr : Nat} {words : List Word} (h : s.Steady τ P) : (s.hostV1Write addr words).Steady τ P :=
  h.transferV1 (fun _ h1 => h1.upd.hpReason.hostPuts)

theorem fetchWords {s : Chip} {i : Nat} {l : List Nat} (h : s.Steady τ P) : (s.fetchWords i l).Steady τ P := by
  induction l generalizing s i with
  | nil => exact h
  | cons a l ih =>
    unfold Chip.fetchWords
    split
    · next heq => exact ih (Steady.snd_of_eq heq h.portRead).setMirror
    · next heq => exact ih (Steady.snd_of_eq heq h.portRead).setMirror.setBit.hpReason

theorem hostFetchDone {s : Chip} (h : s.Steady τ P) : s.hostFetchDone.Steady τ P := by
  unfold Chip.hostFetchDone
  split
  · exact h
  · exact .ite h h.upd.fetchWords.setReg.setBit

theorem hostPostedWrite {s : Chip} (h : s.Steady τ P) : s.hostPostedWrite.Steady τ P := by
  unfold Chip.hostPostedWrite
  split
  · exact h
  · exact .ite h.upd.portWrite h.upd.setBit.hpReason

theorem onCores {s : Chip} {mask : Nat} {f : CoreSt → CoreSt} (h : s.Steady τ P) : (s.onCores mask f).Steady τ P :=
  Steady.foldl (fun _ _ h1 => .ite h1.setCore h1) h

theorem fetchWord {s : Chip} {c : Core} (h : s.Steady τ P) : (s.fetchWord c).2.Steady τ P := by
  unfold Chip.fetchWord
  dsimp only
  split
  · exact h
  · exact .ite_snd h (.ite_snd h (.ite h.draw h))

theorem runInstr {s : Chip} {a : Instr} (h : s.Steady τ P) : (s.runInstr a).Steady τ P := by
  unfold Chip.runInstr
  split
  · exact h.opLda
  · exact h.opSta
  · exact h.opLdx
  · exact h.opLdy
  · exact h.opStx
  · exact h.opSty
  · exact h.opLeax
  · exact h.opLeay
  · exact h.opPush
  · exact h.opPop
  · exact h.opMovr
  · exact h.opAdd
  · exact h.opAdc
  · exact h.opSub
  · exact h.opSbc
  · exact h.opCmp
  · exact h.opAnd
  · exact h.opOr
  · exact h.opXor
  · exact h.opNeg
  · exact h.opNot
  · exact h.opShl
  · exact h.opShr
  · exact h.opSha
  · exact h.opRol
  · exact h.opRor
  · exact h.opFadd
  · exact h.opFsub
  · exact h.opFneg
  · exact h.opFabs
  · exact h.opFshl
  · exact h.opFshr
  · exact h.opSatn
  · exact h.opAddd
  · exact h.opSubd
  · exact h.opDad
  · exact h.opDas
  · exact h.opD2b
  · exact h.opB2d
  · exact h.opCrcs
  · exact h.opPar
  · exact h.opBrev
  · exact h.opMul
  · exact h.opMulu
  · exact h.opMac
  · exact h.opFpr
  · exact h.opCall
  · exact h.opRet
  · exact h.opReti
  · exact h.opDbx
  · exact h.opDby
  · exact h.opTrap
  · exact h.opWait
  · exact h.opFence
  · exact h.opFencew
  · exact h.opFenceio
  · exact h.opXchg
  · exact h.opSlotw
  · exact h.opStamp
  · exact h.opNop
  · exact h.opTrapb
  · exact h.opJcc
  · exact h

theorem stepCore {s : Chip} {c : Core} (h : s.Steady τ P) : (s.stepCore c).Steady τ P := by
  unfold Chip.stepCore
  dsimp only
  split
  · exact h.takeTrap
  · split
    · exact h.fetchWord.runInstr
    · exact h.fetchWord.instr (fun _ h2 => h2.goOn)

theorem svcStepCore {s : Chip} {c : Core} (h : s.Steady τ P) : (s.svcStepCore c).Steady τ P := h.setCore.stepCore.setCore

theorem svcOk {s : Chip} {words : List Word} (h : s.Steady τ P) : (svcOk s words).chip.Steady τ P := h.setReason

theorem svcFault {s : Chip} {code : Nat} (h : s.Steady τ P) : (svcFault s code).chip.Steady τ P := h.setReason

theorem inSession {s : Chip} {f : Chip → SvcOut} (h : s.Steady τ P) (h' : ∀ x1, x1.Steady τ P → (f x1).chip.Steady τ P) :
    (inSession s f).chip.Steady τ P := by
  unfold Machine.inSession
  split
  · exact h' _ h
  · exact h.svcFault

theorem svcEnd {s : Chip} (h : s.Steady τ P) : s.svcEnd.Steady τ P := .ite h h.setBit.setFld.setBit.onCores.occ

theorem svcClose {s : Chip} (h : s.Steady τ P) : s.svcClose.Steady τ P := .ite h.svcEnd.voleLeft h

theorem svcTimeout {s : Chip} (h : s.Steady τ P) : s.svcTimeout.Steady τ P := .ite h.svcClose h

theorem svcDo {s : Chip} {late : Bool} {req : Nat} {data : List Word} {chk : Option Word} {f : Chip → SvcOut} (h : s.Steady τ P)
    (h' : ∀ x1, x1.Steady τ P → (f x1).chip.Steady τ P) :
    (s.svcDo late req data chk f).Steady τ P := by
  unfold Chip.svcDo
  dsimp only
  exact Steady.share h.upd fun h2 => by
    exact Steady.share (by split; exact h2.svcFault; (split; (split; exact h2; exact h' _ h2); exact h' _ h2)) fun h3 =>
        .ite h3.upd h3.upd

theorem svcRequest {s : Chip} {late : Bool} {req : Nat} {data : List Word} {chk : Option Word} {f : Chip → SvcOut}
    (h : s.Steady τ P) (h' : ∀ x1, x1.Steady τ P → (f x1).chip.Steady τ P) :
    (s.svcRequest late req data chk f).Steady τ P :=
  .ite h.svcWakeEdge.upd (.ite h.upd (h.svcDo h'))

theorem svcOpen {s : Chip} {hi' lo : Nat} (h : s.Steady τ P) : (s.svcOpen hi' lo).chip.Steady τ P := by
  unfold Chip.svcOpen
  split
  · exact h.svcOk.setReason
  · split
    · exact h.svcClose.svcOk.setReason
    · exact Steady.svcOk (Steady.setFld (.ite h h.setBit.occ))

theorem svcReads {s : Chip} {l : List Nat} (h : s.Steady τ P) : (s.svcReads l).2.Steady τ P := by
  induction l generalizing s with
  | nil => exact h
  | cons a l ih =>
    unfold Chip.svcReads
    split
    · next heq => exact Steady.snd_of_eq heq h.portRead
    · next heq =>
      have h1 := ih (Steady.snd_of_eq heq h.portRead)
      split
      · next heq => exact Steady.snd_of_eq heq h1
      · next heq => exact Steady.snd_of_eq heq h1

theorem svcWrites {s : Chip} {l : List (Nat × Word)} (h : s.Steady τ P) : (s.svcWrites l).2.Steady τ P := by
  induction l generalizing s with
  | nil => exact h
  | cons e l ih => exact .ite_snd (ih h.portWrite) h

theorem svcRead {s : Chip} {n addr : Nat} (h : s.Steady τ P) : (s.svcRead n addr).chip.Steady τ P :=
  h.inSession fun s h1 => by
    split
    · next heq => exact (Steady.snd_of_eq heq h1.svcReads).svcOk
    · next heq => exact (Steady.snd_of_eq heq h1.svcReads).svcFault

theorem svcWrite {s : Chip} {addr : Nat} {words : List Word} (h : s.Steady τ P) : (s.svcWrite addr words).chip.Steady τ P :=
  h.inSession fun s h1 => by
    split
    · next heq => exact (Steady.snd_of_eq heq h1.svcWrites).svcOk
    · next heq => exact (Steady.snd_of_eq heq h1.svcWrites).svcFault

theorem onHalted {s : Chip} {core : Nat} {f : Core → SvcOut} (h : s.Steady τ P) (h' : ∀ x1, (f x1).chip.Steady τ P) :
    (onHalted s core f).chip.Steady τ P := by
  unfold Machine.onHalted
  exact h.inSession fun _ h2 => by
    split
    · exact h' _
    · exact h2.svcFault

theorem svcRegrd {s : Chip} {core reg : Nat} (h : s.Steady τ P) : (s.svcRegrd core reg).chip.Steady τ P := by
  unfold Chip.svcRegrd
  exact h.onHalted fun _ => by
    split
    · exact h.svcOk
    · exact h.svcFault

theorem svcRegwr {s : Chip} {core reg : Nat} {v : Word} (h : s.Steady τ P) : (s.svcRegwr core reg v).chip.Steady τ P := by
  unfold Chip.svcRegwr
  exact h.onHalted fun _ => by
    split
    · exact h.setCore.svcOk
    · exact h.svcFault

theorem svcResetReq {s : Chip} {addr : Nat} (h : s.Steady τ P) : (s.svcResetReq addr).chip.Steady τ P := by
  unfold Chip.svcResetReq
  exact h.inSession fun _ h1 => by
    split
    · exact h1.svcEnd.requestReset
    · exact h1.svcFault

theorem svcLineReset {s : Chip} {cycles : Nat} (h : s.Steady τ P) : (s.svcLineReset cycles).Steady τ P := h.svcWakeEdge.upd

/-! ### Access -/

theorem regWrite {s : Chip} {ag : Agent} {a : Nat} {v : Word} (h : s.Steady τ P) : (s.regWrite ag a v).Steady τ P :=
  .ite h.ioWrite h

theorem regRead {s : Chip} {ag : Agent} {a : Nat} (h : s.Steady τ P) : (s.regRead ag a).Steady τ P := .ite h.ioRead.upd h

theorem ofIdx {s : Chip} {n size : Nat} {f : Chip → Chip} (h : s.Steady τ P) (h' : ∀ x1, x1.Steady τ P → (f x1).Steady τ P) :
    (s.ofIdx n size f).Steady τ P :=
  .ite (h' _ h) h

theorem regWriteN {s : Chip} {ag : Agent} {n size a : Nat} {v : Word} (h : s.Steady τ P) :
    (s.regWriteN ag n size a v).Steady τ P :=
  h.ofIdx (fun _ h1 => h1.regWrite)

theorem regReadN {s : Chip} {ag : Agent} {n size a : Nat} (h : s.Steady τ P) : (s.regReadN ag n size a).Steady τ P :=
  h.ofIdx (fun _ h1 => h1.regRead)

theorem fldWrite {s : Chip} {ag : Agent} {f : Fld} {v : Nat} (h : s.Steady τ P) : (s.fldWrite ag f v).Steady τ P := h.regWrite

theorem safePoint {s : Chip} {b : Block} (h : s.Steady τ P) : (s.safePoint b).Steady τ P := by
  unfold Chip.safePoint
  split
  · exact h
  · split
    · exact .ite h.engineStop h
    · exact h.nfcSafe
    · exact .ite h h.hpStop
    · exact h.cphSafe
    · exact h.blockStopped
    · exact .ite h.blockStopped h

theorem swClaimWrite {s : Chip} {ag : Agent} {n : Nat} {v : Word} (h : s.Steady τ P) : (s.swClaimWrite ag n v).Steady τ P :=
  .ite h.regWrite h

theorem mdmCountRead {s : Chip} {ag : Agent} {mm : Nat} (h : s.Steady τ P) : (s.mdmCountRead ag mm).Steady τ P := .ite h.regRead h

theorem foreignAccess {s : Chip} {ag : Agent} {u off : Nat} (h : s.Steady τ P) : (s.foreignAccess ag u off).Steady τ P :=
  .ite h h.regReadN

theorem flcOrder {s : Chip} {ag : Agent} {op a : Nat} (h : s.Steady τ P) : (s.flcOrder ag op a).Steady τ P := h.regWrite

theorem stampRequest {s : Chip} {item : StampItem} {ago : Int} (h : s.Steady τ P) : (s.stampRequest item ago).Steady τ P := by
  unfold Chip.stampRequest
  dsimp only
  exact h.stamp.upd

theorem reexamine {s : Chip} {n : Nat} (h : s.Steady τ P) : (s.reexamine n).Steady τ P := .ite h.admission h

theorem warningRecheck {s : Chip} (h : s.Steady τ P) : s.warningRecheck.Steady τ P := .ite h.admission h

theorem measInterval {s : Chip} (h : s.Steady τ P) : s.measInterval.Steady τ P := .ite h.setBear.measStart h.setBear

theorem measResult {s : Chip} {m : SupplyMeas} (h : s.Steady τ P) : (s.measResult m).Steady τ P :=
  .ite h (.ite h.measDone.bootSupply h.measDone)

theorem measRetry {s : Chip} (h : s.Steady τ P) : s.measRetry.Steady τ P := .ite h.setBear.measFallsDue h

theorem preemptAt {s : Chip} {n : Nat} (h : s.Steady τ P) : (s.preemptAt n).Steady τ P := .ite h.preemptStop h

theorem levelFall {s : Chip} {n : Nat} (h : s.Steady τ P) : (s.levelFall n).Steady τ P := .ite h.withdraw h

theorem coalExpiry {s : Chip} {t n : Nat} (h : s.Steady τ P) : (s.coalExpiry t n).Steady τ P := .ite h.upd h

theorem evtInEdge {s : Chip} {k : Nat} {rise : Bool} (h : s.Steady τ P) : (s.evtInEdge k rise).Steady τ P :=
  h.ofIdx (fun _ h1 => h1.inputEdge (fun _ h2 => h2.publish))

theorem taskCmd {s : Chip} {t stat : Nat} {f : Chip → Chip} (h : s.Steady τ P) (h' : ∀ x1, x1.Steady τ P → (f x1).Steady τ P) :
    (s.taskCmd t stat f).Steady τ P :=
  .ite (h' _ h) (Steady.setReason (Steady.setBit (Steady.setReason (h' _ h))))

theorem taskAction {s : Chip} {t : Nat} (h : s.Steady τ P) : (s.taskAction t).Steady τ P := by
  unfold Chip.taskAction
  split
  · exact h.occ
  · split
    · exact h.upd
    · split
      · exact h.captureTask
      · split
        · exact h.taskCmd (fun _ h1 => h1.regWrite)
        · exact h.taskCmd (fun _ h1 => h1.regWrite)
        · exact h.taskCmd (fun _ h1 => h1.regWrite)
        · exact h.taskCmd (fun _ h1 => h1.regWrite)
        · exact h.taskCmd (fun _ h1 => h1.regWrite)
        · exact h

theorem taskFire {s : Chip} {t : Nat} (h : s.Steady τ P) : (s.taskFire t).Steady τ P := by
  unfold Chip.taskFire
  split
  · exact h
  · exact Steady.taskAction (.ite h.upd.setBit.count h.upd)

theorem hostOfferCmd {s : Chip} {cmd hi' lo : Nat} (h : s.Steady τ P) : (s.hostOfferCmd cmd hi' lo).Steady τ P :=
  .ite h.hostOffer (h.transfer (fun _ h1 => h1.badCmd))

theorem svcHaltReq {s : Chip} {mask : Nat} (h : s.Steady τ P) : (s.svcHaltReq mask).chip.Steady τ P :=
  h.inSession (fun _ h1 => h1.onCores.svcOk)

theorem svcRunReq {s : Chip} {mask : Nat} (h : s.Steady τ P) : (s.svcRunReq mask).chip.Steady τ P :=
  h.inSession (fun _ h1 => h1.onCores.svcOk)

theorem svcStepReq {s : Chip} {core : Nat} (h : s.Steady τ P) : (s.svcStepReq core).chip.Steady τ P :=
  h.onHalted (fun _ => h.svcStepCore.svcOk)

theorem svcCloseReq {s : Chip} (h : s.Steady τ P) : s.svcCloseReq.chip.Steady τ P := h.inSession (fun _ h1 => h1.svcClose.svcOk)

theorem svcStatusReq {s : Chip} {op : Nat} (h : s.Steady τ P) : (s.svcStatusReq op).chip.Steady τ P := by
  unfold Chip.svcStatusReq
  exact h.inSession fun _ h1 => by
    split
    · exact h1.svcOk
    · exact h1.svcFault

/-! ### Tick -/

theorem wdtTick {s : Chip} (h : s.Steady τ P) : s.wdtTick.2.Steady τ P := .ite_snd h h.upd

theorem clockTick {s : Chip} (h : s.Steady τ P) : s.clockTick.2.Steady τ P :=
  .ite_snd (Steady.sourceTick (.ite_snd h.lfEdge h)) (.ite_snd h.lfEdge h)

theorem schedules {s : Chip} (h : s.Steady τ P) : s.schedules.Steady τ P := .ite h h.upd

theorem meshTake {s : Chip} (h : s.Steady τ P) : s.meshTake.2.Steady τ P := by
  unfold Chip.meshTake
  dsimp only
  split
  · exact h
  · split
    · exact h.setMesh
    · exact .ite_snd h.setMesh.planReceived h.setMesh
    · split
      · exact h
      · exact Steady.share h.rxAdvance fun h1 => by
          split
          · exact h1
          · split
            · exact h1.meshCount
            · exact .ite_snd h1.localReceived h1

theorem waitCycles {s : Chip} {c : Core} (h : s.Steady τ P) : (s.waitCycles c).Steady τ P := by
  unfold Chip.waitCycles
  split
  · exact h
  · split
    · exact .ite h.addCyc h
    · exact h.addCyc
    · exact h

theorem fabricRan {s : Chip} (h : s.Steady τ P) : s.fabricRan.Steady τ P := .ite h.upd h

theorem eventTick {s : Chip} (h : s.Steady τ P) : s.eventTick.Steady τ P :=
  Steady.foldl (fun _ _ h1 => h1.waitCycles) (Steady.levelsPend (Steady.foldl (fun _ _ h1 => h1.pulse) h.fabricRan.upd))

theorem restTick {s : Chip} (h : s.Steady τ P) : s.restTick.Steady τ P := by
  unfold Chip.restTick
  split
  · exact h.restBegin
  · exact h

theorem sampleNow {s : Chip} (h : s.Steady τ P) : s.sampleNow.Steady τ P := h.upd

theorem lastStamps {s : Chip} (h : s.Steady τ P) : s.lastStamps.Steady τ P :=
  h.lateReturns.stampDone.stampReturned.stampRecords.stampFrame.slotEnd.stampEvents.sampleNow

theorem cycleStart {s : Chip} (h : s.Steady τ P) : s.cycleStart.Steady τ P :=
  h.bootSample.calReclaim.eventTick.txStartPulse.cphTick.nfcTick.meshRun

end Sys2Proof.Machine.Chip.Steady
end

section
/-!
PROOFS. Every command and every period keeps the canonical form, and a period is one tick of time.
-/
namespace Sys2Proof.Machine

section

variable {τ : Nat} {P : Prop}

/-- The effect of a command on a steady chip is steady, and so is what follows of it. -/
theorem exec_steady (i : Instr) (s : State) (h : s.chip.Steady τ P) : ∃ d : Chip, d.Steady τ P ∧ exec i s = s.after d := by
  cases i with
  | blockSafePointStop => exact ⟨_, h.safePoint, rfl⟩
  | vcoreRaiseSettled => exact ⟨_, h.vcoreSettled, rfl⟩
  | pllLock => exact ⟨_, h.pllLock, rfl⟩
  | hwQueueProduce => exact ⟨_, h.ofIdx (fun _ h1 => h1.produce), rfl⟩
  | hwQueueConsume => exact ⟨_, h.ofIdx (fun _ h1 => h1.consumeN), rfl⟩
  | stampRequest => exact ⟨_, h.stampRequest, rfl⟩
  | writeBufferDrain => exact ⟨_, h.drainOne, rfl⟩
  | bootSequence => exact ⟨_, h.bootSequence, rfl⟩
  | coreRelease => exact ⟨_, h.coreRelease, rfl⟩
  | bootSupplyRemeasure => exact ⟨_, h.bootRemeasure, rfl⟩
  | vddio2Change => exact ⟨_, h.vddio2Change, rfl⟩
  | powerOnReset => exact ⟨_, h.powerOn, rfl⟩
  | brownoutReset => exact ⟨_, h.detectorActs, rfl⟩
  | vinWarning => exact ⟨_, h.vinWarning, rfl⟩
  | vsysWarning => exact ⟨_, h.vsysWarning, rfl⟩
  | resetnPulse => exact ⟨_, h.resetnPulse, rfl⟩
  | lfxoFirstEdge => exact ⟨_, h.lfxoFirstEdge, rfl⟩
  | lfxoStartTimeout => exact ⟨_, h.lfxoStartTimeout, rfl⟩
  | lfxoStop => exact ⟨_, h.lfxoStop, rfl⟩
  | lfxoRestored => exact ⟨_, h.lfxoRestored, rfl⟩
  | restEntry => exact ⟨_, h.restEntry, rfl⟩
  | wakePinEdge => exact ⟨_, h.wakePinEdge, rfl⟩
  | linkWake => exact ⟨_, h.linkWake, rfl⟩
  | svcWakeEdge => exact ⟨_, h.svcWakeEdge, rfl⟩
  | wakeFromSleep => exact ⟨_, h.wakeFromSleep, rfl⟩
  | hibernateWake => exact ⟨_, h.hibernateWake, rfl⟩
  | wakeDeferRemeasure => exact ⟨_, h.wakeRemeasure, rfl⟩
  | bearClaim => exact ⟨_, h.ofIdx (fun _ h1 => h1.claim), rfl⟩
  | earliestStartReached => exact ⟨_, h.reexamine, rfl⟩
  | claimRelease => exact ⟨_, h.release, rfl⟩
  | burstGrantEnd => exact ⟨_, h.burstEnd, rfl⟩
  | preemptedStop => exact ⟨_, h.preemptAt, rfl⟩
  | claimDeadlinePassed => exact ⟨_, h.deadlinePassed, rfl⟩
  | warningHoldRecheck => exact ⟨_, h.warningRecheck, rfl⟩
  | vsysSample => exact ⟨_, h.vsysSample, rfl⟩
  | measIntervalExpiry => exact ⟨_, h.measInterval, rfl⟩
  | measurementStart => exact ⟨_, h.measStart, rfl⟩
  | measurementDone => exact ⟨_, h.measResult, rfl⟩
  | measurementRetry => exact ⟨_, h.measRetry, rfl⟩
  | reservationExpiry => exact ⟨_, h.expireResv, rfl⟩
  | tempSample => exact ⟨_, h.tempSample, rfl⟩
  | replanDue => exact ⟨_, h.replanDue, rfl⟩
  | replanDone => exact ⟨_, h.replanDone, rfl⟩
  | ringMeasure => exact ⟨_, h.ringMeasure, rfl⟩
  | hfLfMeasure => exact ⟨_, h.hfLfMeasure, rfl⟩
  | calPendingStart => exact ⟨_, h.calPending, rfl⟩
  | calStepDone => exact ⟨_, h.calStepDone, rfl⟩
  | synLock => exact ⟨_, h.synLock, rfl⟩
  | lockFailTimeout => exact ⟨_, h.lockFail, rfl⟩
  | lockLost => exact ⟨_, h.lockLost, rfl⟩
  | bgCalDue => exact ⟨_, h.bgDue, rfl⟩
  | bgCalStepStart => exact ⟨_, h.bgStart, rfl⟩
  | bgCalStepDone => exact ⟨_, h.bgStepDone, rfl⟩
  | agcPeriodEnd => exact ⟨_, h.agcPeriodEnd, rfl⟩
  | txenRise => exact ⟨_, h.txenRise, rfl⟩
  | txRampStart => exact ⟨_, h.txRampStart, rfl⟩
  | txHoldResolve => exact ⟨_, h.txHoldResolve, rfl⟩
  | txDeadlineDrop => exact ⟨_, h.txDeadlineDrop, rfl⟩
  | cxGntFall => exact ⟨_, h.cxGntFall, rfl⟩
  | cxArbInputChange => exact ⟨_, h.cxArb, rfl⟩
  | preambleAcquired => exact ⟨_, h.preambleAcquired, rfl⟩
  | syncDecision => exact ⟨_, h.syncDecision, rfl⟩
  | headerDecision => exact ⟨_, h.headerDecision, rfl⟩
  | trackLost => exact ⟨_, h.trackLost, rfl⟩
  | frameReceived => exact ⟨_, h.frameReceived, rfl⟩
  | frameHandover => exact ⟨_, h.frameHandover, rfl⟩
  | slotBoundary => exact ⟨_, h.ofIdx (fun _ h1 => h1.slotBoundary), rfl⟩
  | cellChoice => exact ⟨_, h.ofIdx (fun _ h1 => h1.cellChoice), rfl⟩
  | cellPrepStart => exact ⟨_, h.ofIdx (fun _ h1 => h1.cellPrepStart), rfl⟩
  | rxWindowOpen => exact ⟨_, h.rxWindowOpen, rfl⟩
  | rxWindowClose => exact ⟨_, h.windowClose, rfl⟩
  | txEnd => exact ⟨_, h.txEndStep, rfl⟩
  | ackClaim => exact ⟨_, h.ackClaim, rfl⟩
  | ackTxStart => exact ⟨_, h.ackTxStart, rfl⟩
  | ackTxEnd => exact ⟨_, h.ackTxEnd, rfl⟩
  | ackWindowOpen => exact ⟨_, h.ackWindowOpen, rfl⟩
  | ackReceived => exact ⟨_, h.ackDecision, rfl⟩
  | ackWindowClose => exact ⟨_, h.windowClose, rfl⟩
  | desyncTimeout => exact ⟨_, h.desyncTimeout, rfl⟩
  | bookTxEntry => exact ⟨_, h.bookTx, rfl⟩
  | bookRxCell => exact ⟨_, h.bookRx, rfl⟩
  | cipherOpDone => exact ⟨_, h.cipherOpDone, rfl⟩
  | fieldDetect => exact ⟨_, h.fieldDetect, rfl⟩
  | fieldLost => exact ⟨_, h.fieldLost, rfl⟩
  | vaonUpDuringHarvest => exact ⟨_, h.vaonUp, rfl⟩
  | readerRoundStart => exact ⟨_, h.roundStart, rfl⟩
  | readerAnswer => exact ⟨_, h.readerAnswer, rfl⟩
  | readerFrameTimeout => exact ⟨_, h.readerTimeout, rfl⟩
  | pingDue => exact ⟨_, h.pingDue, rfl⟩
  | pingResult => exact ⟨_, h.pingResult, rfl⟩
  | timerPrescalerWrap => exact ⟨_, h.timerWrap, rfl⟩
  | timerCaptureEdge => exact ⟨_, h.ofIdx (fun _ h1 => h1.inputEdge (fun _ h2 => h2.captureEdge)), rfl⟩
  | secondBoundary => exact ⟨_, h.secondBoundary, rfl⟩
  | rtcSecWriteApply => exact ⟨_, h.rtcSecApply, rfl⟩
  | calTosec => exact ⟨_, h.opCalTosec, rfl⟩
  | calFromsec => exact ⟨_, h.opCalFromsec, rfl⟩
  | wdtWarning => exact ⟨_, h.wdtWarning, rfl⟩
  | wdtExpiry => exact ⟨_, h.wdtExpiry, rfl⟩
  | levelRequestFall => exact ⟨_, h.levelFall, rfl⟩
  | coalExpiry => exact ⟨_, h.coalExpiry, rfl⟩
  | taskFire => exact ⟨_, h.taskFire, rfl⟩
  | interruptEntry => exact ⟨_, h.opInterruptEntry, rfl⟩
  | waitEnd => exact ⟨_, h.opWaitEnd, rfl⟩
  | mulResultWrite => exact ⟨_, h.opMulResultWrite, rfl⟩
  | lda => exact ⟨_, h.opLda, rfl⟩
  | sta => exact ⟨_, h.opSta, rfl⟩
  | ldx => exact ⟨_, h.opLdx, rfl⟩
  | ldy => exact ⟨_, h.opLdy, rfl⟩
  | stx => exact ⟨_, h.opStx, rfl⟩
  | sty => exact ⟨_, h.opSty, rfl⟩
  | leax => exact ⟨_, h.opLeax, rfl⟩
  | leay => exact ⟨_, h.opLeay, rfl⟩
  | push => exact ⟨_, h.opPush, rfl⟩
  | pop => exact ⟨_, h.opPop, rfl⟩
  | movr => exact ⟨_, h.opMovr, rfl⟩
  | add => exact ⟨_, h.opAdd, rfl⟩
  | adc => exact ⟨_, h.opAdc, rfl⟩
  | sub => exact ⟨_, h.opSub, rfl⟩
  | sbc => exact ⟨_, h.opSbc, rfl⟩
  | cmp => exact ⟨_, h.opCmp, rfl⟩
  | and => exact ⟨_, h.opAnd, rfl⟩
  | or => exact ⟨_, h.opOr, rfl⟩
  | xor => exact ⟨_, h.opXor, rfl⟩
  | neg => exact ⟨_, h.opNeg, rfl⟩
  | not => exact ⟨_, h.opNot, rfl⟩
  | shl => exact ⟨_, h.opShl, rfl⟩
  | shr => exact ⟨_, h.opShr, rfl⟩
  | sha => exact ⟨_, h.opSha, rfl⟩
  | rol => exact ⟨_, h.opRol, rfl⟩
  | ror => exact ⟨_, h.opRor, rfl⟩
  | fadd => exact ⟨_, h.opFadd, rfl⟩
  | fsub => exact ⟨_, h.opFsub, rfl⟩
  | fneg => exact ⟨_, h.opFneg, rfl⟩
  | fabs => exact ⟨_, h.opFabs, rfl⟩
  | fshl => exact ⟨_, h.opFshl, rfl⟩
  | fshr => exact ⟨_, h.opFshr, rfl⟩
  | satn => exact ⟨_, h.opSatn, rfl⟩
  | addd => exact ⟨_, h.opAddd, rfl⟩
  | subd => exact ⟨_, h.opSubd, rfl⟩
  | dad => exact ⟨_, h.opDad, rfl⟩
  | das => exact ⟨_, h.opDas, rfl⟩
  | d2b => exact ⟨_, h.opD2b, rfl⟩
  | b2d => exact ⟨_, h.opB2d, rfl⟩
  | crcs => exact ⟨_, h.opCrcs, rfl⟩
  | par => exact ⟨_, h.opPar, rfl⟩
  | brev => exact ⟨_, h.opBrev, rfl⟩
  | mul => exact ⟨_, h.opMul, rfl⟩
  | mulu => exact ⟨_, h.opMulu, rfl⟩
  | mac => exact ⟨_, h.opMac, rfl⟩
  | fpr => exact ⟨_, h.opFpr, rfl⟩
  | jcc => exact ⟨_, h.opJcc, rfl⟩
  | call => exact ⟨_, h.opCall, rfl⟩
  | ret => exact ⟨_, h.opRet, rfl⟩
  | reti => exact ⟨_, h.opReti, rfl⟩
  | dbx => exact ⟨_, h.opDbx, rfl⟩
  | dby => exact ⟨_, h.opDby, rfl⟩
  | trap => exact ⟨_, h.opTrap, rfl⟩
  | wait => exact ⟨_, h.opWait, rfl⟩
  | fence => exact ⟨_, h.opFence, rfl⟩
  | fencew => exact ⟨_, h.opFencew, rfl⟩
  | fenceio => exact ⟨_, h.opFenceio, rfl⟩
  | xchg => exact ⟨_, h.opXchg, rfl⟩
  | slotw => exact ⟨_, h.opSlotw, rfl⟩
  | stamp => exact ⟨_, h.opStamp, rfl⟩
  | nop => exact ⟨_, h.opNop, rfl⟩
  | trapb => exact ⟨_, h.opTrapb, rfl⟩
  | programPulseEnd => exact ⟨_, h.programPulseEnd, rfl⟩
  | erasePulseEnd => exact ⟨_, h.erasePulseEnd, rfl⟩
  | otpPulseEnd => exact ⟨_, h.otpPulseEnd, rfl⟩
  | svcLineReset => exact ⟨_, h.svcLineReset, rfl⟩
  | svcSessionTimeout => exact ⟨_, h.svcTimeout, rfl⟩
  | voleStart => exact ⟨_, h.voleStart, rfl⟩
  | loaderBegin => exact ⟨_, h.ldrServe (fun _ h1 => h1.ldrBegin), rfl⟩
  | loaderData => exact ⟨_, h.ldrServe (fun _ h1 => h1.ldrData), rfl⟩
  | loaderCommit => exact ⟨_, h.ldrServe (fun _ h1 => h1.ldrCommit), rfl⟩
  | loaderStream => exact ⟨_, h.ldrServe (fun _ h1 => h1.ldrStream), rfl⟩
  | voleIdleTimeout => exact ⟨_, h.voleIdleTimeout, rfl⟩
  | evtInEdge => exact ⟨_, h.evtInEdge, rfl⟩
  | fieldCollapse => exact ⟨_, h.fieldCollapse, rfl⟩
  | pmuReqWrite => exact ⟨_, h.regWrite, rfl⟩
  | pmuStatRead => exact ⟨_, h.regRead, rfl⟩
  | egyMeasCmd => exact ⟨_, h.regWrite, rfl⟩
  | egyRespWrite => exact ⟨_, h.regWrite, rfl⟩
  | egyRescWrite => exact ⟨_, h.regWrite, rfl⟩
  | egyResstRead => exact ⟨_, h.regRead, rfl⟩
  | egyDeclWrite => exact ⟨_, h.regWriteN, rfl⟩
  | swClaim => exact ⟨_, h.swClaimWrite, rfl⟩
  | swClaimRelease => exact ⟨_, h.swClaimWrite, rfl⟩
  | monReplanCmd => exact ⟨_, h.regWrite, rfl⟩
  | synEnable => exact ⟨_, h.fldWrite, rfl⟩
  | rfeEnable => exact ⟨_, h.fldWrite, rfl⟩
  | cxEnable => exact ⟨_, h.fldWrite, rfl⟩
  | synCalCmd => exact ⟨_, h.regWrite, rfl⟩
  | rfeBgcalCmd => exact ⟨_, h.regWrite, rfl⟩
  | rfeProfFWrite => exact ⟨_, h.regWriteN, rfl⟩
  | rfeProfMWrite => exact ⟨_, h.regWriteN, rfl⟩
  | cxArbnxtWrite => exact ⟨_, h.regWrite, rfl⟩
  | cxCntRead => exact ⟨_, h.regRead, rfl⟩
  | mdmEnable => exact ⟨_, h.fldWrite, rfl⟩
  | mdmLsWrite => exact ⟨_, h.regWriteN, rfl⟩
  | mdmCmWrite => exact ⟨_, h.regWriteN, rfl⟩
  | mdmFkWrite => exact ⟨_, h.regWriteN, rfl⟩
  | mdmCountRead => exact ⟨_, h.mdmCountRead, rfl⟩
  | lnkEnable => exact ⟨_, h.fldWrite, rfl⟩
  | lnkDisable => exact ⟨_, h.fldWrite, rfl⟩
  | lnkSfWrite => exact ⟨_, h.regWriteN, rfl⟩
  | lnkCellWrite => exact ⟨_, h.regWriteN, rfl⟩
  | lnkChWrite => exact ⟨_, h.regWriteN, rfl⟩
  | lnkClsStartWrite => exact ⟨_, h.regWriteN, rfl⟩
  | lnkAsnloRead => exact ⟨_, h.regReadN, rfl⟩
  | lnkNbrWrite => exact ⟨_, h.regWriteN, rfl⟩
  | lnkTadjWrite => exact ⟨_, h.regWrite, rfl⟩
  | lnkCntRead => exact ⟨_, h.regRead, rfl⟩
  | beaconReceived => exact ⟨_, h.beaconReceived, rfl⟩
  | beaconCollectEnd => exact ⟨_, h.collectEnd, rfl⟩
  | joinWaitTimeout => exact ⟨_, h.joinTimeout, rfl⟩
  | joinRequestReceived => exact ⟨_, h.requestReceived, rfl⟩
  | joinRelayReceived => exact ⟨_, h.relayReceived, rfl⟩
  | joinResponseReceived => exact ⟨_, h.responseReceived, rfl⟩
  | joinDeliverReceived => exact ⟨_, h.deliverReceived, rfl⟩
  | helloReceived => exact ⟨_, h.helloReceived, rfl⟩
  | advertReceived => exact ⟨_, h.advertReceived, rfl⟩
  | advertInterval => exact ⟨_, h.advertInterval, rfl⟩
  | parentBeaconTimeout => exact ⟨_, h.dropParent, rfl⟩
  | childTimeout => exact ⟨_, h.childTimeout, rfl⟩
  | routeEntryExpiry => exact ⟨_, h.routeExpiry, rfl⟩
  | upFrameReceived => exact ⟨_, h.upReceived, rfl⟩
  | downFrameReceived => exact ⟨_, h.downReceived, rfl⟩
  | rootSendDown => exact ⟨_, h.rootSend, rfl⟩
  | floodReceived => exact ⟨_, h.floodReceived, rfl⟩
  | routeErrReceived => exact ⟨_, h.routeErrReceived, rfl⟩
  | meshNoAckReturn => exact ⟨_, h.noAckReturn, rfl⟩
  | ping => exact ⟨_, h.cmdPing, rfl⟩
  | getInfo => exact ⟨_, h.cmdGetInfo, rfl⟩
  | getPlan => exact ⟨_, h.cmdGetPlan, rfl⟩
  | keyNext => exact ⟨_, h.cmdKeyNext, rfl⟩
  | keySwitch => exact ⟨_, h.cmdKeySwitch, rfl⟩
  | keySwitchAsnReached => exact ⟨_, h.keySwitchReached, rfl⟩
  | leave => exact ⟨_, h.cmdLeave, rfl⟩
  | unknownCmd => exact ⟨_, h.cmdUnknown, rfl⟩
  | tapRecordApply => exact ⟨_, h.tapApply, rfl⟩
  | cphEnable => exact ⟨_, h.fldWrite, rfl⟩
  | cphGo => exact ⟨_, h.regWriteN, rfl⟩
  | cphAbort => exact ⟨_, h.regWriteN, rfl⟩
  | cipherPageForeign => exact ⟨_, h.foreignAccess, rfl⟩
  | cphStatRead => exact ⟨_, h.regRead, rfl⟩
  | kstAttrWrite => exact ⟨_, h.regWriteN, rfl⟩
  | tagReqa => exact ⟨_, h.tagReqa, rfl⟩
  | tagAnticollision => exact ⟨_, h.tagAnti, rfl⟩
  | tagSelect => exact ⟨_, h.tagSelect, rfl⟩
  | tagHlta => exact ⟨_, h.tagHlta, rfl⟩
  | tagRats => exact ⟨_, h.tagRats, rfl⟩
  | tagDeselect => exact ⟨_, h.tagDeselect, rfl⟩
  | tagReplyMute => exact ⟨_, h.tagMute, rfl⟩
  | tagWtxDue => exact ⟨_, h.tagWtx, rfl⟩
  | selectByName => exact ⟨_, h.selectName, rfl⟩
  | selectByFile => exact ⟨_, h.selectFile, rfl⟩
  | readBinary => exact ⟨_, h.readBinary, rfl⟩
  | updateBinary => exact ⟨_, h.updateBinary, rfl⟩
  | mailboxWrite => exact ⟨_, h.mailboxWrite, rfl⟩
  | nfcEnable => exact ⟨_, h.fldWrite, rfl⟩
  | nfcDisable => exact ⟨_, h.fldWrite, rfl⟩
  | nfcPoll => exact ⟨_, h.regWrite, rfl⟩
  | nfcXchg => exact ⟨_, h.regWrite, rfl⟩
  | nfcDesel => exact ⟨_, h.regWrite, rfl⟩
  | nfcFieldoff => exact ⟨_, h.regWrite, rfl⟩
  | nfcCntRead => exact ⟨_, h.regRead, rfl⟩
  | tmrEnable => exact ⟨_, h.ofIdx (fun _ h1 => h1.fldWrite), rfl⟩
  | tmrCmpWrite => exact ⟨_, h.ofIdx (fun _ h1 => h1.regWriteN), rfl⟩
  | tmrCaprRead => exact ⟨_, h.regReadN, rfl⟩
  | tmrCapfRead => exact ⟨_, h.regReadN, rfl⟩
  | tmrOwnWrite => exact ⟨_, h.regWrite, rfl⟩
  | rtcSubRead => exact ⟨_, h.regRead, rfl⟩
  | rtcSecRead => exact ⟨_, h.regRead, rfl⟩
  | rtcSecWrite => exact ⟨_, h.regWrite, rfl⟩
  | rtcTrimWrite => exact ⟨_, h.regWrite, rfl⟩
  | rtcAlarmWrite => exact ⟨_, h.regWrite, rfl⟩
  | rtcCfgWrite => exact ⟨_, h.regWrite, rfl⟩
  | wdtEnable => exact ⟨_, h.fldWrite, rfl⟩
  | wdtKick => exact ⟨_, h.regWrite, rfl⟩
  | wdtDbgpauseWrite => exact ⟨_, h.wdtDbgpause, rfl⟩
  | icuClaimRead => exact ⟨_, h.regReadN, rfl⟩
  | icuDoneWrite => exact ⟨_, h.regWriteN, rfl⟩
  | icuSrcWrite => exact ⟨_, h.regWriteN, rfl⟩
  | icuSwsetWrite => exact ⟨_, h.regWrite, rfl⟩
  | evrChWrite => exact ⟨_, h.regWriteN, rfl⟩
  | evrTsubWrite => exact ⟨_, h.regWriteN, rfl⟩
  | evrSwpubWrite => exact ⟨_, h.regWrite, rfl⟩
  | evrStatRead => exact ⟨_, h.regRead, rfl⟩
  | evrTstatRead => exact ⟨_, h.regReadN, rfl⟩
  | flcProgram => exact ⟨_, h.flcOrder, rfl⟩
  | flcErase => exact ⟨_, h.flcOrder, rfl⟩
  | sqopen => exact ⟨_, h.flcOrder, rfl⟩
  | sqcommit => exact ⟨_, h.flcOrder, rfl⟩
  | sqabandon => exact ⟨_, h.flcOrder, rfl⟩
  | sqlevel => exact ⟨_, h.flcOrder, rfl⟩
  | proterase => exact ⟨_, h.flcOrder, rfl⟩
  | protprog => exact ⟨_, h.flcOrder, rfl⟩
  | squirrelEnable => exact ⟨_, h.fldWrite, rfl⟩
  | flcPwd1Write => exact ⟨_, h.regWrite, rfl⟩
  | flcEccRead => exact ⟨_, h.regRead, rfl⟩
  | otpProg => exact ⟨_, h.regWrite, rfl⟩
  | hpEnable => exact ⟨_, h.fldWrite, rfl⟩
  | hostRead => exact ⟨_, h.hostRead, rfl⟩
  | hostReadf => exact ⟨_, h.hostRead, rfl⟩
  | hostWrite => exact ⟨_, h.hostWrite, rfl⟩
  | hostWritef => exact ⟨_, h.hostWrite, rfl⟩
  | hostOffer => exact ⟨_, h.hostOfferCmd, rfl⟩
  | hostV1Read => exact ⟨_, h.hostV1Read, rfl⟩
  | hostV1Write => exact ⟨_, h.hostV1Write, rfl⟩
  | hostFetchDone => exact ⟨_, h.hostFetchDone, rfl⟩
  | hostPostedWrite => exact ⟨_, h.hostPostedWrite, rfl⟩
  | hpDbellWrite => exact ⟨_, h.regWrite, rfl⟩
  | hpCntRead => exact ⟨_, h.regRead, rfl⟩
  | svcOpen => exact ⟨_, h.svcRequest (fun _ h1 => h1.svcOpen), rfl⟩
  | svcRead => exact ⟨_, h.svcRequest (fun _ h1 => h1.svcRead), rfl⟩
  | svcWrite => exact ⟨_, h.svcRequest (fun _ h1 => h1.svcWrite), rfl⟩
  | svcHalt => exact ⟨_, h.svcRequest (fun _ h1 => h1.svcHaltReq), rfl⟩
  | svcRun => exact ⟨_, h.svcRequest (fun _ h1 => h1.svcRunReq), rfl⟩
  | svcStep => exact ⟨_, h.svcRequest (fun _ h1 => h1.svcStepReq), rfl⟩
  | svcRegrd => exact ⟨_, h.svcRequest (fun _ h1 => h1.svcRegrd), rfl⟩
  | svcRegwr => exact ⟨_, h.svcRequest (fun _ h1 => h1.svcRegwr), rfl⟩
  | svcReset => exact ⟨_, h.svcRequest (fun _ h1 => h1.svcResetReq), rfl⟩
  | svcClose => exact ⟨_, h.svcRequest (fun _ h1 => h1.svcCloseReq), rfl⟩
  | svcStatus => exact ⟨_, h.svcRequest (fun _ h1 => h1.svcStatusReq), rfl⟩
  | registerWrite => exact ⟨_, h.regWrite, rfl⟩
  | blockDisable => exact ⟨_, h.fldWrite, rfl⟩
  | clkFoxWrite => exact ⟨_, h.regWrite, rfl⟩
  | ssmLockWrite => exact ⟨_, h.regWrite, rfl⟩
  | queTailWrite => exact ⟨_, h.regWriteN, rfl⟩
  | queHeadWrite => exact ⟨_, h.regWriteN, rfl⟩
  | queueOn => exact ⟨_, h.regWriteN, rfl⟩
  | queueOff => exact ⟨_, h.regWriteN, rfl⟩
  | queQstatRead => exact ⟨_, h.regReadN, rfl⟩
  | pinMapWrite => exact ⟨_, h.regWriteN, rfl⟩
  | pinOutWrite => exact ⟨_, h.regWrite, rfl⟩
  | pinOutsetWrite => exact ⟨_, h.regWrite, rfl⟩
  | pinOutclrWrite => exact ⟨_, h.regWrite, rfl⟩
  | pinOuttglWrite => exact ⟨_, h.regWrite, rfl⟩
  | pinDirWrite => exact ⟨_, h.regWrite, rfl⟩

/-- The one place where time passes. -/
theorem Chip.Steady.nextPeriod {s : Chip} {k : Nat} (h : s.Steady τ P) :
    Chip.Steady (τ + 1) P { s with now := s.now + 1, free := k } :=
  ⟨congrArg (· + 1) h.now_eq, h.canonical⟩

/-- After a period the chip is one tick on. -/
theorem Chip.Steady.tick {s : Chip} (h : s.Steady τ P) : s.tick.2.Steady (τ + 1) P := by
  unfold Chip.tick
  extract_lets p t
  have hp : p.Steady τ P := h.lastStamps
  have hs : t.Steady (τ + 1) P := hp.nextPeriod
  clear_value p t
  split
  · exact hs
  split
  next heq1 =>
  have h1 := Steady.snd_of_eq heq1 hs.clockTick
  split
  next heq2 =>
  have h2 := Steady.snd_of_eq heq2 h1.wdtTick
  split
  · exact h2
  extract_lets s3
  have h3 : s3.Steady (τ + 1) P := h2.cycleStart
  clear_value s3
  split
  next heq4 =>
  exact (Steady.snd_of_eq heq4 h3.meshTake).schedules.restTick.settle

end

theorem Chip.tick_now (s : Chip) : s.tick.2.now = s.now + 1 := (Chip.Steady.refl s).tick.now_eq

theorem Chip.tick_canonical (s : Chip) (h : s.canonical = true) : s.tick.2.canonical = true :=
  (Chip.Steady.refl s).tick.canonical h

/-- A step keeps the canonical form of the stores, whether it runs a command or lets a period pass. -/
theorem step_canonical (s t : State) (h : s.chip.canonical = true) (hs : step s = .next t) : t.chip.canonical = true := by
  obtain ⟨_ | ⟨i, rest⟩, c⟩ := s
  case nil =>
    obtain rfl : _ = t := Host.Outcome.next.inj ((step_nil c).symm.trans hs)
    exact c.tick_canonical h
  case cons =>
    obtain ⟨d, hd, hx⟩ := exec_steady i ⟨rest, c⟩ (Chip.Steady.refl c)
    obtain rfl : _ = t := Host.Outcome.next.inj (((step_cons i rest c).trans hx).symm.trans hs)
    exact hd.settle.canonical h

end Sys2Proof.Machine
end

section
/-!
PROOFS. What is stored reads back: registers, fields, words and octets of SRAM; and every step keeps the canonical form.
-/
namespace Sys2Proof.Machine

theorem octetOf_toNat (w : Word) (i : Nat) : (octetOf w i).toNat = w.toNat / 2 ^ (8 * i) % 256 := by
  simp [octetOf, Nat.shiftRight_eq_div_pow]

/-- A word with one octet replaced keeps its 36 bits. -/
theorem putOctet_toNat (w : Word) {i : Nat} (hi : i < 4) (b : Byte) :
    (putOctet w i b).toNat = w.toNat - w.toNat / 2 ^ (8 * i) % 256 * 2 ^ (8 * i) + b.toNat * 2 ^ (8 * i) := by
  have hw := w.isLt
  have hb := b.isLt
  simp only [putOctet, W, BitVec.toNat_ofNat, Nat.shiftRight_eq_div_pow, Nat.shiftLeft_eq]
  refine Nat.mod_eq_of_lt ?_
  obtain rfl | rfl | rfl | rfl : i = 0 ∨ i = 1 ∨ i = 2 ∨ i = 3 := by omega
  all_goals omega

theorem octetOf_putOctet_self (w : Word) {i : Nat} (hi : i < 4) (b : Byte) : octetOf (putOctet w i b) i = b := by
  have hw := w.isLt
  have hb := b.isLt
  apply BitVec.eq_of_toNat_eq
  rw [octetOf_toNat, putOctet_toNat w hi]
  obtain rfl | rfl | rfl | rfl : i = 0 ∨ i = 1 ∨ i = 2 ∨ i = 3 := by omega
  all_goals omega

theorem octetOf_putOctet_ne (w : Word) {i j : Nat} (hi : i < 4) (hj : j < 4) (hij : j ≠ i) (b : Byte) :
    octetOf (putOctet w i b) j = octetOf w j := by
  have hw := w.isLt
  have hb := b.isLt
  apply BitVec.eq_of_toNat_eq
  rw [octetOf_toNat, putOctet_toNat w hi, octetOf_toNat]
  obtain rfl | rfl | rfl | rfl : i = 0 ∨ i = 1 ∨ i = 2 ∨ i = 3 := by omega
  all_goals
    obtain rfl | rfl | rfl | rfl : j = 0 ∨ j = 1 ∨ j = 2 ∨ j = 3 := by omega
    all_goals omega

/-! ### Words -/

theorem Chip.rd_wr_iff (s : Chip) (a b : Nat) (v : Word) : (s.wr a v).rd b = if b = a ∧ isSram a = true then v else s.rd b := by
  by_cases ha : isSram a = true
  · simp [Chip.rd_wr, ha]
  · rw [Chip.wr_outside s a v (by simpa using ha), if_neg fun h => ha h.2]

theorem Chip.rd_wrs_outside (s : Chip) (a b : Nat) (l : List Word) (hb : b < a ∨ a + l.length ≤ b) : (s.wrs a l).rd b = s.rd b := by
  induction l generalizing s a with
  | nil => rfl
  | cons v l ih =>
    rw [List.length_cons] at hb
    exact (ih (s.wr a v) (a + 1) (by omega)).trans (s.rd_wr_ne v (by omega))

theorem Chip.rds_wrs (s : Chip) (a : Nat) (l : List Word) (hlo : 0x10000 ≤ a) (hhi : a + l.length ≤ 0x50000) :
    (s.wrs a l).rds a l.length = l := by
  induction l generalizing s a with
  | nil => rfl
  | cons v l ih =>
    rw [List.length_cons] at hhi
    have hsram : isSram a = true := by simp only [isSram, Bool.and_eq_true, decide_eq_true_eq]; omega
    have hhead : ((s.wr a v).wrs (a + 1) l).rd a = v := by
      rw [Chip.rd_wrs_outside _ _ _ _ (by omega), s.rd_wr _ _ _ hsram, if_pos rfl]
    exact List.cons_eq_cons.2 ⟨hhead, ih (s.wr a v) (a + 1) (by omega) (by omega)⟩

/-! ### Octets -/

theorem Chip.rdB_wrB (s : Chip) (a b : Nat) (v : Byte) (ha : isSram (a / 4) = true) :
    (s.wrB a v).rdB b = if b = a then v else s.rdB b := by
  unfold Chip.rdB Chip.wrB
  rw [s.rd_wr _ _ _ ha]
  by_cases hw : b / 4 = a / 4
  · rw [if_pos hw, hw]
    split
    · next h => rw [h, octetOf_putOctet_self _ (Nat.mod_lt _ (by omega))]
    · next h => rw [octetOf_putOctet_ne _ (Nat.mod_lt _ (by omega)) (Nat.mod_lt _ (by omega)) (by omega)]
  · rw [if_neg hw, if_neg fun h => hw (congrArg (· / 4) h)]

theorem isSram_octet {a : Nat} (hlo : 0x40000 ≤ a) (hhi : a < 0x140000) : isSram (a / 4) = true := by
  simp only [isSram, Bool.and_eq_true, decide_eq_true_eq]; omega

theorem Chip.rdB_wrBs_outside (s : Chip) (a b : Nat) (l : List Byte) (hlo : 0x40000 ≤ a) (hhi : a + l.length ≤ 0x140000)
    (hb : b < a ∨ a + l.length ≤ b) : (s.wrBs a l).rdB b = s.rdB b := by
  induction l generalizing s a with
  | nil => rfl
  | cons v l ih =>
    rw [List.length_cons] at hhi hb
    refine (ih (s.wrB a v) (a + 1) (by omega) (by omega) (by omega)).trans ?_
    rw [s.rdB_wrB _ _ _ (isSram_octet hlo (by omega)), if_neg (by omega)]

theorem Chip.rdBs_wrBs (s : Chip) (a : Nat) (l : List Byte) (hlo : 0x40000 ≤ a) (hhi : a + l.length ≤ 0x140000) :
    (s.wrBs a l).rdBs a l.length = l := by
  induction l generalizing s a with
  | nil => rfl
  | cons v l ih =>
    rw [List.length_cons] at hhi
    have hhead : ((s.wrB a v).wrBs (a + 1) l).rdB a = v := by
      rw [Chip.rdB_wrBs_outside _ _ _ _ (by omega) (by omega) (by omega), s.rdB_wrB _ _ _ (isSram_octet hlo (by omega)),
        if_pos rfl]
    exact List.cons_eq_cons.2 ⟨hhead, ih (s.wrB a v) (a + 1) (by omega) (by omega)⟩

/-! ### Fields -/

theorem Chip.fld_setFld_apart (s : Chip) (f g : Fld) (v : Nat) (hf : f.hi < 36) (hg : g.hi < 36) (hglo : g.lo ≤ g.hi)
    (hflo : f.lo ≤ f.hi) (h : g.addr ≠ f.addr ∨ g.hi < f.lo ∨ f.hi < g.lo) : (s.setFld f v).fld g = s.fld g := by
  by_cases ha : g.addr = f.addr
  · exact s.fld_setFld_disj f v ha hflo hf hglo hg (h.resolve_left (not_not_intro ha)).symm
  · exact s.fld_setFld_ne f v ha

/-- Settles O7: reads after writes, and the canonical form, which `Steady` carries through every operation and so through every step. -/
theorem storesReadBack : Obligations.StoresReadBack :=
  ⟨⟨Chip.reg_setReg, Chip.rd_wr_iff, Chip.fld_setFld_self, Chip.fld_setFld_apart,
      fun s _ _ h => ⟨(Chip.Steady.refl s).setReg.canonical h, (Chip.Steady.refl s).wr.canonical h⟩,
      fun s _ _ h => (Chip.Steady.refl s).wrBs.canonical h⟩,
    fun s a l hlo hhi => ⟨s.rds_wrs a l hlo hhi, fun b hb => s.rd_wrs_outside a b l hb⟩,
    fun s a l hlo hhi => ⟨s.rdBs_wrBs a l hlo hhi, fun b hb => s.rdB_wrBs_outside a b l hlo hhi hb⟩,
    step_canonical⟩

end Sys2Proof.Machine
end

section
/-!
PROOFS. An empty queue is one period, and the watchdog's expiry falls due in the period in which its count reaches the timeout:
what comes before it in a period, the stamps and the clocks' own work, leaves the watchdog as it is.
-/
namespace Sys2Proof.Machine

/-- `t` has the watchdog's settings and count of `s`, its cores, and its harvest mode. -/
structure Chip.SameDog (s t : Chip) : Prop where
  ctl : t.reg R.WDT_CTL = s.reg R.WDT_CTL
  cfg : t.reg R.WDT_CFG = s.reg R.WDT_CFG
  wdt : t.tmr.wdt = s.tmr.wdt
  cores : t.cores = s.cores
  harvest : t.nfc.harvest = s.nfc.harvest

/-- A register of neither of the watchdog's settings. -/
abbrev notDog (a : Nat) : Prop := R.WDT_CTL ≠ a ∧ R.WDT_CFG ≠ a

namespace Chip.SameDog

variable {c : Chip}

theorem refl (s : Chip) : s.SameDog s := ⟨rfl, rfl, rfl, rfl, rfl⟩

/-- An update that names no register, core or watchdog field. -/
theorem congr {s t : Chip} (h : c.SameDog s) (hregs : t.regs = s.regs) (hwdt : t.tmr.wdt = s.tmr.wdt) (hcores : t.cores = s.cores)
    (hharvest : t.nfc.harvest = s.nfc.harvest) : c.SameDog t := by
  have hreg (a : Nat) : t.reg a = s.reg a := by unfold Chip.reg; rw [hregs]
  exact ⟨(hreg _).trans h.ctl, (hreg _).trans h.cfg, hwdt.trans h.wdt, hcores.trans h.cores, hharvest.trans h.harvest⟩

theorem ite {p : Prop} {_ : Decidable p} {s t : Chip} (hs : c.SameDog s) (ht : c.SameDog t) : c.SameDog (if p then s else t) := by
  split <;> assumption

theorem foldl {α : Type} {f : Chip → α → Chip} {l : List α} {s : Chip} (hf : ∀ t x, c.SameDog t → c.SameDog (f t x))
    (h : c.SameDog s) : c.SameDog (l.foldl f s) := by
  induction l generalizing s with
  | nil => exact h
  | cons x l ih => exact ih (hf s x h)

theorem foldl_snd {α β : Type} {f : β × Chip → α → β × Chip} {l : List α} {s : β × Chip}
    (hf : ∀ t x, c.SameDog t.2 → c.SameDog (f t x).2) (h : c.SameDog s.2) : c.SameDog (l.foldl f s).2 := by
  induction l generalizing s with
  | nil => exact h
  | cons x l ih => exact ih (hf s x h)

theorem of_eq_mk {α : Type} {x : α × Chip} {a : α} {s : Chip} (hx : x = (a, s)) (h : c.SameDog x.2) : c.SameDog s := by
  subst hx; exact h

/-! ### Registers, memory, interrupts and events -/

variable {s : Chip}

theorem setReg {a : Nat} {v : Word} (ha : notDog a) (h : c.SameDog s) : c.SameDog (s.setReg a v) :=
  ⟨(s.reg_setReg_ne v ha.1).trans h.ctl, (s.reg_setReg_ne v ha.2).trans h.cfg, h.wdt, h.cores, h.harvest⟩

theorem setFld {f : Fld} {v : Nat} (hf : notDog f.addr) (h : c.SameDog s) : c.SameDog (s.setFld f v) := h.setReg hf

theorem count {f : Fld} {n : Nat} (hf : notDog f.addr) (h : c.SameDog s) : c.SameDog (s.count f n) := h.setFld hf

theorem wr {a : Nat} {v : Word} (h : c.SameDog s) : c.SameDog (s.wr a v) := .ite (h.congr rfl rfl rfl rfl) h

theorem wrs {a : Nat} {l : List Word} (h : c.SameDog s) : c.SameDog (s.wrs a l) := by
  induction l generalizing s a with
  | nil => exact h
  | cons v l ih => exact ih h.wr

theorem stamp {t : Nat} (h : c.SameDog s) : c.SameDog (s.stamp t).2 := h.congr rfl rfl rfl rfl

theorem setLnk {l : Lnk} (h : c.SameDog s) : c.SameDog (s.setLnk l) := h.congr rfl rfl rfl rfl

theorem notDog_icuSrc (n : Nat) : notDog (R.ICU_SRC n) := by simp only [notDog, R.WDT_CTL, R.WDT_CFG, R.ICU_SRC]; omega

theorem occSeen {n : Nat} (h : c.SameDog s) : c.SameDog (s.occSeen n) := by
  unfold Chip.occSeen
  split
  · exact (h.setFld (f := F.ICU_SRC_STATE n) (v := 1) (notDog_icuSrc n)).congr rfl rfl rfl rfl
  · exact .ite (h.congr rfl rfl rfl rfl) h
  · exact h

theorem occHold {n : Nat} (h : c.SameDog s) : c.SameDog (s.occHold n) := .ite (h.congr rfl rfl rfl rfl) h

theorem setEvrFlag {n : Nat} (h : c.SameDog s) : c.SameDog (s.setEvrFlag n) :=
  .ite (h.setFld (show notDog R.EVR_FLAG0 by decide)) (h.setFld (show notDog R.EVR_FLAG1 by decide))

theorem pulse {n : Nat} (h : c.SameDog s) : c.SameDog (s.pulse n) := by
  have h1 : c.SameDog (s.setEvrFlag n) := h.setEvrFlag
  unfold Chip.pulse
  split
  · exact h
  · extract_lets s1 e s2 s3
    have h2 : c.SameDog s2 := .ite (h1.congr rfl rfl rfl rfl) h1
    exact h2.congr rfl rfl rfl rfl

theorem publish {n : Nat} (h : c.SameDog s) : c.SameDog (s.publish n) :=
  .ite (foldl (fun _ _ ht => ht.pulse) h) (.ite (h.count (by decide)) (h.congr rfl rfl rfl rfl))

theorem occ {n : Nat} (h : c.SameDog s) : c.SameDog (s.occ n) := by
  unfold Chip.occ
  extract_lets s1
  have h1 : c.SameDog s1 := .ite h.occSeen h.occHold
  exact .ite h1 h1.publish

/-! ### Queues -/

theorem notDog_queHead (q : Nat) : notDog (R.QUE_HEAD q) := by simp only [notDog, R.WDT_CTL, R.WDT_CFG, R.QUE_HEAD]; omega
theorem notDog_queTail (q : Nat) : notDog (R.QUE_TAIL q) := by simp only [notDog, R.WDT_CTL, R.WDT_CFG, R.QUE_TAIL]; omega
theorem notDog_queQstat (q : Nat) : notDog (R.QUE_QSTAT q) := by simp only [notDog, R.WDT_CTL, R.WDT_CFG, R.QUE_QSTAT]; omega

theorem produce {q : Nat} {l : List Word} (h : c.SameDog s) : c.SameDog (s.produce q l) :=
  .ite ((h.wrs.setReg (notDog_queTail q)).occ) ((h.count (notDog_queQstat q)).occ)

theorem consume {q : Nat} (h : c.SameDog s) : c.SameDog (s.consume q) := .ite (h.setReg (notDog_queHead q)).occ h

theorem newHead {q : Nat} (h : c.SameDog s) : c.SameDog (s.newHead q) := .ite (h.congr rfl rfl rfl rfl) h

/-- A queue that has a head entry is one of the 32. -/
theorem lt_of_headEntry {q a : Nat} (h : s.headEntry q = some a) : q < 32 := by
  unfold Chip.headEntry Chip.qOn at h
  split at h
  · simp_all
  · cases h

theorem resetBackoff {q : Nat} (hq : q < 32) (h : c.SameDog s) : c.SameDog (s.resetBackoff q) := by
  have hbo : notDog (R.LNK_BO q) := by simp only [notDog, R.WDT_CTL, R.WDT_CFG, R.LNK_BO]; omega
  exact (h.setFld hbo).setFld hbo

theorem doneStamp {q reason a t : Nat} (h : c.SameDog s) : c.SameDog (s.doneStamp q reason a t) := by
  unfold Chip.doneStamp
  split
  · exact h.wrs
  · exact h.setLnk

theorem returnNow {q reason tries pwr t : Nat} {bo : Bool} (h : c.SameDog s) : c.SameDog (s.returnNow q reason tries pwr t bo) := by
  unfold Chip.returnNow
  split
  · exact h
  · next heq =>
    extract_lets len s2 s3 s4
    have h2 : c.SameDog s2 := h.wr.doneStamp
    have h3 : c.SameDog s3 := .ite (h2.count (by decide)) (.ite (h2.count (by decide)) h2)
    have h4 : c.SameDog s4 := h3.consume.newHead
    exact .ite (h4.resetBackoff (lt_of_headEntry heq)) h4

theorem returnEntry {q reason tries pwr t : Nat} {bo : Bool} (h : c.SameDog s) :
    c.SameDog (s.returnEntry q reason tries pwr t bo) := .ite h.setLnk h.returnNow

theorem checkHead {q k : Nat} (h : c.SameDog s) : c.SameDog (s.checkHead q k) := by
  induction k generalizing s with
  | zero => exact h
  | succ k ih =>
    unfold Chip.checkHead
    split
    · exact h
    · exact .ite h (ih h.returnEntry)

theorem headCheck {q : Nat} (h : c.SameDog s) : c.SameDog (s.headCheck q) := .ite h.checkHead h

/-! ### The stamps of a cycle -/

theorem lateReturns (h : c.SameDog s) : c.SameDog s.lateReturns := foldl (fun _ _ ht => ht.setLnk.returnNow.headCheck) h

theorem stampDone (h : c.SameDog s) : c.SameDog s.stampDone := by
  unfold Chip.stampDone
  split
  · exact .ite (h.congr rfl rfl rfl rfl) h
  · exact h

theorem stampReturned (h : c.SameDog s) : c.SameDog s.stampReturned :=
  foldl (fun _ e ht => (ht.stamp (t := e.2)).wrs) h.setLnk

theorem putRecord {l : List Word} (h : c.SameDog s) : c.SameDog (s.putRecord l) := by
  unfold Chip.putRecord
  split
  · exact h
  · exact .ite h.produce ((h.produce.setFld (by decide)).occ)

theorem stampChosen {k : Chosen} (h : c.SameDog s) : c.SameDog (s.stampChosen k).2 := by
  unfold Chip.stampChosen
  split
  · exact h.congr rfl rfl rfl rfl
  · exact h

theorem stampRecords (h : c.SameDog s) : c.SameDog s.stampRecords := by
  unfold Chip.stampRecords
  extract_lets l s1
  have h1 : c.SameDog s1 := by
    refine foldl (fun t e ht => ?_) h.setLnk
    split
    next heq =>
    have hs := of_eq_mk heq ht.stamp
    exact .ite hs hs.putRecord
  clear_value s1
  split
  next heq =>
  extract_lets l' s3
  have h3 : c.SameDog s3 := (of_eq_mk heq (foldl_snd (fun _ _ ht => ht.stampChosen) h1)).setLnk
  split
  · exact h3
  · exact h3.stampChosen.setLnk

theorem stampFrame (h : c.SameDog s) : c.SameDog s.stampFrame := .ite (h.congr rfl rfl rfl rfl) h

theorem slotEnd (h : c.SameDog s) : c.SameDog s.slotEnd := by
  have h1 : c.SameDog ((s.enterPhase .run).publish 122) := publish (h.congr rfl rfl rfl rfl)
  exact .ite (.ite (h1.congr rfl rfl rfl rfl) h1) h

theorem stampEvents (h : c.SameDog s) : c.SameDog s.stampEvents :=
  foldl (fun t _ ht => (ht.stamp (t := t.now)).produce) (h.congr rfl rfl rfl rfl)

theorem sampleNow (h : c.SameDog s) : c.SameDog s.sampleNow := h.congr rfl rfl rfl rfl

theorem lastStamps (h : c.SameDog s) : c.SameDog s.lastStamps :=
  h.lateReturns.stampDone.stampReturned.stampRecords.stampFrame.slotEnd.stampEvents.sampleNow

theorem nextPeriod {n k : Nat} (h : c.SameDog s) : c.SameDog { s with now := n, free := k } := h.congr rfl rfl rfl rfl

/-! ### The clocks -/

theorem presTick {n : Nat} (h : c.SameDog s) : c.SameDog (s.presTick n).2 := by
  unfold Chip.presTick
  extract_lets t
  split
  · exact h
  · exact h.congr rfl rfl rfl rfl

theorem sourceTick {n : Nat} (h : c.SameDog s) : c.SameDog (s.sourceTick n).2 := foldl_snd (fun _ _ ht => ht.presTick) h

theorem rtcStep (h : c.SameDog s) : c.SameDog s.rtcStep := by
  have hset (v : Word) : c.SameDog (s.setReg R.RTC_SUB v).updateSqw := (h.setReg (by decide)).congr rfl rfl rfl rfl
  exact .ite (.ite (h.congr rfl rfl rfl rfl) (hset _)) (hset _)

theorem lfEdge (h : c.SameDog s) : c.SameDog s.lfEdge.2 := by
  unfold Chip.lfEdge
  extract_lets o k s1
  have h1 : c.SameDog s1 := h.congr rfl rfl rfl rfl
  clear_value s1
  split
  next heq =>
  refine sourceTick (of_eq_mk heq ?_)
  split
  · exact h1
  · split
    · exact h1
    · exact h1.rtcStep

theorem clockTick (h : c.SameDog s) : c.SameDog s.clockTick.2 := by
  unfold Chip.clockTick
  split
  next heq =>
  have h1 := of_eq_mk heq (by split; exact h.lfEdge; exact h)
  split
  next heq2 => exact of_eq_mk heq2 (by split; exact h1.sourceTick; exact h1)

/-! ### The watchdog is as it was -/

theorem bit_en (h : c.SameDog s) : s.bit F.WDT_CTL_EN = c.bit F.WDT_CTL_EN := by
  simp only [Chip.bit, Chip.fld, show F.WDT_CTL_EN.addr = R.WDT_CTL from rfl, h.ctl]

theorem wdtPaused (h : c.SameDog s) : s.wdtPaused = c.wdtPaused := by
  have hcore (k : Core) : s.core k = c.core k := by simp only [Chip.core, h.cores]
  simp only [Chip.wdtPaused, Chip.bit, Chip.fld, show F.WDT_CTL_DBGPAUSE.addr = R.WDT_CTL from rfl, h.ctl, hcore]

theorem wdtPeriod (h : c.SameDog s) : s.wdtPeriod = c.wdtPeriod := by
  simp only [Chip.wdtPeriod, Chip.fld, show F.WDT_CFG_TIMEOUT.addr = R.WDT_CFG from rfl, h.cfg]

end Chip.SameDog

/-- In the cycle of AON-RC in which the count reaches the timeout, the watchdog's expiry is due. -/
theorem Chip.wdtExpiry_mem_wdtTick (s : Chip) (hnow : s.now % 1000 = 0) (hen : s.bit F.WDT_CTL_EN = true) (hrun : s.wdtPaused = false)
    (hcount : s.wdtPeriod ≤ s.tmr.wdt + 1) : Instr.wdtExpiry ∈ s.wdtTick.1 := by
  simp [Chip.wdtTick, hnow, hen, hrun, due, hcount]

theorem Chip.wdtExpiry_mem_tick (s : Chip) (hlive : s.nfc.harvest = false) (hnow : (s.now + 1) % 1000 = 0)
    (hen : s.bit F.WDT_CTL_EN = true) (hrun : s.wdtPaused = false) (hcount : s.wdtPeriod ≤ s.tmr.wdt + 1) :
    Instr.wdtExpiry ∈ s.tick.1 := by
  unfold Chip.tick
  extract_lets p u
  have hp : p.Steady s.now False := Chip.Steady.lastStamps ⟨rfl, False.elim⟩
  have hu : u.Steady (s.now + 1) False := hp.nextPeriod
  have hdog : s.SameDog u := (Chip.SameDog.refl s).lastStamps.nextPeriod
  clear_value p u
  rw [if_neg (by simp [hdog.harvest, hlive])]
  split
  next a s1 h1 =>
  have hu1 : s1.Steady (s.now + 1) False := Chip.Steady.snd_of_eq h1 hu.clockTick
  have hdog1 : s.SameDog s1 := Chip.SameDog.of_eq_mk h1 hdog.clockTick
  split
  next b s2 h2 =>
  have hdue : Instr.wdtExpiry ∈ b := by
    have hmem := s1.wdtExpiry_mem_wdtTick (by rw [hu1.now_eq, hnow]) (hdog1.bit_en.trans hen) (hdog1.wdtPaused.trans hrun)
      (by rw [hdog1.wdtPeriod, hdog1.wdt]; exact hcount)
    rwa [h2] at hmem
  split <;> simp [hdue]

/-- Settles O3: the watchdog is as it was when its cycle comes, and no row of the opcode table has bits. -/
theorem emptyQueueIsOnePeriod : Obligations.EmptyQueueIsOnePeriod :=
  ⟨fun s => ⟨rfl, s.tick_now⟩, Chip.wdtExpiry_mem_tick, fun _ _ _ => rfl⟩

end Sys2Proof.Machine
end

section
/-!
PROOFS. Locks, commanded calibrations and background calibrations (R154 to R158, R172, R173), and what the statement about them comes
to.  At the end of a commanded calibration, where a cell waits for its lock, the model lets the loop give what the free Bool of the counter
before the draw says, and the statement what that of the counter after it says.  Config.freeBool has no body, so that nothing decides
whether the two are the same.
-/
namespace Sys2Proof.Machine

/-! ### The commanded calibration (R157) -/

theorem Chip.synCal_busy {s : Chip} (h : s.bit F.SYN_CTL_EN = false ∨ s.bit F.SYN_STAT_CALPEND = true ∨ ∃ k, s.syn.job = .cmd k ∨ s.syn.job = .cell k) :
    s.synCal = s.setReason R.SYN_STAT Rc.BUSY := by
  unfold Chip.synCal
  split
  case isTrue => rfl
  case isFalse on =>
    rcases h with off | pend | ⟨k, job | job⟩
    · exact absurd off (by simpa using on)
    · cases s.syn.job <;> simp [pend]
    · simp [job]
    · simp [job]

theorem Chip.synCal_waits {s : Chip} (on : s.bit F.SYN_CTL_EN = true) (pend : s.bit F.SYN_STAT_CALPEND = false) (job : s.syn.job = .idle)
    (live : s.lnk.live.isSome = true) : s.synCal = (s.setBit F.SYN_STAT_CALPEND true).setReason R.SYN_STAT Rc.OK := by
  have some : s.lnk.live ≠ none := Option.isSome_iff_ne_none.1 live
  simp [Chip.synCal, on, job, pend, some]

theorem Chip.stopBg_of_idle {s : Chip} (job : s.syn.job = .idle) : s.stopBg = s := by simp only [Chip.stopBg, job]

theorem Chip.synCal_starts {s : Chip} (on : s.bit F.SYN_CTL_EN = true) (pend : s.bit F.SYN_STAT_CALPEND = false) (job : s.syn.job = .idle)
    (live : s.lnk.live = none) : s.synCal = (s.setReason R.SYN_STAT Rc.OK).startCmdCal := by
  simp [Chip.synCal, on, job, pend, live, Chip.stopBg_of_idle job]

/-- Its start claims the first of the four steps. -/
theorem Chip.startCmdCal_eq (s : Chip) : s.startCmdCal =
    ((s.setBit F.SYN_STAT_CALPEND false).setSyn { s.syn with bad := false, orphan := false, job := .cmd 0, stepEnd := none }).claim 5 48 45 false := rfl

theorem Chip.calPending_of_not {s : Chip} (h : s.bit F.SYN_STAT_CALPEND = false ∨ s.lnk.live.isSome = true) : s.calPending = s := by
  refine if_neg ?_
  rcases h with none | live
  · simp [none]
  · have some : s.lnk.live ≠ none := Option.isSome_iff_ne_none.1 live
    simp [some]

theorem Chip.calPending_starts {s : Chip} (pend : s.bit F.SYN_STAT_CALPEND = true) (live : s.lnk.live = none) (job : s.syn.job = .idle) :
    s.calPending = s.startCmdCal := by
  simp [Chip.calPending, pend, live, job]

/-! ### Its steps (R155) -/

theorem Chip.calStepDone_of_none {s : Chip} (ok : Bool) (h : s.syn.job = .idle ∨ s.syn.stepEnd = none) : s.calStepDone ok = s := by
  unfold Chip.calStepDone
  rcases h with job | none
  · simp [job]
  · dsimp only
    cases s.syn.job <;> simp [none]

theorem Chip.calStepDone_cmd {s : Chip} {ok : Bool} {k : Nat} (job : s.syn.job = .cmd k) (run : s.syn.stepEnd.isSome = true) (own : s.syn.orphan = false) :
    s.calStepDone ok = if k < 3 then
        ((s.endGrant 5).setSyn { (s.endGrant 5).syn with bad := s.syn.bad || !ok }).claimStep (.cmd (k + 1)) 45 none
      else (s.endGrant 5).calComplete (s.syn.bad || !ok) false := by
  have ends : s.syn.stepEnd ≠ none := Option.isSome_iff_ne_none.1 run
  simp [Chip.calStepDone, job, ends, own, SynJob.next]

/-- A calibration that found every setting, where no cell waits for its lock. -/
theorem Chip.calComplete_good {s w : Chip}
    (hw : w = ((s.calOver.setFld F.SYN_STAT_TCAL (s.calOver.fld F.EGY_STAT_TEMP)).setBit F.SYN_STAT_CALVALID true).setReason R.SYN_STAT Rc.OK)
    (want : w.wantsLock = false) : s.calComplete false false = w := by
  simp only [Chip.calComplete, ← hw, want]
  cases w.lnk.live <;> rfl

/-- What the loop gives a cell that waits for its lock: the lock at once, or the search for it. -/
def Chip.loopGives (x : Chip) (found : Bool) : Chip :=
  if found then x.locked else (x.setSyn { x.syn with lockFrom := some x.now }).setFld F.RFE_STAT_STATE 1

/-- The same with a cell that waits: the free value is that of the counter before the draw. -/
theorem Chip.calComplete_locks {s w : Chip} {l : Live}
    (hw : w = ((s.calOver.setFld F.SYN_STAT_TCAL (s.calOver.fld F.EGY_STAT_TEMP)).setBit F.SYN_STAT_CALVALID true).setReason R.SYN_STAT Rc.OK)
    (want : w.wantsLock = true) (live : w.lnk.live = some l) :
    s.calComplete false false = (w.setFld F.SYN_FREQ_FREQ l.freq).draw.loopGives (Config.freeBool w.free) := by
  simp only [Chip.calComplete, ← hw, live, want]
  rfl

/-! ### The lock (R158) -/

theorem Chip.synLock_of_sought {s : Chip} (h : s.syn.lockFrom.isSome = true) : s.synLock = s.locked := if_pos h

theorem Chip.lockFail_of_sought {s : Chip} (h : s.syn.lockFrom.isSome = true) : s.lockFail = s.radioFail Rc.UNLOCKED := if_pos h

theorem Chip.lockLost_of_unlocked {s : Chip} (h : s.bit F.SYN_STAT_LOCK = false) : s.lockLost = s := if_pos (by simp [h])

section
variable {s u : Chip} {l : Live} (hu : u = (s.setBit F.SYN_STAT_LOCK false).radioFail Rc.UNLOCKED) (lock : s.bit F.SYN_STAT_LOCK = true)
include hu lock

theorem Chip.lockLost_without_cell (live : u.lnk.live = none) : s.lockLost = u := by
  simp [Chip.lockLost, lock, ← hu, live]

theorem Chip.lockLost_sending (live : u.lnk.live = some l) (air : l.onAir = true) :
    s.lockLost = u.abortTx l Rc.UNLOCKED (u.now + min (us 2) u.ramp) := by
  simp [Chip.lockLost, lock, ← hu, live, air]

theorem Chip.lockLost_receiving (live : u.lnk.live = some l) (air : l.onAir = false) (rx : l.receiving = true) (cell : u.fld F.LNK_STAT_LIVE ≠ 3) :
    s.lockLost = u.endCell l Rc.UNLOCKED := by
  simp [Chip.lockLost, lock, ← hu, live, air, rx, cell]

end

/-! ### Which background calibrations are due (R172) -/

/-- Time or temperature makes background calibration `k` due. -/
def Chip.bgFalls (s : Chip) (k : Nat) : Bool :=
  let last := s.syn.bgDone.getD k (0, 0)
  bitOf (s.fld F.RFE_CFG_BGEN) k && s.fld F.RFE_CFG_BGINT ≠ 0 && last.1 + secs (10 * s.fld F.RFE_CFG_BGINT) ≤ s.now || s.tempMoved last.2

theorem Chip.bgMask_eq (s : Chip) :
    s.bgMask = (List.range 4).foldl (fun m k => putBit m k (bitOf m k || s.bgFalls k)) s.syn.bgDue := by
  simp only [Chip.bgMask, Chip.bgFalls, Bool.or_assoc]

theorem testBit_foldl_putBit_or (g : Nat → Bool) (l : List Nat) (m k : Nat) :
    (l.foldl (fun m n => putBit m n (bitOf m n || g n)) m).testBit k = (m.testBit k || decide (k ∈ l) && g k) := by
  induction l generalizing m with
  | nil => simp
  | cons n l ih =>
    rw [List.foldl_cons, ih, testBit_putBit, bitOf]
    by_cases hk : k = n
    · cases hg : g n <;> simp [hk, hg]
    · simp [hk]

theorem Chip.bitOf_bgMask (s : Chip) {k : Nat} (hk : k < 4) : bitOf s.bgMask k = (bitOf s.syn.bgDue k || s.bgFalls k) := by
  rw [bitOf, s.bgMask_eq, testBit_foldl_putBit_or]
  simp [hk, bitOf]

theorem Chip.bgFalls_iff {s : Chip} {k t c : Nat} (last : s.syn.bgDone.getD k (0, 0) = (t, c)) :
    s.bgFalls k = true ↔ bitOf (s.fld F.RFE_CFG_BGEN) k = true ∧ s.fld F.RFE_CFG_BGINT ≠ 0 ∧ t + secs (10 * s.fld F.RFE_CFG_BGINT) ≤ s.now
      ∨ s.tempMoved c = true := by
  simp only [Chip.bgFalls, last, Bool.or_eq_true, Bool.and_eq_true, decide_eq_true_eq, and_assoc]

/-! ### The background steps (R173) -/

theorem Chip.bgStart_of_none_due {s : Chip} (prep : Option Nat) (h : ∀ k : Nat, k < 4 → bitOf s.syn.bgDue k = false) : s.bgStart prep = s := by
  have none : (List.range 4).find? (fun k => bitOf s.syn.bgDue k) = none := List.find?_range_eq_none.2 fun k hk => by simp [h k hk]
  simp only [Chip.bgStart, none]

theorem Chip.bgStart_of_busy {s : Chip} (prep : Option Nat) (h : s.radioIdle = false) : s.bgStart prep = s := by
  unfold Chip.bgStart
  split
  · rfl
  · simp [h]

section
variable {s : Chip} {k : Nat} (hk : k < 4) (due : bitOf s.syn.bgDue k = true) (first : ∀ j : Nat, j < k → bitOf s.syn.bgDue j = false)
include hk due first

theorem find_first_due : (List.range 4).find? (fun k => bitOf s.syn.bgDue k) = some k :=
  List.find?_range_eq_some.2 ⟨due, List.mem_range.2 hk, fun j hj => by simp [first j hj]⟩

/-- The first that is due, while the engine has no next preparation. -/
theorem Chip.bgStart_without_prep (run : s.pwr.st = .run) (syn : s.bit F.SYN_CTL_EN = true) (rfe : s.bit F.RFE_CTL_EN = true) (idle : s.radioIdle = true) :
    s.bgStart none = (s.setSyn { s.syn with gap := none, gapLate := false }).claimStep (.bg k) ([40, 50, 50, 45].getD k 45) none := by
  simp [Chip.bgStart, find_first_due hk due first, run, syn, rfe, idle]

/-- The first that is due, in the gap that ends at `t`. -/
theorem Chip.bgStart_before_prep (t : Nat) (run : s.pwr.st = .run) (syn : s.bit F.SYN_CTL_EN = true) (rfe : s.bit F.RFE_CTL_EN = true)
    (idle : s.radioIdle = true) {d : Nat} (hd : d = [40, 50, 50, 45].getD k 45) :
    s.bgStart (some t) =
      if s.syn.idleSince + us 300 ≤ t ∧ s.now + us (d + 10) ≤ t ∧ ¬ (s.syn.gapLate = true ∧ s.syn.gap = some t) then
        (s.setSyn { s.syn with gap := some t, gapLate := false }).claimStep (.bg k) d (some (t - us (d + 10)))
      else s := by
  subst hd
  simp [Chip.bgStart, find_first_due hk due first, run, syn, rfe, idle, and_assoc, -not_and, Decidable.not_and_iff_or_not]

end

theorem Chip.bgStepDone_of_none {s : Chip} (h : s.syn.job = .idle ∨ s.syn.stepEnd = none) : s.bgStepDone = s := by
  unfold Chip.bgStepDone
  split
  case h_1 job run => rcases h with h | h <;> simp_all
  case h_2 => rfl

/-- The end of a background step. -/
theorem Chip.bgStepDone_of_step {s u : Chip} {k : Nat} {y : Syn} (hu : u = s.calOver) (job : s.syn.job = .bg k) (run : s.syn.stepEnd.isSome = true)
    (hy : y = { u.syn with bgDue := putBit u.syn.bgDue k false, bgDone := u.syn.bgDone.set k (u.now, u.fld F.EGY_STAT_TEMP), idleSince := s.syn.idleSince }) :
    s.bgStepDone = (u.setSyn y).endGrant 5 := by
  obtain ⟨t, run⟩ := Option.isSome_iff_exists.1 run
  subst hu hy
  simp only [Chip.bgStepDone, job, run]
  rfl

/-! ### What the statement comes to -/

/-- A command's end, where it has nothing to hand over and stops neither a wait for a boundary nor a rest entry, leaves SYN's state. -/
theorem Chip.settle_syn {s : Chip} (out : s.out = {}) (badger : s.cores.badger.run = .held) (ldr : s.ldr.who = .off) (entering : s.pwr.entering = none) :
    s.settle.syn = s.syn := by
  have line : s.slotwLine = s := by simp only [Chip.slotwLine, badger]
  have entry : s.entryAbort = s := if_neg (by simp [entering])
  have doze (c : Chip) : c.noteDoze.syn = c.syn := by unfold Chip.noteDoze; split <;> rfl
  have grant (c : Chip) : c.cxGrant.syn = c.syn := by unfold Chip.cxGrant; split <;> rfl
  have keep (c : Chip) : c.keepLevels.syn = c.syn := by unfold Chip.keepLevels; split <;> rfl
  rw [Chip.settle, Chip.handOverAll_none 32 s out, line, s.voleKick_of_not_vole (by simp [ldr]), entry, keep, grant, doze]

/-- A cell that waits for its lock. -/
def waitingCell : Live := { live0 with granted := true }

/-- The last step of a commanded calibration in a chip whose cell waits for its lock and whose counter of free values is `n`. -/
def lastStep (n : Nat) : Chip :=
  { free := n, syn := { job := .cmd 3, stepEnd := some 0 }, lnk := { live := some waitingCell } }

/-- The same once the calibration is valid. -/
def calibrated (n : Nat) : Chip :=
  let c := ((lastStep n).endGrant 5).calOver
  ((c.setFld F.SYN_STAT_TCAL (c.fld F.EGY_STAT_TEMP)).setBit F.SYN_STAT_CALVALID true).setReason R.SYN_STAT Rc.OK

/-- The same once the free value is drawn. -/
def drawn (n : Nat) : Chip := ((calibrated n).setFld F.SYN_FREQ_FREQ waitingCell.freq).draw

theorem bit_lock_calibrated (n : Nat) : (calibrated n).bit F.SYN_STAT_LOCK = false := by
  have counter : (calibrated n).bit F.SYN_STAT_LOCK = (calibrated 0).bit F.SYN_STAT_LOCK := rfl
  rw [counter]
  decide

theorem wantsLock_calibrated (n : Nat) : (calibrated n).wantsLock = true := by
  have live : (calibrated n).lnk.live = some waitingCell := rfl
  have sought : (calibrated n).syn.lockFrom = none := rfl
  simp only [Chip.wantsLock, live, sought, bit_lock_calibrated]
  rfl

theorem lockFrom_loopGives (n : Nat) (found : Bool) : ((drawn n).loopGives found).settle.syn.lockFrom = if found then none else some 0 := by
  cases found <;> exact congrArg Syn.lockFrom (Chip.settle_syn rfl rfl rfl rfl)

/-- The model gives the outcome of the free value before the draw. -/
theorem calStepDone_lastStep (n : Nat) : (lastStep n).calStepDone true = (drawn n).loopGives (Config.freeBool n) := by
  have counter : (calibrated n).free = n := rfl
  have last : (lastStep n).calStepDone true = ((lastStep n).endGrant 5).calComplete false false :=
    (Chip.calStepDone_cmd (k := 3) rfl rfl rfl).trans (if_neg (by decide))
  rw [last, Chip.calComplete_locks (w := calibrated n) (l := waitingCell) rfl (wantsLock_calibrated n) rfl, counter, drawn]

/-- At the last step the statement asks for the outcome of the next free value, and the model gives that of this one. -/
theorem freeBool_of_locksAndCalibrations (h : Obligations.LocksAndCalibrations) (n : Nat) : Config.freeBool (n + 1) = Config.freeBool n := by
  obtain ⟨⟨-, -, steps, -⟩, -⟩ := h
  obtain ⟨-, -, good, -⟩ := steps (lastStep n) _ true 0 rfl
  obtain ⟨-, locks⟩ := good rfl rfl rfl rfl (calibrated n) rfl
  have stated : exec (.calStepDone true) ⟨[], lastStep n⟩ = State.after ⟨[], lastStep n⟩ ((drawn n).loopGives (Config.freeBool (n + 1))) :=
    locks _ (drawn n) (wantsLock_calibrated n) rfl rfl []
  rw [exec_calStepDone, calStepDone_lastStep] at stated
  injection stated with state
  have same := congrArg (fun c => c.chip.syn.lockFrom) state
  simp only [lockFrom_loopGives] at same
  revert same
  cases Config.freeBool n <;> cases Config.freeBool (n + 1) <;> simp

/-- The rest of the statement holds: each command by the equation of its effect, and the mask of R172 bit by bit. -/
theorem locksAndCalibrations_of_freeBool (free : ∀ n, Config.freeBool (n + 1) = Config.freeBool n) : Obligations.LocksAndCalibrations := by
  unfold Obligations.LocksAndCalibrations
  refine ⟨⟨fun s u ag own => ?_, fun s => ⟨fun h => ?_, fun pend live job => ?_⟩, fun s u ok k hu => ?_, fun s => ?_, fun s u hu => ?_⟩,
    fun s ag => ?_, fun s => ⟨fun q => exec_bgCalDue ⟨q, s⟩, fun k t c hk last => ?_⟩,
    fun s k d hk due first hd run syn rfe idle => ?_, fun s h => ?_, fun s u k hu => ?_⟩
  · have cal {d : Chip} (h : s.synCal = d) : s.gives (.synCalCmd ag) d :=
      Chip.gives_of ((Chip.ifRadioOwner_of_owner own).trans h) fun q => exec_synCalCmd ⟨q, s⟩ ag
    refine ⟨fun busy => cal (Chip.synCal_busy busy), fun on pend job => ⟨fun live => cal (Chip.synCal_waits on pend job live), fun live hu => cal ?_⟩⟩
    rw [Chip.synCal_starts on pend job live, Chip.startCmdCal_eq, hu]
    rfl
  · exact Chip.gives_of (Chip.calPending_of_not h) fun q => exec_calPendingStart ⟨q, s⟩
  · exact Chip.gives_of (Chip.calPending_starts pend live job) fun q => exec_calPendingStart ⟨q, s⟩
  · subst hu
    have done {ok : Bool} {d : Chip} (h : s.calStepDone ok = d) : s.gives (.calStepDone ok) d := Chip.gives_of h fun q => exec_calStepDone ⟨q, s⟩ ok
    refine ⟨fun none => done (Chip.calStepDone_of_none ok none), fun job lt run own => done ((Chip.calStepDone_cmd job run own).trans (if_pos lt)),
      fun job run own good w hw => ⟨fun want => done ?_, fun l x want live hx => done ?_⟩, fun job run own bad => done ?_⟩
    · rw [Chip.calStepDone_cmd job run own, good]
      exact Chip.calComplete_good hw want
    · rw [Chip.calStepDone_cmd job run own, good, hx, show (w.setFld F.SYN_FREQ_FREQ l.freq).draw.free = w.free + 1 from rfl, free w.free]
      exact Chip.calComplete_locks hw want live
    · have failed : (s.syn.bad || !ok) = true := by simpa using bad
      rw [Chip.calStepDone_cmd job run own, failed]
      rfl
  · have lock {d : Chip} (h : s.synLock = d) : s.gives .synLock d := Chip.gives_of h fun q => exec_synLock ⟨q, s⟩
    have fail {d : Chip} (h : s.lockFail = d) : s.gives .lockFailTimeout d := Chip.gives_of h fun q => exec_lockFailTimeout ⟨q, s⟩
    exact ⟨fun none => ⟨lock (if_neg (by simp [none])), fail (if_neg (by simp [none]))⟩,
      fun sought => ⟨lock (Chip.synLock_of_sought sought), fail (Chip.lockFail_of_sought sought)⟩⟩
  · have lost {d : Chip} (h : s.lockLost = d) : s.gives .lockLost d := Chip.gives_of h fun q => exec_lockLost ⟨q, s⟩
    exact ⟨fun off => lost (Chip.lockLost_of_unlocked off), fun lock _ live => lost (Chip.lockLost_without_cell hu lock live),
      fun l lock live air => lost (Chip.lockLost_sending hu lock live air),
      fun l lock live air rx cell => lost (Chip.lockLost_receiving hu lock live air rx cell)⟩
  · have due {d : Chip} (h : s.ifRadioOwner ag R.RFE_STAT Chip.bgCmd = d) : s.gives (.rfeBgcalCmd ag) d :=
      Chip.gives_of h fun q => exec_rfeBgcalCmd ⟨q, s⟩ ag
    exact ⟨fun own => due (Chip.ifRadioOwner_of_owner own), fun no => due (Chip.ifRadioOwner_of_not no)⟩
  · rw [s.bitOf_bgMask hk, Bool.or_eq_true, Chip.bgFalls_iff last]
  · have starts {x : Option Nat} {c : Chip} (prep : s.nextPrep = x) (h : s.bgStart x = c) : s.gives .bgCalStepStart c :=
      Chip.gives_of (e := s.bgStart s.nextPrep) (by rw [prep, h]) fun q => exec_bgCalStepStart ⟨q, s⟩
    have gap (t : Nat) := Chip.bgStart_before_prep hk due first t run syn rfe idle hd
    refine ⟨fun prep => starts prep ?_, fun t prep long time => ⟨fun may => starts prep ?_, fun late same => starts prep ?_⟩, fun t prep short => starts prep ?_⟩
    · rw [Chip.bgStart_without_prep hk due first run syn rfe idle, hd]
      rfl
    · refine (gap t).trans (if_pos ⟨long, time, fun ⟨late, same⟩ => ?_⟩)
      rcases may with may | may
      · simp [may] at late
      · exact may same
    · exact (gap t).trans (if_neg fun ⟨_, _, may⟩ => may ⟨late, same⟩)
    · exact (gap t).trans (if_neg (by omega))
  · have starts {c : Chip} (h : s.bgStart s.nextPrep = c) : s.gives .bgCalStepStart c := Chip.gives_of h fun q => exec_bgCalStepStart ⟨q, s⟩
    exact starts (h.elim (Chip.bgStart_of_none_due _) (Chip.bgStart_of_busy _))
  · have done {d : Chip} (h : s.bgStepDone = d) : s.gives .bgCalStepDone d := Chip.gives_of h fun q => exec_bgCalStepDone ⟨q, s⟩
    exact ⟨fun none => done (Chip.bgStepDone_of_none none), fun job run y hy => done (Chip.bgStepDone_of_step hu job run hy)⟩

/-- Of the model the statement says that the free Bools are all the same, and that alone: it is left open, as Config leaves its constants. -/
theorem locksAndCalibrations_iff : Obligations.LocksAndCalibrations ↔ ∀ n, Config.freeBool (n + 1) = Config.freeBool n :=
  ⟨freeBool_of_locksAndCalibrations, locksAndCalibrations_of_freeBool⟩

end Sys2Proof.Machine
end
